-- ==== Sys2Proof/Word.lean ====
section
/-! DEFINITION. The word types of the device: R14 makes every register 32 bits wide; memory is byte addressed. -/

namespace Sys2Proof

/-- A register word (R14). -/
abbrev W := BitVec 32

/-- A byte of the reservoir, of an image or of a frame (R26). -/
abbrev Byte := BitVec 8

end Sys2Proof
end

