-- ==== Sys2Proof/Syntax.lean ====
section
/-! DEFINITION. The commands the block takes: one constructor for each row of spec/opcode_table.json, with the row's
operands. What only the outside world can know (a level on a pin, a measured value, the bits on a wire) is an operand. -/

namespace Sys2Proof

/-- The four paths to the registers (spec/17): SPI, JTAG, in-band management and the firmware. -/
inductive AccPath where
  | spi | jtag | inband | fw
  deriving DecidableEq, Repr

/-- A converter unit with a receive front end: a receive path or an observation receiver (R6). -/
inductive RxUnit where
  | path (n : Fin 64)
  | obs (o : Fin 8)
  deriving DecidableEq, Repr

/-- A sample-rate conversion chain (spec/04). -/
inductive ChainId where
  | ddc (n : Fin 64)
  | duc (n : Fin 64)
  | obs (o : Fin 8)
  deriving DecidableEq, Repr

/-- A direction of the signal flow. -/
inductive Dir where
  | ul | dl
  deriving DecidableEq, Repr

/-- An uplink stream to the link: a traffic beam or an element (R374, classes 0 and 1). -/
inductive UlStream where
  | beam (b : Fin 32)
  | elem (n : Fin 64)
  deriving DecidableEq, Repr

/-- A downlink stream from the link (R374, classes 2 and 3). -/
inductive DlStream where
  | beam (b : Fin 32)
  | elem (n : Fin 64)
  deriving DecidableEq, Repr

/-- An input bridge of the core (spec/01, Elastic bridges): receive, observation, link receive, mirror. -/
inductive InBridge where
  | rx (n : Fin 64)
  | obs (o : Fin 8)
  | lrx (i : Fin 9)
  | mir (i : Fin 3)
  deriving DecidableEq, Repr

/-- An output bridge whose releases the latency anchor times (R61): the link output of an uplink stream, or the
transmit output of a path. -/
inductive OutBridge where
  | ul (st : UlStream)
  | tx (n : Fin 64)
  deriving DecidableEq, Repr

/-- The twelve clocked domains of spec/01. -/
inductive Domain where
  | ref
  | conv (q : Fin 4)
  | obs | ltx | lrx | mir | tod | hk | nvi
  deriving DecidableEq, Repr

/-- A resource of the kitty (R438): its kind code, the pool it belongs to, its physical index and its logical one. -/
structure KittyRes where
  kind : Fin 12
  pool : Nat
  phys : Nat
  logical : Nat
  deriving DecidableEq, Repr

/-- A SerDes macro position (R365, R458): lane 0 to 7 of the link in one direction, or a mirror lane. -/
inductive SerdesLane where
  | tx (pos : Fin 8)
  | rx (pos : Fin 8)
  | mir (l : Fin 2)
  deriving DecidableEq, Repr

/-- What a full self-calibration found for one converter (R116, R118): the slices outside their trim range, a bit each, and the
forty factor words measured. -/
structure UnitCal where
  bad : BitVec 5
  facts : List W
  deriving DecidableEq, Repr

/-- What the slack monitor saw of one pipeline over a window (R46): the time its slowest stage waited on the clocked
side, in ticks, and whether any word moved. -/
structure PipeObs where
  wait : Nat
  busy : Bool
  deriving DecidableEq, Repr

/-- A beam descriptor (R163, R385). -/
structure SchedDesc where
  b : Fin 32
  src : BitVec 2
  prio : Fin 8
  bsh : Fin 8
  att : Fin 128
  raw : Bool
  spread : Fin 16
  sensor : BitVec 48
  az : BitVec 16
  el : BitVec 16
  pool : BitVec 16
  deriving DecidableEq, Repr

/-- A schedule message (R385): the frame number, slot and direction it is for, and its descriptors. -/
structure Sched where
  frame : BitVec 24
  slot : BitVec 8
  dir : Dir
  descs : List SchedDesc
  deriving DecidableEq, Repr

/-- The fields a directory WRITE can select (R214, R383): mode, spread, az_code, el_code, pool_idx, raw, user. -/
structure DirFields where
  mode : BitVec 2
  spread : BitVec 4
  az : BitVec 16
  el : BitVec 16
  pool : BitVec 16
  raw : Bool
  user : BitVec 128
  deriving DecidableEq, Repr

/-- A valid entry of the directory (R210). -/
structure DirEntry where
  id : BitVec 48
  pinned : Bool
  raw : Bool
  mode : BitVec 2
  spread : BitVec 4
  az : BitVec 16
  el : BitVec 16
  pool : BitVec 16
  tOff : BitVec 32
  fOff : BitVec 32
  snr : BitVec 8
  lastBeam : BitVec 8
  lastPre : BitVec 16
  lastSeen : BitVec 40
  bindCount : W
  created : W
  seq : W
  user : BitVec 128
  deriving DecidableEq, Repr

/-- What a calibration trick's estimation found for one path (R275, R291): for each tone the ratio of the path's measurement to
its pilot's, I and Q in 2^−30; in kind 0 that of its quadrant's observation receiver 2q as well; and the scatter of the path's
recent measurements in the units of the uncertainty fields (amplitude, phase, delay). -/
structure PathMeas where
  path : Fin 64
  r : List (Int × Int)
  obs : List (Int × Int)
  scatA : Nat
  scatP : Nat
  scatD : Nat
  deriving DecidableEq, Repr


/-- What the SECDED code found on one read of a 64-bit unit (R328). -/
inductive EccErr where
  | clean | corrected | double
  deriving DecidableEq, Repr

/-- The configuration registers of a capture set that R347 protects. -/
inductive CapReg where
  | ctrl | srcLo | srcHi | base | nrec | trig
  deriving DecidableEq, Repr

/-- A block of twelve samples (R378): its header byte and its twenty-four mantissas, I then Q of each sample. -/
structure IqBlock where
  hdr : Byte
  mant : List Int
  deriving DecidableEq, Repr

/-- A downlink message of eCPRI type 0 (R374, R376): PC_ID, SEQ_ID, the section header, and its blocks. -/
structure IqMsg where
  pcId : BitVec 16
  seqId : BitVec 16
  frame : BitVec 24
  fmt : BitVec 8
  j : BitVec 24
  flags : BitVec 8
  blocks : List IqBlock
  deriving DecidableEq, Repr

/-- An IEEE 1588 message (R389): whether it is an event message, its messageType and sequenceId, and its octets from the
common header on. -/
structure PtpMsg where
  isEvent : Bool
  msgType : BitVec 4
  seqId : BitVec 16
  body : List Byte
  deriving DecidableEq, Repr

/-- The header of a native message (R381): version, type, session, sequence number. -/
structure NativeHdr where
  ver : BitVec 8
  typ : BitVec 8
  sess : BitVec 16
  seq : W
  deriving DecidableEq, Repr

/-- What a received Ethernet frame carries behind its EtherType (R363): the common headers (revision, type) of the eCPRI
messages concatenated in it, an IEEE 1588 message with the half-tick and fine part of its timestamp, a native message's
header, or something else. -/
inductive EthPay where
  | ecpri (hdrs : List (BitVec 4 × BitVec 8))
  | ptp (m : PtpMsg) (fine : BitVec 7)
  | native (h : NativeHdr)
  | other
  deriving DecidableEq, Repr

/-- A received Ethernet frame (R363): whether its FCS is right, its length in bytes, its addresses, its EtherType after an
IEEE 802.1Q tag is removed, and what it carries. -/
structure EthFrame where
  fcsOk : Bool
  len : Nat
  dst : BitVec 48
  src : BitVec 48
  etype : BitVec 16
  pay : EthPay
  deriving DecidableEq, Repr

/-- One operation of a management request (R388): a read or a write of a device address. -/
structure MgmtOp where
  write : Bool
  addr : W
  data : W
  deriving DecidableEq, Repr

/-- A loop of the clock system (spec/13): the MPLL or a quadrant's QPLL. -/
inductive Loop where
  | mpll
  | qpll (q : Fin 4)
  deriving DecidableEq, Repr

/-- A heartbeat frame of the partner (R459): its role, device state, quadrant states (GCTL_QUAD_STATE.st_q), twin_ready, token state, deck identity, twin_rank and
GCTL_UID, and its tick count at sending corrected for the measured link delay. -/
structure Heartbeat where
  role : Fin 3
  state : Fin 8
  quads : BitVec 8
  ready : Bool
  token : Bool
  deck : BitVec 64
  rank : BitVec 4
  uid : BitVec 64
  tick : BitVec 64
  deriving DecidableEq, Repr

/-- A heartbeat that arrives, with the mirror lag that the device measures then, in 10 µs (R461). -/
structure HbArrival where
  hb : Heartbeat
  lag : Nat
  deriving DecidableEq, Repr

/-- What a mirror frame carries (R460), class by class. -/
inductive MirBody where
  | timeCheck (tick : BitVec 64)
  | steer (v : W)
  | classB (v : W) (start : BitVec 64)
  | syncAlign (tod : BitVec 64) (fn : BitVec 24)
  | deck (id : BitVec 64)
  | sched (m : Sched)
  | quadReq (v : W)
  | anchor (d : Dir) (v : W)
  | bmuCfg (v : W)
  | carrier (d : Dir) (v : W)
  | exclude (d : Dir) (q : Fin 4) (v : W)
  | txAtt (n : Fin 64) (v : W)
  | txCfg (n : Fin 64) (v : W)
  | poolVec (i : BitVec 16) (ws : List W)
  | pdBank (n : Fin 64) (ws : List W)
  | pdSwap (n : Fin 64) (tick : Option (BitVec 64))
  | calFront (d : Dir) (n : Fin 64) (amp phase : Int)
  deriving DecidableEq, Repr

/-- A frame of the mirror link (R458): whether its CRC is right, the sequence number of its class, the tick at which the PRIMARY applies
the change (R460), and its content. -/
structure MirChange where
  crcOk : Bool
  seq : W
  at_ : BitVec 64
  body : MirBody
  deriving DecidableEq, Repr

/-- An analogue rail that left its range (R517); for a quadrant's receive or transmit rail, whether the fault persists until the
checks of R444 find the paths it feeds. -/
inductive Rail where
  | clk
  | rx (q : Fin 4) (persists : Bool)
  | tx (q : Fin 4) (persists : Bool)
  | ser
  deriving DecidableEq, Repr

/-- A step of the twin's transfer session at the receiving device (R480). -/
inductive TwinXfer where
  | open_ (target : BitVec 2)
  | data (off : W) (bytes : List Byte)
  | commit (store : Bool)
  | abort
  deriving DecidableEq, Repr

/-- How an I2C transaction ended (R500, R501): the conditions met on the bus, the bytes transferred and the bytes read. -/
structure I2cResult where
  nack : Bool
  arbLost : Bool
  timeout : Bool
  stuck : Bool
  ndone : Fin 17
  data : List Byte
  deriving DecidableEq, Repr

/-- The commands of the block: the rows of spec/opcode_table.json. -/
inductive Instr where
  /-- REGISTER_WRITE (R14): A whole-word write to a register that has no row of its own is applied with the register's field
  rules. -/
  | registerWrite (path : AccPath) (addr : Nat) (bytes : Nat) (v : W)
  /-- UNMAPPED_ACCESS (R496): A read or write to an unmapped address reads 0 or is ignored, and sets addr_err. -/
  | unmappedAccess (path : AccPath) (addr : Nat) (isWrite : Bool)
  /-- W1C_WRITE (R20): Writing 1 to sticky bits clears them, unless the device sets a bit in the same cycle. -/
  | w1cWrite (path : AccPath) (addr : Nat) (v : W) (devSets : W)
  /-- STAGED_WRITE (R22): A write to an RWS register is held as pending, or applied at once while its frame timing is stopped. -/
  | stagedWrite (path : AccPath) (addr : Nat) (v : W)
  /-- SLOT_BOUNDARY (R22): At each slot boundary the device applies staged values and every per-slot change. -/
  | slotBoundary
  /-- FRAME_BOUNDARY (R418): At each frame boundary the frame number advances and frame-timed changes apply. -/
  | frameBoundary
  /-- INPUT_BRIDGE_WRITE (R41): The clocked side of an input bridge writes one entry per beat. `taken` entries left on the
  core side since the last beat. -/
  | inputBridgeWrite (b : InBridge) (taken : Nat)
  /-- OUTPUT_BRIDGE_RELEASE (R66): An output bridge releases the entry due at its anchor release instant. -/
  | outputBridgeRelease (b : OutBridge)
  /-- LATE_ENTRY_ARRIVAL (R66): An entry that reaches its output bridge after its release instant is discarded. `seq` is the
  release position, counted from the stream's first. -/
  | lateEntryArrival (b : OutBridge) (seq : Nat)
  /-- DOMAIN_CLOCK_STOP (R44): When a domain's clock stops, its bridges freeze and the pipelines behind them are held. -/
  | domainClockStop (d : Domain)
  /-- BRIDGE_FLUSH (R44): When a stopped clock returns, its bridges are flushed and release GAP until the anchor is
  re-established. -/
  | bridgeFlush (d : Domain)
  /-- SLACK_WINDOW_END (R46): At the end of each slack window the device computes every pipeline's slack and runs the ladder.
  One observation for each pipeline, 0 to 16. -/
  | slackWindowEnd (obs : List PipeObs)
  /-- AVS_REPEAT (R511): Every 1 ms the device repeats its voltage request on the bus. -/
  | avsRepeat
  /-- AVS_NORESP (R57): When VDD_CORE has not reached the request 200 us after it, avs_noresp is set and step 1 counts as
  exhausted. -/
  | avsNoresp
  /-- AVS_CFG_WRITE (R58): A write to GCTL_AVS_CFG is applied with floor and ceil clamped, or refused with cfg_err if floor
  exceeds ceil. -/
  | avsCfgWrite (v : W)
  /-- SLACK_THR_WRITE (R49): A write to GCTL_SLACK_THR that breaks the order of its thresholds is ignored and sets cfg_err. -/
  | slackThrWrite (v : W)
  /-- ANCHOR_WRITE (R63): A write to an anchor register outside [L_MIN, L_MAX] is refused with anchor_range; any other write
  is staged. -/
  | anchorWrite (d : Dir) (v : W)
  /-- GO_STANDBY (R72): The GO_STANDBY command starts the WARM to STANDBY transition. -/
  | goStandby
  /-- GO_WARM (R77): The GO_WARM command starts the transition to WARM from STANDBY, ACTIVE or DEGRADED. -/
  | goWarm
  /-- GO_ACTIVE (R73): The GO_ACTIVE command is checked and starts the transition from WARM to ACTIVE or DEGRADED. -/
  | goActive
  /-- CLEAR_DEGRADED (R76): The CLEAR_DEGRADED command starts the health unit's re-test of the outstanding conditions. -/
  | clearDegraded
  /-- SOFT_RESET (R75): The SOFT_RESET command releases the token, resets the core domains and reruns boot. -/
  | softReset
  /-- DEV_CMD_INVALID (R72): A device command with a wrong key, an undefined code, an unlisted transition, or arriving while
  busy is refused with state_err. -/
  | devCmdInvalid (v : W)
  /-- WARM_ENTRY (R77): At the first frame boundary after the IDLE targets are ready, the device enters WARM. -/
  | warmEntry
  /-- ACTIVE_ENTRY (R73): At the frame boundary the conditions are checked again, and the device enters ACTIVE or DEGRADED,
  or stays in WARM. -/
  | activeEntry
  /-- WARM_RETURN (R74): After every drain completes, the device enters WARM at the next frame boundary. -/
  | warmReturn
  /-- STANDBY_RETURN (R85): The device enters STANDBY once every quadrant is POWERED_DOWN. -/
  | standbyReturn
  /-- RETEST_END (R76): At the end of the re-test the device returns to ACTIVE or stays in DEGRADED. `remain`: the bits of
  HLT_REPLACE whose conditions the tests still find. -/
  | retestEnd (remain : BitVec 8)
  /-- PORESET_RELEASE (R467): A release of PORESET_N takes effect once the rails are valid and PRESENT_N has been low for 50 ms. -/
  | poresetRelease
  /-- PORESET_ASSERT (R529): Asserting PORESET_N with the rails up resets every domain except the thermal protection, and the
  device is OFF. -/
  | poresetAssert
  /-- VDD_CORE_POWER_GOOD (R513): VDD_CORE rises through its power-good level. -/
  | vddCorePowerGood
  /-- CORE_RESET_RELEASE (R513): Core reset is released 100 us after power-good, and the ROM starts boot or RECOVERY. The
  level of RECOVERY_N, whether the ROM's read of each bank passes (a bit each), and whether the CRC of the production table does
  (R273). -/
  | coreResetRelease (recoveryLow : Bool) (banksOk : BitVec 2) (prodOk : Bool)
  /-- BOOT_COMPLETE (R79): The boot sequence ends and the device enters STANDBY. -/
  | bootComplete
  /-- VDD_TIMEOUT (R80): If VDD_CORE is not power-good 50 ms after the code-40 request, vdd_timeout is set and the core stays
  in reset. -/
  | vddTimeout
  /-- AON_RAIL_LOSS (R517): A loss of the always-on rail puts the device in OFF. -/
  | aonRailLoss
  /-- QUAD_REQ_WRITE (R88): A write to GCTL_QUAD_REQ takes each field at once or stages it, field by field. -/
  | quadReqWrite (v : W)
  /-- QUAD_DRAIN_COMPLETE (R86): The drained samples of a quadrant leaving RUNNING have all been released. -/
  | quadDrainComplete (q : Fin 4)
  /-- QUAD_POWER_DOWN_COMPLETE (R357): After the DMA operations into its domain complete, the quadrant is POWERED_DOWN. -/
  | quadPowerDownComplete (q : Fin 4)
  /-- LOOPBACK_WRITE (R95): A write to GCTL_LOOPBACK sets points only for IDLE or CAL_DEDICATED quadrants, and is otherwise
  refused with loop_refused. -/
  | loopbackWrite (v : W)
  /-- ADC_SAMPLE (R102): The converter delivers one 14-bit code per ADC clock into the core. -/
  | adcSample (u : RxUnit) (code : BitVec 14)
  /-- OVERLOAD_WINDOW_END (R115): At the end of each detector window the overload detector may fire. -/
  | overloadWindowEnd (n : Fin 64)
  /-- RX_CTRL_WRITE (R106): A write to QUAD_RX_CTRL with zone code 3 is not applied and sets cfg_err. -/
  | rxCtrlWrite (u : RxUnit) (v : W)
  /-- RX_CAL_FULL (R116): The FULL command starts a full converter self-calibration of an IDLE quadrant. -/
  | rxCalFull (q : Fin 4)
  /-- RX_CAL_RESTORE (R119): The RESTORE command checks the stored factors and applies them, then verifies them. -/
  | rxCalRestore (q : Fin 4)
  /-- RX_CAL_CMD_INVALID (R117): A calibration command with a wrong key, code 3, or in the wrong state is refused with
  cal_refused. -/
  | rxCalCmdInvalid (q : Fin 4) (v : W)
  /-- RX_SELFCAL_DONE (R118): A full self-calibration completes, writes the factors and sets cal_done. -/
  | rxSelfcalDone (q : Fin 4) (res : List UnitCal)
  /-- RESTORE_VERIFY_DONE (R119): The restore verification completes, and on failure starts a full self-calibration. -/
  | restoreVerifyDone (q : Fin 4) (ok : BitVec 18)
  /-- FACTOR_WRITE (R121): A write to a factor register is accepted only while the quadrant is POWERED_DOWN or IDLE and not
  calibrating. -/
  | factorWrite (u : RxUnit) (w : Fin 42) (v : W)
  /-- SLICE_REMAP_PLANNED (R123): After its trim trick, the spare slice takes the retired slice's position. -/
  | sliceRemapPlanned (u : RxUnit)
  /-- SLICE_HARD_FAIL (R124): A slice with a stuck residue is replaced by the spare within 64 ADC clocks. -/
  | sliceHardFail (u : RxUnit) (pos : Fin 4)
  /-- COUPLER_WRITE (R129): A write to QUAD_OBS_COUPLER changes coupler_n at once, and the next 64 samples are tagged SETTLING. -/
  | couplerWrite (o : Fin 8) (v : W)
  /-- FTW_LO_WRITE (R132): A write to the low FTW half goes to the shadow and stages nothing. -/
  | ftwLoWrite (c : ChainId) (v : W)
  /-- FTW_HI_WRITE (R132): A write to the high FTW half stages the pair for the next slot boundary. -/
  | ftwHiWrite (c : ChainId) (v : W)
  /-- DDC_CFG_WRITE (R137): A QUAD_DDC_CFG write with a bad or forbidden nstages is not applied and sets chain_err. -/
  | ddcCfgWrite (n : Fin 64) (v : W)
  /-- DDC_SHIFT_WRITE (R139): A shift write with an invalid code is not applied and sets chain_err. -/
  | ddcShiftWrite (c : ChainId) (v : W)
  /-- OBS_DDC_CFG_WRITE (R147): An observation chain write with nstages outside 1 to 3 is not applied and sets chain_err. -/
  | obsDdcCfgWrite (o : Fin 8) (v : W)
  /-- DUC_CFG_WRITE (R148): A QUAD_DUC_CFG write with a bad or forbidden nstages_tx is not applied and sets chain_err. -/
  | ducCfgWrite (n : Fin 64) (v : W)
  /-- SCHED (R386): A schedule message for a slot and direction is taken whole, or ignored when late. -/
  | sched (m : Sched)
  /-- SCHEDULE_DEADLINE (R164): At the schedule deadline the synthesiser starts the slot's weights. -/
  | scheduleDeadline
  /-- DIRECTORY_LOOKUP (R211): A lookup completes and returns the matching directory entry within 2 us. -/
  | directoryLookup (d : Dir) (b : Fin 32)
  /-- BMU_CFG_WRITE (R156): A BMU_CFG write that breaks the rate or state rules is not applied and sets mesh_err. -/
  | bmuCfgWrite (v : W)
  /-- EXCLUSION_MASK (R182): The mask of a failed path takes effect in every beam of the mesh. -/
  | exclusionMask (d : Dir) (n : Fin 64)
  /-- COLUMN_REMAP_PLANNED (R187): The spare column takes over a retired column at a slot boundary. -/
  | columnRemapPlanned (d : Dir) (col : Fin 32)
  /-- COLUMN_HARD_FAIL (R188): A column with a failed residue check loses its beams until the spare serves them. -/
  | columnHardFail (d : Dir) (col : Fin 32)
  /-- ACQ_SLOT_END (R193): At the end of an acquisition slot the engine checks ACQ_CFG and correlates the windows. -/
  | acqSlotEnd
  /-- SLOT_REPORT (R202): The acquisition slot report is sent on the link and written to the history. -/
  | slotReport
  /-- BIND (R205): A BIND message binds a sensor ID to a detection in the directory. -/
  | bind (sess : Fin 4) (det : W) (sensor : BitVec 48) (pin : Bool)
  /-- UNBIND (R382): An UNBIND message deletes the sensor's entry. -/
  | unbind (sess : Fin 4) (sensor : BitVec 48)
  /-- DIR_OP_READ (R214): The READ operation returns an entry or NOT_FOUND. -/
  | dirOpRead (sess : Fin 4) (sensor : BitVec 48) (mask : BitVec 8)
  /-- DIR_OP_WRITE (R214): The WRITE operation creates or modifies the fields selected by its mask. -/
  | dirOpWrite (sess : Fin 4) (sensor : BitVec 48) (mask : BitVec 8) (f : DirFields)
  /-- DIR_OP_DELETE (R214): The DELETE operation removes an entry. -/
  | dirOpDelete (sess : Fin 4) (sensor : BitVec 48) (mask : BitVec 8)
  /-- DIR_OP_PIN (R214): The PIN operation sets pinned on an entry. -/
  | dirOpPin (sess : Fin 4) (sensor : BitVec 48) (mask : BitVec 8)
  /-- DIR_OP_UNPIN (R214): The UNPIN operation clears pinned on an entry. -/
  | dirOpUnpin (sess : Fin 4) (sensor : BitVec 48) (mask : BitVec 8)
  /-- DIR_OP_TOUCH (R214): The TOUCH operation sets last_seen to the current tick. -/
  | dirOpTouch (sess : Fin 4) (sensor : BitVec 48) (mask : BitVec 8)
  /-- DIR_OP_LIST (R214): The LIST operation returns the valid entries of a range of buckets. -/
  | dirOpList (sess : Fin 4) (bucket : W) (count : BitVec 8) (mask : BitVec 8)
  /-- DIR_OP_SNAPSHOT (R214): The SNAPSHOT operation starts a directory snapshot, or is answered BUSY. -/
  | dirOpSnapshot (sess : Fin 4) (mask : BitVec 8)
  /-- DIR_CFG_WRITE (R208): A write to nb is applied only while the directory is empty and the table fits the partition. -/
  | dirCfgWrite (v : W)
  /-- DIR_SEED_WRITE (R208): A write to the hash seed is applied only while the directory is empty. -/
  | dirSeedWrite (v : W)
  /-- QUOTA_EVICTION (R215): While the directory is over quota, the device evicts the oldest unpinned entries. -/
  | quotaEviction
  /-- DIR_SNAP_SNAPSHOT (R217): The SNAPSHOT command writes a consistent copy of the directory to NVM. -/
  | dirSnapSnapshot
  /-- DIR_SNAP_RESTORE (R218): The RESTORE command empties the directory and reloads the newest snapshot. -/
  | dirSnapRestore
  /-- DIR_SNAP_ABORT (R217): The ABORT command stops a running snapshot and keeps the previous one intact. -/
  | dirSnapAbort
  /-- SNAPSHOT_PERIOD (R217): The snapshot period timer starts a snapshot. -/
  | snapshotPeriod
  /-- SNAPSHOT_COMPLETE (R217): The snapshot's final journal record is written, and it becomes the newest. -/
  | snapshotComplete
  /-- RESTORE_COMPLETE (R218): The directory restore completes, and the held operations run. -/
  | restoreComplete
  /-- MIRROR_DELTA (R219): The STANDBY applies a directory change delta, or requests a resync on a gap. -/
  | mirrorDelta (seq : W) (bucket : Nat) (pos : Fin 8) (e : Option DirEntry)
  /-- MIRROR_RESYNC (R219): The PRIMARY streams the whole directory in answer to a resync request. -/
  | mirrorResync (cls : Fin 7)
  /-- TX_ATT_WRITE (R226): A tx_att write above 6 000 is not applied and sets tx_err. -/
  | txAttWrite (n : Fin 64) (v : W)
  /-- TX_CFG_WRITE (R224): A QUAD_TX_CFG write is staged and deferred to a slot without transmit traffic. -/
  | txCfgWrite (n : Fin 64) (v : W)
  /-- FCB_FRAME (R234): A queued front-end command frame is sent on the quadrant's FCB bus. -/
  | fcbFrame (q : Fin 4)
  /-- FRAME (R236): The FRAME event is delivered fe_lead before the frame boundary. -/
  | frame (q : Fin 4)
  /-- SLOT_TX (R236): SLOT_TX is delivered fe_lead before a slot with transmit traffic for the quadrant. -/
  | slotTx (q : Fin 4)
  /-- SLOT_RX (R236): SLOT_RX is delivered fe_lead before a receive slot. -/
  | slotRx (q : Fin 4)
  /-- SLOT_ACQ (R236): SLOT_ACQ is delivered fe_lead before an acquisition slot. -/
  | slotAcq (q : Fin 4)
  /-- SLOT_GAP (R236): SLOT_GAP is delivered fe_lead before a guard or calibration gap slot. -/
  | slotGap (q : Fin 4)
  /-- BURST_DECISION (R244): At a burst's decision instant the device judges whether the quadrant is ready. -/
  | burstDecision (q : Fin 4)
  /-- TIMER (R237): The timer of the sequencer's current state expires. -/
  | timer (q : Fin 4)
  /-- SW (R236): A keyed write of QUAD_FES_SW delivers the SW event. -/
  | sw (q : Fin 4)
  /-- SEQUENCER_ACTION (R239): A scheduled front-end action executes at its tick. -/
  | sequencerAction (q : Fin 4)
  /-- PD_LUT_DATA_WRITE (R256): A write to QUAD_PD_LUT_DATA writes one inactive-bank word and advances the index, or is
  refused with pd_err. -/
  | pdLutDataWrite (n : Fin 64) (v : W)
  /-- PD_LUT_DATA_READ (R256): A read of QUAD_PD_LUT_DATA returns one bank word and advances the index. -/
  | pdLutDataRead (n : Fin 64)
  /-- PD_CAPTURE_START (R260): An observation receiver starts an adaptation capture cap_off ticks into a sent burst. -/
  | pdCaptureStart (o : Fin 8)
  /-- PD_CAPTURE_END (R261): The adaptation capture ends, and it is attributed to a path or discarded. `delay` and `frac` are the peak
  of R262's correlation, in samples and sixteenths, and `strong` says that it stands 20 dB above the floor. -/
  | pdCaptureEnd (o : Fin 8) (delay : Fin 256) (frac : Fin 16) (strong : Bool)
  /-- PD_ADAPT_CYCLE_END (R262): An adaptation cycle writes the new bank and requests its swap. `u` are the samples of z/G shifted
  back by the delay, from the first that z holds, `fit` the fitted words 0 to 2175. -/
  | pdAdaptCycleEnd (o : Fin 8) (u : List (Int × Int)) (fit : List W)
  /-- PD_HOLD_END (R264): The 100 ms adaptation suspension of a path ends. -/
  | pdHoldEnd (n : Fin 64)
  /-- ENGINE_SUBST_PLANNED (R267): After its banks are copied, the spare engine replaces a retired engine. -/
  | engineSubstPlanned (n : Fin 64)
  /-- ENGINE_HARD_FAIL (R268): A failed engine outputs GAP until its spare takes over. -/
  | engineHardFail (n : Fin 64)
  /-- ENGINE_SPARE_TAKEOVER (R268): The spare engine, loaded from the kept bank, takes over within 3 us. -/
  | engineSpareTakeover (q : Fin 4)
  /-- CAL_TRICK_START (R282): A calibration gap is judged and its trick is fixed at the gap minus fe_lead. -/
  | calTrickStart
  /-- CAL_CAPTURE_END (R282): The trick's captures end, and its stimulus turns off. -/
  | calCaptureEnd (bad : BitVec 64) (pilotLow pilotMoved : Bool)
  /-- CORRECTION_PUBLISH (R279): Estimation ends and a new correction set is published. -/
  | correctionPublish (meas : List PathMeas)
  /-- CAL_STALL (R287): No trick has completed for the stall time, and cal_stall is set. -/
  | calStall
  /-- DEDICATED_TRICK (R289): A CAL_DEDICATED quadrant runs its next back-to-back trick. -/
  | dedicatedTrick (q : Fin 4) (meas : List PathMeas)
  /-- CAL_STORE_WRITE (R295): The firmware writes the calibration store to NVM. -/
  | calStoreWrite (ok : Bool)
  /-- CAL_REF_WRITE (R271): A CALREF configuration write that would break the tone rules is not applied and sets cfg_err. -/
  | calRefWrite (freq : Bool) (v : W)
  /-- NOP (R313): The tile does nothing for one event. -/
  | nop (t : Fin 144)
  /-- HALT (R313): The tile enters HALTED. -/
  | halt (t : Fin 144)
  /-- JMP (R313): The tile jumps to a target address. -/
  | jmp (t : Fin 144) (tgt : BitVec 12)
  /-- JZ (R313): The tile jumps if a scalar register is zero. -/
  | jz (t : Fin 144) (d : Fin 16) (tgt : BitVec 12)
  /-- JNZ (R313): The tile jumps if a scalar register is not zero. -/
  | jnz (t : Fin 144) (d : Fin 16) (tgt : BitVec 12)
  /-- CALL (R313): The tile pushes the return address and jumps. -/
  | call (t : Fin 144) (tgt : BitVec 12)
  /-- RET (R313): The tile pops the return address. -/
  | ret (t : Fin 144)
  /-- LOOP (R315): The tile starts a hardware loop with an immediate count. -/
  | loop (t : Fin 144) (n : BitVec 14) (e : BitVec 12)
  /-- LOOPS (R315): The tile starts a hardware loop with a count taken from a register. -/
  | loops (t : Fin 144) (d : Fin 16) (e : BitVec 12)
  /-- WAITSLOT (R313): The tile stalls until the next slot boundary. -/
  | waitslot (t : Fin 144)
  /-- WAITSLOT_RESUME (R299): A tile stalled on WAITSLOT resumes at the slot boundary. -/
  | waitslotResume (t : Fin 144)
  /-- CKPT (R323): The tile passes a restart point, where a planned substitution may pause it. -/
  | ckpt (t : Fin 144)
  /-- SIGNAL (R313): The tile posts a code to TILE_SIGNAL and sets sig. -/
  | signal (t : Fin 144) (code : BitVec 8)
  /-- LDI (R313): The tile loads a sign-extended immediate into a scalar register. -/
  | ldi (t : Fin 144) (d : Fin 16) (k : BitVec 16)
  /-- LDIH (R313): The tile loads the upper half of a scalar register. -/
  | ldih (t : Fin 144) (d : Fin 16) (k : BitVec 16)
  /-- ALU (R313): The tile performs a scalar arithmetic or logic operation. -/
  | alu (t : Fin 144) (d a b : Fin 16) (f : BitVec 4)
  /-- ADDI (R313): The tile adds an immediate to a scalar register. -/
  | addi (t : Fin 144) (d a : Fin 16) (k : BitVec 12)
  /-- RDSP (R316): The tile reads a special register. -/
  | rdsp (t : Fin 144) (d : Fin 16) (sp : BitVec 8)
  /-- WRSP (R316): The tile writes a special register. -/
  | wrsp (t : Fin 144) (a : Fin 16) (sp : BitVec 8)
  /-- LDW (R313): The tile loads a word through a buffer. -/
  | ldw (t : Fin 144) (c : Fin 8) (d : Fin 16)
  /-- STW (R313): The tile stores a word through a buffer. -/
  | stw (t : Fin 144) (c : Fin 8) (a : Fin 16)
  /-- CBSET (R308): The tile sets a circular buffer register. -/
  | cbset (t : Fin 144) (c : Fin 8) (r : Fin 4) (a : Fin 16)
  /-- VLD (R314): The tile loads four tagged samples into a vector register. -/
  | vld (t : Fin 144) (c : Fin 8) (v : Fin 8)
  /-- VST (R314): The tile stores a vector register with its tags. -/
  | vst (t : Fin 144) (c : Fin 8) (v : Fin 8)
  /-- VIN (R311): The tile takes four samples from an input port, or stalls. -/
  | vin (t : Fin 144) (v : Fin 8) (p : Fin 2)
  /-- VIN_COMPLETE (R311): A stalled VIN completes once four samples are present. -/
  | vinComplete (t : Fin 144)
  /-- CLR (R313): The tile clears the masked accumulators. -/
  | clr (t : Fin 144) (m : BitVec 8)
  /-- MAC (R313): The tile multiplies and accumulates real lanes. -/
  | mac (t : Fin 144) (c : Fin 8) (v : Fin 8) (m : BitVec 8)
  /-- CMAC (R313): The tile multiplies and accumulates complex lane pairs. -/
  | cmac (t : Fin 144) (c : Fin 8) (v : Fin 8) (j : Bool) (pm : BitVec 4)
  /-- ACCW (R313): The tile adds words to the accumulators. -/
  | accw (t : Fin 144) (c : Fin 8) (u : Bool) (m : BitVec 8)
  /-- LDACC (R313): The tile loads words into the accumulators. -/
  | ldacc (t : Fin 144) (c : Fin 8) (u : Bool) (m : BitVec 8)
  /-- RED (R313): The tile reduces the masked accumulators into ACC0. -/
  | red (t : Fin 144) (m : BitVec 8)
  /-- CRED (R313): The tile reduces the masked pairs into pair 0. -/
  | cred (t : Fin 144) (pm : BitVec 4)
  /-- MOVS (R303): The tile moves shifted samples to memory. -/
  | movs (t : Fin 144) (c : Fin 8) (pm : BitVec 4)
  /-- MOVW (R303): The tile moves shifted words to memory and merges TILE_WTAG. -/
  | movw (t : Fin 144) (c : Fin 8) (u : Bool) (m : BitVec 8)
  /-- MOVO (R311): The tile offers shifted samples to an output port, or stalls. -/
  | movo (t : Fin 144) (p : Fin 2) (pm : BitVec 4)
  /-- MOVO_COMPLETE (R311): A stalled MOVO completes once the port has room. -/
  | movoComplete (t : Fin 144)
  /-- SETSH (R304): The tile sets its automatic shifts. -/
  | setsh (t : Fin 144) (shw shs : BitVec 5)
  /-- SCLR (R309): The tile clears its search unit. -/
  | sclr (t : Fin 144) (mn : Bool)
  /-- SACC (R309): The tile searches its accumulators. -/
  | sacc (t : Fin 144) (m : BitVec 8)
  /-- SMEM (R309): The tile searches eight memory words. -/
  | smem (t : Fin 144) (c : Fin 8) (u : Bool) (m : BitVec 8)
  /-- XFER (R312): The tile starts a block transfer with the reservoir. -/
  | xfer (t : Fin 144) (c : Fin 8) (a b : Fin 16) (toRes : Bool)
  /-- XFER_END (R312): A tile block transfer ends. -/
  | xferEnd (t : Fin 144)
  /-- WAITX (R312): The tile stalls until all its transfers end. -/
  | waitx (t : Fin 144)
  /-- WAITX_COMPLETE (R312): A stalled WAITX completes when every transfer has ended. -/
  | waitxComplete (t : Fin 144)
  /-- TILE_RUN (R322): The RUN command starts a HALTED or FAULT tile at its entry. -/
  | tileRun (t : Fin 144)
  /-- TILE_HALT (R322): The HALT command stops the tile after its current instruction. -/
  | tileHalt (t : Fin 144)
  /-- TILE_HALT_COMPLETE (R322): The tile's current instruction completes and the tile stops. -/
  | tileHaltComplete (t : Fin 144)
  /-- TILE_FORCE_HALT (R322): The FORCE_HALT command stops the tile at once. -/
  | tileForceHalt (t : Fin 144)
  /-- TILE_CLR_WTAG (R305): The clr_wtag bit of TILE_CMD clears TILE_WTAG. -/
  | tileClrWtag (t : Fin 144)
  /-- TILE_CMD_INVALID (R322): A tile command with a wrong key, in the wrong state, or to a service tile is refused with
  win_err. -/
  | tileCmdInvalid (t : Fin 144) (v : W)
  /-- TILE_WINDOW_WRITE (R321): A host write to tile program memory or buffers is accepted only while the tile is HALTED or
  FAULT. -/
  | tileWindowWrite (t : Fin 144) (off : BitVec 16) (v : W)
  /-- TILE_SUBST_COMPLETE (R323): The paused tile's state is copied, and the spare continues after CKPT. -/
  | tileSubstComplete (t : Fin 144)
  /-- TILE_HARD_FAIL (R325): A failed tile discards its input until its spare starts. -/
  | tileHardFail (t : Fin 144)
  /-- TILE_SPARE_START (R325): The spare tile, loaded from the deck, starts at its entry. -/
  | tileSpareStart (t : Fin 144)
  /-- SCRUB_READ (R330): The scrubber reads the next reservoir unit. `unit` is the byte address less 0x4000_0000, divided by 8. -/
  | scrubRead (unit : Nat) (err : EccErr)
  /-- RES_ROW_REMAP (R333): A retired row is copied into a spare row, which takes over its addresses. -/
  | resRowRemap (bank : Fin 64) (row : Fin 1024)
  /-- RES_BANK_REMAP (R334): A retired bank is copied into a spare bank, which takes over the logical bank. -/
  | resBankRemap (bank : Fin 64)
  /-- RES_BANK_HARD_FAIL (R335): A spare bank, poisoned throughout, takes over a failed bank. -/
  | resBankHardFail (bank : Fin 64)
  /-- RES_WINDOW_WRITE (R337): A window write is read-modify-written into POOL or CUST, or refused. -/
  | resWindowWrite (addr : Nat) (v : W)
  /-- RES_WINDOW_READ (R337): A window read returns the data, or 0 with res_ro for FW. -/
  | resWindowRead (addr : Nat) (err : EccErr)
  /-- PART_QUOTA_WRITE (R339): A partition quota write is applied at once, or refused with quota_err. -/
  | partQuotaWrite (part : Fin 8) (v : W)
  /-- CAP_ARM (R343): The ARM command checks a capture set and arms it. -/
  | capArm (c : Fin 8)
  /-- CAP_STOP (R344): The STOP command ends a running capture at the next record boundary. -/
  | capStop (c : Fin 8)
  /-- CAP_RELEASE (R344): The RELEASE command stops the set, frees it and returns its length to the quota. -/
  | capRelease (c : Fin 8)
  /-- CAP_TRIGGER (R343): An armed capture set's trigger fires and the set becomes RUNNING. -/
  | capTrigger (c : Fin 8)
  /-- CAP_RECORD (R341): The capture unit writes one record of a running set. -/
  | capRecord (c : Fin 8)
  /-- CAP_SNAPSHOT_DONE (R344): A SNAPSHOT set's writes have all arrived, and the set is HELD. -/
  | capSnapshotDone (c : Fin 8)
  /-- CAP_STOP_DONE (R344): A stopped set's last writes arrive, and the set is HELD. -/
  | capStopDone (c : Fin 8)
  /-- CAP_LEN_WRITE (R346): A capture length write is applied, held pending, or refused. -/
  | capLenWrite (c : Fin 8) (v : W)
  /-- CAP_CFG_WRITE (R347): A capture configuration write to an armed or running set is ignored and sets cap_err. -/
  | capCfgWrite (c : Fin 8) (r : CapReg) (v : W)
  /-- DMA_START (R359): The START command fetches a channel's first descriptor. -/
  | dmaStart (ch : Fin 32)
  /-- DMA_STOP (R356): The STOP command stops the channel at the next descriptor boundary. -/
  | dmaStop (ch : Fin 32)
  /-- DMA_ABORT (R356): The ABORT command stops the channel issuing at once. -/
  | dmaAbort (ch : Fin 32)
  /-- DMA_ABORT_DONE (R356): The aborted channel's in-flight operations complete, and it is HALTED. -/
  | dmaAbortDone (ch : Fin 32)
  /-- DMA_RESUME (R357): The RESUME command continues an ABORTED_PD descriptor. -/
  | dmaResume (ch : Fin 32)
  /-- DMA_CMD_INVALID (R359): A channel command with a wrong key, an undefined code, or in the wrong state is refused with
  cmd_refused. -/
  | dmaCmdInvalid (ch : Fin 32) (v : W)
  /-- DMA_CH_CFG_WRITE (R359): A write to DMA_CH_HEAD or DMA_CH_CFG is accepted only in IDLE and HALTED. -/
  | dmaChCfgWrite (ch : Fin 32) (cfg : Bool) (v : W)
  /-- DMA_DESC_FETCH (R350): A fetched descriptor is checked, and the channel halts on an error. -/
  | dmaDescFetch (ch : Fin 32)
  /-- DMA_BURST_START (R351): A channel starts a burst when its request source is raised. `arrive` lists, by their places
  among the channel's writes on their way, those that arrive. -/
  | dmaBurstStart (ch : Fin 32) (arrive : List Nat)
  /-- DMA_DESC_COMPLETE (R353): A descriptor completes, and wb and DMA_DONE are written. -/
  | dmaDescComplete (ch : Fin 32)
  /-- DMA_FENCE_DESC (R354): A FENCE descriptor completes once every earlier write of its channel has arrived. -/
  | dmaFenceDesc (ch : Fin 32)
  /-- DMA_FENCE_READ (R354): A read of DMA_FENCE returns once all earlier writes have arrived, or times out. -/
  | dmaFenceRead (arrived : Bool)
  /-- PORT_TRAINED (R364): A port completes link training. -/
  | portTrained (idx : Fin 4)
  /-- PORT_BOND_JOIN (R364): A port that has been up for 10 ms joins the bond. -/
  | portBondJoin (idx : Fin 4)
  /-- PORT_LINK_LOSS (R364): A port that loses block lock or exceeds the FEC error rate leaves the bond and retrains. `ucw`
  uncorrectable codewords were counted. -/
  | portLinkLoss (idx : Fin 4) (ucw : Nat)
  /-- PORT_TRAIN_TIMEOUT (R364): A port that fails to train within 500 ms enters FAILED. -/
  | portTrainTimeout (idx : Fin 4)
  /-- PORT_RETRY (R364): A FAILED port retries training every 1 s. -/
  | portRetry (idx : Fin 4)
  /-- SERDES_SUBST_PLANNED (R365): The spare macro takes a retired lane, and the port retrains. -/
  | serdesSubstPlanned (tx : Bool) (pos : Fin 8)
  /-- SERDES_HARD_FAIL (R365): The spare macro takes a failed lane. -/
  | serdesHardFail (m : SerdesLane)
  /-- PORT_LOOPBACK_WRITE (R366): A port loopback write removes the port from the bond, or is refused for the last bonded port. -/
  | portLoopbackWrite (idx : Fin 4) (v : W)
  /-- ETH_FRAME_RX (R363): A received Ethernet frame is checked and dispatched or discarded. -/
  | ethFrameRx (port : Fin 4) (f : EthFrame)
  /-- IQ_MESSAGE_TX (R368): An uplink IQ message is launched on its port. -/
  | iqMessageTx (st : UlStream)
  /-- IQ_MESSAGE_RX (R379): A downlink IQ message's samples are placed by frame and index. -/
  | iqMessageRx (port : Fin 4) (m : IqMsg)
  /-- ECPRI_DELAY_MEAS (R375): An eCPRI one-way delay message is answered with timestamps. -/
  | ecpriDelayMeas (port : Fin 4) (action : BitVec 8) (id : BitVec 8) (fine : BitVec 7)
  /-- POOL_WRITE (R384): A POOL_WRITE message writes weight-pool vectors until a quota refusal. -/
  | poolWrite (sess : Fin 4) (first : BitVec 16) (vs : List (List W))
  /-- CAP_UPLOAD (R387): An upload queue sends a CAP_UPLOAD message. -/
  | capUpload (k : Fin 4)
  /-- EVENT (R507): An EVENT message with the summary snapshot is sent to session 0. -/
  | event
  /-- MGMT_REQ (R388): A management request performs its register operations in order. -/
  | mgmtReq (sess : Fin 4) (ops : List MgmtOp)
  /-- IMG_XFER_OPEN (R481): An in-band OPEN opens an image session, or is answered BUSY. -/
  | imgXferOpen (sess : Fin 4) (target : BitVec 8)
  /-- IMG_XFER_DATA (R480): An in-band DATA message places image bytes at its offset. -/
  | imgXferData (sess : Fin 4) (off : W) (data : List Byte)
  /-- IMG_XFER_COMMIT (R477): An in-band COMMIT checks the image and loads or stores it. -/
  | imgXferCommit (sess : Fin 4) (store : Bool)
  /-- IMG_XFER_ABORT (R481): An in-band ABORT ends the image session. -/
  | imgXferAbort (sess : Fin 4)
  /-- PTP_TX (R389): A baseband PTP message is sent on the named port. `fine` is byte 8 of the transmit timestamp: the
  half-tick bit in bit 0, the fine part in bits 6:1. -/
  | ptpTx (sess : Fin 4) (port : Nat) (m : PtpMsg) (fine : BitVec 7)
  /-- PPS_IN (R390): A PPS_IN rising edge is timestamped, or ignored as early. `fine` as in PTP_TX. -/
  | ppsIn (fine : BitVec 7)
  /-- PPS_OUT (R390): PPS_OUT rises at its configured tick. -/
  | ppsOut
  /-- REF_LOSS (R405): A missing reference is detected and the loops coast. -/
  | refLoss
  /-- REF_BAD (R405): An off-frequency reference is detected. -/
  | refBad
  /-- MPLL_LOCK_LOSS (R406): The MPLL loses lock and coasts, and samples are tagged COAST. -/
  | mpllLockLoss
  /-- QPLL_LOCK_LOSS (R406): A QPLL loses lock and coasts. -/
  | qpllLockLoss (q : Fin 4)
  /-- COAST_LIMIT (R407): After coast_lim, the affected converter clocks are gated. -/
  | coastLimit (l : Loop)
  /-- LOOP_RECOVERY (R408): A coasting or gated loop recovers when the reference returns. -/
  | loopRecovery (l : Loop)
  /-- LPLL_REENGAGE (R392): The link loop re-engages after the reference returns. -/
  | lpllReengage
  /-- LPLL_UNLOCK (R392): Loss of LPLL lock takes every port down. -/
  | lpllUnlock
  /-- MPLL_LOCK (R396): The MPLL completes its lock and calibration. `bands` (the MPLL's in bits 5..0, QPLLq's
  in bits 5q+10..5q+6) and `tj` (0.25 °C) are what a full search found. -/
  | mpllLock (bands : BitVec 26) (tj : BitVec 10)
  /-- MPLL_SLOT_VERIFY (R397): The stored-slot lock is verified 150 us after it starts, and a failure runs a full search. -/
  | mpllSlotVerify (locked : Bool)
  /-- PLL_FAILURE (R445): A loop that fails three full searches in a row is failed. -/
  | pllFailure (l : Loop)
  /-- MPLL_RETRY (R445): A failed MPLL retries a full search every 1 s. -/
  | mpllRetry
  /-- QPLL_LOCK (R398): A QPLL locks, and its quadrant's self-calibration or restore starts. -/
  | qpllLock (q : Fin 4)
  /-- CLASS_B_REQUEST (R401): A clock-plan command is checked and accepted or refused. -/
  | classBRequest (v : W)
  /-- CLASS_B_START (R402): The class B change starts at its frame boundary and gates the converters. -/
  | classBStart
  /-- CLASS_B_RELEASE (R402): The converter clocks are released in the new plan. -/
  | classBRelease
  /-- CLK_SEED_WRITE (R395): A shuffle seed write of 0 is not applied and sets cfg_err. -/
  | clkSeedWrite (v : W)
  /-- CLK_STEER_WRITE (R414): A steering write within the limits is added to the MPLL fraction. -/
  | clkSteerWrite (v : W)
  /-- REF_CFG_WRITE (R391): A ref_sel change is applied only while the MPLL is not locked. -/
  | refCfgWrite (v : W)
  /-- SYNC_CFG_WRITE (R410): A sync_dly that is not a multiple of the tick is not applied and sets cfg_err. -/
  | syncCfgWrite (v : W)
  /-- SYNC_ALIGN (R410): A SYNC edge in one-shot mode aligns the tick and frame grid. `adc` is the ADC clock, counted from
  tick count 0, that first sampled SYNC high; `phase` in 1/64 ADC clock. -/
  | syncAlign (adc : Nat) (phase : BitVec 6)
  /-- SYNC_MONITOR (R411): A SYNC edge in monitor mode is compared with the frame grid. As SYNC_ALIGN. -/
  | syncMonitor (adc : Nat) (phase : BitVec 6)
  /-- TOD_READ (R413): A read of CLK_TOD_LO latches the other time-of-day registers. -/
  | todRead
  /-- FRAME_TABLE_SWITCH (R418): A new frame table starts at its frame boundary. -/
  | frameTableSwitch
  /-- MON_TRIG (R422): The TRIG command starts a converter sequence, or holds it pending. -/
  | monTrig (q : Fin 4)
  /-- MON_STOP (R423): The STOP command ends the converter's sequence. -/
  | monStop (q : Fin 4)
  /-- MON_CAL (R428): The CAL command self-calibrates one monitor converter. -/
  | monCal (q : Fin 4)
  /-- MON_TRIG_CMD (R422): A keyed write of MON_TRIG_CMD raises the common trigger. -/
  | monTrigCmd (v : W)
  /-- MON_COMMON_TRIGGER (R422): The common trigger rises at a slot, a frame or its period. -/
  | monCommonTrigger
  /-- MON_ENTRY_RESULT (R424): A sequence entry's result is written, and appended to the FIFO if enabled. -/
  | monEntryResult (q : Fin 4) (microvolts : List Int)
  /-- MON_SEQUENCE_END (R421): A sequence ends, and a pending or continuous sequence starts. -/
  | monSequenceEnd (q : Fin 4)
  /-- MON_SYSTEM_GROUP (R426): Every 50 us each converter measures the supply inputs. -/
  | monSystemGroup (codes : List (List (BitVec 12)))
  /-- MON_FIFO_READ (R425): A read of MON_FIFO_q removes the oldest word. -/
  | monFifoRead (q : Fin 4)
  /-- MON_DATA_READ (R424): A read of MON_DATA_q_e clears its new and overrun bits. -/
  | monDataRead (q : Fin 4) (e : Fin 32)
  /-- MON_CAL_DONE (R428): A monitor converter self-calibration completes. The offset and gain that the self-calibration
  found, in the formats of their registers. -/
  | monCalDone (q : Fin 4) (off : BitVec 14) (gain : BitVec 16)
  /-- MON_THR_WRITE (R433): A MON_THR write that breaks the ranges or order is not applied and sets cfg_err. -/
  | monThrWrite (v : W)
  /-- SENSOR_READING (R430): The thermal sampler reads a sensor and forms its valid value. `val` in 0.25 °C, two's
  complement; `selfOk`: the readout's self-check passed. -/
  | sensorReading (idx : Fin 36) (val : BitVec 10) (selfOk : Bool)
  /-- LEHR_UPDATE (R434): Once per millisecond the lehr computes and publishes its backoff. -/
  | lehrUpdate
  /-- NAND_PROGRAM_COMPLETE (R436): A NAND page program in progress completes from the always-on rail. -/
  | nandProgramComplete
  /-- CORRECTABLE_EVENT (R439): A correctable event is counted for its resource. -/
  | correctableEvent (r : KittyRes)
  /-- SPARE_TEST (R442): A background test of a spare runs. -/
  | spareTest (kind : Fin 12) (pool : Nat) (pass : Bool)
  /-- GAFFER_SUBST_PLANNED (R446): A retiring gaffer core's tasks move to the spare. -/
  | gafferSubstPlanned
  /-- GAFFER_HARD_FAIL (R446): The watchdog detects a failed gaffer core, and the spare restarts its tasks. -/
  | gafferHardFail
  /-- NAND_BLOCK_FAIL (R447): A failed NAND block is replaced by a spare block. -/
  | nandBlockFail (block : Nat)
  /-- TWIN_ROLE_WRITE (R453): A role write is accepted only in STANDBY, or in WARM without the token. -/
  | twinRoleWrite (v : W)
  /-- HEARTBEAT_TX (R459): A heartbeat frame is sent every 10 us. -/
  | heartbeatTx
  /-- HEARTBEAT_RX (R459): A received heartbeat is compared with the device's own role and state. -/
  | heartbeatRx (x : HbArrival)
  /-- HEARTBEAT_LOSS (R459): No valid mirror frame has arrived for hb_loss, and mirror_lost is set. -/
  | heartbeatLoss
  /-- MIRROR_CHANGE (R460): The STANDBY applies a mirrored change at its tick. -/
  | mirrorChange (c : MirChange)
  /-- TOKEN_TAKE (R455): After 2 us of a low TWIN_TOK_I, the device drives TWIN_TOK_O high. -/
  | tokenTake
  /-- TOKEN_CHECK (R455): 1 us later, the device holds the token or backs off. `tokIn`: the level of TWIN_TOK_I. -/
  | tokenCheck (tokIn : Bool)
  /-- TOKEN_BACKOFF_END (R455): The token backoff expires, and the device tries again. -/
  | tokenBackoffEnd
  /-- TOKEN_CONFLICT (R456): TWIN_TOK_I rises while the device holds the token, and it releases the token. -/
  | tokenConflict
  /-- TAKEOVER (R463): The TAKEOVER command starts a takeover on a ready STANDBY. -/
  | takeover
  /-- FORCE_TAKEOVER (R463): The FORCE_TAKEOVER command starts a takeover unconditionally. -/
  | forceTakeover
  /-- TWIN_HANDOVER (R463): The HANDOVER command makes the PRIMARY send a notice and release the token. -/
  | twinHandover
  /-- HANDOVER_NOTICE (R463): A STANDBY that receives a handover notice decides to take over. -/
  | handoverNotice
  /-- TAKEOVER_SETTLED (R464): After sw_settle, the new primary issues its own GO_ACTIVE. -/
  | takeoverSettled
  /-- HOT_PLUG_REMOVAL (R468): PRESENT_N going high shuts the device down as at a thermal shutdown. -/
  | hotPlugRemoval
  /-- VDD_CORE_BROWNOUT (R516): A VDD_CORE dip below 0.700 V causes a soft reset. -/
  | vddCoreBrownout
  /-- ANALOGUE_RAIL_FAULT (R517): An analogue rail leaves its range, and its loops or converters fail. -/
  | analogueRailFault (r : Rail)
  /-- IMG_OPEN (R481): The OPEN command opens an SPI image session, or is answered BUSY. -/
  | imgOpen (target : BitVec 2)
  /-- IMG_SPI_DATA (R480): A write to IMG_SPI_DATA appends four image bytes. -/
  | imgSpiData (v : W)
  /-- IMG_COMMIT (R477): The COMMIT command checks the image and loads or stores it. -/
  | imgCommit (store : Bool)
  /-- IMG_ABORT (R481): The ABORT command ends the image session and releases the lock. -/
  | imgAbort
  /-- PUNTY_HANDOVER (R492): The HANDOVER command starts a live firmware handover at the next slot boundary. -/
  | puntyHandover
  /-- TRIAL_RESET (R488): The TRIAL_RESET command performs a soft reset that starts the trial bank. -/
  | trialReset
  /-- PUSH_TWIN (R480): The PUSH_TWIN command sends the deck or firmware to the STANDBY. -/
  | pushTwin (target : BitVec 2)
  /-- IMG_CMD_INVALID (R481): An image command with a wrong key or an undefined code is refused with load_refused. -/
  | imgCmdInvalid (v : W)
  /-- IMG_LOCK_TIMEOUT (R481): The update lock is released after lock_to seconds without DATA. -/
  | imgLockTimeout
  /-- RESHUFFLE_APPLY (R482): A committed reshuffle is checked again and applied at its slot boundary. -/
  | reshuffleApply
  /-- FW_BANK_WRITTEN (R486): The committed firmware has been written, and its bank becomes TRIAL. -/
  | fwBankWritten
  /-- PUNTY_SELFTEST_END (R493): The new firmware's self-test passes, or fails or times out and the old firmware resumes. -/
  | puntySelftestEnd (pass : Bool)
  /-- MIGRATION_DONE (R490): Migration of stored records completes, and mig_done is set. -/
  | migrationDone
  /-- SPI_READ (R497): A READ frame reads words with advancing addresses. -/
  | spiRead (addr : Nat) (n : Nat)
  /-- SPI_READ_FIXED (R497): A READ_FIXED frame reads words at one address. -/
  | spiReadFixed (addr : Nat) (n : Nat)
  /-- SPI_WRITE (R497): A WRITE frame writes words with advancing addresses. -/
  | spiWrite (addr : Nat) (ws : List W)
  /-- SPI_WRITE_FIXED (R497): A WRITE_FIXED frame writes words at one address. -/
  | spiWriteFixed (addr : Nat) (ws : List W)
  /-- SPI_BAD_COMMAND (R497): An unknown command byte voids the frame and sets spi_err. -/
  | spiBadCommand (cmd : BitVec 8)
  /-- SPI_CS_ABORT (R499): SPI_CS_N rising mid-frame discards the incomplete part. -/
  | spiCsAbort (inReadWait : Bool)
  /-- SPI_READ_TIMEOUT (R498): A read word not ready after 8 192 clocks is returned as 0, and spi_timeout is set. -/
  | spiReadTimeout (addr : Nat)
  /-- I2C_COMMAND (R500): A write of GCTL_I2C_CMD starts an I2C transaction or is refused. -/
  | i2cCommand (v : W)
  /-- I2C_DONE (R501): The I2C transaction ends normally or with an error. -/
  | i2cDone (r : I2cResult)
  /-- EXTEST (R502): The EXTEST instruction drives the boundary pins. -/
  | extest
  /-- IDCODE (R502): The IDCODE instruction selects the identification register. -/
  | idcode
  /-- SAMPLE_PRELOAD (R502): The SAMPLE/PRELOAD instruction samples or preloads the boundary chain. -/
  | samplePreload
  /-- HIGHZ (R502): The HIGHZ instruction puts the outputs in high impedance. -/
  | highz
  /-- CLAMP (R502): The CLAMP instruction holds the boundary outputs. -/
  | clamp
  /-- EXTEST_PULSE (R502): The EXTEST_PULSE instruction tests the AC-coupled lanes. -/
  | extestPulse
  /-- EXTEST_TRAIN (R502): The EXTEST_TRAIN instruction tests the AC-coupled lanes with a pulse train. -/
  | extestTrain
  /-- REGACC (R504): The REGACC instruction selects the register-access data register. -/
  | regacc
  /-- BYPASS (R502): The BYPASS instruction selects the one-bit bypass register. -/
  | bypass (code : BitVec 8)
  /-- JTAG_TLR (R503): Test-Logic-Reset, or replacing an effective pin-driving instruction, performs SOFT_RESET. -/
  | jtagTlr
  /-- REGACC_UPDATE (R504): Update-DR under REGACC issues a register access through the JTAG bridge. -/
  | regaccUpdate (write : Bool) (addr : Nat) (v : W)
  /-- UNCERTAINTY_RECOMPUTE (R291): At least every 10 ms the device recomputes every correction's uncertainty fields,
  including the drift allowance. -/
  | uncertaintyRecompute
  /-- ARRIVAL_DEADLINE (R60): At a downlink sample's arrival deadline, a sample that has not arrived on any port is replaced
  by zero tagged GAP and counted as link-late. -/
  | arrivalDeadline (st : DlStream)
  /-- ALL_PORTS_DOWN (R463): When every link port has been down for 10 ms, the f_link fault class can trigger a handover. -/
  | allPortsDown
  /-- NAND_READ_SCRUB (R442): Every 24 h the health unit read-scrubs every programmed NAND block, counting pages that need
  more than 6 corrected bits. `bad`: the blocks with a page that needed more than 6 corrected bits. -/
  | nandReadScrub (bad : List Nat)
  /-- DELTA_ACK (R462): With sync_ack = 1, the PRIMARY receives the STANDBY's acknowledgement of directory and pool deltas
  and releases the held BIND_ACK, DIR_RESP or POOL_ACK. -/
  | deltaAck (seq : W)
  /-- TWIN_SOURCE_TRANSFER (R480): A STANDBY receives an image session from its twin over the Cygan mirror link, stages the
  bytes and checks the image at its commit. -/
  | twinSourceTransfer (m : TwinXfer)
  deriving DecidableEq, Repr

end Sys2Proof
end

