-- ==== Sys2Proof/Config.lean ====
section
/-! DEFINITION. What the implementation fixes and the spec leaves open: free values. Each is an opaque constant without a
body, so nothing can be proved of its value; each is marked and named in the assumption log. -/

namespace Sys2Proof

/-- DESIGN CHOICE (assumption 20): the partitions of the reservoir that the vendor-defined interconnect section grants a
logical tile for its transfers (R312 names the grant; no layout of it is given). -/
opaque Config.tileGrant : List Byte → Nat → List Nat

/-- DESIGN CHOICE (assumption 26): the free coefficients of response `r` (0 F, 1 S, 2 N, 3 L, 4 the fixed interpolator), in
2^−60, outwards from the centre: R136 and R149 state the responses' figures, not their coefficients. Machine/Taps.lean takes
them where they keep those figures. -/
opaque Config.tap : Nat → Nat → Int

/-- DESIGN CHOICE (assumption 26): the error, in 2^−60, of the cosine and the sine that the NCO's ROM gives for the top 20 bits of
the accumulator (R133 gives their spur level, not their width). -/
opaque Config.ncoErr : Nat → Int × Int

/-- DESIGN CHOICE (assumption 27): the samples from a failed slice's first bad one to the switch, less 1, taken modulo 128, the bound
of R124; a fresh value each time. -/
opaque Config.sliceSwitch : Nat → Nat

/-- DESIGN CHOICE (assumption 29): whether an exact half, `n` over `d`, is rounded up where a rule says rounded to nearest and
names no rule for ties. -/
opaque Config.tieUp : Int → Nat → Bool

/-- What the synthesiser computes one beam's weights from (R170 to R176): the mesh, the 64 words of a pool vector or none for
a direction, raw, the direction and spread codes, the attenuation code, the carrier in kHz, the pattern section or none with
pat_en 0, the correction words of every path or none with corr_en 0, the geometry words, and the included paths. -/
structure SynIn where
  dl : Bool
  pool : List W
  raw : Bool
  az : Int
  el : Int
  spread : Nat
  att : Nat
  fc : Nat
  pat : List Byte
  corr : List W
  geom : List W
  paths : List Nat
  deriving DecidableEq, Repr

/-- DESIGN CHOICE (assumption 30): the synthesiser's own error for a path: a weight is computed as the exact one times 1 + e, e
in 2^−60. R177 bounds it for weights of 2^12 codes and more, and Machine/Synth.lean takes it there only within that bound. -/
opaque Config.synthErr : SynIn → Nat → Int × Int

/-- DESIGN CHOICE (assumption 31): the binary places by which R196's powers are scaled down to 32-bit magnitudes. -/
opaque Config.corrShift : Nat

/-- DESIGN CHOICE (assumption 31): R199's values where its formulas have none: the three-point formula on powers of which one is 0,
the SNR with a logarithm of 0 or less, and the frequency offset with a partial sum of 0. -/
opaque Config.dbDelta : Nat → Nat → Nat → Rat
opaque Config.snrFree : Nat → Nat → Nat → Nat → Int
opaque Config.freqFree : List (Int × Int) → Nat → Int

/-- DESIGN CHOICE (assumption 36): an uncertainty field from the values of its terms, in the order of R291, which names the terms
and does not say how they combine. -/
opaque Config.uncEst : List Nat → Nat

/-- DESIGN CHOICE (assumption 92): the production table, which is made with the device (R270, R273): the response of the calibration
bus to path `n`'s attenuator output, or to observation input `n` − 64; the response of path `n`'s internal coupler; both at a
frequency in kHz, as a level in dB and a phase in turns, in 2^−60; and the table's uncertainty for a path's kind (key 4n + kind),
of amplitude, phase and delay (0 to 2); and the table's CRC, which the calibration store holds (R295). -/
opaque Config.prodBus : Nat → Nat → Int × Int
opaque Config.prodCpl : Nat → Nat → Int × Int
opaque Config.prodUnc : Nat → Nat → Nat
opaque Config.prodCrc : W

/-- DESIGN CHOICE (assumption 92): the level and phase, as in `Config.prodBus`, of a tone whose ratio to its pilot is 0: a ratio that has
no inverse (R275). -/
opaque Config.toneFree : Nat → Int × Int

/-- DESIGN CHOICE (assumption 96): a cycle's score in 0.01 dB where R262's formula has none: a sum of 0. -/
opaque Config.nmseFree : Nat → Nat → Int

/-- DESIGN CHOICE (assumption 67): the ticks a spare gaffer core takes to go on with a core's tasks, taken within the bounds of R446; a
fresh value each time. -/
opaque Config.gafferTicks : Nat → Nat

/-- DESIGN CHOICE (assumption 34): the word a read returns where the spec gives none; a fresh value each time. -/
opaque Config.freeWord : Nat → W

/-- DESIGN CHOICE (assumption 47): what the vendor-defined interconnect section says (R36, R62, R89, R485), no layout of it being
given: whether it holds a cycle; the quadrants, as a mask, whose interconnect differs between two sections; whether the second
section removes a unit of the first; the worst-case core transit of the uplink or (true) the downlink, in 1/16 tick; and the
same at the fastest typical corner, with what the interconnect holds before an input bridge overflows, in 1/16 tick. -/
opaque Config.linkCycle : List Byte → Bool
opaque Config.linkQuads : List Byte → List Byte → Nat
opaque Config.linkRemoves : List Byte → List Byte → Bool
opaque Config.coreTransit : List Byte → Bool → Nat
opaque Config.coreFast : List Byte → Bool → Nat

/-- DESIGN CHOICE (assumption 48): whether a vendor program of a tile section, which is signed inside the section, verifies
(R474 gives no layout of that signature). -/
opaque Config.vendorOk : List Byte → Bool

/-- DESIGN CHOICE (assumption 49): the hash that key slot 0 or 1 of the fuses holds (R475). -/
opaque Config.keyHash : Nat → List Byte

end Sys2Proof
end

