-- ==== Sys2Proof/Machine/Regs.lean ====
section
/-! DEFINITION. The register map of the device (R14 to R25, R508): the address of every register, the place of every
field, the value each register holds after its domain's power-on reset, its access code and the bits a write may
change. Every number is read from the register tables of spec/01 to spec/17. -/

namespace Sys2Proof.Machine

/-- A field of a register: the register's byte address, its lowest bit and its width. A sticky event bit is a field of
width 1. -/
structure Fld where
  reg : Nat
  lo : Nat
  w : Nat
  deriving DecidableEq, Repr

/-- The access codes of R19. -/
inductive Acc where
  | rw | ro | w1c | wo | rws
  deriving DecidableEq, Repr

/-- One row of a register table: access code, reset value, and the bits that a host write can change (R24). -/
structure RegInfo where
  acc : Acc
  reset : Nat
  mask : Nat
  deriving DecidableEq, Repr

/-- R17: base of the block of quadrant `q`. -/
def quadBase (q : Nat) : Nat := 0x100000 + q * 0x100000
/-- R6, R16: base of the registers of global path `n` (quadrant n/16, position n%16). -/
def pathBase (n : Nat) : Nat := quadBase (n / 16) + (n % 16) * 0x400
/-- R508: base of the registers of observation receiver `o` (quadrant o/2, position o%2). -/
def obsBase (o : Nat) : Nat := quadBase (o / 2) + 0x4400 + (o % 2) * 0x400
/-- Base of a receive unit's registers: a path's at offset 0 (spec/03), an observation receiver's at 0x4400. -/
def rxBase : RxUnit → Nat
  | .path n => pathBase n
  | .obs o => obsBase o
/-- Base of a conversion chain's registers (spec/04): DDC at 0x200, DUC at 0x240, the observation chain at 0x4600. -/
def chainBase : ChainId → Nat
  | .ddc n => pathBase n + 0x200
  | .duc n => pathBase n + 0x240
  | .obs o => obsBase o + 0x200
/-- Base of the monitor converter of quadrant `q` (R508). -/
def monBase (q : Nat) : Nat := 0x800000 + q * 0x400
/-- R17: base of the window of physical tile `t`. -/
def tileBase (t : Nat) : Nat := 0x1000000 + t * 0x10000

def GCTL_ID : Nat := 0x0
def GCTL_UID_LO : Nat := 0x4
def GCTL_UID_HI : Nat := 0x8
def GCTL_SCRATCH : Nat := 0xC
def GCTL_SUMMARY : Nat := 0x10
def GCTL_SUMMARY.core : Fld := ⟨GCTL_SUMMARY, 0, 1⟩
def GCTL_SUMMARY.gctl : Fld := ⟨GCTL_SUMMARY, 1, 1⟩
def GCTL_SUMMARY.quad : Fld := ⟨GCTL_SUMMARY, 2, 4⟩
def GCTL_SUMMARY.bmu : Fld := ⟨GCTL_SUMMARY, 6, 1⟩
def GCTL_SUMMARY.acq : Fld := ⟨GCTL_SUMMARY, 7, 1⟩
def GCTL_SUMMARY.clk : Fld := ⟨GCTL_SUMMARY, 8, 1⟩
def GCTL_SUMMARY.mon : Fld := ⟨GCTL_SUMMARY, 9, 1⟩
def GCTL_SUMMARY.cal : Fld := ⟨GCTL_SUMMARY, 10, 1⟩
def GCTL_SUMMARY.dma : Fld := ⟨GCTL_SUMMARY, 11, 1⟩
def GCTL_SUMMARY.res : Fld := ⟨GCTL_SUMMARY, 12, 1⟩
def GCTL_SUMMARY.epl : Fld := ⟨GCTL_SUMMARY, 13, 1⟩
def GCTL_SUMMARY.hlt : Fld := ⟨GCTL_SUMMARY, 14, 1⟩
def GCTL_SUMMARY.img : Fld := ⟨GCTL_SUMMARY, 15, 1⟩
def GCTL_SUMMARY.tile : Fld := ⟨GCTL_SUMMARY, 16, 1⟩
def GCTL_SUMMARY.replace : Fld := ⟨GCTL_SUMMARY, 17, 1⟩
def GCTL_SUMMARY.shutdown : Fld := ⟨GCTL_SUMMARY, 18, 1⟩
def GCTL_IRQ_EN : Nat := 0x14
def GCTL_EVT_EN : Nat := 0x18
def GCTL_GLOBAL_EVENTS : Nat := 0x1C
def GCTL_GLOBAL_EVENTS.addr_err : Fld := ⟨GCTL_GLOBAL_EVENTS, 0, 1⟩
def GCTL_GLOBAL_EVENTS.spi_err : Fld := ⟨GCTL_GLOBAL_EVENTS, 1, 1⟩
def GCTL_GLOBAL_EVENTS.spi_timeout : Fld := ⟨GCTL_GLOBAL_EVENTS, 2, 1⟩
def GCTL_GLOBAL_EVENTS.i2c_err : Fld := ⟨GCTL_GLOBAL_EVENTS, 3, 1⟩
def GCTL_GLOBAL_EVENTS.jtag_refused : Fld := ⟨GCTL_GLOBAL_EVENTS, 4, 1⟩
def GCTL_PATH_SUM (q : Nat) : Nat := 0x20 + 0x4 * q
def GCTL_TILE_SUM (i : Nat) : Nat := 0x30 + 0x4 * i
def GCTL_I2C_CFG : Nat := 0x50
def GCTL_I2C_CFG.speed : Fld := ⟨GCTL_I2C_CFG, 0, 1⟩
def GCTL_I2C_CMD : Nat := 0x54
def GCTL_I2C_STATUS : Nat := 0x58
def GCTL_I2C_STATUS.busy : Fld := ⟨GCTL_I2C_STATUS, 0, 1⟩
def GCTL_I2C_STATUS.nack : Fld := ⟨GCTL_I2C_STATUS, 1, 1⟩
def GCTL_I2C_STATUS.arb_lost : Fld := ⟨GCTL_I2C_STATUS, 2, 1⟩
def GCTL_I2C_STATUS.timeout : Fld := ⟨GCTL_I2C_STATUS, 3, 1⟩
def GCTL_I2C_STATUS.stuck : Fld := ⟨GCTL_I2C_STATUS, 4, 1⟩
def GCTL_I2C_STATUS.ndone : Fld := ⟨GCTL_I2C_STATUS, 5, 4⟩
def GCTL_I2C_DATA_LO : Nat := 0x5C
def GCTL_I2C_DATA_HI : Nat := 0x60
def GCTL_DEV_STATE : Nat := 0x200
def GCTL_DEV_STATE.state : Fld := ⟨GCTL_DEV_STATE, 0, 4⟩
def GCTL_DEV_STATE.prev : Fld := ⟨GCTL_DEV_STATE, 4, 4⟩
def GCTL_DEV_STATE.cause : Fld := ⟨GCTL_DEV_STATE, 8, 4⟩
def GCTL_DEV_STATE.replace : Fld := ⟨GCTL_DEV_STATE, 12, 1⟩
def GCTL_DEV_STATE.ref_absent : Fld := ⟨GCTL_DEV_STATE, 13, 1⟩
def GCTL_DEV_STATE.deck_loaded : Fld := ⟨GCTL_DEV_STATE, 14, 1⟩
def GCTL_DEV_STATE.boot_bank : Fld := ⟨GCTL_DEV_STATE, 15, 1⟩
def GCTL_DEV_STATE.fallback : Fld := ⟨GCTL_DEV_STATE, 16, 1⟩
def GCTL_DEV_STATE.busy : Fld := ⟨GCTL_DEV_STATE, 17, 1⟩
def GCTL_DEV_CMD : Nat := 0x204
def GCTL_QUAD_REQ : Nat := 0x208
def GCTL_QUAD_REQ.force_q : Fld := ⟨GCTL_QUAD_REQ, 8, 4⟩
def GCTL_QUAD_REQ.pending : Fld := ⟨GCTL_QUAD_REQ, 31, 1⟩
def GCTL_QUAD_STATE : Nat := 0x20C
def GCTL_QUAD_STATE.trans_q : Fld := ⟨GCTL_QUAD_STATE, 8, 4⟩
def GCTL_QUAD_STATE.selfcal_q : Fld := ⟨GCTL_QUAD_STATE, 12, 4⟩
def GCTL_STATE_EVENTS : Nat := 0x210
def GCTL_STATE_EVENTS.state_err : Fld := ⟨GCTL_STATE_EVENTS, 0, 1⟩
def GCTL_STATE_EVENTS.quad_refused : Fld := ⟨GCTL_STATE_EVENTS, 1, 1⟩
def GCTL_STATE_EVENTS.forced_disable : Fld := ⟨GCTL_STATE_EVENTS, 2, 1⟩
def GCTL_STATE_EVENTS.degraded_entered : Fld := ⟨GCTL_STATE_EVENTS, 3, 1⟩
def GCTL_STATE_EVENTS.bank_fallback : Fld := ⟨GCTL_STATE_EVENTS, 4, 1⟩
def GCTL_STATE_EVENTS.vdd_timeout : Fld := ⟨GCTL_STATE_EVENTS, 5, 1⟩
def GCTL_STATE_EVENTS.loop_refused : Fld := ⟨GCTL_STATE_EVENTS, 6, 1⟩
def GCTL_MODE_STATUS : Nat := 0x214
def GCTL_MODE_STATUS.duplex : Fld := ⟨GCTL_MODE_STATUS, 0, 1⟩
def GCTL_MODE_STATUS.plan : Fld := ⟨GCTL_MODE_STATUS, 1, 1⟩
def GCTL_MODE_STATUS.bm_ul : Fld := ⟨GCTL_MODE_STATUS, 2, 2⟩
def GCTL_MODE_STATUS.bm_dl : Fld := ⟨GCTL_MODE_STATUS, 4, 2⟩
def GCTL_MODE_STATUS.cal : Fld := ⟨GCTL_MODE_STATUS, 6, 2⟩
def GCTL_MODE_STATUS.twin : Fld := ⟨GCTL_MODE_STATUS, 8, 2⟩
def GCTL_MODE_STATUS.capture : Fld := ⟨GCTL_MODE_STATUS, 10, 2⟩
def GCTL_MODE_STATUS.loop_q : Fld := ⟨GCTL_MODE_STATUS, 12, 4⟩
def GCTL_MODE_STATUS.throttling : Fld := ⟨GCTL_MODE_STATUS, 16, 1⟩
def GCTL_MODE_STATUS.token : Fld := ⟨GCTL_MODE_STATUS, 17, 1⟩
def GCTL_BOOT_CFG : Nat := 0x218
def GCTL_BOOT_CFG.autoload : Fld := ⟨GCTL_BOOT_CFG, 0, 1⟩
def GCTL_BOOT_CFG.auto_warm : Fld := ⟨GCTL_BOOT_CFG, 1, 1⟩
def GCTL_BOOT_CFG.auto_active : Fld := ⟨GCTL_BOOT_CFG, 2, 1⟩
def GCTL_BOOT_CFG.boot_quads : Fld := ⟨GCTL_BOOT_CFG, 4, 4⟩
def GCTL_LOOPBACK : Nat := 0x21C
def GCTL_CORE_STATUS : Nat := 0x1000
def GCTL_CORE_STATUS.min_slack : Fld := ⟨GCTL_CORE_STATUS, 0, 8⟩
def GCTL_CORE_STATUS.min_pipe : Fld := ⟨GCTL_CORE_STATUS, 8, 5⟩
def GCTL_CORE_STATUS.ladder : Fld := ⟨GCTL_CORE_STATUS, 13, 3⟩
def GCTL_CORE_EVENTS : Nat := 0x1004
def GCTL_CORE_EVENTS.avs_raise : Fld := ⟨GCTL_CORE_EVENTS, 0, 1⟩
def GCTL_CORE_EVENTS.acq_shed : Fld := ⟨GCTL_CORE_EVENTS, 1, 1⟩
def GCTL_CORE_EVENTS.beam_shed : Fld := ⟨GCTL_CORE_EVENTS, 2, 1⟩
def GCTL_CORE_EVENTS.mute : Fld := ⟨GCTL_CORE_EVENTS, 3, 1⟩
def GCTL_CORE_EVENTS.avs_noresp : Fld := ⟨GCTL_CORE_EVENTS, 4, 1⟩
def GCTL_CORE_EVENTS.bridge_ovf : Fld := ⟨GCTL_CORE_EVENTS, 5, 1⟩
def GCTL_CORE_EVENTS.anchor_late_ul : Fld := ⟨GCTL_CORE_EVENTS, 6, 1⟩
def GCTL_CORE_EVENTS.anchor_late_dl : Fld := ⟨GCTL_CORE_EVENTS, 7, 1⟩
def GCTL_CORE_EVENTS.anchor_thin : Fld := ⟨GCTL_CORE_EVENTS, 8, 1⟩
def GCTL_CORE_EVENTS.anchor_range : Fld := ⟨GCTL_CORE_EVENTS, 9, 1⟩
def GCTL_CORE_EVENTS.cfg_err : Fld := ⟨GCTL_CORE_EVENTS, 10, 1⟩
def GCTL_SLACK_CFG : Nat := 0x1008
def GCTL_SLACK_CFG.win_sel : Fld := ⟨GCTL_SLACK_CFG, 0, 3⟩
def GCTL_SLACK_CFG.hyst : Fld := ⟨GCTL_SLACK_CFG, 4, 4⟩
def GCTL_SLACK_CFG.restore_windows : Fld := ⟨GCTL_SLACK_CFG, 8, 8⟩
def GCTL_SLACK_CFG.ladder_en : Fld := ⟨GCTL_SLACK_CFG, 16, 1⟩
def GCTL_SLACK_CFG.acq_shed_en : Fld := ⟨GCTL_SLACK_CFG, 17, 1⟩
def GCTL_SLACK_CFG.beam_shed_en : Fld := ⟨GCTL_SLACK_CFG, 18, 1⟩
def GCTL_SLACK_CFG.mute_en : Fld := ⟨GCTL_SLACK_CFG, 19, 1⟩
def GCTL_SLACK_THR : Nat := 0x100C
def GCTL_SLACK_THR.s_lower : Fld := ⟨GCTL_SLACK_THR, 0, 8⟩
def GCTL_SLACK_THR.s_raise : Fld := ⟨GCTL_SLACK_THR, 8, 8⟩
def GCTL_SLACK_THR.s_acq : Fld := ⟨GCTL_SLACK_THR, 16, 8⟩
def GCTL_SLACK_THR.s_beam : Fld := ⟨GCTL_SLACK_THR, 24, 8⟩
def GCTL_AVS_CFG : Nat := 0x1010
def GCTL_AVS_CFG.floor : Fld := ⟨GCTL_AVS_CFG, 0, 8⟩
def GCTL_AVS_CFG.ceil : Fld := ⟨GCTL_AVS_CFG, 8, 8⟩
def GCTL_AVS_CFG.step : Fld := ⟨GCTL_AVS_CFG, 16, 8⟩
def GCTL_AVS_CFG.avs_en : Fld := ⟨GCTL_AVS_CFG, 24, 1⟩
def GCTL_AVS_STATUS : Nat := 0x1014
def GCTL_AVS_STATUS.req_code : Fld := ⟨GCTL_AVS_STATUS, 0, 8⟩
def GCTL_AVS_STATUS.meas_code : Fld := ⟨GCTL_AVS_STATUS, 8, 8⟩
def GCTL_AVS_STATUS.at_ceil : Fld := ⟨GCTL_AVS_STATUS, 16, 1⟩
def GCTL_AVS_STATUS.at_floor : Fld := ⟨GCTL_AVS_STATUS, 17, 1⟩
def GCTL_SHED_STATUS : Nat := 0x1018
def GCTL_SHED_STATUS.acq_active : Fld := ⟨GCTL_SHED_STATUS, 0, 7⟩
def GCTL_SHED_STATUS.ul_shed : Fld := ⟨GCTL_SHED_STATUS, 8, 7⟩
def GCTL_SHED_STATUS.dl_shed : Fld := ⟨GCTL_SHED_STATUS, 16, 7⟩
def GCTL_SHED_STATUS.mute_q : Fld := ⟨GCTL_SHED_STATUS, 24, 4⟩
def GCTL_SHED_STATUS.mute_shared : Fld := ⟨GCTL_SHED_STATUS, 28, 4⟩
def GCTL_ANCHOR_UL : Nat := 0x1020
def GCTL_ANCHOR_UL.val : Fld := ⟨GCTL_ANCHOR_UL, 0, 16⟩
def GCTL_ANCHOR_UL.pending : Fld := ⟨GCTL_ANCHOR_UL, 31, 1⟩
def GCTL_ANCHOR_DL : Nat := 0x1024
def GCTL_ANCHOR_DL.val : Fld := ⟨GCTL_ANCHOR_DL, 0, 16⟩
def GCTL_ANCHOR_DL.pending : Fld := ⟨GCTL_ANCHOR_DL, 31, 1⟩
def GCTL_ANCHOR_LIM_UL : Nat := 0x1028
def GCTL_ANCHOR_LIM_UL.l_min : Fld := ⟨GCTL_ANCHOR_LIM_UL, 0, 16⟩
def GCTL_ANCHOR_LIM_UL.l_max : Fld := ⟨GCTL_ANCHOR_LIM_UL, 16, 16⟩
def GCTL_ANCHOR_LIM_DL : Nat := 0x102C
def GCTL_ANCHOR_LIM_DL.l_min : Fld := ⟨GCTL_ANCHOR_LIM_DL, 0, 16⟩
def GCTL_ANCHOR_LIM_DL.l_max : Fld := ⟨GCTL_ANCHOR_LIM_DL, 16, 16⟩
def GCTL_ANCHOR_MARGIN : Nat := 0x1030
def GCTL_ANCHOR_MARGIN.uplink : Fld := ⟨GCTL_ANCHOR_MARGIN, 0, 16⟩
def GCTL_ANCHOR_MARGIN.downlink : Fld := ⟨GCTL_ANCHOR_MARGIN, 16, 16⟩
def GCTL_ANCHOR_CFG : Nat := 0x1034
def GCTL_ANCHOR_CFG.thin_ticks : Fld := ⟨GCTL_ANCHOR_CFG, 0, 8⟩
def GCTL_ANCHOR_LATE_UL : Nat := 0x1038
def GCTL_ANCHOR_LATE_DL : Nat := 0x103C
def GCTL_SLACK_PIPE (i : Nat) : Nat := 0x1040 + 0x4 * i
def GCTL_SLACK_PIPE.slack (i : Nat) : Fld := ⟨GCTL_SLACK_PIPE i, 0, 8⟩
def GCTL_SLACK_PIPE.slack_min64 (i : Nat) : Fld := ⟨GCTL_SLACK_PIPE i, 8, 8⟩
def GCTL_SLACK_PIPE.occ_max (i : Nat) : Fld := ⟨GCTL_SLACK_PIPE i, 16, 8⟩
def GCTL_SLACK_PIPE.design_slack (i : Nat) : Fld := ⟨GCTL_SLACK_PIPE i, 24, 8⟩
def QUAD_RX_CTRL (u : RxUnit) : Nat := rxBase u + 0x0
def QUAD_RX_CTRL.zone (u : RxUnit) : Fld := ⟨QUAD_RX_CTRL u, 0, 2⟩
def QUAD_RX_CTRL.dither_en (u : RxUnit) : Fld := ⟨QUAD_RX_CTRL u, 2, 1⟩
def QUAD_RX_CTRL.pending (u : RxUnit) : Fld := ⟨QUAD_RX_CTRL u, 31, 1⟩
def QUAD_RX_ATTEN (u : RxUnit) : Nat := rxBase u + 0x4
def QUAD_RX_ATTEN.atten_db2 (u : RxUnit) : Fld := ⟨QUAD_RX_ATTEN u, 0, 6⟩
def QUAD_RX_ATTEN.pending (u : RxUnit) : Fld := ⟨QUAD_RX_ATTEN u, 31, 1⟩
def QUAD_RX_OVL_CFG (n : Nat) : Nat := pathBase n + 0x8
def QUAD_RX_OVL_CFG.ovl_thr (n : Nat) : Fld := ⟨QUAD_RX_OVL_CFG n, 0, 13⟩
def QUAD_RX_OVL_CFG.ovl_cnt (n : Nat) : Fld := ⟨QUAD_RX_OVL_CFG n, 16, 4⟩
def QUAD_RX_OVL_CFG.ovl_win (n : Nat) : Fld := ⟨QUAD_RX_OVL_CFG n, 20, 4⟩
def QUAD_RX_OVL_CFG.ovl_en (n : Nat) : Fld := ⟨QUAD_RX_OVL_CFG n, 24, 1⟩
def QUAD_OBS_COUPLER (o : Nat) : Nat := obsBase o + 0x8
def QUAD_OBS_COUPLER.coupler_n (o : Nat) : Fld := ⟨QUAD_OBS_COUPLER o, 0, 6⟩
def QUAD_RX_STATUS (u : RxUnit) : Nat := rxBase u + 0xC
def QUAD_RX_STATUS.spare (u : RxUnit) : Fld := ⟨QUAD_RX_STATUS u, 12, 3⟩
def QUAD_RX_STATUS.cal_valid (u : RxUnit) : Fld := ⟨QUAD_RX_STATUS u, 15, 1⟩
def QUAD_RX_STATUS.restored (u : RxUnit) : Fld := ⟨QUAD_RX_STATUS u, 16, 1⟩
def QUAD_RX_STATUS.unc_hi (u : RxUnit) : Fld := ⟨QUAD_RX_STATUS u, 17, 1⟩
def QUAD_RX_STATUS.zone (u : RxUnit) : Fld := ⟨QUAD_RX_STATUS u, 18, 2⟩
def QUAD_RX_STATUS.internal (u : RxUnit) : Fld := ⟨QUAD_RX_STATUS u, 20, 1⟩
def QUAD_RX_EVENTS (u : RxUnit) : Nat := rxBase u + 0x10
def QUAD_RX_EVENTS.ovr (u : RxUnit) : Fld := ⟨QUAD_RX_EVENTS u, 0, 1⟩
def QUAD_RX_EVENTS.ovl (u : RxUnit) : Fld := ⟨QUAD_RX_EVENTS u, 1, 1⟩
def QUAD_RX_EVENTS.slice_remap (u : RxUnit) : Fld := ⟨QUAD_RX_EVENTS u, 2, 1⟩
def QUAD_RX_EVENTS.slice_fail (u : RxUnit) : Fld := ⟨QUAD_RX_EVENTS u, 3, 1⟩
def QUAD_RX_EVENTS.no_spare (u : RxUnit) : Fld := ⟨QUAD_RX_EVENTS u, 4, 1⟩
def QUAD_RX_EVENTS.fact_err (u : RxUnit) : Fld := ⟨QUAD_RX_EVENTS u, 5, 1⟩
def QUAD_RX_EVENTS.cfg_err (u : RxUnit) : Fld := ⟨QUAD_RX_EVENTS u, 6, 1⟩
def QUAD_RX_OVR_COUNT (n : Nat) : Nat := pathBase n + 0x14
def QUAD_RX_PEAK (n : Nat) : Nat := pathBase n + 0x18
def QUAD_RX_PEAK.peak (n : Nat) : Fld := ⟨QUAD_RX_PEAK n, 0, 13⟩
def QUAD_RX_PEAK.ovr_slot (n : Nat) : Fld := ⟨QUAD_RX_PEAK n, 13, 1⟩
def QUAD_RX_FACT_TEMP (u : RxUnit) : Nat := rxBase u + 0x1A0
def QUAD_RX_FACT_TEMP.tj (u : RxUnit) : Fld := ⟨QUAD_RX_FACT_TEMP u, 0, 10⟩
def QUAD_RX_FACT_TEMP.vdd_code (u : RxUnit) : Fld := ⟨QUAD_RX_FACT_TEMP u, 16, 8⟩
def QUAD_RX_FACT_CHK (u : RxUnit) : Nat := rxBase u + 0x1A4
def QUAD_RX_CAL_CMD (q : Nat) : Nat := quadBase q + 0x4000
def QUAD_RX_CAL_CFG (q : Nat) : Nat := quadBase q + 0x4004
def QUAD_RX_CAL_CFG.restore_on_up (q : Nat) : Fld := ⟨QUAD_RX_CAL_CFG q, 0, 1⟩
def QUAD_RX_CAL_CFG.save_nvm (q : Nat) : Fld := ⟨QUAD_RX_CAL_CFG q, 1, 1⟩
def QUAD_RX_CAL_STATUS (q : Nat) : Nat := quadBase q + 0x4008
def QUAD_RX_CAL_STATUS.path_ok (q : Nat) : Fld := ⟨QUAD_RX_CAL_STATUS q, 0, 16⟩
def QUAD_RX_CAL_STATUS.obs_ok (q : Nat) : Fld := ⟨QUAD_RX_CAL_STATUS q, 16, 2⟩
def QUAD_RX_CAL_STATUS.busy (q : Nat) : Fld := ⟨QUAD_RX_CAL_STATUS q, 18, 1⟩
def QUAD_RX_CAL_STATUS.restoring (q : Nat) : Fld := ⟨QUAD_RX_CAL_STATUS q, 19, 1⟩
def QUAD_RX_CAL_EVENTS (q : Nat) : Nat := quadBase q + 0x400C
def QUAD_RX_CAL_EVENTS.cal_done (q : Nat) : Fld := ⟨QUAD_RX_CAL_EVENTS q, 0, 1⟩
def QUAD_RX_CAL_EVENTS.cal_fail (q : Nat) : Fld := ⟨QUAD_RX_CAL_EVENTS q, 1, 1⟩
def QUAD_RX_CAL_EVENTS.restore_fail (q : Nat) : Fld := ⟨QUAD_RX_CAL_EVENTS q, 2, 1⟩
def QUAD_RX_CAL_EVENTS.cal_refused (q : Nat) : Fld := ⟨QUAD_RX_CAL_EVENTS q, 3, 1⟩
def QUAD_DDC_CFG (c : ChainId) : Nat := chainBase c + 0x0
def QUAD_DDC_CFG.nstages (c : ChainId) : Fld := ⟨QUAD_DDC_CFG c, 0, 4⟩
def QUAD_DDC_CFG.spec_inv (c : ChainId) : Fld := ⟨QUAD_DDC_CFG c, 4, 1⟩
def QUAD_DDC_CFG.nco_coh (c : ChainId) : Fld := ⟨QUAD_DDC_CFG c, 5, 1⟩
def QUAD_DDC_CFG.pending (c : ChainId) : Fld := ⟨QUAD_DDC_CFG c, 31, 1⟩
def QUAD_DDC_RESP (c : ChainId) : Nat := chainBase c + 0x4
def QUAD_DDC_RESP.pending (c : ChainId) : Fld := ⟨QUAD_DDC_RESP c, 31, 1⟩
def QUAD_DDC_SHIFT (c : ChainId) : Nat := chainBase c + 0x8
def QUAD_DDC_SHIFT.pending (c : ChainId) : Fld := ⟨QUAD_DDC_SHIFT c, 31, 1⟩
def QUAD_DDC_FTW_LO (c : ChainId) : Nat := chainBase c + 0xC
def QUAD_DDC_FTW_HI (c : ChainId) : Nat := chainBase c + 0x10
def QUAD_DDC_FTW_HI.ftw_hi (c : ChainId) : Fld := ⟨QUAD_DDC_FTW_HI c, 0, 16⟩
def QUAD_DDC_FTW_HI.pending (c : ChainId) : Fld := ⟨QUAD_DDC_FTW_HI c, 31, 1⟩
def QUAD_DDC_PHASE (c : ChainId) : Nat := chainBase c + 0x14
def QUAD_DDC_PHASE.phase_off (c : ChainId) : Fld := ⟨QUAD_DDC_PHASE c, 0, 16⟩
def QUAD_DDC_PHASE.pending (c : ChainId) : Fld := ⟨QUAD_DDC_PHASE c, 31, 1⟩
def QUAD_DDC_STATUS (c : ChainId) : Nat := chainBase c + 0x18
def QUAD_DDC_STATUS.nstages_act (c : ChainId) : Fld := ⟨QUAD_DDC_STATUS c, 0, 4⟩
def QUAD_DDC_STATUS.spec_inv_act (c : ChainId) : Fld := ⟨QUAD_DDC_STATUS c, 4, 1⟩
def QUAD_DDC_STATUS.nco_coh_act (c : ChainId) : Fld := ⟨QUAD_DDC_STATUS c, 5, 1⟩
def QUAD_DDC_STATUS.settling (c : ChainId) : Fld := ⟨QUAD_DDC_STATUS c, 6, 1⟩
def QUAD_DDC_EVENTS (c : ChainId) : Nat := chainBase c + 0x1C
def QUAD_DDC_EVENTS.sat (c : ChainId) : Fld := ⟨QUAD_DDC_EVENTS c, 0, 1⟩
def QUAD_DDC_EVENTS.chain_err (c : ChainId) : Fld := ⟨QUAD_DDC_EVENTS c, 1, 1⟩
def QUAD_DDC_EVENTS.sync_reset (c : ChainId) : Fld := ⟨QUAD_DDC_EVENTS c, 2, 1⟩
def QUAD_DDC_EVENTS.nco_applied (c : ChainId) : Fld := ⟨QUAD_DDC_EVENTS c, 3, 1⟩
def QUAD_DDC_SAT_COUNT (c : ChainId) : Nat := chainBase c + 0x20
def QUAD_TX_CFG (n : Nat) : Nat := pathBase n + 0x300
def QUAD_TX_CFG.dac_mode (n : Nat) : Fld := ⟨QUAD_TX_CFG n, 0, 1⟩
def QUAD_TX_CFG.ifs (n : Nat) : Fld := ⟨QUAD_TX_CFG n, 1, 5⟩
def QUAD_TX_CFG.pending (n : Nat) : Fld := ⟨QUAD_TX_CFG n, 31, 1⟩
def QUAD_TX_ATT (n : Nat) : Nat := pathBase n + 0x304
def QUAD_TX_ATT.tx_att (n : Nat) : Fld := ⟨QUAD_TX_ATT n, 0, 13⟩
def QUAD_TX_ATT.pending (n : Nat) : Fld := ⟨QUAD_TX_ATT n, 31, 1⟩
def QUAD_TX_GAIN (n : Nat) : Nat := pathBase n + 0x308
def QUAD_TX_GAIN.dig_gain (n : Nat) : Fld := ⟨QUAD_TX_GAIN n, 0, 16⟩
def QUAD_TX_GAIN.drv_att (n : Nat) : Fld := ⟨QUAD_TX_GAIN n, 16, 7⟩
def QUAD_TX_EVENTS (n : Nat) : Nat := pathBase n + 0x30C
def QUAD_TX_EVENTS.dac_sat (n : Nat) : Fld := ⟨QUAD_TX_EVENTS n, 0, 1⟩
def QUAD_TX_EVENTS.tx_err (n : Nat) : Fld := ⟨QUAD_TX_EVENTS n, 1, 1⟩
def QUAD_TX_EVENTS.ifs_in_tx (n : Nat) : Fld := ⟨QUAD_TX_EVENTS n, 2, 1⟩
def QUAD_TX_SAT_COUNT (n : Nat) : Nat := pathBase n + 0x310
def QUAD_TX_GAP_COUNT (n : Nat) : Nat := pathBase n + 0x314
def QUAD_PD_CTRL (n : Nat) : Nat := pathBase n + 0x380
def QUAD_PD_CTRL.pd_en (n : Nat) : Fld := ⟨QUAD_PD_CTRL n, 0, 1⟩
def QUAD_PD_CTRL.cpl_en (n : Nat) : Fld := ⟨QUAD_PD_CTRL n, 1, 1⟩
def QUAD_PD_CTRL.adapt_en (n : Nat) : Fld := ⟨QUAD_PD_CTRL n, 2, 1⟩
def QUAD_PD_CTRL.fail_bypass (n : Nat) : Fld := ⟨QUAD_PD_CTRL n, 3, 1⟩
def QUAD_PD_CTRL.pending (n : Nat) : Fld := ⟨QUAD_PD_CTRL n, 31, 1⟩
def QUAD_PD_STATUS (n : Nat) : Nat := pathBase n + 0x384
def QUAD_PD_STATUS.active_bank (n : Nat) : Fld := ⟨QUAD_PD_STATUS n, 0, 1⟩
def QUAD_PD_STATUS.swap_pending (n : Nat) : Fld := ⟨QUAD_PD_STATUS n, 1, 1⟩
def QUAD_PD_STATUS.inactive_ok (n : Nat) : Fld := ⟨QUAD_PD_STATUS n, 2, 1⟩
def QUAD_PD_STATUS.converged (n : Nat) : Fld := ⟨QUAD_PD_STATUS n, 3, 1⟩
def QUAD_PD_STATUS.hold (n : Nat) : Fld := ⟨QUAD_PD_STATUS n, 4, 1⟩
def QUAD_PD_STATUS.bypassed (n : Nat) : Fld := ⟨QUAD_PD_STATUS n, 5, 1⟩
def QUAD_PD_STATUS.phys (n : Nat) : Fld := ⟨QUAD_PD_STATUS n, 8, 7⟩
def QUAD_PD_EVENTS (n : Nat) : Nat := pathBase n + 0x388
def QUAD_PD_EVENTS.pd_sat (n : Nat) : Fld := ⟨QUAD_PD_EVENTS n, 0, 1⟩
def QUAD_PD_EVENTS.swapped (n : Nat) : Fld := ⟨QUAD_PD_EVENTS n, 1, 1⟩
def QUAD_PD_EVENTS.pd_crc (n : Nat) : Fld := ⟨QUAD_PD_EVENTS n, 2, 1⟩
def QUAD_PD_EVENTS.pd_fmt (n : Nat) : Fld := ⟨QUAD_PD_EVENTS n, 3, 1⟩
def QUAD_PD_EVENTS.pd_limit (n : Nat) : Fld := ⟨QUAD_PD_EVENTS n, 4, 1⟩
def QUAD_PD_EVENTS.pd_err (n : Nat) : Fld := ⟨QUAD_PD_EVENTS n, 5, 1⟩
def QUAD_PD_EVENTS.pd_diverge (n : Nat) : Fld := ⟨QUAD_PD_EVENTS n, 6, 1⟩
def QUAD_PD_EVENTS.idx_clip (n : Nat) : Fld := ⟨QUAD_PD_EVENTS n, 7, 1⟩
def QUAD_PD_EVENTS.eng_remap (n : Nat) : Fld := ⟨QUAD_PD_EVENTS n, 8, 1⟩
def QUAD_PD_EVENTS.eng_fail (n : Nat) : Fld := ⟨QUAD_PD_EVENTS n, 9, 1⟩
def QUAD_PD_LUT_ADDR (n : Nat) : Nat := pathBase n + 0x38C
def QUAD_PD_LUT_ADDR.idx (n : Nat) : Fld := ⟨QUAD_PD_LUT_ADDR n, 0, 12⟩
def QUAD_PD_LUT_ADDR.bank_rd (n : Nat) : Fld := ⟨QUAD_PD_LUT_ADDR n, 12, 1⟩
def QUAD_PD_LUT_DATA (n : Nat) : Nat := pathBase n + 0x390
def QUAD_PD_NMSE (n : Nat) : Nat := pathBase n + 0x394
def QUAD_PD_NMSE.nmse_last (n : Nat) : Fld := ⟨QUAD_PD_NMSE n, 0, 16⟩
def QUAD_PD_NMSE.nmse_best (n : Nat) : Fld := ⟨QUAD_PD_NMSE n, 16, 16⟩
def QUAD_PD_IDX_SCALE (n : Nat) : Nat := pathBase n + 0x398
def QUAD_PD_IDX_SCALE.s (n : Nat) : Fld := ⟨QUAD_PD_IDX_SCALE n, 0, 18⟩
def QUAD_PD_SAT_COUNT (n : Nat) : Nat := pathBase n + 0x39C
def QUAD_PD_CYCLES (n : Nat) : Nat := pathBase n + 0x3A0
def QUAD_PD_CYCLES.completed (n : Nat) : Fld := ⟨QUAD_PD_CYCLES n, 0, 16⟩
def QUAD_PD_CYCLES.discards (n : Nat) : Fld := ⟨QUAD_PD_CYCLES n, 16, 16⟩
def QUAD_PD_ADJ (n : Nat) : Nat := pathBase n + 0x3A4
def QUAD_PD_ADJ.nb0 (n : Nat) : Fld := ⟨QUAD_PD_ADJ n, 0, 6⟩
def QUAD_PD_ADJ.nb0_valid (n : Nat) : Fld := ⟨QUAD_PD_ADJ n, 6, 1⟩
def QUAD_PD_ADJ.nb1 (n : Nat) : Fld := ⟨QUAD_PD_ADJ n, 8, 6⟩
def QUAD_PD_ADJ.nb1_valid (n : Nat) : Fld := ⟨QUAD_PD_ADJ n, 14, 1⟩
def QUAD_FES_CTRL (q : Nat) : Nat := quadBase q + 0x5000
def QUAD_FES_CTRL.seq_en (q : Nat) : Fld := ⟨QUAD_FES_CTRL q, 0, 1⟩
def QUAD_FES_CTRL.fe_lead (q : Nat) : Fld := ⟨QUAD_FES_CTRL q, 4, 12⟩
def QUAD_FES_PINCFG (q : Nat) : Nat := quadBase q + 0x5004
def QUAD_FES_PINCFG.pa_mask (q : Nat) : Fld := ⟨QUAD_FES_PINCFG q, 0, 8⟩
def QUAD_FES_PINCFG.pol (q : Nat) : Fld := ⟨QUAD_FES_PINCFG q, 8, 8⟩
def QUAD_FES_PINCFG.safe (q : Nat) : Fld := ⟨QUAD_FES_PINCFG q, 16, 8⟩
def QUAD_FES_STATUS (q : Nat) : Nat := quadBase q + 0x5008
def QUAD_FES_STATUS.state (q : Nat) : Fld := ⟨QUAD_FES_STATUS q, 0, 6⟩
def QUAD_FES_STATUS.forced (q : Nat) : Fld := ⟨QUAD_FES_STATUS q, 6, 1⟩
def QUAD_FES_STATUS.fec (q : Nat) : Fld := ⟨QUAD_FES_STATUS q, 8, 8⟩
def QUAD_FES_STATUS.fcb_q (q : Nat) : Fld := ⟨QUAD_FES_STATUS q, 16, 5⟩
def QUAD_FES_STATUS.pend (q : Nat) : Fld := ⟨QUAD_FES_STATUS q, 21, 7⟩
def QUAD_FES_EVENTS (q : Nat) : Nat := quadBase q + 0x500C
def QUAD_FES_EVENTS.tx_late (q : Nat) : Fld := ⟨QUAD_FES_EVENTS q, 0, 1⟩
def QUAD_FES_EVENTS.fcb_ovf (q : Nat) : Fld := ⟨QUAD_FES_EVENTS q, 1, 1⟩
def QUAD_FES_EVENTS.act_late (q : Nat) : Fld := ⟨QUAD_FES_EVENTS q, 2, 1⟩
def QUAD_FES_EVENTS.act_ovf (q : Nat) : Fld := ⟨QUAD_FES_EVENTS q, 3, 1⟩
def QUAD_FES_EVENTS.safe_forced (q : Nat) : Fld := ⟨QUAD_FES_EVENTS q, 4, 1⟩
def QUAD_FES_EVENTS.comp_clip (q : Nat) : Fld := ⟨QUAD_FES_EVENTS q, 5, 1⟩
def QUAD_FES_SW (q : Nat) : Nat := quadBase q + 0x5010
def QUAD_TX_COMP (q : Nat) : Nat := quadBase q + 0x5014
def QUAD_TX_COMP.comp (q : Nat) : Fld := ⟨QUAD_TX_COMP q, 0, 16⟩
def QUAD_TX_COMP.t_in (q : Nat) : Fld := ⟨QUAD_TX_COMP q, 16, 10⟩
def QUAD_TX_LEHR (q : Nat) : Nat := quadBase q + 0x5018
def QUAD_TX_LEHR.lehr_att (q : Nat) : Fld := ⟨QUAD_TX_LEHR q, 0, 10⟩
def QUAD_TX_DROP_COUNT (q : Nat) : Nat := quadBase q + 0x501C
def QUAD_TX_TCURVE (q : Nat) (i : Nat) : Nat := quadBase q + 0x5400 + 0x4 * i
def QUAD_TX_VCURVE (q : Nat) (i : Nat) : Nat := quadBase q + 0x5480 + 0x4 * i
def QUAD_FES_STATE (q : Nat) (i : Nat) : Nat := quadBase q + 0x5800 + 0x4 * i
def QUAD_FES_ACT (q : Nat) (i : Nat) : Nat := quadBase q + 0x6000 + 0x4 * i
def QUAD_PD_SWAP (q : Nat) : Nat := quadBase q + 0x7000
def QUAD_PD_SWAP.paths (q : Nat) : Fld := ⟨QUAD_PD_SWAP q, 0, 16⟩
def QUAD_PD_SWAP.pending (q : Nat) : Fld := ⟨QUAD_PD_SWAP q, 31, 1⟩
def QUAD_PD_LIMITS (q : Nat) : Nat := quadBase q + 0x7004
def QUAD_PD_LIMITS.exp_max (q : Nat) : Fld := ⟨QUAD_PD_LIMITS q, 0, 5⟩
def QUAD_PD_LIMITS.mem_max (q : Nat) : Fld := ⟨QUAD_PD_LIMITS q, 8, 5⟩
def QUAD_PD_LIMITS.cpl_max (q : Nat) : Fld := ⟨QUAD_PD_LIMITS q, 16, 5⟩
def QUAD_PD_LIMITS.lim_en (q : Nat) : Fld := ⟨QUAD_PD_LIMITS q, 21, 1⟩
def QUAD_PD_LIMITS.gain_step (q : Nat) : Fld := ⟨QUAD_PD_LIMITS q, 24, 8⟩
def QUAD_PD_ADAPT_CFG (q : Nat) : Nat := quadBase q + 0x7008
def QUAD_PD_ADAPT_CFG.mu (q : Nat) : Fld := ⟨QUAD_PD_ADAPT_CFG q, 0, 5⟩
def QUAD_PD_ADAPT_CFG.min_hits_log (q : Nat) : Fld := ⟨QUAD_PD_ADAPT_CFG q, 8, 4⟩
def QUAD_PD_ADAPT_CFG.conv_tol (q : Nat) : Fld := ⟨QUAD_PD_ADAPT_CFG q, 12, 8⟩
def QUAD_PD_ADAPT_CFG.conv_n (q : Nat) : Fld := ⟨QUAD_PD_ADAPT_CFG q, 20, 4⟩
def QUAD_PD_ADAPT_CFG.div_db (q : Nat) : Fld := ⟨QUAD_PD_ADAPT_CFG q, 24, 8⟩
def QUAD_PD_CAP_CFG (q : Nat) : Nat := quadBase q + 0x700C
def QUAD_PD_CAP_CFG.cap_off (q : Nat) : Fld := ⟨QUAD_PD_CAP_CFG q, 0, 16⟩
def QUAD_PD_CAP_CFG.cap_len_log (q : Nat) : Fld := ⟨QUAD_PD_CAP_CFG q, 16, 4⟩
def QUAD_PD_CAP_CFG.min_pwr (q : Nat) : Fld := ⟨QUAD_PD_CAP_CFG q, 24, 8⟩
def QUAD_PD_OBS_SET (q : Nat) (j : Nat) : Nat := quadBase q + 0x7010 + 0x4 * j
def QUAD_PD_OBS_SET.paths (q : Nat) (j : Nat) : Fld := ⟨QUAD_PD_OBS_SET q j, 0, 16⟩
def QUAD_PD_Q_STATUS (q : Nat) : Nat := quadBase q + 0x7018
def QUAD_PD_Q_STATUS.serves (q : Nat) : Fld := ⟨QUAD_PD_Q_STATUS q, 0, 5⟩
def QUAD_PD_Q_STATUS.failed (q : Nat) : Fld := ⟨QUAD_PD_Q_STATUS q, 5, 1⟩
def QUAD_PD_Q_EVENTS (q : Nat) : Nat := quadBase q + 0x701C
def QUAD_PD_Q_EVENTS.cap_skip (q : Nat) : Fld := ⟨QUAD_PD_Q_EVENTS q, 0, 1⟩
def BMU_CFG : Nat := 0x500000
def BMU_CFG.mode_ul : Fld := ⟨BMU_CFG, 0, 2⟩
def BMU_CFG.mode_dl : Fld := ⟨BMU_CFG, 2, 1⟩
def BMU_CFG.ul_stages : Fld := ⟨BMU_CFG, 4, 4⟩
def BMU_CFG.dl_u : Fld := ⟨BMU_CFG, 8, 4⟩
def BMU_CFG.pending : Fld := ⟨BMU_CFG, 31, 1⟩
def BMU_UL_FC : Nat := 0x500004
def BMU_UL_FC.fc : Fld := ⟨BMU_UL_FC, 0, 22⟩
def BMU_UL_FC.pending : Fld := ⟨BMU_UL_FC, 31, 1⟩
def BMU_DL_FC : Nat := 0x500008
def BMU_DL_FC.fc : Fld := ⟨BMU_DL_FC, 0, 22⟩
def BMU_DL_FC.pending : Fld := ⟨BMU_DL_FC, 31, 1⟩
def BMU_SYN_CFG : Nat := 0x50000C
def BMU_SYN_CFG.pat_en : Fld := ⟨BMU_SYN_CFG, 0, 1⟩
def BMU_SYN_CFG.corr_en : Fld := ⟨BMU_SYN_CFG, 1, 1⟩
def BMU_STATUS : Nat := 0x500010
def BMU_STATUS.fold_ul : Fld := ⟨BMU_STATUS, 0, 2⟩
def BMU_STATUS.fold_dl : Fld := ⟨BMU_STATUS, 2, 2⟩
def BMU_STATUS.ul_beams : Fld := ⟨BMU_STATUS, 8, 6⟩
def BMU_STATUS.dl_beams : Fld := ⟨BMU_STATUS, 14, 6⟩
def BMU_STATUS.acq_beams : Fld := ⟨BMU_STATUS, 20, 7⟩
def BMU_EVENTS : Nat := 0x500014
def BMU_EVENTS.sched_late : Fld := ⟨BMU_EVENTS, 0, 1⟩
def BMU_EVENTS.id_miss : Fld := ⟨BMU_EVENTS, 1, 1⟩
def BMU_EVENTS.mesh_err : Fld := ⟨BMU_EVENTS, 2, 1⟩
def BMU_EVENTS.excl_new : Fld := ⟨BMU_EVENTS, 3, 1⟩
def BMU_EVENTS.rate_mis : Fld := ⟨BMU_EVENTS, 4, 1⟩
def BMU_EVENTS.col_remap : Fld := ⟨BMU_EVENTS, 5, 1⟩
def BMU_EVENTS.col_fail : Fld := ⟨BMU_EVENTS, 6, 1⟩
def BMU_EVENTS.corr_applied : Fld := ⟨BMU_EVENTS, 7, 1⟩
def BMU_EVENTS.pool_err : Fld := ⟨BMU_EVENTS, 8, 1⟩
def BMU_EVENTS.dir_err : Fld := ⟨BMU_EVENTS, 9, 1⟩
def BMU_EVENTS.beam_range : Fld := ⟨BMU_EVENTS, 10, 1⟩
def BMU_UL_SAT : Nat := 0x500018
def BMU_DL_SAT : Nat := 0x50001C
def BMU_DL_SAT_PATH_LO : Nat := 0x500020
def BMU_DL_SAT_PATH_HI : Nat := 0x500024
def BMU_EXCL_UL_LO : Nat := 0x500028
def BMU_EXCL_UL_HI : Nat := 0x50002C
def BMU_EXCL_DL_LO : Nat := 0x500030
def BMU_EXCL_DL_HI : Nat := 0x500034
def BMU_USER_EXCL_UL (q : Nat) : Nat := 0x500040 + 0x4 * q
def BMU_USER_EXCL_UL.paths (q : Nat) : Fld := ⟨BMU_USER_EXCL_UL q, 0, 16⟩
def BMU_USER_EXCL_UL.pending (q : Nat) : Fld := ⟨BMU_USER_EXCL_UL q, 31, 1⟩
def BMU_USER_EXCL_DL (q : Nat) : Nat := 0x500050 + 0x4 * q
def BMU_USER_EXCL_DL.paths (q : Nat) : Fld := ⟨BMU_USER_EXCL_DL q, 0, 16⟩
def BMU_USER_EXCL_DL.pending (q : Nat) : Fld := ⟨BMU_USER_EXCL_DL q, 31, 1⟩
def BMU_WRD_SEL : Nat := 0x500060
def BMU_WRD_SEL.path : Fld := ⟨BMU_WRD_SEL, 0, 6⟩
def BMU_WRD_SEL.slot : Fld := ⟨BMU_WRD_SEL, 6, 6⟩
def BMU_WRD_SEL.mesh : Fld := ⟨BMU_WRD_SEL, 12, 1⟩
def BMU_WRD_I : Nat := 0x500064
def BMU_WRD_Q : Nat := 0x500068
def BMU_COL_MAP : Nat := 0x500070
def BMU_COL_MAP.ul_spare_for : Fld := ⟨BMU_COL_MAP, 0, 6⟩
def BMU_COL_MAP.dl_spare_for : Fld := ⟨BMU_COL_MAP, 8, 6⟩
def BMU_UL_BEAM (b : Nat) : Nat := 0x500100 + 0x4 * b
def BMU_UL_BEAM.src (b : Nat) : Fld := ⟨BMU_UL_BEAM b, 0, 2⟩
def BMU_UL_BEAM.prio (b : Nat) : Fld := ⟨BMU_UL_BEAM b, 2, 3⟩
def BMU_UL_BEAM.bsh (b : Nat) : Fld := ⟨BMU_UL_BEAM b, 5, 3⟩
def BMU_UL_BEAM.shed (b : Nat) : Fld := ⟨BMU_UL_BEAM b, 8, 1⟩
def BMU_UL_BEAM.late (b : Nat) : Fld := ⟨BMU_UL_BEAM b, 9, 1⟩
def BMU_UL_BEAM.miss (b : Nat) : Fld := ⟨BMU_UL_BEAM b, 10, 1⟩
def BMU_UL_BEAM.att (b : Nat) : Fld := ⟨BMU_UL_BEAM b, 11, 7⟩
def BMU_DL_BEAM (b : Nat) : Nat := 0x500180 + 0x4 * b
def BMU_DL_BEAM.src (b : Nat) : Fld := ⟨BMU_DL_BEAM b, 0, 2⟩
def BMU_DL_BEAM.prio (b : Nat) : Fld := ⟨BMU_DL_BEAM b, 2, 3⟩
def BMU_DL_BEAM.bsh (b : Nat) : Fld := ⟨BMU_DL_BEAM b, 5, 3⟩
def BMU_DL_BEAM.shed (b : Nat) : Fld := ⟨BMU_DL_BEAM b, 8, 1⟩
def BMU_DL_BEAM.late (b : Nat) : Fld := ⟨BMU_DL_BEAM b, 9, 1⟩
def BMU_DL_BEAM.miss (b : Nat) : Fld := ⟨BMU_DL_BEAM b, 10, 1⟩
def BMU_DL_BEAM.att (b : Nat) : Fld := ⟨BMU_DL_BEAM b, 11, 7⟩
def BMU_GEOM (i : Nat) : Nat := 0x501000 + 0x4 * i
def ACQ_CFG : Nat := 0x600000
def ACQ_CFG.acq_en : Fld := ⟨ACQ_CFG, 0, 1⟩
def ACQ_CFG.sps_log : Fld := ⟨ACQ_CFG, 1, 3⟩
def ACQ_CFG.n : Fld := ⟨ACQ_CFG, 4, 10⟩
def ACQ_CFG.ncs : Fld := ⟨ACQ_CFG, 14, 10⟩
def ACQ_CFG.nroot : Fld := ⟨ACQ_CFG, 24, 7⟩
def ACQ_CFG.pending : Fld := ⟨ACQ_CFG, 31, 1⟩
def ACQ_WIN : Nat := 0x600004
def ACQ_WIN.win_off : Fld := ⟨ACQ_WIN, 0, 12⟩
def ACQ_WIN.nwin_m1 : Fld := ⟨ACQ_WIN, 12, 4⟩
def ACQ_WIN.win_pitch : Fld := ⟨ACQ_WIN, 16, 12⟩
def ACQ_WIN.pending : Fld := ⟨ACQ_WIN, 31, 1⟩
def ACQ_THR : Nat := 0x600008
def ACQ_THR.thr : Fld := ⟨ACQ_THR, 0, 8⟩
def ACQ_THR.det_max : Fld := ⟨ACQ_THR, 8, 10⟩
def ACQ_THR.acq_bsh : Fld := ⟨ACQ_THR, 18, 3⟩
def ACQ_GRID_CFG : Nat := 0x60000C
def ACQ_GRID_CFG.grid_cols : Fld := ⟨ACQ_GRID_CFG, 0, 7⟩
def ACQ_GRID_CFG.grid_n : Fld := ⟨ACQ_GRID_CFG, 7, 7⟩
def ACQ_GRID_CFG.pending : Fld := ⟨ACQ_GRID_CFG, 31, 1⟩
def ACQ_HIST_CFG : Nat := 0x600010
def ACQ_HIST_CFG.bind_window : Fld := ⟨ACQ_HIST_CFG, 0, 16⟩
def ACQ_STATUS : Nat := 0x600014
def ACQ_STATUS.ndet : Fld := ⟨ACQ_STATUS, 0, 11⟩
def ACQ_STATUS.formed : Fld := ⟨ACQ_STATUS, 11, 7⟩
def ACQ_STATUS.busy : Fld := ⟨ACQ_STATUS, 18, 1⟩
def ACQ_EVENTS : Nat := 0x600018
def ACQ_EVENTS.cfg_err : Fld := ⟨ACQ_EVENTS, 0, 1⟩
def ACQ_EVENTS.win_trunc : Fld := ⟨ACQ_EVENTS, 1, 1⟩
def ACQ_EVENTS.grid_over : Fld := ⟨ACQ_EVENTS, 2, 1⟩
def ACQ_EVENTS.det_ovf : Fld := ⟨ACQ_EVENTS, 3, 1⟩
def ACQ_EVENTS.report_late : Fld := ⟨ACQ_EVENTS, 4, 1⟩
def ACQ_EVENTS.hist_expired : Fld := ⟨ACQ_EVENTS, 5, 1⟩
def ACQ_DET_TOTAL : Nat := 0x60001C
def ACQ_ROOT (r : Nat) : Nat := 0x600100 + 0x4 * r
def ACQ_ROOT.root (r : Nat) : Fld := ⟨ACQ_ROOT r, 0, 10⟩
def ACQ_ROOT.pending (r : Nat) : Fld := ⟨ACQ_ROOT r, 31, 1⟩
def ACQ_GRID (a : Nat) : Nat := 0x600200 + 0x4 * a
def ACQ_GRID.az_code (a : Nat) : Fld := ⟨ACQ_GRID a, 0, 12⟩
def ACQ_GRID.el_code (a : Nat) : Fld := ⟨ACQ_GRID a, 12, 12⟩
def ACQ_GRID.spread (a : Nat) : Fld := ⟨ACQ_GRID a, 24, 4⟩
def ACQ_GRID.pending (a : Nat) : Fld := ⟨ACQ_GRID a, 31, 1⟩
def DIR_CFG : Nat := 0x601000
def DIR_CFG.nb : Fld := ⟨DIR_CFG, 0, 17⟩
def DIR_SEED : Nat := 0x601004
def DIR_UPD : Nat := 0x601008
def DIR_UPD.a_dir : Fld := ⟨DIR_UPD, 0, 4⟩
def DIR_UPD.a_t : Fld := ⟨DIR_UPD, 4, 4⟩
def DIR_UPD.a_f : Fld := ⟨DIR_UPD, 8, 4⟩
def DIR_UPD.sp_def : Fld := ⟨DIR_UPD, 12, 4⟩
def DIR_STATUS : Nat := 0x60100C
def DIR_STATUS.count : Fld := ⟨DIR_STATUS, 0, 20⟩
def DIR_STATUS.over_quota : Fld := ⟨DIR_STATUS, 20, 1⟩
def DIR_STATUS.restoring : Fld := ⟨DIR_STATUS, 21, 1⟩
def DIR_EVENTS : Nat := 0x601010
def DIR_EVENTS.full : Fld := ⟨DIR_EVENTS, 0, 1⟩
def DIR_EVENTS.evict_lru : Fld := ⟨DIR_EVENTS, 1, 1⟩
def DIR_EVENTS.quota_evict : Fld := ⟨DIR_EVENTS, 2, 1⟩
def DIR_EVENTS.quota_stuck : Fld := ⟨DIR_EVENTS, 3, 1⟩
def DIR_EVENTS.snap_done : Fld := ⟨DIR_EVENTS, 4, 1⟩
def DIR_EVENTS.snap_fail : Fld := ⟨DIR_EVENTS, 5, 1⟩
def DIR_EVENTS.restore_done : Fld := ⟨DIR_EVENTS, 6, 1⟩
def DIR_EVENTS.restore_refused : Fld := ⟨DIR_EVENTS, 7, 1⟩
def DIR_EVENTS.cfg_refused : Fld := ⟨DIR_EVENTS, 8, 1⟩
def DIR_EVENTS.mirror_resync : Fld := ⟨DIR_EVENTS, 9, 1⟩
def DIR_EVENTS.role_refused : Fld := ⟨DIR_EVENTS, 10, 1⟩
def DIR_EVICT_COUNT : Nat := 0x601014
def DIR_SEQ : Nat := 0x601018
def DIR_SNAP_CMD : Nat := 0x60101C
def DIR_SNAP_CFG : Nat := 0x601020
def DIR_SNAP_CFG.period : Fld := ⟨DIR_SNAP_CFG, 0, 16⟩
def DIR_SNAP_CFG.restore_on_boot : Fld := ⟨DIR_SNAP_CFG, 16, 1⟩
def DIR_SNAP_STATUS : Nat := 0x601024
def DIR_SNAP_STATUS.state : Fld := ⟨DIR_SNAP_STATUS, 0, 2⟩
def DIR_SNAP_STATUS.valid_a : Fld := ⟨DIR_SNAP_STATUS, 2, 1⟩
def DIR_SNAP_STATUS.valid_b : Fld := ⟨DIR_SNAP_STATUS, 3, 1⟩
def DIR_SNAP_STATUS.newest : Fld := ⟨DIR_SNAP_STATUS, 4, 1⟩
def DIR_SNAP_STATUS.progress : Fld := ⟨DIR_SNAP_STATUS, 5, 7⟩
def DIR_SNAP_TC_LO : Nat := 0x601028
def DIR_SNAP_TC_HI : Nat := 0x60102C
def DIR_MIRROR_STATUS : Nat := 0x601030
def DIR_MIRROR_STATUS.in_sync : Fld := ⟨DIR_MIRROR_STATUS, 0, 1⟩
def DIR_MIRROR_STATUS.resync : Fld := ⟨DIR_MIRROR_STATUS, 1, 1⟩
def DIR_MIRROR_STATUS.lag : Fld := ⟨DIR_MIRROR_STATUS, 8, 8⟩
def CAL_CTRL : Nat := 0x900000
def CAL_CTRL.cal_mode : Fld := ⟨CAL_CTRL, 0, 2⟩
def CAL_CTRL.dev_en : Fld := ⟨CAL_CTRL, 2, 1⟩
def CAL_CTRL.arr_en : Fld := ⟨CAL_CTRL, 3, 1⟩
def CAL_CTRL.avg_log : Fld := ⟨CAL_CTRL, 4, 4⟩
def CAL_CTRL.store_en : Fld := ⟨CAL_CTRL, 8, 1⟩
def CAL_CTRL.store_min : Fld := ⟨CAL_CTRL, 16, 8⟩
def CAL_CTRL.stall : Fld := ⟨CAL_CTRL, 24, 8⟩
def CAL_REF_CFG : Nat := 0x900004
def CAL_REF_CFG.n_tones : Fld := ⟨CAL_REF_CFG, 0, 5⟩
def CAL_REF_CFG.sp : Fld := ⟨CAL_REF_CFG, 8, 10⟩
def CAL_REF_FREQ : Nat := 0x900008
def CAL_REF_FREQ.f_cal : Fld := ⟨CAL_REF_FREQ, 0, 22⟩
def CAL_STIM_CFG : Nat := 0x90000C
def CAL_STIM_CFG.tx_lvl : Fld := ⟨CAL_STIM_CFG, 0, 8⟩
def CAL_STIM_CFG.ref_min : Fld := ⟨CAL_STIM_CFG, 8, 8⟩
def CAL_STATUS : Nat := 0x900010
def CAL_STATUS.pos : Fld := ⟨CAL_STATUS, 0, 6⟩
def CAL_STATUS.busy : Fld := ⟨CAL_STATUS, 6, 1⟩
def CAL_STATUS.traceable : Fld := ⟨CAL_STATUS, 7, 1⟩
def CAL_STATUS.ref_ok : Fld := ⟨CAL_STATUS, 8, 1⟩
def CAL_STATUS.delay_ok : Fld := ⟨CAL_STATUS, 9, 1⟩
def CAL_STATUS.ded_q : Fld := ⟨CAL_STATUS, 10, 4⟩
def CAL_EVENTS : Nat := 0x900014
def CAL_EVENTS.cycle_done : Fld := ⟨CAL_EVENTS, 0, 1⟩
def CAL_EVENTS.published : Fld := ⟨CAL_EVENTS, 1, 1⟩
def CAL_EVENTS.gap_short : Fld := ⟨CAL_EVENTS, 2, 1⟩
def CAL_EVENTS.trick_discard : Fld := ⟨CAL_EVENTS, 3, 1⟩
def CAL_EVENTS.trick_abandon : Fld := ⟨CAL_EVENTS, 4, 1⟩
def CAL_EVENTS.cal_stall : Fld := ⟨CAL_EVENTS, 5, 1⟩
def CAL_EVENTS.ref_lost : Fld := ⟨CAL_EVENTS, 6, 1⟩
def CAL_EVENTS.ref_incoherent : Fld := ⟨CAL_EVENTS, 7, 1⟩
def CAL_EVENTS.state_new : Fld := ⟨CAL_EVENTS, 8, 1⟩
def CAL_EVENTS.delay_range : Fld := ⟨CAL_EVENTS, 9, 1⟩
def CAL_EVENTS.fc_far : Fld := ⟨CAL_EVENTS, 10, 1⟩
def CAL_EVENTS.board_err : Fld := ⟨CAL_EVENTS, 11, 1⟩
def CAL_EVENTS.prod_err : Fld := ⟨CAL_EVENTS, 12, 1⟩
def CAL_EVENTS.ded_done : Fld := ⟨CAL_EVENTS, 13, 1⟩
def CAL_EVENTS.store_fail : Fld := ⟨CAL_EVENTS, 14, 1⟩
def CAL_EVENTS.cfg_err : Fld := ⟨CAL_EVENTS, 15, 1⟩
def CAL_CYCLES : Nat := 0x900018
def CAL_CYCLES.dev : Fld := ⟨CAL_CYCLES, 0, 16⟩
def CAL_CYCLES.arr : Fld := ⟨CAL_CYCLES, 16, 16⟩
def CAL_TRICKS_DEV : Nat := 0x90001C
def CAL_TRICKS_ARR : Nat := 0x900020
def CAL_LAST_LO : Nat := 0x900024
def CAL_LAST_HI : Nat := 0x900028
def CAL_BOARD_VER : Nat := 0x90002C
def CAL_BOARD_VER.ver : Fld := ⟨CAL_BOARD_VER, 0, 16⟩
def CAL_BOARD_VER.valid : Fld := ⟨CAL_BOARD_VER, 16, 1⟩
def CAL_GAP_COUNT : Nat := 0x900030
def CAL_GAP_COUNT.short : Fld := ⟨CAL_GAP_COUNT, 0, 16⟩
def CAL_GAP_COUNT.rejected : Fld := ⟨CAL_GAP_COUNT, 16, 16⟩
def CAL_DED_CFG : Nat := 0x900034
def CAL_DED_CFG.reps : Fld := ⟨CAL_DED_CFG, 0, 5⟩
def CAL_DED_CFG.rx_stride : Fld := ⟨CAL_DED_CFG, 8, 8⟩
def CAL_DED_CFG.tx_stride : Fld := ⟨CAL_DED_CFG, 16, 8⟩
def CAL_PUB : Nat := 0x900038
def CAL_OBS_MAP (q : Nat) : Nat := 0x900040 + 0x4 * q
def CAL_OBS_MAP.paths (q : Nat) : Fld := ⟨CAL_OBS_MAP q, 0, 16⟩
def CAL_FCB (q : Nat) : Nat := 0x900060 + 0x4 * q
def CAL_FCB.en (q : Nat) : Fld := ⟨CAL_FCB q, 0, 1⟩
def CAL_FCB.word (q : Nat) : Fld := ⟨CAL_FCB q, 9, 15⟩
def CAL_PATH (i : Nat) : Nat := 0x901000 + 0x4 * i
def DMA_STATUS : Nat := 0xA00000
def DMA_STATUS.in_flight : Fld := ⟨DMA_STATUS, 0, 10⟩
def DMA_STATUS.busy : Fld := ⟨DMA_STATUS, 16, 6⟩
def DMA_DONE : Nat := 0xA00004
def DMA_ERR : Nat := 0xA00008
def DMA_FENCE : Nat := 0xA0000C
def DMA_EVENTS : Nat := 0xA00010
def DMA_EVENTS.cmd_refused : Fld := ⟨DMA_EVENTS, 0, 1⟩
def DMA_EVENTS.fence_timeout : Fld := ⟨DMA_EVENTS, 1, 1⟩
def DMA_CH_CMD (ch : Nat) : Nat := 0xA01000 + 0x40 * ch
def DMA_CH_HEAD (ch : Nat) : Nat := 0xA01004 + 0x40 * ch
def DMA_CH_CFG (ch : Nat) : Nat := 0xA01008 + 0x40 * ch
def DMA_CH_CFG.max_ops (ch : Nat) : Fld := ⟨DMA_CH_CFG ch, 0, 7⟩
def DMA_CH_CFG.prio (ch : Nat) : Fld := ⟨DMA_CH_CFG ch, 8, 2⟩
def DMA_CH_STATUS (ch : Nat) : Nat := 0xA0100C + 0x40 * ch
def DMA_CH_STATUS.state (ch : Nat) : Fld := ⟨DMA_CH_STATUS ch, 0, 3⟩
def DMA_CH_STATUS.status (ch : Nat) : Fld := ⟨DMA_CH_STATUS ch, 4, 4⟩
def DMA_CH_STATUS.in_flight (ch : Nat) : Fld := ⟨DMA_CH_STATUS ch, 8, 7⟩
def DMA_CH_STATUS.pd_q (ch : Nat) : Fld := ⟨DMA_CH_STATUS ch, 16, 4⟩
def DMA_CH_DESC (ch : Nat) : Nat := 0xA01010 + 0x40 * ch
def DMA_CH_POS (ch : Nat) : Nat := 0xA01014 + 0x40 * ch
def DMA_CH_COUNT (ch : Nat) : Nat := 0xA01018 + 0x40 * ch
def RES_STATUS : Nat := 0xA08000
def RES_STATUS.spare_banks : Fld := ⟨RES_STATUS, 0, 2⟩
def RES_STATUS.spare_rows : Fld := ⟨RES_STATUS, 8, 8⟩
def RES_EVENTS : Nat := 0xA08004
def RES_EVENTS.ce : Fld := ⟨RES_EVENTS, 0, 1⟩
def RES_EVENTS.ue : Fld := ⟨RES_EVENTS, 1, 1⟩
def RES_EVENTS.row_remap : Fld := ⟨RES_EVENTS, 2, 1⟩
def RES_EVENTS.bank_remap : Fld := ⟨RES_EVENTS, 3, 1⟩
def RES_EVENTS.bank_fail : Fld := ⟨RES_EVENTS, 4, 1⟩
def RES_EVENTS.res_ro : Fld := ⟨RES_EVENTS, 5, 1⟩
def RES_EVENTS.res_addr : Fld := ⟨RES_EVENTS, 6, 1⟩
def RES_EVENTS.quota_err : Fld := ⟨RES_EVENTS, 7, 1⟩
def RES_EVENTS.quota : Fld := ⟨RES_EVENTS, 8, 1⟩
def RES_EVENTS.cap_err : Fld := ⟨RES_EVENTS, 9, 1⟩
def RES_EVENTS.cap_bw : Fld := ⟨RES_EVENTS, 10, 1⟩
def RES_EVENTS.ptr_clip : Fld := ⟨RES_EVENTS, 11, 1⟩
def RES_EVENTS.cap_done : Fld := ⟨RES_EVENTS, 12, 1⟩
def RES_CE_COUNT : Nat := 0xA08008
def RES_UE_COUNT : Nat := 0xA0800C
def RES_ERR_ADDR : Nat := 0xA08010
def RES_SCRUB_CFG : Nat := 0xA08014
def RES_SCRUB_CFG.period : Fld := ⟨RES_SCRUB_CFG, 0, 8⟩
def RES_CAP_SVC : Nat := 0xA08018
def RES_PART_BASE (i : Nat) : Nat := 0xA08100 + 0x10 * i
def RES_PART_SIZE (i : Nat) : Nat := 0xA08104 + 0x10 * i
def RES_PART_SIZE.size (i : Nat) : Fld := ⟨RES_PART_SIZE i, 0, 11⟩
def RES_PART_QUOTA (i : Nat) : Nat := 0xA08108 + 0x10 * i
def RES_PART_QUOTA.quota (i : Nat) : Fld := ⟨RES_PART_QUOTA i, 0, 11⟩
def RES_PART_USE (i : Nat) : Nat := 0xA0810C + 0x10 * i
def RES_CAP_CTRL (s : Nat) : Nat := 0xA09000 + 0x40 * s
def RES_CAP_CTRL.mode (s : Nat) : Fld := ⟨RES_CAP_CTRL s, 0, 2⟩
def RES_CAP_CTRL.kind (s : Nat) : Fld := ⟨RES_CAP_CTRL s, 2, 1⟩
def RES_CAP_CTRL.hold (s : Nat) : Fld := ⟨RES_CAP_CTRL s, 3, 1⟩
def RES_CAP_CTRL.trig (s : Nat) : Fld := ⟨RES_CAP_CTRL s, 4, 2⟩
def RES_CAP_CMD (s : Nat) : Nat := 0xA09004 + 0x40 * s
def RES_CAP_SRC_LO (s : Nat) : Nat := 0xA09008 + 0x40 * s
def RES_CAP_SRC_HI (s : Nat) : Nat := 0xA0900C + 0x40 * s
def RES_CAP_BASE (s : Nat) : Nat := 0xA09010 + 0x40 * s
def RES_CAP_LEN (s : Nat) : Nat := 0xA09014 + 0x40 * s
def RES_CAP_NREC (s : Nat) : Nat := 0xA09018 + 0x40 * s
def RES_CAP_TRIG (s : Nat) : Nat := 0xA0901C + 0x40 * s
def RES_CAP_WPTR (s : Nat) : Nat := 0xA09020 + 0x40 * s
def RES_CAP_RPTR (s : Nat) : Nat := 0xA09024 + 0x40 * s
def RES_CAP_STATUS (s : Nat) : Nat := 0xA09028 + 0x40 * s
def RES_CAP_STATUS.state (s : Nat) : Fld := ⟨RES_CAP_STATUS s, 0, 2⟩
def RES_CAP_STATUS.len_pending (s : Nat) : Fld := ⟨RES_CAP_STATUS s, 2, 1⟩
def RES_CAP_STATUS.gap_seen (s : Nat) : Fld := ⟨RES_CAP_STATUS s, 3, 1⟩
def RES_CAP_STATUS.ovr_seen (s : Nat) : Fld := ⟨RES_CAP_STATUS s, 4, 1⟩
def RES_CAP_STATUS.lost (s : Nat) : Fld := ⟨RES_CAP_STATUS s, 16, 16⟩
def RES_CAP_T0_LO (s : Nat) : Nat := 0xA0902C + 0x40 * s
def RES_CAP_T0_HI (s : Nat) : Nat := 0xA09030 + 0x40 * s
def RES_CAP_CPL_LO (s : Nat) : Nat := 0xA09034 + 0x40 * s
def RES_CAP_CPL_HI (s : Nat) : Nat := 0xA09038 + 0x40 * s
def RES_CAP_WRAPS (s : Nat) : Nat := 0xA0903C + 0x40 * s
def EPL_CFG : Nat := 0xB00000
def EPL_CFG.etype : Fld := ⟨EPL_CFG, 0, 16⟩
def EPL_CFG.mtu : Fld := ⟨EPL_CFG, 16, 14⟩
def EPL_STATUS : Nat := 0xB00004
def EPL_STATUS.bonded : Fld := ⟨EPL_STATUS, 0, 4⟩
def EPL_STATUS.shed_n : Fld := ⟨EPL_STATUS, 4, 7⟩
def EPL_EVENTS : Nat := 0xB00008
def EPL_EVENTS.port_chg : Fld := ⟨EPL_EVENTS, 0, 1⟩
def EPL_EVENTS.link_shed : Fld := ⟨EPL_EVENTS, 1, 1⟩
def EPL_EVENTS.stream_orphan : Fld := ⟨EPL_EVENTS, 2, 1⟩
def EPL_EVENTS.serdes_remap : Fld := ⟨EPL_EVENTS, 3, 1⟩
def EPL_EVENTS.sched_late : Fld := ⟨EPL_EVENTS, 4, 1⟩
def EPL_EVENTS.seq_gap : Fld := ⟨EPL_EVENTS, 5, 1⟩
def EPL_EVENTS.loop_refused : Fld := ⟨EPL_EVENTS, 6, 1⟩
def EPL_EVENTS.pps_early : Fld := ⟨EPL_EVENTS, 7, 1⟩
def EPL_RX_DISCARD : Nat := 0xB0000C
def EPL_LINK_LATE : Nat := 0xB00010
def EPL_DUP_EARLY : Nat := 0xB00014
def EPL_DUP_EARLY.dup : Fld := ⟨EPL_DUP_EARLY, 0, 16⟩
def EPL_DUP_EARLY.early : Fld := ⟨EPL_DUP_EARLY, 16, 16⟩
def EPL_SERDES_MAP : Nat := 0xB00018
def EPL_SERDES_MAP.tx : Fld := ⟨EPL_SERDES_MAP, 0, 4⟩
def EPL_SERDES_MAP.rx : Fld := ⟨EPL_SERDES_MAP, 4, 4⟩
def EPL_PORT_CTRL (i : Nat) : Nat := 0xB00020 + 0x4 * i
def EPL_PORT_CTRL.en (i : Nat) : Fld := ⟨EPL_PORT_CTRL i, 0, 1⟩
def EPL_PORT_CTRL.loop (i : Nat) : Fld := ⟨EPL_PORT_CTRL i, 1, 2⟩
def EPL_PORT_STATUS (i : Nat) : Nat := 0xB00030 + 0x4 * i
def EPL_PORT_STATUS.state (i : Nat) : Fld := ⟨EPL_PORT_STATUS i, 0, 2⟩
def EPL_PORT_STATUS.bonded (i : Nat) : Fld := ⟨EPL_PORT_STATUS i, 2, 1⟩
def EPL_FEC_UCW (i : Nat) : Nat := 0xB00040 + 0x4 * i
def EPL_MAC_LO (i : Nat) : Nat := 0xB00050 + 0x8 * i
def EPL_MAC_HI (i : Nat) : Nat := 0xB00054 + 0x8 * i
def EPL_SESS_MAC_LO (s : Nat) : Nat := 0xB00080 + 0x10 * s
def EPL_SESS_MAC_HI (s : Nat) : Nat := 0xB00084 + 0x10 * s
def EPL_SESS_CFG (s : Nat) : Nat := 0xB00088 + 0x10 * s
def EPL_SESS_CFG.mask (s : Nat) : Fld := ⟨EPL_SESS_CFG s, 0, 4⟩
def EPL_SESS_CFG.port (s : Nat) : Fld := ⟨EPL_SESS_CFG s, 4, 4⟩
def EPL_PPS_CFG : Nat := 0xB000C0
def EPL_PPS_CFG.pps_w : Fld := ⟨EPL_PPS_CFG, 0, 10⟩
def EPL_PPS_CFG.pps_en : Fld := ⟨EPL_PPS_CFG, 10, 1⟩
def EPL_PPS_OFF : Nat := 0xB000C4
def EPL_PPS_OFF.pps_off : Fld := ⟨EPL_PPS_OFF, 0, 28⟩
def EPL_PPS_IN_TS (i : Nat) : Nat := 0xB000C8 + 0x4 * i
def CLK_REF_CFG : Nat := 0x700000
def CLK_REF_CFG.ref_sel : Fld := ⟨CLK_REF_CFG, 0, 2⟩
def CLK_REF_CFG.coast_lim : Fld := ⟨CLK_REF_CFG, 8, 7⟩
def CLK_REF_CFG.dither_en : Fld := ⟨CLK_REF_CFG, 16, 1⟩
def CLK_SEED : Nat := 0x700004
def CLK_SEED.seed : Fld := ⟨CLK_SEED, 0, 24⟩
def CLK_STEER : Nat := 0x700008
def CLK_STEER.steer : Fld := ⟨CLK_STEER, 0, 16⟩
def CLK_PLAN_CMD : Nat := 0x70000C
def CLK_STATUS : Nat := 0x700010
def CLK_STATUS.plan : Fld := ⟨CLK_STATUS, 0, 1⟩
def CLK_STATUS.mpll : Fld := ⟨CLK_STATUS, 1, 3⟩
def CLK_STATUS.qpll : Fld := ⟨CLK_STATUS, 4, 8⟩
def CLK_STATUS.gated_q : Fld := ⟨CLK_STATUS, 12, 4⟩
def CLK_STATUS.ref_present : Fld := ⟨CLK_STATUS, 16, 1⟩
def CLK_STATUS.lpll_lock : Fld := ⟨CLK_STATUS, 17, 1⟩
def CLK_STATUS.classb : Fld := ⟨CLK_STATUS, 18, 1⟩
def CLK_STATUS.tod_traceable : Fld := ⟨CLK_STATUS, 19, 1⟩
def CLK_STATUS.hk_paced : Fld := ⟨CLK_STATUS, 20, 1⟩
def CLK_EVENTS : Nat := 0x700014
def CLK_EVENTS.ref_lost : Fld := ⟨CLK_EVENTS, 0, 1⟩
def CLK_EVENTS.ref_bad : Fld := ⟨CLK_EVENTS, 1, 1⟩
def CLK_EVENTS.mpll_unlock : Fld := ⟨CLK_EVENTS, 2, 1⟩
def CLK_EVENTS.qpll_unlock : Fld := ⟨CLK_EVENTS, 3, 1⟩
def CLK_EVENTS.coast_limit : Fld := ⟨CLK_EVENTS, 4, 1⟩
def CLK_EVENTS.relocked : Fld := ⟨CLK_EVENTS, 5, 1⟩
def CLK_EVENTS.classb_done : Fld := ⟨CLK_EVENTS, 6, 1⟩
def CLK_EVENTS.search_stale : Fld := ⟨CLK_EVENTS, 7, 1⟩
def CLK_EVENTS.sync_done : Fld := ⟨CLK_EVENTS, 8, 1⟩
def CLK_EVENTS.sync_mis : Fld := ⟨CLK_EVENTS, 9, 1⟩
def CLK_EVENTS.sync_near : Fld := ⟨CLK_EVENTS, 10, 1⟩
def CLK_EVENTS.steer_err : Fld := ⟨CLK_EVENTS, 11, 1⟩
def CLK_EVENTS.cfg_err : Fld := ⟨CLK_EVENTS, 12, 1⟩
def CLK_EVENTS.lpll_unlock : Fld := ⟨CLK_EVENTS, 13, 1⟩
def CLK_EVENTS.cmd_refused : Fld := ⟨CLK_EVENTS, 14, 1⟩
def CLK_EVENTS.plan_wr_err : Fld := ⟨CLK_EVENTS, 15, 1⟩
def CLK_SYNC_CFG : Nat := 0x700018
def CLK_SYNC_CFG.sync_mode : Fld := ⟨CLK_SYNC_CFG, 0, 2⟩
def CLK_SYNC_CFG.sync_dly : Fld := ⟨CLK_SYNC_CFG, 2, 10⟩
def CLK_SYNC_STATUS : Nat := 0x70001C
def CLK_SYNC_STATUS.phase : Fld := ⟨CLK_SYNC_STATUS, 0, 6⟩
def CLK_SYNC_STATUS.err : Fld := ⟨CLK_SYNC_STATUS, 8, 10⟩
def CLK_SYNC_STATUS.edges : Fld := ⟨CLK_SYNC_STATUS, 24, 8⟩
def CLK_SYNC_TOD_LO : Nat := 0x700020
def CLK_SYNC_TOD_HI : Nat := 0x700024
def CLK_SYNC_FN : Nat := 0x700028
def CLK_SYNC_FN.fn : Fld := ⟨CLK_SYNC_FN, 0, 24⟩
def CLK_TOD_LO : Nat := 0x700030
def CLK_TOD_HI : Nat := 0x700034
def CLK_TOD_FS : Nat := 0x700038
def CLK_TOD_TIS : Nat := 0x70003C
def CLK_SEARCH_SLOT (s : Nat) : Nat := 0x700040 + 0x4 * s
def CLK_SEARCH_SLOT.band (s : Nat) : Fld := ⟨CLK_SEARCH_SLOT s, 0, 6⟩
def CLK_SEARCH_SLOT.plan (s : Nat) : Fld := ⟨CLK_SEARCH_SLOT s, 6, 1⟩
def CLK_SEARCH_SLOT.ref_sel (s : Nat) : Fld := ⟨CLK_SEARCH_SLOT s, 7, 2⟩
def CLK_SEARCH_SLOT.valid (s : Nat) : Fld := ⟨CLK_SEARCH_SLOT s, 9, 1⟩
def CLK_SEARCH_SLOT.tj (s : Nat) : Fld := ⟨CLK_SEARCH_SLOT s, 10, 10⟩
def CLK_RX_TRIM (n : Nat) : Nat := 0x701000 + 0x4 * n
def CLK_RX_TRIM.trim (n : Nat) : Fld := ⟨CLK_RX_TRIM n, 0, 20⟩
def CLK_RX_TRIM.at_limit (n : Nat) : Fld := ⟨CLK_RX_TRIM n, 20, 1⟩
def CLK_TX_TRIM (n : Nat) : Nat := 0x701100 + 0x4 * n
def CLK_TX_TRIM.trim (n : Nat) : Fld := ⟨CLK_TX_TRIM n, 0, 20⟩
def CLK_TX_TRIM.at_limit (n : Nat) : Fld := ⟨CLK_TX_TRIM n, 20, 1⟩
def MON_CTRL (q : Nat) : Nat := monBase q + 0x0
def MON_CTRL.seq_len (q : Nat) : Fld := ⟨MON_CTRL q, 0, 6⟩
def MON_CTRL.trig_src (q : Nat) : Fld := ⟨MON_CTRL q, 6, 1⟩
def MON_CTRL.cont (q : Nat) : Fld := ⟨MON_CTRL q, 7, 1⟩
def MON_CTRL.dma_en (q : Nat) : Fld := ⟨MON_CTRL q, 8, 1⟩
def MON_CTRL.req_lvl (q : Nat) : Fld := ⟨MON_CTRL q, 16, 7⟩
def MON_CTRL.det_sel (q : Nat) : Fld := ⟨MON_CTRL q, 24, 4⟩
def MON_CMD (q : Nat) : Nat := monBase q + 0x4
def MON_STATUS (q : Nat) : Nat := monBase q + 0x8
def MON_STATUS.busy (q : Nat) : Fld := ⟨MON_STATUS q, 0, 1⟩
def MON_STATUS.pending (q : Nat) : Fld := ⟨MON_STATUS q, 1, 1⟩
def MON_STATUS.cal_busy (q : Nat) : Fld := ⟨MON_STATUS q, 2, 1⟩
def MON_STATUS.entry (q : Nat) : Fld := ⟨MON_STATUS q, 3, 5⟩
def MON_STATUS.seq_count (q : Nat) : Fld := ⟨MON_STATUS q, 8, 8⟩
def MON_STATUS.cal_valid (q : Nat) : Fld := ⟨MON_STATUS q, 16, 1⟩
def MON_EVENTS (q : Nat) : Nat := monBase q + 0xC
def MON_EVENTS.trig_missed (q : Nat) : Fld := ⟨MON_EVENTS q, 0, 1⟩
def MON_EVENTS.overrun (q : Nat) : Fld := ⟨MON_EVENTS q, 1, 1⟩
def MON_EVENTS.fifo_ovf (q : Nat) : Fld := ⟨MON_EVENTS q, 2, 1⟩
def MON_EVENTS.fifo_udf (q : Nat) : Fld := ⟨MON_EVENTS q, 3, 1⟩
def MON_EVENTS.cal_done (q : Nat) : Fld := ⟨MON_EVENTS q, 4, 1⟩
def MON_EVENTS.cfg_err (q : Nat) : Fld := ⟨MON_EVENTS q, 5, 1⟩
def MON_EVENTS.cmd_refused (q : Nat) : Fld := ⟨MON_EVENTS q, 6, 1⟩
def MON_CAL_OFF (q : Nat) : Nat := monBase q + 0x10
def MON_CAL_OFF.off (q : Nat) : Fld := ⟨MON_CAL_OFF q, 0, 14⟩
def MON_CAL_GAIN (q : Nat) : Nat := monBase q + 0x14
def MON_CAL_GAIN.gain (q : Nat) : Fld := ⟨MON_CAL_GAIN q, 0, 16⟩
def MON_FIFO (q : Nat) : Nat := monBase q + 0x18
def MON_FIFO_LVL (q : Nat) : Nat := monBase q + 0x1C
def MON_FIFO_LVL.lvl (q : Nat) : Fld := ⟨MON_FIFO_LVL q, 0, 11⟩
def MON_SEQ (q : Nat) (e : Nat) : Nat := monBase q + 0x100 + 0x4 * e
def MON_SEQ.input (q : Nat) (e : Nat) : Fld := ⟨MON_SEQ q e, 0, 5⟩
def MON_SEQ.diff (q : Nat) (e : Nat) : Fld := ⟨MON_SEQ q e, 5, 1⟩
def MON_SEQ.align (q : Nat) (e : Nat) : Fld := ⟨MON_SEQ q e, 6, 1⟩
def MON_SEQ.settle (q : Nat) (e : Nat) : Fld := ⟨MON_SEQ q e, 7, 4⟩
def MON_SEQ.avg_log (q : Nat) (e : Nat) : Fld := ⟨MON_SEQ q e, 11, 2⟩
def MON_DATA (q : Nat) (e : Nat) : Nat := monBase q + 0x200 + 0x4 * e
def MON_DATA.result (q : Nat) (e : Nat) : Fld := ⟨MON_DATA q e, 0, 16⟩
def MON_DATA.new (q : Nat) (e : Nat) : Fld := ⟨MON_DATA q e, 16, 1⟩
def MON_DATA.overrun (q : Nat) (e : Nat) : Fld := ⟨MON_DATA q e, 17, 1⟩
def MON_SYS (q : Nat) (i : Nat) : Nat := monBase q + 0x300 + 0x4 * i
def MON_SYS.latest (q : Nat) (i : Nat) : Fld := ⟨MON_SYS q i, 0, 12⟩
def MON_SYS.mean (q : Nat) (i : Nat) : Fld := ⟨MON_SYS q i, 16, 12⟩
def MON_TRIG_CFG : Nat := 0x801000
def MON_TRIG_CFG.src : Fld := ⟨MON_TRIG_CFG, 0, 2⟩
def MON_TRIG_CFG.period : Fld := ⟨MON_TRIG_CFG, 8, 24⟩
def MON_TRIG_CMD : Nat := 0x801004
def MON_THR : Nat := 0x802000
def MON_THR.warning : Fld := ⟨MON_THR, 0, 8⟩
def MON_THR.throttle : Fld := ⟨MON_THR, 8, 8⟩
def MON_THR.shutdown : Fld := ⟨MON_THR, 16, 8⟩
def MON_LEHR_CFG : Nat := 0x802004
def MON_LEHR_CFG.k : Fld := ⟨MON_LEHR_CFG, 0, 7⟩
def MON_LEHR_CFG.cap : Fld := ⟨MON_LEHR_CFG, 8, 8⟩
def MON_LEHR_CFG.step_min : Fld := ⟨MON_LEHR_CFG, 16, 8⟩
def MON_LEHR_CFG.lehr_en : Fld := ⟨MON_LEHR_CFG, 24, 1⟩
def MON_THERM_STATUS : Nat := 0x802008
def MON_THERM_STATUS.tmax : Fld := ⟨MON_THERM_STATUS, 0, 10⟩
def MON_THERM_STATUS.hot : Fld := ⟨MON_THERM_STATUS, 10, 6⟩
def MON_THERM_STATUS.warn_st : Fld := ⟨MON_THERM_STATUS, 16, 1⟩
def MON_THERM_STATUS.engaged : Fld := ⟨MON_THERM_STATUS, 17, 1⟩
def MON_THERM_STATUS.fast : Fld := ⟨MON_THERM_STATUS, 18, 1⟩
def MON_THERM_STATUS.lehr_att : Fld := ⟨MON_THERM_STATUS, 19, 10⟩
def MON_THERM_EVENTS : Nat := 0x80200C
def MON_THERM_EVENTS.warn : Fld := ⟨MON_THERM_EVENTS, 0, 1⟩
def MON_THERM_EVENTS.throttle_on : Fld := ⟨MON_THERM_EVENTS, 1, 1⟩
def MON_THERM_EVENTS.throttle_off : Fld := ⟨MON_THERM_EVENTS, 2, 1⟩
def MON_THERM_EVENTS.lehr_cap : Fld := ⟨MON_THERM_EVENTS, 3, 1⟩
def MON_THERM_EVENTS.sens_broken : Fld := ⟨MON_THERM_EVENTS, 4, 1⟩
def MON_THERM_EVENTS.sens_gated : Fld := ⟨MON_THERM_EVENTS, 5, 1⟩
def MON_THERM_EVENTS.cfg_err : Fld := ⟨MON_THERM_EVENTS, 6, 1⟩
def MON_SENS_BROKEN_LO : Nat := 0x802010
def MON_SENS_BROKEN_HI : Nat := 0x802014
def MON_SHDN_CAUSE : Nat := 0x802018
def MON_SHDN_CAUSE.t_dec : Fld := ⟨MON_SHDN_CAUSE, 0, 10⟩
def MON_SHDN_CAUSE.sensor : Fld := ⟨MON_SHDN_CAUSE, 10, 6⟩
def MON_SHDN_CAUSE.latched : Fld := ⟨MON_SHDN_CAUSE, 16, 1⟩
def MON_SHDN_CAUSE.t_now : Fld := ⟨MON_SHDN_CAUSE, 20, 10⟩
def MON_TEMP (s : Nat) : Nat := 0x802100 + 0x4 * s
def MON_TEMP.value (s : Nat) : Fld := ⟨MON_TEMP s, 0, 10⟩
def MON_TEMP.broken (s : Nat) : Fld := ⟨MON_TEMP s, 10, 1⟩
def MON_TEMP.fast (s : Nat) : Fld := ⟨MON_TEMP s, 11, 1⟩
def MON_TEMP.gated (s : Nat) : Fld := ⟨MON_TEMP s, 12, 1⟩
def HLT_STATUS : Nat := 0xC00000
def HLT_STATUS.replace : Fld := ⟨HLT_STATUS, 0, 1⟩
def HLT_STATUS.remap_busy : Fld := ⟨HLT_STATUS, 1, 1⟩
def HLT_STATUS.test_busy : Fld := ⟨HLT_STATUS, 2, 1⟩
def HLT_STATUS.low : Fld := ⟨HLT_STATUS, 4, 12⟩
def HLT_STATUS.empty : Fld := ⟨HLT_STATUS, 16, 12⟩
def HLT_EVENTS : Nat := 0xC00004
def HLT_EVENTS.remap : Fld := ⟨HLT_EVENTS, 0, 1⟩
def HLT_EVENTS.hard_sub : Fld := ⟨HLT_EVENTS, 1, 1⟩
def HLT_EVENTS.worn : Fld := ⟨HLT_EVENTS, 2, 1⟩
def HLT_EVENTS.spare_test_fail : Fld := ⟨HLT_EVENTS, 3, 1⟩
def HLT_EVENTS.path_failed : Fld := ⟨HLT_EVENTS, 4, 1⟩
def HLT_EVENTS.replace_raised : Fld := ⟨HLT_EVENTS, 5, 1⟩
def HLT_EVENTS.log_drop : Fld := ⟨HLT_EVENTS, 6, 1⟩
def HLT_EVENTS.plog_fail : Fld := ⟨HLT_EVENTS, 7, 1⟩
def HLT_EVENTS.gaffer_fail : Fld := ⟨HLT_EVENTS, 8, 1⟩
def HLT_REPLACE : Nat := 0xC00008
def HLT_REPLACE.spare_low : Fld := ⟨HLT_REPLACE, 0, 1⟩
def HLT_REPLACE.no_spare : Fld := ⟨HLT_REPLACE, 1, 1⟩
def HLT_REPLACE.rx_path : Fld := ⟨HLT_REPLACE, 2, 1⟩
def HLT_REPLACE.tx_path : Fld := ⟨HLT_REPLACE, 3, 1⟩
def HLT_REPLACE.sensor : Fld := ⟨HLT_REPLACE, 4, 1⟩
def HLT_REPLACE.pll : Fld := ⟨HLT_REPLACE, 5, 1⟩
def HLT_REPLACE.nvm : Fld := ⟨HLT_REPLACE, 6, 1⟩
def HLT_REPLACE.prod_table : Fld := ⟨HLT_REPLACE, 7, 1⟩
def HLT_TEST_CFG : Nat := 0xC0000C
def HLT_TEST_CFG.test_en : Fld := ⟨HLT_TEST_CFG, 0, 1⟩
def HLT_TEST_CFG.spare_min : Fld := ⟨HLT_TEST_CFG, 8, 8⟩
def HLT_TEST_CFG.path_test : Fld := ⟨HLT_TEST_CFG, 16, 1⟩
def HLT_LOG_WPTR : Nat := 0xC00010
def HLT_LOG_WPTR.next : Fld := ⟨HLT_LOG_WPTR, 0, 12⟩
def HLT_LOG_WPTR.dropped : Fld := ⟨HLT_LOG_WPTR, 16, 16⟩
def HLT_PLOG_CNT : Nat := 0xC00014
def HLT_PLOG_CNT.held : Fld := ⟨HLT_PLOG_CNT, 0, 11⟩
def HLT_PLOG_CNT.overwritten : Fld := ⟨HLT_PLOG_CNT, 16, 16⟩
def HLT_PLOG_SEL : Nat := 0xC00018
def HLT_PLOG_SEL.entry : Fld := ⟨HLT_PLOG_SEL, 0, 10⟩
def HLT_PLOG_DATA (w : Nat) : Nat := 0xC00020 + 0x4 * w
def HLT_KITTY (k : Nat) : Nat := 0xC00080 + 0x4 * k
def HLT_KITTY.left (k : Nat) : Fld := ⟨HLT_KITTY k, 0, 11⟩
def HLT_KITTY.total (k : Nat) : Fld := ⟨HLT_KITTY k, 11, 11⟩
def HLT_KITTY.worn (k : Nat) : Fld := ⟨HLT_KITTY k, 22, 10⟩
def HLT_RETIRE (k : Nat) : Nat := 0xC000C0 + 0x4 * k
def HLT_RETIRE.threshold (k : Nat) : Fld := ⟨HLT_RETIRE k, 0, 16⟩
def HLT_RETIRE.window (k : Nat) : Fld := ⟨HLT_RETIRE k, 16, 8⟩
def HLT_RETIRE.en (k : Nat) : Fld := ⟨HLT_RETIRE k, 24, 1⟩
def HLT_RESERVE (k : Nat) : Nat := 0xC00100 + 0x4 * k
def HLT_RESERVE.reserve (k : Nat) : Fld := ⟨HLT_RESERVE k, 0, 11⟩
def HLT_REMAP_SEL : Nat := 0xC00140
def HLT_REMAP_SEL.kind : Fld := ⟨HLT_REMAP_SEL, 0, 4⟩
def HLT_REMAP_SEL.pool : Fld := ⟨HLT_REMAP_SEL, 4, 11⟩
def HLT_REMAP_DATA : Nat := 0xC00144
def HLT_TWIN_CFG : Nat := 0xC00200
def HLT_TWIN_CFG.role : Fld := ⟨HLT_TWIN_CFG, 0, 2⟩
def HLT_TWIN_CFG.auto_hb : Fld := ⟨HLT_TWIN_CFG, 2, 1⟩
def HLT_TWIN_CFG.sync_ack : Fld := ⟨HLT_TWIN_CFG, 3, 1⟩
def HLT_TWIN_CFG.twin_rank : Fld := ⟨HLT_TWIN_CFG, 4, 4⟩
def HLT_TWIN_CFG.hb_loss : Fld := ⟨HLT_TWIN_CFG, 8, 8⟩
def HLT_TWIN_CFG.sw_settle : Fld := ⟨HLT_TWIN_CFG, 16, 10⟩
def HLT_TWIN_CMD : Nat := 0xC00204
def HLT_TWIN_STATUS : Nat := 0xC00208
def HLT_TWIN_STATUS.role_act : Fld := ⟨HLT_TWIN_STATUS, 0, 2⟩
def HLT_TWIN_STATUS.token : Fld := ⟨HLT_TWIN_STATUS, 2, 1⟩
def HLT_TWIN_STATUS.sel : Fld := ⟨HLT_TWIN_STATUS, 3, 1⟩
def HLT_TWIN_STATUS.tok_in : Fld := ⟨HLT_TWIN_STATUS, 4, 1⟩
def HLT_TWIN_STATUS.tok_wait : Fld := ⟨HLT_TWIN_STATUS, 5, 1⟩
def HLT_TWIN_STATUS.partner_seen : Fld := ⟨HLT_TWIN_STATUS, 6, 1⟩
def HLT_TWIN_STATUS.partner_role : Fld := ⟨HLT_TWIN_STATUS, 7, 2⟩
def HLT_TWIN_STATUS.twin_ready : Fld := ⟨HLT_TWIN_STATUS, 9, 1⟩
def HLT_TWIN_STATUS.phase : Fld := ⟨HLT_TWIN_STATUS, 10, 2⟩
def HLT_TWIN_EVENTS : Nat := 0xC0020C
def HLT_TWIN_EVENTS.takeover : Fld := ⟨HLT_TWIN_EVENTS, 0, 1⟩
def HLT_TWIN_EVENTS.handover_out : Fld := ⟨HLT_TWIN_EVENTS, 1, 1⟩
def HLT_TWIN_EVENTS.mirror_lost : Fld := ⟨HLT_TWIN_EVENTS, 2, 1⟩
def HLT_TWIN_EVENTS.split_blocked : Fld := ⟨HLT_TWIN_EVENTS, 3, 1⟩
def HLT_TWIN_EVENTS.tok_conflict : Fld := ⟨HLT_TWIN_EVENTS, 4, 1⟩
def HLT_TWIN_EVENTS.role_conflict : Fld := ⟨HLT_TWIN_EVENTS, 5, 1⟩
def HLT_TWIN_EVENTS.role_refused : Fld := ⟨HLT_TWIN_EVENTS, 6, 1⟩
def HLT_TWIN_EVENTS.deck_mis : Fld := ⟨HLT_TWIN_EVENTS, 7, 1⟩
def HLT_TWIN_EVENTS.time_mis : Fld := ⟨HLT_TWIN_EVENTS, 8, 1⟩
def HLT_TWIN_EVENTS.takeover_unready : Fld := ⟨HLT_TWIN_EVENTS, 9, 1⟩
def HLT_TWIN_EVENTS.cmd_refused : Fld := ⟨HLT_TWIN_EVENTS, 10, 1⟩
def HLT_TWIN_FAULTS : Nat := 0xC00210
def HLT_TWIN_FAULTS.f_thermal : Fld := ⟨HLT_TWIN_FAULTS, 0, 1⟩
def HLT_TWIN_FAULTS.f_mpll : Fld := ⟨HLT_TWIN_FAULTS, 1, 1⟩
def HLT_TWIN_FAULTS.f_link : Fld := ⟨HLT_TWIN_FAULTS, 2, 1⟩
def HLT_TWIN_FAULTS.f_gaffer : Fld := ⟨HLT_TWIN_FAULTS, 3, 1⟩
def HLT_TWIN_FAULTS.f_path : Fld := ⟨HLT_TWIN_FAULTS, 4, 1⟩
def HLT_TWIN_FAULTS.f_bank : Fld := ⟨HLT_TWIN_FAULTS, 5, 1⟩
def HLT_TWIN_FAULTS.f_mute : Fld := ⟨HLT_TWIN_FAULTS, 6, 1⟩
def HLT_TWIN_FAULTS.f_qpll : Fld := ⟨HLT_TWIN_FAULTS, 7, 1⟩
def HLT_MIR_STATUS : Nat := 0xC00214
def HLT_MIR_STATUS.in_sync : Fld := ⟨HLT_MIR_STATUS, 0, 7⟩
def HLT_MIR_STATUS.lanes_up : Fld := ⟨HLT_MIR_STATUS, 8, 2⟩
def HLT_MIR_STATUS.spare_for : Fld := ⟨HLT_MIR_STATUS, 10, 2⟩
def HLT_MIR_STATUS.lag : Fld := ⟨HLT_MIR_STATUS, 16, 8⟩
def IMG_STATUS : Nat := 0xD00000
def IMG_STATUS.lock_src : Fld := ⟨IMG_STATUS, 0, 2⟩
def IMG_STATUS.lock_sess : Fld := ⟨IMG_STATUS, 2, 2⟩
def IMG_STATUS.target : Fld := ⟨IMG_STATUS, 4, 2⟩
def IMG_STATUS.reshuf_pending : Fld := ⟨IMG_STATUS, 6, 1⟩
def IMG_STATUS.running_bank : Fld := ⟨IMG_STATUS, 7, 1⟩
def IMG_STATUS.migrating : Fld := ⟨IMG_STATUS, 8, 1⟩
def IMG_STATUS.in_pause : Fld := ⟨IMG_STATUS, 9, 1⟩
def IMG_STATUS.stored_rs : Fld := ⟨IMG_STATUS, 10, 4⟩
def IMG_STATUS.deck_slot : Fld := ⟨IMG_STATUS, 14, 1⟩
def IMG_EVENTS : Nat := 0xD00004
def IMG_EVENTS.load_done : Fld := ⟨IMG_EVENTS, 0, 1⟩
def IMG_EVENTS.load_refused : Fld := ⟨IMG_EVENTS, 1, 1⟩
def IMG_EVENTS.reshuf_refused : Fld := ⟨IMG_EVENTS, 2, 1⟩
def IMG_EVENTS.busy_refused : Fld := ⟨IMG_EVENTS, 3, 1⟩
def IMG_EVENTS.lock_timeout : Fld := ⟨IMG_EVENTS, 4, 1⟩
def IMG_EVENTS.handover_done : Fld := ⟨IMG_EVENTS, 5, 1⟩
def IMG_EVENTS.selftest_fail : Fld := ⟨IMG_EVENTS, 6, 1⟩
def IMG_EVENTS.mig_done : Fld := ⟨IMG_EVENTS, 7, 1⟩
def IMG_EVENTS.rec_newer : Fld := ⟨IMG_EVENTS, 8, 1⟩
def IMG_CMD : Nat := 0xD00008
def IMG_LOAD_ERR : Nat := 0xD0000C
def IMG_LOAD_ERR.code : Fld := ⟨IMG_LOAD_ERR, 0, 4⟩
def IMG_LOAD_ERR.sect : Fld := ⟨IMG_LOAD_ERR, 4, 6⟩
def IMG_LOAD_ERR.entry : Fld := ⟨IMG_LOAD_ERR, 10, 16⟩
def IMG_SPI_DATA : Nat := 0xD00010
def IMG_SPI_OFF : Nat := 0xD00014
def IMG_DECK_ID_LO : Nat := 0xD00018
def IMG_DECK_ID_HI : Nat := 0xD0001C
def IMG_BANK (k : Nat) : Nat := 0xD00020 + 0x4 * k
def IMG_BANK.state (k : Nat) : Fld := ⟨IMG_BANK k, 0, 2⟩
def IMG_BANK.preferred (k : Nat) : Fld := ⟨IMG_BANK k, 2, 1⟩
def IMG_BANK.commits (k : Nat) : Fld := ⟨IMG_BANK k, 16, 16⟩
def IMG_FW_VER (k : Nat) : Nat := 0xD00028 + 0x4 * k
def IMG_MIG_STATUS : Nat := 0xD00030
def IMG_MIG_STATUS.progress : Fld := ⟨IMG_MIG_STATUS, 0, 8⟩
def IMG_MIG_STATUS.rec : Fld := ⟨IMG_MIG_STATUS, 8, 8⟩
def IMG_FUSE : Nat := 0xD00034
def IMG_FUSE.require_sig : Fld := ⟨IMG_FUSE, 0, 1⟩
def IMG_FUSE.slot0_valid : Fld := ⟨IMG_FUSE, 1, 1⟩
def IMG_FUSE.slot0_revoked : Fld := ⟨IMG_FUSE, 2, 1⟩
def IMG_FUSE.slot1_valid : Fld := ⟨IMG_FUSE, 3, 1⟩
def IMG_FUSE.slot1_revoked : Fld := ⟨IMG_FUSE, 4, 1⟩
def IMG_CFG : Nat := 0xD00038
def IMG_CFG.lock_to : Fld := ⟨IMG_CFG, 0, 8⟩

/-- QUAD_RX_FACT_s_w: word `w` of slice `s`, w = 0 to 7 (spec/03). -/
def QUAD_RX_FACT (u : RxUnit) (s w : Nat) : Nat := rxBase u + 0x100 + 0x20 * s + 4 * w
/-- st_q: the state field of quadrant `q` in GCTL_QUAD_STATE. -/
def GCTL_QUAD_STATE.st_q (q : Nat) : Fld := ⟨GCTL_QUAD_STATE, 2 * q, 2⟩
/-- req_q: the requested state of quadrant `q`. -/
def GCTL_QUAD_REQ.req_q (q : Nat) : Fld := ⟨GCTL_QUAD_REQ, 2 * q, 2⟩
/-- lb_q: the loopback point of quadrant `q`. -/
def GCTL_LOOPBACK.lb_q (q : Nat) : Fld := ⟨GCTL_LOOPBACK, 4 * q, 3⟩
/-- resp_k, k = 1 to 8. -/
def QUAD_DDC_RESP.resp (c : ChainId) (k : Nat) : Fld := ⟨QUAD_DDC_RESP c, 2 * k - 2, 2⟩
/-- sh_k, k = 1 to 8. -/
def QUAD_DDC_SHIFT.sh (c : ChainId) (k : Nat) : Fld := ⟨QUAD_DDC_SHIFT c, 3 * k - 3, 3⟩
/-- pos_k, k = 0 to 3: the physical slice serving position k. -/
def QUAD_RX_STATUS.pos (u : RxUnit) (k : Nat) : Fld := ⟨QUAD_RX_STATUS u, 3 * k, 3⟩
/-- Lock state of QPLL `q`: two bits of CLK_STATUS.qpll. -/
def CLK_STATUS.qpll_q (q : Nat) : Fld := ⟨CLK_STATUS, 4 + 2 * q, 2⟩
/-- CAL_PATH_n_w. -/
def CAL_PATH_w (n w : Nat) : Nat := 0x901000 + 0x40 * n + 4 * w
/-- QUAD_TX, DUC and observation DDC registers are reached through `ChainId`. -/
def QUAD_FES_STATE_w (q s w : Nat) : Nat := quadBase q + 0x5800 + 0x10 * s + 4 * w
/-- Word `w` of action `k` of quadrant `q`'s sequencer. -/
def QUAD_FES_ACT_w (q k w : Nat) : Nat := quadBase q + 0x6000 + 8 * k + 4 * w

/-- HLT_RETIRE_k at reset: the default threshold of R438, a window of 24 h (1 h for kinds 7 and 8) and en = 1;
the register of k = 11 reads 0. -/
def retireReset (k : Nat) : Nat :=
  let thr := match k with
    | 0 => 64 | 1 => 64 | 2 => 16 | 3 => 16 | 4 => 16 | 5 => 8 | 6 => 4096 | 7 => 64 | 8 => 64 | 9 => 16 | 10 => 1 | _ => 0
  let win := if k = 7 ∨ k = 8 then 1 else 24
  if k = 11 then 0 else 0x1000000 + win * 0x10000 + thr

/-- The register table of the GCTL block, by offset. -/
def gctlInfo (o : Nat) : Option RegInfo :=
  match o with
  | 0x0 => some ⟨.ro, 0x16420A1, 0x0⟩
  | 0x4 => some ⟨.ro, 0x0, 0x0⟩
  | 0x8 => some ⟨.ro, 0x0, 0x0⟩
  | 0xC => some ⟨.rw, 0x0, 0xFFFFFFFF⟩
  | 0x10 => some ⟨.ro, 0x0, 0x0⟩
  | 0x14 => some ⟨.rw, 0x40000, 0xFFFBFFFF⟩
  | 0x18 => some ⟨.rw, 0x20000, 0xFFFFFFFF⟩
  | 0x1C => some ⟨.w1c, 0x0, 0x1F⟩
  | 0x50 => some ⟨.rw, 0x0, 0x1⟩
  | 0x54 => some ⟨.wo, 0x0, 0xFFFFFFFF⟩
  | 0x58 => some ⟨.ro, 0x0, 0x0⟩
  | 0x5C => some ⟨.rw, 0x0, 0xFFFFFFFF⟩
  | 0x60 => some ⟨.rw, 0x0, 0xFFFFFFFF⟩
  | 0x200 => some ⟨.ro, 0x1, 0x0⟩
  | 0x204 => some ⟨.wo, 0x0, 0xFFFFFFFF⟩
  | 0x208 => some ⟨.rws, 0x0, 0xFFF⟩
  | 0x20C => some ⟨.ro, 0x0, 0x0⟩
  | 0x210 => some ⟨.w1c, 0x0, 0x7F⟩
  | 0x214 => some ⟨.ro, 0x0, 0x0⟩
  | 0x218 => some ⟨.rw, 0x0, 0xF7⟩
  | 0x21C => some ⟨.rw, 0x0, 0x7777⟩
  | 0x1000 => some ⟨.ro, 0x64, 0x0⟩
  | 0x1004 => some ⟨.w1c, 0x0, 0x7FF⟩
  | 0x1008 => some ⟨.rw, 0xF4032, 0xFFFF7⟩
  | 0x100C => some ⟨.rw, 0x3060C19, 0xFFFFFFFF⟩
  | 0x1010 => some ⟨.rw, 0x1023828, 0x1FFFFFF⟩
  | 0x1014 => some ⟨.ro, 0x20028, 0x0⟩
  | 0x1018 => some ⟨.ro, 0x40, 0x0⟩
  | 0x1020 => some ⟨.rws, 0x0, 0xFFFF⟩
  | 0x1024 => some ⟨.rws, 0x0, 0xFFFF⟩
  | 0x1028 => some ⟨.ro, 0x0, 0x0⟩
  | 0x102C => some ⟨.ro, 0x0, 0x0⟩
  | 0x1030 => some ⟨.ro, 0x0, 0x0⟩
  | 0x1034 => some ⟨.rw, 0x4, 0xFF⟩
  | 0x1038 => some ⟨.ro, 0x0, 0x0⟩
  | 0x103C => some ⟨.ro, 0x0, 0x0⟩
  | _ =>
    if 0x20 ≤ o ∧ o < 0x30 then some ⟨.ro, 0x0, 0x0⟩ else
    if 0x30 ≤ o ∧ o < 0x44 then some ⟨.ro, 0x0, 0x0⟩ else
    if 0x1040 ≤ o ∧ o < 0x1084 then some ⟨.ro, 0x0, 0x0⟩ else
    none

/-- The register table of the BMU block, by offset. -/
def bmuInfo (o : Nat) : Option RegInfo :=
  match o with
  | 0x0 => some ⟨.rws, 0x240, 0xFF7⟩
  | 0x4 => some ⟨.rws, 0x0, 0x3FFFFF⟩
  | 0x8 => some ⟨.rws, 0x0, 0x3FFFFF⟩
  | 0xC => some ⟨.rw, 0x3, 0x3⟩
  | 0x10 => some ⟨.ro, 0x1, 0x0⟩
  | 0x14 => some ⟨.w1c, 0x0, 0x7FF⟩
  | 0x18 => some ⟨.w1c, 0x0, 0xFFFFFFFF⟩
  | 0x1C => some ⟨.w1c, 0x0, 0xFFFFFFFF⟩
  | 0x20 => some ⟨.w1c, 0x0, 0xFFFFFFFF⟩
  | 0x24 => some ⟨.w1c, 0x0, 0xFFFFFFFF⟩
  | 0x28 => some ⟨.ro, 0xFFFFFFFF, 0x0⟩
  | 0x2C => some ⟨.ro, 0xFFFFFFFF, 0x0⟩
  | 0x30 => some ⟨.ro, 0xFFFFFFFF, 0x0⟩
  | 0x34 => some ⟨.ro, 0xFFFFFFFF, 0x0⟩
  | 0x60 => some ⟨.rw, 0x0, 0x1FFF⟩
  | 0x64 => some ⟨.ro, 0x0, 0x0⟩
  | 0x68 => some ⟨.ro, 0x0, 0x0⟩
  | 0x70 => some ⟨.ro, 0x3F3F, 0x0⟩
  | _ =>
    if 0x40 ≤ o ∧ o < 0x50 then some ⟨.rws, 0x0, 0xFFFF⟩ else
    if 0x50 ≤ o ∧ o < 0x60 then some ⟨.rws, 0x0, 0xFFFF⟩ else
    if 0x100 ≤ o ∧ o < 0x180 then some ⟨.ro, 0x0, 0x0⟩ else
    if 0x180 ≤ o ∧ o < 0x200 then some ⟨.ro, 0x0, 0x0⟩ else
    if 0x1000 ≤ o ∧ o < 0x1400 then some ⟨.ro, 0x0, 0x0⟩ else
    none

/-- The register table of the ACQ block, by offset. -/
def acqInfo (o : Nat) : Option RegInfo :=
  match o with
  | 0x0 => some ⟨.rws, 0x0, 0x7FFFFFFF⟩
  | 0x4 => some ⟨.rws, 0x0, 0xFFFFFFF⟩
  | 0x8 => some ⟨.rw, 0x3C, 0x1FFFFF⟩
  | 0xC => some ⟨.rws, 0x0, 0x3FFF⟩
  | 0x10 => some ⟨.rw, 0x3E8, 0xFFFF⟩
  | 0x14 => some ⟨.ro, 0x0, 0x0⟩
  | 0x18 => some ⟨.w1c, 0x0, 0x3F⟩
  | 0x1C => some ⟨.ro, 0x0, 0x0⟩
  | 0x1000 => some ⟨.rw, 0x18000, 0x1FFFF⟩
  | 0x1004 => some ⟨.rw, 0x0, 0xFFFFFFFF⟩
  | 0x1008 => some ⟨.rw, 0x888, 0xFFFF⟩
  | 0x100C => some ⟨.ro, 0x0, 0x0⟩
  | 0x1010 => some ⟨.w1c, 0x0, 0x7FF⟩
  | 0x1014 => some ⟨.ro, 0x0, 0x0⟩
  | 0x1018 => some ⟨.ro, 0x0, 0x0⟩
  | 0x101C => some ⟨.wo, 0x0, 0xFFFFFFFF⟩
  | 0x1020 => some ⟨.rw, 0x0, 0x1FFFF⟩
  | 0x1024 => some ⟨.ro, 0x0, 0x0⟩
  | 0x1028 => some ⟨.ro, 0x0, 0x0⟩
  | 0x102C => some ⟨.ro, 0x0, 0x0⟩
  | 0x1030 => some ⟨.ro, 0x0, 0x0⟩
  | _ =>
    if 0x100 ≤ o ∧ o < 0x200 then some ⟨.rws, 0x1, 0x3FF⟩ else
    if 0x200 ≤ o ∧ o < 0x300 then some ⟨.rws, 0x0, 0xFFFFFFF⟩ else
    none

/-- The register table of the CLK block, by offset. -/
def clkInfo (o : Nat) : Option RegInfo :=
  match o with
  | 0x0 => some ⟨.rw, 0x10A00, 0x17F03⟩
  | 0x4 => some ⟨.rw, 0x5AC3E1, 0xFFFFFF⟩
  | 0x8 => some ⟨.rw, 0x0, 0xFFFF⟩
  | 0xC => some ⟨.wo, 0x0, 0xFFFFFFFF⟩
  | 0x10 => some ⟨.ro, 0x0, 0x0⟩
  | 0x14 => some ⟨.w1c, 0x0, 0xFFFF⟩
  | 0x18 => some ⟨.rw, 0x0, 0xFFF⟩
  | 0x1C => some ⟨.ro, 0x0, 0x0⟩
  | 0x20 => some ⟨.rw, 0x0, 0xFFFFFFFF⟩
  | 0x24 => some ⟨.rw, 0x0, 0xFFFFFFFF⟩
  | 0x28 => some ⟨.rw, 0x0, 0xFFFFFF⟩
  | 0x30 => some ⟨.ro, 0x0, 0x0⟩
  | 0x34 => some ⟨.ro, 0x0, 0x0⟩
  | 0x38 => some ⟨.ro, 0x0, 0x0⟩
  | 0x3C => some ⟨.ro, 0x0, 0x0⟩
  | _ =>
    if 0x40 ≤ o ∧ o < 0x80 then some ⟨.ro, 0x0, 0x0⟩ else
    if 0x1000 ≤ o ∧ o < 0x1100 then some ⟨.ro, 0x0, 0x0⟩ else
    if 0x1100 ≤ o ∧ o < 0x1200 then some ⟨.ro, 0x0, 0x0⟩ else
    none

/-- The register table of the CAL block, by offset. -/
def calInfo (o : Nat) : Option RegInfo :=
  match o with
  | 0x0 => some ⟨.rw, 0xA0A013C, 0xFFFF01FF⟩
  | 0x4 => some ⟨.rw, 0x10001, 0x3FF1F⟩
  | 0x8 => some ⟨.rw, 0x0, 0x3FFFFF⟩
  | 0xC => some ⟨.rw, 0x2314, 0xFFFF⟩
  | 0x10 => some ⟨.ro, 0x0, 0x0⟩
  | 0x14 => some ⟨.w1c, 0x0, 0xFFFF⟩
  | 0x18 => some ⟨.ro, 0x0, 0x0⟩
  | 0x1C => some ⟨.ro, 0x0, 0x0⟩
  | 0x20 => some ⟨.ro, 0x0, 0x0⟩
  | 0x24 => some ⟨.ro, 0x0, 0x0⟩
  | 0x28 => some ⟨.ro, 0x0, 0x0⟩
  | 0x2C => some ⟨.ro, 0x0, 0x0⟩
  | 0x30 => some ⟨.ro, 0x0, 0x0⟩
  | 0x34 => some ⟨.rw, 0xA0C10, 0xFFFF1F⟩
  | 0x38 => some ⟨.ro, 0x0, 0x0⟩
  | _ =>
    if 0x40 ≤ o ∧ o < 0x50 then some ⟨.rw, 0xFF00, 0xFFFF⟩ else
    if 0x60 ≤ o ∧ o < 0x70 then some ⟨.rw, 0x0, 0xFFFE01⟩ else
    if 0x1000 ≤ o ∧ o < 0x2000 then some ⟨.ro, if o % 16 = 12 then 0x3FFFFFFF else 0, 0⟩ else
    none

/-- The register table of the DMA block, by offset. -/
def dmaInfo (o : Nat) : Option RegInfo :=
  match o with
  | 0x0 => some ⟨.ro, 0x0, 0x0⟩
  | 0x4 => some ⟨.w1c, 0x0, 0xFFFFFFFF⟩
  | 0x8 => some ⟨.w1c, 0x0, 0xFFFFFFFF⟩
  | 0xC => some ⟨.ro, 0x0, 0x0⟩
  | 0x10 => some ⟨.w1c, 0x0, 0x3⟩
  | 0x8000 => some ⟨.ro, 0x1402, 0x0⟩
  | 0x8004 => some ⟨.w1c, 0x0, 0x1FFF⟩
  | 0x8008 => some ⟨.ro, 0x0, 0x0⟩
  | 0x800C => some ⟨.ro, 0x0, 0x0⟩
  | 0x8010 => some ⟨.ro, 0x0, 0x0⟩
  | 0x8014 => some ⟨.rw, 0x8, 0xFF⟩
  | 0x8018 => some ⟨.ro, 0x0, 0x0⟩
  | _ =>
    if 0x1000 ≤ o ∧ o < 0x17C4 ∧ (o - 0x1000) % 0x40 = 0 then some ⟨.wo, 0x0, 0xFFFFFFFF⟩ else
    if 0x1004 ≤ o ∧ o < 0x17C8 ∧ (o - 0x1004) % 0x40 = 0 then some ⟨.rw, 0x0, 0xFFFFFFE0⟩ else
    if 0x1008 ≤ o ∧ o < 0x17CC ∧ (o - 0x1008) % 0x40 = 0 then some ⟨.rw, 0x40, 0x37F⟩ else
    if 0x100C ≤ o ∧ o < 0x17D0 ∧ (o - 0x100C) % 0x40 = 0 then some ⟨.ro, 0x0, 0x0⟩ else
    if 0x1010 ≤ o ∧ o < 0x17D4 ∧ (o - 0x1010) % 0x40 = 0 then some ⟨.ro, 0x0, 0x0⟩ else
    if 0x1014 ≤ o ∧ o < 0x17D8 ∧ (o - 0x1014) % 0x40 = 0 then some ⟨.ro, 0x0, 0x0⟩ else
    if 0x1018 ≤ o ∧ o < 0x17DC ∧ (o - 0x1018) % 0x40 = 0 then some ⟨.ro, 0x0, 0x0⟩ else
    if 0x8100 ≤ o ∧ o < 0x8174 ∧ (o - 0x8100) % 0x10 = 0 then some ⟨.ro, 0x0, 0x0⟩ else
    if 0x8104 ≤ o ∧ o < 0x8178 ∧ (o - 0x8104) % 0x10 = 0 then some ⟨.ro, 0x0, 0x0⟩ else
    if 0x8108 ≤ o ∧ o < 0x817C ∧ (o - 0x8108) % 0x10 = 0 then some ⟨.rw, 0x0, 0x7FF⟩ else
    if 0x810C ≤ o ∧ o < 0x8180 ∧ (o - 0x810C) % 0x10 = 0 then some ⟨.ro, 0x0, 0x0⟩ else
    if 0x9000 ≤ o ∧ o < 0x91C4 ∧ (o - 0x9000) % 0x40 = 0 then some ⟨.rw, 0x0, 0x3F⟩ else
    if 0x9004 ≤ o ∧ o < 0x91C8 ∧ (o - 0x9004) % 0x40 = 0 then some ⟨.wo, 0x0, 0xFFFFFFFF⟩ else
    if 0x9008 ≤ o ∧ o < 0x91CC ∧ (o - 0x9008) % 0x40 = 0 then some ⟨.rw, 0x0, 0xFFFFFFFF⟩ else
    if 0x900C ≤ o ∧ o < 0x91D0 ∧ (o - 0x900C) % 0x40 = 0 then some ⟨.rw, 0x0, 0xFFFFFFFF⟩ else
    if 0x9010 ≤ o ∧ o < 0x91D4 ∧ (o - 0x9010) % 0x40 = 0 then some ⟨.rw, 0x0, 0xFFFFFFFF⟩ else
    if 0x9014 ≤ o ∧ o < 0x91D8 ∧ (o - 0x9014) % 0x40 = 0 then some ⟨.rw, 0x1000, 0xFFFFFFFF⟩ else
    if 0x9018 ≤ o ∧ o < 0x91DC ∧ (o - 0x9018) % 0x40 = 0 then some ⟨.rw, 0x0, 0xFFFFFFFF⟩ else
    if 0x901C ≤ o ∧ o < 0x91E0 ∧ (o - 0x901C) % 0x40 = 0 then some ⟨.rw, 0x0, 0xFFFFFFFF⟩ else
    if 0x9020 ≤ o ∧ o < 0x91E4 ∧ (o - 0x9020) % 0x40 = 0 then some ⟨.ro, 0x0, 0x0⟩ else
    if 0x9024 ≤ o ∧ o < 0x91E8 ∧ (o - 0x9024) % 0x40 = 0 then some ⟨.rw, 0x0, 0xFFFFFFFF⟩ else
    if 0x9028 ≤ o ∧ o < 0x91EC ∧ (o - 0x9028) % 0x40 = 0 then some ⟨.ro, 0x0, 0x0⟩ else
    if 0x902C ≤ o ∧ o < 0x91F0 ∧ (o - 0x902C) % 0x40 = 0 then some ⟨.ro, 0x0, 0x0⟩ else
    if 0x9030 ≤ o ∧ o < 0x91F4 ∧ (o - 0x9030) % 0x40 = 0 then some ⟨.ro, 0x0, 0x0⟩ else
    if 0x9034 ≤ o ∧ o < 0x91F8 ∧ (o - 0x9034) % 0x40 = 0 then some ⟨.ro, 0x0, 0x0⟩ else
    if 0x9038 ≤ o ∧ o < 0x91FC ∧ (o - 0x9038) % 0x40 = 0 then some ⟨.ro, 0x0, 0x0⟩ else
    if 0x903C ≤ o ∧ o < 0x9200 ∧ (o - 0x903C) % 0x40 = 0 then some ⟨.ro, 0x0, 0x0⟩ else
    none

/-- The register table of the EPL block, by offset. -/
def eplInfo (o : Nat) : Option RegInfo :=
  match o with
  | 0x0 => some ⟨.rw, 0x240088B5, 0x3FFFFFFF⟩
  | 0x4 => some ⟨.ro, 0x0, 0x0⟩
  | 0x8 => some ⟨.w1c, 0x0, 0xFF⟩
  | 0xC => some ⟨.ro, 0x0, 0x0⟩
  | 0x10 => some ⟨.ro, 0x0, 0x0⟩
  | 0x14 => some ⟨.ro, 0x0, 0x0⟩
  | 0x18 => some ⟨.ro, 0x88, 0x0⟩
  | 0xC0 => some ⟨.rw, 0x64, 0x7FF⟩
  | 0xC4 => some ⟨.rw, 0x0, 0xFFFFFFF⟩
  | _ =>
    if 0x20 ≤ o ∧ o < 0x30 then some ⟨.rw, 0x1, 0x7⟩ else
    if 0x30 ≤ o ∧ o < 0x40 then some ⟨.ro, 0x0, 0x0⟩ else
    if 0x40 ≤ o ∧ o < 0x50 then some ⟨.ro, 0x0, 0x0⟩ else
    if 0x50 ≤ o ∧ o < 0x6C ∧ (o - 0x50) % 0x8 = 0 then some ⟨.rw, 0x0, 0xFFFFFFFF⟩ else
    if 0x54 ≤ o ∧ o < 0x70 ∧ (o - 0x54) % 0x8 = 0 then some ⟨.rw, 0x0, 0xFFFF⟩ else
    if 0x80 ≤ o ∧ o < 0xB4 ∧ (o - 0x80) % 0x10 = 0 then some ⟨.rw, 0x0, 0xFFFFFFFF⟩ else
    if 0x84 ≤ o ∧ o < 0xB8 ∧ (o - 0x84) % 0x10 = 0 then some ⟨.rw, 0x0, 0xFFFF⟩ else
    if 0x88 ≤ o ∧ o < 0xBC ∧ (o - 0x88) % 0x10 = 0 then some ⟨.rw, 0xF, 0xF⟩ else
    if 0xC8 ≤ o ∧ o < 0xD4 then some ⟨.ro, 0x0, 0x0⟩ else
    none

/-- The register table of the HLT block, by offset. -/
def hltInfo (o : Nat) : Option RegInfo :=
  match o with
  | 0x0 => some ⟨.ro, 0x0, 0x0⟩
  | 0x4 => some ⟨.w1c, 0x0, 0x1FF⟩
  | 0x8 => some ⟨.ro, 0x0, 0x0⟩
  | 0xC => some ⟨.rw, 0x10A01, 0x1FF01⟩
  | 0x10 => some ⟨.ro, 0x0, 0x0⟩
  | 0x14 => some ⟨.ro, 0x0, 0x0⟩
  | 0x18 => some ⟨.rw, 0x0, 0x3FF⟩
  | 0x140 => some ⟨.rw, 0x0, 0x7FFF⟩
  | 0x144 => some ⟨.ro, 0x0, 0x0⟩
  | 0x200 => some ⟨.rw, 0x64140C, 0x3FFFFFF⟩
  | 0x204 => some ⟨.wo, 0x0, 0xFFFFFFFF⟩
  | 0x208 => some ⟨.ro, 0x0, 0x0⟩
  | 0x20C => some ⟨.w1c, 0x0, 0x7FF⟩
  | 0x210 => some ⟨.rw, 0xF, 0xFE⟩
  | 0x214 => some ⟨.ro, 0x0, 0x0⟩
  | _ =>
    if 0x20 ≤ o ∧ o < 0x60 then some ⟨.ro, 0x0, 0x0⟩ else
    if 0x80 ≤ o ∧ o < 0xB0 then some ⟨.ro, 0x0, 0x0⟩ else
    if 0xC0 ≤ o ∧ o < 0xF0 then some (if o = 0xEC then ⟨.rw, 0, 0⟩ else ⟨.rw, retireReset ((o - 0xC0) / 4), 0x1FFFFFF⟩) else
    if 0x100 ≤ o ∧ o < 0x130 then some (if o = 0x12C then ⟨.rw, 0, 0⟩ else ⟨.rw, 1, 0x7FF⟩) else
    none

/-- The register table of the IMG block, by offset. -/
def imgInfo (o : Nat) : Option RegInfo :=
  match o with
  | 0x0 => some ⟨.ro, 0x0, 0x0⟩
  | 0x4 => some ⟨.w1c, 0x0, 0x1FF⟩
  | 0x8 => some ⟨.wo, 0x0, 0xFFFFFFFF⟩
  | 0xC => some ⟨.ro, 0x0, 0x0⟩
  | 0x10 => some ⟨.wo, 0x0, 0xFFFFFFFF⟩
  | 0x14 => some ⟨.ro, 0x0, 0x0⟩
  | 0x18 => some ⟨.ro, 0x0, 0x0⟩
  | 0x1C => some ⟨.ro, 0x0, 0x0⟩
  | 0x30 => some ⟨.ro, 0x0, 0x0⟩
  | 0x34 => some ⟨.ro, 0x0, 0x0⟩
  | 0x38 => some ⟨.rw, 0xA, 0xFF⟩
  | _ =>
    if 0x20 ≤ o ∧ o < 0x28 then some ⟨.ro, 0x0, 0x0⟩ else
    if 0x28 ≤ o ∧ o < 0x30 then some ⟨.ro, 0x0, 0x0⟩ else
    none

/-- The registers of one monitor converter, by offset in its 0x400 bytes. -/
def monQInfo (o : Nat) : Option RegInfo :=
  match o with
  | 0x0 => some ⟨.rw, 0x10001, 0xF7F01FF⟩
  | 0x4 => some ⟨.wo, 0x0, 0xFFFFFFFF⟩
  | 0x8 => some ⟨.ro, 0x0, 0x0⟩
  | 0xC => some ⟨.w1c, 0x0, 0x7F⟩
  | 0x10 => some ⟨.rw, 0x0, 0x3FFF⟩
  | 0x14 => some ⟨.rw, 0x8000, 0xFFFF⟩
  | 0x18 => some ⟨.ro, 0x0, 0x0⟩
  | 0x1C => some ⟨.ro, 0x0, 0x0⟩
  | _ =>
    if 0x100 ≤ o ∧ o < 0x180 then some ⟨.rw, 0x0, 0x1FFF⟩ else
    if 0x200 ≤ o ∧ o < 0x280 then some ⟨.ro, 0x0, 0x0⟩ else
    if 0x300 ≤ o ∧ o < 0x310 then some ⟨.ro, 0x0, 0x0⟩ else
    none

/-- The MON registers from offset 0x1000. -/
def monInfo (o : Nat) : Option RegInfo :=
  match o with
  | 0x1000 => some ⟨.rw, 0x0, 0xFFFFFF03⟩
  | 0x1004 => some ⟨.wo, 0x0, 0xFFFFFFFF⟩
  | 0x2000 => some ⟨.rw, 0x786964, 0xFFFFFF⟩
  | 0x2004 => some ⟨.rw, 0x1053C32, 0x1FFFF7F⟩
  | 0x2008 => some ⟨.ro, 0x0, 0x0⟩
  | 0x200C => some ⟨.w1c, 0x0, 0x7F⟩
  | 0x2010 => some ⟨.ro, 0x0, 0x0⟩
  | 0x2014 => some ⟨.ro, 0x0, 0x0⟩
  | 0x2018 => some ⟨.ro, 0x0, 0x0⟩
  | _ =>
    if 0x2100 ≤ o ∧ o < 0x2190 then some ⟨.ro, 0x0, 0x0⟩ else
    none

/-- Registers a path and an observation receiver both have, by offset from `rxBase`. -/
def rxInfo (o : Nat) : Option RegInfo :=
  match o with
  | 0x0 => some ⟨.rws, 0x4, 0x7⟩
  | 0x4 => some ⟨.rws, 0x3F, 0x3F⟩
  | 0xC => some ⟨.ro, 0x4688, 0x0⟩
  | 0x10 => some ⟨.w1c, 0x0, 0x7F⟩
  | 0x1A0 => some ⟨.rw, 0x0, 0xFF03FF⟩
  | 0x1A4 => some ⟨.rw, 0x0, 0xFFFFFFFF⟩
  | _ =>
    none

/-- The registers of one conversion chain, by offset from `chainBase`. -/
def chainInfo (o : Nat) : Option RegInfo :=
  match o with
  | 0x0 => some ⟨.rws, 0x1, 0x3F⟩
  | 0x4 => some ⟨.rws, 0x0, 0xFFFF⟩
  | 0x8 => some ⟨.rws, 0x0, 0xFFFFFF⟩
  | 0xC => some ⟨.rw, 0x0, 0xFFFFFFFF⟩
  | 0x10 => some ⟨.rws, 0x0, 0xFFFF⟩
  | 0x14 => some ⟨.rws, 0x0, 0xFFFF⟩
  | 0x18 => some ⟨.ro, 0x1, 0x0⟩
  | 0x1C => some ⟨.w1c, 0x0, 0xF⟩
  | 0x20 => some ⟨.ro, 0x0, 0x0⟩
  | _ =>
    none

/-- Registers only a path has, by offset from `pathBase`. -/
def pathInfo (o : Nat) : Option RegInfo :=
  match o with
  | 0x8 => some ⟨.rw, 0x1241C85, 0x1FF1FFF⟩
  | 0x14 => some ⟨.ro, 0x0, 0x0⟩
  | 0x18 => some ⟨.ro, 0x0, 0x0⟩
  | 0x300 => some ⟨.rws, 0x18, 0x3F⟩
  | 0x304 => some ⟨.rws, 0x1770, 0x1FFF⟩
  | 0x308 => some ⟨.ro, 0x500148, 0x0⟩
  | 0x30C => some ⟨.w1c, 0x0, 0x7⟩
  | 0x310 => some ⟨.ro, 0x0, 0x0⟩
  | 0x314 => some ⟨.ro, 0x0, 0x0⟩
  | 0x380 => some ⟨.rws, 0x2, 0xF⟩
  | 0x384 => some ⟨.ro, 0x0, 0x0⟩
  | 0x388 => some ⟨.w1c, 0x0, 0x3FF⟩
  | 0x38C => some ⟨.rw, 0x0, 0x1FFF⟩
  | 0x390 => some ⟨.rw, 0x0, 0xFFFFFFFF⟩
  | 0x394 => some ⟨.ro, 0x0, 0x0⟩
  | 0x398 => some ⟨.ro, 0x4000, 0x0⟩
  | 0x39C => some ⟨.ro, 0x0, 0x0⟩
  | 0x3A0 => some ⟨.ro, 0x0, 0x0⟩
  | 0x3A4 => some ⟨.ro, 0x0, 0x0⟩
  | _ =>
    none

/-- Registers of a quadrant that belong to no path and no observation receiver. -/
def quadOnlyInfo (o : Nat) : Option RegInfo :=
  match o with
  | 0x4000 => some ⟨.wo, 0x0, 0xFFFFFFFF⟩
  | 0x4004 => some ⟨.rw, 0x2, 0x3⟩
  | 0x4008 => some ⟨.ro, 0x0, 0x0⟩
  | 0x400C => some ⟨.w1c, 0x0, 0xF⟩
  | 0x5000 => some ⟨.rw, 0x1000, 0xFFF1⟩
  | 0x5004 => some ⟨.rw, 0xFF, 0xFFFFFF⟩
  | 0x5008 => some ⟨.ro, 0x0, 0x0⟩
  | 0x500C => some ⟨.w1c, 0x0, 0x3F⟩
  | 0x5010 => some ⟨.wo, 0x0, 0xFFFFFFFF⟩
  | 0x5014 => some ⟨.ro, 0x0, 0x0⟩
  | 0x5018 => some ⟨.ro, 0x0, 0x0⟩
  | 0x501C => some ⟨.ro, 0x0, 0x0⟩
  | 0x7000 => some ⟨.rws, 0x0, 0xFFFF⟩
  | 0x7004 => some ⟨.rw, 0x32301010, 0xFF3F1F1F⟩
  | 0x7008 => some ⟨.rw, 0x1440A408, 0xFFFFFF1F⟩
  | 0x700C => some ⟨.rw, 0x1E0C4E20, 0xFF0FFFFF⟩
  | 0x7018 => some ⟨.ro, 0x1F, 0x0⟩
  | 0x701C => some ⟨.w1c, 0x0, 0x1⟩
  | _ =>
    if 0x5400 ≤ o ∧ o < 0x5480 then some ⟨.ro, 0x0, 0x0⟩ else
    if 0x5480 ≤ o ∧ o < 0x5500 then some ⟨.ro, 0x0, 0x0⟩ else
    if 0x5800 ≤ o ∧ o < 0x5C00 then some ⟨.ro, 0x0, 0x0⟩ else
    if 0x6000 ≤ o ∧ o < 0x7000 then some ⟨.ro, 0x0, 0x0⟩ else
    if 0x7010 ≤ o ∧ o < 0x7018 then some ⟨.rw, 0x0, 0xFFFF⟩ else
    none

/-- Factor words (spec/03): offset and skew reset to 0, gains to 0x8000. -/
def factInfo (o : Nat) : Option RegInfo :=
  if 0x100 ≤ o ∧ o < 0x1A0 then
    some ⟨.rw, if o % 0x20 = 0 ∨ o % 0x20 = 8 then 0 else 0x8000, 0xFFFF⟩
  else none

/-- The 0x400 bytes of one path. In the transmit chain QUAD_DUC_CFG and QUAD_DUC_STATUS reset to 0 and nstages_tx has three
bits (spec/04). -/
def pathRowInfo (o : Nat) : Option RegInfo :=
  (rxInfo o).orElse fun _ => (factInfo o).orElse fun _ =>
    (if 0x200 ≤ o ∧ o < 0x240 then chainInfo (o - 0x200) else none).orElse fun _ =>
    (if o = 0x240 then some ⟨.rws, 0, 0x37⟩ else if o = 0x258 then some ⟨.ro, 0, 0⟩
      else if 0x240 ≤ o ∧ o < 0x280 then chainInfo (o - 0x240) else none).orElse fun _ => pathInfo o

/-- The 0x400 bytes of one observation receiver. -/
def obsRowInfo (o : Nat) : Option RegInfo :=
  (rxInfo o).orElse fun _ => (factInfo o).orElse fun _ =>
    (if 0x200 ≤ o ∧ o < 0x240 then chainInfo (o - 0x200) else none).orElse fun _ =>
    (if o = 8 then some ⟨.rw, 0, 0x3F⟩ else none)

/-- A quadrant block, by offset (R16, R508). -/
def quadInfo (o : Nat) : Option RegInfo :=
  if o < 0x4000 then pathRowInfo (o % 0x400)
  else if 0x4400 ≤ o ∧ o < 0x4C00 then obsRowInfo ((o - 0x4400) % 0x400)
  else quadOnlyInfo o

/-- The register at byte address `a`, if one is listed there (R508). Tile windows and the reservoir window hold no
entry of this table: their state is kept apart. -/
def regInfo (a : Nat) : Option RegInfo :=
  if a % 4 ≠ 0 then none else
  match a / 0x100000 with
  | 0 => gctlInfo a
  | 1 => quadInfo (a % 0x100000) | 2 => quadInfo (a % 0x100000)
  | 3 => quadInfo (a % 0x100000) | 4 => quadInfo (a % 0x100000)
  | 5 => bmuInfo (a % 0x100000)
  | 6 => acqInfo (a % 0x100000)
  | 7 => clkInfo (a % 0x100000)
  | 8 => if a % 0x100000 < 0x1000 then monQInfo (a % 0x400) else monInfo (a % 0x100000)
  | 9 => calInfo (a % 0x100000)
  | 10 => dmaInfo (a % 0x100000)
  | 11 => eplInfo (a % 0x100000)
  | 12 => hltInfo (a % 0x100000)
  | 13 => imgInfo (a % 0x100000)
  | _ => none

/-- The value a register reads after its domain's power-on reset (R18); 0 where no register is listed. -/
def regReset (a : Nat) : W := BitVec.ofNat 32 (match regInfo a with | some r => r.reset | none => 0)

end Sys2Proof.Machine
end

