-- ==== Sys2Proof/Machine/State.lean ====
section
/-! DEFINITION. The state of the device as plain data (every register, queue, buffer, mode and pin the spec names), the
queue of waiting commands, the reasons a step can stop, and the machine right after power-on reset. -/

namespace Sys2Proof.Machine

/-- A sparse table in canonical form: keys strictly rising, no entry equal to what an unlisted key reads as. -/
abbrev Tab (α : Type) := List (Nat × α)

/-- R107: the state tag of a sample. -/
inductive Tag where
  | valid | settling | coast | gap
  deriving DecidableEq, Repr

/-- R107: a complex sample with its tag and overrange bit; `i` and `q` lie in the 20-bit two's-complement range. -/
structure Sample where
  i : Int
  q : Int
  st : Tag
  ovr : Bool
  deriving DecidableEq, Repr

/-- One place of an input bridge (R40, R41): an entry of samples (none left where the
core has formed them already), or the mark that an entry was lost here, with the samples it held. -/
inductive BEntry where
  | data (ss : List Sample)
  | lost (n : Nat)
  deriving DecidableEq, Repr

/-- Where a stream sample stands (R377): the frame and slot in which it was formed, its index in the frame, and its sampling
instant (R59) in 1/120 tick. -/
structure StreamPos where
  frame : Nat
  slot : Nat
  j : Nat
  at_ : Nat
  deriving DecidableEq, Repr

/-- A sample in an output bridge: its stream position (none for a release position that carries no stream sample, R65, and for
a transmit sample), and the instant in 1/120 tick at which an uplink sample is released (R59) or a transmit sample is at the output
balls (R60, R222). -/
structure OutSample where
  s : Sample
  pos : Option StreamPos
  due : Nat
  deriving DecidableEq, Repr

/-- One entry of an output bridge (R43, R66): its sequence count, its samples, and the time-of-day count at which it arrived. -/
structure OutEntry where
  seq : Nat
  ss : List OutSample
  arr : Nat
  deriving DecidableEq, Repr

/-- An output bridge (R43, R66): at most 64 entries held; the entries that its feeder holds back meanwhile (R35); the sequence
count the next release instant expects and that instant (1/120 tick) where it does not follow from a position; the count the next
arriving entry carries; the releases that found no entry (sequence count, instant in ticks); the position of the last sample
released; and the first position since the stream became due. -/
structure OutBr where
  fifo : List OutEntry := []
  feeder : List OutEntry := []
  rel : Nat := 0
  due : Nat := 0
  next : Nat := 0
  missed : List (Nat × Nat) := []
  last : Option StreamPos := none
  start : Option StreamPos := none
  deriving DecidableEq, Repr

/-- Where a downlink sample goes that waits in the core for its slot: a stream of the link, or a transmit chain that a tile
feeds. -/
inductive DlTarget where
  | stream (st : DlStream)
  | chain (n : Nat)
  deriving DecidableEq, Repr

/-- A downlink sample that has entered the core (R60) and whose air time lies in a slot to come: its air time in 1/120 tick, and
the time-of-day count at which it entered. -/
structure DlHeld where
  target : DlTarget
  air : Nat
  s : Sample
  adm : Nat
  deriving DecidableEq, Repr

/-- A step of the slack ladder beyond step 1 that has been taken (R49). -/
inductive LadStep where
  | acq
  | ulBeam
  | dlBeam
  | mute (p : Nat)
  deriving DecidableEq, Repr

/-- The slack monitor and ladder (R46 to R57): the steps taken, newest first; what is in force of them since the last slot
boundary (acquisition and traffic beams shed, pipelines muted), with the uplink beams formed in the last slot that formed any traffic; the windows counted for a reversal and for a lower voltage;
whether the regulator did not follow; per pipeline the last slacks, newest first, and the peak occupancy; the pipelines
charged with a late arrival in this window, in this frame, the frame before, and both. -/
structure Ladder where
  steps : List LadStep := []
  acqShed : Nat := 0
  shedUl : Nat := 0
  shedDl : Nat := 0
  formedUl : Nat := 0
  muted : List Nat := []
  rev : Nat := 0
  low : Nat := 0
  noresp : Bool := false
  hist : Tab (List Nat) := []
  occ : Tab Nat := []
  charged : List Nat := []
  lateNow : List Nat := []
  latePrev : List Nat := []
  lateBoth : List Nat := []
  deriving DecidableEq, Repr

/-- What a quadrant is doing besides resting in its state (R86, R398). -/
inductive QPhase where
  | rest | waitMpll | qpllLock | selfcal | restoring | drain | calExit | powerDown
  deriving DecidableEq, Repr

/-- The hidden state of one quadrant's transitions: its phase, the state it is bound for, the field of GCTL_QUAD_REQ
that waits for a slot boundary (requested state, force bit), and whether its outputs wait for the frame boundary at
which traffic starts (R86). -/
structure Quad where
  phase : QPhase := .rest
  target : Nat := 0
  force : Bool := false
  pend : Option (Nat × Bool) := none
  startFrame : Bool := false
  qpllFailed : Bool := false
  idleTarget : Bool := false
  deriving DecidableEq, Repr

/-- A device transition in progress (R72, R77). -/
inductive DevTrans where
  | toWarm | toActive | toWarmBack | toStandby | retest
  deriving DecidableEq, Repr

/-- Where the start-up stands (R513, R529): no power; held in reset; VDD_CORE awaited; VDD_CORE good, core release due;
the core runs. -/
inductive Power where
  | off | held | waitCore | vddGood | coreRun
  deriving DecidableEq, Repr

/-- One event-log entry (R451, R452). -/
structure LogEntry where
  tick : Nat
  frame : Nat
  slot : Nat
  code : Nat
  die : Nat
  kind : Nat
  phys : Nat
  logical : Nat
  reg : Nat
  bit : Nat
  seq : Nat
  data : List Byte
  deriving DecidableEq, Repr

/-- A slot record of the frame table (R415). -/
structure Slot where
  start : Nat := 0
  ty : Nat := 3
  txq : Nat := 0
  rxq : Nat := 0
  gapq : Nat := 0
  deriving DecidableEq, Repr

/-- A frame table (R415). Without a deck the frame is a single slot of 2 457 600 ticks (R418). -/
structure FrameTab where
  fdd : Bool := false
  len : Nat := 2457600
  slots : List Slot := [{}]
  deriving DecidableEq, Repr

/-- A detection (R204). -/
structure Det where
  id : Nat
  tRef : Nat
  tOff : Int
  w : Nat
  r : Nat
  v : Nat
  a : Nat
  snr : Int
  az : Int
  el : Int
  fOff : Int
  nbeams : Nat
  dflags : Nat
  deriving DecidableEq, Repr

/-- A slot report (R203), with the number of detections dropped (R201). -/
structure SlotRep where
  slotTick : Nat
  frame : Nat
  slot : Nat
  dets : List Det
  dropped : Nat
  flags : Nat
  nwin : Nat
  formed : Nat
  shed : Nat
  gap : Nat
  deriving DecidableEq, Repr

/-- An acquisition slot that the engine processes (R193 to R198): the report's head, the windows with their first symbols, the index
among the beam samples of the slot boundary's own sample, the family, a mesh sample's period as a fraction of ticks, the threshold
and the limit in force, the grid, the beams formed and shed, the tick by which the report is due, and the beam samples: those of
the slot, and those that follow while the next slot is an acquisition slot too. `lost`: a tile failed with the job (R325). -/
structure AcqJob where
  slotTick : Nat
  frame : Nat
  slot : Nat
  flags : Nat
  wins : List (Nat × Nat)
  base : Int
  n : Nat
  ncs : Nat
  sps : Nat
  perNum : Nat
  perDen : Nat
  roots : List Nat
  thr : Nat
  lim : Nat
  cols : Nat
  grid : List (Int × Int)
  formed : List Nat
  shed : List Nat
  due : Option Nat
  ss : Tab (List Sample)
  lost : Bool
  deriving DecidableEq, Repr

/-- The acquisition engine: the slot that it processes, the start of the slot processed last,
the detection history, newest first (R207), and the next detection number. -/
structure AcqSt where
  job : Option AcqJob := none
  done : Option Nat := none
  hist : List Det := []
  nextId : Nat := 0
  deriving DecidableEq, Repr

/-- A request that passes through the directory sequencer (R214). -/
inductive DirReq where
  | bind (sess : Nat) (det : W) (id : BitVec 48) (pin : Bool)
  | read (sess : Nat) (id : BitVec 48) (mask : BitVec 8)
  | write (sess : Nat) (id : BitVec 48) (mask : BitVec 8) (f : DirFields)
  | delete (sess : Nat) (id : BitVec 48) (mask : BitVec 8)
  | pin (sess : Nat) (id : BitVec 48) (mask : BitVec 8) (on : Bool)
  | touch (sess : Nat) (id : BitVec 48) (mask : BitVec 8)
  | list (sess : Nat) (bucket : Nat) (count : Nat) (mask : BitVec 8)
  | snapshot (sess : Nat) (mask : BitVec 8)
  | unbind (id : BitVec 48)
  | snapCmd
  | restoreCmd
  deriving DecidableEq, Repr

/-- A directory snapshot in NVM (R217). -/
structure Snap where
  entries : List DirEntry
  nb : Nat
  seed : W
  seq : W
  tc : Nat
  deriving DecidableEq, Repr

/-- The sensor directory (R208, R210): places keyed 8 × bucket + position; requests held by a restore; whether a restore
waits for the snapshot that is being written, and a snapshot for a migration (R490), with the session it answers once it starts (R214). -/
structure DirSt where
  ent : Tab (Option DirEntry) := []
  held : List DirReq := []
  restQ : Bool := false
  snapQ : Bool := false
  snapAns : Option Nat := none
  deriving DecidableEq, Repr

/-- The sensor block of an uplink beam message (R376). -/
structure SensBlk where
  id : BitVec 48
  src : Nat
  tOff : Nat
  fOff : Nat
  deriving DecidableEq, Repr

/-- The answer to one directory operation (R382): status, count, entries. -/
structure DirAns where
  status : Nat
  count : Nat
  ents : List DirEntry
  deriving DecidableEq, Repr

/-- A timestamp on the wire (R389): the tick count, then the half-tick bit and the fine part. -/
structure Stamp where
  tick : Nat
  fine : Nat
  deriving DecidableEq, Repr

/-- The body of a native message from the device (R382). -/
inductive NatBody where
  | slotReport (r : SlotRep)
  | bindAck (det : W) (id : BitVec 48) (status : Nat) (seq : W)
  | dirResp (l : List DirAns)
  | poolAck (first count status : Nat)
  | capUpload (queue off : Nat) (data : List Byte)
  | txLate (q slotTick : Nat)
  | event (tick : Nat) (snap : List W)
  | mgmtResp (l : List (Nat × W))
  | imgResult (status : Nat)
  | portState (ports : List (Nat × Bool)) (gbps : Nat)
  | ptpRx (port : Nat) (ts : Stamp) (m : PtpMsg)
  | ptpTs (port : Nat) (ts : Stamp) (seqId : BitVec 16) (msgType : BitVec 4)
  deriving DecidableEq, Repr

/-- What the device sends, on its ports, its mirror link and its pins, in the order sent. A native message carries its
session and sequence number (R381); an FCB frame its bits in the order sent, the clock period in which FCB_LE_q is high, and its
start (R234); an IQ message the instant in 1/120 tick at which its frame leaves the balls (R368). -/
inductive OutMsg where
  | avs (frame : BitVec 16)
  | fcb (q : Nat) (d : List Bool) (le start : Nat)
  | iq (port launch : Nat) (pcId seqId frame fmt j flags : Nat) (sens : Option SensBlk) (blocks : List IqBlock)
  | native (sess seq : Nat) (b : NatBody)
  | delayResp (port action id : Nat) (ts : Option Stamp)
  | ptpOut (port : Nat) (m : PtpMsg)
  | spi (ws : List W)
  | rdata (v : W)
  | i2c (cmd : W) (data : List Byte)
  | heartbeat (hb : Heartbeat)
  | mirror (seq : Nat) (at_ : Nat) (b : MirBody)
  | mirDelta (seq : W) (bucket pos : Nat) (e : Option DirEntry)
  | mirAck (seq : W)
  | resyncReq (cls : Nat)
  | copyStart
  | notice
  | twinXfer (x : TwinXfer)
  | pps
  deriving DecidableEq, Repr

/-- The hidden state of one receive front end (spec/03): the beat being assembled and how many of its samples the
core has formed already, the tagged spans that run (R111, R112), the overload detector with the samples it has seen since the frame
boundary (R115), the slot peak, the slice remap that waits for a gap, and the factors in force. -/
structure RxSt where
  asm : List Sample := []
  formed : Nat := 0
  settle : Nat := 0
  gapN : Nat := 0
  ovlCnt : Nat := 0
  ovlN : Nat := 0
  peak : Nat := 0
  ovrSlot : Bool := false
  remapPos : Option Nat := none
  badPos : List Nat := []
  facts : List W := []
  deriving DecidableEq, Repr

/-- One half-band stage (R136, R142, R143): its most recent inputs, newest first, the index of the next input counted
from the last synchronising reset, and the index of the first input after its last change. -/
structure StageSt where
  hist : List Sample := []
  idx : Nat := 0
  chg : Option Nat := some 0
  deriving DecidableEq, Repr

/-- A conversion chain (spec/04): the frequency word in force and the staged pair (R132), the phase accumulator, the
converter sample index since the last synchronising reset (R133), the stages, the first one first, the reset's tick, the outputs
since, and the earliest air time (1/120 tick) of a transmit chain's next input. -/
structure ChainSt where
  ftw : Nat := 0
  ftwStage : Option Nat := none
  acc : Nat := 0
  k : Nat := 0
  stages : Tab StageSt := []
  syncTick : Nat := 0
  outIdx : Nat := 0
  inAir : Nat := 0
  deriving DecidableEq, Repr

/-- A beam's weight bank (R158, R166): the descriptor, whether the beam is formed, is late or lost (R164, R189), missed
its sensor (R167), is shed, and its weight at each path. -/
structure BeamW where
  desc : SchedDesc
  formed : Bool
  late : Bool
  miss : Bool
  shed : Bool
  w : List (Int × Int)
  deriving DecidableEq, Repr

/-- The result of the one directory lookup of a sensor for a slot (R164, R167, R211). -/
structure Look where
  frame : Nat
  slot : Nat
  id : BitVec 48
  ent : Option DirEntry
  deriving DecidableEq, Repr

/-- What the held weights of the acquisition beams were computed from (R169): the words of the grid's points, the fold, the columns
that nothing serves, and everything else but the direction. -/
structure AcqKey where
  grid : List W
  fold : Nat
  down : List Nat
  base : SynIn
  deriving DecidableEq, Repr

/-- The spare column's coming use (R187, R188): the logical column, whether one more slot boundary passes first, whether a planned
substitution or a hard failure brought it. -/
structure ColPlan where
  col : Nat
  wait : Bool
  planned : Bool
  deriving DecidableEq, Repr

/-- The two beam meshes and the synthesiser (spec/05). The active banks serve the running slot, the shadow banks the
next. `ulq` and `dlq` hold the mesh inputs that wait for their companions, oldest first; those of the downlink with their air
times in 1/120 tick. -/
structure MeshSt where
  scheds : List Sched := []
  synDone : Option (Nat × Nat) := none
  actUl : Tab (Option BeamW) := []
  actDl : Tab (Option BeamW) := []
  shUl : Tab (Option BeamW) := []
  shDl : Tab (Option BeamW) := []
  actAcq : Tab (Option BeamW) := []
  shAcq : Tab (Option BeamW) := []
  acqKey : Option AcqKey := none
  acqWt : Tab (Option BeamW) := []
  corrNew : Bool := false
  ulq : Tab (List Sample) := []
  dlq : Tab (List (Nat × Sample)) := []
  joinAt : Tab (Option Nat) := []
  colDownUl : List Nat := []
  colDownDl : List Nat := []
  colPlanUl : Option ColPlan := none
  colPlanDl : Option ColPlan := none
  looked : List Look := []
  acqIn : Tab (List Sample) := []
  deriving DecidableEq, Repr

/-- A scheduled front-end action (R239): its tick, its scheduling number, its kind, mask and value (R237). -/
structure PendAct where
  at_ : Nat
  ser : Nat
  kind : Nat
  mask : Nat
  value : Nat
  deriving DecidableEq, Repr

/-- The hidden state of a quadrant's front-end sequencer (spec/07): the logical levels last asked for, whether the
conditions of R233 last held, pending actions, queued FCB frames (word, tick its start was due), the start of the last frame, the
state's timer, the lead time in force, the dropped bursts whose slots are running or coming (first and last tick), and the boundaries
of the last slot whose event was delivered and of the last burst decided. -/
structure Fes where
  lvl : Nat := 0
  paOk : Bool := false
  acts : List PendAct := []
  ser : Nat := 0
  fcb : List (Nat × Nat) := []
  fcbLast : Option Nat := none
  timer : Option Nat := none
  lead : Nat := 256
  drop : List (Nat × Nat) := []
  evDone : Nat := 0
  burstDone : Nat := 0
  deriving DecidableEq, Repr

/-- The hidden state of one transmit output (spec/07): the last DAC code, and the samples of the entry released last whose air
time lies past the slot boundary that comes next. -/
structure TxSt where
  code : Int := 0
  rest : List OutSample := []
  deriving DecidableEq, Repr

/-- An adaptation capture taken by an observation receiver (R260, R261): the path, its start, its length in samples, the drive
attenuation, the path's neighbours with the index scale of each, the bank in force, whether it ended accepted, whether the
coupler moved or a trick took the receiver, the delay of z in sixteenths of a sample (R262), the bytes it holds of CAP; and what those hold: the samples of z, and those of x, y, x0 and x1. -/
structure PdCap where
  path : Nat
  tick : Nat
  len : Nat
  a : Nat
  nbs : List (Option (Nat × Nat))
  bank : List W
  done : Bool
  bad : Bool
  delay : Nat
  bytes : Nat
  z : List Sample
  win : List (List Sample)
  deriving DecidableEq, Repr

/-- The hidden state of one predistortion engine (spec/08): its inputs and its outputs, newest first, each with its air time in 1/120
tick, the first input that its own delay line holds, the inputs taken and outputs formed since the last synchronising reset, the first input after a change upstream; the tagged outputs left
after a takeover (R268); whether it is failed and awaits its spare; the adaptation loop's memory (R262 to R264); the tick of the swap that the STANDBY was told of, or that the
PRIMARY told this one of (R265); whether its spare, filled, waits for the slot boundary (R267). -/
structure PdSt where
  hist : List (Nat × Sample) := []
  outs : List (Nat × Sample) := []
  base : Nat := 0
  k : Nat := 0
  outK : Nat := 0
  chg : Option Nat := none
  settle : Nat := 0
  dead : Bool := false
  lost : Bool := false
  bestA : Option Nat := none
  prevNmse : Option Int := none
  conv : Nat := 0
  fails : Nat := 0
  adaptSwap : Bool := false
  kept : Bool := false
  told : Option Nat := none
  mirSwap : Option Nat := none
  subst : Bool := false
  deriving DecidableEq, Repr

/-- A calibration trick that runs (R280 to R283, R288, R289): its kind and group, the paths it measures, the unit of an
inserted slice trick, the dedicated quadrant it belongs to, its gap's tick, its capture length, the paths accepted, the
quadrants' states at its start, and the quadrants whose CAL_START is to come. -/
structure Trick where
  kind : Nat
  group : Nat
  paths : List Nat
  unit : Option RxUnit
  ded : Option Nat
  start : Nat
  w : Nat
  ok : List Nat
  quadsAt : List Nat
  starts : List Nat
  deriving DecidableEq, Repr

/-- A correction measurement that is held for the next one (R277). -/
structure Held where
  amp : Int
  phase : Int
  delay : Option Int
  slope : Int
  deriving DecidableEq, Repr

/-- One state of a path's attenuator or driver table (R278), the least recently used last: its amplitude and phase relative to the
reference state, and the scatter of its measurement (R291). -/
structure StateEnt where
  code : Nat
  amp : Int
  phase : Int
  scatA : Nat := 0
  scatP : Nat := 0
  deriving DecidableEq, Repr

/-- A quadrant's dedicated sequence (R289): whether it runs, the repetitions of step 1 that are done, the position within
one, the tricks of step 2 that are done, the attempts at the trick due, whether step 3 is done, and whether it is to end. -/
structure DedSt where
  run : Bool := false
  rep : Nat := 0
  pos : Nat := 0
  step : Nat := 0
  tries : Nat := 0
  done : Bool := false
  leaving : Bool := false
  deriving DecidableEq, Repr

/-- The calibration unit (spec/09): the trick that runs and the one being estimated, the attempts at the position, the
inserted tricks that wait with their attempts, the dedicated sequences; per path and kind the measurement held, the
uncertainties at the last measurement, and the quadrant's temperature then; per path and direction the state table, the
reference state, and the front-end part; what this cycle has completed of each class, whether a full cycle of each has been
completed since the corrections were last untraced, the tick of the last completion, the store's due write and last write,
whether new trims wait, the tick of the last gap that was judged, and the keys of the corrections that the next measurement sets
(R277). Beside the corrections in their registers (R275): the slope
of each path's kind in 2^−60 dB per kHz, the carriers in kHz for which the amplitudes hold, the device-side responses last
measured (frequency in kHz, level and phase in 2^−60 dB and turn), and those of each quadrant's receiver 2q. -/
structure CalSt where
  trick : Option Trick := none
  est : Option Trick := none
  tries : Nat := 0
  inserts : List (RxUnit × Nat) := []
  ded : Tab DedSt := []
  held : Tab (Option Held) := []
  unc : Tab (Option (Nat × Nat × Option Nat)) := []
  tempAt : Tab Int := []
  states : Tab (List StateEnt) := []
  refCode : Tab (Option Nat) := []
  front : Tab (Option (Int × Int)) := []
  cycDev : Nat := 0
  cycArr : Nat := 0
  trDev : Bool := false
  trArr : Bool := false
  lastDone : Nat := 0
  storeDue : Bool := false
  storeLast : Option Nat := none
  trimsDue : Bool := false
  gapDone : Nat := 0
  again : List Nat := []
  slope : Tab Int := []
  fcUl : Nat := 0
  fcDl : Nat := 0
  resp : Tab (List (Nat × Int × Int)) := []
  obsResp : Tab (List (Nat × Int × Int)) := []
  deriving DecidableEq, Repr


/-- A circular buffer of a tile (R306): base, length, offset and signed stride in bytes, and whether `len` changed since
the last access through it (R308). -/
structure CBuf where
  base : Nat := 0
  len : Nat := 0
  off : Nat := 0
  stride : Int := 0x20
  lenNew : Bool := false
  deriving DecidableEq, Repr

/-- What a stalled tile waits for (R299, R311, R312): a slot boundary, four samples of an input port, room at an output
port, the end of its transfers, or a free transfer place. -/
inductive TStall where
  | slot
  | vin (v p : Nat)
  | movo (p pm : Nat)
  | waitx
  | xfer (c a b : Nat) (toRes : Bool)
  deriving DecidableEq, Repr

/-- A block transfer in flight (R312): its direction, the reservoir address, and the local addresses of its 32-byte
units. -/
structure TXfer where
  toRes : Bool
  resAddr : Nat
  units : List Nat
  deriving DecidableEq, Repr

/-- A signal tile (spec/10): every register, memory, stack, port FIFO and binding of it. -/
structure Tile where
  state : Nat := 0
  fault : Nat := 0
  owner : Nat := 0
  pausable : Bool := false
  paused : Bool := false
  pc : Nat := 0
  entry : Nat := 0
  evcount : Nat := 0
  stalls : Nat := 0
  logical : Nat := 0
  serving : Bool := false
  shs : Nat := 0
  shw : Nat := 0
  laneOvf : Nat := 0
  wtag : Tag × Bool := (.valid, false)
  page : Nat := 0
  sVal : Int := 0
  sIdx : Nat := 0xFFFF
  sTag : Tag × Bool := (.valid, false)
  sMin : Bool := false
  sidx : Nat := 0
  signal : Nat := 0
  bufs : Tab CBuf := []
  sc : Tab W := []
  vec : Tab (List Sample) := []
  acc : Tab Int := []
  accTag : Tab (Tag × Bool) := []
  prog : Tab W := []
  mem : Tab Byte := []
  call : List Nat := []
  loops : List (Nat × Nat × Nat) := []
  in0 : List Sample := []
  in1 : List Sample := []
  out0 : List Sample := []
  out1 : List Sample := []
  ports : Tab (Nat × Nat × Nat) := []
  xfers : List TXfer := []
  stall : Option TStall := none
  stallFrom : Nat := 0
  haltReq : Bool := false
  discard : Bool := false
  grant : List Nat := []
  events : W := 0#32
  deriving DecidableEq, Repr

/-- The hidden state of a capture set (R341 to R347): the pending length, the records written since ARM, what a running
set is stopping for, the coupler values at the trigger, and the unread bytes, and
the samples that wait for their record, by source, each with its time in 1/16 tick. -/
structure CapSet where
  lenPend : Option Nat := none
  recs : Nat := 0
  stopping : Nat := 0
  full : Bool := false
  trigAt : Nat := 0
  armAt : Nat := 0
  mask : List Nat := []
  unread : Nat := 0
  wait : Tab (List (Nat × Sample)) := []
  deriving DecidableEq, Repr

/-- A DMA descriptor as fetched (R349). -/
structure DmaDesc where
  ctrl : W
  len : Nat
  src : Nat
  dst : Nat
  next : Nat
  burst : Nat
  rsvd : Nat
  deriving DecidableEq, Repr

/-- The hidden state of a DMA channel: the descriptor fetched last, whether it is complete, whether a STOP waits, and the
writes issued that have not arrived, oldest first: address and bytes (R353, R355). -/
structure DmaCh where
  desc : Option DmaDesc := none
  needFetch : Bool := false
  stop : Bool := false
  aborting : Bool := false
  pendW : List (Nat × List Byte) := []
  deriving DecidableEq, Repr

/-- An upload queue (R387): 64-byte units that wait, each with the channel that offered it, and the byte offset of the first. -/
structure UpQ where
  units : List (Nat × List Byte) := []
  off : Nat := 0
  deriving DecidableEq, Repr

/-- The hidden state of an uplink stream on the link (R374, R376): samples released but not yet sent, each with its position, whose
instant is now that of its release, the next sequence
ID, the rotation over its ports, the slot whose first message was sent, and the sensor blocks of the last slots. -/
structure UlTx where
  q : List (Sample × StreamPos) := []
  seq : Nat := 0
  rot : Nat := 0
  begun : Option (Nat × Nat) := none
  sens : List (Nat × Nat × SensBlk) := []
  deriving DecidableEq, Repr

/-- The hidden state of a downlink stream (R377, R379, R60): samples placed, by frame and index, and the frame and index
whose arrival deadline comes next. -/
structure DlRx where
  placed : List (Nat × Nat × Sample) := []
  frame : Nat := 0
  j : Nat := 0
  deriving DecidableEq, Repr

/-- The hidden state of a native session (R381, R388): the last sequence number received, the next one sent, and the
commands held during a management pause, oldest first. -/
structure SessSt where
  rxSeq : Option Nat := none
  txSeq : Nat := 0
  held : List Instr := []
  deriving DecidableEq, Repr

/-- A class B change (R401, R402): its target plan, whether it locks from a slot, the slot, the tick of its frame
boundary F, and whether it has started. -/
structure ClassB where
  plan : Nat
  useSlot : Bool
  slot : Nat
  start : Nat
  running : Bool
  deriving DecidableEq, Repr

/-- The hidden state of the clock system (spec/13): the class B change that is pending or runs, the steering write held while
a loop coasts, the modulator's seed and dither in force (R395), the loops gated by the coast limit (0 MPLL, 1 + q), whether
the MPLL failed (R445), the search slot of the lock in progress, whether the time of day has been aligned since BOOT (R78),
whether bursts are held off until a frame boundary (R404, R410), PPS times (R390), a frame table that waits (R418), the tick at which a
loop began to coast (R407; 0 MPLL, 1 + q), the QPLL bands of the search slots (R396: QPLLq in bits 5q+4..5q). -/
structure ClkSt where
  classB : Option ClassB := none
  steerHeld : Option W := none
  seed : Nat := 0x5AC3E1
  dither : Bool := true
  gatedLoops : List Nat := []
  mpllFailed : Bool := false
  lockSlot : Nat := 0
  aligned : Bool := false
  hold : Bool := false
  ppsLast : Option Nat := none
  ppsHigh : Option Nat := none
  fsPend : Option (Nat × FrameTab) := none
  coastFrom : Tab Nat := []
  qbands : Tab (BitVec 20) := []
  deriving DecidableEq, Repr

/-- The hidden state of a monitor converter (spec/14): the FIFO, oldest first; the settings and the entries that the
running sequence latched at its start; whether STOP waits for the current entry; the system readings of the last
millisecond, newest first (R426). -/
structure MonSt where
  fifo : List W := []
  ctl : W := 0#32
  ents : List W := []
  stop : Bool := false
  sys : List (List Nat) := []
  deriving DecidableEq, Repr

/-- The hidden state of a junction sensor (R429 to R432): whether it has been read, its valid value in 0.25 °C, its last
eight valid values, newest first, its reading count in disagreement. -/
structure SensSt where
  seen : Bool := false
  hist : List Int := []
  dis : Nat := 0
  deriving DecidableEq, Repr

/-- An entry of the remap table (R31, R441): the kind, the die's code, the physical and logical index of the resource whose work moved,
and the spare that took it. -/
structure RemapEntry where
  kind : Nat
  die : Nat
  phys : Nat
  logical : Nat
  spare : Nat
  deriving DecidableEq, Repr

/-- The effective remap table of NVM (R441): its entries, the newest first; spares used and failed by pool, retired and worn resources, the bindings of
every kind, and the paths, loops and sensors that failed. It survives every reset. -/
structure Remap where
  entries : List RemapEntry := []
  used : Tab Nat := []
  bad : Tab Nat := []
  worn : Tab Nat := []
  retired : List (Nat × Nat) := []
  wornRes : List (Nat × Nat) := []
  slices : Tab (List Nat) := []
  rxFailed : List Nat := []
  txFailed : List Nat := []
  sensBroken : List Nat := []
  tiles : Tab (Option Nat) := []
  engines : Tab Bool := []
  colUl : Option Nat := none
  colDl : Option Nat := none
  colsDead : List Nat := []
  enginesDead : List Nat := []
  rows : Tab Nat := []
  banks : Tab (Option Nat) := []
  banksDead : List Nat := []
  serdesTx : Option Nat := none
  serdesRx : Option Nat := none
  serdesDead : List Nat := []
  mirLane : Option Nat := none
  nandBad : List Nat := []
  prodBad : Bool := false
  deriving DecidableEq, Repr

/-- The hidden state of the health unit (R439, R440): times of the correctable events of each resource, newest first; the
planned substitution that runs and those that wait; the tick at which a spare gaffer core has taken over (R446). -/
structure HltSt where
  counts : List (KittyRes × List Nat) := []
  running : Option KittyRes := none
  waiting : List KittyRes := []
  restart : Option Nat := none
  deriving DecidableEq, Repr

/-- The hidden state of twin operation (R453 to R466); `copyTo` is the change number with which a copy of the directory that runs ends (R219); `synced` are the
classes for which no resync runs, `lag` the mirror lag in 10 µs (R461). -/
structure TwinSt where
  partner : Option Heartbeat := none
  driving : Bool := false
  taking : Bool := false
  backoff : Bool := false
  takeover : Option Nat := none
  ownGo : Bool := false
  release : Option Nat := none
  mirSeq : Tab Nat := []
  mirGot : Tab Nat := []
  resync : List Nat := []
  acks : List (W × Nat × NatBody) := []
  copyTo : Option W := none
  muteFrame : Bool := false
  synced : List Nat := []
  lag : Nat := 0
  deriving DecidableEq, Repr

/-- An open transfer session (R480, R481): its image type and the bytes received. -/
structure ImgSess where
  target : Nat
  bytes : List Byte
  deriving DecidableEq, Repr

/-- A reshuffle that waits for its slot boundary (R482): its bytes, whether it is stored, and the first tick S may fall
on. -/
structure Resh where
  bytes : List Byte
  store : Bool
  notBefore : Nat
  deriving DecidableEq, Repr

/-- A deck slot of NVM (R479): the deck's bytes and its stored reshuffles, oldest first. -/
structure DeckSlot where
  bytes : List Byte
  resh : List (List Byte)
  deriving DecidableEq, Repr

/-- A firmware bank of NVM (R486): its image and the record of it. -/
structure FwBank where
  bytes : List Byte := []
  ver : W := 0#32
  state : Nat := 0
  commits : Nat := 0
  deriving DecidableEq, Repr

/-- The calibration store of NVM (R295): the registers it holds, by address; the uncertainties, temperatures, state tables,
front-end parts and slopes behind them, with their carriers; and the version of the board table they belong to. -/
structure CalStore where
  fmt : Nat
  regs : Tab W
  unc : Tab (Option (Nat × Nat × Option Nat)) := []
  tempAt : Tab Int := []
  states : Tab (List StateEnt) := []
  refCode : Tab (Option Nat) := []
  front : Tab (Option (Int × Int)) := []
  slope : Tab Int := []
  fcUl : Nat := 0
  fcDl : Nat := 0
  boardVer : Nat := 0
  prodCrc : W := 0#32
  deriving DecidableEq, Repr

/-- The non-volatile memory: what survives every reset and the loss of power (R479, R486, R489). As delivered, firmware bank 0
is VALID (assumption 46). `snapCut`: a snapshot that was being written was cut off (R217). -/
structure Nvm where
  slots : Tab (Option DeckSlot) := []
  cur : Nat := 0
  banks : Tab FwBank := [(0, { state := 1, commits := 1 })]
  settings : Tab (Option W) := []
  settingsFmt : Nat := 1
  lastFw : W := 0#32
  history : List (W × W) := []
  search : Tab W := []
  searchQ : Tab (BitVec 20) := []
  searchFmt : Nat := 1
  cal : Option CalStore := none
  snaps : Tab (Option Snap) := []
  snapNew : Nat := 0
  snapFmt : Nat := 1
  remap : Remap := {}
  plog : List LogEntry := []
  plogSeq : Nat := 0
  plogOver : Nat := 0
  program : Bool := false
  snapCut : Bool := false
  deriving DecidableEq, Repr

/-- The hidden state of images and firmware (spec/16): the open session; a committed reshuffle; the sections of the deck in force,
keyed by type and plan code, and the directory index of each; its identity and flags; a firmware bank being written (the bank,
its image); a trial start that is due; a punty handover that is pending, and the management pause; a trial start that runs; the
formats of the stored records that the running firmware reads and writes; the registers, and the corrections, whose write to the
calibration store waits for the end of a migration. -/
structure ImgSt where
  sess : Option ImgSess := none
  resh : Option Resh := none
  deck : Tab (List Byte) := []
  deckIdx : Tab Nat := []
  deckId : List Byte := []
  deckFlags : Nat := 0
  fwWrite : Option (Nat × List Byte) := none
  trialDue : Bool := false
  handover : Bool := false
  pause : Bool := false
  trialRun : Bool := false
  fmtR : List Nat := []
  fmtW : List Nat := []
  storeQ : List Nat := []
  calWait : Bool := false
  deriving DecidableEq, Repr

/-- The JTAG port (R502 to R504): the instruction in force, whether a pin-driving one took effect, and the register-access
data register (done, address, data). -/
structure Jtag where
  ir : Nat := 1
  effect : Bool := false
  done : Bool := true
  addr : Nat := 0
  data : W := 0#32
  deriving DecidableEq, Repr

/-- The device (everything but the queue of commands): the registers, and behind them the state of every unit, pin, queue
and memory that spec/01 to spec/18 name. `regs` holds the value in force of each register and `stage` the value pending in
an RWS register (R21). `evHold` holds, while a slot boundary is under way, the sequencer events of its tick: quadrant and code
(R236). `admTod` is the time-of-day count at which the samples that are being formed entered the core, where that
lies before now; `ulDisc` and `dlGap` are the instants (1/120 tick) before which uplink samples are discarded and downlink
samples are GAP after a change of anchor (R65). -/
structure Mach where
  regs : Tab W := []
  stage : Tab (Option W) := []
  tod : Nat := 0
  frameNo : Nat := 0
  slot : Nat := 0
  frameStart : Nat := 0
  slotStart : Nat := 0
  ftab : FrameTab := {}
  power : Power := .waitCore
  present : Bool := true
  poreset : Bool := false
  replaceN : Bool := false
  tokOut : Bool := false
  twinSel : Bool := false
  trans : Option DevTrans := none
  transDue : Bool := false
  autoWarm : Bool := false
  autoActive : Bool := false
  quads : Tab Quad := []
  inb : Tab (List BEntry) := []
  outb : Tab OutBr := []
  asmU : Tab (List OutSample) := []
  dlHold : List DlHeld := []
  admTod : Option Nat := none
  ulDisc : Nat := 0
  dlGap : Nat := 0
  pos : Tab Nat := []
  frozen : List Nat := []
  flush : List Nat := []
  marginUl : Option Int := none
  marginDl : Option Int := none
  lad : Ladder := {}
  rx : Tab RxSt := []
  chain : Tab ChainSt := []
  mesh : MeshSt := {}
  acq : AcqSt := {}
  dir : DirSt := {}
  tx : Tab TxSt := []
  fes : Tab Fes := []
  evHold : Option (List (Nat × Nat)) := none
  pd : Tab PdSt := []
  lut : Tab W := []
  pdCap : Tab (Option PdCap) := []
  cal : CalSt := {}
  tiles : Tab Tile := []
  res : List Host.Cell := []
  poison : Tab Bool := []
  poisonBanks : List Nat := []
  cap : Tab CapSet := []
  dma : Tab DmaCh := []
  upq : Tab UpQ := []
  ulTx : Tab UlTx := []
  dlRx : Tab DlRx := []
  sess : Tab SessSt := []
  ulShed : List Nat := []
  clk : ClkSt := {}
  mon : Tab MonSt := []
  monTick : Option Nat := none
  sens : Tab SensSt := []
  hlt : HltSt := {}
  twin : TwinSt := {}
  img : ImgSt := {}
  jtag : Jtag := {}
  log : Tab (Option LogEntry) := []
  logSeq : Nat := 0
  logMs : Nat := 0
  logCnt : Nat := 0
  evtPend : Bool := false
  out : List OutMsg := []
  free : Nat := 0
  nvm : Nvm := {}
  deriving DecidableEq, Repr

/-- The state: the device, and the commands that wait, first in first out. -/
structure State where
  m : Mach
  pending : List Instr
  deriving DecidableEq, Repr

/-- Why a step can stop with a fault. -/
inductive Fault where
  /-- Raised by a command whose operands no device can be sent (a list of the wrong length, a value outside its range):
  `Instr.wf` is false. Safe: the hardware has no such event. -/
  | malformedCommand
  deriving DecidableEq, Repr

/-- Why a step can be refused. -/
inductive Refusal where
  /-- Raised by an arm of `exec` that has no meaning yet. Safe: no claim can be made of such a step. -/
  | notModelled (mnemonic : String)
  deriving DecidableEq, Repr

/-- The machine right after power-on reset has taken effect (R513, R529): every register at its reset value, the core in
reset until VDD_CORE is good, memory with nothing listed, no command waiting. -/
def State.reset : State := { m := {}, pending := [] }

end Sys2Proof.Machine
end

