-- ==== Sys2Proof/Machine/Tab.lean ====
section
/-! DEFINITION. Sparse tables: lists of key and value in one canonical form (keys strictly rising, no entry equal to what
an unlisted key reads as), so that equal contents are equal lists. The register file, the reservoir and every per-resource
table of the state are held in them. -/

namespace Sys2Proof.Machine

variable {α : Type}

/-- What key `k` reads as: its entry, or `d k` where none is listed. -/
def tabGet (d : Nat → α) : List (Nat × α) → Nat → α
  | [], k => d k
  | (k', v) :: r, k => if k' = k then v else tabGet d r k

/-- The table without key `k`. -/
def tabDel (t : List (Nat × α)) (k : Nat) : List (Nat × α) := t.filter fun e => e.1 != k

/-- The table with an entry for `k` put in its place; `k` must not be listed. -/
def tabIns : List (Nat × α) → Nat → α → List (Nat × α)
  | [], k, v => [(k, v)]
  | (k', v') :: r, k, v => if k < k' then (k, v) :: (k', v') :: r else (k', v') :: tabIns r k v

/-- The table in which `k` reads as `v`. Writing what an unlisted key reads as removes the entry. -/
def tabPut [DecidableEq α] (d : Nat → α) (t : List (Nat × α)) (k : Nat) (v : α) : List (Nat × α) :=
  if v = d k then tabDel t k else tabIns (tabDel t k) k v

/-- The table with `f` applied to every entry's value. -/
def tabMap [DecidableEq α] (d : Nat → α) (f : α → α) (t : List (Nat × α)) : List (Nat × α) :=
  (t.map fun e => (e.1, f e.2)).filter fun e => decide (e.2 ≠ d e.1)

/-- The canonical form: keys strictly rising and no entry at its default. -/
def tabWf [DecidableEq α] (d : Nat → α) (t : List (Nat × α)) : Bool :=
  decide (t.Pairwise fun a b => a.1 < b.1) && t.all fun e => decide (e.2 ≠ d e.1)

/-- Some entry whose key lies in the half-open range from `lo` to `hi` satisfies `p`. -/
def tabAny (t : List (Nat × α)) (p : Nat → α → Bool) : Bool := t.any fun e => p e.1 e.2

end Sys2Proof.Machine
end

