-- ==== Sys2Proof/WellFormed.lean ====
section
/-! DEFINITION. Which commands are well formed: the operands whose types do not already hold them to what the device can
be sent. A command that is not well formed stops the block (`Fault.malformedCommand`): no device is ever sent one. -/

namespace Sys2Proof

/-- R327: the reservoir has 8 388 608 units of 64 bits. -/
def unitOk (unit : Nat) : Bool := decide (unit < 0x800000)

/-- The 17 pipelines are observed together (R46). -/
def pipesOk (obs : List PipeObs) : Bool := decide (obs.length = 17)

/-- The 18 converters of a quadrant, with 40 factor words each (R118). -/
def unitCalsOk (res : List UnitCal) : Bool := decide (res.length = 18) && res.all fun c => decide (c.facts.length = 40)

/-- A fit gives the entries of every table of a bank: words 0 to 2175 (R255). -/
def fitOk (fit : List W) : Bool := decide (fit.length = 2176)

/-- A block has twelve samples (R376). -/
def iqOk (x : IqMsg) : Bool := x.blocks.all fun b => decide (b.mant.length = 24)

/-- The vectors of a POOL_WRITE have 64 words each (R382). -/
def vectorsOk (vs : List (List W)) : Bool := vs.all fun v => decide (v.length = 64)

/-- A request holds at most 64 operations (R382). -/
def mgmtOk (l : List MgmtOp) : Bool := decide (l.length ≤ 64)

/-- A group of each of four converters has four codes (R426). -/
def groupsOk (codes : List (List (BitVec 12))) : Bool := decide (codes.length = 4) && codes.all fun c => decide (c.length = 4)

/-- A mirrored vector has 64 words, a mirrored bank 2180. -/
def mirOk : MirBody → Bool
  | .poolVec _ ws => decide (ws.length = 64)
  | .pdBank _ ws => decide (ws.length = 2180)
  | _ => true

/-- A command is well formed. -/
def Instr.wf : Instr → Bool
  | .scrubRead unit _ => unitOk unit
  | .slackWindowEnd obs => pipesOk obs
  | .rxSelfcalDone _ res => unitCalsOk res
  | .pdAdaptCycleEnd _ _ fit => fitOk fit
  | .iqMessageRx _ x => iqOk x
  | .poolWrite _ _ vs => vectorsOk vs
  | .mgmtReq _ ops => mgmtOk ops
  | .monSystemGroup codes => groupsOk codes
  | .mirrorChange c => mirOk c.body
  | _ => true

end Sys2Proof
end

