-- ==== Sys2Proof/Machine/Ops.lean ====
section
/-! DEFINITION. The named operations every meaning is written over: reading and writing a register, a field, a sticky
event bit; the event log; time; free values; the messages and pin frames the device sends. -/

namespace Sys2Proof.Machine

/-! ### Bits of a word -/

/-- The `w` bits of `v` from bit `lo` up, as a number. -/
def wfld (v : W) (lo w : Nat) : Nat := (v.extractLsb' lo w).toNat

/-- `v` with its `w` bits from bit `lo` up replaced by `x`. -/
def wset (v : W) (lo w x : Nat) : W :=
  (v &&& ~~~(BitVec.ofNat 32 (2 ^ w - 1) <<< lo)) ||| (BitVec.ofNat 32 (x % 2 ^ w) <<< lo)

/-- Two's-complement reading of the low `w` bits of `x` (R25). -/
def sext (w x : Nat) : Int :=
  let y := x % 2 ^ w
  if y < 2 ^ (w - 1) then (y : Int) else (y : Int) - 2 ^ w

/-- The `w`-bit two's-complement pattern of `x`. -/
def toBits (w : Nat) (x : Int) : Nat := (x % (2 ^ w : Int)).toNat

/-- `x` limited to the range of a signed field of `w` bits. -/
def satS (w : Nat) (x : Int) : Int :=
  let hi : Int := 2 ^ (w - 1) - 1
  if x > hi then hi else if x < -hi - 1 then -hi - 1 else x

/-- `x` limited to the range from `lo` to `hi`. -/
def clampN (lo hi x : Nat) : Nat := if x < lo then lo else if x > hi then hi else x

/-- `n / d` rounded to nearest; an exact half goes the way Config says (assumption 29). -/
def roundDiv (n : Int) (d : Nat) : Int :=
  let q := (2 * n + d) / (2 * d)
  if (2 * n + d) % (2 * d) = 0 && !Config.tieUp n d then q - 1 else q

/-! ### Registers -/

/-- The value register `a` holds. -/
def rd (a : Nat) (m : Mach) : W := tabGet regReset m.regs a

/-- Register `a` takes the value `v`. -/
def wr (a : Nat) (v : W) (m : Mach) : Mach := { m with regs := tabPut regReset m.regs a v }

/-- The value of a field. -/
def fget (f : Fld) (m : Mach) : Nat := wfld (rd f.reg m) f.lo f.w

/-- A field takes the value `x`. -/
def fset (f : Fld) (x : Nat) (m : Mach) : Mach := wr f.reg (wset (rd f.reg m) f.lo f.w x) m

/-- A one-bit field is 1. -/
def fon (f : Fld) (m : Mach) : Bool := fget f m != 0

/-- A one-bit field takes the value of `b`. -/
def fsetB (f : Fld) (b : Bool) (m : Mach) : Mach := fset f (if b then 1 else 0) m

/-- A counter register counts `k` more and stops at `top`. -/
def cnt (a : Nat) (k top : Nat) (m : Mach) : Mach :=
  wr a (BitVec.ofNat 32 (min top ((rd a m).toNat + k))) m

/-- A counter field counts `k` more and stops at its greatest value. -/
def fcnt (f : Fld) (k : Nat) (m : Mach) : Mach := fset f (min (2 ^ f.w - 1) (fget f m + k)) m

/-- The register whose value is staged for the next slot boundary, if one is (R21, R22). -/
def staged (a : Nat) (m : Mach) : Option W := tabGet (fun _ => none) m.stage a

/-- A value is staged for register `a`, replacing an earlier one (R22). -/
def setStage (a : Nat) (v : Option W) (m : Mach) : Mach := { m with stage := tabPut (fun _ => none) m.stage a v }

/-! ### Time (R10 to R12) -/

/-- The 64-bit tick count. -/
def tick (m : Mach) : Nat := m.tod / 2

/-- Ticks in one microsecond, one millisecond (R10): 245.76 and 245 760. -/
def ticksPerMs : Nat := 245760

/-- The device state code (spec/02). -/
def devState (m : Mach) : Nat := fget GCTL_DEV_STATE.state m

/-- R23, R78: the device's frame timing runs in STANDBY, WARM, ACTIVE and DEGRADED. -/
def timingOn (m : Mach) : Bool := decide (3 ≤ devState m ∧ devState m ≤ 6)

/-- The device carries traffic: ACTIVE or DEGRADED. -/
def isActive (m : Mach) : Bool := decide (devState m = 5 ∨ devState m = 6)

/-- The state of quadrant `q` (spec/02): 0 POWERED_DOWN, 1 IDLE, 2 RUNNING, 3 CAL_DEDICATED. -/
def quadState (q : Nat) (m : Mach) : Nat := fget (GCTL_QUAD_STATE.st_q q) m

/-- The hidden state of quadrant `q`'s transitions. -/
def getQ (q : Nat) (m : Mach) : Quad := tabGet (fun _ => {}) m.quads q
/-- Quadrant `q`'s hidden state is replaced. -/
def setQ (q : Nat) (x : Quad) (m : Mach) : Mach := { m with quads := tabPut (fun _ => {}) m.quads q x }

/-- The slot record of the running slot (R415). -/
def curSlot (m : Mach) : Slot := m.ftab.slots.getD m.slot {}

/-- R415: the deck's table names quadrant `q` in a mask of four bits. -/
def inMask (mask q : Nat) : Bool := mask.testBit q

/-! ### Messages, pins, free values -/

/-- The device sends a message or a frame; the outbox keeps them in the order sent. -/
def send (o : OutMsg) (m : Mach) : Mach := { m with out := m.out ++ [o] }

/-- Count the next free value taken: two values the spec leaves open never need to agree. -/
def nextFree (m : Mach) : Mach := { m with free := m.free + 1 }

/-! ### Event registers, the summary, the event log -/

/-- Summary bit (spec/17, GCTL_SUMMARY) of a quadrant block's event register at block offset `o`, if it is one. -/
def quadIsEvent (o : Nat) : Bool :=
  if o < 0x4000 then
    let r := o % 0x400
    r == 0x10 || r == 0x21C || r == 0x25C || r == 0x30C || r == 0x388
  else if 0x4400 ≤ o ∧ o < 0x4C00 then
    let r := (o - 0x4400) % 0x400
    r == 0x10 || r == 0x21C
  else o == 0x400C || o == 0x500C || o == 0x701C

/-- The summary bit an event register feeds (spec/17, GCTL_SUMMARY); none for every other address. -/
def evGroup (a : Nat) : Option Nat :=
  if a = GCTL_CORE_EVENTS then some 0
  else if a = GCTL_STATE_EVENTS ∨ a = GCTL_GLOBAL_EVENTS then some 1
  else if 0x100000 ≤ a ∧ a < 0x500000 then
    if quadIsEvent (a % 0x100000) then some (1 + a / 0x100000) else none
  else if a = BMU_EVENTS ∨ a = BMU_UL_SAT ∨ a = BMU_DL_SAT ∨ a = BMU_DL_SAT_PATH_LO ∨ a = BMU_DL_SAT_PATH_HI then some 6
  else if a = ACQ_EVENTS ∨ a = DIR_EVENTS then some 7
  else if a = CLK_EVENTS then some 8
  else if a = MON_THERM_EVENTS ∨ (0x800000 ≤ a ∧ a < 0x801000 ∧ a % 0x400 = 0xC) then some 9
  else if a = CAL_EVENTS then some 10
  else if a = DMA_DONE ∨ a = DMA_ERR ∨ a = DMA_EVENTS then some 11
  else if a = RES_EVENTS then some 12
  else if a = EPL_EVENTS then some 13
  else if a = HLT_EVENTS ∨ a = HLT_TWIN_EVENTS then some 14
  else if a = IMG_EVENTS then some 15
  else none

/-- One bit of GCTL_SUMMARY (R505): 1 while any bit of its sources reads 1. -/
def summaryBit (m : Mach) (g : Nat) : Bool :=
  match g with
  | 16 => m.tiles.any fun e => e.2.events != 0#32
  | 17 => fon HLT_STATUS.replace m
  | 18 => devState m == 7
  | _ => m.regs.any fun e => evGroup e.1 == some g && e.2 != 0#32

/-- R31: the code of the die whose logic detects the events of register `a` (spec/01): the RF die for converters,
clocks and monitor converters, the reservoir stack for the reservoir, else the digital die. -/
def dieOf (a : Nat) : Nat :=
  if a = RES_EVENTS then 2
  else if 0x700000 ≤ a ∧ a < 0x900000 then 0
  else if 0x100000 ≤ a ∧ a < 0x500000 ∧ (a % 0x400 = 0x10 ∨ a % 0x400 = 0x30C) ∧ a % 0x100000 < 0x4C00 then 0
  else 1

/-- The logical index of an event-log entry for register `a`: the path of a per-path register, else 0xFFFF (R452). -/
def logicalOf (a : Nat) : Nat :=
  if 0x100000 ≤ a ∧ a < 0x500000 ∧ a % 0x100000 < 0x4000 then 16 * (a / 0x100000 - 1) + a % 0x100000 / 0x400
  else 0xFFFF

/-- The log works while the core runs (R451). -/
def logOn (m : Mach) : Bool := m.power == .coreRun && devState m != 7 && devState m != 0

/-- R327: the logical bank of a 64-bit unit (an address divided by 8). -/
def bankOfUnit (u : Nat) : Nat := u / 8 % 64

/-- What a unit that is not listed is: poisoned where its bank was replaced after a hard failure (R335). -/
def poisonDefault (m : Mach) : Nat → Bool := fun u => m.poisonBanks.contains (bankOfUnit u)

/-- R448: the writer of entry `i` overwrites it whole, which clears the poison of its eight units. -/
def logCure (i : Nat) (m : Mach) : Mach :=
  let u := ((rd (RES_PART_BASE 5) m).toNat + 64 * i) / 8
  { m with poison := (List.range 8).foldl (fun t k => tabPut (poisonDefault m) t (u + k) false) m.poison }

/-- R451: the event log takes an entry, at most 64 in a millisecond; further entries are dropped and counted. -/
def logPut (e : LogEntry) (m : Mach) : Mach :=
  if logOn m = false then m else
  let ms := tick m / ticksPerMs
  let c := if ms = m.logMs then m.logCnt else 0
  if c < 64 then
    { (fset HLT_LOG_WPTR.next (fget HLT_LOG_WPTR.next m + 1) (logCure (fget HLT_LOG_WPTR.next m) m)) with
        log := tabPut (fun _ => none) m.log (fget HLT_LOG_WPTR.next m)
          (some { e with tick := tick m, frame := m.frameNo, slot := m.slot, seq := m.logSeq }),
        logSeq := m.logSeq + 1, logMs := ms, logCnt := c + 1 }
  else
    let again := if fon HLT_EVENTS.log_drop m then 1 else 2
    fset HLT_EVENTS.log_drop 1 (fcnt HLT_LOG_WPTR.dropped again m)

/-- The entry of a sticky bit that was set (R451, R452: code 0x0001). -/
def stickyEntry (f : Fld) : LogEntry :=
  { tick := 0, frame := 0, slot := 0, code := 1, die := dieOf f.reg, kind := 0xFF, phys := 0xFFFF,
    logical := logicalOf f.reg, reg := f.reg, bit := f.lo, seq := 0, data := [] }

/-- R507: a summary bit that was 0 and is enabled in GCTL_EVT_EN asks for an EVENT. -/
def summaryRise (g : Nat) (was : Bool) (m : Mach) : Mach :=
  if was = false ∧ g ≠ 18 ∧ (rd GCTL_EVT_EN m).getLsbD g then { m with evtPend := true } else m

/-- The device sets a sticky bit for a resource of die `die` (R31). Where it was 0, the event log takes an entry (R451) and the bit's
summary group may ask for an EVENT (R507). Where it was 1, nothing changes. -/
def setEvDie (die : Nat) (f : Fld) (m : Mach) : Mach :=
  if fon f m then m else
  let m1 := logPut { stickyEntry f with die := die } (fset f 1 m)
  match evGroup f.reg with
  | none => m1
  | some g => summaryRise g (summaryBit m g) m1

/-- The device sets a sticky bit whose event belongs to one die. -/
def setEv (f : Fld) (m : Mach) : Mach := setEvDie (dieOf f.reg) f m

/-- The device sets bit `i` of the sticky register `a`. -/
def setEvBit (a i : Nat) (m : Mach) : Mach := setEv ⟨a, i, 1⟩ m

/-- The event is set when the condition holds. -/
def setEvIf (b : Bool) (f : Fld) (m : Mach) : Mach := if b then setEv f m else m

/-- A function applied when the condition holds. -/
def whenB (b : Bool) (f : Mach → Mach) (m : Mach) : Mach := if b then f m else m

/-- A state function applied once for each element of a list, in order. -/
def each {α : Type} (l : List α) (f : α → Mach → Mach) (m : Mach) : Mach := l.foldl (fun s a => f a s) m

/-- The quadrants, the paths, the beams. -/
def quads4 : List Nat := [0, 1, 2, 3]
def paths64 : List Nat := List.range 64
def beams32 : List Nat := List.range 32
/-- The paths of quadrant `q` (R6). -/
def pathsOf (q : Nat) : List Nat := (List.range 16).map (16 * q + ·)
/-- Index `n` as a path. -/
def toPath (n : Nat) : Fin 64 := Fin.ofNat 64 n
/-- Index `o` as an observation receiver. -/
def toObs (o : Nat) : Fin 8 := Fin.ofNat 8 o

/-! ### Coded events and the persistent log (R451, R452) -/

/-- `x` as `n` bytes, the least significant first (R26). -/
def leBytes : Nat → Nat → List Byte
  | 0, _ => []
  | n + 1, x => BitVec.ofNat 8 x :: leBytes n (x / 256)

/-- The number whose little-endian bytes are `l`. -/
def leVal (l : List Byte) : Nat := l.foldr (fun b a => b.toNat + 256 * a) 0

/-- Byte `i` of a list, and the little-endian number of `n` bytes from `off`. -/
def byteAt (l : List Byte) (i : Nat) : Nat := (l.getD i 0#8).toNat
def leAt (l : List Byte) (off n : Nat) : Nat := leVal ((l.drop off).take n)

/-- The section of type `ty` of the deck in force (R472, R473): the one for the plan in force, else the one for both. Kept
under key 4 × type + sflags plan code. -/
def deckSect (ty : Nat) (m : Mach) : List Byte :=
  match tabGet (fun _ => []) m.img.deck (4 * ty + fget CLK_STATUS.plan m + 1) with
  | [] => tabGet (fun _ => []) m.img.deck (4 * ty)
  | l => l

/-- R447: no spare block of the NAND remains. -/
def nandOut (m : Mach) : Bool := decide (1024 ≤ m.nvm.remap.nandBad.length)

/-- R452: the persistent log takes an entry through the journal; when full it overwrites its oldest; without a NAND spare
block the entry is dropped with plog_fail (R447). -/
def plogPut (e : LogEntry) (m : Mach) : Mach :=
  if nandOut m then setEv HLT_EVENTS.plog_fail m
  else
    let e' := { e with tick := tick m, frame := m.frameNo, slot := m.slot, seq := m.nvm.plogSeq }
    let ovw := if m.nvm.plog.length < 1024 then 0 else 1
    { m with nvm := { m.nvm with plog := (e' :: m.nvm.plog).take 1024, plogSeq := m.nvm.plogSeq + 1,
                                 plogOver := min 0xFFFF (m.nvm.plogOver + ovw) } }

/-- An event that carries a code from 0x0100 upward goes to both logs (R451, R452). -/
def logCode (code die kind phys logical : Nat) (data : List Byte) (m : Mach) : Mach :=
  let e : LogEntry := { tick := 0, frame := 0, slot := 0, code := code, die := die, kind := kind, phys := phys,
                        logical := logical, reg := 0, bit := 0, seq := 0, data := data }
  plogPut e (logPut e m)

/-! ### The formats of the stored records (R489, R491) -/

/-- The format version of record `i`, in the order of R489: 0 settings, 1 calibration store, 2 snapshots, 3 search slots; 0
where it holds nothing. -/
def recFmt (i : Nat) (m : Mach) : Nat :=
  match i with
  | 0 => m.nvm.settingsFmt
  | 1 => (m.nvm.cal.map fun c => c.fmt).getD 0
  | 2 => if m.nvm.snaps.isEmpty then 0 else m.nvm.snapFmt
  | _ => m.nvm.searchFmt

/-- The newest format of record `i` that the running firmware reads, and the one it writes. -/
def fmtRead (i : Nat) (m : Mach) : Nat := m.img.fmtR.getD i 1
def fmtWrite (i : Nat) (m : Mach) : Nat := m.img.fmtW.getD i 1

/-- R491: the running firmware reads record `i`; a newer one stays untouched and unused. -/
def recOk (i : Nat) (m : Mach) : Bool := decide (recFmt i m ≤ fmtRead i m)

/-! ### Hidden state of the units -/

def getIn (k : Nat) (m : Mach) : List BEntry := tabGet (fun _ => []) m.inb k
def setIn (k : Nat) (x : List BEntry) (m : Mach) : Mach := { m with inb := tabPut (fun _ => []) m.inb k x }
def getOut (k : Nat) (m : Mach) : OutBr := tabGet (fun _ => {}) m.outb k
def setOut (k : Nat) (x : OutBr) (m : Mach) : Mach := { m with outb := tabPut (fun _ => {}) m.outb k x }
def getRx (k : Nat) (m : Mach) : RxSt := tabGet (fun _ => {}) m.rx k
def setRx (k : Nat) (x : RxSt) (m : Mach) : Mach := { m with rx := tabPut (fun _ => {}) m.rx k x }
def getChain (k : Nat) (m : Mach) : ChainSt := tabGet (fun _ => {}) m.chain k
def setChain (k : Nat) (x : ChainSt) (m : Mach) : Mach := { m with chain := tabPut (fun _ => {}) m.chain k x }
def getTx (k : Nat) (m : Mach) : TxSt := tabGet (fun _ => {}) m.tx k
def setTx (k : Nat) (x : TxSt) (m : Mach) : Mach := { m with tx := tabPut (fun _ => {}) m.tx k x }
def getFes (k : Nat) (m : Mach) : Fes := tabGet (fun _ => {}) m.fes k
def setFes (k : Nat) (x : Fes) (m : Mach) : Mach := { m with fes := tabPut (fun _ => {}) m.fes k x }
def getPd (k : Nat) (m : Mach) : PdSt := tabGet (fun _ => {}) m.pd k
def setPd (k : Nat) (x : PdSt) (m : Mach) : Mach := { m with pd := tabPut (fun _ => {}) m.pd k x }
def getTile (k : Nat) (m : Mach) : Tile := tabGet (fun _ => {}) m.tiles k
def setTile (k : Nat) (x : Tile) (m : Mach) : Mach := { m with tiles := tabPut (fun _ => {}) m.tiles k x }
def getCap (k : Nat) (m : Mach) : CapSet := tabGet (fun _ => {}) m.cap k
def setCap (k : Nat) (x : CapSet) (m : Mach) : Mach := { m with cap := tabPut (fun _ => {}) m.cap k x }
def getDma (k : Nat) (m : Mach) : DmaCh := tabGet (fun _ => {}) m.dma k
def setDma (k : Nat) (x : DmaCh) (m : Mach) : Mach := { m with dma := tabPut (fun _ => {}) m.dma k x }
def getUp (k : Nat) (m : Mach) : UpQ := tabGet (fun _ => {}) m.upq k
def setUp (k : Nat) (x : UpQ) (m : Mach) : Mach := { m with upq := tabPut (fun _ => {}) m.upq k x }
def getUlTx (k : Nat) (m : Mach) : UlTx := tabGet (fun _ => {}) m.ulTx k
def setUlTx (k : Nat) (x : UlTx) (m : Mach) : Mach := { m with ulTx := tabPut (fun _ => {}) m.ulTx k x }
def getDlRx (k : Nat) (m : Mach) : DlRx := tabGet (fun _ => {}) m.dlRx k
def setDlRx (k : Nat) (x : DlRx) (m : Mach) : Mach := { m with dlRx := tabPut (fun _ => {}) m.dlRx k x }
def getSess (k : Nat) (m : Mach) : SessSt := tabGet (fun _ => {}) m.sess k
def setSess (k : Nat) (x : SessSt) (m : Mach) : Mach := { m with sess := tabPut (fun _ => {}) m.sess k x }
def getMon (k : Nat) (m : Mach) : MonSt := tabGet (fun _ => {}) m.mon k
def setMon (k : Nat) (x : MonSt) (m : Mach) : Mach := { m with mon := tabPut (fun _ => {}) m.mon k x }
def getSens (k : Nat) (m : Mach) : SensSt := tabGet (fun _ => {}) m.sens k
def setSens (k : Nat) (x : SensSt) (m : Mach) : Mach := { m with sens := tabPut (fun _ => {}) m.sens k x }

/-! ### Native messages (R370, R381) -/

/-- Port `i` is in the bond (EPL_STATUS.bonded). -/
def bonded (i : Nat) (m : Mach) : Bool := (fget EPL_STATUS.bonded m).testBit i

/-- Some port is in the bond. -/
def anyBonded (m : Mach) : Bool := fget EPL_STATUS.bonded m != 0

/-- Session `s` has a peer (EPL_SESS_MAC). -/
def sessBound (s : Nat) (m : Mach) : Bool :=
  rd (EPL_SESS_MAC_LO s) m != 0#32 || rd (EPL_SESS_MAC_HI s) m != 0#32

/-- R370: some port of session `s`'s mask is in the bond. -/
def sessPort (s : Nat) (m : Mach) : Bool := fget (EPL_SESS_CFG.mask s) m &&& fget EPL_STATUS.bonded m != 0

/-- A native message goes to session `s` with the session's next sequence number (R381). With the session unbound or
none of its ports in the bond nothing can be sent (R371). -/
def sendNat (s : Nat) (b : NatBody) (m : Mach) : Mach :=
  if sessBound s m && sessPort s m then
    let x := getSess s m
    setSess s { x with txSeq := (x.txSeq + 1) % 2 ^ 32 } (send (.native s x.txSeq b) m)
  else m

/-- A command raises an EVENT to session 0 (R507): it is pending until `EVENT` sends it. -/
def wantEvent (m : Mach) : Mach := { m with evtPend := true }

/-- R388, R494: messages that the ROM takes in RECOVERY. -/
def romTakes : Instr → Bool
  | .imgXferOpen .. => true
  | .imgXferData .. => true
  | .imgXferCommit .. => true
  | .imgXferAbort .. => true
  | _ => false

/-- Management stands: in the pause of a punty handover (R492), or while a spare gaffer core takes over (R446). -/
def mgmtHeld (m : Mach) : Bool := m.img.pause || m.hlt.restart.isSome

/-- R446, R492: a native message to the device is held while management stands, at most eight for a session; a later
one is discarded and counted. No message arrives while the core stands. -/
def nativeIn (sess : Nat) (i : Instr) (f : Mach → Mach) (m : Mach) : Mach :=
  if m.power ≠ .coreRun ∨ (devState m = 2 ∧ romTakes i = false) then m
  else if mgmtHeld m then
    let x := getSess sess m
    if x.held.length < 8 then setSess sess { x with held := x.held ++ [i] } m else cnt EPL_RX_DISCARD 1 0xFFFFFFFF m
  else f m

/-! ### What a path reaches (R495) -/

/-- A register access from the host to address `a` reaches the register map: the core runs and the device state lets the
path reach it. In RECOVERY only the GCTL and IMG blocks are reached. -/
def reach (a : Nat) (m : Mach) : Bool :=
  m.power == .coreRun &&
    (match devState m with
     | 0 => false
     | 7 => false
     | 2 => decide (a < 0x100000 ∨ (0xD00000 ≤ a ∧ a < 0xE00000))
     | _ => true)

/-- A register write of address `a` has its effect where the path reaches it, and none otherwise (R495). -/
def gate (a : Nat) (f : Mach → Mach) (m : Mach) : Mach := if reach a m then f m else m

/-! ### Outcomes -/

/-- The outcome of a command whose effect on the device is `m'`: the waiting commands are untouched. -/
def answer (s : State) (m' : Mach) : Host.Outcome State Fault Refusal := .next { s with m := m' }

/-- The outcome of a command whose operands must be well formed: a malformed one stops the block. -/
def answerIf (ok : Bool) (s : State) (m' : Mach) : Host.Outcome State Fault Refusal :=
  if ok then answer s m' else .fault .malformedCommand

end Sys2Proof.Machine
end

