-- ==== Sys2Proof/Machine/ResMem.lean ====
section
/-! DEFINITION. The reservoir as memory (spec/11): bytes in canonical form, poisoned units, partitions and quotas, and
the reads and writes every client is built from. -/

namespace Sys2Proof.Machine

/-- R327: the reservoir's first address and the first address beyond it. -/
def resLo : Nat := 0x40000000
def resHi : Nat := 0x44000000

/-- What a byte that nothing has written reads as (DESIGN CHOICE, assumption 3: the spec gives the reservoir test's
pattern no value). -/
def memDefault : Nat → Byte := fun _ => 0#8

/-- The canonical form of the reservoir: addresses strictly rising, no entry equal to what an unlisted address reads as. -/
def Memory.wf (l : List Host.Cell) : Bool := tabWf memDefault l

/-- One byte. -/
def resByte (a : Nat) (m : Mach) : Byte := tabGet memDefault m.res a

/-- One byte is written. -/
def setByte (a : Nat) (b : Byte) (m : Mach) : Mach := { m with res := tabPut memDefault m.res a b }

/-- The 64-bit unit that holds address `a` is poisoned (R328). -/
def poisoned (a : Nat) (m : Mach) : Bool := tabGet (poisonDefault m) m.poison (a / 8)

/-- The unit that holds `a` becomes poisoned, or is cured. -/
def setPoison (a : Nat) (b : Bool) (m : Mach) : Mach :=
  { m with poison := tabPut (poisonDefault m) m.poison (a / 8) b }

/-- `n` bytes from address `a`, as stored. -/
def resBytes (a n : Nat) (m : Mach) : List Byte := (List.range n).map fun i => resByte (a + i) m

/-- A double-bit error is met in, or a poisoned unit is read at, address `a` (R328, R329): it is counted and reported. -/
def reportUe (a : Nat) (m : Mach) : Mach :=
  setEv RES_EVENTS.ue (wr RES_ERR_ADDR (BitVec.ofNat 32 (a / 8 * 8)) (cnt RES_UE_COUNT 1 0xFFFFFFFF m))

/-- A single-bit error is corrected and written back (R328). -/
def reportCe (m : Mach) : Mach := setEv RES_EVENTS.ce (cnt RES_CE_COUNT 1 0xFFFFFFFF m)

/-- The bytes of `bs`, to be stored from `a` on, that fall into the unit `u` (an address divided by 8). -/
def inUnit (a u : Nat) (bs : List Byte) : List (Nat × Byte) :=
  (bs.zipIdx.map fun p => (a + p.2, p.1)).filter fun p => p.1 / 8 == u

/-- R329: the part of a write that falls into one unit. A write that covers the unit cures it; a partial write of a
poisoned unit is not applied and sets ue. -/
def writeUnit (a : Nat) (bs : List Byte) (u : Nat) (m : Mach) : Mach :=
  let ps := inUnit a u bs
  if poisoned (8 * u) m && decide (ps.length < 8) then setEv RES_EVENTS.ue m
  else each ps (fun p s => setByte p.1 p.2 s) (setPoison (8 * u) false m)

/-- The bytes `bs` are stored from address `a` on, unit by unit. -/
def resWrite (a : Nat) (bs : List Byte) (m : Mach) : Mach :=
  each ((List.range ((a + bs.length + 7) / 8 - a / 8)).map (a / 8 + ·)) (writeUnit a bs) m

/-- The units that `n` bytes from `a` touch and that are poisoned. -/
def badUnits (a n : Nat) (m : Mach) : List Nat :=
  ((List.range ((a + n + 7) / 8 - a / 8)).map (a / 8 + ·)).filter fun u => poisoned (8 * u) m

/-- A client reads `n` bytes from `a`: every poisoned unit it meets is reported (R329). -/
def readReport (a n : Nat) (m : Mach) : Mach := each (badUnits a n m) (fun u s => reportUe (8 * u) s) m

/-- A little-endian word at `a` (R26). -/
def resWord (a : Nat) (m : Mach) : W := BitVec.ofNat 32 (leVal (resBytes a 4 m))

/-! ### Partitions (R338) -/

/-- Base address and size in bytes of partition `i`; size 0 without a deck. -/
def partBase (i : Nat) (m : Mach) : Nat := (rd (RES_PART_BASE i) m).toNat
def partSize (i : Nat) (m : Mach) : Nat := fget (RES_PART_SIZE.size i) m * 65536
/-- The quota of partition `i` in bytes (R339). -/
def partQuota (i : Nat) (m : Mach) : Nat := fget (RES_PART_QUOTA.quota i) m * 65536
/-- The use of partition `i` in bytes. -/
def partUse (i : Nat) (m : Mach) : Nat := fget ⟨RES_PART_USE i, 0, 27⟩ m
/-- The use of partition `i` becomes `x`. -/
def setUse (i x : Nat) (m : Mach) : Mach := fset ⟨RES_PART_USE i, 0, 27⟩ x m

/-- `n` bytes from `a` lie in partition `i`. -/
def inPart (i a n : Nat) (m : Mach) : Bool :=
  decide (partBase i m ≤ a ∧ a + n ≤ partBase i m + partSize i m ∧ 0 < partSize i m)

/-- The partition that holds address `a`. -/
def partOf (a : Nat) (m : Mach) : Option Nat := (List.range 8).find? fun i => inPart i a 1 m

/-! ### What each partition shows -/

/-- R452: an event-log entry as its 64 bytes. -/
def logBytes (e : LogEntry) : List Byte :=
  leBytes 8 e.tick ++ leBytes 4 (e.frame % 2 ^ 24 + e.slot % 256 * 2 ^ 24) ++ leBytes 2 e.code ++ leBytes 1 e.die ++
    leBytes 1 e.kind ++ leBytes 2 e.phys ++ leBytes 2 e.logical ++ leBytes 4 e.reg ++ leBytes 1 e.bit ++ leBytes 3 0 ++
    leBytes 4 e.seq ++ (e.data ++ List.replicate 32 0#8).take 32

/-- R210: a valid directory entry as its 64 bytes. -/
def entBytes (e : DirEntry) : List Byte :=
  leBytes 6 e.id.toNat ++
    leBytes 1 (1 + (if e.pinned then 2 else 0) + (if e.raw then 4 else 0) + 16 * e.mode.toNat) ++ leBytes 1 e.spread.toNat ++
    leBytes 2 e.az.toNat ++ leBytes 2 e.el.toNat ++ leBytes 2 e.pool.toNat ++ leBytes 2 0 ++ leBytes 4 e.tOff.toNat ++
    leBytes 4 e.fOff.toNat ++ leBytes 1 e.snr.toNat ++ leBytes 1 e.lastBeam.toNat ++ leBytes 2 e.lastPre.toNat ++
    leBytes 5 e.lastSeen.toNat ++ leBytes 3 0 ++ leBytes 4 e.bindCount.toNat ++ leBytes 4 e.created.toNat ++
    leBytes 4 e.seq.toNat ++ leBytes 16 e.user.toNat

/-- The byte a reader of the reservoir sees at `a`: the event log in LOG (R451), the directory's entries in DIR (R208), the
stored bytes elsewhere. -/
def viewByte (a : Nat) (m : Mach) : Byte :=
  if inPart 5 a 1 m then
    let o := a - partBase 5 m
    match tabGet (fun _ => none) m.log (o / 64) with
    | some e => (logBytes e).getD (o % 64) 0#8
    | none => resByte a m
  else if inPart 0 a 1 m then
    let o := a - partBase 0 m
    if o / 512 < fget DIR_CFG.nb m then
      match tabGet (fun _ => none) m.dir.ent (o / 64) with
      | some e => (entBytes e).getD (o % 64) 0#8
      | none => 0#8
    else resByte a m
  else resByte a m

/-- `n` bytes from `a` as a reader sees them. -/
def viewBytes (a n : Nat) (m : Mach) : List Byte := (List.range n).map fun i => viewByte (a + i) m

/-- A word as a reader sees it (R26). -/
def viewWord (a : Nat) (m : Mach) : W := BitVec.ofNat 32 (leVal (viewBytes a 4 m))

end Sys2Proof.Machine
end

