-- ==== Sys2Proof/Machine/Time.lean ====
section
/-! DEFINITION. Time and the frame grid (R10 to R12, R415 to R418): the slots around the present one, and the passing of
time up to the instant of a timed event. -/

namespace Sys2Proof.Machine

/-- A timed event comes at its instant `t`: while the frame timing runs the tick count has reached it (DESIGN CHOICE,
assumption 1: time passes by idle steps and by timed events). -/
def advanceTo (t : Nat) (m : Mach) : Mach :=
  if timingOn m ∧ tick m < t then { m with tod := 2 * t } else m

/-- The frame boundary that comes next. -/
def nextFrameTick (m : Mach) : Nat := m.frameStart + m.ftab.len

/-- The table of the frame that starts next: the one a reshuffle brings, if it applies there (R418). -/
def nextTable (m : Mach) : FrameTab :=
  match m.clk.fsPend with
  | some (t, tab) => if t ≤ nextFrameTick m then tab else m.ftab
  | none => m.ftab

/-- The slot after the present one is in the next frame. -/
def lastSlot (m : Mach) : Bool := decide (m.ftab.slots.length ≤ m.slot + 1)

/-- The slot that comes next: its record and the tick of its boundary. -/
def nextSlot (m : Mach) : Slot × Nat :=
  if lastSlot m then ((nextTable m).slots.getD 0 {}, nextFrameTick m)
  else let s := m.ftab.slots.getD (m.slot + 1) {}; (s, m.frameStart + s.start)

/-- The slots after the present one, with the ticks of their boundaries, to the end of the frame after the next. -/
def slotsAhead (m : Mach) : List (Slot × Nat) :=
  let tab := nextTable m
  let put (b : Nat) (l : List Slot) : List (Slot × Nat) := l.map fun s => (s, b + s.start)
  put m.frameStart (m.ftab.slots.drop (m.slot + 1)) ++ put (nextFrameTick m) tab.slots ++ put (nextFrameTick m + tab.len) tab.slots

/-- The frame number and slot number of the slot that comes next (R11: the frame number has 24 bits). -/
def nextSlotPos (m : Mach) : Nat × Nat :=
  if lastSlot m then ((m.frameNo + 1) % 2 ^ 24, 0) else (m.frameNo, m.slot + 1)

/-- Slot `s` has transmit, or receive, traffic of quadrant `q` (R417). -/
def slotTx (s : Slot) (q : Nat) : Bool := inMask s.txq q
def slotRx (s : Slot) (q : Nat) : Bool := inMask s.rxq q

end Sys2Proof.Machine
end

