-- ==== Sys2Proof/Machine/HealthOps.lean ====
section
/-! DEFINITION. The named operations of the health unit (spec/15): the kitty's pools, the replacement request, the entry to
DEGRADED, the health unit's notices to the twin. -/

namespace Sys2Proof.Machine

/-! ### The kitty (R438) -/

/-- R438: the spares each pool of kind `k` starts with. -/
def poolCap (k : Nat) : Nat :=
  match k with
  | 2 => 4
  | 5 => 20
  | 6 => 2
  | 10 => 1024
  | 11 => 0
  | _ => 1

/-- R438: how many pools kind `k` has. -/
def poolCount (k : Nat) : Nat :=
  match k with
  | 0 => 64
  | 1 => 8
  | 2 => 4
  | 3 => 4
  | 4 => 2
  | 5 => 66
  | 7 => 2
  | 11 => 0
  | _ => 1

/-- The key of pool `p` of kind `k`. -/
def poolKey (k p : Nat) : Nat := 128 * k + p

/-- Spares used, and spares failed, of a pool. -/
def poolUsed (k p : Nat) (m : Mach) : Nat := tabGet (fun _ => 0) m.nvm.remap.used (poolKey k p)
def poolBad (k p : Nat) (m : Mach) : Nat := tabGet (fun _ => 0) m.nvm.remap.bad (poolKey k p)
/-- Spares left of a pool. -/
def poolLeft (k p : Nat) (m : Mach) : Nat := poolCap k - (poolUsed k p m + poolBad k p m)

/-- The pools of kind `k`. -/
def poolsOf (k : Nat) : List Nat := List.range (poolCount k)

/-- The remap table changes (R441): it is written to NVM through the journal. -/
def setRemap (f : Remap → Remap) (m : Mach) : Mach := { m with nvm := { m.nvm with remap := f m.nvm.remap } }

/-- R449: some pool of kind `k` is below a reserve that is not 0. -/
def kindLow (k : Nat) (m : Mach) : Bool :=
  let r := fget (HLT_RESERVE.reserve k) m
  decide (r ≠ 0) && (poolsOf k).any fun p => decide (poolLeft k p m < r)

/-- Some pool of kind `k` has no spare. -/
def kindEmpty (k : Nat) (m : Mach) : Bool := (poolsOf k).any fun p => decide (poolLeft k p m = 0)

/-- HLT_KITTY_k and the bits of kind `k` in HLT_STATUS follow the pools. The per-kind registers of kind 11 read 0. -/
def refreshKind (k : Nat) (m : Mach) : Mach :=
  let m1 := if k < 11 then
      fset (HLT_KITTY.worn k) (min 1023 (tabGet (fun _ => 0) m.nvm.remap.worn k))
        (fset (HLT_KITTY.total k) (poolCap k * poolCount k)
          (fset (HLT_KITTY.left k) ((poolsOf k).map fun p => poolLeft k p m).sum m))
    else m
  fsetB ⟨HLT_STATUS, 16 + k, 1⟩ (kindEmpty k m) (fsetB ⟨HLT_STATUS, 4 + k, 1⟩ (kindLow k m) m1)

/-! ### Device state -/

/-- The device enters state `st` with a cause (GCTL_DEV_STATE). -/
def setDev (st cause : Nat) (m : Mach) : Mach :=
  fset GCTL_DEV_STATE.cause cause (fset GCTL_DEV_STATE.state st (fset GCTL_DEV_STATE.prev (devState m) m))

/-! ### The replacement request (R449, R450) -/

/-- R68: an ACTIVE device enters DEGRADED when a request is raised. -/
def degradeIfActive (m : Mach) : Mach :=
  if devState m = 5 then setEv GCTL_STATE_EVENTS.degraded_entered (setDev 6 5 m) else m

/-- R449, R450: a replacement request with cause bit `f` of HLT_REPLACE: the bit, HLT_STATUS.replace and
GCTL_DEV_STATE.replace are set, replace_raised is set, REPLACE_N is asserted, the request is logged, and EVENT is sent. -/
def raiseReplace (f : Fld) (m : Mach) : Mach :=
  let was := summaryBit m 17
  let m1 := fset GCTL_DEV_STATE.replace 1 (fset HLT_STATUS.replace 1 (fset f 1 m))
  let m2 := setEv HLT_EVENTS.replace_raised (summaryRise 17 was { m1 with replaceN := true })
  degradeIfActive (wantEvent (logCode 0x0200 1 0xFF 0xFFFF 0xFFFF (leBytes 4 (rd HLT_REPLACE m2).toNat) m2))

/-- R449: a pool of kind `k` may have fallen below its reserve. -/
def checkReserve (k : Nat) (m : Mach) : Mach := if kindLow k m then raiseReplace HLT_REPLACE.spare_low m else m

/-- R441: a pool gives up one spare; a pool that falls below its reserve raises the request. -/
def useSpare (k p : Nat) (m : Mach) : Mach :=
  let m1 := refreshKind k (setRemap (fun r =>
    { r with used := tabPut (fun _ => 0) r.used (poolKey k p) (poolUsed k p m + 1) }) m)
  if decide (poolLeft k p m1 < fget (HLT_RESERVE.reserve k) m1) then raiseReplace HLT_REPLACE.spare_low m1 else m1

/-- R439: a resource without a spare stays in service, worn. -/
def markWorn (k die phys logical : Nat) (m : Mach) : Mach :=
  let m1 := refreshKind k (setRemap (fun r =>
    { r with worn := tabPut (fun _ => 0) r.worn k (tabGet (fun _ => 0) r.worn k + 1), wornRes := (k, phys) :: r.wornRes }) m)
  raiseReplace HLT_REPLACE.no_spare
    (logCode 0x0104 die k phys logical [] (setEvDie die HLT_EVENTS.worn m1))

/-- A resource failed hard and no spare is left: the request with cause no_spare (R449), which the remap table keeps. -/
def noSpare (k die phys logical : Nat) (m : Mach) : Mach :=
  let m1 := setRemap (fun r => if r.wornRes.contains (k, phys) then r else { r with wornRes := (k, phys) :: r.wornRes }) m
  raiseReplace HLT_REPLACE.no_spare (logCode 0x0104 die k phys logical [] m1)

/-- R31: the die of a kitty kind: the RF die for slices, the reservoir stack for rows and banks, NVM for NAND blocks. -/
def kindDie (k : Nat) : Nat := if k ≤ 1 ∨ k = 11 then 0 else if k = 5 ∨ k = 6 then 2 else if k = 10 then 3 else 1

/-- R440: planned substitutions wait while a class B change is pending or running, or a takeover or a punty handover
runs. -/
def planHold (m : Mach) : Bool := fon CLK_STATUS.classb m || m.twin.takeover.isSome || m.img.handover || m.img.pause || m.img.resh.isSome

/-- R123, R288: one kind 0 trick for the unit waits for a gap. -/
def wantTrick (u : RxUnit) (m : Mach) : Mach :=
  if m.cal.inserts.any (fun e => e.1 = u) then m
  else { m with cal := { m.cal with inserts := m.cal.inserts ++ [(u, 0)] } }

/-- R440: with no planned substitution running and nothing to hold it, the next one that waits starts. -/
def pumpPlanned (m : Mach) : Mach :=
  match m.hlt.running, m.hlt.waiting with
  | none, r :: l =>
    if planHold m then m
    else
      let m1 := if r.kind.val = 0 then wantTrick (.path (toPath r.pool)) m
        else if r.kind.val = 1 then wantTrick (.obs (toObs r.pool)) m else m
      fset HLT_STATUS.remap_busy 1 { m1 with hlt := { m.hlt with running := some r, waiting := l } }
  | _, _ => m

/-- The planned substitution that runs is over. -/
def endPlanned (m : Mach) : Mach :=
  pumpPlanned (fset HLT_STATUS.remap_busy 0 { m with hlt := { m.hlt with running := none } })

/-- A substitution is done (R441): its entry stands in the remap table, with its die's code (R31), before the device logs it with
`code`. -/
def substDone (code k phys logical spare : Nat) (m : Mach) : Mach :=
  logCode code (kindDie k) k phys logical (leBytes 2 spare)
    (setRemap (fun r => { r with entries := ⟨k, kindDie k, phys, logical, spare⟩ :: r.entries }) m)

/-- A planned substitution that nothing waits for any more is done (code 0x0101). -/
def plannedOver (k phys logical spare : Nat) (m : Mach) : Mach :=
  substDone 0x0101 k phys logical spare (setEvDie (kindDie k) HLT_EVENTS.remap m)

/-- The planned substitution that runs is done. -/
def plannedDone (k phys logical spare : Nat) (m : Mach) : Mach := plannedOver k phys logical spare (endPlanned m)

/-- A hard-failure substitution is done (R441, code 0x0102). -/
def hardDone (k phys logical spare : Nat) (m : Mach) : Mach :=
  substDone 0x0102 k phys logical spare (setEvDie (kindDie k) HLT_EVENTS.hard_sub m)

/-- The resource is retired (R439, code 0x0100) with the count `n` in its window. -/
def logRetired (k phys logical n : Nat) (m : Mach) : Mach :=
  logCode 0x0100 (kindDie k) k phys logical (leBytes 4 n) m

/-- The planned substitution that runs is of the resource of kind `k` with physical index `phys`. -/
def isPlanned (k phys : Nat) (m : Mach) : Bool :=
  match m.hlt.running with
  | some r => r.kind.val == k && r.phys == phys
  | none => false

/-- R440: a resource that fails hard abandons its own planned substitution. -/
def dropPlanned (k phys : Nat) (m : Mach) : Mach :=
  let m1 := { m with hlt := { m.hlt with waiting := m.hlt.waiting.filter fun r => !(r.kind.val == k && r.phys == phys) } }
  if isPlanned k phys m then endPlanned m1 else m1

/-! ### Notices to the twin (R463) -/

/-- Role in force: 0 SOLO, 1 PRIMARY, 2 STANDBY. -/
def role (m : Mach) : Nat := fget HLT_TWIN_STATUS.role_act m

/-- The device holds the twin token. -/
def hasToken (m : Mach) : Bool := fon HLT_TWIN_STATUS.token m

/-- R463: the PRIMARY sends a handover notice and will release the token at the next slot boundary; `reason` is the twin
fault class, or 0xFF for a command. -/
def startHandover (reason : Nat) (m : Mach) : Mach :=
  send .notice { m with twin := { m.twin with release := some reason } }

/-- R463: a fault of class `c` on a PRIMARY is a handover cause where its bit of HLT_TWIN_FAULTS is set and the STANDBY's
last heartbeat reported twin_ready. -/
def twinFault (c : Nat) (m : Mach) : Mach :=
  let ready := match m.twin.partner with
    | some h => h.ready
    | none => false
  if role m = 1 ∧ (rd HLT_TWIN_FAULTS m).getLsbD c = true ∧ ready = true ∧ m.twin.release = none then
    startHandover c m
  else m

/-- R460: the tick at which a change of class `cls` applies: class 2 is staged for the slot boundary that comes next. -/
def mirTick (cls : Nat) (m : Mach) : Nat := if cls = 2 then (nextSlot m).2 else tick m

/-- R460: the PRIMARY sends a change of a mirrored class with the class's next sequence number and its tick, while its frame timing runs
(R96). -/
def mirror (cls : Nat) (b : MirBody) (m : Mach) : Mach :=
  if role m = 1 ∧ timingOn m then
    let n := tabGet (fun _ => 0) m.twin.mirSeq cls
    send (.mirror n (mirTick cls m) b) { m with twin := { m.twin with mirSeq := tabPut (fun _ => 0) m.twin.mirSeq cls ((n + 1) % 2 ^ 32) } }
  else m

/-- R444: a receive (`tx` false) or transmit path is declared failed by a criterion. -/
def failPath (tx : Bool) (n crit : Nat) (m : Mach) : Mach :=
  let l := if tx then m.nvm.remap.txFailed else m.nvm.remap.rxFailed
  if l.contains n then m
  else
    let m1 := setRemap (fun r => if tx then { r with txFailed := n :: r.txFailed } else { r with rxFailed := n :: r.rxFailed }) m
    let m2 := logCode 0x0105 0 0xFF 0xFFFF n [BitVec.ofNat 8 (if tx then 1 else 0), BitVec.ofNat 8 crit]
      (setEvDie 0 HLT_EVENTS.path_failed m1)
    twinFault 4 (raiseReplace (if tx then HLT_REPLACE.tx_path else HLT_REPLACE.rx_path) m2)

/-- The receive, or transmit, path `n` is declared failed. -/
def rxFailed (n : Nat) (m : Mach) : Bool := m.nvm.remap.rxFailed.contains n
def txFailed (n : Nat) (m : Mach) : Bool := m.nvm.remap.txFailed.contains n

end Sys2Proof.Machine
end

