-- ==== Sys2Proof/Machine/Reservoir.lean ====
section
/-! DEFINITION. The reservoir's own commands (spec/11): scrubbing, remapping of rows and banks, the reservoir window,
partition quotas. -/

namespace Sys2Proof.Machine

/-- The core runs, and with it the reservoir. -/
def coreOn (m : Mach) : Bool := m.power == .coreRun && devState m != 7 && devState m != 0

/-- R328, R329: a read of the unit at `a` that finds `e`: whether the data is good, and the state after it. -/
def eccRead (a : Nat) (e : EccErr) (m : Mach) : Bool × Mach :=
  if poisoned a m then (false, reportUe a m)
  else match e with
    | .clean => (true, m)
    | .corrected => (true, reportCe m)
    | .double => (false, reportUe a (setPoison a true m))

/-- A read of the unit at `a` that finds `e` corrects it (R328). -/
def corrects (a : Nat) (e : EccErr) (m : Mach) : Bool := e == .corrected && !poisoned a m

/-! ### Spares (R333 to R335) -/

/-- R327: the physical bank that serves logical bank `b`. -/
def physBank (b : Nat) (m : Mach) : Nat := (tabGet (fun _ => none) m.nvm.remap.banks b).getD b

/-- A spare physical bank: 64 or 65, serving no logical bank and not retired. -/
def spareBank (m : Mach) : Option Nat :=
  [64, 65].find? fun p => !(m.nvm.remap.banks.any fun e => e.2 == some p) && !m.nvm.remap.banksDead.contains p

/-- RES_STATUS follows the kitty: spare banks left, fewest spare rows left in any bank. -/
def refreshRes (m : Mach) : Mach :=
  fset RES_STATUS.spare_rows (((poolsOf 5).map fun p => poolLeft 5 p m).foldl min 20)
    (fset RES_STATUS.spare_banks (poolLeft 6 0 m) m)

/-- R333: a retired row is copied into a spare row of its physical bank, which takes its addresses. -/
def doResRowRemap (bank : Fin 64) (row : Fin 1024) (m : Mach) : Mach :=
  let p := physBank bank m
  match m.hlt.running with
  | some r =>
    if r.kind.val = 5 ∧ r.pool = p ∧ r.phys = row.val ∧ 0 < poolLeft 5 p m then
      let n := poolCap 5 - poolLeft 5 p m
      let m1 := setRemap (fun t => { t with rows := tabPut (fun _ => 0) t.rows (1024 * p + row) (n + 1) }) m
      plannedDone 5 row bank n (setEv RES_EVENTS.row_remap (refreshRes (useSpare 5 p m1)))
    else m
  | none => m
def execResRowRemap (bank : Fin 64) (row : Fin 1024) (s : State) : Host.Outcome State Fault Refusal :=
  answer s (doResRowRemap bank row s.m)

/-- Logical bank `b` is served by physical bank `p` from now on; the bank that served it is retired (R441). -/
def bindBank (b p : Nat) (m : Mach) : Mach :=
  setRemap (fun t => { t with banks := tabPut (fun _ => none) t.banks b (some p), banksDead := physBank b m :: t.banksDead }) m

/-- R334: a retired bank is copied into a spare bank, which takes the logical bank; nothing is tagged. -/
def doResBankRemap (bank : Fin 64) (m : Mach) : Mach :=
  let p := physBank bank m
  match spareBank m with
  | some sp =>
    if isPlanned 6 p m then
      plannedDone 6 p bank sp (setEv RES_EVENTS.bank_remap (refreshRes (useSpare 6 0 (bindBank bank sp m))))
    else m
  | none => m
def execResBankRemap (bank : Fin 64) (s : State) : Host.Outcome State Fault Refusal :=
  answer s (doResBankRemap bank s.m)

/-- R335: every unit of logical bank `b` is poisoned. -/
def poisonBank (b : Nat) (m : Mach) : Mach :=
  { m with poisonBanks := if m.poisonBanks.contains b then m.poisonBanks else b :: m.poisonBanks,
           poison := m.poison.filter fun e => bankOfUnit e.1 != b }

/-- R335: a bank fails hard. A spare takes it with every unit poisoned; with no spare its lines stay poisoned and the
request is raised. -/
def doResBankHardFail (bank : Fin 64) (m : Mach) : Mach :=
  let p := physBank bank m
  let m1 := setEv RES_EVENTS.bank_fail (poisonBank bank (dropPlanned 6 p m))
  match spareBank m with
  | some sp => hardDone 6 p bank sp (refreshRes (useSpare 6 0 (bindBank bank sp m1)))
  | none => twinFault 5 (noSpare 6 2 p bank m1)
def execResBankHardFail (bank : Fin 64) (s : State) : Host.Outcome State Fault Refusal :=
  answer s (doResBankHardFail bank s.m)

/-! ### The reservoir window (R337) -/

/-- R338, R340: vector `i` of the weight pool was written: POOL's use follows the highest index; the change is mirrored. -/
def poolTouched (i : Nat) (m : Mach) : Mach :=
  mirror 4 (.poolVec (BitVec.ofNat 16 i) ((List.range 64).map fun k => resWord (partBase 1 m + 256 * i + 4 * k) m))
    (setUse 1 (max (partUse 1 m) (256 * (i + 1))) m)

/-- R340: a write of vector `i` fits POOL's quota. -/
def poolFits (i : Nat) (m : Mach) : Bool := decide (256 * (i + 1) ≤ partQuota 1 m)

/-- A client writes `bs` at `a` in POOL: refused by the quota, the write is ignored and quota is set (R340). -/
def poolBytes (a : Nat) (bs : List Byte) (m : Mach) : Mach :=
  let i := (a - partBase 1 m) / 256
  if poolFits i m then poolTouched i (resWrite a bs m) else setEv RES_EVENTS.quota m

/-- The address lies in the reservoir window and is a multiple of 4. -/
def resMapped (a : Nat) : Bool := decide (resLo ≤ a ∧ a < resHi ∧ a % 4 = 0)

/-- R337: a window write: into POOL and CUST only. -/
def windowWrite (a : Nat) (v : W) (m : Mach) : Mach :=
  if !resMapped a then setEv GCTL_GLOBAL_EVENTS.addr_err m
  else match partOf a m with
    | none => setEv RES_EVENTS.res_addr (setEv GCTL_GLOBAL_EVENTS.addr_err m)
    | some 1 => poolBytes a (leBytes 4 v.toNat) m
    | some 7 => resWrite a (leBytes 4 v.toNat) m
    | some _ => setEv RES_EVENTS.res_ro m

/-- R337: a window read that finds `e`: the data, and the state after it. FW reads 0 with res_ro; a poisoned unit reads 0
(R336). -/
def windowRead (a : Nat) (e : EccErr) (m : Mach) : W × Mach :=
  if !resMapped a then (0#32, setEv GCTL_GLOBAL_EVENTS.addr_err m)
  else match partOf a m with
    | none => (0#32, setEv RES_EVENTS.res_addr (setEv GCTL_GLOBAL_EVENTS.addr_err m))
    | some 6 => (0#32, setEv RES_EVENTS.res_ro m)
    | some _ =>
      let r := eccRead a e m
      (if r.1 then viewWord a m else 0#32, r.2)

def doResWindowWrite (a : Nat) (v : W) : Mach → Mach := gate resLo (windowWrite a v)
def execResWindowWrite (addr : Nat) (v : W) (s : State) : Host.Outcome State Fault Refusal :=
  answer s (doResWindowWrite addr v s.m)

/-- A word is returned to the reader. -/
def returnWord (r : W × Mach) : Mach := send (.rdata r.1) r.2

/-- Where the path does not reach the map, a read returns 0 (R495). -/
def gateRead (a : Nat) (f : Mach → W × Mach) (m : Mach) : W × Mach := if reach a m then f m else (0#32, m)

/-! ### Quotas (R339) -/

/-- A deck is loaded. -/
def deckLoaded (m : Mach) : Bool := fon GCTL_DEV_STATE.deck_loaded m && !m.img.deckId.isEmpty

/-- R338, R339: only DIR, POOL and CAP have a writable quota. -/
def quotaWritable (i : Nat) : Bool := decide (i < 3)

/-- R208, DIR_STATUS.over_quota: the directory's use exceeds its quota. -/
def refreshOverQuota (m : Mach) : Mach := fsetB DIR_STATUS.over_quota (decide (partQuota 0 m < partUse 0 m)) m

def quotaWrite (i : Fin 8) (v : W) (m : Mach) : Mach :=
  let x := v.toNat % 2048
  if !deckLoaded m || !quotaWritable i || decide (fget (RES_PART_SIZE.size i) m < x) then setEv RES_EVENTS.quota_err m
  else refreshOverQuota (fset (RES_PART_QUOTA.quota i) x m)
def doPartQuotaWrite (i : Fin 8) (v : W) : Mach → Mach := gate (RES_PART_QUOTA i) (quotaWrite i v)
def execPartQuotaWrite (i : Fin 8) (v : W) (s : State) : Host.Outcome State Fault Refusal :=
  answer s (doPartQuotaWrite i v s.m)

end Sys2Proof.Machine
end

