-- ==== Sys2Proof/Machine/TileOps.lean ====
section
/-! DEFINITION. The named operations of a signal tile (spec/10): tags, accumulators, moves, circular buffers, local
memory, the sequencer's loops, ports, transfers, faults, and the one wrapper that runs an instruction. -/

namespace Sys2Proof.Machine

/-! ### Tags (R107, R110) -/

/-- R110: the rank of a state, GAP highest, then SETTLING, COAST, VALID. -/
def tagRank : Tag → Nat
  | .valid => 0
  | .coast => 1
  | .settling => 2
  | .gap => 3

/-- The higher-ranked of two states. -/
def tagMax (a b : Tag) : Tag := if tagRank a < tagRank b then b else a

/-- Two tags merge into the higher state and the OR of ovr (R110). -/
def tagMerge (a b : Tag × Bool) : Tag × Bool := (tagMax a.1 b.1, a.2 || b.2)

/-- R107: the code of a state. -/
def tagCode : Tag → Nat
  | .valid => 0
  | .settling => 1
  | .coast => 2
  | .gap => 3

/-- The state of a code (R107). -/
def tagOf (c : Nat) : Tag := if c = 0 then .valid else if c = 1 then .settling else if c = 2 then .coast else .gap

/-- The tag of a sample. -/
def Sample.tag (s : Sample) : Tag × Bool := (s.st, s.ovr)

/-- Zero tagged GAP (R109). -/
def gapSample : Sample := { i := 0, q := 0, st := .gap, ovr := false }
/-- Zero, VALID. -/
def zeroSample : Sample := { i := 0, q := 0, st := .valid, ovr := false }

/-- R108: the 64-bit container of a sample. -/
def sampleWord (s : Sample) : Nat :=
  toBits 20 s.i + toBits 20 s.q * 2 ^ 20 + tagCode s.st * 2 ^ 40 + (if s.ovr then 2 ^ 42 else 0)

/-- The sample a container holds (R108). -/
def wordSample (x : Nat) : Sample :=
  { i := sext 20 x, q := sext 20 (x / 2 ^ 20), st := tagOf (x / 2 ^ 40 % 4), ovr := decide (x / 2 ^ 42 % 2 = 1) }

/-! ### Tile state -/

/-- A lane's bit in a mask. -/
def inLane (mask k : Nat) : Bool := mask.testBit k

/-- Scalar register `d`; S0 reads 0. -/
def Tile.s (x : Tile) (d : Nat) : W := if d = 0 then 0#32 else tabGet (fun _ => 0#32) x.sc d
/-- Scalar register `d` is written; S0 ignores writes. -/
def Tile.setS (x : Tile) (d : Nat) (v : W) : Tile :=
  if d = 0 then x else { x with sc := tabPut (fun _ => 0#32) x.sc d v }
/-- Vector register `v`: four samples. -/
def Tile.v (x : Tile) (v : Nat) : List Sample := tabGet (fun _ => [zeroSample, zeroSample, zeroSample, zeroSample]) x.vec v
def Tile.setV (x : Tile) (v : Nat) (l : List Sample) : Tile :=
  { x with vec := tabPut (fun _ => [zeroSample, zeroSample, zeroSample, zeroSample]) x.vec v l }
/-- Accumulator `k` and its tag. -/
def Tile.a (x : Tile) (k : Nat) : Int := tabGet (fun _ => 0) x.acc k
def Tile.aTag (x : Tile) (k : Nat) : Tag × Bool := tabGet (fun _ => (.valid, false)) x.accTag k
def Tile.setA (x : Tile) (k : Nat) (v : Int) (t : Tag × Bool) : Tile :=
  { x with acc := tabPut (fun _ => 0) x.acc k v, accTag := tabPut (fun _ => (.valid, false)) x.accTag k t }
/-- Buffer `c`. -/
def Tile.buf (x : Tile) (c : Nat) : CBuf := tabGet (fun _ => {}) x.bufs c
def Tile.setBuf (x : Tile) (c : Nat) (b : CBuf) : Tile := { x with bufs := tabPut (fun _ => {}) x.bufs c b }
/-- A byte of local memory. What nothing has written reads 0 (DESIGN CHOICE, assumption 3). -/
def Tile.byte (x : Tile) (a : Nat) : Byte := tabGet memDefault x.mem a
def Tile.bytes (x : Tile) (a n : Nat) : List Byte := (List.range n).map fun i => x.byte (a + i)
def Tile.setBytes (x : Tile) (a : Nat) (bs : List Byte) : Tile :=
  { x with mem := bs.zipIdx.foldl (fun t p => tabPut memDefault t (a + p.2) p.1) x.mem }
/-- A tile event bit is set (TILE_EVENTS). -/
def Tile.ev (x : Tile) (i : Nat) : Tile := { x with events := x.events ||| (1#32 <<< i) }
def Tile.evIf (x : Tile) (b : Bool) (i : Nat) : Tile := if b then x.ev i else x

/-! ### Accumulators (R301, R302) -/

/-- R302: lane `k` takes the exact value `v`, saturated to 48 bits, with the tag `t`; a saturation sets the lane's bit of
TILE_LANE_OVF, lane_ovf, and ovr in the tag. -/
def Tile.accSet (x : Tile) (k : Nat) (v : Int) (t : Tag × Bool) : Tile :=
  let s := satS 48 v
  if s = v then x.setA k v t
  else ({ x with laneOvf := x.laneOvf ||| 2 ^ k }.setA k s (t.1, true)).ev 1

/-! ### Moves (R303, R304) -/

/-- The shifted value of an accumulator, towards minus infinity. -/
def shifted (v : Int) (sh : Nat) : Int := Int.fdiv v (2 ^ sh)

/-- The tag of lane pair `i`: the higher of its lanes' (R305). -/
def Tile.pairTag (x : Tile) (i : Nat) : Tag × Bool := tagMerge (x.aTag (2 * i)) (x.aTag (2 * i + 1))

/-- The sample that a move of pair `i` writes, and whether a part was clipped (R303, R304, R305). -/
def Tile.moveSample (x : Tile) (i : Nat) : Sample × Bool :=
  let t := x.pairTag i
  if t.1 = .gap then ({ gapSample with ovr := t.2 }, false)
  else
    let re := shifted (x.a (2 * i)) x.shs
    let im := shifted (x.a (2 * i + 1)) x.shs
    let clip := decide (satS 20 re ≠ re) || decide (satS 20 im ≠ im)
    ({ i := satS 20 re, q := satS 20 im, st := t.1, ovr := t.2 || clip }, clip)

/-- The word that a move of lane `k` writes, and whether it was clipped. -/
def Tile.moveWord (x : Tile) (k : Nat) (u : Bool) : W × Bool :=
  if (x.aTag k).1 = .gap then (0#32, false)
  else
    let v := shifted (x.a k) x.shw
    let c := if u then max 0 (min v (2 ^ 32 - 1)) else satS 32 v
    (BitVec.ofInt 32 c, decide (c ≠ v))

/-! ### Circular buffers (R306 to R308) -/

/-- The buffer as the next access finds it: after a change of `len`, `off` is reduced (R308). -/
def CBuf.prep (b : CBuf) : CBuf :=
  if b.lenNew && decide (0 < b.len) then { b with off := b.off % b.len, lenNew := false } else { b with lenNew := false }

/-- R306: the address of element `i` of size `z`. -/
def CBuf.elem (b : CBuf) (i z : Nat) : Nat :=
  if 0 < b.len then b.base + (b.off + i * z) % b.len else b.base + b.off + i * z

/-- R306: the buffer after one access. -/
def CBuf.advance (b : CBuf) : CBuf :=
  let md : Int := if 0 < b.len then b.len else 65536
  { b with off := (((b.off : Int) + b.stride) % md).toNat }

/-- R307: the fault of an element address: 2 ADDR, 3 ALIGN, 0 none. -/
def addrFault (a z : Nat) : Nat := if 65536 ≤ a then 2 else if a % z ≠ 0 then 3 else 0

/-- R306, R307: an access through buffer `c` of the elements `is` of size `z`: their addresses, and the tile with the
buffer advanced; or the fault of an offset that is not a multiple of `z`, or of the first element that has one. -/
def Tile.access (x : Tile) (c z : Nat) (is : List Nat) : Except Nat (List Nat × Tile) :=
  let b := (x.buf c).prep
  let as := is.map fun i => b.elem i z
  if 0 < b.len ∧ b.off % z ≠ 0 ∧ is ≠ [] then .error 3
  else match as.find? fun a => addrFault a z != 0 with
  | some a => .error (addrFault a z)
  | none => .ok (as, x.setBuf c b.advance)

/-- The sample at a local address. -/
def Tile.sampleAt (x : Tile) (a : Nat) : Sample := wordSample (leVal (x.bytes a 8))
/-- The word at a local address. -/
def Tile.wordAt (x : Tile) (a : Nat) : W := BitVec.ofNat 32 (leVal (x.bytes a 4))
def Tile.putSample (x : Tile) (a : Nat) (s : Sample) : Tile := x.setBytes a (leBytes 8 (sampleWord s))
def Tile.putWord (x : Tile) (a : Nat) (v : W) : Tile := x.setBytes a (leBytes 4 v.toNat)

/-- A word operand as an integer: zero-extended for unsigned, else sign-extended. -/
def wordInt (u : Bool) (v : W) : Int := if u then (v.toNat : Int) else v.toInt

/-- The pairs (samples) that a lane mask touches. -/
def pairsOf (m : Nat) : List Nat := [0, 1, 2, 3].filter fun i => m.testBit (2 * i) || m.testBit (2 * i + 1)
/-- The pairs of a pair mask, and the lanes of a lane mask. -/
def pairsIn (pm : Nat) : List Nat := [0, 1, 2, 3].filter fun i => pm.testBit i
def lanesIn (m : Nat) : List Nat := (List.range 8).filter fun k => m.testBit k

/-! ### Sequencer (R313, R315) -/

/-- The instruction at `p` has completed and would go on at `nxt`: a loop that ends at `p` repeats, or ends (R315). -/
def endLoops (p nxt : Nat) : List (Nat × Nat × Nat) → Nat × List (Nat × Nat × Nat)
  | [] => (nxt, [])
  | (s, e, r) :: l => if e = p then (if 1 < r then (s, (s, e, r - 1) :: l) else endLoops p nxt l) else (nxt, (s, e, r) :: l)

/-- R315: a jump to `t` abandons the outermost loop whose body it leaves and every loop inside it. -/
def leaveLoops (t : Nat) (l : List (Nat × Nat × Nat)) : List (Nat × Nat × Nat) :=
  (l.reverse.takeWhile fun x => decide (x.1 ≤ t ∧ t ≤ x.2.1)).reverse

/-- The tile goes on after the instruction at its PC. -/
def Tile.next (x : Tile) : Tile :=
  let r := endLoops x.pc ((x.pc + 1) % 4096) x.loops
  { x with pc := r.1, loops := r.2 }

/-- The tile goes on at `t`. -/
def Tile.jump (x : Tile) (t : Nat) : Tile := { x with pc := t, loops := leaveLoops t x.loops }

/-! ### Running an instruction -/

/-- What an instruction does: it faults with a code (R317), or leaves a tile. -/
inductive TOut where
  | fault (code : Nat)
  | done (x : Tile)

/-- The address of TILE_EVENTS of physical tile `t`. -/
def tileEventsReg (t : Nat) : Nat := tileBase t + 0x8

/-- Tile `t` becomes `y`. Every event bit that went from 0 to 1 is logged and may raise the summary (R451, R505). -/
def commitTile (t : Nat) (y : Tile) (m : Mach) : Mach :=
  let old := (getTile t m).events
  let was := summaryBit m 16
  let m1 := setTile t y m
  let m2 := each ((List.range 8).filter fun i => y.events.getLsbD i && !old.getLsbD i)
    (fun i s => logPut (stickyEntry ⟨tileEventsReg t, i, 1⟩) s) m1
  if y.events = 0#32 then m2 else summaryRise 16 was m2

/-- Tile event bit `i` of tile `t` is set. -/
def tileEv (t i : Nat) (m : Mach) : Mach := commitTile t ((getTile t m).ev i) m

/-- R317: the tile stops in FAULT at the faulting instruction. -/
def Tile.faulted (x : Tile) (code : Nat) : Tile := ({ x with state := 3, fault := code, stall := none }).ev 0

/-- The tile runs from its entry, with empty stacks and its counts at 0 (R322). -/
def Tile.started (x : Tile) : Tile :=
  { x with state := 1, fault := 0, pc := x.entry, call := [], loops := [], evcount := 0, stalls := 0, stall := none,
           haltReq := false }

/-! ### Loading (R320, R474) -/

/-- A record of the tile section (R474). -/
structure TileRec where
  logical : Nat
  owner : Nat
  pausable : Bool
  start : Bool
  entry : Nat
  shs : Nat
  shw : Nat
  ports : List (Nat × Nat × Nat)
  bufs : List CBuf
  prog : List W
  exts : List (Nat × List Byte)
  deriving DecidableEq, Repr

/-- `n` extents from the front of `l`: offset, length, data padded to 4 bytes; and what follows them. -/
def parseExts : Nat → List Byte → List (Nat × List Byte) × List Byte
  | 0, l => ([], l)
  | n + 1, l =>
    let len := leAt l 2 2
    let r := parseExts n (l.drop (4 + (len + 3) / 4 * 4))
    ((leAt l 0 2, (l.drop 4).take len) :: r.1, r.2)

/-- One record from the front of `l`, and what follows it (R474). -/
def parseTile (l : List Byte) : TileRec × List Byte :=
  let nw := leAt l 6 2
  let e := parseExts (leAt l 8 2) (l.drop (156 + 4 * nw))
  ({ logical := byteAt l 0, owner := byteAt l 1, pausable := (l.getD 2 0#8).getLsbD 0, start := (l.getD 2 0#8).getLsbD 1,
     entry := leAt l 4 2 % 4096, shs := byteAt l 10 % 32, shw := byteAt l 11 % 32,
     ports := (List.range 4).map fun p => (byteAt l (12 + 4 * p), byteAt l (13 + 4 * p), byteAt l (14 + 4 * p)),
     bufs := (List.range 8).map fun c =>
       { base := leAt l (28 + 16 * c) 4 % 65536, len := leAt l (32 + 16 * c) 4 % 131072, off := leAt l (36 + 16 * c) 4 % 65536,
         stride := sext 16 (leAt l (40 + 16 * c) 4) },
     prog := (List.range nw).map fun i => BitVec.ofNat 32 (leAt l (156 + 4 * i) 4), exts := e.1 }, e.2)

/-- The records of a tile section; `fuel` bounds their number (logical tiles are 0 to 127). -/
def parseTiles : Nat → List Byte → List TileRec
  | 0, _ => []
  | _, [] => []
  | fuel + 1, l => let r := parseTile l; r.1 :: parseTiles fuel r.2

/-- Loading writes a record into a tile (R320), which is HALTED, or starts at its entry if the deck asks for it. -/
def Tile.load (x : Tile) (r : TileRec) (grant : List Nat) : Tile :=
  let y : Tile := { x with
    owner := r.owner, pausable := r.pausable, entry := r.entry, shs := r.shs, shw := r.shw, state := 0, fault := 0,
    pc := r.entry, call := [], loops := [], stall := none, haltReq := false, paused := false, discard := false,
    ports := r.ports.zipIdx.foldl (fun t p => tabPut (fun _ => (0, 0, 0)) t p.2 p.1) [],
    bufs := r.bufs.zipIdx.foldl (fun t p => tabPut (fun _ => {}) t p.2 p.1) [],
    prog := r.prog.zipIdx.foldl (fun t p => tabPut (fun _ => 0#32) t p.2 p.1) x.prog, grant := grant }
  let z := r.exts.foldl (fun w e => w.setBytes e.1 e.2) y
  if r.start then z.started else z

/-- The deck's record for logical tile `l`. -/
def tileRec (l : Nat) (m : Mach) : Option TileRec := (parseTiles 128 (deckSect 3 m)).find? fun r => r.logical == l

/-- The partitions the interconnect grants logical tile `l`. -/
def tileGrant (l : Nat) (m : Mach) : List Nat := Config.tileGrant (deckSect 1 m) l

/-- R318, R325: the health unit reloads physical tile `t` from the deck's section and starts it at its entry. -/
def reloadTile (t : Nat) (m : Mach) : Mach :=
  let x := getTile t m
  match tileRec x.logical m with
  | some r => commitTile t (x.load r (tileGrant x.logical m)).started m
  | none => commitTile t x.started m

/-- The physical quadrant of tile `t` (R296). -/
def tileQuad (t : Nat) : Nat := t / 36

/-- R325: what a service loses with the job in progress of a failed tile: acquisition marks the gap mask of its report;
adaptation discards the cycle of its quadrant; calibration rejects the trick's paths. -/
def loseJob (owner q : Nat) (m : Mach) : Mach :=
  match owner with
  | 1 => { m with acq := { m.acq with job := m.acq.job.map fun j => { j with lost := true } } }
  | 2 => each [2 * q, 2 * q + 1] (fun o s => match tabGet (fun _ => none) s.pdCap o with
    | some c => fcnt (QUAD_PD_CYCLES.discards c.path) 1 <| setUse 2 (partUse 2 s - c.bytes) { s with pdCap := tabPut (fun _ => none) s.pdCap o none }
    | none => s) m
  | 3 => { m with cal := { m.cal with trick := m.cal.trick.map fun k => { k with quadsAt := [] },
                                      est := m.cal.est.map fun k => { k with ok := [] } } }
  | _ => m

/-- R318: a faulted program of a service is reloaded, and the service loses its job; a fault in a program of yours is yours to
clear. -/
def vendorReload (t : Nat) (m : Mach) : Mach :=
  if (getTile t m).owner = 0 then m else reloadTile t (loseJob (getTile t m).owner (tileQuad t) m)

/-! ### The instruction words (R313) -/

/-- An instruction word: opcode and the other fields. -/
def tileWord (op f : Nat) : Nat := op * 2 ^ 26 + f
/-- The buffer field, a flag bit. -/
def bufField (c : Nat) : Nat := c * 2 ^ 23
def flagBit (b : Bool) (i : Nat) : Nat := if b then 2 ^ i else 0

/-- R313: the word of an instruction. In XFER bit 8 is both the direction and the lowest bit of the length's register
(DEDUCED, assumption 21). -/
def tileCode (i : Instr) : Nat :=
  match i with
  | .nop _ => tileWord 0x00 0
  | .halt _ => tileWord 0x01 0
  | .jmp _ tgt => tileWord 0x02 tgt.toNat
  | .jz _ d tgt => tileWord 0x03 (d * 2 ^ 16 + tgt.toNat)
  | .jnz _ d tgt => tileWord 0x04 (d * 2 ^ 16 + tgt.toNat)
  | .call _ tgt => tileWord 0x05 tgt.toNat
  | .ret _ => tileWord 0x06 0
  | .loop _ n e => tileWord 0x07 (n.toNat * 2 ^ 12 + e.toNat)
  | .loops _ d e => tileWord 0x08 (d * 2 ^ 16 + e.toNat)
  | .waitslot _ => tileWord 0x09 0
  | .ckpt _ => tileWord 0x0A 0
  | .signal _ code => tileWord 0x0B code.toNat
  | .ldi _ d k => tileWord 0x10 (d * 2 ^ 16 + k.toNat)
  | .ldih _ d k => tileWord 0x11 (d * 2 ^ 16 + k.toNat)
  | .alu _ d a b f => tileWord 0x12 (d * 2 ^ 16 + a * 2 ^ 12 + b * 2 ^ 8 + f.toNat)
  | .addi _ d a k => tileWord 0x13 (d * 2 ^ 16 + a * 2 ^ 12 + k.toNat)
  | .rdsp _ d sp => tileWord 0x14 (d * 2 ^ 16 + sp.toNat)
  | .wrsp _ a sp => tileWord 0x15 (a * 2 ^ 12 + sp.toNat)
  | .ldw _ c d => tileWord 0x16 (bufField c + d * 2 ^ 16)
  | .stw _ c a => tileWord 0x17 (bufField c + a * 2 ^ 12)
  | .cbset _ c r a => tileWord 0x18 (bufField c + r * 2 ^ 20 + a * 2 ^ 12)
  | .vld _ c v => tileWord 0x20 (bufField c + v * 2 ^ 20)
  | .vst _ c v => tileWord 0x21 (bufField c + v * 2 ^ 20)
  | .vin _ v p => tileWord 0x22 (v * 2 ^ 20 + p)
  | .clr _ k => tileWord 0x23 k.toNat
  | .mac _ c v k => tileWord 0x24 (bufField c + v * 2 ^ 20 + k.toNat)
  | .cmac _ c v j pm => tileWord 0x25 (bufField c + v * 2 ^ 20 + flagBit j 8 + pm.toNat)
  | .accw _ c u k => tileWord 0x26 (bufField c + flagBit u 8 + k.toNat)
  | .ldacc _ c u k => tileWord 0x27 (bufField c + flagBit u 8 + k.toNat)
  | .red _ k => tileWord 0x28 k.toNat
  | .cred _ pm => tileWord 0x29 pm.toNat
  | .movs _ c pm => tileWord 0x30 (bufField c + pm.toNat)
  | .movw _ c u k => tileWord 0x31 (bufField c + flagBit u 8 + k.toNat)
  | .movo _ p pm => tileWord 0x32 (p * 2 ^ 8 + pm.toNat)
  | .setsh _ shw shs => tileWord 0x33 (shw.toNat * 2 ^ 8 + shs.toNat)
  | .sclr _ mn => tileWord 0x38 (flagBit mn 8)
  | .sacc _ k => tileWord 0x39 k.toNat
  | .smem _ c u k => tileWord 0x3A (bufField c + flagBit u 8 + k.toNat)
  | .xfer _ c a b toRes => tileWord 0x3C (bufField c + a * 2 ^ 12 + (b * 2 ^ 8 ||| flagBit toRes 8))
  | .waitx _ => tileWord 0x3D 0
  | _ => 2 ^ 32

/-- R313: the opcodes, each with its named bits. -/
def tileOpcodes : List (Nat × Nat) :=
  [(0x00, 0), (0x01, 0), (0x02, 0xFFF), (0x03, 0xF0FFF), (0x04, 0xF0FFF), (0x05, 0xFFF), (0x06, 0), (0x07, 0x3FFFFFF),
   (0x08, 0xF0FFF), (0x09, 0), (0x0A, 0), (0x0B, 0xFF), (0x10, 0xFFFFF), (0x11, 0xFFFFF), (0x12, 0xFFF0F), (0x13, 0xFFFFF),
   (0x14, 0xF00FF), (0x15, 0x0F0FF)] ++
  [(0x16, 0x38F0000), (0x17, 0x380F000), (0x18, 0x3B0F000), (0x20, 0x3F00000), (0x21, 0x3F00000), (0x22, 0x0700001),
   (0x23, 0xFF), (0x24, 0x3F000FF), (0x25, 0x3F0010F), (0x26, 0x38001FF), (0x27, 0x38001FF), (0x28, 0xFF), (0x29, 0xF)] ++
  [(0x30, 0x380000F), (0x31, 0x38001FF), (0x32, 0x10F), (0x33, 0x1F1F), (0x38, 0x100), (0x39, 0xFF), (0x3A, 0x38001FF),
   (0x3C, 0x380FF00), (0x3D, 0)]

/-- R313: the word's opcode is in the table, and its reserved bits are 0. -/
def wordLegal (w : Nat) : Bool := tileOpcodes.any fun e => e.1 == w / 2 ^ 26 && w % 2 ^ 26 &&& e.2 == w % 2 ^ 26

/-- The word at the PC. -/
def Tile.wordAtPc (x : Tile) : Nat := (tabGet (fun _ => 0#32) x.prog x.pc).toNat

/-- R322: the current instruction has completed; a tile that was told to halt stops. -/
def Tile.stopIfAsked (x : Tile) : Tile := if x.haltReq && x.state == 1 then { x with state := 0, haltReq := false } else x

/-- R298, R313: physical tile `t` executes the instruction `i`, which takes `ev` MAC-lane events: nothing unless the tile is RUNNING
and not paused and `i`'s word stands at its PC, or none of the table's; a fault under R317 (and R318 for a service's tile), with
another word an ILLEGAL one; else the tile the instruction leaves. -/
def runTile (i : Instr) (t : Nat) (ev : Nat) (f : Tile → TOut) (m : Mach) : Mach :=
  let x := getTile t m
  if x.state ≠ 1 ∨ x.paused = true then m
  else if x.wordAtPc ≠ tileCode i then
    if wordLegal x.wordAtPc then m else vendorReload t (commitTile t (x.faulted 1) m)
  else match f x with
    | .fault c => vendorReload t (commitTile t (x.faulted c) m)
    | .done y => commitTile t ({ y with evcount := min 0xFFFFFFFF (x.evcount + ev) } : Tile).stopIfAsked m

/-- An access through a buffer, then what the instruction does with the addresses. -/
def viaBuf (x : Tile) (c z : Nat) (is : List Nat) (f : List Nat → Tile → Tile) : TOut :=
  match x.access c z is with
  | .error code => .fault code
  | .ok (as, y) => .done ((f as y).next)

end Sys2Proof.Machine
end

