-- ==== Sys2Proof/Machine/Capture.lean ====
section
/-! DEFINITION. Captures (spec/11, R341 to R347): the eight capture sets that record sample streams into the CAP
partition. -/

namespace Sys2Proof.Machine

/-! ### Sources and rates -/

/-- State of set `c`: 0 FREE, 1 ARMED, 2 RUNNING, 3 HELD. -/
def capState (c : Nat) (m : Mach) : Nat := fget (RES_CAP_STATUS.state c) m
def capMode (c : Nat) (m : Mach) : Nat := fget (RES_CAP_CTRL.mode c) m
/-- Kind 1: element streams (R341). -/
def capElem (c : Nat) (m : Mach) : Bool := fon (RES_CAP_CTRL.kind c) m
def capLen (c : Nat) (m : Mach) : Nat := (rd (RES_CAP_LEN c) m).toNat
def capBase (c : Nat) (m : Mach) : Nat := (rd (RES_CAP_BASE c) m).toNat
def capNrec (c : Nat) (m : Mach) : Nat := (rd (RES_CAP_NREC c) m).toNat

/-- The source mask: bits 0 to 31 of LO, 32 to 63 of HI (R341). -/
def capMask (c : Nat) (m : Mach) : Nat := (rd (RES_CAP_SRC_LO c) m).toNat + (rd (RES_CAP_SRC_HI c) m).toNat * 2 ^ 32

/-- The selected sources in ascending order. -/
def capSources (c : Nat) (m : Mach) : List Nat := paths64.filter fun i => (capMask c m).testBit i

/-- The chain that source `i` of set `c` comes from. -/
def capChain (c i : Nat) (m : Mach) : ChainId := if capElem c m then .ddc (toPath i) else .obs (toObs i)

/-- The half-band stages in force of the chain of source `i`. -/
def capStages (c i : Nat) (m : Mach) : Nat := fget (QUAD_DDC_STATUS.nstages_act (capChain c i m)) m

/-- Bytes of one record (R341). -/
def capRecBytes (c : Nat) (m : Mach) : Nat := 8 * (capSources c m).length

/-- The converter rate in 10 kHz: 2 457.6 MS/s in Plan A, 2 949.12 MS/s in Plan B (spec/13). -/
def convRate (m : Mach) : Nat := if fget CLK_STATUS.plan m = 0 then 245760 else 294912

/-- The sample rate of set `c` in 10 kHz, times 2^16. -/
def capRate (c : Nat) (m : Mach) : Nat :=
  ((capSources c m).map fun i => convRate m * 2 ^ (16 - capStages c i m)).sum

/-- R343 check 1: the mask is not empty and names valid sources, which share one rate. -/
def capSrcOk (c : Nat) (m : Mach) : Bool :=
  match capSources c m with
  | [] => false
  | i :: l => (capElem c m || decide (capMask c m < 256)) && l.all fun k => capStages c k m == capStages c i m

/-! ### ARM (R343) -/

/-- The bytes a non-FREE set holds: its length, or the greater pending one, which was allocated when written (R346). -/
def capHeld (c : Nat) (m : Mach) : Nat := max (capLen c m) ((getCap c m).lenPend.getD 0)

/-- R343 check 3: `n` bytes at set `c`'s base are aligned, lie in CAP below the service area and overlap no other set. -/
def capFits (c n : Nat) (m : Mach) : Bool :=
  let b := capBase c m
  decide (b % 64 = 0 ∧ 4096 ≤ n) && inPart 2 b n m &&
    decide (b + n + (rd RES_CAP_SVC m).toNat ≤ partBase 2 m + partSize 2 m) &&
    (List.range 8).all fun k => decide (k = c ∨ capState k m = 0 ∨ b + n ≤ capBase k m ∨ capBase k m + capHeld k m ≤ b)

/-- `n` more bytes of CAP are within its quota (R340). -/
def capQuota (n : Nat) (m : Mach) : Bool := decide (partUse 2 m + n ≤ partQuota 2 m)

/-- R343 check 5: ARMED and RUNNING sets, `c` included, take at most 7.0 G samples per second. -/
def capBwOk (c : Nat) (m : Mach) : Bool :=
  decide ((((List.range 8).filter fun k => k == c || capState k m == 1 || capState k m == 2).map
    fun k => capRate k m).sum ≤ 700000 * 2 ^ 16)

/-- R343: the flag of the first check that fails, if one does. -/
def armRefusal (c : Nat) (m : Mach) : Option Fld :=
  let mode := capMode c m
  let st := capState c m
  if ¬ (st = 0 ∨ st = 3) then some RES_EVENTS.cap_err
  else if ¬ (mode = 1 ∨ mode = 2) ∨ capSrcOk c m = false then some RES_EVENTS.cap_err
  else if capElem c m ∧ fget BMU_CFG.mode_ul m = 0 then some RES_EVENTS.cap_err
  else if capFits c (capLen c m) m = false then some RES_EVENTS.cap_err
  else if st = 0 ∧ capQuota (capLen c m) m = false then some RES_EVENTS.quota
  else if capBwOk c m = false then some RES_EVENTS.cap_bw
  else if mode = 1 ∧ capLen c m < capNrec c m * capRecBytes c m then some RES_EVENTS.cap_err
  else none

/-- The state of set `c` becomes `st`. -/
def setCapState (c st : Nat) (m : Mach) : Mach := fset (RES_CAP_STATUS.state c) st m

/-- The set's pointers, flags and counts as ARM leaves them (DEDUCED, assumption 22: the status fields count since ARM,
and a SNAPSHOT writes from its base). -/
def clearCap (c : Nat) (m : Mach) : Mach :=
  setCap c { mask := capSources c m, armAt := tick m }
    (wr (RES_CAP_WRAPS c) 0#32 (wr (RES_CAP_RPTR c) 0#32 (wr (RES_CAP_WPTR c) 0#32 (wr (RES_CAP_STATUS c) 0#32 m))))

/-- ARM: a refused one changes nothing but its flag; an accepted one of a FREE set takes its length from the quota. -/
def capArm (c : Nat) (m : Mach) : Mach :=
  match armRefusal c m with
  | some f => setEv f m
  | none =>
    let m1 := if capState c m = 0 then setUse 2 (partUse 2 m + capLen c m) m else m
    setCapState c 1 (clearCap c m1)
def execCapArm (c : Fin 8) (s : State) : Host.Outcome State Fault Refusal :=
  answer s (gate (RES_CAP_CMD c) (capArm c) s.m)

/-! ### Running -/

/-- R343: the instant from which a set with trigger `t` records, in ticks: now, the slot boundary, the frame boundary, or
the tick compared. -/
def trigTick (t : Nat) (m : Mach) : Nat :=
  if t = 1 then m.slotStart else if t = 2 then m.frameStart else tick m

/-- R343: set `c`'s trigger has come: after ARM, a boundary that it waits for has passed, or the tick count matches. -/
def trigDue (c : Nat) (m : Mach) : Bool :=
  match fget (RES_CAP_CTRL.trig c) m with
  | 0 => true
  | 3 => decide (tick m % 2 ^ 32 = (rd (RES_CAP_TRIG c) m).toNat)
  | t => decide ((getCap c m).armAt < trigTick t m)

/-- R129, R342: the coupler positions of receivers `o` to `o` + 3, a byte each: coupler_n, and bit 7 where selected. -/
def couplerWord (c o : Nat) (m : Mach) : W :=
  BitVec.ofNat 32 ((List.range 4).map fun k =>
    (fget (QUAD_OBS_COUPLER.coupler_n (o + k)) m + (if (capMask c m).testBit (o + k) then 128 else 0)) * 2 ^ (8 * k)).sum

/-- R129: coupler `o` changed: every running set that records it flags the change. -/
def couplerChanged (o : Nat) (m : Mach) : Mach :=
  each (List.range 8) (fun c s =>
    if capState c s = 2 ∧ capElem c s = false ∧ (capMask c s).testBit o then
      fset ⟨if o < 4 then RES_CAP_CPL_LO c else RES_CAP_CPL_HI c, 8 * (o % 4) + 6, 1⟩ 1 s
    else s) m

/-- An armed set's trigger fires: it is RUNNING from the trigger instant on; earlier samples are not recorded. For kind 0
the coupler positions are recorded (R342). -/
def capTrigger (c : Nat) (m : Mach) : Mach :=
  if capState c m = 1 ∧ trigDue c m = true then
    let at_ := trigTick (fget (RES_CAP_CTRL.trig c) m) m
    let x := getCap c m
    let m1 := setCapState c 2 (setCap c { x with trigAt := at_, wait := x.wait.map fun e =>
      (e.1, e.2.filter fun p => decide (16 * at_ ≤ p.1)) } m)
    if capElem c m then m1
    else wr (RES_CAP_CPL_HI c) (couplerWord c 4 m) (wr (RES_CAP_CPL_LO c) (couplerWord c 0 m) m1)
  else m
def execCapTrigger (c : Fin 8) (s : State) : Host.Outcome State Fault Refusal := answer s (capTrigger c s.m)

/-- R347: source `i` delivers samples; else it is recorded as zero tagged GAP. -/
def capLive (c i : Nat) (m : Mach) : Bool :=
  if capElem c m then decide (2 ≤ quadState (i / 16) m ∧ fget BMU_CFG.mode_ul m ≠ 0) else decide (2 ≤ quadState (i / 2) m)

/-- The samples of source `i` that wait for their record. -/
def capWait (c i : Nat) (m : Mach) : List (Nat × Sample) := tabGet (fun _ => []) (getCap c m).wait i

/-- The time of the next record in 1/16 tick: the earliest waiting sample of a live source; none while some live source
has not delivered. With no live source the record falls on the present tick. -/
def recTime (c : Nat) (m : Mach) : Option Nat :=
  let l := (capSources c m).filter fun i => capLive c i m
  match l.map fun i => (capWait c i m).head? with
  | [] => some (16 * tick m)
  | heads => if heads.all Option.isSome then some ((heads.filterMap id).map Prod.fst).min?.get! else none

/-- The samples of the record at time `t`. -/
def recSamples (c t : Nat) (m : Mach) : List Sample :=
  (capSources c m).map fun i =>
    if capLive c i m then
      match capWait c i m with
      | (t', x) :: _ => if t' = t then x else gapSample
      | [] => gapSample
    else gapSample

/-- The samples of a record leave the waiting ones. -/
def takeRec (c t : Nat) (m : Mach) : Mach :=
  let x := getCap c m
  setCap c { x with wait := (capSources c m).foldl (fun w i =>
    let l := tabGet (fun _ => []) w i
    tabPut (fun _ => []) w i (if capLive c i m then l.dropWhile fun p => decide (p.1 ≤ t) else [])) x.wait } m

/-- R346 CAP_WRAP: the write pointer returns to base. A pending length applies; a read pointer at or beyond it is placed
at base with ptr_clip, and a decrease returns the difference to the quota. -/
def capWrap (c : Nat) (m : Mach) : Mach :=
  let m1 := wr (RES_CAP_WRAPS c) (rd (RES_CAP_WRAPS c) m + 1#32) (wr (RES_CAP_WPTR c) 0#32 m)
  let x := getCap c m1
  match x.lenPend with
  | none => m1
  | some n =>
    let old := capLen c m1
    let m2 := fset (RES_CAP_STATUS.len_pending c) 0 (wr (RES_CAP_LEN c) (BitVec.ofNat 32 n) m1)
    let m3 := if n < old then setUse 2 (partUse 2 m2 - (old - n)) m2 else m2
    let r := (rd (RES_CAP_RPTR c) m3).toNat
    if n ≤ r then
      setEv RES_EVENTS.ptr_clip (wr (RES_CAP_RPTR c) 0#32 (setCap c { x with lenPend := none, unread := 0 } m3))
    else
      setCap c { x with lenPend := none, unread := if x.unread = 0 then 0 else n - r } m3

/-- The samples of a record are stored from the write pointer on, one 64-bit unit each, wrapping at the buffer's length
(R108, R341). -/
def capStore (c : Nat) : List Sample → Mach → Mach
  | [], m => m
  | x :: l, m =>
    let w := (rd (RES_CAP_WPTR c) m).toNat
    let m1 := resWrite (capBase c m + w) (leBytes 8 (sampleWord x)) m
    let m2 := wr (RES_CAP_WPTR c) (BitVec.ofNat 32 (w + 8)) (setCap c { getCap c m1 with unread := (getCap c m1).unread + 8 } m1)
    capStore c l (if capLen c m ≤ w + 8 then capWrap c m2 else m2)

/-- R344: with hold = 0 a write that passed the read pointer pushes it forward by whole records, counted as lost. -/
def capPush (c : Nat) (m : Mach) : Mach :=
  let x := getCap c m
  let n := capRecBytes c m
  let extra := x.unread - capLen c m
  let k := (extra + n - 1) / n
  if extra = 0 then m
  else
    fcnt (RES_CAP_STATUS.lost c) k
      (wr (RES_CAP_RPTR c) (BitVec.ofNat 32 (((rd (RES_CAP_RPTR c) m).toNat + k * n) % capLen c m))
        (setCap c { x with unread := x.unread - k * n } m))

/-- The record `ss` is written. -/
def capWriteRec (c t : Nat) (ss : List Sample) (m : Mach) : Mach :=
  let x := getCap c m
  let m1 := if x.recs = 0 then
      wr (RES_CAP_T0_HI c) (BitVec.ofNat 32 (t / 2 ^ 32)) (wr (RES_CAP_T0_LO c) (BitVec.ofNat 32 t) m)
    else m
  let m2 := whenB (ss.any fun s => s.st == .gap) (fset (RES_CAP_STATUS.gap_seen c) 1)
    (whenB (ss.any fun s => s.ovr) (fset (RES_CAP_STATUS.ovr_seen c) 1) m1)
  let m3 := setCap c { getCap c m2 with recs := x.recs + 1 } m2
  capPush c (capStore c ss m3)

/-- CAP_RECORD: a running set records once every live source has delivered, until it stops or its SNAPSHOT is full. With
hold = 1 a record that does not fit before the read pointer is dropped whole (R344). -/
def capRecord (c : Nat) (m : Mach) : Mach :=
  let x := getCap c m
  let snap := capMode c m == 1
  if capState c m ≠ 2 ∨ x.stopping ≠ 0 ∨ (snap = true ∧ capNrec c m ≤ x.recs) then m
  else match recTime c m with
    | none => m
    | some t =>
      let ss := recSamples c t m
      let m1 := takeRec c t m
      if !snap && fon (RES_CAP_CTRL.hold c) m && decide (capLen c m < x.unread + capRecBytes c m) then
        fcnt (RES_CAP_STATUS.lost c) 1 m1
      else capWriteRec c t ss m1
def execCapRecord (c : Fin 8) (s : State) : Host.Outcome State Fault Refusal := answer s (capRecord c s.m)

/-- CAP_SNAPSHOT_DONE: all the writes of a SNAPSHOT's records have arrived: HELD, with cap_done (R344). -/
def capSnapshotDone (c : Nat) (m : Mach) : Mach :=
  if capState c m = 2 ∧ capMode c m = 1 ∧ (getCap c m).stopping = 0 ∧ capNrec c m ≤ (getCap c m).recs then
    setEv RES_EVENTS.cap_done (setCapState c 3 m)
  else m
def execCapSnapshotDone (c : Fin 8) (s : State) : Host.Outcome State Fault Refusal := answer s (capSnapshotDone c s.m)

/-! ### Stopping -/

/-- The set is FREE and its length returns to the quota (R344). -/
def freeCap (c : Nat) (m : Mach) : Mach :=
  fset (RES_CAP_STATUS.len_pending c) 0 (setCapState c 0
    (setCap c { getCap c m with lenPend := none, stopping := 0, wait := [] } (setUse 2 (partUse 2 m - capHeld c m) m)))

/-- STOP: a running set ends at the next record boundary (R344). On a set that is not RUNNING it has no effect (DESIGN
CHOICE, assumption 23). -/
def capStop (c : Nat) (m : Mach) : Mach :=
  let x := getCap c m
  if capState c m = 2 ∧ x.stopping = 0 then setCap c { x with stopping := 1 } m else m
def execCapStop (c : Fin 8) (s : State) : Host.Outcome State Fault Refusal :=
  answer s (gate (RES_CAP_CMD c) (capStop c) s.m)

/-- RELEASE: a running set stops first; another is FREE at once (R344). -/
def capRelease (c : Nat) (m : Mach) : Mach :=
  match capState c m with
  | 0 => m
  | 2 => setCap c { getCap c m with stopping := 2 } m
  | _ => freeCap c m
def execCapRelease (c : Fin 8) (s : State) : Host.Outcome State Fault Refusal :=
  answer s (gate (RES_CAP_CMD c) (capRelease c) s.m)

/-- CAP_STOP_DONE: the last writes of a stopping set have arrived. A pending length is dropped with the run, and what an
increase had allocated returns to the quota (DEDUCED, assumption 24). -/
def capStopDone (c : Nat) (m : Mach) : Mach :=
  let x := getCap c m
  if capState c m ≠ 2 ∨ x.stopping = 0 then m
  else if x.stopping = 2 then freeCap c m
  else
    fset (RES_CAP_STATUS.len_pending c) 0 (setCapState c 3
      (setUse 2 (partUse 2 m - (capHeld c m - capLen c m)) (setCap c { x with stopping := 0, lenPend := none, wait := [] } m)))
def execCapStopDone (c : Fin 8) (s : State) : Host.Outcome State Fault Refusal := answer s (capStopDone c s.m)

/-! ### Register writes of a set (R345 to R347) -/

/-- R346: a length applies at once. -/
def capLenNow (c n : Nat) (m : Mach) : Mach := wr (RES_CAP_LEN c) (BitVec.ofNat 32 n) m

/-- R346: an increase to `n` of a set that holds bytes is checked; its flag if it is refused. -/
def lenRefusal (c n : Nat) (m : Mach) : Option Fld :=
  let held := capHeld c m
  if n ≤ held then none
  else if capQuota (n - held) m = false then some RES_EVENTS.quota
  else if capFits c n m = false then some RES_EVENTS.cap_err
  else none

/-- R346: a write to RES_CAP_LEN. FREE applies it; HELD applies it after the checks of an increase; ARMED and RUNNING
refuse it in SNAPSHOT and hold it pending in CONTINUOUS. -/
def capLenWrite (c : Nat) (v : W) (m : Mach) : Mach :=
  let n := v.toNat
  let st := capState c m
  if n % 64 ≠ 0 ∨ n < 4096 then setEv RES_EVENTS.cap_err m
  else if st = 0 then capLenNow c n m
  else if (st = 1 ∨ st = 2) ∧ capMode c m = 1 then setEv RES_EVENTS.cap_err m
  else match lenRefusal c n m with
    | some f => setEv f m
    | none =>
      let held := capHeld c m
      if st = 3 then capLenNow c n (setUse 2 (partUse 2 m + n - held) m)
      else
        let want := max (capLen c m) n
        fset (RES_CAP_STATUS.len_pending c) 1
          (setCap c { getCap c m with lenPend := some n } (setUse 2 (partUse 2 m + want - held) m))
def execCapLenWrite (c : Fin 8) (v : W) (s : State) : Host.Outcome State Fault Refusal :=
  answer s (gate (RES_CAP_LEN c) (capLenWrite c v) s.m)

/-- The address of a configuration register of a set. -/
def capRegAddr (c : Nat) : CapReg → Nat
  | .ctrl => RES_CAP_CTRL c
  | .srcLo => RES_CAP_SRC_LO c
  | .srcHi => RES_CAP_SRC_HI c
  | .base => RES_CAP_BASE c
  | .nrec => RES_CAP_NREC c
  | .trig => RES_CAP_TRIG c

/-- R347: a configuration write is ignored with cap_err while the set is ARMED or RUNNING; mode 3 is refused. -/
def capCfgWrite (c : Nat) (r : CapReg) (v : W) (m : Mach) : Mach :=
  let st := capState c m
  if st = 1 ∨ st = 2 ∨ (r = .ctrl ∧ v.toNat % 4 = 3) then setEv RES_EVENTS.cap_err m
  else match r with
    | .ctrl => wr (RES_CAP_CTRL c) (v &&& 0x3F#32) m
    | _ => wr (capRegAddr c r) v m
def execCapCfgWrite (c : Fin 8) (r : CapReg) (v : W) (s : State) : Host.Outcome State Fault Refusal :=
  answer s (gate (capRegAddr c r) (capCfgWrite c r v) s.m)

/-- R345: the read pointer is written; the unread bytes run from it to the write pointer. -/
def capRptrWrite (c : Nat) (v : W) (m : Mach) : Mach :=
  let n := capLen c m
  let w := (rd (RES_CAP_WPTR c) m).toNat
  setCap c { getCap c m with unread := (w + n - v.toNat % n) % n } (wr (RES_CAP_RPTR c) v m)

/-- RES_CAP_CMD: the key 0x29D4 and the command; another key refuses with cap_err. -/
def capCmd (c : Nat) (v : W) (m : Mach) : Mach :=
  if wfld v 16 16 ≠ 0x29D4 then setEv RES_EVENTS.cap_err m
  else match v.toNat % 4 with
    | 0 => m
    | 1 => capArm c m
    | 2 => capStop c m
    | _ => capRelease c m

/-- A chain output sample of source `i` (kind `elem`) waits for the record of every set that records it (R341). -/
def capFeed (elem : Bool) (i t : Nat) (x : Sample) (m : Mach) : Mach :=
  each (List.range 8) (fun c s =>
    if (capState c s = 1 ∨ (capState c s = 2 ∧ (getCap c s).stopping = 0)) ∧ capElem c s = elem ∧ (capMask c s).testBit i ∧
        16 * (getCap c s).trigAt ≤ t then
      let y := getCap c s
      setCap c { y with wait := tabPut (fun _ => []) y.wait i (tabGet (fun _ => []) y.wait i ++ [(t, x)]) } s
    else s) m

end Sys2Proof.Machine
end

