-- ==== Sys2Proof/Machine/Dma.lean ====
section
/-! DEFINITION. The DMA engine (spec/11, R348 to R361): channels, descriptors, commands, halts. The bursts, which reach the
registers, are in DmaRun. -/

namespace Sys2Proof.Machine

/-! ### A channel's registers -/

/-- State of channel `ch`: 0 IDLE, 1 RUNNING, 2 WAIT_REQ, 3 STOPPING, 4 HALTED. -/
def dmaState (ch : Nat) (m : Mach) : Nat := fget (DMA_CH_STATUS.state ch) m
/-- The descriptor address and the bytes completed of it. -/
def dmaDescAddr (ch : Nat) (m : Mach) : Nat := (rd (DMA_CH_DESC ch) m).toNat
def dmaPos (ch : Nat) (m : Mach) : Nat := (rd (DMA_CH_POS ch) m).toNat
def setDmaPos (ch n : Nat) (m : Mach) : Mach := wr (DMA_CH_POS ch) (BitVec.ofNat 32 n) m

/-- DMA_STATUS: channels not IDLE or HALTED. -/
def refreshDma (m : Mach) : Mach :=
  fset DMA_STATUS.busy (((List.range 32).filter fun c => dmaState c m != 0 && dmaState c m != 4).length) m

/-- The channel's state becomes `st`. -/
def setDmaState (ch st : Nat) (m : Mach) : Mach := refreshDma (fset (DMA_CH_STATUS.state ch) st m)

/-- IDLE and HALTED take START and configuration writes (R359). -/
def dmaResting (ch : Nat) (m : Mach) : Bool := dmaState ch m == 0 || dmaState ch m == 4

/-! ### Descriptors (R349, R350) -/

/-- The descriptor whose 32 bytes are `l`. -/
def parseDesc (l : List Byte) : DmaDesc :=
  { ctrl := BitVec.ofNat 32 (leAt l 0 4), len := leAt l 4 4, src := leAt l 8 4, dst := leAt l 12 4, next := leAt l 16 4,
    burst := leAt l 20 2, rsvd := leAt l 22 2 }

/-- The fields of ctrl. -/
def dType (d : DmaDesc) : Nat := wfld d.ctrl 0 2
def dIrq (d : DmaDesc) : Bool := d.ctrl.getLsbD 2
def dLast (d : DmaDesc) : Bool := d.ctrl.getLsbD 3
def dSmode (d : DmaDesc) : Nat := wfld d.ctrl 4 2
def dDmode (d : DmaDesc) : Nat := wfld d.ctrl 6 2
def dPreq (d : DmaDesc) : Nat := wfld d.ctrl 8 5
def dSet (d : DmaDesc) : Nat := wfld d.ctrl 13 3

/-- An address in the reservoir. -/
def isRes (a : Nat) : Bool := decide (resLo ≤ a ∧ a < resHi)

/-- The first and last-plus-one address of the register block a channel may reach that holds `a`: a quadrant block, a tile
window, or the MON block (R350). -/
def dmaBlock (a : Nat) : Option (Nat × Nat) :=
  if 0x100000 ≤ a ∧ a < 0x500000 then some (a / 0x100000 * 0x100000, (a / 0x100000 + 1) * 0x100000)
  else if 0x800000 ≤ a ∧ a < 0x900000 then some (0x800000, 0x900000)
  else if tileBase 0 ≤ a ∧ a < tileBase 144 then some (a / 0x10000 * 0x10000, (a / 0x10000 + 1) * 0x10000)
  else none

/-- R350: status DESC. -/
def descBad (d : DmaDesc) (m : Mach) : Bool :=
  dType d == 3 || dSmode d == 3 || dDmode d == 3 || decide (wfld d.ctrl 16 16 ≠ 0) || decide (d.rsvd ≠ 0) ||
    decide (d.len = 0 ∨ d.len % 4 ≠ 0) || decide (12 < dPreq d) ||
    (if dPreq d = 0 then decide (d.burst ≠ 0)
     else decide (d.burst % 64 ≠ 0 ∨ d.burst < 64 ∨ 4096 < d.burst ∨ d.len % (max d.burst 1) ≠ 0)) ||
    (dSmode d == 2 && capState (dSet d) m == 0) ||
    (dSmode d == 1 && isRes d.src) || (dDmode d == 1 && isRes d.dst)

/-- R350: status PERM of an address: a reservoir source in FW, a destination outside POOL and CUST, a register outside the
blocks a channel reaches. -/
def permBad (isDst : Bool) (a : Nat) (m : Mach) : Bool :=
  if isRes a then
    if isDst then !(partOf a m == some 1 || partOf a m == some 7) else partOf a m == some 6
  else (dmaBlock a).isNone

/-- R350: status ADDR of an address: the range leaves its partition or block, or a register address is not a multiple
of 4. -/
def addrBad (fixed : Bool) (a len : Nat) (m : Mach) : Bool :=
  let n := if fixed then 4 else len
  if isRes a then
    match partOf a m with
    | some i => !inPart i a n m
    | none => true
  else match dmaBlock a with
    | some (_, hi) => decide (hi < a + n ∨ a % 4 ≠ 0)
    | none => true

/-- R361: the status a fetched descriptor fails with, 0 for none. The transfer checks are a COPY's. -/
def descStatus (d : DmaDesc) (m : Mach) : Nat :=
  if descBad d m then 6
  else if dType d ≠ 0 then 0
  else
    let s := dSmode d ≠ 2
    let t := dDmode d ≠ 2
    if (s ∧ permBad false d.src m = true) ∨ (t ∧ permBad true d.dst m = true) then 4
    else if (s ∧ addrBad (dSmode d == 1) d.src d.len m = true) ∨ (t ∧ addrBad (dDmode d == 1) d.dst d.len m = true) then 5
    else 0

/-- The quadrant whose power domain (its block and its tile windows, R357) holds address `a`. -/
def domainOf (a : Nat) : Option Nat :=
  if 0x100000 ≤ a ∧ a < 0x500000 then some (a / 0x100000 - 1)
  else if tileBase 0 ≤ a ∧ a < tileBase 144 then some ((a - tileBase 0) / 0x10000 / 36)
  else none

/-- The quadrants whose domains a COPY reads or writes. -/
def descQuads (d : DmaDesc) : List Nat :=
  if dType d ≠ 0 then []
  else (if dSmode d = 2 then [] else (domainOf d.src).toList) ++ (if dDmode d = 2 then [] else (domainOf d.dst).toList)

/-! ### Ends of a descriptor -/

/-- The engine writes wb: the status code, and done (R349). A descriptor that lies outside CUST is not written. -/
def writeWb (ch status : Nat) (m : Mach) : Mach :=
  let a := dmaDescAddr ch m
  if inPart 7 a 32 m ∧ a % 32 = 0 then resWrite (a + 24) (leBytes 4 (status + 2 ^ 31)) m else m

/-- The channel goes to HALTED with a status; an error sets DMA_ERR and writes wb (R360). -/
def dmaHalt (ch status : Nat) (m : Mach) : Mach :=
  let m1 := setDmaState ch 4 (fset (DMA_CH_STATUS.status ch) status
    (setDma ch { getDma ch m with stop := false, aborting := false, needFetch := false } m))
  if status = 2 then m1 else setEvBit DMA_ERR ch (writeWb ch status m1)

/-- R353: the descriptor completes: wb, DMA_DONE, the count. Then the chain ends, or a STOP takes effect, or the next
descriptor is due (R356). -/
def dmaComplete (ch : Nat) (d : DmaDesc) (m : Mach) : Mach :=
  let x := getDma ch m
  let m1 := writeWb ch 0 m
  let m2 := if dIrq d then setEvBit DMA_DONE ch m1 else m1
  let m3 := wr (DMA_CH_COUNT ch) (rd (DMA_CH_COUNT ch) m2 + 1#32) m2
  let m4 := if dLast d then m3 else wr (DMA_CH_DESC ch) (BitVec.ofNat 32 d.next) m3
  if x.stop ∨ dLast d then
    setDmaState ch 0 (fset (DMA_CH_STATUS.status ch) (if x.stop then 1 else 0)
      (setDma ch { x with desc := none, needFetch := false, stop := false } m4))
  else setDma ch { x with desc := none, needFetch := true } (setDmaState ch 1 m4)

/-! ### Commands (R356, R357, R359) -/

/-- A refused command. -/
def dmaRefuse (m : Mach) : Mach := setEv DMA_EVENTS.cmd_refused m

/-- START: the status is cleared and the chain begins at DMA_CH_HEAD. -/
def dmaStart (ch : Nat) (m : Mach) : Mach :=
  if dmaResting ch m then
    setDmaState ch 1 (fset (DMA_CH_STATUS.status ch) 0 (fset (DMA_CH_STATUS.pd_q ch) 0
      (setDma ch { getDma ch m with desc := none, needFetch := true, stop := false, aborting := false }
        (wr (DMA_CH_COUNT ch) 0#32 (setDmaPos ch 0 (wr (DMA_CH_DESC ch) (rd (DMA_CH_HEAD ch) m) m))))))
  else dmaRefuse m
def execDmaStart (ch : Fin 32) (s : State) : Host.Outcome State Fault Refusal :=
  answer s (gate (DMA_CH_CMD ch) (dmaStart ch) s.m)

/-- STOP: at the next descriptor boundary; ignored in IDLE and HALTED. Between two descriptors the boundary is now. -/
def dmaStop (ch : Nat) (m : Mach) : Mach :=
  let x := getDma ch m
  if dmaResting ch m || x.aborting then m
  else if x.needFetch then
    setDmaState ch 0 (fset (DMA_CH_STATUS.status ch) 1 (setDma ch { x with needFetch := false, stop := false } m))
  else setDmaState ch 3 (setDma ch { x with stop := true } m)
def execDmaStop (ch : Fin 32) (s : State) : Host.Outcome State Fault Refusal :=
  answer s (gate (DMA_CH_CMD ch) (dmaStop ch) s.m)

/-- ABORT: the channel issues nothing more; ignored in IDLE and HALTED. -/
def dmaAbort (ch : Nat) (m : Mach) : Mach :=
  if dmaResting ch m then m else setDma ch { getDma ch m with aborting := true } m
def execDmaAbort (ch : Fin 32) (s : State) : Host.Outcome State Fault Refusal :=
  answer s (gate (DMA_CH_CMD ch) (dmaAbort ch) s.m)

/-- R357: RESUME continues an ABORTED_PD descriptor once its quadrant is IDLE or above. -/
def dmaResume (ch : Nat) (m : Mach) : Mach :=
  let pd := fget (DMA_CH_STATUS.pd_q ch) m
  if dmaState ch m = 4 ∧ fget (DMA_CH_STATUS.status ch) m = 3 ∧ quads4.all (fun q => !inMask pd q || decide (1 ≤ quadState q m)) then
    setDmaState ch 1 (fset (DMA_CH_STATUS.status ch) 0 (fset (DMA_CH_STATUS.pd_q ch) 0 m))
  else dmaRefuse m
def execDmaResume (ch : Fin 32) (s : State) : Host.Outcome State Fault Refusal :=
  answer s (gate (DMA_CH_CMD ch) (dmaResume ch) s.m)

/-- DMA_CH_CMD: the key 0x1F6B and the command. -/
def dmaCmd (ch : Nat) (v : W) (m : Mach) : Mach :=
  if wfld v 16 16 ≠ 0x1F6B then dmaRefuse m
  else match wfld v 0 3 with
    | 0 => m
    | 1 => dmaStart ch m
    | 2 => dmaStop ch m
    | 3 => dmaAbort ch m
    | 4 => dmaResume ch m
    | _ => dmaRefuse m
def execDmaCmdInvalid (ch : Fin 32) (v : W) (s : State) : Host.Outcome State Fault Refusal :=
  answer s (gate (DMA_CH_CMD ch) (dmaCmd ch v) s.m)

/-- R359: DMA_CH_HEAD and DMA_CH_CFG are written only in IDLE and HALTED. -/
def dmaChCfgWrite (ch : Nat) (cfg : Bool) (v : W) (m : Mach) : Mach :=
  if dmaResting ch m then
    if cfg then wr (DMA_CH_CFG ch) (v &&& 0x37F#32) m else wr (DMA_CH_HEAD ch) (v &&& 0xFFFFFFE0#32) m
  else dmaRefuse m
def execDmaChCfgWrite (ch : Fin 32) (cfg : Bool) (v : W) (s : State) : Host.Outcome State Fault Refusal :=
  answer s (gate (if cfg then DMA_CH_CFG ch else DMA_CH_HEAD ch) (dmaChCfgWrite ch cfg v) s.m)

/-! ### Fetch and requests -/

/-- R351: the request of source `p` is raised: a capture set with a burst unread, or a monitor converter whose FIFO holds
its request level (R425). -/
def reqRaised (p burst : Nat) (m : Mach) : Bool :=
  if p ≤ 8 then decide (burst ≤ (getCap (p - 1) m).unread)
  else decide (16 * clampN 1 64 (fget (MON_CTRL.req_lvl (p - 9)) m) ≤ (getMon (p - 9) m).fifo.length)

/-- The channel's state follows its request: WAIT_REQ while it waits (R351). STOPPING stays. -/
def refreshReq (ch : Nat) (m : Mach) : Mach :=
  match (getDma ch m).desc with
  | none => m
  | some d =>
    if dmaState ch m = 1 ∨ dmaState ch m = 2 then
      setDmaState ch (if dType d = 0 ∧ dPreq d ≠ 0 ∧ dmaPos ch m < d.len ∧ reqRaised (dPreq d) d.burst m = false then 2 else 1) m
    else m

/-- R357: the channel halts by the power-down of the quadrants `qs`. -/
def dmaPdHalt (ch : Nat) (qs : List Nat) (m : Mach) : Mach :=
  dmaHalt ch 3 (each qs (fun q s => fset ⟨DMA_CH_STATUS ch, 16 + q, 1⟩ 1 s) m)

/-- DMA_DESC_FETCH: the descriptor is read and checked (R349, R350, R357, R360). -/
def dmaFetch (ch : Nat) (m : Mach) : Mach :=
  let x := getDma ch m
  let a := dmaDescAddr ch m
  if dmaResting ch m ∨ x.needFetch = false ∨ x.aborting then m
  else
    let m1 := setDmaPos ch 0 m
    if a % 32 ≠ 0 ∨ inPart 7 a 32 m = false then dmaHalt ch 6 m1
    else if badUnits a 32 m ≠ [] then dmaHalt ch 7 (readReport a 32 m1)
    else
      let d := parseDesc (viewBytes a 32 m)
      let m2 := setDma ch { x with desc := some d, needFetch := false } m1
      let st := descStatus d m
      let down := (descQuads d).filter fun q => quadState q m == 0
      if st ≠ 0 then dmaHalt ch st m2
      else if down ≠ [] then dmaPdHalt ch down m2
      else refreshReq ch m2
def execDmaDescFetch (ch : Fin 32) (s : State) : Host.Outcome State Fault Refusal := answer s (dmaFetch ch s.m)

/-- R353: a COPY that has moved all its bytes, or a NOP, completes. -/
def dmaDescComplete (ch : Nat) (m : Mach) : Mach :=
  let x := getDma ch m
  match x.desc with
  | none => m
  | some d =>
    if dmaResting ch m = false ∧ x.aborting = false ∧ (dType d = 2 ∨ (dType d = 0 ∧ d.len ≤ dmaPos ch m)) then
      dmaComplete ch d m
    else m
def execDmaDescComplete (ch : Fin 32) (s : State) : Host.Outcome State Fault Refusal := answer s (dmaDescComplete ch s.m)

/-- R357: no write is on its way into quadrant `q`'s domain. -/
def dmaQuiet (q : Nat) (m : Mach) : Bool :=
  (List.range 32).all fun ch => (getDma ch m).pendW.all fun w => domainOf w.1 != some q

/-- R357 DMA_PD_ABORT: quadrant `q` is powered down: every channel whose current descriptor reads or writes its domain
halts. -/
def dmaPdAbort (q : Nat) (m : Mach) : Mach :=
  each (List.range 32) (fun ch s =>
    match (getDma ch s).desc with
    | some d => if dmaResting ch s = false ∧ (descQuads d).contains q then dmaPdHalt ch [q] s else s
    | none => s) m

end Sys2Proof.Machine
end

