-- ==== Sys2Proof/Machine/Crc.lean ====
section
/-! DEFINITION. CRC-32 of IEEE 802.3, as R255 and the image rules of spec/16 name it: reflected, the register preset to
ones, the result inverted. -/

namespace Sys2Proof.Machine

/-- One bit of the CRC register's division by the IEEE 802.3 polynomial. -/
def crcBit (c : W) : W := if c.getLsbD 0 then (c >>> 1) ^^^ 0xEDB88320#32 else c >>> 1

/-- One byte enters the CRC register. -/
def crcByte (c : W) (b : Byte) : W := (List.range 8).foldl (fun x _ => crcBit x) (c ^^^ b.setWidth 32)

/-- The CRC-32 of a list of bytes, the first one first. -/
def crc32 (l : List Byte) : W := ~~~(l.foldl crcByte 0xFFFFFFFF#32)

/-- The CRC-32 with the register preset to `init` (R208). -/
def crc32From (init : W) (l : List Byte) : W := ~~~(l.foldl crcByte init)

end Sys2Proof.Machine
end

