-- ==== Sys2Proof/Machine/Dir.lean ====
section
/-! DEFINITION. The sensor directory (spec/06, R205 to R219): its table, insertion, the operations of its sequencer,
eviction, snapshot and restore, and its mirror. -/

namespace Sys2Proof.Machine

/-! ### Places (R208, R210, R336) -/

/-- The number of buckets. -/
def dirNb (m : Mach) : Nat := fget DIR_CFG.nb m

/-- R208: the two buckets of a sensor ID. -/
def dirBuckets (id : BitVec 48) (m : Mach) : Nat × Nat :=
  let l := leBytes 6 id.toNat
  let nb := max 1 (dirNb m)
  let b1 := (crc32From (rd DIR_SEED m) l).toNat % nb
  let b2 := (crc32From (~~~(rd DIR_SEED m)) l).toNat % nb
  (b1, if b2 = b1 then (b1 + 1) % nb else b2)

/-- The eight places of a bucket, by key. -/
def bucketKeys (b : Nat) : List Nat := (List.range 8).map (8 * b + ·)

/-- The reservoir address of a place. -/
def lineAddr (k : Nat) (m : Mach) : Nat := partBase 0 m + 64 * k

/-- A unit of the place's line is poisoned. -/
def lineBad (k : Nat) (m : Mach) : Bool := (List.range 8).any fun i => poisoned (lineAddr k m + 8 * i) m

/-- The valid entry at a place; a poisoned line is an empty place (R336). -/
def dirAt (k : Nat) (m : Mach) : Option DirEntry :=
  if lineBad k m then none else tabGet (fun _ => none) m.dir.ent k

/-- The line is written whole, which cures it. -/
def cureLine (k : Nat) (m : Mach) : Mach :=
  if lineBad k m then each (List.range 8) (fun i s => setPoison (lineAddr k m + 8 * i) false s) m else m

/-- R338: DIR's use is 64 bytes for each valid entry; DIR_STATUS follows. -/
def refreshDir (m : Mach) : Mach :=
  refreshOverQuota (setUse 0 (64 * m.dir.ent.length) (fset DIR_STATUS.count m.dir.ent.length m))

/-- A place takes an entry, or becomes empty. -/
def setPlace (k : Nat) (e : Option DirEntry) (m : Mach) : Mach :=
  let m1 := cureLine k m
  refreshDir { m1 with dir := { m1.dir with ent := tabPut (fun _ => none) m1.dir.ent k e } }

/-- R219: a change of a place takes the next change sequence number; the PRIMARY sends it as a delta. -/
def changePlace (k : Nat) (e : Option DirEntry) (m : Mach) : Mach :=
  let q := rd DIR_SEQ m + 1#32
  let e' := e.map fun x => { x with seq := q }
  let m1 := wr DIR_SEQ q (setPlace k e' m)
  if role m = 1 && timingOn m then send (.mirDelta q (k / 8) (k % 8) e') m1 else m1

/-- R336: a poisoned line that is met is rewritten as an empty place; where it held an entry the loss is a deletion, which a
STANDBY leaves to its PRIMARY. -/
def purgeLine (k : Nat) (m : Mach) : Mach :=
  if lineBad k m then
    if (tabGet (fun _ => none) m.dir.ent k).isSome && role m != 2 then changePlace k none m else setPlace k none m
  else m

/-- The poisoned lines of a sensor's two buckets are dealt with. -/
def purgeId (id : BitVec 48) (m : Mach) : Mach :=
  let b := dirBuckets id m
  each (bucketKeys b.1 ++ bucketKeys b.2) purgeLine m

/-- R211: the place of the first valid entry that matches, in b1 and then in b2. -/
def dirFind (id : BitVec 48) (m : Mach) : Option Nat :=
  let b := dirBuckets id m
  (bucketKeys b.1 ++ bucketKeys b.2).find? fun k => match dirAt k m with
    | some e => e.id == id
    | none => false

/-- R209: there is a directory: a deck is loaded. -/
def dirOn (m : Mach) : Bool := deckLoaded m && decide (0 < partSize 0 m)

/-- R211, R218: a lookup. It misses while a restore runs and without a deck. -/
def dirLookup (id : BitVec 48) (m : Mach) : Option DirEntry :=
  if fon DIR_STATUS.restoring m || !dirOn m then none
  else match dirFind id m with
    | some k => dirAt k m
    | none => none

/-! ### Insertion (R213, R215) -/

/-- The lowest free position of a bucket. -/
def freePlace (b : Nat) (m : Mach) : Option Nat := (bucketKeys b).find? fun k => (dirAt k m).isNone

/-- How many positions of a bucket are free. -/
def freeCount (b : Nat) (m : Mach) : Nat := (bucketKeys b).countP fun k => (dirAt k m).isNone

/-- The bucket other than its own in which the resident of place `k` may sit. -/
def altBucket (k : Nat) (m : Mach) : Nat :=
  match dirAt k m with
  | none => k / 8
  | some e =>
    let b := dirBuckets e.id m
    if b.1 = k / 8 then b.2 else b.1

/-- One resident of the search: the chain that ends at a free position, where its alternative bucket has one; else the
residents of that bucket join the next depth, unless the search has met the bucket before. A chain lists places, the last
one first. -/
def searchOne (m : Mach) (st : Option (List Nat) × List Nat × List (List Nat)) (p : List Nat) :
    Option (List Nat) × List Nat × List (List Nat) :=
  match st.1, p with
  | none, k :: _ =>
    let b := altBucket k m
    match freePlace b m with
    | some f => (some (f :: p), st.2)
    | none => if st.2.1.contains b then st else (none, b :: st.2.1, st.2.2 ++ (bucketKeys b).map (· :: p))
  | _, _ => st

/-- The breadth-first search for the first shortest chain, at most `n` moves deep. -/
def searchChain (m : Mach) : Nat → List Nat → List (List Nat) → Option (List Nat)
  | 0, _, _ => none
  | n + 1, seen, lvl =>
    match lvl.foldl (searchOne m) (none, seen, []) with
    | (some c, _) => some c
    | (none, seen', nxt) => searchChain m n seen' nxt

/-- The moves of a chain, from the far end: each resident is written to the place beyond it (R213, R219: a relocation is a
change). -/
def moveChain : List Nat → Mach → Mach
  | t :: k :: r, m => moveChain (k :: r) (changePlace t (dirAt k m) m)
  | _, m => m

/-- Of `ks`, the place of the unpinned entry seen longest ago; on equal last_seen the lower place (R213, R215). -/
def oldest (ks : List Nat) (m : Mach) : Option Nat :=
  ks.foldl (fun o k => match dirAt k m with
    | none => o
    | some e =>
      if e.pinned then o else
      match o with
      | none => some k
      | some j => match dirAt j m with
        | some f => if e.lastSeen.toNat < f.lastSeen.toNat ∨ (e.lastSeen = f.lastSeen ∧ k < j) then some k else some j
        | none => some k) none

/-- R340: an insertion that the quota refuses. -/
def atQuota (m : Mach) : Bool := decide (partQuota 0 m ≤ 64 * m.dir.ent.length)

/-- The place at which a new entry for `id` can be made, and the state once it is free: a free position, one that moves
free, or one that an eviction frees; none where every candidate is pinned. -/
def makePlace (id : BitVec 48) (m : Mach) : Option (Nat × Mach) :=
  let b := dirBuckets id m
  let f1 := freeCount b.1 m
  let f2 := freeCount b.2 m
  match freePlace (if f1 < f2 then b.2 else b.1) m with
  | some k => some (k, m)
  | none =>
    match searchChain m 32 [b.1, b.2] ((bucketKeys b.1 ++ bucketKeys b.2).map fun k => [k]) with
    | some c => some (c.getLastD 0, moveChain c m)
    | none =>
      match oldest (bucketKeys b.1 ++ bucketKeys b.2) m with
      | some k => some (k, setEv DIR_EVENTS.evict_lru (cnt DIR_EVICT_COUNT 1 0xFFFFFFFF (changePlace k none m)))
      | none => none

/-- R213, R215: an entry is inserted. None: answered FULL. -/
def dirInsert (e : DirEntry) (m : Mach) : Option Mach :=
  if atQuota m then none
  else match makePlace e.id m with
    | some (k, m1) => some (changePlace k (some e) m1)
    | none => none

/-- An insertion answered FULL: `full` is set, and `quota` where the quota refused it (R340). -/
def dirFull (m : Mach) : Mach := setEv DIR_EVENTS.full (setEvIf (dirOn m && atQuota m) RES_EVENTS.quota m)

/-! ### Answers (R205, R214, R462) -/

/-- The mirror link is up. -/
def mirUp (m : Mach) : Bool := fget HLT_MIR_STATUS.lanes_up m != 0

/-- R462: an answer that carries deltas, up to sequence number `q`, waits for the STANDBY's acknowledgement where sync_ack
asks it; every other answer goes at once. -/
def ackNat (sess : Nat) (q : Option W) (b : NatBody) (m : Mach) : Mach :=
  match q with
  | some w =>
    if role m = 1 && fon HLT_TWIN_CFG.sync_ack m && mirUp m then
      { m with twin := { m.twin with acks := m.twin.acks ++ [(w, sess, b)] } }
    else sendNat sess b m
  | none => sendNat sess b m

/-- A BIND is answered: the change's sequence number with NEW, UPDATED and STALE, else 0. -/
def bindAnswer (sess : Nat) (det : W) (id : BitVec 48) (st : Nat) (m : Mach) : Mach :=
  if st < 3 then ackNat sess (some (rd DIR_SEQ m)) (.bindAck det id st (rd DIR_SEQ m)) m
  else ackNat sess none (.bindAck det id st 0#32) m

/-- A directory operation is answered; `q` where it changed an entry. -/
def dirAnswer (sess : Nat) (changed : Bool) (st : Nat) (l : List DirEntry) (m : Mach) : Mach :=
  ackNat sess (if changed then some (rd DIR_SEQ m) else none) (.dirResp [⟨st, l.length, l⟩]) m

/-! ### BIND (R205, R206) -/

/-- The detection's arrival in the unit of last_seen (R205, R210). -/
def detUnit (d : Det) : Nat := (((d.tRef : Int) + d.tOff / 16) / 2 ^ 24).toNat

/-- R205, R207: the detection that `det` names, if it is in the history and not older than bind_window. -/
def findDet (det : W) (m : Mach) : Option Det :=
  (m.acq.hist.find? fun d => d.id == det.toNat).filter fun d =>
    decide (tick m ≤ d.tRef + max 1 (fget ACQ_HIST_CFG.bind_window m) * ticksPerMs)

/-- R206: the preamble field of a detection. -/
def detPre (d : Det) : BitVec 16 := BitVec.ofNat 16 (d.r % 64 + 64 * (d.v % 1024))

/-- R206: a new entry made from a detection. -/
def newEntry (id : BitVec 48) (d : Det) (pin : Bool) (m : Mach) : DirEntry :=
  { id := id, pinned := pin, raw := false, mode := 1#2, spread := BitVec.ofNat 4 (fget DIR_UPD.sp_def m),
    az := BitVec.ofInt 16 d.az, el := BitVec.ofInt 16 d.el, pool := 0#16, tOff := BitVec.ofInt 32 d.tOff,
    fOff := BitVec.ofInt 32 d.fOff, snr := BitVec.ofInt 8 d.snr, lastBeam := BitVec.ofNat 8 d.a, lastPre := detPre d,
    lastSeen := BitVec.ofNat 40 (detUnit d), bindCount := 1#32, created := BitVec.ofNat 32 (tick m / 2 ^ 24),
    seq := 0#32, user := 0#128 }

/-- DIR_UPD: a weight above 8, or 0, acts as 8. -/
def updWeight (f : Fld) (m : Mach) : Nat := let a := fget f m; if a = 0 ∨ 8 < a then 8 else a

/-- R206: x + (α / 8) × (x_det − x), rounded to nearest. -/
def updVal (a : Nat) (x d : Int) : Int := roundDiv (8 * x + a * (d - x)) 8

/-- The bind count, one higher, saturating (R210). -/
def bumpBinds (e : DirEntry) : DirEntry :=
  { e with bindCount := if e.bindCount = 0xFFFFFFFF#32 then e.bindCount else e.bindCount + 1#32 }

/-- R206: an update of an entry by a later detection. -/
def updEntry (e : DirEntry) (d : Det) (m : Mach) : DirEntry :=
  let ad := updWeight DIR_UPD.a_dir m
  { bumpBinds e with
    az := BitVec.ofInt 16 (updVal ad e.az.toInt d.az), el := BitVec.ofInt 16 (updVal ad e.el.toInt d.el),
    tOff := BitVec.ofInt 32 (updVal (updWeight DIR_UPD.a_t m) e.tOff.toInt d.tOff),
    fOff := BitVec.ofInt 32 (updVal (updWeight DIR_UPD.a_f m) e.fOff.toInt d.fOff),
    snr := BitVec.ofInt 8 d.snr, lastBeam := BitVec.ofNat 8 d.a, lastPre := detPre d,
    lastSeen := BitVec.ofNat 40 (detUnit d) }

/-- R205: a BIND, the first rule that fits; without a deck it is answered FULL (R209). -/
def dirBind (sess : Nat) (det : W) (id : BitVec 48) (pin : Bool) (m : Mach) : Mach :=
  if role m = 2 then bindAnswer sess det id 5 m
  else if dirOn m = false then bindAnswer sess det id 4 (dirFull m)
  else match findDet det m with
    | none => bindAnswer sess det id 3 (setEv ACQ_EVENTS.hist_expired m)
    | some d =>
      let m1 := purgeId id m
      match dirFind id m1 with
      | some k =>
        match dirAt k m1 with
        | some e =>
          if e.lastSeen.toNat < detUnit d then bindAnswer sess det id 1 (changePlace k (some (updEntry e d m1)) m1)
          else bindAnswer sess det id 2 (changePlace k (some (bumpBinds e)) m1)
        | none => m1
      | none =>
        match dirInsert (newEntry id d pin m1) m1 with
        | some m2 => bindAnswer sess det id 0 m2
        | none => bindAnswer sess det id 4 (dirFull m1)

/-! ### Operations (R214, R383) -/

/-- R214, R383, R209: an operation of code kind `ro` (READ or SNAPSHOT) with a mask is refused by ROLE, FORMAT or QUOTA, in
that order, or runs. -/
def dirGuard (sess : Nat) (ro badMask : Bool) (run : Mach → Mach) (m : Mach) : Mach :=
  if role m = 2 && !ro then dirAnswer sess false 3 [] (setEv DIR_EVENTS.role_refused m)
  else if badMask then dirAnswer sess false 5 [] m
  else if dirOn m = false then dirAnswer sess false 4 [] m
  else run m

/-- An operation on the entry of `id`, once its buckets are free of poison: NOT_FOUND, or `f` at its place. -/
def dirOnEntry (sess : Nat) (id : BitVec 48) (f : Nat → DirEntry → Mach → Mach) (m : Mach) : Mach :=
  let m1 := purgeId id m
  match dirFind id m1 with
  | none => dirAnswer sess false 1 [] m1
  | some k => match dirAt k m1 with
    | some e => f k e m1
    | none => m1

/-- An entry becomes `e'`, a change only where it differs; answered OK. -/
def dirAlter (sess : Nat) (k : Nat) (e e' : DirEntry) (m : Mach) : Mach :=
  if e' = e then dirAnswer sess false 0 [] m else dirAnswer sess true 0 [] (changePlace k (some e') m)

/-- R383: the fields that the mask selects. -/
def maskFields (mask : BitVec 8) (f : DirFields) (e : DirEntry) : DirEntry :=
  { e with
    mode := if mask.getLsbD 0 then f.mode else e.mode, spread := if mask.getLsbD 1 then f.spread else e.spread,
    az := if mask.getLsbD 2 then f.az else e.az, el := if mask.getLsbD 3 then f.el else e.el,
    pool := if mask.getLsbD 4 then f.pool else e.pool, raw := if mask.getLsbD 5 then f.raw else e.raw,
    user := if mask.getLsbD 6 then f.user else e.user }

/-- R214: the entry a WRITE creates, before its mask: sp_def, last_seen 0, every other field 0. -/
def blankEntry (id : BitVec 48) (m : Mach) : DirEntry :=
  { id := id, pinned := false, raw := false, mode := 0#2, spread := BitVec.ofNat 4 (fget DIR_UPD.sp_def m), az := 0#16,
    el := 0#16, pool := 0#16, tOff := 0#32, fOff := 0#32, snr := 0#8, lastBeam := 0#8, lastPre := 0#16, lastSeen := 0#40,
    bindCount := 0#32, created := BitVec.ofNat 32 (tick m / 2 ^ 24), seq := 0#32, user := 0#128 }

/-- R214, R383: WRITE. -/
def dirWrite (sess : Nat) (id : BitVec 48) (mask : BitVec 8) (f : DirFields) (m : Mach) : Mach :=
  let m1 := purgeId id m
  match (dirFind id m1).bind fun k => (dirAt k m1).map fun e => (k, e) with
  | some (k, e) => dirAlter sess k e (maskFields mask f e) m1
  | none => match dirInsert (maskFields mask f (blankEntry id m1)) m1 with
    | some m2 => dirAnswer sess true 0 [] m2
    | none => dirAnswer sess false 2 [] (dirFull m1)

/-- R214: the valid entries of buckets `b` to `b + count − 1`; buckets at or beyond nb return nothing. -/
def dirList (b count : Nat) (m : Mach) : List DirEntry :=
  (((List.range count).map (b + ·)).filter (· < dirNb m)).flatMap fun x => (bucketKeys x).filterMap fun k => dirAt k m

/-- The poisoned lines of the buckets that a LIST reads. -/
def purgeList (b count : Nat) (m : Mach) : Mach :=
  each (((List.range count).map (b + ·)).filter (· < dirNb m)) (fun x => each (bucketKeys x) purgeLine) m

/-- R219, R382: a deletion. -/
def dirDelete (id : BitVec 48) (m : Mach) : Mach :=
  let m1 := purgeId id m
  match dirFind id m1 with
  | some k => changePlace k none m1
  | none => m1

/-! ### Snapshots (R217, R490) -/

/-- The snapshot in slot `i` (0 A, 1 B). -/
def snapAt (i : Nat) (m : Mach) : Option Snap := tabGet (fun _ => none) m.nvm.snaps i

/-- The newest valid snapshot. -/
def newestSnap (m : Mach) : Option Snap :=
  if !recOk 2 m then none else
  match snapAt m.nvm.snapNew m with
  | some s => some s
  | none => snapAt (1 - m.nvm.snapNew) m

/-- DIR_SNAP_STATUS and DIR_SNAP_TC follow NVM. -/
def refreshSnap (m : Mach) : Mach :=
  let tc := match newestSnap m with
    | some s => s.tc
    | none => 0
  let nw := if (snapAt m.nvm.snapNew m).isSome then m.nvm.snapNew else 1 - m.nvm.snapNew
  wr DIR_SNAP_TC_LO (BitVec.ofNat 32 tc) (wr DIR_SNAP_TC_HI (BitVec.ofNat 32 (tc / 2 ^ 32))
    (fset DIR_SNAP_STATUS.newest (if (newestSnap m).isSome then nw else 0)
      (fsetB DIR_SNAP_STATUS.valid_a (snapAt 0 m).isSome (fsetB DIR_SNAP_STATUS.valid_b (snapAt 1 m).isSome m))))

/-- The slot a snapshot overwrites: one that holds none, else the older. -/
def snapSlot (m : Mach) : Nat :=
  if (snapAt 0 m).isNone then 0 else if (snapAt 1 m).isNone then 1 else 1 - m.nvm.snapNew

def setSnap (i : Nat) (s : Option Snap) (m : Mach) : Mach :=
  { m with nvm := { m.nvm with snaps := tabPut (fun _ => none) m.nvm.snaps i s } }

/-- A snapshot may start: there is a directory, none is being written, and NVM has a block for it (R447). -/
def snapOk (m : Mach) : Bool := dirOn m && fget DIR_SNAP_STATUS.state m != 1 && !m.dir.snapQ && !nandOut m && recOk 2 m

/-- A snapshot starts; during a migration it waits (R490). -/
def snapStart (m : Mach) : Mach :=
  if fon IMG_STATUS.migrating m then { m with dir := { m.dir with snapQ := true } }
  else refreshSnap (fset DIR_SNAP_STATUS.state 1 (setSnap (snapSlot m) none { m with dir := { m.dir with snapQ := false } }))

/-- R217: SNAPSHOT: started, or refused with snap_fail. -/
def dirSnapshot (m : Mach) : Mach := if snapOk m then snapStart m else setEv DIR_EVENTS.snap_fail m

/-- The snapshot that waited for the end of a migration starts, and is answered (R214, R490). -/
def snapGo (m : Mach) : Mach :=
  if m.dir.snapQ then
    let m1 := snapStart { m with dir := { m.dir with snapAns := none } }
    match m.dir.snapAns with
    | some s => dirAnswer s false 0 [] m1
    | none => m1
  else m

/-! ### Restore (R218) and resync (R219) -/

/-- R461: the classes that show as in sync: no resync of theirs runs and, of classes 2 to 6, the mirror lag is below 1 ms. -/
def showSync (m : Mach) : Mach :=
  let on (c : Nat) : Bool := m.twin.synced.contains c && (decide (c < 2) || decide (m.twin.lag < 100))
  fsetB DIR_MIRROR_STATUS.in_sync (on 3)
    (fset HLT_MIR_STATUS.in_sync (((List.range 7).filter on).map fun c => 2 ^ c).sum m)

/-- R461: no resync of class `c` of the mirror runs, or one does. -/
def setInSync (c : Nat) (b : Bool) (m : Mach) : Mach :=
  let l := m.twin.synced.filter (· != c)
  showSync { m with twin := { m.twin with synced := if b then c :: l else l } }

/-- R219: the PRIMARY streams the whole table: it says that a copy starts, and is out of sync until the STANDBY acknowledges its end. -/
def dirStream (m : Mach) : Mach :=
  let m1 := send .copyStart (setInSync 3 false { m with twin := { m.twin with copyTo := some (rd DIR_SEQ m) } })
  each m.dir.ent (fun e s => send (.mirDelta (rd DIR_SEQ m) (e.1 / 8) (e.1 % 8) e.2) s) m1

/-- The directory is emptied: each entry that goes is a change (R219). -/
def dirEmpty (m : Mach) : Mach := each (m.dir.ent.map Prod.fst) (fun k s => changePlace k none s) m

/-- RESTORE is accepted (R218, R209, R490). -/
def restoreOk (m : Mach) : Bool :=
  dirOn m && role m != 2 && (quads4.all fun q => quadState q m != 2) && !fon IMG_STATUS.migrating m && (newestSnap m).isSome

/-- A restore starts: the directory is empty until it completes; a PRIMARY is out of sync (R219). -/
def restoreStart (m : Mach) : Mach :=
  let m1 := dirEmpty (if role m = 1 then setInSync 3 false m else m)
  fset DIR_STATUS.restoring 1 (fset DIR_SNAP_STATUS.state 2 { m1 with dir := { m1.dir with restQ := false } })

/-- R218: RESTORE; behind a snapshot that is being written it waits in the sequencer (R214). -/
def dirRestore (m : Mach) : Mach :=
  if restoreOk m then
    if fget DIR_SNAP_STATUS.state m = 1 then { m with dir := { m.dir with restQ := true } } else restoreStart m
  else setEv DIR_EVENTS.restore_refused m

/-! ### The sequencer (R214, R218) -/

/-- A request runs. -/
def dirRun (r : DirReq) (m : Mach) : Mach :=
  match r with
  | .bind s d id p => dirBind s d id p m
  | .read s id k => dirGuard s true (k != 0#8) (dirOnEntry s id fun _ e => dirAnswer s false 0 [e]) m
  | .write s id k f => dirGuard s false (k == 0#8 || k.getLsbD 7) (dirWrite s id k f) m
  | .delete s id k =>
    dirGuard s false (k != 0#8) (dirOnEntry s id fun p _ m1 => dirAnswer s true 0 [] (changePlace p none m1)) m
  | .pin s id k on => dirGuard s false (k != 0#8) (dirOnEntry s id fun p e => dirAlter s p e { e with pinned := on }) m
  | .touch s id k =>
    dirGuard s false (k != 0#8)
      (dirOnEntry s id fun p e m1 => dirAlter s p e { e with lastSeen := BitVec.ofNat 40 (tick m1 / 2 ^ 24) } m1) m
  | .list s b n k =>
    dirGuard s false (k != 0#8 || decide (64 < n))
      (fun m0 => let m1 := purgeList b n m0; dirAnswer s false 0 (dirList b n m1) m1) m
  | .snapshot s k =>
    dirGuard s true (k != 0#8)
      (fun m0 => if snapOk m0 then
                   if fon IMG_STATUS.migrating m0 then snapStart { m0 with dir := { m0.dir with snapAns := some s } }
                   else dirAnswer s false 0 [] (snapStart m0)
                 else dirAnswer s false 6 [] (setEv DIR_EVENTS.snap_fail m0)) m
  | .unbind id => if role m = 2 then setEv DIR_EVENTS.role_refused m else if dirOn m then dirDelete id m else m
  | .snapCmd => dirSnapshot m
  | .restoreCmd => dirRestore m

/-- A request enters the sequencer: during a restore, and behind one that waits, it waits (R214, R218). -/
def dirEnter (r : DirReq) (m : Mach) : Mach :=
  if coreOn m = false then m
  else if fon DIR_STATUS.restoring m || m.dir.restQ then { m with dir := { m.dir with held := m.dir.held ++ [r] } }
  else dirRun r m

/-- The requests that waited run in order of arrival, until one starts a restore again. -/
def dirDrain : List DirReq → Mach → Mach
  | [], m => m
  | r :: l, m =>
    if fon DIR_STATUS.restoring m || m.dir.restQ then { m with dir := { m.dir with held := m.dir.held ++ (r :: l) } }
    else dirDrain l (dirRun r m)

/-- The sequencer goes on: with what it holds, or with the restore that waited. -/
def dirGoOn (m : Mach) : Mach :=
  let m1 := if m.dir.restQ then dirRestore { m with dir := { m.dir with restQ := false } } else m
  dirDrain m1.dir.held { m1 with dir := { m1.dir with held := [] } }

/-- A snapshot that is being written is lost: the other slot stands (R217), and a restore that waited for it runs. One that still
waits is answered BUSY (DESIGN CHOICE, assumption 98). -/
def snapLost (m : Mach) : Mach :=
  if fget DIR_SNAP_STATUS.state m = 1 then dirGoOn (setEv DIR_EVENTS.snap_fail (fset DIR_SNAP_STATUS.state 0 m))
  else if m.dir.snapQ then
    let m1 := setEv DIR_EVENTS.snap_fail { m with dir := { m.dir with snapQ := false, snapAns := none } }
    match m.dir.snapAns with
    | some s => dirAnswer s false 6 [] m1
    | none => m1
  else m

def execBind (sess : Fin 4) (det : W) (sensor : BitVec 48) (pin : Bool) (s : State) : Host.Outcome State Fault Refusal :=
  answer s (nativeIn sess (.bind sess det sensor pin) (dirEnter (.bind sess det sensor pin)) s.m)
def execUnbind (sess : Fin 4) (sensor : BitVec 48) (s : State) : Host.Outcome State Fault Refusal :=
  answer s (nativeIn sess (.unbind sess sensor) (dirEnter (.unbind sensor)) s.m)
def execDirOpRead (sess : Fin 4) (sensor : BitVec 48) (mask : BitVec 8) (s : State) : Host.Outcome State Fault Refusal :=
  answer s (nativeIn sess (.dirOpRead sess sensor mask) (dirEnter (.read sess sensor mask)) s.m)
def execDirOpWrite (sess : Fin 4) (sensor : BitVec 48) (mask : BitVec 8) (f : DirFields) (s : State) :
    Host.Outcome State Fault Refusal :=
  answer s (nativeIn sess (.dirOpWrite sess sensor mask f) (dirEnter (.write sess sensor mask f)) s.m)
def execDirOpDelete (sess : Fin 4) (sensor : BitVec 48) (mask : BitVec 8) (s : State) : Host.Outcome State Fault Refusal :=
  answer s (nativeIn sess (.dirOpDelete sess sensor mask) (dirEnter (.delete sess sensor mask)) s.m)
def execDirOpPin (sess : Fin 4) (sensor : BitVec 48) (mask : BitVec 8) (s : State) : Host.Outcome State Fault Refusal :=
  answer s (nativeIn sess (.dirOpPin sess sensor mask) (dirEnter (.pin sess sensor mask true)) s.m)
def execDirOpUnpin (sess : Fin 4) (sensor : BitVec 48) (mask : BitVec 8) (s : State) : Host.Outcome State Fault Refusal :=
  answer s (nativeIn sess (.dirOpUnpin sess sensor mask) (dirEnter (.pin sess sensor mask false)) s.m)
def execDirOpTouch (sess : Fin 4) (sensor : BitVec 48) (mask : BitVec 8) (s : State) : Host.Outcome State Fault Refusal :=
  answer s (nativeIn sess (.dirOpTouch sess sensor mask) (dirEnter (.touch sess sensor mask)) s.m)
def execDirOpList (sess : Fin 4) (bucket : W) (count : BitVec 8) (mask : BitVec 8) (s : State) :
    Host.Outcome State Fault Refusal :=
  answer s (nativeIn sess (.dirOpList sess bucket count mask) (dirEnter (.list sess bucket.toNat count.toNat mask)) s.m)
def execDirOpSnapshot (sess : Fin 4) (mask : BitVec 8) (s : State) : Host.Outcome State Fault Refusal :=
  answer s (nativeIn sess (.dirOpSnapshot sess mask) (dirEnter (.snapshot sess mask)) s.m)

/-- DIR_SNAP_SNAPSHOT, DIR_SNAP_RESTORE: keyed writes of DIR_SNAP_CMD. -/
def execDirSnapSnapshot (s : State) : Host.Outcome State Fault Refusal :=
  answer s (gate DIR_SNAP_CMD (dirEnter .snapCmd) s.m)
def execDirSnapRestore (s : State) : Host.Outcome State Fault Refusal :=
  answer s (gate DIR_SNAP_CMD (dirEnter .restoreCmd) s.m)
/-- DIR_SNAP_ABORT: the snapshot that is being written stops. -/
def execDirSnapAbort (s : State) : Host.Outcome State Fault Refusal := answer s (gate DIR_SNAP_CMD snapLost s.m)

/-- SNAPSHOT_PERIOD: the period of DIR_SNAP_CFG has passed. -/
def snapPeriod (m : Mach) : Mach := if fget DIR_SNAP_CFG.period m = 0 then m else dirEnter .snapCmd m
def execSnapshotPeriod (s : State) : Host.Outcome State Fault Refusal := answer s (snapPeriod s.m)

/-- SNAPSHOT_COMPLETE: the final journal record is written; the slot holds every entry valid now (R217). A restore that
waited starts. -/
def snapComplete (m : Mach) : Mach :=
  if fget DIR_SNAP_STATUS.state m = 1 then
    let i := snapSlot m
    let m0 := each (m.dir.ent.map Prod.fst) purgeLine m
    let s : Snap := { entries := m0.dir.ent.filterMap Prod.snd, nb := dirNb m0, seed := rd DIR_SEED m0,
                      seq := rd DIR_SEQ m0, tc := tick m0 }
    let m1 := setSnap i (some s) m0
    let m2 := setEv DIR_EVENTS.snap_done (refreshSnap (fset DIR_SNAP_STATUS.state 0
      { m1 with nvm := { m1.nvm with snapNew := i, snapFmt := fmtWrite 2 m } }))
    dirGoOn m2
  else m
def execSnapshotComplete (s : State) : Host.Outcome State Fault Refusal := answer s (snapComplete s.m)

/-- An entry takes its place in a list in descending last_seen order, before equal ones. -/
def insLastSeen (e : DirEntry) : List DirEntry → List DirEntry
  | [] => [e]
  | x :: l => if x.lastSeen.toNat ≤ e.lastSeen.toNat then e :: x :: l else x :: insLastSeen e l

/-- Entries in descending last_seen order, equal ones as they stand. -/
def byLastSeen (l : List DirEntry) : List DirEntry := l.foldr insLastSeen []

/-- R218: the entries are inserted until the quota is reached; the rest count as evicted. -/
def restoreEntries : List DirEntry → Mach → Mach
  | [], m => m
  | e :: l, m =>
    if atQuota m then setEv DIR_EVENTS.quota_evict (cnt DIR_EVICT_COUNT (l.length + 1) 0xFFFFFFFF m)
    else match dirInsert e m with
      | some m1 => restoreEntries l m1
      | none => restoreEntries l (cnt DIR_EVICT_COUNT 1 0xFFFFFFFF m)

/-- RESTORE_COMPLETE: the newest snapshot's entries stand; the requests that waited run; a PRIMARY resyncs its twin. -/
def restoreComplete (m : Mach) : Mach :=
  if fon DIR_STATUS.restoring m then
    let l := match newestSnap m with
      | some s => s.entries
      | none => []
    let m1 := restoreEntries (byLastSeen l) m
    let m2 := setEv DIR_EVENTS.restore_done (fset DIR_STATUS.restoring 0 (fset DIR_SNAP_STATUS.state 0 m1))
    let m3 := if role m2 = 1 && mirUp m2 then dirStream m2 else m2
    dirGoOn m3
  else m
def execRestoreComplete (s : State) : Host.Outcome State Fault Refusal := answer s (restoreComplete s.m)

/-! ### Quota eviction (R215, R216) -/

/-- QUOTA_EVICTION: one entry goes, the unpinned one seen longest ago, or quota_stuck is set. A STANDBY evicts nothing. -/
def quotaEviction (m : Mach) : Mach :=
  if role m = 2 || !dirOn m || decide (64 * m.dir.ent.length ≤ partQuota 0 m) then m
  else match oldest (m.dir.ent.map Prod.fst) m with
    | some k => setEv DIR_EVENTS.quota_evict (cnt DIR_EVICT_COUNT 1 0xFFFFFFFF (changePlace k none m))
    | none => setEv DIR_EVENTS.quota_stuck m
def execQuotaEviction (s : State) : Host.Outcome State Fault Refusal := answer s (quotaEviction s.m)

/-! ### Registers (R208) -/

/-- R208: DIR_CFG: only while the directory is empty, and only a table that fits the partition. -/
def dirCfgWrite (v : W) (m : Mach) : Mach :=
  let nb := v.toNat % 2 ^ 17
  if m.dir.ent.isEmpty && decide (1 ≤ nb ∧ nb ≤ 98304 ∧ 512 * nb ≤ partSize 0 m) then fset DIR_CFG.nb nb m
  else setEv DIR_EVENTS.cfg_refused m
def execDirCfgWrite (v : W) (s : State) : Host.Outcome State Fault Refusal := answer s (gate DIR_CFG (dirCfgWrite v) s.m)

/-- R208: DIR_SEED: only while the directory is empty. -/
def dirSeedWrite (v : W) (m : Mach) : Mach :=
  if m.dir.ent.isEmpty then wr DIR_SEED v m else setEv DIR_EVENTS.cfg_refused m
def execDirSeedWrite (v : W) (s : State) : Host.Outcome State Fault Refusal := answer s (gate DIR_SEED (dirSeedWrite v) s.m)

/-! ### The mirror (R219) -/

/-- The STANDBY requests a resync: its copy is discarded and filled anew. -/
def dirResync (m : Mach) : Mach :=
  send (.resyncReq 3) (setEv DIR_EVENTS.mirror_resync (fset DIR_MIRROR_STATUS.resync 1 (setInSync 3 false
    (refreshDir { m with dir := { m.dir with ent := [] } }))))

/-- The PRIMARY says that a copy starts: what the STANDBY holds is discarded. -/
def copyIn (m : Mach) : Mach :=
  fset DIR_MIRROR_STATUS.resync 1 (setInSync 3 false (refreshDir { m with dir := { m.dir with ent := [] } }))
/-- The copy and every later delta have been applied: the STANDBY is in sync, and acknowledges its end. -/
def copyDone (m : Mach) : Mach := send (.mirAck (rd DIR_SEQ m)) (setInSync 3 true (fset DIR_MIRROR_STATUS.resync 0 m))

/-- MIRROR_DELTA: the STANDBY applies a delta in sequence, or while a resync runs, and acknowledges it; on a gap it
requests a resync. -/
def mirrorDelta (q : W) (b : Nat) (pos : Nat) (e : Option DirEntry) (m : Mach) : Mach :=
  if role m != 2 then m
  else if fon DIR_MIRROR_STATUS.resync m || q == rd DIR_SEQ m + 1#32 then
    send (.mirAck q) (wr DIR_SEQ q (setPlace (8 * b + pos) e m))
  else dirResync m
def execMirrorDelta (seq : W) (bucket : Nat) (pos : Fin 8) (e : Option DirEntry) (s : State) :
    Host.Outcome State Fault Refusal :=
  answer s (mirrorDelta seq bucket pos e s.m)

end Sys2Proof.Machine
end

