-- ==== Sys2Proof/Machine/Fixed.lean ====
section
/-! DEFINITION. Fixed-point arithmetic with 60 bits after the point: the functions that the spec's formulas name (sine, cosine,
exponential, square root, logarithm, angle), each to better than 2^−40, by structural recursion. -/

namespace Sys2Proof.Machine

/-- The fixed-point 1, and n / d. -/
def fxOne : Int := 2 ^ 60
def fxOf (n : Int) (d : Nat) : Int := n * fxOne / d

/-- The product and the quotient. -/
def fxMul (a b : Int) : Int := a * b / fxOne
def fxDiv (a b : Int) : Int := a * fxOne / b

/-- 2π, ln 10, log10 2. -/
def fxTau : Int := 7244019458077122842
def fxLn10 : Int := 2654699869899991813
def fxLg2 : Int := 347063955532709820

/-- The alternating series of sine and cosine from its term `t` of degree `k`, `n` terms more. -/
def fxTrig : Nat → Nat → Int → Int → Int
  | 0, _, t, _ => t
  | n + 1, k, t, x2 => t + fxTrig n (k + 2) (-(fxMul t x2) / ((k + 1) * (k + 2) : Nat)) x2

/-- The exponential series from its term `t` of degree `k`, `n` terms more. -/
def fxExpSeries : Nat → Nat → Int → Int → Int
  | 0, _, t, _ => t
  | n + 1, k, t, x => t + fxExpSeries n (k + 1) (fxMul t x / (k + 1 : Nat)) x

/-- `x` squared `n` times over. -/
def fxSquares : Nat → Int → Int
  | 0, x => x
  | n + 1, x => fxSquares n (fxMul x x)

/-- e^x for |x| up to 16. -/
def fxExp (x : Int) : Int := fxSquares 8 (fxExpSeries 16 0 fxOne (x / 256))

/-- 10^(−n / d). -/
def fxPow10Neg (n d : Nat) : Int := fxExp (-(fxLn10 * n / d))

/-- The cosine and the sine of an angle in turns. -/
def fxCosSin (turns : Int) : Int × Int :=
  let r := turns % fxOne
  let k := (4 * r + fxOne / 2) / fxOne
  let x := fxMul fxTau (r - k * fxOne / 4)
  let c := fxTrig 12 0 fxOne (fxMul x x)
  let s := fxTrig 12 1 x (fxMul x x)
  if k % 4 = 0 then (c, s) else if k % 4 = 1 then (-s, c) else if k % 4 = 2 then (-c, -s) else (s, -c)

/-- The largest `r` whose square is at most `n`, by bits `b` − 1 down to 0 above `r`. -/
def sqrtBits : Nat → Nat → Nat → Nat
  | 0, r, _ => r
  | b + 1, r, n => if (r + 2 ^ b) * (r + 2 ^ b) ≤ n then sqrtBits b (r + 2 ^ b) n else sqrtBits b r n
/-- The square root of a whole number, rounded down. -/
def natSqrt (n : Nat) : Nat := sqrtBits (n.log2 / 2 + 1) 0 n
/-- The square root of a fixed-point number that is not negative. -/
def fxSqrt (x : Int) : Int := natSqrt (x * fxOne).toNat

/-- `n` binary digits of the logarithm to base 2 of `x`, which lies from 1 up to 2. -/
def logDigits : Nat → Int → Int
  | 0, _ => 0
  | n + 1, x =>
    let y := fxMul x x
    if 2 * fxOne ≤ y then 2 ^ n + logDigits n (y / 2) else logDigits n y
/-- log2 (n / d) of positive whole numbers. -/
def fxLog2 (n d : Nat) : Int :=
  let e : Int := (n.log2 : Int) - d.log2
  let x := if 0 ≤ e then (n * 2 ^ 60 : Int) / (d * 2 ^ e.toNat : Nat) else (n * 2 ^ 60 * 2 ^ (-e).toNat : Int) / d
  if x < fxOne then (e - 1) * fxOne + logDigits 60 (2 * x) else e * fxOne + logDigits 60 x
/-- 10 log10 (n / d). -/
def fxDb (n d : Nat) : Int := 10 * fxMul fxLg2 (fxLog2 n d)

/-- A vector scaled so that its greater component lies from 2^60 to 2^61. -/
def vecScale (v : Int × Int) : Int × Int :=
  let k := (max v.1.natAbs v.2.natAbs).log2
  if 60 < k then (v.1 / 2 ^ (k - 60), v.2 / 2 ^ (k - 60)) else (v.1 * 2 ^ (60 - k), v.2 * 2 ^ (60 - k))
/-- `n` binary digits of the angle in turns of a vector that is not zero. -/
def argDigits : Nat → Int × Int → Int
  | 0, _ => 0
  | n + 1, v =>
    let w := vecScale v
    let d : Int := if w.2 < 0 ∨ (w.2 = 0 ∧ w.1 < 0) then 2 ^ n else 0
    d + argDigits n ((w.1 * w.1 - w.2 * w.2) / fxOne, 2 * w.1 * w.2 / fxOne)
/-- The angle of a vector in turns, from 0 up to 1; 0 for the zero vector. -/
def fxArg (re im : Int) : Int := if re = 0 ∧ im = 0 then 0 else argDigits 60 (re, im)

/-- A fixed-point number rounded to the nearest whole number, an exact half away from zero. -/
def fxRoundAway (x : Int) : Int := if 0 ≤ x then (2 * x + fxOne) / (2 * fxOne) else -((fxOne - 2 * x) / (2 * fxOne))

end Sys2Proof.Machine
end

