-- ==== Sys2Proof/Machine/Synth.lean ====
section
/-! DEFINITION. The weight synthesiser's computation (R158, R170 to R177): the exact weight of every path, in the fixed point
of Machine/Fixed.lean, and the code that stands for it. -/

namespace Sys2Proof.Machine

/-- The product of two complex numbers in fixed point. -/
def fxCMul (a b : Int × Int) : Int × Int := (fxMul a.1 b.1 - fxMul a.2 b.2, fxMul a.1 b.2 + fxMul a.2 b.1)
/-- The magnitude of a complex number in fixed point. -/
def fxAbs (a : Int × Int) : Int := natSqrt (a.1 * a.1 + a.2 * a.2).toNat

/-- R171: the coordinates of path `n`'s element in 0.01 mm. -/
def synPos (x : SynIn) (n : Nat) : Int × Int × Int :=
  let c (i : Nat) : Int := sext 24 (x.geom.getD (4 * n + i) 0#32).toNat
  (c 0, c 1, c 2)

/-- R170: fc × d(n) / c of a direction, in turns: u = cos el sin az, v = sin el, w = cos el cos az. -/
def synTurns (x : SynIn) (n : Nat) : Int :=
  let a := fxCosSin (fxOf x.az 7200)
  let e := fxCosSin (fxOf x.el 7200)
  let p := synPos x n
  x.fc * (p.1 * fxMul e.1 a.2 + p.2.1 * e.2 + p.2.2 * fxMul e.1 a.1) / 29979245800

/-- R172: the gain of pattern table `k` at azimuth point `i` and elevation point `j`, in 2^−14 (DESIGN CHOICE, assumption 88: a
table runs through its elevations for each azimuth in turn, I before Q). -/
def patGain (x : SynIn) (k i j : Nat) : Int × Int :=
  let off := 7564 * k + 4 * (31 * i + j)
  (sext 16 (leAt x.pat off 2), sext 16 (leAt x.pat (off + 2) 2))

/-- R172: the pattern table's gain in the beam's direction, interpolated bilinearly on I and Q; 1 with pat_en 0. -/
def synGain (x : SynIn) (n : Nat) : Int × Int :=
  if x.pat.isEmpty then (fxOne, 0)
  else
    let k := (x.geom.getD (4 * n + 3) 0#32).toNat % 4
    let a := (x.az + 1800).toNat
    let e := (x.el + 1800).toNat
    let i := min 59 (a / 60)
    let j := min 29 (e / 120)
    let fa : Int := (a - 60 * i : Nat)
    let fe : Int := (e - 120 * j : Nat)
    let mix (f : Int × Int → Int) : Int :=
      ((60 - fa) * (120 - fe) * f (patGain x k i j) + fa * (120 - fe) * f (patGain x k (i + 1) j) +
        (60 - fa) * fe * f (patGain x k i (j + 1)) + fa * fe * f (patGain x k (i + 1) (j + 1))) * fxOne / (7200 * 16384)
    (mix Prod.fst, mix Prod.snd)

/-- R175: the included elements' centroid, times their number. -/
def synCentre (x : SynIn) : Int × Int × Int :=
  x.paths.foldl (fun s n => let p := synPos x n; (s.1 + p.1, s.2.1 + p.2.1, s.2.2 + p.2.2)) (0, 0, 0)
/-- R175: the square of element `n`'s distance from the centroid `c`, times the square of the elements' number. -/
def synDist (x : SynIn) (c : Int × Int × Int) (n : Nat) : Int :=
  let p := synPos x n
  let k : Int := x.paths.length
  (k * p.1 - c.1) ^ 2 + (k * p.2.1 - c.2.1) ^ 2 + (k * p.2.2 - c.2.2) ^ 2
/-- R175: the taper of element `n`, where `far` is the greatest such square; where every element lies at the centroid it is 1. -/
def synTaper (x : SynIn) (c : Int × Int × Int) (far : Int) (n : Nat) : Int :=
  if far = 0 then fxOne else fxExp (-(x.spread * (synDist x c n * fxOne / far) / 5))

/-- R170, R276: the correction C(n): the amplitudes (0.0001 dB) and the phases (2^−20 turn) of the path's two corrections of the
mesh's direction; 1 with corr_en 0. -/
def synCorr (x : SynIn) (n : Nat) : Int × Int :=
  if x.corr.isEmpty then (fxOne, 0)
  else
    let w (i : Nat) : Nat := (x.corr.getD (16 * n + (if x.dl then 8 else 0) + i) 0#32).toNat
    let r := fxExp (fxLn10 * (sext 20 (w 0) + sext 20 (w 4)) / 200000)
    let a := fxCosSin (fxOf (w 1 % 2 ^ 20 + w 5 % 2 ^ 20 : Nat) (2 ^ 20))
    (fxMul r a.1, fxMul r a.2)

/-- R173: the pool word of path `n` as a weight. -/
def synPoolW (x : SynIn) (n : Nat) : Int × Int :=
  let w := x.pool.getD n 0#32
  (sext 16 (wfld w 0 16) * 2 ^ 46, sext 16 (wfld w 16 16) * 2 ^ 46)

/-- R170, R173: the weights of the 64 paths before the normalisation K; an excluded path's is zero. -/
def synVec (x : SynIn) : List (Int × Int) :=
  let c := synCentre x
  let far := (x.paths.map (synDist x c)).foldl max 0
  (List.range 64).map fun n =>
    if !x.paths.contains n then (0, 0)
    else if !x.pool.isEmpty then fxCMul (synPoolW x n) (synCorr x n)
    else
      let g := synGain x n
      let a := fxCosSin (-synTurns x n)
      let t := synTaper x c far n
      fxCMul (fxMul t a.1, fxMul t a.2) (fxCMul (g.1, -g.2) (synCorr x n))

/-- R176: the downlink's attenuation, 10^(−att/80). -/
def synAtt (x : SynIn) : Int := if x.dl then fxPow10Neg x.att 80 else fxOne

/-- R176: K as a numerator and a denominator: with raw the attenuation alone; else over the sum of the magnitudes in the uplink,
and over the largest in the downlink. -/
def synNorm (x : SynIn) (v : List (Int × Int)) : Int × Int :=
  if x.raw then (synAtt x, fxOne)
  else (synAtt x, if x.dl then (v.map fxAbs).foldl max 0 else (v.map fxAbs).sum)

/-- R177: a factor 1 + e on a computed weight keeps the guarantee: at most 0.01° in phase and 0.002 dB in magnitude. -/
def synErrOk (e : Int × Int) : Bool :=
  let re := fxOne + e.1
  let sq := re * re + e.2 * e.2
  decide (0 < re ∧ (e.2.natAbs : Int) * 10 ^ 10 ≤ 1745329 * re ∧
    999539590 * fxOne * fxOne ≤ sq * 10 ^ 9 ∧ sq * 10 ^ 9 ≤ 1000460623 * fxOne * fxOne)

/-- R158, R177: the code before it is clipped that stands for the exact weight `w` (in 2^−60 code) of path `n`: with the
synthesiser's own error, rounded to the nearest code, ties away from zero (DESIGN CHOICE, assumption 30: the error is free, within
R177's guarantee from 2^12 codes up). -/
def synRound (x : SynIn) (n : Nat) (w : Int × Int) : Int × Int :=
  let e := Config.synthErr x n
  let big := decide (2 ^ 12 * fxOne ≤ fxAbs w)
  let f := if big && !synErrOk e then (fxOne, 0) else (fxOne + e.1, e.2)
  let y := fxCMul w f
  (fxRoundAway y.1, fxRoundAway y.2)

/-- R173, R176: every computation of the vector is exact: a raw pool vector without correction and with K = 1. -/
def synExact (x : SynIn) : Bool := x.raw && x.corr.isEmpty && (!x.dl || x.att == 0)

/-- The codes of the 64 paths before they are clipped. -/
def synCodes (x : SynIn) : List (Int × Int) :=
  let v := synVec x
  let k := synNorm x v
  (List.range 64).map fun n =>
    let p := v.getD n (0, 0)
    if synExact x then (p.1 / 2 ^ 42, p.2 / 2 ^ 42)
    else if k.2 = 0 then (0, 0)
    else synRound x n (p.1 * k.1 * 2 ^ 18 / k.2, p.2 * k.1 * 2 ^ 18 / k.2)

/-- The weights of the 64 paths, and whether one was clipped (R158). An excluded path's weight is zero. -/
def synWeights (x : SynIn) : List (Int × Int) × Bool :=
  let raw := synCodes x
  (raw.map fun p => (satS 20 p.1, satS 20 p.2), raw.any fun p => decide (satS 20 p.1 ≠ p.1 ∨ satS 20 p.2 ≠ p.2))

end Sys2Proof.Machine
end

