-- ==== Sys2Proof/Machine/Fes.lean ====
section
/-! DEFINITION. The front-end sequencers (spec/07, R231 to R245): pins, the front-end bus, events, actions, and the
decision of a burst. -/

namespace Sys2Proof.Machine

/-! ### Pins (R232, R233) -/

/-- R74: a device on its way from ACTIVE to WARM whose quadrants have left RUNNING waits with its PA controls disabled. -/
def warmWait (m : Mach) : Bool := m.trans == some .toWarmBack && quads4.all fun q => quadState q m != 2

/-- R233, R407: the conditions under which quadrant `q`'s PA-class pins follow the sequencer. -/
def paOk (q : Nat) (m : Mach) : Bool :=
  isActive m && !warmWait m && hasToken m && decide (2 ≤ quadState q m) && (getFes q m).drop.isEmpty &&
    !(m.clk.gatedLoops.contains 0 || m.clk.gatedLoops.contains (1 + q))

/-- R232: every pin is at its safe level. -/
def allSafe (q : Nat) (m : Mach) : Bool :=
  quadState q m == 0 || !fon (QUAD_FES_CTRL.seq_en q) m || !decide (4 ≤ devState m ∧ devState m ≤ 6)

/-- The ball level of pin `i` (R232, R233). -/
def pinLevel (q i : Nat) (m : Mach) : Bool :=
  let safe := (fget (QUAD_FES_PINCFG.safe q) m).testBit i
  let pa := (fget (QUAD_FES_PINCFG.pa_mask q) m).testBit i
  if allSafe q m || (pa && !paOk q m) then safe
  else ((getFes q m).lvl.testBit i) != ((fget (QUAD_FES_PINCFG.pol q) m).testBit i)

/-- The eight ball levels. -/
def pinLevels (q : Nat) (m : Mach) : Nat := ((List.range 8).map fun i => if pinLevel q i m then 2 ^ i else 0).sum

/-- QUAD_FES_STATUS follows the pins and the queues. Where a condition of R233 has just failed and the quadrant has a
PA-class pin, safe_forced is set. `forced` reads 1 while such a pin is held safe, POWERED_DOWN included (DEDUCED, assumption
25). -/
def refreshFes (q : Nat) (m : Mach) : Mach :=
  let x := getFes q m
  let pa := decide (fget (QUAD_FES_PINCFG.pa_mask q) m ≠ 0)
  let ok := paOk q m
  let m1 := fsetB (QUAD_FES_STATUS.forced q) (pa && !ok)
    (fset (QUAD_FES_STATUS.fec q) (pinLevels q m)
      (fset (QUAD_FES_STATUS.fcb_q q) x.fcb.length (fset (QUAD_FES_STATUS.pend q) x.acts.length m)))
  setEvIf (x.paOk && !ok && pa) (QUAD_FES_EVENTS.safe_forced q) (setFes q { getFes q m1 with paOk := ok } m1)

/-- Every quadrant's pins follow a change of the device. -/
def refreshPins (m : Mach) : Mach := each quads4 refreshFes m

/-! ### Actions (R237, R239, R241) -/

/-- R261: an adaptation capture that runs on receiver `o` is spoilt. -/
def spoilCap (o : Nat) (m : Mach) : Mach :=
  match tabGet (fun _ => none) m.pdCap o with
  | some c => if c.done then m else { m with pdCap := tabPut (fun _ => none) m.pdCap o (some { c with bad := true }) }
  | none => m

/-- R111, R129: the coupler register of observation receiver `o` takes `n`: a change tags the next 64 samples SETTLING. -/
def setCoupler (o n : Nat) (m : Mach) : Mach :=
  let old := fget (QUAD_OBS_COUPLER.coupler_n (toObs o)) m
  let m1 := wr (QUAD_OBS_COUPLER (toObs o)) (BitVec.ofNat 32 (n % 64)) m
  if old = n % 64 then m1
  else spoilCap o (couplerChanged o (setRx (64 + o) { getRx (64 + o) m1 with settle := max 64 (getRx (64 + o) m1).settle } m1))

/-- R235: an FCB frame due at tick `due` joins the queue; a full queue drops it. -/
def queueFcb (q w due : Nat) (m : Mach) : Mach :=
  let x := getFes q m
  if x.fcb.length < 16 then refreshFes q (setFes q { x with fcb := x.fcb ++ [(w % 2 ^ 24, due)] } m)
  else setEv (QUAD_FES_EVENTS.fcb_ovf q) m

/-- One action executes at tick `t`. -/
def runAct (q t kind mask value : Nat) (m : Mach) : Mach :=
  let x := getFes q m
  match kind with
  | 0 => refreshFes q (setFes q { x with lvl := x.lvl ||| mask } m)
  | 1 => refreshFes q (setFes q { x with lvl := x.lvl &&& (255 - mask % 256) } m)
  | 2 => queueFcb q value t m
  | _ =>
    let m1 := setCoupler (2 * q + mask % 2) (value % 64) m
    if value / 256 = 0xFFFFFF then m1 else queueFcb q (value / 256) t m1

/-- An action of the deck's table is scheduled from reference instant `b` (R239). -/
def schedAct (q b k : Nat) (m : Mach) : Mach :=
  let w0 := (rd (QUAD_FES_ACT_w q k 0) m)
  let value := (rd (QUAD_FES_ACT_w q k 1) m).toNat
  let at_ : Int := (b : Int) + sext 16 (wfld w0 0 16)
  let kind := wfld w0 16 8
  let mask := wfld w0 24 8
  let x := getFes q m
  if at_ < (tick m : Int) then runAct q (tick m) kind mask value (setEv (QUAD_FES_EVENTS.act_late q) m)
  else if x.acts.length < 64 then
    refreshFes q (setFes q { x with acts := x.acts ++ [⟨at_.toNat, x.ser, kind, mask, value⟩], ser := x.ser + 1 } m)
  else setEv (QUAD_FES_EVENTS.act_ovf q) m

/-- The pending action that executes next: the earliest tick, then the order of scheduling (R239). -/
def firstAct (l : List PendAct) : Option PendAct :=
  l.foldl (fun o a => match o with
    | none => some a
    | some b => if a.at_ < b.at_ ∨ (a.at_ = b.at_ ∧ a.ser < b.ser) then some a else some b) none

/-- SEQUENCER_ACTION: the next pending action executes at its tick. -/
def sequencerAction (q : Nat) (m : Mach) : Mach :=
  match firstAct (getFes q m).acts with
  | none => m
  | some a =>
    let m1 := advanceTo a.at_ m
    let x := getFes q m1
    runAct q a.at_ a.kind a.mask a.value (refreshFes q (setFes q { x with acts := x.acts.filter fun b => b.ser != a.ser } m1))
def execSequencerAction (q : Fin 4) (s : State) : Host.Outcome State Fault Refusal := answer s (sequencerAction q s.m)

/-! ### Events (R236, R238) -/

/-- Entering state `st` at instant `b`: its actions are scheduled and its timer restarts. -/
def enterState (q st b : Nat) (m : Mach) : Mach :=
  let w0 := rd (QUAD_FES_STATE_w q st 0) m
  let tm := (rd (QUAD_FES_STATE_w q st 1) m).toNat
  let m1 := fset (QUAD_FES_STATUS.state q) st m
  let m2 := setFes q { getFes q m1 with timer := if tm = 0 then none else some (tick m1 + tm) } m1
  each ((List.range (wfld w0 16 8)).map (wfld w0 0 16 + ·)) (schedAct q b) m2

/-- The four transitions of state `st`, tr0 first: event code, next state, valid (R237). -/
def transitions (q st : Nat) (m : Mach) : List (Nat × Nat × Bool) :=
  let w2 := (rd (QUAD_FES_STATE_w q st 2) m).toNat
  let w3 := (rd (QUAD_FES_STATE_w q st 3) m).toNat
  [w2 % 65536, w2 / 65536, w3 % 65536, w3 / 65536].map fun t => (t % 16, t / 16 % 64, decide (t / 32768 = 1))

/-- The sequencer of quadrant `q` runs. -/
def seqOn (q : Nat) (m : Mach) : Bool := fon (QUAD_FES_CTRL.seq_en q) m && quadState q m != 0

/-- R238: event `code` with reference instant `b` is delivered to quadrant `q`'s sequencer. -/
def fesEvent (q code b : Nat) (m : Mach) : Mach :=
  if seqOn q m then
    match (transitions q (fget (QUAD_FES_STATUS.state q) m) m).find? fun t => t.2.2 && t.1 == code with
    | some t => enterState q t.2.1 b m
    | none => m
  else m

/-- The event is delivered now: B is the delivery tick. At a slot boundary it waits for the others of its tick. -/
def fesNow (q code : Nat) (m : Mach) : Mach :=
  match m.evHold with
  | none => fesEvent q code (tick m) m
  | some l => { m with evHold := some (l ++ [(q, code)]) }

/-- The events of a slot boundary's tick are collected, and delivered in ascending code order (R236). -/
def holdEvents (m : Mach) : Mach := { m with evHold := some [] }
def deliverEvents (m : Mach) : Mach :=
  let l := m.evHold.getD []
  each (List.range 16) (fun code s => each (l.filter fun e => e.2 == code) (fun e t => fesEvent e.1 code (tick t) t) s)
    { m with evHold := none }

/-- R237, R242: the sequencer starts in state 0 with nothing pending. -/
def fesRestart (q : Nat) (m : Mach) : Mach :=
  refreshFes q (setFes q { getFes q m with acts := [], timer := none } (fset (QUAD_FES_STATUS.state q) 0 m))

/-- FRAME: fe_lead before the frame boundary. -/
def evFrame (q : Nat) (m : Mach) : Mach :=
  let b := nextFrameTick m
  if timingOn m then fesEvent q 4 b (advanceTo (b - (getFes q m).lead) m) else m
def execFrame (q : Fin 4) (s : State) : Host.Outcome State Fault Refusal := answer s (evFrame q s.m)

/-- R417: the slot event of slot `s` for quadrant `q`. -/
def slotEvent (s : Slot) (q : Nat) : Nat :=
  if slotTx s q then 5 else if s.ty = 2 ∧ slotRx s q then 7 else if slotRx s q then 6 else 8

/-- The slots to come, with the ticks at which they begin and end, whose events at lead time `lead` come before the next slot
boundary (R240: the frame table is read in advance). -/
def leadSlots (lead : Nat) (m : Mach) : List (Slot × Nat × Nat) :=
  let l := slotsAhead m
  ((l.zip (l.drop 1)).map fun p => (p.1.1, p.1.2, p.2.2)).takeWhile fun n => decide (n.2.1 - lead < (nextSlot m).2)

/-- A slot event is delivered fe_lead before the boundary of a slot of its kind, the first whose event is still to come. -/
def evSlot (q code : Nat) (m : Mach) : Mach :=
  let x := getFes q m
  match (leadSlots x.lead m).find? fun n => decide (x.evDone < n.2.1) with
  | some n =>
    if timingOn m ∧ slotEvent n.1 q = code then
      let m1 := advanceTo (n.2.1 - x.lead) m
      fesEvent q code n.2.1 (setFes q { getFes q m1 with evDone := n.2.1 } m1)
    else m
  | none => m
def execSlotTx (q : Fin 4) (s : State) : Host.Outcome State Fault Refusal := answer s (evSlot q 5 s.m)
def execSlotRx (q : Fin 4) (s : State) : Host.Outcome State Fault Refusal := answer s (evSlot q 6 s.m)
def execSlotAcq (q : Fin 4) (s : State) : Host.Outcome State Fault Refusal := answer s (evSlot q 7 s.m)

/-- TIMER: the timer of the current state expires. -/
def evTimer (q : Nat) (m : Mach) : Mach :=
  match (getFes q m).timer with
  | none => m
  | some t =>
    let m1 := advanceTo t m
    fesNow q 14 (setFes q { getFes q m1 with timer := none } m1)
def execTimer (q : Fin 4) (s : State) : Host.Outcome State Fault Refusal := answer s (evTimer q s.m)

/-- SW: a keyed write of QUAD_FES_SW with sw = 1. -/
def execSw (q : Fin 4) (s : State) : Host.Outcome State Fault Refusal :=
  answer s (gate (QUAD_FES_SW q) (fesNow q 15) s.m)

/-- A write of QUAD_FES_SW: another key is ignored; sw = 1 delivers SW. -/
def fesSwWrite (q : Nat) (v : W) (m : Mach) : Mach :=
  if wfld v 16 16 = 0x3B92 ∧ v.getLsbD 0 then fesNow q 15 m else m

/-- R234: the 25 bits of a frame in the order sent: the word, most significant bit first, and the bit that makes the number of ones
even. -/
def fcbBits (w : Nat) : List Bool :=
  let l := ((List.range 24).map fun i => w.testBit i).reverse
  l ++ [decide ((l.countP id) % 2 = 1)]

/-- FCB_FRAME: the frame at the head of the queue is sent, at least 64 ticks after the last; a delay above 64 ticks sets
act_late (R234, R235). While every pin is safe the bus is quiet (R232). -/
def fcbFrame (q : Nat) (m : Mach) : Mach :=
  let x := getFes q m
  match x.fcb with
  | [] => m
  | (w, due) :: l =>
    if allSafe q m then m
    else
      let start := match x.fcbLast with
        | some t => max due (t + 64)
        | none => due
      let m1 := advanceTo start m
      let m2 := refreshFes q (setFes q { getFes q m1 with fcb := l, fcbLast := some start } m1)
      send (.fcb q (fcbBits w) 26 start) (setEvIf (decide (due + 64 < start)) (QUAD_FES_EVENTS.act_late q) m2)
def execFcbFrame (q : Fin 4) (s : State) : Host.Outcome State Fault Refusal := answer s (fcbFrame q s.m)

/-! ### Bursts (R244, R245) -/

/-- R404, R410: the slot that begins at tick `b` lies in the span of a class B change or of a moved grid. -/
def burstHeld (b : Nat) (m : Mach) : Bool :=
  (m.clk.hold && decide (b < nextFrameTick m)) || (match m.clk.classB with
    | some c => decide (c.start ≤ b)
    | none => false)

/-- R244: MPLL and QPLL are locked (a loop is LOCKED once calibrated) and the converter clocks are not gated. -/
def burstReady (q b : Nat) (m : Mach) : Bool :=
  fget CLK_STATUS.mpll m == 3 && fget (CLK_STATUS.qpll_q q) m == 2 && !inMask (fget CLK_STATUS.gated_q m) q && !burstHeld b m

/-- R245: the burst of the slot from tick `b` to tick `e` is dropped. -/
def dropBurst (q b e : Nat) (m : Mach) : Mach :=
  let x := getFes q m
  let m1 := cnt (QUAD_TX_DROP_COUNT q) 1 0xFFFFFFFF (setEv (QUAD_FES_EVENTS.tx_late q)
    (setFes q { x with drop := x.drop ++ [(b, e)] } m))
  fesEvent q 2 b (sendNat 0 (.txLate q b) (refreshFes q m1))

/-- BURST_DECISION: fe_lead before a slot with transmit traffic of a RUNNING quadrant, the first not decided yet. -/
def burstDecision (q : Nat) (m : Mach) : Mach :=
  let x := getFes q m
  match (leadSlots x.lead m).find? fun n => decide (x.burstDone < n.2.1) && slotTx n.1 q with
  | some n =>
    if timingOn m ∧ quadState q m = 2 then
      let m1 := advanceTo (n.2.1 - x.lead) m
      let m2 := setFes q { getFes q m1 with burstDone := n.2.1 } m1
      if burstReady q n.2.1 m2 then fesEvent q 3 n.2.1 m2 else dropBurst q n.2.1 n.2.2 m2
    else m
  | none => m
def execBurstDecision (q : Fin 4) (s : State) : Host.Outcome State Fault Refusal := answer s (burstDecision q s.m)

/-- The running slot of quadrant `q` is that of a dropped burst. -/
def dropNow (q : Nat) (m : Mach) : Bool := (getFes q m).drop.any fun d => decide (d.1 ≤ m.slotStart ∧ m.slotStart < d.2)

/-- R245: at a slot boundary the dropped bursts that end there are over; the pins follow. -/
def endDrops (q : Nat) (m : Mach) : Mach :=
  let x := getFes q m
  setFes q { x with drop := x.drop.filter fun d => decide (m.slotStart < d.2) } m

/-- R240: fe_lead in force: a change applies at the frame boundary; below 16 acts as 16. -/
def applyLead (q : Nat) (m : Mach) : Mach :=
  setFes q { getFes q m with lead := max 16 (fget (QUAD_FES_CTRL.fe_lead q) m) } m

/-- QUAD_FES_CTRL and QUAD_FES_PINCFG writes: the pins follow at once. -/
def fesCfgWrite (q a : Nat) (v mask : W) (m : Mach) : Mach := refreshFes q (wr a (v &&& mask) m)

end Sys2Proof.Machine
end

