-- ==== Sys2Proof/Machine/Taps.lean ====
section
/-! DEFINITION. The coefficients that R133, R136 and R149 leave to the ROM: free values, taken where they keep the figures that
the rules guarantee, and otherwise a fixed design that keeps them (assumption 26). -/

namespace Sys2Proof.Machine

/-! ### Polynomials, the highest power first -/

/-- The value at `x`. -/
def polyAt (p : List Rat) (x : Rat) : Rat := p.foldl (fun a c => a * x + c) 0
/-- Without leading zeros. -/
def polyTrim (p : List Rat) : List Rat := p.dropWhile (· == 0)
/-- The sum. -/
def polyAdd (a b : List Rat) : List Rat :=
  let n := max a.length b.length
  List.zipWith (· + ·) (List.replicate (n - a.length) 0 ++ a) (List.replicate (n - b.length) 0 ++ b)
/-- The product with a number. -/
def polyScale (k : Rat) (p : List Rat) : List Rat := p.map (k * ·)
/-- The derivative. -/
def polyDeriv (p : List Rat) : List Rat := (p.dropLast.zipIdx).map fun e => ((p.length - 1 - e.2 : Nat) : Rat) * e.1
/-- The remainder of `a` by `b`, whose first coefficient is not 0, in `n` steps. -/
def polyRem : Nat → List Rat → List Rat → List Rat
  | 0, a, _ => a
  | n + 1, a, b =>
    if a.length < b.length then a
    else polyRem n (polyAdd a (polyScale (-(a.headD 0 / b.headD 1)) b ++ List.replicate (a.length - b.length) 0)).tail b
/-- The Sturm chain that begins with `a`, `b`, in `n` steps. -/
def sturmChain : Nat → List Rat → List Rat → List (List Rat)
  | 0, a, _ => [a]
  | n + 1, a, b =>
    if (polyTrim b).isEmpty then [a] else a :: sturmChain n (polyTrim b) (polyScale (-1) (polyRem 200 a (polyTrim b)))
/-- The changes of sign in a list, zeros passed over. -/
def signChanges (l : List Rat) : Nat :=
  let s := l.filter (· != 0)
  ((s.zip s.tail).filter fun e => decide (e.1 * e.2 < 0)).length
/-- The polynomial has no root above `a` and up to `b` (Sturm), and none at `a`. -/
def rootFree (p : List Rat) (a b : Rat) : Bool :=
  let c := sturmChain 200 (polyTrim p) (polyDeriv (polyTrim p))
  polyAt p a != 0 && signChanges (c.map fun q => polyAt q a) == signChanges (c.map fun q => polyAt q b)
/-- The magnitude of the polynomial is below `d` everywhere from `a` to `b`. -/
def below (p : List Rat) (d a b : Rat) : Bool :=
  let v := polyAt p a
  decide (-d < v ∧ v < d) && rootFree (polyAdd p [-d]) a b && rootFree (polyAdd p [d]) a b
/-- The Chebyshev polynomials of degrees `k`, `k` + 1 and on, `n` of them. -/
def chebs : Nat → List Rat → List Rat → List (List Rat)
  | 0, _, _ => []
  | n + 1, a, b => a :: chebs n b (polyAdd (polyScale 2 (b ++ [0])) (polyScale (-1) a))
/-- The response of a linear-phase filter in x = cos ω, from its coefficients outwards from the centre one, in 2^−60. -/
def zeroPhase (h : List Int) : List Rat :=
  let t := chebs h.length [1] [1, 0]
  ((h.zip t).zipIdx.map fun e => polyScale ((if e.2 = 0 then 1 else 2 : Rat) * (e.1.1 : Rat) / (2 ^ 60 : Nat)) e.1.2).foldl
    polyAdd []

/-! ### The responses (R136, R149) -/

/-- R136, R149: the number of taps of a response: 0 F, 1 S, 2 N, 3 L, and 4 for the fixed interpolator. -/
def respTaps (r : Nat) : Nat :=
  match r with
  | 0 => 95
  | 1 => 63
  | 2 => 39
  | 3 => 19
  | _ => 23

/-- The coefficients of a half-band response outwards from the centre one: a half, those of the odd places, and zero at each
even place between them. -/
def halfBand (odd : List Int) : List Int := (fxOne / 2) :: (odd.flatMap fun c => [c, 0]).dropLast

/-- A design of each response that keeps its figures, in 2^−20 (N in 2^−22). -/
def refHalf (r : Nat) : List Int :=
  match r with
  | 0 => halfBand ([333288, -109812, 64369, -44393, 32941, -25403, 20008, -15936, 12752, -10206, 8142, -6455, 5074, -3946,
      3027, -2287, 1695, -1229, 868, -594, 390, -244, 141, -94].map (· * 2 ^ 40))
  | 1 => halfBand ([332277, -106843, 59630, -38174, 25608, -17360, 11664, -7668, 4882, -2980, 1725, -934, 464, -205, 76,
      -21].map (· * 2 ^ 40))
  | 2 => halfBand ([1312207, -380661, 172371, -79970, 34326, -12905, 4043, -989, 169, -15].map (· * 2 ^ 38))
  | 3 => halfBand ([320902, -77655, 23741, -5536, 694].map (· * 2 ^ 40))
  | _ => halfBand ([322954, -82439, 28466, -8400, 1753, -191].map (· * 2 ^ 40))

/-- R136: the cosine of the stopband edge of a response, at most 10^−9 above it, and the stopband level. A half-band response adds
up to 1 with its mirror image about a quarter of the rate, so its passband ripple is its stopband level, which lies within the
ripple the rule gives. -/
def stopEdge (r : Nat) : Rat × Rat :=
  match r with
  | 0 => (-156434465 / 1000000000, 1 / 10000)
  | 1 => (-309016994 / 1000000000, 1 / 100000)
  | 2 => (-707106781 / 1000000000, 3162277 / 1000000000000)
  | _ => (-809016994 / 1000000000, 5623413 / 100000000000)

/-- The coefficients of response `r` that the free values spell: half-band and symmetric, and for the fixed interpolator
symmetric. -/
def freeHalf (r : Nat) : List Int :=
  let c (k : Nat) : Int := Config.tap r k
  if r < 4 then halfBand ((List.range ((respTaps r + 1) / 4)).map c) else (List.range 12).map c

/-- R136: the response keeps its stopband figure; R149: the fixed interpolator keeps 90 dB from 0.8 of its input rate, and its
passband is unity to the same level (DESIGN CHOICE, assumption 26: no ripple is stated for it). -/
def halfOk (r : Nat) (h : List Int) : Bool :=
  if r < 4 then let e := stopEdge r; below (zeroPhase h) e.2 (-1) e.1
  else
    let d : Rat := 3162277 / 100000000000
    below (zeroPhase h) d (-1) (-809016994 / 1000000000) && below (polyAdd (zeroPhase h) [-1]) d (809016994 / 1000000000) 1

/-- The coefficients of response `r` outwards from its centre, in 2^−60. -/
def halfOf (r : Nat) : List Int := if halfOk r (freeHalf r) then freeHalf r else refHalf r

/-- The coefficients of the five responses. -/
def halves : List (List Int) := (List.range 5).map halfOf

/-- Tap `t` of response `r`, in 2^−60. -/
def tapOf (r t : Nat) : Int :=
  let c := (respTaps r - 1) / 2
  (halves.getD r []).getD (if t < c then c - t else t - c) 0

/-! ### The sine and the cosine (R133, R134) -/

/-- A ROM value in 2^−60: the exact one with the free error where that keeps the spurs, within the unity gain of the mixer, whose
products then fit 20 bits. -/
def romVal (x e : Int) : Int :=
  let top := fxOne - 2 ^ 40
  max (-top) (min top (x + e))

/-- R133: the cosine and the sine for the top 20 bits `p` of the accumulator. The error of an entry is at most 0.75 × 10^−6, which
with the 20-bit phase keeps every spur at or below −115 dBFS. -/
def ncoRom (p : Nat) : Int × Int :=
  let x := fxCosSin ((p % 2 ^ 20 : Nat) * 2 ^ 40)
  let e := Config.ncoErr p
  let lim : Int := fxOne * 3 / 4000000
  if e.1 * e.1 + e.2 * e.2 ≤ lim * lim then (romVal x.1 e.1, romVal x.2 e.2) else (romVal x.1 0, romVal x.2 0)

end Sys2Proof.Machine
end

