-- ==== Sys2Proof/Machine/Chains.lean ====
section
/-! DEFINITION. The sample-rate conversion chains (spec/04): NCO, mixer, half-band stages, their tags, and the writes that
set them. -/

namespace Sys2Proof.Machine

/-! ### Chains by key -/

/-- The key of a chain in the state: DDC n, DUC 64 + n, observation 128 + o. -/
def chainKey : ChainId → Nat
  | .ddc n => n
  | .duc n => 64 + n
  | .obs o => 128 + o

/-- Every chain. -/
def allChains : List ChainId := (paths64.map fun n => .ddc (toPath n)) ++ (paths64.map fun n => .duc (toPath n)) ++
  (List.range 8).map fun o => .obs (toObs o)

/-- A transmit chain. -/
def chainIsTx : ChainId → Bool
  | .duc _ => true
  | _ => false

/-- The quadrant of a chain. -/
def chainQuad : ChainId → Nat
  | .ddc n => n / 16
  | .duc n => n / 16
  | .obs o => o / 2

/-- Stage `k` of a chain: 1 to 8 the half-band stages, 9 the fixed interpolator. -/
def getStage (c : ChainId) (k : Nat) (m : Mach) : StageSt := tabGet (fun _ => {}) (getChain (chainKey c) m).stages k
def setStageSt (c : ChainId) (k : Nat) (x : StageSt) (m : Mach) : Mach :=
  let y := getChain (chainKey c) m
  setChain (chainKey c) { y with stages := tabPut (fun _ => {}) y.stages k x } m

/-! ### Half-band stages (R136 to R151) -/

/-- R139: the shift a code stands for. -/
def shiftOf (code : Nat) : Int := if code < 4 then code else (code : Int) - 8

/-- R138: a full-precision value in 2^−60, times 2^sh, towards minus infinity and reduced to 20 bits, and whether it
saturated. -/
def reduce20 (x sh : Int) : Int × Bool :=
  let v := if 0 ≤ sh then x * 2 ^ sh.toNat / fxOne else x / (fxOne * 2 ^ (-sh).toNat)
  (satS 20 v, decide (satS 20 v ≠ v))

/-- A stage's output from its weighted sums and its tag (R110, R138): GAP forces zero; a saturated one gets ovr. -/
def stageOut (re im sh : Int) (t : Tag × Bool) : Sample × Bool :=
  if t.1 = .gap then ({ gapSample with ovr := t.2 }, false)
  else
    let a := reduce20 re sh
    let b := reduce20 im sh
    ({ i := a.1, q := b.1, st := t.1, ovr := t.2 || a.2 || b.2 }, a.2 || b.2)

/-- The tag of a window of inputs (R142): every input counts; SETTLING where it holds inputs from both sides of a
change. -/
def windowTag (l : List Sample) (settling : Bool) : Tag × Bool :=
  l.foldl (fun t s => tagMerge t s.tag) (if settling then .settling else .valid, false)

/-- The sum of taps and inputs, newest input first, tap `t0 + step × k` at the k-th. -/
def tapSum (r t0 step : Nat) (f : Sample → Int) (l : List Sample) : Int :=
  (l.zipIdx.map fun p => tapOf r (t0 + step * p.2) * f p.1).sum

/-- R143: a decimation stage takes an input; at an even index it forms an output from its window of N. -/
def decimStep (r : Nat) (sh : Int) (x : Sample) (s : StageSt) : StageSt × Option (Sample × Bool) :=
  let n := respTaps r
  let h := (x :: s.hist).take 95
  let w := h.take n
  let settling := match s.chg with
    | some c => decide (c ≤ s.idx ∧ s.idx + 1 < c + n)
    | none => false
  ({ s with hist := h, idx := s.idx + 1 },
    if s.idx % 2 = 0 then
      some (stageOut (tapSum r 0 1 Sample.i w) (tapSum r 0 1 Sample.q w) sh (windowTag w settling))
    else none)

/-- R151: output `p` of an interpolation stage, from the inserted-zero stream with the stage's gain of 2; input j sits at
position 2j. -/
def interpOut (r : Nat) (sh : Int) (s : StageSt) (p : Nat) : Sample × Bool :=
  let n := respTaps r
  let o := p % 2
  let w := s.hist.take ((n - 1 - o) / 2 + 1)
  let settling := match s.chg with
    | some c => decide (2 * c ≤ p ∧ p + 3 ≤ 2 * c + n)
    | none => false
  stageOut (2 * tapSum r o 2 Sample.i w) (2 * tapSum r o 2 Sample.q w) sh (windowTag w settling)

/-- An interpolation stage takes an input and forms two outputs. -/
def interpStep (r : Nat) (sh : Int) (x : Sample) (s : StageSt) : StageSt × List (Sample × Bool) :=
  let s1 := { s with hist := (x :: s.hist).take 95 }
  ({ s1 with idx := s.idx + 1 }, [interpOut r sh s1 (2 * s.idx), interpOut r sh s1 (2 * s.idx + 1)])

/-- The response and shift in force of stage `k`. -/
def stageResp (c : ChainId) (k : Nat) (m : Mach) : Nat := if k = 9 then 4 else fget (QUAD_DDC_RESP.resp c k) m
def stageShift (c : ChainId) (k : Nat) (m : Mach) : Int := if k = 9 then 0 else shiftOf (fget (QUAD_DDC_SHIFT.sh c k) m)

/-- R138: a stage saturated: the count and the event. -/
def chainSat (c : ChainId) (sat : Bool) (m : Mach) : Mach :=
  if sat then setEv (QUAD_DDC_EVENTS.sat c) (cnt (QUAD_DDC_SAT_COUNT c) 1 0xFFFFFFFF m) else m

/-- A sample through decimation stage `k`, if one comes. -/
def runDecim (c : ChainId) (k : Nat) (r : Option Sample × Mach) : Option Sample × Mach :=
  match r.1 with
  | none => r
  | some x =>
    let p := decimStep (stageResp c k r.2) (stageShift c k r.2) x (getStage c k r.2)
    let m1 := setStageSt c k p.1 r.2
    match p.2 with
    | none => (none, m1)
    | some y => (some y.1, chainSat c y.2 m1)

/-- One sample through interpolation stage `k`. -/
def runInterp1 (c : ChainId) (k : Nat) (x : Sample) (m : Mach) : List Sample × Mach :=
  let p := interpStep (stageResp c k m) (stageShift c k m) x (getStage c k m)
  (p.2.map Prod.fst, each p.2 (fun y s => chainSat c y.2 s) (setStageSt c k p.1 m))

/-- Samples through interpolation stage `k`, in order. -/
def runInterp (c : ChainId) (k : Nat) (r : List Sample × Mach) : List Sample × Mach :=
  r.1.foldl (fun a x => let p := runInterp1 c k x a.2; (a.1 ++ p.1, p.2)) ([], r.2)

/-! ### NCO and mixer (R131 to R135, R150) -/

/-- The stages in force. -/
def nstages (c : ChainId) (m : Mach) : Nat := fget (QUAD_DDC_STATUS.nstages_act c) m

/-- R133: the accumulator after one more converter sample. A new FTW is added from the sample after the boundary sample on: the
boundary sample's own phase is reached with the FTW before it (DESIGN CHOICE, assumption 83). -/
def ncoNext (x : ChainSt) : ChainSt := { x with acc := (x.acc + x.ftw) % 2 ^ 48, k := x.k + 1 }

/-- R131, R134: the receive mixer, by e^(−jθ), truncated. The ROM's values are below 1, so the products fit 20 bits. -/
def mixDown (acc : Nat) (s : Sample) : Sample :=
  let c := ncoRom (acc / 2 ^ 28)
  { s with i := s.i * c.1 / fxOne, q := -(s.i * c.2) / fxOne }

/-- R150: the real part after the transmit mixer, by e^(+jθ), truncated; the DAC limits it (R221). -/
def mixUp (acc : Nat) (s : Sample) : Sample :=
  let c := ncoRom (acc / 2 ^ 28)
  if s.st = .gap then { s with i := 0, q := 0 } else { s with i := (s.i * c.1 - s.q * c.2) / fxOne, q := 0 }

/-- R135: conjugation; −524 288 becomes +524 287 with ovr. -/
def conjS (s : Sample) : Sample :=
  if s.q = -524288 then { s with q := 524287, ovr := true } else { s with q := -s.q }

/-- ADC periods in 16 ticks: 160 in Plan A, 192 in Plan B (R103). -/
def adcPer16 (m : Mach) : Nat := if fget CLK_STATUS.plan m = 0 then 160 else 192

/-- An ADC clock and a DAC clock in 1/120 tick (R103, R150). -/
def adcSub (m : Mach) : Nat := if fget CLK_STATUS.plan m = 0 then 12 else 10
def dacSub (m : Mach) : Nat := adcSub m / 2

/-- R133, R150: the accumulator of a transmit chain stands at the DAC sample of instant `t` (1/120 tick): the samples of a slot in
which the chain carried nothing are passed over. -/
def ncoReach (c : ChainId) (t : Nat) (m : Mach) : Mach :=
  let x := getChain (chainKey c) m
  let k := (t - 120 * x.syncTick) / dacSub m
  if x.k < k then setChain (chainKey c) { x with acc := (x.acc + x.ftw * (k - x.k)) % 2 ^ 48, k := k } m else m

/-- A transmit chain's accumulator stands at the present tick before a setting of it changes. -/
def ncoNow (c : ChainId) (m : Mach) : Mach := if chainIsTx c then ncoReach c (120 * tick m) m else m

/-- R342: the formation instant of chain output `j`, in 1/16 tick. -/
def outTime (c : ChainId) (j : Nat) (m : Mach) : Nat :=
  16 * (getChain (chainKey c) m).syncTick + j * 2 ^ nstages c m * 256 / adcPer16 m

/-- One converter sample through a receive or observation chain: the output it completes with its formation instant, if
one is due. -/
def ddcStep (c : ChainId) (s : Sample) (m : Mach) : Option (Sample × Nat) × Mach :=
  let x := getChain (chainKey c) m
  let m1 := setChain (chainKey c) (ncoNext x) m
  let r := ((List.range (nstages c m)).map (· + 1)).foldl (fun a k => runDecim c k a) (some (mixDown x.acc s), m1)
  match r.1 with
  | none => (none, r.2)
  | some y =>
    let m2 := fsetB (QUAD_DDC_STATUS.settling c) (y.st == .settling) r.2
    let z := getChain (chainKey c) m2
    let out := if fon (QUAD_DDC_STATUS.spec_inv_act c) m2 && y.st != .gap then conjS y else y
    (some (out, outTime c z.outIdx m2), setChain (chainKey c) { z with outIdx := z.outIdx + 1 } m2)

/-! ### Changes (R133, R144, R145) -/

/-- A change at the input of stage `k`: its outputs whose window spans the change are SETTLING. -/
def markStage (c : ChainId) (k : Nat) (m : Mach) : Mach :=
  let s := getStage c k m
  setStageSt c k { s with chg := some s.idx } m

/-- A change of FTW, phase_off or nco_coh tags a receive chain from HB1 on; a transmit one tags nothing (R151). -/
def markNco (c : ChainId) (m : Mach) : Mach := if chainIsTx c then m else markStage c 1 m

/-- phase_off of a chain, as it stands in the accumulator. -/
def phaseBits (c : ChainId) (m : Mach) : Nat := fget (QUAD_DDC_PHASE.phase_off c) m * 2 ^ 32

/-- R133: the accumulator after a change of FTW or of phase_off (from `old`). -/
def rephase (c : ChainId) (old : Nat) (m : Mach) : Mach :=
  let x := getChain (chainKey c) m
  let p := phaseBits c m
  let acc := if fon (QUAD_DDC_STATUS.nco_coh_act c) m then (p + x.ftw * x.k) % 2 ^ 48
    else (x.acc + p + 2 ^ 48 - old) % 2 ^ 48
  setChain (chainKey c) { x with acc := acc } m

/-- A staged FTW pair applies (R132, R133). -/
def applyFtw (c : ChainId) (m0 : Mach) : Mach :=
  let m := ncoNow c m0
  let x := getChain (chainKey c) m
  match x.ftwStage with
  | none => m0
  | some f =>
    let m1 := wr (QUAD_DDC_FTW_HI c) (BitVec.ofNat 32 (f / 2 ^ 32))
      (setChain (chainKey c) { x with ftw := f, ftwStage := none } m)
    let m2 := setEv (QUAD_DDC_EVENTS.nco_applied c) (rephase c (phaseBits c m) m1)
    if f = x.ftw then m2 else markNco c m2

/-- A staged phase_off applies. -/
def applyPhase (c : ChainId) (v : W) (m0 : Mach) : Mach :=
  let m := ncoNow c m0
  let old := phaseBits c m
  let m1 := wr (QUAD_DDC_PHASE c) v m
  let m2 := setEv (QUAD_DDC_EVENTS.nco_applied c) (rephase c old m1)
  if phaseBits c m2 = old then m2 else markNco c m2

/-- A staged QUAD_DDC_CFG, or the DUC's, applies: the settings in force follow. -/
def applyChainCfg (c : ChainId) (v : W) (m0 : Mach) : Mach :=
  let m := ncoNow c m0
  let coh := fget (QUAD_DDC_STATUS.nco_coh_act c) m
  let m1 := wr (QUAD_DDC_CFG c) v m
  let nst := if chainIsTx c then v.toNat % 8 else v.toNat % 16
  let m2 := fset (QUAD_DDC_STATUS.nco_coh_act c) (wfld v 5 1) (fset (QUAD_DDC_STATUS.spec_inv_act c) (wfld v 4 1)
    (fset (QUAD_DDC_STATUS.nstages_act c) nst m1))
  if coh = wfld v 5 1 then m2 else markNco c (rephase c (phaseBits c m2) m2)

/-- The stages of a chain in the order samples pass them. -/
def stagesInUse (c : ChainId) (m : Mach) : List Nat :=
  if chainIsTx c then ((List.range (nstages c m + 2)).map (· + 1)).reverse else (List.range (nstages c m)).map (· + 1)

/-- A staged response register applies: each stage in use whose response changes is marked (R144). -/
def applyResp (c : ChainId) (v : W) (m : Mach) : Mach :=
  let ks := (stagesInUse c m).filter fun k => fget (QUAD_DDC_RESP.resp c k) m != wfld v (2 * k - 2) 2
  each ks (markStage c) (wr (QUAD_DDC_RESP c) v m)

/-- A shift change of stage `k` of a transmit chain tags at the predistortion engine for IHB3, or at IHB2 while the engine only
passes samples on (R251); at the fixed interpolator for IHB1 (R144, R151). -/
def markTxShift (c : ChainId) (k : Nat) (m : Mach) : Mach :=
  let n := chainKey c - 64
  if k = 1 then markStage c 9 m
  else if k = 3 ∧ fon (QUAD_PD_CTRL.pd_en (toPath n)) m = true then setPd n { getPd n m with chg := some (getPd n m).k } m
  else markStage c (k - 1) m

/-- A staged shift register applies: a stage in use whose shift changes marks the stage that follows it; nothing follows the last
stage of a receive chain (R144, R151). -/
def applyShift (c : ChainId) (v : W) (m : Mach) : Mach :=
  let changed := (stagesInUse c m).filter fun k => fget (QUAD_DDC_SHIFT.sh c k) m != wfld v (3 * k - 3) 3
  each changed (fun k s => if chainIsTx c then markTxShift c k s else if k < nstages c s then markStage c (k + 1) s else s)
    (wr (QUAD_DDC_SHIFT c) v m)

/-- R145: a synchronising reset of one chain at tick `t`: the accumulator is set, every stage is emptied and aligned. -/
def syncReset (c : ChainId) (t : Nat) (m : Mach) : Mach :=
  let x := getChain (chainKey c) m
  let m1 := setEv (QUAD_DDC_EVENTS.sync_reset c)
    (setChain (chainKey c) { x with acc := phaseBits c m, k := 0, stages := [], syncTick := t, outIdx := 0, inAir := 0 } m)
  match c with
  | .duc n => setPd n { getPd n m1 with hist := [], base := 0, k := 0, outK := 0, chg := none,
                                        settle := if fon (QUAD_PD_CTRL.pd_en n) m1 then 15 else 0 } m1
  | _ => m1

/-! ### Register writes (R132, R137, R139, R147, R148) -/

/-- R23: the quadrant's frame timing is stopped: it is POWERED_DOWN, or the device's timing does not run; a staged write
applies at once. -/
def quadStopped (q : Nat) (m : Mach) : Bool := !timingOn m || quadState q m == 0

/-- R132: the low half goes to the shadow. -/
def ftwLoWrite (c : ChainId) (v : W) (m : Mach) : Mach := wr (QUAD_DDC_FTW_LO c) v m
def execFtwLoWrite (c : ChainId) (v : W) (s : State) : Host.Outcome State Fault Refusal :=
  answer s (gate (QUAD_DDC_FTW_LO c) (ftwLoWrite c v) s.m)

/-- R132: the high half stages the pair. -/
def ftwHiWrite (c : ChainId) (v : W) (m : Mach) : Mach :=
  let x := getChain (chainKey c) m
  let f := v.toNat % 65536 * 2 ^ 32 + (rd (QUAD_DDC_FTW_LO c) m).toNat
  let m1 := setChain (chainKey c) { x with ftwStage := some f } m
  if quadStopped (chainQuad c) m then applyFtw c m1 else m1
def execFtwHiWrite (c : ChainId) (v : W) (s : State) : Host.Outcome State Fault Refusal :=
  answer s (gate (QUAD_DDC_FTW_HI c) (ftwHiWrite c v) s.m)

/-- A value for an RWS chain register is staged, or applies at once (R21 to R23). -/
def stageChain (c : ChainId) (a : Nat) (v : W) (apply : W → Mach → Mach) (m : Mach) : Mach :=
  if quadStopped (chainQuad c) m then apply v (setStage a none m) else setStage a (some v) m

/-- R137, R147, R148: the stage counts a chain admits. -/
def nstagesOk (c : ChainId) (n : Nat) : Bool :=
  match c with
  | .ddc _ => decide (1 ≤ n ∧ n ≤ 8)
  | .obs _ => decide (1 ≤ n ∧ n ≤ 3)
  | .duc _ => decide (n ≤ 6)

/-- A chain configuration write: a bad stage count, or a change of it in a RUNNING or CAL_DEDICATED quadrant, refuses it
whole (R137, R147, R148). -/
def chainCfgWrite (c : ChainId) (v : W) (m : Mach) : Mach :=
  let n := if chainIsTx c then v.toNat % 8 else v.toNat % 16
  if !nstagesOk c n || decide (2 ≤ quadState (chainQuad c) m ∧ n ≠ nstages c m) then setEv (QUAD_DDC_EVENTS.chain_err c) m
  else stageChain c (QUAD_DDC_CFG c) (v &&& (if chainIsTx c then 0x37#32 else 0x3F#32)) (applyChainCfg c) m
def execDdcCfgWrite (n : Fin 64) (v : W) (s : State) : Host.Outcome State Fault Refusal :=
  answer s (gate (QUAD_DDC_CFG (.ddc n)) (chainCfgWrite (.ddc n) v) s.m)
def execObsDdcCfgWrite (o : Fin 8) (v : W) (s : State) : Host.Outcome State Fault Refusal :=
  answer s (gate (QUAD_DDC_CFG (.obs o)) (chainCfgWrite (.obs o) v) s.m)
def execDucCfgWrite (n : Fin 64) (v : W) (s : State) : Host.Outcome State Fault Refusal :=
  answer s (gate (QUAD_DDC_CFG (.duc n)) (chainCfgWrite (.duc n) v) s.m)

/-- R139: some field of a shift write holds an invalid code. -/
def shiftBad (v : W) : Bool := (List.range 8).any fun k => let f := wfld v (3 * k) 3; f == 3 || f == 4 || f == 5

/-- R139: a shift write. -/
def chainShiftWrite (c : ChainId) (v : W) (m : Mach) : Mach :=
  if shiftBad v then setEv (QUAD_DDC_EVENTS.chain_err c) m
  else stageChain c (QUAD_DDC_SHIFT c) (v &&& 0xFFFFFF#32) (applyShift c) m
def execDdcShiftWrite (c : ChainId) (v : W) (s : State) : Host.Outcome State Fault Refusal :=
  answer s (gate (QUAD_DDC_SHIFT c) (chainShiftWrite c v) s.m)

/-- A response or a phase write (no row of its own): staged. -/
def chainRespWrite (c : ChainId) (v : W) (m : Mach) : Mach :=
  stageChain c (QUAD_DDC_RESP c) (v &&& 0xFFFF#32) (applyResp c) m
def chainPhaseWrite (c : ChainId) (v : W) (m : Mach) : Mach :=
  stageChain c (QUAD_DDC_PHASE c) (v &&& 0xFFFF#32) (applyPhase c) m

/-- The value staged for `a` applies, and nothing is staged any more. -/
def takeStage (a : Nat) (apply : W → Mach → Mach) (m : Mach) : Mach :=
  match staged a m with
  | none => m
  | some v => apply v (setStage a none m)

/-- At a slot boundary everything staged for a chain applies (R22). -/
def applyChain (c : ChainId) (m : Mach) : Mach :=
  applyFtw c (takeStage (QUAD_DDC_PHASE c) (applyPhase c) (takeStage (QUAD_DDC_SHIFT c) (applyShift c)
    (takeStage (QUAD_DDC_RESP c) (applyResp c) (takeStage (QUAD_DDC_CFG c) (applyChainCfg c) m))))

end Sys2Proof.Machine
end

