-- ==== Sys2Proof/Machine/PdEngine.lean ====
section
/-! DEFINITION. The predistortion engines (spec/08, R246 to R253, R268): their banks, the output of one engine, and the
tags it carries. -/

namespace Sys2Proof.Machine

/-! ### Banks (R255) -/

/-- Where word `w` of bank `b` of path `n` lies in the tables. -/
def lutKey (n b w : Nat) : Nat := (2 * n + b) * 4096 + w

/-- Word `w` of bank `b` of path `n`. -/
def lutW (n b w : Nat) (m : Mach) : W := tabGet (fun _ => 0#32) m.lut (lutKey n b w)
/-- It takes the value `v`. -/
def setLut (n b w : Nat) (v : W) (m : Mach) : Mach := { m with lut := tabPut (fun _ => 0#32) m.lut (lutKey n b w) v }

/-- The bank in force: 0 A, 1 B. -/
def pdBank (n : Nat) (m : Mach) : Nat := fget (QUAD_PD_STATUS.active_bank n) m

/-- R255: a table entry, I in [15:0] and Q in [31:16]. -/
def lutEntry (v : W) : Int × Int := (sext 16 (wfld v 0 16), sext 16 (wfld v 16 16))

/-- Entry `i` of memory tap `t`, and of coupling tap `c`, of the bank in force. -/
def memEntry (n t i : Nat) (m : Mach) : Int × Int := lutEntry (lutW n (pdBank n m) (256 * t + i) m)
def cplEntry (n c i : Nat) (m : Mach) : Int × Int := lutEntry (lutW n (pdBank n m) (2048 + 64 * c + i) m)

/-- The delay of memory tap `t` (d(0) is 0), and of coupling tap `c`. -/
def memDelay (n t : Nat) (m : Mach) : Nat := if t = 0 then 0 else wfld (lutW n (pdBank n m) 2176 m) (4 * t - 4) 4
def cplDelay (n c : Nat) (m : Mach) : Nat := wfld (lutW n (pdBank n m) 2177 m) (4 * c) 4

/-! ### Indices (R248, R249) -/

/-- R248: the magnitude index of a sample under index scale `s`. -/
def magIdx (s : Nat) (x : Sample) : Nat :=
  min 65535 (min 65535 (Nat.sqrt (x.i * x.i + x.q * x.q).toNat / 8) * s / 2 ^ 14)

/-- R248: the interpolated entry of memory tap `t` for magnitude `mag`, truncated towards minus infinity. -/
def memGain (n t mag : Nat) (m : Mach) : Int × Int :=
  let i := mag / 256
  let f : Int := (mag % 256 : Nat)
  let a := memEntry n t i m
  if i < 255 then
    let b := memEntry n t (i + 1) m
    (a.1 + Int.fdiv (f * (b.1 - a.1)) 256, a.2 + Int.fdiv (f * (b.2 - a.2)) 256)
  else a

/-- The product of a sample and an entry. -/
def cmulS (x : Sample) (g : Int × Int) : Int × Int := (x.i * g.1 - x.q * g.2, x.i * g.2 + x.q * g.1)
/-- The sum of complex numbers. -/
def csum (l : List (Int × Int)) : Int × Int := l.foldl (fun a b => (a.1 + b.1, a.2 + b.2)) (0, 0)

/-! ### One engine -/

/-- R6: the physical engine that is home to path `n`: 17q + p; the spare of quadrant q is 17q + 16. -/
def homeEngine (n : Nat) : Nat := 17 * (n / 16) + n % 16

/-- Neighbour `c` of path `n`, if the adjacency table names one (R254). -/
def pdNb (n c : Nat) (m : Mach) : Option Nat :=
  if c = 0 then (if fon (QUAD_PD_ADJ.nb0_valid n) m then some (fget (QUAD_PD_ADJ.nb0 n) m) else none)
  else (if fon (QUAD_PD_ADJ.nb1_valid n) m then some (fget (QUAD_PD_ADJ.nb1 n) m) else none)

/-- An engine sample in 1/120 tick (R246). -/
def pdSub (m : Mach) : Nat := 4 * adcSub m

/-- Input `k` of path `n`'s engine with its air time; one that the delay line does not hold is zero. -/
def pdAt (n : Nat) (k : Int) (m : Mach) : Nat × Sample :=
  let x := getPd n m
  if 0 ≤ k ∧ k < x.k then x.hist.getD (x.k - 1 - k.toNat) (0, zeroSample) else (0, zeroSample)
/-- The engine's own delay line: zero where it started empty after that input (R268). -/
def pdIn (n : Nat) (k : Int) (m : Mach) : Sample := if (getPd n m).base ≤ k then (pdAt n k m).2 else zeroSample

/-- The input of neighbour `b`'s engine with air time `t`, zero where it had none: inputs of one index are inputs of one air time
(R143, R246). -/
def pdNbIn (b t : Nat) (m : Mach) : Sample := (((getPd b m).hist.find? fun e => e.1 == t).map Prod.snd).getD zeroSample

/-- The index scale of path `n` (R259). -/
def idxScale (n : Nat) (m : Mach) : Nat := fget (QUAD_PD_IDX_SCALE.s n) m

/-- R247: output `k` of path `n` before its reduction. -/
def pdSum (n k : Nat) (m : Mach) : Int × Int :=
  let own := (List.range 8).map fun t =>
    let x := pdIn n (k - memDelay n t m) m
    cmulS x (memGain n t (magIdx (idxScale n m) x) m)
  let cpl := if fon (QUAD_PD_CTRL.cpl_en n) m then (List.range 2).map fun c =>
      match pdNb n c m with
      | none => (0, 0)
      | some b =>
        let x := pdNbIn b ((pdAt n k m).1 - cplDelay n c m * pdSub m) m
        if x.st = .gap then (0, 0) else cmulS x (cplEntry n c (magIdx (idxScale b m) x / 1024) m)
    else []
  csum (own ++ cpl)

/-- R252: the tag of output `k`: the path's own inputs x(k − 15) to x(k); SETTLING after a change upstream or a takeover. -/
def pdTag (n k : Nat) (m : Mach) : Tag × Bool :=
  let x := getPd n m
  let own := (List.range 16).map fun d : Nat => pdIn n ((k : Int) - d) m
  let late := match x.chg with
    | some c => decide (c ≤ k ∧ k < c + 15)
    | none => false
  windowTag own (late || decide (0 < x.settle))

/-- R251, R269: the engine passes its input through: pd_en is 0, or the failed engine is routed around. -/
def pdPass (n : Nat) (m : Mach) : Bool := !fon (QUAD_PD_CTRL.pd_en n) m || fon (QUAD_PD_STATUS.bypassed n) m

/-- R268, R269: the engine's outputs are GAP: it failed and awaits its spare, or has none and is not routed around. -/
def pdGone (n : Nat) (m : Mach) : Bool := (getPd n m).dead || ((getPd n m).lost && !fon (QUAD_PD_STATUS.bypassed n) m)

/-- R250: the clipped output of one engine, and whether it was clipped. -/
def pdClip (a : Int × Int) (t : Tag × Bool) : Sample × Bool :=
  if t.1 = .gap then ({ gapSample with ovr := t.2 }, false)
  else
    let i := Int.fdiv a.1 (2 ^ 14)
    let q := Int.fdiv a.2 (2 ^ 14)
    let c := decide (satS 20 i ≠ i ∨ satS 20 q ≠ q)
    ({ i := satS 20 i, q := satS 20 q, st := t.1, ovr := t.2 || c }, c)

/-- A neighbour's inputs go on: its quadrant is RUNNING and its traffic has started. -/
def pdFed (b : Nat) (m : Mach) : Bool := quadState (b / 16) m == 2 && !(getQ (b / 16) m).startFrame

/-- The next output of path `n`'s engine can be formed: its input came, and every neighbour it draws on that carries traffic has
had the input of the air time its coupling delay reaches back to. -/
def pdReady (n : Nat) (m : Mach) : Bool :=
  let x := getPd n m
  decide (x.outK < x.k) && (pdPass n m || pdGone n m || !fon (QUAD_PD_CTRL.cpl_en n) m ||
    (List.range 2).all fun c =>
      match pdNb n c m with
      | none => true
      | some b => !pdFed b m ||
          decide ((pdAt n x.outK m).1 - cplDelay n c m * pdSub m ≤ ((getPd b m).hist.headD (0, zeroSample)).1))

/-- The air time back to which the engines' samples are kept for an adaptation capture: that of its first sample (R260). -/
def pdSince (m : Mach) : Nat :=
  120 * (m.pdCap.filterMap fun e => e.2.bind fun c => if c.done then none else some c.tick).foldl min (tick m) - 300 * pdSub m
/-- The samples kept of a history, newest first: the last 80, and those since then. -/
def pdKeep (t : Nat) (l : List (Nat × Sample)) : List (Nat × Sample) :=
  l.take 80 ++ (l.drop 80).takeWhile fun e => decide (t ≤ e.1)

/-- The next output of path `n`'s engine with its air time (R247 to R252, R268). -/
def pdForm (n : Nat) (m : Mach) : (Nat × Sample) × Mach :=
  let x := getPd n m
  let i := pdAt n x.outK m
  let m1 := setPd n { x with outK := x.outK + 1, settle := if pdGone n m then x.settle else x.settle - 1 } m
  if pdGone n m then ((i.1, gapSample), m1)
  else if pdPass n m then (i, m1)
  else
    let r := pdClip (pdSum n x.outK m) (pdTag n x.outK m)
    ((i.1, r.1), if r.2 then setEv (QUAD_PD_EVENTS.pd_sat n) (cnt (QUAD_PD_SAT_COUNT n) 1 0xFFFFFFFF m1) else m1)

/-- An input of path `n`'s engine with its air time joins those before it. -/
def pdPush (n air : Nat) (s : Sample) (m : Mach) : Mach :=
  let x := getPd n m
  setPd n { x with hist := pdKeep (pdSince m) ((air, s) :: x.hist), k := x.k + 1 } m

/-- Every output of path `n`'s engine that can be formed, oldest first; `fuel` bounds their number. -/
def pdOuts (n : Nat) : Nat → Mach → List (Nat × Sample) × Mach
  | 0, m => ([], m)
  | fuel + 1, m =>
    if pdReady n m then
      let r := pdForm n m
      let x := getPd n r.2
      let l := pdOuts n fuel (setPd n { x with outs := pdKeep (pdSince m) (r.1 :: x.outs) } r.2)
      (r.1 :: l.1, l.2)
    else ([], m)

/-- The paths whose engines draw on path `n`: itself and those that name it. -/
def pdUsers (n : Nat) (m : Mach) : List Nat :=
  paths64.filter fun p => p == n || pdNb p 0 m == some n || pdNb p 1 m == some n

end Sys2Proof.Machine
end

