-- ==== Sys2Proof/Machine/Output.lean ====
section
/-! DEFINITION. The output bridges (spec/01, R43, R59 to R67), the DAC behind a transmit bridge (R221), and the anchor. -/

namespace Sys2Proof.Machine

/-! ### Domains and streams -/

/-- The key of a clocked domain. -/
def domKey : Domain → Nat
  | .ref => 0
  | .conv q => 1 + q
  | .obs => 5
  | .ltx => 6
  | .lrx => 7
  | .mir => 8
  | .tod => 9
  | .hk => 10
  | .nvi => 11

/-- The key of an uplink stream: beam b, or 32 + n for element n. -/
def ulKey : UlStream → Nat
  | .beam b => b
  | .elem n => 32 + n

/-- The key of an output bridge: its stream's, or 96 + n for the transmit output of path n. -/
def outKey : OutBridge → Nat
  | .ul st => ulKey st
  | .tx n => 96 + n

/-- The domain that clocks an output bridge. -/
def outDom : OutBridge → Nat
  | .ul _ => 6
  | .tx n => 1 + n / 16

/-- R44: the clock of the domain stands still; or it is back and its outputs release GAP until the anchor is
re-established. -/
def frozen (d : Nat) (m : Mach) : Bool := m.frozen.contains d
def flushing (d : Nat) (m : Mach) : Bool := m.flush.contains d

/-- Pipeline `p` is muted (R52). -/
def muted (p : Nat) (m : Mach) : Bool := m.lad.muted.contains p

/-- The beam modes in force. -/
def modeUl (m : Mach) : Nat := fget BMU_CFG.mode_ul m
def modeDl (m : Mach) : Nat := fget BMU_CFG.mode_dl m
/-- The slot that runs is an acquisition slot. -/
def acqSlot (m : Mach) : Bool := (curSlot m).ty == 2

/-- The half-band stages ahead of an uplink stream. -/
def streamStages (st : UlStream) (m : Mach) : Nat :=
  match st with
  | .beam _ => fget BMU_CFG.ul_stages m
  | .elem n => nstages (.ddc n) m

/-- A beam's weight bank in force. -/
def ulBank (b : Nat) (m : Mach) : Option BeamW := tabGet (fun _ => none) m.mesh.actUl b
def dlBank (b : Nat) (m : Mach) : Option BeamW := tabGet (fun _ => none) m.mesh.actDl b

/-- Transmit path `n` is excluded from the downlink mesh (R181). -/
def exclDl (n : Nat) (m : Mach) : Bool :=
  if n < 32 then (rd BMU_EXCL_DL_LO m).getLsbD n else (rd BMU_EXCL_DL_HI m).getLsbD (n - 32)
/-- Receive path `n` is excluded from the uplink mesh. -/
def exclUl (n : Nat) (m : Mach) : Bool :=
  if n < 32 then (rd BMU_EXCL_UL_LO m).getLsbD n else (rd BMU_EXCL_UL_HI m).getLsbD (n - 32)

/-- The stream is due on the link in the running slot (R163, R178, R96). -/
def ulActive (st : UlStream) (m : Mach) : Bool :=
  match st with
  | .beam b => modeUl m != 1 && !acqSlot m && (ulBank b m).isSome
  | .elem _ => modeUl m == 1

/-- Entries of the stream come to its bridge: some path feeds the mesh (R185), or the element's path is not excluded
(R178). -/
def ulFed (st : UlStream) (m : Mach) : Bool :=
  match st with
  | .beam _ => rd BMU_EXCL_UL_LO m != 0xFFFFFFFF#32 || rd BMU_EXCL_UL_HI m != 0xFFFFFFFF#32
  | .elem n => quadState (n / 16) m != 0

/-- The uplink streams that are due. -/
def ulStreams (m : Mach) : List UlStream :=
  (((List.range 32).map fun b => UlStream.beam (Fin.ofNat 32 b)) ++ (paths64.map fun n => UlStream.elem (toPath n))).filter
    fun st => ulActive st m

/-! ### Positions (R377) -/

/-- The slot of the frame in which tick offset `t` lies. -/
def slotAt (t : Nat) (m : Mach) : Nat := (m.ftab.slots.filter fun s => decide (s.start ≤ t)).length - 1

/-- An uplink stream's sample in 1/120 tick. -/
def ulSub (st : UlStream) (m : Mach) : Nat := 2 ^ streamStages st m * adcSub m

/-- The position after `p` in a stream: index 0 of the next frame once the frame's ticks are used up. -/
def posNext (st : UlStream) (p : StreamPos) (m : Mach) : StreamPos :=
  let j := p.j + 1
  let u := ulSub st m
  if j * u < 120 * m.ftab.len then ⟨p.frame, slotAt (j * u / 120) m, j, p.at_ + u⟩
  else ⟨(p.frame + 1) % 2 ^ 24, 0, 0, p.at_ + 120 * m.ftab.len - p.j * u⟩

/-- The first position of a stream in the running slot. -/
def posFirst (st : UlStream) (m : Mach) : StreamPos :=
  let u := ulSub st m
  let j := (120 * (m.slotStart - m.frameStart) + u - 1) / max 1 u
  ⟨m.frameNo, m.slot, j, 120 * m.frameStart + j * u⟩

/-- The position that the bridge expects next: the one after the last released, or the first since the stream became due. -/
def posDue (st : UlStream) (x : OutBr) (m : Mach) : Option StreamPos :=
  match x.last, x.start with
  | some l, some f => let p := posNext st l m; some (if p.at_ < f.at_ then f else p)
  | none, o => o
  | some l, none => some (posNext st l m)

/-- `n` positions from one on, as GAP released from `due` on. -/
def posRun (st : UlStream) (due : Nat) : Nat → Option StreamPos → Mach → List OutSample
  | 0, _, _ => []
  | n + 1, p, m => ⟨gapSample, p, due⟩ :: posRun st (due + ulSub st m) n (p.map fun x => posNext st x m) m

/-! ### Arrival -/

/-- R67: the margin of one entry joins its direction's smallest of the frame. -/
def noteMargin (dl : Bool) (x : Int) (m : Mach) : Mach :=
  let least (o : Option Int) : Option Int := some (match o with | some y => min x y | none => x)
  if dl then { m with marginDl := least m.marginDl } else { m with marginUl := least m.marginUl }

/-- An output bridge of the downlink. -/
def isTx : OutBridge → Bool
  | .tx _ => true
  | _ => false

/-- R66: a late entry that arrived at count `arr` is discarded; its margin is negative. -/
def lateArrive (b : OutBridge) (seq arr : Nat) (m : Mach) : Mach :=
  let x := getOut (outKey b) m
  match x.missed.find? fun e => e.1 == seq with
  | some e =>
    noteMargin (isTx b) ((2 * (e.2 : Int) - arr) / 2)
      (setOut (outKey b) { x with missed := x.missed.filter fun f => f.1 != seq } m)
  | none => m

/-- The time-of-day count at which the samples being formed arrive: now, or that of their entry into the core where a slot
boundary held them back. -/
def arrNow (m : Mach) : Nat := m.admTod.getD m.tod

/-- An entry arrives at an output bridge with the next sequence count. One whose release instant has passed is late (R66); into a
full bridge it does not go, and its feeder holds it (R35, R43). -/
def outArrive (b : OutBridge) (ss : List OutSample) (m : Mach) : Mach :=
  let x := getOut (outKey b) m
  let e : OutEntry := ⟨x.next, ss, arrNow m⟩
  let m1 := setOut (outKey b) { x with next := x.next + 1 } m
  if x.next < x.rel then lateArrive b x.next (arrNow m) m1
  else setOut (outKey b) (if x.fifo.length < 64 then { x with next := x.next + 1, fifo := x.fifo ++ [e] }
    else { x with next := x.next + 1, feeder := x.feeder ++ [e] }) m1

/-- Room in a bridge is filled from its feeder: a held entry arrives now. -/
def outRefill (k : Nat) (m : Mach) : Mach :=
  let x := getOut k m
  match x.feeder with
  | [] => m
  | e :: l => if x.fifo.length < 64 then setOut k { x with fifo := x.fifo ++ [{ e with arr := m.tod }], feeder := l } m else m

/-- Samples of one entry: 8 on the uplink, 16 in a transmit bridge. -/
def entryLen (b : OutBridge) : Nat := if isTx b then 16 else 8

/-- A sample reaches an output bridge; full entries arrive there. -/
def outPush (b : OutBridge) (o : OutSample) (m : Mach) : Mach :=
  let k := outKey b
  let l := tabGet (fun _ => []) m.asmU k ++ [o]
  if l.length < entryLen b then { m with asmU := tabPut (fun _ => []) m.asmU k l }
  else outArrive b l { m with asmU := tabPut (fun _ => []) m.asmU k [] }

/-- An entry being filled is closed with the samples it has. -/
def closeEntry (b : OutBridge) (m : Mach) : Mach :=
  match tabGet (fun _ => []) m.asmU (outKey b) with
  | [] => m
  | l => outArrive b l { m with asmU := tabPut (fun _ => []) m.asmU (outKey b) [] }

/-- LATE_ENTRY_ARRIVAL: the entry of a release instant that found it absent comes, and is discarded. -/
def execLateEntryArrival (b : OutBridge) (seq : Nat) (s : State) : Host.Outcome State Fault Refusal :=
  answer s (lateArrive b seq s.m.tod s.m)

/-! ### Release of an uplink entry -/

/-- The anchor of a direction. -/
def anchorOf (dl : Bool) (m : Mach) : Nat := if dl then fget GCTL_ANCHOR_DL.val m else fget GCTL_ANCHOR_UL.val m

/-- Samples as GAP, their positions kept. -/
def gapAll (l : List OutSample) : List OutSample := l.map fun o => { o with s := gapSample }

/-- A sample of an uplink stream, at its position, goes to its bridge, due L_UL after its sampling instant (R59). Samples taken in
the ticks that a decrease of the anchor leaves out are discarded (R65). -/
def ulPush (st : UlStream) (s : Sample) (p : StreamPos) (m : Mach) : Mach :=
  if p.at_ < m.ulDisc then m else outPush (.ul st) ⟨s, some p, p.at_ + 120 * anchorOf false m⟩ m

/-- R44, R52, R64: every position released now carries GAP. -/
def ulHeldGap (m : Mach) : Bool := anchorOf false m == 0 || flushing 6 m || muted 9 m || muted 14 m

/-- Released samples go into link framing; a standby twin sends nothing (R92). -/
def ulOut (st : UlStream) (l : List OutSample) (m : Mach) : Mach :=
  let ps := l.filterMap fun o => o.pos.map fun q => (o.s, { q with at_ := o.due })
  if role m = 2 then m
  else
    let x := getUlTx (ulKey st) m
    setUlTx (ulKey st) { x with q := x.q ++ ps } m

/-- R49, R66: a late arrival is charged to the pipeline that owns the bridge. -/
def chargeLate (p : Nat) (m : Mach) : Mach :=
  let put (l : List Nat) := if l.contains p then l else p :: l
  { m with lad := { m.lad with lateNow := put m.lad.lateNow, charged := put m.lad.charged } }

/-- The last position of a list of released samples. -/
def lastPos (l : List OutSample) (d : Option StreamPos) : Option StreamPos := l.foldl (fun a o => o.pos.or a) d

/-- The instant at which the first of some samples is due. -/
def firstDue (l : List OutSample) (d : Nat) : Nat := (l.head?.map fun o => o.due).getD d

/-- An instant in 1/120 tick lies past the slot boundary that comes next: nothing due then comes before that boundary. -/
def pastSlot (t : Nat) (m : Mach) : Bool := timingOn m && decide (120 * (nextSlot m).2 ≤ t)

/-- Time reaches an instant in 1/120 tick. -/
def reachSub (t : Nat) (m : Mach) : Mach := advanceTo ((t + 119) / 120) m

/-- The samples of receive path `n` stand as GAP by rule: gated clocks, or a flush whose anchor is not re-established (R44, R404, R407). -/
def pathHeld (n : Nat) (m : Mach) : Bool := inMask (fget CLK_STATUS.gated_q m) (n / 16) || flushing (1 + n / 16) m

/-- An absent entry of the stream is no late arrival: nothing is released (R44, R64), or what feeds it is held (R404, R407). -/
def ulQuiet (st : UlStream) (m : Mach) : Bool :=
  anchorOf false m == 0 || flushing 6 m || (match st with
    | .beam _ => paths64.all fun n => exclUl n m || pathHeld n m
    | .elem n => pathHeld n m)

/-- R66: the uplink entry due at instant `due` is absent: its positions carry GAP and its sequence count is used up; the samples count
as late, with anchor_late_ul, and are charged to LTX, unless that is no late arrival. -/
def ulAbsent (st : UlStream) (due : Nat) (m : Mach) : Mach :=
  let k := ulKey st
  let x := getOut k m
  let ss := posRun st due 8 (posDue st x m) m
  let m1 := setOut k { x with rel := x.rel + 1, last := lastPos ss x.last, missed := x.missed ++ [(x.rel, (due + 119) / 120)] } m
  ulOut st ss (if ulQuiet st m then m1
    else chargeLate 14 (setEv GCTL_CORE_EVENTS.anchor_late_ul (cnt GCTL_ANCHOR_LATE_UL 8 0xFFFFFFFF m1)))

/-- OUTPUT_BRIDGE_RELEASE of a link output: the entry due is released at its instant. One that came after it was absent then, and is
discarded with its negative margin (R66, R67). A stream that nothing feeds releases GAP (R163, R185). -/
def ulRelease (st : UlStream) (m : Mach) : Mach :=
  let b := OutBridge.ul st
  let x := getOut (outKey b) m
  if frozen 6 m then m else
  match x.fifo with
  | e :: l =>
    let due := firstDue e.ss 0
    if pastSlot due m then m
    else
      let m0 := reachSub due m
      if 60 * e.arr ≤ due then
        let ss := if ulHeldGap m0 then gapAll e.ss else e.ss
        outRefill (outKey b) (ulOut st ss (noteMargin false (((due : Int) - 60 * e.arr) / 120)
          (setOut (outKey b) { x with fifo := l, rel := e.seq + 1, last := lastPos e.ss x.last } m0)))
      else outRefill (outKey b) (lateArrive b e.seq e.arr (ulAbsent st due (setOut (outKey b) { x with fifo := l } m0)))
  | [] =>
    if !ulActive st m then m
    else
      let p := posDue st x m
      let due := match p with
        | some q => q.at_ + 120 * anchorOf false m
        | none => 120 * m.slotStart
      if pastSlot due m then m
      else
        let m0 := reachSub due m
        if ulFed st m0 then ulAbsent st due m0
        else let ss := posRun st due 8 p m0; ulOut st ss (setOut (outKey b) { x with last := lastPos ss x.last } m0)

/-! ### Release into the DAC (R221) -/

/-- R221: the DAC code of a real sample under digital gain `g`. -/
def dacCode (y : Int) (g : Nat) : Int := satS 16 (Int.fdiv (y * g) (2 ^ 19))

/-- One sample is converted: its code, the clip, the GAP count. -/
def dacSample (n : Nat) (s : Sample) (m : Mach) : Mach :=
  let g := fget (QUAD_TX_GAIN.dig_gain n) m
  let c := dacCode s.i g
  let m1 := setTx n { getTx n m with code := c } m
  let m2 := if c ≠ Int.fdiv (s.i * g) (2 ^ 19) then
      setEv (QUAD_TX_EVENTS.dac_sat n) (cnt (QUAD_TX_SAT_COUNT n) 1 0xFFFFFFFF m1) else m1
  if s.st = .gap then cnt (QUAD_TX_GAP_COUNT n) 1 0xFFFFFFFF m2 else m2

/-- The DAC holds midscale. -/
def dacMid (n : Nat) (m : Mach) : Mach := setTx n { getTx n m with code := 0 } m

/-- R44, R64: every transmit position of quadrant `q` released now carries GAP. -/
def txHeldGap (q : Nat) (m : Mach) : Bool := anchorOf true m == 0 || flushing (1 + q) m || (getQ q m).startFrame

/-- A downlink beam contributes to the mesh (R163, R164, R168). -/
def dlContrib (w : BeamW) : Bool := w.formed && !w.shed

/-- Traffic is due at path `n`'s output: its quadrant is RUNNING and sends in this slot, the path is included, and the
downlink has something for it. -/
def txActive (n : Nat) (m : Mach) : Bool :=
  quadState (n / 16) m == 2 && !(getQ (n / 16) m).startFrame && slotTx (curSlot m) (n / 16) && !exclDl n m &&
    (modeDl m == 1 || beams32.any fun b => match dlBank b m with
      | some w => dlContrib w
      | none => false)

/-- Quadrant `q`'s DACs hold midscale: a dropped burst (R245), a muted pipeline (R52), a standby twin (R92), gated clocks
(R399, R407). -/
def txSilent (q : Nat) (m : Mach) : Bool :=
  dropNow q m || muted (4 + q) m || role m == 2 || inMask (fget CLK_STATUS.gated_q m) q

/-- Samples of path `n` reach the output balls (R222): a dropped burst, a muted pipeline and a standby twin leave the DAC at
midscale (R245, R52, R92); GAP while nothing is released (R44, R64) and on a failed path (R444). -/
def txPlay (n : Nat) (l : List OutSample) (m : Mach) : Mach :=
  let q := n / 16
  if l.isEmpty then m
  else if txSilent q m then dacMid n m
  else each (if txHeldGap q m || txFailed n m then gapAll l else l) (fun o s => dacSample n o.s s) m

/-- The samples of a released entry are played; those whose air time lies past the slot boundary that comes next wait for it, so that
what changes there acts from the first sample at or after it (R226, R245). -/
def txEntry (n : Nat) (l : List OutSample) (m : Mach) : Mach :=
  let late := l.filter fun o => pastSlot o.due m
  let m1 := txPlay n (l.filter fun o => !pastSlot o.due m) m
  setTx n { getTx n m1 with rest := (getTx n m1).rest ++ late } m1

/-- A slot begins: the samples that waited for it are played; without traffic the output is midscale (R225). -/
def txSlot (n : Nat) (m : Mach) : Mach :=
  let l := (getTx n m).rest
  let m1 := setTx n { getTx n m with rest := [] } m
  if txActive n m1 then txPlay n l m1 else dacMid n m1

/-- The 16 positions of a transmit entry, as GAP from instant `due` on. -/
def txGap (due : Nat) (m : Mach) : List OutSample := (List.range 16).map fun i => ⟨gapSample, none, due + i * dacSub m⟩

/-- R66: the transmit entry whose air time is `due` is absent: GAP stands in for it and its sequence count is used up; the samples
count as late, with anchor_late_dl, and are charged to TXq, unless the burst was dropped or nothing is released. -/
def txAbsent (n due : Nat) (m : Mach) : Mach :=
  let q := n / 16
  let k := 96 + n
  let x := getOut k m
  let m1 := setOut k { x with rel := x.rel + 1, due := due + 16 * dacSub m,
                              missed := x.missed ++ [(x.rel, due / 120 - 4)] } m
  let m2 := txEntry n (txGap due m) m1
  if txHeldGap q m || dropNow q m || role m == 2 || inMask (fget CLK_STATUS.gated_q m) q then m2
  else chargeLate (4 + q) (setEv GCTL_CORE_EVENTS.anchor_late_dl (cnt GCTL_ANCHOR_LATE_DL 16 0xFFFFFFFF m2))

/-- OUTPUT_BRIDGE_RELEASE of a transmit output: 16 samples into the DAC, taken at their air time, 4 ticks after the release
instant (R222; DESIGN CHOICE, assumption 84). An entry that came after its release instant was absent then (R66). Without traffic
the DAC holds midscale. -/
def txRelease (n : Nat) (m : Mach) : Mach :=
  let b := OutBridge.tx (toPath n)
  let q := n / 16
  let k := outKey b
  let x := getOut k m
  if frozen (1 + q) m || inMask (fget CLK_STATUS.gated_q m) q || quadState q m == 0 then m else
  match x.fifo with
  | e :: l =>
    let due := firstDue e.ss 0
    if pastSlot due m then m
    else
      let m0 := reachSub due m
      let y := { x with fifo := l, due := due + 16 * dacSub m }
      if 60 * e.arr + 480 ≤ due then
        outRefill k (txEntry n e.ss (noteMargin true (((due : Int) - 480 - 60 * e.arr) / 120)
          (setOut k { y with rel := e.seq + 1 } m0)))
      else outRefill k (lateArrive b e.seq e.arr (txAbsent n due (setOut k y m0)))
  | [] =>
    let due := max x.due (120 * m.slotStart)
    if pastSlot due m then m
    else if txActive n m then txAbsent n due (reachSub due m)
    else dacMid n m

/-- OUTPUT_BRIDGE_RELEASE: the bridge releases the entry due at its anchor release instant. -/
def outRelease (b : OutBridge) (m : Mach) : Mach :=
  match b with
  | .ul st => ulRelease st m
  | .tx n => txRelease n m
def execOutputBridgeRelease (b : OutBridge) (s : State) : Host.Outcome State Fault Refusal := answer s (outRelease b s.m)

/-! ### The anchor (R63 to R65) -/

/-- Everything a bridge and its feeder hold becomes GAP. -/
def gapBridge (k : Nat) (m : Mach) : Mach :=
  let x := getOut k m
  let gap (l : List OutEntry) := l.map fun e => { e with ss := gapAll e.ss }
  let m1 := setOut k { x with fifo := gap x.fifo, feeder := gap x.feeder } m
  { m1 with asmU := tabPut (fun _ => []) m1.asmU k (gapAll (tabGet (fun _ => []) m1.asmU k)) }

/-- A bridge is emptied and its counts start again. -/
def clearOut (k : Nat) (m : Mach) : Mach :=
  let m1 := setOut k {} m
  { m1 with asmU := tabPut (fun _ => []) m1.asmU k [] }

/-- R65: the `d` ticks of release positions between the old schedule and the new one carry GAP. -/
def gapTicks (st : UlStream) (old d : Nat) (m : Mach) : Mach :=
  let u := ulSub st m
  each (List.range (120 * d / max 1 u)) (fun i s => outPush (.ul st) ⟨gapSample, none, 120 * (m.slotStart + old) + i * u⟩ s) m

/-- R64, R65: at slot boundary S the uplink's anchor changes from `old` to `new`, for the streams `sts` that are due before S or after
it. -/
def anchorUlChange (sts : List UlStream) (old new : Nat) (m : Mach) : Mach :=
  if old = new then m
  else if old = 0 ∨ new = 0 then each sts (fun st s => gapBridge (ulKey st) s) m
  else if old < new then each sts (fun st s => gapTicks st old (new - old) s) m
  else { m with ulDisc := 120 * (m.slotStart + old - new) }

/-- R65: at slot boundary S the downlink's anchor changes: an increase by d makes the d ticks of air time from S GAP; a decrease loses
nothing; from 0 and to 0 what is released is judged at its release (R64). -/
def anchorDlChange (old new : Nat) (m : Mach) : Mach :=
  if old ≠ 0 ∧ old < new then { m with dlGap := 120 * (m.slotStart + new - old) } else m

/-- R63: an anchor value is admitted: 0, or within the limits of its direction. -/
def anchorOk (d : Dir) (v : Nat) (m : Mach) : Bool :=
  let lim := match d with
    | .ul => (fget GCTL_ANCHOR_LIM_UL.l_min m, fget GCTL_ANCHOR_LIM_UL.l_max m)
    | .dl => (fget GCTL_ANCHOR_LIM_DL.l_min m, fget GCTL_ANCHOR_LIM_DL.l_max m)
  v == 0 || decide (lim.1 ≤ v ∧ v ≤ lim.2)

def anchorReg : Dir → Nat
  | .ul => GCTL_ANCHOR_UL
  | .dl => GCTL_ANCHOR_DL

/-- An anchor applies, at slot boundary S or while the frame timing is stopped. What it does to the uplink streams follows once the
slot's beams are known (anchorUlChange). -/
def applyAnchor (d : Dir) (v : W) (m : Mach) : Mach :=
  let m1 := wr (anchorReg d) v m
  match d with
  | .ul => m1
  | .dl => anchorDlChange (rd (anchorReg d) m).toNat v.toNat m1

/-- ANCHOR_WRITE: a value outside the limits is refused; any other is staged, or applies at once while the frame timing is
stopped (R21 to R23). -/
def anchorWrite (d : Dir) (v : W) (m : Mach) : Mach :=
  let x := v &&& 0xFFFF#32
  if !anchorOk d x.toNat m then setEv GCTL_CORE_EVENTS.anchor_range m
  else
    let m1 := if timingOn m then setStage (anchorReg d) (some x) m else applyAnchor d x m
    mirror 2 (.anchor d x) m1
def execAnchorWrite (d : Dir) (v : W) (s : State) : Host.Outcome State Fault Refusal :=
  answer s (gate (anchorReg d) (anchorWrite d v) s.m)

end Sys2Proof.Machine
end

