-- ==== Sys2Proof/Machine/Downlink.lean ====
section
/-! DEFINITION. The downlink signal flow: link samples through the downlink mesh (R160, R162, R178), the interpolation chain
(R148, R150), the predistortion engine and into the transmit output bridge. -/

namespace Sys2Proof.Machine

/-! ### The transmit chain -/

/-- One engine output, of air time `air`, through IHB2, IHB1, the fixed interpolator and the mixer, into the transmit bridge: eight
samples. -/
def txTail (n : Nat) (x : Nat × Sample) (m : Mach) : Mach :=
  let c := ChainId.duc (toPath n)
  let r := runInterp c 9 (runInterp c 1 (runInterp c 2 ([x.2], ncoReach c x.1 m)))
  let m1 := fsetB (QUAD_DDC_STATUS.settling c) (r.1.any fun y => y.st == .settling) r.2
  each r.1.zipIdx (fun y s =>
    let z := getChain (chainKey c) s
    outPush (.tx (toPath n)) ⟨mixUp z.acc y.1, none, x.1 + y.2 * dacSub s⟩ (setChain (chainKey c) (ncoNext z) s)) m1

/-- The engines that an input of path `n` lets form outputs do so, and their outputs go on. -/
def txEngines (n : Nat) (m : Mach) : Mach :=
  each (pdUsers n m) (fun p s =>
    let x := getPd p s
    let r := pdOuts p (x.k - x.outK) s
    each r.1 (txTail p) r.2) m

/-- The stages ahead of the engine, first to last: IHB(u + 2) down to IHB3 (R148). -/
def ducFront (u : Nat) : List Nat := ((List.range u).map (· + 3)).reverse

/-- A quadrant's chains take traffic: it is RUNNING and its start boundary has come (R86). -/
def quadCarries (q : Nat) (m : Mach) : Bool := quadState q m == 2 && !(getQ q m).startFrame

/-- A sample of air time `air` enters transmit chain `n`. -/
def txChainIn (n air : Nat) (s : Sample) (m : Mach) : Mach :=
  let c := ChainId.duc (toPath n)
  if !quadCarries (n / 16) m then m
  else
    let x := if fon (QUAD_DDC_STATUS.spec_inv_act c) m && s.st != .gap then conjS s else s
    let r := (ducFront (nstages c m)).foldl (fun a k => runInterp c k a) ([x], m)
    let m1 := setChain (chainKey c) { getChain (chainKey c) r.2 with inAir := air + 2 ^ nstages c m * pdSub m } r.2
    each r.1.zipIdx (fun y t =>
      let a := air + y.2 * pdSub t
      txEngines n (pdPush n a y.1 t)) m1

/-! ### The downlink mesh -/

/-- The weight of a beam at path `n`, after the mask. -/
def dlWeight (w : BeamW) (n : Nat) (m : Mach) : Int × Int := if exclDl n m then (0, 0) else w.w.getD n (0, 0)

/-- The beams that contribute in the running slot, with their banks. -/
def dlBeams (m : Mach) : List (Nat × BeamW) :=
  beams32.filterMap fun b => match dlBank b m with
    | some w => if dlContrib w then some (b, w) else none
    | none => none

/-- A product of a sample and a weight. -/
def wprod (x : Sample) (w : Int × Int) : Int × Int := cmulS x w

/-- A mesh output from its sum: 20 bits after a shift of `sh` places, the tag of the inputs that contribute (R110, R159,
R160, R162), and whether it was clipped. -/
def meshOut (l : List (Sample × (Int × Int))) (sh : Nat) : Sample × Bool :=
  let used := l.filter fun p => p.2.1 != 0 || p.2.2 != 0
  let t := used.foldl (fun t p => tagMerge t p.1.tag) (Tag.valid, false)
  if t.1 = .gap then ({ gapSample with ovr := t.2 }, false)
  else
    let a := csum (used.map fun p => wprod p.1 p.2)
    let i := Int.fdiv (a.1 * 2 ^ sh) (2 ^ 18)
    let q := Int.fdiv (a.2 * 2 ^ sh) (2 ^ 18)
    let c := decide (satS 20 i ≠ i ∨ satS 20 q ≠ q)
    ({ i := satS 20 i, q := satS 20 q, st := t.1, ovr := t.2 || c }, c)

/-- R160: path `n` saturated: its bit, and that of every beam with a weight there. -/
def dlSat (n : Nat) (bs : List (Nat × BeamW)) (m : Mach) : Mach :=
  let m1 := setEvBit (if n < 32 then BMU_DL_SAT_PATH_LO else BMU_DL_SAT_PATH_HI) (n % 32) m
  each (bs.filter fun p => dlWeight p.2 n m != (0, 0)) (fun p s => setEvBit BMU_DL_SAT p.1 s) m1

/-- Path `n`'s sample from one sample of every contributing beam. An excluded path, and every path of a muted mesh, receives
zero (R184, R52). -/
def dlPath (n air : Nat) (hs : List (Sample × Nat × BeamW)) (m : Mach) : Mach :=
  if exclDl n m || muted 10 m then txChainIn n air zeroSample m
  else
    let r := meshOut (hs.map fun h => (h.1, dlWeight h.2.2 n m)) 0
    txChainIn n air r.1 (if r.2 then dlSat n (hs.map Prod.snd) m else m)

/-- Samples of one downlink beam that wait for their companions, with their air times. -/
def dlWait (b : Nat) (m : Mach) : List (Nat × Sample) := tabGet (fun _ => []) m.mesh.dlq b
def setDlWait (b : Nat) (l : List (Nat × Sample)) (m : Mach) : Mach :=
  { m with mesh := { m.mesh with dlq := tabPut (fun _ => []) m.mesh.dlq b l } }

/-- The mesh forms a sample of every path once every contributing beam has one; with `all` a beam that has none stands as GAP as
long as another has one. `fuel` bounds how many. -/
def dlForm (all : Bool) : Nat → Mach → Mach
  | 0, m => m
  | fuel + 1, m =>
    let bs := dlBeams m
    let airs := bs.filterMap fun p => (dlWait p.1 m).head?.map Prod.fst
    if airs.isEmpty || (!all && bs.any fun p => (dlWait p.1 m).isEmpty) then m
    else
      let air := airs.foldl min (airs.headD 0)
      let mine (b : Nat) (s : Mach) : Bool := (dlWait b s).any fun e => e.1 == air
      let hs := bs.map fun p => (if mine p.1 m then ((dlWait p.1 m).headD (0, gapSample)).2 else gapSample, p.1, p.2)
      let m1 := each bs (fun p s => if mine p.1 s then setDlWait p.1 ((dlWait p.1 s).drop 1) s else s) m
      dlForm all fuel (each paths64 (fun n s => dlPath n air hs s) m1)

/-- At the end of a slot no companion of a sample that still waits can come any more (R60): the mesh forms every one left, a missing
companion as GAP, and no word is lost (R33). -/
def dlFlush (m : Mach) : Mach := dlForm true ((m.mesh.dlq.map fun e => e.2.length).sum) m

/-- A downlink beam sample reaches the mesh. One of a beam that does not contribute is not transmitted (R51, R163). -/
def dlBeamIn (b air : Nat) (s : Sample) (m : Mach) : Mach :=
  if modeDl m = 0 ∧ (dlBeams m).any (fun p => p.1 == b) = true then
    let m1 := setDlWait b (dlWait b m ++ [(air, s)]) m
    dlForm false (dlWait b m1).length m1
  else m

/-- An element sample goes to its path unchanged (R178); an excluded one receives zero. -/
def dlElemIn (n air : Nat) (s : Sample) (m : Mach) : Mach :=
  if modeDl m = 1 then txChainIn n air (if exclDl n m || muted 10 m then zeroSample else s) m else m

/-- A downlink sample of the running slot goes on in the core. One in the ticks that an increase of the anchor leaves out is GAP
(R65). -/
def dlGo (t : DlTarget) (air : Nat) (s : Sample) (m : Mach) : Mach :=
  let x := if air < m.dlGap then gapSample else s
  match t with
  | .stream (.beam b) => dlBeamIn b air x m
  | .stream (.elem n) => dlElemIn n air x m
  | .chain n => txChainIn n air x m

/-- A downlink sample has entered the core. One whose air time lies in a slot to come waits for it: what changes at a slot boundary
acts by air time (R22, R65, R145, R251, R257). -/
def dlEnter (t : DlTarget) (air : Nat) (s : Sample) (m : Mach) : Mach :=
  if pastSlot air m then { m with dlHold := m.dlHold ++ [⟨t, air, s, m.tod⟩] } else dlGo t air s m

/-- The samples that waited for the slot that begins go on. -/
def dlResume (m : Mach) : Mach :=
  let now := m.dlHold.filter fun h => !pastSlot h.air m
  let m1 := each now (fun h s => dlGo h.target h.air h.s { s with admTod := some h.adm })
    { m with dlHold := m.dlHold.filter fun h => pastSlot h.air m }
  { m1 with admTod := none }

/-- A downlink stream's sample enters the core from its link receive bridge. A muted pipeline LRX releases GAP, and so does one whose
clock stands or whose bridges were flushed (R44). -/
def dlSample (st : DlStream) (air : Nat) (s : Sample) (m : Mach) : Mach :=
  dlEnter (.stream st) air (if muted 15 m || frozen 7 m || flushing 7 m then gapSample else s) m

/-- A tile's sample for transmit chain `n`: no air time is stated for it, so it takes the one of a link sample that enters now, or the
one after its predecessor's (DESIGN CHOICE, assumption 85). -/
def dlFromTile (n : Nat) (s : Sample) (m : Mach) : Mach :=
  let held := (m.dlHold.filterMap fun h => if h.target = .chain n then some (h.air + 2 ^ nstages (.duc (toPath n)) m * pdSub m) else none)
  let prev := (held ++ [(getChain (64 + n) m).inAir]).foldl max 0
  dlEnter (.chain n) (max prev (120 * (tick m + anchorOf true m + 4))) s m

end Sys2Proof.Machine
end

