-- ==== Sys2Proof/Machine/Ports.lean ====
section
/-! DEFINITION. Samples into the input ports of the signal tiles (R311): the routes that end at a tile. -/

namespace Sys2Proof.Machine

/-- A sample into input port `p` of tile `t`; a failed tile accepts and discards it (R325). -/
def portIn (t p : Nat) (s : Sample) (m : Mach) : Mach :=
  let x := getTile t m
  if x.discard then m else setTile t (if p = 0 then { x with in0 := x.in0 ++ [s] } else { x with in1 := x.in1 ++ [s] }) m

/-- A sample of the route of class `cls` and index `i` into every port of a serving tile that is bound to it. What a
port cannot hold waits before it (R35); the model keeps it behind the port's own sixteen. -/
def feedIn (cls i : Nat) (s : Sample) (m : Mach) : Mach :=
  let hits := m.tiles.flatMap fun e =>
    if e.2.serving then [0, 1].filterMap fun p =>
      let b := tabGet (fun _ => (0, 0, 0)) e.2.ports p
      if b.1 = cls ∧ b.2.1 = i then some (e.1, p) else none
    else []
  each hits (fun h x => portIn h.1 h.2 s x) m

end Sys2Proof.Machine
end

