-- ==== Sys2Proof/Machine/Uplink.lean ====
section
/-! DEFINITION. The receive side's signal flow: a converter code (R102 to R104, R111, R114), the input bridges (R40, R41),
the decimation chains, the uplink mesh (R159, R162, R178), and the routes behind them. -/

namespace Sys2Proof.Machine

/-! ### Receive units -/

/-- The key of a receive unit: path n, or 64 + o. -/
def rxKey : RxUnit → Nat
  | .path n => n
  | .obs o => 64 + o

/-- The quadrant of a receive unit. -/
def rxQuad : RxUnit → Nat
  | .path n => n / 16
  | .obs o => o / 2

/-- The domain that clocks a receive unit's bridge. -/
def rxDom : RxUnit → Nat
  | .path n => 1 + n / 16
  | .obs _ => 5

/-- The conversion chain behind a receive unit. -/
def rxChain : RxUnit → ChainId
  | .path n => .ddc n
  | .obs o => .obs o

/-- The key of an input bridge. -/
def inKey : InBridge → Nat
  | .rx n => n
  | .obs o => 64 + o
  | .lrx i => 72 + i
  | .mir i => 81 + i

/-- The domain that clocks an input bridge. -/
def inDom : InBridge → Nat
  | .rx n => 1 + n / 16
  | .obs _ => 5
  | .lrx _ => 7
  | .mir _ => 8

/-- The pipeline an input bridge belongs to (spec/01). -/
def inPipe : InBridge → Nat
  | .rx n => n / 16
  | .obs _ => 8
  | .lrx _ => 15
  | .mir _ => 16

/-- The receive unit behind an input bridge. -/
def bridgeUnit : InBridge → Option RxUnit
  | .rx n => some (.path n)
  | .obs o => some (.obs o)
  | _ => none

/-! ### The converter -/

/-- R406: the samples of quadrant `q` are tagged COAST while the MPLL or its QPLL coasts. -/
def coasts (q : Nat) (m : Mach) : Bool := fget CLK_STATUS.mpll m == 4 || fget (CLK_STATUS.qpll_q q) m == 3

/-- R404, R407: the converter clocks of quadrant `q` are gated: its receive outputs are GAP. -/
def gatedQ (q : Nat) (m : Mach) : Bool := inMask (fget CLK_STATUS.gated_q m) q

/-- Quadrant `q` delivers samples: it is not POWERED_DOWN and its bridges are not frozen. While its clocks are gated the
samples of the sampling grid stand as GAP. -/
def convOn (u : RxUnit) (m : Mach) : Bool := quadState (rxQuad u) m != 0 && !frozen (rxDom u) m

/-- R111, R112: the tag of the next sample of a receive unit. -/
def rxTag (u : RxUnit) (m : Mach) : Tag :=
  let x := getRx (rxKey u) m
  let dead := match u with
    | .path n => rxFailed n m
    | .obs _ => fget (QUAD_RX_STATUS.spare u) m == 7 && x.badPos != []
  if gatedQ (rxQuad u) m || fon (QUAD_RX_CAL_STATUS.busy (rxQuad u)) m || dead || decide (0 < x.gapN) then .gap
  else if 0 < x.settle then .settling
  else if coasts (rxQuad u) m then .coast
  else .valid

/-- R115: the overload window of path `n` in samples; ovl_win above 10 acts as 10. -/
def ovlWindow (n : Nat) (m : Mach) : Nat := 16 * 2 ^ min 10 (fget (QUAD_RX_OVL_CFG.ovl_win n) m)

/-- R115: a sample of path `n` that the detector does not judge takes its place in the window. -/
def rxSkip (n : Nat) (m : Mach) : Mach :=
  let x := getRx n m
  setRx n { x with ovlCnt := if x.ovlN % ovlWindow n m = 0 then 0 else x.ovlCnt, ovlN := x.ovlN + 1 } m

/-- R115: the overload detector and the slot's peak see a code of path `n`; a window begins with its first sample. -/
def rxWatch (n : Nat) (c : Int) (m : Mach) : Mach :=
  let x := getRx n m
  let a := c.natAbs
  let hit := decide (fget (QUAD_RX_OVL_CFG.ovl_thr n) m ≤ a)
  let old := if x.ovlN % ovlWindow n m = 0 then 0 else x.ovlCnt
  setRx n { x with peak := max x.peak (min 8191 a), ovrSlot := x.ovrSlot || decide (c = -8192 ∨ c = 8191),
                   ovlCnt := old + (if hit then 1 else 0), ovlN := x.ovlN + 1 } m

/-- ADC_SAMPLE: one code, left-aligned in 20 bits, tagged and marked (R104, R111, R114), joins the beat being assembled. At the
digital loopback point the transmit chain's output stands in its place: zero, for the point exists only while the quadrant carries
no traffic (R92, R95, R225). -/
def adcSample (u : RxUnit) (code : BitVec 14) (m : Mach) : Mach :=
  if !convOn u m then m
  else
    let loop := fget (GCTL_LOOPBACK.lb_q (rxQuad u)) m == 2
    let c := if loop then 0 else code.toInt
    let full := decide (c = -8192 ∨ c = 8191) && !gatedQ (rxQuad u) m
    let t := rxTag u m
    let s : Sample := if t = .gap then { gapSample with ovr := full } else { i := c * 64, q := 0, st := t, ovr := full }
    let x := getRx (rxKey u) m
    let m1 := setRx (rxKey u) { x with asm := x.asm ++ [s], settle := x.settle - 1, gapN := x.gapN - 1 } m
    let m2 := match u with
      | .path n => if gatedQ (rxQuad u) m || loop then rxSkip n m1 else rxWatch n c (if full then cnt (QUAD_RX_OVR_COUNT n) 1 0xFFFFFFFF m1 else m1)
      | .obs _ => m1
    setEvIf full (QUAD_RX_EVENTS.ovr u) m2
def execAdcSample (u : RxUnit) (code : BitVec 14) (s : State) : Host.Outcome State Fault Refusal :=
  answer s (adcSample u code s.m)

/-- OVERLOAD_WINDOW_END: a window is complete; the detector fires where enough samples reached the threshold: ovl, and OVL to the
quadrant's sequencer (R115, R243). -/
def overloadEnd (n : Nat) (m : Mach) : Mach :=
  let x := getRx n m
  if x.ovlN = 0 ∨ x.ovlN % ovlWindow n m ≠ 0 then m
  else
    let fires := fon (QUAD_RX_OVL_CFG.ovl_en n) m && decide (max 1 (fget (QUAD_RX_OVL_CFG.ovl_cnt n) m) ≤ x.ovlCnt)
    let m1 := setRx n { x with ovlCnt := 0 } m
    if fires then fesNow (n / 16) 9 (setEv (QUAD_RX_EVENTS.ovl (.path (toPath n))) m1) else m1
def execOverloadWindowEnd (n : Fin 64) (s : State) : Host.Outcome State Fault Refusal := answer s (overloadEnd n s.m)

/-! ### The uplink mesh -/

/-- The next index of an uplink stream's samples in the frame (R377), by key: 0 the mesh, 100 + n element n, 200 + b a
tile's output into beam b; at least that of the slot's first sample. -/
def posSub (k : Nat) (m : Mach) : Nat :=
  ulSub (if 100 ≤ k ∧ k < 164 then .elem (toPath (k - 100)) else .beam 0) m
def posIdx (k : Nat) (m : Mach) : Nat :=
  max (tabGet (fun _ => 0) m.pos k) ((120 * (m.slotStart - m.frameStart) + posSub k m - 1) / max 1 (posSub k m))
def nextPos (k : Nat) (m : Mach) : StreamPos × Mach :=
  (⟨m.frameNo, m.slot, posIdx k m, 120 * m.frameStart + posIdx k m * posSub k m⟩,
    { m with pos := tabPut (fun _ => 0) m.pos k (posIdx k m + 1) })

/-- The weight of a beam at receive path `n`, after the mask. -/
def ulWeight (w : BeamW) (n : Nat) (m : Mach) : Int × Int := if exclUl n m then (0, 0) else w.w.getD n (0, 0)

/-- R159: one sample of a beam from the heads of the included paths; a beam that is not formed carries GAP. -/
def beamSample (w : BeamW) (hs : List (Nat × Sample)) (m : Mach) : Sample × Bool :=
  if w.formed && !w.shed && !muted 9 m then meshOut (hs.map fun h => (h.2, ulWeight w h.1 m)) w.desc.bsh
  else (gapSample, false)

/-- A traffic beam's sample goes to its stream and to the tiles on its route. -/
def ulBeamOut (b : Nat) (p : StreamPos) (r : Sample × Bool) (m : Mach) : Mach :=
  feedIn 2 b r.1 (ulPush (.beam (Fin.ofNat 32 b)) r.1 p (if r.2 then setEvBit BMU_UL_SAT b m else m))

/-- R195: an acquisition beam takes its shift from ACQ_THR. -/
def acqBeam (w : BeamW) (m : Mach) : BeamW := { w with desc := { w.desc with bsh := Fin.ofNat 8 (fget ACQ_THR.acq_bsh m) } }

/-- An acquisition beam's sample goes to the acquisition engine: to the slot that runs, and to the one before it that waits for its
last samples (R194). A muted pipeline ACQ takes GAP (R52). -/
def acqBeamOut (a : Nat) (r : Sample × Bool) (m : Mach) : Mach :=
  let s := if muted 11 m then gapSample else r.1
  let more (t : Tab (List Sample)) := tabPut (fun _ => []) t a (tabGet (fun _ => []) t a ++ [s])
  { m with mesh := { m.mesh with acqIn := more m.mesh.acqIn },
           acq := { m.acq with job := m.acq.job.map fun j => { j with ss := more j.ss } } }

/-- The mesh takes one sample of every included path: in an acquisition slot it forms acquisition beams, else the traffic
beams of BEAM or MIXED mode. -/
def ulMeshStep (hs : List (Nat × Sample)) (m : Mach) : Mach :=
  let r := nextPos 0 m
  if acqSlot m then
    each (m.mesh.actAcq.filterMap fun e => e.2.map fun w => (e.1, w)) (fun e s =>
      if e.2.formed && !e.2.shed then acqBeamOut e.1 (beamSample (acqBeam e.2 s) hs s) s else s) r.2
  else if modeUl m = 1 then r.2
  else each (m.mesh.actUl.filterMap fun e => e.2.map fun w => (e.1, w)) (fun e s => ulBeamOut e.1 r.1 (beamSample e.2 hs s) s) r.2

/-- Samples of one path that wait at the mesh. -/
def ulWait (n : Nat) (m : Mach) : List Sample := tabGet (fun _ => []) m.mesh.ulq n
def setUlWait (n : Nat) (l : List Sample) (m : Mach) : Mach :=
  { m with mesh := { m.mesh with ulq := tabPut (fun _ => []) m.mesh.ulq n l } }

/-- The included receive paths. -/
def ulPaths (m : Mach) : List Nat := paths64.filter fun n => !exclUl n m

/-- The mesh steps as long as every included path has a sample; with `all` a path that has none stands as GAP as long as another has
one. `fuel` bounds how often. -/
def ulForm (all : Bool) : Nat → Mach → Mach
  | 0, m => m
  | fuel + 1, m =>
    let ps := ulPaths m
    if (ps.all fun n => (ulWait n m).isEmpty) || (!all && ps.any fun n => (ulWait n m).isEmpty) then m
    else
      let hs := ps.map fun n => (n, (ulWait n m).headD gapSample)
      ulForm all fuel (ulMeshStep hs (each ps (fun n s => setUlWait n ((ulWait n s).drop 1) s) m))

/-- The longest queue at the mesh. -/
def ulLongest (m : Mach) : Nat := (m.mesh.ulq.map fun e => e.2.length).foldl max 0
/-- The mesh forms every sample that waits, a missing companion as GAP: no word is lost where its rate changes (R33). -/
def ulFlush (m : Mach) : Mach := ulForm true (ulLongest m) m

/-- A sample of an included path reaches the mesh. -/
def ulMeshIn (n : Nat) (s : Sample) (m : Mach) : Mach :=
  if exclUl n m then m
  else
    let m1 := setUlWait n (ulWait n m ++ [s]) m
    ulForm false (ulWait n m1).length m1

/-- In ELEMENT mode a path's samples are its link stream; an excluded path's carries GAP (R178). -/
def ulElemOut (n : Nat) (s : Sample) (m : Mach) : Mach :=
  if modeUl m = 1 then
    let r := nextPos (100 + n) m
    ulPush (.elem (toPath n)) (if exclUl n m then gapSample else s) r.1 r.2
  else m

/-! ### Chain outputs -/

/-- An output of receive chain `n`, formed at `t` (1/16 tick). It is GAP unless the quadrant carries traffic and neither it
nor the path is silenced (R44, R52, R86, R125). -/
def rxOut (n t : Nat) (y : Sample) (m : Mach) : Mach :=
  let q := n / 16
  let s := if quadCarries q m && !flushing (1 + q) m && !rxFailed n m && !muted q m then y else gapSample
  let m1 := feedIn 1 n s (capFeed true n t s m)
  ulElemOut n s (if quadCarries q m then ulMeshIn n s m1 else m1)

/-- R260: an adaptation capture of receiver `o` takes its z from the chain at nstages = 2. -/
def pdCapFeed (o t : Nat) (s : Sample) (m : Mach) : Mach :=
  match tabGet (fun _ => none) m.pdCap o with
  | some c =>
    if c.done || decide (t < 16 * c.tick) || decide (c.len ≤ c.z.length) || nstages (.obs (toObs o)) m != 2 then m
    else { m with pdCap := tabPut (fun _ => none) m.pdCap o (some { c with z := c.z ++ [s] }) }
  | none => m

/-- An output of observation chain `o`: to the capture sets only (R127), and to the adaptation's capture. -/
def obsOut (o t : Nat) (y : Sample) (m : Mach) : Mach :=
  let q := o / 2
  let s := if quadCarries q m && !flushing 5 m && !flushing (1 + q) m && !muted 8 m then y else gapSample
  pdCapFeed o t s (capFeed false o t s m)

/-- A sample that the core has taken from its bridge goes through its chain. -/
def coreSample (u : RxUnit) (s : Sample) (m : Mach) : Mach :=
  let r := ddcStep (rxChain u) s m
  match r.1 with
  | none => r.2
  | some y => match u with
    | .path n => rxOut n y.2 y.1 r.2
    | .obs o => obsOut o y.2 y.1 r.2

/-! ### Input bridges (R40, R41) -/

/-- The samples an entry stands for: its own, or GAP in a lost one's place. -/
def entrySamples : BEntry → List Sample
  | .data l => l
  | .lost n => List.replicate n gapSample

/-- The core takes an entry. -/
def takeEntry (b : InBridge) (e : BEntry) (m : Mach) : Mach :=
  match bridgeUnit b with
  | some u => each (entrySamples e) (coreSample u) m
  | none => m

/-- The core takes entries from a bridge: `k` entries held, and the marks of lost ones among and before them. -/
def takeN (b : InBridge) : Nat → List BEntry → Mach → Mach
  | _, [], m => setIn (inKey b) [] m
  | k, .lost n :: l, m => takeN b k l (takeEntry b (.lost n) m)
  | 0, l, m => setIn (inKey b) l m
  | k + 1, e :: l, m => takeN b k l (takeEntry b e m)

/-- The entries a bridge holds. -/
def occupancy (b : InBridge) (m : Mach) : Nat := ((getIn (inKey b) m).filter fun e => match e with
  | .data _ => true
  | .lost _ => false).length

/-- The beat at a receive unit's bridge, if eight samples have come: what the core has not formed already, and the unit
with them taken away. -/
def takeBeat (b : InBridge) (m : Mach) : Option (List Sample) × Mach :=
  match bridgeUnit b with
  | none => (some [], m)
  | some u =>
    let x := getRx (rxKey u) m
    if x.asm.length < 8 then (none, m)
    else (some ((x.asm.take 8).drop x.formed), setRx (rxKey u) { x with asm := x.asm.drop 8, formed := x.formed - 8 } m)

/-- The peak occupancy of the pipeline's bridges over the window (occ_max). -/
def noteOcc (p n : Nat) (m : Mach) : Mach :=
  { m with lad := { m.lad with occ := tabPut (fun _ => 0) m.lad.occ p (max n (tabGet (fun _ => 0) m.lad.occ p)) } }

/-- R41: the clocked side writes one entry; into a full bridge it is lost. -/
def bridgeWrite (b : InBridge) (m : Mach) : Mach :=
  let r := takeBeat b m
  match r.1 with
  | none => m
  | some l =>
    let full := decide (64 ≤ occupancy b r.2)
    let e := if full then BEntry.lost l.length else .data l
    let m1 := setIn (inKey b) (getIn (inKey b) r.2 ++ [e]) r.2
    noteOcc (inPipe b) (occupancy b m1) (setEvIf full GCTL_CORE_EVENTS.bridge_ovf m1)

/-- R35: an output bridge that the input bridge feeds is full and holds its feeder back: the core takes nothing. -/
def heldBack (b : InBridge) (m : Mach) : Bool :=
  match b with
  | .rx n => (ulStreams m).any fun st => (match st with
      | .beam _ => true
      | .elem i => i == n) && !(getOut (ulKey st) m).feeder.isEmpty
  | _ => false

/-- INPUT_BRIDGE_WRITE: since the last beat the core took `taken` entries, none of them against back-pressure (R35); then the clocked
side writes one. A frozen bridge does neither (R44). -/
def inputBridgeWrite (b : InBridge) (taken : Nat) (m : Mach) : Mach :=
  if frozen (inDom b) m then m
  else bridgeWrite b (takeN b (if heldBack b m then 0 else taken) (getIn (inKey b) m) m)
def execInputBridgeWrite (b : InBridge) (taken : Nat) (s : State) : Host.Outcome State Fault Refusal :=
  answer s (inputBridgeWrite b taken s.m)

/-- The core forms every sample taken up to now, so that what a boundary changes acts on later samples only; the entries
stay in their bridge, emptied. -/
def settleBridge (b : InBridge) (m : Mach) : Mach :=
  match bridgeUnit b with
  | none => m
  | some u =>
    let l := getIn (inKey b) m
    let m1 := each l (takeEntry b) (setIn (inKey b) (l.filterMap fun e => match e with
      | .data _ => some (.data [])
      | .lost _ => none) m)
    let x := getRx (rxKey u) m1
    each (x.asm.drop x.formed) (coreSample u) (setRx (rxKey u) { x with formed := x.asm.length } m1)

/-- Every receive and observation bridge is settled. A frozen one is held. -/
def settleAll (m : Mach) : Mach :=
  each ((paths64.map fun n => InBridge.rx (toPath n)) ++ (List.range 8).map fun o => InBridge.obs (toObs o))
    (fun b s => if frozen (inDom b) s then s else settleBridge b s) m

end Sys2Proof.Machine
end

