-- ==== Sys2Proof/Machine/Mesh.lean ====
section
/-! DEFINITION. The control of the beam meshes (spec/05): schedules, the weight synthesiser, shedding, exclusions, spare
columns, and what the meshes do at a slot boundary. -/

namespace Sys2Proof.Machine

/-! ### Folds and columns (R153, R530) -/

/-- The fold code of the uplink mesh: 0 fold 16, 1 fold 32, 2 fold 64, from ul_stages; of the downlink mesh from dl_u. -/
def foldUl (cfg : W) : Nat := min 2 (wfld cfg 4 4 - 3)
def foldDl (cfg : W) : Nat := min 2 (wfld cfg 8 4 - 1)
def foldOf (dl : Bool) (cfg : W) : Nat := if dl then foldDl cfg else foldUl cfg

/-- The beam slots of a fold. -/
def foldSlots (f : Nat) : Nat := 16 * 2 ^ f

/-- R530: the logical columns that form beam slot `b`. -/
def beamCols (f b : Nat) : List Nat := if f = 0 then [b, b + 16] else [b % 32]

/-- R189: the columns of a mesh that no spare serves. -/
def colsDown (dl : Bool) (m : Mach) : List Nat := if dl then m.mesh.colDownDl else m.mesh.colDownUl

/-- R189: no column forms beam slot `b`. -/
def colLost (dl : Bool) (f b : Nat) (m : Mach) : Bool := (beamCols f b).any fun c => (colsDown dl m).contains c

/-- The value that register `a` will hold in the slot that comes next. -/
def upcoming (a : Nat) (m : Mach) : W := (staged a m).getD (rd a m)

def setMesh (f : MeshSt → MeshSt) (m : Mach) : Mach := { m with mesh := f m.mesh }

/-! ### Schedules (R163 to R165, R385, R386) -/

/-- R386: a descriptor that names one b twice keeps the later one. -/
def dedup : List SchedDesc → List SchedDesc
  | [] => []
  | d :: l => if l.any fun e => e.b = d.b then dedup l else d :: dedup l

/-- A schedule's slot. -/
def schedKey (s : Sched) : Nat × Nat := (s.frame.toNat, s.slot.toNat)
def schedSame (a b : Sched) : Bool := schedKey a == schedKey b && a.dir == b.dir

/-- Slot `k` comes before slot `j` (the frame number has 24 bits, R11). -/
def slotBefore (k j : Nat × Nat) : Bool :=
  if k.1 = j.1 then decide (k.2 < j.2) else decide ((j.1 + 2 ^ 24 - k.1) % 2 ^ 24 < 2 ^ 23)

/-- R164: the deadline of the slot that comes next has passed. -/
def deadlinePassed (m : Mach) : Bool := m.mesh.synDone == some (nextSlotPos m) || decide ((nextSlot m).2 < tick m + 4916)

/-- The deadline of slot `k` has passed. -/
def slotLate (k : Nat × Nat) (m : Mach) : Bool :=
  timingOn m && (slotBefore k (nextSlotPos m) || (k == nextSlotPos m && deadlinePassed m))

/-- A descriptor that is not formed: its stream carries GAP (R164). -/
def unformed (d : SchedDesc) (late miss : Bool) : BeamW :=
  { desc := d, formed := false, late := late, miss := miss, shed := false, w := [] }

/-- The bank of a mesh that serves the running slot, or the next. -/
def putAct (dl : Bool) (b : Nat) (w : Option BeamW) (m : Mach) : Mach :=
  setMesh (fun x => if dl then { x with actDl := tabPut (fun _ => none) x.actDl b w }
                    else { x with actUl := tabPut (fun _ => none) x.actUl b w }) m
def putSh (dl : Bool) (b : Nat) (w : Option BeamW) (m : Mach) : Mach :=
  setMesh (fun x => if dl then { x with shDl := tabPut (fun _ => none) x.shDl b w }
                    else { x with shUl := tabPut (fun _ => none) x.shUl b w }) m

def isDl : Dir → Bool
  | .ul => false
  | .dl => true

/-- BMU_UL_BEAM_b and BMU_DL_BEAM_b: the descriptor in force. -/
def beamWord (dl : Bool) (w : Option BeamW) : W :=
  match w with
  | none => 0#32
  | some x =>
    BitVec.ofNat 32 ((if x.formed then x.desc.src.toNat else 0) + 4 * x.desc.prio + (if dl then 0 else 32 * x.desc.bsh) +
      (if x.shed then 256 else 0) + (if x.late then 512 else 0) + (if x.miss then 1024 else 0) +
      (if dl then 2048 * x.desc.att else 0))

/-- The beam registers follow the active banks. -/
def refreshBeams (m : Mach) : Mach :=
  each beams32 (fun b s => wr (BMU_DL_BEAM b) (beamWord true (dlBank b s)) (wr (BMU_UL_BEAM b) (beamWord false (ulBank b s)) s)) m

/-- R164, R165: the descriptors of a late first schedule: none is formed; the uplink carries GAP for them, but nothing for one
outside the fold. -/
def lateDescs (s : Sched) (m : Mach) : Mach :=
  let now := schedKey s == (m.frameNo, m.slot)
  if !now && schedKey s != nextSlotPos m then m
  else
    let f := foldSlots (foldOf (isDl s.dir) (if now then rd BMU_CFG m else upcoming BMU_CFG m))
    let l := (dedup s.descs).filter fun d => d.src != 0#2
    let m1 := each (l.filter fun d => decide (d.b.val < f)) (fun d t =>
      (if now then putAct else putSh) (isDl s.dir) d.b (some (unformed d true false)) t) m
    let m2 := setEvIf (l.any fun d => decide (f ≤ d.b.val)) BMU_EVENTS.beam_range m1
    if now then refreshBeams m2 else m2

/-- The type of slot `k`, a slot of the running frame or of a later one. -/
def slotTy (k : Nat × Nat) (m : Mach) : Nat :=
  (((if k.1 = m.frameNo then m.ftab else nextTable m).slots[k.2]?).map Slot.ty).getD 3

/-- R96: an uplink schedule in BEAM mode for an acquisition slot is ignored. -/
def schedIgnored (k : Nat × Nat) (dir : Dir) (m : Mach) : Bool :=
  dir == .ul && slotTy k m == 2 && wfld (upcoming BMU_CFG m) 0 2 == 0

/-- SCHED: a schedule is complete in the device. -/
def schedIn (s : Sched) (m : Mach) : Mach :=
  if coreOn m = false ∨ schedIgnored (schedKey s) s.dir m = true then m
  else if slotLate (schedKey s) m then
    let m1 := setEv EPL_EVENTS.sched_late m
    if m.mesh.scheds.any (schedSame s) then m1 else lateDescs s (setEv BMU_EVENTS.sched_late m1)
  else
    setMesh (fun x => { x with
      scheds := (x.scheds.filter fun t => !schedSame s t) ++ [{ s with descs := dedup s.descs }] }) (mirror 2 (.sched s) m)
def execSched (m : Sched) (s : State) : Host.Outcome State Fault Refusal := answer s (schedIn m s.m)

/-! ### Directory lookups (R167, R211, R212) -/

/-- The lookup of a sensor made for a slot. -/
def lookedAt (k : Nat × Nat) (id : BitVec 48) (m : Mach) : Option Look :=
  m.mesh.looked.find? fun l => (l.frame, l.slot) == k && l.id == id

/-- R211, R336: the lookup of a sensor for a slot: its buckets' poisoned lines are dealt with, and the result kept. -/
def makeLook (k : Nat × Nat) (id : BitVec 48) (m : Mach) : Mach :=
  let m1 := if dirOn m && !fon DIR_STATUS.restoring m then purgeId id m else m
  let e := dirLookup id m1
  setEvIf e.isNone BMU_EVENTS.id_miss
    (setMesh (fun x => { x with looked := x.looked ++ [⟨k.1, k.2, id, e⟩] }) m1)

/-- A descriptor of a schedule that wants a lookup: src 1, inside the fold (R165), its sensor not looked up yet. -/
def wantsLook (s : Sched) (d : SchedDesc) (m : Mach) : Bool :=
  d.src == 1#2 && decide (d.b.val < foldSlots (foldOf (isDl s.dir) (upcoming BMU_CFG m))) &&
    !schedIgnored (schedKey s) s.dir m && (lookedAt (schedKey s) d.sensor m).isNone

/-- DIRECTORY_LOOKUP: the synthesiser's read for beam `b` of the earliest schedule that waits for one. -/
def dirLookCmd (dir : Dir) (b : Fin 32) (m : Mach) : Mach :=
  match m.mesh.scheds.findSome? fun s =>
    if s.dir = dir then (s.descs.find? fun d => decide (d.b = b) && wantsLook s d m).map fun d => (s, d) else none with
  | some (s, d) => makeLook (schedKey s) d.sensor m
  | none => m
def execDirectoryLookup (d : Dir) (b : Fin 32) (s : State) : Host.Outcome State Fault Refusal :=
  answer s (dirLookCmd d b s.m)

/-! ### The weight synthesiser (R170 to R177) -/

/-- The carrier of a mesh in kHz, and whether it is admitted (R175). -/
def carrier (dl : Bool) (m : Mach) : Nat := (rd (if dl then BMU_DL_FC else BMU_UL_FC) m).toNat % 2 ^ 22
def carrierOk (dl : Bool) (m : Mach) : Bool := decide (300000 ≤ carrier dl m ∧ carrier dl m ≤ 3800000)

/-- R175: a direction code is in range. -/
def dirOk (az el : Int) : Bool := decide (-1800 ≤ az ∧ az ≤ 1800 ∧ -1800 ≤ el ∧ el ≤ 1800)

/-- The correction words in force: 16 for each path. -/
def corrWords (m : Mach) : List W := (List.range 1024).map fun i => rd (CAL_PATH i) m
/-- The geometry table: four words for each path. -/
def geomWords (m : Mach) : List W := (List.range 256).map fun i => rd (BMU_GEOM i) m

/-- R74, R88: quadrant `q` leaves RUNNING at the slot boundary that comes next. -/
def leavesRunning (q : Nat) (m : Mach) : Bool :=
  quadState q m == 2 && (m.trans == some .toWarmBack || (match (getQ q m).pend with
    | some (st, _) => st != 2
    | none => false))

/-- R90, R182: a path's exclusion is known when the slot's synthesis begins: it is excluded, the health unit has declared it failed,
its quadrant is to leave RUNNING, or a staged write excludes it. -/
def exclKnown (dl : Bool) (n : Nat) (m : Mach) : Bool :=
  let a := if dl then BMU_USER_EXCL_DL (n / 16) else BMU_USER_EXCL_UL (n / 16)
  (if dl then exclDl n m || txFailed n m else exclUl n m || rxFailed n m) || leavesRunning (n / 16) m ||
    (upcoming a m).getLsbD (n % 16)

/-- The included paths at the deadline. -/
def synPaths (dl : Bool) (m : Mach) : List Nat := paths64.filter fun n => !exclKnown dl n m

/-- Where a beam's weights come from. -/
inductive SynSrc where
  | dir (az el : Int) (spread : Nat)
  | pool (ws : List W) (raw : Bool)
  deriving DecidableEq, Repr

/-- What the synthesiser's computation takes. -/
def synIn (dl : Bool) (src : SynSrc) (att : Nat) (m : Mach) : SynIn :=
  let pat := if fon BMU_SYN_CFG.pat_en m then deckSect 11 m else []
  let corr := if fon BMU_SYN_CFG.corr_en m then corrWords m else []
  match src with
  | .dir az el sp => ⟨dl, [], false, az, el, sp, att, carrier dl m, pat, corr, geomWords m, synPaths dl m⟩
  | .pool ws raw => ⟨dl, ws, raw, 0, 0, 0, att, carrier dl m, [], corr, geomWords m, synPaths dl m⟩

/-- A beam is formed from a source, unless its mesh has no included path (R185) or an inadmissible carrier, or its
direction is out of range. -/
def synForm (dl : Bool) (d : SchedDesc) (src : SynSrc) (m : Mach) : BeamW × Mach :=
  let ok := match src with
    | .dir az el _ => dirOk az el
    | .pool _ _ => true
  if !carrierOk dl m || !ok then (unformed d false false, setEv BMU_EVENTS.dir_err m)
  else if (synPaths dl m).isEmpty then (unformed d false false, m)
  else
    let r := synWeights (synIn dl src d.att m)
    ({ desc := d, formed := true, late := false, miss := false, shed := false, w := r.1 }, setEvIf r.2 BMU_EVENTS.pool_err m)

/-- R173, R336: a pool vector: beyond the quota, or with a poisoned unit, it leaves the beam unformed. -/
def synPool (dl : Bool) (d : SchedDesc) (i : Nat) (raw : Bool) (m : Mach) : BeamW × Mach :=
  let a := partBase 1 m + 256 * i
  if !poolFits i m || !(badUnits a 256 m).isEmpty then
    (unformed d false false, setEv BMU_EVENTS.pool_err (if poolFits i m then readReport a 256 m else m))
  else synForm dl d (.pool ((List.range 64).map fun k => resWord (a + 4 * k) m) raw) m

/-- R163 to R167, R175, R189, R212: one descriptor of the slot whose synthesis begins. None: it is not named. -/
def synDesc (k : Nat × Nat) (dl : Bool) (d : SchedDesc) (m : Mach) : Option BeamW × Mach :=
  let f := foldOf dl (upcoming BMU_CFG m)
  if d.src = 0#2 then (none, m)
  else if foldSlots f ≤ d.b.val then (none, setEv BMU_EVENTS.beam_range m)
  else
    let m0 := if d.src = 1#2 ∧ (lookedAt k d.sensor m).isNone = true then makeLook k d.sensor m else m
    let m1 := setEvIf (!carrierOk dl m) BMU_EVENTS.dir_err m0
    if colLost dl f d.b m1 then (some (unformed d true false), setEv BMU_EVENTS.sched_late m1)
    else
      let r := if d.src = 1#2 then
          match (lookedAt k d.sensor m1).bind fun l => l.ent with
          | some e =>
            if e.mode = 1#2 then synForm dl d (.dir e.az.toInt e.el.toInt e.spread.toNat) m1
            else if e.mode = 2#2 then synPool dl d e.pool.toNat e.raw m1
            else (unformed d false true, setEv BMU_EVENTS.id_miss m1)
          | none => (unformed d false true, m1)
        else if d.src = 2#2 then synForm dl d (.dir d.az.toInt d.el.toInt d.spread) m1
        else synPool dl d d.pool.toNat d.raw m1
      (some r.1, r.2)

/-- The schedule of a slot and direction. -/
def schedOf (k : Nat × Nat) (dir : Dir) (m : Mach) : List SchedDesc :=
  match m.mesh.scheds.find? fun s => schedKey s == k && s.dir == dir with
  | some s => s.descs
  | none => []

/-- The traffic beams of one mesh for the slot that comes next. -/
def synTraffic (k : Nat × Nat) (dir : Dir) (m : Mach) : Mach :=
  each (schedOf k dir m) (fun d s => let r := synDesc k (isDl dir) d s; putSh (isDl dir) d.b r.1 r.2) m

/-- The descriptor that stands for acquisition beam `a`. -/
def acqDesc (a : Nat) (m : Mach) : SchedDesc :=
  let g := upcoming (ACQ_GRID a) m
  { b := Fin.ofNat 32 a, src := 2#2, prio := 0, bsh := 0, att := 0, raw := false,
    spread := Fin.ofNat 16 (wfld g 24 4), sensor := 0#48, az := BitVec.ofInt 16 (sext 12 (wfld g 0 12)),
    el := BitVec.ofInt 16 (sext 12 (wfld g 12 12)), pool := 0#16 }

/-- R169, R195: the acquisition beams' weights, from the grid points that the fold has slots for. -/
def synGrid (n : Nat) (m : Mach) : Mach :=
  let f := foldUl (upcoming BMU_CFG m)
  each (List.range (min n (foldSlots f))) (fun a s =>
    let d := acqDesc a s
    if colLost false f a s then s
    else
      let r := synForm false d (.dir d.az.toInt d.el.toInt d.spread) s
      setMesh (fun x => { x with acqWt := tabPut (fun _ => none) x.acqWt a (some r.1) }) r.2)
    (setMesh (fun x => { x with acqWt := [] }) m)

/-- What the acquisition beams' weights for the next slot are computed from, for `n` points. -/
def acqKey (n : Nat) (m : Mach) : AcqKey :=
  ⟨(List.range n).map fun a => upcoming (ACQ_GRID a) m, foldUl (upcoming BMU_CFG m), m.mesh.colDownUl,
    synIn false (.dir 0 0 0) 0 m⟩

/-- The acquisition beams of the slot that comes next: the held weights, or new ones where the grid, the corrections, the exclusion
set or another input changed since (R164, R169); with an inadmissible carrier none is formed (R175). -/
def synAcq (m : Mach) : Mach :=
  let n := min 64 (wfld (upcoming ACQ_GRID_CFG m) 7 7)
  let m1 := setEvIf (decide (foldSlots (foldUl (upcoming BMU_CFG m)) < n)) ACQ_EVENTS.grid_over m
  let k := acqKey n m1
  let m2 := if m1.mesh.acqKey = some k then m1 else setMesh (fun x => { x with acqKey := some k }) (synGrid n m1)
  if carrierOk false m2 then setMesh (fun x => { x with shAcq := x.acqWt }) m2
  else setEv BMU_EVENTS.dir_err (setMesh (fun x => { x with
    shAcq := x.acqWt.map fun e => (e.1, e.2.map fun w => { w with formed := false }) }) m2)

/-- R164, R174: the synthesis of the slot that comes next. A new set of corrections counts as used with corr_en 1. -/
def synthesise (m : Mach) : Mach :=
  let k := nextSlotPos m
  let cfg := upcoming BMU_CFG m
  let m0 := setMesh (fun x => { x with synDone := some k, corrNew := x.corrNew && !fon BMU_SYN_CFG.corr_en m })
    (setEvIf (m.mesh.corrNew && fon BMU_SYN_CFG.corr_en m) BMU_EVENTS.corr_applied m)
  let m1 := if (nextSlot m).1.ty = 2 then synAcq m0
    else if wfld cfg 0 2 = 1 then m0 else synTraffic k .ul m0
  if wfld cfg 2 1 = 1 then m1 else synTraffic k .dl m1

/-- SCHEDULE_DEADLINE: 4916 ticks before the boundary of the slot that comes next. -/
def scheduleDeadline (m : Mach) : Mach :=
  if timingOn m && m.mesh.synDone != some (nextSlotPos m) then synthesise (advanceTo ((nextSlot m).2 - 4916) m) else m
def execScheduleDeadline (s : State) : Host.Outcome State Fault Refusal := answer s (scheduleDeadline s.m)

/-! ### Exclusions (R181, R182, R186) -/

/-- R141, R186: the tick at which a receive path's synchronising-reset span has passed, if it has not. -/
def admitAt (n : Nat) (m : Mach) : Option Nat := tabGet (fun _ => none) m.mesh.joinAt n

/-- R155: the path's rate is not the mesh's. -/
def rateMisUl (n : Nat) (m : Mach) : Bool := nstages (.ddc (toPath n)) m != fget BMU_CFG.ul_stages m
def rateMisDl (n : Nat) (m : Mach) : Bool := nstages (.duc (toPath n)) m != fget BMU_CFG.dl_u m

/-- R181: path `n` is excluded at the slot boundary. -/
def exclNowUl (n : Nat) (m : Mach) : Bool :=
  rxFailed n m || !quadCarries (n / 16) m || rateMisUl n m || (rd (BMU_USER_EXCL_UL (n / 16)) m).getLsbD (n % 16) ||
    (match admitAt n m with
     | some t => decide (tick m < t)
     | none => false)
def exclNowDl (n : Nat) (m : Mach) : Bool :=
  txFailed n m || !quadCarries (n / 16) m || rateMisDl n m || (rd (BMU_USER_EXCL_DL (n / 16)) m).getLsbD (n % 16)

/-- The bits of the paths `lo` to `lo + 31` for which `p` holds. -/
def pathBits (lo : Nat) (p : Nat → Bool) : W :=
  BitVec.ofNat 32 (((List.range 32).map fun i => if p (lo + i) then 2 ^ i else 0).sum)

/-- A span that has passed is over. -/
def dropAdmits (m : Mach) : Mach :=
  setMesh (fun x => { x with joinAt := x.joinAt.filter fun e => match e.2 with
    | some t => decide (tick m < t)
    | none => false }) m

/-- The exclusion registers take the set of the slot that begins; a change sets excl_new. -/
def refreshExcl (m : Mach) : Mach :=
  let ul := (pathBits 0 (exclNowUl · m), pathBits 32 (exclNowUl · m))
  let dl := (pathBits 0 (exclNowDl · m), pathBits 32 (exclNowDl · m))
  let chU := ul.1 != rd BMU_EXCL_UL_LO m || ul.2 != rd BMU_EXCL_UL_HI m
  let chD := dl.1 != rd BMU_EXCL_DL_LO m || dl.2 != rd BMU_EXCL_DL_HI m
  let mis := paths64.any fun n => quadCarries (n / 16) m && (rateMisUl n m || rateMisDl n m)
  let m1 := wr BMU_EXCL_UL_LO ul.1 (wr BMU_EXCL_UL_HI ul.2 (wr BMU_EXCL_DL_LO dl.1 (wr BMU_EXCL_DL_HI dl.2 m)))
  let m2 := setEvIf mis BMU_EVENTS.rate_mis (setEvIf (chU || chD) BMU_EVENTS.excl_new m1)
  setMesh (fun x => { x with ulq := x.ulq.filter fun e => !exclUl e.1 m2 }) (dropAdmits m2)

/-- How many beams of a bank are formed and not shed. -/
def liveCount (t : Tab (Option BeamW)) : Nat := t.countP fun e => match e.2 with
  | some w => w.formed && !w.shed
  | none => false

/-- R185: a mesh with no included path forms no beams. -/
def dropUnfed (m : Mach) : Mach :=
  let none_ (t : Tab (Option BeamW)) : Tab (Option BeamW) := t.map fun e => (e.1, e.2.map fun w => { w with formed := false })
  let noUl := paths64.all fun n => exclUl n m
  let noDl := paths64.all fun n => exclDl n m
  setMesh (fun x => { x with
    actUl := if noUl then none_ x.actUl else x.actUl, actAcq := if noUl then none_ x.actAcq else x.actAcq,
    actDl := if noDl then none_ x.actDl else x.actDl }) m

/-- The beam registers and the counts of BMU_STATUS follow the active banks. -/
def showBeams (m : Mach) : Mach :=
  let m1 := fset BMU_STATUS.ul_beams (liveCount m.mesh.actUl) (fset BMU_STATUS.dl_beams (liveCount m.mesh.actDl) m)
  refreshBeams (if acqSlot m then fset BMU_STATUS.acq_beams (liveCount m.mesh.actAcq) m1 else m1)

/-- EXCLUSION_MASK: the mask of a path that the health unit declared failed takes effect inside the slot (R182). -/
def exclusionMask (d : Dir) (n : Fin 64) (m : Mach) : Mach :=
  let r := match d with
    | .ul => (rxFailed n m && !exclUl n m, if n.val < 32 then BMU_EXCL_UL_LO else BMU_EXCL_UL_HI)
    | .dl => (txFailed n m && !exclDl n m, if n.val < 32 then BMU_EXCL_DL_LO else BMU_EXCL_DL_HI)
  if r.1 then
    let m1 := showBeams (dropUnfed (setEv BMU_EVENTS.excl_new (fset ⟨r.2, n.val % 32, 1⟩ 1 m)))
    if d = .ul then
      let m2 := setMesh (fun x => { x with ulq := x.ulq.filter fun e => e.1 != n.val }) m1
      ulForm false (ulLongest m2) m2
    else m1
  else m
def execExclusionMask (d : Dir) (n : Fin 64) (s : State) : Host.Outcome State Fault Refusal :=
  answer s (exclusionMask d n s.m)

/-! ### Columns (R187 to R189) -/

/-- The pool of a mesh's columns, and the field that shows what its spare serves. -/
def colPool (dl : Bool) : Nat := if dl then 1 else 0
def colField (dl : Bool) : Fld := if dl then BMU_COL_MAP.dl_spare_for else BMU_COL_MAP.ul_spare_for

/-- The spare takes logical column `c` of a mesh (R441). -/
def bindCol (dl : Bool) (c : Nat) (m : Mach) : Mach :=
  useSpare 4 (colPool dl) (fset (colField dl) c
    (setRemap (fun r => if dl then { r with colDl := some c } else { r with colUl := some c }) m))

/-- The beams of a bank that column `c` forms are lost. -/
def loseBank (f c : Nat) (t : Tab (Option BeamW)) : Tab (Option BeamW) :=
  t.map fun e => if (beamCols f e.1).contains c then (e.1, e.2.map fun w => { w with formed := false, late := true, w := [] }) else e

/-- R188: the beams of column `c` are lost in the running slot, and in the next where its weights are synthesised. -/
def loseCol (dl : Bool) (c : Nat) (m : Mach) : Mach :=
  let f := foldOf dl (rd BMU_CFG m)
  let nxt := m.mesh.synDone == some (nextSlotPos m)
  let g := fun t => if nxt then loseBank (foldOf dl (upcoming BMU_CFG m)) c t else t
  setMesh (fun x => if dl then { x with actDl := loseBank f c x.actDl, shDl := g x.shDl }
    else { x with actUl := loseBank f c x.actUl, actAcq := loseBank f c x.actAcq, shUl := g x.shUl, shAcq := g x.shAcq }) m

/-- R189: the beams of column `c` cannot be formed from now on. -/
def colGone (dl : Bool) (c : Nat) (m : Mach) : Mach :=
  setMesh (fun x => if dl then { x with colDownDl := c :: x.colDownDl } else { x with colDownUl := c :: x.colDownUl })
    (setRemap (fun r => { r with colsDead := (if dl then c + 32 else c) :: r.colsDead }) m)

/-- What the spare column of a mesh is about to do. -/
def colPlan (dl : Bool) (m : Mach) : Option ColPlan := if dl then m.mesh.colPlanDl else m.mesh.colPlanUl
def putColPlan (dl : Bool) (o : Option ColPlan) (m : Mach) : Mach :=
  setMesh (fun x => if dl then { x with colPlanDl := o } else { x with colPlanUl := o }) m

/-- R188, R189: the mesh's spare column is free. -/
def colFree (dl : Bool) (m : Mach) : Bool := decide (0 < poolLeft 4 (colPool dl) m) && (colPlan dl m).isNone

/-- The spare takes column `c` at the first slot boundary whose synthesis has not begun (R164). -/
def planCol (dl : Bool) (c : Nat) (planned : Bool) (m : Mach) : Mach :=
  putColPlan dl (some ⟨c, m.mesh.synDone == some (nextSlotPos m), planned⟩) m

/-- R189: a retired column whose spare is in use loses its beams: it is worn, and its substitution is over. -/
def colWorn (dl : Bool) (c : Nat) (m : Mach) : Mach :=
  markWorn 4 (kindDie 4) c c (colGone dl c (showBeams (loseCol dl c (endPlanned m))))

/-- COLUMN_REMAP_PLANNED: the planned substitution of a column begins: the spare's shadow bank takes its weights with the next
synthesis, and the spare takes over at that slot's boundary (R187). -/
def columnRemap (dl : Bool) (c : Nat) (m : Mach) : Mach :=
  match m.hlt.running with
  | some r =>
    if r.kind.val = 4 ∧ r.pool = colPool dl ∧ r.phys = c then
      if colFree dl m then planCol dl c true m
      else if (colPlan dl m).any fun p => p.planned && p.col == c then m
      else colWorn dl c m
    else m
  | none => m
def execColumnRemapPlanned (d : Dir) (col : Fin 32) (s : State) : Host.Outcome State Fault Refusal :=
  answer s (columnRemap (isDl d) col s.m)

/-- COLUMN_HARD_FAIL: the column's beams are lost; a free spare, or the one that was to take over by plan, serves them from the first
slot synthesised after the detection (R188), else they are lost for good (R189). -/
def columnFail (dl : Bool) (c : Nat) (m : Mach) : Mach :=
  let mine := (colPlan dl m).any fun p => p.col == c
  let m1 := showBeams (loseCol dl c (dropPlanned 4 c m))
  if colsDown dl m |>.contains c then m
  else if colFree dl m || mine then planCol dl c false m1
  else noSpare 4 1 c c (colGone dl c m1)
def execColumnHardFail (d : Dir) (col : Fin 32) (s : State) : Host.Outcome State Fault Refusal :=
  answer s (columnFail (isDl d) col s.m)

/-- R187, R188: at the slot boundary the spare serves the column; of a planned substitution nothing is tagged. -/
def endColPlan (dl : Bool) (m : Mach) : Mach :=
  match colPlan dl m with
  | none => m
  | some p =>
    if p.wait then putColPlan dl (some { p with wait := false }) m
    else
      let m1 := bindCol dl p.col (putColPlan dl none m)
      if p.planned then plannedDone 4 p.col p.col 32 (setEv BMU_EVENTS.col_remap m1)
      else hardDone 4 p.col p.col 32 (setEv BMU_EVENTS.col_fail m1)

/-! ### BMU_CFG (R155, R156, R178 to R180) -/

/-- A write of BMU_CFG is admitted. -/
def bmuCfgOk (v : W) (m : Mach) : Bool :=
  let ulS := wfld v 4 4
  let u := wfld v 8 4
  let old := upcoming BMU_CFG m
  let rates := ulS != wfld old 4 4 || u != wfld old 8 4
  decide (wfld v 0 2 ≠ 3 ∧ 3 ≤ ulS ∧ ulS ≤ 8 ∧ 1 ≤ u ∧ u ≤ 6) &&
    !(rates && quads4.any fun q => decide (2 ≤ quadState q m)) &&
    (wfld v 0 2 == 0 || decide (5 ≤ ulS)) && (wfld v 2 1 == 0 || decide (3 ≤ u))

/-- BMU_CFG applies. At another rate the mesh inputs that wait are formed first, under the configuration they came in (R33). -/
def applyBmuCfg (v : W) (m : Mach) : Mach :=
  if wfld v 4 8 = wfld (rd BMU_CFG m) 4 8 then wr BMU_CFG v m else wr BMU_CFG v (dlFlush (ulFlush m))

/-- BMU_CFG_WRITE. -/
def bmuCfgWrite (v0 : W) (m : Mach) : Mach :=
  let v := v0 &&& 0xFF7#32
  if bmuCfgOk v m then
    mirror 2 (.bmuCfg v) (if timingOn m then setStage BMU_CFG (some v) m else applyBmuCfg v m)
  else setEv BMU_EVENTS.mesh_err m
def execBmuCfgWrite (v : W) (s : State) : Host.Outcome State Fault Refusal := answer s (gate BMU_CFG (bmuCfgWrite v) s.m)

/-! ### The slot boundary (R166, R168) -/

/-- R168: of the formed beams of a bank, the one shed next: the lowest priority, then the higher b. -/
def shedNext (t : Tab (Option BeamW)) : Option Nat :=
  (t.foldl (fun (o : Option (Nat × Nat)) e => match e.2 with
    | none => o
    | some w =>
      if !w.formed || w.shed then o else
      match o with
      | none => some (w.desc.prio, e.1)
      | some (p, _) => if w.desc.prio ≤ p then some (w.desc.prio, e.1) else o) none).map Prod.snd

/-- `n` beams of a bank are shed. -/
def shedN : Nat → Tab (Option BeamW) → Tab (Option BeamW)
  | 0, t => t
  | n + 1, t => match shedNext t with
    | none => t
    | some b => shedN n (t.map fun e => if e.1 = b then (e.1, e.2.map fun w => { w with shed := true }) else e)

/-- R50, R195: acquisition beams are shed from the highest a downward: `n` of the grid's points stay. -/
def shedAcq (n : Nat) (t : Tab (Option BeamW)) : Tab (Option BeamW) :=
  t.map fun e => if n ≤ e.1 then (e.1, e.2.map fun w => { w with shed := true }) else e

/-- Every column swaps banks; the ladder's shedding applies; the registers follow (R166, R168). The running slot is already
the new one. The uplink beams formed are noted for the ladder where the slot forms traffic beams. -/
def meshSwap (m : Mach) : Mach :=
  let acq := acqSlot m
  let m1 := dropUnfed (setMesh (fun x => { x with
    actUl := shedN m.lad.shedUl x.shUl, actDl := shedN m.lad.shedDl x.shDl,
    actAcq := if acq then shedAcq (64 - m.lad.acqShed) x.shAcq else [],
    shUl := [], shDl := [], shAcq := [],
    scheds := x.scheds.filter fun s => !slotBefore (schedKey s) (m.frameNo, m.slot),
    looked := x.looked.filter fun l => !slotBefore (l.frame, l.slot) (m.frameNo, m.slot) }) m)
  let cfg := rd BMU_CFG m1
  let n := m1.mesh.actUl.countP fun e => (e.2.map BeamW.formed).getD false
  let m2 := if acq then m1 else { m1 with lad := { m1.lad with formedUl := n } }
  showBeams (fset BMU_STATUS.fold_ul (foldUl cfg) (fset BMU_STATUS.fold_dl (foldDl cfg) m2))

/-- BMU_WRD_I and BMU_WRD_Q: the selected weight of the active bank, after the mask. -/
def wrdSel (m : Mach) : Int × Int :=
  let n := fget BMU_WRD_SEL.path m
  let b := fget BMU_WRD_SEL.slot m
  let w := if fget BMU_WRD_SEL.mesh m = 1 then (dlBank b m).map fun w => dlWeight w n m
    else (if acqSlot m then tabGet (fun _ => none) m.mesh.actAcq b else ulBank b m).map fun w => ulWeight w n m
  w.getD (0, 0)

end Sys2Proof.Machine
end

