-- ==== Sys2Proof/Machine/Acquire.lean ====
section
/-! DEFINITION. The acquisition engine (spec/06, R190 to R204, R207): windows, correlation, peak search, detections and the
slot report. -/

namespace Sys2Proof.Machine

/-! ### The slot's settings (R190 to R194) -/

/-- The symbols N, the lags of a zone, the samples of a symbol. -/
def acqN (m : Mach) : Nat := fget ACQ_CFG.n m
def acqNcs (m : Mach) : Nat := fget ACQ_CFG.ncs m
def acqSps (m : Mach) : Nat := 2 ^ fget ACQ_CFG.sps_log m

/-- `n` is prime (of at most ten bits). -/
def isPrime (n : Nat) : Bool := decide (2 ≤ n) && ((List.range 32).drop 2).all fun d => decide (n ≤ d ∨ n % d ≠ 0)

/-- R190, R193: the family is valid; N is an odd prime. -/
def acqOk (m : Mach) : Bool :=
  isPrime (acqN m) && decide (3 ≤ acqN m ∧ 1 ≤ acqNcs m ∧ acqNcs m ≤ acqN m) && fget ACQ_CFG.nroot m != 0

/-- R190: the roots in force. -/
def acqRoots (m : Mach) : List Nat := (List.range (min 64 (fget ACQ_CFG.nroot m))).map fun r => fget (ACQ_ROOT.root r) m

/-- R13, R192: a mesh sample's period in ticks. -/
def meshPer (m : Mach) : Rat := (2 ^ fget BMU_CFG.ul_stages m * 16 : Nat) / (adcPer16 m : Nat)

/-- R140: the group delay of a response at a stage, in the stage's input samples. -/
def respDelay (r : Nat) : Nat := (respTaps r - 1) / 2

/-- R140: the group delay of a receive chain in ADC samples. -/
def chainDelay (n : Nat) (m : Mach) : Nat :=
  ((List.range (nstages (.ddc (toPath n)) m)).map fun i =>
    respDelay (fget (QUAD_DDC_RESP.resp (.ddc (toPath n)) (i + 1)) m) * 2 ^ i).sum

/-- The group delay of the uplink chains in force: the largest of the included paths', in ADC samples (DESIGN CHOICE,
assumption 32). -/
def ulDelay (m : Mach) : Nat := ((ulPaths m).map fun n => chainDelay n m).foldl max 0

/-- Symbols from the slot boundary to the start of window `w` (R194). -/
def winStart (w : Nat) (m : Mach) : Nat := fget ACQ_WIN.win_off m + w * fget ACQ_WIN.win_pitch m

/-- The length of the running slot in ticks. -/
def slotLen (m : Mach) : Nat := (nextSlot m).2 - m.slotStart

/-- R194: window `w` ends in the slot. -/
def winFits (w : Nat) (m : Mach) : Bool :=
  decide (((winStart w m + acqN m) * acqSps m : Nat) * meshPer m ≤ (slotLen m : Rat))

/-- R194: the windows asked for, and those processed. -/
def winAsked (m : Mach) : List Nat := List.range (fget ACQ_WIN.nwin_m1 m + 1)
def winsOf (m : Mach) : List Nat := (winAsked m).filter fun w => winFits w m

/-! ### Samples (R192, R194, R197) -/

/-- The index, among the beam samples formed from the slot boundary on, of the one nearest in air time to that boundary: R194 names
the sample whose formation instant less the group delay is the symbol's instant (DESIGN CHOICE, assumption 32). -/
def symBase (m : Mach) : Int :=
  let off : Rat := (m.slotStart - m.frameStart : Nat) / meshPer m
  let first : Rat := (Rat.ceil off : Int)
  Rat.floor (off - first + (ulDelay m : Rat) / (2 ^ fget BMU_CFG.ul_stages m : Nat) + 1 / 2)

/-- The index of the sample that a job uses for the symbol `x` symbols after the boundary. -/
def symIndex (x : Nat) (j : AcqJob) : Int := (x * j.sps : Nat) + j.base

/-- The samples of the window that starts at symbol `x`, on beam `a`; one that was not formed stands as GAP. -/
def winSamples (x a : Nat) (j : AcqJob) : List Sample :=
  let l := tabGet (fun _ => []) j.ss a
  (List.range j.n).map fun k =>
    let i := symIndex (x + k) j
    if i < 0 then gapSample else l.getD i.toNat gapSample

/-- The acquisition beams of the slot: those formed, those that lost their column in it (R188), neither shed; a beam that no column
forms has no weights at all (R189, R195). -/
def acqBeams (m : Mach) : List Nat :=
  m.mesh.actAcq.filterMap fun e => match e.2 with
    | some x => if !x.shed && (x.formed || x.late) then some e.1 else none
    | none => none
def acqShedBeams (m : Mach) : List Nat :=
  m.mesh.actAcq.filterMap fun e => match e.2 with
    | some x => if x.shed then some e.1 else none
    | none => none

/-- R197: a window that holds a GAP sample is not searched on that beam. -/
def winGap (l : List Sample) : Bool := l.any fun s => s.st == .gap

/-! ### The correlation (R190, R196) -/

/-- R190: z_u(k) = e^(−jπ u k (k + 1) / N) in fixed point. -/
def zcSym (n u k : Nat) : Int × Int := fxCosSin (fxOf (-(u * k * (k + 1) : Nat)) (2 * n))

/-- R196: the sum of y(k) × conj(z_u((k − l) mod n)) over the symbols for which `sel` holds, in 2^−60; `z` is the sequence. -/
def corrSum (sel : Nat → Bool) (y : List Sample) (z : List (Int × Int)) (l : Nat) : Int × Int :=
  let n := z.length
  let w := z.drop (n - l % n) ++ z.take (n - l % n)
  (((y.zip w).zipIdx.filter fun p => sel p.2).map Prod.fst).foldl
    (fun s p => (s.1 + p.1.i * p.2.1 + p.1.q * p.2.2, s.2 + p.1.q * p.2.1 - p.1.i * p.2.2)) (0, 0)

/-- R196: the correlation power, scaled to a 32-bit magnitude (DESIGN CHOICE, assumption 31: the scale is a free power of two, the
power rounded down, a greater one the greatest). -/
def corrPow (y : List Sample) (z : List (Int × Int)) (l : Nat) : Nat :=
  let s := corrSum (fun _ => true) y z l
  min (2 ^ 32 - 1) ((s.1 * s.1 + s.2 * s.2).toNat / 2 ^ (120 + Config.corrShift))

/-! ### The search (R198, R199) -/

/-- A power at least thr times the mean of `c` powers that sum to `t`: (p c)^40 against 10^thr t^40. -/
def overThr (thr p t c : Nat) : Bool := decide (10 ^ thr * t ^ 40 ≤ (p * c) ^ 40)

/-- A searched profile: the beam, its powers, the noise sum and count behind n1, and its samples. -/
structure Prof where
  a : Nat
  p : List Nat
  nsum : Nat
  ncnt : Nat
  ss : List Sample
  deriving DecidableEq, Repr

/-- R196, R198: the powers of window samples `ss` on beam `a` against the sequence `z`, and n1's lags: those neither candidates nor
next to one. -/
def profOf (a : Nat) (z : List (Int × Int)) (ss : List Sample) (j : AcqJob) : Prof :=
  let n := j.n
  let p := (List.range n).map fun l => corrPow ss z l
  let cand := fun l => overThr j.thr (p.getD (l % n) 0) p.sum n
  let rest := (List.range n).filter fun l => !cand l && !cand (l + 1) && !cand (l + n - 1)
  ⟨a, p, (rest.map fun l => p.getD l 0).sum, rest.length, ss⟩

/-- The largest power of zone `v` and the lowest lag that has it. -/
def zonePeak (v : Nat) (x : Prof) (j : AcqJob) : Nat × Nat :=
  ((List.range j.ncs).map (v * j.ncs + ·)).foldl
    (fun b l => if b.2 < x.p.getD l 0 then (l, x.p.getD l 0) else b) (v * j.ncs, x.p.getD (v * j.ncs) 0)

/-- R198: zone `v` holds a peak. -/
def zoneHas (v : Nat) (x : Prof) (j : AcqJob) : Bool :=
  decide (0 < x.ncnt) && overThr j.thr (zonePeak v x j).2 x.nsum x.ncnt

/-- The three-point formula of R199 on linear powers, clipped. -/
def clipHalf (x : Rat) : Rat := if 1 / 2 < x then 1 / 2 else if x < -(1 / 2) then -(1 / 2) else x
def linDelta (a b c : Nat) : Rat :=
  let d : Rat := 2 * ((a : Rat) - 2 * b + c)
  if d = 0 then 0 else clipHalf (((a : Rat) - c) / d)

/-- The same formula on powers in dB: its denominator is zero where b² = a c. With a power of 0, which has no dB, the value is
free (DESIGN CHOICE, assumption 31). -/
def logDelta (a b c : Nat) : Rat :=
  if a = 0 ∨ b = 0 ∨ c = 0 then clipHalf (Config.dbDelta a b c)
  else if b * b = a * c then 0
  else
    let d := 2 * fxLog2 (a * c) (b * b)
    if d = 0 then 0 else clipHalf ((fxLog2 a c : Rat) / d)

/-- A rational rounded to nearest. -/
def roundRat (x : Rat) : Int := roundDiv x.num x.den

/-- R199: the SNR code from the peak power, the sum and the number of the noise lags, and N, to the nearest step (DESIGN CHOICE,
assumption 31: R199 names no rounding; the value is free where a logarithm of 0 would be taken). -/
def snrCode (pw t c n : Nat) : Int :=
  if t = 0 ∨ pw * c ≤ t then Config.snrFree pw t c n else roundDiv (4 * (fxDb (pw * c - t) t - fxDb n 1)) (2 ^ 60)

/-- R199: one axis of the direction: `lo` and `hi` are the neighbours' profiles. None: not interpolated. The neighbours' powers
are those at the peak's lag (DEDUCED, assumption 33). -/
def axis (val : Nat → Int) (lag : Nat) (x : Prof) (lo hi : Option Prof) : Option Int :=
  match lo, hi with
  | some l, some h =>
    let d := logDelta (l.p.getD lag 0) (x.p.getD lag 0) (h.p.getD lag 0)
    some (roundRat (if 0 ≤ d then val x.a + d * (val h.a - val x.a) else val x.a + d * (val x.a - val l.a)))
  | _, _ => none

/-- R192: a job's symbol period in ticks, and the symbol rate in Hz. -/
def symPer (j : AcqJob) : Rat := (j.perNum * j.sps : Nat) / (j.perDen : Nat)
def symRate (j : AcqJob) : Rat := 245760000 / symPer j

/-- R199: the frequency offset in 0.1 Hz, to the nearest step (DESIGN CHOICE, assumption 31: R199 names no rounding; where a partial
sum is zero the value is free): the angle of the second partial sum times the conjugate of the first, over (N + 1)/2 symbol
periods. -/
def freqOff (x : Prof) (z : List (Int × Int)) (lag : Nat) (j : AcqJob) : Int :=
  let a := corrSum (fun k => decide (2 * k < j.n - 1)) x.ss z lag
  let b := corrSum (fun k => decide (j.n + 1 ≤ 2 * k)) x.ss z lag
  let re := b.1 * a.1 + b.2 * a.2
  let im := b.2 * a.1 - b.1 * a.2
  if re = 0 ∧ im = 0 then Config.freqFree (x.ss.map fun s => (s.i, s.q)) lag
  else
    let t := fxArg re im
    let turns : Rat := (if fxOne < 2 * t then t - fxOne else t : Int) / (2 ^ 60 : Nat)
    roundRat (10 * turns * symRate j * 2 / (j.n + 1 : Nat))

/-- R199: the detection of (w, r, v), from the profiles of its window and root; the window starts at symbol `ws`, `z` is the root's
sequence. The start of a window, where it falls within a tick, is given as the tick before it, and a t_off beyond 24 bits wraps
(DESIGN CHOICE, assumption 89). -/
def makeDet (w ws r v : Nat) (z : List (Int × Int)) (ps : List Prof) (j : AcqJob) : Option Det :=
  let holds := ps.filter fun x => zoneHas v x j
  match holds with
  | [] => none
  | x0 :: l =>
    let x := l.foldl (fun b y => if (zonePeak v b j).2 < (zonePeak v y j).2 then y else b) x0
    let n := j.n
    let lag := (zonePeak v x j).1
    let pw := (zonePeak v x j).2
    let dt := linDelta (x.p.getD ((lag + n - 1) % n) 0) pw (x.p.getD ((lag + 1) % n) 0)
    let gn := j.grid.length
    let az := fun a => (j.grid.getD a (0, 0)).1
    let el := fun a => (j.grid.getD a (0, 0)).2
    let nb := fun (ok : Bool) (a : Nat) => if ok then ps.find? fun y => y.a == a else none
    let azV := axis az lag x (nb (decide (0 < x.a % j.cols)) (x.a - 1))
      (nb (decide (x.a % j.cols + 1 < j.cols ∧ x.a + 1 < gn)) (x.a + 1))
    let elV := axis el lag x (nb (decide (j.cols ≤ x.a)) (x.a - j.cols)) (nb (decide (x.a + j.cols < gn)) (x.a + j.cols))
    let fo := freqOff x z lag j
    let bit := fun (b : Bool) (k : Nat) => if b then 2 ^ k else 0
    some { id := 0, tRef := j.slotTick + (Rat.floor (ws * symPer j)).toNat,
           tOff := sext 24 (toBits 24 (roundRat ((((lag : Int) - (v * j.ncs : Nat) : Int) + dt) * symPer j * 16))),
           w := w, r := r, v := v, a := x.a,
           snr := max (-128) (min 127 (snrCode pw x.nsum x.ncnt n)),
           az := azV.getD (az x.a), el := elV.getD (el x.a), fOff := fo, nbeams := holds.length,
           dflags := bit azV.isNone 0 + bit elV.isNone 1 + bit (x.ss.any fun s => s.st == .settling) 2 +
             bit (x.ss.any fun s => s.st == .coast) 3 + bit (x.ss.any fun s => s.ovr) 4 +
             bit (decide (symRate j / (2 * n : Nat) < (fo.natAbs : Rat) / 10)) 5 }

/-- The detections of one window. -/
def winDets (x : Nat × Nat) (j : AcqJob) : List Det :=
  let good := (j.formed.map fun a => (a, winSamples x.2 a j)).filter fun p => !winGap p.2
  (List.range j.roots.length).flatMap fun r =>
    let z := (List.range j.n).map (zcSym j.n (j.roots.getD r 0))
    let ps := good.map fun p => profOf p.1 z p.2 j
    (List.range (j.n / j.ncs)).filterMap fun v => makeDet x.1 x.2 r v z ps j

/-- R201: detection `d` is dropped before `e`. -/
def dropsFirst (d e : Det) : Bool :=
  decide (d.snr < e.snr) || (d.snr == e.snr && decide (e.w < d.w ∨ (e.w = d.w ∧ (e.r < d.r ∨ (e.r = d.r ∧ e.v < d.v)))))

/-- R201: at most `k` detections stay. -/
def keepDets (k : Nat) (l : List Det) : List Det :=
  l.filter fun d => decide ((l.countP fun e => dropsFirst d e) < k)

/-- R203: the order of the records. -/
def detBefore (d e : Det) : Bool :=
  decide (d.w < e.w ∨ (d.w = e.w ∧ (e.snr < d.snr ∨ (d.snr = e.snr ∧ (d.r < e.r ∨ (d.r = e.r ∧ d.v ≤ e.v))))))
def insDet (d : Det) : List Det → List Det
  | [] => [d]
  | e :: l => if detBefore d e then d :: e :: l else e :: insDet d l
def sortDets (l : List Det) : List Det := l.foldr insDet []

/-! ### The report (R202, R203, R207) -/

/-- The mask of a list of beams. -/
def beamMask (l : List Nat) : Nat := (l.map fun a => 2 ^ a).sum

/-- R204: det_ids are numbered from the next one on, in the order of the report's records (DESIGN CHOICE, assumption 89). -/
def numberDets (k : Nat) : List Det → List Det
  | [] => []
  | d :: l => { d with id := k } :: numberDets ((k + 1) % 2 ^ 32) l

/-- The samples a job needs of each beam. -/
def jobNeed (j : AcqJob) : Nat := (j.wins.map fun x => (symIndex (x.2 + j.n - 1) j + 1).toNat).foldl max 0

/-- R194: a job has every sample it can get: the slot after it is no acquisition slot, so its beams form no more (R166), or enough
have come. -/
def jobReady (j : AcqJob) (m : Mach) : Bool :=
  !acqSlot m || j.formed.all fun a => decide (jobNeed j ≤ (tabGet (fun _ => []) j.ss a).length)

/-- R198 to R203, R325: the report of a job, its detections not numbered yet. -/
def jobReport (j : AcqJob) : SlotRep :=
  let all := if j.lost then [] else j.wins.flatMap fun x => winDets x j
  let ds := sortDets (keepDets j.lim all)
  let gap := j.formed.filter fun a => j.lost || j.wins.any fun x => winGap (winSamples x.2 a j)
  { slotTick := j.slotTick, frame := j.frame, slot := j.slot, dets := ds, dropped := all.length - j.lim,
    flags := j.flags + (if j.lim < all.length then 1 else 0), nwin := j.wins.length, formed := beamMask j.formed,
    shed := beamMask j.shed, gap := beamMask gap }

/-- The report is sent and written to the history; past its bound report_late is set. -/
def endJob (j : AcqJob) (m : Mach) : Mach :=
  let r := jobReport j
  let ds := numberDets m.acq.nextId r.dets
  let late := match j.due with
    | some t => decide (t < tick m)
    | none => false
  let m1 := { m with acq := { m.acq with job := none, hist := (ds.reverse ++ m.acq.hist).take 16384,
                                         nextId := (m.acq.nextId + ds.length) % 2 ^ 32 } }
  let m2 := wr ACQ_DET_TOTAL (rd ACQ_DET_TOTAL m1 + BitVec.ofNat 32 ds.length)
    (fset ACQ_STATUS.busy 0 (fset ACQ_STATUS.ndet ds.length m1))
  sendNat 0 (.slotReport { r with dets := ds, flags := r.flags + (if late then 4 else 0) })
    (setEvIf late ACQ_EVENTS.report_late (setEvIf (decide (r.flags % 2 = 1)) ACQ_EVENTS.det_ovf m2))

/-- SLOT_REPORT: the search of the slot processed last is over. While management stands no report is sent
(R446, R492). -/
def slotReport (m : Mach) : Mach :=
  match m.acq.job with
  | none => m
  | some j => if jobReady j m && !mgmtHeld m then endJob j m else m
def execSlotReport (s : State) : Host.Outcome State Fault Refusal := answer s (slotReport s.m)

/-- R202: the engine runs in the slot. -/
def acqRuns (m : Mach) : Bool := timingOn m && isActive m && acqSlot m && fon ACQ_CFG.acq_en m && m.acq.done != some m.slotStart

/-- The job of the slot that ends, from the settings in force during it (R193). -/
def newJob (m : Mach) : AcqJob :=
  let ok := acqOk m
  let ws := if ok then winsOf m else []
  let trunc := ok && decide (ws.length < (winAsked m).length)
  let gn := min 64 (fget ACQ_GRID_CFG.grid_n m)
  { slotTick := m.slotStart, frame := m.frameNo, slot := m.slot, flags := (if trunc then 2 else 0) + (if ok then 0 else 8),
    wins := ws.map fun w => (w, winStart w m), base := symBase m, n := acqN m, ncs := acqNcs m, sps := acqSps m,
    perNum := 2 ^ fget BMU_CFG.ul_stages m * 16, perDen := adcPer16 m, roots := acqRoots m, thr := fget ACQ_THR.thr m,
    lim := if fget ACQ_THR.det_max m = 0 then 1024 else fget ACQ_THR.det_max m, cols := clampN 1 64 (fget ACQ_GRID_CFG.grid_cols m),
    grid := (List.range gn).map fun a => (sext 12 (fget (ACQ_GRID.az_code a) m), sext 12 (fget (ACQ_GRID.el_code a) m)),
    formed := acqBeams m, shed := acqShedBeams m,
    due := ws.getLast?.map fun w =>
      m.slotStart + (Rat.floor ((((winStart w m + acqN m - 1) * acqSps m : Nat) * meshPer m) +
        ((ulDelay m * 16 : Nat) : Rat) / (adcPer16 m : Nat))).toNat + 24576,
    ss := m.mesh.acqIn, lost := false }

/-- ACQ_SLOT_END: a report still open is closed; the settings in force are checked (R193) and the slot's windows are taken. -/
def acqEnd (m : Mach) : Mach :=
  if acqRuns m then
    let m0 := match m.acq.job with
      | some j => endJob j m
      | none => m
    let j := newJob m0
    let m1 := { m0 with acq := { m0.acq with job := some j, done := some m0.slotStart } }
    fset ACQ_STATUS.formed j.formed.length (fset ACQ_STATUS.busy 1
      (setEvIf (decide (2 ≤ j.flags % 4)) ACQ_EVENTS.win_trunc (setEvIf (decide (8 ≤ j.flags)) ACQ_EVENTS.cfg_err m1)))
  else m

/-- The event comes at the slot's end. -/
def acqSlotEnd (m : Mach) : Mach := if acqRuns m then acqEnd (advanceTo (nextSlot m).2 m) else m
def execAcqSlotEnd (s : State) : Host.Outcome State Fault Refusal := answer s (acqSlotEnd s.m)

end Sys2Proof.Machine
end

