-- ==== Sys2Proof/Machine/Transmit.lean ====
section
/-! DEFINITION. Output power control (spec/07, R224 to R229): the transmit registers, the compensation curves, and the driver
and digital gain that apply at every slot boundary. -/

namespace Sys2Proof.Machine

/-! ### Decibels as exact numbers -/

/-- The greatest number below 2^bits for which `p` holds, `p` being monotone and true of 0. -/
def greatest (p : Nat → Bool) : Nat → Nat → Nat
  | 0, s => s
  | b + 1, s => greatest p b (if p (s + 2 ^ b) then s + 2 ^ b else s)

/-- round(k × 10^(−d / 20000)): the greatest s with (2 s − 1)^20000 × 10^d ≤ (2 k)^20000 (exactly; no value lies half way). -/
def attenRound (k : Nat) (d : Int) : Nat :=
  greatest (fun s => decide ((2 * s - 1) ^ 20000 * 10 ^ d.toNat ≤ (2 * k) ^ 20000 * 10 ^ (-d).toNat)) 18 0

/-! ### Compensation (R227) -/

/-- A curve at place `x`, in steps from its first point: linear between its 32 points, the end point outside. -/
def curveAt (pt : Nat → Nat) (x : Rat) : Rat :=
  if x ≤ 0 then (pt 0 : Nat)
  else if 31 ≤ x then (pt 31 : Nat)
  else
    let i := (Rat.floor x).toNat
    (pt i : Nat) + (x - (i : Nat)) * ((pt (i + 1) : Nat) - (pt i : Nat))

/-- The point lies outside the curve's range. -/
def curveOut (x : Rat) : Bool := decide (x < 0 ∨ 31 < x)

/-- The mean of quadrant `q`'s eight RF-die sensors, as eight times a value in 0.25 °C. -/
def quadTemp8 (q : Nat) (m : Mach) : Int := ((List.range 8).map fun k => sext 10 (fget (MON_TEMP.value (8 * q + k)) m)).sum

/-- T and V as places on their curves: 5 °C from −40 °C; 0.2 % of 1.50 V from −3.1 %. The converter sees half the rail, 4096
codes to the volt. -/
def tempPlace (q : Nat) (m : Mach) : Rat := ((quadTemp8 q m : Rat) / 32 + 40) / 5
def railPlace (q : Nat) (m : Mach) : Rat :=
  let v : Rat := 2 * (fget (MON_SYS.mean q 1) m : Nat) / 4096
  ((v / (3 / 2) - 1) * 100 + 31 / 10) / (1 / 5)

/-- R227: comp, and whether a curve was left. -/
def compOf (q : Nat) (m : Mach) : Nat × Bool :=
  let t := tempPlace q m
  let v := railPlace q m
  let x := curveAt (fun i => wfld (rd (QUAD_TX_TCURVE q i) m) 0 16) t + curveAt (fun i => wfld (rd (QUAD_TX_VCURVE q i) m) 0 16) v
  ((roundDiv x.num x.den).toNat, curveOut t || curveOut v)

/-! ### The slot boundary (R226, R227, R229) -/

/-- R229: the published backoff is in force from the boundary. -/
def applyLehr (q : Nat) (m : Mach) : Mach := fset (QUAD_TX_LEHR.lehr_att q) (fget MON_THERM_STATUS.lehr_att m) m

/-- The drive attenuation a of path `n` in 0.001 dB (R259). -/
def driveAtt (n : Nat) (m : Mach) : Nat :=
  10 * fget (QUAD_TX_ATT.tx_att n) m + 10 * fget (QUAD_TX_LEHR.lehr_att (n / 16)) m

/-- R226: the driver and the digital gain of path `n`. -/
def applyGain (n : Nat) (m : Mach) : Mach :=
  let total := driveAtt n m + fget (QUAD_TX_COMP.comp (n / 16)) m
  let drv := min 80 (total / 250)
  fset (QUAD_TX_GAIN.drv_att n) drv (fset (QUAD_TX_GAIN.dig_gain n) (attenRound 32768 (total - 250 * drv : Nat)) m)

/-- Power control of quadrant `q` at a slot boundary: only while it is not POWERED_DOWN. -/
def powerSlot (q : Nat) (m : Mach) : Mach :=
  let m0 := applyLehr q m
  if quadState q m0 = 0 then m0
  else
    let r := compOf q m0
    each (pathsOf q) applyGain (setEvIf r.2 (QUAD_FES_EVENTS.comp_clip q)
      (fset (QUAD_TX_COMP.comp q) r.1 (fset (QUAD_TX_COMP.t_in q) (toBits 10 (Int.fdiv (quadTemp8 q m0) 8)) m0)))

/-! ### Registers (R224, R226) -/

/-- R224: a staged QUAD_TX_CFG applies where the quadrant is not RUNNING or sends nothing in the slot that begins; where the
frame table gives it no such slot, at a frame boundary, with ifs_in_tx. -/
def applyTxCfg (frame : Bool) (n : Nat) (m : Mach) : Mach :=
  let q := n / 16
  match staged (QUAD_TX_CFG n) m with
  | none => m
  | some v =>
    let put := fun s => wr (QUAD_TX_CFG n) v (setStage (QUAD_TX_CFG n) none s)
    if quadState q m != 2 || !slotTx (curSlot m) q then put m
    else if frame && m.ftab.slots.all fun s => slotTx s q then setEv (QUAD_TX_EVENTS.ifs_in_tx n) (put m)
    else m

/-- TX_CFG_WRITE: ifs of 25 to 31 is not applied. -/
def txCfgWrite (n : Nat) (v0 : W) (m : Mach) : Mach :=
  let v := v0 &&& 0x3F#32
  if 24 < wfld v 1 5 then setEv (QUAD_TX_EVENTS.tx_err n) m
  else mirror 2 (.txCfg (toPath n) v) (if quadStopped (n / 16) m then wr (QUAD_TX_CFG n) v m else setStage (QUAD_TX_CFG n) (some v) m)
def execTxCfgWrite (n : Fin 64) (v : W) (s : State) : Host.Outcome State Fault Refusal :=
  answer s (gate (QUAD_TX_CFG n) (txCfgWrite n v) s.m)

/-- TX_ATT_WRITE: a value above 6000 is not applied. -/
def txAttWrite (n : Nat) (v0 : W) (m : Mach) : Mach :=
  let v := v0 &&& 0x1FFF#32
  if 6000 < v.toNat then setEv (QUAD_TX_EVENTS.tx_err n) m
  else mirror 2 (.txAtt (toPath n) v) (if quadStopped (n / 16) m then wr (QUAD_TX_ATT n) v m else setStage (QUAD_TX_ATT n) (some v) m)
def execTxAttWrite (n : Fin 64) (v : W) (s : State) : Host.Outcome State Fault Refusal :=
  answer s (gate (QUAD_TX_ATT n) (txAttWrite n v) s.m)

/-- A register's staged value applies as it stands. -/
def takePlain (a : Nat) (m : Mach) : Mach :=
  match staged a m with
  | some v => wr a v (setStage a none m)
  | none => m

end Sys2Proof.Machine
end

