-- ==== Sys2Proof/Machine/Predist.lean ====
section
/-! DEFINITION. The predistortion service (spec/08, R255 to R269): writing banks, swaps, following the drive, adaptation, and
the engines' spares. -/

namespace Sys2Proof.Machine

/-! ### Banks (R255, R256) -/

def pdIdle (n : Nat) (m : Mach) : Nat := 1 - pdBank n m

/-- Words `lo` to `lo + k − 1` of a bank. -/
def bankWords (n b lo k : Nat) (m : Mach) : List W := (List.range k).map fun i => lutW n b (lo + i) m

/-- The CRC of a bank's words 0 to 2178. -/
def bankCrc (n b : Nat) (m : Mach) : W := crc32 ((bankWords n b 0 2179 m).flatMap fun v => leBytes 4 v.toNat)

/-- QUAD_PD_STATUS.inactive_ok follows the inactive bank. -/
def refreshIdle (n : Nat) (m : Mach) : Mach :=
  fsetB (QUAD_PD_STATUS.inactive_ok n) (bankCrc n (pdIdle n m) m == lutW n (pdIdle n m) 2179 m) m

/-- R460: the PRIMARY's STANDBY gets the inactive bank. -/
def mirrorBank (n : Nat) (m : Mach) : Mach :=
  if role m = 1 then mirror 5 (.pdBank (toPath n) (bankWords n (pdIdle n m) 0 2180 m)) m else m

/-- A whole bank is written into the inactive bank, with its CRC. -/
def writeIdle (n : Nat) (ws : List W) (m : Mach) : Mach :=
  let b := pdIdle n m
  let m1 := each (ws.take 2179).zipIdx (fun p s => setLut n b p.2 p.1 s) m
  refreshIdle n (setLut n b 2179 (bankCrc n b m1) m1)

/-- The user requested a swap for path `n`, or the adaptation did. -/
def userSwap (n : Nat) (m : Mach) : Bool :=
  match staged (QUAD_PD_SWAP (n / 16)) m with
  | some v => v.getLsbD (n % 16)
  | none => (rd (QUAD_PD_SWAP (n / 16)) m).getLsbD (n % 16)
def swapPending (n : Nat) (m : Mach) : Bool := userSwap n m || (getPd n m).adaptSwap

/-- R265: the STANDBY is told of a swap of path `n` at a tick, or that it is withdrawn. -/
def tellSwap (n : Nat) (t : Option Nat) (m : Mach) : Mach :=
  mirror 5 (.pdSwap (toPath n) (t.map (BitVec.ofNat 64))) (setPd n { getPd n m with told := t } m)

/-- QUAD_PD_STATUS.swap_pending, and what the STANDBY is told: a request that will be carried out at the next slot boundary as things
stand (R257, R258), with its tick; or that it is withdrawn. -/
def refreshSwap (n : Nat) (m : Mach) : Mach :=
  let go := (getPd n m).adaptSwap || (userSwap n m && !(upcoming (QUAD_PD_CTRL n) m).getLsbD 2)
  let m1 := fsetB (QUAD_PD_STATUS.swap_pending n) (swapPending n m) m
  if go && (getPd n m).told.isNone && timingOn m then tellSwap n (some (nextSlot m).2) m1
  else if !go && (getPd n m).told.isSome then tellSwap n none m1
  else m1

/-- The word index advances on each access. -/
def bumpIdx (n : Nat) (m : Mach) : Mach := fset (QUAD_PD_LUT_ADDR.idx n) (fget (QUAD_PD_LUT_ADDR.idx n) m + 1) m

/-- PD_LUT_DATA_WRITE: refused where it would reach the active bank (bank_rd selects it; DEDUCED, assumption 35), with
adaptation on, with a swap pending, or beyond word 2179. -/
def lutWrite (n : Nat) (v : W) (m : Mach) : Mach :=
  let i := fget (QUAD_PD_LUT_ADDR.idx n) m
  let m1 := bumpIdx n m
  if fon (QUAD_PD_LUT_ADDR.bank_rd n) m || fon (QUAD_PD_CTRL.adapt_en n) m || swapPending n m || decide (2179 < i) then
    setEv (QUAD_PD_EVENTS.pd_err n) m1
  else mirrorBank n (refreshIdle n (setLut n (pdIdle n m) i v m1))
def execPdLutDataWrite (n : Fin 64) (v : W) (s : State) : Host.Outcome State Fault Refusal :=
  answer s (gate (QUAD_PD_LUT_DATA n) (lutWrite n v) s.m)

/-- PD_LUT_DATA_READ: a word of the bank that bank_rd selects; beyond word 2179 the value is free (assumption 34). -/
def lutRead (n : Nat) (m : Mach) : W × Mach :=
  let i := fget (QUAD_PD_LUT_ADDR.idx n) m
  let b := if fon (QUAD_PD_LUT_ADDR.bank_rd n) m then pdBank n m else pdIdle n m
  if 2179 < i then (Config.freeWord m.free, bumpIdx n (nextFree m)) else (lutW n b i m, bumpIdx n m)
def execPdLutDataRead (n : Fin 64) (s : State) : Host.Outcome State Fault Refusal :=
  answer s (returnWord (gateRead (QUAD_PD_LUT_DATA n) (lutRead n) s.m))

/-! ### The swap (R257, R258) -/

/-- The squared magnitude of a table entry. -/
def entMag2 (v : W) : Nat := let e := lutEntry v; (e.1 * e.1 + e.2 * e.2).toNat

/-- R257 checks 1 and 2. -/
def bankCrcOk (n b : Nat) (m : Mach) : Bool := bankCrc n b m == lutW n b 2179 m
def bankFmtOk (n b : Nat) (m : Mach) : Bool :=
  let w := lutW n b 2176 m
  let d := (List.range 7).map fun i => wfld w (4 * i) 4
  d.all (fun x => decide (1 ≤ x)) && (List.range 6).all (fun i => decide (d.getD i 0 < d.getD (i + 1) 0)) &&
    wfld w 28 4 == 0 && wfld (lutW n b 2177 m) 8 24 == 0

/-- The squared magnitude `x` is at most `g` × 0.01 dB above `y`: x^1000 ≤ 10^g y^1000. -/
def withinDb (g x y : Nat) : Bool := let e := 1000; decide (x ^ e ≤ 10 ^ g * y ^ e)

/-- R257 checks 3 to 6. -/
def bankLimOk (n b : Nat) (m : Mach) : Bool :=
  let q := n / 16
  let e := fget (QUAD_PD_LIMITS.exp_max q) m
  let mm := fget (QUAD_PD_LIMITS.mem_max q) m
  let c := fget (QUAD_PD_LIMITS.cpl_max q) m
  let g := fget (QUAD_PD_LIMITS.gain_step q) m
  let new := entMag2 (lutW n b 0 m)
  let old := entMag2 (lutW n (1 - b) 0 m)
  (bankWords n b 0 256 m).all (fun v => decide (entMag2 v * 32 ^ 2 ≤ (2 ^ 14 * (32 + e)) ^ 2)) &&
    (bankWords n b 256 1792 m).all (fun v => decide (entMag2 v * 64 ^ 2 ≤ (2 ^ 14 * mm) ^ 2)) &&
    (bankWords n b 2048 128 m).all (fun v => decide (entMag2 v * 128 ^ 2 ≤ (2 ^ 14 * c) ^ 2)) &&
    withinDb g new old && withinDb g old new

/-- R257: the event of the first check that fails, if one does. -/
def swapFails (n : Nat) (m : Mach) : Option Fld :=
  let b := pdIdle n m
  if !bankCrcOk n b m then some (QUAD_PD_EVENTS.pd_crc n)
  else if !bankFmtOk n b m then some (QUAD_PD_EVENTS.pd_fmt n)
  else if fon (QUAD_PD_LIMITS.lim_en (n / 16)) m && !bankLimOk n b m then some (QUAD_PD_EVENTS.pd_limit n)
  else none

/-- The inactive bank becomes active. -/
def doSwap (n : Nat) (m : Mach) : Mach :=
  setEv (QUAD_PD_EVENTS.swapped n) (refreshIdle n (fset (QUAD_PD_STATUS.active_bank n) (pdIdle n m) m))

/-- R265: a swap has been made now: the STANDBY knows, or is told of it with this tick. -/
def swapTold (n : Nat) (m : Mach) : Mach :=
  let m1 := if (getPd n m).told = some (tick m) then m else tellSwap n (some (tick m)) (if (getPd n m).told.isSome then tellSwap n none m else m)
  setPd n { getPd n m1 with told := none } m1

/-- R264: adaptation of the path is suspended for 100 ms. -/
def holdPath (n : Nat) (m : Mach) : Mach := fset (QUAD_PD_STATUS.hold n) 1 (setPd n { getPd n m with fails := 0 } m)

/-- R257, R258, R264: path `n`'s requests at the boundary at which they apply. -/
def swapSlot (n : Nat) (user : Bool) (m : Mach) : Mach :=
  let x := getPd n m
  let bad := user && fon (QUAD_PD_CTRL.adapt_en n) m
  let m0 := setPd n { x with adaptSwap := false } (setEvIf bad (QUAD_PD_EVENTS.pd_err n) m)
  let m1 := if x.adaptSwap || (user && !bad) then
      match swapFails n m0 with
      | none => swapTold n <| doSwap n (if x.adaptSwap then setPd n { getPd n m0 with fails := 0 } m0 else m0)
      | some f =>
        let s := setEv f m0
        if x.adaptSwap then
          let t := setPd n { getPd n s with fails := x.fails + 1 } s
          if x.fails + 1 = 4 then holdPath n t else t
        else s
    else m0
  refreshSwap n m1

/-- QUAD_PD_SWAP applies: its requests are checked, and cleared. -/
def applySwapReg (q : Nat) (v : W) (m : Mach) : Mach :=
  each (pathsOf q) (fun n s => swapSlot n (v.getLsbD (n % 16)) s) (wr (QUAD_PD_SWAP q) 0#32 (setStage (QUAD_PD_SWAP q) none m))

/-- A write of QUAD_PD_SWAP: staged, or applied at once while the frame timing is stopped. -/
def swapRegWrite (q : Nat) (v : W) (m : Mach) : Mach :=
  let x := v &&& 0xFFFF#32
  if quadStopped q m then applySwapReg q x m else each (pathsOf q) refreshSwap (setStage (QUAD_PD_SWAP q) (some x) m)

/-- R265: the swap that the PRIMARY told of is made at its boundary. -/
def mirSwapDue (n : Nat) (m : Mach) : Mach :=
  match (getPd n m).mirSwap with
  | some t => if t ≤ tick m then doSwap n (setPd n { getPd n m with mirSwap := none } m) else m
  | none => m
/-- The STANDBY is told of a swap: it is made at the slot boundary of its tick, or at once if that has passed; or it is withdrawn. -/
def mirSwapIn (n : Nat) (t : Option Nat) (m : Mach) : Mach := mirSwapDue n (setPd n { getPd n m with mirSwap := t } m)

/-- The swaps of a quadrant at a slot boundary. -/
def swapBoundary (q : Nat) (m : Mach) : Mach :=
  each (pathsOf q) mirSwapDue (applySwapReg q ((staged (QUAD_PD_SWAP q) m).getD 0#32) m)

/-! ### Following the drive (R259) -/

/-- R259: the index scale of path `n`, from the active bank's a_train. -/
def applyScale (n : Nat) (m : Mach) : Mach :=
  let d : Int := (driveAtt n m : Int) - wfld (lutW n (pdBank n m) 2178 m) 0 17
  let c := max (-12000) (min 12000 d)
  setEvIf (decide (c ≠ d)) (QUAD_PD_EVENTS.idx_clip n) (fset (QUAD_PD_IDX_SCALE.s n) (attenRound 16384 c) m)

/-! ### Adaptation (R260 to R265) -/

def getPdCap (o : Nat) (m : Mach) : Option PdCap := tabGet (fun _ => none) m.pdCap o
def setPdCap (o : Nat) (c : Option PdCap) (m : Mach) : Mach := { m with pdCap := tabPut (fun _ => none) m.pdCap o c }

/-- Samples of a capture, and its length in ticks at the engine rate. -/
def capSamples (q : Nat) (m : Mach) : Nat := 2 ^ clampN 10 14 (fget (QUAD_PD_CAP_CFG.cap_len_log q) m)
def capTicks (q : Nat) (m : Mach) : Nat := (capSamples q m * 64 + adcPer16 m - 1) / adcPer16 m

/-- The bytes an adaptation capture holds of CAP (spec/11). -/
def pdCapBytes (q : Nat) (m : Mach) : Nat := 40 * capSamples q m

/-- A capture's bytes are given back. -/
def freePdCap (o : Nat) (m : Mach) : Mach :=
  match getPdCap o m with
  | some c => setUse 2 (partUse 2 m - c.bytes) (setPdCap o none m)
  | none => m

/-- Quadrant `q` sends a burst in the running slot (R244). -/
def burstNow (q : Nat) (m : Mach) : Bool :=
  timingOn m && isActive m && role m != 2 && quadCarries q m && slotTx (curSlot m) q && !dropNow q m && !muted (4 + q) m

/-- A capture of path `n` from tick `t`. -/
def newCap (n t q : Nat) (m : Mach) : PdCap :=
  { path := n, tick := t, len := capSamples q m, a := driveAtt n m, bank := bankWords n (pdBank n m) 0 2180 m, done := false, bad := false,
    delay := 0,
    nbs := [0, 1].map fun c => (pdNb n c m).map fun b => (b, idxScale b m), bytes := pdCapBytes q m, z := [], win := [] }

/-- PD_CAPTURE_START: cap_off ticks into the burst's slot. -/
def pdCapStart (o : Nat) (m : Mach) : Mach :=
  let q := o / 2
  let t := m.slotStart + fget (QUAD_PD_CAP_CFG.cap_off q) m
  if !burstNow q m || decide (t < tick m) then m
  else
    let m1 := advanceTo t m
    let n := fget (QUAD_OBS_COUPLER.coupler_n (toObs o)) m1
    let full := !capQuota (pdCapBytes q m1) m1
    if (getPdCap o m1).isSome || decide ((nextSlot m1).2 < t + capTicks q m1) || full then
      setEv (QUAD_PD_Q_EVENTS.cap_skip q) (setEvIf full RES_EVENTS.quota m1)
    else setUse 2 (partUse 2 m1 + pdCapBytes q m1) (setPdCap o (some (newCap n t q m1)) m1)
def execPdCaptureStart (o : Fin 8) (s : State) : Host.Outcome State Fault Refusal := answer s (pdCapStart o s.m)

/-- R260: the samples that a history holds of a capture's window: as many as z, from 256 samples earlier, oldest first. -/
def capWindow (c : PdCap) (l : List (Nat × Sample)) (m : Mach) : List (Nat × Sample) :=
  let lo := 120 * c.tick - 256 * pdSub m
  (l.filter fun e => decide (lo ≤ e.1 ∧ e.1 < lo + c.len * pdSub m)).reverse

/-- The windows of x, y, x0 and x1. A neighbour that had no input of a sample's air time, or that the path does not have, stands as
zero. -/
def capWindows (c : PdCap) (m : Mach) : List (List Sample) :=
  let x := capWindow c (getPd c.path m).hist m
  let nb (i : Nat) : List Sample := match c.nbs.getD i none with
    | some b => let l := capWindow c (getPd b.1 m).hist m; x.map fun e => ((l.find? fun f => f.1 == e.1).map Prod.snd).getD zeroSample
    | none => []
  [x.map Prod.snd, (capWindow c (getPd c.path m).outs m).map Prod.snd, nb 0, nb 1]

/-- R261: the capture held a GAP sample: z, x and y whole, with no sample of GAP in any window. -/
def capGap (c : PdCap) : Bool :=
  (c.z :: c.win.take 2).any (fun l => l.length != c.len) || (c.z :: c.win).any fun l => l.any fun s => s.st == .gap

/-- The energy of some samples, full scale being 2^19. -/
def energy (l : List (Int × Int)) : Nat := (l.map fun v => (v.1 * v.1 + v.2 * v.2).toNat).sum
def ofSample (s : Sample) : Int × Int := (s.i, s.q)
/-- The captured samples of x. -/
def capX (c : PdCap) : List (Int × Int) := (c.win.headD []).map ofSample
/-- R261: the rms of x is below −`p` dBFS (exactly: the mean square to the tenth power against 10^−p). -/
def capWeak (c : PdCap) (p : Nat) : Bool := decide (energy (capX c) ^ 10 * 10 ^ p < (c.len * 2 ^ 38) ^ 10)

/-- R262 step 1: a peak `d` sixteenths of a sample from the start lies at neither end of the range and is strong enough. -/
def aligned (d : Nat) (strong : Bool) : Bool := strong && decide (0 < d ∧ d < 255 * 16)

/-- R261: the capture is discarded. -/
def capDiscarded (o : Nat) (c : PdCap) (alignOk : Bool) (m : Mach) : Bool :=
  let n := c.path
  c.bad || capGap c || !alignOk || !(rd (QUAD_PD_OBS_SET (o / 2) (o % 2)) m).getLsbD (n % 16) || n / 16 != o / 2 ||
    !fon (QUAD_PD_CTRL.adapt_en n) m || !fon (QUAD_PD_CTRL.pd_en n) m || exclDl n m || muted (4 + n / 16) m ||
    capWeak c (fget (QUAD_PD_CAP_CFG.min_pwr (o / 2)) m)

/-- The capture with its windows, and the state in which they have ended: the core has formed every sample of z. -/
def capClosed (o : Nat) (c : PdCap) (m : Mach) : PdCap × Mach :=
  let m1 := settleBridge (.obs (toObs o)) (advanceTo (c.tick + capTicks (o / 2) m) m)
  let d := (getPdCap o m1).getD c
  ({ d with win := capWindows d m1 }, m1)

/-- PD_CAPTURE_END: the capture is attributed to its path, or discarded and counted. A path on hold takes none. -/
def pdCapEnd (o d : Nat) (strong : Bool) (m : Mach) : Mach :=
  match getPdCap o m with
  | none => m
  | some c =>
    if c.done then m
    else
      let r := capClosed o c m
      if capDiscarded o r.1 (aligned d strong) r.2 then freePdCap o (fcnt (QUAD_PD_CYCLES.discards c.path) 1 r.2)
      else if fon (QUAD_PD_STATUS.hold c.path) r.2 then freePdCap o r.2
      else setPdCap o (some { r.1 with done := true, delay := d }) r.2
def execPdCaptureEnd (o : Fin 8) (delay : Fin 256) (frac : Fin 16) (strong : Bool) (s : State) : Host.Outcome State Fault Refusal :=
  answer s (pdCapEnd o (16 * delay + frac) strong s.m)

/-- R262 step 4: each entry moves by mu / 16 of the way to the fit. -/
def stepEntry (mu : Nat) (old fit : W) : W :=
  let a := lutEntry old
  let f := lutEntry fit
  let g := fun (x y : Int) => toBits 16 (roundDiv (16 * x + mu * (y - x)) 16)
  BitVec.ofNat 32 (g a.1 f.1 + 65536 * g a.2 f.2)

/-- R262 step 3: the bins of the samples that a fit is made from: of `u` with the index scale of its own drive, for every memory tap; of
x0 and x1, with the neighbours' scales, for the coupling taps (DESIGN CHOICE, assumption 96). -/
def fitBins (c : PdCap) (u : List (Int × Int)) : List Nat × List Nat × List Nat :=
  let cpl (i : Nat) : List Nat :=
    ((((c.win.getD (2 + i) []).drop (256 - c.delay / 16)).take u.length).map fun x => magIdx ((c.nbs.getD i none).getD (0, 0)).2 x / 1024)
  (u.map fun v => magIdx 16384 { zeroSample with i := v.1, q := v.2 } / 256, cpl 0, cpl 1)

/-- The bin of table word `w` holds at least 2^min_hits_log samples. -/
def binFull (least : Nat) (b : List Nat × List Nat × List Nat) (w : Nat) : Bool :=
  decide (least ≤ if w < 2048 then b.1.count (w % 256) else (if w < 2112 then b.2.1 else b.2.2).count (w % 64))

/-- The bank that a cycle makes: the stepped entries, those of bins with too few samples as they were, the delays of the active bank,
a_train from the capture. -/
def cycleBank (c : PdCap) (u : List (Int × Int)) (fit : List W) (m : Mach) : List W :=
  let n := c.path
  let b := pdBank n m
  let mu := clampN 1 16 (fget (QUAD_PD_ADAPT_CFG.mu (n / 16)) m)
  let bins := fitBins c u
  let least := 2 ^ fget (QUAD_PD_ADAPT_CFG.min_hits_log (n / 16)) m
  ((List.range 2176).map fun i =>
    let old := lutW n b i m
    if binFull least bins i then stepEntry mu old (fit.getD i old) else old) ++
    [lutW n b 2176 m, lutW n b 2177 m, BitVec.ofNat 32 (c.a % 2 ^ 17)]

/-- R262 step 5: the score of the bank in force during the capture, in 0.01 dB. -/
def cycleScore (c : PdCap) (u : List (Int × Int)) : Int :=
  let p := u.zip ((capX c).drop (256 - c.delay / 16))
  let num := energy (p.map fun e => (e.1.1 - e.2.1, e.1.2 - e.2.2))
  let den := energy (p.map Prod.snd)
  satS 16 (if num = 0 ∨ den = 0 then Config.nmseFree num den else fxRoundAway (100 * fxDb num den))

/-- R264: where the kept bank of path `n` lies in PDT. -/
def keptAddr (n : Nat) (m : Mach) : Nat := partBase 3 m + 8720 * n

/-- The kept bank becomes the one in force during the capture. -/
def keepBank (c : PdCap) (nmse : Int) (m : Mach) : Mach :=
  let n := c.path
  let m1 := setPd n { getPd n m with bestA := some c.a, kept := true } m
  resWrite (keptAddr n m) (c.bank.flatMap fun v => leBytes 4 v.toNat)
    (fset (QUAD_PD_NMSE.nmse_best n) (toBits 16 nmse) m1)

/-- The words of the kept bank. -/
def keptWords (n : Nat) (m : Mach) : List W := (List.range 2180).map fun i => resWord (keptAddr n m + 4 * i) m

/-- R336: a kept bank with a poisoned unit is discarded; nmse_best restarts. -/
def checkKept (n : Nat) (m : Mach) : Mach :=
  if (getPd n m).kept && !(badUnits (keptAddr n m) 8720 m).isEmpty then
    setPd n { getPd n m with kept := false, bestA := none } (readReport (keptAddr n m) 8720 m)
  else m

/-- R263: convergence after a cycle with score `nmse`. -/
def noteConv (n : Nat) (nmse : Int) (m : Mach) : Mach :=
  let x := getPd n m
  let q := n / 16
  let near := match x.prevNmse with
    | some p => decide ((nmse - p).natAbs ≤ fget (QUAD_PD_ADAPT_CFG.conv_tol q) m)
    | none => false
  let c := if near then x.conv + 1 else 0
  let need := max 1 (fget (QUAD_PD_ADAPT_CFG.conv_n q) m)
  let m1 := setPd n { x with prevNmse := some nmse, conv := c } m
  if !near then fset (QUAD_PD_STATUS.converged n) 0 m1
  else if need ≤ c then fset (QUAD_PD_STATUS.converged n) 1 m1 else m1

/-- A bank goes into the inactive bank and its swap is requested for the next slot boundary. -/
def requestBank (n : Nat) (ws : List W) (m : Mach) : Mach :=
  let m1 := mirrorBank n (writeIdle n ws m)
  refreshSwap n (setPd n { getPd n m1 with adaptSwap := true } m1)

/-- PD_ADAPT_CYCLE_END: the vendor's program, whose method R262 leaves to it, gives the aligned `u` and the fitted words 0 to 2175
(DESIGN CHOICE, assumption 96). -/
def pdCycle (o : Nat) (u : List (Int × Int)) (fit : List W) (m : Mach) : Mach :=
  match getPdCap o m with
  | none => m
  | some c =>
    if !c.done then m else
    let n := c.path
    let nmse := cycleScore c u
    let m1 := checkKept n (freePdCap o m)
    let m2 := noteConv n nmse (fset (QUAD_PD_NMSE.nmse_last n) (toBits 16 nmse) (fcnt (QUAD_PD_CYCLES.completed n) 1 m1))
    let best := sext 16 (fget (QUAD_PD_NMSE.nmse_best n) m2)
    let fresh := match (getPd n m2).bestA with
      | some a => decide (500 < (a - c.a) + (c.a - a))
      | none => true
    if fresh || decide (nmse < best) then
      requestBank n (cycleBank c u fit m2) (keepBank c nmse m2)
    else if best + 10 * (fget (QUAD_PD_ADAPT_CFG.div_db (n / 16)) m2 : Int) < nmse then
      holdPath n (setEv (QUAD_PD_EVENTS.pd_diverge n) (requestBank n (keptWords n m2) m2))
    else requestBank n (cycleBank c u fit m2) m2
def execPdAdaptCycleEnd (o : Fin 8) (u : List (Int × Int)) (fit : List W) (s : State) : Host.Outcome State Fault Refusal :=
  answerIf (fitOk fit) s (pdCycle o u fit s.m)

/-- PD_HOLD_END: the path's adaptation resumes. -/
def execPdHoldEnd (n : Fin 64) (s : State) : Host.Outcome State Fault Refusal :=
  answer s (fset (QUAD_PD_STATUS.hold n) 0 s.m)

/-- A cycle in progress for path `n` is discarded (R256). -/
def dropCycles (n : Nat) (m : Mach) : Mach :=
  each (List.range 8) (fun o s => match getPdCap o s with
    | some c => if c.path = n then freePdCap o s else s
    | none => s) m

/-! ### Engine spares (R267 to R269) -/

/-- The spare of quadrant `q` serves path `n` (R441). -/
def bindEngine (n : Nat) (m : Mach) : Mach :=
  let q := n / 16
  useSpare 3 q (fset (QUAD_PD_STATUS.phys n) (17 * q + 16) (fset (QUAD_PD_Q_STATUS.serves q) (n % 16)
    (setRemap (fun r => { r with engines := tabPut (fun _ => false) r.engines n true }) m)))

/-- A path of quadrant `q` already waits for the spare. -/
def spareAwaited (q : Nat) (m : Mach) : Option Nat := (pathsOf q).find? fun n => (getPd n m).dead

/-- The planned substitution that runs is path `n`'s, and its quadrant's spare is there for it. -/
def engineDue (n : Nat) (m : Mach) : Bool :=
  isPlanned 3 (fget (QUAD_PD_STATUS.phys n) m) m && decide (0 < poolLeft 3 (n / 16) m) && (spareAwaited (n / 16) m).isNone

/-- The filled spare's output replaces the engine's; nothing is tagged. -/
def engineSwitch (n : Nat) (m : Mach) : Mach :=
  let m1 := setPd n { getPd n m with subst := false } m
  if engineDue n m then
    plannedDone 3 (fget (QUAD_PD_STATUS.phys n) m) n (17 * (n / 16) + 16) (setEv (QUAD_PD_EVENTS.eng_remap n) (bindEngine n m1))
  else m1
/-- R267: at the first slot boundary after its copy the spare takes over. -/
def substBoundary (n : Nat) (m : Mach) : Mach := if (getPd n m).subst then engineSwitch n m else m

/-- ENGINE_SUBST_PLANNED: both banks are copied and the spare's delay lines fill: it takes over at the next slot boundary, or at once
while the frame timing is stopped. -/
def enginePlanned (n : Nat) (m : Mach) : Mach :=
  if engineDue n m then (if timingOn m then setPd n { getPd n m with subst := true } m else engineSwitch n m) else m
def execEngineSubstPlanned (n : Fin 64) (s : State) : Host.Outcome State Fault Refusal := answer s (enginePlanned n s.m)

/-- R269: path `n`'s engine is failed: the path is declared failed, or routes around it. -/
def engineDead (n : Nat) (m : Mach) : Mach :=
  let m2 := setPd n { getPd n m with lost := true, dead := false }
    (setRemap (fun r => { r with enginesDead := n :: r.enginesDead }) m)
  if fon (QUAD_PD_CTRL.fail_bypass n) m2 then fset (QUAD_PD_STATUS.bypassed n) 1 m2 else failPath true n 0xFF m2

/-- An engine fails hard without a spare. -/
def engineLost (n : Nat) (m : Mach) : Mach := engineDead n (noSpare 3 1 (fget (QUAD_PD_STATUS.phys n) m) n m)

/-- ENGINE_HARD_FAIL: GAP until the spare takes over; without a spare the engine is failed. -/
def engineFail (n : Nat) (m : Mach) : Mach :=
  let q := n / 16
  let p := fget (QUAD_PD_STATUS.phys n) m
  if (getPd n m).lost || (getPd n m).dead then m
  else
    let m1 := setEv (QUAD_PD_EVENTS.eng_fail n) (dropPlanned 3 p m)
    let m2 := if p = 17 * q + 16 then fset (QUAD_PD_Q_STATUS.failed q) 1 m1 else m1
    if 0 < poolLeft 3 q m2 ∧ (spareAwaited q m2).isNone then setPd n { getPd n m2 with dead := true } m2
    else engineLost n m2
def execEngineHardFail (n : Fin 64) (s : State) : Host.Outcome State Fault Refusal := answer s (engineFail n s.m)

/-- ENGINE_SPARE_TAKEOVER: the spare starts with empty delay lines; its first 15 outputs are SETTLING. -/
def engineTakeover (q : Nat) (m : Mach) : Mach :=
  match spareAwaited q m with
  | none => m
  | some n =>
    let p := fget (QUAD_PD_STATUS.phys n) m
    hardDone 3 p n (17 * q + 16) (bindEngine n (setPd n { getPd n m with dead := false, settle := 15, base := (getPd n m).k } m))
def execEngineSpareTakeover (q : Fin 4) (s : State) : Host.Outcome State Fault Refusal := answer s (engineTakeover q s.m)

end Sys2Proof.Machine
end

