-- ==== Sys2Proof/Machine/Slices.lean ====
section
/-! DEFINITION. The receive front ends' registers and slices (spec/03, R98, R106, R111, R123 to R127): attenuator, zone and
dither; the map of interleave slices and their spares. -/

namespace Sys2Proof.Machine

/-! ### Zone, dither, attenuator (R98, R106, R111) -/

/-- The samples of receive unit `u` from now on, at least `n` of them, are tagged SETTLING (R112). Of a change that applies while the
quadrant is POWERED_DOWN they are the first ones after its power-up (DESIGN CHOICE, assumption 94: R111 does not say). -/
def rxSettle (u : RxUnit) (n : Nat) (m : Mach) : Mach :=
  let x := getRx (rxKey u) m
  setRx (rxKey u) { x with settle := max x.settle n } m

/-- QUAD_RX_CTRL applies: a zone change tags 512 samples, a dither change 32 (R111). -/
def applyRxCtrl (u : RxUnit) (v : W) (m : Mach) : Mach :=
  let z := fget (QUAD_RX_CTRL.zone u) m
  let d := fget (QUAD_RX_CTRL.dither_en u) m
  let m1 := fset (QUAD_RX_STATUS.zone u) (wfld v 0 2) (wr (QUAD_RX_CTRL u) v m)
  rxSettle u (if z ≠ wfld v 0 2 then 512 else if d ≠ wfld v 2 1 then 32 else 0) m1

/-- QUAD_RX_ATTEN applies: a change of up to 6 dB tags 32 samples, a greater one 64. -/
def applyRxAtten (u : RxUnit) (v : W) (m : Mach) : Mach :=
  let a := fget (QUAD_RX_ATTEN.atten_db2 u) m
  let b := wfld v 0 6
  let d := (a - b) + (b - a)
  rxSettle u (if d = 0 then 0 else if d ≤ 12 then 32 else 64) (wr (QUAD_RX_ATTEN u) v m)

/-- A value for an RWS register of a quadrant is staged, or applies at once (R21 to R23). -/
def stageQuad (q a : Nat) (v : W) (apply : W → Mach → Mach) (m : Mach) : Mach :=
  if quadStopped q m then apply v m else setStage a (some v) m

/-- RX_CTRL_WRITE: a zone code of 3 is not applied: the previous zone stays (R106); dither_en is (DEDUCED, assumption 54). -/
def rxCtrlWrite (u : RxUnit) (v : W) (m : Mach) : Mach :=
  let a := QUAD_RX_CTRL u
  let x := if wfld v 0 2 = 3 then wset v 0 2 (wfld ((staged a m).getD (rd a m)) 0 2) else v
  stageQuad (rxQuad u) a (x &&& 0x7#32) (applyRxCtrl u) (setEvIf (decide (wfld v 0 2 = 3)) (QUAD_RX_EVENTS.cfg_err u) m)
def execRxCtrlWrite (u : RxUnit) (v : W) (s : State) : Host.Outcome State Fault Refusal :=
  answer s (gate (QUAD_RX_CTRL u) (rxCtrlWrite u v) s.m)

/-- A write of QUAD_RX_ATTEN (no row of its own). -/
def rxAttenWrite (u : RxUnit) (v : W) (m : Mach) : Mach :=
  stageQuad (rxQuad u) (QUAD_RX_ATTEN u) (v &&& 0x3F#32) (applyRxAtten u) m

/-- COUPLER_WRITE: coupler_n changes at once (R129). -/
def execCouplerWrite (o : Fin 8) (v : W) (s : State) : Host.Outcome State Fault Refusal :=
  answer s (gate (QUAD_OBS_COUPLER o) (setCoupler o (v.toNat % 64)) s.m)

/-! ### The slice map (R101, R123 to R127) -/

/-- The kitty kind of a receive unit's slices, and its pool: the path, or the observation receiver. -/
def unitKind : RxUnit → Nat
  | .path _ => 0
  | .obs _ => 1
def unitPool : RxUnit → Nat
  | .path n => n
  | .obs o => o

/-- The physical slice that serves position `i`; 4 is the spare's field. -/
def slicePos (u : RxUnit) (i : Nat) : Fld := ⟨QUAD_RX_STATUS u, 3 * i, 3⟩
def sliceAt (u : RxUnit) (i : Nat) (m : Mach) : Nat := fget (slicePos u i) m

/-- A spare slice is left. -/
def hasSpareSlice (u : RxUnit) (m : Mach) : Bool := sliceAt u 4 m != 7 && decide (0 < poolLeft (unitKind u) (unitPool u) m)

/-- The map of a unit is recorded in NVM (R441). -/
def recordSlices (u : RxUnit) (m : Mach) : Mach :=
  let l := (List.range 5).map fun i => sliceAt u i m
  setRemap (fun r => { r with slices := tabPut (fun _ => []) r.slices (rxKey u) l }) m

/-- The spare takes position `pos`, and no spare remains. -/
def mapSlice (u : RxUnit) (pos : Nat) (m : Mach) : Mach :=
  useSpare (unitKind u) (unitPool u)
    (recordSlices u (fset (slicePos u 4) 7 (fset (slicePos u pos) (sliceAt u 4 m) m)))

/-- The running planned substitution is of slice `s` of unit `u`. -/
def slicePlanned (u : RxUnit) (m : Mach) : Option Nat :=
  match m.hlt.running with
  | some r => if r.kind.val = unitKind u ∧ r.pool = unitPool u then some r.phys else none
  | none => none

/-- R440: a slice that fails hard abandons its own planned substitution. -/
def dropSlice (u : RxUnit) (s : Nat) (m : Mach) : Mach :=
  let m1 := { m with hlt := { m.hlt with waiting := m.hlt.waiting.filter fun r =>
    !(r.kind.val == unitKind u && r.pool == unitPool u && r.phys == s) } }
  if slicePlanned u m = some s then endPlanned m1 else m1

/-- R288: one kind 0 trick for the unit waits for a gap; its path's receive device-side uncertainty reads unmeasured. -/
def wantSliceTrick (u : RxUnit) (m : Mach) : Mach :=
  match u with
  | .path n => fset ⟨CAL_PATH (16 * n + 3), 0, 30⟩ 0x3FFFFFFF (wantTrick u m)
  | .obs _ => wantTrick u m

/-- R124, R126: a spare that was switched in without its trick. -/
def spareUntrimmed (u : RxUnit) (m : Mach) : Mach := wantSliceTrick u (fset (QUAD_RX_STATUS.unc_hi u) 1 m)

/-- R125: the unit has no working fourth position. A path is declared failed. -/
def noSlice (u : RxUnit) (pos : Nat) (m : Mach) : Mach :=
  let x := getRx (rxKey u) m
  let m1 := setRx (rxKey u) { x with badPos := pos :: x.badPos } (setEv (QUAD_RX_EVENTS.no_spare u) m)
  match u with
  | .path n => failPath false n 0 m1
  | .obs _ => m1

/-- The position that physical slice `s` serves. -/
def posOfSlice (u : RxUnit) (s : Nat) (m : Mach) : Option Nat := (List.range 4).find? fun i => sliceAt u i m == s

/-- The next 256 samples are SETTLING, where the unit's converter runs (R123, R126). -/
def remapSettle (u : RxUnit) (m : Mach) : Mach := if quadState (rxQuad u) m = 0 then m else rxSettle u 256 m

/-- The planned remap of slice `s` at position `pos` is done; without its trick where `bare` (R123, R126). -/
def sliceRemapDone (u : RxUnit) (s pos : Nat) (bare : Bool) (m : Mach) : Mach :=
  let sp := sliceAt u 4 m
  let x := getRx (rxKey u) m
  let m1 := setEv (QUAD_RX_EVENTS.slice_remap u) (remapSettle u (mapSlice u pos (setRx (rxKey u) { x with remapPos := none } m)))
  plannedDone (unitKind u) s (unitPool u) sp (if bare then spareUntrimmed u m1 else m1)

/-- SLICE_REMAP_PLANNED: after its trim trick, at the first sample after the gap; while the quadrant is not RUNNING, at once
and without the trick (R126). -/
def sliceRemap (u : RxUnit) (m : Mach) : Mach :=
  match slicePlanned u m with
  | none => m
  | some s => match posOfSlice u s m with
    | none => m
    | some pos =>
      let bare := quadState (rxQuad u) m != 2
      if hasSpareSlice u m && (bare || (getRx (rxKey u) m).remapPos == some pos) then
        sliceRemapDone u s pos (bare && (getRx (rxKey u) m).remapPos != some pos) m
      else m
def execSliceRemapPlanned (u : RxUnit) (s : State) : Host.Outcome State Fault Refusal := answer s (sliceRemap u s.m)

/-- The receive units of quadrant `q`: its paths, then its observation receivers. -/
def unitsOf (q : Nat) : List RxUnit :=
  ((pathsOf q).map fun n => RxUnit.path (toPath n)) ++ [2 * q, 2 * q + 1].map fun o => RxUnit.obs (toObs o)

/-- R126: slice `s` of unit `u` gives way to the spare at once, without a trick; without a spare the unit has no working fourth
position (R125). -/
def sliceNow (u : RxUnit) (s : Nat) (m : Mach) : Mach :=
  let k := unitKind u
  let p := unitPool u
  match posOfSlice u s m with
  | none => m
  | some pos =>
    if hasSpareSlice u m then
      let sp := sliceAt u 4 m
      let m1 := mapSlice u pos (setRx (rxKey u) { getRx (rxKey u) m with remapPos := none } m)
      plannedOver k s p sp (spareUntrimmed u (setEv (QUAD_RX_EVENTS.slice_remap u) (remapSettle u m1)))
    else noSlice u pos (markWorn k 0 s p m)

/-- The slices of unit `u` whose planned remap runs or waits. -/
def slicesWaiting (u : RxUnit) (m : Mach) : List Nat :=
  (m.hlt.running.toList ++ m.hlt.waiting).filterMap fun r =>
    if r.kind.val = unitKind u ∧ r.pool = unitPool u then some r.phys else none

/-- R126: the planned remaps of quadrant `q` that wait when it is not RUNNING are due now; one whose trick has run keeps what the trick
gave it. -/
def slicesDue (q : Nat) (m : Mach) : Mach :=
  if quadState q m = 2 then m
  else each (unitsOf q) (fun u s => each (slicesWaiting u s) (fun x t =>
    if (getRx (rxKey u) t).remapPos.isSome then sliceRemap u t else sliceNow u x (dropSlice u x t)) s) m

/-- SLICE_HARD_FAIL: the failed slice's first bad sample is the next one; the samples from it to the switch are GAP, a free number of
them up to 128, then 256 SETTLING (R111, R124; DESIGN CHOICE, assumption 27: the command stands at the first bad sample, not at the
detection). -/
def sliceFail (u : RxUnit) (pos : Nat) (m : Mach) : Mach :=
  let s := sliceAt u pos m
  let m1 := dropSlice u s m
  if hasSpareSlice u m1 then
    let sp := sliceAt u 4 m1
    let run := quadState (rxQuad u) m1 != 0
    let g := if run then 1 + Config.sliceSwitch m1.free % 128 else 0
    let x := getRx (rxKey u) m1
    let m2 := if run then
        setRx (rxKey u) { x with gapN := max x.gapN g, settle := max x.settle (g + 256), remapPos := none } (nextFree m1) else m1
    hardDone (unitKind u) s (unitPool u) sp
      (spareUntrimmed u (setEv (QUAD_RX_EVENTS.slice_fail u) (mapSlice u pos m2)))
  else noSlice u pos (noSpare (unitKind u) 0 s (unitPool u) (setEv (QUAD_RX_EVENTS.slice_fail u) m1))
def execSliceHardFail (u : RxUnit) (pos : Fin 4) (s : State) : Host.Outcome State Fault Refusal :=
  answer s (sliceFail u pos s.m)

end Sys2Proof.Machine
end

