-- ==== Sys2Proof/Machine/Token.lean ====
section
/-! DEFINITION. The twin token (spec/15, R455 to R457): how a device takes it, holds it and releases it. -/

namespace Sys2Proof.Machine

/-- An event is delivered now to the four sequencers (R236). -/
def fesAll (code : Nat) (m : Mach) : Mach := each quads4 (fun q s => fesNow q code s) m

/-- TWIN_TOK_O and TWIN_SEL are driven. -/
def driveToken (tok sel : Bool) (m : Mach) : Mach :=
  fsetB HLT_TWIN_STATUS.sel sel { m with tokOut := tok, twinSel := sel }

/-- R455: the device tries to take the token. -/
def wantToken (m : Mach) : Mach :=
  if hasToken m then m else
  { (fsetB HLT_TWIN_STATUS.tok_wait (isActive m) m) with twin := { m.twin with taking := true } }

/-- The device stops trying: TWIN_TOK_O goes low if it was driven for a try. -/
def stopTaking (m : Mach) : Mach :=
  let m1 := { m with twin := { m.twin with taking := false, driving := false, backoff := false } }
  fset HLT_TWIN_STATUS.tok_wait 0 (if hasToken m then m1 else driveToken false false m1)

/-- R457: the token is released: the pins go low, TOKEN_LOST is delivered, the PA-class pins are safe, and the release is
logged with its reason. -/
def releaseToken (reason : Nat) (m : Mach) : Mach :=
  if hasToken m then
    let m1 := refreshPins (driveToken false false (fset HLT_TWIN_STATUS.token 0 m))
    logCode 0x0302 1 0xFF 0xFFFF 0xFFFF [BitVec.ofNat 8 reason] (fesAll 0 m1)
  else m

/-- The device neither holds nor seeks the token. -/
def dropToken (reason : Nat) (m : Mach) : Mach := stopTaking (releaseToken reason m)

/-- TOKEN_TAKE: TWIN_TOK_I was low for 2 µs: TWIN_TOK_O is driven high. -/
def tokenTake (m : Mach) : Mach :=
  if m.twin.taking && !m.twin.backoff && !m.twin.driving && !hasToken m then
    driveToken true false (fset HLT_TWIN_STATUS.tok_in 0 { m with twin := { m.twin with driving := true } })
  else m
def execTokenTake (s : State) : Host.Outcome State Fault Refusal := answer s (tokenTake s.m)

/-- TOKEN_CHECK: 1 µs later. With TWIN_TOK_I low the device holds the token and asserts TWIN_SEL (R456); a takeover goes
on to settle. With it high the device backs off; in a takeover split_blocked is set, as it is where the input stays high before a
try (R464). -/
def tokenCheck (tokIn : Bool) (m : Mach) : Mach :=
  let m0 := fsetB HLT_TWIN_STATUS.tok_in tokIn m
  if m.twin.driving = false then setEvIf (tokIn && m.twin.taking && m.twin.takeover.isSome) HLT_TWIN_EVENTS.split_blocked m0
  else if tokIn then
    setEvIf m.twin.takeover.isSome HLT_TWIN_EVENTS.split_blocked
      (driveToken false false { m0 with twin := { m0.twin with driving := false, backoff := true } })
  else
    let m1 := driveToken true true (fset HLT_TWIN_STATUS.tok_wait 0 (fset HLT_TWIN_STATUS.token 1
      { m0 with twin := { m0.twin with driving := false, taking := false } }))
    let m2 := if m1.twin.takeover.isSome then fset HLT_TWIN_STATUS.phase 2 m1 else m1
    fesAll 13 (refreshPins m2)
def execTokenCheck (tokIn : Bool) (s : State) : Host.Outcome State Fault Refusal := answer s (tokenCheck tokIn s.m)

/-- TOKEN_BACKOFF_END: the device tries again. -/
def tokenBackoffEnd (m : Mach) : Mach := { m with twin := { m.twin with backoff := false } }
def execTokenBackoffEnd (s : State) : Host.Outcome State Fault Refusal := answer s (tokenBackoffEnd s.m)

/-- TOKEN_CONFLICT: TWIN_TOK_I rises while the token is held: it is released at once, and the device retries (R456). -/
def tokenConflict (m : Mach) : Mach :=
  let m0 := fset HLT_TWIN_STATUS.tok_in 1 m
  if hasToken m then
    let m1 := wantToken (releaseToken 0xFF (setEv HLT_TWIN_EVENTS.tok_conflict m0))
    { m1 with twin := { m1.twin with backoff := true } }
  else m0
def execTokenConflict (s : State) : Host.Outcome State Fault Refusal := answer s (tokenConflict s.m)

end Sys2Proof.Machine
end

