-- ==== Sys2Proof/Machine/QuadOps.lean ====
section
/-! DEFINITION. The quadrants' states (spec/02, R83 to R88, R95): requests, transitions, power-up and power-down; the
converters' self-calibration and restore (spec/03, R116 to R122), which a power-up contains. -/

namespace Sys2Proof.Machine

/-! ### Fields of quadrant `q` -/

/-- The MPLL is locked (a coasting loop is not, R393). -/
def mpllLocked (m : Mach) : Bool := fget CLK_STATUS.mpll m == 3

/-- Quadrant `q`'s converter clocks are gated (R399), or not. -/
def setGated (q : Nat) (b : Bool) (m : Mach) : Mach := fsetB ⟨CLK_STATUS, 12 + q, 1⟩ b m

/-- GCTL_QUAD_STATE.trans_q: a transition runs, or another step of it is due at the next slot boundary. -/
def refreshTrans (q : Nat) (m : Mach) : Mach :=
  let x := getQ q m
  fsetB ⟨GCTL_QUAD_STATE, 8 + q, 1⟩ (x.phase != .rest || x.target != quadState q m) m

/-- GCTL_QUAD_STATE.selfcal_q. -/
def setSelfcal (q : Nat) (b : Bool) (m : Mach) : Mach := fsetB ⟨GCTL_QUAD_STATE, 12 + q, 1⟩ b m

/-- GCTL_QUAD_REQ.pending: some field waits for a slot boundary (R88). -/
def refreshReqPending (m : Mach) : Mach := fsetB GCTL_QUAD_REQ.pending (quads4.any fun q => (getQ q m).pend.isSome) m

/-- The quadrant's phase and target. -/
def setPhase (q : Nat) (p : QPhase) (t : Nat) (m : Mach) : Mach :=
  refreshTrans q (setQ q { getQ q m with phase := p, target := t } m)

/-- The quadrant's state becomes `st`; its pins follow (R232, R233). -/
def setQuadState (q st : Nat) (m : Mach) : Mach := refreshTrans q (refreshFes q (fset (GCTL_QUAD_STATE.st_q q) st m))

/-! ### Power-up (R86, R398) -/

/-- POWERED_DOWN → IDLE starts, bound for state `t`: the QPLL locks, or waits for the MPLL. -/
def powerUp (q t : Nat) (m : Mach) : Mach :=
  if mpllLocked m then setPhase q .qpllLock t (setGated q true (fset (CLK_STATUS.qpll_q q) 1 m))
  else setPhase q .waitMpll t (setGated q true m)

/-- Domain `d`'s outputs release GAP until the anchor is re-established (R44). -/
def addFlush (d : Nat) (m : Mach) : Mach := if m.flush.contains d then m else { m with flush := d :: m.flush }

/-- The converters are ready: the quadrant is IDLE, its sequencer starts (R237); R44 applies. -/
def powerUpDone (q : Nat) (m : Mach) : Mach :=
  let t := max 1 (getQ q m).target
  fesRestart q (setPhase q .rest (if (getQ q m).target = 0 then 0 else t) (setQuadState q 1 (addFlush (1 + q) m)))

/-- A quadrant leaves RUNNING at once: its state, and its remaps that wait. -/
def stopRunning (q : Nat) (m : Mach) : Mach :=
  if quadState q m = 2 then slicesDue q (setQuadState q 1 m) else m

/-! ### Power-down (R86, R95, R357) -/

/-- What is left of a quadrant in POWERED_DOWN: nothing of its loop, bridges, converters; its loopback field is 0, its observation
receivers are on their external pairs, its DACs are off, at midscale when they start again (R225). -/
def quadOff (q : Nat) (m : Mach) : Mach :=
  let m1 := fset (CLK_STATUS.qpll_q q) 0 (setGated q false (setSelfcal q false
    (fset (QUAD_RX_CAL_STATUS.busy q) 0 (fset (QUAD_RX_CAL_STATUS.restoring q) 0 (fset (GCTL_LOOPBACK.lb_q q) 0 m)))))
  let m2 := each (pathsOf q) (fun n s => setIn n [] (clearOut (96 + n) s)) m1
  let m3 := each [2 * q, 2 * q + 1] (fun o s => setIn (64 + o) [] s) m2
  let m4 := each (unitsOf q) (fun u s =>
    setRx (rxKey u) { getRx (rxKey u) s with asm := [], formed := 0, settle := 0, gapN := 0 } s)
    (each [2 * q, 2 * q + 1] (fun o s => fset (QUAD_RX_STATUS.internal (.obs (toObs o))) 0 s)
      (each (pathsOf q) (fun n s => setTx n {} s) m3))
  let m5 := { m4 with frozen := m4.frozen.filter (· != 1 + q), flush := m4.flush.filter (· != 1 + q),
                      clk := { m4.clk with gatedLoops := m4.clk.gatedLoops.filter (· != 1 + q) } }
  let m6 := setFes q { getFes q m5 with acts := [], fcb := [], timer := none, drop := [] } m5
  setPhase q .rest 0 (setQ q { getQ q m6 with startFrame := false } (setQuadState q 0 m6))

/-! ### Leaving RUNNING and CAL_DEDICATED (R86, R87) -/

def getDed (q : Nat) (m : Mach) : DedSt := tabGet (fun _ => {}) m.cal.ded q
def setDed (q : Nat) (x : DedSt) (m : Mach) : Mach :=
  { m with cal := { m.cal with ded := tabPut (fun _ => {}) m.cal.ded q x } }

/-- R289: the dedicated sequence of a quadrant starts at its first trick. -/
def startDed (q : Nat) (m : Mach) : Mach := fset ⟨CAL_STATUS, 10 + q, 1⟩ 1 (setDed q { run := true } m)
def stopDed (q : Nat) (m : Mach) : Mach := fset ⟨CAL_STATUS, 10 + q, 1⟩ 0 (setDed q {} m)

/-- R87: a forced exit abandons work. -/
def forcedDisable (m : Mach) : Mach := setEv GCTL_STATE_EVENTS.forced_disable m

/-- The samples in flight in quadrant `q`'s own outputs become GAP. -/
def gapInFlight (q : Nat) (m : Mach) : Mach := each (pathsOf q) (fun n s => gapBridge (32 + n) (gapBridge (96 + n) s)) m

/-- The quadrant leaves RUNNING for state `st`, with a drain or by force: no new input from now on; QUAD_IDLE is delivered
(R236); a waiting slice remap is due (R126). -/
def leaveRunning (q st t : Nat) (force : Bool) (m : Mach) : Mach :=
  let m1 := slicesDue q (fesNow q 12 (setQuadState q st (setQ q { getQ q m with startFrame := false } m)))
  if force then
    let m2 := setPhase q .rest t (gapInFlight q (forcedDisable m1))
    if st = 3 then startDed q m2 else m2
  else setPhase q .drain t m1

/-- R77: a trick that a quadrant leaving CAL_DEDICATED abandons loses its results. -/
def dropDedTrick (q : Nat) (m : Mach) : Mach :=
  let keep (o : Option Trick) := o.filter fun k => k.ded != some q
  { m with cal := { m.cal with trick := keep m.cal.trick, est := keep m.cal.est } }

/-- The quadrant leaves CAL_DEDICATED for state `st`. -/
def leaveDed (q st t : Nat) (force : Bool) (m : Mach) : Mach :=
  let m1 := if force then forcedDisable (dropDedTrick q m) else m
  setPhase q .rest t (setQuadState q st (stopDed q m1))

/-- The quadrant enters RUNNING: its outputs are GAP until the next frame boundary (R86). -/
def enterRunning (q : Nat) (m : Mach) : Mach :=
  setPhase q .rest 2 (setQuadState q 2 (setQ q { getQ q m with startFrame := true } m))

/-- One step of the quadrant's way to state `t` at a slot boundary (R86); it is IDLE, RUNNING or CAL_DEDICATED. -/
def quadStep (q t : Nat) (force : Bool) (m : Mach) : Mach :=
  let cur := quadState q m
  if cur = t then setPhase q .rest t m
  else if cur = 2 then leaveRunning q (if t = 3 then 3 else 1) t force m
  else if cur = 3 then
    let m1 := leaveDed q 1 t force m
    if t = 2 then enterRunning q m1 else m1
  else if t = 0 then setPhase q .powerDown 0 m
  else if t = 2 then enterRunning q m
  else startDed q (setPhase q .rest 3 (setQuadState q 3 m))

/-! ### Requests (R77, R84, R88, R95, R445) -/

/-- The device state admits quadrant state `st` (R83); IDLE also while STANDBY goes to WARM (R77). -/
def admits (st : Nat) (m : Mach) : Bool :=
  st == 0 || (match devState m with
    | 3 => st == 1
    | 4 => st != 2
    | 5 => true
    | 6 => true
    | _ => false)

/-- A loopback point is set for quadrant `q`. -/
def loopSet (q : Nat) (m : Mach) : Bool := fget (GCTL_LOOPBACK.lb_q q) m != 0

/-- A request for state `st` is refused at the instant it would apply. -/
def reqRefused (q st : Nat) (m : Mach) : Bool :=
  !admits st m || (st == 2 && loopSet q m) ||
    (st != 0 && ((getQ q m).qpllFailed || (m.clk.mpllFailed && decide (devState m ≤ 3))))

/-- R84: a refused field reads back the quadrant's current state. -/
def refuseReq (q : Nat) (m : Mach) : Mach :=
  setEv GCTL_STATE_EVENTS.quad_refused (fset (GCTL_QUAD_REQ.req_q q) (quadState q m) m)

/-- A field of GCTL_QUAD_REQ takes effect, its quadrant being POWERED_DOWN (R77, R86, R88). -/
def takeReqDown (q st : Nat) (m : Mach) : Mach :=
  let x := getQ q m
  if reqRefused q st m then refuseReq q m
  else if devState m = 3 ∧ m.trans ≠ some .toWarm then setQ q { x with idleTarget := decide (st = 1) } m
  else if x.phase != .rest then setPhase q x.phase st m
  else if st = 0 then m
  else powerUp q st m

/-- R289: the states a dedicated sequence measures: receive attenuator codes (0 to 63), then driver codes (0 to 80), each in
steps of its stride, at most 8 of each. -/
def strideCodes (stride top : Nat) : List Nat :=
  if stride = 0 then [] else (((List.range 8).map (stride * ·)).filter fun c => decide (c ≤ top))
def dedStates (m : Mach) : List (Bool × Nat) :=
  ((strideCodes (fget CAL_DED_CFG.rx_stride m) 63).map fun c => (false, c)) ++
    (strideCodes (fget CAL_DED_CFG.tx_stride m) 80).map fun c => (true, c)

/-- Step 1 is in progress: it runs reps times, and again without end once step 3 is done. -/
def dedInStep1 (x : DedSt) (m : Mach) : Bool := x.done || decide (x.rep < max 1 (fget CAL_DED_CFG.reps m))

/-- The dedicated trick that is due: its kind, its group and, in step 2, the state it measures. -/
def dedDue (q : Nat) (m : Mach) : Nat × Nat × Option Nat :=
  let x := getDed q m
  if dedInStep1 x m then (x.pos % 4, x.pos / 4, none)
  else
    let s := (dedStates m).getD (x.step / 16) (false, 0)
    (if s.1 then 3 else 2, x.step % 16, some s.2)

/-- R289: kinds 2 and 3 wait for gaps while another quadrant is RUNNING. -/
def dedPaused (q : Nat) (m : Mach) : Bool := decide (2 ≤ (dedDue q m).1) && quads4.any fun r => r != q && quadState r m == 2

/-- A gap's trick is a dedicated one of quadrant `q`. -/
def dedInGap (q : Nat) (m : Mach) : Bool := [m.cal.trick, m.cal.est].any fun o => match o with
  | some t => t.ded == some q
  | none => false

/-- A dedicated trick is in progress: a change that is not forced waits for its end (R86). -/
def dedBusy (q : Nat) (m : Mach) : Bool := quadState q m == 3 && (getDed q m).run && (!dedPaused q m || dedInGap q m)

/-- A field takes effect at a slot boundary, or waits for the end of a trick or of a power-down. -/
def takeReqSlot (q : Nat) (m : Mach) : Mach :=
  let x := getQ q m
  match x.pend with
  | none => m
  | some (st, force) =>
    if x.phase = .powerDown ∨ (dedBusy q m = true ∧ st ≠ 3 ∧ force = false) then m
    else
      let m1 := fset ⟨GCTL_QUAD_REQ, 8 + q, 1⟩ 0 (setQ q { x with pend := none } m)
      if quadState q m = 0 then takeReqDown q st m1
      else if reqRefused q st m1 then refuseReq q m1
      else if x.phase = .drain then setPhase q .drain st m1
      else quadStep q st force m1

/-- R86: a transition of several steps goes on at a slot boundary; its target is checked again, and a refused one leaves the
quadrant where it is. -/
def continueQuad (q : Nat) (m : Mach) : Mach :=
  let x := getQ q m
  if x.phase ≠ .rest ∨ quadState q m = 0 ∨ x.target = quadState q m then m
  else if reqRefused q x.target m then refuseReq q (setPhase q .rest (quadState q m) m)
  else quadStep q x.target false m

/-- R74, R85: a device on its way to WARM takes RUNNING quadrants to IDLE; on its way to STANDBY every quadrant down, a dedicated
sequence at the end of its trick (R86). -/
def followDevice (q : Nat) (m : Mach) : Mach :=
  let st := quadState q m
  match m.trans with
  | some .toWarmBack => if st = 2 then quadStep q 1 false m else m
  | some .toStandby =>
    if st = 0 ∨ (getQ q m).phase ≠ .rest then m
    else if dedBusy q m then setDed q { getDed q m with leaving := true } m
    else quadStep q 0 false m
  | _ => m

/-- The quadrant's transitions at a slot boundary. -/
def quadSlot (q : Nat) (m : Mach) : Mach :=
  let m1 := if (getQ q m).pend.isSome then takeReqSlot q m else continueQuad q m
  followDevice q m1

/-- A field of GCTL_QUAD_REQ waits for a slot boundary. A dedicated sequence that is to end takes no further trick (R86). -/
def pendReq (q st : Nat) (force : Bool) (m : Mach) : Mach :=
  let m1 := setQ q { getQ q m with pend := some (st, force) } m
  if quadState q m = 3 then setDed q { getDed q m with leaving := decide (st ≠ 3) } m1 else m1

/-- One field of a write of GCTL_QUAD_REQ (R88): taken now, or waiting for the next slot boundary. -/
def writeReq (v : W) (q : Nat) (m : Mach) : Mach :=
  let st := wfld v (2 * q) 2
  let force := v.getLsbD (8 + q)
  if quadStopped q m then
    takeReqDown q st (fset ⟨GCTL_QUAD_REQ, 8 + q, 1⟩ 0 (setQ q { getQ q m with pend := none } m))
  else pendReq q st force m

/-- QUAD_REQ_WRITE. -/
def quadReqWrite (v : W) (m : Mach) : Mach :=
  let x := v &&& 0xFFF#32
  refreshReqPending (each quads4 (writeReq x) (mirror 2 (.quadReq x) (wr GCTL_QUAD_REQ x m)))
def execQuadReqWrite (v : W) (s : State) : Host.Outcome State Fault Refusal := answer s (gate GCTL_QUAD_REQ (quadReqWrite v) s.m)

/-- QUAD_DRAIN_COMPLETE: the samples in flight have been released; the transition goes on at the next slot boundary, or the
dedicated sequence starts. -/
def drainComplete (q : Nat) (m : Mach) : Mach :=
  let x := getQ q m
  if x.phase = .drain then
    let m1 := setPhase q .rest x.target m
    if quadState q m = 3 ∧ x.target = 3 then startDed q m1 else m1
  else m
def execQuadDrainComplete (q : Fin 4) (s : State) : Host.Outcome State Fault Refusal := answer s (drainComplete q s.m)

/-! ### Loopback (R95) -/

/-- One field of a write of GCTL_LOOPBACK. -/
def writeLoop (v : W) (q : Nat) (m : Mach) : Mach :=
  let p := wfld v (4 * q) 3
  let st := quadState q m
  if 3 < p ∨ (p ≠ 0 ∧ st ≠ 1 ∧ st ≠ 3) then setEv GCTL_STATE_EVENTS.loop_refused m
  else
    fset (GCTL_LOOPBACK.lb_q q) p m

/-- R128: receiver 2q is on the internal coupler while a kind 1 trick of its quadrant runs, and both of the quadrant at loopback
point 3. -/
def refreshInternal (m : Mach) : Mach :=
  let busy (q : Nat) : Bool := match m.cal.trick with
    | some t => t.kind == 1 && decide (t.start ≤ m.slotStart) && t.paths.any fun n => n / 16 == q
    | none => false
  each (List.range 8) (fun o s => fsetB (QUAD_RX_STATUS.internal (.obs (toObs o)))
    (fget (GCTL_LOOPBACK.lb_q (o / 2)) m == 3 || (o % 2 == 0 && busy (o / 2))) s) m

/-- LOOPBACK_WRITE. -/
def loopbackWrite (v : W) (m : Mach) : Mach := refreshInternal (each quads4 (writeLoop v) m)
def execLoopbackWrite (v : W) (s : State) : Host.Outcome State Fault Refusal := answer s (gate GCTL_LOOPBACK (loopbackWrite v) s.m)

end Sys2Proof.Machine
end

