-- ==== Sys2Proof/Machine/Ladder.lean ====
section
/-! DEFINITION. Stopped domain clocks (R44); the slack monitor, the slack ladder and the voltage request (spec/01, R46 to
R58, R511). -/

namespace Sys2Proof.Machine

/-! ### Stopped clocks (R44) -/

/-- The input and the output bridges of domain `d` (spec/01), by their keys. -/
def domIn (d : Nat) : List Nat :=
  if 1 ≤ d ∧ d ≤ 4 then pathsOf (d - 1)
  else if d = 5 then (List.range 8).map (64 + ·)
  else if d = 7 then (List.range 9).map (72 + ·)
  else if d = 8 then (List.range 3).map (81 + ·)
  else []
def domOut (d : Nat) : List Nat :=
  if 1 ≤ d ∧ d ≤ 4 then (pathsOf (d - 1)).map (96 + ·)
  else if d = 6 then List.range 96
  else []

/-- The domain's clock stops: its bridges freeze. -/
def freezeDom (d : Nat) (m : Mach) : Mach := if m.frozen.contains d then m else { m with frozen := d :: m.frozen }

/-- The bridges of a domain are emptied; behind the link receive bridges so are the samples that wait for their deadline. -/
def flushBridges (d : Nat) (m : Mach) : Mach :=
  let m1 := each (domOut d) clearOut (each (domIn d) (fun k s => setIn k [] s) m)
  if d = 7 then { m1 with dlRx := m1.dlRx.map fun e => (e.1, { e.2 with placed := [] }) } else m1

/-- The domain's clock is back: its bridges are flushed, and its outputs release GAP until the anchor is re-established. -/
def thawDom (d : Nat) (m : Mach) : Mach :=
  if m.frozen.contains d then
    let m1 := flushBridges d m
    addFlush d { m1 with frozen := m1.frozen.filter (· != d) }
  else m

/-- DOMAIN_CLOCK_STOP. -/
def execDomainClockStop (d : Domain) (s : State) : Host.Outcome State Fault Refusal := answer s (freezeDom (domKey d) s.m)

/-- BRIDGE_FLUSH: the stopped clock returns. -/
def execBridgeFlush (d : Domain) (s : State) : Host.Outcome State Fault Refusal := answer s (thawDom (domKey d) s.m)

/-! ### The voltage request (R55 to R58, R511) -/

/-- R58: floor and ceil as applied. -/
def avsFloor (m : Mach) : Nat := clampN 24 56 (fget GCTL_AVS_CFG.floor m)
def avsCeil (m : Mach) : Nat := clampN 24 56 (fget GCTL_AVS_CFG.ceil m)
/-- The AVS step: 0 acts as 1. -/
def avsStep (m : Mach) : Nat := max 1 (fget GCTL_AVS_CFG.step m)

/-- R511: the request frame, bit 15 first: 1010, the code, three zeros, and the bit that makes the ones odd. -/
def avsFrame (code : Nat) : BitVec 16 :=
  let x := 0xA000 + 16 * (code % 256)
  let ones := ((List.range 16).filter fun i => x.testBit i).length
  BitVec.ofNat 16 (if ones % 2 = 0 then x + 1 else x)

/-- The flags of GCTL_AVS_STATUS and GCTL_CORE_STATUS.ladder follow; ladder reads 1 while the request is above floor, whatever raised
it (DESIGN CHOICE, assumption 87). -/
def refreshLadder (m : Mach) : Mach :=
  let c := fget GCTL_AVS_STATUS.req_code m
  let l := m.lad
  let code := if !l.muted.isEmpty then 4 else if l.shedUl + l.shedDl ≠ 0 then 3 else if l.acqShed ≠ 0 then 2
    else if avsFloor m < c then 1 else 0
  fset GCTL_CORE_STATUS.ladder code
    (fsetB GCTL_AVS_STATUS.at_ceil (decide (c = avsCeil m)) (fsetB GCTL_AVS_STATUS.at_floor (decide (c = avsFloor m)) m))

/-- The request becomes `c`, within floor and ceil; a change is sent on the bus (R511). Only a device in STANDBY, WARM,
ACTIVE or DEGRADED with avs_en changes its request (R56). -/
def avsRequest (c : Nat) (m : Mach) : Mach :=
  let x := clampN (avsFloor m) (avsCeil m) c
  if timingOn m ∧ fon GCTL_AVS_CFG.avs_en m ∧ x ≠ fget GCTL_AVS_STATUS.req_code m then
    refreshLadder (send (.avs (avsFrame x)) (fset GCTL_AVS_STATUS.req_code x m))
  else refreshLadder m

/-- R55: the request never lies outside floor and ceil. -/
def avsClamp (m : Mach) : Mach := avsRequest (fget GCTL_AVS_STATUS.req_code m) m

/-- AVS_REPEAT: each 1 ms the request is sent again, once there has been one (R511, R56). -/
def avsRepeat (m : Mach) : Mach :=
  if (m.power = .waitCore ∨ m.power = .vddGood ∨ m.power = .coreRun) ∧ devState m ≠ 7 then send (.avs (avsFrame (fget GCTL_AVS_STATUS.req_code m))) m else m
def execAvsRepeat (s : State) : Host.Outcome State Fault Refusal := answer s (avsRepeat s.m)

/-- The measured supply lies within one code of the request. -/
def avsMatches (m : Mach) : Bool :=
  let r := fget GCTL_AVS_STATUS.req_code m
  let c := fget GCTL_AVS_STATUS.meas_code m
  decide (r ≤ c + 1 ∧ c ≤ r + 1)

/-- R428: the comparison of R57 is made once a monitor converter has completed a self-calibration. -/
def monCompares (m : Mach) : Bool := quads4.any fun q => fon (MON_STATUS.cal_valid q) m

/-- AVS_NORESP: 200 µs after a request (R57). -/
def avsNoresp (m : Mach) : Mach :=
  if !monCompares m || avsMatches m then m else setEv GCTL_CORE_EVENTS.avs_noresp { m with lad := { m.lad with noresp := true } }
def execAvsNoresp (s : State) : Host.Outcome State Fault Refusal := answer s (avsNoresp s.m)

/-- AVS_CFG_WRITE (R58): floor above ceil, compared as written, refuses the write. -/
def avsCfgWrite (v : W) (m : Mach) : Mach :=
  if wfld v 8 8 < wfld v 0 8 then setEv GCTL_CORE_EVENTS.cfg_err m
  else avsClamp (wr GCTL_AVS_CFG (v &&& 0x01FFFFFF#32) m)
def execAvsCfgWrite (v : W) (s : State) : Host.Outcome State Fault Refusal := answer s (gate GCTL_AVS_CFG (avsCfgWrite v) s.m)

/-- SLACK_THR_WRITE: the thresholds must keep s_beam < s_acq < s_raise < s_lower. -/
def slackThrWrite (v : W) (m : Mach) : Mach :=
  if wfld v 24 8 < wfld v 16 8 ∧ wfld v 16 8 < wfld v 8 8 ∧ wfld v 8 8 < wfld v 0 8 then wr GCTL_SLACK_THR v m
  else setEv GCTL_CORE_EVENTS.cfg_err m
def execSlackThrWrite (v : W) (s : State) : Host.Outcome State Fault Refusal :=
  answer s (gate GCTL_SLACK_THR (slackThrWrite v) s.m)

/-! ### Slack (R46, R47) -/

/-- R47: the window in ticks; values of win_sel above 6 act as 6. -/
def slackWindow (m : Mach) : Nat := 1024 * 2 ^ min 6 (fget GCTL_SLACK_CFG.win_sel m)

/-- R46: pipeline `i` has a slack value: it carried words, and its quadrant, if it is a quadrant's, is not
POWERED_DOWN. -/
def monitored (i : Nat) (o : PipeObs) (m : Mach) : Bool := o.busy && (decide (8 ≤ i) || quadState (i % 4) m != 0)

/-- The slack of each monitored pipeline, lowest ID first. -/
def slackList (obs : List PipeObs) (m : Mach) : List (Nat × Nat) :=
  (obs.zipIdx).filterMap fun p =>
    if monitored p.2 p.1 m then some (p.2, min 100 (100 * p.1.wait / slackWindow m)) else none

/-- GCTL_SLACK_PIPE_i after a window. -/
def notePipe (l : List (Nat × Nat)) (i : Nat) (m : Mach) : Mach :=
  let m1 := fset (GCTL_SLACK_PIPE.occ_max i) (tabGet (fun _ => 0) m.lad.occ i) m
  match l.lookup i with
  | some s =>
    let h := (s :: tabGet (fun _ => []) m.lad.hist i).take 64
    fset (GCTL_SLACK_PIPE.slack i) s (fset (GCTL_SLACK_PIPE.slack_min64 i) (h.foldl min 100)
      { m1 with lad := { m1.lad with hist := tabPut (fun _ => []) m1.lad.hist i h } })
  | none =>
    fset (GCTL_SLACK_PIPE.slack i) 0xFF (fset (GCTL_SLACK_PIPE.slack_min64 i) 0xFF
      { m1 with lad := { m1.lad with hist := tabPut (fun _ => []) m1.lad.hist i [] } })

/-- The lowest slack and its pipeline, the lower ID on a tie; (100, 0) with none monitored. -/
def lowest (l : List (Nat × Nat)) : Nat × Nat :=
  match l with
  | [] => (100, 0)
  | (i, s) :: r => r.foldl (fun o p => if p.2 < o.1 then (p.2, p.1) else o) (s, i)

/-! ### The ladder (R49 to R55) -/

/-- Steps 2, 3 and 4 relieve pipeline `p` (spec/01, Pipelines and slack). -/
def relief2 (p : Nat) : Bool := p == 9 || p == 11 || p == 12 || p == 13
def relief3 (p : Nat) : Bool := p == 9 || p == 10 || p == 13 || p == 14
def relief4 (p : Nat) : Bool := p != 16

/-- How often a step has been taken and not reversed. -/
def taken (s : LadStep) (m : Mach) : Nat := m.lad.steps.count s

/-- R51: the step that sheds a beam for pipeline `p`; the beams that its mesh forms, on the uplink in the last slot that formed
traffic beams; those shed in force. -/
def beamStep (p : Nat) : LadStep := if p = 10 then .dlBeam else .ulBeam
def meshBeams (s : LadStep) (m : Mach) : Nat :=
  if s = .dlBeam then m.mesh.actDl.countP fun e => match e.2 with
    | some w => w.formed
    | none => false
  else m.lad.formedUl
def beamsShed (s : LadStep) (m : Mach) : Nat := if s = .dlBeam then m.lad.shedDl else m.lad.shedUl

/-- The frame has an acquisition slot. -/
def hasAcq (m : Mach) : Bool := m.ftab.slots.any fun s => s.ty == 2

/-- Steps 1, 2, 3 are exhausted or disabled for pipeline `p`: the voltage stands at ceil or the regulator does not follow; all 64
acquisition beams are shed, or asked for in a frame without an acquisition slot (DEDUCED, assumption 86); every beam of the mesh is
shed. -/
def exhausted1 (m : Mach) : Bool :=
  !fon GCTL_AVS_CFG.avs_en m || decide (avsCeil m ≤ fget GCTL_AVS_STATUS.req_code m) || m.lad.noresp
def exhausted2 (p : Nat) (m : Mach) : Bool :=
  !relief2 p || !fon GCTL_SLACK_CFG.acq_shed_en m || decide (64 ≤ m.lad.acqShed) || (!hasAcq m && decide (4 ≤ taken .acq m))
def exhausted3 (p : Nat) (m : Mach) : Bool :=
  !relief3 p || !fon GCTL_SLACK_CFG.beam_shed_en m || decide (meshBeams (beamStep p) m ≤ beamsShed (beamStep p) m)

/-- A step beyond step 1 is taken. -/
def pushStep (s : LadStep) (m : Mach) : Mach := { m with lad := { m.lad with steps := s :: m.lad.steps } }

/-- Step 1, 2 or 3, for the lowest slack `s` in pipeline `p`; none where its condition does not hold, or where all of it is asked for
and waits for its boundary. -/
def takeStep (s p : Nat) (m : Mach) : Option Mach :=
  let e1 := exhausted1 m
  if s < fget GCTL_SLACK_THR.s_raise m ∧ e1 = false then
    some (setEv GCTL_CORE_EVENTS.avs_raise (avsRequest (fget GCTL_AVS_STATUS.req_code m + avsStep m) m))
  else if s < fget GCTL_SLACK_THR.s_acq m ∧ e1 = true ∧ exhausted2 p m = false then
    if taken .acq m < 4 then some (setEv GCTL_CORE_EVENTS.acq_shed (pushStep .acq m)) else none
  else if s < fget GCTL_SLACK_THR.s_beam m ∧ e1 = true ∧ exhausted2 p m = true ∧ exhausted3 p m = false then
    if taken (beamStep p) m < meshBeams (beamStep p) m then
      some (setEv GCTL_CORE_EVENTS.beam_shed (pushStep (beamStep p) m))
    else none
  else none

/-- Step 4 for pipeline `p`: its earlier steps are exhausted and it is not muted yet. -/
def mayMute (p : Nat) (m : Mach) : Bool :=
  relief4 p && fon GCTL_SLACK_CFG.mute_en m && exhausted1 m && exhausted2 p m && exhausted3 p m && decide (taken (.mute p) m = 0)

/-- Step 4: every pipeline whose slack was 0 %, or that was late in two consecutive frames. -/
def muteSteps (l : List (Nat × Nat)) (m : Mach) : List Nat :=
  ((List.range 17).filter fun i => l.lookup i == some 0 || m.lad.lateBoth.contains i).filter fun i => mayMute i m

/-- The pipelines a step relieves, and the threshold of its reversal (R53). -/
def stepPipes : LadStep → List Nat
  | .acq => (List.range 17).filter relief2
  | .ulBeam => [9, 13, 14]
  | .dlBeam => [10]
  | .mute p => [p]
def stepThr (s : LadStep) (m : Mach) : Nat :=
  if s = .acq then fget GCTL_SLACK_THR.s_acq m else fget GCTL_SLACK_THR.s_beam m

/-- R53: this window counts toward the reversal of step `s`. A relieved pipeline that is not monitored in the window does not stand
against it, and a beam step's pipelines are those of its mesh (DESIGN CHOICE, assumption 87). -/
def reversing (s : LadStep) (l : List (Nat × Nat)) (m : Mach) : Bool :=
  let t := stepThr s m + fget GCTL_SLACK_CFG.hyst m
  let ok := (stepPipes s).all fun i => match l.lookup i with
    | some v => decide (t ≤ v)
    | none => true
  ok && (match s with
    | .mute p => !m.lad.charged.contains p
    | _ => true)

/-- restore_windows: 0 acts as 1. -/
def restoreWindows (m : Mach) : Nat := max 1 (fget GCTL_SLACK_CFG.restore_windows m)

/-- The windows in a row whose lowest slack lay above s_lower (R55). -/
def noteLow (s : Nat) (m : Mach) : Mach :=
  { m with lad := { m.lad with low := if fget GCTL_SLACK_THR.s_lower m < s then m.lad.low + 1 else 0 } }

/-- The window's reversal (R53), or with no step beyond step 1 in force its lowering (R55). -/
def relax (l : List (Nat × Nat)) (m : Mach) : Mach :=
  match m.lad.steps with
  | st :: rest =>
    let n := if reversing st l m then m.lad.rev + 1 else 0
    if restoreWindows m ≤ n then { m with lad := { m.lad with steps := rest, rev := 0 } }
    else { m with lad := { m.lad with rev := n } }
  | [] =>
    let c := fget GCTL_AVS_STATUS.req_code m
    if restoreWindows m ≤ m.lad.low ∧ avsFloor m < c then
      avsRequest (max (avsFloor m) (c - avsStep m)) { m with lad := { m.lad with rev := 0, low := 0 } }
    else { m with lad := { m.lad with rev := 0 } }

/-- The ladder over one window (R49 to R55). With ladder_en 0 nothing is taken or reversed. Step 4 is judged on the ladder as this
window's step has left it, and a window with no monitored pipeline neither counts nor changes anything (DESIGN CHOICE,
assumption 87). -/
def runLadder (l : List (Nat × Nat)) (m : Mach) : Mach :=
  if !fon GCTL_SLACK_CFG.ladder_en m || l.isEmpty then m
  else
    let x := lowest l
    let r := takeStep x.1 x.2 (noteLow x.1 m)
    let m1 := r.getD (noteLow x.1 m)
    let ps := muteSteps l m1
    let m2 := each ps (fun p s => setEv GCTL_CORE_EVENTS.mute (pushStep (.mute p) s)) m1
    if r.isSome || !ps.isEmpty then { m2 with lad := { m2.lad with rev := 0 } } else relax l m2

/-- R41: a new window starts with the occupancies that its input bridges have. -/
def startOcc (m : Mach) : Mach :=
  each ((paths64.map fun n => InBridge.rx (toPath n)) ++ ((List.range 8).map fun o => InBridge.obs (toObs o)) ++
      ((List.range 9).map fun i => InBridge.lrx (Fin.ofNat 9 i)) ++ (List.range 3).map fun i => InBridge.mir (Fin.ofNat 3 i))
    (fun b s => noteOcc (inPipe b) (occupancy b s) s) { m with lad := { m.lad with occ := [] } }

/-- SLACK_WINDOW_END, with what the monitor saw of each pipeline. -/
def slackWindowEnd (obs : List PipeObs) (m : Mach) : Mach :=
  if timingOn m then
    let l := slackList obs m
    let m1 := each (List.range 17) (notePipe l) m
    let x := lowest l
    let m2 := fset GCTL_CORE_STATUS.min_slack x.1 (fset GCTL_CORE_STATUS.min_pipe x.2 m1)
    let m3 := runLadder l (avsClamp m2)
    refreshLadder (startOcc { m3 with lad := { m3.lad with charged := [] } })
  else m
def execSlackWindowEnd (obs : List PipeObs) (s : State) : Host.Outcome State Fault Refusal :=
  answerIf (pipesOk obs) s (slackWindowEnd obs s.m)

/-! ### What a slot boundary brings (R49, R52, R53) -/

/-- The pipelines to be muted. -/
def muteWant (m : Mach) : List Nat := m.lad.steps.filterMap fun s => match s with
  | .mute p => some p
  | _ => none

/-- GCTL_SHED_STATUS. -/
def refreshShed (m : Mach) : Mach :=
  let l := m.lad
  let q := (quads4.map fun q => if l.muted.contains q || l.muted.contains (4 + q) then 2 ^ q else 0).sum
  let other := l.muted.any fun p => decide (8 ≤ p ∧ p ≠ 9 ∧ p ≠ 10 ∧ p ≠ 14)
  let sh := (if l.muted.contains 9 then 1 else 0) + (if l.muted.contains 10 then 2 else 0)
    + (if l.muted.contains 14 then 4 else 0) + (if other then 8 else 0)
  refreshLadder (fset GCTL_SHED_STATUS.acq_active (64 - l.acqShed) (fset GCTL_SHED_STATUS.ul_shed l.shedUl
    (fset GCTL_SHED_STATUS.dl_shed l.shedDl (fset GCTL_SHED_STATUS.mute_q q (fset GCTL_SHED_STATUS.mute_shared sh m)))))

/-- The ladder's steps and reversals take effect: beams at the boundary of every slot, acquisition beams at that of an
acquisition slot; a pipeline TXq that is muted now gives its sequencer MUTE (R236). -/
def applyLadder (m : Mach) : Mach :=
  let want := muteWant m
  let new := quads4.filter fun q => want.contains (4 + q) && !m.lad.muted.contains (4 + q)
  let acq := if (curSlot m).ty = 2 then 16 * taken .acq m else m.lad.acqShed
  let m1 := { m with lad := { m.lad with muted := want, acqShed := acq, shedUl := taken .ulBeam m, shedDl := taken .dlBeam m } }
  refreshShed (each new (fun q s => fesNow q 1 s) m1)

end Sys2Proof.Machine
end

