-- ==== Sys2Proof/Machine/RxCal.lean ====
section
/-! DEFINITION. The converters' self-calibration and restore (spec/03, R116 to R122). -/

namespace Sys2Proof.Machine

/-! ### Factor registers (R120, R121) -/

/-- Factor register `w` of a unit: 0 to 39 the factors, 40 the conditions, 41 the check word. -/
def factAddr (u : RxUnit) (w : Nat) : Nat := rxBase u + 0x100 + 4 * w

/-- The writable bits of factor register `w`. -/
def factMask (w : Nat) : W := if w < 40 then 0xFFFF#32 else if w = 40 then 0x00FF03FF#32 else 0xFFFFFFFF#32

/-- A factor register is writable: its quadrant is POWERED_DOWN or IDLE and no calibration or restore runs. -/
def factOpen (u : RxUnit) (m : Mach) : Bool :=
  decide (quadState (rxQuad u) m ≤ 1) && !fon (QUAD_RX_CAL_STATUS.busy (rxQuad u)) m

/-- FACTOR_WRITE: refused with fact_err, or stored; it is applied by the next restore. -/
def factorWrite (u : RxUnit) (w : Nat) (v : W) (m : Mach) : Mach :=
  if factOpen u m then wr (factAddr u w) (v &&& factMask w) m else setEv (QUAD_RX_EVENTS.fact_err u) m
def execFactorWrite (u : RxUnit) (w : Fin 42) (v : W) (s : State) : Host.Outcome State Fault Refusal :=
  answer s (gate (factAddr u w) (factorWrite u w v) s.m)

/-- The 41 words that the check word covers, in address order. -/
def factWords (u : RxUnit) (m : Mach) : List W := (List.range 41).map fun w => rd (factAddr u w) m

/-- R120: the CRC-32 of the 41 words, each as four little-endian bytes. -/
def factCrc (u : RxUnit) (m : Mach) : W := crc32 ((factWords u m).flatMap fun v => leBytes 4 v.toNat)

/-- The factors held in the registers are applied to the converter. -/
def applyFacts (u : RxUnit) (m : Mach) : Mach :=
  setRx (rxKey u) { getRx (rxKey u) m with facts := (factWords u m).take 40 } m

/-! ### The calibration store (R122, R295, R447) -/

/-- Register values go to the calibration store through the journal; with no block for it, store_fail. During a migration the
write waits (R490); a newer store stays as it is (R491). -/
def storeRegs (as_ : List Nat) (m : Mach) : Mach :=
  if fon IMG_STATUS.migrating m then { m with img := { m.img with storeQ := m.img.storeQ ++ as_ } }
  else if nandOut m then setEv CAL_EVENTS.store_fail m
  else if !recOk 1 m then m
  else
    let c := m.nvm.cal.getD { fmt := fmtWrite 1 m, regs := [] }
    let new := as_.foldl (fun t a => tabPut (fun _ => 0#32) t a (rd a m)) c.regs
    { m with nvm := { m.nvm with cal := some { c with regs := new } } }

/-- R122: while save_nvm is 1 a completed set of factors is copied to the store. -/
def saveFacts (q : Nat) (m : Mach) : Mach :=
  if fon (QUAD_RX_CAL_CFG.save_nvm q) m then storeRegs ((unitsOf q).flatMap fun u => (List.range 42).map (factAddr u)) m else m

/-! ### Running (R116 to R120) -/

/-- A calibration (`restore` false) or a restore of quadrant `q` runs. -/
def calRuns (q : Nat) (restore : Bool) (m : Mach) : Mach :=
  setSelfcal q (!restore) (fsetB (QUAD_RX_CAL_STATUS.restoring q) restore (fset (QUAD_RX_CAL_STATUS.busy q) 1 m))

/-- A power-up goes on with this calibration. -/
def phaseCal (q : Nat) (p : QPhase) (m : Mach) : Mach :=
  match (getQ q m).phase with
  | .qpllLock => setPhase q p (getQ q m).target m
  | .restoring => setPhase q p (getQ q m).target m
  | _ => m

/-- A full self-calibration starts. -/
def startFull (q : Nat) (m : Mach) : Mach := phaseCal q .selfcal (calRuns q false m)

/-- A restore starts: with every check word right the factors are applied and verified; otherwise none is, fact_err is set in
each mismatching unit, and a full self-calibration runs (R119, R120). -/
def startRestore (q : Nat) (m : Mach) : Mach :=
  let bad := (unitsOf q).filter fun u => factCrc u m != rd (QUAD_RX_FACT_CHK u) m
  if bad.isEmpty then phaseCal q .restoring (calRuns q true (each (unitsOf q) applyFacts m))
  else startFull q (each bad (fun u s => setEv (QUAD_RX_EVENTS.fact_err u) s) m)

/-- The calibration of a power-up (R116, R119). -/
def startUpCal (q : Nat) (m : Mach) : Mach :=
  if fon (QUAD_RX_CAL_CFG.restore_on_up q) m then startRestore q m else startFull q m

/-- R288: a completed calibration or restore of the quadrant clears unc_hi. -/
def clearUncHi (q : Nat) (m : Mach) : Mach := each (unitsOf q) (fun u s => fset (QUAD_RX_STATUS.unc_hi u) 0 s) m

/-- The bits of QUAD_RX_CAL_STATUS of the quadrant's 18 units. -/
def setCalOk (q : Nat) (ok : BitVec 18) (m : Mach) : Mach :=
  fset (QUAD_RX_CAL_STATUS.obs_ok q) (ok.toNat / 65536) (fset (QUAD_RX_CAL_STATUS.path_ok q) (ok.toNat % 65536) m)

/-- The calibration or restore is over; a power-up that contained it is done. -/
def calOver (q : Nat) (restored : Bool) (m : Mach) : Mach :=
  let m1 := each (unitsOf q) (fun u s => fsetB (QUAD_RX_STATUS.restored u) restored (fset (QUAD_RX_STATUS.cal_valid u) 1 s))
    (setSelfcal q false (fset (QUAD_RX_CAL_STATUS.restoring q) 0 (fset (QUAD_RX_CAL_STATUS.busy q) 0 m)))
  let m2 := setEv (QUAD_RX_CAL_EVENTS.cal_done q) (clearUncHi q m1)
  match (getQ q m2).phase with
  | .selfcal => powerUpDone q m2
  | .restoring => powerUpDone q m2
  | _ => m2

/-- The conditions at a calibration: the quadrant's junction temperature in 0.25 °C (DESIGN CHOICE, assumption 95: the mean of its
sensors), and the last measured VDD_CORE code. -/
def calConditions (q : Nat) (m : Mach) : W :=
  BitVec.ofNat 32 (toBits 10 (Int.fdiv (quadTemp8 q m) 8) + 65536 * fget GCTL_AVS_STATUS.meas_code m)

/-- The factors that a calibration found for one unit, the conditions and the check word are written, and the factors applied
(R118). -/
def writeFacts (u : RxUnit) (c : UnitCal) (m : Mach) : Mach :=
  let m1 := each ((c.facts.take 40).zipIdx) (fun p s => wr (factAddr u p.2) (p.1 &&& factMask 0) s) m
  let m2 := wr (QUAD_RX_FACT_TEMP u) (calConditions (rxQuad u) m) m1
  applyFacts u (wr (QUAD_RX_FACT_CHK u) (factCrc u m2) m2)

/-- R118: a unit whose slice `s` is outside its trim range: cal_fail, and the slice is retired; the spare takes its position
at once (R126), or a failing spare is no spare any more. -/
def calBadSlice (u : RxUnit) (s : Nat) (m : Mach) : Mach :=
  let k := unitKind u
  let p := unitPool u
  let m1 := logRetired k s p 0 (dropSlice u s (setEv (QUAD_RX_CAL_EVENTS.cal_fail (rxQuad u)) m))
  match posOfSlice u s m1 with
  | some _ => sliceNow u s m1
  | none =>
    if sliceAt u 4 m1 = s then
      checkReserve k (refreshKind k (recordSlices u (fset (slicePos u 4) 7
        (setRemap (fun r => { r with bad := tabPut (fun _ => 0) r.bad (poolKey k p) (poolBad k p m1 + 1) }) m1))))
    else m1

/-- RX_SELFCAL_DONE: `res` gives the 16 paths, then the two observation receivers. -/
def selfcalDone (q : Nat) (res : List UnitCal) (m : Mach) : Mach :=
  if fon (QUAD_RX_CAL_STATUS.busy q) m && !fon (QUAD_RX_CAL_STATUS.restoring q) m then
    let us := (unitsOf q).zip res
    let ok := BitVec.ofNat 18 ((us.zipIdx.map fun p => if p.1.2.bad == 0#5 then 2 ^ p.2 else 0).sum)
    let m1 := calOver q false (setCalOk q ok (each us (fun p s => writeFacts p.1 p.2 s) m))
    let m2 := each us (fun p s => each ((List.range 5).filter fun b => p.2.bad.getLsbD b) (calBadSlice p.1) s) m1
    saveFacts q m2
  else m
def execRxSelfcalDone (q : Fin 4) (res : List UnitCal) (s : State) : Host.Outcome State Fault Refusal :=
  answerIf (unitCalsOk res) s (selfcalDone q res s.m)

/-- RESTORE_VERIFY_DONE: every unit verifies, or a full self-calibration of the whole quadrant follows (R119). The set that verifies
is copied to the store as a completed one (DESIGN CHOICE, assumption 93: R122 does not say whether it counts as one). -/
def restoreVerify (q : Nat) (ok : BitVec 18) (m : Mach) : Mach :=
  if fon (QUAD_RX_CAL_STATUS.busy q) m && fon (QUAD_RX_CAL_STATUS.restoring q) m then
    if ok = BitVec.allOnes 18 then saveFacts q (calOver q true (setCalOk q ok m))
    else startFull q (setEv (QUAD_RX_CAL_EVENTS.restore_fail q) m)
  else m
def execRestoreVerifyDone (q : Fin 4) (ok : BitVec 18) (s : State) : Host.Outcome State Fault Refusal :=
  answer s (restoreVerify q ok s.m)

/-! ### Commands (R117) -/

/-- FULL or RESTORE: only an IDLE quadrant in which nothing runs. -/
def rxCal (q : Nat) (restore : Bool) (m : Mach) : Mach :=
  if quadState q m = 1 ∧ fon (QUAD_RX_CAL_STATUS.busy q) m = false then
    if restore then startRestore q m else startFull q m
  else setEv (QUAD_RX_CAL_EVENTS.cal_refused q) m
def execRxCalFull (q : Fin 4) (s : State) : Host.Outcome State Fault Refusal :=
  answer s (gate (QUAD_RX_CAL_CMD q) (rxCal q false) s.m)
def execRxCalRestore (q : Fin 4) (s : State) : Host.Outcome State Fault Refusal :=
  answer s (gate (QUAD_RX_CAL_CMD q) (rxCal q true) s.m)

/-- A write of QUAD_RX_CAL_CMD. -/
def rxCalCmd (q : Nat) (v : W) (m : Mach) : Mach :=
  if wfld v 16 16 ≠ 0x5C1A then setEv (QUAD_RX_CAL_EVENTS.cal_refused q) m
  else match wfld v 0 2 with
    | 0 => m
    | 1 => rxCal q false m
    | 2 => rxCal q true m
    | _ => setEv (QUAD_RX_CAL_EVENTS.cal_refused q) m
def execRxCalCmdInvalid (q : Fin 4) (v : W) (s : State) : Host.Outcome State Fault Refusal :=
  answer s (gate (QUAD_RX_CAL_CMD q) (rxCalCmd q v) s.m)

end Sys2Proof.Machine
end

