-- ==== Sys2Proof/Machine/Clock.lean ====
section
/-! DEFINITION. The clock system (spec/13, R391 to R414; spec/15, R445): the loops' locks, losses, coasting and recovery, the
class B request, steering, and the configuration writes of the CLK block. -/

namespace Sys2Proof.Machine

def setClk (f : ClkSt → ClkSt) (m : Mach) : Mach := { m with clk := f m.clk }

/-- A configuration write that is not applied. -/
def clkErr (m : Mach) : Mach := setEv CLK_EVENTS.cfg_err m

/-! ### Configuration writes (R391, R395, R410) -/

/-- R395: the seed and the dither in force. -/
def seedInForce (m : Mach) : Mach :=
  setClk (fun x => { x with seed := fget CLK_SEED.seed m, dither := fon CLK_REF_CFG.dither_en m }) m
/-- A new seed or dither is in force from the next frame boundary; while the frame timing is stopped, at once (R23). -/
def seedStaged (m : Mach) : Mach := if timingOn m then m else seedInForce m

/-- CLK_SEED_WRITE: a seed of 0 is not applied. -/
def clkSeedWrite (v : W) (m : Mach) : Mach :=
  if wfld v 0 24 = 0 then clkErr m else seedStaged (wr CLK_SEED (v &&& 0xFFFFFF#32) m)
def execClkSeedWrite (v : W) (s : State) : Host.Outcome State Fault Refusal := answer s (gate CLK_SEED (clkSeedWrite v) s.m)

/-- REF_CFG_WRITE: ref_sel 3, or a change of ref_sel while the MPLL is locked, is not applied. -/
def refCfgWrite (v : W) (m : Mach) : Mach :=
  let r := wfld v 0 2
  if r = 3 ∨ (r ≠ fget CLK_REF_CFG.ref_sel m ∧ mpllLocked m = true) then clkErr m
  else seedStaged (wr CLK_REF_CFG (v &&& 0x17F03#32) m)
def execRefCfgWrite (v : W) (s : State) : Host.Outcome State Fault Refusal := answer s (gate CLK_REF_CFG (refCfgWrite v) s.m)

/-- ADC clocks in a tick. -/
def adcPerTick (m : Mach) : Nat := adcPer16 m / 16

/-- SYNC_CFG_WRITE: sync_mode 3, or a sync_dly that is no whole number of ticks, is not applied. -/
def syncCfgWrite (v : W) (m : Mach) : Mach :=
  if wfld v 0 2 = 3 ∨ wfld v 2 10 % adcPerTick m ≠ 0 then clkErr m else wr CLK_SYNC_CFG (v &&& 0xFFF#32) m
def execSyncCfgWrite (v : W) (s : State) : Host.Outcome State Fault Refusal :=
  answer s (gate CLK_SYNC_CFG (syncCfgWrite v) s.m)

/-! ### Steering (R414) -/

/-- Some loop coasts. -/
def anyCoast (m : Mach) : Bool := quads4.any fun q => coasts q m

/-- A steering value is applied where it lies in range and within 200 units of the value in force. -/
def applySteer (v : W) (m : Mach) : Mach :=
  let x := sext 16 (wfld v 0 16)
  let old := sext 16 (fget CLK_STEER.steer m)
  if -20000 ≤ x ∧ x ≤ 20000 ∧ -200 ≤ x - old ∧ x - old ≤ 200 then
    mirror 0 (.steer v) (fset CLK_STEER.steer (wfld v 0 16) m)
  else setEv CLK_EVENTS.steer_err m

/-- CLK_STEER_WRITE: held while a loop coasts. -/
def clkSteerWrite (v : W) (m : Mach) : Mach :=
  if anyCoast m then setClk (fun x => { x with steerHeld := some v }) m else applySteer v m
def execClkSteerWrite (v : W) (s : State) : Host.Outcome State Fault Refusal := answer s (gate CLK_STEER (clkSteerWrite v) s.m)

/-- A held steering write applies once no loop coasts. -/
def steerRelease (m : Mach) : Mach :=
  match m.clk.steerHeld with
  | some v => if anyCoast m then m else applySteer v (setClk (fun x => { x with steerHeld := none }) m)
  | none => m

/-! ### Gating (R399, R407, R408) -/

/-- The converter clocks of quadrant `q` are gated, its DACs at midscale: its transmit bridges freeze, and the sampling grid gives GAP
(R44, R399, R407). -/
def gateQuad (q : Nat) (m : Mach) : Mach := refreshFes q (setGated q true (each (pathsOf q) dacMid m))

/-- The loop that gates quadrant `q` beyond its coast limit. -/
def limitGated (q : Nat) (m : Mach) : Bool := m.clk.gatedLoops.contains 0 || m.clk.gatedLoops.contains (1 + q)

/-- The quadrants whose QPLL runs. -/
def quadsOn (m : Mach) : List Nat := quads4.filter fun q => fget (CLK_STATUS.qpll_q q) m != 0

/-- The converter clocks of quadrant `q` are released: its bridges are flushed, and outputs stay GAP until the first frame boundary
after (R44, R408). -/
def releaseQuad (q : Nat) (m : Mach) : Mach := refreshFes q (addFlush (1 + q) (flushBridges (1 + q) (setGated q false m)))

/-! ### Loss and coasting (R405, R406) -/

/-- A loop (0 MPLL, 1 + q) begins to coast now. -/
def coastBegin (k : Nat) (m : Mach) : Mach :=
  setClk (fun x => { x with coastFrom := tabPut (fun _ => 0) x.coastFrom k (tick m) }) (fset CLK_STATUS.tod_traceable 0 m)

/-- The MPLL coasts, if it was locked. -/
def coastMpll (m : Mach) : Mach :=
  if mpllLocked m then setEv CLK_EVENTS.mpll_unlock (fset CLK_STATUS.mpll 4 (coastBegin 0 m)) else m

/-- The reference is lost or bad: the LPLL and the MPLL coast. While the core does not run nothing watches it. -/
def refGone (f : Fld) (m : Mach) : Mach :=
  if coreOn m = false then fset CLK_STATUS.ref_present 0 m
  else coastMpll (fset CLK_STATUS.lpll_lock 0 (fset CLK_STATUS.ref_present 0 (setEv f m)))

/-- REF_LOSS. -/
def execRefLoss (s : State) : Host.Outcome State Fault Refusal :=
  answer s (refGone CLK_EVENTS.ref_lost (fsetB GCTL_DEV_STATE.ref_absent (coreOn s.m) s.m))
/-- REF_BAD. -/
def execRefBad (s : State) : Host.Outcome State Fault Refusal := answer s (refGone CLK_EVENTS.ref_bad s.m)
/-- MPLL_LOCK_LOSS. -/
def execMpllLockLoss (s : State) : Host.Outcome State Fault Refusal := answer s (coastMpll s.m)

/-- QPLL_LOCK_LOSS: the QPLL of quadrant `q` coasts, if it was locked. -/
def coastQpll (q : Nat) (m : Mach) : Mach :=
  if fget (CLK_STATUS.qpll_q q) m = 2 then
    setEv CLK_EVENTS.qpll_unlock (fset (CLK_STATUS.qpll_q q) 3 (coastBegin (1 + q) m))
  else m
def execQpllLockLoss (q : Fin 4) (s : State) : Host.Outcome State Fault Refusal := answer s (coastQpll q s.m)

/-- Loop `k` (0 MPLL, 1 + q) coasts. -/
def loopCoasts (k : Nat) (m : Mach) : Bool :=
  if k = 0 then fget CLK_STATUS.mpll m == 4 else fget (CLK_STATUS.qpll_q (k - 1)) m == 3

/-- R407: the coast limit in ticks; coast_lim 0 acts as 1, above 100 as 100. -/
def coastTicks (m : Mach) : Nat := 245760 * clampN 1 100 (fget CLK_REF_CFG.coast_lim m)

/-- At tick `t` loop `k` has coasted up to its limit, and gates nothing yet. -/
def limitDue (k t : Nat) (m : Mach) : Bool :=
  loopCoasts k m && !m.clk.gatedLoops.contains k && decide (tabGet (fun _ => 0) m.clk.coastFrom k + coastTicks m ≤ t)

/-- The quadrants that loop `k` clocks. -/
def loopQuads (k : Nat) (m : Mach) : List Nat := if k = 0 then quadsOn m else [k - 1]

/-- R407: loop `k` has reached its limit at a slot boundary: the quadrants behind it are gated; a fault of its twin class (R463). -/
def gateLoop (k : Nat) (m : Mach) : Mach :=
  let m1 := setEv CLK_EVENTS.coast_limit (setClk (fun x => { x with gatedLoops := k :: x.gatedLoops }) m)
  twinFault (if k = 0 then 1 else 7) (each (loopQuads k m) gateQuad m1)

/-- The loops at their limit at the slot boundary that starts. -/
def coastLimits (m : Mach) : Mach :=
  each ((List.range 5).filter fun k => limitDue k m.slotStart m) gateLoop m

/-- A loop's number. -/
def loopKey : Loop → Nat
  | .mpll => 0
  | .qpll q => 1 + q

/-! ### Recovery (R408) -/

/-- A loop that was gated is released: the quadrants that no other loop holds. -/
def ungate (k : Nat) (qs : List Nat) (m : Mach) : Mach :=
  if m.clk.gatedLoops.contains k then
    let m1 := setClk (fun x => { x with gatedLoops := x.gatedLoops.filter (· != k) }) m
    each qs (fun q s => if limitGated q s then s else releaseQuad q s) m1
  else m

/-- The MPLL is locked: its reference is there, and a held steering write applies. -/
def mpllUp (m : Mach) : Mach :=
  steerRelease (fset GCTL_DEV_STATE.ref_absent 0 (fset CLK_STATUS.ref_present 1 (fset CLK_STATUS.mpll 3 m)))

/-- LOOP_RECOVERY: within the coast limit nothing is gated and COAST tagging ends; after it the clocks are released. -/
def loopRecovery (l : Loop) (m : Mach) : Mach :=
  match l with
  | .mpll =>
    if fget CLK_STATUS.mpll m = 4 then setEv CLK_EVENTS.relocked (ungate 0 (quadsOn m) (mpllUp m)) else m
  | .qpll q =>
    if fget (CLK_STATUS.qpll_q q) m = 3 ∧ mpllLocked m = true then
      setEv CLK_EVENTS.relocked (ungate (1 + q) [q.val] (steerRelease (fset (CLK_STATUS.qpll_q q) 2 m)))
    else m
def execLoopRecovery (l : Loop) (s : State) : Host.Outcome State Fault Refusal := answer s (loopRecovery l s.m)

/-! ### Locks (R396 to R398, R445) -/

/-- The plan for which the MPLL locks: that of a class B change that runs, else the plan in force. -/
def lockPlan (m : Mach) : Nat :=
  match m.clk.classB with
  | some c => if c.running then c.plan else fget CLK_STATUS.plan m
  | none => fget CLK_STATUS.plan m

/-- R397: slot `s` holds a search for the plan and reference in force. -/
def slotMatches (s : Nat) (m : Mach) : Bool :=
  fon (CLK_SEARCH_SLOT.valid s) m && fget (CLK_SEARCH_SLOT.plan s) m == lockPlan m &&
    fget (CLK_SEARCH_SLOT.ref_sel s) m == fget CLK_REF_CFG.ref_sel m

/-- The MPLL starts a lock: from slot `s`, or with a full search that stores into it (R396). -/
def startMpll (stored : Bool) (s : Nat) (m : Mach) : Mach :=
  fset CLK_STATUS.mpll (if stored then 2 else 1) (setClk (fun x => { x with lockSlot := s }) m)

/-- R396, R397: the lock at BOOT, or a relock: from the slot numbered by the plan where it is valid, else a full search. -/
def startPlanLock (m : Mach) : Mach := let s := lockPlan m; startMpll (slotMatches s m) s m

/-- R396: a completed full search is written into its slot, and to NVM. -/
def storeSearch (band : BitVec 6) (qbands : BitVec 20) (tj : BitVec 10) (m : Mach) : Mach :=
  let s := m.clk.lockSlot
  let v : W := BitVec.ofNat 32
    (band.toNat + 64 * lockPlan m + 128 * fget CLK_REF_CFG.ref_sel m + 512 + 1024 * tj.toNat)
  let m1 := setClk (fun x => { x with qbands := tabPut (fun _ => 0#20) x.qbands s qbands }) (wr (CLK_SEARCH_SLOT s) v m)
  if nandOut m then setEv HLT_EVENTS.plog_fail m1
  else if !recOk 3 m then m1
  else { m1 with nvm := { m1.nvm with
    search := tabPut (fun _ => 0#32) m1.nvm.search s v, searchQ := tabPut (fun _ => 0#20) m1.nvm.searchQ s qbands } }

/-- A quadrant whose power-up waits for the MPLL starts its QPLL (R398). -/
def startQpll (q : Nat) (m : Mach) : Mach :=
  if (getQ q m).phase = .waitMpll then
    setPhase q .qpllLock (getQ q m).target (setGated q true (fset (CLK_STATUS.qpll_q q) 1 m))
  else m

/-- R445: a failed MPLL that locks on a retry releases the clocks of the quadrants whose QPLL is locked. -/
def mpllRescued (m : Mach) : Mach :=
  if m.clk.mpllFailed then
    let m1 := setClk (fun x => { x with mpllFailed := false, gatedLoops := x.gatedLoops.filter (· != 0) }) m
    each (quads4.filter fun q => decide (2 ≤ fget (CLK_STATUS.qpll_q q) m))
      (fun q s => if limitGated q s then s else releaseQuad q s) (setEv CLK_EVENTS.relocked m1)
  else m

/-- MPLL_LOCK: the lock in progress is complete. `bands` and `tj` are what a full search found. -/
def mpllLock (bands : BitVec 26) (tj : BitVec 10) (m : Mach) : Mach :=
  let st := fget CLK_STATUS.mpll m
  if st = 1 then each quads4 startQpll (mpllRescued (mpllUp (storeSearch (bands.extractLsb' 0 6) (bands.extractLsb' 6 20) tj m)))
  else if st = 2 ∧ slotMatches m.clk.lockSlot m = true then each quads4 startQpll (mpllRescued (mpllUp m))
  else m
def execMpllLock (bands : BitVec 26) (tj : BitVec 10) (s : State) : Host.Outcome State Fault Refusal :=
  answer s (mpllLock bands tj s.m)

/-- MPLL_SLOT_VERIFY: a stored lock that failed, or whose slot does not match, becomes a full search. -/
def mpllSlotVerify (locked : Bool) (m : Mach) : Mach :=
  if fget CLK_STATUS.mpll m = 2 ∧ ¬(locked = true ∧ slotMatches m.clk.lockSlot m = true) then
    setEv CLK_EVENTS.search_stale (fset CLK_STATUS.mpll 1 m)
  else m
def execMpllSlotVerify (locked : Bool) (s : State) : Host.Outcome State Fault Refusal := answer s (mpllSlotVerify locked s.m)

/-- QPLL_LOCK: the QPLL is locked. In a power-up the self-calibration or restore starts; a relock outside a class B change
releases the clocks (R398, R408). -/
def qpllLock (q : Nat) (m : Mach) : Mach :=
  if fget (CLK_STATUS.qpll_q q) m = 1 ∧ mpllLocked m = true then
    let m1 := fset (CLK_STATUS.qpll_q q) 2 m
    if (getQ q m).phase = .qpllLock then startUpCal q (setGated q false m1)
    else if fon CLK_STATUS.classb m ∨ limitGated q m = true then m1
    else setEv CLK_EVENTS.relocked (releaseQuad q m1)
  else m
def execQpllLock (q : Fin 4) (s : State) : Host.Outcome State Fault Refusal := answer s (qpllLock q s.m)

/-- R393: the frame timing is paced from the housekeeping oscillator. -/
def paceHk (m : Mach) : Mach := fset CLK_STATUS.tod_traceable 0 (fset CLK_STATUS.hk_paced 1 m)

/-- The MPLL is failed: quadrants on their way up stay down; a class B change does not complete (R445). -/
def failMpll (m : Mach) : Mach :=
  let m1 := setClk (fun x => { x with mpllFailed := true }) (fset CLK_STATUS.mpll 0 m)
  let m2 := match m1.clk.classB with
    | some c => if c.running then
        pumpPlanned (fset CLK_STATUS.plan c.plan (fset CLK_STATUS.classb 0 (setClk (fun x => { x with classB := none }) m1)))
      else m1
    | none => m1
  let down := each quads4 (fun q s =>
    if quadState q s = 0 ∧ devState m ≤ 3 then setPhase q .rest 0 (setGated q false (fset (CLK_STATUS.qpll_q q) 0 s)) else s) m2
  raiseReplace HLT_REPLACE.pll (if timingOn m then paceHk down else down)

/-- MPLL_RETRY: each 1 s a failed MPLL searches again, for the plan in force. -/
def mpllRetry (m : Mach) : Mach :=
  if m.clk.mpllFailed then startMpll false (fget CLK_STATUS.plan m) m else m
def execMpllRetry (s : State) : Host.Outcome State Fault Refusal := answer s (mpllRetry s.m)

/-! ### The class B request (R401) -/

/-- The first frame boundary at tick `t` or later, with a frame table that waits taken into account. -/
def frameFrom (t : Nat) (m : Mach) : Nat :=
  let up (b len : Nat) : Nat := if t ≤ b then b else b + (t - b + len - 1) / max 1 len * len
  let b0 := nextFrameTick m
  match m.clk.fsPend with
  | none => up b0 m.ftab.len
  | some (t1, tab) =>
    let s := if t1 ≤ b0 then b0 else b0 + (t1 - b0 + m.ftab.len - 1) / max 1 m.ftab.len * m.ftab.len
    if t ≤ s then up b0 m.ftab.len else up s tab.len

/-- CLASS_B_REQUEST: a command is accepted under R401, or refused with cmd_refused. -/
def classBRequest (v : W) (m : Mach) : Mach :=
  let plan := wfld v 0 1
  let ok := decide (wfld v 16 16 = 0x9C27) && timingOn m && mpllLocked m && deckLoaded m &&
    m.img.deckFlags.testBit (1 + plan) && decide (plan ≠ fget CLK_STATUS.plan m) && !fon CLK_STATUS.classb m
  if ok then
    let f := frameFrom (tick m + 8192) m
    mirror 0 (.classB v (BitVec.ofNat 64 f)) (fset CLK_STATUS.classb 1
      (setClk (fun x => { x with classB := some ⟨plan, v.getLsbD 1, wfld v 2 4, f, false⟩ }) m))
  else setEvDie 1 CLK_EVENTS.cmd_refused m
def execClassBRequest (v : W) (s : State) : Host.Outcome State Fault Refusal :=
  answer s (gate CLK_PLAN_CMD (classBRequest v) s.m)

/-- CLASS_B_RELEASE: MPLL and QPLLs are locked; the converter clocks are released in the target plan (R402). -/
def classBRelease (m : Mach) : Mach :=
  match m.clk.classB with
  | some c =>
    if c.running ∧ mpllLocked m = true ∧ (quadsOn m).all (fun q => fget (CLK_STATUS.qpll_q q) m == 2) = true then
      let m1 := setClk (fun x => { x with classB := none }) (fset CLK_STATUS.classb 0 (fset CLK_STATUS.plan c.plan m))
      let m2 := each (quadsOn m) (fun q s => if limitGated q s then s else releaseQuad q s) m1
      pumpPlanned (setEv CLK_EVENTS.classb_done m2)
    else m
  | none => m
def execClassBRelease (s : State) : Host.Outcome State Fault Refusal := answer s (classBRelease s.m)

/-! ### SYNC in monitor mode, the time of day (R409, R411, R413) -/

/-- An edge is seen: its phase, the count of edges, and whether it lay near a sampling edge. -/
def syncSeen (phase : BitVec 6) (m : Mach) : Mach :=
  let m1 := fset CLK_SYNC_STATUS.edges (fget CLK_SYNC_STATUS.edges m + 1) (fset CLK_SYNC_STATUS.phase phase.toNat m)
  setEvIf (decide (phase.toNat ≤ 3 ∨ 61 ≤ phase.toNat)) CLK_EVENTS.sync_near m1

/-- SYNC_MONITOR: `adc` is the ADC clock that first sampled SYNC high, counted from tick count 0. -/
def syncMonitor (adc : Nat) (phase : BitVec 6) (m : Mach) : Mach :=
  if fget CLK_SYNC_CFG.sync_mode m = 2 ∧ timingOn m then
    let len := m.ftab.len * adcPerTick m
    let d := ((adc + fget CLK_SYNC_CFG.sync_dly m : Nat) : Int) - (m.frameStart * adcPerTick m : Nat)
    let r := d % (max 1 len : Nat)
    let e := if (len : Int) < 2 * r then r - len else r
    let m1 := fset CLK_SYNC_STATUS.err (toBits 10 (satS 10 e)) (syncSeen phase m)
    if e ≠ 0 then setEv CLK_EVENTS.sync_mis m1
    else if mpllLocked m = true ∧ m.clk.aligned = true then fset CLK_STATUS.tod_traceable 1 m1 else m1
  else m
def execSyncMonitor (adc : Nat) (phase : BitVec 6) (s : State) : Host.Outcome State Fault Refusal :=
  answer s (syncMonitor adc phase s.m)

/-- R413: CLK_TOD_HI, CLK_TOD_FS and CLK_TOD_TIS latch; the value of CLK_TOD_LO. -/
def todLatch (m : Mach) : W × Mach :=
  let t := tick m
  (BitVec.ofNat 32 t, wr CLK_TOD_HI (BitVec.ofNat 32 (t / 2 ^ 32))
    (wr CLK_TOD_FS (BitVec.ofNat 32 (m.frameNo % 2 ^ 24 + 2 ^ 24 * (m.slot % 256)))
      (wr CLK_TOD_TIS (BitVec.ofNat 32 ((t - m.slotStart) % 2 ^ 22)) m)))

/-- TOD_READ. -/
def todRead (m : Mach) : Mach := let r := todLatch m; send (.rdata r.1) r.2
def execTodRead (s : State) : Host.Outcome State Fault Refusal := answer s (gate CLK_TOD_LO todRead s.m)

end Sys2Proof.Machine
end

