-- ==== Sys2Proof/Machine/Estimate.lean ====
section
/-! DEFINITION. From a trick's measurement to a correction (R270 to R275): the reference tones, the production and board tables,
the responses h, their inverses fitted over the tones; the corrections' registers. -/

namespace Sys2Proof.Machine

def setCal (f : CalSt → CalSt) (m : Mach) : Mach := { m with cal := f m.cal }

/-! ### The reference tones (R270 to R272) -/

/-- The tones in kHz, from the first register and the frequency register. -/
def calTones (cfg freq : W) : List Nat :=
  (List.range (wfld cfg 0 5)).map fun i => wfld freq 0 22 + i * max 1 (wfld cfg 8 10) * 240
def tones (m : Mach) : List Nat := calTones (rd CAL_REF_CFG m) (rd CAL_REF_FREQ m)

/-- fs in kHz in the plan in force. -/
def fsKhz (m : Mach) : Nat := if fget CLK_STATUS.plan m = 0 then 2457600 else 2949120

/-- R105, R270: a tone lies within 0.30 to 3.80 GHz and in the zone of code `z`, 1 % of fs from its ends. -/
def toneInZone (m : Mach) (z f : Nat) : Bool :=
  let h := fsKhz m / 2
  decide (300000 ≤ f ∧ f ≤ 3800000 ∧ 100 * (z * h) + fsKhz m ≤ 100 * f ∧ 100 * f + fsKhz m ≤ 100 * ((z + 1) * h))

/-- R271: the tones are in order: 1 to 16 of them, all in the zone in force of one of the deck's paths. -/
def tonesOk (cfg freq : W) (m : Mach) : Bool :=
  let n := wfld cfg 0 5
  decide (1 ≤ n ∧ n ≤ 16) && paths64.any fun p =>
    (calTones cfg freq).all (toneInZone m (fget (QUAD_RX_STATUS.zone (.path (toPath p))) m))

/-- The span of a rising list. -/
def spanOf (l : List Nat) : Nat := l.getLastD 0 - l.headD 0

/-- R272: delay_ok: the tones span at least 500 MHz. -/
def refreshDelayOk (m : Mach) : Mach := fsetB CAL_STATUS.delay_ok (decide (500000 ≤ spanOf (tones m))) m

/-- CAL_REF_WRITE of CAL_REF_FREQ (`freq`) or CAL_REF_CFG. -/
def calRefWrite (freq : Bool) (v : W) (m : Mach) : Mach :=
  let c := if freq then rd CAL_REF_CFG m else v &&& 0x3FF1F#32
  let f := if freq then v &&& 0x3FFFFF#32 else rd CAL_REF_FREQ m
  if tonesOk c f m then refreshDelayOk (wr CAL_REF_CFG c (wr CAL_REF_FREQ f m)) else setEv CAL_EVENTS.cfg_err m
def execCalRefWrite (freq : Bool) (v : W) (s : State) : Host.Outcome State Fault Refusal :=
  answer s (gate (if freq then CAL_REF_FREQ else CAL_REF_CFG) (calRefWrite freq v) s.m)

/-- The mesh carrier of a direction in kHz, and the mesh rate in kHz. -/
def meshFc (dl : Bool) (m : Mach) : Nat := if dl then fget BMU_DL_FC.fc m else fget BMU_UL_FC.fc m
def meshKhz (dl : Bool) (m : Mach) : Nat := fsKhz m / 2 ^ (if dl then 2 + fget BMU_CFG.dl_u m else fget BMU_CFG.ul_stages m)

/-- R272: a tone lies within 0.45 times the mesh rate of the carrier. -/
def toneNear (dl : Bool) (m : Mach) (f : Nat) : Bool := decide (100 * ((f : Int) - meshFc dl m).natAbs ≤ 45 * meshKhz dl m)
/-- The tones in band. -/
def inBand (dl : Bool) (m : Mach) : List Nat := (tones m).filter (toneNear dl m)

/-! ### Kinds, classes and words -/

/-- A kind measures the transmit direction; it is array-side. -/
def kindTx (k : Nat) : Bool := k % 2 == 1
def kindArr (k : Nat) : Bool := decide (2 ≤ k)

/-- The group of four words of CAL_PATH_n that a kind measures: receive device, receive array, transmit device, transmit
array. -/
def kindWord (k : Nat) : Nat := 4 * (if k = 0 then 0 else if k = 2 then 1 else if k = 1 then 2 else 3)
def corrReg (n k i : Nat) : Nat := CAL_PATH_w n (kindWord k + i)

/-- Keys of a path's kind, and of a path's direction. -/
def corrKey (n k : Nat) : Nat := 4 * n + k
def dirKey (n : Nat) (tx : Bool) : Nat := 2 * n + if tx then 1 else 0

/-- A correction in its registers: amplitude, phase, delay. -/
def corrAmp (n k : Nat) (m : Mach) : Int := sext 20 (rd (corrReg n k 0) m).toNat
def corrPhase (n k : Nat) (m : Mach) : Int := ((rd (corrReg n k 1) m).toNat % 2 ^ 20 : Nat)
def corrDelay (n k : Nat) (m : Mach) : Int := sext 24 (rd (corrReg n k 2) m).toNat
def setCorr (n k : Nat) (amp phase : Int) (m : Mach) : Mach :=
  wr (corrReg n k 0) (BitVec.ofNat 32 (toBits 20 (satS 20 amp))) (wr (corrReg n k 1) (BitVec.ofNat 32 (toBits 20 phase)) m)
def setCorrDelay (n k : Nat) (d : Int) (m : Mach) : Mach := wr (corrReg n k 2) (BitVec.ofNat 32 (toBits 24 (satS 24 d))) m
def corrSource (n k : Nat) (m : Mach) : Nat := wfld (rd (corrReg n k 3) m) 30 2
def setCorrSource (n k x : Nat) (m : Mach) : Mach := fset ⟨corrReg n k 3, 30, 2⟩ x m

/-- The slope of a correction's amplitude over the frequency, in 2^−60 dB per kHz. -/
def corrSlope (n k : Nat) (m : Mach) : Int := tabGet (fun _ => 0) m.cal.slope (corrKey n k)
def setSlope (n k : Nat) (x : Int) (m : Mach) : Mach :=
  setCal (fun c => { c with slope := tabPut (fun _ => 0) c.slope (corrKey n k) x }) m

/-! ### Responses over the frequency -/

/-- The response at frequency `f` of a list that rises in frequency: a level and a phase, interpolated linearly, the end values
held outside. -/
def respAt : List (Nat × Int × Int) → Nat → Int × Int
  | [], _ => (0, 0)
  | [a], _ => a.2
  | a :: b :: l, f =>
    if f ≤ a.1 then a.2
    else if f < b.1 then
      let w (x y : Int) : Int := x + (y - x) * (f - a.1 : Nat) / (b.1 - a.1 : Nat)
      (w a.2.1 b.2.1, w a.2.2 b.2.2)
    else respAt (b :: l) f

def respAdd (a b : Int × Int) : Int × Int := (a.1 + b.1, a.2 + b.2)
def respSub (a b : Int × Int) : Int × Int := (a.1 - b.1, a.2 - b.2)

/-- The level and the phase of tone `i`'s ratio. -/
def toneResp (i : Nat) (r : Int × Int) : Int × Int :=
  if r = (0, 0) then Config.toneFree i else (fxDb (r.1.natAbs ^ 2 + r.2.natAbs ^ 2) (2 ^ 60), fxArg r.1 r.2)

/-! ### The tables (R273, R274) -/

/-- R274: the board table is valid. -/
def boardOk (m : Mach) : Bool := fon CAL_BOARD_VER.valid m

/-- R274: the place of port `n`'s entry at frequency number `i`, injection (`e` 0) or observation, and that frequency. -/
def boardOff (b : List Byte) (n i e : Nat) : Nat := 48 + 8 * (2 * (leAt b 2 1 * n + i) + e)
def boardFreq (b : List Byte) (i : Nat) : Nat := leAt b (16 + 4 * i) 4

/-- R274: the board table's response of port `n` at `f`; 1 without a table. -/
def boardResp (n e f : Nat) (m : Mach) : Int × Int :=
  let b := deckSect 9 m
  if boardOk m then
    respAt ((List.range (leAt b 2 1)).map fun i => (boardFreq b i, fxOf (sext 16 (leAt b (boardOff b n i e) 2)) 1000,
      fxOf (sext 16 (leAt b (boardOff b n i e + 2) 2)) 36000)) f
  else (0, 0)

/-- R274, R291: the board table's uncertainty of port `n` at `f`, in 0.0001 dB and 0.001°. -/
def boardUnc (n e f : Nat) (m : Mach) : Nat × Nat :=
  let b := deckSect 9 m
  let u := respAt ((List.range (leAt b 2 1)).map fun i => (boardFreq b i, (10 * leAt b (boardOff b n i e + 4) 2 : Int),
      (10 * leAt b (boardOff b n i e + 6) 2 : Int))) f
  (u.1.toNat, u.2.toNat)

/-- R273: the production table's responses at `f`; 1 where its CRC failed. -/
def prodBus (u f : Nat) (m : Mach) : Int × Int := if m.nvm.remap.prodBad then (0, 0) else Config.prodBus u f
def prodCpl (n f : Nat) (m : Mach) : Int × Int := if m.nvm.remap.prodBad then (0, 0) else Config.prodCpl n f

/-! ### The responses h (R275) -/

/-- The receiver that measures kind 3 for path `n`, 2q + this bit. -/
def obsBit (n : Nat) (m : Mach) : Nat := if (fget (CAL_OBS_MAP.paths (n / 16)) m).testBit (n % 16) then 1 else 0

/-- The pilot of a kind for path `n`. -/
def pilotOf (k n : Nat) (m : Mach) : Nat := 2 * (n / 16) + 1 - if k = 3 then obsBit n m else 0

/-- A path's device-side response: the one last measured, else the inverse of the correction in force (DESIGN CHOICE, assumption
92). -/
def devResp (k n f : Nat) (m : Mach) : Int × Int :=
  match tabGet (fun _ => []) m.cal.resp (corrKey n k) with
  | [] =>
    let fc := if kindTx k then m.cal.fcDl else m.cal.fcUl
    (-(fxOf (corrAmp n k m) 10000 + corrSlope n k m * ((f : Int) - fc)),
      f * corrDelay n k m * fxOne / 10 ^ 12 - fxOf (corrPhase n k m) (2 ^ 20))
  | l => respAt l f

/-- h_obs of receiver 2q + j, relative to the pilot of the kind that uses it: that of 2q as measured, that of 2q + 1 its inverse
(DEDUCED, assumption 92: each stands for one receiver's response over the other's). -/
def obsResp (q j f : Nat) (m : Mach) : Int × Int :=
  let h := respAt (tabGet (fun _ => []) m.cal.obsResp q) f
  if j = 0 then h else (-h.1, -h.2)

/-- R275: h of path `n` at a tone `f` from its ratio `r`; table entries are relative to the pilot's bus entry. -/
def kindResp (k n f : Nat) (r : Int × Int) (m : Mach) : Int × Int :=
  let q := n / 16
  let rel (x : Int × Int) : Int × Int := respSub x (prodBus (64 + pilotOf k n m) f m)
  match k with
  | 0 => respSub r (rel (prodBus n f m))
  | 1 => respSub r (respAdd (rel (prodCpl n f m)) (obsResp q 0 f m))
  | 2 => respSub r (respAdd (rel (boardResp n 0 f m)) (devResp 0 n f m))
  | _ => respSub r (respAdd (devResp 1 n f m) (respAdd (rel (boardResp n 1 f m)) (obsResp q (obsBit n m) f m)))

/-- The tones that a kind's fit takes, each with its number: an array-side kind those in band. -/
def kindTones (k : Nat) (m : Mach) : List (Nat × Nat) :=
  (tones m).zipIdx.filter fun t => !kindArr k || toneNear (kindTx k) m t.1

/-- `x` moved by whole turns to within half a turn of `p`. -/
def nearTurn (p x : Int) : Int := p + ((x - p + fxOne / 2) % fxOne - fxOne / 2)
/-- The phases of a list of responses, each within half a turn of the one before it. -/
def unwrap : Option Int → List (Nat × Int × Int) → List (Nat × Int × Int)
  | _, [] => []
  | none, a :: l => a :: unwrap (some a.2.2) l
  | some p, a :: l => (a.1, a.2.1, nearTurn p a.2.2) :: unwrap (some (nearTurn p a.2.2)) l

/-- The responses of path `n` at the tones of a kind, from the ratios `r` of all tones. -/
def kindResps (k n : Nat) (r : List (Int × Int)) (m : Mach) : List (Nat × Int × Int) :=
  unwrap none ((kindTones k m).map fun t => (t.1, kindResp k n t.1 (toneResp t.2 (r.getD t.2 (0, 0))) m))

/-- R275: h_obs(2q) at the tones, from the ratios of receiver 2q. -/
def obsResps (q : Nat) (r : List (Int × Int)) (m : Mach) : List (Nat × Int × Int) :=
  unwrap none ((kindTones 0 m).map fun t => (t.1, respSub (toneResp t.2 (r.getD t.2 (0, 0)))
    (respSub (prodBus (64 + 2 * q) t.1 m) (prodBus (65 + 2 * q) t.1 m))))

/-! ### The fit (R275) -/

/-- The slope and the value at `x` of the straight line of least squares through points (DESIGN CHOICE, assumption 92); of one point, or
of points at one place, a flat line. -/
def lineSlope (l : List (Int × Int)) : Int :=
  let n : Int := l.length
  let sx := (l.map Prod.fst).sum
  let d := n * (l.map fun p => p.1 * p.1).sum - sx * sx
  if d = 0 then 0 else (n * (l.map fun p => p.1 * p.2).sum - sx * (l.map Prod.snd).sum) / d
def lineAt (l : List (Int × Int)) (x : Int) : Int :=
  let n : Int := l.length
  ((l.map Prod.snd).sum + lineSlope l * (n * x - (l.map Prod.fst).sum)) / n

/-- A correction: its amplitude at the carrier in 0.0001 dB, its phase in 2^−20 turn, its delay in fs where it was measured, and its
amplitude's slope. -/
abbrev Fit := Int × Int × Option Int × Int

/-- R272, R275: the inverse of the responses `h`, fitted: A(f), linear, at the carrier `fc`; the phase θ0 − 2πfτ, with τ fitted where it
is measured and else the last one, `last`. -/
def fitCorr (h : List (Nat × Int × Int)) (fc : Nat) (delay : Bool) (last : Int) : Fit :=
  let amp : List (Int × Int) := h.map fun x => ((x.1 : Int), -x.2.1)
  let ph : List (Int × Int) := h.map fun x => ((x.1 : Int), -x.2.2)
  let tau := if delay then roundDiv (-(lineSlope ph) * 10 ^ 12) (2 ^ 60) else last
  let flat := unwrap none (h.map fun x => (x.1, 0, x.1 * tau * fxOne / 10 ^ 12 - x.2.2))
  let zero := if delay then lineAt ph 0 else (flat.map fun x => x.2.2).sum / (flat.length : Int)
  (roundDiv (lineAt amp fc * 10000) (2 ^ 60), roundDiv (zero * 2 ^ 20) (2 ^ 60) % 2 ^ 20, if delay then some tau else none,
    lineSlope amp)

/-- R272: a kind's delay is measured by a trick with the tones in force. -/
def delayMeasured (k : Nat) (m : Mach) : Bool :=
  if kindArr k then decide (10000 ≤ spanOf (inBand (kindTx k) m)) else fon CAL_STATUS.delay_ok m

/-- The correction that a measurement of path `n` gives, and the responses it was fitted to. -/
def measured (k n : Nat) (r : List (Int × Int)) (m : Mach) : Fit × List (Nat × Int × Int) :=
  let h := kindResps k n r m
  (fitCorr h (meshFc (kindTx k) m) (delayMeasured k m) (corrDelay n k m), h)

/-! ### The carrier (R276) -/

/-- The amplitudes in force are A(fc) at the carrier in force: those of one direction move along their slopes. -/
def followCarrier (dl : Bool) (m : Mach) : Mach :=
  let old := if dl then m.cal.fcDl else m.cal.fcUl
  let fc := meshFc dl m
  if old = fc then m
  else
    let step (n k : Nat) : Int := roundDiv (corrSlope n k m * ((fc : Int) - old) * 10000) (2 ^ 60)
    let kind (k : Nat) (n : Nat) (s : Mach) : Mach := setCorr n k (corrAmp n k s + step n k) (corrPhase n k s) s
    let front (k : Nat) (n : Nat) (s : Mach) : Mach :=
      match tabGet (fun _ => none) s.cal.front (dirKey n dl) with
      | some f => setCal (fun c => { c with front := tabPut (fun _ => none) c.front (dirKey n dl) (some (f.1 + step n k, f.2)) }) s
      | none => s
    let dev := if dl then 1 else 0
    let m1 := each paths64 (fun n s => front (dev + 2) n (kind (dev + 2) n (kind dev n s))) m
    setCal (fun c => if dl then { c with fcDl := fc } else { c with fcUl := fc }) m1

end Sys2Proof.Machine
end

