-- ==== Sys2Proof/Machine/Calib.lean ====
section
/-! DEFINITION. Calibration and traceability (spec/09): the tricks in gaps and in dedicated mode, the corrections they
measure, their publication, their uncertainties, and the calibration store. -/

namespace Sys2Proof.Machine

/-- A phase difference in 2^−20 turn, from −2^19 to 2^19 − 1. -/
def phaseDiff (a b : Int) : Int := sext 20 (toBits 20 (a - b))

def getHeld (n k : Nat) (m : Mach) : Option Held := tabGet (fun _ => none) m.cal.held (corrKey n k)
def setHeld (n k : Nat) (h : Option Held) (m : Mach) : Mach :=
  setCal (fun c => { c with held := tabPut (fun _ => none) c.held (corrKey n k) h }) m
def getUnc (n k : Nat) (m : Mach) : Option (Nat × Nat × Option Nat) := tabGet (fun _ => none) m.cal.unc (corrKey n k)
def setUnc (n k : Nat) (u : Option (Nat × Nat × Option Nat)) (m : Mach) : Mach :=
  setCal (fun c => { c with unc := tabPut (fun _ => none) c.unc (corrKey n k) u }) m
def getStates (n : Nat) (tx : Bool) (m : Mach) : List StateEnt := tabGet (fun _ => []) m.cal.states (dirKey n tx)
def setStates (n : Nat) (tx : Bool) (l : List StateEnt) (m : Mach) : Mach :=
  setCal (fun c => { c with states := tabPut (fun _ => []) c.states (dirKey n tx) l }) m
def getFront (n : Nat) (tx : Bool) (m : Mach) : Option (Int × Int) := tabGet (fun _ => none) m.cal.front (dirKey n tx)
def setFront (n : Nat) (tx : Bool) (f : Option (Int × Int)) (m : Mach) : Mach :=
  setCal (fun c => { c with front := tabPut (fun _ => none) c.front (dirKey n tx) f }) m

/-! ### State tables (R278) -/

/-- The state a path runs in: its receive attenuator's code, or its driver's. -/
def stateCode (n : Nat) (tx : Bool) (m : Mach) : Nat :=
  if tx then fget (QUAD_TX_GAIN.drv_att n) m else fget (QUAD_RX_ATTEN.atten_db2 (.path (toPath n))) m

/-- The nominal correction of a step of a state, in 0.0001 dB: 0.5 dB or 0.25 dB. -/
def nominalStep (tx : Bool) : Int := if tx then 2500 else 5000

/-- The entry of state `c`. -/
def findState (n : Nat) (tx : Bool) (c : Nat) (m : Mach) : Option StateEnt := (getStates n tx m).find? fun e => e.code == c

/-- The amplitude and phase of state `c` relative to the reference state: its entry's, or the nominal step. -/
def statePart (n : Nat) (tx : Bool) (c : Nat) (m : Mach) : Int × Int :=
  match findState n tx c m with
  | some e => (e.amp, e.phase)
  | none => match tabGet (fun _ => none) m.cal.refCode (dirKey n tx) with
    | some r => (nominalStep tx * ((c : Int) - (r : Int)), 0)
    | none => (0, 0)

/-- An entry is used: it becomes the most recent of at most eight. -/
def touchState (n : Nat) (tx : Bool) (e : StateEnt) (m : Mach) : Mach :=
  setStates n tx ((e :: (getStates n tx m).filter fun x => x.code != e.code).take 8) m

/-! ### Uncertainty (R288, R291) -/

/-- The temperature of quadrant `q` in 0.25 °C: the mean of its eight RF-die sensors. -/
def quadTemp (q : Nat) (m : Mach) : Int := Int.fdiv (quadTemp8 q m) 8

/-- The drift allowance of an uncertainty field since the measurement: `per` field units for each degree. -/
def driftOf (per n k : Nat) (m : Mach) : Nat :=
  per * (quadTemp (n / 16) m - tabGet (fun _ => 0) m.cal.tempAt (corrKey n k)).natAbs / 4

/-- The distance in kHz beyond 20 MHz of the carrier from the nearest tone in band. -/
def extrapolation (dl : Bool) (m : Mach) : Nat :=
  ((inBand dl m).map fun (f : Nat) => ((f : Int) - meshFc dl m).natAbs).foldl min (2 ^ 22) - 20000

/-- The uncertainty of the state in force of an array-side kind: that of its entry. -/
def stateUnc (n k : Nat) (m : Mach) : Nat × Nat :=
  match findState n (kindTx k) (stateCode n (kindTx k) m) m with
  | some e => (e.scatA, e.scatP)
  | none => (0, 0)

/-- R291: a path's kind's uncertainty of amplitude, phase or delay (`i` 0 to 2) with the scatter `x` and the drift allowance `drift`;
one that exceeds its range reads 0x3FF. -/
def uncField (n k i x drift : Nat) (m : Mach) : Nat :=
  let arr := if kindArr k then
      let b := boardUnc n (if k = 2 then 0 else 1) (meshFc (kindTx k) m) m
      let e := stateUnc n k m
      if i = 0 then [b.1, e.1] else if i = 1 then [b.2, e.2] else []
    else []
  min 0x3FF (Config.uncEst ([Config.prodUnc (corrKey n k) i, x, drift] ++ arr ++ [extrapolation (kindTx k) m]))

/-- The amplitude and phase fields of a path's kind read 0x3FF: after a slice remap until its trick, in a state that the
table lacks, or without a board table. -/
def uncOpen (n k : Nat) (m : Mach) : Bool :=
  if k = 0 then fon (QUAD_RX_STATUS.unc_hi (.path (toPath n))) m
  else if kindArr k then !boardOk m || ((getFront n (kindTx k) m).isSome && (findState n (kindTx k) (stateCode n (kindTx k) m) m).isNone)
  else false

/-- R276: the trim of the path's direction is at its limit. -/
def trimAtLimit (n : Nat) (tx : Bool) (m : Mach) : Bool :=
  if tx then fon (CLK_TX_TRIM.at_limit n) m else fon (CLK_RX_TRIM.at_limit n) m

/-- The uncertainty word of a path's kind; its source stays. -/
def refreshUnc (n k : Nat) (m : Mach) : Mach :=
  let f := match getUnc n k m with
    | none => (0x3FF, 0x3FF, 0x3FF)
    | some u =>
      let d := match u.2.2 with
        | some x => if trimAtLimit n (kindTx k) m then 0x3FF else uncField n k 2 x (driftOf 14 n k m) m
        | none => 0x3FF
      if uncOpen n k m then (0x3FF, 0x3FF, 0x3FF)
      else (uncField n k 0 u.1 (driftOf 10 n k m) m, uncField n k 1 u.2.1 (driftOf 10 n k m) m, d)
  fset ⟨corrReg n k 3, 0, 30⟩ (f.1 + 1024 * f.2.1 + 2 ^ 20 * f.2.2) m

/-- R291: the carrier lies more than 100 MHz from the nearest in-band tone. -/
def fcFar (dl : Bool) (m : Mach) : Bool :=
  let l := inBand dl m
  !l.isEmpty && l.all fun f => decide (100000 < ((f : Int) - meshFc dl m).natAbs)

/-- Every uncertainty field is recomputed. -/
def recomputeUnc (m : Mach) : Mach :=
  let m1 := each paths64 (fun n s => each [0, 1, 2, 3] (refreshUnc n) s) m
  setEvIf (fcFar false m1 || fcFar true m1) CAL_EVENTS.fc_far m1

/-- UNCERTAINTY_RECOMPUTE. -/
def execUncertaintyRecompute (s : State) : Host.Outcome State Fault Refusal :=
  answer s (if s.m.power = .coreRun then recomputeUnc s.m else s.m)

/-! ### Corrections in force (R276 to R278) -/

/-- The array-side correction of a path's direction: the front-end part with the state in force. A state that a table in use
lacks sets state_new. -/
def refreshArr (n : Nat) (tx : Bool) (m : Mach) : Mach :=
  let k := if tx then 3 else 2
  let c := stateCode n tx m
  match getFront n tx m with
  | none => m
  | some f =>
    let p := statePart n tx c m
    let m1 := refreshUnc n k (setCorr n k (f.1 + p.1) (f.2 + p.2) m)
    match findState n tx c m with
    | some e => touchState n tx e m1
    | none => setEvIf (!(getStates n tx m).isEmpty) CAL_EVENTS.state_new m1

/-- The corrections follow the carriers and, array-side, the states in force. -/
def refreshStates (m : Mach) : Mach :=
  each paths64 (fun n s => refreshArr n true (refreshArr n false s)) (followCarrier true (followCarrier false m))

/-- R276: a trim from the delay parts of a direction's two classes: its value in 2 fs units, and whether it is limited. -/
def trimOf (sum : Int) : Int × Bool :=
  let t := roundDiv sum 2
  if 524287 < t then (524287, true) else if t < -524288 then (-524288, true) else (t, false)

/-- R276, R412: a path's trims. -/
def applyTrim (n : Nat) (m : Mach) : Mach :=
  let r := trimOf (corrDelay n 0 m + corrDelay n 2 m)
  let t := trimOf (corrDelay n 1 m + corrDelay n 3 m)
  let m1 := fset (CLK_RX_TRIM.trim n) (toBits 20 r.1) (fsetB (CLK_RX_TRIM.at_limit n) r.2 m)
  let m2 := fset (CLK_TX_TRIM.trim n) (toBits 20 t.1) (fsetB (CLK_TX_TRIM.at_limit n) t.2 m1)
  setEvIf (r.2 || t.2) CAL_EVENTS.delay_range (each [0, 1, 2, 3] (refreshUnc n) m2)

/-- R277: what a measurement does to its correction: it is taken as it is, averaged in, averaged with the one held, held, or
discarded. -/
inductive MeasUse where
  | set
  | average
  | mean (p : Held)
  | hold
  | discard
  deriving DecidableEq, Repr

/-- R277: the use of a measurement `x` (amplitude and phase) of a correction that stands at `c`; `unc` is its uncertainty in 0.0001 dB
and in 0.001°. The one after a held one is used with it, or both are discarded. -/
def measUse (fresh : Bool) (c x : Int × Int) (h : Option Held) (unc : Nat × Nat) : MeasUse :=
  let far := decide (1000 < (x.1 - c.1).natAbs) || decide (2 ^ 20 < 360 * (phaseDiff x.2 c.2).natAbs)
  if fresh then .set
  else match h with
    | none => if far then .hold else .average
    | some p =>
      if (x.1 - p.amp).natAbs ≤ 3 * unc.1 ∧ 360000 * (phaseDiff x.2 p.phase).natAbs ≤ 3 * unc.2 * 2 ^ 20 then .mean p else .discard

/-- R277: a value `old` moved towards the measured `x`. -/
def moved (use : MeasUse) (log : Nat) (old x : Int) (held : Held → Option Int) : Int :=
  match use with
  | .set => x
  | .average => old + roundDiv (x - old) (2 ^ log)
  | .mean p => match held p with
    | some y => roundDiv (x + y) 2
    | none => x
  | _ => old

/-- The new phase; the phases turn the short way round. -/
def movedPhase (use : MeasUse) (log : Nat) (old x : Int) : Int :=
  match use with
  | .set => x
  | .average => old + roundDiv (phaseDiff x old) (2 ^ log)
  | .mean p => p.phase + roundDiv (phaseDiff x p.phase) 2
  | _ => old

/-- A delay part has been measured. -/
def delayKnown (n k : Nat) (m : Mach) : Bool := match getUnc n k m with
  | some (_, _, some _) => true
  | _ => false

/-- The delay part of a kind after a measurement that is applied (R272, R277). -/
def applyDelay (n k : Nat) (use : MeasUse) (log : Nat) (d : Option Int) (m : Mach) : Mach :=
  match d with
  | some d => setCorrDelay n k (if delayKnown n k m then moved use log (corrDelay n k m) d Held.delay else d) m
  | none => m

/-- The scatter and the temperature of a measurement that is applied. -/
def noteUnc (n k : Nat) (x : PathMeas) (delay : Bool) (m : Mach) : Mach :=
  let d := if delay then some x.scatD else
    match getUnc n k m with
    | some u => u.2.2
    | none => none
  setUnc n k (some (x.scatA, x.scatP, d)) (setCal (fun c =>
    { c with tempAt := tabPut (fun _ => 0) c.tempAt (corrKey n k) (quadTemp (n / 16) m) }) m)

/-- The responses of a device-side measurement that is applied are those that the array-side formulas take (R275). -/
def noteResp (n k : Nat) (h : List (Nat × Int × Int)) (m : Mach) : Mach :=
  if kindArr k then m else setCal (fun c => { c with resp := tabPut (fun _ => []) c.resp (corrKey n k) h }) m

/-- The measurement `x`, fitted as `f` from the responses `h`, is applied to a correction that stands at `c`, of which `y` is the new
amplitude and phase; `set` puts them in force. -/
def applyMeas (n k : Nat) (x : PathMeas) (f : Fit) (h : List (Nat × Int × Int)) (c y : Int × Int)
    (set : Int × Int → Mach → Mach) (m : Mach) : Mach :=
  let fresh := (getUnc n k m).isNone || corrSource n k m == 0 || m.cal.again.contains (corrKey n k)
  let log := min 6 (fget CAL_CTRL.avg_log m)
  let use := measUse fresh c y (getHeld n k m) (uncField n k 0 x.scatA 0 m, uncField n k 1 x.scatP 0 m)
  match use with
  | .hold => setHeld n k (some ⟨y.1, y.2, f.2.2.1, f.2.2.2⟩) m
  | .discard => setHeld n k none m
  | _ =>
    let m1 := set (moved use log c.1 y.1 fun p => some p.amp, movedPhase use log c.2 y.2) m
    let m2 := setSlope n k (moved use log (corrSlope n k m) f.2.2.2 fun p => some p.slope) m1
    let m3 := setCal (fun c => { c with again := c.again.filter (· != corrKey n k) }) m2
    noteResp n k h (setCorrSource n k 1 (noteUnc n k x f.2.2.1.isSome (applyDelay n k use log f.2.2.1 (setHeld n k none m3))))

/-- One accepted measurement of a kind, made in state `code` for the array-side kinds (R277, R278). -/
def takeMeas (k code : Nat) (x : PathMeas) (m : Mach) : Mach :=
  let n := x.path.val
  let tx := kindTx k
  let r := measured k n x.r m
  let v : Int × Int := (r.1.1, r.1.2.1)
  let apply (c y : Int × Int) (set : Int × Int → Mach → Mach) (s : Mach) : Mach := applyMeas n k x r.1 r.2 c y set s
  if !kindArr k then apply (corrAmp n k m, corrPhase n k m) v (fun w s => setCorr n k w.1 w.2 s) m
  else
    let front (w : Int × Int) (s : Mach) : Mach := setFront n tx (some w) s
    let asRef (s : Mach) : Mach := setCal (fun c => { c with refCode := tabPut (fun _ => none) c.refCode (dirKey n tx) (some code) }) s
    match getFront n tx m, findState n tx code m with
    | some f, some e => touchState n tx e (apply f (v.1 - e.amp, v.2 - e.phase) front m)
    | some f, none =>
      if (getStates n tx m).isEmpty then touchState n tx { code := code, amp := 0, phase := 0 } (apply f v front (asRef m))
      else
        let e : StateEnt := { code := code, amp := v.1 - f.1, phase := phaseDiff v.2 f.2, scatA := x.scatA, scatP := x.scatP }
        setCorrSource n k 1 (noteUnc n k x r.1.2.2.1.isSome (touchState n tx e m))
    | none, _ => apply (0, 0) v front (setStates n tx [{ code := code, amp := 0, phase := 0 }] (asRef m))

/-- R275: h_obs(2q) from a kind 0 trick. -/
def noteObs (q : Nat) (x : PathMeas) (m : Mach) : Mach :=
  setCal (fun c => { c with obsResp := tabPut (fun _ => []) c.obsResp q (obsResps q x.obs m) }) m

/-- R294: a published front-end part goes to the twin. -/
def sendFront (n : Nat) (tx : Bool) (m : Mach) : Mach :=
  match getFront n tx m with
  | some f => mirror 6 (.calFront (if tx then .dl else .ul) (toPath n) f.1 f.2) m
  | none => m

/-- R460: the first publication after a resync of class 6 sends the full set. -/
def mirrorFront (n : Nat) (tx : Bool) (m : Mach) : Mach :=
  if role m = 1 ∧ m.twin.resync.contains 6 = true then
    each paths64 (fun k s => sendFront k true (sendFront k false s)) { m with twin := { m.twin with resync := [] } }
  else sendFront n tx m

/-- R279: a new set is published: the synthesiser and the trims use it from the next slot that is synthesised. -/
def publish (m : Mach) : Mach :=
  let m1 := recomputeUnc (refreshStates m)
  setEv CAL_EVENTS.published (wr CAL_PUB (rd CAL_PUB m1 + 1#32)
    (setCal (fun c => { c with trimsDue := true }) (setMesh (fun x => { x with corrNew := true }) m1)))

/-- R279: the set's trims apply at the boundary of the first slot formed with it. -/
def trimsBoundary (m : Mach) : Mach :=
  if m.cal.trimsDue ∧ m.mesh.corrNew = false then each paths64 applyTrim (setCal (fun c => { c with trimsDue := false }) m) else m

/-! ### Traceability (R273, R292) -/

/-- CAL_STATUS.traceable. -/
def refreshTrace (m : Mach) : Mach :=
  fsetB CAL_STATUS.traceable (fon CAL_STATUS.ref_ok m && boardOk m && !m.nvm.remap.prodBad && m.cal.trDev && m.cal.trArr) m

/-- R292: the pilot's verdict on CALREF. -/
def pilotSeen (low moved : Bool) (m : Mach) : Mach :=
  if low || moved then
    refreshTrace (setCal (fun c => { c with trDev := false, trArr := false }) (fset CAL_STATUS.ref_ok 0
      (setEvIf low CAL_EVENTS.ref_lost (setEvIf moved CAL_EVENTS.ref_incoherent m))))
  else refreshTrace (fset CAL_STATUS.ref_ok 1 m)

/-- R277, R293: a class B change: every device-side uncertainty is open until measured again, and the next measurement of each kind
sets its correction. -/
def calPlanChange (m : Mach) : Mach :=
  refreshTrace (setCal (fun c => { c with trDev := false, trArr := false, again := List.range 256 })
    (each paths64 (fun n s => each [0, 1] (fun k t => refreshUnc n k (setHeld n k none (setUnc n k none t))) s) m))

/-! ### Positions and cycles (R280, R285, R286) -/

/-- The end of a cycle: its tick, its counts, and whether the store is due (R295). -/
def endCycle (m : Mach) : Mach :=
  let c := m.cal
  let dev := decide (c.cycDev = 32) && fon CAL_STATUS.ref_ok m
  let arr := decide (c.cycArr = 32) && fon CAL_STATUS.ref_ok m
  let m1 := setEv CAL_EVENTS.cycle_done (wr CAL_LAST_LO (BitVec.ofNat 32 (tick m)) (wr CAL_LAST_HI (BitVec.ofNat 32 (tick m / 2 ^ 32)) m))
  let m2 := fcnt CAL_CYCLES.dev (if dev then 1 else 0) (fcnt CAL_CYCLES.arr (if arr then 1 else 0) m1)
  refreshTrace (setCal (fun c => { c with cycDev := 0, cycArr := 0, trDev := c.trDev || dev, trArr := c.trArr || arr,
                                          storeDue := c.storeDue || dev || arr }) m2)

/-- The position advances. -/
def advancePos (m : Mach) : Mach :=
  let k := fget CAL_STATUS.pos m
  let m1 := fset CAL_STATUS.pos ((k + 1) % 64) (setCal (fun c => { c with tries := 0 }) m)
  if k = 63 then endCycle m1 else m1

/-- A trick of a kind is complete: its count. -/
def countTrick (k : Nat) (inCycle : Bool) (m : Mach) : Mach :=
  let m1 := cnt (if kindArr k then CAL_TRICKS_ARR else CAL_TRICKS_DEV) 1 0xFFFFFFFF m
  setCal (fun c => { c with lastDone := tick m,
                            cycDev := c.cycDev + (if inCycle && !kindArr k then 1 else 0),
                            cycArr := c.cycArr + (if inCycle && kindArr k then 1 else 0) }) m1

/-! ### Eligibility and hosting (R281, R282) -/

/-- Path `n` is failed in the direction a kind measures. -/
def kindFailed (k n : Nat) (m : Mach) : Bool := if kindTx k then txFailed n m else rxFailed n m

/-- The gap names every RUNNING quadrant. -/
def namesAll (gapq : Nat) (m : Mach) : Bool := quads4.all fun q => quadState q m != 2 || inMask gapq q

/-- R292: kinds 0 and 2 are passed over while ref_ok is 0. -/
def refBars (k : Nat) (m : Mach) : Bool := !kindTx k && !fon CAL_STATUS.ref_ok m

/-- R281: a quadrant may take part in an in-gap trick of kind `k`. -/
def quadEligible (k gapq q : Nat) (m : Mach) : Bool :=
  decide (fget CAL_CTRL.cal_mode m = 1) && !refBars k m &&
    (if kindArr k then
      fon CAL_CTRL.arr_en m && quadState q m == 2 && namesAll gapq m && !(inBand (kindTx k) m).isEmpty
    else fon CAL_CTRL.dev_en m && (quadState q m == 1 || (quadState q m == 2 && inMask gapq q)))

/-- The paths of a position that are eligible. -/
def eligible (k gapq : Nat) (m : Mach) : List Nat :=
  (quads4.map fun q => 16 * q + k / 4).filter fun n => quadEligible (k % 4) gapq (n / 16) m && !kindFailed (k % 4) n m

/-- The receive chains that a kind's stimulus reaches, by path. -/
def reached (k : Nat) (paths : List Nat) (m : Mach) : List Nat :=
  if k = 0 then paths.filter (· < 64)
  else if k = 2 then paths64.filter fun n => quadState (n / 16) m == 1 || quadState (n / 16) m == 2
  else []

/-- R282: w of a gap of `g` ticks for a trick, or none where the gap cannot host it. -/
def trickW (g k : Nat) (paths : List Nat) (m : Mach) : Option Nat :=
  let per := adcPerTick m
  let gd := ((reached k paths m).map fun n => chainDelay n m).foldl max 0
  let w := min 24576 (64 * (((g - 288) * per - 2 * gd) / (64 * per)))
  if 1967 ≤ g ∧ 512 ≤ w then some w else none

/-! ### A trick in a gap (R282 to R285, R288) -/

/-- The observation receivers a kind uses in the quadrant of path `n`: the one it measures with, if any, and the pilot. -/
def trickObs (k n : Nat) : List Nat :=
  let q := n / 16
  if k = 2 then [2 * q + 1] else [2 * q, 2 * q + 1]

/-- R284: the calibration FCB frame of a quadrant. -/
def calFcb (k n : Nat) (start : Bool) (m : Mach) : Mach :=
  let q := n / 16
  if fon (CAL_FCB.en q) m then
    queueFcb q (512 * fget (CAL_FCB.word q) m + (if start then 256 else 0) + 64 * k + n) (tick m) m
  else m

/-- The paths whose quadrants a trick involves: an observation receiver's trick involves its quadrant through its path 0. -/
def involved (paths : List Nat) : List Nat := paths.map fun n => if n < 64 then n else 8 * (n - 64) / 16 * 16

/-- CAL_START now, for path `n`'s quadrant: the event, the FCB frame, and the coupler of kind 3. -/
def calStart (k n : Nat) (m : Mach) : Mach :=
  let m1 := calFcb k n true (fesNow (n / 16) 10 m)
  if k = 3 then setCoupler (2 * (n / 16) + obsBit n m1) n m1 else m1

/-- R282: quadrant `q`'s part of a trick begins, where it is still to come. -/
def startPart (q : Nat) (m : Mach) : Mach :=
  match m.cal.trick with
  | some t =>
    if t.starts.contains q then
      each ((involved t.paths).filter fun n => n / 16 == q) (calStart t.kind)
        (setCal (fun c => { c with trick := some { t with starts := t.starts.filter (· != q) } }) m)
    else m
  | none => m

/-- SLOT_GAP, and CAL_START after it in a quadrant of the trick that the gap hosts (R236, R282). -/
def gapEvent (q : Nat) (m : Mach) : Mach :=
  let m1 := evSlot q 8 m
  match m1.cal.trick with
  | some t => if t.start ≤ (getFes q m1).evDone then startPart q m1 else m1
  | none => m1
def execSlotGap (q : Fin 4) (s : State) : Host.Outcome State Fault Refusal := answer s (gapEvent q s.m)

/-- CAL_END now. -/
def calEnd (k : Nat) (paths : List Nat) (m : Mach) : Mach :=
  each (involved paths) (fun n s => calFcb k n false (fesNow (n / 16) 11 s)) m

/-- The trick is fixed: CAL_START comes in each quadrant of it after its SLOT_GAP; at once where that has come (R282). -/
def fixTrick (t : Trick) (m : Mach) : Mach :=
  let qs := quads4.filter fun q => (involved t.paths).any fun n => n / 16 == q
  let m1 := fset CAL_STATUS.busy 1 (setCal (fun c => { c with trick := some { t with starts := qs } }) m)
  each (qs.filter fun q => decide (t.start ≤ (getFes q m1).evDone)) startPart m1

/-- The key of a unit among a trick's paths: a path, or 64 + an observation receiver. -/
def unitKey (u : RxUnit) : Nat := match u with
  | .path n => n
  | .obs o => 64 + o.val

/-- R288: the oldest inserted slice trick that the gap can host, with its w. -/
def insertFor (g gapq : Nat) (m : Mach) : Option (RxUnit × Nat) :=
  m.cal.inserts.findSome? fun e =>
    let k := unitKey e.1
    let dead := match e.1 with
      | .path n => rxFailed n m
      | .obs _ => false
    if quadEligible 0 gapq (rxQuad e.1) m && !dead then (trickW g 0 [k] m).map fun w => (e.1, w) else none

/-- R96, R272, R281, R292: a dedicated trick of kind `k` for path `n` is passed over. -/
def dedBarred (k n : Nat) (m : Mach) : Bool :=
  refBars k m || kindFailed k n m ||
    (kindArr k && (!fon CAL_CTRL.arr_en m || (inBand (kindTx k) m).isEmpty || role m == 2))

/-- R281, R289: the dedicated trick of kind 2 or 3 that the gap can host: quadrant, kind, group, w. -/
def dedFor (g gapq : Nat) (m : Mach) : Option (Nat × Nat × Nat × Nat) :=
  quads4.findSome? fun q =>
    let d := dedDue q m
    let n := 16 * q + d.2.1
    if quadState q m == 3 && (getDed q m).run && !(getDed q m).leaving && dedPaused q m && namesAll gapq m && !dedBarred d.1 n m then
      (trickW g d.1 [n] m).map fun w => (q, d.1, d.2.1, w)
    else none

/-- The positions passed over before the first with an eligible path; none where no position has one. -/
def positionFor (gapq : Nat) (m : Mach) : Option Nat :=
  (List.range 64).find? fun i => !(eligible ((fget CAL_STATUS.pos m + i) % 64) gapq m).isEmpty

/-- The in-gap position's trick (R280, R282). -/
def inGapTrick (b g gapq : Nat) (m : Mach) : Mach :=
  match positionFor gapq m with
  | none => m
  | some i =>
    let m1 := each (List.range i) (fun _ s => advancePos s) m
    let k := fget CAL_STATUS.pos m1
    let ps := eligible k gapq m1
    match trickW g (k % 4) ps m1 with
    | none => setEv CAL_EVENTS.gap_short (fcnt CAL_GAP_COUNT.short 1 m1)
    | some w => fixTrick ⟨k % 4, k / 4, ps, none, none, b, w, [], quads4.map (fun q => quadState q m1), []⟩ m1

/-- The gap that is judged next: the first calibration gap not judged yet whose events come before the next slot boundary; with the
lead time of the quadrant that has the longest (DEDUCED, assumption 91: fe_lead is each quadrant's). -/
def gapAhead (m : Mach) : Option (Nat × Slot × Nat × Nat) :=
  let lead := ((quads4.filter fun q => quadState q m != 0).map fun q => (getFes q m).lead).foldl max 0
  ((leadSlots lead m).find? fun n => n.1.ty == 3 && decide (m.cal.gapDone < n.2.1)).map fun n => (lead, n)

/-- CAL_TRICK_START: the gap is judged, fe_lead before it. While a trick runs or is being estimated it hosts none (DESIGN CHOICE,
assumption 91). -/
def calTrickStart (m : Mach) : Mach :=
  match gapAhead m with
  | none => m
  | some (lead, s, b, e) =>
    if !timingOn m then m
    else
      let m1 := setCal (fun c => { c with gapDone := b }) (advanceTo (b - lead) m)
      let qs := quads4.map fun q => quadState q m1
      if m1.cal.trick.isSome || m1.cal.est.isSome then m1
      else match insertFor (e - b) s.gapq m1, dedFor (e - b) s.gapq m1 with
        | some (u, w), _ => fixTrick ⟨0, unitKey u % 16, [unitKey u], some u, none, b, w, [], qs, []⟩ m1
        | none, some (q, k, gr, w) => fixTrick ⟨k, gr, [16 * q + gr], none, some q, b, w, [], qs, []⟩ m1
        | none, none => inGapTrick b (e - b) s.gapq m1
def execCalTrickStart (s : State) : Host.Outcome State Fault Refusal := answer s (calTrickStart s.m)

/-- At G the stimulus is on: the samples it reaches are SETTLING up to 64 samples after it turns off (R283), and the
observation receivers are held (R261). A CAL_START that has not come yet comes now. -/
def trickBegin (m : Mach) : Mach :=
  match m.cal.trick with
  | some t =>
    if t.start = m.slotStart then
      let n := (256 + t.w) * adcPerTick m + 64
      let m1 := each (reached t.kind t.paths m) (fun p s => rxSettle (.path (toPath p)) n s) (each quads4 startPart m)
      refreshInternal (each ((involved t.paths).flatMap (trickObs t.kind)) spoilCap m1)
    else m
  | none => m

/-! ### The end of a trick -/

/-- One path's measurement is accepted (R285). -/
def accepts (t : Trick) (bad : BitVec 64) (n : Nat) (m : Mach) : Bool :=
  let q := if n < 64 then n / 16 else (n - 64) / 2
  !(decide (n < 64) && bad.getLsbD n) && t.quadsAt.getD q 9 == quadState q m

/-- R288: a unit's slice trick is complete, or its path accepted at its regular position: unc_hi clears. -/
def sliceTrimmed (u : RxUnit) (m : Mach) : Mach := fset (QUAD_RX_STATUS.unc_hi u) 0 m

/-- An inserted trick that is over: complete, or rejected for the `n`-th time. -/
def insertOver (u : RxUnit) (ok : Bool) (m : Mach) : Mach :=
  let tries := ((m.cal.inserts.find? fun e => e.1 == u).map Prod.snd).getD 0 + 1
  let drop := setCal (fun c => { c with inserts := c.inserts.filter fun e => e.1 != u })
  if ok then countTrick 0 false (sliceTrimmed u (drop m))
  else if 4 ≤ tries then setEv CAL_EVENTS.trick_abandon (drop m)
  else setCal (fun c => { c with inserts := c.inserts.map fun e => if e.1 == u then (u, tries) else e }) m

/-- R289: the dedicated sequence of quadrant `q` goes on to its next trick; after the last trick of step 2 the store is
written and ded_done set. -/
def storeCal (m : Mach) : Mach :=
  if fon IMG_STATUS.migrating m then { m with img := { m.img with calWait := true } }
  else if !recOk 1 m then m
  else
  let m1 := storeRegs ((List.range 1024).map CAL_PATH) m
  match m1.nvm.cal with
  | some c => if nandOut m then m1 else
    { m1 with nvm := { m1.nvm with cal := some { c with
        unc := m.cal.unc, tempAt := m.cal.tempAt, states := m.cal.states, refCode := m.cal.refCode, front := m.cal.front,
        slope := m.cal.slope, fcUl := m.cal.fcUl, fcDl := m.cal.fcDl, boardVer := fget CAL_BOARD_VER.ver m,
        prodCrc := Config.prodCrc } } }
  | none => m1
def nextDed (q : Nat) (m : Mach) : Mach :=
  let x := getDed q m
  let n := 16 * (dedStates m).length
  let fin (s : Mach) : Mach :=
    let s1 := setDed q { getDed q s with done := true, rep := 0, pos := 0, step := 0, tries := 0 } s
    setEv CAL_EVENTS.ded_done (fset ⟨CAL_STATUS, 10 + q, 1⟩ 0 (if fon CAL_CTRL.store_en s then storeCal s1 else s1))
  if dedInStep1 x m then
    let r := x.rep + (if x.pos = 63 ∧ x.done = false then 1 else 0)
    let m1 := setDed q { x with pos := (x.pos + 1) % 64, rep := r, tries := 0 } m
    if x.pos = 63 ∧ x.done = false ∧ n = 0 ∧ dedInStep1 { x with rep := r } m = false then fin m1 else m1
  else if x.step + 1 < n then setDed q { x with step := x.step + 1, tries := 0 } m
  else fin m

/-- A dedicated trick of quadrant `q` is over: complete, or rejected. -/
def dedOver (q k : Nat) (ok : Bool) (m : Mach) : Mach :=
  if ok then nextDed q (countTrick k false m)
  else
    let x := getDed q m
    let m1 := setEv CAL_EVENTS.trick_discard m
    if 4 ≤ x.tries + 1 then setEv CAL_EVENTS.trick_abandon (nextDed q m1) else setDed q { x with tries := x.tries + 1 } m1

/-- The trick is over: complete where every path was accepted; else discarded, and abandoned after four attempts. -/
def trickOver (t : Trick) (m : Mach) : Mach :=
  let ok := t.paths.all fun n => t.ok.contains n
  let m1 := if ok then m else setEv CAL_EVENTS.trick_discard (fcnt CAL_GAP_COUNT.rejected 1 m)
  match t.unit, t.ded with
  | some u, _ => insertOver u ok m1
  | none, some q => dedOver q t.kind ok m1
  | none, none =>
    if ok then advancePos (countTrick t.kind true m1)
    else if 4 ≤ m1.cal.tries + 1 then setEv CAL_EVENTS.trick_abandon (advancePos m1)
    else setCal (fun c => { c with tries := c.tries + 1 }) m1

/-- CAL_CAPTURE_END: the captures end and the stimulus is off: CAL_END; `bad` has the paths with a captured sample that was
GAP, COAST or overrange; the pilot's verdict. -/
def calCaptureEnd (bad : BitVec 64) (low moved : Bool) (m : Mach) : Mach :=
  match m.cal.trick with
  | none => m
  | some t =>
    let m1 := calEnd t.kind t.paths (advanceTo (t.start + 256 + t.w) m)
    let m2 := fset CAL_STATUS.busy 0 (pilotSeen low moved (refreshInternal (setCal (fun c => { c with trick := none }) m1)))
    let ok := if low || moved then [] else t.paths.filter fun n => accepts t bad n m
    let t' := { t with ok := ok }
    let m3 := match t.unit with
      | some u => if ok.isEmpty then m2 else
        match slicePlanned u m2 with
        | some s => setRx (rxKey u) { getRx (rxKey u) m2 with remapPos := posOfSlice u s m2 } m2
        | none => m2
      | none => m2
    if ok.isEmpty then trickOver t' m3 else setCal (fun c => { c with est := some t' }) m3
def execCalCaptureEnd (bad : BitVec 64) (low moved : Bool) (s : State) : Host.Outcome State Fault Refusal :=
  answer s (calCaptureEnd bad low moved s.m)

/-- The accepted measurements of a trick are applied. -/
def takeAll (t : Trick) (meas : List PathMeas) (m : Mach) : Mach :=
  each (meas.filter fun x => t.ok.contains x.path.val) (fun x s =>
    let n := x.path.val
    let s1 := takeMeas t.kind (stateCode n (kindTx t.kind) s) x s
    let s2 := if t.kind = 0 then noteObs (n / 16) x (sliceTrimmed (.path x.path) s1) else s1
    if kindArr t.kind then mirrorFront n (kindTx t.kind) (refreshArr n (kindTx t.kind) s2) else s2) m

/-- CORRECTION_PUBLISH: estimation of the last trick ends; `meas` has what it found of each accepted path. -/
def correctionPublish (meas : List PathMeas) (m : Mach) : Mach :=
  match m.cal.est with
  | none => m
  | some t => publish (trickOver t (takeAll t meas (setCal (fun c => { c with est := none }) m)))
def execCorrectionPublish (meas : List PathMeas) (s : State) : Host.Outcome State Fault Refusal :=
  answer s (correctionPublish meas s.m)

/-- CAL_STALL: no trick has completed for the stall time, in IN_GAP, with some path eligible in principle: in a gap that names
every quadrant (R287). -/
def calStall (m : Mach) : Mach :=
  if fget CAL_CTRL.cal_mode m = 1 ∧ (positionFor 15 m).isSome = true ∧ m.cal.lastDone + max 1 (fget CAL_CTRL.stall m) * 24576000 ≤ tick m then
    setEv CAL_EVENTS.cal_stall m
  else m
def execCalStall (s : State) : Host.Outcome State Fault Refusal := answer s (calStall s.m)

/-- DEDICATED_TRICK: the next back-to-back trick of a CAL_DEDICATED quadrant, with what it found of its path, none where it
was rejected (R289). A sequence that is to end takes no further trick (R86). -/
def dedicatedTrick (q : Nat) (meas : List PathMeas) (m : Mach) : Mach :=
  let x := getDed q m
  let d := dedDue q m
  let n := 16 * q + d.2.1
  if quadState q m ≠ 3 ∨ x.run = false then m
  else
    let m1 :=
      if dedBarred d.1 n m then nextDed q m
      else if dedPaused q m then m
      else
        let m1 := calEnd d.1 [n] (calStart d.1 n m)
        match meas.find? fun y => y.path.val == n with
        | some y =>
          let m2 := takeMeas d.1 (d.2.2.getD (stateCode n (kindTx d.1) m1)) y m1
          let m3 := if d.1 = 0 then noteObs q y (sliceTrimmed (.path y.path) m2) else m2
          let m4 := if kindArr d.1 then mirrorFront n (kindTx d.1) (refreshArr n (kindTx d.1) m3) else m3
          publish (dedOver q d.1 true m4)
        | none => dedOver q d.1 false m1
    if x.leaving then setDed q { getDed q m1 with run := false } m1 else m1
def execDedicatedTrick (q : Fin 4) (meas : List PathMeas) (s : State) : Host.Outcome State Fault Refusal :=
  answer s (dedicatedTrick q meas s.m)

/-- CAL_STORE_WRITE: the store is due (R295), at most once every store_min minutes; `ok` is whether the write succeeds. -/
def calStoreWrite (ok : Bool) (m : Mach) : Mach :=
  let wait := fget CAL_CTRL.store_min m * 60 * 245760000
  let early := match m.cal.storeLast with
    | some t => decide (tick m < t + wait)
    | none => false
  if m.cal.storeDue ∧ fon CAL_CTRL.store_en m = true ∧ early = false then
    let m1 := setCal (fun c => { c with storeDue := false, storeLast := some (tick m) }) m
    if ok then storeCal m1 else setEv CAL_EVENTS.store_fail m1
  else m
def execCalStoreWrite (ok : Bool) (s : State) : Host.Outcome State Fault Refusal := answer s (calStoreWrite ok s.m)

/-! ### The control register, BOOT, the mirror -/

/-- A write of CAL_CTRL: cal_mode 2 and 3 are not applied; the other fields are (DEDUCED, assumption 54). -/
def calCtrlWrite (v : W) (m : Mach) : Mach :=
  let old := fget CAL_CTRL.cal_mode m
  let mode := if 2 ≤ wfld v 0 2 then old else wfld v 0 2
  let m1 := setEvIf (decide (2 ≤ wfld v 0 2)) CAL_EVENTS.cfg_err (wr CAL_CTRL (wset (v &&& 0xFFFF01FF#32) 0 2 mode) m)
  if mode = 1 ∧ old = 0 then setCal (fun c => { c with lastDone := tick m }) m1 else m1

/-- R295: during BOOT the firmware loads the corrections with source 2: array-side entries only where the board version is
that of the table in use, else board_err is set. -/
def loadCal (m : Mach) : Mach :=
  match m.nvm.cal.filter fun _ => recOk 1 m with
  | none => m
  | some c =>
    let arr := boardOk m && c.boardVer == fget CAL_BOARD_VER.ver m
    let m0 := setEvIf (!arr) CAL_EVENTS.board_err m
    let m1 := setCal (fun x => { x with
      unc := c.unc, tempAt := c.tempAt, states := if arr then c.states else [], refCode := if arr then c.refCode else [],
      front := if arr then c.front else [], slope := c.slope, fcUl := c.fcUl, fcDl := c.fcDl }) m0
    let load (n k : Nat) (t : Mach) : Mach :=
      let get (i : Nat) : W := tabGet (fun _ => 0#32) c.regs (corrReg n k i)
      if wfld (get 3) 30 2 = 0 then t
      else setCorrSource n k 2 (wr (corrReg n k 0) (get 0) (wr (corrReg n k 1) (get 1) (wr (corrReg n k 2) (get 2) t)))
    each paths64 (fun n s => applyTrim n (each (if arr then [0, 1, 2, 3] else [0, 1]) (load n) s)) m1

/-- R294: a front-end part of the PRIMARY, held with source 3. -/
def mirroredFront (n : Nat) (tx : Bool) (amp phase : Int) (m : Mach) : Mach :=
  let k := if tx then 3 else 2
  refreshArr n tx (setCorrSource n k 3 (setUnc n k none (setHeld n k none (setFront n tx (some (amp, phase)) m))))

end Sys2Proof.Machine
end

