-- ==== Sys2Proof/Machine/Link.lean ====
section
/-! DEFINITION. The Ezsawyn packet link (spec/12): ports and bonding, SerDes macros, received frames, sample messages, native
messages, captures sent, PTP and PPS; the link reference loop (spec/13, R392). -/

namespace Sys2Proof.Machine

def ports4 : List Nat := [0, 1, 2, 3]

/-! ### Ports (R364, R370, R371) -/

def portState (i : Nat) (m : Mach) : Nat := fget (EPL_PORT_STATUS.state i) m

/-- The bonded ports among a mask of four bits, lowest first. -/
def bondedIn (mask : Nat) (m : Mach) : List Nat := ports4.filter fun i => mask.testBit i && bonded i m

/-- R370: a session's current port is the lowest bonded port of its mask, and changes only when that port leaves. -/
def refreshSess (s : Nat) (m : Mach) : Mach :=
  let l := bondedIn (fget (EPL_SESS_CFG.mask s) m) m
  if l.contains (fget (EPL_SESS_CFG.port s) m) then m
  else match l with
    | p :: _ => fset (EPL_SESS_CFG.port s) p m
    | [] => m
def refreshSessions (m : Mach) : Mach := each ports4 refreshSess m

/-- R364, R381: PORT_STATE goes to session 0 on every bonded port. -/
def sendPortState (m : Mach) : Mach :=
  if sessBound 0 m then
    let b : NatBody := .portState (ports4.map fun i => (portState i m, bonded i m)) (100 * (bondedIn 15 m).length)
    each (bondedIn 15 m) (fun _ s =>
      let x := getSess 0 s
      setSess 0 { x with txSeq := (x.txSeq + 1) % 2 ^ 32 } (send (.native 0 x.txSeq b) s)) m
  else m

/-- Port `i` is in the bond, or not. -/
def setBonded (i : Nat) (b : Bool) (m : Mach) : Mach :=
  refreshSessions (fsetB ⟨EPL_STATUS, i, 1⟩ b (fsetB (EPL_PORT_STATUS.bonded i) b m))

/-- Port `i` changes to state `st`; only an UP port stays bonded. -/
def setPort (i st : Nat) (m : Mach) : Mach :=
  if portState i m = st then m
  else
    let m1 := fset (EPL_PORT_STATUS.state i) st m
    sendPortState (setEv EPL_EVENTS.port_chg (if st = 2 then m1 else setBonded i false m1))

/-- R365: a lane of port `i` has no macro. -/
def portDead (i : Nat) (m : Mach) : Bool :=
  m.nvm.remap.serdesDead.any fun k => decide (k % 8 / 2 = i)

/-- The firmware runs (spec/02). -/
def fwRuns (m : Mach) : Bool := m.power == .coreRun && devState m != 0 && devState m != 7

/-- R364, R365, R366: a port that may train does; one without a macro is FAILED. -/
def trainPort (i : Nat) (m : Mach) : Mach :=
  if portDead i m then setPort i 3 m
  else if fwRuns m && fon (EPL_PORT_CTRL.en i) m && fget (EPL_PORT_CTRL.loop i) m == 0 then setPort i 1 m
  else setPort i 0 m
def trainPorts (m : Mach) : Mach := each ports4 trainPort m

/-- PORT_TRAINED. -/
def portTrained (i : Nat) (m : Mach) : Mach := if portState i m = 1 then setPort i 2 m else m
def execPortTrained (i : Fin 4) (s : State) : Host.Outcome State Fault Refusal := answer s (portTrained i s.m)

/-- Now is a slot boundary, where the slots run. -/
def atBoundary (m : Mach) : Bool := !timingOn m || tick m == m.slotStart

/-- PORT_BOND_JOIN: at the slot boundary after 10 ms up. -/
def portJoin (i : Nat) (m : Mach) : Mach :=
  if portState i m = 2 ∧ bonded i m = false ∧ atBoundary m = true then
    sendPortState (setEv EPL_EVENTS.port_chg (setBonded i true m))
  else m
def execPortBondJoin (i : Fin 4) (s : State) : Host.Outcome State Fault Refusal := answer s (portJoin i s.m)

/-- PORT_LINK_LOSS: `ucw` uncorrectable codewords were counted. -/
def portLoss (i ucw : Nat) (m : Mach) : Mach :=
  let m1 := cnt (EPL_FEC_UCW i) ucw 0xFFFFFFFF m
  if portState i m = 2 then trainPort i m1 else m1
def execPortLinkLoss (i : Fin 4) (ucw : Nat) (s : State) : Host.Outcome State Fault Refusal := answer s (portLoss i ucw s.m)

/-- PORT_TRAIN_TIMEOUT. -/
def portTimeout (i : Nat) (m : Mach) : Mach := if portState i m = 1 then setPort i 3 m else m
def execPortTrainTimeout (i : Fin 4) (s : State) : Host.Outcome State Fault Refusal := answer s (portTimeout i s.m)

/-- PORT_RETRY: each 1 s a FAILED port trains again, where its lanes have macros. -/
def portRetry (i : Nat) (m : Mach) : Mach := if portState i m = 3 then trainPort i m else m
def execPortRetry (i : Fin 4) (s : State) : Host.Outcome State Fault Refusal := answer s (portRetry i s.m)

/-- A write of EPL_PORT_CTRL_i (R366): a loopback point on the last bonded port is refused. A port that is not enabled or
has a point set carries nothing; otherwise it trains. -/
def portCtrlWrite (i : Nat) (v : W) (m : Mach) : Mach :=
  if wfld v 1 2 ≠ 0 ∧ bondedIn 15 m = [i] then setEv EPL_EVENTS.loop_refused m
  else
    let old := rd (EPL_PORT_CTRL i) m
    let m1 := wr (EPL_PORT_CTRL i) (v &&& 7#32) m
    if old = v &&& 7#32 then m1
    else if v.getLsbD 0 ∧ wfld v 1 2 = 0 then (if portState i m = 0 then trainPort i m1 else m1)
    else setPort i 0 m1
def execPortLoopbackWrite (i : Fin 4) (v : W) (s : State) : Host.Outcome State Fault Refusal :=
  answer s (gate (EPL_PORT_CTRL i) (portCtrlWrite i v) s.m)

/-- ALL_PORTS_DOWN: no port has been up for 10 ms: a fault of twin class f_link (R463). -/
def allPortsDown (m : Mach) : Mach := if ports4.any fun i => portState i m == 2 then m else twinFault 2 m
def execAllPortsDown (s : State) : Host.Outcome State Fault Refusal := answer s (allPortsDown s.m)

/-! ### The link reference loop (R392) -/

/-- LPLL_REENGAGE: the reference has been good for 1 ms: the loop is locked; ports that its loss took down retrain, and an
MPLL that waits for its reference starts its lock (R81). -/
def lpllReengage (m : Mach) : Mach :=
  let m0 := fset GCTL_DEV_STATE.ref_absent 0 (fset CLK_STATUS.lpll_lock 1 (fset CLK_STATUS.ref_present 1 m))
  let m1 := if timingOn m && fget CLK_STATUS.mpll m == 0 && !m.clk.mpllFailed then startPlanLock m0 else m0
  each (ports4.filter fun i => decide (portState i m = 0)) trainPort m1
def execLpllReengage (s : State) : Host.Outcome State Fault Refusal := answer s (lpllReengage s.m)

/-- LPLL_UNLOCK: every port is DOWN. -/
def lpllUnlock (m : Mach) : Mach :=
  each ports4 (fun i s => setPort i 0 s) (setEv CLK_EVENTS.lpll_unlock (fset CLK_STATUS.lpll_lock 0 m))
def execLpllUnlock (s : State) : Host.Outcome State Fault Refusal := answer s (lpllUnlock s.m)

/-! ### SerDes macros (R365, R458) -/

/-- The spare macro of a direction serves a lane position; the map is recorded in NVM. -/
def serdesSpare (tx : Bool) (m : Mach) : Option Nat := if tx then m.nvm.remap.serdesTx else m.nvm.remap.serdesRx
def refreshSerdes (m : Mach) : Mach :=
  fset EPL_SERDES_MAP.tx (m.nvm.remap.serdesTx.getD 8) (fset EPL_SERDES_MAP.rx (m.nvm.remap.serdesRx.getD 8) m)
def takeSerdes (tx : Bool) (pos : Nat) (m : Mach) : Mach :=
  refreshSerdes (useSpare 7 (if tx then 0 else 1)
    (setRemap (fun r => if tx then { r with serdesTx := some pos } else { r with serdesRx := some pos }) m))
/-- The pool of a direction's macros, and the key of a lane without a macro. -/
def serdesPool (tx : Bool) : Nat := if tx then 0 else 1
def deadKey (tx : Bool) (pos : Nat) : Nat := if tx then pos else 8 + pos

/-- The spare of a direction can take a lane. -/
def serdesFree (tx : Bool) (m : Mach) : Bool := (serdesSpare tx m).isNone && decide (0 < poolLeft 7 (serdesPool tx) m)

/-- The planned substitution that runs is of this macro. -/
def serdesPlanned (tx : Bool) (pos : Nat) (m : Mach) : Bool := match m.hlt.running with
  | some r => r.kind.val == 7 && r.pool == serdesPool tx && r.phys == pos
  | none => false

/-- SERDES_SUBST_PLANNED: at a slot boundary the port leaves the bond, the spare takes the lane, and the port retrains. -/
def serdesSubst (tx : Bool) (pos : Nat) (m : Mach) : Mach :=
  if serdesPlanned tx pos m && serdesFree tx m && atBoundary m then
    plannedDone 7 pos pos 8 (setEv EPL_EVENTS.serdes_remap (trainPort (pos / 2) (takeSerdes tx pos (setBonded (pos / 2) false m))))
  else m
def execSerdesSubstPlanned (tx : Bool) (pos : Fin 8) (s : State) : Host.Outcome State Fault Refusal :=
  answer s (serdesSubst tx pos s.m)

/-- A macro of the link fails hard: the port leaves the bond; the spare takes the lane, or the port is FAILED. -/
def serdesFail (tx : Bool) (pos : Nat) (m : Mach) : Mach :=
  let phys := if serdesSpare tx m = some pos then 8 else pos
  let m1 := setBonded (pos / 2) false (dropSerdes m)
  if serdesFree tx m then
    hardDone 7 phys pos 8 (setEv EPL_EVENTS.serdes_remap (trainPort (pos / 2) (takeSerdes tx pos m1)))
  else
    let m2 := setRemap (fun r => { r with serdesDead := deadKey tx pos :: r.serdesDead }) m1
    noSpare 7 1 phys pos (trainPort (pos / 2) m2)
where
  /-- R440: the macro's own planned substitution is abandoned. -/
  dropSerdes (m : Mach) : Mach :=
    let m1 := { m with hlt := { m.hlt with waiting := m.hlt.waiting.filter fun r =>
      !(r.kind.val == 7 && r.pool == serdesPool tx && r.phys == pos) } }
    if serdesPlanned tx pos m then endPlanned m1 else m1

/-- HLT_MIR_STATUS.spare_for: the lane that the mirror link's third macro serves. -/
def refreshMirLane (m : Mach) : Mach := fset HLT_MIR_STATUS.spare_for (match m.nvm.remap.mirLane with
  | some l => l + 1
  | none => 0) m

/-- A macro of the mirror link fails hard (R458): the third macro takes its lane, or the lane is down. -/
def mirrorFail (l : Nat) (m : Mach) : Mach :=
  if m.nvm.remap.mirLane.isNone && decide (0 < poolLeft 8 0 m) then
    hardDone 8 l l 2 (refreshMirLane (useSpare 8 0 (setRemap (fun r => { r with mirLane := some l }) m)))
  else noSpare 8 1 l l (fsetB ⟨HLT_MIR_STATUS, 8 + l, 1⟩ false m)

/-- SERDES_HARD_FAIL. -/
def execSerdesHardFail (l : SerdesLane) (s : State) : Host.Outcome State Fault Refusal :=
  answer s (match l with
    | .tx p => serdesFail true p s.m
    | .rx p => serdesFail false p s.m
    | .mir p => mirrorFail p s.m)

/-! ### Received frames (R363, R373, R381, R389) -/

/-- A discarded frame or message. -/
def rxDiscard (n : Nat) (m : Mach) : Mach := cnt EPL_RX_DISCARD n 0xFFFFFFFF m

/-- The largest frame in force. -/
def mtu (m : Mach) : Nat := clampN 1518 9216 (fget EPL_CFG.mtu m)

/-- The address of port `i`, and of session `s`'s peer. -/
def macOf (lo hi : Nat) (m : Mach) : BitVec 48 := BitVec.ofNat 48 ((rd lo m).toNat + 2 ^ 32 * ((rd hi m).toNat % 65536))
def portMac (i : Nat) (m : Mach) : BitVec 48 := macOf (EPL_MAC_LO i) (EPL_MAC_HI i) m
def sessMac (s : Nat) (m : Mach) : BitVec 48 := macOf (EPL_SESS_MAC_LO s) (EPL_SESS_MAC_HI s) m

/-- R373: the revision that eCPRI 2.0 specifies (PRESUMED, assumption 37: 1), and the supported types. -/
def ecpriOk (h : BitVec 4 × BitVec 8) : Bool := h.1 == 1#4 && (h.2 == 0#8 || h.2 == 2#8 || h.2 == 5#8)

/-- R389: the timestamp of a message that crosses the balls now. -/
def stampNow (fine : BitVec 7) (m : Mach) : Stamp := ⟨tick m, fine.toNat⟩

/-- R381: the header of a native message: its session's peer and version 1, or it is discarded; a gap in the sequence is
noted. -/
def nativeHdr (src : BitVec 48) (h : NativeHdr) (m : Mach) : Mach :=
  let s := h.sess.toNat
  if h.ver ≠ 1#8 ∨ 4 ≤ s ∨ sessBound s m = false ∨ src ≠ sessMac s m then rxDiscard 1 m
  else
    let x := getSess s m
    let gap := match x.rxSeq with
      | some n => decide ((n + 1) % 2 ^ 32 ≠ h.seq.toNat)
      | none => false
    setEvIf gap EPL_EVENTS.seq_gap (setSess s { x with rxSeq := some h.seq.toNat } m)

/-- ETH_FRAME_RX: a frame that crosses the receive balls is checked. What it contains follows as commands of their own. -/
def ethFrameRx (port : Nat) (f : EthFrame) (m : Mach) : Mach :=
  if portState port m ≠ 2 ∨ f.fcsOk = false ∨ f.len < 64 ∨ mtu m < f.len ∨ (f.dst ≠ portMac port m ∧ f.dst ≠ BitVec.allOnes 48) then m
  else
    match f.pay with
    | .ecpri hs => if f.etype = 0xAEFE#16 then rxDiscard (hs.countP fun h => !ecpriOk h) m else rxDiscard 1 m
    | .ptp x fine =>
      if f.etype = 0x88F7#16 then
        sendNat 0 (.ptpRx port (if x.isEvent then stampNow fine m else ⟨0, 0⟩) x) m
      else rxDiscard 1 m
    | .native h => if f.etype.toNat = fget EPL_CFG.etype m then nativeHdr f.src h m else rxDiscard 1 m
    | .other => rxDiscard 1 m
def execEthFrameRx (port : Fin 4) (f : EthFrame) (s : State) : Host.Outcome State Fault Refusal :=
  answer s (ethFrameRx port f s.m)

/-- ECPRI_DELAY_MEAS (R375): the answer to a one-way delay message. -/
def ecpriDelay (port : Nat) (action id : BitVec 8) (fine : BitVec 7) (m : Mach) : Mach :=
  let t := some (stampNow fine m)
  if portState port m ≠ 2 then m
  else match action.toNat with
    | 0 => send (.delayResp port 2 id.toNat t) m
    | 1 => send (.delayResp port 2 id.toNat t) m
    | 3 => send (.delayResp port 0 id.toNat t) m
    | 4 => send (.delayResp port 5 id.toNat t) (send (.delayResp port 1 id.toNat none) m)
    | _ => m
def execEcpriDelayMeas (port : Fin 4) (action id : BitVec 8) (fine : BitVec 7) (s : State) :
    Host.Outcome State Fault Refusal := answer s (ecpriDelay port action id fine s.m)

/-- PTP_TX (R389): a message for a port that is not UP is discarded; an event message is answered with its timestamp. -/
def ptpTx (sess port : Nat) (x : PtpMsg) (fine : BitVec 7) (m : Mach) : Mach :=
  if port < 4 ∧ portState port m = 2 then
    let m1 := send (.ptpOut port x) m
    if x.isEvent then sendNat sess (.ptpTs port (stampNow fine m) x.seqId x.msgType) m1 else m1
  else rxDiscard 1 m
def execPtpTx (sess : Fin 4) (port : Nat) (x : PtpMsg) (fine : BitVec 7) (s : State) : Host.Outcome State Fault Refusal :=
  answer s (nativeIn sess (.ptpTx sess port x fine) (ptpTx sess port x fine) s.m)

/-! ### Format tables (R380) -/

/-- A format entry: mantissa bits, BFP or FIX, blocks for a message, ports, tag sent. -/
structure Fmt where
  m : Nat
  bfp : Bool
  nblk : Nat
  ports : Nat
  tagged : Bool
  deriving DecidableEq, Repr

/-- R380: the section: 64 entries of 8 bytes, then the map of 32 uplink beams, 64 uplink elements, 32 downlink beams and 64
downlink elements (DESIGN CHOICE, assumption 38: in that order, one byte each). -/
def fmtEntry (i : Nat) (m : Mach) : Fmt :=
  let s := deckSect 6 m
  let k := byteAt s (8 * i)
  ⟨k % 32, decide (128 ≤ k), byteAt s (8 * i + 1), byteAt s (8 * i + 2) % 16, decide (128 ≤ byteAt s (8 * i + 3))⟩
def ulIdx (k : Nat) (m : Mach) : Nat := byteAt (deckSect 6 m) (512 + k)
def dlIdx (k : Nat) (m : Mach) : Nat := byteAt (deckSect 6 m) (608 + k)

/-- R380: an entry that names a format. -/
def fmtOk (f : Fmt) : Bool := decide (8 ≤ f.m ∧ f.m ≤ 16 ∧ 1 ≤ f.nblk) && (f.bfp || f.m == 16)

/-! ### Uplink messages (R370, R371, R374 to R378) -/

/-- R110, R378: the tag of a block. -/
def blockTag (l : List Sample) : Tag × Bool := l.foldl (fun t s => tagMerge t s.tag) (Tag.valid, false)
/-- R378: every I and Q fits `m` bits after a shift of `e`. -/
def fitsAll (mb e : Nat) (l : List Sample) : Bool :=
  l.all fun s => [s.i, s.q].all fun v => satS mb (Int.fdiv v (2 ^ e)) == Int.fdiv v (2 ^ e)

/-- R378: the exponent of a block. -/
def blockExp (f : Fmt) (l : List Sample) : Nat :=
  if f.bfp then ((List.range (21 - f.m)).find? fun e => fitsAll f.m e l).getD (20 - f.m) else 4

/-- A block of twelve samples, zeros past the frame's last. -/
def mkBlock (f : Fmt) (l : List Sample) : IqBlock :=
  let t := blockTag l
  let e := blockExp f l
  let l' := l ++ List.replicate (12 - l.length) { i := 0, q := 0, st := .valid, ovr := false }
  let zero := t.1 == .gap
  ⟨BitVec.ofNat 8 (e + 16 * tagCode t.1 + if t.2 then 64 else 0),
   l'.flatMap fun s => if zero then [0, 0] else [Int.fdiv s.i (2 ^ e), Int.fdiv s.q (2 ^ e)]⟩

/-- The samples of the block that starts at index `j` of a frame; a position that was not released stands as GAP up to the
last one released. -/
def blockAt (q : List (Sample × StreamPos)) (frame j : Nat) : List Sample :=
  let mine := q.filter fun p => p.2.frame == frame && decide (j ≤ p.2.j ∧ p.2.j < j + 12)
  let top := (mine.map fun p => p.2.j).foldl max j
  (List.range (top + 1 - j)).map fun i => ((mine.find? fun p => p.2.j == j + i).map Prod.fst).getD gapSample

/-- The slot of index `j`, by the samples held, else by the frame table. -/
def slotOf (st : UlStream) (q : List (Sample × StreamPos)) (frame j : Nat) (m : Mach) : Nat :=
  match q.find? fun p => p.2.frame == frame && p.2.j == j with
  | some p => p.2.slot
  | none => slotAt (j * 2 ^ streamStages st m * 16 / adcPer16 m) m

/-- A block is complete: its last sample, or one after it, has been released. -/
def blockFull (q : List (Sample × StreamPos)) (frame j : Nat) : Bool :=
  q.any fun p => p.2.frame != frame || decide (j + 11 ≤ p.2.j)

/-- The complete blocks of one slot from index `j`, at most `n`. -/
def blocksFrom (st : UlStream) (q : List (Sample × StreamPos)) (frame slot : Nat) (m : Mach) : Nat → Nat → List Nat
  | 0, _ => []
  | n + 1, j =>
    let held := q.any fun p => p.2.frame == frame && decide (j ≤ p.2.j)
    if held && blockFull q frame j && slotOf st q frame j m == slot then j :: blocksFrom st q frame slot m n (j + 12) else []

/-- R376: the sensor block of a beam's slot. -/
def sensOf (x : UlTx) (frame slot : Nat) : SensBlk :=
  ((x.sens.find? fun e => e.1 == frame && e.2.1 == slot).map fun e => e.2.2).getD ⟨0#48, 0, 0, 0⟩

/-- R374: PC_ID of an uplink stream. -/
def ulPcId (st : UlStream) : Nat := match st with
  | .beam b => b
  | .elem n => 4096 + n

/-- R368: the instant in 1/120 tick at which the message of the samples below index `j` of a frame is launched: 128 ticks after the
release of the last. -/
def launchAt (q : List (Sample × StreamPos)) (frame j : Nat) : Nat :=
  ((q.filter fun e => e.2.frame == frame && decide (e.2.j < j)).map fun e => e.2.at_).foldl max 0 + 120 * 128

/-- IQ_MESSAGE_TX: the next message of a stream: the complete blocks of one slot, at most nblk_max, on the next bonded port of
its mask. A stopped stream sends none (R372); one without a port sets stream_orphan (R371). -/
def iqTx (st : UlStream) (m : Mach) : Mach :=
  let k := ulKey st
  let x := getUlTx k m
  match x.q with
  | [] => m
  | (_, p) :: _ =>
    let f := fmtEntry (ulIdx k m) m
    let j0 := p.j / 12 * 12
    let js := blocksFrom st x.q p.frame p.slot m (max 1 f.nblk) j0
    if js.isEmpty then m
    else
      let jn := j0 + 12 * js.length
      let rest := x.q.filter fun e => !(e.2.frame == p.frame && decide (e.2.j < jn))
      let x1 := { x with q := rest }
      let ps := bondedIn f.ports m
      if m.ulShed.contains k then setUlTx k x1 m
      else match ps with
        | [] => setEv EPL_EVENTS.stream_orphan (setUlTx k x1 m)
        | _ =>
          let first := x.begun != some (p.frame, p.slot)
          let beam := decide (k < 32)
          let last := match rest with
            | (_, r) :: _ => r.frame != p.frame || slotOf st x.q p.frame jn m != p.slot
            | [] => slotOf st x.q p.frame jn m != p.slot
          let sens := if beam && first then some (sensOf x p.frame p.slot) else none
          let flags := (if sens.isSome then 1 else 0) + (if last then 2 else 0)
          let bs := js.map fun j => mkBlock f (blockAt x.q p.frame j)
          send (.iq (ps.getD (x.rot % ps.length) 0) (launchAt x.q p.frame jn) (ulPcId st) (256 * (x.seq % 256) + 128) p.frame (ulIdx k m) j0 flags sens bs)
            (setUlTx k { x1 with seq := (x.seq + 1) % 256, rot := x.rot + 1, begun := some (p.frame, p.slot) } m)
def execIqMessageTx (st : UlStream) (s : State) : Host.Outcome State Fault Refusal := answer s (iqTx st s.m)

/-- R376: at a slot boundary the sensor of each beam of the slot is noted for its first message. -/
def noteSens (m : Mach) : Mach :=
  each (m.mesh.actUl.filterMap fun e => e.2.map fun w => (e.1, w)) (fun e s =>
    let d := e.2.desc
    let ent := (s.mesh.looked.find? fun l => l.frame == s.frameNo && l.slot == s.slot && l.id == d.sensor).bind fun l => l.ent
    let blk : SensBlk := if d.src = 1#2 then
        ⟨d.sensor, 1, (ent.map fun x => x.tOff.toNat).getD 0, (ent.map fun x => x.fOff.toNat).getD 0⟩
      else ⟨0#48, d.src.toNat, 0, 0⟩
    let x := getUlTx e.1 s
    setUlTx e.1 { x with sens := ((s.frameNo, s.slot, blk) :: x.sens).take 8 } s) m

/-! ### Link shedding (R372) -/

/-- The wire bits of a stream in one millisecond: its rate in samples for a millisecond, in messages of nblk_max blocks with
their framing. -/
def streamBits (st : UlStream) (m : Mach) : Rat :=
  let f := fmtEntry (ulIdx (ulKey st) m) m
  let bytes : Nat := 14 + (if f.tagged then 4 else 0) + 4 + 4 + 12 + f.nblk * (1 + 3 * f.m) + 4 + 20
  let rate : Rat := (fsKhz m : Rat) / (2 ^ streamStages st m : Nat)
  rate * (8 * bytes : Nat) / (12 * max 1 f.nblk : Nat)

/-- R372: the order in which streams stop: beams by lowest prio then highest b, then elements, highest n first. -/
def stopKey (st : UlStream) (m : Mach) : Nat := match st with
  | .beam b => ((ulBank b m).map fun w => w.desc.prio.val).getD 0 * 32 + (31 - b.val)
  | .elem n => 1024 + (63 - n.val)

/-- The stream of a list that stops next. -/
def stopNext (l : List UlStream) (m : Mach) : Option UlStream :=
  l.foldl (fun o s => match o with
    | none => some s
    | some t => if stopKey s m < stopKey t m then some s else some t) none

/-- Streams stop until the rest fits `cap` bits in a millisecond; `fuel` bounds how many. -/
def stopUntil (cap : Rat) : Nat → List UlStream → List Nat → Mach → List Nat
  | 0, _, done, _ => done
  | fuel + 1, l, done, m =>
    if (l.map fun s => streamBits s m).sum ≤ cap then done
    else match stopNext l m with
      | none => done
      | some s => stopUntil cap fuel (l.filter (· ≠ s)) (ulKey s :: done) m

/-- At a slot boundary the streams of the slot that the bonded capacity cannot carry are stopped. -/
def linkShed (m : Mach) : Mach :=
  let l := ulStreams m
  let cap : Rat := (90000000 : Nat) * ((bondedIn 15 m).length : Nat)
  let stop := stopUntil cap l.length l [] m
  let m1 := fset EPL_STATUS.shed_n stop.length { m with ulShed := stop }
  setEvIf (stop.any fun k => !m.ulShed.contains k) EPL_EVENTS.link_shed m1

/-! ### Downlink messages (R374, R377 to R379) -/

/-- R378: one block's samples: the block's tag on each; a GAP block, or one whose exponent is too large, is zero. -/
def readBlock (f : Fmt) (b : IqBlock) : List Sample × Bool :=
  let e := b.hdr.toNat % 16
  let big := decide (20 - f.m < e)
  let code := b.hdr.toNat / 16 % 4
  let t : Tag := if big then .gap else match code with
    | 0 => .valid
    | 1 => .settling
    | 2 => .coast
    | _ => .gap
  let ovr := b.hdr.getLsbD 6
  ((List.range 12).map fun i =>
    if t = .gap then { gapSample with ovr := ovr && !big }
    else { i := b.mant.getD (2 * i) 0 * 2 ^ e, q := b.mant.getD (2 * i + 1) 0 * 2 ^ e, st := t, ovr := ovr }, big)

/-- The key of a downlink stream: beam b, or 32 + n. -/
def dlKey (st : DlStream) : Nat := match st with
  | .beam b => b
  | .elem n => 32 + n

/-- The stream that PC_ID names (R374). -/
def dlOfPc (pc : Nat) : Option Nat :=
  let i := pc % 64
  if pc / 64 % 64 ≠ 0 then none
  else if pc / 4096 = 2 ∧ i < 32 then some i
  else if pc / 4096 = 3 then some (32 + i)
  else none

/-- Frame `a` comes before frame `b`, by their 24-bit numbers. -/
def frameBefore (a b : Nat) : Bool := let d := (b + 2 ^ 24 - a) % 2 ^ 24; decide (0 < d ∧ d < 2 ^ 23)

/-- The downlink stream of a key. -/
def dlStreamOf (k : Nat) : DlStream := if k < 32 then .beam (Fin.ofNat 32 k) else .elem (toPath (k - 32))

/-- The downlink mesh's sample period, as ADC clocks: the input rate of a transmit chain with nstages_tx = dl_u (R155), or of
the path's own chain. -/
def dlPeriod (st : DlStream) (m : Mach) : Nat := match st with
  | .beam _ => 2 ^ (2 + fget BMU_CFG.dl_u m)
  | .elem n => 2 ^ (2 + nstages (.duc n) m)

/-- The air time, in 1/120 tick, of index `j` of frame `frame`, which is the running one or the next. -/
def dlAir (st : DlStream) (frame j : Nat) (m : Mach) : Nat :=
  120 * (if frame = m.frameNo then m.frameStart else nextFrameTick m) + j * dlPeriod st m * adcSub m

/-- R65: the anchor that a sample of air time `air` is judged by: for one in the slot that comes next, the anchor that applies there. -/
def dlAnchorAt (air : Nat) (m : Mach) : Nat :=
  if pastSlot air m then ((staged GCTL_ANCHOR_DL m).getD (rd GCTL_ANCHOR_DL m)).toNat % 65536 else anchorOf true m

/-- R65: air time `air` lies in the ticks that an increase of the anchor, in force or about to apply, leaves out. -/
def dlGapAt (air : Nat) (m : Mach) : Bool :=
  let old := anchorOf true m
  let new := dlAnchorAt air m
  decide (air < m.dlGap ∨ (old ≠ 0 ∧ old < new ∧ air < 120 * ((nextSlot m).2 + new - old)))

/-- R60: the arrival deadline, in 1/120 tick, of air time `air`: L_DL and the DAC latency of 4 ticks before it. -/
def dlDeadline (air : Nat) (m : Mach) : Nat := air - 120 * (dlAnchorAt air m + 4)

/-- One sample is placed: the first placement stands; a later one counts as dup; one past its deadline is discarded (R60). -/
def placeOne (k frame j : Nat) (s : Sample) (m : Mach) : Mach :=
  let x := getDlRx k m
  if frameBefore frame x.frame ∨ (frame = x.frame ∧ j < x.j) ∨ frameBefore frame m.frameNo ∨
      (timingOn m = true ∧ dlDeadline (dlAir (dlStreamOf k) frame j m) m < 60 * m.tod) then m
  else if x.placed.any fun p => p.1 == frame && p.2.1 == j then fcnt EPL_DUP_EARLY.dup 1 m
  else setDlRx k { x with placed := x.placed ++ [(frame, j, s)] } m

/-- IQ_MESSAGE_RX: a downlink message on a bonded port. -/
def iqRx (port : Nat) (x : IqMsg) (m : Mach) : Mach :=
  if bonded port m = false then m
  else match dlOfPc x.pcId.toNat with
    | none => rxDiscard 1 m
    | some k =>
      let f := fmtEntry (x.fmt.toNat % 64) m
      if 64 ≤ dlIdx k m ∨ fmtOk (fmtEntry (dlIdx k m) m) = false ∨ x.seqId.getLsbD 7 = false then rxDiscard 1 m
      else if frameBefore ((m.frameNo + 1) % 2 ^ 24) x.frame.toNat then fcnt EPL_DUP_EARLY.early 1 m
      else
        each (x.blocks.zipIdx) (fun b s =>
          let r := readBlock f b.1
          each (r.1.zipIdx) (fun y t => placeOne k x.frame.toNat (x.j.toNat + 12 * b.2 + y.2) y.1 t)
            (if r.2 then rxDiscard 1 s else s)) m
def execIqMessageRx (port : Fin 4) (x : IqMsg) (s : State) : Host.Outcome State Fault Refusal :=
  answerIf (iqOk x) s (iqRx port x s.m)

/-- The position after a downlink position. -/
def dlNext (st : DlStream) (f j : Nat) (m : Mach) : Nat × Nat :=
  if (j + 1) * dlPeriod st m * 16 < m.ftab.len * adcPer16 m then (f, j + 1) else ((f + 1) % 2 ^ 24, 0)

/-- The position whose deadline comes next: a stream that stood still goes on with the frame that comes next. -/
def dlDue (k : Nat) (m : Mach) : Nat × Nat :=
  let x := getDlRx k m
  let n := (m.frameNo + 1) % 2 ^ 24
  if x.frame = m.frameNo ∨ x.frame = n then (x.frame, x.j) else (n, 0)

/-- ARRIVAL_DEADLINE (R60): at its instant the sample due enters the core; one that has not arrived is GAP and counts as link-late,
but for the ticks that an increase of the anchor leaves out (R65). While the anchor is 0 there is no deadline (R64). -/
def arrivalDeadline (st : DlStream) (m : Mach) : Mach :=
  let k := dlKey st
  let d := dlDue k m
  let air := dlAir st d.1 d.2 m
  if timingOn m = false ∨ dlAnchorAt air m = 0 ∨ pastSlot (dlDeadline air m) m = true then m
  else
    let x := getDlRx k m
    let n := dlNext st d.1 d.2 m
    let got := (x.placed.find? fun p => p.1 == d.1 && p.2.1 == d.2).map fun p => p.2.2
    let left := x.placed.filter fun p => !(frameBefore p.1 n.1 || (p.1 == n.1 && decide (p.2.1 < n.2)))
    let m1 := reachSub (dlDeadline air m) (setDlRx k { placed := left, frame := n.1, j := n.2 } m)
    if dlGapAt air m then dlSample st air gapSample m1
    else match got with
      | some s => dlSample st air s m1
      | none => dlSample st air gapSample (cnt EPL_LINK_LATE 1 0xFFFFFFFF m1)
def execArrivalDeadline (st : DlStream) (s : State) : Host.Outcome State Fault Refusal := answer s (arrivalDeadline st s.m)

/-! ### Native messages that need no other unit -/

/-- R384: vectors of the weight pool are written one after the other until the quota refuses one: how many stand. -/
def poolVectors : Nat → List (List W) → Mach → Nat × Mach
  | _, [], m => (0, m)
  | i, v :: l, m =>
    if poolFits i m then
      let r := poolVectors (i + 1) l (poolTouched i (resWrite (partBase 1 m + 256 * i) (v.flatMap fun w => leBytes 4 w.toNat) m))
      (r.1 + 1, r.2)
    else (0, setEv RES_EVENTS.quota m)

/-- The answer is sent, or, where it carries vectors, held until the STANDBY acknowledges (R462). -/
def poolAnswer (sess first n st : Nat) (m : Mach) : Mach :=
  ackNat sess (if n = 0 then none else some (rd DIR_SEQ m)) (.poolAck first n st) m

/-- POOL_WRITE: a STANDBY answers ROLE. -/
def poolWrite (sess first : Nat) (vs : List (List W)) (m : Mach) : Mach :=
  if role m = 2 then poolAnswer sess first 0 3 m
  else
    let r := poolVectors first vs m
    poolAnswer sess first r.1 (if r.1 = vs.length then 0 else 4) r.2
def execPoolWrite (sess : Fin 4) (first : BitVec 16) (vs : List (List W)) (s : State) : Host.Outcome State Fault Refusal :=
  answerIf (vectorsOk vs) s (nativeIn sess (.poolWrite sess first vs) (poolWrite sess first.toNat vs) s.m)

/-- CAP_UPLOAD (R387): queue `k` sends as many 64-byte units as a frame holds. Its units wait while its session has no peer
or no port. -/
def capUpload (k : Nat) (m : Mach) : Mach :=
  let x := getUp k m
  let n := (mtu m - 46) / 64
  let us := x.units.take n
  if us.isEmpty || !sessBound k m || !sessPort k m then m
  else
    let data := us.flatMap Prod.snd
    sendNat k (.capUpload k x.off data) (setUp k { x with units := x.units.drop n, off := x.off + data.length } m)
def execCapUpload (k : Fin 4) (s : State) : Host.Outcome State Fault Refusal := answer s (capUpload k s.m)

/-- GCTL_SUMMARY as read. -/
def summaryWord (m : Mach) : W :=
  BitVec.ofNat 32 (((List.range 19).map fun g => if summaryBit m g then 2 ^ g else 0).sum)

/-- EVENT (R507): a pending EVENT goes to session 0 once a port is bonded and the session is bound. -/
def sendEvent (m : Mach) : Mach :=
  if m.evtPend && anyBonded m && sessBound 0 m && sessPort 0 m then
    sendNat 0 (.event (tick m) [summaryWord m, rd GCTL_DEV_STATE m, rd HLT_REPLACE m, rd GCTL_GLOBAL_EVENTS m])
      { m with evtPend := false }
  else m
def execEvent (s : State) : Host.Outcome State Fault Refusal := answer s (sendEvent s.m)

/-! ### PPS (R390) -/

/-- PPS_IN: an edge less than 0.9 s after the one before is ignored. -/
def ppsIn (fine : BitVec 7) (m : Mach) : Mach :=
  let early := match m.clk.ppsLast with
    | some t => decide (tick m < t + 221184000)
    | none => false
  let m1 := setClk (fun x => { x with ppsLast := some (tick m) }) m
  if early then setEv EPL_EVENTS.pps_early m1
  else wr (EPL_PPS_IN_TS 0) (BitVec.ofNat 32 (tick m)) (wr (EPL_PPS_IN_TS 1) (BitVec.ofNat 32 (tick m / 2 ^ 32))
    (wr (EPL_PPS_IN_TS 2) (BitVec.ofNat 32 fine.toNat) m1))
def execPpsIn (fine : BitVec 7) (s : State) : Host.Outcome State Fault Refusal := answer s (ppsIn fine s.m)

/-- The tick at which PPS_OUT rises next. -/
def ppsNext (m : Mach) : Nat :=
  let p := 245760000
  let o := fget EPL_PPS_OFF.pps_off m % p
  tick m + (o + p - tick m % p) % p

/-- PPS_OUT is high for pps_w ms (0 acts as 1, above 500 as 500). -/
def ppsWidth (m : Mach) : Nat := clampN 1 500 (fget EPL_PPS_CFG.pps_w m) * ticksPerMs

/-- PPS_OUT: it rises at its next tick. -/
def ppsOut (m : Mach) : Mach :=
  if fon EPL_PPS_CFG.pps_en m && mpllLocked m && timingOn m then
    let t := ppsNext m
    send .pps (setClk (fun x => { x with ppsHigh := some (t + ppsWidth m) }) (advanceTo t m))
  else m
def execPpsOut (s : State) : Host.Outcome State Fault Refusal := answer s (ppsOut s.m)

/-- The level of PPS_OUT: low while the MPLL is unlocked or pps_en is 0. -/
def ppsLevel (m : Mach) : Bool :=
  fon EPL_PPS_CFG.pps_en m && mpllLocked m && (match m.clk.ppsHigh with
    | some t => decide (tick m < t)
    | none => false)

end Sys2Proof.Machine
end

