-- ==== Sys2Proof/Machine/Power.lean ====
section
/-! DEFINITION. Power and reset (spec/02, R71, R75, R78, R80; spec/14, R436, R437; spec/15, R467, R468; spec/18, R513 to R517,
R529): what each reset keeps, and the shutdowns. -/

namespace Sys2Proof.Machine

/-! ### What a reset keeps -/

/-- Registers that read fuses. -/
def fuseRegs : List Nat := [GCTL_UID_LO, GCTL_UID_HI, IMG_FUSE]
/-- Registers of the thermal sampler and the shutdown latch (R437, R529). -/
def thermRegs : List Nat :=
  [MON_SHDN_CAUSE, MON_THERM_STATUS, MON_SENS_BROKEN_LO, MON_SENS_BROKEN_HI] ++ (List.range 36).map MON_TEMP
/-- Registers of the housekeeping domain (R71), the voltage request among them (R511). -/
def hkRegs : List Nat := [GCTL_DEV_STATE, GCTL_STATE_EVENTS, GCTL_AVS_STATUS]

def keepRegs (l : List Nat) (m : Mach) : Tab W := m.regs.filter fun e => l.contains e.1

/-- A page program of the NAND is in progress: a snapshot or a firmware bank is being written. -/
def nvmWriting (m : Mach) : Bool := fget DIR_SNAP_STATUS.state m == 1 || m.img.fwWrite.isSome

/-- R217: a snapshot that is being written, or waits to be, is interrupted: the device finds it so when it starts again. -/
def snapCutOff (m : Mach) : Bool := m.nvm.snapCut || fget DIR_SNAP_STATUS.state m == 1 || m.dir.snapQ

/-- R71, R75, R78: the core domains are in reset: every register but those of the housekeeping domain and the sampler at its
reset value, every unit of the core at rest, every quadrant POWERED_DOWN, the time of day 0. Pins that only the board drives
keep their levels. ref_absent and deck_loaded stay too, until BOOT gets to them. -/
def coreReset (m : Mach) : Mach :=
  let r : Mach := { regs := keepRegs (fuseRegs ++ thermRegs ++ hkRegs) m, power := m.power, present := m.present,
                    poreset := m.poreset, replaceN := m.replaceN, sens := m.sens, jtag := m.jtag, out := m.out, free := m.free,
                    nvm := { m.nvm with program := nvmWriting m, snapCut := snapCutOff m }, logSeq := m.logSeq }
  let r1 := fset HLT_TWIN_STATUS.tok_in (fget HLT_TWIN_STATUS.tok_in m)
    (fset CLK_STATUS.lpll_lock (fget CLK_STATUS.lpll_lock m) (fset CLK_STATUS.ref_present (fget CLK_STATUS.ref_present m) r))
  fset GCTL_DEV_STATE.busy 0 r1

/-- R75: SOFT_RESET: the token is released, the core domains are reset, and the boot sequence starts again at core reset
release. Thermal shutdown and OFF are not left by it. -/
def softReset (cause : Nat) (m : Mach) : Mach :=
  if devState m = 7 ∨ devState m = 0 then m
  else
    let m1 := coreReset (each quads4 stopRunning (releaseToken 0xFF m))
    setDev 1 cause { m1 with power := if m.power = .coreRun then .vddGood else m.power }

/-- R514, R517: without the always-on rail nothing is left but the NVM and the fuses. -/
def powerOff (m : Mach) : Mach :=
  let r : Mach := { regs := keepRegs fuseRegs m, power := .off, present := m.present, poreset := m.poreset, out := m.out,
                    free := m.free, nvm := { m.nvm with program := false, snapCut := snapCutOff m } }
  fset GCTL_DEV_STATE.state 0 r

/-- A register that the firmware loads from the settings record: the record follows an accepted write (spec/02, spec/03, spec/06,
spec/14, spec/15). Without a NAND block for it the write of the record is refused (R447). -/
def saveSetting (a : Nat) (m : Mach) : Mach :=
  if nandOut m || !recOk 0 m then m
  else { m with nvm := { m.nvm with settings := tabPut (fun _ => none) m.nvm.settings a (some (rd a m)) } }

/-! ### Shutdown (R436, R437) -/

/-- MON_SHDN_CAUSE.t_now and the shutdown fields. -/
def shdnCause (sensor : Nat) (v : Int) (m : Mach) : Mach :=
  fset MON_SHDN_CAUSE.t_now (fget MON_THERM_STATUS.tmax m)
    (fset MON_SHDN_CAUSE.latched 1 (fset MON_SHDN_CAUSE.sensor sensor (fset MON_SHDN_CAUSE.t_dec (toBits 10 v) m)))

/-- R436: the shutdown threshold is entered: the cause is written, the token is released, outputs and clocks are off, the core
and the link are stopped, and the device is SHUTDOWN_LATCHED. The decision is logged unless a program is running, for no
program starts after it (DEDUCED, assumption 39, as R468 has it for a removal). -/
def shutdown (sensor : Nat) (v : Int) (m : Mach) : Mach :=
  if devState m = 7 ∨ m.power = .off then m
  else
    let m1 := shdnCause sensor v m
    let m2 := if nvmWriting m then m1 else
      logCode 0x0400 1 0xFF 0xFFFF 0xFFFF (leBytes 4 (rd MON_SHDN_CAUSE m1).toNat) m1
    let m3 := coreReset (releaseToken 0 m2)
    setDev 7 6 { m3 with power := .held }

/-- NAND_PROGRAM_COMPLETE: a program in progress at a reset or shutdown completes. -/
def nandProgramDone (m : Mach) : Mach := { m with nvm := { m.nvm with program := false } }
def execNandProgramComplete (s : State) : Host.Outcome State Fault Refusal := answer s (nandProgramDone s.m)

/-- HOT_PLUG_REMOVAL (R468): as at a thermal shutdown, then OFF; it is a loss of the always-on power (R437). -/
def hotPlug (m : Mach) : Mach :=
  if m.power = .off then { m with present := false }
  else
    let m1 := if nvmWriting m || m.nvm.program then m else logCode 0x0401 1 0xFF 0xFFFF 0xFFFF [] m
    { powerOff (releaseToken 0xFF m1) with present := false }
def execHotPlugRemoval (s : State) : Host.Outcome State Fault Refusal := answer s (hotPlug s.m)

/-- AON_RAIL_LOSS (R517). -/
def execAonRailLoss (s : State) : Host.Outcome State Fault Refusal := answer s (powerOff s.m)

/-! ### PORESET_N, VDD_CORE (R513, R516, R529, R80) -/

/-- PORESET_ASSERT (R529): every domain but the thermal sampler, the latch and MON_SHDN_CAUSE is in reset; the device is OFF.
A latched device stays latched. -/
def poresetAssert (m : Mach) : Mach :=
  if m.power = .off ∨ devState m = 7 then { m with poreset := true }
  else
    let m1 := coreReset (releaseToken 0xFF m)
    let m2 : Mach := { m1 with regs := keepRegs (fuseRegs ++ thermRegs) m1, power := .held, poreset := true, replaceN := false,
                               jtag := {}, logSeq := 0 }
    fset GCTL_DEV_STATE.state 0 (fset HLT_TWIN_STATUS.tok_in (fget HLT_TWIN_STATUS.tok_in m)
      (fset CLK_STATUS.ref_present (fget CLK_STATUS.ref_present m) m2))
def execPoresetAssert (s : State) : Host.Outcome State Fault Refusal := answer s (poresetAssert s.m)

/-- PORESET_RELEASE takes effect (R467, R513): PRESENT_N is low and the rails are valid. The device is in BOOT with the core in
reset and requests code 40 (R56). -/
def poresetRelease (m : Mach) : Mach :=
  if devState m = 7 then { m with poreset := false }
  else if m.power = .off ∨ m.power = .held then
    send (.avs (avsFrame (fget GCTL_AVS_STATUS.req_code m)))
      { wr GCTL_DEV_STATE (regReset GCTL_DEV_STATE) m with power := .waitCore, present := true, poreset := false }
  else m
def execPoresetRelease (s : State) : Host.Outcome State Fault Refusal := answer s (poresetRelease s.m)

/-- VDD_CORE_POWER_GOOD: the core will be released 100 µs later (R513). -/
def vddGood (m : Mach) : Mach := if m.power = .waitCore then { m with power := .vddGood } else m
def execVddCorePowerGood (s : State) : Host.Outcome State Fault Refusal := answer s (vddGood s.m)

/-- VDD_TIMEOUT (R80). -/
def vddTimeout (m : Mach) : Mach := if m.power = .waitCore then setEv GCTL_STATE_EVENTS.vdd_timeout m else m
def execVddTimeout (s : State) : Host.Outcome State Fault Refusal := answer s (vddTimeout s.m)

/-- VDD_CORE_BROWNOUT (R516): a soft reset that holds the core until power-good. -/
def brownout (m : Mach) : Mach :=
  if m.power = .coreRun ∧ devState m ≠ 7 then { softReset 7 m with power := .waitCore } else m
def execVddCoreBrownout (s : State) : Host.Outcome State Fault Refusal := answer s (brownout s.m)

/-! ### The SOFT_RESET command (R72, R75) -/

/-- A command of GCTL_DEV_CMD while no transition is in progress; otherwise state_err. -/
def stateErr (m : Mach) : Mach := setEv GCTL_STATE_EVENTS.state_err m
def unlessBusy (f : Mach → Mach) (m : Mach) : Mach := if fon GCTL_DEV_STATE.busy m then stateErr m else f m

def execSoftReset (s : State) : Host.Outcome State Fault Refusal :=
  answer s (gate GCTL_DEV_CMD (unlessBusy (softReset 7)) s.m)

end Sys2Proof.Machine
end

