-- ==== Sys2Proof/Machine/Monitor.lean ====
section
/-! DEFINITION. The monitor converters and the thermal sampler (spec/14): sequences, triggers, results, the system groups, the
sensors' valid values, the thresholds and the lehr. -/

namespace Sys2Proof.Machine

/-! ### Triggers and sequences (R421 to R423) -/

/-- Entries of a sequence: 0 acts as 1, above 32 as 32. -/
def seqLen (ctl : W) : Nat := clampN 1 32 (wfld ctl 0 6)

/-- A sequence starts: the settings and the entries in force are the ones it will use. -/
def monStart (q : Nat) (m : Mach) : Mach :=
  let ctl := rd (MON_CTRL q) m
  let ents := (List.range (seqLen ctl)).map fun e => rd (MON_SEQ q e) m
  setMon q { getMon q m with ctl := ctl, ents := ents, stop := false }
    (fset (MON_STATUS.entry q) 0 (fset (MON_STATUS.pending q) 0 (fset (MON_STATUS.busy q) 1 m)))

/-- A trigger reaches converter `q`. -/
def monTrigger (q : Nat) (m : Mach) : Mach :=
  if fon (MON_STATUS.cal_busy q) m then setEv (MON_EVENTS.trig_missed q) m
  else if fon (MON_STATUS.busy q) m then
    if (getMon q m).ctl.getLsbD 7 then m
    else if fon (MON_STATUS.pending q) m then setEv (MON_EVENTS.trig_missed q) m
    else fset (MON_STATUS.pending q) 1 m
  else monStart q m

/-- The TRIG command: the source of a converter with trig_src 0. -/
def monTrig (q : Nat) (m : Mach) : Mach := if fon (MON_CTRL.trig_src q) m then m else monTrigger q m
def execMonTrig (q : Fin 4) (s : State) : Host.Outcome State Fault Refusal := answer s (gate (MON_CMD q) (monTrig q) s.m)

/-- The common trigger reaches every converter that selects it. -/
def monCommon (m : Mach) : Mach := each (quads4.filter fun q => fon (MON_CTRL.trig_src q) m) monTrigger m

/-- MON_TRIG_CMD: bit 0 with the key 0x6E0B raises the common trigger where MON_TRIG_CFG selects it. -/
def monTrigCmd (v : W) (m : Mach) : Mach :=
  if wfld v 16 16 = 0x6E0B ∧ v.getLsbD 0 = true ∧ fget MON_TRIG_CFG.src m = 0 then monCommon m else m
def execMonTrigCmd (v : W) (s : State) : Host.Outcome State Fault Refusal := answer s (gate MON_TRIG_CMD (monTrigCmd v) s.m)

/-- R422: the period of the common trigger in ticks. -/
def trigPeriod (m : Mach) : Nat := max 25 (fget MON_TRIG_CFG.period m)

/-- R422: the first periodic trigger, one period after the first frame boundary that follows (DESIGN CHOICE, assumption 101). -/
def trigArm (m : Mach) : Mach :=
  { m with monTick := if fget MON_TRIG_CFG.src m = 3 then some (nextFrameTick m + trigPeriod m) else none }

/-- A slot boundary, or a frame boundary, raises the common trigger where MON_TRIG_CFG selects it. -/
def monBoundary (frame : Bool) (m : Mach) : Mach :=
  let k := fget MON_TRIG_CFG.src m
  if k = 1 ∨ (k = 2 ∧ frame = true) then monCommon m else m

/-- The periodic trigger comes at its tick, if that lies before the slot boundary that comes next. -/
def monPeriodic (m : Mach) : Mach :=
  match m.monTick with
  | some t => if timingOn m ∧ t < (nextSlot m).2 then
      monCommon { advanceTo t m with monTick := some (t + trigPeriod m) } else m
  | none => m

/-- The converter rests. -/
def monIdle (q : Nat) (m : Mach) : Mach :=
  setMon q { getMon q m with ents := [], stop := false }
    (fset (MON_STATUS.pending q) 0 (fset (MON_STATUS.busy q) 0 m))

/-- The STOP command: the sequence ends once the results of its current entry are delivered. -/
def monStop (q : Nat) (m : Mach) : Mach :=
  if fon (MON_STATUS.busy q) m then setMon q { getMon q m with stop := true } (fset (MON_STATUS.pending q) 0 m) else m
def execMonStop (q : Fin 4) (s : State) : Host.Outcome State Fault Refusal := answer s (gate (MON_CMD q) (monStop q) s.m)

/-- The CAL command (R428): refused while a sequence runs or is pending. -/
def monCal (q : Nat) (m : Mach) : Mach :=
  if fon (MON_STATUS.busy q) m || fon (MON_STATUS.pending q) m then setEv (MON_EVENTS.cmd_refused q) m
  else fset (MON_STATUS.cal_busy q) 1 m
def execMonCal (q : Fin 4) (s : State) : Host.Outcome State Fault Refusal := answer s (gate (MON_CMD q) (monCal q) s.m)

/-- A write of MON_CMD_q. -/
def monCmdWrite (q : Nat) (v : W) (m : Mach) : Mach :=
  if wfld v 16 16 ≠ 0x6E0B then setEv (MON_EVENTS.cmd_refused q) m
  else match wfld v 0 2 with
    | 1 => monTrig q m
    | 2 => monStop q m
    | 3 => monCal q m
    | _ => m

/-- A write of a factor register (R428). -/
def monFactWrite (q a : Nat) (v : W) (m : Mach) : Mach :=
  if fon (MON_STATUS.busy q) m || fon (MON_STATUS.pending q) m then setEv (MON_EVENTS.cmd_refused q) m else wr a v m

/-- MON_CAL_DONE: a self-calibration has found the factors. -/
def monCalDone (q : Nat) (off : BitVec 14) (gain : BitVec 16) (m : Mach) : Mach :=
  if fon (MON_STATUS.cal_busy q) m then
    setEv (MON_EVENTS.cal_done q) (fset (MON_STATUS.cal_valid q) 1 (fset (MON_STATUS.cal_busy q) 0
      (fset (MON_CAL_GAIN.gain q) gain.toNat (fset (MON_CAL_OFF.off q) off.toNat m))))
  else m
def execMonCalDone (q : Fin 4) (off : BitVec 14) (gain : BitVec 16) (s : State) : Host.Outcome State Fault Refusal :=
  answer s (monCalDone q off gain s.m)

/-! ### Results (R419, R420, R424, R425) -/

/-- An entry that is converted as input 23 (R421): input 24 to 31, or diff on an input other than an even external one. -/
def entBad (e : W) : Bool := decide (24 ≤ wfld e 0 5) || (e.getLsbD 5 && decide (16 ≤ wfld e 0 5 ∨ wfld e 0 5 % 2 = 1))

/-- R420: the code of one conversion of `uv` microvolts at the converter, with its factors in force. -/
def monCode (diff : Bool) (uv : Int) : Int :=
  let c := Int.fdiv ((if diff then 2048 else 4096) * uv) 1000000
  if diff then satS 12 c else if c < 0 then 0 else if 4095 < c then 4095 else c

/-- R420, R421: the 16-bit result of an entry from its conversions: their mean, rounded down, in its place. The ground reference reads
0 once its converter is self-calibrated (`cal`; R419). -/
def monResult (cal : Bool) (e : W) (uvs : List Int) : Nat :=
  let diff := e.getLsbD 5 && !entBad e
  let c := if cal && (entBad e || wfld e 0 5 == 23) then 0 else Int.fdiv ((uvs.map (monCode diff)).sum) (2 ^ wfld e 11 2 : Nat)
  toBits 16 (if e.getLsbD 6 then 16 * c else c)

/-- R425: a result joins the FIFO. -/
def monPush (q r entry : Nat) (m : Mach) : Mach :=
  let x := getMon q m
  if x.fifo.length < 1024 then
    let w := BitVec.ofNat 32 (r + 2 ^ 16 * (entry % 32) + 2 ^ 24 * (fget (MON_STATUS.seq_count q) m % 128) + 2 ^ 31)
    fset (MON_FIFO_LVL.lvl q) (x.fifo.length + 1) (setMon q { x with fifo := x.fifo ++ [w] } m)
  else setEv (MON_EVENTS.fifo_ovf q) m

/-- R424: a result is written to its data register. -/
def monData (q r entry : Nat) (m : Mach) : Mach :=
  let unread := fon (MON_DATA.new q entry) m
  setEvIf unread (MON_EVENTS.overrun q) (fsetB (MON_DATA.overrun q entry) (unread || fon (MON_DATA.overrun q entry) m)
    (fset (MON_DATA.new q entry) 1 (fset (MON_DATA.result q entry) r m)))

/-- MON_ENTRY_RESULT: the conversions of the entry in progress are done; a sequence that is to stop ends here. -/
def monEntry (q : Nat) (uvs : List Int) (m : Mach) : Mach :=
  let x := getMon q m
  match x.ents with
  | [] => m
  | e :: l =>
    if uvs.length = 2 ^ wfld e 11 2 then
      let k := fget (MON_STATUS.entry q) m
      let r := monResult (fon (MON_STATUS.cal_valid q) m) e uvs
      let m1 := setEvIf (entBad e) (MON_EVENTS.cfg_err q) (monData q r k m)
      let m2 := if x.ctl.getLsbD 8 then monPush q r k m1 else m1
      if x.stop ∧ l ≠ [] then monIdle q m2
      else
        let m3 := setMon q { getMon q m2 with ents := l } m2
        if l = [] then m3 else fset (MON_STATUS.entry q) (k + 1) m3
    else m
def execMonEntryResult (q : Fin 4) (uvs : List Int) (s : State) : Host.Outcome State Fault Refusal :=
  answer s (monEntry q uvs s.m)

/-- MON_SEQUENCE_END: every entry's result is delivered. A continuous sequence, or a pending one, starts. -/
def monSeqEnd (q : Nat) (m : Mach) : Mach :=
  let x := getMon q m
  if fon (MON_STATUS.busy q) m ∧ x.ents = [] then
    let m1 := fset (MON_STATUS.seq_count q) (fget (MON_STATUS.seq_count q) m + 1) m
    if x.stop then monIdle q m1
    else if x.ctl.getLsbD 7 ∨ fon (MON_STATUS.pending q) m = true then monStart q m1
    else monIdle q m1
  else m
def execMonSequenceEnd (q : Fin 4) (s : State) : Host.Outcome State Fault Refusal := answer s (monSeqEnd q s.m)

/-- A read of MON_FIFO_q: the oldest word, which it removes; 0 and fifo_udf where there is none. -/
def monFifoPop (q : Nat) (m : Mach) : W × Mach :=
  let x := getMon q m
  match x.fifo with
  | [] => (0#32, setEv (MON_EVENTS.fifo_udf q) m)
  | w :: l => (w, fset (MON_FIFO_LVL.lvl q) l.length (setMon q { x with fifo := l } m))
def execMonFifoRead (q : Fin 4) (s : State) : Host.Outcome State Fault Refusal :=
  answer s (returnWord (gateRead (MON_FIFO q) (monFifoPop q) s.m))

/-- A read of MON_DATA_q_e clears new and overrun. -/
def monDataPop (q e : Nat) (m : Mach) : W × Mach :=
  (rd (MON_DATA q e) m, fset (MON_DATA.overrun q e) 0 (fset (MON_DATA.new q e) 0 m))
def execMonDataRead (q : Fin 4) (e : Fin 32) (s : State) : Host.Outcome State Fault Refusal :=
  answer s (returnWord (gateRead (MON_DATA q e) (monDataPop q e) s.m))

/-! ### System groups (R426, R57) -/

/-- An insertion sort of numbers. -/
def insInt (x : Int) : List Int → List Int
  | [] => [x]
  | y :: l => if x ≤ y then x :: y :: l else y :: insInt x l
def sortInts (l : List Int) : List Int := l.foldr insInt []

/-- Twice the median; that of an even count is the mean of the two middle values (R430). -/
def median2 (l : List Int) : Option Int :=
  let s := sortInts l
  let n := s.length
  if n = 0 then none else some (s.getD ((n - 1) / 2) 0 + s.getD (n / 2) 0)

/-- Converter `q` takes the codes of one group; the means are those of the last 20 groups, 1 ms, rounded down (DESIGN CHOICE,
assumption 40). -/
def monGroup (q : Nat) (cs : List (BitVec 12)) (m : Mach) : Mach :=
  let sys := ((cs.map BitVec.toNat) :: (getMon q m).sys).take 20
  each quads4 (fun i s => fset (MON_SYS.mean q i) ((sys.map fun g => g.getD i 0).sum / sys.length)
    (fset (MON_SYS.latest q i) (cs.getD i 0#12).toNat s)) (setMon q { getMon q m with sys := sys } m)

/-- VDD_CORE as a code, rounded down, from twice the converter code of input 17 (1.000 V full scale, 0.600 V + 5 mV a code). -/
def vddCode (c2 : Int) : Nat := min 255 (Int.fdiv (25 * c2) 1024 - 120).toNat

/-- R57, R426: the measured supply is the median over the converters that are not self-calibrating. -/
def monVdd (m : Mach) : Mach :=
  let l := (quads4.filter fun q => !fon (MON_STATUS.cal_busy q) m).map fun q => ((fget (MON_SYS.latest q 0) m : Nat) : Int)
  match median2 l with
  | none => m
  | some c =>
    let m1 := fset GCTL_AVS_STATUS.meas_code (vddCode c) m
    if monCompares m1 && avsMatches m1 then { m1 with lad := { m1.lad with noresp := false } } else m1

/-- MON_SYSTEM_GROUP, every 50 µs. -/
def monSystem (codes : List (List (BitVec 12))) (m : Mach) : Mach :=
  if coreOn m then monVdd (each quads4 (fun q s => monGroup q (codes.getD q []) s) m) else m
def execMonSystemGroup (codes : List (List (BitVec 12))) (s : State) : Host.Outcome State Fault Refusal :=
  answerIf (groupsOk codes) s (monSystem codes s.m)

/-! ### The sensors (R429 to R431) -/

/-- R430: the neighbours of sensor `i`. -/
def neighbours (i : Nat) : List Nat :=
  if i < 32 then [6, 7, 1, 2].map fun d => i / 8 * 8 + (i + d) % 8
  else [32, 33, 34, 35].filter (· ≠ i)

def sensBroken (i : Nat) (m : Mach) : Bool := m.nvm.remap.sensBroken.contains i

/-- The valid value of sensor `i`, in 0.25 °C. -/
def sensVal (i : Nat) (m : Mach) : Int := ((getSens i m).hist).headD 0

/-- The neighbours of a sensor that have a valid value of their own: neither broken nor unread. -/
def validNbrs (i : Nat) (m : Mach) : List Nat := (neighbours i).filter fun j => !sensBroken j m && (getSens j m).seen

/-- Twice the reference of a sensor. -/
def sensRef2 (i : Nat) (m : Mach) : Option Int := median2 ((validNbrs i m).map fun j => sensVal j m)

/-- MON_SENS_BROKEN_LO and _HI follow the remap table. -/
def refreshBroken (m : Mach) : Mach :=
  let n := (m.nvm.remap.sensBroken.map fun i => 2 ^ i).sum
  wr MON_SENS_BROKEN_HI (BitVec.ofNat 32 (n / 2 ^ 32 % 16)) (wr MON_SENS_BROKEN_LO (BitVec.ofNat 32 n) m)

/-- R431: sensor `i` is left with fewer than two neighbours that are not broken. -/
def coverLost (i : Nat) (m : Mach) : Bool := decide (((neighbours i).filter fun j => !sensBroken j m).length < 2)

/-- R31, R429: the die that sensor `i` lies on. -/
def sensDie (i : Nat) : Nat := if i < 32 then 0 else if i < 34 then 1 else 2

/-- R431: sensor `i` is broken from now on. -/
def sensBreak (i : Nat) (m : Mach) : Mach :=
  if sensBroken i m then m
  else
    let m1 := refreshBroken (setRemap (fun r => { r with sensBroken := i :: r.sensBroken }) m)
    let m2 := logCode 0x0106 (sensDie i) 11 i 0xFFFF [] (whenB (coreOn m1) (setEvDie (sensDie i) MON_THERM_EVENTS.sens_broken) m1)
    if (List.range 36).any fun j => coverLost j m2 && !coverLost j m then raiseReplace HLT_REPLACE.sensor m2 else m2

/-- The reading lies more than 8 °C from the reference (in half steps of 0.25 °C). -/
def offRef (x ref2 : Int) : Bool := decide (64 < (2 * x - ref2).natAbs)

/-- R430: the valid value of a reading of sensor `i`, and whether the reading was replaced. A reference that falls between two
steps of 0.25 °C is rounded (DESIGN CHOICE, assumption 29). -/
def validOf (i : Nat) (x : Int) (m : Mach) : Int × Bool :=
  let two := decide (2 ≤ (validNbrs i m).length)
  match sensRef2 i m with
  | none => if sensBroken i m then (sensVal i m, true) else (x, false)
  | some r =>
    if sensBroken i m then (roundDiv r 2, true)
    else if two && offRef x r then (roundDiv r 2, true) else (x, false)

/-- The thresholds in 0.25 °C: warning, throttle, shutdown. -/
def thresholds (m : Mach) : List Int :=
  [fget MON_THR.warning m, fget MON_THR.throttle m, fget MON_THR.shutdown m].map fun t : Nat => 4 * (t : Int)

/-- R429: a reading within 5 °C of a threshold is read fast. -/
def nearThr (x : Int) (m : Mach) : Bool := (thresholds m).any fun t => decide ((x - t).natAbs ≤ 20)

/-- MON_THERM_STATUS: the largest valid value and its sensor, the fast sensors; MON_SHDN_CAUSE.t_now. -/
def refreshTmax (m : Mach) : Mach :=
  let seen := (List.range 36).filter fun i => (getSens i m).seen
  let hot := seen.foldl (fun (o : Option Nat) i => match o with
    | none => some i
    | some j => if sensVal j m < sensVal i m then some i else some j) none
  let m1 := fsetB MON_THERM_STATUS.fast ((List.range 36).any fun i => fon (MON_TEMP.fast i) m) m
  match hot with
  | none => m1
  | some i =>
    let t := toBits 10 (sensVal i m)
    fset MON_SHDN_CAUSE.t_now t (fset MON_THERM_STATUS.hot i (fset MON_THERM_STATUS.tmax t m1))

/-! ### The thresholds (R432) -/

/-- Sensor `i`'s last 8 readings are all at or above `t`. -/
def allAbove (t : Int) (i : Nat) (m : Mach) : Bool :=
  let h := (getSens i m).hist
  decide (h.length = 8) && h.all fun v => decide (t ≤ v)

/-- A threshold is entered, by sensor `i` or another. -/
def entered (t : Int) (i : Nat) (m : Mach) : Option Nat := (i :: List.range 36).find? fun j => allAbove t j m

/-- A threshold is left: every sensor's last 8 readings are below it minus 2 °C. -/
def allBelow (t : Int) (m : Mach) : Bool := (List.range 36).all fun j => ((getSens j m).hist).all fun v => decide (v < t - 8)

/-- An event of sensor `i`; none is recorded while the core does not run. -/
def thermEv (i : Nat) (f : Fld) (m : Mach) : Mach := if coreOn m then setEvDie (sensDie i) f m else m

def warnStep (i : Nat) (m : Mach) : Mach :=
  let t := (thresholds m).getD 0 0
  if fon MON_THERM_STATUS.warn_st m then (if allBelow t m then fset MON_THERM_STATUS.warn_st 0 m else m)
  else if (entered t i m).isSome then thermEv i MON_THERM_EVENTS.warn (fset MON_THERM_STATUS.warn_st 1 m) else m

/-- The lehr engages or disengages; disengaged, its backoff is 0 (R434). -/
def throttleStep (i : Nat) (m : Mach) : Mach :=
  let t := (thresholds m).getD 1 0
  if fon MON_THERM_STATUS.engaged m then
    if allBelow t m then
      thermEv i MON_THERM_EVENTS.throttle_off (fset MON_THERM_STATUS.lehr_att 0 (fset MON_THERM_STATUS.engaged 0 m))
    else m
  else if (entered t i m).isSome then thermEv i MON_THERM_EVENTS.throttle_on (fset MON_THERM_STATUS.engaged 1 m) else m

def shutStep (i : Nat) (m : Mach) : Mach :=
  match entered ((thresholds m).getD 2 0) i m with
  | some j => shutdown j (sensVal j m) m
  | none => m

/-- SENSOR_READING: sensor `i` reads `x` (signed, 0.25 °C); `ok` is its self-check. -/
def sensorReading (i : Nat) (x : Int) (ok : Bool) (m : Mach) : Mach :=
  if m.power = .off then m
  else
    let m0 := if ok then m else sensBreak i m
    let v := validOf i x m0
    let s := getSens i m0
    let gated := v.2 && !sensBroken i m0
    let dis := if gated then s.dis + 1 else 0
    let m1 := setSens i { seen := true, hist := (v.1 :: s.hist).take 8, dis := dis } m0
    let m2 := whenB gated (thermEv i MON_THERM_EVENTS.sens_gated) m1
    let m3 := if 64 ≤ dis then sensBreak i m2 else m2
    let m4 := fset (MON_TEMP.value i) (toBits 10 v.1) (fsetB (MON_TEMP.broken i) (sensBroken i m3)
      (fsetB (MON_TEMP.fast i) (nearThr x m3) (fsetB (MON_TEMP.gated i) v.2 m3)))
    shutStep i (throttleStep i (warnStep i (refreshTmax m4)))
def execSensorReading (i : Fin 36) (val : BitVec 10) (selfOk : Bool) (s : State) : Host.Outcome State Fault Refusal :=
  answer s (sensorReading i val.toInt selfOk s.m)

/-! ### MON_THR and the lehr (R433, R434) -/

/-- MON_THR_WRITE: applied where it keeps the ranges and the order; the settings record follows. -/
def monThrWrite (v : W) (m : Mach) : Mach :=
  let w := wfld v 0 8
  let t := wfld v 8 8
  let s := wfld v 16 8
  if 60 ≤ w ∧ w ≤ 115 ∧ 80 ≤ t ∧ t ≤ 115 ∧ 110 ≤ s ∧ s ≤ 125 ∧ w ≤ t ∧ t < s then
    saveSetting MON_THR (wr MON_THR (v &&& 0xFFFFFF#32) m)
  else setEv MON_THERM_EVENTS.cfg_err m
def execMonThrWrite (v : W) (s : State) : Host.Outcome State Fault Refusal := answer s (gate MON_THR (monThrWrite v) s.m)

/-- R434: Tgov as a sum and a count: the largest mean of a sensor's last 8 valid values. -/
def tgov (m : Mach) : Int × Nat :=
  (List.range 36).foldl (fun o i =>
    let h := (getSens i m).hist
    if h = [] then o
    else if o.2 = 0 ∨ o.1 * h.length < h.sum * o.2 then (h.sum, h.length) else o) (0, 0)

/-- The backoff that the lehr aims at, in 0.01 dB. -/
def lehrTarget (m : Mach) : Nat :=
  let k := clampN 10 100 (fget MON_LEHR_CFG.k m)
  let cap := clampN 1 60 (fget MON_LEHR_CFG.cap m)
  let g := tgov m
  let x := Int.fdiv ((k : Int) * (g.1 - (thresholds m).getD 1 0 * g.2)) (4 * max 1 g.2 : Nat)
  min (10 * cap) x.toNat

/-- LEHR_UPDATE, each 1 ms from STANDBY onward (R435). -/
def lehrUpdate (m : Mach) : Mach :=
  if timingOn m then
    let old := fget MON_THERM_STATUS.lehr_att m
    if fon MON_THERM_STATUS.engaged m && fon MON_LEHR_CFG.lehr_en m then
      let t := lehrTarget m
      let top := 10 * clampN 1 60 (fget MON_LEHR_CFG.cap m)
      let far := decide (max 1 (fget MON_LEHR_CFG.step_min m) ≤ max t old - min t old)
      if far || t == 0 || t == top then
        setEvIf (t == top && old != top) MON_THERM_EVENTS.lehr_cap (fset MON_THERM_STATUS.lehr_att t m)
      else m
    else fset MON_THERM_STATUS.lehr_att 0 m
  else m
def execLehrUpdate (s : State) : Host.Outcome State Fault Refusal := answer s (lehrUpdate s.m)

end Sys2Proof.Machine
end

