-- ==== Sys2Proof/Machine/Routes.lean ====
section
/-! DEFINITION. What the signal tiles' ports are bound to (R311, R474): samples out of an output port, and the samples
that another tile's port offers. -/

namespace Sys2Proof.Machine

/-- The physical tile that serves logical tile `l`. -/
def tileServing (l : Nat) (m : Mach) : Option Nat :=
  (m.tiles.find? fun e => e.2.serving && e.2.logical == l).map Prod.fst

/-- The binding of port `k` of a tile: class, index, port. -/
def portOf (t k : Nat) (m : Mach) : Nat × Nat × Nat := tabGet (fun _ => (0, 0, 0)) (getTile t m).ports k

/-- A sample out of a port of class `c` and index `i`: into a transmit chain, or an uplink beam's output bridge. A capture
set takes it as a route, with no effect the spec gives (assumption 28). A muted pipeline TILE gives GAP (R52). -/
def routeOut (c i : Nat) (s0 : Sample) (m : Mach) : Mach :=
  let s := if muted 12 m then gapSample else s0
  match c with
  | 2 => let r := nextPos (200 + i) m; ulPush (.beam (Fin.ofNat 32 i)) s r.1 r.2
  | 5 => dlFromTile i s m
  | _ => m

/-- The samples waiting at output port `p` of tile `t`. -/
def outWait (t p : Nat) (m : Mach) : List Sample := if p = 0 then (getTile t m).out0 else (getTile t m).out1
def setOutWait (t p : Nat) (l : List Sample) (m : Mach) : Mach :=
  setTile t (if p = 0 then { getTile t m with out0 := l } else { getTile t m with out1 := l }) m

/-- The samples waiting at input port `p` of tile `t`. -/
def inWait (t p : Nat) (m : Mach) : Nat := if p = 0 then (getTile t m).in0.length else (getTile t m).in1.length

/-- An output port gives what its route takes: another tile's port while it holds fewer than 16 samples (R35), any other
route at once. -/
def pushOut (t p : Nat) (m : Mach) : Mach :=
  let b := portOf t (2 + p) m
  let l := outWait t p m
  match b.1 with
  | 0 => m
  | 6 => match tileServing b.2.1 m with
    | none => m
    | some u =>
      let n := min l.length (16 - inWait u (b.2.2 % 2) m)
      each (l.take n) (portIn u (b.2.2 % 2)) (setOutWait t p (l.drop n) m)
  | c => each l (routeOut c b.2.1) (setOutWait t p [] m)

/-- After input port `p` of tile `t` has been drawn from, the tile that feeds it gives more. -/
def pullIn (t p : Nat) (m : Mach) : Mach :=
  let x := getTile t m
  let srcs := m.tiles.flatMap fun e => [0, 1].filterMap fun o =>
    if tabGet (fun _ => (0, 0, 0)) e.2.ports (2 + o) = (6, x.logical, p) then some (e.1, o) else none
  each srcs (fun s y => pushOut s.1 s.2 y) m

end Sys2Proof.Machine
end

