-- ==== Sys2Proof/Machine/TileIsa.lean ====
section
/-! DEFINITION. The instructions of a signal tile (R313): what each does to the tile, and the command that the physical
tile executes it. A command has its effect on a tile that is RUNNING and not paused and whose PC points at the command's word
(assumption 21). -/

namespace Sys2Proof.Machine

/-! ### Control -/

def doNop (t : Fin 144) : Mach → Mach := runTile (.nop t) t 1 fun x => .done x.next
def execNop (t : Fin 144) (s : State) : Host.Outcome State Fault Refusal := answer s (doNop t s.m)

/-- R313: the PC points after the HALT. -/
def doHalt (t : Fin 144) : Mach → Mach := runTile (.halt t) t 1 fun x => .done { x.next with state := 0 }
def execHalt (t : Fin 144) (s : State) : Host.Outcome State Fault Refusal := answer s (doHalt t s.m)

def doJmp (t : Fin 144) (tgt : BitVec 12) : Mach → Mach := runTile (.jmp t tgt) t 2 fun x => .done (x.jump tgt.toNat)
def execJmp (t : Fin 144) (tgt : BitVec 12) (s : State) : Host.Outcome State Fault Refusal := answer s (doJmp t tgt s.m)

/-- R313: a taken branch takes 2 events, one not taken 1. -/
def branchIf (i : Instr) (t : Fin 144) (c : Tile → Bool) (tgt : BitVec 12) (m : Mach) : Mach :=
  if c (getTile t m) then runTile i t 2 (fun x => .done (x.jump tgt.toNat)) m else runTile i t 1 (fun x => .done x.next) m

def doJz (t : Fin 144) (d : Fin 16) (tgt : BitVec 12) : Mach → Mach := branchIf (.jz t d tgt) t (fun x => x.s d == 0#32) tgt
def execJz (t : Fin 144) (d : Fin 16) (tgt : BitVec 12) (s : State) : Host.Outcome State Fault Refusal :=
  answer s (doJz t d tgt s.m)
def doJnz (t : Fin 144) (d : Fin 16) (tgt : BitVec 12) : Mach → Mach := branchIf (.jnz t d tgt) t (fun x => x.s d != 0#32) tgt
def execJnz (t : Fin 144) (d : Fin 16) (tgt : BitVec 12) (s : State) : Host.Outcome State Fault Refusal :=
  answer s (doJnz t d tgt s.m)

/-- R313: a ninth push is a STACK fault. -/
def doCall (t : Fin 144) (tgt : BitVec 12) : Mach → Mach := runTile (.call t tgt) t 2 fun x =>
  if 8 ≤ x.call.length then .fault 5 else .done { x.jump tgt.toNat with call := (x.pc + 1) % 4096 :: x.call }
def execCall (t : Fin 144) (tgt : BitVec 12) (s : State) : Host.Outcome State Fault Refusal := answer s (doCall t tgt s.m)

def doRet (t : Fin 144) : Mach → Mach := runTile (.ret t) t 2 fun x =>
  match x.call with
  | [] => .fault 5
  | a :: l => .done { x.jump a with call := l }
def execRet (t : Fin 144) (s : State) : Host.Outcome State Fault Refusal := answer s (doRet t s.m)

/-- R313, R315: run PC + 1 to `e` `n` times; 0 times goes on at `e` + 1. -/
def startLoop (n e : Nat) (x : Tile) : TOut :=
  if e < x.pc + 1 then .fault 6
  else if n = 0 then
    let r := endLoops e ((e + 1) % 4096) x.loops
    .done { x with pc := r.1, loops := r.2 }
  else if 4 ≤ x.loops.length then .fault 6
  else .done { x with pc := (x.pc + 1) % 4096, loops := (x.pc + 1, e, n) :: x.loops }

def doLoop (t : Fin 144) (n : BitVec 14) (e : BitVec 12) : Mach → Mach := runTile (.loop t n e) t 1 (startLoop n.toNat e.toNat)
def execLoop (t : Fin 144) (n : BitVec 14) (e : BitVec 12) (s : State) : Host.Outcome State Fault Refusal :=
  answer s (doLoop t n e s.m)
def doLoops (t : Fin 144) (d : Fin 16) (e : BitVec 12) : Mach → Mach :=
  runTile (.loops t d e) t 1 fun x => startLoop ((x.s d).toNat % 65536) e.toNat x
def execLoops (t : Fin 144) (d : Fin 16) (e : BitVec 12) (s : State) : Host.Outcome State Fault Refusal :=
  answer s (doLoops t d e s.m)

/-- The tile stalls at its PC from tick `now` on (R299). -/
def Tile.stalled (x : Tile) (w : TStall) (now : Nat) : Tile := { x with state := 2, stall := some w, stallFrom := now }

/-- The stall ends at tick `now`: its ticks count in TILE_STALLS and the instruction completes. -/
def Tile.resumed (x : Tile) (now : Nat) : Tile :=
  ({ x.next with state := 1, stall := none, stalls := min 0xFFFFFFFF (x.stalls + (now - x.stallFrom)) } : Tile).stopIfAsked

def doWaitslot (t : Fin 144) (m : Mach) : Mach := runTile (.waitslot t) t 1 (fun x => .done (x.stalled .slot (tick m))) m
def execWaitslot (t : Fin 144) (s : State) : Host.Outcome State Fault Refusal := answer s (doWaitslot t s.m)

/-- R299: at the slot boundary a tile stalled on WAITSLOT goes on. -/
def doWaitslotResume (t : Fin 144) (m : Mach) : Mach :=
  let x := getTile t m
  if x.state = 2 ∧ x.stall = some .slot then setTile t (x.resumed (tick m)) m else m
def execWaitslotResume (t : Fin 144) (s : State) : Host.Outcome State Fault Refusal := answer s (doWaitslotResume t s.m)

/-- R313: the code is posted, sig set; sig_ovf where an earlier code was not read. -/
def doSignal (t : Fin 144) (code : BitVec 8) : Mach → Mach := runTile (.signal t code) t 1 fun x =>
  .done ({ (x.evIf (x.events.getLsbD 3) 4).ev 3 with signal := code.toNat }).next
def execSignal (t : Fin 144) (code : BitVec 8) (s : State) : Host.Outcome State Fault Refusal :=
  answer s (doSignal t code s.m)

/-! ### Scalars -/

def doLdi (t : Fin 144) (d : Fin 16) (k : BitVec 16) : Mach → Mach :=
  runTile (.ldi t d k) t 1 fun x => .done (x.setS d (k.signExtend 32)).next
def execLdi (t : Fin 144) (d : Fin 16) (k : BitVec 16) (s : State) : Host.Outcome State Fault Refusal :=
  answer s (doLdi t d k s.m)

def doLdih (t : Fin 144) (d : Fin 16) (k : BitVec 16) : Mach → Mach :=
  runTile (.ldih t d k) t 1 fun x => .done (x.setS d (wset (x.s d) 16 16 k.toNat)).next
def execLdih (t : Fin 144) (d : Fin 16) (k : BitVec 16) (s : State) : Host.Outcome State Fault Refusal :=
  answer s (doLdih t d k s.m)

/-- R313: the scalar operations by `f`; every other `f` is ILLEGAL. -/
def aluOp (f : Nat) (a b : W) : Option W :=
  let n := b.toNat % 32
  match f with
  | 0 => some (a + b)
  | 1 => some (a - b)
  | 2 => some (a &&& b)
  | 3 => some (a ||| b)
  | 4 => some (a ^^^ b)
  | 5 => some (a <<< n)
  | 6 => some (a >>> n)
  | 7 => some (a.sshiftRight n)
  | 8 => some (if a.toInt < b.toInt then a else b)
  | 9 => some (if a.toInt < b.toInt then b else a)
  | _ => none

def doAlu (t : Fin 144) (d a b : Fin 16) (f : BitVec 4) : Mach → Mach := runTile (.alu t d a b f) t 1 fun x =>
  match aluOp f.toNat (x.s a) (x.s b) with
  | none => .fault 1
  | some v => .done (x.setS d v).next
def execAlu (t : Fin 144) (d a b : Fin 16) (f : BitVec 4) (s : State) : Host.Outcome State Fault Refusal :=
  answer s (doAlu t d a b f s.m)

def doAddi (t : Fin 144) (d a : Fin 16) (k : BitVec 12) : Mach → Mach :=
  runTile (.addi t d a k) t 1 fun x => .done (x.setS d (x.s a + k.signExtend 32)).next
def execAddi (t : Fin 144) (d a : Fin 16) (k : BitVec 12) (s : State) : Host.Outcome State Fault Refusal :=
  answer s (doAddi t d a k s.m)

/-- R316, TILE_SRCH_IDX: index, state, ovr, mode. -/
def Tile.srchIdx (x : Tile) : W :=
  BitVec.ofNat 32 (x.sIdx % 65536 + tagCode x.sTag.1 * 65536 + (if x.sTag.2 then 2 ^ 18 else 0) + (if x.sMin then 2 ^ 19 else 0))
/-- TILE_WTAG: state and ovr. -/
def Tile.wtagWord (x : Tile) : W := BitVec.ofNat 32 (tagCode x.wtag.1 + (if x.wtag.2 then 4 else 0))

/-- R316: what special register `sp` reads at tick `now`. -/
def rdspVal (x : Tile) (sp now : Nat) : Option W :=
  match sp with
  | 0 => some (BitVec.ofInt 32 x.sVal)
  | 1 => some (BitVec.ofInt 32 (Int.fdiv x.sVal (2 ^ 32)))
  | 2 => some x.srchIdx
  | 3 => some x.wtagWord
  | 4 => some (BitVec.ofNat 32 x.laneOvf)
  | 5 => some (BitVec.ofNat 32 (x.shs + 256 * x.shw))
  | 6 => some (BitVec.ofNat 32 now)
  | 7 => some (BitVec.ofNat 32 x.sidx)
  | _ => none

def doRdsp (t : Fin 144) (d : Fin 16) (sp : BitVec 8) (m : Mach) : Mach := runTile (.rdsp t d sp) t 1 (fun x =>
  match rdspVal x sp.toNat (tick m) with
  | none => .fault 1
  | some v => .done (x.setS d v).next) m
def execRdsp (t : Fin 144) (d : Fin 16) (sp : BitVec 8) (s : State) : Host.Outcome State Fault Refusal :=
  answer s (doRdsp t d sp s.m)

/-- R316: what a write of special register `sp` does. -/
def wrspTile (x : Tile) (sp : Nat) (v : W) : Option Tile :=
  match sp with
  | 0 => some x
  | 1 => some x
  | 2 => some x
  | 3 => some { x with wtag := (.valid, false) }
  | 4 => some { x with laneOvf := x.laneOvf &&& (255 - v.toNat % 256) }
  | 5 => some { x with shs := wfld v 0 5, shw := wfld v 8 5 }
  | 6 => some x
  | 7 => some { x with sidx := v.toNat % 65536 }
  | _ => none

def doWrsp (t : Fin 144) (a : Fin 16) (sp : BitVec 8) : Mach → Mach := runTile (.wrsp t a sp) t 1 fun x =>
  match wrspTile x sp.toNat (x.s a) with
  | none => .fault 1
  | some y => .done y.next
def execWrsp (t : Fin 144) (a : Fin 16) (sp : BitVec 8) (s : State) : Host.Outcome State Fault Refusal :=
  answer s (doWrsp t a sp s.m)

/-! ### Memory -/

def doLdw (t : Fin 144) (c : Fin 8) (d : Fin 16) : Mach → Mach := runTile (.ldw t c d) t 1 fun x =>
  viaBuf x c 4 [0] fun as y => y.setS d (y.wordAt (as.headD 0))
def execLdw (t : Fin 144) (c : Fin 8) (d : Fin 16) (s : State) : Host.Outcome State Fault Refusal :=
  answer s (doLdw t c d s.m)

def doStw (t : Fin 144) (c : Fin 8) (a : Fin 16) : Mach → Mach := runTile (.stw t c a) t 1 fun x =>
  viaBuf x c 4 [0] fun as y => y.putWord (as.headD 0) (x.s a)
def execStw (t : Fin 144) (c : Fin 8) (a : Fin 16) (s : State) : Host.Outcome State Fault Refusal :=
  answer s (doStw t c a s.m)

/-- R308, R313: buffer register `r` takes the register's bits of the word. -/
def cbsetBuf (b : CBuf) (r : Nat) (v : W) : CBuf :=
  match r with
  | 0 => { b with base := v.toNat % 65536 }
  | 1 => { b with len := v.toNat % 131072, lenNew := decide (v.toNat % 131072 ≠ 0) }
  | 2 => { b with off := v.toNat % 65536 }
  | _ => { b with stride := sext 16 v.toNat }

def doCbset (t : Fin 144) (c : Fin 8) (r : Fin 4) (a : Fin 16) : Mach → Mach := runTile (.cbset t c r a) t 1 fun x =>
  .done (x.setBuf c (cbsetBuf (x.buf c) r (x.s a))).next
def execCbset (t : Fin 144) (c : Fin 8) (r : Fin 4) (a : Fin 16) (s : State) : Host.Outcome State Fault Refusal :=
  answer s (doCbset t c r a s.m)

def doVld (t : Fin 144) (c : Fin 8) (v : Fin 8) : Mach → Mach := runTile (.vld t c v) t 1 fun x =>
  viaBuf x c 8 [0, 1, 2, 3] fun as y => y.setV v (as.map y.sampleAt)
def execVld (t : Fin 144) (c : Fin 8) (v : Fin 8) (s : State) : Host.Outcome State Fault Refusal :=
  answer s (doVld t c v s.m)

def doVst (t : Fin 144) (c : Fin 8) (v : Fin 8) : Mach → Mach := runTile (.vst t c v) t 1 fun x =>
  viaBuf x c 8 [0, 1, 2, 3] fun as y => (as.zip (x.v v)).foldl (fun z p => z.putSample p.1 p.2) y
def execVst (t : Fin 144) (c : Fin 8) (v : Fin 8) (s : State) : Host.Outcome State Fault Refusal :=
  answer s (doVst t c v s.m)

/-! ### Ports (R311) -/

/-- Port `k` (0 IN0, 1 IN1, 2 OUT0, 3 OUT1) is bound to a route. -/
def Tile.bound (x : Tile) (k : Nat) : Bool := (tabGet (fun _ => (0, 0, 0)) x.ports k).1 != 0
def Tile.inq (x : Tile) (p : Nat) : List Sample := if p = 0 then x.in0 else x.in1
def Tile.setInq (x : Tile) (p : Nat) (l : List Sample) : Tile := if p = 0 then { x with in0 := l } else { x with in1 := l }
def Tile.outq (x : Tile) (p : Nat) : List Sample := if p = 0 then x.out0 else x.out1
def Tile.setOutq (x : Tile) (p : Nat) (l : List Sample) : Tile :=
  if p = 0 then { x with out0 := l } else { x with out1 := l }

/-- The four samples of a VIN move from the port to the register. -/
def Tile.take4 (x : Tile) (v p : Nat) : Tile := (x.setV v ((x.inq p).take 4)).setInq p ((x.inq p).drop 4)

def doVin (t : Fin 144) (v : Fin 8) (p : Fin 2) (m : Mach) : Mach := pullIn t p (runTile (.vin t v p) t 1 (fun x =>
  if !x.bound p then .fault 4
  else if 4 ≤ (x.inq p).length then .done (x.take4 v p).next
  else .done (x.stalled (.vin v p) (tick m))) m)
def execVin (t : Fin 144) (v : Fin 8) (p : Fin 2) (s : State) : Host.Outcome State Fault Refusal :=
  answer s (doVin t v p s.m)

/-- A stalled VIN completes once all four samples are present. -/
def doVinComplete (t : Fin 144) (m : Mach) : Mach :=
  let x := getTile t m
  match x.state, x.stall with
  | 2, some (.vin v p) =>
    if 4 ≤ (x.inq p).length then pullIn t p (setTile t ((x.take4 v p).resumed (tick m)) m) else m
  | _, _ => m
def execVinComplete (t : Fin 144) (s : State) : Host.Outcome State Fault Refusal := answer s (doVinComplete t s.m)

/-- The masked samples of the pairs, shifted, in lane order, and whether one was clipped. -/
def Tile.outSamples (x : Tile) (pm : Nat) : List Sample × Bool :=
  let l := (pairsIn pm).map x.moveSample
  (l.map (·.1), l.any (·.2))

/-- The samples of a MOVO go into the port. -/
def Tile.offer (x : Tile) (p pm : Nat) : Tile :=
  let r := x.outSamples pm
  (x.setOutq p (x.outq p ++ r.1)).evIf r.2 2

/-- The port has room for `n` more samples (R311). -/
def Tile.room (x : Tile) (p n : Nat) : Bool := decide ((x.outq p).length + n ≤ 16)

def doMovo (t : Fin 144) (p : Fin 2) (pm : BitVec 4) (m : Mach) : Mach := pushOut t p (runTile (.movo t p pm) t 1 (fun x =>
  if !x.bound (2 + p) then .fault 4
  else if x.room p (pairsIn pm.toNat).length then .done (x.offer p pm.toNat).next
  else .done (x.stalled (.movo p pm.toNat) (tick m))) m)
def execMovo (t : Fin 144) (p : Fin 2) (pm : BitVec 4) (s : State) : Host.Outcome State Fault Refusal :=
  answer s (doMovo t p pm s.m)

/-- A stalled MOVO completes once the port has room for all its samples. -/
def doMovoComplete (t : Fin 144) (m : Mach) : Mach :=
  let m0 := pushOut t 0 (pushOut t 1 m)
  let x := getTile t m0
  match x.state, x.stall with
  | 2, some (.movo p pm) =>
    if x.room p (pairsIn pm).length then pushOut t p (commitTile t ((x.offer p pm).resumed (tick m)) m0) else m0
  | _, _ => m0
def execMovoComplete (t : Fin 144) (s : State) : Host.Outcome State Fault Refusal := answer s (doMovoComplete t s.m)

/-! ### Lanes -/

def doClr (t : Fin 144) (mask : BitVec 8) : Mach → Mach := runTile (.clr t mask) t 1 fun x =>
  .done ((lanesIn mask.toNat).foldl (fun y k => y.setA k 0 (.valid, false)) x).next
def execClr (t : Fin 144) (m : BitVec 8) (s : State) : Host.Outcome State Fault Refusal := answer s (doClr t m s.m)

/-- Lane `k` of four samples: I of sample k / 2 for an even lane, Q for an odd one. -/
def laneVal (l : List Sample) (k : Nat) : Int :=
  let s := l.getD (k / 2) zeroSample
  if k % 2 = 0 then s.i else s.q

/-- The vector operand spread over sample places: element `i` of the accesses `is` in its place. -/
def placed (x : Tile) (is as : List Nat) : List Sample :=
  [0, 1, 2, 3].map fun i => match (is.zip as).find? fun p => p.1 == i with
    | some p => x.sampleAt p.2
    | none => zeroSample

def doMac (t : Fin 144) (c v : Fin 8) (mask : BitVec 8) : Mach → Mach := runTile (.mac t c v mask) t 1 fun x =>
  viaBuf x c 8 (pairsOf mask.toNat) fun as y =>
    let mem := placed x (pairsOf mask.toNat) as
    (lanesIn mask.toNat).foldl (fun z k =>
      z.accSet k (z.a k + laneVal (x.v v) k * laneVal mem k)
        (tagMerge (z.aTag k) (tagMerge ((x.v v).getD (k / 2) zeroSample).tag (mem.getD (k / 2) zeroSample).tag))) y
def execMac (t : Fin 144) (c : Fin 8) (v : Fin 8) (m : BitVec 8) (s : State) : Host.Outcome State Fault Refusal :=
  answer s (doMac t c v m s.m)

/-- The complex product of a sample and a memory sample, the latter conjugated where `j`. -/
def cprod (a b : Sample) (j : Bool) : Int × Int :=
  let bq := if j then -b.q else b.q
  (a.i * b.i - a.q * bq, a.i * bq + a.q * b.i)

def doCmac (t : Fin 144) (c v : Fin 8) (j : Bool) (pm : BitVec 4) : Mach → Mach := runTile (.cmac t c v j pm) t 2 fun x =>
  viaBuf x c 8 (pairsIn pm.toNat) fun as y =>
    let mem := placed x (pairsIn pm.toNat) as
    (pairsIn pm.toNat).foldl (fun z i =>
      let a := (x.v v).getD i zeroSample
      let b := mem.getD i zeroSample
      let p := cprod a b j
      let g := tagMerge (z.pairTag i) (tagMerge a.tag b.tag)
      (z.accSet (2 * i) (z.a (2 * i) + p.1) g).accSet (2 * i + 1) (z.a (2 * i + 1) + p.2) g) y
def execCmac (t : Fin 144) (c : Fin 8) (v : Fin 8) (j : Bool) (pm : BitVec 4) (s : State) :
    Host.Outcome State Fault Refusal := answer s (doCmac t c v j pm s.m)

def doAccw (t : Fin 144) (c : Fin 8) (u : Bool) (mask : BitVec 8) : Mach → Mach := runTile (.accw t c u mask) t 1 fun x =>
  viaBuf x c 4 (lanesIn mask.toNat) fun as y =>
    ((lanesIn mask.toNat).zip as).foldl (fun z p => z.accSet p.1 (z.a p.1 + wordInt u (x.wordAt p.2)) (z.aTag p.1)) y
def execAccw (t : Fin 144) (c : Fin 8) (u : Bool) (m : BitVec 8) (s : State) : Host.Outcome State Fault Refusal :=
  answer s (doAccw t c u m s.m)

def doLdacc (t : Fin 144) (c : Fin 8) (u : Bool) (mask : BitVec 8) : Mach → Mach := runTile (.ldacc t c u mask) t 1 fun x =>
  viaBuf x c 4 (lanesIn mask.toNat) fun as y =>
    ((lanesIn mask.toNat).zip as).foldl (fun z p => z.setA p.1 (wordInt u (x.wordAt p.2)) (.valid, false)) y
def execLdacc (t : Fin 144) (c : Fin 8) (u : Bool) (m : BitVec 8) (s : State) : Host.Outcome State Fault Refusal :=
  answer s (doLdacc t c u m s.m)

/-- The exact sum and the merged tag of the accumulators `ks` (R302, R305). -/
def Tile.sumOf (x : Tile) (ks : List Nat) : Int × (Tag × Bool) :=
  ((ks.map x.a).sum, ks.foldl (fun g k => tagMerge g (x.aTag k)) (.valid, false))

def doRed (t : Fin 144) (mask : BitVec 8) : Mach → Mach := runTile (.red t mask) t 3 fun x =>
  let r := x.sumOf (lanesIn mask.toNat)
  .done (x.accSet 0 r.1 r.2).next
def execRed (t : Fin 144) (m : BitVec 8) (s : State) : Host.Outcome State Fault Refusal := answer s (doRed t m s.m)

def doCred (t : Fin 144) (pm : BitVec 4) : Mach → Mach := runTile (.cred t pm) t 3 fun x =>
  let e := x.sumOf ((pairsIn pm.toNat).map (2 * ·))
  let o := x.sumOf ((pairsIn pm.toNat).map (2 * · + 1))
  let g := tagMerge e.2 o.2
  .done ((x.accSet 0 e.1 g).accSet 1 o.1 g).next
def execCred (t : Fin 144) (pm : BitVec 4) (s : State) : Host.Outcome State Fault Refusal := answer s (doCred t pm s.m)

/-! ### Moves -/

def doMovs (t : Fin 144) (c : Fin 8) (pm : BitVec 4) : Mach → Mach := runTile (.movs t c pm) t 1 fun x =>
  viaBuf x c 8 (pairsIn pm.toNat) fun as y =>
    ((pairsIn pm.toNat).zip as).foldl (fun z p => let r := x.moveSample p.1; (z.putSample p.2 r.1).evIf r.2 2) y
def execMovs (t : Fin 144) (c : Fin 8) (pm : BitVec 4) (s : State) : Host.Outcome State Fault Refusal :=
  answer s (doMovs t c pm s.m)

/-- R305: MOVW merges the tag of each masked lane into TILE_WTAG. -/
def doMovw (t : Fin 144) (c : Fin 8) (u : Bool) (mask : BitVec 8) : Mach → Mach := runTile (.movw t c u mask) t 1 fun x =>
  viaBuf x c 4 (lanesIn mask.toNat) fun as y =>
    ((lanesIn mask.toNat).zip as).foldl (fun z p =>
      let r := x.moveWord p.1 u
      ({ z.putWord p.2 r.1 with wtag := tagMerge z.wtag (x.aTag p.1) }).evIf r.2 2) y
def execMovw (t : Fin 144) (c : Fin 8) (u : Bool) (m : BitVec 8) (s : State) : Host.Outcome State Fault Refusal :=
  answer s (doMovw t c u m s.m)

def doSetsh (t : Fin 144) (shw shs : BitVec 5) : Mach → Mach :=
  runTile (.setsh t shw shs) t 1 fun x => .done ({ x with shw := shw.toNat, shs := shs.toNat }).next
def execSetsh (t : Fin 144) (shw shs : BitVec 5) (s : State) : Host.Outcome State Fault Refusal :=
  answer s (doSetsh t shw shs s.m)

/-! ### Search (R309, R310) -/

def doSclr (t : Fin 144) (mn : Bool) : Mach → Mach := runTile (.sclr t mn) t 1 fun x =>
  .done ({ x with sMin := mn, sidx := 0, sVal := if mn then 2 ^ 47 - 1 else -(2 ^ 47), sIdx := 0xFFFF,
                  sTag := (.valid, false) }).next
def execSclr (t : Fin 144) (mn : Bool) (s : State) : Host.Outcome State Fault Refusal := answer s (doSclr t mn s.m)

/-- R310: one candidate with its index is compared: it replaces the best if strictly better, or equal with a lower
index; its tag merges. -/
def Tile.candidate (x : Tile) (v : Int) (idx : Nat) (g : Tag × Bool) : Tile :=
  let better := if x.sMin then decide (v < x.sVal) else decide (x.sVal < v)
  let y := { x with sTag := tagMerge x.sTag g }
  if better || (decide (v = x.sVal) && decide (idx < x.sIdx)) then { y with sVal := v, sIdx := idx } else y

/-- After each search SIDX advances by 8, whatever the mask. -/
def Tile.sidxNext (x : Tile) : Tile := { x with sidx := (x.sidx + 8) % 65536 }

def doSacc (t : Fin 144) (mask : BitVec 8) : Mach → Mach := runTile (.sacc t mask) t 1 fun x =>
  .done (((lanesIn mask.toNat).foldl (fun y k => y.candidate (x.a k) ((x.sidx + k) % 65536) (x.aTag k)) x).sidxNext).next
def execSacc (t : Fin 144) (m : BitVec 8) (s : State) : Host.Outcome State Fault Refusal := answer s (doSacc t m s.m)

def doSmem (t : Fin 144) (c : Fin 8) (u : Bool) (mask : BitVec 8) : Mach → Mach := runTile (.smem t c u mask) t 1 fun x =>
  viaBuf x c 4 (lanesIn mask.toNat) fun as y =>
    (((lanesIn mask.toNat).zip as).foldl (fun z p =>
      z.candidate (wordInt u (x.wordAt p.2)) ((x.sidx + p.1) % 65536) (.valid, false)) y).sidxNext
def execSmem (t : Fin 144) (c : Fin 8) (u : Bool) (m : BitVec 8) (s : State) : Host.Outcome State Fault Refusal :=
  answer s (doSmem t c u m s.m)

/-! ### Transfers (R312) -/

/-- The four 8-byte elements of each of `n` 32-byte units through a buffer, and the buffer after them. -/
def xferUnits : Nat → CBuf → List (List Nat) × CBuf
  | 0, b => ([], b)
  | n + 1, b =>
    let r := xferUnits n b.advance
    ([0, 1, 2, 3].map (fun i => b.elem i 8) :: r.1, r.2)

/-- R312: the transfer is issued, or faults: a length that is not a multiple of 32 from 32 to 4 096, or a reservoir range
outside the partitions granted, is an XFER fault; a local address that R307 forbids is ADDR or ALIGN. -/
def Tile.issue (x : Tile) (c a b : Nat) (toRes : Bool) (m : Mach) : TOut :=
  let len := (x.s b).toNat
  let ra := (x.s a).toNat
  if len % 32 ≠ 0 ∨ len < 32 ∨ 4096 < len ∨ !(x.grant.any fun i => inPart i ra len m) then .fault 7
  else
    let r := xferUnits (len / 32) (x.buf c).prep
    match r.1.flatten.find? fun e => addrFault e 8 != 0 with
    | some e => .fault (addrFault e 8)
    | none => .done ({ x.setBuf c r.2 with xfers := x.xfers ++ [{ toRes := toRes, resAddr := ra, units := r.1.flatten }] })

/-- The issue completes the instruction. -/
def TOut.andNext : TOut → TOut
  | .fault c => .fault c
  | .done x => .done x.next

def doXfer (t : Fin 144) (c : Fin 8) (a b : Fin 16) (toRes : Bool) (m : Mach) : Mach := runTile (.xfer t c a b toRes) t 1 (fun x =>
  if 2 ≤ x.xfers.length then .done (x.stalled (.xfer c a b toRes) (tick m))
  else (x.issue c a b toRes m).andNext) m
def execXfer (t : Fin 144) (c : Fin 8) (a b : Fin 16) (toRes : Bool) (s : State) : Host.Outcome State Fault Refusal :=
  answer s (doXfer t c a b toRes s.m)

/-- R312, R336: the bytes of a transfer move. Into local memory, a poisoned unit arrives as zero. -/
def moveXfer (t : Nat) (f : TXfer) (m : Mach) : Mach :=
  let x := getTile t m
  if f.toRes then resWrite f.resAddr (f.units.flatMap fun a => x.bytes a 8) m
  else
    let m1 := readReport f.resAddr (8 * f.units.length) m
    let y := f.units.zipIdx.foldl (fun z p =>
      z.setBytes p.1 ((List.range 8).map fun i =>
        let ra := f.resAddr + 8 * p.2 + i
        if poisoned ra m then 0#8 else resByte ra m)) x
    setTile t y m1

/-- R336: a service's job that read a poisoned unit is lost: its tile is reloaded (R325). -/
def lostJob (t : Nat) (f : TXfer) (m : Mach) : Mach :=
  if !f.toRes && (badUnits f.resAddr (8 * f.units.length) m).length != 0 && (getTile t m).owner != 0 then
    reloadTile t (loseJob (getTile t m).owner (tileQuad t) m) else m

/-- The oldest transfer of tile `t` ends; a stalled XFER is then issued. -/
def doXferEnd (t : Fin 144) (m : Mach) : Mach :=
  match (getTile t m).xfers with
  | [] => m
  | f :: l =>
    let m1 := moveXfer t f m
    let m2 := setTile t { getTile t m1 with xfers := l } m1
    let x := getTile t m2
    let m3 := match x.state, x.stall with
      | 2, some (.xfer c a b toRes) =>
        match x.issue c a b toRes m2 with
        | .fault code => vendorReload t (commitTile t (x.faulted code) m2)
        | .done y => setTile t (y.resumed (tick m)) m2
      | _, _ => m2
    lostJob t f m3
def execXferEnd (t : Fin 144) (s : State) : Host.Outcome State Fault Refusal := answer s (doXferEnd t s.m)

def doWaitx (t : Fin 144) (m : Mach) : Mach := runTile (.waitx t) t 1 (fun x =>
  if x.xfers = [] then .done x.next else .done (x.stalled .waitx (tick m))) m
def execWaitx (t : Fin 144) (s : State) : Host.Outcome State Fault Refusal := answer s (doWaitx t s.m)

def doWaitxComplete (t : Fin 144) (m : Mach) : Mach :=
  let x := getTile t m
  if x.state = 2 ∧ x.stall = some .waitx ∧ x.xfers = [] then setTile t (x.resumed (tick m)) m else m
def execWaitxComplete (t : Fin 144) (s : State) : Host.Outcome State Fault Refusal := answer s (doWaitxComplete t s.m)

end Sys2Proof.Machine
end

