-- ==== Sys2Proof/Machine/TileHost.lean ====
section
/-! DEFINITION. Host access to a signal tile, its restart points and its spare substitution (R297, R320 to R326). -/

namespace Sys2Proof.Machine

/-- R323: a pausable tile with a planned substitution pauses after CKPT. -/
def doCkpt (t : Fin 144) (m : Mach) : Mach :=
  runTile (.ckpt t) t 1 (fun x => .done (if x.pausable && isPlanned 2 t m then { x.next with paused := true } else x.next)) m
def execCkpt (t : Fin 144) (s : State) : Host.Outcome State Fault Refusal := answer s (doCkpt t s.m)

/-- TILE_CMD, TILE_EVENTS bit 5: a refused command or write. -/
def winErr (t : Nat) (m : Mach) : Mach := tileEv t 5 m

/-- R297: the tile serves a logical tile that the deck gives you. -/
def Tile.yours (x : Tile) : Bool := x.owner == 0 && x.serving

/-- R322: RUN starts a HALTED or FAULT tile that you own at its entry; otherwise win_err, also where a hard failure has stopped it
until its spare starts (R319). -/
def doTileRun (t : Fin 144) (m : Mach) : Mach := gate (tileBase t) (fun m =>
  let x := getTile t m
  if x.yours = false ∨ x.state = 1 ∨ x.state = 2 ∨ x.discard = true then winErr t m else setTile t x.started m) m
def execTileRun (t : Fin 144) (s : State) : Host.Outcome State Fault Refusal := answer s (doTileRun t s.m)

/-- R322: HALT lets the current instruction complete, then stops. -/
def doTileHalt (t : Fin 144) (m : Mach) : Mach := gate (tileBase t) (fun m =>
  let x := getTile t m
  if x.yours = false then winErr t m
  else if x.state = 1 ∨ x.state = 2 then setTile t { x with haltReq := true } m else m) m
def execTileHalt (t : Fin 144) (s : State) : Host.Outcome State Fault Refusal := answer s (doTileHalt t s.m)

/-- The current instruction had completed when HALT came, and the tile stops. -/
def doTileHaltComplete (t : Fin 144) (m : Mach) : Mach :=
  let x := getTile t m
  if x.haltReq = true ∧ x.state = 1 then setTile t { x with state := 0, haltReq := false } m else m
def execTileHaltComplete (t : Fin 144) (s : State) : Host.Outcome State Fault Refusal := answer s (doTileHaltComplete t s.m)

/-- R322: FORCE_HALT stops at once; a stalled instruction is abandoned and the PC points at it. -/
def doTileForceHalt (t : Fin 144) (m : Mach) : Mach := gate (tileBase t) (fun m =>
  let x := getTile t m
  if x.yours = false then winErr t m
  else if x.state = 1 ∨ x.state = 2 then
    let st := if x.state = 2 then min 0xFFFFFFFF (x.stalls + (tick m - x.stallFrom)) else x.stalls
    setTile t { x with state := 0, stall := none, haltReq := false, stalls := st } m
  else m) m
def execTileForceHalt (t : Fin 144) (s : State) : Host.Outcome State Fault Refusal := answer s (doTileForceHalt t s.m)

/-- TILE_CMD.clr_wtag clears TILE_WTAG of a tile that you own (R297, R305). -/
def doTileClrWtag (t : Fin 144) (m : Mach) : Mach := gate (tileBase t) (fun m =>
  let x := getTile t m
  if x.yours = false then winErr t m else setTile t { x with wtag := (.valid, false) } m) m
def execTileClrWtag (t : Fin 144) (s : State) : Host.Outcome State Fault Refusal := answer s (doTileClrWtag t s.m)

/-- A write of TILE_CMD: the key, then clr_wtag and the command of bits [1:0]. -/
def tileCmd (t : Fin 144) (v : W) (m : Mach) : Mach :=
  if wfld v 16 16 ≠ 0x4E17 then gate (tileBase t) (winErr t) m
  else
    let m1 := if v.getLsbD 2 then doTileClrWtag t m else m
    match wfld v 0 2 with
    | 1 => doTileRun t m1
    | 2 => doTileHalt t m1
    | 3 => doTileForceHalt t m1
    | _ => m1

/-- R322: a command with a wrong key, in the wrong state or to a service tile is refused with win_err; the word is the one
written to TILE_CMD. -/
def doTileCmdInvalid (t : Fin 144) (v : W) (m : Mach) : Mach :=
  let x := getTile t m
  let bad := decide (wfld v 16 16 ≠ 0x4E17) || (!x.yours && decide (wfld v 0 3 ≠ 0)) ||
    (decide (wfld v 0 2 = 1) && (decide (x.state = 1 ∨ x.state = 2) || x.discard))
  if bad then gate (tileBase t) (winErr t) m else m
def execTileCmdInvalid (t : Fin 144) (v : W) (s : State) : Host.Outcome State Fault Refusal :=
  answer s (doTileCmdInvalid t v s.m)

/-- The tile is HALTED or FAULT. -/
def Tile.idle (x : Tile) : Bool := x.state == 0 || x.state == 3

/-- R321, the buffer registers: a base or len that is not a multiple of 8, or a len above 65 536, is ignored with
win_err. -/
def bufRegWrite (t c r : Nat) (v : W) (m : Mach) : Mach :=
  let x := getTile t m
  let n := v.toNat
  if !x.idle then winErr t m
  else match r with
    | 0 => if n % 65536 % 8 ≠ 0 then winErr t m else setTile t (x.setBuf c { x.buf c with base := n % 65536 }) m
    | 1 =>
      if n % 131072 % 8 ≠ 0 ∨ 65536 < n % 131072 then winErr t m
      else setTile t (x.setBuf c { x.buf c with len := n % 131072, lenNew := decide (n % 131072 ≠ 0) }) m
    | 2 => setTile t (x.setBuf c { x.buf c with off := n % 65536 }) m
    | _ => setTile t (x.setBuf c { x.buf c with stride := sext 16 n }) m

/-- A write of TILE_EVENTS or TILE_LANE_OVF clears the bits written 1 (R20). -/
def tileW1c (t off : Nat) (v : W) (m : Mach) : Mach :=
  let x := getTile t m
  if off = 0x8 then setTile t { x with events := x.events &&& ~~~v } m
  else setTile t { x with laneOvf := x.laneOvf &&& (255 - v.toNat % 256) } m

/-- R297, R300, R321: a host write into the window of physical tile `t` at offset `off`. Whether `off` lies in the window's
occupied part is the caller's check. -/
def tileWrite (t : Fin 144) (off : Nat) (v : W) (m : Mach) : Mach :=
  let x := getTile t m
  if off = 0 then tileCmd t v m
  else if !x.yours then winErr t m
  else if off = 0x8 ∨ off = 0x24 then tileW1c t off v m
  else if off = 0x10 then setTile t { x with entry := v.toNat % 4096 } m
  else if off = 0x20 then setTile t { x with shs := wfld v 0 5, shw := wfld v 8 5 } m
  else if off = 0x2C then setTile t { x with page := wfld v 0 1 } m
  else if 0x40 ≤ off ∧ off < 0xC0 then bufRegWrite t ((off - 0x40) / 16) ((off - 0x40) % 16 / 4) v m
  else if 0x4000 ≤ off ∧ off < 0x8000 then
    if x.idle then setTile t { x with prog := tabPut (fun _ => 0#32) x.prog ((off - 0x4000) / 4) v } m else winErr t m
  else if 0x8000 ≤ off ∧ off < 0x10000 then setTile t (x.putWord (0x8000 * x.page + (off - 0x8000)) v) m
  else m

/-- The offset names a place of the window that accesses reach (R508). -/
def tileMapped (off : Nat) : Bool := decide (off < 0xC0 ∨ (0x4000 ≤ off ∧ off < 0x10000))

/-- TILE_WINDOW_WRITE: program memory and buffers while HALTED or FAULT, the rest at any time (R321). An offset outside
the window's occupied part, or not a multiple of 4, sets addr_err (R15). -/
def doTileWindowWrite (t : Fin 144) (off : BitVec 16) (v : W) (m : Mach) : Mach := gate (tileBase t) (fun m =>
  if !tileMapped off.toNat || decide (off.toNat % 4 ≠ 0) then setEv GCTL_GLOBAL_EVENTS.addr_err m
  else tileWrite t off.toNat v m) m
def execTileWindowWrite (t : Fin 144) (off : BitVec 16) (v : W) (s : State) : Host.Outcome State Fault Refusal :=
  answer s (doTileWindowWrite t off v s.m)

/-- TILE_STATUS. -/
def Tile.statusWord (x : Tile) : W :=
  BitVec.ofNat 32 (x.state + 4 * x.fault + 64 * x.owner + (if x.pausable then 256 else 0) + 512 * x.loops.length +
    4096 * x.call.length + (if x.paused then 65536 else 0) + 131072 * x.xfers.length)

/-- R321: what a host read of the window returns. -/
def tileRead (t : Nat) (off : Nat) (m : Mach) : W :=
  let x := getTile t m
  let b := x.buf ((off - 0x40) / 16)
  if 0x40 ≤ off ∧ off < 0xC0 then
    match (off - 0x40) % 16 / 4 with
    | 0 => BitVec.ofNat 32 b.base
    | 1 => BitVec.ofNat 32 b.len
    | 2 => BitVec.ofNat 32 b.off
    | _ => BitVec.ofNat 32 (toBits 16 b.stride)
  else if 0x4000 ≤ off ∧ off < 0x8000 then tabGet (fun _ => 0#32) x.prog ((off - 0x4000) / 4)
  else if 0x8000 ≤ off then x.wordAt (0x8000 * x.page + (off - 0x8000))
  else match off with
    | 0x4 => x.statusWord
    | 0x8 => x.events
    | 0xC => BitVec.ofNat 32 x.pc
    | 0x10 => BitVec.ofNat 32 x.entry
    | 0x14 => BitVec.ofNat 32 x.evcount
    | 0x18 => BitVec.ofNat 32 x.stalls
    | 0x1C => BitVec.ofNat 32 (x.logical + (if x.serving then 128 else 0))
    | 0x20 => BitVec.ofNat 32 (x.shs + 256 * x.shw)
    | 0x24 => BitVec.ofNat 32 x.laneOvf
    | 0x28 => x.wtagWord
    | 0x2C => BitVec.ofNat 32 x.page
    | 0x30 => BitVec.ofInt 32 x.sVal
    | 0x34 => BitVec.ofNat 32 (toBits 48 x.sVal / 2 ^ 32)
    | 0x38 => x.srchIdx
    | 0x3C => BitVec.ofNat 32 x.signal
    | _ => 0#32

/-- The effect of a read: a read of TILE_SIGNAL clears sig. -/
def tileReadEff (t : Nat) (off : Nat) (m : Mach) : Mach :=
  if off = 0x3C then
    let x := getTile t m
    setTile t { x with events := x.events &&& ~~~(8#32) } m
  else m

/-! ### Substitution (R323 to R326) -/

/-- A spare tile of quadrant `q` that serves no logical tile and is not retired. -/
def spareTile (q : Nat) (m : Mach) : Option Nat :=
  ((List.range 36).map (36 * q + ·)).find? fun t =>
    !(getTile t m).serving && !m.nvm.remap.retired.contains (2, t)

/-- The tile leaves service and takes part in nothing. -/
def Tile.retired (x : Tile) : Tile := { x with serving := false, state := 0, paused := false, stall := none }

/-- The remap table records that `old` is retired and logical tile `l` is served by `new` (R441). -/
def bindTile (l old : Nat) (new : Option Nat) (m : Mach) : Mach :=
  setRemap (fun r => { r with retired := (2, old) :: r.retired, tiles := tabPut (fun _ => none) r.tiles l new }) m

/-- R323: the paused, halted or idle tile's whole state is copied to the spare, which takes the logical number and goes
on; R324: a tile that is not pausable is substituted while HALTED or while its quadrant is IDLE or POWERED_DOWN. -/
def doTileSubstComplete (t : Fin 144) (m : Mach) : Mach :=
  let x := getTile t m
  let q := tileQuad t
  let ready := x.paused || x.state == 0 || (!x.pausable && decide (quadState q m ≤ 1))
  match spareTile q m with
  | none => m
  | some sp =>
    if isPlanned 2 t m && x.serving && ready then
      let m1 := setTile sp { x with paused := false } (setTile t x.retired m)
      let m2 := tileEv sp 7 m1
      plannedDone 2 t x.logical sp (useSpare 2 q (bindTile x.logical t (some sp) m2))
    else m
def execTileSubstComplete (t : Fin 144) (s : State) : Host.Outcome State Fault Refusal :=
  answer s (doTileSubstComplete t s.m)

/-- R319, R325: a hard failure (code 8): from detection its inputs accept and discard, its outputs deliver nothing, and the
service loses its job; without a spare the logical tile is unserved (R326). -/
def doTileHardFail (t : Fin 144) (m : Mach) : Mach :=
  let x := getTile t m
  let q := tileQuad t
  if !x.serving then m
  else
    let m1 := dropPlanned 2 t (loseJob x.owner q (commitTile t ({ x with
      state := 3, fault := 8, stall := none, paused := false, discard := true, in0 := [], in1 := [], out0 := [],
      out1 := [] }.ev 0) m))
    match spareTile q m1 with
    | some _ => m1
    | none =>
      let m2 := bindTile x.logical t none (setTile t { getTile t m1 with serving := false } m1)
      noSpare 2 (kindDie 2) t x.logical m2
def execTileHardFail (t : Fin 144) (s : State) : Host.Outcome State Fault Refusal := answer s (doTileHardFail t s.m)

/-- R325: the spare is loaded from the deck's tile section and starts at its entry. -/
def doTileSpareStart (t : Fin 144) (m : Mach) : Mach :=
  let x := getTile t m
  let q := tileQuad t
  match spareTile q m with
  | none => m
  | some sp =>
    if x.serving && x.discard then
      let y : Tile := { getTile sp m with logical := x.logical, serving := true, owner := x.owner, ports := x.ports }
      let m1 := setTile t x.retired m
      let m2 := reloadTile sp (setTile sp y m1)
      let m3 := tileEv sp 7 m2
      hardDone 2 t x.logical sp (useSpare 2 q (bindTile x.logical t (some sp) m3))
    else m
def execTileSpareStart (t : Fin 144) (s : State) : Host.Outcome State Fault Refusal := answer s (doTileSpareStart t s.m)

end Sys2Proof.Machine
end

