-- ==== Sys2Proof/Machine/Health.lean ====
section
/-! DEFINITION. The health unit (spec/15, R438 to R448): counting correctable events, retirement, tests of spares, gaffer cores and
NAND blocks. -/

namespace Sys2Proof.Machine

/-- A resource's number within its kind: kinds whose physical index runs within a pool carry the pool. -/
def resKey (r : KittyRes) : Nat :=
  match r.kind.val with
  | 0 | 1 | 5 | 7 => 2048 * r.pool + r.phys
  | _ => r.phys

/-- The resource is out of service, or worn already. -/
def isRetired (r : KittyRes) (m : Mach) : Bool := m.nvm.remap.retired.contains (r.kind.val, resKey r)
def isWorn (r : KittyRes) (m : Mach) : Bool := m.nvm.remap.wornRes.contains (r.kind.val, resKey r)

/-- The unit of a slice's pool. -/
def poolUnit (k p : Nat) : RxUnit := if k = 0 then .path (toPath p) else .obs (toObs p)

/-- A spare of a pool is failed (R443): it no longer counts. -/
def spareBad (k p : Nat) (m : Mach) : Mach :=
  let m1 := setRemap (fun r => { r with bad := tabPut (fun _ => 0) r.bad (poolKey k p) (poolBad k p m + 1) }) m
  let m2 := match k with
    | 0 | 1 => let u := poolUnit k p; recordSlices u (fset (slicePos u 4) 7 m1)
    | 2 => match spareTile p m with
      | some t => setRemap (fun r => { r with retired := (2, t) :: r.retired }) m1
      | none => m1
    | 3 => fset (QUAD_PD_Q_STATUS.failed p) 1 m1
    | 6 => match spareBank m with
      | some b => setRemap (fun r => { r with banksDead := b :: r.banksDead }) m1
      | none => m1
    | _ => m1
  let m3 := refreshRes (refreshKind k m2)
  if decide (poolLeft k p m3 < fget (HLT_RESERVE.reserve k) m3) then raiseReplace HLT_REPLACE.spare_low m3 else m3

/-! ### NAND blocks (R447) -/

/-- A block is replaced by a spare: nothing is visible except the log (`code`: 0x0101 planned, 0x0102 failed); with no spare
left the request carries nvm. -/
def nandSubst (code block : Nat) (m : Mach) : Mach :=
  if m.nvm.remap.nandBad.contains block ∨ nandOut m then m
  else
    let n := m.nvm.remap.nandBad.length
    let m2 := useSpare 10 0 (substDone code 10 block 0xFFFF n (setRemap (fun r => { r with nandBad := block :: r.nandBad }) m))
    if nandOut m2 then raiseReplace HLT_REPLACE.nvm m2 else m2

/-- NAND_BLOCK_FAIL: a block fails a program or an erase. -/
def execNandBlockFail (block : Nat) (s : State) : Host.Outcome State Fault Refusal := answer s (nandSubst 0x0102 block s.m)

/-! ### Retirement (R439) -/

/-- What a retired resource without a spare does beyond being worn (R125, R189, R269, R326). -/
def emptyPool (r : KittyRes) (m : Mach) : Mach :=
  match r.kind.val with
  | 0 | 1 =>
    let u := poolUnit r.kind r.pool
    match posOfSlice u r.phys m with
    | some pos => noSlice u pos m
    | none => m
  | 2 =>
    let x := getTile r.phys m
    if x.serving then bindTile x.logical r.phys none (setTile r.phys x.retired m) else m
  | 3 => match paths64.find? fun n => fget (QUAD_PD_STATUS.phys n) m == r.phys with
    | some n => engineDead n m
    | none => m
  | 4 => colGone (decide (r.pool = 1)) r.phys (refreshBeams (loseCol (decide (r.pool = 1)) r.phys m))
  | _ => m

/-- The die and logical index that the log gives a resource. -/
def resLog (r : KittyRes) : Nat := if r.kind.val ≤ 1 then r.pool else r.logical

/-- A resource is retired: its work moves to a spare by plan, or it is worn. -/
def retirePlan (r : KittyRes) (n : Nat) (m : Mach) : Mach :=
  let k := r.kind.val
  let m1 := logRetired k r.phys (resLog r) n m
  if 0 < poolLeft k r.pool m then
    pumpPlanned (setRemap (fun t => { t with retired := (k, resKey r) :: t.retired })
      { m1 with hlt := { m1.hlt with waiting := m1.hlt.waiting ++ [r] } })
  else
    let m2 := setRemap (fun t => { t with wornRes := (k, resKey r) :: t.wornRes }) m1
    emptyPool r (markWorn k (kindDie k) r.phys (resLog r) m2)

/-- R439: the spare that a planned substitution counted on is gone before its turn came: the resource is worn. -/
def spareGone (r : KittyRes) (m : Mach) : Mach :=
  emptyPool r (markWorn r.kind.val (kindDie r.kind.val) r.phys (resLog r) (dropPlanned r.kind.val r.phys m))
/-- At a slot boundary every planned substitution without a spare is given up. -/
def sparesLeft (m : Mach) : Mach :=
  each ((m.hlt.running.toList ++ m.hlt.waiting).filter fun r => poolLeft r.kind.val r.pool m == 0) spareGone m

/-- R334: the physical bank `p` whose spare rows have run out is retired as a whole. -/
def rowsOut (r : KittyRes) (n : Nat) (m : Mach) : Mach :=
  let b : KittyRes := ⟨6, 0, r.pool, r.logical⟩
  if poolLeft 5 r.pool m = 0 ∧ 0 < poolLeft 6 0 m then
    if isRetired b m then m
    else retirePlan b n (setRemap (fun t => { t with wornRes := (5, resKey r) :: t.wornRes }) m)
  else retirePlan r n m

/-- R458, R365: the third macro of the mirror link takes a retired macro's lane. -/
def mirrorRetire (r : KittyRes) (n : Nat) (m : Mach) : Mach :=
  if m.nvm.remap.mirLane.isNone && decide (0 < poolLeft 8 0 m) then
    let m1 := setRemap (fun t => { t with retired := (8, resKey r) :: t.retired, mirLane := some r.phys })
      (logRetired 8 r.phys r.logical n m)
    plannedOver 8 r.phys r.logical 2 (refreshMirLane (useSpare 8 0 m1))
  else retirePlan r n m

/-- A retired slice that is the spare itself is no spare any more. Where its quadrant is not RUNNING the map changes at once
(R126). -/
def sliceRetire (r : KittyRes) (n : Nat) (m : Mach) : Mach :=
  let u := poolUnit r.kind r.pool
  let gone := setRemap fun t => { t with retired := (r.kind.val, resKey r) :: t.retired }
  if sliceAt u 4 m = r.phys then gone (spareBad r.kind r.pool (logRetired r.kind r.phys r.pool n m))
  else if quadState (rxQuad u) m ≠ 2 ∧ 0 < poolLeft r.kind r.pool m then
    sliceNow u r.phys (gone (logRetired r.kind r.phys r.pool n m))
  else retirePlan r n m

def retire (r : KittyRes) (n : Nat) (m : Mach) : Mach :=
  match r.kind.val with
  | 0 | 1 => sliceRetire r n m
  | 5 => rowsOut r n m
  | 8 => mirrorRetire r n m
  | 10 => if nandOut m then m else nandSubst 0x0101 r.phys (logRetired 10 r.phys 0xFFFF n m)
  | _ => retirePlan r n m

/-- The window of a kind, in ticks. -/
def retireWindow (k : Nat) (m : Mach) : Nat := fget (HLT_RETIRE.window k) m * 3600 * 245760000

/-- The times of a resource's events. -/
def eventTimes (r : KittyRes) (m : Mach) : List Nat :=
  ((m.hlt.counts.find? fun e => e.1 = r).map Prod.snd).getD []

/-- A correctable event counts within the sliding window; at the threshold the resource is retired. -/
def countEvent (r : KittyRes) (m : Mach) : Mach :=
  let k := r.kind.val
  if coreOn m = false ∨ poolCount k ≤ r.pool ∨ isRetired r m = true ∨ isWorn r m = true ∨
      (k = 10 ∧ m.nvm.remap.nandBad.contains r.phys = true) then m
  else
    let l := tick m :: (eventTimes r m).filter fun t => decide (tick m < t + retireWindow k m)
    let m1 := { m with hlt := { m.hlt with counts := (r, l) :: m.hlt.counts.filter fun e => e.1 ≠ r } }
    if fon (HLT_RETIRE.en k) m ∧ fget (HLT_RETIRE.threshold k) m ≤ l.length then
      retire r l.length { m1 with hlt := { m1.hlt with counts := m1.hlt.counts.filter fun e => e.1 ≠ r } }
    else m1
/-- CORRECTABLE_EVENT: the event counts; a corrected memory error of a tile sets its ecc_corr (R319). -/
def correctable (r : KittyRes) (m : Mach) : Mach :=
  countEvent r (if r.kind.val = 2 ∧ coreOn m = true ∧ r.phys < 144 then tileEv r.phys 6 m else m)
def execCorrectableEvent (r : KittyRes) (s : State) : Host.Outcome State Fault Refusal := answer s (correctable r s.m)

/-- R328: a unit was corrected at address `a`: the health unit counts it for its row and for its bank (kinds 5 and 6). -/
def unitCorrected (a : Nat) (m : Mach) : Mach :=
  let b := bankOfUnit (a / 8)
  let p := physBank b m
  correctable ⟨6, 0, p, b⟩ (correctable ⟨5, p, a / 65536 % 1024, b⟩ m)

/-- R330: the scrubber reads unit `u` of the reservoir. -/
def doScrubRead (u : Nat) (e : EccErr) (m : Mach) : Mach :=
  let a := resLo + 8 * u
  if coreOn m then (if corrects a e m then unitCorrected a else id) (eccRead a e m).2 else m
def execScrubRead (unit : Nat) (err : EccErr) (s : State) : Host.Outcome State Fault Refusal :=
  answerIf (unitOk unit) s (doScrubRead unit err s.m)

/-- A window read at `a` meets the unit there: the address is mapped, and its partition is read (R337). -/
def windowMeets (a : Nat) (m : Mach) : Bool := reach resLo m && resMapped a && (match partOf a m with
  | some i => i != 6
  | none => false)

/-- RES_WINDOW_READ. -/
def doResWindowRead (a : Nat) (e : EccErr) (m : Mach) : Mach :=
  (if windowMeets a m && corrects a e m then unitCorrected a else id) (returnWord (gateRead resLo (windowRead a e) m))
def execResWindowRead (addr : Nat) (err : EccErr) (s : State) : Host.Outcome State Fault Refusal :=
  answer s (doResWindowRead addr err s.m)

/-- NAND_READ_SCRUB: each block with a page that needs more than 6 corrected bits counts one event (R442). -/
def nandScrub (bad : List Nat) (m : Mach) : Mach :=
  if fon HLT_TEST_CFG.test_en m then each bad (fun b s => correctable ⟨10, 0, b, 0xFFFF⟩ s) m else m
def execNandReadScrub (bad : List Nat) (s : State) : Host.Outcome State Fault Refusal := answer s (nandScrub bad s.m)

/-! ### Tests of spares (R442, R443) -/

/-- SPARE_TEST: a spare of pool `pool` of kind `k` is tested. -/
def spareTest (k pool : Nat) (pass : Bool) (m : Mach) : Mach :=
  if coreOn m = false ∨ fon HLT_TEST_CFG.test_en m = false ∨ poolCount k ≤ pool ∨ poolLeft k pool m = 0 ∨ pass = true then m
  else
    spareBad k pool (logCode 0x0103 (kindDie k) k 0xFFFF (if k ≤ 1 then pool else 0xFFFF) []
      (setEvDie (kindDie k) HLT_EVENTS.spare_test_fail m))
def execSpareTest (kind : Fin 12) (pool : Nat) (pass : Bool) (s : State) : Host.Outcome State Fault Refusal :=
  answer s (spareTest kind pool pass s.m)

/-! ### Gaffer cores (R446) -/

/-- R446: a spare core goes on with a core's tasks within `bound` ticks: until then management stands. -/
def coreMoves (bound : Nat) (m : Mach) : Mach :=
  nextFree { m with hlt := { m.hlt with restart := some (tick m + Config.gafferTicks m.free % (bound + 1)) } }

/-- GAFFER_SUBST_PLANNED: the retiring core's tasks move to the spare in a management pause of at most 2 ms. -/
def gafferPlanned (m : Mach) : Mach :=
  match m.hlt.running with
  | some r => if r.kind.val = 9 ∧ 0 < poolLeft 9 0 m then
      plannedDone 9 r.phys r.logical 0xFFFF (coreMoves 491520 (useSpare 9 0 m)) else m
  | none => m
def execGafferSubstPlanned (s : State) : Host.Outcome State Fault Refusal := answer s (gafferPlanned s.m)

/-- GAFFER_HARD_FAIL: the spare restarts the core's tasks within 10 ms; without one the firmware runs on the remaining cores. -/
def gafferFail (m : Mach) : Mach :=
  if coreOn m = false then m
  else
    let m1 := setEv HLT_EVENTS.gaffer_fail m
    if 0 < poolLeft 9 0 m then hardDone 9 0xFFFF 0xFFFF 0xFFFF (coreMoves 2457600 (useSpare 9 0 m1))
    else twinFault 3 (noSpare 9 1 0xFFFF 0xFFFF m1)
def execGafferHardFail (s : State) : Host.Outcome State Fault Refusal := answer s (gafferFail s.m)

end Sys2Proof.Machine
end

