-- ==== Sys2Proof/Machine/RegWrite.lean ====
section
/-! DEFINITION. Register writes (R14 to R25): sticky bits, staged registers, plain registers, and the registers of the QUAD,
BMU, ACQ, CLK, MON, CAL, DMA and EPL blocks whose writes have effects or checks of their own, which a register-write section
of an image also reaches (R473). -/

namespace Sys2Proof.Machine

/-! ### Sticky registers (R19, R20) -/

/-- The bits of register `a` that a write can change, as a word (R24). -/
def wmask (a : Nat) : W := BitVec.ofNat 32 (match regInfo a with | some r => r.mask | none => 0)

/-- The bits of a W1C write that take effect: DIR_EVENTS.quota_stuck is cleared only within the quota (R215). -/
def w1cBits (a : Nat) (v : W) (m : Mach) : W :=
  if a = DIR_EVENTS ∧ partQuota 0 m < 64 * m.dir.ent.length then wset v DIR_EVENTS.quota_stuck.lo 1 0 else v

/-- Writing 1 clears a bit, except one that the device sets in the same cycle (`sets`), which stays set (R20). -/
def w1c (a : Nat) (v sets : W) (m : Mach) : Mach :=
  let m1 := each ((List.range 32).filter fun i => (sets &&& wmask a).getLsbD i) (setEvBit a) m
  wr a (rd a m1 &&& ~~~(w1cBits a v m &&& ~~~sets)) m1

/-! ### Staged registers (R21 to R23) -/

/-- R23: the frame timing that governs register `a` is stopped: its quadrant's, or the device's. -/
def stageStopped (a : Nat) (m : Mach) : Bool :=
  if 0x100000 ≤ a ∧ a < 0x500000 then quadStopped (a / 0x100000 - 1) m else !timingOn m

/-- A staged register without rules of its own takes a value. -/
def applyRws (a : Nat) (v : W) (m : Mach) : Mach := wr a v m

/-- R460: a staged register of class 2 of the mirror. -/
def mirrorRws (a : Nat) (v : W) (m : Mach) : Mach :=
  if a = BMU_UL_FC then mirror 2 (.carrier .ul v) m
  else if a = BMU_DL_FC then mirror 2 (.carrier .dl v) m
  else if 0x500040 ≤ a ∧ a < 0x500050 then mirror 2 (.exclude .ul (Fin.ofNat 4 ((a - 0x500040) / 4)) v) m
  else if 0x500050 ≤ a ∧ a < 0x500060 then mirror 2 (.exclude .dl (Fin.ofNat 4 ((a - 0x500050) / 4)) v) m
  else m

/-- A write of a staged register without rules of its own: held as pending, or applied at once (R22, R23). -/
def rwsWrite (a : Nat) (v : W) (m : Mach) : Mach :=
  let x := v &&& wmask a
  mirrorRws a x (if stageStopped a m then applyRws a x (setStage a none m) else setStage a (some x) m)

/-- A write of a register by its access code alone (R19, R24). -/
def plainWrite (a : Nat) (v : W) (m : Mach) : Mach :=
  match regInfo a with
  | none => m
  | some r => match r.acc with
    | .rw => wr a ((rd a m &&& ~~~(wmask a)) ||| (v &&& wmask a)) m
    | .rws => rwsWrite a v m
    | .w1c => w1c a v 0#32 m
    | .ro => m
    | .wo => m

/-- A register that the settings record holds: the write updates the record. -/
def settingWrite (a : Nat) (v : W) (m : Mach) : Mach := saveSetting a (plainWrite a v m)

/-! ### The QUAD block -/

/-- A chain's registers: configuration, responses, shifts, frequency word, phase. -/
def chainWrite (c : ChainId) (r : Nat) (a : Nat) (v : W) (m : Mach) : Mach :=
  match r with
  | 0x0 => chainCfgWrite c v m
  | 0x4 => chainRespWrite c v m
  | 0x8 => chainShiftWrite c v m
  | 0xC => ftwLoWrite c v m
  | 0x10 => ftwHiWrite c v m
  | 0x14 => chainPhaseWrite c v m
  | _ => plainWrite a v m

/-- A receive unit's registers below 0x200: control, attenuator, factors. -/
def rxUnitWrite (u : RxUnit) (r a : Nat) (v : W) (m : Mach) : Mach :=
  if r = 0 then rxCtrlWrite u v m
  else if r = 4 then rxAttenWrite u v m
  else if 0x100 ≤ r ∧ r < 0x1A8 then factorWrite u ((r - 0x100) / 4) v m
  else plainWrite a v m

/-- The registers of path `n` at offset `r` of its part of the block. -/
def pathWrite (n r a : Nat) (v : W) (m : Mach) : Mach :=
  let p := toPath n
  if r < 0x200 then rxUnitWrite (.path p) r a v m
  else if r < 0x240 then chainWrite (.ddc p) (r - 0x200) a v m
  else if r < 0x280 then chainWrite (.duc p) (r - 0x240) a v m
  else if r = 0x300 then txCfgWrite n v m
  else if r = 0x304 then txAttWrite n v m
  else if r = 0x390 then lutWrite n v m
  else plainWrite a v m

/-- The registers of observation receiver `o` at offset `r`. -/
def obsWrite (o r a : Nat) (v : W) (m : Mach) : Mach :=
  if r = 8 then setCoupler o (v.toNat % 64) m
  else if r < 0x200 then rxUnitWrite (.obs (toObs o)) r a v m
  else if r < 0x240 then chainWrite (.obs (toObs o)) (r - 0x200) a v m
  else plainWrite a v m

/-- The registers of quadrant `q`'s block at offset `o`. -/
def quadBlockWrite (q o a : Nat) (v : W) (m : Mach) : Mach :=
  if o < 0x4000 then pathWrite (16 * q + o / 0x400) (o % 0x400) a v m
  else if o = 0x4000 then rxCalCmd q v m
  else if o = 0x4004 then settingWrite a v m
  else if 0x4400 ≤ o ∧ o < 0x4C00 then obsWrite (2 * q + (o - 0x4400) / 0x400) ((o - 0x4400) % 0x400) a v m
  else if o = 0x5000 ∨ o = 0x5004 then fesCfgWrite q a v (wmask a) m
  else if o = 0x5010 then fesSwWrite q v m
  else if o = 0x7000 then swapRegWrite q v m
  else plainWrite a v m

/-! ### The other blocks -/

/-- DIR_SNAP_CMD: the key 0x7D51 and the command; another key refuses with snap_fail. -/
def dirSnapCmd (v : W) (m : Mach) : Mach :=
  if wfld v 16 16 ≠ 0x7D51 then setEv DIR_EVENTS.snap_fail m
  else match wfld v 0 2 with
    | 0 => m
    | 1 => dirEnter .snapCmd m
    | 2 => dirEnter .restoreCmd m
    | _ => snapLost m

def acqWrite (a : Nat) (v : W) (m : Mach) : Mach :=
  if a = DIR_CFG then dirCfgWrite v m
  else if a = DIR_SEED then dirSeedWrite v m
  else if a = DIR_SNAP_CMD then dirSnapCmd v m
  else if a = DIR_SNAP_CFG then settingWrite a v m
  else plainWrite a v m

def clkWrite (a : Nat) (v : W) (m : Mach) : Mach :=
  if a = CLK_REF_CFG then refCfgWrite v m
  else if a = CLK_SEED then clkSeedWrite v m
  else if a = CLK_STEER then clkSteerWrite v m
  else if a = CLK_PLAN_CMD then classBRequest v m
  else if a = CLK_SYNC_CFG then syncCfgWrite v m
  else plainWrite a v m

/-- Converter `q`'s registers at offset `r`; the common trigger, the thresholds, the lehr. -/
def monWrite (a : Nat) (v : W) (m : Mach) : Mach :=
  let o := a % 0x100000
  if o < 0x1000 then
    if o % 0x400 = 4 then monCmdWrite (o / 0x400) v m
    else if o % 0x400 = 0x10 ∨ o % 0x400 = 0x14 then monFactWrite (o / 0x400) a (v &&& wmask a) m
    else plainWrite a v m
  else if a = MON_TRIG_CMD then monTrigCmd v m
  else if a = MON_THR then monThrWrite v m
  else if a = MON_LEHR_CFG then settingWrite a v m
  else if a = MON_TRIG_CFG then trigArm (plainWrite a v m)
  else plainWrite a v m

def calWrite (a : Nat) (v : W) (m : Mach) : Mach :=
  if a = CAL_CTRL then calCtrlWrite v m
  else if a = CAL_REF_CFG then calRefWrite false v m
  else if a = CAL_REF_FREQ then calRefWrite true v m
  else plainWrite a v m

/-- A capture set's registers at offset `r`. -/
def capWrite (c r a : Nat) (v : W) (m : Mach) : Mach :=
  match r with
  | 0x0 => capCfgWrite c .ctrl v m
  | 0x4 => capCmd c v m
  | 0x8 => capCfgWrite c .srcLo v m
  | 0xC => capCfgWrite c .srcHi v m
  | 0x10 => capCfgWrite c .base v m
  | 0x14 => capLenWrite c v m
  | 0x18 => capCfgWrite c .nrec v m
  | 0x1C => capCfgWrite c .trig v m
  | 0x24 => capRptrWrite c v m
  | _ => plainWrite a v m

def dmaWrite (a : Nat) (v : W) (m : Mach) : Mach :=
  let o := a % 0x100000
  if 0x1000 ≤ o ∧ o < 0x1800 then
    match o % 0x40 with
    | 0x0 => dmaCmd ((o - 0x1000) / 0x40) v m
    | 0x4 => dmaChCfgWrite ((o - 0x1000) / 0x40) false v m
    | 0x8 => dmaChCfgWrite ((o - 0x1000) / 0x40) true v m
    | _ => plainWrite a v m
  else if 0x8100 ≤ o ∧ o < 0x8180 ∧ o % 0x10 = 8 then quotaWrite (Fin.ofNat 8 ((o - 0x8100) / 0x10)) v m
  else if 0x9000 ≤ o ∧ o < 0x9200 then capWrite ((o - 0x9000) / 0x40) (o % 0x40) a v m
  else plainWrite a v m

def eplWrite (a : Nat) (v : W) (m : Mach) : Mach :=
  let o := a % 0x100000
  if 0x20 ≤ o ∧ o < 0x30 then portCtrlWrite ((o - 0x20) / 4) v m
  else if 0x80 ≤ o ∧ o < 0xC0 ∧ o % 0x10 = 8 then refreshSess ((o - 0x80) / 0x10) (plainWrite a v m)
  else plainWrite a v m

/-- R473: address `a` lies in the QUAD, BMU, ACQ, CLK, MON, CAL, DMA or EPL block. -/
def imageBlock (a : Nat) : Bool := decide (0x100000 ≤ a ∧ a < 0xC00000)

/-- A write of a register of those blocks, with every effect and refusal the register's rules give it. -/
def blockWrite (a : Nat) (v : W) (m : Mach) : Mach :=
  match a / 0x100000 with
  | 5 => if a = BMU_CFG then bmuCfgWrite v m else plainWrite a v m
  | 6 => acqWrite a v m
  | 7 => clkWrite a v m
  | 8 => monWrite a v m
  | 9 => calWrite a v m
  | 10 => dmaWrite a v m
  | 11 => eplWrite a v m
  | b => if 1 ≤ b ∧ b ≤ 4 then quadBlockWrite (b - 1) (a % 0x100000) a v m else plainWrite a v m

/-! ### Writes that are not applied as written (R473) -/

/-- R473: register `a` accepts writes: it is mapped and neither RO nor WO. -/
def imageReg (a : Nat) : Bool :=
  imageBlock a && match regInfo a with
    | some r => r.acc != .ro && r.acc != .wo
    | none => false

/-- The offset of `a` in its path's part of a QUAD block is `r`. -/
def isPathReg (a r : Nat) : Bool := decide (0x100000 ≤ a ∧ a < 0x500000 ∧ a % 0x100000 < 0x4000 ∧ a % 0x400 = r)
/-- The path of such a register. -/
def pathOfReg (a : Nat) : Nat := 16 * (a / 0x100000 - 1) + a % 0x100000 / 0x400

/-- The write of `v` to `a` in state `m`, which led to state `m'`, was applied as written: the register, or its pending value,
holds it; a bank's word was written; every swap asked for passes its checks. -/
def wroteAll (a : Nat) (v : W) (m m' : Mach) : Bool :=
  match regInfo a with
  | none => false
  | some r =>
    if r.acc == .w1c || isPathReg a 0x210 || isPathReg a 0x250 then true
    else if isPathReg a 0x390 then
      let n := pathOfReg a
      let i := fget (QUAD_PD_LUT_ADDR.idx n) m
      !(fon (QUAD_PD_LUT_ADDR.bank_rd n) m || fon (QUAD_PD_CTRL.adapt_en n) m || swapPending n m || decide (2179 < i))
    else if 0x100000 ≤ a ∧ a < 0x500000 ∧ a % 0x100000 = 0x7000 then
      (pathsOf (a / 0x100000 - 1)).all fun n => !v.getLsbD (n % 16) || (!fon (QUAD_PD_CTRL.adapt_en n) m && swapFails n m == none)
    else if 0x400 ≤ a % 0x100000 ∧ 0x4000 ≤ a % 0x100000 ∧ a < 0x500000 ∧ (a % 0x100000 - 0x4400) % 0x400 = 0x210 then true
    else
      let got := match staged a m' with
        | some x => x
        | none => rd a m'
      got &&& wmask a == v &&& wmask a ||
        (decide (0xA09000 ≤ a ∧ a < 0xA09200 ∧ a % 0x40 = 0x14) && (getCap ((a - 0xA09000) / 0x40) m').lenPend == some v.toNat)

/-- STAGED_WRITE names only RWS registers; W1C_WRITE only sticky ones. -/
def accIs (acc : Acc) (a : Nat) : Bool := match regInfo a with
  | some r => r.acc == acc
  | none => false

end Sys2Proof.Machine
end

