-- ==== Sys2Proof/Machine/Sha.lean ====
section
/-! DEFINITION. SHA-256 and the ECDSA P-256 verification that R475 and R476 name, as their standards (FIPS 180-4, FIPS 186-4)
give them (PRESUMED, assumption 50: the spec names them and states neither). -/

namespace Sys2Proof.Machine

/-! ### SHA-256 -/

/-- The round constants. -/
def shaK : List W :=
  ([0x428a2f98, 0x71374491, 0xb5c0fbcf, 0xe9b5dba5, 0x3956c25b, 0x59f111f1, 0x923f82a4, 0xab1c5ed5] ++
    [0xd807aa98, 0x12835b01, 0x243185be, 0x550c7dc3, 0x72be5d74, 0x80deb1fe, 0x9bdc06a7, 0xc19bf174] ++
    [0xe49b69c1, 0xefbe4786, 0x0fc19dc6, 0x240ca1cc, 0x2de92c6f, 0x4a7484aa, 0x5cb0a9dc, 0x76f988da] ++
    [0x983e5152, 0xa831c66d, 0xb00327c8, 0xbf597fc7, 0xc6e00bf3, 0xd5a79147, 0x06ca6351, 0x14292967] ++
    [0x27b70a85, 0x2e1b2138, 0x4d2c6dfc, 0x53380d13, 0x650a7354, 0x766a0abb, 0x81c2c92e, 0x92722c85] ++
    [0xa2bfe8a1, 0xa81a664b, 0xc24b8b70, 0xc76c51a3, 0xd192e819, 0xd6990624, 0xf40e3585, 0x106aa070] ++
    [0x19a4c116, 0x1e376c08, 0x2748774c, 0x34b0bcb5, 0x391c0cb3, 0x4ed8aa4a, 0x5b9cca4f, 0x682e6ff3] ++
    [0x748f82ee, 0x78a5636f, 0x84c87814, 0x8cc70208, 0x90befffa, 0xa4506ceb, 0xbef9a3f7, 0xc67178f2]).map (BitVec.ofNat 32)

/-- The initial hash value. -/
def shaInit : List W := [0x6a09e667, 0xbb67ae85, 0x3c6ef372, 0xa54ff53a, 0x510e527f, 0x9b05688c, 0x1f83d9ab, 0x5be0cd19].map (BitVec.ofNat 32)

def rotr (n : Nat) (x : W) : W := x.rotateRight n

/-- The next word of the message schedule, from the last sixteen, newest first. -/
def shaNext (l : List W) : W :=
  let w (i : Nat) : W := l.getD i 0#32
  let s0 := rotr 7 (w 14) ^^^ rotr 18 (w 14) ^^^ (w 14 >>> 3)
  let s1 := rotr 17 (w 1) ^^^ rotr 19 (w 1) ^^^ (w 1 >>> 10)
  w 15 + s0 + w 6 + s1

/-- The schedule of a block of sixteen words. -/
def shaSched (b : List W) : List W := ((List.range 48).foldl (fun l _ => shaNext l :: l) b.reverse).reverse

/-- One round. -/
def shaRound (h : List W) (kw : W × W) : List W :=
  let v (i : Nat) : W := h.getD i 0#32
  let s1 := rotr 6 (v 4) ^^^ rotr 11 (v 4) ^^^ rotr 25 (v 4)
  let ch := (v 4 &&& v 5) ^^^ (~~~(v 4) &&& v 6)
  let t1 := v 7 + s1 + ch + kw.1 + kw.2
  let s0 := rotr 2 (v 0) ^^^ rotr 13 (v 0) ^^^ rotr 22 (v 0)
  let mj := (v 0 &&& v 1) ^^^ (v 0 &&& v 2) ^^^ (v 1 &&& v 2)
  [t1 + s0 + mj, v 0, v 1, v 2, v 3 + t1, v 4, v 5, v 6]

/-- One block enters the hash. -/
def shaBlock (h b : List W) : List W := h.zipWith (· + ·) ((shaK.zip (shaSched b)).foldl shaRound h)

/-- Bytes as big-endian words. -/
def beWords : List Byte → List W
  | a :: b :: c :: d :: l => (a ++ b ++ c ++ d) :: beWords l
  | _ => []

/-- A big-endian number of `n` bytes. -/
def beBytes (n x : Nat) : List Byte := (List.range n).map fun i => BitVec.ofNat 8 (x / 256 ^ (n - 1 - i))

/-- The padded message. -/
def shaPad (l : List Byte) : List Byte :=
  l ++ [0x80#8] ++ List.replicate ((119 - l.length % 64) % 64) 0#8 ++ beBytes 8 (8 * l.length)

/-- Blocks of sixteen words; `n` bounds their number. -/
def shaBlocks : Nat → List W → List (List W)
  | 0, _ => []
  | _, [] => []
  | n + 1, l => l.take 16 :: shaBlocks n (l.drop 16)

/-- The hash, 32 bytes. -/
def sha256 (l : List Byte) : List Byte :=
  let ws := beWords (shaPad l)
  ((shaBlocks (ws.length / 16 + 1) ws).foldl shaBlock shaInit).flatMap fun w => beBytes 4 w.toNat

/-! ### ECDSA P-256 -/

/-- The curve's prime, its coefficient b, the order of its base point, and that point. -/
def p256p : Nat := 0xffffffff00000001000000000000000000000000ffffffffffffffffffffffff
def p256b : Nat := 0x5ac635d8aa3a93e7b3ebbd55769886bc651d06b0cc53b0f63bce3c3e27d2604b
def p256n : Nat := 0xffffffff00000000ffffffffffffffffbce6faada7179e84f3b9cac2fc632551
def p256g : Nat × Nat :=
  (0x6b17d1f2e12c4247f8bce6e563a440f277037d812deb33a0f4a13945d898c296,
   0x4fe342e2fe1a7f9b8ee7eb4a7c0f9e162bce33576b315ececbb6406837bf51f5)

/-- The inverse of `a` modulo the prime `m`, as its power m − 2. -/
def invMod (a m : Nat) : Nat :=
  ((List.range 256).reverse).foldl (fun r i =>
    let s := r * r % m
    if (m - 2).testBit i then s * a % m else s) 1

/-- `a − b` modulo `m`. -/
def subMod (a b m : Nat) : Nat := (a + m - b % m) % m

/-- The sum of two points; none is the point at infinity. -/
def ecAdd (x y : Option (Nat × Nat)) : Option (Nat × Nat) :=
  let p := p256p
  match x, y with
  | none, _ => y
  | _, none => x
  | some a, some b =>
    if a.1 = b.1 ∧ (a.2 + b.2) % p = 0 then none
    else
      let l := if a = b then (3 * a.1 * a.1 + p - 3) * invMod (2 * a.2) p % p
        else subMod b.2 a.2 p * invMod (subMod b.1 a.1 p) p % p
      let x3 := subMod (l * l) (a.1 + b.1) p
      some (x3, subMod (l * subMod a.1 x3 p) a.2 p)

/-- `k` times a point. -/
def ecMul (k : Nat) (x : Nat × Nat) : Option (Nat × Nat) :=
  ((List.range 256).reverse).foldl (fun r i => let d := ecAdd r r; if k.testBit i then ecAdd d (some x) else d) none

/-- The point lies on the curve. -/
def onCurve (x : Nat × Nat) : Bool :=
  decide (x.1 < p256p ∧ x.2 < p256p) && x.2 * x.2 % p256p == (x.1 * x.1 * x.1 + (p256p - 3) * x.1 + p256b) % p256p

/-- The signature (r, s) of the hash `z` verifies under the key. -/
def ecdsaOk (key : Nat × Nat) (r s z : Nat) : Bool :=
  if onCurve key && decide (1 ≤ r ∧ r < p256n ∧ 1 ≤ s ∧ s < p256n) then
    let w := invMod s p256n
    match ecAdd (ecMul (z * w % p256n) p256g) (ecMul (r * w % p256n) key) with
    | none => false
    | some v => v.1 % p256n == r
  else false

end Sys2Proof.Machine
end

