-- ==== Sys2Proof/Machine/Container.lean ====
section
/-! DEFINITION. The image container (spec/16, R469 to R477): header, directory, signature, and each section's own rules. -/

namespace Sys2Proof.Machine

/-- What refuses an image: the code of R477, the directory index of the section, the register-write entry, and
whether an anchor out of range is what refuses it (R63). -/
structure ImgErr where
  code : Nat
  sect : Nat := 0
  entry : Nat := 0
  anchor : Bool := false
  deriving DecidableEq, Repr

/-- An entry of the directory (R471), with its index: type, plan (0 both, 1 Plan A, 2 Plan B), force, place. -/
structure ImgSect where
  idx : Nat
  stype : Nat
  plan : Nat
  force : Bool
  off : Nat
  len : Nat
  deriving DecidableEq, Repr

/-- A failed check. -/
def errIf (bad : Bool) (e : ImgErr) : Option ImgErr := if bad then some e else none

/-- The first error of a list of checks in order. -/
def firstErr {α : Type} (l : List α) (f : α → Option ImgErr) : Option ImgErr := l.findSome? f

/-! ### The header (R470) -/

def hdrType (l : List Byte) : Nat := byteAt l 6
def hdrFlag (l : List Byte) (i : Nat) : Bool := (l.getD 7 0#8).getLsbD i
def hdrNsect (l : List Byte) : Nat := leAt l 20 2

/-- R477 checks 1 and 2, for a session of type `target`. -/
def hdrErr (target : Nat) (l : List Byte) : Option ImgErr :=
  let t := hdrType l
  errIf (leAt l 0 4 != 0x4B444C52) ⟨1, 0, 0, false⟩ <|>
    errIf (leAt l 4 2 != 1 || decide (2 < t) || t != target || decide (16 ≤ byteAt l 7) ||
      (t == 0 && !hdrFlag l 1 && !hdrFlag l 2) || (hdrFlag l 3 && !hdrFlag l 2)) ⟨2, 0, 0, false⟩

/-- R477 checks 3 and 4. -/
def lenErr (l : List Byte) (m : Mach) : Option ImgErr :=
  errIf ((crc32 (l.take 60)).toNat != leAt l 60 4 || leAt l 16 4 != l.length) ⟨3, 0, 0, false⟩ <|>
    errIf ((rd GCTL_ID m).toNat &&& leAt l 12 4 != leAt l 8 4) ⟨4, 0, 0, false⟩

/-! ### Signature and identity (R475, R476) -/

/-- The image up to its signature block. -/
def imgBody (l : List Byte) : List Byte := if hdrFlag l 0 then l.take (l.length - 128) else l

/-- The identity of a deck or a reshuffle: the first 8 bytes of the hash of its body. -/
def imgIdent (l : List Byte) : List Byte := (sha256 (imgBody l)).take 8

/-- Key slot `k` is programmed and not revoked, and holds the hash `h`. -/
def keySlot (k : Nat) (h : List Byte) (m : Mach) : Bool :=
  let v := rd IMG_FUSE m
  v.getLsbD (1 + 2 * k) && !v.getLsbD (2 + 2 * k) && Config.keyHash k == h

/-- R475: the signature block verifies. Its four numbers are little-endian, as R469 makes every field of an image (assumption
51). -/
def sigOk (l : List Byte) (m : Mach) : Bool :=
  let b := l.drop (l.length - 128)
  let h := sha256 (b.take 64)
  let z := (sha256 (imgBody l)).foldl (fun a x => 256 * a + x.toNat) 0
  (keySlot 0 h m || keySlot 1 h m) && ecdsaOk (leAt b 0 32, leAt b 32 32) (leAt b 64 32) (leAt b 96 32) z

/-- R477 check 5: an unsigned image is refused where a signature is required: by the fuse, for firmware, in RECOVERY (R494). -/
def sigErr (l : List Byte) (m : Mach) : Option ImgErr :=
  let need := fon IMG_FUSE.require_sig m || hdrType l == 2 || devState m == 2
  errIf (if hdrFlag l 0 then decide (l.length < 192) || !sigOk l m else need) ⟨5, 0, 0, false⟩

/-! ### The directory (R471, R472) -/

/-- Directory entry `i`. -/
def sectAt (l : List Byte) (i : Nat) : ImgSect :=
  let o := 64 + 16 * i
  let f := leAt l (o + 2) 2
  ⟨i, leAt l o 2, f % 4, f.testBit 2, leAt l (o + 4) 4, leAt l (o + 8) 4⟩
def imgSects (l : List Byte) : List ImgSect := (List.range (min 64 (hdrNsect l))).map (sectAt l)

/-- A section's bytes. -/
def sectBytes (l : List Byte) (s : ImgSect) : List Byte := (l.drop s.off).take s.len

/-- R477 check 6: each section's CRC. -/
def crcErr (l : List Byte) : Option ImgErr :=
  firstErr (imgSects l) fun s =>
    errIf ((crc32 (sectBytes l s)).toNat != leAt l (64 + 16 * s.idx + 12) 4) ⟨6, s.idx, 0, false⟩

/-- R472: the types an image admits, and those it must hold. -/
def admitted (t : Nat) : List Nat :=
  match t with
  | 0 => (List.range 17).map (· + 1)
  | 1 => [1, 2, 3, 4, 5, 6, 7, 8, 9, 10, 11, 12, 15, 16, 17]
  | _ => [0x20, 0x21]
def required (t : Nat) : List Nat :=
  match t with
  | 0 => [1, 2, 4, 5, 6, 7, 10, 11, 13, 15, 16, 17]
  | 1 => [15]
  | _ => [0x20, 0x21]

/-- The plans an image must serve: those a deck declares; for another image, one. -/
def declared (l : List Byte) : List Nat :=
  if hdrType l = 0 then (if hdrFlag l 1 then [1] else []) ++ (if hdrFlag l 2 then [2] else []) else [0]

/-- Sections `a` and `b` are of one type for the same plan. -/
def clash (a b : ImgSect) : Bool := a.stype == b.stype && (a.plan == b.plan || a.plan == 0 || b.plan == 0)

/-- The section's place in the image, its flags and its type are right. -/
def sectPlaced (l : List Byte) (ss : List ImgSect) (s : ImgSect) : Bool :=
  s.off % 64 == 0 && decide (64 + 16 * ss.length ≤ s.off ∧ s.off + s.len ≤ (imgBody l).length) &&
    (ss.take s.idx).all (fun r => decide (r.off < s.off ∧ r.off + r.len ≤ s.off) && !clash r s) &&
    s.plan != 3 && decide (leAt l (64 + 16 * s.idx + 2) 2 < 8) && (admitted (hdrType l)).contains s.stype

/-- R477 check 7. -/
def dirErr (l : List Byte) : Option ImgErr :=
  let ss := imgSects l
  let lacks := (required (hdrType l)).any fun t => (declared l).any fun p =>
    !ss.any fun s => s.stype == t && (s.plan == 0 || p == 0 || s.plan == p)
  errIf (decide (hdrNsect l < 1 ∨ 64 < hdrNsect l)) ⟨7, 0, 0, false⟩ <|>
    firstErr ss (fun s => errIf (!sectPlaced l ss s) ⟨7, s.idx, 0, false⟩) <|> errIf lacks ⟨7, 0, 0, false⟩

/-! ### The sections' own rules -/

/-- R473: the entries of a register-write section. -/
def regEntries (b : List Byte) : List (Nat × W) :=
  (List.range (b.length / 8)).map fun i => (leAt b (8 * i) 4, BitVec.ofNat 32 (leAt b (8 * i + 4) 4))

/-- R473: every entry names a register of the named blocks that accepts writes. -/
def regSectErr (idx : Nat) (b : List Byte) : Option ImgErr :=
  errIf (b.length % 8 != 0) ⟨8, idx, 0, false⟩ <|>
    firstErr (regEntries b).zipIdx (fun e => errIf (!imageReg e.1.1) ⟨8, idx, e.2, false⟩)

/-- R474: the record at the front of `l` is well formed, and its logical number is above `prev`. -/
def tileRecOk (prev : Option Nat) (l : List Byte) : Bool :=
  let nw := leAt l 6 2
  let logical := byteAt l 0
  let lims := [1, 64, 32, 65536, 8, 64, 128]
  decide (156 ≤ l.length ∧ logical < 128 ∧ byteAt l 1 ≤ 3 ∧ byteAt l 2 < 4 ∧ byteAt l 3 = 0 ∧ leAt l 4 2 < 4096 ∧
    1 ≤ nw ∧ nw ≤ 4096) &&
  (match prev with
    | some p => decide (p < logical)
    | none => true) &&
  (List.range 4).all (fun p =>
    let c := byteAt l (12 + 4 * p)
    decide (c ≤ 6 ∧ byteAt l (13 + 4 * p) < lims.getD c 0 ∧ byteAt l (15 + 4 * p) = 0) && (c == 6 || byteAt l (14 + 4 * p) == 0)) &&
  (List.range 8).all (fun c =>
    decide (leAt l (28 + 16 * c) 4 % 8 = 0 ∧ leAt l (32 + 16 * c) 4 % 8 = 0 ∧ leAt l (32 + 16 * c) 4 ≤ 65536)) &&
  (parseTile l).1.exts.all (fun e => decide (e.1 + e.2.length ≤ 65536)) && (byteAt l 1 == 0 || Config.vendorOk l)

/-- The records of a tile section, in ascending logical number, fill it. -/
def tilesOk : Nat → Option Nat → List Byte → Bool
  | _, _, [] => true
  | 0, _, _ => false
  | n + 1, prev, l => tileRecOk prev l && tilesOk n (some (byteAt l 0)) (parseTile l).2

/-- R415: the frame table of a section. -/
def parseFrame (b : List Byte) : FrameTab :=
  { fdd := byteAt b 2 == 1, len := leAt b 4 4,
    slots := (List.range (byteAt b 3 + 1)).map fun i =>
      let o := 8 + 8 * i
      { start := leAt b o 4, ty := byteAt b (o + 4), txq := byteAt b (o + 5) % 16, rxq := byteAt b (o + 5) / 16,
        gapq := byteAt b (o + 6) % 16 } }

/-- R416: a slot's masks. -/
def slotOk (fdd : Bool) (s : Slot) : Bool :=
  decide (s.ty ≤ 3) && (fdd || (s.txq &&& s.rxq == 0 && !(s.ty == 1 && s.txq != 0) && !(s.ty == 2 && s.txq != 0) &&
    !(s.ty == 0 && s.rxq != 0))) && (if s.ty = 3 then s.gapq &&& (s.txq ||| s.rxq) == 0 else s.gapq == 0)

/-- R416: a frame section. -/
def frameOk (b : List Byte) : Bool :=
  let t := parseFrame b
  let starts := t.slots.map Slot.start
  leAt b 0 2 == 1 && decide (byteAt b 2 ≤ 1 ∧ 122880 ≤ t.len ∧ t.len ≤ 2457600 ∧ b.length = 8 + 8 * t.slots.length) &&
    starts.headD 1 == 0 && (starts.zip (starts.drop 1 ++ [t.len])).all (fun p => decide (p.1 + 1024 ≤ p.2)) &&
    t.slots.all (slotOk t.fdd) &&
    (List.range t.slots.length).all (fun i => decide (byteAt b (14 + 8 * i) < 16) && byteAt b (15 + 8 * i) == 0)

/-- The front-end section holds the quadrants in order, each with how many state and how many action records it has, two bytes each,
then its states, then its actions (DESIGN CHOICE, assumption 45). -/
def fesStates (b : List Byte) : Nat := leAt b 0 2
def fesActs (b : List Byte) : Nat := leAt b 2 2
def fesLen (b : List Byte) : Nat := 4 + 16 * fesStates b + 8 * fesActs b
/-- Quadrant `q`'s part of the section, with what comes after it. -/
def fesPart (q : Nat) (b : List Byte) : List Byte := (List.range q).foldl (fun l _ => l.drop (fesLen l)) b

/-- R237: state record `s` and action record `k` of a quadrant's part: a transition that is valid names a state of the table, the actions
lie in it. -/
def fesStateOk (b : List Byte) (s : Nat) : Bool :=
  let o := 4 + 16 * s
  decide (leAt b o 2 + byteAt b (o + 2) ≤ fesActs b ∧ byteAt b (o + 2) ≤ 32) && byteAt b (o + 3) == 0 &&
    (List.range 4).all fun i =>
      let t := leAt b (o + 8 + 2 * i) 2
      t / 1024 % 32 == 0 && (!t.testBit 15 || decide (t / 16 % 64 < fesStates b))
def fesActOk (b : List Byte) (k : Nat) : Bool :=
  let o := 4 + 16 * fesStates b + 8 * k
  decide (byteAt b (o + 2) ≤ 3 ∧ -4095 ≤ sext 16 (leAt b o 2))
def fesPartOk (b : List Byte) : Bool :=
  decide (4 ≤ b.length ∧ fesStates b ≤ 64 ∧ fesActs b ≤ 512 ∧ fesLen b ≤ b.length) &&
    (List.range (fesStates b)).all (fesStateOk b) && (List.range (fesActs b)).all (fesActOk b)
def fesOk (b : List Byte) : Bool := quads4.all (fun q => fesPartOk (fesPart q b)) && (fesPart 4 b).isEmpty

/-- The words of the records of quadrant `q`, 64 states and 512 actions, 0 beyond its tables, as QUAD_FES_STATE and QUAD_FES_ACT show
them. -/
def fesWords (b : List Byte) (q : Nat) : List W × List W :=
  let p := fesPart q b
  let words (l : List Byte) (n : Nat) : List W := (List.range n).map fun i => BitVec.ofNat 32 (leAt l (4 * i) 4)
  (words ((p.drop 4).take (16 * fesStates p)) 256, words ((p.drop (4 + 16 * fesStates p)).take (8 * fesActs p)) 1024)

/-- R228: the curves: 32 points of Ct and 32 of Cv for each quadrant, four bytes each (assumption 45). -/
def curvesOk (b : List Byte) : Bool :=
  decide (b.length = 1024) && (List.range 256).all fun i => decide (leAt b (4 * i) 4 ≤ 4000)

/-- R274: the board table. -/
def boardSectOk (b : List Byte) : Bool :=
  let n := byteAt b 2
  leAt b 0 2 == 0 || (decide (1 ≤ n ∧ n ≤ 8 ∧ 48 + 1024 * n ≤ b.length) &&
    (List.range (n - 1)).all fun f => decide (leAt b (16 + 4 * f) 4 < leAt b (20 + 4 * f) 4))

/-- R172: a pattern table's bytes; R171: every path has a record of four words that names a table of the deck. -/
def patBytes : Nat := 61 * 31 * 4
def patOk (b : List Byte) : Bool := b.length % patBytes == 0 && decide (b.length ≤ 4 * patBytes)
def geomOk (pat b : List Byte) : Bool :=
  decide (b.length = 1024) && (List.range 64).all fun n => decide (byteAt b (16 * n + 12) % 4 < pat.length / patBytes)

/-- R254: an adjacency record. -/
def adjOk (b : List Byte) : Bool :=
  decide (b.length = 128) && (List.range 64).all fun n =>
    let a := byteAt b (2 * n)
    let c := byteAt b (2 * n + 1)
    let ok := fun x => x == 255 || (decide (x < 64) && x != n)
    ok a && ok c && (a == 255 || a != c)

/-- R105, R223: a band of `lo` to `hi` kHz lies within 0.30 to 3.80 GHz, inside zone `z` of a rate of `fs` kHz, 1 % of the
rate from its ends. Zero to zero declares no band. -/
def bandIn (fs z lo hi : Nat) : Bool :=
  decide (300000 ≤ lo ∧ lo ≤ hi ∧ hi ≤ 3800000 ∧ 50 * z * fs + fs ≤ 100 * lo ∧ 100 * hi + fs ≤ 50 * (z + 1) * fs)
/-- The bands of the section (DESIGN CHOICE, assumption 45: 64 receive paths, 8 observation receivers, 64 transmit paths, each
its lowest and its highest frequency in kHz, 4 bytes each). -/
def bandAt (b : List Byte) (i : Nat) : Nat × Nat := (leAt b (8 * i) 4, leAt b (8 * i + 4) 4)
def planFs (p : Nat) : Nat := if p = 2 then 2949120 else 2457600
/-- The zone a transmit band lies in, if it lies in one: 0 for NRZ, 1 for MIX. -/
def txZone (p : Nat) (x : Nat × Nat) : Option Nat := [0, 1].find? fun z => bandIn (2 * planFs p) z x.1 x.2
def bandsOk (p : Nat) (b : List Byte) : Bool :=
  decide (b.length = 1088) &&
    (List.range 72).all (fun i => let x := bandAt b i; x == (0, 0) || (List.range 3).any fun z => bandIn (planFs p) z x.1 x.2) &&
    (List.range 64).all fun n => let x := bandAt b (72 + n); x == (0, 0) || (txZone p x).isSome

/-- The bytes of the section of type `t` that serves plan `p`. -/
def sectFor (l : List Byte) (t p : Nat) : List Byte :=
  match (imgSects l).find? fun s => s.stype == t && (s.plan == 0 || p == 0 || s.plan == p) with
  | some s => sectBytes l s
  | none => []

/-- R477 check 8, as far as the section's bytes alone decide. A reshuffle's geometry may name a table of the deck in force. -/
def sectErr (l : List Byte) (m : Mach) (s : ImgSect) : Option ImgErr :=
  let b := sectBytes l s
  let plans := if s.plan ≠ 0 then [s.plan] else if hdrType l = 0 then declared l else [fget CLK_STATUS.plan m + 1]
  let bad : Bool := match s.stype with
    | 1 => Config.linkCycle b
    | 3 => !tilesOk 129 none b
    | 4 => !frameOk b
    | 5 => !fesOk b
    | 6 => b.length != 704
    | 7 => !curvesOk b
    | 8 => b.length != 64 * 8720
    | 9 => !boardSectOk b
    | 10 => !plans.all fun p => geomOk (match sectFor l 11 p with
      | [] => deckSect 11 m
      | t => t) b
    | 11 => !patOk b
    | 12 => !adjOk b
    | 13 => b.length != 96
    | 14 => b.length != 48
    | 15 => b.length != 17
    | 16 => b.length != 4
    | 17 => !plans.all fun p => bandsOk p b
    | _ => false
  if s.stype = 2 then regSectErr s.idx b else errIf bad ⟨8, s.idx, 0, false⟩

/-- R477 checks 1 to 7, which a firmware bank must also pass at BOOT (R487). -/
def containerErr (target : Nat) (l : List Byte) (m : Mach) : Option ImgErr :=
  hdrErr target l <|> lenErr l m <|> sigErr l m <|> crcErr l <|> dirErr l

/-- R477 checks 1 to 8. -/
def staticErr (target : Nat) (l : List Byte) (m : Mach) : Option ImgErr :=
  containerErr target l m <|> firstErr (imgSects l) (sectErr l m)

/-- The index of the section of type `t` for plan `p`, for IMG_LOAD_ERR. -/
def sectIdx (l : List Byte) (t p : Nat) : Nat :=
  match (imgSects l).find? fun s => s.stype == t && (s.plan == 0 || p == 0 || s.plan == p) with
  | some s => s.idx
  | none => 0

/-! ### Budgets (R48, R338) -/

/-- R48: every pipeline's demand leaves a slack of 10 %: at most 180 units of 0.5 %. -/
def demandOk (b : List Byte) : Bool := b.all fun x => decide (x.toNat ≤ 180)

/-- The reservoir section: base, size and quota in bytes for each partition, 4 bytes each (assumption 45). -/
def partRec (b : List Byte) (i : Nat) : Nat × Nat × Nat := (leAt b (12 * i) 4, leAt b (12 * i + 4) 4, leAt b (12 * i + 8) 4)

/-- R338: the partitions; `fw` is the least FW that the firmware declares, `tile` the bytes of the deck's tile sections. -/
def partsOk (fw tile : Nat) (b : List Byte) : Bool :=
  let r := (List.range 8).map (partRec b)
  let sz := fun i => (r.getD i (0, 0, 0)).2.1
  r.all (fun x => decide (x.1 % 65536 = 0 ∧ x.2.1 % 65536 = 0 ∧ x.2.2 ≤ x.2.1 ∧ resLo ≤ x.1 ∧ x.1 + x.2.1 ≤ resHi)) &&
    r.zipIdx.all (fun x => (r.take x.2).all fun y => decide (y.1 + y.2.1 ≤ x.1.1 ∨ x.1.1 + x.1.2.1 ≤ y.1)) &&
    decide (sz 0 ≤ 50331648 ∧ sz 5 = 262144 ∧ 589824 ≤ sz 3 ∧ fw ≤ sz 6 ∧ tile ≤ sz 4)

end Sys2Proof.Machine
end

