-- ==== Sys2Proof/Machine/States.lean ====
section
/-! DEFINITION. The device's states (spec/02, R68 to R78): the commands of GCTL_DEV_CMD, the transitions they start, and the
frame start of a quadrant's traffic. -/

namespace Sys2Proof.Machine

/-! ### The synchronising reset (R145, R186) -/

/-- R143: the outputs of a receive chain that a synchronising reset tags: a change at index 0 of every stage's input. -/
def resetSpan (c : ChainId) (m : Mach) : Nat :=
  (List.range (nstages c m)).foldl (fun a k => (a + respTaps (stageResp c (k + 1) m) - 2) / 2 + 1) 0

/-- Those outputs in ticks: each takes 2^nstages converter samples. -/
def resetTicks (c : ChainId) (m : Mach) : Nat :=
  (resetSpan c m * 2 ^ nstages c m * 16 + adcPer16 m - 1) / max 1 (adcPer16 m)

/-- Every chain of quadrant `q` undergoes a synchronising reset now. -/
def resetChains (q : Nat) (m : Mach) : Mach :=
  let t := tick m
  each [2 * q, 2 * q + 1] (fun o s => syncReset (.obs (toObs o)) t s)
    (each (pathsOf q) (fun n s => setOut (96 + n) { getOut (96 + n) s with due := 120 * t }
      (syncReset (.duc (toPath n)) t (syncReset (.ddc (toPath n)) t s))) m)

/-- R86: the traffic of quadrant `q` starts at this frame boundary; its receive paths are admitted to the uplink mesh once
their spans have passed (R186). -/
def startQuad (q : Nat) (m : Mach) : Mach :=
  let m1 := resetChains q m
  setQ q { getQ q m1 with startFrame := false } (each (pathsOf q) (fun n s =>
    setMesh (fun x => { x with joinAt := tabPut (fun _ => none) x.joinAt n (some (tick m + resetTicks (.ddc (toPath n)) s)) }) s) m1)

/-! ### Conditions of the commands -/

/-- An anchor that the deck uses: the uplink's where some slot receives, the downlink's where some slot transmits (DEDUCED,
assumption 41). -/
def anchorsSet (m : Mach) : Bool :=
  (!(m.ftab.slots.any fun s => s.rxq != 0) || rd GCTL_ANCHOR_UL m != 0#32) &&
    (!(m.ftab.slots.any fun s => s.txq != 0) || rd GCTL_ANCHOR_DL m != 0#32)

/-- R73: GO_ACTIVE is not refused. -/
def activeOk (m : Mach) : Bool := deckLoaded m && mpllLocked m && anchorsSet m && decide (role m ≠ 2)

/-- A device transition starts: busy reads 1. -/
def startTrans (t : DevTrans) (m : Mach) : Mach :=
  fset GCTL_DEV_STATE.busy 1 { m with trans := some t, transDue := false }

/-- The transition is over. -/
def endTrans (m : Mach) : Mach := fset GCTL_DEV_STATE.busy 0 { m with trans := none, transDue := false }

/-! ### The commands (R72, R73, R76, R77) -/

/-- GO_STANDBY: from WARM. -/
def goStandby (m : Mach) : Mach := if devState m = 4 then startTrans .toStandby m else stateErr m

/-- STANDBY → WARM starts: every quadrant with an IDLE target powers up at once (R77); one whose target is refused goes on without
it, with quad_refused (R84, R445). -/
def startWarm (m : Mach) : Mach :=
  each (quads4.filter fun q => (getQ q m).idleTarget) (fun q s =>
    if reqRefused q 1 s then refuseReq q (setQ q { getQ q s with idleTarget := false } s) else powerUp q 1 s) (startTrans .toWarm m)

/-- ACTIVE or DEGRADED → WARM starts (R74). -/
def leaveActive (m : Mach) : Mach := startTrans .toWarmBack m

/-- GO_WARM. -/
def goWarm (m : Mach) : Mach :=
  if devState m = 3 then startWarm { m with autoWarm := false, autoActive := false }
  else if isActive m then leaveActive m
  else stateErr m

/-- GO_ACTIVE: from WARM, under R73. -/
def goActive (m : Mach) : Mach := if devState m = 4 ∧ activeOk m = true then startTrans .toActive m else stateErr m

/-- CLEAR_DEGRADED: the re-test starts. -/
def clearDegraded (m : Mach) : Mach := if devState m = 6 then startTrans .retest m else stateErr m

/-- A write of GCTL_DEV_CMD: the key 0x6A3C and the command; anything else is refused with state_err. -/
def devCmd (v : W) (m : Mach) : Mach :=
  if wfld v 16 16 ≠ 0x6A3C then stateErr m
  else match wfld v 0 4 with
    | 0 => m
    | 1 => unlessBusy goStandby m
    | 2 => unlessBusy goWarm m
    | 3 => unlessBusy goActive m
    | 4 => unlessBusy clearDegraded m
    | 5 => unlessBusy (softReset 7) m
    | _ => stateErr m

def execGoStandby (s : State) : Host.Outcome State Fault Refusal := answer s (gate GCTL_DEV_CMD (unlessBusy goStandby) s.m)
def execGoWarm (s : State) : Host.Outcome State Fault Refusal := answer s (gate GCTL_DEV_CMD (unlessBusy goWarm) s.m)
def execGoActive (s : State) : Host.Outcome State Fault Refusal := answer s (gate GCTL_DEV_CMD (unlessBusy goActive) s.m)
def execClearDegraded (s : State) : Host.Outcome State Fault Refusal := answer s (gate GCTL_DEV_CMD (unlessBusy clearDegraded) s.m)
def execDevCmdInvalid (v : W) (s : State) : Host.Outcome State Fault Refusal := answer s (gate GCTL_DEV_CMD (devCmd v) s.m)

/-! ### The ends of the transitions -/

/-- R77, R78: what WARM waits for: every quadrant with an IDLE target is IDLE, waits for the MPLL, or has failed. -/
def warmReady (m : Mach) : Bool :=
  quads4.all fun q => !(getQ q m).idleTarget || quadState q m != 0 || (getQ q m).phase == .waitMpll || (getQ q m).qpllFailed

/-- R74: the drains are complete. -/
def drained (m : Mach) : Bool := quads4.all fun q => quadState q m != 2 && (getQ q m).phase != .drain

/-- The transition that runs can end at this frame boundary. -/
def transReady (m : Mach) : Bool :=
  match m.trans with
  | some .toWarm => warmReady m
  | some .toActive => true
  | some .toWarmBack => drained m
  | _ => false

/-- WARM_ENTRY: the device enters WARM from STANDBY. After auto_warm it issues GO_ACTIVE where auto_active asks for it. The
cause is 2 after auto_warm, for the entry belongs to the start-up (assumption 42). -/
def warmEntry (m : Mach) : Mach :=
  if m.trans = some .toWarm ∧ m.transDue = true then
    let go := m.autoWarm && m.autoActive
    let m1 := endTrans (setDev 4 (if m.autoWarm then 2 else 1) { m with autoWarm := false, autoActive := false })
    let m2 := refreshPins (each quads4 (fun q s => setQ q { getQ q s with idleTarget := false } s) m1)
    if go then goActive m2 else m2
  else m
def execWarmEntry (s : State) : Host.Outcome State Fault Refusal := answer s (warmEntry s.m)

/-- A takeover ends without its GO_ACTIVE: the device stays in WARM and holds the token (R464). -/
def takeoverRefused (m : Mach) : Mach :=
  if m.twin.takeover.isSome then
    wantEvent (setEv HLT_TWIN_EVENTS.takeover_unready (fset HLT_TWIN_STATUS.phase 0
      { m with twin := { m.twin with takeover := none } }))
  else m

/-- R464: at F1 the new PRIMARY applies the mirrored quadrant requests; a quadrant that enters RUNNING starts at once. -/
def applyMirroredReq (m : Mach) : Mach :=
  let v := rd GCTL_QUAD_REQ m
  refreshReqPending (each quads4 (fun q s =>
    let s1 := pendReq q (wfld v (2 * q) 2) (v.getLsbD (8 + q)) s
    let s2 := takeReqSlot q s1
    if (getQ q s2).startFrame then startQuad q s2 else s2) m)

/-- The device is ACTIVE, or DEGRADED while a request is outstanding (R68). -/
def enterActive (cause : Nat) (m : Mach) : Mach :=
  if fon GCTL_DEV_STATE.replace m then setEv GCTL_STATE_EVENTS.degraded_entered (setDev 6 cause m) else setDev 5 cause m

/-- ACTIVE_ENTRY: the conditions of R73 are checked again; a SOLO or PRIMARY device takes the token (R457). -/
def activeEntry (m : Mach) : Mach :=
  if m.trans = some .toActive ∧ m.transDue = true then
    if activeOk m then
      let own := m.twin.ownGo
      let m1 := enterActive (if m.twin.takeover.isSome then 8 else 1) (endTrans m)
      let m2 := if own then
          pumpPlanned (applyMirroredReq (fset HLT_TWIN_STATUS.phase 0 { m1 with twin := { m1.twin with ownGo := false, takeover := none } }))
        else m1
      refreshPins (wantToken m2)
    else takeoverRefused (stateErr (endTrans m))
  else m
def execActiveEntry (s : State) : Host.Outcome State Fault Refusal := answer s (activeEntry s.m)

/-- WARM_RETURN: the device enters WARM from ACTIVE or DEGRADED and releases the token (R457). -/
def warmReturn (m : Mach) : Mach :=
  if m.trans = some .toWarmBack ∧ m.transDue = true then refreshPins (dropToken 0xFF (endTrans (setDev 4 1 m))) else m
def execWarmReturn (s : State) : Host.Outcome State Fault Refusal := answer s (warmReturn s.m)

/-- STANDBY_RETURN: the device enters STANDBY once every quadrant is POWERED_DOWN; a quadrant on its way up is taken down
(R85). -/
def standbyReturn (m : Mach) : Mach :=
  if m.trans = some .toStandby ∧ quads4.all (fun q => quadState q m == 0) = true then
    let m1 := each (quads4.filter fun q => (getQ q m).phase != .rest) quadOff m
    refreshPins (endTrans (setDev 3 1 m1))
  else m
def execStandbyReturn (s : State) : Host.Outcome State Fault Refusal := answer s (standbyReturn s.m)

/-! ### The re-test (R76) -/

/-- The causes of a request that the remap table still holds (R449, R450): low pools, resources without a spare, failed
paths, lost sensors, the production table, the NAND. The PLLs' cause is not one of them. -/
def tableCauses (m : Mach) : Nat :=
  let r := m.nvm.remap
  (if (List.range 12).any (kindLow · m) then 1 else 0) + (if r.wornRes.isEmpty then 0 else 2) +
    (if r.rxFailed.isEmpty then 0 else 4) + (if r.txFailed.isEmpty then 0 else 8) + (if ((List.range 36).any fun i => coverLost i m) then 16 else 0) +
    (if nandOut m then 64 else 0) + (if r.prodBad then 128 else 0)

/-- RETEST_END: `remain` says which causes the tests of the hardware still find. A cause ends only where neither they nor the
remap table hold it; with none left the request ends and the device is ACTIVE, else it stays in DEGRADED with
replace_raised set once more as the fault record of the re-test (assumption 43). -/
def retestEnd (remain : Nat) (m : Mach) : Mach :=
  if m.trans = some .retest then
    let left := rd HLT_REPLACE m &&& (BitVec.ofNat 32 (remain ||| tableCauses m))
    let m1 := wr HLT_REPLACE left (endTrans m)
    if left = 0#32 then
      refreshPins (setDev 5 9 (fset GCTL_DEV_STATE.replace 0 (fset HLT_STATUS.replace 0 { m1 with replaceN := false })))
    else setEv HLT_EVENTS.replace_raised m1
  else m
def execRetestEnd (remain : BitVec 8) (s : State) : Host.Outcome State Fault Refusal := answer s (retestEnd remain.toNat s.m)

end Sys2Proof.Machine
end

