-- ==== Sys2Proof/Machine/Deck.lean ====
section
/-! DEFINITION. Loading a deck and applying a reshuffle (spec/16, R473, R474, R476 to R485; R62, R209, R338, R369, R380): what
each section sets, and the checks that need the device's state. -/

namespace Sys2Proof.Machine

def setImg (f : ImgSt → ImgSt) (m : Mach) : Mach := { m with img := f m.img }

/-! ### What each section sets -/

/-- The physical tile that serves logical tile `l`. -/
def serveTile (l : Nat) (m : Mach) : Option Nat :=
  (List.range 144).find? fun t => (getTile t m).serving && (getTile t m).logical == l

/-- R320: the records of a tile section are written into the tiles that serve them. -/
def loadTiles (b : List Byte) (m : Mach) : Mach :=
  each (parseTiles 128 b) (fun r s => match serveTile r.logical s with
    | some t => commitTile t ((getTile t s).load r (tileGrant r.logical s)) s
    | none => s) m

/-- The same, of the records whose tile is HALTED or FAULT. -/
def restTiles (b : List Byte) (m : Mach) : Mach :=
  each (parseTiles 128 b) (fun r s => match serveTile r.logical s with
    | some t => if (getTile t s).idle then commitTile t ((getTile t s).load r (tileGrant r.logical s)) s else s
    | none => s) m

/-- R415: the frame table takes over at the first frame boundary from tick `t` on, or at once while the timing is stopped. -/
def loadFrame (b : List Byte) (t : Nat) (m : Mach) : Mach :=
  if timingOn m then { m with clk := { m.clk with fsPend := some (t, parseFrame b) } } else { m with ftab := parseFrame b }

/-- Words `0` to `n − 1` of `b` from offset `off` go to the registers from address `a` on. -/
def loadWords (b : List Byte) (off n a : Nat) (m : Mach) : Mach :=
  each (List.range n) (fun i s => wr (a + 4 * i) (BitVec.ofNat 32 (leAt b (off + 4 * i) 4)) s) m

/-- `l` goes to the registers from address `a` on. -/
def putWords (l : List W) (a : Nat) (m : Mach) : Mach := each l.zipIdx (fun p s => wr (a + 4 * p.2) p.1 s) m

/-- The section leaves quadrant `q`'s front-end records as they are. -/
def fesSame (b : List Byte) (q : Nat) (m : Mach) : Bool :=
  let w := fesWords b q
  let same (l : List W) (a : Nat) : Bool := l.zipIdx.all fun p => rd (a + 4 * p.2) m == p.1
  same w.1 (QUAD_FES_STATE_w q 0 0) && same w.2 (QUAD_FES_ACT_w q 0 0)

/-- R237, R242: quadrant `q`'s front-end records; its sequencer restarts. A reshuffle that leaves them as they are does not write
them. -/
def loadFes (resh : Bool) (b : List Byte) (q : Nat) (m : Mach) : Mach :=
  let w := fesWords b q
  if resh && fesSame b q m then m
  else fesRestart q (putWords w.2 (QUAD_FES_ACT_w q 0 0) (putWords w.1 (QUAD_FES_STATE_w q 0 0) m))

/-- R228: the curves of quadrant `q`. -/
def loadCurves (b : List Byte) (q : Nat) (m : Mach) : Mach := loadWords b (256 * q) 64 (QUAD_TX_TCURVE q 0) m

/-- R255: the words of path `n`'s bank in the section. -/
def bankOf (b : List Byte) (n : Nat) : List W := (List.range 2180).map fun i => BitVec.ofNat 32 (leAt b (8720 * n + 4 * i) 4)

/-- R256: the bank of path `n` that the section is written into: bank A when a deck loads, the inactive one at a reshuffle. -/
def sectBank (resh : Bool) (n : Nat) (m : Mach) : Nat := if resh then pdIdle n m else 0

/-- A bank is written, its CRC word included. -/
def putBank (resh : Bool) (b : List Byte) (n : Nat) (m : Mach) : Mach :=
  each (bankOf b n).zipIdx (fun p s => setLut n (sectBank resh n m) p.2 p.1 s) m

/-- R257: what was put passes the checks: in a reshuffle all of them; in a deck, whose quadrants are POWERED_DOWN, those of the
bank itself. -/
def putBankOk (resh : Bool) (n : Nat) (m : Mach) : Bool :=
  if resh then swapFails n m == none else bankCrcOk n 0 m && bankFmtOk n 0 m

/-- R256, R483: what was written becomes active; in a reshuffle this is a swap, and an adaptation cycle in progress is discarded.
Nothing is mirrored (R484). -/
def loadBanks (resh : Bool) (b : List Byte) (m : Mach) : Mach :=
  each paths64 (fun n s =>
    let s1 := putBank resh b n (if resh then dropCycles n s else s)
    setEvIf resh (QUAD_PD_EVENTS.swapped n) (refreshIdle n (fset (QUAD_PD_STATUS.active_bank n) (sectBank resh n s) s1))) m

/-- R274: the board table; without one board_err is set. -/
def loadBoard (b : List Byte) (m : Mach) : Mach :=
  let v := leAt b 0 2
  refreshTrace (setEvIf (v == 0) CAL_EVENTS.board_err (fset CAL_BOARD_VER.ver v (fsetB CAL_BOARD_VER.valid (v != 0) m)))

/-- R254: the neighbours of path `n`. -/
def loadAdj (b : List Byte) (n : Nat) (m : Mach) : Mach :=
  let a := byteAt b (2 * n)
  let c := byteAt b (2 * n + 1)
  fset (QUAD_PD_ADJ.nb1 n) (if c = 255 then 0 else c) (fsetB (QUAD_PD_ADJ.nb1_valid n) (c != 255)
    (fset (QUAD_PD_ADJ.nb0 n) (if a = 255 then 0 else a) (fsetB (QUAD_PD_ADJ.nb0_valid n) (a != 255) m)))

/-- R338: the partitions, and what is in use of each. -/
def loadParts (b : List Byte) (tile : Nat) (m : Mach) : Mach :=
  let m1 := each (List.range 8) (fun i s =>
    let r := partRec b i
    wr (RES_PART_BASE i) (BitVec.ofNat 32 r.1) (fset (RES_PART_SIZE.size i) (r.2.1 / 65536)
      (fset (RES_PART_QUOTA.quota i) (r.2.2 / 65536) s))) m
  let use (i : Nat) : Nat := match i with
    | 3 => 558080
    | 4 => tile
    | 5 => 262144
    | 6 => partSize 6 m1
    | 7 => partSize 7 m1
    | _ => 0
  refreshOverQuota (each (List.range 8) (fun i s => setUse i (use i) s) m1)

/-- R472: the spare reservations, a word for each kind. -/
def loadReserves (b : List Byte) (m : Mach) : Mach :=
  each (List.range 12) (fun k s =>
    checkReserve k (refreshKind k (fset (HLT_RESERVE.reserve k) (leAt b (4 * k) 4) s))) m

/-- R48: the design slack of each pipeline, 100 % less its demand, which the section gives in 0.5 %. -/
def loadDemand (b : List Byte) (m : Mach) : Mach :=
  each (List.range 17) (fun i s => fset (GCTL_SLACK_PIPE.design_slack i) ((200 - byteAt b i) / 2) s) m

/-- A section other than the register writes and the anchors takes effect; `t` is the tick from which a frame table may. -/
def loadSect (resh : Bool) (t ty : Nat) (b : List Byte) (m : Mach) : Mach :=
  match ty with
  | 3 => loadTiles b m
  | 4 => loadFrame b t m
  | 5 => each quads4 (loadFes resh b) m
  | 7 => each quads4 (loadCurves b) m
  | 8 => loadBanks resh b m
  | 9 => loadBoard b m
  | 10 => loadWords b 0 256 (BMU_GEOM 0) m
  | 12 => each paths64 (loadAdj b) m
  | 14 => loadReserves b m
  | 15 => loadDemand b m
  | _ => m

/-! ### The limits of the anchors (R62) -/

/-- The group delay of stages `ks`, in ADC clocks (R140, R152). -/
def stagesDelay (c : ChainId) (ks : List Nat) (m : Mach) : Nat :=
  (ks.map fun k => (respTaps (stageResp c k m) - 1) / 2 * 2 ^ (k - 1)).sum
def ddcDelay (n : Nat) (m : Mach) : Nat :=
  let c := ChainId.ddc (toPath n)
  stagesDelay c ((List.range (nstages c m)).map (· + 1)) m
/-- In half ADC clocks, with the eleven output samples of IX. -/
def ducDelay2 (n : Nat) (m : Mach) : Nat :=
  let c := ChainId.duc (toPath n)
  2 * stagesDelay c ((List.range (nstages c m + 2)).map (· + 1)) m + 11

/-- R62: L_MIN of a direction: a sum of half ADC clocks, the core's transit and 4 ticks, rounded up. -/
def latMin (dl : Bool) (m : Mach) : Nat :=
  let d := if dl then (paths64.map (ducDelay2 · m)).foldl max 0 else 92 + (paths64.map fun n => 2 * ddcDelay n m).foldl max 0
  let a := max 1 (adcPer16 m)
  (16 * 16 * d + 2 * a * Config.coreTransit (deckSect 1 m) dl + 32 * a - 1) / (32 * a) + 4

/-- R62: L_MAX of a direction: the earliest arrival at the fastest typical corner, and the time that the 64 entries of the fastest output
bridge hold (8 samples each of a link stream, 16 of a transmit path), rounded down. -/
def latMax (dl : Bool) (m : Mach) : Nat :=
  let least (l : List Nat) : Nat := l.foldl min (l.headD 0)
  let st := least (if modeUl m = 1 then paths64.map fun n => nstages (.ddc (toPath n)) m else [fget BMU_CFG.ul_stages m])
  let d := if dl then least (paths64.map (ducDelay2 · m)) + 64 * 16
    else 92 + least (paths64.map fun n => 2 * ddcDelay n m) + 64 * 8 * 2 * 2 ^ st
  let a := max 1 (adcPer16 m)
  (16 * 16 * d + 2 * a * Config.coreFast (deckSect 1 m) dl) / (32 * a)

/-- The limits follow the deck and the chains. -/
def refreshLims (m : Mach) : Mach :=
  fset GCTL_ANCHOR_LIM_UL.l_min (latMin false m) (fset GCTL_ANCHOR_LIM_UL.l_max (latMax false m)
    (fset GCTL_ANCHOR_LIM_DL.l_min (latMin true m) (fset GCTL_ANCHOR_LIM_DL.l_max (latMax true m) m)))

/-! ### Register writes (R473) -/

/-- The entries are written in order; the first that is not applied as written refuses the image. -/
def regApply (idx : Nat) : List ((Nat × W) × Nat) → Mach → Except ImgErr Mach
  | [], m => .ok m
  | e :: l, m =>
    let m' := blockWrite e.1.1 e.1.2 m
    if wroteAll e.1.1 e.1.2 m m' then regApply idx l m' else .error ⟨8, idx, e.2, false⟩

/-- R473: at F of a class B change the writes of the plan that starts; one that is not applied is skipped and reported. -/
def planWrites (plan : Nat) (m : Mach) : Mach :=
  let k := 4 * 2 + plan + 1
  each (regEntries (tabGet (fun _ => []) m.img.deck k)).zipIdx (fun e s =>
    let s' := blockWrite e.1.1 e.1.2 s
    if wroteAll e.1.1 e.1.2 s s' then s'
    else fset IMG_LOAD_ERR.entry e.2 (fset IMG_LOAD_ERR.sect (tabGet (fun _ => 0) s'.img.deckIdx k)
      (fset IMG_LOAD_ERR.code 8 (setEv CLK_EVENTS.plan_wr_err s')))) m

/-- R473: the sections other than register writes, partitions and banks that the deck marks for plan `plan` take effect at F of a class
B change into it: the frame table at F, a tile's record where the tile rests. -/
def planSects (plan : Nat) (m : Mach) : Mach :=
  let own (ty : Nat) : List Byte := tabGet (fun _ => []) m.img.deck (4 * ty + plan + 1)
  let m1 := each [5, 7, 9, 10, 12, 14, 15] (fun ty s => if (own ty).isEmpty then s else loadSect true (tick s) ty (own ty) s) m
  let m2 := if (own 3).isEmpty then m1 else restTiles (own 3) m1
  let m3 := if (own 4).isEmpty then m2
    else if m2.slot = 0 then { m2 with ftab := parseFrame (own 4) } else loadFrame (own 4) (tick m2) m2
  if (own 16).isEmpty then m3
  else applyAnchor .dl (BitVec.ofNat 32 (leAt (own 16) 2 2)) (applyAnchor .ul (BitVec.ofNat 32 (leAt (own 16) 0 2)) m3)

/-- R402, R473: the deck's settings for the plan that starts. -/
def planEnter (plan : Nat) (m : Mach) : Mach := planWrites plan (planSects plan m)

/-! ### Checks of the state that an image leads to -/

/-- The streams of the modes that will be in force: their places in the stream map. -/
def streamPlaces (m : Mach) : List Nat × List Nat :=
  let cfg := upcoming BMU_CFG m
  ((if wfld cfg 0 2 = 1 then (List.range 64).map (32 + ·) else List.range 32),
    (if wfld cfg 2 1 = 1 then (List.range 64).map (32 + ·) else List.range 32))

/-- The bytes of a frame of format `f` at its largest, sensor block included for an uplink beam: MAC header, tag, eCPRI and
section headers, blocks, FCS (R363, R376, R378). -/
def frameBytes (f : Fmt) (sens : Bool) : Nat :=
  14 + (if f.tagged then 4 else 0) + 4 + 4 + 12 + (if sens then 16 else 0) + f.nblk * (1 + 3 * f.m) + 4

/-- R380: every entry that is used or not all zero is valid, no frame exceeds mtu, and every stream has an entry. -/
def eplOk (m : Mach) : Bool :=
  let s := deckSect 6 m
  let empty := fun i => leAt s (8 * i) 8 == 0
  let p := streamPlaces m
  (List.range 64).all (fun i => empty i || (fmtOk (fmtEntry i m) && decide (frameBytes (fmtEntry i m) true ≤ mtu m))) &&
    p.1.all (fun k => decide (ulIdx k m < 64) && !empty (ulIdx k m)) && p.2.all fun k => decide (dlIdx k m < 64) && !empty (dlIdx k m)

/-- R369: the traffic of one direction in kbit/s: of each stream, its message's bytes with preamble and gap over its samples,
at the stream's full rate (DEDUCED, assumption 52). -/
def iqTraffic (dl : Bool) (m : Mach) : Nat :=
  let cfg := upcoming BMU_CFG m
  let p := streamPlaces m
  let k := if dl then 2 + wfld cfg 8 4 else wfld cfg 4 4
  ((if dl then p.2 else p.1).map fun i =>
    let f := fmtEntry (if dl then dlIdx i m else ulIdx i m) m
    8 * (frameBytes f (!dl && decide (i < 32)) + 20) * fsKhz m / (12 * max 1 f.nblk * 2 ^ k)).sum
def trafficOk (m : Mach) : Bool := decide (iqTraffic false m ≤ 360000000 ∧ iqTraffic true m ≤ 360000000)

/-- QUAD_TX_CFG of path `n` as it will stand in plan `p`: what the plan's own register writes leave there, where `p` is not the plan in
force (R402, R473). -/
def planTxCfg (p n : Nat) (m : Mach) : W :=
  let own := if fget CLK_STATUS.plan m + 1 = p then [] else regEntries (tabGet (fun _ => []) m.img.deck (4 * 2 + p))
  match own.reverse.find? fun e => e.1 == QUAD_TX_CFG n with
  | some e => e.2
  | none => upcoming (QUAD_TX_CFG n) m

/-- A section of the deck for plan `p`: the plan's own, else the one for both. -/
def deckSectFor (p ty : Nat) (m : Mach) : List Byte :=
  match tabGet (fun _ => []) m.img.deck (4 * ty + p) with
  | [] => tabGet (fun _ => []) m.img.deck (4 * ty)
  | b => b

/-- R223: each path's dac_mode matches its declared transmit band, in every plan that the deck declares. -/
def dacModesOk (m : Mach) : Bool :=
  ([1, 2].filter m.img.deckFlags.testBit).all fun p =>
    let b := deckSectFor p 17 m
    paths64.all fun n =>
      match txZone p (bandAt b (72 + n)) with
      | some z => wfld (planTxCfg p n m) 0 1 == z
      | none => true

/-- R63: an anchor lies within the limits that an image gives. -/
def limsOk (ul dl : Nat) (m : Mach) : Bool := anchorOk .ul ul m && anchorOk .dl dl m

/-! ### Loading a deck (R478) -/

/-- The sections of an image replace those of the deck in force; a section for both plans replaces both plans' own. -/
def storeSects (l : List Byte) (m : Mach) : Mach :=
  each (imgSects l) (fun s t =>
    let k := 4 * s.stype
    let clear := if s.plan = 0 then [k, k + 1, k + 2] else [k + s.plan]
    setImg (fun x => { x with deck := tabPut (fun _ => []) (x.deck.filter fun e => !clear.contains e.1) (k + s.plan) (sectBytes l s),
                              deckIdx := tabPut (fun _ => 0) x.deckIdx (k + s.plan) s.idx }) t) m

/-- The registers of the DMA channels and of the capture sets return to reset (R478). -/
def dmaCapReset (m : Mach) : Mach :=
  { m with regs := m.regs.filter fun e => !decide ((0xA01000 ≤ e.1 ∧ e.1 < 0xA01800) ∨ (0xA09000 ≤ e.1 ∧ e.1 < 0xA09200)),
           dma := [], cap := [], pdCap := [] }

/-- A tile that no deck has loaded: it keeps its number and its sticky events. -/
def blankTile (x : Tile) : Tile := { logical := x.logical, serving := x.serving, events := x.events }

/-- The bytes of the deck's tile sections. -/
def tileBytes (l : List Byte) : Nat := ((imgSects l).map fun s => if s.stype = 3 then s.len else 0).sum

/-- The previous deck is gone; the new one's sections, partitions and empty directory are in place (R209, R478). -/
def deckBase (l : List Byte) (plan : Nat) (m : Mach) : Mach :=
  let m1 := storeSects l (setImg (fun x => { x with deck := [], deckIdx := [], deckFlags := byteAt l 7 }) (fset CLK_STATUS.plan plan m))
  let m2 := dmaCapReset { m1 with tiles := (List.range 144).foldl (fun t i => tabPut (fun _ => {}) t i (blankTile (getTile i m1))) [] }
  let m3 := loadParts (deckSect 13 m2) (tileBytes l) (dirEmpty m2)
  fset DIR_CFG.nb (min 98304 (partSize 0 m3 / 512)) m3

/-- The deck's sections other than partitions, register writes and anchors, in the order of their types. -/
def deckSects (m : Mach) : Mach :=
  each [3, 4, 5, 7, 8, 10, 11, 12, 14, 15] (fun ty s => match deckSect ty s with
    | [] => s
    | b => loadSect false (tick s) ty b s) (loadBoard (deckSect 9 m) m)

/-- The FW partition that the running firmware asks for (R338, R472). -/
def runningFw (m : Mach) : List Byte := (tabGet (fun _ => {}) m.nvm.banks (fget IMG_STATUS.running_bank m)).bytes
def fwMin (l : List Byte) : Nat := leAt (sectFor l 0x21 0) 0 4

/-- The plan a deck starts in: 0 A, 1 B. -/
def startPlan (l : List Byte) : Nat := if hdrFlag l 3 || !hdrFlag l 1 then 1 else 0

/-- R477 check 9 of a deck, on the state that it leads to. -/
def deckBudget (l : List Byte) (m : Mach) : Option ImgErr :=
  let p := fget CLK_STATUS.plan m + 1
  let a := deckSect 16 m
  firstErr (imgSects l) (fun s => errIf (s.stype == 15 && !demandOk (sectBytes l s)) ⟨9, s.idx, 0, false⟩) <|>
    errIf (!limsOk (leAt a 0 2) (leAt a 2 2) m) ⟨9, sectIdx l 16 p, 0, true⟩ <|>
    errIf (!trafficOk m) ⟨9, sectIdx l 6 p, 0, false⟩ <|>
    errIf (!partsOk (fwMin (runningFw m)) (tileBytes l) (deckSect 13 m)) ⟨9, sectIdx l 13 p, 0, false⟩

/-- The rest of check 8: what needs the state that the image leads to. -/
def stateContent (resh : Bool) (l : List Byte) (m : Mach) : Option ImgErr :=
  let p := fget CLK_STATUS.plan m + 1
  errIf (!eplOk m) ⟨8, sectIdx l 6 p, 0, false⟩ <|> errIf (!resh && !dacModesOk m) ⟨8, sectIdx l 17 p, 0, false⟩

/-- Every bank of an initial predistortion section can be made active. -/
def banksOk (resh : Bool) (b : List Byte) (m : Mach) : Bool :=
  b.isEmpty || paths64.all fun n => putBankOk resh n (putBank resh b n m)

/-- The anchors are written (R64): staged while the frame timing runs. -/
def writeAnchors (b : List Byte) (m : Mach) : Mach :=
  let put (d : Dir) (v : Nat) (s : Mach) : Mach :=
    if timingOn s then setStage (anchorReg d) (some (BitVec.ofNat 32 v)) s else applyAnchor d (BitVec.ofNat 32 v) s
  put .dl (leAt b 2 2) (put .ul (leAt b 0 2) m)

/-- R476: the identity in force. -/
def setIdent (i : List Byte) (m : Mach) : Mach :=
  let m1 := wr IMG_DECK_ID_LO (BitVec.ofNat 32 (leAt i 0 4)) (wr IMG_DECK_ID_HI (BitVec.ofNat 32 (leAt i 4 4)) (setImg (fun x => { x with deckId := i }) m))
  mirror 1 (.deck (BitVec.ofNat 64 (leVal i))) m1

/-- R478: a deck whose container is right loads, or is refused with nothing applied. -/
def loadDeck (l : List Byte) (m : Mach) : Except ImgErr Mach :=
  let plan := startPlan l
  let m1 := deckBase l plan m
  if !banksOk false (deckSect 8 m1) m1 then .error ⟨8, sectIdx l 8 (plan + 1), 0, false⟩
  else match regApply (sectIdx l 2 (plan + 1)) (regEntries (deckSect 2 m1)).zipIdx (deckSects m1) with
    | .error e => .error e
    | .ok m2 =>
      let m3 := refreshLims m2
      match stateContent false l m3 <|> deckBudget l m3 with
      | some e => .error e
      | none =>
        let m4 := setIdent (imgIdent l) (fset GCTL_DEV_STATE.deck_loaded 1 (writeAnchors (deckSect 16 m3) m3))
        let m5 := setEv IMG_EVENTS.load_done m4
        .ok (if plan ≠ fget CLK_STATUS.plan m ∧ fon CLK_STATUS.ref_present m = true ∧ m.clk.mpllFailed = false then startPlanLock m5 else m5)

/-! ### Reshuffles (R482 to R485) -/

/-- The sections of a reshuffle that apply in the plan in force. -/
def reshSects (l : List Byte) (m : Mach) : List ImgSect :=
  (imgSects l).filter fun s => s.plan == 0 || s.plan == fget CLK_STATUS.plan m + 1

/-- R89: quadrant `q` is IDLE or POWERED_DOWN. -/
def quadCalm (m : Mach) (q : Nat) : Bool := decide (quadState q m ≤ 1)

/-- The quadrants of the paths that a changed adjacency record names, old and new (R254). -/
def adjCalm (b : List Byte) (m : Mach) : Bool :=
  paths64.all fun n =>
    let old := [(fon (QUAD_PD_ADJ.nb0_valid n) m, fget (QUAD_PD_ADJ.nb0 n) m), (fon (QUAD_PD_ADJ.nb1_valid n) m, fget (QUAD_PD_ADJ.nb1 n) m)]
    let new := [byteAt b (2 * n), byteAt b (2 * n + 1)].map fun x => (x != 255, if x = 255 then 0 else x)
    old == new || (n :: ((old ++ new).filter Prod.fst).map Prod.snd).all fun k => quadCalm m (k / 16)

/-- R242: the quadrants whose front-end records change are calm. -/
def fesCalm (b : List Byte) (m : Mach) : Bool :=
  quads4.all fun q => fesSame b q m || quadCalm m q

/-- R320: each tile that a section names is HALTED or FAULT, and a change of its bindings finds its quadrant calm (R89). -/
def tilesCalm (b : List Byte) (m : Mach) : Bool :=
  (parseTiles 128 b).all fun r => match serveTile r.logical m with
    | some t =>
      let x := getTile t m
      x.idle && ((r.ports.zipIdx.all fun p => tabGet (fun _ => (0, 0, 0)) x.ports p.2 == p.1) || quadCalm m (tileQuad t))
    | none => true

/-- R477 check 10 of a section of a reshuffle. -/
def sectCalm (s : ImgSect) (b : List Byte) (m : Mach) : Bool :=
  match s.stype with
  | 1 => quads4.all fun q => !inMask (Config.linkQuads (deckSect 1 m) b) q || quadCalm m q
  | 3 => tilesCalm b m
  | 5 => fesCalm b m
  | 12 => adjCalm b m
  | _ => true

/-- R484, R477 check 10: a reshuffle is refused while a class B change, a takeover or a punty handover is pending or runs. -/
def reshState (l : List Byte) (m : Mach) : Option ImgErr :=
  errIf (fon CLK_STATUS.classb m || m.twin.takeover.isSome || m.img.handover || m.img.pause) ⟨10, 0, 0, false⟩ <|>
    firstErr (reshSects l m) fun s => errIf (!sectCalm s (sectBytes l s) m) ⟨10, s.idx, 0, false⟩

/-- R477 check 9 of a reshuffle: the demand, the anchors that will be in force, the traffic. -/
def reshBudget (l : List Byte) (m : Mach) : Option ImgErr :=
  let p := fget CLK_STATUS.plan m + 1
  firstErr (imgSects l) (fun s => errIf (s.stype == 15 && !demandOk (sectBytes l s)) ⟨9, s.idx, 0, false⟩) <|>
    errIf (!limsOk (upcoming GCTL_ANCHOR_UL m).toNat (upcoming GCTL_ANCHOR_DL m).toNat m) ⟨9, sectIdx l 16 p, 0, true⟩ <|>
    errIf (!trafficOk m) ⟨9, sectIdx l 6 p, 0, false⟩

/-- R485: a section that carries force and removes a unit abandons its work. -/
def forcedRemoval (l : List Byte) (m : Mach) : Bool :=
  (reshSects l m).any fun s => s.force && s.stype == 1 && Config.linkRemoves (deckSect 1 m) (sectBytes l s)

/-- R485: a forced register write from state `m` to `m'` turned units off: the acquisition engine loses its work, an engine's inputs
stand as GAP; forced_disable is set. A write without force lets them drain. -/
def forcedOff (l : List Byte) (m m' : Mach) : Mach :=
  let force := (reshSects l m).any fun s => s.force && s.stype == 2
  let acq := fon ACQ_CFG.acq_en m && !fon ACQ_CFG.acq_en m'
  let engines := paths64.filter fun n => fon (QUAD_PD_CTRL.pd_en n) m && !fon (QUAD_PD_CTRL.pd_en n) m'
  if force && (acq || !engines.isEmpty) then
    let m1 := if acq then { m' with acq := { m'.acq with job := m'.acq.job.map fun j => { j with lost := true } } } else m'
    setEv GCTL_STATE_EVENTS.forced_disable
      (each engines (fun n s => setPd n { getPd n s with hist := (getPd n s).hist.map fun h => (h.1, gapSample) } s) m1)
  else m'

/-- R476: the identity after a reshuffle. -/
def reshIdent (l : List Byte) (m : Mach) : List Byte := (sha256 (m.img.deckId ++ imgIdent l)).take 8

/-- The sections of a reshuffle apply together at tick `t`; `stg` applies what its register writes staged (R22, R483). -/
def reshApply (stg : Mach → Mach) (l : List Byte) (m : Mach) : Except ImgErr Mach :=
  let ss := reshSects l m
  let p := fget CLK_STATUS.plan m + 1
  let m0 := setEvIf (forcedRemoval l m) GCTL_STATE_EVENTS.forced_disable m
  let m1 := each (ss.filter fun s => s.stype != 2 && s.stype != 16)
    (fun s t => loadSect true (tick m + 8192) s.stype (sectBytes l s) t) (storeSects l m0)
  if !banksOk true (sectFor l 8 p) m then .error ⟨8, sectIdx l 8 p, 0, false⟩
  else match regApply (sectIdx l 2 p) (regEntries (sectFor l 2 p)).zipIdx m1 with
    | .error e => .error e
    | .ok m2 =>
      let m3 := refreshLims (forcedOff l m (stg m2))
      let a := sectFor l 16 p
      let m4 := if a.isEmpty then m3 else writeAnchors a m3
      match stateContent true l m4 <|> reshBudget l m4 with
      | some e => .error e
      | none => .ok (setEv IMG_EVENTS.load_done (setIdent (reshIdent l m) (if a.isEmpty then m4 else stg m4)))

/-- The checks of a reshuffle at its COMMIT (R477): 8 to 11. -/
def reshErr (stg : Mach → Mach) (l : List Byte) (m : Mach) : Option ImgErr :=
  (match reshApply stg l m with
    | .error e => some e
    | .ok _ => none) <|> reshState l m <|> errIf (m.img.deckId.isEmpty || leAt l 24 8 != leVal m.img.deckId) ⟨11, 0, 0, false⟩

end Sys2Proof.Machine
end

