-- ==== Sys2Proof/Machine/Twin.lean ====
section
/-! DEFINITION. Twin operation (spec/15, R453 to R466): roles, heartbeats, what is in sync, handover and takeover. -/

namespace Sys2Proof.Machine

def setTwin (f : TwinSt → TwinSt) (m : Mach) : Mach := { m with twin := f m.twin }

/-! ### Roles (R453, R454) -/

/-- R462: every answer that waits for the STANDBY is sent: the mirror is down, or nothing is mirrored any more. -/
def releaseAcks (m : Mach) : Mach :=
  each m.twin.acks (fun a s => sendNat a.2.1 a.2.2 s) (setTwin (fun t => { t with acks := [] }) m)

/-- The role in force changes to `r`: logged (code 0x0301). A device that is no PRIMARY holds no answer back. -/
def setRole (r : Nat) (m : Mach) : Mach :=
  let old := role m
  if old = r then m
  else
    let m1 := fset HLT_TWIN_STATUS.role_act r (if r = 1 then m else releaseAcks m)
    logCode 0x0301 1 0xFF 0xFFFF 0xFFFF [BitVec.ofNat 8 old, BitVec.ofNat 8 r] m1

/-- R453: a write of the role is accepted: in STANDBY, or in WARM without the token. -/
def roleOpen (m : Mach) : Bool := devState m == 3 || (devState m == 4 && !hasToken m)

/-- A write of HLT_TWIN_CFG: refused whole where it changes the role at another time or names role 3; else the settings
record follows. With sync_ack cleared no answer is held back. -/
def twinCfgWrite (v : W) (m : Mach) : Mach :=
  let r := wfld v 0 2
  if r = 3 ∨ (r ≠ fget HLT_TWIN_CFG.role m ∧ roleOpen m = false) then setEv HLT_TWIN_EVENTS.role_refused m
  else
    let m1 := saveSetting HLT_TWIN_CFG (wr HLT_TWIN_CFG (v &&& 0x3FFFFFF#32) m)
    let m2 := if r = fget HLT_TWIN_CFG.role m then m1 else setRole r m1
    if fon HLT_TWIN_CFG.sync_ack m2 then m2 else releaseAcks m2
def execTwinRoleWrite (v : W) (s : State) : Host.Outcome State Fault Refusal :=
  answer s (gate HLT_TWIN_CFG (twinCfgWrite v) s.m)

/-- A takeover in progress is over. -/
def dropTakeover (m : Mach) : Mach :=
  fset HLT_TWIN_STATUS.phase 0 (setTwin (fun t => { t with takeover := none, ownGo := false }) m)

/-- R454, R466: the device changes to STANDBY and goes to WARM. HLT_TWIN_CFG keeps the role it was given. -/
def becomeStandby (m : Mach) : Mach :=
  let m1 := dropTakeover (stopTaking (setRole 2 m))
  let m2 := if m1.trans = some .toActive ∨ (m1.trans = none ∧ fon GCTL_DEV_STATE.busy m1 = true) then endTrans m1 else m1
  if isActive m2 ∧ m2.trans ≠ some .toWarmBack then leaveActive m2 else m2

/-! ### Being ready (R461) -/

/-- The device is calibrated: every receive unit's factors are valid. -/
def calibrated (m : Mach) : Bool :=
  (List.range 64).all (fun n => fon (QUAD_RX_STATUS.cal_valid (.path (toPath n))) m) &&
    (List.range 8).all fun o => fon (QUAD_RX_STATUS.cal_valid (.obs (toObs o))) m

/-- R461: twin_ready of a STANDBY; a PRIMARY shows its partner's. -/
def refreshReady (m : Mach) : Mach :=
  let v := match role m with
    | 1 => (match m.twin.partner with
      | some h => h.ready
      | none => false)
    | 2 => fget HLT_MIR_STATUS.in_sync m == 127 && devState m == 4 && quads4.all (fun q => quadState q m == 1) &&
        calibrated m && mirUp m
    | _ => false
  fsetB HLT_TWIN_STATUS.twin_ready v m

/-! ### Heartbeats (R458, R459) -/

/-- The mirror link works in WARM, ACTIVE and DEGRADED (spec/02, the table of device states). -/
def mirrorOn (m : Mach) : Bool := decide (4 ≤ devState m ∧ devState m ≤ 6)

/-- The lanes that have a macro: bit `l` while no macro of lane `l` has failed without a spare. -/
def laneMask (m : Mach) : Nat :=
  (if m.nvm.remap.wornRes.contains (8, 0) then 0 else 1) + (if m.nvm.remap.wornRes.contains (8, 1) then 0 else 2)

/-- The deck's identity as one number, byte 0 lowest. -/
def deckIdent (m : Mach) : Nat := (rd IMG_DECK_ID_LO m).toNat + 2 ^ 32 * (rd IMG_DECK_ID_HI m).toNat
/-- GCTL_UID. -/
def uid (m : Mach) : Nat := (rd GCTL_UID_LO m).toNat + 2 ^ 32 * (rd GCTL_UID_HI m).toNat

/-- R459: what a heartbeat says. -/
def heartbeat (m : Mach) : Heartbeat :=
  { role := Fin.ofNat 3 (role m), state := Fin.ofNat 8 (devState m), quads := BitVec.ofNat 8 (wfld (rd GCTL_QUAD_STATE m) 0 8),
    ready := fon HLT_TWIN_STATUS.twin_ready m, token := hasToken m, deck := BitVec.ofNat 64 (deckIdent m),
    rank := BitVec.ofNat 4 (fget HLT_TWIN_CFG.twin_rank m), uid := BitVec.ofNat 64 (uid m), tick := BitVec.ofNat 64 (tick m) }

/-- HEARTBEAT_TX: one frame stands for the copies on the lanes that are up. -/
def heartbeatTx (m : Mach) : Mach :=
  if mirrorOn m && laneMask m != 0 then
    let m1 := refreshReady m
    send (.heartbeat (heartbeat m1)) m1
  else m
def execHeartbeatTx (s : State) : Host.Outcome State Fault Refusal := answer s (heartbeatTx s.m)

/-- R454: mirroring runs between one PRIMARY and one STANDBY. -/
def paired (hb : Heartbeat) (m : Mach) : Bool :=
  (role m == 1 && hb.role.val == 2) || (role m == 2 && hb.role.val == 1)

/-- R454: the partner ranks above this device. -/
def outranked (hb : Heartbeat) (m : Mach) : Bool :=
  let r := fget HLT_TWIN_CFG.twin_rank m
  decide (r < hb.rank.toNat) || (r == hb.rank.toNat && decide (uid m < hb.uid.toNat))

/-- R454: the roles are compared. -/
def roleCheck (hb : Heartbeat) (m : Mach) : Mach :=
  if role m ≠ hb.role.val ∧ hb.role.val ≠ 0 then m
  else
    let m1 := setEv HLT_TWIN_EVENTS.role_conflict m
    if role m = 1 ∧ hb.role.val = 1 ∧ hasToken m = false ∧ (hb.token = true ∨ outranked hb m = true) then becomeStandby m1
    else m1

/-- R460: the PRIMARY's full copies: every vector of the pool in use, both banks of every path (the active one first, which
a swap then makes active). -/
def sendPool (m : Mach) : Mach :=
  each (List.range (partUse 1 m / 256)) (fun i s =>
    mirror 4 (.poolVec (BitVec.ofNat 16 i) ((List.range 64).map fun k => resWord (partBase 1 m + 256 * i + 4 * k) m)) s) m
def sendBanks (m : Mach) : Mach :=
  each paths64 (fun n s =>
    mirror 5 (.pdBank (toPath n) (bankWords n (pdIdle n m) 0 2180 m)) (mirror 5 (.pdSwap (toPath n) (some (BitVec.ofNat 64 (tick m))))
      (mirror 5 (.pdBank (toPath n) (bankWords n (pdBank n m) 0 2180 m)) s))) m

/-- R459, R460: the link has come up between a PRIMARY and a STANDBY: every class resyncs. -/
def resyncAll (m : Mach) : Mach :=
  if role m = 1 then
    sendBanks (sendPool (dirStream (setTwin (fun t => { t with resync := [6] }) (each [2, 4, 5, 6] (fun c s => setInSync c true s) m))))
  else
    let m1 := each [2, 4, 5, 6] (fun c s => setInSync c false s) m
    dirResync (setTwin (fun t => { t with resync := [2, 4, 5, 6], mirGot := [] }) m1)

/-- MIRROR_RESYNC of class `c`: the PRIMARY sends the full copy that the STANDBY asked for, or, for class 6, at its next
publication; on the STANDBY the copy is complete, or, of the directory with none under way, the PRIMARY starts one (R219, R460). -/
def mirrorResync (c : Nat) (m : Mach) : Mach :=
  if role m = 1 then
    if mirUp m = false then m
    else match c with
      | 3 => dirStream m
      | 4 => sendPool m
      | 5 => sendBanks m
      | 6 => setTwin (fun t => { t with resync := [6] }) m
      | _ => m
  else if role m = 2 then
    if c = 3 then (if fon DIR_MIRROR_STATUS.resync m then refreshReady (copyDone m) else if mirUp m then refreshReady (copyIn m) else m)
    else if (c = 4 ∨ c = 5) ∧ m.twin.resync.contains c = true then
      refreshReady (setInSync c true (setTwin (fun t => { t with resync := t.resync.filter (· != c) }) m))
    else m
  else m
def execMirrorResync (cls : Fin 7) (s : State) : Host.Outcome State Fault Refusal := answer s (mirrorResync cls s.m)

/-- R461: classes 0 and 1 are compared: the tick counts within ±1, the identities equal. -/
def syncCheck (hb : Heartbeat) (m : Mach) : Mach :=
  let t := decide (tick m ≤ hb.tick.toNat + 1 ∧ hb.tick.toNat ≤ tick m + 1)
  let d := hb.deck.toNat == deckIdent m
  setEvIf (!d) HLT_TWIN_EVENTS.deck_mis (setEvIf (!t) HLT_TWIN_EVENTS.time_mis (setInSync 1 d (setInSync 0 t m)))

/-- The mirror lag that the device measures, in 10 µs, saturating where it is shown (DESIGN CHOICE, assumption 102: an operand). -/
def noteLag (lag : Nat) (m : Mach) : Mach :=
  showSync (fset DIR_MIRROR_STATUS.lag (min 255 lag) (fset HLT_MIR_STATUS.lag (min 255 lag) (setTwin (fun t => { t with lag := lag }) m)))

/-- HEARTBEAT_RX: the partner's heartbeat; its tick count is corrected for the link delay. -/
def heartbeatRx (hb : Heartbeat) (lag : Nat) (m : Mach) : Mach :=
  if mirrorOn m && laneMask m != 0 then
    let before := mirUp m && (match m.twin.partner with
      | some h => paired h m
      | none => false)
    let m1 := fset HLT_MIR_STATUS.lanes_up (laneMask m) (fset HLT_TWIN_STATUS.partner_role hb.role.val
      (fset HLT_TWIN_STATUS.partner_seen 1 (setTwin (fun t => { t with partner := some hb }) (noteLag lag m))))
    let m2 := roleCheck hb m1
    let m3 := if paired hb m2 then
        let s := syncCheck hb m2
        if before then s else resyncAll s
      else m2
    refreshReady m3
  else m
def execHeartbeatRx (x : HbArrival) (s : State) : Host.Outcome State Fault Refusal :=
  answer s (heartbeatRx x.hb x.lag s.m)

/-! ### Takeover and handover (R463, R464) -/

/-- R463: the STANDBY decides to take over; `trig` is the trigger (0 heartbeat loss, 1 TAKEOVER, 2 FORCE_TAKEOVER, 3 a
handover notice). It changes to PRIMARY and takes the token; busy reads 1 until F1; nmse_best restarts (R264). -/
def takeoverStart (trig : Nat) (m : Mach) : Mach :=
  let unready := fget HLT_MIR_STATUS.in_sync m ≠ 127
  let m1 := setRole 1 (setTwin (fun t => { t with takeover := some trig, ownGo := false })
    (each paths64 (fun n s => setPd n { getPd n s with bestA := none } s) m))
  setEvIf (decide unready) HLT_TWIN_EVENTS.takeover_unready
    (wantToken (fset GCTL_DEV_STATE.busy 1 (fset HLT_TWIN_STATUS.phase 1 m1)))

/-- R463: with deck_mis set only FORCE_TAKEOVER takes over. -/
def deckMis (m : Mach) : Bool := fon HLT_TWIN_EVENTS.deck_mis m

/-- HEARTBEAT_LOSS: no valid frame on any lane for the time hb_loss gives. -/
def heartbeatLoss (m : Mach) : Mach :=
  if mirrorOn m && fon HLT_TWIN_STATUS.partner_seen m then
    let m1 := releaseAcks (fset HLT_MIR_STATUS.lanes_up 0 (fset HLT_TWIN_STATUS.partner_seen 0
      (setTwin (fun t => { t with partner := none }) (setEv HLT_TWIN_EVENTS.mirror_lost m))))
    let m2 := if role m1 = 2 ∧ fon HLT_TWIN_CFG.auto_hb m1 = true ∧ deckMis m1 = false then takeoverStart 0 m1 else m1
    refreshReady m2
  else m
def execHeartbeatLoss (s : State) : Host.Outcome State Fault Refusal := answer s (heartbeatLoss s.m)

/-- A command of HLT_TWIN_CMD that is not carried out. -/
def twinRefuse (m : Mach) : Mach := setEv HLT_TWIN_EVENTS.cmd_refused m

/-- TAKEOVER: accepted on a STANDBY while twin_ready is 1. -/
def takeoverCmd (m : Mach) : Mach :=
  let s := refreshReady m
  if role s = 2 ∧ fon HLT_TWIN_STATUS.twin_ready s = true ∧ deckMis s = false then takeoverStart 1 s else twinRefuse s
/-- FORCE_TAKEOVER: on any STANDBY whose frame timing runs. -/
def forceTakeover (m : Mach) : Mach := if role m = 2 ∧ timingOn m = true then takeoverStart 2 m else twinRefuse m
/-- HANDOVER: on a PRIMARY. -/
def handoverCmd (m : Mach) : Mach :=
  if role m = 1 ∧ m.twin.release = none then startHandover 0xFF m else twinRefuse m

/-- A write of HLT_TWIN_CMD: the key 0x8A33 and the command. -/
def twinCmd (v : W) (m : Mach) : Mach :=
  if wfld v 16 16 ≠ 0x8A33 then twinRefuse m
  else match wfld v 0 2 with
    | 0 => m
    | 1 => takeoverCmd m
    | 2 => handoverCmd m
    | _ => forceTakeover m
def execTakeover (s : State) : Host.Outcome State Fault Refusal := answer s (gate HLT_TWIN_CMD takeoverCmd s.m)
def execForceTakeover (s : State) : Host.Outcome State Fault Refusal := answer s (gate HLT_TWIN_CMD forceTakeover s.m)
def execTwinHandover (s : State) : Host.Outcome State Fault Refusal := answer s (gate HLT_TWIN_CMD handoverCmd s.m)

/-- HANDOVER_NOTICE: the PRIMARY's notice reaches the STANDBY. -/
def handoverNotice (m : Mach) : Mach :=
  if mirrorOn m = true ∧ role m = 2 ∧ deckMis m = false then takeoverStart 3 m else m
def execHandoverNotice (s : State) : Host.Outcome State Fault Refusal := answer s (handoverNotice s.m)

/-- R463: at a slot boundary the PRIMARY that gave notice releases the token; it waits without it. -/
def handoverRelease (m : Mach) : Mach :=
  match m.twin.release with
  | some r =>
    let m1 := setEvIf (hasToken m) HLT_TWIN_EVENTS.handover_out
      (dropToken r (setTwin (fun t => { t with release := none }) m))
    fsetB HLT_TWIN_STATUS.tok_wait (isActive m1) m1
  | none => m

/-- The device issues its own GO_ACTIVE (R464), or, where R73 refuses it, stays in WARM with the token. -/
def ownActive (m : Mach) : Mach :=
  let m1 := setTwin (fun t => { t with ownGo := true }) m
  if devState m = 4 ∧ activeOk m = true then fset HLT_TWIN_STATUS.phase 3 (startTrans .toActive m1)
  else takeoverRefused (stateErr (endTrans m1))

/-- TAKEOVER_SETTLED: sw_settle after the token was taken: the takeover is complete. -/
def takeoverSettled (m : Mach) : Mach :=
  match m.twin.takeover with
  | some trig =>
    if fget HLT_TWIN_STATUS.phase m = 2 ∧ hasToken m = true then
      let m1 := logCode 0x0300 1 0xFF 0xFFFF 0xFFFF (leBytes 4 (rd DIR_SEQ m).toNat ++ [BitVec.ofNat 8 trig])
        (setEv HLT_TWIN_EVENTS.takeover m)
      ownActive (wantEvent m1)
    else m
  | none => m
def execTakeoverSettled (s : State) : Host.Outcome State Fault Refusal := answer s (takeoverSettled s.m)

/-! ### Acknowledgements (R462) -/

/-- The number `w` has been reached by `q` (the count wraps). -/
def seqReached (q w : W) : Bool := decide ((q - w).toNat < 2 ^ 31)

/-- DELTA_ACK: the answers whose deltas the STANDBY holds are sent, in order; where it holds a copy of the directory to its end,
class 3 is in sync (R219). -/
def deltaAck (q : W) (m : Mach) : Mach :=
  if role m = 1 then
    let l := m.twin.acks.takeWhile fun a => seqReached q a.1
    let m1 := each l (fun a s => sendNat a.2.1 a.2.2 s) (setTwin (fun t => { t with acks := t.acks.drop l.length }) m)
    match m1.twin.copyTo with
    | some w => if seqReached q w then setInSync 3 true (setTwin (fun t => { t with copyTo := none }) m1) else m1
    | none => m1
  else m
def execDeltaAck (seq : W) (s : State) : Host.Outcome State Fault Refusal := answer s (deltaAck seq s.m)

end Sys2Proof.Machine
end

