-- ==== Sys2Proof/Machine/Reshuf.lean ====
section
/-! DEFINITION. The update lock, the stored images, and a reshuffle at its slot boundary (spec/16, R479 to R483, R486). -/

namespace Sys2Proof.Machine

/-! ### The lock and its answers (R480, R481) -/

/-- Who sends a command of a session: SPI, in-band session `s`, or the twin. -/
def srcSpi : Nat × Nat := (1, 0)
def srcBand (s : Nat) : Nat × Nat := (2, s)
def srcTwin : Nat × Nat := (3, 0)

/-- The source that holds the lock. -/
def lockSrc (m : Mach) : Nat × Nat := (fget IMG_STATUS.lock_src m, fget IMG_STATUS.lock_sess m)

/-- Source `x` holds the lock with a session that still takes bytes. -/
def holds (x : Nat × Nat) (m : Mach) : Bool := lockSrc m == x && m.img.sess.isSome

/-- RESULT goes to an in-band session with the status code; SPI reads IMG_LOAD_ERR, and the twin is told nothing. -/
def imgResult (x : Nat × Nat) (code : Nat) (m : Mach) : Mach := if x.1 = 2 then sendNat x.2 (.imgResult code) m else m

/-- The lock is free again. -/
def unlock (m : Mach) : Mach :=
  fset IMG_STATUS.lock_src 0 (fset IMG_STATUS.lock_sess 0 (fset IMG_STATUS.target 0 (setImg (fun x => { x with sess := none }) m)))

/-- R477: an image is refused: load_refused, and where and why. -/
def refuseImg (e : ImgErr) (m : Mach) : Mach :=
  setEv IMG_EVENTS.load_refused (wr IMG_LOAD_ERR (BitVec.ofNat 32 (e.code + 16 * e.sect + 1024 * e.entry))
    (setEvIf e.anchor GCTL_CORE_EVENTS.anchor_range m))

/-- The holder's COMMIT ends with code `c`. -/
def endCommit (c : Nat) (m : Mach) : Mach := imgResult (lockSrc m) c (unlock m)
def refuseCommit (e : ImgErr) (m : Mach) : Mach := imgResult (lockSrc m) e.code (unlock (refuseImg e m))

/-! ### Storing (R479, R486) -/

def getSlot (k : Nat) (m : Mach) : Option DeckSlot := tabGet (fun _ => none) m.nvm.slots k
def getBank (k : Nat) (m : Mach) : FwBank := tabGet (fun _ => {}) m.nvm.banks k
def setNvm (f : Nvm → Nvm) (m : Mach) : Mach := { m with nvm := f m.nvm }
def setBank (k : Nat) (b : FwBank) (m : Mach) : Mach := setNvm (fun n => { n with banks := tabPut (fun _ => {}) n.banks k b }) m

/-- R486: the preferred bank: the VALID one with the higher commit count. -/
def preferredBank (m : Mach) : Option Nat :=
  let ok := fun k => (getBank k m).state == 1
  if ok 0 && (!ok 1 || decide ((getBank 1 m).commits ≤ (getBank 0 m).commits)) then some 0 else if ok 1 then some 1 else none

/-- The registers that show NVM's images follow. -/
def refreshImg (m : Mach) : Mach :=
  let n := ((getSlot m.nvm.cur m).map fun s => s.resh.length).getD 0
  let m1 := fset IMG_STATUS.stored_rs (min 15 n) (fset IMG_STATUS.deck_slot m.nvm.cur m)
  each [0, 1] (fun k s =>
    let b := getBank k s
    wr (IMG_FW_VER k) b.ver (fset (IMG_BANK.state k) b.state (fset (IMG_BANK.commits k) b.commits
      (fsetB (IMG_BANK.preferred k) (preferredBank s == some k) s)))) m1

/-- The stored reshuffles of the current slot. -/
def storedResh (m : Mach) : List (List Byte) := ((getSlot m.nvm.cur m).map fun s => s.resh).getD []

/-- R479: a reshuffle joins the current slot's list. -/
def storeResh (l : List Byte) (m : Mach) : Mach :=
  let d := (getSlot m.nvm.cur m).map fun s => { s with resh := s.resh ++ [l] }
  refreshImg (setNvm (fun n => { n with slots := tabPut (fun _ => none) n.slots n.cur d }) m)

/-! ### A reshuffle at its boundary (R482, R483) -/

/-- A reshuffle is refused at S: nothing applies, the code is recorded, the lock is released. -/
def reshRefused (e : ImgErr) (m : Mach) : Mach :=
  imgResult (lockSrc m) e.code (unlock (setEv IMG_EVENTS.reshuf_refused
    (wr IMG_LOAD_ERR (BitVec.ofNat 32 (e.code + 16 * e.sect + 1024 * e.entry)) (setEvIf e.anchor GCTL_CORE_EVENTS.anchor_range m))))

/-- R482: a reshuffle waits, and the boundary at tick `t` is one it may apply at. -/
def reshDue (t : Nat) (m : Mach) : Bool := match m.img.resh with
  | some r => decide (r.notBefore ≤ t)
  | none => false

/-- At the slot boundary S that is reached, with `stg` for what is staged: a reshuffle that is due has its state and its budgets
checked again; then every section applies together. -/
def reshuffle (stg : Mach → Mach) (m : Mach) : Mach :=
  match m.img.resh with
  | some r =>
    if reshDue m.slotStart m then
      let m1 := fset IMG_STATUS.reshuf_pending 0 (setImg (fun x => { x with resh := none }) m)
      pumpPlanned (match reshState r.bytes m1 with
        | some e => reshRefused e m1
        | none => match reshApply stg r.bytes m1 with
          | .error e => reshRefused e m1
          | .ok m2 => endCommit 0 (if r.store then storeResh r.bytes m2 else m2))
    else m
  | none => m

end Sys2Proof.Machine
end

