-- ==== Sys2Proof/Machine/Boundary.lean ====
section
/-! DEFINITION. Slot and frame boundaries (R22, R72 to R78, R86, R418): what the device applies at each; the start of a class B
change (R402); the alignment of the grid to SYNC (R410). -/

namespace Sys2Proof.Machine

/-! ### Staged values (R21, R22) -/

/-- What is staged for a receive unit. -/
def applyUnit (u : RxUnit) (m : Mach) : Mach :=
  takeStage (QUAD_RX_ATTEN u) (applyRxAtten u) (takeStage (QUAD_RX_CTRL u) (applyRxCtrl u) m)

/-- What is staged for quadrant `q`'s receive units, chains and transmit configurations. -/
def applyQuadUnits (q : Nat) (m : Mach) : Mach :=
  let m1 := each (unitsOf q) applyUnit m
  let m2 := each [2 * q, 2 * q + 1] (fun o s => applyChain (.obs (toObs o)) s) m1
  each (pathsOf q) (fun n s => applyTxCfg false n (applyChain (.duc (toPath n)) (applyChain (.ddc (toPath n)) s))) m2

/-- A staged register whose value applies under rules of its own, elsewhere: the transmit configuration and the swap. -/
def heldStage (a : Nat) : Bool := isPathReg a 0x300 || decide (0x100000 ≤ a ∧ a < 0x500000 ∧ a % 0x100000 = 0x7000)

/-- Every other value that is staged, of the registers for which `sel` holds. -/
def applyRest (sel : Nat → Bool) (m : Mach) : Mach :=
  each (m.stage.filter fun e => sel e.1 && !heldStage e.1) (fun e s => takeStage e.1 (applyRws e.1) s) m

/-- At slot boundary S everything staged applies. -/
def applyStaged (m : Mach) : Mach :=
  let m1 := takeStage GCTL_ANCHOR_DL (applyAnchor .dl) (takeStage GCTL_ANCHOR_UL (applyAnchor .ul) m)
  let m2 := takeStage BMU_CFG applyBmuCfg (each quads4 applyQuadUnits m1)
  applyRest (fun _ => true) m2

/-- R23: a quadrant whose frame timing stops takes what is staged for it. -/
def applyQuadStaged (q : Nat) (m : Mach) : Mach :=
  applySwapReg q ((staged (QUAD_PD_SWAP q) m).getD 0#32)
    (applyRest (fun a => a / 0x100000 == q + 1) (applyQuadUnits q m))

/-! ### The pieces of a slot boundary -/

/-- R114: the peaks of the slot that ends are shown, and the next slot's start at 0. -/
def slotPeak (n : Nat) (m : Mach) : Mach :=
  if quadState (n / 16) m = 0 then m
  else
    let x := getRx n m
    fset (QUAD_RX_PEAK.peak n) x.peak (fsetB (QUAD_RX_PEAK.ovr_slot n) x.ovrSlot (setRx n { x with peak := 0, ovrSlot := false } m))

/-- R461: class 2 of the mirror is in sync from the first slot boundary after its resync began. -/
def schedSynced (m : Mach) : Mach :=
  if role m = 2 ∧ m.twin.resync.contains 2 = true ∧ mirUp m = true then
    setInSync 2 true { m with twin := { m.twin with resync := m.twin.resync.filter (· != 2) } }
  else m

/-- R492: a punty handover that was commanded starts at this slot boundary H with its pause. -/
def pauseStart (m : Mach) : Mach :=
  if m.img.handover then
    fset IMG_STATUS.in_pause 1 { m with img := { m.img with handover := false, pause := true } }
  else m

/-- R463: step 4 of the ladder has been in force for the whole frame that ends. -/
def muteFault (frame : Bool) (m : Mach) : Mach := if frame && m.twin.muteFrame then twinFault 6 m else m
def muteNote (frame : Bool) (m : Mach) : Mach :=
  { m with twin := { m.twin with muteFrame := (frame || m.twin.muteFrame) && !m.lad.muted.isEmpty } }

/-! ### The pieces of a frame boundary -/

/-- R67: one direction's smallest margin of the frame that ends. With no entry in the frame the value shown stays (DESIGN CHOICE,
assumption 90). -/
def showMargin (o : Option Int) (f : Fld) (m : Mach) : Mach :=
  match o with
  | none => m
  | some x =>
    setEvIf (decide (x < (fget GCTL_ANCHOR_CFG.thin_ticks m : Nat))) GCTL_CORE_EVENTS.anchor_thin
      (fset f (toBits 16 (satS 16 x)) m)

def frameMargins (m : Mach) : Mach :=
  let m1 := showMargin m.marginDl GCTL_ANCHOR_MARGIN.downlink (showMargin m.marginUl GCTL_ANCHOR_MARGIN.uplink m)
  { m1 with marginUl := none, marginDl := none }

/-- R49: the pipelines that were late in this frame and in the one before it. -/
def frameLates (m : Mach) : Mach :=
  let l := m.lad
  { m with lad := { l with lateNow := [], latePrev := l.lateNow, lateBoth := l.lateNow.filter fun p => l.latePrev.contains p } }

/-- The converter clocks of the domain with key `d` are gated. -/
def domGated (d : Nat) (m : Mach) : Bool := decide (1 ≤ d ∧ d ≤ 4) && inMask (fget CLK_STATUS.gated_q m) (d - 1)

/-- R44, R145: the anchors are re-established: the domains that were flushed carry their samples again, their chains after a
synchronising reset. -/
def endFlush (m : Mach) : Mach :=
  let back := m.flush.filter fun d => !frozen d m && !domGated d m
  each back (fun d s =>
    if 1 ≤ d ∧ d ≤ 4 then resetChains (d - 1) s
    else if d = 5 then each (List.range 8) (fun o t => syncReset (.obs (toObs o)) (tick t) t) s
    else s) { m with flush := m.flush.filter fun d => !back.contains d }

/-- R86: the quadrants whose traffic starts at this frame boundary. -/
def startQuads (m : Mach) : Mach :=
  each (quads4.filter fun q => (getQ q m).startFrame && !inMask (fget CLK_STATUS.gated_q m) q) startQuad m

/-- R404, R410: bursts and traffic go on from the first frame boundary after the release. -/
def endHold (m : Mach) : Mach :=
  if m.clk.hold then setClk (fun x => { x with hold := match x.classB with
    | some c => c.running
    | none => false }) m else m

/-- R393: pacing returns to the MPLL, or to its coasting output. -/
def repace (m : Mach) : Mach :=
  if fget CLK_STATUS.mpll m = 3 ∨ fget CLK_STATUS.mpll m = 4 then fset CLK_STATUS.hk_paced 0 m else m

/-- What a frame boundary brings before the per-slot changes; without `traffic` the boundary carries none (R410). The overload
windows are aligned to it (R115). -/
def frameStarts (traffic : Bool) (m : Mach) : Mach :=
  let m1 := seedInForce (repace (frameLates (frameMargins m)))
  let m2 := if traffic then startQuads (endFlush (endHold m1)) else m1
  let m3 := each paths64 (fun n s => setRx n { getRx n s with ovlCnt := 0, ovlN := 0 } (applyTxCfg true n s)) (each quads4 applyLead m2)
  { m3 with transDue := transReady m3 }

/-! ### The boundary -/

/-- The position moves to the next slot, at its tick. -/
def moveSlot (m : Mach) : Mach :=
  let t := (nextSlot m).2
  if lastSlot m then
    let p := m.clk.fsPend.filter fun x => decide (nextFrameTick m < x.1)
    { m with frameNo := (m.frameNo + 1) % 2 ^ 24, slot := 0, frameStart := t, slotStart := t, ftab := nextTable m, pos := [],
             clk := { m.clk with fsPend := p } }
  else { m with slot := m.slot + 1, slotStart := t }

/-- The slot that runs ends, at its boundary: the synthesis for the next one is complete, the samples taken so far are
settled, the downlink's last ones formed, the acquisition slot is evaluated, the peaks are shown. -/
def slotEnds (m : Mach) : Mach :=
  let t := (nextSlot m).2
  let m1 := dlFlush (settleAll (advanceTo t (scheduleDeadline m)))
  each paths64 slotPeak (setMesh (fun x => { x with acqIn := [] }) (acqSlotEnd m1))

/-- The uplink streams at a slot boundary: `old` are those of the slot that ended, `anchor` its anchor. A stream no longer due closes
its last entry; one newly due begins at its first position of the slot (R163, R377); the change of the anchor takes effect on both
(R64, R65). -/
def streamsSlot (old : List UlStream) (anchor : Nat) (m : Mach) : Mach :=
  let now := ulStreams m
  let ends := old.filter fun st => !now.contains st
  let news := now.filter fun st => !old.contains st
  let m1 := each ends (fun st s => closeEntry (.ul st) s) m
  let m2 := each news (fun st s => setOut (ulKey st) { getOut (ulKey st) s with start := some (posFirst st s) } s) m1
  anchorUlChange (now ++ ends) anchor (anchorOf false m2) m2

/-- What every slot boundary brings, at the position that starts; `frame` where it is a frame boundary as well; `old` and `anchor`
as in `streamsSlot`. A reshuffle that is due applies with what is staged (R482, R483). -/
def slotStarts (frame traffic : Bool) (old : List UlStream) (anchor : Nat) (m : Mach) : Mach :=
  let m0 := reshuffle applyStaged (applyStaged (holdEvents m))
  let m1 := each quads4 endDrops (muteFault frame (refreshStates (coastLimits (sparesLeft m0))))
  let m2 := refreshReqPending (each quads4 quadSlot m1)
  let m3 := muteNote frame (applyLadder m2)
  let m4 := if frame then frameStarts traffic m3 else m3
  let m5 := streamsSlot old anchor (noteSens (meshSwap (endColPlan true (endColPlan false (refreshExcl m4)))))
  let m6 := each paths64 txSlot (each paths64 applyScale (each quads4 powerSlot (each paths64 substBoundary (each quads4 swapBoundary m5))))
  let m7 := trickBegin (linkShed (trimsBoundary m6))
  monBoundary frame (dlResume (refreshPins (refreshReady (deliverEvents (pauseStart (schedSynced (handoverRelease m7)))))))

/-- The boundary that comes next. -/
def boundary (m : Mach) : Mach :=
  let m1 := slotEnds m
  slotStarts (lastSlot m) true (ulStreams m1) (anchorOf false m1) (moveSlot m1)

/-- SLOT_BOUNDARY: the next boundary is reached; where it ends the frame it is the frame's as well (DESIGN CHOICE, assumption
1: one command stands for one boundary). -/
def slotBoundary (m : Mach) : Mach := if timingOn m then boundary m else m
def execSlotBoundary (s : State) : Host.Outcome State Fault Refusal := answer s (slotBoundary s.m)

/-- FRAME_BOUNDARY: the same, where the boundary that comes next is a frame's. -/
def frameBoundary (m : Mach) : Mach := if timingOn m ∧ lastSlot m = true then boundary m else m
def execFrameBoundary (s : State) : Host.Outcome State Fault Refusal := answer s (frameBoundary s.m)

/-- FRAME_TABLE_SWITCH: the same, where a frame table that waits starts at that frame boundary (R418). -/
def tableDue (m : Mach) : Bool := match m.clk.fsPend with
  | some (t, _) => decide (t ≤ nextFrameTick m)
  | none => false
def frameTableSwitch (m : Mach) : Mach := if timingOn m ∧ lastSlot m = true ∧ tableDue m = true then boundary m else m
def execFrameTableSwitch (s : State) : Host.Outcome State Fault Refusal := answer s (frameTableSwitch s.m)

/-- RESHUFFLE_APPLY: the same, where a reshuffle that waits applies at the boundary that comes next (R482). -/
def reshBoundary (m : Mach) : Mach := if timingOn m ∧ reshDue (nextSlot m).2 m = true then boundary m else m
def execReshuffleApply (s : State) : Host.Outcome State Fault Refusal := answer s (reshBoundary s.m)

/-- MON_COMMON_TRIGGER: the boundary that raises the common trigger, or the periodic instant that comes next (R422). -/
def monCommonTrigger (m : Mach) : Mach :=
  match fget MON_TRIG_CFG.src m with
  | 1 => slotBoundary m
  | 2 => frameBoundary m
  | 3 => monPeriodic m
  | _ => m
def execMonCommonTrigger (s : State) : Host.Outcome State Fault Refusal := answer s (monCommonTrigger s.m)

/-- COAST_LIMIT: the same, where the loop reaches its coast limit by the boundary that comes next (R407). -/
def coastLimit (l : Loop) (m : Mach) : Mach :=
  if timingOn m ∧ limitDue (loopKey l) (nextSlot m).2 m = true then boundary m else m
def execCoastLimit (l : Loop) (s : State) : Host.Outcome State Fault Refusal := answer s (coastLimit l s.m)

/-- QUAD_POWER_DOWN_COMPLETE: the DMA's operations in the quadrant's domain are over; its channels stop (R357) and the quadrant is
POWERED_DOWN. -/
def powerDownComplete (q : Nat) (m : Mach) : Mach :=
  if (getQ q m).phase = .powerDown ∧ dmaQuiet q m = true then
    let m1 := quadOff q (dmaPdAbort q (applyQuadStaged q m))
    if (getQ q m).pend.isSome then refreshReqPending (takeReqSlot q m1) else m1
  else m
def execQuadPowerDownComplete (q : Fin 4) (s : State) : Host.Outcome State Fault Refusal := answer s (powerDownComplete q s.m)

/-! ### The failure of a loop (R445) -/

/-- A QPLL is failed: its quadrant is POWERED_DOWN (R445); on the way to WARM the device goes on without it, with
quad_refused set (R77). -/
def failQpll (q : Nat) (m : Mach) : Mach :=
  let m0 := setEvIf ((getQ q m).idleTarget && m.trans == some .toWarm) GCTL_STATE_EVENTS.quad_refused m
  let m1 := quadOff q (if quadState q m = 0 then m0 else dmaPdAbort q (applyQuadStaged q (stopRunning q m0)))
  raiseReplace HLT_REPLACE.pll (setQ q { getQ q m1 with qpllFailed := true, idleTarget := false } m1)

/-- PLL_FAILURE: three full searches in a row failed. -/
def pllFailure (l : Loop) (m : Mach) : Mach :=
  match l with
  | .mpll => if fget CLK_STATUS.mpll m = 1 ∧ m.clk.mpllFailed = false then failMpll m
             else if fget CLK_STATUS.mpll m = 1 then fset CLK_STATUS.mpll 0 m else m
  | .qpll q => if fget (CLK_STATUS.qpll_q q) m = 1 ∧ mpllLocked m = true then failQpll q m else m
def execPllFailure (l : Loop) (s : State) : Host.Outcome State Fault Refusal := answer s (pllFailure l s.m)

/-! ### The class B change (R402 to R404) -/

/-- CLASS_B_START: at its frame boundary F every quadrant's clocks are gated, the target plan's settings apply, and the loops
lock anew. -/
def classBStart (m : Mach) : Mach :=
  match m.clk.classB with
  | some c =>
    if c.running = false ∧ c.start ≤ m.frameStart then
      let m1 := setClk (fun x => { x with classB := some { c with running := true }, hold := true }) m
      let on := quadsOn m1
      let m2 := each on (fun q s => fset (CLK_STATUS.qpll_q q) 1 (gateQuad q s)) m1
      refreshStates (calPlanChange (planEnter c.plan (startMpll c.useSlot c.slot (fset CLK_STATUS.tod_traceable 0 m2))))
    else m
  | none => m
def execClassBStart (s : State) : Host.Outcome State Fault Refusal := answer s (classBStart s.m)

/-! ### Alignment to SYNC (R410) -/

/-- A time kept in `u` units a tick, shifted with the grid from tick `old` to tick `new`. -/
def shiftSub (u old new t : Nat) : Nat := t + u * new - u * old
/-- A time kept in ticks. -/
def shiftTick (old new t : Nat) : Nat := shiftSub 1 old new t

/-- The samples and positions that wait in an output bridge. -/
def shiftPos (old new : Nat) (p : StreamPos) : StreamPos := { p with at_ := shiftSub 120 old new p.at_ }
def shiftSample (old new : Nat) (o : OutSample) : OutSample :=
  { o with due := shiftSub 120 old new o.due, pos := o.pos.map (shiftPos old new) }
def shiftOut (old new : Nat) (x : OutBr) : OutBr :=
  let ent (e : OutEntry) : OutEntry := { e with arr := shiftSub 2 old new e.arr, ss := e.ss.map (shiftSample old new) }
  { x with
    fifo := x.fifo.map ent, feeder := x.feeder.map ent, due := shiftSub 120 old new x.due,
    missed := x.missed.map fun p => (p.1, shiftTick old new p.2), last := x.last.map (shiftPos old new),
    start := x.start.map (shiftPos old new) }

/-- A front-end sequencer. -/
def shiftFes (old new : Nat) (x : Fes) : Fes :=
  let f := shiftTick old new
  { x with
    acts := x.acts.map fun a => { a with at_ := f a.at_ }, fcb := x.fcb.map fun p => (p.1, f p.2), fcbLast := x.fcbLast.map f,
    timer := x.timer.map f, drop := x.drop.map fun d => (f d.1, f d.2), evDone := f x.evDone, burstDone := f x.burstDone }

/-- Everything that waits for a tick, or remembers one, moves with the grid. -/
def shiftTimes (old new : Nat) (m : Mach) : Mach :=
  let f := shiftTick old new
  let g := shiftSub 120 old new
  let trick (o : Option Trick) := o.map fun t => { t with start := f t.start }
  { m with
    fes := tabMap (fun _ => {}) (shiftFes old new) m.fes,
    outb := tabMap (fun _ => {}) (shiftOut old new) m.outb,
    asmU := tabMap (fun _ => []) (List.map (shiftSample old new)) m.asmU,
    ulTx := tabMap (fun _ => {}) (fun x => { x with q := x.q.map fun p => (p.1, shiftPos old new p.2) }) m.ulTx,
    dlHold := m.dlHold.map fun h => { h with air := g h.air, adm := shiftSub 2 old new h.adm },
    ulDisc := g m.ulDisc, dlGap := g m.dlGap,
    chain := tabMap (fun _ => {}) (fun x => { x with syncTick := f x.syncTick, inAir := g x.inAir }) m.chain,
    tx := tabMap (fun _ => {}) (fun x => { x with rest := x.rest.map (shiftSample old new) }) m.tx,
    pd := tabMap (fun _ => {}) (fun x => { x with
      hist := x.hist.map (fun h => (g h.1, h.2)), outs := x.outs.map (fun h => (g h.1, h.2)),
      told := x.told.map f, mirSwap := x.mirSwap.map f }) m.pd,
    cap := tabMap (fun _ => {}) (fun x => { x with
      trigAt := f x.trigAt, armAt := f x.armAt,
      wait := tabMap (fun _ => []) (List.map fun p => (shiftSub 16 old new p.1, p.2)) x.wait }) m.cap,
    tiles := tabMap (fun _ => {}) (fun x => { x with stallFrom := f x.stallFrom }) m.tiles,
    hlt := { m.hlt with counts := m.hlt.counts.map fun e => (e.1, e.2.map f) },
    img := { m.img with resh := m.img.resh.map fun r => { r with notBefore := f r.notBefore } },
    clk := { m.clk with fsPend := m.clk.fsPend.map fun p => (f p.1, p.2), ppsLast := m.clk.ppsLast.map f,
                        ppsHigh := m.clk.ppsHigh.map f, classB := m.clk.classB.map fun c => { c with start := f c.start },
                        coastFrom := tabMap (fun _ => 0) f m.clk.coastFrom },
    acq := { m.acq with job := m.acq.job.map fun j => { j with due := j.due.map f } },
    monTick := m.monTick.map f,
    pdCap := m.pdCap.map fun e => (e.1, e.2.map fun c => { c with tick := f c.tick }),
    cal := { m.cal with trick := trick m.cal.trick, est := trick m.cal.est, lastDone := f m.cal.lastDone, gapDone := f m.cal.gapDone,
                        storeLast := m.cal.storeLast.map f },
    mesh := { m.mesh with
      joinAt := tabMap (fun _ => none) (Option.map f) m.mesh.joinAt,
      dlq := tabMap (fun _ => []) (List.map fun p => (g p.1, p.2)) m.mesh.dlq } }

/-- The boundary at tick `old` of the running grid, or where it would be, becomes a frame boundary with tick count `tod` and
frame number `fn`. It carries no traffic; with a quadrant IDLE or above, outputs and bursts wait for the next frame
boundary. -/
def alignGrid (old tod fn : Nat) (m : Mach) : Mach :=
  let busy := quads4.filter fun q => quadState q m != 0
  let m0 := slotEnds m
  let m1 := setMesh (fun x => { x with shUl := [], shDl := [], shAcq := [], synDone := none }) (shiftTimes old tod m0)
  let p := m1.clk.fsPend.filter fun x => decide (tod < x.1)
  let m2 := { m1 with tod := 2 * tod, frameNo := fn, slot := 0, frameStart := tod, slotStart := tod, ftab := nextTable m1,
                      pos := [], clk := { m1.clk with fsPend := p } }
  let m3 := each busy (fun q s => addFlush (1 + q) s) (setClk (fun x => { x with hold := x.hold || !busy.isEmpty }) m2)
  slotStarts true false (ulStreams m0) (anchorOf false m0) m3

/-- The frame grid has a boundary at tick `tb` with tick count and frame number as CLK_SYNC_TOD and CLK_SYNC_FN give them. -/
def inPlace (tb tod fn : Nat) (m : Mach) : Bool :=
  tb == tod && ((tb == m.frameStart && fn == m.frameNo) ||
    (tb == nextFrameTick m && fn == (m.frameNo + 1) % 2 ^ 24))

/-- SYNC_ALIGN: the rising edge in one-shot mode. `adc` is the ADC clock that first sampled SYNC high, counted from tick
count 0. -/
def syncAlign (adc : Nat) (phase : BitVec 6) (m : Mach) : Mach :=
  if fget CLK_SYNC_CFG.sync_mode m = 1 ∧ timingOn m then
    let p := adc + fget CLK_SYNC_CFG.sync_dly m
    let per := max 1 (adcPerTick m)
    let tod := (rd CLK_SYNC_TOD_LO m).toNat + 2 ^ 32 * (rd CLK_SYNC_TOD_HI m).toNat
    let fn := fget CLK_SYNC_FN.fn m
    let m1 := fset CLK_SYNC_CFG.sync_mode 0 (syncSeen phase m)
    let m2 := if p % per = 0 ∧ inPlace (p / per) tod fn m = true then m1
      else mirror 0 (.syncAlign (BitVec.ofNat 64 tod) (BitVec.ofNat 24 fn)) (alignGrid (p / per) tod fn m1)
    setEv CLK_EVENTS.sync_done (setClk (fun x => { x with aligned := true }) m2)
  else m
def execSyncAlign (adc : Nat) (phase : BitVec 6) (s : State) : Host.Outcome State Fault Refusal :=
  answer s (syncAlign adc phase s.m)

end Sys2Proof.Machine
end

