-- ==== Sys2Proof/Machine/Image.lean ====
section
/-! DEFINITION. Transfer sessions and the update lock, the commands of IMG_CMD, the firmware banks,
the punty handover and migration (spec/16, R477 to R494). -/

namespace Sys2Proof.Machine

/-! ### Sessions (R480, R481) -/

/-- OPEN: the lock is taken for an image of type `t`; BUSY while it is held; STATE in RECOVERY for anything but firmware
(R494); VERSION for a type that does not exist (DESIGN CHOICE, assumption 53). -/
def openSess (x : Nat × Nat) (t : Nat) (m : Mach) : Mach :=
  if fget IMG_STATUS.lock_src m ≠ 0 then imgResult x 12 (setEv IMG_EVENTS.busy_refused m)
  else if 2 < t then imgResult x 2 (setEv IMG_EVENTS.load_refused m)
  else if devState m = 2 ∧ t ≠ 2 then imgResult x 10 (setEv IMG_EVENTS.load_refused m)
  else
    let m1 := fset IMG_STATUS.lock_src x.1 (fset IMG_STATUS.lock_sess x.2 (fset IMG_STATUS.target t m))
    imgResult x 0 (wr IMG_SPI_OFF 0#32 (setImg (fun y => { y with sess := some ⟨t, []⟩ }) m1))

/-- The holder's bytes join those received. -/
def addBytes (b : List Byte) (m : Mach) : Mach :=
  setImg (fun x => { x with sess := x.sess.map fun s => { s with bytes := s.bytes ++ b } }) m

/-- DATA of a source that places its bytes: discarded unless it holds the lock; HDR_CRC unless they follow the last byte. -/
def placeBytes (x : Nat × Nat) (off : Nat) (b : List Byte) (m : Mach) : Mach :=
  if holds x m then
    match m.img.sess with
    | some s => if off = s.bytes.length then addBytes b m else imgResult x 3 m
    | none => m
  else m

/-- ABORT: the holder's session ends. Without one the answer is STATE (DESIGN CHOICE, assumption 53). -/
def abortSess (x : Nat × Nat) (m : Mach) : Mach :=
  if holds x m then imgResult x 0 (unlock m) else imgResult x 10 (setEvIf (x.1 == 1) IMG_EVENTS.load_refused m)

/-! ### Storing (R479, R486) -/

/-- R479: the deck is written to the other slot, which becomes the current one. -/
def storeDeck (l : List Byte) (m : Mach) : Mach :=
  let k := 1 - m.nvm.cur
  refreshImg (setNvm (fun n => { n with slots := tabPut (fun _ => none) n.slots k (some ⟨l, []⟩), cur := k }) m)

/-! ### COMMIT (R477 to R482, R486) -/

/-- Code 13: the image outgrows the slot it is staged in: 16 MiB for firmware, else 32 MiB. -/
def spaceErr (t : Nat) (l : List Byte) : Option ImgErr :=
  errIf (decide ((if t = 2 then 16777216 else 33554432) < l.length)) ⟨13, 0, 0, false⟩

/-- A deck: STANDBY with every quadrant POWERED_DOWN. -/
def commitDeck (l : List Byte) (store : Bool) (m : Mach) : Mach :=
  match loadDeck l m with
  | .error e => refuseCommit e m
  | .ok m1 =>
    if devState m ≠ 3 ∨ quads4.any (fun q => quadState q m != 0) = true then refuseCommit ⟨10, 0, 0, false⟩ m
    else if store && nandOut m then refuseCommit ⟨13, 0, 0, false⟩ m
    else endCommit 0 (if store then storeDeck l m1 else m1)

/-- A reshuffle: it waits for its slot boundary with the lock held (R482). -/
def commitResh (l : List Byte) (store : Bool) (m : Mach) : Mach :=
  match reshErr applyStaged l m with
  | some e => refuseCommit e m
  | none =>
    if store && (decide (16 ≤ (storedResh m).length) || (getSlot m.nvm.cur m).isNone || nandOut m) then
      refuseCommit ⟨13, 0, 0, false⟩ m
    else fset IMG_STATUS.reshuf_pending 1 (setImg (fun x => { x with sess := none, resh := some ⟨l, store, tick m + 4096⟩ }) m)

/-- The bank that a committed firmware image is written to: the one that does not run; from RECOVERY a FAILED or EMPTY one,
else bank 0 (R494). -/
def fwTarget (m : Mach) : Nat :=
  if devState m = 2 then
    (if (getBank 0 m).state = 0 ∨ (getBank 0 m).state = 3 then 0
     else if (getBank 1 m).state = 0 ∨ (getBank 1 m).state = 3 then 1 else 0)
  else 1 - fget IMG_STATUS.running_bank m

/-- R486: the FW partition that the current deck provides; none without a deck. -/
def fwPart (m : Mach) : Option Nat := if deckLoaded m then some (partRec (deckSect 13 m) 6).2.1 else none

/-- Firmware: written to its bank until FW_BANK_WRITTEN. -/
def commitFw (l : List Byte) (m : Mach) : Mach :=
  let big := match fwPart m with
    | some n => decide (n < fwMin l)
    | none => false
  if big || nandOut m then refuseCommit ⟨13, 0, 0, false⟩ m
  else setImg (fun x => { x with sess := none, fwWrite := some (fwTarget m, l) }) m

/-- COMMIT of the holder: the checks of R477 in their order. -/
def commitSess (x : Nat × Nat) (store : Bool) (m : Mach) : Mach :=
  if holds x m then
    match m.img.sess with
    | some s =>
      match staticErr s.target s.bytes m <|> spaceErr s.target s.bytes with
      | some e => refuseCommit e m
      | none =>
        if s.target = 0 then commitDeck s.bytes store m
        else if s.target = 1 then commitResh s.bytes store m
        else commitFw s.bytes m
    | none => m
  else imgResult x 10 (setEvIf (x.1 == 1) IMG_EVENTS.load_refused m)

/-! ### The SPI session -/

def execImgOpen (target : BitVec 2) (s : State) : Host.Outcome State Fault Refusal :=
  answer s (gate IMG_CMD (openSess srcSpi target.toNat) s.m)

/-- IMG_SPI_DATA: four bytes, in byte order from bit 0 upward. -/
def spiData (v : W) (m : Mach) : Mach :=
  if holds srcSpi m then
    let m1 := addBytes (leBytes 4 v.toNat) m
    wr IMG_SPI_OFF (rd IMG_SPI_OFF m1 + 4#32) m1
  else m
def execImgSpiData (v : W) (s : State) : Host.Outcome State Fault Refusal := answer s (gate IMG_SPI_DATA (spiData v) s.m)

def execImgCommit (store : Bool) (s : State) : Host.Outcome State Fault Refusal :=
  answer s (gate IMG_CMD (commitSess srcSpi store) s.m)
def execImgAbort (s : State) : Host.Outcome State Fault Refusal := answer s (gate IMG_CMD (abortSess srcSpi) s.m)

/-! ### In-band sessions -/

/-- An IMG_XFER message reaches the loader where the core runs, in RECOVERY too (R388, R494). -/
def execImgXferOpen (sess : Fin 4) (target : BitVec 8) (s : State) : Host.Outcome State Fault Refusal :=
  answer s (gate IMG_CMD (nativeIn sess (.imgXferOpen sess target) (openSess (srcBand sess) target.toNat)) s.m)

/-- DATA carries up to mtu - 64 bytes. -/
def bandData (sess off : Nat) (b : List Byte) (m : Mach) : Mach :=
  if mtu m - 64 < b.length then (if holds (srcBand sess) m then imgResult (srcBand sess) 3 m else m)
  else placeBytes (srcBand sess) off b m
def execImgXferData (sess : Fin 4) (off : W) (data : List Byte) (s : State) : Host.Outcome State Fault Refusal :=
  answer s (gate IMG_CMD (nativeIn sess (.imgXferData sess off data) (bandData sess off.toNat data)) s.m)
def execImgXferCommit (sess : Fin 4) (store : Bool) (s : State) : Host.Outcome State Fault Refusal :=
  answer s (gate IMG_CMD (nativeIn sess (.imgXferCommit sess store) (commitSess (srcBand sess) store)) s.m)
def execImgXferAbort (sess : Fin 4) (s : State) : Host.Outcome State Fault Refusal :=
  answer s (gate IMG_CMD (nativeIn sess (.imgXferAbort sess) (abortSess (srcBand sess))) s.m)

/-- IMG_LOCK_TIMEOUT: lock_to seconds without DATA while the session takes bytes. -/
def lockTimeout (m : Mach) : Mach :=
  if fget IMG_STATUS.lock_src m ≠ 0 ∧ m.img.sess.isSome = true then setEv IMG_EVENTS.lock_timeout (unlock m) else m
def execImgLockTimeout (s : State) : Host.Outcome State Fault Refusal := answer s (lockTimeout s.m)

/-! ### The twin's session (R480) -/

/-- `l` in pieces of at most 4096 bytes with their offsets. -/
def pieces : Nat → Nat → List Byte → List (Nat × List Byte)
  | 0, _, _ => []
  | n + 1, off, l => if l.isEmpty then [] else (off, l.take 4096) :: pieces n (off + 4096) (l.drop 4096)

/-- One image goes to the STANDBY as a session of its own, to be stored there. -/
def pushImage (t : Nat) (l : List Byte) (m : Mach) : Mach :=
  let m1 := send (.twinXfer (.open_ (BitVec.ofNat 2 t))) m
  let m2 := each (pieces (l.length / 4096 + 1) 0 l) (fun p s => send (.twinXfer (.data (BitVec.ofNat 32 p.1) p.2)) s) m1
  send (.twinXfer (.commit true)) m2

/-- PUSH_TWIN on a PRIMARY: its current deck with its stored reshuffles, or its running firmware. Elsewhere, for another type
or with nothing to send it is refused. -/
def pushTwin (t : Nat) (m : Mach) : Mach :=
  if role m = 1 ∧ timingOn m ∧ laneMask m ≠ 0 then
    match t, getSlot m.nvm.cur m with
    | 0, some d => each d.resh (pushImage 1) (pushImage 0 d.bytes m)
    | 2, _ => pushImage 2 (runningFw m) m
    | _, _ => setEv IMG_EVENTS.load_refused m
  else setEv IMG_EVENTS.load_refused m
def execPushTwin (target : BitVec 2) (s : State) : Host.Outcome State Fault Refusal :=
  answer s (gate IMG_CMD (pushTwin target.toNat) s.m)

/-- TWIN_SOURCE_TRANSFER: a STANDBY's loader takes a message of its twin's session. -/
def twinXfer (x : TwinXfer) (m : Mach) : Mach :=
  if role m = 2 ∧ timingOn m ∧ laneMask m ≠ 0 then
    match x with
    | .open_ t => openSess srcTwin t.toNat m
    | .data off b => placeBytes srcTwin off.toNat b m
    | .commit store => commitSess srcTwin store m
    | .abort => abortSess srcTwin m
  else m
def execTwinSourceTransfer (x : TwinXfer) (s : State) : Host.Outcome State Fault Refusal := answer s (twinXfer x s.m)

/-! ### Firmware (R486, R488, R493) -/

/-- FW_BANK_WRITTEN: the image stands in its bank, which becomes TRIAL; from RECOVERY the device boots into it (R494). -/
def fwWritten (m : Mach) : Mach :=
  match m.img.fwWrite with
  | some (k, l) =>
    let m1 := refreshImg (setBank k ⟨l, BitVec.ofNat 32 (leAt l 32 4), 2, 0⟩ (setImg (fun x => { x with fwWrite := none }) m))
    let m2 := endCommit 0 m1
    if devState m = 2 then setImg (fun x => { x with trialDue := true }) (softReset 7 m2) else m2
  | none => m
def execFwBankWritten (s : State) : Host.Outcome State Fault Refusal := answer s (fwWritten s.m)

/-- The bank that is TRIAL. -/
def trialBank (m : Mach) : Option Nat := [0, 1].find? fun k => (getBank k m).state == 2

/-- R493: HANDOVER is not refused. -/
def handoverOk (m : Mach) : Bool :=
  (trialBank m).isSome && timingOn m && !fon CLK_STATUS.classb m && m.twin.takeover.isNone && m.img.resh.isNone &&
    !m.img.handover && !m.img.pause && !fon IMG_STATUS.migrating m

/-- PUNTY_HANDOVER: it starts at the next slot boundary H. -/
def puntyHandover (m : Mach) : Mach :=
  if handoverOk m then setImg (fun x => { x with handover := true }) m else refuseImg ⟨10, 0, 0, false⟩ m
def execPuntyHandover (s : State) : Host.Outcome State Fault Refusal := answer s (gate IMG_CMD puntyHandover s.m)

/-- TRIAL_RESET: a SOFT_RESET after which the trial bank starts; without a TRIAL bank it is refused with STATE. -/
def trialReset (m : Mach) : Mach :=
  if (trialBank m).isSome then setImg (fun x => { x with trialDue := true }) (softReset 7 m) else refuseImg ⟨10, 0, 0, false⟩ m
def execTrialReset (s : State) : Host.Outcome State Fault Refusal := answer s (gate IMG_CMD trialReset s.m)

/-- A write of IMG_CMD: the key 0x3E58 and the command. -/
def imgCmd (v : W) (m : Mach) : Mach :=
  if wfld v 16 16 ≠ 0x3E58 then setEv IMG_EVENTS.load_refused m
  else match wfld v 0 4 with
    | 0 => m
    | 1 => openSess srcSpi (wfld v 4 2) m
    | 2 => commitSess srcSpi (v.getLsbD 6) m
    | 3 => abortSess srcSpi m
    | 4 => puntyHandover m
    | 5 => trialReset m
    | 6 => pushTwin (wfld v 4 2) m
    | _ => setEv IMG_EVENTS.load_refused m
def execImgCmdInvalid (v : W) (s : State) : Host.Outcome State Fault Refusal := answer s (gate IMG_CMD (imgCmd v) s.m)

/-! ### The start of an image, migration (R489 to R491) -/

/-- The formats that image `l` reads (`w` false) and writes (`w` true), by record; 1 where its requirements name none
(assumption 45). -/
def fwFormats (w : Bool) (l : List Byte) : List Nat :=
  (List.range 4).map fun i => max 1 (byteAt (sectFor l 0x21 0) (4 + 2 * i + if w then 1 else 0))

/-- The records that are older than what the running firmware writes. -/
def oldRecs (m : Mach) : List Nat := (List.range 4).filter fun i => decide (recFmt i m ≠ 0 ∧ recFmt i m < fmtWrite i m)

/-- Bank `k`'s image runs: its formats are in force; a newer record sets rec_newer; the first start of an image migrates the
older ones. -/
def fwStart (k : Nat) (m : Mach) : Mach :=
  let b := getBank k m
  let m1 := fset IMG_STATUS.running_bank k (setImg (fun x => { x with fmtR := fwFormats false b.bytes, fmtW := fwFormats true b.bytes }) m)
  let m2 := setEvIf ((List.range 4).any fun i => !recOk i m1) IMG_EVENTS.rec_newer m1
  let old := oldRecs m2
  if b.ver = m2.nvm.lastFw then m2
  else if old.isEmpty then setNvm (fun n => if recOk 0 m2 then { n with lastFw := b.ver } else n) m2
  else fset IMG_MIG_STATUS.progress 0 (fset IMG_MIG_STATUS.rec ((old.map fun i => 2 ^ i).sum) (fset IMG_STATUS.migrating 1 m2))

/-- Record `i` stands in the new format. -/
def migrateRec (i : Nat) (m : Mach) : Mach :=
  let f := fmtWrite i m
  setNvm (fun n => match i with
    | 0 => { n with settingsFmt := f }
    | 1 => { n with cal := n.cal.map fun c => { c with fmt := f } }
    | 2 => { n with snapFmt := f }
    | _ => { n with searchFmt := f }) m

/-- MIGRATION_DONE: the old records are let go; the history of the last 8 migrations takes the versions; what waited for the
end goes on. -/
def migrationDone (m : Mach) : Mach :=
  if fon IMG_STATUS.migrating m then
    let ver := (getBank (fget IMG_STATUS.running_bank m) m).ver
    let m1 := setNvm (fun n => { n with lastFw := ver, history := ((n.lastFw, ver) :: n.history).take 8 }) (each (oldRecs m) migrateRec m)
    let m2 := setEv IMG_EVENTS.mig_done (fset IMG_MIG_STATUS.progress 100 (fset IMG_MIG_STATUS.rec 0 (fset IMG_STATUS.migrating 0 m1)))
    let m3 := setImg (fun x => { x with storeQ := [], calWait := false }) m2
    let m4 := if m.img.storeQ.isEmpty then m3 else storeRegs m.img.storeQ m3
    let m5 := if m.img.calWait then storeCal m4 else m4
    snapGo m5
  else m
def execMigrationDone (s : State) : Host.Outcome State Fault Refusal := answer s (migrationDone s.m)

end Sys2Proof.Machine
end

