-- ==== Sys2Proof/Machine/Boot.lean ====
section
/-! DEFINITION. The boot sequence (spec/02, R79 to R82; R78, R441, R450, R487): core reset release, the firmware's start, the
entry to STANDBY. -/

namespace Sys2Proof.Machine

/-! ### What the firmware loads from NVM -/

/-- R489: the registers that the settings record holds; a record in a newer format leaves them at reset (R491). -/
def loadSettings (m : Mach) : Mach :=
  if recOk 0 m then
    each m.nvm.settings (fun e s => match e.2 with
      | some v => wr e.1 v s
      | none => s) m
  else m

/-- The unit with key `k`. -/
def unitOfKey (k : Nat) : RxUnit := if k < 64 then .path (toPath k) else .obs (toObs (k - 64))

/-- R442: the tile that serves logical tile `l` by design: tile l mod 32 of its quadrant. -/
def homeTile (l : Nat) : Nat := 36 * (l / 32) + l % 32

/-- Logical tile `l` is served as the remap table says: by a spare, by its own tile, or by none. -/
def placeTile (l : Nat) (m : Mach) : Mach :=
  let r := m.nvm.remap
  let put (t : Nat) := setTile t { getTile t m with serving := true, logical := l } m
  match tabGet (fun _ => none) r.tiles l with
  | some t => if r.retired.contains (2, t) then m else put t
  | none => if r.retired.contains (2, homeTile l) then m else put (homeTile l)

/-- R441: the effective remap table is applied before any resource starts. -/
def applyRemap (m : Mach) : Mach :=
  let r := m.nvm.remap
  let m1 := each r.slices (fun e s => each e.2.zipIdx (fun x t => fset (slicePos (unitOfKey e.1) x.2) x.1 t) s) m
  let m2 := each (List.range 128) placeTile m1
  let m3 := each r.engines (fun e s =>
    if e.2 then fset (QUAD_PD_STATUS.phys e.1) (17 * (e.1 / 16) + 16) (fset (QUAD_PD_Q_STATUS.serves (e.1 / 16)) (e.1 % 16) s) else s)
    (each paths64 (fun n s => fset (QUAD_PD_STATUS.phys n) (homeEngine n) s) m2)
  let m4 := each r.enginesDead (fun n s => setPd n { getPd n s with lost := true }
    (if r.txFailed.contains n then s else fset (QUAD_PD_STATUS.bypassed n) 1 s)) m3
  let col (dl : Bool) (o : Option Nat) (s : Mach) : Mach := match o with
    | some c => fset (colField dl) c s
    | none => s
  let m5 := col true r.colDl (col false r.colUl m4)
  let m6 := setMesh (fun x => { x with colDownUl := r.colsDead.filter (· < 32),
                                       colDownDl := (r.colsDead.filter (32 ≤ ·)).map (· - 32) }) m5
  each (List.range 12) refreshKind (refreshRes (refreshBroken (refreshMirLane (refreshSerdes m6))))

/-- R121, R295: the factors of the calibration store are in their registers. -/
def loadFactors (m : Mach) : Mach :=
  match m.nvm.cal with
  | some c => if recOk 1 m then each (c.regs.filter fun e => decide (e.1 < 0x500000)) (fun e s => wr e.1 e.2 s) m else m
  | none => m

/-- R396: the search slots. -/
def loadSearch (m : Mach) : Mach :=
  if recOk 3 m then
    each m.nvm.search (fun e s => wr (CLK_SEARCH_SLOT e.1) e.2 s) { m with clk := { m.clk with qbands := m.nvm.searchQ } }
  else m

/-- R450: every cause of a request is evaluated again from the remap table; while one remains REPLACE_N is asserted. -/
def bootCauses (m : Mach) : Mach :=
  let c := tableCauses m
  let m1 := wr HLT_REPLACE (BitVec.ofNat 32 c) m
  if c = 0 then fset GCTL_DEV_STATE.replace 0 { m1 with replaceN := false }
  else
    let m2 := fset GCTL_DEV_STATE.replace 1 (fset HLT_STATUS.replace 1 { m1 with replaceN := true })
    wantEvent (logCode 0x0200 1 0xFF 0xFFFF 0xFFFF (leBytes 4 c) (setEv HLT_EVENTS.replace_raised m2))

/-! ### Core reset release (R487, R494, R513) -/

/-- RECOVERY: the ROM runs alone; it trains the ports. -/
def enterRecovery (cause : Nat) (m : Mach) : Mach := trainPorts (setDev 2 cause m)

/-- The banks in the order in which the ROM tries them (R487). -/
def bankOrder (m : Mach) : List Nat :=
  let t := if m.img.trialDue then (trialBank m).toList else []
  let p := (preferredBank m).toList
  (t ++ p ++ [0, 1].filter fun k => (getBank k m).state == 1).eraseDups

/-- R273: the firmware's check of the production table: one that failed stays failed. -/
def checkProduction (ok : Bool) (m : Mach) : Mach :=
  if ok && !m.nvm.remap.prodBad then m
  else setEv CAL_EVENTS.prod_err (setRemap (fun r => { r with prodBad := true }) m)

/-- R217: a snapshot that was interrupted sets snap_fail. -/
def checkSnap (m : Mach) : Mach :=
  if m.nvm.snapCut then setEv DIR_EVENTS.snap_fail { m with nvm := { m.nvm with snapCut := false } } else m

/-- The firmware of bank `k` starts. -/
def firmwareRuns (k : Nat) (prodOk : Bool) (m : Mach) : Mach :=
  let m1 := checkProduction prodOk (loadSettings (fwStart k m))
  let m2 := fset HLT_TWIN_STATUS.role_act (fget HLT_TWIN_CFG.role m1) m1
  let m3 := refreshImg (refreshSnap <| checkSnap (loadSearch (loadFactors (applyRemap m2))))
  let m4 := bootCauses (trainPorts (each quads4 (fun q s => fset (MON_STATUS.cal_busy q) 1 s) m3))
  if fon CLK_STATUS.ref_present m4 then startPlanLock m4 else m4

/-- Bank `k` passes its boot checks: the ROM's read of it passes, and the image that a transfer placed there its container
checks. -/
def bankPasses (k : Nat) (ok : Bool) (m : Mach) : Bool :=
  let b := (getBank k m).bytes
  ok && (b.isEmpty || (containerErr 2 b m).isNone)

/-- The ROM tries the banks; one that fails is FAILED. -/
def tryBanks (ok : Nat → Bool) (prodOk : Bool) : List Nat → Bool → Mach → Mach
  | [], _, m => enterRecovery 4 (refreshImg m)
  | k :: l, first, m =>
    if bankPasses k (ok k) m then
      let trial := (getBank k m).state == 2
      let m1 := fset GCTL_DEV_STATE.boot_bank k (fsetB GCTL_DEV_STATE.fallback (!first) m)
      let m2 := if first then m1 else
        logCode 0x0500 1 0xFF 0xFFFF 0xFFFF [BitVec.ofNat 8 k] (setEv GCTL_STATE_EVENTS.bank_fallback m1)
      firmwareRuns k prodOk (setImg (fun x => { x with trialRun := trial, trialDue := false }) m2)
    else tryBanks ok prodOk l false (setBank k { getBank k m with state := 3 } m)

/-- CORE_RESET_RELEASE: the ROM samples RECOVERY_N and starts a bank, or RECOVERY. -/
def coreRelease (recoveryLow : Bool) (banksOk : BitVec 2) (prodOk : Bool) (m : Mach) : Mach :=
  if m.power = .vddGood ∧ devState m = 1 then
    let m1 := { m with power := .coreRun }
    if recoveryLow then enterRecovery 3 (refreshImg m1)
    else tryBanks (fun k => banksOk.getLsbD k) prodOk (bankOrder m1) true m1
  else m
def execCoreResetRelease (recoveryLow : Bool) (banksOk : BitVec 2) (prodOk : Bool) (s : State) : Host.Outcome State Fault Refusal :=
  answer s (coreRelease recoveryLow banksOk prodOk s.m)

/-! ### The end of BOOT (R78, R81) -/

/-- R479: one stored reshuffle applies at once, or is refused. -/
def bootResh (l : List Byte) (m : Mach) : Mach :=
  match staticErr 1 l m <|> reshErr id l m with
  | some e => refuseImg e m
  | none => match reshApply id l m with
    | .error e => refuseImg e m
    | .ok m1 => m1

/-- R478, R479: the current deck loads, then its stored reshuffles in order. -/
def autoload (m : Mach) : Mach :=
  match getSlot m.nvm.cur m with
  | none => m
  | some d => match staticErr 0 d.bytes m with
    | some e => refuseImg e m
    | none => match loadDeck d.bytes m with
      | .error e => refuseImg e m
      | .ok m1 => each d.resh bootResh m1

/-- R77: auto_warm: the boot quadrants are the targets. Ignored without a deck. -/
def autoStart (m : Mach) : Mach :=
  if fon GCTL_BOOT_CFG.auto_warm m ∧ deckLoaded m then
    let b := fget GCTL_BOOT_CFG.boot_quads m
    startWarm (each quads4 (fun q s => setQ q { getQ q s with idleTarget := b.testBit q } s)
      { m with autoWarm := true, autoActive := fon GCTL_BOOT_CFG.auto_active m })
  else m

/-- R81, R396: a lock that has not started yet starts; ref_absent says whether there is no reference. -/
def bootLock (m : Mach) : Mach :=
  let m1 := fsetB GCTL_DEV_STATE.ref_absent (!fon CLK_STATUS.ref_present m) m
  if fget CLK_STATUS.mpll m ≠ 0 ∨ m.clk.mpllFailed = true then m1
  else if fon CLK_STATUS.ref_present m then startPlanLock m1
  else m1

/-- R78: STANDBY: the frame timing starts an unaligned grid at tick 0. -/
def enterStandby (m : Mach) : Mach :=
  let m1 := trigArm (setDev 3 2 { m with tod := 0, frameNo := 0, slot := 0, frameStart := 0, slotStart := 0 })
  if fget CLK_STATUS.mpll m1 = 3 ∨ fget CLK_STATUS.mpll m1 = 4 then m1 else paceHk m1

/-- BOOT_COMPLETE: nothing of BOOT is left to do: no migration, no self-test of a trial start. -/
def bootComplete (m : Mach) : Mach :=
  if m.power = .coreRun ∧ devState m = 1 ∧ fon IMG_STATUS.migrating m = false ∧ m.img.trialRun = false then
    let m1 := bootLock m
    let m2 := loadCal (if fon GCTL_BOOT_CFG.autoload m1 then autoload m1 else m1)
    let m3 := enterStandby (fsetB GCTL_DEV_STATE.deck_loaded (deckLoaded m2) m2)
    let m4 := if fon DIR_SNAP_CFG.restore_on_boot m3 then dirRestore m3 else m3
    refreshPins (autoStart m4)
  else m
def execBootComplete (s : State) : Host.Outcome State Fault Refusal := answer s (bootComplete s.m)

end Sys2Proof.Machine
end

