-- ==== Sys2Proof/Machine/Flags.lean ====
section
/-! DEFINITION. Values that are computed when they are read: the summary and IRQ_N (R505, R506), the path and tile summaries,
the effective modes (spec/02), the persistent log's window (R452), the kitty's window (spec/15). -/

namespace Sys2Proof.Machine

/-! ### The summary (R505, R506) -/

/-- The number with bit `i` set where `f i` holds, for `i` below `n`. -/
def bitsWord (n : Nat) (f : Nat → Bool) : W := BitVec.ofNat 32 (((List.range n).map fun i => if f i then 2 ^ i else 0).sum)

/-- GCTL_SUMMARY. -/
def summary (m : Mach) : W := bitsWord 19 (summaryBit m)

/-- IRQ_N is driven low: an enabled summary bit is 1; while the core is in reset only the shutdown bit counts. -/
def irqLow (m : Mach) : Bool :=
  summaryBit m 18 || (m.power == .coreRun && (summary m &&& rd GCTL_IRQ_EN m) != 0#32)

/-- GCTL_PATH_SUM_q. -/
def pathSum (q : Nat) (m : Mach) : W :=
  let any (l : List Nat) := l.any fun a => rd a m != 0#32
  bitsWord 19 fun i =>
    if i < 16 then
      let n := 16 * q + i
      any [QUAD_RX_EVENTS (.path (toPath n)), QUAD_DDC_EVENTS (.ddc (toPath n)), QUAD_DDC_EVENTS (.duc (toPath n)), QUAD_TX_EVENTS n,
        QUAD_PD_EVENTS n]
    else if i < 18 then
      let o := toObs (2 * q + i - 16)
      any [QUAD_RX_EVENTS (.obs o), QUAD_DDC_EVENTS (.obs o)]
    else any [QUAD_RX_CAL_EVENTS q, QUAD_FES_EVENTS q, QUAD_PD_Q_EVENTS q]

/-- GCTL_TILE_SUM_i. -/
def tileSum (i : Nat) (m : Mach) : W := bitsWord 32 fun k => decide (32 * i + k < 144) && (getTile (32 * i + k) m).events != 0#32

/-! ### The modes in force -/

/-- The capture axis: CONTINUOUS, else SNAPSHOT, where some set is in that mode. -/
def captureMode (m : Mach) : Nat :=
  if (List.range 8).any (fun s => fget (RES_CAP_CTRL.mode s) m == 2) then 2
  else if (List.range 8).any (fun s => fget (RES_CAP_CTRL.mode s) m == 1) then 1 else 0

/-- The calibration axis. -/
def calMode (m : Mach) : Nat :=
  if quads4.any fun q => quadState q m == 3 then 2 else if fget CAL_CTRL.cal_mode m = 1 then 1 else 0

/-- GCTL_MODE_STATUS. -/
def modeStatus (m : Mach) : W :=
  BitVec.ofNat 32 ((if m.ftab.fdd then 1 else 0) + 2 * fget CLK_STATUS.plan m + 4 * fget BMU_CFG.mode_ul m +
    16 * fget BMU_CFG.mode_dl m + 64 * calMode m + 256 * role m + 1024 * captureMode m +
    4096 * (bitsWord 4 fun q => fget (GCTL_LOOPBACK.lb_q q) m != 0).toNat +
    65536 * (if fget MON_THERM_STATUS.lehr_att m = 0 then 0 else 1) + 131072 * fget HLT_TWIN_STATUS.token m)

/-! ### The logs and the kitty -/

/-- HLT_PLOG_CNT. -/
def plogCnt (m : Mach) : W := BitVec.ofNat 32 (m.nvm.plog.length + 65536 * m.nvm.plogOver)

/-- HLT_PLOG_DATA_w: word `w` of the selected entry; 0 where there is none. -/
def plogWord (w : Nat) (m : Mach) : W :=
  match m.nvm.plog[fget HLT_PLOG_SEL.entry m]? with
  | some e => BitVec.ofNat 32 (leAt (logBytes e) (4 * w) 4)
  | none => 0#32

/-- HLT_REMAP_DATA: the selected pool; 0 where it does not exist. -/
def remapData (m : Mach) : W :=
  let k := fget HLT_REMAP_SEL.kind m
  let p := fget HLT_REMAP_SEL.pool m
  if k < 12 ∧ p < poolCount k then
    BitVec.ofNat 32 (poolLeft k p m + 2048 * poolUsed k p m + 4194304 * min 1023 (poolBad k p m))
  else 0#32

end Sys2Proof.Machine
end

