-- ==== Sys2Proof/Machine/MapOps.lean ====
section
/-! DEFINITION. The register map (R14 to R25, R496, R508): what a write and a read of any device address do once they have crossed
their bridge, and the I2C master (R500, R501), which the map reaches. -/

namespace Sys2Proof.Machine

/-- R15, R496: an access to no register, or one that is not a whole word at a multiple of 4. -/
def addrErr (m : Mach) : Mach := setEv GCTL_GLOBAL_EVENTS.addr_err m

/-! ### The I2C master (R500, R501) -/

/-- A write of GCTL_I2C_CMD: a transaction starts, or the command is refused. -/
def i2cCmd (v : W) (m : Mach) : Mach :=
  let nwr := wfld v 8 4
  let nrd := wfld v 12 4
  if wfld v 16 16 ≠ 0x4C29 ∨ fon GCTL_I2C_STATUS.busy m = true ∨ 8 < nwr ∨ 8 < nrd ∨ nwr + nrd = 0 then
    setEv GCTL_GLOBAL_EVENTS.i2c_err m
  else
    let d := leBytes 4 (rd GCTL_I2C_DATA_LO m).toNat ++ leBytes 4 (rd GCTL_I2C_DATA_HI m).toNat
    send (.i2c (v &&& 0xFFFF#32) (d.take nwr)) (wr GCTL_I2C_STATUS 1#32 (wr GCTL_I2C_CMD (v &&& 0xFF7F#32) m))

/-! ### Writes -/

/-- The registers of the GCTL block. -/
def gctlWrite (a : Nat) (v : W) (m : Mach) : Mach :=
  if a = GCTL_DEV_CMD then devCmd v m
  else if a = GCTL_QUAD_REQ then quadReqWrite v m
  else if a = GCTL_BOOT_CFG then settingWrite a v m
  else if a = GCTL_LOOPBACK then loopbackWrite v m
  else if a = GCTL_SLACK_THR then slackThrWrite v m
  else if a = GCTL_AVS_CFG then avsCfgWrite v m
  else if a = GCTL_ANCHOR_UL then anchorWrite .ul v m
  else if a = GCTL_ANCHOR_DL then anchorWrite .dl v m
  else if a = GCTL_I2C_CMD then i2cCmd v m
  else plainWrite a v m

/-- The registers of the HLT block. -/
def hltWrite (a : Nat) (v : W) (m : Mach) : Mach :=
  if a = HLT_TWIN_CFG then twinCfgWrite v m
  else if a = HLT_TWIN_CMD then twinCmd v m
  else if 0xC00100 ≤ a ∧ a < 0xC00130 then
    let k := (a - 0xC00100) / 4
    checkReserve k (refreshKind k (plainWrite a v m))
  else plainWrite a v m

/-- The registers of the IMG block. -/
def imgWrite (a : Nat) (v : W) (m : Mach) : Mach :=
  if a = IMG_CMD then imgCmd v m else if a = IMG_SPI_DATA then spiData v m else plainWrite a v m

/-- A write of a mapped register. -/
def regWrite (a : Nat) (v : W) (m : Mach) : Mach :=
  match a / 0x100000 with
  | 0 => gctlWrite a v m
  | 12 => hltWrite a v m
  | 13 => imgWrite a v m
  | _ => blockWrite a v m

/-- The address lies among the tile windows. -/
def isTile (a : Nat) : Bool := decide (tileBase 0 ≤ a ∧ a < tileBase 144)
def tileOf (a : Nat) : Fin 144 := Fin.ofNat 144 ((a - tileBase 0) / 0x10000)
def tileOff (a : Nat) : Nat := (a - tileBase 0) % 0x10000

/-- A whole-word write of `v` to device address `a`. -/
def mapWrite (a : Nat) (v : W) (m : Mach) : Mach :=
  if a % 4 ≠ 0 then addrErr m
  else if isRes a then windowWrite a v m
  else if isTile a then (if tileMapped (tileOff a) then tileWrite (tileOf a) (tileOff a) v m else addrErr m)
  else if (regInfo a).isNone then addrErr m
  else regWrite a v m

/-! ### Reads -/

/-- The chain whose FTW_HI register is at address `a`. -/
def ftwHiOf (a : Nat) : Option ChainId :=
  let o := a % 0x100000
  if isPathReg a 0x210 then some (.ddc (toPath (pathOfReg a)))
  else if isPathReg a 0x250 then some (.duc (toPath (pathOfReg a)))
  else if 0x100000 ≤ a ∧ a < 0x500000 ∧ 0x4400 ≤ o ∧ o < 0x4C00 ∧ (o - 0x4400) % 0x400 = 0x210 then
    some (.obs (toObs (2 * (a / 0x100000 - 1) + (o - 0x4400) / 0x400)))
  else none

/-- R21: the value that waits for the slot boundary in register `a`. -/
def pendingValue (a : Nat) (m : Mach) : Option W :=
  match ftwHiOf a with
  | some c => (getChain (chainKey c) m).ftwStage.map fun f => BitVec.ofNat 32 (f / 2 ^ 32)
  | none => staged a m

/-- Registers whose value is computed when they are read. -/
def viewReg (a : Nat) (m : Mach) : Option W :=
  if a = GCTL_SUMMARY then some (summary m)
  else if 0x20 ≤ a ∧ a < 0x30 then some (pathSum ((a - 0x20) / 4) m)
  else if 0x30 ≤ a ∧ a < 0x44 then some (tileSum ((a - 0x30) / 4) m)
  else if a = GCTL_MODE_STATUS then some (modeStatus m)
  else if a = BMU_WRD_I then some (BitVec.ofNat 32 (toBits 20 (wrdSel m).1))
  else if a = BMU_WRD_Q then some (BitVec.ofNat 32 (toBits 20 (wrdSel m).2))
  else if a = HLT_PLOG_CNT then some (plogCnt m)
  else if 0xC00020 ≤ a ∧ a < 0xC00060 then some (plogWord ((a - 0xC00020) / 4) m)
  else if a = HLT_REMAP_DATA then some (remapData m)
  else none

/-- A read of a mapped register: a WO one reads 0; a staged one reads its pending value with bit 31 set. -/
def regRead (a : Nat) (m : Mach) : W × Mach :=
  if accIs .wo a then (0#32, m)
  else if a = CLK_TOD_LO then todLatch m
  else if 0x800000 ≤ a ∧ a < 0x801000 ∧ a % 0x400 = 0x18 then monFifoPop ((a - 0x800000) / 0x400) m
  else if 0x800000 ≤ a ∧ a < 0x801000 ∧ 0x200 ≤ a % 0x400 ∧ a % 0x400 < 0x280 then
    monDataPop ((a - 0x800000) / 0x400) ((a % 0x400 - 0x200) / 4) m
  else if isPathReg a 0x390 then lutRead (pathOfReg a) m
  else match viewReg a m with
    | some v => (v, m)
    | none => match pendingValue a m with
      | some v => (v ||| 0x80000000#32, m)
      | none => (rd a m, m)

/-- A read of device address `a`, but for DMA_FENCE: the word, and the state after it. A reservoir unit is read as it stands:
what an ECC error does is RES_WINDOW_READ's. -/
def wordRead (a : Nat) (m : Mach) : W × Mach :=
  if a % 4 ≠ 0 then (0#32, addrErr m)
  else if isRes a then windowRead a .clean m
  else if isTile a then
    (if tileMapped (tileOff a) then (tileRead (tileOf a) (tileOff a) m, tileReadEff (tileOf a) (tileOff a) m) else (0#32, addrErr m))
  else if (regInfo a).isNone then (0#32, addrErr m)
  else regRead a m

end Sys2Proof.Machine
end

