-- ==== Sys2Proof/Machine/DmaRun.lean ====
section
/-! DEFINITION. DMA bursts, the arrival of their writes, and fences (R348, R351 to R357, R360). -/

namespace Sys2Proof.Machine

/-! ### Arrival (R353, R355) -/

/-- The line, or the register, that a write goes to. -/
def writeLine (a : Nat) : Nat := if isRes a then a / 64 * 64 else a

/-- One write arrives: bytes into the reservoir, a word into a register as a host write. POOL takes its bytes under its
quota (R340). -/
def dmaArrive (w : Nat × List Byte) (m : Mach) : Mach :=
  if isRes w.1 then (if partOf w.1 m = some 1 then poolBytes w.1 w.2 m else resWrite w.1 w.2 m)
  else mapWrite w.1 (BitVec.ofNat 32 (leVal w.2)) m

/-- The writes of channel `ch` on their way become `l`: they are its operations in flight (R348; DESIGN CHOICE, assumption 100). -/
def setPend (ch : Nat) (l : List (Nat × List Byte)) (m : Mach) : Mach :=
  let m1 := setDma ch { getDma ch m with pendW := l } m
  fset DMA_STATUS.in_flight (((List.range 32).map fun k => (getDma k m1).pendW.length).sum)
    (fset (DMA_CH_STATUS.in_flight ch) l.length m1)

/-- Every write of channel `ch` that is on its way arrives, in the order issued. -/
def dmaLandAll (ch : Nat) (m : Mach) : Mach := each (getDma ch m).pendW dmaArrive (setPend ch [] m)

/-- Of the writes `l` the `i`-th arrives, unless an earlier one to its line is still on its way. -/
def dmaLandOne (ch i : Nat) (m : Mach) : Mach :=
  let l := (getDma ch m).pendW
  match l[i]? with
  | none => m
  | some w =>
    if (l.take i).any fun x => writeLine x.1 == writeLine w.1 then m
    else dmaArrive w (setPend ch (l.eraseIdx i) m)

/-- R348: how many of channel `ch`'s writes the engine has no room for: a channel holds max_ops in flight, all channels 512. -/
def dmaExcess (ch : Nat) (m : Mach) : Nat :=
  max ((getDma ch m).pendW.length - clampN 1 64 (fget (DMA_CH_CFG.max_ops ch) m))
    (((List.range 32).map fun k => (getDma k m).pendW.length).sum - 512)

/-- R348: the writes `ws` are issued in order; the oldest arrive first where the engine would hold too many (DESIGN CHOICE,
assumption 25). -/
def dmaIssue (ch : Nat) (ws : List (Nat × List Byte)) (m : Mach) : Mach :=
  let m1 := setPend ch ((getDma ch m).pendW ++ ws) m
  each (List.range (dmaExcess ch m1)) (fun _ s => dmaLandOne ch 0 s) m1

/-- ABORT_DONE: the operations in flight have completed. -/
def dmaAbortDone (ch : Nat) (m : Mach) : Mach :=
  if (getDma ch m).aborting ∧ dmaResting ch m = false then dmaHalt ch 2 (dmaLandAll ch m) else m
def execDmaAbortDone (ch : Fin 32) (s : State) : Host.Outcome State Fault Refusal := answer s (dmaAbortDone ch s.m)

/-- Channel `ch` has units that have not been passed into framing (R387). -/
def upWaits (ch : Nat) (m : Mach) : Bool := (List.range 4).any fun k => (getUp k m).units.any fun u => u.1 == ch

/-! ### A burst (R351, R352) -/

/-- The bytes a burst moves: with a request the descriptor's burst, else all that is left. -/
def burstBytes (ch : Nat) (d : DmaDesc) (m : Mach) : Nat :=
  let left := d.len - dmaPos ch m
  if dPreq d = 0 then left else min d.burst left

/-- `n` words read from registers, from address `a` on, or all from `a`. -/
def regBytes (fixed : Bool) (a : Nat) : Nat → Mach → List Byte × Mach
  | 0, m => ([], m)
  | n + 1, m =>
    let r := wordRead a m
    let t := regBytes fixed (if fixed then a else a + 4) n r.2
    (leBytes 4 r.1.toNat ++ t.1, t.2)

/-- The reservoir runs that the burst reads from a capture set: from the read pointer, wrapping at the set's length. -/
def setRuns (c n : Nat) (m : Mach) : List (Nat × Nat) :=
  let len := max 1 (capLen c m)
  let r := (rd (RES_CAP_RPTR c) m).toNat % len
  let b := (rd (RES_CAP_BASE c) m).toNat
  if r + n ≤ len then [(b + r, n)] else [(b + r, len - r), (b, n - (len - r))]

/-- The runs of reservoir bytes that a burst of `n` bytes reads; none where it reads registers. -/
def srcRuns (ch : Nat) (d : DmaDesc) (n : Nat) (m : Mach) : List (Nat × Nat) :=
  if dSmode d = 2 then setRuns (dSet d) n m
  else if isRes d.src then [(d.src + dmaPos ch m, n)] else []

/-- The burst's data. -/
def burstData (ch : Nat) (d : DmaDesc) (n : Nat) (m : Mach) : List Byte × Mach :=
  match srcRuns ch d n m with
  | [] => regBytes (dSmode d == 1) (if dSmode d = 1 then d.src else d.src + dmaPos ch m) (n / 4) m
  | l => (l.flatMap fun r => viewBytes r.1 r.2 m, m)

/-- R352: the set's read pointer advances by the burst. -/
def advanceSet (c n : Nat) (m : Mach) : Mach :=
  let len := max 1 (capLen c m)
  wr (RES_CAP_RPTR c) (BitVec.ofNat 32 (((rd (RES_CAP_RPTR c) m).toNat % len + n) % len))
    (setCap c { getCap c m with unread := (getCap c m).unread - n } m)

/-- `l` cut into writes from reservoir address `a` on: one for each line. -/
def lineWrites : Nat → Nat → List Byte → List (Nat × List Byte)
  | 0, _, _ => []
  | n + 1, a, l =>
    if l.isEmpty then [] else
      let k := 64 - a % 64
      (a, l.take k) :: lineWrites n (a + k) (l.drop k)

/-- `l` as writes of words, to one register or to registers from `a` on. -/
def wordWrites (fixed : Bool) : Nat → Nat → List Byte → List (Nat × List Byte)
  | 0, _, _ => []
  | n + 1, a, l => if l.isEmpty then [] else (a, l.take 4) :: wordWrites fixed n (if fixed then a else a + 4) (l.drop 4)

/-- `l` in units of 64 bytes (R387); the last of an odd length is shorter. -/
def upUnits (ch : Nat) : Nat → List Byte → List (Nat × List Byte)
  | 0, _ => []
  | n + 1, l => if l.isEmpty then [] else (ch, l.take 64) :: upUnits ch n (l.drop 64)

/-- The burst's operations of writing are issued: to the reservoir, to registers, or to an upload queue. -/
def issueWrites (ch : Nat) (d : DmaDesc) (l : List Byte) (m : Mach) : Mach :=
  let a := d.dst + dmaPos ch m
  if dDmode d = 2 then
    let k := d.dst % 4
    let x := getUp k m
    setUp k { x with units := x.units ++ upUnits ch (l.length / 64 + 1) l } m
  else
    let ws := if isRes d.dst then lineWrites (l.length / 64 + 2) a l
      else wordWrites (dDmode d == 1) (l.length / 4) (if dDmode d = 1 then d.dst else a) l
    dmaIssue ch ws m

/-- R387: an upload queue has room for `n` bytes. -/
def upRoom (k n : Nat) (m : Mach) : Bool := decide (((getUp k m).units.map fun u => u.2.length).sum + n ≤ 65536)

/-- A burst may start now: a COPY with bytes left, its request raised, no domain on its way down (R357), room in its upload
queue. -/
def burstOk (ch : Nat) (d : DmaDesc) (m : Mach) : Bool :=
  !dmaResting ch m && !(getDma ch m).aborting && dType d == 0 && decide (dmaPos ch m < d.len) &&
    (dPreq d == 0 || reqRaised (dPreq d) d.burst m) &&
    (descQuads d).all (fun q => (getQ q m).phase != .powerDown && quadState q m != 0) &&
    (dDmode d != 2 || upRoom (d.dst % 4) (burstBytes ch d m) m)

/-- One burst of channel `ch`: it reads, issues its writes, and counts; a set that has become FREE, or a poisoned unit, halts
the channel (R352, R360). -/
def dmaBurst (ch : Nat) (m : Mach) : Mach :=
  match (getDma ch m).desc with
  | none => m
  | some d =>
    if dSmode d = 2 ∧ capState (dSet d) m = 0 ∧ dmaResting ch m = false ∧ dmaPos ch m < d.len then dmaHalt ch 6 m
    else if burstOk ch d m then
      let n := burstBytes ch d m
      let bad := (srcRuns ch d n m).filter fun r => badUnits r.1 r.2 m != []
      if bad ≠ [] then dmaHalt ch 7 (dmaLandAll ch (each bad (fun r s => readReport r.1 r.2 s) m))
      else
        let r := burstData ch d n m
        let m1 := issueWrites ch d r.1 r.2
        let m2 := if dSmode d = 2 then advanceSet (dSet d) n m1 else m1
        refreshReq ch (setDmaPos ch (dmaPos ch m + n) m2)
    else m

/-- DMA_BURST_START: a burst, and then the arrivals of `arrive`, by their places among the channel's writes on their way. -/
def dmaBurstStart (ch : Nat) (arrive : List Nat) (m : Mach) : Mach :=
  each arrive (dmaLandOne ch) (dmaBurst ch m)
def execDmaBurstStart (ch : Fin 32) (arrive : List Nat) (s : State) : Host.Outcome State Fault Refusal :=
  answer s (dmaBurstStart ch arrive s.m)

/-! ### Fences (R354) -/

/-- DMA_FENCE_DESC: a FENCE descriptor completes when every write of its channel has arrived. -/
def dmaFenceDesc (ch : Nat) (m : Mach) : Mach :=
  match (getDma ch m).desc with
  | some d =>
    if dmaResting ch m = false ∧ (getDma ch m).aborting = false ∧ dType d = 1 ∧ upWaits ch m = false then
      dmaComplete ch d (dmaLandAll ch m)
    else m
  | none => m
def execDmaFenceDesc (ch : Fin 32) (s : State) : Host.Outcome State Fault Refusal := answer s (dmaFenceDesc ch s.m)

/-- What a read of DMA_FENCE returns: 0 once every write has arrived, in time (`arrived`); else 1 with fence_timeout. -/
def fenceRead (arrived : Bool) (m : Mach) : W × Mach :=
  if arrived && (List.range 32).all (fun ch => !upWaits ch m) then (0#32, each (List.range 32) dmaLandAll m)
  else (1#32, setEv DMA_EVENTS.fence_timeout m)

/-- Some write has not arrived (R354). -/
def fenceWaits (m : Mach) : Bool := (List.range 32).any fun ch => upWaits ch m || !(getDma ch m).pendW.isEmpty

/-- A JTAG access that waits for DMA_FENCE completes with `v` (R504). -/
def jtagFenced (v : W) (m : Mach) : Mach := if m.jtag.done then m else { m with jtag := { m.jtag with done := true, data := v } }

def dmaFenceRead (arrived : Bool) (m : Mach) : Mach :=
  let r := gateRead DMA_FENCE (fenceRead arrived) m
  returnWord (r.1, jtagFenced r.1 r.2)
def execDmaFenceRead (arrived : Bool) (s : State) : Host.Outcome State Fault Refusal := answer s (dmaFenceRead arrived s.m)

end Sys2Proof.Machine
end

