-- ==== Sys2Proof/Machine/Access.lean ====
section
/-! DEFINITION. Accesses (R14 to R24, R71, R388, R495, R496): what the four paths reach in each device state, and the
commands that write a register or meet an address without one. -/

namespace Sys2Proof.Machine

/-- A read of a mapped address. A read of DMA_FENCE that is not named DMA_FENCE_READ ends in time. -/
def mapRead (a : Nat) (m : Mach) : W × Mach := if a = DMA_FENCE then fenceRead true m else wordRead a m

/-- R495: path `p` reaches address `a`: in RECOVERY in-band management reaches reads of GCTL_DEV_STATE only (R388). -/
def mapOpen (p : AccPath) (a : Nat) (isWrite : Bool) (m : Mach) : Bool :=
  reach a m && (p != .inband || devState m != 2 || (!isWrite && a == GCTL_DEV_STATE))

/-- R71, R495: the path reaches the housekeeping domain only: the core is held in reset in BOOT, or the shutdown is latched. -/
def houseOpen (p : AccPath) (m : Mach) : Bool :=
  (p == .spi || p == .jtag) && m.power != .off && (devState m == 7 || (devState m == 1 && m.power != .coreRun))

/-- The three registers that the housekeeping domain answers (R71). -/
def houseRegs : List Nat := [GCTL_DEV_STATE, GCTL_STATE_EVENTS, MON_SHDN_CAUSE]

/-- A whole-word write over path `p`. -/
def hostWrite (p : AccPath) (a : Nat) (v : W) (m : Mach) : Mach := if mapOpen p a true m then mapWrite a v m else m

/-- A read over path `p`: the word, and the state after it. -/
def hostRead (p : AccPath) (a : Nat) (m : Mach) : W × Mach :=
  if mapOpen p a false m then mapRead a m
  else if houseOpen p m && houseRegs.contains a then (rd a m, m)
  else (0#32, m)

/-- R15, R496: no register stands at address `a`, or it is no multiple of 4. -/
def accBad (a : Nat) (m : Mach) : Bool :=
  if a % 4 ≠ 0 then true
  else if isRes a then (partOf a m).isNone
  else if isTile a then !tileMapped (tileOff a)
  else (regInfo a).isNone

/-! ### The commands -/

/-- REGISTER_WRITE: a write of `bytes` bytes: one of fewer than four is an address error (R15). -/
def registerWrite (p : AccPath) (a bytes : Nat) (v : W) (m : Mach) : Mach :=
  if bytes < 4 then (if mapOpen p a true m then addrErr m else m) else hostWrite p a v m
def execRegisterWrite (path : AccPath) (addr bytes : Nat) (v : W) (s : State) : Host.Outcome State Fault Refusal :=
  answer s (registerWrite path addr bytes v s.m)

/-- UNMAPPED_ACCESS: a read returns 0; a write is ignored; both set addr_err. -/
def unmappedAccess (p : AccPath) (a : Nat) (isWrite : Bool) (m : Mach) : Mach :=
  if accBad a m then (if isWrite then hostWrite p a 0#32 m else returnWord (hostRead p a m)) else m
def execUnmappedAccess (path : AccPath) (addr : Nat) (isWrite : Bool) (s : State) : Host.Outcome State Fault Refusal :=
  answer s (unmappedAccess path addr isWrite s.m)

/-- The device sets the bits `sets` of the sticky register at `a`, a tile's included. -/
def setSticky (a : Nat) (sets : W) (m : Mach) : Mach :=
  let ones (k : Nat) := (List.range k).filter fun i => sets.getLsbD i
  if isTile a then
    if tileOff a = 0x8 then each (ones 8) (tileEv (tileOf a)) m
    else
      let x := getTile (tileOf a) m
      setTile (tileOf a) { x with laneOvf := x.laneOvf ||| sets.toNat % 256 } m
  else each ((ones 32).filter fun i => (wmask a).getLsbD i) (setEvBit a) m

/-- Address `a` holds a W1C register. -/
def isSticky (a : Nat) : Bool := accIs .w1c a || (isTile a && (tileOff a == 0x8 || tileOff a == 0x24))

/-- W1C_WRITE: writing 1 clears a bit, but one that the device sets in the same cycle stays set (R20). -/
def w1cWrite (p : AccPath) (a : Nat) (v sets : W) (m : Mach) : Mach :=
  if isSticky a && mapOpen p a true m then mapWrite a (v &&& ~~~sets) (setSticky a sets m) else m
def execW1cWrite (path : AccPath) (addr : Nat) (v devSets : W) (s : State) : Host.Outcome State Fault Refusal :=
  answer s (w1cWrite path addr v devSets s.m)

/-- STAGED_WRITE: a write of an RWS register (R21 to R23). -/
def stagedWrite (p : AccPath) (a : Nat) (v : W) (m : Mach) : Mach := if accIs .rws a then hostWrite p a v m else m
def execStagedWrite (path : AccPath) (addr : Nat) (v : W) (s : State) : Host.Outcome State Fault Refusal :=
  answer s (stagedWrite path addr v s.m)

end Sys2Proof.Machine
end

