-- ==== Sys2Proof/Machine/Ctl.lean ====
section
/-! DEFINITION. The control interfaces (spec/17): SPI, the end of an I2C transaction, JTAG, and in-band management with the end
of the management pause. -/

namespace Sys2Proof.Machine

/-! ### SPI (R497 to R499) -/

/-- The words a READ frame returns, one after the other, from address `a` on in steps of `step`. -/
def spiWords (step : Nat) : Nat → Nat → Mach → List W × Mach
  | _, 0, m => ([], m)
  | a, n + 1, m =>
    let r := hostRead .spi a m
    let t := spiWords step ((a + step) % 2 ^ 32) n r.2
    (r.1 :: t.1, t.2)

/-- The pins of an unpowered device are fail-safe: no frame is seen (R495). -/
def spiSeen (f : Mach → Mach) (m : Mach) : Mach := if m.power = .off then m else f m

def spiReadFrame (step a n : Nat) : Mach → Mach := spiSeen fun m =>
  let r := spiWords step (a % 2 ^ 32) n m
  send (.spi r.1) r.2
def execSpiRead (addr n : Nat) (s : State) : Host.Outcome State Fault Refusal := answer s (spiReadFrame 4 addr n s.m)
def execSpiReadFixed (addr n : Nat) (s : State) : Host.Outcome State Fault Refusal := answer s (spiReadFrame 0 addr n s.m)

/-- The words of a WRITE frame take effect in order. -/
def spiPut (step : Nat) : Nat → List W → Mach → Mach
  | _, [], m => m
  | a, w :: l, m => spiPut step ((a + step) % 2 ^ 32) l (hostWrite .spi a w m)

def spiWriteFrame (step a : Nat) (l : List W) : Mach → Mach := spiSeen (spiPut step (a % 2 ^ 32) l)
def execSpiWrite (addr : Nat) (ws : List W) (s : State) : Host.Outcome State Fault Refusal := answer s (spiWriteFrame 4 addr ws s.m)
def execSpiWriteFixed (addr : Nat) (ws : List W) (s : State) : Host.Outcome State Fault Refusal :=
  answer s (spiWriteFrame 0 addr ws s.m)

/-- A broken frame: spi_err, where the path reaches more than the housekeeping domain (R495). -/
def spiErr : Mach → Mach := gate GCTL_GLOBAL_EVENTS (setEv GCTL_GLOBAL_EVENTS.spi_err)

/-- SPI_BAD_COMMAND: a command byte that is none of the table's. -/
def spiBad (c : BitVec 8) (m : Mach) : Mach :=
  if c = 0x03#8 ∨ c = 0x13#8 ∨ c = 0x02#8 ∨ c = 0x12#8 then m else spiErr m
def execSpiBadCommand (cmd : BitVec 8) (s : State) : Host.Outcome State Fault Refusal := answer s (spiBad cmd s.m)

/-- SPI_CS_ABORT: a rise inside a read wait abandons that word only. -/
def execSpiCsAbort (inReadWait : Bool) (s : State) : Host.Outcome State Fault Refusal :=
  answer s (if inReadWait then s.m else spiErr s.m)

/-- SPI_READ_TIMEOUT: the access completes inside the device, its result is lost, and 0 is sent. -/
def spiReadTimeout (a : Nat) : Mach → Mach :=
  gate a fun m => send (.spi [0#32]) (setEv GCTL_GLOBAL_EVENTS.spi_timeout (hostRead .spi a m).2)
def execSpiReadTimeout (addr : Nat) (s : State) : Host.Outcome State Fault Refusal := answer s (spiReadTimeout addr s.m)

/-! ### I2C (R500, R501) -/

/-- I2C_COMMAND: a write of GCTL_I2C_CMD. -/
def execI2cCommand (v : W) (s : State) : Host.Outcome State Fault Refusal := answer s (gate GCTL_I2C_CMD (i2cCmd v) s.m)

/-- `bs` in place of the first bytes of the data registers. -/
def i2cData (bs : List Byte) (m : Mach) : Mach :=
  let old := leBytes 4 (rd GCTL_I2C_DATA_LO m).toNat ++ leBytes 4 (rd GCTL_I2C_DATA_HI m).toNat
  let new := (bs ++ old.drop bs.length).take 8
  wr GCTL_I2C_DATA_LO (BitVec.ofNat 32 (leVal (new.take 4))) (wr GCTL_I2C_DATA_HI (BitVec.ofNat 32 (leVal (new.drop 4))) m)

/-- GCTL_I2C_STATUS.ndone: the bytes transferred. The field has no value for 16, and the spec states none: a free value. -/
def i2cCount (n : Nat) (m : Mach) : Nat := if n < 16 then n else (Config.freeWord m.free).toNat % 16

/-- The transaction failed (R501). -/
def i2cFailed (r : I2cResult) : Bool := r.nack || r.arbLost || r.timeout || r.stuck

/-- I2C_DONE: the transaction that runs ends, with what it met on the bus. -/
def i2cDone (r : I2cResult) (m : Mach) : Mach :=
  if fon GCTL_I2C_STATUS.busy m then
    let m1 := i2cData (r.data.take (wfld (rd GCTL_I2C_CMD m) 12 4)) m
    let m2 := fsetB GCTL_I2C_STATUS.nack r.nack (fsetB GCTL_I2C_STATUS.arb_lost r.arbLost
      (fsetB GCTL_I2C_STATUS.timeout r.timeout (fsetB GCTL_I2C_STATUS.stuck r.stuck (wr GCTL_I2C_STATUS 0#32 m1))))
    setEvIf (i2cFailed r) GCTL_GLOBAL_EVENTS.i2c_err
      (whenB (decide (16 ≤ r.ndone.val)) nextFree (fset GCTL_I2C_STATUS.ndone (i2cCount r.ndone.val m2) m2))
  else m
def execI2cDone (r : I2cResult) (s : State) : Host.Outcome State Fault Refusal := answer s (i2cDone r s.m)

/-! ### JTAG (R502 to R504) -/

def setJtag (f : Jtag → Jtag) (m : Mach) : Mach := { m with jtag := f m.jtag }

/-- The instructions that drive pins. -/
def drivesPins (c : Nat) : Bool := c == 0 || (decide (3 ≤ c) && decide (c ≤ 6))

/-- A pin-driving instruction that took effect is gone: SOFT_RESET (R503). -/
def jtagRelease (m : Mach) : Mach := if m.jtag.effect then softReset 7 (setJtag (fun x => { x with effect := false }) m) else m

/-- Instruction `c` is loaded. The TAP lies in the always-on domain. -/
def jtagLoad (c : Nat) (m : Mach) : Mach :=
  if m.power = .off ∨ (m.jtag.effect = true ∧ m.jtag.ir = c) then m
  else
    let m1 := jtagRelease m
    if drivesPins c then
      if devState m1 = 1 ∨ devState m1 = 2 ∨ devState m1 = 3 then setJtag (fun x => { x with ir := c, effect := true }) m1
      else gate GCTL_GLOBAL_EVENTS (setEv GCTL_GLOBAL_EVENTS.jtag_refused) (setJtag (fun x => { x with ir := 0xFF }) m1)
    else setJtag (fun x => { x with ir := c }) m1

def execExtest (s : State) : Host.Outcome State Fault Refusal := answer s (jtagLoad 0x00 s.m)
def execSamplePreload (s : State) : Host.Outcome State Fault Refusal := answer s (jtagLoad 0x02 s.m)
def execHighz (s : State) : Host.Outcome State Fault Refusal := answer s (jtagLoad 0x03 s.m)
def execClamp (s : State) : Host.Outcome State Fault Refusal := answer s (jtagLoad 0x04 s.m)
def execExtestPulse (s : State) : Host.Outcome State Fault Refusal := answer s (jtagLoad 0x05 s.m)
def execExtestTrain (s : State) : Host.Outcome State Fault Refusal := answer s (jtagLoad 0x06 s.m)
def execRegacc (s : State) : Host.Outcome State Fault Refusal := answer s (jtagLoad 0x10 s.m)

/-- IDCODE: the identification word is shifted out. -/
def idcodeWord : W := 0x16420DE7#32
def jtagIdcode (m : Mach) : Mach := if m.power = .off then m else send (.rdata idcodeWord) (jtagLoad 0x01 m)
def execIdcode (s : State) : Host.Outcome State Fault Refusal := answer s (jtagIdcode s.m)

/-- BYPASS, or another value of the instruction register. -/
def execBypass (code : BitVec 8) (s : State) : Host.Outcome State Fault Refusal := answer s (jtagLoad code.toNat s.m)

/-- JTAG_TLR: Test-Logic-Reset selects IDCODE. -/
def jtagTlr (m : Mach) : Mach := if m.power = .off then m else setJtag (fun x => { x with ir := 1 }) (jtagRelease m)
def execJtagTlr (s : State) : Host.Outcome State Fault Refusal := answer s (jtagTlr s.m)

/-- An access of REGACC has completed with `v`. -/
def regaccDone (a : Nat) (v : W) : Mach → Mach := setJtag fun x => { x with addr := a, data := v, done := true }

/-- REGACC_UPDATE: Update-DR issues the access; one that finds the last still running is ignored. What a capture returns as
data after a write is stated nowhere: a free value. -/
def regaccUpdate (isWrite : Bool) (a : Nat) (v : W) (m : Mach) : Mach :=
  if m.power = .off ∨ m.jtag.ir ≠ 0x10 ∨ m.jtag.done = false then m
  else if isWrite then nextFree (regaccDone a (Config.freeWord m.free) (hostWrite .jtag a v m))
  else if a = DMA_FENCE ∧ reach a m = true ∧ fenceWaits m = true then setJtag (fun x => { x with addr := a, done := false }) m
  else
    let r := hostRead .jtag a m
    returnWord (r.1, regaccDone a r.1 r.2)
def execRegaccUpdate (write : Bool) (addr : Nat) (v : W) (s : State) : Host.Outcome State Fault Refusal :=
  answer s (regaccUpdate write addr v s.m)

/-! ### In-band management (R388) -/

/-- One operation: its status and data, and the state after it. In RECOVERY only a read of GCTL_DEV_STATE is performed. The
data of an operation that reads nothing is stated nowhere: a free value. -/
def mgmtOp (o : MgmtOp) (m : Mach) : (Nat × W) × Mach :=
  let a := o.addr.toNat
  if mapOpen .inband a o.write m = false then ((2, Config.freeWord m.free), nextFree m)
  else
    let st := if accBad a m then 1 else 0
    if o.write then ((st, Config.freeWord m.free), nextFree (mapWrite a o.data m))
    else
      let r := mapRead a m
      ((st, r.1), r.2)

/-- The operations of a request, in order. -/
def mgmtOps : List MgmtOp → Mach → List (Nat × W) × Mach
  | [], m => ([], m)
  | o :: l, m =>
    let r := mgmtOp o m
    let t := mgmtOps l r.2
    (r.1 :: t.1, t.2)

/-- A request is performed and answered. -/
def mgmtRun (sess : Nat) (l : List MgmtOp) (m : Mach) : Mach :=
  let r := mgmtOps l m
  sendNat sess (.mgmtResp r.1) r.2

/-- A request is answered with every operation BUSY. -/
def mgmtBusy (sess : Nat) (l : List MgmtOp) (m : Mach) : Mach :=
  nextFree (sendNat sess (.mgmtResp (l.map fun _ => (2, Config.freeWord m.free))) m)

/-- MGMT_REQ: held while management stands, up to eight of a session; a ninth is answered BUSY. -/
def mgmtReq (sess : Fin 4) (l : List MgmtOp) (m : Mach) : Mach :=
  if m.power ≠ .coreRun then m
  else if mgmtHeld m then
    let x := getSess sess m
    if x.held.length < 8 then setSess sess { x with held := x.held ++ [.mgmtReq sess l] } m else mgmtBusy sess l m
  else mgmtRun sess l m

def execMgmtReq (sess : Fin 4) (ops : List MgmtOp) (s : State) : Host.Outcome State Fault Refusal :=
  answerIf (mgmtOk ops) s (mgmtReq sess ops s.m)

/-! ### The end of the management pause (R488, R492, R493) -/

/-- A held message is taken. -/
def runNative : Instr → Mach → Mach
  | .bind sess det sensor pin => dirEnter (.bind sess det sensor pin)
  | .unbind _ sensor => dirEnter (.unbind sensor)
  | .dirOpRead sess sensor mask => dirEnter (.read sess sensor mask)
  | .dirOpWrite sess sensor mask f => dirEnter (.write sess sensor mask f)
  | .dirOpDelete sess sensor mask => dirEnter (.delete sess sensor mask)
  | .dirOpPin sess sensor mask => dirEnter (.pin sess sensor mask true)
  | .dirOpUnpin sess sensor mask => dirEnter (.pin sess sensor mask false)
  | .dirOpTouch sess sensor mask => dirEnter (.touch sess sensor mask)
  | .dirOpList sess bucket count mask => dirEnter (.list sess bucket.toNat count.toNat mask)
  | .dirOpSnapshot sess mask => dirEnter (.snapshot sess mask)
  | .poolWrite sess first vs => poolWrite sess first.toNat vs
  | .mgmtReq sess l => mgmtRun sess l
  | .imgXferOpen sess target => gate IMG_CMD (openSess (srcBand sess) target.toNat)
  | .imgXferData sess off data => gate IMG_CMD (bandData sess off.toNat data)
  | .imgXferCommit sess store => gate IMG_CMD (commitSess (srcBand sess) store)
  | .imgXferAbort sess => gate IMG_CMD (abortSess (srcBand sess))
  | .ptpTx sess port x fine => ptpTx sess port x fine
  | _ => id

/-- The held messages of every session are taken in order. -/
def runHeld (m : Mach) : Mach :=
  each (List.range 4) (fun k m => each (getSess k m).held runNative (setSess k { getSess k m with held := [] } m)) m

/-- A trial bank that passes is VALID, with a commit count one above the other bank's (R488). -/
def passBank (k : Nat) (m : Mach) : Mach :=
  setBank k { getBank k m with state := 1, commits := (getBank (1 - k) m).commits + 1 } m
def failBank (k : Nat) (m : Mach) : Mach :=
  setEv IMG_EVENTS.selftest_fail (setBank k { getBank k m with state := 3 } m)

/-- R446: the spare core has taken over: what was held is taken. -/
def restartEnd (m : Mach) : Mach :=
  match m.hlt.restart with
  | some t => if t ≤ tick m ∨ timingOn m = false then
      let m1 := { m with hlt := { m.hlt with restart := none } }
      if mgmtHeld m1 then m1 else runHeld m1
    else m
  | none => m

/-- With no command waiting one tick of the tick clock passes (DESIGN CHOICE, assumption 1). The time of day stands at 0
until the frame timing runs (R10, R78). A core's restart that is over by then ends. -/
def idleTick (m : Mach) : Mach := restartEnd (if timingOn m then { m with tod := m.tod + 2 } else m)

/-- The pause ends: held messages are taken, and planned substitutions go on (R440, R492). -/
def pauseEnd (m : Mach) : Mach :=
  let m1 := fset IMG_STATUS.in_pause 0 (setImg (fun x => { x with pause := false }) m)
  pumpPlanned (if mgmtHeld m1 then m1 else runHeld m1)

/-- The self-test of a punty handover ends: the new image runs on, or the previous one resumes. -/
def handoverEnd (pass : Bool) (m : Mach) : Mach :=
  match trialBank m with
  | some k =>
    if pass then pauseEnd (setEv IMG_EVENTS.handover_done (fwStart k (refreshImg (passBank k m))))
    else pauseEnd (refreshImg (failBank k m))
  | none => pauseEnd m

/-- The self-test after TRIAL_RESET ends: a failure resets the device into the previous image. -/
def trialEnd (pass : Bool) (m : Mach) : Mach :=
  let k := fget IMG_STATUS.running_bank m
  let m1 := setImg (fun x => { x with trialRun := false }) m
  if pass then refreshImg (passBank k m1) else softReset 7 (refreshImg (failBank k m1))

/-- PUNTY_SELFTEST_END. A timeout is a failure (R493). -/
def selftestEnd (pass : Bool) (m : Mach) : Mach :=
  if m.img.pause then handoverEnd pass m else if m.img.trialRun then trialEnd pass m else m
def execPuntySelftestEnd (pass : Bool) (s : State) : Host.Outcome State Fault Refusal := answer s (selftestEnd pass s.m)

end Sys2Proof.Machine
end

