-- ==== Sys2Proof/Machine/MirrorRx.lean ====
section
/-! DEFINITION. What the STANDBY makes of the mirror (R458, R460, R461), and faults of the analogue rails (R517). -/

namespace Sys2Proof.Machine

/-- The class of a mirrored change (R460). -/
def mirClass : MirBody → Nat
  | .timeCheck _ => 0
  | .steer _ => 0
  | .classB _ _ => 0
  | .syncAlign _ _ => 0
  | .deck _ => 1
  | .poolVec _ _ => 4
  | .pdBank _ _ => 5
  | .pdSwap _ _ => 5
  | .calFront _ _ _ _ => 6
  | _ => 2

/-- A missing sequence number: the class resyncs: class 0 at the next heartbeat, class 2 from the next slot, class 6 at the
next publication, classes 4 and 5 with a full copy that the STANDBY requests. Class 1 is only compared. -/
def mirGap (c : Nat) (m : Mach) : Mach :=
  if c = 1 then m
  else
    let m1 := setInSync c false (setTwin (fun t => { t with resync := if c = 0 then t.resync else c :: t.resync.filter (· != c) }) m)
    if c = 4 ∨ c = 5 ∨ c = 6 then send (.resyncReq c) m1 else m1

/-- The sequence number of a frame is compared with the class's last one; the first frame after the link came up sets it. -/
def mirSeqCheck (c : Nat) (seq : W) (m : Mach) : Mach :=
  let got := tabGet (fun _ => 0) m.twin.mirGot c
  let m1 := setTwin (fun t => { t with mirGot := tabPut (fun _ => 0) t.mirGot c (seq.toNat + 1) }) m
  if got = 0 ∨ got % 2 ^ 32 = seq.toNat then m1 else mirGap c m1

/-- A class B change of the PRIMARY, for the same frame boundary (R401). -/
def mirClassB (v : W) (start : Nat) (m : Mach) : Mach :=
  let plan := wfld v 0 1
  if timingOn m ∧ mpllLocked m = true ∧ fon CLK_STATUS.classb m = false ∧ plan ≠ fget CLK_STATUS.plan m then
    fset CLK_STATUS.classb 1 (setClk (fun x => { x with classB := some ⟨plan, v.getLsbD 1, wfld v 2 4, start, false⟩ }) m)
  else m

/-- SYNC alignment values of the PRIMARY: the grid takes them (R410). -/
def mirAlign (tod fn : Nat) (m : Mach) : Mach :=
  if timingOn m then
    let m1 := if m.frameStart = tod ∧ m.frameNo = fn then m else alignGrid (tick m) tod fn m
    setClk (fun x => { x with aligned := true }) m1
  else m

/-- A change of the PRIMARY takes effect as the same write here does. Quadrant requests wait for F1 (R464). -/
def mirApply (b : MirBody) (m : Mach) : Mach :=
  match b with
  | .timeCheck t =>
    let ok := decide (tick m ≤ t.toNat + 1 ∧ t.toNat ≤ tick m + 1)
    setEvIf (!ok) HLT_TWIN_EVENTS.time_mis (setInSync 0 ok m)
  | .steer v => clkSteerWrite v m
  | .classB v start => mirClassB v start.toNat m
  | .syncAlign tod fn => mirAlign tod.toNat fn.toNat m
  | .deck d =>
    let ok := d.toNat == deckIdent m
    setEvIf (!ok) HLT_TWIN_EVENTS.deck_mis (setInSync 1 ok m)
  | .sched x => schedIn x m
  | .quadReq v => wr GCTL_QUAD_REQ (v &&& 0xFFF#32) m
  | .anchor d v => anchorWrite d v m
  | .bmuCfg v => bmuCfgWrite v m
  | .carrier d v => rwsWrite (match d with | .ul => BMU_UL_FC | .dl => BMU_DL_FC) v m
  | .exclude d q v => rwsWrite ((match d with | .ul => 0x500040 | .dl => 0x500050) + 4 * q.val) v m
  | .txAtt n v => txAttWrite n v m
  | .txCfg n v => txCfgWrite n v m
  | .poolVec i ws => send (.mirAck (rd DIR_SEQ m)) (poolBytes (partBase 1 m + 256 * i.toNat) (ws.flatMap fun w => leBytes 4 w.toNat) m)
  | .pdBank n ws => writeIdle n ws m
  | .pdSwap n t => mirSwapIn n (t.map BitVec.toNat) m
  | .calFront d n amp phase =>
    setInSync 6 true (setTwin (fun t => { t with resync := t.resync.filter (· != 6) })
      (mirroredFront n (match d with | .ul => false | .dl => true) amp phase m))

/-- R460: a change of class 2 whose slot boundary has passed applies at once: what its write has staged is taken. -/
def mirNow (b : MirBody) (m : Mach) : Mach :=
  match b with
  | .anchor d _ => takeStage (anchorReg d) (applyAnchor d) m
  | .bmuCfg _ => takeStage BMU_CFG applyBmuCfg m
  | .carrier d _ => let a := (match d with | .ul => BMU_UL_FC | .dl => BMU_DL_FC); takeStage a (applyRws a) m
  | .exclude d q _ => let a := (match d with | .ul => 0x500040 | .dl => 0x500050) + 4 * q.val; takeStage a (applyRws a) m
  | .txAtt n _ => takePlain (QUAD_TX_ATT n) m
  | .txCfg n _ => applyTxCfg false n m
  | _ => m

/-- MIRROR_CHANGE: a frame that fails its CRC is discarded; only a STANDBY applies changes, each at its tick, or at once where that has
passed. -/
def mirrorChange (c : MirChange) (m : Mach) : Mach :=
  if mirrorOn m && laneMask m != 0 && c.crcOk && role m == 2 then
    let m1 := mirApply c.body (mirSeqCheck (mirClass c.body) c.seq m)
    refreshReady (if c.at_.toNat ≤ m1.slotStart then mirNow c.body m1 else m1)
  else m
def execMirrorChange (c : MirChange) (s : State) : Host.Outcome State Fault Refusal :=
  answerIf (mirOk c.body) s (mirrorChange c s.m)

/-! ### Analogue rails (R517) -/

/-- The paths of quadrant `q` are declared failed: receive by a kind 0 trick, transmit by a kind 1 trick (R444). -/
def railPaths (tx : Bool) (q : Nat) (m : Mach) : Mach := each (pathsOf q) (fun n => failPath tx n (if tx then 2 else 1)) m

/-- ANALOGUE_RAIL_FAULT: VDDA_CLK feeds the loops, VDDA_RX_q and VDDA_TX_q the converters of a quadrant, VDD_SER the ports. -/
def railFault (r : Rail) (m : Mach) : Mach :=
  if coreOn m = false then m
  else match r with
    | .clk => each quads4 coastQpll (coastMpll m)
    | .rx q persists => if persists then railPaths false q m else m
    | .tx q persists => if persists then railPaths true q m else m
    | .ser => each (List.range 4) (fun i => setPort i 0) m
def execAnalogueRailFault (r : Rail) (s : State) : Host.Outcome State Fault Refusal := answer s (railFault r s.m)

end Sys2Proof.Machine
end

