-- ==== Sys2Proof/Machine/Dispatch.lean ====
section
/-! DEFINITION. What each command does: one arm for each constructor of `Instr`, a direct call of its meaning. -/

namespace Sys2Proof.Machine

def exec (i : Instr) (s : State) : Host.Outcome State Fault Refusal :=
  match i with
  | .registerWrite path addr bytes v => Sys2Proof.Machine.execRegisterWrite path addr bytes v s
  | .unmappedAccess path addr isWrite => Sys2Proof.Machine.execUnmappedAccess path addr isWrite s
  | .w1cWrite path addr v devSets => Sys2Proof.Machine.execW1cWrite path addr v devSets s
  | .stagedWrite path addr v => Sys2Proof.Machine.execStagedWrite path addr v s
  | .slotBoundary => Sys2Proof.Machine.execSlotBoundary s
  | .frameBoundary => Sys2Proof.Machine.execFrameBoundary s
  | .inputBridgeWrite b taken => Sys2Proof.Machine.execInputBridgeWrite b taken s
  | .outputBridgeRelease b => Sys2Proof.Machine.execOutputBridgeRelease b s
  | .lateEntryArrival b seq => Sys2Proof.Machine.execLateEntryArrival b seq s
  | .domainClockStop d => Sys2Proof.Machine.execDomainClockStop d s
  | .bridgeFlush d => Sys2Proof.Machine.execBridgeFlush d s
  | .slackWindowEnd obs => Sys2Proof.Machine.execSlackWindowEnd obs s
  | .avsRepeat => Sys2Proof.Machine.execAvsRepeat s
  | .avsNoresp => Sys2Proof.Machine.execAvsNoresp s
  | .avsCfgWrite v => Sys2Proof.Machine.execAvsCfgWrite v s
  | .slackThrWrite v => Sys2Proof.Machine.execSlackThrWrite v s
  | .anchorWrite d v => Sys2Proof.Machine.execAnchorWrite d v s
  | .goStandby => Sys2Proof.Machine.execGoStandby s
  | .goWarm => Sys2Proof.Machine.execGoWarm s
  | .goActive => Sys2Proof.Machine.execGoActive s
  | .clearDegraded => Sys2Proof.Machine.execClearDegraded s
  | .softReset => Sys2Proof.Machine.execSoftReset s
  | .devCmdInvalid v => Sys2Proof.Machine.execDevCmdInvalid v s
  | .warmEntry => Sys2Proof.Machine.execWarmEntry s
  | .activeEntry => Sys2Proof.Machine.execActiveEntry s
  | .warmReturn => Sys2Proof.Machine.execWarmReturn s
  | .standbyReturn => Sys2Proof.Machine.execStandbyReturn s
  | .retestEnd remain => Sys2Proof.Machine.execRetestEnd remain s
  | .poresetRelease => Sys2Proof.Machine.execPoresetRelease s
  | .poresetAssert => Sys2Proof.Machine.execPoresetAssert s
  | .vddCorePowerGood => Sys2Proof.Machine.execVddCorePowerGood s
  | .coreResetRelease recoveryLow banksOk prodOk => Sys2Proof.Machine.execCoreResetRelease recoveryLow banksOk prodOk s
  | .bootComplete => Sys2Proof.Machine.execBootComplete s
  | .vddTimeout => Sys2Proof.Machine.execVddTimeout s
  | .aonRailLoss => Sys2Proof.Machine.execAonRailLoss s
  | .quadReqWrite v => Sys2Proof.Machine.execQuadReqWrite v s
  | .quadDrainComplete q => Sys2Proof.Machine.execQuadDrainComplete q s
  | .quadPowerDownComplete q => Sys2Proof.Machine.execQuadPowerDownComplete q s
  | .loopbackWrite v => Sys2Proof.Machine.execLoopbackWrite v s
  | .adcSample u code => Sys2Proof.Machine.execAdcSample u code s
  | .overloadWindowEnd n => Sys2Proof.Machine.execOverloadWindowEnd n s
  | .rxCtrlWrite u v => Sys2Proof.Machine.execRxCtrlWrite u v s
  | .rxCalFull q => Sys2Proof.Machine.execRxCalFull q s
  | .rxCalRestore q => Sys2Proof.Machine.execRxCalRestore q s
  | .rxCalCmdInvalid q v => Sys2Proof.Machine.execRxCalCmdInvalid q v s
  | .rxSelfcalDone q res => Sys2Proof.Machine.execRxSelfcalDone q res s
  | .restoreVerifyDone q ok => Sys2Proof.Machine.execRestoreVerifyDone q ok s
  | .factorWrite u w v => Sys2Proof.Machine.execFactorWrite u w v s
  | .sliceRemapPlanned u => Sys2Proof.Machine.execSliceRemapPlanned u s
  | .sliceHardFail u pos => Sys2Proof.Machine.execSliceHardFail u pos s
  | .couplerWrite o v => Sys2Proof.Machine.execCouplerWrite o v s
  | .ftwLoWrite c v => Sys2Proof.Machine.execFtwLoWrite c v s
  | .ftwHiWrite c v => Sys2Proof.Machine.execFtwHiWrite c v s
  | .ddcCfgWrite n v => Sys2Proof.Machine.execDdcCfgWrite n v s
  | .ddcShiftWrite c v => Sys2Proof.Machine.execDdcShiftWrite c v s
  | .obsDdcCfgWrite o v => Sys2Proof.Machine.execObsDdcCfgWrite o v s
  | .ducCfgWrite n v => Sys2Proof.Machine.execDucCfgWrite n v s
  | .sched m => Sys2Proof.Machine.execSched m s
  | .scheduleDeadline => Sys2Proof.Machine.execScheduleDeadline s
  | .directoryLookup d b => Sys2Proof.Machine.execDirectoryLookup d b s
  | .bmuCfgWrite v => Sys2Proof.Machine.execBmuCfgWrite v s
  | .exclusionMask d n => Sys2Proof.Machine.execExclusionMask d n s
  | .columnRemapPlanned d col => Sys2Proof.Machine.execColumnRemapPlanned d col s
  | .columnHardFail d col => Sys2Proof.Machine.execColumnHardFail d col s
  | .acqSlotEnd => Sys2Proof.Machine.execAcqSlotEnd s
  | .slotReport => Sys2Proof.Machine.execSlotReport s
  | .bind sess det sensor pin => Sys2Proof.Machine.execBind sess det sensor pin s
  | .unbind sess sensor => Sys2Proof.Machine.execUnbind sess sensor s
  | .dirOpRead sess sensor mask => Sys2Proof.Machine.execDirOpRead sess sensor mask s
  | .dirOpWrite sess sensor mask f => Sys2Proof.Machine.execDirOpWrite sess sensor mask f s
  | .dirOpDelete sess sensor mask => Sys2Proof.Machine.execDirOpDelete sess sensor mask s
  | .dirOpPin sess sensor mask => Sys2Proof.Machine.execDirOpPin sess sensor mask s
  | .dirOpUnpin sess sensor mask => Sys2Proof.Machine.execDirOpUnpin sess sensor mask s
  | .dirOpTouch sess sensor mask => Sys2Proof.Machine.execDirOpTouch sess sensor mask s
  | .dirOpList sess bucket count mask => Sys2Proof.Machine.execDirOpList sess bucket count mask s
  | .dirOpSnapshot sess mask => Sys2Proof.Machine.execDirOpSnapshot sess mask s
  | .dirCfgWrite v => Sys2Proof.Machine.execDirCfgWrite v s
  | .dirSeedWrite v => Sys2Proof.Machine.execDirSeedWrite v s
  | .quotaEviction => Sys2Proof.Machine.execQuotaEviction s
  | .dirSnapSnapshot => Sys2Proof.Machine.execDirSnapSnapshot s
  | .dirSnapRestore => Sys2Proof.Machine.execDirSnapRestore s
  | .dirSnapAbort => Sys2Proof.Machine.execDirSnapAbort s
  | .snapshotPeriod => Sys2Proof.Machine.execSnapshotPeriod s
  | .snapshotComplete => Sys2Proof.Machine.execSnapshotComplete s
  | .restoreComplete => Sys2Proof.Machine.execRestoreComplete s
  | .mirrorDelta seq bucket pos e => Sys2Proof.Machine.execMirrorDelta seq bucket pos e s
  | .mirrorResync cls => Sys2Proof.Machine.execMirrorResync cls s
  | .txAttWrite n v => Sys2Proof.Machine.execTxAttWrite n v s
  | .txCfgWrite n v => Sys2Proof.Machine.execTxCfgWrite n v s
  | .fcbFrame q => Sys2Proof.Machine.execFcbFrame q s
  | .frame q => Sys2Proof.Machine.execFrame q s
  | .slotTx q => Sys2Proof.Machine.execSlotTx q s
  | .slotRx q => Sys2Proof.Machine.execSlotRx q s
  | .slotAcq q => Sys2Proof.Machine.execSlotAcq q s
  | .slotGap q => Sys2Proof.Machine.execSlotGap q s
  | .burstDecision q => Sys2Proof.Machine.execBurstDecision q s
  | .timer q => Sys2Proof.Machine.execTimer q s
  | .sw q => Sys2Proof.Machine.execSw q s
  | .sequencerAction q => Sys2Proof.Machine.execSequencerAction q s
  | .pdLutDataWrite n v => Sys2Proof.Machine.execPdLutDataWrite n v s
  | .pdLutDataRead n => Sys2Proof.Machine.execPdLutDataRead n s
  | .pdCaptureStart o => Sys2Proof.Machine.execPdCaptureStart o s
  | .pdCaptureEnd o delay frac strong => Sys2Proof.Machine.execPdCaptureEnd o delay frac strong s
  | .pdAdaptCycleEnd o u fit => Sys2Proof.Machine.execPdAdaptCycleEnd o u fit s
  | .pdHoldEnd n => Sys2Proof.Machine.execPdHoldEnd n s
  | .engineSubstPlanned n => Sys2Proof.Machine.execEngineSubstPlanned n s
  | .engineHardFail n => Sys2Proof.Machine.execEngineHardFail n s
  | .engineSpareTakeover q => Sys2Proof.Machine.execEngineSpareTakeover q s
  | .calTrickStart => Sys2Proof.Machine.execCalTrickStart s
  | .calCaptureEnd bad pilotLow pilotMoved => Sys2Proof.Machine.execCalCaptureEnd bad pilotLow pilotMoved s
  | .correctionPublish meas => Sys2Proof.Machine.execCorrectionPublish meas s
  | .calStall => Sys2Proof.Machine.execCalStall s
  | .dedicatedTrick q meas => Sys2Proof.Machine.execDedicatedTrick q meas s
  | .calStoreWrite ok => Sys2Proof.Machine.execCalStoreWrite ok s
  | .calRefWrite freq v => Sys2Proof.Machine.execCalRefWrite freq v s
  | .nop t => Sys2Proof.Machine.execNop t s
  | .halt t => Sys2Proof.Machine.execHalt t s
  | .jmp t tgt => Sys2Proof.Machine.execJmp t tgt s
  | .jz t d tgt => Sys2Proof.Machine.execJz t d tgt s
  | .jnz t d tgt => Sys2Proof.Machine.execJnz t d tgt s
  | .call t tgt => Sys2Proof.Machine.execCall t tgt s
  | .ret t => Sys2Proof.Machine.execRet t s
  | .loop t n e => Sys2Proof.Machine.execLoop t n e s
  | .loops t d e => Sys2Proof.Machine.execLoops t d e s
  | .waitslot t => Sys2Proof.Machine.execWaitslot t s
  | .waitslotResume t => Sys2Proof.Machine.execWaitslotResume t s
  | .ckpt t => Sys2Proof.Machine.execCkpt t s
  | .signal t code => Sys2Proof.Machine.execSignal t code s
  | .ldi t d k => Sys2Proof.Machine.execLdi t d k s
  | .ldih t d k => Sys2Proof.Machine.execLdih t d k s
  | .alu t d a b f => Sys2Proof.Machine.execAlu t d a b f s
  | .addi t d a k => Sys2Proof.Machine.execAddi t d a k s
  | .rdsp t d sp => Sys2Proof.Machine.execRdsp t d sp s
  | .wrsp t a sp => Sys2Proof.Machine.execWrsp t a sp s
  | .ldw t c d => Sys2Proof.Machine.execLdw t c d s
  | .stw t c a => Sys2Proof.Machine.execStw t c a s
  | .cbset t c r a => Sys2Proof.Machine.execCbset t c r a s
  | .vld t c v => Sys2Proof.Machine.execVld t c v s
  | .vst t c v => Sys2Proof.Machine.execVst t c v s
  | .vin t v p => Sys2Proof.Machine.execVin t v p s
  | .vinComplete t => Sys2Proof.Machine.execVinComplete t s
  | .clr t m => Sys2Proof.Machine.execClr t m s
  | .mac t c v m => Sys2Proof.Machine.execMac t c v m s
  | .cmac t c v j pm => Sys2Proof.Machine.execCmac t c v j pm s
  | .accw t c u m => Sys2Proof.Machine.execAccw t c u m s
  | .ldacc t c u m => Sys2Proof.Machine.execLdacc t c u m s
  | .red t m => Sys2Proof.Machine.execRed t m s
  | .cred t pm => Sys2Proof.Machine.execCred t pm s
  | .movs t c pm => Sys2Proof.Machine.execMovs t c pm s
  | .movw t c u m => Sys2Proof.Machine.execMovw t c u m s
  | .movo t p pm => Sys2Proof.Machine.execMovo t p pm s
  | .movoComplete t => Sys2Proof.Machine.execMovoComplete t s
  | .setsh t shw shs => Sys2Proof.Machine.execSetsh t shw shs s
  | .sclr t mn => Sys2Proof.Machine.execSclr t mn s
  | .sacc t m => Sys2Proof.Machine.execSacc t m s
  | .smem t c u m => Sys2Proof.Machine.execSmem t c u m s
  | .xfer t c a b toRes => Sys2Proof.Machine.execXfer t c a b toRes s
  | .xferEnd t => Sys2Proof.Machine.execXferEnd t s
  | .waitx t => Sys2Proof.Machine.execWaitx t s
  | .waitxComplete t => Sys2Proof.Machine.execWaitxComplete t s
  | .tileRun t => Sys2Proof.Machine.execTileRun t s
  | .tileHalt t => Sys2Proof.Machine.execTileHalt t s
  | .tileHaltComplete t => Sys2Proof.Machine.execTileHaltComplete t s
  | .tileForceHalt t => Sys2Proof.Machine.execTileForceHalt t s
  | .tileClrWtag t => Sys2Proof.Machine.execTileClrWtag t s
  | .tileCmdInvalid t v => Sys2Proof.Machine.execTileCmdInvalid t v s
  | .tileWindowWrite t off v => Sys2Proof.Machine.execTileWindowWrite t off v s
  | .tileSubstComplete t => Sys2Proof.Machine.execTileSubstComplete t s
  | .tileHardFail t => Sys2Proof.Machine.execTileHardFail t s
  | .tileSpareStart t => Sys2Proof.Machine.execTileSpareStart t s
  | .scrubRead unit err => Sys2Proof.Machine.execScrubRead unit err s
  | .resRowRemap bank row => Sys2Proof.Machine.execResRowRemap bank row s
  | .resBankRemap bank => Sys2Proof.Machine.execResBankRemap bank s
  | .resBankHardFail bank => Sys2Proof.Machine.execResBankHardFail bank s
  | .resWindowWrite addr v => Sys2Proof.Machine.execResWindowWrite addr v s
  | .resWindowRead addr err => Sys2Proof.Machine.execResWindowRead addr err s
  | .partQuotaWrite part v => Sys2Proof.Machine.execPartQuotaWrite part v s
  | .capArm c => Sys2Proof.Machine.execCapArm c s
  | .capStop c => Sys2Proof.Machine.execCapStop c s
  | .capRelease c => Sys2Proof.Machine.execCapRelease c s
  | .capTrigger c => Sys2Proof.Machine.execCapTrigger c s
  | .capRecord c => Sys2Proof.Machine.execCapRecord c s
  | .capSnapshotDone c => Sys2Proof.Machine.execCapSnapshotDone c s
  | .capStopDone c => Sys2Proof.Machine.execCapStopDone c s
  | .capLenWrite c v => Sys2Proof.Machine.execCapLenWrite c v s
  | .capCfgWrite c r v => Sys2Proof.Machine.execCapCfgWrite c r v s
  | .dmaStart ch => Sys2Proof.Machine.execDmaStart ch s
  | .dmaStop ch => Sys2Proof.Machine.execDmaStop ch s
  | .dmaAbort ch => Sys2Proof.Machine.execDmaAbort ch s
  | .dmaAbortDone ch => Sys2Proof.Machine.execDmaAbortDone ch s
  | .dmaResume ch => Sys2Proof.Machine.execDmaResume ch s
  | .dmaCmdInvalid ch v => Sys2Proof.Machine.execDmaCmdInvalid ch v s
  | .dmaChCfgWrite ch cfg v => Sys2Proof.Machine.execDmaChCfgWrite ch cfg v s
  | .dmaDescFetch ch => Sys2Proof.Machine.execDmaDescFetch ch s
  | .dmaBurstStart ch arrive => Sys2Proof.Machine.execDmaBurstStart ch arrive s
  | .dmaDescComplete ch => Sys2Proof.Machine.execDmaDescComplete ch s
  | .dmaFenceDesc ch => Sys2Proof.Machine.execDmaFenceDesc ch s
  | .dmaFenceRead arrived => Sys2Proof.Machine.execDmaFenceRead arrived s
  | .portTrained idx => Sys2Proof.Machine.execPortTrained idx s
  | .portBondJoin idx => Sys2Proof.Machine.execPortBondJoin idx s
  | .portLinkLoss idx ucw => Sys2Proof.Machine.execPortLinkLoss idx ucw s
  | .portTrainTimeout idx => Sys2Proof.Machine.execPortTrainTimeout idx s
  | .portRetry idx => Sys2Proof.Machine.execPortRetry idx s
  | .serdesSubstPlanned tx pos => Sys2Proof.Machine.execSerdesSubstPlanned tx pos s
  | .serdesHardFail m => Sys2Proof.Machine.execSerdesHardFail m s
  | .portLoopbackWrite idx v => Sys2Proof.Machine.execPortLoopbackWrite idx v s
  | .ethFrameRx port f => Sys2Proof.Machine.execEthFrameRx port f s
  | .iqMessageTx st => Sys2Proof.Machine.execIqMessageTx st s
  | .iqMessageRx port m => Sys2Proof.Machine.execIqMessageRx port m s
  | .ecpriDelayMeas port action id fine => Sys2Proof.Machine.execEcpriDelayMeas port action id fine s
  | .poolWrite sess first vs => Sys2Proof.Machine.execPoolWrite sess first vs s
  | .capUpload k => Sys2Proof.Machine.execCapUpload k s
  | .event => Sys2Proof.Machine.execEvent s
  | .mgmtReq sess ops => Sys2Proof.Machine.execMgmtReq sess ops s
  | .imgXferOpen sess target => Sys2Proof.Machine.execImgXferOpen sess target s
  | .imgXferData sess off data => Sys2Proof.Machine.execImgXferData sess off data s
  | .imgXferCommit sess store => Sys2Proof.Machine.execImgXferCommit sess store s
  | .imgXferAbort sess => Sys2Proof.Machine.execImgXferAbort sess s
  | .ptpTx sess port m fine => Sys2Proof.Machine.execPtpTx sess port m fine s
  | .ppsIn fine => Sys2Proof.Machine.execPpsIn fine s
  | .ppsOut => Sys2Proof.Machine.execPpsOut s
  | .refLoss => Sys2Proof.Machine.execRefLoss s
  | .refBad => Sys2Proof.Machine.execRefBad s
  | .mpllLockLoss => Sys2Proof.Machine.execMpllLockLoss s
  | .qpllLockLoss q => Sys2Proof.Machine.execQpllLockLoss q s
  | .coastLimit l => Sys2Proof.Machine.execCoastLimit l s
  | .loopRecovery l => Sys2Proof.Machine.execLoopRecovery l s
  | .lpllReengage => Sys2Proof.Machine.execLpllReengage s
  | .lpllUnlock => Sys2Proof.Machine.execLpllUnlock s
  | .mpllLock bands tj => Sys2Proof.Machine.execMpllLock bands tj s
  | .mpllSlotVerify locked => Sys2Proof.Machine.execMpllSlotVerify locked s
  | .pllFailure l => Sys2Proof.Machine.execPllFailure l s
  | .mpllRetry => Sys2Proof.Machine.execMpllRetry s
  | .qpllLock q => Sys2Proof.Machine.execQpllLock q s
  | .classBRequest v => Sys2Proof.Machine.execClassBRequest v s
  | .classBStart => Sys2Proof.Machine.execClassBStart s
  | .classBRelease => Sys2Proof.Machine.execClassBRelease s
  | .clkSeedWrite v => Sys2Proof.Machine.execClkSeedWrite v s
  | .clkSteerWrite v => Sys2Proof.Machine.execClkSteerWrite v s
  | .refCfgWrite v => Sys2Proof.Machine.execRefCfgWrite v s
  | .syncCfgWrite v => Sys2Proof.Machine.execSyncCfgWrite v s
  | .syncAlign adc phase => Sys2Proof.Machine.execSyncAlign adc phase s
  | .syncMonitor adc phase => Sys2Proof.Machine.execSyncMonitor adc phase s
  | .todRead => Sys2Proof.Machine.execTodRead s
  | .frameTableSwitch => Sys2Proof.Machine.execFrameTableSwitch s
  | .monTrig q => Sys2Proof.Machine.execMonTrig q s
  | .monStop q => Sys2Proof.Machine.execMonStop q s
  | .monCal q => Sys2Proof.Machine.execMonCal q s
  | .monTrigCmd v => Sys2Proof.Machine.execMonTrigCmd v s
  | .monCommonTrigger => Sys2Proof.Machine.execMonCommonTrigger s
  | .monEntryResult q microvolts => Sys2Proof.Machine.execMonEntryResult q microvolts s
  | .monSequenceEnd q => Sys2Proof.Machine.execMonSequenceEnd q s
  | .monSystemGroup codes => Sys2Proof.Machine.execMonSystemGroup codes s
  | .monFifoRead q => Sys2Proof.Machine.execMonFifoRead q s
  | .monDataRead q e => Sys2Proof.Machine.execMonDataRead q e s
  | .monCalDone q off gain => Sys2Proof.Machine.execMonCalDone q off gain s
  | .monThrWrite v => Sys2Proof.Machine.execMonThrWrite v s
  | .sensorReading idx val selfOk => Sys2Proof.Machine.execSensorReading idx val selfOk s
  | .lehrUpdate => Sys2Proof.Machine.execLehrUpdate s
  | .nandProgramComplete => Sys2Proof.Machine.execNandProgramComplete s
  | .correctableEvent r => Sys2Proof.Machine.execCorrectableEvent r s
  | .spareTest kind pool pass => Sys2Proof.Machine.execSpareTest kind pool pass s
  | .gafferSubstPlanned => Sys2Proof.Machine.execGafferSubstPlanned s
  | .gafferHardFail => Sys2Proof.Machine.execGafferHardFail s
  | .nandBlockFail block => Sys2Proof.Machine.execNandBlockFail block s
  | .twinRoleWrite v => Sys2Proof.Machine.execTwinRoleWrite v s
  | .heartbeatTx => Sys2Proof.Machine.execHeartbeatTx s
  | .heartbeatRx x => Sys2Proof.Machine.execHeartbeatRx x s
  | .heartbeatLoss => Sys2Proof.Machine.execHeartbeatLoss s
  | .mirrorChange c => Sys2Proof.Machine.execMirrorChange c s
  | .tokenTake => Sys2Proof.Machine.execTokenTake s
  | .tokenCheck tokIn => Sys2Proof.Machine.execTokenCheck tokIn s
  | .tokenBackoffEnd => Sys2Proof.Machine.execTokenBackoffEnd s
  | .tokenConflict => Sys2Proof.Machine.execTokenConflict s
  | .takeover => Sys2Proof.Machine.execTakeover s
  | .forceTakeover => Sys2Proof.Machine.execForceTakeover s
  | .twinHandover => Sys2Proof.Machine.execTwinHandover s
  | .handoverNotice => Sys2Proof.Machine.execHandoverNotice s
  | .takeoverSettled => Sys2Proof.Machine.execTakeoverSettled s
  | .hotPlugRemoval => Sys2Proof.Machine.execHotPlugRemoval s
  | .vddCoreBrownout => Sys2Proof.Machine.execVddCoreBrownout s
  | .analogueRailFault r => Sys2Proof.Machine.execAnalogueRailFault r s
  | .imgOpen target => Sys2Proof.Machine.execImgOpen target s
  | .imgSpiData v => Sys2Proof.Machine.execImgSpiData v s
  | .imgCommit store => Sys2Proof.Machine.execImgCommit store s
  | .imgAbort => Sys2Proof.Machine.execImgAbort s
  | .puntyHandover => Sys2Proof.Machine.execPuntyHandover s
  | .trialReset => Sys2Proof.Machine.execTrialReset s
  | .pushTwin target => Sys2Proof.Machine.execPushTwin target s
  | .imgCmdInvalid v => Sys2Proof.Machine.execImgCmdInvalid v s
  | .imgLockTimeout => Sys2Proof.Machine.execImgLockTimeout s
  | .reshuffleApply => Sys2Proof.Machine.execReshuffleApply s
  | .fwBankWritten => Sys2Proof.Machine.execFwBankWritten s
  | .puntySelftestEnd pass => Sys2Proof.Machine.execPuntySelftestEnd pass s
  | .migrationDone => Sys2Proof.Machine.execMigrationDone s
  | .spiRead addr n => Sys2Proof.Machine.execSpiRead addr n s
  | .spiReadFixed addr n => Sys2Proof.Machine.execSpiReadFixed addr n s
  | .spiWrite addr ws => Sys2Proof.Machine.execSpiWrite addr ws s
  | .spiWriteFixed addr ws => Sys2Proof.Machine.execSpiWriteFixed addr ws s
  | .spiBadCommand cmd => Sys2Proof.Machine.execSpiBadCommand cmd s
  | .spiCsAbort inReadWait => Sys2Proof.Machine.execSpiCsAbort inReadWait s
  | .spiReadTimeout addr => Sys2Proof.Machine.execSpiReadTimeout addr s
  | .i2cCommand v => Sys2Proof.Machine.execI2cCommand v s
  | .i2cDone r => Sys2Proof.Machine.execI2cDone r s
  | .extest => Sys2Proof.Machine.execExtest s
  | .idcode => Sys2Proof.Machine.execIdcode s
  | .samplePreload => Sys2Proof.Machine.execSamplePreload s
  | .highz => Sys2Proof.Machine.execHighz s
  | .clamp => Sys2Proof.Machine.execClamp s
  | .extestPulse => Sys2Proof.Machine.execExtestPulse s
  | .extestTrain => Sys2Proof.Machine.execExtestTrain s
  | .regacc => Sys2Proof.Machine.execRegacc s
  | .bypass code => Sys2Proof.Machine.execBypass code s
  | .jtagTlr => Sys2Proof.Machine.execJtagTlr s
  | .regaccUpdate write addr v => Sys2Proof.Machine.execRegaccUpdate write addr v s
  | .uncertaintyRecompute => Sys2Proof.Machine.execUncertaintyRecompute s
  | .arrivalDeadline st => Sys2Proof.Machine.execArrivalDeadline st s
  | .allPortsDown => Sys2Proof.Machine.execAllPortsDown s
  | .nandReadScrub bad => Sys2Proof.Machine.execNandReadScrub bad s
  | .deltaAck seq => Sys2Proof.Machine.execDeltaAck seq s
  | .twinSourceTransfer m => Sys2Proof.Machine.execTwinSourceTransfer m s

end Sys2Proof.Machine
end

