-- ==== Sys2Proof/Machine/Step.lean ====
section
/-! DEFINITION. One step of the block: the command at the front of the queue, or one tick. -/

namespace Sys2Proof.Machine

/-- The command at the front leaves the queue and has its effect. On an empty queue the block idles for a tick. -/
def step (s : State) : Host.Outcome State Fault Refusal :=
  match s.pending with
  | [] => .next { s with m := idleTick s.m }
  | c :: rest => exec c { s with pending := rest }

/-- The state with the command that a word spells put in front; no word spells one. -/
def State.withFetchWord (s : State) (nbits w : Nat) : State :=
  match decodeTableWord nbits w with
  | some c => { s with pending := c :: s.pending }
  | none => s

end Sys2Proof.Machine
end

