-- ==== Sys2Proof/Safety.lean ====
section
/-! DEFINITION. The words claims are stated in: what a safe run is, what a command leaves as it was, the states claims
start from. -/

namespace Sys2Proof.Machine

/-- The step from `s` answers a next state. -/
def State.runs (s : State) : Prop := ∃ s', step s = .next s'

/-- The state with the device's state replaced and the waiting commands as they were: a command whose effect is `m'` answers
`next (s.withM m')`. -/
abbrev State.withM (s : State) (m' : Mach) : State := { s with m := m' }

/-- Every waiting command is one that a device can be sent. -/
def State.queueWf (s : State) : Prop := ∀ c ∈ s.pending, c.wf = true

/-- Every register outside `l` reads as before. -/
def regsKept (l : List Nat) (m m' : Mach) : Prop := ∀ a, a ∉ l → rd a m' = rd a m

/-- Every byte of the reservoir outside the `n` bytes from `a` reads as before. -/
def bytesKept (a n : Nat) (m m' : Mach) : Prop := ∀ c, (c < a ∨ a + n ≤ c) → resByte c m' = resByte c m

/-- The unit that holds address `a` holds nothing of an event-log entry. -/
def offLog (a : Nat) (m : Mach) : Prop :=
  a + 8 ≤ (rd (RES_PART_BASE 5) m).toNat ∨ (rd (RES_PART_BASE 5) m).toNat + 64 * 2 ^ HLT_LOG_WPTR.next.w + 8 ≤ a

/-- Every tile but `k` is as before. -/
def tilesKept (k : Nat) (m m' : Mach) : Prop := ∀ j, j ≠ k → getTile j m' = getTile j m

/-- What is stored through power cycles and what the tables of memory hold is as before: the reservoir, the staged values, the
non-volatile memories, the tiles. -/
def storesKept (m m' : Mach) : Prop :=
  m'.res = m.res ∧ m'.stage = m.stage ∧ m'.nvm = m.nvm ∧ m'.tiles = m.tiles

/-- The registers and the reservoir hold their tables in canonical form, so that equal contents are equal data. -/
def Mach.canon (m : Mach) : Prop := tabWf regReset m.regs = true ∧ Memory.wf m.res = true

/-- Session `k` of a running device that is no twin can use the directory: a peer and a bonded port, management not held, a
deck with a directory, no restore running or waiting, no poisoned line. -/
def dirReady (k : Nat) (m : Mach) : Prop :=
  coreOn m = true ∧ mgmtHeld m = false ∧ devState m ≠ 2 ∧ fon DIR_STATUS.restoring m = false ∧ m.dir.restQ = false ∧ dirOn m = true ∧
  role m ≠ 1 ∧ role m ≠ 2 ∧ sessBound k m = true ∧ sessPort k m = true ∧ ∀ p, lineBad p m = false

/-- The device has sent message `b` to session `k`, and nothing else. -/
def answered (k : Nat) (b : NatBody) (m m' : Mach) : Prop := m'.out = m.out ++ [.native k (getSess k m).txSeq b]

/-- Every place of the directory but `k` is as before. -/
def placesKept (k : Nat) (m m' : Mach) : Prop := ∀ j, j ≠ k → dirAt j m' = dirAt j m

/-- The instruction `c` stands at the PC of physical tile `t`. -/
def atPc (t : Fin 144) (c : Instr) (s : State) : Prop := (getTile t s.m).wordAtPc = tileCode c

/-- Where `c` stands at the PC, the command runs on physical tile `t`, whose tile becomes `y` with `ev` MAC-lane events counted,
halted where it had been told to halt; of everything else only the event log and the summary take note. -/
def tileLeft (t : Fin 144) (ev : Nat) (y : Tile) (c : Instr) (s : State) : Prop :=
  atPc t c s → ∃ u, exec c s = .next (s.withM u) ∧
    getTile t u = ({ y with evcount := min 0xFFFFFFFF ((getTile t s.m).evcount + ev) } : Tile).stopIfAsked ∧ tilesKept t s.m u ∧
    regsKept [HLT_LOG_WPTR, HLT_EVENTS] s.m u ∧ u.res = s.m.res ∧ u.stage = s.m.stage ∧ u.nvm = s.m.nvm

/-- The command puts physical tile `t`, a tile of yours, into FAULT with a code, at the faulting instruction. -/
def tileFaults (t : Fin 144) (code : Nat) (c : Instr) (s : State) : Prop :=
  (getTile t s.m).owner = 0 → ∃ u, exec c s = .next (s.withM u) ∧ getTile t u = (getTile t s.m).faulted code ∧
    tilesKept t s.m u ∧ regsKept [HLT_LOG_WPTR, HLT_EVENTS] s.m u ∧ u.res = s.m.res ∧ u.stage = s.m.stage ∧ u.nvm = s.m.nvm

/-- Where `c` stands at the PC, it puts the tile into FAULT with a code. -/
def tileStops (t : Fin 144) (code : Nat) (c : Instr) (s : State) : Prop := atPc t c s → tileFaults t code c s

/-- `y` is `x` after each lane `k` of `ks` has taken the exact value `v k`, saturated to 48 bits, with the tag `g k`: a
saturation shows in the tag, in the lane's bit of TILE_LANE_OVF and in lane_ovf. -/
def accTaken (ks : List Nat) (v : Nat → Int) (g : Nat → Tag × Bool) (x y : Tile) : Prop :=
  (∀ k, y.a k = if k ∈ ks then satS 48 (v k) else x.a k) ∧
  (∀ k, y.aTag k = if k ∈ ks then ((g k).1, (g k).2 || decide (satS 48 (v k) ≠ v k)) else x.aTag k) ∧
  (∀ k, y.laneOvf.testBit k = (x.laneOvf.testBit k || (decide (k ∈ ks) && decide (satS 48 (v k) ≠ v k)))) ∧
  y.events = (if ks.any fun k => decide (satS 48 (v k) ≠ v k) then x.events ||| 2#32 else x.events) ∧
  { y with acc := x.acc, accTag := x.accTag, laneOvf := x.laneOvf, events := x.events } = x

/-- `y` is `x` after a search over the candidates `cs` (value, index, tag): the best of them and of the best so far, the
lower index among equals, the tags merged, SIDX 8 further. -/
def searched (cs : List (Int × Nat × (Tag × Bool))) (x y : Tile) : Prop :=
  ((y.sVal, y.sIdx) = (x.sVal, x.sIdx) ∨ ∃ c ∈ cs, (y.sVal, y.sIdx) = (c.1, c.2.1)) ∧
  (∀ c ∈ (x.sVal, x.sIdx, x.sTag) :: cs,
    (if x.sMin then y.sVal ≤ c.1 else c.1 ≤ y.sVal) ∧ (c.1 = y.sVal → y.sIdx ≤ c.2.1)) ∧
  y.sTag = cs.foldl (fun g c => tagMerge g c.2.2) x.sTag ∧ y.sidx = (x.sidx + 8) % 65536 ∧
  { y with sVal := x.sVal, sIdx := x.sIdx, sTag := x.sTag, sidx := x.sidx } = x

/-- The offset of a buffer with a length is a multiple of the element's size (R307). -/
def offOk (b : CBuf) (z : Nat) : Prop := b.len = 0 ∨ b.off % z = 0

/-- Every element `i` of `is`, of size `z`, lies in local memory and is aligned, and so is the offset (R307). -/
def bufOk (b : CBuf) (z : Nat) (is : List Nat) : Prop :=
  (is = [] ∨ offOk b z) ∧ ∀ i ∈ is, b.elem i z < 65536 ∧ b.elem i z % z = 0

/-- The tile without the samples that wait at its ports. -/
def Tile.portless (x : Tile) : Tile := { x with in0 := [], in1 := [], out0 := [], out1 := [] }

/-- No tile's output port is routed into input port `p` of physical tile `t`. -/
def noFeeder (t : Fin 144) (p : Nat) (m : Mach) : Prop :=
  ∀ e ∈ m.tiles, ∀ o < 2, tabGet (fun _ => (0, 0, 0)) e.2.ports (2 + o) ≠ (6, (getTile t m).logical, p)

/-- A pool of kind `k` has given up one spare; memory and what is staged are as before. -/
def spareTaken (k p : Nat) (m m' : Mach) : Prop :=
  poolUsed k p m' = poolUsed k p m + 1 ∧ m'.res = m.res ∧ m'.stage = m.stage

/-- The planned substitution is over and reported, and none runs. -/
def planOver (m' : Mach) : Prop :=
  m'.hlt.running = none ∧ fon HLT_STATUS.remap_busy m' = false ∧ fon HLT_EVENTS.remap m' = true

end Sys2Proof.Machine
end

