-- ==== Sys2Proof/Certificates/Slice0/Obligations.lean ====
section
/-! DEFINITION. The statements for the provers: what the block and its commands do, rule by rule. -/

section
open Sys2Proof Sys2Proof.Machine

/-- A step takes the front command from the queue and answers what the command answers on the queue's rest. -/
def Obligations.StepRunsTheFrontCommand : Prop :=
  ∀ (s : State) (c : Instr) (rest : List Instr), step { s with pending := c :: rest } = exec c { s with pending := rest }

/-- DESIGN CHOICE (assumption 1): the idle step. -/
def Obligations.EmptyQueuePassesOneTick : Prop :=
  ∀ s : State, s.pending = [] →
    (s.m.hlt.restart = none →
      (timingOn s.m = true → step s = .next (s.withM ({ s.m with tod := s.m.tod + 2 }))) ∧
      (timingOn s.m = false → step s = .next s)) ∧
    (∀ t, s.m.hlt.restart = some t →
      (timingOn s.m = true → tick s.m + 1 < t → step s = .next (s.withM ({ s.m with tod := s.m.tod + 2 }))) ∧
      (timingOn s.m = true → t ≤ tick s.m + 1 → ∃ u, step s = .next (s.withM u) ∧ u.hlt.restart = none ∧ u.tod = s.m.tod + 2) ∧
      (timingOn s.m = false → ∃ u, step s = .next (s.withM u) ∧ u.hlt.restart = none ∧ u.tod = s.m.tod))

/-- No command of the table is refused; only operands that no device can be sent stop the block (the model's choice). -/
def Obligations.WellFormedCommandsAnswerNext : Prop :=
  ∀ (c : Instr) (s : State),
    (c.wf = true → ∃ m', exec c s = .next (s.withM m')) ∧ (c.wf = false → exec c s = .fault .malformedCommand)

/-- The invariant `State.queueWf` is kept by every step, and no run from a state that meets it ever stops. -/
def Obligations.QueueOfWellFormedCommandsDrains : Prop :=
  (∀ s : State, s.queueWf → ∃ s', step s = .next s' ∧ s'.queueWf ∧ s'.pending = s.pending.tail) ∧
  (∀ (k : Nat) (s : State), s.queueWf →
    ∃ t : State, Host.Core.run Sys2Proof.core k s = .next t ∧ t.pending = s.pending.drop k ∧ t.queueWf)

def Obligations.InvariantsHoldAtReset : Prop := State.reset.queueWf ∧ State.reset.m.canon

def Obligations.EveryStepKeepsCanonicalForm : Prop :=
  ∀ s s' : State, s.m.canon → step s = .next s' → s'.m.canon

def Obligations.ResetLeavesTheStatedValues : Prop :=
  rd GCTL_ID State.reset.m = 0x016420A1#32 ∧ rd GCTL_SCRATCH State.reset.m = 0#32 ∧ rd GCTL_IRQ_EN State.reset.m = 0x00040000#32 ∧
  rd GCTL_EVT_EN State.reset.m = 0x00020000#32 ∧ devState State.reset.m = 1 ∧
  (∀ a ∈ [GCTL_GLOBAL_EVENTS, GCTL_STATE_EVENTS, GCTL_CORE_EVENTS, GCTL_SUMMARY, BMU_EVENTS, ACQ_EVENTS, DIR_EVENTS, CLK_EVENTS,
    CAL_EVENTS, DMA_EVENTS, RES_EVENTS, EPL_EVENTS, HLT_EVENTS, IMG_EVENTS], rd a State.reset.m = 0#32) ∧
  rd GCTL_AVS_CFG State.reset.m = 0x01023828#32 ∧ rd GCTL_SLACK_THR State.reset.m = 0x03060C19#32 ∧
  (∀ a, staged a State.reset.m = none) ∧ (∀ k, getTile k State.reset.m = {}) ∧ State.reset.m.out = [] ∧
  State.reset.pending = []

/-- R15, R496. Setting addr_err is `setEv`, which touches the flag's register, the event log and the pending EVENT only. -/
def Obligations.AddressErrorsAreReported : Prop :=
  ∀ (s : State) (p : AccPath) (a n : Nat) (v : W),
    (mapOpen p a true s.m = true → n < 4 →
      exec (.registerWrite p a n v) s = .next (s.withM (setEv GCTL_GLOBAL_EVENTS.addr_err s.m))) ∧
    (mapOpen p a true s.m = true → a % 4 ≠ 0 →
      exec (.registerWrite p a n v) s = .next (s.withM (setEv GCTL_GLOBAL_EVENTS.addr_err s.m))) ∧
    (mapOpen p a true s.m = true → isRes a = false → accBad a s.m = true →
      exec (.unmappedAccess p a true) s = .next (s.withM (setEv GCTL_GLOBAL_EVENTS.addr_err s.m))) ∧
    (mapOpen p a false s.m = true → isRes a = false → accBad a s.m = true →
      exec (.unmappedAccess p a false) s =
        .next (s.withM (send (.rdata 0#32) (setEv GCTL_GLOBAL_EVENTS.addr_err s.m)))) ∧
    fon GCTL_GLOBAL_EVENTS.addr_err (setEv GCTL_GLOBAL_EVENTS.addr_err s.m) = true

/-- R495: the closed paths. -/
def Obligations.ClosedPathsHaveNoEffect : Prop :=
  ∀ (s : State) (p : AccPath) (a n : Nat) (v d : W),
    (mapOpen p a true s.m = false →
      exec (.registerWrite p a n v) s = .next s ∧ exec (.w1cWrite p a v d) s = .next s ∧
      exec (.stagedWrite p a v) s = .next s) ∧
    (mapOpen .spi a false s.m = false → a < 2 ^ 32 → a ∉ [GCTL_DEV_STATE, GCTL_STATE_EVENTS, MON_SHDN_CAUSE] →
      s.m.power ≠ .off → exec (.spiRead a 1) s = .next (s.withM (send (.spi [0#32]) s.m))) ∧
    (s.m.power ≠ .coreRun → mapOpen p a true s.m = false ∧ mapOpen p a false s.m = false) ∧
    (s.m.power ≠ .off → s.m.power ≠ .coreRun → devState s.m = 1 →
      a ∈ [GCTL_DEV_STATE, GCTL_STATE_EVENTS, MON_SHDN_CAUSE] →
      exec (.spiRead a 1) s = .next (s.withM (send (.spi [rd a s.m]) s.m)))

/-- R14, R19, R24, on registers without rules of their own. -/
def Obligations.PlainRegistersTakeTheirDefinedBits : Prop :=
  ∀ (s : State) (p : AccPath) (v : W),
    (∀ e ∈ [(GCTL_SCRATCH, 0xFFFFFFFF#32), (GCTL_IRQ_EN, 0xFFFBFFFF#32), (GCTL_EVT_EN, 0xFFFFFFFF#32),
        (GCTL_I2C_DATA_LO, 0xFFFFFFFF#32), (GCTL_I2C_DATA_HI, 0xFFFFFFFF#32), (GCTL_ANCHOR_CFG, 0xFF#32),
        (GCTL_SLACK_CFG, 0xFFFF7#32), (ACQ_HIST_CFG, wmask ACQ_HIST_CFG)],
      (mapOpen p e.1 true s.m = true → exec (.registerWrite p e.1 4 v) s =
        .next (s.withM (wr e.1 ((rd e.1 s.m &&& ~~~e.2) ||| (v &&& e.2)) s.m))) ∧
      (mapOpen .spi e.1 false s.m = true → staged e.1 s.m = none →
        exec (.spiRead e.1 1) s = .next (s.withM (send (.spi [rd e.1 s.m]) s.m)))) ∧
    (∀ a ∈ [GCTL_ID, GCTL_UID_LO, GCTL_UID_HI, GCTL_SUMMARY, GCTL_DEV_STATE, GCTL_QUAD_STATE, GCTL_CORE_STATUS, BMU_STATUS],
      mapOpen p a true s.m = true → exec (.registerWrite p a 4 v) s = .next s)

/-- R20: `sets` are the bits that the device sets in the cycle of the write `v`. -/
def Obligations.StickyBitsClearByWritingOne : Prop :=
  ∀ (s : State) (p : AccPath) (v sets : W),
    ∀ e ∈ [(GCTL_GLOBAL_EVENTS, 5), (GCTL_STATE_EVENTS, 7), (GCTL_CORE_EVENTS, 11), (BMU_EVENTS, 11), (RES_EVENTS, 13),
        (CLK_EVENTS, 16)],
      mapOpen p e.1 true s.m = true →
      ∃ t, exec (.w1cWrite p e.1 v sets) s = .next (s.withM t) ∧
        (∀ i < e.2, (rd e.1 t).getLsbD i = (sets.getLsbD i || ((rd e.1 s.m).getLsbD i && !v.getLsbD i))) ∧
        regsKept [e.1, HLT_LOG_WPTR, HLT_EVENTS] s.m t ∧ storesKept s.m t

/-- R21 to R23. `stageStopped` is R23's condition. -/
def Obligations.StagedWritesWaitForTheBoundary : Prop :=
  ∀ (s : State) (p : AccPath) (v w : W) (a : Nat), (a = ACQ_CFG ∨ a = ACQ_WIN ∨ ∃ n < 64, a = QUAD_PD_CTRL n) →
    (mapOpen p a true s.m = true → stageStopped a s.m = false →
      exec (.stagedWrite p a v) s = .next (s.withM (setStage a (some (v &&& wmask a)) s.m)) ∧
      staged a (setStage a (some (w &&& wmask a)) (setStage a (some (v &&& wmask a)) s.m)) = some (w &&& wmask a)) ∧
    (mapOpen .spi a false s.m = true → staged a s.m = some v →
      exec (.spiRead a 1) s = .next (s.withM (send (.spi [v ||| 0x80000000#32]) s.m))) ∧
    (mapOpen p a true s.m = true → stageStopped a s.m = true →
      exec (.stagedWrite p a v) s = .next (s.withM (wr a (v &&& wmask a) (setStage a none s.m))))

/-- R497 to R499. -/
def Obligations.SpiFramesRunWordByWord : Prop :=
  ∀ (s : State), mapOpen .spi GCTL_SCRATCH true s.m = true →
    (∀ a ∈ [GCTL_SCRATCH, GCTL_UID_LO, GCTL_UID_HI], staged a s.m = none) →
    (∀ v w : W, exec (.spiWrite GCTL_I2C_DATA_LO [v, w]) s =
      .next (s.withM (wr GCTL_I2C_DATA_HI w (wr GCTL_I2C_DATA_LO v s.m)))) ∧
    (∀ (l : List W) (v : W), ∃ t, exec (.spiWriteFixed GCTL_SCRATCH (l ++ [v])) s = .next (s.withM t) ∧
      rd GCTL_SCRATCH t = v ∧ regsKept [GCTL_SCRATCH] s.m t ∧ storesKept s.m t ∧ t.out = s.m.out) ∧
    exec (.spiRead GCTL_UID_LO 2) s = .next (s.withM (send (.spi [rd GCTL_UID_LO s.m, rd GCTL_UID_HI s.m]) s.m)) ∧
    (∀ n, exec (.spiReadFixed GCTL_SCRATCH n) s =
      .next (s.withM (send (.spi (List.replicate n (rd GCTL_SCRATCH s.m))) s.m))) ∧
    (∀ c, c ∉ [0x03#8, 0x13#8, 0x02#8, 0x12#8] →
      exec (.spiBadCommand c) s = .next (s.withM (setEv GCTL_GLOBAL_EVENTS.spi_err s.m))) ∧
    exec (.spiCsAbort false) s = .next (s.withM (setEv GCTL_GLOBAL_EVENTS.spi_err s.m)) ∧
    exec (.spiCsAbort true) s = .next s ∧
    exec (.spiReadTimeout GCTL_SCRATCH) s =
      .next (s.withM (send (.spi [0#32]) (setEv GCTL_GLOBAL_EVENTS.spi_timeout s.m)))

/-- R500, R501. -/
def Obligations.I2cTransactionsStartAndEnd : Prop :=
  ∀ (s : State) (v : W), reach GCTL_I2C_CMD s.m = true →
    (wfld v 16 16 = 0x4C29 → fon GCTL_I2C_STATUS.busy s.m = false → wfld v 8 4 ≤ 8 → wfld v 12 4 ≤ 8 →
      0 < wfld v 8 4 + wfld v 12 4 →
      exec (.i2cCommand v) s = .next (s.withM (send (.i2c (v &&& 0xFFFF#32)
          ((leBytes 4 (rd GCTL_I2C_DATA_LO s.m).toNat ++ leBytes 4 (rd GCTL_I2C_DATA_HI s.m).toNat).take (wfld v 8 4)))
        (wr GCTL_I2C_STATUS 1#32 (wr GCTL_I2C_CMD (v &&& 0xFF7F#32) s.m))))) ∧
    (wfld v 16 16 ≠ 0x4C29 → exec (.i2cCommand v) s = .next (s.withM (setEv GCTL_GLOBAL_EVENTS.i2c_err s.m))) ∧
    (∀ n : Fin 16, fon GCTL_I2C_STATUS.busy s.m = true →
      ∃ t, exec (.i2cDone ⟨false, false, false, false, ⟨n.val, by omega⟩, []⟩) s = .next (s.withM t) ∧
        fon GCTL_I2C_STATUS.busy t = false ∧ fget GCTL_I2C_STATUS.ndone t = n.val ∧
        regsKept [GCTL_I2C_STATUS] s.m t ∧ storesKept s.m t ∧ t.out = s.m.out) ∧
    (fon GCTL_I2C_STATUS.busy s.m = true →
      ∃ t, exec (.i2cDone ⟨true, false, false, false, 0, []⟩) s = .next (s.withM t) ∧
        fon GCTL_I2C_STATUS.busy t = false ∧ fon GCTL_I2C_STATUS.nack t = true ∧
        fon GCTL_GLOBAL_EVENTS.i2c_err t = true ∧
        regsKept [GCTL_I2C_STATUS, GCTL_GLOBAL_EVENTS, HLT_LOG_WPTR, HLT_EVENTS] s.m t ∧ storesKept s.m t)

/-- R502 to R504. -/
def Obligations.JtagInstructionsTakeEffect : Prop :=
  ∀ (s : State), s.m.power ≠ .off → s.m.jtag.effect = false →
    exec .samplePreload s = .next (s.withM ({ s.m with jtag := { s.m.jtag with ir := 0x02 } })) ∧
    exec .regacc s = .next (s.withM ({ s.m with jtag := { s.m.jtag with ir := 0x10 } })) ∧
    exec .idcode s = .next (s.withM (send (.rdata 0x16420DE7#32) { s.m with jtag := { s.m.jtag with ir := 0x01 } })) ∧
    exec .jtagTlr s = .next (s.withM ({ s.m with jtag := { s.m.jtag with ir := 0x01 } })) ∧
    (∀ c : BitVec 8, drivesPins c.toNat = false →
      exec (.bypass c) s = .next (s.withM ({ s.m with jtag := { s.m.jtag with ir := c.toNat } }))) ∧
    (∀ e ∈ [(Instr.extest, 0x00), (.highz, 0x03), (.clamp, 0x04), (.extestPulse, 0x05), (.extestTrain, 0x06)],
      (devState s.m = 1 ∨ devState s.m = 2 ∨ devState s.m = 3 →
        exec e.1 s = .next (s.withM ({ s.m with jtag := { s.m.jtag with ir := e.2, effect := true } }))) ∧
      (4 ≤ devState s.m → devState s.m ≤ 6 → s.m.power = .coreRun →
        exec e.1 s = .next (s.withM (setEv GCTL_GLOBAL_EVENTS.jtag_refused { s.m with jtag := { s.m.jtag with ir := 0xFF } })))) ∧
    (s.m.jtag.ir = 0x10 → s.m.jtag.done = true → mapOpen .jtag GCTL_SCRATCH true s.m = true →
      (∀ v : W, ∃ t, exec (.regaccUpdate true GCTL_SCRATCH v) s = .next (s.withM t) ∧ rd GCTL_SCRATCH t = v ∧
        regsKept [GCTL_SCRATCH] s.m t ∧ storesKept s.m t ∧ t.jtag.done = true) ∧
      (∀ v : W, staged GCTL_SCRATCH s.m = none → exec (.regaccUpdate false GCTL_SCRATCH v) s = .next (s.withM (send (.rdata (rd GCTL_SCRATCH s.m))
          { s.m with jtag := { s.m.jtag with addr := GCTL_SCRATCH, data := rd GCTL_SCRATCH s.m, done := true } }))))

def Obligations.ReplacedPinInstructionsReset : Prop :=
  ∀ (s : State), s.m.power ≠ .off →
    (s.m.jtag.effect = false → ∀ e ∈ [Instr.extest, .highz, .clamp, .extestPulse, .extestTrain],
      (∃ t, exec e s = .next (s.withM t) ∧
        (t.jtag.effect = true ↔ devState s.m = 1 ∨ devState s.m = 2 ∨ devState s.m = 3) ∧
        (t.jtag.effect = false → t.jtag.ir = 0xFF) ∧
        (4 ≤ devState s.m → devState s.m ≤ 6 → s.m.power = .coreRun → fon GCTL_GLOBAL_EVENTS.jtag_refused t = true))) ∧
    (s.m.jtag.effect = true → s.m.jtag.ir ≠ 0x10 → exec .regacc s = .next (s.withM (setJtag (fun x => { x with ir := 0x10 }) (softReset 7 { s.m with jtag := { s.m.jtag with effect := false } })))) ∧
    (s.m.jtag.effect = true → exec .jtagTlr s = .next (s.withM (setJtag (fun x => { x with ir := 1 }) (softReset 7 { s.m with jtag := { s.m.jtag with effect := false } }))))

def Obligations.ManagementRequestsAreAnswered : Prop :=
  ∀ (s : State) (k : Fin 4) (v : W), s.m.power = .coreRun →
    (mgmtHeld s.m = false → sessBound k.val s.m = true → sessPort k.val s.m = true →
      (mapOpen .inband GCTL_SCRATCH true s.m = true →
        (∃ t d, exec (.mgmtReq k [⟨true, BitVec.ofNat 32 GCTL_SCRATCH, v⟩]) s = .next (s.withM t) ∧
          rd GCTL_SCRATCH t = v ∧ regsKept [GCTL_SCRATCH] s.m t ∧ storesKept s.m t ∧
          t.out = s.m.out ++ [.native k.val (getSess k.val s.m).txSeq (.mgmtResp [(0, d)])]) ∧
        (staged GCTL_SCRATCH s.m = none → exec (.mgmtReq k [⟨false, BitVec.ofNat 32 GCTL_SCRATCH, v⟩]) s = .next (s.withM (sendNat k.val (.mgmtResp [(0, rd GCTL_SCRATCH s.m)]) s.m)))) ∧
      (devState s.m = 2 → ∃ t d, exec (.mgmtReq k [⟨true, BitVec.ofNat 32 GCTL_SCRATCH, v⟩]) s = .next (s.withM t) ∧
        t.regs = s.m.regs ∧ storesKept s.m t ∧
        t.out = s.m.out ++ [.native k.val (getSess k.val s.m).txSeq (.mgmtResp [(2, d)])])) ∧
    (mgmtHeld s.m = true → (getSess k.val s.m).held.length < 8 → ∀ ops, mgmtOk ops = true →
      exec (.mgmtReq k ops) s = .next (s.withM (setSess k.val { getSess k.val s.m with held := (getSess k.val s.m).held ++ [.mgmtReq k ops] } s.m)))

def Obligations.DeviceCommandsStartTransitions : Prop :=
  ∀ (s : State), reach GCTL_DEV_CMD s.m = true →
    (fon GCTL_DEV_STATE.busy s.m = false →
      (devState s.m = 4 → exec .goStandby s =
        .next (s.withM (fset GCTL_DEV_STATE.busy 1 { s.m with trans := some .toStandby, transDue := false }))) ∧
      (devState s.m ≠ 4 → exec .goStandby s = .next (s.withM (setEv GCTL_STATE_EVENTS.state_err s.m))) ∧
      (devState s.m = 3 → (∀ q < 4, (getQ q s.m).idleTarget = false) → exec .goWarm s =
        .next (s.withM (fset GCTL_DEV_STATE.busy 1
          { s.m with autoWarm := false, autoActive := false, trans := some .toWarm, transDue := false }))) ∧
      (devState s.m = 5 ∨ devState s.m = 6 → exec .goWarm s =
        .next (s.withM (fset GCTL_DEV_STATE.busy 1 { s.m with trans := some .toWarmBack, transDue := false }))) ∧
      (devState s.m ∉ [3, 5, 6] → exec .goWarm s = .next (s.withM (setEv GCTL_STATE_EVENTS.state_err s.m))) ∧
      (devState s.m = 4 → activeOk s.m = true → exec .goActive s =
        .next (s.withM (fset GCTL_DEV_STATE.busy 1 { s.m with trans := some .toActive, transDue := false }))) ∧
      (devState s.m ≠ 4 ∨ activeOk s.m = false →
        exec .goActive s = .next (s.withM (setEv GCTL_STATE_EVENTS.state_err s.m))) ∧
      (devState s.m = 6 → exec .clearDegraded s =
        .next (s.withM (fset GCTL_DEV_STATE.busy 1 { s.m with trans := some .retest, transDue := false }))) ∧
      (devState s.m ≠ 6 → exec .clearDegraded s = .next (s.withM (setEv GCTL_STATE_EVENTS.state_err s.m)))) ∧
    (fon GCTL_DEV_STATE.busy s.m = true → ∀ c ∈ [Instr.goStandby, .goWarm, .goActive, .clearDegraded, .softReset],
      exec c s = .next (s.withM (setEv GCTL_STATE_EVENTS.state_err s.m))) ∧
    (∀ v : W, wfld v 16 16 ≠ 0x6A3C ∨ 5 < wfld v 0 4 →
      exec (.devCmdInvalid v) s = .next (s.withM (setEv GCTL_STATE_EVENTS.state_err s.m)))

def Obligations.SoftResetReturnsToBoot : Prop :=
  ∀ (s : State), reach GCTL_DEV_CMD s.m = true → fon GCTL_DEV_STATE.busy s.m = false → hasToken s.m = false →
    ∃ t, exec .softReset s = .next (s.withM t) ∧ devState t = 1 ∧ fget GCTL_DEV_STATE.cause t = 7 ∧
      fget GCTL_DEV_STATE.prev t = devState s.m ∧ t.power = .vddGood ∧ t.tod = 0 ∧ t.stage = [] ∧ t.tiles = [] ∧ t.res = [] ∧
      t.quads = [] ∧ rd GCTL_IRQ_EN t = 0x00040000#32 ∧ rd GCTL_EVT_EN t = 0x00020000#32 ∧
      (∀ a ∈ [GCTL_SCRATCH, GCTL_SLACK_THR, GCTL_AVS_CFG, BMU_CFG, ACQ_CFG, CAL_CTRL, DIR_CFG, CLK_SYNC_CFG], rd a t = regReset a) ∧
      t.nvm = { s.m.nvm with program := nvmWriting s.m, snapCut := snapCutOff s.m } ∧ t.out = s.m.out

def Obligations.PowerEventsMoveTheCore : Prop :=
  ∀ (s : State),
    (devState s.m ≠ 7 → s.m.power = .off ∨ s.m.power = .held → exec .poresetRelease s =
      .next (s.withM (send (.avs (avsFrame (fget GCTL_AVS_STATUS.req_code s.m)))
        { wr GCTL_DEV_STATE 0x1#32 s.m with power := .waitCore, present := true, poreset := false }))) ∧
    (s.m.power = .waitCore → exec .vddCorePowerGood s = .next (s.withM { s.m with power := .vddGood })) ∧
    (s.m.power = .waitCore → exec .vddTimeout s = .next (s.withM (setEv GCTL_STATE_EVENTS.vdd_timeout s.m))) ∧
    (s.m.power = .coreRun → devState s.m ≠ 7 → exec .vddCoreBrownout s =
      .next (s.withM { softReset 7 s.m with power := .waitCore })) ∧
    exec .nandProgramComplete s = .next (s.withM { s.m with nvm := { s.m.nvm with program := false } }) ∧
    (∃ t, exec .aonRailLoss s = .next (s.withM t) ∧ devState t = 0 ∧ t.power = .off ∧
      t.nvm = { s.m.nvm with program := false, snapCut := snapCutOff s.m } ∧ t.tiles = [] ∧ t.res = [] ∧ t.stage = [] ∧ t.sess = [] ∧
      rd GCTL_UID_LO t = rd GCTL_UID_LO s.m ∧ rd GCTL_SCRATCH t = 0#32) ∧
    (devState s.m = 7 → exec .poresetAssert s = .next (s.withM { s.m with poreset := true })) ∧
    (devState s.m ≠ 7 → s.m.power ≠ .off → hasToken s.m = false →
      ∃ t, exec .poresetAssert s = .next (s.withM t) ∧ devState t = 0 ∧ t.power = .held ∧ t.poreset = true ∧
        t.tiles = [] ∧ t.res = [] ∧ t.stage = [] ∧ rd MON_SHDN_CAUSE t = rd MON_SHDN_CAUSE s.m)

def Obligations.HotPlugRemovalTurnsOff : Prop :=
  ∀ (s : State),
    (s.m.power = .off → exec .hotPlugRemoval s = .next (s.withM { s.m with present := false })) ∧
    (s.m.power ≠ .off → hasToken s.m = false →
      ∃ t, exec .hotPlugRemoval s = .next (s.withM t) ∧ t.present = false ∧ t.power = .off ∧ devState t = 0 ∧
        t.tiles = [] ∧ t.res = [] ∧ t.stage = [] ∧
        (nvmWriting s.m = false → s.m.nvm.program = false → nandOut s.m = false →
          (t.nvm.plog.head?.map fun e => e.code) = some 0x0401))

def Obligations.BootEndsInStandbyOrRecovery : Prop :=
  ∀ (s : State),
    (s.m.power = .vddGood → devState s.m = 1 → ∀ (b : BitVec 2) (ok : Bool), ∃ t,
      exec (.coreResetRelease true b ok) s = .next (s.withM t) ∧ t.power = .coreRun ∧ devState t = 2 ∧
        fget GCTL_DEV_STATE.cause t = 3 ∧ fget GCTL_DEV_STATE.prev t = 1 ∧ t.res = s.m.res ∧ t.stage = s.m.stage) ∧
    (s.m.power = .vddGood → devState s.m = 1 → ∀ ok : Bool, ∃ t,
      exec (.coreResetRelease false 0#2 ok) s = .next (s.withM t) ∧ t.power = .coreRun ∧ devState t = 2 ∧
        fget GCTL_DEV_STATE.cause t = 4) ∧
    (s.m.power = .coreRun → devState s.m = 1 → fon IMG_STATUS.migrating s.m = false → s.m.img.trialRun = false →
      rd GCTL_BOOT_CFG s.m = 0#32 → rd DIR_SNAP_CFG s.m = 0#32 → ∃ t,
      exec .bootComplete s = .next (s.withM t) ∧ devState t = 3 ∧ fget GCTL_DEV_STATE.cause t = 2 ∧ t.tod = 0 ∧
        t.frameNo = 0 ∧ t.slot = 0 ∧ t.res = s.m.res ∧ t.tiles = s.m.tiles)

def Obligations.TransitionsEndAtTheirBoundary : Prop :=
  ∀ (s : State),
    (s.m.trans = some .toWarm → s.m.transDue = true → s.m.autoWarm = false → ∃ t, exec .warmEntry s = .next (s.withM t) ∧
      devState t = 4 ∧ fget GCTL_DEV_STATE.prev t = devState s.m ∧ fget GCTL_DEV_STATE.cause t = 1 ∧
      fon GCTL_DEV_STATE.busy t = false ∧ t.trans = none ∧ (∀ q < 4, (getQ q t).idleTarget = false) ∧
      t.res = s.m.res ∧ t.tiles = s.m.tiles) ∧
    (s.m.trans = some .toActive → s.m.transDue = true → activeOk s.m = true → s.m.twin.takeover = none → s.m.twin.ownGo = false →
      ∃ t, exec .activeEntry s = .next (s.withM t) ∧
        devState t = (if fon GCTL_DEV_STATE.replace s.m then 6 else 5) ∧ fget GCTL_DEV_STATE.cause t = 1 ∧
        fon GCTL_DEV_STATE.busy t = false ∧ t.trans = none ∧ (hasToken s.m = false → t.twin.taking = true) ∧
        t.res = s.m.res ∧ t.tiles = s.m.tiles) ∧
    (s.m.trans = some .toActive → s.m.transDue = true → activeOk s.m = false → s.m.twin.takeover = none →
      exec .activeEntry s = .next (s.withM (setEv GCTL_STATE_EVENTS.state_err
        (fset GCTL_DEV_STATE.busy 0 { s.m with trans := none, transDue := false })))) ∧
    (s.m.trans = some .toWarmBack → s.m.transDue = true → ∃ t, exec .warmReturn s = .next (s.withM t) ∧
      devState t = 4 ∧ fon GCTL_DEV_STATE.busy t = false ∧ t.trans = none ∧ t.twin.taking = false ∧
      t.res = s.m.res ∧ t.tiles = s.m.tiles) ∧
    (s.m.trans = some .toStandby → (∀ q < 4, quadState q s.m = 0) → ∃ t, exec .standbyReturn s = .next (s.withM t) ∧
      devState t = 3 ∧ fon GCTL_DEV_STATE.busy t = false ∧ t.trans = none ∧ t.res = s.m.res ∧ t.tiles = s.m.tiles) ∧
    (s.m.trans = some .retest → tableCauses s.m = 0 → ∃ t, exec (.retestEnd 0#8) s = .next (s.withM t) ∧
      devState t = 5 ∧ fget GCTL_DEV_STATE.cause t = 9 ∧ fon GCTL_DEV_STATE.replace t = false ∧
      fon HLT_STATUS.replace t = false ∧ rd HLT_REPLACE t = 0#32 ∧ t.replaceN = false ∧
      t.res = s.m.res ∧ t.tiles = s.m.tiles)

def Obligations.QuadrantRequestsAreHeldOrTaken : Prop :=
  ∀ (s : State) (v : W),
    (reach GCTL_QUAD_REQ s.m = true → devState s.m = 3 → s.m.trans = none → s.m.clk.mpllFailed = false →
      (∀ q < 4, quadState q s.m = 0 ∧ (getQ q s.m).qpllFailed = false ∧ wfld v (2 * q) 2 ≤ 1) →
      ∃ t, exec (.quadReqWrite v) s = .next (s.withM t) ∧
        (∀ q < 4, (getQ q t).idleTarget = decide (wfld v (2 * q) 2 = 1) ∧ (getQ q t).pend = none ∧
          fget (GCTL_QUAD_REQ.req_q q) t = wfld v (2 * q) 2) ∧
        fon GCTL_QUAD_REQ.pending t = false ∧ regsKept [GCTL_QUAD_REQ] s.m t ∧ storesKept s.m t) ∧
    (reach GCTL_QUAD_REQ s.m = true → timingOn s.m = true → (∀ q < 4, quadState q s.m ≠ 0) →
      ∃ t, exec (.quadReqWrite v) s = .next (s.withM t) ∧
        (∀ q < 4, (getQ q t).pend = some (wfld v (2 * q) 2, v.getLsbD (8 + q)) ∧ quadState q t = quadState q s.m) ∧
        fon GCTL_QUAD_REQ.pending t = true ∧ regsKept [GCTL_QUAD_REQ] s.m t ∧ storesKept s.m t) ∧
    (∀ q : Fin 4, (getQ q.val s.m).phase = .drain → ¬ (quadState q.val s.m = 3 ∧ (getQ q.val s.m).target = 3) →
      ∃ t, exec (.quadDrainComplete q) s = .next (s.withM t) ∧ (getQ q.val t).phase = .rest ∧
        (getQ q.val t).target = (getQ q.val s.m).target ∧ (∀ r, r ≠ q.val → getQ r t = getQ r s.m) ∧
        regsKept [GCTL_QUAD_STATE] s.m t ∧ storesKept s.m t) ∧
    (reach GCTL_LOOPBACK s.m = true →
      (∀ q < 4, (quadState q s.m = 1 ∨ quadState q s.m = 3) ∧ wfld v (4 * q) 3 ≤ 3) →
      ∃ t, exec (.loopbackWrite v) s = .next (s.withM t) ∧ (∀ q < 4, fget (GCTL_LOOPBACK.lb_q q) t = wfld v (4 * q) 3) ∧
        regsKept (GCTL_LOOPBACK :: (List.range 8).map fun o => QUAD_RX_STATUS (.obs (toObs o))) s.m t ∧ storesKept s.m t) ∧
    (reach GCTL_LOOPBACK s.m = true → ∀ q < 4, quadState q s.m = 2 → wfld v (4 * q) 3 ≠ 0 →
      ∃ t, exec (.loopbackWrite v) s = .next (s.withM t) ∧ fget (GCTL_LOOPBACK.lb_q q) t = fget (GCTL_LOOPBACK.lb_q q) s.m ∧
        fon GCTL_STATE_EVENTS.loop_refused t = true ∧ storesKept s.m t)

def Obligations.AvsFramesHaveOddParity : Prop :=
  ∀ c < 256, (avsFrame c).extractLsb' 12 4 = 0xA#4 ∧ (avsFrame c).extractLsb' 4 8 = BitVec.ofNat 8 c ∧
    (avsFrame c).extractLsb' 1 3 = 0#3 ∧ ((List.range 16).filter fun i => (avsFrame c).getLsbD i).length % 2 = 1

def Obligations.VoltageRequestStaysInItsLimits : Prop :=
  ∀ (s : State) (v : W), reach GCTL_AVS_CFG s.m = true →
    (wfld v 8 8 < wfld v 0 8 → exec (.avsCfgWrite v) s = .next (s.withM (setEv GCTL_CORE_EVENTS.cfg_err s.m))) ∧
    (wfld v 0 8 ≤ wfld v 8 8 → ∃ t, exec (.avsCfgWrite v) s = .next (s.withM t) ∧
      rd GCTL_AVS_CFG t = v &&& 0x01FFFFFF#32 ∧ regsKept [GCTL_AVS_CFG, GCTL_AVS_STATUS, GCTL_CORE_STATUS] s.m t ∧
      storesKept s.m t ∧
      avsFloor t = min 56 (max 24 (wfld v 0 8)) ∧ avsCeil t = min 56 (max 24 (wfld v 8 8)) ∧
      (timingOn s.m = true → v.getLsbD 24 = true →
        avsFloor t ≤ fget GCTL_AVS_STATUS.req_code t ∧ fget GCTL_AVS_STATUS.req_code t ≤ avsCeil t) ∧
      (24 ≤ fget GCTL_AVS_STATUS.req_code s.m → fget GCTL_AVS_STATUS.req_code s.m ≤ 56 →
        24 ≤ fget GCTL_AVS_STATUS.req_code t ∧ fget GCTL_AVS_STATUS.req_code t ≤ 56))

def Obligations.SlackAndVoltageEventsAct : Prop :=
  ∀ (s : State),
    (∀ v : W, reach GCTL_SLACK_THR s.m = true →
      (wfld v 24 8 < wfld v 16 8 ∧ wfld v 16 8 < wfld v 8 8 ∧ wfld v 8 8 < wfld v 0 8 →
        exec (.slackThrWrite v) s = .next (s.withM (wr GCTL_SLACK_THR v s.m))) ∧
      (¬ (wfld v 24 8 < wfld v 16 8 ∧ wfld v 16 8 < wfld v 8 8 ∧ wfld v 8 8 < wfld v 0 8) →
        exec (.slackThrWrite v) s = .next (s.withM (setEv GCTL_CORE_EVENTS.cfg_err s.m)))) ∧
    (∀ obs : List PipeObs, pipesOk obs = true → timingOn s.m = true → ∃ t, exec (.slackWindowEnd obs) s = .next (s.withM t) ∧
      fget GCTL_CORE_STATUS.min_slack t = (lowest (slackList obs s.m)).1 ∧
      fget GCTL_CORE_STATUS.min_pipe t = (lowest (slackList obs s.m)).2 ∧
      (slackList obs s.m ≠ [] → fon GCTL_SLACK_CFG.ladder_en s.m = true →
        (lowest (slackList obs s.m)).1 < fget GCTL_SLACK_THR.s_raise s.m → fon GCTL_AVS_CFG.avs_en s.m = true →
        fget GCTL_AVS_STATUS.req_code s.m < avsCeil s.m → avsFloor s.m ≤ fget GCTL_AVS_STATUS.req_code s.m →
        s.m.lad.noresp = false → fon GCTL_CORE_EVENTS.avs_raise t = true ∧
          fget GCTL_AVS_STATUS.req_code t = min (avsCeil s.m) (fget GCTL_AVS_STATUS.req_code s.m + avsStep s.m)) ∧
      storesKept s.m t) ∧
    (s.m.power = .coreRun → devState s.m ≠ 7 →
      exec .avsRepeat s = .next (s.withM (send (.avs (avsFrame (fget GCTL_AVS_STATUS.req_code s.m))) s.m))) ∧
    (monCompares s.m = true → avsMatches s.m = false →
      exec .avsNoresp s = .next (s.withM (setEv GCTL_CORE_EVENTS.avs_noresp { s.m with lad := { s.m.lad with noresp := true } }))) ∧
    (monCompares s.m = false ∨ avsMatches s.m = true → exec .avsNoresp s = .next s)

def Obligations.StoppedClocksFreezeBridges : Prop :=
  ∀ (s : State) (d : Domain),
    (domKey d ∉ s.m.frozen → exec (.domainClockStop d) s = .next (s.withM { s.m with frozen := domKey d :: s.m.frozen })) ∧
    (domKey d ∈ s.m.frozen → exec (.domainClockStop d) s = .next s) ∧
    (domKey d ∉ s.m.frozen → exec (.bridgeFlush d) s = .next s) ∧
    (domKey d ∈ s.m.frozen → ∃ t, exec (.bridgeFlush d) s = .next (s.withM t) ∧ domKey d ∉ t.frozen ∧ domKey d ∈ t.flush ∧
      (∀ k ∈ domIn (domKey d), getIn k t = []) ∧ t.regs = s.m.regs ∧ storesKept s.m t)

/-- One command stands for one boundary (the model's choice, assumption 1). -/
def Obligations.SlotBoundariesMoveTheGrid : Prop :=
  ∀ (s : State),
    (timingOn s.m = false → exec .slotBoundary s = .next s ∧ exec .frameBoundary s = .next s ∧ exec .frameTableSwitch s = .next s) ∧
    (timingOn s.m = true → lastSlot s.m = false →
      (∃ t, exec .slotBoundary s = .next (s.withM t) ∧ t.slot = s.m.slot + 1 ∧ t.frameNo = s.m.frameNo ∧
        t.frameStart = s.m.frameStart ∧ t.ftab = s.m.ftab ∧
        t.slotStart = s.m.frameStart + (s.m.ftab.slots.getD (s.m.slot + 1) {}).start ∧ t.slotStart ≤ tick t) ∧
      exec .frameBoundary s = .next s ∧ exec .frameTableSwitch s = .next s) ∧
    (timingOn s.m = true → lastSlot s.m = true → ∀ c ∈ [Instr.slotBoundary, .frameBoundary],
      ∃ t, exec c s = .next (s.withM t) ∧ t.slot = 0 ∧ t.frameNo = (s.m.frameNo + 1) % 2 ^ 24 ∧
        t.frameStart = s.m.frameStart + s.m.ftab.len ∧ t.slotStart = t.frameStart ∧ t.frameStart ≤ tick t ∧
        (s.m.clk.fsPend = none → t.ftab = s.m.ftab)) ∧
    (timingOn s.m = true → lastSlot s.m = true → ∀ x tab, s.m.clk.fsPend = some (x, tab) →
      (x ≤ nextFrameTick s.m → ∀ c ∈ [Instr.slotBoundary, .frameBoundary, .frameTableSwitch],
        ∃ t, exec c s = .next (s.withM t) ∧ t.slot = 0 ∧ t.frameNo = (s.m.frameNo + 1) % 2 ^ 24 ∧
          t.frameStart = nextFrameTick s.m ∧ t.ftab = tab) ∧
      (nextFrameTick s.m < x → exec .frameTableSwitch s = .next s)) ∧
    (s.m.clk.fsPend = none → exec .frameTableSwitch s = .next s)

def Obligations.GridAlignsToSync : Prop :=
  ∀ (s : State),
    (∀ adc ph, ¬ (fget CLK_SYNC_CFG.sync_mode s.m = 1 ∧ timingOn s.m = true) → exec (.syncAlign adc ph) s = .next s) ∧
    (∀ adc ph, fget CLK_SYNC_CFG.sync_mode s.m = 1 → timingOn s.m = true →
      let p := adc + fget CLK_SYNC_CFG.sync_dly s.m
      let per := max 1 (adcPerTick s.m)
      let tod := (rd CLK_SYNC_TOD_LO s.m).toNat + 2 ^ 32 * (rd CLK_SYNC_TOD_HI s.m).toNat
      let fn := fget CLK_SYNC_FN.fn s.m
      ∃ t, exec (.syncAlign adc ph) s = .next (s.withM t) ∧ fon CLK_EVENTS.sync_done t = true ∧ t.clk.aligned = true ∧
        (¬ (p % per = 0 ∧ inPlace (p / per) tod fn s.m = true) →
          t.tod = 2 * tod ∧ t.frameNo = fn ∧ t.slot = 0 ∧ t.frameStart = tod ∧ t.slotStart = tod) ∧
        (p % per = 0 → inPlace (p / per) tod fn s.m = true →
          t.tod = s.m.tod ∧ t.frameNo = s.m.frameNo ∧ t.slot = s.m.slot ∧ t.frameStart = s.m.frameStart ∧
          fget CLK_SYNC_CFG.sync_mode t = 0 ∧ fget CLK_SYNC_STATUS.phase t = ph.toNat ∧
          regsKept [CLK_SYNC_CFG, CLK_SYNC_STATUS, CLK_EVENTS, HLT_LOG_WPTR, HLT_EVENTS] s.m t ∧ storesKept s.m t)) ∧
    ((∀ c, s.m.clk.classB = some c → c.running = true ∨ s.m.frameStart < c.start) → exec .classBStart s = .next s) ∧
    (∀ c, s.m.clk.classB = some c → c.running = false → c.start ≤ s.m.frameStart →
      tabGet (fun _ => []) s.m.img.deck (4 * 2 + c.plan + 1) = [] →
      ∃ t, exec .classBStart s = .next (s.withM t) ∧ t.clk.classB = some { c with running := true } ∧ t.clk.hold = true ∧
        fget CLK_STATUS.mpll t = (if c.useSlot then 2 else 1) ∧ fget CLK_STATUS.tod_traceable t = 0 ∧
        t.clk.lockSlot = c.slot ∧ t.frameNo = s.m.frameNo ∧ t.slot = s.m.slot ∧ storesKept s.m t)

def Obligations.PowerDownsAndSelfTestsEnd : Prop :=
  ∀ (s : State),
    (∀ q : Fin 4, (getQ q.val s.m).phase ≠ .powerDown → exec (.quadPowerDownComplete q) s = .next s) ∧
    (∀ q : Fin 4, (getQ q.val s.m).phase = .powerDown → (getQ q.val s.m).pend = none → ∃ t,
      exec (.quadPowerDownComplete q) s = .next (s.withM t) ∧ quadState q.val t = 0 ∧ (getQ q.val t).phase = .rest ∧
        fget (GCTL_LOOPBACK.lb_q q.val) t = 0 ∧ fget (CLK_STATUS.qpll_q q.val) t = 0 ∧ gatedQ q.val t = false ∧
        (∀ n ∈ pathsOf q.val, getIn n t = [] ∧ getOut (96 + n) t = {}) ∧ (getFes q.val t).acts = [] ∧ t.tiles = s.m.tiles) ∧
    (s.m.img.pause = false → s.m.img.trialRun = false → ∀ b, exec (.puntySelftestEnd b) s = .next s) ∧
    (s.m.img.pause = false → s.m.img.trialRun = true → fget IMG_STATUS.running_bank s.m ≤ 1 → ∃ t,
      exec (.puntySelftestEnd true) s = .next (s.withM t) ∧ t.img.trialRun = false ∧
        (getBank (fget IMG_STATUS.running_bank s.m) t).state = 1 ∧
        (getBank (fget IMG_STATUS.running_bank s.m) t).commits = (getBank (1 - fget IMG_STATUS.running_bank s.m) s.m).commits + 1 ∧
        t.res = s.m.res ∧ t.tiles = s.m.tiles ∧ t.stage = s.m.stage) ∧
    (∀ k, s.m.img.pause = true → trialBank s.m = some k → (∀ j < 4, (getSess j s.m).held = []) → ∃ t,
      exec (.puntySelftestEnd false) s = .next (s.withM t) ∧ t.img.pause = false ∧ fget IMG_STATUS.in_pause t = 0 ∧
        (getBank k t).state = 3 ∧ fon IMG_EVENTS.selftest_fail t = true ∧ t.res = s.m.res ∧ t.tiles = s.m.tiles)

def Obligations.ConverterSamplesFillTheBridges : Prop :=
  ∀ (s : State),
    (∀ (u : RxUnit) (c : BitVec 14), convOn u s.m = false → exec (.adcSample u c) s = .next s) ∧
    (∀ (u : RxUnit) (code : BitVec 14), convOn u s.m = true →
      let c := if fget (GCTL_LOOPBACK.lb_q (rxQuad u)) s.m = 2 then 0 else code.toInt
      ∃ t x, exec (.adcSample u code) s = .next (s.withM t) ∧
      (getRx (rxKey u) t).asm = (getRx (rxKey u) s.m).asm ++ [x] ∧ x.st = rxTag u s.m ∧ x.q = 0 ∧
      x.i = (if rxTag u s.m = .gap then 0 else c * 64) ∧
      (x.ovr = true ↔ (c = -8192 ∨ c = 8191) ∧ gatedQ (rxQuad u) s.m = false) ∧
      (x.ovr = true → fon (QUAD_RX_EVENTS.ovr u) t = true) ∧
      regsKept (QUAD_RX_EVENTS u :: HLT_LOG_WPTR :: HLT_EVENTS :: (match u with
        | .path n => [QUAD_RX_OVR_COUNT n.val]
        | .obs _ => [])) s.m t ∧ storesKept s.m t) ∧
    (∀ (b : InBridge) (k : Nat), frozen (inDom b) s.m = true → exec (.inputBridgeWrite b k) s = .next s) ∧
    (∀ (b : InBridge) (u : RxUnit), bridgeUnit b = some u → frozen (inDom b) s.m = false →
      (∀ e ∈ getIn (inKey b) s.m, ∃ l, e = .data l) → 8 ≤ (getRx (rxKey u) s.m).asm.length →
      let l := ((getRx (rxKey u) s.m).asm.take 8).drop (getRx (rxKey u) s.m).formed
      ∃ t, exec (.inputBridgeWrite b 0) s = .next (s.withM t) ∧
        (getRx (rxKey u) t).asm = (getRx (rxKey u) s.m).asm.drop 8 ∧ storesKept s.m t ∧
        ((getIn (inKey b) s.m).length < 64 → getIn (inKey b) t = getIn (inKey b) s.m ++ [.data l] ∧ t.regs = s.m.regs) ∧
        (64 ≤ (getIn (inKey b) s.m).length → getIn (inKey b) t = getIn (inKey b) s.m ++ [.lost l.length] ∧
          fon GCTL_CORE_EVENTS.bridge_ovf t = true ∧
          regsKept [GCTL_CORE_EVENTS, HLT_LOG_WPTR, HLT_EVENTS] s.m t)) ∧
    (∀ n : Fin 64,
      let fires := fon (QUAD_RX_OVL_CFG.ovl_en n.val) s.m = true ∧
        max 1 (fget (QUAD_RX_OVL_CFG.ovl_cnt n.val) s.m) ≤ (getRx n.val s.m).ovlCnt
      let ends := (getRx n.val s.m).ovlN ≠ 0 ∧ (getRx n.val s.m).ovlN % ovlWindow n.val s.m = 0
      (¬ ends → exec (.overloadWindowEnd n) s = .next s) ∧
      (ends → ¬ fires → exec (.overloadWindowEnd n) s =
        .next (s.withM (setRx n.val { getRx n.val s.m with ovlCnt := 0 } s.m))) ∧
      (ends → fires → ∃ t, exec (.overloadWindowEnd n) s = .next (s.withM t) ∧ fon (QUAD_RX_EVENTS.ovl (.path n)) t = true ∧
        (getRx n.val t).ovlCnt = 0 ∧ storesKept s.m t))

def Obligations.OutputBridgesReleaseAtTheAnchor : Prop :=
  ∀ (s : State),
    (∀ (st : UlStream) (e : OutEntry) (l : List OutEntry), frozen 6 s.m = false → role s.m ≠ 2 →
      (getOut (ulKey st) s.m).fifo = e :: l → ∀ due, due = firstDue e.ss 0 → pastSlot due s.m = false →
      (60 * e.arr ≤ due → ∃ t, exec (.outputBridgeRelease (.ul st)) s = .next (s.withM t) ∧
        (getOut (ulKey st) t).rel = e.seq + 1 ∧
        ((getOut (ulKey st) t).fifo ++ (getOut (ulKey st) t).feeder).map (fun o => (o.seq, o.ss)) =
          (l ++ (getOut (ulKey st) s.m).feeder).map (fun o => (o.seq, o.ss)) ∧
        (getUlTx (ulKey st) t).q = (getUlTx (ulKey st) s.m).q ++
          ((if ulHeldGap s.m then gapAll e.ss else e.ss).filterMap fun o =>
            o.pos.map fun q => (o.s, { q with at_ := o.due })) ∧
        t.tod = (if timingOn s.m then max s.m.tod (2 * ((due + 119) / 120)) else s.m.tod) ∧
        t.regs = s.m.regs ∧ storesKept s.m t) ∧
      (due < 60 * e.arr → ulQuiet st s.m = false → ∃ t, exec (.outputBridgeRelease (.ul st)) s = .next (s.withM t) ∧
        rd GCTL_ANCHOR_LATE_UL t = BitVec.ofNat 32 (min 0xFFFFFFFF ((rd GCTL_ANCHOR_LATE_UL s.m).toNat + 8)) ∧
        fon GCTL_CORE_EVENTS.anchor_late_ul t = true ∧ 14 ∈ t.lad.lateNow ∧
        (getUlTx (ulKey st) t).q = (getUlTx (ulKey st) s.m).q ++
          ((posRun st due 8 (posDue st { getOut (ulKey st) s.m with fifo := l } s.m) s.m).filterMap fun o =>
            o.pos.map fun q => (gapSample, { q with at_ := o.due })) ∧
        regsKept [GCTL_ANCHOR_LATE_UL, GCTL_CORE_EVENTS, HLT_LOG_WPTR, HLT_EVENTS] s.m t ∧ storesKept s.m t)) ∧
    (∀ st : UlStream, frozen 6 s.m = false → (getOut (ulKey st) s.m).fifo = [] → ulActive st s.m = true →
      ulFed st s.m = true → ulQuiet st s.m = false → ∀ due, due = (match posDue st (getOut (ulKey st) s.m) s.m with
        | some p => p.at_ + 120 * anchorOf false s.m
        | none => 120 * s.m.slotStart) → pastSlot due s.m = false →
      ∃ t, exec (.outputBridgeRelease (.ul st)) s = .next (s.withM t) ∧
        rd GCTL_ANCHOR_LATE_UL t = BitVec.ofNat 32 (min 0xFFFFFFFF ((rd GCTL_ANCHOR_LATE_UL s.m).toNat + 8)) ∧
        fon GCTL_CORE_EVENTS.anchor_late_ul t = true ∧ 14 ∈ t.lad.lateNow ∧
        (getOut (ulKey st) t).rel = (getOut (ulKey st) s.m).rel + 1 ∧
        ((getOut (ulKey st) s.m).rel, (due + 119) / 120) ∈ (getOut (ulKey st) t).missed ∧
        regsKept [GCTL_ANCHOR_LATE_UL, GCTL_CORE_EVENTS, HLT_LOG_WPTR, HLT_EVENTS] s.m t ∧ storesKept s.m t) ∧
    (∀ (n : Fin 64) (e : OutEntry) (l : List OutEntry), frozen (1 + n.val / 16) s.m = false → quadState (n.val / 16) s.m ≠ 0 →
      inMask (fget CLK_STATUS.gated_q s.m) (n.val / 16) = false → (getOut (96 + n.val) s.m).fifo = e :: l →
      60 * e.arr + 480 ≤ firstDue e.ss 0 → (∀ o ∈ e.ss, pastSlot o.due s.m = false) → pastSlot (firstDue e.ss 0) s.m = false →
      ∃ t, exec (.outputBridgeRelease (.tx n)) s = .next (s.withM t) ∧ (getOut (96 + n.val) t).rel = e.seq + 1 ∧
        ((getOut (96 + n.val) t).fifo ++ (getOut (96 + n.val) t).feeder).map (fun o => (o.seq, o.ss)) =
          (l ++ (getOut (96 + n.val) s.m).feeder).map (fun o => (o.seq, o.ss)) ∧ storesKept s.m t ∧
        (txSilent (n.val / 16) s.m = true → e.ss ≠ [] → (getTx n.val t).code = 0 ∧ t.regs = s.m.regs) ∧
        (∀ ss o, e.ss = ss ++ [o] → txSilent (n.val / 16) s.m = false → txHeldGap (n.val / 16) s.m = false →
          txFailed n.val s.m = false →
          (getTx n.val t).code = dacCode o.s.i (fget (QUAD_TX_GAIN.dig_gain n.val) s.m))) ∧
    (∀ (b : OutBridge) (seq : Nat),
      ((getOut (outKey b) s.m).missed.find? (fun e => e.1 == seq) = none → exec (.lateEntryArrival b seq) s = .next s) ∧
      (∀ r, (getOut (outKey b) s.m).missed.find? (fun e => e.1 == seq) = some r → ∃ t,
        exec (.lateEntryArrival b seq) s = .next (s.withM t) ∧ (∀ e ∈ (getOut (outKey b) t).missed, e.1 ≠ seq) ∧
        (getOut (outKey b) t).fifo = (getOut (outKey b) s.m).fifo ∧
        (if isTx b then t.marginDl else t.marginUl) = some (match if isTx b then s.m.marginDl else s.m.marginUl with
          | some y => min ((2 * (r.2 : Int) - s.m.tod) / 2) y
          | none => (2 * (r.2 : Int) - s.m.tod) / 2) ∧ t.regs = s.m.regs ∧ storesKept s.m t)) ∧
    (∀ (d : Dir) (v : W), reach (anchorReg d) s.m = true → role s.m ≠ 1 →
      (anchorOk d (v.toNat % 65536) s.m = false →
        exec (.anchorWrite d v) s = .next (s.withM (setEv GCTL_CORE_EVENTS.anchor_range s.m))) ∧
      (anchorOk d (v.toNat % 65536) s.m = true → timingOn s.m = true →
        exec (.anchorWrite d v) s = .next (s.withM (setStage (anchorReg d) (some (v &&& 0xFFFF#32)) s.m))) ∧
      (anchorOk d (v.toNat % 65536) s.m = true → timingOn s.m = false → ∃ t,
        exec (.anchorWrite d v) s = .next (s.withM t) ∧ rd (anchorReg d) t = v &&& 0xFFFF#32 ∧
        regsKept [anchorReg d] s.m t ∧ storesKept s.m t))

/-- dither_en of a write with zone 3 is taken: the model's reading of R106 (assumption 54). -/
def Obligations.FrontEndRegistersTakeValidValues : Prop :=
  ∀ (s : State),
    (∀ (u : RxUnit) (v : W), reach (QUAD_RX_CTRL u) s.m = true →
      (wfld v 0 2 ≠ 3 → quadStopped (rxQuad u) s.m = false →
        exec (.rxCtrlWrite u v) s = .next (s.withM (setStage (QUAD_RX_CTRL u) (some (v &&& 0x7#32)) s.m))) ∧
      (wfld v 0 2 ≠ 3 → quadStopped (rxQuad u) s.m = true → ∃ t, exec (.rxCtrlWrite u v) s = .next (s.withM t) ∧
        rd (QUAD_RX_CTRL u) t = v &&& 0x7#32 ∧ fget (QUAD_RX_STATUS.zone u) t = wfld v 0 2 ∧
        regsKept [QUAD_RX_CTRL u, QUAD_RX_STATUS u] s.m t ∧ storesKept s.m t) ∧
      (wfld v 0 2 = 3 → quadStopped (rxQuad u) s.m = false → ∃ t w, exec (.rxCtrlWrite u v) s = .next (s.withM t) ∧
        fon (QUAD_RX_EVENTS.cfg_err u) t = true ∧ staged (QUAD_RX_CTRL u) t = some w ∧
        wfld w 0 2 = wfld ((staged (QUAD_RX_CTRL u) s.m).getD (rd (QUAD_RX_CTRL u) s.m)) 0 2 ∧ wfld w 2 1 = wfld v 2 1 ∧
        regsKept [QUAD_RX_EVENTS u, HLT_LOG_WPTR, HLT_EVENTS] s.m t)) ∧
    (∀ (o : Fin 8) (v : W), reach (QUAD_OBS_COUPLER o.val) s.m = true → ∃ t, exec (.couplerWrite o v) s = .next (s.withM t) ∧
      rd (QUAD_OBS_COUPLER o.val) t = v &&& 0x3F#32 ∧
      (fget (QUAD_OBS_COUPLER.coupler_n o.val) s.m ≠ v.toNat % 64 → (getRx (64 + o.val) t).settle = 64) ∧
      regsKept (QUAD_OBS_COUPLER o.val :: (List.range 8).flatMap fun c => [RES_CAP_CPL_LO c, RES_CAP_CPL_HI c]) s.m t ∧
      storesKept s.m t) ∧
    (∀ (u : RxUnit) (w : Fin 42) (v : W), reach (factAddr u w.val) s.m = true →
      exec (.factorWrite u w v) s = .next (s.withM (
        if quadState (rxQuad u) s.m ≤ 1 ∧ fon (QUAD_RX_CAL_STATUS.busy (rxQuad u)) s.m = false
        then wr (factAddr u w.val) (v &&& factMask w.val) s.m else setEv (QUAD_RX_EVENTS.fact_err u) s.m))) ∧
    (∀ (n : Fin 64) (v : W), reach (QUAD_TX_CFG n.val) s.m = true →
      (24 < wfld v 1 5 → exec (.txCfgWrite n v) s = .next (s.withM (setEv (QUAD_TX_EVENTS.tx_err n.val) s.m))) ∧
      (wfld v 1 5 ≤ 24 → role s.m ≠ 1 → exec (.txCfgWrite n v) s = .next (s.withM (
        if quadStopped (n.val / 16) s.m then wr (QUAD_TX_CFG n.val) (v &&& 0x3F#32) s.m
        else setStage (QUAD_TX_CFG n.val) (some (v &&& 0x3F#32)) s.m)))) ∧
    (∀ (n : Fin 64) (v : W), reach (QUAD_TX_ATT n.val) s.m = true →
      (6000 < v.toNat % 8192 → exec (.txAttWrite n v) s = .next (s.withM (setEv (QUAD_TX_EVENTS.tx_err n.val) s.m))) ∧
      (v.toNat % 8192 ≤ 6000 → role s.m ≠ 1 → exec (.txAttWrite n v) s = .next (s.withM (
        if quadStopped (n.val / 16) s.m then wr (QUAD_TX_ATT n.val) (v &&& 0x1FFF#32) s.m
        else setStage (QUAD_TX_ATT n.val) (some (v &&& 0x1FFF#32)) s.m))))

def Obligations.ChainWritesAreTakenOrRefusedWhole : Prop :=
  ∀ (s : State) (v : W),
    (∀ c : ChainId, reach (QUAD_DDC_FTW_LO c) s.m = true →
      exec (.ftwLoWrite c v) s = .next (s.withM (wr (QUAD_DDC_FTW_LO c) v s.m))) ∧
    (∀ c : ChainId, reach (QUAD_DDC_FTW_HI c) s.m = true →
      let f := v.toNat % 65536 * 2 ^ 32 + (rd (QUAD_DDC_FTW_LO c) s.m).toNat
      ∃ t, exec (.ftwHiWrite c v) s = .next (s.withM t) ∧ storesKept s.m t ∧
        (quadStopped (chainQuad c) s.m = false → (getChain (chainKey c) t).ftwStage = some f ∧
          (getChain (chainKey c) t).ftw = (getChain (chainKey c) s.m).ftw ∧ t.regs = s.m.regs) ∧
        (quadStopped (chainQuad c) s.m = true → (getChain (chainKey c) t).ftwStage = none ∧
          (getChain (chainKey c) t).ftw = f ∧ rd (QUAD_DDC_FTW_HI c) t = v &&& 0xFFFF#32 ∧
          fon (QUAD_DDC_EVENTS.nco_applied c) t = true ∧
          regsKept [QUAD_DDC_FTW_HI c, QUAD_DDC_EVENTS c, HLT_LOG_WPTR, HLT_EVENTS] s.m t)) ∧
    (∀ n : Fin 64, reach (QUAD_DDC_CFG (.ddc n)) s.m = true →
      (¬ (1 ≤ v.toNat % 16 ∧ v.toNat % 16 ≤ 8) ∨ (2 ≤ quadState (n.val / 16) s.m ∧ v.toNat % 16 ≠ nstages (.ddc n) s.m) →
        exec (.ddcCfgWrite n v) s = .next (s.withM (setEv (QUAD_DDC_EVENTS.chain_err (.ddc n)) s.m))) ∧
      (1 ≤ v.toNat % 16 → v.toNat % 16 ≤ 8 → (quadState (n.val / 16) s.m < 2 ∨ v.toNat % 16 = nstages (.ddc n) s.m) →
        quadStopped (n.val / 16) s.m = false →
        exec (.ddcCfgWrite n v) s = .next (s.withM (setStage (QUAD_DDC_CFG (.ddc n)) (some (v &&& 0x3F#32)) s.m)))) ∧
    (∀ o : Fin 8, reach (QUAD_DDC_CFG (.obs o)) s.m = true →
      (¬ (1 ≤ v.toNat % 16 ∧ v.toNat % 16 ≤ 3) ∨ (2 ≤ quadState (o.val / 2) s.m ∧ v.toNat % 16 ≠ nstages (.obs o) s.m) →
        exec (.obsDdcCfgWrite o v) s = .next (s.withM (setEv (QUAD_DDC_EVENTS.chain_err (.obs o)) s.m))) ∧
      (1 ≤ v.toNat % 16 → v.toNat % 16 ≤ 3 → (quadState (o.val / 2) s.m < 2 ∨ v.toNat % 16 = nstages (.obs o) s.m) →
        quadStopped (o.val / 2) s.m = false →
        exec (.obsDdcCfgWrite o v) s = .next (s.withM (setStage (QUAD_DDC_CFG (.obs o)) (some (v &&& 0x3F#32)) s.m)))) ∧
    (∀ n : Fin 64, reach (QUAD_DDC_CFG (.duc n)) s.m = true →
      (v.toNat % 8 = 7 ∨ (2 ≤ quadState (n.val / 16) s.m ∧ v.toNat % 8 ≠ nstages (.duc n) s.m) →
        exec (.ducCfgWrite n v) s = .next (s.withM (setEv (QUAD_DDC_EVENTS.chain_err (.duc n)) s.m))) ∧
      (v.toNat % 8 ≠ 7 → (quadState (n.val / 16) s.m < 2 ∨ v.toNat % 8 = nstages (.duc n) s.m) →
        quadStopped (n.val / 16) s.m = false →
        exec (.ducCfgWrite n v) s = .next (s.withM (setStage (QUAD_DDC_CFG (.duc n)) (some (v &&& 0x37#32)) s.m)))) ∧
    (∀ c : ChainId, reach (QUAD_DDC_SHIFT c) s.m = true →
      ((∃ k < 8, wfld v (3 * k) 3 ∈ [3, 4, 5]) →
        exec (.ddcShiftWrite c v) s = .next (s.withM (setEv (QUAD_DDC_EVENTS.chain_err c) s.m))) ∧
      ((∀ k < 8, wfld v (3 * k) 3 ∉ [3, 4, 5]) → quadStopped (chainQuad c) s.m = false →
        exec (.ddcShiftWrite c v) s = .next (s.withM (setStage (QUAD_DDC_SHIFT c) (some (v &&& 0xFFFFFF#32)) s.m))))

def Obligations.ReceiveCalibrationRunsAndEnds : Prop :=
  ∀ (s : State) (q : Fin 4),
    (reach (QUAD_RX_CAL_CMD q.val) s.m = true → quadState q.val s.m = 1 → fon (QUAD_RX_CAL_STATUS.busy q.val) s.m = false →
      (∃ t, exec (.rxCalFull q) s = .next (s.withM t) ∧ fon (QUAD_RX_CAL_STATUS.busy q.val) t = true ∧
        fon (QUAD_RX_CAL_STATUS.restoring q.val) t = false ∧
        regsKept [QUAD_RX_CAL_STATUS q.val, GCTL_QUAD_STATE] s.m t ∧ storesKept s.m t) ∧
      ((∀ u ∈ unitsOf q.val, factCrc u s.m = rd (QUAD_RX_FACT_CHK u) s.m) → ∃ t, exec (.rxCalRestore q) s = .next (s.withM t) ∧
        fon (QUAD_RX_CAL_STATUS.busy q.val) t = true ∧ fon (QUAD_RX_CAL_STATUS.restoring q.val) t = true ∧
        (∀ u ∈ unitsOf q.val, (getRx (rxKey u) t).facts = (factWords u s.m).take 40) ∧
        regsKept [QUAD_RX_CAL_STATUS q.val, GCTL_QUAD_STATE] s.m t ∧ storesKept s.m t) ∧
      (∀ u ∈ unitsOf q.val, factCrc u s.m ≠ rd (QUAD_RX_FACT_CHK u) s.m → ∃ t, exec (.rxCalRestore q) s = .next (s.withM t) ∧
        fon (QUAD_RX_EVENTS.fact_err u) t = true ∧ fon (QUAD_RX_CAL_STATUS.busy q.val) t = true ∧
        fon (QUAD_RX_CAL_STATUS.restoring q.val) t = false ∧ storesKept s.m t)) ∧
    (reach (QUAD_RX_CAL_CMD q.val) s.m = true → quadState q.val s.m ≠ 1 ∨ fon (QUAD_RX_CAL_STATUS.busy q.val) s.m = true →
      ∀ c ∈ [Instr.rxCalFull q, .rxCalRestore q],
        exec c s = .next (s.withM (setEv (QUAD_RX_CAL_EVENTS.cal_refused q.val) s.m))) ∧
    (reach (QUAD_RX_CAL_CMD q.val) s.m = true → ∀ v : W, wfld v 16 16 ≠ 0x5C1A ∨ wfld v 0 2 = 3 →
      exec (.rxCalCmdInvalid q v) s = .next (s.withM (setEv (QUAD_RX_CAL_EVENTS.cal_refused q.val) s.m))) ∧
    (fon (QUAD_RX_CAL_STATUS.busy q.val) s.m = true → fon (QUAD_RX_CAL_STATUS.restoring q.val) s.m = false →
      ∀ res, unitCalsOk res = true → (∀ c ∈ res, c.bad = 0#5) → ∃ t, exec (.rxSelfcalDone q res) s = .next (s.withM t) ∧
        fon (QUAD_RX_CAL_STATUS.busy q.val) t = false ∧ fget (QUAD_RX_CAL_STATUS.path_ok q.val) t = 0xFFFF ∧
        fget (QUAD_RX_CAL_STATUS.obs_ok q.val) t = 3 ∧ fon (QUAD_RX_CAL_EVENTS.cal_done q.val) t = true ∧
        (∀ p ∈ (unitsOf q.val).zip res, fon (QUAD_RX_STATUS.cal_valid p.1) t = true ∧
          ∀ w < 40, rd (factAddr p.1 w) t = p.2.facts.getD w 0#32 &&& 0xFFFF#32) ∧ t.res = s.m.res ∧ t.tiles = s.m.tiles) ∧
    (fon (QUAD_RX_CAL_STATUS.busy q.val) s.m = true → fon (QUAD_RX_CAL_STATUS.restoring q.val) s.m = true →
      (∃ t, exec (.restoreVerifyDone q (BitVec.allOnes 18)) s = .next (s.withM t) ∧
        fon (QUAD_RX_CAL_STATUS.busy q.val) t = false ∧ fon (QUAD_RX_CAL_EVENTS.cal_done q.val) t = true ∧
        (∀ u ∈ unitsOf q.val, fon (QUAD_RX_STATUS.restored u) t = true) ∧ t.res = s.m.res ∧ t.tiles = s.m.tiles) ∧
      (∀ ok : BitVec 18, ok ≠ BitVec.allOnes 18 → ∃ t, exec (.restoreVerifyDone q ok) s = .next (s.withM t) ∧
        fon (QUAD_RX_CAL_STATUS.busy q.val) t = true ∧ fon (QUAD_RX_CAL_STATUS.restoring q.val) t = false ∧
        fon (QUAD_RX_CAL_EVENTS.restore_fail q.val) t = true ∧
        regsKept [QUAD_RX_CAL_STATUS q.val, QUAD_RX_CAL_EVENTS q.val, GCTL_QUAD_STATE, HLT_LOG_WPTR, HLT_EVENTS] s.m t ∧
        storesKept s.m t))

def Obligations.SchedulesReachTheMesh : Prop :=
  ∀ (s : State),
    (∀ x : Sched, coreOn s.m = true → role s.m ≠ 1 → schedIgnored (schedKey x) x.dir s.m = false →
      slotLate (schedKey x) s.m = false → ∃ t,
      exec (.sched x) s = .next (s.withM t) ∧ { x with descs := dedup x.descs } ∈ t.mesh.scheds ∧
      (∀ y, schedSame x y = true → y ∈ t.mesh.scheds → y = { x with descs := dedup x.descs }) ∧
      (∀ y, schedSame x y = false → (y ∈ t.mesh.scheds ↔ y ∈ s.m.mesh.scheds)) ∧ t.regs = s.m.regs ∧ storesKept s.m t) ∧
    (∀ x : Sched, schedIgnored (schedKey x) x.dir s.m = true → exec (.sched x) s = .next s) ∧
    (∀ x : Sched, coreOn s.m = true → schedIgnored (schedKey x) x.dir s.m = false → slotLate (schedKey x) s.m = true →
      s.m.mesh.scheds.any (schedSame x) = true →
      exec (.sched x) s = .next (s.withM (setEv EPL_EVENTS.sched_late s.m))) ∧
    (∀ (d : Dir) (b : Fin 32) (x : Sched) (l : List Sched) (e : SchedDesc), s.m.mesh.scheds = x :: l → x.dir = d →
      x.descs.find? (fun d => decide (d.b = b) && wantsLook x d s.m) = some e →
      ∃ t r, exec (.directoryLookup d b) s = .next (s.withM t) ∧
        t.mesh.looked = s.m.mesh.looked ++ [⟨x.frame.toNat, x.slot.toNat, e.sensor, r⟩] ∧
        (r = none → fon BMU_EVENTS.id_miss t = true) ∧ (dirOn s.m = false ∨ fon DIR_STATUS.restoring s.m = true → r = dirLookup e.sensor s.m ∧ t.res = s.m.res) ∧
        t.tiles = s.m.tiles ∧ t.nvm = s.m.nvm ∧ t.stage = s.m.stage) ∧
    (timingOn s.m = false ∨ s.m.mesh.synDone = some (nextSlotPos s.m) → exec .scheduleDeadline s = .next s) ∧
    (timingOn s.m = true → s.m.mesh.synDone ≠ some (nextSlotPos s.m) → ∃ t, exec .scheduleDeadline s = .next (s.withM t) ∧
      t.mesh.synDone = some (nextSlotPos s.m) ∧ (nextSlot s.m).2 - 4916 ≤ tick t ∧ t.mesh.actUl = s.m.mesh.actUl ∧
      t.mesh.actDl = s.m.mesh.actDl ∧ t.tiles = s.m.tiles ∧ t.nvm = s.m.nvm ∧ t.stage = s.m.stage) ∧
    (∀ n : Fin 64,
      (rxFailed n.val s.m = true → exclUl n.val s.m = false → ∃ t, exec (.exclusionMask .ul n) s = .next (s.withM t) ∧
        exclUl n.val t = true ∧ fon BMU_EVENTS.excl_new t = true ∧ (∀ k < 64, k ≠ n.val → exclUl k t = exclUl k s.m) ∧ storesKept s.m t) ∧
      (txFailed n.val s.m = true → exclDl n.val s.m = false → ∃ t, exec (.exclusionMask .dl n) s = .next (s.withM t) ∧
        exclDl n.val t = true ∧ fon BMU_EVENTS.excl_new t = true ∧ (∀ k < 64, k ≠ n.val → exclDl k t = exclDl k s.m) ∧
        storesKept s.m t) ∧
      (rxFailed n.val s.m = false ∨ exclUl n.val s.m = true → exec (.exclusionMask .ul n) s = .next s) ∧
      (txFailed n.val s.m = false ∨ exclDl n.val s.m = true → exec (.exclusionMask .dl n) s = .next s)) ∧
    (∀ v : W, reach BMU_CFG s.m = true →
      (bmuCfgOk (v &&& 0xFF7#32) s.m = false → exec (.bmuCfgWrite v) s = .next (s.withM (setEv BMU_EVENTS.mesh_err s.m))) ∧
      (bmuCfgOk (v &&& 0xFF7#32) s.m = true → timingOn s.m = true → role s.m ≠ 1 →
        exec (.bmuCfgWrite v) s = .next (s.withM (setStage BMU_CFG (some (v &&& 0xFF7#32)) s.m))))

def Obligations.AcquisitionSlotsAreReported : Prop :=
  ∀ (s : State),
    (acqRuns s.m = false → exec .acqSlotEnd s = .next s) ∧
    (acqRuns s.m = true → ∃ t j, exec .acqSlotEnd s = .next (s.withM t) ∧ t.acq.job = some j ∧ j.slotTick = s.m.slotStart ∧
      j.frame = s.m.frameNo ∧ j.slot = s.m.slot ∧ j.n = acqN s.m ∧ j.lost = false ∧ t.acq.done = some s.m.slotStart ∧
      fget ACQ_STATUS.busy t = 1 ∧ (nextSlot s.m).2 ≤ tick t ∧
      (acqOk s.m = false → j.wins = [] ∧ fon ACQ_EVENTS.cfg_err t = true) ∧ storesKept s.m t) ∧
    (s.m.acq.job = none → exec .slotReport s = .next s) ∧
    (∀ j, s.m.acq.job = some j → jobReady j s.m = false ∨ mgmtHeld s.m = true → exec .slotReport s = .next s) ∧
    (∀ j, s.m.acq.job = some j → jobReady j s.m = true → mgmtHeld s.m = false → ∃ t ds,
      exec .slotReport s = .next (s.withM t) ∧ t.acq.job = none ∧ fget ACQ_STATUS.busy t = 0 ∧
      rd ACQ_DET_TOTAL t = rd ACQ_DET_TOTAL s.m + BitVec.ofNat 32 ds.length ∧
      t.acq.hist = (ds.reverse ++ s.m.acq.hist).take 16384 ∧
      t.acq.nextId = (s.m.acq.nextId + ds.length) % 2 ^ 32 ∧
      (∀ i < ds.length, (ds.map fun d => d.id)[i]? = some (if i = 0 then s.m.acq.nextId else (s.m.acq.nextId + i) % 2 ^ 32)) ∧
      (j.wins = [] → ds = []) ∧
      (fon ACQ_EVENTS.report_late t = true ↔ fon ACQ_EVENTS.report_late s.m = true ∨ ∃ x, j.due = some x ∧ x < tick s.m) ∧
      (sessBound 0 s.m = true → sessPort 0 s.m = true → ∃ r', t.out = s.m.out ++ [.native 0 (getSess 0 s.m).txSeq (.slotReport r')] ∧
        r'.dets = ds ∧ r'.slotTick = j.slotTick ∧ r'.frame = j.frame ∧ r'.slot = j.slot ∧ r'.nwin = j.wins.length) ∧
      regsKept [ACQ_STATUS, ACQ_DET_TOTAL, ACQ_EVENTS, HLT_LOG_WPTR, HLT_EVENTS] s.m t ∧ storesKept s.m t)

/-- `dirReady` names the states these hold in; the twin's part of R219 and R462 is left to the twin's statements. -/
def Obligations.DirectoryOperationsAnswer : Prop :=
  ∀ (s : State) (n : Fin 4) (id : BitVec 48), dirReady n.val s.m →
    (∀ k e, dirFind id s.m = some k → dirAt k s.m = some e →
      exec (.dirOpRead n id 0#8) s = .next (s.withM (sendNat n.val (.dirResp [⟨0, 1, [e]⟩]) s.m)) ∧
      (∀ (mask : BitVec 8) (f : DirFields), mask ≠ 0#8 → mask.getLsbD 7 = false → maskFields mask f e ≠ e → ∃ t,
        exec (.dirOpWrite n id mask f) s = .next (s.withM t) ∧
        dirAt k t = some { maskFields mask f e with seq := rd DIR_SEQ s.m + 1#32 } ∧ rd DIR_SEQ t = rd DIR_SEQ s.m + 1#32 ∧
        placesKept k s.m t ∧ answered n.val (.dirResp [⟨0, 0, []⟩]) s.m t ∧ storesKept s.m t) ∧
      (∃ t, exec (.dirOpDelete n id 0#8) s = .next (s.withM t) ∧ dirAt k t = none ∧ rd DIR_SEQ t = rd DIR_SEQ s.m + 1#32 ∧
        placesKept k s.m t ∧ answered n.val (.dirResp [⟨0, 0, []⟩]) s.m t ∧ storesKept s.m t) ∧
      (∃ t, exec (.unbind n id) s = .next (s.withM t) ∧ dirAt k t = none ∧ placesKept k s.m t ∧ t.out = s.m.out ∧
        storesKept s.m t) ∧
      (∀ c ∈ [(Instr.dirOpPin n id 0#8, true), (.dirOpUnpin n id 0#8, false)],
        (e.pinned = c.2 → exec c.1 s = .next (s.withM (sendNat n.val (.dirResp [⟨0, 0, []⟩]) s.m))) ∧
        (e.pinned ≠ c.2 → ∃ t, exec c.1 s = .next (s.withM t) ∧
          dirAt k t = some { e with pinned := c.2, seq := rd DIR_SEQ s.m + 1#32 } ∧ placesKept k s.m t ∧
          answered n.val (.dirResp [⟨0, 0, []⟩]) s.m t ∧ storesKept s.m t)) ∧
      (e.lastSeen ≠ BitVec.ofNat 40 (tick s.m / 2 ^ 24) → ∃ t, exec (.dirOpTouch n id 0#8) s = .next (s.withM t) ∧
        dirAt k t = some { e with lastSeen := BitVec.ofNat 40 (tick s.m / 2 ^ 24), seq := rd DIR_SEQ s.m + 1#32 } ∧
        placesKept k s.m t ∧ answered n.val (.dirResp [⟨0, 0, []⟩]) s.m t ∧ storesKept s.m t) ∧
      (∀ (det : W) (pin : Bool) (d : Det), findDet det s.m = some d → e.lastSeen.toNat < detUnit d → ∃ t,
        exec (.bind n det id pin) s = .next (s.withM t) ∧
        dirAt k t = some { updEntry e d s.m with seq := rd DIR_SEQ s.m + 1#32 } ∧ placesKept k s.m t ∧
        answered n.val (.bindAck det id 1 (rd DIR_SEQ s.m + 1#32)) s.m t ∧ storesKept s.m t)) ∧
    (dirFind id s.m = none →
      (∀ c ∈ [Instr.dirOpRead n id 0#8, .dirOpDelete n id 0#8, .dirOpPin n id 0#8, .dirOpUnpin n id 0#8, .dirOpTouch n id 0#8],
        exec c s = .next (s.withM (sendNat n.val (.dirResp [⟨1, 0, []⟩]) s.m))) ∧
      exec (.unbind n id) s = .next s ∧
      (∀ (mask : BitVec 8) (f : DirFields) (k : Nat), mask ≠ 0#8 → mask.getLsbD 7 = false → atQuota s.m = false →
        freePlace (if freeCount (dirBuckets id s.m).1 s.m < freeCount (dirBuckets id s.m).2 s.m
          then (dirBuckets id s.m).2 else (dirBuckets id s.m).1) s.m = some k → ∃ t,
        exec (.dirOpWrite n id mask f) s = .next (s.withM t) ∧
        dirAt k t = some { maskFields mask f (blankEntry id s.m) with seq := rd DIR_SEQ s.m + 1#32 } ∧
        placesKept k s.m t ∧ answered n.val (.dirResp [⟨0, 0, []⟩]) s.m t ∧ storesKept s.m t)) ∧
    (∀ (b : W) (c : BitVec 8), c.toNat ≤ 64 → exec (.dirOpList n b c 0#8) s = .next (s.withM (sendNat n.val
      (.dirResp [⟨0, (dirList b.toNat c.toNat s.m).length, dirList b.toNat c.toNat s.m⟩]) s.m))) ∧
    (∀ (mask : BitVec 8) (f : DirFields),
      (mask ≠ 0#8 → ∀ c ∈ [Instr.dirOpRead n id mask, .dirOpDelete n id mask, .dirOpPin n id mask, .dirOpUnpin n id mask,
          .dirOpTouch n id mask, .dirOpList n 0#32 1#8 mask, .dirOpSnapshot n mask],
        exec c s = .next (s.withM (sendNat n.val (.dirResp [⟨5, 0, []⟩]) s.m))) ∧
      (mask = 0#8 ∨ mask.getLsbD 7 = true →
        exec (.dirOpWrite n id mask f) s = .next (s.withM (sendNat n.val (.dirResp [⟨5, 0, []⟩]) s.m)))) ∧
    (∀ (det : W) (pin : Bool), findDet det s.m = none → exec (.bind n det id pin) s =
      .next (s.withM (sendNat n.val (.bindAck det id 3 0#32) (setEv ACQ_EVENTS.hist_expired s.m))))

def Obligations.DirectoryUpkeep : Prop :=
  ∀ (s : State),
    (∀ n : Fin 4, dirReady n.val s.m → fon IMG_STATUS.migrating s.m = false → reach DIR_SNAP_CMD s.m = true →
      fget DIR_SNAP_CFG.period s.m ≠ 0 →
      (snapOk s.m = true → ∀ c ∈ [Instr.dirOpSnapshot n 0#8, .dirSnapSnapshot, .snapshotPeriod], ∃ t,
        exec c s = .next (s.withM t) ∧ fget DIR_SNAP_STATUS.state t = 1 ∧ snapAt (snapSlot s.m) t = none ∧
        t.dir.ent = s.m.dir.ent ∧ t.res = s.m.res ∧ t.tiles = s.m.tiles ∧ t.stage = s.m.stage ∧
        (c = .dirOpSnapshot n 0#8 → answered n.val (.dirResp [⟨0, 0, []⟩]) s.m t)) ∧
      (snapOk s.m = false →
        exec (.dirOpSnapshot n 0#8) s =
          .next (s.withM (sendNat n.val (.dirResp [⟨6, 0, []⟩]) (setEv DIR_EVENTS.snap_fail s.m))) ∧
        exec .dirSnapSnapshot s = .next (s.withM (setEv DIR_EVENTS.snap_fail s.m)) ∧
        exec .snapshotPeriod s = .next (s.withM (setEv DIR_EVENTS.snap_fail s.m))) ∧
      (restoreOk s.m = false → exec .dirSnapRestore s = .next (s.withM (setEv DIR_EVENTS.restore_refused s.m))) ∧
      (restoreOk s.m = true → fget DIR_SNAP_STATUS.state s.m ≠ 1 → ∃ t, exec .dirSnapRestore s = .next (s.withM t) ∧
        fon DIR_STATUS.restoring t = true ∧ fget DIR_SNAP_STATUS.state t = 2 ∧ t.dir.ent = [] ∧
        rd DIR_SEQ t = rd DIR_SEQ s.m + BitVec.ofNat 32 s.m.dir.ent.length ∧ storesKept s.m t)) ∧
    (fget DIR_SNAP_CFG.period s.m = 0 → exec .snapshotPeriod s = .next s) ∧
    (reach DIR_SNAP_CMD s.m = true → fget DIR_SNAP_STATUS.state s.m = 1 → s.m.dir.restQ = false →
      s.m.dir.held = [] → exec .dirSnapAbort s = .next (s.withM (setEv DIR_EVENTS.snap_fail (fset DIR_SNAP_STATUS.state 0 s.m)))) ∧
    (reach DIR_SNAP_CMD s.m = true → fget DIR_SNAP_STATUS.state s.m ≠ 1 → s.m.dir.snapQ = false → exec .dirSnapAbort s = .next s) ∧
    (reach DIR_SNAP_CMD s.m = true → fget DIR_SNAP_STATUS.state s.m ≠ 1 → s.m.dir.snapQ = true → ∃ t,
      exec .dirSnapAbort s = .next (s.withM t) ∧ t.dir.snapQ = false ∧ fon DIR_EVENTS.snap_fail t = true ∧ storesKept s.m t) ∧
    (fget DIR_SNAP_STATUS.state s.m ≠ 1 → exec .snapshotComplete s = .next s) ∧
    (fget DIR_SNAP_STATUS.state s.m = 1 → s.m.dir.restQ = false → s.m.dir.held = [] → (∀ p, lineBad p s.m = false) → ∃ t,
      exec .snapshotComplete s = .next (s.withM t) ∧ snapAt (snapSlot s.m) t = some { entries := s.m.dir.ent.filterMap Prod.snd, nb := dirNb s.m, seed := rd DIR_SEED s.m, seq := rd DIR_SEQ s.m, tc := tick s.m } ∧
      fget DIR_SNAP_STATUS.state t = 0 ∧ fon DIR_EVENTS.snap_done t = true ∧ t.dir = s.m.dir ∧ t.res = s.m.res ∧
      t.tiles = s.m.tiles) ∧
    (fon DIR_STATUS.restoring s.m = false → exec .restoreComplete s = .next s) ∧
    (fon DIR_STATUS.restoring s.m = true → s.m.dir.held = [] → role s.m ≠ 1 → ∃ t, exec .restoreComplete s = .next (s.withM t) ∧
      fon DIR_STATUS.restoring t = false ∧ fget DIR_SNAP_STATUS.state t = 0 ∧ fon DIR_EVENTS.restore_done t = true ∧
      (newestSnap s.m = none → t.dir.ent = s.m.dir.ent) ∧ storesKept s.m t) ∧
    (role s.m = 2 ∨ dirOn s.m = false ∨ 64 * s.m.dir.ent.length ≤ partQuota 0 s.m → exec .quotaEviction s = .next s) ∧
    (role s.m ≠ 2 → dirOn s.m = true → partQuota 0 s.m < 64 * s.m.dir.ent.length → (∀ p, lineBad p s.m = false) →
      (oldest (s.m.dir.ent.map Prod.fst) s.m = none →
        exec .quotaEviction s = .next (s.withM (setEv DIR_EVENTS.quota_stuck s.m))) ∧
      (∀ k, oldest (s.m.dir.ent.map Prod.fst) s.m = some k → ∃ t, exec .quotaEviction s = .next (s.withM t) ∧
        dirAt k t = none ∧ placesKept k s.m t ∧ fon DIR_EVENTS.quota_evict t = true ∧ storesKept s.m t)) ∧
    (∀ v : W,
      (reach DIR_CFG s.m = true → exec (.dirCfgWrite v) s = .next (s.withM (
        if s.m.dir.ent = [] ∧ 1 ≤ v.toNat % 2 ^ 17 ∧ v.toNat % 2 ^ 17 ≤ 98304 ∧ 512 * (v.toNat % 2 ^ 17) ≤ partSize 0 s.m
        then fset DIR_CFG.nb (v.toNat % 2 ^ 17) s.m else setEv DIR_EVENTS.cfg_refused s.m))) ∧
      (reach DIR_SEED s.m = true → exec (.dirSeedWrite v) s = .next (s.withM (
        if s.m.dir.ent = [] then wr DIR_SEED v s.m else setEv DIR_EVENTS.cfg_refused s.m)))) ∧
    (∀ (q : W) (b : Nat) (p : Fin 8) (e : Option DirEntry),
      (role s.m ≠ 2 → exec (.mirrorDelta q b p e) s = .next s) ∧
      (role s.m = 2 → q = rd DIR_SEQ s.m + 1#32 → (∀ p, lineBad p s.m = false) → ∃ t,
        exec (.mirrorDelta q b p e) s = .next (s.withM t) ∧ dirAt (8 * b + p.val) t = e ∧
        placesKept (8 * b + p.val) s.m t ∧ rd DIR_SEQ t = q ∧ t.out = s.m.out ++ [.mirAck q] ∧ storesKept s.m t) ∧
      (role s.m = 2 → q ≠ rd DIR_SEQ s.m + 1#32 → fon DIR_MIRROR_STATUS.resync s.m = false → ∃ t,
        exec (.mirrorDelta q b p e) s = .next (s.withM t) ∧ t.dir.ent = [] ∧ fon DIR_EVENTS.mirror_resync t = true ∧
        fon DIR_MIRROR_STATUS.resync t = true ∧ t.out = s.m.out ++ [.resyncReq 3] ∧ storesKept s.m t))

def Obligations.FrontEndSequencersFollowEvents : Prop :=
  ∀ (s : State) (q : Fin 4),
    let st := fget (QUAD_FES_STATUS.state q.val) s.m
    let goes (c : Nat) : Nat := if seqOn q.val s.m then
        match (transitions q.val st s.m).find? fun x => x.2.2 && x.1 == c with
        | some x => x.2.1
        | none => st
      else st
    let x := getFes q.val s.m
    (∀ e ∈ [(Instr.slotTx q, 5), (.slotRx q, 6), (.slotAcq q, 7), (.slotGap q, 8)], (e.2 = 8 → s.m.cal.trick = none) →
      (∀ n, (leadSlots x.lead s.m).find? (fun n => decide (x.evDone < n.2.1)) = some n → timingOn s.m = true →
        slotEvent n.1 q.val = e.2 → ∃ t, exec e.1 s = .next (s.withM t) ∧
        fget (QUAD_FES_STATUS.state q.val) t = goes e.2 ∧ (getFes q.val t).evDone = n.2.1 ∧ n.2.1 - x.lead ≤ tick t ∧
        storesKept s.m t) ∧
      ((∀ n, (leadSlots x.lead s.m).find? (fun n => decide (x.evDone < n.2.1)) = some n →
        ¬ (timingOn s.m = true ∧ slotEvent n.1 q.val = e.2)) → exec e.1 s = .next s)) ∧
    (timingOn s.m = true → ∃ t, exec (.frame q) s = .next (s.withM t) ∧ fget (QUAD_FES_STATUS.state q.val) t = goes 4 ∧
      nextFrameTick s.m - (getFes q.val s.m).lead ≤ tick t ∧ storesKept s.m t) ∧
    (timingOn s.m = false → exec (.frame q) s = .next s) ∧
    (∀ y, x.timer = some y → ∃ t, exec (.timer q) s = .next (s.withM t) ∧
      fget (QUAD_FES_STATUS.state q.val) t = (if s.m.evHold = none then goes 14 else st) ∧ (timingOn s.m = true → y ≤ tick t) ∧ storesKept s.m t) ∧
    ((getFes q.val s.m).timer = none → exec (.timer q) s = .next s) ∧
    (reach (QUAD_FES_SW q.val) s.m = true → ∃ t, exec (.sw q) s = .next (s.withM t) ∧
      fget (QUAD_FES_STATUS.state q.val) t = (if s.m.evHold = none then goes 15 else st) ∧ storesKept s.m t) ∧
    (firstAct (getFes q.val s.m).acts = none → exec (.sequencerAction q) s = .next s) ∧
    (∀ a, firstAct (getFes q.val s.m).acts = some a → a.kind ≤ 2 → ∃ t, exec (.sequencerAction q) s = .next (s.withM t) ∧
      (getFes q.val t).acts = (getFes q.val s.m).acts.filter (fun b => b.ser != a.ser) ∧
      (getFes q.val t).lvl = (if a.kind = 0 then (getFes q.val s.m).lvl ||| a.mask
        else if a.kind = 1 then (getFes q.val s.m).lvl &&& (255 - a.mask % 256) else (getFes q.val s.m).lvl) ∧
      (a.kind = 2 → (getFes q.val s.m).fcb.length < 16 →
        (getFes q.val t).fcb = (getFes q.val s.m).fcb ++ [(a.value % 2 ^ 24, a.at_)]) ∧
      regsKept [QUAD_FES_STATUS q.val, QUAD_FES_EVENTS q.val, HLT_LOG_WPTR, HLT_EVENTS] s.m t ∧ storesKept s.m t) ∧
    ((getFes q.val s.m).fcb = [] ∨ allSafe q.val s.m = true → exec (.fcbFrame q) s = .next s) ∧
    (∀ w d l, (getFes q.val s.m).fcb = (w, d) :: l → allSafe q.val s.m = false → ∃ t start,
      exec (.fcbFrame q) s = .next (s.withM t) ∧ t.out = s.m.out ++ [.fcb q.val (fcbBits w) 26 start] ∧ (getFes q.val t).fcb = l ∧
      d ≤ start ∧ (∀ x, (getFes q.val s.m).fcbLast = some x → x + 64 ≤ start) ∧ (getFes q.val t).fcbLast = some start ∧
      (d + 64 < start → fon (QUAD_FES_EVENTS.act_late q.val) t = true) ∧ storesKept s.m t) ∧
    (timingOn s.m = false ∨ quadState q.val s.m ≠ 2 ∨
      (leadSlots x.lead s.m).find? (fun n => decide (x.burstDone < n.2.1) && slotTx n.1 q.val) = none →
      exec (.burstDecision q) s = .next s) ∧
    (∀ n, timingOn s.m = true → quadState q.val s.m = 2 →
      (leadSlots x.lead s.m).find? (fun n => decide (x.burstDone < n.2.1) && slotTx n.1 q.val) = some n →
      (burstReady q.val n.2.1 s.m = true → ∃ t, exec (.burstDecision q) s = .next (s.withM t) ∧
        fget (QUAD_FES_STATUS.state q.val) t = goes 3 ∧ (getFes q.val t).drop = x.drop ∧
        (getFes q.val t).burstDone = n.2.1 ∧ n.2.1 - x.lead ≤ tick t ∧ storesKept s.m t) ∧
      (burstReady q.val n.2.1 s.m = false → ∃ t, exec (.burstDecision q) s = .next (s.withM t) ∧
        (getFes q.val t).drop = x.drop ++ [(n.2.1, n.2.2)] ∧ (getFes q.val t).burstDone = n.2.1 ∧
        fon (QUAD_FES_EVENTS.tx_late q.val) t = true ∧
        rd (QUAD_TX_DROP_COUNT q.val) t = BitVec.ofNat 32 (min 0xFFFFFFFF ((rd (QUAD_TX_DROP_COUNT q.val) s.m).toNat + 1)) ∧
        fget (QUAD_FES_STATUS.state q.val) t = goes 2 ∧ storesKept s.m t))

/-- That bank_rd selects the bank a write is refused for is the model's reading (assumption 35). -/
def Obligations.PredistortionBanksAdapt : Prop :=
  ∀ (s : State),
    (∀ (n : Fin 64) (v : W), reach (QUAD_PD_LUT_DATA n.val) s.m = true →
      let i := fget (QUAD_PD_LUT_ADDR.idx n.val) s.m
      let bad := fon (QUAD_PD_LUT_ADDR.bank_rd n.val) s.m = true ∨ fon (QUAD_PD_CTRL.adapt_en n.val) s.m = true ∨
        swapPending n.val s.m = true ∨ 2179 < i
      (bad → exec (.pdLutDataWrite n v) s = .next (s.withM (setEv (QUAD_PD_EVENTS.pd_err n.val)
        (fset (QUAD_PD_LUT_ADDR.idx n.val) (i + 1) s.m)))) ∧
      (¬ bad → role s.m ≠ 1 → ∃ t, exec (.pdLutDataWrite n v) s = .next (s.withM t) ∧ lutW n.val (pdIdle n.val s.m) i t = v ∧
        (∀ w < 2180, lutW n.val (pdBank n.val s.m) w t = lutW n.val (pdBank n.val s.m) w s.m) ∧
        (∀ w < 2180, w ≠ i → lutW n.val (pdIdle n.val s.m) w t = lutW n.val (pdIdle n.val s.m) w s.m) ∧
        fget (QUAD_PD_LUT_ADDR.idx n.val) t = (i + 1) % 4096 ∧ pdBank n.val t = pdBank n.val s.m ∧
        regsKept [QUAD_PD_LUT_ADDR n.val, QUAD_PD_STATUS n.val] s.m t ∧ storesKept s.m t) ∧
      (i ≤ 2179 → exec (.pdLutDataRead n) s = .next (s.withM (send (.rdata (lutW n.val
          (if fon (QUAD_PD_LUT_ADDR.bank_rd n.val) s.m then pdBank n.val s.m else pdIdle n.val s.m) i s.m))
        (fset (QUAD_PD_LUT_ADDR.idx n.val) (i + 1) s.m)))) ∧
      (2179 < i → ∃ t, exec (.pdLutDataRead n) s = .next (s.withM t) ∧ t.out = s.m.out ++ [.rdata (Config.freeWord s.m.free)] ∧ t.lut = s.m.lut ∧
        regsKept [QUAD_PD_LUT_ADDR n.val] s.m t ∧ storesKept s.m t)) ∧
    (∀ o : Fin 8,
      let q := o.val / 2
      let x := s.m.slotStart + fget (QUAD_PD_CAP_CFG.cap_off q) s.m
      let n := fget (QUAD_OBS_COUPLER.coupler_n o.val) s.m
      let room := getPdCap o.val s.m = none ∧ x + capTicks q s.m ≤ (nextSlot s.m).2 ∧ capQuota (pdCapBytes q s.m) s.m = true
      (burstNow q s.m = false ∨ x < tick s.m → exec (.pdCaptureStart o) s = .next s) ∧
      (burstNow q s.m = true → tick s.m ≤ x → room → ∃ t, exec (.pdCaptureStart o) s = .next (s.withM t) ∧
        (∃ c, getPdCap o.val t = some c ∧ c.path = n ∧ c.tick = x ∧ c.len = capSamples q s.m ∧ c.a = driveAtt n s.m ∧
          c.done = false ∧ c.bad = false ∧ c.bytes = pdCapBytes q s.m ∧ c.bank = bankWords n (pdBank n s.m) 0 2180 s.m) ∧ x ≤ tick t ∧
        regsKept [RES_PART_USE 2] s.m t ∧ storesKept s.m t) ∧
      (burstNow q s.m = true → tick s.m ≤ x → ¬ room → ∃ t, exec (.pdCaptureStart o) s = .next (s.withM t) ∧
        fon (QUAD_PD_Q_EVENTS.cap_skip q) t = true ∧ t.pdCap = s.m.pdCap ∧ storesKept s.m t)) ∧
    (∀ (o : Fin 8) (d : Fin 256) (f : Fin 16) (al : Bool),
      (getPdCap o.val s.m = none → exec (.pdCaptureEnd o d f al) s = .next s) ∧
      (∀ c, getPdCap o.val s.m = some c → c.done = false → c.path < 64 →
        let r := capClosed o.val c s.m
        (capDiscarded o.val r.1 (al && d != 255 && (d != 0 || f != 0)) r.2 = false → fon (QUAD_PD_STATUS.hold c.path) r.2 = false →
          exec (.pdCaptureEnd o d f al) s = .next (s.withM (setPdCap o.val (some { r.1 with
            done := true, delay := 16 * d.val + f.val }) r.2))) ∧
        (capDiscarded o.val r.1 (al && d != 255 && (d != 0 || f != 0)) r.2 = true → ∃ t,
          exec (.pdCaptureEnd o d f al) s = .next (s.withM t) ∧
          getPdCap o.val t = none ∧ fget (QUAD_PD_CYCLES.discards c.path) t =
            min (2 ^ (QUAD_PD_CYCLES.discards c.path).w - 1) (fget (QUAD_PD_CYCLES.discards c.path) s.m + 1) ∧
          regsKept [QUAD_PD_CYCLES c.path, RES_PART_USE 2] s.m t ∧ storesKept s.m t))) ∧
    (∀ (o : Fin 8) (u : List (Int × Int)) (fit : List W) (c : PdCap), fitOk fit = true →
      getPdCap o.val s.m = some c → c.done = true → c.path < 64 → ∃ t,
      exec (.pdAdaptCycleEnd o u fit) s = .next (s.withM t) ∧ getPdCap o.val t = none ∧
        (getPd c.path t).adaptSwap = true ∧ fon (QUAD_PD_STATUS.swap_pending c.path) t = true ∧
        fget (QUAD_PD_NMSE.nmse_last c.path) t = toBits 16 (cycleScore c u) ∧ pdBank c.path t = pdBank c.path s.m ∧
        t.nvm = s.m.nvm ∧ t.tiles = s.m.tiles ∧ t.stage = s.m.stage) ∧
    (∀ n : Fin 64, exec (.pdHoldEnd n) s = .next (s.withM (fset (QUAD_PD_STATUS.hold n.val) 0 s.m)))

def Obligations.CalibrationTricksMeasureAndPublish : Prop :=
  ∀ (s : State),
    (∀ (fr : Bool) (v : W), reach (if fr then CAL_REF_FREQ else CAL_REF_CFG) s.m = true →
      let c := if fr then rd CAL_REF_CFG s.m else v &&& 0x3FF1F#32
      let f := if fr then v &&& 0x3FFFFF#32 else rd CAL_REF_FREQ s.m
      (tonesOk c f s.m = false → exec (.calRefWrite fr v) s = .next (s.withM (setEv CAL_EVENTS.cfg_err s.m))) ∧
      (tonesOk c f s.m = true → ∃ t, exec (.calRefWrite fr v) s = .next (s.withM t) ∧ rd CAL_REF_CFG t = c ∧
        rd CAL_REF_FREQ t = f ∧ fon CAL_STATUS.delay_ok t = decide (500000 ≤ spanOf (calTones c f)) ∧
        regsKept [CAL_REF_CFG, CAL_REF_FREQ, CAL_STATUS] s.m t ∧ storesKept s.m t)) ∧
    (s.m.power ≠ .coreRun → exec .uncertaintyRecompute s = .next s) ∧
    (s.m.power = .coreRun → ∃ t, exec .uncertaintyRecompute s = .next (s.withM t) ∧
      (∀ n < 64, ∀ k < 4, corrAmp n k t = corrAmp n k s.m ∧ corrPhase n k t = corrPhase n k s.m ∧
        corrDelay n k t = corrDelay n k s.m ∧ corrSource n k t = corrSource n k s.m ∧
        (getUnc n k s.m = none → wfld (rd (corrReg n k 3) t) 0 30 = 0x3FFFFFFF)) ∧
      (fcFar false s.m = true ∨ fcFar true s.m = true → fon CAL_EVENTS.fc_far t = true) ∧ t.cal = s.m.cal ∧ storesKept s.m t) ∧
    (timingOn s.m = false ∨ gapAhead s.m = none → exec .calTrickStart s = .next s) ∧
    (∀ (lead b e : Nat) (sl : Slot), timingOn s.m = true → gapAhead s.m = some (lead, sl, b, e) →
      let u := setCal (fun c => { c with gapDone := b }) (advanceTo (b - lead) s.m)
      let k := fget CAL_STATUS.pos s.m
      (s.m.cal.trick.isSome = true ∨ s.m.cal.est.isSome = true → exec .calTrickStart s = .next (s.withM u)) ∧
      (s.m.cal.trick = none → s.m.cal.est = none → insertFor (e - b) sl.gapq u = none → dedFor (e - b) sl.gapq u = none →
        positionFor sl.gapq u = some 0 →
        (trickW (e - b) (k % 4) (eligible k sl.gapq u) u = none → exec .calTrickStart s =
          .next (s.withM (setEv CAL_EVENTS.gap_short (fcnt CAL_GAP_COUNT.short 1 u)))) ∧
        (∀ w, trickW (e - b) (k % 4) (eligible k sl.gapq u) u = some w → ∃ t x, exec .calTrickStart s = .next (s.withM t) ∧
          t.cal.trick = some x ∧ x.kind = k % 4 ∧ x.group = k / 4 ∧ x.paths = eligible k sl.gapq u ∧ x.unit = none ∧
          x.ded = none ∧ x.start = b ∧ x.w = w ∧ x.ok = [] ∧ x.quadsAt = (quads4.map fun q => quadState q s.m) ∧
          fon CAL_STATUS.busy t = true ∧ storesKept s.m t))) ∧
    (s.m.cal.trick = none → ∀ b l mv, exec (.calCaptureEnd b l mv) s = .next s) ∧
    (∀ x, s.m.cal.trick = some x →
      (∀ b mv, ∃ t, exec (.calCaptureEnd b true mv) s = .next (s.withM t) ∧ t.cal.trick = none ∧ fon CAL_STATUS.busy t = false ∧
        fon CAL_STATUS.ref_ok t = false ∧ fon CAL_EVENTS.ref_lost t = true ∧ t.res = s.m.res ∧ t.tiles = s.m.tiles) ∧
      (∀ b, x.unit = none → x.paths ≠ [] → (∀ n ∈ x.paths, accepts x b n s.m = true) → ∃ t,
        exec (.calCaptureEnd b false false) s = .next (s.withM t) ∧ t.cal.trick = none ∧
        t.cal.est = some { x with ok := x.paths } ∧ fon CAL_STATUS.busy t = false ∧ fon CAL_STATUS.ref_ok t = true ∧
        storesKept s.m t)) ∧
    (s.m.cal.est = none → ∀ l, exec (.correctionPublish l) s = .next s) ∧
    (∀ x l, s.m.cal.est = some x → ∃ t, exec (.correctionPublish l) s = .next (s.withM t) ∧ t.cal.est = none ∧
      rd CAL_PUB t = rd CAL_PUB s.m + 1#32 ∧ fon CAL_EVENTS.published t = true ∧ t.mesh.corrNew = true ∧
      t.cal.trimsDue = true ∧ t.res = s.m.res ∧ t.tiles = s.m.tiles ∧
      (∀ y : PathMeas, l = [y] → x.kind = 0 → x.ded = none → y.path.val ∈ x.ok → getUnc y.path.val 0 s.m = none →
        corrAmp y.path.val 0 t = satS 20 (measured 0 y.path.val y.r s.m).1.1 ∧ corrSource y.path.val 0 t = 1)) ∧
    (let due := fget CAL_CTRL.cal_mode s.m = 1 ∧ (positionFor 15 s.m).isSome = true ∧
        s.m.cal.lastDone + max 1 (fget CAL_CTRL.stall s.m) * 24576000 ≤ tick s.m;
      (due → exec .calStall s = .next (s.withM (setEv CAL_EVENTS.cal_stall s.m))) ∧ (¬ due → exec .calStall s = .next s)) ∧
    (∀ q : Fin 4,
      let d := dedDue q.val s.m
      let n := 16 * q.val + d.2.1
      let x := getDed q.val s.m
      (quadState q.val s.m ≠ 3 ∨ x.run = false ∨
        (dedBarred d.1 n s.m = false ∧ dedPaused q.val s.m = true ∧ x.leaving = false) →
        ∀ l, exec (.dedicatedTrick q l) s = .next s) ∧
      (quadState q.val s.m = 3 → x.run = true → dedPaused q.val s.m = false → dedBarred d.1 n s.m = false →
        (∃ t, exec (.dedicatedTrick q []) s = .next (s.withM t) ∧ fon CAL_EVENTS.trick_discard t = true ∧
          (x.leaving = true → (getDed q.val t).run = false) ∧ t.res = s.m.res ∧ t.tiles = s.m.tiles) ∧
        (∀ y : PathMeas, y.path.val = n → ∃ t, exec (.dedicatedTrick q [y]) s = .next (s.withM t) ∧
          fon CAL_EVENTS.published t = true ∧ rd CAL_PUB t = rd CAL_PUB s.m + 1#32 ∧
          (x.leaving = true → (getDed q.val t).run = false) ∧ t.res = s.m.res ∧ t.tiles = s.m.tiles))) ∧
    (let wait := fget CAL_CTRL.store_min s.m * 60 * 245760000
      let due := s.m.cal.storeDue = true ∧ fon CAL_CTRL.store_en s.m = true ∧ (∀ x, s.m.cal.storeLast = some x → x + wait ≤ tick s.m);
      (¬ due → ∀ ok, exec (.calStoreWrite ok) s = .next s) ∧
      (due → (∃ t, exec (.calStoreWrite false) s = .next (s.withM t) ∧ fon CAL_EVENTS.store_fail t = true ∧
        t.cal.storeDue = false ∧ storesKept s.m t)) ∧
      (due → fon IMG_STATUS.migrating s.m = false → recOk 1 s.m = true → nandOut s.m = false → ∃ t c,
        exec (.calStoreWrite true) s = .next (s.withM t) ∧ t.cal.storeDue = false ∧ t.nvm.cal = some c ∧
        (∀ i < 1024, tabGet (fun _ => 0#32) c.regs (CAL_PATH i) = rd (CAL_PATH i) s.m) ∧ t.regs = s.m.regs ∧
        t.res = s.m.res ∧ t.tiles = s.m.tiles ∧ t.stage = s.m.stage))

def Obligations.ClockWritesAreTakenOrRefused : Prop :=
  ∀ (s : State) (v : W),
    let inForce (m : Mach) : Mach := if timingOn s.m then m else
      { m with clk := { m.clk with seed := fget CLK_SEED.seed m, dither := fon CLK_REF_CFG.dither_en m } };
    (reach CLK_SEED s.m = true → exec (.clkSeedWrite v) s = .next (s.withM (
      if v.toNat % 2 ^ 24 = 0 then setEv CLK_EVENTS.cfg_err s.m else inForce (wr CLK_SEED (v &&& 0xFFFFFF#32) s.m)))) ∧
    (reach CLK_REF_CFG s.m = true → exec (.refCfgWrite v) s = .next (s.withM (
      if v.toNat % 4 = 3 ∨ (v.toNat % 4 ≠ fget CLK_REF_CFG.ref_sel s.m ∧ fget CLK_STATUS.mpll s.m = 3)
      then setEv CLK_EVENTS.cfg_err s.m else inForce (wr CLK_REF_CFG (v &&& 0x17F03#32) s.m)))) ∧
    (reach CLK_SYNC_CFG s.m = true → exec (.syncCfgWrite v) s = .next (s.withM (
      if v.toNat % 4 = 3 ∨ wfld v 2 10 % (if fget CLK_STATUS.plan s.m = 0 then 10 else 12) ≠ 0
      then setEv CLK_EVENTS.cfg_err s.m else wr CLK_SYNC_CFG (v &&& 0xFFF#32) s.m))) ∧
    (reach CLK_STEER s.m = true →
      let x := sext 16 (v.toNat % 2 ^ 16)
      let d := x - sext 16 (fget CLK_STEER.steer s.m)
      (anyCoast s.m = true → exec (.clkSteerWrite v) s =
        .next (s.withM { s.m with clk := { s.m.clk with steerHeld := some v } })) ∧
      (anyCoast s.m = false → role s.m ≠ 1 → exec (.clkSteerWrite v) s = .next (s.withM (
        if -20000 ≤ x ∧ x ≤ 20000 ∧ -200 ≤ d ∧ d ≤ 200 then fset CLK_STEER.steer (wfld v 0 16) s.m
        else setEv CLK_EVENTS.steer_err s.m)))) ∧
    (reach CLK_PLAN_CMD s.m = true →
      let plan := v.toNat % 2
      let ok := wfld v 16 16 = 0x9C27 ∧ timingOn s.m = true ∧ fget CLK_STATUS.mpll s.m = 3 ∧
        fon GCTL_DEV_STATE.deck_loaded s.m = true ∧ s.m.img.deckFlags.testBit (1 + plan) = true ∧
        plan ≠ fget CLK_STATUS.plan s.m ∧ fon CLK_STATUS.classb s.m = false
      (¬ ok → exec (.classBRequest v) s = .next (s.withM (setEvDie 1 CLK_EVENTS.cmd_refused s.m))) ∧
      (ok → role s.m ≠ 1 → ∃ t f, exec (.classBRequest v) s = .next (s.withM t) ∧ fon CLK_STATUS.classb t = true ∧
        t.clk.classB = some ⟨plan, v.getLsbD 1, wfld v 2 4, f, false⟩ ∧
        (s.m.clk.fsPend = none → 0 < s.m.ftab.len → tick s.m + 8192 ≤ f ∧ ∃ j, f = nextFrameTick s.m + j * s.m.ftab.len) ∧
        regsKept [CLK_STATUS] s.m t ∧ storesKept s.m t ∧ t.out = s.m.out)) ∧
    (∀ (adc : Nat) (ph : BitVec 6),
      (¬ (fget CLK_SYNC_CFG.sync_mode s.m = 2 ∧ timingOn s.m = true) → exec (.syncMonitor adc ph) s = .next s) ∧
      (∀ k, fget CLK_SYNC_CFG.sync_mode s.m = 2 → timingOn s.m = true →
        adc + fget CLK_SYNC_CFG.sync_dly s.m = s.m.frameStart * adcPerTick s.m + k → 2 * k ≤ s.m.ftab.len * adcPerTick s.m →
        ∃ t, exec (.syncMonitor adc ph) s = .next (s.withM t) ∧ fget CLK_SYNC_STATUS.phase t = ph.toNat ∧
          fget CLK_SYNC_STATUS.err t = min k 511 ∧ (0 < k → fon CLK_EVENTS.sync_mis t = true) ∧
          (k = 0 → fget CLK_STATUS.mpll s.m = 3 → s.m.clk.aligned = true → fget CLK_STATUS.tod_traceable t = 1) ∧
          regsKept [CLK_SYNC_STATUS, CLK_STATUS, CLK_EVENTS, HLT_LOG_WPTR, HLT_EVENTS] s.m t ∧ storesKept s.m t)) ∧
    (reach CLK_TOD_LO s.m = true → ∃ t, exec .todRead s = .next (s.withM t) ∧
      t.out = s.m.out ++ [.rdata (BitVec.ofNat 32 (tick s.m))] ∧ rd CLK_TOD_HI t = BitVec.ofNat 32 (tick s.m / 2 ^ 32) ∧
      rd CLK_TOD_FS t = BitVec.ofNat 32 (s.m.frameNo % 2 ^ 24 + 2 ^ 24 * (s.m.slot % 256)) ∧
      rd CLK_TOD_TIS t = BitVec.ofNat 32 ((tick s.m - s.m.slotStart) % 2 ^ 22) ∧
      regsKept [CLK_TOD_HI, CLK_TOD_FS, CLK_TOD_TIS] s.m t ∧ storesKept s.m t)

def Obligations.LoopsLockCoastAndRecover : Prop :=
  ∀ (s : State),
    let mp := fget CLK_STATUS.mpll s.m
    let qp (q : Nat) := fget (CLK_STATUS.qpll_q q) s.m
    (coreOn s.m = true → mp = 3 → ∀ e ∈ [(Instr.refLoss, CLK_EVENTS.ref_lost), (.refBad, CLK_EVENTS.ref_bad)], ∃ t,
      exec e.1 s = .next (s.withM t) ∧ fget CLK_STATUS.mpll t = 4 ∧ fget CLK_STATUS.lpll_lock t = 0 ∧
      fget CLK_STATUS.ref_present t = 0 ∧ fget CLK_STATUS.tod_traceable t = 0 ∧ fon CLK_EVENTS.mpll_unlock t = true ∧
      fon e.2 t = true ∧ regsKept [CLK_STATUS, CLK_EVENTS, GCTL_DEV_STATE, HLT_LOG_WPTR, HLT_EVENTS] s.m t ∧ storesKept s.m t) ∧
    (exec .mpllLockLoss s = .next (s.withM (if mp = 3 then
      setEv CLK_EVENTS.mpll_unlock (fset CLK_STATUS.mpll 4 (coastBegin 0 s.m)) else s.m))) ∧
    (∀ q : Fin 4, exec (.qpllLockLoss q) s = .next (s.withM (if qp q.val = 2 then
      setEv CLK_EVENTS.qpll_unlock (fset (CLK_STATUS.qpll_q q.val) 3 (coastBegin (1 + q.val) s.m)) else s.m))) ∧
    (∀ k, (coastBegin k s.m).clk = { s.m.clk with coastFrom := (coastBegin k s.m).clk.coastFrom } ∧
      tabGet (fun _ => 0) (coastBegin k s.m).clk.coastFrom k = tick s.m ∧
      fget CLK_STATUS.tod_traceable (coastBegin k s.m) = 0 ∧ regsKept [CLK_STATUS] s.m (coastBegin k s.m)) ∧
    (mp ≠ 4 → exec (.loopRecovery .mpll) s = .next s) ∧
    (∀ l : Loop,
      (timingOn s.m = false ∨ limitDue (loopKey l) (nextSlot s.m).2 s.m = false → exec (.coastLimit l) s = .next s) ∧
      (timingOn s.m = true → limitDue (loopKey l) (nextSlot s.m).2 s.m = true → ∃ t, exec (.coastLimit l) s = .next (s.withM t) ∧
        fon CLK_EVENTS.coast_limit t = true ∧ loopKey l ∈ t.clk.gatedLoops ∧ t.slotStart = (nextSlot s.m).2 ∧
        (nextSlot s.m).2 ≤ tick t)) ∧
    (∀ k t, limitDue k t s.m = true ↔ loopCoasts k s.m = true ∧ k ∉ s.m.clk.gatedLoops ∧
      tabGet (fun _ => 0) s.m.clk.coastFrom k + coastTicks s.m ≤ t) ∧
    (mp = 4 → ∃ t, exec (.loopRecovery .mpll) s = .next (s.withM t) ∧ fget CLK_STATUS.mpll t = 3 ∧
      fget CLK_STATUS.ref_present t = 1 ∧ fon CLK_EVENTS.relocked t = true ∧ 0 ∉ t.clk.gatedLoops ∧ storesKept s.m t) ∧
    (∀ q : Fin 4, qp q.val = 3 →
      (mp = 3 → ∃ t, exec (.loopRecovery (.qpll q)) s = .next (s.withM t) ∧ fget (CLK_STATUS.qpll_q q.val) t = 2 ∧
        fon CLK_EVENTS.relocked t = true ∧ 1 + q.val ∉ t.clk.gatedLoops ∧ storesKept s.m t)) ∧
    (∀ (b : BitVec 26) (tj : BitVec 10),
      (mp = 1 → s.m.clk.lockSlot < 16 → lockPlan s.m < 2 → ∃ t, exec (.mpllLock b tj) s = .next (s.withM t) ∧ fget CLK_STATUS.mpll t = 3 ∧
        fget (CLK_SEARCH_SLOT.band s.m.clk.lockSlot) t = b.toNat % 64 ∧ fget (CLK_SEARCH_SLOT.tj s.m.clk.lockSlot) t = tj.toNat ∧
        fon (CLK_SEARCH_SLOT.valid s.m.clk.lockSlot) t = true ∧ t.clk.mpllFailed = false ∧ t.res = s.m.res ∧
        t.tiles = s.m.tiles) ∧
      (mp = 2 → slotMatches s.m.clk.lockSlot s.m = true → ∃ t, exec (.mpllLock b tj) s = .next (s.withM t) ∧
        fget CLK_STATUS.mpll t = 3 ∧ t.clk.mpllFailed = false ∧ storesKept s.m t) ∧
      (mp ≠ 1 → mp ≠ 2 → exec (.mpllLock b tj) s = .next s)) ∧
    (mp = 2 → exec (.mpllSlotVerify false) s = .next (s.withM (setEv CLK_EVENTS.search_stale (fset CLK_STATUS.mpll 1 s.m))) ∧
      (slotMatches s.m.clk.lockSlot s.m = true → exec (.mpllSlotVerify true) s = .next s)) ∧
    (∀ q : Fin 4,
      (qp q.val = 1 → mp = 3 → (getQ q.val s.m).phase = .qpllLock → ∃ t, exec (.qpllLock q) s = .next (s.withM t) ∧
        fget (CLK_STATUS.qpll_q q.val) t = 2 ∧ gatedQ q.val t = false ∧ fon (QUAD_RX_CAL_STATUS.busy q.val) t = true ∧
        storesKept s.m t) ∧
      (qp q.val = 1 → mp = 3 → (getQ q.val s.m).phase ≠ .qpllLock → fon CLK_STATUS.classb s.m = false →
        limitGated q.val s.m = false → ∃ t, exec (.qpllLock q) s = .next (s.withM t) ∧
          fget (CLK_STATUS.qpll_q q.val) t = 2 ∧ gatedQ q.val t = false ∧ fon CLK_EVENTS.relocked t = true ∧ storesKept s.m t) ∧
      (qp q.val ≠ 1 ∨ mp ≠ 3 → exec (.qpllLock q) s = .next s ∧ exec (.pllFailure (.qpll q)) s = .next s) ∧
      (qp q.val = 1 → mp = 3 → ∃ t, exec (.pllFailure (.qpll q)) s = .next (s.withM t) ∧ quadState q.val t = 0 ∧
        (getQ q.val t).qpllFailed = true ∧ fon HLT_REPLACE.pll t = true ∧ t.tiles = s.m.tiles)) ∧
    (mp = 1 → s.m.clk.mpllFailed = false → ∃ t, exec (.pllFailure .mpll) s = .next (s.withM t) ∧ t.clk.mpllFailed = true ∧
      fget CLK_STATUS.mpll t = 0 ∧ fon HLT_REPLACE.pll t = true ∧ t.res = s.m.res ∧ t.tiles = s.m.tiles) ∧
    (mp = 1 → s.m.clk.mpllFailed = true → exec (.pllFailure .mpll) s = .next (s.withM (fset CLK_STATUS.mpll 0 s.m))) ∧
    (s.m.clk.mpllFailed = true → ∃ t, exec .mpllRetry s = .next (s.withM t) ∧ fget CLK_STATUS.mpll t = 1 ∧
      t.clk.lockSlot = fget CLK_STATUS.plan s.m ∧ regsKept [CLK_STATUS] s.m t ∧ storesKept s.m t) ∧
    (s.m.clk.mpllFailed = false → exec .mpllRetry s = .next s) ∧
    (∀ c, s.m.clk.classB = some c → c.running = true → mp = 3 → (∀ q < 4, qp q = 0 ∨ qp q = 2) → c.plan < 2 → ∃ t,
      exec .classBRelease s = .next (s.withM t) ∧ t.clk.classB = none ∧ fon CLK_STATUS.classb t = false ∧
      fget CLK_STATUS.plan t = c.plan ∧ fon CLK_EVENTS.classb_done t = true ∧ storesKept s.m t) ∧
    ((∀ c, s.m.clk.classB = some c → c.running = false ∨ mp ≠ 3) → exec .classBRelease s = .next s)

def Obligations.TileControlFlow : Prop :=
  ∀ (s : State) (t : Fin 144),
    let x := getTile t s.m
    (x.state ≠ 1 ∨ x.paused = true → ∀ (tgt : BitVec 12) (d a b : Fin 16) (n : BitVec 14) (k : BitVec 16) (f4 p4 : BitVec 4)
        (k8 : BitVec 8) (cb v : Fin 8) (r : Fin 4) (h g : BitVec 5) (j : Bool),
      ∀ c ∈ [.nop t, .halt t, .jmp t tgt, .jz t d tgt, .jnz t d tgt, .call t tgt, .ret t, .loop t n tgt, .loops t d tgt,
          .waitslot t, .signal t k8, .ldi t d k, .ldih t d k, .alu t d a b f4, .addi t d a tgt, .rdsp t d k8, .wrsp t a k8,
          .ldw t cb d, .stw t cb a, .cbset t cb r a, .vld t cb v, .vst t cb v, .clr t k8, .mac t cb v k8, .cmac t cb v j p4,
          .accw t cb j k8, .ldacc t cb j k8, .red t k8, .cred t p4, .movs t cb p4, .movw t cb j k8, .setsh t h g, .sclr t j,
          .sacc t k8, .smem t cb j k8, .xfer t cb a b j, .waitx t, .ckpt t],
        exec c s = .next s) ∧
    (x.state = 1 → x.paused = false → ∀ (tgt : BitVec 12) (d a b : Fin 16) (n : BitVec 14) (k : BitVec 16) (f4 p4 : BitVec 4)
        (k8 : BitVec 8) (cb v : Fin 8) (r : Fin 4) (h g : BitVec 5) (j : Bool),
      ∀ c ∈ [.nop t, .halt t, .jmp t tgt, .jz t d tgt, .jnz t d tgt, .call t tgt, .ret t, .loop t n tgt, .loops t d tgt,
          .waitslot t, .signal t k8, .ldi t d k, .ldih t d k, .alu t d a b f4, .addi t d a tgt, .rdsp t d k8, .wrsp t a k8,
          .ldw t cb d, .stw t cb a, .cbset t cb r a, .vld t cb v, .vst t cb v, .clr t k8, .mac t cb v k8, .cmac t cb v j p4,
          .accw t cb j k8, .ldacc t cb j k8, .red t k8, .cred t p4, .movs t cb p4, .movw t cb j k8, .setsh t h g, .sclr t j,
          .sacc t k8, .smem t cb j k8, .xfer t cb a b j, .waitx t, .ckpt t],
        ¬ atPc t c s → (wordLegal x.wordAtPc = true → exec c s = .next s) ∧
          (wordLegal x.wordAtPc = false → tileFaults t 1 c s)) ∧
    (x.loops = [] → x.next.pc = (x.pc + 1) % 4096 ∧ x.next.loops = []) ∧
    (∀ l e n r, x.loops = (l, e, n) :: r → (e ≠ x.pc → x.next.pc = (x.pc + 1) % 4096 ∧ x.next.loops = x.loops) ∧
      (e = x.pc → 1 < n → x.next.pc = l ∧ x.next.loops = (l, e, n - 1) :: r) ∧
      (e = x.pc → n ≤ 1 → (∀ y ∈ r, y.2.1 ≠ x.pc) → x.next.pc = (x.pc + 1) % 4096 ∧ x.next.loops = r)) ∧
    (∀ g, (x.jump g).pc = g ∧ (x.jump g).loops <:+ x.loops ∧ (∀ l ∈ (x.jump g).loops, l.1 ≤ g ∧ g ≤ l.2.1) ∧
      ((∀ l ∈ x.loops, l.1 ≤ g ∧ g ≤ l.2.1) → (x.jump g).loops = x.loops)) ∧
    (x.state = 1 → x.paused = false →
      tileLeft t 1 x.next (.nop t) s ∧ tileLeft t 1 { x.next with state := 0 } (.halt t) s ∧
      (∀ tgt : BitVec 12, tileLeft t 2 (x.jump tgt.toNat) (.jmp t tgt) s ∧
        (∀ d : Fin 16, (x.s d = 0#32 → tileLeft t 2 (x.jump tgt.toNat) (.jz t d tgt) s ∧ tileLeft t 1 x.next (.jnz t d tgt) s) ∧
          (x.s d ≠ 0#32 → tileLeft t 1 x.next (.jz t d tgt) s ∧ tileLeft t 2 (x.jump tgt.toNat) (.jnz t d tgt) s)) ∧
        (x.call.length < 8 →
          tileLeft t 2 { x.jump tgt.toNat with call := (x.pc + 1) % 4096 :: x.call } (.call t tgt) s) ∧
        (8 ≤ x.call.length → tileStops t 5 (.call t tgt) s)) ∧
      (∀ a l, x.call = a :: l → tileLeft t 2 { x.jump a with call := l } (.ret t) s) ∧
      (x.call = [] → tileStops t 5 (.ret t) s) ∧
      (∀ (c : Instr) (n : Nat) (e : BitVec 12),
        (∃ w : BitVec 14, c = .loop t w e ∧ n = w.toNat) ∨ (∃ d : Fin 16, c = .loops t d e ∧ n = (x.s d).toNat % 65536) →
        (e.toNat < x.pc + 1 → tileStops t 6 c s) ∧
        (x.pc + 1 ≤ e.toNat → n ≠ 0 → 4 ≤ x.loops.length → tileStops t 6 c s) ∧
        (x.pc + 1 ≤ e.toNat → n ≠ 0 → x.loops.length < 4 →
          tileLeft t 1 { x with pc := (x.pc + 1) % 4096, loops := (x.pc + 1, e.toNat, n) :: x.loops } c s) ∧
        (x.pc + 1 ≤ e.toNat → n = 0 → tileLeft t 1 ({ x with pc := e.toNat }.next) c s)) ∧
      tileLeft t 1 { x with state := 2, stall := some .slot, stallFrom := tick s.m } (.waitslot t) s ∧
      (∀ k : BitVec 8, ∃ y : Tile, tileLeft t 1 y (.signal t k) s ∧ y.signal = k.toNat ∧
        y.events = (if x.events.getLsbD 3 then x.events ||| 16#32 else x.events) ||| 8#32 ∧
        { y with signal := x.signal, events := x.events } = x.next)) ∧
    (x.state = 2 → x.stall = some .slot → exec (.waitslotResume t) s = .next (s.withM (setTile t ({ x.next with
      state := 1, stall := none, stalls := min 0xFFFFFFFF (x.stalls + (tick s.m - x.stallFrom)) } : Tile).stopIfAsked s.m))) ∧
    (x.state ≠ 2 ∨ x.stall ≠ some .slot → exec (.waitslotResume t) s = .next s)

def Obligations.TileScalarsAndBuffers : Prop :=
  ∀ (s : State) (t : Fin 144),
    let x := getTile t s.m
    (x.s 0 = 0#32 ∧ (∀ v, x.setS 0 v = x) ∧ ∀ d v e, d ≠ 0 → (x.setS d v).s e = if e = d then v else x.s e) ∧
    (x.state = 1 → x.paused = false →
      (∀ (d : Fin 16) (k : BitVec 16), tileLeft t 1 (x.setS d (k.signExtend 32)).next (.ldi t d k) s ∧
        (∃ v, tileLeft t 1 (x.setS d v).next (.ldih t d k) s ∧ v.extractLsb' 16 16 = k ∧
          v.extractLsb' 0 16 = (x.s d).extractLsb' 0 16)) ∧
      (∀ (d a b : Fin 16),
        (∀ p ∈ [(0#4, x.s a + x.s b), (1#4, x.s a - x.s b), (2#4, x.s a &&& x.s b), (3#4, x.s a ||| x.s b),
            (4#4, x.s a ^^^ x.s b), (5#4, x.s a <<< ((x.s b).toNat % 32)), (6#4, x.s a >>> ((x.s b).toNat % 32)),
            (7#4, (x.s a).sshiftRight ((x.s b).toNat % 32)), (8#4, if (x.s b).slt (x.s a) then x.s b else x.s a),
            (9#4, if (x.s b).slt (x.s a) then x.s a else x.s b)], tileLeft t 1 (x.setS d p.2).next (.alu t d a b p.1) s) ∧
        (∀ f : BitVec 4, 9 < f.toNat → tileStops t 1 (.alu t d a b f) s) ∧
        (∀ k : BitVec 12, tileLeft t 1 (x.setS d (x.s a + k.signExtend 32)).next (.addi t d a k) s)) ∧
      (∀ d : Fin 16,
        (∀ p ∈ [(0#8, BitVec.ofInt 32 x.sVal), (1#8, BitVec.ofInt 32 (Int.fdiv x.sVal (2 ^ 32))), (2#8, x.srchIdx),
            (3#8, x.wtagWord), (4#8, BitVec.ofNat 32 x.laneOvf), (5#8, BitVec.ofNat 32 (x.shs + 256 * x.shw)),
            (6#8, BitVec.ofNat 32 (tick s.m)), (7#8, BitVec.ofNat 32 x.sidx)],
          tileLeft t 1 (x.setS d p.2).next (.rdsp t d p.1) s) ∧
        (∀ k ∈ [0#8, 1#8, 2#8, 6#8], tileLeft t 1 x.next (.wrsp t d k) s) ∧
        tileLeft t 1 { x.next with wtag := (.valid, false) } (.wrsp t d 3#8) s ∧
        tileLeft t 1 { x.next with laneOvf := x.laneOvf &&& (255 - (x.s d).toNat % 256) } (.wrsp t d 4#8) s ∧
        tileLeft t 1 { x.next with shs := wfld (x.s d) 0 5, shw := wfld (x.s d) 8 5 } (.wrsp t d 5#8) s ∧
        tileLeft t 1 { x.next with sidx := (x.s d).toNat % 65536 } (.wrsp t d 7#8) s ∧
        (∀ k : BitVec 8, 7 < k.toNat → tileStops t 1 (.rdsp t d k) s ∧ tileStops t 1 (.wrsp t d k) s)) ∧
      (∀ w h : BitVec 5, tileLeft t 1 { x.next with shw := w.toNat, shs := h.toNat } (.setsh t w h) s) ∧
      (∀ (c : Fin 8) (a : Fin 16), let b := x.buf c
        tileLeft t 1 (x.setBuf c { b with base := (x.s a).toNat % 65536 }).next (.cbset t c 0 a) s ∧
        (∀ n, n = (x.s a).toNat % 131072 →
          tileLeft t 1 (x.setBuf c { b with len := n, lenNew := decide (n ≠ 0) }).next (.cbset t c 1 a) s) ∧
        tileLeft t 1 (x.setBuf c { b with off := (x.s a).toNat % 65536 }).next (.cbset t c 2 a) s ∧
        tileLeft t 1 (x.setBuf c { b with stride := sext 16 (x.s a).toNat }).next (.cbset t c 3 a) s) ∧
      (∀ (c v : Fin 8) (a : Fin 16), let b := (x.buf c).prep
        (¬ offOk b 4 → tileStops t 3 (.ldw t c a) s ∧ tileStops t 3 (.stw t c a) s) ∧
        (¬ offOk b 8 → tileStops t 3 (.vld t c v) s ∧ tileStops t 3 (.vst t c v) s) ∧
        (offOk b 4 → ∀ e, b.elem 0 4 = e → e < 65536 → e % 4 = 0 →
          tileLeft t 1 ((x.setBuf c b.advance).setS a (x.wordAt e)).next (.ldw t c a) s ∧
          ∃ y : Tile, tileLeft t 1 y.next (.stw t c a) s ∧ y.bytes e 4 = leBytes 4 (x.s a).toNat ∧
            (∀ i, (i < e ∨ e + 4 ≤ i) → y.byte i = x.byte i) ∧ { y with mem := x.mem, bufs := x.bufs } = x ∧
            y.bufs = (x.setBuf c b.advance).bufs) ∧
        (offOk b 4 → ∀ e, b.elem 0 4 = e → 65536 ≤ e → tileStops t 2 (.ldw t c a) s ∧ tileStops t 2 (.stw t c a) s) ∧
        (offOk b 4 → ∀ e, b.elem 0 4 = e → e < 65536 → e % 4 ≠ 0 → tileStops t 3 (.ldw t c a) s ∧ tileStops t 3 (.stw t c a) s) ∧
        (bufOk b 8 [0, 1, 2, 3] →
          tileLeft t 1 ((x.setBuf c b.advance).setV v ([0, 1, 2, 3].map fun i => x.sampleAt (b.elem i 8))).next (.vld t c v) s ∧
          ∃ y : Tile, tileLeft t 1 y.next (.vst t c v) s ∧
            (∀ i < 4, ∀ f, (x.v v)[i]? = some f → (∀ j < 4, i < j → b.elem j 8 ≠ b.elem i 8) →
              y.bytes (b.elem i 8) 8 = leBytes 8 (sampleWord f)) ∧
            (∀ p, (∀ i < 4, p < b.elem i 8 ∨ b.elem i 8 + 8 ≤ p) → y.byte p = x.byte p) ∧
            { y with mem := x.mem, bufs := x.bufs } = x ∧ y.bufs = (x.setBuf c b.advance).bufs) ∧
        (offOk b 8 → ∀ i < 4, (∀ j < i, addrFault (b.elem j 8) 8 = 0) → (65536 ≤ b.elem i 8 →
            tileStops t 2 (.vld t c v) s ∧ tileStops t 2 (.vst t c v) s) ∧
          (b.elem i 8 < 65536 → b.elem i 8 % 8 ≠ 0 → tileStops t 3 (.vld t c v) s ∧ tileStops t 3 (.vst t c v) s))))

def Obligations.TileLanesAccumulateMoveAndSearch : Prop :=
  ∀ (s : State) (t : Fin 144),
    let x := getTile t s.m
    x.state = 1 → x.paused = false →
      (∀ m : BitVec 8, let ks := lanesIn m.toNat
        (∃ y : Tile, accTaken ks (fun _ => 0) (fun _ => (.valid, false)) x y ∧ tileLeft t 1 y.next (.clr t m) s) ∧
        (∃ y : Tile, accTaken [0] (fun _ => (ks.map x.a).sum) (fun _ => ks.foldl (fun g k => tagMerge g (x.aTag k)) (.valid, false)) x y ∧
          tileLeft t 3 y.next (.red t m) s) ∧
        (∃ y : Tile, searched (ks.map fun k => (x.a k, (x.sidx + k) % 65536, x.aTag k)) x y ∧ tileLeft t 1 y.next (.sacc t m) s)) ∧
      (∀ pm : BitVec 4, let ps := pairsIn pm.toNat
        ∃ y : Tile, accTaken [0, 1] (fun k => (ps.map fun i => x.a (2 * i + k)).sum)
          (fun _ => tagMerge (ps.foldl (fun g i => tagMerge g (x.aTag (2 * i))) (.valid, false))
            (ps.foldl (fun g i => tagMerge g (x.aTag (2 * i + 1))) (.valid, false))) x y ∧ tileLeft t 3 y.next (.cred t pm) s) ∧
      (∀ mn : Bool,
        let best : Int := if mn then 2 ^ 47 - 1 else -(2 ^ 47)
        tileLeft t 1 { x.next with sMin := mn, sidx := 0, sVal := best, sIdx := 0xFFFF, sTag := (.valid, false) } (.sclr t mn) s) ∧
      (∀ c : Fin 8, let b := (x.buf c).prep
        let z := x.setBuf c b.advance
        (∀ (v : Fin 8) (m : BitVec 8), bufOk b 8 (pairsOf m.toNat) → ∃ y : Tile, accTaken (lanesIn m.toNat)
          (fun k => let p := (x.v v).getD (k / 2) zeroSample
            let q := x.sampleAt (b.elem (k / 2) 8)
            x.a k + (if k % 2 = 0 then p.i * q.i else p.q * q.q))
          (fun k => tagMerge (x.aTag k) (tagMerge ((x.v v).getD (k / 2) zeroSample).tag (x.sampleAt (b.elem (k / 2) 8)).tag)) z y ∧
          tileLeft t 1 y.next (.mac t c v m) s) ∧
        (∀ (v : Fin 8) (j : Bool) (pm : BitVec 4), bufOk b 8 (pairsIn pm.toNat) → ∃ y : Tile,
          accTaken ((pairsIn pm.toNat).flatMap fun i => [2 * i, 2 * i + 1])
            (fun k => let p := (x.v v).getD (k / 2) zeroSample
              let q := x.sampleAt (b.elem (k / 2) 8)
              let qq := if j then -q.q else q.q
              x.a k + (if k % 2 = 0 then p.i * q.i - p.q * qq else p.i * qq + p.q * q.i))
            (fun k => tagMerge (x.pairTag (k / 2))
              (tagMerge ((x.v v).getD (k / 2) zeroSample).tag (x.sampleAt (b.elem (k / 2) 8)).tag)) z y ∧
          tileLeft t 2 y.next (.cmac t c v j pm) s) ∧
        (∀ (u : Bool) (m : BitVec 8), let ks := lanesIn m.toNat
          bufOk b 4 ks →
          (∃ y : Tile, accTaken ks (fun k => x.a k + wordInt u (x.wordAt (b.elem k 4))) x.aTag z y ∧
            tileLeft t 1 y.next (.accw t c u m) s) ∧
          (∃ y : Tile, accTaken ks (fun k => wordInt u (x.wordAt (b.elem k 4))) (fun _ => (.valid, false)) z y ∧
            tileLeft t 1 y.next (.ldacc t c u m) s) ∧
          (∃ y : Tile, searched (ks.map fun k => (wordInt u (x.wordAt (b.elem k 4)), (x.sidx + k) % 65536, (.valid, false))) z y ∧
            tileLeft t 1 y.next (.smem t c u m) s) ∧
          (∃ y : Tile, tileLeft t 1 y.next (.movw t c u m) s ∧
            (∀ k ∈ ks, (∀ j ∈ ks, k < j → b.elem j 4 ≠ b.elem k 4) →
              y.bytes (b.elem k 4) 4 = leBytes 4 (x.moveWord k u).1.toNat) ∧
            (∀ p, (∀ k ∈ ks, p < b.elem k 4 ∨ b.elem k 4 + 4 ≤ p) → y.byte p = x.byte p) ∧
            y.wtag = ks.foldl (fun g k => tagMerge g (x.aTag k)) x.wtag ∧
            y.events = (if ks.any fun k => (x.moveWord k u).2 then x.events ||| 4#32 else x.events) ∧ y.bufs = z.bufs ∧
            { y with mem := x.mem, wtag := x.wtag, events := x.events, bufs := x.bufs } = x)) ∧
        (∀ pm : BitVec 4, let ps := pairsIn pm.toNat
          bufOk b 8 ps → ∃ y : Tile, tileLeft t 1 y.next (.movs t c pm) s ∧
            (∀ i ∈ ps, (∀ j ∈ ps, i < j → b.elem j 8 ≠ b.elem i 8) →
              y.bytes (b.elem i 8) 8 = leBytes 8 (sampleWord (x.moveSample i).1)) ∧
            (∀ p, (∀ i ∈ ps, p < b.elem i 8 ∨ b.elem i 8 + 8 ≤ p) → y.byte p = x.byte p) ∧
            y.events = (if ps.any fun i => (x.moveSample i).2 then x.events ||| 4#32 else x.events) ∧ y.bufs = z.bufs ∧
            { y with mem := x.mem, events := x.events, bufs := x.bufs } = x) ∧
        (∀ (v : Fin 8) (j : Bool) (m : BitVec 8) (pm : BitVec 4),
          (¬ offOk b 8 → (pairsOf m.toNat ≠ [] → tileStops t 3 (.mac t c v m) s) ∧
            (pairsIn pm.toNat ≠ [] → tileStops t 3 (.cmac t c v j pm) s ∧ tileStops t 3 (.movs t c pm) s)) ∧
          (¬ offOk b 4 → lanesIn m.toNat ≠ [] →
            ∀ k ∈ [.accw t c j m, .ldacc t c j m, .smem t c j m, .movw t c j m], tileStops t 3 k s) ∧
          (offOk b 8 → ∀ i r, pairsOf m.toNat = i :: r → addrFault (b.elem i 8) 8 ≠ 0 →
            tileStops t (addrFault (b.elem i 8) 8) (.mac t c v m) s) ∧
          (offOk b 8 → ∀ i r, pairsIn pm.toNat = i :: r → addrFault (b.elem i 8) 8 ≠ 0 →
            tileStops t (addrFault (b.elem i 8) 8) (.cmac t c v j pm) s ∧
            tileStops t (addrFault (b.elem i 8) 8) (.movs t c pm) s) ∧
          (offOk b 4 → ∀ i r, lanesIn m.toNat = i :: r → addrFault (b.elem i 4) 4 ≠ 0 →
            ∀ k ∈ [.accw t c j m, .ldacc t c j m, .smem t c j m, .movw t c j m],
              tileStops t (addrFault (b.elem i 4) 4) k s)))

def Obligations.TilePortsAndTransfers : Prop :=
  ∀ (s : State) (t : Fin 144),
    let x := getTile t s.m
    let fin : Tile :=
      ({ x.next with state := 1, stall := none, stalls := min 0xFFFFFFFF (x.stalls + (tick s.m - x.stallFrom)) } : Tile).stopIfAsked
    (x.state = 1 → x.paused = false →
      (∀ (v : Fin 8) (p : Fin 2), noFeeder t p s.m →
        ((portOf t p s.m).1 = 0 → tileStops t 4 (.vin t v p) s) ∧
        ((portOf t p s.m).1 ≠ 0 → 4 ≤ (x.inq p).length →
          tileLeft t 1 ((x.next.setV v ((x.inq p).take 4)).setInq p ((x.inq p).drop 4)) (.vin t v p) s) ∧
        ((portOf t p s.m).1 ≠ 0 → (x.inq p).length < 4 →
          tileLeft t 1 { x with state := 2, stall := some (.vin v p), stallFrom := tick s.m } (.vin t v p) s)) ∧
      (∀ (v : Fin 8) (p : Fin 2), atPc t (.vin t v p) s → (portOf t p s.m).1 ≠ 0 → 4 ≤ (x.inq p).length → ∃ u, exec (.vin t v p) s = .next (s.withM u) ∧
        (getTile t u).portless = ({ (x.next.setV v ((x.inq p).take 4)).portless with
          evcount := min 0xFFFFFFFF (x.evcount + 1) } : Tile).stopIfAsked ∧
        ∀ j, j ≠ t.val → (getTile j u).portless = (getTile j s.m).portless) ∧
      (∀ (p : Fin 2) (pm : BitVec 4),
        let c := (portOf t (2 + p) s.m).1
        let n := (pairsIn pm.toNat).length
        (c = 0 → tileStops t 4 (.movo t p pm) s) ∧
        (c ∉ [0, 2, 5, 6] → (x.outq p).length + n ≤ 16 →
          tileLeft t 1 ((x.next.setOutq p []).evIf (x.outSamples pm.toNat).2 2) (.movo t p pm) s) ∧
        (c ∉ [0, 2, 5, 6] → 16 < (x.outq p).length + n →
          tileLeft t 1 ({ x with state := 2, stall := some (.movo p pm.toNat), stallFrom := tick s.m }.setOutq p [])
            (.movo t p pm) s) ∧
        (atPc t (.movo t p pm) s → c ≠ 0 → (x.outq p).length + n ≤ 16 → ∃ u, exec (.movo t p pm) s = .next (s.withM u) ∧
          (getTile t u).portless = ({ (x.next.evIf (x.outSamples pm.toNat).2 2).portless with
            evcount := min 0xFFFFFFFF (x.evcount + 1) } : Tile).stopIfAsked ∧
          ∀ j, j ≠ t.val → (getTile j u).portless = (getTile j s.m).portless)) ∧
      (∀ (c : Fin 8) (a b : Fin 16) (d : Bool),
        let len := (x.s b).toNat
        let r := xferUnits (len / 32) (x.buf c).prep
        let legal := len % 32 = 0 ∧ 32 ≤ len ∧ len ≤ 4096 ∧ ∃ i ∈ x.grant, inPart i (x.s a).toNat len s.m = true;
        (2 ≤ x.xfers.length →
          tileLeft t 1 { x with state := 2, stall := some (.xfer c a b d), stallFrom := tick s.m } (.xfer t c a b d) s) ∧
        (x.xfers.length < 2 → ¬ legal → tileStops t 7 (.xfer t c a b d) s) ∧
        (x.xfers.length < 2 → legal → (∀ e ∈ r.1.flatten, e < 65536 ∧ e % 8 = 0) →
          tileLeft t 1 { (x.setBuf c r.2).next with xfers := x.xfers ++ [⟨d, (x.s a).toNat, r.1.flatten⟩] }
            (.xfer t c a b d) s)) ∧
      (x.xfers = [] → tileLeft t 1 x.next (.waitx t) s) ∧
      (x.xfers ≠ [] → tileLeft t 1 { x with state := 2, stall := some .waitx, stallFrom := tick s.m } (.waitx t) s)) ∧
    (x.state ≠ 2 → exec (.vinComplete t) s = .next s ∧ exec (.waitxComplete t) s = .next s) ∧
    (x.state = 2 →
      (∀ v p, x.stall = some (.vin v p) → ((x.inq p).length < 4 → exec (.vinComplete t) s = .next s) ∧
        (4 ≤ (x.inq p).length → noFeeder t p s.m → exec (.vinComplete t) s =
          .next (s.withM (setTile t ((fin.setV v ((x.inq p).take 4)).setInq p ((x.inq p).drop 4)) s.m)))) ∧
      (∀ p < 2, ∀ pm, x.stall = some (.movo p pm) → (portOf t (2 + p) s.m).1 ∉ [0, 2, 5, 6] →
        ∃ u, exec (.movoComplete t) s = .next (s.withM u) ∧
          (getTile t u).portless = (fin.evIf (x.outSamples pm).2 2).portless) ∧
      (x.stall = some .waitx → (x.xfers = [] → exec (.waitxComplete t) s = .next (s.withM (setTile t fin s.m))) ∧
        (x.xfers ≠ [] → exec (.waitxComplete t) s = .next s))) ∧
    (x.xfers = [] → exec (.xferEnd t) s = .next s) ∧
    (∀ f l, x.xfers = f :: l →
      (f.toRes = true → x.state ≠ 2 → ∃ u, exec (.xferEnd t) s = .next (s.withM u) ∧ getTile t u = { x with xfers := l } ∧
        tilesKept t s.m u ∧ bytesKept f.resAddr (8 * f.units.length) s.m u ∧
        ((∀ a, poisoned a s.m = false) →
          resBytes f.resAddr (8 * f.units.length) u = f.units.flatMap fun a => x.bytes a 8)) ∧
      (f.toRes = false → x.state ≠ 2 → x.owner = 0 → ∃ u, exec (.xferEnd t) s = .next (s.withM u) ∧ tilesKept t s.m u ∧
        u.res = s.m.res ∧ (getTile t u).xfers = l ∧ { getTile t u with mem := x.mem, xfers := x.xfers } = x ∧
        (∀ p, (∀ e ∈ f.units, p < e ∨ e + 8 ≤ p) → (getTile t u).byte p = x.byte p) ∧
        ∀ k e, f.units[k]? = some e → (∀ j e', f.units[j]? = some e' → k < j → e' + 8 ≤ e ∨ e + 8 ≤ e') → ∀ i < 8,
          (getTile t u).byte (e + i) =
            if poisoned (f.resAddr + 8 * k + i) s.m then 0#8 else resByte (f.resAddr + 8 * k + i) s.m) ∧
      (f.toRes = true → x.state = 2 → ∀ c a b d y, x.stall = some (.xfer c a b d) →
        Tile.issue { x with xfers := l } c a b d s.m = .done y → ∃ u, exec (.xferEnd t) s = .next (s.withM u) ∧
          getTile t u = ({ y.next with state := 1, stall := none, stalls := fin.stalls } : Tile).stopIfAsked ∧ tilesKept t s.m u))

def Obligations.TileHostAccessAndSpares : Prop :=
  ∀ (s : State) (t : Fin 144),
    let x := getTile t s.m
    let q := tileQuad t
    let refused (c : Instr) : Prop := exec c s = .next (s.withM (tileEv t 5 s.m));
    (getTile t (tileEv t 5 s.m) = { x with events := x.events ||| 32#32 } ∧ tilesKept t s.m (tileEv t 5 s.m) ∧
      regsKept [HLT_LOG_WPTR, HLT_EVENTS] s.m (tileEv t 5 s.m)) ∧
    (reach (tileBase t) s.m = false → ∀ o v,
      ∀ c ∈ [.tileRun t, .tileHalt t, .tileForceHalt t, .tileClrWtag t, .tileCmdInvalid t v, .tileWindowWrite t o v],
        exec c s = .next s) ∧
    (reach (tileBase t) s.m = true →
      (x.yours = false → ∀ c ∈ [.tileRun t, .tileHalt t, .tileForceHalt t, .tileClrWtag t], refused c) ∧
      (x.yours = true → (x.discard = true → refused (.tileRun t)) ∧ (x.state = 1 ∨ x.state = 2 → refused (.tileRun t) ∧
          exec (.tileHalt t) s = .next (s.withM (setTile t { x with haltReq := true } s.m)) ∧
          exec (.tileForceHalt t) s = .next (s.withM (setTile t { x with
            state := 0, stall := none, haltReq := false,
            stalls := if x.state = 1 then x.stalls else min 0xFFFFFFFF (x.stalls + (tick s.m - x.stallFrom)) } s.m))) ∧
        (x.state ≠ 1 → x.state ≠ 2 → exec (.tileHalt t) s = .next s ∧ exec (.tileForceHalt t) s = .next s ∧
          (x.discard = false → exec (.tileRun t) s = .next (s.withM (setTile t { x with
            state := 1, fault := 0, pc := x.entry, call := [], loops := [], evcount := 0, stalls := 0, stall := none, haltReq := false } s.m)))) ∧
        exec (.tileClrWtag t) s = .next (s.withM (setTile t { x with wtag := (.valid, false) } s.m))) ∧
      (∀ v : W, (v.extractLsb' 16 16 ≠ 0x4E17#16 → refused (.tileCmdInvalid t v) ∧ refused (.tileWindowWrite t 0#16 v)) ∧
        (v = 0x4E170001#32 → x.yours = true → x.state = 1 ∨ x.discard = true → refused (.tileCmdInvalid t v)) ∧
        (v = 0x4E170001#32 → x.yours = true → x.state = 0 → x.discard = false → exec (.tileCmdInvalid t v) s = .next s) ∧
        (∀ o : BitVec 16, (0xC0 ≤ o.toNat ∧ o.toNat < 0x4000) ∨ o.toNat % 4 ≠ 0 →
          exec (.tileWindowWrite t o v) s = .next (s.withM (setEv GCTL_GLOBAL_EVENTS.addr_err s.m))) ∧
        (x.yours = false → ∀ o : BitVec 16, o.toNat < 0xC0 ∨ 0x4000 ≤ o.toNat → o.toNat % 4 = 0 → o ≠ 0#16 →
          refused (.tileWindowWrite t o v)) ∧
        (x.yours = true →
          exec (.tileWindowWrite t 0x10#16 v) s = .next (s.withM (setTile t { x with entry := v.toNat % 4096 } s.m)) ∧
          exec (.tileWindowWrite t 0x2C#16 v) s = .next (s.withM (setTile t { x with page := v.toNat % 2 } s.m)) ∧
          exec (.tileWindowWrite t 0x8#16 v) s = .next (s.withM (setTile t { x with events := x.events &&& ~~~v } s.m)) ∧
          (∀ o : BitVec 16, 0x8000 ≤ o.toNat → o.toNat % 4 = 0 → exec (.tileWindowWrite t o v) s =
            .next (s.withM (setTile t (x.putWord (0x8000 * x.page + (o.toNat - 0x8000)) v) s.m))) ∧
          (∀ o : BitVec 16, 0x40 ≤ o.toNat ∧ o.toNat < 0xC0 ∨ 0x4000 ≤ o.toNat ∧ o.toNat < 0x8000 → o.toNat % 4 = 0 →
            x.state ≠ 0 → x.state ≠ 3 → refused (.tileWindowWrite t o v)) ∧
          (x.state = 0 ∨ x.state = 3 →
            (∀ i < 4096, ∃ y, exec (.tileWindowWrite t (BitVec.ofNat 16 (0x4000 + 4 * i)) v) s =
                .next (s.withM (setTile t y s.m)) ∧ tabGet (fun _ => 0#32) y.prog i = v ∧
              (∀ j, j ≠ i → tabGet (fun _ => 0#32) y.prog j = tabGet (fun _ => 0#32) x.prog j) ∧ { y with prog := x.prog } = x) ∧
            ∀ c < 8, (v.toNat % 8 = 0 → exec (.tileWindowWrite t (BitVec.ofNat 16 (0x40 + 16 * c)) v) s =
                .next (s.withM (setTile t (x.setBuf c { x.buf c with base := v.toNat % 65536 }) s.m))) ∧
              (v.toNat % 8 ≠ 0 → refused (.tileWindowWrite t (BitVec.ofNat 16 (0x40 + 16 * c)) v)))))) ∧
    (x.haltReq = true → x.state = 1 →
      exec (.tileHaltComplete t) s = .next (s.withM (setTile t { x with state := 0, haltReq := false } s.m))) ∧
    (x.haltReq = false ∨ x.state ≠ 1 → exec (.tileHaltComplete t) s = .next s) ∧
    (x.state = 1 → x.paused = false →
      tileLeft t 1 { x.next with paused := x.pausable && isPlanned 2 t s.m } (.ckpt t) s) ∧
    (spareTile q s.m = none ∨ x.serving = false → exec (.tileSubstComplete t) s = .next s ∧ exec (.tileSpareStart t) s = .next s) ∧
    (x.serving = false → exec (.tileHardFail t) s = .next s) ∧
    (x.serving = true →
      let failed : Tile := { x.portless with
        state := 3, fault := 8, stall := none, paused := false, discard := true, events := x.events ||| 1#32 }
      (spareTile q s.m = none → ∃ u, exec (.tileHardFail t) s = .next (s.withM u) ∧ tilesKept t s.m u ∧
        getTile t u = { failed with serving := false } ∧ fon HLT_REPLACE.no_spare u = true ∧ u.res = s.m.res) ∧
      ∀ sp, spareTile q s.m = some sp →
        (∃ u, exec (.tileHardFail t) s = .next (s.withM u) ∧ tilesKept t s.m u ∧ getTile t u = failed ∧ u.res = s.m.res) ∧
        (isPlanned 2 t s.m = true → x.paused = true ∨ x.state = 0 → s.m.hlt.waiting = [] →
          ∃ u, exec (.tileSubstComplete t) s = .next (s.withM u) ∧ spareTaken 2 q s.m u ∧ planOver u ∧
            getTile sp u = { x with paused := false, events := (getTile sp s.m).events ||| 128#32 } ∧
            getTile t u = { x with serving := false, state := 0, paused := false, stall := none } ∧
            ∀ j, j ≠ t.val → j ≠ sp → getTile j u = getTile j s.m) ∧
        (x.discard = true → ∃ u, exec (.tileSpareStart t) s = .next (s.withM u) ∧ spareTaken 2 q s.m u ∧
          fon HLT_EVENTS.hard_sub u = true ∧ (getTile sp u).logical = x.logical ∧ (getTile sp u).serving = true ∧
          (getTile sp u).state = 1 ∧ (getTile sp u).pc = (getTile sp u).entry ∧ (getTile sp u).events.getLsbD 7 = true ∧
          getTile t u = { x with serving := false, state := 0, paused := false, stall := none } ∧
          ∀ j, j ≠ t.val → j ≠ sp → getTile j u = getTile j s.m))

def Obligations.SparesTakeOver : Prop :=
  ∀ (s : State),
    let m := s.m
    let out (c : Instr) (P : Mach → Prop) : Prop :=
      ∃ u, exec c s = .next (s.withM u) ∧ u.res = m.res ∧ u.stage = m.stage ∧ u.tiles = m.tiles ∧ P u;
    (∀ u : RxUnit,
      (slicePlanned u m = none → exec (.sliceRemapPlanned u) s = .next s) ∧
      (∀ s0 pos, slicePlanned u m = some s0 → posOfSlice u s0 m = some pos → hasSpareSlice u m = true →
        quadState (rxQuad u) m ≠ 2 → m.hlt.waiting = [] → out (.sliceRemapPlanned u) fun t =>
          sliceAt u pos t = sliceAt u 4 m ∧ sliceAt u 4 t = 7 ∧ (∀ i < 4, i ≠ pos → sliceAt u i t = sliceAt u i m) ∧
          fon (QUAD_RX_EVENTS.slice_remap u) t = true ∧ spareTaken (unitKind u) (unitPool u) m t ∧ planOver t) ∧
      (∀ pos : Fin 4,
        (hasSpareSlice u m = true → out (.sliceHardFail u pos) fun t =>
          sliceAt u pos t = sliceAt u 4 m ∧ sliceAt u 4 t = 7 ∧ (∀ i < 4, i ≠ pos.val → sliceAt u i t = sliceAt u i m) ∧
          fon (QUAD_RX_EVENTS.slice_fail u) t = true ∧ fon HLT_EVENTS.hard_sub t = true ∧
          fon (QUAD_RX_STATUS.unc_hi u) t = true ∧ spareTaken (unitKind u) (unitPool u) m t) ∧
        (hasSpareSlice u m = false → out (.sliceHardFail u pos) fun t =>
          (∀ i < 5, sliceAt u i t = sliceAt u i m) ∧ pos.val ∈ (getRx (rxKey u) t).badPos ∧
          fon (QUAD_RX_EVENTS.slice_fail u) t = true ∧ fon (QUAD_RX_EVENTS.no_spare u) t = true ∧
          fon HLT_REPLACE.no_spare t = true ∧ ∀ n : Fin 64, u = .path n → rxFailed n t = true))) ∧
    (∀ (d : Dir) (col : Fin 32),
      let f := if isDl d then BMU_COL_MAP.dl_spare_for else BMU_COL_MAP.ul_spare_for
      let pool := if isDl d then 1 else 0
      (m.hlt.running = none → exec (.columnRemapPlanned d col) s = .next s) ∧
      let named := (colPlan (isDl d) m).any fun p => p.col == col.val
      (∀ r, m.hlt.running = some r → r.kind.val = 4 → r.pool = pool → r.phys = col.val →
        (colFree (isDl d) m = true → out (.columnRemapPlanned d col) fun t =>
          ∃ p, colPlan (isDl d) t = some p ∧ p.col = col.val ∧ p.planned = true) ∧
        (colFree (isDl d) m = false → named = false → out (.columnRemapPlanned d col) fun t =>
          col.val ∈ colsDown (isDl d) t ∧ t.hlt.running = none)) ∧
      (∀ p, colPlan (isDl d) m = some p → p.wait = false → p.col < 32 → let t := endColPlan (isDl d) m
        fget f t = p.col ∧ poolUsed 4 pool t = poolUsed 4 pool m + 1 ∧ colPlan (isDl d) t = none ∧
        fon (if p.planned then BMU_EVENTS.col_remap else BMU_EVENTS.col_fail) t = true ∧
        (p.planned = true → m.hlt.waiting = [] → planOver t)) ∧
      (col.val ∈ colsDown (isDl d) m → exec (.columnHardFail d col) s = .next s) ∧
      (col.val ∉ colsDown (isDl d) m → colFree (isDl d) m = true ∨ named = true → out (.columnHardFail d col) fun t =>
        ∃ p, colPlan (isDl d) t = some p ∧ p.col = col.val ∧ p.planned = false) ∧
      (col.val ∉ colsDown (isDl d) m → colFree (isDl d) m = false → named = false → out (.columnHardFail d col) fun t =>
        fon HLT_REPLACE.no_spare t = true ∧ col.val ∈ colsDown (isDl d) t)) ∧
    (∀ n : Fin 64,
      let q := n.val / 16
      let p := fget (QUAD_PD_STATUS.phys n) m
      (isPlanned 3 p m = false → exec (.engineSubstPlanned n) s = .next s) ∧
      (isPlanned 3 p m = true → 0 < poolLeft 3 q m → spareAwaited q m = none → m.hlt.waiting = [] →
        out (.engineSubstPlanned n) fun t => fget (QUAD_PD_STATUS.phys n) t = 17 * q + 16 ∧
          fget (QUAD_PD_Q_STATUS.serves q) t = n.val % 16 ∧ fon (QUAD_PD_EVENTS.eng_remap n) t = true ∧
          spareTaken 3 q m t ∧ planOver t) ∧
      ((getPd n m).lost = true ∨ (getPd n m).dead = true → exec (.engineHardFail n) s = .next s) ∧
      ((getPd n m).lost = false → (getPd n m).dead = false →
        (0 < poolLeft 3 q m → spareAwaited q m = none → out (.engineHardFail n) fun t =>
          fon (QUAD_PD_EVENTS.eng_fail n) t = true ∧ (getPd n t).dead = true) ∧
        (poolLeft 3 q m = 0 ∨ spareAwaited q m ≠ none → out (.engineHardFail n) fun t =>
          fon (QUAD_PD_EVENTS.eng_fail n) t = true ∧ (getPd n t).lost = true ∧ fon HLT_REPLACE.no_spare t = true))) ∧
    (∀ q : Fin 4, (spareAwaited q m = none → exec (.engineSpareTakeover q) s = .next s) ∧
      ∀ n, spareAwaited q m = some n → out (.engineSpareTakeover q) fun t => (getPd n t).dead = false ∧
        fget (QUAD_PD_STATUS.phys n) t = 17 * q.val + 16 ∧ fon HLT_EVENTS.hard_sub t = true ∧ spareTaken 3 q m t) ∧
    (∀ (tx : Bool) (pos : Fin 8), let c := if tx then SerdesLane.tx pos else SerdesLane.rx pos
      (serdesPlanned tx pos m = false → exec (.serdesSubstPlanned tx pos) s = .next s) ∧
      (serdesFree tx m = true →
        (serdesPlanned tx pos m = true → m.hlt.waiting = [] → out (.serdesSubstPlanned tx pos) fun t =>
          serdesSpare tx t = some pos.val ∧ fon EPL_EVENTS.serdes_remap t = true ∧ planOver t ∧
          spareTaken 7 (if tx then 0 else 1) m t) ∧
        out (.serdesHardFail c) fun t => serdesSpare tx t = some pos.val ∧ fon EPL_EVENTS.serdes_remap t = true ∧
          fon HLT_EVENTS.hard_sub t = true ∧ spareTaken 7 (if tx then 0 else 1) m t) ∧
      (serdesFree tx m = false → out (.serdesHardFail c) fun t => fon HLT_REPLACE.no_spare t = true ∧
        (if tx then pos.val else 8 + pos.val) ∈ t.nvm.remap.serdesDead)) ∧
    (∀ l : Fin 2,
      (m.nvm.remap.mirLane = none → 0 < poolLeft 8 0 m → out (.serdesHardFail (.mir l)) fun t =>
        t.nvm.remap.mirLane = some l.val ∧ fget HLT_MIR_STATUS.spare_for t = l.val + 1 ∧ spareTaken 8 0 m t) ∧
      (m.nvm.remap.mirLane ≠ none ∨ poolLeft 8 0 m = 0 → out (.serdesHardFail (.mir l)) fun t =>
        (rd HLT_MIR_STATUS t).getLsbD (8 + l.val) = false ∧ fon HLT_REPLACE.no_spare t = true)) ∧
    ((m.hlt.running = none → exec .gafferSubstPlanned s = .next s) ∧
      (∀ r, m.hlt.running = some r → r.kind.val = 9 → 0 < poolLeft 9 0 m → m.hlt.waiting = [] →
        out .gafferSubstPlanned fun t => spareTaken 9 0 m t ∧ planOver t) ∧
      (coreOn m = false → exec .gafferHardFail s = .next s) ∧
      (coreOn m = true →
        (0 < poolLeft 9 0 m → out .gafferHardFail fun t => fon HLT_EVENTS.gaffer_fail t = true ∧
          fon HLT_EVENTS.hard_sub t = true ∧ spareTaken 9 0 m t) ∧
        (poolLeft 9 0 m = 0 → out .gafferHardFail fun t => fon HLT_EVENTS.gaffer_fail t = true ∧
          fon HLT_REPLACE.no_spare t = true))) ∧
    (∀ (bank : Fin 64), let p := physBank bank m
      (∀ row : Fin 1024, (m.hlt.running = none → exec (.resRowRemap bank row) s = .next s) ∧
        ∀ r, m.hlt.running = some r → r.kind.val = 5 → r.pool = p → r.phys = row.val → 0 < poolLeft 5 p m →
          m.hlt.waiting = [] → out (.resRowRemap bank row) fun t => fon RES_EVENTS.row_remap t = true ∧ spareTaken 5 p m t ∧
            planOver t ∧ tabGet (fun _ => 0) t.nvm.remap.rows (1024 * p + row.val) = 20 - poolLeft 5 p m + 1) ∧
      (isPlanned 6 p m = false → exec (.resBankRemap bank) s = .next s) ∧
      (∀ sp, spareBank m = some sp →
        (isPlanned 6 p m = true → m.hlt.waiting = [] → out (.resBankRemap bank) fun t => physBank bank t = sp ∧
          fon RES_EVENTS.bank_remap t = true ∧ spareTaken 6 0 m t ∧ planOver t) ∧
        out (.resBankHardFail bank) fun t => physBank bank t = sp ∧ fon RES_EVENTS.bank_fail t = true ∧
          fon HLT_EVENTS.hard_sub t = true ∧ spareTaken 6 0 m t ∧
          ∀ a, offLog a m → poisoned a t = if a / 64 % 64 = bank.val then true else poisoned a m) ∧
      (spareBank m = none → out (.resBankHardFail bank) fun t => fon RES_EVENTS.bank_fail t = true ∧
        fon HLT_REPLACE.no_spare t = true ∧ ∀ a, offLog a m → poisoned a t = if a / 64 % 64 = bank.val then true else poisoned a m))

def Obligations.ReservoirAccessesAndCaptures : Prop :=
  ∀ (s : State),
    let m := s.m
    (∀ n e, 0x800000 ≤ n → exec (.scrubRead n e) s = .fault .malformedCommand) ∧
    (∀ n < 0x800000, let a := 0x40000000 + 8 * n
      (∀ e, coreOn m = false → exec (.scrubRead n e) s = .next s) ∧
      (coreOn m = true → poisoned a m = false → exec (.scrubRead n .clean) s = .next s ∧
        (∃ u, exec (.scrubRead n .corrected) s = .next (s.withM u) ∧ fon RES_EVENTS.ce u = true ∧
          (rd RES_CE_COUNT u).toNat = min 0xFFFFFFFF ((rd RES_CE_COUNT m).toNat + 1) ∧ u.res = m.res ∧ u.tiles = m.tiles ∧
          (∀ b, offLog b m → poisoned b u = poisoned b m) ∧
          (fon (HLT_RETIRE.en 5) m = false → fon (HLT_RETIRE.en 6) m = false → storesKept m u)) ∧
        ∃ u, exec (.scrubRead n .double) s = .next (s.withM u) ∧ storesKept m u ∧ fon RES_EVENTS.ue u = true ∧
          rd RES_ERR_ADDR u = BitVec.ofNat 32 a ∧ (rd RES_UE_COUNT u).toNat = min 0xFFFFFFFF ((rd RES_UE_COUNT m).toNat + 1) ∧
          ∀ b, offLog b m → poisoned b u = if b / 8 = a / 8 then true else poisoned b m) ∧
      (coreOn m = true → poisoned a m = true → ∀ e, ∃ u, exec (.scrubRead n e) s = .next (s.withM u) ∧ storesKept m u ∧
        fon RES_EVENTS.ue u = true ∧ rd RES_ERR_ADDR u = BitVec.ofNat 32 a ∧
        ∀ b, offLog b m → poisoned b u = poisoned b m)) ∧
    (∀ a v, (reach 0x40000000 m = false → exec (.resWindowWrite a v) s = .next s) ∧
      (reach 0x40000000 m = true →
        (resMapped a = false → exec (.resWindowWrite a v) s = .next (s.withM (setEv GCTL_GLOBAL_EVENTS.addr_err m))) ∧
        (resMapped a = true → partOf a m = some 7 →
          (poisoned a m = false → ∃ u, exec (.resWindowWrite a v) s = .next (s.withM u) ∧ resBytes a 4 u = leBytes 4 v.toNat ∧
            bytesKept a 4 m u ∧ u.regs = m.regs ∧ u.tiles = m.tiles) ∧
          (poisoned a m = true → exec (.resWindowWrite a v) s = .next (s.withM (setEv RES_EVENTS.ue m)))) ∧
        (∀ i, resMapped a = true → partOf a m = some i → i ≠ 1 → i ≠ 7 →
          exec (.resWindowWrite a v) s = .next (s.withM (setEv RES_EVENTS.res_ro m))))) ∧
    (∀ a e, (reach 0x40000000 m = false → exec (.resWindowRead a e) s = .next (s.withM { m with out := m.out ++ [.rdata 0#32] })) ∧
      (∀ i, reach 0x40000000 m = true → resMapped a = true → partOf a m = some i → i ≠ 6 →
        (poisoned a m = false → exec (.resWindowRead a .clean) s =
          .next (s.withM { m with out := m.out ++ [.rdata (viewWord a m)] })) ∧
        (poisoned a m = true → ∃ u, exec (.resWindowRead a e) s = .next (s.withM u) ∧ u.out = m.out ++ [.rdata 0#32] ∧
          fon RES_EVENTS.ue u = true ∧ storesKept m u))) ∧
    (∀ (i : Fin 8) v, reach (RES_PART_QUOTA i) m = true →
      (deckLoaded m = false ∨ 3 ≤ i.val ∨ fget (RES_PART_SIZE.size i) m < v.toNat % 2048 →
        exec (.partQuotaWrite i v) s = .next (s.withM (setEv RES_EVENTS.quota_err m))) ∧
      (deckLoaded m = true → i.val < 3 → v.toNat % 2048 ≤ fget (RES_PART_SIZE.size i) m →
        ∃ u, exec (.partQuotaWrite i v) s = .next (s.withM u) ∧ fget (RES_PART_QUOTA.quota i) u = v.toNat % 2048 ∧
          regsKept [RES_PART_QUOTA i, DIR_STATUS] m u ∧ storesKept m u ∧
          fon DIR_STATUS.over_quota u = decide (partQuota 0 u < partUse 0 u))) ∧
    (∀ c : Fin 8,
      let x := getCap c m
      let st := capState c m
      let L := [RES_CAP_STATUS c, RES_CAP_WPTR c, RES_CAP_RPTR c, RES_CAP_WRAPS c, RES_CAP_LEN c, RES_CAP_CPL_LO c,
        RES_CAP_CPL_HI c, RES_CAP_T0_LO c, RES_CAP_T0_HI c, RES_PART_USE 2, RES_EVENTS, HLT_LOG_WPTR, HLT_EVENTS]
      let out (i : Instr) (P : Mach → Prop) : Prop := ∃ u, exec i s = .next (s.withM u) ∧ regsKept L m u ∧
        (∀ k, k ≠ c.val → getCap k u = getCap k m) ∧ u.tiles = m.tiles ∧ u.stage = m.stage ∧ u.nvm = m.nvm ∧ P u
      let refused (i : Instr) (f : Fld) : Prop := exec i s = .next (s.withM (setEv f m));
      (reach (RES_CAP_CMD c) m = false → exec (.capArm c) s = .next s ∧ exec (.capStop c) s = .next s ∧
        exec (.capRelease c) s = .next s) ∧
      (reach (RES_CAP_CMD c) m = true →
        (st = 1 ∨ st = 2 → refused (.capArm c) RES_EVENTS.cap_err) ∧
        (∀ f, armRefusal c m = some f → refused (.capArm c) f) ∧
        (armRefusal c m = none → out (.capArm c) fun u => capState c u = 1 ∧ rd (RES_CAP_WPTR c) u = 0#32 ∧
          rd (RES_CAP_RPTR c) u = 0#32 ∧ rd (RES_CAP_WRAPS c) u = 0#32 ∧ (getCap c u).recs = 0 ∧ capLen c u = capLen c m ∧
          partUse 2 u = partUse 2 m + (if st = 0 then capLen c m else 0) ∧ u.res = m.res) ∧
        (st = 2 → x.stopping = 0 → exec (.capStop c) s = .next (s.withM (setCap c { x with stopping := 1 } m))) ∧
        (st ≠ 2 → exec (.capStop c) s = .next s) ∧ (st = 0 → exec (.capRelease c) s = .next s) ∧
        (st = 2 → exec (.capRelease c) s = .next (s.withM (setCap c { x with stopping := 2 } m))) ∧
        (st = 1 ∨ st = 3 → out (.capRelease c) fun u => capState c u = 0 ∧ partUse 2 u = partUse 2 m - capHeld c m ∧
          u.res = m.res)) ∧
      (let fires := st = 1 ∧ trigDue c m = true;
        (¬ fires → exec (.capTrigger c) s = .next s) ∧
        (fires → out (.capTrigger c) fun u => capState c u = 2 ∧ (getCap c u).trigAt = trigTick (fget (RES_CAP_CTRL.trig c) m) m ∧
          u.res = m.res)) ∧
      (st ≠ 2 ∨ x.stopping ≠ 0 ∨ (capMode c m = 1 ∧ capNrec c m ≤ x.recs) ∨ recTime c m = none →
        exec (.capRecord c) s = .next s) ∧
      (∀ t, st = 2 → x.stopping = 0 → (capMode c m ≠ 1 ∨ x.recs < capNrec c m) → recTime c m = some t →
        let n := capRecBytes c m
        let w := (rd (RES_CAP_WPTR c) m).toNat
        (x.unread + n ≤ capLen c m → w + n < capLen c m → (∀ a, poisoned a m = false) → out (.capRecord c) fun u =>
          resBytes (capBase c m + w) n u = (recSamples c t m).flatMap (fun y => leBytes 8 (sampleWord y)) ∧
          bytesKept (capBase c m + w) n m u ∧ (rd (RES_CAP_WPTR c) u).toNat = w + n ∧ (getCap c u).recs = x.recs + 1 ∧
          (getCap c u).unread = x.unread + n ∧ capState c u = 2 ∧
          ((recSamples c t m).any (fun y => y.st == .gap) = true → fon (RES_CAP_STATUS.gap_seen c) u = true) ∧
          (x.recs = 0 → rd (RES_CAP_T0_LO c) u = BitVec.ofNat 32 t)) ∧
        (capMode c m ≠ 1 → fon (RES_CAP_CTRL.hold c) m = true → capLen c m < x.unread + n → out (.capRecord c) fun u =>
          fget (RES_CAP_STATUS.lost c) u = min 65535 (fget (RES_CAP_STATUS.lost c) m + 1) ∧ u.res = m.res ∧
          (getCap c u).recs = x.recs)) ∧
      (let full := st = 2 ∧ capMode c m = 1 ∧ x.stopping = 0 ∧ capNrec c m ≤ x.recs;
        (¬ full → exec (.capSnapshotDone c) s = .next s) ∧
        (full → out (.capSnapshotDone c) fun u => capState c u = 3 ∧ fon RES_EVENTS.cap_done u = true ∧ u.res = m.res)) ∧
      (st ≠ 2 ∨ x.stopping = 0 → exec (.capStopDone c) s = .next s) ∧
      (st = 2 → x.stopping = 1 → out (.capStopDone c) fun u => capState c u = 3 ∧ u.res = m.res ∧ (getCap c u).lenPend = none ∧
        partUse 2 u = partUse 2 m - (capHeld c m - capLen c m)) ∧
      (st = 2 → x.stopping = 2 → out (.capStopDone c) fun u => capState c u = 0 ∧ u.res = m.res ∧
        partUse 2 u = partUse 2 m - capHeld c m) ∧
      (∀ v : W, reach (RES_CAP_LEN c) m = true →
        (v.toNat % 64 ≠ 0 ∨ v.toNat < 4096 → refused (.capLenWrite c v) RES_EVENTS.cap_err) ∧
        (v.toNat % 64 = 0 → 4096 ≤ v.toNat →
          (st = 0 → exec (.capLenWrite c v) s = .next (s.withM (wr (RES_CAP_LEN c) v m))) ∧
          (st = 1 ∨ st = 2 → capMode c m = 1 → refused (.capLenWrite c v) RES_EVENTS.cap_err) ∧
          (∀ f, st = 3 → lenRefusal c v.toNat m = some f → refused (.capLenWrite c v) f) ∧
          (st = 3 → lenRefusal c v.toNat m = none → out (.capLenWrite c v) fun u => rd (RES_CAP_LEN c) u = v ∧ u.res = m.res ∧
            partUse 2 u = partUse 2 m + v.toNat - capHeld c m) ∧
          (st = 1 ∨ st = 2 → capMode c m ≠ 1 → lenRefusal c v.toNat m = none → out (.capLenWrite c v) fun u =>
            capLen c u = capLen c m ∧ (getCap c u).lenPend = some v.toNat ∧ fon (RES_CAP_STATUS.len_pending c) u = true))) ∧
      (∀ (r : CapReg) (v : W), reach (capRegAddr c r) m = true →
        (st = 1 ∨ st = 2 ∨ (r = .ctrl ∧ v.toNat % 4 = 3) → refused (.capCfgWrite c r v) RES_EVENTS.cap_err) ∧
        (st ≠ 1 → st ≠ 2 → (r = .ctrl → v.toNat % 4 ≠ 3) → ∃ u, exec (.capCfgWrite c r v) s = .next (s.withM u) ∧
          rd (capRegAddr c r) u = (if r = .ctrl then v &&& 0x3F#32 else v) ∧ regsKept [capRegAddr c r] m u ∧
          storesKept m u ∧ u.cap = m.cap)))

def Obligations.DmaChannelsRunTheirChains : Prop :=
  ∀ (s : State) (ch : Fin 32),
    let m := s.m
    let x := getDma ch m
    let st := dmaState ch m
    let a := dmaDescAddr ch m
    let rest := st = 0 ∨ st = 4
    let kept (u : Mach) : Prop := (∀ k, k ≠ ch.val → getDma k u = getDma k m) ∧ u.tiles = m.tiles ∧ u.stage = m.stage ∧ u.nvm = m.nvm
    let L := [DMA_CH_STATUS ch, DMA_CH_DESC ch, DMA_CH_POS ch, DMA_CH_COUNT ch, DMA_STATUS, DMA_DONE, DMA_ERR, RES_EVENTS,
      RES_UE_COUNT, RES_ERR_ADDR, HLT_LOG_WPTR, HLT_EVENTS]
    let out (i : Instr) (P : Mach → Prop) : Prop := ∃ u, exec i s = .next (s.withM u) ∧ kept u ∧ regsKept L m u ∧ P u
    let refused (i : Instr) : Prop := exec i s = .next (s.withM (setEv DMA_EVENTS.cmd_refused m))
    let halted (c : Nat) (u : Mach) : Prop := dmaState ch u = 4 ∧ fget (DMA_CH_STATUS.status ch) u = c ∧
      (rd DMA_ERR u).getLsbD ch.val = true ∧ bytesKept (a + 24) 4 m u
    let ended (d : DmaDesc) (u : Mach) : Prop := rd (DMA_CH_COUNT ch) u = rd (DMA_CH_COUNT ch) m + 1#32 ∧
      (dIrq d = true → (rd DMA_DONE u).getLsbD ch.val = true) ∧
      (dLast d = true → dmaState ch u = 0 ∧ (getDma ch u).desc = none ∧ (getDma ch u).needFetch = false) ∧
      (dLast d = false → x.stop = false → dmaState ch u = 1 ∧ (getDma ch u).needFetch = true ∧
        rd (DMA_CH_DESC ch) u = BitVec.ofNat 32 d.next) ∧
      (dLast d = false → x.stop = true → dmaState ch u = 0 ∧ fget (DMA_CH_STATUS.status ch) u = 1) ∧
      (inPart 7 a 32 m = true → a % 32 = 0 → poisoned (a + 24) m = false → resBytes (a + 24) 4 u = leBytes 4 0x80000000);
    (reach (DMA_CH_CMD ch) m = false →
      ∀ v, ∀ i ∈ [.dmaStart ch, .dmaStop ch, .dmaAbort ch, .dmaResume ch, .dmaCmdInvalid ch v], exec i s = .next s) ∧
    (reach (DMA_CH_CMD ch) m = true →
      (¬ rest → refused (.dmaStart ch)) ∧
      (rest → exec (.dmaStop ch) s = .next s ∧ exec (.dmaAbort ch) s = .next s ∧ out (.dmaStart ch) fun u =>
        dmaState ch u = 1 ∧ fget (DMA_CH_STATUS.status ch) u = 0 ∧ rd (DMA_CH_DESC ch) u = rd (DMA_CH_HEAD ch) m ∧
        rd (DMA_CH_POS ch) u = 0#32 ∧ rd (DMA_CH_COUNT ch) u = 0#32 ∧ u.res = m.res ∧
        getDma ch u = { x with desc := none, needFetch := true, stop := false, aborting := false }) ∧
      (¬ rest → exec (.dmaAbort ch) s = .next (s.withM (setDma ch { x with aborting := true } m)) ∧
        (x.aborting = true → exec (.dmaStop ch) s = .next s) ∧
        (x.aborting = false → x.needFetch = true → out (.dmaStop ch) fun u => dmaState ch u = 0 ∧
          fget (DMA_CH_STATUS.status ch) u = 1 ∧ u.res = m.res) ∧
        (x.aborting = false → x.needFetch = false → out (.dmaStop ch) fun u => dmaState ch u = 3 ∧ (getDma ch u).stop = true ∧
          u.res = m.res)) ∧
      (let may := st = 4 ∧ fget (DMA_CH_STATUS.status ch) m = 3 ∧
          ∀ q < 4, fget (DMA_CH_STATUS.pd_q ch) m / 2 ^ q % 2 = 1 → 1 ≤ quadState q m;
        (may → out (.dmaResume ch) fun u => dmaState ch u = 1 ∧ fget (DMA_CH_STATUS.status ch) u = 0 ∧
          fget (DMA_CH_STATUS.pd_q ch) u = 0 ∧ u.res = m.res ∧ getDma ch u = x) ∧ (¬ may → refused (.dmaResume ch))) ∧
      (∀ v : W, (v.extractLsb' 16 16 ≠ 0x1F6B#16 ∨ 5 ≤ v.toNat % 8 → refused (.dmaCmdInvalid ch v)) ∧
        (v = 0x1F6B0000#32 → exec (.dmaCmdInvalid ch v) s = .next s))) ∧
    (∀ v : W, reach (DMA_CH_HEAD ch) m = true → reach (DMA_CH_CFG ch) m = true →
      (¬ rest → refused (.dmaChCfgWrite ch true v) ∧ refused (.dmaChCfgWrite ch false v)) ∧
      (rest → exec (.dmaChCfgWrite ch true v) s = .next (s.withM (wr (DMA_CH_CFG ch) (v &&& 0x37F#32) m)) ∧
        exec (.dmaChCfgWrite ch false v) s = .next (s.withM (wr (DMA_CH_HEAD ch) (v &&& 0xFFFFFFE0#32) m)))) ∧
    (rest ∨ x.aborting = false → exec (.dmaAbortDone ch) s = .next s) ∧
    (¬ rest → x.aborting = true → ∃ u, exec (.dmaAbortDone ch) s = .next (s.withM u) ∧ dmaState ch u = 4 ∧
      fget (DMA_CH_STATUS.status ch) u = 2 ∧ (getDma ch u).aborting = false ∧ (getDma ch u).pendW = [] ∧
      (x.pendW = [] → kept u ∧ regsKept L m u ∧ u.res = m.res)) ∧
    (rest ∨ x.needFetch = false ∨ x.aborting = true → exec (.dmaDescFetch ch) s = .next s) ∧
    (¬ rest → x.needFetch = true → x.aborting = false →
      (a % 32 ≠ 0 ∨ inPart 7 a 32 m = false → out (.dmaDescFetch ch) (halted 6)) ∧
      (a % 32 = 0 → inPart 7 a 32 m = true →
        (badUnits a 32 m ≠ [] → out (.dmaDescFetch ch) (halted 7)) ∧
        (badUnits a 32 m = [] → let d := parseDesc (viewBytes a 32 m)
          (descStatus d m ≠ 0 → out (.dmaDescFetch ch) (halted (descStatus d m))) ∧
          (descStatus d m = 0 → (∀ q ∈ descQuads d, quadState q m ≠ 0) → out (.dmaDescFetch ch) fun u =>
            getDma ch u = { x with desc := some d, needFetch := false } ∧ rd (DMA_CH_POS ch) u = 0#32 ∧ u.res = m.res) ∧
          (descStatus d m = 0 → (∃ q ∈ descQuads d, quadState q m = 0) → out (.dmaDescFetch ch) (halted 3))))) ∧
    (x.desc = none → exec (.dmaDescComplete ch) s = .next s ∧ exec (.dmaFenceDesc ch) s = .next s ∧
      exec (.dmaBurstStart ch []) s = .next s ∧
      ∀ b l r, x.pendW = (b, l) :: r → isRes b = true → partOf b m ≠ some 1 → (∀ c, poisoned c m = false) →
        out (.dmaBurstStart ch [0]) fun u => resBytes b l.length u = l ∧ bytesKept b l.length m u ∧ (getDma ch u).pendW = r) ∧
    (∀ d, x.desc = some d →
      (rest ∨ x.aborting = true → exec (.dmaDescComplete ch) s = .next s ∧ exec (.dmaFenceDesc ch) s = .next s) ∧
      (¬ rest → x.aborting = false →
        (dType d = 2 ∨ (dType d = 0 ∧ d.len ≤ dmaPos ch m) → out (.dmaDescComplete ch) fun u => ended d u ∧ bytesKept (a + 24) 4 m u) ∧
        (dType d = 0 → dmaPos ch m < d.len → exec (.dmaDescComplete ch) s = .next s) ∧
        (dType d = 1 → exec (.dmaDescComplete ch) s = .next s ∧
          (upWaits ch m = true → exec (.dmaFenceDesc ch) s = .next s) ∧
          (upWaits ch m = false → x.pendW = [] → out (.dmaFenceDesc ch) fun u => ended d u ∧ bytesKept (a + 24) 4 m u) ∧
          (∀ b l, upWaits ch m = false → x.pendW = [(b, l)] → isRes b = true → partOf b m ≠ some 1 →
            (∀ c, poisoned c m = false) → out (.dmaFenceDesc ch) fun u => ended d u ∧ (getDma ch u).pendW = [] ∧
              ∀ i < l.length, (b + i < a + 24 ∨ a + 28 ≤ b + i) → some (resByte (b + i) u) = l[i]?))) ∧
      (dSmode d = 0 → dDmode d = 0 → isRes d.src = true → isRes d.dst = true → burstOk ch d m = true →
        let n := burstBytes ch d m
        (badUnits (d.src + dmaPos ch m) n m ≠ [] → out (.dmaBurstStart ch []) (halted 7)) ∧
        (badUnits (d.src + dmaPos ch m) n m = [] → out (.dmaBurstStart ch []) fun u =>
          rd (DMA_CH_POS ch) u = BitVec.ofNat 32 (dmaPos ch m + n) ∧ u.res = m.res ∧
          ∃ ws, (getDma ch u).pendW = x.pendW ++ ws ∧ ws.flatMap (·.2) = viewBytes (d.src + dmaPos ch m) n m ∧
            ∀ w ∈ ws, d.dst + dmaPos ch m ≤ w.1 ∧ w.2.length ≤ 64))) ∧
    (reach DMA_FENCE m = true →
      (∃ u, exec (.dmaFenceRead false) s = .next (s.withM u) ∧ u.out = m.out ++ [.rdata 1#32] ∧
        fon DMA_EVENTS.fence_timeout u = true ∧ storesKept m u ∧ u.dma = m.dma) ∧
      ((∀ k < 32, upWaits k m = false ∧ (getDma k m).pendW = []) → ∃ u, exec (.dmaFenceRead true) s = .next (s.withM u) ∧
        u.out = m.out ++ [.rdata 0#32] ∧ regsKept (DMA_STATUS :: (List.range 32).map DMA_CH_STATUS) m u ∧
        (∀ k < 32, dmaState k u = dmaState k m ∧ (getDma k u).pendW = [] ∧ fget (DMA_CH_STATUS.in_flight k) u = 0) ∧
        storesKept m u)) ∧
    (reach DMA_FENCE m = false → ∀ b, ∃ u, exec (.dmaFenceRead b) s = .next (s.withM u) ∧ u.out = m.out ++ [.rdata 0#32] ∧
      u.regs = m.regs ∧ storesKept m u)

def Obligations.PortsTrainBondFailAndKeepTime : Prop :=
  ∀ (s : State),
    let m := s.m
    let out (c : Instr) (P : Mach → Prop) : Prop := ∃ u, exec c s = .next (s.withM u) ∧ storesKept m u ∧ P u;
    (∀ i : Fin 4,
      let st := portState i m
      let others (u : Mach) : Prop := ∀ j < 4, j ≠ i.val → portState j u = portState j m ∧ bonded j u = bonded j m
      let mayTrain := portDead i m = false ∧ fwRuns m = true ∧ fon (EPL_PORT_CTRL.en i) m = true ∧ fget (EPL_PORT_CTRL.loop i) m = 0;
      (st ≠ 1 → exec (.portTrained i) s = .next s ∧ exec (.portTrainTimeout i) s = .next s) ∧
      (st = 1 → (out (.portTrained i) fun u => portState i u = 2 ∧ bonded i u = bonded i m ∧ fon EPL_EVENTS.port_chg u = true ∧ others u) ∧
        out (.portTrainTimeout i) fun u => portState i u = 3 ∧ bonded i u = false ∧ fon EPL_EVENTS.port_chg u = true ∧ others u) ∧
      (st ≠ 2 ∨ bonded i m = true ∨ atBoundary m = false → exec (.portBondJoin i) s = .next s) ∧
      (st = 2 → bonded i m = false → atBoundary m = true → out (.portBondJoin i) fun u => portState i u = 2 ∧ bonded i u = true ∧
        fon EPL_EVENTS.port_chg u = true ∧ others u) ∧
      (∀ n, (st ≠ 2 → exec (.portLinkLoss i n) s = .next (s.withM (cnt (EPL_FEC_UCW i) n 0xFFFFFFFF m))) ∧
        (st = 2 → out (.portLinkLoss i n) fun u => portState i u ≠ 2 ∧ bonded i u = false ∧ fon EPL_EVENTS.port_chg u = true ∧
          (rd (EPL_FEC_UCW i) u).toNat = min 0xFFFFFFFF ((rd (EPL_FEC_UCW i) m).toNat + n) ∧ others u ∧
          (mayTrain → portState i u = 1) ∧ (portDead i m = true → portState i u = 3))) ∧
      (st ≠ 3 ∨ portDead i m = true → exec (.portRetry i) s = .next s) ∧
      (st = 3 → mayTrain → out (.portRetry i) fun u => portState i u = 1 ∧ fon EPL_EVENTS.port_chg u = true ∧ others u) ∧
      (∀ v : W, (reach (EPL_PORT_CTRL i) m = false → exec (.portLoopbackWrite i v) s = .next s) ∧
        (reach (EPL_PORT_CTRL i) m = true → v.toNat / 2 % 4 ≠ 0 →
          (bondedIn 15 m = [i.val] → exec (.portLoopbackWrite i v) s = .next (s.withM (setEv EPL_EVENTS.loop_refused m))) ∧
          (bondedIn 15 m ≠ [i.val] → rd (EPL_PORT_CTRL i) m ≠ v &&& 7#32 → out (.portLoopbackWrite i v) fun u =>
            rd (EPL_PORT_CTRL i) u = v &&& 7#32 ∧ portState i u = 0 ∧ (st ≠ 0 → bonded i u = false) ∧ others u)))) ∧
    ((∃ i < 4, portState i m = 2) ∨ role m ≠ 1 → exec .allPortsDown s = .next s) ∧
    ((∀ i < 4, portState i m ≠ 2) → role m = 1 → m.twin.release = none →
      (rd HLT_TWIN_FAULTS m).getLsbD 2 = true → ∀ h, m.twin.partner = some h → h.ready = true → out .allPortsDown fun u =>
        u.out = m.out ++ [.notice] ∧ u.twin.release = some 2 ∧ u.regs = m.regs) ∧
    (out .lpllUnlock fun u => (∀ i < 4, portState i u = 0) ∧ fon CLK_STATUS.lpll_lock u = false ∧ fon CLK_EVENTS.lpll_unlock u = true) ∧
    (out .lpllReengage fun u => fon CLK_STATUS.lpll_lock u = true ∧ fon CLK_STATUS.ref_present u = true ∧
      fon GCTL_DEV_STATE.ref_absent u = false ∧ ∀ i < 4, (portState i m = 0 → portDead i m = false → fwRuns m = true →
        fon (EPL_PORT_CTRL.en i) m = true → fget (EPL_PORT_CTRL.loop i) m = 0 → portState i u = 1) ∧
        (portState i m ≠ 0 → portState i u = portState i m)) ∧
    (∀ (p : Fin 4) (f : EthFrame),
      let lost (n : Nat) : Prop := exec (.ethFrameRx p f) s = .next (s.withM (cnt EPL_RX_DISCARD n 0xFFFFFFFF m))
      let mine := portState p m = 2 ∧ f.fcsOk = true ∧ 64 ≤ f.len ∧ f.len ≤ mtu m ∧ (f.dst = portMac p m ∨ f.dst = BitVec.allOnes 48);
      (¬ mine → exec (.ethFrameRx p f) s = .next s) ∧
      (mine →
        (f.pay = .other → lost 1) ∧
        (∀ hs, f.pay = .ecpri hs → f.etype = 0xAEFE#16 →
          lost (hs.countP fun h => decide (h.1 ≠ 1#4 ∨ (h.2 ≠ 0#8 ∧ h.2 ≠ 2#8 ∧ h.2 ≠ 5#8)))) ∧
        (∀ x fine, f.pay = .ptp x fine → f.etype = 0x88F7#16 → sessBound 0 m = true → sessPort 0 m = true →
          out (.ethFrameRx p f) fun u => u.regs = m.regs ∧ u.out = m.out ++
            [.native 0 (getSess 0 m).txSeq (.ptpRx p (if x.isEvent then ⟨tick m, fine.toNat⟩ else ⟨0, 0⟩) x)]) ∧
        (∀ h, f.pay = .native h → f.etype.toNat = fget EPL_CFG.etype m →
          (h.ver ≠ 1#8 ∨ 4 ≤ h.sess.toNat ∨ sessBound h.sess.toNat m = false ∨ f.src ≠ sessMac h.sess.toNat m → lost 1) ∧
          (h.ver = 1#8 → h.sess.toNat < 4 → sessBound h.sess.toNat m = true → f.src = sessMac h.sess.toNat m →
            out (.ethFrameRx p f) fun u => (getSess h.sess.toNat u).rxSeq = some h.seq.toNat ∧
              (∀ n, (getSess h.sess.toNat m).rxSeq = some n → (n + 1) % 2 ^ 32 ≠ h.seq.toNat → fon EPL_EVENTS.seq_gap u = true) ∧
              regsKept [EPL_EVENTS, HLT_LOG_WPTR, HLT_EVENTS] m u ∧ u.out = m.out)))) ∧
    (∀ (p : Fin 4) (a id : BitVec 8) (fine : BitVec 7), let t : Option Stamp := some ⟨tick m, fine.toNat⟩
      (portState p m ≠ 2 ∨ a.toNat = 2 ∨ 4 < a.toNat → exec (.ecpriDelayMeas p a id fine) s = .next s) ∧
      (portState p m = 2 → ∀ e ∈ [(0#8, [.delayResp p 2 id.toNat t]), (1#8, [.delayResp p 2 id.toNat t]),
          (3#8, [.delayResp p 0 id.toNat t]), (4#8, [.delayResp p 1 id.toNat none, .delayResp p 5 id.toNat t])],
        exec (.ecpriDelayMeas p e.1 id fine) s = .next (s.withM { m with out := m.out ++ e.2 }))) ∧
    (∀ (k : Fin 4) (p : Nat) (x : PtpMsg) (fine : BitVec 7),
      (m.power ≠ .coreRun ∨ devState m = 2 → exec (.ptpTx k p x fine) s = .next s) ∧
      (m.power = .coreRun → devState m ≠ 2 → mgmtHeld m = false →
        (¬ (p < 4 ∧ portState p m = 2) → exec (.ptpTx k p x fine) s = .next (s.withM (cnt EPL_RX_DISCARD 1 0xFFFFFFFF m))) ∧
        (p < 4 → portState p m = 2 →
          (x.isEvent = false → exec (.ptpTx k p x fine) s = .next (s.withM { m with out := m.out ++ [.ptpOut p x] })) ∧
          (x.isEvent = true → sessBound k m = true → sessPort k m = true → out (.ptpTx k p x fine) fun u => u.regs = m.regs ∧
            u.out = m.out ++ [.ptpOut p x, .native k (getSess k m).txSeq (.ptpTs p ⟨tick m, fine.toNat⟩ x.seqId x.msgType)])))) ∧
    (∀ fine : BitVec 7, out (.ppsIn fine) fun u => u.clk.ppsLast = some (tick m) ∧
      let early := ∃ t, m.clk.ppsLast = some t ∧ tick m < t + 221184000
      (early → fon EPL_EVENTS.pps_early u = true ∧ regsKept [EPL_EVENTS, HLT_LOG_WPTR, HLT_EVENTS] m u) ∧
      (¬ early → rd (EPL_PPS_IN_TS 0) u = BitVec.ofNat 32 (tick m) ∧ rd (EPL_PPS_IN_TS 1) u = BitVec.ofNat 32 (tick m / 2 ^ 32) ∧
        rd (EPL_PPS_IN_TS 2) u = BitVec.ofNat 32 fine.toNat ∧
        regsKept [EPL_PPS_IN_TS 0, EPL_PPS_IN_TS 1, EPL_PPS_IN_TS 2] m u)) ∧
    (let may := fon EPL_PPS_CFG.pps_en m = true ∧ mpllLocked m = true ∧ timingOn m = true;
      (¬ may → exec .ppsOut s = .next s) ∧
      (may → out .ppsOut fun u => u.out = m.out ++ [.pps] ∧ u.regs = m.regs ∧ tick u = ppsNext m ∧
        tick u % 245760000 = fget EPL_PPS_OFF.pps_off m % 245760000 ∧ tick m ≤ tick u ∧ tick u < tick m + 245760000 ∧
        u.clk.ppsHigh = some (ppsNext m + ppsWidth m))) ∧
    (let may := m.evtPend = true ∧ anyBonded m = true ∧ sessBound 0 m = true ∧ sessPort 0 m = true;
      (¬ may → exec .event s = .next s) ∧
      (may → out .event fun u => u.evtPend = false ∧ u.regs = m.regs ∧ u.out = m.out ++ [.native 0 (getSess 0 m).txSeq
        (.event (tick m) [summaryWord m, rd GCTL_DEV_STATE m, rd HLT_REPLACE m, rd GCTL_GLOBAL_EVENTS m])]))

def Obligations.StreamsPoolAndUploadsCross : Prop :=
  ∀ (s : State),
    let m := s.m
    (∀ st : UlStream,
      let k := ulKey st
      let x := getUlTx k m
      let f := fmtEntry (ulIdx k m) m
      (x.q = [] → exec (.iqMessageTx st) s = .next s) ∧
      ∀ e l, x.q = e :: l →
        let p := e.2
        let j0 := p.j / 12 * 12
        let js := blocksFrom st x.q p.frame p.slot m (max 1 f.nblk) j0
        let rest := x.q.filter fun e => !(e.2.frame == p.frame && decide (e.2.j < j0 + 12 * js.length));
        (js = [] → exec (.iqMessageTx st) s = .next s) ∧
        (js ≠ [] → m.ulShed.contains k = true → exec (.iqMessageTx st) s = .next (s.withM (setUlTx k { x with q := rest } m))) ∧
        (js ≠ [] → m.ulShed.contains k = false → bondedIn f.ports m = [] → ∃ u, exec (.iqMessageTx st) s = .next (s.withM u) ∧
          fon EPL_EVENTS.stream_orphan u = true ∧ u.out = m.out ∧ (getUlTx k u).q = rest ∧ storesKept m u) ∧
        (js ≠ [] → m.ulShed.contains k = false → bondedIn f.ports m ≠ [] → ∃ u port flags sens,
          exec (.iqMessageTx st) s = .next (s.withM u) ∧ port ∈ bondedIn f.ports m ∧
          u.out = m.out ++ [.iq port (launchAt x.q p.frame (j0 + 12 * js.length)) (ulPcId st) (256 * (x.seq % 256) + 128) p.frame (ulIdx k m) j0 flags sens
            (js.map fun j => mkBlock f (blockAt x.q p.frame j))] ∧
          (getUlTx k u).q = rest ∧ (getUlTx k u).seq = (x.seq + 1) % 256 ∧ (getUlTx k u).rot = x.rot + 1 ∧
          (∀ i, i ≠ k → getUlTx i u = getUlTx i m) ∧ u.regs = m.regs ∧ storesKept m u)) ∧
    (∀ (p : Fin 4) (x : IqMsg),
      let lost (f : Fld) : Prop := ∃ u, exec (.iqMessageRx p x) s = .next (s.withM u) ∧ storesKept m u ∧ u.dlRx = m.dlRx ∧
        fget f u = min (2 ^ f.w - 1) (fget f m + 1) ∧ regsKept [f.reg] m u
      (iqOk x = false → exec (.iqMessageRx p x) s = .fault .malformedCommand) ∧
      (iqOk x = true → (bonded p m = false → exec (.iqMessageRx p x) s = .next s) ∧
        (bonded p m = true → (dlOfPc x.pcId.toNat = none → lost ⟨EPL_RX_DISCARD, 0, 32⟩) ∧
          ∀ k, dlOfPc x.pcId.toNat = some k → let y := getDlRx k m
            (64 ≤ dlIdx k m ∨ fmtOk (fmtEntry (dlIdx k m) m) = false ∨ x.seqId.getLsbD 7 = false →
              lost ⟨EPL_RX_DISCARD, 0, 32⟩) ∧
            (dlIdx k m < 64 → fmtOk (fmtEntry (dlIdx k m) m) = true → x.seqId.getLsbD 7 = true →
              (frameBefore ((m.frameNo + 1) % 2 ^ 24) x.frame.toNat = true → lost EPL_DUP_EARLY.early) ∧
              (frameBefore ((m.frameNo + 1) % 2 ^ 24) x.frame.toNat = false → ∀ b, x.blocks = [b] →
                let r := readBlock (fmtEntry (x.fmt.toNat % 64) m) b
                r.2 = false → frameBefore x.frame.toNat y.frame = false → (x.frame.toNat = y.frame → y.j ≤ x.j.toNat) →
                (∀ q ∈ y.placed, q.1 ≠ x.frame.toNat) → ∃ u, exec (.iqMessageRx p x) s = .next (s.withM u) ∧
                  storesKept m u ∧ u.regs = m.regs ∧ (∀ i, i ≠ k → getDlRx i u = getDlRx i m) ∧
                  getDlRx k u = { y with placed := y.placed ++ r.1.zipIdx.map fun z => (x.frame.toNat, x.j.toNat + z.2, z.1) }))))) ∧
    (∀ st : DlStream, let k := dlKey st
      let d := dlDue k m
      let n := dlNext st d.1 d.2 m
      let air := dlAir st d.1 d.2 m
      (timingOn m = false ∨ dlAnchorAt air m = 0 ∨ pastSlot (dlDeadline air m) m = true → exec (.arrivalDeadline st) s = .next s) ∧
      (timingOn m = true → dlAnchorAt air m ≠ 0 → pastSlot (dlDeadline air m) m = false →
        ∃ u, exec (.arrivalDeadline st) s = .next (s.withM u) ∧ storesKept m u ∧ (getDlRx k u).frame = n.1 ∧ (getDlRx k u).j = n.2 ∧
          (∀ q ∈ (getDlRx k u).placed, q ∈ (getDlRx k m).placed) ∧ (∀ i, i ≠ k → getDlRx i u = getDlRx i m) ∧
          dlDeadline air m ≤ 60 * u.tod + 119 ∧
          (rd EPL_LINK_LATE u).toNat =
            if dlGapAt air m = true ∨ (getDlRx k m).placed.any (fun q => q.1 == d.1 && q.2.1 == d.2) = true then
              (rd EPL_LINK_LATE m).toNat else min 0xFFFFFFFF ((rd EPL_LINK_LATE m).toNat + 1))) ∧
    (∀ (k : Fin 4) (i : BitVec 16) (vs : List (List W)),
      (vectorsOk vs = false → exec (.poolWrite k i vs) s = .fault .malformedCommand) ∧
      (vectorsOk vs = true → m.power ≠ .coreRun ∨ devState m = 2 → exec (.poolWrite k i vs) s = .next s) ∧
      (vectorsOk vs = true → m.power = .coreRun → devState m ≠ 2 → mgmtHeld m = false → sessBound k m = true →
        sessPort k m = true →
        let a := partBase 1 m + 256 * i.toNat
        (role m = 2 → ∃ u, exec (.poolWrite k i vs) s = .next (s.withM u) ∧ answered k (.poolAck i.toNat 0 3) m u ∧
          u.res = m.res ∧ u.regs = m.regs) ∧
        (∀ v, role m = 0 → vs = [v] →
          (poolFits i.toNat m = true → (∀ c, poisoned c m = false) → ∃ u, exec (.poolWrite k i vs) s = .next (s.withM u) ∧
            answered k (.poolAck i.toNat 1 0) m u ∧ resBytes a 256 u = (v.flatMap fun w => leBytes 4 w.toNat) ∧
            bytesKept a 256 m u ∧ regsKept [RES_PART_USE 1] m u) ∧
          (poolFits i.toNat m = false → ∃ u, exec (.poolWrite k i vs) s = .next (s.withM u) ∧
            answered k (.poolAck i.toNat 0 4) m u ∧ u.res = m.res ∧ fon RES_EVENTS.quota u = true)))) ∧
    (∀ k : Fin 4, let x := getUp k m
      let n := (mtu m - 46) / 64
      (x.units = [] ∨ sessBound k m = false ∨ sessPort k m = false → exec (.capUpload k) s = .next s) ∧
      (x.units ≠ [] → sessBound k m = true → sessPort k m = true → ∃ u, exec (.capUpload k) s = .next (s.withM u) ∧
        answered k (.capUpload k x.off ((x.units.take n).flatMap (·.2))) m u ∧ (getUp k u).units = x.units.drop n ∧
        (getUp k u).off = x.off + ((x.units.take n).flatMap (·.2)).length ∧ u.regs = m.regs ∧ storesKept m u))

def Obligations.MonitorConvertersSensorsAndLehr : Prop :=
  ∀ (s : State),
    let m := s.m
    let out (c : Instr) (P : Mach → Prop) : Prop := ∃ u, exec c s = .next (s.withM u) ∧ storesKept m u ∧ P u
    let word (c : Instr) (w : W) (P : Mach → Prop) : Prop := out c fun u => u.out = m.out ++ [.rdata w] ∧ P u
    let starts (q : Nat) (u : Mach) : Prop := fon (MON_STATUS.busy q) u = true ∧ fon (MON_STATUS.pending q) u = false ∧
      fget (MON_STATUS.entry q) u = 0 ∧
      (getMon q u).ents = (List.range (seqLen (rd (MON_CTRL q) m))).map fun e => rd (MON_SEQ q e) m
    let ready (q : Nat) : Prop := fon (MON_CTRL.trig_src q) m = true ∧ fon (MON_STATUS.cal_busy q) m = false ∧
      fon (MON_STATUS.busy q) m = false;
    (∀ q : Fin 4,
      let x := getMon q m
      let busy := fon (MON_STATUS.busy q) m
      let pend := fon (MON_STATUS.pending q) m
      let cal := fon (MON_STATUS.cal_busy q) m
      (reach (MON_CMD q) m = false → exec (.monTrig q) s = .next s ∧ exec (.monStop q) s = .next s ∧ exec (.monCal q) s = .next s) ∧
      (reach (MON_CMD q) m = true →
        (fon (MON_CTRL.trig_src q) m = true → exec (.monTrig q) s = .next s) ∧
        (fon (MON_CTRL.trig_src q) m = false →
          (cal = true → exec (.monTrig q) s = .next (s.withM (setEv (MON_EVENTS.trig_missed q) m))) ∧
          (cal = false → busy = false → out (.monTrig q) (starts q)) ∧
          (cal = false → busy = true →
            (x.ctl.getLsbD 7 = true → exec (.monTrig q) s = .next s) ∧
            (x.ctl.getLsbD 7 = false → pend = true → exec (.monTrig q) s = .next (s.withM (setEv (MON_EVENTS.trig_missed q) m))) ∧
            (x.ctl.getLsbD 7 = false → pend = false →
              exec (.monTrig q) s = .next (s.withM (fset (MON_STATUS.pending q) 1 m))))) ∧
        (busy = false → exec (.monStop q) s = .next s) ∧
        (busy = true → out (.monStop q) fun u => (getMon q u).stop = true ∧ fon (MON_STATUS.pending q) u = false ∧
          fon (MON_STATUS.busy q) u = true ∧ regsKept [MON_STATUS q] m u) ∧
        (busy = true ∨ pend = true → exec (.monCal q) s = .next (s.withM (setEv (MON_EVENTS.cmd_refused q) m))) ∧
        (busy = false → pend = false → exec (.monCal q) s = .next (s.withM (fset (MON_STATUS.cal_busy q) 1 m)))) ∧
      (∀ (off : BitVec 14) (gain : BitVec 16), (cal = false → exec (.monCalDone q off gain) s = .next s) ∧
        (cal = true → out (.monCalDone q off gain) fun u => fget (MON_CAL_OFF.off q) u = off.toNat ∧
          fget (MON_CAL_GAIN.gain q) u = gain.toNat ∧ fon (MON_STATUS.cal_valid q) u = true ∧
          fon (MON_STATUS.cal_busy q) u = false ∧ fon (MON_EVENTS.cal_done q) u = true)) ∧
      (x.ents = [] → ∀ l, exec (.monEntryResult q l) s = .next s) ∧
      (∀ e r uvs, x.ents = e :: r → let k := fget (MON_STATUS.entry q) m
        (uvs.length ≠ 2 ^ wfld e 11 2 → exec (.monEntryResult q uvs) s = .next s) ∧
        (uvs.length = 2 ^ wfld e 11 2 → out (.monEntryResult q uvs) fun u =>
          fget (MON_DATA.result q k) u = monResult (fon (MON_STATUS.cal_valid q) m) e uvs ∧ fon (MON_DATA.new q k) u = true ∧
          (fon (MON_DATA.new q k) m = true → fon (MON_DATA.overrun q k) u = true ∧ fon (MON_EVENTS.overrun q) u = true) ∧
          (entBad e = true → fon (MON_EVENTS.cfg_err q) u = true) ∧
          (x.ctl.getLsbD 8 = false → (getMon q u).fifo = x.fifo) ∧
          (x.ctl.getLsbD 8 = true → x.fifo.length = 1024 → fon (MON_EVENTS.fifo_ovf q) u = true ∧ (getMon q u).fifo = x.fifo) ∧
          (x.ctl.getLsbD 8 = true → x.fifo.length < 1024 → ∃ w : W, (getMon q u).fifo = x.fifo ++ [w] ∧
            w.toNat % 65536 = monResult (fon (MON_STATUS.cal_valid q) m) e uvs ∧ w.getLsbD 31 = true ∧ fget (MON_FIFO_LVL.lvl q) u = x.fifo.length + 1) ∧
          (x.stop = true → r ≠ [] → fon (MON_STATUS.busy q) u = false ∧ (getMon q u).ents = []) ∧
          (x.stop = false ∨ r = [] → (getMon q u).ents = r ∧ fon (MON_STATUS.busy q) u = busy))) ∧
      (busy = false ∨ x.ents ≠ [] → exec (.monSequenceEnd q) s = .next s) ∧
      (busy = true → x.ents = [] → out (.monSequenceEnd q) fun u =>
        fget (MON_STATUS.seq_count q) u = (fget (MON_STATUS.seq_count q) m + 1) % 256 ∧
        (x.stop = false → x.ctl.getLsbD 7 = true ∨ pend = true → starts q u) ∧
        (x.stop = true ∨ (x.ctl.getLsbD 7 = false ∧ pend = false) → fon (MON_STATUS.busy q) u = false)) ∧
      (reach (MON_FIFO q) m = false → word (.monFifoRead q) 0#32 fun u => u.regs = m.regs) ∧
      (reach (MON_FIFO q) m = true →
        (x.fifo = [] → word (.monFifoRead q) 0#32 fun u => fon (MON_EVENTS.fifo_udf q) u = true) ∧
        (∀ w l, x.fifo = w :: l → word (.monFifoRead q) w fun u => (getMon q u).fifo = l ∧
          fget (MON_FIFO_LVL.lvl q) u = l.length % 2048 ∧ regsKept [MON_FIFO_LVL q] m u)) ∧
      (∀ e : Fin 32, (reach (MON_DATA q e) m = false → word (.monDataRead q e) 0#32 fun u => u.regs = m.regs) ∧
        (reach (MON_DATA q e) m = true → word (.monDataRead q e) (rd (MON_DATA q e) m) fun u =>
          fon (MON_DATA.new q e) u = false ∧ fon (MON_DATA.overrun q e) u = false ∧
          fget (MON_DATA.result q e) u = fget (MON_DATA.result q e) m ∧ regsKept [MON_DATA q e] m u))) ∧
    (∀ v : W, (reach MON_TRIG_CMD m = false ∨ v.extractLsb' 16 16 ≠ 0x6E0B#16 ∨ v.getLsbD 0 = false ∨ fget MON_TRIG_CFG.src m ≠ 0 →
        exec (.monTrigCmd v) s = .next s) ∧
      (reach MON_TRIG_CMD m = true → v.extractLsb' 16 16 = 0x6E0B#16 → v.getLsbD 0 = true → fget MON_TRIG_CFG.src m = 0 →
        out (.monTrigCmd v) fun u => ∀ q < 4, (ready q → starts q u) ∧
          (fon (MON_CTRL.trig_src q) m = false → getMon q u = getMon q m ∧ rd (MON_STATUS q) u = rd (MON_STATUS q) m))) ∧
    (let common (u : Mach) : Prop := ∀ q < 4, (ready q → starts q u) ∧
        (fon (MON_CTRL.trig_src q) m = false → getMon q u = getMon q m ∧ rd (MON_STATUS q) u = rd (MON_STATUS q) m)
      let src := fget MON_TRIG_CFG.src m;
      (src = 0 ∨ timingOn m = false → exec .monCommonTrigger s = .next s) ∧
      (src = 1 → exec .monCommonTrigger s = exec .slotBoundary s) ∧ (src = 2 → exec .monCommonTrigger s = exec .frameBoundary s) ∧
      (∀ f : Bool, src = 1 ∨ (src = 2 ∧ f = true) → common (monBoundary f m)) ∧
      (src = 3 → (∀ t, m.monTick = some t → (nextSlot m).2 ≤ t) → exec .monCommonTrigger s = .next s) ∧
      (src = 3 → timingOn m = true → ∀ t, m.monTick = some t → t < (nextSlot m).2 → out .monCommonTrigger fun u =>
        common u ∧ u.monTick = some (t + trigPeriod m) ∧ t ≤ tick u)) ∧
    (∀ codes : List (List (BitVec 12)),
      (groupsOk codes = false → exec (.monSystemGroup codes) s = .fault .malformedCommand) ∧
      (groupsOk codes = true → (coreOn m = false → exec (.monSystemGroup codes) s = .next s) ∧
        (coreOn m = true → out (.monSystemGroup codes) fun u => ∀ q < 4, ∀ l, codes[q]? = some l →
          (getMon q u).sys = (l.map BitVec.toNat :: (getMon q m).sys).take 20 ∧
          ∀ i c, l[i]? = some c → fget (MON_SYS.latest q i) u = c.toNat))) ∧
    (∀ (i : Fin 36) (val : BitVec 10) (ok : Bool),
      (m.power = .off → exec (.sensorReading i val ok) s = .next s) ∧
      (m.power ≠ .off → ∃ u, exec (.sensorReading i val ok) s = .next (s.withM u) ∧ u.present = m.present ∧
        (ok = false → sensBroken i u = true)) ∧
      (m.power ≠ .off → ok = true → let v := (validOf i val.toInt m).1
        (∀ t ∈ thresholds m, v < t ∧ ∀ j, allAbove t j m = false) → ∃ u,
          exec (.sensorReading i val ok) s = .next (s.withM u) ∧ fget (MON_TEMP.value i) u = toBits 10 v ∧
          (getSens i u).seen = true ∧ (getSens i u).hist = (v :: (getSens i m).hist).take 8 ∧ u.power = m.power ∧
          (∀ j, j ≠ i.val → getSens j u = getSens j m) ∧ u.res = m.res ∧ u.tiles = m.tiles)) ∧
    (∀ v : W,
      let w := v.toNat % 256
      let t := v.toNat / 256 % 256
      let d := v.toNat / 65536 % 256
      let good := 60 ≤ w ∧ w ≤ 115 ∧ 80 ≤ t ∧ t ≤ 115 ∧ 110 ≤ d ∧ d ≤ 125 ∧ w ≤ t ∧ t < d
      (reach MON_THR m = false → exec (.monThrWrite v) s = .next s) ∧
      (reach MON_THR m = true → (¬ good → exec (.monThrWrite v) s = .next (s.withM (setEv MON_THERM_EVENTS.cfg_err m))) ∧
        (good → ∃ u, exec (.monThrWrite v) s = .next (s.withM u) ∧ rd MON_THR u = v &&& 0xFFFFFF#32 ∧
          regsKept [MON_THR] m u ∧ u.res = m.res ∧ u.tiles = m.tiles))) ∧
    (timingOn m = false → exec .lehrUpdate s = .next s) ∧
    (timingOn m = true →
      let on := fon MON_THERM_STATUS.engaged m = true ∧ fon MON_LEHR_CFG.lehr_en m = true
      let old := fget MON_THERM_STATUS.lehr_att m
      let t := lehrTarget m
      let top := 10 * clampN 1 60 (fget MON_LEHR_CFG.cap m)
      let d := max 1 (fget MON_LEHR_CFG.step_min m)
      (¬ on → exec .lehrUpdate s = .next (s.withM (fset MON_THERM_STATUS.lehr_att 0 m))) ∧
      (on → t ≤ top ∧
        (old + d ≤ t ∨ t + d ≤ old ∨ t = 0 ∨ t = top → out .lehrUpdate fun u => fget MON_THERM_STATUS.lehr_att u = t ∧
          (t = top → old ≠ top → fon MON_THERM_EVENTS.lehr_cap u = true)) ∧
        (t < old + d → old < t + d → t ≠ 0 → t ≠ top → exec .lehrUpdate s = .next s)))

def Obligations.HealthRetiresAndTokensPass : Prop :=
  ∀ (s : State),
    let m := s.m
    (∀ b, (b ∈ m.nvm.remap.nandBad ∨ 1024 ≤ m.nvm.remap.nandBad.length → exec (.nandBlockFail b) s = .next s) ∧
      (b ∉ m.nvm.remap.nandBad → m.nvm.remap.nandBad.length < 1024 → ∃ u, exec (.nandBlockFail b) s = .next (s.withM u) ∧
        u.nvm.remap.nandBad = b :: m.nvm.remap.nandBad ∧ spareTaken 10 0 m u ∧
        (m.nvm.remap.nandBad.length = 1023 → fon HLT_REPLACE.nvm u = true))) ∧
    (∀ r : KittyRes,
      let k := r.kind.val
      let counted := coreOn m = true ∧ r.pool < poolCount k ∧ isRetired r m = false ∧ isWorn r m = false ∧
        (k = 10 → r.phys ∉ m.nvm.remap.nandBad)
      let l := tick m :: (eventTimes r m).filter fun t => decide (tick m < t + retireWindow k m)
      let due := fon (HLT_RETIRE.en k) m = true ∧ fget (HLT_RETIRE.threshold k) m ≤ l.length
      let tile := k = 2 ∧ coreOn m = true ∧ r.phys < 144
      (¬ counted → ¬ tile → exec (.correctableEvent r) s = .next s) ∧
      (tile → ∃ u, exec (.correctableEvent r) s = .next (s.withM u) ∧ (getTile r.phys u).events.getLsbD 6 = true ∧
        tilesKept r.phys m u) ∧
      (counted → ¬ due → ∃ u, exec (.correctableEvent r) s = .next (s.withM u) ∧ eventTimes r u = l ∧
        (∀ q, q ≠ r → eventTimes q u = eventTimes q m) ∧ (¬ tile → u.regs = m.regs ∧ storesKept m u)) ∧
      (counted → due → k ∈ [2, 3, 4, 6, 7, 9] → 0 < poolLeft k r.pool m → ∃ u,
        exec (.correctableEvent r) s = .next (s.withM u) ∧ isRetired r u = true ∧ eventTimes r u = [] ∧
        (u.hlt.running = some r ∨ r ∈ u.hlt.waiting) ∧ u.res = m.res ∧ tilesKept r.phys m u ∧ (¬ tile → u.tiles = m.tiles) ∧
        u.stage = m.stage) ∧
      (counted → due → k = 10 → m.nvm.remap.nandBad.length < 1024 → ∃ u, exec (.correctableEvent r) s = .next (s.withM u) ∧
        u.nvm.remap.nandBad = r.phys :: m.nvm.remap.nandBad ∧ spareTaken 10 0 m u)) ∧
    (fon HLT_TEST_CFG.test_en m = false → ∀ l, exec (.nandReadScrub l) s = .next s) ∧
    (fon HLT_TEST_CFG.test_en m = true → exec (.nandReadScrub []) s = .next s ∧
      ∀ b, exec (.nandReadScrub [b]) s = exec (.correctableEvent ⟨10, 0, b, 0xFFFF⟩) s) ∧
    (∀ (k : Fin 12) (p : Nat),
      let testable := coreOn m = true ∧ fon HLT_TEST_CFG.test_en m = true ∧ p < poolCount k ∧ 0 < poolLeft k p m
      (∀ ok, ¬ testable ∨ ok = true → exec (.spareTest k p ok) s = .next s) ∧
      (testable → ∃ u, exec (.spareTest k p false) s = .next (s.withM u) ∧ fon HLT_EVENTS.spare_test_fail u = true ∧
        poolBad k p u = poolBad k p m + 1 ∧ poolLeft k p u = poolLeft k p m - 1 ∧ u.res = m.res ∧ u.tiles = m.tiles)) ∧
    (let may := m.twin.taking = true ∧ m.twin.backoff = false ∧ m.twin.driving = false ∧ hasToken m = false;
      (¬ may → exec .tokenTake s = .next s) ∧
      (may → ∃ u, exec .tokenTake s = .next (s.withM u) ∧ u.tokOut = true ∧ u.twinSel = false ∧ u.twin.driving = true ∧
        fon HLT_TWIN_STATUS.tok_in u = false ∧ hasToken u = false ∧ regsKept [HLT_TWIN_STATUS] m u ∧ storesKept m u)) ∧
    (m.twin.driving = false → ∀ b, exec (.tokenCheck b) s = .next (s.withM
      (setEvIf (b && m.twin.taking && m.twin.takeover.isSome) HLT_TWIN_EVENTS.split_blocked (fsetB HLT_TWIN_STATUS.tok_in b m)))) ∧
    (m.twin.driving = true →
      (∃ u, exec (.tokenCheck true) s = .next (s.withM u) ∧ u.tokOut = false ∧ u.twin.driving = false ∧ u.twin.backoff = true ∧
        hasToken u = hasToken m ∧ fon HLT_TWIN_STATUS.tok_in u = true ∧ storesKept m u ∧
        (m.twin.takeover ≠ none → fon HLT_TWIN_EVENTS.split_blocked u = true)) ∧
      ∃ u, exec (.tokenCheck false) s = .next (s.withM u) ∧ u.tokOut = true ∧ u.twinSel = true ∧ u.twin.driving = false ∧
        u.twin.taking = false ∧ hasToken u = true ∧ fon HLT_TWIN_STATUS.tok_wait u = false ∧ storesKept m u ∧
        (m.twin.takeover ≠ none → fget HLT_TWIN_STATUS.phase u = 2)) ∧
    exec .tokenBackoffEnd s = .next (s.withM { m with twin := { m.twin with backoff := false } }) ∧
    (hasToken m = false → exec .tokenConflict s = .next (s.withM (fset HLT_TWIN_STATUS.tok_in 1 m))) ∧
    (hasToken m = true → ∃ u, exec .tokenConflict s = .next (s.withM u) ∧ hasToken u = false ∧ u.tokOut = false ∧
      u.twinSel = false ∧ u.twin.taking = true ∧ u.twin.backoff = true ∧ fon HLT_TWIN_EVENTS.tok_conflict u = true ∧
      u.res = m.res ∧ u.tiles = m.tiles)

def Obligations.TwinsMirrorAndTakeOver : Prop :=
  ∀ (s : State),
    let m := s.m
    let out (c : Instr) (P : Mach → Prop) : Prop := ∃ u, exec c s = .next (s.withM u) ∧ P u
    let refused (c : Instr) : Prop := exec c s = .next (s.withM (setEv HLT_TWIN_EVENTS.cmd_refused m))
    let takes (n : Nat) (u : Mach) : Prop := u.twin.takeover = some n ∧ role u = 1 ∧ fget HLT_TWIN_STATUS.phase u = 1 ∧
      fon GCTL_DEV_STATE.busy u = true ∧ (hasToken m = false → u.twin.taking = true) ∧
      (fget HLT_MIR_STATUS.in_sync m ≠ 127 → fon HLT_TWIN_EVENTS.takeover_unready u = true) ∧ u.res = m.res ∧ u.tiles = m.tiles
    let linked := mirrorOn m = true ∧ laneMask m ≠ 0;
    (∀ v : W,
      let r := v.toNat % 4
      let old := fget HLT_TWIN_CFG.role m
      (reach HLT_TWIN_CFG m = false → exec (.twinRoleWrite v) s = .next s) ∧
      (reach HLT_TWIN_CFG m = true →
        (r = 3 ∨ (r ≠ old ∧ roleOpen m = false) →
          exec (.twinRoleWrite v) s = .next (s.withM (setEv HLT_TWIN_EVENTS.role_refused m))) ∧
        (r ≠ 3 → r = old ∨ roleOpen m = true → out (.twinRoleWrite v) fun u => rd HLT_TWIN_CFG u = v &&& 0x3FFFFFF#32 ∧
          role u = (if r = old then role m else r) ∧ u.res = m.res ∧ u.tiles = m.tiles))) ∧
    (¬ linked → exec .heartbeatTx s = .next s ∧ (∀ x, exec (.heartbeatRx x) s = .next s)) ∧
    (linked →
      (out .heartbeatTx fun u => ∃ h : Heartbeat, u.out = m.out ++ [.heartbeat h] ∧ h.role.val = role m % 3 ∧
        h.state.val = devState m ∧ h.token = hasToken m ∧ h.ready = fon HLT_TWIN_STATUS.twin_ready u ∧
        h.tick = BitVec.ofNat 64 (tick m) ∧ regsKept [HLT_TWIN_STATUS] m u ∧ storesKept m u) ∧
      (∀ (h : Heartbeat) (lag : Nat), paired h m = true → out (.heartbeatRx ⟨h, lag⟩) fun u => u.twin.partner = some h ∧
        fget HLT_MIR_STATUS.lag u = min 255 lag ∧ u.twin.lag = lag ∧
        fon HLT_TWIN_STATUS.partner_seen u = true ∧ fget HLT_TWIN_STATUS.partner_role u = h.role.val ∧ role u = role m ∧
        (h.deck.toNat ≠ deckIdent m → fon HLT_TWIN_EVENTS.deck_mis u = true) ∧
        (tick m + 1 < h.tick.toNat ∨ h.tick.toNat + 1 < tick m → fon HLT_TWIN_EVENTS.time_mis u = true) ∧
        u.res = m.res ∧ u.tiles = m.tiles) ∧
      (∀ (h : Heartbeat) (lag : Nat), h.role.val = role m ∨ h.role.val = 0 → out (.heartbeatRx ⟨h, lag⟩) fun u =>
        fon HLT_TWIN_EVENTS.role_conflict u = true)) ∧
    (mirrorOn m = false ∨ fon HLT_TWIN_STATUS.partner_seen m = false → exec .heartbeatLoss s = .next s) ∧
    (mirrorOn m = true → fon HLT_TWIN_STATUS.partner_seen m = true → out .heartbeatLoss fun u => u.twin.partner = none ∧
      fon HLT_TWIN_STATUS.partner_seen u = false ∧ fon HLT_TWIN_EVENTS.mirror_lost u = true ∧ u.twin.acks = [] ∧
      fget HLT_MIR_STATUS.lanes_up u = 0 ∧
      (role m = 2 → fon HLT_TWIN_CFG.auto_hb m = true → deckMis m = false → takes 0 u) ∧
      (role m ≠ 2 → role u = role m ∧ u.twin.takeover = m.twin.takeover)) ∧
    (reach HLT_TWIN_CMD m = false → exec .takeover s = .next s ∧ exec .forceTakeover s = .next s ∧ exec .twinHandover s = .next s) ∧
    (reach HLT_TWIN_CMD m = true →
      (let ok := role m = 2 ∧ fon HLT_TWIN_STATUS.twin_ready (refreshReady m) = true ∧ deckMis m = false;
        (ok → out .takeover (takes 1)) ∧
        (¬ ok → out .takeover fun u => fon HLT_TWIN_EVENTS.cmd_refused u = true ∧ u.twin = m.twin ∧ role u = role m)) ∧
      (role m = 2 → timingOn m = true → out .forceTakeover (takes 2)) ∧
      (role m ≠ 2 ∨ timingOn m = false → refused .forceTakeover) ∧
      (role m = 1 → m.twin.release = none → out .twinHandover fun u => u.out = m.out ++ [.notice] ∧
        u.twin.release = some 0xFF ∧ u.regs = m.regs ∧ storesKept m u) ∧
      (role m ≠ 1 ∨ m.twin.release ≠ none → refused .twinHandover)) ∧
    (mirrorOn m = false ∨ role m ≠ 2 ∨ deckMis m = true → exec .handoverNotice s = .next s) ∧
    (mirrorOn m = true → role m = 2 → deckMis m = false → out .handoverNotice (takes 3)) ∧
    (m.twin.takeover = none ∨ fget HLT_TWIN_STATUS.phase m ≠ 2 ∨ hasToken m = false → exec .takeoverSettled s = .next s) ∧
    (m.twin.takeover ≠ none → fget HLT_TWIN_STATUS.phase m = 2 → hasToken m = true → out .takeoverSettled fun u =>
      fon HLT_TWIN_EVENTS.takeover u = true ∧ u.twin.ownGo = true ∧
      (devState m = 4 → activeOk m = true → fget HLT_TWIN_STATUS.phase u = 3 ∧ u.trans = some .toActive ∧
        fon GCTL_DEV_STATE.busy u = true) ∧
      (devState m ≠ 4 → u.twin.takeover = none ∧ fon HLT_TWIN_EVENTS.takeover_unready u = true ∧
        fon GCTL_STATE_EVENTS.state_err u = true)) ∧
    (∀ q : W, (role m ≠ 1 ∨ (m.twin.acks = [] ∧ m.twin.copyTo = none) → exec (.deltaAck q) s = .next s) ∧
      (∀ w, role m = 1 → m.twin.acks = [] → m.twin.copyTo = some w →
        ((q - w).toNat ≥ 2 ^ 31 → exec (.deltaAck q) s = .next s) ∧
        ((q - w).toNat < 2 ^ 31 → out (.deltaAck q) fun u => u.twin.copyTo = none ∧
          (rd HLT_MIR_STATUS u).getLsbD 3 = decide (m.twin.lag < 100) ∧ u.out = m.out ∧ storesKept m u)) ∧
      (∀ w k b l, role m = 1 → m.twin.copyTo = none → m.twin.acks = (w, k, b) :: l →
        ((q - w).toNat ≥ 2 ^ 31 → exec (.deltaAck q) s = .next s) ∧
        ((q - w).toNat < 2 ^ 31 → l = [] → sessBound k m = true → sessPort k m = true → out (.deltaAck q) fun u =>
          answered k b m u ∧ u.twin.acks = [] ∧ u.regs = m.regs ∧ storesKept m u))) ∧
    (∀ c : Fin 7, (role m = 0 ∨ (role m = 1 ∧ mirUp m = false) → exec (.mirrorResync c) s = .next s) ∧
      (role m = 1 → mirUp m = true → c = 3 → out (.mirrorResync c) fun u => (rd HLT_MIR_STATUS u).getLsbD 3 = false ∧
        u.twin.copyTo = some (rd DIR_SEQ m) ∧ u.out = m.out ++ .copyStart :: m.dir.ent.map (fun e => .mirDelta (rd DIR_SEQ m) (e.1 / 8) (e.1 % 8) e.2) ∧ storesKept m u) ∧
      (role m = 2 → c = 3 → fon DIR_MIRROR_STATUS.resync m = true → out (.mirrorResync c) fun u =>
        fon DIR_MIRROR_STATUS.resync u = false ∧ (rd HLT_MIR_STATUS u).getLsbD 3 = decide (m.twin.lag < 100) ∧
        u.out = m.out ++ [.mirAck (rd DIR_SEQ m)] ∧ storesKept m u) ∧
      (role m = 2 → c = 3 → fon DIR_MIRROR_STATUS.resync m = false → mirUp m = true → out (.mirrorResync c) fun u =>
        fon DIR_MIRROR_STATUS.resync u = true ∧ (rd HLT_MIR_STATUS u).getLsbD 3 = false ∧ u.dir.ent = [] ∧ storesKept m u) ∧
      (role m = 2 → c = 4 ∨ c = 5 → c.val ∈ m.twin.resync → out (.mirrorResync c) fun u =>
        (rd HLT_MIR_STATUS u).getLsbD c.val = decide (m.twin.lag < 100) ∧ c.val ∉ u.twin.resync ∧ storesKept m u)) ∧
    (∀ c : MirChange,
      (mirOk c.body = false → exec (.mirrorChange c) s = .fault .malformedCommand) ∧
      (mirOk c.body = true → (¬ linked ∨ c.crcOk = false ∨ role m ≠ 2 → exec (.mirrorChange c) s = .next s) ∧
        (linked → c.crcOk = true → role m = 2 →
          let cls := mirClass c.body
          let got := tabGet (fun _ => 0) m.twin.mirGot cls
          (got = 0 ∨ got % 2 ^ 32 = c.seq.toNat →
            (∀ t, c.body = .timeCheck t → out (.mirrorChange c) fun u => tabGet (fun _ => 0) u.twin.mirGot cls = c.seq.toNat + 1 ∧
              (rd HLT_MIR_STATUS u).getLsbD 0 = decide (tick m ≤ t.toNat + 1 ∧ t.toNat ≤ tick m + 1) ∧ storesKept m u ∧
              (tick m + 1 < t.toNat ∨ t.toNat + 1 < tick m → fon HLT_TWIN_EVENTS.time_mis u = true)) ∧
            (∀ d, c.body = .deck d → out (.mirrorChange c) fun u => tabGet (fun _ => 0) u.twin.mirGot cls = c.seq.toNat + 1 ∧
              (rd HLT_MIR_STATUS u).getLsbD 1 = decide (d.toNat = deckIdent m) ∧ storesKept m u ∧
              (d.toNat ≠ deckIdent m → fon HLT_TWIN_EVENTS.deck_mis u = true)) ∧
            (∀ v, c.body = .quadReq v → out (.mirrorChange c) fun u => tabGet (fun _ => 0) u.twin.mirGot cls = c.seq.toNat + 1 ∧
              rd GCTL_QUAD_REQ u = v &&& 0xFFF#32 ∧ storesKept m u) ∧
            (∀ i ws, c.body = .poolVec i ws → poolFits i.toNat m = true → (∀ a, poisoned a m = false) →
              out (.mirrorChange c) fun u => tabGet (fun _ => 0) u.twin.mirGot cls = c.seq.toNat + 1 ∧
                resBytes (partBase 1 m + 256 * i.toNat) 256 u = (ws.flatMap fun w => leBytes 4 w.toNat) ∧
                bytesKept (partBase 1 m + 256 * i.toNat) 256 m u ∧ u.out = m.out ++ [.mirAck (rd DIR_SEQ m)])) ∧
          (got ≠ 0 → got % 2 ^ 32 ≠ c.seq.toNat → cls = 5 → ∀ n t, c.body = .pdSwap n t → out (.mirrorChange c) fun u =>
            (rd HLT_MIR_STATUS u).getLsbD 5 = false ∧ 5 ∈ u.twin.resync)))) ∧
    (∀ r : Rail, (coreOn m = false → exec (.analogueRailFault r) s = .next s) ∧
      (coreOn m = true →
        (r = .clk → out (.analogueRailFault r) fun u => mpllLocked u = false ∧ storesKept m u ∧
          (mpllLocked m = true → fget CLK_STATUS.mpll u = 4 ∧ fon CLK_EVENTS.mpll_unlock u = true) ∧
          ∀ q < 4, fget (CLK_STATUS.qpll_q q) m = 2 → fget (CLK_STATUS.qpll_q q) u = 3 ∧ fon CLK_EVENTS.qpll_unlock u = true) ∧
        (r = .ser → out (.analogueRailFault r) fun u => (∀ i < 4, portState i u = 0) ∧ storesKept m u) ∧
        (∀ q : Fin 4, (r = .rx q false ∨ r = .tx q false → exec (.analogueRailFault r) s = .next s) ∧
          (r = .rx q true → out (.analogueRailFault r) fun u => ∀ n ∈ pathsOf q, rxFailed n u = true) ∧
          (r = .tx q true → out (.analogueRailFault r) fun u => ∀ n ∈ pathsOf q, txFailed n u = true))))

def Obligations.ImageSessionsCarryAndCommit : Prop :=
  ∀ (s : State),
    let m := s.m
    let free := fget IMG_STATUS.lock_src m = 0
    let live (k : Fin 4) : Prop := m.power = .coreRun ∧ mgmtHeld m = false ∧ sessBound k m = true ∧ sessPort k m = true
    let tell (b : Option (Fin 4)) (c : Nat) : List OutMsg := match b with
      | none => []
      | some k => [.native k (getSess k m).txSeq (.imgResult c)]
    let key (b : Option (Fin 4)) : Nat × Nat := match b with
      | none => (1, 0)
      | some k => (2, k.val)
    let out (c : Instr) (P : Mach → Prop) : Prop := ∃ u, exec c s = .next (s.withM u) ∧ P u
    let ended (u : Mach) : Prop := u.img.sess = none ∧ fget IMG_STATUS.lock_src u = 0
    let refusedWith (b : Option (Fin 4)) (e : ImgErr) (u : Mach) : Prop := ended u ∧ fon IMG_EVENTS.load_refused u = true ∧
      rd IMG_LOAD_ERR u = BitVec.ofNat 32 (e.code + 16 * e.sect + 1024 * e.entry) ∧ u.out = m.out ++ tell b e.code ∧ storesKept m u
    let opened (b : Option (Fin 4)) (t : Nat) (u : Mach) : Prop := u.img.sess = some ⟨t, []⟩ ∧ fget IMG_STATUS.target u = t ∧
      (fget IMG_STATUS.lock_src u, fget IMG_STATUS.lock_sess u) = key b ∧ rd IMG_SPI_OFF u = 0#32 ∧ u.out = m.out ++ tell b 0 ∧
      regsKept [IMG_STATUS, IMG_SPI_OFF] m u ∧ storesKept m u
    let commits (b : Option (Fin 4)) (store : Bool) (c : Instr) : Prop := holds (key b) m = true → ∀ f, m.img.sess = some f →
      (∀ e, (staticErr f.target f.bytes m <|> spaceErr f.target f.bytes) = some e → out c (refusedWith b e)) ∧
      ((staticErr f.target f.bytes m <|> spaceErr f.target f.bytes) = none →
        (∀ e, f.target = 0 → loadDeck f.bytes m = .error e → out c (refusedWith b e)) ∧
        (∀ m1, f.target = 0 → loadDeck f.bytes m = .ok m1 →
          (devState m ≠ 3 ∨ (∃ q < 4, quadState q m ≠ 0) → out c (refusedWith b ⟨10, 0, 0, false⟩)) ∧
          (devState m = 3 → (∀ q < 4, quadState q m = 0) → store = false → out c ended)) ∧
        (∀ e, f.target = 1 → reshErr applyStaged f.bytes m = some e → out c (refusedWith b e)) ∧
        (f.target = 1 → reshErr applyStaged f.bytes m = none → store = false → out c fun u => u.img.sess = none ∧
          u.img.resh = some ⟨f.bytes, false, tick m + 4096⟩ ∧ fon IMG_STATUS.reshuf_pending u = true ∧ u.out = m.out ∧
          regsKept [IMG_STATUS] m u ∧ storesKept m u) ∧
        (f.target = 2 → nandOut m = false → (∀ n, fwPart m = some n → fwMin f.bytes ≤ n) → out c fun u => u.img.sess = none ∧
          u.img.fwWrite = some (fwTarget m, f.bytes) ∧ u.out = m.out ∧ u.regs = m.regs ∧ storesKept m u));
    (reach IMG_CMD m = false → ∀ (t : BitVec 2) (b : Bool) (k : Fin 4) (t8 : BitVec 8) (o : W) (l : List Byte),
      ∀ c ∈ [.imgOpen t, .imgCommit b, .imgAbort, .imgXferOpen k t8, .imgXferData k o l, .imgXferCommit k b, .imgXferAbort k],
        exec c s = .next s) ∧
    (reach IMG_CMD m = true →
      (∀ t : BitVec 2,
        (¬ free → exec (.imgOpen t) s = .next (s.withM (setEv IMG_EVENTS.busy_refused m))) ∧
        (free → t = 3#2 ∨ (devState m = 2 ∧ t ≠ 2#2) → exec (.imgOpen t) s = .next (s.withM (setEv IMG_EVENTS.load_refused m))) ∧
        (free → t ≠ 3#2 → (devState m = 2 → t = 2#2) → out (.imgOpen t) (opened none t.toNat))) ∧
      (∀ b, (holds (1, 0) m = false → exec (.imgCommit b) s = .next (s.withM (setEv IMG_EVENTS.load_refused m))) ∧
        commits none b (.imgCommit b)) ∧
      (holds (1, 0) m = false → exec .imgAbort s = .next (s.withM (setEv IMG_EVENTS.load_refused m))) ∧
      (holds (1, 0) m = true → out .imgAbort fun u => ended u ∧ u.out = m.out ∧ regsKept [IMG_STATUS] m u ∧ storesKept m u)) ∧
    (∀ v : W, reach IMG_SPI_DATA m = false ∨ holds (1, 0) m = false → exec (.imgSpiData v) s = .next s) ∧
    (∀ v f, reach IMG_SPI_DATA m = true → holds (1, 0) m = true → m.img.sess = some f → out (.imgSpiData v) fun u =>
      u.img.sess = some ⟨f.target, f.bytes ++ leBytes 4 v.toNat⟩ ∧ rd IMG_SPI_OFF u = rd IMG_SPI_OFF m + 4#32 ∧
      regsKept [IMG_SPI_OFF] m u ∧ storesKept m u) ∧
    (∀ k : Fin 4, reach IMG_CMD m = true → live k →
      let x := (2, k.val)
      let said (c : Nat) (u : Mach) : Prop := answered k (.imgResult c) m u ∧ u.img = m.img ∧ storesKept m u
      (∀ t : BitVec 8,
        (¬ free → out (.imgXferOpen k t) fun u => said 12 u ∧ fon IMG_EVENTS.busy_refused u = true) ∧
        (free → 2 < t.toNat → out (.imgXferOpen k t) fun u => said 2 u ∧ fon IMG_EVENTS.load_refused u = true) ∧
        (free → t.toNat ≤ 2 → devState m = 2 → t ≠ 2#8 → out (.imgXferOpen k t) fun u => said 10 u ∧
          fon IMG_EVENTS.load_refused u = true) ∧
        (free → t.toNat ≤ 2 → (devState m = 2 → t = 2#8) → out (.imgXferOpen k t) (opened (some k) t.toNat))) ∧
      (∀ (o : W) (l : List Byte),
        (holds x m = false → exec (.imgXferData k o l) s = .next s) ∧
        (∀ f, holds x m = true → m.img.sess = some f →
          (mtu m - 64 < l.length ∨ o.toNat ≠ f.bytes.length → out (.imgXferData k o l) (said 3)) ∧
          (l.length ≤ mtu m - 64 → o.toNat = f.bytes.length → out (.imgXferData k o l) fun u =>
            u.img.sess = some ⟨f.target, f.bytes ++ l⟩ ∧ u.regs = m.regs ∧ u.out = m.out ∧ storesKept m u))) ∧
      (∀ b, (holds x m = false → out (.imgXferCommit k b) (said 10)) ∧ commits (some k) b (.imgXferCommit k b)) ∧
      (holds x m = false → out (.imgXferAbort k) (said 10)) ∧
      (holds x m = true → out (.imgXferAbort k) fun u => ended u ∧ answered k (.imgResult 0) m u ∧ regsKept [IMG_STATUS] m u ∧
        storesKept m u))

def Obligations.ImagesReachBanksTwinsAndRecords : Prop :=
  ∀ (s : State),
    let m := s.m
    let out (c : Instr) (P : Mach → Prop) : Prop := ∃ u, exec c s = .next (s.withM u) ∧ P u
    let refused (c : Instr) : Prop := exec c s = .next (s.withM (setEv IMG_EVENTS.load_refused m))
    let err (e : ImgErr) (u : Mach) : Prop := rd IMG_LOAD_ERR u = BitVec.ofNat 32 (e.code + 16 * e.sect + 1024 * e.entry)
    let twinned (r : Nat) : Prop := role m = r ∧ timingOn m = true ∧ laneMask m ≠ 0
    let image (l : List Byte) (n : BitVec 2) (u : Mach) : Prop := ∃ ds, u.out = m.out ++ [.twinXfer (.open_ n)] ++ ds ++
        [.twinXfer (.commit true)] ∧ (ds.flatMap fun o => match o with
          | .twinXfer (.data _ b) => b
          | _ => []) = l ∧ u.regs = m.regs ∧ storesKept m u;
    (reach IMG_CMD m = false → ∀ (t : BitVec 2) (v : W), ∀ c ∈ [.puntyHandover, .trialReset, .pushTwin t, .imgCmdInvalid v],
      exec c s = .next s) ∧
    (reach IMG_CMD m = true →
      (∀ v : W, (v.extractLsb' 16 16 ≠ 0x3E58#16 ∨ 7 ≤ v.toNat % 16 → refused (.imgCmdInvalid v)) ∧
        (v = 0x3E580000#32 → exec (.imgCmdInvalid v) s = .next s)) ∧
      (trialBank m = none → out .trialReset fun u => fon IMG_EVENTS.load_refused u = true ∧ err ⟨10, 0, 0, false⟩ u ∧ storesKept m u) ∧
      (trialBank m ≠ none → out .trialReset fun u => u.img.trialDue = true ∧ devState u = 1 ∧
        fget GCTL_DEV_STATE.cause u = 7 ∧ u.tiles = [] ∧ u.nvm.banks = m.nvm.banks) ∧
      (handoverOk m = true → exec .puntyHandover s = .next (s.withM { m with img := { m.img with handover := true } })) ∧
      (handoverOk m = false → out .puntyHandover fun u => fon IMG_EVENTS.load_refused u = true ∧ err ⟨10, 0, 0, false⟩ u ∧
        u.img = m.img ∧ storesKept m u) ∧
      (∀ t : BitVec 2, ¬ twinned 1 ∨ t = 1#2 ∨ t = 3#2 → refused (.pushTwin t)) ∧
      (twinned 1 → out (.pushTwin 2#2) (image (runningFw m) 2#2)) ∧
      (twinned 1 → getSlot m.nvm.cur m = none → refused (.pushTwin 0#2)) ∧
      (∀ d, twinned 1 → getSlot m.nvm.cur m = some d → d.resh = [] → out (.pushTwin 0#2) (image d.bytes 0#2))) ∧
    (fget IMG_STATUS.lock_src m = 0 ∨ m.img.sess = none → exec .imgLockTimeout s = .next s) ∧
    (fget IMG_STATUS.lock_src m ≠ 0 → m.img.sess ≠ none → out .imgLockTimeout fun u => u.img.sess = none ∧
      fget IMG_STATUS.lock_src u = 0 ∧ fon IMG_EVENTS.lock_timeout u = true ∧ u.out = m.out ∧ storesKept m u) ∧
    (¬ twinned 2 → ∀ x, exec (.twinSourceTransfer x) s = .next s) ∧
    (twinned 2 →
      (∀ t : BitVec 2, (fget IMG_STATUS.lock_src m ≠ 0 →
          exec (.twinSourceTransfer (.open_ t)) s = .next (s.withM (setEv IMG_EVENTS.busy_refused m))) ∧
        (fget IMG_STATUS.lock_src m = 0 → t ≠ 3#2 → out (.twinSourceTransfer (.open_ t)) fun u =>
          u.img.sess = some ⟨t.toNat, []⟩ ∧ fget IMG_STATUS.lock_src u = 3 ∧ fget IMG_STATUS.target u = t.toNat ∧ storesKept m u)) ∧
      (∀ (o : W) l, (holds (3, 0) m = false → exec (.twinSourceTransfer (.data o l)) s = .next s) ∧
        ∀ f, holds (3, 0) m = true → m.img.sess = some f →
          (o.toNat ≠ f.bytes.length → exec (.twinSourceTransfer (.data o l)) s = .next s) ∧
          (o.toNat = f.bytes.length → out (.twinSourceTransfer (.data o l)) fun u =>
            u.img.sess = some ⟨f.target, f.bytes ++ l⟩ ∧ u.regs = m.regs ∧ storesKept m u)) ∧
      (holds (3, 0) m = false → ∀ b, exec (.twinSourceTransfer .abort) s = .next s ∧
        exec (.twinSourceTransfer (.commit b)) s = .next s) ∧
      (holds (3, 0) m = true → out (.twinSourceTransfer .abort) fun u => u.img.sess = none ∧ fget IMG_STATUS.lock_src u = 0 ∧
        storesKept m u) ∧
      (∀ b f e, holds (3, 0) m = true → m.img.sess = some f →
        (staticErr f.target f.bytes m <|> spaceErr f.target f.bytes) = some e → out (.twinSourceTransfer (.commit b)) fun u =>
          u.img.sess = none ∧ fon IMG_EVENTS.load_refused u = true ∧ err e u ∧ storesKept m u)) ∧
    (timingOn m = false ∨ reshDue (nextSlot m).2 m = false → exec .reshuffleApply s = .next s) ∧
    (∀ t, reshDue t m = true ↔ ∃ r, m.img.resh = some r ∧ r.notBefore ≤ t) ∧
    (∀ r, m.img.resh = some r →
      (timingOn m = true → r.notBefore ≤ (nextSlot m).2 → out .reshuffleApply fun u => u.img.resh = none ∧
        fon IMG_STATUS.reshuf_pending u = false ∧ u.slotStart = (nextSlot m).2) ∧
      (r.notBefore ≤ m.slotStart → m.hlt.waiting = [] →
        let m1 := fset IMG_STATUS.reshuf_pending 0 { m with img := { m.img with resh := none } }
        let u := reshuffle applyStaged m
        (∀ e, reshState r.bytes m1 = some e → fon IMG_EVENTS.reshuf_refused u = true ∧ err e u ∧
          fon IMG_STATUS.reshuf_pending u = false ∧ u.img.resh = none ∧ storesKept m u) ∧
        (∀ e, reshState r.bytes m1 = none → reshApply applyStaged r.bytes m1 = .error e →
          fon IMG_EVENTS.reshuf_refused u = true ∧ err e u ∧ u.img.resh = none ∧ storesKept m u) ∧
        (∀ m2, reshState r.bytes m1 = none → reshApply applyStaged r.bytes m1 = .ok m2 →
          fon IMG_EVENTS.load_done u = true ∧ u.img.sess = none))) ∧
    (m.img.fwWrite = none → exec .fwBankWritten s = .next s) ∧
    (∀ k l, m.img.fwWrite = some (k, l) → out .fwBankWritten fun u => u.img.fwWrite = none ∧ u.img.sess = none ∧
      getBank k u = ⟨l, BitVec.ofNat 32 (leAt l 32 4), 2, 0⟩ ∧ (∀ j, j ≠ k → getBank j u = getBank j m) ∧
      (devState m = 2 → devState u = 1 ∧ u.img.trialDue = true) ∧
      (devState m ≠ 2 → fget IMG_STATUS.lock_src u = 0 ∧ u.res = m.res ∧ u.tiles = m.tiles)) ∧
    (fon IMG_STATUS.migrating m = false → exec .migrationDone s = .next s) ∧
    (fon IMG_STATUS.migrating m = true → out .migrationDone fun u => fon IMG_STATUS.migrating u = false ∧
      fon IMG_EVENTS.mig_done u = true ∧ fget IMG_MIG_STATUS.progress u = 100 ∧
      u.nvm.lastFw = (getBank (fget IMG_STATUS.running_bank m) m).ver ∧ u.img.storeQ = [] ∧ u.img.calWait = false ∧
      u.res = m.res ∧ u.tiles = m.tiles)

end
end

