-- ==== Sys2Proof/Laws/Tab.lean ====
section
/-! SUPPORT. The laws of the sparse tables: a key reads what was put under it, every other key reads as before, and the
canonical form is kept, so that tables that read alike everywhere are equal. -/

namespace Sys2Proof.Machine

variable {α : Type}

@[simp] theorem tabGet_nil (d : Nat → α) (k : Nat) : tabGet d [] k = d k := rfl

theorem tabGet_tabDel_same (d : Nat → α) (t : List (Nat × α)) (k : Nat) : tabGet d (tabDel t k) k = d k := by
  induction t with
  | nil => rfl
  | cons e r ih =>
    by_cases h : e.1 = k
    · simpa [tabDel, h] using ih
    · simpa [tabDel, h, tabGet] using ih

theorem tabGet_tabDel_other (d : Nat → α) (t : List (Nat × α)) {k a : Nat} (h : a ≠ k) :
    tabGet d (tabDel t k) a = tabGet d t a := by
  induction t with
  | nil => rfl
  | cons e r ih =>
    by_cases hk : e.1 = k
    · have : e.1 ≠ a := fun q => h (q.symm.trans hk)
      simpa [tabDel, hk, tabGet, this, Ne.symm h] using ih
    · simp only [tabDel, tabGet, List.filter_cons, bne_iff_ne, ne_eq, hk, not_false_eq_true, ↓reduceIte]
      simp only [tabDel] at ih
      rw [ih]

theorem tabGet_tabIns_same (d : Nat → α) (t : List (Nat × α)) (k : Nat) (v : α) (h : ∀ e ∈ t, e.1 ≠ k) :
    tabGet d (tabIns t k v) k = v := by
  induction t with
  | nil => simp [tabIns, tabGet]
  | cons e r ih =>
    have h1 : e.1 ≠ k := h e (by simp)
    have h2 := ih fun x hx => h x (by simp [hx])
    by_cases hlt : k < e.1
    · simp [tabIns, hlt, tabGet]
    · simp [tabIns, hlt, tabGet, h1, h2]

theorem tabGet_tabIns_other (d : Nat → α) (t : List (Nat × α)) {k a : Nat} (v : α) (h : a ≠ k) :
    tabGet d (tabIns t k v) a = tabGet d t a := by
  induction t with
  | nil => simp [tabIns, tabGet, Ne.symm h]
  | cons e r ih =>
    by_cases hlt : k < e.1
    · simp [tabIns, hlt, tabGet, Ne.symm h]
    · simp [tabIns, hlt, tabGet, ih]

theorem mem_tabDel {t : List (Nat × α)} {k : Nat} {e : Nat × α} : e ∈ tabDel t k ↔ e ∈ t ∧ e.1 ≠ k := by
  simp [tabDel]

/-- A key reads what was put under it. -/
@[simp] theorem tabGet_tabPut_same [DecidableEq α] (d : Nat → α) (t : List (Nat × α)) (k : Nat) (v : α) :
    tabGet d (tabPut d t k v) k = v := by
  unfold tabPut
  split
  · next h => rw [tabGet_tabDel_same, h]
  · exact tabGet_tabIns_same d _ k v fun e he => (mem_tabDel.1 he).2

/-- Every other key reads as before. -/
theorem tabGet_tabPut_other [DecidableEq α] (d : Nat → α) (t : List (Nat × α)) {k a : Nat} (v : α) (h : a ≠ k) :
    tabGet d (tabPut d t k v) a = tabGet d t a := by
  unfold tabPut
  split
  · exact tabGet_tabDel_other d t h
  · rw [tabGet_tabIns_other d _ v h, tabGet_tabDel_other d t h]

theorem tabGet_tabPut [DecidableEq α] (d : Nat → α) (t : List (Nat × α)) (k a : Nat) (v : α) :
    tabGet d (tabPut d t k v) a = if a = k then v else tabGet d t a := by
  split
  · next h => rw [h, tabGet_tabPut_same]
  · next h => exact tabGet_tabPut_other d t v h

/-! ### The canonical form -/

theorem tabWf_iff [DecidableEq α] (d : Nat → α) (t : List (Nat × α)) :
    tabWf d t = true ↔ t.Pairwise (fun a b => a.1 < b.1) ∧ ∀ e ∈ t, e.2 ≠ d e.1 := by
  simp only [tabWf, Bool.and_eq_true, decide_eq_true_eq, List.all_eq_true, ne_eq, decide_not, Bool.not_eq_true']
  constructor
  · rintro ⟨h1, h2⟩; exact ⟨h1, fun e he => by simpa using h2 e he⟩
  · rintro ⟨h1, h2⟩; exact ⟨h1, fun e he => by simpa using h2 e he⟩

@[simp] theorem tabWf_nil [DecidableEq α] (d : Nat → α) : tabWf d [] = true := by simp [tabWf]

theorem tabWf_tabDel [DecidableEq α] {d : Nat → α} {t : List (Nat × α)} (h : tabWf d t = true) (k : Nat) :
    tabWf d (tabDel t k) = true := by
  rw [tabWf_iff] at *
  exact ⟨h.1.filter _, fun e he => h.2 e (mem_tabDel.1 he).1⟩

theorem mem_tabIns {t : List (Nat × α)} {k : Nat} {v : α} {e : Nat × α} (h : e ∈ tabIns t k v) : e = (k, v) ∨ e ∈ t := by
  induction t with
  | nil => simpa [tabIns] using h
  | cons x r ih =>
    by_cases hlt : k < x.1
    · simpa [tabIns, hlt] using h
    · simp only [tabIns, hlt, ↓reduceIte, List.mem_cons] at h
      rcases h with h | h
      · exact .inr (by simp [h])
      · rcases ih h with h | h
        · exact .inl h
        · exact .inr (by simp [h])

theorem pairwise_tabIns {t : List (Nat × α)} (k : Nat) (v : α) (h : t.Pairwise fun a b => a.1 < b.1)
    (hk : ∀ e ∈ t, e.1 ≠ k) : (tabIns t k v).Pairwise fun a b => a.1 < b.1 := by
  induction t with
  | nil => simp [tabIns]
  | cons x r ih =>
    rw [List.pairwise_cons] at h
    by_cases hlt : k < x.1
    · simp only [tabIns, hlt, ↓reduceIte, List.pairwise_cons, List.mem_cons]
      refine ⟨?_, h.1, h.2⟩
      rintro e (rfl | he)
      · exact hlt
      · exact Nat.lt_trans hlt (h.1 e he)
    · simp only [tabIns, hlt, ↓reduceIte, List.pairwise_cons]
      refine ⟨fun e he => ?_, ih h.2 fun e he => hk e (by simp [he])⟩
      rcases mem_tabIns he with rfl | he
      · have := hk x (by simp); simp only; omega
      · exact h.1 e he

/-- A write keeps the canonical form. -/
theorem tabWf_tabPut [DecidableEq α] {d : Nat → α} {t : List (Nat × α)} (h : tabWf d t = true) (k : Nat) (v : α) :
    tabWf d (tabPut d t k v) = true := by
  unfold tabPut
  split
  · exact tabWf_tabDel h k
  · next hv =>
    have h' := (tabWf_iff d _).1 (tabWf_tabDel h k)
    refine (tabWf_iff d _).2 ⟨pairwise_tabIns k v h'.1 fun e he => (mem_tabDel.1 he).2, fun e he => ?_⟩
    rcases mem_tabIns he with rfl | he
    · exact hv
    · exact h'.2 e he

/-- A listed entry is what its key reads as. -/
theorem tabGet_of_mem [DecidableEq α] {d : Nat → α} {t : List (Nat × α)} (h : tabWf d t = true) {e : Nat × α} (he : e ∈ t) :
    tabGet d t e.1 = e.2 := by
  rw [tabWf_iff] at h
  obtain ⟨h, -⟩ := h
  induction t with
  | nil => simp at he
  | cons x r ih =>
    rw [List.pairwise_cons] at h
    rcases List.mem_cons.1 he with rfl | he
    · simp [tabGet]
    · have := h.1 e he
      have hne : x.1 ≠ e.1 := by omega
      simp [tabGet, hne, ih he h.2]

end Sys2Proof.Machine
end

