-- ==== Sys2Proof/Laws/State.lean ====
section
/-! SUPPORT. What the named updates of the state leave: one lemma for each field an update can touch, and what a register,
a field and a staged value read as after a write. Later proofs cite these and unfold no record update. -/

namespace Sys2Proof.Machine

/-! ### Registers -/

@[simp] theorem rd_wr_same (a : Nat) (v : W) (m : Mach) : rd a (wr a v m) = v := by simp [rd, wr]

theorem rd_wr_other {a b : Nat} (h : b ≠ a) (v : W) (m : Mach) : rd b (wr a v m) = rd b m := by
  simp [rd, wr, tabGet_tabPut_other _ _ _ h]

theorem rd_wr (a b : Nat) (v : W) (m : Mach) : rd b (wr a v m) = if b = a then v else rd b m := by
  split
  · next h => rw [h, rd_wr_same]
  · next h => exact rd_wr_other h v m

/-- A register write changes nothing but the register table. -/
theorem wr_frame (a : Nat) (v : W) (m : Mach) : { wr a v m with regs := m.regs } = m := rfl

/-- The register table keeps its canonical form. -/
theorem wr_wf {m : Mach} (h : tabWf regReset m.regs = true) (a : Nat) (v : W) : tabWf regReset (wr a v m).regs = true :=
  tabWf_tabPut h a v

@[simp] theorem staged_wr (a b : Nat) (v : W) (m : Mach) : staged b (wr a v m) = staged b m := rfl
@[simp] theorem rd_setStage (a b : Nat) (v : Option W) (m : Mach) : rd b (setStage a v m) = rd b m := rfl
@[simp] theorem staged_setStage_same (a : Nat) (v : Option W) (m : Mach) : staged a (setStage a v m) = v := by
  simp [staged, setStage]
theorem staged_setStage_other {a b : Nat} (h : b ≠ a) (v : Option W) (m : Mach) :
    staged b (setStage a v m) = staged b m := by
  simp [staged, setStage, tabGet_tabPut_other _ _ _ h]

/-! ### Fields -/

theorem wfld_lt (v : W) (lo w : Nat) : wfld v lo w < 2 ^ w := (v.extractLsb' lo w).isLt

theorem fget_lt (f : Fld) (m : Mach) : fget f m < 2 ^ f.w := wfld_lt _ _ _

@[simp] theorem rd_fset_same (f : Fld) (x : Nat) (m : Mach) : rd f.reg (fset f x m) = wset (rd f.reg m) f.lo f.w x := by
  simp [fset]

theorem rd_fset_other {f : Fld} {a : Nat} (h : a ≠ f.reg) (x : Nat) (m : Mach) : rd a (fset f x m) = rd a m := by
  simp [fset, rd_wr_other h]

theorem fget_fset_other_reg {f g : Fld} (h : g.reg ≠ f.reg) (x : Nat) (m : Mach) : fget g (fset f x m) = fget g m := by
  simp [fget, rd_fset_other h]

/-- A bit of a word with a field replaced: the field's bit inside, the old bit outside. -/
theorem getLsbD_wset (v : W) (lo w x j : Nat) (h : lo + w ≤ 32) :
    (wset v lo w x).getLsbD j =
      if lo ≤ j ∧ j < lo + w then (BitVec.ofNat w x).getLsbD (j - lo) else v.getLsbD j := by
  by_cases hj : j < 32
  · have h2 : ∀ k, (2 ^ w - 1 : Nat).testBit k = decide (k < w) := fun k => by
      simp
    simp only [wset, BitVec.getLsbD_or, BitVec.getLsbD_and, BitVec.getLsbD_not, BitVec.getLsbD_shiftLeft, hj, decide_true,
      Bool.true_and, BitVec.getLsbD_ofNat, h2, Nat.testBit_mod_two_pow]
    by_cases h1 : j < lo
    · have : ¬ (lo ≤ j ∧ j < lo + w) := by omega
      simp [h1, this]
    · by_cases h3 : j < lo + w
      · have h4 : lo ≤ j ∧ j < lo + w := ⟨by omega, h3⟩
        have h5 : j - lo < 32 := by omega
        have h6 : j - lo < w := by omega
        simp [h1, h4, h5, h6]
      · have h4 : ¬ (lo ≤ j ∧ j < lo + w) := by omega
        have h6 : ¬ (j - lo < w) := by omega
        simp [h4, h6]
  · have h4 : ¬ (lo ≤ j ∧ j < lo + w) := by omega
    rw [BitVec.getLsbD_of_ge _ _ (by omega), BitVec.getLsbD_of_ge v j (by omega)]
    simp [h4]

/-- A field inside the word reads what was written, modulo its width. -/
theorem wfld_wset_same (v : W) (lo w x : Nat) (h : lo + w ≤ 32) : wfld (wset v lo w x) lo w = x % 2 ^ w := by
  apply Nat.eq_of_testBit_eq
  intro j
  rw [wfld, BitVec.testBit_toNat, BitVec.getLsbD_extractLsb', getLsbD_wset v lo w x _ h]
  by_cases hj : j < w
  · simp [hj, -BitVec.getLsbD_eq_getElem, BitVec.getLsbD_ofNat]
  · simp [hj]

/-- A field that does not meet the written one reads as before. -/
theorem wfld_wset_other (v : W) (lo w x lo' w' : Nat) (h : lo + w ≤ 32) (hd : lo + w ≤ lo' ∨ lo' + w' ≤ lo) :
    wfld (wset v lo w x) lo' w' = wfld v lo' w' := by
  apply Nat.eq_of_testBit_eq
  intro j
  rw [wfld, wfld, BitVec.testBit_toNat, BitVec.testBit_toNat, BitVec.getLsbD_extractLsb', BitVec.getLsbD_extractLsb',
    getLsbD_wset v lo w x _ h]
  by_cases hj : j < w'
  · have : ¬ (lo ≤ lo' + j ∧ lo' + j < lo + w) := by omega
    simp [this]
  · simp [hj]

theorem fget_fset_same {f : Fld} (h : f.lo + f.w ≤ 32) (x : Nat) (m : Mach) : fget f (fset f x m) = x % 2 ^ f.w := by
  rw [fget, rd_fset_same, wfld_wset_same _ _ _ _ h]

theorem fget_fset_other {f g : Fld} (h : f.lo + f.w ≤ 32) (hd : g.reg ≠ f.reg ∨ f.lo + f.w ≤ g.lo ∨ g.lo + g.w ≤ f.lo)
    (x : Nat) (m : Mach) : fget g (fset f x m) = fget g m := by
  by_cases hr : g.reg = f.reg
  · rcases hd with hd | hd
    · exact absurd hr hd
    · rw [fget, fget, hr, rd_fset_same, wfld_wset_other _ _ _ _ _ _ h hd]
  · exact fget_fset_other_reg hr x m

/-! ### Tables of hidden state -/

@[simp] theorem getQ_setQ_same (q : Nat) (x : Quad) (m : Mach) : getQ q (setQ q x m) = x := by simp [getQ, setQ]
@[simp] theorem getIn_setIn_same (k : Nat) (x : List BEntry) (m : Mach) : getIn k (setIn k x m) = x := by simp [getIn, setIn]
@[simp] theorem getOut_setOut_same (k : Nat) (x : OutBr) (m : Mach) : getOut k (setOut k x m) = x := by simp [getOut, setOut]
@[simp] theorem getRx_setRx_same (k : Nat) (x : RxSt) (m : Mach) : getRx k (setRx k x m) = x := by simp [getRx, setRx]
@[simp] theorem getChain_setChain_same (k : Nat) (x : ChainSt) (m : Mach) : getChain k (setChain k x m) = x := by
  simp [getChain, setChain]
@[simp] theorem getTx_setTx_same (k : Nat) (x : TxSt) (m : Mach) : getTx k (setTx k x m) = x := by simp [getTx, setTx]
@[simp] theorem getFes_setFes_same (k : Nat) (x : Fes) (m : Mach) : getFes k (setFes k x m) = x := by simp [getFes, setFes]
@[simp] theorem getPd_setPd_same (k : Nat) (x : PdSt) (m : Mach) : getPd k (setPd k x m) = x := by simp [getPd, setPd]
@[simp] theorem getTile_setTile_same (k : Nat) (x : Tile) (m : Mach) : getTile k (setTile k x m) = x := by
  simp [getTile, setTile]
theorem getTile_setTile_other {k j : Nat} (h : j ≠ k) (x : Tile) (m : Mach) : getTile j (setTile k x m) = getTile j m := by
  simp [getTile, setTile, tabGet_tabPut_other _ _ _ h]
@[simp] theorem getCap_setCap_same (k : Nat) (x : CapSet) (m : Mach) : getCap k (setCap k x m) = x := by simp [getCap, setCap]
@[simp] theorem getDma_setDma_same (k : Nat) (x : DmaCh) (m : Mach) : getDma k (setDma k x m) = x := by simp [getDma, setDma]
@[simp] theorem getUp_setUp_same (k : Nat) (x : UpQ) (m : Mach) : getUp k (setUp k x m) = x := by simp [getUp, setUp]
@[simp] theorem getUlTx_setUlTx_same (k : Nat) (x : UlTx) (m : Mach) : getUlTx k (setUlTx k x m) = x := by
  simp [getUlTx, setUlTx]
@[simp] theorem getDlRx_setDlRx_same (k : Nat) (x : DlRx) (m : Mach) : getDlRx k (setDlRx k x m) = x := by
  simp [getDlRx, setDlRx]
@[simp] theorem getSess_setSess_same (k : Nat) (x : SessSt) (m : Mach) : getSess k (setSess k x m) = x := by
  simp [getSess, setSess]
@[simp] theorem getMon_setMon_same (k : Nat) (x : MonSt) (m : Mach) : getMon k (setMon k x m) = x := by simp [getMon, setMon]
@[simp] theorem getSens_setSens_same (k : Nat) (x : SensSt) (m : Mach) : getSens k (setSens k x m) = x := by
  simp [getSens, setSens]

/-! ### Outcomes -/

@[simp] theorem answer_next (s : State) (m' : Mach) : answer s m' = .next { s with m := m' } := rfl
@[simp] theorem answerIf_true (s : State) (m' : Mach) : answerIf true s m' = .next { s with m := m' } := rfl
@[simp] theorem answerIf_false (s : State) (m' : Mach) : answerIf false s m' = .fault .malformedCommand := rfl

/-- A conditional update applied, and not applied. -/
@[simp] theorem whenB_true (f : Mach → Mach) (m : Mach) : whenB true f m = f m := rfl
@[simp] theorem whenB_false (f : Mach → Mach) (m : Mach) : whenB false f m = m := rfl
@[simp] theorem setEvIf_true (f : Fld) (m : Mach) : setEvIf true f m = setEv f m := rfl
@[simp] theorem setEvIf_false (f : Fld) (m : Mach) : setEvIf false f m = m := rfl

/-- R495: a write of a register that the host's paths reach has its effect, any other has none. -/
theorem gate_reach {a : Nat} {m : Mach} (h : reach a m = true) (f : Mach → Mach) : gate a f m = f m := by simp [gate, h]
theorem gate_blocked {a : Nat} {m : Mach} (h : reach a m = false) (f : Mach → Mach) : gate a f m = m := by simp [gate, h]

/-- What an update leaves alone, a list of such updates leaves alone. -/
theorem each_keeps {α β : Type} (g : Mach → β) (l : List α) (f : α → Mach → Mach) (h : ∀ a ∈ l, ∀ m, g (f a m) = g m)
    (m : Mach) : g (each l f m) = g m := by
  induction l generalizing m with
  | nil => rfl
  | cons a r ih =>
    have := ih (fun b hb => h b (by simp [hb])) (f a m)
    simp only [each, List.foldl_cons] at *
    rw [this, h a (by simp)]

/-- An invariant kept by each update is kept by a list of them. -/
theorem each_inv {α : Type} (P : Mach → Prop) (l : List α) (f : α → Mach → Mach) (h : ∀ a ∈ l, ∀ m, P m → P (f a m))
    (m : Mach) (hm : P m) : P (each l f m) := by
  induction l generalizing m with
  | nil => exact hm
  | cons a r ih => exact ih (fun b hb => h b (by simp [hb])) (f a m) (h a (by simp) m hm)

/-! ### Messages and free values -/

@[simp] theorem rd_send (o : OutMsg) (a : Nat) (m : Mach) : rd a (send o m) = rd a m := rfl
@[simp] theorem out_send (o : OutMsg) (m : Mach) : (send o m).out = m.out ++ [o] := rfl
@[simp] theorem rd_nextFree (a : Nat) (m : Mach) : rd a (nextFree m) = rd a m := rfl
@[simp] theorem free_nextFree (m : Mach) : (nextFree m).free = m.free + 1 := rfl
@[simp] theorem out_wr (a : Nat) (v : W) (m : Mach) : (wr a v m).out = m.out := rfl
@[simp] theorem res_wr (a : Nat) (v : W) (m : Mach) : (wr a v m).res = m.res := rfl
@[simp] theorem nvm_wr (a : Nat) (v : W) (m : Mach) : (wr a v m).nvm = m.nvm := rfl
@[simp] theorem tod_wr (a : Nat) (v : W) (m : Mach) : (wr a v m).tod = m.tod := rfl
@[simp] theorem power_wr (a : Nat) (v : W) (m : Mach) : (wr a v m).power = m.power := rfl
@[simp] theorem tiles_wr (a : Nat) (v : W) (m : Mach) : (wr a v m).tiles = m.tiles := rfl
@[simp] theorem tiles_send (o : OutMsg) (m : Mach) : (send o m).tiles = m.tiles := rfl
@[simp] theorem res_send (o : OutMsg) (m : Mach) : (send o m).res = m.res := rfl

end Sys2Proof.Machine
end

