-- ==== Sys2Proof/Laws/Ops.lean ====
section
/-! SUPPORT. What the shared operations can do, each said once: a log entry, a sticky event, a counter, a reservoir write. -/

namespace Sys2Proof.Machine

/-- R448: curing an entry's units touches the poison marks alone. -/
theorem logCure_frame (i : Nat) (m : Mach) : ∃ z, logCure i m = { m with poison := z } := ⟨_, rfl⟩

@[simp] theorem rd_logCure (a i : Nat) (m : Mach) : rd a (logCure i m) = rd a m := rfl

/-- R451: what a log entry does: nothing, or the log's two registers, its own hidden state and the poison marks of its units take
new values. -/
theorem logPut_cases (e : LogEntry) (m : Mach) : logPut e m = m ∨ (∃ x l q ms c z, logPut e m =
      { fset HLT_LOG_WPTR.next x m with log := l, logSeq := q, logMs := ms, logCnt := c, poison := z }) ∨
    ∃ k, logPut e m = fset HLT_EVENTS.log_drop 1 (fcnt HLT_LOG_WPTR.dropped k m) := by
  unfold logPut
  by_cases h1 : logOn m = false
  · rw [if_pos h1]; exact .inl rfl
  · rw [if_neg h1]
    dsimp only
    generalize (if tick m / ticksPerMs = m.logMs then m.logCnt else 0) = c
    by_cases h2 : c < 64
    · rw [if_pos h2]; exact .inr (.inl ⟨_, _, _, _, _, (logCure (fget HLT_LOG_WPTR.next m) m).poison, rfl⟩)
    · rw [if_neg h2]; exact .inr (.inr ⟨_, rfl⟩)

theorem logPut_frame (e : LogEntry) (m : Mach) : ∃ r l q ms c z,
    logPut e m = { m with regs := r, log := l, logSeq := q, logMs := ms, logCnt := c, poison := z } := by
  rcases logPut_cases e m with h | ⟨x, l, q, ms, c, z, h⟩ | ⟨k, h⟩ <;> rw [h] <;> exact ⟨_, _, _, _, _, _, rfl⟩

theorem rd_logPut {a : Nat} (h1 : a ≠ HLT_LOG_WPTR) (h2 : a ≠ HLT_EVENTS) (e : LogEntry) (m : Mach) :
    rd a (logPut e m) = rd a m := by
  have k1 : a ≠ HLT_LOG_WPTR.next.reg := h1
  have k2 : a ≠ HLT_LOG_WPTR.dropped.reg := h1
  have k3 : a ≠ HLT_EVENTS.log_drop.reg := h2
  rcases logPut_cases e m with h | ⟨x, l, q, ms, c, z, h⟩ | ⟨k, h⟩ <;> rw [h]
  · exact rd_fset_other k1 _ m
  · rw [rd_fset_other k3, fcnt, rd_fset_other k2]

theorem summaryRise_frame (g : Nat) (b : Bool) (m : Mach) : ∃ p, summaryRise g b m = { m with evtPend := p } := by
  unfold summaryRise
  split
  · exact ⟨_, rfl⟩
  · exact ⟨m.evtPend, rfl⟩

@[simp] theorem rd_summaryRise (a g : Nat) (b : Bool) (m : Mach) : rd a (summaryRise g b m) = rd a m := by
  obtain ⟨p, h⟩ := summaryRise_frame g b m
  rw [h]; rfl

/-- A sticky bit that the device sets touches registers, the log with its units and the pending EVENT, nothing else. -/
theorem setEvDie_frame (d : Nat) (f : Fld) (m : Mach) : ∃ r l q ms c p z, setEvDie d f m =
    { m with regs := r, log := l, logSeq := q, logMs := ms, logCnt := c, evtPend := p, poison := z } := by
  unfold setEvDie
  by_cases h : fon f m = true
  · rw [if_pos h]; exact ⟨_, _, _, _, _, _, _, rfl⟩
  · rw [if_neg h]
    obtain ⟨r, l, q, ms, c, z, h1⟩ := logPut_frame { stickyEntry f with die := d } (fset f 1 m)
    dsimp only
    split
    · rw [h1]; exact ⟨_, _, _, _, _, _, _, rfl⟩
    · next g _ =>
      obtain ⟨p, h2⟩ := summaryRise_frame g (summaryBit m g) (logPut { stickyEntry f with die := d } (fset f 1 m))
      rw [h2, h1]; exact ⟨_, _, _, _, _, _, _, rfl⟩

theorem setEv_frame (f : Fld) (m : Mach) : ∃ r l q ms c p z, setEv f m =
    { m with regs := r, log := l, logSeq := q, logMs := ms, logCnt := c, evtPend := p, poison := z } := setEvDie_frame _ f m

/-- Of the registers, only the bit's own and the log's two may change. -/
theorem rd_setEvDie {d : Nat} {f : Fld} {a : Nat} (h0 : a ≠ f.reg) (h1 : a ≠ HLT_LOG_WPTR) (h2 : a ≠ HLT_EVENTS) (m : Mach) :
    rd a (setEvDie d f m) = rd a m := by
  unfold setEvDie
  split
  · rfl
  · dsimp only
    split
    · rw [rd_logPut h1 h2, rd_fset_other h0]
    · rw [rd_summaryRise, rd_logPut h1 h2, rd_fset_other h0]

theorem rd_setEv {f : Fld} {a : Nat} (h0 : a ≠ f.reg) (h1 : a ≠ HLT_LOG_WPTR) (h2 : a ≠ HLT_EVENTS) (m : Mach) :
    rd a (setEv f m) = rd a m := rd_setEvDie h0 h1 h2 m

/-- The bit is 1 afterwards. -/
theorem fon_setEvDie {d : Nat} {f : Fld} (hw : f.w = 1) (hlo : f.lo + f.w ≤ 32) (h1 : f.reg ≠ HLT_LOG_WPTR)
    (h2 : f.reg ≠ HLT_EVENTS) (m : Mach) : fon f (setEvDie d f m) = true := by
  have key : fget f (fset f 1 m) = 1 := by rw [fget_fset_same hlo, hw]; rfl
  by_cases h : fon f m = true
  · simp [setEvDie, h]
  · have e1 : ∀ e, rd f.reg (logPut e (fset f 1 m)) = rd f.reg (fset f 1 m) := fun e => rd_logPut h1 h2 e _
    unfold setEvDie
    rw [if_neg h]
    simp only [fget] at key
    dsimp only
    split <;> simp only [fon, fget, rd_summaryRise, e1, key] <;> rfl

theorem fon_setEv {f : Fld} (hw : f.w = 1) (hlo : f.lo + f.w ≤ 32) (h1 : f.reg ≠ HLT_LOG_WPTR) (h2 : f.reg ≠ HLT_EVENTS)
    (m : Mach) : fon f (setEv f m) = true := fon_setEvDie hw hlo h1 h2 m

@[simp] theorem res_setEvDie (d : Nat) (f : Fld) (m : Mach) : (setEvDie d f m).res = m.res := by
  obtain ⟨_, _, _, _, _, _, _, h⟩ := setEvDie_frame d f m; rw [h]
@[simp] theorem res_setEv (f : Fld) (m : Mach) : (setEv f m).res = m.res := res_setEvDie _ f m
@[simp] theorem poisonBanks_setEvDie (d : Nat) (f : Fld) (m : Mach) : (setEvDie d f m).poisonBanks = m.poisonBanks := by
  obtain ⟨_, _, _, _, _, _, _, h⟩ := setEvDie_frame d f m; rw [h]
@[simp] theorem poisonBanks_setEv (f : Fld) (m : Mach) : (setEv f m).poisonBanks = m.poisonBanks := poisonBanks_setEvDie _ f m
@[simp] theorem stage_setEvDie (d : Nat) (f : Fld) (m : Mach) : (setEvDie d f m).stage = m.stage := by
  obtain ⟨_, _, _, _, _, _, _, h⟩ := setEvDie_frame d f m; rw [h]
@[simp] theorem stage_setEv (f : Fld) (m : Mach) : (setEv f m).stage = m.stage := stage_setEvDie _ f m
@[simp] theorem tiles_setEvDie (d : Nat) (f : Fld) (m : Mach) : (setEvDie d f m).tiles = m.tiles := by
  obtain ⟨_, _, _, _, _, _, _, h⟩ := setEvDie_frame d f m; rw [h]
@[simp] theorem tiles_setEv (f : Fld) (m : Mach) : (setEv f m).tiles = m.tiles := tiles_setEvDie _ f m
@[simp] theorem nvm_setEvDie (d : Nat) (f : Fld) (m : Mach) : (setEvDie d f m).nvm = m.nvm := by
  obtain ⟨_, _, _, _, _, _, _, h⟩ := setEvDie_frame d f m; rw [h]
@[simp] theorem nvm_setEv (f : Fld) (m : Mach) : (setEv f m).nvm = m.nvm := nvm_setEvDie _ f m
@[simp] theorem out_setEvDie (d : Nat) (f : Fld) (m : Mach) : (setEvDie d f m).out = m.out := by
  obtain ⟨_, _, _, _, _, _, _, h⟩ := setEvDie_frame d f m; rw [h]
@[simp] theorem out_setEv (f : Fld) (m : Mach) : (setEv f m).out = m.out := out_setEvDie _ f m
@[simp] theorem power_setEvDie (d : Nat) (f : Fld) (m : Mach) : (setEvDie d f m).power = m.power := by
  obtain ⟨_, _, _, _, _, _, _, h⟩ := setEvDie_frame d f m; rw [h]
@[simp] theorem power_setEv (f : Fld) (m : Mach) : (setEv f m).power = m.power := power_setEvDie _ f m
@[simp] theorem tod_setEvDie (d : Nat) (f : Fld) (m : Mach) : (setEvDie d f m).tod = m.tod := by
  obtain ⟨_, _, _, _, _, _, _, h⟩ := setEvDie_frame d f m; rw [h]
@[simp] theorem tod_setEv (f : Fld) (m : Mach) : (setEv f m).tod = m.tod := tod_setEvDie _ f m
@[simp] theorem free_setEvDie (d : Nat) (f : Fld) (m : Mach) : (setEvDie d f m).free = m.free := by
  obtain ⟨_, _, _, _, _, _, _, h⟩ := setEvDie_frame d f m; rw [h]
@[simp] theorem free_setEv (f : Fld) (m : Mach) : (setEv f m).free = m.free := free_setEvDie _ f m

/-! ### The reservoir -/

@[simp] theorem resByte_wr (a b : Nat) (v : W) (m : Mach) : resByte b (wr a v m) = resByte b m := rfl
@[simp] theorem resByte_setPoison (a b : Nat) (p : Bool) (m : Mach) : resByte b (setPoison a p m) = resByte b m := rfl
@[simp] theorem resByte_setByte_same (a : Nat) (b : Byte) (m : Mach) : resByte a (setByte a b m) = b := by
  simp [resByte, setByte]
theorem resByte_setByte_other {a c : Nat} (h : c ≠ a) (b : Byte) (m : Mach) : resByte c (setByte a b m) = resByte c m := by
  simp [resByte, setByte, tabGet_tabPut_other _ _ _ h]
@[simp] theorem resByte_setEv (a : Nat) (f : Fld) (m : Mach) : resByte a (setEv f m) = resByte a m := by simp [resByte]

/-- Reset lists no byte, which is the canonical form. -/
theorem memory_wf_reset : Memory.wf State.reset.m.res = true := by simp [State.reset, Memory.wf]

/-- Writing a byte keeps the canonical form. -/
theorem memory_wf_setByte {m : Mach} (h : Memory.wf m.res = true) (a : Nat) (b : Byte) :
    Memory.wf (setByte a b m).res = true := tabWf_tabPut h a b

theorem memory_wf_setBytes {m : Mach} (h : Memory.wf m.res = true) (l : List (Nat × Byte)) :
    Memory.wf (each l (fun p s => setByte p.1 p.2 s) m).res = true :=
  each_inv (fun s => Memory.wf s.res = true) l _ (fun p _ _ hs => memory_wf_setByte hs p.1 p.2) m h

/-- The part of a write that falls into one unit keeps it. -/
theorem memory_wf_writeUnit {m : Mach} (h : Memory.wf m.res = true) (a u : Nat) (bs : List Byte) :
    Memory.wf (writeUnit a bs u m).res = true := by
  simp only [writeUnit]
  split
  · simpa using h
  · exact memory_wf_setBytes (m := setPoison (8 * u) false m) h _

/-- Every write of the reservoir keeps the canonical form. -/
theorem memory_wf_resWrite {m : Mach} (h : Memory.wf m.res = true) (a : Nat) (bs : List Byte) :
    Memory.wf (resWrite a bs m).res = true :=
  each_inv (fun s => Memory.wf s.res = true) _ _ (fun u _ _ hs => memory_wf_writeUnit hs a u bs) m h

theorem resByte_setBytes_other {l : List (Nat × Byte)} {c : Nat} (h : ∀ p ∈ l, p.1 ≠ c) (m : Mach) :
    resByte c (each l (fun p s => setByte p.1 p.2 s) m) = resByte c m :=
  each_keeps (resByte c) l _ (fun p hp _ => resByte_setByte_other (Ne.symm (h p hp)) _ _) m

theorem mem_inUnit {a u : Nat} {bs : List Byte} {p : Nat × Byte} (h : p ∈ inUnit a u bs) :
    a ≤ p.1 ∧ p.1 < a + bs.length := by
  simp only [inUnit, List.mem_filter, List.mem_map] at h
  obtain ⟨⟨q, hq, rfl⟩, -⟩ := h
  have := List.mem_zipIdx hq
  simp only
  omega

theorem resByte_writeUnit_other {a u c : Nat} {bs : List Byte} (h : c < a ∨ a + bs.length ≤ c) (m : Mach) :
    resByte c (writeUnit a bs u m) = resByte c m := by
  simp only [writeUnit]
  split
  · simp
  · rw [resByte_setBytes_other, resByte_setPoison]
    intro p hp
    have := mem_inUnit hp
    omega

/-- A write of the reservoir changes no byte outside the bytes it stores. -/
theorem resByte_resWrite_other {a c : Nat} {bs : List Byte} (h : c < a ∨ a + bs.length ≤ c) (m : Mach) :
    resByte c (resWrite a bs m) = resByte c m :=
  each_keeps (resByte c) _ _ (fun _ _ s => resByte_writeUnit_other h s) m

@[simp] theorem resByte_reportUe (a c : Nat) (m : Mach) : resByte c (reportUe a m) = resByte c m := by
  simp [reportUe, cnt]

/-- Reading changes no byte. -/
@[simp] theorem resByte_readReport (a n c : Nat) (m : Mach) : resByte c (readReport a n m) = resByte c m :=
  each_keeps (resByte c) _ _ (fun u _ s => resByte_reportUe (8 * u) c s) m

end Sys2Proof.Machine
end

