-- ==== Sys2Proof/Laws/Canon.lean ====
section
/-! SUPPORT. The canonical form of the register table and of the reservoir (`Mach.canon`): what keeps it, for the shapes that
operations are written in. The files Canon<File> say it of every operation of Machine/<File>.lean. -/

namespace Sys2Proof.Machine

theorem tabWf_filter {α : Type} [DecidableEq α] {d : Nat → α} {t : List (Nat × α)} (h : tabWf d t = true)
    (p : Nat × α → Bool) : tabWf d (t.filter p) = true := by
  rw [tabWf_iff] at *
  exact ⟨h.1.filter _, fun e he => h.2 e (List.mem_of_mem_filter he)⟩

/-- The two tables are in canonical form. -/
def Canon (r : Tab W) (s : List Host.Cell) : Prop := tabWf regReset r = true ∧ Memory.wf s = true

/-- Only the two tables count. -/
theorem canon_mk
    {regs : Tab W} {stage : Tab (Option W)} {tod : Nat} {frameNo : Nat} {slot : Nat} {frameStart : Nat}
    {slotStart : Nat} {ftab : FrameTab} {power : Power} {present : Bool} {poreset : Bool} {replaceN : Bool}
    {tokOut : Bool} {twinSel : Bool} {trans : Option DevTrans} {transDue : Bool} {autoWarm : Bool}
    {autoActive : Bool} {quads : Tab Quad} {inb : Tab (List BEntry)} {outb : Tab OutBr}
    {asmU : Tab (List OutSample)} {dlHold : List DlHeld} {admTod : Option Nat} {ulDisc : Nat} {dlGap : Nat}
    {pos : Tab Nat} {frozen : List Nat} {flush : List Nat} {marginUl : Option Int} {marginDl : Option Int}
    {lad : Ladder} {rx : Tab RxSt} {chain : Tab ChainSt} {mesh : MeshSt} {acq : AcqSt} {dir : DirSt}
    {tx : Tab TxSt} {fes : Tab Fes} {evHold : Option (List (Nat × Nat))} {pd : Tab PdSt} {lut : Tab W}
    {pdCap : Tab (Option PdCap)} {cal : CalSt} {tiles : Tab Tile} {res : List Host.Cell} {poison : Tab Bool}
    {poisonBanks : List Nat} {cap : Tab CapSet} {dma : Tab DmaCh} {upq : Tab UpQ} {ulTx : Tab UlTx}
    {dlRx : Tab DlRx} {sess : Tab SessSt} {ulShed : List Nat} {clk : ClkSt} {mon : Tab MonSt}
    {monTick : Option Nat} {sens : Tab SensSt} {hlt : HltSt} {twin : TwinSt} {img : ImgSt} {jtag : Jtag}
    {log : Tab (Option LogEntry)} {logSeq : Nat} {logMs : Nat} {logCnt : Nat} {evtPend : Bool} {out : List OutMsg}
    {free : Nat} {nvm : Nvm}
    (h : Canon regs res) :
    (Mach.mk
      regs stage tod frameNo slot frameStart slotStart ftab power present poreset replaceN tokOut twinSel trans
      transDue autoWarm autoActive quads inb outb asmU dlHold admTod ulDisc dlGap pos frozen flush marginUl
      marginDl lad rx chain mesh acq dir tx fes evHold pd lut pdCap cal tiles res poison poisonBanks cap dma upq
      ulTx dlRx sess ulShed clk mon monTick sens hlt twin img jtag log logSeq logMs logCnt evtPend out free nvm).canon := h

theorem canon_of {m : Mach} (h : m.canon) : Canon m.regs m.res := h

theorem canon_snd {α : Type} {p : α × Mach} {a : α} {b : Mach} (e : p = (a, b)) (h : p.2.canon) : b.canon := by
  rw [e] at h; exact h

theorem canon_mkp {α : Type} {a : α} {m : Mach} (h : m.canon) : (a, m).2.canon := h

theorem canon_ite {c : Prop} [Decidable c] {t e : Mach} (h1 : t.canon) (h2 : e.canon) : (if c then t else e).canon := by
  split
  · exact h1
  · exact h2

theorem canon_ite_snd {α : Type} {c : Prop} [Decidable c] {t e : α × Mach} (h1 : t.2.canon) (h2 : e.2.canon) :
    (if c then t else e).2.canon := by
  split
  · exact h1
  · exact h2

/-! ### The shared operations -/

theorem wr_canon (a : Nat) (v : W) (m : Mach) (h : m.canon) : (wr a v m).canon := ⟨wr_wf h.1 a v, h.2⟩

theorem setByte_canon (a : Nat) (b : Byte) (m : Mach) (h : m.canon) : (setByte a b m).canon :=
  ⟨h.1, memory_wf_setByte h.2 a b⟩

theorem each_canon {α : Type} (l : List α) (f : α → Mach → Mach) (hf : ∀ a m, Mach.canon m → (f a m).canon) (m : Mach)
    (h : m.canon) : (each l f m).canon := each_inv _ l f (fun a _ m h => hf a m h) m h

theorem whenB_canon (b : Bool) (f : Mach → Mach) (hf : ∀ m, Mach.canon m → (f m).canon) (m : Mach) (h : m.canon) :
    (whenB b f m).canon := by
  cases b
  · exact h
  · exact hf m h

theorem gate_canon (a : Nat) (f : Mach → Mach) (hf : ∀ m, Mach.canon m → (f m).canon) (m : Mach) (h : m.canon) :
    (gate a f m).canon := by
  unfold gate
  exact canon_ite (hf m h) h

theorem foldl_canon {α : Type} (l : List α) (f : Mach → α → Mach) (hf : ∀ m a, Mach.canon m → (f m a).canon) (m : Mach)
    (h : m.canon) : (l.foldl f m).canon := by
  induction l generalizing m with
  | nil => exact h
  | cons a r ih => exact ih _ (hf _ _ h)

theorem logPut_canon (e : LogEntry) (m : Mach) (h : m.canon) : (logPut e m).canon := by
  rcases logPut_cases e m with h1 | ⟨x, l, q, ms, c, z, h1⟩ | ⟨k, h1⟩ <;> rw [h1]
  · exact h
  · exact canon_mk (canon_of (wr_canon _ _ _ h))
  · exact wr_canon _ _ _ (wr_canon _ _ _ h)

end Sys2Proof.Machine
end

