-- ==== Sys2Proof/Laws/CanonOps.lean ====
section
/-! SUPPORT. The operations of Machine/Ops.lean keep the registers and the reservoir in canonical form. -/

namespace Sys2Proof.Machine

set_option maxRecDepth 8000

theorem fset_canon : ∀ x0 x1 x2, Mach.canon x2 → Mach.canon (fset x0 x1 x2) := by
  intro x0 x1 x2 h
  unfold fset
  apply wr_canon
  exact h

theorem fsetB_canon : ∀ x0 x1 x2, Mach.canon x2 → Mach.canon (fsetB x0 x1 x2) := by
  intro x0 x1 x2 h
  unfold fsetB
  apply fset_canon
  exact h

theorem logCure_canon : ∀ x0 x1, Mach.canon x1 → Mach.canon (logCure x0 x1) := by
  intro x0 x1 h
  unfold logCure
  dsimp -proj -iota -eta only
  refine canon_mk (canon_of ?_)
  exact h

theorem fcnt_canon : ∀ x0 x1 x2, Mach.canon x2 → Mach.canon (fcnt x0 x1 x2) := by
  intro x0 x1 x2 h
  unfold fcnt
  apply fset_canon
  exact h

theorem summaryRise_canon : ∀ x0 x1 x2, Mach.canon x2 → Mach.canon (summaryRise x0 x1 x2) := by
  intro x0 x1 x2 h
  unfold summaryRise
  refine canon_ite ?_ ?_
  · refine canon_mk (canon_of ?_)
    exact h
  · exact h

theorem setEvDie_canon : ∀ x0 x1 x2, Mach.canon x2 → Mach.canon (setEvDie x0 x1 x2) := by
  intro x0 x1 x2 h
  unfold setEvDie
  dsimp -proj -iota -eta only
  refine canon_ite ?_ ?_
  · exact h
  · split
    · apply logPut_canon
      apply fset_canon
      exact h
    · apply summaryRise_canon
      apply logPut_canon
      apply fset_canon
      exact h

theorem setEv_canon : ∀ x0 x1, Mach.canon x1 → Mach.canon (setEv x0 x1) := by
  intro x0 x1 h
  unfold setEv
  apply setEvDie_canon
  exact h

theorem setEvIf_canon : ∀ x0 x1 x2, Mach.canon x2 → Mach.canon (setEvIf x0 x1 x2) := by
  intro x0 x1 x2 h
  unfold setEvIf
  refine canon_ite ?_ ?_
  · apply setEv_canon
    exact h
  · exact h

theorem setSens_canon : ∀ x0 x1 x2, Mach.canon x2 → Mach.canon (setSens x0 x1 x2) := by
  intro x0 x1 x2 h
  unfold setSens
  refine canon_mk (canon_of ?_)
  exact h

theorem setQ_canon : ∀ x0 x1 x2, Mach.canon x2 → Mach.canon (setQ x0 x1 x2) := by
  intro x0 x1 x2 h
  unfold setQ
  refine canon_mk (canon_of ?_)
  exact h

theorem setFes_canon : ∀ x0 x1 x2, Mach.canon x2 → Mach.canon (setFes x0 x1 x2) := by
  intro x0 x1 x2 h
  unfold setFes
  refine canon_mk (canon_of ?_)
  exact h

theorem setUp_canon : ∀ x0 x1 x2, Mach.canon x2 → Mach.canon (setUp x0 x1 x2) := by
  intro x0 x1 x2 h
  unfold setUp
  refine canon_mk (canon_of ?_)
  exact h

theorem setDlRx_canon : ∀ x0 x1 x2, Mach.canon x2 → Mach.canon (setDlRx x0 x1 x2) := by
  intro x0 x1 x2 h
  unfold setDlRx
  refine canon_mk (canon_of ?_)
  exact h

theorem setSess_canon : ∀ x0 x1 x2, Mach.canon x2 → Mach.canon (setSess x0 x1 x2) := by
  intro x0 x1 x2 h
  unfold setSess
  refine canon_mk (canon_of ?_)
  exact h

theorem cnt_canon : ∀ x0 x1 x2 x3, Mach.canon x3 → Mach.canon (cnt x0 x1 x2 x3) := by
  intro x0 x1 x2 x3 h
  unfold cnt
  apply wr_canon
  exact h

theorem nativeIn_canon (k : Nat) (i : Instr) (f : Mach → Mach) (hf : ∀ m : Mach, m.canon → (f m).canon) (m : Mach) (h : m.canon) :
    (nativeIn k i f m).canon := by
  unfold nativeIn
  dsimp -proj -iota -eta only
  refine canon_ite h (canon_ite (canon_ite ?_ ?_) (hf m h))
  · exact setSess_canon _ _ _ h
  · exact cnt_canon _ _ _ _ h

theorem setStage_canon : ∀ x0 x1 x2, Mach.canon x2 → Mach.canon (setStage x0 x1 x2) := by
  intro x0 x1 x2 h
  unfold setStage
  refine canon_mk (canon_of ?_)
  exact h

theorem wantEvent_canon : ∀ x0, Mach.canon x0 → Mach.canon (wantEvent x0) := by
  intro x0 h
  unfold wantEvent
  refine canon_mk (canon_of ?_)
  exact h

theorem nextFree_canon : ∀ x0, Mach.canon x0 → Mach.canon (nextFree x0) := by
  intro x0 h
  unfold nextFree
  refine canon_mk (canon_of ?_)
  exact h

theorem setEvBit_canon : ∀ x0 x1 x2, Mach.canon x2 → Mach.canon (setEvBit x0 x1 x2) := by
  intro x0 x1 x2 h
  unfold setEvBit
  apply setEv_canon
  exact h

theorem plogPut_canon : ∀ x0 x1, Mach.canon x1 → Mach.canon (plogPut x0 x1) := by
  intro x0 x1 h
  unfold plogPut
  dsimp -proj -iota -eta only
  refine canon_ite ?_ ?_
  · apply setEv_canon
    exact h
  · refine canon_mk (canon_of ?_)
    exact h

theorem logCode_canon : ∀ x0 x1 x2 x3 x4 x5 x6, Mach.canon x6 → Mach.canon (logCode x0 x1 x2 x3 x4 x5 x6) := by
  intro x0 x1 x2 x3 x4 x5 x6 h
  unfold logCode
  dsimp -proj -iota -eta only
  apply plogPut_canon
  apply logPut_canon
  exact h

theorem setCap_canon : ∀ x0 x1 x2, Mach.canon x2 → Mach.canon (setCap x0 x1 x2) := by
  intro x0 x1 x2 h
  unfold setCap
  refine canon_mk (canon_of ?_)
  exact h

theorem setTx_canon : ∀ x0 x1 x2, Mach.canon x2 → Mach.canon (setTx x0 x1 x2) := by
  intro x0 x1 x2 h
  unfold setTx
  refine canon_mk (canon_of ?_)
  exact h

theorem setTile_canon : ∀ x0 x1 x2, Mach.canon x2 → Mach.canon (setTile x0 x1 x2) := by
  intro x0 x1 x2 h
  unfold setTile
  refine canon_mk (canon_of ?_)
  exact h

theorem setUlTx_canon : ∀ x0 x1 x2, Mach.canon x2 → Mach.canon (setUlTx x0 x1 x2) := by
  intro x0 x1 x2 h
  unfold setUlTx
  refine canon_mk (canon_of ?_)
  exact h

theorem setChain_canon : ∀ x0 x1 x2, Mach.canon x2 → Mach.canon (setChain x0 x1 x2) := by
  intro x0 x1 x2 h
  unfold setChain
  refine canon_mk (canon_of ?_)
  exact h

theorem send_canon : ∀ x0 x1, Mach.canon x1 → Mach.canon (send x0 x1) := by
  intro x0 x1 h
  unfold send
  refine canon_mk (canon_of ?_)
  exact h

theorem sendNat_canon : ∀ x0 x1 x2, Mach.canon x2 → Mach.canon (sendNat x0 x1 x2) := by
  intro x0 x1 x2 h
  unfold sendNat
  dsimp -proj -iota -eta only
  refine canon_ite ?_ ?_
  · apply setSess_canon
    apply send_canon
    exact h
  · exact h

theorem setMon_canon : ∀ x0 x1 x2, Mach.canon x2 → Mach.canon (setMon x0 x1 x2) := by
  intro x0 x1 x2 h
  unfold setMon
  refine canon_mk (canon_of ?_)
  exact h

theorem setDma_canon : ∀ x0 x1 x2, Mach.canon x2 → Mach.canon (setDma x0 x1 x2) := by
  intro x0 x1 x2 h
  unfold setDma
  refine canon_mk (canon_of ?_)
  exact h

theorem setPd_canon : ∀ x0 x1 x2, Mach.canon x2 → Mach.canon (setPd x0 x1 x2) := by
  intro x0 x1 x2 h
  unfold setPd
  refine canon_mk (canon_of ?_)
  exact h

theorem setIn_canon : ∀ x0 x1 x2, Mach.canon x2 → Mach.canon (setIn x0 x1 x2) := by
  intro x0 x1 x2 h
  unfold setIn
  refine canon_mk (canon_of ?_)
  exact h

theorem setOut_canon : ∀ x0 x1 x2, Mach.canon x2 → Mach.canon (setOut x0 x1 x2) := by
  intro x0 x1 x2 h
  unfold setOut
  refine canon_mk (canon_of ?_)
  exact h

theorem setRx_canon : ∀ x0 x1 x2, Mach.canon x2 → Mach.canon (setRx x0 x1 x2) := by
  intro x0 x1 x2 h
  unfold setRx
  refine canon_mk (canon_of ?_)
  exact h

end Sys2Proof.Machine
end

