-- ==== Sys2Proof/Laws/CanonResMem.lean ====
section
/-! SUPPORT. The operations of Machine/ResMem.lean keep the registers and the reservoir in canonical form. -/

namespace Sys2Proof.Machine

set_option maxRecDepth 8000

theorem setUse_canon : ∀ x0 x1 x2, Mach.canon x2 → Mach.canon (setUse x0 x1 x2) := by
  intro x0 x1 x2 h
  unfold setUse
  apply fset_canon
  exact h

theorem reportUe_canon : ∀ x0 x1, Mach.canon x1 → Mach.canon (reportUe x0 x1) := by
  intro x0 x1 h
  unfold reportUe
  apply setEv_canon
  apply wr_canon
  apply cnt_canon
  exact h

theorem setPoison_canon : ∀ x0 x1 x2, Mach.canon x2 → Mach.canon (setPoison x0 x1 x2) := by
  intro x0 x1 x2 h
  unfold setPoison
  refine canon_mk (canon_of ?_)
  exact h

theorem writeUnit_canon : ∀ x0 x1 x2 x3, Mach.canon x3 → Mach.canon (writeUnit x0 x1 x2 x3) := by
  intro x0 x1 x2 x3 h
  unfold writeUnit
  dsimp -proj -iota -eta only
  refine canon_ite ?_ ?_
  · apply setEv_canon
    exact h
  · apply each_canon
    · intro a1_0 m1 h1
      apply setByte_canon
      exact h1
    · apply setPoison_canon
      exact h

theorem resWrite_canon : ∀ x0 x1 x2, Mach.canon x2 → Mach.canon (resWrite x0 x1 x2) := by
  intro x0 x1 x2 h
  unfold resWrite
  apply each_canon
  · intro a1_0 m1 h1
    apply writeUnit_canon
    exact h1
  · exact h

theorem readReport_canon : ∀ x0 x1 x2, Mach.canon x2 → Mach.canon (readReport x0 x1 x2) := by
  intro x0 x1 x2 h
  unfold readReport
  apply each_canon
  · intro a1_0 m1 h1
    apply reportUe_canon
    exact h1
  · exact h

theorem reportCe_canon : ∀ x0, Mach.canon x0 → Mach.canon (reportCe x0) := by
  intro x0 h
  unfold reportCe
  apply setEv_canon
  apply cnt_canon
  exact h

end Sys2Proof.Machine
end

