-- ==== Sys2Proof/Laws/CanonTime.lean ====
section
/-! SUPPORT. The operations of Machine/Time.lean keep the registers and the reservoir in canonical form. -/

namespace Sys2Proof.Machine

set_option maxRecDepth 8000

theorem advanceTo_canon : ∀ x0 x1, Mach.canon x1 → Mach.canon (advanceTo x0 x1) := by
  intro x0 x1 h
  unfold advanceTo
  refine canon_ite ?_ ?_
  · refine canon_mk (canon_of ?_)
    exact h
  · exact h

end Sys2Proof.Machine
end

