-- ==== Sys2Proof/Laws/CanonHealthOps.lean ====
section
/-! SUPPORT. The operations of Machine/HealthOps.lean keep the registers and the reservoir in canonical form. -/

namespace Sys2Proof.Machine

set_option maxRecDepth 8000

theorem setRemap_canon : ∀ x0 x1, Mach.canon x1 → Mach.canon (setRemap x0 x1) := by
  intro x0 x1 h
  unfold setRemap
  dsimp -proj -iota -eta only
  refine canon_mk (canon_of ?_)
  exact h

theorem startHandover_canon : ∀ x0 x1, Mach.canon x1 → Mach.canon (startHandover x0 x1) := by
  intro x0 x1 h
  unfold startHandover
  dsimp -proj -iota -eta only
  apply send_canon
  refine canon_mk (canon_of ?_)
  exact h

theorem twinFault_canon : ∀ x0 x1, Mach.canon x1 → Mach.canon (twinFault x0 x1) := by
  intro x0 x1 h
  unfold twinFault
  dsimp -proj -iota -eta only
  refine canon_ite ?_ ?_
  · apply startHandover_canon
    exact h
  · exact h

theorem setDev_canon : ∀ x0 x1 x2, Mach.canon x2 → Mach.canon (setDev x0 x1 x2) := by
  intro x0 x1 x2 h
  unfold setDev
  apply fset_canon
  apply fset_canon
  apply fset_canon
  exact h

theorem degradeIfActive_canon : ∀ x0, Mach.canon x0 → Mach.canon (degradeIfActive x0) := by
  intro x0 h
  unfold degradeIfActive
  refine canon_ite ?_ ?_
  · apply setEv_canon
    apply setDev_canon
    exact h
  · exact h

theorem raiseReplace_canon : ∀ x0 x1, Mach.canon x1 → Mach.canon (raiseReplace x0 x1) := by
  intro x0 x1 h
  unfold raiseReplace
  dsimp -proj -iota -eta only
  apply degradeIfActive_canon
  apply wantEvent_canon
  apply logCode_canon
  apply setEv_canon
  apply summaryRise_canon
  refine canon_mk (canon_of ?_)
  apply fset_canon
  apply fset_canon
  apply fset_canon
  exact h

theorem failPath_canon : ∀ x0 x1 x2 x3, Mach.canon x3 → Mach.canon (failPath x0 x1 x2 x3) := by
  intro x0 x1 x2 x3 h
  unfold failPath
  dsimp -proj -iota -eta only
  refine canon_ite ?_ ?_
  · exact h
  · apply twinFault_canon
    apply raiseReplace_canon
    apply logCode_canon
    apply setEvDie_canon
    apply setRemap_canon
    exact h

theorem substDone_canon : ∀ x0 x1 x2 x3 x4 x5, Mach.canon x5 → Mach.canon (substDone x0 x1 x2 x3 x4 x5) := by
  intro x0 x1 x2 x3 x4 x5 h
  unfold substDone
  apply logCode_canon
  apply setRemap_canon
  exact h

theorem hardDone_canon : ∀ x0 x1 x2 x3 x4, Mach.canon x4 → Mach.canon (hardDone x0 x1 x2 x3 x4) := by
  intro x0 x1 x2 x3 x4 h
  unfold hardDone
  apply substDone_canon
  apply setEvDie_canon
  exact h

theorem wantTrick_canon : ∀ x0 x1, Mach.canon x1 → Mach.canon (wantTrick x0 x1) := by
  intro x0 x1 h
  unfold wantTrick
  dsimp -proj -iota -eta only
  refine canon_ite ?_ ?_
  · exact h
  · refine canon_mk (canon_of ?_)
    exact h

theorem pumpPlanned_canon : ∀ x0, Mach.canon x0 → Mach.canon (pumpPlanned x0) := by
  intro x0 h
  unfold pumpPlanned
  dsimp -proj -iota -eta only
  split
  · refine canon_ite ?_ ?_
    · exact h
    · apply fset_canon
      refine canon_mk (canon_of ?_)
      refine canon_ite ?_ ?_
      · apply wantTrick_canon
        exact h
      · refine canon_ite ?_ ?_
        · apply wantTrick_canon
          exact h
        · exact h
  · exact h

theorem logRetired_canon : ∀ x0 x1 x2 x3 x4, Mach.canon x4 → Mach.canon (logRetired x0 x1 x2 x3 x4) := by
  intro x0 x1 x2 x3 x4 h
  unfold logRetired
  apply logCode_canon
  exact h

theorem noSpare_canon : ∀ x0 x1 x2 x3 x4, Mach.canon x4 → Mach.canon (noSpare x0 x1 x2 x3 x4) := by
  intro x0 x1 x2 x3 x4 h
  unfold noSpare
  dsimp -proj -iota -eta only
  apply raiseReplace_canon
  apply logCode_canon
  apply setRemap_canon
  exact h

theorem mirror_canon : ∀ x0 x1 x2, Mach.canon x2 → Mach.canon (mirror x0 x1 x2) := by
  intro x0 x1 x2 h
  unfold mirror
  dsimp -proj -iota -eta only
  refine canon_ite ?_ ?_
  · apply send_canon
    refine canon_mk (canon_of ?_)
    exact h
  · exact h

theorem endPlanned_canon : ∀ x0, Mach.canon x0 → Mach.canon (endPlanned x0) := by
  intro x0 h
  unfold endPlanned
  dsimp -proj -iota -eta only
  apply pumpPlanned_canon
  apply fset_canon
  refine canon_mk (canon_of ?_)
  exact h

theorem refreshKind_canon : ∀ x0 x1, Mach.canon x1 → Mach.canon (refreshKind x0 x1) := by
  intro x0 x1 h
  unfold refreshKind
  dsimp -proj -iota -eta only
  apply fsetB_canon
  apply fsetB_canon
  refine canon_ite ?_ ?_
  · apply fset_canon
    apply fset_canon
    apply fset_canon
    exact h
  · exact h

theorem markWorn_canon : ∀ x0 x1 x2 x3 x4, Mach.canon x4 → Mach.canon (markWorn x0 x1 x2 x3 x4) := by
  intro x0 x1 x2 x3 x4 h
  unfold markWorn
  dsimp -proj -iota -eta only
  apply raiseReplace_canon
  apply logCode_canon
  apply setEvDie_canon
  apply refreshKind_canon
  apply setRemap_canon
  exact h

theorem dropPlanned_canon : ∀ x0 x1 x2, Mach.canon x2 → Mach.canon (dropPlanned x0 x1 x2) := by
  intro x0 x1 x2 h
  unfold dropPlanned
  dsimp -proj -iota -eta only
  refine canon_ite ?_ ?_
  · apply endPlanned_canon
    refine canon_mk (canon_of ?_)
    exact h
  · refine canon_mk (canon_of ?_)
    exact h

theorem useSpare_canon : ∀ x0 x1 x2, Mach.canon x2 → Mach.canon (useSpare x0 x1 x2) := by
  intro x0 x1 x2 h
  unfold useSpare
  dsimp -proj -iota -eta only
  refine canon_ite ?_ ?_
  · apply raiseReplace_canon
    apply refreshKind_canon
    apply setRemap_canon
    exact h
  · apply refreshKind_canon
    apply setRemap_canon
    exact h

theorem plannedOver_canon : ∀ x0 x1 x2 x3 x4, Mach.canon x4 → Mach.canon (plannedOver x0 x1 x2 x3 x4) := by
  intro x0 x1 x2 x3 x4 h
  unfold plannedOver
  apply substDone_canon
  apply setEvDie_canon
  exact h

theorem plannedDone_canon : ∀ x0 x1 x2 x3 x4, Mach.canon x4 → Mach.canon (plannedDone x0 x1 x2 x3 x4) := by
  intro x0 x1 x2 x3 x4 h
  unfold plannedDone
  apply plannedOver_canon
  apply endPlanned_canon
  exact h

theorem checkReserve_canon : ∀ x0 x1, Mach.canon x1 → Mach.canon (checkReserve x0 x1) := by
  intro x0 x1 h
  unfold checkReserve
  refine canon_ite ?_ ?_
  · apply raiseReplace_canon
    exact h
  · exact h

end Sys2Proof.Machine
end

