-- ==== Sys2Proof/Laws/CanonReservoir.lean ====
section
/-! SUPPORT. The operations of Machine/Reservoir.lean keep the registers and the reservoir in canonical form. -/

namespace Sys2Proof.Machine

set_option maxRecDepth 8000

theorem eccRead_canon : ∀ x0 x1 x2, Mach.canon x2 → Mach.canon (eccRead x0 x1 x2).2 := by
  intro x0 x1 x2 h
  unfold eccRead
  refine canon_ite_snd ?_ ?_
  · refine canon_mkp ?_
    apply reportUe_canon
    exact h
  · split
    · refine canon_mkp ?_
      exact h
    · refine canon_mkp ?_
      apply reportCe_canon
      exact h
    · refine canon_mkp ?_
      apply reportUe_canon
      apply setPoison_canon
      exact h

theorem refreshOverQuota_canon : ∀ x0, Mach.canon x0 → Mach.canon (refreshOverQuota x0) := by
  intro x0 h
  unfold refreshOverQuota
  apply fsetB_canon
  exact h

theorem quotaWrite_canon : ∀ x0 x1 x2, Mach.canon x2 → Mach.canon (quotaWrite x0 x1 x2) := by
  intro x0 x1 x2 h
  unfold quotaWrite
  dsimp -proj -iota -eta only
  refine canon_ite ?_ ?_
  · apply setEv_canon
    exact h
  · apply refreshOverQuota_canon
    apply fset_canon
    exact h

theorem doPartQuotaWrite_canon : ∀ x0 x1 x2, Mach.canon x2 → Mach.canon (doPartQuotaWrite x0 x1 x2) := by
  intro x0 x1 x2 h
  unfold doPartQuotaWrite
  apply gate_canon
  · intro m1 h1
    apply quotaWrite_canon
    exact h1
  · exact h

theorem gateRead_canon (a : Nat) (f : Mach → W × Mach) (hf : ∀ m : Mach, m.canon → (f m).2.canon) (m : Mach) (h : m.canon) :
    (gateRead a f m).2.canon := by
  unfold gateRead
  exact canon_ite_snd (hf m h) h

theorem poolTouched_canon : ∀ x0 x1, Mach.canon x1 → Mach.canon (poolTouched x0 x1) := by
  intro x0 x1 h
  unfold poolTouched
  apply mirror_canon
  apply setUse_canon
  exact h

theorem windowRead_canon : ∀ x0 x1 x2, Mach.canon x2 → Mach.canon (windowRead x0 x1 x2).2 := by
  intro x0 x1 x2 h
  unfold windowRead
  dsimp -proj -iota -eta only
  refine canon_ite_snd ?_ ?_
  · refine canon_mkp ?_
    apply setEv_canon
    exact h
  · split
    · refine canon_mkp ?_
      apply setEv_canon
      apply setEv_canon
      exact h
    · refine canon_mkp ?_
      apply setEv_canon
      exact h
    · refine canon_mkp ?_
      apply eccRead_canon
      exact h

theorem poolBytes_canon : ∀ x0 x1 x2, Mach.canon x2 → Mach.canon (poolBytes x0 x1 x2) := by
  intro x0 x1 x2 h
  unfold poolBytes
  dsimp -proj -iota -eta only
  refine canon_ite ?_ ?_
  · apply poolTouched_canon
    apply resWrite_canon
    exact h
  · apply setEv_canon
    exact h

theorem poisonBank_canon : ∀ x0 x1, Mach.canon x1 → Mach.canon (poisonBank x0 x1) := by
  intro x0 x1 h
  unfold poisonBank
  refine canon_mk (canon_of ?_)
  exact h

theorem refreshRes_canon : ∀ x0, Mach.canon x0 → Mach.canon (refreshRes x0) := by
  intro x0 h
  unfold refreshRes
  apply fset_canon
  apply fset_canon
  exact h

theorem bindBank_canon : ∀ x0 x1 x2, Mach.canon x2 → Mach.canon (bindBank x0 x1 x2) := by
  intro x0 x1 x2 h
  unfold bindBank
  apply setRemap_canon
  exact h

theorem doResBankRemap_canon : ∀ x0 x1, Mach.canon x1 → Mach.canon (doResBankRemap x0 x1) := by
  intro x0 x1 h
  unfold doResBankRemap
  dsimp -proj -iota -eta only
  split
  · refine canon_ite ?_ ?_
    · apply plannedDone_canon
      apply setEv_canon
      apply refreshRes_canon
      apply useSpare_canon
      apply bindBank_canon
      exact h
    · exact h
  · exact h

theorem doResRowRemap_canon : ∀ x0 x1 x2, Mach.canon x2 → Mach.canon (doResRowRemap x0 x1 x2) := by
  intro x0 x1 x2 h
  unfold doResRowRemap
  dsimp -proj -iota -eta only
  split
  · refine canon_ite ?_ ?_
    · apply plannedDone_canon
      apply setEv_canon
      apply refreshRes_canon
      apply useSpare_canon
      apply setRemap_canon
      exact h
    · exact h
  · exact h

theorem doResBankHardFail_canon : ∀ x0 x1, Mach.canon x1 → Mach.canon (doResBankHardFail x0 x1) := by
  intro x0 x1 h
  unfold doResBankHardFail
  dsimp -proj -iota -eta only
  split
  · apply hardDone_canon
    apply refreshRes_canon
    apply useSpare_canon
    apply bindBank_canon
    apply setEv_canon
    apply poisonBank_canon
    apply dropPlanned_canon
    exact h
  · apply twinFault_canon
    apply noSpare_canon
    apply setEv_canon
    apply poisonBank_canon
    apply dropPlanned_canon
    exact h

theorem windowWrite_canon : ∀ x0 x1 x2, Mach.canon x2 → Mach.canon (windowWrite x0 x1 x2) := by
  intro x0 x1 x2 h
  unfold windowWrite
  refine canon_ite ?_ ?_
  · apply setEv_canon
    exact h
  · split
    · apply setEv_canon
      apply setEv_canon
      exact h
    · apply poolBytes_canon
      exact h
    · apply resWrite_canon
      exact h
    · apply setEv_canon
      exact h

theorem doResWindowWrite_canon : ∀ x0 x1 x2, Mach.canon x2 → Mach.canon (doResWindowWrite x0 x1 x2) := by
  intro x0 x1 x2 h
  unfold doResWindowWrite
  apply gate_canon
  · intro m1 h1
    apply windowWrite_canon
    exact h1
  · exact h

theorem returnWord_canon (r : W × Mach) (h : r.2.canon) : (returnWord r).canon := send_canon _ _ h

end Sys2Proof.Machine
end

