-- ==== Sys2Proof/Laws/CanonTileOps.lean ====
section
/-! SUPPORT. The operations of Machine/TileOps.lean keep the registers and the reservoir in canonical form. -/

namespace Sys2Proof.Machine

set_option maxRecDepth 8000

theorem loseJob_canon : ∀ x0 x1 x2, Mach.canon x2 → Mach.canon (loseJob x0 x1 x2) := by
  intro x0 x1 x2 h
  unfold loseJob
  dsimp -proj -iota -eta only
  split
  · refine canon_mk (canon_of ?_)
    exact h
  · apply each_canon
    · intro a1_0 m1 h1
      split
      · apply fcnt_canon
        apply setUse_canon
        refine canon_mk (canon_of ?_)
        exact h1
      · exact h1
    · exact h
  · refine canon_mk (canon_of ?_)
    exact h
  · exact h

theorem commitTile_canon : ∀ x0 x1 x2, Mach.canon x2 → Mach.canon (commitTile x0 x1 x2) := by
  intro x0 x1 x2 h
  unfold commitTile
  dsimp -proj -iota -eta only
  refine canon_ite ?_ ?_
  · apply each_canon
    · intro a1_0 m1 h1
      apply logPut_canon
      exact h1
    · apply setTile_canon
      exact h
  · apply summaryRise_canon
    apply each_canon
    · intro a2_0 m2 h2
      apply logPut_canon
      exact h2
    · apply setTile_canon
      exact h

theorem reloadTile_canon : ∀ x0 x1, Mach.canon x1 → Mach.canon (reloadTile x0 x1) := by
  intro x0 x1 h
  unfold reloadTile
  dsimp -proj -iota -eta only
  split
  · apply commitTile_canon
    exact h
  · apply commitTile_canon
    exact h

theorem vendorReload_canon : ∀ x0 x1, Mach.canon x1 → Mach.canon (vendorReload x0 x1) := by
  intro x0 x1 h
  unfold vendorReload
  refine canon_ite ?_ ?_
  · exact h
  · apply reloadTile_canon
    apply loseJob_canon
    exact h

theorem tileEv_canon : ∀ x0 x1 x2, Mach.canon x2 → Mach.canon (tileEv x0 x1 x2) := by
  intro x0 x1 x2 h
  unfold tileEv
  apply commitTile_canon
  exact h

theorem runTile_canon : ∀ x0 x1 x2 x3 x4, Mach.canon x4 → Mach.canon (runTile x0 x1 x2 x3 x4) := by
  intro x0 x1 x2 x3 x4 h
  unfold runTile
  dsimp -proj -iota -eta only
  refine canon_ite ?_ ?_
  · exact h
  · refine canon_ite ?_ ?_
    · refine canon_ite ?_ ?_
      · exact h
      · apply vendorReload_canon
        apply commitTile_canon
        exact h
    · split
      · apply vendorReload_canon
        apply commitTile_canon
        exact h
      · apply commitTile_canon
        exact h

end Sys2Proof.Machine
end

