-- ==== Sys2Proof/Laws/CanonCapture.lean ====
section
/-! SUPPORT. The operations of Machine/Capture.lean keep the registers and the reservoir in canonical form. -/

namespace Sys2Proof.Machine

set_option maxRecDepth 8000

theorem setCapState_canon : ∀ x0 x1 x2, Mach.canon x2 → Mach.canon (setCapState x0 x1 x2) := by
  intro x0 x1 x2 h
  unfold setCapState
  apply fset_canon
  exact h

theorem clearCap_canon : ∀ x0 x1, Mach.canon x1 → Mach.canon (clearCap x0 x1) := by
  intro x0 x1 h
  unfold clearCap
  apply setCap_canon
  apply wr_canon
  apply wr_canon
  apply wr_canon
  apply wr_canon
  exact h

theorem capArm_canon : ∀ x0 x1, Mach.canon x1 → Mach.canon (capArm x0 x1) := by
  intro x0 x1 h
  unfold capArm
  dsimp -proj -iota -eta only
  split
  · apply setEv_canon
    exact h
  · apply setCapState_canon
    apply clearCap_canon
    refine canon_ite ?_ ?_
    · apply setUse_canon
      exact h
    · exact h

theorem capStop_canon : ∀ x0 x1, Mach.canon x1 → Mach.canon (capStop x0 x1) := by
  intro x0 x1 h
  unfold capStop
  dsimp -proj -iota -eta only
  refine canon_ite ?_ ?_
  · apply setCap_canon
    exact h
  · exact h

theorem freeCap_canon : ∀ x0 x1, Mach.canon x1 → Mach.canon (freeCap x0 x1) := by
  intro x0 x1 h
  unfold freeCap
  dsimp -proj -iota -eta only
  apply fset_canon
  apply setCapState_canon
  apply setCap_canon
  apply setUse_canon
  exact h

theorem capRelease_canon : ∀ x0 x1, Mach.canon x1 → Mach.canon (capRelease x0 x1) := by
  intro x0 x1 h
  unfold capRelease
  dsimp -proj -iota -eta only
  split
  · exact h
  · apply setCap_canon
    exact h
  · apply freeCap_canon
    exact h

theorem capCmd_canon : ∀ x0 x1 x2, Mach.canon x2 → Mach.canon (capCmd x0 x1 x2) := by
  intro x0 x1 x2 h
  unfold capCmd
  refine canon_ite ?_ ?_
  · apply setEv_canon
    exact h
  · split
    · exact h
    · apply capArm_canon
      exact h
    · apply capStop_canon
      exact h
    · apply capRelease_canon
      exact h

theorem capPush_canon : ∀ x0 x1, Mach.canon x1 → Mach.canon (capPush x0 x1) := by
  intro x0 x1 h
  unfold capPush
  dsimp -proj -iota -eta only
  refine canon_ite ?_ ?_
  · exact h
  · apply fcnt_canon
    apply wr_canon
    apply setCap_canon
    exact h

theorem capFeed_canon : ∀ x0 x1 x2 x3 x4, Mach.canon x4 → Mach.canon (capFeed x0 x1 x2 x3 x4) := by
  intro x0 x1 x2 x3 x4 h
  unfold capFeed
  dsimp -proj -iota -eta only
  apply each_canon
  · intro a1_0 m1 h1
    refine canon_ite ?_ ?_
    · apply setCap_canon
      exact h1
    · exact h1
  · exact h

theorem couplerChanged_canon : ∀ x0 x1, Mach.canon x1 → Mach.canon (couplerChanged x0 x1) := by
  intro x0 x1 h
  unfold couplerChanged
  apply each_canon
  · intro a1_0 m1 h1
    refine canon_ite ?_ ?_
    · apply fset_canon
      exact h1
    · exact h1
  · exact h

theorem capCfgWrite_canon : ∀ x0 x1 x2 x3, Mach.canon x3 → Mach.canon (capCfgWrite x0 x1 x2 x3) := by
  intro x0 x1 x2 x3 h
  unfold capCfgWrite
  dsimp -proj -iota -eta only
  refine canon_ite ?_ ?_
  · apply setEv_canon
    exact h
  · split
    · apply wr_canon
      exact h
    · apply wr_canon
      exact h

theorem capLenNow_canon : ∀ x0 x1 x2, Mach.canon x2 → Mach.canon (capLenNow x0 x1 x2) := by
  intro x0 x1 x2 h
  unfold capLenNow
  apply wr_canon
  exact h

theorem capWrap_canon : ∀ x0 x1, Mach.canon x1 → Mach.canon (capWrap x0 x1) := by
  intro x0 x1 h
  unfold capWrap
  dsimp -proj -iota -eta only
  split
  · apply wr_canon
    apply wr_canon
    exact h
  · refine canon_ite ?_ ?_
    · apply setEv_canon
      apply wr_canon
      apply setCap_canon
      refine canon_ite ?_ ?_
      · apply setUse_canon
        apply fset_canon
        apply wr_canon
        apply wr_canon
        apply wr_canon
        exact h
      · apply fset_canon
        apply wr_canon
        apply wr_canon
        apply wr_canon
        exact h
    · apply setCap_canon
      refine canon_ite ?_ ?_
      · apply setUse_canon
        apply fset_canon
        apply wr_canon
        apply wr_canon
        apply wr_canon
        exact h
      · apply fset_canon
        apply wr_canon
        apply wr_canon
        apply wr_canon
        exact h

theorem capStore_canon (c : Nat) (l : List Sample) (m : Mach) (h : m.canon) : (capStore c l m).canon := by
  induction l generalizing m with
  | nil => exact h
  | cons b l ih =>
    unfold capStore
    dsimp -proj -iota -eta only
    have h1 : ∀ (a : Nat) (v : W) (x : Nat → CapSet) (w : Nat),
        (wr a v (setCap c (x w) (resWrite (capBase c m + w) (leBytes 8 (sampleWord b)) m))).canon := fun a v x w =>
      wr_canon _ _ _ (setCap_canon _ _ _ (resWrite_canon _ _ _ h))
    exact ih _ (canon_ite (capWrap_canon _ _ (h1 _ _ (fun w => _) _)) (h1 _ _ (fun w => _) _))

theorem capWriteRec_canon : ∀ x0 x1 x2 x3, Mach.canon x3 → Mach.canon (capWriteRec x0 x1 x2 x3) := by
  intro x0 x1 x2 x3 h
  unfold capWriteRec
  dsimp -proj -iota -eta only
  apply capPush_canon
  apply capStore_canon
  apply setCap_canon
  apply whenB_canon
  · intro m1 h1
    apply fset_canon
    exact h1
  · apply whenB_canon
    · intro m2 h2
      apply fset_canon
      exact h2
    · refine canon_ite ?_ ?_
      · apply wr_canon
        apply wr_canon
        exact h
      · exact h

theorem capStopDone_canon : ∀ x0 x1, Mach.canon x1 → Mach.canon (capStopDone x0 x1) := by
  intro x0 x1 h
  unfold capStopDone
  dsimp -proj -iota -eta only
  refine canon_ite ?_ ?_
  · exact h
  · refine canon_ite ?_ ?_
    · apply freeCap_canon
      exact h
    · apply fset_canon
      apply setCapState_canon
      apply setUse_canon
      apply setCap_canon
      exact h

theorem capSnapshotDone_canon : ∀ x0 x1, Mach.canon x1 → Mach.canon (capSnapshotDone x0 x1) := by
  intro x0 x1 h
  unfold capSnapshotDone
  refine canon_ite ?_ ?_
  · apply setEv_canon
    apply setCapState_canon
    exact h
  · exact h

theorem capTrigger_canon : ∀ x0 x1, Mach.canon x1 → Mach.canon (capTrigger x0 x1) := by
  intro x0 x1 h
  unfold capTrigger
  dsimp -proj -iota -eta only
  refine canon_ite ?_ ?_
  · refine canon_ite ?_ ?_
    · apply setCapState_canon
      apply setCap_canon
      exact h
    · apply wr_canon
      apply wr_canon
      apply setCapState_canon
      apply setCap_canon
      exact h
  · exact h

theorem capRptrWrite_canon : ∀ x0 x1 x2, Mach.canon x2 → Mach.canon (capRptrWrite x0 x1 x2) := by
  intro x0 x1 x2 h
  unfold capRptrWrite
  dsimp -proj -iota -eta only
  apply setCap_canon
  apply wr_canon
  exact h

theorem takeRec_canon : ∀ x0 x1 x2, Mach.canon x2 → Mach.canon (takeRec x0 x1 x2) := by
  intro x0 x1 x2 h
  unfold takeRec
  dsimp -proj -iota -eta only
  apply setCap_canon
  exact h

theorem capRecord_canon (c : Nat) (m : Mach) (h : m.canon) : (capRecord c m).canon := by
  unfold capRecord
  refine canon_ite h ?_
  split
  · exact h
  · refine canon_ite ?_ ?_
    · exact fcnt_canon _ _ _ (takeRec_canon _ _ _ h)
    · exact capWriteRec_canon _ _ _ _ (takeRec_canon _ _ _ h)

theorem capLenWrite_canon : ∀ x0 x1 x2, Mach.canon x2 → Mach.canon (capLenWrite x0 x1 x2) := by
  intro x0 x1 x2 h
  unfold capLenWrite
  dsimp -proj -iota -eta only
  refine canon_ite ?_ ?_
  · apply setEv_canon
    exact h
  · refine canon_ite ?_ ?_
    · apply capLenNow_canon
      exact h
    · refine canon_ite ?_ ?_
      · apply setEv_canon
        exact h
      · split
        · apply setEv_canon
          exact h
        · refine canon_ite ?_ ?_
          · apply capLenNow_canon
            apply setUse_canon
            exact h
          · apply fset_canon
            apply setCap_canon
            apply setUse_canon
            exact h

end Sys2Proof.Machine
end

