-- ==== Sys2Proof/Laws/CanonDma.lean ====
section
/-! SUPPORT. The operations of Machine/Dma.lean keep the registers and the reservoir in canonical form. -/

namespace Sys2Proof.Machine

set_option maxRecDepth 8000

theorem writeWb_canon : ∀ x0 x1 x2, Mach.canon x2 → Mach.canon (writeWb x0 x1 x2) := by
  intro x0 x1 x2 h
  unfold writeWb
  dsimp -proj -iota -eta only
  refine canon_ite ?_ ?_
  · apply resWrite_canon
    exact h
  · exact h

theorem refreshDma_canon : ∀ x0, Mach.canon x0 → Mach.canon (refreshDma x0) := by
  intro x0 h
  unfold refreshDma
  apply fset_canon
  exact h

theorem setDmaState_canon : ∀ x0 x1 x2, Mach.canon x2 → Mach.canon (setDmaState x0 x1 x2) := by
  intro x0 x1 x2 h
  unfold setDmaState
  apply refreshDma_canon
  apply fset_canon
  exact h

theorem dmaComplete_canon : ∀ x0 x1 x2, Mach.canon x2 → Mach.canon (dmaComplete x0 x1 x2) := by
  intro x0 x1 x2 h
  unfold dmaComplete
  dsimp -proj -iota -eta only
  refine canon_ite ?_ ?_
  · apply setDmaState_canon
    apply fset_canon
    apply setDma_canon
    refine canon_ite ?_ ?_
    · apply wr_canon
      refine canon_ite ?_ ?_
      · apply setEvBit_canon
        apply writeWb_canon
        exact h
      · apply writeWb_canon
        exact h
    · apply wr_canon
      apply wr_canon
      refine canon_ite ?_ ?_
      · apply setEvBit_canon
        apply writeWb_canon
        exact h
      · apply writeWb_canon
        exact h
  · apply setDma_canon
    apply setDmaState_canon
    refine canon_ite ?_ ?_
    · apply wr_canon
      refine canon_ite ?_ ?_
      · apply setEvBit_canon
        apply writeWb_canon
        exact h
      · apply writeWb_canon
        exact h
    · apply wr_canon
      apply wr_canon
      refine canon_ite ?_ ?_
      · apply setEvBit_canon
        apply writeWb_canon
        exact h
      · apply writeWb_canon
        exact h

theorem dmaDescComplete_canon : ∀ x0 x1, Mach.canon x1 → Mach.canon (dmaDescComplete x0 x1) := by
  intro x0 x1 h
  unfold dmaDescComplete
  dsimp -proj -iota -eta only
  split
  · exact h
  · refine canon_ite ?_ ?_
    · apply dmaComplete_canon
      exact h
    · exact h

theorem setDmaPos_canon : ∀ x0 x1 x2, Mach.canon x2 → Mach.canon (setDmaPos x0 x1 x2) := by
  intro x0 x1 x2 h
  unfold setDmaPos
  apply wr_canon
  exact h

theorem dmaHalt_canon : ∀ x0 x1 x2, Mach.canon x2 → Mach.canon (dmaHalt x0 x1 x2) := by
  intro x0 x1 x2 h
  unfold dmaHalt
  dsimp -proj -iota -eta only
  refine canon_ite ?_ ?_
  · apply setDmaState_canon
    apply fset_canon
    apply setDma_canon
    exact h
  · apply setEvBit_canon
    apply writeWb_canon
    apply setDmaState_canon
    apply fset_canon
    apply setDma_canon
    exact h

theorem dmaPdHalt_canon : ∀ x0 x1 x2, Mach.canon x2 → Mach.canon (dmaPdHalt x0 x1 x2) := by
  intro x0 x1 x2 h
  unfold dmaPdHalt
  apply dmaHalt_canon
  apply each_canon
  · intro a1_0 m1 h1
    apply fset_canon
    exact h1
  · exact h

theorem refreshReq_canon : ∀ x0 x1, Mach.canon x1 → Mach.canon (refreshReq x0 x1) := by
  intro x0 x1 h
  unfold refreshReq
  split
  · exact h
  · refine canon_ite ?_ ?_
    · apply setDmaState_canon
      exact h
    · exact h

theorem dmaFetch_canon : ∀ x0 x1, Mach.canon x1 → Mach.canon (dmaFetch x0 x1) := by
  intro x0 x1 h
  unfold dmaFetch
  dsimp -proj -iota -eta only
  refine canon_ite ?_ ?_
  · exact h
  · refine canon_ite ?_ ?_
    · apply dmaHalt_canon
      apply setDmaPos_canon
      exact h
    · refine canon_ite ?_ ?_
      · apply dmaHalt_canon
        apply readReport_canon
        apply setDmaPos_canon
        exact h
      · refine canon_ite ?_ ?_
        · apply dmaHalt_canon
          apply setDma_canon
          apply setDmaPos_canon
          exact h
        · refine canon_ite ?_ ?_
          · apply dmaPdHalt_canon
            apply setDma_canon
            apply setDmaPos_canon
            exact h
          · apply refreshReq_canon
            apply setDma_canon
            apply setDmaPos_canon
            exact h

theorem dmaStop_canon : ∀ x0 x1, Mach.canon x1 → Mach.canon (dmaStop x0 x1) := by
  intro x0 x1 h
  unfold dmaStop
  dsimp -proj -iota -eta only
  refine canon_ite ?_ ?_
  · exact h
  · refine canon_ite ?_ ?_
    · apply setDmaState_canon
      apply fset_canon
      apply setDma_canon
      exact h
    · apply setDmaState_canon
      apply setDma_canon
      exact h

theorem dmaAbort_canon : ∀ x0 x1, Mach.canon x1 → Mach.canon (dmaAbort x0 x1) := by
  intro x0 x1 h
  unfold dmaAbort
  dsimp -proj -iota -eta only
  refine canon_ite ?_ ?_
  · exact h
  · apply setDma_canon
    exact h

theorem dmaRefuse_canon : ∀ x0, Mach.canon x0 → Mach.canon (dmaRefuse x0) := by
  intro x0 h
  unfold dmaRefuse
  apply setEv_canon
  exact h

theorem dmaChCfgWrite_canon : ∀ x0 x1 x2 x3, Mach.canon x3 → Mach.canon (dmaChCfgWrite x0 x1 x2 x3) := by
  intro x0 x1 x2 x3 h
  unfold dmaChCfgWrite
  refine canon_ite ?_ ?_
  · refine canon_ite ?_ ?_
    · apply wr_canon
      exact h
    · apply wr_canon
      exact h
  · apply dmaRefuse_canon
    exact h

theorem dmaStart_canon : ∀ x0 x1, Mach.canon x1 → Mach.canon (dmaStart x0 x1) := by
  intro x0 x1 h
  unfold dmaStart
  dsimp -proj -iota -eta only
  refine canon_ite ?_ ?_
  · apply setDmaState_canon
    apply fset_canon
    apply fset_canon
    apply setDma_canon
    apply wr_canon
    apply setDmaPos_canon
    apply wr_canon
    exact h
  · apply dmaRefuse_canon
    exact h

theorem dmaPdAbort_canon : ∀ x0 x1, Mach.canon x1 → Mach.canon (dmaPdAbort x0 x1) := by
  intro x0 x1 h
  unfold dmaPdAbort
  apply each_canon
  · intro a1_0 m1 h1
    split
    · refine canon_ite ?_ ?_
      · apply dmaPdHalt_canon
        exact h1
      · exact h1
    · exact h1
  · exact h

theorem dmaResume_canon : ∀ x0 x1, Mach.canon x1 → Mach.canon (dmaResume x0 x1) := by
  intro x0 x1 h
  unfold dmaResume
  dsimp -proj -iota -eta only
  refine canon_ite ?_ ?_
  · apply setDmaState_canon
    apply fset_canon
    apply fset_canon
    exact h
  · apply dmaRefuse_canon
    exact h

theorem dmaCmd_canon : ∀ x0 x1 x2, Mach.canon x2 → Mach.canon (dmaCmd x0 x1 x2) := by
  intro x0 x1 x2 h
  unfold dmaCmd
  refine canon_ite ?_ ?_
  · apply dmaRefuse_canon
    exact h
  · split
    · exact h
    · apply dmaStart_canon
      exact h
    · apply dmaStop_canon
      exact h
    · apply dmaAbort_canon
      exact h
    · apply dmaResume_canon
      exact h
    · apply dmaRefuse_canon
      exact h

end Sys2Proof.Machine
end

