-- ==== Sys2Proof/Laws/CanonDir.lean ====
section
/-! SUPPORT. The operations of Machine/Dir.lean keep the registers and the reservoir in canonical form. -/

namespace Sys2Proof.Machine

set_option maxRecDepth 8000

theorem cureLine_canon : ∀ x0 x1, Mach.canon x1 → Mach.canon (cureLine x0 x1) := by
  intro x0 x1 h
  unfold cureLine
  refine canon_ite ?_ ?_
  · apply each_canon
    · intro a1_0 m1 h1
      apply setPoison_canon
      exact h1
    · exact h
  · exact h

theorem refreshDir_canon : ∀ x0, Mach.canon x0 → Mach.canon (refreshDir x0) := by
  intro x0 h
  unfold refreshDir
  apply refreshOverQuota_canon
  apply setUse_canon
  apply fset_canon
  exact h

theorem setPlace_canon : ∀ x0 x1 x2, Mach.canon x2 → Mach.canon (setPlace x0 x1 x2) := by
  intro x0 x1 x2 h
  unfold setPlace
  dsimp -proj -iota -eta only
  apply refreshDir_canon
  refine canon_mk (canon_of ?_)
  apply cureLine_canon
  exact h

theorem showSync_canon : ∀ x0, Mach.canon x0 → Mach.canon (showSync x0) := by
  intro x0 h
  unfold showSync
  dsimp -proj -iota -eta only
  apply fsetB_canon
  apply fset_canon
  exact h

theorem ackNat_canon : ∀ x0 x1 x2 x3, Mach.canon x3 → Mach.canon (ackNat x0 x1 x2 x3) := by
  intro x0 x1 x2 x3 h
  unfold ackNat
  dsimp -proj -iota -eta only
  split
  · refine canon_ite ?_ ?_
    · refine canon_mk (canon_of ?_)
      exact h
    · apply sendNat_canon
      exact h
  · apply sendNat_canon
    exact h

theorem bindAnswer_canon : ∀ x0 x1 x2 x3 x4, Mach.canon x4 → Mach.canon (bindAnswer x0 x1 x2 x3 x4) := by
  intro x0 x1 x2 x3 x4 h
  unfold bindAnswer
  refine canon_ite ?_ ?_
  · apply ackNat_canon
    exact h
  · apply ackNat_canon
    exact h

theorem changePlace_canon : ∀ x0 x1 x2, Mach.canon x2 → Mach.canon (changePlace x0 x1 x2) := by
  intro x0 x1 x2 h
  unfold changePlace
  dsimp -proj -iota -eta only
  refine canon_ite ?_ ?_
  · apply send_canon
    apply wr_canon
    apply setPlace_canon
    exact h
  · apply wr_canon
    apply setPlace_canon
    exact h

theorem dirEmpty_canon : ∀ x0, Mach.canon x0 → Mach.canon (dirEmpty x0) := by
  intro x0 h
  unfold dirEmpty
  apply each_canon
  · intro a1_0 m1 h1
    apply changePlace_canon
    exact h1
  · exact h

theorem setInSync_canon : ∀ x0 x1 x2, Mach.canon x2 → Mach.canon (setInSync x0 x1 x2) := by
  intro x0 x1 x2 h
  unfold setInSync
  dsimp -proj -iota -eta only
  apply showSync_canon
  refine canon_mk (canon_of ?_)
  exact h

theorem restoreStart_canon : ∀ x0, Mach.canon x0 → Mach.canon (restoreStart x0) := by
  intro x0 h
  unfold restoreStart
  dsimp -proj -iota -eta only
  apply fset_canon
  apply fset_canon
  refine canon_mk (canon_of ?_)
  apply dirEmpty_canon
  refine canon_ite ?_ ?_
  · apply setInSync_canon
    exact h
  · exact h

theorem dirRestore_canon : ∀ x0, Mach.canon x0 → Mach.canon (dirRestore x0) := by
  intro x0 h
  unfold dirRestore
  dsimp -proj -iota -eta only
  refine canon_ite ?_ ?_
  · refine canon_ite ?_ ?_
    · refine canon_mk (canon_of ?_)
      exact h
    · apply restoreStart_canon
      exact h
  · apply setEv_canon
    exact h

theorem refreshSnap_canon : ∀ x0, Mach.canon x0 → Mach.canon (refreshSnap x0) := by
  intro x0 h
  unfold refreshSnap
  dsimp -proj -iota -eta only
  apply wr_canon
  apply wr_canon
  apply fset_canon
  apply fsetB_canon
  apply fsetB_canon
  exact h

theorem setSnap_canon : ∀ x0 x1 x2, Mach.canon x2 → Mach.canon (setSnap x0 x1 x2) := by
  intro x0 x1 x2 h
  unfold setSnap
  dsimp -proj -iota -eta only
  refine canon_mk (canon_of ?_)
  exact h

theorem snapStart_canon : ∀ x0, Mach.canon x0 → Mach.canon (snapStart x0) := by
  intro x0 h
  unfold snapStart
  dsimp -proj -iota -eta only
  refine canon_ite ?_ ?_
  · refine canon_mk (canon_of ?_)
    exact h
  · apply refreshSnap_canon
    apply fset_canon
    apply setSnap_canon
    refine canon_mk (canon_of ?_)
    exact h

theorem dirSnapshot_canon : ∀ x0, Mach.canon x0 → Mach.canon (dirSnapshot x0) := by
  intro x0 h
  unfold dirSnapshot
  refine canon_ite ?_ ?_
  · apply snapStart_canon
    exact h
  · apply setEv_canon
    exact h

theorem dirStream_canon : ∀ x0, Mach.canon x0 → Mach.canon (dirStream x0) := by
  intro x0 h
  unfold dirStream
  dsimp -proj -iota -eta only
  apply each_canon
  · intro a1_0 m1 h1
    apply send_canon
    exact h1
  · apply send_canon
    apply setInSync_canon
    refine canon_mk (canon_of ?_)
    exact h

theorem copyIn_canon : ∀ x0, Mach.canon x0 → Mach.canon (copyIn x0) := by
  intro x0 h
  unfold copyIn
  dsimp -proj -iota -eta only
  apply fset_canon
  apply setInSync_canon
  apply refreshDir_canon
  refine canon_mk (canon_of ?_)
  exact h

theorem dirAnswer_canon : ∀ x0 x1 x2 x3 x4, Mach.canon x4 → Mach.canon (dirAnswer x0 x1 x2 x3 x4) := by
  intro x0 x1 x2 x3 x4 h
  unfold dirAnswer
  apply ackNat_canon
  exact h

theorem dirFull_canon : ∀ x0, Mach.canon x0 → Mach.canon (dirFull x0) := by
  intro x0 h
  unfold dirFull
  apply setEv_canon
  apply setEvIf_canon
  exact h

theorem purgeLine_canon : ∀ x0 x1, Mach.canon x1 → Mach.canon (purgeLine x0 x1) := by
  intro x0 x1 h
  unfold purgeLine
  refine canon_ite ?_ ?_
  · refine canon_ite ?_ ?_
    · apply changePlace_canon
      exact h
    · apply setPlace_canon
      exact h
  · exact h

theorem purgeId_canon : ∀ x0 x1, Mach.canon x1 → Mach.canon (purgeId x0 x1) := by
  intro x0 x1 h
  unfold purgeId
  dsimp -proj -iota -eta only
  apply each_canon
  · intro a1_0 m1 h1
    apply purgeLine_canon
    exact h1
  · exact h

theorem moveChain_canon (l : List Nat) (m : Mach) (h : m.canon) : (moveChain l m).canon := by
  fun_induction moveChain l m with
  | case1 m t k r ih => exact ih (changePlace_canon _ _ _ h)
  | case2 => exact h

theorem makePlace_canon {id : BitVec 48} {m : Mach} {r : Nat × Mach} (e : makePlace id m = some r) (h : m.canon) : r.2.canon := by
  unfold makePlace at e
  dsimp -proj -iota -eta only at e
  split at e
  · cases e; exact h
  · split at e
    · cases e; exact moveChain_canon _ _ h
    · split at e
      · cases e; exact setEv_canon _ _ (cnt_canon _ _ _ _ (changePlace_canon _ _ _ h))
      · cases e

theorem dirInsert_canon {d : DirEntry} {m b : Mach} (e : dirInsert d m = some b) (h : m.canon) : b.canon := by
  unfold dirInsert at e
  split at e
  · cases e
  · split at e
    · next hp => cases e; exact changePlace_canon _ _ _ (makePlace_canon hp h)
    · cases e

theorem dirBind_canon : ∀ x0 x1 x2 x3 x4, Mach.canon x4 → Mach.canon (dirBind x0 x1 x2 x3 x4) := by
  intro x0 x1 x2 x3 x4 h
  unfold dirBind
  dsimp -proj -iota -eta only
  refine canon_ite ?_ ?_
  · apply bindAnswer_canon
    exact h
  · refine canon_ite ?_ ?_
    · apply bindAnswer_canon
      apply dirFull_canon
      exact h
    · split
      · apply bindAnswer_canon
        apply setEv_canon
        exact h
      · split
        · split
          · refine canon_ite ?_ ?_
            · apply bindAnswer_canon
              apply changePlace_canon
              apply purgeId_canon
              exact h
            · apply bindAnswer_canon
              apply changePlace_canon
              apply purgeId_canon
              exact h
          · apply purgeId_canon
            exact h
        · split
          · apply bindAnswer_canon
            refine dirInsert_canon (by assumption) ?_
            apply purgeId_canon
            exact h
          · apply bindAnswer_canon
            apply dirFull_canon
            apply purgeId_canon
            exact h

theorem dirGuard_canon (k : Nat) (a b : Bool) (f : Mach → Mach) (hf : ∀ m : Mach, m.canon → (f m).canon) (m : Mach) (h : m.canon) :
    (dirGuard k a b f m).canon := by
  unfold dirGuard
  exact canon_ite (dirAnswer_canon _ _ _ _ _ (setEv_canon _ _ h))
    (canon_ite (dirAnswer_canon _ _ _ _ _ h) (canon_ite (dirAnswer_canon _ _ _ _ _ h) (hf m h)))

theorem dirOnEntry_canon (k : Nat) (id : BitVec 48) (f : Nat → DirEntry → Mach → Mach)
    (hf : ∀ (k : Nat) (e : DirEntry) (m : Mach), m.canon → (f k e m).canon) (m : Mach) (h : m.canon) :
    (dirOnEntry k id f m).canon := by
  unfold dirOnEntry
  dsimp -proj -iota -eta only
  have h1 := purgeId_canon id m h
  split
  · exact dirAnswer_canon _ _ _ _ _ h1
  · split
    · exact hf _ _ _ h1
    · exact h1

theorem dirAlter_canon : ∀ x0 x1 x2 x3 x4, Mach.canon x4 → Mach.canon (dirAlter x0 x1 x2 x3 x4) := by
  intro x0 x1 x2 x3 x4 h
  unfold dirAlter
  refine canon_ite ?_ ?_
  · apply dirAnswer_canon
    exact h
  · apply dirAnswer_canon
    apply changePlace_canon
    exact h

theorem dirWrite_canon : ∀ x0 x1 x2 x3 x4, Mach.canon x4 → Mach.canon (dirWrite x0 x1 x2 x3 x4) := by
  intro x0 x1 x2 x3 x4 h
  unfold dirWrite
  dsimp -proj -iota -eta only
  split
  · apply dirAlter_canon
    apply purgeId_canon
    exact h
  · split
    · apply dirAnswer_canon
      refine dirInsert_canon (by assumption) ?_
      apply purgeId_canon
      exact h
    · apply dirAnswer_canon
      apply dirFull_canon
      apply purgeId_canon
      exact h

theorem purgeList_canon : ∀ x0 x1 x2, Mach.canon x2 → Mach.canon (purgeList x0 x1 x2) := by
  intro x0 x1 x2 h
  unfold purgeList
  apply each_canon
  · intro a1_0 m1 h1
    apply each_canon
    · intro a2_0 m2 h2
      apply purgeLine_canon
      exact h2
    · exact h1
  · exact h

theorem dirDelete_canon : ∀ x0 x1, Mach.canon x1 → Mach.canon (dirDelete x0 x1) := by
  intro x0 x1 h
  unfold dirDelete
  dsimp -proj -iota -eta only
  split
  · apply changePlace_canon
    apply purgeId_canon
    exact h
  · apply purgeId_canon
    exact h

theorem dirRun_canon : ∀ x0 x1, Mach.canon x1 → Mach.canon (dirRun x0 x1) := by
  intro x0 x1 h
  unfold dirRun
  dsimp -proj -iota -eta only
  split
  · apply dirBind_canon
    exact h
  · apply dirGuard_canon
    · intro m1 h1
      apply dirOnEntry_canon
      · intro a2_0 a2_1 m2 h2
        apply dirAnswer_canon
        exact h2
      · exact h1
    · exact h
  · apply dirGuard_canon
    · intro m3 h3
      apply dirWrite_canon
      exact h3
    · exact h
  · apply dirGuard_canon
    · intro m4 h4
      apply dirOnEntry_canon
      · intro a5_0 a5_1 m5 h5
        apply dirAnswer_canon
        apply changePlace_canon
        exact h5
      · exact h4
    · exact h
  · apply dirGuard_canon
    · intro m6 h6
      apply dirOnEntry_canon
      · intro a7_0 a7_1 m7 h7
        apply dirAlter_canon
        exact h7
      · exact h6
    · exact h
  · apply dirGuard_canon
    · intro m8 h8
      apply dirOnEntry_canon
      · intro a9_0 a9_1 m9 h9
        apply dirAlter_canon
        exact h9
      · exact h8
    · exact h
  · apply dirGuard_canon
    · intro m10 h10
      apply dirAnswer_canon
      apply purgeList_canon
      exact h10
    · exact h
  · apply dirGuard_canon
    · intro m11 h11
      refine canon_ite ?_ ?_
      · refine canon_ite ?_ ?_
        · apply snapStart_canon
          refine canon_mk (canon_of ?_)
          exact h11
        · apply dirAnswer_canon
          apply snapStart_canon
          exact h11
      · apply dirAnswer_canon
        apply setEv_canon
        exact h11
    · exact h
  · refine canon_ite ?_ ?_
    · apply setEv_canon
      exact h
    · refine canon_ite ?_ ?_
      · apply dirDelete_canon
        exact h
      · exact h
  · apply dirSnapshot_canon
    exact h
  · apply dirRestore_canon
    exact h

theorem snapGo_canon : ∀ x0, Mach.canon x0 → Mach.canon (snapGo x0) := by
  intro x0 h
  unfold snapGo
  dsimp -proj -iota -eta only
  refine canon_ite ?_ ?_
  · split
    · apply dirAnswer_canon
      apply snapStart_canon
      refine canon_mk (canon_of ?_)
      exact h
    · apply snapStart_canon
      refine canon_mk (canon_of ?_)
      exact h
  · exact h

theorem restoreEntries_canon (l : List DirEntry) (m : Mach) (h : m.canon) : (restoreEntries l m).canon := by
  induction l generalizing m with
  | nil => exact h
  | cons e l ih =>
    unfold restoreEntries
    refine canon_ite (setEv_canon _ _ (cnt_canon _ _ _ _ h)) ?_
    split
    · next hp => exact ih _ (dirInsert_canon hp h)
    · exact ih _ (cnt_canon _ _ _ _ h)

theorem quotaEviction_canon : ∀ x0, Mach.canon x0 → Mach.canon (quotaEviction x0) := by
  intro x0 h
  unfold quotaEviction
  refine canon_ite ?_ ?_
  · exact h
  · split
    · apply setEv_canon
      apply cnt_canon
      apply changePlace_canon
      exact h
    · apply setEv_canon
      exact h

theorem dirSeedWrite_canon : ∀ x0 x1, Mach.canon x1 → Mach.canon (dirSeedWrite x0 x1) := by
  intro x0 x1 h
  unfold dirSeedWrite
  refine canon_ite ?_ ?_
  · apply wr_canon
    exact h
  · apply setEv_canon
    exact h

theorem dirEnter_canon : ∀ x0 x1, Mach.canon x1 → Mach.canon (dirEnter x0 x1) := by
  intro x0 x1 h
  unfold dirEnter
  dsimp -proj -iota -eta only
  refine canon_ite ?_ ?_
  · exact h
  · refine canon_ite ?_ ?_
    · refine canon_mk (canon_of ?_)
      exact h
    · apply dirRun_canon
      exact h

theorem snapPeriod_canon : ∀ x0, Mach.canon x0 → Mach.canon (snapPeriod x0) := by
  intro x0 h
  unfold snapPeriod
  refine canon_ite ?_ ?_
  · exact h
  · apply dirEnter_canon
    exact h

theorem dirDrain_canon (l : List DirReq) (m : Mach) (h : m.canon) : (dirDrain l m).canon := by
  induction l generalizing m with
  | nil => exact h
  | cons e l ih =>
    unfold dirDrain
    refine canon_ite ?_ (ih _ (dirRun_canon _ _ h))
    exact canon_mk (canon_of h)

theorem dirGoOn_canon : ∀ x0, Mach.canon x0 → Mach.canon (dirGoOn x0) := by
  intro x0 h
  unfold dirGoOn
  dsimp -proj -iota -eta only
  apply dirDrain_canon
  refine canon_mk (canon_of ?_)
  refine canon_ite ?_ ?_
  · apply dirRestore_canon
    refine canon_mk (canon_of ?_)
    exact h
  · exact h

theorem snapComplete_canon : ∀ x0, Mach.canon x0 → Mach.canon (snapComplete x0) := by
  intro x0 h
  unfold snapComplete
  dsimp -proj -iota -eta only
  refine canon_ite ?_ ?_
  · apply dirGoOn_canon
    apply setEv_canon
    apply refreshSnap_canon
    apply fset_canon
    refine canon_mk (canon_of ?_)
    apply setSnap_canon
    apply each_canon
    · intro a1_0 m1 h1
      apply purgeLine_canon
      exact h1
    · exact h
  · exact h

theorem dirCfgWrite_canon : ∀ x0 x1, Mach.canon x1 → Mach.canon (dirCfgWrite x0 x1) := by
  intro x0 x1 h
  unfold dirCfgWrite
  dsimp -proj -iota -eta only
  refine canon_ite ?_ ?_
  · apply fset_canon
    exact h
  · apply setEv_canon
    exact h

theorem dirResync_canon : ∀ x0, Mach.canon x0 → Mach.canon (dirResync x0) := by
  intro x0 h
  unfold dirResync
  dsimp -proj -iota -eta only
  apply send_canon
  apply setEv_canon
  apply fset_canon
  apply setInSync_canon
  apply refreshDir_canon
  refine canon_mk (canon_of ?_)
  exact h

theorem mirrorDelta_canon : ∀ x0 x1 x2 x3 x4, Mach.canon x4 → Mach.canon (mirrorDelta x0 x1 x2 x3 x4) := by
  intro x0 x1 x2 x3 x4 h
  unfold mirrorDelta
  refine canon_ite ?_ ?_
  · exact h
  · refine canon_ite ?_ ?_
    · apply send_canon
      apply wr_canon
      apply setPlace_canon
      exact h
    · apply dirResync_canon
      exact h

theorem snapLost_canon : ∀ x0, Mach.canon x0 → Mach.canon (snapLost x0) := by
  intro x0 h
  unfold snapLost
  dsimp -proj -iota -eta only
  refine canon_ite ?_ ?_
  · apply dirGoOn_canon
    apply setEv_canon
    apply fset_canon
    exact h
  · refine canon_ite ?_ ?_
    · split
      · apply dirAnswer_canon
        apply setEv_canon
        refine canon_mk (canon_of ?_)
        exact h
      · apply setEv_canon
        refine canon_mk (canon_of ?_)
        exact h
    · exact h

theorem copyDone_canon : ∀ x0, Mach.canon x0 → Mach.canon (copyDone x0) := by
  intro x0 h
  unfold copyDone
  apply send_canon
  apply setInSync_canon
  apply fset_canon
  exact h

theorem restoreComplete_canon : ∀ x0, Mach.canon x0 → Mach.canon (restoreComplete x0) := by
  intro x0 h
  unfold restoreComplete
  dsimp -proj -iota -eta only
  refine canon_ite ?_ ?_
  · apply dirGoOn_canon
    refine canon_ite ?_ ?_
    · apply dirStream_canon
      apply setEv_canon
      apply fset_canon
      apply fset_canon
      apply restoreEntries_canon
      exact h
    · apply setEv_canon
      apply fset_canon
      apply fset_canon
      apply restoreEntries_canon
      exact h
  · exact h

end Sys2Proof.Machine
end

