-- ==== Sys2Proof/Laws/CanonFes.lean ====
section
/-! SUPPORT. The operations of Machine/Fes.lean keep the registers and the reservoir in canonical form. -/

namespace Sys2Proof.Machine

set_option maxRecDepth 8000

theorem refreshFes_canon : ∀ x0 x1, Mach.canon x1 → Mach.canon (refreshFes x0 x1) := by
  intro x0 x1 h
  unfold refreshFes
  dsimp -proj -iota -eta only
  apply setEvIf_canon
  apply setFes_canon
  apply fsetB_canon
  apply fset_canon
  apply fset_canon
  apply fset_canon
  exact h

theorem queueFcb_canon : ∀ x0 x1 x2 x3, Mach.canon x3 → Mach.canon (queueFcb x0 x1 x2 x3) := by
  intro x0 x1 x2 x3 h
  unfold queueFcb
  dsimp -proj -iota -eta only
  refine canon_ite ?_ ?_
  · apply refreshFes_canon
    apply setFes_canon
    exact h
  · apply setEv_canon
    exact h

theorem spoilCap_canon : ∀ x0 x1, Mach.canon x1 → Mach.canon (spoilCap x0 x1) := by
  intro x0 x1 h
  unfold spoilCap
  split
  · refine canon_ite ?_ ?_
    · exact h
    · refine canon_mk (canon_of ?_)
      exact h
  · exact h

theorem setCoupler_canon : ∀ x0 x1 x2, Mach.canon x2 → Mach.canon (setCoupler x0 x1 x2) := by
  intro x0 x1 x2 h
  unfold setCoupler
  dsimp -proj -iota -eta only
  refine canon_ite ?_ ?_
  · apply wr_canon
    exact h
  · apply spoilCap_canon
    apply couplerChanged_canon
    apply setRx_canon
    apply wr_canon
    exact h

theorem runAct_canon : ∀ x0 x1 x2 x3 x4 x5, Mach.canon x5 → Mach.canon (runAct x0 x1 x2 x3 x4 x5) := by
  intro x0 x1 x2 x3 x4 x5 h
  unfold runAct
  dsimp -proj -iota -eta only
  split
  · apply refreshFes_canon
    apply setFes_canon
    exact h
  · apply refreshFes_canon
    apply setFes_canon
    exact h
  · apply queueFcb_canon
    exact h
  · refine canon_ite ?_ ?_
    · apply setCoupler_canon
      exact h
    · apply queueFcb_canon
      apply setCoupler_canon
      exact h

theorem schedAct_canon : ∀ x0 x1 x2 x3, Mach.canon x3 → Mach.canon (schedAct x0 x1 x2 x3) := by
  intro x0 x1 x2 x3 h
  unfold schedAct
  dsimp -proj -iota -eta only
  refine canon_ite ?_ ?_
  · apply runAct_canon
    apply setEv_canon
    exact h
  · refine canon_ite ?_ ?_
    · apply refreshFes_canon
      apply setFes_canon
      exact h
    · apply setEv_canon
      exact h

theorem enterState_canon : ∀ x0 x1 x2 x3, Mach.canon x3 → Mach.canon (enterState x0 x1 x2 x3) := by
  intro x0 x1 x2 x3 h
  unfold enterState
  dsimp -proj -iota -eta only
  apply each_canon
  · intro a1_0 m1 h1
    apply schedAct_canon
    exact h1
  · apply setFes_canon
    apply fset_canon
    exact h

theorem fesEvent_canon : ∀ x0 x1 x2 x3, Mach.canon x3 → Mach.canon (fesEvent x0 x1 x2 x3) := by
  intro x0 x1 x2 x3 h
  unfold fesEvent
  refine canon_ite ?_ ?_
  · split
    · apply enterState_canon
      exact h
    · exact h
  · exact h

theorem dropBurst_canon : ∀ x0 x1 x2 x3, Mach.canon x3 → Mach.canon (dropBurst x0 x1 x2 x3) := by
  intro x0 x1 x2 x3 h
  unfold dropBurst
  dsimp -proj -iota -eta only
  apply fesEvent_canon
  apply sendNat_canon
  apply refreshFes_canon
  apply cnt_canon
  apply setEv_canon
  apply setFes_canon
  exact h

theorem fesCfgWrite_canon : ∀ x0 x1 x2 x3 x4, Mach.canon x4 → Mach.canon (fesCfgWrite x0 x1 x2 x3 x4) := by
  intro x0 x1 x2 x3 x4 h
  unfold fesCfgWrite
  apply refreshFes_canon
  apply wr_canon
  exact h

theorem deliverEvents_canon : ∀ x0, Mach.canon x0 → Mach.canon (deliverEvents x0) := by
  intro x0 h
  unfold deliverEvents
  dsimp -proj -iota -eta only
  apply each_canon
  · intro a1_0 m1 h1
    apply each_canon
    · intro a2_0 m2 h2
      apply fesEvent_canon
      exact h2
    · exact h1
  · refine canon_mk (canon_of ?_)
    exact h

theorem fcbFrame_canon : ∀ x0 x1, Mach.canon x1 → Mach.canon (fcbFrame x0 x1) := by
  intro x0 x1 h
  unfold fcbFrame
  dsimp -proj -iota -eta only
  split
  · exact h
  · refine canon_ite ?_ ?_
    · exact h
    · apply send_canon
      apply setEvIf_canon
      apply refreshFes_canon
      apply setFes_canon
      apply advanceTo_canon
      exact h

theorem fesRestart_canon : ∀ x0 x1, Mach.canon x1 → Mach.canon (fesRestart x0 x1) := by
  intro x0 x1 h
  unfold fesRestart
  dsimp -proj -iota -eta only
  apply refreshFes_canon
  apply setFes_canon
  apply fset_canon
  exact h

theorem fesNow_canon : ∀ x0 x1 x2, Mach.canon x2 → Mach.canon (fesNow x0 x1 x2) := by
  intro x0 x1 x2 h
  unfold fesNow
  split
  · apply fesEvent_canon
    exact h
  · refine canon_mk (canon_of ?_)
    exact h

theorem fesSwWrite_canon : ∀ x0 x1 x2, Mach.canon x2 → Mach.canon (fesSwWrite x0 x1 x2) := by
  intro x0 x1 x2 h
  unfold fesSwWrite
  refine canon_ite ?_ ?_
  · apply fesNow_canon
    exact h
  · exact h

theorem endDrops_canon : ∀ x0 x1, Mach.canon x1 → Mach.canon (endDrops x0 x1) := by
  intro x0 x1 h
  unfold endDrops
  dsimp -proj -iota -eta only
  apply setFes_canon
  exact h

theorem burstDecision_canon : ∀ x0 x1, Mach.canon x1 → Mach.canon (burstDecision x0 x1) := by
  intro x0 x1 h
  unfold burstDecision
  dsimp -proj -iota -eta only
  split
  · refine canon_ite ?_ ?_
    · refine canon_ite ?_ ?_
      · apply fesEvent_canon
        apply setFes_canon
        apply advanceTo_canon
        exact h
      · apply dropBurst_canon
        apply setFes_canon
        apply advanceTo_canon
        exact h
    · exact h
  · exact h

theorem applyLead_canon : ∀ x0 x1, Mach.canon x1 → Mach.canon (applyLead x0 x1) := by
  intro x0 x1 h
  unfold applyLead
  dsimp -proj -iota -eta only
  apply setFes_canon
  exact h

theorem holdEvents_canon : ∀ x0, Mach.canon x0 → Mach.canon (holdEvents x0) := by
  intro x0 h
  unfold holdEvents
  refine canon_mk (canon_of ?_)
  exact h

theorem sequencerAction_canon : ∀ x0 x1, Mach.canon x1 → Mach.canon (sequencerAction x0 x1) := by
  intro x0 x1 h
  unfold sequencerAction
  dsimp -proj -iota -eta only
  split
  · exact h
  · apply runAct_canon
    apply refreshFes_canon
    apply setFes_canon
    apply advanceTo_canon
    exact h

theorem evSlot_canon : ∀ x0 x1 x2, Mach.canon x2 → Mach.canon (evSlot x0 x1 x2) := by
  intro x0 x1 x2 h
  unfold evSlot
  dsimp -proj -iota -eta only
  split
  · refine canon_ite ?_ ?_
    · apply fesEvent_canon
      apply setFes_canon
      apply advanceTo_canon
      exact h
    · exact h
  · exact h

theorem refreshPins_canon : ∀ x0, Mach.canon x0 → Mach.canon (refreshPins x0) := by
  intro x0 h
  unfold refreshPins
  apply each_canon
  · intro a1_0 m1 h1
    apply refreshFes_canon
    exact h1
  · exact h

theorem evFrame_canon : ∀ x0 x1, Mach.canon x1 → Mach.canon (evFrame x0 x1) := by
  intro x0 x1 h
  unfold evFrame
  dsimp -proj -iota -eta only
  refine canon_ite ?_ ?_
  · apply fesEvent_canon
    apply advanceTo_canon
    exact h
  · exact h

theorem evTimer_canon : ∀ x0 x1, Mach.canon x1 → Mach.canon (evTimer x0 x1) := by
  intro x0 x1 h
  unfold evTimer
  dsimp -proj -iota -eta only
  split
  · exact h
  · apply fesNow_canon
    apply setFes_canon
    apply advanceTo_canon
    exact h

end Sys2Proof.Machine
end

