-- ==== Sys2Proof/Laws/CanonChains.lean ====
section
/-! SUPPORT. The operations of Machine/Chains.lean keep the registers and the reservoir in canonical form. -/

namespace Sys2Proof.Machine

set_option maxRecDepth 8000

theorem rephase_canon : ∀ x0 x1 x2, Mach.canon x2 → Mach.canon (rephase x0 x1 x2) := by
  intro x0 x1 x2 h
  unfold rephase
  dsimp -proj -iota -eta only
  apply setChain_canon
  exact h

theorem ftwLoWrite_canon : ∀ x0 x1 x2, Mach.canon x2 → Mach.canon (ftwLoWrite x0 x1 x2) := by
  intro x0 x1 x2 h
  unfold ftwLoWrite
  apply wr_canon
  exact h

theorem stageChain_canon (c : ChainId) (a : Nat) (v : W) (f : W → Mach → Mach)
    (hf : ∀ (v : W) (m : Mach), m.canon → (f v m).canon) (m : Mach) (h : m.canon) : (stageChain c a v f m).canon := by
  unfold stageChain
  exact canon_ite (hf _ _ h) (setStage_canon _ _ _ h)

theorem setStageSt_canon : ∀ x0 x1 x2 x3, Mach.canon x3 → Mach.canon (setStageSt x0 x1 x2 x3) := by
  intro x0 x1 x2 x3 h
  unfold setStageSt
  dsimp -proj -iota -eta only
  apply setChain_canon
  exact h

theorem markStage_canon : ∀ x0 x1 x2, Mach.canon x2 → Mach.canon (markStage x0 x1 x2) := by
  intro x0 x1 x2 h
  unfold markStage
  dsimp -proj -iota -eta only
  apply setStageSt_canon
  exact h

theorem markTxShift_canon : ∀ x0 x1 x2, Mach.canon x2 → Mach.canon (markTxShift x0 x1 x2) := by
  intro x0 x1 x2 h
  unfold markTxShift
  dsimp -proj -iota -eta only
  refine canon_ite ?_ ?_
  · apply markStage_canon
    exact h
  · refine canon_ite ?_ ?_
    · apply setPd_canon
      exact h
    · apply markStage_canon
      exact h

theorem applyShift_canon : ∀ x0 x1 x2, Mach.canon x2 → Mach.canon (applyShift x0 x1 x2) := by
  intro x0 x1 x2 h
  unfold applyShift
  dsimp -proj -iota -eta only
  apply each_canon
  · intro a1_0 m1 h1
    refine canon_ite ?_ ?_
    · apply markTxShift_canon
      exact h1
    · refine canon_ite ?_ ?_
      · apply markStage_canon
        exact h1
      · exact h1
  · apply wr_canon
    exact h

theorem chainShiftWrite_canon : ∀ x0 x1 x2, Mach.canon x2 → Mach.canon (chainShiftWrite x0 x1 x2) := by
  intro x0 x1 x2 h
  unfold chainShiftWrite
  refine canon_ite ?_ ?_
  · apply setEv_canon
    exact h
  · apply stageChain_canon
    · intro a1_0 m1 h1
      apply applyShift_canon
      exact h1
    · exact h

theorem syncReset_canon : ∀ x0 x1 x2, Mach.canon x2 → Mach.canon (syncReset x0 x1 x2) := by
  intro x0 x1 x2 h
  unfold syncReset
  dsimp -proj -iota -eta only
  split
  · apply setPd_canon
    apply setEv_canon
    apply setChain_canon
    exact h
  · apply setEv_canon
    apply setChain_canon
    exact h

theorem ncoReach_canon : ∀ x0 x1 x2, Mach.canon x2 → Mach.canon (ncoReach x0 x1 x2) := by
  intro x0 x1 x2 h
  unfold ncoReach
  dsimp -proj -iota -eta only
  refine canon_ite ?_ ?_
  · apply setChain_canon
    exact h
  · exact h

theorem ncoNow_canon : ∀ x0 x1, Mach.canon x1 → Mach.canon (ncoNow x0 x1) := by
  intro x0 x1 h
  unfold ncoNow
  refine canon_ite ?_ ?_
  · apply ncoReach_canon
    exact h
  · exact h

theorem markNco_canon : ∀ x0 x1, Mach.canon x1 → Mach.canon (markNco x0 x1) := by
  intro x0 x1 h
  unfold markNco
  refine canon_ite ?_ ?_
  · exact h
  · apply markStage_canon
    exact h

theorem applyPhase_canon : ∀ x0 x1 x2, Mach.canon x2 → Mach.canon (applyPhase x0 x1 x2) := by
  intro x0 x1 x2 h
  unfold applyPhase
  dsimp -proj -iota -eta only
  refine canon_ite ?_ ?_
  · apply setEv_canon
    apply rephase_canon
    apply wr_canon
    apply ncoNow_canon
    exact h
  · apply markNco_canon
    apply setEv_canon
    apply rephase_canon
    apply wr_canon
    apply ncoNow_canon
    exact h

theorem chainPhaseWrite_canon : ∀ x0 x1 x2, Mach.canon x2 → Mach.canon (chainPhaseWrite x0 x1 x2) := by
  intro x0 x1 x2 h
  unfold chainPhaseWrite
  apply stageChain_canon
  · intro a1_0 m1 h1
    apply applyPhase_canon
    exact h1
  · exact h

theorem takeStage_canon (a : Nat) (f : W → Mach → Mach) (hf : ∀ (v : W) (m : Mach), m.canon → (f v m).canon) (m : Mach)
    (h : m.canon) : (takeStage a f m).canon := by
  unfold takeStage
  split
  · exact h
  · exact hf _ _ (setStage_canon _ _ _ h)

theorem chainSat_canon : ∀ x0 x1 x2, Mach.canon x2 → Mach.canon (chainSat x0 x1 x2) := by
  intro x0 x1 x2 h
  unfold chainSat
  refine canon_ite ?_ ?_
  · apply setEv_canon
    apply cnt_canon
    exact h
  · exact h

theorem applyResp_canon : ∀ x0 x1 x2, Mach.canon x2 → Mach.canon (applyResp x0 x1 x2) := by
  intro x0 x1 x2 h
  unfold applyResp
  dsimp -proj -iota -eta only
  apply each_canon
  · intro a1_0 m1 h1
    apply markStage_canon
    exact h1
  · apply wr_canon
    exact h

theorem chainRespWrite_canon : ∀ x0 x1 x2, Mach.canon x2 → Mach.canon (chainRespWrite x0 x1 x2) := by
  intro x0 x1 x2 h
  unfold chainRespWrite
  apply stageChain_canon
  · intro a1_0 m1 h1
    apply applyResp_canon
    exact h1
  · exact h

theorem runInterp1_canon : ∀ x0 x1 x2 x3, Mach.canon x3 → Mach.canon (runInterp1 x0 x1 x2 x3).2 := by
  intro x0 x1 x2 x3 h
  unfold runInterp1
  dsimp -proj -iota -eta only
  refine canon_mkp ?_
  apply each_canon
  · intro a1_0 m1 h1
    apply chainSat_canon
    exact h1
  · apply setStageSt_canon
    exact h

theorem runDecim_canon (c : ChainId) (k : Nat) (r : Option Sample × Mach) (h : r.2.canon) : (runDecim c k r).2.canon := by
  unfold runDecim
  split
  · exact h
  · dsimp -proj -iota -eta only
    split
    · exact setStageSt_canon _ _ _ _ h
    · exact chainSat_canon _ _ _ (setStageSt_canon _ _ _ _ h)

theorem ddcStep_canon (c : ChainId) (x : Sample) (m : Mach) (h : m.canon) : (ddcStep c x m).2.canon := by
  have key : ∀ (l : List Nat) (r : Option Sample × Mach), r.2.canon → (l.foldl (fun a k => runDecim c k a) r).2.canon := by
    intro l
    induction l with
    | nil => exact fun r hr => hr
    | cons k l ih => exact fun r hr => ih _ (runDecim_canon c k r hr)
  have h1 := key ((List.range (nstages c m)).map (· + 1))
    (some (mixDown (getChain (chainKey c) m).acc x), setChain (chainKey c) (ncoNext (getChain (chainKey c) m)) m)
    (setChain_canon _ _ _ h)
  unfold ddcStep
  dsimp -proj -iota -eta only
  split
  · exact h1
  · exact setChain_canon _ _ _ (fsetB_canon _ _ _ h1)

theorem applyFtw_canon : ∀ x0 x1, Mach.canon x1 → Mach.canon (applyFtw x0 x1) := by
  intro x0 x1 h
  unfold applyFtw
  dsimp -proj -iota -eta only
  split
  · exact h
  · refine canon_ite ?_ ?_
    · apply setEv_canon
      apply rephase_canon
      apply wr_canon
      apply setChain_canon
      apply ncoNow_canon
      exact h
    · apply markNco_canon
      apply setEv_canon
      apply rephase_canon
      apply wr_canon
      apply setChain_canon
      apply ncoNow_canon
      exact h

theorem applyChainCfg_canon : ∀ x0 x1 x2, Mach.canon x2 → Mach.canon (applyChainCfg x0 x1 x2) := by
  intro x0 x1 x2 h
  unfold applyChainCfg
  dsimp -proj -iota -eta only
  refine canon_ite ?_ ?_
  · apply fset_canon
    apply fset_canon
    apply fset_canon
    apply wr_canon
    apply ncoNow_canon
    exact h
  · apply markNco_canon
    apply rephase_canon
    apply fset_canon
    apply fset_canon
    apply fset_canon
    apply wr_canon
    apply ncoNow_canon
    exact h

theorem applyChain_canon : ∀ x0 x1, Mach.canon x1 → Mach.canon (applyChain x0 x1) := by
  intro x0 x1 h
  unfold applyChain
  apply applyFtw_canon
  apply takeStage_canon
  · intro a1_0 m1 h1
    apply applyPhase_canon
    exact h1
  · apply takeStage_canon
    · intro a2_0 m2 h2
      apply applyShift_canon
      exact h2
    · apply takeStage_canon
      · intro a3_0 m3 h3
        apply applyResp_canon
        exact h3
      · apply takeStage_canon
        · intro a4_0 m4 h4
          apply applyChainCfg_canon
          exact h4
        · exact h

theorem ftwHiWrite_canon : ∀ x0 x1 x2, Mach.canon x2 → Mach.canon (ftwHiWrite x0 x1 x2) := by
  intro x0 x1 x2 h
  unfold ftwHiWrite
  dsimp -proj -iota -eta only
  refine canon_ite ?_ ?_
  · apply applyFtw_canon
    apply setChain_canon
    exact h
  · apply setChain_canon
    exact h

theorem chainCfgWrite_canon : ∀ x0 x1 x2, Mach.canon x2 → Mach.canon (chainCfgWrite x0 x1 x2) := by
  intro x0 x1 x2 h
  unfold chainCfgWrite
  dsimp -proj -iota -eta only
  refine canon_ite ?_ ?_
  · apply setEv_canon
    exact h
  · apply stageChain_canon
    · intro a1_0 m1 h1
      apply applyChainCfg_canon
      exact h1
    · exact h

theorem runInterp_canon (c : ChainId) (k : Nat) (r : List Sample × Mach) (h : r.2.canon) : (runInterp c k r).2.canon := by
  have key : ∀ (l : List Sample) (a : List Sample × Mach), a.2.canon →
      (l.foldl (fun a x => let p := runInterp1 c k x a.2; (a.1 ++ p.1, p.2)) a).2.canon := by
    intro l
    induction l with
    | nil => exact fun a ha => ha
    | cons x l ih => exact fun a ha => ih _ (runInterp1_canon c k x a.2 ha)
  exact key r.1 ([], r.2) h

end Sys2Proof.Machine
end

