-- ==== Sys2Proof/Laws/CanonPdEngine.lean ====
section
/-! SUPPORT. The operations of Machine/PdEngine.lean keep the registers and the reservoir in canonical form. -/

namespace Sys2Proof.Machine

set_option maxRecDepth 8000

theorem pdForm_canon : ∀ x0 x1, Mach.canon x1 → Mach.canon (pdForm x0 x1).2 := by
  intro x0 x1 h
  unfold pdForm
  dsimp -proj -iota -eta only
  refine canon_ite_snd ?_ ?_
  · refine canon_mkp ?_
    apply setPd_canon
    exact h
  · refine canon_ite_snd ?_ ?_
    · refine canon_mkp ?_
      apply setPd_canon
      exact h
    · refine canon_mkp ?_
      refine canon_ite ?_ ?_
      · apply setEv_canon
        apply cnt_canon
        apply setPd_canon
        exact h
      · apply setPd_canon
        exact h

theorem pdOuts_canon (n k : Nat) (m : Mach) (h : m.canon) : (pdOuts n k m).2.canon := by
  induction k generalizing m with
  | zero => exact h
  | succ k ih =>
    unfold pdOuts
    dsimp -proj -iota -eta only
    exact canon_ite_snd (ih _ (pdForm_canon _ _ h)) h

theorem pdPush_canon : ∀ x0 x1 x2 x3, Mach.canon x3 → Mach.canon (pdPush x0 x1 x2 x3) := by
  intro x0 x1 x2 x3 h
  unfold pdPush
  dsimp -proj -iota -eta only
  apply setPd_canon
  exact h

theorem setLut_canon : ∀ x0 x1 x2 x3 x4, Mach.canon x4 → Mach.canon (setLut x0 x1 x2 x3 x4) := by
  intro x0 x1 x2 x3 x4 h
  unfold setLut
  refine canon_mk (canon_of ?_)
  exact h

end Sys2Proof.Machine
end

