-- ==== Sys2Proof/Laws/CanonOutput.lean ====
section
/-! SUPPORT. The operations of Machine/Output.lean keep the registers and the reservoir in canonical form. -/

namespace Sys2Proof.Machine

set_option maxRecDepth 8000

theorem noteMargin_canon : ∀ x0 x1 x2, Mach.canon x2 → Mach.canon (noteMargin x0 x1 x2) := by
  intro x0 x1 x2 h
  unfold noteMargin
  dsimp -proj -iota -eta only
  refine canon_ite ?_ ?_
  · refine canon_mk (canon_of ?_)
    exact h
  · refine canon_mk (canon_of ?_)
    exact h

theorem lateArrive_canon : ∀ x0 x1 x2 x3, Mach.canon x3 → Mach.canon (lateArrive x0 x1 x2 x3) := by
  intro x0 x1 x2 x3 h
  unfold lateArrive
  dsimp -proj -iota -eta only
  split
  · apply noteMargin_canon
    apply setOut_canon
    exact h
  · exact h

theorem chargeLate_canon : ∀ x0 x1, Mach.canon x1 → Mach.canon (chargeLate x0 x1) := by
  intro x0 x1 h
  unfold chargeLate
  dsimp -proj -iota -eta only
  refine canon_mk (canon_of ?_)
  exact h

theorem outArrive_canon : ∀ x0 x1 x2, Mach.canon x2 → Mach.canon (outArrive x0 x1 x2) := by
  intro x0 x1 x2 h
  unfold outArrive
  dsimp -proj -iota -eta only
  refine canon_ite ?_ ?_
  · apply lateArrive_canon
    apply setOut_canon
    exact h
  · apply setOut_canon
    apply setOut_canon
    exact h

theorem outPush_canon : ∀ x0 x1 x2, Mach.canon x2 → Mach.canon (outPush x0 x1 x2) := by
  intro x0 x1 x2 h
  unfold outPush
  dsimp -proj -iota -eta only
  refine canon_ite ?_ ?_
  · refine canon_mk (canon_of ?_)
    exact h
  · apply outArrive_canon
    refine canon_mk (canon_of ?_)
    exact h

theorem gapTicks_canon : ∀ x0 x1 x2 x3, Mach.canon x3 → Mach.canon (gapTicks x0 x1 x2 x3) := by
  intro x0 x1 x2 x3 h
  unfold gapTicks
  dsimp -proj -iota -eta only
  apply each_canon
  · intro a1_0 m1 h1
    apply outPush_canon
    exact h1
  · exact h

theorem dacSample_canon : ∀ x0 x1 x2, Mach.canon x2 → Mach.canon (dacSample x0 x1 x2) := by
  intro x0 x1 x2 h
  unfold dacSample
  dsimp -proj -iota -eta only
  refine canon_ite ?_ ?_
  · apply cnt_canon
    refine canon_ite ?_ ?_
    · apply setEv_canon
      apply cnt_canon
      apply setTx_canon
      exact h
    · apply setTx_canon
      exact h
  · refine canon_ite ?_ ?_
    · apply setEv_canon
      apply cnt_canon
      apply setTx_canon
      exact h
    · apply setTx_canon
      exact h

theorem reachSub_canon : ∀ x0 x1, Mach.canon x1 → Mach.canon (reachSub x0 x1) := by
  intro x0 x1 h
  unfold reachSub
  apply advanceTo_canon
  exact h

theorem outRefill_canon : ∀ x0 x1, Mach.canon x1 → Mach.canon (outRefill x0 x1) := by
  intro x0 x1 h
  unfold outRefill
  dsimp -proj -iota -eta only
  split
  · exact h
  · refine canon_ite ?_ ?_
    · apply setOut_canon
      exact h
    · exact h

theorem ulOut_canon : ∀ x0 x1 x2, Mach.canon x2 → Mach.canon (ulOut x0 x1 x2) := by
  intro x0 x1 x2 h
  unfold ulOut
  dsimp -proj -iota -eta only
  refine canon_ite ?_ ?_
  · exact h
  · apply setUlTx_canon
    exact h

theorem ulAbsent_canon : ∀ x0 x1 x2, Mach.canon x2 → Mach.canon (ulAbsent x0 x1 x2) := by
  intro x0 x1 x2 h
  unfold ulAbsent
  dsimp -proj -iota -eta only
  apply ulOut_canon
  refine canon_ite ?_ ?_
  · apply setOut_canon
    exact h
  · apply chargeLate_canon
    apply setEv_canon
    apply cnt_canon
    apply setOut_canon
    exact h

theorem ulRelease_canon : ∀ x0 x1, Mach.canon x1 → Mach.canon (ulRelease x0 x1) := by
  intro x0 x1 h
  unfold ulRelease
  dsimp -proj -iota -eta only
  refine canon_ite ?_ ?_
  · exact h
  · split
    · refine canon_ite ?_ ?_
      · exact h
      · refine canon_ite ?_ ?_
        · apply outRefill_canon
          apply ulOut_canon
          apply noteMargin_canon
          apply setOut_canon
          apply reachSub_canon
          exact h
        · apply outRefill_canon
          apply lateArrive_canon
          apply ulAbsent_canon
          apply setOut_canon
          apply reachSub_canon
          exact h
    · refine canon_ite ?_ ?_
      · exact h
      · refine canon_ite ?_ ?_
        · exact h
        · refine canon_ite ?_ ?_
          · apply ulAbsent_canon
            apply reachSub_canon
            exact h
          · apply ulOut_canon
            apply setOut_canon
            apply reachSub_canon
            exact h

theorem dacMid_canon : ∀ x0 x1, Mach.canon x1 → Mach.canon (dacMid x0 x1) := by
  intro x0 x1 h
  unfold dacMid
  dsimp -proj -iota -eta only
  apply setTx_canon
  exact h

theorem txPlay_canon : ∀ x0 x1 x2, Mach.canon x2 → Mach.canon (txPlay x0 x1 x2) := by
  intro x0 x1 x2 h
  unfold txPlay
  dsimp -proj -iota -eta only
  refine canon_ite ?_ ?_
  · exact h
  · refine canon_ite ?_ ?_
    · apply dacMid_canon
      exact h
    · apply each_canon
      · intro a1_0 m1 h1
        apply dacSample_canon
        exact h1
      · exact h

theorem txEntry_canon : ∀ x0 x1 x2, Mach.canon x2 → Mach.canon (txEntry x0 x1 x2) := by
  intro x0 x1 x2 h
  unfold txEntry
  dsimp -proj -iota -eta only
  apply setTx_canon
  apply txPlay_canon
  exact h

theorem txAbsent_canon : ∀ x0 x1 x2, Mach.canon x2 → Mach.canon (txAbsent x0 x1 x2) := by
  intro x0 x1 x2 h
  unfold txAbsent
  dsimp -proj -iota -eta only
  refine canon_ite ?_ ?_
  · apply txEntry_canon
    apply setOut_canon
    exact h
  · apply chargeLate_canon
    apply setEv_canon
    apply cnt_canon
    apply txEntry_canon
    apply setOut_canon
    exact h

theorem txRelease_canon : ∀ x0 x1, Mach.canon x1 → Mach.canon (txRelease x0 x1) := by
  intro x0 x1 h
  unfold txRelease
  dsimp -proj -iota -eta only
  refine canon_ite ?_ ?_
  · exact h
  · split
    · refine canon_ite ?_ ?_
      · exact h
      · refine canon_ite ?_ ?_
        · apply outRefill_canon
          apply txEntry_canon
          apply noteMargin_canon
          apply setOut_canon
          apply reachSub_canon
          exact h
        · apply outRefill_canon
          apply lateArrive_canon
          apply txAbsent_canon
          apply setOut_canon
          apply reachSub_canon
          exact h
    · refine canon_ite ?_ ?_
      · exact h
      · refine canon_ite ?_ ?_
        · apply txAbsent_canon
          apply reachSub_canon
          exact h
        · apply dacMid_canon
          exact h

theorem outRelease_canon : ∀ x0 x1, Mach.canon x1 → Mach.canon (outRelease x0 x1) := by
  intro x0 x1 h
  unfold outRelease
  split
  · apply ulRelease_canon
    exact h
  · apply txRelease_canon
    exact h

theorem gapBridge_canon : ∀ x0 x1, Mach.canon x1 → Mach.canon (gapBridge x0 x1) := by
  intro x0 x1 h
  unfold gapBridge
  dsimp -proj -iota -eta only
  refine canon_mk (canon_of ?_)
  apply setOut_canon
  exact h

theorem ulPush_canon : ∀ x0 x1 x2 x3, Mach.canon x3 → Mach.canon (ulPush x0 x1 x2 x3) := by
  intro x0 x1 x2 x3 h
  unfold ulPush
  refine canon_ite ?_ ?_
  · exact h
  · apply outPush_canon
    exact h

theorem txSlot_canon : ∀ x0 x1, Mach.canon x1 → Mach.canon (txSlot x0 x1) := by
  intro x0 x1 h
  unfold txSlot
  dsimp -proj -iota -eta only
  refine canon_ite ?_ ?_
  · apply txPlay_canon
    apply setTx_canon
    exact h
  · apply dacMid_canon
    apply setTx_canon
    exact h

theorem anchorDlChange_canon : ∀ x0 x1 x2, Mach.canon x2 → Mach.canon (anchorDlChange x0 x1 x2) := by
  intro x0 x1 x2 h
  unfold anchorDlChange
  refine canon_ite ?_ ?_
  · refine canon_mk (canon_of ?_)
    exact h
  · exact h

theorem applyAnchor_canon : ∀ x0 x1 x2, Mach.canon x2 → Mach.canon (applyAnchor x0 x1 x2) := by
  intro x0 x1 x2 h
  unfold applyAnchor
  dsimp -proj -iota -eta only
  split
  · apply wr_canon
    exact h
  · apply anchorDlChange_canon
    apply wr_canon
    exact h

theorem closeEntry_canon : ∀ x0 x1, Mach.canon x1 → Mach.canon (closeEntry x0 x1) := by
  intro x0 x1 h
  unfold closeEntry
  split
  · exact h
  · apply outArrive_canon
    refine canon_mk (canon_of ?_)
    exact h

theorem clearOut_canon : ∀ x0 x1, Mach.canon x1 → Mach.canon (clearOut x0 x1) := by
  intro x0 x1 h
  unfold clearOut
  dsimp -proj -iota -eta only
  refine canon_mk (canon_of ?_)
  apply setOut_canon
  exact h

theorem anchorWrite_canon : ∀ x0 x1 x2, Mach.canon x2 → Mach.canon (anchorWrite x0 x1 x2) := by
  intro x0 x1 x2 h
  unfold anchorWrite
  dsimp -proj -iota -eta only
  refine canon_ite ?_ ?_
  · apply setEv_canon
    exact h
  · apply mirror_canon
    refine canon_ite ?_ ?_
    · apply setStage_canon
      exact h
    · apply applyAnchor_canon
      exact h

theorem anchorUlChange_canon : ∀ x0 x1 x2 x3, Mach.canon x3 → Mach.canon (anchorUlChange x0 x1 x2 x3) := by
  intro x0 x1 x2 x3 h
  unfold anchorUlChange
  refine canon_ite ?_ ?_
  · exact h
  · refine canon_ite ?_ ?_
    · apply each_canon
      · intro a1_0 m1 h1
        apply gapBridge_canon
        exact h1
      · exact h
    · refine canon_ite ?_ ?_
      · apply each_canon
        · intro a2_0 m2 h2
          apply gapTicks_canon
          exact h2
        · exact h
      · refine canon_mk (canon_of ?_)
        exact h

end Sys2Proof.Machine
end

