-- ==== Sys2Proof/Laws/CanonDownlink.lean ====
section
/-! SUPPORT. The operations of Machine/Downlink.lean keep the registers and the reservoir in canonical form. -/

namespace Sys2Proof.Machine

set_option maxRecDepth 8000

theorem setDlWait_canon : ∀ x0 x1 x2, Mach.canon x2 → Mach.canon (setDlWait x0 x1 x2) := by
  intro x0 x1 x2 h
  unfold setDlWait
  dsimp -proj -iota -eta only
  refine canon_mk (canon_of ?_)
  exact h

theorem txTail_canon (n : Nat) (x : Nat × Sample) (m : Mach) (h : m.canon) : (txTail n x m).canon := by
  unfold txTail
  dsimp -proj -iota -eta only
  refine each_canon _ _ (fun y s hs => ?_) _ (fsetB_canon _ _ _
    (runInterp_canon _ _ _ (runInterp_canon _ _ _ (runInterp_canon _ _ _ (ncoReach_canon _ _ _ h)))))
  exact outPush_canon _ _ _ (setChain_canon _ _ _ hs)

theorem txEngines_canon (n : Nat) (m : Mach) (h : m.canon) : (txEngines n m).canon := by
  unfold txEngines
  exact each_canon _ _ (fun p s hs => each_canon _ _ (fun x t ht => txTail_canon p x t ht) _ (pdOuts_canon _ _ _ hs)) _ h

theorem txChainIn_canon (n air : Nat) (x : Sample) (m : Mach) (h : m.canon) : (txChainIn n air x m).canon := by
  have key : ∀ (c : ChainId) (l : List Nat) (r : List Sample × Mach), r.2.canon →
      (l.foldl (fun a k => runInterp c k a) r).2.canon := by
    intro c l
    induction l with
    | nil => exact fun r hr => hr
    | cons k l ih => exact fun r hr => ih _ (runInterp_canon c k r hr)
  unfold txChainIn
  refine canon_ite h ?_
  exact each_canon _ _ (fun y t ht => txEngines_canon _ _ (pdPush_canon _ _ _ _ ht)) _ (setChain_canon _ _ _ (key _ _ _ h))

theorem dlSat_canon : ∀ x0 x1 x2, Mach.canon x2 → Mach.canon (dlSat x0 x1 x2) := by
  intro x0 x1 x2 h
  unfold dlSat
  dsimp -proj -iota -eta only
  apply each_canon
  · intro a1_0 m1 h1
    apply setEvBit_canon
    exact h1
  · apply setEvBit_canon
    exact h

theorem dlPath_canon (n air : Nat) (hs : List (Sample × Nat × BeamW)) (m : Mach) (h : m.canon) : (dlPath n air hs m).canon := by
  unfold dlPath
  exact canon_ite (txChainIn_canon _ _ _ _ h) (txChainIn_canon _ _ _ _ (canon_ite (dlSat_canon _ _ _ h) h))

theorem dlForm_canon (all : Bool) (k : Nat) (m : Mach) (h : m.canon) : (dlForm all k m).canon := by
  induction k generalizing m with
  | zero => exact h
  | succ k ih =>
    unfold dlForm
    dsimp -proj -iota -eta only
    refine canon_ite h (ih _ (each_canon _ _ (fun n s hs => dlPath_canon _ _ _ _ hs) _ ?_))
    exact each_canon _ _ (fun p s hs => canon_ite (setDlWait_canon _ _ _ hs) hs) _ h

theorem dlBeamIn_canon (b air : Nat) (s : Sample) (m : Mach) (h : m.canon) : (dlBeamIn b air s m).canon := by
  unfold dlBeamIn
  exact canon_ite (dlForm_canon _ _ _ (setDlWait_canon _ _ _ h)) h

theorem dlElemIn_canon (n air : Nat) (s : Sample) (m : Mach) (h : m.canon) : (dlElemIn n air s m).canon := by
  unfold dlElemIn
  exact canon_ite (txChainIn_canon _ _ _ _ h) h

theorem dlGo_canon : ∀ x0 x1 x2 x3, Mach.canon x3 → Mach.canon (dlGo x0 x1 x2 x3) := by
  intro x0 x1 x2 x3 h
  unfold dlGo
  dsimp -proj -iota -eta only
  split
  · apply dlBeamIn_canon
    exact h
  · apply dlElemIn_canon
    exact h
  · apply txChainIn_canon
    exact h

theorem dlResume_canon : ∀ x0, Mach.canon x0 → Mach.canon (dlResume x0) := by
  intro x0 h
  unfold dlResume
  dsimp -proj -iota -eta only
  refine canon_mk (canon_of ?_)
  apply each_canon
  · intro a1_0 m1 h1
    apply dlGo_canon
    refine canon_mk (canon_of ?_)
    exact h1
  · refine canon_mk (canon_of ?_)
    exact h

theorem dlEnter_canon : ∀ x0 x1 x2 x3, Mach.canon x3 → Mach.canon (dlEnter x0 x1 x2 x3) := by
  intro x0 x1 x2 x3 h
  unfold dlEnter
  refine canon_ite ?_ ?_
  · refine canon_mk (canon_of ?_)
    exact h
  · apply dlGo_canon
    exact h

theorem dlFromTile_canon : ∀ x0 x1 x2, Mach.canon x2 → Mach.canon (dlFromTile x0 x1 x2) := by
  intro x0 x1 x2 h
  unfold dlFromTile
  dsimp -proj -iota -eta only
  apply dlEnter_canon
  exact h

theorem dlFlush_canon (m : Mach) (h : m.canon) : (dlFlush m).canon := dlForm_canon _ _ _ h

theorem dlSample_canon : ∀ x0 x1 x2 x3, Mach.canon x3 → Mach.canon (dlSample x0 x1 x2 x3) := by
  intro x0 x1 x2 x3 h
  unfold dlSample
  apply dlEnter_canon
  exact h

end Sys2Proof.Machine
end

