-- ==== Sys2Proof/Laws/CanonPorts.lean ====
section
/-! SUPPORT. The operations of Machine/Ports.lean keep the registers and the reservoir in canonical form. -/

namespace Sys2Proof.Machine

set_option maxRecDepth 8000

theorem portIn_canon : ∀ x0 x1 x2 x3, Mach.canon x3 → Mach.canon (portIn x0 x1 x2 x3) := by
  intro x0 x1 x2 x3 h
  unfold portIn
  dsimp -proj -iota -eta only
  refine canon_ite ?_ ?_
  · exact h
  · apply setTile_canon
    exact h

theorem feedIn_canon : ∀ x0 x1 x2 x3, Mach.canon x3 → Mach.canon (feedIn x0 x1 x2 x3) := by
  intro x0 x1 x2 x3 h
  unfold feedIn
  dsimp -proj -iota -eta only
  apply each_canon
  · intro a1_0 m1 h1
    apply portIn_canon
    exact h1
  · exact h

end Sys2Proof.Machine
end

