-- ==== Sys2Proof/Laws/CanonUplink.lean ====
section
/-! SUPPORT. The operations of Machine/Uplink.lean keep the registers and the reservoir in canonical form. -/

namespace Sys2Proof.Machine

set_option maxRecDepth 8000

theorem acqBeamOut_canon : ∀ x0 x1 x2, Mach.canon x2 → Mach.canon (acqBeamOut x0 x1 x2) := by
  intro x0 x1 x2 h
  unfold acqBeamOut
  dsimp -proj -iota -eta only
  refine canon_mk (canon_of ?_)
  exact h

theorem takeBeat_canon : ∀ x0 x1, Mach.canon x1 → Mach.canon (takeBeat x0 x1).2 := by
  intro x0 x1 h
  unfold takeBeat
  dsimp -proj -iota -eta only
  split
  · refine canon_mkp ?_
    exact h
  · refine canon_ite_snd ?_ ?_
    · refine canon_mkp ?_
      exact h
    · refine canon_mkp ?_
      apply setRx_canon
      exact h

theorem noteOcc_canon : ∀ x0 x1 x2, Mach.canon x2 → Mach.canon (noteOcc x0 x1 x2) := by
  intro x0 x1 x2 h
  unfold noteOcc
  dsimp -proj -iota -eta only
  refine canon_mk (canon_of ?_)
  exact h

theorem bridgeWrite_canon : ∀ x0 x1, Mach.canon x1 → Mach.canon (bridgeWrite x0 x1) := by
  intro x0 x1 h
  unfold bridgeWrite
  dsimp -proj -iota -eta only
  split
  · exact h
  · apply noteOcc_canon
    apply setEvIf_canon
    apply setIn_canon
    apply takeBeat_canon
    exact h

theorem pdCapFeed_canon : ∀ x0 x1 x2 x3, Mach.canon x3 → Mach.canon (pdCapFeed x0 x1 x2 x3) := by
  intro x0 x1 x2 x3 h
  unfold pdCapFeed
  split
  · refine canon_ite ?_ ?_
    · exact h
    · refine canon_mk (canon_of ?_)
      exact h
  · exact h

theorem obsOut_canon : ∀ x0 x1 x2 x3, Mach.canon x3 → Mach.canon (obsOut x0 x1 x2 x3) := by
  intro x0 x1 x2 x3 h
  unfold obsOut
  dsimp -proj -iota -eta only
  apply pdCapFeed_canon
  apply capFeed_canon
  exact h

theorem nextPos_canon : ∀ x0 x1, Mach.canon x1 → Mach.canon (nextPos x0 x1).2 := by
  intro x0 x1 h
  unfold nextPos
  refine canon_mkp ?_
  refine canon_mk (canon_of ?_)
  exact h

theorem ulElemOut_canon : ∀ x0 x1 x2, Mach.canon x2 → Mach.canon (ulElemOut x0 x1 x2) := by
  intro x0 x1 x2 h
  unfold ulElemOut
  dsimp -proj -iota -eta only
  refine canon_ite ?_ ?_
  · apply ulPush_canon
    apply nextPos_canon
    exact h
  · exact h

theorem setUlWait_canon : ∀ x0 x1 x2, Mach.canon x2 → Mach.canon (setUlWait x0 x1 x2) := by
  intro x0 x1 x2 h
  unfold setUlWait
  dsimp -proj -iota -eta only
  refine canon_mk (canon_of ?_)
  exact h

theorem ulBeamOut_canon : ∀ x0 x1 x2 x3, Mach.canon x3 → Mach.canon (ulBeamOut x0 x1 x2 x3) := by
  intro x0 x1 x2 x3 h
  unfold ulBeamOut
  apply feedIn_canon
  apply ulPush_canon
  refine canon_ite ?_ ?_
  · apply setEvBit_canon
    exact h
  · exact h

theorem ulMeshStep_canon : ∀ x0 x1, Mach.canon x1 → Mach.canon (ulMeshStep x0 x1) := by
  intro x0 x1 h
  unfold ulMeshStep
  dsimp -proj -iota -eta only
  refine canon_ite ?_ ?_
  · apply each_canon
    · intro a1_0 m1 h1
      refine canon_ite ?_ ?_
      · apply acqBeamOut_canon
        exact h1
      · exact h1
    · apply nextPos_canon
      exact h
  · refine canon_ite ?_ ?_
    · apply nextPos_canon
      exact h
    · apply each_canon
      · intro a2_0 m2 h2
        apply ulBeamOut_canon
        exact h2
      · apply nextPos_canon
        exact h

theorem ulForm_canon (all : Bool) (k : Nat) (m : Mach) (h : m.canon) : (ulForm all k m).canon := by
  induction k generalizing m with
  | zero => exact h
  | succ k ih =>
    unfold ulForm
    dsimp -proj -iota -eta only
    refine canon_ite h (ih _ (ulMeshStep_canon _ _ ?_))
    exact each_canon _ _ (fun n s hs => setUlWait_canon _ _ _ hs) _ h

theorem ulMeshIn_canon (n : Nat) (s : Sample) (m : Mach) (h : m.canon) : (ulMeshIn n s m).canon := by
  unfold ulMeshIn
  exact canon_ite h (ulForm_canon _ _ _ (setUlWait_canon _ _ _ h))

theorem rxOut_canon : ∀ x0 x1 x2 x3, Mach.canon x3 → Mach.canon (rxOut x0 x1 x2 x3) := by
  intro x0 x1 x2 x3 h
  unfold rxOut
  dsimp -proj -iota -eta only
  apply ulElemOut_canon
  refine canon_ite ?_ ?_
  · apply ulMeshIn_canon
    apply feedIn_canon
    apply capFeed_canon
    exact h
  · apply feedIn_canon
    apply capFeed_canon
    exact h

theorem coreSample_canon : ∀ x0 x1 x2, Mach.canon x2 → Mach.canon (coreSample x0 x1 x2) := by
  intro x0 x1 x2 h
  unfold coreSample
  dsimp -proj -iota -eta only
  split
  · apply ddcStep_canon
    exact h
  · split
    · apply rxOut_canon
      apply ddcStep_canon
      exact h
    · apply obsOut_canon
      apply ddcStep_canon
      exact h

theorem takeEntry_canon (b : InBridge) (e : BEntry) (m : Mach) (h : m.canon) : (takeEntry b e m).canon := by
  unfold takeEntry
  split
  · exact each_canon _ _ (fun x s hs => coreSample_canon _ _ _ hs) _ h
  · exact h

theorem settleBridge_canon : ∀ x0 x1, Mach.canon x1 → Mach.canon (settleBridge x0 x1) := by
  intro x0 x1 h
  unfold settleBridge
  dsimp -proj -iota -eta only
  split
  · exact h
  · apply each_canon
    · intro a1_0 m1 h1
      apply coreSample_canon
      exact h1
    · apply setRx_canon
      apply each_canon
      · intro a2_0 m2 h2
        apply takeEntry_canon
        exact h2
      · apply setIn_canon
        exact h

theorem takeN_canon (b : InBridge) (k : Nat) (l : List BEntry) (m : Mach) (h : m.canon) : (takeN b k l m).canon := by
  fun_induction takeN b k l m with
  | case1 => exact setIn_canon _ _ _ h
  | case2 m k n l ih => exact ih (takeEntry_canon _ _ _ h)
  | case3 => exact setIn_canon _ _ _ h
  | case4 m k e l _ ih => exact ih (takeEntry_canon _ _ _ h)

theorem rxSkip_canon : ∀ x0 x1, Mach.canon x1 → Mach.canon (rxSkip x0 x1) := by
  intro x0 x1 h
  unfold rxSkip
  dsimp -proj -iota -eta only
  apply setRx_canon
  exact h

theorem settleAll_canon : ∀ x0, Mach.canon x0 → Mach.canon (settleAll x0) := by
  intro x0 h
  unfold settleAll
  apply each_canon
  · intro a1_0 m1 h1
    refine canon_ite ?_ ?_
    · exact h1
    · apply settleBridge_canon
      exact h1
  · exact h

theorem ulFlush_canon (m : Mach) (h : m.canon) : (ulFlush m).canon := ulForm_canon _ _ _ h

theorem overloadEnd_canon : ∀ x0 x1, Mach.canon x1 → Mach.canon (overloadEnd x0 x1) := by
  intro x0 x1 h
  unfold overloadEnd
  dsimp -proj -iota -eta only
  refine canon_ite ?_ ?_
  · exact h
  · refine canon_ite ?_ ?_
    · apply fesNow_canon
      apply setEv_canon
      apply setRx_canon
      exact h
    · apply setRx_canon
      exact h

theorem inputBridgeWrite_canon : ∀ x0 x1 x2, Mach.canon x2 → Mach.canon (inputBridgeWrite x0 x1 x2) := by
  intro x0 x1 x2 h
  unfold inputBridgeWrite
  refine canon_ite ?_ ?_
  · exact h
  · apply bridgeWrite_canon
    apply takeN_canon
    exact h

theorem rxWatch_canon : ∀ x0 x1 x2, Mach.canon x2 → Mach.canon (rxWatch x0 x1 x2) := by
  intro x0 x1 x2 h
  unfold rxWatch
  dsimp -proj -iota -eta only
  apply setRx_canon
  exact h

theorem adcSample_canon : ∀ x0 x1 x2, Mach.canon x2 → Mach.canon (adcSample x0 x1 x2) := by
  intro x0 x1 x2 h
  unfold adcSample
  dsimp -proj -iota -eta only
  refine canon_ite ?_ ?_
  · exact h
  · apply setEvIf_canon
    split
    · refine canon_ite ?_ ?_
      · apply rxSkip_canon
        apply setRx_canon
        exact h
      · apply rxWatch_canon
        refine canon_ite ?_ ?_
        · apply cnt_canon
          apply setRx_canon
          exact h
        · apply setRx_canon
          exact h
    · apply setRx_canon
      exact h

end Sys2Proof.Machine
end

