-- ==== Sys2Proof/Laws/CanonMesh.lean ====
section
/-! SUPPORT. The operations of Machine/Mesh.lean keep the registers and the reservoir in canonical form. -/

namespace Sys2Proof.Machine

set_option maxRecDepth 8000

theorem synForm_canon : ∀ x0 x1 x2 x3, Mach.canon x3 → Mach.canon (synForm x0 x1 x2 x3).2 := by
  intro x0 x1 x2 x3 h
  unfold synForm
  dsimp -proj -iota -eta only
  refine canon_ite_snd ?_ ?_
  · refine canon_mkp ?_
    apply setEv_canon
    exact h
  · refine canon_ite_snd ?_ ?_
    · refine canon_mkp ?_
      exact h
    · refine canon_mkp ?_
      apply setEvIf_canon
      exact h

theorem setMesh_canon : ∀ x0 x1, Mach.canon x1 → Mach.canon (setMesh x0 x1) := by
  intro x0 x1 h
  unfold setMesh
  refine canon_mk (canon_of ?_)
  exact h

theorem synGrid_canon : ∀ x0 x1, Mach.canon x1 → Mach.canon (synGrid x0 x1) := by
  intro x0 x1 h
  unfold synGrid
  dsimp -proj -iota -eta only
  apply each_canon
  · intro a1_0 m1 h1
    refine canon_ite ?_ ?_
    · exact h1
    · apply setMesh_canon
      apply synForm_canon
      exact h1
  · apply setMesh_canon
    exact h

theorem putAct_canon : ∀ x0 x1 x2 x3, Mach.canon x3 → Mach.canon (putAct x0 x1 x2 x3) := by
  intro x0 x1 x2 x3 h
  unfold putAct
  apply setMesh_canon
  exact h

theorem refreshBeams_canon : ∀ x0, Mach.canon x0 → Mach.canon (refreshBeams x0) := by
  intro x0 h
  unfold refreshBeams
  apply each_canon
  · intro a1_0 m1 h1
    apply wr_canon
    apply wr_canon
    exact h1
  · exact h

theorem showBeams_canon : ∀ x0, Mach.canon x0 → Mach.canon (showBeams x0) := by
  intro x0 h
  unfold showBeams
  dsimp -proj -iota -eta only
  apply refreshBeams_canon
  refine canon_ite ?_ ?_
  · apply fset_canon
    apply fset_canon
    apply fset_canon
    exact h
  · apply fset_canon
    apply fset_canon
    exact h

theorem dropUnfed_canon : ∀ x0, Mach.canon x0 → Mach.canon (dropUnfed x0) := by
  intro x0 h
  unfold dropUnfed
  dsimp -proj -iota -eta only
  apply setMesh_canon
  exact h

theorem putColPlan_canon : ∀ x0 x1 x2, Mach.canon x2 → Mach.canon (putColPlan x0 x1 x2) := by
  intro x0 x1 x2 h
  unfold putColPlan
  apply setMesh_canon
  exact h

theorem planCol_canon : ∀ x0 x1 x2 x3, Mach.canon x3 → Mach.canon (planCol x0 x1 x2 x3) := by
  intro x0 x1 x2 x3 h
  unfold planCol
  apply putColPlan_canon
  exact h

theorem colGone_canon : ∀ x0 x1 x2, Mach.canon x2 → Mach.canon (colGone x0 x1 x2) := by
  intro x0 x1 x2 h
  unfold colGone
  apply setMesh_canon
  apply setRemap_canon
  exact h

theorem loseCol_canon : ∀ x0 x1 x2, Mach.canon x2 → Mach.canon (loseCol x0 x1 x2) := by
  intro x0 x1 x2 h
  unfold loseCol
  dsimp -proj -iota -eta only
  apply setMesh_canon
  exact h

theorem colWorn_canon : ∀ x0 x1 x2, Mach.canon x2 → Mach.canon (colWorn x0 x1 x2) := by
  intro x0 x1 x2 h
  unfold colWorn
  apply markWorn_canon
  apply colGone_canon
  apply showBeams_canon
  apply loseCol_canon
  apply endPlanned_canon
  exact h

theorem columnRemap_canon : ∀ x0 x1 x2, Mach.canon x2 → Mach.canon (columnRemap x0 x1 x2) := by
  intro x0 x1 x2 h
  unfold columnRemap
  split
  · refine canon_ite ?_ ?_
    · refine canon_ite ?_ ?_
      · apply planCol_canon
        exact h
      · refine canon_ite ?_ ?_
        · exact h
        · apply colWorn_canon
          exact h
    · exact h
  · exact h

theorem putSh_canon : ∀ x0 x1 x2 x3, Mach.canon x3 → Mach.canon (putSh x0 x1 x2 x3) := by
  intro x0 x1 x2 x3 h
  unfold putSh
  apply setMesh_canon
  exact h

theorem lateDescs_canon (s : Sched) (m : Mach) (h : m.canon) : (lateDescs s m).canon := by
  unfold lateDescs
  refine canon_ite h ?_
  have h1 : ∀ (c x y : Bool) (l : List SchedDesc) (z : SchedDesc → Option BeamW),
      (setEvIf x BMU_EVENTS.beam_range (each l (fun d t => (if c then putAct else putSh) y d.b (z d) t) m)).canon := by
    intro c x y l z
    refine setEvIf_canon _ _ _ (each_canon _ _ (fun d t ht => ?_) _ h)
    cases c
    · exact putSh_canon _ _ _ _ ht
    · exact putAct_canon _ _ _ _ ht
  dsimp -proj -iota -eta only
  exact canon_ite (refreshBeams_canon _ (h1 _ _ _ _ _)) (h1 _ _ _ _ _)

theorem schedIn_canon : ∀ x0 x1, Mach.canon x1 → Mach.canon (schedIn x0 x1) := by
  intro x0 x1 h
  unfold schedIn
  dsimp -proj -iota -eta only
  refine canon_ite ?_ ?_
  · exact h
  · refine canon_ite ?_ ?_
    · refine canon_ite ?_ ?_
      · apply setEv_canon
        exact h
      · apply lateDescs_canon
        apply setEv_canon
        apply setEv_canon
        exact h
    · apply setMesh_canon
      apply mirror_canon
      exact h

theorem synAcq_canon : ∀ x0, Mach.canon x0 → Mach.canon (synAcq x0) := by
  intro x0 h
  unfold synAcq
  dsimp -proj -iota -eta only
  refine canon_ite ?_ ?_
  · apply setMesh_canon
    refine canon_ite ?_ ?_
    · apply setEvIf_canon
      exact h
    · apply setMesh_canon
      apply synGrid_canon
      apply setEvIf_canon
      exact h
  · apply setEv_canon
    apply setMesh_canon
    refine canon_ite ?_ ?_
    · apply setEvIf_canon
      exact h
    · apply setMesh_canon
      apply synGrid_canon
      apply setEvIf_canon
      exact h

theorem makeLook_canon : ∀ x0 x1 x2, Mach.canon x2 → Mach.canon (makeLook x0 x1 x2) := by
  intro x0 x1 x2 h
  unfold makeLook
  dsimp -proj -iota -eta only
  apply setEvIf_canon
  apply setMesh_canon
  refine canon_ite ?_ ?_
  · apply purgeId_canon
    exact h
  · exact h

theorem synPool_canon : ∀ x0 x1 x2 x3 x4, Mach.canon x4 → Mach.canon (synPool x0 x1 x2 x3 x4).2 := by
  intro x0 x1 x2 x3 x4 h
  unfold synPool
  dsimp -proj -iota -eta only
  refine canon_ite_snd ?_ ?_
  · refine canon_mkp ?_
    apply setEv_canon
    refine canon_ite ?_ ?_
    · apply readReport_canon
      exact h
    · exact h
  · apply synForm_canon
    exact h

theorem synDesc_canon : ∀ x0 x1 x2 x3, Mach.canon x3 → Mach.canon (synDesc x0 x1 x2 x3).2 := by
  intro x0 x1 x2 x3 h
  unfold synDesc
  dsimp -proj -iota -eta only
  refine canon_ite_snd ?_ ?_
  · refine canon_mkp ?_
    exact h
  · refine canon_ite_snd ?_ ?_
    · refine canon_mkp ?_
      apply setEv_canon
      exact h
    · refine canon_ite_snd ?_ ?_
      · refine canon_mkp ?_
        apply setEv_canon
        apply setEvIf_canon
        refine canon_ite ?_ ?_
        · apply makeLook_canon
          exact h
        · exact h
      · refine canon_mkp ?_
        refine canon_ite_snd ?_ ?_
        · split
          · refine canon_ite_snd ?_ ?_
            · apply synForm_canon
              apply setEvIf_canon
              refine canon_ite ?_ ?_
              · apply makeLook_canon
                exact h
              · exact h
            · refine canon_ite_snd ?_ ?_
              · apply synPool_canon
                apply setEvIf_canon
                refine canon_ite ?_ ?_
                · apply makeLook_canon
                  exact h
                · exact h
              · refine canon_mkp ?_
                apply setEv_canon
                apply setEvIf_canon
                refine canon_ite ?_ ?_
                · apply makeLook_canon
                  exact h
                · exact h
          · refine canon_mkp ?_
            apply setEvIf_canon
            refine canon_ite ?_ ?_
            · apply makeLook_canon
              exact h
            · exact h
        · refine canon_ite_snd ?_ ?_
          · apply synForm_canon
            apply setEvIf_canon
            refine canon_ite ?_ ?_
            · apply makeLook_canon
              exact h
            · exact h
          · apply synPool_canon
            apply setEvIf_canon
            refine canon_ite ?_ ?_
            · apply makeLook_canon
              exact h
            · exact h

theorem synTraffic_canon : ∀ x0 x1 x2, Mach.canon x2 → Mach.canon (synTraffic x0 x1 x2) := by
  intro x0 x1 x2 h
  unfold synTraffic
  dsimp -proj -iota -eta only
  apply each_canon
  · intro a1_0 m1 h1
    apply putSh_canon
    apply synDesc_canon
    exact h1
  · exact h

theorem synthesise_canon : ∀ x0, Mach.canon x0 → Mach.canon (synthesise x0) := by
  intro x0 h
  unfold synthesise
  dsimp -proj -iota -eta only
  refine canon_ite ?_ ?_
  · refine canon_ite ?_ ?_
    · apply synAcq_canon
      apply setMesh_canon
      apply setEvIf_canon
      exact h
    · refine canon_ite ?_ ?_
      · apply setMesh_canon
        apply setEvIf_canon
        exact h
      · apply synTraffic_canon
        apply setMesh_canon
        apply setEvIf_canon
        exact h
  · apply synTraffic_canon
    refine canon_ite ?_ ?_
    · apply synAcq_canon
      apply setMesh_canon
      apply setEvIf_canon
      exact h
    · refine canon_ite ?_ ?_
      · apply setMesh_canon
        apply setEvIf_canon
        exact h
      · apply synTraffic_canon
        apply setMesh_canon
        apply setEvIf_canon
        exact h

theorem scheduleDeadline_canon : ∀ x0, Mach.canon x0 → Mach.canon (scheduleDeadline x0) := by
  intro x0 h
  unfold scheduleDeadline
  refine canon_ite ?_ ?_
  · apply synthesise_canon
    apply advanceTo_canon
    exact h
  · exact h

theorem bindCol_canon : ∀ x0 x1 x2, Mach.canon x2 → Mach.canon (bindCol x0 x1 x2) := by
  intro x0 x1 x2 h
  unfold bindCol
  apply useSpare_canon
  apply fset_canon
  apply setRemap_canon
  exact h

theorem applyBmuCfg_canon : ∀ x0 x1, Mach.canon x1 → Mach.canon (applyBmuCfg x0 x1) := by
  intro x0 x1 h
  unfold applyBmuCfg
  refine canon_ite ?_ ?_
  · apply wr_canon
    exact h
  · apply wr_canon
    apply dlFlush_canon
    apply ulFlush_canon
    exact h

theorem bmuCfgWrite_canon : ∀ x0 x1, Mach.canon x1 → Mach.canon (bmuCfgWrite x0 x1) := by
  intro x0 x1 h
  unfold bmuCfgWrite
  dsimp -proj -iota -eta only
  refine canon_ite ?_ ?_
  · apply mirror_canon
    refine canon_ite ?_ ?_
    · apply setStage_canon
      exact h
    · apply applyBmuCfg_canon
      exact h
  · apply setEv_canon
    exact h

theorem meshSwap_canon : ∀ x0, Mach.canon x0 → Mach.canon (meshSwap x0) := by
  intro x0 h
  unfold meshSwap
  dsimp -proj -iota -eta only
  apply showBeams_canon
  apply fset_canon
  apply fset_canon
  refine canon_ite ?_ ?_
  · apply dropUnfed_canon
    apply setMesh_canon
    exact h
  · refine canon_mk (canon_of ?_)
    apply dropUnfed_canon
    apply setMesh_canon
    exact h

theorem dropAdmits_canon : ∀ x0, Mach.canon x0 → Mach.canon (dropAdmits x0) := by
  intro x0 h
  unfold dropAdmits
  apply setMesh_canon
  exact h

theorem refreshExcl_canon : ∀ x0, Mach.canon x0 → Mach.canon (refreshExcl x0) := by
  intro x0 h
  unfold refreshExcl
  dsimp -proj -iota -eta only
  apply setMesh_canon
  apply dropAdmits_canon
  apply setEvIf_canon
  apply setEvIf_canon
  apply wr_canon
  apply wr_canon
  apply wr_canon
  apply wr_canon
  exact h

theorem columnFail_canon : ∀ x0 x1 x2, Mach.canon x2 → Mach.canon (columnFail x0 x1 x2) := by
  intro x0 x1 x2 h
  unfold columnFail
  dsimp -proj -iota -eta only
  refine canon_ite ?_ ?_
  · exact h
  · refine canon_ite ?_ ?_
    · apply planCol_canon
      apply showBeams_canon
      apply loseCol_canon
      apply dropPlanned_canon
      exact h
    · apply noSpare_canon
      apply colGone_canon
      apply showBeams_canon
      apply loseCol_canon
      apply dropPlanned_canon
      exact h

theorem dirLookCmd_canon : ∀ x0 x1 x2, Mach.canon x2 → Mach.canon (dirLookCmd x0 x1 x2) := by
  intro x0 x1 x2 h
  unfold dirLookCmd
  split
  · apply makeLook_canon
    exact h
  · exact h

theorem exclusionMask_canon (d : Dir) (n : Fin 64) (m : Mach) (h : m.canon) : (exclusionMask d n m).canon := by
  have h1 : ∀ f : Fld, (showBeams (dropUnfed (setEv BMU_EVENTS.excl_new (fset f 1 m)))).canon := fun f =>
    showBeams_canon _ (dropUnfed_canon _ (setEv_canon _ _ (fset_canon _ _ _ h)))
  unfold exclusionMask
  dsimp -proj -iota -eta only
  exact canon_ite (canon_ite (ulForm_canon _ _ _ (setMesh_canon _ _ (h1 _))) (h1 _)) h

theorem endColPlan_canon : ∀ x0 x1, Mach.canon x1 → Mach.canon (endColPlan x0 x1) := by
  intro x0 x1 h
  unfold endColPlan
  dsimp -proj -iota -eta only
  split
  · exact h
  · refine canon_ite ?_ ?_
    · apply putColPlan_canon
      exact h
    · refine canon_ite ?_ ?_
      · apply plannedDone_canon
        apply setEv_canon
        apply bindCol_canon
        apply putColPlan_canon
        exact h
      · apply hardDone_canon
        apply setEv_canon
        apply bindCol_canon
        apply putColPlan_canon
        exact h

end Sys2Proof.Machine
end

