-- ==== Sys2Proof/Laws/CanonAcquire.lean ====
section
/-! SUPPORT. The operations of Machine/Acquire.lean keep the registers and the reservoir in canonical form. -/

namespace Sys2Proof.Machine

set_option maxRecDepth 8000

theorem endJob_canon : ∀ x0 x1, Mach.canon x1 → Mach.canon (endJob x0 x1) := by
  intro x0 x1 h
  unfold endJob
  dsimp -proj -iota -eta only
  apply sendNat_canon
  apply setEvIf_canon
  apply setEvIf_canon
  apply wr_canon
  apply fset_canon
  apply fset_canon
  refine canon_mk (canon_of ?_)
  exact h

theorem acqEnd_canon : ∀ x0, Mach.canon x0 → Mach.canon (acqEnd x0) := by
  intro x0 h
  unfold acqEnd
  dsimp -proj -iota -eta only
  refine canon_ite ?_ ?_
  · apply fset_canon
    apply fset_canon
    apply setEvIf_canon
    apply setEvIf_canon
    refine canon_mk (canon_of ?_)
    split
    · apply endJob_canon
      exact h
    · exact h
  · exact h

theorem slotReport_canon : ∀ x0, Mach.canon x0 → Mach.canon (slotReport x0) := by
  intro x0 h
  unfold slotReport
  split
  · exact h
  · refine canon_ite ?_ ?_
    · apply endJob_canon
      exact h
    · exact h

theorem acqSlotEnd_canon : ∀ x0, Mach.canon x0 → Mach.canon (acqSlotEnd x0) := by
  intro x0 h
  unfold acqSlotEnd
  refine canon_ite ?_ ?_
  · apply acqEnd_canon
    apply advanceTo_canon
    exact h
  · exact h

end Sys2Proof.Machine
end

