-- ==== Sys2Proof/Laws/CanonTransmit.lean ====
section
/-! SUPPORT. The operations of Machine/Transmit.lean keep the registers and the reservoir in canonical form. -/

namespace Sys2Proof.Machine

set_option maxRecDepth 8000

theorem txCfgWrite_canon : ∀ x0 x1 x2, Mach.canon x2 → Mach.canon (txCfgWrite x0 x1 x2) := by
  intro x0 x1 x2 h
  unfold txCfgWrite
  dsimp -proj -iota -eta only
  refine canon_ite ?_ ?_
  · apply setEv_canon
    exact h
  · apply mirror_canon
    refine canon_ite ?_ ?_
    · apply wr_canon
      exact h
    · apply setStage_canon
      exact h

theorem applyLehr_canon : ∀ x0 x1, Mach.canon x1 → Mach.canon (applyLehr x0 x1) := by
  intro x0 x1 h
  unfold applyLehr
  apply fset_canon
  exact h

theorem applyGain_canon : ∀ x0 x1, Mach.canon x1 → Mach.canon (applyGain x0 x1) := by
  intro x0 x1 h
  unfold applyGain
  dsimp -proj -iota -eta only
  apply fset_canon
  apply fset_canon
  exact h

theorem takePlain_canon : ∀ x0 x1, Mach.canon x1 → Mach.canon (takePlain x0 x1) := by
  intro x0 x1 h
  unfold takePlain
  split
  · apply wr_canon
    apply setStage_canon
    exact h
  · exact h

theorem txAttWrite_canon : ∀ x0 x1 x2, Mach.canon x2 → Mach.canon (txAttWrite x0 x1 x2) := by
  intro x0 x1 x2 h
  unfold txAttWrite
  dsimp -proj -iota -eta only
  refine canon_ite ?_ ?_
  · apply setEv_canon
    exact h
  · apply mirror_canon
    refine canon_ite ?_ ?_
    · apply wr_canon
      exact h
    · apply setStage_canon
      exact h

theorem applyTxCfg_canon : ∀ x0 x1 x2, Mach.canon x2 → Mach.canon (applyTxCfg x0 x1 x2) := by
  intro x0 x1 x2 h
  unfold applyTxCfg
  dsimp -proj -iota -eta only
  split
  · exact h
  · refine canon_ite ?_ ?_
    · apply wr_canon
      apply setStage_canon
      exact h
    · refine canon_ite ?_ ?_
      · apply setEv_canon
        apply wr_canon
        apply setStage_canon
        exact h
      · exact h

theorem powerSlot_canon : ∀ x0 x1, Mach.canon x1 → Mach.canon (powerSlot x0 x1) := by
  intro x0 x1 h
  unfold powerSlot
  dsimp -proj -iota -eta only
  refine canon_ite ?_ ?_
  · apply applyLehr_canon
    exact h
  · apply each_canon
    · intro a1_0 m1 h1
      apply applyGain_canon
      exact h1
    · apply setEvIf_canon
      apply fset_canon
      apply fset_canon
      apply applyLehr_canon
      exact h

end Sys2Proof.Machine
end

