-- ==== Sys2Proof/Laws/CanonPredist.lean ====
section
/-! SUPPORT. The operations of Machine/Predist.lean keep the registers and the reservoir in canonical form. -/

namespace Sys2Proof.Machine

set_option maxRecDepth 8000

theorem noteConv_canon : ∀ x0 x1 x2, Mach.canon x2 → Mach.canon (noteConv x0 x1 x2) := by
  intro x0 x1 x2 h
  unfold noteConv
  dsimp -proj -iota -eta only
  refine canon_ite ?_ ?_
  · apply fset_canon
    apply setPd_canon
    exact h
  · refine canon_ite ?_ ?_
    · apply fset_canon
      apply setPd_canon
      exact h
    · apply setPd_canon
      exact h

theorem capClosed_canon : ∀ x0 x1 x2, Mach.canon x2 → Mach.canon (capClosed x0 x1 x2).2 := by
  intro x0 x1 x2 h
  unfold capClosed
  dsimp -proj -iota -eta only
  refine canon_mkp ?_
  apply settleBridge_canon
  apply advanceTo_canon
  exact h

theorem setPdCap_canon : ∀ x0 x1 x2, Mach.canon x2 → Mach.canon (setPdCap x0 x1 x2) := by
  intro x0 x1 x2 h
  unfold setPdCap
  refine canon_mk (canon_of ?_)
  exact h

theorem freePdCap_canon : ∀ x0 x1, Mach.canon x1 → Mach.canon (freePdCap x0 x1) := by
  intro x0 x1 h
  unfold freePdCap
  split
  · apply setUse_canon
    apply setPdCap_canon
    exact h
  · exact h

theorem pdCapEnd_canon : ∀ x0 x1 x2 x3, Mach.canon x3 → Mach.canon (pdCapEnd x0 x1 x2 x3) := by
  intro x0 x1 x2 x3 h
  unfold pdCapEnd
  dsimp -proj -iota -eta only
  split
  · exact h
  · refine canon_ite ?_ ?_
    · exact h
    · refine canon_ite ?_ ?_
      · apply freePdCap_canon
        apply fcnt_canon
        apply capClosed_canon
        exact h
      · refine canon_ite ?_ ?_
        · apply freePdCap_canon
          apply capClosed_canon
          exact h
        · apply setPdCap_canon
          apply capClosed_canon
          exact h

theorem dropCycles_canon : ∀ x0 x1, Mach.canon x1 → Mach.canon (dropCycles x0 x1) := by
  intro x0 x1 h
  unfold dropCycles
  apply each_canon
  · intro a1_0 m1 h1
    split
    · refine canon_ite ?_ ?_
      · apply freePdCap_canon
        exact h1
      · exact h1
    · exact h1
  · exact h

theorem bindEngine_canon : ∀ x0 x1, Mach.canon x1 → Mach.canon (bindEngine x0 x1) := by
  intro x0 x1 h
  unfold bindEngine
  dsimp -proj -iota -eta only
  apply useSpare_canon
  apply fset_canon
  apply fset_canon
  apply setRemap_canon
  exact h

theorem engineSwitch_canon : ∀ x0 x1, Mach.canon x1 → Mach.canon (engineSwitch x0 x1) := by
  intro x0 x1 h
  unfold engineSwitch
  dsimp -proj -iota -eta only
  refine canon_ite ?_ ?_
  · apply plannedDone_canon
    apply setEv_canon
    apply bindEngine_canon
    apply setPd_canon
    exact h
  · apply setPd_canon
    exact h

theorem refreshIdle_canon : ∀ x0 x1, Mach.canon x1 → Mach.canon (refreshIdle x0 x1) := by
  intro x0 x1 h
  unfold refreshIdle
  apply fsetB_canon
  exact h

theorem doSwap_canon : ∀ x0 x1, Mach.canon x1 → Mach.canon (doSwap x0 x1) := by
  intro x0 x1 h
  unfold doSwap
  apply setEv_canon
  apply refreshIdle_canon
  apply fset_canon
  exact h

theorem mirSwapDue_canon : ∀ x0 x1, Mach.canon x1 → Mach.canon (mirSwapDue x0 x1) := by
  intro x0 x1 h
  unfold mirSwapDue
  dsimp -proj -iota -eta only
  split
  · refine canon_ite ?_ ?_
    · apply doSwap_canon
      apply setPd_canon
      exact h
    · exact h
  · exact h

theorem mirSwapIn_canon : ∀ x0 x1 x2, Mach.canon x2 → Mach.canon (mirSwapIn x0 x1 x2) := by
  intro x0 x1 x2 h
  unfold mirSwapIn
  dsimp -proj -iota -eta only
  apply mirSwapDue_canon
  apply setPd_canon
  exact h

theorem engineDead_canon : ∀ x0 x1, Mach.canon x1 → Mach.canon (engineDead x0 x1) := by
  intro x0 x1 h
  unfold engineDead
  dsimp -proj -iota -eta only
  refine canon_ite ?_ ?_
  · apply fset_canon
    apply setPd_canon
    apply setRemap_canon
    exact h
  · apply failPath_canon
    apply setPd_canon
    apply setRemap_canon
    exact h

theorem engineLost_canon : ∀ x0 x1, Mach.canon x1 → Mach.canon (engineLost x0 x1) := by
  intro x0 x1 h
  unfold engineLost
  apply engineDead_canon
  apply noSpare_canon
  exact h

theorem tellSwap_canon : ∀ x0 x1 x2, Mach.canon x2 → Mach.canon (tellSwap x0 x1 x2) := by
  intro x0 x1 x2 h
  unfold tellSwap
  dsimp -proj -iota -eta only
  apply mirror_canon
  apply setPd_canon
  exact h

theorem swapTold_canon : ∀ x0 x1, Mach.canon x1 → Mach.canon (swapTold x0 x1) := by
  intro x0 x1 h
  unfold swapTold
  dsimp -proj -iota -eta only
  apply setPd_canon
  refine canon_ite ?_ ?_
  · exact h
  · apply tellSwap_canon
    refine canon_ite ?_ ?_
    · apply tellSwap_canon
      exact h
    · exact h

theorem holdPath_canon : ∀ x0 x1, Mach.canon x1 → Mach.canon (holdPath x0 x1) := by
  intro x0 x1 h
  unfold holdPath
  dsimp -proj -iota -eta only
  apply fset_canon
  apply setPd_canon
  exact h

theorem refreshSwap_canon : ∀ x0 x1, Mach.canon x1 → Mach.canon (refreshSwap x0 x1) := by
  intro x0 x1 h
  unfold refreshSwap
  dsimp -proj -iota -eta only
  refine canon_ite ?_ ?_
  · apply tellSwap_canon
    apply fsetB_canon
    exact h
  · refine canon_ite ?_ ?_
    · apply tellSwap_canon
      apply fsetB_canon
      exact h
    · apply fsetB_canon
      exact h

theorem swapSlot_canon (n : Nat) (user : Bool) (m : Mach) (h : m.canon) : (swapSlot n user m).canon := by
  have h0 : ∀ b x, (setPd n x (setEvIf b (QUAD_PD_EVENTS.pd_err n) m)).canon := fun b x =>
    setPd_canon _ _ _ (setEvIf_canon _ _ _ h)
  unfold swapSlot
  refine refreshSwap_canon _ _ (canon_ite ?_ (h0 _ _))
  split
  · exact swapTold_canon _ _ (doSwap_canon _ _ (canon_ite (setPd_canon _ _ _ (h0 _ _)) (h0 _ _)))
  · have h1 := fun f b x => setEv_canon f _ (h0 b x)
    exact canon_ite (canon_ite (holdPath_canon _ _ (setPd_canon _ _ _ (h1 _ _ _))) (setPd_canon _ _ _ (h1 _ _ _))) (h1 _ _ _)

theorem applySwapReg_canon : ∀ x0 x1 x2, Mach.canon x2 → Mach.canon (applySwapReg x0 x1 x2) := by
  intro x0 x1 x2 h
  unfold applySwapReg
  apply each_canon
  · intro a1_0 m1 h1
    apply swapSlot_canon
    exact h1
  · apply wr_canon
    apply setStage_canon
    exact h

theorem swapRegWrite_canon : ∀ x0 x1 x2, Mach.canon x2 → Mach.canon (swapRegWrite x0 x1 x2) := by
  intro x0 x1 x2 h
  unfold swapRegWrite
  dsimp -proj -iota -eta only
  refine canon_ite ?_ ?_
  · apply applySwapReg_canon
    exact h
  · apply each_canon
    · intro a1_0 m1 h1
      apply refreshSwap_canon
      exact h1
    · apply setStage_canon
      exact h

theorem writeIdle_canon : ∀ x0 x1 x2, Mach.canon x2 → Mach.canon (writeIdle x0 x1 x2) := by
  intro x0 x1 x2 h
  unfold writeIdle
  dsimp -proj -iota -eta only
  apply refreshIdle_canon
  apply setLut_canon
  apply each_canon
  · intro a1_0 m1 h1
    apply setLut_canon
    exact h1
  · exact h

theorem bumpIdx_canon : ∀ x0 x1, Mach.canon x1 → Mach.canon (bumpIdx x0 x1) := by
  intro x0 x1 h
  unfold bumpIdx
  apply fset_canon
  exact h

theorem mirrorBank_canon : ∀ x0 x1, Mach.canon x1 → Mach.canon (mirrorBank x0 x1) := by
  intro x0 x1 h
  unfold mirrorBank
  refine canon_ite ?_ ?_
  · apply mirror_canon
    exact h
  · exact h

theorem lutWrite_canon : ∀ x0 x1 x2, Mach.canon x2 → Mach.canon (lutWrite x0 x1 x2) := by
  intro x0 x1 x2 h
  unfold lutWrite
  dsimp -proj -iota -eta only
  refine canon_ite ?_ ?_
  · apply setEv_canon
    apply bumpIdx_canon
    exact h
  · apply mirrorBank_canon
    apply refreshIdle_canon
    apply setLut_canon
    apply bumpIdx_canon
    exact h

theorem checkKept_canon : ∀ x0 x1, Mach.canon x1 → Mach.canon (checkKept x0 x1) := by
  intro x0 x1 h
  unfold checkKept
  dsimp -proj -iota -eta only
  refine canon_ite ?_ ?_
  · apply setPd_canon
    apply readReport_canon
    exact h
  · exact h

theorem requestBank_canon : ∀ x0 x1 x2, Mach.canon x2 → Mach.canon (requestBank x0 x1 x2) := by
  intro x0 x1 x2 h
  unfold requestBank
  dsimp -proj -iota -eta only
  apply refreshSwap_canon
  apply setPd_canon
  apply mirrorBank_canon
  apply writeIdle_canon
  exact h

theorem keepBank_canon : ∀ x0 x1 x2, Mach.canon x2 → Mach.canon (keepBank x0 x1 x2) := by
  intro x0 x1 x2 h
  unfold keepBank
  dsimp -proj -iota -eta only
  apply resWrite_canon
  apply fset_canon
  apply setPd_canon
  exact h

theorem pdCycle_canon : ∀ x0 x1 x2 x3, Mach.canon x3 → Mach.canon (pdCycle x0 x1 x2 x3) := by
  intro x0 x1 x2 x3 h
  unfold pdCycle
  dsimp -proj -iota -eta only
  split
  · exact h
  · refine canon_ite ?_ ?_
    · exact h
    · refine canon_ite ?_ ?_
      · apply requestBank_canon
        apply keepBank_canon
        apply noteConv_canon
        apply fset_canon
        apply fcnt_canon
        apply checkKept_canon
        apply freePdCap_canon
        exact h
      · refine canon_ite ?_ ?_
        · apply holdPath_canon
          apply setEv_canon
          apply requestBank_canon
          apply noteConv_canon
          apply fset_canon
          apply fcnt_canon
          apply checkKept_canon
          apply freePdCap_canon
          exact h
        · apply requestBank_canon
          apply noteConv_canon
          apply fset_canon
          apply fcnt_canon
          apply checkKept_canon
          apply freePdCap_canon
          exact h

theorem swapBoundary_canon : ∀ x0 x1, Mach.canon x1 → Mach.canon (swapBoundary x0 x1) := by
  intro x0 x1 h
  unfold swapBoundary
  apply each_canon
  · intro a1_0 m1 h1
    apply mirSwapDue_canon
    exact h1
  · apply applySwapReg_canon
    exact h

theorem pdCapStart_canon : ∀ x0 x1, Mach.canon x1 → Mach.canon (pdCapStart x0 x1) := by
  intro x0 x1 h
  unfold pdCapStart
  dsimp -proj -iota -eta only
  refine canon_ite ?_ ?_
  · exact h
  · refine canon_ite ?_ ?_
    · apply setEv_canon
      apply setEvIf_canon
      apply advanceTo_canon
      exact h
    · apply setUse_canon
      apply setPdCap_canon
      apply advanceTo_canon
      exact h

theorem enginePlanned_canon : ∀ x0 x1, Mach.canon x1 → Mach.canon (enginePlanned x0 x1) := by
  intro x0 x1 h
  unfold enginePlanned
  dsimp -proj -iota -eta only
  refine canon_ite ?_ ?_
  · refine canon_ite ?_ ?_
    · apply setPd_canon
      exact h
    · apply engineSwitch_canon
      exact h
  · exact h

theorem engineTakeover_canon : ∀ x0 x1, Mach.canon x1 → Mach.canon (engineTakeover x0 x1) := by
  intro x0 x1 h
  unfold engineTakeover
  dsimp -proj -iota -eta only
  split
  · exact h
  · apply hardDone_canon
    apply bindEngine_canon
    apply setPd_canon
    exact h

theorem applyScale_canon : ∀ x0 x1, Mach.canon x1 → Mach.canon (applyScale x0 x1) := by
  intro x0 x1 h
  unfold applyScale
  dsimp -proj -iota -eta only
  apply setEvIf_canon
  apply fset_canon
  exact h

theorem substBoundary_canon : ∀ x0 x1, Mach.canon x1 → Mach.canon (substBoundary x0 x1) := by
  intro x0 x1 h
  unfold substBoundary
  refine canon_ite ?_ ?_
  · apply engineSwitch_canon
    exact h
  · exact h

theorem lutRead_canon : ∀ x0 x1, Mach.canon x1 → Mach.canon (lutRead x0 x1).2 := by
  intro x0 x1 h
  unfold lutRead
  dsimp -proj -iota -eta only
  refine canon_ite_snd ?_ ?_
  · refine canon_mkp ?_
    apply bumpIdx_canon
    apply nextFree_canon
    exact h
  · refine canon_mkp ?_
    apply bumpIdx_canon
    exact h

theorem engineFail_canon : ∀ x0 x1, Mach.canon x1 → Mach.canon (engineFail x0 x1) := by
  intro x0 x1 h
  unfold engineFail
  dsimp -proj -iota -eta only
  refine canon_ite ?_ ?_
  · exact h
  · refine canon_ite ?_ ?_
    · apply setPd_canon
      refine canon_ite ?_ ?_
      · apply fset_canon
        apply setEv_canon
        apply dropPlanned_canon
        exact h
      · apply setEv_canon
        apply dropPlanned_canon
        exact h
    · apply engineLost_canon
      refine canon_ite ?_ ?_
      · apply fset_canon
        apply setEv_canon
        apply dropPlanned_canon
        exact h
      · apply setEv_canon
        apply dropPlanned_canon
        exact h

end Sys2Proof.Machine
end

