-- ==== Sys2Proof/Laws/CanonSlices.lean ====
section
/-! SUPPORT. The operations of Machine/Slices.lean keep the registers and the reservoir in canonical form. -/

namespace Sys2Proof.Machine

set_option maxRecDepth 8000

theorem rxSettle_canon : ∀ x0 x1 x2, Mach.canon x2 → Mach.canon (rxSettle x0 x1 x2) := by
  intro x0 x1 x2 h
  unfold rxSettle
  dsimp -proj -iota -eta only
  apply setRx_canon
  exact h

theorem applyRxAtten_canon : ∀ x0 x1 x2, Mach.canon x2 → Mach.canon (applyRxAtten x0 x1 x2) := by
  intro x0 x1 x2 h
  unfold applyRxAtten
  dsimp -proj -iota -eta only
  apply rxSettle_canon
  apply wr_canon
  exact h

theorem stageQuad_canon (q a : Nat) (v : W) (f : W → Mach → Mach)
    (hf : ∀ (v : W) (m : Mach), m.canon → (f v m).canon) (m : Mach) (h : m.canon) : (stageQuad q a v f m).canon := by
  unfold stageQuad
  exact canon_ite (hf _ _ h) (setStage_canon _ _ _ h)

theorem applyRxCtrl_canon : ∀ x0 x1 x2, Mach.canon x2 → Mach.canon (applyRxCtrl x0 x1 x2) := by
  intro x0 x1 x2 h
  unfold applyRxCtrl
  dsimp -proj -iota -eta only
  apply rxSettle_canon
  apply fset_canon
  apply wr_canon
  exact h

theorem rxCtrlWrite_canon : ∀ x0 x1 x2, Mach.canon x2 → Mach.canon (rxCtrlWrite x0 x1 x2) := by
  intro x0 x1 x2 h
  unfold rxCtrlWrite
  dsimp -proj -iota -eta only
  apply stageQuad_canon
  · intro a1_0 m1 h1
    apply applyRxCtrl_canon
    exact h1
  · apply setEvIf_canon
    exact h

theorem remapSettle_canon : ∀ x0 x1, Mach.canon x1 → Mach.canon (remapSettle x0 x1) := by
  intro x0 x1 h
  unfold remapSettle
  refine canon_ite ?_ ?_
  · exact h
  · apply rxSettle_canon
    exact h

theorem recordSlices_canon : ∀ x0 x1, Mach.canon x1 → Mach.canon (recordSlices x0 x1) := by
  intro x0 x1 h
  unfold recordSlices
  dsimp -proj -iota -eta only
  apply setRemap_canon
  exact h

theorem mapSlice_canon : ∀ x0 x1 x2, Mach.canon x2 → Mach.canon (mapSlice x0 x1 x2) := by
  intro x0 x1 x2 h
  unfold mapSlice
  apply useSpare_canon
  apply recordSlices_canon
  apply fset_canon
  apply fset_canon
  exact h

theorem wantSliceTrick_canon : ∀ x0 x1, Mach.canon x1 → Mach.canon (wantSliceTrick x0 x1) := by
  intro x0 x1 h
  unfold wantSliceTrick
  split
  · apply fset_canon
    apply wantTrick_canon
    exact h
  · apply wantTrick_canon
    exact h

theorem spareUntrimmed_canon : ∀ x0 x1, Mach.canon x1 → Mach.canon (spareUntrimmed x0 x1) := by
  intro x0 x1 h
  unfold spareUntrimmed
  apply wantSliceTrick_canon
  apply fset_canon
  exact h

theorem sliceRemapDone_canon : ∀ x0 x1 x2 x3 x4, Mach.canon x4 → Mach.canon (sliceRemapDone x0 x1 x2 x3 x4) := by
  intro x0 x1 x2 x3 x4 h
  unfold sliceRemapDone
  dsimp -proj -iota -eta only
  apply plannedDone_canon
  refine canon_ite ?_ ?_
  · apply spareUntrimmed_canon
    apply setEv_canon
    apply remapSettle_canon
    apply mapSlice_canon
    apply setRx_canon
    exact h
  · apply setEv_canon
    apply remapSettle_canon
    apply mapSlice_canon
    apply setRx_canon
    exact h

theorem sliceRemap_canon : ∀ x0 x1, Mach.canon x1 → Mach.canon (sliceRemap x0 x1) := by
  intro x0 x1 h
  unfold sliceRemap
  dsimp -proj -iota -eta only
  split
  · exact h
  · split
    · exact h
    · refine canon_ite ?_ ?_
      · apply sliceRemapDone_canon
        exact h
      · exact h

theorem noSlice_canon : ∀ x0 x1 x2, Mach.canon x2 → Mach.canon (noSlice x0 x1 x2) := by
  intro x0 x1 x2 h
  unfold noSlice
  dsimp -proj -iota -eta only
  split
  · apply failPath_canon
    apply setRx_canon
    apply setEv_canon
    exact h
  · apply setRx_canon
    apply setEv_canon
    exact h

theorem sliceNow_canon : ∀ x0 x1 x2, Mach.canon x2 → Mach.canon (sliceNow x0 x1 x2) := by
  intro x0 x1 x2 h
  unfold sliceNow
  dsimp -proj -iota -eta only
  split
  · exact h
  · refine canon_ite ?_ ?_
    · apply plannedOver_canon
      apply spareUntrimmed_canon
      apply setEv_canon
      apply remapSettle_canon
      apply mapSlice_canon
      apply setRx_canon
      exact h
    · apply noSlice_canon
      apply markWorn_canon
      exact h

theorem dropSlice_canon : ∀ x0 x1 x2, Mach.canon x2 → Mach.canon (dropSlice x0 x1 x2) := by
  intro x0 x1 x2 h
  unfold dropSlice
  dsimp -proj -iota -eta only
  refine canon_ite ?_ ?_
  · apply endPlanned_canon
    refine canon_mk (canon_of ?_)
    exact h
  · refine canon_mk (canon_of ?_)
    exact h

theorem slicesDue_canon : ∀ x0 x1, Mach.canon x1 → Mach.canon (slicesDue x0 x1) := by
  intro x0 x1 h
  unfold slicesDue
  refine canon_ite ?_ ?_
  · exact h
  · apply each_canon
    · intro a1_0 m1 h1
      apply each_canon
      · intro a2_0 m2 h2
        refine canon_ite ?_ ?_
        · apply sliceRemap_canon
          exact h2
        · apply sliceNow_canon
          apply dropSlice_canon
          exact h2
      · exact h1
    · exact h

theorem rxAttenWrite_canon : ∀ x0 x1 x2, Mach.canon x2 → Mach.canon (rxAttenWrite x0 x1 x2) := by
  intro x0 x1 x2 h
  unfold rxAttenWrite
  apply stageQuad_canon
  · intro a1_0 m1 h1
    apply applyRxAtten_canon
    exact h1
  · exact h

theorem sliceFail_canon : ∀ x0 x1 x2, Mach.canon x2 → Mach.canon (sliceFail x0 x1 x2) := by
  intro x0 x1 x2 h
  unfold sliceFail
  dsimp -proj -iota -eta only
  refine canon_ite ?_ ?_
  · apply hardDone_canon
    apply spareUntrimmed_canon
    apply setEv_canon
    apply mapSlice_canon
    refine canon_ite ?_ ?_
    · apply setRx_canon
      apply nextFree_canon
      apply dropSlice_canon
      exact h
    · apply dropSlice_canon
      exact h
  · apply noSlice_canon
    apply noSpare_canon
    apply setEv_canon
    apply dropSlice_canon
    exact h

end Sys2Proof.Machine
end

