-- ==== Sys2Proof/Laws/CanonToken.lean ====
section
/-! SUPPORT. The operations of Machine/Token.lean keep the registers and the reservoir in canonical form. -/

namespace Sys2Proof.Machine

set_option maxRecDepth 8000

theorem driveToken_canon : ∀ x0 x1 x2, Mach.canon x2 → Mach.canon (driveToken x0 x1 x2) := by
  intro x0 x1 x2 h
  unfold driveToken
  apply fsetB_canon
  refine canon_mk (canon_of ?_)
  exact h

theorem fesAll_canon : ∀ x0 x1, Mach.canon x1 → Mach.canon (fesAll x0 x1) := by
  intro x0 x1 h
  unfold fesAll
  apply each_canon
  · intro a1_0 m1 h1
    apply fesNow_canon
    exact h1
  · exact h

theorem tokenCheck_canon : ∀ x0 x1, Mach.canon x1 → Mach.canon (tokenCheck x0 x1) := by
  intro x0 x1 h
  unfold tokenCheck
  dsimp -proj -iota -eta only
  refine canon_ite ?_ ?_
  · apply setEvIf_canon
    apply fsetB_canon
    exact h
  · refine canon_ite ?_ ?_
    · apply setEvIf_canon
      apply driveToken_canon
      refine canon_mk (canon_of ?_)
      apply fsetB_canon
      exact h
    · apply fesAll_canon
      apply refreshPins_canon
      refine canon_ite ?_ ?_
      · apply fset_canon
        apply driveToken_canon
        apply fset_canon
        apply fset_canon
        refine canon_mk (canon_of ?_)
        apply fsetB_canon
        exact h
      · apply driveToken_canon
        apply fset_canon
        apply fset_canon
        refine canon_mk (canon_of ?_)
        apply fsetB_canon
        exact h

theorem wantToken_canon : ∀ x0, Mach.canon x0 → Mach.canon (wantToken x0) := by
  intro x0 h
  unfold wantToken
  dsimp -proj -iota -eta only
  refine canon_ite ?_ ?_
  · exact h
  · refine canon_mk (canon_of ?_)
    apply fsetB_canon
    exact h

theorem releaseToken_canon : ∀ x0 x1, Mach.canon x1 → Mach.canon (releaseToken x0 x1) := by
  intro x0 x1 h
  unfold releaseToken
  dsimp -proj -iota -eta only
  refine canon_ite ?_ ?_
  · apply logCode_canon
    apply fesAll_canon
    apply refreshPins_canon
    apply driveToken_canon
    apply fset_canon
    exact h
  · exact h

theorem tokenConflict_canon : ∀ x0, Mach.canon x0 → Mach.canon (tokenConflict x0) := by
  intro x0 h
  unfold tokenConflict
  dsimp -proj -iota -eta only
  refine canon_ite ?_ ?_
  · refine canon_mk (canon_of ?_)
    apply wantToken_canon
    apply releaseToken_canon
    apply setEv_canon
    apply fset_canon
    exact h
  · apply fset_canon
    exact h

theorem tokenTake_canon : ∀ x0, Mach.canon x0 → Mach.canon (tokenTake x0) := by
  intro x0 h
  unfold tokenTake
  dsimp -proj -iota -eta only
  refine canon_ite ?_ ?_
  · apply driveToken_canon
    apply fset_canon
    refine canon_mk (canon_of ?_)
    exact h
  · exact h

theorem stopTaking_canon : ∀ x0, Mach.canon x0 → Mach.canon (stopTaking x0) := by
  intro x0 h
  unfold stopTaking
  dsimp -proj -iota -eta only
  apply fset_canon
  refine canon_ite ?_ ?_
  · refine canon_mk (canon_of ?_)
    exact h
  · apply driveToken_canon
    refine canon_mk (canon_of ?_)
    exact h

theorem dropToken_canon : ∀ x0 x1, Mach.canon x1 → Mach.canon (dropToken x0 x1) := by
  intro x0 x1 h
  unfold dropToken
  apply stopTaking_canon
  apply releaseToken_canon
  exact h

theorem tokenBackoffEnd_canon : ∀ x0, Mach.canon x0 → Mach.canon (tokenBackoffEnd x0) := by
  intro x0 h
  unfold tokenBackoffEnd
  dsimp -proj -iota -eta only
  refine canon_mk (canon_of ?_)
  exact h

end Sys2Proof.Machine
end

