-- ==== Sys2Proof/Laws/CanonQuadOps.lean ====
section
/-! SUPPORT. The operations of Machine/QuadOps.lean keep the registers and the reservoir in canonical form. -/

namespace Sys2Proof.Machine

set_option maxRecDepth 8000

theorem writeLoop_canon : ∀ x0 x1 x2, Mach.canon x2 → Mach.canon (writeLoop x0 x1 x2) := by
  intro x0 x1 x2 h
  unfold writeLoop
  dsimp -proj -iota -eta only
  refine canon_ite ?_ ?_
  · apply setEv_canon
    exact h
  · apply fset_canon
    exact h

theorem refreshTrans_canon : ∀ x0 x1, Mach.canon x1 → Mach.canon (refreshTrans x0 x1) := by
  intro x0 x1 h
  unfold refreshTrans
  dsimp -proj -iota -eta only
  apply fsetB_canon
  exact h

theorem setPhase_canon : ∀ x0 x1 x2 x3, Mach.canon x3 → Mach.canon (setPhase x0 x1 x2 x3) := by
  intro x0 x1 x2 x3 h
  unfold setPhase
  dsimp -proj -iota -eta only
  apply refreshTrans_canon
  apply setQ_canon
  exact h

theorem setQuadState_canon : ∀ x0 x1 x2, Mach.canon x2 → Mach.canon (setQuadState x0 x1 x2) := by
  intro x0 x1 x2 h
  unfold setQuadState
  apply refreshTrans_canon
  apply refreshFes_canon
  apply fset_canon
  exact h

theorem enterRunning_canon : ∀ x0 x1, Mach.canon x1 → Mach.canon (enterRunning x0 x1) := by
  intro x0 x1 h
  unfold enterRunning
  dsimp -proj -iota -eta only
  apply setPhase_canon
  apply setQuadState_canon
  apply setQ_canon
  exact h

theorem gapInFlight_canon : ∀ x0 x1, Mach.canon x1 → Mach.canon (gapInFlight x0 x1) := by
  intro x0 x1 h
  unfold gapInFlight
  apply each_canon
  · intro a1_0 m1 h1
    apply gapBridge_canon
    apply gapBridge_canon
    exact h1
  · exact h

theorem forcedDisable_canon : ∀ x0, Mach.canon x0 → Mach.canon (forcedDisable x0) := by
  intro x0 h
  unfold forcedDisable
  apply setEv_canon
  exact h

theorem setDed_canon : ∀ x0 x1 x2, Mach.canon x2 → Mach.canon (setDed x0 x1 x2) := by
  intro x0 x1 x2 h
  unfold setDed
  dsimp -proj -iota -eta only
  refine canon_mk (canon_of ?_)
  exact h

theorem startDed_canon : ∀ x0 x1, Mach.canon x1 → Mach.canon (startDed x0 x1) := by
  intro x0 x1 h
  unfold startDed
  apply fset_canon
  apply setDed_canon
  exact h

theorem leaveRunning_canon : ∀ x0 x1 x2 x3 x4, Mach.canon x4 → Mach.canon (leaveRunning x0 x1 x2 x3 x4) := by
  intro x0 x1 x2 x3 x4 h
  unfold leaveRunning
  dsimp -proj -iota -eta only
  refine canon_ite ?_ ?_
  · refine canon_ite ?_ ?_
    · apply startDed_canon
      apply setPhase_canon
      apply gapInFlight_canon
      apply forcedDisable_canon
      apply slicesDue_canon
      apply fesNow_canon
      apply setQuadState_canon
      apply setQ_canon
      exact h
    · apply setPhase_canon
      apply gapInFlight_canon
      apply forcedDisable_canon
      apply slicesDue_canon
      apply fesNow_canon
      apply setQuadState_canon
      apply setQ_canon
      exact h
  · apply setPhase_canon
    apply slicesDue_canon
    apply fesNow_canon
    apply setQuadState_canon
    apply setQ_canon
    exact h

theorem dropDedTrick_canon : ∀ x0 x1, Mach.canon x1 → Mach.canon (dropDedTrick x0 x1) := by
  intro x0 x1 h
  unfold dropDedTrick
  dsimp -proj -iota -eta only
  refine canon_mk (canon_of ?_)
  exact h

theorem stopDed_canon : ∀ x0 x1, Mach.canon x1 → Mach.canon (stopDed x0 x1) := by
  intro x0 x1 h
  unfold stopDed
  apply fset_canon
  apply setDed_canon
  exact h

theorem leaveDed_canon : ∀ x0 x1 x2 x3 x4, Mach.canon x4 → Mach.canon (leaveDed x0 x1 x2 x3 x4) := by
  intro x0 x1 x2 x3 x4 h
  unfold leaveDed
  dsimp -proj -iota -eta only
  apply setPhase_canon
  apply setQuadState_canon
  apply stopDed_canon
  refine canon_ite ?_ ?_
  · apply forcedDisable_canon
    apply dropDedTrick_canon
    exact h
  · exact h

theorem quadStep_canon : ∀ x0 x1 x2 x3, Mach.canon x3 → Mach.canon (quadStep x0 x1 x2 x3) := by
  intro x0 x1 x2 x3 h
  unfold quadStep
  dsimp -proj -iota -eta only
  refine canon_ite ?_ ?_
  · apply setPhase_canon
    exact h
  · refine canon_ite ?_ ?_
    · apply leaveRunning_canon
      exact h
    · refine canon_ite ?_ ?_
      · refine canon_ite ?_ ?_
        · apply enterRunning_canon
          apply leaveDed_canon
          exact h
        · apply leaveDed_canon
          exact h
      · refine canon_ite ?_ ?_
        · apply setPhase_canon
          exact h
        · refine canon_ite ?_ ?_
          · apply enterRunning_canon
            exact h
          · apply startDed_canon
            apply setPhase_canon
            apply setQuadState_canon
            exact h

theorem refreshInternal_canon : ∀ x0, Mach.canon x0 → Mach.canon (refreshInternal x0) := by
  intro x0 h
  unfold refreshInternal
  dsimp -proj -iota -eta only
  apply each_canon
  · intro a1_0 m1 h1
    apply fsetB_canon
    exact h1
  · exact h

theorem refreshReqPending_canon : ∀ x0, Mach.canon x0 → Mach.canon (refreshReqPending x0) := by
  intro x0 h
  unfold refreshReqPending
  apply fsetB_canon
  exact h

theorem setGated_canon : ∀ x0 x1 x2, Mach.canon x2 → Mach.canon (setGated x0 x1 x2) := by
  intro x0 x1 x2 h
  unfold setGated
  apply fsetB_canon
  exact h

theorem setSelfcal_canon : ∀ x0 x1 x2, Mach.canon x2 → Mach.canon (setSelfcal x0 x1 x2) := by
  intro x0 x1 x2 h
  unfold setSelfcal
  apply fsetB_canon
  exact h

theorem quadOff_canon : ∀ x0 x1, Mach.canon x1 → Mach.canon (quadOff x0 x1) := by
  intro x0 x1 h
  unfold quadOff
  dsimp -proj -iota -eta only
  apply setPhase_canon
  apply setQ_canon
  apply setQuadState_canon
  apply setFes_canon
  refine canon_mk (canon_of ?_)
  apply each_canon
  · intro a1_0 m1 h1
    apply setRx_canon
    exact h1
  · apply each_canon
    · intro a2_0 m2 h2
      apply fset_canon
      exact h2
    · apply each_canon
      · intro a3_0 m3 h3
        apply setTx_canon
        exact h3
      · apply each_canon
        · intro a4_0 m4 h4
          apply setIn_canon
          exact h4
        · apply each_canon
          · intro a5_0 m5 h5
            apply setIn_canon
            apply clearOut_canon
            exact h5
          · apply fset_canon
            apply setGated_canon
            apply setSelfcal_canon
            apply fset_canon
            apply fset_canon
            apply fset_canon
            exact h

theorem stopRunning_canon : ∀ x0 x1, Mach.canon x1 → Mach.canon (stopRunning x0 x1) := by
  intro x0 x1 h
  unfold stopRunning
  refine canon_ite ?_ ?_
  · apply slicesDue_canon
    apply setQuadState_canon
    exact h
  · exact h

theorem addFlush_canon : ∀ x0 x1, Mach.canon x1 → Mach.canon (addFlush x0 x1) := by
  intro x0 x1 h
  unfold addFlush
  refine canon_ite ?_ ?_
  · exact h
  · refine canon_mk (canon_of ?_)
    exact h

theorem refuseReq_canon : ∀ x0 x1, Mach.canon x1 → Mach.canon (refuseReq x0 x1) := by
  intro x0 x1 h
  unfold refuseReq
  apply setEv_canon
  apply fset_canon
  exact h

theorem powerUp_canon : ∀ x0 x1 x2, Mach.canon x2 → Mach.canon (powerUp x0 x1 x2) := by
  intro x0 x1 x2 h
  unfold powerUp
  refine canon_ite ?_ ?_
  · apply setPhase_canon
    apply setGated_canon
    apply fset_canon
    exact h
  · apply setPhase_canon
    apply setGated_canon
    exact h

theorem takeReqDown_canon : ∀ x0 x1 x2, Mach.canon x2 → Mach.canon (takeReqDown x0 x1 x2) := by
  intro x0 x1 x2 h
  unfold takeReqDown
  dsimp -proj -iota -eta only
  refine canon_ite ?_ ?_
  · apply refuseReq_canon
    exact h
  · refine canon_ite ?_ ?_
    · apply setQ_canon
      exact h
    · refine canon_ite ?_ ?_
      · apply setPhase_canon
        exact h
      · refine canon_ite ?_ ?_
        · exact h
        · apply powerUp_canon
          exact h

theorem loopbackWrite_canon : ∀ x0 x1, Mach.canon x1 → Mach.canon (loopbackWrite x0 x1) := by
  intro x0 x1 h
  unfold loopbackWrite
  apply refreshInternal_canon
  apply each_canon
  · intro a1_0 m1 h1
    apply writeLoop_canon
    exact h1
  · exact h

theorem powerUpDone_canon : ∀ x0 x1, Mach.canon x1 → Mach.canon (powerUpDone x0 x1) := by
  intro x0 x1 h
  unfold powerUpDone
  dsimp -proj -iota -eta only
  apply fesRestart_canon
  apply setPhase_canon
  apply setQuadState_canon
  apply addFlush_canon
  exact h

theorem takeReqSlot_canon : ∀ x0 x1, Mach.canon x1 → Mach.canon (takeReqSlot x0 x1) := by
  intro x0 x1 h
  unfold takeReqSlot
  dsimp -proj -iota -eta only
  split
  · exact h
  · refine canon_ite ?_ ?_
    · exact h
    · refine canon_ite ?_ ?_
      · apply takeReqDown_canon
        apply fset_canon
        apply setQ_canon
        exact h
      · refine canon_ite ?_ ?_
        · apply refuseReq_canon
          apply fset_canon
          apply setQ_canon
          exact h
        · refine canon_ite ?_ ?_
          · apply setPhase_canon
            apply fset_canon
            apply setQ_canon
            exact h
          · apply quadStep_canon
            apply fset_canon
            apply setQ_canon
            exact h

theorem pendReq_canon : ∀ x0 x1 x2 x3, Mach.canon x3 → Mach.canon (pendReq x0 x1 x2 x3) := by
  intro x0 x1 x2 x3 h
  unfold pendReq
  dsimp -proj -iota -eta only
  refine canon_ite ?_ ?_
  · apply setDed_canon
    apply setQ_canon
    exact h
  · apply setQ_canon
    exact h

theorem continueQuad_canon : ∀ x0 x1, Mach.canon x1 → Mach.canon (continueQuad x0 x1) := by
  intro x0 x1 h
  unfold continueQuad
  dsimp -proj -iota -eta only
  refine canon_ite ?_ ?_
  · exact h
  · refine canon_ite ?_ ?_
    · apply refuseReq_canon
      apply setPhase_canon
      exact h
    · apply quadStep_canon
      exact h

theorem followDevice_canon : ∀ x0 x1, Mach.canon x1 → Mach.canon (followDevice x0 x1) := by
  intro x0 x1 h
  unfold followDevice
  dsimp -proj -iota -eta only
  split
  · refine canon_ite ?_ ?_
    · apply quadStep_canon
      exact h
    · exact h
  · refine canon_ite ?_ ?_
    · exact h
    · refine canon_ite ?_ ?_
      · apply setDed_canon
        exact h
      · apply quadStep_canon
        exact h
  · exact h

theorem quadSlot_canon : ∀ x0 x1, Mach.canon x1 → Mach.canon (quadSlot x0 x1) := by
  intro x0 x1 h
  unfold quadSlot
  dsimp -proj -iota -eta only
  apply followDevice_canon
  refine canon_ite ?_ ?_
  · apply takeReqSlot_canon
    exact h
  · apply continueQuad_canon
    exact h

theorem writeReq_canon : ∀ x0 x1 x2, Mach.canon x2 → Mach.canon (writeReq x0 x1 x2) := by
  intro x0 x1 x2 h
  unfold writeReq
  dsimp -proj -iota -eta only
  refine canon_ite ?_ ?_
  · apply takeReqDown_canon
    apply fset_canon
    apply setQ_canon
    exact h
  · apply pendReq_canon
    exact h

theorem drainComplete_canon : ∀ x0 x1, Mach.canon x1 → Mach.canon (drainComplete x0 x1) := by
  intro x0 x1 h
  unfold drainComplete
  dsimp -proj -iota -eta only
  refine canon_ite ?_ ?_
  · refine canon_ite ?_ ?_
    · apply startDed_canon
      apply setPhase_canon
      exact h
    · apply setPhase_canon
      exact h
  · exact h

theorem quadReqWrite_canon : ∀ x0 x1, Mach.canon x1 → Mach.canon (quadReqWrite x0 x1) := by
  intro x0 x1 h
  unfold quadReqWrite
  dsimp -proj -iota -eta only
  apply refreshReqPending_canon
  apply each_canon
  · intro a1_0 m1 h1
    apply writeReq_canon
    exact h1
  · apply mirror_canon
    apply wr_canon
    exact h

end Sys2Proof.Machine
end

