-- ==== Sys2Proof/Laws/CanonLadder.lean ====
section
/-! SUPPORT. The operations of Machine/Ladder.lean keep the registers and the reservoir in canonical form. -/

namespace Sys2Proof.Machine

set_option maxRecDepth 8000

theorem refreshLadder_canon : ∀ x0, Mach.canon x0 → Mach.canon (refreshLadder x0) := by
  intro x0 h
  unfold refreshLadder
  dsimp -proj -iota -eta only
  apply fset_canon
  apply fsetB_canon
  apply fsetB_canon
  exact h

theorem avsRequest_canon : ∀ x0 x1, Mach.canon x1 → Mach.canon (avsRequest x0 x1) := by
  intro x0 x1 h
  unfold avsRequest
  dsimp -proj -iota -eta only
  refine canon_ite ?_ ?_
  · apply refreshLadder_canon
    apply send_canon
    apply fset_canon
    exact h
  · apply refreshLadder_canon
    exact h

theorem pushStep_canon : ∀ x0 x1, Mach.canon x1 → Mach.canon (pushStep x0 x1) := by
  intro x0 x1 h
  unfold pushStep
  dsimp -proj -iota -eta only
  refine canon_mk (canon_of ?_)
  exact h

theorem noteLow_canon : ∀ x0 x1, Mach.canon x1 → Mach.canon (noteLow x0 x1) := by
  intro x0 x1 h
  unfold noteLow
  dsimp -proj -iota -eta only
  refine canon_mk (canon_of ?_)
  exact h

theorem relax_canon : ∀ x0 x1, Mach.canon x1 → Mach.canon (relax x0 x1) := by
  intro x0 x1 h
  unfold relax
  dsimp -proj -iota -eta only
  split
  · refine canon_ite ?_ ?_
    · refine canon_mk (canon_of ?_)
      exact h
    · refine canon_mk (canon_of ?_)
      exact h
  · refine canon_ite ?_ ?_
    · apply avsRequest_canon
      refine canon_mk (canon_of ?_)
      exact h
    · refine canon_mk (canon_of ?_)
      exact h

theorem runLadder_canon (l : List (Nat × Nat)) (m : Mach) (h : m.canon) : (runLadder l m).canon := by
  have h0 : ∀ s, (noteLow s m).canon := fun s => canon_mk (canon_of h)
  have h1 : ∀ s p, ((takeStep s p (noteLow s m)).getD (noteLow s m)).canon := by
    intro s p
    have hp : ∀ f st, (setEv f (pushStep st (noteLow s m))).canon := fun f st => setEv_canon _ _ (pushStep_canon _ _ (h0 s))
    unfold takeStep
    dsimp -proj -iota -eta only
    split
    · exact setEv_canon _ _ (avsRequest_canon _ _ (h0 s))
    · split
      · split
        · exact hp _ _
        · exact h0 s
      · split
        · split
          · exact hp _ _
          · exact h0 s
        · exact h0 s
  have h2 : ∀ s p, (each (muteSteps l ((takeStep s p (noteLow s m)).getD (noteLow s m)))
      (fun p s => setEv GCTL_CORE_EVENTS.mute (pushStep (.mute p) s)) ((takeStep s p (noteLow s m)).getD (noteLow s m))).canon :=
    fun s p => each_canon _ _ (fun _ _ hs => setEv_canon _ _ (pushStep_canon _ _ hs)) _ (h1 s p)
  unfold runLadder
  refine canon_ite h ?_
  dsimp -proj -iota -eta only
  exact canon_ite (canon_mk (canon_of (h2 _ _))) (relax_canon _ _ (h2 _ _))

theorem startOcc_canon : ∀ x0, Mach.canon x0 → Mach.canon (startOcc x0) := by
  intro x0 h
  unfold startOcc
  dsimp -proj -iota -eta only
  apply each_canon
  · intro a1_0 m1 h1
    apply noteOcc_canon
    exact h1
  · refine canon_mk (canon_of ?_)
    exact h

theorem slackThrWrite_canon : ∀ x0 x1, Mach.canon x1 → Mach.canon (slackThrWrite x0 x1) := by
  intro x0 x1 h
  unfold slackThrWrite
  refine canon_ite ?_ ?_
  · apply wr_canon
    exact h
  · apply setEv_canon
    exact h

theorem notePipe_canon : ∀ x0 x1 x2, Mach.canon x2 → Mach.canon (notePipe x0 x1 x2) := by
  intro x0 x1 x2 h
  unfold notePipe
  dsimp -proj -iota -eta only
  split
  · apply fset_canon
    apply fset_canon
    refine canon_mk (canon_of ?_)
    apply fset_canon
    exact h
  · apply fset_canon
    apply fset_canon
    refine canon_mk (canon_of ?_)
    apply fset_canon
    exact h

theorem avsClamp_canon : ∀ x0, Mach.canon x0 → Mach.canon (avsClamp x0) := by
  intro x0 h
  unfold avsClamp
  apply avsRequest_canon
  exact h

theorem slackWindowEnd_canon : ∀ x0 x1, Mach.canon x1 → Mach.canon (slackWindowEnd x0 x1) := by
  intro x0 x1 h
  unfold slackWindowEnd
  dsimp -proj -iota -eta only
  refine canon_ite ?_ ?_
  · apply refreshLadder_canon
    apply startOcc_canon
    refine canon_mk (canon_of ?_)
    apply runLadder_canon
    apply avsClamp_canon
    apply fset_canon
    apply fset_canon
    apply each_canon
    · intro a1_0 m1 h1
      apply notePipe_canon
      exact h1
    · exact h
  · exact h

theorem avsRepeat_canon : ∀ x0, Mach.canon x0 → Mach.canon (avsRepeat x0) := by
  intro x0 h
  unfold avsRepeat
  refine canon_ite ?_ ?_
  · apply send_canon
    exact h
  · exact h

theorem refreshShed_canon : ∀ x0, Mach.canon x0 → Mach.canon (refreshShed x0) := by
  intro x0 h
  unfold refreshShed
  dsimp -proj -iota -eta only
  apply refreshLadder_canon
  apply fset_canon
  apply fset_canon
  apply fset_canon
  apply fset_canon
  apply fset_canon
  exact h

theorem applyLadder_canon : ∀ x0, Mach.canon x0 → Mach.canon (applyLadder x0) := by
  intro x0 h
  unfold applyLadder
  dsimp -proj -iota -eta only
  apply refreshShed_canon
  apply each_canon
  · intro a1_0 m1 h1
    apply fesNow_canon
    exact h1
  · refine canon_mk (canon_of ?_)
    exact h

theorem freezeDom_canon : ∀ x0 x1, Mach.canon x1 → Mach.canon (freezeDom x0 x1) := by
  intro x0 x1 h
  unfold freezeDom
  refine canon_ite ?_ ?_
  · exact h
  · refine canon_mk (canon_of ?_)
    exact h

theorem flushBridges_canon : ∀ x0 x1, Mach.canon x1 → Mach.canon (flushBridges x0 x1) := by
  intro x0 x1 h
  unfold flushBridges
  dsimp -proj -iota -eta only
  refine canon_ite ?_ ?_
  · refine canon_mk (canon_of ?_)
    apply each_canon
    · intro a1_0 m1 h1
      apply clearOut_canon
      exact h1
    · apply each_canon
      · intro a2_0 m2 h2
        apply setIn_canon
        exact h2
      · exact h
  · apply each_canon
    · intro a3_0 m3 h3
      apply clearOut_canon
      exact h3
    · apply each_canon
      · intro a4_0 m4 h4
        apply setIn_canon
        exact h4
      · exact h

theorem thawDom_canon : ∀ x0 x1, Mach.canon x1 → Mach.canon (thawDom x0 x1) := by
  intro x0 x1 h
  unfold thawDom
  dsimp -proj -iota -eta only
  refine canon_ite ?_ ?_
  · apply addFlush_canon
    refine canon_mk (canon_of ?_)
    apply flushBridges_canon
    exact h
  · exact h

theorem avsNoresp_canon : ∀ x0, Mach.canon x0 → Mach.canon (avsNoresp x0) := by
  intro x0 h
  unfold avsNoresp
  dsimp -proj -iota -eta only
  refine canon_ite ?_ ?_
  · exact h
  · apply setEv_canon
    refine canon_mk (canon_of ?_)
    exact h

theorem avsCfgWrite_canon : ∀ x0 x1, Mach.canon x1 → Mach.canon (avsCfgWrite x0 x1) := by
  intro x0 x1 h
  unfold avsCfgWrite
  refine canon_ite ?_ ?_
  · apply setEv_canon
    exact h
  · apply avsClamp_canon
    apply wr_canon
    exact h

end Sys2Proof.Machine
end

