-- ==== Sys2Proof/Laws/CanonRxCal.lean ====
section
/-! SUPPORT. The operations of Machine/RxCal.lean keep the registers and the reservoir in canonical form. -/

namespace Sys2Proof.Machine

set_option maxRecDepth 8000

theorem calBadSlice_canon : ∀ x0 x1 x2, Mach.canon x2 → Mach.canon (calBadSlice x0 x1 x2) := by
  intro x0 x1 x2 h
  unfold calBadSlice
  dsimp -proj -iota -eta only
  split
  · apply sliceNow_canon
    apply logRetired_canon
    apply dropSlice_canon
    apply setEv_canon
    exact h
  · refine canon_ite ?_ ?_
    · apply checkReserve_canon
      apply refreshKind_canon
      apply recordSlices_canon
      apply fset_canon
      apply setRemap_canon
      apply logRetired_canon
      apply dropSlice_canon
      apply setEv_canon
      exact h
    · apply logRetired_canon
      apply dropSlice_canon
      apply setEv_canon
      exact h

theorem applyFacts_canon : ∀ x0 x1, Mach.canon x1 → Mach.canon (applyFacts x0 x1) := by
  intro x0 x1 h
  unfold applyFacts
  dsimp -proj -iota -eta only
  apply setRx_canon
  exact h

theorem phaseCal_canon : ∀ x0 x1 x2, Mach.canon x2 → Mach.canon (phaseCal x0 x1 x2) := by
  intro x0 x1 x2 h
  unfold phaseCal
  split
  · apply setPhase_canon
    exact h
  · apply setPhase_canon
    exact h
  · exact h

theorem calRuns_canon : ∀ x0 x1 x2, Mach.canon x2 → Mach.canon (calRuns x0 x1 x2) := by
  intro x0 x1 x2 h
  unfold calRuns
  apply setSelfcal_canon
  apply fsetB_canon
  apply fset_canon
  exact h

theorem startFull_canon : ∀ x0 x1, Mach.canon x1 → Mach.canon (startFull x0 x1) := by
  intro x0 x1 h
  unfold startFull
  apply phaseCal_canon
  apply calRuns_canon
  exact h

theorem writeFacts_canon : ∀ x0 x1 x2, Mach.canon x2 → Mach.canon (writeFacts x0 x1 x2) := by
  intro x0 x1 x2 h
  unfold writeFacts
  dsimp -proj -iota -eta only
  apply applyFacts_canon
  apply wr_canon
  apply wr_canon
  apply each_canon
  · intro a1_0 m1 h1
    apply wr_canon
    exact h1
  · exact h

theorem storeRegs_canon : ∀ x0 x1, Mach.canon x1 → Mach.canon (storeRegs x0 x1) := by
  intro x0 x1 h
  unfold storeRegs
  dsimp -proj -iota -eta only
  refine canon_ite ?_ ?_
  · refine canon_mk (canon_of ?_)
    exact h
  · refine canon_ite ?_ ?_
    · apply setEv_canon
      exact h
    · refine canon_ite ?_ ?_
      · exact h
      · refine canon_mk (canon_of ?_)
        exact h

theorem saveFacts_canon : ∀ x0 x1, Mach.canon x1 → Mach.canon (saveFacts x0 x1) := by
  intro x0 x1 h
  unfold saveFacts
  refine canon_ite ?_ ?_
  · apply storeRegs_canon
    exact h
  · exact h

theorem factorWrite_canon : ∀ x0 x1 x2 x3, Mach.canon x3 → Mach.canon (factorWrite x0 x1 x2 x3) := by
  intro x0 x1 x2 x3 h
  unfold factorWrite
  refine canon_ite ?_ ?_
  · apply wr_canon
    exact h
  · apply setEv_canon
    exact h

theorem startRestore_canon : ∀ x0 x1, Mach.canon x1 → Mach.canon (startRestore x0 x1) := by
  intro x0 x1 h
  unfold startRestore
  dsimp -proj -iota -eta only
  refine canon_ite ?_ ?_
  · apply phaseCal_canon
    apply calRuns_canon
    apply each_canon
    · intro a1_0 m1 h1
      apply applyFacts_canon
      exact h1
    · exact h
  · apply startFull_canon
    apply each_canon
    · intro a2_0 m2 h2
      apply setEv_canon
      exact h2
    · exact h

theorem rxCal_canon : ∀ x0 x1 x2, Mach.canon x2 → Mach.canon (rxCal x0 x1 x2) := by
  intro x0 x1 x2 h
  unfold rxCal
  refine canon_ite ?_ ?_
  · refine canon_ite ?_ ?_
    · apply startRestore_canon
      exact h
    · apply startFull_canon
      exact h
  · apply setEv_canon
    exact h

theorem clearUncHi_canon : ∀ x0 x1, Mach.canon x1 → Mach.canon (clearUncHi x0 x1) := by
  intro x0 x1 h
  unfold clearUncHi
  apply each_canon
  · intro a1_0 m1 h1
    apply fset_canon
    exact h1
  · exact h

theorem calOver_canon : ∀ x0 x1 x2, Mach.canon x2 → Mach.canon (calOver x0 x1 x2) := by
  intro x0 x1 x2 h
  unfold calOver
  dsimp -proj -iota -eta only
  split
  · apply powerUpDone_canon
    apply setEv_canon
    apply clearUncHi_canon
    apply each_canon
    · intro a1_0 m1 h1
      apply fsetB_canon
      apply fset_canon
      exact h1
    · apply setSelfcal_canon
      apply fset_canon
      apply fset_canon
      exact h
  · apply powerUpDone_canon
    apply setEv_canon
    apply clearUncHi_canon
    apply each_canon
    · intro a2_0 m2 h2
      apply fsetB_canon
      apply fset_canon
      exact h2
    · apply setSelfcal_canon
      apply fset_canon
      apply fset_canon
      exact h
  · apply setEv_canon
    apply clearUncHi_canon
    apply each_canon
    · intro a3_0 m3 h3
      apply fsetB_canon
      apply fset_canon
      exact h3
    · apply setSelfcal_canon
      apply fset_canon
      apply fset_canon
      exact h

theorem startUpCal_canon : ∀ x0 x1, Mach.canon x1 → Mach.canon (startUpCal x0 x1) := by
  intro x0 x1 h
  unfold startUpCal
  refine canon_ite ?_ ?_
  · apply startRestore_canon
    exact h
  · apply startFull_canon
    exact h

theorem setCalOk_canon : ∀ x0 x1 x2, Mach.canon x2 → Mach.canon (setCalOk x0 x1 x2) := by
  intro x0 x1 x2 h
  unfold setCalOk
  apply fset_canon
  apply fset_canon
  exact h

theorem selfcalDone_canon : ∀ x0 x1 x2, Mach.canon x2 → Mach.canon (selfcalDone x0 x1 x2) := by
  intro x0 x1 x2 h
  unfold selfcalDone
  dsimp -proj -iota -eta only
  refine canon_ite ?_ ?_
  · apply saveFacts_canon
    apply each_canon
    · intro a1_0 m1 h1
      apply each_canon
      · intro a2_0 m2 h2
        apply calBadSlice_canon
        exact h2
      · exact h1
    · apply calOver_canon
      apply setCalOk_canon
      apply each_canon
      · intro a3_0 m3 h3
        apply writeFacts_canon
        exact h3
      · exact h
  · exact h

theorem restoreVerify_canon : ∀ x0 x1 x2, Mach.canon x2 → Mach.canon (restoreVerify x0 x1 x2) := by
  intro x0 x1 x2 h
  unfold restoreVerify
  refine canon_ite ?_ ?_
  · refine canon_ite ?_ ?_
    · apply saveFacts_canon
      apply calOver_canon
      apply setCalOk_canon
      exact h
    · apply startFull_canon
      apply setEv_canon
      exact h
  · exact h

theorem rxCalCmd_canon : ∀ x0 x1 x2, Mach.canon x2 → Mach.canon (rxCalCmd x0 x1 x2) := by
  intro x0 x1 x2 h
  unfold rxCalCmd
  refine canon_ite ?_ ?_
  · apply setEv_canon
    exact h
  · split
    · exact h
    · apply rxCal_canon
      exact h
    · apply rxCal_canon
      exact h
    · apply setEv_canon
      exact h

end Sys2Proof.Machine
end

