-- ==== Sys2Proof/Laws/CanonClock.lean ====
section
/-! SUPPORT. The operations of Machine/Clock.lean keep the registers and the reservoir in canonical form. -/

namespace Sys2Proof.Machine

set_option maxRecDepth 8000

theorem setClk_canon : ∀ x0 x1, Mach.canon x1 → Mach.canon (setClk x0 x1) := by
  intro x0 x1 h
  unfold setClk
  refine canon_mk (canon_of ?_)
  exact h

theorem seedInForce_canon : ∀ x0, Mach.canon x0 → Mach.canon (seedInForce x0) := by
  intro x0 h
  unfold seedInForce
  apply setClk_canon
  exact h

theorem seedStaged_canon : ∀ x0, Mach.canon x0 → Mach.canon (seedStaged x0) := by
  intro x0 h
  unfold seedStaged
  refine canon_ite ?_ ?_
  · exact h
  · apply seedInForce_canon
    exact h

theorem releaseQuad_canon : ∀ x0 x1, Mach.canon x1 → Mach.canon (releaseQuad x0 x1) := by
  intro x0 x1 h
  unfold releaseQuad
  apply refreshFes_canon
  apply addFlush_canon
  apply flushBridges_canon
  apply setGated_canon
  exact h

theorem applySteer_canon : ∀ x0 x1, Mach.canon x1 → Mach.canon (applySteer x0 x1) := by
  intro x0 x1 h
  unfold applySteer
  dsimp -proj -iota -eta only
  refine canon_ite ?_ ?_
  · apply mirror_canon
    apply fset_canon
    exact h
  · apply setEv_canon
    exact h

theorem clkSteerWrite_canon : ∀ x0 x1, Mach.canon x1 → Mach.canon (clkSteerWrite x0 x1) := by
  intro x0 x1 h
  unfold clkSteerWrite
  refine canon_ite ?_ ?_
  · apply setClk_canon
    exact h
  · apply applySteer_canon
    exact h

theorem qpllLock_canon : ∀ x0 x1, Mach.canon x1 → Mach.canon (qpllLock x0 x1) := by
  intro x0 x1 h
  unfold qpllLock
  dsimp -proj -iota -eta only
  refine canon_ite ?_ ?_
  · refine canon_ite ?_ ?_
    · apply startUpCal_canon
      apply setGated_canon
      apply fset_canon
      exact h
    · refine canon_ite ?_ ?_
      · apply fset_canon
        exact h
      · apply setEv_canon
        apply releaseQuad_canon
        apply fset_canon
        exact h
  · exact h

theorem gateQuad_canon : ∀ x0 x1, Mach.canon x1 → Mach.canon (gateQuad x0 x1) := by
  intro x0 x1 h
  unfold gateQuad
  apply refreshFes_canon
  apply setGated_canon
  apply each_canon
  · intro a1_0 m1 h1
    apply dacMid_canon
    exact h1
  · exact h

theorem gateLoop_canon : ∀ x0 x1, Mach.canon x1 → Mach.canon (gateLoop x0 x1) := by
  intro x0 x1 h
  unfold gateLoop
  dsimp -proj -iota -eta only
  apply twinFault_canon
  apply each_canon
  · intro a1_0 m1 h1
    apply gateQuad_canon
    exact h1
  · apply setEv_canon
    apply setClk_canon
    exact h

theorem coastLimits_canon : ∀ x0, Mach.canon x0 → Mach.canon (coastLimits x0) := by
  intro x0 h
  unfold coastLimits
  apply each_canon
  · intro a1_0 m1 h1
    apply gateLoop_canon
    exact h1
  · exact h

theorem steerRelease_canon : ∀ x0, Mach.canon x0 → Mach.canon (steerRelease x0) := by
  intro x0 h
  unfold steerRelease
  split
  · refine canon_ite ?_ ?_
    · exact h
    · apply applySteer_canon
      apply setClk_canon
      exact h
  · exact h

theorem mpllUp_canon : ∀ x0, Mach.canon x0 → Mach.canon (mpllUp x0) := by
  intro x0 h
  unfold mpllUp
  apply steerRelease_canon
  apply fset_canon
  apply fset_canon
  apply fset_canon
  exact h

theorem classBRequest_canon : ∀ x0 x1, Mach.canon x1 → Mach.canon (classBRequest x0 x1) := by
  intro x0 x1 h
  unfold classBRequest
  dsimp -proj -iota -eta only
  refine canon_ite ?_ ?_
  · apply mirror_canon
    apply fset_canon
    apply setClk_canon
    exact h
  · apply setEvDie_canon
    exact h

theorem coastBegin_canon : ∀ x0 x1, Mach.canon x1 → Mach.canon (coastBegin x0 x1) := by
  intro x0 x1 h
  unfold coastBegin
  apply setClk_canon
  apply fset_canon
  exact h

theorem coastMpll_canon : ∀ x0, Mach.canon x0 → Mach.canon (coastMpll x0) := by
  intro x0 h
  unfold coastMpll
  refine canon_ite ?_ ?_
  · apply setEv_canon
    apply fset_canon
    apply coastBegin_canon
    exact h
  · exact h

theorem mpllRescued_canon : ∀ x0, Mach.canon x0 → Mach.canon (mpllRescued x0) := by
  intro x0 h
  unfold mpllRescued
  dsimp -proj -iota -eta only
  refine canon_ite ?_ ?_
  · apply each_canon
    · intro a1_0 m1 h1
      refine canon_ite ?_ ?_
      · exact h1
      · apply releaseQuad_canon
        exact h1
    · apply setEv_canon
      apply setClk_canon
      exact h
  · exact h

theorem mpllSlotVerify_canon : ∀ x0 x1, Mach.canon x1 → Mach.canon (mpllSlotVerify x0 x1) := by
  intro x0 x1 h
  unfold mpllSlotVerify
  refine canon_ite ?_ ?_
  · apply setEv_canon
    apply fset_canon
    exact h
  · exact h

theorem todLatch_canon : ∀ x0, Mach.canon x0 → Mach.canon (todLatch x0).2 := by
  intro x0 h
  unfold todLatch
  dsimp -proj -iota -eta only
  refine canon_mkp ?_
  apply wr_canon
  apply wr_canon
  apply wr_canon
  exact h

theorem ungate_canon : ∀ x0 x1 x2, Mach.canon x2 → Mach.canon (ungate x0 x1 x2) := by
  intro x0 x1 x2 h
  unfold ungate
  dsimp -proj -iota -eta only
  refine canon_ite ?_ ?_
  · apply each_canon
    · intro a1_0 m1 h1
      refine canon_ite ?_ ?_
      · exact h1
      · apply releaseQuad_canon
        exact h1
    · apply setClk_canon
      exact h
  · exact h

theorem loopRecovery_canon : ∀ x0 x1, Mach.canon x1 → Mach.canon (loopRecovery x0 x1) := by
  intro x0 x1 h
  unfold loopRecovery
  split
  · refine canon_ite ?_ ?_
    · apply setEv_canon
      apply ungate_canon
      apply mpllUp_canon
      exact h
    · exact h
  · refine canon_ite ?_ ?_
    · apply setEv_canon
      apply ungate_canon
      apply steerRelease_canon
      apply fset_canon
      exact h
    · exact h

theorem startMpll_canon : ∀ x0 x1 x2, Mach.canon x2 → Mach.canon (startMpll x0 x1 x2) := by
  intro x0 x1 x2 h
  unfold startMpll
  apply fset_canon
  apply setClk_canon
  exact h

theorem startPlanLock_canon : ∀ x0, Mach.canon x0 → Mach.canon (startPlanLock x0) := by
  intro x0 h
  unfold startPlanLock
  dsimp -proj -iota -eta only
  apply startMpll_canon
  exact h

theorem clkErr_canon : ∀ x0, Mach.canon x0 → Mach.canon (clkErr x0) := by
  intro x0 h
  unfold clkErr
  apply setEv_canon
  exact h

theorem clkSeedWrite_canon : ∀ x0 x1, Mach.canon x1 → Mach.canon (clkSeedWrite x0 x1) := by
  intro x0 x1 h
  unfold clkSeedWrite
  refine canon_ite ?_ ?_
  · apply clkErr_canon
    exact h
  · apply seedStaged_canon
    apply wr_canon
    exact h

theorem mpllRetry_canon : ∀ x0, Mach.canon x0 → Mach.canon (mpllRetry x0) := by
  intro x0 h
  unfold mpllRetry
  refine canon_ite ?_ ?_
  · apply startMpll_canon
    exact h
  · exact h

theorem syncSeen_canon : ∀ x0 x1, Mach.canon x1 → Mach.canon (syncSeen x0 x1) := by
  intro x0 x1 h
  unfold syncSeen
  dsimp -proj -iota -eta only
  apply setEvIf_canon
  apply fset_canon
  apply fset_canon
  exact h

theorem syncMonitor_canon : ∀ x0 x1 x2, Mach.canon x2 → Mach.canon (syncMonitor x0 x1 x2) := by
  intro x0 x1 x2 h
  unfold syncMonitor
  dsimp -proj -iota -eta only
  refine canon_ite ?_ ?_
  · refine canon_ite ?_ ?_
    · apply setEv_canon
      apply fset_canon
      apply syncSeen_canon
      exact h
    · refine canon_ite ?_ ?_
      · apply fset_canon
        apply fset_canon
        apply syncSeen_canon
        exact h
      · apply fset_canon
        apply syncSeen_canon
        exact h
  · exact h

theorem refCfgWrite_canon : ∀ x0 x1, Mach.canon x1 → Mach.canon (refCfgWrite x0 x1) := by
  intro x0 x1 h
  unfold refCfgWrite
  dsimp -proj -iota -eta only
  refine canon_ite ?_ ?_
  · apply clkErr_canon
    exact h
  · apply seedStaged_canon
    apply wr_canon
    exact h

theorem paceHk_canon : ∀ x0, Mach.canon x0 → Mach.canon (paceHk x0) := by
  intro x0 h
  unfold paceHk
  apply fset_canon
  apply fset_canon
  exact h

theorem failMpll_canon : ∀ x0, Mach.canon x0 → Mach.canon (failMpll x0) := by
  intro x0 h
  unfold failMpll
  dsimp -proj -iota -eta only
  apply raiseReplace_canon
  refine canon_ite ?_ ?_
  · apply paceHk_canon
    apply each_canon
    · intro a1_0 m1 h1
      refine canon_ite ?_ ?_
      · apply setPhase_canon
        apply setGated_canon
        apply fset_canon
        exact h1
      · exact h1
    · split
      · refine canon_ite ?_ ?_
        · apply pumpPlanned_canon
          apply fset_canon
          apply fset_canon
          apply setClk_canon
          apply setClk_canon
          apply fset_canon
          exact h
        · apply setClk_canon
          apply fset_canon
          exact h
      · apply setClk_canon
        apply fset_canon
        exact h
  · apply each_canon
    · intro a2_0 m2 h2
      refine canon_ite ?_ ?_
      · apply setPhase_canon
        apply setGated_canon
        apply fset_canon
        exact h2
      · exact h2
    · split
      · refine canon_ite ?_ ?_
        · apply pumpPlanned_canon
          apply fset_canon
          apply fset_canon
          apply setClk_canon
          apply setClk_canon
          apply fset_canon
          exact h
        · apply setClk_canon
          apply fset_canon
          exact h
      · apply setClk_canon
        apply fset_canon
        exact h

theorem startQpll_canon : ∀ x0 x1, Mach.canon x1 → Mach.canon (startQpll x0 x1) := by
  intro x0 x1 h
  unfold startQpll
  refine canon_ite ?_ ?_
  · apply setPhase_canon
    apply setGated_canon
    apply fset_canon
    exact h
  · exact h

theorem storeSearch_canon : ∀ x0 x1 x2 x3, Mach.canon x3 → Mach.canon (storeSearch x0 x1 x2 x3) := by
  intro x0 x1 x2 x3 h
  unfold storeSearch
  dsimp -proj -iota -eta only
  refine canon_ite ?_ ?_
  · apply setEv_canon
    apply setClk_canon
    apply wr_canon
    exact h
  · refine canon_ite ?_ ?_
    · apply setClk_canon
      apply wr_canon
      exact h
    · refine canon_mk (canon_of ?_)
      apply setClk_canon
      apply wr_canon
      exact h

theorem mpllLock_canon : ∀ x0 x1 x2, Mach.canon x2 → Mach.canon (mpllLock x0 x1 x2) := by
  intro x0 x1 x2 h
  unfold mpllLock
  dsimp -proj -iota -eta only
  refine canon_ite ?_ ?_
  · apply each_canon
    · intro a1_0 m1 h1
      apply startQpll_canon
      exact h1
    · apply mpllRescued_canon
      apply mpllUp_canon
      apply storeSearch_canon
      exact h
  · refine canon_ite ?_ ?_
    · apply each_canon
      · intro a2_0 m2 h2
        apply startQpll_canon
        exact h2
      · apply mpllRescued_canon
        apply mpllUp_canon
        exact h
    · exact h

theorem refGone_canon : ∀ x0 x1, Mach.canon x1 → Mach.canon (refGone x0 x1) := by
  intro x0 x1 h
  unfold refGone
  refine canon_ite ?_ ?_
  · apply fset_canon
    exact h
  · apply coastMpll_canon
    apply fset_canon
    apply fset_canon
    apply setEv_canon
    exact h

theorem classBRelease_canon : ∀ x0, Mach.canon x0 → Mach.canon (classBRelease x0) := by
  intro x0 h
  unfold classBRelease
  dsimp -proj -iota -eta only
  split
  · refine canon_ite ?_ ?_
    · apply pumpPlanned_canon
      apply setEv_canon
      apply each_canon
      · intro a1_0 m1 h1
        refine canon_ite ?_ ?_
        · exact h1
        · apply releaseQuad_canon
          exact h1
      · apply setClk_canon
        apply fset_canon
        apply fset_canon
        exact h
    · exact h
  · exact h

theorem todRead_canon : ∀ x0, Mach.canon x0 → Mach.canon (todRead x0) := by
  intro x0 h
  unfold todRead
  dsimp -proj -iota -eta only
  apply send_canon
  apply todLatch_canon
  exact h

theorem coastQpll_canon : ∀ x0 x1, Mach.canon x1 → Mach.canon (coastQpll x0 x1) := by
  intro x0 x1 h
  unfold coastQpll
  refine canon_ite ?_ ?_
  · apply setEv_canon
    apply fset_canon
    apply coastBegin_canon
    exact h
  · exact h

theorem syncCfgWrite_canon : ∀ x0 x1, Mach.canon x1 → Mach.canon (syncCfgWrite x0 x1) := by
  intro x0 x1 h
  unfold syncCfgWrite
  refine canon_ite ?_ ?_
  · apply clkErr_canon
    exact h
  · apply wr_canon
    exact h

end Sys2Proof.Machine
end

