-- ==== Sys2Proof/Laws/CanonEstimate.lean ====
section
/-! SUPPORT. The operations of Machine/Estimate.lean keep the registers and the reservoir in canonical form. -/

namespace Sys2Proof.Machine

set_option maxRecDepth 8000

theorem setCorr_canon : ∀ x0 x1 x2 x3 x4, Mach.canon x4 → Mach.canon (setCorr x0 x1 x2 x3 x4) := by
  intro x0 x1 x2 x3 x4 h
  unfold setCorr
  apply wr_canon
  apply wr_canon
  exact h

theorem setCal_canon : ∀ x0 x1, Mach.canon x1 → Mach.canon (setCal x0 x1) := by
  intro x0 x1 h
  unfold setCal
  refine canon_mk (canon_of ?_)
  exact h

theorem setSlope_canon : ∀ x0 x1 x2 x3, Mach.canon x3 → Mach.canon (setSlope x0 x1 x2 x3) := by
  intro x0 x1 x2 x3 h
  unfold setSlope
  apply setCal_canon
  exact h

theorem refreshDelayOk_canon : ∀ x0, Mach.canon x0 → Mach.canon (refreshDelayOk x0) := by
  intro x0 h
  unfold refreshDelayOk
  apply fsetB_canon
  exact h

theorem calRefWrite_canon : ∀ x0 x1 x2, Mach.canon x2 → Mach.canon (calRefWrite x0 x1 x2) := by
  intro x0 x1 x2 h
  unfold calRefWrite
  dsimp -proj -iota -eta only
  refine canon_ite ?_ ?_
  · apply refreshDelayOk_canon
    apply wr_canon
    apply wr_canon
    exact h
  · apply setEv_canon
    exact h

theorem setCorrDelay_canon : ∀ x0 x1 x2 x3, Mach.canon x3 → Mach.canon (setCorrDelay x0 x1 x2 x3) := by
  intro x0 x1 x2 x3 h
  unfold setCorrDelay
  apply wr_canon
  exact h

theorem setCorrSource_canon : ∀ x0 x1 x2 x3, Mach.canon x3 → Mach.canon (setCorrSource x0 x1 x2 x3) := by
  intro x0 x1 x2 x3 h
  unfold setCorrSource
  apply fset_canon
  exact h

theorem followCarrier_canon : ∀ x0 x1, Mach.canon x1 → Mach.canon (followCarrier x0 x1) := by
  intro x0 x1 h
  unfold followCarrier
  dsimp -proj -iota -eta only
  refine canon_ite ?_ ?_
  · exact h
  · apply setCal_canon
    apply each_canon
    · intro a1_0 m1 h1
      split
      · apply setCal_canon
        apply setCorr_canon
        apply setCorr_canon
        exact h1
      · apply setCorr_canon
        apply setCorr_canon
        exact h1
    · exact h

end Sys2Proof.Machine
end

