-- ==== Sys2Proof/Laws/CanonCalib.lean ====
section
/-! SUPPORT. The operations of Machine/Calib.lean keep the registers and the reservoir in canonical form. -/

namespace Sys2Proof.Machine

set_option maxRecDepth 8000

theorem refreshTrace_canon : ∀ x0, Mach.canon x0 → Mach.canon (refreshTrace x0) := by
  intro x0 h
  unfold refreshTrace
  apply fsetB_canon
  exact h

theorem endCycle_canon : ∀ x0, Mach.canon x0 → Mach.canon (endCycle x0) := by
  intro x0 h
  unfold endCycle
  dsimp -proj -iota -eta only
  apply refreshTrace_canon
  apply setCal_canon
  apply fcnt_canon
  apply fcnt_canon
  apply setEv_canon
  apply wr_canon
  apply wr_canon
  exact h

theorem setHeld_canon : ∀ x0 x1 x2 x3, Mach.canon x3 → Mach.canon (setHeld x0 x1 x2 x3) := by
  intro x0 x1 x2 x3 h
  unfold setHeld
  apply setCal_canon
  exact h

theorem noteResp_canon : ∀ x0 x1 x2 x3, Mach.canon x3 → Mach.canon (noteResp x0 x1 x2 x3) := by
  intro x0 x1 x2 x3 h
  unfold noteResp
  refine canon_ite ?_ ?_
  · exact h
  · apply setCal_canon
    exact h

theorem setUnc_canon : ∀ x0 x1 x2 x3, Mach.canon x3 → Mach.canon (setUnc x0 x1 x2 x3) := by
  intro x0 x1 x2 x3 h
  unfold setUnc
  apply setCal_canon
  exact h

theorem noteUnc_canon : ∀ x0 x1 x2 x3 x4, Mach.canon x4 → Mach.canon (noteUnc x0 x1 x2 x3 x4) := by
  intro x0 x1 x2 x3 x4 h
  unfold noteUnc
  dsimp -proj -iota -eta only
  apply setUnc_canon
  apply setCal_canon
  exact h

theorem applyDelay_canon : ∀ x0 x1 x2 x3 x4 x5, Mach.canon x5 → Mach.canon (applyDelay x0 x1 x2 x3 x4 x5) := by
  intro x0 x1 x2 x3 x4 x5 h
  unfold applyDelay
  split
  · apply setCorrDelay_canon
    exact h
  · exact h

theorem applyMeas_canon (n k : Nat) (x : PathMeas) (f : Fit) (hh : List (Nat × Int × Int)) (c y : Int × Int)
    (set : Int × Int → Mach → Mach) (hf : ∀ (v : Int × Int) (m : Mach), m.canon → (set v m).canon) (m : Mach) (h : m.canon) :
    (applyMeas n k x f hh c y set m).canon := by
  have d : ∀ (u : MeasUse) (log : Nat) (v : Int × Int) (s : Int) (g : CalSt → CalSt) (b : Bool),
      (noteResp n k hh (setCorrSource n k 1 (noteUnc n k x b (applyDelay n k u log f.2.2.1
        (setHeld n k none (setCal g (setSlope n k s (set v m)))))))).canon := fun u log v s g b =>
    noteResp_canon _ _ _ _ (setCorrSource_canon _ _ _ _ (noteUnc_canon _ _ _ _ _ (applyDelay_canon _ _ _ _ _ _
      (setHeld_canon _ _ _ _ (setCal_canon _ _ (setSlope_canon _ _ _ _ (hf v m h)))))))
  unfold applyMeas
  dsimp -proj -iota -eta only
  split
  · exact setHeld_canon _ _ _ _ h
  · exact setHeld_canon _ _ _ _ h
  · exact d _ _ _ _ _ _

theorem storeCal_canon : ∀ x0, Mach.canon x0 → Mach.canon (storeCal x0) := by
  intro x0 h
  unfold storeCal
  dsimp -proj -iota -eta only
  refine canon_ite ?_ ?_
  · refine canon_mk (canon_of ?_)
    exact h
  · refine canon_ite ?_ ?_
    · exact h
    · split
      · refine canon_ite ?_ ?_
        · apply storeRegs_canon
          exact h
        · refine canon_mk (canon_of ?_)
          apply storeRegs_canon
          exact h
      · apply storeRegs_canon
        exact h

theorem nextDed_canon : ∀ x0 x1, Mach.canon x1 → Mach.canon (nextDed x0 x1) := by
  intro x0 x1 h
  unfold nextDed
  dsimp -proj -iota -eta only
  refine canon_ite ?_ ?_
  · refine canon_ite ?_ ?_
    · apply setEv_canon
      apply fset_canon
      refine canon_ite ?_ ?_
      · apply storeCal_canon
        apply setDed_canon
        apply setDed_canon
        exact h
      · apply setDed_canon
        apply setDed_canon
        exact h
    · apply setDed_canon
      exact h
  · refine canon_ite ?_ ?_
    · apply setDed_canon
      exact h
    · apply setEv_canon
      apply fset_canon
      refine canon_ite ?_ ?_
      · apply storeCal_canon
        apply setDed_canon
        exact h
      · apply setDed_canon
        exact h

theorem refreshUnc_canon : ∀ x0 x1 x2, Mach.canon x2 → Mach.canon (refreshUnc x0 x1 x2) := by
  intro x0 x1 x2 h
  unfold refreshUnc
  dsimp -proj -iota -eta only
  apply fset_canon
  exact h

theorem setStates_canon : ∀ x0 x1 x2 x3, Mach.canon x3 → Mach.canon (setStates x0 x1 x2 x3) := by
  intro x0 x1 x2 x3 h
  unfold setStates
  apply setCal_canon
  exact h

theorem touchState_canon : ∀ x0 x1 x2 x3, Mach.canon x3 → Mach.canon (touchState x0 x1 x2 x3) := by
  intro x0 x1 x2 x3 h
  unfold touchState
  apply setStates_canon
  exact h

theorem refreshArr_canon : ∀ x0 x1 x2, Mach.canon x2 → Mach.canon (refreshArr x0 x1 x2) := by
  intro x0 x1 x2 h
  unfold refreshArr
  dsimp -proj -iota -eta only
  split
  · exact h
  · split
    · apply touchState_canon
      apply refreshUnc_canon
      apply setCorr_canon
      exact h
    · apply setEvIf_canon
      apply refreshUnc_canon
      apply setCorr_canon
      exact h

theorem setFront_canon : ∀ x0 x1 x2 x3, Mach.canon x3 → Mach.canon (setFront x0 x1 x2 x3) := by
  intro x0 x1 x2 x3 h
  unfold setFront
  apply setCal_canon
  exact h

theorem mirroredFront_canon : ∀ x0 x1 x2 x3 x4, Mach.canon x4 → Mach.canon (mirroredFront x0 x1 x2 x3 x4) := by
  intro x0 x1 x2 x3 x4 h
  unfold mirroredFront
  dsimp -proj -iota -eta only
  apply refreshArr_canon
  apply setCorrSource_canon
  apply setUnc_canon
  apply setHeld_canon
  apply setFront_canon
  exact h

theorem recomputeUnc_canon : ∀ x0, Mach.canon x0 → Mach.canon (recomputeUnc x0) := by
  intro x0 h
  unfold recomputeUnc
  dsimp -proj -iota -eta only
  apply setEvIf_canon
  apply each_canon
  · intro a1_0 m1 h1
    apply each_canon
    · intro a2_0 m2 h2
      apply refreshUnc_canon
      exact h2
    · exact h1
  · exact h

theorem refreshStates_canon : ∀ x0, Mach.canon x0 → Mach.canon (refreshStates x0) := by
  intro x0 h
  unfold refreshStates
  apply each_canon
  · intro a1_0 m1 h1
    apply refreshArr_canon
    apply refreshArr_canon
    exact h1
  · apply followCarrier_canon
    apply followCarrier_canon
    exact h

theorem publish_canon : ∀ x0, Mach.canon x0 → Mach.canon (publish x0) := by
  intro x0 h
  unfold publish
  dsimp -proj -iota -eta only
  apply setEv_canon
  apply wr_canon
  apply setCal_canon
  apply setMesh_canon
  apply recomputeUnc_canon
  apply refreshStates_canon
  exact h

theorem countTrick_canon : ∀ x0 x1 x2, Mach.canon x2 → Mach.canon (countTrick x0 x1 x2) := by
  intro x0 x1 x2 h
  unfold countTrick
  dsimp -proj -iota -eta only
  apply setCal_canon
  apply cnt_canon
  exact h

theorem sliceTrimmed_canon : ∀ x0 x1, Mach.canon x1 → Mach.canon (sliceTrimmed x0 x1) := by
  intro x0 x1 h
  unfold sliceTrimmed
  apply fset_canon
  exact h

theorem insertOver_canon : ∀ x0 x1 x2, Mach.canon x2 → Mach.canon (insertOver x0 x1 x2) := by
  intro x0 x1 x2 h
  unfold insertOver
  dsimp -proj -iota -eta only
  refine canon_ite ?_ ?_
  · apply countTrick_canon
    apply sliceTrimmed_canon
    apply setCal_canon
    exact h
  · refine canon_ite ?_ ?_
    · apply setEv_canon
      apply setCal_canon
      exact h
    · apply setCal_canon
      exact h

theorem dedOver_canon : ∀ x0 x1 x2 x3, Mach.canon x3 → Mach.canon (dedOver x0 x1 x2 x3) := by
  intro x0 x1 x2 x3 h
  unfold dedOver
  dsimp -proj -iota -eta only
  refine canon_ite ?_ ?_
  · apply nextDed_canon
    apply countTrick_canon
    exact h
  · refine canon_ite ?_ ?_
    · apply setEv_canon
      apply nextDed_canon
      apply setEv_canon
      exact h
    · apply setDed_canon
      apply setEv_canon
      exact h

theorem advancePos_canon : ∀ x0, Mach.canon x0 → Mach.canon (advancePos x0) := by
  intro x0 h
  unfold advancePos
  dsimp -proj -iota -eta only
  refine canon_ite ?_ ?_
  · apply endCycle_canon
    apply fset_canon
    apply setCal_canon
    exact h
  · apply fset_canon
    apply setCal_canon
    exact h

theorem trickOver_canon : ∀ x0 x1, Mach.canon x1 → Mach.canon (trickOver x0 x1) := by
  intro x0 x1 h
  unfold trickOver
  dsimp -proj -iota -eta only
  split
  · apply insertOver_canon
    refine canon_ite ?_ ?_
    · exact h
    · apply setEv_canon
      apply fcnt_canon
      exact h
  · apply dedOver_canon
    refine canon_ite ?_ ?_
    · exact h
    · apply setEv_canon
      apply fcnt_canon
      exact h
  · refine canon_ite ?_ ?_
    · apply advancePos_canon
      apply countTrick_canon
      refine canon_ite ?_ ?_
      · exact h
      · apply setEv_canon
        apply fcnt_canon
        exact h
    · refine canon_ite ?_ ?_
      · apply setEv_canon
        apply advancePos_canon
        refine canon_ite ?_ ?_
        · exact h
        · apply setEv_canon
          apply fcnt_canon
          exact h
      · apply setCal_canon
        refine canon_ite ?_ ?_
        · exact h
        · apply setEv_canon
          apply fcnt_canon
          exact h

theorem takeMeas_canon (k code : Nat) (x : PathMeas) (m : Mach) (h : m.canon) : (takeMeas k code x m).canon := by
  have ha : ∀ (r : Fit × List (Nat × Int × Int)) (c y : Int × Int) (set : Int × Int → Mach → Mach)
      (_ : ∀ (v : Int × Int) (m : Mach), m.canon → (set v m).canon) (s : Mach), s.canon →
      (applyMeas x.path.val k x r.1 r.2 c y set s).canon := fun r c y set hf s hs => applyMeas_canon _ _ _ _ _ _ _ _ hf _ hs
  have hfr : ∀ (w : Int × Int) (s : Mach), s.canon → (setFront x.path.val (kindTx k) (some w) s).canon := fun w s hs =>
    setFront_canon _ _ _ _ hs
  unfold takeMeas
  dsimp -proj -iota -eta only
  refine canon_ite (ha _ _ _ _ (fun w s hs => setCorr_canon _ _ _ _ _ hs) _ h) ?_
  split
  · exact touchState_canon _ _ _ _ (ha _ _ _ _ hfr _ h)
  · refine canon_ite (touchState_canon _ _ _ _ (ha _ _ _ _ hfr _ (setCal_canon _ _ h))) ?_
    exact setCorrSource_canon _ _ _ _ (noteUnc_canon _ _ _ _ _ (touchState_canon _ _ _ _ h))
  · exact ha _ _ _ _ hfr _ (setStates_canon _ _ _ _ (setCal_canon _ _ h))

theorem noteObs_canon : ∀ x0 x1 x2, Mach.canon x2 → Mach.canon (noteObs x0 x1 x2) := by
  intro x0 x1 x2 h
  unfold noteObs
  apply setCal_canon
  exact h

theorem sendFront_canon : ∀ x0 x1 x2, Mach.canon x2 → Mach.canon (sendFront x0 x1 x2) := by
  intro x0 x1 x2 h
  unfold sendFront
  split
  · apply mirror_canon
    exact h
  · exact h

theorem mirrorFront_canon : ∀ x0 x1 x2, Mach.canon x2 → Mach.canon (mirrorFront x0 x1 x2) := by
  intro x0 x1 x2 h
  unfold mirrorFront
  dsimp -proj -iota -eta only
  refine canon_ite ?_ ?_
  · apply each_canon
    · intro a1_0 m1 h1
      apply sendFront_canon
      apply sendFront_canon
      exact h1
    · refine canon_mk (canon_of ?_)
      exact h
  · apply sendFront_canon
    exact h

theorem takeAll_canon : ∀ x0 x1 x2, Mach.canon x2 → Mach.canon (takeAll x0 x1 x2) := by
  intro x0 x1 x2 h
  unfold takeAll
  dsimp -proj -iota -eta only
  apply each_canon
  · intro a1_0 m1 h1
    refine canon_ite ?_ ?_
    · apply mirrorFront_canon
      apply refreshArr_canon
      refine canon_ite ?_ ?_
      · apply noteObs_canon
        apply sliceTrimmed_canon
        apply takeMeas_canon
        exact h1
      · apply takeMeas_canon
        exact h1
    · refine canon_ite ?_ ?_
      · apply noteObs_canon
        apply sliceTrimmed_canon
        apply takeMeas_canon
        exact h1
      · apply takeMeas_canon
        exact h1
  · exact h

theorem correctionPublish_canon : ∀ x0 x1, Mach.canon x1 → Mach.canon (correctionPublish x0 x1) := by
  intro x0 x1 h
  unfold correctionPublish
  split
  · exact h
  · apply publish_canon
    apply trickOver_canon
    apply takeAll_canon
    apply setCal_canon
    exact h

theorem calFcb_canon : ∀ x0 x1 x2 x3, Mach.canon x3 → Mach.canon (calFcb x0 x1 x2 x3) := by
  intro x0 x1 x2 x3 h
  unfold calFcb
  dsimp -proj -iota -eta only
  refine canon_ite ?_ ?_
  · apply queueFcb_canon
    exact h
  · exact h

theorem calStart_canon : ∀ x0 x1 x2, Mach.canon x2 → Mach.canon (calStart x0 x1 x2) := by
  intro x0 x1 x2 h
  unfold calStart
  dsimp -proj -iota -eta only
  refine canon_ite ?_ ?_
  · apply setCoupler_canon
    apply calFcb_canon
    apply fesNow_canon
    exact h
  · apply calFcb_canon
    apply fesNow_canon
    exact h

theorem startPart_canon : ∀ x0 x1, Mach.canon x1 → Mach.canon (startPart x0 x1) := by
  intro x0 x1 h
  unfold startPart
  split
  · refine canon_ite ?_ ?_
    · apply each_canon
      · intro a1_0 m1 h1
        apply calStart_canon
        exact h1
      · apply setCal_canon
        exact h
    · exact h
  · exact h

theorem fixTrick_canon : ∀ x0 x1, Mach.canon x1 → Mach.canon (fixTrick x0 x1) := by
  intro x0 x1 h
  unfold fixTrick
  dsimp -proj -iota -eta only
  apply each_canon
  · intro a1_0 m1 h1
    apply startPart_canon
    exact h1
  · apply fset_canon
    apply setCal_canon
    exact h

theorem applyTrim_canon : ∀ x0 x1, Mach.canon x1 → Mach.canon (applyTrim x0 x1) := by
  intro x0 x1 h
  unfold applyTrim
  dsimp -proj -iota -eta only
  apply setEvIf_canon
  apply each_canon
  · intro a1_0 m1 h1
    apply refreshUnc_canon
    exact h1
  · apply fset_canon
    apply fsetB_canon
    apply fset_canon
    apply fsetB_canon
    exact h

theorem trimsBoundary_canon : ∀ x0, Mach.canon x0 → Mach.canon (trimsBoundary x0) := by
  intro x0 h
  unfold trimsBoundary
  refine canon_ite ?_ ?_
  · apply each_canon
    · intro a1_0 m1 h1
      apply applyTrim_canon
      exact h1
    · apply setCal_canon
      exact h
  · exact h

theorem inGapTrick_canon : ∀ x0 x1 x2 x3, Mach.canon x3 → Mach.canon (inGapTrick x0 x1 x2 x3) := by
  intro x0 x1 x2 x3 h
  unfold inGapTrick
  dsimp -proj -iota -eta only
  split
  · exact h
  · split
    · apply setEv_canon
      apply fcnt_canon
      apply each_canon
      · intro a1_0 m1 h1
        apply advancePos_canon
        exact h1
      · exact h
    · apply fixTrick_canon
      apply each_canon
      · intro a2_0 m2 h2
        apply advancePos_canon
        exact h2
      · exact h

theorem calEnd_canon : ∀ x0 x1 x2, Mach.canon x2 → Mach.canon (calEnd x0 x1 x2) := by
  intro x0 x1 x2 h
  unfold calEnd
  apply each_canon
  · intro a1_0 m1 h1
    apply calFcb_canon
    apply fesNow_canon
    exact h1
  · exact h

theorem pilotSeen_canon : ∀ x0 x1 x2, Mach.canon x2 → Mach.canon (pilotSeen x0 x1 x2) := by
  intro x0 x1 x2 h
  unfold pilotSeen
  refine canon_ite ?_ ?_
  · apply refreshTrace_canon
    apply setCal_canon
    apply fset_canon
    apply setEvIf_canon
    apply setEvIf_canon
    exact h
  · apply refreshTrace_canon
    apply fset_canon
    exact h

theorem calCaptureEnd_canon : ∀ x0 x1 x2 x3, Mach.canon x3 → Mach.canon (calCaptureEnd x0 x1 x2 x3) := by
  intro x0 x1 x2 x3 h
  unfold calCaptureEnd
  dsimp -proj -iota -eta only
  split
  · exact h
  · refine canon_ite ?_ ?_
    · apply trickOver_canon
      split
      · refine canon_ite ?_ ?_
        · apply fset_canon
          apply pilotSeen_canon
          apply refreshInternal_canon
          apply setCal_canon
          apply calEnd_canon
          apply advanceTo_canon
          exact h
        · split
          · apply setRx_canon
            apply fset_canon
            apply pilotSeen_canon
            apply refreshInternal_canon
            apply setCal_canon
            apply calEnd_canon
            apply advanceTo_canon
            exact h
          · apply fset_canon
            apply pilotSeen_canon
            apply refreshInternal_canon
            apply setCal_canon
            apply calEnd_canon
            apply advanceTo_canon
            exact h
      · apply fset_canon
        apply pilotSeen_canon
        apply refreshInternal_canon
        apply setCal_canon
        apply calEnd_canon
        apply advanceTo_canon
        exact h
    · apply setCal_canon
      split
      · refine canon_ite ?_ ?_
        · apply fset_canon
          apply pilotSeen_canon
          apply refreshInternal_canon
          apply setCal_canon
          apply calEnd_canon
          apply advanceTo_canon
          exact h
        · split
          · apply setRx_canon
            apply fset_canon
            apply pilotSeen_canon
            apply refreshInternal_canon
            apply setCal_canon
            apply calEnd_canon
            apply advanceTo_canon
            exact h
          · apply fset_canon
            apply pilotSeen_canon
            apply refreshInternal_canon
            apply setCal_canon
            apply calEnd_canon
            apply advanceTo_canon
            exact h
      · apply fset_canon
        apply pilotSeen_canon
        apply refreshInternal_canon
        apply setCal_canon
        apply calEnd_canon
        apply advanceTo_canon
        exact h

theorem dedicatedTrick_canon : ∀ x0 x1 x2, Mach.canon x2 → Mach.canon (dedicatedTrick x0 x1 x2) := by
  intro x0 x1 x2 h
  unfold dedicatedTrick
  dsimp -proj -iota -eta only
  refine canon_ite ?_ ?_
  · exact h
  · refine canon_ite ?_ ?_
    · apply setDed_canon
      refine canon_ite ?_ ?_
      · apply nextDed_canon
        exact h
      · refine canon_ite ?_ ?_
        · exact h
        · split
          · apply publish_canon
            apply dedOver_canon
            refine canon_ite ?_ ?_
            · apply mirrorFront_canon
              apply refreshArr_canon
              refine canon_ite ?_ ?_
              · apply noteObs_canon
                apply sliceTrimmed_canon
                apply takeMeas_canon
                apply calEnd_canon
                apply calStart_canon
                exact h
              · apply takeMeas_canon
                apply calEnd_canon
                apply calStart_canon
                exact h
            · refine canon_ite ?_ ?_
              · apply noteObs_canon
                apply sliceTrimmed_canon
                apply takeMeas_canon
                apply calEnd_canon
                apply calStart_canon
                exact h
              · apply takeMeas_canon
                apply calEnd_canon
                apply calStart_canon
                exact h
          · apply dedOver_canon
            apply calEnd_canon
            apply calStart_canon
            exact h
    · refine canon_ite ?_ ?_
      · apply nextDed_canon
        exact h
      · refine canon_ite ?_ ?_
        · exact h
        · split
          · apply publish_canon
            apply dedOver_canon
            refine canon_ite ?_ ?_
            · apply mirrorFront_canon
              apply refreshArr_canon
              refine canon_ite ?_ ?_
              · apply noteObs_canon
                apply sliceTrimmed_canon
                apply takeMeas_canon
                apply calEnd_canon
                apply calStart_canon
                exact h
              · apply takeMeas_canon
                apply calEnd_canon
                apply calStart_canon
                exact h
            · refine canon_ite ?_ ?_
              · apply noteObs_canon
                apply sliceTrimmed_canon
                apply takeMeas_canon
                apply calEnd_canon
                apply calStart_canon
                exact h
              · apply takeMeas_canon
                apply calEnd_canon
                apply calStart_canon
                exact h
          · apply dedOver_canon
            apply calEnd_canon
            apply calStart_canon
            exact h

theorem calStall_canon : ∀ x0, Mach.canon x0 → Mach.canon (calStall x0) := by
  intro x0 h
  unfold calStall
  refine canon_ite ?_ ?_
  · apply setEv_canon
    exact h
  · exact h

theorem gapEvent_canon : ∀ x0 x1, Mach.canon x1 → Mach.canon (gapEvent x0 x1) := by
  intro x0 x1 h
  unfold gapEvent
  dsimp -proj -iota -eta only
  split
  · refine canon_ite ?_ ?_
    · apply startPart_canon
      apply evSlot_canon
      exact h
    · apply evSlot_canon
      exact h
  · apply evSlot_canon
    exact h

theorem calCtrlWrite_canon : ∀ x0 x1, Mach.canon x1 → Mach.canon (calCtrlWrite x0 x1) := by
  intro x0 x1 h
  unfold calCtrlWrite
  dsimp -proj -iota -eta only
  refine canon_ite ?_ ?_
  · apply setCal_canon
    apply setEvIf_canon
    apply wr_canon
    exact h
  · apply setEvIf_canon
    apply wr_canon
    exact h

theorem calTrickStart_canon : ∀ x0, Mach.canon x0 → Mach.canon (calTrickStart x0) := by
  intro x0 h
  unfold calTrickStart
  dsimp -proj -iota -eta only
  split
  · exact h
  · refine canon_ite ?_ ?_
    · exact h
    · refine canon_ite ?_ ?_
      · apply setCal_canon
        apply advanceTo_canon
        exact h
      · split
        · apply fixTrick_canon
          apply setCal_canon
          apply advanceTo_canon
          exact h
        · apply fixTrick_canon
          apply setCal_canon
          apply advanceTo_canon
          exact h
        · apply inGapTrick_canon
          apply setCal_canon
          apply advanceTo_canon
          exact h

theorem calStoreWrite_canon : ∀ x0 x1, Mach.canon x1 → Mach.canon (calStoreWrite x0 x1) := by
  intro x0 x1 h
  unfold calStoreWrite
  dsimp -proj -iota -eta only
  refine canon_ite ?_ ?_
  · refine canon_ite ?_ ?_
    · apply storeCal_canon
      apply setCal_canon
      exact h
    · apply setEv_canon
      apply setCal_canon
      exact h
  · exact h

theorem calPlanChange_canon : ∀ x0, Mach.canon x0 → Mach.canon (calPlanChange x0) := by
  intro x0 h
  unfold calPlanChange
  apply refreshTrace_canon
  apply setCal_canon
  apply each_canon
  · intro a1_0 m1 h1
    apply each_canon
    · intro a2_0 m2 h2
      apply refreshUnc_canon
      apply setHeld_canon
      apply setUnc_canon
      exact h2
    · exact h1
  · exact h

theorem trickBegin_canon : ∀ x0, Mach.canon x0 → Mach.canon (trickBegin x0) := by
  intro x0 h
  unfold trickBegin
  dsimp -proj -iota -eta only
  split
  · refine canon_ite ?_ ?_
    · apply refreshInternal_canon
      apply each_canon
      · intro a1_0 m1 h1
        apply spoilCap_canon
        exact h1
      · apply each_canon
        · intro a2_0 m2 h2
          apply rxSettle_canon
          exact h2
        · apply each_canon
          · intro a3_0 m3 h3
            apply startPart_canon
            exact h3
          · exact h
    · exact h
  · exact h

theorem loadCal_canon : ∀ x0, Mach.canon x0 → Mach.canon (loadCal x0) := by
  intro x0 h
  unfold loadCal
  dsimp -proj -iota -eta only
  split
  · exact h
  · apply each_canon
    · intro a1_0 m1 h1
      apply applyTrim_canon
      apply each_canon
      · intro a2_0 m2 h2
        refine canon_ite ?_ ?_
        · exact h2
        · apply setCorrSource_canon
          apply wr_canon
          apply wr_canon
          apply wr_canon
          exact h2
      · exact h1
    · apply setCal_canon
      apply setEvIf_canon
      exact h

end Sys2Proof.Machine
end

