-- ==== Sys2Proof/Laws/CanonLink.lean ====
section
/-! SUPPORT. The operations of Machine/Link.lean keep the registers and the reservoir in canonical form. -/

namespace Sys2Proof.Machine

set_option maxRecDepth 8000

theorem capUpload_canon : ∀ x0 x1, Mach.canon x1 → Mach.canon (capUpload x0 x1) := by
  intro x0 x1 h
  unfold capUpload
  dsimp -proj -iota -eta only
  refine canon_ite ?_ ?_
  · exact h
  · apply sendNat_canon
    apply setUp_canon
    exact h

theorem poolAnswer_canon : ∀ x0 x1 x2 x3 x4, Mach.canon x4 → Mach.canon (poolAnswer x0 x1 x2 x3 x4) := by
  intro x0 x1 x2 x3 x4 h
  unfold poolAnswer
  apply ackNat_canon
  exact h

theorem poolVectors_canon (k : Nat) (l : List (List W)) (m : Mach) (h : m.canon) : (poolVectors k l m).2.canon := by
  induction l generalizing k m with
  | nil => exact h
  | cons v l ih =>
    unfold poolVectors
    dsimp -proj -iota -eta only
    exact canon_ite_snd (ih _ _ (poolTouched_canon _ _ (resWrite_canon _ _ _ h))) (setEv_canon _ _ h)

theorem poolWrite_canon : ∀ x0 x1 x2 x3, Mach.canon x3 → Mach.canon (poolWrite x0 x1 x2 x3) := by
  intro x0 x1 x2 x3 h
  unfold poolWrite
  dsimp -proj -iota -eta only
  refine canon_ite ?_ ?_
  · apply poolAnswer_canon
    exact h
  · apply poolAnswer_canon
    apply poolVectors_canon
    exact h

theorem ecpriDelay_canon : ∀ x0 x1 x2 x3 x4, Mach.canon x4 → Mach.canon (ecpriDelay x0 x1 x2 x3 x4) := by
  intro x0 x1 x2 x3 x4 h
  unfold ecpriDelay
  dsimp -proj -iota -eta only
  refine canon_ite ?_ ?_
  · exact h
  · split
    · apply send_canon
      exact h
    · apply send_canon
      exact h
    · apply send_canon
      exact h
    · apply send_canon
      apply send_canon
      exact h
    · exact h

theorem refreshMirLane_canon : ∀ x0, Mach.canon x0 → Mach.canon (refreshMirLane x0) := by
  intro x0 h
  unfold refreshMirLane
  apply fset_canon
  exact h

theorem sendEvent_canon : ∀ x0, Mach.canon x0 → Mach.canon (sendEvent x0) := by
  intro x0 h
  unfold sendEvent
  refine canon_ite ?_ ?_
  · apply sendNat_canon
    refine canon_mk (canon_of ?_)
    exact h
  · exact h

theorem refreshSess_canon : ∀ x0 x1, Mach.canon x1 → Mach.canon (refreshSess x0 x1) := by
  intro x0 x1 h
  unfold refreshSess
  dsimp -proj -iota -eta only
  refine canon_ite ?_ ?_
  · exact h
  · split
    · apply fset_canon
      exact h
    · exact h

theorem refreshSessions_canon : ∀ x0, Mach.canon x0 → Mach.canon (refreshSessions x0) := by
  intro x0 h
  unfold refreshSessions
  apply each_canon
  · intro a1_0 m1 h1
    apply refreshSess_canon
    exact h1
  · exact h

theorem setBonded_canon : ∀ x0 x1 x2, Mach.canon x2 → Mach.canon (setBonded x0 x1 x2) := by
  intro x0 x1 x2 h
  unfold setBonded
  apply refreshSessions_canon
  apply fsetB_canon
  apply fsetB_canon
  exact h

theorem serdesFail.dropSerdes_canon : ∀ x0 x1 x2, Mach.canon x2 → Mach.canon (serdesFail.dropSerdes x0 x1 x2) := by
  intro x0 x1 x2 h
  unfold serdesFail.dropSerdes
  dsimp -proj -iota -eta only
  refine canon_ite ?_ ?_
  · apply endPlanned_canon
    refine canon_mk (canon_of ?_)
    exact h
  · refine canon_mk (canon_of ?_)
    exact h

theorem sendPortState_canon : ∀ x0, Mach.canon x0 → Mach.canon (sendPortState x0) := by
  intro x0 h
  unfold sendPortState
  dsimp -proj -iota -eta only
  refine canon_ite ?_ ?_
  · apply each_canon
    · intro a1_0 m1 h1
      apply setSess_canon
      apply send_canon
      exact h1
    · exact h
  · exact h

theorem setPort_canon : ∀ x0 x1 x2, Mach.canon x2 → Mach.canon (setPort x0 x1 x2) := by
  intro x0 x1 x2 h
  unfold setPort
  dsimp -proj -iota -eta only
  refine canon_ite ?_ ?_
  · exact h
  · apply sendPortState_canon
    apply setEv_canon
    refine canon_ite ?_ ?_
    · apply fset_canon
      exact h
    · apply setBonded_canon
      apply fset_canon
      exact h

theorem trainPort_canon : ∀ x0 x1, Mach.canon x1 → Mach.canon (trainPort x0 x1) := by
  intro x0 x1 h
  unfold trainPort
  refine canon_ite ?_ ?_
  · apply setPort_canon
    exact h
  · refine canon_ite ?_ ?_
    · apply setPort_canon
      exact h
    · apply setPort_canon
      exact h

theorem refreshSerdes_canon : ∀ x0, Mach.canon x0 → Mach.canon (refreshSerdes x0) := by
  intro x0 h
  unfold refreshSerdes
  apply fset_canon
  apply fset_canon
  exact h

theorem takeSerdes_canon : ∀ x0 x1 x2, Mach.canon x2 → Mach.canon (takeSerdes x0 x1 x2) := by
  intro x0 x1 x2 h
  unfold takeSerdes
  apply refreshSerdes_canon
  apply useSpare_canon
  apply setRemap_canon
  exact h

theorem serdesFail_canon : ∀ x0 x1 x2, Mach.canon x2 → Mach.canon (serdesFail x0 x1 x2) := by
  intro x0 x1 x2 h
  unfold serdesFail
  dsimp -proj -iota -eta only
  refine canon_ite ?_ ?_
  · apply hardDone_canon
    apply setEv_canon
    apply trainPort_canon
    apply takeSerdes_canon
    apply setBonded_canon
    apply serdesFail.dropSerdes_canon
    exact h
  · apply noSpare_canon
    apply trainPort_canon
    apply setRemap_canon
    apply setBonded_canon
    apply serdesFail.dropSerdes_canon
    exact h

theorem lpllUnlock_canon : ∀ x0, Mach.canon x0 → Mach.canon (lpllUnlock x0) := by
  intro x0 h
  unfold lpllUnlock
  apply each_canon
  · intro a1_0 m1 h1
    apply setPort_canon
    exact h1
  · apply setEv_canon
    apply fset_canon
    exact h

theorem rxDiscard_canon : ∀ x0 x1, Mach.canon x1 → Mach.canon (rxDiscard x0 x1) := by
  intro x0 x1 h
  unfold rxDiscard
  apply cnt_canon
  exact h

theorem placeOne_canon : ∀ x0 x1 x2 x3 x4, Mach.canon x4 → Mach.canon (placeOne x0 x1 x2 x3 x4) := by
  intro x0 x1 x2 x3 x4 h
  unfold placeOne
  dsimp -proj -iota -eta only
  refine canon_ite ?_ ?_
  · exact h
  · refine canon_ite ?_ ?_
    · apply fcnt_canon
      exact h
    · apply setDlRx_canon
      exact h

theorem iqRx_canon : ∀ x0 x1 x2, Mach.canon x2 → Mach.canon (iqRx x0 x1 x2) := by
  intro x0 x1 x2 h
  unfold iqRx
  dsimp -proj -iota -eta only
  refine canon_ite ?_ ?_
  · exact h
  · split
    · apply rxDiscard_canon
      exact h
    · refine canon_ite ?_ ?_
      · apply rxDiscard_canon
        exact h
      · refine canon_ite ?_ ?_
        · apply fcnt_canon
          exact h
        · apply each_canon
          · intro a1_0 m1 h1
            apply each_canon
            · intro a2_0 m2 h2
              apply placeOne_canon
              exact h2
            · refine canon_ite ?_ ?_
              · apply rxDiscard_canon
                exact h1
              · exact h1
          · exact h

theorem allPortsDown_canon : ∀ x0, Mach.canon x0 → Mach.canon (allPortsDown x0) := by
  intro x0 h
  unfold allPortsDown
  refine canon_ite ?_ ?_
  · exact h
  · apply twinFault_canon
    exact h

theorem ppsOut_canon : ∀ x0, Mach.canon x0 → Mach.canon (ppsOut x0) := by
  intro x0 h
  unfold ppsOut
  dsimp -proj -iota -eta only
  refine canon_ite ?_ ?_
  · apply send_canon
    apply setClk_canon
    apply advanceTo_canon
    exact h
  · exact h

theorem portRetry_canon : ∀ x0 x1, Mach.canon x1 → Mach.canon (portRetry x0 x1) := by
  intro x0 x1 h
  unfold portRetry
  refine canon_ite ?_ ?_
  · apply trainPort_canon
    exact h
  · exact h

theorem portLoss_canon : ∀ x0 x1 x2, Mach.canon x2 → Mach.canon (portLoss x0 x1 x2) := by
  intro x0 x1 x2 h
  unfold portLoss
  dsimp -proj -iota -eta only
  refine canon_ite ?_ ?_
  · apply trainPort_canon
    apply cnt_canon
    exact h
  · apply cnt_canon
    exact h

theorem portCtrlWrite_canon : ∀ x0 x1 x2, Mach.canon x2 → Mach.canon (portCtrlWrite x0 x1 x2) := by
  intro x0 x1 x2 h
  unfold portCtrlWrite
  dsimp -proj -iota -eta only
  refine canon_ite ?_ ?_
  · apply setEv_canon
    exact h
  · refine canon_ite ?_ ?_
    · apply wr_canon
      exact h
    · refine canon_ite ?_ ?_
      · refine canon_ite ?_ ?_
        · apply trainPort_canon
          apply wr_canon
          exact h
        · apply wr_canon
          exact h
      · apply setPort_canon
        apply wr_canon
        exact h

theorem portJoin_canon : ∀ x0 x1, Mach.canon x1 → Mach.canon (portJoin x0 x1) := by
  intro x0 x1 h
  unfold portJoin
  refine canon_ite ?_ ?_
  · apply sendPortState_canon
    apply setEv_canon
    apply setBonded_canon
    exact h
  · exact h

theorem trainPorts_canon : ∀ x0, Mach.canon x0 → Mach.canon (trainPorts x0) := by
  intro x0 h
  unfold trainPorts
  apply each_canon
  · intro a1_0 m1 h1
    apply trainPort_canon
    exact h1
  · exact h

theorem ppsIn_canon : ∀ x0 x1, Mach.canon x1 → Mach.canon (ppsIn x0 x1) := by
  intro x0 x1 h
  unfold ppsIn
  dsimp -proj -iota -eta only
  refine canon_ite ?_ ?_
  · apply setEv_canon
    apply setClk_canon
    exact h
  · apply wr_canon
    apply wr_canon
    apply wr_canon
    apply setClk_canon
    exact h

theorem portTrained_canon : ∀ x0 x1, Mach.canon x1 → Mach.canon (portTrained x0 x1) := by
  intro x0 x1 h
  unfold portTrained
  refine canon_ite ?_ ?_
  · apply setPort_canon
    exact h
  · exact h

theorem lpllReengage_canon : ∀ x0, Mach.canon x0 → Mach.canon (lpllReengage x0) := by
  intro x0 h
  unfold lpllReengage
  dsimp -proj -iota -eta only
  apply each_canon
  · intro a1_0 m1 h1
    apply trainPort_canon
    exact h1
  · refine canon_ite ?_ ?_
    · apply startPlanLock_canon
      apply fset_canon
      apply fset_canon
      apply fset_canon
      exact h
    · apply fset_canon
      apply fset_canon
      apply fset_canon
      exact h

theorem iqTx_canon : ∀ x0 x1, Mach.canon x1 → Mach.canon (iqTx x0 x1) := by
  intro x0 x1 h
  unfold iqTx
  dsimp -proj -iota -eta only
  split
  · exact h
  · refine canon_ite ?_ ?_
    · exact h
    · refine canon_ite ?_ ?_
      · apply setUlTx_canon
        exact h
      · split
        · apply setEv_canon
          apply setUlTx_canon
          exact h
        · apply send_canon
          apply setUlTx_canon
          exact h

theorem noteSens_canon : ∀ x0, Mach.canon x0 → Mach.canon (noteSens x0) := by
  intro x0 h
  unfold noteSens
  dsimp -proj -iota -eta only
  apply each_canon
  · intro a1_0 m1 h1
    apply setUlTx_canon
    exact h1
  · exact h

theorem nativeHdr_canon : ∀ x0 x1 x2, Mach.canon x2 → Mach.canon (nativeHdr x0 x1 x2) := by
  intro x0 x1 x2 h
  unfold nativeHdr
  dsimp -proj -iota -eta only
  refine canon_ite ?_ ?_
  · apply rxDiscard_canon
    exact h
  · apply setEvIf_canon
    apply setSess_canon
    exact h

theorem ethFrameRx_canon : ∀ x0 x1 x2, Mach.canon x2 → Mach.canon (ethFrameRx x0 x1 x2) := by
  intro x0 x1 x2 h
  unfold ethFrameRx
  refine canon_ite ?_ ?_
  · exact h
  · split
    · refine canon_ite ?_ ?_
      · apply rxDiscard_canon
        exact h
      · apply rxDiscard_canon
        exact h
    · refine canon_ite ?_ ?_
      · apply sendNat_canon
        exact h
      · apply rxDiscard_canon
        exact h
    · refine canon_ite ?_ ?_
      · apply nativeHdr_canon
        exact h
      · apply rxDiscard_canon
        exact h
    · apply rxDiscard_canon
      exact h

theorem linkShed_canon : ∀ x0, Mach.canon x0 → Mach.canon (linkShed x0) := by
  intro x0 h
  unfold linkShed
  dsimp -proj -iota -eta only
  apply setEvIf_canon
  apply fset_canon
  refine canon_mk (canon_of ?_)
  exact h

theorem serdesSubst_canon : ∀ x0 x1 x2, Mach.canon x2 → Mach.canon (serdesSubst x0 x1 x2) := by
  intro x0 x1 x2 h
  unfold serdesSubst
  refine canon_ite ?_ ?_
  · apply plannedDone_canon
    apply setEv_canon
    apply trainPort_canon
    apply takeSerdes_canon
    apply setBonded_canon
    exact h
  · exact h

theorem arrivalDeadline_canon : ∀ x0 x1, Mach.canon x1 → Mach.canon (arrivalDeadline x0 x1) := by
  intro x0 x1 h
  unfold arrivalDeadline
  dsimp -proj -iota -eta only
  refine canon_ite ?_ ?_
  · exact h
  · refine canon_ite ?_ ?_
    · apply dlSample_canon
      apply reachSub_canon
      apply setDlRx_canon
      exact h
    · split
      · apply dlSample_canon
        apply reachSub_canon
        apply setDlRx_canon
        exact h
      · apply dlSample_canon
        apply cnt_canon
        apply reachSub_canon
        apply setDlRx_canon
        exact h

theorem ptpTx_canon : ∀ x0 x1 x2 x3 x4, Mach.canon x4 → Mach.canon (ptpTx x0 x1 x2 x3 x4) := by
  intro x0 x1 x2 x3 x4 h
  unfold ptpTx
  dsimp -proj -iota -eta only
  refine canon_ite ?_ ?_
  · refine canon_ite ?_ ?_
    · apply sendNat_canon
      apply send_canon
      exact h
    · apply send_canon
      exact h
  · apply rxDiscard_canon
    exact h

theorem portTimeout_canon : ∀ x0 x1, Mach.canon x1 → Mach.canon (portTimeout x0 x1) := by
  intro x0 x1 h
  unfold portTimeout
  refine canon_ite ?_ ?_
  · apply setPort_canon
    exact h
  · exact h

theorem mirrorFail_canon : ∀ x0 x1, Mach.canon x1 → Mach.canon (mirrorFail x0 x1) := by
  intro x0 x1 h
  unfold mirrorFail
  refine canon_ite ?_ ?_
  · apply hardDone_canon
    apply refreshMirLane_canon
    apply useSpare_canon
    apply setRemap_canon
    exact h
  · apply noSpare_canon
    apply fsetB_canon
    exact h

end Sys2Proof.Machine
end

