-- ==== Sys2Proof/Laws/CanonPower.lean ====
section
/-! SUPPORT. The operations of Machine/Power.lean keep the registers and the reservoir in canonical form. -/

namespace Sys2Proof.Machine

set_option maxRecDepth 8000

theorem coreReset_canon (m : Mach) (h : m.canon) : (coreReset m).canon := by
  unfold coreReset keepRegs
  refine fset_canon _ _ _ (fset_canon _ _ _ (fset_canon _ _ _ (fset_canon _ _ _ ?_)))
  exact ⟨tabWf_filter h.1 _, by simp [Memory.wf]⟩

theorem softReset_canon (c : Nat) (m : Mach) (h : m.canon) : (softReset c m).canon := by
  unfold softReset
  refine canon_ite h ?_
  exact setDev_canon _ _ _ (canon_mk (canon_of (coreReset_canon _ (each_canon _ _ (fun q t ht => stopRunning_canon q t ht) _ (releaseToken_canon _ _ h)))))

theorem brownout_canon : ∀ x0, Mach.canon x0 → Mach.canon (brownout x0) := by
  intro x0 h
  unfold brownout
  dsimp -proj -iota -eta only
  refine canon_ite ?_ ?_
  · refine canon_mk (canon_of ?_)
    apply softReset_canon
    exact h
  · exact h

theorem poresetAssert_canon (m : Mach) (h : m.canon) : (poresetAssert m).canon := by
  have h1 := coreReset_canon _ (releaseToken_canon 0xFF m h)
  unfold poresetAssert keepRegs
  refine canon_ite (canon_mk (canon_of h)) (fset_canon _ _ _ (fset_canon _ _ _ (fset_canon _ _ _ ?_)))
  exact ⟨tabWf_filter h1.1 _, h1.2⟩

theorem shdnCause_canon : ∀ x0 x1 x2, Mach.canon x2 → Mach.canon (shdnCause x0 x1 x2) := by
  intro x0 x1 x2 h
  unfold shdnCause
  apply fset_canon
  apply fset_canon
  apply fset_canon
  apply fset_canon
  exact h

theorem shutdown_canon (k : Nat) (v : Int) (m : Mach) (h : m.canon) : (shutdown k v m).canon := by
  have h1 := shdnCause_canon k v m h
  unfold shutdown
  refine canon_ite h ?_
  refine setDev_canon _ _ _ (canon_mk (canon_of (coreReset_canon _ (releaseToken_canon _ _ (canon_ite h1 ?_)))))
  exact logCode_canon _ _ _ _ _ _ _ h1

theorem saveSetting_canon : ∀ x0 x1, Mach.canon x1 → Mach.canon (saveSetting x0 x1) := by
  intro x0 x1 h
  unfold saveSetting
  dsimp -proj -iota -eta only
  refine canon_ite ?_ ?_
  · exact h
  · refine canon_mk (canon_of ?_)
    exact h

theorem nandProgramDone_canon : ∀ x0, Mach.canon x0 → Mach.canon (nandProgramDone x0) := by
  intro x0 h
  unfold nandProgramDone
  dsimp -proj -iota -eta only
  refine canon_mk (canon_of ?_)
  exact h

theorem powerOff_canon (m : Mach) (h : m.canon) : (powerOff m).canon := by
  unfold powerOff keepRegs
  refine fset_canon _ _ _ ?_
  exact ⟨tabWf_filter h.1 _, by simp [Memory.wf]⟩

theorem hotPlug_canon (m : Mach) (h : m.canon) : (hotPlug m).canon := by
  unfold hotPlug
  refine canon_ite (canon_mk (canon_of h)) ?_
  exact canon_mk (canon_of (powerOff_canon _ (releaseToken_canon _ _ (canon_ite h (logCode_canon _ _ _ _ _ _ _ h)))))

theorem poresetRelease_canon : ∀ x0, Mach.canon x0 → Mach.canon (poresetRelease x0) := by
  intro x0 h
  unfold poresetRelease
  dsimp -proj -iota -eta only
  refine canon_ite ?_ ?_
  · refine canon_mk (canon_of ?_)
    exact h
  · refine canon_ite ?_ ?_
    · apply send_canon
      refine canon_mk (canon_of ?_)
      apply wr_canon
      exact h
    · exact h

theorem vddGood_canon : ∀ x0, Mach.canon x0 → Mach.canon (vddGood x0) := by
  intro x0 h
  unfold vddGood
  refine canon_ite ?_ ?_
  · refine canon_mk (canon_of ?_)
    exact h
  · exact h

theorem stateErr_canon : ∀ x0, Mach.canon x0 → Mach.canon (stateErr x0) := by
  intro x0 h
  unfold stateErr
  apply setEv_canon
  exact h

theorem unlessBusy_canon (f : Mach → Mach) (hf : ∀ m : Mach, m.canon → (f m).canon) (m : Mach) (h : m.canon) :
    (unlessBusy f m).canon := by
  unfold unlessBusy
  exact canon_ite (stateErr_canon _ h) (hf m h)

theorem vddTimeout_canon : ∀ x0, Mach.canon x0 → Mach.canon (vddTimeout x0) := by
  intro x0 h
  unfold vddTimeout
  refine canon_ite ?_ ?_
  · apply setEv_canon
    exact h
  · exact h

end Sys2Proof.Machine
end

