-- ==== Sys2Proof/Laws/CanonMonitor.lean ====
section
/-! SUPPORT. The operations of Machine/Monitor.lean keep the registers and the reservoir in canonical form. -/

namespace Sys2Proof.Machine

set_option maxRecDepth 8000

theorem trigArm_canon : ∀ x0, Mach.canon x0 → Mach.canon (trigArm x0) := by
  intro x0 h
  unfold trigArm
  refine canon_mk (canon_of ?_)
  exact h

theorem monCalDone_canon : ∀ x0 x1 x2 x3, Mach.canon x3 → Mach.canon (monCalDone x0 x1 x2 x3) := by
  intro x0 x1 x2 x3 h
  unfold monCalDone
  refine canon_ite ?_ ?_
  · apply setEv_canon
    apply fset_canon
    apply fset_canon
    apply fset_canon
    apply fset_canon
    exact h
  · exact h

theorem monStart_canon : ∀ x0 x1, Mach.canon x1 → Mach.canon (monStart x0 x1) := by
  intro x0 x1 h
  unfold monStart
  dsimp -proj -iota -eta only
  apply setMon_canon
  apply fset_canon
  apply fset_canon
  apply fset_canon
  exact h

theorem monTrigger_canon : ∀ x0 x1, Mach.canon x1 → Mach.canon (monTrigger x0 x1) := by
  intro x0 x1 h
  unfold monTrigger
  refine canon_ite ?_ ?_
  · apply setEv_canon
    exact h
  · refine canon_ite ?_ ?_
    · refine canon_ite ?_ ?_
      · exact h
      · refine canon_ite ?_ ?_
        · apply setEv_canon
          exact h
        · apply fset_canon
          exact h
    · apply monStart_canon
      exact h

theorem monCommon_canon : ∀ x0, Mach.canon x0 → Mach.canon (monCommon x0) := by
  intro x0 h
  unfold monCommon
  apply each_canon
  · intro a1_0 m1 h1
    apply monTrigger_canon
    exact h1
  · exact h

theorem monTrigCmd_canon : ∀ x0 x1, Mach.canon x1 → Mach.canon (monTrigCmd x0 x1) := by
  intro x0 x1 h
  unfold monTrigCmd
  refine canon_ite ?_ ?_
  · apply monCommon_canon
    exact h
  · exact h

theorem monBoundary_canon : ∀ x0 x1, Mach.canon x1 → Mach.canon (monBoundary x0 x1) := by
  intro x0 x1 h
  unfold monBoundary
  dsimp -proj -iota -eta only
  refine canon_ite ?_ ?_
  · apply monCommon_canon
    exact h
  · exact h

theorem monFactWrite_canon : ∀ x0 x1 x2 x3, Mach.canon x3 → Mach.canon (monFactWrite x0 x1 x2 x3) := by
  intro x0 x1 x2 x3 h
  unfold monFactWrite
  refine canon_ite ?_ ?_
  · apply setEv_canon
    exact h
  · apply wr_canon
    exact h

theorem monData_canon : ∀ x0 x1 x2 x3, Mach.canon x3 → Mach.canon (monData x0 x1 x2 x3) := by
  intro x0 x1 x2 x3 h
  unfold monData
  dsimp -proj -iota -eta only
  apply setEvIf_canon
  apply fsetB_canon
  apply fset_canon
  apply fset_canon
  exact h

theorem monPush_canon : ∀ x0 x1 x2 x3, Mach.canon x3 → Mach.canon (monPush x0 x1 x2 x3) := by
  intro x0 x1 x2 x3 h
  unfold monPush
  dsimp -proj -iota -eta only
  refine canon_ite ?_ ?_
  · apply fset_canon
    apply setMon_canon
    exact h
  · apply setEv_canon
    exact h

theorem monIdle_canon : ∀ x0 x1, Mach.canon x1 → Mach.canon (monIdle x0 x1) := by
  intro x0 x1 h
  unfold monIdle
  dsimp -proj -iota -eta only
  apply setMon_canon
  apply fset_canon
  apply fset_canon
  exact h

theorem monEntry_canon : ∀ x0 x1 x2, Mach.canon x2 → Mach.canon (monEntry x0 x1 x2) := by
  intro x0 x1 x2 h
  unfold monEntry
  dsimp -proj -iota -eta only
  split
  · exact h
  · refine canon_ite ?_ ?_
    · refine canon_ite ?_ ?_
      · apply monIdle_canon
        refine canon_ite ?_ ?_
        · apply monPush_canon
          apply setEvIf_canon
          apply monData_canon
          exact h
        · apply setEvIf_canon
          apply monData_canon
          exact h
      · refine canon_ite ?_ ?_
        · apply setMon_canon
          refine canon_ite ?_ ?_
          · apply monPush_canon
            apply setEvIf_canon
            apply monData_canon
            exact h
          · apply setEvIf_canon
            apply monData_canon
            exact h
        · apply fset_canon
          apply setMon_canon
          refine canon_ite ?_ ?_
          · apply monPush_canon
            apply setEvIf_canon
            apply monData_canon
            exact h
          · apply setEvIf_canon
            apply monData_canon
            exact h
    · exact h

theorem monFifoPop_canon : ∀ x0 x1, Mach.canon x1 → Mach.canon (monFifoPop x0 x1).2 := by
  intro x0 x1 h
  unfold monFifoPop
  dsimp -proj -iota -eta only
  split
  · refine canon_mkp ?_
    apply setEv_canon
    exact h
  · refine canon_mkp ?_
    apply fset_canon
    apply setMon_canon
    exact h

theorem monTrig_canon : ∀ x0 x1, Mach.canon x1 → Mach.canon (monTrig x0 x1) := by
  intro x0 x1 h
  unfold monTrig
  refine canon_ite ?_ ?_
  · exact h
  · apply monTrigger_canon
    exact h

theorem monStop_canon : ∀ x0 x1, Mach.canon x1 → Mach.canon (monStop x0 x1) := by
  intro x0 x1 h
  unfold monStop
  dsimp -proj -iota -eta only
  refine canon_ite ?_ ?_
  · apply setMon_canon
    apply fset_canon
    exact h
  · exact h

theorem monCal_canon : ∀ x0 x1, Mach.canon x1 → Mach.canon (monCal x0 x1) := by
  intro x0 x1 h
  unfold monCal
  refine canon_ite ?_ ?_
  · apply setEv_canon
    exact h
  · apply fset_canon
    exact h

theorem monCmdWrite_canon : ∀ x0 x1 x2, Mach.canon x2 → Mach.canon (monCmdWrite x0 x1 x2) := by
  intro x0 x1 x2 h
  unfold monCmdWrite
  refine canon_ite ?_ ?_
  · apply setEv_canon
    exact h
  · split
    · apply monTrig_canon
      exact h
    · apply monStop_canon
      exact h
    · apply monCal_canon
      exact h
    · exact h

theorem monGroup_canon : ∀ x0 x1 x2, Mach.canon x2 → Mach.canon (monGroup x0 x1 x2) := by
  intro x0 x1 x2 h
  unfold monGroup
  dsimp -proj -iota -eta only
  apply each_canon
  · intro a1_0 m1 h1
    apply fset_canon
    apply fset_canon
    exact h1
  · apply setMon_canon
    exact h

theorem monVdd_canon : ∀ x0, Mach.canon x0 → Mach.canon (monVdd x0) := by
  intro x0 h
  unfold monVdd
  dsimp -proj -iota -eta only
  split
  · exact h
  · refine canon_ite ?_ ?_
    · refine canon_mk (canon_of ?_)
      apply fset_canon
      exact h
    · apply fset_canon
      exact h

theorem monDataPop_canon : ∀ x0 x1 x2, Mach.canon x2 → Mach.canon (monDataPop x0 x1 x2).2 := by
  intro x0 x1 x2 h
  unfold monDataPop
  refine canon_mkp ?_
  apply fset_canon
  apply fset_canon
  exact h

theorem monSeqEnd_canon : ∀ x0 x1, Mach.canon x1 → Mach.canon (monSeqEnd x0 x1) := by
  intro x0 x1 h
  unfold monSeqEnd
  dsimp -proj -iota -eta only
  refine canon_ite ?_ ?_
  · refine canon_ite ?_ ?_
    · apply monIdle_canon
      apply fset_canon
      exact h
    · refine canon_ite ?_ ?_
      · apply monStart_canon
        apply fset_canon
        exact h
      · apply monIdle_canon
        apply fset_canon
        exact h
  · exact h

theorem refreshBroken_canon : ∀ x0, Mach.canon x0 → Mach.canon (refreshBroken x0) := by
  intro x0 h
  unfold refreshBroken
  dsimp -proj -iota -eta only
  apply wr_canon
  apply wr_canon
  exact h

theorem sensBreak_canon : ∀ x0 x1, Mach.canon x1 → Mach.canon (sensBreak x0 x1) := by
  intro x0 x1 h
  unfold sensBreak
  dsimp -proj -iota -eta only
  refine canon_ite ?_ ?_
  · exact h
  · refine canon_ite ?_ ?_
    · apply raiseReplace_canon
      apply logCode_canon
      apply whenB_canon
      · intro m1 h1
        apply setEvDie_canon
        exact h1
      · apply refreshBroken_canon
        apply setRemap_canon
        exact h
    · apply logCode_canon
      apply whenB_canon
      · intro m2 h2
        apply setEvDie_canon
        exact h2
      · apply refreshBroken_canon
        apply setRemap_canon
        exact h

theorem thermEv_canon : ∀ x0 x1 x2, Mach.canon x2 → Mach.canon (thermEv x0 x1 x2) := by
  intro x0 x1 x2 h
  unfold thermEv
  refine canon_ite ?_ ?_
  · apply setEvDie_canon
    exact h
  · exact h

theorem shutStep_canon : ∀ x0 x1, Mach.canon x1 → Mach.canon (shutStep x0 x1) := by
  intro x0 x1 h
  unfold shutStep
  split
  · apply shutdown_canon
    exact h
  · exact h

theorem throttleStep_canon : ∀ x0 x1, Mach.canon x1 → Mach.canon (throttleStep x0 x1) := by
  intro x0 x1 h
  unfold throttleStep
  dsimp -proj -iota -eta only
  refine canon_ite ?_ ?_
  · refine canon_ite ?_ ?_
    · apply thermEv_canon
      apply fset_canon
      apply fset_canon
      exact h
    · exact h
  · refine canon_ite ?_ ?_
    · apply thermEv_canon
      apply fset_canon
      exact h
    · exact h

theorem warnStep_canon : ∀ x0 x1, Mach.canon x1 → Mach.canon (warnStep x0 x1) := by
  intro x0 x1 h
  unfold warnStep
  dsimp -proj -iota -eta only
  refine canon_ite ?_ ?_
  · refine canon_ite ?_ ?_
    · apply fset_canon
      exact h
    · exact h
  · refine canon_ite ?_ ?_
    · apply thermEv_canon
      apply fset_canon
      exact h
    · exact h

theorem refreshTmax_canon : ∀ x0, Mach.canon x0 → Mach.canon (refreshTmax x0) := by
  intro x0 h
  unfold refreshTmax
  dsimp -proj -iota -eta only
  split
  · apply fsetB_canon
    exact h
  · apply fset_canon
    apply fset_canon
    apply fset_canon
    apply fsetB_canon
    exact h

theorem sensorReading_canon : ∀ x0 x1 x2 x3, Mach.canon x3 → Mach.canon (sensorReading x0 x1 x2 x3) := by
  intro x0 x1 x2 x3 h
  unfold sensorReading
  dsimp -proj -iota -eta only
  refine canon_ite ?_ ?_
  · exact h
  · apply shutStep_canon
    apply throttleStep_canon
    apply warnStep_canon
    apply refreshTmax_canon
    apply fset_canon
    apply fsetB_canon
    apply fsetB_canon
    apply fsetB_canon
    refine canon_ite ?_ ?_
    · apply sensBreak_canon
      apply whenB_canon
      · intro m1 h1
        apply thermEv_canon
        exact h1
      · apply setSens_canon
        refine canon_ite ?_ ?_
        · exact h
        · apply sensBreak_canon
          exact h
    · apply whenB_canon
      · intro m2 h2
        apply thermEv_canon
        exact h2
      · apply setSens_canon
        refine canon_ite ?_ ?_
        · exact h
        · apply sensBreak_canon
          exact h

theorem lehrUpdate_canon : ∀ x0, Mach.canon x0 → Mach.canon (lehrUpdate x0) := by
  intro x0 h
  unfold lehrUpdate
  dsimp -proj -iota -eta only
  refine canon_ite ?_ ?_
  · refine canon_ite ?_ ?_
    · refine canon_ite ?_ ?_
      · apply setEvIf_canon
        apply fset_canon
        exact h
      · exact h
    · apply fset_canon
      exact h
  · exact h

theorem monThrWrite_canon : ∀ x0 x1, Mach.canon x1 → Mach.canon (monThrWrite x0 x1) := by
  intro x0 x1 h
  unfold monThrWrite
  dsimp -proj -iota -eta only
  refine canon_ite ?_ ?_
  · apply saveSetting_canon
    apply wr_canon
    exact h
  · apply setEv_canon
    exact h

theorem monPeriodic_canon : ∀ x0, Mach.canon x0 → Mach.canon (monPeriodic x0) := by
  intro x0 h
  unfold monPeriodic
  dsimp -proj -iota -eta only
  split
  · refine canon_ite ?_ ?_
    · apply monCommon_canon
      refine canon_mk (canon_of ?_)
      apply advanceTo_canon
      exact h
    · exact h
  · exact h

theorem monSystem_canon : ∀ x0 x1, Mach.canon x1 → Mach.canon (monSystem x0 x1) := by
  intro x0 x1 h
  unfold monSystem
  refine canon_ite ?_ ?_
  · apply monVdd_canon
    apply each_canon
    · intro a1_0 m1 h1
      apply monGroup_canon
      exact h1
    · exact h
  · exact h

end Sys2Proof.Machine
end

