-- ==== Sys2Proof/Laws/CanonRoutes.lean ====
section
/-! SUPPORT. The operations of Machine/Routes.lean keep the registers and the reservoir in canonical form. -/

namespace Sys2Proof.Machine

set_option maxRecDepth 8000

theorem setOutWait_canon : ∀ x0 x1 x2 x3, Mach.canon x3 → Mach.canon (setOutWait x0 x1 x2 x3) := by
  intro x0 x1 x2 x3 h
  unfold setOutWait
  dsimp -proj -iota -eta only
  apply setTile_canon
  exact h

theorem routeOut_canon : ∀ x0 x1 x2 x3, Mach.canon x3 → Mach.canon (routeOut x0 x1 x2 x3) := by
  intro x0 x1 x2 x3 h
  unfold routeOut
  dsimp -proj -iota -eta only
  split
  · apply ulPush_canon
    apply nextPos_canon
    exact h
  · apply dlFromTile_canon
    exact h
  · exact h

theorem pushOut_canon : ∀ x0 x1 x2, Mach.canon x2 → Mach.canon (pushOut x0 x1 x2) := by
  intro x0 x1 x2 h
  unfold pushOut
  dsimp -proj -iota -eta only
  split
  · exact h
  · split
    · exact h
    · apply each_canon
      · intro a1_0 m1 h1
        apply portIn_canon
        exact h1
      · apply setOutWait_canon
        exact h
  · apply each_canon
    · intro a2_0 m2 h2
      apply routeOut_canon
      exact h2
    · apply setOutWait_canon
      exact h

theorem pullIn_canon : ∀ x0 x1 x2, Mach.canon x2 → Mach.canon (pullIn x0 x1 x2) := by
  intro x0 x1 x2 h
  unfold pullIn
  dsimp -proj -iota -eta only
  apply each_canon
  · intro a1_0 m1 h1
    apply pushOut_canon
    exact h1
  · exact h

end Sys2Proof.Machine
end

