-- ==== Sys2Proof/Laws/CanonTileIsa.lean ====
section
/-! SUPPORT. The operations of Machine/TileIsa.lean keep the registers and the reservoir in canonical form. -/

namespace Sys2Proof.Machine

set_option maxRecDepth 8000

theorem doStw_canon : ∀ x0 x1 x2 x3, Mach.canon x3 → Mach.canon (doStw x0 x1 x2 x3) := by
  intro x0 x1 x2 x3 h
  unfold doStw
  apply runTile_canon
  exact h

theorem doMovo_canon : ∀ x0 x1 x2 x3, Mach.canon x3 → Mach.canon (doMovo x0 x1 x2 x3) := by
  intro x0 x1 x2 x3 h
  unfold doMovo
  apply pushOut_canon
  apply runTile_canon
  exact h

theorem doVld_canon : ∀ x0 x1 x2 x3, Mach.canon x3 → Mach.canon (doVld x0 x1 x2 x3) := by
  intro x0 x1 x2 x3 h
  unfold doVld
  apply runTile_canon
  exact h

theorem doMovw_canon : ∀ x0 x1 x2 x3 x4, Mach.canon x4 → Mach.canon (doMovw x0 x1 x2 x3 x4) := by
  intro x0 x1 x2 x3 x4 h
  unfold doMovw
  dsimp -proj -iota -eta only
  apply runTile_canon
  exact h

theorem doLdw_canon : ∀ x0 x1 x2 x3, Mach.canon x3 → Mach.canon (doLdw x0 x1 x2 x3) := by
  intro x0 x1 x2 x3 h
  unfold doLdw
  apply runTile_canon
  exact h

theorem doCred_canon : ∀ x0 x1 x2, Mach.canon x2 → Mach.canon (doCred x0 x1 x2) := by
  intro x0 x1 x2 h
  unfold doCred
  dsimp -proj -iota -eta only
  apply runTile_canon
  exact h

theorem doCmac_canon : ∀ x0 x1 x2 x3 x4 x5, Mach.canon x5 → Mach.canon (doCmac x0 x1 x2 x3 x4 x5) := by
  intro x0 x1 x2 x3 x4 x5 h
  unfold doCmac
  dsimp -proj -iota -eta only
  apply runTile_canon
  exact h

theorem doSacc_canon : ∀ x0 x1 x2, Mach.canon x2 → Mach.canon (doSacc x0 x1 x2) := by
  intro x0 x1 x2 h
  unfold doSacc
  apply runTile_canon
  exact h

theorem doLdi_canon : ∀ x0 x1 x2 x3, Mach.canon x3 → Mach.canon (doLdi x0 x1 x2 x3) := by
  intro x0 x1 x2 x3 h
  unfold doLdi
  apply runTile_canon
  exact h

theorem doVin_canon : ∀ x0 x1 x2 x3, Mach.canon x3 → Mach.canon (doVin x0 x1 x2 x3) := by
  intro x0 x1 x2 x3 h
  unfold doVin
  apply pullIn_canon
  apply runTile_canon
  exact h

theorem doWaitxComplete_canon : ∀ x0 x1, Mach.canon x1 → Mach.canon (doWaitxComplete x0 x1) := by
  intro x0 x1 h
  unfold doWaitxComplete
  dsimp -proj -iota -eta only
  refine canon_ite ?_ ?_
  · apply setTile_canon
    exact h
  · exact h

theorem moveXfer_canon : ∀ x0 x1 x2, Mach.canon x2 → Mach.canon (moveXfer x0 x1 x2) := by
  intro x0 x1 x2 h
  unfold moveXfer
  dsimp -proj -iota -eta only
  refine canon_ite ?_ ?_
  · apply resWrite_canon
    exact h
  · apply setTile_canon
    apply readReport_canon
    exact h

theorem doLdih_canon : ∀ x0 x1 x2 x3, Mach.canon x3 → Mach.canon (doLdih x0 x1 x2 x3) := by
  intro x0 x1 x2 x3 h
  unfold doLdih
  apply runTile_canon
  exact h

theorem doRed_canon : ∀ x0 x1 x2, Mach.canon x2 → Mach.canon (doRed x0 x1 x2) := by
  intro x0 x1 x2 h
  unfold doRed
  dsimp -proj -iota -eta only
  apply runTile_canon
  exact h

theorem doJmp_canon : ∀ x0 x1 x2, Mach.canon x2 → Mach.canon (doJmp x0 x1 x2) := by
  intro x0 x1 x2 h
  unfold doJmp
  apply runTile_canon
  exact h

theorem lostJob_canon : ∀ x0 x1 x2, Mach.canon x2 → Mach.canon (lostJob x0 x1 x2) := by
  intro x0 x1 x2 h
  unfold lostJob
  refine canon_ite ?_ ?_
  · apply reloadTile_canon
    apply loseJob_canon
    exact h
  · exact h

theorem doLoops_canon : ∀ x0 x1 x2 x3, Mach.canon x3 → Mach.canon (doLoops x0 x1 x2 x3) := by
  intro x0 x1 x2 x3 h
  unfold doLoops
  apply runTile_canon
  exact h

theorem doMovoComplete_canon : ∀ x0 x1, Mach.canon x1 → Mach.canon (doMovoComplete x0 x1) := by
  intro x0 x1 h
  unfold doMovoComplete
  dsimp -proj -iota -eta only
  split
  · refine canon_ite ?_ ?_
    · apply pushOut_canon
      apply commitTile_canon
      apply pushOut_canon
      apply pushOut_canon
      exact h
    · apply pushOut_canon
      apply pushOut_canon
      exact h
  · apply pushOut_canon
    apply pushOut_canon
    exact h

theorem doNop_canon : ∀ x0 x1, Mach.canon x1 → Mach.canon (doNop x0 x1) := by
  intro x0 x1 h
  unfold doNop
  apply runTile_canon
  exact h

theorem doCall_canon : ∀ x0 x1 x2, Mach.canon x2 → Mach.canon (doCall x0 x1 x2) := by
  intro x0 x1 x2 h
  unfold doCall
  dsimp -proj -iota -eta only
  apply runTile_canon
  exact h

theorem branchIf_canon : ∀ x0 x1 x2 x3 x4, Mach.canon x4 → Mach.canon (branchIf x0 x1 x2 x3 x4) := by
  intro x0 x1 x2 x3 x4 h
  unfold branchIf
  refine canon_ite ?_ ?_
  · apply runTile_canon
    exact h
  · apply runTile_canon
    exact h

theorem doJnz_canon : ∀ x0 x1 x2 x3, Mach.canon x3 → Mach.canon (doJnz x0 x1 x2 x3) := by
  intro x0 x1 x2 x3 h
  unfold doJnz
  apply branchIf_canon
  exact h

theorem doHalt_canon : ∀ x0 x1, Mach.canon x1 → Mach.canon (doHalt x0 x1) := by
  intro x0 x1 h
  unfold doHalt
  dsimp -proj -iota -eta only
  apply runTile_canon
  exact h

theorem doAddi_canon : ∀ x0 x1 x2 x3 x4, Mach.canon x4 → Mach.canon (doAddi x0 x1 x2 x3 x4) := by
  intro x0 x1 x2 x3 x4 h
  unfold doAddi
  apply runTile_canon
  exact h

theorem doWaitx_canon : ∀ x0 x1, Mach.canon x1 → Mach.canon (doWaitx x0 x1) := by
  intro x0 x1 h
  unfold doWaitx
  apply runTile_canon
  exact h

theorem doAccw_canon : ∀ x0 x1 x2 x3 x4, Mach.canon x4 → Mach.canon (doAccw x0 x1 x2 x3 x4) := by
  intro x0 x1 x2 x3 x4 h
  unfold doAccw
  apply runTile_canon
  exact h

theorem doLdacc_canon : ∀ x0 x1 x2 x3 x4, Mach.canon x4 → Mach.canon (doLdacc x0 x1 x2 x3 x4) := by
  intro x0 x1 x2 x3 x4 h
  unfold doLdacc
  apply runTile_canon
  exact h

theorem doSclr_canon : ∀ x0 x1 x2, Mach.canon x2 → Mach.canon (doSclr x0 x1 x2) := by
  intro x0 x1 x2 h
  unfold doSclr
  apply runTile_canon
  exact h

theorem doMac_canon : ∀ x0 x1 x2 x3 x4, Mach.canon x4 → Mach.canon (doMac x0 x1 x2 x3 x4) := by
  intro x0 x1 x2 x3 x4 h
  unfold doMac
  dsimp -proj -iota -eta only
  apply runTile_canon
  exact h

theorem doJz_canon : ∀ x0 x1 x2 x3, Mach.canon x3 → Mach.canon (doJz x0 x1 x2 x3) := by
  intro x0 x1 x2 x3 h
  unfold doJz
  apply branchIf_canon
  exact h

theorem doVst_canon : ∀ x0 x1 x2 x3, Mach.canon x3 → Mach.canon (doVst x0 x1 x2 x3) := by
  intro x0 x1 x2 x3 h
  unfold doVst
  apply runTile_canon
  exact h

theorem doWaitslot_canon : ∀ x0 x1, Mach.canon x1 → Mach.canon (doWaitslot x0 x1) := by
  intro x0 x1 h
  unfold doWaitslot
  apply runTile_canon
  exact h

theorem doRdsp_canon : ∀ x0 x1 x2 x3, Mach.canon x3 → Mach.canon (doRdsp x0 x1 x2 x3) := by
  intro x0 x1 x2 x3 h
  unfold doRdsp
  apply runTile_canon
  exact h

theorem doSignal_canon : ∀ x0 x1 x2, Mach.canon x2 → Mach.canon (doSignal x0 x1 x2) := by
  intro x0 x1 x2 h
  unfold doSignal
  dsimp -proj -iota -eta only
  apply runTile_canon
  exact h

theorem doXferEnd_canon : ∀ x0 x1, Mach.canon x1 → Mach.canon (doXferEnd x0 x1) := by
  intro x0 x1 h
  unfold doXferEnd
  dsimp -proj -iota -eta only
  split
  · exact h
  · apply lostJob_canon
    split
    · split
      · apply vendorReload_canon
        apply commitTile_canon
        apply setTile_canon
        apply moveXfer_canon
        exact h
      · apply setTile_canon
        apply setTile_canon
        apply moveXfer_canon
        exact h
    · apply setTile_canon
      apply moveXfer_canon
      exact h

theorem doMovs_canon : ∀ x0 x1 x2 x3, Mach.canon x3 → Mach.canon (doMovs x0 x1 x2 x3) := by
  intro x0 x1 x2 x3 h
  unfold doMovs
  dsimp -proj -iota -eta only
  apply runTile_canon
  exact h

theorem doLoop_canon : ∀ x0 x1 x2 x3, Mach.canon x3 → Mach.canon (doLoop x0 x1 x2 x3) := by
  intro x0 x1 x2 x3 h
  unfold doLoop
  apply runTile_canon
  exact h

theorem doClr_canon : ∀ x0 x1 x2, Mach.canon x2 → Mach.canon (doClr x0 x1 x2) := by
  intro x0 x1 x2 h
  unfold doClr
  apply runTile_canon
  exact h

theorem doSetsh_canon : ∀ x0 x1 x2 x3, Mach.canon x3 → Mach.canon (doSetsh x0 x1 x2 x3) := by
  intro x0 x1 x2 x3 h
  unfold doSetsh
  apply runTile_canon
  exact h

theorem doSmem_canon : ∀ x0 x1 x2 x3 x4, Mach.canon x4 → Mach.canon (doSmem x0 x1 x2 x3 x4) := by
  intro x0 x1 x2 x3 x4 h
  unfold doSmem
  apply runTile_canon
  exact h

theorem doWaitslotResume_canon : ∀ x0 x1, Mach.canon x1 → Mach.canon (doWaitslotResume x0 x1) := by
  intro x0 x1 h
  unfold doWaitslotResume
  dsimp -proj -iota -eta only
  refine canon_ite ?_ ?_
  · apply setTile_canon
    exact h
  · exact h

theorem doRet_canon : ∀ x0 x1, Mach.canon x1 → Mach.canon (doRet x0 x1) := by
  intro x0 x1 h
  unfold doRet
  dsimp -proj -iota -eta only
  apply runTile_canon
  exact h

theorem doWrsp_canon : ∀ x0 x1 x2 x3, Mach.canon x3 → Mach.canon (doWrsp x0 x1 x2 x3) := by
  intro x0 x1 x2 x3 h
  unfold doWrsp
  apply runTile_canon
  exact h

theorem doVinComplete_canon : ∀ x0 x1, Mach.canon x1 → Mach.canon (doVinComplete x0 x1) := by
  intro x0 x1 h
  unfold doVinComplete
  dsimp -proj -iota -eta only
  split
  · refine canon_ite ?_ ?_
    · apply pullIn_canon
      apply setTile_canon
      exact h
    · exact h
  · exact h

theorem doXfer_canon : ∀ x0 x1 x2 x3 x4 x5, Mach.canon x5 → Mach.canon (doXfer x0 x1 x2 x3 x4 x5) := by
  intro x0 x1 x2 x3 x4 x5 h
  unfold doXfer
  apply runTile_canon
  exact h

theorem doAlu_canon : ∀ x0 x1 x2 x3 x4 x5, Mach.canon x5 → Mach.canon (doAlu x0 x1 x2 x3 x4 x5) := by
  intro x0 x1 x2 x3 x4 x5 h
  unfold doAlu
  apply runTile_canon
  exact h

theorem doCbset_canon : ∀ x0 x1 x2 x3 x4, Mach.canon x4 → Mach.canon (doCbset x0 x1 x2 x3 x4) := by
  intro x0 x1 x2 x3 x4 h
  unfold doCbset
  apply runTile_canon
  exact h

end Sys2Proof.Machine
end

