-- ==== Sys2Proof/Laws/CanonTileHost.lean ====
section
/-! SUPPORT. The operations of Machine/TileHost.lean keep the registers and the reservoir in canonical form. -/

namespace Sys2Proof.Machine

set_option maxRecDepth 8000

theorem bindTile_canon : ∀ x0 x1 x2 x3, Mach.canon x3 → Mach.canon (bindTile x0 x1 x2 x3) := by
  intro x0 x1 x2 x3 h
  unfold bindTile
  apply setRemap_canon
  exact h

theorem doTileSpareStart_canon : ∀ x0 x1, Mach.canon x1 → Mach.canon (doTileSpareStart x0 x1) := by
  intro x0 x1 h
  unfold doTileSpareStart
  dsimp -proj -iota -eta only
  split
  · exact h
  · refine canon_ite ?_ ?_
    · apply hardDone_canon
      apply useSpare_canon
      apply bindTile_canon
      apply tileEv_canon
      apply reloadTile_canon
      apply setTile_canon
      apply setTile_canon
      exact h
    · exact h

theorem doTileHaltComplete_canon : ∀ x0 x1, Mach.canon x1 → Mach.canon (doTileHaltComplete x0 x1) := by
  intro x0 x1 h
  unfold doTileHaltComplete
  dsimp -proj -iota -eta only
  refine canon_ite ?_ ?_
  · apply setTile_canon
    exact h
  · exact h

theorem winErr_canon : ∀ x0 x1, Mach.canon x1 → Mach.canon (winErr x0 x1) := by
  intro x0 x1 h
  unfold winErr
  apply tileEv_canon
  exact h

theorem doTileClrWtag_canon : ∀ x0 x1, Mach.canon x1 → Mach.canon (doTileClrWtag x0 x1) := by
  intro x0 x1 h
  unfold doTileClrWtag
  dsimp -proj -iota -eta only
  apply gate_canon
  · intro m1 h1
    refine canon_ite ?_ ?_
    · apply winErr_canon
      exact h1
    · apply setTile_canon
      exact h1
  · exact h

theorem doTileRun_canon : ∀ x0 x1, Mach.canon x1 → Mach.canon (doTileRun x0 x1) := by
  intro x0 x1 h
  unfold doTileRun
  dsimp -proj -iota -eta only
  apply gate_canon
  · intro m1 h1
    refine canon_ite ?_ ?_
    · apply winErr_canon
      exact h1
    · apply setTile_canon
      exact h1
  · exact h

theorem doTileHalt_canon : ∀ x0 x1, Mach.canon x1 → Mach.canon (doTileHalt x0 x1) := by
  intro x0 x1 h
  unfold doTileHalt
  dsimp -proj -iota -eta only
  apply gate_canon
  · intro m1 h1
    refine canon_ite ?_ ?_
    · apply winErr_canon
      exact h1
    · refine canon_ite ?_ ?_
      · apply setTile_canon
        exact h1
      · exact h1
  · exact h

theorem doTileForceHalt_canon : ∀ x0 x1, Mach.canon x1 → Mach.canon (doTileForceHalt x0 x1) := by
  intro x0 x1 h
  unfold doTileForceHalt
  dsimp -proj -iota -eta only
  apply gate_canon
  · intro m1 h1
    refine canon_ite ?_ ?_
    · apply winErr_canon
      exact h1
    · refine canon_ite ?_ ?_
      · apply setTile_canon
        exact h1
      · exact h1
  · exact h

theorem tileCmd_canon : ∀ x0 x1 x2, Mach.canon x2 → Mach.canon (tileCmd x0 x1 x2) := by
  intro x0 x1 x2 h
  unfold tileCmd
  dsimp -proj -iota -eta only
  refine canon_ite ?_ ?_
  · apply gate_canon
    · intro m1 h1
      apply winErr_canon
      exact h1
    · exact h
  · split
    · apply doTileRun_canon
      refine canon_ite ?_ ?_
      · apply doTileClrWtag_canon
        exact h
      · exact h
    · apply doTileHalt_canon
      refine canon_ite ?_ ?_
      · apply doTileClrWtag_canon
        exact h
      · exact h
    · apply doTileForceHalt_canon
      refine canon_ite ?_ ?_
      · apply doTileClrWtag_canon
        exact h
      · exact h
    · refine canon_ite ?_ ?_
      · apply doTileClrWtag_canon
        exact h
      · exact h

theorem tileW1c_canon : ∀ x0 x1 x2 x3, Mach.canon x3 → Mach.canon (tileW1c x0 x1 x2 x3) := by
  intro x0 x1 x2 x3 h
  unfold tileW1c
  dsimp -proj -iota -eta only
  refine canon_ite ?_ ?_
  · apply setTile_canon
    exact h
  · apply setTile_canon
    exact h

theorem bufRegWrite_canon : ∀ x0 x1 x2 x3 x4, Mach.canon x4 → Mach.canon (bufRegWrite x0 x1 x2 x3 x4) := by
  intro x0 x1 x2 x3 x4 h
  unfold bufRegWrite
  dsimp -proj -iota -eta only
  refine canon_ite ?_ ?_
  · apply winErr_canon
    exact h
  · split
    · refine canon_ite ?_ ?_
      · apply winErr_canon
        exact h
      · apply setTile_canon
        exact h
    · refine canon_ite ?_ ?_
      · apply winErr_canon
        exact h
      · apply setTile_canon
        exact h
    · apply setTile_canon
      exact h
    · apply setTile_canon
      exact h

theorem tileWrite_canon : ∀ x0 x1 x2 x3, Mach.canon x3 → Mach.canon (tileWrite x0 x1 x2 x3) := by
  intro x0 x1 x2 x3 h
  unfold tileWrite
  dsimp -proj -iota -eta only
  refine canon_ite ?_ ?_
  · apply tileCmd_canon
    exact h
  · refine canon_ite ?_ ?_
    · apply winErr_canon
      exact h
    · refine canon_ite ?_ ?_
      · apply tileW1c_canon
        exact h
      · refine canon_ite ?_ ?_
        · apply setTile_canon
          exact h
        · refine canon_ite ?_ ?_
          · apply setTile_canon
            exact h
          · refine canon_ite ?_ ?_
            · apply setTile_canon
              exact h
            · refine canon_ite ?_ ?_
              · apply bufRegWrite_canon
                exact h
              · refine canon_ite ?_ ?_
                · refine canon_ite ?_ ?_
                  · apply setTile_canon
                    exact h
                  · apply winErr_canon
                    exact h
                · refine canon_ite ?_ ?_
                  · apply setTile_canon
                    exact h
                  · exact h

theorem doTileWindowWrite_canon : ∀ x0 x1 x2 x3, Mach.canon x3 → Mach.canon (doTileWindowWrite x0 x1 x2 x3) := by
  intro x0 x1 x2 x3 h
  unfold doTileWindowWrite
  apply gate_canon
  · intro m1 h1
    refine canon_ite ?_ ?_
    · apply setEv_canon
      exact h1
    · apply tileWrite_canon
      exact h1
  · exact h

theorem doCkpt_canon : ∀ x0 x1, Mach.canon x1 → Mach.canon (doCkpt x0 x1) := by
  intro x0 x1 h
  unfold doCkpt
  dsimp -proj -iota -eta only
  apply runTile_canon
  exact h

theorem tileReadEff_canon : ∀ x0 x1 x2, Mach.canon x2 → Mach.canon (tileReadEff x0 x1 x2) := by
  intro x0 x1 x2 h
  unfold tileReadEff
  dsimp -proj -iota -eta only
  refine canon_ite ?_ ?_
  · apply setTile_canon
    exact h
  · exact h

theorem doTileSubstComplete_canon : ∀ x0 x1, Mach.canon x1 → Mach.canon (doTileSubstComplete x0 x1) := by
  intro x0 x1 h
  unfold doTileSubstComplete
  dsimp -proj -iota -eta only
  split
  · exact h
  · refine canon_ite ?_ ?_
    · apply plannedDone_canon
      apply useSpare_canon
      apply bindTile_canon
      apply tileEv_canon
      apply setTile_canon
      apply setTile_canon
      exact h
    · exact h

theorem doTileCmdInvalid_canon : ∀ x0 x1 x2, Mach.canon x2 → Mach.canon (doTileCmdInvalid x0 x1 x2) := by
  intro x0 x1 x2 h
  unfold doTileCmdInvalid
  dsimp -proj -iota -eta only
  refine canon_ite ?_ ?_
  · apply gate_canon
    · intro m1 h1
      apply winErr_canon
      exact h1
    · exact h
  · exact h

theorem doTileHardFail_canon : ∀ x0 x1, Mach.canon x1 → Mach.canon (doTileHardFail x0 x1) := by
  intro x0 x1 h
  unfold doTileHardFail
  dsimp -proj -iota -eta only
  refine canon_ite ?_ ?_
  · exact h
  · split
    · apply dropPlanned_canon
      apply loseJob_canon
      apply commitTile_canon
      exact h
    · apply noSpare_canon
      apply bindTile_canon
      apply setTile_canon
      apply dropPlanned_canon
      apply loseJob_canon
      apply commitTile_canon
      exact h

end Sys2Proof.Machine
end

