-- ==== Sys2Proof/Laws/CanonHealth.lean ====
section
/-! SUPPORT. The operations of Machine/Health.lean keep the registers and the reservoir in canonical form. -/

namespace Sys2Proof.Machine

set_option maxRecDepth 8000

theorem spareBad_canon : ∀ x0 x1 x2, Mach.canon x2 → Mach.canon (spareBad x0 x1 x2) := by
  intro x0 x1 x2 h
  unfold spareBad
  dsimp -proj -iota -eta only
  refine canon_ite ?_ ?_
  · apply raiseReplace_canon
    apply refreshRes_canon
    apply refreshKind_canon
    split
    · apply recordSlices_canon
      apply fset_canon
      apply setRemap_canon
      exact h
    · apply recordSlices_canon
      apply fset_canon
      apply setRemap_canon
      exact h
    · split
      · apply setRemap_canon
        apply setRemap_canon
        exact h
      · apply setRemap_canon
        exact h
    · apply fset_canon
      apply setRemap_canon
      exact h
    · split
      · apply setRemap_canon
        apply setRemap_canon
        exact h
      · apply setRemap_canon
        exact h
    · apply setRemap_canon
      exact h
  · apply refreshRes_canon
    apply refreshKind_canon
    split
    · apply recordSlices_canon
      apply fset_canon
      apply setRemap_canon
      exact h
    · apply recordSlices_canon
      apply fset_canon
      apply setRemap_canon
      exact h
    · split
      · apply setRemap_canon
        apply setRemap_canon
        exact h
      · apply setRemap_canon
        exact h
    · apply fset_canon
      apply setRemap_canon
      exact h
    · split
      · apply setRemap_canon
        apply setRemap_canon
        exact h
      · apply setRemap_canon
        exact h
    · apply setRemap_canon
      exact h

theorem emptyPool_canon : ∀ x0 x1, Mach.canon x1 → Mach.canon (emptyPool x0 x1) := by
  intro x0 x1 h
  unfold emptyPool
  dsimp -proj -iota -eta only
  split
  · split
    · apply noSlice_canon
      exact h
    · exact h
  · split
    · apply noSlice_canon
      exact h
    · exact h
  · refine canon_ite ?_ ?_
    · apply bindTile_canon
      apply setTile_canon
      exact h
    · exact h
  · split
    · apply engineDead_canon
      exact h
    · exact h
  · apply colGone_canon
    apply refreshBeams_canon
    apply loseCol_canon
    exact h
  · exact h

theorem retirePlan_canon : ∀ x0 x1 x2, Mach.canon x2 → Mach.canon (retirePlan x0 x1 x2) := by
  intro x0 x1 x2 h
  unfold retirePlan
  dsimp -proj -iota -eta only
  refine canon_ite ?_ ?_
  · apply pumpPlanned_canon
    apply setRemap_canon
    refine canon_mk (canon_of ?_)
    apply logRetired_canon
    exact h
  · apply emptyPool_canon
    apply markWorn_canon
    apply setRemap_canon
    apply logRetired_canon
    exact h

theorem sliceRetire_canon : ∀ x0 x1 x2, Mach.canon x2 → Mach.canon (sliceRetire x0 x1 x2) := by
  intro x0 x1 x2 h
  unfold sliceRetire
  dsimp -proj -iota -eta only
  refine canon_ite ?_ ?_
  · apply setRemap_canon
    apply spareBad_canon
    apply logRetired_canon
    exact h
  · refine canon_ite ?_ ?_
    · apply sliceNow_canon
      apply setRemap_canon
      apply logRetired_canon
      exact h
    · apply retirePlan_canon
      exact h

theorem rowsOut_canon : ∀ x0 x1 x2, Mach.canon x2 → Mach.canon (rowsOut x0 x1 x2) := by
  intro x0 x1 x2 h
  unfold rowsOut
  dsimp -proj -iota -eta only
  refine canon_ite ?_ ?_
  · refine canon_ite ?_ ?_
    · exact h
    · apply retirePlan_canon
      apply setRemap_canon
      exact h
  · apply retirePlan_canon
    exact h

theorem mirrorRetire_canon : ∀ x0 x1 x2, Mach.canon x2 → Mach.canon (mirrorRetire x0 x1 x2) := by
  intro x0 x1 x2 h
  unfold mirrorRetire
  dsimp -proj -iota -eta only
  refine canon_ite ?_ ?_
  · apply plannedOver_canon
    apply refreshMirLane_canon
    apply useSpare_canon
    apply setRemap_canon
    apply logRetired_canon
    exact h
  · apply retirePlan_canon
    exact h

theorem nandSubst_canon : ∀ x0 x1 x2, Mach.canon x2 → Mach.canon (nandSubst x0 x1 x2) := by
  intro x0 x1 x2 h
  unfold nandSubst
  dsimp -proj -iota -eta only
  refine canon_ite ?_ ?_
  · exact h
  · refine canon_ite ?_ ?_
    · apply raiseReplace_canon
      apply useSpare_canon
      apply substDone_canon
      apply setRemap_canon
      exact h
    · apply useSpare_canon
      apply substDone_canon
      apply setRemap_canon
      exact h

theorem retire_canon : ∀ x0 x1 x2, Mach.canon x2 → Mach.canon (retire x0 x1 x2) := by
  intro x0 x1 x2 h
  unfold retire
  split
  · apply sliceRetire_canon
    exact h
  · apply sliceRetire_canon
    exact h
  · apply rowsOut_canon
    exact h
  · apply mirrorRetire_canon
    exact h
  · refine canon_ite ?_ ?_
    · exact h
    · apply nandSubst_canon
      apply logRetired_canon
      exact h
  · apply retirePlan_canon
    exact h

theorem countEvent_canon : ∀ x0 x1, Mach.canon x1 → Mach.canon (countEvent x0 x1) := by
  intro x0 x1 h
  unfold countEvent
  dsimp -proj -iota -eta only
  refine canon_ite ?_ ?_
  · exact h
  · refine canon_ite ?_ ?_
    · apply retire_canon
      refine canon_mk (canon_of ?_)
      refine canon_mk (canon_of ?_)
      exact h
    · refine canon_mk (canon_of ?_)
      exact h

theorem correctable_canon : ∀ x0 x1, Mach.canon x1 → Mach.canon (correctable x0 x1) := by
  intro x0 x1 h
  unfold correctable
  apply countEvent_canon
  refine canon_ite ?_ ?_
  · apply tileEv_canon
    exact h
  · exact h

theorem unitCorrected_canon : ∀ x0 x1, Mach.canon x1 → Mach.canon (unitCorrected x0 x1) := by
  intro x0 x1 h
  unfold unitCorrected
  dsimp -proj -iota -eta only
  apply correctable_canon
  apply correctable_canon
  exact h

theorem doResWindowRead_canon (a : Nat) (e : EccErr) (m : Mach) (h : m.canon) : (doResWindowRead a e m).canon := by
  have h1 := returnWord_canon _ (gateRead_canon resLo _ (fun m hm => windowRead_canon a e m hm) _ h)
  unfold doResWindowRead
  split
  · exact unitCorrected_canon _ _ h1
  · exact h1

theorem spareTest_canon : ∀ x0 x1 x2 x3, Mach.canon x3 → Mach.canon (spareTest x0 x1 x2 x3) := by
  intro x0 x1 x2 x3 h
  unfold spareTest
  refine canon_ite ?_ ?_
  · exact h
  · apply spareBad_canon
    apply logCode_canon
    apply setEvDie_canon
    exact h

theorem spareGone_canon : ∀ x0 x1, Mach.canon x1 → Mach.canon (spareGone x0 x1) := by
  intro x0 x1 h
  unfold spareGone
  apply emptyPool_canon
  apply markWorn_canon
  apply dropPlanned_canon
  exact h

theorem sparesLeft_canon : ∀ x0, Mach.canon x0 → Mach.canon (sparesLeft x0) := by
  intro x0 h
  unfold sparesLeft
  apply each_canon
  · intro a1_0 m1 h1
    apply spareGone_canon
    exact h1
  · exact h

theorem coreMoves_canon : ∀ x0 x1, Mach.canon x1 → Mach.canon (coreMoves x0 x1) := by
  intro x0 x1 h
  unfold coreMoves
  dsimp -proj -iota -eta only
  apply nextFree_canon
  refine canon_mk (canon_of ?_)
  exact h

theorem gafferFail_canon : ∀ x0, Mach.canon x0 → Mach.canon (gafferFail x0) := by
  intro x0 h
  unfold gafferFail
  dsimp -proj -iota -eta only
  refine canon_ite ?_ ?_
  · exact h
  · refine canon_ite ?_ ?_
    · apply hardDone_canon
      apply coreMoves_canon
      apply useSpare_canon
      apply setEv_canon
      exact h
    · apply twinFault_canon
      apply noSpare_canon
      apply setEv_canon
      exact h

theorem doScrubRead_canon (u : Nat) (e : EccErr) (m : Mach) (h : m.canon) : (doScrubRead u e m).canon := by
  unfold doScrubRead
  dsimp -proj -iota -eta only
  refine canon_ite ?_ h
  split
  · exact unitCorrected_canon _ _ (eccRead_canon _ _ _ h)
  · exact eccRead_canon _ _ _ h

theorem nandScrub_canon : ∀ x0 x1, Mach.canon x1 → Mach.canon (nandScrub x0 x1) := by
  intro x0 x1 h
  unfold nandScrub
  refine canon_ite ?_ ?_
  · apply each_canon
    · intro a1_0 m1 h1
      apply correctable_canon
      exact h1
    · exact h
  · exact h

theorem gafferPlanned_canon : ∀ x0, Mach.canon x0 → Mach.canon (gafferPlanned x0) := by
  intro x0 h
  unfold gafferPlanned
  split
  · refine canon_ite ?_ ?_
    · apply plannedDone_canon
      apply coreMoves_canon
      apply useSpare_canon
      exact h
    · exact h
  · exact h

end Sys2Proof.Machine
end

