-- ==== Sys2Proof/Laws/CanonRegWrite.lean ====
section
/-! SUPPORT. The operations of Machine/RegWrite.lean keep the registers and the reservoir in canonical form. -/

namespace Sys2Proof.Machine

set_option maxRecDepth 8000

theorem mirrorRws_canon : ∀ x0 x1 x2, Mach.canon x2 → Mach.canon (mirrorRws x0 x1 x2) := by
  intro x0 x1 x2 h
  unfold mirrorRws
  refine canon_ite ?_ ?_
  · apply mirror_canon
    exact h
  · refine canon_ite ?_ ?_
    · apply mirror_canon
      exact h
    · refine canon_ite ?_ ?_
      · apply mirror_canon
        exact h
      · refine canon_ite ?_ ?_
        · apply mirror_canon
          exact h
        · exact h

theorem applyRws_canon : ∀ x0 x1 x2, Mach.canon x2 → Mach.canon (applyRws x0 x1 x2) := by
  intro x0 x1 x2 h
  unfold applyRws
  apply wr_canon
  exact h

theorem rwsWrite_canon : ∀ x0 x1 x2, Mach.canon x2 → Mach.canon (rwsWrite x0 x1 x2) := by
  intro x0 x1 x2 h
  unfold rwsWrite
  dsimp -proj -iota -eta only
  apply mirrorRws_canon
  refine canon_ite ?_ ?_
  · apply applyRws_canon
    apply setStage_canon
    exact h
  · apply setStage_canon
    exact h

theorem w1c_canon : ∀ x0 x1 x2 x3, Mach.canon x3 → Mach.canon (w1c x0 x1 x2 x3) := by
  intro x0 x1 x2 x3 h
  unfold w1c
  dsimp -proj -iota -eta only
  apply wr_canon
  apply each_canon
  · intro a1_0 m1 h1
    apply setEvBit_canon
    exact h1
  · exact h

theorem plainWrite_canon : ∀ x0 x1 x2, Mach.canon x2 → Mach.canon (plainWrite x0 x1 x2) := by
  intro x0 x1 x2 h
  unfold plainWrite
  split
  · exact h
  · split
    · apply wr_canon
      exact h
    · apply rwsWrite_canon
      exact h
    · apply w1c_canon
      exact h
    · exact h
    · exact h

theorem rxUnitWrite_canon : ∀ x0 x1 x2 x3 x4, Mach.canon x4 → Mach.canon (rxUnitWrite x0 x1 x2 x3 x4) := by
  intro x0 x1 x2 x3 x4 h
  unfold rxUnitWrite
  refine canon_ite ?_ ?_
  · apply rxCtrlWrite_canon
    exact h
  · refine canon_ite ?_ ?_
    · apply rxAttenWrite_canon
      exact h
    · refine canon_ite ?_ ?_
      · apply factorWrite_canon
        exact h
      · apply plainWrite_canon
        exact h

theorem chainWrite_canon : ∀ x0 x1 x2 x3 x4, Mach.canon x4 → Mach.canon (chainWrite x0 x1 x2 x3 x4) := by
  intro x0 x1 x2 x3 x4 h
  unfold chainWrite
  split
  · apply chainCfgWrite_canon
    exact h
  · apply chainRespWrite_canon
    exact h
  · apply chainShiftWrite_canon
    exact h
  · apply ftwLoWrite_canon
    exact h
  · apply ftwHiWrite_canon
    exact h
  · apply chainPhaseWrite_canon
    exact h
  · apply plainWrite_canon
    exact h

theorem pathWrite_canon : ∀ x0 x1 x2 x3 x4, Mach.canon x4 → Mach.canon (pathWrite x0 x1 x2 x3 x4) := by
  intro x0 x1 x2 x3 x4 h
  unfold pathWrite
  dsimp -proj -iota -eta only
  refine canon_ite ?_ ?_
  · apply rxUnitWrite_canon
    exact h
  · refine canon_ite ?_ ?_
    · apply chainWrite_canon
      exact h
    · refine canon_ite ?_ ?_
      · apply chainWrite_canon
        exact h
      · refine canon_ite ?_ ?_
        · apply txCfgWrite_canon
          exact h
        · refine canon_ite ?_ ?_
          · apply txAttWrite_canon
            exact h
          · refine canon_ite ?_ ?_
            · apply lutWrite_canon
              exact h
            · apply plainWrite_canon
              exact h

theorem dirSnapCmd_canon : ∀ x0 x1, Mach.canon x1 → Mach.canon (dirSnapCmd x0 x1) := by
  intro x0 x1 h
  unfold dirSnapCmd
  refine canon_ite ?_ ?_
  · apply setEv_canon
    exact h
  · split
    · exact h
    · apply dirEnter_canon
      exact h
    · apply dirEnter_canon
      exact h
    · apply snapLost_canon
      exact h

theorem settingWrite_canon : ∀ x0 x1 x2, Mach.canon x2 → Mach.canon (settingWrite x0 x1 x2) := by
  intro x0 x1 x2 h
  unfold settingWrite
  apply saveSetting_canon
  apply plainWrite_canon
  exact h

theorem acqWrite_canon : ∀ x0 x1 x2, Mach.canon x2 → Mach.canon (acqWrite x0 x1 x2) := by
  intro x0 x1 x2 h
  unfold acqWrite
  refine canon_ite ?_ ?_
  · apply dirCfgWrite_canon
    exact h
  · refine canon_ite ?_ ?_
    · apply dirSeedWrite_canon
      exact h
    · refine canon_ite ?_ ?_
      · apply dirSnapCmd_canon
        exact h
      · refine canon_ite ?_ ?_
        · apply settingWrite_canon
          exact h
        · apply plainWrite_canon
          exact h

theorem clkWrite_canon : ∀ x0 x1 x2, Mach.canon x2 → Mach.canon (clkWrite x0 x1 x2) := by
  intro x0 x1 x2 h
  unfold clkWrite
  refine canon_ite ?_ ?_
  · apply refCfgWrite_canon
    exact h
  · refine canon_ite ?_ ?_
    · apply clkSeedWrite_canon
      exact h
    · refine canon_ite ?_ ?_
      · apply clkSteerWrite_canon
        exact h
      · refine canon_ite ?_ ?_
        · apply classBRequest_canon
          exact h
        · refine canon_ite ?_ ?_
          · apply syncCfgWrite_canon
            exact h
          · apply plainWrite_canon
            exact h

theorem monWrite_canon : ∀ x0 x1 x2, Mach.canon x2 → Mach.canon (monWrite x0 x1 x2) := by
  intro x0 x1 x2 h
  unfold monWrite
  dsimp -proj -iota -eta only
  refine canon_ite ?_ ?_
  · refine canon_ite ?_ ?_
    · apply monCmdWrite_canon
      exact h
    · refine canon_ite ?_ ?_
      · apply monFactWrite_canon
        exact h
      · apply plainWrite_canon
        exact h
  · refine canon_ite ?_ ?_
    · apply monTrigCmd_canon
      exact h
    · refine canon_ite ?_ ?_
      · apply monThrWrite_canon
        exact h
      · refine canon_ite ?_ ?_
        · apply settingWrite_canon
          exact h
        · refine canon_ite ?_ ?_
          · apply trigArm_canon
            apply plainWrite_canon
            exact h
          · apply plainWrite_canon
            exact h

theorem calWrite_canon : ∀ x0 x1 x2, Mach.canon x2 → Mach.canon (calWrite x0 x1 x2) := by
  intro x0 x1 x2 h
  unfold calWrite
  refine canon_ite ?_ ?_
  · apply calCtrlWrite_canon
    exact h
  · refine canon_ite ?_ ?_
    · apply calRefWrite_canon
      exact h
    · refine canon_ite ?_ ?_
      · apply calRefWrite_canon
        exact h
      · apply plainWrite_canon
        exact h

theorem capWrite_canon : ∀ x0 x1 x2 x3 x4, Mach.canon x4 → Mach.canon (capWrite x0 x1 x2 x3 x4) := by
  intro x0 x1 x2 x3 x4 h
  unfold capWrite
  split
  · apply capCfgWrite_canon
    exact h
  · apply capCmd_canon
    exact h
  · apply capCfgWrite_canon
    exact h
  · apply capCfgWrite_canon
    exact h
  · apply capCfgWrite_canon
    exact h
  · apply capLenWrite_canon
    exact h
  · apply capCfgWrite_canon
    exact h
  · apply capCfgWrite_canon
    exact h
  · apply capRptrWrite_canon
    exact h
  · apply plainWrite_canon
    exact h

theorem dmaWrite_canon : ∀ x0 x1 x2, Mach.canon x2 → Mach.canon (dmaWrite x0 x1 x2) := by
  intro x0 x1 x2 h
  unfold dmaWrite
  dsimp -proj -iota -eta only
  refine canon_ite ?_ ?_
  · split
    · apply dmaCmd_canon
      exact h
    · apply dmaChCfgWrite_canon
      exact h
    · apply dmaChCfgWrite_canon
      exact h
    · apply plainWrite_canon
      exact h
  · refine canon_ite ?_ ?_
    · apply quotaWrite_canon
      exact h
    · refine canon_ite ?_ ?_
      · apply capWrite_canon
        exact h
      · apply plainWrite_canon
        exact h

theorem eplWrite_canon : ∀ x0 x1 x2, Mach.canon x2 → Mach.canon (eplWrite x0 x1 x2) := by
  intro x0 x1 x2 h
  unfold eplWrite
  dsimp -proj -iota -eta only
  refine canon_ite ?_ ?_
  · apply portCtrlWrite_canon
    exact h
  · refine canon_ite ?_ ?_
    · apply refreshSess_canon
      apply plainWrite_canon
      exact h
    · apply plainWrite_canon
      exact h

theorem obsWrite_canon : ∀ x0 x1 x2 x3 x4, Mach.canon x4 → Mach.canon (obsWrite x0 x1 x2 x3 x4) := by
  intro x0 x1 x2 x3 x4 h
  unfold obsWrite
  refine canon_ite ?_ ?_
  · apply setCoupler_canon
    exact h
  · refine canon_ite ?_ ?_
    · apply rxUnitWrite_canon
      exact h
    · refine canon_ite ?_ ?_
      · apply chainWrite_canon
        exact h
      · apply plainWrite_canon
        exact h

theorem quadBlockWrite_canon : ∀ x0 x1 x2 x3 x4, Mach.canon x4 → Mach.canon (quadBlockWrite x0 x1 x2 x3 x4) := by
  intro x0 x1 x2 x3 x4 h
  unfold quadBlockWrite
  refine canon_ite ?_ ?_
  · apply pathWrite_canon
    exact h
  · refine canon_ite ?_ ?_
    · apply rxCalCmd_canon
      exact h
    · refine canon_ite ?_ ?_
      · apply settingWrite_canon
        exact h
      · refine canon_ite ?_ ?_
        · apply obsWrite_canon
          exact h
        · refine canon_ite ?_ ?_
          · apply fesCfgWrite_canon
            exact h
          · refine canon_ite ?_ ?_
            · apply fesSwWrite_canon
              exact h
            · refine canon_ite ?_ ?_
              · apply swapRegWrite_canon
                exact h
              · apply plainWrite_canon
                exact h

theorem blockWrite_canon : ∀ x0 x1 x2, Mach.canon x2 → Mach.canon (blockWrite x0 x1 x2) := by
  intro x0 x1 x2 h
  unfold blockWrite
  split
  · refine canon_ite ?_ ?_
    · apply bmuCfgWrite_canon
      exact h
    · apply plainWrite_canon
      exact h
  · apply acqWrite_canon
    exact h
  · apply clkWrite_canon
    exact h
  · apply monWrite_canon
    exact h
  · apply calWrite_canon
    exact h
  · apply dmaWrite_canon
    exact h
  · apply eplWrite_canon
    exact h
  · refine canon_ite ?_ ?_
    · apply quadBlockWrite_canon
      exact h
    · apply plainWrite_canon
      exact h

end Sys2Proof.Machine
end

