-- ==== Sys2Proof/Laws/CanonStates.lean ====
section
/-! SUPPORT. The operations of Machine/States.lean keep the registers and the reservoir in canonical form. -/

namespace Sys2Proof.Machine

set_option maxRecDepth 8000

theorem endTrans_canon : ∀ x0, Mach.canon x0 → Mach.canon (endTrans x0) := by
  intro x0 h
  unfold endTrans
  apply fset_canon
  refine canon_mk (canon_of ?_)
  exact h

theorem takeoverRefused_canon : ∀ x0, Mach.canon x0 → Mach.canon (takeoverRefused x0) := by
  intro x0 h
  unfold takeoverRefused
  dsimp -proj -iota -eta only
  refine canon_ite ?_ ?_
  · apply wantEvent_canon
    apply setEv_canon
    apply fset_canon
    refine canon_mk (canon_of ?_)
    exact h
  · exact h

theorem startTrans_canon : ∀ x0 x1, Mach.canon x1 → Mach.canon (startTrans x0 x1) := by
  intro x0 x1 h
  unfold startTrans
  apply fset_canon
  refine canon_mk (canon_of ?_)
  exact h

theorem clearDegraded_canon : ∀ x0, Mach.canon x0 → Mach.canon (clearDegraded x0) := by
  intro x0 h
  unfold clearDegraded
  refine canon_ite ?_ ?_
  · apply startTrans_canon
    exact h
  · apply stateErr_canon
    exact h

theorem warmReturn_canon : ∀ x0, Mach.canon x0 → Mach.canon (warmReturn x0) := by
  intro x0 h
  unfold warmReturn
  refine canon_ite ?_ ?_
  · apply refreshPins_canon
    apply dropToken_canon
    apply endTrans_canon
    apply setDev_canon
    exact h
  · exact h

theorem startWarm_canon : ∀ x0, Mach.canon x0 → Mach.canon (startWarm x0) := by
  intro x0 h
  unfold startWarm
  dsimp -proj -iota -eta only
  apply each_canon
  · intro a1_0 m1 h1
    refine canon_ite ?_ ?_
    · apply refuseReq_canon
      apply setQ_canon
      exact h1
    · apply powerUp_canon
      exact h1
  · apply startTrans_canon
    exact h

theorem enterActive_canon : ∀ x0 x1, Mach.canon x1 → Mach.canon (enterActive x0 x1) := by
  intro x0 x1 h
  unfold enterActive
  refine canon_ite ?_ ?_
  · apply setEv_canon
    apply setDev_canon
    exact h
  · apply setDev_canon
    exact h

theorem resetChains_canon : ∀ x0 x1, Mach.canon x1 → Mach.canon (resetChains x0 x1) := by
  intro x0 x1 h
  unfold resetChains
  dsimp -proj -iota -eta only
  apply each_canon
  · intro a1_0 m1 h1
    apply syncReset_canon
    exact h1
  · apply each_canon
    · intro a2_0 m2 h2
      apply setOut_canon
      apply syncReset_canon
      apply syncReset_canon
      exact h2
    · exact h

theorem startQuad_canon : ∀ x0 x1, Mach.canon x1 → Mach.canon (startQuad x0 x1) := by
  intro x0 x1 h
  unfold startQuad
  dsimp -proj -iota -eta only
  apply setQ_canon
  apply each_canon
  · intro a1_0 m1 h1
    apply setMesh_canon
    exact h1
  · apply resetChains_canon
    exact h

theorem applyMirroredReq_canon : ∀ x0, Mach.canon x0 → Mach.canon (applyMirroredReq x0) := by
  intro x0 h
  unfold applyMirroredReq
  dsimp -proj -iota -eta only
  apply refreshReqPending_canon
  apply each_canon
  · intro a1_0 m1 h1
    refine canon_ite ?_ ?_
    · apply startQuad_canon
      apply takeReqSlot_canon
      apply pendReq_canon
      exact h1
    · apply takeReqSlot_canon
      apply pendReq_canon
      exact h1
  · exact h

theorem leaveActive_canon : ∀ x0, Mach.canon x0 → Mach.canon (leaveActive x0) := by
  intro x0 h
  unfold leaveActive
  apply startTrans_canon
  exact h

theorem goWarm_canon : ∀ x0, Mach.canon x0 → Mach.canon (goWarm x0) := by
  intro x0 h
  unfold goWarm
  refine canon_ite ?_ ?_
  · apply startWarm_canon
    refine canon_mk (canon_of ?_)
    exact h
  · refine canon_ite ?_ ?_
    · apply leaveActive_canon
      exact h
    · apply stateErr_canon
      exact h

theorem goActive_canon : ∀ x0, Mach.canon x0 → Mach.canon (goActive x0) := by
  intro x0 h
  unfold goActive
  refine canon_ite ?_ ?_
  · apply startTrans_canon
    exact h
  · apply stateErr_canon
    exact h

theorem activeEntry_canon : ∀ x0, Mach.canon x0 → Mach.canon (activeEntry x0) := by
  intro x0 h
  unfold activeEntry
  dsimp -proj -iota -eta only
  refine canon_ite ?_ ?_
  · refine canon_ite ?_ ?_
    · apply refreshPins_canon
      apply wantToken_canon
      refine canon_ite ?_ ?_
      · apply pumpPlanned_canon
        apply applyMirroredReq_canon
        apply fset_canon
        refine canon_mk (canon_of ?_)
        apply enterActive_canon
        apply endTrans_canon
        exact h
      · apply enterActive_canon
        apply endTrans_canon
        exact h
    · apply takeoverRefused_canon
      apply stateErr_canon
      apply endTrans_canon
      exact h
  · exact h

theorem retestEnd_canon : ∀ x0 x1, Mach.canon x1 → Mach.canon (retestEnd x0 x1) := by
  intro x0 x1 h
  unfold retestEnd
  dsimp -proj -iota -eta only
  refine canon_ite ?_ ?_
  · refine canon_ite ?_ ?_
    · apply refreshPins_canon
      apply setDev_canon
      apply fset_canon
      apply fset_canon
      refine canon_mk (canon_of ?_)
      apply wr_canon
      apply endTrans_canon
      exact h
    · apply setEv_canon
      apply wr_canon
      apply endTrans_canon
      exact h
  · exact h

theorem standbyReturn_canon : ∀ x0, Mach.canon x0 → Mach.canon (standbyReturn x0) := by
  intro x0 h
  unfold standbyReturn
  dsimp -proj -iota -eta only
  refine canon_ite ?_ ?_
  · apply refreshPins_canon
    apply endTrans_canon
    apply setDev_canon
    apply each_canon
    · intro a1_0 m1 h1
      apply quadOff_canon
      exact h1
    · exact h
  · exact h

theorem goStandby_canon : ∀ x0, Mach.canon x0 → Mach.canon (goStandby x0) := by
  intro x0 h
  unfold goStandby
  refine canon_ite ?_ ?_
  · apply startTrans_canon
    exact h
  · apply stateErr_canon
    exact h

theorem devCmd_canon : ∀ x0 x1, Mach.canon x1 → Mach.canon (devCmd x0 x1) := by
  intro x0 x1 h
  unfold devCmd
  refine canon_ite ?_ ?_
  · apply stateErr_canon
    exact h
  · split
    · exact h
    · apply unlessBusy_canon
      · intro m1 h1
        apply goStandby_canon
        exact h1
      · exact h
    · apply unlessBusy_canon
      · intro m2 h2
        apply goWarm_canon
        exact h2
      · exact h
    · apply unlessBusy_canon
      · intro m3 h3
        apply goActive_canon
        exact h3
      · exact h
    · apply unlessBusy_canon
      · intro m4 h4
        apply clearDegraded_canon
        exact h4
      · exact h
    · apply unlessBusy_canon
      · intro m5 h5
        apply softReset_canon
        exact h5
      · exact h
    · apply stateErr_canon
      exact h

theorem warmEntry_canon : ∀ x0, Mach.canon x0 → Mach.canon (warmEntry x0) := by
  intro x0 h
  unfold warmEntry
  dsimp -proj -iota -eta only
  refine canon_ite ?_ ?_
  · refine canon_ite ?_ ?_
    · apply goActive_canon
      apply refreshPins_canon
      apply each_canon
      · intro a1_0 m1 h1
        apply setQ_canon
        exact h1
      · apply endTrans_canon
        apply setDev_canon
        refine canon_mk (canon_of ?_)
        exact h
    · apply refreshPins_canon
      apply each_canon
      · intro a2_0 m2 h2
        apply setQ_canon
        exact h2
      · apply endTrans_canon
        apply setDev_canon
        refine canon_mk (canon_of ?_)
        exact h
  · exact h

end Sys2Proof.Machine
end

