-- ==== Sys2Proof/Laws/CanonDeck.lean ====
section
/-! SUPPORT. The operations of Machine/Deck.lean keep the registers and the reservoir in canonical form. -/

namespace Sys2Proof.Machine

set_option maxRecDepth 8000

theorem putBank_canon : ∀ x0 x1 x2 x3, Mach.canon x3 → Mach.canon (putBank x0 x1 x2 x3) := by
  intro x0 x1 x2 x3 h
  unfold putBank
  apply each_canon
  · intro a1_0 m1 h1
    apply setLut_canon
    exact h1
  · exact h

theorem forcedOff_canon : ∀ x0 x1 x2, Mach.canon x2 → Mach.canon (forcedOff x0 x1 x2) := by
  intro x0 x1 x2 h
  unfold forcedOff
  dsimp -proj -iota -eta only
  refine canon_ite ?_ ?_
  · apply setEv_canon
    apply each_canon
    · intro a1_0 m1 h1
      apply setPd_canon
      exact h1
    · refine canon_ite ?_ ?_
      · refine canon_mk (canon_of ?_)
        exact h
      · exact h
  · exact h

theorem loadReserves_canon : ∀ x0 x1, Mach.canon x1 → Mach.canon (loadReserves x0 x1) := by
  intro x0 x1 h
  unfold loadReserves
  apply each_canon
  · intro a1_0 m1 h1
    apply checkReserve_canon
    apply refreshKind_canon
    apply fset_canon
    exact h1
  · exact h

theorem setImg_canon : ∀ x0 x1, Mach.canon x1 → Mach.canon (setImg x0 x1) := by
  intro x0 x1 h
  unfold setImg
  refine canon_mk (canon_of ?_)
  exact h

theorem storeSects_canon : ∀ x0 x1, Mach.canon x1 → Mach.canon (storeSects x0 x1) := by
  intro x0 x1 h
  unfold storeSects
  dsimp -proj -iota -eta only
  apply each_canon
  · intro a1_0 m1 h1
    apply setImg_canon
    exact h1
  · exact h

theorem loadWords_canon : ∀ x0 x1 x2 x3 x4, Mach.canon x4 → Mach.canon (loadWords x0 x1 x2 x3 x4) := by
  intro x0 x1 x2 x3 x4 h
  unfold loadWords
  apply each_canon
  · intro a1_0 m1 h1
    apply wr_canon
    exact h1
  · exact h

theorem loadCurves_canon : ∀ x0 x1 x2, Mach.canon x2 → Mach.canon (loadCurves x0 x1 x2) := by
  intro x0 x1 x2 h
  unfold loadCurves
  apply loadWords_canon
  exact h

theorem writeAnchors_canon : ∀ x0 x1, Mach.canon x1 → Mach.canon (writeAnchors x0 x1) := by
  intro x0 x1 h
  unfold writeAnchors
  dsimp -proj -iota -eta only
  refine canon_ite ?_ ?_
  · apply setStage_canon
    refine canon_ite ?_ ?_
    · apply setStage_canon
      exact h
    · apply applyAnchor_canon
      exact h
  · apply applyAnchor_canon
    refine canon_ite ?_ ?_
    · apply setStage_canon
      exact h
    · apply applyAnchor_canon
      exact h

theorem putWords_canon : ∀ x0 x1 x2, Mach.canon x2 → Mach.canon (putWords x0 x1 x2) := by
  intro x0 x1 x2 h
  unfold putWords
  apply each_canon
  · intro a1_0 m1 h1
    apply wr_canon
    exact h1
  · exact h

theorem loadFrame_canon : ∀ x0 x1 x2, Mach.canon x2 → Mach.canon (loadFrame x0 x1 x2) := by
  intro x0 x1 x2 h
  unfold loadFrame
  dsimp -proj -iota -eta only
  refine canon_ite ?_ ?_
  · refine canon_mk (canon_of ?_)
    exact h
  · refine canon_mk (canon_of ?_)
    exact h

theorem loadBoard_canon : ∀ x0 x1, Mach.canon x1 → Mach.canon (loadBoard x0 x1) := by
  intro x0 x1 h
  unfold loadBoard
  dsimp -proj -iota -eta only
  apply refreshTrace_canon
  apply setEvIf_canon
  apply fset_canon
  apply fsetB_canon
  exact h

theorem loadBanks_canon : ∀ x0 x1 x2, Mach.canon x2 → Mach.canon (loadBanks x0 x1 x2) := by
  intro x0 x1 x2 h
  unfold loadBanks
  dsimp -proj -iota -eta only
  apply each_canon
  · intro a1_0 m1 h1
    apply setEvIf_canon
    apply refreshIdle_canon
    apply fset_canon
    apply putBank_canon
    refine canon_ite ?_ ?_
    · apply dropCycles_canon
      exact h1
    · exact h1
  · exact h

theorem restTiles_canon : ∀ x0 x1, Mach.canon x1 → Mach.canon (restTiles x0 x1) := by
  intro x0 x1 h
  unfold restTiles
  apply each_canon
  · intro a1_0 m1 h1
    split
    · refine canon_ite ?_ ?_
      · apply commitTile_canon
        exact h1
      · exact h1
    · exact h1
  · exact h

theorem loadTiles_canon : ∀ x0 x1, Mach.canon x1 → Mach.canon (loadTiles x0 x1) := by
  intro x0 x1 h
  unfold loadTiles
  apply each_canon
  · intro a1_0 m1 h1
    split
    · apply commitTile_canon
      exact h1
    · exact h1
  · exact h

theorem loadFes_canon : ∀ x0 x1 x2 x3, Mach.canon x3 → Mach.canon (loadFes x0 x1 x2 x3) := by
  intro x0 x1 x2 x3 h
  unfold loadFes
  dsimp -proj -iota -eta only
  refine canon_ite ?_ ?_
  · exact h
  · apply fesRestart_canon
    apply putWords_canon
    apply putWords_canon
    exact h

theorem loadAdj_canon : ∀ x0 x1 x2, Mach.canon x2 → Mach.canon (loadAdj x0 x1 x2) := by
  intro x0 x1 x2 h
  unfold loadAdj
  dsimp -proj -iota -eta only
  apply fset_canon
  apply fsetB_canon
  apply fset_canon
  apply fsetB_canon
  exact h

theorem loadDemand_canon : ∀ x0 x1, Mach.canon x1 → Mach.canon (loadDemand x0 x1) := by
  intro x0 x1 h
  unfold loadDemand
  apply each_canon
  · intro a1_0 m1 h1
    apply fset_canon
    exact h1
  · exact h

theorem loadSect_canon : ∀ x0 x1 x2 x3 x4, Mach.canon x4 → Mach.canon (loadSect x0 x1 x2 x3 x4) := by
  intro x0 x1 x2 x3 x4 h
  unfold loadSect
  split
  · apply loadTiles_canon
    exact h
  · apply loadFrame_canon
    exact h
  · apply each_canon
    · intro a1_0 m1 h1
      apply loadFes_canon
      exact h1
    · exact h
  · apply each_canon
    · intro a2_0 m2 h2
      apply loadCurves_canon
      exact h2
    · exact h
  · apply loadBanks_canon
    exact h
  · apply loadBoard_canon
    exact h
  · apply loadWords_canon
    exact h
  · apply each_canon
    · intro a3_0 m3 h3
      apply loadAdj_canon
      exact h3
    · exact h
  · apply loadReserves_canon
    exact h
  · apply loadDemand_canon
    exact h
  · exact h

theorem planSects_canon : ∀ x0 x1, Mach.canon x1 → Mach.canon (planSects x0 x1) := by
  intro x0 x1 h
  unfold planSects
  dsimp -proj -iota -eta only
  refine canon_ite ?_ ?_
  · refine canon_ite ?_ ?_
    · refine canon_ite ?_ ?_
      · apply each_canon
        · intro a1_0 m1 h1
          refine canon_ite ?_ ?_
          · exact h1
          · apply loadSect_canon
            exact h1
        · exact h
      · apply restTiles_canon
        apply each_canon
        · intro a2_0 m2 h2
          refine canon_ite ?_ ?_
          · exact h2
          · apply loadSect_canon
            exact h2
        · exact h
    · refine canon_ite ?_ ?_
      · refine canon_mk (canon_of ?_)
        refine canon_ite ?_ ?_
        · apply each_canon
          · intro a3_0 m3 h3
            refine canon_ite ?_ ?_
            · exact h3
            · apply loadSect_canon
              exact h3
          · exact h
        · apply restTiles_canon
          apply each_canon
          · intro a4_0 m4 h4
            refine canon_ite ?_ ?_
            · exact h4
            · apply loadSect_canon
              exact h4
          · exact h
      · apply loadFrame_canon
        refine canon_ite ?_ ?_
        · apply each_canon
          · intro a5_0 m5 h5
            refine canon_ite ?_ ?_
            · exact h5
            · apply loadSect_canon
              exact h5
          · exact h
        · apply restTiles_canon
          apply each_canon
          · intro a6_0 m6 h6
            refine canon_ite ?_ ?_
            · exact h6
            · apply loadSect_canon
              exact h6
          · exact h
  · apply applyAnchor_canon
    apply applyAnchor_canon
    refine canon_ite ?_ ?_
    · refine canon_ite ?_ ?_
      · apply each_canon
        · intro a7_0 m7 h7
          refine canon_ite ?_ ?_
          · exact h7
          · apply loadSect_canon
            exact h7
        · exact h
      · apply restTiles_canon
        apply each_canon
        · intro a8_0 m8 h8
          refine canon_ite ?_ ?_
          · exact h8
          · apply loadSect_canon
            exact h8
        · exact h
    · refine canon_ite ?_ ?_
      · refine canon_mk (canon_of ?_)
        refine canon_ite ?_ ?_
        · apply each_canon
          · intro a9_0 m9 h9
            refine canon_ite ?_ ?_
            · exact h9
            · apply loadSect_canon
              exact h9
          · exact h
        · apply restTiles_canon
          apply each_canon
          · intro a10_0 m10 h10
            refine canon_ite ?_ ?_
            · exact h10
            · apply loadSect_canon
              exact h10
          · exact h
      · apply loadFrame_canon
        refine canon_ite ?_ ?_
        · apply each_canon
          · intro a11_0 m11 h11
            refine canon_ite ?_ ?_
            · exact h11
            · apply loadSect_canon
              exact h11
          · exact h
        · apply restTiles_canon
          apply each_canon
          · intro a12_0 m12 h12
            refine canon_ite ?_ ?_
            · exact h12
            · apply loadSect_canon
              exact h12
          · exact h

theorem refreshLims_canon : ∀ x0, Mach.canon x0 → Mach.canon (refreshLims x0) := by
  intro x0 h
  unfold refreshLims
  apply fset_canon
  apply fset_canon
  apply fset_canon
  apply fset_canon
  exact h

theorem dmaCapReset_canon (m : Mach) (h : m.canon) : (dmaCapReset m).canon := canon_mk ⟨tabWf_filter h.1 _, h.2⟩

theorem loadParts_canon : ∀ x0 x1 x2, Mach.canon x2 → Mach.canon (loadParts x0 x1 x2) := by
  intro x0 x1 x2 h
  unfold loadParts
  dsimp -proj -iota -eta only
  apply refreshOverQuota_canon
  apply each_canon
  · intro a1_0 m1 h1
    apply setUse_canon
    exact h1
  · apply each_canon
    · intro a2_0 m2 h2
      apply wr_canon
      apply fset_canon
      apply fset_canon
      exact h2
    · exact h

theorem deckBase_canon : ∀ x0 x1 x2, Mach.canon x2 → Mach.canon (deckBase x0 x1 x2) := by
  intro x0 x1 x2 h
  unfold deckBase
  dsimp -proj -iota -eta only
  apply fset_canon
  apply loadParts_canon
  apply dirEmpty_canon
  apply dmaCapReset_canon
  refine canon_mk (canon_of ?_)
  apply storeSects_canon
  apply setImg_canon
  apply fset_canon
  exact h

theorem planWrites_canon : ∀ x0 x1, Mach.canon x1 → Mach.canon (planWrites x0 x1) := by
  intro x0 x1 h
  unfold planWrites
  dsimp -proj -iota -eta only
  apply each_canon
  · intro a1_0 m1 h1
    refine canon_ite ?_ ?_
    · apply blockWrite_canon
      exact h1
    · apply fset_canon
      apply fset_canon
      apply fset_canon
      apply setEv_canon
      apply blockWrite_canon
      exact h1
  · exact h

theorem setIdent_canon : ∀ x0 x1, Mach.canon x1 → Mach.canon (setIdent x0 x1) := by
  intro x0 x1 h
  unfold setIdent
  dsimp -proj -iota -eta only
  apply mirror_canon
  apply wr_canon
  apply wr_canon
  apply setImg_canon
  exact h

theorem deckSects_canon : ∀ x0, Mach.canon x0 → Mach.canon (deckSects x0) := by
  intro x0 h
  unfold deckSects
  apply each_canon
  · intro a1_0 m1 h1
    split
    · exact h1
    · apply loadSect_canon
      exact h1
  · apply loadBoard_canon
    exact h

theorem planEnter_canon : ∀ x0 x1, Mach.canon x1 → Mach.canon (planEnter x0 x1) := by
  intro x0 x1 h
  unfold planEnter
  apply planWrites_canon
  apply planSects_canon
  exact h

theorem regApply_canon {k : Nat} {l : List ((Nat × W) × Nat)} {m b : Mach} (e : regApply k l m = .ok b) (h : m.canon) :
    b.canon := by
  induction l generalizing m with
  | nil => cases e; exact h
  | cons x l ih =>
    unfold regApply at e
    dsimp -proj -iota -eta only at e
    split at e
    · exact ih e (blockWrite_canon _ _ _ h)
    · cases e

theorem reshApply_canon {f : Mach → Mach} (hf : ∀ m : Mach, m.canon → (f m).canon) {l : List Byte} {m b : Mach}
    (e : reshApply f l m = .ok b) (h : m.canon) : b.canon := by
  unfold reshApply at e
  extract_lets ss p m0 m1 at e
  have h1 : m1.canon :=
    each_canon _ _ (fun s t ht => loadSect_canon _ _ _ _ _ ht) _ (storeSects_canon _ _ (setEvIf_canon _ _ _ h))
  clear_value m1 ss
  split at e
  · cases e
  · split at e
    · cases e
    · next m2 hp =>
      extract_lets m3 m4 at e
      have h3 : m3.canon := refreshLims_canon _ (forcedOff_canon _ _ _ (hf _ (regApply_canon hp h1)))
      have h4 : m4.canon := canon_ite h3 (writeAnchors_canon _ _ h3)
      clear_value m3 m4
      split at e
      · exact absurd e (fun k => by injection k)
      · rw [← Except.ok.inj e]
        exact setEv_canon _ _ (setIdent_canon _ _ (canon_ite h4 (hf _ h4)))

theorem loadDeck_canon {l : List Byte} {m b : Mach} (e : loadDeck l m = .ok b) (h : m.canon) : b.canon := by
  unfold loadDeck at e
  extract_lets plan m1 at e
  split at e
  · cases e
  · split at e
    · cases e
    · next m2 hp =>
      have h2 : m2.canon := regApply_canon hp (deckSects_canon _ (deckBase_canon _ _ _ h))
      extract_lets m3 at e
      have h3 : m3.canon := refreshLims_canon m2 h2
      clear_value m3 m1
      split at e
      · cases e
      · have h5 := setEv_canon IMG_EVENTS.load_done _ (setIdent_canon (imgIdent l) _
          (fset_canon GCTL_DEV_STATE.deck_loaded 1 _ (writeAnchors_canon (deckSect 16 m3) m3 h3)))
        cases e
        exact canon_ite (startPlanLock_canon _ h5) h5

end Sys2Proof.Machine
end

