-- ==== Sys2Proof/Laws/CanonTwin.lean ====
section
/-! SUPPORT. The operations of Machine/Twin.lean keep the registers and the reservoir in canonical form. -/

namespace Sys2Proof.Machine

set_option maxRecDepth 8000

theorem refreshReady_canon : ∀ x0, Mach.canon x0 → Mach.canon (refreshReady x0) := by
  intro x0 h
  unfold refreshReady
  dsimp -proj -iota -eta only
  apply fsetB_canon
  exact h

theorem heartbeatTx_canon : ∀ x0, Mach.canon x0 → Mach.canon (heartbeatTx x0) := by
  intro x0 h
  unfold heartbeatTx
  dsimp -proj -iota -eta only
  refine canon_ite ?_ ?_
  · apply send_canon
    apply refreshReady_canon
    exact h
  · exact h

theorem setTwin_canon : ∀ x0 x1, Mach.canon x1 → Mach.canon (setTwin x0 x1) := by
  intro x0 x1 h
  unfold setTwin
  refine canon_mk (canon_of ?_)
  exact h

theorem dropTakeover_canon : ∀ x0, Mach.canon x0 → Mach.canon (dropTakeover x0) := by
  intro x0 h
  unfold dropTakeover
  apply fset_canon
  apply setTwin_canon
  exact h

theorem releaseAcks_canon : ∀ x0, Mach.canon x0 → Mach.canon (releaseAcks x0) := by
  intro x0 h
  unfold releaseAcks
  apply each_canon
  · intro a1_0 m1 h1
    apply sendNat_canon
    exact h1
  · apply setTwin_canon
    exact h

theorem setRole_canon : ∀ x0 x1, Mach.canon x1 → Mach.canon (setRole x0 x1) := by
  intro x0 x1 h
  unfold setRole
  dsimp -proj -iota -eta only
  refine canon_ite ?_ ?_
  · exact h
  · apply logCode_canon
    apply fset_canon
    refine canon_ite ?_ ?_
    · exact h
    · apply releaseAcks_canon
      exact h

theorem becomeStandby_canon : ∀ x0, Mach.canon x0 → Mach.canon (becomeStandby x0) := by
  intro x0 h
  unfold becomeStandby
  dsimp -proj -iota -eta only
  refine canon_ite ?_ ?_
  · apply leaveActive_canon
    refine canon_ite ?_ ?_
    · apply endTrans_canon
      apply dropTakeover_canon
      apply stopTaking_canon
      apply setRole_canon
      exact h
    · apply dropTakeover_canon
      apply stopTaking_canon
      apply setRole_canon
      exact h
  · refine canon_ite ?_ ?_
    · apply endTrans_canon
      apply dropTakeover_canon
      apply stopTaking_canon
      apply setRole_canon
      exact h
    · apply dropTakeover_canon
      apply stopTaking_canon
      apply setRole_canon
      exact h

theorem roleCheck_canon : ∀ x0 x1, Mach.canon x1 → Mach.canon (roleCheck x0 x1) := by
  intro x0 x1 h
  unfold roleCheck
  dsimp -proj -iota -eta only
  refine canon_ite ?_ ?_
  · exact h
  · refine canon_ite ?_ ?_
    · apply becomeStandby_canon
      apply setEv_canon
      exact h
    · apply setEv_canon
      exact h

theorem handoverRelease_canon : ∀ x0, Mach.canon x0 → Mach.canon (handoverRelease x0) := by
  intro x0 h
  unfold handoverRelease
  dsimp -proj -iota -eta only
  split
  · apply fsetB_canon
    apply setEvIf_canon
    apply dropToken_canon
    apply setTwin_canon
    exact h
  · exact h

theorem twinRefuse_canon : ∀ x0, Mach.canon x0 → Mach.canon (twinRefuse x0) := by
  intro x0 h
  unfold twinRefuse
  apply setEv_canon
  exact h

theorem sendBanks_canon : ∀ x0, Mach.canon x0 → Mach.canon (sendBanks x0) := by
  intro x0 h
  unfold sendBanks
  apply each_canon
  · intro a1_0 m1 h1
    apply mirror_canon
    apply mirror_canon
    apply mirror_canon
    exact h1
  · exact h

theorem syncCheck_canon : ∀ x0 x1, Mach.canon x1 → Mach.canon (syncCheck x0 x1) := by
  intro x0 x1 h
  unfold syncCheck
  dsimp -proj -iota -eta only
  apply setEvIf_canon
  apply setEvIf_canon
  apply setInSync_canon
  apply setInSync_canon
  exact h

theorem sendPool_canon : ∀ x0, Mach.canon x0 → Mach.canon (sendPool x0) := by
  intro x0 h
  unfold sendPool
  apply each_canon
  · intro a1_0 m1 h1
    apply mirror_canon
    exact h1
  · exact h

theorem mirrorResync_canon : ∀ x0 x1, Mach.canon x1 → Mach.canon (mirrorResync x0 x1) := by
  intro x0 x1 h
  unfold mirrorResync
  refine canon_ite ?_ ?_
  · refine canon_ite ?_ ?_
    · exact h
    · split
      · apply dirStream_canon
        exact h
      · apply sendPool_canon
        exact h
      · apply sendBanks_canon
        exact h
      · apply setTwin_canon
        exact h
      · exact h
  · refine canon_ite ?_ ?_
    · refine canon_ite ?_ ?_
      · refine canon_ite ?_ ?_
        · apply refreshReady_canon
          apply copyDone_canon
          exact h
        · refine canon_ite ?_ ?_
          · apply refreshReady_canon
            apply copyIn_canon
            exact h
          · exact h
      · refine canon_ite ?_ ?_
        · apply refreshReady_canon
          apply setInSync_canon
          apply setTwin_canon
          exact h
        · exact h
    · exact h

theorem takeoverStart_canon : ∀ x0 x1, Mach.canon x1 → Mach.canon (takeoverStart x0 x1) := by
  intro x0 x1 h
  unfold takeoverStart
  dsimp -proj -iota -eta only
  apply setEvIf_canon
  apply wantToken_canon
  apply fset_canon
  apply fset_canon
  apply setRole_canon
  apply setTwin_canon
  apply each_canon
  · intro a1_0 m1 h1
    apply setPd_canon
    exact h1
  · exact h

theorem heartbeatLoss_canon : ∀ x0, Mach.canon x0 → Mach.canon (heartbeatLoss x0) := by
  intro x0 h
  unfold heartbeatLoss
  dsimp -proj -iota -eta only
  refine canon_ite ?_ ?_
  · apply refreshReady_canon
    refine canon_ite ?_ ?_
    · apply takeoverStart_canon
      apply releaseAcks_canon
      apply fset_canon
      apply fset_canon
      apply setTwin_canon
      apply setEv_canon
      exact h
    · apply releaseAcks_canon
      apply fset_canon
      apply fset_canon
      apply setTwin_canon
      apply setEv_canon
      exact h
  · exact h

theorem ownActive_canon : ∀ x0, Mach.canon x0 → Mach.canon (ownActive x0) := by
  intro x0 h
  unfold ownActive
  dsimp -proj -iota -eta only
  refine canon_ite ?_ ?_
  · apply fset_canon
    apply startTrans_canon
    apply setTwin_canon
    exact h
  · apply takeoverRefused_canon
    apply stateErr_canon
    apply endTrans_canon
    apply setTwin_canon
    exact h

theorem takeoverSettled_canon : ∀ x0, Mach.canon x0 → Mach.canon (takeoverSettled x0) := by
  intro x0 h
  unfold takeoverSettled
  dsimp -proj -iota -eta only
  split
  · refine canon_ite ?_ ?_
    · apply ownActive_canon
      apply wantEvent_canon
      apply logCode_canon
      apply setEv_canon
      exact h
    · exact h
  · exact h

theorem deltaAck_canon : ∀ x0 x1, Mach.canon x1 → Mach.canon (deltaAck x0 x1) := by
  intro x0 x1 h
  unfold deltaAck
  dsimp -proj -iota -eta only
  refine canon_ite ?_ ?_
  · split
    · refine canon_ite ?_ ?_
      · apply setInSync_canon
        apply setTwin_canon
        apply each_canon
        · intro a1_0 m1 h1
          apply sendNat_canon
          exact h1
        · apply setTwin_canon
          exact h
      · apply each_canon
        · intro a2_0 m2 h2
          apply sendNat_canon
          exact h2
        · apply setTwin_canon
          exact h
    · apply each_canon
      · intro a3_0 m3 h3
        apply sendNat_canon
        exact h3
      · apply setTwin_canon
        exact h
  · exact h

theorem resyncAll_canon : ∀ x0, Mach.canon x0 → Mach.canon (resyncAll x0) := by
  intro x0 h
  unfold resyncAll
  dsimp -proj -iota -eta only
  refine canon_ite ?_ ?_
  · apply sendBanks_canon
    apply sendPool_canon
    apply dirStream_canon
    apply setTwin_canon
    apply each_canon
    · intro a1_0 m1 h1
      apply setInSync_canon
      exact h1
    · exact h
  · apply dirResync_canon
    apply setTwin_canon
    apply each_canon
    · intro a2_0 m2 h2
      apply setInSync_canon
      exact h2
    · exact h

theorem forceTakeover_canon : ∀ x0, Mach.canon x0 → Mach.canon (forceTakeover x0) := by
  intro x0 h
  unfold forceTakeover
  refine canon_ite ?_ ?_
  · apply takeoverStart_canon
    exact h
  · apply twinRefuse_canon
    exact h

theorem takeoverCmd_canon : ∀ x0, Mach.canon x0 → Mach.canon (takeoverCmd x0) := by
  intro x0 h
  unfold takeoverCmd
  dsimp -proj -iota -eta only
  refine canon_ite ?_ ?_
  · apply takeoverStart_canon
    apply refreshReady_canon
    exact h
  · apply twinRefuse_canon
    apply refreshReady_canon
    exact h

theorem handoverNotice_canon : ∀ x0, Mach.canon x0 → Mach.canon (handoverNotice x0) := by
  intro x0 h
  unfold handoverNotice
  refine canon_ite ?_ ?_
  · apply takeoverStart_canon
    exact h
  · exact h

theorem handoverCmd_canon : ∀ x0, Mach.canon x0 → Mach.canon (handoverCmd x0) := by
  intro x0 h
  unfold handoverCmd
  refine canon_ite ?_ ?_
  · apply startHandover_canon
    exact h
  · apply twinRefuse_canon
    exact h

theorem twinCfgWrite_canon : ∀ x0 x1, Mach.canon x1 → Mach.canon (twinCfgWrite x0 x1) := by
  intro x0 x1 h
  unfold twinCfgWrite
  dsimp -proj -iota -eta only
  refine canon_ite ?_ ?_
  · apply setEv_canon
    exact h
  · refine canon_ite ?_ ?_
    · refine canon_ite ?_ ?_
      · apply saveSetting_canon
        apply wr_canon
        exact h
      · apply setRole_canon
        apply saveSetting_canon
        apply wr_canon
        exact h
    · apply releaseAcks_canon
      refine canon_ite ?_ ?_
      · apply saveSetting_canon
        apply wr_canon
        exact h
      · apply setRole_canon
        apply saveSetting_canon
        apply wr_canon
        exact h

theorem noteLag_canon : ∀ x0 x1, Mach.canon x1 → Mach.canon (noteLag x0 x1) := by
  intro x0 x1 h
  unfold noteLag
  apply showSync_canon
  apply fset_canon
  apply fset_canon
  apply setTwin_canon
  exact h

theorem heartbeatRx_canon : ∀ x0 x1 x2, Mach.canon x2 → Mach.canon (heartbeatRx x0 x1 x2) := by
  intro x0 x1 x2 h
  unfold heartbeatRx
  dsimp -proj -iota -eta only
  refine canon_ite ?_ ?_
  · apply refreshReady_canon
    refine canon_ite ?_ ?_
    · refine canon_ite ?_ ?_
      · apply syncCheck_canon
        apply roleCheck_canon
        apply fset_canon
        apply fset_canon
        apply fset_canon
        apply setTwin_canon
        apply noteLag_canon
        exact h
      · apply resyncAll_canon
        apply syncCheck_canon
        apply roleCheck_canon
        apply fset_canon
        apply fset_canon
        apply fset_canon
        apply setTwin_canon
        apply noteLag_canon
        exact h
    · apply roleCheck_canon
      apply fset_canon
      apply fset_canon
      apply fset_canon
      apply setTwin_canon
      apply noteLag_canon
      exact h
  · exact h

theorem twinCmd_canon : ∀ x0 x1, Mach.canon x1 → Mach.canon (twinCmd x0 x1) := by
  intro x0 x1 h
  unfold twinCmd
  refine canon_ite ?_ ?_
  · apply twinRefuse_canon
    exact h
  · split
    · exact h
    · apply takeoverCmd_canon
      exact h
    · apply handoverCmd_canon
      exact h
    · apply forceTakeover_canon
      exact h

end Sys2Proof.Machine
end

