-- ==== Sys2Proof/Laws/CanonReshuf.lean ====
section
/-! SUPPORT. The operations of Machine/Reshuf.lean keep the registers and the reservoir in canonical form. -/

namespace Sys2Proof.Machine

set_option maxRecDepth 8000

theorem imgResult_canon : ∀ x0 x1 x2, Mach.canon x2 → Mach.canon (imgResult x0 x1 x2) := by
  intro x0 x1 x2 h
  unfold imgResult
  refine canon_ite ?_ ?_
  · apply sendNat_canon
    exact h
  · exact h

theorem unlock_canon : ∀ x0, Mach.canon x0 → Mach.canon (unlock x0) := by
  intro x0 h
  unfold unlock
  apply fset_canon
  apply fset_canon
  apply fset_canon
  apply setImg_canon
  exact h

theorem reshRefused_canon : ∀ x0 x1, Mach.canon x1 → Mach.canon (reshRefused x0 x1) := by
  intro x0 x1 h
  unfold reshRefused
  apply imgResult_canon
  apply unlock_canon
  apply setEv_canon
  apply wr_canon
  apply setEvIf_canon
  exact h

theorem endCommit_canon : ∀ x0 x1, Mach.canon x1 → Mach.canon (endCommit x0 x1) := by
  intro x0 x1 h
  unfold endCommit
  apply imgResult_canon
  apply unlock_canon
  exact h

theorem refreshImg_canon : ∀ x0, Mach.canon x0 → Mach.canon (refreshImg x0) := by
  intro x0 h
  unfold refreshImg
  dsimp -proj -iota -eta only
  apply each_canon
  · intro a1_0 m1 h1
    apply wr_canon
    apply fset_canon
    apply fset_canon
    apply fsetB_canon
    exact h1
  · apply fset_canon
    apply fset_canon
    exact h

theorem setNvm_canon : ∀ x0 x1, Mach.canon x1 → Mach.canon (setNvm x0 x1) := by
  intro x0 x1 h
  unfold setNvm
  refine canon_mk (canon_of ?_)
  exact h

theorem storeResh_canon : ∀ x0 x1, Mach.canon x1 → Mach.canon (storeResh x0 x1) := by
  intro x0 x1 h
  unfold storeResh
  dsimp -proj -iota -eta only
  apply refreshImg_canon
  apply setNvm_canon
  exact h

theorem reshuffle_canon (f : Mach → Mach) (hf : ∀ m : Mach, m.canon → (f m).canon) (m : Mach) (h : m.canon) :
    (reshuffle f m).canon := by
  unfold reshuffle
  split
  · dsimp -proj -iota -eta only
    refine canon_ite (pumpPlanned_canon _ ?_) h
    have h1 := fset_canon IMG_STATUS.reshuf_pending 0 _ (setImg_canon (fun x => { x with resh := none }) m h)
    split
    · exact reshRefused_canon _ _ h1
    · split
      · exact reshRefused_canon _ _ h1
      · next hp =>
        have h2 := reshApply_canon hf hp h1
        exact endCommit_canon _ _ (canon_ite (storeResh_canon _ _ h2) h2)
  · exact h

theorem refuseImg_canon : ∀ x0 x1, Mach.canon x1 → Mach.canon (refuseImg x0 x1) := by
  intro x0 x1 h
  unfold refuseImg
  apply setEv_canon
  apply wr_canon
  apply setEvIf_canon
  exact h

theorem refuseCommit_canon : ∀ x0 x1, Mach.canon x1 → Mach.canon (refuseCommit x0 x1) := by
  intro x0 x1 h
  unfold refuseCommit
  apply imgResult_canon
  apply unlock_canon
  apply refuseImg_canon
  exact h

theorem setBank_canon : ∀ x0 x1 x2, Mach.canon x2 → Mach.canon (setBank x0 x1 x2) := by
  intro x0 x1 x2 h
  unfold setBank
  apply setNvm_canon
  exact h

end Sys2Proof.Machine
end

