-- ==== Sys2Proof/Laws/CanonBoundary.lean ====
section
/-! SUPPORT. The operations of Machine/Boundary.lean keep the registers and the reservoir in canonical form. -/

namespace Sys2Proof.Machine

set_option maxRecDepth 8000

theorem endHold_canon : ∀ x0, Mach.canon x0 → Mach.canon (endHold x0) := by
  intro x0 h
  unfold endHold
  refine canon_ite ?_ ?_
  · apply setClk_canon
    exact h
  · exact h

theorem applyUnit_canon : ∀ x0 x1, Mach.canon x1 → Mach.canon (applyUnit x0 x1) := by
  intro x0 x1 h
  unfold applyUnit
  apply takeStage_canon
  · intro a1_0 m1 h1
    apply applyRxAtten_canon
    exact h1
  · apply takeStage_canon
    · intro a2_0 m2 h2
      apply applyRxCtrl_canon
      exact h2
    · exact h

theorem applyQuadUnits_canon : ∀ x0 x1, Mach.canon x1 → Mach.canon (applyQuadUnits x0 x1) := by
  intro x0 x1 h
  unfold applyQuadUnits
  dsimp -proj -iota -eta only
  apply each_canon
  · intro a1_0 m1 h1
    apply applyTxCfg_canon
    apply applyChain_canon
    apply applyChain_canon
    exact h1
  · apply each_canon
    · intro a2_0 m2 h2
      apply applyChain_canon
      exact h2
    · apply each_canon
      · intro a3_0 m3 h3
        apply applyUnit_canon
        exact h3
      · exact h

theorem applyRest_canon : ∀ x0 x1, Mach.canon x1 → Mach.canon (applyRest x0 x1) := by
  intro x0 x1 h
  unfold applyRest
  apply each_canon
  · intro a1_0 m1 h1
    apply takeStage_canon
    · intro a2_0 m2 h2
      apply applyRws_canon
      exact h2
    · exact h1
  · exact h

theorem applyStaged_canon : ∀ x0, Mach.canon x0 → Mach.canon (applyStaged x0) := by
  intro x0 h
  unfold applyStaged
  dsimp -proj -iota -eta only
  apply applyRest_canon
  apply takeStage_canon
  · intro a1_0 m1 h1
    apply applyBmuCfg_canon
    exact h1
  · apply each_canon
    · intro a2_0 m2 h2
      apply applyQuadUnits_canon
      exact h2
    · apply takeStage_canon
      · intro a3_0 m3 h3
        apply applyAnchor_canon
        exact h3
      · apply takeStage_canon
        · intro a4_0 m4 h4
          apply applyAnchor_canon
          exact h4
        · exact h

theorem pauseStart_canon : ∀ x0, Mach.canon x0 → Mach.canon (pauseStart x0) := by
  intro x0 h
  unfold pauseStart
  dsimp -proj -iota -eta only
  refine canon_ite ?_ ?_
  · apply fset_canon
    refine canon_mk (canon_of ?_)
    exact h
  · exact h

theorem classBStart_canon : ∀ x0, Mach.canon x0 → Mach.canon (classBStart x0) := by
  intro x0 h
  unfold classBStart
  dsimp -proj -iota -eta only
  split
  · refine canon_ite ?_ ?_
    · apply refreshStates_canon
      apply calPlanChange_canon
      apply planEnter_canon
      apply startMpll_canon
      apply fset_canon
      apply each_canon
      · intro a1_0 m1 h1
        apply fset_canon
        apply gateQuad_canon
        exact h1
      · apply setClk_canon
        exact h
    · exact h
  · exact h

theorem slotPeak_canon : ∀ x0 x1, Mach.canon x1 → Mach.canon (slotPeak x0 x1) := by
  intro x0 x1 h
  unfold slotPeak
  dsimp -proj -iota -eta only
  refine canon_ite ?_ ?_
  · exact h
  · apply fset_canon
    apply fsetB_canon
    apply setRx_canon
    exact h

theorem showMargin_canon : ∀ x0 x1 x2, Mach.canon x2 → Mach.canon (showMargin x0 x1 x2) := by
  intro x0 x1 x2 h
  unfold showMargin
  split
  · exact h
  · apply setEvIf_canon
    apply fset_canon
    exact h

theorem schedSynced_canon : ∀ x0, Mach.canon x0 → Mach.canon (schedSynced x0) := by
  intro x0 h
  unfold schedSynced
  dsimp -proj -iota -eta only
  refine canon_ite ?_ ?_
  · apply setInSync_canon
    refine canon_mk (canon_of ?_)
    exact h
  · exact h

theorem endFlush_canon : ∀ x0, Mach.canon x0 → Mach.canon (endFlush x0) := by
  intro x0 h
  unfold endFlush
  dsimp -proj -iota -eta only
  apply each_canon
  · intro a1_0 m1 h1
    refine canon_ite ?_ ?_
    · apply resetChains_canon
      exact h1
    · refine canon_ite ?_ ?_
      · apply each_canon
        · intro a2_0 m2 h2
          apply syncReset_canon
          exact h2
        · exact h1
      · exact h1
  · refine canon_mk (canon_of ?_)
    exact h

theorem streamsSlot_canon : ∀ x0 x1 x2, Mach.canon x2 → Mach.canon (streamsSlot x0 x1 x2) := by
  intro x0 x1 x2 h
  unfold streamsSlot
  dsimp -proj -iota -eta only
  apply anchorUlChange_canon
  apply each_canon
  · intro a1_0 m1 h1
    apply setOut_canon
    exact h1
  · apply each_canon
    · intro a2_0 m2 h2
      apply closeEntry_canon
      exact h2
    · exact h

theorem applyQuadStaged_canon : ∀ x0 x1, Mach.canon x1 → Mach.canon (applyQuadStaged x0 x1) := by
  intro x0 x1 h
  unfold applyQuadStaged
  apply applySwapReg_canon
  apply applyRest_canon
  apply applyQuadUnits_canon
  exact h

theorem failQpll_canon : ∀ x0 x1, Mach.canon x1 → Mach.canon (failQpll x0 x1) := by
  intro x0 x1 h
  unfold failQpll
  dsimp -proj -iota -eta only
  apply raiseReplace_canon
  apply setQ_canon
  apply quadOff_canon
  refine canon_ite ?_ ?_
  · apply setEvIf_canon
    exact h
  · apply dmaPdAbort_canon
    apply applyQuadStaged_canon
    apply stopRunning_canon
    apply setEvIf_canon
    exact h

theorem pllFailure_canon : ∀ x0 x1, Mach.canon x1 → Mach.canon (pllFailure x0 x1) := by
  intro x0 x1 h
  unfold pllFailure
  split
  · refine canon_ite ?_ ?_
    · apply failMpll_canon
      exact h
    · refine canon_ite ?_ ?_
      · apply fset_canon
        exact h
      · exact h
  · refine canon_ite ?_ ?_
    · apply failQpll_canon
      exact h
    · exact h

theorem slotEnds_canon : ∀ x0, Mach.canon x0 → Mach.canon (slotEnds x0) := by
  intro x0 h
  unfold slotEnds
  dsimp -proj -iota -eta only
  apply each_canon
  · intro a1_0 m1 h1
    apply slotPeak_canon
    exact h1
  · apply setMesh_canon
    apply acqSlotEnd_canon
    apply dlFlush_canon
    apply settleAll_canon
    apply advanceTo_canon
    apply scheduleDeadline_canon
    exact h

theorem moveSlot_canon : ∀ x0, Mach.canon x0 → Mach.canon (moveSlot x0) := by
  intro x0 h
  unfold moveSlot
  dsimp -proj -iota -eta only
  refine canon_ite ?_ ?_
  · refine canon_mk (canon_of ?_)
    exact h
  · refine canon_mk (canon_of ?_)
    exact h

theorem muteFault_canon : ∀ x0 x1, Mach.canon x1 → Mach.canon (muteFault x0 x1) := by
  intro x0 x1 h
  unfold muteFault
  refine canon_ite ?_ ?_
  · apply twinFault_canon
    exact h
  · exact h

theorem muteNote_canon : ∀ x0 x1, Mach.canon x1 → Mach.canon (muteNote x0 x1) := by
  intro x0 x1 h
  unfold muteNote
  dsimp -proj -iota -eta only
  refine canon_mk (canon_of ?_)
  exact h

theorem repace_canon : ∀ x0, Mach.canon x0 → Mach.canon (repace x0) := by
  intro x0 h
  unfold repace
  refine canon_ite ?_ ?_
  · apply fset_canon
    exact h
  · exact h

theorem frameLates_canon : ∀ x0, Mach.canon x0 → Mach.canon (frameLates x0) := by
  intro x0 h
  unfold frameLates
  dsimp -proj -iota -eta only
  refine canon_mk (canon_of ?_)
  exact h

theorem frameMargins_canon : ∀ x0, Mach.canon x0 → Mach.canon (frameMargins x0) := by
  intro x0 h
  unfold frameMargins
  dsimp -proj -iota -eta only
  refine canon_mk (canon_of ?_)
  apply showMargin_canon
  apply showMargin_canon
  exact h

theorem startQuads_canon : ∀ x0, Mach.canon x0 → Mach.canon (startQuads x0) := by
  intro x0 h
  unfold startQuads
  apply each_canon
  · intro a1_0 m1 h1
    apply startQuad_canon
    exact h1
  · exact h

theorem frameStarts_canon : ∀ x0 x1, Mach.canon x1 → Mach.canon (frameStarts x0 x1) := by
  intro x0 x1 h
  unfold frameStarts
  dsimp -proj -iota -eta only
  refine canon_mk (canon_of ?_)
  apply each_canon
  · intro a1_0 m1 h1
    apply setRx_canon
    apply applyTxCfg_canon
    exact h1
  · apply each_canon
    · intro a2_0 m2 h2
      apply applyLead_canon
      exact h2
    · refine canon_ite ?_ ?_
      · apply startQuads_canon
        apply endFlush_canon
        apply endHold_canon
        apply seedInForce_canon
        apply repace_canon
        apply frameLates_canon
        apply frameMargins_canon
        exact h
      · apply seedInForce_canon
        apply repace_canon
        apply frameLates_canon
        apply frameMargins_canon
        exact h

theorem slotStarts_canon : ∀ x0 x1 x2 x3 x4, Mach.canon x4 → Mach.canon (slotStarts x0 x1 x2 x3 x4) := by
  intro x0 x1 x2 x3 x4 h
  unfold slotStarts
  dsimp -proj -iota -eta only
  apply monBoundary_canon
  apply dlResume_canon
  apply refreshPins_canon
  apply refreshReady_canon
  apply deliverEvents_canon
  apply pauseStart_canon
  apply schedSynced_canon
  apply handoverRelease_canon
  apply trickBegin_canon
  apply linkShed_canon
  apply trimsBoundary_canon
  apply each_canon
  · intro a1_0 m1 h1
    apply txSlot_canon
    exact h1
  · apply each_canon
    · intro a2_0 m2 h2
      apply applyScale_canon
      exact h2
    · apply each_canon
      · intro a3_0 m3 h3
        apply powerSlot_canon
        exact h3
      · apply each_canon
        · intro a4_0 m4 h4
          apply substBoundary_canon
          exact h4
        · apply each_canon
          · intro a5_0 m5 h5
            apply swapBoundary_canon
            exact h5
          · apply streamsSlot_canon
            apply noteSens_canon
            apply meshSwap_canon
            apply endColPlan_canon
            apply endColPlan_canon
            apply refreshExcl_canon
            refine canon_ite ?_ ?_
            · apply frameStarts_canon
              apply muteNote_canon
              apply applyLadder_canon
              apply refreshReqPending_canon
              apply each_canon
              · intro a6_0 m6 h6
                apply quadSlot_canon
                exact h6
              · apply each_canon
                · intro a7_0 m7 h7
                  apply endDrops_canon
                  exact h7
                · apply muteFault_canon
                  apply refreshStates_canon
                  apply coastLimits_canon
                  apply sparesLeft_canon
                  apply reshuffle_canon
                  · intro m8 h8
                    apply applyStaged_canon
                    exact h8
                  · apply applyStaged_canon
                    apply holdEvents_canon
                    exact h
            · apply muteNote_canon
              apply applyLadder_canon
              apply refreshReqPending_canon
              apply each_canon
              · intro a9_0 m9 h9
                apply quadSlot_canon
                exact h9
              · apply each_canon
                · intro a10_0 m10 h10
                  apply endDrops_canon
                  exact h10
                · apply muteFault_canon
                  apply refreshStates_canon
                  apply coastLimits_canon
                  apply sparesLeft_canon
                  apply reshuffle_canon
                  · intro m11 h11
                    apply applyStaged_canon
                    exact h11
                  · apply applyStaged_canon
                    apply holdEvents_canon
                    exact h

theorem boundary_canon : ∀ x0, Mach.canon x0 → Mach.canon (boundary x0) := by
  intro x0 h
  unfold boundary
  dsimp -proj -iota -eta only
  apply slotStarts_canon
  apply moveSlot_canon
  apply slotEnds_canon
  exact h

theorem reshBoundary_canon : ∀ x0, Mach.canon x0 → Mach.canon (reshBoundary x0) := by
  intro x0 h
  unfold reshBoundary
  refine canon_ite ?_ ?_
  · apply boundary_canon
    exact h
  · exact h

theorem coastLimit_canon : ∀ x0 x1, Mach.canon x1 → Mach.canon (coastLimit x0 x1) := by
  intro x0 x1 h
  unfold coastLimit
  refine canon_ite ?_ ?_
  · apply boundary_canon
    exact h
  · exact h

theorem slotBoundary_canon : ∀ x0, Mach.canon x0 → Mach.canon (slotBoundary x0) := by
  intro x0 h
  unfold slotBoundary
  refine canon_ite ?_ ?_
  · apply boundary_canon
    exact h
  · exact h

theorem frameBoundary_canon : ∀ x0, Mach.canon x0 → Mach.canon (frameBoundary x0) := by
  intro x0 h
  unfold frameBoundary
  refine canon_ite ?_ ?_
  · apply boundary_canon
    exact h
  · exact h

theorem shiftTimes_canon : ∀ x0 x1 x2, Mach.canon x2 → Mach.canon (shiftTimes x0 x1 x2) := by
  intro x0 x1 x2 h
  unfold shiftTimes
  dsimp -proj -iota -eta only
  refine canon_mk (canon_of ?_)
  exact h

theorem alignGrid_canon : ∀ x0 x1 x2 x3, Mach.canon x3 → Mach.canon (alignGrid x0 x1 x2 x3) := by
  intro x0 x1 x2 x3 h
  unfold alignGrid
  dsimp -proj -iota -eta only
  apply slotStarts_canon
  apply each_canon
  · intro a1_0 m1 h1
    apply addFlush_canon
    exact h1
  · apply setClk_canon
    refine canon_mk (canon_of ?_)
    apply setMesh_canon
    apply shiftTimes_canon
    apply slotEnds_canon
    exact h

theorem syncAlign_canon : ∀ x0 x1 x2, Mach.canon x2 → Mach.canon (syncAlign x0 x1 x2) := by
  intro x0 x1 x2 h
  unfold syncAlign
  dsimp -proj -iota -eta only
  refine canon_ite ?_ ?_
  · apply setEv_canon
    apply setClk_canon
    refine canon_ite ?_ ?_
    · apply fset_canon
      apply syncSeen_canon
      exact h
    · apply mirror_canon
      apply alignGrid_canon
      apply fset_canon
      apply syncSeen_canon
      exact h
  · exact h

theorem monCommonTrigger_canon : ∀ x0, Mach.canon x0 → Mach.canon (monCommonTrigger x0) := by
  intro x0 h
  unfold monCommonTrigger
  split
  · apply slotBoundary_canon
    exact h
  · apply frameBoundary_canon
    exact h
  · apply monPeriodic_canon
    exact h
  · exact h

theorem frameTableSwitch_canon : ∀ x0, Mach.canon x0 → Mach.canon (frameTableSwitch x0) := by
  intro x0 h
  unfold frameTableSwitch
  refine canon_ite ?_ ?_
  · apply boundary_canon
    exact h
  · exact h

theorem powerDownComplete_canon : ∀ x0 x1, Mach.canon x1 → Mach.canon (powerDownComplete x0 x1) := by
  intro x0 x1 h
  unfold powerDownComplete
  dsimp -proj -iota -eta only
  refine canon_ite ?_ ?_
  · refine canon_ite ?_ ?_
    · apply refreshReqPending_canon
      apply takeReqSlot_canon
      apply quadOff_canon
      apply dmaPdAbort_canon
      apply applyQuadStaged_canon
      exact h
    · apply quadOff_canon
      apply dmaPdAbort_canon
      apply applyQuadStaged_canon
      exact h
  · exact h

end Sys2Proof.Machine
end

