-- ==== Sys2Proof/Laws/CanonImage.lean ====
section
/-! SUPPORT. The operations of Machine/Image.lean keep the registers and the reservoir in canonical form. -/

namespace Sys2Proof.Machine

set_option maxRecDepth 8000

theorem trialReset_canon : ∀ x0, Mach.canon x0 → Mach.canon (trialReset x0) := by
  intro x0 h
  unfold trialReset
  refine canon_ite ?_ ?_
  · apply setImg_canon
    apply softReset_canon
    exact h
  · apply refuseImg_canon
    exact h

theorem migrateRec_canon : ∀ x0 x1, Mach.canon x1 → Mach.canon (migrateRec x0 x1) := by
  intro x0 x1 h
  unfold migrateRec
  dsimp -proj -iota -eta only
  apply setNvm_canon
  exact h

theorem lockTimeout_canon : ∀ x0, Mach.canon x0 → Mach.canon (lockTimeout x0) := by
  intro x0 h
  unfold lockTimeout
  refine canon_ite ?_ ?_
  · apply setEv_canon
    apply unlock_canon
    exact h
  · exact h

theorem migrationDone_canon : ∀ x0, Mach.canon x0 → Mach.canon (migrationDone x0) := by
  intro x0 h
  unfold migrationDone
  dsimp -proj -iota -eta only
  refine canon_ite ?_ ?_
  · apply snapGo_canon
    refine canon_ite ?_ ?_
    · apply storeCal_canon
      refine canon_ite ?_ ?_
      · apply setImg_canon
        apply setEv_canon
        apply fset_canon
        apply fset_canon
        apply fset_canon
        apply setNvm_canon
        apply each_canon
        · intro a1_0 m1 h1
          apply migrateRec_canon
          exact h1
        · exact h
      · apply storeRegs_canon
        apply setImg_canon
        apply setEv_canon
        apply fset_canon
        apply fset_canon
        apply fset_canon
        apply setNvm_canon
        apply each_canon
        · intro a2_0 m2 h2
          apply migrateRec_canon
          exact h2
        · exact h
    · refine canon_ite ?_ ?_
      · apply setImg_canon
        apply setEv_canon
        apply fset_canon
        apply fset_canon
        apply fset_canon
        apply setNvm_canon
        apply each_canon
        · intro a3_0 m3 h3
          apply migrateRec_canon
          exact h3
        · exact h
      · apply storeRegs_canon
        apply setImg_canon
        apply setEv_canon
        apply fset_canon
        apply fset_canon
        apply fset_canon
        apply setNvm_canon
        apply each_canon
        · intro a4_0 m4 h4
          apply migrateRec_canon
          exact h4
        · exact h
  · exact h

theorem storeDeck_canon : ∀ x0 x1, Mach.canon x1 → Mach.canon (storeDeck x0 x1) := by
  intro x0 x1 h
  unfold storeDeck
  dsimp -proj -iota -eta only
  apply refreshImg_canon
  apply setNvm_canon
  exact h

theorem commitDeck_canon (l : List Byte) (b : Bool) (m : Mach) (h : m.canon) : (commitDeck l b m).canon := by
  unfold commitDeck
  split
  · exact refuseCommit_canon _ _ h
  · next hp =>
    have h1 := loadDeck_canon hp h
    refine canon_ite (refuseCommit_canon _ _ h) (canon_ite (refuseCommit_canon _ _ h) (endCommit_canon _ _ (canon_ite ?_ h1)))
    exact storeDeck_canon _ _ h1

theorem commitResh_canon : ∀ x0 x1 x2, Mach.canon x2 → Mach.canon (commitResh x0 x1 x2) := by
  intro x0 x1 x2 h
  unfold commitResh
  split
  · apply refuseCommit_canon
    exact h
  · refine canon_ite ?_ ?_
    · apply refuseCommit_canon
      exact h
    · apply fset_canon
      apply setImg_canon
      exact h

theorem commitFw_canon : ∀ x0 x1, Mach.canon x1 → Mach.canon (commitFw x0 x1) := by
  intro x0 x1 h
  unfold commitFw
  dsimp -proj -iota -eta only
  refine canon_ite ?_ ?_
  · apply refuseCommit_canon
    exact h
  · apply setImg_canon
    exact h

theorem commitSess_canon : ∀ x0 x1 x2, Mach.canon x2 → Mach.canon (commitSess x0 x1 x2) := by
  intro x0 x1 x2 h
  unfold commitSess
  refine canon_ite ?_ ?_
  · split
    · split
      · apply refuseCommit_canon
        exact h
      · refine canon_ite ?_ ?_
        · apply commitDeck_canon
          exact h
        · refine canon_ite ?_ ?_
          · apply commitResh_canon
            exact h
          · apply commitFw_canon
            exact h
    · exact h
  · apply imgResult_canon
    apply setEvIf_canon
    exact h

theorem abortSess_canon : ∀ x0 x1, Mach.canon x1 → Mach.canon (abortSess x0 x1) := by
  intro x0 x1 h
  unfold abortSess
  refine canon_ite ?_ ?_
  · apply imgResult_canon
    apply unlock_canon
    exact h
  · apply imgResult_canon
    apply setEvIf_canon
    exact h

theorem fwWritten_canon : ∀ x0, Mach.canon x0 → Mach.canon (fwWritten x0) := by
  intro x0 h
  unfold fwWritten
  dsimp -proj -iota -eta only
  split
  · refine canon_ite ?_ ?_
    · apply setImg_canon
      apply softReset_canon
      apply endCommit_canon
      apply refreshImg_canon
      apply setBank_canon
      apply setImg_canon
      exact h
    · apply endCommit_canon
      apply refreshImg_canon
      apply setBank_canon
      apply setImg_canon
      exact h
  · exact h

theorem pushImage_canon : ∀ x0 x1 x2, Mach.canon x2 → Mach.canon (pushImage x0 x1 x2) := by
  intro x0 x1 x2 h
  unfold pushImage
  dsimp -proj -iota -eta only
  apply send_canon
  apply each_canon
  · intro a1_0 m1 h1
    apply send_canon
    exact h1
  · apply send_canon
    exact h

theorem pushTwin_canon : ∀ x0 x1, Mach.canon x1 → Mach.canon (pushTwin x0 x1) := by
  intro x0 x1 h
  unfold pushTwin
  refine canon_ite ?_ ?_
  · split
    · apply each_canon
      · intro a1_0 m1 h1
        apply pushImage_canon
        exact h1
      · apply pushImage_canon
        exact h
    · apply pushImage_canon
      exact h
    · apply setEv_canon
      exact h
  · apply setEv_canon
    exact h

theorem addBytes_canon : ∀ x0 x1, Mach.canon x1 → Mach.canon (addBytes x0 x1) := by
  intro x0 x1 h
  unfold addBytes
  apply setImg_canon
  exact h

theorem placeBytes_canon : ∀ x0 x1 x2 x3, Mach.canon x3 → Mach.canon (placeBytes x0 x1 x2 x3) := by
  intro x0 x1 x2 x3 h
  unfold placeBytes
  refine canon_ite ?_ ?_
  · split
    · refine canon_ite ?_ ?_
      · apply addBytes_canon
        exact h
      · apply imgResult_canon
        exact h
    · exact h
  · exact h

theorem bandData_canon : ∀ x0 x1 x2 x3, Mach.canon x3 → Mach.canon (bandData x0 x1 x2 x3) := by
  intro x0 x1 x2 x3 h
  unfold bandData
  refine canon_ite ?_ ?_
  · refine canon_ite ?_ ?_
    · apply imgResult_canon
      exact h
    · exact h
  · apply placeBytes_canon
    exact h

theorem openSess_canon : ∀ x0 x1 x2, Mach.canon x2 → Mach.canon (openSess x0 x1 x2) := by
  intro x0 x1 x2 h
  unfold openSess
  dsimp -proj -iota -eta only
  refine canon_ite ?_ ?_
  · apply imgResult_canon
    apply setEv_canon
    exact h
  · refine canon_ite ?_ ?_
    · apply imgResult_canon
      apply setEv_canon
      exact h
    · refine canon_ite ?_ ?_
      · apply imgResult_canon
        apply setEv_canon
        exact h
      · apply imgResult_canon
        apply wr_canon
        apply setImg_canon
        apply fset_canon
        apply fset_canon
        apply fset_canon
        exact h

theorem puntyHandover_canon : ∀ x0, Mach.canon x0 → Mach.canon (puntyHandover x0) := by
  intro x0 h
  unfold puntyHandover
  refine canon_ite ?_ ?_
  · apply setImg_canon
    exact h
  · apply refuseImg_canon
    exact h

theorem fwStart_canon : ∀ x0 x1, Mach.canon x1 → Mach.canon (fwStart x0 x1) := by
  intro x0 x1 h
  unfold fwStart
  dsimp -proj -iota -eta only
  refine canon_ite ?_ ?_
  · apply setEvIf_canon
    apply fset_canon
    apply setImg_canon
    exact h
  · refine canon_ite ?_ ?_
    · apply setNvm_canon
      apply setEvIf_canon
      apply fset_canon
      apply setImg_canon
      exact h
    · apply fset_canon
      apply fset_canon
      apply fset_canon
      apply setEvIf_canon
      apply fset_canon
      apply setImg_canon
      exact h

theorem spiData_canon : ∀ x0 x1, Mach.canon x1 → Mach.canon (spiData x0 x1) := by
  intro x0 x1 h
  unfold spiData
  dsimp -proj -iota -eta only
  refine canon_ite ?_ ?_
  · apply wr_canon
    apply addBytes_canon
    exact h
  · exact h

theorem imgCmd_canon : ∀ x0 x1, Mach.canon x1 → Mach.canon (imgCmd x0 x1) := by
  intro x0 x1 h
  unfold imgCmd
  refine canon_ite ?_ ?_
  · apply setEv_canon
    exact h
  · split
    · exact h
    · apply openSess_canon
      exact h
    · apply commitSess_canon
      exact h
    · apply abortSess_canon
      exact h
    · apply puntyHandover_canon
      exact h
    · apply trialReset_canon
      exact h
    · apply pushTwin_canon
      exact h
    · apply setEv_canon
      exact h

theorem twinXfer_canon : ∀ x0 x1, Mach.canon x1 → Mach.canon (twinXfer x0 x1) := by
  intro x0 x1 h
  unfold twinXfer
  refine canon_ite ?_ ?_
  · split
    · apply openSess_canon
      exact h
    · apply placeBytes_canon
      exact h
    · apply commitSess_canon
      exact h
    · apply abortSess_canon
      exact h
  · exact h

end Sys2Proof.Machine
end

