-- ==== Sys2Proof/Laws/CanonBoot.lean ====
section
/-! SUPPORT. The operations of Machine/Boot.lean keep the registers and the reservoir in canonical form. -/

namespace Sys2Proof.Machine

set_option maxRecDepth 8000

theorem checkProduction_canon : ∀ x0 x1, Mach.canon x1 → Mach.canon (checkProduction x0 x1) := by
  intro x0 x1 h
  unfold checkProduction
  refine canon_ite ?_ ?_
  · exact h
  · apply setEv_canon
    apply setRemap_canon
    exact h

theorem loadSearch_canon : ∀ x0, Mach.canon x0 → Mach.canon (loadSearch x0) := by
  intro x0 h
  unfold loadSearch
  dsimp -proj -iota -eta only
  refine canon_ite ?_ ?_
  · apply each_canon
    · intro a1_0 m1 h1
      apply wr_canon
      exact h1
    · refine canon_mk (canon_of ?_)
      exact h
  · exact h

theorem placeTile_canon : ∀ x0 x1, Mach.canon x1 → Mach.canon (placeTile x0 x1) := by
  intro x0 x1 h
  unfold placeTile
  dsimp -proj -iota -eta only
  split
  · refine canon_ite ?_ ?_
    · exact h
    · apply setTile_canon
      exact h
  · refine canon_ite ?_ ?_
    · exact h
    · apply setTile_canon
      exact h

theorem applyRemap_canon : ∀ x0, Mach.canon x0 → Mach.canon (applyRemap x0) := by
  intro x0 h
  unfold applyRemap
  dsimp -proj -iota -eta only
  apply each_canon
  · intro a1_0 m1 h1
    apply refreshKind_canon
    exact h1
  · apply refreshRes_canon
    apply refreshBroken_canon
    apply refreshMirLane_canon
    apply refreshSerdes_canon
    apply setMesh_canon
    split
    · apply fset_canon
      split
      · apply fset_canon
        apply each_canon
        · intro a2_0 m2 h2
          apply setPd_canon
          refine canon_ite ?_ ?_
          · exact h2
          · apply fset_canon
            exact h2
        · apply each_canon
          · intro a3_0 m3 h3
            refine canon_ite ?_ ?_
            · apply fset_canon
              apply fset_canon
              exact h3
            · exact h3
          · apply each_canon
            · intro a4_0 m4 h4
              apply fset_canon
              exact h4
            · apply each_canon
              · intro a5_0 m5 h5
                apply placeTile_canon
                exact h5
              · apply each_canon
                · intro a6_0 m6 h6
                  apply each_canon
                  · intro a7_0 m7 h7
                    apply fset_canon
                    exact h7
                  · exact h6
                · exact h
      · apply each_canon
        · intro a8_0 m8 h8
          apply setPd_canon
          refine canon_ite ?_ ?_
          · exact h8
          · apply fset_canon
            exact h8
        · apply each_canon
          · intro a9_0 m9 h9
            refine canon_ite ?_ ?_
            · apply fset_canon
              apply fset_canon
              exact h9
            · exact h9
          · apply each_canon
            · intro a10_0 m10 h10
              apply fset_canon
              exact h10
            · apply each_canon
              · intro a11_0 m11 h11
                apply placeTile_canon
                exact h11
              · apply each_canon
                · intro a12_0 m12 h12
                  apply each_canon
                  · intro a13_0 m13 h13
                    apply fset_canon
                    exact h13
                  · exact h12
                · exact h
    · split
      · apply fset_canon
        apply each_canon
        · intro a14_0 m14 h14
          apply setPd_canon
          refine canon_ite ?_ ?_
          · exact h14
          · apply fset_canon
            exact h14
        · apply each_canon
          · intro a15_0 m15 h15
            refine canon_ite ?_ ?_
            · apply fset_canon
              apply fset_canon
              exact h15
            · exact h15
          · apply each_canon
            · intro a16_0 m16 h16
              apply fset_canon
              exact h16
            · apply each_canon
              · intro a17_0 m17 h17
                apply placeTile_canon
                exact h17
              · apply each_canon
                · intro a18_0 m18 h18
                  apply each_canon
                  · intro a19_0 m19 h19
                    apply fset_canon
                    exact h19
                  · exact h18
                · exact h
      · apply each_canon
        · intro a20_0 m20 h20
          apply setPd_canon
          refine canon_ite ?_ ?_
          · exact h20
          · apply fset_canon
            exact h20
        · apply each_canon
          · intro a21_0 m21 h21
            refine canon_ite ?_ ?_
            · apply fset_canon
              apply fset_canon
              exact h21
            · exact h21
          · apply each_canon
            · intro a22_0 m22 h22
              apply fset_canon
              exact h22
            · apply each_canon
              · intro a23_0 m23 h23
                apply placeTile_canon
                exact h23
              · apply each_canon
                · intro a24_0 m24 h24
                  apply each_canon
                  · intro a25_0 m25 h25
                    apply fset_canon
                    exact h25
                  · exact h24
                · exact h

theorem bootLock_canon : ∀ x0, Mach.canon x0 → Mach.canon (bootLock x0) := by
  intro x0 h
  unfold bootLock
  dsimp -proj -iota -eta only
  refine canon_ite ?_ ?_
  · apply fsetB_canon
    exact h
  · refine canon_ite ?_ ?_
    · apply startPlanLock_canon
      apply fsetB_canon
      exact h
    · apply fsetB_canon
      exact h

theorem loadSettings_canon : ∀ x0, Mach.canon x0 → Mach.canon (loadSettings x0) := by
  intro x0 h
  unfold loadSettings
  refine canon_ite ?_ ?_
  · apply each_canon
    · intro a1_0 m1 h1
      split
      · apply wr_canon
        exact h1
      · exact h1
    · exact h
  · exact h

theorem bootResh_canon (l : List Byte) (m : Mach) (h : m.canon) : (bootResh l m).canon := by
  unfold bootResh
  split
  · exact refuseImg_canon _ _ h
  · split
    · exact refuseImg_canon _ _ h
    · next hp => exact reshApply_canon (fun _ hm => hm) hp h

theorem autoload_canon (m : Mach) (h : m.canon) : (autoload m).canon := by
  unfold autoload
  split
  · exact h
  · split
    · exact refuseImg_canon _ _ h
    · split
      · exact refuseImg_canon _ _ h
      · next hp => exact each_canon _ _ (fun _ _ hs => bootResh_canon _ _ hs) _ (loadDeck_canon hp h)

theorem autoStart_canon : ∀ x0, Mach.canon x0 → Mach.canon (autoStart x0) := by
  intro x0 h
  unfold autoStart
  dsimp -proj -iota -eta only
  refine canon_ite ?_ ?_
  · apply startWarm_canon
    apply each_canon
    · intro a1_0 m1 h1
      apply setQ_canon
      exact h1
    · refine canon_mk (canon_of ?_)
      exact h
  · exact h

theorem enterRecovery_canon : ∀ x0 x1, Mach.canon x1 → Mach.canon (enterRecovery x0 x1) := by
  intro x0 x1 h
  unfold enterRecovery
  apply trainPorts_canon
  apply setDev_canon
  exact h

theorem checkSnap_canon : ∀ x0, Mach.canon x0 → Mach.canon (checkSnap x0) := by
  intro x0 h
  unfold checkSnap
  dsimp -proj -iota -eta only
  refine canon_ite ?_ ?_
  · apply setEv_canon
    refine canon_mk (canon_of ?_)
    exact h
  · exact h

theorem loadFactors_canon : ∀ x0, Mach.canon x0 → Mach.canon (loadFactors x0) := by
  intro x0 h
  unfold loadFactors
  split
  · refine canon_ite ?_ ?_
    · apply each_canon
      · intro a1_0 m1 h1
        apply wr_canon
        exact h1
      · exact h
    · exact h
  · exact h

theorem bootCauses_canon : ∀ x0, Mach.canon x0 → Mach.canon (bootCauses x0) := by
  intro x0 h
  unfold bootCauses
  dsimp -proj -iota -eta only
  refine canon_ite ?_ ?_
  · apply fset_canon
    refine canon_mk (canon_of ?_)
    apply wr_canon
    exact h
  · apply wantEvent_canon
    apply logCode_canon
    apply setEv_canon
    apply fset_canon
    apply fset_canon
    refine canon_mk (canon_of ?_)
    apply wr_canon
    exact h

theorem firmwareRuns_canon : ∀ x0 x1 x2, Mach.canon x2 → Mach.canon (firmwareRuns x0 x1 x2) := by
  intro x0 x1 x2 h
  unfold firmwareRuns
  dsimp -proj -iota -eta only
  refine canon_ite ?_ ?_
  · apply startPlanLock_canon
    apply bootCauses_canon
    apply trainPorts_canon
    apply each_canon
    · intro a1_0 m1 h1
      apply fset_canon
      exact h1
    · apply refreshImg_canon
      apply refreshSnap_canon
      apply checkSnap_canon
      apply loadSearch_canon
      apply loadFactors_canon
      apply applyRemap_canon
      apply fset_canon
      apply checkProduction_canon
      apply loadSettings_canon
      apply fwStart_canon
      exact h
  · apply bootCauses_canon
    apply trainPorts_canon
    apply each_canon
    · intro a2_0 m2 h2
      apply fset_canon
      exact h2
    · apply refreshImg_canon
      apply refreshSnap_canon
      apply checkSnap_canon
      apply loadSearch_canon
      apply loadFactors_canon
      apply applyRemap_canon
      apply fset_canon
      apply checkProduction_canon
      apply loadSettings_canon
      apply fwStart_canon
      exact h

theorem tryBanks_canon (f : Nat → Bool) (p : Bool) (l : List Nat) (b : Bool) (m : Mach) (h : m.canon) :
    (tryBanks f p l b m).canon := by
  induction l generalizing b m with
  | nil => exact enterRecovery_canon _ _ (refreshImg_canon _ h)
  | cons k l ih =>
    have h1 := fset_canon GCTL_DEV_STATE.boot_bank k _ (fsetB_canon GCTL_DEV_STATE.fallback (!b) m h)
    unfold tryBanks
    dsimp -proj -iota -eta only
    refine canon_ite (firmwareRuns_canon _ _ _ (setImg_canon _ _ (canon_ite h1 ?_))) (ih _ _ (setBank_canon _ _ _ h))
    exact logCode_canon _ _ _ _ _ _ _ (setEv_canon _ _ h1)

theorem coreRelease_canon (a : Bool) (b : BitVec 2) (c : Bool) (m : Mach) (h : m.canon) : (coreRelease a b c m).canon := by
  have h1 : ({ m with power := .coreRun } : Mach).canon := h
  unfold coreRelease
  exact canon_ite (canon_ite (enterRecovery_canon _ _ (refreshImg_canon _ h1)) (tryBanks_canon _ _ _ _ _ h1)) h

theorem enterStandby_canon : ∀ x0, Mach.canon x0 → Mach.canon (enterStandby x0) := by
  intro x0 h
  unfold enterStandby
  dsimp -proj -iota -eta only
  refine canon_ite ?_ ?_
  · apply trigArm_canon
    apply setDev_canon
    refine canon_mk (canon_of ?_)
    exact h
  · apply paceHk_canon
    apply trigArm_canon
    apply setDev_canon
    refine canon_mk (canon_of ?_)
    exact h

theorem bootComplete_canon : ∀ x0, Mach.canon x0 → Mach.canon (bootComplete x0) := by
  intro x0 h
  unfold bootComplete
  dsimp -proj -iota -eta only
  refine canon_ite ?_ ?_
  · apply refreshPins_canon
    apply autoStart_canon
    refine canon_ite ?_ ?_
    · apply dirRestore_canon
      apply enterStandby_canon
      apply fsetB_canon
      apply loadCal_canon
      refine canon_ite ?_ ?_
      · apply autoload_canon
        apply bootLock_canon
        exact h
      · apply bootLock_canon
        exact h
    · apply enterStandby_canon
      apply fsetB_canon
      apply loadCal_canon
      refine canon_ite ?_ ?_
      · apply autoload_canon
        apply bootLock_canon
        exact h
      · apply bootLock_canon
        exact h
  · exact h

end Sys2Proof.Machine
end

