-- ==== Sys2Proof/Laws/CanonMapOps.lean ====
section
/-! SUPPORT. The operations of Machine/MapOps.lean keep the registers and the reservoir in canonical form. -/

namespace Sys2Proof.Machine

set_option maxRecDepth 8000

theorem addrErr_canon : ∀ x0, Mach.canon x0 → Mach.canon (addrErr x0) := by
  intro x0 h
  unfold addrErr
  apply setEv_canon
  exact h

theorem regRead_canon : ∀ x0 x1, Mach.canon x1 → Mach.canon (regRead x0 x1).2 := by
  intro x0 x1 h
  unfold regRead
  refine canon_ite_snd ?_ ?_
  · refine canon_mkp ?_
    exact h
  · refine canon_ite_snd ?_ ?_
    · apply todLatch_canon
      exact h
    · refine canon_ite_snd ?_ ?_
      · apply monFifoPop_canon
        exact h
      · refine canon_ite_snd ?_ ?_
        · apply monDataPop_canon
          exact h
        · refine canon_ite_snd ?_ ?_
          · apply lutRead_canon
            exact h
          · split
            · refine canon_mkp ?_
              exact h
            · split
              · refine canon_mkp ?_
                exact h
              · refine canon_mkp ?_
                exact h

theorem wordRead_canon : ∀ x0 x1, Mach.canon x1 → Mach.canon (wordRead x0 x1).2 := by
  intro x0 x1 h
  unfold wordRead
  refine canon_ite_snd ?_ ?_
  · refine canon_mkp ?_
    apply addrErr_canon
    exact h
  · refine canon_ite_snd ?_ ?_
    · apply windowRead_canon
      exact h
    · refine canon_ite_snd ?_ ?_
      · refine canon_ite_snd ?_ ?_
        · refine canon_mkp ?_
          apply tileReadEff_canon
          exact h
        · refine canon_mkp ?_
          apply addrErr_canon
          exact h
      · refine canon_ite_snd ?_ ?_
        · refine canon_mkp ?_
          apply addrErr_canon
          exact h
        · apply regRead_canon
          exact h

theorem i2cCmd_canon : ∀ x0 x1, Mach.canon x1 → Mach.canon (i2cCmd x0 x1) := by
  intro x0 x1 h
  unfold i2cCmd
  dsimp -proj -iota -eta only
  refine canon_ite ?_ ?_
  · apply setEv_canon
    exact h
  · apply send_canon
    apply wr_canon
    apply wr_canon
    exact h

theorem gctlWrite_canon : ∀ x0 x1 x2, Mach.canon x2 → Mach.canon (gctlWrite x0 x1 x2) := by
  intro x0 x1 x2 h
  unfold gctlWrite
  refine canon_ite ?_ ?_
  · apply devCmd_canon
    exact h
  · refine canon_ite ?_ ?_
    · apply quadReqWrite_canon
      exact h
    · refine canon_ite ?_ ?_
      · apply settingWrite_canon
        exact h
      · refine canon_ite ?_ ?_
        · apply loopbackWrite_canon
          exact h
        · refine canon_ite ?_ ?_
          · apply slackThrWrite_canon
            exact h
          · refine canon_ite ?_ ?_
            · apply avsCfgWrite_canon
              exact h
            · refine canon_ite ?_ ?_
              · apply anchorWrite_canon
                exact h
              · refine canon_ite ?_ ?_
                · apply anchorWrite_canon
                  exact h
                · refine canon_ite ?_ ?_
                  · apply i2cCmd_canon
                    exact h
                  · apply plainWrite_canon
                    exact h

theorem hltWrite_canon : ∀ x0 x1 x2, Mach.canon x2 → Mach.canon (hltWrite x0 x1 x2) := by
  intro x0 x1 x2 h
  unfold hltWrite
  dsimp -proj -iota -eta only
  refine canon_ite ?_ ?_
  · apply twinCfgWrite_canon
    exact h
  · refine canon_ite ?_ ?_
    · apply twinCmd_canon
      exact h
    · refine canon_ite ?_ ?_
      · apply checkReserve_canon
        apply refreshKind_canon
        apply plainWrite_canon
        exact h
      · apply plainWrite_canon
        exact h

theorem imgWrite_canon : ∀ x0 x1 x2, Mach.canon x2 → Mach.canon (imgWrite x0 x1 x2) := by
  intro x0 x1 x2 h
  unfold imgWrite
  refine canon_ite ?_ ?_
  · apply imgCmd_canon
    exact h
  · refine canon_ite ?_ ?_
    · apply spiData_canon
      exact h
    · apply plainWrite_canon
      exact h

theorem regWrite_canon : ∀ x0 x1 x2, Mach.canon x2 → Mach.canon (regWrite x0 x1 x2) := by
  intro x0 x1 x2 h
  unfold regWrite
  split
  · apply gctlWrite_canon
    exact h
  · apply hltWrite_canon
    exact h
  · apply imgWrite_canon
    exact h
  · apply blockWrite_canon
    exact h

theorem mapWrite_canon : ∀ x0 x1 x2, Mach.canon x2 → Mach.canon (mapWrite x0 x1 x2) := by
  intro x0 x1 x2 h
  unfold mapWrite
  refine canon_ite ?_ ?_
  · apply addrErr_canon
    exact h
  · refine canon_ite ?_ ?_
    · apply windowWrite_canon
      exact h
    · refine canon_ite ?_ ?_
      · refine canon_ite ?_ ?_
        · apply tileWrite_canon
          exact h
        · apply addrErr_canon
          exact h
      · refine canon_ite ?_ ?_
        · apply addrErr_canon
          exact h
        · apply regWrite_canon
          exact h

end Sys2Proof.Machine
end

