-- ==== Sys2Proof/Laws/CanonDmaRun.lean ====
section
/-! SUPPORT. The operations of Machine/DmaRun.lean keep the registers and the reservoir in canonical form. -/

namespace Sys2Proof.Machine

set_option maxRecDepth 8000

theorem dmaArrive_canon : ∀ x0 x1, Mach.canon x1 → Mach.canon (dmaArrive x0 x1) := by
  intro x0 x1 h
  unfold dmaArrive
  refine canon_ite ?_ ?_
  · refine canon_ite ?_ ?_
    · apply poolBytes_canon
      exact h
    · apply resWrite_canon
      exact h
  · apply mapWrite_canon
    exact h

theorem setPend_canon : ∀ x0 x1 x2, Mach.canon x2 → Mach.canon (setPend x0 x1 x2) := by
  intro x0 x1 x2 h
  unfold setPend
  dsimp -proj -iota -eta only
  apply fset_canon
  apply fset_canon
  apply setDma_canon
  exact h

theorem dmaLandAll_canon : ∀ x0 x1, Mach.canon x1 → Mach.canon (dmaLandAll x0 x1) := by
  intro x0 x1 h
  unfold dmaLandAll
  apply each_canon
  · intro a1_0 m1 h1
    apply dmaArrive_canon
    exact h1
  · apply setPend_canon
    exact h

theorem dmaAbortDone_canon : ∀ x0 x1, Mach.canon x1 → Mach.canon (dmaAbortDone x0 x1) := by
  intro x0 x1 h
  unfold dmaAbortDone
  refine canon_ite ?_ ?_
  · apply dmaHalt_canon
    apply dmaLandAll_canon
    exact h
  · exact h

theorem dmaLandOne_canon : ∀ x0 x1 x2, Mach.canon x2 → Mach.canon (dmaLandOne x0 x1 x2) := by
  intro x0 x1 x2 h
  unfold dmaLandOne
  dsimp -proj -iota -eta only
  split
  · exact h
  · refine canon_ite ?_ ?_
    · exact h
    · apply dmaArrive_canon
      apply setPend_canon
      exact h

theorem regBytes_canon (b : Bool) (a n : Nat) (m : Mach) (h : m.canon) : (regBytes b a n m).2.canon := by
  induction n generalizing a m with
  | zero => exact h
  | succ n ih => exact ih _ _ (wordRead_canon _ _ h)

theorem burstData_canon : ∀ x0 x1 x2 x3, Mach.canon x3 → Mach.canon (burstData x0 x1 x2 x3).2 := by
  intro x0 x1 x2 x3 h
  unfold burstData
  split
  · apply regBytes_canon
    exact h
  · refine canon_mkp ?_
    exact h

theorem dmaIssue_canon : ∀ x0 x1 x2, Mach.canon x2 → Mach.canon (dmaIssue x0 x1 x2) := by
  intro x0 x1 x2 h
  unfold dmaIssue
  dsimp -proj -iota -eta only
  apply each_canon
  · intro a1_0 m1 h1
    apply dmaLandOne_canon
    exact h1
  · apply setPend_canon
    exact h

theorem issueWrites_canon : ∀ x0 x1 x2 x3, Mach.canon x3 → Mach.canon (issueWrites x0 x1 x2 x3) := by
  intro x0 x1 x2 x3 h
  unfold issueWrites
  dsimp -proj -iota -eta only
  refine canon_ite ?_ ?_
  · apply setUp_canon
    exact h
  · apply dmaIssue_canon
    exact h

theorem advanceSet_canon : ∀ x0 x1 x2, Mach.canon x2 → Mach.canon (advanceSet x0 x1 x2) := by
  intro x0 x1 x2 h
  unfold advanceSet
  dsimp -proj -iota -eta only
  apply wr_canon
  apply setCap_canon
  exact h

theorem dmaBurst_canon : ∀ x0 x1, Mach.canon x1 → Mach.canon (dmaBurst x0 x1) := by
  intro x0 x1 h
  unfold dmaBurst
  dsimp -proj -iota -eta only
  split
  · exact h
  · refine canon_ite ?_ ?_
    · apply dmaHalt_canon
      exact h
    · refine canon_ite ?_ ?_
      · refine canon_ite ?_ ?_
        · apply dmaHalt_canon
          apply dmaLandAll_canon
          apply each_canon
          · intro a1_0 m1 h1
            apply readReport_canon
            exact h1
          · exact h
        · apply refreshReq_canon
          apply setDmaPos_canon
          refine canon_ite ?_ ?_
          · apply advanceSet_canon
            apply issueWrites_canon
            apply burstData_canon
            exact h
          · apply issueWrites_canon
            apply burstData_canon
            exact h
      · exact h

theorem dmaBurstStart_canon : ∀ x0 x1 x2, Mach.canon x2 → Mach.canon (dmaBurstStart x0 x1 x2) := by
  intro x0 x1 x2 h
  unfold dmaBurstStart
  apply each_canon
  · intro a1_0 m1 h1
    apply dmaLandOne_canon
    exact h1
  · apply dmaBurst_canon
    exact h

theorem dmaFenceDesc_canon : ∀ x0 x1, Mach.canon x1 → Mach.canon (dmaFenceDesc x0 x1) := by
  intro x0 x1 h
  unfold dmaFenceDesc
  split
  · refine canon_ite ?_ ?_
    · apply dmaComplete_canon
      apply dmaLandAll_canon
      exact h
    · exact h
  · exact h

theorem jtagFenced_canon : ∀ x0 x1, Mach.canon x1 → Mach.canon (jtagFenced x0 x1) := by
  intro x0 x1 h
  unfold jtagFenced
  dsimp -proj -iota -eta only
  refine canon_ite ?_ ?_
  · exact h
  · refine canon_mk (canon_of ?_)
    exact h

theorem fenceRead_canon : ∀ x0 x1, Mach.canon x1 → Mach.canon (fenceRead x0 x1).2 := by
  intro x0 x1 h
  unfold fenceRead
  refine canon_ite_snd ?_ ?_
  · refine canon_mkp ?_
    apply each_canon
    · intro a1_0 m1 h1
      apply dmaLandAll_canon
      exact h1
    · exact h
  · refine canon_mkp ?_
    apply setEv_canon
    exact h

theorem dmaFenceRead_canon (b : Bool) (m : Mach) (h : m.canon) : (dmaFenceRead b m).canon := by
  unfold dmaFenceRead
  exact returnWord_canon _ (jtagFenced_canon _ _ (gateRead_canon _ _ (fun m hm => fenceRead_canon _ _ hm) _ h))

end Sys2Proof.Machine
end

