-- ==== Sys2Proof/Laws/CanonAccess.lean ====
section
/-! SUPPORT. The operations of Machine/Access.lean keep the registers and the reservoir in canonical form. -/

namespace Sys2Proof.Machine

set_option maxRecDepth 8000

theorem hostWrite_canon : ∀ x0 x1 x2 x3, Mach.canon x3 → Mach.canon (hostWrite x0 x1 x2 x3) := by
  intro x0 x1 x2 x3 h
  unfold hostWrite
  refine canon_ite ?_ ?_
  · apply mapWrite_canon
    exact h
  · exact h

theorem stagedWrite_canon : ∀ x0 x1 x2 x3, Mach.canon x3 → Mach.canon (stagedWrite x0 x1 x2 x3) := by
  intro x0 x1 x2 x3 h
  unfold stagedWrite
  refine canon_ite ?_ ?_
  · apply hostWrite_canon
    exact h
  · exact h

theorem setSticky_canon : ∀ x0 x1 x2, Mach.canon x2 → Mach.canon (setSticky x0 x1 x2) := by
  intro x0 x1 x2 h
  unfold setSticky
  dsimp -proj -iota -eta only
  refine canon_ite ?_ ?_
  · refine canon_ite ?_ ?_
    · apply each_canon
      · intro a1_0 m1 h1
        apply tileEv_canon
        exact h1
      · exact h
    · apply setTile_canon
      exact h
  · apply each_canon
    · intro a2_0 m2 h2
      apply setEvBit_canon
      exact h2
    · exact h

theorem mapRead_canon : ∀ x0 x1, Mach.canon x1 → Mach.canon (mapRead x0 x1).2 := by
  intro x0 x1 h
  unfold mapRead
  refine canon_ite_snd ?_ ?_
  · apply fenceRead_canon
    exact h
  · apply wordRead_canon
    exact h

theorem hostRead_canon : ∀ x0 x1 x2, Mach.canon x2 → Mach.canon (hostRead x0 x1 x2).2 := by
  intro x0 x1 x2 h
  unfold hostRead
  refine canon_ite_snd ?_ ?_
  · apply mapRead_canon
    exact h
  · refine canon_ite_snd ?_ ?_
    · refine canon_mkp ?_
      exact h
    · refine canon_mkp ?_
      exact h

theorem unmappedAccess_canon (p : AccPath) (a : Nat) (b : Bool) (m : Mach) (h : m.canon) : (unmappedAccess p a b m).canon := by
  unfold unmappedAccess
  exact canon_ite (canon_ite (hostWrite_canon _ _ _ _ h) (returnWord_canon _ (hostRead_canon _ _ _ h))) h

theorem w1cWrite_canon : ∀ x0 x1 x2 x3 x4, Mach.canon x4 → Mach.canon (w1cWrite x0 x1 x2 x3 x4) := by
  intro x0 x1 x2 x3 x4 h
  unfold w1cWrite
  refine canon_ite ?_ ?_
  · apply mapWrite_canon
    apply setSticky_canon
    exact h
  · exact h

theorem registerWrite_canon : ∀ x0 x1 x2 x3 x4, Mach.canon x4 → Mach.canon (registerWrite x0 x1 x2 x3 x4) := by
  intro x0 x1 x2 x3 x4 h
  unfold registerWrite
  refine canon_ite ?_ ?_
  · refine canon_ite ?_ ?_
    · apply addrErr_canon
      exact h
    · exact h
  · apply hostWrite_canon
    exact h

end Sys2Proof.Machine
end

