-- ==== Sys2Proof/Laws/CanonCtl.lean ====
section
/-! SUPPORT. The operations of Machine/Ctl.lean keep the registers and the reservoir in canonical form. -/

namespace Sys2Proof.Machine

set_option maxRecDepth 8000

theorem mgmtOp_canon : ∀ x0 x1, Mach.canon x1 → Mach.canon (mgmtOp x0 x1).2 := by
  intro x0 x1 h
  unfold mgmtOp
  dsimp -proj -iota -eta only
  refine canon_ite_snd ?_ ?_
  · refine canon_mkp ?_
    apply nextFree_canon
    exact h
  · refine canon_ite_snd ?_ ?_
    · refine canon_mkp ?_
      apply nextFree_canon
      apply mapWrite_canon
      exact h
    · refine canon_mkp ?_
      apply mapRead_canon
      exact h

theorem mgmtOps_canon (l : List MgmtOp) (m : Mach) (h : m.canon) : (mgmtOps l m).2.canon := by
  induction l generalizing m with
  | nil => exact h
  | cons o l ih => exact ih _ (mgmtOp_canon _ _ h)

theorem mgmtRun_canon : ∀ x0 x1 x2, Mach.canon x2 → Mach.canon (mgmtRun x0 x1 x2) := by
  intro x0 x1 x2 h
  unfold mgmtRun
  dsimp -proj -iota -eta only
  apply sendNat_canon
  apply mgmtOps_canon
  exact h

theorem runNative_canon (i : Instr) (m : Mach) (h : m.canon) : (runNative i m).canon := by
  unfold runNative
  split
  · exact dirEnter_canon _ _ h
  · exact dirEnter_canon _ _ h
  · exact dirEnter_canon _ _ h
  · exact dirEnter_canon _ _ h
  · exact dirEnter_canon _ _ h
  · exact dirEnter_canon _ _ h
  · exact dirEnter_canon _ _ h
  · exact dirEnter_canon _ _ h
  · exact dirEnter_canon _ _ h
  · exact dirEnter_canon _ _ h
  · exact poolWrite_canon _ _ _ _ h
  · exact mgmtRun_canon _ _ _ h
  · exact gate_canon _ _ (fun m hm => openSess_canon _ _ _ hm) _ h
  · exact gate_canon _ _ (fun m hm => bandData_canon _ _ _ _ hm) _ h
  · exact gate_canon _ _ (fun m hm => commitSess_canon _ _ _ hm) _ h
  · exact gate_canon _ _ (fun m hm => abortSess_canon _ _ hm) _ h
  · exact ptpTx_canon _ _ _ _ _ h
  · exact h

theorem runHeld_canon : ∀ x0, Mach.canon x0 → Mach.canon (runHeld x0) := by
  intro x0 h
  unfold runHeld
  dsimp -proj -iota -eta only
  apply each_canon
  · intro a1_0 m1 h1
    apply each_canon
    · intro a2_0 m2 h2
      apply runNative_canon
      exact h2
    · apply setSess_canon
      exact h1
  · exact h

theorem pauseEnd_canon : ∀ x0, Mach.canon x0 → Mach.canon (pauseEnd x0) := by
  intro x0 h
  unfold pauseEnd
  dsimp -proj -iota -eta only
  apply pumpPlanned_canon
  refine canon_ite ?_ ?_
  · apply fset_canon
    apply setImg_canon
    exact h
  · apply runHeld_canon
    apply fset_canon
    apply setImg_canon
    exact h

theorem passBank_canon : ∀ x0 x1, Mach.canon x1 → Mach.canon (passBank x0 x1) := by
  intro x0 x1 h
  unfold passBank
  dsimp -proj -iota -eta only
  apply setBank_canon
  exact h

theorem failBank_canon : ∀ x0 x1, Mach.canon x1 → Mach.canon (failBank x0 x1) := by
  intro x0 x1 h
  unfold failBank
  dsimp -proj -iota -eta only
  apply setEv_canon
  apply setBank_canon
  exact h

theorem handoverEnd_canon : ∀ x0 x1, Mach.canon x1 → Mach.canon (handoverEnd x0 x1) := by
  intro x0 x1 h
  unfold handoverEnd
  split
  · refine canon_ite ?_ ?_
    · apply pauseEnd_canon
      apply setEv_canon
      apply fwStart_canon
      apply refreshImg_canon
      apply passBank_canon
      exact h
    · apply pauseEnd_canon
      apply refreshImg_canon
      apply failBank_canon
      exact h
  · apply pauseEnd_canon
    exact h

theorem spiSeen_canon (f : Mach → Mach) (hf : ∀ m : Mach, m.canon → (f m).canon) (m : Mach) (h : m.canon) :
    (spiSeen f m).canon := by
  unfold spiSeen
  exact canon_ite h (hf m h)

theorem spiErr_canon : ∀ x0, Mach.canon x0 → Mach.canon (spiErr x0) := by
  intro x0 h
  unfold spiErr
  apply gate_canon
  · intro m1 h1
    apply setEv_canon
    exact h1
  · exact h

theorem setJtag_canon : ∀ x0 x1, Mach.canon x1 → Mach.canon (setJtag x0 x1) := by
  intro x0 x1 h
  unfold setJtag
  refine canon_mk (canon_of ?_)
  exact h

theorem spiWords_canon (k a n : Nat) (m : Mach) (h : m.canon) : (spiWords k a n m).2.canon := by
  induction n generalizing a m with
  | zero => exact h
  | succ n ih => exact ih _ _ (hostRead_canon _ _ _ h)

theorem spiPut_canon (k a : Nat) (l : List W) (m : Mach) (h : m.canon) : (spiPut k a l m).canon := by
  induction l generalizing a m with
  | nil => exact h
  | cons w l ih => exact ih _ _ (hostWrite_canon _ _ _ _ h)

theorem spiWriteFrame_canon : ∀ x0 x1 x2 x3, Mach.canon x3 → Mach.canon (spiWriteFrame x0 x1 x2 x3) := by
  intro x0 x1 x2 x3 h
  unfold spiWriteFrame
  apply spiSeen_canon
  · intro m1 h1
    apply spiPut_canon
    exact h1
  · exact h

theorem spiReadFrame_canon : ∀ x0 x1 x2 x3, Mach.canon x3 → Mach.canon (spiReadFrame x0 x1 x2 x3) := by
  intro x0 x1 x2 x3 h
  unfold spiReadFrame
  dsimp -proj -iota -eta only
  apply spiSeen_canon
  · intro m1 h1
    apply send_canon
    apply spiWords_canon
    exact h1
  · exact h

theorem jtagRelease_canon : ∀ x0, Mach.canon x0 → Mach.canon (jtagRelease x0) := by
  intro x0 h
  unfold jtagRelease
  refine canon_ite ?_ ?_
  · apply softReset_canon
    apply setJtag_canon
    exact h
  · exact h

theorem i2cData_canon : ∀ x0 x1, Mach.canon x1 → Mach.canon (i2cData x0 x1) := by
  intro x0 x1 h
  unfold i2cData
  dsimp -proj -iota -eta only
  apply wr_canon
  apply wr_canon
  exact h

theorem mgmtBusy_canon : ∀ x0 x1 x2, Mach.canon x2 → Mach.canon (mgmtBusy x0 x1 x2) := by
  intro x0 x1 x2 h
  unfold mgmtBusy
  apply nextFree_canon
  apply sendNat_canon
  exact h

theorem mgmtReq_canon : ∀ x0 x1 x2, Mach.canon x2 → Mach.canon (mgmtReq x0 x1 x2) := by
  intro x0 x1 x2 h
  unfold mgmtReq
  dsimp -proj -iota -eta only
  refine canon_ite ?_ ?_
  · exact h
  · refine canon_ite ?_ ?_
    · refine canon_ite ?_ ?_
      · apply setSess_canon
        exact h
      · apply mgmtBusy_canon
        exact h
    · apply mgmtRun_canon
      exact h

theorem spiBad_canon : ∀ x0 x1, Mach.canon x1 → Mach.canon (spiBad x0 x1) := by
  intro x0 x1 h
  unfold spiBad
  refine canon_ite ?_ ?_
  · exact h
  · apply spiErr_canon
    exact h

theorem restartEnd_canon : ∀ x0, Mach.canon x0 → Mach.canon (restartEnd x0) := by
  intro x0 h
  unfold restartEnd
  dsimp -proj -iota -eta only
  split
  · refine canon_ite ?_ ?_
    · refine canon_ite ?_ ?_
      · refine canon_mk (canon_of ?_)
        exact h
      · apply runHeld_canon
        refine canon_mk (canon_of ?_)
        exact h
    · exact h
  · exact h

theorem regaccDone_canon (a : Nat) (v : W) (m : Mach) (h : m.canon) : (regaccDone a v m).canon := setJtag_canon _ _ h

theorem trialEnd_canon : ∀ x0 x1, Mach.canon x1 → Mach.canon (trialEnd x0 x1) := by
  intro x0 x1 h
  unfold trialEnd
  dsimp -proj -iota -eta only
  refine canon_ite ?_ ?_
  · apply refreshImg_canon
    apply passBank_canon
    apply setImg_canon
    exact h
  · apply softReset_canon
    apply refreshImg_canon
    apply failBank_canon
    apply setImg_canon
    exact h

theorem idleTick_canon : ∀ x0, Mach.canon x0 → Mach.canon (idleTick x0) := by
  intro x0 h
  unfold idleTick
  apply restartEnd_canon
  refine canon_ite ?_ ?_
  · refine canon_mk (canon_of ?_)
    exact h
  · exact h

theorem spiReadTimeout_canon : ∀ x0 x1, Mach.canon x1 → Mach.canon (spiReadTimeout x0 x1) := by
  intro x0 x1 h
  unfold spiReadTimeout
  apply gate_canon
  · intro m1 h1
    apply send_canon
    apply setEv_canon
    apply hostRead_canon
    exact h1
  · exact h

theorem jtagLoad_canon : ∀ x0 x1, Mach.canon x1 → Mach.canon (jtagLoad x0 x1) := by
  intro x0 x1 h
  unfold jtagLoad
  dsimp -proj -iota -eta only
  refine canon_ite ?_ ?_
  · exact h
  · refine canon_ite ?_ ?_
    · refine canon_ite ?_ ?_
      · apply setJtag_canon
        apply jtagRelease_canon
        exact h
      · apply gate_canon
        · intro m1 h1
          apply setEv_canon
          exact h1
        · apply setJtag_canon
          apply jtagRelease_canon
          exact h
    · apply setJtag_canon
      apply jtagRelease_canon
      exact h

theorem jtagIdcode_canon : ∀ x0, Mach.canon x0 → Mach.canon (jtagIdcode x0) := by
  intro x0 h
  unfold jtagIdcode
  refine canon_ite ?_ ?_
  · exact h
  · apply send_canon
    apply jtagLoad_canon
    exact h

theorem selftestEnd_canon : ∀ x0 x1, Mach.canon x1 → Mach.canon (selftestEnd x0 x1) := by
  intro x0 x1 h
  unfold selftestEnd
  refine canon_ite ?_ ?_
  · apply handoverEnd_canon
    exact h
  · refine canon_ite ?_ ?_
    · apply trialEnd_canon
      exact h
    · exact h

theorem jtagTlr_canon : ∀ x0, Mach.canon x0 → Mach.canon (jtagTlr x0) := by
  intro x0 h
  unfold jtagTlr
  refine canon_ite ?_ ?_
  · exact h
  · apply setJtag_canon
    apply jtagRelease_canon
    exact h

theorem regaccUpdate_canon (b : Bool) (a : Nat) (v : W) (m : Mach) (h : m.canon) : (regaccUpdate b a v m).canon := by
  unfold regaccUpdate
  refine canon_ite h (canon_ite (nextFree_canon _ (regaccDone_canon _ _ _ (hostWrite_canon _ _ _ _ h))) (canon_ite (setJtag_canon _ _ h) ?_))
  exact returnWord_canon _ (regaccDone_canon _ _ _ (hostRead_canon _ _ _ h))

theorem i2cDone_canon : ∀ x0 x1, Mach.canon x1 → Mach.canon (i2cDone x0 x1) := by
  intro x0 x1 h
  unfold i2cDone
  dsimp -proj -iota -eta only
  refine canon_ite ?_ ?_
  · apply setEvIf_canon
    apply whenB_canon
    · intro m1 h1
      apply nextFree_canon
      exact h1
    · apply fset_canon
      apply fsetB_canon
      apply fsetB_canon
      apply fsetB_canon
      apply fsetB_canon
      apply wr_canon
      apply i2cData_canon
      exact h
  · exact h

end Sys2Proof.Machine
end

