-- ==== Sys2Proof/Laws/CanonMirrorRx.lean ====
section
/-! SUPPORT. The operations of Machine/MirrorRx.lean keep the registers and the reservoir in canonical form. -/

namespace Sys2Proof.Machine

set_option maxRecDepth 8000

theorem mirClassB_canon : ∀ x0 x1 x2, Mach.canon x2 → Mach.canon (mirClassB x0 x1 x2) := by
  intro x0 x1 x2 h
  unfold mirClassB
  dsimp -proj -iota -eta only
  refine canon_ite ?_ ?_
  · apply fset_canon
    apply setClk_canon
    exact h
  · exact h

theorem mirAlign_canon : ∀ x0 x1 x2, Mach.canon x2 → Mach.canon (mirAlign x0 x1 x2) := by
  intro x0 x1 x2 h
  unfold mirAlign
  dsimp -proj -iota -eta only
  refine canon_ite ?_ ?_
  · apply setClk_canon
    refine canon_ite ?_ ?_
    · exact h
    · apply alignGrid_canon
      exact h
  · exact h

theorem mirApply_canon : ∀ x0 x1, Mach.canon x1 → Mach.canon (mirApply x0 x1) := by
  intro x0 x1 h
  unfold mirApply
  dsimp -proj -iota -eta only
  split
  · apply setEvIf_canon
    apply setInSync_canon
    exact h
  · apply clkSteerWrite_canon
    exact h
  · apply mirClassB_canon
    exact h
  · apply mirAlign_canon
    exact h
  · apply setEvIf_canon
    apply setInSync_canon
    exact h
  · apply schedIn_canon
    exact h
  · apply wr_canon
    exact h
  · apply anchorWrite_canon
    exact h
  · apply bmuCfgWrite_canon
    exact h
  · apply rwsWrite_canon
    exact h
  · apply rwsWrite_canon
    exact h
  · apply txAttWrite_canon
    exact h
  · apply txCfgWrite_canon
    exact h
  · apply send_canon
    apply poolBytes_canon
    exact h
  · apply writeIdle_canon
    exact h
  · apply mirSwapIn_canon
    exact h
  · apply setInSync_canon
    apply setTwin_canon
    apply mirroredFront_canon
    exact h

theorem mirNow_canon : ∀ x0 x1, Mach.canon x1 → Mach.canon (mirNow x0 x1) := by
  intro x0 x1 h
  unfold mirNow
  dsimp -proj -iota -eta only
  split
  · apply takeStage_canon
    · intro a1_0 m1 h1
      apply applyAnchor_canon
      exact h1
    · exact h
  · apply takeStage_canon
    · intro a2_0 m2 h2
      apply applyBmuCfg_canon
      exact h2
    · exact h
  · apply takeStage_canon
    · intro a3_0 m3 h3
      apply applyRws_canon
      exact h3
    · exact h
  · apply takeStage_canon
    · intro a4_0 m4 h4
      apply applyRws_canon
      exact h4
    · exact h
  · apply takePlain_canon
    exact h
  · apply applyTxCfg_canon
    exact h
  · exact h

theorem railPaths_canon : ∀ x0 x1 x2, Mach.canon x2 → Mach.canon (railPaths x0 x1 x2) := by
  intro x0 x1 x2 h
  unfold railPaths
  apply each_canon
  · intro a1_0 m1 h1
    apply failPath_canon
    exact h1
  · exact h

theorem mirGap_canon : ∀ x0 x1, Mach.canon x1 → Mach.canon (mirGap x0 x1) := by
  intro x0 x1 h
  unfold mirGap
  dsimp -proj -iota -eta only
  refine canon_ite ?_ ?_
  · exact h
  · refine canon_ite ?_ ?_
    · apply send_canon
      apply setInSync_canon
      apply setTwin_canon
      exact h
    · apply setInSync_canon
      apply setTwin_canon
      exact h

theorem mirSeqCheck_canon : ∀ x0 x1 x2, Mach.canon x2 → Mach.canon (mirSeqCheck x0 x1 x2) := by
  intro x0 x1 x2 h
  unfold mirSeqCheck
  dsimp -proj -iota -eta only
  refine canon_ite ?_ ?_
  · apply setTwin_canon
    exact h
  · apply mirGap_canon
    apply setTwin_canon
    exact h

theorem mirrorChange_canon : ∀ x0 x1, Mach.canon x1 → Mach.canon (mirrorChange x0 x1) := by
  intro x0 x1 h
  unfold mirrorChange
  dsimp -proj -iota -eta only
  refine canon_ite ?_ ?_
  · apply refreshReady_canon
    refine canon_ite ?_ ?_
    · apply mirNow_canon
      apply mirApply_canon
      apply mirSeqCheck_canon
      exact h
    · apply mirApply_canon
      apply mirSeqCheck_canon
      exact h
  · exact h

theorem railFault_canon : ∀ x0 x1, Mach.canon x1 → Mach.canon (railFault x0 x1) := by
  intro x0 x1 h
  unfold railFault
  refine canon_ite ?_ ?_
  · exact h
  · split
    · apply each_canon
      · intro a1_0 m1 h1
        apply coastQpll_canon
        exact h1
      · apply coastMpll_canon
        exact h
    · refine canon_ite ?_ ?_
      · apply railPaths_canon
        exact h
      · exact h
    · refine canon_ite ?_ ?_
      · apply railPaths_canon
        exact h
      · exact h
    · apply each_canon
      · intro a2_0 m2 h2
        apply setPort_canon
        exact h2
      · exact h

end Sys2Proof.Machine
end

