-- ==== Sys2Proof/Machine/Wire.lean ====
section
/-! DEFINITION. What the device sends on its ports, as bytes (R26: big-endian, but for the fields that native messages carry in their
reservoir layout): the slot report and its records (R203, R204), native messages (R381 to R383, R389), IQ messages (R374, R376, R378). -/

namespace Sys2Proof.Machine

/-- A signed number of `n` bytes, big-endian. -/
def beSigned (n : Nat) (x : Int) : List Byte := beBytes n (toBits (8 * n) x)
def zeros (n : Nat) : List Byte := List.replicate n 0#8

/-! ### The slot report (R203, R204) -/

/-- R204: a detection record, 32 bytes. -/
def detBytes (d : Det) : List Byte :=
  beBytes 4 d.id ++ beBytes 8 d.tRef ++ beSigned 3 d.tOff ++ beBytes 1 (d.w % 16) ++ beBytes 2 (d.r % 64 + 64 * (d.v % 1024)) ++
    beBytes 1 (d.a % 64) ++ beSigned 1 d.snr ++ beSigned 2 d.az ++ beSigned 2 d.el ++ beSigned 4 d.fOff ++ beBytes 1 d.nbeams ++
    zeros 1 ++ beBytes 2 d.dflags

/-- R203: the report: 40 bytes, then the records. -/
def reportBytes (r : SlotRep) : List Byte :=
  beBytes 8 r.slotTick ++ beBytes 4 (r.frame % 2 ^ 24 + r.slot % 256 * 2 ^ 24) ++ beBytes 2 r.dets.length ++ beBytes 1 r.flags ++
    beBytes 1 r.nwin ++ beBytes 8 r.formed ++ beBytes 8 r.shed ++ beBytes 8 r.gap ++ r.dets.flatMap detBytes

/-! ### Native messages (R381, R382) -/

/-- R389: a timestamp. -/
def stampBytes (t : Stamp) : List Byte := beBytes 8 t.tick ++ beBytes 1 t.fine ++ zeros 3

/-- R382: the type of a message from the device. -/
def natType : NatBody → Nat
  | .slotReport _ => 0x10
  | .bindAck .. => 0x12
  | .dirResp _ => 0x15
  | .poolAck .. => 0x17
  | .capUpload .. => 0x20
  | .txLate .. => 0x21
  | .event .. => 0x22
  | .mgmtResp _ => 0x31
  | .imgResult _ => 0x40
  | .portState .. => 0x50
  | .ptpRx .. => 0x60
  | .ptpTs .. => 0x62

/-- R382: its body. The target, the flags and the offset of a RESULT, which R480 leaves open, are 0 (DESIGN CHOICE, assumption 99). -/
def natBytes : NatBody → List Byte
  | .slotReport r => reportBytes r
  | .bindAck det id st q => beBytes 4 det.toNat ++ beBytes 6 id.toNat ++ beBytes 1 st ++ zeros 1 ++ beBytes 4 q.toNat
  | .dirResp l => l.flatMap fun a => beBytes 1 a.status ++ zeros 3 ++ beBytes 4 a.count ++ a.ents.flatMap entBytes
  | .poolAck f n st => beBytes 2 f ++ beBytes 2 n ++ beBytes 1 st ++ zeros 3
  | .capUpload k off data => beBytes 1 k ++ zeros 7 ++ beBytes 8 off ++ data
  | .txLate q t => beBytes 1 q ++ zeros 7 ++ beBytes 8 t
  | .event t l => beBytes 8 t ++ l.flatMap fun w => beBytes 4 w.toNat
  | .mgmtResp l => l.flatMap fun x => beBytes 1 x.1 ++ zeros 3 ++ beBytes 4 x.2.toNat
  | .imgResult st => [5#8, 0#8, 0#8] ++ beBytes 1 st ++ zeros 4
  | .portState ps gbps => (ps.flatMap fun p => beBytes 1 p.1 ++ beBytes 1 (if p.2 then 1 else 0) ++ zeros 2) ++ beBytes 4 gbps
  | .ptpRx p ts x => beBytes 1 p ++ zeros 3 ++ stampBytes ts ++ x.body
  | .ptpTs p ts q ty => beBytes 1 p ++ zeros 3 ++ stampBytes ts ++ beBytes 2 q.toNat ++ beBytes 1 ty.toNat ++ zeros 1

/-- R381: a native message after its Ethernet header. -/
def nativeBytes (sess seq : Nat) (b : NatBody) : List Byte :=
  let l := natBytes b
  [1#8] ++ beBytes 1 (natType b) ++ beBytes 2 l.length ++ beBytes 2 sess ++ zeros 2 ++ beBytes 4 seq ++ l

/-! ### IQ messages (R374, R376, R378) -/

/-- R378: a block of mantissas of `mw` bits: its header byte, then the mantissas packed most significant bit first. -/
def blockBytes (mw : Nat) (b : IqBlock) : List Byte :=
  b.hdr :: beBytes (3 * mw) (b.mant.foldl (fun a x => a * 2 ^ mw + toBits mw x) 0)

/-- R376: the sensor block. -/
def sensBytes (s : SensBlk) : List Byte := beBytes 6 s.id.toNat ++ beBytes 1 s.src ++ zeros 1 ++ beBytes 4 s.tOff ++ beBytes 4 s.fOff

/-- The payload of an IQ message: PC_ID, SEQ_ID, the section header, the sensor block if it is there, the blocks. -/
def iqBytes (mw pcId seqId frame fmt j flags : Nat) (sens : Option SensBlk) (bs : List IqBlock) : List Byte :=
  beBytes 2 pcId ++ beBytes 2 seqId ++ beBytes 3 frame ++ beBytes 1 fmt ++ beBytes 3 j ++ beBytes 1 flags ++ beBytes 2 bs.length ++
    zeros 2 ++ (sens.map sensBytes).getD [] ++ bs.flatMap (blockBytes mw)

/-- The eCPRI common header (R373; PRESUMED, assumption 99: revision 1 in bits [7:4], the message type, the payload's bytes). -/
def ecpriHdr (ty len : Nat) : List Byte := [0x10#8] ++ beBytes 1 ty ++ beBytes 2 len

/-! ### What goes out on a port -/

/-- The EtherType and the bytes after it, of a message that goes out on a port; nothing for what goes out elsewhere. An eCPRI type 5
message's layout is eCPRI's own. -/
def wireBytes (o : OutMsg) (m : Mach) : List Byte :=
  match o with
  | .iq _ _ pc sq fr fm j fl sn bs =>
    let l := iqBytes (fmtEntry fm m).m pc sq fr fm j fl sn bs
    beBytes 2 0xAEFE ++ ecpriHdr 0 l.length ++ l
  | .native s q b => beBytes 2 (fget EPL_CFG.etype m) ++ nativeBytes s q b
  | .ptpOut _ x => beBytes 2 0x88F7 ++ x.body
  | _ => []

end Sys2Proof.Machine
end

