-- ==== Sys2Proof/Tests/Slice0.lean ====
section
/-! SUPPORT. Small tests: the words and the operands of the spec, one step on a small state, and for each statement with
hypotheses a state and operands that meet them together. -/

namespace Sys2Proof.Tests

open Sys2Proof Sys2Proof.Machine

set_option maxRecDepth 20000

/-- The core runs, with the device in state `d`. -/
def dev (d : Nat) : Mach := fset GCTL_DEV_STATE.state d { State.reset.m with power := .coreRun }

def st (m : Mach) : State := ⟨m, []⟩

/-- The command answers a next state of which `p` holds. -/
def gives (c : Instr) (m : Mach) (p : Mach → Bool) : Bool :=
  match exec c (st m) with
  | .next t => p t.m
  | _ => false

/-- The command is not one a device can be sent. -/
def malformed (c : Instr) : Bool :=
  match exec c (st (dev 5)) with
  | .fault .malformedCommand => true
  | _ => false

/-- Session 0 has a peer and port 0. -/
def peer (m : Mach) : Mach := fset EPL_STATUS.bonded 1 (fset (EPL_SESS_CFG.mask 0) 1 (wr (EPL_SESS_MAC_LO 0) 1#32 m))

/-- Partition `i` is the first 64 KiB of the reservoir. -/
def part (i : Nat) (m : Mach) : Mach := fset (RES_PART_SIZE.size i) 1 (wr (RES_PART_BASE i) 0x40000000#32 m)

/-- A deck is loaded, with a directory of one bucket in the first partition. -/
def deck (m : Mach) : Mach :=
  fset DIR_CFG.nb 1 (fset (RES_PART_QUOTA.quota 0) 1 (part 0
    (fset GCTL_DEV_STATE.deck_loaded 1 { m with img := { m.img with deckId := [1#8] } })))

/-- Quadrant `q` is in state `k`. -/
def quad (q k : Nat) (m : Mach) : Mach := fset (GCTL_QUAD_STATE.st_q q) k m

def withRole (r : Nat) (m : Mach) : Mach := fset HLT_TWIN_STATUS.role_act r m

/-- Physical tile 0 is `x`. -/
def withTile (x : Tile) : Mach := setTile 0 x (dev 5)

/-- A tile that runs the instruction `c`, which stands at its PC. -/
def running (c : Instr) : Tile := { state := 1, serving := true, pc := 3, prog := [(3, BitVec.ofNat 32 (tileCode c))] }

/-- The frame is a slot of downlink, one of acquisition, one of a gap for all quadrants, and one of uplink. -/
def slots4 : FrameTab := ⟨false, 400000, [⟨0, 0, 15, 0, 0⟩, ⟨100000, 2, 0, 15, 0⟩, ⟨200000, 3, 0, 0, 15⟩, ⟨300000, 1, 0, 15, 0⟩]⟩

def inSlot (k : Nat) (m : Mach) : Mach := { m with ftab := slots4, slot := k, slotStart := 100000 * k, tod := 200000 * k }

def desc0 : SchedDesc := ⟨0, 1#2, 0, 0, 0, false, 0, 7#48, 0#16, 0#16, 0#16⟩
def sched0 : Sched := ⟨5#24, 0#8, .dl, [desc0]⟩
def entry0 : DirEntry := ⟨7#48, false, false, 0#2, 0#4, 0#16, 0#16, 0#16, 0#32, 0#32, 0#8, 0#8, 0#16, 1#40, 0#32, 0#32, 0#32, 0#128⟩
def sample0 : Sample := ⟨1, 2, .valid, false⟩
def out0 : OutSample := ⟨sample0, none, 12000⟩
def job0 : AcqJob := ⟨0, 0, 1, 0, [], 0, 139, 1, 4, 1, 1, [1], 0, 0, 1, [], [], [], none, [], false⟩
def beat0 : Heartbeat := ⟨1, 5, 0#8, true, true, 0#64, 0#4, 0#64, 0#64⟩
def fields0 : DirFields := ⟨1#2, 0#4, 0#16, 0#16, 0#16, false, 0#128⟩

/-! Ill-formed operands: one term for each check, which the check refuses. -/

theorem test_wf_unit : unitOk 0x800000 = false ∧ malformed (.scrubRead 0x800000 .clean) = true := by decide
theorem test_wf_pipes : pipesOk [] = false ∧ malformed (.slackWindowEnd []) = true := by decide
theorem test_wf_unit_cals : unitCalsOk [] = false ∧ malformed (.rxSelfcalDone 0 [⟨0#5, []⟩]) = true := by decide
theorem test_wf_fit : fitOk [] = false ∧ malformed (.pdAdaptCycleEnd 0 [] []) = true := by decide
theorem test_wf_iq : malformed (.iqMessageRx 0 ⟨0#16, 0#16, 0#24, 0#8, 0#24, 0#8, [⟨0#8, [1]⟩]⟩) = true := by decide
theorem test_wf_vectors : vectorsOk [[0#32]] = false ∧ malformed (.poolWrite 0 0#16 [[0#32]]) = true := by decide
theorem test_wf_mgmt : mgmtOk (List.replicate 65 ⟨false, 0#32, 0#32⟩) = false ∧ mgmtOk (List.replicate 64 ⟨false, 0#32, 0#32⟩) = true := by
  decide
theorem test_wf_groups : groupsOk [] = false ∧ malformed (.monSystemGroup [[0#12]]) = true := by decide
theorem test_wf_mirror : malformed (.mirrorChange ⟨true, 0#32, 0#64, .poolVec 0#16 []⟩) = true := by decide
theorem test_wf_others : ([.goWarm, .nop 0, .scrubRead 0x7FFFFF .clean, .poolWrite 0 0#16 []] : List Instr).all Instr.wf = true := by
  decide

/-! The words of tile instructions, written out from the fields of spec/10. -/

theorem test_word_smem : tileCode (.smem 0 0 true 0xFF) = 0xE80001FF := by decide
theorem test_word_loop : tileCode (.loop 0 127 4) = 0x1C07F004 := by decide
theorem test_word_movw : tileCode (.movw 0 2 true 1) = 0xC5000101 := by decide
theorem test_word_rdsp : tileCode (.rdsp 0 2 2) = 0x50020002 := by decide
theorem test_word_control : tileCode (.nop 0) = 0 ∧ tileCode (.halt 0) = 0x04000000 ∧ tileCode (.ret 0) = 0x18000000 ∧
    tileCode (.waitx 0) = 0xF4000000 := by decide
theorem test_no_word_of_the_table : decodeTableWord 0 0 = none ∧ decodeTableWord 32 0xFFFFFFFF = none := by decide

/-! One step on a small state. -/

theorem test_step_takes_the_front : (match step ⟨dev 3, [.registerWrite .spi GCTL_SCRATCH 4 5#32, .goWarm]⟩ with
    | .next t => decide (t.pending = [.goWarm]) && decide (rd GCTL_SCRATCH t.m = 5#32)
    | _ => false) = true := by decide
theorem test_step_idles : (match step (st (dev 3)) with
    | .next t => decide (t.m.tod = 2)
    | _ => false) = true := by decide
theorem test_narrow_write : gives (.registerWrite .spi GCTL_SCRATCH 3 5#32) (dev 3) (fun m =>
    rd GCTL_SCRATCH m == 0#32 && fon GCTL_GLOBAL_EVENTS.addr_err m) = true := by decide
theorem test_w1c_keeps_what_is_set : gives (.w1cWrite .spi GCTL_STATE_EVENTS 3#32 1#32) (wr GCTL_STATE_EVENTS 7#32 (dev 3)) (fun m =>
    rd GCTL_STATE_EVENTS m == 5#32) = true := by decide
theorem test_staged_write : gives (.stagedWrite .spi ACQ_CFG 1#32) (dev 3) (fun m =>
    staged ACQ_CFG m == some 1#32 && rd ACQ_CFG m == 0#32) = true := by decide
theorem test_standby_to_warm : gives .goWarm (dev 3) (fun m => fon GCTL_DEV_STATE.busy m && decide (m.trans = some .toWarm)) = true := by
  decide
theorem test_active_needs_its_conditions : gives .goActive (dev 4) (fun m => fon GCTL_STATE_EVENTS.state_err m) = true := by decide
theorem test_soft_reset : gives .softReset (wr GCTL_SCRATCH 9#32 (dev 4)) (fun m =>
    devState m == 1 && rd GCTL_SCRATCH m == 0#32 && fget GCTL_DEV_STATE.prev m == 4) = true := by decide
theorem test_voltage_frame : avsFrame 40 = 0xA281#16 ∧ avsFrame 41 = 0xA290#16 := by decide
theorem test_avs_limits : gives (.avsCfgWrite 0x01003010#32) (dev 3) (fun m =>
    avsFloor m == 24 && avsCeil m == 48 && rd GCTL_AVS_CFG m == 0x01003010#32) = true := by decide
theorem test_clock_stop_freezes : gives (.domainClockStop .ltx) (dev 5) (fun m => m.frozen == [6]) = true := by decide
theorem test_next_slot : (nextSlot (inSlot 0 (dev 3))).2 = 100000 ∧ (nextSlot (inSlot 3 (dev 3))).2 = 400000 ∧
    lastSlot (inSlot 2 (dev 3)) = false ∧ lastSlot (inSlot 3 (dev 3)) = true := by decide
theorem test_converter_code : gives (.adcSample (.path 5) 0x2000#14) (quad 0 2 (dev 5)) (fun m =>
    (getRx 5 m).asm.map (fun x => (x.i, x.q, x.ovr)) == [(-524288, 0, true)]) = true := by decide
theorem test_zone_three_refused : gives (.rxCtrlWrite (.path 0) 3#32) (quad 0 2 (dev 5)) (fun m =>
    fon (QUAD_RX_EVENTS.cfg_err (.path 0)) m) = true := by decide
theorem test_tune_word_of_two_halves : gives (.ftwHiWrite (.ddc 3) 0x12345678#32) (wr (QUAD_DDC_FTW_LO (.ddc 3)) 0x9ABCDEF0#32 (dev 3))
    (fun m => (getChain (chainKey (.ddc 3)) m).ftw == 0x56789ABCDEF0) = true := by decide
theorem test_attenuation_limit : gives (.txAttWrite 17 6001#32) (dev 3) (fun m => fon (QUAD_TX_EVENTS.tx_err 17) m) = true ∧
    gives (.txAttWrite 17 6000#32) (dev 3) (fun m => rd (QUAD_TX_ATT 17) m == 6000#32) = true := by decide
theorem test_seed_zero_refused : gives (.clkSeedWrite 0x01000000#32) (dev 3) (fun m => fon CLK_EVENTS.cfg_err m) = true := by decide
theorem test_steer_step : gives (.clkSteerWrite 201#32) (dev 3) (fun m => fon CLK_EVENTS.steer_err m) = true ∧
    gives (.clkSteerWrite 0xFF38#32) (dev 3) (fun m => fget CLK_STEER.steer m == 0xFF38) = true := by decide
theorem test_quadrant_request : gives (.quadReqWrite 1#32) (dev 3) (fun m => (getQ 0 m).idleTarget && !(getQ 1 m).idleTarget) = true := by
  decide
theorem test_lut_index_beyond_the_bank : gives (.pdLutDataWrite 2 7#32) (wr (QUAD_PD_LUT_ADDR 2) 2180#32 (dev 3)) (fun m =>
    fget (QUAD_PD_LUT_ADDR.idx 2) m == 2181 && fon (QUAD_PD_EVENTS.pd_err 2) m) = true := by decide
theorem test_tile_add : gives (.alu 0 3 1 2 0) (withTile { running (.alu 0 3 1 2 0) with sc := [(1, 0xFFFFFFFF#32), (2, 2#32)] })
    (fun m => (getTile 0 m).s 3 == 1#32 && (getTile 0 m).pc == 4) = true := by decide
theorem test_tile_loop_back : gives (.nop 0) (withTile { running (.nop 0) with loops := [(1, 3, 2)] }) (fun m =>
    (getTile 0 m).pc == 1 && (getTile 0 m).loops == [(1, 3, 1)]) = true := by decide
theorem test_tile_illegal : gives (.alu 0 3 1 2 0xA) (withTile (running (.alu 0 3 1 2 0xA))) (fun m =>
    (getTile 0 m).state == 3 && (getTile 0 m).fault == 1) = true := by decide
theorem test_tile_run : gives (.tileRun 0) (withTile { serving := true, entry := 12 }) (fun m =>
    (getTile 0 m).state == 1 && (getTile 0 m).pc == 12) = true := by decide
theorem test_window_write : gives (.resWindowWrite 0x40000010 0x11223344#32) (part 7 (dev 3)) (fun m =>
    resBytes 0x40000010 4 m == [0x44#8, 0x33#8, 0x22#8, 0x11#8]) = true := by decide
theorem test_dma_start : gives (.dmaStart 4) (wr (DMA_CH_HEAD 4) 0x40000020#32 (dev 3)) (fun m =>
    dmaState 4 m == 1 && rd (DMA_CH_DESC 4) m == 0x40000020#32) = true := by decide
theorem test_port_trained : gives (.portTrained 1) (fset (EPL_PORT_STATUS.state 1) 1 (dev 3)) (fun m =>
    portState 1 m == 2 && fon EPL_EVENTS.port_chg m) = true := by decide
theorem test_fifo_empty : gives (.monFifoRead 0) (dev 3) (fun m => fon (MON_EVENTS.fifo_udf 0) m && m.out == [.rdata 0#32]) = true := by
  decide
theorem test_thresholds_order : gives (.monThrWrite 0x007D5A5B#32) (dev 3) (fun m => fon MON_THERM_EVENTS.cfg_err m) = true := by decide
theorem test_token_taken : gives (.tokenCheck false) { dev 5 with twin := { State.reset.m.twin with driving := true } } (fun m =>
    hasToken m && m.twinSel) = true := by decide
theorem test_role_three_refused : gives (.twinRoleWrite 3#32) (dev 3) (fun m => fon HLT_TWIN_EVENTS.role_refused m) = true := by decide
theorem test_image_opens : gives (.imgOpen 1#2) (dev 3) (fun m =>
    decide (m.img.sess = some ⟨1, []⟩) && fget IMG_STATUS.lock_src m == 1) = true := by decide
theorem test_spi_burst : gives (.spiWrite GCTL_I2C_DATA_LO [1#32, 2#32]) (dev 3) (fun m =>
    rd GCTL_I2C_DATA_LO m == 1#32 && rd GCTL_I2C_DATA_HI m == 2#32) = true := by decide
theorem test_idcode_word : gives .idcode State.reset.m (fun m => m.out == [.rdata 0x16420DE7#32]) = true := by decide
theorem test_highz_refused : gives .highz (dev 5) (fun m => fon GCTL_GLOBAL_EVENTS.jtag_refused m && m.jtag.ir == 0xFF) = true := by decide
theorem test_i2c_key : gives (.i2cCommand 0#32) (dev 3) (fun m => fon GCTL_GLOBAL_EVENTS.i2c_err m) = true := by decide

/-! For each statement with hypotheses, states and operands that meet those of its clauses. -/

theorem witness_EmptyQueuePassesOneTick : timingOn (dev 3) = true ∧ timingOn (dev 1) = false ∧ (dev 3).hlt.restart = none ∧
    tick (dev 3) + 1 = 1 := by decide
theorem witness_WellFormedCommandsAnswerNext : (Instr.scrubRead 0x7FFFFF .clean).wf = true ∧ (Instr.scrubRead 0x800000 .clean).wf = false := by
  decide
theorem witness_QueueOfWellFormedCommandsDrains : State.queueWf ⟨dev 3, [.goWarm, .nop 0]⟩ := by
  unfold State.queueWf; decide
theorem witness_EveryStepKeepsCanonicalForm : (dev 3).canon ∧ (match step (st (dev 3)) with
    | .next _ => true
    | _ => false) = true := by unfold Mach.canon; decide
theorem witness_AddressErrorsAreReported : mapOpen .spi GCTL_SCRATCH true (dev 3) = true ∧ mapOpen .spi 3 true (dev 3) = true ∧
    mapOpen .spi 0xFFFFC true (dev 3) = true ∧ isRes 0xFFFFC = false ∧ accBad 0xFFFFC (dev 3) = true ∧
    mapOpen .spi 0xFFFFC false (dev 3) = true := by decide
theorem witness_ClosedPathsHaveNoEffect : mapOpen .spi GCTL_SCRATCH true (dev 7) = false ∧ mapOpen .spi BMU_CFG false (dev 2) = false ∧
    BMU_CFG < 2 ^ 32 ∧ BMU_CFG ∉ [GCTL_DEV_STATE, GCTL_STATE_EVENTS, MON_SHDN_CAUSE] ∧ (dev 2).power ≠ .off ∧
    State.reset.m.power ≠ .off ∧ State.reset.m.power ≠ .coreRun ∧ devState State.reset.m = 1 := by decide
theorem witness_PlainRegistersTakeTheirDefinedBits : [GCTL_SCRATCH, GCTL_IRQ_EN, GCTL_EVT_EN, GCTL_I2C_DATA_LO, GCTL_I2C_DATA_HI,
    GCTL_ANCHOR_CFG, GCTL_SLACK_CFG, ACQ_HIST_CFG, GCTL_ID, BMU_STATUS].all (fun a => mapOpen .spi a true (dev 3) &&
      mapOpen .spi a false (dev 3) && (staged a (dev 3)).isNone) = true := by decide
theorem witness_StickyBitsClearByWritingOne : [GCTL_GLOBAL_EVENTS, GCTL_STATE_EVENTS, GCTL_CORE_EVENTS, BMU_EVENTS, RES_EVENTS,
    CLK_EVENTS].all (fun a => mapOpen .spi a true (dev 3)) = true := by decide
theorem witness_StagedWritesWaitForTheBoundary : [ACQ_CFG, ACQ_WIN, QUAD_PD_CTRL 63].all (fun a => mapOpen .spi a true (quad 3 2 (dev 5)) &&
      !stageStopped a (quad 3 2 (dev 5)) && mapOpen .spi a true (dev 1) && stageStopped a (dev 1)) = true ∧
    staged ACQ_CFG (setStage ACQ_CFG (some 1#32) (dev 3)) = some 1#32 := by decide
theorem witness_SpiFramesRunWordByWord : mapOpen .spi GCTL_SCRATCH true (dev 3) = true ∧
    [GCTL_SCRATCH, GCTL_UID_LO, GCTL_UID_HI].all (fun a => (staged a (dev 3)).isNone) = true := by decide
theorem witness_I2cTransactionsStartAndEnd : reach GCTL_I2C_CMD (dev 3) = true ∧ wfld 0x4C298850#32 16 16 = 0x4C29 ∧
    wfld 0x4C298850#32 8 4 = 8 ∧ wfld 0x4C298850#32 12 4 = 8 ∧ fon GCTL_I2C_STATUS.busy (dev 3) = false ∧
    fon GCTL_I2C_STATUS.busy (wr GCTL_I2C_STATUS 1#32 (dev 3)) = true := by decide
theorem witness_JtagInstructionsTakeEffect : (dev 3).power ≠ .off ∧ (dev 3).jtag.effect = false ∧ devState (dev 3) = 3 ∧
    drivesPins 0xFF = false ∧ devState (dev 4) = 4 ∧ (dev 6).power = .coreRun ∧ (dev 3).jtag.done = true ∧
    ({ dev 3 with jtag := { ir := 0x10 } } : Mach).jtag.ir = 0x10 ∧ mapOpen .jtag GCTL_SCRATCH true (dev 3) = true := by decide
theorem witness_ReplacedPinInstructionsReset : (dev 3).power ≠ .off ∧ (dev 3).jtag.effect = false ∧
    ({ dev 3 with jtag := { effect := true } } : Mach).jtag.effect = true ∧ (dev 3).jtag.ir ≠ 0x10 := by decide
theorem witness_ManagementRequestsAreAnswered : (peer (dev 3)).power = .coreRun ∧ mgmtHeld (peer (dev 3)) = false ∧
    sessBound 0 (peer (dev 3)) = true ∧ sessPort 0 (peer (dev 3)) = true ∧ mapOpen .inband GCTL_SCRATCH true (peer (dev 3)) = true ∧
    sessPort 0 (peer (dev 2)) = true ∧ mgmtHeld { dev 3 with img := { State.reset.m.img with pause := true } } = true ∧
    (getSess 0 (dev 3)).held.length < 8 ∧ mgmtOk (List.replicate 64 ⟨false, 0#32, 0#32⟩) = true := by decide
/-- WARM with a deck, a locked MPLL and anchors. -/
def ready : Mach := fset GCTL_ANCHOR_UL.val 100 (fset GCTL_ANCHOR_DL.val 100 (fset CLK_STATUS.mpll 3 (deck (dev 4))))
theorem witness_DeviceCommandsStartTransitions : reach GCTL_DEV_CMD (dev 3) = true ∧ fon GCTL_DEV_STATE.busy (dev 3) = false ∧
    (∀ q < 4, (getQ q (dev 3)).idleTarget = false) ∧ devState ready = 4 ∧ activeOk ready = true ∧ activeOk (dev 4) = false ∧
    fon GCTL_DEV_STATE.busy (fset GCTL_DEV_STATE.busy 1 (dev 5)) = true ∧ 5 < wfld 0x6A3C0006#32 0 4 := by decide
theorem witness_SoftResetReturnsToBoot : reach GCTL_DEV_CMD (dev 4) = true ∧ fon GCTL_DEV_STATE.busy (dev 4) = false ∧
    hasToken (dev 4) = false := by decide
theorem witness_PowerEventsMoveTheCore : devState { dev 1 with power := .held } = 1 ∧ State.reset.m.power = .waitCore ∧
    (dev 5).power = .coreRun ∧ devState (dev 5) ≠ 7 ∧ devState (dev 7) = 7 ∧ hasToken (dev 5) = false := by decide
theorem witness_HotPlugRemovalTurnsOff : (dev 5).power ≠ .off ∧ hasToken (dev 5) = false ∧ nvmWriting (dev 5) = false ∧
    (dev 5).nvm.program = false ∧ nandOut (dev 5) = false := by decide
theorem witness_BootEndsInStandbyOrRecovery : devState { dev 1 with power := .vddGood } = 1 ∧ (dev 1).power = .coreRun ∧
    fon IMG_STATUS.migrating (dev 1) = false ∧ (dev 1).img.trialRun = false ∧ rd GCTL_BOOT_CFG (dev 1) = 0#32 ∧
    rd DIR_SNAP_CFG (dev 1) = 0#32 := by decide
theorem witness_TransitionsEndAtTheirBoundary : activeOk ready = true ∧ activeOk (dev 4) = false ∧ ready.twin.takeover = none ∧
    ready.twin.ownGo = false ∧ ready.autoWarm = false ∧ (∀ q < 4, quadState q ready = 0) ∧ tableCauses (dev 6) = 0 := by decide
/-- Every quadrant is in state `k`. -/
def quads (k : Nat) (m : Mach) : Mach := quad 0 k (quad 1 k (quad 2 k (quad 3 k m)))
theorem witness_QuadrantRequestsAreHeldOrTaken : reach GCTL_QUAD_REQ (dev 3) = true ∧ (dev 3).trans = none ∧
    (dev 3).clk.mpllFailed = false ∧ (∀ q < 4, quadState q (dev 3) = 0 ∧ (getQ q (dev 3)).qpllFailed = false ∧ wfld 0x55#32 (2 * q) 2 ≤ 1) ∧
    timingOn (quads 2 (dev 5)) = true ∧ (∀ q < 4, quadState q (quads 2 (dev 5)) ≠ 0) ∧
    (getQ 0 (setQ 0 { phase := .drain } (quads 2 (dev 5)))).phase = .drain ∧ reach GCTL_LOOPBACK (quads 1 (dev 4)) = true ∧
    (∀ q < 4, quadState q (quads 1 (dev 4)) = 1 ∧ wfld 0x3333#32 (4 * q) 3 ≤ 3) ∧ wfld 0x1#32 0 3 ≠ 0 := by decide
theorem witness_VoltageRequestStaysInItsLimits : reach GCTL_AVS_CFG (dev 3) = true ∧ wfld 0x0100#32 8 8 = 1 ∧
    wfld 0x01000001#32 8 8 < wfld 0x01000001#32 0 8 ∧ wfld 0x01003010#32 0 8 ≤ wfld 0x01003010#32 8 8 ∧
    (0x01003010#32).getLsbD 24 = true ∧ 24 ≤ fget GCTL_AVS_STATUS.req_code (dev 3) ∧
    fget GCTL_AVS_STATUS.req_code (dev 3) ≤ 56 := by decide
theorem witness_SlackAndVoltageEventsAct : reach GCTL_SLACK_THR (dev 3) = true ∧
    (wfld 0x00010203#32 24 8 < wfld 0x00010203#32 16 8 ∧ wfld 0x00010203#32 16 8 < wfld 0x00010203#32 8 8 ∧
      wfld 0x00010203#32 8 8 < wfld 0x00010203#32 0 8) ∧ pipesOk (List.replicate 17 ⟨5, true⟩) = true ∧ timingOn (dev 5) = true ∧
    (dev 5).power = .coreRun ∧ monCompares (dev 5) = false ∧ monCompares (fset (MON_STATUS.cal_valid 0) 1 (dev 5)) = true ∧
    avsMatches (dev 5) = false := by decide
theorem witness_StoppedClocksFreezeBridges : domKey .ltx ∉ (dev 5).frozen ∧ domKey .ltx ∈ ({ dev 5 with frozen := [6] } : Mach).frozen := by
  decide
theorem witness_SlotBoundariesMoveTheGrid : timingOn (dev 1) = false ∧ timingOn (inSlot 0 (dev 3)) = true ∧
    lastSlot (inSlot 0 (dev 3)) = false ∧ lastSlot (inSlot 3 (dev 3)) = true ∧ (inSlot 3 (dev 3)).clk.fsPend = none ∧
    nextFrameTick (inSlot 3 (dev 3)) = 400000 := by decide
theorem witness_GridAlignsToSync : timingOn (dev 3) = true ∧ fget CLK_SYNC_CFG.sync_mode (fset CLK_SYNC_CFG.sync_mode 1 (dev 3)) = 1 ∧
    fget CLK_SYNC_CFG.sync_mode (dev 3) ≠ 1 ∧ (dev 3).clk.classB = none ∧
    tabGet (fun _ => []) (dev 3).img.deck (4 * 2 + 1 + 1) = [] ∧ inPlace 0 0 0 (dev 3) = true := by decide
theorem witness_PowerDownsAndSelfTestsEnd : (getQ 0 (setQ 0 { phase := .powerDown } (dev 5))).phase = .powerDown ∧
    (getQ 0 (setQ 0 { phase := .powerDown } (dev 5))).pend = none ∧ (dev 5).img.pause = false ∧ (dev 5).img.trialRun = false ∧
    fget IMG_STATUS.running_bank (dev 5) ≤ 1 ∧ trialBank (setBank 1 { state := 2 } (dev 5)) = some 1 ∧
    (∀ j < 4, (getSess j (dev 5)).held = []) := by decide
theorem witness_ConverterSamplesFillTheBridges : convOn (.path 5) (dev 5) = false ∧ convOn (.path 5) (quad 0 2 (dev 5)) = true ∧
    frozen (inDom (.rx 5)) { dev 5 with frozen := [1] } = true ∧ frozen (inDom (.rx 5)) (dev 5) = false ∧
    bridgeUnit (.rx 5) = some (.path 5) ∧ getIn (inKey (.rx 5)) (dev 5) = [] ∧
    8 ≤ (getRx 5 (setRx 5 { asm := List.replicate 8 sample0 } (dev 5))).asm.length ∧
    fon (QUAD_RX_OVL_CFG.ovl_en 5) (fset (QUAD_RX_OVL_CFG.ovl_en 5) 1 (dev 5)) = true ∧ (getRx 5 (setRx 5 { ovlCnt := 1, ovlN := 16384 } (dev 5))).ovlN % ovlWindow 5 (dev 5) = 0 := by decide
theorem witness_OutputBridgesReleaseAtTheAnchor : frozen 6 (dev 5) = false ∧ role (dev 5) ≠ 2 ∧
    (getOut (96 + 5) (setOut (96 + 5) { fifo := [⟨0, [out0], 0⟩] } (inSlot 0 (dev 5)))).fifo = [⟨0, [out0], 0⟩] ∧
    pastSlot 12000 (inSlot 0 (dev 5)) = false ∧ 60 * 0 + 480 ≤ firstDue [out0] 0 ∧ frozen 1 (dev 5) = false ∧
    quadState 0 (quad 0 2 (dev 5)) ≠ 0 ∧ inMask (fget CLK_STATUS.gated_q (dev 5)) 0 = false ∧
    ([(3, 17)].find? (fun e => e.1 == 3)) = some (3, 17) ∧ reach (anchorReg .ul) (dev 3) = true ∧
    anchorOk .ul 0 (dev 3) = true ∧ anchorOk .ul 1 (dev 3) = false ∧ timingOn (dev 1) = false ∧
    ulActive (.elem 5) (setStage BMU_CFG none (wr BMU_CFG 0x351#32 (quad 0 2 (dev 5)))) = true ∧
    ulFed (.elem 5) (quad 0 2 (dev 5)) = true ∧ ulQuiet (.elem 5) (fset GCTL_ANCHOR_UL.val 100 (quad 0 2 (dev 5))) = false := by decide
theorem witness_FrontEndRegistersTakeValidValues : reach (QUAD_RX_CTRL (.path 63)) (quad 3 2 (dev 5)) = true ∧ wfld 6#32 0 2 ≠ 3 ∧
    wfld 3#32 0 2 = 3 ∧ quadStopped 3 (quad 3 2 (dev 5)) = false ∧ quadStopped 3 (dev 5) = true ∧
    reach (QUAD_OBS_COUPLER 7) (dev 5) = true ∧ reach (factAddr (.obs 7) 41) (dev 5) = true ∧ reach (QUAD_TX_CFG 63) (dev 5) = true ∧
    24 < wfld 0x32#32 1 5 ∧ wfld 0x31#32 1 5 ≤ 24 ∧ reach (QUAD_TX_ATT 63) (dev 5) = true ∧ role (dev 5) ≠ 1 := by decide
theorem witness_ChainWritesAreTakenOrRefusedWhole : reach (QUAD_DDC_FTW_LO (.obs 7)) (dev 5) = true ∧
    reach (QUAD_DDC_CFG (.ddc 63)) (quad 3 2 (dev 5)) = true ∧ nstages (.ddc 63) (quad 3 2 (dev 5)) ≠ 8 ∧ quadState 3 (quad 3 1 (dev 5)) < 2 ∧
    quadStopped 3 (quad 3 1 (dev 5)) = false ∧ wfld 0x18#32 3 3 ∈ [3, 4, 5] ∧ (∀ k < 8, wfld 0x2#32 (3 * k) 3 ∉ [3, 4, 5]) := by decide
theorem witness_ReceiveCalibrationRunsAndEnds : reach (QUAD_RX_CAL_CMD 3) (quad 3 1 (dev 4)) = true ∧ quadState 3 (quad 3 1 (dev 4)) = 1 ∧
    fon (QUAD_RX_CAL_STATUS.busy 3) (quad 3 1 (dev 4)) = false ∧ (.path 48) ∈ unitsOf 3 ∧
    factCrc (.path 48) (dev 4) ≠ rd (QUAD_RX_FACT_CHK (.path 48)) (dev 4) ∧ wfld 0x5C1A0003#32 0 2 = 3 ∧
    unitCalsOk (List.replicate 18 ⟨0#5, List.replicate 40 1#32⟩) = true ∧
    (fset (QUAD_RX_CAL_STATUS.busy 3) 1 (fset (QUAD_RX_CAL_STATUS.restoring 3) 1 (dev 4))).power = .coreRun ∧
    fon (QUAD_RX_CAL_STATUS.restoring 3) (fset (QUAD_RX_CAL_STATUS.restoring 3) 1 (dev 4)) = true := by
  decide +kernel
theorem witness_SchedulesReachTheMesh : coreOn (inSlot 0 (dev 5)) = true ∧ role (dev 5) ≠ 1 ∧
    schedIgnored (schedKey sched0) .dl (inSlot 0 (dev 5)) = false ∧ slotLate (schedKey sched0) (inSlot 0 (dev 5)) = false ∧
    schedIgnored (0, 1) .ul (inSlot 0 (dev 5)) = true ∧ slotLate (0, 0) (inSlot 0 (dev 5)) = true ∧ sched0.dir = .dl ∧
    wantsLook sched0 desc0 (inSlot 0 (dev 5)) = true ∧ timingOn (dev 1) = false ∧
    (inSlot 0 (dev 5)).mesh.synDone ≠ some (nextSlotPos (inSlot 0 (dev 5))) ∧
    rxFailed 63 { dev 5 with nvm := { State.reset.m.nvm with remap := { rxFailed := [63] } } } = true ∧ exclUl 63 (wr BMU_EXCL_UL_HI 0#32 (dev 5)) = false ∧
    reach BMU_CFG (dev 5) = true ∧ bmuCfgOk 0x003#32 (dev 5) = false ∧ bmuCfgOk 0x350#32 (dev 5) = true := by decide
theorem witness_AcquisitionSlotsAreReported : acqRuns (dev 5) = false ∧ acqRuns (wr ACQ_CFG 1#32 (inSlot 1 (dev 5))) = true ∧
    acqOk (dev 5) = false ∧ jobReady job0 (dev 5) = true ∧ mgmtHeld (dev 5) = false ∧ sessBound 0 (peer (dev 5)) = true := by decide
/-- An ACTIVE device with session 0, a deck, and an entry at place 3. -/
def withDir : Mach := { peer (deck (dev 5)) with dir := { ent := [(3, some entry0)] } }
theorem witness_dirReady : dirReady 0 withDir := by
  refine ⟨?_, ?_, ?_, ?_, ?_, ?_, ?_, ?_, ?_, ?_, fun p => rfl⟩ <;> decide
theorem witness_DirectoryOperationsAnswer : dirFind 7#48 withDir = some 3 ∧ dirAt 3 withDir = some entry0 ∧
    maskFields 1#8 fields0 entry0 ≠ entry0 ∧ entry0.lastSeen ≠ BitVec.ofNat 40 (tick withDir / 2 ^ 24) ∧ entry0.pinned = false ∧
    dirFind 8#48 withDir = none ∧ atQuota withDir = false ∧
    (freePlace (if freeCount (dirBuckets 8#48 withDir).1 withDir < freeCount (dirBuckets 8#48 withDir).2 withDir
      then (dirBuckets 8#48 withDir).2 else (dirBuckets 8#48 withDir).1) withDir).isSome = true ∧
    findDet 5#32 withDir = none := by decide
theorem witness_DirectoryUpkeep : fon IMG_STATUS.migrating withDir = false ∧ reach DIR_SNAP_CMD withDir = true ∧
    fget DIR_SNAP_CFG.period (fset DIR_SNAP_CFG.period 1 withDir) ≠ 0 ∧ snapOk withDir = true ∧ restoreOk withDir = false ∧
    fget DIR_SNAP_STATUS.state (fset DIR_SNAP_STATUS.state 1 withDir) = 1 ∧ withDir.dir.held = [] ∧ dirOn withDir = true ∧
    partQuota 0 (fset (RES_PART_QUOTA.quota 0) 0 withDir) < 64 * withDir.dir.ent.length ∧
    oldest (withDir.dir.ent.map Prod.fst) withDir = some 3 ∧ reach DIR_CFG withDir = true ∧ role (withRole 2 withDir) = 2 ∧
    fon DIR_STATUS.restoring (fset DIR_STATUS.restoring 1 withDir) = true := by decide

/-- Frame slots with downlink for every quadrant in the slot to come. -/
def ahead : Mach := { quads 2 (dev 5) with ftab := slots4, slot := 3, slotStart := 300000, tod := 690000 }
theorem witness_FrontEndSequencersFollowEvents :
    ((leadSlots (getFes 2 ahead).lead ahead).find? (fun n => decide ((getFes 2 ahead).evDone < n.2.1))).isSome = true ∧
    timingOn ahead = true ∧ ahead.cal.trick = none ∧ slotEvent ⟨0, 0, 15, 0, 0⟩ 2 = 5 ∧ slotEvent ⟨0, 1, 0, 15, 0⟩ 2 = 6 ∧
    slotEvent ⟨0, 2, 0, 15, 0⟩ 2 = 7 ∧ slotEvent ⟨0, 3, 0, 0, 15⟩ 2 = 8 ∧
    (getFes 2 (setFes 2 { timer := some 9, acts := [⟨9, 1, 2, 0, 3⟩], fcb := [(3, 9)] } ahead)).timer = some 9 ∧
    reach (QUAD_FES_SW 3) ahead = true ∧ firstAct (getFes 2 ahead).acts = none ∧ firstAct [⟨9, 1, 2, 0, 3⟩] = some ⟨9, 1, 2, 0, 3⟩ ∧
    allSafe 2 (fset (QUAD_FES_CTRL.seq_en 2) 1 ahead) = false ∧ quadState 2 ahead = 2 ∧
    ((leadSlots (getFes 2 ahead).lead ahead).find? (fun n => decide (0 < n.2.1) && slotTx n.1 2)) = some (⟨0, 0, 15, 0, 0⟩, 400000, 500000) ∧
    burstReady 2 400000 (fset CLK_STATUS.mpll 3 (fset (CLK_STATUS.qpll_q 2) 2 ahead)) = true ∧ burstReady 2 400000 ahead = false := by decide
def cap0 : PdCap := ⟨17, 100000, 4, 0, [], [], false, false, 0, 160, [], []⟩
/-- A burst of quadrant 1 runs on an ACTIVE device with a quota of CAP. -/
def bursting : Mach := part 2 (fset (RES_PART_QUOTA.quota 2) 100 (fset CLK_STATUS.mpll 3 (inSlot 0 (quads 2 (dev 5)))))
theorem witness_PredistortionBanksAdapt : reach (QUAD_PD_LUT_DATA 63) (dev 5) = true ∧
    fget (QUAD_PD_LUT_ADDR.idx 63) (fset (QUAD_PD_LUT_ADDR.idx 63) 2179 (dev 5)) = 2179 ∧
    fget (QUAD_PD_LUT_ADDR.idx 63) (fset (QUAD_PD_LUT_ADDR.idx 63) 2180 (dev 5)) = 2180 ∧ role (dev 5) ≠ 1 ∧
    fon (QUAD_PD_CTRL.adapt_en 63) (dev 5) = false ∧ fon (QUAD_PD_LUT_ADDR.bank_rd 63) (dev 5) = false ∧ swapPending 63 (dev 5) = false ∧
    burstNow 1 (dev 5) = false ∧ burstNow 1 bursting = true ∧ tick bursting ≤ bursting.slotStart + fget (QUAD_PD_CAP_CFG.cap_off 1) bursting ∧
    getPdCap 3 bursting = none ∧
    bursting.slotStart + fget (QUAD_PD_CAP_CFG.cap_off 1) bursting + capTicks 1 bursting ≤ (nextSlot bursting).2 ∧
    capQuota (pdCapBytes 1 bursting) bursting = true ∧ capQuota (pdCapBytes 1 (dev 5)) (dev 5) = false ∧
    getPdCap 3 (setPdCap 3 (some cap0) bursting) = some cap0 ∧ cap0.done = false ∧ cap0.path < 64 ∧
    getPdCap 3 (setPdCap 3 (some { cap0 with done := true }) bursting) = some { cap0 with done := true } := by decide
theorem witness_fit : fitOk (List.replicate 2176 0#32) = true := by decide +kernel
/-- A gap for all quadrants comes after a token of downlink; all quadrants are RUNNING. -/
def gapNext : Mach := { quads 2 (dev 5) with ftab := slots4, slot := 1, slotStart := 100000, tod := 200000 }
def trick0 : Trick := ⟨0, 0, [0], none, none, 200000, 512, [], [2, 2, 2, 2], []⟩
def calIn (x : CalSt) : Mach := { gapNext with cal := x }
theorem witness_CalibrationTricksMeasureAndPublish : reach CAL_REF_FREQ (dev 3) = true ∧ reach CAL_REF_CFG (dev 3) = true ∧
    tonesOk 0#32 0#32 (dev 3) = false ∧ (dev 1).power = .coreRun ∧ State.reset.m.power ≠ .coreRun ∧ getUnc 0 0 (dev 1) = none ∧
    timingOn (dev 1) = false ∧ timingOn gapNext = true ∧ (gapAhead gapNext).isSome = true ∧ gapNext.cal.trick = none ∧ gapNext.cal.est = none ∧
    (calIn { trick := some trick0 }).cal.trick = some trick0 ∧ trick0.unit = none ∧ trick0.paths ≠ [] ∧
    accepts trick0 0#64 0 (calIn { trick := some trick0 }) = true ∧ (calIn { est := some trick0 }).cal.est = some trick0 ∧
    (0 : Nat) ∈ ({ trick0 with ok := [0] } : Trick).ok ∧ getUnc 0 0 gapNext = none ∧
    quadState 2 gapNext ≠ 3 ∧ quadState 2 (quad 2 3 gapNext) = 3 ∧ (getDed 2 (setDed 2 { run := true } (quad 2 3 gapNext))).run = true ∧
    dedBarred (dedDue 2 (quad 2 3 (dev 5))).1 32 (fset CAL_STATUS.ref_ok 1 (setDed 2 { run := true } (quad 2 3 (dev 5)))) = false ∧
    dedPaused 2 (setDed 2 { run := true } (quad 2 3 (dev 5))) = false ∧
    fon CAL_CTRL.store_en (fset CAL_CTRL.store_en 1 (calIn { storeDue := true })) = true ∧ fon IMG_STATUS.migrating gapNext = false ∧
    recOk 1 gapNext = true ∧ nandOut gapNext = false := by decide
theorem witness_ClockWritesAreTakenOrRefused : [CLK_SEED, CLK_REF_CFG, CLK_SYNC_CFG, CLK_STEER, CLK_PLAN_CMD, CLK_TOD_LO].all (fun a =>
      reach a (dev 5)) = true ∧ anyCoast (dev 5) = false ∧ anyCoast (fset CLK_STATUS.mpll 4 (dev 5)) = true ∧ role (dev 5) ≠ 1 ∧
    wfld 0x9C270001#32 16 16 = 0x9C27 ∧ timingOn (dev 5) = true ∧
    fon GCTL_DEV_STATE.deck_loaded (deck (dev 5)) = true ∧ (6 : Nat).testBit 2 = true ∧ fget CLK_STATUS.plan (dev 5) = 0 ∧
    fon CLK_STATUS.classb (dev 5) = false ∧ fget CLK_STATUS.mpll (fset CLK_STATUS.mpll 3 (dev 5)) = 3 ∧
    fget CLK_SYNC_CFG.sync_mode (fset CLK_SYNC_CFG.sync_mode 2 (dev 5)) = 2 ∧ (dev 5).clk.fsPend = none ∧ 0 < (inSlot 0 (dev 5)).ftab.len ∧
    0 + fget CLK_SYNC_CFG.sync_dly (inSlot 0 (dev 5)) = (inSlot 0 (dev 5)).frameStart * adcPerTick (inSlot 0 (dev 5)) + 0 := by decide
theorem witness_LoopsLockCoastAndRecover : coreOn (fset CLK_STATUS.mpll 3 (dev 5)) = true ∧
    fget CLK_STATUS.mpll (fset CLK_STATUS.mpll 4 (dev 5)) = 4 ∧ limitDue 0 0 (dev 5) = false ∧
    limitDue 0 (nextSlot { fset CLK_STATUS.mpll 4 (dev 5) with ftab := ⟨false, 40000000, [⟨0, 1, 0, 15, 0⟩]⟩ }).2
      { fset CLK_STATUS.mpll 4 (dev 5) with ftab := ⟨false, 40000000, [⟨0, 1, 0, 15, 0⟩]⟩ } = true ∧
    fget (CLK_STATUS.qpll_q 3) (fset (CLK_STATUS.qpll_q 3) 3 (dev 5)) = 3 ∧ (dev 5).clk.lockSlot < 16 ∧ lockPlan (dev 5) < 2 ∧
    slotMatches 15 (fset (CLK_SEARCH_SLOT.valid 15) 1 (dev 5)) = true ∧ (dev 5).clk.mpllFailed = false ∧
    (getQ 1 (setQ 1 { phase := .qpllLock } (dev 5))).phase = .qpllLock ∧ (getQ 1 (dev 5)).phase ≠ .qpllLock ∧
    fon CLK_STATUS.classb (dev 5) = false ∧ limitGated 1 (dev 5) = false ∧
    ({ dev 5 with clk := { mpllFailed := true, classB := some ⟨1, true, 15, 0, true⟩ } } : Mach).clk.classB = some ⟨1, true, 15, 0, true⟩ ∧
    (∀ q < 4, fget (CLK_STATUS.qpll_q q) (dev 5) = 0) := by decide
def runs (x : Tile) (c : Instr) : Tile := { x with state := 1, serving := true, pc := 3, prog := [(3, BitVec.ofNat 32 (tileCode c))] }
/-- The instruction stands at the PC of the running tile 0. -/
def stands (x : Tile) (c : Instr) : Bool :=
  let m := withTile (runs x c)
  decide ((getTile 0 m).wordAtPc = tileCode c ∧ (getTile 0 m).state = 1 ∧ (getTile 0 m).paused = false ∧ (getTile 0 m).owner = 0)
theorem witness_TileControlFlow : ([.nop 0, .halt 0, .jmp 0 0xFFF, .jz 0 15 9, .jnz 0 15 9, .call 0 9, .ret 0, .loop 0 0x3FFF 9,
      .loops 0 15 9, .waitslot 0, .signal 0 255] : List Instr).all (stands {}) = true ∧
    (getTile 143 (dev 5)).state ≠ 1 ∧ wordLegal (getTile 0 (withTile (running (.nop 0)))).wordAtPc = true ∧
    wordLegal (getTile 0 (withTile { running (.nop 0) with prog := [(3, 0xFFFFFFFF#32)] })).wordAtPc = false ∧
    ({ call := [1, 2, 3, 4, 5, 6, 7, 8] } : Tile).call.length = 8 ∧ ({ loops := [(0, 3, 2), (0, 5, 1)] } : Tile).loops ≠ [] ∧
    (getTile 0 (withTile { state := 2, stall := some .slot })).stall = some .slot := by decide
theorem witness_TileScalarsAndBuffers : ([.ldi 0 15 0xFFFF, .ldih 0 15 0xFFFF, .alu 0 15 14 13 9, .alu 0 1 2 3 0xA, .addi 0 15 14 0xFFF,
      .rdsp 0 15 7, .rdsp 0 1 8, .wrsp 0 15 7, .wrsp 0 1 8, .setsh 0 31 31, .cbset 0 7 3 15, .ldw 0 7 15, .stw 0 7 15, .vld 0 7 7,
      .vst 0 7 7] : List Instr).all (stands {}) = true ∧
    offOk (({} : Tile).buf 7).prep 4 ∧ (({} : Tile).buf 7).prep.elem 0 4 = 0 ∧ ¬ offOk ({ len := 8, off := 1 } : CBuf) 4 ∧
    bufOk (({} : Tile).buf 7).prep 8 [0, 1, 2, 3] := by unfold bufOk offOk; decide
theorem witness_TileLanesAccumulateMoveAndSearch : ([.clr 0 255, .mac 0 7 7 255, .cmac 0 7 7 true 15, .accw 0 7 true 255,
      .ldacc 0 7 true 255, .red 0 255, .cred 0 15, .movs 0 7 15, .movw 0 7 true 255, .sclr 0 true, .sacc 0 255,
      .smem 0 7 true 255] : List Instr).all (stands {}) = true ∧ bufOk (({} : Tile).buf 7).prep 4 [0, 1, 2, 3, 4, 5, 6, 7] ∧
    addrFault ((({} : Tile).setBuf 7 { base := 65528, stride := 8 }).buf 7 |>.prep.elem 1 8) 8 ≠ 0 := by unfold bufOk offOk; decide
def xferTile : Tile := { sc := [(1, 0x40000000#32), (2, 32#32)], grant := [0], ports := [(0, (2, 1, 0)), (2, (3, 0, 0))] }
theorem witness_TilePortsAndTransfers : ([.vin 0 7 1, .movo 0 1 15, .xfer 0 7 1 2 true, .waitx 0] : List Instr).all (stands {}) = true ∧
    (portOf 0 0 (dev 5)).1 = 0 ∧ (portOf 0 0 (withTile (runs xferTile (.vin 0 7 0)))).1 ≠ 0 ∧
    noFeeder 0 0 (withTile (runs xferTile (.vin 0 7 0))) ∧ (portOf 0 2 (withTile (runs xferTile (.movo 0 0 15)))).1 ∉ [0, 2, 5, 6] ∧
    4 ≤ (({ in0 := List.replicate 4 sample0 } : Tile).inq 0).length ∧
    (xferTile.s 2).toNat % 32 = 0 ∧ inPart 0 (xferTile.s 1).toNat 32 (part 0 (dev 5)) = true ∧
    (xferUnits 1 (xferTile.buf 0).prep).1.flatten.all (fun e => decide (e < 65536 ∧ e % 8 = 0)) = true ∧
    ({ xferTile with xfers := [⟨true, 0x40000000, [0, 8, 16, 24]⟩], state := 2, stall := some (.xfer 0 1 2 true) } : Tile).xfers ≠ [] ∧
    poisoned 0x40000000 { dev 5 with poison := [(0x8000000, false)] } = false := by unfold noFeeder; decide
theorem witness_TileHostAccessAndSpares : reach (tileBase 0) (dev 5) = true ∧ reach (tileBase 0) (dev 7) = false ∧
    (getTile 0 (withTile { serving := true })).yours = true ∧ (getTile 0 (withTile { owner := 1, serving := true })).yours = false ∧
    (getTile 0 (withTile { haltReq := true, state := 1 })).haltReq = true ∧ stands {} (.ckpt 0) = true ∧
    spareTile 0 (dev 5) ≠ none ∧ isPlanned 2 0 { dev 5 with hlt := { running := some ⟨2, 0, 0, 0⟩ } } = true ∧
    (getTile 0 (withTile { serving := true, discard := true })).discard = true := by decide
theorem witness_noSpareTile : spareTile 3 { dev 5 with nvm := { State.reset.m.nvm with remap := { retired :=
    ((List.range 36).map fun i => (2, 108 + i)) } } } = none := by decide +kernel
def planning (r : KittyRes) : Mach := { dev 5 with hlt := { running := some r } }
theorem witness_SparesTakeOver : slicePlanned (.path 63) (dev 5) = none ∧ slicePlanned (.path 63) (planning ⟨0, 63, 2, 0⟩) = some 2 ∧
    posOfSlice (.path 63) 2 (dev 5) = some 2 ∧ hasSpareSlice (.path 63) (dev 5) = true ∧ quadState 3 (dev 5) ≠ 2 ∧
    colFree true (dev 5) = true ∧ colPlan false { dev 5 with mesh := { colPlanUl := some ⟨31, false, true⟩ } } = some ⟨31, false, true⟩ ∧
    31 ∉ colsDown false (dev 5) ∧ isPlanned 3 16 (planning ⟨3, 0, 16, 0⟩) = true ∧ 0 < poolLeft 3 3 (dev 5) ∧ spareAwaited 3 (dev 5) = none ∧
    (getPd 63 (dev 5)).lost = false ∧ (getPd 63 (dev 5)).dead = false ∧ spareAwaited 3 (setPd 63 { dead := true } (dev 5)) = some 63 ∧
    serdesPlanned true 7 (planning ⟨7, serdesPool true, 7, 0⟩) = true ∧ serdesFree true (dev 5) = true ∧
    serdesFree false { dev 5 with nvm := { State.reset.m.nvm with remap := { serdesRx := some 3 } } } = false ∧
    (dev 5).nvm.remap.mirLane = none ∧ 0 < poolLeft 8 0 (dev 5) ∧ coreOn (dev 5) = true ∧ 0 < poolLeft 9 0 (dev 5) ∧
    0 < poolLeft 5 (physBank 63 (dev 5)) (dev 5) ∧ spareBank (dev 5) = some 64 ∧
    isPlanned 6 (physBank 63 (dev 5)) (planning ⟨6, 0, physBank 63 (dev 5), 0⟩) = true := by decide
/-- Set 7 of captures is armed for snapshots of one path. -/
def armed (k : Nat) : Mach := fset (RES_CAP_STATUS.state 7) k (dev 5)
theorem witness_ReservoirAccessesAndCaptures : coreOn State.reset.m = false ∧ coreOn (dev 5) = true ∧ poisoned 0x40000000 { dev 5 with poison := [(0x8000000, false)] } = false ∧
    reach 0x40000000 (dev 5) = true ∧ resMapped 0x40000000 = true ∧ resMapped 0x44000000 = false ∧
    partOf 0x4000FFFC (part 7 (dev 5)) = some 7 ∧ partOf 0x40000000 (part 3 (dev 5)) = some 3 ∧
    reach (RES_PART_QUOTA 2) (deck (dev 5)) = true ∧ deckLoaded (deck (dev 5)) = true ∧ 1 ≤ fget (RES_PART_SIZE.size 0) (deck (dev 5)) ∧
    reach (RES_CAP_CMD 7) (dev 5) = true ∧ capState 7 (armed 1) = 1 ∧ capState 7 (armed 2) = 2 ∧ capState 7 (armed 3) = 3 ∧
    armRefusal 7 (dev 5) = some RES_EVENTS.cap_err ∧ trigDue 7 (armed 1) = true ∧ (getCap 7 (armed 2)).stopping = 0 ∧
    reach (RES_CAP_LEN 7) (dev 5) = true ∧ reach (capRegAddr 7 .ctrl) (dev 5) = true := by decide
def dma0 : DmaDesc := ⟨0#32, 32, 0x40000000, 0x40000100, 0, 32, 0⟩
def chanIn (k : Nat) (x : DmaCh) (m : Mach) : Mach := fset (DMA_CH_STATUS.state 31) k (setDma 31 x m)
theorem witness_DmaChannelsRunTheirChains : reach (DMA_CH_CMD 31) (dev 7) = false ∧ reach (DMA_CH_CMD 31) (dev 5) = true ∧
    dmaState 31 (dev 5) = 0 ∧ dmaState 31 (chanIn 4 {} (dev 5)) = 4 ∧
    fget (DMA_CH_STATUS.status 31) (fset (DMA_CH_STATUS.status 31) 3 (chanIn 4 {} (dev 5))) = 3 ∧ reach (DMA_CH_HEAD 31) (dev 5) = true ∧
    reach (DMA_CH_CFG 31) (dev 5) = true ∧ (getDma 31 (chanIn 2 { aborting := true } (dev 5))).aborting = true ∧
    (getDma 31 (chanIn 1 { needFetch := true } (dev 5))).needFetch = true ∧
    inPart 7 0x40000000 32 (part 7 (dev 5)) = true ∧ (getDma 31 (chanIn 2 { desc := some dma0 } (dev 5))).desc = some dma0 ∧
    dType dma0 = 0 ∧ dSmode dma0 = 0 ∧ dDmode dma0 = 0 ∧ isRes dma0.src = true ∧ isRes dma0.dst = true ∧
    burstOk 31 dma0 (chanIn 2 { desc := some dma0 } (part 7 (dev 5))) = true ∧ reach DMA_FENCE (dev 5) = true ∧
    reach DMA_FENCE (dev 7) = false ∧ (∀ k < 32, upWaits k (dev 5) = false ∧ (getDma k (dev 5)).pendW = []) := by decide
def ptp0 : PtpMsg := ⟨true, 0#4, 0#16, []⟩
def up (i : Nat) (m : Mach) : Mach := fset (EPL_PORT_STATUS.state i) 2 (fset EPL_STATUS.bonded (2 ^ i) m)
def native0 : NativeHdr := ⟨1#8, 0#8, 0#16, 0#32⟩
theorem witness_PortsTrainBondFailAndKeepTime : portState 3 (fset (EPL_PORT_STATUS.state 3) 1 (dev 5)) = 1 ∧
    portState 3 (fset (EPL_PORT_STATUS.state 3) 2 (dev 5)) = 2 ∧ bonded 3 (dev 5) = false ∧ atBoundary (dev 5) = true ∧
    atBoundary { dev 5 with tod := 2 } = false ∧ portDead 3 (dev 5) = false ∧ fwRuns (dev 5) = true ∧
    fon (EPL_PORT_CTRL.en 3) (fset (EPL_PORT_CTRL.en 3) 1 (dev 5)) = true ∧ reach (EPL_PORT_CTRL 3) (dev 5) = true ∧
    bondedIn 15 (up 3 (dev 5)) = [3] ∧ bondedIn 15 (dev 5) ≠ [3] ∧ (∀ i < 4, portState i (dev 5) ≠ 2) ∧ role (withRole 1 (dev 5)) = 1 ∧
    64 ≤ mtu (dev 5) ∧ sessBound 0 (up 0 (peer (dev 5))) = true ∧ sessPort 0 (up 0 (peer (dev 5))) = true ∧
    sessMac 0 (peer (dev 5)) = 1#48 ∧ (dev 5).power = .coreRun ∧ mgmtHeld (dev 5) = false ∧
    fon EPL_PPS_CFG.pps_en (fset EPL_PPS_CFG.pps_en 1 (dev 5)) = true ∧ mpllLocked (fset CLK_STATUS.mpll 3 (dev 5)) = true ∧
    ({ peer (dev 5) with evtPend := true } : Mach).evtPend = true ∧ anyBonded (peer (dev 5)) = true ∧
    ({ dev 5 with clk := { ppsLast := some 0 } } : Mach).clk.ppsLast = some 0 := by decide
/-- The deck's format entries: 16 mantissa bits, one block, every port. -/
def withFormats (m : Mach) : Mach := { m with img := { m.img with deck := [(24, List.replicate 680 0x10#8)] } }
def pos0 : StreamPos := ⟨0, 0, 0, 0⟩
def iq0 : IqMsg := ⟨0x2000#16, 0x80#16, 0#24, 16#8, 0#24, 0#8, [⟨0#8, List.replicate 24 0⟩]⟩
theorem witness_StreamsPoolAndUploadsCross : (getUlTx (ulKey (.elem 5)) (dev 5)).q = [] ∧
    (getUlTx (ulKey (.elem 5)) (setUlTx (ulKey (.elem 5)) { q := List.replicate 12 (sample0, pos0) } (dev 5))).q ≠ [] ∧
    (dev 5).ulShed.contains 0 = false ∧ bondedIn 15 (peer (dev 5)) = [0] ∧ bondedIn 15 (dev 5) = [] ∧
    iqOk iq0 = true ∧ iqOk { iq0 with blocks := [⟨0#8, [1]⟩] } = false ∧ bonded 0 (peer (dev 5)) = true ∧ bonded 3 (peer (dev 5)) = false ∧
    dlOfPc 0x2000 = some 0 ∧ dlOfPc 0x0 = none ∧ frameBefore 1 0 = false ∧ timingOn (dev 1) = false ∧ vectorsOk [[]] = false ∧
    vectorsOk [List.replicate 64 0#32] = true ∧ role (dev 5) = 0 ∧ role (withRole 2 (dev 5)) = 2 ∧
    poolFits 0 (fset (RES_PART_QUOTA.quota 1) 1 (dev 5)) = true ∧ poolFits 0 (dev 5) = false ∧
    sessBound 3 (dev 5) = false ∧ (getUp 3 (setUp 3 { units := [(0, [0#8])] } (dev 5))).units ≠ [] := by decide
theorem witness_streamFormat : dlIdx 0 (withFormats (dev 5)) < 64 ∧ fmtOk (fmtEntry (dlIdx 0 (withFormats (dev 5))) (withFormats (dev 5))) = true ∧
    (readBlock (fmtEntry 16 (withFormats (dev 5))) ⟨0#8, List.replicate 24 0⟩).2 = false := by decide +kernel
def monIn (q : Nat) (x : MonSt) (m : Mach) : Mach := { m with mon := tabPut (fun _ => {}) m.mon q x }
theorem witness_MonitorConvertersSensorsAndLehr : reach (MON_CMD 3) (dev 7) = false ∧ reach (MON_CMD 3) (dev 5) = true ∧
    fon (MON_CTRL.trig_src 3) (dev 5) = false ∧ fon (MON_CTRL.trig_src 3) (fset (MON_CTRL.trig_src 3) 1 (dev 5)) = true ∧
    fon (MON_STATUS.cal_busy 3) (dev 5) = false ∧ fon (MON_STATUS.busy 3) (fset (MON_STATUS.busy 3) 1 (dev 5)) = true ∧
    (getMon 3 (monIn 3 { ents := [0#32], fifo := List.replicate 2 0#32 } (dev 5))).ents = [0#32] ∧ [(0, 0)].length = 2 ^ wfld 0#32 11 2 ∧
    (0x100#32).getLsbD 8 = true ∧ reach (MON_FIFO 3) (dev 5) = true ∧ reach (MON_DATA 3 31) (dev 5) = true ∧ reach MON_TRIG_CMD (dev 5) = true ∧
    fget MON_TRIG_CFG.src (dev 5) = 0 ∧ fget MON_TRIG_CFG.src (fset MON_TRIG_CFG.src 3 (dev 5)) = 3 ∧ (dev 5).monTick = none ∧
    groupsOk [] = false ∧ (dev 5).power ≠ .off ∧ reach MON_THR (dev 5) = true ∧ timingOn (dev 5) = true ∧
    (thresholds (dev 5)).all (fun t => decide ((validOf 35 0 (dev 5)).1 < t) && (List.range 36).all fun j => !allAbove t j (dev 5)) = true ∧
    fon MON_THERM_STATUS.engaged (fset MON_THERM_STATUS.engaged 1 (dev 5)) = true ∧
    fon MON_LEHR_CFG.lehr_en (fset MON_LEHR_CFG.lehr_en 1 (dev 5)) = true := by decide
def res10 : KittyRes := ⟨10, 0, 5, 0xFFFF⟩
theorem witness_HealthRetiresAndTokensPass : (5 : Nat) ∉ (dev 5).nvm.remap.nandBad ∧ (dev 5).nvm.remap.nandBad.length < 1024 ∧
    coreOn (dev 5) = true ∧ (0 : Nat) < poolCount 10 ∧ isRetired res10 (dev 5) = false ∧ isWorn res10 (dev 5) = false ∧
    fon (HLT_RETIRE.en 10) (fset (HLT_RETIRE.en 10) 1 (dev 5)) = true ∧
    fget (HLT_RETIRE.threshold 10) (fset (HLT_RETIRE.threshold 10) 1 (dev 5)) ≤ 1 ∧ fon HLT_TEST_CFG.test_en (fset HLT_TEST_CFG.test_en 0 (dev 5)) = false ∧
    fon HLT_TEST_CFG.test_en (fset HLT_TEST_CFG.test_en 1 (dev 5)) = true ∧ 0 < poolLeft 9 0 (dev 5) ∧ 0 < poolLeft 2 3 (dev 5) ∧
    hasToken (dev 5) = false ∧ hasToken (fset HLT_TWIN_STATUS.token 1 (dev 5)) = true ∧
    ({ dev 5 with twin := { taking := true, driving := true, takeover := some 1 } } : Mach).twin.takeover ≠ none := by decide
theorem witness_TwinsMirrorAndTakeOver : reach HLT_TWIN_CFG (dev 3) = true ∧ roleOpen (dev 3) = true ∧ roleOpen (dev 5) = false ∧
    mirrorOn (dev 4) = true ∧ mirrorOn (dev 3) = false ∧ laneMask (dev 4) ≠ 0 ∧
    laneMask { dev 4 with nvm := { State.reset.m.nvm with remap := { wornRes := [(8, 0), (8, 1)] } } } = 0 ∧
    paired beat0 (withRole 2 (dev 4)) = true ∧ fon HLT_TWIN_STATUS.partner_seen (fset HLT_TWIN_STATUS.partner_seen 1 (dev 4)) = true ∧
    role (withRole 2 (dev 4)) = 2 ∧ fon HLT_TWIN_CFG.auto_hb (fset HLT_TWIN_CFG.auto_hb 1 (dev 4)) = true ∧ deckMis (dev 4) = false ∧
    reach HLT_TWIN_CMD (dev 4) = true ∧ fon HLT_TWIN_STATUS.twin_ready (refreshReady (dev 4)) = false ∧ timingOn (dev 4) = true ∧
    (dev 4).twin.release = none ∧ fget HLT_TWIN_STATUS.phase (fset HLT_TWIN_STATUS.phase 2 (dev 4)) = 2 ∧ activeOk ready = true ∧
    (dev 4).twin.acks = [] ∧ (dev 4).twin.copyTo = none ∧ mirOk (.quadReq 0#32) = true ∧ mirOk (.poolVec 0#16 []) = false ∧
    mirClass (.pdSwap 0 0#64) = 5 ∧ mirClass (.quadReq 0#32) ≠ 5 ∧ tabGet (fun _ => 0) (dev 4).twin.mirGot 5 = 0 ∧
    fon DIR_MIRROR_STATUS.resync (fset DIR_MIRROR_STATUS.resync 1 (dev 4)) = true ∧
    mirUp (fset HLT_MIR_STATUS.lanes_up 2 (dev 4)) = true ∧ mirUp (dev 4) = false := by decide
def loading (t : Nat) (l : List Byte) (k s : Nat) : Mach :=
  fset IMG_STATUS.lock_src k (fset IMG_STATUS.lock_sess s { dev 3 with img := { sess := some ⟨t, l⟩ } })
theorem witness_ImageSessionsCarryAndCommit : reach IMG_CMD (dev 7) = false ∧ reach IMG_CMD (dev 3) = true ∧ reach IMG_SPI_DATA (dev 3) = true ∧
    fget IMG_STATUS.lock_src (dev 3) = 0 ∧ holds (1, 0) (loading 0 [] 1 0) = true ∧ holds (2, 3) (loading 2 [] 2 3) = true ∧
    holds (1, 0) (dev 3) = false ∧ (staticErr 0 [] (dev 3) <|> spaceErr 0 []).isSome = true ∧ devState (dev 2) = 2 ∧
    (dev 3).power = .coreRun ∧ mgmtHeld (dev 3) = false ∧ sessBound 0 (peer (dev 3)) = true ∧ sessPort 0 (peer (dev 3)) = true ∧
    0 ≤ mtu (dev 3) - 64 := by decide
theorem witness_ImagesReachBanksTwinsAndRecords : reach IMG_CMD (dev 3) = true ∧ trialBank (dev 3) = none ∧
    trialBank (setBank 1 { state := 2 } (dev 3)) = some 1 ∧ handoverOk (dev 3) = false ∧ handoverOk (setBank 1 { state := 2 } (dev 3)) = true ∧
    role (withRole 1 (dev 4)) = 1 ∧ timingOn (dev 4) = true ∧ laneMask (dev 4) ≠ 0 ∧ getSlot (dev 4).nvm.cur (dev 4) = none ∧
    holds (3, 0) (loading 0 [] 3 0) = true ∧ (loading 0 [] 3 0).img.sess = some ⟨0, []⟩ ∧
    reshDue 0 { dev 4 with img := { resh := some ⟨[], false, 0⟩ } } = true ∧ (dev 4).hlt.waiting = [] ∧
    (dev 4).img.fwWrite = none ∧
    fon IMG_STATUS.migrating (fset IMG_STATUS.migrating 1 (dev 4)) = true := by decide

/-- A reshuffle image of one section: the demand of every pipeline is 0 (R471, R472). -/
def reshImage : List Byte :=
  let sect := List.replicate 17 0#8
  let head := leBytes 4 0x4B444C52 ++ leBytes 2 1 ++ [1#8, 0#8] ++ leBytes 8 0 ++ leBytes 4 145 ++ leBytes 4 1 ++ [1#8] ++
    List.replicate 35 0#8
  let dir := leBytes 2 15 ++ leBytes 2 0 ++ leBytes 4 128 ++ leBytes 4 17 ++ leBytes 4 (crc32 sect).toNat
  head ++ leBytes 4 (crc32 head).toNat ++ dir ++ List.replicate 48 0#8 ++ sect
theorem witness_reshuffleImage : staticErr 1 reshImage (dev 3) = none ∧ spaceErr 1 reshImage = none ∧
    reshState reshImage (dev 4) = none := by decide +kernel

end Sys2Proof.Tests
end

/-! SUPPORT. What a host access of the register map leaves, for registers without rules of their own and for addresses without a
register, with the statements on them that it settles (R14 to R24, R495, R496). -/

namespace Sys2Proof.Machine

/-! ### Reset -/

/-- Settles O7: each value is read off the reset state. -/
theorem resetLeavesTheStatedValues : Obligations.ResetLeavesTheStatedValues := by
  unfold Obligations.ResetLeavesTheStatedValues
  refine ⟨by decide, by decide, by decide, by decide, by decide, by decide, by decide, by decide, fun a => ?_, fun k => ?_, rfl, rfl⟩
  · exact tabGet_nil _ a
  · exact tabGet_nil _ k

/-! ### What a path lets through -/

/-- The device that a command leaves is one. -/
theorem next_withM_inj {s : State} {m u : Mach}
    (h : (.next (s.withM m) : Host.Outcome State Fault Refusal) = .next (s.withM u)) : m = u :=
  congrArg State.m (Host.Outcome.next.inj h)

theorem exec_registerWrite (p : AccPath) (a n : Nat) (v : W) (s : State) :
    exec (.registerWrite p a n v) s = .next (s.withM (registerWrite p a n v s.m)) := rfl

theorem exec_unmappedAccess (p : AccPath) (a : Nat) (w : Bool) (s : State) :
    exec (.unmappedAccess p a w) s = .next (s.withM (unmappedAccess p a w s.m)) := rfl

theorem hostWrite_open {p : AccPath} {a : Nat} {m : Mach} (h : mapOpen p a true m = true) (v : W) :
    hostWrite p a v m = mapWrite a v m := by simp [hostWrite, h]

theorem hostRead_open {p : AccPath} {a : Nat} {m : Mach} (h : mapOpen p a false m = true) :
    hostRead p a m = mapRead a m := by simp [hostRead, h]

/-! ### Addresses without a register (R15, R496) -/

theorem registerWrite_narrow {p : AccPath} {a n : Nat} {m : Mach} (h : mapOpen p a true m = true) (hn : n < 4) (v : W) :
    registerWrite p a n v m = addrErr m := by simp [registerWrite, h, hn]

theorem mapWrite_unaligned {a : Nat} (h : a % 4 ≠ 0) (v : W) (m : Mach) : mapWrite a v m = addrErr m := by
  simp [mapWrite, h]

theorem registerWrite_unaligned {p : AccPath} {a : Nat} {m : Mach} (h : mapOpen p a true m = true) (ha : a % 4 ≠ 0) (n : Nat)
    (v : W) : registerWrite p a n v m = addrErr m := by
  by_cases hn : n < 4
  · exact registerWrite_narrow h hn v
  · rw [registerWrite, if_neg hn, hostWrite_open h, mapWrite_unaligned ha]

/-- Where no register stands, outside the reservoir's window: an address that is no multiple of 4, a hole of a tile window, or an
address without an entry in the register table. -/
theorem accBad_cases {a : Nat} {m : Mach} (hres : isRes a = false) (h : accBad a m = true) :
    a % 4 ≠ 0 ∨ (a % 4 = 0 ∧ isTile a = true ∧ tileMapped (tileOff a) = false) ∨
      (a % 4 = 0 ∧ isTile a = false ∧ (regInfo a).isNone = true) := by
  by_cases h4 : a % 4 = 0
  · cases ht : isTile a <;> simp_all [accBad]
  · exact .inl h4

/-- R496: a write where no register stands. -/
theorem mapWrite_bad {a : Nat} {m : Mach} (hres : isRes a = false) (h : accBad a m = true) (v : W) :
    mapWrite a v m = addrErr m := by
  rcases accBad_cases hres h with h4 | ⟨h4, ht, ho⟩ | ⟨h4, ht, hr⟩
  · exact mapWrite_unaligned h4 v m
  · simp [mapWrite, h4, hres, ht, ho]
  · simp [mapWrite, h4, hres, ht, hr]

/-- R496: a read where no register stands. -/
theorem wordRead_bad {a : Nat} {m : Mach} (hres : isRes a = false) (h : accBad a m = true) :
    wordRead a m = (0#32, addrErr m) := by
  rcases accBad_cases hres h with h4 | ⟨h4, ht, ho⟩ | ⟨h4, ht, hr⟩
  · simp [wordRead, h4]
  · simp [wordRead, h4, hres, ht, ho]
  · simp [wordRead, h4, hres, ht, hr]

/-- DMA_FENCE is a register, so an access to no register is no fence. -/
theorem accBad_fence (m : Mach) : accBad DMA_FENCE m = false := by
  have h4 : DMA_FENCE % 4 = 0 := by decide
  have hres : isRes DMA_FENCE = false := by decide
  have htile : isTile DMA_FENCE = false := by decide
  have hreg : (regInfo DMA_FENCE).isNone = false := by decide
  simp only [accBad, h4, hres, htile, hreg, ne_eq, not_true_eq_false, Bool.false_eq_true, ↓reduceIte]

theorem mapRead_bad {a : Nat} {m : Mach} (hres : isRes a = false) (h : accBad a m = true) :
    mapRead a m = (0#32, addrErr m) := by
  have hf : a ≠ DMA_FENCE := fun e => by simp [e, accBad_fence] at h
  rw [mapRead, if_neg hf, wordRead_bad hres h]

/-- Settles O8: each path leads to `addrErr`, which sets addr_err. -/
theorem addressErrorsAreReported : Obligations.AddressErrorsAreReported := by
  intro s p a n v
  refine ⟨fun h hn => ?_, fun h ha => ?_, fun h hres hbad => ?_, fun h hres hbad => ?_, ?_⟩
  · rw [exec_registerWrite, registerWrite_narrow h hn]; rfl
  · rw [exec_registerWrite, registerWrite_unaligned h ha]; rfl
  · have hw : unmappedAccess p a true s.m = addrErr s.m := by
      simp [unmappedAccess, hbad, hostWrite_open h, mapWrite_bad hres hbad]
    rw [exec_unmappedAccess, hw]; rfl
  · have hr : unmappedAccess p a false s.m = send (.rdata 0#32) (addrErr s.m) := by
      simp [unmappedAccess, hbad, hostRead_open h, mapRead_bad hres hbad, returnWord]
    rw [exec_unmappedAccess, hr]; rfl
  · exact fon_setEv rfl (by decide) (by decide) (by decide) s.m

/-! ### Registers without rules of their own -/

/-- A register stands at `a`, neither in the reservoir's window nor in a tile's. -/
def isRegAddr (a : Nat) : Bool := a % 4 == 0 && !isRes a && !isTile a && (regInfo a).isSome

theorem mapWrite_regAddr {a : Nat} (h : isRegAddr a = true) (v : W) (m : Mach) : mapWrite a v m = regWrite a v m := by
  simp only [isRegAddr, Bool.and_eq_true, beq_iff_eq, Bool.not_eq_true'] at h
  obtain ⟨⟨⟨h4, hres⟩, htile⟩, hreg⟩ := h
  simp [mapWrite, h4, hres, htile, Option.isSome_iff_ne_none.1 hreg]

/-- A read of `a` is of the register alone: no value that is computed, latched or taken from a queue stands there. -/
def readsPlainly (a : Nat) : Bool :=
  isRegAddr a && !accIs .wo a && a != CLK_TOD_LO && a != DMA_FENCE && !decide (0x800000 ≤ a ∧ a < 0x801000) &&
    !isPathReg a 0x390 && (ftwHiOf a).isNone && (viewReg a {}).isNone

/-- Whether a register's value is computed depends on its address alone. -/
theorem viewReg_isNone (a : Nat) (m m' : Mach) : (viewReg a m).isNone = (viewReg a m').isNone := by
  simp only [viewReg, apply_ite Option.isNone, Option.isNone_some]

/-- R21: the value that is read: a pending one with bit 31 set, else the one in force. -/
def readValue (a : Nat) (m : Mach) : W := ((staged a m).map (· ||| 0x80000000#32)).getD (rd a m)

theorem readValue_of_none {a : Nat} {m : Mach} (h : staged a m = none) : readValue a m = rd a m := by simp [readValue, h]

theorem readValue_of_some {a : Nat} {m : Mach} {v : W} (h : staged a m = some v) : readValue a m = v ||| 0x80000000#32 := by
  simp [readValue, h]

theorem isRegAddr_of_readsPlainly {a : Nat} (h : readsPlainly a = true) : isRegAddr a = true := by
  simp only [readsPlainly, Bool.and_eq_true] at h
  exact h.1.1.1.1.1.1.1

theorem regRead_plain {a : Nat} (h : readsPlainly a = true) (m : Mach) : regRead a m = (readValue a m, m) := by
  simp only [readsPlainly, Bool.and_eq_true, bne_iff_ne, Bool.not_eq_true', decide_eq_false_iff_not] at h
  obtain ⟨⟨⟨⟨⟨⟨⟨-, hwo⟩, htod⟩, -⟩, hmon⟩, hlut⟩, hftw⟩, hview⟩ := h
  rw [viewReg_isNone a {} m, Option.isNone_iff_eq_none] at hview
  rw [Option.isNone_iff_eq_none] at hftw
  have hmon1 : ∀ P : Prop, ¬ (0x800000 ≤ a ∧ a < 0x801000 ∧ P) := fun P q => hmon ⟨q.1, q.2.1⟩
  simp only [regRead, hwo, htod, hmon1, hlut, hview, pendingValue, hftw, readValue, Bool.false_eq_true, ↓reduceIte]
  cases staged a m <;> rfl

theorem mapRead_plain {a : Nat} (h : readsPlainly a = true) (m : Mach) : mapRead a m = (readValue a m, m) := by
  have hr := regRead_plain h m
  simp only [readsPlainly, isRegAddr, Bool.and_eq_true, bne_iff_ne, beq_iff_eq, Bool.not_eq_true'] at h
  obtain ⟨⟨⟨⟨⟨⟨⟨⟨⟨⟨h4, hres⟩, htile⟩, hreg⟩, -⟩, -⟩, hfence⟩, -⟩, -⟩, -⟩, -⟩ := h
  simp [mapRead, hfence, wordRead, h4, hres, htile, Option.isSome_iff_ne_none.1 hreg, hr]

theorem reach_power {a : Nat} {m : Mach} (h : reach a m = true) : m.power = .coreRun := by
  simp only [reach, Bool.and_eq_true, beq_iff_eq] at h
  exact h.1

theorem mapOpen_reach {p : AccPath} {a : Nat} {w : Bool} {m : Mach} (h : mapOpen p a w m = true) : reach a m = true := by
  simp only [mapOpen, Bool.and_eq_true] at h
  exact h.1

/-- R497: a READ frame of one word. -/
theorem exec_spiRead_plain {a : Nat} {s : State} (ho : mapOpen .spi a false s.m = true) (h : readsPlainly a = true)
    (ha : a < 2 ^ 32) : exec (.spiRead a 1) s = .next (s.withM (send (.spi [readValue a s.m]) s.m)) := by
  have hp : s.m.power ≠ .off := by simp [reach_power (mapOpen_reach ho)]
  have ham : a % 4294967296 = a := Nat.mod_eq_of_lt ha
  change answer s (spiReadFrame 4 a 1 s.m) = _
  simp [spiReadFrame, spiSeen, hp, spiWords, ham, hostRead_open ho, mapRead_plain h]

/-! ### Writes by the access code alone (R19, R24) -/

theorem accIs_iff {acc : Acc} {a : Nat} : accIs acc a = true ↔ ∃ r, regInfo a = some r ∧ r.acc = acc := by
  unfold accIs
  cases regInfo a <;> simp

theorem plainWrite_rw {a : Nat} (h : accIs .rw a = true) (v : W) (m : Mach) :
    plainWrite a v m = wr a ((rd a m &&& ~~~(wmask a)) ||| (v &&& wmask a)) m := by
  obtain ⟨r, hr, hacc⟩ := accIs_iff.1 h
  simp [plainWrite, hr, hacc]

theorem plainWrite_ro {a : Nat} (h : accIs .ro a = true) (v : W) (m : Mach) : plainWrite a v m = m := by
  obtain ⟨r, hr, hacc⟩ := accIs_iff.1 h
  simp [plainWrite, hr, hacc]

theorem plainWrite_w1c {a : Nat} (h : accIs .w1c a = true) (v : W) (m : Mach) : plainWrite a v m = w1c a v 0#32 m := by
  obtain ⟨r, hr, hacc⟩ := accIs_iff.1 h
  simp [plainWrite, hr, hacc]

theorem plainWrite_rws {a : Nat} (h : accIs .rws a = true) (v : W) (m : Mach) : plainWrite a v m = rwsWrite a v m := by
  obtain ⟨r, hr, hacc⟩ := accIs_iff.1 h
  simp [plainWrite, hr, hacc]

theorem exec_registerWrite_word {p : AccPath} {a : Nat} {s : State} (h : mapOpen p a true s.m = true) (v : W) :
    exec (.registerWrite p a 4 v) s = .next (s.withM (mapWrite a v s.m)) := by
  rw [exec_registerWrite, registerWrite, if_neg (by decide), hostWrite_open h]

/-- The plain RW registers of O10, each with its defined bits (R24). -/
def rwRows : List (Nat × W) := [(GCTL_SCRATCH, 0xFFFFFFFF#32), (GCTL_IRQ_EN, 0xFFFBFFFF#32), (GCTL_EVT_EN, 0xFFFFFFFF#32),
  (GCTL_I2C_DATA_LO, 0xFFFFFFFF#32), (GCTL_I2C_DATA_HI, 0xFFFFFFFF#32), (GCTL_ANCHOR_CFG, 0xFF#32),
  (GCTL_SLACK_CFG, 0xFFFF7#32), (ACQ_HIST_CFG, wmask ACQ_HIST_CFG)]
/-- The RO registers of O10. -/
def roRows : List Nat := [GCTL_ID, GCTL_UID_LO, GCTL_UID_HI, GCTL_SUMMARY, GCTL_DEV_STATE, GCTL_QUAD_STATE, GCTL_CORE_STATUS,
  BMU_STATUS]

theorem rwRows_plain : ∀ e ∈ rwRows, (accIs .rw e.1 && readsPlainly e.1 && wmask e.1 == e.2 && decide (e.1 < 2 ^ 32)) = true := by
  decide

theorem roRows_plain : ∀ a ∈ roRows, (accIs .ro a && isRegAddr a) = true := by
  decide

theorem regWrite_rwRows : ∀ e ∈ rwRows, ∀ v m, regWrite e.1 v m = plainWrite e.1 v m := by
  simp only [rwRows, List.forall_mem_cons]
  exact ⟨fun _ _ => rfl, fun _ _ => rfl, fun _ _ => rfl, fun _ _ => rfl, fun _ _ => rfl, fun _ _ => rfl, fun _ _ => rfl,
    fun _ _ => rfl, fun _ h => absurd h List.not_mem_nil⟩


theorem regWrite_roRows : ∀ a ∈ roRows, ∀ v m, regWrite a v m = plainWrite a v m := by
  simp only [roRows, List.forall_mem_cons]
  exact ⟨fun _ _ => rfl, fun _ _ => rfl, fun _ _ => rfl, fun _ _ => rfl, fun _ _ => rfl, fun _ _ => rfl, fun _ _ => rfl,
    fun _ _ => rfl, fun _ h => absurd h List.not_mem_nil⟩

/-- Settles O10: these registers are written by their access code alone, and read as they stand. -/
theorem plainRegistersTakeTheirDefinedBits : Obligations.PlainRegistersTakeTheirDefinedBits := by
  intro s p v
  refine ⟨fun e he => ⟨fun ho => ?_, fun ho hst => ?_⟩, fun a ha ho => ?_⟩
  · have hrow := rwRows_plain e he
    simp only [Bool.and_eq_true, beq_iff_eq] at hrow
    obtain ⟨⟨⟨hrw, hread⟩, hmask⟩, -⟩ := hrow
    rw [exec_registerWrite_word ho, mapWrite_regAddr (isRegAddr_of_readsPlainly hread), regWrite_rwRows e he, plainWrite_rw hrw,
      hmask]
  · have hrow := rwRows_plain e he
    simp only [Bool.and_eq_true, decide_eq_true_eq] at hrow
    rw [exec_spiRead_plain ho hrow.1.1.2 hrow.2, readValue_of_none hst]
  · have hrow := roRows_plain a ha
    simp only [Bool.and_eq_true] at hrow
    rw [exec_registerWrite_word ho, mapWrite_regAddr hrow.2, regWrite_roRows a ha, plainWrite_ro hrow.1]

/-! ### Staged registers -/

/-- R16: a write of a register of a quadrant's block. -/
theorem regWrite_quad {a : Nat} (h1 : 1 ≤ a / 0x100000) (h4 : a / 0x100000 ≤ 4) (v : W) (m : Mach) :
    regWrite a v m = quadBlockWrite (a / 0x100000 - 1) (a % 0x100000) a v m := by
  generalize hb : a / 0x100000 = b at h1 h4
  interval_cases b <;> simp [regWrite, blockWrite, hb]

/-- A path's registers from offset 0x308 to 0x38C have no rules of their own. -/
theorem pathWrite_plain {r : Nat} (h1 : 0x308 ≤ r) (h2 : r < 0x390) (n a : Nat) (v : W) (m : Mach) :
    pathWrite n r a v m = plainWrite a v m := by
  simp only [pathWrite, if_neg (show ¬ r < 0x200 by omega), if_neg (show ¬ r < 0x240 by omega),
    if_neg (show ¬ r < 0x280 by omega), if_neg (show r ≠ 0x300 by omega), if_neg (show r ≠ 0x304 by omega),
    if_neg (show r ≠ 0x390 by omega)]

theorem regWrite_pdCtrl {n : Nat} (hn : n < 64) (v : W) (m : Mach) :
    regWrite (QUAD_PD_CTRL n) v m = plainWrite (QUAD_PD_CTRL n) v m := by
  have haddr : QUAD_PD_CTRL n = 0x100000 * (n / 16 + 1) + ((n % 16) * 0x400 + 0x380) := by
    simp only [QUAD_PD_CTRL, pathBase, quadBase]; omega
  generalize QUAD_PD_CTRL n = a at haddr
  have hoff : a % 0x100000 < 0x4000 := by omega
  rw [regWrite_quad (by omega) (by omega), quadBlockWrite, if_pos hoff]
  exact pathWrite_plain (by omega) (by omega) ..

/-- The staged registers of O12. -/
def stagedRow (a : Nat) : Prop := a = ACQ_CFG ∨ a = ACQ_WIN ∨ ∃ n < 64, a = QUAD_PD_CTRL n

theorem pdCtrl_rows : (List.range 64).all (fun n => accIs .rws (QUAD_PD_CTRL n) && readsPlainly (QUAD_PD_CTRL n)) = true := rfl

theorem stagedRow_plain {a : Nat} (h : stagedRow a) : accIs .rws a = true ∧ readsPlainly a = true ∧ a < 2 ^ 32 := by
  rcases h with rfl | rfl | ⟨n, hn, rfl⟩
  · decide
  · decide
  · have hall := List.all_eq_true.1 pdCtrl_rows n (List.mem_range.2 hn)
    simp only [Bool.and_eq_true] at hall
    refine ⟨hall.1, hall.2, ?_⟩
    simp only [QUAD_PD_CTRL, pathBase, quadBase]
    omega

theorem regWrite_stagedRow {a : Nat} (h : stagedRow a) (v : W) (m : Mach) : regWrite a v m = plainWrite a v m := by
  rcases h with rfl | rfl | ⟨n, hn, rfl⟩
  · rfl
  · rfl
  · exact regWrite_pdCtrl hn v m

theorem mirrorRws_stagedRow {a : Nat} (h : stagedRow a) (v : W) (m : Mach) : mirrorRws a v m = m := by
  have hne : a < 0x500000 ∨ 0x600000 ≤ a := by
    rcases h with rfl | rfl | ⟨n, hn, rfl⟩
    · decide
    · decide
    · simp only [QUAD_PD_CTRL, pathBase, quadBase]; omega
  have h1 : a ≠ BMU_UL_FC := by simp only [BMU_UL_FC]; omega
  have h2 : a ≠ BMU_DL_FC := by simp only [BMU_DL_FC]; omega
  have h3 : ¬ (0x500040 ≤ a ∧ a < 0x500050) := by omega
  have h4 : ¬ (0x500050 ≤ a ∧ a < 0x500060) := by omega
  rw [mirrorRws, if_neg h1, if_neg h2, if_neg h3, if_neg h4]

/-- R22, R23: a STAGED_WRITE that the path lets through. -/
theorem exec_stagedWrite_row {p : AccPath} {a : Nat} {s : State} (h : stagedRow a) (ho : mapOpen p a true s.m = true) (v : W) :
    exec (.stagedWrite p a v) s = .next (s.withM (if stageStopped a s.m then wr a (v &&& wmask a) (setStage a none s.m)
      else setStage a (some (v &&& wmask a)) s.m)) := by
  obtain ⟨hrws, hread, -⟩ := stagedRow_plain h
  change answer s (stagedWrite p a v s.m) = _
  rw [stagedWrite, if_pos hrws, hostWrite_open ho, mapWrite_regAddr (isRegAddr_of_readsPlainly hread), regWrite_stagedRow h,
    plainWrite_rws hrws, rwsWrite, mirrorRws_stagedRow h]
  rfl

/-- Settles O12: a staged register without rules of its own is written by `rwsWrite` and read by its pending value. -/
theorem stagedWritesWaitForTheBoundary : Obligations.StagedWritesWaitForTheBoundary := by
  intro s p v w a hrow
  obtain ⟨-, hread, hlt⟩ := stagedRow_plain hrow
  refine ⟨fun ho hrun => ⟨?_, staged_setStage_same ..⟩, fun ho hst => ?_, fun ho hstop => ?_⟩
  · rw [exec_stagedWrite_row hrow ho, hrun]; rfl
  · rw [exec_spiRead_plain ho hread hlt, readValue_of_some hst]
  · rw [exec_stagedWrite_row hrow ho, hstop]; rfl

/-! ### Sticky registers (R19, R20) -/

theorem fon_bit (a i : Nat) (m : Mach) : fon ⟨a, i, 1⟩ m = (rd a m).getLsbD i := by
  have hbit : ∀ b : BitVec 1, (b.toNat != 0) = b.getLsbD 0 := by decide
  simp only [fon, fget, wfld, hbit, BitVec.getLsbD_extractLsb', Nat.lt_one_iff, decide_true, Nat.add_zero, Bool.true_and]

/-- What a sticky register holds after the device has set bit `i` of it. -/
theorem getLsbD_rd_setEvBit {a i : Nat} (h1 : a ≠ HLT_LOG_WPTR) (h2 : a ≠ HLT_EVENTS) (hi : i < 32) (m : Mach) (j : Nat) :
    (rd a (setEvBit a i m)).getLsbD j = ((rd a m).getLsbD j || decide (j = i)) := by
  by_cases hon : fon ⟨a, i, 1⟩ m = true
  · have hset : setEvBit a i m = m := by simp [setEvBit, setEv, setEvDie, hon]
    rw [fon_bit] at hon
    by_cases hj : j = i
    · simp [hset, hj, hon]
    · simp [hset, hj]
  · have hrd : rd a (setEvBit a i m) = wset (rd a m) i 1 1 := by
      have hlog : ∀ e, rd a (logPut e (fset ⟨a, i, 1⟩ 1 m)) = wset (rd a m) i 1 1 := fun e => by
        rw [rd_logPut h1 h2]; exact rd_fset_same ⟨a, i, 1⟩ 1 m
      unfold setEvBit setEv setEvDie
      rw [if_neg hon]
      dsimp only
      split
      · exact hlog _
      · rw [rd_summaryRise]; exact hlog _
    rw [hrd, getLsbD_wset _ _ _ _ _ (by omega)]
    by_cases hj : j = i
    · simp [hj]
    · have hout : ¬ (i ≤ j ∧ j < i + 1) := by omega
      rw [if_neg hout, decide_eq_false hj, Bool.or_false]

theorem getLsbD_rd_setEvBits {a : Nat} (h1 : a ≠ HLT_LOG_WPTR) (h2 : a ≠ HLT_EVENTS) (l : List Nat) (hl : ∀ i ∈ l, i < 32)
    (m : Mach) (j : Nat) :
    (rd a (each l (setEvBit a) m)).getLsbD j = ((rd a m).getLsbD j || decide (j ∈ l)) := by
  induction l generalizing m with
  | nil => simp [each]
  | cons i l ih =>
    have hstep := ih (fun k hk => hl k (List.mem_cons_of_mem _ hk)) (setEvBit a i m)
    rw [getLsbD_rd_setEvBit h1 h2 (hl i List.mem_cons_self)] at hstep
    simp only [each, List.foldl_cons] at hstep ⊢
    rw [hstep, Bool.or_assoc]
    by_cases hj : j = i <;> simp [hj]

theorem regsKept_setEvBits (a : Nat) (l : List Nat) (m : Mach) :
    regsKept [a, HLT_LOG_WPTR, HLT_EVENTS] m (each l (setEvBit a) m) := by
  intro b hb
  simp only [List.mem_cons, List.not_mem_nil, or_false, not_or] at hb
  exact each_keeps (rd b) l _ (fun i _ m => rd_setEv (f := ⟨a, i, 1⟩) hb.1 hb.2.1 hb.2.2 m) m

theorem storesKept_setEvBits (a : Nat) (l : List Nat) (m : Mach) : storesKept m (each l (setEvBit a) m) :=
  ⟨each_keeps Mach.res l _ (fun _ _ _ => res_setEv _ _) m, each_keeps Mach.stage l _ (fun _ _ _ => stage_setEv _ _) m,
    each_keeps Mach.nvm l _ (fun _ _ _ => nvm_setEv _ _) m, each_keeps Mach.tiles l _ (fun _ _ _ => tiles_setEv _ _) m⟩

/-- A write of a sticky register: the bits written 1 become 0 (R20); DIR_EVENTS has a rule of its own (R215). -/
theorem w1c_clears {a : Nat} (h : a ≠ DIR_EVENTS) (v : W) (m : Mach) : w1c a v 0#32 m = wr a (rd a m &&& ~~~v) m := by
  have hkeep : v &&& ~~~0#32 = v := by rw [BitVec.not_zero, BitVec.and_allOnes]
  have hbits : w1cBits a v m = v := by simp [w1cBits, h]
  have hnone : (List.range 32).filter (fun i => (0#32 &&& wmask a).getLsbD i) = [] := by simp
  simp only [w1c, hbits, hkeep, hnone]
  rfl

/-- The bits of a sticky register that the device sets in the cycle of a write. -/
def setBits (a : Nat) (sets : W) : List Nat :=
  ((List.range 32).filter fun i => sets.getLsbD i).filter fun i => (wmask a).getLsbD i

theorem lt_of_mem_setBits {a : Nat} {sets : W} {i : Nat} (h : i ∈ setBits a sets) : i < 32 :=
  List.mem_range.1 (List.mem_filter.1 (List.mem_filter.1 h).1).1

theorem mem_setBits {a : Nat} {sets : W} {i : Nat} (h : i < 32) (hw : (wmask a).getLsbD i = true) :
    i ∈ setBits a sets ↔ sets.getLsbD i = true := by
  simp only [setBits, List.mem_filter, List.mem_range]
  exact ⟨fun q => q.1.2, fun q => ⟨⟨h, q⟩, hw⟩⟩

theorem setSticky_reg {a : Nat} (h : isTile a = false) (sets : W) (m : Mach) :
    setSticky a sets m = each (setBits a sets) (setEvBit a) m := by simp [setSticky, h, setBits]

/-- The sticky registers of O11, each with the number of its bits. -/
def stickyRows : List (Nat × Nat) := [(GCTL_GLOBAL_EVENTS, 5), (GCTL_STATE_EVENTS, 7), (GCTL_CORE_EVENTS, 11), (BMU_EVENTS, 11),
  (RES_EVENTS, 13), (CLK_EVENTS, 16)]

theorem stickyRows_plain : ∀ e ∈ stickyRows, (accIs .w1c e.1 && isRegAddr e.1 && !isTile e.1 && e.1 != DIR_EVENTS &&
    e.1 != HLT_LOG_WPTR && e.1 != HLT_EVENTS && decide (e.2 ≤ 32) && (List.range e.2).all (wmask e.1).getLsbD) = true := by
  decide

theorem regWrite_stickyRows : ∀ e ∈ stickyRows, ∀ v m, regWrite e.1 v m = plainWrite e.1 v m := by
  simp only [stickyRows, List.forall_mem_cons]
  exact ⟨fun _ _ => rfl, fun _ _ => rfl, fun _ _ => rfl, fun _ _ => rfl, fun _ _ => rfl, fun _ _ => rfl,
    fun _ h => absurd h List.not_mem_nil⟩

/-- What W1C_WRITE leaves of such a register's device. -/
def w1cLeaves (a : Nat) (v sets : W) (m : Mach) : Mach :=
  let m1 := each (setBits a sets) (setEvBit a) m
  wr a (rd a m1 &&& ~~~(v &&& ~~~sets)) m1

theorem exec_w1cWrite_row {e : Nat × Nat} (he : e ∈ stickyRows) {p : AccPath} {s : State} (ho : mapOpen p e.1 true s.m = true)
    (v sets : W) : exec (.w1cWrite p e.1 v sets) s = .next (s.withM (w1cLeaves e.1 v sets s.m)) := by
  have hrow := stickyRows_plain e he
  simp only [Bool.and_eq_true, bne_iff_ne, Bool.not_eq_true'] at hrow
  obtain ⟨⟨⟨⟨⟨⟨⟨hacc, hreg⟩, htile⟩, hdir⟩, -⟩, -⟩, -⟩, -⟩ := hrow
  have hsticky : (isSticky e.1 && mapOpen p e.1 true s.m) = true := by simp [isSticky, hacc, ho]
  change answer s (w1cWrite p e.1 v sets s.m) = _
  rw [w1cWrite, if_pos hsticky, mapWrite_regAddr hreg, regWrite_stickyRows e he, plainWrite_w1c hacc, w1c_clears hdir,
    setSticky_reg htile]
  rfl

/-- Settles O11: the device's bits are set first, then the write clears the others that it names. -/
theorem stickyBitsClearByWritingOne : Obligations.StickyBitsClearByWritingOne := by
  intro s p v sets e he ho
  have hrow := stickyRows_plain e he
  simp only [Bool.and_eq_true, bne_iff_ne, decide_eq_true_eq, List.all_eq_true, List.mem_range] at hrow
  obtain ⟨⟨⟨⟨-, hptr⟩, hhlt⟩, h32⟩, hmask⟩ := hrow
  refine ⟨_, exec_w1cWrite_row he ho v sets, fun i hi => ?_, fun b hb => ?_, storesKept_setEvBits e.1 _ s.m⟩
  · have hset : decide (i ∈ setBits e.1 sets) = sets.getLsbD i := by
      simp [mem_setBits (a := e.1) (sets := sets) (show i < 32 by omega) (hmask i hi)]
    simp only [w1cLeaves, rd_wr_same, BitVec.getLsbD_and, BitVec.getLsbD_not,
      getLsbD_rd_setEvBits hptr hhlt _ (fun _ => lt_of_mem_setBits), hset, show i < 32 by omega, decide_true, Bool.true_and]
    cases sets.getLsbD i <;> cases (rd e.1 s.m).getLsbD i <;> simp
  · have hne : b ≠ e.1 := fun q => hb (q ▸ List.mem_cons_self)
    rw [w1cLeaves, rd_wr_other hne]
    exact regsKept_setEvBits e.1 _ s.m b hb

end Sys2Proof.Machine

/-! SUPPORT. The planned substitution of a signal tile (R323): whose sticky events the spare shows afterwards. -/

namespace Sys2Proof.Machine

/-- An ACTIVE device: tile 0 serves a logical tile, halted, with its sticky event bit 0 set, and its planned substitution runs;
tile 1 is the first spare of its quadrant, with no event set. -/
def substState : State :=
  let planned : HltSt := { running := some ⟨2, 0, 0, 0⟩ }
  let tile : Tile := { serving := true, events := 1#32 }
  { m := fset GCTL_DEV_STATE.state 5 { power := .coreRun, hlt := planned, tiles := [(0, tile)] }, pending := [] }

/-- The spare takes the tile's whole state, its sticky events included, before remap is set in them. -/
theorem events_substState_spare : (getTile 1 (doTileSubstComplete 0 substState.m)).events = 129#32 := by decide

theorem exec_tileSubstComplete (t : Fin 144) (s : State) :
    exec (.tileSubstComplete t) s = .next (s.withM (doTileSubstComplete t s.m)) := rfl

/-- Refutes O50: it says that the spare keeps its own sticky events beside remap, where the substitution copies those of the tile
that it replaces. In `substState` the tile has bit 0 set and the spare none: the spare ends with bits 0 and 7, not with bit 7
alone. -/
theorem not_tileHostAccessAndSpares : ¬ Obligations.TileHostAccessAndSpares := by
  intro h
  obtain ⟨-, -, -, -, -, -, -, -, hserving⟩ := h substState 0
  obtain ⟨-, hspare⟩ := hserving (by decide)
  obtain ⟨-, hsubst, -⟩ := hspare 1 (by decide)
  obtain ⟨u, hexec, -, -, hcopy, -⟩ := hsubst (by decide) (.inr (by decide)) (by decide)
  rw [exec_tileSubstComplete] at hexec
  have hu : doTileSubstComplete 0 substState.m = u := next_withM_inj hexec
  have hclaim : (getTile 1 u).events = 128#32 := congrArg Tile.events hcopy
  rw [← hu, events_substState_spare] at hclaim
  exact absurd hclaim (by decide)

end Sys2Proof.Machine

/-! SUPPORT. The frame table through a slot boundary: no operation that the boundary runs once its reshuffle is over touches it. Each
lemma is the frame rule of one operation, in the order of the definitions. With the arrow simp takes the outermost operation first, so
that each proof unfolds its own definition alone and cites the rules of the operations in it. -/

namespace Sys2Proof.Machine

/-! ### Conditions and lists -/

@[simp ↓] theorem ftab_ite (c : Prop) [Decidable c] (m n : Mach) :
    (if c then m else n).ftab = if c then m.ftab else n.ftab := apply_ite Mach.ftab c m n

@[simp ↓] theorem ftab_each {α : Type} (l : List α) (f : α → Mach → Mach) (h : ∀ a m, (f a m).ftab = m.ftab) (m : Mach) :
    (each l f m).ftab = m.ftab := each_keeps Mach.ftab l f (fun a _ => h a) m

/-! ### Sys2Proof/Machine/Ops.lean -/

@[simp ↓] theorem ftab_wr (a : Nat) (v : W) (m : Mach) : (wr a v m).ftab = m.ftab := by simp [wr]
@[simp ↓] theorem ftab_fset (f : Fld) (x : Nat) (m : Mach) : (fset f x m).ftab = m.ftab := by simp [fset]
@[simp ↓] theorem ftab_fsetB (f : Fld) (b : Bool) (m : Mach) : (fsetB f b m).ftab = m.ftab := by simp [fsetB]
@[simp ↓] theorem ftab_cnt (a k top : Nat) (m : Mach) : (cnt a k top m).ftab = m.ftab := by simp [cnt]
@[simp ↓] theorem ftab_fcnt (f : Fld) (k : Nat) (m : Mach) : (fcnt f k m).ftab = m.ftab := by simp [fcnt]
@[simp ↓] theorem ftab_setStage (a : Nat) (v : Option W) (m : Mach) : (setStage a v m).ftab = m.ftab := by simp [setStage]
@[simp ↓] theorem ftab_setQ (q : Nat) (x : Quad) (m : Mach) : (setQ q x m).ftab = m.ftab := by simp [setQ]
@[simp ↓] theorem ftab_send (o : OutMsg) (m : Mach) : (send o m).ftab = m.ftab := by simp [send]
@[simp ↓] theorem ftab_logCure (i : Nat) (m : Mach) : (logCure i m).ftab = m.ftab := by simp [logCure]
@[simp ↓] theorem ftab_logPut (e : LogEntry) (m : Mach) : (logPut e m).ftab = m.ftab := by simp [logPut]

@[simp ↓] theorem ftab_summaryRise (g : Nat) (was : Bool) (m : Mach) : (summaryRise g was m).ftab = m.ftab := by
  simp [summaryRise]

@[simp ↓] theorem ftab_setEvDie (die : Nat) (f : Fld) (m : Mach) : (setEvDie die f m).ftab = m.ftab := by
  obtain ⟨_, _, _, _, _, _, _, h⟩ := setEvDie_frame die f m
  rw [h]

@[simp ↓] theorem ftab_setEv (f : Fld) (m : Mach) : (setEv f m).ftab = m.ftab := by simp [setEv]
@[simp ↓] theorem ftab_setEvBit (a i : Nat) (m : Mach) : (setEvBit a i m).ftab = m.ftab := by simp [setEvBit]

@[simp ↓] theorem ftab_setEvIf (b : Bool) (f : Fld) (m : Mach) : (setEvIf b f m).ftab = m.ftab := by
  cases b
  · rfl
  · exact ftab_setEv f m

@[simp ↓] theorem ftab_plogPut (e : LogEntry) (m : Mach) : (plogPut e m).ftab = m.ftab := by simp [plogPut]

@[simp ↓] theorem ftab_logCode (code die kind phys logical : Nat) (data : List Byte) (m : Mach) :
    (logCode code die kind phys logical data m).ftab = m.ftab := by
  simp [logCode]

@[simp ↓] theorem ftab_setOut (k : Nat) (x : OutBr) (m : Mach) : (setOut k x m).ftab = m.ftab := by simp [setOut]
@[simp ↓] theorem ftab_setRx (k : Nat) (x : RxSt) (m : Mach) : (setRx k x m).ftab = m.ftab := by simp [setRx]
@[simp ↓] theorem ftab_setChain (k : Nat) (x : ChainSt) (m : Mach) : (setChain k x m).ftab = m.ftab := by simp [setChain]
@[simp ↓] theorem ftab_setTx (k : Nat) (x : TxSt) (m : Mach) : (setTx k x m).ftab = m.ftab := by simp [setTx]
@[simp ↓] theorem ftab_setFes (k : Nat) (x : Fes) (m : Mach) : (setFes k x m).ftab = m.ftab := by simp [setFes]
@[simp ↓] theorem ftab_setPd (k : Nat) (x : PdSt) (m : Mach) : (setPd k x m).ftab = m.ftab := by simp [setPd]
@[simp ↓] theorem ftab_setTile (k : Nat) (x : Tile) (m : Mach) : (setTile k x m).ftab = m.ftab := by simp [setTile]
@[simp ↓] theorem ftab_setUlTx (k : Nat) (x : UlTx) (m : Mach) : (setUlTx k x m).ftab = m.ftab := by simp [setUlTx]
@[simp ↓] theorem ftab_setSess (k : Nat) (x : SessSt) (m : Mach) : (setSess k x m).ftab = m.ftab := by simp [setSess]
@[simp ↓] theorem ftab_setMon (k : Nat) (x : MonSt) (m : Mach) : (setMon k x m).ftab = m.ftab := by simp [setMon]
@[simp ↓] theorem ftab_sendNat (s : Nat) (b : NatBody) (m : Mach) : (sendNat s b m).ftab = m.ftab := by simp [sendNat]
@[simp ↓] theorem ftab_wantEvent (m : Mach) : (wantEvent m).ftab = m.ftab := by simp [wantEvent]

/-! ### Sys2Proof/Machine/HealthOps.lean -/

@[simp ↓] theorem ftab_setRemap (f : Remap → Remap) (m : Mach) : (setRemap f m).ftab = m.ftab := by simp [setRemap]
@[simp ↓] theorem ftab_refreshKind (k : Nat) (m : Mach) : (refreshKind k m).ftab = m.ftab := by simp [refreshKind]
@[simp ↓] theorem ftab_setDev (st cause : Nat) (m : Mach) : (setDev st cause m).ftab = m.ftab := by simp [setDev]
@[simp ↓] theorem ftab_degradeIfActive (m : Mach) : (degradeIfActive m).ftab = m.ftab := by simp [degradeIfActive]
@[simp ↓] theorem ftab_raiseReplace (f : Fld) (m : Mach) : (raiseReplace f m).ftab = m.ftab := by simp [raiseReplace]
@[simp ↓] theorem ftab_useSpare (k p : Nat) (m : Mach) : (useSpare k p m).ftab = m.ftab := by simp [useSpare]

@[simp ↓] theorem ftab_markWorn (k die phys logical : Nat) (m : Mach) : (markWorn k die phys logical m).ftab = m.ftab := by
  simp [markWorn]

@[simp ↓] theorem ftab_wantTrick (u : RxUnit) (m : Mach) : (wantTrick u m).ftab = m.ftab := by simp [wantTrick]

@[simp ↓] theorem ftab_pumpPlanned (m : Mach) : (pumpPlanned m).ftab = m.ftab := by
  unfold pumpPlanned
  split <;> simp

@[simp ↓] theorem ftab_endPlanned (m : Mach) : (endPlanned m).ftab = m.ftab := by simp [endPlanned]

@[simp ↓] theorem ftab_substDone (code k phys logical spare : Nat) (m : Mach) :
    (substDone code k phys logical spare m).ftab = m.ftab := by
  simp [substDone]

@[simp ↓] theorem ftab_plannedOver (k phys logical spare : Nat) (m : Mach) : (plannedOver k phys logical spare m).ftab = m.ftab := by
  simp [plannedOver]

@[simp ↓] theorem ftab_plannedDone (k phys logical spare : Nat) (m : Mach) : (plannedDone k phys logical spare m).ftab = m.ftab := by
  simp [plannedDone]

@[simp ↓] theorem ftab_hardDone (k phys logical spare : Nat) (m : Mach) : (hardDone k phys logical spare m).ftab = m.ftab := by
  simp [hardDone]

@[simp ↓] theorem ftab_dropPlanned (k phys : Nat) (m : Mach) : (dropPlanned k phys m).ftab = m.ftab := by simp [dropPlanned]
@[simp ↓] theorem ftab_startHandover (reason : Nat) (m : Mach) : (startHandover reason m).ftab = m.ftab := by simp [startHandover]
@[simp ↓] theorem ftab_twinFault (c : Nat) (m : Mach) : (twinFault c m).ftab = m.ftab := by simp [twinFault]
@[simp ↓] theorem ftab_mirror (cls : Nat) (b : MirBody) (m : Mach) : (mirror cls b m).ftab = m.ftab := by simp [mirror]
@[simp ↓] theorem ftab_failPath (tx : Bool) (n crit : Nat) (m : Mach) : (failPath tx n crit m).ftab = m.ftab := by simp [failPath]

/-! ### Sys2Proof/Machine/Capture.lean -/

@[simp ↓] theorem ftab_couplerChanged (o : Nat) (m : Mach) : (couplerChanged o m).ftab = m.ftab := by simp [couplerChanged]

/-! ### Sys2Proof/Machine/Dir.lean -/

@[simp ↓] theorem ftab_showSync (m : Mach) : (showSync m).ftab = m.ftab := by simp [showSync]
@[simp ↓] theorem ftab_setInSync (c : Nat) (b : Bool) (m : Mach) : (setInSync c b m).ftab = m.ftab := by simp [setInSync]

/-! ### Sys2Proof/Machine/Fes.lean -/

@[simp ↓] theorem ftab_refreshFes (q : Nat) (m : Mach) : (refreshFes q m).ftab = m.ftab := by simp [refreshFes]
@[simp ↓] theorem ftab_refreshPins (m : Mach) : (refreshPins m).ftab = m.ftab := by simp [refreshPins]

@[simp ↓] theorem ftab_spoilCap (o : Nat) (m : Mach) : (spoilCap o m).ftab = m.ftab := by
  unfold spoilCap
  split <;> simp

@[simp ↓] theorem ftab_setCoupler (o n : Nat) (m : Mach) : (setCoupler o n m).ftab = m.ftab := by simp [setCoupler]
@[simp ↓] theorem ftab_queueFcb (q w due : Nat) (m : Mach) : (queueFcb q w due m).ftab = m.ftab := by simp [queueFcb]

@[simp ↓] theorem ftab_runAct (q t kind mask value : Nat) (m : Mach) : (runAct q t kind mask value m).ftab = m.ftab := by
  unfold runAct
  split <;> simp

@[simp ↓] theorem ftab_schedAct (q b k : Nat) (m : Mach) : (schedAct q b k m).ftab = m.ftab := by simp [schedAct]
@[simp ↓] theorem ftab_enterState (q st b : Nat) (m : Mach) : (enterState q st b m).ftab = m.ftab := by simp [enterState]

@[simp ↓] theorem ftab_fesEvent (q code b : Nat) (m : Mach) : (fesEvent q code b m).ftab = m.ftab := by
  unfold fesEvent
  split
  · split <;> simp
  · rfl

@[simp ↓] theorem ftab_fesNow (q code : Nat) (m : Mach) : (fesNow q code m).ftab = m.ftab := by
  unfold fesNow
  split <;> simp

@[simp ↓] theorem ftab_deliverEvents (m : Mach) : (deliverEvents m).ftab = m.ftab := by simp [deliverEvents]
@[simp ↓] theorem ftab_endDrops (q : Nat) (m : Mach) : (endDrops q m).ftab = m.ftab := by simp [endDrops]

/-! ### Sys2Proof/Machine/Chains.lean -/

@[simp ↓] theorem ftab_setStageSt (c : ChainId) (k : Nat) (x : StageSt) (m : Mach) : (setStageSt c k x m).ftab = m.ftab := by
  simp [setStageSt]

@[simp ↓] theorem ftab_chainSat (c : ChainId) (sat : Bool) (m : Mach) : (chainSat c sat m).ftab = m.ftab := by simp [chainSat]

@[simp ↓] theorem ftab_runInterp1 (c : ChainId) (k : Nat) (x : Sample) (m : Mach) : (runInterp1 c k x m).2.ftab = m.ftab := by
  simp [runInterp1]

@[simp ↓] theorem ftab_runInterp (c : ChainId) (k : Nat) (r : List Sample × Mach) : (runInterp c k r).2.ftab = r.2.ftab := by
  unfold runInterp
  generalize ([] : List Sample) = acc
  obtain ⟨l, m⟩ := r
  induction l generalizing acc m with
  | nil => rfl
  | cons x l ih => simp [ih]

@[simp ↓] theorem ftab_ncoReach (c : ChainId) (t : Nat) (m : Mach) : (ncoReach c t m).ftab = m.ftab := by simp [ncoReach]

/-! ### Sys2Proof/Machine/PdEngine.lean -/

@[simp ↓] theorem ftab_pdForm (n : Nat) (m : Mach) : (pdForm n m).2.ftab = m.ftab := by
  simp [pdForm, apply_ite Prod.snd]

@[simp ↓] theorem ftab_pdPush (n air : Nat) (s : Sample) (m : Mach) : (pdPush n air s m).ftab = m.ftab := by simp [pdPush]

@[simp ↓] theorem ftab_pdOuts (n k : Nat) (m : Mach) : (pdOuts n k m).2.ftab = m.ftab := by
  induction k generalizing m with
  | zero => rfl
  | succ k ih =>
    unfold pdOuts
    split
    · simp [ih]
    · rfl

/-! ### Sys2Proof/Machine/Output.lean -/

@[simp ↓] theorem ftab_noteMargin (dl : Bool) (x : ℤ) (m : Mach) : (noteMargin dl x m).ftab = m.ftab := by simp [noteMargin]

@[simp ↓] theorem ftab_lateArrive (b : OutBridge) (seq arr : Nat) (m : Mach) : (lateArrive b seq arr m).ftab = m.ftab := by
  unfold lateArrive
  dsimp only
  split <;> simp

@[simp ↓] theorem ftab_outArrive (b : OutBridge) (ss : List OutSample) (m : Mach) : (outArrive b ss m).ftab = m.ftab := by
  simp [outArrive]

@[simp ↓] theorem ftab_outPush (b : OutBridge) (o : OutSample) (m : Mach) : (outPush b o m).ftab = m.ftab := by simp [outPush]

@[simp ↓] theorem ftab_closeEntry (b : OutBridge) (m : Mach) : (closeEntry b m).ftab = m.ftab := by
  unfold closeEntry
  split <;> simp

@[simp ↓] theorem ftab_dacSample (n : Nat) (s : Sample) (m : Mach) : (dacSample n s m).ftab = m.ftab := by simp [dacSample]
@[simp ↓] theorem ftab_dacMid (n : Nat) (m : Mach) : (dacMid n m).ftab = m.ftab := by simp [dacMid]
@[simp ↓] theorem ftab_txPlay (n : Nat) (l : List OutSample) (m : Mach) : (txPlay n l m).ftab = m.ftab := by simp [txPlay]
@[simp ↓] theorem ftab_txSlot (n : Nat) (m : Mach) : (txSlot n m).ftab = m.ftab := by simp [txSlot]
@[simp ↓] theorem ftab_gapBridge (k : Nat) (m : Mach) : (gapBridge k m).ftab = m.ftab := by simp [gapBridge]

@[simp ↓] theorem ftab_gapTicks (st : UlStream) (old d : Nat) (m : Mach) : (gapTicks st old d m).ftab = m.ftab := by
  simp [gapTicks]

@[simp ↓] theorem ftab_anchorUlChange (sts : List UlStream) (old new : Nat) (m : Mach) :
    (anchorUlChange sts old new m).ftab = m.ftab := by
  simp [anchorUlChange]

/-! ### Sys2Proof/Machine/Downlink.lean -/

@[simp ↓] theorem ftab_txTail (n : Nat) (x : Nat × Sample) (m : Mach) : (txTail n x m).ftab = m.ftab := by simp [txTail]
@[simp ↓] theorem ftab_txEngines (n : Nat) (m : Mach) : (txEngines n m).ftab = m.ftab := by simp [txEngines]

@[simp ↓] theorem ftab_foldlInterp (c : ChainId) (ks : List Nat) (r : List Sample × Mach) :
    (ks.foldl (fun a k => runInterp c k a) r).2.ftab = r.2.ftab := by
  induction ks generalizing r with
  | nil => rfl
  | cons k ks ih => simp [ih]

@[simp ↓] theorem ftab_txChainIn (n air : Nat) (s : Sample) (m : Mach) : (txChainIn n air s m).ftab = m.ftab := by
  simp [txChainIn]

@[simp ↓] theorem ftab_dlSat (n : Nat) (bs : List (Nat × BeamW)) (m : Mach) : (dlSat n bs m).ftab = m.ftab := by simp [dlSat]

@[simp ↓] theorem ftab_dlPath (n air : Nat) (hs : List (Sample × Nat × BeamW)) (m : Mach) : (dlPath n air hs m).ftab = m.ftab := by
  simp [dlPath]

@[simp ↓] theorem ftab_setDlWait (b : Nat) (l : List (Nat × Sample)) (m : Mach) : (setDlWait b l m).ftab = m.ftab := by
  simp [setDlWait]

@[simp ↓] theorem ftab_dlForm (all : Bool) (k : Nat) (m : Mach) : (dlForm all k m).ftab = m.ftab := by
  induction k generalizing m with
  | zero => rfl
  | succ k ih =>
    unfold dlForm
    dsimp only
    split
    · rfl
    · simp [ih]

@[simp ↓] theorem ftab_dlBeamIn (b air : Nat) (s : Sample) (m : Mach) : (dlBeamIn b air s m).ftab = m.ftab := by simp [dlBeamIn]
@[simp ↓] theorem ftab_dlElemIn (n air : Nat) (s : Sample) (m : Mach) : (dlElemIn n air s m).ftab = m.ftab := by simp [dlElemIn]

@[simp ↓] theorem ftab_dlGo (t : DlTarget) (air : Nat) (s : Sample) (m : Mach) : (dlGo t air s m).ftab = m.ftab := by
  obtain (_ | _) | _ := t <;> simp [dlGo]

@[simp ↓] theorem ftab_dlResume (m : Mach) : (dlResume m).ftab = m.ftab := by simp [dlResume]

/-! ### Sys2Proof/Machine/Mesh.lean -/

@[simp ↓] theorem ftab_setMesh (f : MeshSt → MeshSt) (m : Mach) : (setMesh f m).ftab = m.ftab := by simp [setMesh]
@[simp ↓] theorem ftab_refreshBeams (m : Mach) : (refreshBeams m).ftab = m.ftab := by simp [refreshBeams]
@[simp ↓] theorem ftab_dropAdmits (m : Mach) : (dropAdmits m).ftab = m.ftab := by simp [dropAdmits]
@[simp ↓] theorem ftab_refreshExcl (m : Mach) : (refreshExcl m).ftab = m.ftab := by simp [refreshExcl]
@[simp ↓] theorem ftab_dropUnfed (m : Mach) : (dropUnfed m).ftab = m.ftab := by simp [dropUnfed]
@[simp ↓] theorem ftab_showBeams (m : Mach) : (showBeams m).ftab = m.ftab := by simp [showBeams]
@[simp ↓] theorem ftab_bindCol (dl : Bool) (c : Nat) (m : Mach) : (bindCol dl c m).ftab = m.ftab := by simp [bindCol]
@[simp ↓] theorem ftab_loseCol (dl : Bool) (c : Nat) (m : Mach) : (loseCol dl c m).ftab = m.ftab := by simp [loseCol]
@[simp ↓] theorem ftab_colGone (dl : Bool) (c : Nat) (m : Mach) : (colGone dl c m).ftab = m.ftab := by simp [colGone]

@[simp ↓] theorem ftab_putColPlan (dl : Bool) (o : Option ColPlan) (m : Mach) : (putColPlan dl o m).ftab = m.ftab := by
  simp [putColPlan]

@[simp ↓] theorem ftab_endColPlan (dl : Bool) (m : Mach) : (endColPlan dl m).ftab = m.ftab := by
  unfold endColPlan
  split <;> simp

@[simp ↓] theorem ftab_meshSwap (m : Mach) : (meshSwap m).ftab = m.ftab := by simp [meshSwap]

/-! ### Sys2Proof/Machine/Transmit.lean -/

@[simp ↓] theorem ftab_applyLehr (q : Nat) (m : Mach) : (applyLehr q m).ftab = m.ftab := by simp [applyLehr]
@[simp ↓] theorem ftab_applyGain (n : Nat) (m : Mach) : (applyGain n m).ftab = m.ftab := by simp [applyGain]
@[simp ↓] theorem ftab_powerSlot (q : Nat) (m : Mach) : (powerSlot q m).ftab = m.ftab := by simp [powerSlot]

/-! ### Sys2Proof/Machine/Predist.lean -/

@[simp ↓] theorem ftab_refreshIdle (n : Nat) (m : Mach) : (refreshIdle n m).ftab = m.ftab := by simp [refreshIdle]
@[simp ↓] theorem ftab_tellSwap (n : Nat) (t : Option Nat) (m : Mach) : (tellSwap n t m).ftab = m.ftab := by simp [tellSwap]
@[simp ↓] theorem ftab_refreshSwap (n : Nat) (m : Mach) : (refreshSwap n m).ftab = m.ftab := by simp [refreshSwap]
@[simp ↓] theorem ftab_doSwap (n : Nat) (m : Mach) : (doSwap n m).ftab = m.ftab := by simp [doSwap]
@[simp ↓] theorem ftab_swapTold (n : Nat) (m : Mach) : (swapTold n m).ftab = m.ftab := by simp [swapTold]
@[simp ↓] theorem ftab_holdPath (n : Nat) (m : Mach) : (holdPath n m).ftab = m.ftab := by simp [holdPath]

@[simp ↓] theorem ftab_swapSlot (n : Nat) (user : Bool) (m : Mach) : (swapSlot n user m).ftab = m.ftab := by
  simp only [swapSlot, ftab_refreshSwap, ftab_ite]
  split
  · split <;> simp
  · simp

@[simp ↓] theorem ftab_applySwapReg (q : Nat) (v : W) (m : Mach) : (applySwapReg q v m).ftab = m.ftab := by simp [applySwapReg]

@[simp ↓] theorem ftab_mirSwapDue (n : Nat) (m : Mach) : (mirSwapDue n m).ftab = m.ftab := by
  unfold mirSwapDue
  split <;> simp

@[simp ↓] theorem ftab_swapBoundary (q : Nat) (m : Mach) : (swapBoundary q m).ftab = m.ftab := by simp [swapBoundary]
@[simp ↓] theorem ftab_applyScale (n : Nat) (m : Mach) : (applyScale n m).ftab = m.ftab := by simp [applyScale]
@[simp ↓] theorem ftab_bindEngine (n : Nat) (m : Mach) : (bindEngine n m).ftab = m.ftab := by simp [bindEngine]
@[simp ↓] theorem ftab_engineSwitch (n : Nat) (m : Mach) : (engineSwitch n m).ftab = m.ftab := by simp [engineSwitch]
@[simp ↓] theorem ftab_substBoundary (n : Nat) (m : Mach) : (substBoundary n m).ftab = m.ftab := by simp [substBoundary]
@[simp ↓] theorem ftab_engineDead (n : Nat) (m : Mach) : (engineDead n m).ftab = m.ftab := by simp [engineDead]

/-! ### Sys2Proof/Machine/Slices.lean -/

@[simp ↓] theorem ftab_rxSettle (u : RxUnit) (n : Nat) (m : Mach) : (rxSettle u n m).ftab = m.ftab := by simp [rxSettle]
@[simp ↓] theorem ftab_recordSlices (u : RxUnit) (m : Mach) : (recordSlices u m).ftab = m.ftab := by simp [recordSlices]
@[simp ↓] theorem ftab_mapSlice (u : RxUnit) (pos : Nat) (m : Mach) : (mapSlice u pos m).ftab = m.ftab := by simp [mapSlice]
@[simp ↓] theorem ftab_dropSlice (u : RxUnit) (s : Nat) (m : Mach) : (dropSlice u s m).ftab = m.ftab := by simp [dropSlice]

@[simp ↓] theorem ftab_wantSliceTrick (u : RxUnit) (m : Mach) : (wantSliceTrick u m).ftab = m.ftab := by
  unfold wantSliceTrick
  split <;> simp

@[simp ↓] theorem ftab_spareUntrimmed (u : RxUnit) (m : Mach) : (spareUntrimmed u m).ftab = m.ftab := by simp [spareUntrimmed]

@[simp ↓] theorem ftab_noSlice (u : RxUnit) (pos : Nat) (m : Mach) : (noSlice u pos m).ftab = m.ftab := by
  unfold noSlice
  split <;> simp

@[simp ↓] theorem ftab_remapSettle (u : RxUnit) (m : Mach) : (remapSettle u m).ftab = m.ftab := by simp [remapSettle]

@[simp ↓] theorem ftab_sliceRemapDone (u : RxUnit) (s pos : Nat) (bare : Bool) (m : Mach) :
    (sliceRemapDone u s pos bare m).ftab = m.ftab := by
  simp [sliceRemapDone]

@[simp ↓] theorem ftab_sliceRemap (u : RxUnit) (m : Mach) : (sliceRemap u m).ftab = m.ftab := by
  unfold sliceRemap
  split
  · rfl
  · split <;> simp

@[simp ↓] theorem ftab_sliceNow (u : RxUnit) (s : Nat) (m : Mach) : (sliceNow u s m).ftab = m.ftab := by
  unfold sliceNow
  split <;> simp

@[simp ↓] theorem ftab_slicesDue (q : Nat) (m : Mach) : (slicesDue q m).ftab = m.ftab := by simp [slicesDue]

/-! ### Sys2Proof/Machine/Token.lean -/

@[simp ↓] theorem ftab_fesAll (code : Nat) (m : Mach) : (fesAll code m).ftab = m.ftab := by simp [fesAll]
@[simp ↓] theorem ftab_driveToken (tok sel : Bool) (m : Mach) : (driveToken tok sel m).ftab = m.ftab := by simp [driveToken]
@[simp ↓] theorem ftab_stopTaking (m : Mach) : (stopTaking m).ftab = m.ftab := by simp [stopTaking]
@[simp ↓] theorem ftab_releaseToken (reason : Nat) (m : Mach) : (releaseToken reason m).ftab = m.ftab := by simp [releaseToken]
@[simp ↓] theorem ftab_dropToken (reason : Nat) (m : Mach) : (dropToken reason m).ftab = m.ftab := by simp [dropToken]

/-! ### Sys2Proof/Machine/QuadOps.lean -/

@[simp ↓] theorem ftab_setGated (q : Nat) (b : Bool) (m : Mach) : (setGated q b m).ftab = m.ftab := by simp [setGated]
@[simp ↓] theorem ftab_refreshTrans (q : Nat) (m : Mach) : (refreshTrans q m).ftab = m.ftab := by simp [refreshTrans]
@[simp ↓] theorem ftab_refreshReqPending (m : Mach) : (refreshReqPending m).ftab = m.ftab := by simp [refreshReqPending]

@[simp ↓] theorem ftab_setPhase (q : Nat) (p : QPhase) (t : Nat) (m : Mach) : (setPhase q p t m).ftab = m.ftab := by
  simp [setPhase]

@[simp ↓] theorem ftab_setQuadState (q st : Nat) (m : Mach) : (setQuadState q st m).ftab = m.ftab := by simp [setQuadState]
@[simp ↓] theorem ftab_powerUp (q t : Nat) (m : Mach) : (powerUp q t m).ftab = m.ftab := by simp [powerUp]
@[simp ↓] theorem ftab_setDed (q : Nat) (x : DedSt) (m : Mach) : (setDed q x m).ftab = m.ftab := by simp [setDed]
@[simp ↓] theorem ftab_startDed (q : Nat) (m : Mach) : (startDed q m).ftab = m.ftab := by simp [startDed]
@[simp ↓] theorem ftab_stopDed (q : Nat) (m : Mach) : (stopDed q m).ftab = m.ftab := by simp [stopDed]
@[simp ↓] theorem ftab_forcedDisable (m : Mach) : (forcedDisable m).ftab = m.ftab := by simp [forcedDisable]
@[simp ↓] theorem ftab_gapInFlight (q : Nat) (m : Mach) : (gapInFlight q m).ftab = m.ftab := by simp [gapInFlight]

@[simp ↓] theorem ftab_leaveRunning (q st t : Nat) (force : Bool) (m : Mach) : (leaveRunning q st t force m).ftab = m.ftab := by
  simp [leaveRunning]

@[simp ↓] theorem ftab_dropDedTrick (q : Nat) (m : Mach) : (dropDedTrick q m).ftab = m.ftab := by simp [dropDedTrick]

@[simp ↓] theorem ftab_leaveDed (q st t : Nat) (force : Bool) (m : Mach) : (leaveDed q st t force m).ftab = m.ftab := by
  simp [leaveDed]

@[simp ↓] theorem ftab_enterRunning (q : Nat) (m : Mach) : (enterRunning q m).ftab = m.ftab := by simp [enterRunning]
@[simp ↓] theorem ftab_quadStep (q t : Nat) (force : Bool) (m : Mach) : (quadStep q t force m).ftab = m.ftab := by simp [quadStep]
@[simp ↓] theorem ftab_refuseReq (q : Nat) (m : Mach) : (refuseReq q m).ftab = m.ftab := by simp [refuseReq]
@[simp ↓] theorem ftab_takeReqDown (q st : Nat) (m : Mach) : (takeReqDown q st m).ftab = m.ftab := by simp [takeReqDown]

@[simp ↓] theorem ftab_takeReqSlot (q : Nat) (m : Mach) : (takeReqSlot q m).ftab = m.ftab := by
  unfold takeReqSlot
  dsimp only
  split
  · rfl
  · simp

@[simp ↓] theorem ftab_continueQuad (q : Nat) (m : Mach) : (continueQuad q m).ftab = m.ftab := by simp [continueQuad]

@[simp ↓] theorem ftab_followDevice (q : Nat) (m : Mach) : (followDevice q m).ftab = m.ftab := by
  unfold followDevice
  split <;> simp

@[simp ↓] theorem ftab_quadSlot (q : Nat) (m : Mach) : (quadSlot q m).ftab = m.ftab := by simp [quadSlot]
@[simp ↓] theorem ftab_refreshInternal (m : Mach) : (refreshInternal m).ftab = m.ftab := by simp [refreshInternal]

/-! ### Sys2Proof/Machine/Ladder.lean -/

@[simp ↓] theorem ftab_refreshLadder (m : Mach) : (refreshLadder m).ftab = m.ftab := by simp [refreshLadder]
@[simp ↓] theorem ftab_refreshShed (m : Mach) : (refreshShed m).ftab = m.ftab := by simp [refreshShed]
@[simp ↓] theorem ftab_applyLadder (m : Mach) : (applyLadder m).ftab = m.ftab := by simp [applyLadder]

/-! ### Sys2Proof/Machine/Clock.lean -/

@[simp ↓] theorem ftab_setClk (f : ClkSt → ClkSt) (m : Mach) : (setClk f m).ftab = m.ftab := by simp [setClk]
@[simp ↓] theorem ftab_gateQuad (q : Nat) (m : Mach) : (gateQuad q m).ftab = m.ftab := by simp [gateQuad]
@[simp ↓] theorem ftab_gateLoop (k : Nat) (m : Mach) : (gateLoop k m).ftab = m.ftab := by simp [gateLoop]
@[simp ↓] theorem ftab_coastLimits (m : Mach) : (coastLimits m).ftab = m.ftab := by simp [coastLimits]

/-! ### Sys2Proof/Machine/Estimate.lean -/

@[simp ↓] theorem ftab_setCal (f : CalSt → CalSt) (m : Mach) : (setCal f m).ftab = m.ftab := by simp [setCal]

@[simp ↓] theorem ftab_setCorr (n k : Nat) (amp phase : ℤ) (m : Mach) : (setCorr n k amp phase m).ftab = m.ftab := by
  simp [setCorr]

@[simp ↓] theorem ftab_followCarrier (dl : Bool) (m : Mach) : (followCarrier dl m).ftab = m.ftab := by
  unfold followCarrier
  extract_lets old fc step kind front dev m1
  have hkind : ∀ k n s, (kind k n s).ftab = s.ftab := fun k n s => ftab_setCorr ..
  have hfront : ∀ k n s, (front k n s).ftab = s.ftab := fun k n s => by
    simp only [front]
    split
    · exact ftab_setCal ..
    · rfl
  split
  · rfl
  · rw [ftab_setCal]
    exact ftab_each _ _ (fun n s => by rw [hfront, hkind, hkind]) m

/-! ### Sys2Proof/Machine/Calib.lean -/

@[simp ↓] theorem ftab_setStates (n : Nat) (tx : Bool) (l : List StateEnt) (m : Mach) : (setStates n tx l m).ftab = m.ftab := by
  simp [setStates]

@[simp ↓] theorem ftab_touchState (n : Nat) (tx : Bool) (e : StateEnt) (m : Mach) : (touchState n tx e m).ftab = m.ftab := by
  simp [touchState]

@[simp ↓] theorem ftab_refreshUnc (n k : Nat) (m : Mach) : (refreshUnc n k m).ftab = m.ftab := by simp [refreshUnc]

@[simp ↓] theorem ftab_refreshArr (n : Nat) (tx : Bool) (m : Mach) : (refreshArr n tx m).ftab = m.ftab := by
  unfold refreshArr
  dsimp only
  split
  · rfl
  · split <;> simp

@[simp ↓] theorem ftab_refreshStates (m : Mach) : (refreshStates m).ftab = m.ftab := by simp [refreshStates]
@[simp ↓] theorem ftab_applyTrim (n : Nat) (m : Mach) : (applyTrim n m).ftab = m.ftab := by simp [applyTrim]
@[simp ↓] theorem ftab_trimsBoundary (m : Mach) : (trimsBoundary m).ftab = m.ftab := by simp [trimsBoundary]
@[simp ↓] theorem ftab_calFcb (k n : Nat) (start : Bool) (m : Mach) : (calFcb k n start m).ftab = m.ftab := by simp [calFcb]
@[simp ↓] theorem ftab_calStart (k n : Nat) (m : Mach) : (calStart k n m).ftab = m.ftab := by simp [calStart]

@[simp ↓] theorem ftab_startPart (q : Nat) (m : Mach) : (startPart q m).ftab = m.ftab := by
  unfold startPart
  split <;> simp

@[simp ↓] theorem ftab_trickBegin (m : Mach) : (trickBegin m).ftab = m.ftab := by
  unfold trickBegin
  split <;> simp

/-! ### Sys2Proof/Machine/Link.lean -/

@[simp ↓] theorem ftab_noteSens (m : Mach) : (noteSens m).ftab = m.ftab := by simp [noteSens]
@[simp ↓] theorem ftab_linkShed (m : Mach) : (linkShed m).ftab = m.ftab := by simp [linkShed]

/-! ### Sys2Proof/Machine/Monitor.lean -/

@[simp ↓] theorem ftab_monStart (q : Nat) (m : Mach) : (monStart q m).ftab = m.ftab := by simp [monStart]
@[simp ↓] theorem ftab_monTrigger (q : Nat) (m : Mach) : (monTrigger q m).ftab = m.ftab := by simp [monTrigger]
@[simp ↓] theorem ftab_monCommon (m : Mach) : (monCommon m).ftab = m.ftab := by simp [monCommon]
@[simp ↓] theorem ftab_monBoundary (frame : Bool) (m : Mach) : (monBoundary frame m).ftab = m.ftab := by simp [monBoundary]

/-! ### Sys2Proof/Machine/TileHost.lean -/

@[simp ↓] theorem ftab_bindTile (l old : Nat) (new : Option Nat) (m : Mach) : (bindTile l old new m).ftab = m.ftab := by
  simp [bindTile]

/-! ### Sys2Proof/Machine/Health.lean -/

@[simp ↓] theorem ftab_emptyPool (r : KittyRes) (m : Mach) : (emptyPool r m).ftab = m.ftab := by
  unfold emptyPool
  split
  · dsimp only
    split <;> simp
  · dsimp only
    split <;> simp
  · simp
  · split <;> simp
  · simp
  · rfl

@[simp ↓] theorem ftab_spareGone (r : KittyRes) (m : Mach) : (spareGone r m).ftab = m.ftab := by simp [spareGone]
@[simp ↓] theorem ftab_sparesLeft (m : Mach) : (sparesLeft m).ftab = m.ftab := by simp [sparesLeft]

/-! ### Sys2Proof/Machine/Deck.lean -/

@[simp ↓] theorem ftab_setImg (f : ImgSt → ImgSt) (m : Mach) : (setImg f m).ftab = m.ftab := by simp [setImg]
@[simp ↓] theorem ftab_refreshLims (m : Mach) : (refreshLims m).ftab = m.ftab := by simp [refreshLims]
@[simp ↓] theorem ftab_setIdent (i : List Byte) (m : Mach) : (setIdent i m).ftab = m.ftab := by simp [setIdent]

/-! ### Sys2Proof/Machine/Twin.lean -/

@[simp ↓] theorem ftab_setTwin (f : TwinSt → TwinSt) (m : Mach) : (setTwin f m).ftab = m.ftab := by simp [setTwin]
@[simp ↓] theorem ftab_refreshReady (m : Mach) : (refreshReady m).ftab = m.ftab := by simp [refreshReady]

@[simp ↓] theorem ftab_handoverRelease (m : Mach) : (handoverRelease m).ftab = m.ftab := by
  unfold handoverRelease
  split <;> simp

/-! ### Sys2Proof/Machine/Reshuf.lean -/

@[simp ↓] theorem ftab_imgResult (x : Nat × Nat) (code : Nat) (m : Mach) : (imgResult x code m).ftab = m.ftab := by
  simp [imgResult]

@[simp ↓] theorem ftab_unlock (m : Mach) : (unlock m).ftab = m.ftab := by simp [unlock]
@[simp ↓] theorem ftab_endCommit (c : Nat) (m : Mach) : (endCommit c m).ftab = m.ftab := by simp [endCommit]
@[simp ↓] theorem ftab_setNvm (f : Nvm → Nvm) (m : Mach) : (setNvm f m).ftab = m.ftab := by simp [setNvm]
@[simp ↓] theorem ftab_refreshImg (m : Mach) : (refreshImg m).ftab = m.ftab := by simp [refreshImg]
@[simp ↓] theorem ftab_storeResh (l : List Byte) (m : Mach) : (storeResh l m).ftab = m.ftab := by simp [storeResh]

/-! ### Sys2Proof/Machine/Boundary.lean -/

@[simp ↓] theorem ftab_schedSynced (m : Mach) : (schedSynced m).ftab = m.ftab := by simp [schedSynced]
@[simp ↓] theorem ftab_pauseStart (m : Mach) : (pauseStart m).ftab = m.ftab := by simp [pauseStart]
@[simp ↓] theorem ftab_muteNote (frame : Bool) (m : Mach) : (muteNote frame m).ftab = m.ftab := by simp [muteNote]

@[simp ↓] theorem ftab_streamsSlot (old : List UlStream) (anchor : Nat) (m : Mach) : (streamsSlot old anchor m).ftab = m.ftab := by
  simp [streamsSlot]

end Sys2Proof.Machine

/-! SUPPORT. A slot boundary inside a frame that brings another frame table: a state whose staged values stop the frame timing before
the reshuffle of that boundary loads its frame section (R415, R482), which refutes O29. The model is evaluated step by step: each
intermediate state is written out and held to the model by `decide`. -/

namespace Sys2Proof.Machine

/-- A slot boundary inside a frame leaves the table that its reshuffle leaves. -/
theorem ftab_slotStarts_inFrame (traffic : Bool) (old : List UlStream) (anchor : Nat) (m : Mach) :
    (slotStarts false traffic old anchor m).ftab = (reshuffle applyStaged (applyStaged (holdEvents m))).ftab := by
  simp [slotStarts, muteFault]

/-- A list of updates that each leave a state as it is leaves it. -/
theorem each_fixed {α : Type} {l : List α} {f : α → Mach → Mach} {m : Mach} (h : ∀ a ∈ l, f a m = m) : each l f m = m := by
  induction l with
  | nil => rfl
  | cons a l ih =>
    rw [each, List.foldl_cons, h a List.mem_cons_self]
    exact ih fun b hb => h b (List.mem_cons_of_mem _ hb)

/-! ### A reshuffle whose checks pass (R482, R483) -/

/-- The sections of a reshuffle other than register writes and anchors, applied. -/
def reshSections (l : List Byte) (m : Mach) : Mach :=
  each ((reshSects l m).filter fun s => s.stype != 2 && s.stype != 16)
    (fun s t => loadSect true (tick m + 8192) s.stype (sectBytes l s) t)
    (storeSects l (setEvIf (forcedRemoval l m) GCTL_STATE_EVENTS.forced_disable m))

/-- A reshuffle without banks, register writes and anchors, whose checks pass on the state `u` that it leads to, applies. -/
theorem reshApply_sections {stg : Mach → Mach} {l : List Byte} {m u : Mach}
    (hu : refreshLims (forcedOff l m (stg (reshSections l m))) = u)
    (hbank : sectFor l 8 (fget CLK_STATUS.plan m + 1) = []) (hreg : sectFor l 2 (fget CLK_STATUS.plan m + 1) = [])
    (hanchor : sectFor l 16 (fget CLK_STATUS.plan m + 1) = []) (hcontent : stateContent true l u = none)
    (hbudget : reshBudget l u = none) :
    reshApply stg l m = .ok (setEv IMG_EVENTS.load_done (setIdent (reshIdent l m) u)) := by
  have hregs : regEntries [] = [] := rfl
  unfold reshSections at hu
  simp only [reshApply, hbank, hreg, hanchor, banksOk, List.isEmpty_nil, Bool.true_or, Bool.not_true, Bool.false_eq_true, ↓reduceIte,
    hregs, List.zipIdx_nil, regApply, hu, hcontent, hbudget]
  rfl

/-- A reshuffle that is due and applies leaves the frame table that its sections leave. -/
theorem ftab_reshuffle_ok {stg : Mach → Mach} {r : Resh} {m m1 m2 : Mach} (hr : m.img.resh = some r)
    (hdue : reshDue m.slotStart m = true)
    (hm1 : fset IMG_STATUS.reshuf_pending 0 (setImg (fun x => { x with resh := none }) m) = m1)
    (hstate : reshState r.bytes m1 = none) (happly : reshApply stg r.bytes m1 = .ok m2) :
    (reshuffle stg m).ftab = m2.ftab := by
  simp only [reshuffle, hr, hdue, hm1, hstate, happly, ↓reduceIte, ftab_pumpPlanned, ftab_endCommit, ftab_ite, ftab_storeResh, ite_self]

/-! ### The checks do not read the limits of the anchors

`refreshLims` writes values that depend on the interconnect's delays, which the model leaves open. -/

theorem rd_refreshLims {a : Nat} (h1 : a ≠ GCTL_ANCHOR_LIM_UL) (h2 : a ≠ GCTL_ANCHOR_LIM_DL) (m : Mach) :
    rd a (refreshLims m) = rd a m := by
  rw [refreshLims, rd_fset_other (f := GCTL_ANCHOR_LIM_UL.l_min) h1, rd_fset_other (f := GCTL_ANCHOR_LIM_UL.l_max) h1,
    rd_fset_other (f := GCTL_ANCHOR_LIM_DL.l_min) h2, rd_fset_other (f := GCTL_ANCHOR_LIM_DL.l_max) h2]

theorem fget_refreshLims {f : Fld} (h1 : f.reg ≠ GCTL_ANCHOR_LIM_UL) (h2 : f.reg ≠ GCTL_ANCHOR_LIM_DL) (m : Mach) :
    fget f (refreshLims m) = fget f m := by rw [fget, rd_refreshLims h1 h2, fget]

theorem upcoming_refreshLims {a : Nat} (h1 : a ≠ GCTL_ANCHOR_LIM_UL) (h2 : a ≠ GCTL_ANCHOR_LIM_DL) (m : Mach) :
    upcoming a (refreshLims m) = upcoming a m := by
  have hstage : staged a (refreshLims m) = staged a m := rfl
  rw [upcoming, rd_refreshLims h1 h2, hstage, upcoming]

theorem deckSect_refreshLims (ty : Nat) (m : Mach) : deckSect ty (refreshLims m) = deckSect ty m := by
  have himg : (refreshLims m).img = m.img := rfl
  simp only [deckSect, himg, fget_refreshLims (f := CLK_STATUS.plan) (by decide) (by decide)]

theorem streamPlaces_refreshLims (m : Mach) : streamPlaces (refreshLims m) = streamPlaces m := by
  simp only [streamPlaces, upcoming_refreshLims (a := BMU_CFG) (by decide) (by decide)]

theorem mtu_refreshLims (m : Mach) : mtu (refreshLims m) = mtu m := by
  rw [mtu, fget_refreshLims (by decide) (by decide), mtu]

theorem eplOk_refreshLims (m : Mach) : eplOk (refreshLims m) = eplOk m := by
  unfold eplOk fmtEntry ulIdx dlIdx
  rw [deckSect_refreshLims, streamPlaces_refreshLims, mtu_refreshLims]

theorem trafficOk_refreshLims (m : Mach) : trafficOk (refreshLims m) = trafficOk m := by
  unfold trafficOk iqTraffic fmtEntry ulIdx dlIdx fsKhz
  rw [deckSect_refreshLims, streamPlaces_refreshLims, upcoming_refreshLims (by decide) (by decide),
    fget_refreshLims (by decide) (by decide)]

/-- R63: an anchor of 0 is within any limits. -/
theorem limsOk_zero (m : Mach) : limsOk 0 0 m = true := by simp [limsOk, anchorOk]

/-! ### The state, and its way through the boundary -/

/-- A reshuffle image whose directory names one section, a frame table (type 4) of no bytes, for both plans. -/
def frameImage : List Byte :=
  List.replicate 20 0#8 ++ [1#8] ++ List.replicate 43 0#8 ++ [4#8] ++ List.replicate 15 0#8

/-- A deck's link section: every stream uses format 0, of 16 bits and 20 blocks to a message (R380). -/
def linkSection : List Byte := [16#8, 20#8] ++ List.replicate 702 0#8

/-- A device in STANDBY, in the first of the two slots of its frame: `frameImage` waits for the slot boundary, and the value 1, BOOT,
is staged for GCTL_DEV_STATE. -/
def gridMach : Mach :=
  let frame : FrameTab := { slots := [{}, { start := 1024 }] }
  let img : ImgSt := { resh := some ⟨frameImage, false, 0⟩, deck := [(24, linkSection)] }
  let mesh : MeshSt := { synDone := some (0, 1) }
  let base : Mach := { stage := [(GCTL_DEV_STATE, some 1#32)], ftab := frame, img := img, mesh := mesh }
  fset GCTL_DEV_STATE.state 3 (wr BMU_CFG 0xFF0#32 base)

/-- The first slot has ended, the position has moved to the second, and the boundary begins. -/
def gridHeld : Mach := { gridMach with tod := 2048, slot := 1, slotStart := 1024, evHold := some [] }

/-- What was staged has applied: the device is in BOOT, and its frame timing is stopped. -/
def gridStopped : Mach := { gridHeld with regs := [(BMU_CFG, 0xFF0#32)], stage := [] }

/-- The reshuffle is taken. -/
def gridTaken : Mach := { gridStopped with img := { gridStopped.img with resh := none } }

/-- Its frame table is in force at once, as the timing is stopped (R415). -/
def gridLoaded : Mach := { gridTaken with ftab := parseFrame [] }

theorem timingOn_gridMach : timingOn gridMach = true := by decide

theorem lastSlot_gridMach : lastSlot gridMach = false := by decide

theorem holdEvents_gridMach : holdEvents (moveSlot (slotEnds gridMach)) = gridHeld := by
  have hends : slotEnds gridMach = { gridMach with tod := 2048 } := by decide +kernel
  rw [hends]
  decide +kernel

theorem applyStaged_gridHeld : applyStaged gridHeld = gridStopped := by
  have hanchor : takeStage GCTL_ANCHOR_DL (applyAnchor .dl) (takeStage GCTL_ANCHOR_UL (applyAnchor .ul) gridHeld) = gridHeld := by
    decide +kernel
  have hquads : ∀ q ∈ quads4, applyQuadUnits q gridHeld = gridHeld := by decide +kernel
  have hbmu : takeStage BMU_CFG applyBmuCfg gridHeld = gridHeld := by decide +kernel
  have hrest : applyRest (fun _ => true) gridHeld = gridStopped := by decide +kernel
  rw [applyStaged, hanchor, each_fixed hquads, hbmu, hrest]

theorem applyStaged_gridLoaded : applyStaged gridLoaded = gridLoaded := by
  have hanchor :
      takeStage GCTL_ANCHOR_DL (applyAnchor .dl) (takeStage GCTL_ANCHOR_UL (applyAnchor .ul) gridLoaded) = gridLoaded := by
    decide +kernel
  have hquads : ∀ q ∈ quads4, applyQuadUnits q gridLoaded = gridLoaded := by decide +kernel
  have hbmu : takeStage BMU_CFG applyBmuCfg gridLoaded = gridLoaded := by decide +kernel
  have hrest : applyRest (fun _ => true) gridLoaded = gridLoaded := by decide +kernel
  rw [applyStaged, hanchor, each_fixed hquads, hbmu, hrest]

/-- The state that the reshuffle leads to, before the limits of the anchors follow. -/
theorem forcedOff_gridTaken :
    forcedOff frameImage gridTaken (applyStaged (reshSections frameImage gridTaken)) = gridLoaded := by
  have hsects : reshSections frameImage gridTaken = gridLoaded := by decide +kernel
  rw [hsects, applyStaged_gridLoaded]
  decide +kernel

theorem stateContent_gridLoaded : stateContent true frameImage (refreshLims gridLoaded) = none := by
  have hepl : eplOk gridLoaded = true := by decide +kernel
  simp [stateContent, eplOk_refreshLims, hepl, errIf]

theorem reshBudget_gridLoaded : reshBudget frameImage (refreshLims gridLoaded) = none := by
  have hdemand : firstErr (imgSects frameImage)
      (fun s => errIf (s.stype == 15 && !demandOk (sectBytes frameImage s)) ⟨9, s.idx, 0, false⟩) = none := by decide +kernel
  have hul : upcoming GCTL_ANCHOR_UL gridLoaded = 0#32 := by decide +kernel
  have hdl : upcoming GCTL_ANCHOR_DL gridLoaded = 0#32 := by decide +kernel
  have hlims : limsOk (upcoming GCTL_ANCHOR_UL (refreshLims gridLoaded)).toNat
      (upcoming GCTL_ANCHOR_DL (refreshLims gridLoaded)).toNat (refreshLims gridLoaded) = true := by
    rw [upcoming_refreshLims (by decide) (by decide), upcoming_refreshLims (by decide) (by decide), hul, hdl]
    exact limsOk_zero _
  have htraffic : trafficOk gridLoaded = true := by decide +kernel
  simp only [reshBudget, hdemand, hlims, trafficOk_refreshLims, htraffic]
  rfl

theorem reshApply_gridTaken : ∃ u, reshApply applyStaged frameImage gridTaken = .ok u ∧ u.ftab = parseFrame [] := by
  refine ⟨_, reshApply_sections rfl (by decide +kernel) (by decide +kernel) (by decide +kernel) ?_ ?_, ?_⟩
  · rw [forcedOff_gridTaken]; exact stateContent_gridLoaded
  · rw [forcedOff_gridTaken]; exact reshBudget_gridLoaded
  · rw [ftab_setEv, ftab_setIdent, ftab_refreshLims, forcedOff_gridTaken]; rfl

/-- The boundary brings the table of `frameImage`. -/
theorem ftab_boundary_gridMach : (boundary gridMach).ftab = parseFrame [] := by
  obtain ⟨u, happly, hu⟩ := reshApply_gridTaken
  have hdue : reshDue gridStopped.slotStart gridStopped = true := by decide +kernel
  have htaken : fset IMG_STATUS.reshuf_pending 0 (setImg (fun x => { x with resh := none }) gridStopped) = gridTaken := by
    decide +kernel
  have hstate : reshState frameImage gridTaken = none := by decide +kernel
  rw [boundary, lastSlot_gridMach, ftab_slotStarts_inFrame, holdEvents_gridMach, applyStaged_gridHeld,
    ftab_reshuffle_ok (r := ⟨frameImage, false, 0⟩) rfl hdue htaken hstate happly, hu]

theorem exec_slotBoundary (s : State) : exec .slotBoundary s = .next (s.withM (slotBoundary s.m)) := rfl

/-- Refutes O29: its second clause, a boundary inside a frame that keeps the table, says so of every state, one with a value staged for
GCTL_DEV_STATE among them. No host write stages one, but where it stands it applies first and stops the timing, so that the frame section
of a reshuffle at the same boundary replaces the table at once. -/
theorem not_slotBoundariesMoveTheGrid : ¬ Obligations.SlotBoundariesMoveTheGrid := by
  intro h
  obtain ⟨-, hinFrame, -⟩ := h ⟨gridMach, []⟩
  obtain ⟨⟨t, hexec, -, -, -, hkept, -⟩, -⟩ := hinFrame timingOn_gridMach lastSlot_gridMach
  rw [exec_slotBoundary, slotBoundary, if_pos timingOn_gridMach] at hexec
  have ht : boundary gridMach = t := next_withM_inj hexec
  rw [← ht, ftab_boundary_gridMach] at hkept
  have hother : parseFrame [] ≠ gridMach.ftab := by decide +kernel
  exact hother hkept

end Sys2Proof.Machine

/-! SUPPORT. What an operation keeps, composed: of the stores, of the registers, of a field; and what the sticky events leave of the
hidden state. -/

namespace Sys2Proof.Machine

/-! ### What is kept, composed -/

theorem storesKept.refl (m : Mach) : storesKept m m := ⟨rfl, rfl, rfl, rfl⟩

theorem storesKept.trans {m m' m'' : Mach} (h : storesKept m m') (h' : storesKept m' m'') : storesKept m m'' :=
  ⟨h'.1.trans h.1, h'.2.1.trans h.2.1, h'.2.2.1.trans h.2.2.1, h'.2.2.2.trans h.2.2.2⟩

theorem storesKept_setEv (f : Fld) (m : Mach) : storesKept m (setEv f m) :=
  ⟨res_setEv f m, stage_setEv f m, nvm_setEv f m, tiles_setEv f m⟩

theorem regsKept.refl (l : List Nat) (m : Mach) : regsKept l m m := fun _ _ => rfl

theorem regsKept.trans {l : List Nat} {m m' m'' : Mach} (h : regsKept l m m') (h' : regsKept l m' m'') : regsKept l m m'' :=
  fun a ha => (h' a ha).trans (h a ha)

theorem regsKept.mono {l l' : List Nat} {m m' : Mach} (h : regsKept l m m') (hl : l ⊆ l') : regsKept l' m m' :=
  fun a ha => h a fun q => ha (hl q)

theorem regsKept_wr (a : Nat) (v : W) (m : Mach) : regsKept [a] m (wr a v m) :=
  fun _ hb => rd_wr_other (fun q => hb (List.mem_singleton.2 q)) v m

theorem regsKept_setEv (f : Fld) (m : Mach) : regsKept [f.reg, HLT_LOG_WPTR, HLT_EVENTS] m (setEv f m) := by
  intro a ha
  simp only [List.mem_cons, List.not_mem_nil, or_false, not_or] at ha
  exact rd_setEv ha.1 ha.2.1 ha.2.2 m

theorem regsKept_each {α : Type} {k : List Nat} {l : List α} {f : α → Mach → Mach} (h : ∀ a ∈ l, ∀ m, regsKept k m (f a m))
    (m : Mach) : regsKept k m (each l f m) :=
  each_inv (regsKept k m) l f (fun a ha _ hs => hs.trans (h a ha _)) m (.refl k m)

/-- A field of a register that is kept reads as before. -/
theorem regsKept.fget {l : List Nat} {m m' : Mach} (h : regsKept l m m') {f : Fld} (hf : f.reg ∉ l) : fget f m' = fget f m := by
  rw [Machine.fget, h f.reg hf, Machine.fget]

theorem regsKept.fon {l : List Nat} {m m' : Mach} (h : regsKept l m m') {f : Fld} (hf : f.reg ∉ l) : fon f m' = fon f m := by
  rw [Machine.fon, h.fget hf, Machine.fon]

theorem regsKept.timingOn {l : List Nat} {m m' : Mach} (h : regsKept l m m') (hl : GCTL_DEV_STATE ∉ l) :
    timingOn m' = timingOn m := by
  rw [Machine.timingOn, devState, h.fget hl, Machine.timingOn, devState]

/-! ### Sticky events -/

@[simp] theorem inb_setEv (f : Fld) (m : Mach) : (setEv f m).inb = m.inb := by
  obtain ⟨_, _, _, _, _, _, _, h⟩ := setEv_frame f m; rw [h]
@[simp] theorem outb_setEv (f : Fld) (m : Mach) : (setEv f m).outb = m.outb := by
  obtain ⟨_, _, _, _, _, _, _, h⟩ := setEv_frame f m; rw [h]
@[simp] theorem rx_setEv (f : Fld) (m : Mach) : (setEv f m).rx = m.rx := by
  obtain ⟨_, _, _, _, _, _, _, h⟩ := setEv_frame f m; rw [h]
@[simp] theorem tx_setEv (f : Fld) (m : Mach) : (setEv f m).tx = m.tx := by
  obtain ⟨_, _, _, _, _, _, _, h⟩ := setEv_frame f m; rw [h]
@[simp] theorem ulTx_setEv (f : Fld) (m : Mach) : (setEv f m).ulTx = m.ulTx := by
  obtain ⟨_, _, _, _, _, _, _, h⟩ := setEv_frame f m; rw [h]

/-- A sticky event leaves a field alone that it does not meet, outside the log's two registers. -/
theorem fget_setEv_other {f g : Fld} (h : f.lo + f.w ≤ 32) (hd : g.reg ≠ f.reg ∨ f.lo + f.w ≤ g.lo ∨ g.lo + g.w ≤ f.lo)
    (h1 : g.reg ≠ HLT_LOG_WPTR) (h2 : g.reg ≠ HLT_EVENTS) (m : Mach) : fget g (setEv f m) = fget g m := by
  have hset : fget g (fset f 1 m) = fget g m := fget_fset_other h hd 1 m
  have hlog : ∀ e, fget g (logPut e (fset f 1 m)) = fget g m := fun e => by rw [fget, rd_logPut h1 h2, ← fget, hset]
  unfold setEv setEvDie
  split
  · rfl
  · dsimp only
    split
    · exact hlog _
    · rw [fget, rd_summaryRise]; exact hlog _

/-! ### Fields of a masked word -/

/-- A field whose bits a mask keeps. -/
theorem wfld_and_mask {k : W} {lo w : Nat} (h : k.extractLsb' lo w = BitVec.allOnes w) (v : W) :
    wfld (v &&& k) lo w = wfld v lo w := by
  rw [wfld, BitVec.extractLsb'_and, h, BitVec.and_allOnes, wfld]

end Sys2Proof.Machine

/-! SUPPORT. Stopped domain clocks (R44). -/

namespace Sys2Proof.Machine

theorem exec_domainClockStop (d : Domain) (s : State) :
    exec (.domainClockStop d) s = .next (s.withM (freezeDom (domKey d) s.m)) := rfl

theorem exec_bridgeFlush (d : Domain) (s : State) : exec (.bridgeFlush d) s = .next (s.withM (thawDom (domKey d) s.m)) := rfl

theorem freezeDom_frozen {d : Nat} {m : Mach} (h : d ∈ m.frozen) : freezeDom d m = m := by simp [freezeDom, h]

theorem freezeDom_running {d : Nat} {m : Mach} (h : d ∉ m.frozen) : freezeDom d m = { m with frozen := d :: m.frozen } := by
  simp [freezeDom, h]

theorem thawDom_running {d : Nat} {m : Mach} (h : d ∉ m.frozen) : thawDom d m = m := by simp [thawDom, h]

theorem thawDom_frozen {d : Nat} {m : Mach} (h : d ∈ m.frozen) :
    thawDom d m = addFlush d { flushBridges d m with frozen := (flushBridges d m).frozen.filter (· != d) } := by
  simp [thawDom, h]

/-- A flush touches the bridges, the entries being filled and the samples that wait for their deadline. -/
theorem flushBridges_frame (d : Nat) (m : Mach) :
    ∃ i o a x, flushBridges d m = { m with inb := i, outb := o, asmU := a, dlRx := x } := by
  have hin : ∃ i, each (domIn d) (fun k s => setIn k [] s) m = { m with inb := i } :=
    each_inv (fun s => ∃ i, s = { m with inb := i }) _ _ (by rintro k - _ ⟨i, rfl⟩; exact ⟨_, rfl⟩) m ⟨m.inb, rfl⟩
  obtain ⟨i, hi⟩ := hin
  have hout : ∃ o a, each (domOut d) clearOut { m with inb := i } = { m with inb := i, outb := o, asmU := a } :=
    each_inv (fun s => ∃ o a, s = { m with inb := i, outb := o, asmU := a }) _ _
      (by rintro k - _ ⟨o, a, rfl⟩; exact ⟨_, _, rfl⟩) _ ⟨m.outb, m.asmU, rfl⟩
  obtain ⟨o, a, ho⟩ := hout
  simp only [flushBridges, hi, ho]
  split
  · exact ⟨_, _, _, _, rfl⟩
  · exact ⟨_, _, _, m.dlRx, rfl⟩

theorem getIn_setIn_other {k j : Nat} (h : j ≠ k) (x : List BEntry) (m : Mach) : getIn j (setIn k x m) = getIn j m := by
  simp [getIn, setIn, tabGet_tabPut_other _ _ _ h]

/-- Every bridge of a list that is emptied is empty. -/
theorem getIn_each_setIn_nil {k : Nat} {l : List Nat} (h : k ∈ l) (m : Mach) :
    getIn k (each l (fun j s => setIn j [] s) m) = [] := by
  have hstays : ∀ (l : List Nat) (m : Mach), getIn k m = [] → getIn k (each l (fun j s => setIn j [] s) m) = [] := fun l m hm =>
    each_inv (fun s => getIn k s = []) l _ (fun j _ s hs => by
      by_cases hj : k = j
      · rw [hj, getIn_setIn_same]
      · rw [getIn_setIn_other hj, hs]) m hm
  induction l generalizing m with
  | nil => exact absurd h List.not_mem_nil
  | cons j l ih =>
    rcases List.mem_cons.1 h with rfl | hk
    · exact hstays l _ (getIn_setIn_same k [] m)
    · exact ih hk _

/-- R44: the flush empties the domain's input bridges. -/
theorem getIn_flushBridges {d k : Nat} (h : k ∈ domIn d) (m : Mach) : getIn k (flushBridges d m) = [] := by
  have hout : ∀ s, (each (domOut d) clearOut s).inb = s.inb := each_keeps Mach.inb _ _ fun _ _ _ => rfl
  have hin := getIn_each_setIn_nil h m
  rw [getIn, ← hout] at hin
  unfold flushBridges
  dsimp only
  split <;> exact hin

theorem addFlush_frame (d : Nat) (m : Mach) : ∃ f, addFlush d m = { m with flush := f } ∧ d ∈ f := by
  unfold addFlush
  split
  · next h => exact ⟨m.flush, rfl, List.contains_iff_mem.1 h⟩
  · exact ⟨_, rfl, List.mem_cons_self⟩

/-- Settles O28: the stop marks the domain; its return flushes the bridges. -/
theorem stoppedClocksFreezeBridges : Obligations.StoppedClocksFreezeBridges := by
  intro s d
  refine ⟨fun h => ?_, fun h => ?_, fun h => ?_, fun h => ⟨_, exec_bridgeFlush d s, ?_⟩⟩
  · rw [exec_domainClockStop, freezeDom_running h]
  · rw [exec_domainClockStop, freezeDom_frozen h]
  · rw [exec_bridgeFlush, thawDom_running h]
  · have hempty : ∀ k ∈ domIn (domKey d), getIn k (flushBridges (domKey d) s.m) = [] := fun k hk => getIn_flushBridges hk s.m
    obtain ⟨i, o, a, x, hflush⟩ := flushBridges_frame (domKey d) s.m
    rw [thawDom_frozen h]
    rw [hflush] at hempty ⊢
    obtain ⟨f, hadd, hmem⟩ := addFlush_frame (domKey d)
      { s.m with inb := i, outb := o, asmU := a, dlRx := x, frozen := s.m.frozen.filter (· != domKey d) }
    rw [hadd]
    exact ⟨by simp, hmem, hempty, rfl, .refl s.m⟩

end Sys2Proof.Machine

/-! SUPPORT. The voltage request (R55 to R58). -/

namespace Sys2Proof.Machine

theorem exec_avsCfgWrite {v : W} {s : State} (h : reach GCTL_AVS_CFG s.m = true) :
    exec (.avsCfgWrite v) s = .next (s.withM (avsCfgWrite v s.m)) := by
  change answer s (gate GCTL_AVS_CFG (avsCfgWrite v) s.m) = _
  rw [gate_reach h]
  rfl

/-! ### Clamping -/

theorem clampN_eq {lo hi : Nat} (h : lo ≤ hi) (x : Nat) : clampN lo hi x = min hi (max lo x) := by
  unfold clampN
  split
  · omega
  · split <;> omega

theorem avsFloor_range (m : Mach) : 24 ≤ avsFloor m ∧ avsFloor m ≤ 56 := by
  rw [avsFloor, clampN_eq (by decide)]
  omega

theorem avsCeil_range (m : Mach) : 24 ≤ avsCeil m ∧ avsCeil m ≤ 56 := by
  rw [avsCeil, clampN_eq (by decide)]
  omega

theorem avsFloor_of_rd {m m' : Mach} (h : rd GCTL_AVS_CFG m' = rd GCTL_AVS_CFG m) : avsFloor m' = avsFloor m := by
  have hrd : rd GCTL_AVS_CFG.floor.reg m' = rd GCTL_AVS_CFG.floor.reg m := h
  rw [avsFloor, avsFloor, fget, hrd, fget]

theorem avsCeil_of_rd {m m' : Mach} (h : rd GCTL_AVS_CFG m' = rd GCTL_AVS_CFG m) : avsCeil m' = avsCeil m := by
  have hrd : rd GCTL_AVS_CFG.ceil.reg m' = rd GCTL_AVS_CFG.ceil.reg m := h
  rw [avsCeil, avsCeil, fget, hrd, fget]

/-! ### What a request leaves -/

/-- The registers that a voltage request may change. -/
def avsRegs : List Nat := [GCTL_AVS_STATUS, GCTL_CORE_STATUS]

theorem refreshLadder_keeps (m : Mach) : regsKept avsRegs m (refreshLadder m) := by
  intro a ha
  simp only [avsRegs, List.mem_cons, List.not_mem_nil, or_false, not_or] at ha
  rw [refreshLadder, rd_fset_other (f := GCTL_CORE_STATUS.ladder) ha.2, fsetB, rd_fset_other (f := GCTL_AVS_STATUS.at_ceil) ha.1, fsetB,
    rd_fset_other (f := GCTL_AVS_STATUS.at_floor) ha.1]

/-- A field that the ladder code and the request's flags do not meet. -/
theorem fget_refreshLadder {f : Fld} (h : f.reg ≠ GCTL_CORE_STATUS ∨ f.lo + f.w ≤ 13) (h' : f.reg ≠ GCTL_AVS_STATUS ∨ f.lo + f.w ≤ 16)
    (m : Mach) : fget f (refreshLadder m) = fget f m := by
  rw [refreshLadder, fget_fset_other (f := GCTL_CORE_STATUS.ladder) (by decide) (h.imp_right .inr), fsetB,
    fget_fset_other (f := GCTL_AVS_STATUS.at_ceil) (by decide) (h'.imp_right .inr), fsetB,
    fget_fset_other (f := GCTL_AVS_STATUS.at_floor) (by decide) (h'.imp_right fun q => .inr (by change _ ≤ 17; omega))]

theorem avsRequest_frame (c : Nat) (m : Mach) : ∃ r o, avsRequest c m = { m with regs := r, out := o } := by
  unfold avsRequest
  dsimp only
  split
  · exact ⟨_, _, rfl⟩
  · exact ⟨_, m.out, rfl⟩

@[simp] theorem lad_avsRequest (c : Nat) (m : Mach) : (avsRequest c m).lad = m.lad := by
  obtain ⟨_, _, h⟩ := avsRequest_frame c m; rw [h]

theorem storesKept_avsRequest (c : Nat) (m : Mach) : storesKept m (avsRequest c m) := by
  obtain ⟨_, _, h⟩ := avsRequest_frame c m; rw [h]; exact .refl m

theorem avsRequest_keeps (c : Nat) (m : Mach) : regsKept avsRegs m (avsRequest c m) := by
  unfold avsRequest
  dsimp only
  split
  · refine regsKept.trans (fun a ha => ?_) (refreshLadder_keeps _)
    rw [rd_send]
    exact rd_fset_other (f := GCTL_AVS_STATUS.req_code) (fun q => ha (by rw [q]; decide)) _ m
  · exact refreshLadder_keeps m

/-- A field that neither the request nor what follows it meets. -/
theorem fget_avsRequest {f : Fld} (h : f.reg ≠ GCTL_CORE_STATUS ∨ f.lo + f.w ≤ 13) (h' : f.reg ≠ GCTL_AVS_STATUS) (c : Nat) (m : Mach) :
    fget f (avsRequest c m) = fget f m := by
  unfold avsRequest
  dsimp only
  split
  · rw [fget_refreshLadder h (.inl h')]
    exact fget_fset_other_reg (f := GCTL_AVS_STATUS.req_code) h' _ m
  · exact fget_refreshLadder h (.inl h') m

/-- R55, R56: a device whose frame timing runs, with avs_en, requests the code within floor and ceil; any other keeps its request. -/
theorem req_avsRequest (c : Nat) (m : Mach) : fget GCTL_AVS_STATUS.req_code (avsRequest c m) =
    if timingOn m = true ∧ fon GCTL_AVS_CFG.avs_en m = true then clampN (avsFloor m) (avsCeil m) c
    else fget GCTL_AVS_STATUS.req_code m := by
  have hlad : ∀ s, fget GCTL_AVS_STATUS.req_code (refreshLadder s) = fget GCTL_AVS_STATUS.req_code s :=
    fget_refreshLadder (by decide) (by decide)
  have hlt : clampN (avsFloor m) (avsCeil m) c < 256 := by
    have hf := avsFloor_range m
    have hc := avsCeil_range m
    unfold clampN
    split
    · omega
    · split <;> omega
  unfold avsRequest
  dsimp only
  split
  · next h =>
    rw [if_pos ⟨h.1, h.2.1⟩, hlad]
    exact (fget_fset_same (f := GCTL_AVS_STATUS.req_code) (by decide) _ m).trans (Nat.mod_eq_of_lt hlt)
  · next h =>
    rw [hlad]
    split
    · next hon => exact (not_not.1 fun q => h ⟨hon.1, hon.2, q⟩).symm
    · rfl

/-! ### The write of GCTL_AVS_CFG (R58) -/

/-- The device with the written configuration, before the request follows. -/
def avsTaken (v : W) (m : Mach) : Mach := wr GCTL_AVS_CFG (v &&& 0x01FFFFFF#32) m

theorem avsCfgWrite_refused {v : W} (h : wfld v 8 8 < wfld v 0 8) (m : Mach) :
    avsCfgWrite v m = setEv GCTL_CORE_EVENTS.cfg_err m := if_pos h

theorem avsCfgWrite_taken {v : W} (h : wfld v 0 8 ≤ wfld v 8 8) (m : Mach) : avsCfgWrite v m = avsClamp (avsTaken v m) :=
  if_neg (Nat.not_lt.2 h)

theorem avsFloor_avsTaken (v : W) (m : Mach) : avsFloor (avsTaken v m) = min 56 (max 24 (wfld v 0 8)) := by
  have hfld : fget GCTL_AVS_CFG.floor (avsTaken v m) = wfld v 0 8 := by
    have hrd : rd GCTL_AVS_CFG.floor.reg (avsTaken v m) = v &&& 0x01FFFFFF#32 := rd_wr_same ..
    rw [fget, hrd]
    exact wfld_and_mask (by decide) v
  rw [avsFloor, hfld, clampN_eq (by decide)]

theorem avsCeil_avsTaken (v : W) (m : Mach) : avsCeil (avsTaken v m) = min 56 (max 24 (wfld v 8 8)) := by
  have hfld : fget GCTL_AVS_CFG.ceil (avsTaken v m) = wfld v 8 8 := by
    have hrd : rd GCTL_AVS_CFG.ceil.reg (avsTaken v m) = v &&& 0x01FFFFFF#32 := rd_wr_same ..
    rw [fget, hrd]
    exact wfld_and_mask (by decide) v
  rw [avsCeil, hfld, clampN_eq (by decide)]

theorem avsEn_avsTaken (v : W) (m : Mach) : fon GCTL_AVS_CFG.avs_en (avsTaken v m) = v.getLsbD 24 := by
  have hrd : rd GCTL_AVS_CFG (avsTaken v m) = v &&& 0x01FFFFFF#32 := rd_wr_same ..
  have hmask : (0x01FFFFFF#32).getLsbD 24 = true := by decide
  rw [GCTL_AVS_CFG.avs_en, fon_bit, hrd, BitVec.getLsbD_and, hmask, Bool.and_true]

/-- Settles O26: the written limits hold the request that follows them. -/
theorem voltageRequestStaysInItsLimits : Obligations.VoltageRequestStaysInItsLimits := by
  intro s v hreach
  rw [exec_avsCfgWrite hreach]
  refine ⟨fun h => by rw [avsCfgWrite_refused h], fun h => ⟨_, rfl, ?_⟩⟩
  rw [avsCfgWrite_taken h]
  have hkept : regsKept avsRegs (avsTaken v s.m) (avsClamp (avsTaken v s.m)) := avsRequest_keeps _ _
  have hcfg := hkept GCTL_AVS_CFG (by decide)
  have hfloor := (avsFloor_of_rd hcfg).trans (avsFloor_avsTaken v s.m)
  have hceil := (avsCeil_of_rd hcfg).trans (avsCeil_avsTaken v s.m)
  have hwr : regsKept [GCTL_AVS_CFG] s.m (avsTaken v s.m) := regsKept_wr _ _ _
  have hold : fget GCTL_AVS_STATUS.req_code (avsTaken v s.m) = fget GCTL_AVS_STATUS.req_code s.m := hwr.fget (by decide)
  have hreq : fget GCTL_AVS_STATUS.req_code (avsClamp (avsTaken v s.m)) =
      if timingOn s.m = true ∧ v.getLsbD 24 = true then
        clampN (min 56 (max 24 (wfld v 0 8))) (min 56 (max 24 (wfld v 8 8))) (fget GCTL_AVS_STATUS.req_code s.m)
      else fget GCTL_AVS_STATUS.req_code s.m := by
    rw [avsClamp, req_avsRequest, hwr.timingOn (by decide), avsEn_avsTaken, avsFloor_avsTaken, avsCeil_avsTaken, hold]
  rw [clampN_eq (by omega)] at hreq
  refine ⟨hcfg.trans (rd_wr_same ..), ?_, storesKept_avsRequest .., hfloor, hceil, fun ht hen => ?_, fun hlo hhi => ?_⟩
  · exact (hwr.mono (by decide)).trans (hkept.mono (by decide))
  · rw [hfloor, hceil, hreq, if_pos ⟨ht, hen⟩]
    omega
  · rw [hreq]
    split <;> omega

end Sys2Proof.Machine

/-! SUPPORT. The slack monitor and the first step of the ladder (R46 to R57). -/

namespace Sys2Proof.Machine

theorem exec_slackThrWrite {v : W} {s : State} (h : reach GCTL_SLACK_THR s.m = true) :
    exec (.slackThrWrite v) s = .next (s.withM (slackThrWrite v s.m)) := by
  change answer s (gate GCTL_SLACK_THR (slackThrWrite v) s.m) = _
  rw [gate_reach h]
  rfl

theorem exec_slackWindowEnd {obs : List PipeObs} (h : pipesOk obs = true) (s : State) :
    exec (.slackWindowEnd obs) s = .next (s.withM (slackWindowEnd obs s.m)) := by
  change answerIf (pipesOk obs) s (slackWindowEnd obs s.m) = _
  rw [h]
  rfl

theorem exec_avsRepeat (s : State) : exec .avsRepeat s = .next (s.withM (avsRepeat s.m)) := rfl

theorem exec_avsNoresp (s : State) : exec .avsNoresp s = .next (s.withM (avsNoresp s.m)) := rfl

theorem avsRepeat_core {m : Mach} (hp : m.power = .coreRun) (hd : devState m ≠ 7) :
    avsRepeat m = send (.avs (avsFrame (fget GCTL_AVS_STATUS.req_code m))) m := if_pos ⟨.inr (.inr hp), hd⟩

/-! ### The slack values -/

/-- The lowest slack and its pipeline are (100, 0) or those of an element. -/
theorem lowest_cases (l : List (Nat × Nat)) : lowest l = (100, 0) ∨ ∃ p ∈ l, lowest l = (p.2, p.1) := by
  have hfold : ∀ (r : List (Nat × Nat)) (o : Nat × Nat),
      r.foldl (fun o p => if p.2 < o.1 then (p.2, p.1) else o) o = o ∨
        ∃ p ∈ r, r.foldl (fun o p => if p.2 < o.1 then (p.2, p.1) else o) o = (p.2, p.1) := by
    intro r
    induction r with
    | nil => exact fun o => .inl rfl
    | cons q r ih =>
      intro o
      rcases ih (if q.2 < o.1 then (q.2, q.1) else o) with h | ⟨p, hp, h⟩
      · rw [List.foldl_cons, h]
        split
        · exact .inr ⟨q, List.mem_cons_self, rfl⟩
        · exact .inl rfl
      · exact .inr ⟨p, List.mem_cons_of_mem _ hp, h⟩
  match l with
  | [] => exact .inl rfl
  | (i, s) :: r =>
    rcases hfold r (s, i) with h | ⟨p, hp, h⟩
    · exact .inr ⟨(i, s), List.mem_cons_self, h⟩
    · exact .inr ⟨p, List.mem_cons_of_mem _ hp, h⟩

theorem mem_slackList {obs : List PipeObs} {m : Mach} {p : Nat × Nat} (h : p ∈ slackList obs m) :
    p.1 < obs.length ∧ p.2 ≤ 100 := by
  obtain ⟨⟨o, i⟩, hmem, hval⟩ := List.mem_filterMap.1 h
  have hi := (List.mem_zipIdx hmem).2.1
  dsimp only at hval
  split at hval
  · rw [← Option.some.inj hval]
    exact ⟨by omega, Nat.min_le_left ..⟩
  · exact absurd hval (by simp)

/-- R47: the shown values fit their fields. -/
theorem lowest_slackList_lt {obs : List PipeObs} (h : pipesOk obs = true) (m : Mach) :
    (lowest (slackList obs m)).1 < 256 ∧ (lowest (slackList obs m)).2 < 32 := by
  have hlen : obs.length = 17 := of_decide_eq_true h
  rcases lowest_cases (slackList obs m) with hl | ⟨p, hp, hl⟩
  · rw [hl]; decide
  · have hmem := mem_slackList hp
    rw [hl]
    dsimp only
    omega

/-! ### What the ladder leaves -/

/-- The stores and the shown slack are as they were. -/
def slackKept (m m' : Mach) : Prop :=
  storesKept m m' ∧ fget GCTL_CORE_STATUS.min_slack m' = fget GCTL_CORE_STATUS.min_slack m ∧
    fget GCTL_CORE_STATUS.min_pipe m' = fget GCTL_CORE_STATUS.min_pipe m

theorem slackKept.refl (m : Mach) : slackKept m m := ⟨.refl m, rfl, rfl⟩

theorem slackKept.trans {m m' m'' : Mach} (h : slackKept m m') (h' : slackKept m' m'') : slackKept m m'' :=
  ⟨h.1.trans h'.1, h'.2.1.trans h.2.1, h'.2.2.trans h.2.2⟩

theorem slackKept_lad (l : Ladder) (m : Mach) : slackKept m { m with lad := l } := .refl m

theorem slackKept_refreshLadder (m : Mach) : slackKept m (refreshLadder m) :=
  ⟨.refl m, fget_refreshLadder (by decide) (by decide) m, fget_refreshLadder (by decide) (by decide) m⟩

theorem slackKept_avsRequest (c : Nat) (m : Mach) : slackKept m (avsRequest c m) :=
  ⟨storesKept_avsRequest c m, fget_avsRequest (by decide) (by decide) c m, fget_avsRequest (by decide) (by decide) c m⟩

theorem slackKept_setEv {f : Fld} (h : f.reg = GCTL_CORE_EVENTS) (m : Mach) : slackKept m (setEv f m) := by
  have hkept : regsKept [GCTL_CORE_EVENTS, HLT_LOG_WPTR, HLT_EVENTS] m (setEv f m) := h ▸ regsKept_setEv f m
  exact ⟨storesKept_setEv f m, hkept.fget (by decide), hkept.fget (by decide)⟩

theorem slackKept_takeStep {s p : Nat} {m m' : Mach} (h : takeStep s p m = some m') : slackKept m m' := by
  unfold takeStep at h
  dsimp only at h
  split at h
  · rw [← Option.some.inj h]
    exact (slackKept_avsRequest _ m).trans (slackKept_setEv rfl _)
  · split at h
    · split at h
      · rw [← Option.some.inj h]
        exact slackKept_setEv (m := pushStep .acq m) rfl
      · exact absurd h (by simp)
    · split at h
      · split at h
        · rw [← Option.some.inj h]
          exact slackKept_setEv (m := pushStep (beamStep p) m) rfl
        · exact absurd h (by simp)
      · exact absurd h (by simp)

theorem rd_noteLow (a s : Nat) (m : Mach) : rd a (noteLow s m) = rd a m := rfl

theorem fget_noteLow (f : Fld) (s : Nat) (m : Mach) : fget f (noteLow s m) = fget f m := rfl

theorem noresp_noteLow (s : Nat) (m : Mach) : (noteLow s m).lad.noresp = m.lad.noresp := rfl

/-- The pipelines of step 4 are muted. -/
def muteAll (ps : List Nat) (m : Mach) : Mach := each ps (fun p s => setEv GCTL_CORE_EVENTS.mute (pushStep (.mute p) s)) m

theorem slackKept_muteAll (ps : List Nat) (m : Mach) : slackKept m (muteAll ps m) :=
  each_inv (slackKept m) ps _ (fun p _ s hs => hs.trans (slackKept_setEv (m := pushStep (.mute p) s) rfl)) m (.refl m)

theorem slackKept_ite {c : Prop} [Decidable c] {m a b : Mach} (ha : slackKept m a) (hb : slackKept m b) :
    slackKept m (if c then a else b) := by
  split
  · exact ha
  · exact hb

theorem slackKept_relax (l : List (Nat × Nat)) (m : Mach) : slackKept m (relax l m) := by
  unfold relax
  split
  · exact slackKept_ite (.refl m) (.refl m)
  · exact slackKept_ite (slackKept_avsRequest _ { m with lad := _ }) (.refl m)

theorem slackKept_runLadder (l : List (Nat × Nat)) (m : Mach) : slackKept m (runLadder l m) := by
  have hstep : slackKept m ((takeStep (lowest l).1 (lowest l).2 (noteLow (lowest l).1 m)).getD (noteLow (lowest l).1 m)) := by
    cases h : takeStep (lowest l).1 (lowest l).2 (noteLow (lowest l).1 m) with
    | none => exact .refl m
    | some u => exact slackKept_takeStep (m := noteLow (lowest l).1 m) h
  unfold runLadder
  split
  · exact .refl m
  · have hmute := fun ps => hstep.trans (slackKept_muteAll ps _)
    dsimp only
    split
    · exact hmute _
    · exact (hmute _).trans (slackKept_relax l _)

/-! ### Step 1 (R49, R56) -/

/-- Step 1 is taken: the request rises by one step, with avs_raise. -/
theorem takeStep_raise {s p : Nat} {m : Mach} (hs : s < fget GCTL_SLACK_THR.s_raise m) (he : exhausted1 m = false) :
    takeStep s p m =
      some (setEv GCTL_CORE_EVENTS.avs_raise (avsRequest (fget GCTL_AVS_STATUS.req_code m + avsStep m) m)) := if_pos ⟨hs, he⟩

theorem exhausted1_eq_false {m : Mach} (hen : fon GCTL_AVS_CFG.avs_en m = true) (hreq : fget GCTL_AVS_STATUS.req_code m < avsCeil m)
    (hresp : m.lad.noresp = false) : exhausted1 m = false := by
  simp [exhausted1, hen, hresp, hreq]

theorem fget_muteAll {f : Fld} (h : f.reg ≠ GCTL_CORE_EVENTS ∨ f.lo + f.w ≤ 3) (h1 : f.reg ≠ HLT_LOG_WPTR) (h2 : f.reg ≠ HLT_EVENTS)
    (ps : List Nat) (m : Mach) : fget f (muteAll ps m) = fget f m :=
  each_keeps (fget f) ps _
    (fun p _ s => fget_setEv_other (f := GCTL_CORE_EVENTS.mute) (by decide) (h.imp_right .inr) h1 h2 (pushStep (.mute p) s)) m

/-- The ladder over a window whose step is taken: of the registers, only what step 4 shows changes after it. -/
theorem runLadder_step {l : List (Nat × Nat)} {m u : Mach} (hen : fon GCTL_SLACK_CFG.ladder_en m = true) (hl : l ≠ [])
    (hu : takeStep (lowest l).1 (lowest l).2 (noteLow (lowest l).1 m) = some u) :
    ∃ ps x, runLadder l m = { muteAll ps u with lad := x } := by
  have hempty : l.isEmpty = false := by simpa using hl
  refine ⟨muteSteps l u, { (muteAll (muteSteps l u) u).lad with rev := 0 }, ?_⟩
  simp only [runLadder, hen, hempty, hu]
  rfl

/-! ### The end of a window -/

/-- The registers that show a window. -/
def windowRegs : List Nat := GCTL_CORE_STATUS :: (List.range 17).map GCTL_SLACK_PIPE

theorem notePipe_frame (l : List (Nat × Nat)) (i : Nat) (m : Mach) : ∃ r h, notePipe l i m =
    { m with regs := r, lad := { m.lad with hist := h } } := by
  unfold notePipe
  dsimp only
  split <;> exact ⟨_, _, rfl⟩

theorem notePipe_keeps (l : List (Nat × Nat)) (i : Nat) (m : Mach) : regsKept [GCTL_SLACK_PIPE i] m (notePipe l i m) := by
  intro a ha
  have hne : a ≠ GCTL_SLACK_PIPE i := fun q => ha (List.mem_singleton.2 q)
  have hocc : rd a (fset (GCTL_SLACK_PIPE.occ_max i) (tabGet (fun _ => 0) m.lad.occ i) m) = rd a m := rd_fset_other hne _ m
  unfold notePipe
  dsimp only
  split <;> rw [rd_fset_other (f := GCTL_SLACK_PIPE.slack i) hne, rd_fset_other (f := GCTL_SLACK_PIPE.slack_min64 i) hne] <;>
    exact hocc

/-- The device with the window's values shown, before the ladder. -/
def windowShown (obs : List PipeObs) (m : Mach) : Mach :=
  let l := slackList obs m
  fset GCTL_CORE_STATUS.min_slack (lowest l).1
    (fset GCTL_CORE_STATUS.min_pipe (lowest l).2 (each (List.range 17) (notePipe l) m))

theorem windowShown_frame (obs : List PipeObs) (m : Mach) :
    ∃ r h, windowShown obs m = { m with regs := r, lad := { m.lad with hist := h } } := by
  have hpipes : ∃ r h, each (List.range 17) (notePipe (slackList obs m)) m = { m with regs := r, lad := { m.lad with hist := h } } :=
    each_inv (fun s => ∃ r h, s = { m with regs := r, lad := { m.lad with hist := h } }) _ _
      (by
        rintro i - _ ⟨r, h, rfl⟩
        obtain ⟨r', h', hn⟩ := notePipe_frame (slackList obs m) i { m with regs := r, lad := { m.lad with hist := h } }
        exact ⟨r', h', hn⟩) m ⟨m.regs, m.lad.hist, rfl⟩
  obtain ⟨r, h, hp⟩ := hpipes
  exact ⟨_, h, by rw [windowShown, hp]; rfl⟩

theorem windowShown_keeps (obs : List PipeObs) (m : Mach) : regsKept windowRegs m (windowShown obs m) := by
  have hpipes : regsKept windowRegs m (each (List.range 17) (notePipe (slackList obs m)) m) :=
    regsKept_each (fun i hi s => (notePipe_keeps _ i s).mono
      (List.cons_subset.2 ⟨List.mem_cons_of_mem _ (List.mem_map_of_mem hi), List.nil_subset _⟩)) m
  intro a ha
  have hne : a ≠ GCTL_CORE_STATUS := fun q => ha (q ▸ List.mem_cons_self)
  rw [windowShown, rd_fset_other (f := GCTL_CORE_STATUS.min_slack) hne, rd_fset_other (f := GCTL_CORE_STATUS.min_pipe) hne,
    hpipes a ha]

theorem min_windowShown {obs : List PipeObs} (h : pipesOk obs = true) (m : Mach) :
    fget GCTL_CORE_STATUS.min_slack (windowShown obs m) = (lowest (slackList obs m)).1 ∧
      fget GCTL_CORE_STATUS.min_pipe (windowShown obs m) = (lowest (slackList obs m)).2 := by
  obtain ⟨h1, h2⟩ := lowest_slackList_lt h m
  rw [windowShown, fget_fset_same (by decide), fget_fset_other (by decide) (by decide), fget_fset_same (by decide)]
  exact ⟨Nat.mod_eq_of_lt h1, Nat.mod_eq_of_lt h2⟩

theorem startOcc_frame (m : Mach) : ∃ x, startOcc m = { m with lad := x } :=
  each_inv (fun s => ∃ x, s = { m with lad := x }) _ _ (by rintro b - _ ⟨x, rfl⟩; exact ⟨_, rfl⟩) _ ⟨_, rfl⟩

/-- A window's end, as the ladder has left the device: only the ladder's hidden state and its code follow. -/
theorem slackWindowEnd_eq {obs : List PipeObs} {m : Mach} (h : timingOn m = true) :
    ∃ x, slackWindowEnd obs m = refreshLadder { runLadder (slackList obs m) (avsClamp (windowShown obs m)) with lad := x } := by
  obtain ⟨x, hx⟩ := startOcc_frame
    { runLadder (slackList obs m) (avsClamp (windowShown obs m)) with
      lad := { (runLadder (slackList obs m) (avsClamp (windowShown obs m))).lad with charged := [] } }
  exact ⟨x, by rw [slackWindowEnd, if_pos h]; exact congrArg refreshLadder hx⟩

theorem slackKept_slackWindowEnd {obs : List PipeObs} {m : Mach} (h : timingOn m = true) :
    slackKept (windowShown obs m) (slackWindowEnd obs m) := by
  obtain ⟨x, hx⟩ := slackWindowEnd_eq (obs := obs) h
  rw [hx]
  exact ((slackKept_avsRequest _ _).trans (slackKept_runLadder ..)).trans
    ((slackKept_lad x _).trans (slackKept_refreshLadder _))

/-- R49, R55: step 1 raises the request by one step, up to the ceiling. -/
theorem raise_request {m : Mach} (ht : timingOn m = true) (hen : fon GCTL_AVS_CFG.avs_en m = true)
    (hfloor : avsFloor m ≤ fget GCTL_AVS_STATUS.req_code m) (hceil : fget GCTL_AVS_STATUS.req_code m < avsCeil m) :
    fget GCTL_AVS_STATUS.req_code (avsRequest (fget GCTL_AVS_STATUS.req_code m + avsStep m) m) =
      min (avsCeil m) (fget GCTL_AVS_STATUS.req_code m + avsStep m) := by
  rw [req_avsRequest, if_pos ⟨ht, hen⟩, clampN_eq (by omega), Nat.max_eq_right (by omega)]

/-- R55: a request within floor and ceil stands. -/
theorem req_avsClamp {m : Mach} (hfloor : avsFloor m ≤ fget GCTL_AVS_STATUS.req_code m)
    (hceil : fget GCTL_AVS_STATUS.req_code m ≤ avsCeil m) :
    fget GCTL_AVS_STATUS.req_code (avsClamp m) = fget GCTL_AVS_STATUS.req_code m := by
  rw [avsClamp, req_avsRequest, clampN_eq (by omega), Nat.max_eq_right hfloor, Nat.min_eq_right hceil, ite_self]

/-- The device as step 1 finds it: the window is shown, the request lies within its limits, and the windows above s_lower are counted. -/
def ladderInput (obs : List PipeObs) (m : Mach) : Mach := noteLow (lowest (slackList obs m)).1 (avsClamp (windowShown obs m))

/-- Step 1 finds every register but the shown ones as it was before the window's end. -/
theorem ladderInput_keeps (obs : List PipeObs) (m : Mach) : regsKept (windowRegs ++ avsRegs) m (ladderInput obs m) := by
  intro a ha
  rw [List.mem_append, not_or] at ha
  rw [ladderInput, rd_noteLow, avsClamp, avsRequest_keeps _ _ a ha.2, windowShown_keeps obs m a ha.1]

theorem noresp_ladderInput (obs : List PipeObs) (m : Mach) : (ladderInput obs m).lad.noresp = m.lad.noresp := by
  obtain ⟨r, h, hshown⟩ := windowShown_frame obs m
  rw [ladderInput, noresp_noteLow, avsClamp, lad_avsRequest, hshown]

theorem req_ladderInput {m : Mach} (hfloor : avsFloor m ≤ fget GCTL_AVS_STATUS.req_code m)
    (hceil : fget GCTL_AVS_STATUS.req_code m ≤ avsCeil m) (obs : List PipeObs) :
    fget GCTL_AVS_STATUS.req_code (ladderInput obs m) = fget GCTL_AVS_STATUS.req_code m := by
  have hshown := windowShown_keeps obs m
  have hreq : fget GCTL_AVS_STATUS.req_code (windowShown obs m) = fget GCTL_AVS_STATUS.req_code m := hshown.fget (by decide)
  have hcfg := hshown GCTL_AVS_CFG (by decide)
  rw [← avsFloor_of_rd hcfg, ← hreq] at hfloor
  rw [← avsCeil_of_rd hcfg, ← hreq] at hceil
  rw [ladderInput, fget_noteLow, req_avsClamp hfloor hceil, hreq]

/-- A field that only step 1 changes reads at the window's end as step 1 has left it. -/
theorem fget_slackWindowEnd {obs : List PipeObs} {m u : Mach} (ht : timingOn m = true) (hl : slackList obs m ≠ [])
    (hlad : fon GCTL_SLACK_CFG.ladder_en m = true)
    (hu : takeStep (lowest (slackList obs m)).1 (lowest (slackList obs m)).2 (ladderInput obs m) = some u) {f : Fld}
    (h1 : f.reg ≠ GCTL_CORE_STATUS ∨ f.lo + f.w ≤ 13) (h2 : f.reg ≠ GCTL_AVS_STATUS ∨ f.lo + f.w ≤ 16)
    (h3 : f.reg ≠ GCTL_CORE_EVENTS ∨ f.lo + f.w ≤ 3) (h4 : f.reg ≠ HLT_LOG_WPTR) (h5 : f.reg ≠ HLT_EVENTS) :
    fget f (slackWindowEnd obs m) = fget f u := by
  have hclamp : regsKept avsRegs (windowShown obs m) (avsClamp (windowShown obs m)) := avsRequest_keeps _ _
  have hon : fon GCTL_SLACK_CFG.ladder_en (avsClamp (windowShown obs m)) = true := by
    rw [hclamp.fon (by decide), (windowShown_keeps obs m).fon (by decide)]; exact hlad
  have hx : ∀ (x : Ladder) (s : Mach), fget f { s with lad := x } = fget f s := fun _ _ => rfl
  obtain ⟨ps, x, hrun⟩ := runLadder_step hon hl hu
  obtain ⟨y, hend⟩ := slackWindowEnd_eq (obs := obs) ht
  rw [hend, hrun, fget_refreshLadder h1 h2, hx, hx, fget_muteAll h3 h4 h5]

/-- R49: a window whose lowest slack lies below s_raise raises the request where step 1 is not exhausted. -/
theorem slackWindowEnd_raises {obs : List PipeObs} {m : Mach} (ht : timingOn m = true) (hl : slackList obs m ≠ [])
    (hlad : fon GCTL_SLACK_CFG.ladder_en m = true) (hlow : (lowest (slackList obs m)).1 < fget GCTL_SLACK_THR.s_raise m)
    (hen : fon GCTL_AVS_CFG.avs_en m = true) (hceil : fget GCTL_AVS_STATUS.req_code m < avsCeil m)
    (hfloor : avsFloor m ≤ fget GCTL_AVS_STATUS.req_code m) (hresp : m.lad.noresp = false) :
    fon GCTL_CORE_EVENTS.avs_raise (slackWindowEnd obs m) = true ∧
      fget GCTL_AVS_STATUS.req_code (slackWindowEnd obs m) = min (avsCeil m) (fget GCTL_AVS_STATUS.req_code m + avsStep m) := by
  have hkept := ladderInput_keeps obs m
  have hreq := req_ladderInput hfloor hceil.le obs
  have hnoresp := (noresp_ladderInput obs m).trans hresp
  have hc := avsCeil_of_rd (hkept GCTL_AVS_CFG (by decide))
  have hf := avsFloor_of_rd (hkept GCTL_AVS_CFG (by decide))
  have hstep : avsStep (ladderInput obs m) = avsStep m := by rw [avsStep, hkept.fget (by decide), avsStep]
  have hen' : fon GCTL_AVS_CFG.avs_en (ladderInput obs m) = true := (hkept.fon (by decide)).trans hen
  have htake := takeStep_raise (m := ladderInput obs m) (p := (lowest (slackList obs m)).2)
    (by rw [hkept.fget (by decide)]; exact hlow) (exhausted1_eq_false hen' (by rw [hreq, hc]; exact hceil) hnoresp)
  constructor
  · rw [fon, fget_slackWindowEnd ht hl hlad htake (by decide) (by decide) (by decide) (by decide) (by decide)]
    exact fon_setEv rfl (by decide) (by decide) (by decide) _
  · rw [fget_slackWindowEnd ht hl hlad htake (by decide) (by decide) (by decide) (by decide) (by decide),
      fget_setEv_other (by decide) (by decide) (by decide) (by decide),
      raise_request ((hkept.timingOn (by decide)).trans ht) hen' (by rw [hf, hreq]; exact hfloor) (by rw [hc, hreq]; exact hceil),
      hc, hreq, hstep]

/-- Settles O27: each event's effect, read off its operation. -/
theorem slackAndVoltageEventsAct : Obligations.SlackAndVoltageEventsAct := by
  intro s
  refine ⟨fun v hreach => ?_, fun obs hobs ht => ⟨_, exec_slackWindowEnd hobs s, ?_⟩, fun hp hd => ?_, fun hcmp hno => ?_, fun h => ?_⟩
  · rw [exec_slackThrWrite hreach]
    exact ⟨fun h => by rw [slackThrWrite, if_pos h], fun h => by rw [slackThrWrite, if_neg h]⟩
  · obtain ⟨hstores, hslack, hpipe⟩ := slackKept_slackWindowEnd (obs := obs) ht
    obtain ⟨hs, hp⟩ := min_windowShown hobs s.m
    obtain ⟨r, h, hshown⟩ := windowShown_frame obs s.m
    rw [hshown] at hstores
    exact ⟨hslack.trans hs, hpipe.trans hp, slackWindowEnd_raises ht, hstores⟩
  · rw [exec_avsRepeat, avsRepeat_core hp hd]
  · rw [exec_avsNoresp, avsNoresp, hcmp, hno]
    rfl
  · have hquiet : (!monCompares s.m || avsMatches s.m) = true := by
      rcases h with h | h <;> simp [h]
    rw [exec_avsNoresp, avsNoresp, if_pos hquiet]

end Sys2Proof.Machine

/-! SUPPORT. What a front-end sequencer leaves of a receive path: its events reach the pins, the front-end bus and the couplers. -/

namespace Sys2Proof.Machine

/-- The stores, the receive paths and the registers of the paths are as they were. -/
def pathsKept (m m' : Mach) : Prop :=
  storesKept m m' ∧ (∀ n < 64, getRx n m' = getRx n m) ∧ ∀ a, a % 0x100000 < 0x4000 → a < 0xA00000 → rd a m' = rd a m

theorem pathsKept.refl (m : Mach) : pathsKept m m := ⟨.refl m, fun _ _ => rfl, fun _ _ _ => rfl⟩

theorem pathsKept.trans {m m' m'' : Mach} (h : pathsKept m m') (h' : pathsKept m' m'') : pathsKept m m'' :=
  ⟨h.1.trans h'.1, fun n hn => (h'.2.1 n hn).trans (h.2.1 n hn), fun a h1 h2 => (h'.2.2 a h1 h2).trans (h.2.2 a h1 h2)⟩

theorem pathsKept_each {α : Type} {l : List α} {f : α → Mach → Mach} (h : ∀ a m, pathsKept m (f a m)) (m : Mach) :
    pathsKept m (each l f m) :=
  each_inv (pathsKept m) l f (fun a _ _ hs => hs.trans (h a _)) m (.refl m)

/-- A register of no path. -/
def offPaths (a : Nat) : Prop := 0x4000 ≤ a % 0x100000 ∨ 0xA00000 ≤ a

theorem pathsKept_wr {a : Nat} (h : offPaths a) (v : W) (m : Mach) : pathsKept m (wr a v m) :=
  ⟨.refl m, fun _ _ => rfl, fun b h1 h2 => rd_wr_other (by rintro rfl; unfold offPaths at h; omega) v m⟩

theorem pathsKept_fset {f : Fld} (h : offPaths f.reg) (x : Nat) (m : Mach) : pathsKept m (fset f x m) := pathsKept_wr h _ m

theorem pathsKept_setEv {f : Fld} (h : offPaths f.reg) (m : Mach) : pathsKept m (setEv f m) := by
  refine ⟨storesKept_setEv f m, fun n _ => by rw [getRx, rx_setEv, getRx], fun a h1 h2 => rd_setEv ?_ ?_ ?_ m⟩
  · rintro rfl; unfold offPaths at h; omega
  · rintro rfl; exact absurd h2 (by decide)
  · rintro rfl; exact absurd h2 (by decide)

theorem pathsKept_setEvIf (b : Bool) {f : Fld} (h : offPaths f.reg) (m : Mach) : pathsKept m (setEvIf b f m) := by
  cases b
  · exact .refl m
  · exact pathsKept_setEv h m

theorem pathsKept_setFes (q : Nat) (x : Fes) (m : Mach) : pathsKept m (setFes q x m) := .refl m

theorem offPaths_fesStatus (q : Nat) : offPaths (QUAD_FES_STATUS q) :=
  .inl (by simp only [QUAD_FES_STATUS, quadBase]; omega)

theorem offPaths_fesEvents (q : Nat) : offPaths (QUAD_FES_EVENTS q) :=
  .inl (by simp only [QUAD_FES_EVENTS, quadBase]; omega)

theorem offPaths_coupler (o : Nat) : offPaths (QUAD_OBS_COUPLER o) :=
  .inl (by simp only [QUAD_OBS_COUPLER, obsBase, quadBase]; omega)

theorem offPaths_capCouplers (o c : Nat) : offPaths (if o < 4 then RES_CAP_CPL_LO c else RES_CAP_CPL_HI c) := by
  refine .inr ?_
  split
  · simp only [RES_CAP_CPL_LO]; omega
  · simp only [RES_CAP_CPL_HI]; omega

/-! ### The operations of a sequencer -/

theorem pathsKept_refreshFes (q : Nat) (m : Mach) : pathsKept m (refreshFes q m) := by
  have hset : ∀ (f : Fld) x s, f.reg = QUAD_FES_STATUS q → pathsKept s (fset f x s) := fun f x s hf =>
    pathsKept_fset (hf ▸ offPaths_fesStatus q) x s
  unfold refreshFes
  dsimp only
  refine pathsKept.trans ?_ (pathsKept_setEvIf _ (f := QUAD_FES_EVENTS.safe_forced q) (offPaths_fesEvents q) _)
  refine pathsKept.trans ?_ (pathsKept_setFes ..)
  exact (((hset (QUAD_FES_STATUS.pend q) _ _ rfl).trans (hset (QUAD_FES_STATUS.fcb_q q) _ _ rfl)).trans
    (hset (QUAD_FES_STATUS.fec q) _ _ rfl)).trans (hset (QUAD_FES_STATUS.forced q) _ _ rfl)

theorem pathsKept_queueFcb (q w due : Nat) (m : Mach) : pathsKept m (queueFcb q w due m) := by
  unfold queueFcb
  dsimp only
  split
  · exact (pathsKept_setFes q _ m).trans (pathsKept_refreshFes q _)
  · exact pathsKept_setEv (f := QUAD_FES_EVENTS.fcb_ovf q) (offPaths_fesEvents q) m

theorem pathsKept_spoilCap (o : Nat) (m : Mach) : pathsKept m (spoilCap o m) := by
  unfold spoilCap
  split
  · split <;> exact .refl m
  · exact .refl m

theorem pathsKept_couplerChanged (o : Nat) (m : Mach) : pathsKept m (couplerChanged o m) := by
  refine pathsKept_each (fun c s => ?_) m
  split
  · exact pathsKept_fset (offPaths_capCouplers o c) 1 s
  · exact .refl s

theorem getRx_setRx_other {k j : Nat} (h : j ≠ k) (x : RxSt) (m : Mach) : getRx j (setRx k x m) = getRx j m := by
  simp [getRx, setRx, tabGet_tabPut_other _ _ _ h]

theorem pathsKept_setRx_obs (o : Nat) (x : RxSt) (m : Mach) : pathsKept m (setRx (64 + o) x m) :=
  ⟨.refl m, fun _ hn => getRx_setRx_other (by omega) x m, fun _ _ _ => rfl⟩

theorem pathsKept_setCoupler (o n : Nat) (m : Mach) : pathsKept m (setCoupler o n m) := by
  have hwr := pathsKept_wr (offPaths_coupler (toObs o)) (BitVec.ofNat 32 (n % 64)) m
  unfold setCoupler
  dsimp only
  split
  · exact hwr
  · exact ((hwr.trans (pathsKept_setRx_obs ..)).trans (pathsKept_couplerChanged ..)).trans (pathsKept_spoilCap ..)

theorem pathsKept_runAct (q t kind mask value : Nat) (m : Mach) : pathsKept m (runAct q t kind mask value m) := by
  unfold runAct
  dsimp only
  split
  · exact (pathsKept_setFes q _ m).trans (pathsKept_refreshFes q _)
  · exact (pathsKept_setFes q _ m).trans (pathsKept_refreshFes q _)
  · exact pathsKept_queueFcb ..
  · split
    · exact pathsKept_setCoupler ..
    · exact (pathsKept_setCoupler ..).trans (pathsKept_queueFcb ..)

theorem pathsKept_schedAct (q b k : Nat) (m : Mach) : pathsKept m (schedAct q b k m) := by
  unfold schedAct
  dsimp only
  split
  · exact (pathsKept_setEv (f := QUAD_FES_EVENTS.act_late q) (offPaths_fesEvents q) m).trans (pathsKept_runAct ..)
  · split
    · exact (pathsKept_setFes q _ m).trans (pathsKept_refreshFes q _)
    · exact pathsKept_setEv (f := QUAD_FES_EVENTS.act_ovf q) (offPaths_fesEvents q) m

theorem pathsKept_enterState (q st b : Nat) (m : Mach) : pathsKept m (enterState q st b m) := by
  unfold enterState
  dsimp only
  exact ((pathsKept_fset (f := QUAD_FES_STATUS.state q) (offPaths_fesStatus q) st m).trans (pathsKept_setFes q _ _)).trans
    (pathsKept_each (fun k s => pathsKept_schedAct q b k s) _)

theorem pathsKept_fesEvent (q code b : Nat) (m : Mach) : pathsKept m (fesEvent q code b m) := by
  unfold fesEvent
  split
  · split
    · exact pathsKept_enterState ..
    · exact .refl m
  · exact .refl m

/-- R115, R243: an event that a path gives its quadrant's sequencer leaves the path alone. -/
theorem pathsKept_fesNow (q code : Nat) (m : Mach) : pathsKept m (fesNow q code m) := by
  unfold fesNow
  split
  · exact pathsKept_fesEvent ..
  · exact .refl m

end Sys2Proof.Machine

/-! SUPPORT. Converter samples, their beats in the input bridges, and the overload detector (R41, R102 to R104, R114, R115). -/

namespace Sys2Proof.Machine

theorem exec_adcSample (u : RxUnit) (c : BitVec 14) (s : State) :
    exec (.adcSample u c) s = .next (s.withM (adcSample u c s.m)) := rfl

theorem exec_inputBridgeWrite (b : InBridge) (k : Nat) (s : State) :
    exec (.inputBridgeWrite b k) s = .next (s.withM (inputBridgeWrite b k s.m)) := rfl

theorem exec_overloadWindowEnd (n : Fin 64) (s : State) :
    exec (.overloadWindowEnd n) s = .next (s.withM (overloadEnd n s.m)) := rfl

/-! ### One code of a converter -/

/-- The code that a unit's sample carries: 0 with the loopback at the digital point. -/
def sampleCode (u : RxUnit) (code : BitVec 14) (m : Mach) : Int :=
  if fget (GCTL_LOOPBACK.lb_q (rxQuad u)) m = 2 then 0 else code.toInt

/-- R114: the code marks its sample as overrange. -/
def marksOvr (u : RxUnit) (code : BitVec 14) (m : Mach) : Bool :=
  decide (sampleCode u code m = -8192 ∨ sampleCode u code m = 8191) && !gatedQ (rxQuad u) m

/-- R104, R111: the sample of a code. -/
def sampleOf (u : RxUnit) (code : BitVec 14) (m : Mach) : Sample :=
  if rxTag u m = .gap then { gapSample with ovr := marksOvr u code m }
  else { i := sampleCode u code m * 64, q := 0, st := rxTag u m, ovr := marksOvr u code m }

/-- The sample joins the beat being assembled. -/
def sampleJoined (u : RxUnit) (code : BitVec 14) (m : Mach) : Mach :=
  let x := getRx (rxKey u) m
  setRx (rxKey u) { x with asm := x.asm ++ [sampleOf u code m], settle := x.settle - 1, gapN := x.gapN - 1 } m

theorem sampleOf_tag (u : RxUnit) (code : BitVec 14) (m : Mach) : (sampleOf u code m).st = rxTag u m := by
  unfold sampleOf
  split
  · next h => exact h.symm
  · rfl

theorem sampleOf_q (u : RxUnit) (code : BitVec 14) (m : Mach) : (sampleOf u code m).q = 0 := by
  unfold sampleOf
  split <;> rfl

theorem sampleOf_i (u : RxUnit) (code : BitVec 14) (m : Mach) :
    (sampleOf u code m).i = if rxTag u m = .gap then 0 else sampleCode u code m * 64 := by
  unfold sampleOf
  split <;> rfl

theorem sampleOf_ovr (u : RxUnit) (code : BitVec 14) (m : Mach) : (sampleOf u code m).ovr = marksOvr u code m := by
  unfold sampleOf
  split <;> rfl

/-- The unit's count and its detector see the code (R114, R115). -/
def codeSeen (u : RxUnit) (code : BitVec 14) (m m1 : Mach) : Mach :=
  match u with
  | .path n =>
    if gatedQ (rxQuad u) m || fget (GCTL_LOOPBACK.lb_q (rxQuad u)) m == 2 then rxSkip n m1
    else rxWatch n (sampleCode u code m)
      (if marksOvr u code m then cnt (QUAD_RX_OVR_COUNT n) 1 0xFFFFFFFF m1 else m1)
  | .obs _ => m1

theorem adcSample_off {u : RxUnit} {m : Mach} (h : convOn u m = false) (c : BitVec 14) : adcSample u c m = m := by
  simp [adcSample, h]

theorem adcSample_on {u : RxUnit} {m : Mach} (h : convOn u m = true) (c : BitVec 14) : adcSample u c m =
    setEvIf (marksOvr u c m) (QUAD_RX_EVENTS.ovr u) (codeSeen u c m (sampleJoined u c m)) := by
  have hcode : (if (fget (GCTL_LOOPBACK.lb_q (rxQuad u)) m == 2) = true then 0 else c.toInt) = sampleCode u c m := by
    simp [sampleCode]
  unfold adcSample
  rw [h]
  dsimp only
  rw [hcode]
  cases u <;> rfl

/-- The registers that a sample of the unit may change. -/
def sampleRegs (u : RxUnit) : List Nat :=
  QUAD_RX_EVENTS u :: HLT_LOG_WPTR :: HLT_EVENTS :: (match u with
    | .path n => [QUAD_RX_OVR_COUNT n.val]
    | .obs _ => [])

theorem codeSeen_frame (u : RxUnit) (c : BitVec 14) (m m1 : Mach) : ∃ r x, codeSeen u c m m1 = { m1 with regs := r, rx := x } := by
  cases u with
  | obs _ => exact ⟨m1.regs, m1.rx, rfl⟩
  | path n =>
    unfold codeSeen
    dsimp only
    split
    · exact ⟨m1.regs, _, rfl⟩
    · split <;> exact ⟨_, _, rfl⟩

theorem asm_codeSeen (u : RxUnit) (c : BitVec 14) (m m1 : Mach) :
    (getRx (rxKey u) (codeSeen u c m m1)).asm = (getRx (rxKey u) m1).asm := by
  cases u with
  | obs _ => rfl
  | path n =>
    have hcnt : ∀ s : Mach, getRx n s = getRx n m1 → ∀ i, (getRx n (rxWatch n i s)).asm = (getRx n m1).asm := fun s hs i => by
      rw [rxWatch, getRx_setRx_same, hs]
    unfold codeSeen
    dsimp only
    split
    · rw [rxSkip, rxKey, getRx_setRx_same]
    · exact hcnt _ (by split <;> rfl) _

theorem codeSeen_keeps (u : RxUnit) (c : BitVec 14) (m m1 : Mach) : regsKept (sampleRegs u) m1 (codeSeen u c m m1) := by
  cases u with
  | obs _ => exact .refl _ _
  | path n =>
    have hcnt : regsKept (sampleRegs (.path n)) m1 (cnt (QUAD_RX_OVR_COUNT n) 1 0xFFFFFFFF m1) :=
      (regsKept_wr _ _ m1).mono (by simp [sampleRegs])
    unfold codeSeen
    dsimp only
    split
    · exact .refl _ _
    · split
      · exact hcnt
      · exact .refl _ _

theorem regsKept_setEvIf (b : Bool) (f : Fld) (m : Mach) : regsKept [f.reg, HLT_LOG_WPTR, HLT_EVENTS] m (setEvIf b f m) := by
  cases b
  · exact .refl _ m
  · exact regsKept_setEv f m

theorem storesKept_setEvIf (b : Bool) (f : Fld) (m : Mach) : storesKept m (setEvIf b f m) := by
  cases b
  · exact .refl m
  · exact storesKept_setEv f m

@[simp] theorem rx_setEvIf (b : Bool) (f : Fld) (m : Mach) : (setEvIf b f m).rx = m.rx := by
  cases b
  · rfl
  · exact rx_setEv f m

@[simp] theorem inb_setEvIf (b : Bool) (f : Fld) (m : Mach) : (setEvIf b f m).inb = m.inb := by
  cases b
  · rfl
  · exact inb_setEv f m

theorem rxEvents_ne_log (u : RxUnit) : QUAD_RX_EVENTS u ≠ HLT_LOG_WPTR ∧ QUAD_RX_EVENTS u ≠ HLT_EVENTS := by
  have hlt : QUAD_RX_EVENTS u < 0x600000 := by
    cases u with
    | path n => simp only [QUAD_RX_EVENTS, rxBase, pathBase, quadBase]; omega
    | obs o => simp only [QUAD_RX_EVENTS, rxBase, obsBase, quadBase]; omega
  simp only [HLT_LOG_WPTR, HLT_EVENTS]
  omega

/-- R114: a marked sample sets ovr. -/
theorem fon_ovr_setEv (u : RxUnit) (m : Mach) : fon (QUAD_RX_EVENTS.ovr u) (setEv (QUAD_RX_EVENTS.ovr u) m) = true :=
  fon_setEv rfl (by change (1 : Nat) ≤ 32; decide) (rxEvents_ne_log u).1 (rxEvents_ne_log u).2 m

theorem fon_ovl_setEv (u : RxUnit) (m : Mach) : fon (QUAD_RX_EVENTS.ovl u) (setEv (QUAD_RX_EVENTS.ovl u) m) = true :=
  fon_setEv rfl (by change (2 : Nat) ≤ 32; decide) (rxEvents_ne_log u).1 (rxEvents_ne_log u).2 m

/-- What a sample of a unit that delivers samples leaves. -/
theorem adcSample_leaves {u : RxUnit} {m : Mach} (h : convOn u m = true) (c : BitVec 14) :
    (getRx (rxKey u) (adcSample u c m)).asm = (getRx (rxKey u) m).asm ++ [sampleOf u c m] ∧
      (marksOvr u c m = true → fon (QUAD_RX_EVENTS.ovr u) (adcSample u c m) = true) ∧
      regsKept (sampleRegs u) m (adcSample u c m) ∧ storesKept m (adcSample u c m) := by
  rw [adcSample_on h]
  refine ⟨?_, fun hovr => ?_, ?_, ?_⟩
  · rw [getRx, rx_setEvIf, ← getRx, asm_codeSeen, sampleJoined, getRx_setRx_same]
  · rw [hovr]
    exact fon_ovr_setEv u _
  · have hjoined : regsKept (sampleRegs u) m (sampleJoined u c m) := fun _ _ => rfl
    exact (hjoined.trans (codeSeen_keeps u c m _)).trans ((regsKept_setEvIf _ (QUAD_RX_EVENTS.ovr u) _).mono (by
      simp only [List.cons_subset, List.nil_subset, and_true]
      exact ⟨List.mem_cons_self, by simp [sampleRegs], by simp [sampleRegs]⟩))
  · obtain ⟨r, x, hseen⟩ := codeSeen_frame u c m (sampleJoined u c m)
    have hstores : storesKept m (codeSeen u c m (sampleJoined u c m)) := by rw [hseen]; exact .refl m
    exact hstores.trans (storesKept_setEvIf ..)

/-! ### One beat of a bridge -/

theorem inputBridgeWrite_frozen {b : InBridge} {m : Mach} (h : frozen (inDom b) m = true) (k : Nat) :
    inputBridgeWrite b k m = m := if_pos h

/-- Nothing is taken of a bridge that holds no mark of a lost entry. -/
theorem takeN_zero {b : InBridge} {l : List BEntry} (h : ∀ e ∈ l, ∃ x, e = .data x) (m : Mach) :
    takeN b 0 l m = setIn (inKey b) l m := by
  cases l with
  | nil => rfl
  | cons e l =>
    obtain ⟨x, rfl⟩ := h e List.mem_cons_self
    rfl

theorem occupancy_data {b : InBridge} {m : Mach} (h : ∀ e ∈ getIn (inKey b) m, ∃ x, e = .data x) :
    occupancy b m = (getIn (inKey b) m).length := by
  unfold occupancy
  rw [List.filter_eq_self.2]
  intro e he
  obtain ⟨x, rfl⟩ := h e he
  rfl

/-- The beat of a unit, and the unit without it. -/
theorem takeBeat_full {b : InBridge} {u : RxUnit} {m : Mach} (hu : bridgeUnit b = some u)
    (h : 8 ≤ (getRx (rxKey u) m).asm.length) :
    takeBeat b m = (some (((getRx (rxKey u) m).asm.take 8).drop (getRx (rxKey u) m).formed),
      setRx (rxKey u) { getRx (rxKey u) m with
        asm := (getRx (rxKey u) m).asm.drop 8, formed := (getRx (rxKey u) m).formed - 8 } m) := by
  unfold takeBeat
  rw [hu]
  exact if_neg (Nat.not_lt.2 h)

/-- The entry that a beat becomes at a bridge. -/
def beatEntry (full : Bool) (l : List Sample) : BEntry := if full then .lost l.length else .data l

theorem bridgeWrite_beat {b : InBridge} {m m1 : Mach} {l : List Sample} (h : takeBeat b m = (some l, m1)) :
    ∃ x, bridgeWrite b m = { setEvIf (decide (64 ≤ occupancy b m1)) GCTL_CORE_EVENTS.bridge_ovf
      (setIn (inKey b) (getIn (inKey b) m1 ++ [beatEntry (decide (64 ≤ occupancy b m1)) l]) m1) with lad := x } := by
  unfold bridgeWrite
  rw [h]
  exact ⟨_, rfl⟩

/-- R41: a beat into a bridge of data entries alone, of which nothing was taken. -/
theorem inputBridgeWrite_beat {b : InBridge} {u : RxUnit} {m : Mach} (hu : bridgeUnit b = some u) (hrun : frozen (inDom b) m = false)
    (hdata : ∀ e ∈ getIn (inKey b) m, ∃ x, e = .data x) (h8 : 8 ≤ (getRx (rxKey u) m).asm.length) :
    let l := ((getRx (rxKey u) m).asm.take 8).drop (getRx (rxKey u) m).formed
    let full := decide (64 ≤ (getIn (inKey b) m).length)
    ∃ i r x, inputBridgeWrite b 0 m = { setEvIf full GCTL_CORE_EVENTS.bridge_ovf { m with inb := i, rx := r } with lad := x } ∧
      tabGet (fun _ => []) i (inKey b) = getIn (inKey b) m ++ [beatEntry full l] ∧
      (tabGet (fun _ => {}) r (rxKey u)).asm = (getRx (rxKey u) m).asm.drop 8 := by
  have htake : inputBridgeWrite b 0 m = bridgeWrite b (setIn (inKey b) (getIn (inKey b) m) m) := by
    rw [inputBridgeWrite, if_neg (by simp [hrun]), ite_self, takeN_zero hdata]
  obtain ⟨x, hx⟩ := bridgeWrite_beat (takeBeat_full (m := setIn (inKey b) (getIn (inKey b) m) m) hu h8)
  have hin : ∀ y : RxSt, getIn (inKey b) (setRx (rxKey u) y (setIn (inKey b) (getIn (inKey b) m) m)) = getIn (inKey b) m :=
    fun _ => getIn_setIn_same ..
  rw [occupancy_data (by rw [hin]; exact hdata), hin] at hx
  exact ⟨_, _, x, htake.trans hx, tabGet_tabPut_same .., congrArg RxSt.asm (tabGet_tabPut_same ..)⟩

/-! ### The overload window -/

/-- No window of samples ends now. -/
theorem overloadEnd_between {n : Nat} {m : Mach} (h : ¬ ((getRx n m).ovlN ≠ 0 ∧ (getRx n m).ovlN % ovlWindow n m = 0)) :
    overloadEnd n m = m := by
  refine if_pos ?_
  by_cases hn : (getRx n m).ovlN = 0
  · exact .inl hn
  · exact .inr fun q => h ⟨hn, q⟩

theorem overloadEnd_quiet {n : Nat} {m : Mach} (h : (getRx n m).ovlN ≠ 0 ∧ (getRx n m).ovlN % ovlWindow n m = 0)
    (hno : ¬ (fon (QUAD_RX_OVL_CFG.ovl_en n) m = true ∧ max 1 (fget (QUAD_RX_OVL_CFG.ovl_cnt n) m) ≤ (getRx n m).ovlCnt)) :
    overloadEnd n m = setRx n { getRx n m with ovlCnt := 0 } m := by
  have hend : ¬ ((getRx n m).ovlN = 0 ∨ (getRx n m).ovlN % ovlWindow n m ≠ 0) := not_or.2 ⟨h.1, not_not.2 h.2⟩
  rw [overloadEnd, if_neg hend]
  exact if_neg (by simpa using hno)

theorem overloadEnd_fires {n : Nat} {m : Mach} (h : (getRx n m).ovlN ≠ 0 ∧ (getRx n m).ovlN % ovlWindow n m = 0)
    (hyes : fon (QUAD_RX_OVL_CFG.ovl_en n) m = true ∧ max 1 (fget (QUAD_RX_OVL_CFG.ovl_cnt n) m) ≤ (getRx n m).ovlCnt) :
    overloadEnd n m =
      fesNow (n / 16) 9 (setEv (QUAD_RX_EVENTS.ovl (.path (toPath n))) (setRx n { getRx n m with ovlCnt := 0 } m)) := by
  have hend : ¬ ((getRx n m).ovlN = 0 ∨ (getRx n m).ovlN % ovlWindow n m ≠ 0) := not_or.2 ⟨h.1, not_not.2 h.2⟩
  rw [overloadEnd, if_neg hend]
  exact if_pos (by simpa using hyes)

theorem toPath_val (n : Fin 64) : toPath n = n := Fin.ofNat_val_eq_self n

/-- R115: what a firing detector leaves: ovl, the count started again, the stores. -/
theorem overloadEnd_fires_leaves {n : Fin 64} {m : Mach} (h : (getRx n m).ovlN ≠ 0 ∧ (getRx n m).ovlN % ovlWindow n m = 0)
    (hyes : fon (QUAD_RX_OVL_CFG.ovl_en n) m = true ∧ max 1 (fget (QUAD_RX_OVL_CFG.ovl_cnt n) m) ≤ (getRx n m).ovlCnt) :
    fon (QUAD_RX_EVENTS.ovl (.path n)) (overloadEnd n m) = true ∧ (getRx n (overloadEnd n m)).ovlCnt = 0 ∧
      storesKept m (overloadEnd n m) := by
  rw [overloadEnd_fires h hyes, toPath_val]
  generalize hset : setRx n { getRx n m with ovlCnt := 0 } m = m1
  have hcnt : (getRx n m1).ovlCnt = 0 := by rw [← hset, getRx_setRx_same]
  have hstores : storesKept m m1 := by rw [← hset]; exact .refl m
  obtain ⟨hs, hrx, hrd⟩ := pathsKept_fesNow (n / 16) 9 (setEv (QUAD_RX_EVENTS.ovl (.path n)) m1)
  have haddr : rd (QUAD_RX_EVENTS.ovl (.path n)).reg (fesNow (n / 16) 9 (setEv (QUAD_RX_EVENTS.ovl (.path n)) m1)) =
      rd (QUAD_RX_EVENTS.ovl (.path n)).reg (setEv (QUAD_RX_EVENTS.ovl (.path n)) m1) := by
    refine hrd _ ?_ ?_ <;> simp only [QUAD_RX_EVENTS.ovl, QUAD_RX_EVENTS, rxBase, pathBase, quadBase] <;> omega
  refine ⟨?_, ?_, (hstores.trans (storesKept_setEv ..)).trans hs⟩
  · have hon := fon_ovl_setEv (.path n) m1
    rw [fon, fget] at hon ⊢
    rw [haddr]
    exact hon
  · rw [hrx n n.isLt, getRx, rx_setEv]
    exact hcnt

/-- Settles O32: a code, a beat and a window's end, each by its operation's cases. That a gated unit's samples stand as GAP without a
mark, and that the entries taken come with the beat's command, are the model's choices (assumptions 81 and 103). -/
theorem converterSamplesFillTheBridges : Obligations.ConverterSamplesFillTheBridges := by
  intro s
  refine ⟨fun u c h => ?_, fun u code h => ?_, fun b k h => ?_, fun b u hu hrun hdata h8 => ?_, fun n => ⟨fun h => ?_, fun h hno => ?_,
    fun h hyes => ⟨_, exec_overloadWindowEnd n s, overloadEnd_fires_leaves h hyes⟩⟩⟩
  · rw [exec_adcSample, adcSample_off h]
  · obtain ⟨hasm, hovr, hregs, hstores⟩ := adcSample_leaves h code
    refine ⟨_, sampleOf u code s.m, exec_adcSample u code s, hasm, sampleOf_tag .., sampleOf_q .., sampleOf_i .., ?_, ?_, ?_, hstores⟩
    · rw [sampleOf_ovr, marksOvr, Bool.and_eq_true, decide_eq_true_eq, Bool.not_eq_true']
      rfl
    · rw [sampleOf_ovr]; exact hovr
    · cases u <;> exact hregs
  · rw [exec_inputBridgeWrite, inputBridgeWrite_frozen h]
  · obtain ⟨i, r, x, hwrite, hin, hasm⟩ := inputBridgeWrite_beat hu hrun hdata h8
    refine ⟨_, exec_inputBridgeWrite b 0 s, ?_⟩
    rw [hwrite]
    refine ⟨?_, storesKept_setEvIf _ _ { s.m with inb := i, rx := r }, fun hroom => ?_, fun hfull => ⟨?_, ?_, ?_⟩⟩
    · exact (congrArg (fun t => (tabGet (fun _ => {}) t (rxKey u)).asm)
        (rx_setEvIf _ GCTL_CORE_EVENTS.bridge_ovf { s.m with inb := i, rx := r })).trans hasm
    · have hnot : decide (64 ≤ (getIn (inKey b) s.m).length) = false := by simpa using hroom
      rw [hnot] at hin ⊢
      exact ⟨hin, rfl⟩
    · rw [decide_eq_true hfull] at hin ⊢
      exact (congrArg (fun t => tabGet (fun _ => []) t (inKey b))
        (inb_setEvIf true GCTL_CORE_EVENTS.bridge_ovf { s.m with inb := i, rx := r })).trans hin
    · rw [decide_eq_true hfull]
      exact fon_setEv (f := GCTL_CORE_EVENTS.bridge_ovf) rfl (by decide) (by decide) (by decide) { s.m with inb := i, rx := r }
    · exact regsKept_setEvIf _ GCTL_CORE_EVENTS.bridge_ovf { s.m with inb := i, rx := r }
  · rw [exec_overloadWindowEnd, overloadEnd_between h]
  · rw [exec_overloadWindowEnd, overloadEnd_quiet h hno]

end Sys2Proof.Machine

/-! SUPPORT. Time and the output bridges: what the pieces of a release leave (R43, R59, R66, R67). -/

namespace Sys2Proof.Machine

theorem exec_outputBridgeRelease_ul (st : UlStream) (s : State) :
    exec (.outputBridgeRelease (.ul st)) s = .next (s.withM (ulRelease st s.m)) := rfl

theorem exec_outputBridgeRelease_tx (n : Fin 64) (s : State) :
    exec (.outputBridgeRelease (.tx n)) s = .next (s.withM (txRelease n s.m)) := rfl

theorem exec_lateEntryArrival (b : OutBridge) (seq : Nat) (s : State) :
    exec (.lateEntryArrival b seq) s = .next (s.withM (lateArrive b seq s.m.tod s.m)) := rfl

/-! ### Time -/

/-- The time-of-day count once an instant in 1/120 tick is reached. -/
def todAt (t : Nat) (m : Mach) : Nat := if timingOn m then max m.tod (2 * ((t + 119) / 120)) else m.tod

theorem reachSub_eq (t : Nat) (m : Mach) : reachSub t m = { m with tod := todAt t m } := by
  unfold reachSub advanceTo todAt tick
  by_cases hon : timingOn m = true
  · by_cases hlt : m.tod / 2 < (t + 119) / 120
    · rw [if_pos ⟨hon, hlt⟩, if_pos hon, Nat.max_eq_right (by omega)]
    · rw [if_neg (fun h => hlt h.2), if_pos hon, Nat.max_eq_left (by omega)]
  · rw [if_neg (fun h => hon h.1), if_neg hon]

/-! ### A bridge and its feeder -/

/-- What a bridge and its feeder hold, in order: each entry's sequence count and samples. -/
def heldEntries (x : OutBr) : List (Nat × List OutSample) := (x.fifo ++ x.feeder).map fun o => (o.seq, o.ss)

/-- A refill touches the bridges alone: an entry goes from the feeder to the bridge, and nothing else of this bridge changes. -/
theorem outRefill_leaves (k : Nat) (m : Mach) : ∃ o, outRefill k m = { m with outb := o } ∧
    (getOut k (outRefill k m)).rel = (getOut k m).rel ∧ (getOut k (outRefill k m)).missed = (getOut k m).missed ∧
    heldEntries (getOut k (outRefill k m)) = heldEntries (getOut k m) := by
  unfold outRefill
  dsimp only
  split
  · exact ⟨m.outb, rfl, rfl, rfl, rfl⟩
  · next e l hfeeder =>
    split
    · refine ⟨_, rfl, ?_, ?_, ?_⟩
      · rw [getOut_setOut_same]
      · rw [getOut_setOut_same]
      · rw [getOut_setOut_same, heldEntries, heldEntries, hfeeder]
        simp
    · exact ⟨m.outb, rfl, rfl, rfl, rfl⟩

/-! ### Margins and late entries (R66, R67) -/

/-- R67: the smallest margin with one more. -/
def leastMargin (x : Int) (o : Option Int) : Int :=
  match o with
  | some y => min x y
  | none => x

theorem noteMargin_dl (x : Int) (m : Mach) : noteMargin true x m = { m with marginDl := some (leastMargin x m.marginDl) } := rfl

theorem noteMargin_ul (x : Int) (m : Mach) : noteMargin false x m = { m with marginUl := some (leastMargin x m.marginUl) } := rfl

theorem noteMargin_frame (dl : Bool) (x : Int) (m : Mach) :
    ∃ u d, noteMargin dl x m = { m with marginUl := u, marginDl := d } := by
  cases dl
  · exact ⟨_, m.marginDl, rfl⟩
  · exact ⟨m.marginUl, _, rfl⟩

theorem lateArrive_none {b : OutBridge} {seq : Nat} {m : Mach}
    (h : (getOut (outKey b) m).missed.find? (fun e => e.1 == seq) = none) (arr : Nat) : lateArrive b seq arr m = m := by
  simp only [lateArrive, h]

theorem lateArrive_some {b : OutBridge} {seq : Nat} {m : Mach} {r : Nat × Nat}
    (h : (getOut (outKey b) m).missed.find? (fun e => e.1 == seq) = some r) (arr : Nat) : lateArrive b seq arr m =
      noteMargin (isTx b) ((2 * (r.2 : Int) - arr) / 2)
        (setOut (outKey b) { getOut (outKey b) m with missed := (getOut (outKey b) m).missed.filter fun f => f.1 != seq } m) := by
  simp only [lateArrive, h]

theorem lateArrive_frame (b : OutBridge) (seq arr : Nat) (m : Mach) :
    ∃ o u d, lateArrive b seq arr m = { m with outb := o, marginUl := u, marginDl := d } := by
  cases h : (getOut (outKey b) m).missed.find? (fun e => e.1 == seq) with
  | none => exact ⟨m.outb, m.marginUl, m.marginDl, lateArrive_none h arr⟩
  | some r =>
    obtain ⟨u, d, hn⟩ := noteMargin_frame (isTx b) ((2 * (r.2 : Int) - arr) / 2)
      (setOut (outKey b) { getOut (outKey b) m with missed := (getOut (outKey b) m).missed.filter fun f => f.1 != seq } m)
    exact ⟨_, u, d, (lateArrive_some h arr).trans hn⟩

/-- R66, R67: the arrival of an entry that a release found absent. -/
theorem lateArrive_leaves {b : OutBridge} {seq : Nat} {m : Mach} {r : Nat × Nat}
    (h : (getOut (outKey b) m).missed.find? (fun e => e.1 == seq) = some r) (arr : Nat) :
    (∀ e ∈ (getOut (outKey b) (lateArrive b seq arr m)).missed, e.1 ≠ seq) ∧
      (getOut (outKey b) (lateArrive b seq arr m)).fifo = (getOut (outKey b) m).fifo ∧
      (if isTx b then (lateArrive b seq arr m).marginDl else (lateArrive b seq arr m).marginUl) =
        some (leastMargin ((2 * (r.2 : Int) - arr) / 2) (if isTx b then m.marginDl else m.marginUl)) := by
  rw [lateArrive_some h]
  generalize hx : ({ getOut (outKey b) m with missed := (getOut (outKey b) m).missed.filter fun f => f.1 != seq } : OutBr) = x
  have hout : ∀ y, getOut (outKey b) (noteMargin (isTx b) y (setOut (outKey b) x m)) = x := fun y => by
    obtain ⟨u, d, hn⟩ := noteMargin_frame (isTx b) y (setOut (outKey b) x m)
    rw [hn]
    exact getOut_setOut_same ..
  rw [hout, ← hx]
  refine ⟨fun e he => by simpa using (List.mem_filter.1 he).2, rfl, ?_⟩
  cases isTx b <;> rfl

end Sys2Proof.Machine

/-! SUPPORT. The release of an uplink entry, held or absent (R59, R66). -/

namespace Sys2Proof.Machine

/-- The released samples of an uplink stream as link framing takes them: each with its position, at its due time. -/
def framed (l : List OutSample) : List (Sample × StreamPos) := l.filterMap fun o => o.pos.map fun q => (o.s, { q with at_ := o.due })

/-- A device that is no STANDBY twin hands the released samples to link framing. -/
theorem ulOut_sends {m : Mach} (h : role m ≠ 2) (st : UlStream) (l : List OutSample) :
    ulOut st l m = setUlTx (ulKey st) { getUlTx (ulKey st) m with q := (getUlTx (ulKey st) m).q ++ framed l } m := by
  simp only [ulOut, if_neg h]
  rfl

theorem ulOut_frame (st : UlStream) (l : List OutSample) (m : Mach) : ∃ x, ulOut st l m = { m with ulTx := x } := by
  unfold ulOut
  dsimp only
  split
  · exact ⟨m.ulTx, rfl⟩
  · exact ⟨_, rfl⟩

theorem framed_posRun (st : UlStream) (m : Mach) (k due : Nat) (p : Option StreamPos) :
    framed (posRun st due k p m) =
      (posRun st due k p m).filterMap fun o => o.pos.map fun q => (gapSample, { q with at_ := o.due }) := by
  induction k generalizing due p with
  | zero => rfl
  | succ k ih =>
    have htail := ih (due + ulSub st m) (p.map fun x => posNext st x m)
    unfold framed at htail ⊢
    rw [posRun, List.filterMap_cons, List.filterMap_cons, htail]

/-! ### An absent entry (R66) -/

/-- The bridge of a stream after an absent entry whose positions are `ss`, due at `due`. -/
def absentBridge (ss : List OutSample) (due : Nat) (x : OutBr) : OutBr :=
  { x with rel := x.rel + 1, last := lastPos ss x.last, missed := x.missed ++ [(x.rel, (due + 119) / 120)] }

/-- What a late sample count and its charge leave. -/
def lateCharged (m : Mach) : Mach :=
  chargeLate 14 (setEv GCTL_CORE_EVENTS.anchor_late_ul (cnt GCTL_ANCHOR_LATE_UL 8 0xFFFFFFFF m))

/-- The registers that a late arrival on the uplink may change. -/
def lateRegs : List Nat := [GCTL_ANCHOR_LATE_UL, GCTL_CORE_EVENTS, HLT_LOG_WPTR, HLT_EVENTS]

theorem ulAbsent_loud {st : UlStream} {m : Mach} (h : ulQuiet st m = false) (due : Nat) : ulAbsent st due m =
    let ss := posRun st due 8 (posDue st (getOut (ulKey st) m) m) m
    ulOut st ss (lateCharged (setOut (ulKey st) (absentBridge ss due (getOut (ulKey st) m)) m)) := by
  unfold ulAbsent
  rw [h]
  rfl

theorem mem_lateNow_chargeLate (p : Nat) (m : Mach) : p ∈ (chargeLate p m).lad.lateNow := by
  unfold chargeLate
  dsimp only
  split
  · next h => exact List.contains_iff_mem.1 h
  · exact List.mem_cons_self

theorem rd_chargeLate (a p : Nat) (m : Mach) : rd a (chargeLate p m) = rd a m := rfl

theorem fon_chargeLate (f : Fld) (p : Nat) (m : Mach) : fon f (chargeLate p m) = fon f m := rfl

/-- R66: a late arrival counts 8 samples, sets anchor_late_ul and is charged to LTX. -/
theorem lateCharged_leaves (m : Mach) :
    rd GCTL_ANCHOR_LATE_UL (lateCharged m) = BitVec.ofNat 32 (min 0xFFFFFFFF ((rd GCTL_ANCHOR_LATE_UL m).toNat + 8)) ∧
      fon GCTL_CORE_EVENTS.anchor_late_ul (lateCharged m) = true ∧ 14 ∈ (lateCharged m).lad.lateNow ∧
      regsKept lateRegs m (lateCharged m) ∧ storesKept m (lateCharged m) := by
  have hcnt : regsKept lateRegs m (cnt GCTL_ANCHOR_LATE_UL 8 0xFFFFFFFF m) := (regsKept_wr _ _ m).mono (by decide)
  have hev := regsKept_setEv GCTL_CORE_EVENTS.anchor_late_ul (cnt GCTL_ANCHOR_LATE_UL 8 0xFFFFFFFF m)
  refine ⟨?_, ?_, mem_lateNow_chargeLate 14 _, hcnt.trans (hev.mono (by decide)), storesKept_setEv GCTL_CORE_EVENTS.anchor_late_ul
    (cnt GCTL_ANCHOR_LATE_UL 8 0xFFFFFFFF m)⟩
  · rw [lateCharged, rd_chargeLate, hev GCTL_ANCHOR_LATE_UL (by decide), cnt, rd_wr_same]
  · rw [lateCharged, fon_chargeLate]
    exact fon_setEv rfl (by decide) (by decide) (by decide) _

theorem getOut_lateCharged (k : Nat) (m : Mach) : getOut k (lateCharged m) = getOut k m := by
  have hout : (lateCharged m).outb = m.outb := by
    rw [lateCharged, chargeLate, outb_setEv]
    rfl
  rw [getOut, hout, getOut]

theorem getUlTx_lateCharged (k : Nat) (m : Mach) : getUlTx k (lateCharged m) = getUlTx k m := by
  have hul : (lateCharged m).ulTx = m.ulTx := by
    rw [lateCharged, chargeLate, ulTx_setEv]
    rfl
  rw [getUlTx, hul, getUlTx]

/-- R66: what an absent entry that is a late arrival leaves. -/
theorem ulAbsent_leaves {st : UlStream} {m : Mach} (h : ulQuiet st m = false) (due : Nat) :
    rd GCTL_ANCHOR_LATE_UL (ulAbsent st due m) = BitVec.ofNat 32 (min 0xFFFFFFFF ((rd GCTL_ANCHOR_LATE_UL m).toNat + 8)) ∧
      fon GCTL_CORE_EVENTS.anchor_late_ul (ulAbsent st due m) = true ∧ 14 ∈ (ulAbsent st due m).lad.lateNow ∧
      regsKept lateRegs m (ulAbsent st due m) ∧ storesKept m (ulAbsent st due m) := by
  rw [ulAbsent_loud h]
  dsimp only
  generalize posRun st due 8 (posDue st (getOut (ulKey st) m) m) m = ss
  have hleaves := lateCharged_leaves (setOut (ulKey st) (absentBridge ss due (getOut (ulKey st) m)) m)
  generalize lateCharged (setOut (ulKey st) (absentBridge ss due (getOut (ulKey st) m)) m) = w at hleaves ⊢
  obtain ⟨x, hx⟩ := ulOut_frame st ss w
  rw [hx]
  exact hleaves

theorem getOut_ulAbsent {st : UlStream} {m : Mach} (h : ulQuiet st m = false) (due : Nat) :
    getOut (ulKey st) (ulAbsent st due m) =
      absentBridge (posRun st due 8 (posDue st (getOut (ulKey st) m) m) m) due (getOut (ulKey st) m) := by
  rw [ulAbsent_loud h]
  dsimp only
  generalize posRun st due 8 (posDue st (getOut (ulKey st) m) m) m = ss
  have hget := getOut_lateCharged (ulKey st) (setOut (ulKey st) (absentBridge ss due (getOut (ulKey st) m)) m)
  rw [getOut_setOut_same] at hget
  generalize lateCharged (setOut (ulKey st) (absentBridge ss due (getOut (ulKey st) m)) m) = w at hget ⊢
  obtain ⟨x, hx⟩ := ulOut_frame st ss w
  rw [hx]
  exact hget

/-- R66: the positions of an absent entry go to link framing as GAP. -/
theorem q_ulAbsent {st : UlStream} {m : Mach} (h : ulQuiet st m = false) (hrole : role m ≠ 2) (due : Nat) :
    (getUlTx (ulKey st) (ulAbsent st due m)).q =
      (getUlTx (ulKey st) m).q ++ framed (posRun st due 8 (posDue st (getOut (ulKey st) m) m) m) := by
  rw [ulAbsent_loud h]
  dsimp only
  generalize posRun st due 8 (posDue st (getOut (ulKey st) m) m) m = ss
  have hkept := (lateCharged_leaves (setOut (ulKey st) (absentBridge ss due (getOut (ulKey st) m)) m)).2.2.2.1
  have hr : role (lateCharged (setOut (ulKey st) (absentBridge ss due (getOut (ulKey st) m)) m)) ≠ 2 := by
    rw [role, hkept.fget (by decide)]
    exact hrole
  rw [ulOut_sends hr, getUlTx_setUlTx_same, getUlTx_lateCharged]
  rfl

/-! ### The release of a link output -/

theorem outKey_ul (st : UlStream) : outKey (.ul st) = ulKey st := rfl

/-- R59: the entry due is in its bridge at its instant. -/
theorem ulRelease_held {st : UlStream} {e : OutEntry} {l : List OutEntry} {m : Mach} (hrun : frozen 6 m = false)
    (hfifo : (getOut (ulKey st) m).fifo = e :: l) (hslot : pastSlot (firstDue e.ss 0) m = false) (harr : 60 * e.arr ≤ firstDue e.ss 0) :
    ulRelease st m = outRefill (ulKey st) (ulOut st (if ulHeldGap m then gapAll e.ss else e.ss)
      (noteMargin false (((firstDue e.ss 0 : Int) - 60 * e.arr) / 120)
        (setOut (ulKey st) { getOut (ulKey st) m with
          fifo := l, rel := e.seq + 1, last := lastPos e.ss (getOut (ulKey st) m).last } { m with tod := todAt (firstDue e.ss 0) m }))) := by
  simp only [ulRelease, hrun, outKey_ul, hfifo, hslot, if_pos harr, reachSub_eq]
  rfl

/-- R66: the entry due came after its instant. -/
theorem ulRelease_late {st : UlStream} {e : OutEntry} {l : List OutEntry} {m : Mach} (hrun : frozen 6 m = false)
    (hfifo : (getOut (ulKey st) m).fifo = e :: l) (hslot : pastSlot (firstDue e.ss 0) m = false) (harr : firstDue e.ss 0 < 60 * e.arr) :
    ulRelease st m = outRefill (ulKey st) (lateArrive (.ul st) e.seq e.arr (ulAbsent st (firstDue e.ss 0)
      (setOut (ulKey st) { getOut (ulKey st) m with fifo := l } { m with tod := todAt (firstDue e.ss 0) m }))) := by
  simp only [ulRelease, hrun, outKey_ul, hfifo, hslot, if_neg (Nat.not_le.2 harr), reachSub_eq]
  rfl

/-- The instant at which a stream's bridge releases without an entry. -/
def emptyDue (st : UlStream) (m : Mach) : Nat :=
  match posDue st (getOut (ulKey st) m) m with
  | some q => q.at_ + 120 * anchorOf false m
  | none => 120 * m.slotStart

/-- R66: no entry is held where one is due. -/
theorem ulRelease_empty {st : UlStream} {m : Mach} (hrun : frozen 6 m = false) (hfifo : (getOut (ulKey st) m).fifo = [])
    (hact : ulActive st m = true) (hfed : ulFed st m = true) (hslot : pastSlot (emptyDue st m) m = false) :
    ulRelease st m = ulAbsent st (emptyDue st m) { m with tod := todAt (emptyDue st m) m } := by
  have hfed' : ∀ t, ulFed st { m with tod := t } = true := fun t => by cases st <;> exact hfed
  unfold emptyDue at hslot ⊢
  cases hp : posDue st (getOut (ulKey st) m) m <;>
    (simp only [hp] at hslot ⊢
     simp only [ulRelease, hrun, outKey_ul, hfifo, hact, hp, reachSub_eq, hslot, hfed']
     rfl)

end Sys2Proof.Machine

/-! SUPPORT. What a position, a release and a transmit output read: none of it is the time of day, a bridge or a margin. -/

namespace Sys2Proof.Machine

/-! ### Positions -/

theorem ulSub_of_regs {m m' : Mach} (h : m'.regs = m.regs) (st : UlStream) : ulSub st m' = ulSub st m := by
  have hget : ∀ f, fget f m' = fget f m := fun f => by rw [fget, rd, h, fget, rd]
  cases st <;> simp only [ulSub, streamStages, nstages, adcSub, hget]

theorem posNext_of_regs {m m' : Mach} (h : m'.regs = m.regs) (hf : m'.ftab = m.ftab) (st : UlStream) (p : StreamPos) :
    posNext st p m' = posNext st p m := by
  simp only [posNext, slotAt, ulSub_of_regs h, hf]

theorem posDue_of_regs {m m' : Mach} (h : m'.regs = m.regs) (hf : m'.ftab = m.ftab) (st : UlStream) (x : OutBr) :
    posDue st x m' = posDue st x m := by
  simp only [posDue, posNext_of_regs h hf]

theorem posRun_of_regs {m m' : Mach} (h : m'.regs = m.regs) (hf : m'.ftab = m.ftab) (st : UlStream) (due k : Nat)
    (p : Option StreamPos) : posRun st due k p m' = posRun st due k p m := by
  induction k generalizing due p with
  | zero => rfl
  | succ k ih => simp only [posRun, ih, ulSub_of_regs h, posNext_of_regs h hf]

/-! ### The releases of a link output -/

/-- What a held entry's release leaves (R59). -/
theorem ulRelease_held_leaves {st : UlStream} {e : OutEntry} {l : List OutEntry} {m : Mach} (hrun : frozen 6 m = false)
    (hrole : role m ≠ 2) (hfifo : (getOut (ulKey st) m).fifo = e :: l) (hslot : pastSlot (firstDue e.ss 0) m = false)
    (harr : 60 * e.arr ≤ firstDue e.ss 0) :
    (getOut (ulKey st) (ulRelease st m)).rel = e.seq + 1 ∧
      heldEntries (getOut (ulKey st) (ulRelease st m)) = (l ++ (getOut (ulKey st) m).feeder).map (fun o => (o.seq, o.ss)) ∧
      (getUlTx (ulKey st) (ulRelease st m)).q =
        (getUlTx (ulKey st) m).q ++ framed (if ulHeldGap m then gapAll e.ss else e.ss) ∧
      (ulRelease st m).tod = todAt (firstDue e.ss 0) m ∧ (ulRelease st m).regs = m.regs ∧ storesKept m (ulRelease st m) := by
  rw [ulRelease_held hrun hfifo hslot harr, noteMargin_ul]
  generalize (if ulHeldGap m then gapAll e.ss else e.ss) = ss
  generalize hy : ({ getOut (ulKey st) m with
    fifo := l, rel := e.seq + 1, last := lastPos e.ss (getOut (ulKey st) m).last } : OutBr) = y
  generalize some (leastMargin _ _) = g
  generalize hu : ({ setOut (ulKey st) y { m with tod := todAt (firstDue e.ss 0) m } with marginUl := g } : Mach) = u
  have hur : role u = role m := by rw [← hu]; rfl
  have hget : getOut (ulKey st) (ulOut st ss u) = y := by
    obtain ⟨x, hx⟩ := ulOut_frame st ss u
    rw [hx, ← hu]
    exact getOut_setOut_same ..
  obtain ⟨o, ho, hrel, -, hheld⟩ := outRefill_leaves (ulKey st) (ulOut st ss u)
  refine ⟨?_, ?_, ?_⟩
  · rw [hrel, hget, ← hy]
  · rw [hheld, hget, ← hy, heldEntries]
  · rw [ho, ulOut_sends (by rw [hur]; exact hrole), ← hu]
    exact ⟨congrArg UlTx.q (getUlTx_setUlTx_same ..), rfl, rfl, .refl m⟩

/-- What the release of an entry that came late leaves (R66). -/
theorem ulRelease_late_leaves {st : UlStream} {e : OutEntry} {l : List OutEntry} {m : Mach} (hrun : frozen 6 m = false)
    (hrole : role m ≠ 2) (hfifo : (getOut (ulKey st) m).fifo = e :: l) (hslot : pastSlot (firstDue e.ss 0) m = false)
    (harr : firstDue e.ss 0 < 60 * e.arr) (hloud : ulQuiet st m = false) :
    rd GCTL_ANCHOR_LATE_UL (ulRelease st m) = BitVec.ofNat 32 (min 0xFFFFFFFF ((rd GCTL_ANCHOR_LATE_UL m).toNat + 8)) ∧
      fon GCTL_CORE_EVENTS.anchor_late_ul (ulRelease st m) = true ∧ 14 ∈ (ulRelease st m).lad.lateNow ∧
      (getUlTx (ulKey st) (ulRelease st m)).q = (getUlTx (ulKey st) m).q ++
        framed (posRun st (firstDue e.ss 0) 8 (posDue st { getOut (ulKey st) m with fifo := l } m) m) ∧
      regsKept lateRegs m (ulRelease st m) ∧ storesKept m (ulRelease st m) := by
  rw [ulRelease_late hrun hfifo hslot harr]
  generalize hy : ({ getOut (ulKey st) m with fifo := l } : OutBr) = y
  generalize hu : setOut (ulKey st) y { m with tod := todAt (firstDue e.ss 0) m } = u
  have hur : u.regs = m.regs := by rw [← hu]; rfl
  have huf : u.ftab = m.ftab := by rw [← hu]; rfl
  have huq : ulQuiet st u = false := by
    rw [← hu]
    cases st <;> exact hloud
  have hurole : role u ≠ 2 := by rw [← hu]; exact hrole
  have hget : getOut (ulKey st) u = y := by rw [← hu]; exact getOut_setOut_same ..
  have hrd : ∀ b, rd b u = rd b m := fun b => by rw [rd, hur, rd]
  have hm : regsKept lateRegs m u := fun b _ => hrd b
  have hms : storesKept m u := by rw [← hu]; exact .refl m
  have hq := q_ulAbsent huq hurole (firstDue e.ss 0)
  have hleaves := ulAbsent_leaves huq (firstDue e.ss 0)
  have hsent : getUlTx (ulKey st) u = getUlTx (ulKey st) m := by rw [← hu]; rfl
  rw [hget, posDue_of_regs hur huf, posRun_of_regs hur huf, hsent] at hq
  rw [hrd] at hleaves
  -- what follows the absent entry touches the bridges and the margins alone
  generalize ulAbsent st (firstDue e.ss 0) u = w at hq hleaves ⊢
  obtain ⟨hcnt, hev, hlate, hregs, hstores⟩ := hleaves
  obtain ⟨o2, a, d, ho2⟩ := lateArrive_frame (.ul st) e.seq e.arr w
  rw [ho2]
  obtain ⟨o1, ho1, -⟩ := outRefill_leaves (ulKey st) { w with outb := o2, marginUl := a, marginDl := d }
  rw [ho1]
  exact ⟨hcnt, hev, hlate, hq, hm.trans hregs, hms.trans hstores⟩

/-- What a release leaves where no entry is held (R66). -/
theorem ulRelease_empty_leaves {st : UlStream} {m : Mach} (hrun : frozen 6 m = false) (hfifo : (getOut (ulKey st) m).fifo = [])
    (hact : ulActive st m = true) (hfed : ulFed st m = true) (hloud : ulQuiet st m = false)
    (hslot : pastSlot (emptyDue st m) m = false) :
    rd GCTL_ANCHOR_LATE_UL (ulRelease st m) = BitVec.ofNat 32 (min 0xFFFFFFFF ((rd GCTL_ANCHOR_LATE_UL m).toNat + 8)) ∧
      fon GCTL_CORE_EVENTS.anchor_late_ul (ulRelease st m) = true ∧ 14 ∈ (ulRelease st m).lad.lateNow ∧
      (getOut (ulKey st) (ulRelease st m)).rel = (getOut (ulKey st) m).rel + 1 ∧
      ((getOut (ulKey st) m).rel, (emptyDue st m + 119) / 120) ∈ (getOut (ulKey st) (ulRelease st m)).missed ∧
      regsKept lateRegs m (ulRelease st m) ∧ storesKept m (ulRelease st m) := by
  rw [ulRelease_empty hrun hfifo hact hfed hslot]
  generalize emptyDue st m = due
  have huq : ulQuiet st { m with tod := todAt due m } = false := by cases st <;> exact hloud
  obtain ⟨hcnt, hev, hlate, hregs, hstores⟩ := ulAbsent_leaves huq due
  have hget := getOut_ulAbsent huq due
  refine ⟨hcnt, hev, hlate, ?_, ?_, hregs, hstores⟩
  · rw [hget]
    rfl
  · rw [hget]
    exact List.mem_append_right _ List.mem_cons_self

end Sys2Proof.Machine

/-! SUPPORT. The release of a transmit entry into its DAC (R221, R222). -/

namespace Sys2Proof.Machine

/-! ### The DAC -/

/-- The registers that a converted sample of path `n` may change. -/
def dacRegs (n : Nat) : List Nat := [QUAD_TX_EVENTS n, QUAD_TX_SAT_COUNT n, QUAD_TX_GAP_COUNT n, HLT_LOG_WPTR, HLT_EVENTS]

/-- The stores, the output bridges and the registers outside those of path `n`'s DAC are as they were. -/
def dacKept (n : Nat) (m m' : Mach) : Prop := storesKept m m' ∧ m'.outb = m.outb ∧ regsKept (dacRegs n) m m'

theorem dacKept.refl (n : Nat) (m : Mach) : dacKept n m m := ⟨.refl m, rfl, .refl _ m⟩

theorem dacKept.trans {n : Nat} {m m' m'' : Mach} (h : dacKept n m m') (h' : dacKept n m' m'') : dacKept n m m'' :=
  ⟨h.1.trans h'.1, h'.2.1.trans h.2.1, h.2.2.trans h'.2.2⟩

theorem dacKept_setTx (n k : Nat) (x : TxSt) (m : Mach) : dacKept n m (setTx k x m) := .refl n m

theorem dacKept_cnt {n a : Nat} (h : a ∈ dacRegs n) (k top : Nat) (m : Mach) : dacKept n m (cnt a k top m) :=
  ⟨.refl m, rfl, (regsKept_wr a _ m).mono (List.cons_subset.2 ⟨h, List.nil_subset _⟩)⟩

theorem dacKept_sat (n : Nat) (m : Mach) : dacKept n m (setEv (QUAD_TX_EVENTS.dac_sat n) m) :=
  ⟨storesKept_setEv _ m, outb_setEv _ m, (regsKept_setEv (QUAD_TX_EVENTS.dac_sat n) m).mono (by
    simp [dacRegs, QUAD_TX_EVENTS.dac_sat])⟩

/-- R221: what one converted sample leaves: the code at the DAC, and the DAC's counts and flag. -/
theorem dacSample_leaves (n : Nat) (s : Sample) (m : Mach) : dacKept n m (dacSample n s m) ∧
    (getTx n (dacSample n s m)).code = dacCode s.i (fget (QUAD_TX_GAIN.dig_gain n) m) := by
  unfold dacSample
  dsimp only
  generalize hc : dacCode s.i (fget (QUAD_TX_GAIN.dig_gain n) m) = c
  generalize hm1 : setTx n { getTx n m with code := c } m = m1
  have hset : dacKept n m m1 := by rw [← hm1]; exact .refl n m
  have hcode : (getTx n m1).code = c := by rw [← hm1, getTx_setTx_same]
  have hsat : dacKept n m1 (setEv (QUAD_TX_EVENTS.dac_sat n) (cnt (QUAD_TX_SAT_COUNT n) 1 0xFFFFFFFF m1)) :=
    (dacKept_cnt (by simp [dacRegs]) ..).trans (dacKept_sat ..)
  generalize hm2 : (if c ≠ Int.fdiv (s.i * fget (QUAD_TX_GAIN.dig_gain n) m) (2 ^ 19) then
    setEv (QUAD_TX_EVENTS.dac_sat n) (cnt (QUAD_TX_SAT_COUNT n) 1 0xFFFFFFFF m1) else m1) = m2
  have hkept : dacKept n m1 m2 ∧ m2.tx = m1.tx := by
    rw [← hm2]
    split
    · exact ⟨hsat, tx_setEv ..⟩
    · exact ⟨.refl n m1, rfl⟩
  have hcode2 : (getTx n m2).code = c := by rw [getTx, hkept.2, ← getTx, hcode]
  split
  · exact ⟨(hset.trans hkept.1).trans (dacKept_cnt (by simp [dacRegs]) ..), hcode2⟩
  · exact ⟨hset.trans hkept.1, hcode2⟩

theorem dacKept_each (n : Nat) (l : List OutSample) (m : Mach) : dacKept n m (each l (fun o s => dacSample n o.s s) m) :=
  each_inv (dacKept n m) l _ (fun _ _ _ hs => hs.trans (dacSample_leaves ..).1) m (.refl n m)

theorem txGain_notMem_dacRegs (n : Fin 64) : QUAD_TX_GAIN n ∉ dacRegs n := by
  simp only [dacRegs, QUAD_TX_GAIN, QUAD_TX_EVENTS, QUAD_TX_SAT_COUNT, QUAD_TX_GAP_COUNT, HLT_LOG_WPTR, HLT_EVENTS, pathBase, quadBase,
    List.mem_cons, List.not_mem_nil, or_false, not_or]
  omega

/-- The DAC is left with the code of the last sample. -/
theorem code_each_dacSample (n : Fin 64) (l : List OutSample) (o : OutSample) (m : Mach) :
    (getTx n (each (l ++ [o]) (fun o s => dacSample n o.s s) m)).code = dacCode o.s.i (fget (QUAD_TX_GAIN.dig_gain n) m) := by
  have hlast : each (l ++ [o]) (fun o s => dacSample n o.s s) m = dacSample n o.s (each l (fun o s => dacSample n o.s s) m) := by
    simp only [each, List.foldl_append, List.foldl_cons, List.foldl_nil]
  rw [hlast, (dacSample_leaves ..).2, (dacKept_each n l m).2.2.fget (txGain_notMem_dacRegs n)]

/-! ### The samples of an entry -/

theorem dacKept_txPlay (n : Nat) (l : List OutSample) (m : Mach) : dacKept n m (txPlay n l m) := by
  unfold txPlay
  dsimp only
  split
  · exact .refl n m
  · split
    · exact dacKept_setTx ..
    · exact dacKept_each ..

theorem txPlay_silent {n : Nat} {l : List OutSample} {m : Mach} (hl : l ≠ []) (h : txSilent (n / 16) m = true) :
    txPlay n l m = dacMid n m := by
  simp [txPlay, hl, h]

theorem txPlay_sounds {n : Nat} {l : List OutSample} {m : Mach} (hl : l ≠ []) (h : txSilent (n / 16) m = false)
    (hgap : txHeldGap (n / 16) m = false) (hok : txFailed n m = false) :
    txPlay n l m = each l (fun o s => dacSample n o.s s) m := by
  simp [txPlay, hl, h, hgap, hok]

/-- An entry whose samples all fall in the running slot is played at once. -/
theorem txEntry_now {n : Nat} {l : List OutSample} {m : Mach} (h : ∀ o ∈ l, pastSlot o.due m = false) :
    ∃ r, txEntry n l m = setTx n { getTx n (txPlay n l m) with rest := r } (txPlay n l m) := by
  have hnow : l.filter (fun o => !pastSlot o.due m) = l := List.filter_eq_self.2 fun o ho => by simp [h o ho]
  refine ⟨(getTx n (txPlay n l m)).rest ++ l.filter fun o => pastSlot o.due m, ?_⟩
  unfold txEntry
  dsimp only
  rw [hnow]

/-- What an entry that is played at once leaves: the DAC at midscale where the output is silent, else with the last sample's code. -/
theorem txEntry_leaves {n : Fin 64} {l : List OutSample} {m : Mach} (h : ∀ o ∈ l, pastSlot o.due m = false) :
    dacKept n m (txEntry n l m) ∧
      (txSilent (n.val / 16) m = true → l ≠ [] → (getTx n (txEntry n l m)).code = 0 ∧ (txEntry n l m).regs = m.regs) ∧
      (∀ ss o, l = ss ++ [o] → txSilent (n.val / 16) m = false → txHeldGap (n.val / 16) m = false → txFailed n m = false →
        (getTx n (txEntry n l m)).code = dacCode o.s.i (fget (QUAD_TX_GAIN.dig_gain n) m)) := by
  obtain ⟨r, hr⟩ := txEntry_now (n := n) h
  rw [hr, getTx_setTx_same]
  refine ⟨(dacKept_txPlay n l m).trans (dacKept_setTx ..), fun hsil hl => ?_, fun ss o hl hsil hgap hok => ?_⟩
  · rw [txPlay_silent hl hsil, dacMid, getTx_setTx_same]
    exact ⟨rfl, rfl⟩
  · rw [txPlay_sounds (by simp [hl]) hsil hgap hok, hl]
    exact code_each_dacSample n ss o m

/-! ### The release -/

/-- R222: the transmit entry due is in its bridge 4 ticks before its air time. -/
theorem txRelease_held {n : Fin 64} {e : OutEntry} {l : List OutEntry} {m : Mach} (hrun : frozen (1 + n.val / 16) m = false)
    (hquad : quadState (n.val / 16) m ≠ 0) (hclk : inMask (fget CLK_STATUS.gated_q m) (n.val / 16) = false)
    (hfifo : (getOut (96 + n.val) m).fifo = e :: l) (harr : 60 * e.arr + 480 ≤ firstDue e.ss 0)
    (hslot : pastSlot (firstDue e.ss 0) m = false) :
    txRelease n m = outRefill (96 + n.val) (txEntry n e.ss (noteMargin true (((firstDue e.ss 0 : Int) - 480 - 60 * e.arr) / 120)
      (setOut (96 + n.val) { getOut (96 + n.val) m with
        fifo := l, due := firstDue e.ss 0 + 16 * dacSub m, rel := e.seq + 1 } { m with tod := todAt (firstDue e.ss 0) m }))) := by
  have hkey : outKey (.tx (toPath n)) = 96 + n.val := by rw [toPath_val]; rfl
  have hq : (quadState (n.val / 16) m == 0) = false := by simpa using hquad
  simp only [txRelease, hkey, hrun, hclk, hq, hfifo, hslot, if_pos harr, reachSub_eq]
  rfl

/-- What a held transmit entry's release leaves (R221, R222). -/
theorem txRelease_held_leaves {n : Fin 64} {e : OutEntry} {l : List OutEntry} {m : Mach} (hrun : frozen (1 + n.val / 16) m = false)
    (hquad : quadState (n.val / 16) m ≠ 0) (hclk : inMask (fget CLK_STATUS.gated_q m) (n.val / 16) = false)
    (hfifo : (getOut (96 + n.val) m).fifo = e :: l) (harr : 60 * e.arr + 480 ≤ firstDue e.ss 0)
    (hnow : ∀ o ∈ e.ss, pastSlot o.due m = false) (hslot : pastSlot (firstDue e.ss 0) m = false) :
    (getOut (96 + n.val) (txRelease n m)).rel = e.seq + 1 ∧
      heldEntries (getOut (96 + n.val) (txRelease n m)) = (l ++ (getOut (96 + n.val) m).feeder).map (fun o => (o.seq, o.ss)) ∧
      storesKept m (txRelease n m) ∧
      (txSilent (n.val / 16) m = true → e.ss ≠ [] → (getTx n.val (txRelease n m)).code = 0 ∧ (txRelease n m).regs = m.regs) ∧
      (∀ ss o, e.ss = ss ++ [o] → txSilent (n.val / 16) m = false → txHeldGap (n.val / 16) m = false → txFailed n.val m = false →
        (getTx n.val (txRelease n m)).code = dacCode o.s.i (fget (QUAD_TX_GAIN.dig_gain n.val) m)) := by
  rw [txRelease_held hrun hquad hclk hfifo harr hslot, noteMargin_dl]
  generalize hy : ({ getOut (96 + n.val) m with
    fifo := l, due := firstDue e.ss 0 + 16 * dacSub m, rel := e.seq + 1 } : OutBr) = y
  generalize some (leastMargin _ _) = g
  generalize todAt (firstDue e.ss 0) m = t
  -- the state in which the entry is played differs from `m` in the time, the bridges and a margin, which the DAC does not read
  generalize hu : ({ setOut (96 + n.val) y { m with tod := t } with marginDl := g } : Mach) = u
  have hplay := txEntry_leaves (n := n) (l := e.ss) (m := u) (by rw [← hu]; exact hnow)
  obtain ⟨⟨hstores, hout, -⟩, hsilent, hsound⟩ := hplay
  have hget : getOut (96 + n.val) (txEntry n e.ss u) = y := by
    rw [getOut, hout, ← hu]
    exact getOut_setOut_same ..
  obtain ⟨o, ho, hrel, -, hheld⟩ := outRefill_leaves (96 + n.val) (txEntry n e.ss u)
  refine ⟨by rw [hrel, hget, ← hy], by rw [hheld, hget, ← hy, heldEntries], ?_⟩
  rw [ho]
  rw [← hu] at hstores hsilent hsound ⊢
  exact ⟨hstores, hsilent, hsound⟩

end Sys2Proof.Machine

/-! SUPPORT. Writes of an anchor (R21 to R23, R63). -/

namespace Sys2Proof.Machine

theorem exec_anchorWrite {d : Dir} {v : W} {s : State} (h : reach (anchorReg d) s.m = true) :
    exec (.anchorWrite d v) s = .next (s.withM (anchorWrite d v s.m)) := by
  change answer s (gate (anchorReg d) (anchorWrite d v) s.m) = _
  rw [gate_reach h]
  rfl

/-- A device that is no PRIMARY twin mirrors nothing. -/
theorem mirror_alone {m : Mach} (h : role m ≠ 1) (cls : Nat) (b : MirBody) : mirror cls b m = m := if_neg fun q => h q.1

theorem toNat_and_ffff (v : W) : (v &&& 0xFFFF#32).toNat = v.toNat % 65536 := by
  rw [BitVec.toNat_and]
  exact Nat.and_two_pow_sub_one_eq_mod v.toNat 16

theorem applyAnchor_frame (d : Dir) (v : W) (m : Mach) : ∃ g, applyAnchor d v m = { wr (anchorReg d) v m with dlGap := g } := by
  cases d with
  | ul => exact ⟨m.dlGap, rfl⟩
  | dl =>
    unfold applyAnchor anchorDlChange
    dsimp only
    split
    · exact ⟨_, rfl⟩
    · exact ⟨m.dlGap, rfl⟩

theorem role_applyAnchor (d : Dir) (v : W) (m : Mach) : role (applyAnchor d v m) = role m := by
  obtain ⟨g, h⟩ := applyAnchor_frame d v m
  have hwr : regsKept [anchorReg d] m (wr (anchorReg d) v m) := regsKept_wr _ _ m
  rw [h]
  exact hwr.fget (by cases d <;> decide)

theorem anchorWrite_refused {d : Dir} {v : W} {m : Mach} (h : anchorOk d (v.toNat % 65536) m = false) :
    anchorWrite d v m = setEv GCTL_CORE_EVENTS.anchor_range m := by
  rw [← toNat_and_ffff] at h
  simp only [anchorWrite, h]
  rfl

theorem anchorWrite_staged {d : Dir} {v : W} {m : Mach} (h : anchorOk d (v.toNat % 65536) m = true) (hrole : role m ≠ 1)
    (ht : timingOn m = true) : anchorWrite d v m = setStage (anchorReg d) (some (v &&& 0xFFFF#32)) m := by
  rw [← toNat_and_ffff] at h
  simp only [anchorWrite, h, ht]
  exact mirror_alone (m := setStage (anchorReg d) (some (v &&& 0xFFFF#32)) m) hrole _ _

theorem anchorWrite_applied {d : Dir} {v : W} {m : Mach} (h : anchorOk d (v.toNat % 65536) m = true) (hrole : role m ≠ 1)
    (ht : timingOn m = false) : anchorWrite d v m = applyAnchor d (v &&& 0xFFFF#32) m := by
  rw [← toNat_and_ffff] at h
  simp only [anchorWrite, h, ht]
  exact mirror_alone (by rw [← role_applyAnchor d (v &&& 0xFFFF#32) m] at hrole; exact hrole) _ _

/-- Settles O33: each release by the cases of its bridge, each write by the anchor's limits. The time that a release reaches, the 4
ticks before the air time with the absence of an entry that comes after its instant, and the limits without a deck are the model's
choices (assumptions 1, 84 and 79). -/
theorem outputBridgesReleaseAtTheAnchor : Obligations.OutputBridgesReleaseAtTheAnchor := by
  intro s
  refine ⟨fun st e l hrun hrole hfifo due hdue hslot => ?_, fun st hrun hfifo hact hfed hloud due hdue hslot => ?_,
    fun n e l hrun hquad hclk hfifo harr hnow hslot => ?_, fun b seq => ?_, fun d v hreach hrole => ?_⟩
  · subst hdue
    refine ⟨fun harr => ⟨_, exec_outputBridgeRelease_ul st s, ?_⟩, fun harr hloud => ⟨_, exec_outputBridgeRelease_ul st s, ?_⟩⟩
    · exact ulRelease_held_leaves hrun hrole hfifo hslot harr
    · have hleaves := ulRelease_late_leaves hrun hrole hfifo hslot harr hloud
      rw [framed_posRun] at hleaves
      exact hleaves
  · have hdue' : due = emptyDue st s.m := hdue
    subst hdue'
    exact ⟨_, exec_outputBridgeRelease_ul st s, ulRelease_empty_leaves hrun hfifo hact hfed hloud hslot⟩
  · exact ⟨_, exec_outputBridgeRelease_tx n s, txRelease_held_leaves hrun hquad hclk hfifo harr hnow hslot⟩
  · refine ⟨fun h => ?_, fun r h => ⟨_, exec_lateEntryArrival b seq s, ?_⟩⟩
    · rw [exec_lateEntryArrival, lateArrive_none h]
    · obtain ⟨hgone, hfifo, hmargin⟩ := lateArrive_leaves h s.m.tod
      obtain ⟨o, u, g, hframe⟩ := lateArrive_frame b seq s.m.tod s.m
      refine ⟨hgone, hfifo, ?_, by rw [hframe], by rw [hframe]; exact .refl s.m⟩
      rw [hmargin]
      cases (if isTx b then s.m.marginDl else s.m.marginUl) <;> rfl
  · rw [exec_anchorWrite hreach]
    refine ⟨fun h => ?_, fun h ht => ?_, fun h ht => ⟨_, rfl, ?_⟩⟩
    · rw [anchorWrite_refused h]
    · rw [anchorWrite_staged h hrole ht]
    · obtain ⟨g, happlied⟩ := applyAnchor_frame d (v &&& 0xFFFF#32) s.m
      rw [anchorWrite_applied h hrole ht, happlied]
      exact ⟨rd_wr_same .., regsKept_wr _ _ s.m, .refl s.m⟩

end Sys2Proof.Machine

/-! SUPPORT. The commands of GCTL_DEV_CMD (R72, R73, R76, R77): the transition that each starts, and where it is refused. -/

namespace Sys2Proof.Machine

/-! ### A command that the path reaches -/

theorem unlessBusy_idle {m : Mach} (h : fon GCTL_DEV_STATE.busy m = false) (f : Mach → Mach) : unlessBusy f m = f m := by
  simp [unlessBusy, h]

theorem unlessBusy_busy {m : Mach} (h : fon GCTL_DEV_STATE.busy m = true) (f : Mach → Mach) : unlessBusy f m = stateErr m := by
  simp [unlessBusy, h]

/-- With no transition in progress a command of GCTL_DEV_CMD has its effect. -/
theorem answer_devCmd_idle {s : State} (hreach : reach GCTL_DEV_CMD s.m = true) (h : fon GCTL_DEV_STATE.busy s.m = false)
    (f : Mach → Mach) : answer s (gate GCTL_DEV_CMD (unlessBusy f) s.m) = .next (s.withM (f s.m)) := by
  rw [gate_reach hreach, unlessBusy_idle h]; rfl

/-- R72: with a transition in progress it is refused. -/
theorem answer_devCmd_busy {s : State} (hreach : reach GCTL_DEV_CMD s.m = true) (h : fon GCTL_DEV_STATE.busy s.m = true)
    (f : Mach → Mach) : answer s (gate GCTL_DEV_CMD (unlessBusy f) s.m) = .next (s.withM (stateErr s.m)) := by
  rw [gate_reach hreach, unlessBusy_busy h]; rfl

/-! ### Each command from its states, and from the others -/

theorem goStandby_warm {m : Mach} (h : devState m = 4) : goStandby m = startTrans .toStandby m := if_pos h

theorem goStandby_refused {m : Mach} (h : devState m ≠ 4) : goStandby m = stateErr m := if_neg h

/-- R77: with no IDLE target no quadrant powers up. -/
theorem startWarm_noTarget {m : Mach} (h : ∀ q < 4, (getQ q m).idleTarget = false) : startWarm m = startTrans .toWarm m := by
  have hnone : (quads4.filter fun q => (getQ q m).idleTarget) = [] := by
    rw [List.filter_eq_nil_iff]
    intro q hq
    have hlt : q < 4 := by simp only [quads4, List.mem_cons, List.not_mem_nil, or_false] at hq; omega
    simp [h q hlt]
  rw [startWarm, hnone]; rfl

theorem goWarm_noTarget {m : Mach} (h : devState m = 3) (hq : ∀ q < 4, (getQ q m).idleTarget = false) :
    goWarm m = startTrans .toWarm { m with autoWarm := false, autoActive := false } :=
  (if_pos h).trans (startWarm_noTarget hq)

theorem goWarm_active {m : Mach} (h : devState m = 5 ∨ devState m = 6) : goWarm m = startTrans .toWarmBack m := by
  have h3 : devState m ≠ 3 := by omega
  simp [goWarm, h3, isActive, h, leaveActive]

theorem goWarm_refused {m : Mach} (h : devState m ∉ [3, 5, 6]) : goWarm m = stateErr m := by
  simp only [List.mem_cons, List.not_mem_nil, or_false, not_or] at h
  obtain ⟨h3, h5, h6⟩ := h
  simp [goWarm, h3, isActive, h5, h6]

theorem goActive_warm {m : Mach} (h : devState m = 4) (hok : activeOk m = true) : goActive m = startTrans .toActive m :=
  if_pos ⟨h, hok⟩

theorem goActive_refused {m : Mach} (h : devState m ≠ 4 ∨ activeOk m = false) : goActive m = stateErr m := by
  refine if_neg fun ⟨h4, hok⟩ => ?_
  rcases h with h | h
  · exact h h4
  · simp [h] at hok

theorem clearDegraded_degraded {m : Mach} (h : devState m = 6) : clearDegraded m = startTrans .retest m := if_pos h

theorem clearDegraded_refused {m : Mach} (h : devState m ≠ 6) : clearDegraded m = stateErr m := if_neg h

/-- R72: a wrong key, or a command beyond the last. -/
theorem devCmd_invalid {v : W} (h : wfld v 16 16 ≠ 0x6A3C ∨ 5 < wfld v 0 4) (m : Mach) : devCmd v m = stateErr m := by
  by_cases hkey : wfld v 16 16 = 0x6A3C
  · have hcmd : 5 < wfld v 0 4 := h.resolve_left (not_not_intro hkey)
    rw [devCmd, if_neg (not_not_intro hkey)]
    generalize wfld v 0 4 = k at hcmd
    obtain ⟨j, rfl⟩ : ∃ j, k = j + 6 := ⟨k - 6, by omega⟩
    rfl
  · exact if_pos hkey

/-- Settles O18, each command by its states. -/
theorem deviceCommandsStartTransitions : Obligations.DeviceCommandsStartTransitions := by
  intro s hreach
  refine ⟨fun hidle => ⟨fun h => ?_, fun h => ?_, fun h hq => ?_, fun h => ?_, fun h => ?_, fun h hok => ?_, fun h => ?_, fun h => ?_,
    fun h => ?_⟩, fun hbusy => ?_, fun v hv => ?_⟩
  · exact (answer_devCmd_idle hreach hidle goStandby).trans (by rw [goStandby_warm h]; rfl)
  · exact (answer_devCmd_idle hreach hidle goStandby).trans (by rw [goStandby_refused h]; rfl)
  · exact (answer_devCmd_idle hreach hidle goWarm).trans (by rw [goWarm_noTarget h hq]; rfl)
  · exact (answer_devCmd_idle hreach hidle goWarm).trans (by rw [goWarm_active h]; rfl)
  · exact (answer_devCmd_idle hreach hidle goWarm).trans (by rw [goWarm_refused h]; rfl)
  · exact (answer_devCmd_idle hreach hidle goActive).trans (by rw [goActive_warm h hok]; rfl)
  · exact (answer_devCmd_idle hreach hidle goActive).trans (by rw [goActive_refused h]; rfl)
  · exact (answer_devCmd_idle hreach hidle clearDegraded).trans (by rw [clearDegraded_degraded h]; rfl)
  · exact (answer_devCmd_idle hreach hidle clearDegraded).trans (by rw [clearDegraded_refused h]; rfl)
  · simp only [List.forall_mem_cons, List.not_mem_nil, false_implies, implies_true, and_true]
    exact ⟨answer_devCmd_busy hreach hbusy goStandby, answer_devCmd_busy hreach hbusy goWarm,
      answer_devCmd_busy hreach hbusy goActive, answer_devCmd_busy hreach hbusy clearDegraded,
      answer_devCmd_busy hreach hbusy (softReset 7)⟩
  · change answer s (gate GCTL_DEV_CMD (devCmd v) s.m) = _
    rw [gate_reach hreach, devCmd_invalid hv]; rfl

end Sys2Proof.Machine

/-! SUPPORT. Rails, PORESET_N and VDD_CORE (R80, R513 to R517, R529): what a reset of the core and the loss of power leave. -/

namespace Sys2Proof.Machine

/-! ### A table cut down to some keys -/

theorem tabGet_filter_key {α : Type} (d : Nat → α) (p : Nat → Bool) (t : List (Nat × α)) (k : Nat) :
    tabGet d (t.filter fun e => p e.1) k = if p k then tabGet d t k else d k := by
  induction t with
  | nil => simp
  | cons e r ih =>
    obtain ⟨i, v⟩ := e
    by_cases hi : i = k
    · subst hi
      by_cases hp : p i = true
      · simp [hp, tabGet]
      · simpa [hp] using ih
    · by_cases hp : p i = true
      · simpa [hp, tabGet, hi] using ih
      · simpa [hp, tabGet, hi] using ih

/-- A listed register is kept, any other is at its reset value. -/
theorem tabGet_keepRegs (l : List Nat) (m : Mach) (a : Nat) :
    tabGet regReset (keepRegs l m) a = if l.contains a then rd a m else regReset a :=
  tabGet_filter_key regReset (fun a => l.contains a) m.regs a

/-! ### The resets -/

/-- A device that does not hold the token has none to release. -/
theorem releaseToken_none {m : Mach} (h : hasToken m = false) (reason : Nat) : releaseToken reason m = m := by
  simp [releaseToken, h]

theorem devState_fset_state {x : Nat} (h : x < 16) (m : Mach) : devState (fset GCTL_DEV_STATE.state x m) = x := by
  rw [devState, fget_fset_same (by decide)]
  exact Nat.mod_eq_of_lt h

/-- The core's reset keeps the registers of the fuses, the thermal sampler and the housekeeping domain. -/
theorem rd_coreReset {a : Nat} (h1 : a ≠ HLT_TWIN_STATUS) (h2 : a ≠ CLK_STATUS) (h3 : a ≠ GCTL_DEV_STATE) (m : Mach) :
    rd a (coreReset m) = if (fuseRegs ++ thermRegs ++ hkRegs).contains a then rd a m else regReset a := by
  rw [coreReset, rd_fset_other (f := GCTL_DEV_STATE.busy) h3, rd_fset_other (f := HLT_TWIN_STATUS.tok_in) h1,
    rd_fset_other (f := CLK_STATUS.lpll_lock) h2, rd_fset_other (f := CLK_STATUS.ref_present) h2]
  exact tabGet_keepRegs _ m a

/-- R514, R517: the fuses alone are kept. -/
theorem rd_powerOff {a : Nat} (h : a ≠ GCTL_DEV_STATE) (m : Mach) :
    rd a (powerOff m) = if fuseRegs.contains a then rd a m else regReset a := by
  rw [powerOff, rd_fset_other (f := GCTL_DEV_STATE.state) h]
  exact tabGet_keepRegs fuseRegs m a

theorem devState_powerOff (m : Mach) : devState (powerOff m) = 0 := devState_fset_state (by decide) _

/-- What PORESET_ASSERT leaves of a running device without the token, before its state and its board levels are shown. -/
def poresetHeld (m : Mach) : Mach :=
  { coreReset m with regs := keepRegs (fuseRegs ++ thermRegs) (coreReset m), power := .held, poreset := true, replaceN := false,
                     jtag := {}, logSeq := 0 }

theorem poresetAssert_runs {m : Mach} (hlatch : devState m ≠ 7) (hpower : m.power ≠ .off) (htoken : hasToken m = false) :
    poresetAssert m = fset GCTL_DEV_STATE.state 0 (fset HLT_TWIN_STATUS.tok_in (fget HLT_TWIN_STATUS.tok_in m)
      (fset CLK_STATUS.ref_present (fget CLK_STATUS.ref_present m) (poresetHeld m))) := by
  have hrun : ¬ (m.power = .off ∨ devState m = 7) := by simp [hlatch, hpower]
  rw [poresetAssert, if_neg hrun, releaseToken_none htoken]; rfl

/-- R529: the cause of a shutdown outlives PORESET_N. -/
theorem shdnCause_poresetHeld (m : Mach) : rd MON_SHDN_CAUSE (poresetHeld m) = rd MON_SHDN_CAUSE m := by
  have hkept : rd MON_SHDN_CAUSE (poresetHeld m) = rd MON_SHDN_CAUSE (coreReset m) :=
    (tabGet_keepRegs _ _ _).trans (if_pos (by decide))
  rw [hkept, rd_coreReset (by decide) (by decide) (by decide), if_pos (by decide)]

theorem shdnCause_poresetAssert {m : Mach} (hlatch : devState m ≠ 7) (hpower : m.power ≠ .off) (htoken : hasToken m = false) :
    rd MON_SHDN_CAUSE (poresetAssert m) = rd MON_SHDN_CAUSE m := by
  rw [poresetAssert_runs hlatch hpower htoken, rd_fset_other (by decide), rd_fset_other (by decide), rd_fset_other (by decide),
    shdnCause_poresetHeld]

theorem poresetRelease_starts {m : Mach} (hlatch : devState m ≠ 7) (hpower : m.power = .off ∨ m.power = .held) :
    poresetRelease m = send (.avs (avsFrame (fget GCTL_AVS_STATUS.req_code m)))
      { wr GCTL_DEV_STATE 0x1#32 m with power := .waitCore, present := true, poreset := false } := by
  have hreset : regReset GCTL_DEV_STATE = 0x1#32 := by decide
  rw [poresetRelease, if_neg hlatch, if_pos hpower, hreset]

/-- Settles O20: each event by the power state it meets. That no tile and no byte is left rests on the model's rest state of memory
(assumption 3), and the mark of a snapshot that was cut off on assumption 98. -/
theorem powerEventsMoveTheCore : Obligations.PowerEventsMoveTheCore := by
  intro s
  refine ⟨fun hlatch hpower => ?_, fun h => ?_, fun h => ?_, fun hpower hlatch => ?_, rfl, ?_, fun h => ?_,
    fun hlatch hpower htoken => ?_⟩
  · change answer s (poresetRelease s.m) = _
    rw [poresetRelease_starts hlatch hpower]; rfl
  · change answer s (vddGood s.m) = _
    rw [vddGood, if_pos h]; rfl
  · change answer s (vddTimeout s.m) = _
    rw [vddTimeout, if_pos h]; rfl
  · change answer s (brownout s.m) = _
    rw [brownout, if_pos ⟨hpower, hlatch⟩]; rfl
  · refine ⟨powerOff s.m, rfl, devState_powerOff s.m, rfl, rfl, rfl, rfl, rfl, rfl, ?_, ?_⟩
    · exact (rd_powerOff (by decide) s.m).trans (if_pos (by decide))
    · exact (rd_powerOff (by decide) s.m).trans (if_neg (by decide))
  · change answer s (poresetAssert s.m) = _
    rw [poresetAssert, if_pos (.inr h)]; rfl
  · refine ⟨poresetAssert s.m, rfl, ?_⟩
    refine ⟨?_, ?_, ?_, ?_, ?_, ?_, shdnCause_poresetAssert hlatch hpower htoken⟩ <;>
      rw [poresetAssert_runs hlatch hpower htoken]
    · exact devState_fset_state (by decide) _
    all_goals rfl

end Sys2Proof.Machine

/-! SUPPORT. A slice whose planned remap waits when the soft reset takes its quadrant out of RUNNING (R75, R126), which refutes
O19. -/

namespace Sys2Proof.Machine

/-- An ACTIVE device without the token: quadrant 0 is RUNNING, and the planned remap of slice 0 of path 0 waits. -/
def remapMach : Mach :=
  let waits : HltSt := { waiting := [⟨0, 0, 0, 0⟩] }
  fset (GCTL_QUAD_STATE.st_q 0) 2 (fset GCTL_DEV_STATE.state 5 { power := .coreRun, hlt := waits })

/-- The soft reset takes quadrant 0 out of RUNNING, where the remap is due: the remap table of the NVM takes its entry. -/
theorem remap_softReset_remapMach : (softReset 7 remapMach).nvm.remap.entries = [⟨0, 0, 0, 0, 4⟩] := by decide +kernel

/-- Refutes O19: it says that the NVM is as it was but for the marks of writes that were cut off, where the soft reset first takes
every RUNNING quadrant out of that state, and a slice remap that waits in one is then due at once (R126) and stands in the remap
table. In `remapMach` the table is empty before and holds the entry of slice 0 of path 0 afterwards. -/
theorem not_softResetReturnsToBoot : ¬ Obligations.SoftResetReturnsToBoot := by
  intro h
  have hreach : reach GCTL_DEV_CMD remapMach = true := by decide
  have hidle : fon GCTL_DEV_STATE.busy remapMach = false := by decide
  obtain ⟨t, hexec, -, -, -, -, -, -, -, -, -, -, -, -, hnvm, -⟩ := h ⟨remapMach, []⟩ hreach hidle (by decide)
  have ht : softReset 7 remapMach = t :=
    next_withM_inj ((answer_devCmd_idle (s := ⟨remapMach, []⟩) hreach hidle (softReset 7)).symm.trans hexec)
  have hclaim : t.nvm.remap.entries = [] := by rw [hnvm]; rfl
  rw [← ht, remap_softReset_remapMach] at hclaim
  exact absurd hclaim (List.cons_ne_nil _ _)

end Sys2Proof.Machine

/-! SUPPORT. The end of a quadrant's power-down while a write of the DMA is on its way into its domain (R357), which refutes O31. -/

namespace Sys2Proof.Machine

theorem exec_quadPowerDownComplete (q : Fin 4) (s : State) :
    exec (.quadPowerDownComplete q) s = .next (s.withM (powerDownComplete q s.m)) := rfl

/-- R357: the power-down is not over while the DMA has a write on its way into the quadrant's domain. -/
theorem powerDownComplete_waits {q : Nat} {m : Mach} (h : dmaQuiet q m = false) : powerDownComplete q m = m :=
  if_neg fun ⟨_, hquiet⟩ => by simp [h] at hquiet

/-- Quadrant 0 powers down, and channel 0 has issued a write into its block that has not arrived. -/
def dmaMach : Mach :=
  let channel : DmaCh := { pendW := [(0x100000, [0#8])] }
  { power := .coreRun, quads := [(0, { phase := .powerDown })], dma := [(0, channel)] }

/-- Refutes O31: its clause on the end of a power-down leaves the DMA out. In `dmaMach` quadrant 0 is in its power-down with no request
waiting, but a write is on its way into its block: the command waits for it (R357), and the quadrant is not at rest. -/
theorem not_powerDownsAndSelfTestsEnd : ¬ Obligations.PowerDownsAndSelfTestsEnd := by
  intro h
  obtain ⟨-, hends, -⟩ := h ⟨dmaMach, []⟩
  obtain ⟨t, hexec, -, hrest, -⟩ := hends 0 (by decide) (by decide)
  rw [exec_quadPowerDownComplete] at hexec
  have ht : powerDownComplete 0 dmaMach = t := next_withM_inj hexec
  rw [powerDownComplete_waits (by decide)] at ht
  rw [← ht] at hrest
  exact absurd hrest (by decide)

end Sys2Proof.Machine

/-! SUPPORT. Writes of GCTL_QUAD_REQ and GCTL_LOOPBACK, and the end of a drain (R77, R86, R88, R95). -/

namespace Sys2Proof.Machine

/-! ### A field written for each of several quadrants -/

theorem getQ_setQ_other {q r : Nat} (h : r ≠ q) (x : Quad) (m : Mach) : getQ r (setQ q x m) = getQ r m := by
  simp [getQ, setQ, tabGet_tabPut_other _ _ _ h]

theorem mem_quads4 {q : Nat} : q ∈ quads4 ↔ q < 4 := by
  simp only [quads4, List.mem_cons, List.not_mem_nil, or_false]
  omega

/-- What the update of each element brings about, and the updates of the others leave, holds of every element afterwards. -/
theorem each_brings {I : Mach → Prop} {P : Nat → Mach → Prop} {f : Nat → Mach → Mach} {l : List Nat}
    (hinv : ∀ q ∈ l, ∀ m, I m → I (f q m)) (hown : ∀ q ∈ l, ∀ m, I m → P q (f q m))
    (hother : ∀ r ∈ l, ∀ q, q ≠ r → ∀ m, I m → P q m → P q (f r m)) {m : Mach} (hm : I m) : ∀ q ∈ l, P q (each l f m) := by
  have hkeep : ∀ q, ∀ l' ⊆ l, ∀ m, I m → P q m → P q (each l' f m) := by
    intro q l' hsub
    induction l' with
    | nil => exact fun _ _ hP => hP
    | cons r l' ih =>
      intro m hm hP
      have hr : r ∈ l := hsub List.mem_cons_self
      refine ih (fun _ h => hsub (List.mem_cons_of_mem _ h)) (f r m) (hinv r hr m hm) ?_
      by_cases hqr : q = r
      · exact hqr ▸ hown r hr m hm
      · exact hother r hr q hqr m hm hP
  have hall : ∀ l' ⊆ l, ∀ m, I m → ∀ q ∈ l', P q (each l' f m) := by
    intro l' hsub
    induction l' with
    | nil => exact fun _ _ q hq => absurd hq List.not_mem_nil
    | cons r l' ih =>
      intro m hm q hq
      have hr : r ∈ l := hsub List.mem_cons_self
      have htail : l' ⊆ l := fun _ h => hsub (List.mem_cons_of_mem _ h)
      rcases List.mem_cons.1 hq with rfl | hq
      · exact hkeep q l' htail _ (hinv q hr m hm) (hown q hr m hm)
      · exact ih htail _ (hinv r hr m hm) q hq
  exact hall l (List.Subset.refl l) m hm

theorem fget_of_rd {m m' : Mach} {f : Fld} (h : rd f.reg m' = rd f.reg m) : fget f m' = fget f m := by rw [fget, h, fget]

theorem fon_fsetB {f : Fld} (hw : f.w = 1) (h : f.lo + f.w ≤ 32) (b : Bool) (m : Mach) : fon f (fsetB f b m) = b := by
  rw [fon, fsetB, fget_fset_same h, hw]
  cases b <;> rfl

theorem regsKept_fset (f : Fld) (x : Nat) (m : Mach) : regsKept [f.reg] m (fset f x m) := regsKept_wr f.reg _ m

theorem regsKept_fsetB (f : Fld) (b : Bool) (m : Mach) : regsKept [f.reg] m (fsetB f b m) := regsKept_wr f.reg _ m

/-- R460: a notice to the twin touches the messages sent and the twin's own state. -/
theorem mirror_frame (cls : Nat) (b : MirBody) (m : Mach) : ∃ o t, mirror cls b m = { m with out := o, twin := t } := by
  unfold mirror
  split
  · exact ⟨_, _, rfl⟩
  · exact ⟨m.out, m.twin, rfl⟩

/-! ### Requests (R77, R88) -/

/-- `m` is `m0` with GCTL_QUAD_REQ written with the fields of `v`, apart from what the requests do to their quadrants' phases. -/
structure ReqWritten (v : W) (m0 m : Mach) : Prop where
  trans : m.trans = m0.trans
  clk : m.clk = m0.clk
  failed : ∀ q, (getQ q m).qpllFailed = (getQ q m0).qpllFailed
  fields : ∀ q < 4, fget (GCTL_QUAD_REQ.req_q q) m = wfld v (2 * q) 2
  regs : regsKept [GCTL_QUAD_REQ] m0 m
  stores : storesKept m0 m

/-- The request bits that a write takes. -/
theorem wfld_reqBits {q : Nat} (h : q < 4) (v : W) : wfld (v &&& 0xFFF#32) (2 * q) 2 = wfld v (2 * q) 2 := by
  interval_cases q <;> exact wfld_and_mask (by decide) v

theorem getLsbD_forceBits {q : Nat} (h : q < 4) (v : W) : (v &&& 0xFFF#32).getLsbD (8 + q) = v.getLsbD (8 + q) := by
  have hmask : (0xFFF#32).getLsbD (8 + q) = true := by interval_cases q <;> rfl
  rw [BitVec.getLsbD_and, hmask, Bool.and_true]

/-- The write as it stands in the register, told to the twin. -/
def reqStart (v : W) (m : Mach) : Mach := mirror 2 (.quadReq (v &&& 0xFFF#32)) (wr GCTL_QUAD_REQ (v &&& 0xFFF#32) m)

theorem reqWritten_reqStart (v : W) (m : Mach) : ReqWritten v m (reqStart v m) := by
  obtain ⟨o, t, h⟩ := mirror_frame 2 (.quadReq (v &&& 0xFFF#32)) (wr GCTL_QUAD_REQ (v &&& 0xFFF#32) m)
  rw [reqStart, h]
  refine ⟨rfl, rfl, fun _ => rfl, fun q hq => ?_, regsKept_wr GCTL_QUAD_REQ _ m, .refl m⟩
  have hread : rd GCTL_QUAD_REQ (wr GCTL_QUAD_REQ (v &&& 0xFFF#32) m) = v &&& 0xFFF#32 := rd_wr_same ..
  exact (congrArg (fun x => wfld x (2 * q) 2) hread).trans (wfld_reqBits hq v)

/-- The phases of a quadrant may change, but not whether its loop has failed. -/
theorem ReqWritten.setQ {v : W} {m0 m : Mach} (h : ReqWritten v m0 m) {q : Nat} {x : Quad}
    (hx : x.qpllFailed = (getQ q m).qpllFailed) : ReqWritten v m0 (setQ q x m) where
  trans := h.trans
  clk := h.clk
  failed r := by
    by_cases hr : r = q
    · rw [hr, getQ_setQ_same, hx, h.failed]
    · rw [getQ_setQ_other hr, h.failed]
  fields := h.fields
  regs := h.regs
  stores := h.stores

/-- So may the force bits and the pending bit. -/
theorem ReqWritten.fset {v : W} {m0 m : Mach} (h : ReqWritten v m0 m) {f : Fld} (hreg : f.reg = GCTL_QUAD_REQ) (hlo : 8 ≤ f.lo)
    (hw : f.lo + f.w ≤ 32) (x : Nat) : ReqWritten v m0 (fset f x m) where
  trans := h.trans
  clk := h.clk
  failed := h.failed
  fields q hq := by
    have hdisj : (GCTL_QUAD_REQ.req_q q).lo + (GCTL_QUAD_REQ.req_q q).w ≤ f.lo := by
      change 2 * q + 2 ≤ f.lo
      omega
    rw [fget_fset_other hw (.inr (.inr hdisj)), h.fields q hq]
  regs := h.regs.trans (hreg ▸ regsKept_fset f x m)
  stores := h.stores

theorem ReqWritten.devState {v : W} {m0 m : Mach} (h : ReqWritten v m0 m) : devState m = devState m0 := h.regs.fget (by decide)

theorem ReqWritten.quadState {v : W} {m0 m : Mach} (h : ReqWritten v m0 m) (q : Nat) : quadState q m = quadState q m0 :=
  h.regs.fget (f := GCTL_QUAD_STATE.st_q q) (by simp [GCTL_QUAD_STATE.st_q, GCTL_QUAD_STATE, GCTL_QUAD_REQ])

theorem ReqWritten.timingOn {v : W} {m0 m : Mach} (h : ReqWritten v m0 m) : timingOn m = timingOn m0 :=
  h.regs.timingOn (by decide)

/-- R88: GCTL_QUAD_REQ.pending follows the fields that wait. -/
theorem refreshReqPending_leaves {v : W} {m0 m : Mach} (h : ReqWritten v m0 m) : ReqWritten v m0 (refreshReqPending m) ∧
    (∀ q, getQ q (refreshReqPending m) = getQ q m) ∧
    fon GCTL_QUAD_REQ.pending (refreshReqPending m) = quads4.any fun q => (getQ q m).pend.isSome :=
  ⟨h.fset rfl (by decide) (by decide) _, fun _ => rfl, fon_fsetB rfl (by decide) _ m⟩

theorem exec_quadReqWrite {s : State} (h : reach GCTL_QUAD_REQ s.m = true) (v : W) : exec (.quadReqWrite v) s =
    .next (s.withM (refreshReqPending (each quads4 (writeReq (v &&& 0xFFF#32)) (reqStart v s.m)))) := by
  change answer s (gate GCTL_QUAD_REQ (quadReqWrite v) s.m) = _
  rw [gate_reach h]; rfl

/-! ### Requests in STANDBY (R77) -/

/-- The device is in STANDBY with no transition, every quadrant POWERED_DOWN, and no loop has failed. -/
def standbyDown (m : Mach) : Prop :=
  devState m = 3 ∧ m.trans = none ∧ m.clk.mpllFailed = false ∧ ∀ q < 4, quadState q m = 0 ∧ (getQ q m).qpllFailed = false

theorem ReqWritten.standbyDown {v : W} {m0 m : Mach} (h : ReqWritten v m0 m) (h0 : standbyDown m0) : standbyDown m := by
  obtain ⟨hdev, htrans, hmpll, hquads⟩ := h0
  exact ⟨h.devState.trans hdev, h.trans.trans htrans, by rw [h.clk]; exact hmpll,
    fun q hq => ⟨(h.quadState q).trans (hquads q hq).1, (h.failed q).trans (hquads q hq).2⟩⟩

/-- What a request for POWERED_DOWN or IDLE is in STANDBY: the quadrant's IDLE target. -/
def reqHeld (x : W) (q : Nat) (m : Mach) : Mach :=
  setQ q { getQ q m with pend := none, idleTarget := decide (wfld x (2 * q) 2 = 1) }
    (fset ⟨GCTL_QUAD_REQ, 8 + q, 1⟩ 0 (setQ q { getQ q m with pend := none } m))

/-- R84: such a request is not refused. -/
theorem reqRefused_standby {q st : Nat} {m : Mach} (hdev : devState m = 3) (hmpll : m.clk.mpllFailed = false)
    (hq : (getQ q m).qpllFailed = false) (hst : st ≤ 1) : reqRefused q st m = false := by
  interval_cases st <;> simp [reqRefused, admits, hdev, hmpll, hq]

theorem takeReqDown_standby {q st : Nat} {m : Mach} (hdev : devState m = 3) (htrans : m.trans = none)
    (hmpll : m.clk.mpllFailed = false) (hq : (getQ q m).qpllFailed = false) (hst : st ≤ 1) :
    takeReqDown q st m = setQ q { getQ q m with idleTarget := decide (st = 1) } m := by
  simp [takeReqDown, reqRefused_standby hdev hmpll hq hst, hdev, htrans]

theorem writeReq_standby {x : W} {q : Nat} {m : Mach} (h : standbyDown m) (hq : q < 4) (hx : wfld x (2 * q) 2 ≤ 1) :
    writeReq x q m = reqHeld x q m := by
  obtain ⟨hdev, htrans, hmpll, hquads⟩ := h
  obtain ⟨hdown, hfailed⟩ := hquads q hq
  have hstopped : quadStopped q m = true := by simp [quadStopped, hdown]
  have hstart : fget GCTL_DEV_STATE.state (fset ⟨GCTL_QUAD_REQ, 8 + q, 1⟩ 0 (setQ q { getQ q m with pend := none } m)) = 3 :=
    (fget_fset_other_reg (show GCTL_DEV_STATE ≠ GCTL_QUAD_REQ by decide) _ _).trans hdev
  have hown : getQ q (fset ⟨GCTL_QUAD_REQ, 8 + q, 1⟩ 0 (setQ q { getQ q m with pend := none } m)) =
      { getQ q m with pend := none } := getQ_setQ_same ..
  rw [writeReq, if_pos hstopped, takeReqDown_standby hstart htrans hmpll (by rw [hown]; exact hfailed) hx, hown]
  rfl

theorem reqWritten_reqHeld {v x : W} {m0 m : Mach} (h : ReqWritten v m0 m) {q : Nat} (hq : q < 4) : ReqWritten v m0 (reqHeld x q m) := by
  have hcleared := (h.setQ (q := q) (x := { getQ q m with pend := none }) rfl).fset (f := ⟨GCTL_QUAD_REQ, 8 + q, 1⟩) rfl
    (Nat.le_add_right 8 q) (show 8 + q + 1 ≤ 32 by omega) 0
  exact hcleared.setQ (((h.failed q).trans (hcleared.failed q).symm))

theorem getQ_reqHeld_other {q r : Nat} (h : q ≠ r) (x : W) (m : Mach) : getQ q (reqHeld x r m) = getQ q m := by
  rw [reqHeld, getQ_setQ_other h]
  exact getQ_setQ_other h _ m

/-- R77: the requests of a write in STANDBY are the IDLE targets. -/
theorem quadReq_standby {v : W} {m : Mach} (h : standbyDown m) (hv : ∀ q < 4, wfld v (2 * q) 2 ≤ 1) :
    ReqWritten v m (each quads4 (writeReq (v &&& 0xFFF#32)) (reqStart v m)) ∧
    ∀ q < 4, (getQ q (each quads4 (writeReq (v &&& 0xFFF#32)) (reqStart v m))).idleTarget = decide (wfld v (2 * q) 2 = 1) ∧
      (getQ q (each quads4 (writeReq (v &&& 0xFFF#32)) (reqStart v m))).pend = none := by
  have hheld : ∀ q ∈ quads4, ∀ u, ReqWritten v m u → writeReq (v &&& 0xFFF#32) q u = reqHeld (v &&& 0xFFF#32) q u := by
    intro q hq u hu
    have hlt := mem_quads4.1 hq
    exact writeReq_standby (hu.standbyDown h) hlt (by rw [wfld_reqBits hlt]; exact hv q hlt)
  have hinv : ∀ q ∈ quads4, ∀ u, ReqWritten v m u → ReqWritten v m (writeReq (v &&& 0xFFF#32) q u) := fun q hq u hu => by
    rw [hheld q hq u hu]
    exact reqWritten_reqHeld hu (mem_quads4.1 hq)
  refine ⟨each_inv _ _ _ hinv _ (reqWritten_reqStart v m), fun q hq => ?_⟩
  refine each_brings (P := fun q u => (getQ q u).idleTarget = decide (wfld v (2 * q) 2 = 1) ∧ (getQ q u).pend = none)
    hinv (fun q hq u hu => ?_) (fun r hr q hqr u hu hP => ?_) (reqWritten_reqStart v m) q (mem_quads4.2 hq)
  · rw [hheld q hq u hu, reqHeld, getQ_setQ_same, wfld_reqBits (mem_quads4.1 hq)]
    exact ⟨rfl, rfl⟩
  · rw [hheld r hr u hu, getQ_reqHeld_other hqr]
    exact hP

/-! ### Requests of quadrants whose timing runs (R88) -/

theorem writeReq_running {x : W} {q : Nat} {m : Mach} (ht : timingOn m = true) (hq : quadState q m ≠ 0) :
    writeReq x q m = pendReq q (wfld x (2 * q) 2) (x.getLsbD (8 + q)) m :=
  if_neg (by simp [quadStopped, ht, hq])

theorem reqWritten_pendReq {v : W} {m0 m : Mach} (h : ReqWritten v m0 m) (q st : Nat) (force : Bool) :
    ReqWritten v m0 (pendReq q st force m) := by
  have hset := h.setQ (q := q) (x := { getQ q m with pend := some (st, force) }) rfl
  rw [pendReq]
  split
  · exact ⟨hset.trans, hset.clk, hset.failed, hset.fields, hset.regs, hset.stores⟩
  · exact hset

theorem getQ_pendReq (r q st : Nat) (force : Bool) (m : Mach) :
    getQ r (pendReq q st force m) = getQ r (setQ q { getQ q m with pend := some (st, force) } m) := by
  rw [pendReq]
  split <;> rfl

/-- R88: each field waits, with its force bit. -/
theorem quadReq_running {v : W} {m : Mach} (ht : timingOn m = true) (hquads : ∀ q < 4, quadState q m ≠ 0) :
    ReqWritten v m (each quads4 (writeReq (v &&& 0xFFF#32)) (reqStart v m)) ∧
    ∀ q < 4, (getQ q (each quads4 (writeReq (v &&& 0xFFF#32)) (reqStart v m))).pend =
      some (wfld v (2 * q) 2, v.getLsbD (8 + q)) := by
  have hpend : ∀ q ∈ quads4, ∀ u, ReqWritten v m u →
      writeReq (v &&& 0xFFF#32) q u = pendReq q (wfld v (2 * q) 2) (v.getLsbD (8 + q)) u := by
    intro q hq u hu
    have hlt := mem_quads4.1 hq
    rw [writeReq_running (hu.timingOn.trans ht) (by rw [hu.quadState]; exact hquads q hlt), wfld_reqBits hlt,
      getLsbD_forceBits hlt]
  have hinv : ∀ q ∈ quads4, ∀ u, ReqWritten v m u → ReqWritten v m (writeReq (v &&& 0xFFF#32) q u) := fun q hq u hu => by
    rw [hpend q hq u hu]
    exact reqWritten_pendReq hu ..
  refine ⟨each_inv _ _ _ hinv _ (reqWritten_reqStart v m), fun q hq => ?_⟩
  refine each_brings (P := fun q u => (getQ q u).pend = some (wfld v (2 * q) 2, v.getLsbD (8 + q)))
    hinv (fun q hq u hu => ?_) (fun r hr q hqr u hu hP => ?_) (reqWritten_reqStart v m) q (mem_quads4.2 hq)
  · rw [hpend q hq u hu, getQ_pendReq, getQ_setQ_same]
  · rw [hpend r hr u hu, getQ_pendReq, getQ_setQ_other hqr]
    exact hP

/-! ### The end of a drain (R86) -/

theorem exec_quadDrainComplete (q : Fin 4) (s : State) :
    exec (.quadDrainComplete q) s = .next (s.withM (drainComplete q s.m)) := rfl

theorem drainComplete_rests {q : Nat} {m : Mach} (h : (getQ q m).phase = .drain)
    (hded : ¬ (quadState q m = 3 ∧ (getQ q m).target = 3)) : drainComplete q m = setPhase q .rest (getQ q m).target m := by
  rw [drainComplete, if_pos h]
  exact if_neg hded

theorem getQ_setPhase (r q : Nat) (p : QPhase) (t : Nat) (m : Mach) :
    getQ r (setPhase q p t m) = getQ r (setQ q { getQ q m with phase := p, target := t } m) := rfl

theorem setPhase_keeps (q : Nat) (p : QPhase) (t : Nat) (m : Mach) :
    regsKept [GCTL_QUAD_STATE] m (setPhase q p t m) ∧ storesKept m (setPhase q p t m) :=
  ⟨regsKept_fsetB ⟨GCTL_QUAD_STATE, 8 + q, 1⟩ _ (setQ q { getQ q m with phase := p, target := t } m), .refl m⟩

/-! ### Loopback points (R95) -/

/-- The registers that a write of GCTL_LOOPBACK can change where no point is refused. -/
def loopRegs : List Nat := GCTL_LOOPBACK :: (List.range 8).map fun o => QUAD_RX_STATUS (.obs (toObs o))

theorem exec_loopbackWrite {s : State} (h : reach GCTL_LOOPBACK s.m = true) (v : W) :
    exec (.loopbackWrite v) s = .next (s.withM (refreshInternal (each quads4 (writeLoop v) s.m))) := by
  change answer s (gate GCTL_LOOPBACK (loopbackWrite v) s.m) = _
  rw [gate_reach h]; rfl

theorem writeLoop_taken {v : W} {q : Nat} {m : Mach} (hp : wfld v (4 * q) 3 ≤ 3) (hst : quadState q m = 1 ∨ quadState q m = 3) :
    writeLoop v q m = fset (GCTL_LOOPBACK.lb_q q) (wfld v (4 * q) 3) m :=
  if_neg (by omega)

theorem writeLoop_refused {v : W} {q : Nat} {m : Mach} (hp : wfld v (4 * q) 3 ≠ 0) (hst : quadState q m = 2) :
    writeLoop v q m = setEv GCTL_STATE_EVENTS.loop_refused m :=
  if_pos (.inr (by omega))

theorem writeLoop_cases (v : W) (q : Nat) (m : Mach) : writeLoop v q m = setEv GCTL_STATE_EVENTS.loop_refused m ∨
    writeLoop v q m = fset (GCTL_LOOPBACK.lb_q q) (wfld v (4 * q) 3) m := by
  unfold writeLoop
  dsimp only
  split
  · exact .inl rfl
  · exact .inr rfl

/-- The point of one quadrant is no part of another's. -/
theorem loopPoint_other {q r : Nat} (hr : r < 4) (h : q ≠ r) (x : Nat) (m : Mach) :
    fget (GCTL_LOOPBACK.lb_q q) (fset (GCTL_LOOPBACK.lb_q r) x m) = fget (GCTL_LOOPBACK.lb_q q) m := by
  refine fget_fset_other ?_ (.inr ?_) x m
  · change 4 * r + 3 ≤ 32
    omega
  · change 4 * r + 3 ≤ 4 * q ∨ 4 * q + 3 ≤ 4 * r
    omega

theorem refreshInternal_keeps (m : Mach) :
    regsKept ((List.range 8).map fun o => QUAD_RX_STATUS (.obs (toObs o))) m (refreshInternal m) ∧
      storesKept m (refreshInternal m) := by
  refine ⟨regsKept_each (fun o ho u => (regsKept_fsetB (QUAD_RX_STATUS.internal (.obs (toObs o))) _ u).mono ?_) m,
    ?_⟩
  · exact List.cons_subset.2 ⟨List.mem_map_of_mem ho, List.nil_subset _⟩
  · exact each_inv (storesKept m) (List.range 8) _ (fun _ _ _ hu => hu) m (.refl m)

theorem rd_refreshInternal {a : Nat} (h : a < 0x100000) (m : Mach) : rd a (refreshInternal m) = rd a m := by
  refine (refreshInternal_keeps m).1 a fun hmem => ?_
  obtain ⟨o, -, ho⟩ := List.mem_map.1 hmem
  simp only [QUAD_RX_STATUS, rxBase, obsBase, quadBase] at ho
  omega

/-- R95: a write of points for quadrants that are IDLE or CAL_DEDICATED sets every one of them. -/
theorem loopback_taken {v : W} {m : Mach}
    (h : ∀ q < 4, (quadState q m = 1 ∨ quadState q m = 3) ∧ wfld v (4 * q) 3 ≤ 3) :
    (∀ q < 4, fget (GCTL_LOOPBACK.lb_q q) (refreshInternal (each quads4 (writeLoop v) m)) = wfld v (4 * q) 3) ∧
      regsKept loopRegs m (refreshInternal (each quads4 (writeLoop v) m)) ∧
      storesKept m (refreshInternal (each quads4 (writeLoop v) m)) := by
  have htaken : ∀ q ∈ quads4, ∀ u, regsKept [GCTL_LOOPBACK] m u ∧ storesKept m u →
      writeLoop v q u = fset (GCTL_LOOPBACK.lb_q q) (wfld v (4 * q) 3) u := by
    intro q hq u hu
    obtain ⟨hst, hp⟩ := h q (mem_quads4.1 hq)
    have hkept : quadState q u = quadState q m := hu.1.fget (f := GCTL_QUAD_STATE.st_q q)
      (by simp [GCTL_QUAD_STATE.st_q, GCTL_QUAD_STATE, GCTL_LOOPBACK])
    exact writeLoop_taken hp (by rw [hkept]; exact hst)
  have hinv : ∀ q ∈ quads4, ∀ u, regsKept [GCTL_LOOPBACK] m u ∧ storesKept m u →
      regsKept [GCTL_LOOPBACK] m (writeLoop v q u) ∧ storesKept m (writeLoop v q u) := by
    intro q hq u hu
    rw [htaken q hq u hu]
    exact ⟨hu.1.trans (regsKept_fset (GCTL_LOOPBACK.lb_q q) _ u), hu.2⟩
  have hstart : regsKept [GCTL_LOOPBACK] m m ∧ storesKept m m := ⟨.refl _ m, .refl m⟩
  obtain ⟨hregs, hstores⟩ := each_inv (fun u => regsKept [GCTL_LOOPBACK] m u ∧ storesKept m u) quads4 _ hinv m hstart
  have hfields := each_brings (P := fun q u => fget (GCTL_LOOPBACK.lb_q q) u = wfld v (4 * q) 3) hinv
    (fun q hq u hu => by
      have hlt := mem_quads4.1 hq
      rw [htaken q hq u hu, fget_fset_same (show 4 * q + 3 ≤ 32 by omega)]
      exact Nat.mod_eq_of_lt (wfld_lt v (4 * q) 3))
    (fun r hr q hqr u hu hP => by rw [htaken r hr u hu, loopPoint_other (mem_quads4.1 hr) hqr]; exact hP) hstart
  obtain ⟨hregs', hstores'⟩ := refreshInternal_keeps (each quads4 (writeLoop v) m)
  refine ⟨fun q hq => ?_, (hregs.mono ?_).trans (hregs'.mono (List.subset_cons_self _ _)), hstores.trans hstores'⟩
  · exact (fget_of_rd (f := GCTL_LOOPBACK.lb_q q) (rd_refreshInternal (a := GCTL_LOOPBACK) (by decide) _)).trans
      (hfields q (mem_quads4.2 hq))
  · exact List.cons_subset.2 ⟨List.mem_cons_self, List.nil_subset _⟩

/-- Quadrant `q` is in the state it was in, its loopback point and the stores are as they were. -/
structure LoopHeld (q : Nat) (m0 m : Mach) : Prop where
  state : quadState q m = quadState q m0
  point : fget (GCTL_LOOPBACK.lb_q q) m = fget (GCTL_LOOPBACK.lb_q q) m0
  stores : storesKept m0 m

theorem LoopHeld.setEv {q : Nat} {m0 m : Mach} (h : LoopHeld q m0 m) :
    LoopHeld q m0 (setEv GCTL_STATE_EVENTS.loop_refused m) where
  state := (fget_of_rd (rd_setEv (a := GCTL_QUAD_STATE) (by decide) (by decide) (by decide) m)).trans h.state
  point := (fget_of_rd (rd_setEv (a := GCTL_LOOPBACK) (by decide) (by decide) (by decide) m)).trans h.point
  stores := h.stores.trans (storesKept_setEv _ m)

theorem LoopHeld.fset {q r : Nat} {m0 m : Mach} (h : LoopHeld q m0 m) (hr : r < 4) (hqr : q ≠ r) (x : Nat) :
    LoopHeld q m0 (fset (GCTL_LOOPBACK.lb_q r) x m) where
  state := (fget_fset_other_reg (show GCTL_QUAD_STATE ≠ GCTL_LOOPBACK by decide) x m).trans h.state
  point := (loopPoint_other hr hqr x m).trans h.point
  stores := h.stores

theorem loopRefused_writeLoop {m : Mach} (h : fon GCTL_STATE_EVENTS.loop_refused m = true) (v : W) (r : Nat) :
    fon GCTL_STATE_EVENTS.loop_refused (writeLoop v r m) = true := by
  rcases writeLoop_cases v r m with hw | hw <;> rw [hw]
  · exact fon_setEv rfl (by decide) (by decide) (by decide) m
  · rw [fon, fget_fset_other_reg (show GCTL_STATE_EVENTS ≠ GCTL_LOOPBACK by decide)]
    exact h

/-- R95: a point for a quadrant that is RUNNING is refused, whatever the write holds for the others. -/
theorem loopback_refused {v : W} {q : Nat} {m : Mach} (hq : q < 4) (hst : quadState q m = 2) (hp : wfld v (4 * q) 3 ≠ 0) :
    LoopHeld q m (refreshInternal (each quads4 (writeLoop v) m)) ∧
      fon GCTL_STATE_EVENTS.loop_refused (refreshInternal (each quads4 (writeLoop v) m)) = true := by
  have hown : ∀ u, LoopHeld q m u → writeLoop v q u = setEv GCTL_STATE_EVENTS.loop_refused u :=
    fun u hu => writeLoop_refused hp (hu.state.trans hst)
  have hinv : ∀ r ∈ quads4, ∀ u, LoopHeld q m u → LoopHeld q m (writeLoop v r u) := by
    intro r hr u hu
    by_cases hqr : q = r
    · rw [← hqr, hown u hu]
      exact hu.setEv
    · rcases writeLoop_cases v r u with hw | hw <;> rw [hw]
      · exact hu.setEv
      · exact hu.fset (mem_quads4.1 hr) hqr _
  have hstart : LoopHeld q m m := ⟨rfl, rfl, .refl m⟩
  have hheld := each_inv (LoopHeld q m) quads4 _ hinv m hstart
  have hset := each_brings (P := fun r u => r = q → fon GCTL_STATE_EVENTS.loop_refused u = true) hinv
    (fun r _ u hu hrq => by rw [hrq, hown u hu]; exact fon_setEv rfl (by decide) (by decide) (by decide) u)
    (fun r _ _ _ u _ hP hrq => loopRefused_writeLoop (hP hrq) v r) hstart q (mem_quads4.2 hq) rfl
  have hfld : ∀ f : Fld, f.reg < 0x100000 → ∀ u, fget f (refreshInternal u) = fget f u :=
    fun f hf u => fget_of_rd (rd_refreshInternal hf u)
  exact ⟨⟨(hfld (GCTL_QUAD_STATE.st_q q) (show GCTL_QUAD_STATE < 0x100000 by decide) _).trans hheld.state,
    (hfld (GCTL_LOOPBACK.lb_q q) (show GCTL_LOOPBACK < 0x100000 by decide) _).trans hheld.point,
    hheld.stores.trans (refreshInternal_keeps _).2⟩, by rw [fon, hfld _ (by decide)]; exact hset⟩

/-- Settles O24: a write field by field, the drain and the points by what each quadrant's state admits. -/
theorem quadrantRequestsAreHeldOrTaken : Obligations.QuadrantRequestsAreHeldOrTaken := by
  intro s v
  refine ⟨fun hreach hdev htrans hmpll hq => ?_, fun hreach ht hq => ?_, fun q hphase hded => ?_, fun hreach h => ?_,
    fun hreach q hq hst hp => ?_⟩
  · have hdown : standbyDown s.m := ⟨hdev, htrans, hmpll, fun q hlt => ⟨(hq q hlt).1, (hq q hlt).2.1⟩⟩
    obtain ⟨hwritten, hheld⟩ := quadReq_standby hdown fun q hlt => (hq q hlt).2.2
    obtain ⟨hwritten', hgetQ, hpending⟩ := refreshReqPending_leaves hwritten
    refine ⟨_, exec_quadReqWrite hreach v, fun q hlt => ?_, ?_, hwritten'.regs, hwritten'.stores⟩
    · rw [hgetQ]
      exact ⟨(hheld q hlt).1, (hheld q hlt).2, hwritten'.fields q hlt⟩
    · rw [hpending, List.any_eq_false]
      intro q hmem
      simp [(hheld q (mem_quads4.1 hmem)).2]
  · obtain ⟨hwritten, hpend⟩ := quadReq_running (v := v) ht hq
    obtain ⟨hwritten', hgetQ, hpending⟩ := refreshReqPending_leaves hwritten
    refine ⟨_, exec_quadReqWrite hreach v, fun q hlt => ?_, ?_, hwritten'.regs, hwritten'.stores⟩
    · rw [hgetQ]
      exact ⟨hpend q hlt, hwritten'.quadState q⟩
    · rw [hpending, List.any_eq_true]
      exact ⟨0, mem_quads4.2 (by decide), by rw [hpend 0 (by decide)]; rfl⟩
  · obtain ⟨hregs, hstores⟩ := setPhase_keeps q .rest (getQ q s.m).target s.m
    refine ⟨setPhase q .rest (getQ q s.m).target s.m, ?_, ?_, ?_, fun r hr => ?_, hregs, hstores⟩
    · rw [exec_quadDrainComplete, drainComplete_rests hphase hded]
    · rw [getQ_setPhase, getQ_setQ_same]
    · rw [getQ_setPhase, getQ_setQ_same]
    · rw [getQ_setPhase, getQ_setQ_other hr]
  · exact ⟨_, exec_loopbackWrite hreach v, loopback_taken h⟩
  · obtain ⟨hheld, hset⟩ := loopback_refused hq hst hp
    exact ⟨_, exec_loopbackWrite hreach v, hheld.point, hset, hheld.stores⟩

end Sys2Proof.Machine

/-! SUPPORT. The fields of GCTL_DEV_STATE, and what the pins' refresh leaves, which every entry to a device state ends with
(R68, R232, R233). -/

namespace Sys2Proof.Machine

/-! ### GCTL_DEV_STATE -/

theorem rd_setDev_other {a : Nat} (h : a ≠ GCTL_DEV_STATE) (st c : Nat) (m : Mach) : rd a (setDev st c m) = rd a m := by
  rw [setDev, rd_fset_other (f := GCTL_DEV_STATE.cause) h, rd_fset_other (f := GCTL_DEV_STATE.state) h,
    rd_fset_other (f := GCTL_DEV_STATE.prev) h]

theorem devState_setDev {st : Nat} (h : st < 16) (c : Nat) (m : Mach) : devState (setDev st c m) = st := by
  rw [devState, setDev, fget_fset_other (by decide) (by decide)]
  exact devState_fset_state h _

theorem cause_setDev {c : Nat} (h : c < 16) (st : Nat) (m : Mach) : fget GCTL_DEV_STATE.cause (setDev st c m) = c := by
  rw [setDev, fget_fset_same (by decide)]
  exact Nat.mod_eq_of_lt h

theorem prev_setDev (st c : Nat) (m : Mach) : fget GCTL_DEV_STATE.prev (setDev st c m) = devState m := by
  rw [setDev, fget_fset_other (by decide) (by decide), fget_fset_other (by decide) (by decide), fget_fset_same (by decide)]
  exact Nat.mod_eq_of_lt (fget_lt GCTL_DEV_STATE.state m)

/-- The fields above state, prev and cause. -/
theorem fget_setDev_other {f : Fld} (h : f.reg ≠ GCTL_DEV_STATE ∨ 12 ≤ f.lo) (st c : Nat) (m : Mach) :
    fget f (setDev st c m) = fget f m := by
  have hdisj : ∀ g : Fld, g.reg = GCTL_DEV_STATE → g.lo + g.w ≤ 12 → ∀ x u, fget f (fset g x u) = fget f u := by
    intro g hreg hg x u
    refine fget_fset_other (by omega) ?_ x u
    rw [hreg]
    omega
  rw [setDev, hdisj GCTL_DEV_STATE.cause rfl (by decide), hdisj GCTL_DEV_STATE.state rfl (by decide),
    hdisj GCTL_DEV_STATE.prev rfl (by decide)]

theorem busy_endTrans (m : Mach) : fon GCTL_DEV_STATE.busy (endTrans m) = false := by
  rw [fon, endTrans, fget_fset_same (by decide)]; rfl

theorem fget_endTrans_other {f : Fld} (h : f.reg ≠ GCTL_DEV_STATE ∨ f.lo + f.w ≤ 17) (m : Mach) :
    fget f (endTrans m) = fget f m := by
  have hdisj : f.reg ≠ GCTL_DEV_STATE.busy.reg ∨ GCTL_DEV_STATE.busy.lo + GCTL_DEV_STATE.busy.w ≤ f.lo ∨
      f.lo + f.w ≤ GCTL_DEV_STATE.busy.lo := h.imp_right .inr
  exact fget_fset_other (by decide) hdisj 0 { m with trans := none, transDue := false }

theorem rd_endTrans_other {a : Nat} (h : a ≠ GCTL_DEV_STATE) (m : Mach) : rd a (endTrans m) = rd a m :=
  rd_fset_other (f := GCTL_DEV_STATE.busy) h 0 { m with trans := none, transDue := false }

/-! ### The pins -/

theorem setEvIf_frame (b : Bool) (f : Fld) (m : Mach) : ∃ r l q ms c p z, setEvIf b f m =
    { m with regs := r, log := l, logSeq := q, logMs := ms, logCnt := c, evtPend := p, poison := z } := by
  cases b
  · exact ⟨m.regs, m.log, m.logSeq, m.logMs, m.logCnt, m.evtPend, m.poison, rfl⟩
  · exact setEv_frame f m

/-- Quadrant `q`'s QUAD_FES_STATUS as the pins and the queues stand, and the conditions of R233 noted. -/
def fesShown (q : Nat) (m : Mach) : Mach :=
  let m1 := fsetB (QUAD_FES_STATUS.forced q) (decide (fget (QUAD_FES_PINCFG.pa_mask q) m ≠ 0) && !paOk q m)
    (fset (QUAD_FES_STATUS.fec q) (pinLevels q m)
      (fset (QUAD_FES_STATUS.fcb_q q) (getFes q m).fcb.length (fset (QUAD_FES_STATUS.pend q) (getFes q m).acts.length m)))
  setFes q { getFes q m1 with paOk := paOk q m } m1

theorem refreshFes_eq (q : Nat) (m : Mach) : refreshFes q m =
    setEvIf ((getFes q m).paOk && !paOk q m && decide (fget (QUAD_FES_PINCFG.pa_mask q) m ≠ 0)) (QUAD_FES_EVENTS.safe_forced q)
      (fesShown q m) := rfl

theorem fesShown_keeps (q : Nat) (m : Mach) : regsKept [QUAD_FES_STATUS q] m (fesShown q m) := by
  have hset : ∀ (f : Fld) x u, f.reg = QUAD_FES_STATUS q → regsKept [QUAD_FES_STATUS q] u (fset f x u) :=
    fun f x u hf => hf ▸ regsKept_fset f x u
  have hfes : ∀ x u, regsKept [QUAD_FES_STATUS q] u (setFes q x u) := fun _ _ _ _ => rfl
  unfold fesShown
  dsimp only
  refine regsKept.trans ?_ (hfes _ _)
  exact (((hset (QUAD_FES_STATUS.pend q) _ _ rfl).trans (hset (QUAD_FES_STATUS.fcb_q q) _ _ rfl)).trans
    (hset (QUAD_FES_STATUS.fec q) _ _ rfl)).trans (hset (QUAD_FES_STATUS.forced q) _ _ rfl)

/-- The pins of a quadrant: registers, its sequencer's state and what a sticky event touches. -/
theorem refreshFes_frame (q : Nat) (m : Mach) : ∃ r x l sq ms c p z, refreshFes q m =
    { m with regs := r, fes := x, log := l, logSeq := sq, logMs := ms, logCnt := c, evtPend := p, poison := z } := by
  obtain ⟨r, l, sq, ms, c, p, z, h⟩ := setEvIf_frame
    ((getFes q m).paOk && !paOk q m && decide (fget (QUAD_FES_PINCFG.pa_mask q) m ≠ 0)) (QUAD_FES_EVENTS.safe_forced q) (fesShown q m)
  exact ⟨r, _, l, sq, ms, c, p, z, (refreshFes_eq q m).trans h⟩

theorem rd_refreshFes {q a : Nat} (h0 : a ≠ QUAD_FES_STATUS q) (h : a ≠ QUAD_FES_EVENTS q) (h1 : a ≠ HLT_LOG_WPTR) (h2 : a ≠ HLT_EVENTS)
    (m : Mach) : rd a (refreshFes q m) = rd a m := by
  rw [refreshFes_eq, regsKept_setEvIf _ (QUAD_FES_EVENTS.safe_forced q) _ a, fesShown_keeps q m a]
  · simpa using h0
  · simp only [List.mem_cons, List.not_mem_nil, or_false, not_or]
    exact ⟨h, h1, h2⟩

theorem refreshPins_frame (m : Mach) : ∃ r x l sq ms c p z, refreshPins m =
    { m with regs := r, fes := x, log := l, logSeq := sq, logMs := ms, logCnt := c, evtPend := p, poison := z } := by
  refine each_inv (fun u => ∃ r x l sq ms c p z, u =
    { m with regs := r, fes := x, log := l, logSeq := sq, logMs := ms, logCnt := c, evtPend := p, poison := z }) quads4 refreshFes
    ?_ m ⟨m.regs, m.fes, m.log, m.logSeq, m.logMs, m.logCnt, m.evtPend, m.poison, rfl⟩
  rintro q - u ⟨r, x, l, sq, ms, c, p, z, rfl⟩
  obtain ⟨r', x', l', sq', ms', c', p', z', h⟩ := refreshFes_frame q
    { m with regs := r, fes := x, log := l, logSeq := sq, logMs := ms, logCnt := c, evtPend := p, poison := z }
  exact ⟨r', x', l', sq', ms', c', p', z', h⟩

/-- Outside the quadrants' blocks only the log's two registers can change. -/
theorem rd_refreshPins {a : Nat} (h : a < 0x100000 ∨ 0x500000 ≤ a) (h1 : a ≠ HLT_LOG_WPTR) (h2 : a ≠ HLT_EVENTS) (m : Mach) :
    rd a (refreshPins m) = rd a m := by
  refine each_keeps (rd a) quads4 refreshFes (fun q hq u => ?_) m
  have hlt := mem_quads4.1 hq
  have hstatus : a ≠ QUAD_FES_STATUS q := by simp only [QUAD_FES_STATUS, quadBase]; omega
  have hevents : a ≠ QUAD_FES_EVENTS q := by simp only [QUAD_FES_EVENTS, quadBase]; omega
  exact rd_refreshFes hstatus hevents h1 h2 u

theorem fget_refreshPins {f : Fld} (h : f.reg < 0x100000 ∨ 0x500000 ≤ f.reg) (h1 : f.reg ≠ HLT_LOG_WPTR) (h2 : f.reg ≠ HLT_EVENTS)
    (m : Mach) : fget f (refreshPins m) = fget f m := fget_of_rd (rd_refreshPins h h1 h2 m)

theorem rd_devState_refreshPins (m : Mach) : rd GCTL_DEV_STATE (refreshPins m) = rd GCTL_DEV_STATE m :=
  rd_refreshPins (by decide) (by decide) (by decide) m

/-- What the pins' refresh leaves of the device. -/
theorem refreshPins_keeps (m : Mach) : storesKept m (refreshPins m) ∧ (refreshPins m).trans = m.trans ∧
    (refreshPins m).quads = m.quads ∧ (refreshPins m).twin = m.twin ∧ (refreshPins m).replaceN = m.replaceN := by
  obtain ⟨_, _, _, _, _, _, _, _, h⟩ := refreshPins_frame m
  rw [h]
  exact ⟨.refl m, rfl, rfl, rfl, rfl⟩

theorem getQ_refreshPins (q : Nat) (m : Mach) : getQ q (refreshPins m) = getQ q m := by
  rw [getQ, (refreshPins_keeps m).2.2.1, getQ]

/-- The state shown by an entry: what a transition's end leaves of GCTL_DEV_STATE after the pins have followed. -/
theorem shown_refreshPins (m : Mach) : devState (refreshPins m) = devState m ∧
    fget GCTL_DEV_STATE.prev (refreshPins m) = fget GCTL_DEV_STATE.prev m ∧
    fget GCTL_DEV_STATE.cause (refreshPins m) = fget GCTL_DEV_STATE.cause m ∧
    fon GCTL_DEV_STATE.busy (refreshPins m) = fon GCTL_DEV_STATE.busy m := by
  have h := rd_devState_refreshPins m
  exact ⟨fget_of_rd h, fget_of_rd h, fget_of_rd h, by rw [fon, fget_of_rd (f := GCTL_DEV_STATE.busy) h, fon]⟩

end Sys2Proof.Machine

/-! SUPPORT. The ends of the device's transitions (R68, R73, R74, R76, R85). -/

namespace Sys2Proof.Machine

/-! ### WARM (R77) -/

theorem exec_warmEntry (s : State) : exec .warmEntry s = .next (s.withM (warmEntry s.m)) := rfl

/-- Every IDLE target is cleared. -/
def noTargets (m : Mach) : Mach := each quads4 (fun q s => setQ q { getQ q s with idleTarget := false } s) m

theorem noTargets_frame (m : Mach) : ∃ x, noTargets m = { m with quads := x } :=
  each_inv (fun u => ∃ x, u = { m with quads := x }) quads4 _ (fun _ _ _ ⟨_, h⟩ => h ▸ ⟨_, rfl⟩) m ⟨m.quads, rfl⟩

theorem idleTarget_noTargets (m : Mach) : ∀ q < 4, (getQ q (noTargets m)).idleTarget = false := fun q hq =>
  each_brings (I := fun _ => True) (P := fun q u => (getQ q u).idleTarget = false) (fun _ _ _ _ => trivial)
    (fun q _ u _ => by rw [getQ_setQ_same]) (fun r _ q hqr u _ hP => by rw [getQ_setQ_other hqr]; exact hP) (m := m) trivial q
    (mem_quads4.2 hq)

/-- The device in WARM, its transition over, before the IDLE targets and the pins follow. -/
def warmEntered (m : Mach) : Mach := endTrans (setDev 4 1 { m with autoWarm := false, autoActive := false })

theorem warmEntry_due {m : Mach} (ht : m.trans = some .toWarm) (hd : m.transDue = true) (ha : m.autoWarm = false) :
    warmEntry m = refreshPins (noTargets (warmEntered m)) := by
  simp only [warmEntry, ht, hd, ha]
  rfl

/-! ### ACTIVE (R73) -/

theorem exec_activeEntry (s : State) : exec .activeEntry s = .next (s.withM (activeEntry s.m)) := rfl

theorem activeEntry_enters {m : Mach} (ht : m.trans = some .toActive) (hd : m.transDue = true) (hok : activeOk m = true)
    (htake : m.twin.takeover = none) (hown : m.twin.ownGo = false) :
    activeEntry m = refreshPins (wantToken (enterActive 1 (endTrans m))) := by
  simp only [activeEntry, ht, hd, hok, htake, hown]
  rfl

theorem takeoverRefused_none {m : Mach} (h : m.twin.takeover = none) : takeoverRefused m = m := by simp [takeoverRefused, h]

theorem twin_setEv (f : Fld) (m : Mach) : (setEv f m).twin = m.twin := by
  obtain ⟨_, _, _, _, _, _, _, h⟩ := setEv_frame f m
  rw [h]

theorem trans_setEv (f : Fld) (m : Mach) : (setEv f m).trans = m.trans := by
  obtain ⟨_, _, _, _, _, _, _, h⟩ := setEv_frame f m
  rw [h]

theorem activeEntry_fails {m : Mach} (ht : m.trans = some .toActive) (hd : m.transDue = true) (hok : activeOk m = false)
    (htake : m.twin.takeover = none) : activeEntry m = stateErr (endTrans m) := by
  rw [activeEntry, if_pos ⟨ht, hd⟩, if_neg (by simp [hok])]
  exact takeoverRefused_none ((congrArg TwinSt.takeover (twin_setEv _ _)).trans htake)

/-- R68: the state that GO_ACTIVE leads to. -/
def activeState (m : Mach) : Nat := if fon GCTL_DEV_STATE.replace m then 6 else 5

/-- R68: the registers of an entered ACTIVE or DEGRADED, and what it leaves. -/
theorem enterActive_leaves (c : Nat) (m : Mach) :
    (∀ a, a ∉ [GCTL_STATE_EVENTS, HLT_LOG_WPTR, HLT_EVENTS] → rd a (enterActive c m) = rd a (setDev (activeState m) c m)) ∧
      storesKept m (enterActive c m) ∧ (enterActive c m).trans = m.trans := by
  unfold enterActive activeState
  split
  · exact ⟨regsKept_setEv GCTL_STATE_EVENTS.degraded_entered (setDev 6 c m), storesKept_setEv _ (setDev 6 c m), trans_setEv _ _⟩
  · exact ⟨fun _ _ => rfl, .refl m, rfl⟩

/-- R455: a device that seeks the token shows it in HLT_TWIN_STATUS alone. -/
theorem wantToken_leaves (m : Mach) : regsKept [HLT_TWIN_STATUS] m (wantToken m) ∧ storesKept m (wantToken m) ∧
    (wantToken m).trans = m.trans ∧ (hasToken m = false → (wantToken m).twin.taking = true) := by
  unfold wantToken
  split
  · next h => exact ⟨.refl _ m, .refl m, rfl, fun q => by simp [h] at q⟩
  · exact ⟨regsKept_fsetB HLT_TWIN_STATUS.tok_wait _ m, .refl m, rfl, fun _ => rfl⟩

/-- The entry to ACTIVE as GCTL_DEV_STATE shows it. -/
theorem rd_devState_entered (m : Mach) : rd GCTL_DEV_STATE (wantToken (enterActive 1 (endTrans m))) =
    rd GCTL_DEV_STATE (setDev (activeState (endTrans m)) 1 (endTrans m)) :=
  ((wantToken_leaves _).1 _ (by decide)).trans ((enterActive_leaves 1 (endTrans m)).1 _ (by decide))

theorem activeState_endTrans (m : Mach) : activeState (endTrans m) = activeState m := by
  rw [activeState, fon, fget_endTrans_other (.inr (by decide)), activeState, fon]

theorem activeState_lt (m : Mach) : activeState m < 16 := by
  unfold activeState
  split <;> decide

theorem hasToken_entered (m : Mach) : hasToken (enterActive 1 (endTrans m)) = hasToken m := by
  have hrd : rd HLT_TWIN_STATUS (enterActive 1 (endTrans m)) = rd HLT_TWIN_STATUS m := by
    rw [(enterActive_leaves 1 (endTrans m)).1 _ (by decide), rd_setDev_other (by decide), rd_endTrans_other (by decide)]
  rw [hasToken, fon, fget_of_rd (f := HLT_TWIN_STATUS.token) hrd, hasToken, fon]

end Sys2Proof.Machine

/-! SUPPORT. The release of the token, the power-down of a quadrant and the re-test: what they leave of the device's transition
(R76, R85, R457). -/

namespace Sys2Proof.Machine

/-! ### No operation of a sequencer or a log touches the transition -/

theorem trans_each {α : Type} (l : List α) (f : α → Mach → Mach) (h : ∀ a m, (f a m).trans = m.trans) (m : Mach) :
    (each l f m).trans = m.trans := each_keeps Mach.trans l f (fun a _ => h a) m

@[simp] theorem trans_fset (f : Fld) (x : Nat) (m : Mach) : (fset f x m).trans = m.trans := rfl
@[simp] theorem trans_setFes (q : Nat) (x : Fes) (m : Mach) : (setFes q x m).trans = m.trans := rfl
@[simp] theorem trans_setRx (k : Nat) (x : RxSt) (m : Mach) : (setRx k x m).trans = m.trans := rfl
@[simp] theorem trans_wr (a : Nat) (v : W) (m : Mach) : (wr a v m).trans = m.trans := rfl

@[simp] theorem trans_refreshFes (q : Nat) (m : Mach) : (refreshFes q m).trans = m.trans := by
  obtain ⟨_, _, _, _, _, _, _, _, h⟩ := refreshFes_frame q m
  rw [h]

@[simp] theorem trans_queueFcb (q w due : Nat) (m : Mach) : (queueFcb q w due m).trans = m.trans := by
  unfold queueFcb
  dsimp only
  split
  · simp
  · exact trans_setEv ..

@[simp] theorem trans_spoilCap (o : Nat) (m : Mach) : (spoilCap o m).trans = m.trans := by
  unfold spoilCap
  split
  · split <;> rfl
  · rfl

@[simp] theorem trans_couplerChanged (o : Nat) (m : Mach) : (couplerChanged o m).trans = m.trans :=
  trans_each _ _ (fun c u => by split <;> rfl) m

@[simp] theorem trans_setCoupler (o n : Nat) (m : Mach) : (setCoupler o n m).trans = m.trans := by
  unfold setCoupler
  dsimp only
  split <;> simp

@[simp] theorem trans_runAct (q t kind mask value : Nat) (m : Mach) : (runAct q t kind mask value m).trans = m.trans := by
  unfold runAct
  dsimp only
  split
  · simp
  · simp
  · simp
  · split <;> simp

@[simp] theorem trans_schedAct (q b k : Nat) (m : Mach) : (schedAct q b k m).trans = m.trans := by
  unfold schedAct
  dsimp only
  split
  · rw [trans_runAct, trans_setEv]
  · split
    · simp
    · exact trans_setEv ..

@[simp] theorem trans_fesEvent (q code b : Nat) (m : Mach) : (fesEvent q code b m).trans = m.trans := by
  unfold fesEvent
  split
  · split
    · exact trans_each _ _ (fun k u => trans_schedAct q b k u) _
    · rfl
  · rfl

@[simp] theorem trans_fesNow (q code : Nat) (m : Mach) : (fesNow q code m).trans = m.trans := by
  unfold fesNow
  split
  · exact trans_fesEvent ..
  · rfl

@[simp] theorem trans_logCode (code die kind phys logical : Nat) (data : List Byte) (m : Mach) :
    (logCode code die kind phys logical data m).trans = m.trans := by
  have hlog : ∀ e u, (logPut e u).trans = u.trans := fun e u => by
    obtain ⟨_, _, _, _, _, _, h⟩ := logPut_frame e u
    rw [h]
  unfold logCode plogPut
  dsimp only
  split
  · rw [trans_setEv, hlog]
  · exact hlog _ _

/-! ### The release of the token (R457) -/

/-- The reservoir, the tiles, the transition and GCTL_DEV_STATE are as they were. -/
structure TokenKept (m m' : Mach) : Prop where
  res : m'.res = m.res
  tiles : m'.tiles = m.tiles
  trans : m'.trans = m.trans
  dev : rd GCTL_DEV_STATE m' = rd GCTL_DEV_STATE m

theorem TokenKept.refl (m : Mach) : TokenKept m m := ⟨rfl, rfl, rfl, rfl⟩

theorem TokenKept.trans' {m m' m'' : Mach} (h : TokenKept m m') (h' : TokenKept m' m'') : TokenKept m m'' :=
  ⟨h'.res.trans h.res, h'.tiles.trans h.tiles, h'.trans.trans h.trans, h'.dev.trans h.dev⟩

theorem tokenKept_fset {f : Fld} (h : f.reg = HLT_TWIN_STATUS) (x : Nat) (m : Mach) : TokenKept m (fset f x m) :=
  ⟨rfl, rfl, rfl, rd_fset_other (by rw [h]; decide) x m⟩

theorem tokenKept_driveToken (tok sel : Bool) (m : Mach) : TokenKept m (driveToken tok sel m) := by
  obtain ⟨hres, htiles, htrans, hdev⟩ := tokenKept_fset (f := HLT_TWIN_STATUS.sel) rfl (if sel then 1 else 0)
    { m with tokOut := tok, twinSel := sel }
  exact ⟨hres, htiles, htrans, hdev⟩

theorem tokenKept_refreshPins (m : Mach) : TokenKept m (refreshPins m) := by
  obtain ⟨⟨hres, -, -, htiles⟩, htrans, -⟩ := refreshPins_keeps m
  exact ⟨hres, htiles, htrans, rd_devState_refreshPins m⟩

theorem tokenKept_fesAll (code : Nat) (m : Mach) : TokenKept m (fesAll code m) := by
  obtain ⟨⟨hres, -, -, htiles⟩, -, hregs⟩ := pathsKept_each (l := quads4) (fun q u => pathsKept_fesNow q code u) m
  exact ⟨hres, htiles, trans_each _ _ (fun q u => trans_fesNow q code u) m, hregs _ (by decide) (by decide)⟩

theorem tokenKept_logCode (code die kind phys logical : Nat) (data : List Byte) (m : Mach) :
    TokenKept m (logCode code die kind phys logical data m) := by
  have hlog : ∀ e u, TokenKept u (logPut e u) := fun e u => by
    refine ⟨?_, ?_, ?_, rd_logPut (by decide) (by decide) e u⟩ <;>
      · obtain ⟨_, _, _, _, _, _, h⟩ := logPut_frame e u
        rw [h]
  have hplog : ∀ e u, TokenKept u (plogPut e u) := fun e u => by
    unfold plogPut
    split
    · exact ⟨res_setEv _ u, tiles_setEv _ u, trans_setEv _ u, rd_setEv (by decide) (by decide) (by decide) u⟩
    · exact ⟨rfl, rfl, rfl, rfl⟩
  exact (hlog _ m).trans' (hplog _ _)

theorem tokenKept_releaseToken (reason : Nat) (m : Mach) : TokenKept m (releaseToken reason m) := by
  unfold releaseToken
  split
  · refine TokenKept.trans' ?_ (tokenKept_logCode ..)
    refine TokenKept.trans' ?_ (tokenKept_fesAll ..)
    refine TokenKept.trans' ?_ (tokenKept_refreshPins _)
    exact (tokenKept_fset rfl 0 m).trans' (tokenKept_driveToken ..)
  · exact .refl m

theorem tokenKept_stopTaking (m : Mach) : TokenKept m (stopTaking m) := by
  unfold stopTaking
  dsimp only
  refine TokenKept.trans' ?_ (tokenKept_fset rfl 0 _)
  split
  · exact ⟨rfl, rfl, rfl, rfl⟩
  · obtain ⟨hres, htiles, htrans, hdev⟩ := tokenKept_driveToken false false
      { m with twin := { m.twin with taking := false, driving := false, backoff := false } }
    exact ⟨hres, htiles, htrans, hdev⟩

theorem tokenKept_dropToken (reason : Nat) (m : Mach) : TokenKept m (dropToken reason m) :=
  (tokenKept_releaseToken reason m).trans' (tokenKept_stopTaking _)

/-- The device does not seek the token afterwards. -/
theorem taking_dropToken (reason : Nat) (m : Mach) : (dropToken reason m).twin.taking = false := by
  unfold dropToken stopTaking
  dsimp only
  split <;> rfl

/-! ### The return to WARM (R74) -/

theorem exec_warmReturn (s : State) : exec .warmReturn s = .next (s.withM (warmReturn s.m)) := rfl

theorem warmReturn_due {m : Mach} (ht : m.trans = some .toWarmBack) (hd : m.transDue = true) :
    warmReturn m = refreshPins (dropToken 0xFF (endTrans (setDev 4 1 m))) := if_pos ⟨ht, hd⟩

/-! ### The return to STANDBY (R85) -/

theorem exec_standbyReturn (s : State) : exec .standbyReturn s = .next (s.withM (standbyReturn s.m)) := rfl

theorem storesKept_each {α : Type} {l : List α} {f : α → Mach → Mach} (h : ∀ a m, storesKept m (f a m)) (m : Mach) :
    storesKept m (each l f m) :=
  each_inv (storesKept m) l f (fun a _ _ hs => hs.trans (h a _)) m (.refl m)

theorem storesKept_setQuadState (q st : Nat) (m : Mach) : storesKept m (setQuadState q st m) :=
  (pathsKept_refreshFes q (fset (GCTL_QUAD_STATE.st_q q) st m)).1

theorem storesKept_setFes (q : Nat) (x : Fes) (m : Mach) : storesKept m (setFes q x m) := .refl m

theorem storesKept_quadOff (q : Nat) (m : Mach) : storesKept m (quadOff q m) := by
  unfold quadOff
  extract_lets m1 m2 m3 m4 clk m5 fes m6 quad
  have h1 : storesKept m m1 := ⟨rfl, rfl, rfl, rfl⟩
  clear_value m1
  have h2 : storesKept m1 m2 := by
    refine storesKept_each (fun n u => ?_) m1
    exact ⟨rfl, rfl, rfl, rfl⟩
  clear_value m2
  have h3 : storesKept m2 m3 := by
    refine storesKept_each (fun o u => ?_) m2
    exact ⟨rfl, rfl, rfl, rfl⟩
  clear_value m3
  have h4 : storesKept m3 m4 := by
    refine storesKept.trans (storesKept.trans (storesKept_each (fun n u => ?_) m3) (storesKept_each (fun o u => ?_) _))
      (storesKept_each (fun k u => ?_) _) <;>
    exact ⟨rfl, rfl, rfl, rfl⟩
  clear_value m4
  have h5 : storesKept m4 m5 := ⟨rfl, rfl, rfl, rfl⟩
  clear_value m5
  have h6 : storesKept m5 m6 := storesKept_setFes q _ m5
  clear_value quad m6
  have h7 : storesKept m6 (setQuadState q 0 m6) := storesKept_setQuadState q 0 m6
  have h8 : ∀ x u, storesKept u (setQ q x u) := fun _ _ => ⟨rfl, rfl, rfl, rfl⟩
  exact (((((h1.trans h2).trans h3).trans h4).trans h5).trans h6).trans ((h7.trans (h8 _ _)).trans (setPhase_keeps q .rest 0 _).2)

/-- The quadrants on their way up are taken down. -/
def quadsTakenDown (m : Mach) : Mach := each (quads4.filter fun q => (getQ q m).phase != .rest) quadOff m

theorem storesKept_quadsTakenDown (m : Mach) : storesKept m (quadsTakenDown m) := storesKept_each storesKept_quadOff m

theorem standbyReturn_down {m : Mach} (ht : m.trans = some .toStandby) (hq : ∀ q < 4, quadState q m = 0) :
    standbyReturn m = refreshPins (endTrans (setDev 3 1 (quadsTakenDown m))) := by
  refine if_pos ⟨ht, ?_⟩
  rw [List.all_eq_true]
  exact fun q hmem => beq_iff_eq.2 (hq q (mem_quads4.1 hmem))

/-! ### The re-test (R76) -/

theorem exec_retestEnd (r : BitVec 8) (s : State) : exec (.retestEnd r) s = .next (s.withM (retestEnd r.toNat s.m)) := rfl

/-- The device with the request withdrawn and its transition over. -/
def requestOver (m : Mach) : Mach :=
  fset GCTL_DEV_STATE.replace 0 (fset HLT_STATUS.replace 0 { wr HLT_REPLACE 0#32 (endTrans m) with replaceN := false })

theorem retestEnd_clears {m : Mach} (ht : m.trans = some .retest) (hc : tableCauses m = 0) :
    retestEnd 0 m = refreshPins (setDev 5 9 (requestOver m)) := by
  have hnone : BitVec.ofNat 32 (0 ||| 0) = 0#32 := rfl
  simp only [retestEnd, ht, hc, hnone, BitVec.and_zero, ↓reduceIte]
  rfl

theorem replace_requestOver (m : Mach) : fon GCTL_DEV_STATE.replace (requestOver m) = false := by
  rw [fon, requestOver, fget_fset_same (by decide)]; rfl

theorem hltReplace_requestOver (m : Mach) : fon HLT_STATUS.replace (requestOver m) = false := by
  rw [fon, requestOver, fget_fset_other_reg (by decide), fget_fset_same (by decide)]; rfl

theorem causes_requestOver (m : Mach) : rd HLT_REPLACE (requestOver m) = 0#32 := by
  rw [requestOver, rd_fset_other (by decide), rd_fset_other (by decide)]
  exact rd_wr_same HLT_REPLACE 0#32 (endTrans m)

/-! ### What each end leaves -/

theorem warmEntry_leaves {m : Mach} (ht : m.trans = some .toWarm) (hd : m.transDue = true) (ha : m.autoWarm = false) :
    devState (warmEntry m) = 4 ∧ fget GCTL_DEV_STATE.prev (warmEntry m) = devState m ∧
      fget GCTL_DEV_STATE.cause (warmEntry m) = 1 ∧ fon GCTL_DEV_STATE.busy (warmEntry m) = false ∧ (warmEntry m).trans = none ∧
      (∀ q < 4, (getQ q (warmEntry m)).idleTarget = false) ∧ (warmEntry m).res = m.res ∧ (warmEntry m).tiles = m.tiles := by
  rw [warmEntry_due ht hd ha]
  obtain ⟨x, hx⟩ := noTargets_frame (warmEntered m)
  obtain ⟨⟨hres, -, -, htiles⟩, htrans, -⟩ := refreshPins_keeps (noTargets (warmEntered m))
  obtain ⟨hstate, hprev, hcause, hbusy⟩ := shown_refreshPins (noTargets (warmEntered m))
  have hrd : rd GCTL_DEV_STATE (noTargets (warmEntered m)) = rd GCTL_DEV_STATE (warmEntered m) := by rw [hx]; rfl
  refine ⟨?_, ?_, ?_, ?_, ?_, fun q hq => ?_, ?_, ?_⟩
  · rw [hstate, devState, fget_of_rd hrd, warmEntered, fget_endTrans_other (.inr (by decide))]
    exact devState_setDev (by decide) 1 _
  · rw [hprev, fget_of_rd hrd, warmEntered, fget_endTrans_other (.inr (by decide))]
    exact prev_setDev 4 1 _
  · rw [hcause, fget_of_rd hrd, warmEntered, fget_endTrans_other (.inr (by decide))]
    exact cause_setDev (by decide) 4 _
  · rw [hbusy, fon, fget_of_rd hrd]
    exact busy_endTrans _
  · rw [htrans, hx]; rfl
  · rw [getQ_refreshPins]
    exact idleTarget_noTargets _ q hq
  · rw [hres, hx]; rfl
  · rw [htiles, hx]; rfl

theorem activeEntry_leaves {m : Mach} (ht : m.trans = some .toActive) (hd : m.transDue = true) (hok : activeOk m = true)
    (htake : m.twin.takeover = none) (hown : m.twin.ownGo = false) :
    devState (activeEntry m) = activeState m ∧ fget GCTL_DEV_STATE.cause (activeEntry m) = 1 ∧
      fon GCTL_DEV_STATE.busy (activeEntry m) = false ∧ (activeEntry m).trans = none ∧
      (hasToken m = false → (activeEntry m).twin.taking = true) ∧ (activeEntry m).res = m.res ∧ (activeEntry m).tiles = m.tiles := by
  rw [activeEntry_enters ht hd hok htake hown]
  obtain ⟨-, ⟨hres1, -, -, htiles1⟩, htrans1⟩ := enterActive_leaves 1 (endTrans m)
  obtain ⟨-, ⟨hres2, -, -, htiles2⟩, htrans2, htaking⟩ := wantToken_leaves (enterActive 1 (endTrans m))
  obtain ⟨⟨hres, -, -, htiles⟩, htrans, -, htwin, -⟩ := refreshPins_keeps (wantToken (enterActive 1 (endTrans m)))
  obtain ⟨hstate, -, hcause, hbusy⟩ := shown_refreshPins (wantToken (enterActive 1 (endTrans m)))
  have hrd := rd_devState_entered m
  refine ⟨?_, ?_, ?_, ?_, fun htoken => ?_, ?_, ?_⟩
  · rw [hstate, devState, fget_of_rd hrd, activeState_endTrans]
    exact devState_setDev (activeState_lt m) 1 _
  · rw [hcause, fget_of_rd hrd]
    exact cause_setDev (by decide) _ _
  · rw [hbusy, fon, fget_of_rd hrd, fget_setDev_other (.inr (by decide))]
    exact busy_endTrans m
  · rw [htrans, htrans2, htrans1]; rfl
  · rw [htwin]
    exact htaking ((hasToken_entered m).trans htoken)
  · rw [hres, hres2, hres1]; rfl
  · rw [htiles, htiles2, htiles1]; rfl

theorem warmReturn_leaves {m : Mach} (ht : m.trans = some .toWarmBack) (hd : m.transDue = true) :
    devState (warmReturn m) = 4 ∧ fon GCTL_DEV_STATE.busy (warmReturn m) = false ∧ (warmReturn m).trans = none ∧
      (warmReturn m).twin.taking = false ∧ (warmReturn m).res = m.res ∧ (warmReturn m).tiles = m.tiles := by
  rw [warmReturn_due ht hd]
  obtain ⟨hres1, htiles1, htrans1, hdev1⟩ := tokenKept_dropToken 0xFF (endTrans (setDev 4 1 m))
  obtain ⟨⟨hres, -, -, htiles⟩, htrans, -, htwin, -⟩ := refreshPins_keeps (dropToken 0xFF (endTrans (setDev 4 1 m)))
  obtain ⟨hstate, -, -, hbusy⟩ := shown_refreshPins (dropToken 0xFF (endTrans (setDev 4 1 m)))
  refine ⟨?_, ?_, ?_, ?_, ?_, ?_⟩
  · rw [hstate, devState, fget_of_rd hdev1, fget_endTrans_other (.inr (by decide))]
    exact devState_setDev (by decide) 1 _
  · rw [hbusy, fon, fget_of_rd hdev1]
    exact busy_endTrans _
  · rw [htrans, htrans1]; rfl
  · rw [htwin]
    exact taking_dropToken 0xFF _
  · rw [hres, hres1]; rfl
  · rw [htiles, htiles1]; rfl

theorem standbyReturn_leaves {m : Mach} (ht : m.trans = some .toStandby) (hq : ∀ q < 4, quadState q m = 0) :
    devState (standbyReturn m) = 3 ∧ fon GCTL_DEV_STATE.busy (standbyReturn m) = false ∧ (standbyReturn m).trans = none ∧
      (standbyReturn m).res = m.res ∧ (standbyReturn m).tiles = m.tiles := by
  rw [standbyReturn_down ht hq]
  obtain ⟨hres1, -, -, htiles1⟩ := storesKept_quadsTakenDown m
  generalize quadsTakenDown m = u at hres1 htiles1
  obtain ⟨⟨hres, -, -, htiles⟩, htrans, -⟩ := refreshPins_keeps (endTrans (setDev 3 1 u))
  obtain ⟨hstate, -, -, hbusy⟩ := shown_refreshPins (endTrans (setDev 3 1 u))
  refine ⟨?_, ?_, ?_, ?_, ?_⟩
  · rw [hstate, devState, fget_endTrans_other (.inr (by decide))]
    exact devState_setDev (by decide) 1 u
  · rw [hbusy]
    exact busy_endTrans _
  · rw [htrans]; rfl
  · rw [hres, ← hres1]; rfl
  · rw [htiles, ← htiles1]; rfl

theorem retestEnd_leaves {m : Mach} (ht : m.trans = some .retest) (hc : tableCauses m = 0) :
    devState (retestEnd 0 m) = 5 ∧ fget GCTL_DEV_STATE.cause (retestEnd 0 m) = 9 ∧
      fon GCTL_DEV_STATE.replace (retestEnd 0 m) = false ∧ fon HLT_STATUS.replace (retestEnd 0 m) = false ∧
      rd HLT_REPLACE (retestEnd 0 m) = 0#32 ∧ (retestEnd 0 m).replaceN = false ∧ (retestEnd 0 m).res = m.res ∧
      (retestEnd 0 m).tiles = m.tiles := by
  rw [retestEnd_clears ht hc]
  obtain ⟨⟨hres, -, -, htiles⟩, -, -, -, hreplace⟩ := refreshPins_keeps (setDev 5 9 (requestOver m))
  obtain ⟨hstate, -, hcause, -⟩ := shown_refreshPins (setDev 5 9 (requestOver m))
  refine ⟨?_, ?_, ?_, ?_, ?_, ?_, ?_, ?_⟩
  · rw [hstate]
    exact devState_setDev (by decide) 9 _
  · rw [hcause]
    exact cause_setDev (by decide) 5 _
  · rw [fon, fget_refreshPins (by decide) (by decide) (by decide), fget_setDev_other (.inr (by decide))]
    exact replace_requestOver m
  · rw [fon, fget_refreshPins (by decide) (by decide) (by decide), fget_setDev_other (.inl (by decide))]
    exact hltReplace_requestOver m
  · rw [rd_refreshPins (by decide) (by decide) (by decide), rd_setDev_other (by decide)]
    exact causes_requestOver m
  · rw [hreplace]; rfl
  · rw [hres]; rfl
  · rw [htiles]; rfl

/-- Settles O23: each end shows its state in GCTL_DEV_STATE, and the pins' refresh that it closes with leaves it so. -/
theorem transitionsEndAtTheirBoundary : Obligations.TransitionsEndAtTheirBoundary := by
  intro s
  refine ⟨fun ht hd ha => ⟨_, exec_warmEntry s, warmEntry_leaves ht hd ha⟩,
    fun ht hd hok htake hown => ⟨_, exec_activeEntry s, activeEntry_leaves ht hd hok htake hown⟩,
    fun ht hd hok htake => ?_, fun ht hd => ⟨_, exec_warmReturn s, warmReturn_leaves ht hd⟩,
    fun ht hq => ⟨_, exec_standbyReturn s, standbyReturn_leaves ht hq⟩,
    fun ht hc => ⟨_, exec_retestEnd 0#8 s, retestEnd_leaves ht hc⟩⟩
  rw [exec_activeEntry, activeEntry_fails ht hd hok htake]; rfl

end Sys2Proof.Machine

/-! SUPPORT. What the parts of the boot sequence leave: the link's training, the images' registers, the clocks' lock and the stored
corrections touch neither the stores nor a register below the CLK block (R78 to R82, R295, R364 to R366, R396, R487). -/

namespace Sys2Proof.Machine

/-- The stores, the start-up's power state and every register below the CLK block are as they were. -/
structure SetupKept (m m' : Mach) : Prop where
  stores : storesKept m m'
  power : m'.power = m.power
  regs : ∀ a < 0x700000, rd a m' = rd a m

theorem SetupKept.refl (m : Mach) : SetupKept m m := ⟨.refl m, rfl, fun _ _ => rfl⟩

theorem SetupKept.trans {m m' m'' : Mach} (h : SetupKept m m') (h' : SetupKept m' m'') : SetupKept m m'' :=
  ⟨h.stores.trans h'.stores, h'.power.trans h.power, fun a ha => (h'.regs a ha).trans (h.regs a ha)⟩

theorem setupKept_each {α : Type} {l : List α} {f : α → Mach → Mach} (h : ∀ a m, SetupKept m (f a m)) (m : Mach) :
    SetupKept m (each l f m) :=
  each_inv (SetupKept m) l f (fun a _ _ hs => hs.trans (h a _)) m (.refl m)

theorem setupKept_wr {a : Nat} (h : 0x700000 ≤ a) (v : W) (m : Mach) : SetupKept m (wr a v m) :=
  ⟨⟨rfl, rfl, rfl, rfl⟩, rfl, fun _ hb => rd_wr_other (by omega) v m⟩

theorem setupKept_fset {f : Fld} (h : 0x700000 ≤ f.reg) (x : Nat) (m : Mach) : SetupKept m (fset f x m) := setupKept_wr h _ m

theorem setupKept_fsetB {f : Fld} (h : 0x700000 ≤ f.reg) (b : Bool) (m : Mach) : SetupKept m (fsetB f b m) := setupKept_wr h _ m

theorem setupKept_setEv {f : Fld} (h : 0x700000 ≤ f.reg) (m : Mach) : SetupKept m (setEv f m) := by
  refine ⟨storesKept_setEv f m, power_setEv f m, fun a ha => rd_setEv (by omega) ?_ ?_ m⟩
  · rintro rfl; exact absurd ha (by decide)
  · rintro rfl; exact absurd ha (by decide)

theorem setupKept_setEvIf (b : Bool) {f : Fld} (h : 0x700000 ≤ f.reg) (m : Mach) : SetupKept m (setEvIf b f m) := by
  cases b
  · exact .refl m
  · exact setupKept_setEv h m

/-! ### The link's ports -/

theorem setupKept_refreshSessions (m : Mach) : SetupKept m (refreshSessions m) := by
  refine setupKept_each (fun s u => ?_) m
  unfold refreshSess
  dsimp only
  split
  · exact .refl u
  · split
    · exact setupKept_fset (f := EPL_SESS_CFG.port s) (by simp only [EPL_SESS_CFG.port, EPL_SESS_CFG]; omega) _ u
    · exact .refl u

theorem setupKept_sendPortState (m : Mach) : SetupKept m (sendPortState m) := by
  unfold sendPortState
  split
  · refine setupKept_each (fun s u => ?_) m
    exact ⟨⟨rfl, rfl, rfl, rfl⟩, rfl, fun _ _ => rfl⟩
  · exact .refl m

theorem portStatus_high (i : Nat) : 0x700000 ≤ EPL_PORT_STATUS i := by unfold EPL_PORT_STATUS; omega

theorem setupKept_setBonded (i : Nat) (b : Bool) (m : Mach) : SetupKept m (setBonded i b m) :=
  ((setupKept_fsetB (f := EPL_PORT_STATUS.bonded i) (portStatus_high i) b m).trans
    (setupKept_fsetB (f := ⟨EPL_STATUS, i, 1⟩) (by decide : 0x700000 ≤ EPL_STATUS) b _)).trans (setupKept_refreshSessions _)

theorem setupKept_setPort (i st : Nat) (m : Mach) : SetupKept m (setPort i st m) := by
  have hstate := setupKept_fset (f := EPL_PORT_STATUS.state i) (portStatus_high i) st m
  unfold setPort
  dsimp only
  split
  · exact .refl m
  · refine SetupKept.trans (SetupKept.trans ?_ (setupKept_setEv (by decide) _)) (setupKept_sendPortState _)
    split
    · exact hstate
    · exact hstate.trans (setupKept_setBonded i false _)

theorem setupKept_trainPorts (m : Mach) : SetupKept m (trainPorts m) := by
  refine setupKept_each (fun i u => ?_) m
  unfold trainPort
  split
  · exact setupKept_setPort ..
  · split <;> exact setupKept_setPort ..

/-! ### The images, the clocks, the corrections -/

theorem setupKept_refreshImg (m : Mach) : SetupKept m (refreshImg m) := by
  unfold refreshImg
  dsimp only
  refine SetupKept.trans ((setupKept_fset (f := IMG_STATUS.deck_slot) (by decide) _ m).trans
    (setupKept_fset (f := IMG_STATUS.stored_rs) (by decide) _ _)) (setupKept_each (fun k u => ?_) _)
  have hbank : 0x700000 ≤ IMG_BANK k := by unfold IMG_BANK; omega
  have hver : 0x700000 ≤ IMG_FW_VER k := by unfold IMG_FW_VER; omega
  exact (((setupKept_fsetB (f := IMG_BANK.preferred k) hbank _ u).trans (setupKept_fset (f := IMG_BANK.commits k) hbank _ _)).trans
    (setupKept_fset (f := IMG_BANK.state k) hbank _ _)).trans (setupKept_wr hver _ _)

theorem setupKept_startPlanLock (m : Mach) : SetupKept m (startPlanLock m) := by
  have hclk : ∀ f u, SetupKept u (setClk f u) := fun _ _ => ⟨⟨rfl, rfl, rfl, rfl⟩, rfl, fun _ _ => rfl⟩
  exact (hclk _ m).trans (setupKept_fset (f := CLK_STATUS.mpll) (by decide) _ _)

theorem setupKept_setCal (f : CalSt → CalSt) (m : Mach) : SetupKept m (setCal f m) :=
  ⟨⟨rfl, rfl, rfl, rfl⟩, rfl, fun _ _ => rfl⟩

theorem corrReg_high (n k i : Nat) : 0x700000 ≤ corrReg n k i := by unfold corrReg CAL_PATH_w; omega

theorem setupKept_setCorrSource (n k x : Nat) (m : Mach) : SetupKept m (setCorrSource n k x m) :=
  setupKept_fset (f := ⟨corrReg n k 3, 30, 2⟩) (corrReg_high n k 3) x m

theorem setupKept_refreshUnc (n k : Nat) (m : Mach) : SetupKept m (refreshUnc n k m) :=
  setupKept_fset (f := ⟨corrReg n k 3, 0, 30⟩) (corrReg_high n k 3) _ m

theorem setupKept_applyTrim (n : Nat) (m : Mach) : SetupKept m (applyTrim n m) := by
  have hrx : 0x700000 ≤ CLK_RX_TRIM n := by unfold CLK_RX_TRIM; omega
  have htx : 0x700000 ≤ CLK_TX_TRIM n := by unfold CLK_TX_TRIM; omega
  unfold applyTrim
  dsimp only
  refine SetupKept.trans ?_ (setupKept_setEvIf _ (f := CAL_EVENTS.delay_range) (by decide) _)
  refine SetupKept.trans ?_ (setupKept_each (fun k u => setupKept_refreshUnc n k u) _)
  exact (((setupKept_fsetB (f := CLK_RX_TRIM.at_limit n) hrx _ m).trans (setupKept_fset (f := CLK_RX_TRIM.trim n) hrx _ _)).trans
    (setupKept_fsetB (f := CLK_TX_TRIM.at_limit n) htx _ _)).trans (setupKept_fset (f := CLK_TX_TRIM.trim n) htx _ _)

/-- R295: the corrections of the store go to their own registers and the trims. -/
theorem setupKept_loadCal (m : Mach) : SetupKept m (loadCal m) := by
  unfold loadCal
  split
  · exact .refl m
  · extract_lets arr m0 m1 load
    have hload : ∀ n k u, SetupKept u (load n k u) := by
      intro n k u
      simp only [load]
      split
      · exact .refl u
      · exact (((setupKept_wr (corrReg_high n k 2) _ u).trans (setupKept_wr (corrReg_high n k 1) _ _)).trans
          (setupKept_wr (corrReg_high n k 0) _ _)).trans (setupKept_setCorrSource n k 2 _)
    have h0 : SetupKept m m0 := setupKept_setEvIf _ (by decide) m
    have h1 : SetupKept m0 m1 := setupKept_setCal _ m0
    refine (h0.trans h1).trans (setupKept_each (fun n u => ?_) m1)
    exact (setupKept_each (fun k s => hload n k s) u).trans (setupKept_applyTrim n _)

end Sys2Proof.Machine

/-! SUPPORT. Core reset release and the end of BOOT (R71, R78, R81, R487, R494). -/

namespace Sys2Proof.Machine

/-! ### RECOVERY (R487, R494) -/

theorem exec_coreResetRelease (low : Bool) (b : BitVec 2) (ok : Bool) (s : State) :
    exec (.coreResetRelease low b ok) s = .next (s.withM (coreRelease low b ok s.m)) := rfl

theorem enterRecovery_leaves {c : Nat} (hc : c < 16) (m : Mach) :
    devState (enterRecovery c m) = 2 ∧ fget GCTL_DEV_STATE.cause (enterRecovery c m) = c ∧
      fget GCTL_DEV_STATE.prev (enterRecovery c m) = devState m ∧ (enterRecovery c m).power = m.power ∧
      storesKept m (enterRecovery c m) := by
  obtain ⟨hstores, hpower, hregs⟩ := setupKept_trainPorts (setDev 2 c m)
  have hrd : rd GCTL_DEV_STATE (enterRecovery c m) = rd GCTL_DEV_STATE (setDev 2 c m) := hregs GCTL_DEV_STATE (by decide)
  refine ⟨(fget_of_rd hrd).trans (devState_setDev (by decide) c m), (fget_of_rd hrd).trans (cause_setDev hc 2 m),
    (fget_of_rd hrd).trans (prev_setDev 2 c m), hpower, ?_⟩
  exact storesKept.trans (m' := setDev 2 c m) ⟨rfl, rfl, rfl, rfl⟩ hstores

theorem coreRelease_recoveryLow {m : Mach} (hp : m.power = .vddGood) (hd : devState m = 1) (b : BitVec 2) (ok : Bool) :
    coreRelease true b ok m = enterRecovery 3 (refreshImg { m with power := .coreRun }) := by
  rw [coreRelease, if_pos ⟨hp, hd⟩]; rfl

/-- R487: where no bank passes, each one tried is FAILED and the ROM goes to RECOVERY. -/
theorem tryBanks_noneOk {ok : Nat → Bool} (h : ∀ k, ok k = false) (prodOk : Bool) (l : List Nat) (first : Bool) (m : Mach) :
    ∃ u, tryBanks ok prodOk l first m = enterRecovery 4 (refreshImg u) ∧ u.power = m.power := by
  induction l generalizing first m with
  | nil => exact ⟨m, rfl, rfl⟩
  | cons k l ih =>
    have hfails : bankPasses k (ok k) m = false := by simp [bankPasses, h k]
    obtain ⟨u, hu, hpower⟩ := ih false (setBank k { getBank k m with state := 3 } m)
    exact ⟨u, by rw [tryBanks, hfails]; exact hu, hpower⟩

theorem coreRelease_noBank {m : Mach} (hp : m.power = .vddGood) (hd : devState m = 1) (ok : Bool) :
    ∃ u, coreRelease false 0#2 ok m = enterRecovery 4 (refreshImg u) ∧ u.power = .coreRun := by
  have hnone : ∀ k, (0#2).getLsbD k = false := fun k => BitVec.getLsbD_zero
  obtain ⟨u, hu, hpower⟩ := tryBanks_noneOk hnone ok (bankOrder { m with power := .coreRun }) true { m with power := .coreRun }
  exact ⟨u, by rw [coreRelease, if_pos ⟨hp, hd⟩]; exact hu, hpower⟩

/-! ### The end of BOOT (R78, R81) -/

theorem exec_bootComplete (s : State) : exec .bootComplete s = .next (s.withM (bootComplete s.m)) := rfl

theorem fon_of_zero {f : Fld} {m : Mach} (h : rd f.reg m = 0#32) : fon f m = false := by
  rw [fon, fget, h, wfld, BitVec.extractLsb'_zero]; rfl

theorem setupKept_bootLock (m : Mach) :
    SetupKept (fsetB GCTL_DEV_STATE.ref_absent (!fon CLK_STATUS.ref_present m) m) (bootLock m) := by
  unfold bootLock
  dsimp only
  split
  · exact .refl _
  · split
    · exact setupKept_startPlanLock _
    · exact .refl _

/-- The device before it enters STANDBY, with nothing to load but the corrections. -/
def bootLoaded (m : Mach) : Mach :=
  let m1 := loadCal (bootLock m)
  fsetB GCTL_DEV_STATE.deck_loaded (deckLoaded m1) m1

theorem bootLoaded_keeps (m : Mach) : storesKept m (bootLoaded m) ∧
    ∀ a < 0x700000, a ≠ GCTL_DEV_STATE → rd a (bootLoaded m) = rd a m := by
  obtain ⟨hstores, -, hregs⟩ := (setupKept_bootLock m).trans (setupKept_loadCal (bootLock m))
  refine ⟨storesKept.trans (m' := loadCal (bootLock m)) (storesKept.trans ⟨rfl, rfl, rfl, rfl⟩ hstores) ⟨rfl, rfl, rfl, rfl⟩,
    fun a ha hne => ?_⟩
  exact ((rd_fset_other (f := GCTL_DEV_STATE.deck_loaded) hne _ _).trans (hregs a ha)).trans
    (rd_fset_other (f := GCTL_DEV_STATE.ref_absent) hne _ m)

/-- A device that has just entered STANDBY: the grid stands at its start, and of the registers below the CLK block only
GCTL_DEV_STATE can differ from those of `m0`. -/
structure AtGridStart (m0 m : Mach) : Prop where
  state : devState m = 3
  cause : fget GCTL_DEV_STATE.cause m = 2
  grid : m.tod = 0 ∧ m.frameNo = 0 ∧ m.slot = 0
  stores : storesKept m0 m
  regs : ∀ a < 0x700000, a ≠ GCTL_DEV_STATE → rd a m = rd a m0

/-- The grid at tick 0 and the periodic trigger, before the timing is paced. -/
def gridStarted (m : Mach) : Mach :=
  trigArm (setDev 3 2 { m with tod := 0, frameNo := 0, slot := 0, frameStart := 0, slotStart := 0 })

theorem atGridStart_gridStarted (m : Mach) : AtGridStart m (gridStarted m) where
  state := devState_setDev (by decide) 2 _
  cause := cause_setDev (by decide) 3 _
  grid := ⟨rfl, rfl, rfl⟩
  stores := ⟨rfl, rfl, rfl, rfl⟩
  regs a _ hne := rd_setDev_other hne 3 2 { m with tod := 0, frameNo := 0, slot := 0, frameStart := 0, slotStart := 0 }

theorem setupKept_paceHk (m : Mach) : SetupKept m (paceHk m) :=
  (setupKept_fset (f := CLK_STATUS.hk_paced) (by decide) 1 m).trans (setupKept_fset (f := CLK_STATUS.tod_traceable) (by decide) 0 _)

theorem AtGridStart.paced {m0 m : Mach} (h : AtGridStart m0 m) : AtGridStart m0 (paceHk m) := by
  obtain ⟨hstores, -, hregs⟩ := setupKept_paceHk m
  have hrd := hregs GCTL_DEV_STATE (by decide)
  exact ⟨(fget_of_rd hrd).trans h.state, (fget_of_rd hrd).trans h.cause, h.grid, h.stores.trans hstores,
    fun a ha hne => (hregs a ha).trans (h.regs a ha hne)⟩

/-- R78: the frame timing starts at tick 0, paced from the housekeeping oscillator where the MPLL is not locked. -/
theorem atGridStart_enterStandby (m : Mach) : AtGridStart m (enterStandby m) := by
  have h := atGridStart_gridStarted m
  change AtGridStart m (if _ then gridStarted m else paceHk (gridStarted m))
  split
  · exact h
  · exact h.paced

theorem AtGridStart.shown {m0 m : Mach} (h : AtGridStart m0 m) : devState (refreshPins m) = 3 ∧
    fget GCTL_DEV_STATE.cause (refreshPins m) = 2 ∧ (refreshPins m).tod = 0 ∧ (refreshPins m).frameNo = 0 ∧
    (refreshPins m).slot = 0 ∧ storesKept m0 (refreshPins m) := by
  obtain ⟨hstate, -, hcause, -⟩ := shown_refreshPins m
  obtain ⟨_, _, _, _, _, _, _, _, hframe⟩ := refreshPins_frame m
  have hgrid : (refreshPins m).tod = m.tod ∧ (refreshPins m).frameNo = m.frameNo ∧ (refreshPins m).slot = m.slot := by
    rw [hframe]; exact ⟨rfl, rfl, rfl⟩
  obtain ⟨htod, hframeNo, hslot⟩ := h.grid
  exact ⟨hstate.trans h.state, hcause.trans h.cause, hgrid.1.trans htod, hgrid.2.1.trans hframeNo, hgrid.2.2.trans hslot,
    h.stores.trans (refreshPins_keeps m).1⟩

theorem autoStart_off {m : Mach} (h : fon GCTL_BOOT_CFG.auto_warm m = false) : autoStart m = m := by
  rw [autoStart, h, if_neg (fun hw => Bool.false_ne_true hw.1)]

/-- The end of BOOT with nothing to load, nothing to restore and no automatic start. -/
theorem bootComplete_plain {m : Mach} (hp : m.power = .coreRun) (hd : devState m = 1) (hmig : fon IMG_STATUS.migrating m = false)
    (htrial : m.img.trialRun = false) (hboot : rd GCTL_BOOT_CFG m = 0#32) (hsnap : rd DIR_SNAP_CFG m = 0#32) :
    bootComplete m = refreshPins (enterStandby (bootLoaded m)) := by
  have hlock : rd GCTL_BOOT_CFG (bootLock m) = 0#32 := by
    rw [(setupKept_bootLock m).regs GCTL_BOOT_CFG (by decide), fsetB, rd_fset_other (by decide), hboot]
  have hstandby : ∀ a < 0x700000, a ≠ GCTL_DEV_STATE → rd a (enterStandby (bootLoaded m)) = rd a m := fun a ha hne =>
    ((atGridStart_enterStandby _).regs a ha hne).trans ((bootLoaded_keeps m).2 a ha hne)
  have hload : fon GCTL_BOOT_CFG.autoload (bootLock m) = false := fon_of_zero hlock
  have hrestore : fon DIR_SNAP_CFG.restore_on_boot (enterStandby (bootLoaded m)) = false :=
    fon_of_zero ((hstandby DIR_SNAP_CFG (by decide) (by decide)).trans hsnap)
  have hwarm : fon GCTL_BOOT_CFG.auto_warm (enterStandby (bootLoaded m)) = false :=
    fon_of_zero ((hstandby GCTL_BOOT_CFG (by decide) (by decide)).trans hboot)
  unfold bootLoaded at hrestore hwarm ⊢
  dsimp only at hrestore hwarm
  simp only [bootComplete, hp, hd, hmig, htrial, and_self, if_true, hload, Bool.false_eq_true, if_false, hrestore,
    autoStart_off hwarm]

/-- Settles O22: RECOVERY_N and the banks that fail end in RECOVERY; the plain end of BOOT enters STANDBY at tick 0. -/
theorem bootEndsInStandbyOrRecovery : Obligations.BootEndsInStandbyOrRecovery := by
  unfold Obligations.BootEndsInStandbyOrRecovery
  intro s
  refine ⟨fun hp hd b ok => ?_, fun hp hd ok => ?_, fun hp hd hmig htrial hboot hsnap => ?_⟩
  · refine ⟨_, exec_coreResetRelease true b ok s, ?_⟩
    rw [coreRelease_recoveryLow hp hd]
    obtain ⟨himg, hpower, hregs⟩ := setupKept_refreshImg { s.m with power := .coreRun }
    obtain ⟨hstate, hcause, hprev, hrun, hstores⟩ :=
      enterRecovery_leaves (c := 3) (by decide) (refreshImg { s.m with power := .coreRun })
    have hwas : devState (refreshImg { s.m with power := .coreRun }) = 1 :=
      (fget_of_rd (hregs GCTL_DEV_STATE (by decide))).trans hd
    obtain ⟨hres, hstage, -, -⟩ := himg.trans hstores
    exact ⟨hrun.trans hpower, hstate, hcause, hprev.trans hwas, hres, hstage⟩
  · refine ⟨_, exec_coreResetRelease false 0#2 ok s, ?_⟩
    obtain ⟨u, hu, hpower⟩ := coreRelease_noBank hp hd ok
    rw [hu]
    obtain ⟨hstate, hcause, -, hrun, -⟩ := enterRecovery_leaves (c := 4) (by decide) (refreshImg u)
    exact ⟨hrun.trans ((setupKept_refreshImg u).power.trans hpower), hstate, hcause⟩
  · refine ⟨_, exec_bootComplete s, ?_⟩
    rw [bootComplete_plain hp hd hmig htrial hboot hsnap]
    obtain ⟨hstate, hcause, htod, hframeNo, hslot, hstores⟩ := (atGridStart_enterStandby (bootLoaded s.m)).shown
    obtain ⟨hres, -, -, htiles⟩ := (bootLoaded_keeps s.m).1.trans hstores
    exact ⟨hstate, hcause, htod, hframeNo, hslot, hres, htiles⟩

end Sys2Proof.Machine

/-! SUPPORT. A coupler that changes within a longer run of SETTLING samples (R111, R112, R129), which refutes O34. -/

namespace Sys2Proof.Machine

/-- An ACTIVE device with quadrant 0 RUNNING, whose observation receiver 0 has just changed its zone: 512 samples are to be tagged. -/
def settlingMach : Mach :=
  setRx 64 { settle := 512 } (fset (GCTL_QUAD_STATE.st_q 0) 2 (fset GCTL_DEV_STATE.state 5 { power := .coreRun }))

theorem exec_couplerWrite {o : Fin 8} {s : State} (h : reach (QUAD_OBS_COUPLER o) s.m = true) (v : W) :
    exec (.couplerWrite o v) s = .next (s.withM (setCoupler o (v.toNat % 64) s.m)) := by
  change answer s (gate (QUAD_OBS_COUPLER o) (setCoupler o (v.toNat % 64)) s.m) = _
  rw [gate_reach h]; rfl

/-- R112: the change's 64 samples fall inside the run, which goes on to its end. -/
theorem settle_settlingMach : (getRx 64 (setCoupler 0 1 settlingMach)).settle = 512 := by decide

/-- Refutes O34: it says that exactly 64 samples are still to be tagged after a change of the coupler, where a longer run that is under
way keeps its own end (R112: the counts do not add, and no range restarts another). In `settlingMach` 512 samples are to be tagged
before the coupler changes from 0 to 1, and 512 afterwards. -/
theorem not_frontEndRegistersTakeValidValues : ¬ Obligations.FrontEndRegistersTakeValidValues := by
  intro h
  have hreach : reach (QUAD_OBS_COUPLER 0) settlingMach = true := by decide
  obtain ⟨-, hcoupler, -⟩ := h ⟨settlingMach, []⟩
  obtain ⟨t, hexec, -, hsettle, -⟩ := hcoupler 0 1#32 hreach
  have ht : setCoupler 0 1 settlingMach = t :=
    next_withM_inj ((exec_couplerWrite (o := 0) (s := ⟨settlingMach, []⟩) hreach 1#32).symm.trans hexec)
  have hclaim : (getRx 64 t).settle = 64 := hsettle (by decide)
  rw [← ht, settle_settlingMach] at hclaim
  exact absurd hclaim (by decide)

end Sys2Proof.Machine

/-! SUPPORT. The planned substitution of a predistortion engine while the frame timing runs (R267), which refutes O51. -/

namespace Sys2Proof.Machine

/-- An ACTIVE device: the planned substitution of engine 0, which serves path 0, runs, and its quadrant's spare is free. -/
def engineMach : Mach :=
  let planned : HltSt := { running := some ⟨3, 0, 0, 0⟩ }
  fset GCTL_DEV_STATE.state 5 { power := .coreRun, hlt := planned }

theorem exec_engineSubstPlanned (n : Fin 64) (s : State) :
    exec (.engineSubstPlanned n) s = .next (s.withM (enginePlanned n s.m)) := rfl

/-- R267: the copy is made; the spare takes over at the slot boundary. -/
theorem phys_engineMach : fget (QUAD_PD_STATUS.phys 0) (enginePlanned 0 engineMach) = 0 := by decide

/-- Refutes O51: it says that ENGINE_SUBST_PLANNED itself gives the spare its engine's place, where the command ends the copy, and the
spare takes over at the first slot boundary after it while the frame timing runs. In `engineMach` the timing runs, and path 0 is
still served by engine 0 after the command, not by the spare, engine 16. -/
theorem not_sparesTakeOver : ¬ Obligations.SparesTakeOver := by
  intro h
  obtain ⟨-, -, hengines, -⟩ := h ⟨engineMach, []⟩
  obtain ⟨-, hplanned, -⟩ := hengines 0
  obtain ⟨t, hexec, -, -, -, hphys, -⟩ := hplanned (by decide) (by decide) (by decide) rfl
  have ht : enginePlanned 0 engineMach = t := next_withM_inj ((exec_engineSubstPlanned 0 ⟨engineMach, []⟩).symm.trans hexec)
  rw [← ht] at hphys
  exact absurd (phys_engineMach.symm.trans hphys) (by decide)

end Sys2Proof.Machine

/-! SUPPORT. What the run of one tile instruction leaves of the device (R298, R313, R317), and what an access through a circular buffer
gives it (R306, R307). -/

namespace Sys2Proof.Machine

/-! ### A tile is replaced -/

/-- Physical tile `t` has become `y`; of everything else only the event log and the summary take note. -/
def tileBecomes (t : Nat) (y : Tile) (m u : Mach) : Prop :=
  getTile t u = y ∧ tilesKept t m u ∧ regsKept [HLT_LOG_WPTR, HLT_EVENTS] m u ∧ u.res = m.res ∧ u.stage = m.stage ∧ u.nvm = m.nvm

theorem tileBecomes_setTile (t : Nat) (y : Tile) (m : Mach) : tileBecomes t y m (setTile t y m) :=
  ⟨getTile_setTile_same t y m, fun _ hj => getTile_setTile_other hj y m, .refl _ m, rfl, rfl, rfl⟩

theorem tileBecomes.logPut {t : Nat} {y : Tile} {m u : Mach} (h : tileBecomes t y m u) (e : LogEntry) :
    tileBecomes t y m (logPut e u) := by
  obtain ⟨htile, hothers, hregs, hres, hstage, hnvm⟩ := h
  have hrd : regsKept [HLT_LOG_WPTR, HLT_EVENTS] u (Machine.logPut e u) := by
    intro a ha
    simp only [List.mem_cons, List.not_mem_nil, or_false, not_or] at ha
    exact rd_logPut ha.1 ha.2 e u
  obtain ⟨_, _, _, _, _, _, hframe⟩ := logPut_frame e u
  have hget : ∀ j, getTile j (Machine.logPut e u) = getTile j u := fun j => by rw [hframe]; rfl
  refine ⟨(hget t).trans htile, fun j hj => (hget j).trans (hothers j hj), hregs.trans hrd, ?_, ?_, ?_⟩ <;> rw [hframe]
  · exact hres
  · exact hstage
  · exact hnvm

theorem tileBecomes.summaryRise {t : Nat} {y : Tile} {m u : Mach} (h : tileBecomes t y m u) (g : Nat) (was : Bool) :
    tileBecomes t y m (summaryRise g was u) := by
  obtain ⟨p, hframe⟩ := summaryRise_frame g was u
  rw [hframe]
  exact h

theorem tileBecomes_commitTile (t : Nat) (y : Tile) (m : Mach) : tileBecomes t y m (commitTile t y m) := by
  have hlogged : ∀ l, tileBecomes t y m
      (each l (fun i s => logPut (stickyEntry ⟨tileEventsReg t, i, 1⟩) s) (setTile t y m)) := fun l =>
    each_inv (tileBecomes t y m) l _ (fun _ _ _ hs => hs.logPut _) _ (tileBecomes_setTile t y m)
  unfold commitTile
  dsimp only
  split
  · exact hlogged _
  · exact (hlogged _).summaryRise 16 _

/-! ### An instruction whose word stands at the PC -/

/-- Physical tile `t` executes instructions. -/
def tileRuns (t : Fin 144) (s : State) : Prop := (getTile t s.m).state = 1 ∧ (getTile t s.m).paused = false

section
variable {t : Fin 144} {i : Instr} {s : State} {ev : Nat} {f : Tile → TOut}

theorem runTile_done (h : tileRuns t s) (hpc : atPc t i s) {y : Tile} (hf : f (getTile t s.m) = .done y) :
    runTile i t ev f s.m = commitTile t
      ({ y with evcount := min 0xFFFFFFFF ((getTile t s.m).evcount + ev) } : Tile).stopIfAsked s.m := by
  obtain ⟨hstate, hpaused⟩ := h
  have hword : (getTile t s.m).wordAtPc = tileCode i := hpc
  simp only [runTile, hstate, hpaused, hword, hf, ne_eq, not_true_eq_false, Bool.false_eq_true, or_self, ↓reduceIte]

theorem runTile_fault (h : tileRuns t s) (hpc : atPc t i s) {code : Nat} (hf : f (getTile t s.m) = .fault code) :
    runTile i t ev f s.m = vendorReload t (commitTile t ((getTile t s.m).faulted code) s.m) := by
  obtain ⟨hstate, hpaused⟩ := h
  have hword : (getTile t s.m).wordAtPc = tileCode i := hpc
  simp only [runTile, hstate, hpaused, hword, hf, ne_eq, not_true_eq_false, Bool.false_eq_true, or_self, ↓reduceIte]

theorem tileLeft_of_done {y : Tile} (h : tileRuns t s) (hexec : exec i s = .next (s.withM (runTile i t ev f s.m)))
    (hf : f (getTile t s.m) = .done y) : tileLeft t ev y i s :=
  fun hpc => ⟨_, runTile_done h hpc hf ▸ hexec, tileBecomes_commitTile t _ s.m⟩

/-- R317, R318: a fault of a tile of yours stays: no service reloads it. -/
theorem vendorReload_yours {k : Nat} {m : Mach} (h : (getTile k m).owner = 0) : vendorReload k m = m := if_pos h

theorem tileStops_of_fault {code : Nat} (h : tileRuns t s) (hexec : exec i s = .next (s.withM (runTile i t ev f s.m)))
    (hf : f (getTile t s.m) = .fault code) : tileStops t code i s := by
  intro hpc howner
  have hleft := tileBecomes_commitTile t ((getTile t s.m).faulted code) s.m
  have hyours : (getTile t (commitTile t ((getTile t s.m).faulted code) s.m)).owner = 0 := by rw [hleft.1]; exact howner
  have hrun := runTile_fault (ev := ev) h hpc hf
  rw [vendorReload_yours hyours] at hrun
  exact ⟨_, hrun ▸ hexec, hleft⟩

end

/-! ### An access through a buffer (R306, R307) -/

/-- The addresses of an access of the elements `is`, of size `z`, through buffer `c`. -/
def Tile.elems (x : Tile) (c z : Nat) (is : List Nat) : List Nat := is.map fun i => (x.buf c).prep.elem i z

/-- The tile with buffer `c` after one access. -/
def Tile.advanced (x : Tile) (c : Nat) : Tile := x.setBuf c (x.buf c).prep.advance

theorem addrFault_eq_zero {a z : Nat} (h : a < 65536) (ha : a % z = 0) : addrFault a z = 0 := by
  rw [addrFault, if_neg (by omega), if_neg (not_not.2 ha)]

theorem access_ok {x : Tile} {c z : Nat} {is : List Nat} (h : bufOk (x.buf c).prep z is) :
    x.access c z is = .ok (x.elems c z is, x.advanced c) := by
  obtain ⟨hoff, helem⟩ := h
  have hoff' : ¬ (0 < (x.buf c).prep.len ∧ (x.buf c).prep.off % z ≠ 0 ∧ is ≠ []) := by
    unfold offOk at hoff
    rcases hoff with his | hlen | hmod <;> simp_all
  have hnone : (is.map fun i => (x.buf c).prep.elem i z).find? (fun a => addrFault a z != 0) = none := by
    simp only [List.find?_eq_none, List.mem_map, forall_exists_index, and_imp, forall_apply_eq_imp_iff₂]
    intro i hi
    simp [addrFault_eq_zero (helem i hi).1 (helem i hi).2]
  unfold Tile.access
  dsimp only
  rw [if_neg hoff', hnone]
  rfl

theorem viaBuf_ok {x : Tile} {c z : Nat} {is : List Nat} (h : bufOk (x.buf c).prep z is) (f : List Nat → Tile → Tile) :
    viaBuf x c z is f = .done (f (x.elems c z is) (x.advanced c)).next := by
  rw [viaBuf, access_ok h]

theorem viaBuf_badOffset {x : Tile} {c z : Nat} {is : List Nat} (h : ¬ offOk (x.buf c).prep z) (his : is ≠ [])
    (f : List Nat → Tile → Tile) : viaBuf x c z is f = .fault 3 := by
  obtain ⟨hlen, hoff⟩ := not_or.1 h
  have haccess : x.access c z is = .error 3 := if_pos ⟨Nat.pos_of_ne_zero hlen, hoff, his⟩
  rw [viaBuf, haccess]

theorem viaBuf_badFirst {x : Tile} {c z i : Nat} {r : List Nat} (h : offOk (x.buf c).prep z)
    (hi : addrFault ((x.buf c).prep.elem i z) z ≠ 0) (f : List Nat → Tile → Tile) :
    viaBuf x c z (i :: r) f = .fault (addrFault ((x.buf c).prep.elem i z) z) := by
  have hoff : ¬ (0 < (x.buf c).prep.len ∧ (x.buf c).prep.off % z ≠ 0 ∧ i :: r ≠ []) := by
    rintro ⟨hlen, hmod, -⟩
    exact h.elim (by omega) hmod
  have haccess : x.access c z (i :: r) = .error (addrFault ((x.buf c).prep.elem i z) z) := by
    unfold Tile.access
    dsimp only
    rw [if_neg hoff, List.map_cons, List.find?_cons_of_pos (by simpa using hi)]
  rw [viaBuf, haccess]

/-! ### An instruction through a buffer, by what its access finds -/

section
variable {t : Fin 144} {i : Instr} {s : State} {ev c z : Nat} {is : List Nat} {f : Tile → List Nat → Tile → Tile}

theorem tileLeft_viaBuf (h : tileRuns t s) (hexec : exec i s = .next (s.withM (runTile i t ev (fun x => viaBuf x c z is (f x)) s.m)))
    (hbuf : bufOk ((getTile t s.m).buf c).prep z is) :
    tileLeft t ev (f (getTile t s.m) ((getTile t s.m).elems c z is) ((getTile t s.m).advanced c)).next i s :=
  tileLeft_of_done h hexec (viaBuf_ok hbuf _)

/-- The instruction `i` of tile `t` is an access of the elements `is`, of size `z`, through buffer `c`. -/
def accessesVia (i : Instr) (t : Fin 144) (c z : Nat) (is : List Nat) : Prop :=
  ∃ (ev : Nat) (f : Tile → List Nat → Tile → Tile), ∀ s : State,
    exec i s = .next (s.withM (runTile i t ev (fun x => viaBuf x c z is (f x)) s.m))

theorem tileStops_badOffset (h : tileRuns t s) (hvia : accessesVia i t c z is) (hoff : ¬ offOk ((getTile t s.m).buf c).prep z)
    (his : is ≠ []) : tileStops t 3 i s := by
  obtain ⟨_, _, hexec⟩ := hvia
  exact tileStops_of_fault h (hexec s) (viaBuf_badOffset hoff his _)

theorem tileStops_badFirst {k : Nat} {r : List Nat} (h : tileRuns t s) (hvia : accessesVia i t c z is)
    (hoff : offOk ((getTile t s.m).buf c).prep z) (his : is = k :: r)
    (hk : addrFault (((getTile t s.m).buf c).prep.elem k z) z ≠ 0) :
    tileStops t (addrFault (((getTile t s.m).buf c).prep.elem k z) z) i s := by
  obtain ⟨_, _, hexec⟩ := hvia
  subst his
  exact tileStops_of_fault h (hexec s) (viaBuf_badFirst hoff hk _)

end

end Sys2Proof.Machine

/-! SUPPORT. Lists of lane operations on a signal tile: what a run of accumulator writes leaves (R301, R302, R305). -/

namespace Sys2Proof.Machine

/-! ### Saturation and one accumulator -/

theorem satS_of_range {w : Nat} {v : Int} (h1 : -(2 ^ (w - 1)) ≤ v) (h2 : v < 2 ^ (w - 1)) : satS w v = v := by
  unfold satS
  dsimp only
  rw [if_neg (by omega), if_neg (by omega)]

/-- A word operand needs no saturation. -/
theorem satS_wordInt (u : Bool) (v : W) : satS 48 (wordInt u v) = wordInt u v := by
  have hlt := v.isLt
  have hlo := v.le_toInt
  have hhi := v.toInt_lt
  unfold wordInt
  refine satS_of_range ?_ ?_ <;> split <;> norm_num at * <;> omega

theorem a_setA (x : Tile) (k j : Nat) (v : Int) (g : Tag × Bool) : (x.setA k v g).a j = if j = k then v else x.a j :=
  tabGet_tabPut ..

theorem aTag_setA (x : Tile) (k j : Nat) (v : Int) (g : Tag × Bool) : (x.setA k v g).aTag j = if j = k then g else x.aTag j :=
  tabGet_tabPut ..

/-- A lane takes a value that needs no saturation. -/
theorem accTaken_setA {x : Tile} {k : Nat} {v : Int} (h : satS 48 v = v) (g : Tag × Bool) :
    accTaken [k] (fun _ => v) (fun _ => g) x (x.setA k v g) := by
  refine ⟨fun j => ?_, fun j => ?_, fun j => ?_, ?_, rfl⟩
  · simp [a_setA, h]
  · simp [aTag_setA, h]
  · simp [h, Tile.setA]
  · simp [h, Tile.setA]

/-- A lane takes a value, saturated. -/
theorem accTaken_accSet (x : Tile) (k : Nat) (v : Int) (g : Tag × Bool) :
    accTaken [k] (fun _ => v) (fun _ => g) x (x.accSet k v g) := by
  by_cases h : satS 48 v = v
  · rw [Tile.accSet, if_pos h]
    exact accTaken_setA h g
  · rw [Tile.accSet, if_neg h]
    refine ⟨fun j => ?_, fun j => ?_, fun j => ?_, ?_, rfl⟩
    · exact (a_setA (g := (g.1, true)) ..).trans (by simp [Tile.a])
    · exact (aTag_setA (v := satS 48 v) ..).trans (by simp [h, Tile.aTag])
    · change (x.laneOvf ||| 2 ^ k).testBit j = _
      rw [Nat.testBit_or, Nat.testBit_two_pow]
      simp [h, eq_comm]
    · simp only [List.any_cons, List.any_nil, Bool.or_false, ne_eq, h, not_false_eq_true, decide_true, ↓reduceIte]
      rfl

/-! ### Several accumulators -/

theorem accTaken_nil (v : Nat → Int) (g : Nat → Tag × Bool) (x : Tile) : accTaken [] v g x x :=
  ⟨fun _ => rfl, fun _ => rfl, fun _ => by simp, rfl, rfl⟩

theorem accTaken.congr {ks : List Nat} {v v' : Nat → Int} {g g' : Nat → Tag × Bool} {x y : Tile} (h : accTaken ks v g x y)
    (hv : ∀ k ∈ ks, v k = v' k) (hg : ∀ k ∈ ks, g k = g' k) : accTaken ks v' g' x y := by
  obtain ⟨ha, htag, hovf, hev, hframe⟩ := h
  refine ⟨fun k => ?_, fun k => ?_, fun k => ?_, ?_, hframe⟩
  · rw [ha]; split
    · next hk => rw [hv k hk]
    · rfl
  · rw [htag]; split
    · next hk => rw [hv k hk, hg k hk]
    · rfl
  · rw [hovf]
    by_cases hk : k ∈ ks
    · rw [hv k hk]
    · simp [hk]
  · have hany : (ks.any fun k => decide (satS 48 (v k) ≠ v k)) = ks.any fun k => decide (satS 48 (v' k) ≠ v' k) :=
      Bool.eq_iff_iff.2 (by
        rw [List.any_eq_true, List.any_eq_true]
        exact exists_congr fun k => and_congr_right fun hk => by rw [hv k hk])
    rw [hev, hany]

/-- Lanes that take their values one list after the other take those of both lists. -/
theorem accTaken.append {ks ls : List Nat} {v : Nat → Int} {g : Nat → Tag × Bool} {x y z : Tile} (h1 : accTaken ks v g x y)
    (h2 : accTaken ls v g y z) : accTaken (ks ++ ls) v g x z := by
  obtain ⟨ha1, htag1, hovf1, hev1, hframe1⟩ := h1
  obtain ⟨ha2, htag2, hovf2, hev2, hframe2⟩ := h2
  refine ⟨fun k => ?_, fun k => ?_, fun k => ?_, ?_, ?_⟩
  · rw [ha2, ha1]; by_cases hk : k ∈ ks <;> by_cases hl : k ∈ ls <;> simp [hk, hl]
  · rw [htag2, htag1]; by_cases hk : k ∈ ks <;> by_cases hl : k ∈ ls <;> simp [hk, hl]
  · rw [hovf2, hovf1, Bool.or_assoc]
    by_cases hk : k ∈ ks <;> by_cases hl : k ∈ ls <;> simp [hk, hl]
  · rw [hev2, hev1, List.any_append]
    cases ks.any fun k => decide (satS 48 (v k) ≠ v k) <;> cases ls.any fun k => decide (satS 48 (v k) ≠ v k) <;>
      simp [BitVec.or_assoc]
  · have hagain : ({ z with acc := x.acc, accTag := x.accTag, laneOvf := x.laneOvf, events := x.events } : Tile) =
        { ({ z with acc := y.acc, accTag := y.accTag, laneOvf := y.laneOvf, events := y.events } : Tile) with
          acc := x.acc, accTag := x.accTag, laneOvf := x.laneOvf, events := x.events } := rfl
    rw [hagain, hframe2, hframe1]

/-- A lane outside the list keeps its value and tag. -/
theorem accTaken.kept {ks : List Nat} {v : Nat → Int} {g : Nat → Tag × Bool} {x y : Tile} (h : accTaken ks v g x y) {k : Nat}
    (hk : k ∉ ks) : y.a k = x.a k ∧ y.aTag k = x.aTag k := by
  obtain ⟨ha, htag, -⟩ := h
  exact ⟨(ha k).trans (if_neg hk), (htag k).trans (if_neg hk)⟩

/-- Steps over a list, each writing lanes of its own from what those lanes held at first. -/
theorem accTaken_foldl {α : Type} {lanes : α → List Nat} {v : Nat → Int} {g : Nat → Tag × Bool} {f : Tile → α → Tile} {x : Tile}
    {l : List α} (hnd : (l.flatMap lanes).Nodup)
    (hf : ∀ i ∈ l, ∀ z : Tile, (∀ k ∈ lanes i, z.a k = x.a k ∧ z.aTag k = x.aTag k) → accTaken (lanes i) v g z (f z i)) :
    accTaken (l.flatMap lanes) v g x (l.foldl f x) := by
  induction l using List.reverseRecOn with
  | nil => exact accTaken_nil v g x
  | append_singleton l i ih =>
    rw [List.flatMap_append, List.flatMap_singleton] at hnd ⊢
    rw [List.foldl_append, List.foldl_cons, List.foldl_nil]
    obtain ⟨hl, -, hdisj⟩ := List.nodup_append.1 hnd
    have hdone := ih hl fun j hj => hf j (List.mem_append_left _ hj)
    refine hdone.append (hf i (by simp) _ fun k hk => hdone.kept fun hmem => ?_)
    exact hdisj k hmem k hk rfl

/-- Lanes that are written one by one, each from what it held. -/
theorem accTaken_lanes {v : Nat → Int → Int} {g : Nat → Tag × Bool → Tag × Bool} {ks : List Nat} (hnd : ks.Nodup) (x : Tile) :
    accTaken ks (fun k => v k (x.a k)) (fun k => g k (x.aTag k)) x
      (ks.foldl (fun z k => z.accSet k (v k (z.a k)) (g k (z.aTag k))) x) := by
  have hks : ks.flatMap (fun k => [k]) = ks := List.flatMap_singleton' ks
  have hfold := accTaken_foldl (lanes := fun k => [k]) (v := fun k => v k (x.a k)) (g := fun k => g k (x.aTag k))
    (f := fun z k => z.accSet k (v k (z.a k)) (g k (z.aTag k))) (x := x) (by rw [hks]; exact hnd) fun k _ z hz => by
      obtain ⟨ha, htag⟩ := hz k (List.mem_singleton_self k)
      rw [ha, htag]
      exact (accTaken_accSet z k _ _).congr (fun j hj => by rw [List.mem_singleton.1 hj]) fun j hj => by rw [List.mem_singleton.1 hj]
  rwa [hks] at hfold

/-- Lanes that are loaded one by one with values that need no saturation. -/
theorem accTaken_loads {v : Nat → Int} (hv : ∀ k, satS 48 (v k) = v k) (g : Tag × Bool) {ks : List Nat} (hnd : ks.Nodup) (x : Tile) :
    accTaken ks v (fun _ => g) x (ks.foldl (fun z k => z.setA k (v k) g) x) := by
  have hks : ks.flatMap (fun k => [k]) = ks := List.flatMap_singleton' ks
  have hfold := accTaken_foldl (lanes := fun k => [k]) (v := v) (g := fun _ => g) (f := fun z k => z.setA k (v k) g) (x := x)
    (by rw [hks]; exact hnd) fun k _ z _ =>
      (accTaken_setA (x := z) (k := k) (hv k) g).congr (fun j hj => by rw [List.mem_singleton.1 hj]) fun _ _ => rfl
  rwa [hks] at hfold

/-! ### The lanes and pairs of a mask -/

theorem nodup_lanesIn (m : Nat) : (lanesIn m).Nodup := List.Nodup.filter _ List.nodup_range

theorem sorted_lanesIn (m : Nat) : (lanesIn m).Pairwise (· < ·) := List.Pairwise.filter _ List.pairwise_lt_range

theorem sorted_pairsIn (pm : Nat) : (pairsIn pm).Pairwise (· < ·) := List.Pairwise.filter _ (by decide)

theorem nodup_pairsIn (pm : Nat) : (pairsIn pm).Nodup := (sorted_pairsIn pm).imp Nat.ne_of_lt

/-- A masked lane lies in a pair that the mask touches. -/
theorem mem_pairsOf {m k : Nat} (h : k ∈ lanesIn m) : k / 2 ∈ pairsOf m := by
  obtain ⟨hlt, hk⟩ := List.mem_filter.1 h
  have hlt := List.mem_range.1 hlt
  refine List.mem_filter.2 ⟨?_, ?_⟩
  · have : k / 2 < 4 := by omega
    interval_cases k / 2 <;> decide
  · rw [Bool.or_eq_true]
    rcases Nat.mod_two_eq_zero_or_one k with hpar | hpar
    · exact .inl (by rwa [show 2 * (k / 2) = k by omega])
    · exact .inr (by rwa [show 2 * (k / 2) + 1 = k by omega])

theorem nodup_pairLanes (pm : Nat) : ((pairsIn pm).flatMap fun i => [2 * i, 2 * i + 1]).Nodup := by
  rw [List.nodup_flatMap]
  refine ⟨fun i _ => by simp, (nodup_pairsIn pm).imp fun {i j} hij => ?_⟩
  intro k hk hk'
  simp only [List.mem_cons, List.not_mem_nil, or_false] at hk hk'
  omega

/-! ### Operands -/

/-- A list zipped with its own images. -/
theorem zip_map_self {α β : Type} (l : List α) (f : α → β) : l.zip (l.map f) = l.map fun k => (k, f k) := by
  simpa using List.zip_map' (f := id) (g := f) (l := l)

/-- The address of an element that was accessed. -/
theorem find?_zip_map {is : List Nat} {i : Nat} (f : Nat → Nat) (h : i ∈ is) :
    (is.zip (is.map f)).find? (fun p => p.1 == i) = some (i, f i) := by
  rw [zip_map_self]
  induction is with
  | nil => exact absurd h List.not_mem_nil
  | cons j is ih =>
    by_cases hj : j = i
    · rw [List.map_cons, List.find?_cons_of_pos (by simp [hj]), hj]
    · rw [List.map_cons, List.find?_cons_of_neg (by simp [hj])]
      exact ih ((List.mem_cons.1 h).resolve_left (Ne.symm hj))

/-- The vector operand of an access, sample by sample: an element that was accessed stands in its place. -/
theorem placed_getD {x : Tile} {is : List Nat} {i : Nat} (f : Nat → Nat) (h : i ∈ is) (hi : i < 4) :
    (placed x is (is.map f)).getD i zeroSample = x.sampleAt (f i) := by
  have hplace : (placed x is (is.map f)).getD i zeroSample = match (is.zip (is.map f)).find? (fun p => p.1 == i) with
      | some p => x.sampleAt p.2
      | none => zeroSample := by
    interval_cases i <;> rfl
  rw [hplace, find?_zip_map f h]

end Sys2Proof.Machine

/-! SUPPORT. Searches (R309, R310) and moves to local memory (R303 to R305) of a signal tile. -/

namespace Sys2Proof.Machine

/-! ### Searches -/

/-- `y` is `x` after the candidates `cs` have been compared, SIDX still as it was. -/
structure Compared (cs : List (Int × Nat × (Tag × Bool))) (x y : Tile) : Prop where
  source : (y.sVal, y.sIdx) = (x.sVal, x.sIdx) ∨ ∃ c ∈ cs, (y.sVal, y.sIdx) = (c.1, c.2.1)
  best : ∀ c ∈ (x.sVal, x.sIdx, x.sTag) :: cs,
    (if x.sMin then y.sVal ≤ c.1 else c.1 ≤ y.sVal) ∧ (c.1 = y.sVal → y.sIdx ≤ c.2.1)
  tag : y.sTag = cs.foldl (fun g c => tagMerge g c.2.2) x.sTag
  frame : { y with sVal := x.sVal, sIdx := x.sIdx, sTag := x.sTag } = x

theorem Compared.refl (x : Tile) : Compared [] x x where
  source := .inl rfl
  best := by
    intro c hc
    rw [List.mem_singleton.1 hc]
    exact ⟨by split <;> exact le_rfl, fun _ => le_rfl⟩
  tag := rfl
  frame := rfl

/-- The candidate beats the best so far: it is strictly better, or equal with a lower index. -/
def Tile.beaten (y : Tile) (v : Int) (idx : Nat) : Prop :=
  (if y.sMin then v < y.sVal else y.sVal < v) ∨ (v = y.sVal ∧ idx < y.sIdx)

theorem candidate_beaten {y : Tile} {v : Int} {idx : Nat} (h : y.beaten v idx) (g : Tag × Bool) :
    y.candidate v idx g = { y with sVal := v, sIdx := idx, sTag := tagMerge y.sTag g } := by
  unfold Tile.beaten at h
  refine if_pos ?_
  cases hmin : y.sMin <;> simp_all

theorem candidate_not_beaten {y : Tile} {v : Int} {idx : Nat} (h : ¬ y.beaten v idx) (g : Tag × Bool) :
    y.candidate v idx g = { y with sTag := tagMerge y.sTag g } := by
  unfold Tile.beaten at h
  refine if_neg ?_
  cases hmin : y.sMin <;> simp_all

/-- One more candidate. -/
theorem Compared.candidate {cs : List (Int × Nat × (Tag × Bool))} {x y : Tile} (h : Compared cs x y)
    (c : Int × Nat × (Tag × Bool)) : Compared (cs ++ [c]) x (y.candidate c.1 c.2.1 c.2.2) := by
  obtain ⟨v, idx, g⟩ := c
  have hmin : y.sMin = x.sMin := (congrArg Tile.sMin h.frame :)
  have htag : tagMerge y.sTag g = (cs ++ [(v, idx, g)]).foldl (fun g c => tagMerge g c.2.2) x.sTag := by
    rw [List.foldl_append, ← h.tag]; rfl
  have hmem : ∀ d ∈ (x.sVal, x.sIdx, x.sTag) :: (cs ++ [(v, idx, g)]), d ∈ (x.sVal, x.sIdx, x.sTag) :: cs ∨ d = (v, idx, g) := by
    intro d hd
    rw [← List.cons_append, List.mem_append] at hd
    exact hd.imp_right List.mem_singleton.1
  by_cases hb : y.beaten v idx
  · rw [candidate_beaten hb]
    refine ⟨.inr ⟨(v, idx, g), by simp, rfl⟩, fun d hd => ?_, htag, h.frame⟩
    rcases hmem d hd with hd | rfl
    · obtain ⟨hval, hidx⟩ := h.best d hd
      unfold Tile.beaten at hb
      rw [hmin] at hb
      cases hx : x.sMin <;> simp only [hx, Bool.false_eq_true, ↓reduceIte] at hb hval ⊢ <;> constructor <;> omega
    · exact ⟨by split <;> exact le_rfl, fun _ => le_rfl⟩
  · rw [candidate_not_beaten hb]
    refine ⟨h.source.imp_right fun ⟨d, hd, he⟩ => ⟨d, by simp [hd], he⟩, fun d hd => ?_, htag, h.frame⟩
    rcases hmem d hd with hd | rfl
    · exact h.best d hd
    · unfold Tile.beaten at hb
      rw [hmin] at hb
      cases hx : x.sMin <;> simp only [hx, Bool.false_eq_true, ↓reduceIte] at hb ⊢ <;> constructor <;> omega

theorem compared_foldl (cs : List (Int × Nat × (Tag × Bool))) (x : Tile) :
    Compared cs x (cs.foldl (fun y c => y.candidate c.1 c.2.1 c.2.2) x) := by
  induction cs using List.reverseRecOn with
  | nil => exact .refl x
  | append_singleton cs c ih =>
    rw [List.foldl_append]
    exact ih.candidate c

/-- R310: all candidates are compared, and SIDX advances by 8. -/
theorem searched_foldl (cs : List (Int × Nat × (Tag × Bool))) (x : Tile) :
    searched cs x (cs.foldl (fun y c => y.candidate c.1 c.2.1 c.2.2) x).sidxNext := by
  obtain ⟨hsource, hbest, htag, hframe⟩ := compared_foldl cs x
  have hsidx := congrArg Tile.sidx hframe
  refine ⟨hsource, hbest, htag, ?_, ?_⟩
  · exact congrArg (fun n => (n + 8) % 65536) hsidx
  · exact (congrArg (fun z : Tile => { z with sidx := x.sidx }) hframe)

/-! ### Bytes of local memory -/

theorem byte_foldl_tabPut (a : Nat) (bs : List Byte) (n : Nat) (t : Tab Byte) (p : Nat) :
    tabGet memDefault ((bs.zipIdx n).foldl (fun t e => tabPut memDefault t (a + e.2) e.1) t) p =
      if a + n ≤ p ∧ p < a + n + bs.length then bs.getD (p - (a + n)) 0#8 else tabGet memDefault t p := by
  induction bs generalizing n t with
  | nil => simp
  | cons b bs ih =>
    rw [List.zipIdx_cons, List.foldl_cons, ih, tabGet_tabPut, List.length_cons]
    by_cases hp : p = a + n
    · subst hp
      rw [if_neg (by omega), if_pos rfl, if_pos (by omega)]
      simp
    · by_cases hin : a + (n + 1) ≤ p ∧ p < a + (n + 1) + bs.length
      · rw [if_pos hin, if_pos (by omega), show p - (a + n) = p - (a + (n + 1)) + 1 by omega, List.getD_cons_succ]
      · rw [if_neg hin, if_neg hp, if_neg (by omega)]

/-- A byte after a store of `bs` at `a`. -/
theorem byte_setBytes (x : Tile) (a : Nat) (bs : List Byte) (p : Nat) :
    (x.setBytes a bs).byte p = if a ≤ p ∧ p < a + bs.length then bs.getD (p - a) 0#8 else x.byte p :=
  byte_foldl_tabPut a bs 0 x.mem p

theorem byte_of_mem {x y : Tile} (h : x.mem = y.mem) (p : Nat) : x.byte p = y.byte p := by rw [Tile.byte, h, Tile.byte]

/-- What is read of the bytes just stored. -/
theorem bytes_setBytes (x : Tile) (a : Nat) (bs : List Byte) : (x.setBytes a bs).bytes a bs.length = bs := by
  refine List.ext_getElem (by simp [Tile.bytes]) fun i h1 h2 => ?_
  simp only [Tile.bytes, List.getElem_map, List.getElem_range, byte_setBytes]
  rw [if_pos (by omega), Nat.add_sub_cancel_left, List.getD_eq_getElem _ _ h2]

theorem bytes_congr {x y : Tile} {a n : Nat} (h : ∀ i < n, x.byte (a + i) = y.byte (a + i)) : x.bytes a n = y.bytes a n :=
  List.map_congr_left fun i hi => h i (List.mem_range.1 hi)

theorem length_leBytes (n x : Nat) : (leBytes n x).length = n := by
  induction n generalizing x with
  | zero => rfl
  | succ n ih => exact congrArg (· + 1) (ih (x / 256))

/-! ### Elements stored one after the other -/

/-- Aligned elements at different addresses share no byte. -/
theorem elements_apart {a b n : Nat} (ha : a % n = 0) (hb : b % n = 0) (h : a ≠ b) : a + n ≤ b ∨ b + n ≤ a := by
  obtain ⟨i, rfl⟩ := Nat.dvd_of_mod_eq_zero ha
  obtain ⟨j, rfl⟩ := Nat.dvd_of_mod_eq_zero hb
  rcases Nat.lt_trichotomy i j with hij | rfl | hij
  · exact .inl (by rw [← Nat.mul_succ]; exact Nat.mul_le_mul_left n hij)
  · exact absurd rfl h
  · exact .inr (by rw [← Nat.mul_succ]; exact Nat.mul_le_mul_left n hij)

section
variable {n : Nat} {addr : Nat → Nat} {w : Nat → List Byte} {f : Tile → Nat → Tile}

/-- Each step stores the `n` bytes of its element at the element's address. -/
def storesEach (n : Nat) (addr : Nat → Nat) (w : Nat → List Byte) (f : Tile → Nat → Tile) : Prop :=
  ∀ z i, (f z i).mem = (z.setBytes (addr i) (w i)).mem ∧ (w i).length = n

theorem storesEach.byte (h : storesEach n addr w f) (z : Tile) (i : Nat) {p : Nat} (hp : p < addr i ∨ addr i + n ≤ p) :
    (f z i).byte p = z.byte p := by
  obtain ⟨hmem, hlen⟩ := h z i
  rw [byte_of_mem hmem, byte_setBytes, hlen, if_neg (by omega)]

theorem storesEach.bytes (h : storesEach n addr w f) (z : Tile) (i : Nat) : (f z i).bytes (addr i) n = w i := by
  obtain ⟨hmem, hlen⟩ := h z i
  rw [bytes_congr fun j _ => byte_of_mem hmem _, ← hlen, bytes_setBytes]

/-- A byte outside every element stays. -/
theorem storesEach.outside (h : storesEach n addr w f) {l : List Nat} {p : Nat}
    (hp : ∀ i ∈ l, p < addr i ∨ addr i + n ≤ p) (x : Tile) : (l.foldl f x).byte p = x.byte p := by
  induction l generalizing x with
  | nil => rfl
  | cons i l ih =>
    rw [List.foldl_cons, ih (fun j hj => hp j (List.mem_cons_of_mem _ hj)), h.byte x i (hp i List.mem_cons_self)]

/-- Of elements in rising order, one that no later element meets holds what was stored in it. -/
theorem storesEach.stored (h : storesEach n addr w f) {l : List Nat} (hsort : l.Pairwise (· < ·))
    (halign : ∀ i ∈ l, addr i % n = 0) {i : Nat} (hi : i ∈ l) (hlast : ∀ j ∈ l, i < j → addr j ≠ addr i) (x : Tile) :
    (l.foldl f x).bytes (addr i) n = w i := by
  induction l generalizing x with
  | nil => exact absurd hi List.not_mem_nil
  | cons k l ih =>
    rw [List.pairwise_cons] at hsort
    rw [List.foldl_cons]
    by_cases hik : i ∈ l
    · exact ih hsort.2 (fun j hj => halign j (List.mem_cons_of_mem _ hj)) hik
        (fun j hj => hlast j (List.mem_cons_of_mem _ hj)) (f x k)
    · obtain rfl : i = k := (List.mem_cons.1 hi).resolve_right hik
      rw [← h.bytes x i]
      refine bytes_congr fun b hb => h.outside (fun j hj => ?_) _
      have hapart := elements_apart (halign j (List.mem_cons_of_mem _ hj)) (halign i hi)
        (hlast j (List.mem_cons_of_mem _ hj) (hsort.1 j hj))
      omega

end

/-- Steps that may each set a bit set it where one of them does. -/
theorem events_foldl {f : Tile → Nat → Tile} {c : Nat → Bool} {b : W}
    (h : ∀ z i, (f z i).events = if c i then z.events ||| b else z.events) (l : List Nat) (x : Tile) :
    (l.foldl f x).events = if l.any c then x.events ||| b else x.events := by
  induction l generalizing x with
  | nil => rfl
  | cons i l ih =>
    rw [List.foldl_cons, ih, h, List.any_cons]
    cases c i <;> cases l.any c <;> simp [BitVec.or_assoc]

end Sys2Proof.Machine

/-! SUPPORT. Each instruction on the lanes of a signal tile: the tile it leaves (R301 to R307, R309, R310, R313), with the statement that
they settle. -/

namespace Sys2Proof.Machine

/-! ### Accumulators -/

section
variable {t : Fin 144} {s : State} {x : Tile}

theorem clr_leaves (h : tileRuns t s) (hx : getTile t s.m = x) (m : BitVec 8) :
    ∃ y : Tile, accTaken (lanesIn m.toNat) (fun _ => 0) (fun _ => (.valid, false)) x y ∧ tileLeft t 1 y.next (.clr t m) s :=
  ⟨_, accTaken_loads (fun _ => rfl) _ (nodup_lanesIn _) x, tileLeft_of_done h rfl (by rw [hx])⟩

theorem red_leaves (h : tileRuns t s) (hx : getTile t s.m = x) (m : BitVec 8) :
    ∃ y : Tile, accTaken [0] (fun _ => ((lanesIn m.toNat).map x.a).sum)
      (fun _ => (lanesIn m.toNat).foldl (fun g k => tagMerge g (x.aTag k)) (.valid, false)) x y ∧
      tileLeft t 3 y.next (.red t m) s :=
  ⟨_, accTaken_accSet x 0 _ _, tileLeft_of_done h rfl (by rw [hx]; rfl)⟩

theorem cred_leaves (h : tileRuns t s) (hx : getTile t s.m = x) (pm : BitVec 4) :
    ∃ y : Tile, accTaken [0, 1] (fun k => ((pairsIn pm.toNat).map fun i => x.a (2 * i + k)).sum)
      (fun _ => tagMerge ((pairsIn pm.toNat).foldl (fun g i => tagMerge g (x.aTag (2 * i))) (.valid, false))
        ((pairsIn pm.toNat).foldl (fun g i => tagMerge g (x.aTag (2 * i + 1))) (.valid, false))) x y ∧
      tileLeft t 3 y.next (.cred t pm) s := by
  refine ⟨_, ?_, tileLeft_of_done h rfl (by rw [hx])⟩
  have h0 := accTaken_accSet x 0 (x.sumOf ((pairsIn pm.toNat).map (2 * ·))).1
    (tagMerge (x.sumOf ((pairsIn pm.toNat).map (2 * ·))).2 (x.sumOf ((pairsIn pm.toNat).map (2 * · + 1))).2)
  refine (h0.congr ?_ ?_).append ((accTaken_accSet _ 1 _ _).congr ?_ ?_)
  all_goals
    intro k hk
    obtain rfl := List.mem_singleton.1 hk
    simp [Tile.sumOf, List.foldl_map, Function.comp_def]

/-- The product of a lane of a vector register and of a memory operand. -/
theorem laneVal_mul (l l' : List Sample) (k : Nat) : laneVal l k * laneVal l' k =
    if k % 2 = 0 then (l.getD (k / 2) zeroSample).i * (l'.getD (k / 2) zeroSample).i
    else (l.getD (k / 2) zeroSample).q * (l'.getD (k / 2) zeroSample).q := by
  unfold laneVal
  split <;> rfl

theorem mac_leaves (h : tileRuns t s) (hx : getTile t s.m = x) {c v : Fin 8} {m : BitVec 8}
    (hbuf : bufOk (x.buf c).prep 8 (pairsOf m.toNat)) :
    ∃ y : Tile, accTaken (lanesIn m.toNat)
      (fun k => let p := (x.v v).getD (k / 2) zeroSample
        let q := x.sampleAt ((x.buf c).prep.elem (k / 2) 8)
        x.a k + (if k % 2 = 0 then p.i * q.i else p.q * q.q))
      (fun k => tagMerge (x.aTag k) (tagMerge ((x.v v).getD (k / 2) zeroSample).tag
        (x.sampleAt ((x.buf c).prep.elem (k / 2) 8)).tag)) (x.advanced c) y ∧
      tileLeft t 1 y.next (.mac t c v m) s := by
  subst hx
  refine ⟨_, ?_, tileLeft_viaBuf h rfl hbuf⟩
  have hmem : ∀ k ∈ lanesIn m.toNat, (placed (getTile t s.m) (pairsOf m.toNat) ((getTile t s.m).elems c 8 (pairsOf m.toNat))).getD
      (k / 2) zeroSample = (getTile t s.m).sampleAt (((getTile t s.m).buf c).prep.elem (k / 2) 8) := fun k hk =>
    placed_getD _ (mem_pairsOf hk) (by have := List.mem_range.1 (List.mem_filter.1 hk).1; omega)
  have htaken := accTaken_lanes (v := fun k a => a + laneVal ((getTile t s.m).v v) k *
      laneVal (placed (getTile t s.m) (pairsOf m.toNat) ((getTile t s.m).elems c 8 (pairsOf m.toNat))) k)
    (g := fun k g => tagMerge g (tagMerge (((getTile t s.m).v v).getD (k / 2) zeroSample).tag
      ((placed (getTile t s.m) (pairsOf m.toNat) ((getTile t s.m).elems c 8 (pairsOf m.toNat))).getD (k / 2) zeroSample).tag))
    (nodup_lanesIn m.toNat) ((getTile t s.m).advanced c)
  refine htaken.congr (fun k hk => ?_) (fun k hk => ?_)
  · rw [laneVal_mul, hmem k hk]; rfl
  · rw [hmem k hk]; rfl

theorem cmac_leaves (h : tileRuns t s) (hx : getTile t s.m = x) {c v : Fin 8} {j : Bool} {pm : BitVec 4}
    (hbuf : bufOk (x.buf c).prep 8 (pairsIn pm.toNat)) :
    ∃ y : Tile, accTaken ((pairsIn pm.toNat).flatMap fun i => [2 * i, 2 * i + 1])
      (fun k => let p := (x.v v).getD (k / 2) zeroSample
        let q := x.sampleAt ((x.buf c).prep.elem (k / 2) 8)
        let qq := if j then -q.q else q.q
        x.a k + (if k % 2 = 0 then p.i * q.i - p.q * qq else p.i * qq + p.q * q.i))
      (fun k => tagMerge (x.pairTag (k / 2)) (tagMerge ((x.v v).getD (k / 2) zeroSample).tag
        (x.sampleAt ((x.buf c).prep.elem (k / 2) 8)).tag)) (x.advanced c) y ∧
      tileLeft t 2 y.next (.cmac t c v j pm) s := by
  subst hx
  refine ⟨_, ?_, tileLeft_viaBuf h rfl hbuf⟩
  refine accTaken_foldl (nodup_pairLanes pm.toNat) fun i hi z hz => ?_
  have hmem : (placed (getTile t s.m) (pairsIn pm.toNat) ((getTile t s.m).elems c 8 (pairsIn pm.toNat))).getD i zeroSample =
      (getTile t s.m).sampleAt (((getTile t s.m).buf c).prep.elem i 8) :=
    placed_getD _ hi (by have := (List.mem_filter.1 hi).1; simp at this; omega)
  obtain ⟨ha0, htag0⟩ := hz (2 * i) (by simp)
  obtain ⟨ha1, htag1⟩ := hz (2 * i + 1) (by simp)
  have hpair : z.pairTag i = (getTile t s.m).pairTag i := by rw [Tile.pairTag, htag0, htag1]; rfl
  have heven : 2 * i / 2 = i ∧ 2 * i % 2 = 0 := by omega
  have hodd : (2 * i + 1) / 2 = i ∧ (2 * i + 1) % 2 = 1 := by omega
  dsimp only
  rw [hmem, hpair, ha0, ha1]
  refine ((accTaken_accSet z (2 * i) _ _).congr ?_ ?_).append ((accTaken_accSet _ (2 * i + 1) _ _).congr ?_ ?_)
  all_goals
    intro k hk
    rw [List.mem_singleton.1 hk]
  · simp only [heven, ↓reduceIte]; rfl
  · simp only [heven]
  · simp only [hodd, Nat.one_ne_zero, ↓reduceIte]; rfl
  · simp only [hodd]

theorem accw_leaves (h : tileRuns t s) (hx : getTile t s.m = x) {c : Fin 8} {u : Bool} {m : BitVec 8}
    (hbuf : bufOk (x.buf c).prep 4 (lanesIn m.toNat)) :
    ∃ y : Tile, accTaken (lanesIn m.toNat) (fun k => x.a k + wordInt u (x.wordAt ((x.buf c).prep.elem k 4))) x.aTag (x.advanced c) y ∧
      tileLeft t 1 y.next (.accw t c u m) s := by
  subst hx
  refine ⟨_, ?_, tileLeft_viaBuf h rfl hbuf⟩
  rw [Tile.elems, zip_map_self, List.foldl_map]
  exact accTaken_lanes (v := fun k a => a + wordInt u ((getTile t s.m).wordAt (((getTile t s.m).buf c).prep.elem k 4)))
    (g := fun _ g => g) (nodup_lanesIn _) _

theorem ldacc_leaves (h : tileRuns t s) (hx : getTile t s.m = x) {c : Fin 8} {u : Bool} {m : BitVec 8}
    (hbuf : bufOk (x.buf c).prep 4 (lanesIn m.toNat)) :
    ∃ y : Tile, accTaken (lanesIn m.toNat) (fun k => wordInt u (x.wordAt ((x.buf c).prep.elem k 4))) (fun _ => (.valid, false))
      (x.advanced c) y ∧ tileLeft t 1 y.next (.ldacc t c u m) s := by
  subst hx
  refine ⟨_, ?_, tileLeft_viaBuf h rfl hbuf⟩
  rw [Tile.elems, zip_map_self, List.foldl_map]
  exact accTaken_loads (fun _ => satS_wordInt ..) _ (nodup_lanesIn _) _

/-! ### Searches -/

theorem sclr_leaves (h : tileRuns t s) (hx : getTile t s.m = x) (mn : Bool) :
    tileLeft t 1 { x.next with
      sMin := mn, sidx := 0, sVal := if mn then 2 ^ 47 - 1 else -(2 ^ 47), sIdx := 0xFFFF, sTag := (.valid, false) } (.sclr t mn) s :=
  tileLeft_of_done h rfl (by rw [hx]; rfl)

theorem sacc_leaves (h : tileRuns t s) (hx : getTile t s.m = x) (m : BitVec 8) :
    ∃ y : Tile, searched ((lanesIn m.toNat).map fun k => (x.a k, (x.sidx + k) % 65536, x.aTag k)) x y ∧
      tileLeft t 1 y.next (.sacc t m) s :=
  ⟨_, searched_foldl _ x, tileLeft_of_done h rfl (by rw [hx, List.foldl_map])⟩

theorem smem_leaves (h : tileRuns t s) (hx : getTile t s.m = x) {c : Fin 8} {u : Bool} {m : BitVec 8}
    (hbuf : bufOk (x.buf c).prep 4 (lanesIn m.toNat)) :
    ∃ y : Tile, searched ((lanesIn m.toNat).map fun k =>
      (wordInt u (x.wordAt ((x.buf c).prep.elem k 4)), (x.sidx + k) % 65536, (.valid, false))) (x.advanced c) y ∧
      tileLeft t 1 y.next (.smem t c u m) s := by
  subst hx
  refine ⟨_, ?_, tileLeft_viaBuf h rfl hbuf⟩
  have hfound := searched_foldl ((lanesIn m.toNat).map fun k => (wordInt u ((getTile t s.m).wordAt
    (((getTile t s.m).buf c).prep.elem k 4)), ((getTile t s.m).sidx + k) % 65536, (.valid, false))) ((getTile t s.m).advanced c)
  rw [List.foldl_map] at hfound
  rw [Tile.elems, zip_map_self, List.foldl_map]
  exact hfound

/-! ### Moves -/

/-- Whatever a run of steps leaves alone one by one, it leaves alone. -/
theorem foldl_keeps {α : Type} {g : Tile → α} {f : Tile → Nat → Tile} (h : ∀ z k, g (f z k) = g z) (l : List Nat) (z : Tile) :
    g (l.foldl f z) = g z := by
  induction l generalizing z with
  | nil => rfl
  | cons k l ih => rw [List.foldl_cons, ih, h]

theorem setBytes_evIf (x : Tile) (a : Nat) (bs : List Byte) (b : Bool) (i : Nat) : (x.setBytes a bs).evIf b i =
    { x with mem := (x.setBytes a bs).mem, events := if b then x.events ||| (1#32 <<< i) else x.events } := by
  cases b <;> rfl

/-- One step of MOVW: lane `k` to its address. -/
def Tile.wordMoved (x : Tile) (u : Bool) (addr : Nat → Nat) (z : Tile) (k : Nat) : Tile :=
  ({ z.putWord (addr k) (x.moveWord k u).1 with wtag := tagMerge z.wtag (x.aTag k) } : Tile).evIf (x.moveWord k u).2 2

theorem wordMoved_eq (x : Tile) (u : Bool) (addr : Nat → Nat) (z : Tile) (k : Nat) : x.wordMoved u addr z k =
    { z with mem := (z.setBytes (addr k) (leBytes 4 (x.moveWord k u).1.toNat)).mem, wtag := tagMerge z.wtag (x.aTag k)
             events := if (x.moveWord k u).2 then z.events ||| 4#32 else z.events } :=
  setBytes_evIf { z with wtag := tagMerge z.wtag (x.aTag k) } ..

theorem storesEach_wordMoved (x : Tile) (u : Bool) (addr : Nat → Nat) :
    storesEach 4 addr (fun k => leBytes 4 (x.moveWord k u).1.toNat) (x.wordMoved u addr) :=
  fun _ _ => ⟨by rw [wordMoved_eq], length_leBytes ..⟩

theorem wtag_wordMoved (x : Tile) (u : Bool) (addr : Nat → Nat) (l : List Nat) (z : Tile) :
    (l.foldl (x.wordMoved u addr) z).wtag = l.foldl (fun g k => tagMerge g (x.aTag k)) z.wtag := by
  induction l generalizing z with
  | nil => rfl
  | cons k l ih => rw [List.foldl_cons, ih, wordMoved_eq, List.foldl_cons]

theorem movw_leaves (h : tileRuns t s) (hx : getTile t s.m = x) {c : Fin 8} {u : Bool} {m : BitVec 8}
    (hbuf : bufOk (x.buf c).prep 4 (lanesIn m.toNat)) :
    ∃ y : Tile, tileLeft t 1 y.next (.movw t c u m) s ∧
      (∀ k ∈ lanesIn m.toNat, (∀ j ∈ lanesIn m.toNat, k < j → (x.buf c).prep.elem j 4 ≠ (x.buf c).prep.elem k 4) →
        y.bytes ((x.buf c).prep.elem k 4) 4 = leBytes 4 (x.moveWord k u).1.toNat) ∧
      (∀ p, (∀ k ∈ lanesIn m.toNat, p < (x.buf c).prep.elem k 4 ∨ (x.buf c).prep.elem k 4 + 4 ≤ p) → y.byte p = x.byte p) ∧
      y.wtag = (lanesIn m.toNat).foldl (fun g k => tagMerge g (x.aTag k)) x.wtag ∧
      y.events = (if (lanesIn m.toNat).any fun k => (x.moveWord k u).2 then x.events ||| 4#32 else x.events) ∧
      y.bufs = (x.advanced c).bufs ∧ { y with mem := x.mem, wtag := x.wtag, events := x.events, bufs := x.bufs } = x := by
  have hstores := storesEach_wordMoved x u fun k => (x.buf c).prep.elem k 4
  refine ⟨(lanesIn m.toNat).foldl (x.wordMoved u fun k => (x.buf c).prep.elem k 4) (x.advanced c), ?_, fun k hk hlast => ?_,
    fun p hp => hstores.outside hp _, wtag_wordMoved .., ?_, ?_, ?_⟩
  · have hleft := tileLeft_viaBuf (i := .movw t c u m) h rfl (hx ▸ hbuf)
    rw [hx, Tile.elems, zip_map_self, List.foldl_map] at hleft
    exact hleft
  · exact hstores.stored (sorted_lanesIn _) (fun i hi => (hbuf.2 i hi).2) hk hlast _
  · exact events_foldl (fun z k => by rw [wordMoved_eq]) _ _
  · exact foldl_keeps (g := Tile.bufs) (fun z k => by rw [wordMoved_eq]) _ _
  · exact foldl_keeps (f := x.wordMoved u _) (g := fun z => { z with mem := x.mem, wtag := x.wtag, events := x.events, bufs := x.bufs })
      (fun z k => by rw [wordMoved_eq]) _ (x.advanced c)

/-- One step of MOVS: pair `i` to its address. -/
def Tile.sampleMoved (x : Tile) (addr : Nat → Nat) (z : Tile) (i : Nat) : Tile :=
  (z.putSample (addr i) (x.moveSample i).1).evIf (x.moveSample i).2 2

theorem sampleMoved_eq (x : Tile) (addr : Nat → Nat) (z : Tile) (i : Nat) : x.sampleMoved addr z i =
    { z with mem := (z.setBytes (addr i) (leBytes 8 (sampleWord (x.moveSample i).1))).mem
             events := if (x.moveSample i).2 then z.events ||| 4#32 else z.events } :=
  setBytes_evIf z ..

theorem storesEach_sampleMoved (x : Tile) (addr : Nat → Nat) :
    storesEach 8 addr (fun i => leBytes 8 (sampleWord (x.moveSample i).1)) (x.sampleMoved addr) :=
  fun _ _ => ⟨by rw [sampleMoved_eq], length_leBytes ..⟩

theorem movs_leaves (h : tileRuns t s) (hx : getTile t s.m = x) {c : Fin 8} {pm : BitVec 4}
    (hbuf : bufOk (x.buf c).prep 8 (pairsIn pm.toNat)) :
    ∃ y : Tile, tileLeft t 1 y.next (.movs t c pm) s ∧
      (∀ i ∈ pairsIn pm.toNat, (∀ j ∈ pairsIn pm.toNat, i < j → (x.buf c).prep.elem j 8 ≠ (x.buf c).prep.elem i 8) →
        y.bytes ((x.buf c).prep.elem i 8) 8 = leBytes 8 (sampleWord (x.moveSample i).1)) ∧
      (∀ p, (∀ i ∈ pairsIn pm.toNat, p < (x.buf c).prep.elem i 8 ∨ (x.buf c).prep.elem i 8 + 8 ≤ p) → y.byte p = x.byte p) ∧
      y.events = (if (pairsIn pm.toNat).any fun i => (x.moveSample i).2 then x.events ||| 4#32 else x.events) ∧
      y.bufs = (x.advanced c).bufs ∧ { y with mem := x.mem, events := x.events, bufs := x.bufs } = x := by
  have hstores := storesEach_sampleMoved x fun i => (x.buf c).prep.elem i 8
  refine ⟨(pairsIn pm.toNat).foldl (x.sampleMoved fun i => (x.buf c).prep.elem i 8) (x.advanced c), ?_, fun i hi hlast => ?_,
    fun p hp => hstores.outside hp _, ?_, ?_, ?_⟩
  · have hleft := tileLeft_viaBuf (i := .movs t c pm) h rfl (hx ▸ hbuf)
    rw [hx, Tile.elems, zip_map_self, List.foldl_map] at hleft
    exact hleft
  · exact hstores.stored (sorted_pairsIn _) (fun i hi => (hbuf.2 i hi).2) hi hlast _
  · exact events_foldl (fun z i => by rw [sampleMoved_eq]) _ _
  · exact foldl_keeps (g := Tile.bufs) (fun z i => by rw [sampleMoved_eq]) _ _
  · exact foldl_keeps (f := x.sampleMoved _) (g := fun z => { z with mem := x.mem, events := x.events, bufs := x.bufs })
      (fun z i => by rw [sampleMoved_eq]) _ (x.advanced c)

end

/-! ### Instructions that stop at their buffer (R307) -/

theorem accessesVia_mac (t : Fin 144) (c v : Fin 8) (m : BitVec 8) : accessesVia (.mac t c v m) t c 8 (pairsOf m.toNat) :=
  ⟨1, _, fun _ => rfl⟩

theorem accessesVia_cmac (t : Fin 144) (c v : Fin 8) (j : Bool) (pm : BitVec 4) :
    accessesVia (.cmac t c v j pm) t c 8 (pairsIn pm.toNat) := ⟨2, _, fun _ => rfl⟩

theorem accessesVia_movs (t : Fin 144) (c : Fin 8) (pm : BitVec 4) : accessesVia (.movs t c pm) t c 8 (pairsIn pm.toNat) :=
  ⟨1, _, fun _ => rfl⟩

theorem accessesVia_words (t : Fin 144) (c : Fin 8) (u : Bool) (m : BitVec 8) :
    ∀ k ∈ [Instr.accw t c u m, .ldacc t c u m, .smem t c u m, .movw t c u m], accessesVia k t c 4 (lanesIn m.toNat) := by
  simp only [List.forall_mem_cons]
  exact ⟨⟨1, _, fun _ => rfl⟩, ⟨1, _, fun _ => rfl⟩, ⟨1, _, fun _ => rfl⟩, ⟨1, _, fun _ => rfl⟩, fun _ h => absurd h List.not_mem_nil⟩

/-- Settles O48, instruction by instruction: the lanes by `accTaken_foldl`, the searches by `compared_foldl`, the moves by
`storesEach.stored`, and the faults by what the access through the buffer finds. -/
theorem tileLanesAccumulateMoveAndSearch : Obligations.TileLanesAccumulateMoveAndSearch := by
  unfold Obligations.TileLanesAccumulateMoveAndSearch
  intro s t x hstate hpaused
  have h : tileRuns t s := ⟨hstate, hpaused⟩
  refine ⟨fun m => ⟨clr_leaves h rfl m, red_leaves h rfl m, sacc_leaves h rfl m⟩, cred_leaves h rfl, sclr_leaves h rfl, fun c =>
    ⟨fun v m hbuf => mac_leaves h rfl hbuf, fun v j pm hbuf => cmac_leaves h rfl hbuf, fun u m hbuf => ⟨accw_leaves h rfl hbuf,
      ldacc_leaves h rfl hbuf, smem_leaves h rfl hbuf, movw_leaves h rfl hbuf⟩, fun pm hbuf => movs_leaves h rfl hbuf,
      fun v j m pm => ⟨fun hoff => ⟨fun hne => ?_, fun hne => ⟨?_, ?_⟩⟩, fun hoff hne k hk => ?_, fun hoff i r his hi => ?_,
        fun hoff i r his hi => ⟨?_, ?_⟩, fun hoff i r his hi k hk => ?_⟩⟩⟩
  · exact tileStops_badOffset h (accessesVia_mac t c v m) hoff hne
  · exact tileStops_badOffset h (accessesVia_cmac t c v j pm) hoff hne
  · exact tileStops_badOffset h (accessesVia_movs t c pm) hoff hne
  · exact tileStops_badOffset h (accessesVia_words t c j m k hk) hoff hne
  · exact tileStops_badFirst h (accessesVia_mac t c v m) hoff his hi
  · exact tileStops_badFirst h (accessesVia_cmac t c v j pm) hoff his hi
  · exact tileStops_badFirst h (accessesVia_movs t c pm) hoff his hi
  · exact tileStops_badFirst h (accessesVia_words t c j m k hk) hoff his hi

end Sys2Proof.Machine

/-! SUPPORT. The self-calibration and the restore of a quadrant's converters (R116 to R122): what each piece leaves, and the statement
that they settle. -/

namespace Sys2Proof.Machine

/-! ### Lists of updates -/

/-- What the update of each element brings about, and the updates of the others leave, holds of every element afterwards. -/
theorem each_own {α : Type} {P : α → Mach → Prop} {f : α → Mach → Mach} {l : List α} (hown : ∀ a ∈ l, ∀ m, P a (f a m))
    (hother : ∀ a ∈ l, ∀ b ∈ l, b ≠ a → ∀ m, P b m → P b (f a m)) (m : Mach) : ∀ b ∈ l, P b (each l f m) := by
  intro b hb
  obtain ⟨l1, l2, rfl⟩ := List.append_of_mem hb
  have hsplit : each (l1 ++ b :: l2) f m = each l2 f (f b (each l1 f m)) := by simp [each]
  rw [hsplit]
  refine each_inv (P b) l2 f (fun a ha u hu => ?_) _ (hown b hb _)
  have hmem : a ∈ l1 ++ b :: l2 := by simp [ha]
  by_cases hba : b = a
  · exact hba ▸ hown b hb u
  · exact hother a hmem b hb hba u hu

/-! ### The addresses of a receive unit -/

theorem rxBase_apart {u u' : RxUnit} (h : u ≠ u') {a b : Nat} (ha : a < 0x400) (hb : b < 0x400) : rxBase u + a ≠ rxBase u' + b := by
  cases u <;> cases u' <;> simp only [ne_eq, RxUnit.path.injEq, RxUnit.obs.injEq, Fin.ext_iff] at h <;>
    simp only [rxBase, pathBase, obsBase, quadBase] <;> omega

/-- A unit's registers lie in the quadrants' blocks, off the quadrant's own registers. -/
theorem rxBase_place (u : RxUnit) : rxBase u % 0x400 = 0 ∧ rxBase u < 0x500000 ∧ 0x100000 ≤ rxBase u ∧
    (rxBase u % 0x100000 < 0x4000 ∨ 0x4400 ≤ rxBase u % 0x100000) ∧ rxBase u % 0x100000 < 0x5000 := by
  cases u <;> simp only [rxBase, pathBase, obsBase, quadBase] <;> omega

theorem rxKey_injective {u u' : RxUnit} (h : u ≠ u') : rxKey u ≠ rxKey u' := by
  cases u <;> cases u' <;> simp only [ne_eq, RxUnit.path.injEq, RxUnit.obs.injEq, Fin.ext_iff] at h <;>
    simp only [rxKey] <;> omega

theorem length_unitsOf (q : Nat) : (unitsOf q).length = 18 := rfl

theorem nodup_unitsOf (q : Fin 4) : (unitsOf q).Nodup := by
  revert q
  decide

/-! ### A calibration starts -/

/-- The registers that the start of a calibration or restore changes. -/
def startRegs (q : Nat) : List Nat := [QUAD_RX_CAL_STATUS q, GCTL_QUAD_STATE]

/-- A calibration, or a restore, of quadrant `q` runs; the stores and the receive units are as they were. -/
structure CalStarted (q : Nat) (restore : Bool) (m u : Mach) : Prop where
  busy : fon (QUAD_RX_CAL_STATUS.busy q) u = true
  restoring : fon (QUAD_RX_CAL_STATUS.restoring q) u = restore
  regs : regsKept (startRegs q) m u
  stores : storesKept m u
  rx : u.rx = m.rx

theorem calStatus_ne_quadState (q : Nat) : QUAD_RX_CAL_STATUS q ≠ GCTL_QUAD_STATE := by
  simp only [QUAD_RX_CAL_STATUS, quadBase, GCTL_QUAD_STATE]
  omega

theorem calStarted_calRuns (q : Nat) (restore : Bool) (m : Mach) : CalStarted q restore m (calRuns q restore m) := by
  have hkept : ∀ u, regsKept [GCTL_QUAD_STATE] u (setSelfcal q (!restore) u) := fun u =>
    regsKept_fsetB ⟨GCTL_QUAD_STATE, 12 + q, 1⟩ _ u
  have hne : QUAD_RX_CAL_STATUS q ∉ [GCTL_QUAD_STATE] := by simpa using calStatus_ne_quadState q
  refine ⟨?_, ?_, ?_, ⟨rfl, rfl, rfl, rfl⟩, rfl⟩
  · rw [calRuns, (hkept _).fon (f := QUAD_RX_CAL_STATUS.busy q) hne, fon, fsetB,
      fget_fset_other (show 19 + 1 ≤ 32 by omega) (.inr (.inr (show 18 + 1 ≤ 19 by omega))),
      fget_fset_same (show 18 + 1 ≤ 32 by omega)]
    rfl
  · rw [calRuns, (hkept _).fon (f := QUAD_RX_CAL_STATUS.restoring q) hne]
    exact fon_fsetB rfl (show 19 + 1 ≤ 32 by omega) restore _
  · have hbusy : regsKept (startRegs q) m (fset (QUAD_RX_CAL_STATUS.busy q) 1 m) :=
      (regsKept_fset _ _ m).mono (by simp [startRegs, QUAD_RX_CAL_STATUS.busy])
    have hrestoring : ∀ u, regsKept (startRegs q) u (fsetB (QUAD_RX_CAL_STATUS.restoring q) restore u) := fun u =>
      (regsKept_fsetB _ _ u).mono (by simp [startRegs, QUAD_RX_CAL_STATUS.restoring])
    exact (hbusy.trans (hrestoring _)).trans ((hkept _).mono (by simp [startRegs]))

theorem phaseCal_keeps (q : Nat) (p : QPhase) (m : Mach) :
    regsKept [GCTL_QUAD_STATE] m (phaseCal q p m) ∧ storesKept m (phaseCal q p m) ∧ (phaseCal q p m).rx = m.rx := by
  unfold phaseCal
  split
  · exact ⟨(setPhase_keeps q p _ m).1, (setPhase_keeps q p _ m).2, rfl⟩
  · exact ⟨(setPhase_keeps q p _ m).1, (setPhase_keeps q p _ m).2, rfl⟩
  · exact ⟨.refl _ m, .refl m, rfl⟩

theorem CalStarted.phaseCal {q : Nat} {restore : Bool} {m u : Mach} (h : CalStarted q restore m u) (p : QPhase) :
    CalStarted q restore m (phaseCal q p u) := by
  obtain ⟨hregs, hstores, hrx⟩ := phaseCal_keeps q p u
  have hne : QUAD_RX_CAL_STATUS q ∉ [GCTL_QUAD_STATE] := by simpa using calStatus_ne_quadState q
  exact ⟨(hregs.fon (f := QUAD_RX_CAL_STATUS.busy q) hne).trans h.busy,
    (hregs.fon (f := QUAD_RX_CAL_STATUS.restoring q) hne).trans h.restoring, h.regs.trans (hregs.mono (by simp [startRegs])),
    h.stores.trans hstores, hrx.trans h.rx⟩

theorem calStarted_startFull (q : Nat) (m : Mach) : CalStarted q false m (startFull q m) :=
  (calStarted_calRuns q false m).phaseCal .selfcal

/-! ### A restore starts (R119, R120) -/

theorem startRestore_right {q : Nat} {m : Mach} (h : ∀ u ∈ unitsOf q, factCrc u m = rd (QUAD_RX_FACT_CHK u) m) :
    startRestore q m = phaseCal q .restoring (calRuns q true (each (unitsOf q) applyFacts m)) := by
  have hnone : (unitsOf q).filter (fun u => factCrc u m != rd (QUAD_RX_FACT_CHK u) m) = [] :=
    List.filter_eq_nil_iff.2 fun u hu => by simp [h u hu]
  rw [startRestore, hnone]
  rfl

/-- The units whose check word is wrong. -/
def wrongUnits (q : Nat) (m : Mach) : List RxUnit := (unitsOf q).filter fun u => factCrc u m != rd (QUAD_RX_FACT_CHK u) m

theorem startRestore_wrong {q : Nat} {m : Mach} {u : RxUnit} (h : u ∈ wrongUnits q m) :
    startRestore q m = startFull q (each (wrongUnits q m) (fun u s => setEv (QUAD_RX_EVENTS.fact_err u) s) m) :=
  if_neg (by rw [List.isEmpty_iff]; exact List.ne_nil_of_mem h)

/-- Every unit's factors are those of its registers. -/
theorem facts_applied (l : List RxUnit) (m : Mach) :
    ∀ u ∈ l, (getRx (rxKey u) (each l applyFacts m)).facts = (factWords u m).take 40 := by
  have hwords : ∀ u, factWords u (each l applyFacts m) = factWords u m := fun u =>
    each_keeps (factWords u) l applyFacts (fun _ _ _ => rfl) m
  have hfacts := each_own (P := fun u s => (getRx (rxKey u) s).facts = (factWords u s).take 40) (f := applyFacts) (l := l)
    (fun u _ s => by rw [applyFacts, getRx_setRx_same]; rfl)
    (fun u _ v _ hvu s hP => by rw [applyFacts, getRx_setRx_other (rxKey_injective hvu)]; exact hP) m
  exact fun u hu => (hfacts u hu).trans (by rw [hwords])

theorem applyFacts_keeps (l : List RxUnit) (m : Mach) (k : List Nat) :
    regsKept k m (each l applyFacts m) ∧ storesKept m (each l applyFacts m) :=
  ⟨regsKept_each (f := applyFacts) (fun _ _ _ _ _ => rfl) m, storesKept_each (f := applyFacts) (fun _ _ => ⟨rfl, rfl, rfl, rfl⟩) m⟩

/-- R120: a wrong check word is reported for its unit. -/
theorem factErr_reported (l : List RxUnit) (m : Mach) :
    ∀ u ∈ l, fon (QUAD_RX_EVENTS.fact_err u) (each l (fun u s => setEv (QUAD_RX_EVENTS.fact_err u) s) m) = true := by
  refine each_own (P := fun u s => fon (QUAD_RX_EVENTS.fact_err u) s = true) (fun u _ s => ?_) (fun u _ v _ hvu s hP => ?_) m
  · exact fon_setEv rfl (show 5 + 1 ≤ 32 by omega) (rxEvents_ne_log u).1 (rxEvents_ne_log u).2 s
  · rw [(regsKept_setEv (QUAD_RX_EVENTS.fact_err u) s).fon]
    · exact hP
    · simp only [List.mem_cons, List.not_mem_nil, or_false, not_or]
      exact ⟨rxBase_apart hvu (by decide) (by decide), rxEvents_ne_log v⟩

/-! ### A calibration ends -/

/-- The registers that a power-up's last step changes. -/
def upRegs (q : Nat) : List Nat := [GCTL_QUAD_STATE, QUAD_FES_STATUS q, QUAD_FES_EVENTS q, HLT_LOG_WPTR, HLT_EVENTS]

theorem regsKept_refreshFes (q : Nat) (m : Mach) : regsKept (upRegs q) m (refreshFes q m) := by
  intro a ha
  simp only [upRegs, List.mem_cons, List.not_mem_nil, or_false, not_or] at ha
  exact rd_refreshFes ha.2.1 ha.2.2.1 ha.2.2.2.1 ha.2.2.2.2 m

theorem powerUpDone_keeps (q : Nat) (m : Mach) : regsKept (upRegs q) m (powerUpDone q m) ∧ storesKept m (powerUpDone q m) := by
  have hstate : ∀ u, regsKept (upRegs q) u (setQuadState q 1 u) := fun u =>
    (((regsKept_fset (GCTL_QUAD_STATE.st_q q) 1 u).mono (by simp [upRegs, GCTL_QUAD_STATE.st_q])).trans
      (regsKept_refreshFes q _)).trans ((regsKept_fsetB ⟨GCTL_QUAD_STATE, 8 + q, 1⟩ _ _).mono (by simp [upRegs]))
  have hphase : ∀ t u, regsKept (upRegs q) u (setPhase q .rest t u) := fun t u =>
    (setPhase_keeps q .rest t u).1.mono (by simp [upRegs])
  have hfes : ∀ u, regsKept (upRegs q) u (fesRestart q u) ∧ storesKept u (fesRestart q u) := fun u =>
    ⟨((regsKept_fset (QUAD_FES_STATUS.state q) 0 u).mono (by simp [upRegs, QUAD_FES_STATUS.state])).trans
      (regsKept_refreshFes q _), (pathsKept_refreshFes q _).1⟩
  obtain ⟨z, hflush, -⟩ := addFlush_frame (1 + q) m
  unfold powerUpDone
  dsimp only
  rw [hflush]
  exact ⟨((hstate { m with flush := z }).trans (hphase _ _)).trans (hfes _).1,
    ((storesKept_setQuadState q 1 { m with flush := z }).trans (setPhase_keeps q .rest _ _).2).trans (hfes _).2⟩

end Sys2Proof.Machine

/-! SUPPORT. The end of a self-calibration or a restore (R118, R119). -/

namespace Sys2Proof.Machine

/-! ### Registers apart -/

/-- A unit's registers are none of the quadrants' calibration and front-end registers, and none of the event log's or the device's. -/
theorem rxBase_off (u : RxUnit) {a : Nat} (ha : a < 0x400) (q : Nat) : rxBase u + a ≠ QUAD_RX_CAL_STATUS q ∧
    rxBase u + a ≠ QUAD_RX_CAL_EVENTS q ∧ rxBase u + a ∉ upRegs q := by
  obtain ⟨haligned, hhigh, hlow, hgap, hend⟩ := rxBase_place u
  simp only [upRegs, List.mem_cons, List.not_mem_nil, or_false, not_or, QUAD_RX_CAL_STATUS, QUAD_RX_CAL_EVENTS, QUAD_FES_STATUS,
    QUAD_FES_EVENTS, GCTL_QUAD_STATE, HLT_LOG_WPTR, HLT_EVENTS, quadBase]
  omega

theorem calStatus_off (q : Nat) : QUAD_RX_CAL_STATUS q ≠ QUAD_RX_CAL_EVENTS q ∧ QUAD_RX_CAL_STATUS q ∉ upRegs q := by
  simp only [upRegs, List.mem_cons, List.not_mem_nil, or_false, not_or, QUAD_RX_CAL_STATUS, QUAD_RX_CAL_EVENTS, QUAD_FES_STATUS,
    QUAD_FES_EVENTS, GCTL_QUAD_STATE, HLT_LOG_WPTR, HLT_EVENTS, quadBase]
  omega

theorem calEvents_off (q : Nat) : QUAD_RX_CAL_EVENTS q ∉ upRegs q := by
  simp only [upRegs, List.mem_cons, List.not_mem_nil, or_false, not_or, QUAD_RX_CAL_EVENTS, QUAD_FES_STATUS, QUAD_FES_EVENTS,
    GCTL_QUAD_STATE, HLT_LOG_WPTR, HLT_EVENTS, quadBase]
  omega

/-- The registers that tell the status of quadrant `q`'s units. -/
def unitStatusRegs (q : Nat) : List Nat := (unitsOf q).map QUAD_RX_STATUS

theorem unitStatusRegs_of_mem {q : Nat} {u : RxUnit} (h : u ∈ unitsOf q) : [QUAD_RX_STATUS u] ⊆ unitStatusRegs q :=
  List.cons_subset.2 ⟨List.mem_map_of_mem h, List.nil_subset _⟩

theorem off_unitStatusRegs {q a : Nat} (h : ∀ u, a ≠ QUAD_RX_STATUS u) : a ∉ unitStatusRegs q := by
  rintro hmem
  obtain ⟨u, -, hu⟩ := List.mem_map.1 hmem
  exact h u hu.symm

theorem calStatus_off_units (q : Nat) : QUAD_RX_CAL_STATUS q ∉ unitStatusRegs q :=
  off_unitStatusRegs fun u => ((rxBase_off u (show 0xC < 0x400 by decide) q).1).symm

theorem rxStatus_injective {u v : RxUnit} (h : u ≠ v) : QUAD_RX_STATUS u ≠ QUAD_RX_STATUS v :=
  rxBase_apart h (by decide) (by decide)

theorem rxStatus_off (u : RxUnit) (q : Nat) : QUAD_RX_STATUS u ∉ QUAD_RX_CAL_STATUS q :: QUAD_RX_CAL_EVENTS q :: upRegs q := by
  obtain ⟨hstatus, hevents, hup⟩ := rxBase_off u (show 0xC < 0x400 by decide) q
  simp only [List.mem_cons, not_or]
  exact ⟨hstatus, hevents, hup⟩

/-! ### The end of a calibration -/

/-- Neither a calibration nor a restore of quadrant `q` runs. -/
def calStopped (q : Nat) (m : Mach) : Mach :=
  setSelfcal q false (fset (QUAD_RX_CAL_STATUS.restoring q) 0 (fset (QUAD_RX_CAL_STATUS.busy q) 0 m))

/-- Unit `u` has valid factors, restored or found anew. -/
def unitDone (restored : Bool) (u : RxUnit) (m : Mach) : Mach :=
  fsetB (QUAD_RX_STATUS.restored u) restored (fset (QUAD_RX_STATUS.cal_valid u) 1 m)

/-- All of `calOver` but the power-up that goes on. -/
def calClosed (q : Nat) (restored : Bool) (m : Mach) : Mach :=
  setEv (QUAD_RX_CAL_EVENTS.cal_done q) (clearUncHi q (each (unitsOf q) (unitDone restored) (calStopped q m)))

theorem calOver_eq (q : Nat) (restored : Bool) (m : Mach) :
    calOver q restored m = calClosed q restored m ∨ calOver q restored m = powerUpDone q (calClosed q restored m) := by
  unfold calOver
  dsimp only
  split
  · exact .inr rfl
  · exact .inr rfl
  · exact .inl rfl

theorem calOver_keeps (q : Nat) (restored : Bool) (m : Mach) :
    regsKept (upRegs q) (calClosed q restored m) (calOver q restored m) ∧
      storesKept (calClosed q restored m) (calOver q restored m) := by
  rcases calOver_eq q restored m with h | h <;> rw [h]
  · exact ⟨.refl _ _, .refl _⟩
  · exact powerUpDone_keeps q _

theorem calStopped_keeps (q : Nat) (m : Mach) :
    regsKept [QUAD_RX_CAL_STATUS q, GCTL_QUAD_STATE] m (calStopped q m) ∧ storesKept m (calStopped q m) := by
  have hbusy : regsKept [QUAD_RX_CAL_STATUS q, GCTL_QUAD_STATE] m (fset (QUAD_RX_CAL_STATUS.busy q) 0 m) :=
    (regsKept_fset _ _ m).mono (by simp [QUAD_RX_CAL_STATUS.busy])
  have hrestoring : ∀ u, regsKept [QUAD_RX_CAL_STATUS q, GCTL_QUAD_STATE] u (fset (QUAD_RX_CAL_STATUS.restoring q) 0 u) := fun u =>
    (regsKept_fset _ _ u).mono (by simp [QUAD_RX_CAL_STATUS.restoring])
  have hselfcal : ∀ u, regsKept [QUAD_RX_CAL_STATUS q, GCTL_QUAD_STATE] u (setSelfcal q false u) := fun u =>
    (regsKept_fsetB _ _ u).mono (by simp)
  exact ⟨(hbusy.trans (hrestoring _)).trans (hselfcal _), rfl, rfl, rfl, rfl⟩

theorem calStopped_status (q : Nat) (m : Mach) : fon (QUAD_RX_CAL_STATUS.busy q) (calStopped q m) = false ∧
    fget (QUAD_RX_CAL_STATUS.path_ok q) (calStopped q m) = fget (QUAD_RX_CAL_STATUS.path_ok q) m ∧
    fget (QUAD_RX_CAL_STATUS.obs_ok q) (calStopped q m) = fget (QUAD_RX_CAL_STATUS.obs_ok q) m := by
  have hselfcal : ∀ f : Fld, f.reg = QUAD_RX_CAL_STATUS q → ∀ u, fget f (setSelfcal q false u) = fget f u := fun f hf u =>
    (regsKept_fsetB ⟨GCTL_QUAD_STATE, 12 + q, 1⟩ false u).fget (by simpa [hf] using calStatus_ne_quadState q)
  refine ⟨?_, ?_, ?_⟩
  · rw [fon, calStopped, hselfcal _ rfl, fget_fset_other (show 19 + 1 ≤ 32 by omega) (.inr (.inr (show 18 + 1 ≤ 19 by omega))),
      fget_fset_same (show 18 + 1 ≤ 32 by omega)]
    rfl
  · rw [calStopped, hselfcal _ rfl, fget_fset_other (show 19 + 1 ≤ 32 by omega) (.inr (.inr (show 0 + 16 ≤ 19 by omega))),
      fget_fset_other (show 18 + 1 ≤ 32 by omega) (.inr (.inr (show 0 + 16 ≤ 18 by omega)))]
  · rw [calStopped, hselfcal _ rfl, fget_fset_other (show 19 + 1 ≤ 32 by omega) (.inr (.inr (show 16 + 2 ≤ 19 by omega))),
      fget_fset_other (show 18 + 1 ≤ 32 by omega) (.inr (.inr (show 16 + 2 ≤ 18 by omega)))]

theorem unitsDone_keeps (q : Nat) (restored : Bool) (m : Mach) :
    regsKept (unitStatusRegs q) m (each (unitsOf q) (unitDone restored) m) ∧
      storesKept m (each (unitsOf q) (unitDone restored) m) := by
  refine ⟨regsKept_each (fun u hu s => ?_) m, storesKept_each (f := unitDone restored) (fun _ _ => ⟨rfl, rfl, rfl, rfl⟩) m⟩
  exact ((regsKept_fset (QUAD_RX_STATUS.cal_valid u) 1 s).mono (unitStatusRegs_of_mem hu)).trans
    ((regsKept_fsetB (QUAD_RX_STATUS.restored u) restored _).mono (unitStatusRegs_of_mem hu))

theorem unitsDone_status (q : Nat) (restored : Bool) (m : Mach) :
    ∀ u ∈ unitsOf q, fon (QUAD_RX_STATUS.restored u) (each (unitsOf q) (unitDone restored) m) = restored ∧
      fon (QUAD_RX_STATUS.cal_valid u) (each (unitsOf q) (unitDone restored) m) = true := by
  refine each_own (P := fun u s => fon (QUAD_RX_STATUS.restored u) s = restored ∧ fon (QUAD_RX_STATUS.cal_valid u) s = true)
    (f := unitDone restored) (fun u _ s => ⟨fon_fsetB rfl (show 16 + 1 ≤ 32 by omega) restored _, ?_⟩) (fun u _ v _ hvu s hP => ?_) m
  · rw [fon, unitDone, fsetB, fget_fset_other (show 16 + 1 ≤ 32 by omega) (.inr (.inr (show 15 + 1 ≤ 16 by omega))),
      fget_fset_same (show 15 + 1 ≤ 32 by omega)]
    rfl
  · have hother : ∀ f : Fld, f.reg = QUAD_RX_STATUS v → fon f (unitDone restored u s) = fon f s := fun f hf => by
      have hne : f.reg ≠ QUAD_RX_STATUS u := hf ▸ rxStatus_injective hvu
      rw [fon, unitDone, fsetB, fget_fset_other_reg hne, fget_fset_other_reg hne, ← fon]
    rw [hother (QUAD_RX_STATUS.restored v) rfl, hother (QUAD_RX_STATUS.cal_valid v) rfl]
    exact hP

theorem clearUncHi_keeps (q : Nat) (m : Mach) :
    regsKept (unitStatusRegs q) m (clearUncHi q m) ∧ storesKept m (clearUncHi q m) :=
  ⟨regsKept_each (fun u hu s => (regsKept_fset (QUAD_RX_STATUS.unc_hi u) 0 s).mono (unitStatusRegs_of_mem hu)) m,
    storesKept_each (f := fun u s => fset (QUAD_RX_STATUS.unc_hi u) 0 s) (fun _ _ => ⟨rfl, rfl, rfl, rfl⟩) m⟩

/-- A field below unc_hi reads as before. -/
theorem fon_clearUncHi {f : Fld} (h : f.lo + f.w ≤ 17) (q : Nat) (m : Mach) : fon f (clearUncHi q m) = fon f m :=
  each_keeps (fon f) _ _ (fun u _ s => by
    rw [fon, fget_fset_other (show 17 + 1 ≤ 32 by omega) (.inr (.inr h)), ← fon]) m

/-- The registers that the end of a calibration changes, the factors' apart. -/
def endRegs (q : Nat) : List Nat :=
  (QUAD_RX_CAL_STATUS q :: QUAD_RX_CAL_EVENTS q :: upRegs q) ++ unitStatusRegs q

/-- The calibration, or restore, of quadrant `q` is over, and its units' status tells of it. -/
structure CalEnded (q : Nat) (restored : Bool) (m u : Mach) : Prop where
  busy : fon (QUAD_RX_CAL_STATUS.busy q) u = false
  pathOk : fget (QUAD_RX_CAL_STATUS.path_ok q) u = fget (QUAD_RX_CAL_STATUS.path_ok q) m
  obsOk : fget (QUAD_RX_CAL_STATUS.obs_ok q) u = fget (QUAD_RX_CAL_STATUS.obs_ok q) m
  done : fon (QUAD_RX_CAL_EVENTS.cal_done q) u = true
  units : ∀ v ∈ unitsOf q, fon (QUAD_RX_STATUS.restored v) u = restored ∧ fon (QUAD_RX_STATUS.cal_valid v) u = true
  regs : regsKept (endRegs q) m u
  stores : storesKept m u

theorem upRegs_subset_endRegs (q : Nat) : upRegs q ⊆ endRegs q := fun _ h =>
  List.mem_append_left _ (List.mem_cons_of_mem _ (List.mem_cons_of_mem _ h))

theorem unitStatusRegs_subset_endRegs (q : Nat) : unitStatusRegs q ⊆ endRegs q := fun _ h => List.mem_append_right _ h

/-- The event of the end changes cal_done's register and the log's. -/
theorem regsKept_calDone (q : Nat) (m : Mach) :
    regsKept (QUAD_RX_CAL_EVENTS q :: upRegs q) m (setEv (QUAD_RX_CAL_EVENTS.cal_done q) m) :=
  (regsKept_setEv _ m).mono (by simp [QUAD_RX_CAL_EVENTS.cal_done, upRegs])

theorem calEnded_calClosed (q : Nat) (restored : Bool) (m : Mach) : CalEnded q restored m (calClosed q restored m) := by
  obtain ⟨hstop, hstopStores⟩ := calStopped_keeps q m
  obtain ⟨hunits, hunitsStores⟩ := unitsDone_keeps q restored (calStopped q m)
  obtain ⟨hunc, huncStores⟩ := clearUncHi_keeps q (each (unitsOf q) (unitDone restored) (calStopped q m))
  have hdone := regsKept_calDone q (clearUncHi q (each (unitsOf q) (unitDone restored) (calStopped q m)))
  have hevents : QUAD_RX_CAL_STATUS q ∉ QUAD_RX_CAL_EVENTS q :: upRegs q := by
    simp only [List.mem_cons, not_or]
    exact calStatus_off q
  have hunit : ∀ v, QUAD_RX_STATUS v ∉ QUAD_RX_CAL_EVENTS q :: upRegs q := fun v h =>
    rxStatus_off v q (List.mem_cons_of_mem _ h)
  have hstatus : rd (QUAD_RX_CAL_STATUS q) (calClosed q restored m) = rd (QUAD_RX_CAL_STATUS q) (calStopped q m) :=
    (hdone _ hevents).trans ((hunc _ (calStatus_off_units q)).trans (hunits _ (calStatus_off_units q)))
  obtain ⟨hbusy, hpath, hobs⟩ := calStopped_status q m
  refine ⟨?_, (fget_of_rd hstatus).trans hpath, (fget_of_rd hstatus).trans hobs, ?_, fun v hv => ?_, ?_, ?_⟩
  · rw [fon, fget_of_rd (f := QUAD_RX_CAL_STATUS.busy q) hstatus]
    exact hbusy
  · have hoff := calEvents_off q
    simp only [upRegs, List.mem_cons, not_or] at hoff
    exact fon_setEv rfl (show 0 + 1 ≤ 32 by omega) hoff.2.2.2.1 hoff.2.2.2.2.1 _
  · obtain ⟨hrestored, hvalid⟩ := unitsDone_status q restored (calStopped q m) v hv
    constructor
    · exact (hdone.fon (f := QUAD_RX_STATUS.restored v) (hunit v)).trans
        ((fon_clearUncHi (show 16 + 1 ≤ 17 by omega) q _).trans hrestored)
    · exact (hdone.fon (f := QUAD_RX_STATUS.cal_valid v) (hunit v)).trans
        ((fon_clearUncHi (show 15 + 1 ≤ 17 by omega) q _).trans hvalid)
  · exact (((hstop.mono (by simp [endRegs, upRegs])).trans (hunits.mono (unitStatusRegs_subset_endRegs q))).trans
      (hunc.mono (unitStatusRegs_subset_endRegs q))).trans (hdone.mono fun _ h => List.mem_append_left _ (List.mem_cons_of_mem _ h))
  · exact ((hstopStores.trans hunitsStores).trans huncStores).trans (storesKept_setEv _ _)

theorem calEnded_calOver (q : Nat) (restored : Bool) (m : Mach) : CalEnded q restored m (calOver q restored m) := by
  obtain ⟨hregs, hstores⟩ := calOver_keeps q restored m
  have h := calEnded_calClosed q restored m
  have hstatus := (calStatus_off q).2
  have hunit : ∀ v, QUAD_RX_STATUS v ∉ upRegs q := fun v hv =>
    rxStatus_off v q (List.mem_cons_of_mem _ (List.mem_cons_of_mem _ hv))
  exact ⟨(hregs.fon (f := QUAD_RX_CAL_STATUS.busy q) hstatus).trans h.busy,
    (hregs.fget (f := QUAD_RX_CAL_STATUS.path_ok q) hstatus).trans h.pathOk,
    (hregs.fget (f := QUAD_RX_CAL_STATUS.obs_ok q) hstatus).trans h.obsOk,
    (hregs.fon (f := QUAD_RX_CAL_EVENTS.cal_done q) (calEvents_off q)).trans h.done,
    fun v hv => ⟨(hregs.fon (f := QUAD_RX_STATUS.restored v) (hunit v)).trans (h.units v hv).1,
      (hregs.fon (f := QUAD_RX_STATUS.cal_valid v) (hunit v)).trans (h.units v hv).2⟩,
    h.regs.trans (hregs.mono (upRegs_subset_endRegs q)), h.stores.trans hstores⟩

/-! ### What the calibration found -/

/-- The registers of the calibration status hold the units' bits. -/
theorem setCalOk_status (q : Nat) (ok : BitVec 18) (m : Mach) :
    fget (QUAD_RX_CAL_STATUS.path_ok q) (setCalOk q ok m) = ok.toNat % 65536 ∧
      fget (QUAD_RX_CAL_STATUS.obs_ok q) (setCalOk q ok m) = ok.toNat / 65536 := by
  have hlt : ok.toNat / 65536 < 2 ^ 2 := by omega
  constructor
  · rw [setCalOk, fget_fset_other (show 16 + 2 ≤ 32 by omega) (.inr (.inr (show 0 + 16 ≤ 16 by omega))),
      fget_fset_same (show 0 + 16 ≤ 32 by omega)]
    exact Nat.mod_mod _ _
  · rw [setCalOk, fget_fset_same (show 16 + 2 ≤ 32 by omega)]
    exact Nat.mod_eq_of_lt hlt

theorem setCalOk_keeps (q : Nat) (ok : BitVec 18) (m : Mach) :
    regsKept [QUAD_RX_CAL_STATUS q] m (setCalOk q ok m) ∧ storesKept m (setCalOk q ok m) :=
  ⟨(regsKept_fset (QUAD_RX_CAL_STATUS.path_ok q) _ m).trans (regsKept_fset (QUAD_RX_CAL_STATUS.obs_ok q) _ _), rfl, rfl, rfl, rfl⟩

/-! ### The copy to the store -/

/-- The registers that the copy to the store changes. -/
def storeRegsChanged : List Nat := [CAL_EVENTS, HLT_LOG_WPTR, HLT_EVENTS]

/-- R122: the copy to the store leaves the registers, the reservoir and the tiles. -/
theorem saveFacts_keeps (q : Nat) (m : Mach) : regsKept storeRegsChanged m (saveFacts q m) ∧
    (saveFacts q m).res = m.res ∧ (saveFacts q m).tiles = m.tiles := by
  have hstore : ∀ l, regsKept storeRegsChanged m (storeRegs l m) ∧ (storeRegs l m).res = m.res ∧
      (storeRegs l m).tiles = m.tiles := by
    intro l
    unfold storeRegs
    split_ifs
    · exact ⟨fun _ _ => rfl, rfl, rfl⟩
    · exact ⟨regsKept_setEv CAL_EVENTS.store_fail m, res_setEv _ _, tiles_setEv _ _⟩
    · exact ⟨.refl _ m, rfl, rfl⟩
    · exact ⟨fun _ _ => rfl, rfl, rfl⟩
  unfold saveFacts
  split_ifs
  · exact hstore _
  · exact ⟨.refl _ m, rfl, rfl⟩

end Sys2Proof.Machine

/-! SUPPORT. The factors that a self-calibration writes (R118, R121), and the statement about calibration and restore. -/

namespace Sys2Proof.Machine

/-! ### The factor registers -/

/-- The factor registers of unit `u`. -/
def factRegs (u : RxUnit) : List Nat := (List.range 42).map (factAddr u)

theorem factAddr_eq (u : RxUnit) (w : Nat) : factAddr u w = rxBase u + (0x100 + 4 * w) := by
  rw [factAddr, Nat.add_assoc]

theorem factTemp_eq (u : RxUnit) : QUAD_RX_FACT_TEMP u = factAddr u 40 := (factAddr_eq u 40).symm

theorem factChk_eq (u : RxUnit) : QUAD_RX_FACT_CHK u = factAddr u 41 := (factAddr_eq u 41).symm

theorem factAddr_mem {w : Nat} (h : w < 42) (u : RxUnit) : [factAddr u w] ⊆ factRegs u :=
  List.cons_subset.2 ⟨List.mem_map_of_mem (List.mem_range.2 h), List.nil_subset _⟩

theorem factAddr_off_factRegs {u v : RxUnit} (h : v ≠ u) {w : Nat} (hw : w < 42) : factAddr v w ∉ factRegs u := by
  intro hmem
  obtain ⟨w', hw', heq⟩ := List.mem_map.1 hmem
  have hlt := List.mem_range.1 hw'
  rw [factAddr_eq, factAddr_eq] at heq
  exact rxBase_apart (Ne.symm h) (by omega) (by omega) heq

theorem factAddr_off_endRegs (u : RxUnit) {w : Nat} (h : w < 42) (q : Nat) : factAddr u w ∉ endRegs q := by
  rw [factAddr_eq]
  obtain ⟨hstatus, hevents, hup⟩ := rxBase_off u (show 0x100 + 4 * w < 0x400 by omega) q
  simp only [endRegs, List.mem_append, List.mem_cons, not_or]
  refine ⟨⟨hstatus, hevents, hup⟩, off_unitStatusRegs fun v => ?_⟩
  by_cases huv : u = v
  · rw [huv, QUAD_RX_STATUS]
    omega
  · exact rxBase_apart huv (by omega) (by decide)

/-- No register of a quadrant is one that the copy to the store changes. -/
theorem off_storeRegsChanged {a : Nat} (h : 0x100 ≤ a % 0x100000 ∨ a < 0x900000 ∧ 0x1000 ≤ a) : a ∉ storeRegsChanged := by
  simp only [storeRegsChanged, List.mem_cons, List.not_mem_nil, or_false, not_or, CAL_EVENTS, HLT_LOG_WPTR, HLT_EVENTS]
  omega

theorem rxBase_off_store (u : RxUnit) {a : Nat} (ha : a < 0x400) : rxBase u + a ∉ storeRegsChanged := by
  have hplace := rxBase_place u
  exact off_storeRegsChanged (.inr (by omega))

theorem calStatus_off_store (q : Nat) : QUAD_RX_CAL_STATUS q ∉ storeRegsChanged :=
  off_storeRegsChanged (.inl (by rw [QUAD_RX_CAL_STATUS, quadBase]; omega))

theorem calEvents_off_store (q : Nat) : QUAD_RX_CAL_EVENTS q ∉ storeRegsChanged :=
  off_storeRegsChanged (.inl (by rw [QUAD_RX_CAL_EVENTS, quadBase]; omega))

/-! ### What a self-calibration writes -/

/-- The words of a list, each written to the factor register of its index, read back masked. -/
theorem rd_factsWritten (u : RxUnit) (l : List W) (k : W) (m : Mach) {w : Nat} (hw : w < l.length) :
    rd (factAddr u w) (each l.zipIdx (fun p s => wr (factAddr u p.2) (p.1 &&& k) s) m) = l.getD w 0#32 &&& k := by
  have hall := each_own (P := fun p s => rd (factAddr u p.2) s = p.1 &&& k)
    (f := fun (p : W × Nat) s => wr (factAddr u p.2) (p.1 &&& k) s) (l := l.zipIdx) (fun p _ s => rd_wr_same _ _ s)
    (fun a ha b hb hba s hP => ?_) m
  · have hmem : (l[w], w) ∈ l.zipIdx := List.mem_zipIdx_iff_getElem?.2 (List.getElem?_eq_getElem hw)
    rw [List.getD_eq_getElem _ _ hw]
    exact hall _ hmem
  · have hindex : b.2 ≠ a.2 := fun h => hba (Prod.ext (Option.some.inj
      ((List.mem_zipIdx_iff_getElem?.1 hb).symm.trans (h ▸ List.mem_zipIdx_iff_getElem?.1 ha))) h)
    rw [rd_wr_other (by simp only [factAddr]; omega)]
    exact hP

theorem writeFacts_keeps (u : RxUnit) (c : UnitCal) (m : Mach) :
    regsKept (factRegs u) m (writeFacts u c m) ∧ storesKept m (writeFacts u c m) := by
  have hwr : ∀ w < 42, ∀ v s, regsKept (factRegs u) s (wr (factAddr u w) v s) := fun w hw v s =>
    (regsKept_wr _ v s).mono (factAddr_mem hw u)
  have hfacts : ∀ s, regsKept (factRegs u) s
      (each ((c.facts.take 40).zipIdx) (fun p s => wr (factAddr u p.2) (p.1 &&& factMask 0) s) s) := fun s =>
    regsKept_each (fun p hp t => hwr p.2 (by
      have hlt := List.snd_lt_of_mem_zipIdx hp
      rw [List.length_take] at hlt
      omega) _ t) s
  have hwords : ∀ t s, storesKept t s → ∀ v v', storesKept t (applyFacts u (wr (factAddr u 41) v (wr (factAddr u 40) v' s))) :=
    fun _ _ h _ _ => h
  have happly : ∀ s, regsKept (factRegs u) s (applyFacts u s) := fun _ _ _ => rfl
  rw [writeFacts, factTemp_eq, factChk_eq]
  constructor
  · exact (((hfacts m).trans (hwr 40 (by omega) _ _)).trans (hwr 41 (by omega) _ _)).trans (happly _)
  · exact hwords _ _ (storesKept_each (f := fun (p : W × Nat) s => wr (factAddr u p.2) (p.1 &&& factMask 0) s)
      (fun _ _ => ⟨rfl, rfl, rfl, rfl⟩) m) _ _

theorem rd_writeFacts (u : RxUnit) {c : UnitCal} (hc : c.facts.length = 40) (m : Mach) {w : Nat} (hw : w < 40) :
    rd (factAddr u w) (writeFacts u c m) = c.facts.getD w 0#32 &&& 0xFFFF#32 := by
  have hne : ∀ w', 40 ≤ w' → factAddr u w ≠ factAddr u w' := fun w' hw' => by simp only [factAddr]; omega
  have htake : c.facts.take 40 = c.facts := List.take_of_length_le hc.le
  have happly : ∀ s, rd (factAddr u w) (applyFacts u s) = rd (factAddr u w) s := fun _ => rfl
  rw [writeFacts, factTemp_eq, factChk_eq, happly, rd_wr_other (hne 41 (by omega)), rd_wr_other (hne 40 (by omega)), htake,
    rd_factsWritten u _ _ m (hc ▸ hw)]
  rfl

/-- Every unit has its own factors. -/
theorem rd_allFacts {us : List (RxUnit × UnitCal)} (hunits : (us.map Prod.fst).Nodup) (hlen : ∀ p ∈ us, p.2.facts.length = 40)
    (m : Mach) : ∀ p ∈ us, ∀ w < 40,
      rd (factAddr p.1 w) (each us (fun p s => writeFacts p.1 p.2 s) m) = p.2.facts.getD w 0#32 &&& 0xFFFF#32 := by
  refine each_own (P := fun p s => ∀ w < 40, rd (factAddr p.1 w) s = p.2.facts.getD w 0#32 &&& 0xFFFF#32)
    (f := fun (p : RxUnit × UnitCal) s => writeFacts p.1 p.2 s) (fun p hp s w hw => rd_writeFacts p.1 (hlen p hp) s hw)
    (fun a ha b hb hba s hP w hw => ?_) m
  have hne : b.1 ≠ a.1 := fun h => hba (List.inj_on_of_nodup_map hunits hb ha h)
  exact ((writeFacts_keeps a.1 a.2 s).1 _ (factAddr_off_factRegs hne (by omega))).trans (hP w hw)

/-- With no slice out of range every unit's bit is set. -/
theorem sum_okBits {us : List (RxUnit × UnitCal)} (hlen : us.length = 18) (hbad : ∀ p ∈ us, p.2.bad = 0#5) :
    (us.zipIdx.map fun p => if p.1.2.bad == 0#5 then 2 ^ p.2 else 0).sum = 2 ^ 18 - 1 := by
  have hbits : (us.zipIdx.map fun p => if p.1.2.bad == 0#5 then 2 ^ p.2 else 0) = (us.zipIdx.map Prod.snd).map (2 ^ ·) := by
    rw [List.map_map]
    exact List.map_congr_left fun p hp => by simp [hbad p.1 (List.fst_mem_of_mem_zipIdx hp)]
  rw [hbits, List.zipIdx_map_snd, hlen]
  decide

theorem unitCals {res : List UnitCal} (h : unitCalsOk res = true) : res.length = 18 ∧ ∀ c ∈ res, c.facts.length = 40 := by
  simpa [unitCalsOk] using h

/-- R118: a self-calibration in which no unit failed. -/
theorem selfcalDone_good {q : Nat} {res : List UnitCal} {m : Mach} (hbusy : fon (QUAD_RX_CAL_STATUS.busy q) m = true)
    (hfull : fon (QUAD_RX_CAL_STATUS.restoring q) m = false) (hlen : res.length = 18) (hbad : ∀ c ∈ res, c.bad = 0#5) :
    selfcalDone q res m = saveFacts q (calOver q false (setCalOk q (BitVec.allOnes 18)
      (each ((unitsOf q).zip res) (fun p s => writeFacts p.1 p.2 s) m))) := by
  have hbads : ∀ p ∈ (unitsOf q).zip res, p.2.bad = 0#5 := fun p hp => hbad _ (List.of_mem_zip hp).2
  have hus : ((unitsOf q).zip res).length = 18 := by rw [List.length_zip, length_unitsOf, hlen, Nat.min_self]
  have hnone : ∀ u, each ((unitsOf q).zip res)
      (fun p s => each ((List.range 5).filter fun b => p.2.bad.getLsbD b) (calBadSlice p.1) s) u = u := fun u =>
    each_fixed fun p hp => by rw [hbads p hp]; rfl
  rw [selfcalDone, hbusy, hfull, if_pos (by decide)]
  dsimp only
  rw [hnone, sum_okBits hus hbads]
  rfl

/-! ### Commands -/

theorem rxCal_idle {q : Nat} {m : Mach} (hidle : quadState q m = 1) (hbusy : fon (QUAD_RX_CAL_STATUS.busy q) m = false)
    (restore : Bool) : rxCal q restore m = if restore then startRestore q m else startFull q m :=
  if_pos ⟨hidle, hbusy⟩

theorem rxCal_refused {q : Nat} {m : Mach} (h : quadState q m ≠ 1 ∨ fon (QUAD_RX_CAL_STATUS.busy q) m = true) (restore : Bool) :
    rxCal q restore m = setEv (QUAD_RX_CAL_EVENTS.cal_refused q) m :=
  if_neg fun ⟨hidle, hbusy⟩ => h.elim (· hidle) fun hb => by simp [hb] at hbusy

theorem rxCalCmd_refused {v : W} (h : wfld v 16 16 ≠ 0x5C1A ∨ wfld v 0 2 = 3) (q : Nat) (m : Mach) :
    rxCalCmd q v m = setEv (QUAD_RX_CAL_EVENTS.cal_refused q) m := by
  by_cases hkey : wfld v 16 16 ≠ 0x5C1A
  · exact if_pos hkey
  · simp [rxCalCmd, h.resolve_left hkey]

theorem exec_rxCalFull {s : State} {q : Fin 4} (h : reach (QUAD_RX_CAL_CMD q) s.m = true) :
    exec (.rxCalFull q) s = .next (s.withM (rxCal q false s.m)) := by
  change answer s (gate (QUAD_RX_CAL_CMD q) (rxCal q false) s.m) = _
  rw [gate_reach h]
  rfl

theorem exec_rxCalRestore {s : State} {q : Fin 4} (h : reach (QUAD_RX_CAL_CMD q) s.m = true) :
    exec (.rxCalRestore q) s = .next (s.withM (rxCal q true s.m)) := by
  change answer s (gate (QUAD_RX_CAL_CMD q) (rxCal q true) s.m) = _
  rw [gate_reach h]
  rfl

theorem exec_rxCalCmdInvalid {s : State} {q : Fin 4} (h : reach (QUAD_RX_CAL_CMD q) s.m = true) (v : W) :
    exec (.rxCalCmdInvalid q v) s = .next (s.withM (rxCalCmd q v s.m)) := by
  change answer s (gate (QUAD_RX_CAL_CMD q) (rxCalCmd q v) s.m) = _
  rw [gate_reach h]
  rfl

theorem exec_rxSelfcalDone {res : List UnitCal} (h : unitCalsOk res = true) (q : Fin 4) (s : State) :
    exec (.rxSelfcalDone q res) s = .next (s.withM (selfcalDone q res s.m)) := by
  change answerIf (unitCalsOk res) s _ = _
  rw [h]
  rfl

theorem exec_restoreVerifyDone {s : State} {q : Fin 4} (hbusy : fon (QUAD_RX_CAL_STATUS.busy q) s.m = true)
    (hrestoring : fon (QUAD_RX_CAL_STATUS.restoring q) s.m = true) (ok : BitVec 18) : exec (.restoreVerifyDone q ok) s =
      .next (s.withM (if ok = BitVec.allOnes 18 then saveFacts q (calOver q true (setCalOk q ok s.m))
        else startFull q (setEv (QUAD_RX_CAL_EVENTS.restore_fail q) s.m))) := by
  change answer s (restoreVerify q ok s.m) = _
  rw [restoreVerify, hbusy, hrestoring, if_pos (by decide)]
  rfl

end Sys2Proof.Machine

/-! SUPPORT. The statement about calibration and restore, from the facts about their starts and ends. -/

namespace Sys2Proof.Machine

/-! ### The commands (R117, R119) -/

theorem exec_rxCalFull_idle {s : State} {q : Fin 4} (hreach : reach (QUAD_RX_CAL_CMD q) s.m = true) (hidle : quadState q s.m = 1)
    (hbusy : fon (QUAD_RX_CAL_STATUS.busy q) s.m = false) : exec (.rxCalFull q) s = .next (s.withM (startFull q s.m)) := by
  rw [exec_rxCalFull hreach, rxCal_idle hidle hbusy, if_neg Bool.false_ne_true]

theorem exec_rxCalRestore_idle {s : State} {q : Fin 4} (hreach : reach (QUAD_RX_CAL_CMD q) s.m = true)
    (hidle : quadState q s.m = 1) (hbusy : fon (QUAD_RX_CAL_STATUS.busy q) s.m = false) :
    exec (.rxCalRestore q) s = .next (s.withM (startRestore q s.m)) := by
  rw [exec_rxCalRestore hreach, rxCal_idle hidle hbusy, if_pos rfl]

theorem regsKept_startRestore {q : Nat} {m : Mach} (h : ∀ u ∈ unitsOf q, factCrc u m = rd (QUAD_RX_FACT_CHK u) m) :
    regsKept (startRegs q) m (startRestore q m) ∧ storesKept m (startRestore q m) := by
  obtain ⟨hregs, hstores⟩ := applyFacts_keeps (unitsOf q) m (startRegs q)
  have hstart := (calStarted_calRuns q true (each (unitsOf q) applyFacts m)).phaseCal .restoring
  rw [startRestore_right h]
  exact ⟨hregs.trans hstart.regs, hstores.trans hstart.stores⟩

/-- R119: with every check word right each unit's factors are those of its registers. -/
theorem facts_startRestore {q : Nat} {m : Mach} (h : ∀ u ∈ unitsOf q, factCrc u m = rd (QUAD_RX_FACT_CHK u) m) :
    ∀ u ∈ unitsOf q, (getRx (rxKey u) (startRestore q m)).facts = (factWords u m).take 40 := by
  intro u hu
  have hstart := (calStarted_calRuns q true (each (unitsOf q) applyFacts m)).phaseCal .restoring
  rw [startRestore_right h, getRx, hstart.rx, ← getRx]
  exact facts_applied (unitsOf q) m u hu

/-- R119: a wrong check word is reported, and a self-calibration runs. -/
theorem startRestore_reports {q : Nat} {m : Mach} {u : RxUnit} (hu : u ∈ unitsOf q)
    (h : factCrc u m ≠ rd (QUAD_RX_FACT_CHK u) m) : fon (QUAD_RX_EVENTS.fact_err u) (startRestore q m) = true ∧
      fon (QUAD_RX_CAL_STATUS.busy q) (startRestore q m) = true ∧
      fon (QUAD_RX_CAL_STATUS.restoring q) (startRestore q m) = false ∧ storesKept m (startRestore q m) := by
  have hwrong : u ∈ wrongUnits q m := List.mem_filter.2 ⟨hu, by simpa using h⟩
  have hstart := calStarted_startFull q (each (wrongUnits q m) (fun u s => setEv (QUAD_RX_EVENTS.fact_err u) s) m)
  have hoff : QUAD_RX_EVENTS u ∉ startRegs q := by
    obtain ⟨hstatus, -, hup⟩ := rxBase_off u (show 0x10 < 0x400 by decide) q
    simp only [upRegs, List.mem_cons, not_or] at hup
    simp only [startRegs, List.mem_cons, List.not_mem_nil, or_false, not_or]
    exact ⟨hstatus, hup.1⟩
  rw [startRestore_wrong hwrong]
  exact ⟨(hstart.regs.fon (f := QUAD_RX_EVENTS.fact_err u) hoff).trans (factErr_reported (wrongUnits q m) m u hwrong),
    hstart.busy, hstart.restoring, (storesKept_each (fun _ _ => storesKept_setEv _ _) m).trans hstart.stores⟩

/-! ### The ends (R118, R119) -/

/-- What tells of the end of a calibration or restore stays through the copy to the store. -/
theorem saved_calOver (q : Nat) (restored : Bool) (m : Mach) :
    CalEnded q restored m (calOver q restored m) ∧
      regsKept storeRegsChanged (calOver q restored m) (saveFacts q (calOver q restored m)) ∧
      (saveFacts q (calOver q restored m)).res = m.res ∧ (saveFacts q (calOver q restored m)).tiles = m.tiles := by
  have hended := calEnded_calOver q restored m
  obtain ⟨hregs, hres, htiles⟩ := saveFacts_keeps q (calOver q restored m)
  obtain ⟨hres', -, -, htiles'⟩ := hended.stores
  exact ⟨hended, hregs, hres.trans hres', htiles.trans htiles'⟩

/-- The factors that a self-calibration found are written, and every unit of quadrant `q` is OK. -/
def selfcalFound (q : Nat) (res : List UnitCal) (m : Mach) : Mach :=
  setCalOk q (BitVec.allOnes 18) (each ((unitsOf q).zip res) (fun p s => writeFacts p.1 p.2 s) m)

/-- R118: the machine at the end of a self-calibration in which no unit failed. -/
def selfcalEnd (q : Nat) (res : List UnitCal) (m : Mach) : Mach := saveFacts q (calOver q false (selfcalFound q res m))

theorem selfcalEnd_status (q : Nat) (res : List UnitCal) (m : Mach) :
    fon (QUAD_RX_CAL_STATUS.busy q) (selfcalEnd q res m) = false ∧
      fget (QUAD_RX_CAL_STATUS.path_ok q) (selfcalEnd q res m) = 0xFFFF ∧
      fget (QUAD_RX_CAL_STATUS.obs_ok q) (selfcalEnd q res m) = 3 ∧
      fon (QUAD_RX_CAL_EVENTS.cal_done q) (selfcalEnd q res m) = true := by
  obtain ⟨hended, hsaved, -, -⟩ := saved_calOver q false (selfcalFound q res m)
  obtain ⟨hpath, hobs⟩ := setCalOk_status q (BitVec.allOnes 18)
    (each ((unitsOf q).zip res) (fun p s => writeFacts p.1 p.2 s) m)
  have hstatus := calStatus_off_store q
  exact ⟨(hsaved.fon (f := QUAD_RX_CAL_STATUS.busy q) hstatus).trans hended.busy,
    (hsaved.fget (f := QUAD_RX_CAL_STATUS.path_ok q) hstatus).trans (hended.pathOk.trans hpath),
    (hsaved.fget (f := QUAD_RX_CAL_STATUS.obs_ok q) hstatus).trans (hended.obsOk.trans hobs),
    (hsaved.fon (f := QUAD_RX_CAL_EVENTS.cal_done q) (calEvents_off_store q)).trans hended.done⟩

theorem selfcalEnd_units {q : Fin 4} {res : List UnitCal} (hlen : res.length = 18) (hfacts : ∀ c ∈ res, c.facts.length = 40)
    (m : Mach) : ∀ p ∈ (unitsOf q).zip res, fon (QUAD_RX_STATUS.cal_valid p.1) (selfcalEnd q res m) = true ∧
      ∀ w < 40, rd (factAddr p.1 w) (selfcalEnd q res m) = p.2.facts.getD w 0#32 &&& 0xFFFF#32 := by
  intro p hp
  obtain ⟨hended, hsaved, -, -⟩ := saved_calOver q false (selfcalFound q res m)
  have hunits : (((unitsOf q).zip res).map Prod.fst).Nodup := by
    rw [List.map_fst_zip (by rw [length_unitsOf, hlen])]
    exact nodup_unitsOf q
  have hfact := rd_allFacts hunits (fun p hp => hfacts _ (List.of_mem_zip hp).2) m p hp
  refine ⟨(hsaved.fon (f := QUAD_RX_STATUS.cal_valid p.1) (rxBase_off_store p.1 (by decide))).trans
    (hended.units p.1 (List.of_mem_zip hp).1).2, fun w hw => ?_⟩
  have hstore : factAddr p.1 w ∉ storeRegsChanged := factAddr_eq p.1 w ▸ rxBase_off_store p.1 (by omega)
  have hend := factAddr_off_endRegs p.1 (show w < 42 by omega) q
  have hok : factAddr p.1 w ∉ [QUAD_RX_CAL_STATUS q] := fun h => hend (by
    rw [List.mem_singleton.1 h]
    exact List.mem_append_left _ List.mem_cons_self)
  exact (hsaved _ hstore).trans ((hended.regs _ hend).trans (((setCalOk_keeps q _ _).1 _ hok).trans (hfact w hw)))

theorem selfcalEnd_memory (q : Nat) (res : List UnitCal) (m : Mach) :
    (selfcalEnd q res m).res = m.res ∧ (selfcalEnd q res m).tiles = m.tiles := by
  obtain ⟨-, -, hres, htiles⟩ := saved_calOver q false (selfcalFound q res m)
  obtain ⟨hres', -, -, htiles'⟩ := (storesKept_each (l := (unitsOf q).zip res) (f := fun p s => writeFacts p.1 p.2 s)
    (fun p s => (writeFacts_keeps p.1 p.2 s).2) m).trans (setCalOk_keeps q (BitVec.allOnes 18) _).2
  exact ⟨hres.trans hres', htiles.trans htiles'⟩

/-- R119: the end of a restore in which every unit verified. -/
theorem restore_ends (q : Nat) (ok : BitVec 18) (m : Mach) :
    fon (QUAD_RX_CAL_STATUS.busy q) (saveFacts q (calOver q true (setCalOk q ok m))) = false ∧
      fon (QUAD_RX_CAL_EVENTS.cal_done q) (saveFacts q (calOver q true (setCalOk q ok m))) = true ∧
      (∀ u ∈ unitsOf q, fon (QUAD_RX_STATUS.restored u) (saveFacts q (calOver q true (setCalOk q ok m))) = true) ∧
      (saveFacts q (calOver q true (setCalOk q ok m))).res = m.res ∧
      (saveFacts q (calOver q true (setCalOk q ok m))).tiles = m.tiles := by
  obtain ⟨hended, hsaved, hres, htiles⟩ := saved_calOver q true (setCalOk q ok m)
  exact ⟨(hsaved.fon (f := QUAD_RX_CAL_STATUS.busy q) (calStatus_off_store q)).trans hended.busy,
    (hsaved.fon (f := QUAD_RX_CAL_EVENTS.cal_done q) (calEvents_off_store q)).trans hended.done,
    fun u hu => (hsaved.fon (f := QUAD_RX_STATUS.restored u) (rxBase_off_store u (by decide))).trans (hended.units u hu).1,
    hres, htiles⟩

/-- R119: a restore that does not verify is reported, and a self-calibration follows. -/
theorem restore_fails (q : Nat) (m : Mach) :
    fon (QUAD_RX_CAL_EVENTS.restore_fail q) (startFull q (setEv (QUAD_RX_CAL_EVENTS.restore_fail q) m)) = true ∧
      regsKept [QUAD_RX_CAL_STATUS q, QUAD_RX_CAL_EVENTS q, GCTL_QUAD_STATE, HLT_LOG_WPTR, HLT_EVENTS] m
        (startFull q (setEv (QUAD_RX_CAL_EVENTS.restore_fail q) m)) := by
  have hstart := calStarted_startFull q (setEv (QUAD_RX_CAL_EVENTS.restore_fail q) m)
  have hup := calEvents_off q
  simp only [upRegs, List.mem_cons, not_or] at hup
  obtain ⟨hstate, -, -, hwptr, hlog, -⟩ := hup
  have hoff : QUAD_RX_CAL_EVENTS q ∉ startRegs q := by
    simp only [startRegs, List.mem_cons, List.not_mem_nil, or_false, not_or]
    exact ⟨Ne.symm (calStatus_off q).1, hstate⟩
  exact ⟨(hstart.regs.fon (f := QUAD_RX_CAL_EVENTS.restore_fail q) hoff).trans
      (fon_setEv rfl (show 2 + 1 ≤ 32 by omega) hwptr hlog m),
    ((regsKept_setEv (QUAD_RX_CAL_EVENTS.restore_fail q) m).mono (by simp [QUAD_RX_CAL_EVENTS.restore_fail])).trans
      (hstart.regs.mono (by simp [startRegs]))⟩

/-! ### The statement -/

/-- Settles O36, from what the start of a calibration or restore leaves (`CalStarted`), what its end tells (`CalEnded`), and the
factor registers apart from both. -/
theorem receiveCalibrationRunsAndEnds : Obligations.ReceiveCalibrationRunsAndEnds := by
  unfold Obligations.ReceiveCalibrationRunsAndEnds
  intro s q
  refine ⟨fun hreach hidle hbusy => ⟨?_, fun hright => ?_, fun u hu hwrong => ?_⟩, fun hreach hrefused c hc => ?_,
    fun hreach v hv => ?_, fun hbusy hfull res hres hbad => ?_, fun hbusy hrestoring => ⟨?_, fun ok hok => ?_⟩⟩
  · have hstart := calStarted_startFull q s.m
    exact ⟨_, exec_rxCalFull_idle hreach hidle hbusy, hstart.busy, hstart.restoring, hstart.regs, hstart.stores⟩
  · have hstart := (calStarted_calRuns q true (each (unitsOf q) applyFacts s.m)).phaseCal .restoring
    rw [← startRestore_right hright] at hstart
    obtain ⟨hregs, hstores⟩ := regsKept_startRestore hright
    exact ⟨_, exec_rxCalRestore_idle hreach hidle hbusy, hstart.busy, hstart.restoring, facts_startRestore hright, hregs, hstores⟩
  · exact ⟨_, exec_rxCalRestore_idle hreach hidle hbusy, startRestore_reports hu hwrong⟩
  · simp only [List.mem_cons, List.not_mem_nil, or_false] at hc
    rcases hc with rfl | rfl
    · rw [exec_rxCalFull hreach, rxCal_refused hrefused]
    · rw [exec_rxCalRestore hreach, rxCal_refused hrefused]
  · rw [exec_rxCalCmdInvalid hreach, rxCalCmd_refused hv]
  · obtain ⟨hlen, hfacts⟩ := unitCals hres
    have hexec : exec (.rxSelfcalDone q res) s = .next (s.withM (selfcalEnd q res s.m)) := by
      rw [exec_rxSelfcalDone hres, selfcalDone_good hbusy hfull hlen hbad, ← selfcalFound, ← selfcalEnd]
    obtain ⟨hover, hpath, hobs, hdone⟩ := selfcalEnd_status q res s.m
    exact ⟨_, hexec, hover, hpath, hobs, hdone, selfcalEnd_units hlen hfacts s.m, selfcalEnd_memory q res s.m⟩
  · exact ⟨_, (exec_restoreVerifyDone hbusy hrestoring _).trans (by rw [if_pos rfl]), restore_ends q _ s.m⟩
  · have hstart := calStarted_startFull q (setEv (QUAD_RX_CAL_EVENTS.restore_fail q) s.m)
    obtain ⟨hfail, hregs⟩ := restore_fails q s.m
    exact ⟨_, (exec_restoreVerifyDone hbusy hrestoring ok).trans (by rw [if_neg hok]), hstart.busy, hstart.restoring, hfail, hregs,
      (storesKept_setEv _ _).trans hstart.stores⟩

end Sys2Proof.Machine

/-! SUPPORT. The register writes of the conversion chains (R132, R133, R137, R139, R147, R148), and the statement about them. -/

namespace Sys2Proof.Machine

/-! ### Commands -/

/-- R495: a write of a register that the host reaches leaves what its effect leaves. -/
theorem answer_gate_reach {a : Nat} {s : State} (h : reach a s.m = true) (f : Mach → Mach) :
    answer s (gate a f s.m) = .next (s.withM (f s.m)) := by
  rw [gate_reach h]; rfl

theorem exec_ftwLoWrite {c : ChainId} {s : State} (h : reach (QUAD_DDC_FTW_LO c) s.m = true) (v : W) :
    exec (.ftwLoWrite c v) s = .next (s.withM (ftwLoWrite c v s.m)) := answer_gate_reach h (ftwLoWrite c v)

theorem exec_ftwHiWrite {c : ChainId} {s : State} (h : reach (QUAD_DDC_FTW_HI c) s.m = true) (v : W) :
    exec (.ftwHiWrite c v) s = .next (s.withM (ftwHiWrite c v s.m)) := answer_gate_reach h (ftwHiWrite c v)

theorem exec_ddcCfgWrite {n : Fin 64} {s : State} (h : reach (QUAD_DDC_CFG (.ddc n)) s.m = true) (v : W) :
    exec (.ddcCfgWrite n v) s = .next (s.withM (chainCfgWrite (.ddc n) v s.m)) := answer_gate_reach h (chainCfgWrite (.ddc n) v)

theorem exec_obsDdcCfgWrite {o : Fin 8} {s : State} (h : reach (QUAD_DDC_CFG (.obs o)) s.m = true) (v : W) :
    exec (.obsDdcCfgWrite o v) s = .next (s.withM (chainCfgWrite (.obs o) v s.m)) := answer_gate_reach h (chainCfgWrite (.obs o) v)

theorem exec_ducCfgWrite {n : Fin 64} {s : State} (h : reach (QUAD_DDC_CFG (.duc n)) s.m = true) (v : W) :
    exec (.ducCfgWrite n v) s = .next (s.withM (chainCfgWrite (.duc n) v s.m)) := answer_gate_reach h (chainCfgWrite (.duc n) v)

theorem exec_ddcShiftWrite {c : ChainId} {s : State} (h : reach (QUAD_DDC_SHIFT c) s.m = true) (v : W) :
    exec (.ddcShiftWrite c v) s = .next (s.withM (chainShiftWrite c v s.m)) := answer_gate_reach h (chainShiftWrite c v)

/-! ### Updates of a chain that its frequency pair passes through -/

/-- Of the device only the chains change, and the frequency pair of chain `c` does not: neither the one in force nor the staged one. -/
structure PairKept (c : ChainId) (m u : Mach) : Prop where
  frame : ∃ t, u = { m with chain := t }
  ftw : (getChain (chainKey c) u).ftw = (getChain (chainKey c) m).ftw
  staged : (getChain (chainKey c) u).ftwStage = (getChain (chainKey c) m).ftwStage

theorem PairKept.refl (c : ChainId) (m : Mach) : PairKept c m m := ⟨⟨m.chain, rfl⟩, rfl, rfl⟩

theorem PairKept.regs {c : ChainId} {m u : Mach} (h : PairKept c m u) : u.regs = m.regs := by
  obtain ⟨_, rfl⟩ := h.frame; rfl

theorem PairKept.rd {c : ChainId} {m u : Mach} (h : PairKept c m u) (a : Nat) : rd a u = rd a m := by
  rw [Machine.rd, h.regs, Machine.rd]

theorem PairKept.fon {c : ChainId} {m u : Mach} (h : PairKept c m u) (f : Fld) : fon f u = fon f m := by
  rw [Machine.fon, fget, h.rd, ← fget, ← Machine.fon]

theorem PairKept.stores {c : ChainId} {m u : Mach} (h : PairKept c m u) : storesKept m u := by
  obtain ⟨_, rfl⟩ := h.frame; exact .refl m

theorem pairKept_setChain {c : ChainId} {x : ChainSt} {m : Mach} (hftw : x.ftw = (getChain (chainKey c) m).ftw)
    (hstaged : x.ftwStage = (getChain (chainKey c) m).ftwStage) : PairKept c m (setChain (chainKey c) x m) where
  frame := ⟨_, rfl⟩
  ftw := by rw [getChain_setChain_same, hftw]
  staged := by rw [getChain_setChain_same, hstaged]

theorem pairKept_ncoNow (c : ChainId) (m : Mach) : PairKept c m (ncoNow c m) := by
  unfold ncoNow
  split
  · unfold ncoReach
    dsimp only
    split
    · exact pairKept_setChain rfl rfl
    · exact .refl c m
  · exact .refl c m

theorem pairKept_rephase (c : ChainId) (old : Nat) (m : Mach) : PairKept c m (rephase c old m) := pairKept_setChain rfl rfl

theorem pairKept_markNco (c : ChainId) (m : Mach) : PairKept c m (markNco c m) := by
  unfold markNco
  split
  · exact .refl c m
  · exact pairKept_setChain rfl rfl

@[simp] theorem getChain_setEv (k : Nat) (f : Fld) (m : Mach) : getChain k (setEv f m) = getChain k m := by
  obtain ⟨_, _, _, _, _, _, _, h⟩ := setEv_frame f m; rw [h]; rfl

@[simp] theorem getChain_wr (k a : Nat) (v : W) (m : Mach) : getChain k (wr a v m) = getChain k m := rfl

/-! ### The frequency pair (R132, R133) -/

/-- A chain's registers are none of the event log's. -/
theorem chainBase_off_log (c : ChainId) {a : Nat} (h : a < 0x400) :
    chainBase c + a ≠ HLT_LOG_WPTR ∧ chainBase c + a ≠ HLT_EVENTS := by
  cases c <;> simp only [chainBase, pathBase, obsBase, quadBase, HLT_LOG_WPTR, HLT_EVENTS] <;> omega

/-- The pair `f` of chain `c` came in force from machine `m`, with nothing staged any more. -/
structure PairInForce (c : ChainId) (f : Nat) (m u : Mach) : Prop where
  staged : (getChain (chainKey c) u).ftwStage = none
  ftw : (getChain (chainKey c) u).ftw = f
  high : rd (QUAD_DDC_FTW_HI c) u = BitVec.ofNat 32 (f / 2 ^ 32)
  applied : fon (QUAD_DDC_EVENTS.nco_applied c) u = true
  regs : regsKept [QUAD_DDC_FTW_HI c, QUAD_DDC_EVENTS c, HLT_LOG_WPTR, HLT_EVENTS] m u
  stores : storesKept m u

theorem PairInForce.pairKept {c : ChainId} {f : Nat} {m u w : Mach} (h : PairInForce c f m u) (hw : PairKept c u w) :
    PairInForce c f m w where
  staged := hw.staged.trans h.staged
  ftw := hw.ftw.trans h.ftw
  high := (hw.rd _).trans h.high
  applied := (hw.fon _).trans h.applied
  regs := fun a ha => (hw.rd a).trans (h.regs a ha)
  stores := h.stores.trans hw.stores

/-- What changed no register and no store before the pair came in force may be left out. -/
theorem PairInForce.since {c : ChainId} {f : Nat} {m m' u : Mach} (h : PairInForce c f m' u) (hrd : ∀ a, rd a m' = rd a m)
    (hstores : storesKept m m') : PairInForce c f m u :=
  { h with
    regs := fun a ha => (h.regs a ha).trans (hrd a)
    stores := hstores.trans h.stores }

/-- The pair `f` is in force and shows in FTW_HI, before the event. -/
def pairLoaded (c : ChainId) (f : Nat) (m : Mach) : Mach :=
  wr (QUAD_DDC_FTW_HI c) (BitVec.ofNat 32 (f / 2 ^ 32))
    (setChain (chainKey c) { getChain (chainKey c) m with ftw := f, ftwStage := none } m)

theorem pairInForce_announced {c : ChainId} {f : Nat} {m u : Mach} (hu : PairKept c (pairLoaded c f m) u) :
    PairInForce c f m (setEv (QUAD_DDC_EVENTS.nco_applied c) u) := by
  obtain ⟨hwptr, hlog⟩ := chainBase_off_log c (show 0x1C < 0x400 by decide)
  obtain ⟨hwptr', hlog'⟩ := chainBase_off_log c (show 0x10 < 0x400 by decide)
  have hapart : QUAD_DDC_FTW_HI c ≠ QUAD_DDC_EVENTS c := by simp [QUAD_DDC_FTW_HI, QUAD_DDC_EVENTS]
  have hloaded : regsKept [QUAD_DDC_FTW_HI c] m u := fun a ha => (hu.rd a).trans (regsKept_wr _ _ _ a ha)
  exact {
    staged := by rw [getChain_setEv, hu.staged, pairLoaded, getChain_wr, getChain_setChain_same]
    ftw := by rw [getChain_setEv, hu.ftw, pairLoaded, getChain_wr, getChain_setChain_same]
    high := by
      rw [rd_setEv (f := QUAD_DDC_EVENTS.nco_applied c) hapart hwptr' hlog', hu.rd, pairLoaded, rd_wr_same]
    applied := fon_setEv rfl (show 3 + 1 ≤ 32 by decide) hwptr hlog u
    regs := (hloaded.mono (by simp)).trans ((regsKept_setEv _ u).mono (by simp [QUAD_DDC_EVENTS.nco_applied]))
    stores := hu.stores.trans (storesKept_setEv _ u) }

/-- A staged pair that applies is in force. -/
theorem pairInForce_applyFtw {c : ChainId} {f : Nat} {m : Mach} (h : (getChain (chainKey c) m).ftwStage = some f) :
    PairInForce c f m (applyFtw c m) := by
  have hnow := pairKept_ncoNow c m
  have hannounced := (pairInForce_announced
    (pairKept_rephase c (phaseBits c (ncoNow c m)) (pairLoaded c f (ncoNow c m)))).since hnow.rd hnow.stores
  unfold applyFtw
  simp only [hnow.staged.trans h]
  split
  · exact hannounced
  · exact hannounced.pairKept (pairKept_markNco c _)

/-- R132: the pair that a write of the high half stages. -/
def writtenPair (c : ChainId) (v : W) (m : Mach) : Nat := v.toNat % 65536 * 2 ^ 32 + (rd (QUAD_DDC_FTW_LO c) m).toNat

/-- R132: chain `c` with the pair staged. -/
def pairStaged (c : ChainId) (f : Nat) (m : Mach) : Mach :=
  setChain (chainKey c) { getChain (chainKey c) m with ftwStage := some f } m

theorem ftwHiWrite_running {c : ChainId} {m : Mach} (h : quadStopped (chainQuad c) m = false) (v : W) :
    ftwHiWrite c v m = pairStaged c (writtenPair c v m) m := by
  rw [ftwHiWrite, h]; rfl

theorem ftwHiWrite_stopped {c : ChainId} {m : Mach} (h : quadStopped (chainQuad c) m = true) (v : W) :
    ftwHiWrite c v m = applyFtw c (pairStaged c (writtenPair c v m) m) := by
  rw [ftwHiWrite, h]; rfl

/-- The high half of the written pair is the low half of the word. -/
theorem high_writtenPair (c : ChainId) (v : W) (m : Mach) : BitVec.ofNat 32 (writtenPair c v m / 2 ^ 32) = v &&& 0xFFFF#32 := by
  have hlow : (rd (QUAD_DDC_FTW_LO c) m).toNat < 2 ^ 32 := (rd (QUAD_DDC_FTW_LO c) m).isLt
  have hhigh : writtenPair c v m / 2 ^ 32 = v.toNat % 65536 := by unfold writtenPair; omega
  rw [hhigh, ← toNat_and_ffff, BitVec.ofNat_toNat, BitVec.setWidth_eq]

/-- R23, R132: with the timing stopped the written pair is in force at once. -/
theorem pairInForce_ftwHiWrite {c : ChainId} {m : Mach} (h : quadStopped (chainQuad c) m = true) (v : W) :
    PairInForce c (writtenPair c v m) m (ftwHiWrite c v m) := by
  rw [ftwHiWrite_stopped h]
  have hstaged : (getChain (chainKey c) (pairStaged c (writtenPair c v m) m)).ftwStage = some (writtenPair c v m) := by
    rw [pairStaged, getChain_setChain_same]
  exact (pairInForce_applyFtw hstaged).since (fun _ => rfl) (.refl m)

theorem storesKept_ftwHiWrite (c : ChainId) (v : W) (m : Mach) : storesKept m (ftwHiWrite c v m) := by
  cases h : quadStopped (chainQuad c) m with
  | false => rw [ftwHiWrite_running h]; exact .refl m
  | true => exact (pairInForce_ftwHiWrite h v).stores

/-! ### Configuration and shift writes (R137, R139, R147, R148) -/

theorem stageChain_running {c : ChainId} {m : Mach} (h : quadStopped (chainQuad c) m = false) (a : Nat) (v : W)
    (apply : W → Mach → Mach) : stageChain c a v apply m = setStage a (some v) m := if_neg (by simp [h])

/-- The stage count that a configuration write names. -/
def cfgStages (c : ChainId) (v : W) : Nat := if chainIsTx c then v.toNat % 8 else v.toNat % 16

/-- The bits of a configuration register that are defined. -/
def cfgMask (c : ChainId) : W := if chainIsTx c then 0x37#32 else 0x3F#32

theorem nstagesOk_ddc (n : Fin 64) (v : W) :
    nstagesOk (.ddc n) (cfgStages (.ddc n) v) = true ↔ 1 ≤ v.toNat % 16 ∧ v.toNat % 16 ≤ 8 := decide_eq_true_iff

theorem nstagesOk_obs (o : Fin 8) (v : W) :
    nstagesOk (.obs o) (cfgStages (.obs o) v) = true ↔ 1 ≤ v.toNat % 16 ∧ v.toNat % 16 ≤ 3 := decide_eq_true_iff

/-- R148: of the counts that three bits can hold only 7 is none of an interpolation chain's. -/
theorem nstagesOk_duc (n : Fin 64) (v : W) : nstagesOk (.duc n) (cfgStages (.duc n) v) = true ↔ v.toNat % 8 ≠ 7 :=
  decide_eq_true_iff.trans (show v.toNat % 8 ≤ 6 ↔ v.toNat % 8 ≠ 7 by omega)

theorem chainCfgWrite_refused {c : ChainId} {v : W} {m : Mach}
    (h : ¬ nstagesOk c (cfgStages c v) = true ∨ 2 ≤ quadState (chainQuad c) m ∧ cfgStages c v ≠ nstages c m) :
    chainCfgWrite c v m = setEv (QUAD_DDC_EVENTS.chain_err c) m := by
  refine if_pos (Bool.or_eq_true_iff.2 (h.imp (fun hbad => ?_) decide_eq_true))
  rw [← cfgStages, Bool.eq_false_iff.2 hbad]; rfl

theorem chainCfgWrite_staged {c : ChainId} {v : W} {m : Mach} (hok : nstagesOk c (cfgStages c v) = true)
    (hsame : quadState (chainQuad c) m < 2 ∨ cfgStages c v = nstages c m) (hrun : quadStopped (chainQuad c) m = false) :
    chainCfgWrite c v m = setStage (QUAD_DDC_CFG c) (some (v &&& cfgMask c)) m := by
  have hchange : ¬ (2 ≤ quadState (chainQuad c) m ∧ cfgStages c v ≠ nstages c m) :=
    fun ⟨hup, hne⟩ => hsame.elim (Nat.not_lt.2 hup) hne
  have htaken : chainCfgWrite c v m = stageChain c (QUAD_DDC_CFG c) (v &&& cfgMask c) (applyChainCfg c) m :=
    if_neg (by rw [← cfgStages, hok, decide_eq_false hchange]; decide)
  rw [htaken, stageChain_running hrun]

theorem shiftBad_iff (v : W) : shiftBad v = true ↔ ∃ k < 8, wfld v (3 * k) 3 ∈ [3, 4, 5] := by
  simp [shiftBad, or_assoc]

theorem chainShiftWrite_refused {v : W} (h : ∃ k < 8, wfld v (3 * k) 3 ∈ [3, 4, 5]) (c : ChainId) (m : Mach) :
    chainShiftWrite c v m = setEv (QUAD_DDC_EVENTS.chain_err c) m := if_pos ((shiftBad_iff v).2 h)

theorem chainShiftWrite_staged {c : ChainId} {v : W} {m : Mach} (h : ∀ k < 8, wfld v (3 * k) 3 ∉ [3, 4, 5])
    (hrun : quadStopped (chainQuad c) m = false) :
    chainShiftWrite c v m = setStage (QUAD_DDC_SHIFT c) (some (v &&& 0xFFFFFF#32)) m := by
  have hgood : ¬ shiftBad v = true := fun hbad =>
    have ⟨k, hk, hcode⟩ := (shiftBad_iff v).1 hbad
    h k hk hcode
  rw [chainShiftWrite, if_neg hgood, stageChain_running hrun]

/-! ### The statement -/

/-- Settles O35: the pair goes through its shadow (`PairInForce`), and a configuration or shift write is refused whole or staged. -/
theorem chainWritesAreTakenOrRefusedWhole : Obligations.ChainWritesAreTakenOrRefusedWhole := by
  unfold Obligations.ChainWritesAreTakenOrRefusedWhole
  intro s v
  refine ⟨fun c hreach => exec_ftwLoWrite hreach v, fun c hreach => ?_, fun n hreach => ?_, fun o hreach => ?_, fun n hreach => ?_,
    fun c hreach => ?_⟩
  · refine ⟨_, exec_ftwHiWrite hreach v, storesKept_ftwHiWrite c v s.m, fun hrun => ?_, fun hstopped => ?_⟩
    · rw [ftwHiWrite_running hrun, pairStaged, getChain_setChain_same]
      exact ⟨rfl, rfl, rfl⟩
    · have hforce := pairInForce_ftwHiWrite hstopped v
      exact ⟨hforce.staged, hforce.ftw, hforce.high.trans (high_writtenPair c v s.m), hforce.applied, hforce.regs⟩
  · rw [exec_ddcCfgWrite hreach, ← nstagesOk_ddc n v]
    refine ⟨fun hbad => ?_, fun hlo hhi hsame hrun => ?_⟩
    · rw [chainCfgWrite_refused hbad]
    · rw [chainCfgWrite_staged ((nstagesOk_ddc n v).2 ⟨hlo, hhi⟩) hsame hrun]; rfl
  · rw [exec_obsDdcCfgWrite hreach, ← nstagesOk_obs o v]
    refine ⟨fun hbad => ?_, fun hlo hhi hsame hrun => ?_⟩
    · rw [chainCfgWrite_refused hbad]
    · rw [chainCfgWrite_staged ((nstagesOk_obs o v).2 ⟨hlo, hhi⟩) hsame hrun]; rfl
  · rw [exec_ducCfgWrite hreach]
    refine ⟨fun hbad => ?_, fun hseven hsame hrun => ?_⟩
    · have hrefused : ¬ nstagesOk (.duc n) (cfgStages (.duc n) v) = true ∨
          2 ≤ quadState (chainQuad (.duc n)) s.m ∧ cfgStages (.duc n) v ≠ nstages (.duc n) s.m :=
        hbad.imp_left fun hseven hok => (nstagesOk_duc n v).1 hok hseven
      rw [chainCfgWrite_refused hrefused]
    · rw [chainCfgWrite_staged ((nstagesOk_duc n v).2 hseven) hsame hrun]; rfl
  · rw [exec_ddcShiftWrite hreach]
    exact ⟨fun hbad => by rw [chainShiftWrite_refused hbad], fun hgood hrun => by rw [chainShiftWrite_staged hgood hrun]⟩

end Sys2Proof.Machine

/-! SUPPORT. What a native message leaves of the device, and whose sequence number it carries (R370, R381). -/

namespace Sys2Proof.Machine

theorem sendNat_frame (k : Nat) (b : NatBody) (m : Mach) : ∃ x o, sendNat k b m = { m with sess := x, out := o } := by
  unfold sendNat
  split
  · exact ⟨_, _, rfl⟩
  · exact ⟨m.sess, m.out, rfl⟩

@[simp] theorem rd_sendNat (a k : Nat) (b : NatBody) (m : Mach) : rd a (sendNat k b m) = rd a m := by
  obtain ⟨_, _, h⟩ := sendNat_frame k b m; rw [h]; rfl

@[simp] theorem fget_sendNat (f : Fld) (k : Nat) (b : NatBody) (m : Mach) : fget f (sendNat k b m) = fget f m := by
  rw [fget, rd_sendNat, fget]

@[simp] theorem fon_sendNat (f : Fld) (k : Nat) (b : NatBody) (m : Mach) : fon f (sendNat k b m) = fon f m := by
  rw [fon, fget_sendNat, fon]

@[simp] theorem acq_sendNat (k : Nat) (b : NatBody) (m : Mach) : (sendNat k b m).acq = m.acq := by
  obtain ⟨_, _, h⟩ := sendNat_frame k b m; rw [h]

@[simp] theorem dirAt_sendNat (p k : Nat) (b : NatBody) (m : Mach) : dirAt p (sendNat k b m) = dirAt p m := by
  obtain ⟨_, _, h⟩ := sendNat_frame k b m; rw [h]; rfl

theorem storesKept_sendNat (k : Nat) (b : NatBody) (m : Mach) : storesKept m (sendNat k b m) := by
  obtain ⟨_, _, h⟩ := sendNat_frame k b m; rw [h]; exact .refl m

theorem out_sendNat {k : Nat} {m : Mach} (hbound : sessBound k m = true) (hport : sessPort k m = true) (b : NatBody) :
    (sendNat k b m).out = m.out ++ [.native k (getSess k m).txSeq b] := by
  rw [sendNat, hbound, hport]; rfl

/-- Session `k` stands in `u` as in `m`: its peer, its ports, the messages sent and the next sequence number. -/
structure SameSession (k : Nat) (m u : Mach) : Prop where
  sess : u.sess = m.sess
  out : u.out = m.out
  regs : ∀ a ∈ [EPL_SESS_MAC_LO k, EPL_SESS_MAC_HI k, EPL_SESS_CFG k, EPL_STATUS], rd a u = rd a m

theorem SameSession.bound {k : Nat} {m u : Mach} (h : SameSession k m u) : sessBound k u = sessBound k m := by
  rw [sessBound, h.regs _ (by simp), h.regs (EPL_SESS_MAC_HI k) (by simp), ← sessBound]

theorem SameSession.port {k : Nat} {m u : Mach} (h : SameSession k m u) : sessPort k u = sessPort k m := by
  have hmask : fget (EPL_SESS_CFG.mask k) u = fget (EPL_SESS_CFG.mask k) m := fget_of_rd (h.regs (EPL_SESS_CFG k) (by simp))
  have hbond : fget EPL_STATUS.bonded u = fget EPL_STATUS.bonded m := fget_of_rd (h.regs EPL_STATUS (by simp))
  rw [sessPort, hmask, hbond, ← sessPort]

/-- What the session is sent from `u` stands behind what `m` has sent. -/
theorem SameSession.answered {k : Nat} {m u : Mach} (h : SameSession k m u) (hbound : sessBound k m = true)
    (hport : sessPort k m = true) (b : NatBody) : answered k b m (sendNat k b u) := by
  rw [Machine.answered, out_sendNat (h.bound.trans hbound) (h.port.trans hport), h.out, getSess, h.sess, ← getSess]

/-- The sessions' registers stand in the link's block. -/
theorem regsKept.sameSession {l : List Nat} {m u : Mach} (h : regsKept l m u) (hl : ∀ a ∈ l, a < 0xB00000 ∨ 0xC00000 ≤ a)
    (hsess : u.sess = m.sess) (hout : u.out = m.out) (k : Fin 4) : SameSession k.val m u where
  sess := hsess
  out := hout
  regs a ha := by
    refine h a fun q => ?_
    have hout := hl a q
    simp only [List.mem_cons, List.not_mem_nil, or_false, EPL_SESS_MAC_LO, EPL_SESS_MAC_HI, EPL_SESS_CFG, EPL_STATUS] at ha
    omega

end Sys2Proof.Machine

/-! SUPPORT. The acquisition engine: the report of a slot (R201 to R204, R207), the end of a slot (R193, R202), and the statement about
them. -/

namespace Sys2Proof.Machine

/-! ### Sticky events set on a condition -/

theorem fon_setEvIf (b : Bool) {f : Fld} (hw : f.w = 1) (hlo : f.lo + f.w ≤ 32) (h1 : f.reg ≠ HLT_LOG_WPTR)
    (h2 : f.reg ≠ HLT_EVENTS) (m : Mach) : fon f (setEvIf b f m) = (b || fon f m) := by
  cases b
  · rfl
  · exact fon_setEv hw hlo h1 h2 m

theorem fon_setEvIf_other (b : Bool) {f g : Fld} (h : f.lo + f.w ≤ 32)
    (hd : g.reg ≠ f.reg ∨ f.lo + f.w ≤ g.lo ∨ g.lo + g.w ≤ f.lo) (h1 : g.reg ≠ HLT_LOG_WPTR) (h2 : g.reg ≠ HLT_EVENTS) (m : Mach) :
    fon g (setEvIf b f m) = fon g m := by
  cases b
  · rfl
  · rw [setEvIf_true, fon, fget_setEv_other h hd h1 h2, fon]

/-! ### The detections of a report (R201 to R204) -/

theorem numberDets_length (k : Nat) (l : List Det) : (numberDets k l).length = l.length := by
  induction l generalizing k with
  | nil => rfl
  | cons d l ih => simp [numberDets, ih]

/-- R204: identifier `i` of a report is `i` after the first, modulo 2^32. -/
theorem numberDets_id (l : List Det) (k i : Nat) (hi : i < l.length) :
    ((numberDets k l).map fun d => d.id)[i]? = some (if i = 0 then k else (k + i) % 2 ^ 32) := by
  induction l generalizing k i with
  | nil => exact absurd hi (Nat.not_lt_zero i)
  | cons d l ih =>
    cases i with
    | zero => rfl
    | succ i =>
      have hnext := ih ((k + 1) % 2 ^ 32) i (Nat.lt_of_succ_lt_succ hi)
      simp only [numberDets, List.map_cons, List.getElem?_cons_succ, hnext]
      cases i with
      | zero => rfl
      | succ i =>
        have hsum : ((k + 1) % 2 ^ 32 + (i + 1)) % 2 ^ 32 = (k + (i + 1 + 1)) % 2 ^ 32 := by omega
        simp only [Nat.add_eq_zero_iff, one_ne_zero, and_false, if_false, hsum]

/-- A job without windows finds nothing. -/
theorem jobReport_dets_nil {j : AcqJob} (h : j.wins = []) : (jobReport j).dets = [] := by
  simp [jobReport, h, keepDets, sortDets]

/-! ### The pieces of a report -/

/-- The detections that the report of a job carries, with their identifiers. -/
def jobDets (j : AcqJob) (m : Mach) : List Det := numberDets m.acq.nextId (jobReport j).dets

/-- The report of a job comes past its bound. -/
def jobLate (j : AcqJob) (m : Mach) : Bool := j.due.any fun t => decide (t < tick m)

/-- The slot is done: its detections stand in the history, the total and the next identifier. -/
def jobCounted (j : AcqJob) (m : Mach) : Mach :=
  wr ACQ_DET_TOTAL (rd ACQ_DET_TOTAL m + BitVec.ofNat 32 (jobDets j m).length)
    (fset ACQ_STATUS.busy 0 (fset ACQ_STATUS.ndet (jobDets j m).length
      { m with acq := { m.acq with job := none, hist := ((jobDets j m).reverse ++ m.acq.hist).take 16384,
                                   nextId := (m.acq.nextId + (jobDets j m).length) % 2 ^ 32 } }))

/-- The slot is done, and its events are set. -/
def jobNoted (j : AcqJob) (m : Mach) : Mach :=
  setEvIf (jobLate j m) ACQ_EVENTS.report_late
    (setEvIf (decide ((jobReport j).flags % 2 = 1)) ACQ_EVENTS.det_ovf (jobCounted j m))

/-- The report that a job sends. -/
def sentReport (j : AcqJob) (m : Mach) : SlotRep :=
  { jobReport j with dets := jobDets j m, flags := (jobReport j).flags + (if jobLate j m then 4 else 0) }

theorem endJob_eq (j : AcqJob) (m : Mach) : endJob j m = sendNat 0 (.slotReport (sentReport j m)) (jobNoted j m) := by
  unfold endJob sentReport jobNoted jobLate
  cases j.due <;> rfl

theorem jobLate_iff {j : AcqJob} {m : Mach} : jobLate j m = true ↔ ∃ x, j.due = some x ∧ x < tick m := by
  simp [jobLate, Option.any_eq_true]

/-! ### What a report leaves -/

/-- The registers that a report writes. -/
def reportRegs : List Nat := [ACQ_STATUS, ACQ_DET_TOTAL, ACQ_EVENTS, HLT_LOG_WPTR, HLT_EVENTS]

/-- The events touch the registers, the log and the pending EVENT. -/
theorem jobNoted_frame (j : AcqJob) (m : Mach) : ∃ r l q ms c p z, jobNoted j m =
    { jobCounted j m with regs := r, log := l, logSeq := q, logMs := ms, logCnt := c, evtPend := p, poison := z } := by
  obtain ⟨_, _, _, _, _, _, _, hovf⟩ :=
    setEvIf_frame (decide ((jobReport j).flags % 2 = 1)) ACQ_EVENTS.det_ovf (jobCounted j m)
  obtain ⟨_, _, _, _, _, _, _, hlate⟩ := setEvIf_frame (jobLate j m) ACQ_EVENTS.report_late
    (setEvIf (decide ((jobReport j).flags % 2 = 1)) ACQ_EVENTS.det_ovf (jobCounted j m))
  exact ⟨_, _, _, _, _, _, _, by rw [jobNoted, hlate, hovf]⟩

theorem acq_jobNoted (j : AcqJob) (m : Mach) : (jobNoted j m).acq = (jobCounted j m).acq := by
  obtain ⟨_, _, _, _, _, _, _, h⟩ := jobNoted_frame j m; rw [h]

/-- The events are registers of their own. -/
theorem regsKept_jobNoted_jobCounted (j : AcqJob) (m : Mach) :
    regsKept [ACQ_EVENTS, HLT_LOG_WPTR, HLT_EVENTS] (jobCounted j m) (jobNoted j m) :=
  (regsKept_setEvIf _ ACQ_EVENTS.det_ovf _).trans (regsKept_setEvIf _ ACQ_EVENTS.report_late _)

theorem regsKept_jobCounted (j : AcqJob) (m : Mach) : regsKept [ACQ_STATUS, ACQ_DET_TOTAL] m (jobCounted j m) := by
  intro a ha
  simp only [List.mem_cons, List.not_mem_nil, or_false, not_or] at ha
  rw [jobCounted, rd_wr_other ha.2, rd_fset_other (f := ACQ_STATUS.busy) ha.1, rd_fset_other (f := ACQ_STATUS.ndet) ha.1]
  rfl

theorem regsKept_jobNoted (j : AcqJob) (m : Mach) : regsKept reportRegs m (jobNoted j m) :=
  ((regsKept_jobCounted j m).mono (by decide)).trans ((regsKept_jobNoted_jobCounted j m).mono (by decide))

theorem regsKept_endJob (j : AcqJob) (m : Mach) : regsKept reportRegs m (endJob j m) := by
  intro a ha
  rw [endJob_eq, rd_sendNat, regsKept_jobNoted j m a ha]

theorem sameSession_jobNoted (j : AcqJob) (m : Mach) : SameSession 0 m (jobNoted j m) := by
  have hregs := regsKept_jobNoted j m
  obtain ⟨_, _, _, _, _, _, _, hframe⟩ := jobNoted_frame j m
  rw [hframe] at hregs ⊢
  exact hregs.sameSession (by decide) rfl rfl 0

theorem busy_jobNoted (j : AcqJob) (m : Mach) : fget ACQ_STATUS.busy (jobNoted j m) = 0 := by
  rw [(regsKept_jobNoted_jobCounted j m).fget (by decide), jobCounted, fget_of_rd (rd_wr_other (by decide) _ _),
    fget_fset_same (by decide)]
  rfl

theorem total_jobNoted (j : AcqJob) (m : Mach) :
    rd ACQ_DET_TOTAL (jobNoted j m) = rd ACQ_DET_TOTAL m + BitVec.ofNat 32 (jobDets j m).length := by
  rw [regsKept_jobNoted_jobCounted j m ACQ_DET_TOTAL (by decide), jobCounted, rd_wr_same]

/-- R202: report_late is set by a report past its bound, and stays where it was set. -/
theorem late_jobNoted (j : AcqJob) (m : Mach) :
    fon ACQ_EVENTS.report_late (jobNoted j m) = (jobLate j m || fon ACQ_EVENTS.report_late m) := by
  rw [jobNoted, fon_setEvIf _ rfl (by decide) (by decide) (by decide),
    fon_setEvIf_other _ (by decide) (.inr (.inl (by decide))) (by decide) (by decide),
    (regsKept_jobCounted j m).fon (by decide)]

theorem storesKept_endJob (j : AcqJob) (m : Mach) : storesKept m (endJob j m) := by
  have hnoted : storesKept m (jobNoted j m) := by
    obtain ⟨_, _, _, _, _, _, _, h⟩ := jobNoted_frame j m; rw [h]; exact .refl m
  rw [endJob_eq]
  exact hnoted.trans (storesKept_sendNat 0 _ _)

/-! ### The end of a slot (R193, R202) -/

/-- A report still open is closed. -/
def jobClosed (m : Mach) : Mach := m.acq.job.elim m fun j => endJob j m

theorem regsKept_jobClosed (m : Mach) : regsKept reportRegs m (jobClosed m) := by
  unfold jobClosed
  cases m.acq.job with
  | none => exact .refl _ m
  | some j => exact regsKept_endJob j m

theorem storesKept_jobClosed (m : Mach) : storesKept m (jobClosed m) := by
  unfold jobClosed
  cases m.acq.job with
  | none => exact .refl m
  | some j => exact storesKept_endJob j m

/-- Neither the time nor the place in the frame moves with a report. -/
theorem place_endJob (j : AcqJob) (m : Mach) : (endJob j m).slotStart = m.slotStart ∧ (endJob j m).frameNo = m.frameNo ∧
    (endJob j m).slot = m.slot ∧ (endJob j m).tod = m.tod := by
  obtain ⟨_, _, hsend⟩ := sendNat_frame 0 (.slotReport (sentReport j m)) (jobNoted j m)
  obtain ⟨_, _, _, _, _, _, _, hnoted⟩ := jobNoted_frame j m
  rw [endJob_eq, hsend, hnoted]
  exact ⟨rfl, rfl, rfl, rfl⟩

theorem place_jobClosed (m : Mach) : (jobClosed m).slotStart = m.slotStart ∧ (jobClosed m).frameNo = m.frameNo ∧
    (jobClosed m).slot = m.slot ∧ (jobClosed m).tod = m.tod := by
  unfold jobClosed
  cases m.acq.job with
  | none => exact ⟨rfl, rfl, rfl, rfl⟩
  | some j => exact place_endJob j m

/-- The job of the running slot is the one in process. -/
def jobTaken (m : Mach) : Mach := { m with acq := { m.acq with job := some (newJob m), done := some m.slotStart } }

/-- The job of the running slot is the one in process, and its events are set. -/
def windowsTaken (m : Mach) : Mach :=
  setEvIf (decide (2 ≤ (newJob m).flags % 4)) ACQ_EVENTS.win_trunc
    (setEvIf (decide (8 ≤ (newJob m).flags)) ACQ_EVENTS.cfg_err (jobTaken m))

theorem acqEnd_eq {m : Mach} (h : acqRuns m = true) : acqEnd m =
    fset ACQ_STATUS.formed (newJob (jobClosed m)).formed.length (fset ACQ_STATUS.busy 1 (windowsTaken (jobClosed m))) := by
  rw [acqEnd, if_pos h, jobClosed]
  cases m.acq.job <;> rfl

theorem windowsTaken_frame (m : Mach) : ∃ r l q ms c p z, windowsTaken m =
    { jobTaken m with regs := r, log := l, logSeq := q, logMs := ms, logCnt := c, evtPend := p, poison := z } := by
  obtain ⟨_, _, _, _, _, _, _, herr⟩ := setEvIf_frame (decide (8 ≤ (newJob m).flags)) ACQ_EVENTS.cfg_err (jobTaken m)
  obtain ⟨_, _, _, _, _, _, _, htrunc⟩ := setEvIf_frame (decide (2 ≤ (newJob m).flags % 4)) ACQ_EVENTS.win_trunc
    (setEvIf (decide (8 ≤ (newJob m).flags)) ACQ_EVENTS.cfg_err (jobTaken m))
  exact ⟨_, _, _, _, _, _, _, by rw [windowsTaken, htrunc, herr]⟩

/-- R193: with invalid settings no window is searched and cfg_err is set. -/
theorem windowsTaken_invalid {m : Mach} (h : acqOk m = false) :
    (newJob m).wins = [] ∧ fon ACQ_EVENTS.cfg_err (windowsTaken m) = true := by
  have hflags : (newJob m).flags = 8 := by simp [newJob, h]
  refine ⟨by simp [newJob, h], ?_⟩
  rw [windowsTaken, fon_setEvIf_other _ (by decide) (.inr (.inr (by decide))) (by decide) (by decide),
    fon_setEvIf _ rfl (by decide) (by decide) (by decide), hflags]
  rfl

theorem busy_acqEnd {m : Mach} (h : acqRuns m = true) : fget ACQ_STATUS.busy (acqEnd m) = 1 := by
  rw [acqEnd_eq h, fget_fset_other (by decide) (.inr (.inl (by decide))), fget_fset_same (by decide)]
  rfl

/-- What the end of a slot leaves beside its registers. -/
theorem acqEnd_hidden {m : Mach} (h : acqRuns m = true) :
    (acqEnd m).acq.job = some (newJob (jobClosed m)) ∧ (acqEnd m).acq.done = some m.slotStart ∧ (acqEnd m).tod = m.tod ∧
      storesKept m (acqEnd m) := by
  obtain ⟨hstart, -, -, htod⟩ := place_jobClosed m
  obtain ⟨_, _, _, _, _, _, _, hframe⟩ := windowsTaken_frame (jobClosed m)
  rw [acqEnd_eq h, hframe, ← hstart, ← htod]
  exact ⟨rfl, rfl, rfl, storesKept_jobClosed m⟩

theorem acqOk_of_regsKept {l : List Nat} {m u : Mach} (h : regsKept l m u) (hl : ACQ_CFG ∉ l) : acqOk u = acqOk m := by
  rw [acqOk, acqN, acqNcs, h.fget (f := ACQ_CFG.n) hl, h.fget (f := ACQ_CFG.ncs) hl, h.fget (f := ACQ_CFG.nroot) hl]
  rfl

theorem acqOk_jobClosed (m : Mach) : acqOk (jobClosed m) = acqOk m := acqOk_of_regsKept (regsKept_jobClosed m) (by decide)

theorem n_newJob_jobClosed (m : Mach) : (newJob (jobClosed m)).n = acqN m :=
  (regsKept_jobClosed m).fget (f := ACQ_CFG.n) (by decide)

theorem cfgErr_acqEnd {m : Mach} (h : acqRuns m = true) (hbad : acqOk m = false) :
    (newJob (jobClosed m)).wins = [] ∧ fon ACQ_EVENTS.cfg_err (acqEnd m) = true := by
  obtain ⟨hwins, herr⟩ := windowsTaken_invalid ((acqOk_jobClosed m).trans hbad)
  refine ⟨hwins, ?_⟩
  rw [acqEnd_eq h, fon, fget_fset_other_reg (by decide), fget_fset_other_reg (by decide), ← fon, herr]

/-! ### The instant of the slot's end -/

theorem le_tick_advanceTo {m : Mach} (h : timingOn m = true) (t : Nat) : t ≤ tick (advanceTo t m) := by
  unfold advanceTo tick
  split
  · simp
  · next hreached => exact Nat.le_of_not_lt fun q => hreached ⟨h, q⟩

theorem advanceTo_frame (t : Nat) (m : Mach) : ∃ x, advanceTo t m = { m with tod := x } := by
  unfold advanceTo
  split
  · exact ⟨_, rfl⟩
  · exact ⟨m.tod, rfl⟩

theorem timingOn_of_acqRuns {m : Mach} (h : acqRuns m = true) : timingOn m = true := by
  simp only [acqRuns, Bool.and_eq_true] at h
  obtain ⟨⟨⟨⟨hon, -⟩, -⟩, -⟩, -⟩ := h
  exact hon

/-! ### The statement -/

theorem exec_acqSlotEnd (s : State) : exec .acqSlotEnd s = .next (s.withM (acqSlotEnd s.m)) := rfl

theorem exec_slotReport (s : State) : exec .slotReport s = .next (s.withM (slotReport s.m)) := rfl

theorem slotReport_of_job {j : AcqJob} {m : Mach} (h : m.acq.job = some j) :
    slotReport m = if jobReady j m && !mgmtHeld m then endJob j m else m := by
  simp only [slotReport, h]

/-- What ACQ_SLOT_END leaves of a device whose engine runs in the slot. -/
theorem acqSlotEnd_runs {m : Mach} (h : acqRuns m = true) : ∃ j, (acqSlotEnd m).acq.job = some j ∧ j.slotTick = m.slotStart ∧
    j.frame = m.frameNo ∧ j.slot = m.slot ∧ j.n = acqN m ∧ j.lost = false ∧ (acqSlotEnd m).acq.done = some m.slotStart ∧
    fget ACQ_STATUS.busy (acqSlotEnd m) = 1 ∧ (nextSlot m).2 ≤ tick (acqSlotEnd m) ∧
    (acqOk m = false → j.wins = [] ∧ fon ACQ_EVENTS.cfg_err (acqSlotEnd m) = true) ∧ storesKept m (acqSlotEnd m) := by
  have htime := le_tick_advanceTo (timingOn_of_acqRuns h) (nextSlot m).2
  rw [acqSlotEnd, if_pos h]
  obtain ⟨x, hframe⟩ := advanceTo_frame (nextSlot m).2 m
  rw [hframe] at htime ⊢
  generalize hu : ({ m with tod := x } : Mach) = u at htime ⊢
  have hruns : acqRuns u = true := by rw [← hu]; exact h
  have hbad : acqOk m = acqOk u := by rw [← hu]; rfl
  have hstores : storesKept m u := by rw [← hu]; exact .refl m
  have hn : acqN m = acqN u := by rw [← hu]; rfl
  obtain ⟨hstart0, hframe0, hslot0⟩ : m.slotStart = u.slotStart ∧ m.frameNo = u.frameNo ∧ m.slot = u.slot := by
    rw [← hu]; exact ⟨rfl, rfl, rfl⟩
  obtain ⟨hjob, hdone, htod, hkept⟩ := acqEnd_hidden hruns
  obtain ⟨hstart, hframeNo, hslot, -⟩ := place_jobClosed u
  rw [hstart0, hframe0, hslot0, hn, hbad]
  refine ⟨newJob (jobClosed u), hjob, hstart, hframeNo, hslot, n_newJob_jobClosed u, rfl, hdone, busy_acqEnd hruns, ?_,
    cfgErr_acqEnd hruns, hstores.trans hkept⟩
  rw [tick, htod, ← tick]
  exact htime

/-- Settles O38: the end of a slot by `acqEnd`, the report by `endJob`. That the identifiers follow the order of the report's records is
log entry 89, and that ACQ_SLOT_END moves the time to the slot's end is log entry 1. -/
theorem acquisitionSlotsAreReported : Obligations.AcquisitionSlotsAreReported := by
  unfold Obligations.AcquisitionSlotsAreReported
  intro s
  refine ⟨fun hidle => ?_, fun hruns => ?_, fun hnone => ?_, fun j hjob hwait => ?_, fun j hjob hready hfree => ?_⟩
  · rw [exec_acqSlotEnd, acqSlotEnd, if_neg (by simp [hidle])]
  · obtain ⟨j, hleft⟩ := acqSlotEnd_runs hruns
    exact ⟨_, j, exec_acqSlotEnd s, hleft⟩
  · rw [exec_slotReport, slotReport, hnone]
  · rw [exec_slotReport, slotReport_of_job hjob, if_neg (by rcases hwait with h | h <;> simp [h])]
  · refine ⟨endJob j s.m, jobDets j s.m, ?_, ?_⟩
    · rw [exec_slotReport, slotReport_of_job hjob, if_pos (by simp [hready, hfree])]
    have hacq : (endJob j s.m).acq = (jobCounted j s.m).acq := by rw [endJob_eq, acq_sendNat, acq_jobNoted]
    refine ⟨by rw [hacq]; rfl, ?_, ?_, by rw [hacq]; rfl, by rw [hacq]; rfl, fun i hi => ?_, fun hwins => ?_, ?_, fun hb hp => ?_,
      regsKept_endJob j s.m, storesKept_endJob j s.m⟩
    · rw [endJob_eq, fget_sendNat, busy_jobNoted]
    · rw [endJob_eq, rd_sendNat, total_jobNoted]
    · exact numberDets_id _ _ i (by rwa [jobDets, numberDets_length] at hi)
    · rw [jobDets, jobReport_dets_nil hwins]; rfl
    · rw [endJob_eq, fon_sendNat, late_jobNoted, Bool.or_eq_true, jobLate_iff, or_comm]
    · exact ⟨sentReport j s.m, by rw [endJob_eq]; exact (sameSession_jobNoted j s.m).answered hb hp _, rfl, rfl, rfl, rfl, rfl⟩

end Sys2Proof.Machine

/-! SUPPORT. The directory of a device that is no twin and has no poisoned line: its places, what a change of one leaves (R208, R219),
and the answers to its operations (R205, R206, R211, R214, R382, R383), with the statement about them. -/

namespace Sys2Proof.Machine

/-! ### Places without poison (R336) -/

theorem each_same {α : Type} {l : List α} {f : α → Mach → Mach} {m : Mach} (h : ∀ a ∈ l, f a m = m) : each l f m = m :=
  List.foldlRecOn (motive := fun u => u = m) l _ rfl fun u hu a ha => by rw [hu, h a ha]

theorem purgeLine_clean {m : Mach} (h : ∀ p, lineBad p m = false) (k : Nat) : purgeLine k m = m := by
  rw [purgeLine, if_neg (by simp [h k])]

theorem purgeId_clean {m : Mach} (h : ∀ p, lineBad p m = false) (id : BitVec 48) : purgeId id m = m :=
  each_same fun k _ => purgeLine_clean h k

theorem purgeList_clean {m : Mach} (h : ∀ p, lineBad p m = false) (b count : Nat) : purgeList b count m = m :=
  each_same fun _ _ => each_same fun k _ => purgeLine_clean h k

theorem cureLine_clean {m : Mach} (h : ∀ p, lineBad p m = false) (k : Nat) : cureLine k m = m := by
  rw [cureLine, if_neg (by simp [h k])]

theorem dirAt_clean {m : Mach} (h : ∀ p, lineBad p m = false) (k : Nat) : dirAt k m = tabGet (fun _ => none) m.dir.ent k := by
  rw [dirAt, if_neg (by simp [h k])]

/-- Whether a line is poisoned rests on the poison marks and the partition's base. -/
theorem lineBad_of_rd {m u : Mach} (hbase : rd (RES_PART_BASE 0) u = rd (RES_PART_BASE 0) m) (hmarks : u.poison = m.poison)
    (hbanks : u.poisonBanks = m.poisonBanks) (k : Nat) : lineBad k u = lineBad k m := by
  have hdefault : poisonDefault u = poisonDefault m := by funext a; rw [poisonDefault, hbanks, poisonDefault]
  simp only [lineBad, poisoned, lineAddr, partBase, hbase, hmarks, hdefault]

/-! ### A place changes (R219) -/

/-- The registers that follow the table's contents. -/
def tableRegs : List Nat := [RES_PART_USE 0, DIR_STATUS]

theorem regsKept_refreshDir (m : Mach) : regsKept tableRegs m (refreshDir m) :=
  ((regsKept_fset DIR_STATUS.count _ m).mono (by decide)).trans
    (((regsKept_fset ⟨RES_PART_USE 0, 0, 27⟩ _ _).mono (by decide)).trans ((regsKept_fsetB DIR_STATUS.over_quota _ _).mono (by decide)))

/-- A place of the table holds `e`, whatever its line held. -/
def placePut (k : Nat) (e : Option DirEntry) (m : Mach) : Mach :=
  { m with dir := { m.dir with ent := tabPut (fun _ => none) m.dir.ent k e } }

theorem setPlace_clean {m : Mach} (h : ∀ p, lineBad p m = false) (k : Nat) (e : Option DirEntry) :
    setPlace k e m = refreshDir (placePut k e m) := by
  rw [setPlace, cureLine_clean h]; rfl

/-- The entry as a change stamps it: with the next change sequence number. -/
def stamped (e : Option DirEntry) (m : Mach) : Option DirEntry := e.map fun x => { x with seq := rd DIR_SEQ m + 1#32 }

/-- A device that is no PRIMARY sends no delta. -/
theorem changePlace_clean {m : Mach} (h : ∀ p, lineBad p m = false) (hrole : role m ≠ 1) (k : Nat) (e : Option DirEntry) :
    changePlace k e m = wr DIR_SEQ (rd DIR_SEQ m + 1#32) (refreshDir (placePut k (stamped e m) m)) := by
  have hsend : ¬ (decide (role m = 1) && timingOn m) = true := by simp [hrole]
  rw [changePlace, if_neg hsend, setPlace_clean h]; rfl

/-- `u` is `m` after place `k` has taken `e` and nothing was sent. -/
structure PlaceChanged (k : Nat) (e : Option DirEntry) (m u : Mach) : Prop where
  at_place : dirAt k u = stamped e m
  others : placesKept k m u
  seq : rd DIR_SEQ u = rd DIR_SEQ m + 1#32
  session : ∀ n : Fin 4, SameSession n.val m u
  role : role u = role m
  out : u.out = m.out
  stores : storesKept m u

theorem placeChanged_changePlace {m : Mach} (h : ∀ p, lineBad p m = false) (hrole : role m ≠ 1) (k : Nat) (e : Option DirEntry) :
    PlaceChanged k e m (changePlace k e m) := by
  have hregs : regsKept (DIR_SEQ :: tableRegs) m (changePlace k e m) := by
    rw [changePlace_clean h hrole]
    exact ((regsKept_refreshDir (placePut k (stamped e m) m)).mono (by decide)).trans ((regsKept_wr DIR_SEQ _ _).mono (by decide))
  have hseq : rd DIR_SEQ (changePlace k e m) = rd DIR_SEQ m + 1#32 := by rw [changePlace_clean h hrole, rd_wr_same]
  obtain ⟨r, hr⟩ : ∃ r, changePlace k e m = { placePut k (stamped e m) m with regs := r } :=
    ⟨_, changePlace_clean h hrole k e⟩
  rw [hr] at hregs hseq ⊢
  have hclean : ∀ p, lineBad p { placePut k (stamped e m) m with regs := r } = false := fun p =>
    (lineBad_of_rd (hregs _ (by decide)) rfl rfl p).trans (h p)
  refine ⟨?_, fun j hj => ?_, hseq, hregs.sameSession (by decide) rfl rfl, hregs.fget (f := HLT_TWIN_STATUS.role_act) (by decide), rfl,
    .refl m⟩
  · rw [dirAt_clean hclean]; exact tabGet_tabPut_same _ _ k _
  · rw [dirAt_clean hclean, dirAt_clean h]; exact tabGet_tabPut_other _ _ _ hj

/-- What an operation that changes place `k` to `e` leaves, answered to session `n` with `b`. -/
structure ChangeAnswered (n : Nat) (b : NatBody) (k : Nat) (e : Option DirEntry) (m t : Mach) : Prop where
  at_place : dirAt k t = stamped e m
  others : placesKept k m t
  seq : rd DIR_SEQ t = rd DIR_SEQ m + 1#32
  answer : answered n b m t
  stores : storesKept m t

/-! ### Sessions that can use the directory -/

theorem dirReady.power {n : Nat} {m : Mach} (h : dirReady n m) : m.power = .coreRun := by
  obtain ⟨hcore, -⟩ := h
  simp only [coreOn, Bool.and_eq_true, beq_iff_eq] at hcore
  obtain ⟨⟨hpower, -⟩, -⟩ := hcore
  exact hpower

/-- A request of a session that can use the directory runs at once. -/
theorem answer_dirRun {n : Nat} {s : State} (h : dirReady n s.m) (i : Instr) (r : DirReq) :
    answer s (nativeIn n i (dirEnter r) s.m) = .next (s.withM (dirRun r s.m)) := by
  have hpower := h.power
  obtain ⟨hcore, hheld, hdev, hrest, hrestQ, -⟩ := h
  have hopen : ¬ (s.m.power ≠ .coreRun ∨ (devState s.m = 2 ∧ romTakes i = false)) := by simp [hpower, hdev]
  rw [nativeIn, if_neg hopen, if_neg (by simp [hheld]), dirEnter, if_neg (by simp [hcore]), if_neg (by simp [hrest, hrestQ])]
  rfl

/-- No answer of a device without a STANDBY waits for an acknowledgement (R462). -/
theorem ackNat_solo {m : Mach} (h : role m ≠ 1) (n : Nat) (q : Option W) (b : NatBody) : ackNat n q b m = sendNat n b m := by
  cases q with
  | none => rfl
  | some w => rw [ackNat, if_neg (by simp [h])]

theorem dirAnswer_solo {m : Mach} (h : role m ≠ 1) (n : Nat) (c : Bool) (st : Nat) (l : List DirEntry) :
    dirAnswer n c st l m = sendNat n (.dirResp [⟨st, l.length, l⟩]) m := ackNat_solo h n _ _

/-- A change of a place, answered. -/
theorem changeAnswered {n : Fin 4} {m : Mach} (h : dirReady n.val m) (b : NatBody) (k : Nat) (e : Option DirEntry) :
    ChangeAnswered n.val b k e m (sendNat n.val b (changePlace k e m)) := by
  obtain ⟨-, -, -, -, -, -, hrole, -, hbound, hport, hclean⟩ := h
  have hchange := placeChanged_changePlace hclean hrole k e
  exact ⟨(dirAt_sendNat ..).trans hchange.at_place, fun j hj => (dirAt_sendNat ..).trans (hchange.others j hj),
    (rd_sendNat ..).trans hchange.seq, (hchange.session n).answered hbound hport b, hchange.stores.trans (storesKept_sendNat ..)⟩

/-! ### The operations (R213, R214, R383) -/

/-- R213: where the emptier bucket has a free position, the lowest takes the entry. -/
theorem dirInsert_free {m : Mach} {e : DirEntry} {k : Nat} (hquota : atQuota m = false)
    (hfree : freePlace (if freeCount (dirBuckets e.id m).1 m < freeCount (dirBuckets e.id m).2 m
      then (dirBuckets e.id m).2 else (dirBuckets e.id m).1) m = some k) : dirInsert e m = some (changePlace k (some e) m) := by
  simp only [dirInsert, hquota, makePlace, hfree, Bool.false_eq_true, if_false]

section
variable {n : Fin 4} {m : Mach} (h : dirReady n.val m)
include h

theorem dirReady.clean : ∀ p, lineBad p m = false := by
  obtain ⟨-, -, -, -, -, -, -, -, -, -, hclean⟩ := h; exact hclean

theorem dirReady.solo : role m ≠ 1 := by
  obtain ⟨-, -, -, -, -, -, hrole, -⟩ := h; exact hrole

/-- A mask that the operation does not take is answered FORMAT, else the operation runs. -/
theorem dirGuard_ready (ro bad : Bool) (run : Mach → Mach) :
    dirGuard n.val ro bad run m = if bad then sendNat n.val (.dirResp [⟨5, 0, []⟩]) m else run m := by
  have hsolo := h.solo
  obtain ⟨-, -, -, -, -, hon, -, hstandby, -⟩ := h
  have hrole : ¬ (decide (role m = 2) && !ro) = true := by simp [hstandby]
  have hdeck : ¬ dirOn m = false := by simp [hon]
  rw [dirGuard, if_neg hrole, if_neg hdeck, dirAnswer_solo hsolo]
  rfl

theorem dirGuard_badMask {k : BitVec 8} (hk : k ≠ 0#8) (ro : Bool) (run : Mach → Mach) :
    dirGuard n.val ro (k != 0#8) run m = sendNat n.val (.dirResp [⟨5, 0, []⟩]) m := by
  rw [dirGuard_ready h, if_pos (by simp [hk])]

theorem dirGuard_runs (ro : Bool) (run : Mach → Mach) : dirGuard n.val ro (0#8 != 0#8) run m = run m := by
  rw [dirGuard_ready h]; rfl

theorem dirOnEntry_found {id : BitVec 48} {k : Nat} {e : DirEntry} (hfind : dirFind id m = some k) (hat : dirAt k m = some e)
    (f : Nat → DirEntry → Mach → Mach) : dirOnEntry n.val id f m = f k e m := by
  have hclean := h.clean
  unfold dirOnEntry
  rw [purgeId_clean hclean]
  extract_lets m1
  simp only [m1, hfind, hat]

theorem dirOnEntry_unknown {id : BitVec 48} (hfind : dirFind id m = none) (f : Nat → DirEntry → Mach → Mach) :
    dirOnEntry n.val id f m = sendNat n.val (.dirResp [⟨1, 0, []⟩]) m := by
  have hclean := h.clean
  unfold dirOnEntry
  rw [purgeId_clean hclean]
  extract_lets m1
  simp only [m1, hfind]
  exact dirAnswer_solo h.solo _ _ _ _

/-- An operation that would leave the entry as it is changes nothing. -/
theorem dirAlter_same (k : Nat) (e : DirEntry) : dirAlter n.val k e e m = sendNat n.val (.dirResp [⟨0, 0, []⟩]) m := by
  rw [dirAlter, if_pos rfl, dirAnswer_solo h.solo]; rfl

/-- An operation on an entry that changes its place answers OK. -/
theorem dirAnswer_changePlace (k : Nat) (e : Option DirEntry) :
    dirAnswer n.val true 0 [] (changePlace k e m) = sendNat n.val (.dirResp [⟨0, 0, []⟩]) (changePlace k e m) := by
  have hchange := placeChanged_changePlace h.clean h.solo k e
  exact dirAnswer_solo (hchange.role ▸ h.solo) _ _ _ _

theorem dirAlter_other {e e' : DirEntry} (hne : e' ≠ e) (k : Nat) :
    dirAlter n.val k e e' m = sendNat n.val (.dirResp [⟨0, 0, []⟩]) (changePlace k (some e') m) := by
  rw [dirAlter, if_neg hne, dirAnswer_changePlace h]

/-! ### WRITE and BIND (R205, R206, R213, R214) -/

theorem dirWrite_found {id : BitVec 48} {k : Nat} {e : DirEntry} (hfind : dirFind id m = some k) (hat : dirAt k m = some e)
    (mask : BitVec 8) (f : DirFields) : dirWrite n.val id mask f m = dirAlter n.val k e (maskFields mask f e) m := by
  have hclean := h.clean
  unfold dirWrite
  rw [purgeId_clean hclean]
  extract_lets m1
  simp only [m1, hfind, hat, Option.bind_some, Option.map_some]

theorem dirWrite_unknown {id : BitVec 48} {k : Nat} (hfind : dirFind id m = none) (hquota : atQuota m = false)
    (hfree : freePlace (if freeCount (dirBuckets id m).1 m < freeCount (dirBuckets id m).2 m
      then (dirBuckets id m).2 else (dirBuckets id m).1) m = some k) (mask : BitVec 8) (f : DirFields) :
    dirWrite n.val id mask f m =
      sendNat n.val (.dirResp [⟨0, 0, []⟩]) (changePlace k (some (maskFields mask f (blankEntry id m))) m) := by
  have hinsert := dirInsert_free (e := maskFields mask f (blankEntry id m)) hquota hfree
  have hclean := h.clean
  unfold dirWrite
  rw [purgeId_clean hclean]
  extract_lets m1
  simp only [m1, hfind, Option.bind_none, hinsert]
  exact dirAnswer_changePlace h k _

theorem dirDelete_found {id : BitVec 48} {k : Nat} (hfind : dirFind id m = some k) : dirDelete id m = changePlace k none m := by
  have hclean := h.clean
  unfold dirDelete
  rw [purgeId_clean hclean]
  extract_lets m1
  simp only [m1, hfind]

theorem dirDelete_unknown {id : BitVec 48} (hfind : dirFind id m = none) : dirDelete id m = m := by
  have hclean := h.clean
  unfold dirDelete
  rw [purgeId_clean hclean]
  extract_lets m1
  simp only [m1, hfind]

theorem dirRun_unbind (id : BitVec 48) : dirRun (.unbind id) m = dirDelete id m := by
  obtain ⟨-, -, -, -, -, hon, -, hstandby, -⟩ := h
  rw [dirRun, if_neg hstandby, if_pos hon]

/-- R205, R206: a detection later than the entry updates it. -/
theorem dirBind_updates {id : BitVec 48} {k : Nat} {e : DirEntry} {det : W} {d : Det} (hfind : dirFind id m = some k)
    (hat : dirAt k m = some e) (hdet : findDet det m = some d) (hlater : e.lastSeen.toNat < detUnit d) (pin : Bool) :
    dirBind n.val det id pin m =
      sendNat n.val (.bindAck det id 1 (rd DIR_SEQ m + 1#32)) (changePlace k (some (updEntry e d m)) m) := by
  have hchange := placeChanged_changePlace h.clean h.solo k (some (updEntry e d m))
  have hclean := h.clean
  have hsolo := h.solo
  obtain ⟨-, -, -, -, -, hon, -, hstandby, -⟩ := h
  rw [dirBind, if_neg hstandby, if_neg (by simp [hon])]
  simp only [hdet]
  rw [purgeId_clean hclean]
  simp only [hfind, hat, if_pos hlater]
  rw [bindAnswer, if_pos (by decide), ackNat_solo (hchange.role ▸ hsolo), hchange.seq]

/-- R205, R207: a detection that is not in the history any more. -/
theorem dirBind_expired {det : W} (hdet : findDet det m = none) (id : BitVec 48) (pin : Bool) :
    dirBind n.val det id pin m = sendNat n.val (.bindAck det id 3 0#32) (setEv ACQ_EVENTS.hist_expired m) := by
  obtain ⟨-, -, -, -, -, hon, -, hstandby, -⟩ := h
  rw [dirBind, if_neg hstandby, if_neg (by simp [hon])]
  simp only [hdet]
  rfl

theorem dirRun_list {c : Nat} (hc : c ≤ 64) (b : Nat) : dirRun (.list n.val b c 0#8) m =
    sendNat n.val (.dirResp [⟨0, (dirList b c m).length, dirList b c m⟩]) m := by
  have hmask : (0#8 != 0#8 || decide (64 < c)) = false := by simp [hc]
  rw [dirRun, hmask, dirGuard_ready h, if_neg (by decide)]
  simp only [purgeList_clean h.clean, dirAnswer_solo h.solo]

end

/-! ### The statement -/

/-- A masked operation that takes no mask. -/
theorem exec_badMask {n : Fin 4} {s : State} (h : dirReady n.val s.m) (id : BitVec 48) {mask : BitVec 8} (hmask : mask ≠ 0#8) :
    ∀ c ∈ [Instr.dirOpRead n id mask, .dirOpDelete n id mask, .dirOpPin n id mask, .dirOpUnpin n id mask,
        .dirOpTouch n id mask, .dirOpList n 0#32 1#8 mask, .dirOpSnapshot n mask],
      exec c s = .next (s.withM (sendNat n.val (.dirResp [⟨5, 0, []⟩]) s.m)) := by
  have hlist : (mask != 0#8 || decide (64 < (1#8).toNat)) = true := by simp [hmask]
  simp only [List.forall_mem_cons]
  refine ⟨?_, ?_, ?_, ?_, ?_, ?_, ?_, fun _ hc => absurd hc List.not_mem_nil⟩
  · exact (answer_dirRun h _ (.read n.val id mask)).trans (by rw [dirRun, dirGuard_badMask h hmask])
  · exact (answer_dirRun h _ (.delete n.val id mask)).trans (by rw [dirRun, dirGuard_badMask h hmask])
  · exact (answer_dirRun h _ (.pin n.val id mask true)).trans (by rw [dirRun, dirGuard_badMask h hmask])
  · exact (answer_dirRun h _ (.pin n.val id mask false)).trans (by rw [dirRun, dirGuard_badMask h hmask])
  · exact (answer_dirRun h _ (.touch n.val id mask)).trans (by rw [dirRun, dirGuard_badMask h hmask])
  · exact (answer_dirRun h _ (.list n.val (0#32).toNat (1#8).toNat mask)).trans
      (by rw [dirRun, hlist, dirGuard_ready h, if_pos rfl])
  · exact (answer_dirRun h _ (.snapshot n.val mask)).trans (by rw [dirRun, dirGuard_badMask h hmask])

/-- An operation on a sensor that the table does not hold. -/
theorem exec_unknown {n : Fin 4} {s : State} (h : dirReady n.val s.m) {id : BitVec 48} (hfind : dirFind id s.m = none) :
    ∀ c ∈ [Instr.dirOpRead n id 0#8, .dirOpDelete n id 0#8, .dirOpPin n id 0#8, .dirOpUnpin n id 0#8, .dirOpTouch n id 0#8],
      exec c s = .next (s.withM (sendNat n.val (.dirResp [⟨1, 0, []⟩]) s.m)) := by
  simp only [List.forall_mem_cons]
  refine ⟨?_, ?_, ?_, ?_, ?_, fun _ hc => absurd hc List.not_mem_nil⟩
  · exact (answer_dirRun h _ (.read n.val id 0#8)).trans (by rw [dirRun, dirGuard_runs h, dirOnEntry_unknown h hfind])
  · exact (answer_dirRun h _ (.delete n.val id 0#8)).trans (by rw [dirRun, dirGuard_runs h, dirOnEntry_unknown h hfind])
  · exact (answer_dirRun h _ (.pin n.val id 0#8 true)).trans (by rw [dirRun, dirGuard_runs h, dirOnEntry_unknown h hfind])
  · exact (answer_dirRun h _ (.pin n.val id 0#8 false)).trans (by rw [dirRun, dirGuard_runs h, dirOnEntry_unknown h hfind])
  · exact (answer_dirRun h _ (.touch n.val id 0#8)).trans (by rw [dirRun, dirGuard_runs h, dirOnEntry_unknown h hfind])

/-- An operation on a sensor at place `k`, told as what its entry's place takes. -/
theorem exec_found {n : Fin 4} {s : State} (h : dirReady n.val s.m) {id : BitVec 48} {k : Nat} {e : DirEntry}
    (hfind : dirFind id s.m = some k) (hat : dirAt k s.m = some e) :
    exec (.dirOpRead n id 0#8) s = .next (s.withM (sendNat n.val (.dirResp [⟨0, 1, [e]⟩]) s.m)) ∧
    exec (.dirOpDelete n id 0#8) s = .next (s.withM (sendNat n.val (.dirResp [⟨0, 0, []⟩]) (changePlace k none s.m))) ∧
    exec (.unbind n id) s = .next (s.withM (changePlace k none s.m)) ∧
    exec (.dirOpTouch n id 0#8) s =
      .next (s.withM (dirAlter n.val k e { e with lastSeen := BitVec.ofNat 40 (tick s.m / 2 ^ 24) } s.m)) := by
  refine ⟨(answer_dirRun h _ (.read n.val id 0#8)).trans ?_, (answer_dirRun h _ (.delete n.val id 0#8)).trans ?_,
    (answer_dirRun h _ (.unbind id)).trans ?_, (answer_dirRun h _ (.touch n.val id 0#8)).trans ?_⟩
  · rw [dirRun, dirGuard_runs h, dirOnEntry_found h hfind hat, dirAnswer_solo h.solo]; rfl
  · rw [dirRun, dirGuard_runs h, dirOnEntry_found h hfind hat, dirAnswer_changePlace h]
  · rw [dirRun_unbind h, dirDelete_found h hfind]
  · rw [dirRun, dirGuard_runs h, dirOnEntry_found h hfind hat]

/-- PIN and UNPIN of a sensor at place `k`. -/
theorem exec_pin_found {n : Fin 4} {s : State} (h : dirReady n.val s.m) {id : BitVec 48} {k : Nat} {e : DirEntry}
    (hfind : dirFind id s.m = some k) (hat : dirAt k s.m = some e) :
    ∀ c ∈ [(Instr.dirOpPin n id 0#8, true), (.dirOpUnpin n id 0#8, false)],
      exec c.1 s = .next (s.withM (dirAlter n.val k e { e with pinned := c.2 } s.m)) := by
  have hruns : ∀ on, dirRun (.pin n.val id 0#8 on) s.m = dirAlter n.val k e { e with pinned := on } s.m := fun on => by
    rw [dirRun, dirGuard_runs h, dirOnEntry_found h hfind hat]
  simp only [List.forall_mem_cons]
  refine ⟨?_, ?_, fun _ hc => absurd hc List.not_mem_nil⟩
  · exact (answer_dirRun h _ (.pin n.val id 0#8 true)).trans (by rw [hruns])
  · exact (answer_dirRun h _ (.pin n.val id 0#8 false)).trans (by rw [hruns])

/-- WRITE with a mask that names fields. -/
theorem exec_dirOpWrite {n : Fin 4} {s : State} (h : dirReady n.val s.m) {mask : BitVec 8} (hmask : mask ≠ 0#8)
    (h7 : mask.getLsbD 7 = false) (id : BitVec 48) (f : DirFields) :
    exec (.dirOpWrite n id mask f) s = .next (s.withM (dirWrite n.val id mask f s.m)) := by
  have hgood : (mask == 0#8 || mask.getLsbD 7) = false := by
    rw [h7, Bool.or_false]; exact beq_eq_false_iff_ne.2 hmask
  exact (answer_dirRun h _ (.write n.val id mask f)).trans (by rw [dirRun, hgood, dirGuard_ready h, if_neg Bool.false_ne_true])

theorem exec_dirOpWrite_badMask {n : Fin 4} {s : State} (h : dirReady n.val s.m) {mask : BitVec 8}
    (hmask : mask = 0#8 ∨ mask.getLsbD 7 = true) (id : BitVec 48) (f : DirFields) :
    exec (.dirOpWrite n id mask f) s = .next (s.withM (sendNat n.val (.dirResp [⟨5, 0, []⟩]) s.m)) := by
  have hbad : (mask == 0#8 || mask.getLsbD 7) = true := by
    rcases hmask with hzero | h7
    · rw [hzero]; rfl
    · rw [h7, Bool.or_true]
  exact (answer_dirRun h _ (.write n.val id mask f)).trans (by rw [dirRun, hbad, dirGuard_ready h, if_pos rfl])

theorem exec_bind {n : Fin 4} {s : State} (h : dirReady n.val s.m) (det : W) (id : BitVec 48) (pin : Bool) :
    exec (.bind n det id pin) s = .next (s.withM (dirBind n.val det id pin s.m)) :=
  answer_dirRun h _ (.bind n.val det id pin)

/-- Settles O39, operation by operation: each runs at once (`answer_dirRun`), and a change of a place is told by `changeAnswered`. That
PIN, UNPIN and TOUCH leave DIR_SEQ alone where nothing changes is log entry 70. -/
theorem directoryOperationsAnswer : Obligations.DirectoryOperationsAnswer := by
  unfold Obligations.DirectoryOperationsAnswer
  intro s n id h
  refine ⟨fun k e hfind hat => ?_, fun hfind => ⟨exec_unknown h hfind, ?_, fun mask f k hmask h7 hquota hfree => ?_⟩,
    fun b c hc => ?_, fun mask f => ⟨exec_badMask h id, fun hmask => exec_dirOpWrite_badMask h hmask id f⟩, fun det pin hdet => ?_⟩
  · obtain ⟨hread, hdelete, hunbind, htouch⟩ := exec_found h hfind hat
    refine ⟨hread, fun mask f hmask h7 hne => ?_, ⟨_, hdelete, ?_⟩, ⟨_, hunbind, ?_⟩, fun c hc => ⟨fun hsame => ?_, fun hne => ?_⟩,
      fun hne => ?_, fun det pin d hdet hlater => ?_⟩
    · have hdone := changeAnswered h (.dirResp [⟨0, 0, []⟩]) k (some (maskFields mask f e))
      refine ⟨_, ?_, hdone.at_place, hdone.seq, hdone.others, hdone.answer, hdone.stores⟩
      rw [exec_dirOpWrite h hmask h7, dirWrite_found h hfind hat, dirAlter_other h hne]
    · have hdone := changeAnswered h (.dirResp [⟨0, 0, []⟩]) k none
      exact ⟨hdone.at_place, hdone.seq, hdone.others, hdone.answer, hdone.stores⟩
    · have hchange := placeChanged_changePlace h.clean h.solo k none
      exact ⟨hchange.at_place, hchange.others, hchange.out, hchange.stores⟩
    · have hentry : { e with pinned := c.2 } = e := by rw [← hsame]
      rw [exec_pin_found h hfind hat c hc, hentry, dirAlter_same h]
    · have hentry : { e with pinned := c.2 } ≠ e := fun q => hne (congrArg DirEntry.pinned q).symm
      have hdone := changeAnswered h (.dirResp [⟨0, 0, []⟩]) k (some { e with pinned := c.2 })
      refine ⟨_, ?_, hdone.at_place, hdone.others, hdone.answer, hdone.stores⟩
      rw [exec_pin_found h hfind hat c hc, dirAlter_other h hentry]
    · have hentry : { e with lastSeen := BitVec.ofNat 40 (tick s.m / 2 ^ 24) } ≠ e := fun q =>
        hne (congrArg DirEntry.lastSeen q).symm
      have hdone := changeAnswered h (.dirResp [⟨0, 0, []⟩]) k (some { e with lastSeen := BitVec.ofNat 40 (tick s.m / 2 ^ 24) })
      refine ⟨_, ?_, hdone.at_place, hdone.others, hdone.answer, hdone.stores⟩
      rw [htouch, dirAlter_other h hentry]
    · have hdone := changeAnswered h (.bindAck det id 1 (rd DIR_SEQ s.m + 1#32)) k (some (updEntry e d s.m))
      refine ⟨_, ?_, hdone.at_place, hdone.others, hdone.answer, hdone.stores⟩
      rw [exec_bind h, dirBind_updates h hfind hat hdet hlater]
  · refine (answer_dirRun h _ (.unbind id)).trans ?_
    rw [dirRun_unbind h, dirDelete_unknown h hfind]
  · have hdone := changeAnswered h (.dirResp [⟨0, 0, []⟩]) k (some (maskFields mask f (blankEntry id s.m)))
    refine ⟨_, ?_, hdone.at_place, hdone.others, hdone.answer, hdone.stores⟩
    rw [exec_dirOpWrite h hmask h7, dirWrite_unknown h hfind hquota hfree]
  · exact (answer_dirRun h _ (.list n.val b.toNat c.toNat 0#8)).trans (by rw [dirRun_list h hc])
  · rw [exec_bind h, dirBind_expired h hdet]

end Sys2Proof.Machine

/-! SUPPORT. A restore that completes while another one waits (R214, R218), which refutes O40. -/

namespace Sys2Proof.Machine

theorem exec_restoreComplete (s : State) : exec .restoreComplete s = .next (s.withM (restoreComplete s.m)) := rfl

/-- A device in STANDBY with a deck and a snapshot: a restore runs, and another one waits in the sequencer. -/
def restoreMach : Mach :=
  let snapshot : Snap := ⟨[], 1, 0#32, 0#32, 0⟩
  let m : Mach := { power := .coreRun, dir := { restQ := true }, nvm := { snaps := [(0, some snapshot)] }, img := { deckId := [1#8] } }
  fset DIR_STATUS.restoring 1 (fset DIR_SNAP_STATUS.state 2 (fset (RES_PART_SIZE.size 0) 1
    (fset GCTL_DEV_STATE.deck_loaded 1 (fset GCTL_DEV_STATE.state 3 m))))

/-- Once the first restore is over, the one that waits may start, and starts. -/
theorem restoring_restoreComplete_restoreMach : fon DIR_STATUS.restoring (restoreComplete restoreMach) = true := by decide

/-- Refutes O40: its clause on RESTORE_COMPLETE says that no restore runs afterwards, and of the requests that wait it shuts out those
held but not a restore (`restQ`), which the statement's words shut out too. In `restoreMach` a restore waits: the sequencer goes on with it
(R214), and DIR_STATUS.restoring reads 1 again. -/
theorem not_directoryUpkeep : ¬ Obligations.DirectoryUpkeep := by
  intro h
  obtain ⟨-, -, -, -, -, -, -, -, hends, -⟩ := h ⟨restoreMach, []⟩
  obtain ⟨t, hexec, hover, -⟩ := hends (by decide) rfl (by decide)
  rw [exec_restoreComplete] at hexec
  have ht : restoreComplete restoreMach = t := next_withM_inj hexec
  rw [← ht, restoring_restoreComplete_restoreMach] at hover
  exact absurd hover (by decide)

end Sys2Proof.Machine

/-! SUPPORT. What the actions of a front-end sequencer leave of the sequencer itself (R235, R237 to R239): its state, its dropped bursts,
the slots it has seen, and the time. -/

namespace Sys2Proof.Machine

/-! ### Kept by every action -/

/-- The dropped bursts of quadrant `q` with their count and their flag, the slots whose event or burst is over, the tricks and the time are
as they were. -/
structure PlanKept (q : Nat) (m u : Mach) : Prop where
  drop : (getFes q u).drop = (getFes q m).drop
  evDone : (getFes q u).evDone = (getFes q m).evDone
  burstDone : (getFes q u).burstDone = (getFes q m).burstDone
  tod : u.tod = m.tod
  cal : u.cal = m.cal
  count : rd (QUAD_TX_DROP_COUNT q) u = rd (QUAD_TX_DROP_COUNT q) m
  late : fon (QUAD_FES_EVENTS.tx_late q) u = fon (QUAD_FES_EVENTS.tx_late q) m

/-- The state of the sequencer is as it was, too. -/
structure SeqKept (q : Nat) (m u : Mach) : Prop extends PlanKept q m u where
  state : fget (QUAD_FES_STATUS.state q) u = fget (QUAD_FES_STATUS.state q) m

theorem PlanKept.refl (q : Nat) (m : Mach) : PlanKept q m m := ⟨rfl, rfl, rfl, rfl, rfl, rfl, rfl⟩

theorem PlanKept.trans {q : Nat} {m u v : Mach} (h : PlanKept q m u) (h' : PlanKept q u v) : PlanKept q m v :=
  ⟨h'.drop.trans h.drop, h'.evDone.trans h.evDone, h'.burstDone.trans h.burstDone, h'.tod.trans h.tod, h'.cal.trans h.cal,
    h'.count.trans h.count, h'.late.trans h.late⟩

theorem SeqKept.refl (q : Nat) (m : Mach) : SeqKept q m m := ⟨.refl q m, rfl⟩

theorem SeqKept.trans {q : Nat} {m u v : Mach} (h : SeqKept q m u) (h' : SeqKept q u v) : SeqKept q m v :=
  ⟨h.toPlanKept.trans h'.toPlanKept, h'.state.trans h.state⟩

theorem seqKept_each {α : Type} {q : Nat} {l : List α} {f : α → Mach → Mach} (h : ∀ a m, SeqKept q m (f a m)) (m : Mach) :
    SeqKept q m (each l f m) :=
  each_inv (SeqKept q m) l f (fun a _ _ hs => hs.trans (h a _)) m (.refl q m)

/-- The registers that show a sequencer and its dropped bursts. -/
def fesRegs (q : Nat) : List Nat := [QUAD_FES_STATUS q, QUAD_FES_EVENTS q, QUAD_TX_DROP_COUNT q]

theorem seqKept_wr {q a : Nat} (h : a ∉ fesRegs q) (v : W) (m : Mach) : SeqKept q m (wr a v m) := by
  simp only [fesRegs, List.mem_cons, List.not_mem_nil, or_false, not_or] at h
  obtain ⟨hstatus, hevents, hcount⟩ := h
  have hlate : rd (QUAD_FES_EVENTS.tx_late q).reg (wr a v m) = rd (QUAD_FES_EVENTS.tx_late q).reg m :=
    rd_wr_other (Ne.symm hevents) v m
  have hstate : rd (QUAD_FES_STATUS.state q).reg (wr a v m) = rd (QUAD_FES_STATUS.state q).reg m :=
    rd_wr_other (Ne.symm hstatus) v m
  exact ⟨⟨rfl, rfl, rfl, rfl, rfl, rd_wr_other (Ne.symm hcount) v m, by rw [fon, fget_of_rd hlate, fon]⟩, fget_of_rd hstate⟩

/-- A field of QUAD_FES_STATUS is written, as to the dropped bursts. -/
theorem planKept_fset_status {q : Nat} {f : Fld} (hreg : f.reg = QUAD_FES_STATUS q) (x : Nat) (m : Mach) :
    PlanKept q m (fset f x m) := by
  have hother : ∀ a, a ≠ QUAD_FES_STATUS q → rd a (fset f x m) = rd a m := fun a ha => rd_fset_other (hreg ▸ ha) x m
  have hevents : QUAD_FES_EVENTS q ≠ QUAD_FES_STATUS q := by simp only [QUAD_FES_EVENTS, QUAD_FES_STATUS]; omega
  have hcount : QUAD_TX_DROP_COUNT q ≠ QUAD_FES_STATUS q := by simp only [QUAD_TX_DROP_COUNT, QUAD_FES_STATUS]; omega
  refine ⟨rfl, rfl, rfl, rfl, rfl, hother _ hcount, ?_⟩
  rw [fon, fget_of_rd (f := QUAD_FES_EVENTS.tx_late q) (hother _ hevents), fon]

/-- The fields of QUAD_FES_STATUS that show the pins and the queues. -/
def pinFields (q : Nat) : List Fld :=
  [QUAD_FES_STATUS.forced q, QUAD_FES_STATUS.fec q, QUAD_FES_STATUS.fcb_q q, QUAD_FES_STATUS.pend q]

theorem pinFields_place {q : Nat} : ∀ f ∈ pinFields q, f.reg = QUAD_FES_STATUS q ∧ 0 + 6 ≤ f.lo ∧ f.lo + f.w ≤ 32 := by
  simp only [pinFields, List.forall_mem_cons, List.not_mem_nil, false_implies, implies_true, and_true, QUAD_FES_STATUS.forced,
    QUAD_FES_STATUS.fec, QUAD_FES_STATUS.fcb_q, QUAD_FES_STATUS.pend]
  decide

theorem seqKept_fset_pinField {q : Nat} {f : Fld} (hf : f ∈ pinFields q) (x : Nat) (m : Mach) : SeqKept q m (fset f x m) := by
  obtain ⟨hreg, hlo, hw⟩ := pinFields_place f hf
  exact ⟨planKept_fset_status hreg x m, fget_fset_other hw (.inr (.inr hlo)) x m⟩

/-- A change of the sequencer's hidden state outside its plan. -/
theorem seqKept_setFes {q : Nat} {x : Fes} {m : Mach} (hdrop : x.drop = (getFes q m).drop) (hev : x.evDone = (getFes q m).evDone)
    (hburst : x.burstDone = (getFes q m).burstDone) : SeqKept q m (setFes q x m) := by
  rw [← getFes_setFes_same q x m] at hdrop hev hburst
  exact ⟨⟨hdrop, hev, hburst, rfl, rfl, rfl, rfl⟩, rfl⟩

@[simp] theorem getFes_setEv (k : Nat) (f : Fld) (m : Mach) : getFes k (setEv f m) = getFes k m := by
  obtain ⟨_, _, _, _, _, _, _, h⟩ := setEv_frame f m; rw [h]; rfl

@[simp] theorem getFes_setEvIf (b : Bool) (k : Nat) (f : Fld) (m : Mach) : getFes k (setEvIf b f m) = getFes k m := by
  obtain ⟨_, _, _, _, _, _, _, h⟩ := setEvIf_frame b f m; rw [h]; rfl

theorem cal_setEv (f : Fld) (m : Mach) : (setEv f m).cal = m.cal := by
  obtain ⟨_, _, _, _, _, _, _, h⟩ := setEv_frame f m; rw [h]

/-- Quadrant `q`'s front-end registers are none of the event log's. -/
theorem fesRegs_off_log (q : Nat) : ∀ a ∈ fesRegs q, a ≠ HLT_LOG_WPTR ∧ a ≠ HLT_EVENTS := by
  simp only [fesRegs, List.forall_mem_cons, List.not_mem_nil, false_implies, implies_true, and_true, QUAD_FES_STATUS, QUAD_FES_EVENTS,
    QUAD_TX_DROP_COUNT, quadBase, HLT_LOG_WPTR, HLT_EVENTS]
  omega

/-- The sticky events of the actions and the pins. -/
def actEvents (q : Nat) : List Fld :=
  [QUAD_FES_EVENTS.fcb_ovf q, QUAD_FES_EVENTS.act_late q, QUAD_FES_EVENTS.act_ovf q, QUAD_FES_EVENTS.safe_forced q]

theorem actEvents_place {q : Nat} : ∀ f ∈ actEvents q, f.reg = QUAD_FES_EVENTS q ∧ 0 + 1 ≤ f.lo ∧ f.lo + f.w ≤ 32 := by
  simp only [actEvents, List.forall_mem_cons, List.not_mem_nil, false_implies, implies_true, and_true, QUAD_FES_EVENTS.fcb_ovf,
    QUAD_FES_EVENTS.act_late, QUAD_FES_EVENTS.act_ovf, QUAD_FES_EVENTS.safe_forced]
  decide

theorem seqKept_setEv {q : Nat} {f : Fld} (hf : f ∈ actEvents q) (m : Mach) : SeqKept q m (setEv f m) := by
  obtain ⟨hreg, hlo, hw⟩ := actEvents_place f hf
  have hother : ∀ a ∈ fesRegs q, a ≠ QUAD_FES_EVENTS q → rd a (setEv f m) = rd a m := fun a hmem ha =>
    rd_setEv (hreg ▸ ha) (fesRegs_off_log q a hmem).1 (fesRegs_off_log q a hmem).2 m
  have hstatus : QUAD_FES_STATUS q ≠ QUAD_FES_EVENTS q := by simp only [QUAD_FES_EVENTS, QUAD_FES_STATUS]; omega
  have hcount : QUAD_TX_DROP_COUNT q ≠ QUAD_FES_EVENTS q := by simp only [QUAD_TX_DROP_COUNT, QUAD_FES_EVENTS]; omega
  obtain ⟨hlog, hlogEvents⟩ := fesRegs_off_log q (QUAD_FES_EVENTS q) (by simp [fesRegs])
  have hlate : fget (QUAD_FES_EVENTS.tx_late q) (setEv f m) = fget (QUAD_FES_EVENTS.tx_late q) m :=
    fget_setEv_other hw (.inr (.inr hlo)) hlog hlogEvents m
  refine ⟨⟨by rw [getFes_setEv], by rw [getFes_setEv], by rw [getFes_setEv], tod_setEv f m, cal_setEv f m,
    hother _ (by simp [fesRegs]) hcount, by rw [fon, hlate, fon]⟩, ?_⟩
  exact fget_of_rd (f := QUAD_FES_STATUS.state q) (hother (QUAD_FES_STATUS q) (by simp [fesRegs]) hstatus)

theorem seqKept_setEvIf (b : Bool) {q : Nat} {f : Fld} (hf : f ∈ actEvents q) (m : Mach) : SeqKept q m (setEvIf b f m) := by
  cases b
  · exact .refl q m
  · exact seqKept_setEv hf m

/-! ### The pins and the front-end bus (R232, R233, R235) -/

/-- The pins' refresh notes whether the conditions of R233 hold. -/
theorem getFes_refreshFes (q : Nat) (m : Mach) : getFes q (refreshFes q m) = { getFes q m with paOk := paOk q m } := by
  rw [refreshFes_eq, getFes_setEvIf, fesShown, getFes_setFes_same]
  rfl

theorem seqKept_refreshFes (q : Nat) (m : Mach) : SeqKept q m (refreshFes q m) := by
  rw [refreshFes_eq]
  refine .trans ?_ (seqKept_setEvIf _ (by simp [actEvents]) _)
  have hset : ∀ f ∈ pinFields q, ∀ x u, SeqKept q u (fset f x u) := fun _ hf x u => seqKept_fset_pinField hf x u
  have hpend := hset (QUAD_FES_STATUS.pend q) (by simp [pinFields]) (getFes q m).acts.length m
  have hqueue := hpend.trans (hset (QUAD_FES_STATUS.fcb_q q) (by simp [pinFields]) (getFes q m).fcb.length _)
  have hlevels := hqueue.trans (hset (QUAD_FES_STATUS.fec q) (by simp [pinFields]) (pinLevels q m) _)
  exact (hlevels.trans (hset (QUAD_FES_STATUS.forced q) (by simp [pinFields]) _ _)).trans (seqKept_setFes rfl rfl rfl)

/-- The pins follow a change of the hidden state outside the plan. -/
theorem seqKept_pinsFollow {q : Nat} {x : Fes} {m : Mach} (hdrop : x.drop = (getFes q m).drop) (hev : x.evDone = (getFes q m).evDone)
    (hburst : x.burstDone = (getFes q m).burstDone) : SeqKept q m (refreshFes q (setFes q x m)) :=
  (seqKept_setFes hdrop hev hburst).trans (seqKept_refreshFes q _)

theorem seqKept_queueFcb (q w due : Nat) (m : Mach) : SeqKept q m (queueFcb q w due m) := by
  unfold queueFcb
  dsimp only
  split
  · exact seqKept_pinsFollow rfl rfl rfl
  · exact seqKept_setEv (by simp [actEvents]) m

/-! ### Couplers (R129, R261) -/

theorem seqKept_spoilCap (q o : Nat) (m : Mach) : SeqKept q m (spoilCap o m) := by
  unfold spoilCap
  split
  · split
    · exact .refl q m
    · exact ⟨⟨rfl, rfl, rfl, rfl, rfl, rfl, rfl⟩, rfl⟩
  · exact .refl q m

theorem seqKept_couplerChanged (q o : Nat) (m : Mach) : SeqKept q m (couplerChanged o m) := by
  refine seqKept_each (fun c u => ?_) m
  split
  · refine seqKept_wr ?_ _ u
    simp only [fesRegs, List.mem_cons, List.not_mem_nil, or_false, not_or, QUAD_FES_STATUS, QUAD_FES_EVENTS, QUAD_TX_DROP_COUNT, quadBase,
      RES_CAP_CPL_LO, RES_CAP_CPL_HI]
    split <;> omega
  · exact .refl q u

theorem seqKept_setCoupler (q o n : Nat) (m : Mach) : SeqKept q m (setCoupler o n m) := by
  have hoff : QUAD_OBS_COUPLER (toObs o) ∉ fesRegs q := by
    simp only [fesRegs, List.mem_cons, List.not_mem_nil, or_false, not_or, QUAD_FES_STATUS, QUAD_FES_EVENTS, QUAD_TX_DROP_COUNT, quadBase,
      QUAD_OBS_COUPLER, obsBase]
    omega
  have hwr := seqKept_wr hoff (BitVec.ofNat 32 (n % 64)) m
  have hrx : ∀ x u, SeqKept q u (setRx (64 + o) x u) := fun _ _ => ⟨⟨rfl, rfl, rfl, rfl, rfl, rfl, rfl⟩, rfl⟩
  unfold setCoupler
  dsimp only
  split
  · exact hwr
  · exact ((hwr.trans (hrx _ _)).trans (seqKept_couplerChanged q _ _)).trans (seqKept_spoilCap q _ _)

/-! ### Actions (R237, R239) -/

theorem seqKept_runAct (q t kind mask value : Nat) (m : Mach) : SeqKept q m (runAct q t kind mask value m) := by
  unfold runAct
  dsimp only
  split
  · exact seqKept_pinsFollow rfl rfl rfl
  · exact seqKept_pinsFollow rfl rfl rfl
  · exact seqKept_queueFcb ..
  · split
    · exact seqKept_setCoupler ..
    · exact (seqKept_setCoupler ..).trans (seqKept_queueFcb ..)

theorem seqKept_schedAct (q b k : Nat) (m : Mach) : SeqKept q m (schedAct q b k m) := by
  unfold schedAct
  dsimp only
  split
  · exact (seqKept_setEv (by simp [actEvents]) m).trans (seqKept_runAct ..)
  · split
    · exact seqKept_pinsFollow rfl rfl rfl
    · exact seqKept_setEv (by simp [actEvents]) m

end Sys2Proof.Machine

/-! SUPPORT. The events of a front-end sequencer (R236, R238): where an event takes it, and what its delivery leaves. -/

namespace Sys2Proof.Machine

/-! ### Where an event leads -/

/-- R238: the state that event `code` leads to: the next state of the first valid transition for it. -/
def seqTarget (q code : Nat) (m : Mach) : Nat :=
  let st := fget (QUAD_FES_STATUS.state q) m
  if seqOn q m then
    match (transitions q st m).find? fun x => x.2.2 && x.1 == code with
    | some x => x.2.1
    | none => st
  else st

/-- A transition names one of the 64 states. -/
theorem target_lt {q st : Nat} {m : Mach} {x : Nat × Nat × Bool} (h : x ∈ transitions q st m) : x.2.1 < 64 := by
  obtain ⟨v, -, rfl⟩ := List.mem_map.1 h
  exact Nat.mod_lt _ (by decide)

/-- The registers that the pins and a dropped burst change, the event log's among them. -/
def burstRegs (q : Nat) : List Nat := [QUAD_FES_STATUS q, QUAD_FES_EVENTS q, QUAD_TX_DROP_COUNT q, HLT_LOG_WPTR, HLT_EVENTS]

/-- The deck's state records, the sequencer's enable bit and the quadrant's state are none of them. -/
theorem seqTarget_of_regsKept {q : Nat} (hq : q < 4) {m u : Mach} (h : regsKept (burstRegs q) m u)
    (hstate : fget (QUAD_FES_STATUS.state q) u = fget (QUAD_FES_STATUS.state q) m) (code : Nat) :
    seqTarget q code u = seqTarget q code m := by
  have hoff : ∀ a, a = QUAD_FES_CTRL q ∨ a = GCTL_QUAD_STATE ∨ (∃ st < 64, ∃ w < 4, a = QUAD_FES_STATE_w q st w) →
      a ∉ burstRegs q := by
    simp only [burstRegs, List.mem_cons, List.not_mem_nil, or_false, not_or, QUAD_FES_CTRL, GCTL_QUAD_STATE, QUAD_FES_STATE_w,
      QUAD_FES_STATUS, QUAD_FES_EVENTS, QUAD_TX_DROP_COUNT, HLT_LOG_WPTR, HLT_EVENTS, quadBase]
    rintro a (rfl | rfl | ⟨st, hst, w, hw, rfl⟩) <;> omega
  have hon : seqOn q u = seqOn q m := by
    have henable : fon (QUAD_FES_CTRL.seq_en q) u = fon (QUAD_FES_CTRL.seq_en q) m := h.fon (hoff _ (.inl rfl))
    have hquad : fget (GCTL_QUAD_STATE.st_q q) u = fget (GCTL_QUAD_STATE.st_q q) m := h.fget (hoff _ (.inr (.inl rfl)))
    rw [seqOn, quadState, henable, hquad, ← quadState, ← seqOn]
  have htrans : transitions q (fget (QUAD_FES_STATUS.state q) m) u = transitions q (fget (QUAD_FES_STATUS.state q) m) m := by
    have hrec : ∀ w < 4, rd (QUAD_FES_STATE_w q (fget (QUAD_FES_STATUS.state q) m) w) u =
        rd (QUAD_FES_STATE_w q (fget (QUAD_FES_STATUS.state q) m) w) m := fun w hw =>
      h _ (hoff _ (.inr (.inr ⟨_, fget_lt (QUAD_FES_STATUS.state q) m, w, hw, rfl⟩)))
    rw [transitions, hrec 2 (by decide), hrec 3 (by decide), ← transitions]
  rw [seqTarget, hon, hstate, htrans, ← seqTarget]

/-! ### The delivery of an event -/

/-- The device `u` after event `code` has come to quadrant `q`'s sequencer in `m`. -/
structure Delivered (q code : Nat) (m u : Mach) : Prop extends PlanKept q m u where
  state : fget (QUAD_FES_STATUS.state q) u = seqTarget q code m
  stores : storesKept m u

/-- The sequencer stands in state `st`, its timer restarted, before the state's actions are scheduled. -/
def stateTaken (q st : Nat) (m : Mach) : Mach :=
  let tm := (rd (QUAD_FES_STATE_w q st 1) m).toNat
  let m1 := fset (QUAD_FES_STATUS.state q) st m
  setFes q { getFes q m1 with timer := if tm = 0 then none else some (tick m1 + tm) } m1

theorem enterState_eq (q st b : Nat) (m : Mach) : ∃ acts, enterState q st b m = each acts (schedAct q b) (stateTaken q st m) :=
  ⟨_, rfl⟩

theorem enterState_leaves {q st : Nat} (hst : st < 64) (b : Nat) (m : Mach) :
    PlanKept q m (enterState q st b m) ∧ fget (QUAD_FES_STATUS.state q) (enterState q st b m) = st := by
  obtain ⟨acts, hacts⟩ := enterState_eq q st b m
  have hsched : SeqKept q (stateTaken q st m) (enterState q st b m) := hacts ▸ seqKept_each (fun k u => seqKept_schedAct q b k u) _
  have hstatus := planKept_fset_status (f := QUAD_FES_STATUS.state q) rfl st m
  have htimer : SeqKept q (fset (QUAD_FES_STATUS.state q) st m) (stateTaken q st m) := seqKept_setFes rfl rfl rfl
  refine ⟨(hstatus.trans htimer.toPlanKept).trans hsched.toPlanKept, ?_⟩
  rw [hsched.state, htimer.state, fget_fset_same (show 0 + 6 ≤ 32 by decide)]
  exact Nat.mod_eq_of_lt hst

theorem delivered_fesEvent (q code b : Nat) (m : Mach) : Delivered q code m (fesEvent q code b m) := by
  have hstores := (pathsKept_fesEvent q code b m).1
  suffices h : PlanKept q m (fesEvent q code b m) ∧
      fget (QUAD_FES_STATUS.state q) (fesEvent q code b m) = seqTarget q code m from ⟨h.1, h.2, hstores⟩
  unfold fesEvent seqTarget
  dsimp only
  by_cases hon : seqOn q m = true
  · rw [if_pos hon, if_pos hon]
    cases hfind : (transitions q (fget (QUAD_FES_STATUS.state q) m) m).find? fun x => x.2.2 && x.1 == code with
    | some x => exact enterState_leaves (target_lt (List.mem_of_find?_eq_some hfind)) b m
    | none => exact ⟨.refl q m, rfl⟩
  · rw [if_neg hon, if_neg hon]
    exact ⟨.refl q m, rfl⟩

/-- R236: an event that comes now is delivered, or waits for the others of a slot boundary. -/
theorem fesNow_leaves (q code : Nat) (m : Mach) :
    fget (QUAD_FES_STATUS.state q) (fesNow q code m) =
      (if m.evHold = none then seqTarget q code m else fget (QUAD_FES_STATUS.state q) m) ∧
    (fesNow q code m).tod = m.tod ∧ storesKept m (fesNow q code m) := by
  have hstores := (pathsKept_fesNow q code m).1
  cases hhold : m.evHold with
  | none =>
    have hnow : fesNow q code m = fesEvent q code (tick m) m := by rw [fesNow, hhold]
    have hevent := delivered_fesEvent q code (tick m) m
    rw [← hnow] at hevent
    exact ⟨hevent.state, hevent.tod, hevent.stores⟩
  | some l =>
    have hnow : fesNow q code m = { m with evHold := some (l ++ [(q, code)]) } := by rw [fesNow, hhold]
    rw [hnow]
    exact ⟨rfl, rfl, .refl m⟩

/-! ### Events at an instant -/

/-- Assumption 1: a timed event moves the time, to its instant or beyond while the timing runs, and nothing else. -/
theorem advanceTo_reaches (t : Nat) (m : Mach) : ∃ x, advanceTo t m = { m with tod := x } ∧ (timingOn m = true → t ≤ x / 2) := by
  obtain ⟨x, hx⟩ := advanceTo_frame t m
  exact ⟨x, hx, fun h => by simpa [hx, tick] using le_tick_advanceTo h t⟩

/-- FRAME. -/
theorem evFrame_leaves {q : Nat} {m : Mach} (hon : timingOn m = true) :
    fget (QUAD_FES_STATUS.state q) (evFrame q m) = seqTarget q 4 m ∧ nextFrameTick m - (getFes q m).lead ≤ tick (evFrame q m) ∧
    storesKept m (evFrame q m) := by
  obtain ⟨x, hx, htime⟩ := advanceTo_reaches (nextFrameTick m - (getFes q m).lead) m
  have heq : evFrame q m = fesEvent q 4 (nextFrameTick m) { m with tod := x } := by simp only [evFrame, hon, hx, if_true]
  have hevent := delivered_fesEvent q 4 (nextFrameTick m) { m with tod := x }
  rw [heq]
  refine ⟨hevent.state, ?_, hevent.stores⟩
  rw [tick, hevent.tod]
  exact htime hon

/-- TIMER. -/
theorem evTimer_leaves {q y : Nat} {m : Mach} (h : (getFes q m).timer = some y) :
    fget (QUAD_FES_STATUS.state q) (evTimer q m) =
      (if m.evHold = none then seqTarget q 14 m else fget (QUAD_FES_STATUS.state q) m) ∧
    (timingOn m = true → y ≤ tick (evTimer q m)) ∧ storesKept m (evTimer q m) := by
  obtain ⟨x, hx, htime⟩ := advanceTo_reaches y m
  have heq : evTimer q m = fesNow q 14 (setFes q { getFes q m with timer := none } { m with tod := x }) := by
    simp only [evTimer, h, hx]
    rfl
  obtain ⟨hstate, htod, hstores⟩ := fesNow_leaves q 14 (setFes q { getFes q m with timer := none } { m with tod := x })
  rw [heq]
  refine ⟨hstate, fun hon => ?_, hstores⟩
  rw [tick, htod]
  exact htime hon

/-! ### Slot events (R236, R417) -/

/-- The first slot ahead whose event is still to come. -/
def slotDue (q : Nat) (m : Mach) : Option (Slot × Nat × Nat) :=
  (leadSlots (getFes q m).lead m).find? fun n => decide ((getFes q m).evDone < n.2.1)

theorem evSlot_due {q code : Nat} {m : Mach} {n : Slot × Nat × Nat} (hdue : slotDue q m = some n) (hon : timingOn m = true)
    (hcode : slotEvent n.1 q = code) : ∃ x, n.2.1 - (getFes q m).lead ≤ x / 2 ∧
      evSlot q code m = fesEvent q code n.2.1 (setFes q { getFes q m with evDone := n.2.1 } { m with tod := x }) := by
  obtain ⟨x, hx, htime⟩ := advanceTo_reaches (n.2.1 - (getFes q m).lead) m
  refine ⟨x, htime hon, ?_⟩
  unfold slotDue at hdue
  simp only [evSlot, hdue, hon, hcode, hx, and_self, if_true]
  rfl

theorem evSlot_idle {q code : Nat} {m : Mach} (h : ∀ n, slotDue q m = some n → ¬(timingOn m = true ∧ slotEvent n.1 q = code)) :
    evSlot q code m = m := by
  unfold evSlot
  dsimp only
  split
  · next n hdue => exact if_neg (h n hdue)
  · rfl

theorem evSlot_leaves {q code : Nat} {m : Mach} {n : Slot × Nat × Nat} (hdue : slotDue q m = some n)
    (hon : timingOn m = true) (hcode : slotEvent n.1 q = code) :
    fget (QUAD_FES_STATUS.state q) (evSlot q code m) = seqTarget q code m ∧ (getFes q (evSlot q code m)).evDone = n.2.1 ∧
    n.2.1 - (getFes q m).lead ≤ tick (evSlot q code m) ∧ storesKept m (evSlot q code m) := by
  obtain ⟨x, htime, heq⟩ := evSlot_due hdue hon hcode
  have hevent := delivered_fesEvent q code n.2.1 (setFes q { getFes q m with evDone := n.2.1 } { m with tod := x })
  rw [heq]
  refine ⟨hevent.state, ?_, ?_, hevent.stores⟩
  · rw [hevent.evDone, getFes_setFes_same]
  · rw [tick, hevent.tod]
    exact htime

theorem cal_evSlot (q code : Nat) (m : Mach) : (evSlot q code m).cal = m.cal := by
  by_cases h : ∃ n, slotDue q m = some n ∧ timingOn m = true ∧ slotEvent n.1 q = code
  · obtain ⟨n, hdue, hon, hcode⟩ := h
    obtain ⟨x, -, heq⟩ := evSlot_due hdue hon hcode
    rw [heq, (delivered_fesEvent q code n.2.1 _).cal]
    rfl
  · rw [evSlot_idle fun n hdue hnow => h ⟨n, hdue, hnow⟩]

/-- The commands of the slot events with the events' codes. -/
def slotCommands (q : Fin 4) : List (Instr × Nat) := [(.slotTx q, 5), (.slotRx q, 6), (.slotAcq q, 7), (.slotGap q, 8)]

/-- Without a trick SLOT_GAP has no part of one to begin (R282). -/
theorem gapEvent_no_trick {q : Nat} {m : Mach} (h : m.cal.trick = none) : gapEvent q m = evSlot q 8 m := by
  have htrick : (evSlot q 8 m).cal.trick = none := by rw [cal_evSlot, h]
  simp only [gapEvent, htrick]

theorem exec_slotCommands {q : Fin 4} {s : State} {e : Instr × Nat} (he : e ∈ slotCommands q)
    (htrick : e.2 = 8 → s.m.cal.trick = none) : exec e.1 s = .next (s.withM (evSlot q.val e.2 s.m)) := by
  simp only [slotCommands, List.mem_cons, List.not_mem_nil, or_false] at he
  rcases he with rfl | rfl | rfl | rfl
  · rfl
  · rfl
  · rfl
  · rw [← gapEvent_no_trick (htrick rfl)]
    rfl

end Sys2Proof.Machine

/-! SUPPORT. Timed actions, frames on the front-end bus and bursts (R234, R235, R239, R244, R245), and the statement about the front-end
sequencers. -/

namespace Sys2Proof.Machine

/-! ### Actions (R239) -/

/-- The registers that show the pins and the queues, and the event log's. -/
def pinRegs (q : Nat) : List Nat := [QUAD_FES_STATUS q, QUAD_FES_EVENTS q, HLT_LOG_WPTR, HLT_EVENTS]

theorem refreshFes_keepsRegs (q : Nat) (m : Mach) : regsKept (pinRegs q) m (refreshFes q m) := by
  intro a ha
  simp only [pinRegs, List.mem_cons, List.not_mem_nil, or_false, not_or] at ha
  obtain ⟨hstatus, hevents, hlog, hlogEvents⟩ := ha
  exact rd_refreshFes hstatus hevents hlog hlogEvents m

/-- R235: a frame joins the queue where it has room. -/
theorem queueFcb_leaves (q w due : Nat) (m : Mach) :
    (getFes q (queueFcb q w due m)).acts = (getFes q m).acts ∧ (getFes q (queueFcb q w due m)).lvl = (getFes q m).lvl ∧
    ((getFes q m).fcb.length < 16 → (getFes q (queueFcb q w due m)).fcb = (getFes q m).fcb ++ [(w % 2 ^ 24, due)]) ∧
    regsKept (pinRegs q) m (queueFcb q w due m) := by
  unfold queueFcb
  dsimp only
  split
  · rw [getFes_refreshFes, getFes_setFes_same]
    exact ⟨rfl, rfl, fun _ => rfl, refreshFes_keepsRegs q (setFes q _ m)⟩
  · next hfull =>
    rw [getFes_setEv]
    exact ⟨rfl, rfl, fun hroom => absurd hroom hfull,
      (regsKept_setEv (QUAD_FES_EVENTS.fcb_ovf q) m).mono (by simp [pinRegs, QUAD_FES_EVENTS.fcb_ovf])⟩

/-- The levels asked for once an action of kind `kind` has run: set, cleared or as they were. -/
def actLvl (kind mask lvl : Nat) : Nat := if kind = 0 then lvl ||| mask else if kind = 1 then lvl &&& (255 - mask % 256) else lvl

/-- R237: an action that sets, clears or queues a frame. -/
theorem runAct_leaves {kind : Nat} (hkind : kind ≤ 2) (q t mask value : Nat) (m : Mach) :
    (getFes q (runAct q t kind mask value m)).acts = (getFes q m).acts ∧
    (getFes q (runAct q t kind mask value m)).lvl = actLvl kind mask (getFes q m).lvl ∧
    (kind = 2 → (getFes q m).fcb.length < 16 →
      (getFes q (runAct q t kind mask value m)).fcb = (getFes q m).fcb ++ [(value % 2 ^ 24, t)]) ∧
    regsKept (pinRegs q) m (runAct q t kind mask value m) := by
  have hpins : ∀ x, getFes q (refreshFes q (setFes q x m)) = { x with paOk := paOk q (setFes q x m) } ∧
      regsKept (pinRegs q) m (refreshFes q (setFes q x m)) := fun x =>
    ⟨by rw [getFes_refreshFes, getFes_setFes_same], refreshFes_keepsRegs q (setFes q x m)⟩
  match kind, hkind with
  | 0, _ =>
    obtain ⟨hfes, hregs⟩ := hpins { getFes q m with lvl := (getFes q m).lvl ||| mask }
    refine ⟨?_, ?_, nofun, hregs⟩
    · rw [runAct, hfes]
    · rw [runAct, hfes]
      rfl
  | 1, _ =>
    obtain ⟨hfes, hregs⟩ := hpins { getFes q m with lvl := (getFes q m).lvl &&& (255 - mask % 256) }
    refine ⟨?_, ?_, nofun, hregs⟩
    · rw [runAct, hfes]
    · rw [runAct, hfes]
      rfl
  | 2, _ =>
    obtain ⟨hacts, hlvl, hfcb, hregs⟩ := queueFcb_leaves q value t m
    exact ⟨hacts, hlvl, fun _ => hfcb, hregs⟩

/-- Action `a` is no longer pending. -/
def actTaken (q : Nat) (a : PendAct) (m : Mach) : Mach :=
  refreshFes q (setFes q { getFes q m with acts := (getFes q m).acts.filter fun b => b.ser != a.ser } m)

theorem actTaken_leaves (q : Nat) (a : PendAct) (m : Mach) :
    (getFes q (actTaken q a m)).acts = (getFes q m).acts.filter (fun b => b.ser != a.ser) ∧
    (getFes q (actTaken q a m)).lvl = (getFes q m).lvl ∧ (getFes q (actTaken q a m)).fcb = (getFes q m).fcb ∧
    regsKept (pinRegs q) m (actTaken q a m) ∧ storesKept m (actTaken q a m) := by
  have hregs : regsKept (pinRegs q) m (actTaken q a m) := refreshFes_keepsRegs q (setFes q _ m)
  have hstores : storesKept m (actTaken q a m) := (pathsKept_refreshFes q (setFes q _ m)).1
  refine ⟨?_, ?_, ?_, hregs, hstores⟩ <;> rw [actTaken, getFes_refreshFes, getFes_setFes_same]

/-- SEQUENCER_ACTION takes the first pending action and executes it. -/
theorem sequencerAction_leaves {q : Nat} {m : Mach} {a : PendAct} (hfirst : firstAct (getFes q m).acts = some a) (hkind : a.kind ≤ 2) :
    (getFes q (sequencerAction q m)).acts = (getFes q m).acts.filter (fun b => b.ser != a.ser) ∧
    (getFes q (sequencerAction q m)).lvl = actLvl a.kind a.mask (getFes q m).lvl ∧
    (a.kind = 2 → (getFes q m).fcb.length < 16 →
      (getFes q (sequencerAction q m)).fcb = (getFes q m).fcb ++ [(a.value % 2 ^ 24, a.at_)]) ∧
    regsKept (pinRegs q) m (sequencerAction q m) ∧ storesKept m (sequencerAction q m) := by
  obtain ⟨x, hx, -⟩ := advanceTo_reaches a.at_ m
  have heq : sequencerAction q m = runAct q a.at_ a.kind a.mask a.value (actTaken q a { m with tod := x }) := by
    simp only [sequencerAction, hfirst, hx]
    rfl
  obtain ⟨hacts, hlvl, hfcb, hregs, hstores⟩ := actTaken_leaves q a { m with tod := x }
  obtain ⟨hacts', hlvl', hfcb', hregs'⟩ := runAct_leaves hkind q a.at_ a.mask a.value (actTaken q a { m with tod := x })
  rw [heq]
  refine ⟨hacts'.trans hacts, ?_, fun htwo hroom => ?_, hregs.trans hregs',
    hstores.trans (pathsKept_runAct q a.at_ a.kind a.mask a.value _).1⟩
  · rw [hlvl', hlvl]
    rfl
  · rw [hfcb] at hfcb'
    exact hfcb' htwo hroom

/-! ### Frames on the front-end bus (R234, R235) -/

/-- The start of a frame due at tick `due` after one that started at tick `last`. -/
def fcbStart (due : Nat) (last : Option Nat) : Nat :=
  match last with
  | some t => max due (t + 64)
  | none => due

theorem le_fcbStart (due : Nat) (last : Option Nat) :
    due ≤ fcbStart due last ∧ ∀ t, last = some t → t + 64 ≤ fcbStart due last := by
  cases last with
  | none => exact ⟨Nat.le_refl due, nofun⟩
  | some t =>
    refine ⟨Nat.le_max_left .., ?_⟩
    rintro _ ⟨⟩
    exact Nat.le_max_right ..

theorem out_refreshFes (q : Nat) (m : Mach) : (refreshFes q m).out = m.out := by
  obtain ⟨_, _, _, _, _, _, _, _, h⟩ := refreshFes_frame q m; rw [h]

theorem out_setEvIf (b : Bool) (f : Fld) (m : Mach) : (setEvIf b f m).out = m.out := by
  obtain ⟨_, _, _, _, _, _, _, h⟩ := setEvIf_frame b f m; rw [h]

theorem fcbFrame_quiet {q : Nat} {m : Mach} (h : (getFes q m).fcb = [] ∨ allSafe q m = true) : fcbFrame q m = m := by
  unfold fcbFrame
  dsimp only
  split
  · rfl
  · next hqueue =>
    rcases h with h | h
    · simp [h] at hqueue
    · rw [if_pos h]

/-- The frame at the head has left the queue `l`; its start is tick `start`. -/
def frameTaken (q : Nat) (l : List (Nat × Nat)) (start : Nat) (m : Mach) : Mach :=
  refreshFes q (setFes q { getFes q m with fcb := l, fcbLast := some start } m)

theorem frameTaken_leaves (q : Nat) (l : List (Nat × Nat)) (start : Nat) (m : Mach) :
    (getFes q (frameTaken q l start m)).fcb = l ∧ (getFes q (frameTaken q l start m)).fcbLast = some start ∧
    (frameTaken q l start m).out = m.out ∧ storesKept m (frameTaken q l start m) := by
  have hstores : storesKept m (frameTaken q l start m) := (pathsKept_refreshFes q (setFes q _ m)).1
  refine ⟨?_, ?_, out_refreshFes q (setFes q _ m), hstores⟩ <;> rw [frameTaken, getFes_refreshFes, getFes_setFes_same]

/-- FCB_FRAME: a delay above 64 ticks is reported. -/
theorem fcbFrame_eq {q w d : Nat} {l : List (Nat × Nat)} {m : Mach} (hqueue : (getFes q m).fcb = (w, d) :: l)
    (hsafe : allSafe q m = false) : fcbFrame q m =
      send (.fcb q (fcbBits w) 26 (fcbStart d (getFes q m).fcbLast))
        (setEvIf (decide (d + 64 < fcbStart d (getFes q m).fcbLast)) (QUAD_FES_EVENTS.act_late q)
          (frameTaken q l (fcbStart d (getFes q m).fcbLast) (advanceTo (fcbStart d (getFes q m).fcbLast) m))) := by
  simp only [fcbFrame, hqueue, hsafe, Bool.false_eq_true, if_false]
  rfl

@[simp] theorem getFes_send (k : Nat) (o : OutMsg) (m : Mach) : getFes k (send o m) = getFes k m := rfl
@[simp] theorem fon_send (f : Fld) (o : OutMsg) (m : Mach) : fon f (send o m) = fon f m := rfl

theorem fcbFrame_leaves {q w d : Nat} {l : List (Nat × Nat)} {m : Mach} (hqueue : (getFes q m).fcb = (w, d) :: l)
    (hsafe : allSafe q m = false) :
    (fcbFrame q m).out = m.out ++ [.fcb q (fcbBits w) 26 (fcbStart d (getFes q m).fcbLast)] ∧ (getFes q (fcbFrame q m)).fcb = l ∧
    (getFes q (fcbFrame q m)).fcbLast = some (fcbStart d (getFes q m).fcbLast) ∧
    (d + 64 < fcbStart d (getFes q m).fcbLast → fon (QUAD_FES_EVENTS.act_late q) (fcbFrame q m) = true) ∧
    storesKept m (fcbFrame q m) := by
  rw [fcbFrame_eq hqueue hsafe]
  generalize fcbStart d (getFes q m).fcbLast = start
  obtain ⟨x, hx, -⟩ := advanceTo_reaches start m
  rw [hx]
  obtain ⟨hfcb, hlast, hout, hstores⟩ := frameTaken_leaves q l start { m with tod := x }
  refine ⟨?_, ?_, ?_, fun hlate => ?_, hstores.trans (storesKept_setEvIf ..)⟩
  · rw [out_send, out_setEvIf, hout]
  · rw [getFes_send, getFes_setEvIf, hfcb]
  · rw [getFes_send, getFes_setEvIf, hlast]
  · obtain ⟨hlog, hlogEvents⟩ := fesRegs_off_log q (QUAD_FES_EVENTS q) (by simp [fesRegs])
    rw [fon_send, decide_eq_true hlate, setEvIf_true]
    exact fon_setEv rfl (show 2 + 1 ≤ 32 by decide) hlog hlogEvents _

/-! ### Bursts (R244, R245) -/

/-- The first transmit slot ahead whose burst is not decided yet. -/
def burstDue (q : Nat) (m : Mach) : Option (Slot × Nat × Nat) :=
  (leadSlots (getFes q m).lead m).find? fun n => decide ((getFes q m).burstDone < n.2.1) && slotTx n.1 q

theorem burstDecision_idle {q : Nat} {m : Mach} (h : timingOn m = false ∨ quadState q m ≠ 2 ∨ burstDue q m = none) :
    burstDecision q m = m := by
  unfold burstDecision
  dsimp only
  split
  · next n hdue =>
    refine if_neg fun hnow => ?_
    rcases h with h | h | h
    · simp [h] at hnow
    · exact h hnow.2
    · exact nomatch hdue.symm.trans h
  · rfl

/-- The burst of the slot from tick `b` is noted as decided, at the time `x`. -/
def burstNoted (q b x : Nat) (m : Mach) : Mach := setFes q { getFes q m with burstDone := b } { m with tod := x }

theorem burstDecision_due {q : Nat} {m : Mach} {n : Slot × Nat × Nat} (hon : timingOn m = true) (hquad : quadState q m = 2)
    (hdue : burstDue q m = some n) : ∃ x, n.2.1 - (getFes q m).lead ≤ x / 2 ∧ burstDecision q m =
      if burstReady q n.2.1 m then fesEvent q 3 n.2.1 (burstNoted q n.2.1 x m) else dropBurst q n.2.1 n.2.2 (burstNoted q n.2.1 x m) := by
  obtain ⟨x, hx, htime⟩ := advanceTo_reaches (n.2.1 - (getFes q m).lead) m
  refine ⟨x, htime hon, ?_⟩
  unfold burstDue at hdue
  simp only [burstDecision, hdue, hon, hquad, hx, and_self, if_true]
  rfl

theorem burstDecision_ready {q : Nat} {m : Mach} {n : Slot × Nat × Nat} (hon : timingOn m = true) (hquad : quadState q m = 2)
    (hdue : burstDue q m = some n) (hready : burstReady q n.2.1 m = true) :
    fget (QUAD_FES_STATUS.state q) (burstDecision q m) = seqTarget q 3 m ∧ (getFes q (burstDecision q m)).drop = (getFes q m).drop ∧
    (getFes q (burstDecision q m)).burstDone = n.2.1 ∧ n.2.1 - (getFes q m).lead ≤ tick (burstDecision q m) ∧
    storesKept m (burstDecision q m) := by
  obtain ⟨x, htime, heq⟩ := burstDecision_due hon hquad hdue
  have hevent := delivered_fesEvent q 3 n.2.1 (burstNoted q n.2.1 x m)
  rw [heq, if_pos hready]
  refine ⟨hevent.state, ?_, ?_, ?_, hevent.stores⟩
  · rw [hevent.drop, burstNoted, getFes_setFes_same]
  · rw [hevent.burstDone, burstNoted, getFes_setFes_same]
  · rw [tick, hevent.tod]
    exact htime

/-- R245: the dropped burst is listed, its flag set and the count one higher, before the pins follow. -/
def dropCounted (q b e : Nat) (m : Mach) : Mach :=
  cnt (QUAD_TX_DROP_COUNT q) 1 0xFFFFFFFF (setEv (QUAD_FES_EVENTS.tx_late q)
    (setFes q { getFes q m with drop := (getFes q m).drop ++ [(b, e)] } m))

theorem getFes_dropCounted (q b e : Nat) (m : Mach) :
    getFes q (dropCounted q b e m) = { getFes q m with drop := (getFes q m).drop ++ [(b, e)] } := by
  have : getFes q (dropCounted q b e m) = getFes q (setEv (QUAD_FES_EVENTS.tx_late q)
    (setFes q { getFes q m with drop := (getFes q m).drop ++ [(b, e)] } m)) := rfl
  rw [this, getFes_setEv, getFes_setFes_same]

theorem regsKept_dropCounted (q b e : Nat) (m : Mach) :
    regsKept [QUAD_FES_EVENTS q, QUAD_TX_DROP_COUNT q, HLT_LOG_WPTR, HLT_EVENTS] m (dropCounted q b e m) :=
  ((regsKept_setEv (QUAD_FES_EVENTS.tx_late q) (setFes q _ m)).mono (by simp [QUAD_FES_EVENTS.tx_late])).trans
    ((regsKept_wr (QUAD_TX_DROP_COUNT q) _ _).mono (by simp))

theorem count_dropCounted (q b e : Nat) (m : Mach) : rd (QUAD_TX_DROP_COUNT q) (dropCounted q b e m) =
    BitVec.ofNat 32 (min 0xFFFFFFFF ((rd (QUAD_TX_DROP_COUNT q) m).toNat + 1)) := by
  obtain ⟨hlog, hlogEvents⟩ := fesRegs_off_log q (QUAD_TX_DROP_COUNT q) (by simp [fesRegs])
  have hother : QUAD_TX_DROP_COUNT q ≠ (QUAD_FES_EVENTS.tx_late q).reg := by
    simp only [QUAD_TX_DROP_COUNT, QUAD_FES_EVENTS.tx_late, QUAD_FES_EVENTS]
    omega
  rw [dropCounted, cnt, rd_wr_same, rd_setEv hother hlog hlogEvents]
  rfl

theorem late_dropCounted (q b e : Nat) (m : Mach) : fon (QUAD_FES_EVENTS.tx_late q) (dropCounted q b e m) = true := by
  obtain ⟨hlog, hlogEvents⟩ := fesRegs_off_log q (QUAD_FES_EVENTS q) (by simp [fesRegs])
  have hother : (QUAD_FES_EVENTS.tx_late q).reg ∉ [QUAD_TX_DROP_COUNT q] := by
    simp only [List.mem_singleton, QUAD_TX_DROP_COUNT, QUAD_FES_EVENTS.tx_late, QUAD_FES_EVENTS]
    omega
  rw [dropCounted, cnt, (regsKept_wr (QUAD_TX_DROP_COUNT q) _ _).fon hother]
  exact fon_setEv rfl (show 0 + 1 ≤ 32 by decide) hlog hlogEvents _

theorem seqKept_sendNat (q k : Nat) (b : NatBody) (m : Mach) : SeqKept q m (sendNat k b m) := by
  obtain ⟨_, _, h⟩ := sendNat_frame k b m
  rw [h]
  exact ⟨⟨rfl, rfl, rfl, rfl, rfl, rfl, rfl⟩, rfl⟩

/-- R245: the pins have followed the dropped burst, and TX_LATE is on the link. -/
def dropTold (q b e : Nat) (m : Mach) : Mach := sendNat 0 (.txLate q b) (refreshFes q (dropCounted q b e m))

theorem dropBurst_eq (q b e : Nat) (m : Mach) : dropBurst q b e m = fesEvent q 2 b (dropTold q b e m) := rfl

theorem seqKept_dropTold (q b e : Nat) (m : Mach) : SeqKept q (dropCounted q b e m) (dropTold q b e m) :=
  (seqKept_refreshFes q _).trans (seqKept_sendNat q ..)

theorem state_dropTold {q : Nat} (hq : q < 4) (b e : Nat) (m : Mach) :
    fget (QUAD_FES_STATUS.state q) (dropTold q b e m) = fget (QUAD_FES_STATUS.state q) m := by
  rw [(seqKept_dropTold q b e m).state]
  refine (regsKept_dropCounted q b e m).fget ?_
  simp only [List.mem_cons, List.not_mem_nil, or_false, not_or, QUAD_FES_STATUS.state, QUAD_FES_STATUS, QUAD_FES_EVENTS,
    QUAD_TX_DROP_COUNT, HLT_LOG_WPTR, HLT_EVENTS, quadBase]
  omega

theorem regsKept_dropTold (q b e : Nat) (m : Mach) : regsKept (burstRegs q) m (dropTold q b e m) := by
  have hcounted := (regsKept_dropCounted q b e m).mono (l' := burstRegs q) (by simp [burstRegs])
  have hpins := (refreshFes_keepsRegs q (dropCounted q b e m)).mono (l' := burstRegs q) (by simp [pinRegs, burstRegs])
  exact (hcounted.trans hpins).trans fun _ _ => rd_sendNat ..

theorem storesKept_dropTold (q b e : Nat) (m : Mach) : storesKept m (dropTold q b e m) :=
  ((storesKept_setEv _ (setFes q _ m)).trans (pathsKept_refreshFes q (dropCounted q b e m)).1).trans (storesKept_sendNat ..)

theorem dropBurst_leaves {q : Nat} (hq : q < 4) (b e : Nat) (m : Mach) :
    (getFes q (dropBurst q b e m)).drop = (getFes q m).drop ++ [(b, e)] ∧
    (getFes q (dropBurst q b e m)).burstDone = (getFes q m).burstDone ∧ fon (QUAD_FES_EVENTS.tx_late q) (dropBurst q b e m) = true ∧
    rd (QUAD_TX_DROP_COUNT q) (dropBurst q b e m) =
      BitVec.ofNat 32 (min 0xFFFFFFFF ((rd (QUAD_TX_DROP_COUNT q) m).toNat + 1)) ∧
    fget (QUAD_FES_STATUS.state q) (dropBurst q b e m) = seqTarget q 2 m ∧ storesKept m (dropBurst q b e m) := by
  have htold := seqKept_dropTold q b e m
  have hevent := delivered_fesEvent q 2 b (dropTold q b e m)
  rw [dropBurst_eq]
  refine ⟨?_, ?_, ?_, ?_, ?_, (storesKept_dropTold q b e m).trans hevent.stores⟩
  · rw [hevent.drop, htold.drop, getFes_dropCounted]
  · rw [hevent.burstDone, htold.burstDone, getFes_dropCounted]
  · rw [hevent.late, htold.late, late_dropCounted]
  · rw [hevent.count, htold.count, count_dropCounted]
  · rw [hevent.state, seqTarget_of_regsKept hq (regsKept_dropTold q b e m) (state_dropTold hq b e m)]

theorem burstDecision_drops {q : Nat} (hq : q < 4) {m : Mach} {n : Slot × Nat × Nat} (hon : timingOn m = true)
    (hquad : quadState q m = 2) (hdue : burstDue q m = some n) (hready : burstReady q n.2.1 m = false) :
    (getFes q (burstDecision q m)).drop = (getFes q m).drop ++ [(n.2.1, n.2.2)] ∧ (getFes q (burstDecision q m)).burstDone = n.2.1 ∧
    fon (QUAD_FES_EVENTS.tx_late q) (burstDecision q m) = true ∧
    rd (QUAD_TX_DROP_COUNT q) (burstDecision q m) =
      BitVec.ofNat 32 (min 0xFFFFFFFF ((rd (QUAD_TX_DROP_COUNT q) m).toNat + 1)) ∧
    fget (QUAD_FES_STATUS.state q) (burstDecision q m) = seqTarget q 2 m ∧ storesKept m (burstDecision q m) := by
  obtain ⟨x, -, heq⟩ := burstDecision_due hon hquad hdue
  have h := dropBurst_leaves hq n.2.1 n.2.2 (burstNoted q n.2.1 x m)
  rw [show getFes q (burstNoted q n.2.1 x m) = { getFes q m with burstDone := n.2.1 } from getFes_setFes_same ..] at h
  rw [heq, if_neg (by simp [hready])]
  exact h

/-! ### The statement -/

theorem exec_frame (q : Fin 4) (s : State) : exec (.frame q) s = .next (s.withM (evFrame q s.m)) := rfl
theorem exec_timer (q : Fin 4) (s : State) : exec (.timer q) s = .next (s.withM (evTimer q s.m)) := rfl
theorem exec_sequencerAction (q : Fin 4) (s : State) : exec (.sequencerAction q) s = .next (s.withM (sequencerAction q s.m)) := rfl
theorem exec_fcbFrame (q : Fin 4) (s : State) : exec (.fcbFrame q) s = .next (s.withM (fcbFrame q s.m)) := rfl
theorem exec_burstDecision (q : Fin 4) (s : State) : exec (.burstDecision q) s = .next (s.withM (burstDecision q s.m)) := rfl

theorem exec_sw {q : Fin 4} {s : State} (h : reach (QUAD_FES_SW q.val) s.m = true) :
    exec (.sw q) s = .next (s.withM (fesNow q.val 15 s.m)) := answer_gate_reach h _

/-- Settles O41: an event takes a sequencer to `seqTarget`, and what it schedules leaves the rest of the plan (`PlanKept`). That a timed
command moves the time to its instant, which bounds the tick from below, is log entry 1; a SLOT_GAP that meets a trick (R282) is not in the
statement. -/
theorem frontEndSequencersFollowEvents : Obligations.FrontEndSequencersFollowEvents := by
  unfold Obligations.FrontEndSequencersFollowEvents
  intro s q st goes x
  have hq : q.val < 4 := q.isLt
  have hgoes : ∀ c, goes c = seqTarget q.val c s.m := fun _ => rfl
  refine ⟨fun e he htrick => ⟨fun n hdue hon hcode => ?_, fun hidle => ?_⟩, fun hon => ?_, fun hoff => ?_, fun y htimer => ?_,
    fun hnone => ?_, fun hreach => ?_, fun hnone => ?_, fun a hfirst hkind => ?_, fun hquiet => ?_, fun w d l hqueue hsafe => ?_,
    fun hidle => ?_, fun n hon hquad hdue => ⟨fun hready => ?_, fun hready => ?_⟩⟩
  · rw [hgoes]
    exact ⟨_, exec_slotCommands he htrick, evSlot_leaves hdue hon hcode⟩
  · rw [exec_slotCommands he htrick, evSlot_idle hidle]
  · rw [hgoes]
    exact ⟨_, exec_frame q s, evFrame_leaves hon⟩
  · rw [exec_frame, evFrame, if_neg (by simp [hoff])]
  · rw [hgoes]
    exact ⟨_, exec_timer q s, evTimer_leaves htimer⟩
  · rw [exec_timer, evTimer, hnone]
  · rw [hgoes]
    obtain ⟨hstate, -, hstores⟩ := fesNow_leaves q.val 15 s.m
    exact ⟨_, exec_sw hreach, hstate, hstores⟩
  · rw [exec_sequencerAction, sequencerAction, hnone]
  · exact ⟨_, exec_sequencerAction q s, sequencerAction_leaves hfirst hkind⟩
  · rw [exec_fcbFrame, fcbFrame_quiet hquiet]
  · obtain ⟨hout, hfcb, hlast, hlate, hstores⟩ := fcbFrame_leaves hqueue hsafe
    obtain ⟨hdue, hgap⟩ := le_fcbStart d (getFes q.val s.m).fcbLast
    exact ⟨_, _, exec_fcbFrame q s, hout, hfcb, hdue, hgap, hlast, hlate, hstores⟩
  · rw [exec_burstDecision, burstDecision_idle hidle]
  · rw [hgoes]
    exact ⟨_, exec_burstDecision q s, burstDecision_ready hon hquad hdue hready⟩
  · rw [hgoes]
    exact ⟨_, exec_burstDecision q s, burstDecision_drops hq hon hquad hdue hready⟩

end Sys2Proof.Machine

/-! SUPPORT. The end of an adaptation capture (R260, R261): what the receiver's chain shows once the core has formed the samples that
were still on their way. -/

namespace Sys2Proof.Machine

/-- A capture of path 0 during which the receiver's coupler moved: R261 discards it. -/
def movedCapture : PdCap :=
  { path := 0, tick := 0, len := 4096, a := 0, nbs := [], bank := [], done := false, bad := true, delay := 0, bytes := 0, z := [], win := [] }

/-- An ACTIVE device with quadrant 0 RUNNING, whose observation receiver 0 takes `movedCapture` at nstages = 2. The last output of its
chain was SETTLING, and a synchronising reset has emptied the chain since; one sample, tagged GAP, is on its way to it. -/
def gapOnItsWay : State :=
  let m : Mach := { power := .coreRun, rx := [(64, { asm := [gapSample] })], pdCap := [(0, some movedCapture)] }
  let running := fset (GCTL_QUAD_STATE.st_q 0) 2 (fset GCTL_DEV_STATE.state 5 m)
  { m := fset (QUAD_DDC_STATUS.settling (.obs 0)) 1 (fset (QUAD_DDC_STATUS.nstages_act (.obs 0)) 2 running), pending := [] }

theorem exec_pdCaptureEnd (o : Fin 8) (d : Fin 256) (f : Fin 16) (al : Bool) (s : State) :
    exec (.pdCaptureEnd o d f al) s = .next (s.withM (pdCapEnd o (16 * d + f) al s.m)) := rfl

theorem getPdCap_gapOnItsWay : getPdCap 0 gapOnItsWay.m = some movedCapture := by decide

/-- The moved coupler discards the capture, though its peak is a good one. -/
theorem capDiscarded_gapOnItsWay :
    capDiscarded 0 (capClosed 0 movedCapture gapOnItsWay.m).1 true (capClosed 0 movedCapture gapOnItsWay.m).2 = true := by
  decide

theorem settling_gapOnItsWay : fon (QUAD_DDC_STATUS.settling (.obs 0)) gapOnItsWay.m = true := by decide

/-- The chain's output from the sample on its way is GAP, so `settling` has fallen when the capture has ended. -/
theorem settling_pdCapEnd_gapOnItsWay :
    fon (QUAD_DDC_STATUS.settling (.obs 0)) (pdCapEnd 0 2048 true gapOnItsWay.m) = false := by
  decide

/-- Refutes O42: it says that a discarded capture changes no register but the path's QUAD_PD_CYCLES and RES_PART_USE 2. The core forms
every sample of the window before the capture ends, and what the receiver's chain shows follows them: in `gapOnItsWay` the chain's last
output becomes GAP, which clears QUAD_DDC_STATUS.settling. -/
theorem not_predistortionBanksAdapt : ¬ Obligations.PredistortionBanksAdapt := by
  unfold Obligations.PredistortionBanksAdapt
  intro h
  obtain ⟨-, -, hend, -, -⟩ := h gapOnItsWay
  obtain ⟨-, hheld⟩ := hend 0 128 0 true
  obtain ⟨-, hdiscard⟩ := hheld movedCapture getPdCap_gapOnItsWay rfl (by decide)
  obtain ⟨t, hexec, -, -, hregs, -⟩ := hdiscard capDiscarded_gapOnItsWay
  have ht : pdCapEnd 0 2048 true gapOnItsWay.m = t := next_withM_inj ((exec_pdCaptureEnd 0 128 0 true gapOnItsWay).symm.trans hexec)
  have hkept : fon (QUAD_DDC_STATUS.settling (.obs 0)) t = fon (QUAD_DDC_STATUS.settling (.obs 0)) gapOnItsWay.m :=
    hregs.fon (by decide)
  rw [← ht, settling_pdCapEnd_gapOnItsWay, settling_gapOnItsWay] at hkept
  exact absurd hkept (by decide)

end Sys2Proof.Machine

/-! SUPPORT. A carrier that moves while a calibration trick is being estimated (R276, R279, R460), which refutes O43. -/

namespace Sys2Proof.Machine

/-! ### What a publication leaves of the amplitudes (R279, R291) -/

/-- The words of a correction differ in their address modulo 16. -/
theorem corrReg_mod (n k : Nat) {i : Nat} (hi : i < 4) : corrReg n k i % 16 = 4 * i := by
  unfold corrReg CAL_PATH_w kindWord
  split_ifs <;> omega

/-- The corrections' registers follow the other registers of CAL, and the blocks after CAL follow them. -/
theorem corrReg_range {n i : Nat} (hn : n < 64) (hi : i < 4) (k : Nat) : 0x901000 ≤ corrReg n k i ∧ corrReg n k i < 0x902000 := by
  unfold corrReg CAL_PATH_w kindWord
  split_ifs <;> omega

/-- R291: an uncertainty is in the fourth word of its kind, the amplitude in the first. -/
theorem corrAmp_refreshUnc (n k n' k' : Nat) (m : Mach) : corrAmp n k (refreshUnc n' k' m) = corrAmp n k m := by
  have hne : corrReg n k 0 ≠ corrReg n' k' 3 := by
    have hamp := corrReg_mod n k (i := 0) (by decide)
    have hunc := corrReg_mod n' k' (i := 3) (by decide)
    omega
  rw [corrAmp, refreshUnc, rd_fset_other hne, corrAmp]

theorem corrAmp_wr {a n : Nat} (hn : n < 64) (ha : a < 0x901000) (k : Nat) (v : W) (m : Mach) :
    corrAmp n k (wr a v m) = corrAmp n k m := by
  obtain ⟨hlow, -⟩ := corrReg_range hn (i := 0) (by decide) k
  rw [corrAmp, rd_wr_other (by omega), corrAmp]

/-- No event of CAL and no log entry touches an amplitude. -/
theorem corrAmp_setEv {f : Fld} {n : Nat} (hn : n < 64) (hf : f.reg < 0x901000) (k : Nat) (m : Mach) :
    corrAmp n k (setEv f m) = corrAmp n k m := by
  obtain ⟨hlow, hhigh⟩ := corrReg_range hn (i := 0) (by decide) k
  have hptr : corrReg n k 0 ≠ HLT_LOG_WPTR := by unfold HLT_LOG_WPTR; omega
  have hlog : corrReg n k 0 ≠ HLT_EVENTS := by unfold HLT_EVENTS; omega
  rw [corrAmp, rd_setEv (by omega) hptr hlog, corrAmp]

theorem corrAmp_recomputeUnc {n : Nat} (hn : n < 64) (k : Nat) (m : Mach) :
    corrAmp n k (recomputeUnc m) = corrAmp n k m := by
  unfold recomputeUnc
  extract_lets m1
  have hunc : corrAmp n k m1 = corrAmp n k m :=
    each_keeps (corrAmp n k) paths64 _ (fun p _ s => each_keeps (corrAmp n k) _ _ (fun j _ => corrAmp_refreshUnc n k p j) s) m
  cases fcFar false m1 || fcFar true m1
  · exact hunc
  · exact (corrAmp_setEv hn (by decide) k m1).trans hunc

/-- R276: of what a publication does, only that the corrections follow the carriers and the states moves an amplitude. -/
theorem corrAmp_publish {n : Nat} (hn : n < 64) (k : Nat) (m : Mach) :
    corrAmp n k (publish m) = corrAmp n k (refreshStates m) := by
  have hhidden : ∀ f g u, corrAmp n k (setCal f (setMesh g u)) = corrAmp n k u := fun _ _ _ => rfl
  unfold publish
  extract_lets m1
  rw [corrAmp_setEv hn (by decide), corrAmp_wr hn (by decide), hhidden]
  exact corrAmp_recomputeUnc hn k (refreshStates m)

/-! ### The state -/

/-- The trick of kind 0 on path 0, accepted. -/
def toneTrick : Trick :=
  { kind := 0, group := 0, paths := [0], unit := none, ded := none, start := 0, w := 512, ok := [0], quadsAt := [], starts := [] }

/-- Its measurement at two tones: as strong as the pilot at the first, twice as strong at the second. -/
def toneMeas : PathMeas :=
  { path := 0, r := [(2 ^ 30, 0), (2 ^ 31, 0)], obs := [], scatA := 0, scatP := 0, scatD := 0 }

/-- A STANDBY twin in WARM with quadrant 0 IDLE, while `toneTrick` is being estimated: tones at 850 000 and 850 240 kHz, the uplink
carrier at 849 760 kHz, and the corrections at that carrier. The production table's CRC failed, so that its entries read 1. -/
def estimatingTwin : Mach :=
  let m : Mach := { power := .coreRun, cal := { est := some toneTrick, fcUl := 849760 }, nvm := { remap := { prodBad := true } } }
  let twin := fset (GCTL_QUAD_STATE.st_q 0) 1 (fset GCTL_DEV_STATE.state 4 (fset HLT_TWIN_STATUS.role_act 2 m))
  fset CAL_REF_CFG.n_tones 2 (fset CAL_REF_CFG.sp 1 (fset CAL_REF_FREQ.f_cal 850000 (fset BMU_UL_FC.fc 849760 twin)))

/-- The PRIMARY's change of the uplink carrier to 850 000 kHz, for a slot boundary that has passed. -/
def lateCarrier : MirChange := { crcOk := true, seq := 0, at_ := 0, body := .carrier .ul 850000#32 }

/-- R460: the change applies at once, the estimation still running. -/
def movedCarrier : State := { m := mirrorChange lateCarrier estimatingTwin, pending := [] }

/-- The same, once the measurement has been taken. -/
def movedCarrierTaken : Mach :=
  trickOver toneTrick (takeAll toneTrick [toneMeas] (setCal (fun c => { c with est := none }) movedCarrier.m))

theorem exec_correctionPublish (l : List PathMeas) (s : State) :
    exec (.correctionPublish l) s = .next (s.withM (correctionPublish l s.m)) := rfl

theorem est_movedCarrier : movedCarrier.m.cal.est = some toneTrick := by decide

theorem correctionPublish_movedCarrier : correctionPublish [toneMeas] movedCarrier.m = publish movedCarrierTaken := by
  rw [correctionPublish, est_movedCarrier]
  rfl

/-- The fit at the carrier in force, 850 000 kHz: the first tone's ratio is 1, so its correction is 0 dB. -/
theorem measured_movedCarrier : (measured 0 0 toneMeas.r movedCarrier.m).1.1 = 0 := by decide

/-- The publication moves that amplitude along its slope as from 849 760 kHz, by −6.0206 dB. -/
theorem corrAmp_refreshStates_movedCarrier : corrAmp 0 0 (refreshStates movedCarrierTaken) = -60206 := by decide +kernel

/-- Refutes O43: it says that the first measurement of a path's kind 0 is its correction once published, in every state. The
measurement is fitted at the carrier that BMU_UL_FC holds, and the publication then moves every amplitude along its slope from the
carrier of the corrections, `fcUl`, to that one. The two differ where a STANDBY has taken a late mirrored carrier since the last slot
boundary: in `movedCarrier` path 0 measures 0 dB, and −6.0206 dB is published. -/
theorem not_calibrationTricksMeasureAndPublish : ¬ Obligations.CalibrationTricksMeasureAndPublish := by
  unfold Obligations.CalibrationTricksMeasureAndPublish
  intro h
  obtain ⟨-, -, -, -, -, -, -, -, hpublish, -⟩ := h movedCarrier
  obtain ⟨t, hexec, -, -, -, -, -, -, -, hfirst⟩ := hpublish toneTrick [toneMeas] est_movedCarrier
  have ht : publish movedCarrierTaken = t := by
    rw [← correctionPublish_movedCarrier]
    exact next_withM_inj ((exec_correctionPublish [toneMeas] movedCarrier).symm.trans hexec)
  obtain ⟨hamp, -⟩ := hfirst toneMeas rfl rfl rfl (by decide) (by decide)
  rw [← ht, corrAmp_publish (by decide)] at hamp
  have hpath : toneMeas.path.val = 0 := rfl
  rw [hpath, corrAmp_refreshStates_movedCarrier, measured_movedCarrier] at hamp
  exact absurd hamp (by decide)

end Sys2Proof.Machine

/-! SUPPORT. What holds of every instruction that runs on its own tile alone (R298, R313), and the sequencer of a signal tile (R313,
R315). -/

namespace Sys2Proof.Machine

/-! ### Instructions of one tile -/

/-- The command `c` is the run of its instruction on physical tile `t`, and nothing more. -/
def runsOn (t : Fin 144) (c : Instr) : Prop :=
  ∀ s : State, ∃ (ev : Nat) (f : Tile → TOut), exec c s = .next (s.withM (runTile c t ev f s.m))

/-- A branch is the run of one instruction, whichever way it goes. -/
theorem branchIf_eq_runTile (i : Instr) (t : Fin 144) (p : Tile → Bool) (tgt : BitVec 12) (m : Mach) : ∃ (ev : Nat) (f : Tile → TOut),
    branchIf i t p tgt m = runTile i t ev f m := by
  unfold branchIf
  split
  · exact ⟨2, _, rfl⟩
  · exact ⟨1, _, rfl⟩

theorem runsOn_jz (t : Fin 144) (d : Fin 16) (tgt : BitVec 12) : runsOn t (.jz t d tgt) := fun s => by
  obtain ⟨ev, f, hrun⟩ := branchIf_eq_runTile (.jz t d tgt) t (fun x => x.s d == 0#32) tgt s.m
  exact ⟨ev, f, hrun ▸ rfl⟩

theorem runsOn_jnz (t : Fin 144) (d : Fin 16) (tgt : BitVec 12) : runsOn t (.jnz t d tgt) := fun s => by
  obtain ⟨ev, f, hrun⟩ := branchIf_eq_runTile (.jnz t d tgt) t (fun x => x.s d != 0#32) tgt s.m
  exact ⟨ev, f, hrun ▸ rfl⟩

section
variable {t : Fin 144} {c : Instr} {s : State}

/-- R298: a tile that is not RUNNING, or is paused, takes no instruction. -/
theorem runsOn.idle (hrun : runsOn t c) (h : (getTile t s.m).state ≠ 1 ∨ (getTile t s.m).paused = true) : exec c s = .next s := by
  obtain ⟨ev, f, hexec⟩ := hrun s
  have hsame : runTile c t ev f s.m = s.m := if_pos h
  rw [hexec, hsame]

theorem runTile_otherWord (h : tileRuns t s) (hpc : ¬ atPc t c s) (ev : Nat) (f : Tile → TOut) : runTile c t ev f s.m =
    if wordLegal (getTile t s.m).wordAtPc then s.m else vendorReload t (commitTile t ((getTile t s.m).faulted 1) s.m) := by
  obtain ⟨hstate, hpaused⟩ := h
  have hword : (getTile t s.m).wordAtPc ≠ tileCode c := hpc
  unfold runTile
  dsimp only
  rw [if_neg (by simp [hstate, hpaused]), if_pos hword]

/-- Where another word of the table stands at the PC, the command is nothing. -/
theorem runsOn.otherWord (hrun : runsOn t c) (h : tileRuns t s) (hpc : ¬ atPc t c s)
    (hlegal : wordLegal (getTile t s.m).wordAtPc = true) : exec c s = .next s := by
  obtain ⟨ev, f, hexec⟩ := hrun s
  rw [hexec, runTile_otherWord h hpc, if_pos hlegal]

/-- R317: the tile that `c` leaves in FAULT, of a tile of yours. -/
theorem tileFaults_of_exec {code : Nat}
    (hexec : exec c s = .next (s.withM (vendorReload t (commitTile t ((getTile t s.m).faulted code) s.m)))) : tileFaults t code c s := by
  intro howner
  have hleft := tileBecomes_commitTile t ((getTile t s.m).faulted code) s.m
  have hyours : (getTile t (commitTile t ((getTile t s.m).faulted code) s.m)).owner = 0 := by rw [hleft.1]; exact howner
  rw [vendorReload_yours hyours] at hexec
  exact ⟨_, hexec, hleft⟩

/-- R313: a word outside the table is ILLEGAL, whatever command finds it. -/
theorem runsOn.illegalWord (hrun : runsOn t c) (h : tileRuns t s) (hpc : ¬ atPc t c s)
    (hillegal : wordLegal (getTile t s.m).wordAtPc = false) : tileFaults t 1 c s := by
  obtain ⟨ev, f, hexec⟩ := hrun s
  rw [runTile_otherWord h hpc, hillegal] at hexec
  exact tileFaults_of_exec hexec

end

section
variable (t : Fin 144) (tgt : BitVec 12) (d a b : Fin 16) (n : BitVec 14) (k : BitVec 16) (f4 p4 : BitVec 4) (k8 : BitVec 8)
  (cb v : Fin 8) (r : Fin 4) (h g : BitVec 5) (j : Bool)

/-- Every instruction but VIN and MOVO, which move samples of other tiles too, runs on its own tile alone. -/
theorem runsOn_of_mem : ∀ c ∈ [Instr.nop t, .halt t, .jmp t tgt, .jz t d tgt, .jnz t d tgt, .call t tgt, .ret t, .loop t n tgt,
    .loops t d tgt, .waitslot t, .signal t k8, .ldi t d k, .ldih t d k, .alu t d a b f4, .addi t d a tgt, .rdsp t d k8, .wrsp t a k8,
    .ldw t cb d, .stw t cb a, .cbset t cb r a, .vld t cb v, .vst t cb v, .clr t k8, .mac t cb v k8, .cmac t cb v j p4,
    .accw t cb j k8, .ldacc t cb j k8, .red t k8, .cred t p4, .movs t cb p4, .movw t cb j k8, .setsh t h g, .sclr t j,
    .sacc t k8, .smem t cb j k8, .xfer t cb a b j, .waitx t, .ckpt t], runsOn t c := by
  simp only [List.forall_mem_cons, List.not_mem_nil, false_implies, implies_true, and_true]
  refine ⟨?_, ?_, ?_, runsOn_jz t d tgt, runsOn_jnz t d tgt, ?_⟩
  on_goal 4 => and_intros
  all_goals exact fun _ => ⟨_, _, rfl⟩

end

/-! ### The sequencer (R313, R315) -/

section
variable {x : Tile} {l e n : Nat} {r : List (Nat × Nat × Nat)}

theorem next_noLoop (h : x.loops = []) : x.next.pc = (x.pc + 1) % 4096 ∧ x.next.loops = [] := by
  simp [Tile.next, h, endLoops]

theorem next_inLoop (h : x.loops = (l, e, n) :: r) (he : e ≠ x.pc) :
    x.next.pc = (x.pc + 1) % 4096 ∧ x.next.loops = x.loops := by
  simp [Tile.next, h, endLoops, he]

theorem next_loopRepeats (h : x.loops = (l, e, n) :: r) (he : e = x.pc) (hn : 1 < n) :
    x.next.pc = l ∧ x.next.loops = (l, e, n - 1) :: r := by
  simp [Tile.next, h, endLoops, he, hn]

/-- An instruction at which no loop ends goes on at the next. -/
theorem endLoops_elsewhere {p q : Nat} (h : ∀ y ∈ r, y.2.1 ≠ p) : endLoops p q r = (q, r) := by
  cases r with
  | nil => rfl
  | cons y r => exact if_neg (h y List.mem_cons_self)

theorem next_loopEnds (h : x.loops = (l, e, n) :: r) (he : e = x.pc) (hn : n ≤ 1) (hr : ∀ y ∈ r, y.2.1 ≠ x.pc) :
    x.next.pc = (x.pc + 1) % 4096 ∧ x.next.loops = r := by
  simp [Tile.next, h, endLoops, he, Nat.not_lt.2 hn, endLoops_elsewhere hr]

/-- R315: the loops that a jump keeps are outer ones. -/
theorem leaveLoops_suffix (g : Nat) (r : List (Nat × Nat × Nat)) : leaveLoops g r <:+ r := by
  unfold leaveLoops
  rw [← List.reverse_prefix, List.reverse_reverse]
  exact List.takeWhile_prefix _

/-- R315: a loop that a jump keeps contains the target. -/
theorem leaveLoops_contain {g : Nat} {y : Nat × Nat × Nat} (h : y ∈ leaveLoops g r) : y.1 ≤ g ∧ g ≤ y.2.1 :=
  of_decide_eq_true (List.mem_takeWhile_imp (p := fun y : Nat × Nat × Nat => decide (y.1 ≤ g ∧ g ≤ y.2.1)) (List.mem_reverse.1 h))

/-- R315: where every loop contains the target, a jump keeps them all. -/
theorem leaveLoops_all {g : Nat} (h : ∀ y ∈ r, y.1 ≤ g ∧ g ≤ y.2.1) : leaveLoops g r = r := by
  unfold leaveLoops
  rw [List.takeWhile_eq_self_iff.2 fun y hy => decide_eq_true (h y (List.mem_reverse.1 hy)), List.reverse_reverse]

/-! ### The start of a loop (R313, R315) -/

theorem startLoop_endBehind (h : e < x.pc + 1) (n : Nat) : startLoop n e x = .fault 6 := if_pos h

theorem startLoop_noTurn (h : x.pc + 1 ≤ e) : startLoop 0 e x = .done ({ x with pc := e }.next) := if_neg (Nat.not_lt.2 h)

theorem startLoop_tooDeep (h : x.pc + 1 ≤ e) (hn : n ≠ 0) (hdeep : 4 ≤ x.loops.length) : startLoop n e x = .fault 6 := by
  rw [startLoop, if_neg (Nat.not_lt.2 h), if_neg hn, if_pos hdeep]

theorem startLoop_enters (h : x.pc + 1 ≤ e) (hn : n ≠ 0) (hroom : x.loops.length < 4) : startLoop n e x =
    .done { x with pc := (x.pc + 1) % 4096, loops := (x.pc + 1, e, n) :: x.loops } := by
  rw [startLoop, if_neg (Nat.not_lt.2 h), if_neg hn, if_neg (Nat.not_le.2 hroom)]

end

/-! ### Each instruction of the sequencer -/

section
variable {t : Fin 144} {s : State} {i : Instr} {p : Tile → Bool} {tgt : BitVec 12}

theorem branch_taken (h : tileRuns t s) (hexec : exec i s = .next (s.withM (branchIf i t p tgt s.m)))
    (hp : p (getTile t s.m) = true) : tileLeft t 2 ((getTile t s.m).jump tgt.toNat) i s := by
  rw [branchIf, if_pos hp] at hexec
  exact tileLeft_of_done h hexec rfl

theorem branch_notTaken (h : tileRuns t s) (hexec : exec i s = .next (s.withM (branchIf i t p tgt s.m)))
    (hp : p (getTile t s.m) = false) : tileLeft t 1 (getTile t s.m).next i s := by
  rw [branchIf, if_neg (by simp [hp])] at hexec
  exact tileLeft_of_done h hexec rfl

theorem call_pushes (h : tileRuns t s) (hroom : (getTile t s.m).call.length < 8) : tileLeft t 2
    { (getTile t s.m).jump tgt.toNat with call := ((getTile t s.m).pc + 1) % 4096 :: (getTile t s.m).call } (.call t tgt) s :=
  tileLeft_of_done h rfl (if_neg (Nat.not_le.2 hroom))

theorem call_overflows (h : tileRuns t s) (hfull : 8 ≤ (getTile t s.m).call.length) : tileStops t 5 (.call t tgt) s :=
  tileStops_of_fault h rfl (if_pos hfull)

theorem ret_pops (h : tileRuns t s) {g : Nat} {l : List Nat} (hcall : (getTile t s.m).call = g :: l) :
    tileLeft t 2 { (getTile t s.m).jump g with call := l } (.ret t) s :=
  tileLeft_of_done h rfl (by rw [hcall])

theorem ret_underflows (h : tileRuns t s) (hcall : (getTile t s.m).call = []) : tileStops t 5 (.ret t) s :=
  tileStops_of_fault h rfl (by rw [hcall])

/-- LOOP and LOOPS, by the number of turns. -/
theorem exec_startLoop {c : Instr} {n : Nat} {e : BitVec 12} (hc : (∃ w : BitVec 14, c = .loop t w e ∧ n = w.toNat) ∨
    ∃ d : Fin 16, c = .loops t d e ∧ n = ((getTile t s.m).s d).toNat % 65536) : ∃ f : Tile → TOut,
    f (getTile t s.m) = startLoop n e.toNat (getTile t s.m) ∧ exec c s = .next (s.withM (runTile c t 1 f s.m)) := by
  rcases hc with ⟨w, rfl, rfl⟩ | ⟨d, rfl, rfl⟩ <;> exact ⟨_, rfl, rfl⟩

/-- The tile that has posted code `k` (R313). -/
def Tile.signalled (x : Tile) (k : Nat) : Tile :=
  { x with signal := k, events := (if x.events.getLsbD 3 then x.events ||| 16#32 else x.events) ||| 8#32 }

theorem signalled_eq (x : Tile) (k : Nat) :
    ({ (x.evIf (x.events.getLsbD 3) 4).ev 3 with signal := k } : Tile) = x.signalled k := by
  unfold Tile.evIf Tile.signalled
  split <;> rfl

theorem signal_posts (h : tileRuns t s) (k : BitVec 8) : ∃ y : Tile, tileLeft t 1 y (.signal t k) s ∧ y.signal = k.toNat ∧
    y.events = (if (getTile t s.m).events.getLsbD 3 then (getTile t s.m).events ||| 16#32 else (getTile t s.m).events) ||| 8#32 ∧
    { y with signal := (getTile t s.m).signal, events := (getTile t s.m).events } = (getTile t s.m).next :=
  ⟨((getTile t s.m).signalled k.toNat).next, tileLeft_of_done h rfl (by rw [signalled_eq]), rfl, rfl, rfl⟩

theorem exec_waitslotResume (t : Fin 144) (s : State) : exec (.waitslotResume t) s = .next (s.withM (doWaitslotResume t s.m)) := rfl

end

/-- Settles O46: by `runsOn`, what every instruction of one tile does that is not at its PC; then the sequencer's own functions, and each
of its instructions by `tileLeft_of_done` and `tileStops_of_fault`. -/
theorem tileControlFlow : Obligations.TileControlFlow := by
  unfold Obligations.TileControlFlow
  intro s t x
  refine ⟨fun hidle tgt d a b n k f4 p4 k8 cb v r h g j c hc =>
      (runsOn_of_mem t tgt d a b n k f4 p4 k8 cb v r h g j c hc).idle hidle,
    fun hstate hpaused tgt d a b n k f4 p4 k8 cb v r h g j c hc hpc => ?_, next_noLoop,
    fun l e n r h => ⟨next_inLoop h, next_loopRepeats h, next_loopEnds h⟩,
    fun g => ⟨rfl, leaveLoops_suffix g _, fun l hl => leaveLoops_contain hl, leaveLoops_all⟩,
    fun hstate hpaused => ?_, fun hstate hstall => ?_, fun hother => ?_⟩
  · have hrun := runsOn_of_mem t tgt d a b n k f4 p4 k8 cb v r h g j c hc
    exact ⟨hrun.otherWord ⟨hstate, hpaused⟩ hpc, hrun.illegalWord ⟨hstate, hpaused⟩ hpc⟩
  · have h : tileRuns t s := ⟨hstate, hpaused⟩
    refine ⟨tileLeft_of_done h rfl rfl, tileLeft_of_done h rfl rfl, fun tgt => ⟨tileLeft_of_done h rfl rfl, fun d => ⟨?_, ?_⟩,
      call_pushes h, call_overflows h⟩, fun g l => ret_pops h, ret_underflows h, fun c n e hc => ?_, tileLeft_of_done h rfl rfl,
      signal_posts h⟩
    · exact fun hzero => ⟨branch_taken h rfl (beq_iff_eq.2 hzero), branch_notTaken h rfl (bne_eq_false_iff_eq.2 hzero)⟩
    · exact fun hset => ⟨branch_notTaken h rfl (beq_eq_false_iff_ne.2 hset), branch_taken h rfl (bne_iff_ne.2 hset)⟩
    · obtain ⟨f, hf, hexec⟩ := exec_startLoop hc
      exact ⟨fun he => tileStops_of_fault h hexec (hf.trans (startLoop_endBehind he n)),
        fun he hn hdeep => tileStops_of_fault h hexec (hf.trans (startLoop_tooDeep he hn hdeep)),
        fun he hn hroom => tileLeft_of_done h hexec (hf.trans (startLoop_enters he hn hroom)),
        fun he hn => tileLeft_of_done h hexec (hf.trans (hn ▸ startLoop_noTurn he))⟩
  · rw [exec_waitslotResume, doWaitslotResume, if_pos ⟨hstate, hstall⟩]
    rfl
  · rw [exec_waitslotResume, doWaitslotResume, if_neg fun ⟨hstate, hstall⟩ => hother.elim (· hstate) (· hstall)]

end Sys2Proof.Machine

/-! SUPPORT. Scalar registers, special registers and buffer registers of a signal tile (R300, R308, R313, R316). -/

namespace Sys2Proof.Machine

/-! ### Scalar registers (R300) -/

theorem s_zero (x : Tile) : x.s 0 = 0#32 := rfl

theorem setS_zero (x : Tile) (v : W) : x.setS 0 v = x := rfl

theorem s_setS (x : Tile) {d : Nat} (hd : d ≠ 0) (v : W) (e : Nat) : (x.setS d v).s e = if e = d then v else x.s e := by
  by_cases he : e = 0
  · rw [he, s_zero, if_neg hd.symm, s_zero]
  · simp only [Tile.s, Tile.setS, if_neg he, if_neg hd, tabGet_tabPut]

/-- The half of a word that LDIH writes. -/
theorem wset_high (v : W) (k : BitVec 16) :
    (wset v 16 16 k.toNat).extractLsb' 16 16 = k ∧ (wset v 16 16 k.toNat).extractLsb' 0 16 = v.extractLsb' 0 16 := by
  have hhigh : wfld (wset v 16 16 k.toNat) 16 16 = k.toNat :=
    (wfld_wset_same v 16 16 _ (by decide)).trans (Nat.mod_eq_of_lt k.isLt)
  have hlow : wfld (wset v 16 16 k.toNat) 0 16 = wfld v 0 16 := wfld_wset_other v 16 16 _ 0 16 (by decide) (.inr (by decide))
  exact ⟨BitVec.eq_of_toNat_eq hhigh, BitVec.eq_of_toNat_eq hlow⟩

/-! ### ALU, and the special registers (R313, R316) -/

/-- The lesser of two signed words; either where they are equal. -/
theorem ite_slt_min (u v : W) : (if v.slt u then v else u) = if u.toInt < v.toInt then u else v := by
  simp only [BitVec.slt_iff_toInt_lt]
  rcases Int.lt_trichotomy u.toInt v.toInt with h | h | h
  · rw [if_pos h, if_neg (by omega)]
  · rw [BitVec.eq_of_toInt_eq h, ite_self]
  · rw [if_pos h, if_neg (by omega)]

/-- The greater of two signed words. -/
theorem ite_slt_max (u v : W) : (if v.slt u then u else v) = if u.toInt < v.toInt then v else u := by
  simp only [BitVec.slt_iff_toInt_lt]
  rcases Int.lt_trichotomy u.toInt v.toInt with h | h | h
  · rw [if_pos h, if_neg (by omega)]
  · rw [BitVec.eq_of_toInt_eq h, ite_self]
  · rw [if_pos h, if_neg (by omega)]

theorem aluOp_listed (u v : W) : ∀ p ∈ [(0#4, u + v), (1#4, u - v), (2#4, u &&& v), (3#4, u ||| v), (4#4, u ^^^ v),
    (5#4, u <<< (v.toNat % 32)), (6#4, u >>> (v.toNat % 32)), (7#4, u.sshiftRight (v.toNat % 32)),
    (8#4, if v.slt u then v else u), (9#4, if v.slt u then u else v)], aluOp p.1.toNat u v = some p.2 := by
  simp only [List.forall_mem_cons, List.not_mem_nil, false_implies, implies_true, and_true, ite_slt_min, ite_slt_max]
  and_intros <;> rfl

theorem aluOp_other {f : Nat} (h : 9 < f) (u v : W) : aluOp f u v = none := by
  obtain ⟨k, rfl⟩ := Nat.exists_eq_add_of_le' h
  rfl

theorem rdspVal_other {n : Nat} (h : 7 < n) (x : Tile) (now : Nat) : rdspVal x n now = none := by
  obtain ⟨k, rfl⟩ := Nat.exists_eq_add_of_le' h
  rfl

theorem wrspTile_other {n : Nat} (h : 7 < n) (x : Tile) (v : W) : wrspTile x n v = none := by
  obtain ⟨k, rfl⟩ := Nat.exists_eq_add_of_le' h
  rfl

section
variable {t : Fin 144} {s : State}

theorem ldih_leaves (h : tileRuns t s) (d : Fin 16) (k : BitVec 16) : ∃ v,
    tileLeft t 1 ((getTile t s.m).setS d v).next (.ldih t d k) s ∧ v.extractLsb' 16 16 = k ∧
      v.extractLsb' 0 16 = ((getTile t s.m).s d).extractLsb' 0 16 :=
  ⟨_, tileLeft_of_done h rfl rfl, wset_high _ k⟩

theorem alu_leaves (h : tileRuns t s) {a b : Fin 16} {f : BitVec 4} {v : W}
    (hop : aluOp f.toNat ((getTile t s.m).s a) ((getTile t s.m).s b) = some v) (d : Fin 16) :
    tileLeft t 1 ((getTile t s.m).setS d v).next (.alu t d a b f) s :=
  tileLeft_of_done h rfl (by rw [hop])

theorem alu_illegal (h : tileRuns t s) (d a b : Fin 16) {f : BitVec 4} (hf : 9 < f.toNat) : tileStops t 1 (.alu t d a b f) s :=
  tileStops_of_fault h rfl (by rw [aluOp_other hf])

/-- R316: a special register that is read. -/
theorem rdsp_leaves (h : tileRuns t s) {k : BitVec 8} {v : W} (hval : rdspVal (getTile t s.m) k.toNat (tick s.m) = some v)
    (d : Fin 16) : tileLeft t 1 ((getTile t s.m).setS d v).next (.rdsp t d k) s :=
  tileLeft_of_done h rfl (by rw [hval])

theorem rdsp_illegal (h : tileRuns t s) (d : Fin 16) {k : BitVec 8} (hk : 7 < k.toNat) : tileStops t 1 (.rdsp t d k) s :=
  tileStops_of_fault h rfl (by rw [rdspVal_other hk])

/-- R316: a special register that is written. -/
theorem wrsp_leaves (h : tileRuns t s) {a : Fin 16} {k : BitVec 8} {y : Tile}
    (hval : wrspTile (getTile t s.m) k.toNat ((getTile t s.m).s a) = some y) : tileLeft t 1 y.next (.wrsp t a k) s :=
  tileLeft_of_done h rfl (by rw [hval])

theorem wrsp_illegal (h : tileRuns t s) (a : Fin 16) {k : BitVec 8} (hk : 7 < k.toNat) : tileStops t 1 (.wrsp t a k) s :=
  tileStops_of_fault h rfl (by rw [wrspTile_other hk])

end

end Sys2Proof.Machine

/-! SUPPORT. Loads and stores of a signal tile through its circular buffers (R306, R307, R313), and the statement about them and the
scalar instructions. -/

namespace Sys2Proof.Machine

/-! ### The elements of a vector (R306, R307) -/

/-- The lists of four elements, taken at one of them. -/
theorem elements_split {i : Nat} (h : i < 4) : ∃ l r : List Nat, [0, 1, 2, 3] = l ++ i :: r ∧ ∀ j ∈ l, j < i := by
  refine ⟨List.range i, List.range' (i + 1) (3 - i), ?_, fun j => List.mem_range.1⟩
  interval_cases i <;> rfl

theorem addrFault_beyond {a : Nat} (h : 65536 ≤ a) (z : Nat) : addrFault a z = 2 := if_pos h

theorem addrFault_misaligned {a z : Nat} (h : a < 65536) (hz : a % z ≠ 0) : addrFault a z = 3 := by
  rw [addrFault, if_neg (Nat.not_le.2 h), if_pos hz]

/-- An access whose first bad element is `k`. -/
theorem viaBuf_badElem {x : Tile} {c z k : Nat} {l r : List Nat} (h : offOk (x.buf c).prep z)
    (hl : ∀ j ∈ l, addrFault ((x.buf c).prep.elem j z) z = 0) (hk : addrFault ((x.buf c).prep.elem k z) z ≠ 0)
    (f : List Nat → Tile → Tile) : viaBuf x c z (l ++ k :: r) f = .fault (addrFault ((x.buf c).prep.elem k z) z) := by
  have hoff : ¬ (0 < (x.buf c).prep.len ∧ (x.buf c).prep.off % z ≠ 0 ∧ l ++ k :: r ≠ []) := by
    rintro ⟨hlen, hmod, -⟩
    exact h.elim (by omega) hmod
  have hnone : (l.map fun i => (x.buf c).prep.elem i z).find? (fun a => addrFault a z != 0) = none := by
    simpa only [List.find?_eq_none, List.forall_mem_map, bne_iff_ne, not_not] using hl
  have haccess : x.access c z (l ++ k :: r) = .error (addrFault ((x.buf c).prep.elem k z) z) := by
    unfold Tile.access
    dsimp only
    rw [if_neg hoff, List.map_append, List.find?_append, hnone, List.map_cons, List.find?_cons_of_pos (by simpa using hk)]
    rfl
  rw [viaBuf, haccess]

section
variable {t : Fin 144} {s : State} {i : Instr} {c z : Nat} {is : List Nat}

/-- R307: an instruction stops at the first of its elements that it may not access. -/
theorem tileStops_badElem {k code : Nat} {l r : List Nat} (h : tileRuns t s) (hvia : accessesVia i t c z is)
    (hoff : offOk ((getTile t s.m).buf c).prep z) (his : is = l ++ k :: r)
    (hl : ∀ j ∈ l, addrFault (((getTile t s.m).buf c).prep.elem j z) z = 0)
    (hk : addrFault (((getTile t s.m).buf c).prep.elem k z) z = code) (hcode : code ≠ 0) : tileStops t code i s := by
  obtain ⟨_, _, hexec⟩ := hvia
  subst his hk
  exact tileStops_of_fault h (hexec s) (viaBuf_badElem hoff hl hcode _)

end

theorem accessesVia_ldw (t : Fin 144) (c : Fin 8) (d : Fin 16) : accessesVia (.ldw t c d) t c 4 [0] := ⟨1, _, fun _ => rfl⟩

theorem accessesVia_stw (t : Fin 144) (c : Fin 8) (a : Fin 16) : accessesVia (.stw t c a) t c 4 [0] :=
  ⟨1, fun x as y => y.putWord (as.headD 0) (x.s a), fun _ => rfl⟩

theorem accessesVia_vld (t : Fin 144) (c v : Fin 8) : accessesVia (.vld t c v) t c 8 [0, 1, 2, 3] := ⟨1, _, fun _ => rfl⟩

theorem accessesVia_vst (t : Fin 144) (c v : Fin 8) : accessesVia (.vst t c v) t c 8 [0, 1, 2, 3] := ⟨1, _, fun _ => rfl⟩

/-! ### Where a load or a store stops (R307) -/

section
variable {t : Fin 144} {s : State} {c v : Fin 8} {a : Fin 16} {code : Nat}

theorem words_badOffset (h : tileRuns t s) (hoff : ¬ offOk ((getTile t s.m).buf c).prep 4) :
    tileStops t 3 (.ldw t c a) s ∧ tileStops t 3 (.stw t c a) s :=
  ⟨tileStops_badOffset h (accessesVia_ldw t c a) hoff (List.cons_ne_nil _ _),
    tileStops_badOffset h (accessesVia_stw t c a) hoff (List.cons_ne_nil _ _)⟩

theorem vectors_badOffset (h : tileRuns t s) (hoff : ¬ offOk ((getTile t s.m).buf c).prep 8) :
    tileStops t 3 (.vld t c v) s ∧ tileStops t 3 (.vst t c v) s :=
  ⟨tileStops_badOffset h (accessesVia_vld t c v) hoff (List.cons_ne_nil _ _),
    tileStops_badOffset h (accessesVia_vst t c v) hoff (List.cons_ne_nil _ _)⟩

theorem words_stop (h : tileRuns t s) (hoff : offOk ((getTile t s.m).buf c).prep 4)
    (hfault : addrFault (((getTile t s.m).buf c).prep.elem 0 4) 4 = code) (hcode : code ≠ 0) :
    tileStops t code (.ldw t c a) s ∧ tileStops t code (.stw t c a) s := by
  have hfirst : ∀ j ∈ [], addrFault (((getTile t s.m).buf c).prep.elem j 4) 4 = 0 := List.forall_mem_nil _
  exact ⟨tileStops_badElem h (accessesVia_ldw t c a) hoff rfl hfirst hfault hcode,
    tileStops_badElem h (accessesVia_stw t c a) hoff rfl hfirst hfault hcode⟩

theorem vectors_stop (h : tileRuns t s) (hoff : offOk ((getTile t s.m).buf c).prep 8) {i : Nat} (hi : i < 4)
    (hfirst : ∀ j < i, addrFault (((getTile t s.m).buf c).prep.elem j 8) 8 = 0)
    (hfault : addrFault (((getTile t s.m).buf c).prep.elem i 8) 8 = code) (hcode : code ≠ 0) :
    tileStops t code (.vld t c v) s ∧ tileStops t code (.vst t c v) s := by
  obtain ⟨l, r, hsplit, hbefore⟩ := elements_split hi
  exact ⟨tileStops_badElem h (accessesVia_vld t c v) hoff hsplit (fun j hj => hfirst j (hbefore j hj)) hfault hcode,
    tileStops_badElem h (accessesVia_vst t c v) hoff hsplit (fun j hj => hfirst j (hbefore j hj)) hfault hcode⟩

end

/-! ### Loads -/

section
variable {t : Fin 144} {s : State} {x : Tile} {c : Fin 8}

/-- The advance of a buffer leaves local memory. -/
theorem bytes_advanced (x : Tile) (c e n : Nat) : (x.advanced c).bytes e n = x.bytes e n := bytes_congr fun _ _ => byte_of_mem rfl _

theorem sampleAt_advanced (x : Tile) (c : Nat) : (x.advanced c).sampleAt = x.sampleAt :=
  funext fun e => by rw [Tile.sampleAt, bytes_advanced, Tile.sampleAt]

theorem wordAt_advanced (x : Tile) (c e : Nat) : (x.advanced c).wordAt e = x.wordAt e := by
  rw [Tile.wordAt, bytes_advanced, Tile.wordAt]

theorem ldw_leaves (h : tileRuns t s) (hx : getTile t s.m = x) (d : Fin 16) {e : Nat} (he : (x.buf c).prep.elem 0 4 = e)
    (hbuf : bufOk (x.buf c).prep 4 [0]) : tileLeft t 1 ((x.advanced c).setS d (x.wordAt e)).next (.ldw t c d) s := by
  have hleft := tileLeft_viaBuf (i := .ldw t c d) (f := fun _ as y => y.setS d (y.wordAt (as.headD 0))) h rfl (hx ▸ hbuf)
  rw [hx, wordAt_advanced] at hleft
  exact he ▸ hleft

theorem vld_leaves (h : tileRuns t s) (hx : getTile t s.m = x) (v : Fin 8) (hbuf : bufOk (x.buf c).prep 8 [0, 1, 2, 3]) :
    tileLeft t 1 ((x.advanced c).setV v ([0, 1, 2, 3].map fun i => x.sampleAt ((x.buf c).prep.elem i 8))).next (.vld t c v) s := by
  have hleft := tileLeft_viaBuf (i := .vld t c v) (f := fun _ as y => y.setV v (as.map y.sampleAt)) h rfl (hx ▸ hbuf)
  rw [hx, sampleAt_advanced, Tile.elems, List.map_map] at hleft
  exact hleft

end

/-! ### Stores -/

/-- One step of VST: sample `i` of a vector to its address. -/
def Tile.elemStored (l : List Sample) (addr : Nat → Nat) (z : Tile) (i : Nat) : Tile := z.putSample (addr i) (l.getD i zeroSample)

/-- VST stores as many samples as the vector has, four at most. -/
theorem zip_elements (addr : Nat → Nat) (l : List Sample) :
    ([0, 1, 2, 3].map addr).zip l = (List.range (min 4 l.length)).map fun i => (addr i, l.getD i zeroSample) := by
  change ((List.range 4).map addr).zip l = _
  refine List.ext_getElem (by simp) fun i h1 h2 => ?_
  have hi : i < l.length := by simp at h2; omega
  simp [hi]

theorem elemStored_eq (l : List Sample) (addr : Nat → Nat) (z : Tile) (i : Nat) : Tile.elemStored l addr z i =
    { z with mem := (z.setBytes (addr i) (leBytes 8 (sampleWord (l.getD i zeroSample)))).mem } := rfl

theorem storesEach_elemStored (l : List Sample) (addr : Nat → Nat) :
    storesEach 8 addr (fun i => leBytes 8 (sampleWord (l.getD i zeroSample))) (Tile.elemStored l addr) :=
  fun _ _ => ⟨rfl, length_leBytes ..⟩

section
variable {t : Fin 144} {s : State} {x : Tile} {c : Fin 8}

theorem vst_leaves (h : tileRuns t s) (hx : getTile t s.m = x) (v : Fin 8) (hbuf : bufOk (x.buf c).prep 8 [0, 1, 2, 3]) :
    ∃ y : Tile, tileLeft t 1 y.next (.vst t c v) s ∧
      (∀ i < 4, ∀ f, (x.v v)[i]? = some f → (∀ j < 4, i < j → (x.buf c).prep.elem j 8 ≠ (x.buf c).prep.elem i 8) →
        y.bytes ((x.buf c).prep.elem i 8) 8 = leBytes 8 (sampleWord f)) ∧
      (∀ p, (∀ i < 4, p < (x.buf c).prep.elem i 8 ∨ (x.buf c).prep.elem i 8 + 8 ≤ p) → y.byte p = x.byte p) ∧
      { y with mem := x.mem, bufs := x.bufs } = x ∧ y.bufs = (x.advanced c).bufs := by
  have hstores := storesEach_elemStored (x.v v) fun i => (x.buf c).prep.elem i 8
  have hlt : ∀ j ∈ List.range (min 4 (x.v v).length), j < 4 := fun j hj => by simp at hj; omega
  have hmem : ∀ i < 4, i ∈ [0, 1, 2, 3] := by decide
  refine ⟨(List.range (min 4 (x.v v).length)).foldl (Tile.elemStored (x.v v) fun i => (x.buf c).prep.elem i 8) (x.advanced c), ?_,
    fun i hi f hf hlast => ?_, fun p hp => hstores.outside (fun i hi => hp i (hlt i hi)) _, ?_, ?_⟩
  · have hleft := tileLeft_viaBuf (i := .vst t c v) h rfl (hx ▸ hbuf)
    rw [hx, Tile.elems, zip_elements, List.foldl_map] at hleft
    exact hleft
  · obtain ⟨hlen, rfl⟩ := List.getElem?_eq_some_iff.1 hf
    have hstored := hstores.stored List.pairwise_lt_range (fun j hj => (hbuf.2 j (hmem j (hlt j hj))).2)
      (List.mem_range.2 (by omega : i < min 4 (x.v v).length)) (fun j hj => hlast j (hlt j hj)) (x.advanced c)
    rwa [List.getD_eq_getElem _ _ hlen] at hstored
  · exact foldl_keeps (f := Tile.elemStored (x.v v) _) (g := fun z => { z with mem := x.mem, bufs := x.bufs })
      (fun z i => by rw [elemStored_eq]) _ (x.advanced c)
  · exact foldl_keeps (f := Tile.elemStored (x.v v) _) (g := Tile.bufs) (fun z i => by rw [elemStored_eq]) _ _

theorem bytes_putWord (x : Tile) (e : Nat) (v : W) : (x.putWord e v).bytes e 4 = leBytes 4 v.toNat := by
  have hstored := bytes_setBytes x e (leBytes 4 v.toNat)
  rwa [length_leBytes] at hstored

theorem byte_putWord_outside {e i : Nat} (h : i < e ∨ e + 4 ≤ i) (x : Tile) (v : W) : (x.putWord e v).byte i = x.byte i := by
  rw [Tile.putWord, byte_setBytes, length_leBytes, if_neg (by omega)]

theorem stw_leaves (h : tileRuns t s) (hx : getTile t s.m = x) (a : Fin 16) {e : Nat} (he : (x.buf c).prep.elem 0 4 = e)
    (hbuf : bufOk (x.buf c).prep 4 [0]) : ∃ y : Tile, tileLeft t 1 y.next (.stw t c a) s ∧ y.bytes e 4 = leBytes 4 (x.s a).toNat ∧
      (∀ i, (i < e ∨ e + 4 ≤ i) → y.byte i = x.byte i) ∧ { y with mem := x.mem, bufs := x.bufs } = x ∧
      y.bufs = (x.advanced c).bufs := by
  subst he
  refine ⟨(x.advanced c).putWord ((x.buf c).prep.elem 0 4) (x.s a), ?_, ?_, fun i hi => ?_, ?_, ?_⟩
  · have hleft := tileLeft_viaBuf (i := .stw t c a) (f := fun x as y => y.putWord (as.headD 0) (x.s a)) h rfl (hx ▸ hbuf)
    rw [hx] at hleft
    exact hleft
  · exact bytes_putWord ..
  · exact (byte_putWord_outside hi ..).trans (byte_of_mem rfl i)
  · unfold Tile.putWord Tile.setBytes Tile.advanced Tile.setBuf
    rfl
  · rfl

end

/-- Settles O47, instruction by instruction: what each leaves by `tileLeft_of_done` and `tileLeft_viaBuf`, the bytes of a vector by
`storesEach.stored`, and the faults by the first element that may not be accessed. -/
theorem tileScalarsAndBuffers : Obligations.TileScalarsAndBuffers := by
  unfold Obligations.TileScalarsAndBuffers
  intro s t x
  refine ⟨⟨s_zero x, setS_zero x, fun d v e hd => s_setS x hd v e⟩, fun hstate hpaused => ?_⟩
  have h : tileRuns t s := ⟨hstate, hpaused⟩
  refine ⟨fun d k => ⟨tileLeft_of_done h rfl rfl, ldih_leaves h d k⟩,
    fun d a b => ⟨fun p hp => alu_leaves h (aluOp_listed _ _ p hp) d, fun f => alu_illegal h d a b,
      fun k => tileLeft_of_done h rfl rfl⟩,
    fun d => ⟨?_, ?_, wrsp_leaves (y := { x with wtag := (.valid, false) }) h rfl,
      wrsp_leaves (y := { x with laneOvf := x.laneOvf &&& (255 - (x.s d).toNat % 256) }) h rfl,
      wrsp_leaves (y := { x with shs := wfld (x.s d) 0 5, shw := wfld (x.s d) 8 5 }) h rfl,
      wrsp_leaves (y := { x with sidx := (x.s d).toNat % 65536 }) h rfl, fun k hk => ⟨rdsp_illegal h d hk, wrsp_illegal h d hk⟩⟩,
    fun w g => tileLeft_of_done h rfl rfl, fun c a => ⟨tileLeft_of_done h rfl rfl, fun n hn => ?_, tileLeft_of_done h rfl rfl,
      tileLeft_of_done h rfl rfl⟩, fun c v a => ?_⟩
  · simp only [List.forall_mem_cons, List.not_mem_nil, false_implies, implies_true, and_true]
    and_intros <;> exact rdsp_leaves h rfl d
  · simp only [List.forall_mem_cons, List.not_mem_nil, false_implies, implies_true, and_true]
    and_intros <;> exact wrsp_leaves h rfl
  · subst hn
    exact tileLeft_of_done h rfl rfl
  · refine ⟨words_badOffset h, vectors_badOffset h, fun hoff e he hlt hal => ?_,
      fun hoff e he hge => words_stop h hoff (addrFault_beyond (he ▸ hge) 4) (by decide),
      fun hoff e he hlt hal => words_stop h hoff (addrFault_misaligned (he ▸ hlt) (he ▸ hal)) (by decide),
      fun hbuf => ⟨vld_leaves h rfl v hbuf, vst_leaves h rfl v hbuf⟩,
      fun hoff i hi hfirst => ⟨fun hge => vectors_stop h hoff hi hfirst (addrFault_beyond hge 8) (by decide),
        fun hlt hal => vectors_stop h hoff hi hfirst (addrFault_misaligned hlt hal) (by decide)⟩⟩
    have hbuf : bufOk (x.buf c).prep 4 [0] := ⟨.inr hoff, List.forall_mem_singleton.2 (he ▸ ⟨hlt, hal⟩)⟩
    exact ⟨ldw_leaves h rfl a he hbuf, stw_leaves h rfl a he hbuf⟩

end Sys2Proof.Machine

/-! SUPPORT. The end of a transfer that moves what its tile's grant permits (R312, R336), which refutes O49. -/

namespace Sys2Proof.Machine

/-- R312: a transfer of whole units inside the grant, at aligned local addresses, is issued. -/
theorem issue_permitted {x : Tile} {c a b n : Nat} {m : Mach} (hlen : (x.s b).toNat = 32 * n) (hn : 1 ≤ n ∧ n ≤ 128)
    (hgrant : (x.grant.any fun i => inPart i (x.s a).toNat (32 * n) m) = true)
    (haddr : ∀ e ∈ (xferUnits n (x.buf c).prep).1.flatten, addrFault e 8 = 0) (toRes : Bool) :
    x.issue c a b toRes m = .done { x.setBuf c (xferUnits n (x.buf c).prep).2 with
      xfers := x.xfers ++ [⟨toRes, (x.s a).toNat, (xferUnits n (x.buf c).prep).1.flatten⟩] } := by
  have hnone : (xferUnits n (x.buf c).prep).1.flatten.find? (fun e => addrFault e 8 != 0) = none :=
    List.find?_eq_none.2 fun e he => by simp [haddr e he]
  have hlegal : ¬ (32 * n % 32 ≠ 0 ∨ 32 * n < 32 ∨ 4096 < 32 * n ∨
      !(x.grant.any fun i => inPart i (x.s a).toNat (32 * n) m)) := by
    rw [hgrant]
    simp only [Bool.not_true, Bool.false_eq_true, or_false]
    omega
  unfold Tile.issue
  dsimp only
  rw [hlen, if_neg hlegal, Nat.mul_div_cancel_left n (by omega), hnone]

/-- Tile 0, stalled on an XFER of buffer 0 with S1 at 0 and 32 in S2, behind a transfer to the reservoir that begins in the middle of a
unit. Its grant is one number, whose RES_PART_BASE would stand at the address of HLT_LOG_WPTR and its RES_PART_SIZE at that of
HLT_PLOG_CNT. -/
def beyondGrant : Tile :=
  { state := 2, stall := some (.xfer 0 1 2 true), xfers := [⟨true, 0x40000004, [0]⟩], grant := [0x1F7F1], sc := [(2, 32#32)] }

/-- The core runs, the persistent log holds one entry, and the first unit of the transfer is poisoned. -/
def beforeXferEnd : Mach :=
  { power := .coreRun, regs := [(GCTL_DEV_STATE, 5#32), (HLT_PLOG_CNT, 1#32)], tiles := [(0, beyondGrant)],
    poison := [(0x8000000, true)] }

/-- Before the transfer ends, the grant permits the stalled XFER. -/
theorem inPart_beforeXferEnd :
    (beyondGrant.grant.any fun i => inPart i (beyondGrant.s 1).toNat (32 * 1) beforeXferEnd) = true := by decide

/-- The transfer's partial write of the poisoned unit is an event, whose log entry moves HLT_LOG_WPTR: the XFER then lies outside the
grant, and faults. -/
theorem state_xferEnd_beforeXferEnd : (getTile 0 (doXferEnd 0 beforeXferEnd)).state = 3 := by decide +kernel

theorem exec_xferEnd (t : Fin 144) (s : State) : exec (.xferEnd t) s = .next (s.withM (doXferEnd t s.m)) := rfl

/-- Refutes O49: it says that a stalled XFER which could be issued before the transfer ahead of it ends is issued once that one has
ended. A grant is any list of numbers (R312; its layout is a free value), and `inPart` reads the base of partition `i` at the
address that RES_PART_BASE would have for `i`. Where that is HLT_LOG_WPTR, an event of the ending transfer's write moves the base, and
the XFER stops in an XFER fault. -/
theorem not_tilePortsAndTransfers : ¬ Obligations.TilePortsAndTransfers := by
  unfold Obligations.TilePortsAndTransfers
  intro h
  obtain ⟨-, -, -, -, hend⟩ := h { m := beforeXferEnd, pending := [] } 0
  obtain ⟨-, -, hstalled⟩ := hend ⟨true, 0x40000004, [0]⟩ [] rfl
  have hissue := issue_permitted (x := { beyondGrant with xfers := [] }) (c := 0) (a := 1) (b := 2) (n := 1) rfl (by decide)
    inPart_beforeXferEnd (by decide) true
  obtain ⟨u, hexec, htile, -⟩ := hstalled rfl rfl 0 1 2 true _ rfl hissue
  have hu : doXferEnd 0 beforeXferEnd = u := next_withM_inj ((exec_xferEnd 0 _).symm.trans hexec)
  have hruns : (getTile 0 u).state = 1 := congrArg Tile.state htile
  rw [← hu, state_xferEnd_beforeXferEnd] at hruns
  exact absurd hruns (by decide)

end Sys2Proof.Machine

/-! SUPPORT. A burst of more lines than its channel holds in flight (R348, R351, R353), which refutes O53. -/

namespace Sys2Proof.Machine

/-- A COPY of two lines from one place of the reservoir to another, without a request. -/
def twoLines : DmaDesc := { ctrl := 0#32, len := 128, src := 0x40000000, dst := 0x40001000, next := 0, burst := 0, rsvd := 0 }

/-- The core runs, and channel 0, which holds one operation in flight at most, runs that COPY. -/
def twoLineMach : Mach :=
  let copying : DmaCh := { desc := some twoLines }
  fset (DMA_CH_CFG.max_ops 0) 1 (fset (DMA_CH_STATUS.state 0) 1 { power := .coreRun, dma := [(0, copying)] })

theorem exec_dmaBurstStart (ch : Fin 32) (arrive : List Nat) (s : State) :
    exec (.dmaBurstStart ch arrive) s = .next (s.withM (dmaBurstStart ch arrive s.m)) := rfl

/-- R348: the second line's write is issued once the first one's has arrived, so that one write of 64 bytes is on its way. -/
theorem pendW_twoLineMach :
    ((getDma 0 (dmaBurstStart 0 [] twoLineMach)).pendW.flatMap (·.2)).length = 64 := by decide +kernel

/-- Refutes O53: it says that a burst without an error leaves all its bytes on their way and the reservoir as it was, where R348 lets
a channel have max_ops operations in flight: the oldest arrive before the rest is issued. In `twoLineMach` max_ops is 1, and of the
128 bytes of the burst 64 are on their way after it. -/
theorem not_dmaChannelsRunTheirChains : ¬ Obligations.DmaChannelsRunTheirChains := by
  intro h
  obtain ⟨-, -, -, -, -, -, -, -, hdesc, -⟩ := h ⟨twoLineMach, []⟩ 0
  obtain ⟨-, -, hburst⟩ := hdesc twoLines rfl
  obtain ⟨-, hgood⟩ := hburst rfl rfl (by decide) (by decide) (by decide)
  obtain ⟨u, hexec, -, -, -, -, ws, hpend, hdata, -⟩ := hgood (by decide)
  have hu : dmaBurstStart 0 [] twoLineMach = u := next_withM_inj ((exec_dmaBurstStart 0 [] ⟨twoLineMach, []⟩).symm.trans hexec)
  have hbytes : ((getDma 0 u).pendW.flatMap (·.2)).length = 128 := by
    have hnone : (getDma 0 twoLineMach).pendW = [] := by decide
    have hpend' : (getDma 0 u).pendW = (getDma 0 twoLineMach).pendW ++ ws := hpend
    rw [hpend', hnone, List.nil_append, hdata]
    simp only [viewBytes, List.length_map, List.length_range]
    decide
  rw [← hu, pendW_twoLineMach] at hbytes
  exact absurd hbytes (by decide)

end Sys2Proof.Machine

/-! SUPPORT. A downlink message of a frame that is over, for a stream that stands still (R60, R377), which refutes O55. -/

namespace Sys2Proof.Machine

/-- Frame 5 runs, port 0 is in the bond, and the deck's only format (16-bit FIX, one block a message) serves every stream. Downlink
beam 0 has not been due since frame 0. -/
def lateFrameMach : Mach :=
  let formats : List Byte := [16#8, 1#8]
  fset EPL_STATUS.bonded 1 { frameNo := 5, img := { deck := [(24, formats)] } }

/-- A block of zeros for downlink beam 0, of frame 3. -/
def lateFrameMsg : IqMsg := ⟨0x2000#16, 0x80#16, 3#24, 0#8, 0#24, 0#8, [⟨0#8, List.replicate 24 0⟩]⟩

theorem exec_iqMessageRx {p : Fin 4} {x : IqMsg} (h : iqOk x = true) (s : State) :
    exec (.iqMessageRx p x) s = .next (s.withM (iqRx p x s.m)) := by
  change answerIf (iqOk x) s (iqRx p x s.m) = _
  rw [h]; rfl

/-- R60: the samples' deadlines have passed with their frame, and they are discarded. -/
theorem placed_lateFrameMach : (getDlRx 0 (iqRx 0 lateFrameMsg lateFrameMach)).placed = [] := by decide +kernel

/-- Refutes O55: it says that the samples of a message wait at their positions unless the stream has gone past them or their frame is
too far ahead (R379), and leaves out samples that come after their deadline (R60). In `lateFrameMach` frame 5 runs and the stream
still stands at frame 0: of a message of frame 3, whose deadlines are over, no sample waits. -/
theorem not_streamsPoolAndUploadsCross : ¬ Obligations.StreamsPoolAndUploadsCross := by
  intro h
  obtain ⟨-, hdown, -⟩ := h ⟨lateFrameMach, []⟩
  obtain ⟨-, hok⟩ := hdown 0 lateFrameMsg
  obtain ⟨-, hbonded⟩ := hok (by decide)
  obtain ⟨-, hstream⟩ := hbonded (by decide)
  obtain ⟨-, hformat⟩ := hstream 0 (by decide)
  obtain ⟨-, hplace⟩ := hformat (by decide) (by decide) (by decide)
  obtain ⟨u, hexec, -, -, -, hrx⟩ :=
    hplace (by decide) _ rfl (by decide) (by decide) (fun _ => by decide) (by decide)
  have hu : iqRx 0 lateFrameMsg lateFrameMach = u :=
    next_withM_inj ((exec_iqMessageRx (p := 0) (x := lateFrameMsg) (by decide) ⟨lateFrameMach, []⟩).symm.trans hexec)
  have hcount : (getDlRx 0 u).placed.length = 12 := by
    rw [hrx]
    simp only [List.length_append, List.length_map, List.length_zipIdx]
    decide
  rw [← hu, placed_lateFrameMach] at hcount
  exact absurd hcount (by decide)

end Sys2Proof.Machine

/-! SUPPORT. Poison marks off the event log, and what the health unit leaves of memory when it retires a row or a bank of the
reservoir (R328, R439, R448, R451). -/

namespace Sys2Proof.Machine

/-! ### Poison marks -/

theorem poisoned_congr {m u : Mach} (hpoison : u.poison = m.poison) (hbanks : u.poisonBanks = m.poisonBanks) (b : Nat) :
    poisoned b u = poisoned b m := by
  unfold poisoned poisonDefault
  rw [hpoison, hbanks]

theorem poisoned_setPoison (a : Nat) (p : Bool) (b : Nat) (m : Mach) :
    poisoned b (setPoison a p m) = if b / 8 = a / 8 then p else poisoned b m := tabGet_tabPut _ _ _ _ _

/-- The event log's units are where they were, no bank is newly poisoned, and every unit off the log has its mark as before. -/
structure MarksKept (m u : Mach) : Prop where
  base : rd (RES_PART_BASE 5) u = rd (RES_PART_BASE 5) m
  banks : u.poisonBanks = m.poisonBanks
  marks : ∀ b, offLog b m → poisoned b u = poisoned b m

theorem MarksKept.refl (m : Mach) : MarksKept m m := ⟨rfl, rfl, fun _ _ => rfl⟩

theorem MarksKept.trans {m m' m'' : Mach} (h : MarksKept m m') (h' : MarksKept m' m'') : MarksKept m m'' where
  base := h'.base.trans h.base
  banks := h'.banks.trans h.banks
  marks b hb := (h'.marks b (by rw [offLog, h.base]; exact hb)).trans (h.marks b hb)

theorem marksKept_of_eq {m u : Mach} (hregs : u.regs = m.regs) (hpoison : u.poison = m.poison)
    (hbanks : u.poisonBanks = m.poisonBanks) : MarksKept m u :=
  ⟨by rw [rd, hregs, ← rd], hbanks, fun b _ => poisoned_congr hpoison hbanks b⟩

theorem marksKept_wr {a : Nat} (h : a ≠ RES_PART_BASE 5) (v : W) (m : Mach) : MarksKept m (wr a v m) :=
  ⟨rd_wr_other h.symm v m, rfl, fun _ _ => rfl⟩

/-- A list of marks put at other units leaves a unit's mark alone. -/
theorem tabGet_foldl_tabPut_other {d : Nat → Bool} {u a : Nat} {l : List Nat} (h : ∀ k ∈ l, u + k ≠ a) (t : Tab Bool) :
    tabGet d (l.foldl (fun t k => tabPut d t (u + k) false) t) a = tabGet d t a := by
  induction l generalizing t with
  | nil => rfl
  | cons k l ih =>
    rw [List.foldl_cons, ih fun j hj => h j (List.mem_cons_of_mem _ hj), tabGet_tabPut_other]
    exact (h k List.mem_cons_self).symm

/-- R448: an entry's units are the log's. -/
theorem marksKept_logCure {i : Nat} (hi : i < 2 ^ 12) (m : Mach) : MarksKept m (logCure i m) := by
  refine ⟨rfl, rfl, fun b hb => ?_⟩
  have hwidth : HLT_LOG_WPTR.next.w = 12 := rfl
  rw [offLog, hwidth] at hb
  refine tabGet_foldl_tabPut_other (d := poisonDefault m) (fun k hk => ?_) m.poison
  have := List.mem_range.1 hk
  omega

theorem marksKept_logPut (e : LogEntry) (m : Mach) : MarksKept m (logPut e m) := by
  have hcure : MarksKept m (logCure (fget HLT_LOG_WPTR.next m) m) := marksKept_logCure (fget_lt _ _) m
  have hpointer := hcure.trans
    (marksKept_wr (a := HLT_LOG_WPTR) (by decide) (wset (rd HLT_LOG_WPTR m) 0 12 (fget HLT_LOG_WPTR.next m + 1)) _)
  unfold logPut
  split
  · exact .refl m
  · dsimp -proj -iota -eta only
    generalize (if tick m / ticksPerMs = m.logMs then m.logCnt else 0) = c
    split
    · exact hpointer.trans (marksKept_of_eq rfl rfl rfl)
    · exact (marksKept_wr (a := HLT_LOG_WPTR) (by decide) _ _).trans (marksKept_wr (a := HLT_EVENTS) (by decide) _ _)

theorem marksKept_setEvDie {f : Fld} (h : f.reg ≠ RES_PART_BASE 5) (d : Nat) (m : Mach) : MarksKept m (setEvDie d f m) := by
  have hlog := (marksKept_wr h (wset (rd f.reg m) f.lo f.w 1) m).trans (marksKept_logPut { stickyEntry f with die := d } _)
  unfold setEvDie
  split
  · exact .refl m
  · dsimp -proj -iota -eta only
    split
    · exact hlog
    · next g _ =>
      obtain ⟨p, hp⟩ := summaryRise_frame g (summaryBit m g) (logPut { stickyEntry f with die := d } (fset f 1 m))
      rw [hp]
      exact hlog.trans (marksKept_of_eq rfl rfl rfl)

theorem marksKept_setEv {f : Fld} (h : f.reg ≠ RES_PART_BASE 5) (m : Mach) : MarksKept m (setEv f m) := marksKept_setEvDie h _ m

/-! ### What the health unit leaves of memory -/

/-- The bytes of the reservoir, the tiles and the registers of the reservoir and its captures are as before, and so are the poison
marks off the event log. -/
structure MemKept (m u : Mach) : Prop where
  res : u.res = m.res
  tiles : u.tiles = m.tiles
  regs : ∀ a, 0xA08000 ≤ a → a < 0xA0A000 → rd a u = rd a m
  poison : MarksKept m u

theorem MemKept.refl (m : Mach) : MemKept m m := ⟨rfl, rfl, fun _ _ _ => rfl, .refl m⟩

theorem MemKept.trans {m m' m'' : Mach} (h : MemKept m m') (h' : MemKept m' m'') : MemKept m m'' where
  res := h'.res.trans h.res
  tiles := h'.tiles.trans h.tiles
  regs a ha hb := (h'.regs a ha hb).trans (h.regs a ha hb)
  poison := h.poison.trans h'.poison

theorem memKept_of_eq {m u : Mach} (hres : u.res = m.res) (htiles : u.tiles = m.tiles) (hregs : u.regs = m.regs)
    (hpoison : u.poison = m.poison) (hbanks : u.poisonBanks = m.poisonBanks) : MemKept m u :=
  ⟨hres, htiles, fun a _ _ => by rw [rd, hregs, ← rd], marksKept_of_eq hregs hpoison hbanks⟩

/-- A register outside the reservoir's block. -/
abbrev offRes (a : Nat) : Prop := a < 0xA08000 ∨ 0xA0A000 ≤ a

theorem memKept_wr {a : Nat} (h : offRes a) (v : W) (m : Mach) : MemKept m (wr a v m) := by
  refine ⟨rfl, rfl, fun b hlo hhi => rd_wr_other ?_ v m, marksKept_wr ?_ v m⟩
  · rintro rfl; omega
  · rintro rfl; unfold RES_PART_BASE at h; omega

theorem memKept_fset {f : Fld} (h : offRes f.reg) (x : Nat) (m : Mach) : MemKept m (fset f x m) := memKept_wr h _ m

theorem memKept_logPut (e : LogEntry) (m : Mach) : MemKept m (logPut e m) := by
  obtain ⟨r, l, q, ms, c, z, hframe⟩ := logPut_frame e m
  refine ⟨by rw [hframe], by rw [hframe], fun a hlo hhi => rd_logPut ?_ ?_ e m, marksKept_logPut e m⟩
  · rintro rfl; revert hhi; decide
  · rintro rfl; revert hhi; decide

theorem memKept_setEvDie {f : Fld} (h : offRes f.reg) (d : Nat) (m : Mach) : MemKept m (setEvDie d f m) := by
  refine ⟨res_setEvDie d f m, tiles_setEvDie d f m, fun a hlo hhi => rd_setEvDie ?_ ?_ ?_ m, marksKept_setEvDie ?_ d m⟩
  · rintro rfl; omega
  · rintro rfl; revert hhi; decide
  · rintro rfl; revert hhi; decide
  · intro heq; rw [heq] at h; revert h; unfold RES_PART_BASE; omega

theorem memKept_setRemap (f : Remap → Remap) (m : Mach) : MemKept m (setRemap f m) :=
  memKept_of_eq rfl rfl rfl rfl rfl

theorem memKept_plogPut (e : LogEntry) (m : Mach) : MemKept m (plogPut e m) := by
  unfold plogPut
  split
  · exact memKept_setEvDie (f := HLT_EVENTS.plog_fail) (by decide) _ m
  · exact memKept_of_eq rfl rfl rfl rfl rfl

theorem memKept_logCode (code die kind phys logical : Nat) (data : List Byte) (m : Mach) :
    MemKept m (logCode code die kind phys logical data m) := (memKept_logPut _ m).trans (memKept_plogPut _ _)

theorem memKept_degradeIfActive (m : Mach) : MemKept m (degradeIfActive m) := by
  unfold degradeIfActive
  split
  · have hdev : MemKept m (setDev 6 5 m) :=
      ((memKept_fset (f := GCTL_DEV_STATE.prev) (by decide) _ m).trans
        (memKept_fset (f := GCTL_DEV_STATE.state) (by decide) _ _)).trans (memKept_fset (f := GCTL_DEV_STATE.cause) (by decide) _ _)
    exact hdev.trans (memKept_setEvDie (f := GCTL_STATE_EVENTS.degraded_entered) (by decide) _ _)
  · exact .refl m

theorem memKept_summaryRise (g : Nat) (b : Bool) (m : Mach) : MemKept m (summaryRise g b m) := by
  obtain ⟨p, hp⟩ := summaryRise_frame g b m
  rw [hp]
  exact memKept_of_eq rfl rfl rfl rfl rfl

/-- R449: a replacement request. -/
theorem memKept_raiseReplace {f : Fld} (h : offRes f.reg) (m : Mach) : MemKept m (raiseReplace f m) := by
  have hbits := ((memKept_fset h 1 m).trans (memKept_fset (f := HLT_STATUS.replace) (by decide) 1 _)).trans
    (memKept_fset (f := GCTL_DEV_STATE.replace) (by decide) 1 _)
  have hpin : ∀ u : Mach, MemKept u { u with replaceN := true } := fun _ => memKept_of_eq rfl rfl rfl rfl rfl
  have hwant : ∀ u, MemKept u (wantEvent u) := fun _ => memKept_of_eq rfl rfl rfl rfl rfl
  have hraised : ∀ u, MemKept u (setEv HLT_EVENTS.replace_raised u) := memKept_setEvDie (by decide) _
  unfold raiseReplace
  dsimp -proj -iota -eta only
  exact (((((hbits.trans (hpin _)).trans (memKept_summaryRise ..)).trans (hraised _)).trans (memKept_logCode ..)).trans
    (hwant _)).trans (memKept_degradeIfActive _)

theorem memKept_refreshKind (k : Nat) (m : Mach) : MemKept m (refreshKind k m) := by
  have hkitty : offRes (HLT_KITTY k) := .inr (by unfold HLT_KITTY; omega)
  have hstatus : offRes HLT_STATUS := by decide
  unfold refreshKind
  dsimp -proj -iota -eta only
  refine MemKept.trans ?_ ((memKept_fset hstatus _ _).trans (memKept_fset hstatus _ _))
  split
  · exact ((memKept_fset hkitty _ _).trans (memKept_fset hkitty _ _)).trans (memKept_fset hkitty _ _)
  · exact .refl m

/-- R439: a resource stays in service, worn. -/
theorem memKept_markWorn (k die phys logical : Nat) (m : Mach) : MemKept m (markWorn k die phys logical m) := by
  have hworn : ∀ u, MemKept u (setEvDie die HLT_EVENTS.worn u) := memKept_setEvDie (by decide) die
  have hraised : ∀ u, MemKept u (raiseReplace HLT_REPLACE.no_spare u) := memKept_raiseReplace (by decide)
  unfold markWorn
  dsimp -proj -iota -eta only
  exact ((((memKept_setRemap _ m).trans (memKept_refreshKind k _)).trans (hworn _)).trans (memKept_logCode ..)).trans (hraised _)

theorem memKept_wantTrick (u : RxUnit) (m : Mach) : MemKept m (wantTrick u m) := by
  unfold wantTrick
  split
  · exact .refl m
  · exact memKept_of_eq rfl rfl rfl rfl rfl

/-- R440: the next planned substitution that waits starts. -/
theorem memKept_pumpPlanned (m : Mach) : MemKept m (pumpPlanned m) := by
  have hhlt : ∀ (x : HltSt) (u : Mach), MemKept u { u with hlt := x } := fun _ _ => memKept_of_eq rfl rfl rfl rfl rfl
  have hbusy : ∀ u, MemKept u (fset HLT_STATUS.remap_busy 1 u) := memKept_fset (by decide) 1
  have htrick : ∀ r : KittyRes, MemKept m (if r.kind.val = 0 then wantTrick (.path (toPath r.pool)) m
      else if r.kind.val = 1 then wantTrick (.obs (toObs r.pool)) m else m) := fun r => by
    split
    · exact memKept_wantTrick _ m
    · split
      · exact memKept_wantTrick _ m
      · exact .refl m
  unfold pumpPlanned
  split
  · split
    · exact .refl m
    · next r _ _ _ _ => exact ((htrick r).trans (hhlt _ _)).trans (hbusy _)
  · exact .refl m

/-! ### A row or a bank is retired (R333 to R335, R439) -/

theorem memKept_retirePlan {r : KittyRes} (h : r.kind.val = 5 ∨ r.kind.val = 6) (n : Nat) (m : Mach) :
    MemKept m (retirePlan r n m) := by
  have hempty : ∀ u, emptyPool r u = u := fun u => by
    rcases h with h | h <;> simp [emptyPool, h]
  have hlog : MemKept m (logRetired r.kind.val r.phys (resLog r) n m) := memKept_logCode ..
  have hhlt : ∀ (x : HltSt) (u : Mach), MemKept u { u with hlt := x } := fun _ _ => memKept_of_eq rfl rfl rfl rfl rfl
  unfold retirePlan
  dsimp -proj -iota -eta only
  split
  · exact ((hlog.trans (hhlt _ _)).trans (memKept_setRemap _ _)).trans (memKept_pumpPlanned _)
  · rw [hempty]
    exact (hlog.trans (memKept_setRemap _ _)).trans (memKept_markWorn ..)

theorem memKept_rowsOut {r : KittyRes} (h : r.kind.val = 5) (n : Nat) (m : Mach) : MemKept m (rowsOut r n m) := by
  unfold rowsOut
  dsimp -proj -iota -eta only
  split
  · split
    · exact .refl m
    · exact (memKept_setRemap _ m).trans (memKept_retirePlan (r := ⟨6, 0, r.pool, r.logical⟩) (.inr rfl) n _)
  · exact memKept_retirePlan (.inl h) n m

theorem memKept_retire {r : KittyRes} (h : r.kind.val = 5 ∨ r.kind.val = 6) (n : Nat) (m : Mach) : MemKept m (retire r n m) := by
  rcases h with h | h
  · have hretire : retire r n m = rowsOut r n m := by simp only [retire, h]
    rw [hretire]
    exact memKept_rowsOut h n m
  · have hretire : retire r n m = retirePlan r n m := by simp only [retire, h]
    rw [hretire]
    exact memKept_retirePlan (.inr h) n m

theorem memKept_countEvent {r : KittyRes} (h : r.kind.val = 5 ∨ r.kind.val = 6) (m : Mach) : MemKept m (countEvent r m) := by
  have hhlt : ∀ (x : HltSt) (u : Mach), MemKept u { u with hlt := x } := fun _ _ => memKept_of_eq rfl rfl rfl rfl rfl
  unfold countEvent
  dsimp -proj -iota -eta only
  split
  · exact .refl m
  · split
    · exact ((hhlt _ m).trans (hhlt _ _)).trans (memKept_retire h _ _)
    · exact hhlt _ m

/-- A row's or a bank's correctable event is no event of a tile. -/
theorem correctable_of_reservoir {r : KittyRes} (h : r.kind.val = 5 ∨ r.kind.val = 6) (m : Mach) :
    correctable r m = countEvent r m := by
  rcases h with h | h <;> simp [correctable, h]

theorem memKept_unitCorrected (a : Nat) (m : Mach) : MemKept m (unitCorrected a m) := by
  unfold unitCorrected
  dsimp -proj -iota -eta only
  rw [correctable_of_reservoir (.inr rfl), correctable_of_reservoir (.inl rfl)]
  exact (memKept_countEvent (.inl rfl) m).trans (memKept_countEvent (.inr rfl) _)

/-- With its kind's retirement off, a correctable event is counted, and nothing else. -/
theorem countEvent_of_off {r : KittyRes} {m : Mach} (h : fon (HLT_RETIRE.en r.kind.val) m = false) :
    ∃ x, countEvent r m = { m with hlt := x } := by
  unfold countEvent
  dsimp -proj -iota -eta only
  split
  · exact ⟨m.hlt, rfl⟩
  · rw [if_neg]
    · exact ⟨_, rfl⟩
    · rintro ⟨hon, -⟩
      have hoff : fon (HLT_RETIRE.en r.kind.val) m = true := hon
      simp [h] at hoff

theorem unitCorrected_of_off {a : Nat} {m : Mach} (hrow : fon (HLT_RETIRE.en 5) m = false) (hbank : fon (HLT_RETIRE.en 6) m = false) :
    ∃ x, unitCorrected a m = { m with hlt := x } := by
  unfold unitCorrected
  dsimp -proj -iota -eta only
  rw [correctable_of_reservoir (.inr rfl), correctable_of_reservoir (.inl rfl)]
  obtain ⟨x, hx⟩ := countEvent_of_off (r := ⟨5, physBank (bankOfUnit (a / 8)) m, a / 65536 % 1024, bankOfUnit (a / 8)⟩) hrow
  rw [hx]
  exact countEvent_of_off (r := ⟨6, 0, physBank (bankOfUnit (a / 8)) m, bankOfUnit (a / 8)⟩) (m := { m with hlt := x }) hbank

end Sys2Proof.Machine

/-! SUPPORT. Scrub reads of the reservoir (R328 to R330), window reads and writes (R337), and quotas (R339). -/

namespace Sys2Proof.Machine

/-! ### Errors found by a read (R328) -/

theorem toNat_cnt (a k : Nat) (m : Mach) : (rd a (cnt a k 0xFFFFFFFF m)).toNat = min 0xFFFFFFFF ((rd a m).toNat + k) := by
  rw [cnt, rd_wr_same, BitVec.toNat_ofNat, Nat.mod_eq_of_lt (by omega)]

/-- A double error is counted at its unit and reported. -/
theorem reportUe_leaves (a : Nat) (m : Mach) : storesKept m (reportUe a m) ∧ MarksKept m (reportUe a m) ∧
    (reportUe a m).out = m.out ∧ fon RES_EVENTS.ue (reportUe a m) = true ∧
    rd RES_ERR_ADDR (reportUe a m) = BitVec.ofNat 32 (a / 8 * 8) ∧
    (rd RES_UE_COUNT (reportUe a m)).toNat = min 0xFFFFFFFF ((rd RES_UE_COUNT m).toNat + 1) := by
  have hcount : MarksKept m (cnt RES_UE_COUNT 1 0xFFFFFFFF m) := marksKept_wr (by decide) _ m
  have haddr := hcount.trans (marksKept_wr (a := RES_ERR_ADDR) (by decide) (BitVec.ofNat 32 (a / 8 * 8)) _)
  have hstores : storesKept m (wr RES_ERR_ADDR (BitVec.ofNat 32 (a / 8 * 8)) (cnt RES_UE_COUNT 1 0xFFFFFFFF m)) :=
    ⟨rfl, rfl, rfl, rfl⟩
  refine ⟨hstores.trans (storesKept_setEv _ _), haddr.trans (marksKept_setEv (by decide) _), out_setEv _ _,
    fon_setEv rfl (by decide) (by decide) (by decide) _, ?_, ?_⟩
  · rw [reportUe, rd_setEv (by decide) (by decide) (by decide), rd_wr_same]
  · rw [reportUe, rd_setEv (by decide) (by decide) (by decide), rd_wr_other (by decide), toNat_cnt]

/-- A single error is counted and reported. -/
theorem reportCe_leaves (m : Mach) : storesKept m (reportCe m) ∧ MarksKept m (reportCe m) ∧ fon RES_EVENTS.ce (reportCe m) = true ∧
    (rd RES_CE_COUNT (reportCe m)).toNat = min 0xFFFFFFFF ((rd RES_CE_COUNT m).toNat + 1) ∧
    ∀ k, fon (HLT_RETIRE.en k) (reportCe m) = fon (HLT_RETIRE.en k) m := by
  have hcount : MarksKept m (cnt RES_CE_COUNT 1 0xFFFFFFFF m) := marksKept_wr (by decide) _ m
  have hstores : storesKept m (cnt RES_CE_COUNT 1 0xFFFFFFFF m) := ⟨rfl, rfl, rfl, rfl⟩
  have hregs : regsKept [RES_CE_COUNT, RES_EVENTS, HLT_LOG_WPTR, HLT_EVENTS] m (reportCe m) :=
    ((regsKept_wr RES_CE_COUNT _ m).mono (by simp)).trans
      ((regsKept_setEv RES_EVENTS.ce _).mono (List.subset_cons_self _ _))
  refine ⟨hstores.trans (storesKept_setEv _ _), hcount.trans (marksKept_setEv (by decide) _),
    fon_setEv rfl (by decide) (by decide) (by decide) _, ?_, fun k => hregs.fon ?_⟩
  · rw [reportCe, rd_setEv (by decide) (by decide) (by decide), toNat_cnt]
  · simp only [HLT_RETIRE.en, HLT_RETIRE, RES_CE_COUNT, RES_EVENTS, HLT_LOG_WPTR, HLT_EVENTS, List.mem_cons, List.not_mem_nil,
      or_false]
    omega

/-! ### Scrub reads (R330) -/

theorem exec_scrubRead {n : Nat} (h : n < 0x800000) (e : EccErr) (s : State) :
    exec (.scrubRead n e) s = .next (s.withM (doScrubRead n e s.m)) := by
  have hunit : unitOk n = true := decide_eq_true h
  change answerIf (unitOk n) s _ = _
  rw [hunit]; rfl

/-- A unit beyond the last is no command (assumption 9). -/
theorem scrubRead_missing {n : Nat} (h : 0x800000 ≤ n) (e : EccErr) (s : State) :
    exec (.scrubRead n e) s = .fault .malformedCommand := by
  have hunit : unitOk n = false := decide_eq_false (by omega)
  change answerIf (unitOk n) s _ = _
  rw [hunit]; rfl

theorem doScrubRead_off {m : Mach} (h : coreOn m = false) (n : Nat) (e : EccErr) : doScrubRead n e m = m := by
  simp [doScrubRead, h]

theorem doScrubRead_poisoned {n : Nat} {m : Mach} (hcore : coreOn m = true) (hp : poisoned (resLo + 8 * n) m = true) (e : EccErr) :
    doScrubRead n e m = reportUe (resLo + 8 * n) m := by
  simp [doScrubRead, hcore, corrects, eccRead, hp]

theorem doScrubRead_clean {n : Nat} {m : Mach} (hp : poisoned (resLo + 8 * n) m = false) : doScrubRead n .clean m = m := by
  simp [doScrubRead, corrects, eccRead, hp]

theorem doScrubRead_corrected {n : Nat} {m : Mach} (hcore : coreOn m = true) (hp : poisoned (resLo + 8 * n) m = false) :
    doScrubRead n .corrected m = unitCorrected (resLo + 8 * n) (reportCe m) := by
  simp [doScrubRead, hcore, corrects, eccRead, hp]

theorem doScrubRead_double {n : Nat} {m : Mach} (hcore : coreOn m = true) (hp : poisoned (resLo + 8 * n) m = false) :
    doScrubRead n .double m = reportUe (resLo + 8 * n) (setPoison (resLo + 8 * n) true m) := by
  simp [doScrubRead, hcore, corrects, eccRead, hp]

/-- R328: a corrected unit is counted, for its row and its bank as well. -/
theorem unitCorrected_leaves (a : Nat) (m : Mach) : let u := unitCorrected a (reportCe m)
    fon RES_EVENTS.ce u = true ∧ (rd RES_CE_COUNT u).toNat = min 0xFFFFFFFF ((rd RES_CE_COUNT m).toNat + 1) ∧ u.res = m.res ∧
    u.tiles = m.tiles ∧ (∀ b, offLog b m → poisoned b u = poisoned b m) ∧
    (fon (HLT_RETIRE.en 5) m = false → fon (HLT_RETIRE.en 6) m = false → storesKept m u) := by
  obtain ⟨hstores, hmarks, hce, hcount, hretire⟩ := reportCe_leaves m
  have hkept := memKept_unitCorrected a (reportCe m)
  obtain ⟨hres, -, -, htiles⟩ := hstores
  refine ⟨?_, ?_, hkept.res.trans hres, hkept.tiles.trans htiles, (hmarks.trans hkept.poison).marks, fun hrow hbank => ?_⟩
  · rw [fon, fget, hkept.regs RES_EVENTS.ce.reg (by decide) (by decide)]
    exact hce
  · rw [hkept.regs RES_CE_COUNT (by decide) (by decide), hcount]
  · obtain ⟨x, hx⟩ := unitCorrected_of_off (a := a) ((hretire 5).trans hrow) ((hretire 6).trans hbank)
    rw [hx]
    exact (reportCe_leaves m).1

/-- R328: a double error poisons its unit, and no other off the event log. -/
theorem doubleFound_leaves (a : Nat) (m : Mach) : let u := reportUe a (setPoison a true m)
    storesKept m u ∧ fon RES_EVENTS.ue u = true ∧ rd RES_ERR_ADDR u = BitVec.ofNat 32 (a / 8 * 8) ∧
    (rd RES_UE_COUNT u).toNat = min 0xFFFFFFFF ((rd RES_UE_COUNT m).toNat + 1) ∧
    ∀ b, offLog b m → poisoned b u = if b / 8 = a / 8 then true else poisoned b m := by
  obtain ⟨hstores, hmarks, -, hue, haddr, hcount⟩ := reportUe_leaves a (setPoison a true m)
  exact ⟨hstores, hue, haddr, hcount, fun b hb => (hmarks.marks b hb).trans (poisoned_setPoison a true b m)⟩

/-! ### The window (R337) -/

theorem exec_resWindowWrite (a : Nat) (v : W) (s : State) :
    exec (.resWindowWrite a v) s = .next (s.withM (gate resLo (windowWrite a v) s.m)) := rfl

theorem exec_resWindowRead (a : Nat) (e : EccErr) (s : State) :
    exec (.resWindowRead a e) s = .next (s.withM (doResWindowRead a e s.m)) := rfl

theorem windowWrite_unmapped {a : Nat} {m : Mach} (h : resMapped a = false) (v : W) :
    windowWrite a v m = setEv GCTL_GLOBAL_EVENTS.addr_err m := by simp [windowWrite, h]

theorem windowWrite_cust {a : Nat} {m : Mach} (h : resMapped a = true) (hpart : partOf a m = some 7) (v : W) :
    windowWrite a v m = resWrite a (leBytes 4 v.toNat) m := by simp [windowWrite, h, hpart]

theorem windowWrite_readOnly {a i : Nat} {m : Mach} (h : resMapped a = true) (hpart : partOf a m = some i) (hpool : i ≠ 1)
    (hcust : i ≠ 7) (v : W) : windowWrite a v m = setEv RES_EVENTS.res_ro m := by
  simp [windowWrite, h, hpart]

end Sys2Proof.Machine

/-! SUPPORT. A write of the reservoir where no unit is poisoned (R329), and window accesses and quotas (R337, R339). -/

namespace Sys2Proof.Machine

/-! ### Bytes put one after the other -/

/-- An address that a list of bytes names, always with one value, reads that value. -/
theorem resByte_setBytes_same {l : List (Nat × Byte)} {c : Nat} {v : Byte} (hmem : ∃ p ∈ l, p.1 = c)
    (hval : ∀ p ∈ l, p.1 = c → p.2 = v) (m : Mach) : resByte c (each l (fun p s => setByte p.1 p.2 s) m) = v := by
  induction l generalizing m with
  | nil => simp at hmem
  | cons p l ih =>
    have hstep : each (p :: l) (fun p s => setByte p.1 p.2 s) m =
        each l (fun p s => setByte p.1 p.2 s) (setByte p.1 p.2 m) := rfl
    rw [hstep]
    by_cases hl : ∃ q ∈ l, q.1 = c
    · exact ih hl (fun q hq => hval q (List.mem_cons_of_mem _ hq)) _
    · have hp : p.1 = c := by
        obtain ⟨q, hq, hqc⟩ := hmem
        rcases List.mem_cons.1 hq with rfl | hq
        · exact hqc
        · exact absurd ⟨q, hq, hqc⟩ hl
      rw [resByte_setBytes_other fun q hq hqc => hl ⟨q, hq, hqc⟩, ← hp, resByte_setByte_same]
      exact hval p List.mem_cons_self hp

/-- The bytes of a write that fall into a unit. -/
theorem mem_inUnit_iff {a u : Nat} {bs : List Byte} {p : Nat × Byte} :
    p ∈ inUnit a u bs ↔ a ≤ p.1 ∧ bs[p.1 - a]? = some p.2 ∧ p.1 / 8 = u := by
  simp only [inUnit, List.mem_filter, List.mem_map, beq_iff_eq, Prod.exists, List.mem_zipIdx_iff_getElem?]
  constructor
  · rintro ⟨⟨b, i, hb, rfl⟩, hu⟩
    exact ⟨Nat.le_add_right a i, by simpa using hb, hu⟩
  · rintro ⟨ha, hb, hu⟩
    exact ⟨⟨p.2, p.1 - a, hb, Prod.ext (by simp only; omega) rfl⟩, hu⟩

/-! ### A write of one unit (R329) -/

theorem writeUnit_clean {a u : Nat} {bs : List Byte} {m : Mach} (h : poisoned (8 * u) m = false) :
    writeUnit a bs u m = each (inUnit a u bs) (fun p s => setByte p.1 p.2 s) (setPoison (8 * u) false m) := by
  simp [writeUnit, h]

/-- Bytes and poison marks are what a list of bytes and a mark change. -/
theorem setBytes_frame (l : List (Nat × Byte)) (m : Mach) :
    ∃ r, each l (fun p s => setByte p.1 p.2 s) m = { m with res := r } := by
  induction l generalizing m with
  | nil => exact ⟨m.res, rfl⟩
  | cons p l ih => exact ih (setByte p.1 p.2 m)

theorem writeUnit_frame {a u : Nat} {bs : List Byte} {m : Mach} (h : poisoned (8 * u) m = false) :
    ∃ r, writeUnit a bs u m = { setPoison (8 * u) false m with res := r } := by
  rw [writeUnit_clean h]
  exact setBytes_frame _ _

theorem poisoned_writeUnit {a u c : Nat} {bs : List Byte} {m : Mach} (h : poisoned (8 * u) m = false) (hc : poisoned c m = false) :
    poisoned c (writeUnit a bs u m) = false := by
  obtain ⟨r, hr⟩ := writeUnit_frame (a := a) (bs := bs) h
  rw [hr]
  change poisoned c (setPoison (8 * u) false m) = false
  rw [poisoned_setPoison, hc, ite_self]

theorem resByte_writeUnit {a u c : Nat} {bs : List Byte} {m : Mach} (h : poisoned (8 * u) m = false) :
    resByte c (writeUnit a bs u m) = if c / 8 = u ∧ a ≤ c ∧ c < a + bs.length then bs.getD (c - a) 0 else resByte c m := by
  rw [writeUnit_clean h]
  split
  · next hin =>
    obtain ⟨hu, hlo, hhi⟩ := hin
    have hget : bs[c - a]? = some (bs.getD (c - a) 0) := by
      rw [List.getD_eq_getElem?_getD, List.getElem?_eq_getElem (by omega)]; rfl
    refine resByte_setBytes_same ⟨(c, bs.getD (c - a) 0), mem_inUnit_iff.2 ⟨hlo, hget, hu⟩, rfl⟩ (fun p hp hpc => ?_) _
    obtain ⟨-, hp, -⟩ := mem_inUnit_iff.1 hp
    rw [hpc, hget] at hp
    exact (Option.some.inj hp).symm
  · next hout =>
    rw [resByte_setBytes_other, resByte_setPoison]
    rintro p hp rfl
    obtain ⟨hlo, hget, hu⟩ := mem_inUnit_iff.1 hp
    have := (List.getElem?_eq_some_iff.1 hget).1
    exact hout ⟨hu, hlo, by omega⟩

/-! ### A write of several units -/

section
variable {a : Nat} {bs : List Byte} {us : List Nat} {m : Mach} (h : ∀ u ∈ us, poisoned (8 * u) m = false)
include h

/-- Every unit but the first stays clean while the first is written. -/
theorem clean_writeUnit {u : Nat} (hu : u ∈ us) : ∀ v ∈ us, poisoned (8 * v) (writeUnit a bs u m) = false :=
  fun v hv => poisoned_writeUnit (h u hu) (h v hv)

theorem writeUnits_frame : ∃ r p, each us (writeUnit a bs) m = { m with res := r, poison := p } := by
  induction us generalizing m with
  | nil => exact ⟨m.res, m.poison, rfl⟩
  | cons u us ih =>
    obtain ⟨r, p, hframe⟩ := ih fun v hv => clean_writeUnit h List.mem_cons_self v (List.mem_cons_of_mem _ hv)
    obtain ⟨r', hunit⟩ := writeUnit_frame (a := a) (bs := bs) (h u List.mem_cons_self)
    have hstep : each (u :: us) (writeUnit a bs) m = each us (writeUnit a bs) (writeUnit a bs u m) := rfl
    rw [hstep, hframe, hunit]
    exact ⟨r, p, rfl⟩

theorem poisoned_writeUnits {c : Nat} (hc : poisoned c m = false) : poisoned c (each us (writeUnit a bs) m) = false := by
  induction us generalizing m with
  | nil => exact hc
  | cons u us ih =>
    exact ih (fun v hv => clean_writeUnit h List.mem_cons_self v (List.mem_cons_of_mem _ hv))
      (poisoned_writeUnit (h u List.mem_cons_self) hc)

theorem resByte_writeUnits (c : Nat) : resByte c (each us (writeUnit a bs) m) =
    if c / 8 ∈ us ∧ a ≤ c ∧ c < a + bs.length then bs.getD (c - a) 0 else resByte c m := by
  induction us generalizing m with
  | nil => simp [each]
  | cons u us ih =>
    have hstep : each (u :: us) (writeUnit a bs) m = each us (writeUnit a bs) (writeUnit a bs u m) := rfl
    rw [hstep, ih fun v hv => clean_writeUnit h List.mem_cons_self v (List.mem_cons_of_mem _ hv),
      resByte_writeUnit (h u List.mem_cons_self)]
    by_cases hin : a ≤ c ∧ c < a + bs.length
    · by_cases hu : c / 8 = u
      · simp [hin, hu]
      · simp [hin, hu]
    · simp [hin]
end

/-! ### A write of the reservoir -/

theorem clean_of_badUnits {a n : Nat} {m : Mach} (h : badUnits a n m = []) :
    ∀ u ∈ (List.range ((a + n + 7) / 8 - a / 8)).map (a / 8 + ·), poisoned (8 * u) m = false := fun u hu => by
  simpa using List.filter_eq_nil_iff.1 h u hu

theorem badUnits_of_clean {m : Mach} (h : ∀ c, poisoned c m = false) (a n : Nat) : badUnits a n m = [] := by
  simp [badUnits, h]

/-- A write without a poisoned unit changes bytes and marks only. -/
theorem resWrite_frame {a : Nat} {bs : List Byte} {m : Mach} (h : badUnits a bs.length m = []) :
    ∃ r p, resWrite a bs m = { m with res := r, poison := p } := writeUnits_frame (clean_of_badUnits h)

theorem poisoned_resWrite {a c : Nat} {bs : List Byte} {m : Mach} (h : badUnits a bs.length m = []) (hc : poisoned c m = false) :
    poisoned c (resWrite a bs m) = false := poisoned_writeUnits (clean_of_badUnits h) hc

theorem resByte_resWrite {a c : Nat} {bs : List Byte} {m : Mach} (h : badUnits a bs.length m = []) :
    resByte c (resWrite a bs m) = if a ≤ c ∧ c < a + bs.length then bs.getD (c - a) 0 else resByte c m := by
  rw [resWrite, resByte_writeUnits (clean_of_badUnits h)]
  by_cases hin : a ≤ c ∧ c < a + bs.length
  · have hmem : c / 8 ∈ (List.range ((a + bs.length + 7) / 8 - a / 8)).map (a / 8 + ·) :=
      List.mem_map.2 ⟨c / 8 - a / 8, List.mem_range.2 (by omega), by omega⟩
    rw [if_pos ⟨hmem, hin⟩, if_pos hin]
  · rw [if_neg fun hc => hin hc.2, if_neg hin]

/-- A write without a poisoned unit stores its bytes. -/
theorem resBytes_resWrite {a : Nat} {bs : List Byte} {m : Mach} (h : badUnits a bs.length m = []) :
    resBytes a bs.length (resWrite a bs m) = bs := by
  refine List.ext_getElem (by simp [resBytes]) fun i hi hi' => ?_
  simp only [resBytes, List.getElem_map, List.getElem_range, resByte_resWrite h]
  rw [if_pos (by omega), Nat.add_sub_cancel_left, List.getD_eq_getElem _ _ hi']

theorem bytesKept_resWrite (a : Nat) (bs : List Byte) (m : Mach) : bytesKept a bs.length m (resWrite a bs m) :=
  fun _ hc => resByte_resWrite_other hc m

/-! ### The window (R337) -/

/-- A word's address names one unit. -/
theorem badUnits_word {a : Nat} {m : Mach} (ha : a % 4 = 0) (h : poisoned a m = false) : badUnits a 4 m = [] := by
  have hone : (a + 4 + 7) / 8 - a / 8 = 1 := by omega
  have hunit : poisoned (8 * (a / 8)) m = poisoned a m := by simp [poisoned]
  simp [badUnits, hone, hunit, h]

/-- R329: a word's write of a poisoned unit is not applied. -/
theorem resWrite_poisonedWord {a : Nat} {bs : List Byte} {m : Mach} (ha : a % 4 = 0) (hlen : bs.length = 4) (h : poisoned a m = true) :
    resWrite a bs m = setEv RES_EVENTS.ue m := by
  have hone : (a + bs.length + 7) / 8 - a / 8 = 1 := by omega
  have hunit : poisoned (8 * (a / 8)) m = true := by rw [← h]; simp [poisoned]
  have hpart : (inUnit a (a / 8) bs).length < 8 := by
    refine Nat.lt_of_le_of_lt (List.length_filter_le _ _) ?_
    rw [List.length_map, List.length_zipIdx, hlen]
    decide
  rw [resWrite, hone]
  simp [each, writeUnit, hunit, hpart]

theorem resMapped_aligned {a : Nat} (h : resMapped a = true) : a % 4 = 0 := (of_decide_eq_true h).2.2

/-- A window write into CUST stores its word. -/
theorem windowWrite_cust_leaves {a : Nat} {m : Mach} (h : resMapped a = true) (hpart : partOf a m = some 7)
    (hclean : poisoned a m = false) (v : W) : let u := windowWrite a v m
    resBytes a 4 u = leBytes 4 v.toNat ∧ bytesKept a 4 m u ∧ u.regs = m.regs ∧ u.tiles = m.tiles := by
  have hlen : (leBytes 4 v.toNat).length = 4 := length_leBytes 4 _
  have hbad : badUnits a (leBytes 4 v.toNat).length m = [] := by
    rw [hlen]
    exact badUnits_word (resMapped_aligned h) hclean
  have hbytes := resBytes_resWrite hbad
  have hkept := bytesKept_resWrite a (leBytes 4 v.toNat) m
  obtain ⟨r, p, hframe⟩ := resWrite_frame hbad
  rw [hlen] at hbytes hkept
  simp only [windowWrite_cust h hpart]
  exact ⟨hbytes, hkept, by rw [hframe], by rw [hframe]⟩

theorem doResWindowRead_blocked {m : Mach} (h : reach resLo m = false) (a : Nat) (e : EccErr) :
    doResWindowRead a e m = { m with out := m.out ++ [.rdata 0#32] } := by
  simp [doResWindowRead, windowMeets, h, gateRead, returnWord, send]

theorem windowRead_mapped {a i : Nat} {m : Mach} (h : resMapped a = true) (hpart : partOf a m = some i) (hfw : i ≠ 6) (e : EccErr) :
    windowRead a e m = (if (eccRead a e m).1 then viewWord a m else 0#32, (eccRead a e m).2) := by
  simp [windowRead, h, hpart]

theorem doResWindowRead_clean {a i : Nat} {m : Mach} (hreach : reach resLo m = true) (h : resMapped a = true)
    (hpart : partOf a m = some i) (hfw : i ≠ 6) (hclean : poisoned a m = false) :
    doResWindowRead a .clean m = { m with out := m.out ++ [.rdata (viewWord a m)] } := by
  simp [doResWindowRead, corrects, gateRead, hreach, windowRead_mapped h hpart hfw, eccRead, hclean, returnWord, send]

theorem doResWindowRead_poisoned {a i : Nat} {m : Mach} (hreach : reach resLo m = true) (h : resMapped a = true)
    (hpart : partOf a m = some i) (hfw : i ≠ 6) (hp : poisoned a m = true) (e : EccErr) :
    doResWindowRead a e m = send (.rdata 0#32) (reportUe a m) := by
  simp [doResWindowRead, corrects, gateRead, hreach, windowRead_mapped h hpart hfw, eccRead, hp, returnWord]

/-! ### Quotas (R339) -/

theorem exec_partQuotaWrite {i : Fin 8} {s : State} (h : reach (RES_PART_QUOTA i) s.m = true) (v : W) :
    exec (.partQuotaWrite i v) s = .next (s.withM (quotaWrite i v s.m)) := by
  change answer s (gate (RES_PART_QUOTA i) (quotaWrite i v) s.m) = _
  rw [gate_reach h]; rfl

theorem quotaWrite_refused {i : Fin 8} {v : W} {m : Mach}
    (h : deckLoaded m = false ∨ 3 ≤ i.val ∨ fget (RES_PART_SIZE.size i) m < v.toNat % 2048) :
    quotaWrite i v m = setEv RES_EVENTS.quota_err m := by
  unfold quotaWrite quotaWritable
  rw [if_pos]
  rcases h with h | h | h
  · simp [h]
  · simp [Nat.not_lt.2 h]
  · simp [h]

theorem quotaWrite_taken {i : Fin 8} {v : W} {m : Mach} (hdeck : deckLoaded m = true) (hi : i.val < 3)
    (hfit : v.toNat % 2048 ≤ fget (RES_PART_SIZE.size i) m) : let u := quotaWrite i v m
    fget (RES_PART_QUOTA.quota i) u = v.toNat % 2048 ∧ regsKept [RES_PART_QUOTA i, DIR_STATUS] m u ∧ storesKept m u ∧
      fon DIR_STATUS.over_quota u = decide (partQuota 0 u < partUse 0 u) := by
  have happly : quotaWrite i v m = refreshOverQuota (fset (RES_PART_QUOTA.quota i) (v.toNat % 2048) m) := by
    unfold quotaWrite quotaWritable
    rw [if_neg]
    simp [hdeck, hi, Nat.not_lt.2 hfit]
  have hquota : (RES_PART_QUOTA i : Nat) ≠ DIR_STATUS := by unfold RES_PART_QUOTA DIR_STATUS; omega
  have hshown : ∀ u, regsKept [DIR_STATUS] u (refreshOverQuota u) := fun u => regsKept_fsetB DIR_STATUS.over_quota _ u
  have hlimit : ∀ u, partQuota 0 (refreshOverQuota u) = partQuota 0 u := fun u =>
    congrArg (· * 65536) ((hshown u).fget (f := RES_PART_QUOTA.quota 0) (by decide))
  have huse : ∀ u, partUse 0 (refreshOverQuota u) = partUse 0 u := fun u => (hshown u).fget (f := ⟨RES_PART_USE 0, 0, 27⟩) (by decide)
  rw [happly]
  refine ⟨?_, ?_, ⟨rfl, rfl, rfl, rfl⟩, ?_⟩
  · rw [(hshown _).fget (by simpa [RES_PART_QUOTA.quota] using hquota), fget_fset_same (by simp [RES_PART_QUOTA.quota])]
    exact Nat.mod_eq_of_lt (Nat.mod_lt _ (by decide))
  · exact ((regsKept_fset (RES_PART_QUOTA.quota i) _ m).mono (by simp [RES_PART_QUOTA.quota])).trans
      ((hshown _).mono (List.subset_cons_self _ _))
  · rw [hlimit, huse]
    exact fon_fsetB rfl (by decide) _ _

end Sys2Proof.Machine

/-! SUPPORT. What the pieces of a capture set's commands leave (R341 to R347): its registers, its hidden state, its bytes. -/

namespace Sys2Proof.Machine

/-! ### Registers of a capture set -/

/-- Two registers of one set at different offsets are different. -/
theorem capReg_ne {x y : Nat} (h : x ≠ y) (c : Nat) : x + 0x40 * c ≠ y + 0x40 * c := by omega

/-- A register below the sets' is none of theirs. -/
theorem ne_capReg {a x : Nat} (h : a < x) (c : Nat) : a ≠ x + 0x40 * c := by omega

@[simp] theorem rd_setCap (a k : Nat) (x : CapSet) (m : Mach) : rd a (setCap k x m) = rd a m := rfl
@[simp] theorem fget_setCap (f : Fld) (k : Nat) (x : CapSet) (m : Mach) : fget f (setCap k x m) = fget f m := rfl
@[simp] theorem getCap_wr (k a : Nat) (v : W) (m : Mach) : getCap k (wr a v m) = getCap k m := rfl
@[simp] theorem getCap_fset (k : Nat) (f : Fld) (x : Nat) (m : Mach) : getCap k (fset f x m) = getCap k m := rfl
@[simp] theorem res_fset (f : Fld) (x : Nat) (m : Mach) : (fset f x m).res = m.res := rfl
@[simp] theorem res_setCap (k : Nat) (x : CapSet) (m : Mach) : (setCap k x m).res = m.res := rfl

@[simp] theorem res_setCapState (c st : Nat) (m : Mach) : (setCapState c st m).res = m.res := rfl
@[simp] theorem res_setUse (i x : Nat) (m : Mach) : (setUse i x m).res = m.res := rfl
@[simp] theorem getCap_setCapState (k c st : Nat) (m : Mach) : getCap k (setCapState c st m) = getCap k m := rfl
@[simp] theorem getCap_setUse (k i x : Nat) (m : Mach) : getCap k (setUse i x m) = getCap k m := rfl

theorem getCap_setCap_other {j k : Nat} (h : j ≠ k) (x : CapSet) (m : Mach) : getCap j (setCap k x m) = getCap j m :=
  tabGet_tabPut_other _ _ _ h

@[simp] theorem getCap_setEv (k : Nat) (f : Fld) (m : Mach) : getCap k (setEv f m) = getCap k m := by
  obtain ⟨_, _, _, _, _, _, _, h⟩ := setEv_frame f m; rw [h]; rfl

theorem fget_wr_other {f : Fld} {a : Nat} (h : f.reg ≠ a) (v : W) (m : Mach) : fget f (wr a v m) = fget f m := by
  rw [fget, rd_wr_other h, ← fget]

/-! ### What a set's commands may change -/

/-- The registers of set `c` that its commands change, CAP's use, and those of an event. -/
def capRegs (c : Nat) : List Nat :=
  [RES_CAP_STATUS c, RES_CAP_WPTR c, RES_CAP_RPTR c, RES_CAP_WRAPS c, RES_CAP_LEN c, RES_CAP_CPL_LO c, RES_CAP_CPL_HI c,
    RES_CAP_T0_LO c, RES_CAP_T0_HI c, RES_PART_USE 2, RES_EVENTS, HLT_LOG_WPTR, HLT_EVENTS]

/-- Registers outside `capRegs c`, the other sets, the tiles, the staged values and the non-volatile memories are as before. -/
structure CapKept (c : Nat) (m u : Mach) : Prop where
  regs : regsKept (capRegs c) m u
  others : ∀ k, k ≠ c → getCap k u = getCap k m
  tiles : u.tiles = m.tiles
  stage : u.stage = m.stage
  nvm : u.nvm = m.nvm

theorem CapKept.refl (c : Nat) (m : Mach) : CapKept c m m := ⟨.refl _ m, fun _ _ => rfl, rfl, rfl, rfl⟩

theorem CapKept.trans {c : Nat} {m m' m'' : Mach} (h : CapKept c m m') (h' : CapKept c m' m'') : CapKept c m m'' where
  regs := h.regs.trans h'.regs
  others k hk := (h'.others k hk).trans (h.others k hk)
  tiles := h'.tiles.trans h.tiles
  stage := h'.stage.trans h.stage
  nvm := h'.nvm.trans h.nvm

theorem capKept_wr {c a : Nat} (h : a ∈ capRegs c) (v : W) (m : Mach) : CapKept c m (wr a v m) :=
  ⟨(regsKept_wr a v m).mono (by simpa using h), fun _ _ => rfl, rfl, rfl, rfl⟩

theorem capKept_fset {c : Nat} {f : Fld} (h : f.reg ∈ capRegs c) (x : Nat) (m : Mach) : CapKept c m (fset f x m) := capKept_wr h _ m

theorem capKept_status {c : Nat} {f : Fld} (h : f.reg = RES_CAP_STATUS c) (x : Nat) (m : Mach) : CapKept c m (fset f x m) :=
  capKept_fset (by simp [h, capRegs]) x m

theorem capKept_setCap (c : Nat) (x : CapSet) (m : Mach) : CapKept c m (setCap c x m) :=
  ⟨fun _ _ => rfl, fun _ hk => getCap_setCap_other hk x m, rfl, rfl, rfl⟩

theorem capKept_setUse (c x : Nat) (m : Mach) : CapKept c m (setUse 2 x m) := capKept_fset (by simp [capRegs]) x m

theorem capKept_setEv {f : Fld} (h : f.reg = RES_EVENTS) (c : Nat) (m : Mach) : CapKept c m (setEv f m) :=
  ⟨(regsKept_setEv f m).mono (by simp [h, capRegs]), fun k _ => getCap_setEv k f m, tiles_setEv f m, stage_setEv f m, nvm_setEv f m⟩

theorem capKept_resWrite {a : Nat} {bs : List Byte} {m : Mach} (h : badUnits a bs.length m = []) (c : Nat) :
    CapKept c m (resWrite a bs m) := by
  obtain ⟨r, p, hframe⟩ := resWrite_frame h
  rw [hframe]
  exact ⟨fun _ _ => rfl, fun _ _ => rfl, rfl, rfl, rfl⟩

/-! ### Use and state -/

theorem partUse_setUse {x : Nat} (h : x < 2 ^ 27) (i : Nat) (m : Mach) : partUse i (setUse i x m) = x := by
  rw [partUse, setUse, fget_fset_same (by decide : 0 + 27 ≤ 32)]
  exact Nat.mod_eq_of_lt h

theorem partUse_lt (i : Nat) (m : Mach) : partUse i m < 2 ^ 27 := fget_lt _ m

/-- R339: a quota has 11 bits of 64 KiB, so that a use within it does not run over. -/
theorem use_lt_of_capQuota {n : Nat} {m : Mach} (h : capQuota n m = true) : partUse 2 m + n < 2 ^ 27 := by
  have hquota : fget (RES_PART_QUOTA.quota 2) m < 2 ^ 11 := fget_lt _ m
  have hfit : partUse 2 m + n ≤ partQuota 2 m := of_decide_eq_true h
  unfold partQuota at hfit
  omega

theorem capState_setCapState {st : Nat} (h : st < 4) (c : Nat) (m : Mach) : capState c (setCapState c st m) = st := by
  rw [capState, setCapState, fget_fset_same (by decide : 0 + 2 ≤ 32)]
  exact Nat.mod_eq_of_lt h

theorem partUse_setCapState (c st : Nat) (m : Mach) : partUse 2 (setCapState c st m) = partUse 2 m :=
  fget_fset_other_reg (ne_capReg (by decide) c) st m

theorem capLen_setUse (c x : Nat) (m : Mach) : capLen c (setUse 2 x m) = capLen c m :=
  congrArg BitVec.toNat (rd_fset_other (ne_capReg (by decide) c).symm x m)

/-- The field `len_pending` beside the state and CAP's use. -/
theorem capState_lenPending (c x : Nat) (m : Mach) : capState c (fset (RES_CAP_STATUS.len_pending c) x m) = capState c m :=
  fget_fset_other (by decide : 2 + 1 ≤ 32) (.inr (.inr (by decide : 0 + 2 ≤ 2))) x m

theorem partUse_status {c : Nat} {f : Fld} (h : f.reg = RES_CAP_STATUS c) (x : Nat) (m : Mach) :
    partUse 2 (fset f x m) = partUse 2 m :=
  fget_fset_other_reg (by rw [h]; exact ne_capReg (by decide) c) x m

end Sys2Proof.Machine

/-! SUPPORT. ARM, trigger, stops and register writes of a capture set (R343, R344, R346, R347). -/

namespace Sys2Proof.Machine

theorem answer_gate_blocked {a : Nat} {s : State} (h : reach a s.m = false) (f : Mach → Mach) :
    answer s (gate a f s.m) = .next s := by
  rw [gate_blocked h]; rfl

/-! ### ARM (R343) -/

theorem exec_capArm {c : Fin 8} {s : State} (h : reach (RES_CAP_CMD c) s.m = true) :
    exec (.capArm c) s = .next (s.withM (capArm c s.m)) := answer_gate_reach h (capArm c)

theorem exec_capStop {c : Fin 8} {s : State} (h : reach (RES_CAP_CMD c) s.m = true) :
    exec (.capStop c) s = .next (s.withM (capStop c s.m)) := answer_gate_reach h (capStop c)

theorem exec_capRelease {c : Fin 8} {s : State} (h : reach (RES_CAP_CMD c) s.m = true) :
    exec (.capRelease c) s = .next (s.withM (capRelease c s.m)) := answer_gate_reach h (capRelease c)

theorem capCmd_blocked {c : Fin 8} {s : State} (h : reach (RES_CAP_CMD c) s.m = false) :
    exec (.capArm c) s = .next s ∧ exec (.capStop c) s = .next s ∧ exec (.capRelease c) s = .next s :=
  ⟨answer_gate_blocked h (capArm c), answer_gate_blocked h (capStop c), answer_gate_blocked h (capRelease c)⟩

theorem capArm_refused {c : Nat} {m : Mach} {f : Fld} (h : armRefusal c m = some f) : capArm c m = setEv f m := by
  simp [capArm, h]

theorem armRefusal_of_state {c : Nat} {m : Mach} (h : capState c m = 1 ∨ capState c m = 2) :
    armRefusal c m = some RES_EVENTS.cap_err := by
  unfold armRefusal
  exact if_pos (by omega)

/-- A set that ARM takes is FREE or HELD, and a FREE one's length is within CAP's quota. -/
theorem armable {c : Nat} {m : Mach} (h : armRefusal c m = none) :
    (capState c m = 0 ∨ capState c m = 3) ∧ (capState c m = 0 → capQuota (capLen c m) m = true) := by
  unfold armRefusal at h
  dsimp only at h
  constructor
  · by_contra hst
    rw [if_pos hst] at h
    cases h
  · intro hst
    by_contra hquota
    rw [Bool.not_eq_true] at hquota
    simp only [hst, hquota, true_or, not_true_eq_false, true_and, ↓reduceIte] at h
    split_ifs at h

/-- ARM's pointers, flags and counts. -/
theorem clearCap_leaves (c : Nat) (m : Mach) : let u := clearCap c m
    CapKept c m u ∧ rd (RES_CAP_WPTR c) u = 0#32 ∧ rd (RES_CAP_RPTR c) u = 0#32 ∧ rd (RES_CAP_WRAPS c) u = 0#32 ∧
    (getCap c u).recs = 0 ∧ capLen c u = capLen c m ∧ partUse 2 u = partUse 2 m ∧ u.res = m.res := by
  have hkept : CapKept c m (clearCap c m) :=
    ((((capKept_wr (by simp [capRegs]) _ m).trans (capKept_wr (by simp [capRegs]) _ _)).trans (capKept_wr (by simp [capRegs]) _ _)).trans
      (capKept_wr (by simp [capRegs]) _ _)).trans (capKept_setCap c _ _)
  refine ⟨hkept, ?_, ?_, ?_, by rw [clearCap, getCap_setCap_same], ?_, ?_, by rw [clearCap, res_setCap, res_wr, res_wr, res_wr, res_wr]⟩
  · simp [clearCap, rd_wr, RES_CAP_WPTR, RES_CAP_RPTR, RES_CAP_WRAPS]
  · simp [clearCap, rd_wr, RES_CAP_RPTR, RES_CAP_WRAPS]
  · simp [clearCap]
  · simp [clearCap, capLen, rd_wr, RES_CAP_LEN, RES_CAP_WPTR, RES_CAP_RPTR, RES_CAP_WRAPS, RES_CAP_STATUS]
  · have hwraps : RES_PART_USE 2 ≠ RES_CAP_WRAPS c := ne_capReg (by decide) c
    have hrptr : RES_PART_USE 2 ≠ RES_CAP_RPTR c := ne_capReg (by decide) c
    have hwptr : RES_PART_USE 2 ≠ RES_CAP_WPTR c := ne_capReg (by decide) c
    have hstatus : RES_PART_USE 2 ≠ RES_CAP_STATUS c := ne_capReg (by decide) c
    rw [partUse, clearCap, fget_setCap, fget_wr_other hwraps, fget_wr_other hrptr, fget_wr_other hwptr, fget_wr_other hstatus]
    rfl

/-- A FREE set takes its length from the quota. -/
def capCharged (c : Nat) (m : Mach) : Mach := if capState c m = 0 then setUse 2 (partUse 2 m + capLen c m) m else m

theorem capCharged_leaves {c : Nat} {m : Mach} (h : armRefusal c m = none) : let u := capCharged c m
    CapKept c m u ∧ capLen c u = capLen c m ∧ partUse 2 u = partUse 2 m + (if capState c m = 0 then capLen c m else 0) ∧
      u.res = m.res := by
  obtain ⟨-, hquota⟩ := armable h
  unfold capCharged
  by_cases hst : capState c m = 0
  · rw [if_pos hst, if_pos hst]
    exact ⟨capKept_setUse c _ m, capLen_setUse c _ m, partUse_setUse (use_lt_of_capQuota (hquota hst)) 2 m, res_setUse ..⟩
  · rw [if_neg hst, if_neg hst]
    exact ⟨.refl c m, rfl, rfl, rfl⟩

/-- An accepted ARM. -/
theorem capArm_taken {c : Nat} {m : Mach} (h : armRefusal c m = none) : let u := capArm c m
    CapKept c m u ∧ capState c u = 1 ∧ rd (RES_CAP_WPTR c) u = 0#32 ∧ rd (RES_CAP_RPTR c) u = 0#32 ∧ rd (RES_CAP_WRAPS c) u = 0#32 ∧
      (getCap c u).recs = 0 ∧ capLen c u = capLen c m ∧ partUse 2 u = partUse 2 m + (if capState c m = 0 then capLen c m else 0) ∧
      u.res = m.res := by
  have happly : capArm c m = setCapState c 1 (clearCap c (capCharged c m)) := by
    unfold capArm
    rw [h]
    rfl
  obtain ⟨hkept1, hlen1, huse1, hres1⟩ := capCharged_leaves h
  obtain ⟨hkept, hw, hr, hn, hrecs, hlen, huse, hres⟩ := clearCap_leaves c (capCharged c m)
  have hstate : ∀ {a u}, a ≠ RES_CAP_STATUS c → rd a (setCapState c 1 u) = rd a u :=
    fun ha => rd_fset_other (f := RES_CAP_STATUS.state c) ha _ _
  have hwptr : RES_CAP_WPTR c ≠ RES_CAP_STATUS c := capReg_ne (by decide) c
  have hrptr : RES_CAP_RPTR c ≠ RES_CAP_STATUS c := capReg_ne (by decide) c
  have hwraps : RES_CAP_WRAPS c ≠ RES_CAP_STATUS c := capReg_ne (by decide) c
  have hlength : RES_CAP_LEN c ≠ RES_CAP_STATUS c := capReg_ne (by decide) c
  rw [happly]
  refine ⟨(hkept1.trans hkept).trans (capKept_status rfl _ _), capState_setCapState (by decide) c _, ?_, ?_, ?_, hrecs, ?_,
    ?_, hres.trans hres1⟩
  · rw [hstate hwptr, hw]
  · rw [hstate hrptr, hr]
  · rw [hstate hwraps, hn]
  · rw [capLen, hstate hlength, ← capLen, hlen, hlen1]
  · exact (partUse_setCapState c 1 _).trans (huse.trans huse1)

/-! ### The trigger (R342, R343) -/

theorem exec_capTrigger (c : Fin 8) (s : State) : exec (.capTrigger c) s = .next (s.withM (capTrigger c s.m)) := rfl

theorem capTrigger_waits {c : Nat} {m : Mach} (h : ¬ (capState c m = 1 ∧ trigDue c m = true)) : capTrigger c m = m := if_neg h

theorem capTrigger_fires {c : Nat} {m : Mach} (h : capState c m = 1 ∧ trigDue c m = true) : let u := capTrigger c m
    CapKept c m u ∧ capState c u = 2 ∧ (getCap c u).trigAt = trigTick (fget (RES_CAP_CTRL.trig c) m) m ∧ u.res = m.res := by
  unfold capTrigger
  rw [if_pos h]
  dsimp -proj -iota -eta only
  generalize hy : ({ getCap c m with trigAt := trigTick (fget (RES_CAP_CTRL.trig c) m) m, wait := _ } : CapSet) = y
  have htrig : y.trigAt = trigTick (fget (RES_CAP_CTRL.trig c) m) m := by rw [← hy]
  have hkept : CapKept c m (setCapState c 2 (setCap c y m)) := (capKept_setCap c y m).trans (capKept_status rfl _ _)
  have hstate : capState c (setCapState c 2 (setCap c y m)) = 2 := capState_setCapState (by decide) c _
  have hset : getCap c (setCapState c 2 (setCap c y m)) = y := getCap_setCap_same c y m
  split
  · exact ⟨hkept, hstate, by rw [hset, htrig], by rw [res_setCapState, res_setCap]⟩
  · refine ⟨(hkept.trans (capKept_wr (by simp [capRegs]) _ _)).trans (capKept_wr (by simp [capRegs]) _ _), ?_, ?_,
      by rw [res_wr, res_wr, res_setCapState, res_setCap]⟩
    · have hhi : (RES_CAP_STATUS.state c).reg ≠ RES_CAP_CPL_HI c := capReg_ne (by decide) c
      have hlo : (RES_CAP_STATUS.state c).reg ≠ RES_CAP_CPL_LO c := capReg_ne (by decide) c
      rw [capState, fget_wr_other hhi, fget_wr_other hlo]
      exact hstate
    · rw [getCap_wr, getCap_wr, hset, htrig]

/-! ### The ends of a run (R344) -/

theorem exec_capSnapshotDone (c : Fin 8) (s : State) : exec (.capSnapshotDone c) s = .next (s.withM (capSnapshotDone c s.m)) := rfl
theorem exec_capStopDone (c : Fin 8) (s : State) : exec (.capStopDone c) s = .next (s.withM (capStopDone c s.m)) := rfl

theorem capSnapshotDone_waits {c : Nat} {m : Mach} (h : ¬ (capState c m = 2 ∧ capMode c m = 1 ∧ (getCap c m).stopping = 0 ∧
    capNrec c m ≤ (getCap c m).recs)) : capSnapshotDone c m = m := if_neg h

theorem capSnapshotDone_full {c : Nat} {m : Mach} (h : capState c m = 2 ∧ capMode c m = 1 ∧ (getCap c m).stopping = 0 ∧
    capNrec c m ≤ (getCap c m).recs) : let u := capSnapshotDone c m
    CapKept c m u ∧ capState c u = 3 ∧ fon RES_EVENTS.cap_done u = true ∧ u.res = m.res := by
  unfold capSnapshotDone
  rw [if_pos h]
  refine ⟨(capKept_status rfl _ m).trans (capKept_setEv rfl c _), ?_, fon_setEv rfl (by decide) (by decide) (by decide) _, ?_⟩
  · have hregs := regsKept_setEv RES_EVENTS.cap_done (setCapState c 3 m)
    refine (hregs.fget ?_).trans (capState_setCapState (by decide) c m)
    simp only [RES_CAP_STATUS.state, RES_CAP_STATUS, RES_EVENTS.cap_done, RES_EVENTS, HLT_LOG_WPTR, HLT_EVENTS, List.mem_cons,
      List.not_mem_nil, or_false]
    omega
  · rw [res_setEv, res_setCapState]

theorem capStop_running {c : Nat} {m : Mach} (hst : capState c m = 2) (h : (getCap c m).stopping = 0) :
    capStop c m = setCap c { getCap c m with stopping := 1 } m := if_pos ⟨hst, h⟩

/-- DESIGN CHOICE (assumption 23). -/
theorem capStop_notRunning {c : Nat} {m : Mach} (hst : capState c m ≠ 2) : capStop c m = m := if_neg fun h => hst h.1

theorem capRelease_free {c : Nat} {m : Mach} (hst : capState c m = 0) : capRelease c m = m := by
  simp [capRelease, hst]

theorem capRelease_running {c : Nat} {m : Mach} (hst : capState c m = 2) :
    capRelease c m = setCap c { getCap c m with stopping := 2 } m := by simp [capRelease, hst]

theorem capRelease_armedOrHeld {c : Nat} {m : Mach} (hst : capState c m = 1 ∨ capState c m = 3) : capRelease c m = freeCap c m := by
  rcases hst with hst | hst <;> simp [capRelease, hst]

/-- The set's bytes return to the quota. -/
theorem freeCap_leaves (c : Nat) (m : Mach) : let u := freeCap c m
    CapKept c m u ∧ capState c u = 0 ∧ partUse 2 u = partUse 2 m - capHeld c m ∧ u.res = m.res := by
  have huse : partUse 2 m - capHeld c m < 2 ^ 27 := Nat.lt_of_le_of_lt (Nat.sub_le _ _) (partUse_lt 2 m)
  unfold freeCap
  refine ⟨(((capKept_setUse c _ m).trans (capKept_setCap c _ _)).trans (capKept_status rfl _ _)).trans (capKept_status rfl _ _),
    ?_, ?_, by rw [res_fset, res_setCapState, res_setCap, res_setUse]⟩
  · rw [capState_lenPending]
    exact capState_setCapState (by decide) c _
  · rw [partUse_status rfl, partUse_setCapState]
    exact partUse_setUse huse 2 m

theorem capStopDone_idle {c : Nat} {m : Mach} (h : capState c m ≠ 2 ∨ (getCap c m).stopping = 0) : capStopDone c m = m := if_pos h

theorem capStopDone_released {c : Nat} {m : Mach} (hst : capState c m = 2) (h : (getCap c m).stopping = 2) :
    capStopDone c m = freeCap c m := by simp [capStopDone, hst, h]

/-- A stopped set is HELD; a pending length is dropped (DEDUCED, assumption 24). -/
theorem capStopDone_stopped {c : Nat} {m : Mach} (hst : capState c m = 2) (h : (getCap c m).stopping = 1) : let u := capStopDone c m
    CapKept c m u ∧ capState c u = 3 ∧ u.res = m.res ∧ (getCap c u).lenPend = none ∧
      partUse 2 u = partUse 2 m - (capHeld c m - capLen c m) := by
  have huse : partUse 2 m - (capHeld c m - capLen c m) < 2 ^ 27 := Nat.lt_of_le_of_lt (Nat.sub_le _ _) (partUse_lt 2 m)
  have happly : capStopDone c m = fset (RES_CAP_STATUS.len_pending c) 0 (setCapState c 3 (setUse 2
      (partUse 2 m - (capHeld c m - capLen c m)) (setCap c { getCap c m with stopping := 0, lenPend := none, wait := [] } m))) := by
    simp [capStopDone, hst, h]
  rw [happly]
  refine ⟨(((capKept_setCap c _ m).trans (capKept_setUse c _ _)).trans (capKept_status rfl _ _)).trans (capKept_status rfl _ _),
    ?_, by rw [res_fset, res_setCapState, res_setUse, res_setCap], ?_, ?_⟩
  · rw [capState_lenPending]
    exact capState_setCapState (by decide) c _
  · rw [getCap_fset, getCap_setCapState, getCap_setUse, getCap_setCap_same]
  · rw [partUse_status rfl, partUse_setCapState]
    exact partUse_setUse huse 2 _

/-! ### The length (R346) -/

theorem exec_capLenWrite {c : Fin 8} {s : State} (h : reach (RES_CAP_LEN c) s.m = true) (v : W) :
    exec (.capLenWrite c v) s = .next (s.withM (capLenWrite c v s.m)) := answer_gate_reach h (capLenWrite c v)

theorem capLenWrite_bad {c : Nat} {v : W} {m : Mach} (h : v.toNat % 64 ≠ 0 ∨ v.toNat < 4096) :
    capLenWrite c v m = setEv RES_EVENTS.cap_err m := if_pos h

theorem capLenNow_toNat (c : Nat) (v : W) (m : Mach) : capLenNow c v.toNat m = wr (RES_CAP_LEN c) v m := by
  rw [capLenNow, BitVec.ofNat_toNat, BitVec.setWidth_eq]

/-- An increase that is not refused stays within CAP's quota. -/
theorem use_lt_of_lenRefusal {c n : Nat} {m : Mach} (h : lenRefusal c n m = none) : partUse 2 m + n - capHeld c m < 2 ^ 27 := by
  have huse := partUse_lt 2 m
  by_cases hn : n ≤ capHeld c m
  · omega
  · have hquota : capQuota (n - capHeld c m) m = true := by
      by_contra hq
      rw [Bool.not_eq_true] at hq
      simp [lenRefusal, hn, hq] at h
    have := use_lt_of_capQuota hquota
    omega

section
variable {c : Nat} {v : W} {m : Mach} (h64 : v.toNat % 64 = 0) (hmin : 4096 ≤ v.toNat)
include h64 hmin

theorem capLenWrite_free (hst : capState c m = 0) : capLenWrite c v m = wr (RES_CAP_LEN c) v m := by
  rw [← capLenNow_toNat]
  simp [capLenWrite, h64, Nat.not_lt.2 hmin, hst]

theorem capLenWrite_snapshot (hst : capState c m = 1 ∨ capState c m = 2) (hmode : capMode c m = 1) :
    capLenWrite c v m = setEv RES_EVENTS.cap_err m := by
  have hrun : capState c m ≠ 0 := by omega
  simp [capLenWrite, h64, Nat.not_lt.2 hmin, hst, hmode, hrun]

theorem capLenWrite_refused {f : Fld} (hst : capState c m = 3) (h : lenRefusal c v.toNat m = some f) :
    capLenWrite c v m = setEv f m := by
  simp [capLenWrite, h64, Nat.not_lt.2 hmin, hst, h]

theorem capLenWrite_held (hst : capState c m = 3) (h : lenRefusal c v.toNat m = none) : let u := capLenWrite c v m
    CapKept c m u ∧ rd (RES_CAP_LEN c) u = v ∧ u.res = m.res ∧ partUse 2 u = partUse 2 m + v.toNat - capHeld c m := by
  have happly : capLenWrite c v m = wr (RES_CAP_LEN c) v (setUse 2 (partUse 2 m + v.toNat - capHeld c m) m) := by
    rw [← capLenNow_toNat]
    simp [capLenWrite, h64, Nat.not_lt.2 hmin, hst, h]
  rw [happly]
  refine ⟨(capKept_setUse c _ m).trans (capKept_wr (by simp [capRegs]) v _), rd_wr_same _ v _, by rw [res_wr, res_setUse], ?_⟩
  have huse : RES_PART_USE 2 ≠ RES_CAP_LEN c := ne_capReg (by decide) c
  rw [partUse, fget_wr_other huse]
  exact partUse_setUse (use_lt_of_lenRefusal h) 2 m

/-- In CONTINUOUS the length waits for the wrap. -/
theorem capLenWrite_pending (hst : capState c m = 1 ∨ capState c m = 2) (hmode : capMode c m ≠ 1)
    (h : lenRefusal c v.toNat m = none) : let u := capLenWrite c v m
    CapKept c m u ∧ capLen c u = capLen c m ∧ (getCap c u).lenPend = some v.toNat ∧ fon (RES_CAP_STATUS.len_pending c) u = true := by
  have hfree : capState c m ≠ 0 := by omega
  have hheld : capState c m ≠ 3 := by omega
  have hgood : ¬ (v.toNat % 64 ≠ 0 ∨ v.toNat < 4096) := by omega
  have hrunning : ¬ ((capState c m = 1 ∨ capState c m = 2) ∧ capMode c m = 1) := fun hm => hmode hm.2
  have happly : capLenWrite c v m = fset (RES_CAP_STATUS.len_pending c) 1 (setCap c { getCap c m with lenPend := some v.toNat }
      (setUse 2 (partUse 2 m + max (capLen c m) v.toNat - capHeld c m) m)) := by
    unfold capLenWrite
    dsimp -proj -iota -eta only
    rw [if_neg hgood, if_neg hfree, if_neg hrunning, h]
    dsimp -proj -eta only
    rw [if_neg hheld]
  rw [happly]
  refine ⟨((capKept_setUse c _ m).trans (capKept_setCap c _ _)).trans (capKept_status rfl _ _), ?_,
    by rw [getCap_fset, getCap_setCap_same], ?_⟩
  · have hlength : RES_CAP_LEN c ≠ (RES_CAP_STATUS.len_pending c).reg := capReg_ne (by decide) c
    rw [capLen, rd_fset_other hlength, rd_setCap, ← capLen, capLen_setUse]
  · rw [fon, fget_fset_same (by decide : 2 + 1 ≤ 32)]
    rfl

end

/-! ### Configuration (R347) -/

theorem exec_capCfgWrite {c : Fin 8} {r : CapReg} {s : State} (h : reach (capRegAddr c r) s.m = true) (v : W) :
    exec (.capCfgWrite c r v) s = .next (s.withM (capCfgWrite c r v s.m)) := answer_gate_reach h (capCfgWrite c r v)

theorem capCfgWrite_refused {c : Nat} {r : CapReg} {v : W} {m : Mach}
    (h : capState c m = 1 ∨ capState c m = 2 ∨ (r = .ctrl ∧ v.toNat % 4 = 3)) :
    capCfgWrite c r v m = setEv RES_EVENTS.cap_err m := if_pos h

theorem capCfgWrite_taken {c : Nat} {r : CapReg} {v : W} {m : Mach} (h1 : capState c m ≠ 1) (h2 : capState c m ≠ 2)
    (hmode : r = .ctrl → v.toNat % 4 ≠ 3) :
    capCfgWrite c r v m = wr (capRegAddr c r) (if r = .ctrl then v &&& 0x3F#32 else v) m := by
  have hgood : ¬ (capState c m = 1 ∨ capState c m = 2 ∨ (r = .ctrl ∧ v.toNat % 4 = 3)) := by
    rintro (h | h | ⟨hr, hv⟩)
    · exact h1 h
    · exact h2 h
    · exact hmode hr hv
  unfold capCfgWrite
  dsimp only
  rw [if_neg hgood]
  cases r <;> rfl

end Sys2Proof.Machine

/-! SUPPORT. One record of a running capture set (R341, R342, R344). -/

namespace Sys2Proof.Machine

/-! ### Bytes in a row -/

theorem resBytes_add (a n k : Nat) (m : Mach) : resBytes a (n + k) m = resBytes a n m ++ resBytes (a + n) k m := by
  simp only [resBytes, List.range_add, List.map_append, List.map_map, Function.comp_def, Nat.add_assoc]

theorem resBytes_congr {a n : Nat} {m u : Mach} (h : ∀ i < n, resByte (a + i) u = resByte (a + i) m) :
    resBytes a n u = resBytes a n m := List.map_congr_left fun i hi => h i (List.mem_range.1 hi)

/-! ### The samples of a record are stored (R341) -/

/-- One sample, at the write pointer: the pointer and the unread bytes count on. -/
def sampleStored (c : Nat) (x : Sample) (m : Mach) : Mach :=
  let w := (rd (RES_CAP_WPTR c) m).toNat
  let m1 := resWrite (capBase c m + w) (leBytes 8 (sampleWord x)) m
  wr (RES_CAP_WPTR c) (BitVec.ofNat 32 (w + 8)) (setCap c { getCap c m1 with unread := (getCap c m1).unread + 8 } m1)

/-- Below the buffer's end the next sample follows without a wrap. -/
theorem capStore_cons {c : Nat} {x : Sample} {l : List Sample} {m : Mach} (h : (rd (RES_CAP_WPTR c) m).toNat + 8 < capLen c m) :
    capStore c (x :: l) m = capStore c l (sampleStored c x m) :=
  congrArg (capStore c l) (if_neg (Nat.not_le.2 h))

/-- What one stored sample leaves: its eight bytes, the pointer, the count, and every other register. -/
theorem sampleStored_leaves {c : Nat} {x : Sample} {m : Mach} (hclean : ∀ a, poisoned a m = false)
    (h : (rd (RES_CAP_WPTR c) m).toNat + 8 < 2 ^ 32) : let u := sampleStored c x m
    let w := (rd (RES_CAP_WPTR c) m).toNat
    CapKept c m u ∧ regsKept [RES_CAP_WPTR c] m u ∧ (∀ a, poisoned a u = false) ∧
    resBytes (capBase c m + w) 8 u = leBytes 8 (sampleWord x) ∧ bytesKept (capBase c m + w) 8 m u ∧
    (rd (RES_CAP_WPTR c) u).toNat = w + 8 ∧ getCap c u = { getCap c m with unread := (getCap c m).unread + 8 } := by
  intro u w
  have hbad := badUnits_of_clean hclean (capBase c m + w) (leBytes 8 (sampleWord x)).length
  have hlen : (leBytes 8 (sampleWord x)).length = 8 := length_leBytes 8 _
  have hbytes := resBytes_resWrite hbad
  have hkept := bytesKept_resWrite (capBase c m + w) (leBytes 8 (sampleWord x)) m
  have hmarks : ∀ a, poisoned a (resWrite (capBase c m + w) (leBytes 8 (sampleWord x)) m) = false :=
    fun a => poisoned_resWrite hbad (hclean a)
  have hcap := capKept_resWrite hbad c
  obtain ⟨r, p, hframe⟩ := resWrite_frame hbad
  have hset : getCap c (resWrite (capBase c m + w) (leBytes 8 (sampleWord x)) m) = getCap c m := by rw [hframe]; rfl
  have hregs : ∀ a, rd a (resWrite (capBase c m + w) (leBytes 8 (sampleWord x)) m) = rd a m := fun a => by rw [hframe]; rfl
  rw [hlen] at hbytes hkept
  have hu : u = wr (RES_CAP_WPTR c) (BitVec.ofNat 32 (w + 8)) (setCap c { getCap c m with unread := (getCap c m).unread + 8 }
      (resWrite (capBase c m + w) (leBytes 8 (sampleWord x)) m)) := by rw [← hset]; rfl
  clear_value u
  generalize resWrite (capBase c m + w) (leBytes 8 (sampleWord x)) m = m1 at *
  subst hu
  refine ⟨(hcap.trans (capKept_setCap c _ m1)).trans (capKept_wr (by simp [capRegs]) _ _), fun a ha => ?_, hmarks, hbytes, hkept,
    ?_, ?_⟩
  · rw [rd_wr_other (by simpa using ha), rd_setCap, hregs]
  · rw [rd_wr_same, BitVec.toNat_ofNat, Nat.mod_eq_of_lt h]
  · rw [getCap_wr, getCap_setCap_same]

/-- The samples of a record that fits before the buffer's end. -/
theorem capStore_leaves {c : Nat} {ss : List Sample} {m : Mach} (hclean : ∀ a, poisoned a m = false)
    (hroom : (rd (RES_CAP_WPTR c) m).toNat + 8 * ss.length < capLen c m) : let u := capStore c ss m
    let w := (rd (RES_CAP_WPTR c) m).toNat
    CapKept c m u ∧ regsKept [RES_CAP_WPTR c] m u ∧
    resBytes (capBase c m + w) (8 * ss.length) u = ss.flatMap (fun y => leBytes 8 (sampleWord y)) ∧
    bytesKept (capBase c m + w) (8 * ss.length) m u ∧ (rd (RES_CAP_WPTR c) u).toNat = w + 8 * ss.length ∧
    getCap c u = { getCap c m with unread := (getCap c m).unread + 8 * ss.length } := by
  induction ss generalizing m with
  | nil => exact ⟨.refl c m, .refl _ m, rfl, fun _ _ => rfl, rfl, rfl⟩
  | cons x ss ih =>
    rw [List.length_cons] at hroom
    have hlen32 : capLen c m < 2 ^ 32 := (rd (RES_CAP_LEN c) m).isLt
    have hstep := capStore_cons (c := c) (x := x) (l := ss) (m := m) (by omega)
    obtain ⟨hkept1, hregs1, hclean1, hbytes1, hout1, hw1, hset1⟩ := sampleStored_leaves (c := c) (x := x) hclean (by omega)
    generalize sampleStored c x m = m1 at *
    have hother : ∀ {a}, a ≠ RES_CAP_WPTR c → rd a m1 = rd a m := fun ha => hregs1 _ fun h => ha (List.mem_singleton.1 h)
    have hlen : capLen c m1 = capLen c m := congrArg BitVec.toNat (hother (capReg_ne (by decide) c))
    have hbase : capBase c m1 = capBase c m := congrArg BitVec.toNat (hother (capReg_ne (by decide) c))
    obtain ⟨hkept2, hregs2, hbytes2, hout2, hw2, hset2⟩ := ih hclean1 (by rw [hw1, hlen]; omega)
    rw [hbase, hw1] at hbytes2 hout2
    rw [hw1] at hw2
    rw [hset1] at hset2
    intro u w
    have hu : u = capStore c ss m1 := hstep
    clear_value u
    subst hu
    have hfirst : resBytes (capBase c m + w) 8 (capStore c ss m1) = leBytes 8 (sampleWord x) := by
      rw [← hbytes1]
      exact resBytes_congr fun i hi => hout2 _ (.inl (by omega))
    refine ⟨hkept1.trans hkept2, hregs1.trans hregs2, ?_, fun a ha => ?_, ?_, ?_⟩
    · have hsplit : 8 * (x :: ss).length = 8 + 8 * ss.length := by rw [List.length_cons]; omega
      rw [hsplit, resBytes_add, hfirst, List.flatMap_cons, ← hbytes2, Nat.add_assoc]
    · rw [List.length_cons] at ha
      exact (hout2 a (by omega)).trans (hout1 a (by omega))
    · rw [hw2, List.length_cons]; omega
    · rw [hset2, List.length_cons]
      simp only [CapSet.mk.injEq, and_true, true_and]
      omega

/-! ### What a record shows beside its samples (R342) -/

/-- The bytes of the reservoir and the poison marks are as before. -/
structure BytesSame (m u : Mach) : Prop where
  res : u.res = m.res
  poison : u.poison = m.poison
  banks : u.poisonBanks = m.poisonBanks

theorem BytesSame.refl (m : Mach) : BytesSame m m := ⟨rfl, rfl, rfl⟩

theorem BytesSame.trans {m m' m'' : Mach} (h : BytesSame m m') (h' : BytesSame m' m'') : BytesSame m m'' :=
  ⟨h'.res.trans h.res, h'.poison.trans h.poison, h'.banks.trans h.banks⟩

theorem bytesSame_wr (a : Nat) (v : W) (m : Mach) : BytesSame m (wr a v m) := ⟨rfl, rfl, rfl⟩
theorem bytesSame_setCap (c : Nat) (x : CapSet) (m : Mach) : BytesSame m (setCap c x m) := ⟨rfl, rfl, rfl⟩

theorem BytesSame.poisoned {m u : Mach} (h : BytesSame m u) (a : Nat) : poisoned a u = Machine.poisoned a m :=
  poisoned_congr h.poison h.banks a

theorem BytesSame.resByte {m u : Mach} (h : BytesSame m u) (a : Nat) : resByte a u = Machine.resByte a m := by
  rw [Machine.resByte, h.res, ← Machine.resByte]

/-- The first record since ARM shows its time. -/
def t0Noted (c t : Nat) (m : Mach) : Mach :=
  if (getCap c m).recs = 0 then wr (RES_CAP_T0_HI c) (BitVec.ofNat 32 (t / 2 ^ 32)) (wr (RES_CAP_T0_LO c) (BitVec.ofNat 32 t) m)
  else m

theorem t0Noted_leaves (c t : Nat) (m : Mach) : let u := t0Noted c t m
    CapKept c m u ∧ BytesSame m u ∧ regsKept [RES_CAP_T0_LO c, RES_CAP_T0_HI c] m u ∧ getCap c u = getCap c m ∧
    ((getCap c m).recs = 0 → rd (RES_CAP_T0_LO c) u = BitVec.ofNat 32 t) := by
  unfold t0Noted
  split
  · have hlo : RES_CAP_T0_LO c ≠ RES_CAP_T0_HI c := capReg_ne (by decide) c
    refine ⟨(capKept_wr (by simp [capRegs]) _ m).trans (capKept_wr (by simp [capRegs]) _ _),
      (bytesSame_wr _ _ m).trans (bytesSame_wr _ _ _), ?_, by rw [getCap_wr, getCap_wr], fun _ => ?_⟩
    · exact ((regsKept_wr _ _ m).mono (by simp)).trans ((regsKept_wr _ _ _).mono (by simp))
    · rw [rd_wr_other hlo, rd_wr_same]
  · next hrecs => exact ⟨.refl c m, .refl m, .refl _ m, rfl, fun h => absurd h hrecs⟩

/-- A flag of RES_CAP_STATUS is set where `b` holds. -/
theorem flagSet_leaves {c : Nat} {f : Fld} (hreg : f.reg = RES_CAP_STATUS c) (hlo : 2 ≤ f.lo) (hhi : f.lo + f.w ≤ 32) (b : Bool)
    (m : Mach) : let u := whenB b (fset f 1) m
    CapKept c m u ∧ BytesSame m u ∧ regsKept [RES_CAP_STATUS c] m u ∧ getCap c u = getCap c m ∧ capState c u = capState c m := by
  cases b
  · exact ⟨.refl c m, .refl m, .refl _ m, rfl, rfl⟩
  · refine ⟨capKept_status hreg 1 m, bytesSame_wr _ _ m, ?_, getCap_fset ..,
      fget_fset_other (g := RES_CAP_STATUS.state c) hhi (.inr (.inr hlo)) 1 m⟩
    rw [← hreg]
    exact regsKept_fset f 1 m

/-- A sample's GAP or overrange shows in the set's flags. -/
def flagsNoted (c : Nat) (ss : List Sample) (m : Mach) : Mach :=
  whenB (ss.any fun s => s.st == .gap) (fset (RES_CAP_STATUS.gap_seen c) 1)
    (whenB (ss.any fun s => s.ovr) (fset (RES_CAP_STATUS.ovr_seen c) 1) m)

theorem flagsNoted_leaves (c : Nat) (ss : List Sample) (m : Mach) : let u := flagsNoted c ss m
    CapKept c m u ∧ BytesSame m u ∧ regsKept [RES_CAP_STATUS c] m u ∧ getCap c u = getCap c m ∧ capState c u = capState c m ∧
    (ss.any (fun s => s.st == .gap) = true → fon (RES_CAP_STATUS.gap_seen c) u = true) := by
  obtain ⟨hkept1, hbytes1, hregs1, hset1, hstate1⟩ :=
    flagSet_leaves (c := c) (f := RES_CAP_STATUS.ovr_seen c) rfl (by decide : 2 ≤ 4) (by decide : 4 + 1 ≤ 32) (ss.any fun s => s.ovr) m
  have hgap := fun u => flagSet_leaves (c := c) (f := RES_CAP_STATUS.gap_seen c) rfl (by decide : 2 ≤ 3) (by decide : 3 + 1 ≤ 32)
    (ss.any fun s => s.st == .gap) u
  obtain ⟨hkept2, hbytes2, hregs2, hset2, hstate2⟩ := hgap (whenB (ss.any fun s => s.ovr) (fset (RES_CAP_STATUS.ovr_seen c) 1) m)
  refine ⟨hkept1.trans hkept2, hbytes1.trans hbytes2, hregs1.trans hregs2, hset2.trans hset1, hstate2.trans hstate1, fun h => ?_⟩
  rw [flagsNoted, h, whenB_true, fon, fget_fset_same (by decide : 3 + 1 ≤ 32)]
  rfl

/-! ### A record (R342, R344) -/

/-- Before its samples are stored, a record shows in T0, in the set's flags and in its count. -/
def recordNoted (c t : Nat) (ss : List Sample) (m : Mach) : Mach :=
  let m2 := flagsNoted c ss (t0Noted c t m)
  setCap c { getCap c m2 with recs := (getCap c m).recs + 1 } m2

theorem capWriteRec_eq (c t : Nat) (ss : List Sample) (m : Mach) :
    capWriteRec c t ss m = capPush c (capStore c ss (recordNoted c t ss m)) := rfl

theorem recordNoted_leaves (c t : Nat) (ss : List Sample) (m : Mach) : let u := recordNoted c t ss m
    CapKept c m u ∧ BytesSame m u ∧ regsKept [RES_CAP_T0_LO c, RES_CAP_T0_HI c, RES_CAP_STATUS c] m u ∧
    getCap c u = { getCap c m with recs := (getCap c m).recs + 1 } ∧ capState c u = capState c m ∧
    (ss.any (fun s => s.st == .gap) = true → fon (RES_CAP_STATUS.gap_seen c) u = true) ∧
    ((getCap c m).recs = 0 → rd (RES_CAP_T0_LO c) u = BitVec.ofNat 32 t) := by
  obtain ⟨hkept1, hbytes1, hregs1, hset1, ht0⟩ := t0Noted_leaves c t m
  obtain ⟨hkept2, hbytes2, hregs2, hset2, hstate2, hgap⟩ := flagsNoted_leaves c ss (t0Noted c t m)
  have hstate1 : capState c (t0Noted c t m) = capState c m := hregs1.fget (by
    simp only [RES_CAP_STATUS.state, RES_CAP_STATUS, RES_CAP_T0_LO, RES_CAP_T0_HI, List.mem_cons, List.not_mem_nil, or_false]
    omega)
  have hlo : RES_CAP_T0_LO c ∉ [RES_CAP_STATUS c] := by
    simp only [RES_CAP_STATUS, RES_CAP_T0_LO, List.mem_cons, List.not_mem_nil, or_false]
    omega
  have hcount : getCap c (flagsNoted c ss (t0Noted c t m)) = getCap c m := hset2.trans hset1
  unfold recordNoted
  dsimp -proj -iota -eta only
  rw [hcount]
  refine ⟨(hkept1.trans hkept2).trans (capKept_setCap c _ _), (hbytes1.trans hbytes2).trans (bytesSame_setCap c _ _), ?_,
    getCap_setCap_same .., hstate2.trans hstate1, hgap, fun h => (hregs2 _ hlo).trans (ht0 h)⟩
  exact (hregs1.mono (by simp)).trans (hregs2.mono (by simp))

/-- Nothing unread is pushed out while the unread bytes fit the buffer. -/
theorem capPush_fits {c : Nat} {m : Mach} (h : (getCap c m).unread ≤ capLen c m) : capPush c m = m := by
  have hnone : (getCap c m).unread - capLen c m = 0 := by omega
  simp [capPush, hnone]

/-- A record that fits before the buffer's end and before the read pointer. -/
theorem capWriteRec_fits {c t : Nat} {ss : List Sample} {m : Mach} (hclean : ∀ a, poisoned a m = false)
    (hroom : (rd (RES_CAP_WPTR c) m).toNat + 8 * ss.length < capLen c m)
    (hread : (getCap c m).unread + 8 * ss.length ≤ capLen c m) : let u := capWriteRec c t ss m
    let w := (rd (RES_CAP_WPTR c) m).toNat
    CapKept c m u ∧ resBytes (capBase c m + w) (8 * ss.length) u = ss.flatMap (fun y => leBytes 8 (sampleWord y)) ∧
    bytesKept (capBase c m + w) (8 * ss.length) m u ∧ (rd (RES_CAP_WPTR c) u).toNat = w + 8 * ss.length ∧
    (getCap c u).recs = (getCap c m).recs + 1 ∧ (getCap c u).unread = (getCap c m).unread + 8 * ss.length ∧
    capState c u = capState c m ∧
    (ss.any (fun y => y.st == .gap) = true → fon (RES_CAP_STATUS.gap_seen c) u = true) ∧
    ((getCap c m).recs = 0 → rd (RES_CAP_T0_LO c) u = BitVec.ofNat 32 t) := by
  obtain ⟨hkept1, hbytes1, hregs1, hset1, hstate1, hgap1, ht01⟩ := recordNoted_leaves c t ss m
  have heq := capWriteRec_eq c t ss m
  generalize recordNoted c t ss m = m1 at *
  have hother : ∀ {x}, x ≠ 0xA0902C → x ≠ 0xA09030 → x ≠ 0xA09028 → rd (x + 0x40 * c) m1 = rd (x + 0x40 * c) m := fun h1 h2 h3 =>
    hregs1 _ (by
      simp only [RES_CAP_STATUS, RES_CAP_T0_LO, RES_CAP_T0_HI, List.mem_cons, List.not_mem_nil, or_false]
      omega)
  have hw : rd (RES_CAP_WPTR c) m1 = rd (RES_CAP_WPTR c) m := hother (by decide) (by decide) (by decide)
  have hlen : capLen c m1 = capLen c m := congrArg BitVec.toNat (hother (by decide) (by decide) (by decide))
  have hbase : capBase c m1 = capBase c m := congrArg BitVec.toNat (hother (by decide) (by decide) (by decide))
  obtain ⟨hkept2, hregs2, hstored, hout, hw2, hset2⟩ := capStore_leaves (c := c) (ss := ss) (m := m1)
    (fun a => (hbytes1.poisoned a).trans (hclean a)) (by rw [hw, hlen]; exact hroom)
  rw [hset1] at hset2
  rw [hw, hbase] at hstored hout
  rw [hw] at hw2
  have hkeep : ∀ {x}, x ≠ 0xA09020 → rd (x + 0x40 * c) (capStore c ss m1) = rd (x + 0x40 * c) m1 := fun h =>
    hregs2 _ fun hm => capReg_ne h c (List.mem_singleton.1 hm)
  have hlen2 : capLen c (capStore c ss m1) = capLen c m := (congrArg BitVec.toNat (hkeep (by decide))).trans hlen
  rw [capPush_fits (by rw [hset2, hlen2]; exact hread)] at heq
  rw [heq]
  have hstatus : rd (RES_CAP_STATUS c) (capStore c ss m1) = rd (RES_CAP_STATUS c) m1 := hkeep (by decide)
  refine ⟨hkept1.trans hkept2, hstored, fun a ha => (hout a ha).trans (hbytes1.resByte a), hw2, by rw [hset2], by rw [hset2], ?_,
    fun h => ?_, fun h => ?_⟩
  · refine Eq.trans ?_ hstate1
    exact congrArg (fun v => wfld v 0 2) hstatus
  · rw [← hgap1 h]
    exact congrArg (fun v => wfld v 3 1 != 0) hstatus
  · rw [← ht01 h]
    exact hkeep (by decide)

end Sys2Proof.Machine

/-! SUPPORT. The statement about reservoir accesses and captures (R328 to R347), from the facts about each command. -/

namespace Sys2Proof.Machine

/-- A command's device replaced by an equal one. -/
theorem next_of_eq {i : Instr} {s : State} {m u : Mach} (h : exec i s = .next (s.withM m)) (hu : m = u) :
    exec i s = .next (s.withM u) := hu ▸ h

/-! ### CAP_RECORD (R341, R344) -/

theorem exec_capRecord (c : Fin 8) (s : State) : exec (.capRecord c) s = .next (s.withM (capRecord c s.m)) := rfl

theorem length_recSamples (c t : Nat) (m : Mach) : 8 * (recSamples c t m).length = capRecBytes c m := by
  rw [recSamples, List.length_map, capRecBytes]

/-- The samples of a record leave the set's queue, and nothing else changes. -/
theorem takeRec_eq (c t : Nat) (m : Mach) : ∃ l, takeRec c t m = setCap c { getCap c m with wait := l } m := ⟨_, rfl⟩

theorem capRecord_waits {c : Nat} {m : Mach} (h : capState c m ≠ 2 ∨ (getCap c m).stopping ≠ 0 ∨
    (capMode c m = 1 ∧ capNrec c m ≤ (getCap c m).recs) ∨ recTime c m = none) : capRecord c m = m := by
  by_cases hends : capState c m ≠ 2 ∨ (getCap c m).stopping ≠ 0 ∨ ((capMode c m == 1) = true ∧ capNrec c m ≤ (getCap c m).recs)
  · exact if_pos hends
  · have hnone : recTime c m = none := by
      rw [beq_iff_eq] at hends
      tauto
    unfold capRecord
    simp only [hnone, ite_self]

section
variable {c t : Nat} {m : Mach} (hst : capState c m = 2) (hstop : (getCap c m).stopping = 0)
  (hmore : capMode c m ≠ 1 ∨ (getCap c m).recs < capNrec c m) (ht : recTime c m = some t)
include hst hstop hmore ht

theorem capRecord_runs : capRecord c m =
    if !(capMode c m == 1) && fon (RES_CAP_CTRL.hold c) m && decide (capLen c m < (getCap c m).unread + capRecBytes c m) then
      fcnt (RES_CAP_STATUS.lost c) 1 (takeRec c t m)
    else capWriteRec c t (recSamples c t m) (takeRec c t m) := by
  have hruns : ¬ (capState c m ≠ 2 ∨ (getCap c m).stopping ≠ 0 ∨ ((capMode c m == 1) = true ∧ capNrec c m ≤ (getCap c m).recs)) := by
    rw [beq_iff_eq]
    omega
  refine (if_neg hruns).trans ?_
  rw [ht]

/-- With hold = 1 a record that does not fit before the read pointer is lost whole. -/
theorem capRecord_lost (hmode : capMode c m ≠ 1) (hhold : fon (RES_CAP_CTRL.hold c) m = true)
    (hfull : capLen c m < (getCap c m).unread + capRecBytes c m) : let u := capRecord c m
    CapKept c m u ∧ fget (RES_CAP_STATUS.lost c) u = min 65535 (fget (RES_CAP_STATUS.lost c) m + 1) ∧ u.res = m.res ∧
      (getCap c u).recs = (getCap c m).recs := by
  obtain ⟨l, hl⟩ := takeRec_eq c t m
  have happly : capRecord c m = fcnt (RES_CAP_STATUS.lost c) 1 (setCap c { getCap c m with wait := l } m) := by
    rw [capRecord_runs hst hstop hmore ht, hl]
    exact if_pos (by simp [hmode, hhold, hfull])
  rw [happly]
  refine ⟨(capKept_setCap c _ m).trans (capKept_status rfl _ _), ?_, by rw [fcnt, res_fset, res_setCap],
    by rw [fcnt, getCap_fset, getCap_setCap_same]⟩
  rw [fcnt, fget_fset_same (by decide : 16 + 16 ≤ 32), fget_setCap]
  exact Nat.mod_eq_of_lt (Nat.lt_of_le_of_lt (Nat.min_le_left _ _) (by decide : 2 ^ 16 - 1 < 2 ^ 16))

/-- A record that fits is stored at the write pointer. -/
theorem capRecord_stored (hclean : ∀ a, poisoned a m = false)
    (hread : (getCap c m).unread + capRecBytes c m ≤ capLen c m)
    (hroom : (rd (RES_CAP_WPTR c) m).toNat + capRecBytes c m < capLen c m) : let u := capRecord c m
    let n := capRecBytes c m
    let w := (rd (RES_CAP_WPTR c) m).toNat
    CapKept c m u ∧ resBytes (capBase c m + w) n u = (recSamples c t m).flatMap (fun y => leBytes 8 (sampleWord y)) ∧
      bytesKept (capBase c m + w) n m u ∧ (rd (RES_CAP_WPTR c) u).toNat = w + n ∧
      (getCap c u).recs = (getCap c m).recs + 1 ∧ (getCap c u).unread = (getCap c m).unread + n ∧ capState c u = 2 ∧
      ((recSamples c t m).any (fun y => y.st == .gap) = true → fon (RES_CAP_STATUS.gap_seen c) u = true) ∧
      ((getCap c m).recs = 0 → rd (RES_CAP_T0_LO c) u = BitVec.ofNat 32 t) := by
  obtain ⟨l, hl⟩ := takeRec_eq c t m
  have happly : capRecord c m = capWriteRec c t (recSamples c t m) (setCap c { getCap c m with wait := l } m) := by
    rw [capRecord_runs hst hstop hmore ht, hl]
    exact if_neg (by simp [Nat.not_lt.2 hread])
  have hset : getCap c (setCap c { getCap c m with wait := l } m) = { getCap c m with wait := l } := getCap_setCap_same ..
  have hfits := capWriteRec_fits (c := c) (t := t) (ss := recSamples c t m) (m := setCap c { getCap c m with wait := l } m)
    (fun a => ((bytesSame_setCap c _ m).poisoned a).trans (hclean a)) (by rw [length_recSamples]; exact hroom)
    (by rw [length_recSamples, hset]; exact hread)
  rw [length_recSamples, hset] at hfits
  obtain ⟨hkept, hstored, hout, hw, hrecs, hunread, hstate, hgap, ht0⟩ := hfits
  rw [happly]
  exact ⟨(capKept_setCap c _ m).trans hkept, hstored, hout, hw, hrecs, hunread, hstate.trans hst, hgap, ht0⟩

end

/-! ### What a set's command leaves -/

/-- The command leaves everything but set `c`, CAP's use and the event registers as it was, and `P` holds of what it leaves. -/
def capOut (c : Nat) (s : State) (i : Instr) (P : Mach → Prop) : Prop :=
  ∃ u, exec i s = .next (s.withM u) ∧ regsKept (capRegs c) s.m u ∧ (∀ k, k ≠ c → getCap k u = getCap k s.m) ∧
    u.tiles = s.m.tiles ∧ u.stage = s.m.stage ∧ u.nvm = s.m.nvm ∧ P u

theorem capOut_of_kept {c : Nat} {s : State} {i : Instr} {u : Mach} {P : Mach → Prop} (hexec : exec i s = .next (s.withM u))
    (h : CapKept c s.m u ∧ P u) : capOut c s i P :=
  ⟨u, hexec, h.1.regs, h.1.others, h.1.tiles, h.1.stage, h.1.nvm, h.2⟩

/-! ### The statement -/

/-- Settles O52, from the lemmas about each command. -/
theorem reservoirAccessesAndCaptures : Obligations.ReservoirAccessesAndCaptures := by
  unfold Obligations.ReservoirAccessesAndCaptures
  intro s m
  refine ⟨fun n e h => scrubRead_missing h e s, fun n hn => ?scrub, fun a v => ?write, fun a e => ?read, fun i v hreach => ?quota,
    fun c => ?capture⟩
  case scrub =>
    have hunit : (0x40000000 + 8 * n) / 8 * 8 = 0x40000000 + 8 * n := by omega
    refine ⟨fun e hcore => next_of_eq (exec_scrubRead hn e s) (doScrubRead_off hcore n e), fun hcore hp => ⟨?_, ?_, ?_⟩,
      fun hcore hp e => ?_⟩
    · exact next_of_eq (exec_scrubRead hn .clean s) (doScrubRead_clean hp)
    · exact ⟨_, next_of_eq (exec_scrubRead hn .corrected s) (doScrubRead_corrected hcore hp), unitCorrected_leaves _ s.m⟩
    · obtain ⟨hstores, hue, haddr, hcount, hmarks⟩ := doubleFound_leaves (0x40000000 + 8 * n) s.m
      rw [hunit] at haddr
      exact ⟨_, next_of_eq (exec_scrubRead hn .double s) (doScrubRead_double hcore hp), hstores, hue, haddr, hcount, hmarks⟩
    · obtain ⟨hstores, hmarks, -, hue, haddr, -⟩ := reportUe_leaves (0x40000000 + 8 * n) s.m
      rw [hunit] at haddr
      exact ⟨_, next_of_eq (exec_scrubRead hn e s) (doScrubRead_poisoned hcore hp e), hstores, hue, haddr, hmarks.marks⟩
  case write =>
    have hexec := exec_resWindowWrite a v s
    refine ⟨fun h => next_of_eq hexec (gate_blocked h _), fun h => ?_⟩
    replace hexec := next_of_eq hexec (gate_reach h _)
    refine ⟨fun hmap => next_of_eq hexec (windowWrite_unmapped hmap v), fun hmap hpart => ⟨fun hp => ?_, fun hp => ?_⟩,
      fun i hmap hpart hpool hcust => next_of_eq hexec (windowWrite_readOnly hmap hpart hpool hcust v)⟩
    · exact ⟨_, hexec, windowWrite_cust_leaves hmap hpart hp v⟩
    · refine next_of_eq hexec ((windowWrite_cust hmap hpart v).trans ?_)
      exact resWrite_poisonedWord (resMapped_aligned hmap) (length_leBytes 4 _) hp
  case read =>
    have hexec := exec_resWindowRead a
    refine ⟨fun h => next_of_eq (hexec e s) (doResWindowRead_blocked h a e), fun i h hmap hpart hfw => ⟨fun hp => ?_, fun hp => ?_⟩⟩
    · exact next_of_eq (hexec .clean s) (doResWindowRead_clean h hmap hpart hfw hp)
    · obtain ⟨hstores, -, hout, hue, -⟩ := reportUe_leaves a s.m
      refine ⟨_, next_of_eq (hexec e s) (doResWindowRead_poisoned h hmap hpart hfw hp e), ?_, hue, hstores⟩
      rw [out_send, hout]
  case quota =>
    have hexec := exec_partQuotaWrite hreach v
    exact ⟨fun h => next_of_eq hexec (quotaWrite_refused h), fun hdeck hi hfit => ⟨_, hexec, quotaWrite_taken hdeck hi hfit⟩⟩
  case capture =>
    intro x st L out refused
    refine ⟨capCmd_blocked, fun h => ?commands, ⟨?_, ?_⟩, ?_, fun t hst hstop hmore ht => ⟨?_, ?_⟩, ⟨?_, ?_⟩, ?_, ?_, ?_,
      fun v h => ?length, fun r v h => ?configuration⟩
    case commands =>
      have harm := exec_capArm h
      have hstop := exec_capStop h
      have hrelease := exec_capRelease h
      refine ⟨fun hst => next_of_eq harm (capArm_refused (armRefusal_of_state hst)), fun f hf => next_of_eq harm (capArm_refused hf),
        fun hf => capOut_of_kept harm (capArm_taken hf), fun hst hx => next_of_eq hstop (capStop_running hst hx),
        fun hst => next_of_eq hstop (capStop_notRunning hst), fun hst => next_of_eq hrelease (capRelease_free hst),
        fun hst => next_of_eq hrelease (capRelease_running hst), fun hst => ?_⟩
      exact capOut_of_kept (next_of_eq hrelease (capRelease_armedOrHeld hst)) (freeCap_leaves c s.m)
    · exact fun h => next_of_eq (exec_capTrigger c s) (capTrigger_waits h)
    · exact fun h => capOut_of_kept (exec_capTrigger c s) (capTrigger_fires h)
    · exact fun h => next_of_eq (exec_capRecord c s) (capRecord_waits h)
    · exact fun hread hroom hclean => capOut_of_kept (exec_capRecord c s) (capRecord_stored hst hstop hmore ht hclean hread hroom)
    · exact fun hmode hhold hfull => capOut_of_kept (exec_capRecord c s) (capRecord_lost hst hstop hmore ht hmode hhold hfull)
    · exact fun h => next_of_eq (exec_capSnapshotDone c s) (capSnapshotDone_waits h)
    · exact fun h => capOut_of_kept (exec_capSnapshotDone c s) (capSnapshotDone_full h)
    · exact fun h => next_of_eq (exec_capStopDone c s) (capStopDone_idle h)
    · exact fun hst hx => capOut_of_kept (exec_capStopDone c s) (capStopDone_stopped hst hx)
    · intro hst hx
      obtain ⟨hkept, hfree, huse, hres⟩ := freeCap_leaves c s.m
      exact capOut_of_kept (next_of_eq (exec_capStopDone c s) (capStopDone_released hst hx)) ⟨hkept, hfree, hres, huse⟩
    case length =>
      have hexec := exec_capLenWrite h v
      refine ⟨fun hbad => next_of_eq hexec (capLenWrite_bad hbad), fun h64 hmin => ⟨fun hst => ?_, fun hst hmode => ?_,
        fun f hst hf => ?_, fun hst hf => ?_, fun hst hmode hf => ?_⟩⟩
      · exact next_of_eq hexec (capLenWrite_free h64 hmin hst)
      · exact next_of_eq hexec (capLenWrite_snapshot h64 hmin hst hmode)
      · exact next_of_eq hexec (capLenWrite_refused h64 hmin hst hf)
      · exact capOut_of_kept hexec (capLenWrite_held h64 hmin hst hf)
      · exact capOut_of_kept hexec (capLenWrite_pending h64 hmin hst hmode hf)
    case configuration =>
      have hexec := exec_capCfgWrite h v
      refine ⟨fun hbad => next_of_eq hexec (capCfgWrite_refused hbad), fun h1 h2 hmode => ?_⟩
      exact ⟨_, next_of_eq hexec (capCfgWrite_taken h1 h2 hmode), rd_wr_same _ _ _, regsKept_wr _ _ _, ⟨rfl, rfl, rfl, rfl⟩, rfl⟩

end Sys2Proof.Machine

/-! SUPPORT. What a step answers: the outcome of every command, the canonical form through a step, the queue through a run, and a gaffer
restart that ends in an idle tick. -/

namespace Sys2Proof.Machine

/-- The command answers what its operands allow: a next state with the queue as it was, whose tables are in canonical form where they
were before, or the fault of malformed operands. -/
def Answers (c : Instr) (s : State) : Prop := ∃ m', exec c s = answerIf c.wf s m' ∧ (s.m.canon → m'.canon)

theorem Answers.of {c : Instr} {s : State} {f : Mach → Mach} (hf : ∀ m, Mach.canon m → Mach.canon (f m))
    (h : exec c s = answerIf c.wf s (f s.m)) : Answers c s := ⟨_, h, hf _⟩

/-- A command that is a register write through a path that may not reach the register. -/
theorem Answers.ofGate {c : Instr} {s : State} {a : Nat} {f : Mach → Mach} (hf : ∀ m, Mach.canon m → Mach.canon (f m))
    (h : exec c s = answerIf c.wf s (gate a f s.m)) : Answers c s := .of (gate_canon a f hf) h

theorem exec_answers (c : Instr) (s : State) : Answers c s := by
  cases c with
  | registerWrite => exact .of (registerWrite_canon _ _ _ _) rfl
  | unmappedAccess => exact .of (unmappedAccess_canon _ _ _) rfl
  | w1cWrite => exact .of (w1cWrite_canon _ _ _ _) rfl
  | stagedWrite => exact .of (stagedWrite_canon _ _ _) rfl
  | slotBoundary => exact .of slotBoundary_canon rfl
  | frameBoundary => exact .of frameBoundary_canon rfl
  | inputBridgeWrite => exact .of (inputBridgeWrite_canon _ _) rfl
  | outputBridgeRelease => exact .of (outRelease_canon _) rfl
  | lateEntryArrival => exact .of (lateArrive_canon _ _ _) rfl
  | domainClockStop => exact .of (freezeDom_canon _) rfl
  | bridgeFlush => exact .of (thawDom_canon _) rfl
  | slackWindowEnd => exact .of (slackWindowEnd_canon _) rfl
  | avsRepeat => exact .of avsRepeat_canon rfl
  | avsNoresp => exact .of avsNoresp_canon rfl
  | avsCfgWrite => exact .ofGate (avsCfgWrite_canon _) rfl
  | slackThrWrite => exact .ofGate (slackThrWrite_canon _) rfl
  | anchorWrite => exact .ofGate (anchorWrite_canon _ _) rfl
  | goStandby => exact .ofGate (unlessBusy_canon _ goStandby_canon) rfl
  | goWarm => exact .ofGate (unlessBusy_canon _ goWarm_canon) rfl
  | goActive => exact .ofGate (unlessBusy_canon _ goActive_canon) rfl
  | clearDegraded => exact .ofGate (unlessBusy_canon _ clearDegraded_canon) rfl
  | softReset => exact .ofGate (unlessBusy_canon _ (softReset_canon _)) rfl
  | devCmdInvalid => exact .ofGate (devCmd_canon _) rfl
  | warmEntry => exact .of warmEntry_canon rfl
  | activeEntry => exact .of activeEntry_canon rfl
  | warmReturn => exact .of warmReturn_canon rfl
  | standbyReturn => exact .of standbyReturn_canon rfl
  | retestEnd => exact .of (retestEnd_canon _) rfl
  | poresetRelease => exact .of poresetRelease_canon rfl
  | poresetAssert => exact .of poresetAssert_canon rfl
  | vddCorePowerGood => exact .of vddGood_canon rfl
  | coreResetRelease => exact .of (coreRelease_canon _ _ _) rfl
  | bootComplete => exact .of bootComplete_canon rfl
  | vddTimeout => exact .of vddTimeout_canon rfl
  | aonRailLoss => exact .of powerOff_canon rfl
  | quadReqWrite => exact .ofGate (quadReqWrite_canon _) rfl
  | quadDrainComplete => exact .of (drainComplete_canon _) rfl
  | quadPowerDownComplete => exact .of (powerDownComplete_canon _) rfl
  | loopbackWrite => exact .ofGate (loopbackWrite_canon _) rfl
  | adcSample => exact .of (adcSample_canon _ _) rfl
  | overloadWindowEnd => exact .of (overloadEnd_canon _) rfl
  | rxCtrlWrite => exact .ofGate (rxCtrlWrite_canon _ _) rfl
  | rxCalFull => exact .ofGate (rxCal_canon _ _) rfl
  | rxCalRestore => exact .ofGate (rxCal_canon _ _) rfl
  | rxCalCmdInvalid => exact .ofGate (rxCalCmd_canon _ _) rfl
  | rxSelfcalDone => exact .of (selfcalDone_canon _ _) rfl
  | restoreVerifyDone => exact .of (restoreVerify_canon _ _) rfl
  | factorWrite => exact .ofGate (factorWrite_canon _ _ _) rfl
  | sliceRemapPlanned => exact .of (sliceRemap_canon _) rfl
  | sliceHardFail => exact .of (sliceFail_canon _ _) rfl
  | couplerWrite => exact .ofGate (setCoupler_canon _ _) rfl
  | ftwLoWrite => exact .ofGate (ftwLoWrite_canon _ _) rfl
  | ftwHiWrite => exact .ofGate (ftwHiWrite_canon _ _) rfl
  | ddcCfgWrite => exact .ofGate (chainCfgWrite_canon _ _) rfl
  | ddcShiftWrite => exact .ofGate (chainShiftWrite_canon _ _) rfl
  | obsDdcCfgWrite => exact .ofGate (chainCfgWrite_canon _ _) rfl
  | ducCfgWrite => exact .ofGate (chainCfgWrite_canon _ _) rfl
  | sched => exact .of (schedIn_canon _) rfl
  | scheduleDeadline => exact .of scheduleDeadline_canon rfl
  | directoryLookup => exact .of (dirLookCmd_canon _ _) rfl
  | bmuCfgWrite => exact .ofGate (bmuCfgWrite_canon _) rfl
  | exclusionMask => exact .of (exclusionMask_canon _ _) rfl
  | columnRemapPlanned => exact .of (columnRemap_canon _ _) rfl
  | columnHardFail => exact .of (columnFail_canon _ _) rfl
  | acqSlotEnd => exact .of acqSlotEnd_canon rfl
  | slotReport => exact .of slotReport_canon rfl
  | bind => exact .of (nativeIn_canon _ _ _ (dirEnter_canon _)) rfl
  | unbind => exact .of (nativeIn_canon _ _ _ (dirEnter_canon _)) rfl
  | dirOpRead => exact .of (nativeIn_canon _ _ _ (dirEnter_canon _)) rfl
  | dirOpWrite => exact .of (nativeIn_canon _ _ _ (dirEnter_canon _)) rfl
  | dirOpDelete => exact .of (nativeIn_canon _ _ _ (dirEnter_canon _)) rfl
  | dirOpPin => exact .of (nativeIn_canon _ _ _ (dirEnter_canon _)) rfl
  | dirOpUnpin => exact .of (nativeIn_canon _ _ _ (dirEnter_canon _)) rfl
  | dirOpTouch => exact .of (nativeIn_canon _ _ _ (dirEnter_canon _)) rfl
  | dirOpList => exact .of (nativeIn_canon _ _ _ (dirEnter_canon _)) rfl
  | dirOpSnapshot => exact .of (nativeIn_canon _ _ _ (dirEnter_canon _)) rfl
  | dirCfgWrite => exact .ofGate (dirCfgWrite_canon _) rfl
  | dirSeedWrite => exact .ofGate (dirSeedWrite_canon _) rfl
  | quotaEviction => exact .of quotaEviction_canon rfl
  | dirSnapSnapshot => exact .ofGate (dirEnter_canon _) rfl
  | dirSnapRestore => exact .ofGate (dirEnter_canon _) rfl
  | dirSnapAbort => exact .ofGate snapLost_canon rfl
  | snapshotPeriod => exact .of snapPeriod_canon rfl
  | snapshotComplete => exact .of snapComplete_canon rfl
  | restoreComplete => exact .of restoreComplete_canon rfl
  | mirrorDelta => exact .of (mirrorDelta_canon _ _ _ _) rfl
  | mirrorResync => exact .of (mirrorResync_canon _) rfl
  | txAttWrite => exact .ofGate (txAttWrite_canon _ _) rfl
  | txCfgWrite => exact .ofGate (txCfgWrite_canon _ _) rfl
  | fcbFrame => exact .of (fcbFrame_canon _) rfl
  | frame => exact .of (evFrame_canon _) rfl
  | slotTx => exact .of (evSlot_canon _ _) rfl
  | slotRx => exact .of (evSlot_canon _ _) rfl
  | slotAcq => exact .of (evSlot_canon _ _) rfl
  | slotGap => exact .of (gapEvent_canon _) rfl
  | burstDecision => exact .of (burstDecision_canon _) rfl
  | timer => exact .of (evTimer_canon _) rfl
  | sw => exact .ofGate (fesNow_canon _ _) rfl
  | sequencerAction => exact .of (sequencerAction_canon _) rfl
  | pdLutDataWrite => exact .ofGate (lutWrite_canon _ _) rfl
  | pdLutDataRead => exact .of (fun m h => returnWord_canon _ (gateRead_canon _ _ (lutRead_canon _) m h)) rfl
  | pdCaptureStart => exact .of (pdCapStart_canon _) rfl
  | pdCaptureEnd => exact .of (pdCapEnd_canon _ _ _) rfl
  | pdAdaptCycleEnd => exact .of (pdCycle_canon _ _ _) rfl
  | pdHoldEnd => exact .of (fset_canon _ _) rfl
  | engineSubstPlanned => exact .of (enginePlanned_canon _) rfl
  | engineHardFail => exact .of (engineFail_canon _) rfl
  | engineSpareTakeover => exact .of (engineTakeover_canon _) rfl
  | calTrickStart => exact .of calTrickStart_canon rfl
  | calCaptureEnd => exact .of (calCaptureEnd_canon _ _ _) rfl
  | correctionPublish => exact .of (correctionPublish_canon _) rfl
  | calStall => exact .of calStall_canon rfl
  | dedicatedTrick => exact .of (dedicatedTrick_canon _ _) rfl
  | calStoreWrite => exact .of (calStoreWrite_canon _) rfl
  | calRefWrite => exact .ofGate (calRefWrite_canon _ _) rfl
  | nop => exact .of (doNop_canon _) rfl
  | halt => exact .of (doHalt_canon _) rfl
  | jmp => exact .of (doJmp_canon _ _) rfl
  | jz => exact .of (doJz_canon _ _ _) rfl
  | jnz => exact .of (doJnz_canon _ _ _) rfl
  | call => exact .of (doCall_canon _ _) rfl
  | ret => exact .of (doRet_canon _) rfl
  | loop => exact .of (doLoop_canon _ _ _) rfl
  | loops => exact .of (doLoops_canon _ _ _) rfl
  | waitslot => exact .of (doWaitslot_canon _) rfl
  | waitslotResume => exact .of (doWaitslotResume_canon _) rfl
  | ckpt => exact .of (doCkpt_canon _) rfl
  | signal => exact .of (doSignal_canon _ _) rfl
  | ldi => exact .of (doLdi_canon _ _ _) rfl
  | ldih => exact .of (doLdih_canon _ _ _) rfl
  | alu => exact .of (doAlu_canon _ _ _ _ _) rfl
  | addi => exact .of (doAddi_canon _ _ _ _) rfl
  | rdsp => exact .of (doRdsp_canon _ _ _) rfl
  | wrsp => exact .of (doWrsp_canon _ _ _) rfl
  | ldw => exact .of (doLdw_canon _ _ _) rfl
  | stw => exact .of (doStw_canon _ _ _) rfl
  | cbset => exact .of (doCbset_canon _ _ _ _) rfl
  | vld => exact .of (doVld_canon _ _ _) rfl
  | vst => exact .of (doVst_canon _ _ _) rfl
  | vin => exact .of (doVin_canon _ _ _) rfl
  | vinComplete => exact .of (doVinComplete_canon _) rfl
  | clr => exact .of (doClr_canon _ _) rfl
  | mac => exact .of (doMac_canon _ _ _ _) rfl
  | cmac => exact .of (doCmac_canon _ _ _ _ _) rfl
  | accw => exact .of (doAccw_canon _ _ _ _) rfl
  | ldacc => exact .of (doLdacc_canon _ _ _ _) rfl
  | red => exact .of (doRed_canon _ _) rfl
  | cred => exact .of (doCred_canon _ _) rfl
  | movs => exact .of (doMovs_canon _ _ _) rfl
  | movw => exact .of (doMovw_canon _ _ _ _) rfl
  | movo => exact .of (doMovo_canon _ _ _) rfl
  | movoComplete => exact .of (doMovoComplete_canon _) rfl
  | setsh => exact .of (doSetsh_canon _ _ _) rfl
  | sclr => exact .of (doSclr_canon _ _) rfl
  | sacc => exact .of (doSacc_canon _ _) rfl
  | smem => exact .of (doSmem_canon _ _ _ _) rfl
  | xfer => exact .of (doXfer_canon _ _ _ _ _) rfl
  | xferEnd => exact .of (doXferEnd_canon _) rfl
  | waitx => exact .of (doWaitx_canon _) rfl
  | waitxComplete => exact .of (doWaitxComplete_canon _) rfl
  | tileRun => exact .of (doTileRun_canon _) rfl
  | tileHalt => exact .of (doTileHalt_canon _) rfl
  | tileHaltComplete => exact .of (doTileHaltComplete_canon _) rfl
  | tileForceHalt => exact .of (doTileForceHalt_canon _) rfl
  | tileClrWtag => exact .of (doTileClrWtag_canon _) rfl
  | tileCmdInvalid => exact .of (doTileCmdInvalid_canon _ _) rfl
  | tileWindowWrite => exact .of (doTileWindowWrite_canon _ _ _) rfl
  | tileSubstComplete => exact .of (doTileSubstComplete_canon _) rfl
  | tileHardFail => exact .of (doTileHardFail_canon _) rfl
  | tileSpareStart => exact .of (doTileSpareStart_canon _) rfl
  | scrubRead => exact .of (doScrubRead_canon _ _) rfl
  | resRowRemap => exact .of (doResRowRemap_canon _ _) rfl
  | resBankRemap => exact .of (doResBankRemap_canon _) rfl
  | resBankHardFail => exact .of (doResBankHardFail_canon _) rfl
  | resWindowWrite => exact .of (doResWindowWrite_canon _ _) rfl
  | resWindowRead => exact .of (doResWindowRead_canon _ _) rfl
  | partQuotaWrite => exact .of (doPartQuotaWrite_canon _ _) rfl
  | capArm => exact .ofGate (capArm_canon _) rfl
  | capStop => exact .ofGate (capStop_canon _) rfl
  | capRelease => exact .ofGate (capRelease_canon _) rfl
  | capTrigger => exact .of (capTrigger_canon _) rfl
  | capRecord => exact .of (capRecord_canon _) rfl
  | capSnapshotDone => exact .of (capSnapshotDone_canon _) rfl
  | capStopDone => exact .of (capStopDone_canon _) rfl
  | capLenWrite => exact .ofGate (capLenWrite_canon _ _) rfl
  | capCfgWrite => exact .ofGate (capCfgWrite_canon _ _ _) rfl
  | dmaStart => exact .ofGate (dmaStart_canon _) rfl
  | dmaStop => exact .ofGate (dmaStop_canon _) rfl
  | dmaAbort => exact .ofGate (dmaAbort_canon _) rfl
  | dmaAbortDone => exact .of (dmaAbortDone_canon _) rfl
  | dmaResume => exact .ofGate (dmaResume_canon _) rfl
  | dmaCmdInvalid => exact .ofGate (dmaCmd_canon _ _) rfl
  | dmaChCfgWrite => exact .ofGate (dmaChCfgWrite_canon _ _ _) rfl
  | dmaDescFetch => exact .of (dmaFetch_canon _) rfl
  | dmaBurstStart => exact .of (dmaBurstStart_canon _ _) rfl
  | dmaDescComplete => exact .of (dmaDescComplete_canon _) rfl
  | dmaFenceDesc => exact .of (dmaFenceDesc_canon _) rfl
  | dmaFenceRead => exact .of (dmaFenceRead_canon _) rfl
  | portTrained => exact .of (portTrained_canon _) rfl
  | portBondJoin => exact .of (portJoin_canon _) rfl
  | portLinkLoss => exact .of (portLoss_canon _ _) rfl
  | portTrainTimeout => exact .of (portTimeout_canon _) rfl
  | portRetry => exact .of (portRetry_canon _) rfl
  | serdesSubstPlanned => exact .of (serdesSubst_canon _ _) rfl
  | portLoopbackWrite => exact .ofGate (portCtrlWrite_canon _ _) rfl
  | ethFrameRx => exact .of (ethFrameRx_canon _ _) rfl
  | iqMessageTx => exact .of (iqTx_canon _) rfl
  | iqMessageRx => exact .of (iqRx_canon _ _) rfl
  | ecpriDelayMeas => exact .of (ecpriDelay_canon _ _ _ _) rfl
  | poolWrite => exact .of (nativeIn_canon _ _ _ (poolWrite_canon _ _ _)) rfl
  | capUpload => exact .of (capUpload_canon _) rfl
  | event => exact .of sendEvent_canon rfl
  | mgmtReq => exact .of (mgmtReq_canon _ _) rfl
  | imgXferOpen => exact .ofGate (nativeIn_canon _ _ _ (openSess_canon _ _)) rfl
  | imgXferData => exact .ofGate (nativeIn_canon _ _ _ (bandData_canon _ _ _)) rfl
  | imgXferCommit => exact .ofGate (nativeIn_canon _ _ _ (commitSess_canon _ _)) rfl
  | imgXferAbort => exact .ofGate (nativeIn_canon _ _ _ (abortSess_canon _)) rfl
  | ptpTx => exact .of (nativeIn_canon _ _ _ (ptpTx_canon _ _ _ _)) rfl
  | ppsIn => exact .of (ppsIn_canon _) rfl
  | ppsOut => exact .of ppsOut_canon rfl
  | refLoss =>
    exact .of (f := fun m => refGone CLK_EVENTS.ref_lost (fsetB GCTL_DEV_STATE.ref_absent (coreOn m) m))
      (fun m h => refGone_canon _ _ (fsetB_canon _ _ _ h)) rfl
  | refBad => exact .of (refGone_canon _) rfl
  | mpllLockLoss => exact .of coastMpll_canon rfl
  | qpllLockLoss => exact .of (coastQpll_canon _) rfl
  | coastLimit => exact .of (coastLimit_canon _) rfl
  | loopRecovery => exact .of (loopRecovery_canon _) rfl
  | lpllReengage => exact .of lpllReengage_canon rfl
  | lpllUnlock => exact .of lpllUnlock_canon rfl
  | mpllLock => exact .of (mpllLock_canon _ _) rfl
  | mpllSlotVerify => exact .of (mpllSlotVerify_canon _) rfl
  | pllFailure => exact .of (pllFailure_canon _) rfl
  | mpllRetry => exact .of mpllRetry_canon rfl
  | qpllLock => exact .of (qpllLock_canon _) rfl
  | classBRequest => exact .ofGate (classBRequest_canon _) rfl
  | classBStart => exact .of classBStart_canon rfl
  | classBRelease => exact .of classBRelease_canon rfl
  | clkSeedWrite => exact .ofGate (clkSeedWrite_canon _) rfl
  | clkSteerWrite => exact .ofGate (clkSteerWrite_canon _) rfl
  | refCfgWrite => exact .ofGate (refCfgWrite_canon _) rfl
  | syncCfgWrite => exact .ofGate (syncCfgWrite_canon _) rfl
  | syncAlign => exact .of (syncAlign_canon _ _) rfl
  | syncMonitor => exact .of (syncMonitor_canon _ _) rfl
  | todRead => exact .ofGate todRead_canon rfl
  | frameTableSwitch => exact .of frameTableSwitch_canon rfl
  | monTrig => exact .ofGate (monTrig_canon _) rfl
  | monStop => exact .ofGate (monStop_canon _) rfl
  | monCal => exact .ofGate (monCal_canon _) rfl
  | monTrigCmd => exact .ofGate (monTrigCmd_canon _) rfl
  | monCommonTrigger => exact .of monCommonTrigger_canon rfl
  | monEntryResult => exact .of (monEntry_canon _ _) rfl
  | monSequenceEnd => exact .of (monSeqEnd_canon _) rfl
  | monSystemGroup => exact .of (monSystem_canon _) rfl
  | monFifoRead => exact .of (fun m h => returnWord_canon _ (gateRead_canon _ _ (monFifoPop_canon _) m h)) rfl
  | monDataRead => exact .of (fun m h => returnWord_canon _ (gateRead_canon _ _ (monDataPop_canon _ _) m h)) rfl
  | monCalDone => exact .of (monCalDone_canon _ _ _) rfl
  | monThrWrite => exact .ofGate (monThrWrite_canon _) rfl
  | sensorReading => exact .of (sensorReading_canon _ _ _) rfl
  | lehrUpdate => exact .of lehrUpdate_canon rfl
  | nandProgramComplete => exact .of nandProgramDone_canon rfl
  | correctableEvent => exact .of (correctable_canon _) rfl
  | spareTest => exact .of (spareTest_canon _ _ _) rfl
  | gafferSubstPlanned => exact .of gafferPlanned_canon rfl
  | gafferHardFail => exact .of gafferFail_canon rfl
  | nandBlockFail => exact .of (nandSubst_canon _ _) rfl
  | twinRoleWrite => exact .ofGate (twinCfgWrite_canon _) rfl
  | heartbeatTx => exact .of heartbeatTx_canon rfl
  | heartbeatRx => exact .of (heartbeatRx_canon _ _) rfl
  | heartbeatLoss => exact .of heartbeatLoss_canon rfl
  | mirrorChange => exact .of (mirrorChange_canon _) rfl
  | tokenTake => exact .of tokenTake_canon rfl
  | tokenCheck => exact .of (tokenCheck_canon _) rfl
  | tokenBackoffEnd => exact .of tokenBackoffEnd_canon rfl
  | tokenConflict => exact .of tokenConflict_canon rfl
  | takeover => exact .ofGate takeoverCmd_canon rfl
  | forceTakeover => exact .ofGate forceTakeover_canon rfl
  | twinHandover => exact .ofGate handoverCmd_canon rfl
  | handoverNotice => exact .of handoverNotice_canon rfl
  | takeoverSettled => exact .of takeoverSettled_canon rfl
  | hotPlugRemoval => exact .of hotPlug_canon rfl
  | vddCoreBrownout => exact .of brownout_canon rfl
  | analogueRailFault => exact .of (railFault_canon _) rfl
  | imgOpen => exact .ofGate (openSess_canon _ _) rfl
  | imgSpiData => exact .ofGate (spiData_canon _) rfl
  | imgCommit => exact .ofGate (commitSess_canon _ _) rfl
  | imgAbort => exact .ofGate (abortSess_canon _) rfl
  | puntyHandover => exact .ofGate puntyHandover_canon rfl
  | trialReset => exact .ofGate trialReset_canon rfl
  | pushTwin => exact .ofGate (pushTwin_canon _) rfl
  | imgCmdInvalid => exact .ofGate (imgCmd_canon _) rfl
  | imgLockTimeout => exact .of lockTimeout_canon rfl
  | reshuffleApply => exact .of reshBoundary_canon rfl
  | fwBankWritten => exact .of fwWritten_canon rfl
  | puntySelftestEnd => exact .of (selftestEnd_canon _) rfl
  | migrationDone => exact .of migrationDone_canon rfl
  | spiRead => exact .of (spiReadFrame_canon _ _ _) rfl
  | spiReadFixed => exact .of (spiReadFrame_canon _ _ _) rfl
  | spiWrite => exact .of (spiWriteFrame_canon _ _ _) rfl
  | spiWriteFixed => exact .of (spiWriteFrame_canon _ _ _) rfl
  | spiBadCommand => exact .of (spiBad_canon _) rfl
  | spiReadTimeout => exact .of (spiReadTimeout_canon _) rfl
  | i2cCommand => exact .ofGate (i2cCmd_canon _) rfl
  | i2cDone => exact .of (i2cDone_canon _) rfl
  | extest => exact .of (jtagLoad_canon _) rfl
  | idcode => exact .of jtagIdcode_canon rfl
  | samplePreload => exact .of (jtagLoad_canon _) rfl
  | highz => exact .of (jtagLoad_canon _) rfl
  | clamp => exact .of (jtagLoad_canon _) rfl
  | extestPulse => exact .of (jtagLoad_canon _) rfl
  | extestTrain => exact .of (jtagLoad_canon _) rfl
  | regacc => exact .of (jtagLoad_canon _) rfl
  | bypass => exact .of (jtagLoad_canon _) rfl
  | jtagTlr => exact .of jtagTlr_canon rfl
  | regaccUpdate => exact .of (regaccUpdate_canon _ _ _) rfl
  | arrivalDeadline => exact .of (arrivalDeadline_canon _) rfl
  | allPortsDown => exact .of allPortsDown_canon rfl
  | nandReadScrub => exact .of (nandScrub_canon _) rfl
  | deltaAck => exact .of (deltaAck_canon _) rfl
  | twinSourceTransfer => exact .of (twinXfer_canon _) rfl
  | spiCsAbort b =>
    cases b
    · exact .of spiErr_canon rfl
    · exact .of (fun _ h => h) rfl
  | serdesHardFail l =>
    cases l
    · exact .of (serdesFail_canon _ _) rfl
    · exact .of (serdesFail_canon _ _) rfl
    · exact .of (mirrorFail_canon _) rfl
  | uncertaintyRecompute => exact .of (fun m h => canon_ite (recomputeUnc_canon m h) h) rfl

/-! ### A step, and runs of steps -/

/-- Settles O1. -/
theorem stepRunsTheFrontCommand : Obligations.StepRunsTheFrontCommand := fun _ _ _ => rfl

/-- Settles O3, from the outcome of every command. -/
theorem wellFormedCommandsAnswerNext : Obligations.WellFormedCommandsAnswerNext := by
  intro c s
  obtain ⟨m', hexec, -⟩ := exec_answers c s
  refine ⟨fun hwf => ⟨m', ?_⟩, fun hwf => ?_⟩ <;> rw [hexec, hwf] <;> rfl

theorem step_idle (m : Mach) : step ⟨m, []⟩ = .next ⟨idleTick m, []⟩ := rfl

theorem step_front (m : Mach) (c : Instr) (rest : List Instr) : step ⟨m, c :: rest⟩ = exec c ⟨m, rest⟩ := rfl

/-- Settles O6: an idle step and every command keep the canonical form. -/
theorem everyStepKeepsCanonicalForm : Obligations.EveryStepKeepsCanonicalForm := by
  rintro ⟨m, queue⟩ s' hcanon hstep
  cases queue with
  | nil =>
    rw [step_idle, Host.Outcome.next.injEq] at hstep
    subst hstep
    exact idleTick_canon m hcanon
  | cons c rest =>
    obtain ⟨m', hexec, hkeeps⟩ := exec_answers c ⟨m, rest⟩
    rw [step_front, hexec] at hstep
    cases hwf : c.wf with
    | true =>
      rw [hwf, answerIf_true, Host.Outcome.next.injEq] at hstep
      subst hstep
      exact hkeeps hcanon
    | false =>
      rw [hwf, answerIf_false] at hstep
      cases hstep

/-- The invariant of O4 through one step. -/
theorem queueWf_step {s : State} (h : s.queueWf) : ∃ s', step s = .next s' ∧ s'.queueWf ∧ s'.pending = s.pending.tail := by
  obtain ⟨m, queue⟩ := s
  cases queue with
  | nil => exact ⟨_, step_idle m, h, rfl⟩
  | cons c rest =>
    obtain ⟨m', hexec, -⟩ := exec_answers c ⟨m, rest⟩
    rw [h c List.mem_cons_self, answerIf_true] at hexec
    exact ⟨_, (step_front m c rest).trans hexec, fun d hd => h d (List.mem_cons_of_mem c hd), rfl⟩

theorem run_succ (M : Host.Core) {s s' : M.State} (h : M.step s = .next s') (k : Nat) : M.run (k + 1) s = M.run k s' := by
  rw [Host.Core.run, h]

/-- Settles O4, by induction on the number of steps. -/
theorem queueOfWellFormedCommandsDrains : Obligations.QueueOfWellFormedCommandsDrains := by
  refine ⟨fun _ => queueWf_step, fun k => ?_⟩
  induction k with
  | zero => exact fun s h => ⟨s, rfl, rfl, h⟩
  | succ k ih =>
    intro s h
    obtain ⟨s', hstep, hwf, hpending⟩ := queueWf_step h
    obtain ⟨t, hrun, hdrop, ht⟩ := ih s' hwf
    refine ⟨t, (run_succ Sys2Proof.core hstep k).trans hrun, ?_, ht⟩
    rw [hdrop, hpending, List.drop_tail]

/-- Settles O5: the queue is empty and both tables list nothing. -/
theorem invariantsHoldAtReset : Obligations.InvariantsHoldAtReset :=
  ⟨fun _ h => absurd h List.not_mem_nil, tabWf_nil _, memory_wf_reset⟩

/-! ### A restart that ends (R446) -/

/-- A spare gaffer core takes over in this tick; session 0 has a SOFT_RESET of the device's command register waiting. -/
def resetHeldState : State :=
  let reset : MgmtOp := ⟨true, BitVec.ofNat 32 GCTL_DEV_CMD, 0x6A3C0005#32⟩
  { m := fset GCTL_DEV_STATE.state 5
      { power := .coreRun, hlt := { restart := some 0 }, sess := [(0, { held := [.mgmtReq 0 [reset]] })] }, pending := [] }

set_option maxRecDepth 20000 in
/-- The held reset takes the time of day back to 0. -/
theorem tod_resetHeldState : (idleTick resetHeldState.m).tod = 0 := by decide

/-- Refutes O2: it says that the tick which ends a gaffer restart leaves the time of day one tick later, but the messages that were
held are taken in that tick, and one of them may be a SOFT_RESET, after which the time of day is 0. -/
theorem not_emptyQueuePassesOneTick : ¬ Obligations.EmptyQueuePassesOneTick := by
  intro h
  obtain ⟨-, hrestart⟩ := h resetHeldState rfl
  obtain ⟨-, hends, -⟩ := hrestart 0 (by decide)
  obtain ⟨u, hstep, -, htod⟩ := hends (by decide) (by decide)
  have hu : idleTick resetHeldState.m = u :=
    next_withM_inj (s := resetHeldState) ((step_idle resetHeldState.m).symm.trans hstep)
  rw [← hu, tod_resetHeldState] at htod
  exact absurd htod (by decide)

end Sys2Proof.Machine

/-! SUPPORT. The frame of a voltage request, and the control interfaces: closed paths, SPI frames, I2C transactions, JTAG instructions and
in-band management (R388, R495 to R504, R511). -/

namespace Sys2Proof.Machine

/-! ### The request frame (R511) -/

/-- How many of the sixteen bits of a frame are 1. -/
def onesOf (x : Nat) : Nat := ((List.range 16).filter fun i => x.testBit i).length

theorem onesOf_succ {x : Nat} (h : x % 2 = 0) : onesOf (x + 1) = onesOf x + 1 := by
  have hrest : ∀ i, (x + 1).testBit (i + 1) = x.testBit (i + 1) := fun i => by
    rw [Nat.testBit_add_one, Nat.testBit_add_one, show (x + 1) / 2 = x / 2 by omega]
  have hlow : x.testBit 0 = false ∧ (x + 1).testBit 0 = true := by
    simp only [Nat.testBit_zero, decide_eq_false_iff_not, decide_eq_true_eq]; omega
  simp only [onesOf, List.range_succ_eq_map, List.filter_cons, List.filter_map, hlow, Function.comp_def, Nat.succ_eq_add_one, hrest,
    Bool.false_eq_true, if_true, if_false, List.length_cons]

/-- The frame's number: the code's frame, made odd in its ones by the last bit. -/
theorem avsFrame_eq {c : Nat} (h : c < 256) : ∃ b < 2, avsFrame c = BitVec.ofNat 16 (0xA000 + 16 * c + b) ∧
    onesOf (0xA000 + 16 * c + b) % 2 = 1 := by
  have hframe : avsFrame c = BitVec.ofNat 16
      (if onesOf (0xA000 + 16 * c) % 2 = 0 then 0xA000 + 16 * c + 1 else 0xA000 + 16 * c) := by
    simp only [avsFrame, Nat.mod_eq_of_lt h, onesOf]
    rfl
  by_cases hodd : onesOf (0xA000 + 16 * c) % 2 = 0
  · refine ⟨1, by decide, by rw [hframe, if_pos hodd], ?_⟩
    rw [onesOf_succ (by omega)]; omega
  · refine ⟨0, by decide, by rw [hframe, if_neg hodd, Nat.add_zero], ?_⟩
    rw [Nat.add_zero]; omega

/-- Settles O25. -/
theorem avsFramesHaveOddParity : Obligations.AvsFramesHaveOddParity := by
  intro c hc
  obtain ⟨b, hb, hframe, hones⟩ := avsFrame_eq hc
  rw [hframe]
  refine ⟨?_, ?_, ?_, ?_⟩
  · apply BitVec.eq_of_toNat_eq; simp only [BitVec.extractLsb'_toNat, BitVec.toNat_ofNat, Nat.shiftRight_eq_div_pow]; omega
  · apply BitVec.eq_of_toNat_eq; simp only [BitVec.extractLsb'_toNat, BitVec.toNat_ofNat, Nat.shiftRight_eq_div_pow]; omega
  · apply BitVec.eq_of_toNat_eq; simp only [BitVec.extractLsb'_toNat, BitVec.toNat_ofNat, Nat.shiftRight_eq_div_pow]; omega
  · have hbits : ∀ i ∈ List.range 16, (BitVec.ofNat 16 (0xA000 + 16 * c + b)).getLsbD i = (0xA000 + 16 * c + b).testBit i :=
      fun i hi => by rw [BitVec.getLsbD_ofNat, decide_eq_true (List.mem_range.1 hi), Bool.true_and]
    rw [List.filter_congr hbits]
    exact hones

/-! ### Closed paths (R495) -/

theorem mapOpen_of_power {m : Mach} (h : m.power ≠ .coreRun) (p : AccPath) (a : Nat) (w : Bool) : mapOpen p a w m = false := by
  simp [mapOpen, reach, h]

theorem hostWrite_closed {p : AccPath} {a : Nat} {m : Mach} (h : mapOpen p a true m = false) (v : W) : hostWrite p a v m = m := by
  simp [hostWrite, h]

theorem hostRead_nothing {p : AccPath} {a : Nat} {m : Mach} (h : mapOpen p a false m = false) (ha : a ∉ houseRegs) :
    hostRead p a m = (0#32, m) := by
  simp [hostRead, h, ha]

/-- R71: the housekeeping domain answers over SPI while the core is held in reset in BOOT. -/
theorem hostRead_house {a : Nat} {m : Mach} (hon : m.power ≠ .off) (hcore : m.power ≠ .coreRun) (hd : devState m = 1)
    (ha : a ∈ houseRegs) : hostRead .spi a m = (rd a m, m) := by
  simp [hostRead, mapOpen_of_power hcore, houseOpen, hon, hcore, hd, ha]

/-- A READ frame of one word sends what the path's read gives. -/
theorem exec_spiRead_one {a : Nat} {s : State} {v : W} (hon : s.m.power ≠ .off) (ha : a < 2 ^ 32)
    (h : hostRead .spi a s.m = (v, s.m)) : exec (.spiRead a 1) s = .next (s.withM (send (.spi [v]) s.m)) := by
  have ham : a % 4294967296 = a := Nat.mod_eq_of_lt ha
  change answer s (spiReadFrame 4 a 1 s.m) = _
  simp [spiReadFrame, spiSeen, hon, spiWords, ham, h]

theorem registerWrite_closed {p : AccPath} {a : Nat} {m : Mach} (h : mapOpen p a true m = false) (n : Nat) (v : W) :
    registerWrite p a n v m = m := by
  simp [registerWrite, h, hostWrite_closed h]

theorem w1cWrite_closed {p : AccPath} {a : Nat} {m : Mach} (h : mapOpen p a true m = false) (v d : W) : w1cWrite p a v d m = m := by
  simp [w1cWrite, h]

theorem stagedWrite_closed {p : AccPath} {a : Nat} {m : Mach} (h : mapOpen p a true m = false) (v : W) : stagedWrite p a v m = m := by
  simp [stagedWrite, hostWrite_closed h]

/-- Settles O9. That the map is closed outside the GCTL and IMG blocks in RECOVERY is assumption 16. -/
theorem closedPathsHaveNoEffect : Obligations.ClosedPathsHaveNoEffect := by
  intro s p a n v d
  refine ⟨fun h => ⟨?_, ?_, ?_⟩, fun h ha hhouse hon => exec_spiRead_one hon ha (hostRead_nothing h hhouse),
    fun h => ⟨mapOpen_of_power h p a true, mapOpen_of_power h p a false⟩, fun hon hcore hd ha => ?_⟩
  · exact congrArg (answer s) (registerWrite_closed h n v)
  · exact congrArg (answer s) (w1cWrite_closed h v d)
  · exact congrArg (answer s) (stagedWrite_closed h v)
  · have hlt : ∀ r ∈ houseRegs, r < 2 ^ 32 := by decide
    exact exec_spiRead_one hon (hlt a ha) (hostRead_house hon hcore hd ha)

/-! ### SPI (R497 to R499) -/

theorem mapOpen_gctl {p : AccPath} {a b : Nat} {m : Mach} (h : mapOpen p a true m = true) (hp : p ≠ .inband) (ha : a < 0x100000)
    (hb : b < 0x100000) (w : Bool) : mapOpen p b w m = true := by
  have hreach : reach b m = reach a m := by simp [reach, ha, hb]
  simp only [mapOpen, Bool.and_eq_true, hreach] at h ⊢
  exact ⟨h.1, by simp [hp]⟩

theorem hostWrite_row {p : AccPath} {e : Nat × W} (he : e ∈ rwRows) {m : Mach} (ho : mapOpen p e.1 true m = true) (v : W) :
    hostWrite p e.1 v m = wr e.1 ((rd e.1 m &&& ~~~e.2) ||| (v &&& e.2)) m := by
  have hrow := rwRows_plain e he
  simp only [Bool.and_eq_true, beq_iff_eq] at hrow
  obtain ⟨⟨⟨hrw, hread⟩, hmask⟩, -⟩ := hrow
  rw [hostWrite_open ho, mapWrite_regAddr (isRegAddr_of_readsPlainly hread), regWrite_rwRows e he, plainWrite_rw hrw, hmask]

/-- A register of which every bit is defined takes the word. -/
theorem hostWrite_whole {p : AccPath} {a : Nat} (he : (a, 0xFFFFFFFF#32) ∈ rwRows) {m : Mach} (ho : mapOpen p a true m = true) (v : W) :
    hostWrite p a v m = wr a v m := by
  have hold : (rd a m &&& ~~~0xFFFFFFFF#32) ||| (v &&& 0xFFFFFFFF#32) = v := by
    rw [show ~~~0xFFFFFFFF#32 = (0#32 : W) from rfl, BitVec.and_zero, BitVec.zero_or]
    exact BitVec.and_allOnes
  rw [hostWrite_row he ho, hold]

theorem hostRead_plain {p : AccPath} {a : Nat} {m : Mach} (ho : mapOpen p a false m = true) (h : readsPlainly a = true)
    (hst : staged a m = none) : hostRead p a m = (rd a m, m) := by
  rw [hostRead_open ho, mapRead_plain h, readValue_of_none hst]

theorem mapOpen_wr {p : AccPath} {a b : Nat} {w : Bool} (h : a ≠ GCTL_DEV_STATE) (v : W) (m : Mach) :
    mapOpen p b w (wr a v m) = mapOpen p b w m := by
  have hdev : devState (wr a v m) = devState m := by rw [devState, fget, rd_wr_other (b := GCTL_DEV_STATE.state.reg) h.symm]; rfl
  simp only [mapOpen, reach, hdev, power_wr]

/-- Words written one after the other to the scratch register: only it changes, and it ends with the last word. -/
theorem spiPut_scratch (l : List W) {m : Mach} (ho : mapOpen .spi GCTL_SCRATCH true m = true) :
    ∃ r, spiPut 0 GCTL_SCRATCH l m = { m with regs := r } ∧ regsKept [GCTL_SCRATCH] m { m with regs := r } ∧
      ∀ v, l.getLast? = some v → rd GCTL_SCRATCH { m with regs := r } = v := by
  induction l generalizing m with
  | nil => exact ⟨m.regs, rfl, .refl _ _, fun _ h => absurd h (by simp)⟩
  | cons w l ih =>
    have hstep : spiPut 0 GCTL_SCRATCH (w :: l) m = spiPut 0 GCTL_SCRATCH l (wr GCTL_SCRATCH w m) := by
      rw [spiPut, hostWrite_whole (by decide) ho]; rfl
    obtain ⟨r, hput, hregs, hlast⟩ := ih ((mapOpen_wr (a := GCTL_SCRATCH) (by decide) w m).trans ho)
    refine ⟨r, hstep.trans hput, (regsKept_wr GCTL_SCRATCH w m).trans hregs, fun v hv => ?_⟩
    cases l with
    | nil =>
      obtain rfl : w = v := by simpa using hv
      have hr : (wr GCTL_SCRATCH w m).regs = r := congrArg Mach.regs hput
      exact hr ▸ rd_wr_same GCTL_SCRATCH w m
    | cons x l => exact hlast v (by simpa using hv)

/-- Words read one after the other from a register that reads plainly. -/
theorem spiWords_fixed {a : Nat} {m : Mach} (ho : mapOpen .spi a false m = true) (h : readsPlainly a = true)
    (hst : staged a m = none) (ha : a < 2 ^ 32) (n : Nat) : spiWords 0 a n m = (List.replicate n (rd a m), m) := by
  induction n with
  | zero => rfl
  | succ n ih =>
    have hmod : (a + 0) % 2 ^ 32 = a := by omega
    rw [spiWords, hostRead_plain ho h hst, hmod]
    dsimp only
    rw [ih, List.replicate_succ]

theorem spiSeen_on {m : Mach} (h : m.power ≠ .off) (f : Mach → Mach) : spiSeen f m = f m := by simp [spiSeen, h]

theorem exec_spiBadCommand (c : BitVec 8) (s : State) : exec (.spiBadCommand c) s = .next (s.withM (spiBad c s.m)) := rfl

/-- Settles O13: each frame by the words it carries. -/
theorem spiFramesRunWordByWord : Obligations.SpiFramesRunWordByWord := by
  intro s ho hst
  have hopen : ∀ b < 0x100000, ∀ w, mapOpen .spi b w s.m = true := fun b hb w => mapOpen_gctl ho (by decide) (by decide) hb w
  have hreach : ∀ b < 0x100000, reach b s.m = true := fun b hb => mapOpen_reach (hopen b hb true)
  have hon : s.m.power ≠ .off := by simp [reach_power (mapOpen_reach ho)]
  have herr : spiErr s.m = setEv GCTL_GLOBAL_EVENTS.spi_err s.m := gate_reach (hreach _ (by decide)) _
  have hread : ∀ a ∈ [GCTL_SCRATCH, GCTL_UID_LO, GCTL_UID_HI], readsPlainly a = true ∧ a < 0x100000 := by decide
  refine ⟨fun v w => ?write, fun l v => ?writeFixed, ?read, fun n => ?readFixed, fun c hc => ?bad, ?abort, rfl, ?timeout⟩
  case write =>
    have hsecond : mapOpen .spi GCTL_I2C_DATA_HI true (wr GCTL_I2C_DATA_LO v s.m) = true :=
      (mapOpen_wr (a := GCTL_I2C_DATA_LO) (by decide) v s.m).trans (hopen _ (by decide) true)
    change answer s (spiWriteFrame 4 GCTL_I2C_DATA_LO [v, w] s.m) = _
    rw [spiWriteFrame, spiSeen_on hon]
    change answer s (hostWrite .spi GCTL_I2C_DATA_HI w (hostWrite .spi GCTL_I2C_DATA_LO v s.m)) = _
    rw [hostWrite_whole (by decide) (hopen _ (by decide) true), hostWrite_whole (by decide) hsecond]
    rfl
  case writeFixed =>
    obtain ⟨r, hput, hregs, hlast⟩ := spiPut_scratch (l ++ [v]) ho
    refine ⟨_, ?_, hlast v (by simp), hregs, .refl s.m, rfl⟩
    change answer s (spiSeen (spiPut 0 GCTL_SCRATCH (l ++ [v])) s.m) = _
    rw [spiSeen_on hon, hput]
    rfl
  case read =>
    have hlo := hostRead_plain (hopen GCTL_UID_LO (by decide) false) (hread _ (by decide)).1 (hst _ (by decide))
    have hhi := hostRead_plain (hopen GCTL_UID_HI (by decide) false) (hread _ (by decide)).1 (hst _ (by decide))
    change answer s (spiSeen (fun m => let r := spiWords 4 GCTL_UID_LO 2 m; send (.spi r.1) r.2) s.m) = _
    rw [spiSeen_on hon, spiWords, hlo]
    dsimp only
    change answer s (let r := spiWords 4 GCTL_UID_HI 1 s.m; send (.spi (rd GCTL_UID_LO s.m :: r.1)) r.2) = _
    rw [spiWords, hhi]
    rfl
  case readFixed =>
    have hwords := spiWords_fixed (hopen GCTL_SCRATCH (by decide) false) (hread _ (by decide)).1 (hst _ (by decide)) (by decide) n
    change answer s (spiSeen (fun m => let r := spiWords 0 GCTL_SCRATCH n m; send (.spi r.1) r.2) s.m) = _
    rw [spiSeen_on hon, hwords]
    rfl
  case bad =>
    have hbad : ¬ (c = 0x03#8 ∨ c = 0x13#8 ∨ c = 0x02#8 ∨ c = 0x12#8) := by simpa using hc
    rw [exec_spiBadCommand, spiBad, if_neg hbad, herr]
  case abort => exact congrArg (answer s) herr
  case timeout =>
    change answer s (gate GCTL_SCRATCH _ s.m) = _
    rw [gate_reach (hreach _ (by decide)), hostRead_plain (hopen _ (by decide) false) (hread _ (by decide)).1 (hst _ (by decide))]
    rfl

end Sys2Proof.Machine

/-! SUPPORT. I2C transactions and JTAG instructions (R500 to R504). -/

namespace Sys2Proof.Machine

/-! ### A field through an update that does not meet it -/

theorem fon_fset_other {f g : Fld} (h : f.lo + f.w ≤ 32) (hd : g.reg ≠ f.reg ∨ f.lo + f.w ≤ g.lo ∨ g.lo + g.w ≤ f.lo)
    (x : Nat) (m : Mach) : fon g (fset f x m) = fon g m := by
  rw [fon, fget_fset_other h hd, fon]

theorem fget_fsetB_other {f g : Fld} (h : f.lo + f.w ≤ 32) (hd : g.reg ≠ f.reg ∨ f.lo + f.w ≤ g.lo ∨ g.lo + g.w ≤ f.lo)
    (b : Bool) (m : Mach) : fget g (fsetB f b m) = fget g m := fget_fset_other h hd _ m

theorem fon_fsetB_other {f g : Fld} (h : f.lo + f.w ≤ 32) (hd : g.reg ≠ f.reg ∨ f.lo + f.w ≤ g.lo ∨ g.lo + g.w ≤ f.lo)
    (b : Bool) (m : Mach) : fon g (fsetB f b m) = fon g m := fon_fset_other h hd _ m

theorem fon_fset_one {f : Fld} (hw : f.w = 1) (h : f.lo + f.w ≤ 32) (m : Mach) : fon f (fset f 1 m) = true :=
  fon_fsetB hw h true m

theorem fon_fset_zero {f : Fld} (h : f.lo + f.w ≤ 32) (m : Mach) : fon f (fset f 0 m) = false := by
  rw [fon, fget_fset_same h, Nat.zero_mod]; rfl

theorem fon_setEv_other {f g : Fld} (h : f.lo + f.w ≤ 32) (hd : g.reg ≠ f.reg ∨ f.lo + f.w ≤ g.lo ∨ g.lo + g.w ≤ f.lo)
    (h1 : g.reg ≠ HLT_LOG_WPTR) (h2 : g.reg ≠ HLT_EVENTS) (m : Mach) : fon g (setEv f m) = fon g m := by
  rw [fon, fget_setEv_other h hd h1 h2, fon]

/-! ### The end of an I2C transaction (R501) -/

theorem leVal_leBytes (n x : Nat) : leVal (leBytes n x) = x % 256 ^ n := by
  induction n generalizing x with
  | zero => simp [leVal, leBytes, Nat.mod_one]
  | succ n ih =>
    have hstep : leVal (leBytes (n + 1) x) = x % 256 + 256 * leVal (leBytes n (x / 256)) := by
      simp [leVal, leBytes, BitVec.toNat_ofNat]
    rw [hstep, ih, pow_succ', Nat.mod_mul]

theorem ofNat_leVal_leBytes (v : W) : BitVec.ofNat 32 (leVal (leBytes 4 v.toNat)) = v := by
  rw [leVal_leBytes, Nat.mod_eq_of_lt (by have := v.isLt; omega), BitVec.ofNat_toNat, BitVec.setWidth_eq]

/-- A transaction that read nothing leaves the data registers as they were. -/
theorem i2cData_nil (m : Mach) : ∃ r, i2cData [] m = { m with regs := r } ∧ regsKept [] m (i2cData [] m) := by
  have hdata : i2cData [] m = wr GCTL_I2C_DATA_LO (rd GCTL_I2C_DATA_LO m) (wr GCTL_I2C_DATA_HI (rd GCTL_I2C_DATA_HI m) m) := by
    have hlen : ∀ x, (leBytes 4 x).length = 4 := length_leBytes 4
    have hall : ((leBytes 4 (rd GCTL_I2C_DATA_LO m).toNat ++ leBytes 4 (rd GCTL_I2C_DATA_HI m).toNat).take 8) =
        leBytes 4 (rd GCTL_I2C_DATA_LO m).toNat ++ leBytes 4 (rd GCTL_I2C_DATA_HI m).toNat :=
      List.take_of_length_le (by simp [hlen])
    simp only [i2cData, List.nil_append, List.length_nil, List.drop_zero, hall, List.take_left' (hlen _), List.drop_left' (hlen _),
      ofNat_leVal_leBytes]
  refine ⟨_, rfl, fun a _ => ?_⟩
  rw [hdata, rd_wr, rd_wr]
  split
  · next h => rw [h]
  · split
    · next h => rw [h]
    · rfl

/-- What an end leaves in GCTL_I2C_STATUS, before the count. -/
def i2cStatus (r : I2cResult) (m : Mach) : Mach :=
  fsetB GCTL_I2C_STATUS.nack r.nack (fsetB GCTL_I2C_STATUS.arb_lost r.arbLost
    (fsetB GCTL_I2C_STATUS.timeout r.timeout (fsetB GCTL_I2C_STATUS.stuck r.stuck (wr GCTL_I2C_STATUS 0#32 m))))

theorem i2cDone_short {r : I2cResult} {m : Mach} (hbusy : fon GCTL_I2C_STATUS.busy m = true) (hn : r.ndone.val < 16)
    (hdata : r.data = []) : i2cDone r m = setEvIf (i2cFailed r) GCTL_GLOBAL_EVENTS.i2c_err
      (fset GCTL_I2C_STATUS.ndone r.ndone.val (i2cStatus r (i2cData [] m))) := by
  have hwhen : decide (16 ≤ r.ndone.val) = false := by simp only [decide_eq_false_iff_not]; omega
  rw [i2cDone, if_pos hbusy]
  simp only [hdata, List.take_nil, hwhen, whenB_false, i2cCount, if_pos hn]
  rfl

/-- The status that an end shows, and that nothing else changes with it. -/
theorem i2cStatus_leaves (r : I2cResult) {n : Nat} (hn : n < 16) (m : Mach) :
    let u := fset GCTL_I2C_STATUS.ndone n (i2cStatus r (i2cData [] m))
    fon GCTL_I2C_STATUS.busy u = false ∧ fget GCTL_I2C_STATUS.ndone u = n ∧ fon GCTL_I2C_STATUS.nack u = r.nack ∧
      regsKept [GCTL_I2C_STATUS] m u ∧ storesKept m u ∧ u.out = m.out := by
  obtain ⟨x, hx, hkept⟩ := i2cData_nil m
  have hregs : regsKept [GCTL_I2C_STATUS] m (fset GCTL_I2C_STATUS.ndone n (i2cStatus r (i2cData [] m))) := by
    have h0 := hkept.mono (List.nil_subset [GCTL_I2C_STATUS])
    refine ((((((h0.trans (regsKept_wr _ _ _)).trans (regsKept_wr _ _ _)).trans (regsKept_wr _ _ _)).trans
      (regsKept_wr _ _ _)).trans (regsKept_wr _ _ _)).trans (regsKept_wr _ _ _))
  have hndone : fget GCTL_I2C_STATUS.ndone (fset GCTL_I2C_STATUS.ndone n (i2cStatus r (i2cData [] m))) = n := by
    rw [fget_fset_same (by decide)]
    exact Nat.mod_eq_of_lt hn
  refine ⟨?_, hndone, ?_, hregs, ?_, ?_⟩
  · simp (disch := decide) only [fon_fset_other, fon_fsetB_other, i2cStatus]
    exact fon_of_zero (rd_wr_same _ _ _)
  · simp (disch := decide) only [fon_fset_other, fon_fsetB, i2cStatus]
  · rw [hx]; exact .refl m
  · rw [hx]; rfl

/-- Settles O14. -/
theorem i2cTransactionsStartAndEnd : Obligations.I2cTransactionsStartAndEnd := by
  intro s v hreach
  have hcmd : exec (.i2cCommand v) s = .next (s.withM (i2cCmd v s.m)) := answer_gate_reach hreach _
  refine ⟨fun hkey hidle hnwr hnrd hsome => ?_, fun hkey => ?_, fun n hbusy => ?_, fun hbusy => ?_⟩
  · have hok : ¬ (wfld v 16 16 ≠ 0x4C29 ∨ fon GCTL_I2C_STATUS.busy s.m = true ∨ 8 < wfld v 8 4 ∨ 8 < wfld v 12 4 ∨
        wfld v 8 4 + wfld v 12 4 = 0) := by
      simp [hkey, hidle]; omega
    rw [hcmd, i2cCmd]
    dsimp only
    rw [if_neg hok]
  · rw [hcmd, i2cCmd, if_pos (.inl hkey)]
  · let r : I2cResult := ⟨false, false, false, false, ⟨n.val, by omega⟩, []⟩
    obtain ⟨hb, hn, -, hregs, hstores, hout⟩ := i2cStatus_leaves r n.isLt s.m
    exact ⟨_, congrArg (answer s) (i2cDone_short (r := r) hbusy n.isLt rfl), hb, hn, hregs, hstores, hout⟩
  · let r : I2cResult := ⟨true, false, false, false, 0, []⟩
    obtain ⟨hb, -, hnack, hregs, hstores, -⟩ := i2cStatus_leaves r (n := 0) (by decide) s.m
    refine ⟨_, congrArg (answer s) (i2cDone_short (r := r) hbusy (by decide) rfl), ?_, ?_,
      fon_setEv (by decide) (by decide) (by decide) (by decide) _, ?_, hstores.trans (storesKept_setEv _ _)⟩
    · exact (fon_setEv_other (by decide) (by decide) (by decide) (by decide) _).trans hb
    · exact (fon_setEv_other (by decide) (by decide) (by decide) (by decide) _).trans hnack
    · exact (hregs.mono (by decide)).trans ((regsKept_setEv _ _).mono (by decide))

/-! ### JTAG (R502 to R504) -/

theorem jtagRelease_none {m : Mach} (h : m.jtag.effect = false) : jtagRelease m = m := by simp [jtagRelease, h]

/-- An instruction that drives no pin is loaded. -/
theorem jtagLoad_quiet {c : Nat} {m : Mach} (hon : m.power ≠ .off) (h : m.jtag.effect = false) (hc : drivesPins c = false) :
    jtagLoad c m = setJtag (fun x => { x with ir := c }) m := by
  simp [jtagLoad, hon, h, hc, jtagRelease_none h]

/-- R503: where a pin-driving instruction takes effect. -/
def pinsMayDrive (m : Mach) : Prop := devState m = 1 ∨ devState m = 2 ∨ devState m = 3

theorem jtagLoad_drives {c : Nat} {m : Mach} (hon : m.power ≠ .off) (h : m.jtag.effect = false) (hc : drivesPins c = true)
    (hd : pinsMayDrive m) : jtagLoad c m = setJtag (fun x => { x with ir := c, effect := true }) m := by
  unfold pinsMayDrive at hd
  simp [jtagLoad, hon, h, hc, jtagRelease_none h, hd]

/-- A refused pin-driving instruction leaves BYPASS in the instruction register (assumption 17). -/
theorem jtagLoad_refused {c : Nat} {m : Mach} (hon : m.power ≠ .off) (h : m.jtag.effect = false) (hc : drivesPins c = true)
    (hd : ¬ pinsMayDrive m) : jtagLoad c m =
      gate GCTL_GLOBAL_EVENTS (setEv GCTL_GLOBAL_EVENTS.jtag_refused) (setJtag (fun x => { x with ir := 0xFF }) m) := by
  unfold pinsMayDrive at hd
  simp [jtagLoad, hon, h, hc, jtagRelease_none h, hd]

theorem reach_gctl {m : Mach} (hp : m.power = .coreRun) (h4 : 4 ≤ devState m) (h6 : devState m ≤ 6) (a : Nat) : reach a m = true := by
  obtain h | h | h : devState m = 4 ∨ devState m = 5 ∨ devState m = 6 := by omega
  all_goals simp [reach, hp, h]

/-- The pin-driving instructions, each with its code. -/
def pinRows : List (Instr × Nat) := [(.extest, 0x00), (.highz, 0x03), (.clamp, 0x04), (.extestPulse, 0x05), (.extestTrain, 0x06)]

theorem pinRows_drive : ∀ e ∈ pinRows, drivesPins e.2 = true := by decide

theorem exec_pinRow (s : State) : ∀ e ∈ pinRows, exec e.1 s = .next (s.withM (jtagLoad e.2 s.m)) := by
  simp only [pinRows, List.forall_mem_cons]
  exact ⟨rfl, rfl, rfl, rfl, rfl, fun _ h => absurd h List.not_mem_nil⟩

theorem jtag_setEv (f : Fld) (m : Mach) : (setEv f m).jtag = m.jtag := by
  obtain ⟨_, _, _, _, _, _, _, h⟩ := setEv_frame f m; rw [h]

theorem not_pinsMayDrive {m : Mach} (h : 4 ≤ devState m) : ¬ pinsMayDrive m := by
  unfold pinsMayDrive; omega

/-- A refused instruction sets jtag_refused where the map is reached. -/
theorem exec_pinRow_refused {s : State} (hp : s.m.power = .coreRun) (h : s.m.jtag.effect = false) (h4 : 4 ≤ devState s.m)
    (h6 : devState s.m ≤ 6) : ∀ e ∈ pinRows, exec e.1 s = .next (s.withM (setEv GCTL_GLOBAL_EVENTS.jtag_refused
      { s.m with jtag := { s.m.jtag with ir := 0xFF } })) := by
  intro e he
  have hon : s.m.power ≠ .off := by simp [hp]
  have hreach : reach GCTL_GLOBAL_EVENTS (setJtag (fun x => { x with ir := 0xFF }) s.m) = true := reach_gctl hp h4 h6 _
  rw [exec_pinRow s e he, jtagLoad_refused hon h (pinRows_drive e he) (not_pinsMayDrive h4), gate_reach hreach]
  rfl

theorem exec_pinRow_drives {s : State} (hon : s.m.power ≠ .off) (h : s.m.jtag.effect = false) (hd : pinsMayDrive s.m) :
    ∀ e ∈ pinRows, exec e.1 s = .next (s.withM ({ s.m with jtag := { s.m.jtag with ir := e.2, effect := true } })) := by
  intro e he
  rw [exec_pinRow s e he, jtagLoad_drives hon h (pinRows_drive e he) hd]
  rfl

/-! ### Accesses by REGACC (R504) -/

theorem regaccUpdate_write {a : Nat} {m : Mach} (hon : m.power ≠ .off) (hir : m.jtag.ir = 0x10) (hdone : m.jtag.done = true) (v : W) :
    regaccUpdate true a v m = nextFree (regaccDone a (Config.freeWord m.free) (hostWrite .jtag a v m)) := by
  have hrun : ¬ (m.power = .off ∨ m.jtag.ir ≠ 0x10 ∨ m.jtag.done = false) := by simp [hon, hir, hdone]
  rw [regaccUpdate, if_neg hrun, if_pos rfl]

theorem regaccUpdate_read {a : Nat} {m : Mach} (hon : m.power ≠ .off) (hir : m.jtag.ir = 0x10) (hdone : m.jtag.done = true)
    (ha : a ≠ DMA_FENCE) (v : W) :
    regaccUpdate false a v m = returnWord ((hostRead .jtag a m).1, regaccDone a (hostRead .jtag a m).1 (hostRead .jtag a m).2) := by
  have hrun : ¬ (m.power = .off ∨ m.jtag.ir ≠ 0x10 ∨ m.jtag.done = false) := by simp [hon, hir, hdone]
  rw [regaccUpdate, if_neg hrun, if_neg (by decide), if_neg (fun q => ha q.1)]

theorem exec_regaccUpdate (b : Bool) (a : Nat) (v : W) (s : State) :
    exec (.regaccUpdate b a v) s = .next (s.withM (regaccUpdate b a v s.m)) := rfl

/-- Settles O15. A refused pin-driving instruction leaves 0xFF in the instruction register (assumption 17). -/
theorem jtagInstructionsTakeEffect : Obligations.JtagInstructionsTakeEffect := by
  intro s hon h
  have hload : ∀ c, drivesPins c = false → jtagLoad c s.m = { s.m with jtag := { s.m.jtag with ir := c } } :=
    fun c hc => jtagLoad_quiet hon h hc
  refine ⟨congrArg (answer s) (hload _ rfl), congrArg (answer s) (hload _ rfl), ?idcode, ?tlr,
    fun c hc => congrArg (answer s) (hload _ hc), fun e he => ⟨fun hd => exec_pinRow_drives hon h hd e he,
      fun h4 h6 hp => exec_pinRow_refused hp h h4 h6 e he⟩, fun hir hdone ho => ⟨fun v => ?write, fun v hst => ?read⟩⟩
  case idcode =>
    change answer s (jtagIdcode s.m) = _
    rw [jtagIdcode, if_neg hon, hload _ rfl]
    rfl
  case tlr =>
    change answer s (jtagTlr s.m) = _
    rw [jtagTlr, if_neg hon, jtagRelease_none h]
    rfl
  case write =>
    have hwrite : regaccUpdate true GCTL_SCRATCH v s.m =
        nextFree (regaccDone GCTL_SCRATCH (Config.freeWord s.m.free) (wr GCTL_SCRATCH v s.m)) := by
      rw [regaccUpdate_write hon hir hdone, hostWrite_whole (by decide) ho]
    exact ⟨_, (exec_regaccUpdate ..).trans (congrArg (answer s) hwrite), rd_wr_same GCTL_SCRATCH v s.m,
      regsKept_wr GCTL_SCRATCH v s.m, .refl s.m, rfl⟩
  case read =>
    have hopen := mapOpen_gctl ho (by decide) (by decide) (b := GCTL_SCRATCH) (by decide) false
    rw [exec_regaccUpdate, regaccUpdate_read hon hir hdone (by decide), hostRead_plain hopen (by decide) hst]
    rfl

theorem jtagLoad_replaces {c : Nat} {m : Mach} (hon : m.power ≠ .off) (h : m.jtag.effect = true) (hne : m.jtag.ir ≠ c)
    (hc : drivesPins c = false) : jtagLoad c m =
      setJtag (fun x => { x with ir := c }) (softReset 7 { m with jtag := { m.jtag with effect := false } }) := by
  simp [jtagLoad, hon, h, hne, hc, jtagRelease, setJtag]

/-- Settles O16. A refused pin-driving instruction leaves 0xFF in the instruction register (assumption 17). -/
theorem replacedPinInstructionsReset : Obligations.ReplacedPinInstructionsReset := by
  intro s hon
  refine ⟨fun h e he => ?_, fun h hir => congrArg (answer s) (jtagLoad_replaces hon h hir rfl), fun h => ?_⟩
  · obtain ⟨p, hp, rfl⟩ : ∃ p ∈ pinRows, p.1 = e := by
      simpa [pinRows, eq_comm] using he
    by_cases hd : pinsMayDrive s.m
    · refine ⟨_, exec_pinRow_drives hon h hd p hp, ⟨fun _ => hd, fun _ => rfl⟩, fun q => absurd q (by simp), fun h4 => ?_⟩
      exact absurd hd (not_pinsMayDrive h4)
    · have hload := jtagLoad_refused hon h (pinRows_drive p hp) hd
      have hjtag : (jtagLoad p.2 s.m).jtag = { s.m.jtag with ir := 0xFF } := by
        rw [hload, gate]
        split
        · exact jtag_setEv _ _
        · rfl
      refine ⟨_, exec_pinRow s p hp, ⟨fun q => ?_, fun q => absurd q hd⟩, fun _ => congrArg Jtag.ir hjtag, fun h4 h6 hcore => ?_⟩
      · rw [hjtag, h] at q
        exact absurd q (by decide)
      · have hreach : reach GCTL_GLOBAL_EVENTS (setJtag (fun x => { x with ir := 0xFF }) s.m) = true := reach_gctl hcore h4 h6 _
        rw [hload, gate_reach hreach]
        exact fon_setEv (by decide) (by decide) (by decide) (by decide) _
  · change answer s (jtagTlr s.m) = _
    rw [jtagTlr, if_neg hon, jtagRelease, if_pos h]
    rfl

end Sys2Proof.Machine

/-! SUPPORT. In-band management (R388, R492, R495), and the removal of the module (R437, R468). -/

namespace Sys2Proof.Machine

/-! ### Management requests (R388) -/

theorem exec_mgmtReq {ops : List MgmtOp} (h : mgmtOk ops = true) (k : Fin 4) (s : State) :
    exec (.mgmtReq k ops) s = .next (s.withM (mgmtReq k ops s.m)) := by
  change answerIf (mgmtOk ops) s _ = _
  rw [h]
  rfl

theorem mgmtReq_runs {m : Mach} (hp : m.power = .coreRun) (h : mgmtHeld m = false) (k : Fin 4) (o : MgmtOp) :
    mgmtReq k [o] m = sendNat k (.mgmtResp [(mgmtOp o m).1]) (mgmtOp o m).2 := by
  simp [mgmtReq, hp, h, mgmtRun, mgmtOps]

theorem mgmtReq_waits {m : Mach} (hp : m.power = .coreRun) {k : Fin 4} (h : mgmtHeld m = true)
    (hroom : (getSess k.val m).held.length < 8) (ops : List MgmtOp) : mgmtReq k ops m =
      setSess k.val { getSess k.val m with held := (getSess k.val m).held ++ [.mgmtReq k ops] } m := by
  simp [mgmtReq, hp, h, hroom]

theorem mgmtOp_closed {o : MgmtOp} {m : Mach} (h : mapOpen .inband o.addr.toNat o.write m = false) :
    mgmtOp o m = ((2, Config.freeWord m.free), nextFree m) := by
  rw [mgmtOp, if_pos h]

theorem accBad_scratch (m : Mach) : accBad GCTL_SCRATCH m = false := by
  have h4 : GCTL_SCRATCH % 4 = 0 := by decide
  have hres : isRes GCTL_SCRATCH = false := by decide
  have htile : isTile GCTL_SCRATCH = false := by decide
  have hreg : (regInfo GCTL_SCRATCH).isNone = false := by decide
  simp only [accBad, h4, hres, htile, hreg, ne_eq, not_true_eq_false, Bool.false_eq_true, ↓reduceIte]

theorem mgmtOp_writeScratch {m : Mach} (ho : mapOpen .inband GCTL_SCRATCH true m = true) (v : W) :
    mgmtOp ⟨true, BitVec.ofNat 32 GCTL_SCRATCH, v⟩ m = ((0, Config.freeWord m.free), nextFree (wr GCTL_SCRATCH v m)) := by
  have haddr : (BitVec.ofNat 32 GCTL_SCRATCH).toNat = GCTL_SCRATCH := rfl
  have hwrite : mapWrite GCTL_SCRATCH v m = wr GCTL_SCRATCH v m := (hostWrite_open ho v).symm.trans (hostWrite_whole (by decide) ho v)
  simp [mgmtOp, haddr, ho, accBad_scratch, hwrite]

theorem mgmtOp_readScratch {m : Mach} (ho : mapOpen .inband GCTL_SCRATCH false m = true) (hst : staged GCTL_SCRATCH m = none) (v : W) :
    mgmtOp ⟨false, BitVec.ofNat 32 GCTL_SCRATCH, v⟩ m = ((0, rd GCTL_SCRATCH m), m) := by
  have haddr : (BitVec.ofNat 32 GCTL_SCRATCH).toNat = GCTL_SCRATCH := rfl
  have hread : mapRead GCTL_SCRATCH m = (rd GCTL_SCRATCH m, m) :=
    (hostRead_open ho).symm.trans (hostRead_plain ho (by decide) hst)
  simp [mgmtOp, haddr, ho, accBad_scratch, hread]

/-- An operation that leaves the session alone: the answer stands behind what was sent. -/
theorem mgmtAnswer_leaves {k : Fin 4} {l : List Nat} {m u : Mach} (hregs : regsKept l m u) (hl : ∀ a ∈ l, a < 0xB00000 ∨ 0xC00000 ≤ a)
    (hsess : u.sess = m.sess) (hout : u.out = m.out) (hstores : storesKept m u) (hbound : sessBound k.val m = true)
    (hport : sessPort k.val m = true) (b : NatBody) :
    regsKept l m (sendNat k b u) ∧ storesKept m (sendNat k b u) ∧
      (sendNat k b u).out = m.out ++ [.native k.val (getSess k.val m).txSeq b] :=
  ⟨fun a ha => (rd_sendNat a k b u).trans (hregs a ha), hstores.trans (storesKept_sendNat k b u),
    (hregs.sameSession hl hsess hout k).answered hbound hport b⟩

/-- A path that may write the scratch register in-band may read it: the device is not in RECOVERY. -/
theorem mapOpen_inband_read {m : Mach} (h : mapOpen .inband GCTL_SCRATCH true m = true) :
    mapOpen .inband GCTL_SCRATCH false m = true := by
  simp only [mapOpen, Bool.and_eq_true] at h ⊢
  refine ⟨h.1, ?_⟩
  have hd : devState m ≠ 2 := by simpa using h.2
  simp [hd]

theorem mapOpen_inband_recovery {m : Mach} (h : devState m = 2) : mapOpen .inband GCTL_SCRATCH true m = false := by
  simp [mapOpen, h]

/-- Settles O17. In RECOVERY the status of what is not performed is BUSY (assumption 15). -/
theorem managementRequestsAreAnswered : Obligations.ManagementRequestsAreAnswered := by
  intro s k v hp
  have hrun : mgmtHeld s.m = false → ∀ o, exec (.mgmtReq k [o]) s =
      .next (s.withM (sendNat k (.mgmtResp [(mgmtOp o s.m).1]) (mgmtOp o s.m).2)) := fun h o => by
    rw [exec_mgmtReq rfl, mgmtReq_runs hp h]
  refine ⟨fun h hbound hport => ⟨fun ho => ⟨?write, fun hst => ?read⟩, fun hrec => ?recovery⟩, fun h hroom ops hops => ?held⟩
  case write =>
    refine ⟨_, Config.freeWord s.m.free, hrun h _, ?_⟩
    rw [mgmtOp_writeScratch ho]
    dsimp only
    refine ⟨(rd_sendNat ..).trans (rd_wr_same GCTL_SCRATCH v s.m), ?_⟩
    exact mgmtAnswer_leaves (u := nextFree (wr GCTL_SCRATCH v s.m)) (regsKept_wr GCTL_SCRATCH v s.m) (by decide) rfl rfl (.refl s.m)
      hbound hport _
  case read => rw [hrun h, mgmtOp_readScratch (mapOpen_inband_read ho) hst]
  case recovery =>
    refine ⟨_, Config.freeWord s.m.free, hrun h _, ?_⟩
    rw [mgmtOp_closed (o := ⟨true, BitVec.ofNat 32 GCTL_SCRATCH, v⟩) (mapOpen_inband_recovery hrec)]
    dsimp only
    obtain ⟨-, hstores, hout⟩ := mgmtAnswer_leaves (u := nextFree s.m) (.refl [] s.m) (by simp) rfl rfl (.refl s.m) hbound hport
      (.mgmtResp [(2, Config.freeWord s.m.free)])
    obtain ⟨_, _, hframe⟩ := sendNat_frame k (.mgmtResp [(2, Config.freeWord s.m.free)]) (nextFree s.m)
    exact ⟨by rw [hframe]; rfl, hstores, hout⟩
  case held => rw [exec_mgmtReq hops, mgmtReq_waits hp h hroom]

/-! ### The removal (R437, R468) -/

theorem exec_hotPlugRemoval (s : State) : exec .hotPlugRemoval s = .next (s.withM (hotPlug s.m)) := rfl

/-- The device as the removal finds it, with its entry in the logs where no program runs. -/
def removalLogged (m : Mach) : Mach :=
  if nvmWriting m || m.nvm.program then m else logCode 0x0401 1 0xFF 0xFFFF 0xFFFF [] m

theorem rd_logCode {a : Nat} (h1 : a ≠ HLT_LOG_WPTR) (h2 : a ≠ HLT_EVENTS) (code die kind phys logical : Nat) (data : List Byte)
    (m : Mach) : rd a (logCode code die kind phys logical data m) = rd a m := by
  unfold logCode plogPut
  dsimp only
  split
  · rw [rd_setEv (f := HLT_EVENTS.plog_fail) h2 h1 h2, rd_logPut h1 h2]
  · exact rd_logPut h1 h2 _ m

theorem hasToken_of_rd {m u : Mach} (h : rd HLT_TWIN_STATUS u = rd HLT_TWIN_STATUS m) : hasToken u = hasToken m := by
  rw [hasToken, fon, fget_of_rd (f := HLT_TWIN_STATUS.token) h, ← fon, ← hasToken]

theorem hasToken_removalLogged (m : Mach) : hasToken (removalLogged m) = hasToken m := by
  unfold removalLogged
  split
  · rfl
  · exact hasToken_of_rd (rd_logCode (by decide) (by decide) ..)

theorem hotPlug_powered {m : Mach} (hon : m.power ≠ .off) (htoken : hasToken m = false) :
    hotPlug m = { powerOff (removalLogged m) with present := false } := by
  rw [hotPlug, if_neg hon]
  dsimp only
  rw [← removalLogged, releaseToken_none ((hasToken_removalLogged m).trans htoken)]

theorem nandOut_logPut (e : LogEntry) (m : Mach) : nandOut (logPut e m) = nandOut m := by
  obtain ⟨_, _, _, _, _, _, h⟩ := logPut_frame e m
  rw [h]
  rfl

/-- With a spare block of the NAND left, the persistent log takes the entry as its newest. -/
theorem head_plogPut {m : Mach} (h : nandOut m = false) (e : LogEntry) :
    ((plogPut e m).nvm.plog.head?.map fun e => e.code) = some e.code := by
  rw [plogPut, h, if_neg (by decide)]
  simp [List.take_succ_cons]

theorem plog_logCode {m : Mach} (h : nandOut m = false) (code die kind phys logical : Nat) (data : List Byte) :
    ((logCode code die kind phys logical data m).nvm.plog.head?.map fun e => e.code) = some code :=
  head_plogPut ((nandOut_logPut _ m).trans h) _

/-- Settles O21. That no tile and no byte is left rests on the model's rest state of memory (assumption 3), and that no entry is
written while a program runs on assumption 39. -/
theorem hotPlugRemovalTurnsOff : Obligations.HotPlugRemovalTurnsOff := by
  intro s
  refine ⟨fun hoff => ?_, fun hon htoken => ⟨_, congrArg (answer s) (hotPlug_powered hon htoken), rfl, rfl,
    devState_powerOff _, rfl, rfl, rfl, fun hw hp hnand => ?_⟩⟩
  · rw [exec_hotPlugRemoval, hotPlug, if_pos hoff]
  · have hlogged : removalLogged s.m = logCode 0x0401 1 0xFF 0xFFFF 0xFFFF [] s.m := by simp [removalLogged, hw, hp]
    rw [hlogged]
    exact plog_logCode hnand 0x0401 1 0xFF 0xFFFF 0xFFFF []

end Sys2Proof.Machine

/-! SUPPORT. Two clock statements refuted: a class B change into a plan with a tile section (R402, R473), and a coast limit at whose slot
boundary a staged value applies first (R22, R407). -/

namespace Sys2Proof.Machine

/-! ### O30: a class B change loads the tile section of its plan -/

theorem exec_classBStart (s : State) : exec .classBStart s = .next (s.withM (classBStart s.m)) := rfl

/-- A class B change into plan 0, to start at tick 0 with a full search. -/
def planTileChange : ClassB := ⟨0, false, 0, 0, false⟩

/-- The change is due. The deck holds, for that plan alone, a tile section (type 3) of one record, which gives logical
tile 0 the owner 1; physical tile 0 serves it and rests. -/
def planTileMach : Mach :=
  { clk := { classB := some planTileChange }, tiles := [(0, { serving := true })], img := { deck := [(13, [0#8, 1#8])] } }

set_option maxRecDepth 20000 in
/-- At the start of the change the record is in the tile (R473). -/
theorem owner_classBStart_planTileMach : (getTile 0 (classBStart planTileMach)).owner = 1 := by decide +kernel

/-- Refutes O30: its last clause keeps the tiles through the start of a class B change of any plan without a register section. A tile
section of the plan that starts takes effect there too (R473): it writes the tile that rests. -/
theorem not_gridAlignsToSync : ¬ Obligations.GridAlignsToSync := by
  intro h
  obtain ⟨-, -, -, hstart⟩ := h ⟨planTileMach, []⟩
  have hnoRegs : tabGet (fun _ => []) planTileMach.img.deck (4 * 2 + planTileChange.plan + 1) = [] := by decide
  obtain ⟨t, hexec, -, -, -, -, -, -, -, hstores⟩ := hstart planTileChange rfl rfl (Nat.le_refl 0) hnoRegs
  rw [exec_classBStart] at hexec
  have ht : classBStart planTileMach = t := next_withM_inj hexec
  obtain ⟨-, -, -, htiles⟩ := hstores
  have howner : (getTile 0 t).owner = (getTile 0 planTileMach).owner := by rw [getTile, htiles, getTile]
  rw [← ht, owner_classBStart_planTileMach] at howner
  exact absurd howner (by decide)

/-! ### O45: a value staged for the loops' states applies before their limits are looked at -/

theorem exec_coastLimit (l : Loop) (s : State) : exec (.coastLimit l) s = .next (s.withM (coastLimit l s.m)) := rfl

/-- A device in STANDBY whose MPLL has coasted since tick 0; the next slot starts at its coast limit, ten times 245760 ticks. The value
0, no MPLL, is staged for CLK_STATUS. -/
def coastMach : Mach :=
  let frame : FrameTab := { slots := [{}, { start := 2457600 }] }
  let base : Mach := { ftab := frame, stage := [(CLK_STATUS, some 0#32)], mesh := { synDone := some (0, 1) } }
  fset GCTL_DEV_STATE.state 3 (fset CLK_STATUS.mpll 4 base)

theorem timingOn_coastMach : timingOn coastMach = true := by decide

theorem limitDue_coastMach : limitDue 0 (nextSlot coastMach).2 coastMach = true := by decide +kernel

set_option maxRecDepth 20000 in
/-- The boundary gates no loop: what was staged has applied, and no loop coasts. -/
theorem gatedLoops_boundary_coastMach : (boundary coastMach).clk.gatedLoops = [] := by decide +kernel

/-- Refutes O45: its clause of COAST_LIMIT gates a loop that is due at the next boundary in every state, one with a value staged for
CLK_STATUS among them. No host write stages one, but where it stands it applies at that boundary before the limits are looked at, and
the loop coasts no more. (COAST_LIMIT stands for its boundary: assumption 104.) -/
theorem not_loopsLockCoastAndRecover : ¬ Obligations.LoopsLockCoastAndRecover := by
  intro h
  obtain ⟨-, -, -, -, -, hlimit, -⟩ := h ⟨coastMach, []⟩
  obtain ⟨t, hexec, -, hgated, -⟩ := (hlimit .mpll).2 timingOn_coastMach limitDue_coastMach
  rw [exec_coastLimit, coastLimit, if_pos ⟨timingOn_coastMach, limitDue_coastMach⟩] at hexec
  have ht : boundary coastMach = t := next_withM_inj hexec
  rw [← ht, gatedLoops_boundary_coastMach] at hgated
  exact absurd hgated List.not_mem_nil

end Sys2Proof.Machine

/-! SUPPORT. The statement about clock configuration and the class B request refuted: a deck_loaded flag without a deck (R401). -/

namespace Sys2Proof.Machine

theorem exec_classBRequest {s : State} (h : reach CLK_PLAN_CMD s.m = true) (v : W) :
    exec (.classBRequest v) s = .next (s.withM (classBRequest v s.m)) := answer_gate_reach h (classBRequest v)

/-- A device in STANDBY in plan 0 with its MPLL locked. GCTL_DEV_STATE.deck_loaded reads 1 and a deck's flags with plan 1 stand, but no
deck identity is held. -/
def deckFlagMach : Mach :=
  fset GCTL_DEV_STATE.deck_loaded 1 (fset GCTL_DEV_STATE.state 3 (fset CLK_STATUS.mpll 3
    { power := .coreRun, img := { deckFlags := 4 } }))

/-- The request for plan 1, with its key. -/
def planOneWord : W := 0x9C270001#32

theorem reach_deckFlagMach : reach CLK_PLAN_CMD deckFlagMach = true := by decide

/-- Without a deck the request is refused. -/
theorem classb_refused_deckFlagMach : fon CLK_STATUS.classb (classBRequest planOneWord deckFlagMach) = false := by decide +kernel

/-- Refutes O44: its clause of the class B request asks for GCTL_DEV_STATE.deck_loaded alone, while the device accepts one only with a
deck held (R401), and a state may have the flag without the deck. -/
theorem not_clockWritesAreTakenOrRefused : ¬ Obligations.ClockWritesAreTakenOrRefused := by
  intro h
  obtain ⟨-, -, -, -, hrequest, -⟩ := h ⟨deckFlagMach, []⟩ planOneWord
  obtain ⟨-, haccept⟩ := hrequest reach_deckFlagMach
  obtain ⟨t, -, hexec, hclassb, -⟩ := haccept (by decide +kernel) (by decide +kernel)
  rw [exec_classBRequest reach_deckFlagMach] at hexec
  have ht : classBRequest planOneWord deckFlagMach = t := next_withM_inj hexec
  rw [← ht, classb_refused_deckFlagMach] at hclassb
  exact absurd hclassb (by decide)

end Sys2Proof.Machine

/-! SUPPORT. What the recording of events leaves of the device (R441, R449, R451, R452): registers, the two logs, the request's ball and
the pending EVENT take note, and nothing else. -/

namespace Sys2Proof.Machine

/-! ### Taking note -/

/-- Of `m` only what takes note of events differs in `u`: registers, the event log with its units' marks, the persistent log, REPLACE_N
and the pending EVENT. -/
def Noted (m u : Mach) : Prop := ∃ r l sq ms c p z rn pl ps po, u =
  { m with regs := r, log := l, logSeq := sq, logMs := ms, logCnt := c, evtPend := p, poison := z, replaceN := rn,
           nvm := { m.nvm with plog := pl, plogSeq := ps, plogOver := po } }

theorem Noted.refl (m : Mach) : Noted m m := ⟨_, _, _, _, _, _, _, _, _, _, _, rfl⟩

theorem Noted.trans {m u v : Mach} (h : Noted m u) (h' : Noted u v) : Noted m v := by
  obtain ⟨_, _, _, _, _, _, _, _, _, _, _, rfl⟩ := h
  obtain ⟨_, _, _, _, _, _, _, _, _, _, _, rfl⟩ := h'
  exact ⟨_, _, _, _, _, _, _, _, _, _, _, rfl⟩

section
variable {m u : Mach} (h : Noted m u)
include h

theorem Noted.res : u.res = m.res := by obtain ⟨_, _, _, _, _, _, _, _, _, _, _, rfl⟩ := h; rfl
theorem Noted.stage : u.stage = m.stage := by obtain ⟨_, _, _, _, _, _, _, _, _, _, _, rfl⟩ := h; rfl
theorem Noted.tiles : u.tiles = m.tiles := by obtain ⟨_, _, _, _, _, _, _, _, _, _, _, rfl⟩ := h; rfl
theorem Noted.hlt : u.hlt = m.hlt := by obtain ⟨_, _, _, _, _, _, _, _, _, _, _, rfl⟩ := h; rfl
theorem Noted.remap : u.nvm.remap = m.nvm.remap := by obtain ⟨_, _, _, _, _, _, _, _, _, _, _, rfl⟩ := h; rfl
theorem Noted.tod : u.tod = m.tod := by obtain ⟨_, _, _, _, _, _, _, _, _, _, _, rfl⟩ := h; rfl
theorem Noted.power : u.power = m.power := by obtain ⟨_, _, _, _, _, _, _, _, _, _, _, rfl⟩ := h; rfl
theorem Noted.present : u.present = m.present := by obtain ⟨_, _, _, _, _, _, _, _, _, _, _, rfl⟩ := h; rfl
theorem Noted.sens : u.sens = m.sens := by obtain ⟨_, _, _, _, _, _, _, _, _, _, _, rfl⟩ := h; rfl
theorem Noted.twin : u.twin = m.twin := by obtain ⟨_, _, _, _, _, _, _, _, _, _, _, rfl⟩ := h; rfl
theorem Noted.out : u.out = m.out := by obtain ⟨_, _, _, _, _, _, _, _, _, _, _, rfl⟩ := h; rfl
theorem Noted.trans_ : u.trans = m.trans := by obtain ⟨_, _, _, _, _, _, _, _, _, _, _, rfl⟩ := h; rfl
theorem Noted.tokOut : u.tokOut = m.tokOut := by obtain ⟨_, _, _, _, _, _, _, _, _, _, _, rfl⟩ := h; rfl
theorem Noted.twinSel : u.twinSel = m.twinSel := by obtain ⟨_, _, _, _, _, _, _, _, _, _, _, rfl⟩ := h; rfl

theorem Noted.tile (k : Nat) : getTile k u = getTile k m := by rw [getTile, h.tiles, getTile]

theorem Noted.tick : tick u = tick m := by rw [Machine.tick, h.tod, Machine.tick]

/-- A change of the remap table comes before or after. -/
theorem Noted.setRemap (f : Remap → Remap) : Noted (setRemap f m) (setRemap f u) := by
  obtain ⟨_, _, _, _, _, _, _, _, _, _, _, rfl⟩ := h
  exact ⟨_, _, _, _, _, _, _, _, _, _, _, rfl⟩
end

/-! ### The operations that take note -/

theorem noted_wr (a : Nat) (v : W) (m : Mach) : Noted m (wr a v m) := ⟨_, _, _, _, _, _, _, _, _, _, _, rfl⟩

theorem noted_fset (f : Fld) (x : Nat) (m : Mach) : Noted m (fset f x m) := noted_wr _ _ m

theorem noted_fsetB (f : Fld) (b : Bool) (m : Mach) : Noted m (fsetB f b m) := noted_wr _ _ m

theorem noted_wantEvent (m : Mach) : Noted m (wantEvent m) := ⟨_, _, _, _, _, _, _, _, _, _, _, rfl⟩

theorem noted_replaceN (b : Bool) (m : Mach) : Noted m { m with replaceN := b } := ⟨_, _, _, _, _, _, _, _, _, _, _, rfl⟩

theorem noted_logPut (e : LogEntry) (m : Mach) : Noted m (logPut e m) := by
  obtain ⟨_, _, _, _, _, _, h⟩ := logPut_frame e m
  exact ⟨_, _, _, _, _, _, _, _, _, _, _, h⟩

theorem noted_summaryRise (g : Nat) (b : Bool) (m : Mach) : Noted m (summaryRise g b m) := by
  obtain ⟨_, h⟩ := summaryRise_frame g b m
  exact ⟨_, _, _, _, _, _, _, _, _, _, _, h⟩

theorem noted_setEvDie (d : Nat) (f : Fld) (m : Mach) : Noted m (setEvDie d f m) := by
  obtain ⟨_, _, _, _, _, _, _, h⟩ := setEvDie_frame d f m
  exact ⟨_, _, _, _, _, _, _, _, _, _, _, h⟩

theorem noted_setEv (f : Fld) (m : Mach) : Noted m (setEv f m) := noted_setEvDie _ f m

theorem noted_setEvIf (b : Bool) (f : Fld) (m : Mach) : Noted m (setEvIf b f m) := by
  cases b
  · exact .refl m
  · exact noted_setEv f m

theorem noted_plogPut (e : LogEntry) (m : Mach) : Noted m (plogPut e m) := by
  unfold plogPut
  split
  · exact noted_setEv _ m
  · exact ⟨_, _, _, _, _, _, _, _, _, _, _, rfl⟩

theorem noted_logCode (code die kind phys logical : Nat) (data : List Byte) (m : Mach) :
    Noted m (logCode code die kind phys logical data m) := (noted_logPut _ m).trans (noted_plogPut _ _)

theorem noted_setDev (st cause : Nat) (m : Mach) : Noted m (setDev st cause m) :=
  ((noted_fset _ _ m).trans (noted_fset _ _ _)).trans (noted_fset _ _ _)

theorem noted_degradeIfActive (m : Mach) : Noted m (degradeIfActive m) := by
  unfold degradeIfActive
  split
  · exact (noted_setDev 6 5 m).trans (noted_setEv _ _)
  · exact .refl m

/-- The request's bits and the drive of its ball, with the summary's rise (R449). -/
def requestBits (f : Fld) (m : Mach) : Mach := summaryRise 17 (summaryBit m 17)
  { fset GCTL_DEV_STATE.replace 1 (fset HLT_STATUS.replace 1 (fset f 1 m)) with replaceN := true }

/-- A request: its bits, then its event, its log entry and the EVENT message. -/
theorem raiseReplace_eq (f : Fld) (m : Mach) : raiseReplace f m =
    degradeIfActive (wantEvent (logCode 0x0200 1 0xFF 0xFFFF 0xFFFF
      (leBytes 4 (rd HLT_REPLACE (setEv HLT_EVENTS.replace_raised (requestBits f m))).toNat)
      (setEv HLT_EVENTS.replace_raised (requestBits f m)))) := rfl

/-- R449: a replacement request. -/
theorem noted_raiseReplace (f : Fld) (m : Mach) : Noted m (raiseReplace f m) := by
  have hbits : Noted m (requestBits f m) := ((((noted_fset f 1 m).trans (noted_fset _ 1 _)).trans (noted_fset _ 1 _)).trans
    (noted_replaceN true _)).trans (noted_summaryRise ..)
  rw [raiseReplace_eq]
  exact (((hbits.trans (noted_setEv _ _)).trans (noted_logCode ..)).trans (noted_wantEvent _)).trans (noted_degradeIfActive _)

theorem noted_refreshKind (k : Nat) (m : Mach) : Noted m (refreshKind k m) := by
  unfold refreshKind
  dsimp -proj -iota -eta only
  refine Noted.trans ?_ ((noted_fsetB _ _ _).trans (noted_fsetB _ _ _))
  split
  · exact ((noted_fset _ _ m).trans (noted_fset _ _ _)).trans (noted_fset _ _ _)
  · exact .refl m

theorem noted_ite {c : Prop} [Decidable c] {m u v : Mach} (hu : Noted m u) (hv : Noted m v) : Noted m (if c then u else v) := by
  split
  · exact hu
  · exact hv

/-! ### Bits that stay set -/

/-- The bit is 1 still. -/
def Sticks (f : Fld) (m u : Mach) : Prop := fon f m = true → fon f u = true

theorem Sticks.trans {f : Fld} {m u v : Mach} (h : Sticks f m u) (h' : Sticks f u v) : Sticks f m v := fun h0 => h' (h h0)

theorem sticks_of_kept {f : Fld} {l : List Nat} {m u : Mach} (h : regsKept l m u) (hf : f.reg ∉ l) : Sticks f m u :=
  fun h0 => (h.fon hf).trans h0

theorem sticks_of_rd {f : Fld} {m u : Mach} (h : rd f.reg u = rd f.reg m) : Sticks f m u :=
  fun h0 => by rw [fon, fget_of_rd h]; exact h0

section
variable {f : Fld} (hw : f.w = 1) (hlo : f.lo + f.w ≤ 32)
include hw hlo

/-- A bit stays 1 where a bit is set, be it the same. -/
theorem sticks_fset_one {g : Fld} (hgw : g.w = 1) (hglo : g.lo + g.w ≤ 32) (m : Mach) : Sticks f m (fset g 1 m) := by
  intro h0
  by_cases heq : f.reg = g.reg ∧ f.lo = g.lo
  · obtain ⟨hreg, hat⟩ := heq
    have hfg : f = g := by
      cases f; cases g
      simp only [Fld.mk.injEq] at hreg hat hw hgw ⊢
      exact ⟨hreg, hat, hw.trans hgw.symm⟩
    rw [hfg]
    exact fon_fset_one hgw hglo m
  · rw [fon_fset_other hglo (by omega)]
    exact h0

theorem sticks_logPut (h1 : f.reg ≠ HLT_LOG_WPTR) (e : LogEntry) (m : Mach) : Sticks f m (logPut e m) := by
  rcases logPut_cases e m with h | ⟨x, l, q, ms, c, z, h⟩ | ⟨k, h⟩ <;> rw [h]
  · exact fun h0 => h0
  · exact sticks_of_rd (rd_fset_other (f := HLT_LOG_WPTR.next) h1 x m)
  · exact (sticks_of_rd (rd_fset_other (f := HLT_LOG_WPTR.dropped) h1 _ m)).trans
      (sticks_fset_one hw hlo (g := HLT_EVENTS.log_drop) rfl (by decide) _)

theorem sticks_setEvDie (h1 : f.reg ≠ HLT_LOG_WPTR) {g : Fld} (hgw : g.w = 1) (hglo : g.lo + g.w ≤ 32) (d : Nat) (m : Mach) :
    Sticks f m (setEvDie d g m) := by
  have hlog := (sticks_fset_one hw hlo hgw hglo m).trans (sticks_logPut hw hlo h1 { stickyEntry g with die := d } _)
  unfold setEvDie
  split
  · exact fun h0 => h0
  · dsimp only
    split
    · exact hlog
    · exact hlog.trans (sticks_of_rd (rd_summaryRise ..))

theorem sticks_setEv (h1 : f.reg ≠ HLT_LOG_WPTR) {g : Fld} (hgw : g.w = 1) (hglo : g.lo + g.w ≤ 32) (m : Mach) :
    Sticks f m (setEv g m) := sticks_setEvDie hw hlo h1 hgw hglo _ m

theorem sticks_plogPut (h1 : f.reg ≠ HLT_LOG_WPTR) (e : LogEntry) (m : Mach) : Sticks f m (plogPut e m) := by
  unfold plogPut
  split
  · exact sticks_setEv hw hlo h1 rfl (by decide) m
  · exact fun h0 => h0

theorem sticks_logCode (h1 : f.reg ≠ HLT_LOG_WPTR) (code die kind phys logical : Nat) (data : List Byte) (m : Mach) :
    Sticks f m (logCode code die kind phys logical data m) :=
  (sticks_logPut hw hlo h1 _ m).trans (sticks_plogPut hw hlo h1 _ _)

/-- The bit that an event sets is 1, of the log's own register too. -/
theorem fon_setEvDie_self (h1 : f.reg ≠ HLT_LOG_WPTR) (d : Nat) (m : Mach) : fon f (setEvDie d f m) = true := by
  have hlog : ∀ e, fon f (logPut e (fset f 1 m)) = true := fun e => sticks_logPut hw hlo h1 e _ (fon_fset_one hw hlo m)
  unfold setEvDie
  split
  · assumption
  · dsimp only
    split
    · exact hlog _
    · exact sticks_of_rd (rd_summaryRise ..) (hlog _)

omit hw hlo in
/-- Of the device's state register only the bits above the cause are sure to stay. -/
theorem sticks_setDev (hd : f.reg ≠ GCTL_DEV_STATE ∨ 12 ≤ f.lo) (st c : Nat) (m : Mach) : Sticks f m (setDev st c m) :=
  fun h0 => by rw [fon, fget_setDev_other hd]; exact h0

theorem sticks_degradeIfActive (h1 : f.reg ≠ HLT_LOG_WPTR) (hd : f.reg ≠ GCTL_DEV_STATE ∨ 12 ≤ f.lo) (m : Mach) :
    Sticks f m (degradeIfActive m) := by
  unfold degradeIfActive
  split
  · exact (sticks_setDev hd 6 5 m).trans (sticks_setEv hw hlo h1 rfl (by decide) _)
  · exact fun h0 => h0

/-- What follows the cause bit of a request. -/
theorem sticks_raiseReplace_rest (h1 : f.reg ≠ HLT_LOG_WPTR) (hd : f.reg ≠ GCTL_DEV_STATE ∨ 12 ≤ f.lo) (g : Fld) (m : Mach) :
    Sticks f (fset g 1 m) (raiseReplace g m) := by
  have hset : ∀ (g : Fld) (u : Mach), g.w = 1 → g.lo + g.w ≤ 32 → Sticks f u (fset g 1 u) := fun g u hgw hglo =>
    sticks_fset_one hw hlo hgw hglo u
  have hbits : Sticks f (fset g 1 m) (requestBits g m) := fun h0 => sticks_of_rd (rd_summaryRise ..)
    ((hset HLT_STATUS.replace _ rfl (by decide)).trans (hset GCTL_DEV_STATE.replace _ rfl (by decide)) h0)
  rw [raiseReplace_eq]
  exact ((hbits.trans (sticks_setEv hw hlo h1 (g := HLT_EVENTS.replace_raised) rfl (by decide) _)).trans
    (sticks_logCode hw hlo h1 _ _ _ _ _ _ _)).trans (sticks_degradeIfActive hw hlo h1 hd (wantEvent _))

theorem sticks_raiseReplace (h1 : f.reg ≠ HLT_LOG_WPTR) (hd : f.reg ≠ GCTL_DEV_STATE ∨ 12 ≤ f.lo) {g : Fld} (hgw : g.w = 1)
    (hglo : g.lo + g.w ≤ 32) (m : Mach) : Sticks f m (raiseReplace g m) :=
  (sticks_fset_one hw hlo hgw hglo m).trans (sticks_raiseReplace_rest hw hlo h1 hd g m)

/-- R449: the cause of a request that is raised is shown. -/
theorem fon_raiseReplace (h1 : f.reg ≠ HLT_LOG_WPTR) (hd : f.reg ≠ GCTL_DEV_STATE ∨ 12 ≤ f.lo) (m : Mach) :
    fon f (raiseReplace f m) = true := sticks_raiseReplace_rest hw hlo h1 hd f m (fon_fset_one hw hlo m)

end

end Sys2Proof.Machine

/-! SUPPORT. What the front-end sequencers and the pins' refresh touch (R236 to R243): of the device's other parts nothing. -/

namespace Sys2Proof.Machine

/-- A register that is neither a sequencer's or coupler's, nor a capture set's, nor the event log's. -/
def offSeq (a : Nat) : Prop := a % 0x100000 < 0x4000 ∧ (a < 0xA00000 ∨ 0xB00000 ≤ a) ∧ a ≠ HLT_LOG_WPTR ∧ a ≠ HLT_EVENTS

/-- Of `m` only registers of the sequencers, receive units, captures, collected events and the event log differ in `u`. -/
def Sequenced (m u : Mach) : Prop := (∃ r x y z h l sq ms c p po, u =
  { m with regs := r, fes := x, rx := y, pdCap := z, evHold := h, log := l, logSeq := sq, logMs := ms, logCnt := c, evtPend := p,
           poison := po }) ∧ ∀ a, offSeq a → rd a u = rd a m

theorem Sequenced.refl (m : Mach) : Sequenced m m := ⟨⟨_, _, _, _, _, _, _, _, _, _, _, rfl⟩, fun _ _ => rfl⟩

theorem Sequenced.trans {m u v : Mach} (h : Sequenced m u) (h' : Sequenced u v) : Sequenced m v := by
  obtain ⟨⟨_, _, _, _, _, _, _, _, _, _, _, rfl⟩, hrd⟩ := h
  obtain ⟨⟨_, _, _, _, _, _, _, _, _, _, _, rfl⟩, hrd'⟩ := h'
  exact ⟨⟨_, _, _, _, _, _, _, _, _, _, _, rfl⟩, fun a ha => (hrd' a ha).trans (hrd a ha)⟩

section
variable {m u : Mach} (h : Sequenced m u)
include h

theorem Sequenced.twin : u.twin = m.twin := by obtain ⟨⟨_, _, _, _, _, _, _, _, _, _, _, rfl⟩, -⟩ := h; rfl
theorem Sequenced.tokOut : u.tokOut = m.tokOut := by obtain ⟨⟨_, _, _, _, _, _, _, _, _, _, _, rfl⟩, -⟩ := h; rfl
theorem Sequenced.twinSel : u.twinSel = m.twinSel := by obtain ⟨⟨_, _, _, _, _, _, _, _, _, _, _, rfl⟩, -⟩ := h; rfl
theorem Sequenced.rd {a : Nat} (ha : offSeq a) : Machine.rd a u = Machine.rd a m := h.2 a ha
theorem Sequenced.stores : storesKept m u := by obtain ⟨⟨_, _, _, _, _, _, _, _, _, _, _, rfl⟩, -⟩ := h; exact .refl m
end

theorem sequenced_each {α : Type} {l : List α} {f : α → Mach → Mach} (h : ∀ a ∈ l, ∀ m, Sequenced m (f a m)) (m : Mach) :
    Sequenced m (each l f m) := each_inv (Sequenced m) l f (fun a ha u hu => hu.trans (h a ha u)) m (.refl m)

theorem sequenced_wr {a : Nat} (h : ¬ offSeq a) (v : W) (m : Mach) : Sequenced m (wr a v m) :=
  ⟨⟨_, _, _, _, _, _, _, _, _, _, _, rfl⟩, fun b hb => rd_wr_other (by rintro rfl; exact h hb) v m⟩

theorem sequenced_fset {f : Fld} (h : ¬ offSeq f.reg) (x : Nat) (m : Mach) : Sequenced m (fset f x m) := sequenced_wr h _ m

theorem sequenced_setFes (q : Nat) (x : Fes) (m : Mach) : Sequenced m (setFes q x m) :=
  ⟨⟨_, _, _, _, _, _, _, _, _, _, _, rfl⟩, fun _ _ => rfl⟩

theorem sequenced_setRx (k : Nat) (x : RxSt) (m : Mach) : Sequenced m (setRx k x m) :=
  ⟨⟨_, _, _, _, _, _, _, _, _, _, _, rfl⟩, fun _ _ => rfl⟩

theorem sequenced_setEv {f : Fld} (h : ¬ offSeq f.reg) (m : Mach) : Sequenced m (setEv f m) := by
  refine ⟨?_, fun a ha => rd_setEv (by rintro rfl; exact h ha) ha.2.2.1 ha.2.2.2 m⟩
  obtain ⟨_, _, _, _, _, _, _, hframe⟩ := setEv_frame f m
  exact ⟨_, _, _, _, _, _, _, _, _, _, _, hframe⟩

theorem not_offSeq_status (q : Nat) : ¬ offSeq (QUAD_FES_STATUS q) := by simp only [offSeq, QUAD_FES_STATUS, quadBase]; omega

theorem not_offSeq_events (q : Nat) : ¬ offSeq (QUAD_FES_EVENTS q) := by simp only [offSeq, QUAD_FES_EVENTS, quadBase]; omega

theorem not_offSeq_coupler (o : Nat) : ¬ offSeq (QUAD_OBS_COUPLER o) := by
  simp only [offSeq, QUAD_OBS_COUPLER, obsBase, quadBase]; omega

theorem not_offSeq_capCouplers {c : Nat} (h : c < 8) (o : Nat) : ¬ offSeq (if o < 4 then RES_CAP_CPL_LO c else RES_CAP_CPL_HI c) := by
  split
  · simp only [offSeq, RES_CAP_CPL_LO]; omega
  · simp only [offSeq, RES_CAP_CPL_HI]; omega

theorem sequenced_refreshFes (q : Nat) (m : Mach) : Sequenced m (refreshFes q m) := by
  refine ⟨?_, fun a ha => rd_refreshFes (by rintro rfl; exact not_offSeq_status q ha) (by rintro rfl; exact not_offSeq_events q ha)
    ha.2.2.1 ha.2.2.2 m⟩
  obtain ⟨_, _, _, _, _, _, _, _, hframe⟩ := refreshFes_frame q m
  exact ⟨_, _, _, _, _, _, _, _, _, _, _, hframe⟩

theorem sequenced_refreshPins (m : Mach) : Sequenced m (refreshPins m) := sequenced_each (fun q _ => sequenced_refreshFes q) m

theorem sequenced_queueFcb (q w due : Nat) (m : Mach) : Sequenced m (queueFcb q w due m) := by
  unfold queueFcb
  dsimp only
  split
  · exact (sequenced_setFes ..).trans (sequenced_refreshFes ..)
  · exact sequenced_setEv (f := QUAD_FES_EVENTS.fcb_ovf q) (not_offSeq_events q) m

theorem sequenced_spoilCap (o : Nat) (m : Mach) : Sequenced m (spoilCap o m) := by
  unfold spoilCap
  split
  · split
    · exact .refl m
    · exact ⟨⟨_, _, _, _, _, _, _, _, _, _, _, rfl⟩, fun _ _ => rfl⟩
  · exact .refl m

theorem sequenced_couplerChanged (o : Nat) (m : Mach) : Sequenced m (couplerChanged o m) :=
  sequenced_each (fun c hc u => by
    split
    · exact sequenced_wr (not_offSeq_capCouplers (List.mem_range.1 hc) o) _ u
    · exact .refl u) m

theorem sequenced_setCoupler (o n : Nat) (m : Mach) : Sequenced m (setCoupler o n m) := by
  unfold setCoupler
  dsimp only
  split
  · exact sequenced_wr (not_offSeq_coupler _) _ m
  · exact (((sequenced_wr (not_offSeq_coupler _) _ m).trans (sequenced_setRx ..)).trans (sequenced_couplerChanged ..)).trans (sequenced_spoilCap ..)

theorem sequenced_runAct (q t kind mask value : Nat) (m : Mach) : Sequenced m (runAct q t kind mask value m) := by
  unfold runAct
  dsimp only
  split
  · exact (sequenced_setFes ..).trans (sequenced_refreshFes ..)
  · exact (sequenced_setFes ..).trans (sequenced_refreshFes ..)
  · exact sequenced_queueFcb ..
  · split
    · exact sequenced_setCoupler ..
    · exact (sequenced_setCoupler ..).trans (sequenced_queueFcb ..)

theorem sequenced_schedAct (q b k : Nat) (m : Mach) : Sequenced m (schedAct q b k m) := by
  unfold schedAct
  dsimp only
  split
  · exact (sequenced_setEv (f := QUAD_FES_EVENTS.act_late q) (not_offSeq_events q) m).trans (sequenced_runAct ..)
  · split
    · exact (sequenced_setFes ..).trans (sequenced_refreshFes ..)
    · exact sequenced_setEv (f := QUAD_FES_EVENTS.act_ovf q) (not_offSeq_events q) m

theorem sequenced_enterState (q st b : Nat) (m : Mach) : Sequenced m (enterState q st b m) := by
  unfold enterState
  dsimp only
  exact ((sequenced_fset (f := QUAD_FES_STATUS.state q) (not_offSeq_status q) st m).trans (sequenced_setFes ..)).trans
    (sequenced_each (fun k _ u => sequenced_schedAct q b k u) _)

theorem sequenced_fesEvent (q code b : Nat) (m : Mach) : Sequenced m (fesEvent q code b m) := by
  unfold fesEvent
  split
  · split
    · exact sequenced_enterState ..
    · exact .refl m
  · exact .refl m

theorem sequenced_fesNow (q code : Nat) (m : Mach) : Sequenced m (fesNow q code m) := by
  unfold fesNow
  split
  · exact sequenced_fesEvent ..
  · exact ⟨⟨_, _, _, _, _, _, _, _, _, _, _, rfl⟩, fun _ _ => rfl⟩

theorem sequenced_fesAll (code : Nat) (m : Mach) : Sequenced m (fesAll code m) :=
  sequenced_each (fun q _ u => sequenced_fesNow q code u) m

end Sys2Proof.Machine

/-! SUPPORT. The twin token: its take, its check, and a conflict (R455 to R457). -/

namespace Sys2Proof.Machine

theorem hasToken_fset {f : Fld} (h : f.lo + f.w ≤ 32) (hd : f.reg ≠ HLT_TWIN_STATUS ∨ f.lo + f.w ≤ 2 ∨ 3 ≤ f.lo) (x : Nat) (m : Mach) :
    hasToken (fset f x m) = hasToken m :=
  fon_fset_other (g := HLT_TWIN_STATUS.token) h (hd.imp Ne.symm id) x m

/-- The device may drive TWIN_TOK_O: it seeks the token, and neither backs off, nor drives, nor holds it. -/
def MayTake (m : Mach) : Prop := m.twin.taking = true ∧ m.twin.backoff = false ∧ m.twin.driving = false ∧ hasToken m = false

theorem tokenTake_not {m : Mach} (h : ¬ MayTake m) : tokenTake m = m := by
  refine if_neg fun hc => h ?_
  simp only [Bool.and_eq_true, Bool.not_eq_true'] at hc
  obtain ⟨⟨⟨ht, hb⟩, hd⟩, hk⟩ := hc
  exact ⟨ht, hb, hd, hk⟩

theorem tokenTake_may {m : Mach} (h : MayTake m) : tokenTake m =
    driveToken true false (fset HLT_TWIN_STATUS.tok_in 0 { m with twin := { m.twin with driving := true } }) := by
  obtain ⟨ht, hb, hd, hk⟩ := h
  simp [tokenTake, ht, hb, hd, hk]

theorem hasToken_tokenTake {m : Mach} (h : MayTake m) : hasToken (tokenTake m) = false := by
  rw [tokenTake_may h]
  exact ((hasToken_fset (f := HLT_TWIN_STATUS.sel) (by decide) (by decide) _ _).trans
    (hasToken_fset (f := HLT_TWIN_STATUS.tok_in) (by decide) (by decide) _ _)).trans h.2.2.2

theorem tokIn_tokenTake {m : Mach} (h : MayTake m) : fon HLT_TWIN_STATUS.tok_in (tokenTake m) = false := by
  rw [tokenTake_may h]
  exact (fon_fset_other (f := HLT_TWIN_STATUS.sel) (g := HLT_TWIN_STATUS.tok_in) (by decide) (by decide) _ _).trans
    (fon_fset_zero (by decide) _)

theorem regsKept_tokenTake {m : Mach} (h : MayTake m) : regsKept [HLT_TWIN_STATUS] m (tokenTake m) := by
  rw [tokenTake_may h]
  exact (regsKept_fset HLT_TWIN_STATUS.tok_in 0 _).trans (regsKept_fset HLT_TWIN_STATUS.sel 0 _)

/-! ### The check, 1 µs later -/

/-- The device that finds TWIN_TOK_I high backs off. -/
def backedOff (m : Mach) : Mach :=
  driveToken false false { fset HLT_TWIN_STATUS.tok_in 1 m with twin := { m.twin with driving := false, backoff := true } }

theorem tokenCheck_high {m : Mach} (h : m.twin.driving = true) :
    tokenCheck true m = setEvIf m.twin.takeover.isSome HLT_TWIN_EVENTS.split_blocked (backedOff m) := by
  unfold tokenCheck
  rw [h]
  rfl

theorem hasToken_setEvIf {f : Fld} (h : f.reg ≠ HLT_TWIN_STATUS) (b : Bool) (m : Mach) : hasToken (setEvIf b f m) = hasToken m := by
  refine (regsKept_setEvIf b f m).fon (f := HLT_TWIN_STATUS.token) ?_
  simp only [List.mem_cons, List.not_mem_nil, or_false, not_or]
  exact ⟨h.symm, by decide, by decide⟩

theorem hasToken_backedOff (m : Mach) : hasToken (backedOff m) = hasToken m :=
  (hasToken_fset (f := HLT_TWIN_STATUS.sel) (by decide) (by decide) _ _).trans
    (hasToken_fset (f := HLT_TWIN_STATUS.tok_in) (by decide) (by decide) _ _)

theorem tokIn_backedOff (m : Mach) : fon HLT_TWIN_STATUS.tok_in (backedOff m) = true :=
  (fon_fset_other (f := HLT_TWIN_STATUS.sel) (g := HLT_TWIN_STATUS.tok_in) (by decide) (by decide) _ _).trans
    (fon_fset_one (f := HLT_TWIN_STATUS.tok_in) rfl (by decide) m)

/-- The device that finds it low holds the token and its pins; a takeover goes on to settle. -/
def tokenGot (m : Mach) : Mach :=
  let m1 := driveToken true true (fset HLT_TWIN_STATUS.tok_wait 0 (fset HLT_TWIN_STATUS.token 1
    { fset HLT_TWIN_STATUS.tok_in 0 m with twin := { m.twin with driving := false, taking := false } }))
  if m.twin.takeover.isSome then fset HLT_TWIN_STATUS.phase 2 m1 else m1

theorem tokenCheck_low {m : Mach} (h : m.twin.driving = true) : tokenCheck false m = fesAll 13 (refreshPins (tokenGot m)) := by
  unfold tokenCheck
  rw [h]
  rfl

theorem tokenGot_frame (m : Mach) : ∃ r, tokenGot m =
    { m with regs := r, tokOut := true, twinSel := true, twin := { m.twin with driving := false, taking := false } } := by
  unfold tokenGot
  dsimp only
  split
  · exact ⟨_, rfl⟩
  · exact ⟨_, rfl⟩

theorem sequenced_delivered (code : Nat) (m : Mach) : Sequenced m (fesAll code (refreshPins m)) :=
  (sequenced_refreshPins m).trans (sequenced_fesAll code _)

theorem offSeq_twinStatus : offSeq HLT_TWIN_STATUS := by unfold offSeq; decide

theorem fget_delivered {f : Fld} (h : f.reg = HLT_TWIN_STATUS) (code : Nat) (m : Mach) :
    fget f (fesAll code (refreshPins m)) = fget f m := fget_of_rd ((sequenced_delivered code m).rd (by rw [h]; exact offSeq_twinStatus))

theorem hasToken_tokenGot (m : Mach) : hasToken (tokenGot m) = true := by
  have hset : ∀ u, hasToken (fset HLT_TWIN_STATUS.tok_wait 0 (fset HLT_TWIN_STATUS.token 1 u)) = true := fun u =>
    (hasToken_fset (f := HLT_TWIN_STATUS.tok_wait) (by decide) (by decide) _ _).trans
      (fon_fset_one (f := HLT_TWIN_STATUS.token) rfl (by decide) u)
  have hdriven := (hasToken_fset (f := HLT_TWIN_STATUS.sel) (by decide) (by decide) 1 _).trans (hset
    { fset HLT_TWIN_STATUS.tok_in 0 m with twin := { m.twin with driving := false, taking := false } })
  unfold tokenGot
  dsimp only
  split
  · exact (hasToken_fset (f := HLT_TWIN_STATUS.phase) (by decide) (by decide) _ _).trans hdriven
  · exact hdriven

theorem tokWait_tokenGot (m : Mach) : fon HLT_TWIN_STATUS.tok_wait (tokenGot m) = false := by
  have hdriven := (fon_fset_other (f := HLT_TWIN_STATUS.sel) (g := HLT_TWIN_STATUS.tok_wait) (by decide) (by decide) 1 _).trans
    (fon_fset_zero (f := HLT_TWIN_STATUS.tok_wait) (by decide) (fset HLT_TWIN_STATUS.token 1
      { fset HLT_TWIN_STATUS.tok_in 0 m with twin := { m.twin with driving := false, taking := false } }))
  unfold tokenGot
  dsimp only
  split
  · exact (fon_fset_other (f := HLT_TWIN_STATUS.phase) (by decide) (by decide) _ _).trans hdriven
  · exact hdriven

theorem phase_tokenGot {m : Mach} (h : m.twin.takeover ≠ none) : fget HLT_TWIN_STATUS.phase (tokenGot m) = 2 := by
  unfold tokenGot
  dsimp only
  rw [if_pos (Option.isSome_iff_ne_none.2 h)]
  exact fget_fset_same (f := HLT_TWIN_STATUS.phase) (by decide) 2 _

/-! ### A conflict (R456) -/

/-- The device that releases the token: the request's event, then the pins, then the log. -/
theorem releaseToken_held {m : Mach} (h : hasToken m = true) (reason : Nat) : releaseToken reason m =
    logCode 0x0302 1 0xFF 0xFFFF 0xFFFF [BitVec.ofNat 8 reason]
      (fesAll 0 (refreshPins (driveToken false false (fset HLT_TWIN_STATUS.token 0 m)))) := if_pos h

theorem releaseToken_released {m : Mach} (h : hasToken m = true) (reason : Nat) :
    hasToken (releaseToken reason m) = false ∧ (releaseToken reason m).tokOut = false ∧
      (releaseToken reason m).twinSel = false ∧ (releaseToken reason m).res = m.res ∧ (releaseToken reason m).tiles = m.tiles := by
  have hseq := sequenced_delivered 0 (driveToken false false (fset HLT_TWIN_STATUS.token 0 m))
  have hlog := noted_logCode 0x0302 1 0xFF 0xFFFF 0xFFFF [BitVec.ofNat 8 reason]
    (fesAll 0 (refreshPins (driveToken false false (fset HLT_TWIN_STATUS.token 0 m))))
  obtain ⟨hres, -, -, htiles⟩ := hseq.stores
  rw [releaseToken_held h]
  refine ⟨?_, hlog.tokOut.trans hseq.tokOut, hlog.twinSel.trans hseq.twinSel, hlog.res.trans hres, hlog.tiles.trans htiles⟩
  rw [hasToken_of_rd (rd_logCode (by decide) (by decide) ..), hasToken, fon, fget_delivered rfl, ← fon]
  exact (fon_fset_other (f := HLT_TWIN_STATUS.sel) (by decide) (by decide) _ _).trans
    (fon_fset_zero (f := HLT_TWIN_STATUS.token) (by decide) m)

theorem fon_releaseToken {f : Fld} (h : f.reg = HLT_TWIN_EVENTS) (reason : Nat) (m : Mach) :
    fon f (releaseToken reason m) = fon f m := by
  unfold releaseToken
  split
  · have hrd : rd f.reg (fesAll 0 (refreshPins (driveToken false false (fset HLT_TWIN_STATUS.token 0 m)))) = rd f.reg m := by
      rw [(sequenced_delivered 0 _).rd (by rw [h]; unfold offSeq; decide), h]
      exact (rd_fset_other (f := HLT_TWIN_STATUS.sel) (by decide) _ _).trans (rd_fset_other (by decide) _ _)
    rw [fon, fget_of_rd ((rd_logCode (by rw [h]; decide) (by rw [h]; decide) ..).trans hrd), fon]
  · rfl

/-- A device without the token asks for it: nothing else of it changes. -/
theorem wantToken_asks {m : Mach} (h : hasToken m = false) : wantToken m =
    { fsetB HLT_TWIN_STATUS.tok_wait (isActive m) m with twin := { m.twin with taking := true } } := if_neg (by simp [h])

theorem tokenConflict_held {m : Mach} (h : hasToken m = true) : ∃ u, tokenConflict m = u ∧ hasToken u = false ∧ u.tokOut = false ∧
    u.twinSel = false ∧ u.twin.taking = true ∧ u.twin.backoff = true ∧ fon HLT_TWIN_EVENTS.tok_conflict u = true ∧
    u.res = m.res ∧ u.tiles = m.tiles := by
  have hev : hasToken (setEv HLT_TWIN_EVENTS.tok_conflict (fset HLT_TWIN_STATUS.tok_in 1 m)) = true :=
    (hasToken_setEvIf (f := HLT_TWIN_EVENTS.tok_conflict) (by decide) true _).trans
      ((hasToken_fset (f := HLT_TWIN_STATUS.tok_in) (by decide) (by decide) 1 m).trans h)
  obtain ⟨htoken, hout, hsel, hres, htiles⟩ := releaseToken_released hev 0xFF
  have hconf := (fon_releaseToken (f := HLT_TWIN_EVENTS.tok_conflict) rfl 0xFF _).trans
    (fon_setEv (f := HLT_TWIN_EVENTS.tok_conflict) rfl (by decide) (by decide) (by decide) (fset HLT_TWIN_STATUS.tok_in 1 m))
  refine ⟨_, rfl, ?_⟩
  rw [tokenConflict, if_pos h, wantToken_asks htoken]
  refine ⟨?_, hout, hsel, rfl, rfl, ?_, ?_, ?_⟩
  · exact (hasToken_fset (f := HLT_TWIN_STATUS.tok_wait) (by decide) (by decide) _ _).trans htoken
  · exact (fon_fset_other (f := HLT_TWIN_STATUS.tok_wait) (by decide) (by decide) _ _).trans hconf
  · exact hres.trans (res_setEv _ _)
  · exact htiles.trans (tiles_setEv _ _)

end Sys2Proof.Machine

/-! SUPPORT. Health: NAND blocks, correctable events, retirement by plan and tests of spares (R439 to R443, R447). -/

namespace Sys2Proof.Machine

/-! ### A spare given up (R441) -/

/-- The remap table with one more spare of pool `p` of kind `k` used. -/
def usedRemap (k p : Nat) (m : Mach) : Mach :=
  setRemap (fun r => { r with used := tabPut (fun _ => 0) r.used (poolKey k p) (poolUsed k p m + 1) }) m

theorem noted_useSpare (k p : Nat) (m : Mach) : Noted (usedRemap k p m) (useSpare k p m) := by
  unfold useSpare
  dsimp only
  split
  · exact (noted_refreshKind k _).trans (noted_raiseReplace _ _)
  · exact noted_refreshKind k _

theorem poolUsed_of_remap {m u : Mach} (h : u.nvm.remap.used = m.nvm.remap.used) (k p : Nat) : poolUsed k p u = poolUsed k p m := by
  rw [poolUsed, h, poolUsed]

theorem poolBad_of_remap {m u : Mach} (h : u.nvm.remap.bad = m.nvm.remap.bad) (k p : Nat) : poolBad k p u = poolBad k p m := by
  rw [poolBad, h, poolBad]

theorem poolLeft_of_remap {m u : Mach} (hused : u.nvm.remap.used = m.nvm.remap.used) (hbad : u.nvm.remap.bad = m.nvm.remap.bad)
    (k p : Nat) : poolLeft k p u = poolLeft k p m := by
  rw [poolLeft, poolUsed_of_remap hused, poolBad_of_remap hbad, poolLeft]

theorem poolUsed_usedRemap (k p : Nat) (m : Mach) : poolUsed k p (usedRemap k p m) = poolUsed k p m + 1 := by
  simp [poolUsed, usedRemap, setRemap]

/-! ### NAND blocks (R447) -/

theorem nandSubst_not {b : Nat} {m : Mach} (h : b ∈ m.nvm.remap.nandBad ∨ 1024 ≤ m.nvm.remap.nandBad.length) (code : Nat) :
    nandSubst code b m = m := by
  refine if_pos (h.imp ?_ ?_)
  · exact fun hb => List.contains_iff_mem.2 hb
  · exact fun hl => decide_eq_true hl

/-- The block joins the bad ones with its entry in the logs, and a spare is given up. -/
def nandReplaced (code b : Nat) (m : Mach) : Mach :=
  useSpare 10 0 (substDone code 10 b 0xFFFF m.nvm.remap.nandBad.length (setRemap (fun r => { r with nandBad := b :: r.nandBad }) m))

theorem nandSubst_replaces {b : Nat} {m : Mach} (hb : b ∉ m.nvm.remap.nandBad) (hl : m.nvm.remap.nandBad.length < 1024) (code : Nat) :
    nandSubst code b m = if nandOut (nandReplaced code b m) then raiseReplace HLT_REPLACE.nvm (nandReplaced code b m)
      else nandReplaced code b m := by
  refine if_neg ?_
  rintro (h | h)
  · exact hb (List.contains_iff_mem.1 h)
  · have hout : 1024 ≤ m.nvm.remap.nandBad.length := of_decide_eq_true h
    omega

theorem noted_substDone (code k phys logical spare : Nat) (m : Mach) :
    Noted (setRemap (fun r => { r with entries := ⟨k, kindDie k, phys, logical, spare⟩ :: r.entries }) m)
      (substDone code k phys logical spare m) := noted_logCode ..

/-- A replaced block: one spare fewer, and stores as they were. -/
theorem nandReplaced_leaves (code b : Nat) (m : Mach) : (nandReplaced code b m).nvm.remap.nandBad = b :: m.nvm.remap.nandBad ∧
    spareTaken 10 0 m (nandReplaced code b m) := by
  have hdone := noted_substDone code 10 b 0xFFFF m.nvm.remap.nandBad.length (setRemap (fun r => { r with nandBad := b :: r.nandBad }) m)
  have huse := noted_useSpare 10 0
    (substDone code 10 b 0xFFFF m.nvm.remap.nandBad.length (setRemap (fun r => { r with nandBad := b :: r.nandBad }) m))
  refine ⟨?_, ?_, ?_, ?_⟩
  · have hkept := congrArg Remap.nandBad huse.remap
    have hadded := congrArg Remap.nandBad hdone.remap
    exact hkept.trans hadded
  · rw [nandReplaced, poolUsed_of_remap (congrArg Remap.used huse.remap), poolUsed_usedRemap,
      poolUsed_of_remap (congrArg Remap.used hdone.remap)]
    rfl
  · exact huse.res.trans hdone.res
  · exact huse.stage.trans hdone.stage

theorem nandSubst_leaves {b : Nat} {m : Mach} (hb : b ∉ m.nvm.remap.nandBad) (hl : m.nvm.remap.nandBad.length < 1024) (code : Nat) :
    (nandSubst code b m).nvm.remap.nandBad = b :: m.nvm.remap.nandBad ∧ spareTaken 10 0 m (nandSubst code b m) ∧
      (m.nvm.remap.nandBad.length = 1023 → fon HLT_REPLACE.nvm (nandSubst code b m) = true) := by
  obtain ⟨hbad, hused, hres, hstage⟩ := nandReplaced_leaves code b m
  have hout : nandOut (nandReplaced code b m) = decide (1024 ≤ m.nvm.remap.nandBad.length + 1) := by
    rw [nandOut, hbad, List.length_cons]
  rw [nandSubst_replaces hb hl, hout]
  by_cases hlast : m.nvm.remap.nandBad.length = 1023
  · have hn := noted_raiseReplace HLT_REPLACE.nvm (nandReplaced code b m)
    rw [if_pos (decide_eq_true (by omega))]
    refine ⟨(congrArg Remap.nandBad hn.remap).trans hbad, ⟨?_, hn.res.trans hres, hn.stage.trans hstage⟩, fun _ => ?_⟩
    · exact (poolUsed_of_remap (congrArg Remap.used hn.remap) 10 0).trans hused
    · exact fon_raiseReplace rfl (by decide) (by decide) (by decide) _
  · rw [if_neg (by simp; omega)]
    exact ⟨hbad, ⟨hused, hres, hstage⟩, fun h => absurd h hlast⟩

/-! ### Correctable events (R439) -/

/-- The resource is counted: the core runs, and it is in service and not worn. -/
def Counted (r : KittyRes) (m : Mach) : Prop :=
  coreOn m = true ∧ r.pool < poolCount r.kind.val ∧ isRetired r m = false ∧ isWorn r m = false ∧
    (r.kind.val = 10 → r.phys ∉ m.nvm.remap.nandBad)

/-- The times in the window with the event's own. -/
def timesWith (r : KittyRes) (m : Mach) : List Nat :=
  tick m :: (eventTimes r m).filter fun t => decide (tick m < t + retireWindow r.kind.val m)

/-- The threshold is enabled and reached. -/
def Due (r : KittyRes) (m : Mach) : Prop :=
  fon (HLT_RETIRE.en r.kind.val) m = true ∧ fget (HLT_RETIRE.threshold r.kind.val) m ≤ (timesWith r m).length

/-- The counts with the resource's times. -/
def withTimes (r : KittyRes) (l : List Nat) (m : Mach) : Mach :=
  { m with hlt := { m.hlt with counts := (r, l) :: m.hlt.counts.filter fun e => e.1 ≠ r } }

/-- The counts without the resource's. -/
def withoutTimes (r : KittyRes) (m : Mach) : Mach :=
  { m with hlt := { m.hlt with counts := m.hlt.counts.filter fun e => e.1 ≠ r } }

theorem counted_iff (r : KittyRes) (m : Mach) : Counted r m ↔ ¬ (coreOn m = false ∨ poolCount r.kind.val ≤ r.pool ∨
    isRetired r m = true ∨ isWorn r m = true ∨ (r.kind.val = 10 ∧ m.nvm.remap.nandBad.contains r.phys = true)) := by
  simp only [Counted, not_or, not_and, List.contains_iff_mem, Bool.not_eq_true, Bool.not_eq_false, Nat.not_le]

theorem countEvent_not {r : KittyRes} {m : Mach} (h : ¬ Counted r m) : countEvent r m = m :=
  if_pos (Classical.not_not.1 (mt (counted_iff r m).2 h))

theorem countEvent_early {r : KittyRes} {m : Mach} (h : Counted r m) (hdue : ¬ Due r m) :
    countEvent r m = withTimes r (timesWith r m) m :=
  (if_neg ((counted_iff r m).1 h)).trans (if_neg hdue)

theorem countEvent_due {r : KittyRes} {m : Mach} (h : Counted r m) (hdue : Due r m) :
    countEvent r m = retire r (timesWith r m).length (withoutTimes r (withTimes r (timesWith r m) m)) :=
  (if_neg ((counted_iff r m).1 h)).trans (if_pos hdue)

theorem eventTimes_of_counts {m u : Mach} (h : u.hlt.counts = m.hlt.counts) (r : KittyRes) : eventTimes r u = eventTimes r m := by
  rw [eventTimes, h, eventTimes]

theorem eventTimes_withTimes (r : KittyRes) (l : List Nat) (m : Mach) : eventTimes r (withTimes r l m) = l := by
  simp [eventTimes, withTimes]

theorem eventTimes_withTimes_other {r q : KittyRes} (h : q ≠ r) (l : List Nat) (m : Mach) :
    eventTimes q (withTimes r l m) = eventTimes q m := by
  have hfind : (m.hlt.counts.filter fun e => e.1 ≠ r).find? (fun e => e.1 = q) = m.hlt.counts.find? fun e => e.1 = q := by
    rw [List.find?_filter]
    refine congrArg (fun f => m.hlt.counts.find? f) (funext fun e => ?_)
    by_cases he : e.1 = q
    · simp [he, h]
    · simp [he]
  simp only [eventTimes, withTimes, List.find?_cons, Ne.symm h, decide_false]
  rw [hfind]

theorem eventTimes_withoutTimes (r : KittyRes) (m : Mach) : eventTimes r (withoutTimes r m) = [] := by
  have hfind : (m.hlt.counts.filter fun e => e.1 ≠ r).find? (fun e => e.1 = r) = none := by
    rw [List.find?_filter]
    exact List.find?_eq_none.2 fun e _ => by simp
  rw [eventTimes, withoutTimes, hfind]
  rfl

/-! ### The tile's own note of the event (R319) -/

theorem noted_commitTile (t : Nat) (y : Tile) (m : Mach) : Noted (setTile t y m) (commitTile t y m) := by
  have hlogged : ∀ l : List Nat, Noted (setTile t y m)
      (each l (fun i s => logPut (stickyEntry ⟨tileEventsReg t, i, 1⟩) s) (setTile t y m)) := fun l =>
    each_inv (Noted (setTile t y m)) l _ (fun _ _ _ hs => hs.trans (noted_logPut ..)) _ (.refl _)
  unfold commitTile
  dsimp only
  split
  · exact hlogged _
  · exact (hlogged _).trans (noted_summaryRise ..)

/-- The resource is a tile of a device whose core runs. -/
def TileNotes (r : KittyRes) (m : Mach) : Prop := r.kind.val = 2 ∧ coreOn m = true ∧ r.phys < 144

theorem correctable_tile {r : KittyRes} {m : Mach} (h : TileNotes r m) : correctable r m = countEvent r (tileEv r.phys 6 m) :=
  congrArg (countEvent r) (if_pos h)

theorem correctable_other {r : KittyRes} {m : Mach} (h : ¬ TileNotes r m) : correctable r m = countEvent r m :=
  congrArg (countEvent r) (if_neg h)

/-- What the tile's note leaves for the count: its own bit apart, only the event log's registers. -/
structure TileNoted (t : Nat) (m u : Mach) : Prop where
  events : (getTile t u).events = (getTile t m).events ||| (1#32 <<< 6)
  tiles : tilesKept t m u
  regs : regsKept [HLT_LOG_WPTR, HLT_EVENTS] m u
  res : u.res = m.res
  stage : u.stage = m.stage
  nvm : u.nvm = m.nvm
  hlt : u.hlt = m.hlt
  tick : Machine.tick u = Machine.tick m
  power : u.power = m.power

theorem tileNoted_tileEv (t : Nat) (m : Mach) : TileNoted t m (tileEv t 6 m) := by
  obtain ⟨htile, hothers, hregs, hres, hstage, hnvm⟩ := tileBecomes_commitTile t ((getTile t m).ev 6) m
  have hn := noted_commitTile t ((getTile t m).ev 6) m
  exact ⟨congrArg Tile.events htile, hothers, hregs, hres, hstage, hnvm, hn.hlt, hn.tick, hn.power⟩

section
variable {t : Nat} {m u : Mach} (h : TileNoted t m u)
include h

theorem TileNoted.counted (r : KittyRes) : Counted r u ↔ Counted r m := by
  have hdev : devState u = devState m := h.regs.fget (f := GCTL_DEV_STATE.state) (by decide)
  simp only [Counted, coreOn, isRetired, isWorn, h.nvm, h.power, hdev]

theorem TileNoted.retireReg {f : Fld} {k : Nat} (hf : f.reg = HLT_RETIRE k) : fget f u = fget f m := by
  refine h.regs.fget ?_
  simp only [hf, HLT_RETIRE, HLT_LOG_WPTR, HLT_EVENTS, List.mem_cons, List.not_mem_nil, or_false, not_or]
  omega

theorem TileNoted.times (r : KittyRes) : timesWith r u = timesWith r m := by
  have hw : retireWindow r.kind.val u = retireWindow r.kind.val m := by
    rw [retireWindow, h.retireReg (f := HLT_RETIRE.window r.kind.val) rfl, retireWindow]
  rw [timesWith, h.tick, hw, eventTimes_of_counts (congrArg HltSt.counts h.hlt), timesWith]

theorem TileNoted.due (r : KittyRes) : Due r u ↔ Due r m := by
  rw [Due, h.times r, fon, h.retireReg (f := HLT_RETIRE.en r.kind.val) rfl, h.retireReg (f := HLT_RETIRE.threshold r.kind.val) rfl,
    Due, fon]

end

/-! ### Retirement by plan (R439, R440) -/

theorem retire_plan {r : KittyRes} (h : r.kind.val ∈ [2, 3, 4, 6, 7, 9]) (n : Nat) (m : Mach) : retire r n m = retirePlan r n m := by
  simp only [List.mem_cons, List.not_mem_nil, or_false] at h
  rcases h with h | h | h | h | h | h <;> simp only [retire, h]

theorem pumpPlanned_frame (m : Mach) : ∃ g c x l, pumpPlanned m =
    { m with regs := g, cal := c, hlt := { m.hlt with running := x, waiting := l } } ∧
      ∀ q ∈ m.hlt.waiting, x = some q ∨ q ∈ l := by
  unfold pumpPlanned
  split
  · next r l hrun hwait =>
    split
    · exact ⟨_, _, _, _, rfl, fun q hq => .inr hq⟩
    · have hcal : ∀ u, ∃ c, wantTrick u m = { m with cal := c } := fun u => by
        unfold wantTrick
        split
        · exact ⟨_, rfl⟩
        · exact ⟨_, rfl⟩
      have hhead : ∀ q ∈ m.hlt.waiting, some r = some q ∨ q ∈ l := fun q hq => by
        rw [hwait] at hq
        exact (List.mem_cons.1 hq).imp (fun h => congrArg some h.symm) id
      dsimp only
      split
      · obtain ⟨c, hc⟩ := hcal (.path (toPath r.pool))
        exact ⟨_, c, some r, l, by rw [hc]; rfl, hhead⟩
      · split
        · obtain ⟨c, hc⟩ := hcal (.obs (toObs r.pool))
          exact ⟨_, c, some r, l, by rw [hc]; rfl, hhead⟩
        · exact ⟨_, _, some r, l, rfl, hhead⟩
  · exact ⟨_, _, _, _, rfl, fun q hq => .inr hq⟩

theorem noted_logRetired (k phys logical n : Nat) (m : Mach) : Noted m (logRetired k phys logical n m) := noted_logCode ..

/-- With a spare left the resource is out of service, and its substitution waits or runs. -/
theorem retirePlan_spare {r : KittyRes} {m : Mach} (h : 0 < poolLeft r.kind.val r.pool m) (n : Nat) :
    isRetired r (retirePlan r n m) = true ∧ (retirePlan r n m).hlt.counts = m.hlt.counts ∧
      ((retirePlan r n m).hlt.running = some r ∨ r ∈ (retirePlan r n m).hlt.waiting) ∧ (retirePlan r n m).res = m.res ∧
      (retirePlan r n m).stage = m.stage ∧ (retirePlan r n m).tiles = m.tiles := by
  have hlog := noted_logRetired r.kind.val r.phys (resLog r) n m
  unfold retirePlan
  dsimp only
  rw [if_pos h]
  obtain ⟨_, _, x, l, hframe, hkept⟩ := pumpPlanned_frame (setRemap (fun t => { t with retired := (r.kind.val, resKey r) :: t.retired })
    { logRetired r.kind.val r.phys (resLog r) n m with
      hlt := { (logRetired r.kind.val r.phys (resLog r) n m).hlt with
        waiting := (logRetired r.kind.val r.phys (resLog r) n m).hlt.waiting ++ [r] } })
  have hcounts := congrArg HltSt.counts hlog.hlt
  rw [hframe]
  refine ⟨?_, hcounts, hkept r (List.mem_append_right _ (List.mem_singleton.2 rfl)), hlog.res, hlog.stage,
    hlog.tiles⟩
  simp [isRetired, setRemap]

theorem tiles_markWorn (k die phys logical : Nat) (m : Mach) : (markWorn k die phys logical m).tiles = m.tiles :=
  (((noted_refreshKind k (setRemap (fun r =>
      { r with worn := tabPut (fun _ => 0) r.worn k (tabGet (fun _ => 0) r.worn k + 1), wornRes := (k, phys) :: r.wornRes }) m)).trans
    (noted_setEvDie _ _ _)).trans ((noted_logCode ..).trans (noted_raiseReplace _ _))).tiles

/-- Tile `t` keeps its event bits, and every other tile stays. -/
def EventsKept (t : Nat) (m u : Mach) : Prop := tilesKept t m u ∧ (getTile t u).events = (getTile t m).events

theorem eventsKept_of_tiles {m u : Mach} (h : u.tiles = m.tiles) (t : Nat) : EventsKept t m u := by
  have hget : ∀ j, getTile j u = getTile j m := fun j => by rw [getTile, h, getTile]
  exact ⟨fun j _ => hget j, congrArg Tile.events (hget t)⟩

theorem EventsKept.trans {t : Nat} {m u v : Mach} (h : EventsKept t m u) (h' : EventsKept t u v) : EventsKept t m v :=
  ⟨fun j hj => (h'.1 j hj).trans (h.1 j hj), h'.2.trans h.2⟩

theorem eventsKept_emptyPool {r : KittyRes} (hk : r.kind.val = 2) (m : Mach) : EventsKept r.phys m (emptyPool r m) := by
  unfold emptyPool
  simp only [hk]
  split
  · have htile : getTile r.phys (bindTile (getTile r.phys m).logical r.phys none (setTile r.phys (getTile r.phys m).retired m)) =
        (getTile r.phys m).retired := getTile_setTile_same r.phys _ m
    have hevents := congrArg Tile.events htile
    exact ⟨fun j hj => getTile_setTile_other hj _ m, hevents⟩
  · exact eventsKept_of_tiles rfl _

theorem eventsKept_retirePlan {r : KittyRes} (hk : r.kind.val = 2) (n : Nat) (m : Mach) :
    EventsKept r.phys m (retirePlan r n m) := by
  by_cases h : 0 < poolLeft r.kind.val r.pool m
  · exact eventsKept_of_tiles (retirePlan_spare h n).2.2.2.2.2 _
  · have hworn := eventsKept_of_tiles ((tiles_markWorn r.kind.val (kindDie r.kind.val) r.phys (resLog r)
      (setRemap (fun t => { t with wornRes := (r.kind.val, resKey r) :: t.wornRes })
        (logRetired r.kind.val r.phys (resLog r) n m))).trans (noted_logRetired r.kind.val r.phys (resLog r) n m).tiles) r.phys
    have hempty := eventsKept_emptyPool hk (markWorn r.kind.val (kindDie r.kind.val) r.phys (resLog r)
      (setRemap (fun t => { t with wornRes := (r.kind.val, resKey r) :: t.wornRes })
        (logRetired r.kind.val r.phys (resLog r) n m)))
    unfold retirePlan
    dsimp only
    rw [if_neg h]
    exact hworn.trans hempty

theorem eventsKept_countEvent {r : KittyRes} (hk : r.kind.val = 2) (m : Mach) : EventsKept r.phys m (countEvent r m) := by
  by_cases hc : Counted r m
  · by_cases hd : Due r m
    · have hcounts : EventsKept r.phys m (withoutTimes r (withTimes r (timesWith r m) m)) := eventsKept_of_tiles rfl _
      rw [countEvent_due hc hd, retire_plan (by simp [hk])]
      exact hcounts.trans (eventsKept_retirePlan hk _ _)
    · rw [countEvent_early hc hd]
      exact eventsKept_of_tiles rfl _
  · rw [countEvent_not hc]
    exact eventsKept_of_tiles rfl _

/-! ### A spare that fails its test (R443) -/

/-- The failed spare's own mark: its slice, its tile, its engine or its bank. -/
def spareMarked (k p : Nat) (m m1 : Mach) : Mach :=
  match k with
  | 0 | 1 => let u := poolUnit k p; recordSlices u (fset (slicePos u 4) 7 m1)
  | 2 => match spareTile p m with
    | some t => setRemap (fun r => { r with retired := (2, t) :: r.retired }) m1
    | none => m1
  | 3 => fset (QUAD_PD_Q_STATUS.failed p) 1 m1
  | 6 => match spareBank m with
    | some b => setRemap (fun r => { r with banksDead := b :: r.banksDead }) m1
    | none => m1
  | _ => m1

/-- The remap table with one more failed spare. -/
def badRemap (k p : Nat) (m : Mach) : Mach :=
  setRemap (fun r => { r with bad := tabPut (fun _ => 0) r.bad (poolKey k p) (poolBad k p m + 1) }) m

theorem poolBad_badRemap (k p : Nat) (m : Mach) : poolBad k p (badRemap k p m) = poolBad k p m + 1 := by
  simp [poolBad, badRemap, setRemap]

theorem poolUsed_badRemap (k p : Nat) (m : Mach) : poolUsed k p (badRemap k p m) = poolUsed k p m := rfl

theorem badRemap_keeps (k p : Nat) (m : Mach) : (badRemap k p m).res = m.res ∧ (badRemap k p m).tiles = m.tiles ∧
    (badRemap k p m).regs = m.regs := ⟨rfl, rfl, rfl⟩

theorem spareBad_eq (k p : Nat) (m : Mach) : spareBad k p m =
    (let m3 := refreshRes (refreshKind k (spareMarked k p m (badRemap k p m)))
     if decide (poolLeft k p m3 < fget (HLT_RESERVE.reserve k) m3) then raiseReplace HLT_REPLACE.spare_low m3 else m3) := rfl

/-- What a mark of a spare leaves: pools, memories and the events of the health unit. -/
structure SpareKept (m u : Mach) : Prop where
  used : u.nvm.remap.used = m.nvm.remap.used
  bad : u.nvm.remap.bad = m.nvm.remap.bad
  res : u.res = m.res
  tiles : u.tiles = m.tiles
  failed : Sticks HLT_EVENTS.spare_test_fail m u

theorem SpareKept.refl (m : Mach) : SpareKept m m := ⟨rfl, rfl, rfl, rfl, fun h => h⟩

theorem SpareKept.trans {m u v : Mach} (h : SpareKept m u) (h' : SpareKept u v) : SpareKept m v :=
  ⟨h'.used.trans h.used, h'.bad.trans h.bad, h'.res.trans h.res, h'.tiles.trans h.tiles, Sticks.trans h.failed h'.failed⟩

theorem spareKept_of_noted {m u : Mach} (h : Noted m u) (hs : Sticks HLT_EVENTS.spare_test_fail m u) : SpareKept m u :=
  ⟨congrArg Remap.used h.remap, congrArg Remap.bad h.remap, h.res, h.tiles, hs⟩

theorem spareKept_fset {f : Fld} (h : f.reg ≠ HLT_EVENTS) (x : Nat) (m : Mach) : SpareKept m (fset f x m) :=
  spareKept_of_noted (noted_fset f x m) (sticks_of_rd (rd_fset_other (f := f) h.symm x m))

theorem rxStatus_poolUnit (k p : Nat) : QUAD_RX_STATUS (poolUnit k p) ≠ HLT_EVENTS := by
  unfold poolUnit
  split
  · simp only [QUAD_RX_STATUS, rxBase, pathBase, quadBase, toPath, HLT_EVENTS, Fin.val_ofNat]; omega
  · simp only [QUAD_RX_STATUS, rxBase, obsBase, quadBase, toObs, HLT_EVENTS, Fin.val_ofNat]; omega

theorem spareKept_spareMarked {k p : Nat} (hp : p < poolCount k) (m m1 : Mach) : SpareKept m1 (spareMarked k p m m1) := by
  have hslices : SpareKept m1 (recordSlices (poolUnit k p) (fset (slicePos (poolUnit k p) 4) 7 m1)) :=
    (spareKept_fset (f := slicePos (poolUnit k p) 4) (rxStatus_poolUnit k p) 7 m1).trans ⟨rfl, rfl, rfl, rfl, fun h => h⟩
  unfold spareMarked
  split
  · exact hslices
  · exact hslices
  · split
    · exact ⟨rfl, rfl, rfl, rfl, fun h => h⟩
    · exact .refl m1
  · have hp4 : p < 4 := hp
    exact spareKept_fset (f := QUAD_PD_Q_STATUS.failed p)
      (by simp only [QUAD_PD_Q_STATUS.failed, QUAD_PD_Q_STATUS, quadBase, HLT_EVENTS]; omega) 1 m1
  · split
    · exact ⟨rfl, rfl, rfl, rfl, fun h => h⟩
    · exact .refl m1
  · exact .refl m1

theorem spareKept_refreshKind (k : Nat) (m : Mach) : SpareKept m (refreshKind k m) := by
  have hkitty : ∀ k, HLT_KITTY k ≠ HLT_EVENTS := fun k => by simp only [HLT_KITTY, HLT_EVENTS]; omega
  unfold refreshKind
  dsimp only
  refine SpareKept.trans ?_ ((spareKept_fset (f := ⟨HLT_STATUS, 4 + k, 1⟩) (by decide : HLT_STATUS ≠ HLT_EVENTS) _ _).trans
    (spareKept_fset (f := ⟨HLT_STATUS, 16 + k, 1⟩) (by decide : HLT_STATUS ≠ HLT_EVENTS) _ _))
  split
  · exact ((spareKept_fset (f := HLT_KITTY.left k) (hkitty k) _ m).trans (spareKept_fset (f := HLT_KITTY.total k) (hkitty k) _ _)).trans
      (spareKept_fset (f := HLT_KITTY.worn k) (hkitty k) _ _)
  · exact .refl m

theorem spareKept_refreshRes (m : Mach) : SpareKept m (refreshRes m) :=
  (spareKept_fset (f := RES_STATUS.spare_banks) (by decide) _ m).trans (spareKept_fset (f := RES_STATUS.spare_rows) (by decide) _ _)

theorem spareKept_raiseReplace {f : Fld} (hw : f.w = 1) (hlo : f.lo + f.w ≤ 32) (m : Mach) : SpareKept m (raiseReplace f m) :=
  spareKept_of_noted (noted_raiseReplace f m)
    (sticks_raiseReplace (f := HLT_EVENTS.spare_test_fail) rfl (by decide) (by decide) (by decide) hw hlo m)

theorem spareKept_spareBad {k p : Nat} (hp : p < poolCount k) (m : Mach) : SpareKept (badRemap k p m) (spareBad k p m) := by
  have hshown : SpareKept (badRemap k p m) (refreshRes (refreshKind k (spareMarked k p m (badRemap k p m)))) :=
    ((spareKept_spareMarked hp m _).trans (spareKept_refreshKind k _)).trans (spareKept_refreshRes _)
  rw [spareBad_eq]
  dsimp only
  split
  · exact hshown.trans (spareKept_raiseReplace rfl (by decide) _)
  · exact hshown

/-- A spare can be tested: the test is enabled, the core runs, and its pool has one. -/
def Testable (k p : Nat) (m : Mach) : Prop :=
  coreOn m = true ∧ fon HLT_TEST_CFG.test_en m = true ∧ p < poolCount k ∧ 0 < poolLeft k p m

theorem spareTest_not {k p : Nat} {ok : Bool} {m : Mach} (h : ¬ Testable k p m ∨ ok = true) : spareTest k p ok m = m := by
  refine if_pos ?_
  rcases h with h | h
  · by_contra hc
    simp only [not_or, Bool.not_eq_false, Nat.not_le] at hc
    obtain ⟨hon, hen, hp, hl, -⟩ := hc
    exact h ⟨hon, hen, hp, Nat.pos_of_ne_zero hl⟩
  · simp [h]

/-- The test's failure, noted. -/
def testFailed (k p : Nat) (m : Mach) : Mach :=
  logCode 0x0103 (kindDie k) k 0xFFFF (if k ≤ 1 then p else 0xFFFF) [] (setEvDie (kindDie k) HLT_EVENTS.spare_test_fail m)

theorem spareTest_fails {k p : Nat} {m : Mach} (h : Testable k p m) : spareTest k p false m = spareBad k p (testFailed k p m) := by
  obtain ⟨hon, hen, hp, hl⟩ := h
  exact if_neg (by simp only [hon, hen, not_or]; exact ⟨by simp, by simp, by omega, by omega, by simp⟩)

theorem noted_testFailed (k p : Nat) (m : Mach) : Noted m (testFailed k p m) := (noted_setEvDie ..).trans (noted_logCode ..)

theorem fon_testFailed (k p : Nat) (m : Mach) : fon HLT_EVENTS.spare_test_fail (testFailed k p m) = true :=
  sticks_logCode rfl (by decide) (by decide) _ _ _ _ _ _ _ (fon_setEvDie_self rfl (by decide) (by decide) _ m)

theorem spareTest_leaves {k p : Nat} {m : Mach} (h : Testable k p m) :
    fon HLT_EVENTS.spare_test_fail (spareTest k p false m) = true ∧ poolBad k p (spareTest k p false m) = poolBad k p m + 1 ∧
      poolLeft k p (spareTest k p false m) = poolLeft k p m - 1 ∧ (spareTest k p false m).res = m.res ∧
      (spareTest k p false m).tiles = m.tiles := by
  have hn := noted_testFailed k p m
  have hbad := spareKept_spareBad h.2.2.1 (testFailed k p m)
  have hcount : poolBad k p (spareBad k p (testFailed k p m)) = poolBad k p m + 1 := by
    rw [poolBad_of_remap hbad.bad, poolBad_badRemap, poolBad_of_remap (congrArg Remap.bad hn.remap)]
  have hused : poolUsed k p (spareBad k p (testFailed k p m)) = poolUsed k p m := by
    rw [poolUsed_of_remap hbad.used, poolUsed_badRemap, poolUsed_of_remap (congrArg Remap.used hn.remap)]
  obtain ⟨hres, htiles, hregs⟩ := badRemap_keeps k p (testFailed k p m)
  have hset : fon HLT_EVENTS.spare_test_fail (badRemap k p (testFailed k p m)) = true := by
    rw [fon, fget, rd, hregs, ← rd, ← fget, ← fon]
    exact fon_testFailed k p m
  rw [spareTest_fails h]
  refine ⟨hbad.failed hset, hcount, ?_, hbad.res.trans (hres.trans hn.res), hbad.tiles.trans (htiles.trans hn.tiles)⟩
  rw [poolLeft, hcount, hused, poolLeft]
  omega

end Sys2Proof.Machine

/-! SUPPORT. The statement about health and the token (R439 to R443, R447, R455, R456), clause by clause. -/

namespace Sys2Proof.Machine

/-- A command that leaves the machine leaves the state. -/
theorem next_same {s : State} {m : Mach} (h : m = s.m) :
    (Host.Outcome.next (s.withM m) : Host.Outcome State Fault Refusal) = .next s := by rw [h]

/-- What a retirement by plan leaves, from the count of the event on. -/
theorem countEvent_planned {r : KittyRes} {m : Mach} (hc : Counted r m) (hd : Due r m) (hk : r.kind.val ∈ [2, 3, 4, 6, 7, 9])
    (hleft : 0 < poolLeft r.kind.val r.pool m) : isRetired r (countEvent r m) = true ∧ eventTimes r (countEvent r m) = [] ∧
      ((countEvent r m).hlt.running = some r ∨ r ∈ (countEvent r m).hlt.waiting) ∧ (countEvent r m).res = m.res ∧
      (countEvent r m).stage = m.stage ∧ (countEvent r m).tiles = m.tiles := by
  obtain ⟨hret, hcounts, hwaits, hres, hstage, htiles⟩ :=
    retirePlan_spare (m := withoutTimes r (withTimes r (timesWith r m) m)) hleft (timesWith r m).length
  rw [countEvent_due hc hd, retire_plan hk]
  exact ⟨hret, (eventTimes_of_counts hcounts r).trans (eventTimes_withoutTimes r _), hwaits, hres, hstage, htiles⟩

/-- R447: a NAND block whose threshold is reached is replaced. -/
theorem countEvent_nand {r : KittyRes} {m : Mach} (hc : Counted r m) (hd : Due r m) (hk : r.kind.val = 10)
    (hroom : m.nvm.remap.nandBad.length < 1024) : (countEvent r m).nvm.remap.nandBad = r.phys :: m.nvm.remap.nandBad ∧
      spareTaken 10 0 m (countEvent r m) := by
  have hretire : ∀ n u, retire r n u = if nandOut u then u else nandSubst 0x0101 r.phys (logRetired 10 r.phys 0xFFFF n u) :=
    fun n u => by simp only [retire, hk]
  have hlog := noted_logRetired 10 r.phys 0xFFFF (timesWith r m).length (withoutTimes r (withTimes r (timesWith r m) m))
  have hbad := congrArg Remap.nandBad hlog.remap
  have hused := poolUsed_of_remap (congrArg Remap.used hlog.remap) 10 0
  obtain ⟨hadded, ⟨hone, hres, hstage⟩, -⟩ := nandSubst_leaves
    (m := logRetired 10 r.phys 0xFFFF (timesWith r m).length (withoutTimes r (withTimes r (timesWith r m) m)))
    (b := r.phys) (by rw [hbad]; exact hc.2.2.2.2 hk) (by rw [hbad]; exact hroom) 0x0101
  have hin : nandOut (withoutTimes r (withTimes r (timesWith r m) m)) = false := decide_eq_false (by
    change ¬ 1024 ≤ m.nvm.remap.nandBad.length
    omega)
  rw [countEvent_due hc hd, hretire, hin, if_neg (by decide)]
  refine ⟨hadded.trans (congrArg (r.phys :: ·) hbad), hone.trans (congrArg (· + 1) hused), ?_, ?_⟩
  · exact hres.trans hlog.res
  · exact hstage.trans hlog.stage

/-- R319: after the event of a tile its ecc_corr reads 1, and no other tile differs. -/
theorem correctable_notesTile {r : KittyRes} {m : Mach} (h : TileNotes r m) :
    (getTile r.phys (correctable r m)).events.getLsbD 6 = true ∧ tilesKept r.phys m (correctable r m) := by
  have hn := tileNoted_tileEv r.phys m
  obtain ⟨hkept, hevents⟩ := eventsKept_countEvent h.1 (tileEv r.phys 6 m)
  rw [correctable_tile h]
  refine ⟨?_, fun j hj => (hkept j hj).trans (hn.tiles j hj)⟩
  rw [hevents, hn.events]
  simp

/-- An event that is counted and reaches no threshold. -/
theorem correctable_early {r : KittyRes} {m : Mach} (hc : Counted r m) (hd : ¬ Due r m) :
    eventTimes r (correctable r m) = timesWith r m ∧ (∀ q, q ≠ r → eventTimes q (correctable r m) = eventTimes q m) ∧
      (¬ TileNotes r m → (correctable r m).regs = m.regs ∧ storesKept m (correctable r m)) := by
  by_cases ht : TileNotes r m
  · have hn := tileNoted_tileEv r.phys m
    rw [correctable_tile ht, countEvent_early ((hn.counted r).2 hc) (mt (hn.due r).1 hd), hn.times r]
    refine ⟨eventTimes_withTimes .., fun q hq => ?_, fun h => absurd ht h⟩
    rw [eventTimes_withTimes_other hq, eventTimes_of_counts (congrArg HltSt.counts hn.hlt)]
  · rw [correctable_other ht, countEvent_early hc hd]
    exact ⟨eventTimes_withTimes .., fun q hq => eventTimes_withTimes_other hq _ m, fun _ => ⟨rfl, .refl m⟩⟩

/-- An event that reaches its threshold, of a resource that a planned substitution replaces. -/
theorem correctable_planned {r : KittyRes} {m : Mach} (hc : Counted r m) (hd : Due r m) (hk : r.kind.val ∈ [2, 3, 4, 6, 7, 9])
    (hleft : 0 < poolLeft r.kind.val r.pool m) : isRetired r (correctable r m) = true ∧ eventTimes r (correctable r m) = [] ∧
      ((correctable r m).hlt.running = some r ∨ r ∈ (correctable r m).hlt.waiting) ∧ (correctable r m).res = m.res ∧
      tilesKept r.phys m (correctable r m) ∧ (¬ TileNotes r m → (correctable r m).tiles = m.tiles) ∧
      (correctable r m).stage = m.stage := by
  by_cases ht : TileNotes r m
  · have hn := tileNoted_tileEv r.phys m
    have hleft' : 0 < poolLeft r.kind.val r.pool (tileEv r.phys 6 m) := by
      rw [poolLeft_of_remap (m := m) (by rw [hn.nvm]) (by rw [hn.nvm])]
      exact hleft
    obtain ⟨hret, htimes, hwaits, hres, hstage, -⟩ := countEvent_planned ((hn.counted r).2 hc) ((hn.due r).2 hd) hk hleft'
    have hkept := (correctable_notesTile ht).2
    rw [correctable_tile ht] at hkept ⊢
    exact ⟨hret, htimes, hwaits, hres.trans hn.res, hkept, fun h => absurd ht h, hstage.trans hn.stage⟩
  · obtain ⟨hret, htimes, hwaits, hres, hstage, htiles⟩ := countEvent_planned hc hd hk hleft
    rw [correctable_other ht]
    exact ⟨hret, htimes, hwaits, hres, fun j _ => (by rw [getTile, htiles, getTile]), fun _ => htiles, hstage⟩

theorem correctable_nand {r : KittyRes} {m : Mach} (hc : Counted r m) (hd : Due r m) (hk : r.kind.val = 10)
    (hroom : m.nvm.remap.nandBad.length < 1024) : (correctable r m).nvm.remap.nandBad = r.phys :: m.nvm.remap.nandBad ∧
      spareTaken 10 0 m (correctable r m) := by
  rw [correctable_other fun ht => absurd (ht.1.symm.trans hk) (by decide)]
  exact countEvent_nand hc hd hk hroom

/-! ### The token's clauses -/

theorem tokenCheck_idle {m : Mach} (h : m.twin.driving = false) (b : Bool) : tokenCheck b m =
    setEvIf (b && m.twin.taking && m.twin.takeover.isSome) HLT_TWIN_EVENTS.split_blocked (fsetB HLT_TWIN_STATUS.tok_in b m) := by
  rw [tokenCheck, if_pos h]

/-- TWIN_TOK_I high at the check. -/
theorem tokenCheck_high_leaves {m : Mach} (h : m.twin.driving = true) : ∃ u, tokenCheck true m = u ∧ u.tokOut = false ∧
    u.twin.driving = false ∧ u.twin.backoff = true ∧ hasToken u = hasToken m ∧ fon HLT_TWIN_STATUS.tok_in u = true ∧ storesKept m u ∧
    (m.twin.takeover ≠ none → fon HLT_TWIN_EVENTS.split_blocked u = true) := by
  have hstores := storesKept_setEvIf m.twin.takeover.isSome HLT_TWIN_EVENTS.split_blocked (backedOff m)
  obtain ⟨_, _, _, _, _, _, _, hframe⟩ := setEvIf_frame m.twin.takeover.isSome HLT_TWIN_EVENTS.split_blocked (backedOff m)
  refine ⟨_, tokenCheck_high h, ?_, ?_, ?_, ?_, ?_, hstores, fun htake => ?_⟩
  · rw [hframe]; rfl
  · rw [hframe]; rfl
  · rw [hframe]; rfl
  · exact (hasToken_setEvIf (by decide) _ _).trans (hasToken_backedOff m)
  · exact ((regsKept_setEvIf _ HLT_TWIN_EVENTS.split_blocked _).fon (f := HLT_TWIN_STATUS.tok_in) (by decide)).trans (tokIn_backedOff m)
  · rw [fon_setEvIf _ rfl (by decide) (by decide) (by decide), Option.isSome_iff_ne_none.2 htake]
    rfl

/-- TWIN_TOK_I low at the check: the device holds the token. -/
theorem tokenCheck_low_leaves {m : Mach} (h : m.twin.driving = true) : ∃ u, tokenCheck false m = u ∧ u.tokOut = true ∧
    u.twinSel = true ∧ u.twin.driving = false ∧ u.twin.taking = false ∧ hasToken u = true ∧ fon HLT_TWIN_STATUS.tok_wait u = false ∧
    storesKept m u ∧ (m.twin.takeover ≠ none → fget HLT_TWIN_STATUS.phase u = 2) := by
  have hseq := sequenced_delivered 13 (tokenGot m)
  obtain ⟨_, hframe⟩ := tokenGot_frame m
  refine ⟨_, tokenCheck_low h, ?_, ?_, ?_, ?_, ?_, ?_, ?_, fun htake => ?_⟩
  · rw [hseq.tokOut, hframe]
  · rw [hseq.twinSel, hframe]
  · rw [hseq.twin, hframe]
  · rw [hseq.twin, hframe]
  · rw [hasToken, fon, fget_delivered rfl, ← fon, ← hasToken]
    exact hasToken_tokenGot m
  · rw [fon, fget_delivered rfl, ← fon]
    exact tokWait_tokenGot m
  · refine storesKept.trans (m' := tokenGot m) ?_ hseq.stores
    rw [hframe]
    exact .refl m
  · rw [fget_delivered rfl]
    exact phase_tokenGot htake

/-- Settles O57. -/
theorem healthRetiresAndTokensPass : Obligations.HealthRetiresAndTokensPass := by
  intro s
  refine ⟨fun b => ⟨fun h => ?blockKept, fun hb hl => ?blockFails⟩,
    fun r => ⟨fun hc ht => ?uncounted, fun ht => ?tile, fun hc hd => ?early, fun hc hd hk hl => ?planned, fun hc hd hk hl => ?nand⟩,
    fun h l => ?scrubOff, fun h => ⟨?scrubNone, fun b => ?scrubOne⟩,
    fun k p => ⟨fun ok h => ?untested, fun h => ?failed⟩, ⟨fun h => ?mayNot, fun h => ?takes⟩, fun h b => ?checkIdle,
    fun h => ⟨?checkHigh, ?checkLow⟩, rfl, fun h => ?conflictNone, fun h => ?conflict⟩
  case blockKept => exact next_same (nandSubst_not h 0x0102)
  case blockFails =>
    obtain ⟨hbad, hspare, hout⟩ := nandSubst_leaves hb hl 0x0102
    exact ⟨_, rfl, hbad, hspare, hout⟩
  case uncounted => exact next_same ((correctable_other ht).trans (countEvent_not hc))
  case tile => exact ⟨_, rfl, correctable_notesTile ht⟩
  case early => exact ⟨_, rfl, correctable_early hc hd⟩
  case planned => exact ⟨_, rfl, correctable_planned hc hd hk hl⟩
  case nand => exact ⟨_, rfl, correctable_nand hc hd hk hl⟩
  case scrubOff => exact next_same (if_neg (by rw [h]; decide))
  case scrubNone => exact next_same (if_pos h)
  case scrubOne => exact congrArg (fun m => Host.Outcome.next (s.withM m)) (if_pos h)
  case untested => exact next_same (spareTest_not h)
  case failed => exact ⟨_, rfl, spareTest_leaves h⟩
  case mayNot => exact next_same (tokenTake_not h)
  case takes =>
    refine ⟨_, rfl, ?_, ?_, ?_, tokIn_tokenTake h, hasToken_tokenTake h, regsKept_tokenTake h, ?_⟩
    · rw [tokenTake_may h]; rfl
    · rw [tokenTake_may h]; rfl
    · rw [tokenTake_may h]; rfl
    · rw [tokenTake_may h]; exact .refl s.m
  case checkIdle => exact congrArg (fun m => Host.Outcome.next (s.withM m)) (tokenCheck_idle h b)
  case checkHigh =>
    obtain ⟨u, rfl, hu⟩ := tokenCheck_high_leaves h
    exact ⟨_, rfl, hu⟩
  case checkLow =>
    obtain ⟨u, rfl, hu⟩ := tokenCheck_low_leaves h
    exact ⟨_, rfl, hu⟩
  case conflictNone => exact congrArg (fun m => Host.Outcome.next (s.withM m)) (if_neg (by rw [h]; decide))
  case conflict =>
    obtain ⟨u, rfl, hu⟩ := tokenConflict_held h
    exact ⟨_, rfl, hu⟩

end Sys2Proof.Machine

/-! SUPPORT. The link's ports: what a change of one port's state leaves of the others and of the device (R364 to R366, R370). -/

namespace Sys2Proof.Machine

/-! ### The bond as the bits of EPL_STATUS -/

theorem bonded_eq {j : Nat} (h : j < 4) (m : Mach) : bonded j m = (rd EPL_STATUS m).getLsbD j := by
  rw [bonded, fget, wfld, BitVec.testBit_toNat, BitVec.getLsbD_extractLsb']
  simp [EPL_STATUS.bonded, h]

theorem bonded_of_rd {m u : Mach} (h : rd EPL_STATUS u = rd EPL_STATUS m) (j : Nat) : bonded j u = bonded j m := by
  rw [bonded, fget_of_rd (f := EPL_STATUS.bonded) h, bonded]

/-- One port's bit of the bond is replaced. -/
theorem bonded_fsetB {i j : Nat} (hi : i < 4) (hj : j < 4) (b : Bool) (m : Mach) :
    bonded j (fsetB ⟨EPL_STATUS, i, 1⟩ b m) = if j = i then b else bonded j m := by
  have hrd : rd EPL_STATUS (fsetB ⟨EPL_STATUS, i, 1⟩ b m) = wset (rd EPL_STATUS m) i 1 (if b then 1 else 0) :=
    rd_fset_same ⟨EPL_STATUS, i, 1⟩ _ m
  rw [bonded_eq hj, hrd, getLsbD_wset _ _ _ _ _ (by omega), bonded_eq hj]
  by_cases heq : j = i
  · subst heq
    rw [if_pos ⟨Nat.le_refl j, Nat.lt_succ_self j⟩, if_pos rfl, Nat.sub_self]
    cases b <;> rfl
  · rw [if_neg (by omega), if_neg heq]

/-! ### What a port's change touches -/

/-- The registers of the link that a change of any port can touch. -/
def bondRegs : List Nat := EPL_STATUS :: EPL_EVENTS :: HLT_LOG_WPTR :: HLT_EVENTS :: ports4.map EPL_SESS_CFG

/-- A change of port `i`: the stores, the power state, the other ports' registers and bits are as they were. -/
structure PortMoved (i : Nat) (m u : Mach) : Prop where
  stores : storesKept m u
  power : u.power = m.power
  regs : regsKept (EPL_PORT_STATUS i :: bondRegs) m u
  bonds : ∀ j < 4, j ≠ i → bonded j u = bonded j m

theorem PortMoved.refl (i : Nat) (m : Mach) : PortMoved i m m := ⟨.refl m, rfl, .refl _ m, fun _ _ _ => rfl⟩

theorem PortMoved.trans {i : Nat} {m u v : Mach} (h : PortMoved i m u) (h' : PortMoved i u v) : PortMoved i m v :=
  ⟨h.stores.trans h'.stores, h'.power.trans h.power, h.regs.trans h'.regs, fun j hj hne => (h'.bonds j hj hne).trans (h.bonds j hj hne)⟩

/-- An operation that touches registers of the list other than EPL_STATUS. -/
theorem portMoved_of_kept {i : Nat} {l : List Nat} {m u : Mach} (hstores : storesKept m u) (hpower : u.power = m.power)
    (hregs : regsKept l m u) (hl : l ⊆ EPL_PORT_STATUS i :: bondRegs) (hstatus : EPL_STATUS ∉ l) : PortMoved i m u :=
  ⟨hstores, hpower, hregs.mono hl, fun j _ _ => bonded_of_rd (hregs EPL_STATUS hstatus) j⟩

theorem portStatus_ne_status (i : Nat) : EPL_PORT_STATUS i ≠ EPL_STATUS := by simp only [EPL_PORT_STATUS, EPL_STATUS]; omega

theorem portMoved_fsetStatus {i : Nat} {f : Fld} (hf : f.reg = EPL_PORT_STATUS i) (x : Nat) (m : Mach) :
    PortMoved i m (fset f x m) := by
  refine portMoved_of_kept ⟨rfl, rfl, rfl, rfl⟩ rfl (regsKept_fset f x m) ?_ ?_
  · rw [hf]; simp
  · rw [hf, List.mem_singleton]; exact (portStatus_ne_status i).symm

theorem regsKept_refreshSessions (m : Mach) : regsKept (ports4.map EPL_SESS_CFG) m (refreshSessions m) := by
  refine regsKept_each (fun s hs u => ?_) m
  unfold refreshSess
  dsimp only
  split
  · exact .refl _ u
  · split
    · exact (regsKept_fset (EPL_SESS_CFG.port s) _ u).mono fun a ha => by
        rw [List.mem_singleton.1 ha]
        exact List.mem_map_of_mem hs
    · exact .refl _ u

theorem sessCfgs_subset (i : Nat) : ports4.map EPL_SESS_CFG ⊆ EPL_PORT_STATUS i :: bondRegs := fun a ha => by
  simp only [bondRegs, List.mem_cons]
  exact .inr (.inr (.inr (.inr (.inr ha))))

theorem portMoved_refreshSessions (i : Nat) (m : Mach) : PortMoved i m (refreshSessions m) :=
  portMoved_of_kept (setupKept_refreshSessions m).stores (setupKept_refreshSessions m).power (regsKept_refreshSessions m)
    (sessCfgs_subset i) (by decide)

theorem portMoved_setBonded {i : Nat} (hi : i < 4) (b : Bool) (m : Mach) : PortMoved i m (setBonded i b m) := by
  have hbit : PortMoved i (fsetB (EPL_PORT_STATUS.bonded i) b m)
      (fsetB ⟨EPL_STATUS, i, 1⟩ b (fsetB (EPL_PORT_STATUS.bonded i) b m)) := by
    refine ⟨⟨rfl, rfl, rfl, rfl⟩, rfl, (regsKept_fsetB ⟨EPL_STATUS, i, 1⟩ b _).mono ?_, fun j hj hne => ?_⟩
    · simp [bondRegs]
    · rw [bonded_fsetB hi hj, if_neg hne]
  exact ((portMoved_fsetStatus rfl _ m).trans hbit).trans (portMoved_refreshSessions i _)

theorem bonded_setBonded {i : Nat} (hi : i < 4) (b : Bool) (m : Mach) : bonded i (setBonded i b m) = b := by
  have hkept := regsKept_refreshSessions (fsetB ⟨EPL_STATUS, i, 1⟩ b (fsetB (EPL_PORT_STATUS.bonded i) b m)) EPL_STATUS (by decide)
  rw [setBonded, bonded_of_rd hkept, bonded_fsetB hi hi, if_pos rfl]

theorem portStatus_ne_sessCfg {i : Nat} (hi : i < 4) : EPL_PORT_STATUS i ∉ ports4.map EPL_SESS_CFG := by
  simp only [EPL_PORT_STATUS, ports4, EPL_SESS_CFG, List.map_cons, List.map_nil, List.mem_cons, List.not_mem_nil, or_false]
  omega

theorem portState_setBonded {i : Nat} (hi : i < 4) (b : Bool) (m : Mach) : portState i (setBonded i b m) = portState i m := by
  rw [portState, setBonded, (regsKept_refreshSessions _).fget (portStatus_ne_sessCfg hi), fsetB,
    fget_fset_other_reg (portStatus_ne_status i), fsetB]
  exact fget_fset_other (f := EPL_PORT_STATUS.bonded i) (by decide : 2 + 1 ≤ 32) (.inr (.inr (by decide : 0 + 2 ≤ 2))) _ m

theorem sendPortState_frame (m : Mach) : ∃ x o, sendPortState m = { m with sess := x, out := o } := by
  unfold sendPortState
  split
  · refine each_inv (fun u => ∃ x o, u = { m with sess := x, out := o }) _ _ ?_ m ⟨_, _, rfl⟩
    rintro k - u ⟨x, o, rfl⟩
    exact ⟨_, _, rfl⟩
  · exact ⟨_, _, rfl⟩

@[simp] theorem rd_sendPortState (a : Nat) (m : Mach) : rd a (sendPortState m) = rd a m := by
  obtain ⟨_, _, h⟩ := sendPortState_frame m
  rw [h]; rfl

/-- The report of a change: port_chg and PORT_STATE (R364). -/
def portReported (m : Mach) : Mach := sendPortState (setEv EPL_EVENTS.port_chg m)

theorem rd_portReported {a : Nat} (h : a ∉ [EPL_EVENTS, HLT_LOG_WPTR, HLT_EVENTS]) (m : Mach) : rd a (portReported m) = rd a m :=
  (rd_sendPortState a _).trans (regsKept_setEv EPL_EVENTS.port_chg m a h)

theorem portMoved_portReported (i : Nat) (m : Mach) : PortMoved i m (portReported m) := by
  have hkept := (setupKept_setEv (f := EPL_EVENTS.port_chg) (by decide) m).trans (setupKept_sendPortState _)
  refine portMoved_of_kept hkept.stores hkept.power (fun a ha => rd_portReported ha m) ?_ (by decide)
  simp [bondRegs]

theorem portChg_portReported (m : Mach) : fon EPL_EVENTS.port_chg (portReported m) = true := by
  have hset := fon_setEv (f := EPL_EVENTS.port_chg) rfl (by decide) (by decide) (by decide) m
  rw [fon, portReported, fget_of_rd (rd_sendPortState ..)]
  exact hset

/-! ### A port's new state -/

/-- Port `i` after its change: its state, and its place in the bond. -/
def portPlaced (i st : Nat) (m : Mach) : Mach :=
  if st = 2 then fset (EPL_PORT_STATUS.state i) st m else setBonded i false (fset (EPL_PORT_STATUS.state i) st m)

theorem setPort_same {i st : Nat} {m : Mach} (h : portState i m = st) : setPort i st m = m := if_pos h

theorem setPort_moves {i st : Nat} {m : Mach} (h : portState i m ≠ st) : setPort i st m = portReported (portPlaced i st m) := if_neg h

theorem portMoved_portPlaced {i : Nat} (hi : i < 4) (st : Nat) (m : Mach) : PortMoved i m (portPlaced i st m) := by
  have hstate : PortMoved i m (fset (EPL_PORT_STATUS.state i) st m) := portMoved_fsetStatus rfl st m
  unfold portPlaced
  split
  · exact hstate
  · exact hstate.trans (portMoved_setBonded hi false _)

theorem portState_portPlaced {i st : Nat} (hi : i < 4) (hst : st < 4) (m : Mach) : portState i (portPlaced i st m) = st := by
  have hstate : portState i (fset (EPL_PORT_STATUS.state i) st m) = st :=
    (fget_fset_same (f := EPL_PORT_STATUS.state i) (by decide : 0 + 2 ≤ 32) st m).trans (Nat.mod_eq_of_lt hst)
  unfold portPlaced
  split
  · exact hstate
  · rw [portState_setBonded hi, hstate]

theorem bonded_portPlaced {i : Nat} (hi : i < 4) (st : Nat) (m : Mach) :
    bonded i (portPlaced i st m) = if st = 2 then bonded i m else false := by
  unfold portPlaced
  split
  · exact bonded_of_rd (rd_fset_other (f := EPL_PORT_STATUS.state i) (portStatus_ne_status i).symm st m) i
  · exact bonded_setBonded hi false _

theorem portStatus_ne_report {i : Nat} (hi : i < 4) : EPL_PORT_STATUS i ∉ [EPL_EVENTS, HLT_LOG_WPTR, HLT_EVENTS] := by
  simp only [EPL_PORT_STATUS, EPL_EVENTS, HLT_LOG_WPTR, HLT_EVENTS, List.mem_cons, List.not_mem_nil, or_false]
  omega

theorem portState_portReported {i : Nat} (hi : i < 4) (m : Mach) : portState i (portReported m) = portState i m :=
  fget_of_rd (rd_portReported (portStatus_ne_report hi) m)

theorem bonded_portReported (i : Nat) (m : Mach) : bonded i (portReported m) = bonded i m :=
  bonded_of_rd (rd_portReported (by decide) m) i

theorem portMoved_setPort {i : Nat} (hi : i < 4) (st : Nat) (m : Mach) : PortMoved i m (setPort i st m) := by
  by_cases h : portState i m = st
  · rw [setPort_same h]
    exact .refl i m
  · rw [setPort_moves h]
    exact (portMoved_portPlaced hi st m).trans (portMoved_portReported i _)

theorem portState_setPort {i st : Nat} (hi : i < 4) (hst : st < 4) (m : Mach) : portState i (setPort i st m) = st := by
  by_cases h : portState i m = st
  · rw [setPort_same h, h]
  · rw [setPort_moves h, portState_portReported hi, portState_portPlaced hi hst]

/-- A change of state is reported, and only an UP port stays bonded. -/
theorem setPort_reports {i st : Nat} (hi : i < 4) {m : Mach} (h : portState i m ≠ st) :
    fon EPL_EVENTS.port_chg (setPort i st m) = true ∧ bonded i (setPort i st m) = if st = 2 then bonded i m else false := by
  rw [setPort_moves h]
  exact ⟨portChg_portReported _, (bonded_portReported i _).trans (bonded_portPlaced hi st m)⟩

/-! ### What the others keep -/

/-- The registers that a change of port `i` leaves. -/
theorem offPort {i a : Nat} (hi : i < 4) (ha : a < 0xB00000 ∨ (0xB0000C ≤ a ∧ a < 0xB00088 ∧ a ≠ EPL_PORT_STATUS i)) :
    a ∉ EPL_PORT_STATUS i :: bondRegs := by
  simp only [bondRegs, EPL_PORT_STATUS, EPL_STATUS, EPL_EVENTS, HLT_LOG_WPTR, HLT_EVENTS, ports4, EPL_SESS_CFG, List.map_cons,
    List.map_nil, List.mem_cons, List.not_mem_nil, or_false] at ha ⊢
  omega

theorem portCtrl_off {i : Nat} (hi : i < 4) (j : Nat) (hj : j < 4) : EPL_PORT_CTRL j ∉ EPL_PORT_STATUS i :: bondRegs :=
  offPort hi (.inr ⟨by unfold EPL_PORT_CTRL; omega, by unfold EPL_PORT_CTRL; omega, by unfold EPL_PORT_CTRL EPL_PORT_STATUS; omega⟩)

theorem fecUcw_off {i : Nat} (hi : i < 4) : EPL_FEC_UCW i ∉ EPL_PORT_STATUS i :: bondRegs :=
  offPort hi (.inr ⟨by unfold EPL_FEC_UCW; omega, by unfold EPL_FEC_UCW; omega, by unfold EPL_FEC_UCW EPL_PORT_STATUS; omega⟩)

theorem PortMoved.portState {i : Nat} {m u : Mach} (h : PortMoved i m u) (hi : i < 4) {j : Nat} (hj : j < 4) (hne : j ≠ i) :
    Machine.portState j u = Machine.portState j m :=
  h.regs.fget (f := EPL_PORT_STATUS.state j)
    (offPort hi (.inr ⟨by unfold EPL_PORT_STATUS.state EPL_PORT_STATUS; dsimp only; omega,
      by unfold EPL_PORT_STATUS.state EPL_PORT_STATUS; dsimp only; omega,
      by unfold EPL_PORT_STATUS.state EPL_PORT_STATUS; dsimp only; omega⟩))

/-- The other ports are in the state and the bond they were in. -/
theorem PortMoved.others {i : Nat} {m u : Mach} (h : PortMoved i m u) (hi : i < 4) :
    ∀ j < 4, j ≠ i → Machine.portState j u = Machine.portState j m ∧ bonded j u = bonded j m :=
  fun j hj hne => ⟨h.portState hi hj hne, h.bonds j hj hne⟩

/-- A port that may train: enabled, with its macros, no loopback point set, the firmware running (R364 to R366). -/
def MayTrain (i : Nat) (m : Mach) : Prop :=
  portDead i m = false ∧ fwRuns m = true ∧ fon (EPL_PORT_CTRL.en i) m = true ∧ fget (EPL_PORT_CTRL.loop i) m = 0

theorem trainPort_may {i : Nat} {m : Mach} (h : MayTrain i m) : trainPort i m = setPort i 1 m := by
  obtain ⟨hdead, hfw, hen, hloop⟩ := h
  simp [trainPort, hdead, hfw, hen, hloop]

theorem trainPort_dead {i : Nat} {m : Mach} (h : portDead i m = true) : trainPort i m = setPort i 3 m := by
  simp [trainPort, h]

/-- A port is trained anew in one of three states: training, DOWN or FAILED. -/
theorem trainPort_cases (i : Nat) (m : Mach) : ∃ st, (st = 0 ∨ st = 1 ∨ st = 3) ∧ trainPort i m = setPort i st m := by
  unfold trainPort
  split
  · exact ⟨3, .inr (.inr rfl), rfl⟩
  · split
    · exact ⟨1, .inr (.inl rfl), rfl⟩
    · exact ⟨0, .inl rfl, rfl⟩

theorem mayTrain_congr {i : Nat} {m u : Mach} (hnvm : u.nvm = m.nvm) (hpower : u.power = m.power)
    (hdev : rd GCTL_DEV_STATE u = rd GCTL_DEV_STATE m) (hctrl : rd (EPL_PORT_CTRL i) u = rd (EPL_PORT_CTRL i) m) :
    MayTrain i u ↔ MayTrain i m := by
  have hstate : devState u = devState m := fget_of_rd (f := GCTL_DEV_STATE.state) hdev
  simp only [MayTrain, portDead, fwRuns, fon, hnvm, hpower, hstate, fget_of_rd (f := EPL_PORT_CTRL.en i) hctrl,
    fget_of_rd (f := EPL_PORT_CTRL.loop i) hctrl]

theorem portMoved_trainPort {i : Nat} (hi : i < 4) (m : Mach) : PortMoved i m (trainPort i m) := by
  obtain ⟨st, -, h⟩ := trainPort_cases i m
  rw [h]
  exact portMoved_setPort hi st m

end Sys2Proof.Machine

/-! SUPPORT. The statement about the link's ports, its reference loop, received frames, delay answers, PTP, pulses and EVENT, clause by
clause (R363 to R367, R381, R389, R390, R392, R507). -/

namespace Sys2Proof.Machine

/-! ### One port -/

theorem portTrained_trains {i : Nat} (hi : i < 4) {m : Mach} (h : portState i m = 1) : storesKept m (portTrained i m) ∧
    portState i (portTrained i m) = 2 ∧ bonded i (portTrained i m) = bonded i m ∧ fon EPL_EVENTS.port_chg (portTrained i m) = true ∧
    ∀ j < 4, j ≠ i → portState j (portTrained i m) = portState j m ∧ bonded j (portTrained i m) = bonded j m := by
  have hmoved := portMoved_setPort hi 2 m
  obtain ⟨hchg, hbond⟩ := setPort_reports hi (st := 2) (m := m) (by rw [h]; decide)
  rw [portTrained, if_pos h]
  exact ⟨hmoved.stores, portState_setPort hi (by decide) m, hbond, hchg, hmoved.others hi⟩

theorem portTimeout_fails {i : Nat} (hi : i < 4) {m : Mach} (h : portState i m = 1) : storesKept m (portTimeout i m) ∧
    portState i (portTimeout i m) = 3 ∧ bonded i (portTimeout i m) = false ∧ fon EPL_EVENTS.port_chg (portTimeout i m) = true ∧
    ∀ j < 4, j ≠ i → portState j (portTimeout i m) = portState j m ∧ bonded j (portTimeout i m) = bonded j m := by
  have hmoved := portMoved_setPort hi 3 m
  obtain ⟨hchg, hbond⟩ := setPort_reports hi (st := 3) (m := m) (by rw [h]; decide)
  rw [portTimeout, if_pos h]
  exact ⟨hmoved.stores, portState_setPort hi (by decide) m, hbond, hchg, hmoved.others hi⟩

theorem portJoin_joins {i : Nat} (hi : i < 4) {m : Mach} (h : portState i m = 2) (hb : bonded i m = false)
    (ha : atBoundary m = true) : storesKept m (portJoin i m) ∧ portState i (portJoin i m) = 2 ∧ bonded i (portJoin i m) = true ∧
    fon EPL_EVENTS.port_chg (portJoin i m) = true ∧
    ∀ j < 4, j ≠ i → portState j (portJoin i m) = portState j m ∧ bonded j (portJoin i m) = bonded j m := by
  have hjoin : portJoin i m = portReported (setBonded i true m) := if_pos ⟨h, hb, ha⟩
  have hmoved := (portMoved_setBonded hi true m).trans (portMoved_portReported i _)
  rw [hjoin]
  refine ⟨hmoved.stores, ?_, ?_, portChg_portReported _, hmoved.others hi⟩
  · rw [portState_portReported hi, portState_setBonded hi, h]
  · rw [bonded_portReported, bonded_setBonded hi]

theorem portJoin_not {i : Nat} {m : Mach} (h : portState i m ≠ 2 ∨ bonded i m = true ∨ atBoundary m = false) : portJoin i m = m := by
  refine if_neg fun hc => ?_
  obtain ⟨hst, hb, ha⟩ := hc
  rcases h with h | h | h
  · exact h hst
  · simp [h] at hb
  · simp [h] at ha

/-- The device with the lost codewords counted (R364). -/
def ucwCounted (i n : Nat) (m : Mach) : Mach := cnt (EPL_FEC_UCW i) n 0xFFFFFFFF m

theorem rd_ucwCounted {i a : Nat} (h : a ≠ EPL_FEC_UCW i) (n : Nat) (m : Mach) : rd a (ucwCounted i n m) = rd a m := rd_wr_other h _ m

theorem fecUcw_ne {i : Nat} (hi : i < 4) : GCTL_DEV_STATE ≠ EPL_FEC_UCW i ∧ EPL_STATUS ≠ EPL_FEC_UCW i ∧
    (∀ j < 4, EPL_PORT_CTRL j ≠ EPL_FEC_UCW i) ∧ ∀ j < 4, EPL_PORT_STATUS j ≠ EPL_FEC_UCW i := by
  unfold EPL_FEC_UCW EPL_PORT_CTRL EPL_PORT_STATUS EPL_STATUS GCTL_DEV_STATE
  exact ⟨by omega, by omega, fun j _ => by omega, fun j _ => by omega⟩

theorem mayTrain_ucwCounted {i : Nat} (hi : i < 4) (n : Nat) (m : Mach) : MayTrain i (ucwCounted i n m) ↔ MayTrain i m := by
  obtain ⟨hdev, -, hctrl, -⟩ := fecUcw_ne hi
  exact mayTrain_congr rfl rfl (rd_ucwCounted hdev n m) (rd_ucwCounted (hctrl i hi) n m)

theorem portState_ucwCounted {i j : Nat} (hi : i < 4) (hj : j < 4) (n : Nat) (m : Mach) :
    portState j (ucwCounted i n m) = portState j m :=
  fget_of_rd (rd_ucwCounted ((fecUcw_ne hi).2.2.2 j hj) n m)

theorem bonded_ucwCounted {i : Nat} (hi : i < 4) (j n : Nat) (m : Mach) : bonded j (ucwCounted i n m) = bonded j m :=
  bonded_of_rd (rd_ucwCounted (fecUcw_ne hi).2.1 n m) j

/-- R364: a port that loses its link leaves the bond and trains again, or fails with its macros. -/
theorem portLoss_leaves {i : Nat} (hi : i < 4) {m : Mach} (h : portState i m = 2) (n : Nat) : storesKept m (portLoss i n m) ∧
    portState i (portLoss i n m) ≠ 2 ∧ bonded i (portLoss i n m) = false ∧ fon EPL_EVENTS.port_chg (portLoss i n m) = true ∧
    (rd (EPL_FEC_UCW i) (portLoss i n m)).toNat = min 0xFFFFFFFF ((rd (EPL_FEC_UCW i) m).toNat + n) ∧
    (∀ j < 4, j ≠ i → portState j (portLoss i n m) = portState j m ∧ bonded j (portLoss i n m) = bonded j m) ∧
    (MayTrain i m → portState i (portLoss i n m) = 1) ∧ (portDead i m = true → portState i (portLoss i n m) = 3) := by
  have hstate : portState i (ucwCounted i n m) = 2 := (portState_ucwCounted hi hi n m).trans h
  have hloss : portLoss i n m = trainPort i (ucwCounted i n m) := if_pos h
  obtain ⟨st, hst, htrain⟩ := trainPort_cases i (ucwCounted i n m)
  have hst4 : st < 4 := by omega
  have hst2 : st ≠ 2 := by omega
  have hmoved := portMoved_setPort hi st (ucwCounted i n m)
  obtain ⟨hchg, hbond⟩ := setPort_reports hi (st := st) (m := ucwCounted i n m) (by rw [hstate]; exact hst2.symm)
  have hnew := portState_setPort hi hst4 (ucwCounted i n m)
  rw [hloss]
  refine ⟨?_, ?_, ?_, ?_, ?_, fun j hj hne => ?_, fun hmay => ?_, fun hdead => ?_⟩
  · rw [htrain]; exact hmoved.stores
  · rw [htrain, hnew]; exact hst2
  · rw [htrain, hbond, if_neg hst2]
  · rw [htrain]; exact hchg
  · rw [htrain, hmoved.regs _ (fecUcw_off hi)]
    exact toNat_cnt (EPL_FEC_UCW i) n m
  · obtain ⟨hs, hb⟩ := hmoved.others hi j hj hne
    rw [htrain]
    exact ⟨hs.trans (portState_ucwCounted hi hj n m), hb.trans (bonded_ucwCounted hi j n m)⟩
  · rw [trainPort_may ((mayTrain_ucwCounted hi n m).2 hmay)]
    exact portState_setPort hi (by decide) _
  · rw [trainPort_dead (m := ucwCounted i n m) hdead]
    exact portState_setPort hi (by decide) _

theorem portRetry_not {i : Nat} {m : Mach} (h : portState i m ≠ 3 ∨ portDead i m = true) : portRetry i m = m := by
  by_cases hst : portState i m = 3
  · have hdead := h.resolve_left fun hne => hne hst
    rw [portRetry, if_pos hst, trainPort_dead hdead, setPort_same hst]
  · exact if_neg hst

theorem portRetry_trains {i : Nat} (hi : i < 4) {m : Mach} (h : portState i m = 3) (hmay : MayTrain i m) :
    storesKept m (portRetry i m) ∧ portState i (portRetry i m) = 1 ∧ fon EPL_EVENTS.port_chg (portRetry i m) = true ∧
    ∀ j < 4, j ≠ i → portState j (portRetry i m) = portState j m ∧ bonded j (portRetry i m) = bonded j m := by
  have hmoved := portMoved_setPort hi 1 m
  rw [portRetry, if_pos h, trainPort_may hmay]
  exact ⟨hmoved.stores, portState_setPort hi (by decide) m, (setPort_reports hi (by rw [h]; decide)).1, hmoved.others hi⟩

/-! ### A write of the loopback point (R366) -/

theorem wfld_loop (v : W) : wfld v 1 2 = v.toNat / 2 % 4 := by
  rw [wfld, BitVec.extractLsb'_toNat, Nat.shiftRight_eq_div_pow]

theorem portCtrlWrite_refused {i : Nat} {v : W} {m : Mach} (hv : v.toNat / 2 % 4 ≠ 0) (h : bondedIn 15 m = [i]) :
    portCtrlWrite i v m = setEv EPL_EVENTS.loop_refused m := if_pos ⟨by rw [wfld_loop]; exact hv, h⟩

theorem portCtrlWrite_takes {i : Nat} {v : W} {m : Mach} (hv : v.toNat / 2 % 4 ≠ 0) (h : bondedIn 15 m ≠ [i])
    (hnew : rd (EPL_PORT_CTRL i) m ≠ v &&& 7#32) : portCtrlWrite i v m = setPort i 0 (wr (EPL_PORT_CTRL i) (v &&& 7#32) m) := by
  unfold portCtrlWrite
  rw [wfld_loop, if_neg fun hc => h hc.2]
  dsimp only
  rw [if_neg hnew, if_neg fun hc => hv hc.2]

theorem portCtrl_ne {i : Nat} (hi : i < 4) : EPL_STATUS ≠ EPL_PORT_CTRL i ∧ ∀ j < 4, EPL_PORT_STATUS j ≠ EPL_PORT_CTRL i := by
  unfold EPL_PORT_STATUS EPL_STATUS EPL_PORT_CTRL
  exact ⟨by omega, fun j _ => by omega⟩

theorem portCtrlWrite_leaves {i : Nat} (hi : i < 4) {v : W} {m : Mach} (hv : v.toNat / 2 % 4 ≠ 0) (h : bondedIn 15 m ≠ [i])
    (hnew : rd (EPL_PORT_CTRL i) m ≠ v &&& 7#32) : storesKept m (portCtrlWrite i v m) ∧
    rd (EPL_PORT_CTRL i) (portCtrlWrite i v m) = v &&& 7#32 ∧ portState i (portCtrlWrite i v m) = 0 ∧
    (portState i m ≠ 0 → bonded i (portCtrlWrite i v m) = false) ∧
    ∀ j < 4, j ≠ i → portState j (portCtrlWrite i v m) = portState j m ∧ bonded j (portCtrlWrite i v m) = bonded j m := by
  obtain ⟨hstatus, hports⟩ := portCtrl_ne hi
  have hmoved := portMoved_setPort hi 0 (wr (EPL_PORT_CTRL i) (v &&& 7#32) m)
  have hstate : ∀ j < 4, portState j (wr (EPL_PORT_CTRL i) (v &&& 7#32) m) = portState j m := fun j hj =>
    fget_of_rd (rd_wr_other (hports j hj) _ m)
  rw [portCtrlWrite_takes hv h hnew]
  refine ⟨hmoved.stores, (hmoved.regs _ (portCtrl_off hi i hi)).trans (rd_wr_same ..), portState_setPort hi (by decide) _, fun hup => ?_,
    fun j hj hne => ?_⟩
  · exact (setPort_reports hi (st := 0) (by rw [hstate i hi]; exact hup)).2
  · obtain ⟨hs, hb⟩ := hmoved.others hi j hj hne
    exact ⟨hs.trans (hstate j hj), hb.trans (bonded_of_rd (rd_wr_other hstatus _ m) j)⟩

/-! ### All ports down, and the link's reference loop (R392, R463) -/

theorem allPortsDown_not {m : Mach} (h : (∃ i < 4, portState i m = 2) ∨ role m ≠ 1) : allPortsDown m = m := by
  unfold allPortsDown
  split
  · rfl
  · next hnone =>
    refine if_neg fun hc => ?_
    rcases h with ⟨i, hi, hup⟩ | hrole
    · refine hnone (List.any_eq_true.2 ⟨i, ?_, beq_iff_eq.2 hup⟩)
      unfold ports4
      simp only [List.mem_cons, List.not_mem_nil, or_false]
      omega
    · exact hrole hc.1

theorem mem_ports4 {i : Nat} : i ∈ ports4 ↔ i < 4 := by
  unfold ports4
  simp only [List.mem_cons, List.not_mem_nil, or_false]
  omega

theorem allPortsDown_hands {m : Mach} (h : ∀ i < 4, portState i m ≠ 2) (hrole : role m = 1) (hrel : m.twin.release = none)
    (hbit : (rd HLT_TWIN_FAULTS m).getLsbD 2 = true) {hb : Heartbeat} (hpartner : m.twin.partner = some hb) (hready : hb.ready = true) :
    allPortsDown m = startHandover 2 m := by
  have hnone : ¬ (ports4.any fun i => portState i m == 2) = true := fun hc => by
    obtain ⟨i, hi, hup⟩ := List.any_eq_true.1 hc
    exact h i (mem_ports4.1 hi) (beq_iff_eq.1 hup)
  rw [allPortsDown, if_neg hnone, twinFault, hpartner]
  exact if_pos ⟨hrole, hbit, hready, hrel⟩

/-- Registers below the link's, and those of no port, that changes of the ports leave. -/
theorem portMoved_low {i a : Nat} (hi : i < 4) (ha : a < 0xB00000) {m u : Mach} (h : PortMoved i m u) : rd a u = rd a m :=
  h.regs a (offPort hi (.inl ha))

/-- Each of some ports is changed in turn, by an operation that leaves the others. -/
theorem each_ports {l : List Nat} (hl : ∀ i ∈ l, i < 4) {f : Nat → Mach → Mach} (hf : ∀ i < 4, ∀ m, PortMoved i m (f i m)) (m : Mach) :
    storesKept m (each l f m) ∧ (each l f m).power = m.power ∧ (∀ a < 0xB00000, rd a (each l f m) = rd a m) ∧
      (∀ j < 4, rd (EPL_PORT_CTRL j) (each l f m) = rd (EPL_PORT_CTRL j) m) ∧
      ∀ j < 4, j ∉ l → portState j (each l f m) = portState j m := by
  induction l generalizing m with
  | nil => exact ⟨.refl m, rfl, fun _ _ => rfl, fun _ _ => rfl, fun _ _ _ => rfl⟩
  | cons i l ih =>
    have hi := hl i (by simp)
    have hmoved := hf i hi m
    obtain ⟨hstores, hpower, hlow, hctrl, hstate⟩ := ih (fun k hk => hl k (by simp [hk])) (f i m)
    refine ⟨hmoved.stores.trans hstores, hpower.trans hmoved.power, fun a ha => (hlow a ha).trans (portMoved_low hi ha hmoved),
      fun j hj => (hctrl j hj).trans (hmoved.regs _ (portCtrl_off hi j hj)), fun j hj hne => ?_⟩
    simp only [List.mem_cons, not_or] at hne
    exact (hstate j hj hne.2).trans (hmoved.portState hi hj hne.1)

/-- After each port of a list without repeats was changed, each is where its own change put it. -/
theorem each_ports_state {l : List Nat} (hl : ∀ i ∈ l, i < 4) (hnodup : l.Nodup) {f : Nat → Mach → Mach}
    (hf : ∀ i < 4, ∀ m, PortMoved i m (f i m)) {j : Nat} (hj : j ∈ l) {P : Mach → Prop} {st : Nat}
    (hP : ∀ i < 4, ∀ m, P m → P (f i m)) (hst : ∀ m, P m → portState j (f j m) = st) {m : Mach} (hm : P m) :
    portState j (each l f m) = st := by
  induction l generalizing m with
  | nil => simp at hj
  | cons i l ih =>
    have hi := hl i (by simp)
    obtain ⟨hnot, hrest⟩ := List.nodup_cons.1 hnodup
    have hl' : ∀ k ∈ l, k < 4 := fun k hk => hl k (by simp [hk])
    rcases List.mem_cons.1 hj with rfl | hj
    · exact ((each_ports hl' hf (f j m)).2.2.2.2 j hi hnot).trans (hst m hm)
    · exact ih hl' hrest hj (hP i hi m hm)

theorem lpllUnlock_leaves (m : Mach) : storesKept m (lpllUnlock m) ∧ (∀ i < 4, portState i (lpllUnlock m) = 0) ∧
    fon CLK_STATUS.lpll_lock (lpllUnlock m) = false ∧ fon CLK_EVENTS.lpll_unlock (lpllUnlock m) = true := by
  have hall : ∀ i ∈ ports4, i < 4 := fun i hi => mem_ports4.1 hi
  have hmoves : ∀ i < 4, ∀ u, PortMoved i u (setPort i 0 u) := fun i hi u => portMoved_setPort hi 0 u
  obtain ⟨hstores, -, hlow, -, -⟩ := each_ports hall hmoves (setEv CLK_EVENTS.lpll_unlock (fset CLK_STATUS.lpll_lock 0 m))
  refine ⟨storesKept.trans (m' := setEv CLK_EVENTS.lpll_unlock (fset CLK_STATUS.lpll_lock 0 m))
    (storesKept_setEv CLK_EVENTS.lpll_unlock _) hstores, fun i hi => ?_, ?_, ?_⟩
  · exact each_ports_state hall (by decide) hmoves (mem_ports4.2 hi) (P := fun _ => True) (fun _ _ _ _ => trivial)
      (fun u _ => portState_setPort hi (by decide) u) trivial
  · rw [fon, lpllUnlock, fget_of_rd (hlow _ (by decide)), ← fon, fon_setEv_other (by decide) (by decide) (by decide) (by decide)]
    exact fon_fset_zero (f := CLK_STATUS.lpll_lock) (by decide) m
  · rw [fon, lpllUnlock, fget_of_rd (hlow _ (by decide)), ← fon]
    exact fon_setEv (f := CLK_EVENTS.lpll_unlock) rfl (by decide) (by decide) (by decide) _

/-- The loop locked, and the MPLL's lock begun where it waits (R81, R392). -/
def lpllLocked (m : Mach) : Mach :=
  let m0 := fset GCTL_DEV_STATE.ref_absent 0 (fset CLK_STATUS.lpll_lock 1 (fset CLK_STATUS.ref_present 1 m))
  if timingOn m && fget CLK_STATUS.mpll m == 0 && !m.clk.mpllFailed then startPlanLock m0 else m0

theorem lpllReengage_eq (m : Mach) :
    lpllReengage m = each (ports4.filter fun i => decide (portState i m = 0)) trainPort (lpllLocked m) := rfl

theorem regsKept_startPlanLock (m : Mach) : regsKept [CLK_STATUS] m (startPlanLock m) :=
  regsKept_fset CLK_STATUS.mpll _ (setClk (fun x => { x with lockSlot := lockPlan m }) m)

theorem fon_startPlanLock {f : Fld} (h : f.reg ≠ CLK_STATUS ∨ f.lo + f.w ≤ CLK_STATUS.mpll.lo ∨ CLK_STATUS.mpll.lo + CLK_STATUS.mpll.w ≤ f.lo)
    (m : Mach) : fon f (startPlanLock m) = fon f m :=
  fon_fset_other (f := CLK_STATUS.mpll) (by decide) (h.imp id Or.symm) _ (setClk (fun x => { x with lockSlot := lockPlan m }) m)

theorem lpllLocked_leaves (m : Mach) : storesKept m (lpllLocked m) ∧ (lpllLocked m).power = m.power ∧
    (∀ a, a ≠ CLK_STATUS → a ≠ GCTL_DEV_STATE → rd a (lpllLocked m) = rd a m) ∧ devState (lpllLocked m) = devState m ∧
    fon CLK_STATUS.lpll_lock (lpllLocked m) = true ∧ fon CLK_STATUS.ref_present (lpllLocked m) = true ∧
    fon GCTL_DEV_STATE.ref_absent (lpllLocked m) = false := by
  have hregs : regsKept [CLK_STATUS, GCTL_DEV_STATE] m
      (fset GCTL_DEV_STATE.ref_absent 0 (fset CLK_STATUS.lpll_lock 1 (fset CLK_STATUS.ref_present 1 m))) :=
    (((regsKept_fset CLK_STATUS.ref_present 1 m).mono (by decide)).trans ((regsKept_fset CLK_STATUS.lpll_lock 1 _).mono (by decide))).trans
      ((regsKept_fset GCTL_DEV_STATE.ref_absent 0 _).mono (by decide))
  have hdev : devState (fset GCTL_DEV_STATE.ref_absent 0 (fset CLK_STATUS.lpll_lock 1 (fset CLK_STATUS.ref_present 1 m))) = devState m :=
    ((fget_fset_other (f := GCTL_DEV_STATE.ref_absent) (g := GCTL_DEV_STATE.state) (by decide) (by decide) _ _).trans
      (fget_fset_other (f := CLK_STATUS.lpll_lock) (g := GCTL_DEV_STATE.state) (by decide) (by decide) _ _)).trans
      (fget_fset_other (f := CLK_STATUS.ref_present) (g := GCTL_DEV_STATE.state) (by decide) (by decide) _ _)
  have hlock : fon CLK_STATUS.lpll_lock (fset GCTL_DEV_STATE.ref_absent 0 (fset CLK_STATUS.lpll_lock 1
      (fset CLK_STATUS.ref_present 1 m))) = true :=
    (fon_fset_other (f := GCTL_DEV_STATE.ref_absent) (by decide) (by decide) _ _).trans
      (fon_fset_one (f := CLK_STATUS.lpll_lock) rfl (by decide) _)
  have href : fon CLK_STATUS.ref_present (fset GCTL_DEV_STATE.ref_absent 0 (fset CLK_STATUS.lpll_lock 1
      (fset CLK_STATUS.ref_present 1 m))) = true :=
    ((fon_fset_other (f := GCTL_DEV_STATE.ref_absent) (by decide) (by decide) _ _).trans
      (fon_fset_other (f := CLK_STATUS.lpll_lock) (by decide) (by decide) _ _)).trans
      (fon_fset_one (f := CLK_STATUS.ref_present) rfl (by decide) m)
  have habsent := fon_fset_zero (f := GCTL_DEV_STATE.ref_absent) (by decide)
    (fset CLK_STATUS.lpll_lock 1 (fset CLK_STATUS.ref_present 1 m))
  unfold lpllLocked
  dsimp only
  split
  · have hkept := regsKept_startPlanLock
      (fset GCTL_DEV_STATE.ref_absent 0 (fset CLK_STATUS.lpll_lock 1 (fset CLK_STATUS.ref_present 1 m)))
    refine ⟨⟨rfl, rfl, rfl, rfl⟩, rfl, fun a h1 h2 => ?_, ?_, ?_, ?_, ?_⟩
    · exact (hkept a (by simpa using h1)).trans (hregs a (by simp [h1, h2]))
    · exact (hkept.fget (f := GCTL_DEV_STATE.state) (by decide)).trans hdev
    · rw [fon_startPlanLock (by decide)]; exact hlock
    · rw [fon_startPlanLock (by decide)]; exact href
    · rw [fon_startPlanLock (by decide)]; exact habsent
  · exact ⟨⟨rfl, rfl, rfl, rfl⟩, rfl, fun a h1 h2 => hregs a (by simp [h1, h2]), hdev, hlock, href, habsent⟩

theorem portState_lpllLocked {i : Nat} (hi : i < 4) (m : Mach) : portState i (lpllLocked m) = portState i m := by
  refine fget_of_rd ((lpllLocked_leaves m).2.2.1 _ ?_ ?_)
  · unfold EPL_PORT_STATUS.state EPL_PORT_STATUS CLK_STATUS; dsimp only; omega
  · unfold EPL_PORT_STATUS.state EPL_PORT_STATUS GCTL_DEV_STATE; dsimp only; omega

/-- R392: the ports that its loss took down retrain. -/
theorem lpllReengage_leaves (m : Mach) : storesKept m (lpllReengage m) ∧ fon CLK_STATUS.lpll_lock (lpllReengage m) = true ∧
    fon CLK_STATUS.ref_present (lpllReengage m) = true ∧ fon GCTL_DEV_STATE.ref_absent (lpllReengage m) = false ∧
    ∀ i < 4, (portState i m = 0 → MayTrain i m → portState i (lpllReengage m) = 1) ∧
      (portState i m ≠ 0 → portState i (lpllReengage m) = portState i m) := by
  obtain ⟨hstores0, hpower0, hregs0, hdev0, hlock, href, habsent⟩ := lpllLocked_leaves m
  have hdown : ∀ i ∈ ports4.filter fun i => decide (portState i m = 0), i < 4 := fun i hi => mem_ports4.1 (List.mem_of_mem_filter hi)
  have hmoves : ∀ i < 4, ∀ u, PortMoved i u (trainPort i u) := fun i hi u => portMoved_trainPort hi u
  obtain ⟨hstores, -, hlow, -, hstates⟩ := each_ports hdown hmoves (lpllLocked m)
  have hfon : ∀ f : Fld, f.reg < 0xB00000 → fon f (lpllReengage m) = fon f (lpllLocked m) := fun f hf => by
    rw [fon, lpllReengage_eq, fget_of_rd (hlow _ hf), fon]
  refine ⟨hstores0.trans hstores, (hfon _ (by decide)).trans hlock, (hfon _ (by decide)).trans href, (hfon _ (by decide)).trans habsent,
    fun i hi => ⟨fun hzero hmay => ?_, fun hup => ?_⟩⟩
  · have hctrl0 : rd (EPL_PORT_CTRL i) (lpllLocked m) = rd (EPL_PORT_CTRL i) m := hregs0 _
      (by unfold EPL_PORT_CTRL CLK_STATUS; omega) (by unfold EPL_PORT_CTRL GCTL_DEV_STATE; omega)
    have hmay0 : MayTrain i (lpllLocked m) := by
      obtain ⟨hdead, hfw, hen, hloop⟩ := hmay
      refine ⟨?_, ?_, ?_, ?_⟩
      · rw [portDead, hstores0.2.2.1]; exact hdead
      · rw [fwRuns, hpower0, hdev0]; exact hfw
      · rw [fon, fget_of_rd (f := EPL_PORT_CTRL.en i) hctrl0]; exact hen
      · rw [fget_of_rd (f := EPL_PORT_CTRL.loop i) hctrl0]; exact hloop
    refine each_ports_state hdown ((by decide : ports4.Nodup).filter _) hmoves (P := fun u => MayTrain i u)
      (List.mem_filter.2 ⟨mem_ports4.2 hi, decide_eq_true hzero⟩) (fun j hj u hu => ?_) (fun u hu => ?_) hmay0
    · have hmoved := hmoves j hj u
      exact (mayTrain_congr hmoved.stores.2.2.1 hmoved.power (portMoved_low hj (by decide) hmoved)
        (hmoved.regs _ (portCtrl_off hj i hi))).2 hu
    · rw [trainPort_may hu]
      exact portState_setPort hi (by decide) u
  · rw [lpllReengage_eq, hstates i hi (fun hc => hup (of_decide_eq_true (List.mem_filter.1 hc).2)), portState_lpllLocked hi]

end Sys2Proof.Machine

/-! SUPPORT. Received frames, delay answers, PTP, pulses and EVENT (R363, R373, R381, R389, R390, R507). -/

namespace Sys2Proof.Machine

/-! ### Received frames -/

/-- The frame is the device's: it crosses a trained port, whole, of a legal length and addressed to it. -/
def FrameMine (p : Nat) (f : EthFrame) (m : Mach) : Prop :=
  portState p m = 2 ∧ f.fcsOk = true ∧ 64 ≤ f.len ∧ f.len ≤ mtu m ∧ (f.dst = portMac p m ∨ f.dst = BitVec.allOnes 48)

theorem frameMine_iff (p : Nat) (f : EthFrame) (m : Mach) : FrameMine p f m ↔ ¬ (portState p m ≠ 2 ∨ f.fcsOk = false ∨ f.len < 64 ∨
    mtu m < f.len ∨ (f.dst ≠ portMac p m ∧ f.dst ≠ BitVec.allOnes 48)) := by
  simp only [FrameMine, not_or, not_and_or, not_not, ne_eq, Bool.not_eq_false, Nat.not_lt]

theorem ethFrameRx_foreign {p : Nat} {f : EthFrame} {m : Mach} (h : ¬ FrameMine p f m) : ethFrameRx p f m = m :=
  if_pos (Classical.not_not.1 (mt (frameMine_iff p f m).2 h))

/-- What the device does with a frame of its own, by what the frame carries. -/
theorem ethFrameRx_other {p : Nat} {f : EthFrame} {m : Mach} (h : FrameMine p f m) (hpay : f.pay = .other) :
    ethFrameRx p f m = rxDiscard 1 m := by
  simp only [ethFrameRx, if_neg ((frameMine_iff p f m).1 h), hpay]

theorem ethFrameRx_ecpri {p : Nat} {f : EthFrame} {m : Mach} (h : FrameMine p f m) {hs : List (BitVec 4 × BitVec 8)}
    (hpay : f.pay = .ecpri hs) (hetype : f.etype = 0xAEFE#16) :
    ethFrameRx p f m = rxDiscard (hs.countP fun h => !ecpriOk h) m := by
  simp only [ethFrameRx, if_neg ((frameMine_iff p f m).1 h), hpay, if_pos hetype]

theorem ethFrameRx_ptp {p : Nat} {f : EthFrame} {m : Mach} (h : FrameMine p f m) {x : PtpMsg} {fine : BitVec 7}
    (hpay : f.pay = .ptp x fine) (hetype : f.etype = 0x88F7#16) :
    ethFrameRx p f m = sendNat 0 (.ptpRx p (if x.isEvent then stampNow fine m else ⟨0, 0⟩) x) m := by
  simp only [ethFrameRx, if_neg ((frameMine_iff p f m).1 h), hpay, if_pos hetype]

theorem ethFrameRx_native {p : Nat} {f : EthFrame} {m : Mach} (h : FrameMine p f m) {x : NativeHdr} (hpay : f.pay = .native x)
    (hetype : f.etype.toNat = fget EPL_CFG.etype m) : ethFrameRx p f m = nativeHdr f.src x m := by
  simp only [ethFrameRx, if_neg ((frameMine_iff p f m).1 h), hpay, if_pos hetype]

theorem ecpriOk_eq (h : BitVec 4 × BitVec 8) : (!ecpriOk h) = decide (h.1 ≠ 1#4 ∨ (h.2 ≠ 0#8 ∧ h.2 ≠ 2#8 ∧ h.2 ≠ 5#8)) := by
  rw [Bool.eq_iff_iff, decide_eq_true_iff, Bool.not_eq_true', ecpriOk, Bool.and_eq_false_iff, Bool.or_eq_false_iff,
    Bool.or_eq_false_iff]
  simp only [beq_eq_false_iff_ne, and_assoc, ne_eq]

theorem nativeHdr_lost {src : BitVec 48} {h : NativeHdr} {m : Mach} (hbad : h.ver ≠ 1#8 ∨ 4 ≤ h.sess.toNat ∨
    sessBound h.sess.toNat m = false ∨ src ≠ sessMac h.sess.toNat m) : nativeHdr src h m = rxDiscard 1 m := if_pos hbad

/-- The header's sequence number jumps. -/
def seqJumps (h : NativeHdr) (m : Mach) : Bool := match (getSess h.sess.toNat m).rxSeq with
  | some n => decide ((n + 1) % 2 ^ 32 ≠ h.seq.toNat)
  | none => false

/-- The session with the header's sequence number. -/
def seqTaken (h : NativeHdr) (m : Mach) : Mach :=
  setSess h.sess.toNat { getSess h.sess.toNat m with rxSeq := some h.seq.toNat } m

theorem nativeHdr_taken {src : BitVec 48} {h : NativeHdr} {m : Mach} (hver : h.ver = 1#8) (hsess : h.sess.toNat < 4)
    (hbound : sessBound h.sess.toNat m = true) (hsrc : src = sessMac h.sess.toNat m) :
    nativeHdr src h m = setEvIf (seqJumps h m) EPL_EVENTS.seq_gap (seqTaken h m) := by
  refine if_neg ?_
  simp only [hver, hbound, hsrc, not_or, ne_eq, not_true_eq_false, not_false_eq_true, Bool.true_eq_false, true_and, and_true]
  omega

theorem nativeHdr_leaves {src : BitVec 48} {h : NativeHdr} {m : Mach} (hver : h.ver = 1#8) (hsess : h.sess.toNat < 4)
    (hbound : sessBound h.sess.toNat m = true) (hsrc : src = sessMac h.sess.toNat m) : storesKept m (nativeHdr src h m) ∧
    (getSess h.sess.toNat (nativeHdr src h m)).rxSeq = some h.seq.toNat ∧
    (∀ n, (getSess h.sess.toNat m).rxSeq = some n → (n + 1) % 2 ^ 32 ≠ h.seq.toNat →
      fon EPL_EVENTS.seq_gap (nativeHdr src h m) = true) ∧
    regsKept [EPL_EVENTS, HLT_LOG_WPTR, HLT_EVENTS] m (nativeHdr src h m) ∧ (nativeHdr src h m).out = m.out := by
  obtain ⟨_, _, _, _, _, _, _, hframe⟩ := setEvIf_frame (seqJumps h m) EPL_EVENTS.seq_gap (seqTaken h m)
  have hstores : storesKept (seqTaken h m) (setEvIf (seqJumps h m) EPL_EVENTS.seq_gap (seqTaken h m)) := storesKept_setEvIf _ _ _
  rw [nativeHdr_taken hver hsess hbound hsrc]
  refine ⟨storesKept.trans (m' := seqTaken h m) ⟨rfl, rfl, rfl, rfl⟩ hstores, ?_, fun n hn hjump => ?_,
    regsKept_setEvIf (seqJumps h m) EPL_EVENTS.seq_gap (seqTaken h m), ?_⟩
  · have hsessions : (setEvIf (seqJumps h m) EPL_EVENTS.seq_gap (seqTaken h m)).sess = (seqTaken h m).sess := by rw [hframe]
    rw [getSess, hsessions, ← getSess, seqTaken, getSess, setSess]
    simp
  · have hj : seqJumps h m = true := by rw [seqJumps, hn]; exact decide_eq_true hjump
    rw [fon_setEvIf _ rfl (by decide) (by decide) (by decide), hj]
    rfl
  · rw [hframe]; rfl

/-! ### Messages to and from the sessions while the core runs -/

theorem nativeIn_closed {k : Nat} {i : Instr} {f : Mach → Mach} {m : Mach} (h : m.power ≠ .coreRun ∨ devState m = 2)
    (hrom : romTakes i = false) : nativeIn k i f m = m := if_pos (h.imp id fun hd => ⟨hd, hrom⟩)

theorem nativeIn_runs {k : Nat} {i : Instr} {f : Mach → Mach} {m : Mach} (hp : m.power = .coreRun)
    (hd : devState m ≠ 2 ∨ romTakes i = true) (hheld : mgmtHeld m = false) : nativeIn k i f m = f m := by
  have hopen : ¬ (m.power ≠ .coreRun ∨ (devState m = 2 ∧ romTakes i = false)) := by
    rintro (h | ⟨h2, hrom⟩)
    · exact h hp
    · rcases hd with hd | hd
      · exact hd h2
      · simp [hrom] at hd
  rw [nativeIn, if_neg hopen, hheld, if_neg (by decide)]

theorem ptpTx_lost {p : Nat} {m : Mach} (h : ¬ (p < 4 ∧ portState p m = 2)) (k : Nat) (x : PtpMsg) (fine : BitVec 7) :
    ptpTx k p x fine m = rxDiscard 1 m := if_neg h

theorem ptpTx_general {p : Nat} {m : Mach} (h : p < 4 ∧ portState p m = 2) {x : PtpMsg} (hx : x.isEvent = false) (k : Nat)
    (fine : BitVec 7) : ptpTx k p x fine m = send (.ptpOut p x) m := by
  rw [ptpTx, if_pos h, hx]; rfl

theorem ptpTx_event {p : Nat} {m : Mach} (h : p < 4 ∧ portState p m = 2) {x : PtpMsg} (hx : x.isEvent = true) (k : Nat)
    (fine : BitVec 7) : ptpTx k p x fine m = sendNat k (.ptpTs p (stampNow fine m) x.seqId x.msgType) (send (.ptpOut p x) m) := by
  rw [ptpTx, if_pos h, hx]; rfl

/-- R375: what answers a delay message. -/
theorem ecpriDelay_answers {p : Nat} {m : Mach} (h : portState p m = 2) (id : BitVec 8) (fine : BitVec 7) :
    ∀ e ∈ [(0#8, [.delayResp p 2 id.toNat (some ⟨tick m, fine.toNat⟩)]), (1#8, [.delayResp p 2 id.toNat (some ⟨tick m, fine.toNat⟩)]),
      (3#8, [.delayResp p 0 id.toNat (some ⟨tick m, fine.toNat⟩)]),
      (4#8, [.delayResp p 1 id.toNat none, .delayResp p 5 id.toNat (some ⟨tick m, fine.toNat⟩)])],
      ecpriDelay p e.1 id fine m = { m with out := m.out ++ e.2 } := by
  simp only [List.mem_cons, List.not_mem_nil, or_false]
  rintro e (rfl | rfl | rfl | rfl) <;> rw [ecpriDelay, if_neg (by simp [h])]
  · rfl
  · rfl
  · rfl
  · simp [send, stampNow]

theorem ecpriDelay_none {p : Nat} {a : BitVec 8} {m : Mach} (h : portState p m ≠ 2 ∨ a.toNat = 2 ∨ 4 < a.toNat) (id : BitVec 8)
    (fine : BitVec 7) : ecpriDelay p a id fine m = m := by
  unfold ecpriDelay
  dsimp only
  split
  · rfl
  · next hup =>
    have ha := h.resolve_left hup
    split
    · omega
    · omega
    · omega
    · omega
    · rfl

/-! ### Pulses (R390) -/

/-- A pulse comes less than 0.9 s after the one before. -/
def PpsEarly (m : Mach) : Prop := ∃ t, m.clk.ppsLast = some t ∧ tick m < t + 221184000

/-- The pulse's instant is noted. -/
def ppsNoted (m : Mach) : Mach := setClk (fun x => { x with ppsLast := some (tick m) }) m

/-- Its time stamp is shown. -/
def ppsStamped (fine : BitVec 7) (m : Mach) : Mach :=
  wr (EPL_PPS_IN_TS 0) (BitVec.ofNat 32 (tick m)) (wr (EPL_PPS_IN_TS 1) (BitVec.ofNat 32 (tick m / 2 ^ 32))
    (wr (EPL_PPS_IN_TS 2) (BitVec.ofNat 32 fine.toNat) (ppsNoted m)))

theorem ppsIn_early {m : Mach} (h : PpsEarly m) (fine : BitVec 7) : ppsIn fine m = setEv EPL_EVENTS.pps_early (ppsNoted m) := by
  obtain ⟨t, ht, hlt⟩ := h
  unfold ppsIn
  rw [ht]
  exact if_pos (decide_eq_true hlt)

theorem ppsIn_taken {m : Mach} (h : ¬ PpsEarly m) (fine : BitVec 7) : ppsIn fine m = ppsStamped fine m := by
  unfold ppsIn
  cases hlast : m.clk.ppsLast with
  | none => rfl
  | some t => exact if_neg fun hc => h ⟨t, hlast, of_decide_eq_true hc⟩

theorem ppsIn_leaves (fine : BitVec 7) (m : Mach) : storesKept m (ppsIn fine m) ∧ (ppsIn fine m).clk.ppsLast = some (tick m) ∧
    (PpsEarly m → fon EPL_EVENTS.pps_early (ppsIn fine m) = true ∧ regsKept [EPL_EVENTS, HLT_LOG_WPTR, HLT_EVENTS] m (ppsIn fine m)) ∧
    (¬ PpsEarly m → rd (EPL_PPS_IN_TS 0) (ppsIn fine m) = BitVec.ofNat 32 (tick m) ∧
      rd (EPL_PPS_IN_TS 1) (ppsIn fine m) = BitVec.ofNat 32 (tick m / 2 ^ 32) ∧
      rd (EPL_PPS_IN_TS 2) (ppsIn fine m) = BitVec.ofNat 32 fine.toNat ∧
      regsKept [EPL_PPS_IN_TS 0, EPL_PPS_IN_TS 1, EPL_PPS_IN_TS 2] m (ppsIn fine m)) := by
  by_cases h : PpsEarly m
  · obtain ⟨_, _, _, _, _, _, _, hframe⟩ := setEv_frame EPL_EVENTS.pps_early (ppsNoted m)
    rw [ppsIn_early h]
    refine ⟨storesKept.trans (m' := ppsNoted m) ⟨rfl, rfl, rfl, rfl⟩ (storesKept_setEv _ _), ?_, fun _ => ⟨?_, ?_⟩, fun hn => absurd h hn⟩
    · rw [hframe]; rfl
    · exact fon_setEv rfl (by decide) (by decide) (by decide) _
    · exact regsKept_setEv EPL_EVENTS.pps_early (ppsNoted m)
  · rw [ppsIn_taken h]
    refine ⟨⟨rfl, rfl, rfl, rfl⟩, rfl, fun he => absurd he h, fun _ => ⟨?_, ?_, ?_, ?_⟩⟩
    · exact rd_wr_same ..
    · exact (rd_wr_other (by decide) _ _).trans (rd_wr_same ..)
    · exact ((rd_wr_other (by decide) _ _).trans (rd_wr_other (by decide) _ _)).trans (rd_wr_same ..)
    · exact (((regsKept_wr (EPL_PPS_IN_TS 2) _ (ppsNoted m)).mono (by decide)).trans
        ((regsKept_wr (EPL_PPS_IN_TS 1) _ _).mono (by decide))).trans ((regsKept_wr (EPL_PPS_IN_TS 0) _ _).mono (by decide))

/-- PPS_OUT rises while it is enabled, the MPLL is locked and the timing runs. -/
def PpsMay (m : Mach) : Prop := fon EPL_PPS_CFG.pps_en m = true ∧ mpllLocked m = true ∧ timingOn m = true

theorem ppsOut_not {m : Mach} (h : ¬ PpsMay m) : ppsOut m = m := by
  refine if_neg fun hc => h ?_
  simp only [Bool.and_eq_true] at hc
  exact ⟨hc.1.1, hc.1.2, hc.2⟩

theorem ppsOut_may {m : Mach} (h : PpsMay m) : ppsOut m =
    send .pps (setClk (fun x => { x with ppsHigh := some (ppsNext m + ppsWidth m) }) (advanceTo (ppsNext m) m)) := by
  obtain ⟨hen, hlock, hon⟩ := h
  rw [ppsOut, if_pos (by rw [hen, hlock, hon]; rfl)]

/-- The next tick that is the offset after a whole second lies less than a second ahead. -/
theorem ppsNext_spec (m : Mach) : ppsNext m % 245760000 = fget EPL_PPS_OFF.pps_off m % 245760000 ∧ tick m ≤ ppsNext m ∧
    ppsNext m < tick m + 245760000 := by
  unfold ppsNext
  dsimp only
  omega

theorem tick_advanceTo {m : Mach} (h : timingOn m = true) {t : Nat} (ht : tick m ≤ t) : tick (advanceTo t m) = t := by
  unfold advanceTo
  split
  · simp [tick]
  · next hreached => exact Nat.le_antisymm ht (Nat.le_of_not_lt fun q => hreached ⟨h, q⟩)

theorem tick_pulse (f : ClkSt → ClkSt) (m : Mach) : tick (send .pps (setClk f m)) = tick m := rfl

theorem ppsOut_leaves {m : Mach} (h : PpsMay m) : storesKept m (ppsOut m) ∧ (ppsOut m).out = m.out ++ [.pps] ∧
    (ppsOut m).regs = m.regs ∧ tick (ppsOut m) = ppsNext m ∧
    tick (ppsOut m) % 245760000 = fget EPL_PPS_OFF.pps_off m % 245760000 ∧ tick m ≤ tick (ppsOut m) ∧
    tick (ppsOut m) < tick m + 245760000 ∧ (ppsOut m).clk.ppsHigh = some (ppsNext m + ppsWidth m) := by
  obtain ⟨hphase, hle, hlt⟩ := ppsNext_spec m
  have htick : tick (ppsOut m) = ppsNext m := by
    rw [ppsOut_may h, tick_pulse, tick_advanceTo h.2.2 hle]
  obtain ⟨_, hframe⟩ := advanceTo_frame (ppsNext m) m
  refine ⟨?_, ?_, ?_, htick, by rw [htick]; exact hphase, by rw [htick]; exact hle, by rw [htick]; exact hlt, ?_⟩ <;>
    rw [ppsOut_may h, hframe]
  · exact ⟨rfl, rfl, rfl, rfl⟩
  · rfl
  · rfl
  · rfl

/-! ### EVENT (R507) -/

/-- An EVENT is pending, a port is bonded and session 0 can be sent to. -/
def EventMay (m : Mach) : Prop := m.evtPend = true ∧ anyBonded m = true ∧ sessBound 0 m = true ∧ sessPort 0 m = true

theorem sendEvent_not {m : Mach} (h : ¬ EventMay m) : sendEvent m = m := by
  refine if_neg fun hc => h ?_
  simp only [Bool.and_eq_true] at hc
  exact ⟨hc.1.1.1, hc.1.1.2, hc.1.2, hc.2⟩

/-- What is sent: the time, the summary and three registers. -/
def eventBody (m : Mach) : NatBody :=
  .event (tick m) [summaryWord m, rd GCTL_DEV_STATE m, rd HLT_REPLACE m, rd GCTL_GLOBAL_EVENTS m]

theorem sendEvent_may {m : Mach} (h : EventMay m) : sendEvent m = sendNat 0 (eventBody m) { m with evtPend := false } := by
  obtain ⟨hpend, hbond, hbound, hport⟩ := h
  rw [sendEvent, if_pos (by rw [hpend, hbond, hbound, hport]; rfl), eventBody]

/-- A message sent by a device that wants no EVENT any more. -/
theorem eventSent_leaves {m : Mach} (h : EventMay m) (b : NatBody) : storesKept m (sendNat 0 b { m with evtPend := false }) ∧
    (sendNat 0 b { m with evtPend := false }).evtPend = false ∧ (sendNat 0 b { m with evtPend := false }).regs = m.regs ∧
    (sendNat 0 b { m with evtPend := false }).out = m.out ++ [.native 0 (getSess 0 m).txSeq b] := by
  obtain ⟨-, -, hbound, hport⟩ := h
  have hout := out_sendNat (m := { m with evtPend := false }) hbound hport b
  obtain ⟨_, _, hframe⟩ := sendNat_frame 0 b { m with evtPend := false }
  refine ⟨?_, ?_, ?_, hout⟩ <;> rw [hframe]
  exact ⟨rfl, rfl, rfl, rfl⟩

theorem sendEvent_leaves {m : Mach} (h : EventMay m) : storesKept m (sendEvent m) ∧ (sendEvent m).evtPend = false ∧
    (sendEvent m).regs = m.regs ∧ (sendEvent m).out = m.out ++ [.native 0 (getSess 0 m).txSeq (eventBody m)] := by
  rw [sendEvent_may h]
  exact eventSent_leaves h (eventBody m)

end Sys2Proof.Machine

/-! SUPPORT. The statement about the link put together (R363 to R367, R381, R389, R390, R392, R463, R507). -/

namespace Sys2Proof.Machine

theorem exec_portLoopbackWrite {i : Fin 4} {s : State} (h : reach (EPL_PORT_CTRL i) s.m = true) (v : W) :
    exec (.portLoopbackWrite i v) s = .next (s.withM (portCtrlWrite i v s.m)) := answer_gate_reach h (portCtrlWrite i v)

theorem exec_portLoopbackWrite_blocked {i : Fin 4} {s : State} (h : reach (EPL_PORT_CTRL i) s.m = false) (v : W) :
    exec (.portLoopbackWrite i v) s = .next s := answer_gate_blocked h (portCtrlWrite i v)

/-- A PTP message goes to session 0 with its time stamp (R389). -/
theorem ethFrameRx_stamped {p : Fin 4} {f : EthFrame} {m : Mach} (h : FrameMine p f m) {x : PtpMsg} {fine : BitVec 7}
    (hpay : f.pay = .ptp x fine) (hetype : f.etype = 0x88F7#16) (hbound : sessBound 0 m = true) (hport : sessPort 0 m = true) :
    storesKept m (ethFrameRx p f m) ∧ (ethFrameRx p f m).regs = m.regs ∧ (ethFrameRx p f m).out = m.out ++
      [.native 0 (getSess 0 m).txSeq (.ptpRx p (if x.isEvent then ⟨tick m, fine.toNat⟩ else ⟨0, 0⟩) x)] := by
  obtain ⟨_, _, hsent⟩ := sendNat_frame 0 (.ptpRx p (if x.isEvent then stampNow fine m else ⟨0, 0⟩) x) m
  rw [ethFrameRx_ptp h hpay hetype]
  refine ⟨storesKept_sendNat .., ?_, out_sendNat hbound hport _⟩
  rw [hsent]

/-- Bad headers are counted (R373). -/
theorem ethFrameRx_counted {p : Fin 4} {f : EthFrame} {m : Mach} (h : FrameMine p f m) {hs : List (BitVec 4 × BitVec 8)}
    (hpay : f.pay = .ecpri hs) (hetype : f.etype = 0xAEFE#16) : ethFrameRx p f m =
      rxDiscard (hs.countP fun h => decide (h.1 ≠ 1#4 ∨ (h.2 ≠ 0#8 ∧ h.2 ≠ 2#8 ∧ h.2 ≠ 5#8))) m := by
  rw [ethFrameRx_ecpri h hpay hetype, funext ecpriOk_eq]

/-- An event message is answered with its time stamp (R389). -/
theorem ptpTx_stamped {k : Fin 4} {p : Nat} {m : Mach} (h : p < 4 ∧ portState p m = 2) {x : PtpMsg} (hx : x.isEvent = true)
    (hbound : sessBound k m = true) (hport : sessPort k m = true) (fine : BitVec 7) :
    storesKept m (ptpTx k p x fine m) ∧ (ptpTx k p x fine m).regs = m.regs ∧ (ptpTx k p x fine m).out = m.out ++
      [.ptpOut p x, .native k (getSess k m).txSeq (.ptpTs p ⟨tick m, fine.toNat⟩ x.seqId x.msgType)] := by
  have hout := out_sendNat (m := send (.ptpOut p x) m) hbound hport (.ptpTs p (stampNow fine m) x.seqId x.msgType)
  obtain ⟨_, _, hsent⟩ := sendNat_frame k (.ptpTs p (stampNow fine m) x.seqId x.msgType) (send (.ptpOut p x) m)
  rw [ptpTx_event h hx]
  refine ⟨storesKept.trans (m' := send (.ptpOut p x) m) ⟨rfl, rfl, rfl, rfl⟩ (storesKept_sendNat ..), ?_, ?_⟩
  · rw [hsent]; rfl
  · rw [hout]
    simp [send, stampNow, getSess]

/-- Settles O54. The accepted eCPRI revision is 1 (PRESUMED, assumption 37). -/
theorem portsTrainBondFailAndKeepTime : Obligations.PortsTrainBondFailAndKeepTime := by
  intro s
  refine ⟨fun i => ⟨fun h => ⟨?notTrained, ?notTimed⟩, fun h => ⟨?trained, ?timeout⟩, fun h => ?noJoin, fun h hb ha => ?joins,
      fun n => ⟨fun h => ?lossCounted, fun h => ?loss⟩, fun h => ?noRetry, fun h hmay => ?retries,
      fun v => ⟨fun h => ?loopBlocked, fun h hv => ⟨fun hb => ?loopRefused, fun hb hnew => ?loopTaken⟩⟩⟩,
    fun h => ?noneDown, fun h hrole hrel hbit hb hpartner hready => ?handsOver, ?unlock, ?reengage,
    fun p f => ⟨fun h => ?foreign, fun h => ⟨fun hpay => ?lost, fun hs hpay hty => ?ecpri, fun x fine hpay hty hbound hport => ?ptp,
      fun x hpay hty => ⟨fun hbad => ?nativeLost, fun hver hsess hbound hsrc => ?native⟩⟩⟩,
    fun p a id fine => ⟨fun h => ?noDelay, fun h e he => ?delay⟩,
    fun k p x fine => ⟨fun h => ?ptpClosed, fun hp hd hheld => ⟨fun h => ?ptpLost, fun hp4 hup => ⟨fun hx => ?ptpSent,
      fun hx hbound hport => ?ptpStamped⟩⟩⟩,
    fun fine => ?ppsIn, ⟨fun h => ?noPps, fun h => ?pps⟩, ⟨fun h => ?noEvent, fun h => ?event⟩⟩
  case notTrained => exact next_same (if_neg h)
  case notTimed => exact next_same (if_neg h)
  case trained => exact ⟨_, rfl, portTrained_trains i.isLt h⟩
  case timeout => exact ⟨_, rfl, portTimeout_fails i.isLt h⟩
  case noJoin => exact next_same (portJoin_not h)
  case joins => exact ⟨_, rfl, portJoin_joins i.isLt h hb ha⟩
  case lossCounted => exact congrArg (fun m => Host.Outcome.next (s.withM m)) (if_neg h)
  case loss => exact ⟨_, rfl, portLoss_leaves i.isLt h n⟩
  case noRetry => exact next_same (portRetry_not h)
  case retries => exact ⟨_, rfl, portRetry_trains i.isLt h hmay⟩
  case loopBlocked => exact exec_portLoopbackWrite_blocked h v
  case loopRefused => rw [exec_portLoopbackWrite h, portCtrlWrite_refused hv hb]
  case loopTaken => exact ⟨_, exec_portLoopbackWrite h v, portCtrlWrite_leaves i.isLt hv hb hnew⟩
  case noneDown => exact next_same (allPortsDown_not h)
  case handsOver =>
    refine ⟨startHandover 2 s.m, congrArg (fun m => Host.Outcome.next (s.withM m)) (allPortsDown_hands h hrole hrel hbit hpartner hready),
      ⟨rfl, rfl, rfl, rfl⟩, rfl, rfl, rfl⟩
  case unlock => exact ⟨_, rfl, lpllUnlock_leaves s.m⟩
  case reengage =>
    obtain ⟨hstores, hlock, href, habsent, hports⟩ := lpllReengage_leaves s.m
    exact ⟨_, rfl, hstores, hlock, href, habsent,
      fun i hi => ⟨fun h0 hdead hfw hen hloop => (hports i hi).1 h0 ⟨hdead, hfw, hen, hloop⟩, (hports i hi).2⟩⟩
  case foreign => exact next_same (ethFrameRx_foreign h)
  case lost => exact congrArg (fun m => Host.Outcome.next (s.withM m)) (ethFrameRx_other h hpay)
  case ecpri => exact congrArg (fun m => Host.Outcome.next (s.withM m)) (ethFrameRx_counted h hpay hty)
  case ptp => exact ⟨_, rfl, ethFrameRx_stamped h hpay hty hbound hport⟩
  case nativeLost =>
    exact congrArg (fun m => Host.Outcome.next (s.withM m)) ((ethFrameRx_native h hpay hty).trans (nativeHdr_lost hbad))
  case native =>
    exact ⟨_, congrArg (fun m => Host.Outcome.next (s.withM m)) (ethFrameRx_native h hpay hty), nativeHdr_leaves hver hsess hbound hsrc⟩
  case noDelay => exact next_same (ecpriDelay_none h id fine)
  case delay => exact congrArg (fun m => Host.Outcome.next (s.withM m)) (ecpriDelay_answers h id fine e he)
  case ptpClosed => exact next_same (nativeIn_closed h rfl)
  case ptpLost =>
    exact congrArg (fun m => Host.Outcome.next (s.withM m)) ((nativeIn_runs hp (.inl hd) hheld).trans (ptpTx_lost h k x fine))
  case ptpSent =>
    exact congrArg (fun m => Host.Outcome.next (s.withM m))
      ((nativeIn_runs hp (.inl hd) hheld).trans (ptpTx_general ⟨hp4, hup⟩ hx k fine))
  case ptpStamped =>
    exact ⟨_, congrArg (fun m => Host.Outcome.next (s.withM m)) (nativeIn_runs hp (.inl hd) hheld),
      ptpTx_stamped ⟨hp4, hup⟩ hx hbound hport fine⟩
  case ppsIn => exact ⟨_, rfl, ppsIn_leaves fine s.m⟩
  case noPps => exact next_same (ppsOut_not h)
  case pps => exact ⟨_, rfl, ppsOut_leaves h⟩
  case noEvent => exact next_same (sendEvent_not h)
  case event => exact ⟨_, rfl, sendEvent_leaves h⟩

end Sys2Proof.Machine

/-! SUPPORT. Roles and takeovers of a twin: the role's write, the takeover's start and its end, the answers that wait for the STANDBY
(R453, R462 to R464). -/

namespace Sys2Proof.Machine

/-! ### The answers that wait (R462) -/

theorem releaseAcks_frame (m : Mach) : ∃ x o, releaseAcks m = { m with sess := x, out := o, twin := { m.twin with acks := [] } } := by
  refine each_inv (fun u => ∃ x o, u = { m with sess := x, out := o, twin := { m.twin with acks := [] } }) _ _ ?_ _ ⟨_, _, rfl⟩
  rintro a - u ⟨x, o, rfl⟩
  obtain ⟨x', o', h⟩ := sendNat_frame a.2.1 a.2.2 { m with sess := x, out := o, twin := { m.twin with acks := [] } }
  exact ⟨x', o', h⟩

@[simp] theorem rd_releaseAcks (a : Nat) (m : Mach) : rd a (releaseAcks m) = rd a m := by
  obtain ⟨_, _, h⟩ := releaseAcks_frame m
  rw [h]; rfl

theorem releaseAcks_keeps (m : Mach) : storesKept m (releaseAcks m) ∧ (releaseAcks m).twin = { m.twin with acks := [] } := by
  obtain ⟨_, _, h⟩ := releaseAcks_frame m
  rw [h]
  exact ⟨.refl m, rfl⟩

/-! ### The role in force (R453) -/

theorem setRole_same {r : Nat} {m : Mach} (h : role m = r) : setRole r m = m := if_pos h

theorem setRole_changes {r : Nat} {m : Mach} (h : role m ≠ r) : setRole r m =
    logCode 0x0301 1 0xFF 0xFFFF 0xFFFF [BitVec.ofNat 8 (role m), BitVec.ofNat 8 r]
      (fset HLT_TWIN_STATUS.role_act r (if r = 1 then m else releaseAcks m)) := if_neg h

/-- A register other than the one that shows the role, and the log's own. -/
theorem rd_setRole {a : Nat} (h0 : a ≠ HLT_TWIN_STATUS) (h1 : a ≠ HLT_LOG_WPTR) (h2 : a ≠ HLT_EVENTS) (r : Nat) (m : Mach) :
    rd a (setRole r m) = rd a m := by
  by_cases h : role m = r
  · rw [setRole_same h]
  · rw [setRole_changes h, rd_logCode h1 h2, rd_fset_other (f := HLT_TWIN_STATUS.role_act) h0]
    split
    · rfl
    · exact rd_releaseAcks a m

/-- A field of HLT_TWIN_STATUS above the role reads as before. -/
theorem fget_setRole_other {f : Fld} (hreg : f.reg = HLT_TWIN_STATUS) (hlo : 2 ≤ f.lo) (r : Nat) (m : Mach) :
    fget f (setRole r m) = fget f m := by
  by_cases h : role m = r
  · rw [setRole_same h]
  · rw [setRole_changes h, fget_of_rd (rd_logCode (by rw [hreg]; decide) (by rw [hreg]; decide) ..),
      fget_fset_other (f := HLT_TWIN_STATUS.role_act) (by decide) (.inr (.inl hlo))]
    split
    · rfl
    · exact fget_of_rd (rd_releaseAcks ..)

theorem role_setRole {r : Nat} (hr : r < 4) (m : Mach) : role (setRole r m) = r := by
  by_cases h : role m = r
  · rw [setRole_same h, h]
  · rw [setRole_changes h, role, fget_of_rd (rd_logCode (by decide) (by decide) ..),
      fget_fset_same (f := HLT_TWIN_STATUS.role_act) (by decide)]
    exact Nat.mod_eq_of_lt hr

theorem setRole_keeps (r : Nat) (m : Mach) : (setRole r m).res = m.res ∧ (setRole r m).tiles = m.tiles ∧
    (r = 1 → (setRole r m).twin = m.twin) := by
  by_cases h : role m = r
  · rw [setRole_same h]
    exact ⟨rfl, rfl, fun _ => rfl⟩
  · rw [setRole_changes h]
    have hlog := noted_logCode 0x0301 1 0xFF 0xFFFF 0xFFFF [BitVec.ofNat 8 (role m), BitVec.ofNat 8 r]
      (fset HLT_TWIN_STATUS.role_act r (if r = 1 then m else releaseAcks m))
    obtain ⟨⟨hres, -, -, htiles⟩, -⟩ := releaseAcks_keeps m
    by_cases h1 : r = 1
    · rw [if_pos h1] at hlog ⊢
      exact ⟨hlog.res, hlog.tiles, fun _ => hlog.twin⟩
    · rw [if_neg h1] at hlog ⊢
      exact ⟨hlog.res.trans hres, hlog.tiles.trans htiles, fun h2 => absurd h2 h1⟩

/-! ### A write of the role -/

theorem exec_twinRoleWrite {s : State} (h : reach HLT_TWIN_CFG s.m = true) (v : W) :
    exec (.twinRoleWrite v) s = .next (s.withM (twinCfgWrite v s.m)) := answer_gate_reach h (twinCfgWrite v)

theorem wfld_role (v : W) : wfld v 0 2 = v.toNat % 4 := by
  rw [wfld, BitVec.extractLsb'_toNat, Nat.shiftRight_zero]

theorem twinCfgWrite_refused {v : W} {m : Mach}
    (h : v.toNat % 4 = 3 ∨ (v.toNat % 4 ≠ fget HLT_TWIN_CFG.role m ∧ roleOpen m = false)) :
    twinCfgWrite v m = setEv HLT_TWIN_EVENTS.role_refused m := by
  unfold twinCfgWrite
  rw [wfld_role]
  exact if_pos h

/-- The settings taken, with their record. -/
def twinCfgTaken (v : W) (m : Mach) : Mach := saveSetting HLT_TWIN_CFG (wr HLT_TWIN_CFG (v &&& 0x3FFFFFF#32) m)

/-- The role taken. -/
def twinRoleTaken (v : W) (m : Mach) : Mach :=
  if v.toNat % 4 = fget HLT_TWIN_CFG.role m then twinCfgTaken v m else setRole (v.toNat % 4) (twinCfgTaken v m)

theorem twinCfgWrite_taken {v : W} {m : Mach} (h3 : v.toNat % 4 ≠ 3)
    (h : v.toNat % 4 = fget HLT_TWIN_CFG.role m ∨ roleOpen m = true) : twinCfgWrite v m =
      if fon HLT_TWIN_CFG.sync_ack (twinRoleTaken v m) then twinRoleTaken v m else releaseAcks (twinRoleTaken v m) := by
  unfold twinCfgWrite
  rw [wfld_role]
  refine if_neg ?_
  rintro (hc | ⟨hne, hclosed⟩)
  · exact h3 hc
  · rcases h with h | h
    · exact hne h
    · simp [h] at hclosed

theorem saveSetting_keeps (a : Nat) (m : Mach) : (saveSetting a m).regs = m.regs ∧ (saveSetting a m).res = m.res ∧
    (saveSetting a m).tiles = m.tiles := by
  unfold saveSetting
  split
  · exact ⟨rfl, rfl, rfl⟩
  · exact ⟨rfl, rfl, rfl⟩

theorem twinCfgTaken_keeps (v : W) (m : Mach) : rd HLT_TWIN_CFG (twinCfgTaken v m) = v &&& 0x3FFFFFF#32 ∧
    role (twinCfgTaken v m) = role m ∧ (twinCfgTaken v m).res = m.res ∧ (twinCfgTaken v m).tiles = m.tiles := by
  obtain ⟨hregs, hres, htiles⟩ := saveSetting_keeps HLT_TWIN_CFG (wr HLT_TWIN_CFG (v &&& 0x3FFFFFF#32) m)
  have hrd : ∀ a, rd a (twinCfgTaken v m) = rd a (wr HLT_TWIN_CFG (v &&& 0x3FFFFFF#32) m) := fun a => by
    rw [rd, twinCfgTaken, hregs, ← rd]
  refine ⟨(hrd _).trans (rd_wr_same ..), fget_of_rd ((hrd _).trans (rd_wr_other (by decide) _ m)), hres, htiles⟩

theorem twinRoleTaken_leaves {v : W} {m : Mach} : rd HLT_TWIN_CFG (twinRoleTaken v m) = v &&& 0x3FFFFFF#32 ∧
    role (twinRoleTaken v m) = (if v.toNat % 4 = fget HLT_TWIN_CFG.role m then role m else v.toNat % 4) ∧
    (twinRoleTaken v m).res = m.res ∧ (twinRoleTaken v m).tiles = m.tiles := by
  obtain ⟨hcfg, hrole, hres, htiles⟩ := twinCfgTaken_keeps v m
  unfold twinRoleTaken
  by_cases h : v.toNat % 4 = fget HLT_TWIN_CFG.role m
  · rw [if_pos h, if_pos h]
    exact ⟨hcfg, hrole, hres, htiles⟩
  · obtain ⟨hres', htiles', -⟩ := setRole_keeps (v.toNat % 4) (twinCfgTaken v m)
    rw [if_neg h, if_neg h]
    exact ⟨(rd_setRole (by decide) (by decide) (by decide) _ _).trans hcfg, role_setRole (by omega) _, hres'.trans hres,
      htiles'.trans htiles⟩

theorem twinCfgWrite_leaves {v : W} {m : Mach} (h3 : v.toNat % 4 ≠ 3)
    (h : v.toNat % 4 = fget HLT_TWIN_CFG.role m ∨ roleOpen m = true) : rd HLT_TWIN_CFG (twinCfgWrite v m) = v &&& 0x3FFFFFF#32 ∧
    role (twinCfgWrite v m) = (if v.toNat % 4 = fget HLT_TWIN_CFG.role m then role m else v.toNat % 4) ∧
    (twinCfgWrite v m).res = m.res ∧ (twinCfgWrite v m).tiles = m.tiles := by
  obtain ⟨hcfg, hrole, hres, htiles⟩ := twinRoleTaken_leaves (v := v) (m := m)
  obtain ⟨⟨hres', -, -, htiles'⟩, -⟩ := releaseAcks_keeps (twinRoleTaken v m)
  rw [twinCfgWrite_taken h3 h]
  split
  · exact ⟨hcfg, hrole, hres, htiles⟩
  · exact ⟨(rd_releaseAcks ..).trans hcfg, (fget_of_rd (rd_releaseAcks ..)).trans hrole, hres'.trans hres, htiles'.trans htiles⟩

/-! ### The start of a takeover (R463, R464) -/

/-- The device `u` has begun the takeover of trigger `n` from `m`. -/
def Takes (n : Nat) (m u : Mach) : Prop := u.twin.takeover = some n ∧ role u = 1 ∧ fget HLT_TWIN_STATUS.phase u = 1 ∧
  fon GCTL_DEV_STATE.busy u = true ∧ (hasToken m = false → u.twin.taking = true) ∧
  (fget HLT_MIR_STATUS.in_sync m ≠ 127 → fon HLT_TWIN_EVENTS.takeover_unready u = true) ∧ u.res = m.res ∧ u.tiles = m.tiles

/-- The takeover noted, before the role changes. -/
def takeoverNoted (n : Nat) (m : Mach) : Mach :=
  setTwin (fun t => { t with takeover := some n, ownGo := false }) (each paths64 (fun n s => setPd n { getPd n s with bestA := none } s) m)

/-- The device as PRIMARY, busy until F1. -/
def takeoverBusy (n : Nat) (m : Mach) : Mach :=
  fset GCTL_DEV_STATE.busy 1 (fset HLT_TWIN_STATUS.phase 1 (setRole 1 (takeoverNoted n m)))

theorem takeoverStart_eq (n : Nat) (m : Mach) : takeoverStart n m =
    setEvIf (decide (fget HLT_MIR_STATUS.in_sync m ≠ 127)) HLT_TWIN_EVENTS.takeover_unready (wantToken (takeoverBusy n m)) := rfl

theorem takeoverNoted_frame (n : Nat) (m : Mach) :
    ∃ p, takeoverNoted n m = { m with pd := p, twin := { m.twin with takeover := some n, ownGo := false } } := by
  have hpd : ∃ p, each paths64 (fun n s => setPd n { getPd n s with bestA := none } s) m = { m with pd := p } := by
    refine each_inv (fun u => ∃ p, u = { m with pd := p }) _ _ ?_ m ⟨_, rfl⟩
    rintro k - u ⟨p, rfl⟩
    exact ⟨_, rfl⟩
  obtain ⟨p, hp⟩ := hpd
  exact ⟨p, by rw [takeoverNoted, hp]; rfl⟩

theorem hasToken_takeoverBusy (n : Nat) (m : Mach) : hasToken (takeoverBusy n m) = hasToken m := by
  obtain ⟨_, hframe⟩ := takeoverNoted_frame n m
  have hbusy := hasToken_fset (f := GCTL_DEV_STATE.busy) (by decide) (by decide) 1 (fset HLT_TWIN_STATUS.phase 1 (setRole 1 (takeoverNoted n m)))
  have hphase := hasToken_fset (f := HLT_TWIN_STATUS.phase) (by decide) (by decide) 1 (setRole 1 (takeoverNoted n m))
  rw [takeoverBusy, hbusy, hphase, hasToken, fon, fget_setRole_other rfl (by decide), hframe]
  rfl

/-- What the wait for the token leaves: one bit of HLT_TWIN_STATUS and the wish. -/
theorem wantToken_shown (m : Mach) : (wantToken m).twin.takeover = m.twin.takeover ∧ role (wantToken m) = role m ∧
    fget HLT_TWIN_STATUS.phase (wantToken m) = fget HLT_TWIN_STATUS.phase m ∧ rd GCTL_DEV_STATE (wantToken m) = rd GCTL_DEV_STATE m := by
  unfold wantToken
  split
  · exact ⟨rfl, rfl, rfl, rfl⟩
  · exact ⟨rfl, fget_fsetB_other (f := HLT_TWIN_STATUS.tok_wait) (g := HLT_TWIN_STATUS.role_act) (by decide) (by decide) _ m,
      fget_fsetB_other (f := HLT_TWIN_STATUS.tok_wait) (g := HLT_TWIN_STATUS.phase) (by decide) (by decide) _ m,
      rd_fset_other (f := HLT_TWIN_STATUS.tok_wait) (by decide) _ m⟩

theorem takeoverBusy_shown (n : Nat) (m : Mach) : (takeoverBusy n m).twin.takeover = some n ∧ role (takeoverBusy n m) = 1 ∧
    fget HLT_TWIN_STATUS.phase (takeoverBusy n m) = 1 ∧ fon GCTL_DEV_STATE.busy (takeoverBusy n m) = true ∧
    (takeoverBusy n m).res = m.res ∧ (takeoverBusy n m).tiles = m.tiles := by
  obtain ⟨_, hframe⟩ := takeoverNoted_frame n m
  obtain ⟨hres, htiles, htwin⟩ := setRole_keeps 1 (takeoverNoted n m)
  have hphase := fget_fset_same (f := HLT_TWIN_STATUS.phase) (by decide) 1 (setRole 1 (takeoverNoted n m))
  refine ⟨?_, ?_, ?_, fon_fset_one (f := GCTL_DEV_STATE.busy) rfl (by decide) _, ?_, ?_⟩
  · exact (congrArg TwinSt.takeover (htwin rfl)).trans (by rw [hframe])
  · exact ((fget_fset_other_reg (f := GCTL_DEV_STATE.busy) (g := HLT_TWIN_STATUS.role_act) (by decide) _ _).trans
      (fget_fset_other (f := HLT_TWIN_STATUS.phase) (g := HLT_TWIN_STATUS.role_act) (by decide) (by decide) _ _)).trans
      (role_setRole (by decide) _)
  · exact (fget_fset_other_reg (f := GCTL_DEV_STATE.busy) (g := HLT_TWIN_STATUS.phase) (by decide) _ _).trans hphase
  · exact hres.trans (by rw [hframe])
  · exact htiles.trans (by rw [hframe])

theorem takes_takeoverStart (n : Nat) (m : Mach) : Takes n m (takeoverStart n m) := by
  obtain ⟨htake, hrole, hphase, hbusy, hres, htiles⟩ := takeoverBusy_shown n m
  obtain ⟨htake', hrole', hphase', hdev'⟩ := wantToken_shown (takeoverBusy n m)
  obtain ⟨-, ⟨hres', -, -, htiles'⟩, -, htaking⟩ := wantToken_leaves (takeoverBusy n m)
  have hkept := regsKept_setEvIf (decide (fget HLT_MIR_STATUS.in_sync m ≠ 127)) HLT_TWIN_EVENTS.takeover_unready
    (wantToken (takeoverBusy n m))
  obtain ⟨_, _, _, _, _, _, _, hframe⟩ := setEvIf_frame (decide (fget HLT_MIR_STATUS.in_sync m ≠ 127)) HLT_TWIN_EVENTS.takeover_unready
    (wantToken (takeoverBusy n m))
  obtain ⟨hres'', -, -, htiles''⟩ := storesKept_setEvIf (decide (fget HLT_MIR_STATUS.in_sync m ≠ 127)) HLT_TWIN_EVENTS.takeover_unready
    (wantToken (takeoverBusy n m))
  have htwin : (takeoverStart n m).twin = (wantToken (takeoverBusy n m)).twin := by rw [takeoverStart_eq, hframe]
  rw [Takes, htwin, takeoverStart_eq]
  refine ⟨htake'.trans htake, ?_, ?_, ?_, fun htok => ?_, fun hsync => ?_, ?_, ?_⟩
  · exact ((hkept.fget (f := HLT_TWIN_STATUS.role_act) (by decide)).trans hrole').trans hrole
  · exact ((hkept.fget (f := HLT_TWIN_STATUS.phase) (by decide)).trans hphase').trans hphase
  · rw [hkept.fon (f := GCTL_DEV_STATE.busy) (by decide), fon, fget_of_rd hdev']
    exact hbusy
  · exact htaking ((hasToken_takeoverBusy n m).trans htok)
  · rw [fon_setEvIf _ rfl (by decide) (by decide) (by decide), decide_eq_true hsync]
    rfl
  · exact (hres''.trans hres').trans hres
  · exact (htiles''.trans htiles').trans htiles

/-- What a takeover is judged by stands in `u` as in `m`. -/
theorem Takes.congr {n : Nat} {m u v : Mach} (h : Takes n u v) (htoken : hasToken u = hasToken m)
    (hsync : fget HLT_MIR_STATUS.in_sync u = fget HLT_MIR_STATUS.in_sync m) (hres : u.res = m.res) (htiles : u.tiles = m.tiles) :
    Takes n m v := by
  rw [Takes, htoken, hsync, hres, htiles] at h
  exact h

/-! ### The commands (R463) -/

theorem rd_refreshReady {a : Nat} (h : a ≠ HLT_TWIN_STATUS) (m : Mach) : rd a (refreshReady m) = rd a m :=
  rd_fset_other (f := HLT_TWIN_STATUS.twin_ready) h _ m

theorem fget_refreshReady {f : Fld} (h : f.reg ≠ HLT_TWIN_STATUS ∨ 10 ≤ f.lo ∨ f.lo + f.w ≤ 9) (m : Mach) :
    fget f (refreshReady m) = fget f m :=
  fget_fset_other (f := HLT_TWIN_STATUS.twin_ready) (by decide) h _ m

theorem fon_refreshReady {f : Fld} (h : f.reg ≠ HLT_TWIN_STATUS ∨ 10 ≤ f.lo ∨ f.lo + f.w ≤ 9) (m : Mach) :
    fon f (refreshReady m) = fon f m := by rw [fon, fget_refreshReady h, fon]

theorem role_refreshReady (m : Mach) : role (refreshReady m) = role m := fget_refreshReady (f := HLT_TWIN_STATUS.role_act) (by decide) m

theorem deckMis_refreshReady (m : Mach) : deckMis (refreshReady m) = deckMis m :=
  fon_refreshReady (f := HLT_TWIN_EVENTS.deck_mis) (by decide) m

/-- The state and what it holds, apart from the bit shown. -/
theorem refreshReady_frame (m : Mach) : ∃ r, refreshReady m = { m with regs := r } := ⟨_, rfl⟩

/-- TAKEOVER is carried out. -/
def TakeoverOk (m : Mach) : Prop := role m = 2 ∧ fon HLT_TWIN_STATUS.twin_ready (refreshReady m) = true ∧ deckMis m = false

theorem takeoverCmd_ok {m : Mach} (h : TakeoverOk m) : Takes 1 m (takeoverCmd m) := by
  obtain ⟨hrole, hready, hdeck⟩ := h
  have hstart : takeoverCmd m = takeoverStart 1 (refreshReady m) :=
    if_pos ⟨(role_refreshReady m).trans hrole, hready, (deckMis_refreshReady m).trans hdeck⟩
  rw [hstart]
  exact (takes_takeoverStart 1 (refreshReady m)).congr (fon_refreshReady (f := HLT_TWIN_STATUS.token) (by decide) m)
    (fget_refreshReady (f := HLT_MIR_STATUS.in_sync) (by decide) m) rfl rfl

theorem takeoverCmd_refused {m : Mach} (h : ¬ TakeoverOk m) : fon HLT_TWIN_EVENTS.cmd_refused (takeoverCmd m) = true ∧
    (takeoverCmd m).twin = m.twin ∧ role (takeoverCmd m) = role m := by
  have hrefuse : takeoverCmd m = setEv HLT_TWIN_EVENTS.cmd_refused (refreshReady m) := by
    refine if_neg fun hc => h ?_
    obtain ⟨hrole, hready, hdeck⟩ := hc
    exact ⟨(role_refreshReady m).symm.trans hrole, hready, (deckMis_refreshReady m).symm.trans hdeck⟩
  obtain ⟨_, _, _, _, _, _, _, hframe⟩ := setEv_frame HLT_TWIN_EVENTS.cmd_refused (refreshReady m)
  rw [hrefuse]
  refine ⟨fon_setEv rfl (by decide) (by decide) (by decide) _, by rw [hframe]; rfl, ?_⟩
  exact ((regsKept_setEv HLT_TWIN_EVENTS.cmd_refused _).fget (f := HLT_TWIN_STATUS.role_act) (by decide)).trans (role_refreshReady m)

/-! ### The loss of the heartbeat (R459, R464) -/

/-- The partner forgotten, and the waiting answers sent. -/
def partnerLost (m : Mach) : Mach :=
  releaseAcks (fset HLT_MIR_STATUS.lanes_up 0 (fset HLT_TWIN_STATUS.partner_seen 0
    (setTwin (fun t => { t with partner := none }) (setEv HLT_TWIN_EVENTS.mirror_lost m))))

theorem heartbeatLoss_eq {m : Mach} (hon : mirrorOn m = true) (hseen : fon HLT_TWIN_STATUS.partner_seen m = true) :
    heartbeatLoss m = refreshReady (if role (partnerLost m) = 2 ∧ fon HLT_TWIN_CFG.auto_hb (partnerLost m) = true ∧
      deckMis (partnerLost m) = false then takeoverStart 0 (partnerLost m) else partnerLost m) :=
  if_pos (by rw [hon, hseen]; rfl)

theorem heartbeatLoss_not {m : Mach} (h : mirrorOn m = false ∨ fon HLT_TWIN_STATUS.partner_seen m = false) : heartbeatLoss m = m := by
  refine if_neg fun hc => ?_
  simp only [Bool.and_eq_true] at hc
  rcases h with h | h
  · simp [h] at hc
  · simp [h] at hc

/-- What the loss leaves of the registers: a notice, two fields and the log. -/
theorem regsKept_partnerLost (m : Mach) :
    regsKept [HLT_TWIN_EVENTS, HLT_LOG_WPTR, HLT_EVENTS, HLT_TWIN_STATUS, HLT_MIR_STATUS] m (partnerLost m) := by
  have hev := (regsKept_setEv HLT_TWIN_EVENTS.mirror_lost m).mono
    (l' := [HLT_TWIN_EVENTS, HLT_LOG_WPTR, HLT_EVENTS, HLT_TWIN_STATUS, HLT_MIR_STATUS]) (by decide)
  refine (hev.trans ((regsKept_fset HLT_TWIN_STATUS.partner_seen 0
    (setTwin (fun t => { t with partner := none }) (setEv HLT_TWIN_EVENTS.mirror_lost m))).mono (by decide))).trans
    (((regsKept_fset HLT_MIR_STATUS.lanes_up 0 _).mono (by decide)).trans fun a _ => rd_releaseAcks a _)

/-- Fields of the two registers that are not the ones cleared. -/
theorem fget_partnerLost {f : Fld} (h1 : f.reg ≠ HLT_TWIN_EVENTS) (h2 : f.reg ≠ HLT_LOG_WPTR) (h3 : f.reg ≠ HLT_EVENTS)
    (hseen : f.reg ≠ HLT_TWIN_STATUS ∨ 7 ≤ f.lo ∨ f.lo + f.w ≤ 6) (hlanes : f.reg ≠ HLT_MIR_STATUS ∨ 10 ≤ f.lo ∨ f.lo + f.w ≤ 8)
    (m : Mach) : fget f (partnerLost m) = fget f m := by
  rw [partnerLost, fget_of_rd (rd_releaseAcks ..), fget_fset_other (f := HLT_MIR_STATUS.lanes_up) (by decide) hlanes,
    fget_fset_other (f := HLT_TWIN_STATUS.partner_seen) (by decide) hseen]
  exact fget_of_rd (rd_setEv (f := HLT_TWIN_EVENTS.mirror_lost) h1 h2 h3 m)

theorem partnerLost_leaves (m : Mach) : (partnerLost m).twin.partner = none ∧ fon HLT_TWIN_STATUS.partner_seen (partnerLost m) = false ∧
    fon HLT_TWIN_EVENTS.mirror_lost (partnerLost m) = true ∧ (partnerLost m).twin.acks = [] ∧
    fget HLT_MIR_STATUS.lanes_up (partnerLost m) = 0 ∧ (partnerLost m).twin.takeover = m.twin.takeover ∧
    (partnerLost m).res = m.res ∧ (partnerLost m).tiles = m.tiles := by
  obtain ⟨⟨hres, -, -, htiles⟩, htwin⟩ := releaseAcks_keeps (fset HLT_MIR_STATUS.lanes_up 0 (fset HLT_TWIN_STATUS.partner_seen 0
    (setTwin (fun t => { t with partner := none }) (setEv HLT_TWIN_EVENTS.mirror_lost m))))
  have hev := noted_setEv HLT_TWIN_EVENTS.mirror_lost m
  refine ⟨by rw [partnerLost, htwin]; rfl, ?_, ?_, by rw [partnerLost, htwin], ?_, ?_, hres.trans hev.res, htiles.trans hev.tiles⟩
  · rw [fon, partnerLost, fget_of_rd (rd_releaseAcks ..), fget_fset_other_reg (f := HLT_MIR_STATUS.lanes_up) (by decide), ← fon]
    exact fon_fset_zero (f := HLT_TWIN_STATUS.partner_seen) (by decide) _
  · rw [fon, partnerLost, fget_of_rd (rd_releaseAcks ..), fget_fset_other_reg (f := HLT_MIR_STATUS.lanes_up) (by decide),
      fget_fset_other_reg (f := HLT_TWIN_STATUS.partner_seen) (by decide), ← fon]
    exact fon_setEv (f := HLT_TWIN_EVENTS.mirror_lost) rfl (by decide) (by decide) (by decide) m
  · rw [partnerLost, fget_of_rd (rd_releaseAcks ..)]
    exact fget_fset_same (f := HLT_MIR_STATUS.lanes_up) (by decide) 0 _
  · have htake := congrArg TwinSt.takeover hev.twin
    rw [partnerLost, htwin]
    exact htake

/-- What a takeover's start leaves of the partner's loss. -/
theorem takeoverStart_keeps (n : Nat) (m : Mach) : (takeoverStart n m).twin.partner = m.twin.partner ∧
    (takeoverStart n m).twin.acks = m.twin.acks ∧
    fon HLT_TWIN_STATUS.partner_seen (takeoverStart n m) = fon HLT_TWIN_STATUS.partner_seen m ∧
    fon HLT_TWIN_EVENTS.mirror_lost (takeoverStart n m) = fon HLT_TWIN_EVENTS.mirror_lost m ∧
    rd HLT_MIR_STATUS (takeoverStart n m) = rd HLT_MIR_STATUS m := by
  obtain ⟨_, hnoted⟩ := takeoverNoted_frame n m
  obtain ⟨-, -, htwin⟩ := setRole_keeps 1 (takeoverNoted n m)
  obtain ⟨hwant, -⟩ := wantToken_leaves (takeoverBusy n m)
  have hkept := regsKept_setEvIf (decide (fget HLT_MIR_STATUS.in_sync m ≠ 127)) HLT_TWIN_EVENTS.takeover_unready
    (wantToken (takeoverBusy n m))
  obtain ⟨_, _, _, _, _, _, _, hframe⟩ := setEvIf_frame (decide (fget HLT_MIR_STATUS.in_sync m ≠ 127)) HLT_TWIN_EVENTS.takeover_unready
    (wantToken (takeoverBusy n m))
  have hwanted : (wantToken (takeoverBusy n m)).twin.partner = (takeoverBusy n m).twin.partner ∧
      (wantToken (takeoverBusy n m)).twin.acks = (takeoverBusy n m).twin.acks ∧
      fon HLT_TWIN_STATUS.partner_seen (wantToken (takeoverBusy n m)) = fon HLT_TWIN_STATUS.partner_seen (takeoverBusy n m) := by
    unfold wantToken
    split
    · exact ⟨rfl, rfl, rfl⟩
    · exact ⟨rfl, rfl, fon_fsetB_other (f := HLT_TWIN_STATUS.tok_wait) (by decide) (by decide) _ _⟩
  have hbusyTwin : (takeoverBusy n m).twin = (takeoverNoted n m).twin := htwin rfl
  have hbusyRd : ∀ a, a ≠ HLT_TWIN_STATUS → a ≠ GCTL_DEV_STATE → a ≠ HLT_LOG_WPTR → a ≠ HLT_EVENTS →
      rd a (takeoverBusy n m) = rd a m := fun a h0 h1 h2 h3 => by
    rw [takeoverBusy, rd_fset_other (f := GCTL_DEV_STATE.busy) h1, rd_fset_other (f := HLT_TWIN_STATUS.phase) h0,
      rd_setRole h0 h2 h3, hnoted]
    rfl
  rw [takeoverStart_eq]
  refine ⟨?_, ?_, ?_, ?_, ?_⟩
  · rw [hframe]
    exact hwanted.1.trans (by rw [hbusyTwin, hnoted])
  · rw [hframe]
    exact hwanted.2.1.trans (by rw [hbusyTwin, hnoted])
  · rw [hkept.fon (f := HLT_TWIN_STATUS.partner_seen) (by decide), hwanted.2.2, takeoverBusy,
      fon_fset_other (f := GCTL_DEV_STATE.busy) (by decide) (by decide), fon_fset_other (f := HLT_TWIN_STATUS.phase) (by decide) (by decide),
      fon, fget_setRole_other rfl (by decide), hnoted]
    rfl
  · rw [fon_setEvIf_other _ (by decide) (by decide) (by decide) (by decide), hwant.fon (f := HLT_TWIN_EVENTS.mirror_lost) (by decide), fon,
      fget_of_rd (hbusyRd _ (by decide) (by decide) (by decide) (by decide)), fon]
  · rw [hkept _ (by decide), hwant _ (by decide)]
    exact hbusyRd _ (by decide) (by decide) (by decide) (by decide)

theorem Takes.shown {n : Nat} {m u : Mach} (h : Takes n m u) : Takes n m (refreshReady u) := by
  obtain ⟨htake, hrole, hphase, hbusy, htaking, hunready, hres, htiles⟩ := h
  exact ⟨htake, (role_refreshReady u).trans hrole, (fget_refreshReady (f := HLT_TWIN_STATUS.phase) (by decide) u).trans hphase,
    (fon_refreshReady (f := GCTL_DEV_STATE.busy) (by decide) u).trans hbusy, htaking,
    fun hs => (fon_refreshReady (f := HLT_TWIN_EVENTS.takeover_unready) (by decide) u).trans (hunready hs), hres, htiles⟩

theorem heartbeatLoss_leaves {m : Mach} (hon : mirrorOn m = true) (hseen : fon HLT_TWIN_STATUS.partner_seen m = true) :
    (heartbeatLoss m).twin.partner = none ∧ fon HLT_TWIN_STATUS.partner_seen (heartbeatLoss m) = false ∧
    fon HLT_TWIN_EVENTS.mirror_lost (heartbeatLoss m) = true ∧ (heartbeatLoss m).twin.acks = [] ∧
    fget HLT_MIR_STATUS.lanes_up (heartbeatLoss m) = 0 ∧
    (role m = 2 → fon HLT_TWIN_CFG.auto_hb m = true → deckMis m = false → Takes 0 m (heartbeatLoss m)) ∧
    (role m ≠ 2 → role (heartbeatLoss m) = role m ∧ (heartbeatLoss m).twin.takeover = m.twin.takeover) := by
  obtain ⟨hpartner, hseen', hlost, hacks, hlanes, htake, hres, htiles⟩ := partnerLost_leaves m
  obtain ⟨hkpartner, hkacks, hkseen, hklost, hkmir⟩ := takeoverStart_keeps 0 (partnerLost m)
  have hrole : role (partnerLost m) = role m :=
    fget_partnerLost (f := HLT_TWIN_STATUS.role_act) (by decide) (by decide) (by decide) (by decide) (by decide) m
  have hauto : fon HLT_TWIN_CFG.auto_hb (partnerLost m) = fon HLT_TWIN_CFG.auto_hb m := (regsKept_partnerLost m).fon (by decide)
  have hdeck : deckMis (partnerLost m) = deckMis m := by
    rw [deckMis, fon, partnerLost, fget_of_rd (rd_releaseAcks ..), fget_fset_other_reg (f := HLT_MIR_STATUS.lanes_up) (by decide),
      fget_fset_other_reg (f := HLT_TWIN_STATUS.partner_seen) (by decide), ← fon]
    exact fon_setEv_other (f := HLT_TWIN_EVENTS.mirror_lost) (by decide) (by decide) (by decide) (by decide) m
  rw [heartbeatLoss_eq hon hseen, hrole, hauto, hdeck]
  refine ⟨?_, ?_, ?_, ?_, ?_, fun h2 h3 h4 => ?_, fun h2 => ?_⟩
  · split
    · exact hkpartner.trans hpartner
    · exact hpartner
  · rw [fon_refreshReady (by decide)]
    split
    · exact hkseen.trans hseen'
    · exact hseen'
  · rw [fon_refreshReady (by decide)]
    split
    · exact hklost.trans hlost
    · exact hlost
  · split
    · exact hkacks.trans hacks
    · exact hacks
  · rw [fget_refreshReady (by decide)]
    split
    · exact (fget_of_rd hkmir).trans hlanes
    · exact hlanes
  · rw [if_pos ⟨h2, h3, h4⟩]
    refine Takes.shown ((takes_takeoverStart 0 (partnerLost m)).congr ?_ ?_ hres htiles)
    · rw [hasToken, fon, fget_partnerLost (by decide) (by decide) (by decide) (by decide) (by decide), hasToken, fon]
    · exact fget_partnerLost (by decide) (by decide) (by decide) (by decide) (by decide) m
  · rw [if_neg fun hc => h2 hc.1]
    exact ⟨(role_refreshReady _).trans hrole, htake⟩

end Sys2Proof.Machine

/-! SUPPORT. What shows as in sync, the heartbeats, the resyncs and the acknowledgements of the mirror (R458 to R462). -/

namespace Sys2Proof.Machine

/-! ### A field of one bit for each class -/

theorem bitSum_lt (p : Nat → Bool) (n : Nat) : (((List.range n).filter p).map fun c => 2 ^ c).sum < 2 ^ n := by
  induction n with
  | zero => exact Nat.one_pos
  | succ n ih =>
    rw [List.range_succ, List.filter_append, List.map_append, List.sum_append, Nat.pow_succ]
    cases hp : p n
    · simp [hp]; omega
    · simp [hp]; omega

theorem testBit_bitSum (p : Nat → Bool) {c n : Nat} (h : c < n) :
    (((List.range n).filter p).map fun c => 2 ^ c).sum.testBit c = p c := by
  induction n with
  | zero => omega
  | succ n ih =>
    have hlow := bitSum_lt p n
    rw [List.range_succ, List.filter_append, List.map_append, List.sum_append]
    by_cases hc : c = n
    · subst hc
      cases hp : p c
      · simp [hp, Nat.testBit_lt_two_pow hlow]
      · simp [hp, Nat.add_comm _ (2 ^ c), Nat.testBit_two_pow_add_eq, Nat.testBit_lt_two_pow hlow]
    · rw [← ih (by omega)]
      cases hp : p n
      · simp [hp]
      · simp [hp, Nat.add_comm _ (2 ^ n), Nat.testBit_two_pow_add_gt (show c < n by omega)]

/-! ### What shows as in sync (R461) -/

/-- Class `c` shows as in sync. -/
def syncShown (c : Nat) (m : Mach) : Bool := m.twin.synced.contains c && (decide (c < 2) || decide (m.twin.lag < 100))

theorem inSync_showSync {c : Nat} (h : c < 7) (m : Mach) : (rd HLT_MIR_STATUS (showSync m)).getLsbD c = syncShown c m := by
  have hrd : rd HLT_MIR_STATUS (showSync m) =
      wset (rd HLT_MIR_STATUS m) 0 7 (((List.range 7).filter fun c => syncShown c m).map fun c => 2 ^ c).sum :=
    (rd_fset_other (f := DIR_MIRROR_STATUS.in_sync) (by decide) _ _).trans (rd_fset_same HLT_MIR_STATUS.in_sync _ m)
  rw [hrd, getLsbD_wset _ _ _ _ _ (by decide), if_pos ⟨Nat.zero_le c, h⟩, Nat.sub_zero, BitVec.getLsbD_ofNat, decide_eq_true h,
    Bool.true_and]
  exact testBit_bitSum (fun c => syncShown c m) h

theorem inSync_setInSync {c : Nat} (h : c < 7) (b : Bool) (m : Mach) : (rd HLT_MIR_STATUS (setInSync c b m)).getLsbD c =
    (b && (decide (c < 2) || decide (m.twin.lag < 100))) := by
  rw [setInSync, inSync_showSync h]
  cases b
  · simp [syncShown]
  · simp [syncShown]

/-! ### What a change of the mirror's own state leaves -/

/-- The registers that show the mirror's state and the table that a resync empties, with the log's own. -/
def mirRegs : List Nat := [HLT_MIR_STATUS, DIR_MIRROR_STATUS, DIR_EVENTS, DIR_STATUS, RES_PART_USE 0, HLT_LOG_WPTR, HLT_EVENTS]

/-- Stores, time, the partner's last heartbeat and the lag are as they were, and so are all registers but those of the mirror. -/
structure Synced (m u : Mach) : Prop where
  stores : storesKept m u
  tod : u.tod = m.tod
  partner : u.twin.partner = m.twin.partner
  lag : u.twin.lag = m.twin.lag
  regs : regsKept mirRegs m u
  lagShown : fget HLT_MIR_STATUS.lag u = fget HLT_MIR_STATUS.lag m

theorem Synced.refl (m : Mach) : Synced m m := ⟨.refl m, rfl, rfl, rfl, .refl _ m, rfl⟩

theorem Synced.trans {m u v : Mach} (h : Synced m u) (h' : Synced u v) : Synced m v :=
  ⟨h.stores.trans h'.stores, h'.tod.trans h.tod, h'.partner.trans h.partner, h'.lag.trans h.lag, h.regs.trans h'.regs,
    h'.lagShown.trans h.lagShown⟩

theorem synced_each {α : Type} {l : List α} {f : α → Mach → Mach} (h : ∀ a m, Synced m (f a m)) (m : Mach) : Synced m (each l f m) :=
  each_inv (Synced m) l f (fun a _ _ hu => hu.trans (h a _)) m (.refl m)

theorem synced_fset {f : Fld} (h : f.reg ∈ mirRegs) (hlag : f.reg ≠ HLT_MIR_STATUS ∨ f.lo + f.w ≤ 16) (x : Nat) (m : Mach) :
    Synced m (fset f x m) := by
  refine ⟨.refl m, rfl, rfl, rfl, (regsKept_fset f x m).mono fun a ha => by rw [List.mem_singleton.1 ha]; exact h, ?_⟩
  rcases hlag with hlag | hlag
  · exact fget_fset_other_reg (fun hc => hlag hc.symm) x m
  · exact fget_fset_other (f := f) (by omega) (.inr (.inl hlag)) x m

theorem synced_showSync (m : Mach) : Synced m (showSync m) :=
  (synced_fset (f := HLT_MIR_STATUS.in_sync) (by decide) (by decide) _ m).trans
    (synced_fset (f := DIR_MIRROR_STATUS.in_sync) (by decide) (by decide) _ _)

theorem synced_setInSync (c : Nat) (b : Bool) (m : Mach) : Synced m (setInSync c b m) := by
  have hlist : ∀ l, Synced m { m with twin := { m.twin with synced := l } } := fun l =>
    ⟨.refl m, rfl, rfl, rfl, fun _ _ => rfl, rfl⟩
  exact (hlist _).trans (synced_showSync _)

theorem synced_send (o : OutMsg) (m : Mach) : Synced m (send o m) := ⟨.refl m, rfl, rfl, rfl, fun _ _ => rfl, rfl⟩

theorem synced_mirror (cls : Nat) (b : MirBody) (m : Mach) : Synced m (mirror cls b m) := by
  unfold mirror
  split
  · exact ⟨.refl m, rfl, rfl, rfl, fun _ _ => rfl, rfl⟩
  · exact .refl m

theorem synced_resync (l : List Nat) (m : Mach) : Synced m (setTwin (fun t => { t with resync := l }) m) :=
  ⟨.refl m, rfl, rfl, rfl, fun _ _ => rfl, rfl⟩

theorem synced_setEv_mirResync (m : Mach) : Synced m (setEv DIR_EVENTS.mirror_resync m) := by
  have hn := noted_setEv DIR_EVENTS.mirror_resync m
  have hregs : regsKept mirRegs m (setEv DIR_EVENTS.mirror_resync m) := (regsKept_setEv DIR_EVENTS.mirror_resync m).mono (by decide)
  refine ⟨storesKept_setEv _ m, hn.tod, congrArg TwinSt.partner hn.twin, congrArg TwinSt.lag hn.twin, hregs, ?_⟩
  exact fget_of_rd (rd_setEv (f := DIR_EVENTS.mirror_resync) (by decide) (by decide) (by decide) m)

theorem synced_refreshDir (m : Mach) : Synced m (refreshDir m) :=
  ((synced_fset (f := DIR_STATUS.count) (by decide) (by decide) _ m).trans
    (synced_fset (f := ⟨RES_PART_USE 0, 0, 27⟩) (by decide) (.inl (by decide)) _ _)).trans
    (synced_fset (f := DIR_STATUS.over_quota) (by decide) (by decide) _ _)

theorem synced_emptied (m : Mach) : Synced m { m with dir := { m.dir with ent := [] } } := ⟨.refl m, rfl, rfl, rfl, fun _ _ => rfl, rfl⟩

theorem synced_copyIn (m : Mach) : Synced m (copyIn m) :=
  (((synced_emptied m).trans (synced_refreshDir _)).trans (synced_setInSync 3 false _)).trans
    (synced_fset (f := DIR_MIRROR_STATUS.resync) (by decide) (by decide) 1 _)

theorem dirResync_eq (m : Mach) : dirResync m = send (.resyncReq 3) (setEv DIR_EVENTS.mirror_resync (copyIn m)) := rfl

theorem synced_dirResync (m : Mach) : Synced m (dirResync m) := by
  rw [dirResync_eq]
  exact ((synced_copyIn m).trans (synced_setEv_mirResync _)).trans (synced_send ..)

theorem synced_dirStream (m : Mach) : Synced m (dirStream m) := by
  have hcopy : Synced m { m with twin := { m.twin with copyTo := some (rd DIR_SEQ m) } } := ⟨.refl m, rfl, rfl, rfl, fun _ _ => rfl, rfl⟩
  exact ((hcopy.trans (synced_setInSync 3 false _)).trans (synced_send ..)).trans (synced_each (fun e u => synced_send ..) _)

theorem synced_sendPool (m : Mach) : Synced m (sendPool m) := synced_each (fun _ u => synced_mirror _ _ u) m

theorem synced_sendBanks (m : Mach) : Synced m (sendBanks m) :=
  synced_each (fun _ u => ((synced_mirror _ _ u).trans (synced_mirror ..)).trans (synced_mirror ..)) m

/-- R459, R460: every class resyncs. -/
theorem synced_resyncAll (m : Mach) : Synced m (resyncAll m) := by
  have hall : ∀ b u, Synced u (each [2, 4, 5, 6] (fun c s => setInSync c b s) u) := fun b u =>
    synced_each (fun c v => synced_setInSync c b v) u
  have hcleared : ∀ l g u, Synced u (setTwin (fun t => { t with resync := l, mirGot := g }) u) := fun _ _ _ =>
    ⟨.refl _, rfl, rfl, rfl, fun _ _ => rfl, rfl⟩
  unfold resyncAll
  split
  · exact ((((hall true m).trans (synced_resync [6] _)).trans (synced_dirStream _)).trans (synced_sendPool _)).trans (synced_sendBanks _)
  · exact ((hall false m).trans (hcleared [2, 4, 5, 6] [] _)).trans (synced_dirResync _)

/-! ### Heartbeats sent (R459) -/

/-- The mirror link is on, on a lane at least. -/
def Linked (m : Mach) : Prop := mirrorOn m = true ∧ laneMask m ≠ 0

theorem linked_iff (m : Mach) : (mirrorOn m && laneMask m != 0) = true ↔ Linked m := by
  rw [Bool.and_eq_true, bne_iff_ne, Linked]

theorem heartbeatTx_not {m : Mach} (h : ¬ Linked m) : heartbeatTx m = m := if_neg (mt (linked_iff m).1 h)

theorem heartbeatTx_sends {m : Mach} (h : Linked m) : heartbeatTx m = send (.heartbeat (heartbeat (refreshReady m))) (refreshReady m) :=
  if_pos ((linked_iff m).2 h)

theorem heartbeatRx_not {m : Mach} (h : ¬ Linked m) (hb : Heartbeat) (lag : Nat) : heartbeatRx hb lag m = m :=
  if_neg (mt (linked_iff m).1 h)

/-- What the heartbeat says of the device. -/
theorem heartbeat_says {m : Mach} (h : Linked m) : (heartbeat (refreshReady m)).role.val = role m % 3 ∧ (heartbeat (refreshReady m)).state.val = devState m ∧
    (heartbeat (refreshReady m)).token = hasToken m ∧ (heartbeat (refreshReady m)).ready = fon HLT_TWIN_STATUS.twin_ready (refreshReady m) ∧
    (heartbeat (refreshReady m)).tick = BitVec.ofNat 64 (tick m) := by
  have hstate : devState (refreshReady m) = devState m := fget_refreshReady (f := GCTL_DEV_STATE.state) (by decide) m
  have hlt : devState m < 8 := by
    have hon : 4 ≤ devState m ∧ devState m ≤ 6 := of_decide_eq_true h.1
    omega
  refine ⟨?_, ?_, fon_refreshReady (f := HLT_TWIN_STATUS.token) (by decide) m, rfl, rfl⟩
  · exact congrArg (· % 3) (role_refreshReady m)
  · exact (congrArg (· % 8) hstate).trans (Nat.mod_eq_of_lt hlt)

/-! ### Heartbeats received (R454, R458, R461) -/

/-- The heartbeat noted: the lag, the partner and the lanes up. -/
def hbNoted (hb : Heartbeat) (lag : Nat) (m : Mach) : Mach :=
  fset HLT_MIR_STATUS.lanes_up (laneMask m) (fset HLT_TWIN_STATUS.partner_role hb.role.val
    (fset HLT_TWIN_STATUS.partner_seen 1 (setTwin (fun t => { t with partner := some hb }) (noteLag lag m))))

/-- Whether the link was up before with the partner paired. -/
def wasPaired (m : Mach) : Bool := mirUp m && (match m.twin.partner with
  | some h => paired h m
  | none => false)

theorem heartbeatRx_eq {m : Mach} (h : Linked m) (hb : Heartbeat) (lag : Nat) : heartbeatRx hb lag m =
    refreshReady (if paired hb (roleCheck hb (hbNoted hb lag m)) then
        if wasPaired m then syncCheck hb (roleCheck hb (hbNoted hb lag m))
        else resyncAll (syncCheck hb (roleCheck hb (hbNoted hb lag m)))
      else roleCheck hb (hbNoted hb lag m)) := if_pos ((linked_iff m).2 h)

theorem noteLag_leaves (lag : Nat) (m : Mach) : storesKept m (noteLag lag m) ∧ (noteLag lag m).tod = m.tod ∧
    (noteLag lag m).twin.lag = lag ∧ fget HLT_MIR_STATUS.lag (noteLag lag m) = min 255 lag ∧ regsKept mirRegs m (noteLag lag m) := by
  have hshow := synced_showSync (fset DIR_MIRROR_STATUS.lag (min 255 lag) (fset HLT_MIR_STATUS.lag (min 255 lag)
    (setTwin (fun t => { t with lag := lag }) m)))
  have hshown : fget HLT_MIR_STATUS.lag (fset HLT_MIR_STATUS.lag (min 255 lag) (setTwin (fun t => { t with lag := lag }) m)) = min 255 lag :=
    (fget_fset_same (f := HLT_MIR_STATUS.lag) (by decide) _ _).trans (Nat.mod_eq_of_lt (by
      change min 255 lag < 256
      omega))
  refine ⟨hshow.stores, hshow.tod, hshow.lag, ?_, ?_⟩
  · exact hshow.lagShown.trans ((fget_fset_other_reg (f := DIR_MIRROR_STATUS.lag) (by decide) _ _).trans hshown)
  · refine regsKept.trans ?_ hshow.regs
    exact ((regsKept_fset HLT_MIR_STATUS.lag _ (setTwin (fun t => { t with lag := lag }) m)).mono (by decide)).trans
      ((regsKept_fset DIR_MIRROR_STATUS.lag _ _).mono (by decide))

theorem hbNoted_leaves (hb : Heartbeat) (lag : Nat) (m : Mach) : storesKept m (hbNoted hb lag m) ∧ tick (hbNoted hb lag m) = tick m ∧
    (hbNoted hb lag m).twin.partner = some hb ∧ (hbNoted hb lag m).twin.lag = lag ∧
    fget HLT_MIR_STATUS.lag (hbNoted hb lag m) = min 255 lag ∧ fon HLT_TWIN_STATUS.partner_seen (hbNoted hb lag m) = true ∧
    fget HLT_TWIN_STATUS.partner_role (hbNoted hb lag m) = hb.role.val ∧ role (hbNoted hb lag m) = role m ∧
    regsKept (HLT_TWIN_STATUS :: mirRegs) m (hbNoted hb lag m) := by
  obtain ⟨hstores, htod, hlag, hshown, hregs⟩ := noteLag_leaves lag m
  have hup : ∀ f : Fld, f.reg = HLT_TWIN_STATUS → ∀ u, fget f (fset HLT_MIR_STATUS.lanes_up (laneMask m) u) = fget f u :=
    fun f hf u => fget_fset_other_reg (by rw [hf]; decide) _ u
  refine ⟨hstores, ?_, rfl, hlag, ?_, ?_, ?_, ?_, ?_⟩
  · rw [tick, tick]
    exact congrArg (· / 2) htod
  · rw [hbNoted, fget_fset_other (f := HLT_MIR_STATUS.lanes_up) (by decide) (by decide), fget_fset_other_reg (by decide),
      fget_fset_other_reg (by decide)]
    exact hshown
  · rw [fon, hbNoted, hup _ rfl, fget_fset_other (f := HLT_TWIN_STATUS.partner_role) (by decide) (by decide), ← fon]
    exact fon_fset_one (f := HLT_TWIN_STATUS.partner_seen) rfl (by decide) _
  · rw [hbNoted, hup _ rfl, fget_fset_same (f := HLT_TWIN_STATUS.partner_role) (by decide)]
    exact Nat.mod_eq_of_lt (Nat.lt_trans hb.role.isLt (by decide))
  · rw [role, hbNoted, hup _ rfl, fget_fset_other (f := HLT_TWIN_STATUS.partner_role) (by decide) (by decide),
      fget_fset_other (f := HLT_TWIN_STATUS.partner_seen) (by decide) (by decide)]
    exact hregs.fget (f := HLT_TWIN_STATUS.role_act) (by decide)
  · refine (hregs.mono (by decide)).trans ?_
    exact (((regsKept_fset HLT_TWIN_STATUS.partner_seen 1 (setTwin (fun t => { t with partner := some hb }) (noteLag lag m))).mono
      (by decide)).trans ((regsKept_fset HLT_TWIN_STATUS.partner_role _ _).mono (by decide))).trans
      ((regsKept_fset HLT_MIR_STATUS.lanes_up _ _).mono (by decide))

theorem paired_roles {hb : Heartbeat} {m : Mach} (h : paired hb m = true) : role m ≠ hb.role.val ∧ hb.role.val ≠ 0 := by
  simp only [paired, Bool.or_eq_true, Bool.and_eq_true, beq_iff_eq] at h
  omega

theorem roleCheck_paired {hb : Heartbeat} {m : Mach} (h : paired hb m = true) : roleCheck hb m = m := if_pos (paired_roles h)

theorem paired_of_role {hb : Heartbeat} {m u : Mach} (h : role u = role m) : paired hb u = paired hb m := by
  rw [paired, h, paired]

/-- R461: classes 0 and 1 compared. -/
def comparedSync (hb : Heartbeat) (m : Mach) : Mach :=
  setInSync 1 (hb.deck.toNat == deckIdent m) (setInSync 0 (decide (tick m ≤ hb.tick.toNat + 1 ∧ hb.tick.toNat ≤ tick m + 1)) m)

theorem syncCheck_eq (hb : Heartbeat) (m : Mach) : syncCheck hb m =
    setEvIf (!(hb.deck.toNat == deckIdent m)) HLT_TWIN_EVENTS.deck_mis
      (setEvIf (!decide (tick m ≤ hb.tick.toNat + 1 ∧ hb.tick.toNat ≤ tick m + 1)) HLT_TWIN_EVENTS.time_mis (comparedSync hb m)) := rfl

/-- Events of the twin leave the mirror's own state alone. -/
theorem syncCheck_leaves (hb : Heartbeat) (m : Mach) : storesKept m (syncCheck hb m) ∧
    (syncCheck hb m).twin.partner = m.twin.partner ∧ (syncCheck hb m).twin.lag = m.twin.lag ∧
    fget HLT_MIR_STATUS.lag (syncCheck hb m) = fget HLT_MIR_STATUS.lag m ∧ regsKept (HLT_TWIN_EVENTS :: mirRegs) m (syncCheck hb m) ∧
    (hb.deck.toNat ≠ deckIdent m → fon HLT_TWIN_EVENTS.deck_mis (syncCheck hb m) = true) ∧
    (tick m + 1 < hb.tick.toNat ∨ hb.tick.toNat + 1 < tick m → fon HLT_TWIN_EVENTS.time_mis (syncCheck hb m) = true) := by
  have hcomp : Synced m (comparedSync hb m) := (synced_setInSync 0 _ m).trans (synced_setInSync 1 _ _)
  have hev : ∀ b (f : Fld) u, f.reg = HLT_TWIN_EVENTS → storesKept u (setEvIf b f u) ∧ (setEvIf b f u).twin = u.twin ∧
      regsKept [HLT_TWIN_EVENTS, HLT_LOG_WPTR, HLT_EVENTS] u (setEvIf b f u) := fun b f u hf => by
    refine ⟨storesKept_setEvIf b f u, (noted_setEvIf b f u).twin, ?_⟩
    have := regsKept_setEvIf b f u
    rw [hf] at this
    exact this
  obtain ⟨hs1, ht1, hr1⟩ := hev (!decide (tick m ≤ hb.tick.toNat + 1 ∧ hb.tick.toNat ≤ tick m + 1)) HLT_TWIN_EVENTS.time_mis
    (comparedSync hb m) rfl
  obtain ⟨hs2, ht2, hr2⟩ := hev (!(hb.deck.toNat == deckIdent m)) HLT_TWIN_EVENTS.deck_mis
    (setEvIf (!decide (tick m ≤ hb.tick.toNat + 1 ∧ hb.tick.toNat ≤ tick m + 1)) HLT_TWIN_EVENTS.time_mis (comparedSync hb m)) rfl
  rw [syncCheck_eq]
  refine ⟨(hcomp.stores.trans hs1).trans hs2, ?_, ?_, ?_, ?_, fun hd => ?_, fun ht => ?_⟩
  · rw [ht2, ht1]; exact hcomp.partner
  · rw [ht2, ht1]; exact hcomp.lag
  · rw [hr2.fget (by decide), hr1.fget (by decide)]; exact hcomp.lagShown
  · exact ((hcomp.regs.mono (by decide)).trans (hr1.mono (by decide))).trans (hr2.mono (by decide))
  · rw [fon_setEvIf _ rfl (by decide) (by decide) (by decide)]
    simp [hd]
  · rw [fon_setEvIf_other _ (by decide) (by decide) (by decide) (by decide), fon_setEvIf _ rfl (by decide) (by decide) (by decide)]
    have hfar : ¬ (tick m ≤ hb.tick.toNat + 1 ∧ hb.tick.toNat ≤ tick m + 1) := by omega
    simp [hfar]

theorem deckIdent_of_regs {l : List Nat} {m u : Mach} (h : regsKept l m u) (hlo : IMG_DECK_ID_LO ∉ l) (hhi : IMG_DECK_ID_HI ∉ l) :
    deckIdent u = deckIdent m := by rw [deckIdent, h _ hlo, h _ hhi, deckIdent]

/-- A partner's heartbeat, between one PRIMARY and one STANDBY. -/
theorem heartbeatRx_paired {m : Mach} (h : Linked m) {hb : Heartbeat} (hpair : paired hb m = true) (lag : Nat) :
    (heartbeatRx hb lag m).twin.partner = some hb ∧ fget HLT_MIR_STATUS.lag (heartbeatRx hb lag m) = min 255 lag ∧
    (heartbeatRx hb lag m).twin.lag = lag ∧ fon HLT_TWIN_STATUS.partner_seen (heartbeatRx hb lag m) = true ∧
    fget HLT_TWIN_STATUS.partner_role (heartbeatRx hb lag m) = hb.role.val ∧ role (heartbeatRx hb lag m) = role m ∧
    (hb.deck.toNat ≠ deckIdent m → fon HLT_TWIN_EVENTS.deck_mis (heartbeatRx hb lag m) = true) ∧
    (tick m + 1 < hb.tick.toNat ∨ hb.tick.toNat + 1 < tick m → fon HLT_TWIN_EVENTS.time_mis (heartbeatRx hb lag m) = true) ∧
    (heartbeatRx hb lag m).res = m.res ∧ (heartbeatRx hb lag m).tiles = m.tiles := by
  obtain ⟨hstores, htick, hpartner, hlag, hshown, hseen, hprole, hrole, hregs⟩ := hbNoted_leaves hb lag m
  have hpaired : paired hb (hbNoted hb lag m) = true := (paired_of_role hrole).trans hpair
  obtain ⟨hstores', hpartner', hlag', hshown', hregs', hdeck, htime⟩ := syncCheck_leaves hb (hbNoted hb lag m)
  rw [deckIdent_of_regs hregs (by decide) (by decide)] at hdeck
  rw [htick] at htime
  have hsync : ∃ u, heartbeatRx hb lag m = refreshReady u ∧ Synced (syncCheck hb (hbNoted hb lag m)) u := by
    rw [heartbeatRx_eq h, roleCheck_paired hpaired, if_pos hpaired]
    split
    · exact ⟨_, rfl, .refl _⟩
    · exact ⟨_, rfl, synced_resyncAll _⟩
  obtain ⟨u, hu, hs⟩ := hsync
  obtain ⟨hres, -, -, htiles⟩ := (hstores.trans hstores').trans hs.stores
  have hstatus : ∀ f : Fld, f.reg = HLT_TWIN_STATUS → fget f u = fget f (hbNoted hb lag m) := fun f hf =>
    (hs.regs.fget (by rw [hf]; decide)).trans (hregs'.fget (by rw [hf]; decide))
  rw [hu]
  refine ⟨(hs.partner.trans hpartner').trans hpartner, ?_, (hs.lag.trans hlag').trans hlag, ?_, ?_, ?_, fun hd => ?_, fun ht => ?_, hres,
    htiles⟩
  · rw [fget_refreshReady (by decide)]
    exact (hs.lagShown.trans hshown').trans hshown
  · rw [fon_refreshReady (by decide), fon, hstatus _ rfl]
    exact hseen
  · rw [fget_refreshReady (by decide), hstatus _ rfl]
    exact hprole
  · rw [role_refreshReady, role, hstatus _ rfl]
    exact hrole
  · rw [fon_refreshReady (by decide), hs.regs.fon (f := HLT_TWIN_EVENTS.deck_mis) (by decide)]
    exact hdeck hd
  · rw [fon_refreshReady (by decide), hs.regs.fon (f := HLT_TWIN_EVENTS.time_mis) (by decide)]
    exact htime ht

/-- A device that gives way keeps its twin's events (R454). -/
theorem rd_becomeStandby (m : Mach) : rd HLT_TWIN_EVENTS (becomeStandby m) = rd HLT_TWIN_EVENTS m := by
  have hdrop : ∀ u, rd HLT_TWIN_EVENTS (dropTakeover u) = rd HLT_TWIN_EVENTS u := fun u =>
    rd_fset_other (f := HLT_TWIN_STATUS.phase) (by decide) 0 (setTwin (fun t => { t with takeover := none, ownGo := false }) u)
  have hstop : ∀ u, rd HLT_TWIN_EVENTS (stopTaking u) = rd HLT_TWIN_EVENTS u := fun u => by
    unfold stopTaking
    dsimp only
    rw [rd_fset_other (f := HLT_TWIN_STATUS.tok_wait) (by decide)]
    split
    · rfl
    · exact rd_fset_other (f := HLT_TWIN_STATUS.sel) (by decide) _ _
  have hend : ∀ u, rd HLT_TWIN_EVENTS (endTrans u) = rd HLT_TWIN_EVENTS u := fun u =>
    rd_fset_other (f := GCTL_DEV_STATE.busy) (by decide) 0 { u with trans := none, transDue := false }
  have hleave : ∀ u, rd HLT_TWIN_EVENTS (leaveActive u) = rd HLT_TWIN_EVENTS u := fun u =>
    rd_fset_other (f := GCTL_DEV_STATE.busy) (by decide) 1 { u with trans := some .toWarmBack, transDue := false }
  have hbase : rd HLT_TWIN_EVENTS (dropTakeover (stopTaking (setRole 2 m))) = rd HLT_TWIN_EVENTS m := by
    rw [hdrop, hstop, rd_setRole (by decide) (by decide) (by decide)]
  unfold becomeStandby
  dsimp only
  split
  · split
    · rw [hleave, hend, hbase]
    · rw [hend, hbase]
  · split
    · rw [hleave, hbase]
    · rw [hbase]

theorem conflict_roleCheck {hb : Heartbeat} {m : Mach} (h : hb.role.val = role m ∨ hb.role.val = 0) :
    fon HLT_TWIN_EVENTS.role_conflict (roleCheck hb m) = true := by
  have hset := fon_setEv (f := HLT_TWIN_EVENTS.role_conflict) rfl (by decide) (by decide) (by decide) m
  unfold roleCheck
  rw [if_neg (by omega)]
  dsimp only
  split
  · rw [fon, fget_of_rd (rd_becomeStandby _)]
    exact hset
  · exact hset

/-- A partner of the same role, or none, is a conflict. -/
theorem heartbeatRx_conflict {m : Mach} (h : Linked m) {hb : Heartbeat} (hrole : hb.role.val = role m ∨ hb.role.val = 0) (lag : Nat) :
    fon HLT_TWIN_EVENTS.role_conflict (heartbeatRx hb lag m) = true := by
  obtain ⟨-, -, -, -, -, -, -, hkept, -⟩ := hbNoted_leaves hb lag m
  have hconf := conflict_roleCheck (hb := hb) (m := hbNoted hb lag m) (by rw [hkept]; exact hrole)
  have hcomp := ((synced_setInSync 0 (decide (tick (roleCheck hb (hbNoted hb lag m)) ≤ hb.tick.toNat + 1 ∧
    hb.tick.toNat ≤ tick (roleCheck hb (hbNoted hb lag m)) + 1)) (roleCheck hb (hbNoted hb lag m))).trans
    (synced_setInSync 1 (hb.deck.toNat == deckIdent (roleCheck hb (hbNoted hb lag m))) _)).regs.fon
      (f := HLT_TWIN_EVENTS.role_conflict) (by decide)
  have hcheck : fon HLT_TWIN_EVENTS.role_conflict (syncCheck hb (roleCheck hb (hbNoted hb lag m))) = true := by
    rw [syncCheck_eq, fon_setEvIf_other _ (by decide) (by decide) (by decide) (by decide),
      fon_setEvIf_other _ (by decide) (by decide) (by decide) (by decide)]
    exact hcomp.trans hconf
  rw [heartbeatRx_eq h, fon_refreshReady (by decide)]
  split
  · split
    · exact hcheck
    · exact ((synced_resyncAll _).regs.fon (f := HLT_TWIN_EVENTS.role_conflict) (by decide)).trans hcheck
  · exact hconf

end Sys2Proof.Machine

/-! SUPPORT. The end of a takeover, acknowledgements, resyncs and mirrored changes of a twin, and faults of the analogue rails
(R460 to R464, R517). -/

namespace Sys2Proof.Machine

/-! ### The takeover settled (R464) -/

theorem takeoverSettled_not {m : Mach} (h : m.twin.takeover = none ∨ fget HLT_TWIN_STATUS.phase m ≠ 2 ∨ hasToken m = false) :
    takeoverSettled m = m := by
  unfold takeoverSettled
  cases htake : m.twin.takeover with
  | none => rfl
  | some trig =>
    refine if_neg fun hc => ?_
    rcases h with h | h | h
    · simp [h] at htake
    · exact h hc.1
    · simp [h] at hc

/-- The takeover reported. -/
def settledNoted (trig : Nat) (m : Mach) : Mach :=
  wantEvent (logCode 0x0300 1 0xFF 0xFFFF 0xFFFF (leBytes 4 (rd DIR_SEQ m).toNat ++ [BitVec.ofNat 8 trig])
    (setEv HLT_TWIN_EVENTS.takeover m))

theorem takeoverSettled_reports {m : Mach} {trig : Nat} (htake : m.twin.takeover = some trig)
    (hphase : fget HLT_TWIN_STATUS.phase m = 2) (htoken : hasToken m = true) : takeoverSettled m = ownActive (settledNoted trig m) := by
  simp only [takeoverSettled, htake, hphase, htoken, and_self, ↓reduceIte, settledNoted]

theorem noted_settledNoted (trig : Nat) (m : Mach) : Noted m (settledNoted trig m) :=
  ((noted_setEv ..).trans (noted_logCode ..)).trans (noted_wantEvent _)

theorem rd_wantEvent (a : Nat) (m : Mach) : rd a (wantEvent m) = rd a m := rfl

theorem rd_settledNoted {a : Nat} (h0 : a ≠ HLT_TWIN_EVENTS) (h1 : a ≠ HLT_LOG_WPTR) (h2 : a ≠ HLT_EVENTS) (trig : Nat) (m : Mach) :
    rd a (settledNoted trig m) = rd a m := by
  rw [settledNoted, rd_wantEvent, rd_logCode h1 h2, rd_setEv (f := HLT_TWIN_EVENTS.takeover) h0 h1 h2]

theorem takeover_settledNoted (trig : Nat) (m : Mach) : fon HLT_TWIN_EVENTS.takeover (settledNoted trig m) = true := by
  rw [settledNoted, fon, fget_of_rd (rd_wantEvent ..), fget_of_rd (rd_logCode (by decide) (by decide) ..), ← fon]
  exact fon_setEv (f := HLT_TWIN_EVENTS.takeover) rfl (by decide) (by decide) (by decide) m

/-- GO_ACTIVE is judged as before. -/
theorem activeOk_settledNoted (trig : Nat) (m : Mach) : activeOk (settledNoted trig m) = activeOk m := by
  have hrd : ∀ a, a < 0xC00000 ∨ a = HLT_TWIN_STATUS → rd a (settledNoted trig m) = rd a m := fun a ha => by
    refine rd_settledNoted ?_ ?_ ?_ trig m <;> rintro rfl <;> revert ha <;> decide
  have hframe : (settledNoted trig m).img = m.img ∧ (settledNoted trig m).ftab = m.ftab := by
    obtain ⟨_, _, _, _, _, _, _, _, _, _, _, h⟩ := noted_settledNoted trig m
    rw [h]
    exact ⟨rfl, rfl⟩
  have hdeck : fon GCTL_DEV_STATE.deck_loaded (settledNoted trig m) = fon GCTL_DEV_STATE.deck_loaded m := by
    rw [fon, fget_of_rd (hrd _ (.inl (by decide))), fon]
  have hmpll : fget CLK_STATUS.mpll (settledNoted trig m) = fget CLK_STATUS.mpll m := fget_of_rd (hrd _ (.inl (by decide)))
  have hrole : role (settledNoted trig m) = role m := fget_of_rd (hrd _ (.inr rfl))
  rw [activeOk, activeOk, deckLoaded, deckLoaded, mpllLocked, mpllLocked, anchorsSet, anchorsSet, hframe.1, hframe.2, hdeck, hmpll, hrole,
    hrd GCTL_ANCHOR_UL (.inl (by decide)), hrd GCTL_ANCHOR_DL (.inl (by decide))]

/-- The device's own GO_ACTIVE noted. -/
def ownGoNoted (m : Mach) : Mach := setTwin (fun t => { t with ownGo := true }) m

theorem ownActive_goes {m : Mach} (hd : devState m = 4) (hok : activeOk m = true) :
    ownActive m = fset HLT_TWIN_STATUS.phase 3 (startTrans .toActive (ownGoNoted m)) := if_pos ⟨hd, hok⟩

theorem ownActive_stays {m : Mach} (h : ¬ (devState m = 4 ∧ activeOk m = true)) :
    ownActive m = takeoverRefused (stateErr (endTrans (ownGoNoted m))) := if_neg h

/-- A takeover that ends in WARM. -/
theorem takeoverRefused_ends {m : Mach} (h : m.twin.takeover.isSome = true) : takeoverRefused m =
    wantEvent (setEv HLT_TWIN_EVENTS.takeover_unready (fset HLT_TWIN_STATUS.phase 0
      { m with twin := { m.twin with takeover := none } })) := if_pos h

theorem ownActive_ownGo {m : Mach} (h : m.twin.takeover.isSome = true) : (ownActive m).twin.ownGo = true ∧
    Sticks HLT_TWIN_EVENTS.takeover m (ownActive m) := by
  by_cases hgo : devState m = 4 ∧ activeOk m = true
  · rw [ownActive_goes hgo.1 hgo.2]
    refine ⟨rfl, sticks_of_rd ?_⟩
    exact (rd_fset_other (f := HLT_TWIN_STATUS.phase) (by decide) _ _).trans (rd_fset_other (f := GCTL_DEV_STATE.busy) (by decide) _ _)
  · have herr := noted_setEv GCTL_STATE_EVENTS.state_err (endTrans (ownGoNoted m))
    have hstay : (stateErr (endTrans (ownGoNoted m))).twin = (ownGoNoted m).twin := herr.twin
    have hsome : (stateErr (endTrans (ownGoNoted m))).twin.takeover.isSome = true := by rw [hstay]; exact h
    have hev := noted_setEv HLT_TWIN_EVENTS.takeover_unready (fset HLT_TWIN_STATUS.phase 0
      { stateErr (endTrans (ownGoNoted m)) with twin := { (stateErr (endTrans (ownGoNoted m))).twin with takeover := none } })
    have hgoes := congrArg TwinSt.ownGo hev.twin
    rw [ownActive_stays hgo, takeoverRefused_ends hsome]
    refine ⟨hgoes.trans (congrArg TwinSt.ownGo hstay), ?_⟩
    have hsticks : Sticks HLT_TWIN_EVENTS.takeover m (fset HLT_TWIN_STATUS.phase 0
        { stateErr (endTrans (ownGoNoted m)) with twin := { (stateErr (endTrans (ownGoNoted m))).twin with takeover := none } }) := by
      refine sticks_of_rd ((rd_fset_other (f := HLT_TWIN_STATUS.phase) (by decide) _ _).trans ?_)
      exact (rd_setEv (f := GCTL_STATE_EVENTS.state_err) (by decide) (by decide) (by decide) (endTrans (ownGoNoted m))).trans
        (rd_fset_other (f := GCTL_DEV_STATE.busy) (by decide) _ _)
    exact hsticks.trans fun h0 => sticks_setEv (f := HLT_TWIN_EVENTS.takeover) rfl (by decide) (by decide)
      (g := HLT_TWIN_EVENTS.takeover_unready) rfl (by decide) _ h0

theorem ownActive_refused {m : Mach} (h : m.twin.takeover.isSome = true) (hd : devState m ≠ 4) :
    (ownActive m).twin.takeover = none ∧ fon HLT_TWIN_EVENTS.takeover_unready (ownActive m) = true ∧
    fon GCTL_STATE_EVENTS.state_err (ownActive m) = true := by
  have herr := noted_setEv GCTL_STATE_EVENTS.state_err (endTrans (ownGoNoted m))
  have hset := fon_setEv (f := GCTL_STATE_EVENTS.state_err) rfl (by decide) (by decide) (by decide) (endTrans (ownGoNoted m))
  have hstay : (stateErr (endTrans (ownGoNoted m))).twin = (ownGoNoted m).twin := herr.twin
  have hsome : (stateErr (endTrans (ownGoNoted m))).twin.takeover.isSome = true := by rw [hstay]; exact h
  have hev := noted_setEv HLT_TWIN_EVENTS.takeover_unready (fset HLT_TWIN_STATUS.phase 0
    { stateErr (endTrans (ownGoNoted m)) with twin := { (stateErr (endTrans (ownGoNoted m))).twin with takeover := none } })
  have hnone := congrArg TwinSt.takeover hev.twin
  rw [ownActive_stays fun hc => hd hc.1, takeoverRefused_ends hsome]
  refine ⟨hnone, fon_setEv (f := HLT_TWIN_EVENTS.takeover_unready) rfl (by decide) (by decide) (by decide) _, ?_⟩
  refine ((regsKept_setEv HLT_TWIN_EVENTS.takeover_unready _).fon (f := GCTL_STATE_EVENTS.state_err) (by decide)).trans ?_
  exact (fon_fset_other (f := HLT_TWIN_STATUS.phase) (by decide) (by decide) 0 _).trans hset

theorem takeoverSettled_leaves {m : Mach} (htake : m.twin.takeover ≠ none) (hphase : fget HLT_TWIN_STATUS.phase m = 2)
    (htoken : hasToken m = true) : fon HLT_TWIN_EVENTS.takeover (takeoverSettled m) = true ∧ (takeoverSettled m).twin.ownGo = true ∧
    (devState m = 4 → activeOk m = true → fget HLT_TWIN_STATUS.phase (takeoverSettled m) = 3 ∧
      (takeoverSettled m).trans = some .toActive ∧ fon GCTL_DEV_STATE.busy (takeoverSettled m) = true) ∧
    (devState m ≠ 4 → (takeoverSettled m).twin.takeover = none ∧ fon HLT_TWIN_EVENTS.takeover_unready (takeoverSettled m) = true ∧
      fon GCTL_STATE_EVENTS.state_err (takeoverSettled m) = true) := by
  obtain ⟨trig, htrig⟩ := Option.ne_none_iff_exists'.1 htake
  have hnoted := noted_settledNoted trig m
  have hsome : (settledNoted trig m).twin.takeover.isSome = true := by rw [hnoted.twin, htrig]; rfl
  have hdev : devState (settledNoted trig m) = devState m :=
    fget_of_rd (rd_settledNoted (by decide) (by decide) (by decide) trig m)
  obtain ⟨hgo, hsticks⟩ := ownActive_ownGo hsome
  rw [takeoverSettled_reports htrig hphase htoken]
  refine ⟨hsticks (takeover_settledNoted trig m), hgo, fun hd hok => ?_, fun hd => ownActive_refused hsome (by rw [hdev]; exact hd)⟩
  rw [ownActive_goes (hdev.trans hd) ((activeOk_settledNoted trig m).trans hok)]
  refine ⟨fget_fset_same (f := HLT_TWIN_STATUS.phase) (by decide) 3 _, rfl, ?_⟩
  exact (fon_fset_other (f := HLT_TWIN_STATUS.phase) (by decide) (by decide) _ _).trans
    (fon_fset_one (f := GCTL_DEV_STATE.busy) rfl (by decide) _)

/-! ### Acknowledgements (R462) -/

/-- The copy's end, where it is awaited and reached. -/
def copyEnd (q : W) (m : Mach) : Mach :=
  match m.twin.copyTo with
  | some w => if seqReached q w then setInSync 3 true (setTwin (fun t => { t with copyTo := none }) m) else m
  | none => m

/-- The first answers sent: those whose numbers are reached. -/
def acksSent (q : W) (m : Mach) : Mach :=
  each (m.twin.acks.takeWhile fun a => seqReached q a.1) (fun a s => sendNat a.2.1 a.2.2 s)
    (setTwin (fun t => { t with acks := t.acks.drop (m.twin.acks.takeWhile fun a => seqReached q a.1).length }) m)

theorem deltaAck_primary {m : Mach} (h : role m = 1) (q : W) : deltaAck q m = copyEnd q (acksSent q m) := if_pos h

theorem deltaAck_other {m : Mach} (h : role m ≠ 1) (q : W) : deltaAck q m = m := if_neg h

theorem copyEnd_none {m : Mach} (h : m.twin.copyTo = none) (q : W) : copyEnd q m = m := by simp only [copyEnd, h]

theorem copyEnd_some {m : Mach} {w : W} (h : m.twin.copyTo = some w) (q : W) : copyEnd q m =
    if seqReached q w then setInSync 3 true (setTwin (fun t => { t with copyTo := none }) m) else m := by simp only [copyEnd, h]

theorem acksSent_none {q : W} {m : Mach} (h : (m.twin.acks.takeWhile fun a => seqReached q a.1) = []) : acksSent q m = m := by
  rw [acksSent, h]
  rfl

theorem acksSent_one {q w : W} {k : Nat} {b : NatBody} {m : Mach} (h : m.twin.acks = [(w, k, b)]) (hq : seqReached q w = true) :
    acksSent q m = sendNat k b (setTwin (fun t => { t with acks := [] }) m) := by
  have hl : (m.twin.acks.takeWhile fun a => seqReached q a.1) = [(w, k, b)] := by simp [h, hq]
  have hdrop : setTwin (fun t => { t with acks := t.acks.drop 1 }) m = setTwin (fun t => { t with acks := [] }) m := by
    simp [setTwin, h]
  rw [acksSent, hl, List.length_singleton, hdrop]
  rfl

theorem seqReached_far {q w : W} (h : (q - w).toNat ≥ 2 ^ 31) : seqReached q w = false := decide_eq_false (by omega)

theorem seqReached_near {q w : W} (h : (q - w).toNat < 2 ^ 31) : seqReached q w = true := decide_eq_true h

/-- With no answer reached and no copy awaited nothing happens. -/
theorem deltaAck_idle {q : W} {m : Mach} (hl : (m.twin.acks.takeWhile fun a => seqReached q a.1) = [])
    (hcopy : m.twin.copyTo = none) : deltaAck q m = m := by
  by_cases h : role m = 1
  · rw [deltaAck_primary h, acksSent_none hl, copyEnd_none hcopy]
  · exact deltaAck_other h q

/-- The end of a copy is awaited and nothing else. -/
theorem deltaAck_copy {w : W} {m : Mach} (h : role m = 1) (hacks : m.twin.acks = []) (hcopy : m.twin.copyTo = some w) (q : W) :
    deltaAck q m = if seqReached q w then setInSync 3 true (setTwin (fun t => { t with copyTo := none }) m) else m := by
  rw [deltaAck_primary h, acksSent_none (by rw [hacks]; rfl), copyEnd_some hcopy]

theorem deltaAck_copy_leaves {q w : W} {m : Mach} (h : role m = 1) (hacks : m.twin.acks = []) (hcopy : m.twin.copyTo = some w)
    (hq : (q - w).toNat < 2 ^ 31) : (deltaAck q m).twin.copyTo = none ∧
    (rd HLT_MIR_STATUS (deltaAck q m)).getLsbD 3 = decide (m.twin.lag < 100) ∧ (deltaAck q m).out = m.out ∧ storesKept m (deltaAck q m) := by
  have hbit := inSync_setInSync (c := 3) (by decide) true (setTwin (fun t => { t with copyTo := none }) m)
  rw [deltaAck_copy h hacks hcopy, if_pos (seqReached_near hq)]
  exact ⟨rfl, hbit, rfl, (synced_setInSync 3 true (setTwin (fun t => { t with copyTo := none }) m)).stores⟩

/-- One answer waits, and is released. -/
theorem deltaAck_answers {q w : W} {k : Nat} {b : NatBody} {m : Mach} (h : role m = 1) (hcopy : m.twin.copyTo = none)
    (hacks : m.twin.acks = [(w, k, b)]) (hq : (q - w).toNat < 2 ^ 31) (hbound : sessBound k m = true) (hport : sessPort k m = true) :
    answered k b m (deltaAck q m) ∧ (deltaAck q m).twin.acks = [] ∧ (deltaAck q m).regs = m.regs ∧ storesKept m (deltaAck q m) := by
  obtain ⟨_, _, hs⟩ := sendNat_frame k b (setTwin (fun t => { t with acks := [] }) m)
  have hcopy' : (sendNat k b (setTwin (fun t => { t with acks := [] }) m)).twin.copyTo = none := by rw [hs]; exact hcopy
  have hout := out_sendNat (m := setTwin (fun t => { t with acks := [] }) m) hbound hport b
  rw [deltaAck_primary h, acksSent_one hacks (seqReached_near hq), copyEnd_none hcopy']
  refine ⟨hout, ?_, ?_, storesKept_sendNat k b (setTwin (fun t => { t with acks := [] }) m)⟩
  · rw [hs]; rfl
  · rw [hs]; rfl

end Sys2Proof.Machine

/-! SUPPORT. Resyncs and mirrored changes of a twin, and faults of the analogue rails (R460, R461, R517). -/

namespace Sys2Proof.Machine

/-! ### What the shown bit and the classes in sync leave -/

theorem refreshReady_keeps (m : Mach) : storesKept m (refreshReady m) ∧ (refreshReady m).twin = m.twin ∧ (refreshReady m).out = m.out ∧
    (refreshReady m).dir = m.dir := ⟨.refl m, rfl, rfl, rfl⟩

/-- Only the classes in sync and the registers that show them differ. -/
theorem setInSync_frame (c : Nat) (b : Bool) (m : Mach) :
    ∃ r l, setInSync c b m = { m with regs := r, twin := { m.twin with synced := l } } := ⟨_, _, rfl⟩

theorem setInSync_keeps (c : Nat) (b : Bool) (m : Mach) : (setInSync c b m).out = m.out ∧ (setInSync c b m).dir = m.dir ∧
    (setInSync c b m).twin.resync = m.twin.resync ∧ (setInSync c b m).twin.mirGot = m.twin.mirGot ∧
    (setInSync c b m).twin.copyTo = m.twin.copyTo ∧ rd DIR_SEQ (setInSync c b m) = rd DIR_SEQ m :=
  ⟨rfl, rfl, rfl, rfl, rfl, (synced_setInSync c b m).regs _ (by decide)⟩

theorem dir_fset (f : Fld) (x : Nat) (m : Mach) : (fset f x m).dir = m.dir := rfl

theorem dir_refreshDir (m : Mach) : (refreshDir m).dir = m.dir := rfl

theorem send_keeps (o : OutMsg) (m : Mach) : storesKept m (send o m) ∧ (send o m).twin = m.twin ∧ (send o m).out = m.out ++ [o] ∧
    ∀ a, rd a (send o m) = rd a m := ⟨.refl m, rfl, rfl, fun _ => rfl⟩

/-! ### Resyncs (R219, R460) -/

theorem mirrorResync_not {m : Mach} (h : role m = 0 ∨ (role m = 1 ∧ mirUp m = false)) (c : Nat) : mirrorResync c m = m := by
  unfold mirrorResync
  rcases h with h | ⟨h, hup⟩
  · rw [if_neg (by omega), if_neg (by omega)]
  · rw [if_pos h, if_pos hup]

theorem mirrorResync_streams {m : Mach} (h : role m = 1) (hup : mirUp m = true) : mirrorResync 3 m = dirStream m := by
  simp only [mirrorResync, if_pos h, hup, Bool.true_eq_false, if_false]

theorem out_each_send {α : Type} (l : List α) (g : α → OutMsg) (m : Mach) :
    each l (fun e s => send (g e) s) m = { m with out := m.out ++ l.map g } := by
  induction l generalizing m with
  | nil => simp [each]
  | cons a l ih =>
    have hstep : each (a :: l) (fun e s => send (g e) s) m = each l (fun e s => send (g e) s) (send (g a) m) := rfl
    rw [hstep, ih]
    simp [send]

/-- The end of a copy is awaited. -/
def copyAwaited (m : Mach) : Mach := { m with twin := { m.twin with copyTo := some (rd DIR_SEQ m) } }

/-- The copy begun. -/
def streamBegun (m : Mach) : Mach := send .copyStart (setInSync 3 false (copyAwaited m))

/-- R219: the whole table is sent. -/
theorem dirStream_eq (m : Mach) : dirStream m = { streamBegun m with
    out := (streamBegun m).out ++ m.dir.ent.map fun e => .mirDelta (rd DIR_SEQ m) (e.1 / 8) (e.1 % 8) e.2 } :=
  out_each_send m.dir.ent (fun e => .mirDelta (rd DIR_SEQ m) (e.1 / 8) (e.1 % 8) e.2) (streamBegun m)

theorem streamBegun_leaves (m : Mach) : (rd HLT_MIR_STATUS (streamBegun m)).getLsbD 3 = false ∧
    (streamBegun m).twin.copyTo = some (rd DIR_SEQ m) ∧ (streamBegun m).out = m.out ++ [.copyStart] := by
  have hbit := inSync_setInSync (c := 3) (by decide) false (copyAwaited m)
  obtain ⟨-, htwin, hout, hrd⟩ := send_keeps .copyStart (setInSync 3 false (copyAwaited m))
  obtain ⟨hout', -, -, -, hcopy, -⟩ := setInSync_keeps 3 false (copyAwaited m)
  rw [streamBegun, hrd, htwin, hcopy, hout, hout']
  exact ⟨hbit, rfl, rfl⟩

theorem dirStream_leaves (m : Mach) : (rd HLT_MIR_STATUS (dirStream m)).getLsbD 3 = false ∧
    (dirStream m).twin.copyTo = some (rd DIR_SEQ m) ∧
    (dirStream m).out = m.out ++ .copyStart :: m.dir.ent.map (fun e => .mirDelta (rd DIR_SEQ m) (e.1 / 8) (e.1 % 8) e.2) ∧
    storesKept m (dirStream m) := by
  obtain ⟨hbit, hcopy, hout⟩ := streamBegun_leaves m
  refine ⟨?_, ?_, ?_, (synced_dirStream m).stores⟩
  · rw [dirStream_eq, rd]
    exact hbit
  · rw [dirStream_eq, hcopy]
  · rw [dirStream_eq, hout, List.append_assoc]
    rfl

theorem mirrorResync_copyDone {m : Mach} (h : role m = 2) (hres : fon DIR_MIRROR_STATUS.resync m = true) :
    mirrorResync 3 m = refreshReady (copyDone m) := by
  simp [mirrorResync, h, hres]

theorem copyDone_leaves (m : Mach) : fon DIR_MIRROR_STATUS.resync (refreshReady (copyDone m)) = false ∧
    (rd HLT_MIR_STATUS (refreshReady (copyDone m))).getLsbD 3 = decide (m.twin.lag < 100) ∧
    (refreshReady (copyDone m)).out = m.out ++ [.mirAck (rd DIR_SEQ m)] ∧ storesKept m (refreshReady (copyDone m)) := by
  have hbit := inSync_setInSync (c := 3) (by decide) true (fset DIR_MIRROR_STATUS.resync 0 m)
  have hzero := fon_fset_zero (f := DIR_MIRROR_STATUS.resync) (by decide) m
  have hshown : ∀ u, fon DIR_MIRROR_STATUS.resync (showSync u) = fon DIR_MIRROR_STATUS.resync u := fun u =>
    (fon_fsetB_other (f := DIR_MIRROR_STATUS.in_sync) (by decide) (by decide) _ _).trans
      (fon_fset_other (f := HLT_MIR_STATUS.in_sync) (by decide) (by decide) _ u)
  obtain ⟨hready, -, hout, -⟩ := refreshReady_keeps (copyDone m)
  obtain ⟨hout', -⟩ := setInSync_keeps 3 true (fset DIR_MIRROR_STATUS.resync 0 m)
  obtain ⟨hsent, -, hout'', hrd⟩ := send_keeps (.mirAck (rd DIR_SEQ m)) (setInSync 3 true (fset DIR_MIRROR_STATUS.resync 0 m))
  have hset := (synced_setInSync 3 true (fset DIR_MIRROR_STATUS.resync 0 m)).stores
  refine ⟨?_, ?_, ?_, storesKept.trans ?_ hready⟩
  · rw [fon_refreshReady (by decide), copyDone, fon, fget_of_rd (hrd _), setInSync, ← fon]
    exact (hshown _).trans hzero
  · rw [rd_refreshReady (by decide), copyDone, hrd]
    exact hbit
  · rw [hout, copyDone, hout'', hout']
    rfl
  · rw [copyDone]
    exact (storesKept.trans (m' := fset DIR_MIRROR_STATUS.resync 0 m) (.refl m) hset).trans hsent

theorem mirrorResync_copyIn {m : Mach} (h : role m = 2) (hres : fon DIR_MIRROR_STATUS.resync m = false) (hup : mirUp m = true) :
    mirrorResync 3 m = refreshReady (copyIn m) := by
  simp [mirrorResync, h, hres, hup]

theorem copyIn_leaves (m : Mach) : fon DIR_MIRROR_STATUS.resync (refreshReady (copyIn m)) = true ∧
    (rd HLT_MIR_STATUS (refreshReady (copyIn m))).getLsbD 3 = false ∧ (refreshReady (copyIn m)).dir.ent = [] ∧
    storesKept m (refreshReady (copyIn m)) := by
  have hbit := inSync_setInSync (c := 3) (by decide) false (refreshDir { m with dir := { m.dir with ent := [] } })
  obtain ⟨hready, -, -, hdir⟩ := refreshReady_keeps (copyIn m)
  obtain ⟨-, hdir', -⟩ := setInSync_keeps 3 false (refreshDir { m with dir := { m.dir with ent := [] } })
  refine ⟨?_, ?_, ?_, (synced_copyIn m).stores.trans hready⟩
  · rw [fon_refreshReady (by decide), copyIn]
    exact fon_fset_one (f := DIR_MIRROR_STATUS.resync) rfl (by decide) _
  · rw [rd_refreshReady (by decide), copyIn, rd_fset_other (f := DIR_MIRROR_STATUS.resync) (by decide), hbit, Bool.false_and]
  · rw [hdir, copyIn, dir_fset, hdir', dir_refreshDir]

theorem mirrorResync_complete {m : Mach} {c : Nat} (h : role m = 2) (hc : c = 4 ∨ c = 5) (hmem : c ∈ m.twin.resync) :
    mirrorResync c m =
      refreshReady (setInSync c true (setTwin (fun t => { t with resync := t.resync.filter (· != c) }) m)) := by
  unfold mirrorResync
  rw [if_neg (by omega), if_pos h, if_neg (by omega), if_pos ⟨hc, List.contains_iff_mem.2 hmem⟩]

theorem mirrorResync_complete_leaves {m : Mach} {c : Nat} (h : role m = 2) (hc : c = 4 ∨ c = 5) (hmem : c ∈ m.twin.resync) :
    (rd HLT_MIR_STATUS (mirrorResync c m)).getLsbD c = decide (m.twin.lag < 100) ∧ c ∉ (mirrorResync c m).twin.resync ∧
      storesKept m (mirrorResync c m) := by
  have hbit := inSync_setInSync (c := c) (by omega) true (setTwin (fun t => { t with resync := t.resync.filter (· != c) }) m)
  have hhigh : decide (c < 2) = false := decide_eq_false (by omega)
  obtain ⟨hready, htwin, -, -⟩ := refreshReady_keeps (setInSync c true (setTwin (fun t => { t with resync := t.resync.filter (· != c) }) m))
  obtain ⟨-, -, hlist, -⟩ := setInSync_keeps c true (setTwin (fun t => { t with resync := t.resync.filter (· != c) }) m)
  rw [mirrorResync_complete h hc hmem]
  refine ⟨?_, ?_, storesKept.trans ?_ hready⟩
  · rw [rd_refreshReady (by decide), hbit, hhigh]
    rfl
  · rw [htwin, hlist]
    simp [setTwin]
  · exact storesKept.trans (m' := setTwin (fun t => { t with resync := t.resync.filter (· != c) }) m) (.refl m)
      (synced_setInSync c true (setTwin (fun t => { t with resync := t.resync.filter (· != c) }) m)).stores

/-! ### Mirrored changes (R458, R460) -/

/-- The change reaches a STANDBY whose link is on. -/
def MirTaken (c : MirChange) (m : Mach) : Prop := Linked m ∧ c.crcOk = true ∧ role m = 2

theorem mirTaken_iff (c : MirChange) (m : Mach) : (mirrorOn m && laneMask m != 0 && c.crcOk && role m == 2) = true ↔ MirTaken c m := by
  rw [Bool.and_eq_true, Bool.and_eq_true, linked_iff, beq_iff_eq, MirTaken, and_assoc]

theorem mirrorChange_not {c : MirChange} {m : Mach} (h : ¬ MirTaken c m) : mirrorChange c m = m := if_neg (mt (mirTaken_iff c m).1 h)

/-- A change that is not of class 2 is only applied. -/
theorem mirrorChange_applies {c : MirChange} {m : Mach} (h : MirTaken c m) (hnow : ∀ u, mirNow c.body u = u) :
    mirrorChange c m = refreshReady (mirApply c.body (mirSeqCheck (mirClass c.body) c.seq m)) := by
  unfold mirrorChange
  rw [if_pos ((mirTaken_iff c m).2 h)]
  dsimp only
  rw [hnow, ite_self]

/-- One more than the sequence number of a class's last change, or 0. -/
def gotOf (cls : Nat) (m : Mach) : Nat := tabGet (fun _ => 0) m.twin.mirGot cls

/-- The sequence number of a class's last change, noted. -/
def seqNoted (cls : Nat) (seq : W) (m : Mach) : Mach :=
  setTwin (fun t => { t with mirGot := tabPut (fun _ => 0) t.mirGot cls (seq.toNat + 1) }) m

theorem mirSeqCheck_inTurn {cls : Nat} {seq : W} {m : Mach}
    (h : gotOf cls m = 0 ∨ gotOf cls m % 2 ^ 32 = seq.toNat) :
    mirSeqCheck cls seq m = seqNoted cls seq m := if_pos h

theorem mirSeqCheck_gap {cls : Nat} {seq : W} {m : Mach}
    (h0 : gotOf cls m ≠ 0) (h : gotOf cls m % 2 ^ 32 ≠ seq.toNat) :
    mirSeqCheck cls seq m = mirGap cls (seqNoted cls seq m) := if_neg (not_or.2 ⟨h0, h⟩)

theorem got_seqNoted (cls : Nat) (seq : W) (m : Mach) : gotOf cls (seqNoted cls seq m) = seq.toNat + 1 := by
  simp [gotOf, seqNoted, setTwin]

theorem got_setEvIf {cls : Nat} (b : Bool) (f : Fld) (c : Nat) (s : Bool) (seq : W) (m : Mach) :
    gotOf cls (refreshReady (setEvIf b f (setInSync c s (seqNoted cls seq m)))) = seq.toNat + 1 := by
  have htwin : (setEvIf b f (setInSync c s (seqNoted cls seq m))).twin = (setInSync c s (seqNoted cls seq m)).twin :=
    (noted_setEvIf b f _).twin
  obtain ⟨-, hready, -, -⟩ := refreshReady_keeps (setEvIf b f (setInSync c s (seqNoted cls seq m)))
  obtain ⟨-, -, -, hgot, -, -⟩ := setInSync_keeps c s (seqNoted cls seq m)
  rw [gotOf, hready, htwin, hgot, ← gotOf]
  exact got_seqNoted cls seq m

/-- A comparison of class 0 or 1: what it shows, and the event where it fails. -/
theorem compared_leaves {c : Nat} (hc : c < 2) (s : Bool) {f : Fld} (hf : f.reg = HLT_TWIN_EVENTS) (hw : f.w = 1)
    (hlo : f.lo + f.w ≤ 32) (cls : Nat) (seq : W) (m : Mach) :
    (rd HLT_MIR_STATUS (refreshReady (setEvIf (!s) f (setInSync c s (seqNoted cls seq m))))).getLsbD c = s ∧
    storesKept m (refreshReady (setEvIf (!s) f (setInSync c s (seqNoted cls seq m)))) ∧
    (s = false → fon f (refreshReady (setEvIf (!s) f (setInSync c s (seqNoted cls seq m)))) = true) := by
  have hbit := inSync_setInSync (c := c) (by omega) s (seqNoted cls seq m)
  have hrd : rd HLT_MIR_STATUS (setEvIf (!s) f (setInSync c s (seqNoted cls seq m))) = rd HLT_MIR_STATUS (setInSync c s (seqNoted cls seq m)) :=
    regsKept_setEvIf (!s) f _ _ (by rw [hf]; decide)
  refine ⟨?_, ?_, fun hs => ?_⟩
  · rw [rd_refreshReady (by decide), hrd, hbit, decide_eq_true hc]
    cases s <;> rfl
  · exact ((storesKept.trans (m' := seqNoted cls seq m) (.refl m) (synced_setInSync c s (seqNoted cls seq m)).stores).trans
      (storesKept_setEvIf (!s) f _)).trans (refreshReady_keeps _).1
  · rw [fon_refreshReady (.inl (by rw [hf]; decide)), fon_setEvIf _ hw hlo (by rw [hf]; decide) (by rw [hf]; decide), hs]
    rfl

theorem length_wordBytes (ws : List W) : (ws.flatMap fun w => leBytes 4 w.toNat).length = 4 * ws.length := by
  simp [List.length_flatMap, length_leBytes, Nat.mul_comm]

/-- A vector of the pool that fits its quota is stored, where the device is no PRIMARY (R340). -/
theorem poolBytes_stores {i a : Nat} {bs : List Byte} {m : Mach} (ha : a = partBase 1 m + 256 * i) (hfits : poolFits i m = true)
    (hrole : role m ≠ 1) (hclean : ∀ a, poisoned a m = false) : (poolBytes a bs m).res = (resWrite a bs m).res ∧
      (poolBytes a bs m).twin = m.twin ∧ (poolBytes a bs m).out = m.out := by
  obtain ⟨u, p, hframe⟩ := resWrite_frame (bs := bs) (badUnits_of_clean hclean a bs.length)
  have hindex : (a - partBase 1 m) / 256 = i := by omega
  have hstored : poolBytes a bs m = setUse 1 (max (partUse 1 (resWrite a bs m)) (256 * (i + 1))) (resWrite a bs m) := by
    unfold poolBytes
    dsimp only
    rw [hindex, if_pos hfits, poolTouched, mirror_alone]
    rw [hframe]
    refine fun hc => hrole ((fget_fset_other_reg (f := ⟨RES_PART_USE 1, 0, 27⟩) (g := HLT_TWIN_STATUS.role_act) ?_ _ m).symm.trans hc)
    decide
  rw [hstored, hframe]
  exact ⟨rfl, rfl, rfl⟩

theorem mirrorChange_poolVec {c : MirChange} {m : Mach} (h : MirTaken c m) {i : BitVec 16} {ws : List W} (hbody : c.body = .poolVec i ws)
    (hok : mirOk c.body = true)
    (hseq : gotOf 4 m = 0 ∨ gotOf 4 m % 2 ^ 32 = c.seq.toNat)
    (hfits : poolFits i.toNat m = true) (hclean : ∀ a, poisoned a m = false) :
    gotOf 4 (mirrorChange c m) = c.seq.toNat + 1 ∧
    resBytes (partBase 1 m + 256 * i.toNat) 256 (mirrorChange c m) = (ws.flatMap fun w => leBytes 4 w.toNat) ∧
    bytesKept (partBase 1 m + 256 * i.toNat) 256 m (mirrorChange c m) ∧ (mirrorChange c m).out = m.out ++ [OutMsg.mirAck (rd DIR_SEQ m)] := by
  have hlen : (ws.flatMap fun w => leBytes 4 w.toNat).length = 256 := by
    rw [hbody] at hok
    have h64 : ws.length = 64 := of_decide_eq_true hok
    rw [length_wordBytes, h64]
  have hrole : role (seqNoted 4 c.seq m) ≠ 1 := by
    rw [show role (seqNoted 4 c.seq m) = 2 from h.2.2]
    decide
  have hstored := resBytes_resWrite (badUnits_of_clean (m := seqNoted 4 c.seq m) hclean (partBase 1 m + 256 * i.toNat)
    (ws.flatMap fun w => leBytes 4 w.toNat).length)
  have hkept := bytesKept_resWrite (partBase 1 m + 256 * i.toNat) (ws.flatMap fun w => leBytes 4 w.toNat) (seqNoted 4 c.seq m)
  obtain ⟨hstore, htwin, hout⟩ := poolBytes_stores (m := seqNoted 4 c.seq m) (a := partBase 1 m + 256 * i.toNat) (i := i.toNat)
    (bs := ws.flatMap fun w => leBytes 4 w.toNat) rfl hfits hrole hclean
  rw [hlen] at hstored hkept
  have happly : mirApply c.body (mirSeqCheck (mirClass c.body) c.seq m) = send (.mirAck (rd DIR_SEQ m))
      (poolBytes (partBase 1 m + 256 * i.toNat) (ws.flatMap fun w => leBytes 4 w.toNat) (seqNoted 4 c.seq m)) := by
    rw [hbody, mirClass, mirSeqCheck_inTurn hseq, mirApply]
    rfl
  obtain ⟨⟨hres, -⟩, hready, hsent, -⟩ := refreshReady_keeps (mirApply c.body (mirSeqCheck (mirClass c.body) c.seq m))
  obtain ⟨⟨hres', -⟩, hready', hsent', -⟩ := send_keeps (.mirAck (rd DIR_SEQ m))
    (poolBytes (partBase 1 m + 256 * i.toNat) (ws.flatMap fun w => leBytes 4 w.toNat) (seqNoted 4 c.seq m))
  rw [mirrorChange_applies h (fun u => by simp only [hbody, mirNow])]
  have hbytes : ∀ a, resByte a (refreshReady (mirApply c.body (mirSeqCheck (mirClass c.body) c.seq m))) =
      resByte a (resWrite (partBase 1 m + 256 * i.toNat) (ws.flatMap fun w => leBytes 4 w.toNat) (seqNoted 4 c.seq m)) := fun a => by
    rw [resByte, hres, happly, hres', hstore, resByte]
  refine ⟨?_, ?_, ?_, ?_⟩
  · rw [gotOf, hready, happly, hready', htwin, ← gotOf]
    exact got_seqNoted 4 c.seq m
  · rw [resBytes, ← hstored, resBytes]
    exact List.map_congr_left fun k _ => hbytes _
  · exact fun a ha => (hbytes a).trans (hkept a ha)
  · rw [hsent, happly, hsent', hout]
    rfl

/-! ### A swap told of out of turn -/

theorem pdRegs_ne (n : Fin 64) : HLT_MIR_STATUS ≠ QUAD_PD_STATUS n ∧ HLT_MIR_STATUS ≠ QUAD_PD_EVENTS n := by
  simp only [HLT_MIR_STATUS, QUAD_PD_STATUS, QUAD_PD_EVENTS, pathBase, quadBase]
  omega

/-- A swap leaves the mirror's state alone. -/
theorem mirSwapIn_keeps (n : Fin 64) (t : Option Nat) (m : Mach) :
    rd HLT_MIR_STATUS (mirSwapIn n t m) = rd HLT_MIR_STATUS m ∧ (mirSwapIn n t m).twin = m.twin := by
  obtain ⟨hstatus, hevents⟩ := pdRegs_ne n
  have hswap : ∀ u, rd HLT_MIR_STATUS (doSwap n u) = rd HLT_MIR_STATUS u ∧ (doSwap n u).twin = u.twin := fun u => by
    refine ⟨?_, (noted_setEv (QUAD_PD_EVENTS.swapped n) _).twin⟩
    rw [doSwap, rd_setEv (f := QUAD_PD_EVENTS.swapped n) hevents (by decide) (by decide), refreshIdle, fsetB,
      rd_fset_other (f := QUAD_PD_STATUS.inactive_ok n) hstatus, rd_fset_other (f := QUAD_PD_STATUS.active_bank n) hstatus]
  unfold mirSwapIn mirSwapDue
  split
  · split
    · exact hswap _
    · exact ⟨rfl, rfl⟩
  · exact ⟨rfl, rfl⟩

theorem mirrorChange_swapGap {c : MirChange} {m : Mach} (h : MirTaken c m) {n : Fin 64} {t : Option (BitVec 64)}
    (hbody : c.body = .pdSwap n t) (h0 : gotOf 5 m ≠ 0)
    (hgap : gotOf 5 m % 2 ^ 32 ≠ c.seq.toNat) :
    (rd HLT_MIR_STATUS (mirrorChange c m)).getLsbD 5 = false ∧ 5 ∈ (mirrorChange c m).twin.resync := by
  obtain ⟨hrd, htwin⟩ := mirSwapIn_keeps n (t.map BitVec.toNat) (mirGap 5 (seqNoted 5 c.seq m))
  have hbit := inSync_setInSync (c := 5) (by decide) false
    (setTwin (fun t => { t with resync := 5 :: t.resync.filter (· != 5) }) (seqNoted 5 c.seq m))
  have happly : mirApply c.body (mirSeqCheck (mirClass c.body) c.seq m) =
      mirSwapIn n (t.map BitVec.toNat) (mirGap 5 (seqNoted 5 c.seq m)) := by
    rw [hbody, mirClass, mirSeqCheck_gap h0 hgap, mirApply]
  rw [mirrorChange_applies h (fun u => by simp only [hbody, mirNow]), happly]
  refine ⟨?_, ?_⟩
  · rw [rd_refreshReady (by decide), hrd]
    exact hbit
  · obtain ⟨_, hready⟩ := refreshReady_frame (mirSwapIn n (t.map BitVec.toNat) (mirGap 5 (seqNoted 5 c.seq m)))
    rw [hready]
    dsimp only
    rw [htwin]
    exact List.mem_cons_self

/-! ### The analogue rails (R517) -/

/-- What a loop that begins to coast leaves. -/
theorem coastMpll_leaves (m : Mach) : storesKept m (coastMpll m) ∧ mpllLocked (coastMpll m) = false ∧
    (mpllLocked m = true → fget CLK_STATUS.mpll (coastMpll m) = 4 ∧ fon CLK_EVENTS.mpll_unlock (coastMpll m) = true) ∧
    ∀ q < 4, fget (CLK_STATUS.qpll_q q) (coastMpll m) = fget (CLK_STATUS.qpll_q q) m := by
  by_cases h : mpllLocked m = true
  · have hset : fget CLK_STATUS.mpll (fset CLK_STATUS.mpll 4 (coastBegin 0 m)) = 4 :=
      fget_fset_same (f := CLK_STATUS.mpll) (by decide) 4 _
    have hfour : fget CLK_STATUS.mpll (setEv CLK_EVENTS.mpll_unlock (fset CLK_STATUS.mpll 4 (coastBegin 0 m))) = 4 :=
      (fget_of_rd (rd_setEv (f := CLK_EVENTS.mpll_unlock) (by decide) (by decide) (by decide) _)).trans hset
    have hev := fon_setEv (f := CLK_EVENTS.mpll_unlock) rfl (by decide) (by decide) (by decide) (fset CLK_STATUS.mpll 4 (coastBegin 0 m))
    rw [coastMpll, if_pos h]
    refine ⟨storesKept.trans (m' := fset CLK_STATUS.mpll 4 (coastBegin 0 m)) (.refl m) (storesKept_setEv _ _), ?_,
      fun _ => ⟨hfour, hev⟩, fun q hq => ?_⟩
    · rw [mpllLocked, hfour]
      rfl
    · have hlo : CLK_STATUS.mpll.lo + CLK_STATUS.mpll.w ≤ 4 + 2 * q := by change 1 + 3 ≤ 4 + 2 * q; omega
      have htod : CLK_STATUS.tod_traceable.lo ≥ 4 + 2 * q + 2 := by change 19 ≥ 4 + 2 * q + 2; omega
      rw [fget_of_rd (f := CLK_STATUS.qpll_q q) (rd_setEv (f := CLK_EVENTS.mpll_unlock) (a := CLK_STATUS) (by decide) (by decide) (by decide) _),
        fget_fset_other (f := CLK_STATUS.mpll) (g := CLK_STATUS.qpll_q q) (by decide) (.inr (.inl hlo))]
      exact fget_fset_other (f := CLK_STATUS.tod_traceable) (g := CLK_STATUS.qpll_q q) (by decide) (.inr (.inr htod)) 0 m
  · rw [coastMpll, if_neg h]
    exact ⟨.refl m, by simpa using h, fun hc => absurd hc h, fun _ _ => rfl⟩

theorem qpll_other {q : Nat} (hq : q < 4) {f : Fld} (hf : f.reg = CLK_STATUS) (hd : f.lo + f.w ≤ 4 + 2 * q ∨ (4 + 2 * q + 2 ≤ f.lo ∧ f.lo + f.w ≤ 19))
    (m : Mach) : fget f (coastQpll q m) = fget f m := by
  unfold coastQpll
  split
  · rw [fget_of_rd (rd_setEv (f := CLK_EVENTS.qpll_unlock) (by rw [hf]; decide) (by rw [hf]; decide) (by rw [hf]; decide) _),
      fget_fset_other (f := CLK_STATUS.qpll_q q) (by change 4 + 2 * q + 2 ≤ 32; omega)
        (.inr (hd.symm.imp (fun h => h.1) fun h => h))]
    refine fget_fset_other (f := CLK_STATUS.tod_traceable) (by decide) (.inr (.inr ?_)) 0 m
    change f.lo + f.w ≤ 19
    omega
  · rfl

theorem coastQpll_own {q : Nat} (hq : q < 4) {m : Mach} (h : fget (CLK_STATUS.qpll_q q) m = 2) :
    fget (CLK_STATUS.qpll_q q) (coastQpll q m) = 3 ∧ fon CLK_EVENTS.qpll_unlock (coastQpll q m) = true := by
  rw [coastQpll, if_pos h]
  refine ⟨?_, fon_setEv (f := CLK_EVENTS.qpll_unlock) rfl (by decide) (by decide) (by decide) _⟩
  rw [fget_of_rd (rd_setEv (f := CLK_EVENTS.qpll_unlock) (a := CLK_STATUS) (by decide) (by decide) (by decide) _)]
  exact fget_fset_same (f := CLK_STATUS.qpll_q q) (by change 4 + 2 * q + 2 ≤ 32; omega) 3 _

theorem sticks_coastQpll {f : Fld} (hw : f.w = 1) (hlo : f.lo + f.w ≤ 32) (hf : f.reg = CLK_EVENTS) (q : Nat) (m : Mach) :
    Sticks f m (coastQpll q m) := by
  have hbefore : Sticks f m (fset (CLK_STATUS.qpll_q q) 3 (coastBegin (1 + q) m)) := sticks_of_rd
    ((rd_fset_other (f := CLK_STATUS.qpll_q q) (by rw [hf]; exact (by decide : CLK_EVENTS ≠ CLK_STATUS)) _ _).trans
      (rd_fset_other (f := CLK_STATUS.tod_traceable) (by rw [hf]; decide) 0 m))
  unfold coastQpll
  split
  · exact hbefore.trans fun h0 => sticks_setEv hw hlo (by rw [hf]; decide) (g := CLK_EVENTS.qpll_unlock) rfl (by decide) _ h0
  · exact fun h0 => h0

theorem storesKept_coastQpll (q : Nat) (m : Mach) : storesKept m (coastQpll q m) := by
  unfold coastQpll
  split
  · exact storesKept.trans (m' := fset (CLK_STATUS.qpll_q q) 3 (coastBegin (1 + q) m)) (.refl m) (storesKept_setEv _ _)
  · exact .refl m

/-- Two QPLLs have their own fields. -/
theorem qpll_apart {q j : Nat} (hq : q < 4) (hj : j < 4) (h : j ≠ q) (m : Mach) :
    fget (CLK_STATUS.qpll_q j) (coastQpll q m) = fget (CLK_STATUS.qpll_q j) m := by
  refine qpll_other hq (f := CLK_STATUS.qpll_q j) rfl ?_ m
  change 4 + 2 * j + 2 ≤ 4 + 2 * q ∨ (4 + 2 * q + 2 ≤ 4 + 2 * j ∧ 4 + 2 * j + 2 ≤ 19)
  omega

/-- After each QPLL of a list without repeats has begun to coast, a locked one of them coasts. -/
theorem coasted_each {l : List Nat} (hnodup : l.Nodup) (hl : ∀ j ∈ l, j < 4) {q : Nat} (hq : q ∈ l) {m : Mach}
    (h : fget (CLK_STATUS.qpll_q q) m = 2) : fget (CLK_STATUS.qpll_q q) (each l coastQpll m) = 3 ∧
      fon CLK_EVENTS.qpll_unlock (each l coastQpll m) = true := by
  induction l generalizing m with
  | nil => simp at hq
  | cons i l ih =>
    have hi := hl i (by simp)
    have hl' : ∀ j ∈ l, j < 4 := fun j hj => hl j (by simp [hj])
    obtain ⟨hnot, hrest⟩ := List.nodup_cons.1 hnodup
    rcases List.mem_cons.1 hq with rfl | hq
    · obtain ⟨hthree, hev⟩ := coastQpll_own hi h
      refine each_inv (fun u => fget (CLK_STATUS.qpll_q q) u = 3 ∧ fon CLK_EVENTS.qpll_unlock u = true) l coastQpll ?_ _ ⟨hthree, hev⟩
      rintro j hj u ⟨hu, hb⟩
      exact ⟨(qpll_apart (hl' j hj) hi (fun hc => hnot (hc ▸ hj)) u).trans hu,
        sticks_coastQpll (f := CLK_EVENTS.qpll_unlock) rfl (by decide) rfl j u hb⟩
    · have hne : q ≠ i := fun hc => hnot (hc ▸ hq)
      exact ih hrest hl' hq ((qpll_apart hi (hl' q hq) hne m).trans h)

/-- VDDA_CLK fails: every loop that was locked coasts. -/
theorem railFault_clk {m : Mach} (h : coreOn m = true) : storesKept m (railFault .clk m) ∧ mpllLocked (railFault .clk m) = false ∧
    (mpllLocked m = true → fget CLK_STATUS.mpll (railFault .clk m) = 4 ∧ fon CLK_EVENTS.mpll_unlock (railFault .clk m) = true) ∧
    ∀ q < 4, fget (CLK_STATUS.qpll_q q) m = 2 →
      fget (CLK_STATUS.qpll_q q) (railFault .clk m) = 3 ∧ fon CLK_EVENTS.qpll_unlock (railFault .clk m) = true := by
  obtain ⟨hstores, hunlocked, hcoasts, hqplls⟩ := coastMpll_leaves m
  have heq : railFault .clk m = each quads4 coastQpll (coastMpll m) := if_neg (by rw [h]; decide)
  have hall := each_inv (storesKept (coastMpll m)) quads4 coastQpll (fun q _ u hu => hu.trans (storesKept_coastQpll q u)) _ (.refl _)
  have hmpll : fget CLK_STATUS.mpll (each quads4 coastQpll (coastMpll m)) = fget CLK_STATUS.mpll (coastMpll m) :=
    each_keeps (fget CLK_STATUS.mpll) quads4 coastQpll
      (fun q hq u => qpll_other (mem_quads4.1 hq) (f := CLK_STATUS.mpll) rfl (.inl (by change 1 + 3 ≤ 4 + 2 * q; omega)) u) _
  have hsticks : ∀ f : Fld, f.w = 1 → f.lo + f.w ≤ 32 → f.reg = CLK_EVENTS → fon f (coastMpll m) = true →
      fon f (each quads4 coastQpll (coastMpll m)) = true := fun f hw hlo hf h0 =>
    each_inv (fun u => fon f u = true) quads4 coastQpll (fun q _ u hu => sticks_coastQpll hw hlo hf q u hu) _ h0
  rw [heq]
  refine ⟨hstores.trans hall, ?_, fun hl => ?_, fun q hq h2 => ?_⟩
  · rw [mpllLocked, hmpll]
    exact hunlocked
  · obtain ⟨hfour, hev⟩ := hcoasts hl
    exact ⟨hmpll.trans hfour, hsticks _ rfl (by decide) rfl hev⟩
  · exact coasted_each (by decide) (fun j hj => mem_quads4.1 hj) (mem_quads4.2 hq) ((hqplls q hq).trans h2)

end Sys2Proof.Machine

/-! SUPPORT. Faults of the rails that feed ports and converters, a mirrored quadrant request, the twin's commands, and the twins settled
(R460 to R464, R517). -/

namespace Sys2Proof.Machine

/-! ### Faults of the ports' and the converters' rails (R517) -/

theorem railFault_off {m : Mach} (h : coreOn m = false) (r : Rail) : railFault r m = m := if_pos h

theorem railFault_passing {m : Mach} {r : Rail} {q : Fin 4} (h : r = .rx q false ∨ r = .tx q false) : railFault r m = m := by
  unfold railFault
  rcases h with rfl | rfl
  · exact ite_self m
  · exact ite_self m

/-- VDD_SER fails: every port is down. -/
theorem railFault_ser {m : Mach} (h : coreOn m = true) : (∀ i < 4, portState i (railFault .ser m) = 0) ∧ storesKept m (railFault .ser m) := by
  have heq : railFault .ser m = each (List.range 4) (fun i => setPort i 0) m := if_neg (by rw [h]; decide)
  have hports : ∀ i ∈ List.range 4, i < 4 := fun i hi => List.mem_range.1 hi
  have hmoves : ∀ i < 4, ∀ u, PortMoved i u (setPort i 0 u) := fun i hi u => portMoved_setPort hi 0 u
  rw [heq]
  refine ⟨fun i hi => ?_, (each_ports hports hmoves m).1⟩
  exact each_ports_state hports List.nodup_range hmoves (List.mem_range.2 hi) (P := fun _ => True) (fun _ _ _ _ => trivial)
    (fun u _ => portState_setPort hi (by decide) u) trivial

/-- A path's direction is declared failed. -/
def pathFailed (tx : Bool) (n : Nat) (m : Mach) : Bool := if tx then txFailed n m else rxFailed n m

/-- The failures listed with one more. -/
def pathListed (tx : Bool) (n : Nat) (m : Mach) : Mach :=
  setRemap (fun r => if tx then { r with txFailed := n :: r.txFailed } else { r with rxFailed := n :: r.rxFailed }) m

theorem twinFault_remap (c : Nat) (m : Mach) : (twinFault c m).nvm = m.nvm := (apply_ite Mach.nvm _ _ _).trans (ite_self _)

/-- A failure that is listed already changes nothing; a new one is listed, whatever else follows. -/
theorem failPath_listed (tx : Bool) (n crit : Nat) (m : Mach) : (pathFailed tx n m = true ∧ failPath tx n crit m = m) ∨
    (failPath tx n crit m).nvm.remap = (pathListed tx n m).nvm.remap := by
  by_cases h : pathFailed tx n m = true
  · refine .inl ⟨h, if_pos ?_⟩
    cases tx
    · exact h
    · exact h
  · refine .inr ?_
    have hnot : ¬ (if tx then m.nvm.remap.txFailed else m.nvm.remap.rxFailed).contains n = true := by
      cases tx
      · exact h
      · exact h
    rw [failPath]
    dsimp only
    rw [if_neg hnot, twinFault_remap]
    exact (((noted_setEvDie 0 HLT_EVENTS.path_failed _).trans (noted_logCode ..)).trans (noted_raiseReplace ..)).remap

theorem pathFailed_of_remap {m u : Mach} (h : u.nvm.remap = m.nvm.remap) (tx : Bool) (n : Nat) : pathFailed tx n u = pathFailed tx n m := by
  simp only [pathFailed, txFailed, rxFailed, h]

theorem pathFailed_listed (tx : Bool) (n k : Nat) (m : Mach) :
    pathFailed tx k (pathListed tx n m) = (decide (k = n) || pathFailed tx k m) := by
  cases tx
  · simp [pathFailed, pathListed, rxFailed, setRemap]
  · simp [pathFailed, pathListed, txFailed, setRemap]

theorem pathFailed_failPath (tx : Bool) (n crit k : Nat) (m : Mach) :
    pathFailed tx k (failPath tx n crit m) = (decide (k = n) || pathFailed tx k m) := by
  rcases failPath_listed tx n crit m with ⟨h, heq⟩ | heq
  · rw [heq]
    by_cases hk : k = n
    · simp [hk, h]
    · simp [hk]
  · rw [pathFailed_of_remap heq, pathFailed_listed]

/-- A converter rail of quadrant `q` fails for good: its paths are declared failed. -/
theorem railPaths_fail (tx : Bool) (q : Nat) (m : Mach) : ∀ n ∈ pathsOf q, pathFailed tx n (railPaths tx q m) = true :=
  each_own (P := fun n u => pathFailed tx n u = true) (fun n _ u => by simp [pathFailed_failPath])
    (fun a _ b _ _ u hu => by simp [pathFailed_failPath, hu]) m

theorem railFault_rx {m : Mach} (h : coreOn m = true) (q : Fin 4) : ∀ n ∈ pathsOf q, rxFailed n (railFault (.rx q true) m) = true := by
  have heq : railFault (.rx q true) m = railPaths false q m := if_neg (by rw [h]; decide)
  rw [heq]
  exact railPaths_fail false q m

theorem railFault_tx {m : Mach} (h : coreOn m = true) (q : Fin 4) : ∀ n ∈ pathsOf q, txFailed n (railFault (.tx q true) m) = true := by
  have heq : railFault (.tx q true) m = railPaths true q m := if_neg (by rw [h]; decide)
  rw [heq]
  exact railPaths_fail true q m

/-! ### The mirrored changes of each kind, in turn -/

theorem exec_mirrorChange_bad {c : MirChange} (h : mirOk c.body = false) (s : State) :
    exec (.mirrorChange c) s = .fault .malformedCommand := if_neg (by rw [h]; decide)

theorem exec_mirrorChange {c : MirChange} (h : mirOk c.body = true) (s : State) :
    exec (.mirrorChange c) s = .next (s.withM (mirrorChange c s.m)) := if_pos h

section
variable {c : MirChange} {m : Mach} (h : MirTaken c m)
  (hseq : gotOf (mirClass c.body) m = 0 ∨ gotOf (mirClass c.body) m % 2 ^ 32 = c.seq.toNat)
include h hseq

theorem mirrorChange_timeCheck {t : BitVec 64} (hbody : c.body = .timeCheck t) :
    gotOf (mirClass c.body) (mirrorChange c m) = c.seq.toNat + 1 ∧
    (rd HLT_MIR_STATUS (mirrorChange c m)).getLsbD 0 = decide (tick m ≤ t.toNat + 1 ∧ t.toNat ≤ tick m + 1) ∧
    storesKept m (mirrorChange c m) ∧
    (tick m + 1 < t.toNat ∨ t.toNat + 1 < tick m → fon HLT_TWIN_EVENTS.time_mis (mirrorChange c m) = true) := by
  obtain ⟨hbit, hstores, hev⟩ := compared_leaves (c := 0) (by decide) (decide (tick m ≤ t.toNat + 1 ∧ t.toNat ≤ tick m + 1))
    (f := HLT_TWIN_EVENTS.time_mis) rfl rfl (by decide) (mirClass c.body) c.seq m
  have heq : mirrorChange c m = refreshReady (setEvIf (!decide (tick m ≤ t.toNat + 1 ∧ t.toNat ≤ tick m + 1)) HLT_TWIN_EVENTS.time_mis
      (setInSync 0 (decide (tick m ≤ t.toNat + 1 ∧ t.toNat ≤ tick m + 1)) (seqNoted (mirClass c.body) c.seq m))) := by
    rw [mirrorChange_applies h (fun u => by simp only [hbody, mirNow]), mirSeqCheck_inTurn hseq]
    conv => lhs; rw [hbody, mirApply]
    rw [hbody]
    rfl
  rw [heq]
  exact ⟨got_setEvIf _ _ 0 _ c.seq m, hbit, hstores, fun hfar => hev (decide_eq_false (by omega))⟩

theorem mirrorChange_deck {d : BitVec 64} (hbody : c.body = .deck d) :
    gotOf (mirClass c.body) (mirrorChange c m) = c.seq.toNat + 1 ∧
    (rd HLT_MIR_STATUS (mirrorChange c m)).getLsbD 1 = decide (d.toNat = deckIdent m) ∧ storesKept m (mirrorChange c m) ∧
    (d.toNat ≠ deckIdent m → fon HLT_TWIN_EVENTS.deck_mis (mirrorChange c m) = true) := by
  obtain ⟨hbit, hstores, hev⟩ := compared_leaves (c := 1) (by decide) (d.toNat == deckIdent m)
    (f := HLT_TWIN_EVENTS.deck_mis) rfl rfl (by decide) (mirClass c.body) c.seq m
  have heq : mirrorChange c m = refreshReady (setEvIf (!(d.toNat == deckIdent m)) HLT_TWIN_EVENTS.deck_mis
      (setInSync 1 (d.toNat == deckIdent m) (seqNoted (mirClass c.body) c.seq m))) := by
    rw [mirrorChange_applies h (fun u => by simp only [hbody, mirNow]), mirSeqCheck_inTurn hseq]
    conv => lhs; rw [hbody, mirApply]
    rw [hbody]
    rfl
  rw [heq]
  refine ⟨got_setEvIf _ _ 1 _ c.seq m, hbit.trans ?_, hstores, fun hd => hev (beq_false_of_ne hd)⟩
  rw [Bool.eq_iff_iff, beq_iff_eq, decide_eq_true_iff]

theorem mirrorChange_quadReq {v : W} (hbody : c.body = .quadReq v) :
    gotOf (mirClass c.body) (mirrorChange c m) = c.seq.toNat + 1 ∧ rd GCTL_QUAD_REQ (mirrorChange c m) = v &&& 0xFFF#32 ∧
    storesKept m (mirrorChange c m) := by
  have heq : mirrorChange c m = refreshReady (wr GCTL_QUAD_REQ (v &&& 0xFFF#32) (seqNoted (mirClass c.body) c.seq m)) := by
    rw [mirrorChange_applies h (fun u => by simp only [hbody, mirNow]), mirSeqCheck_inTurn hseq]
    conv => lhs; rw [hbody, mirApply]
    rw [hbody]
  obtain ⟨hstores, htwin, -, -⟩ := refreshReady_keeps (wr GCTL_QUAD_REQ (v &&& 0xFFF#32) (seqNoted (mirClass c.body) c.seq m))
  have hgot := got_seqNoted (mirClass c.body) c.seq m
  rw [heq]
  refine ⟨?_, ?_, storesKept.trans (m' := wr GCTL_QUAD_REQ (v &&& 0xFFF#32) (seqNoted (mirClass c.body) c.seq m)) (.refl m) hstores⟩
  · rw [gotOf, htwin]
    exact hgot
  · rw [rd_refreshReady (by decide), rd_wr_same]
end

/-! ### The commands of the twin's register (R463) -/

theorem takes_forceTakeover {m : Mach} (h : role m = 2) (ht : timingOn m = true) : Takes 2 m (forceTakeover m) := by
  rw [forceTakeover, if_pos ⟨h, ht⟩]
  exact takes_takeoverStart 2 m

theorem forceTakeover_refused {m : Mach} (h : role m ≠ 2 ∨ timingOn m = false) :
    forceTakeover m = setEv HLT_TWIN_EVENTS.cmd_refused m := by
  refine if_neg fun hc => ?_
  obtain ⟨hrole, htiming⟩ := hc
  rcases h with h | h
  · exact h hrole
  · simp [h] at htiming

theorem handoverCmd_gives {m : Mach} (h : role m = 1) (hrel : m.twin.release = none) : handoverCmd m = startHandover 0xFF m :=
  if_pos ⟨h, hrel⟩

theorem handoverCmd_refused {m : Mach} (h : role m ≠ 1 ∨ m.twin.release ≠ none) :
    handoverCmd m = setEv HLT_TWIN_EVENTS.cmd_refused m := by
  refine if_neg fun hc => ?_
  obtain ⟨hrole, hrel⟩ := hc
  exact h.elim (fun h => h hrole) fun h => h hrel

theorem handoverNotice_not {m : Mach} (h : mirrorOn m = false ∨ role m ≠ 2 ∨ deckMis m = true) : handoverNotice m = m := by
  refine if_neg fun hc => ?_
  obtain ⟨hon, hrole, hdeck⟩ := hc
  rcases h with h | h | h
  · simp [h] at hon
  · exact h hrole
  · simp [h] at hdeck

theorem takes_handoverNotice {m : Mach} (hon : mirrorOn m = true) (h : role m = 2) (hdeck : deckMis m = false) :
    Takes 3 m (handoverNotice m) := by
  rw [handoverNotice, if_pos ⟨hon, h, hdeck⟩]
  exact takes_takeoverStart 3 m

/-- Settles O58. The link works in WARM, ACTIVE and DEGRADED only (assumption 11), mirror_lost is set on either role (assumption 77), a
malformed change stops the block (assumption 9), and what a rail's fault does is the model's reading (assumption 69). -/
theorem twinsMirrorAndTakeOver : Obligations.TwinsMirrorAndTakeOver := by
  intro s
  refine ⟨fun v => ⟨fun h => ?roleClosed, fun h => ⟨fun hv => ?roleRefused, fun h3 hv => ?roleTaken⟩⟩,
    fun h => ⟨?noHeartbeat, fun x => ?noHeard⟩,
    fun h => ⟨?heartbeat, fun hb lag hp => ?heard, fun hb lag hr => ?conflict⟩,
    fun h => ?noLoss, fun hon hseen => ?loss, fun h => ⟨?takeClosed, ?forceClosed, ?handClosed⟩,
    fun h => ⟨⟨fun hok => ?takeover, fun hno => ?takeoverRefused⟩, fun hr ht => ?force, fun hno => ?forceRefused,
      fun hr hrel => ?handover, fun hno => ?handoverRefused⟩,
    fun h => ?noNotice, fun hon hr hd => ?notice, fun h => ?unsettled, fun ht hp hk => ?settled,
    fun q => ⟨fun h => ?noAck, fun w hr ha hc => ⟨fun hq => ?copyFar, fun hq => ?copyEnd⟩,
      fun w k b l hr hc ha => ⟨fun hq => ?ackFar, fun hq hl hbound hport => ?ackNear⟩⟩,
    fun c => ⟨fun h => ?noResync, fun hr hup hc => ?stream, fun hr hc hres => ?copyDone, fun hr hc hres hup => ?copyIn,
      fun hr hc hmem => ?classDone⟩,
    fun c => ⟨fun h => ?malformed, fun h => ⟨fun hno => ?notMirrored, fun hl hcrc hr => ⟨fun hseq => ⟨fun t hb => ?timeCheck,
      fun d hb => ?deck, fun v hb => ?quadReq, fun i ws hb hfits hclean => ?poolVec⟩, fun h0 hgap hcls n t hb => ?swapGap⟩⟩⟩,
    fun r => ⟨fun h => ?railOff, fun h => ⟨fun hr => ?railClk, fun hr => ?railSer,
      fun q => ⟨fun hr => ?railPassing, fun hr => ?railRx, fun hr => ?railTx⟩⟩⟩⟩
  case roleClosed => exact answer_gate_blocked h (twinCfgWrite v)
  case roleRefused => rw [exec_twinRoleWrite h, twinCfgWrite_refused hv]
  case roleTaken => exact ⟨_, exec_twinRoleWrite h v, twinCfgWrite_leaves h3 hv⟩
  case noHeartbeat => exact next_same (heartbeatTx_not h)
  case noHeard => exact next_same (heartbeatRx_not h x.hb x.lag)
  case heartbeat =>
    obtain ⟨hrole, hstate, htoken, hready, htick⟩ := heartbeat_says (m := s.m) h
    refine ⟨_, congrArg (fun m => Host.Outcome.next (s.withM m)) (heartbeatTx_sends h), _, rfl, hrole, hstate, htoken, hready, htick,
      fun a ha => ?_, (refreshReady_keeps s.m).1⟩
    exact rd_refreshReady (by simpa using ha) s.m
  case heard => exact ⟨_, rfl, heartbeatRx_paired h hp lag⟩
  case conflict => exact ⟨_, rfl, heartbeatRx_conflict h hr lag⟩
  case noLoss => exact next_same (heartbeatLoss_not h)
  case loss => exact ⟨_, rfl, heartbeatLoss_leaves hon hseen⟩
  case takeClosed => exact answer_gate_blocked h takeoverCmd
  case forceClosed => exact answer_gate_blocked h forceTakeover
  case handClosed => exact answer_gate_blocked h handoverCmd
  case takeover => exact ⟨_, answer_gate_reach h takeoverCmd, takeoverCmd_ok hok⟩
  case takeoverRefused => exact ⟨_, answer_gate_reach h takeoverCmd, takeoverCmd_refused hno⟩
  case force => exact ⟨_, answer_gate_reach h forceTakeover, takes_forceTakeover hr ht⟩
  case forceRefused =>
    exact (answer_gate_reach h forceTakeover).trans (congrArg (fun m => Host.Outcome.next (s.withM m)) (forceTakeover_refused hno))
  case handover =>
    exact ⟨startHandover 0xFF s.m, (answer_gate_reach h handoverCmd).trans
      (congrArg (fun m => Host.Outcome.next (s.withM m)) (handoverCmd_gives hr hrel)), rfl, rfl, rfl, ⟨rfl, rfl, rfl, rfl⟩⟩
  case handoverRefused =>
    exact (answer_gate_reach h handoverCmd).trans (congrArg (fun m => Host.Outcome.next (s.withM m)) (handoverCmd_refused hno))
  case noNotice => exact next_same (handoverNotice_not h)
  case notice => exact ⟨_, rfl, takes_handoverNotice hon hr hd⟩
  case unsettled => exact next_same (takeoverSettled_not h)
  case settled => exact ⟨_, rfl, takeoverSettled_leaves ht hp hk⟩
  case noAck =>
    rcases h with h | ⟨ha, hc⟩
    · exact next_same (deltaAck_other h q)
    · exact next_same (deltaAck_idle (by rw [ha]; rfl) hc)
  case copyFar => exact next_same ((deltaAck_copy hr ha hc q).trans (if_neg (by rw [seqReached_far hq]; decide)))
  case copyEnd => exact ⟨_, rfl, deltaAck_copy_leaves hr ha hc hq⟩
  case ackFar => exact next_same (deltaAck_idle (by rw [ha, List.takeWhile_cons, if_neg (by rw [seqReached_far hq]; decide)]) hc)
  case ackNear => exact ⟨_, rfl, deltaAck_answers hr hc (by rw [ha, hl]) hq hbound hport⟩
  case noResync => exact next_same (mirrorResync_not h c)
  case stream =>
    subst hc
    exact ⟨_, congrArg (fun m => Host.Outcome.next (s.withM m)) (mirrorResync_streams hr hup), dirStream_leaves s.m⟩
  case copyDone =>
    subst hc
    exact ⟨_, congrArg (fun m => Host.Outcome.next (s.withM m)) (mirrorResync_copyDone hr hres), copyDone_leaves s.m⟩
  case copyIn =>
    subst hc
    exact ⟨_, congrArg (fun m => Host.Outcome.next (s.withM m)) (mirrorResync_copyIn hr hres hup), copyIn_leaves s.m⟩
  case classDone =>
    exact ⟨_, rfl, mirrorResync_complete_leaves hr (hc.imp (congrArg Fin.val) (congrArg Fin.val)) hmem⟩
  case malformed => exact exec_mirrorChange_bad h s
  case notMirrored =>
    refine (exec_mirrorChange h s).trans (next_same (mirrorChange_not fun hc => ?_))
    obtain ⟨hl, hcrc, hr⟩ := hc
    rcases hno with hno | hno | hno
    · exact hno hl
    · simp [hno] at hcrc
    · exact hno hr
  case timeCheck => exact ⟨_, exec_mirrorChange h s, mirrorChange_timeCheck ⟨hl, hcrc, hr⟩ hseq hb⟩
  case deck => exact ⟨_, exec_mirrorChange h s, mirrorChange_deck ⟨hl, hcrc, hr⟩ hseq hb⟩
  case quadReq => exact ⟨_, exec_mirrorChange h s, mirrorChange_quadReq ⟨hl, hcrc, hr⟩ hseq hb⟩
  case poolVec =>
    have hcls : mirClass c.body = 4 := by rw [hb, mirClass]
    simp only [hcls] at hseq ⊢
    exact ⟨_, exec_mirrorChange h s, mirrorChange_poolVec ⟨hl, hcrc, hr⟩ hb h hseq hfits hclean⟩
  case swapGap =>
    rw [hcls] at h0 hgap
    exact ⟨_, exec_mirrorChange h s, mirrorChange_swapGap ⟨hl, hcrc, hr⟩ hb h0 hgap⟩
  case railOff => exact next_same (railFault_off h r)
  case railClk =>
    obtain ⟨hstores, hunlocked, hcoasts, hqplls⟩ := railFault_clk h
    subst hr
    exact ⟨_, rfl, hunlocked, hstores, hcoasts, hqplls⟩
  case railSer =>
    subst hr
    exact ⟨_, rfl, railFault_ser h⟩
  case railPassing => exact next_same (railFault_passing hr)
  case railRx =>
    subst hr
    exact ⟨_, rfl, railFault_rx h q⟩
  case railTx =>
    subst hr
    exact ⟨_, rfl, railFault_tx h q⟩

end Sys2Proof.Machine

/-! SUPPORT. The monitor converters' triggers (R421 to R423): what a sequence's start shows, what a trigger leaves of the other
converters, and the common trigger. -/

namespace Sys2Proof.Machine

/-! ### The converters' registers -/

/-- A converter's own registers lie below the log's. -/
theorem monReg_lt {q k : Nat} (hq : q < 4) (hk : k < 0x400) : monBase q + k < 0x801000 := by unfold monBase; omega

theorem monReg_ne {q j a b : Nat} (h : q ≠ j ∨ a ≠ b) (ha : a < 0x400) (hb : b < 0x400) : monBase q + a ≠ monBase j + b := by
  unfold monBase
  omega

/-- A register of the monitor is none of the log's. -/
theorem not_log {a : Nat} (h : a < 0xC00000) : a ≠ HLT_LOG_WPTR ∧ a ≠ HLT_EVENTS := by
  unfold HLT_LOG_WPTR HLT_EVENTS
  omega

/-- The registers that a trigger of converter `q` can touch. -/
def trigRegs (q : Nat) : List Nat := [MON_STATUS q, MON_EVENTS q, HLT_LOG_WPTR, HLT_EVENTS]

theorem not_mem_trigRegs {q a : Nat} (ha : a < 0xC00000) (h1 : a ≠ MON_STATUS q) (h2 : a ≠ MON_EVENTS q) : a ∉ trigRegs q := by
  obtain ⟨h3, h4⟩ := not_log ha
  simp [trigRegs, h1, h2, h3, h4]

theorem status_trigRegs {q j : Nat} (hq : q < 4) (h : q ≠ j) : MON_STATUS q ∉ trigRegs j :=
  not_mem_trigRegs (Nat.lt_trans (monReg_lt hq (by decide)) (by decide)) (monReg_ne (.inl h) (by decide) (by decide))
    (monReg_ne (.inl h) (by decide) (by decide))

theorem ctrl_trigRegs {q : Nat} (hq : q < 4) (j : Nat) : MON_CTRL q ∉ trigRegs j :=
  not_mem_trigRegs (Nat.lt_trans (monReg_lt hq (by decide)) (by decide)) (monReg_ne (.inr (by decide)) (by decide) (by decide))
    (monReg_ne (.inr (by decide)) (by decide) (by decide))

theorem seq_trigRegs {q e : Nat} (hq : q < 4) (he : e < 32) (j : Nat) : MON_SEQ q e ∉ trigRegs j := by
  refine not_mem_trigRegs ?_ ?_ ?_
  · unfold MON_SEQ monBase; omega
  · unfold MON_SEQ MON_STATUS monBase; omega
  · unfold MON_SEQ MON_EVENTS monBase; omega

theorem status_ne_log {q : Nat} (hq : q < 4) : MON_STATUS q ≠ HLT_LOG_WPTR ∧ MON_STATUS q ≠ HLT_EVENTS :=
  not_log (Nat.lt_trans (monReg_lt hq (by decide)) (by decide))

theorem events_ne_log {q : Nat} (hq : q < 4) : MON_EVENTS q ≠ HLT_LOG_WPTR ∧ MON_EVENTS q ≠ HLT_EVENTS :=
  not_log (Nat.lt_trans (monReg_lt hq (by decide)) (by decide))

/-! ### A converter's hidden state -/

theorem getMon_setMon_other {j q : Nat} (h : j ≠ q) (x : MonSt) (m : Mach) : getMon j (setMon q x m) = getMon j m := by
  simp [getMon, setMon, tabGet_tabPut_other _ _ _ h]

theorem rd_setMon (a q : Nat) (x : MonSt) (m : Mach) : rd a (setMon q x m) = rd a m := rfl

@[simp] theorem fon_setMon (f : Fld) (q : Nat) (x : MonSt) (m : Mach) : fon f (setMon q x m) = fon f m := rfl

@[simp] theorem fget_setMon (f : Fld) (q : Nat) (x : MonSt) (m : Mach) : fget f (setMon q x m) = fget f m := rfl

theorem storesKept_setMon (q : Nat) (x : MonSt) (m : Mach) : storesKept m (setMon q x m) := .refl m

theorem Noted.mon {m u : Mach} (h : Noted m u) : u.mon = m.mon := by obtain ⟨_, _, _, _, _, _, _, _, _, _, _, rfl⟩ := h; rfl

theorem Noted.getMon {m u : Mach} (h : Noted m u) (q : Nat) : getMon q u = getMon q m := by rw [Machine.getMon, h.mon, Machine.getMon]

theorem Noted.monTick {m u : Mach} (h : Noted m u) : u.monTick = m.monTick := by obtain ⟨_, _, _, _, _, _, _, _, _, _, _, rfl⟩ := h; rfl

/-- Events of the monitor and fields: the hidden states stay. -/
theorem getMon_fset (f : Fld) (x j : Nat) (m : Mach) : getMon j (fset f x m) = getMon j m := rfl

/-! ### A sequence that starts (R421) -/

theorem clampN_le {lo hi : Nat} (h : lo ≤ hi) (x : Nat) : clampN lo hi x ≤ hi := by
  unfold clampN
  split
  · exact h
  · split
    · exact Nat.le_refl hi
    · omega

theorem seqLen_le (w : W) : seqLen w ≤ 32 := clampN_le (by decide) _

/-- Entries in force for a sequence of converter `q`. -/
def entriesOf (q : Nat) (m : Mach) : List W := (List.range (seqLen (rd (MON_CTRL q) m))).map fun e => rd (MON_SEQ q e) m

/-- In `u` converter `q` runs a sequence from its first entry, over the entries in force in `m`. -/
def Starts (q : Nat) (m u : Mach) : Prop := fon (MON_STATUS.busy q) u = true ∧ fon (MON_STATUS.pending q) u = false ∧
  fget (MON_STATUS.entry q) u = 0 ∧ (getMon q u).ents = entriesOf q m

/-- The fields of the status as a sequence starts. -/
def statusStarted (q : Nat) (m : Mach) : Mach :=
  fset (MON_STATUS.entry q) 0 (fset (MON_STATUS.pending q) 0 (fset (MON_STATUS.busy q) 1 m))

theorem monStart_eq (q : Nat) (m : Mach) : monStart q m =
    setMon q { getMon q m with ctl := rd (MON_CTRL q) m, ents := entriesOf q m, stop := false } (statusStarted q m) := rfl

theorem statusStarted_shows (q : Nat) (m : Mach) : fon (MON_STATUS.busy q) (statusStarted q m) = true ∧
    fon (MON_STATUS.pending q) (statusStarted q m) = false ∧ fget (MON_STATUS.entry q) (statusStarted q m) = 0 := by
  have hle : 3 + 5 ≤ 32 := by decide
  refine ⟨?_, ?_, ?_⟩
  · rw [statusStarted, fon_fset_other (f := MON_STATUS.entry q) hle (.inr (.inr (by decide : 0 + 1 ≤ 3))),
      fon_fset_other (f := MON_STATUS.pending q) (by decide : 1 + 1 ≤ 32) (.inr (.inr (by decide : 0 + 1 ≤ 1)))]
    exact fon_fset_one (f := MON_STATUS.busy q) rfl (by decide : 0 + 1 ≤ 32) m
  · rw [statusStarted, fon_fset_other (f := MON_STATUS.entry q) hle (.inr (.inr (by decide : 1 + 1 ≤ 3)))]
    exact fon_fset_zero (f := MON_STATUS.pending q) (by decide : 1 + 1 ≤ 32) _
  · exact (fget_fset_same (f := MON_STATUS.entry q) hle 0 _).trans (Nat.zero_mod _)

theorem starts_monStart (q : Nat) (m : Mach) : Starts q m (monStart q m) := by
  obtain ⟨hbusy, hpend, hentry⟩ := statusStarted_shows q m
  rw [monStart_eq, Starts, fon_setMon, fon_setMon, fget_setMon, getMon_setMon_same]
  exact ⟨hbusy, hpend, hentry, rfl⟩

/-- The entries in force are the registers'. -/
theorem entriesOf_congr {q : Nat} {m u : Mach} (hctrl : rd (MON_CTRL q) u = rd (MON_CTRL q) m)
    (hseq : ∀ e < 32, rd (MON_SEQ q e) u = rd (MON_SEQ q e) m) : entriesOf q u = entriesOf q m := by
  rw [entriesOf, hctrl, entriesOf]
  refine List.map_congr_left fun e he => hseq e ?_
  exact Nat.lt_of_lt_of_le (List.mem_range.1 he) (seqLen_le _)

theorem Starts.of_entries {q : Nat} {m u v : Mach} (h : Starts q u v) (he : entriesOf q u = entriesOf q m) : Starts q m v := by
  rw [Starts, he] at h
  exact h

theorem Starts.kept {q : Nat} {m u v : Mach} (h : Starts q m u) (hstatus : rd (MON_STATUS q) v = rd (MON_STATUS q) u)
    (hmon : getMon q v = getMon q u) : Starts q m v := by
  obtain ⟨hbusy, hpend, hentry, hents⟩ := h
  refine ⟨?_, ?_, (fget_of_rd (f := MON_STATUS.entry q) hstatus).trans hentry, by rw [hmon, hents]⟩
  · rw [fon, fget_of_rd (f := MON_STATUS.busy q) hstatus, ← fon, hbusy]
  · rw [fon, fget_of_rd (f := MON_STATUS.pending q) hstatus, ← fon, hpend]

/-! ### A trigger (R422) -/

/-- A trigger of converter `p`: stores, time and the other converters' states are as they were. -/
structure Triggered (p : Nat) (m u : Mach) : Prop where
  stores : storesKept m u
  regs : regsKept (trigRegs p) m u
  others : ∀ j, j ≠ p → getMon j u = getMon j m
  tod : u.tod = m.tod
  period : u.monTick = m.monTick

theorem Triggered.refl (p : Nat) (m : Mach) : Triggered p m m := ⟨.refl m, .refl _ m, fun _ _ => rfl, rfl, rfl⟩

theorem Triggered.trans {p : Nat} {m u v : Mach} (h : Triggered p m u) (h' : Triggered p u v) : Triggered p m v :=
  ⟨h.stores.trans h'.stores, h.regs.trans h'.regs, fun j hj => (h'.others j hj).trans (h.others j hj), h'.tod.trans h.tod,
    h'.period.trans h.period⟩

theorem triggered_setEv {p : Nat} {f : Fld} (hf : f.reg = MON_EVENTS p) (m : Mach) : Triggered p m (setEv f m) := by
  have hn := noted_setEv f m
  have hregs := regsKept_setEv f m
  rw [hf] at hregs
  exact ⟨storesKept_setEv f m, hregs.mono (by simp [trigRegs]), fun j _ => hn.getMon j, hn.tod, hn.monTick⟩

theorem triggered_fset {p : Nat} {f : Fld} (hf : f.reg = MON_STATUS p) (x : Nat) (m : Mach) : Triggered p m (fset f x m) :=
  ⟨.refl m, (regsKept_fset f x m).mono (by simp [trigRegs, hf]), fun _ _ => rfl, rfl, rfl⟩

theorem triggered_setMon (p : Nat) (x : MonSt) (m : Mach) : Triggered p m (setMon p x m) :=
  ⟨.refl m, fun _ _ => rfl, fun _ hj => getMon_setMon_other hj x m, rfl, rfl⟩

theorem triggered_statusStarted (p : Nat) (m : Mach) : Triggered p m (statusStarted p m) :=
  ((triggered_fset (f := MON_STATUS.busy p) rfl 1 m).trans (triggered_fset (f := MON_STATUS.pending p) rfl 0 _)).trans
    (triggered_fset (f := MON_STATUS.entry p) rfl 0 _)

theorem triggered_monStart (p : Nat) (m : Mach) : Triggered p m (monStart p m) := by
  have hkept := triggered_statusStarted p m
  rw [monStart_eq]
  exact hkept.trans (triggered_setMon p _ (statusStarted p m))

theorem triggered_monTrigger (p : Nat) (m : Mach) : Triggered p m (monTrigger p m) := by
  unfold monTrigger
  split
  · exact triggered_setEv rfl m
  · split
    · split
      · exact .refl p m
      · split
        · exact triggered_setEv rfl m
        · exact triggered_fset rfl 1 m
    · exact triggered_monStart p m

/-- An idle converter starts. -/
theorem monTrigger_starts {q : Nat} {m : Mach} (hcal : fon (MON_STATUS.cal_busy q) m = false) (hbusy : fon (MON_STATUS.busy q) m = false) :
    monTrigger q m = monStart q m := by
  simp only [monTrigger, hcal, hbusy, Bool.false_eq_true, if_false]

theorem monTrigger_calibrating {q : Nat} {m : Mach} (hcal : fon (MON_STATUS.cal_busy q) m = true) :
    monTrigger q m = setEv (MON_EVENTS.trig_missed q) m := if_pos hcal

theorem monTrigger_running {q : Nat} {m : Mach} (hcal : fon (MON_STATUS.cal_busy q) m = false) (hbusy : fon (MON_STATUS.busy q) m = true) :
    monTrigger q m = if (getMon q m).ctl.getLsbD 7 then m
      else if fon (MON_STATUS.pending q) m then setEv (MON_EVENTS.trig_missed q) m else fset (MON_STATUS.pending q) 1 m := by
  simp only [monTrigger, hcal, hbusy, Bool.false_eq_true, if_false, if_true]

/-! ### The common trigger (R422) -/

/-- Triggers of the converters of a list: what they leave of any converter's settings, and of the others' states. -/
structure TriggeredAll (l : List Nat) (m u : Mach) : Prop where
  stores : storesKept m u
  tod : u.tod = m.tod
  period : u.monTick = m.monTick
  settings : ∀ q < 4, rd (MON_CTRL q) u = rd (MON_CTRL q) m ∧ ∀ e < 32, rd (MON_SEQ q e) u = rd (MON_SEQ q e) m
  others : ∀ q < 4, q ∉ l → getMon q u = getMon q m ∧ rd (MON_STATUS q) u = rd (MON_STATUS q) m

theorem triggeredAll_each (l : List Nat) (m : Mach) : TriggeredAll l m (each l monTrigger m) := by
  induction l generalizing m with
  | nil => exact ⟨.refl m, rfl, rfl, fun _ _ => ⟨rfl, fun _ _ => rfl⟩, fun _ _ _ => ⟨rfl, rfl⟩⟩
  | cons p l ih =>
    have hfirst := triggered_monTrigger p m
    have hrest := ih (monTrigger p m)
    refine ⟨hfirst.stores.trans hrest.stores, hrest.tod.trans hfirst.tod, hrest.period.trans hfirst.period, fun q hq => ?_,
      fun q hq hmem => ?_⟩
    · obtain ⟨hctrl, hseq⟩ := hrest.settings q hq
      exact ⟨hctrl.trans (hfirst.regs _ (ctrl_trigRegs hq p)), fun e he => (hseq e he).trans (hfirst.regs _ (seq_trigRegs hq he p))⟩
    · simp only [List.mem_cons, not_or] at hmem
      obtain ⟨hne, hnot⟩ := hmem
      obtain ⟨hmon, hstatus⟩ := hrest.others q hq hnot
      exact ⟨hmon.trans (hfirst.others q hne), hstatus.trans (hfirst.regs _ (status_trigRegs hq hne))⟩

/-- A ready converter of the list starts. -/
theorem starts_each {l : List Nat} (hnodup : l.Nodup) {q : Nat} (hq : q < 4) (hmem : q ∈ l) {m : Mach}
    (hcal : fon (MON_STATUS.cal_busy q) m = false) (hbusy : fon (MON_STATUS.busy q) m = false) : Starts q m (each l monTrigger m) := by
  obtain ⟨l1, l2, rfl⟩ := List.append_of_mem hmem
  have hapart := List.nodup_middle.1 hnodup
  obtain ⟨hnot, -⟩ := List.nodup_cons.1 hapart
  simp only [List.mem_append, not_or] at hnot
  have hbefore := triggeredAll_each l1 m
  obtain ⟨hmon, hstatus⟩ := hbefore.others q hq hnot.1
  obtain ⟨hctrl, hseq⟩ := hbefore.settings q hq
  have hstart : Starts q (each l1 monTrigger m) (monTrigger q (each l1 monTrigger m)) := by
    rw [monTrigger_starts]
    · exact starts_monStart q _
    · rw [fon, fget_of_rd (f := MON_STATUS.cal_busy q) hstatus, ← fon, hcal]
    · rw [fon, fget_of_rd (f := MON_STATUS.busy q) hstatus, ← fon, hbusy]
  obtain ⟨hmon', hstatus'⟩ := (triggeredAll_each l2 (monTrigger q (each l1 monTrigger m))).others q hq hnot.2
  have hsplit : each (l1 ++ q :: l2) monTrigger m = each l2 monTrigger (monTrigger q (each l1 monTrigger m)) := by simp [each]
  rw [hsplit]
  exact (hstart.of_entries (entriesOf_congr hctrl hseq)).kept hstatus' hmon'

/-- Converter `q` waits for the common trigger and is idle. -/
def Ready (q : Nat) (m : Mach) : Prop := fon (MON_CTRL.trig_src q) m = true ∧ fon (MON_STATUS.cal_busy q) m = false ∧
  fon (MON_STATUS.busy q) m = false

/-- The common trigger has come in `u`. -/
def Common (m u : Mach) : Prop := ∀ q < 4, (Ready q m → Starts q m u) ∧
  (fon (MON_CTRL.trig_src q) m = false → getMon q u = getMon q m ∧ rd (MON_STATUS q) u = rd (MON_STATUS q) m)

theorem triggeredAll_monCommon (m : Mach) : TriggeredAll (quads4.filter fun q => fon (MON_CTRL.trig_src q) m) m (monCommon m) :=
  triggeredAll_each _ m

theorem common_monCommon (m : Mach) : Common m (monCommon m) := by
  intro q hq
  have hall := triggeredAll_monCommon m
  refine ⟨fun ⟨hsrc, hcal, hbusy⟩ => ?_, fun hsrc => hall.others q hq fun hmem => ?_⟩
  · exact starts_each (List.Nodup.filter _ (by decide)) hq (List.mem_filter.2 ⟨mem_quads4.2 hq, hsrc⟩) hcal hbusy
  · simp [hsrc] at hmem

theorem monTrigCmd_not {v : W} {m : Mach} (h : v.extractLsb' 16 16 ≠ 0x6E0B#16 ∨ v.getLsbD 0 = false ∨ fget MON_TRIG_CFG.src m ≠ 0) :
    monTrigCmd v m = m := by
  refine if_neg fun hc => ?_
  obtain ⟨hkey, hbit, hsrc⟩ := hc
  rcases h with h | h | h
  · exact h (BitVec.eq_of_toNat_eq hkey)
  · exact absurd hbit (by rw [h]; decide)
  · exact h hsrc

theorem monTrigCmd_raises {v : W} {m : Mach} (hkey : v.extractLsb' 16 16 = 0x6E0B#16) (hbit : v.getLsbD 0 = true)
    (hsrc : fget MON_TRIG_CFG.src m = 0) : monTrigCmd v m = monCommon m := if_pos ⟨congrArg BitVec.toNat hkey, hbit, hsrc⟩

theorem monBoundary_raises {f : Bool} {m : Mach} (h : fget MON_TRIG_CFG.src m = 1 ∨ (fget MON_TRIG_CFG.src m = 2 ∧ f = true)) :
    monBoundary f m = monCommon m := if_pos h

/-! ### The trigger's source (R422) -/

theorem monCommonTrigger_slot {m : Mach} (h : fget MON_TRIG_CFG.src m = 1) : monCommonTrigger m = slotBoundary m := by
  simp only [monCommonTrigger, h]

theorem monCommonTrigger_frame {m : Mach} (h : fget MON_TRIG_CFG.src m = 2) : monCommonTrigger m = frameBoundary m := by
  simp only [monCommonTrigger, h]

theorem monCommonTrigger_periodic {m : Mach} (h : fget MON_TRIG_CFG.src m = 3) : monCommonTrigger m = monPeriodic m := by
  simp only [monCommonTrigger, h]

theorem monPeriodic_some {m : Mach} {t : Nat} (h : m.monTick = some t) : monPeriodic m =
    if timingOn m = true ∧ t < (nextSlot m).2 then monCommon { advanceTo t m with monTick := some (t + trigPeriod m) } else m := by
  simp only [monPeriodic, h]

theorem monPeriodic_not {m : Mach} (h : ∀ t, m.monTick = some t → timingOn m = false ∨ (nextSlot m).2 ≤ t) : monPeriodic m = m := by
  cases ht : m.monTick with
  | none => simp only [monPeriodic, ht]
  | some t =>
    refine (monPeriodic_some ht).trans (if_neg fun hc => ?_)
    obtain ⟨hon, hlt⟩ := hc
    rcases h t ht with h | h
    · simp [h] at hon
    · omega

theorem monCommonTrigger_not {m : Mach} (h : fget MON_TRIG_CFG.src m = 0 ∨ timingOn m = false) : monCommonTrigger m = m := by
  have hlt : fget MON_TRIG_CFG.src m < 4 := fget_lt MON_TRIG_CFG.src m
  rcases h with h | h
  · simp only [monCommonTrigger, h]
  · match hsrc : fget MON_TRIG_CFG.src m, hlt with
    | 0, _ => simp only [monCommonTrigger, hsrc]
    | 1, _ => exact (monCommonTrigger_slot hsrc).trans (if_neg (by rw [h]; decide))
    | 2, _ => exact (monCommonTrigger_frame hsrc).trans (if_neg fun hc => by simp [h] at hc)
    | 3, _ => exact (monCommonTrigger_periodic hsrc).trans (monPeriodic_not fun _ _ => .inl h)

/-- The periodic instant has come, and the next one is set. -/
def periodMoved (t : Nat) (m : Mach) : Mach := { advanceTo t m with monTick := some (t + trigPeriod m) }

theorem periodMoved_keeps (t : Nat) (m : Mach) : storesKept m (periodMoved t m) ∧ (∀ a, rd a (periodMoved t m) = rd a m) ∧
    ∀ q, getMon q (periodMoved t m) = getMon q m := by
  obtain ⟨_, hadv⟩ := advanceTo_frame t m
  rw [periodMoved, hadv]
  exact ⟨.refl m, fun _ => rfl, fun _ => rfl⟩

theorem Common.of_regs {m u v : Mach} (h : Common u v) (hregs : ∀ a, rd a u = rd a m) (hmon : ∀ q, getMon q u = getMon q m) :
    Common m v := by
  have hfon : ∀ f, fon f u = fon f m := fun f => by rw [fon, fget_of_rd (hregs _), fon]
  intro q hq
  obtain ⟨hstart, hkept⟩ := h q hq
  refine ⟨fun ⟨hsrc, hcal, hbusy⟩ => ?_, fun hsrc => ?_⟩
  · exact (hstart ⟨(hfon _).trans hsrc, (hfon _).trans hcal, (hfon _).trans hbusy⟩).of_entries
      (entriesOf_congr (hregs _) fun _ _ => hregs _)
  · rw [← hmon, ← hregs]
    exact hkept ((hfon _).trans hsrc)

theorem monPeriodic_leaves {m : Mach} (hon : timingOn m = true) {t : Nat} (ht : m.monTick = some t) (hlt : t < (nextSlot m).2) :
    storesKept m (monPeriodic m) ∧ Common m (monPeriodic m) ∧ (monPeriodic m).monTick = some (t + trigPeriod m) ∧
    t ≤ tick (monPeriodic m) := by
  have heq : monPeriodic m = monCommon (periodMoved t m) := (monPeriodic_some ht).trans (if_pos ⟨hon, hlt⟩)
  obtain ⟨hstores, hregs, hmon⟩ := periodMoved_keeps t m
  have hall := triggeredAll_monCommon (periodMoved t m)
  rw [heq]
  refine ⟨hstores.trans hall.stores, (common_monCommon (periodMoved t m)).of_regs hregs hmon, hall.period, ?_⟩
  rw [tick, hall.tod]
  change t ≤ tick (advanceTo t m)
  rcases Nat.le_total (tick m) t with hle | hle
  · rw [tick_advanceTo hon hle]
  · rw [advanceTo, if_neg fun hc => by omega]
    exact hle

end Sys2Proof.Machine

/-! SUPPORT. The monitor converters' STOP, calibration, results, FIFO and reads (R419 to R425, R428). -/

namespace Sys2Proof.Machine

/-! ### STOP and calibration (R423, R428) -/

theorem monTrig_own {q : Nat} {m : Mach} (h : fon (MON_CTRL.trig_src q) m = false) : monTrig q m = monTrigger q m :=
  if_neg (by rw [h]; decide)

theorem monTrig_common {q : Nat} {m : Mach} (h : fon (MON_CTRL.trig_src q) m = true) : monTrig q m = m := if_pos h

theorem monStop_idle {q : Nat} {m : Mach} (h : fon (MON_STATUS.busy q) m = false) : monStop q m = m := if_neg (by rw [h]; decide)

theorem monStop_leaves {q : Nat} {m : Mach} (h : fon (MON_STATUS.busy q) m = true) : storesKept m (monStop q m) ∧
    (getMon q (monStop q m)).stop = true ∧ fon (MON_STATUS.pending q) (monStop q m) = false ∧
    fon (MON_STATUS.busy q) (monStop q m) = true ∧ regsKept [MON_STATUS q] m (monStop q m) := by
  have heq : monStop q m = setMon q { getMon q m with stop := true } (fset (MON_STATUS.pending q) 0 m) := if_pos h
  have hpend : fon (MON_STATUS.pending q) (fset (MON_STATUS.pending q) 0 m) = false :=
    fon_fset_zero (f := MON_STATUS.pending q) (by decide : 1 + 1 ≤ 32) m
  have hbusy : fon (MON_STATUS.busy q) (fset (MON_STATUS.pending q) 0 m) = true :=
    (fon_fset_other (f := MON_STATUS.pending q) (by decide : 1 + 1 ≤ 32) (.inr (.inr (by decide : 0 + 1 ≤ 1))) 0 m).trans h
  have hregs : regsKept [MON_STATUS q] m (fset (MON_STATUS.pending q) 0 m) := regsKept_fset (MON_STATUS.pending q) 0 m
  rw [heq, fon_setMon, fon_setMon, getMon_setMon_same]
  exact ⟨.refl m, rfl, hpend, hbusy, hregs⟩

theorem monCal_refused {q : Nat} {m : Mach} (h : fon (MON_STATUS.busy q) m = true ∨ fon (MON_STATUS.pending q) m = true) :
    monCal q m = setEv (MON_EVENTS.cmd_refused q) m := if_pos (by simpa using h)

theorem monCal_begins {q : Nat} {m : Mach} (hb : fon (MON_STATUS.busy q) m = false) (hp : fon (MON_STATUS.pending q) m = false) :
    monCal q m = fset (MON_STATUS.cal_busy q) 1 m := if_neg (by simp [hb, hp])

theorem monCalDone_not {q : Nat} {m : Mach} (h : fon (MON_STATUS.cal_busy q) m = false) (off : BitVec 14) (gain : BitVec 16) :
    monCalDone q off gain m = m := if_neg (by rw [h]; decide)

/-- The factors found, and what the status shows of them. -/
def factorsFound (q : Nat) (off : BitVec 14) (gain : BitVec 16) (m : Mach) : Mach :=
  fset (MON_STATUS.cal_valid q) 1 (fset (MON_STATUS.cal_busy q) 0
    (fset (MON_CAL_GAIN.gain q) gain.toNat (fset (MON_CAL_OFF.off q) off.toNat m)))

theorem calRegs_ne (q : Nat) : MON_CAL_OFF q ≠ MON_STATUS q ∧ MON_CAL_GAIN q ≠ MON_STATUS q ∧ MON_CAL_OFF q ≠ MON_CAL_GAIN q :=
  ⟨monReg_ne (.inr (by decide)) (by decide) (by decide), monReg_ne (.inr (by decide)) (by decide) (by decide),
    monReg_ne (.inr (by decide)) (by decide) (by decide)⟩

theorem factorsFound_shows (q : Nat) (off : BitVec 14) (gain : BitVec 16) (m : Mach) :
    fget (MON_CAL_OFF.off q) (factorsFound q off gain m) = off.toNat ∧
    fget (MON_CAL_GAIN.gain q) (factorsFound q off gain m) = gain.toNat ∧
    fon (MON_STATUS.cal_valid q) (factorsFound q off gain m) = true ∧ fon (MON_STATUS.cal_busy q) (factorsFound q off gain m) = false := by
  obtain ⟨hoff, hgain, happart⟩ := calRegs_ne q
  have hstatus : ∀ f : Fld, f.reg ≠ MON_STATUS q → ∀ u, fget f (fset (MON_STATUS.cal_valid q) 1 (fset (MON_STATUS.cal_busy q) 0 u)) = fget f u :=
    fun f hf u => (fget_fset_other_reg hf _ _).trans (fget_fset_other_reg hf _ _)
  refine ⟨?_, ?_, fon_fset_one (f := MON_STATUS.cal_valid q) rfl (by decide : 16 + 1 ≤ 32) _, ?_⟩
  · rw [factorsFound, hstatus (MON_CAL_OFF.off q) hoff, fget_fset_other_reg (f := MON_CAL_GAIN.gain q) (g := MON_CAL_OFF.off q) happart]
    exact (fget_fset_same (f := MON_CAL_OFF.off q) (by decide : 0 + 14 ≤ 32) _ _).trans (Nat.mod_eq_of_lt off.isLt)
  · rw [factorsFound, hstatus (MON_CAL_GAIN.gain q) hgain]
    exact (fget_fset_same (f := MON_CAL_GAIN.gain q) (by decide : 0 + 16 ≤ 32) _ _).trans (Nat.mod_eq_of_lt gain.isLt)
  · rw [factorsFound, fon_fset_other (f := MON_STATUS.cal_valid q) (by decide : 16 + 1 ≤ 32) (.inr (.inr (by decide : 2 + 1 ≤ 16)))]
    exact fon_fset_zero (f := MON_STATUS.cal_busy q) (by decide : 2 + 1 ≤ 32) _

theorem calRegs_notEv {q : Nat} (hq : q < 4) : MON_CAL_OFF q ∉ [MON_EVENTS q, HLT_LOG_WPTR, HLT_EVENTS] ∧
    MON_CAL_GAIN q ∉ [MON_EVENTS q, HLT_LOG_WPTR, HLT_EVENTS] ∧ MON_STATUS q ∉ [MON_EVENTS q, HLT_LOG_WPTR, HLT_EVENTS] := by
  have hlog : ∀ k < 0x400, k ≠ 0xC → monBase q + k ∉ [MON_EVENTS q, HLT_LOG_WPTR, HLT_EVENTS] := fun k hk hne => by
    obtain ⟨h1, h2⟩ := not_log (a := monBase q + k) (Nat.lt_trans (monReg_lt hq hk) (by decide))
    have h3 : monBase q + k ≠ MON_EVENTS q := monReg_ne (.inr hne) hk (by decide)
    simp [h1, h2, h3]
  exact ⟨hlog 0x10 (by decide) (by decide), hlog 0x14 (by decide) (by decide), hlog 0x8 (by decide) (by decide)⟩

theorem monCalDone_leaves {q : Nat} (hq : q < 4) {m : Mach} (h : fon (MON_STATUS.cal_busy q) m = true) (off : BitVec 14) (gain : BitVec 16) :
    storesKept m (monCalDone q off gain m) ∧ fget (MON_CAL_OFF.off q) (monCalDone q off gain m) = off.toNat ∧
    fget (MON_CAL_GAIN.gain q) (monCalDone q off gain m) = gain.toNat ∧ fon (MON_STATUS.cal_valid q) (monCalDone q off gain m) = true ∧
    fon (MON_STATUS.cal_busy q) (monCalDone q off gain m) = false ∧ fon (MON_EVENTS.cal_done q) (monCalDone q off gain m) = true := by
  have heq : monCalDone q off gain m = setEv (MON_EVENTS.cal_done q) (factorsFound q off gain m) := if_pos h
  obtain ⟨hoff, hgain, hvalid, hbusy⟩ := factorsFound_shows q off gain m
  obtain ⟨hnoff, hngain, hnstatus⟩ := calRegs_notEv hq
  obtain ⟨hw, he⟩ := events_ne_log hq
  have hkept := regsKept_setEv (MON_EVENTS.cal_done q) (factorsFound q off gain m)
  have hstores : storesKept m (factorsFound q off gain m) := .refl m
  rw [heq]
  refine ⟨hstores.trans (storesKept_setEv _ _), ?_, ?_, ?_, ?_, fon_setEv (f := MON_EVENTS.cal_done q) rfl (by decide : 4 + 1 ≤ 32) hw he _⟩
  · exact (hkept.fget (f := MON_CAL_OFF.off q) hnoff).trans hoff
  · exact (hkept.fget (f := MON_CAL_GAIN.gain q) hngain).trans hgain
  · exact (hkept.fon (f := MON_STATUS.cal_valid q) hnstatus).trans hvalid
  · exact (hkept.fon (f := MON_STATUS.cal_busy q) hnstatus).trans hbusy

/-! ### The result of an entry (R420, R424, R425) -/

theorem toBits_lt (w : Nat) (x : Int) : toBits w x < 2 ^ w := by
  have hpos : (0 : Int) < 2 ^ w := by positivity
  have hlt := Int.emod_lt_of_pos x hpos
  have hnn := Int.emod_nonneg x (ne_of_gt hpos)
  unfold toBits
  zify
  omega

theorem monResult_lt (b : Bool) (e : W) (uvs : List Int) : monResult b e uvs < 2 ^ 16 := toBits_lt 16 _

/-- The registers that a result can touch: its data register and the events. -/
def dataRegs (q k : Nat) : List Nat := [MON_DATA q k, MON_EVENTS q, HLT_LOG_WPTR, HLT_EVENTS]

theorem dataReg_lt {q k : Nat} (hq : q < 4) (hk : k < 32) : MON_DATA q k < 0x801000 := by unfold MON_DATA monBase; omega

theorem dataReg_ne {q k a : Nat} (ha : a < 0x200) : MON_DATA q k ≠ monBase q + a := by unfold MON_DATA; omega

theorem dataReg_notEv {q k : Nat} (hq : q < 4) (hk : k < 32) : MON_DATA q k ∉ [MON_EVENTS q, HLT_LOG_WPTR, HLT_EVENTS] := by
  obtain ⟨h1, h2⟩ := not_log (Nat.lt_trans (dataReg_lt hq hk) (by decide))
  have h3 : MON_DATA q k ≠ MON_EVENTS q := dataReg_ne (by decide)
  simp [h1, h2, h3]

/-- The data register's three fields, once the result is there. -/
def dataPlaced (q r k : Nat) (m : Mach) : Mach :=
  fsetB (MON_DATA.overrun q k) (fon (MON_DATA.new q k) m || fon (MON_DATA.overrun q k) m)
    (fset (MON_DATA.new q k) 1 (fset (MON_DATA.result q k) r m))

theorem monData_eq (q r k : Nat) (m : Mach) :
    monData q r k m = setEvIf (fon (MON_DATA.new q k) m) (MON_EVENTS.overrun q) (dataPlaced q r k m) := rfl

theorem dataPlaced_shows {q r k : Nat} (hr : r < 2 ^ 16) (m : Mach) : fget (MON_DATA.result q k) (dataPlaced q r k m) = r ∧
    fon (MON_DATA.new q k) (dataPlaced q r k m) = true ∧
    fon (MON_DATA.overrun q k) (dataPlaced q r k m) = (fon (MON_DATA.new q k) m || fon (MON_DATA.overrun q k) m) := by
  have hover : 17 + 1 ≤ 32 := by decide
  refine ⟨?_, ?_, ?_⟩
  · rw [dataPlaced, fsetB, fget_fset_other (f := MON_DATA.overrun q k) hover (.inr (.inr (by decide : 0 + 16 ≤ 17))),
      fget_fset_other (f := MON_DATA.new q k) (by decide : 16 + 1 ≤ 32) (.inr (.inr (by decide : 0 + 16 ≤ 16)))]
    exact (fget_fset_same (f := MON_DATA.result q k) (by decide : 0 + 16 ≤ 32) r m).trans (Nat.mod_eq_of_lt hr)
  · rw [dataPlaced, fsetB, fon_fset_other (f := MON_DATA.overrun q k) hover (.inr (.inr (by decide : 16 + 1 ≤ 17)))]
    exact fon_fset_one (f := MON_DATA.new q k) rfl (by decide : 16 + 1 ≤ 32) _
  · exact fon_fsetB (f := MON_DATA.overrun q k) rfl hover _ _

theorem regsKept_dataPlaced (q r k : Nat) (m : Mach) : regsKept [MON_DATA q k] m (dataPlaced q r k m) :=
  ((regsKept_fset (MON_DATA.result q k) r m).trans (regsKept_fset (MON_DATA.new q k) 1 _)).trans
    (regsKept_fsetB (MON_DATA.overrun q k) _ _)

/-- The result noted in its data register, with the events it gives. -/
def entryNoted (q r k : Nat) (e : W) (m : Mach) : Mach := setEvIf (entBad e) (MON_EVENTS.cfg_err q) (monData q r k m)

theorem noted_entryNoted (q r k : Nat) (e : W) (m : Mach) : Noted m (entryNoted q r k e m) := by
  have hplaced : Noted m (dataPlaced q r k m) := ((noted_fset _ _ m).trans (noted_fset _ _ _)).trans (noted_fsetB _ _ _)
  rw [entryNoted, monData_eq]
  exact (hplaced.trans (noted_setEvIf ..)).trans (noted_setEvIf ..)

theorem entryNoted_leaves {q r k : Nat} (hq : q < 4) (hk : k < 32) (hr : r < 2 ^ 16) (e : W) (m : Mach) :
    storesKept m (entryNoted q r k e m) ∧ regsKept (dataRegs q k) m (entryNoted q r k e m) ∧
    fget (MON_DATA.result q k) (entryNoted q r k e m) = r ∧ fon (MON_DATA.new q k) (entryNoted q r k e m) = true ∧
    (fon (MON_DATA.new q k) m = true → fon (MON_DATA.overrun q k) (entryNoted q r k e m) = true ∧
      fon (MON_EVENTS.overrun q) (entryNoted q r k e m) = true) ∧
    (entBad e = true → fon (MON_EVENTS.cfg_err q) (entryNoted q r k e m) = true) := by
  obtain ⟨hresult, hnew, hover⟩ := dataPlaced_shows (q := q) (k := k) hr m
  obtain ⟨hw, he⟩ := events_ne_log hq
  have hstores : storesKept m (dataPlaced q r k m) := .refl m
  have hplaced := regsKept_dataPlaced q r k m
  have hev1 := regsKept_setEvIf (fon (MON_DATA.new q k) m) (MON_EVENTS.overrun q) (dataPlaced q r k m)
  have hev2 := regsKept_setEvIf (entBad e) (MON_EVENTS.cfg_err q) (monData q r k m)
  have hkept : regsKept [MON_EVENTS q, HLT_LOG_WPTR, HLT_EVENTS] (dataPlaced q r k m) (entryNoted q r k e m) := by
    rw [monData_eq] at hev2
    rw [entryNoted, monData_eq]
    exact hev1.trans hev2
  have hdata := dataReg_notEv hq hk
  refine ⟨?_, ?_, ?_, ?_, fun hunread => ⟨?_, ?_⟩, fun hbad => ?_⟩
  · rw [entryNoted, monData_eq]
    exact (hstores.trans (storesKept_setEvIf ..)).trans (storesKept_setEvIf ..)
  · exact (hplaced.mono (by simp [dataRegs])).trans (hkept.mono (by simp [dataRegs]))
  · exact (hkept.fget (f := MON_DATA.result q k) hdata).trans hresult
  · exact (hkept.fon (f := MON_DATA.new q k) hdata).trans hnew
  · rw [hkept.fon (f := MON_DATA.overrun q k) hdata, hover, hunread, Bool.true_or]
  · rw [entryNoted, fon_setEvIf_other _ (by decide : 5 + 1 ≤ 32) (.inr (.inr (by decide : 1 + 1 ≤ 5))) hw he, monData_eq,
      fon_setEvIf _ rfl (by decide : 1 + 1 ≤ 32) hw he, hunread, Bool.true_or]
  · rw [entryNoted, fon_setEvIf _ rfl (by decide : 5 + 1 ≤ 32) hw he, hbad, Bool.true_or]

/-! ### The FIFO (R425) -/

/-- The FIFO's word for a result. -/
def fifoWord (q r entry : Nat) (m : Mach) : W :=
  BitVec.ofNat 32 (r + 2 ^ 16 * (entry % 32) + 2 ^ 24 * (fget (MON_STATUS.seq_count q) m % 128) + 2 ^ 31)

theorem fifoWord_holds {q r entry : Nat} (hr : r < 2 ^ 16) (m : Mach) : (fifoWord q r entry m).toNat % 65536 = r ∧
    (fifoWord q r entry m).getLsbD 31 = true := by
  have hlow : r + 2 ^ 16 * (entry % 32) + 2 ^ 24 * (fget (MON_STATUS.seq_count q) m % 128) < 2 ^ 31 := by omega
  refine ⟨?_, ?_⟩
  · rw [fifoWord, BitVec.toNat_ofNat]
    omega
  · rw [fifoWord, BitVec.getLsbD_ofNat, Nat.add_comm, Nat.testBit_two_pow_add_eq, Nat.testBit_lt_two_pow hlow]
    rfl

theorem monPush_joins {q r entry : Nat} {m : Mach} (h : (getMon q m).fifo.length < 1024) : monPush q r entry m =
    fset (MON_FIFO_LVL.lvl q) ((getMon q m).fifo.length + 1)
      (setMon q { getMon q m with fifo := (getMon q m).fifo ++ [fifoWord q r entry m] } m) := if_pos h

theorem monPush_full {q r entry : Nat} {m : Mach} (h : ¬ (getMon q m).fifo.length < 1024) :
    monPush q r entry m = setEv (MON_EVENTS.fifo_ovf q) m := if_neg h

theorem fifoLvl_ne (q : Nat) : MON_EVENTS q ≠ MON_FIFO_LVL q ∧ MON_STATUS q ≠ MON_FIFO_LVL q :=
  ⟨monReg_ne (.inr (by decide)) (by decide) (by decide), monReg_ne (.inr (by decide)) (by decide) (by decide)⟩

/-- A push touches the level and, of the events, fifo_ovf alone; of the hidden state, the FIFO alone. -/
theorem monPush_leaves {q : Nat} (hq : q < 4) (r entry : Nat) (m : Mach) : storesKept m (monPush q r entry m) ∧
    regsKept [MON_FIFO_LVL q, MON_EVENTS q, HLT_LOG_WPTR, HLT_EVENTS] m (monPush q r entry m) ∧
    (∀ f : Fld, f.reg = MON_EVENTS q → 3 ≤ f.lo ∨ f.lo + f.w ≤ 2 → fon f (monPush q r entry m) = fon f m) ∧
    (getMon q (monPush q r entry m)).ents = (getMon q m).ents ∧ (getMon q (monPush q r entry m)).stop = (getMon q m).stop := by
  obtain ⟨hw, he⟩ := events_ne_log hq
  obtain ⟨hlvl, -⟩ := fifoLvl_ne q
  by_cases h : (getMon q m).fifo.length < 1024
  · rw [monPush_joins h]
    refine ⟨.refl m, ?_, fun f hf _ => ?_, ?_, ?_⟩
    · have hset := regsKept_fset (MON_FIFO_LVL.lvl q) ((getMon q m).fifo.length + 1)
        (setMon q { getMon q m with fifo := (getMon q m).fifo ++ [fifoWord q r entry m] } m)
      exact fun a ha => (hset.mono (by simp [MON_FIFO_LVL.lvl]) a ha).trans (rd_setMon ..)
    · rw [fon_fset_other (f := MON_FIFO_LVL.lvl q) (by decide : 0 + 11 ≤ 32) (.inl (by rw [hf]; exact hlvl)), fon_setMon]
    · rw [getMon_fset, getMon_setMon_same]
    · rw [getMon_fset, getMon_setMon_same]
  · rw [monPush_full h]
    have hn := noted_setEv (MON_EVENTS.fifo_ovf q) m
    refine ⟨storesKept_setEv _ m, (regsKept_setEv (MON_EVENTS.fifo_ovf q) m).mono (by simp [MON_EVENTS.fifo_ovf]), fun f hf hd => ?_,
      congrArg MonSt.ents (hn.getMon q), congrArg MonSt.stop (hn.getMon q)⟩
    exact fon_setEv_other (f := MON_EVENTS.fifo_ovf q) (by decide : 2 + 1 ≤ 32) (.inr hd) (by rw [hf]; exact hw) (by rw [hf]; exact he) m

end Sys2Proof.Machine

/-! SUPPORT. The monitor converters' entries and sequence ends, and the reads of their FIFO and data registers (R423 to R425). -/

namespace Sys2Proof.Machine

/-! ### A converter that rests or goes on (R423) -/

theorem monIdle_leaves (q : Nat) (m : Mach) : storesKept m (monIdle q m) ∧ regsKept [MON_STATUS q] m (monIdle q m) ∧
    fon (MON_STATUS.busy q) (monIdle q m) = false ∧ (getMon q (monIdle q m)).ents = [] ∧
    (getMon q (monIdle q m)).fifo = (getMon q m).fifo ∧
    fget (MON_STATUS.seq_count q) (monIdle q m) = fget (MON_STATUS.seq_count q) m := by
  have hregs : regsKept [MON_STATUS q] m (fset (MON_STATUS.pending q) 0 (fset (MON_STATUS.busy q) 0 m)) :=
    (regsKept_fset (MON_STATUS.busy q) 0 m).trans (regsKept_fset (MON_STATUS.pending q) 0 _)
  have hpend : 1 + 1 ≤ 32 := by decide
  rw [monIdle, fon_setMon, fget_setMon, getMon_setMon_same]
  refine ⟨.refl m, hregs, ?_, rfl, rfl, ?_⟩
  · rw [fon_fset_other (f := MON_STATUS.pending q) hpend (.inr (.inr (by decide : 0 + 1 ≤ 1)))]
    exact fon_fset_zero (f := MON_STATUS.busy q) (by decide : 0 + 1 ≤ 32) m
  · rw [fget_fset_other (f := MON_STATUS.pending q) (g := MON_STATUS.seq_count q) hpend (.inr (.inl (by decide : 1 + 1 ≤ 8))),
      fget_fset_other (f := MON_STATUS.busy q) (g := MON_STATUS.seq_count q) (by decide : 0 + 1 ≤ 32) (.inr (.inl (by decide : 0 + 1 ≤ 8)))]

/-- The entries left, and the number of the one in progress. -/
def entryPassed (q k : Nat) (l : List W) (m : Mach) : Mach :=
  if l = [] then setMon q { getMon q m with ents := l } m
  else fset (MON_STATUS.entry q) (k + 1) (setMon q { getMon q m with ents := l } m)

theorem entryPassed_leaves (q k : Nat) (l : List W) (m : Mach) : storesKept m (entryPassed q k l m) ∧
    regsKept [MON_STATUS q] m (entryPassed q k l m) ∧ fon (MON_STATUS.busy q) (entryPassed q k l m) = fon (MON_STATUS.busy q) m ∧
    (getMon q (entryPassed q k l m)).ents = l ∧ (getMon q (entryPassed q k l m)).fifo = (getMon q m).fifo := by
  unfold entryPassed
  split
  · rw [fon_setMon, getMon_setMon_same]
    exact ⟨.refl m, fun _ _ => rfl, rfl, rfl, rfl⟩
  · rw [fon_fset_other (f := MON_STATUS.entry q) (by decide : 3 + 5 ≤ 32) (.inr (.inr (by decide : 0 + 1 ≤ 3))), fon_setMon, getMon_fset,
      getMon_setMon_same]
    have hset := regsKept_fset (MON_STATUS.entry q) (k + 1) (setMon q { getMon q m with ents := l } m)
    exact ⟨.refl m, fun a ha => (hset a ha).trans (rd_setMon ..), rfl, rfl, rfl⟩

/-! ### An entry's result (R420, R424, R425) -/

/-- The number of the entry in progress, and its result. -/
def entryNo (q : Nat) (m : Mach) : Nat := fget (MON_STATUS.entry q) m
def entryResult (q : Nat) (e : W) (uvs : List Int) (m : Mach) : Nat := monResult (fon (MON_STATUS.cal_valid q) m) e uvs

/-- The result noted, and in the FIFO where the sequence asks for it. -/
def entryStored (q : Nat) (e : W) (uvs : List Int) (m : Mach) : Mach :=
  if (getMon q m).ctl.getLsbD 8 then
    monPush q (entryResult q e uvs m) (entryNo q m) (entryNoted q (entryResult q e uvs m) (entryNo q m) e m)
  else entryNoted q (entryResult q e uvs m) (entryNo q m) e m

theorem monEntry_none {q : Nat} {m : Mach} (h : (getMon q m).ents = []) (uvs : List Int) : monEntry q uvs m = m := by
  simp only [monEntry, h]

theorem monEntry_wrong {q : Nat} {e : W} {l : List W} {uvs : List Int} {m : Mach} (h : (getMon q m).ents = e :: l)
    (hn : uvs.length ≠ 2 ^ wfld e 11 2) : monEntry q uvs m = m := by
  simp only [monEntry, h, hn, if_false]

theorem monEntry_taken {q : Nat} {e : W} {l : List W} {uvs : List Int} {m : Mach} (h : (getMon q m).ents = e :: l)
    (hn : uvs.length = 2 ^ wfld e 11 2) : monEntry q uvs m =
      if (getMon q m).stop = true ∧ l ≠ [] then monIdle q (entryStored q e uvs m)
      else entryPassed q (entryNo q m) l (entryStored q e uvs m) := by
  simp only [monEntry, h, hn, if_true, entryPassed, entryStored, entryResult, entryNo, entryNoted]

/-- What is left of a result when the converter rests or goes on: all but its status. -/
structure EntryEnded (q : Nat) (u v : Mach) : Prop where
  stores : storesKept u v
  regs : regsKept [MON_STATUS q] u v
  fifo : (getMon q v).fifo = (getMon q u).fifo

theorem monEntry_ends {q : Nat} {e : W} {l : List W} {uvs : List Int} {m : Mach} (h : (getMon q m).ents = e :: l)
    (hn : uvs.length = 2 ^ wfld e 11 2) : EntryEnded q (entryStored q e uvs m) (monEntry q uvs m) ∧
      ((getMon q m).stop = true → l ≠ [] → fon (MON_STATUS.busy q) (monEntry q uvs m) = false ∧ (getMon q (monEntry q uvs m)).ents = []) ∧
      ((getMon q m).stop = false ∨ l = [] → (getMon q (monEntry q uvs m)).ents = l ∧
        fon (MON_STATUS.busy q) (monEntry q uvs m) = fon (MON_STATUS.busy q) (entryStored q e uvs m)) := by
  rw [monEntry_taken h hn]
  by_cases hrest : (getMon q m).stop = true ∧ l ≠ []
  · obtain ⟨hstores, hregs, hbusy, hents, hfifo, -⟩ := monIdle_leaves q (entryStored q e uvs m)
    rw [if_pos hrest]
    refine ⟨⟨hstores, hregs, hfifo⟩, fun _ _ => ⟨hbusy, hents⟩, fun hgo => ?_⟩
    obtain ⟨hstop, hl⟩ := hrest
    simp [hstop, hl] at hgo
  · obtain ⟨hstores, hregs, hbusy, hents, hfifo⟩ := entryPassed_leaves q (entryNo q m) l (entryStored q e uvs m)
    rw [if_neg hrest]
    exact ⟨⟨hstores, hregs, hfifo⟩, fun hs hl => absurd ⟨hs, hl⟩ hrest, fun _ => ⟨hents, hbusy⟩⟩

theorem entryNo_lt (q : Nat) (m : Mach) : entryNo q m < 32 := fget_lt (MON_STATUS.entry q) m

/-- The state once the result is noted, and pushed or not. -/
theorem entryStored_cases (q : Nat) (e : W) (uvs : List Int) (m : Mach) : entryStored q e uvs m = entryNoted q (entryResult q e uvs m) (entryNo q m) e m ∨
    entryStored q e uvs m = monPush q (entryResult q e uvs m) (entryNo q m) (entryNoted q (entryResult q e uvs m) (entryNo q m) e m) := by
  unfold entryStored
  split
  · exact .inr rfl
  · exact .inl rfl

section
variable {q : Nat} (hq : q < 4) (e : W) (uvs : List Int) (m : Mach)
include hq

theorem pushRegs_data : MON_DATA q (entryNo q m) ∉ [MON_FIFO_LVL q, MON_EVENTS q, HLT_LOG_WPTR, HLT_EVENTS] := by
  have hev := dataReg_notEv hq (entryNo_lt q m)
  have hlvl : MON_DATA q (entryNo q m) ≠ MON_FIFO_LVL q := dataReg_ne (by decide)
  exact List.not_mem_cons_of_ne_of_not_mem hlvl hev

theorem pushRegs_status : MON_STATUS q ∉ [MON_FIFO_LVL q, MON_EVENTS q, HLT_LOG_WPTR, HLT_EVENTS] := by
  obtain ⟨-, -, hev⟩ := calRegs_notEv hq
  exact List.not_mem_cons_of_ne_of_not_mem (fifoLvl_ne q).2 hev

theorem dataRegs_status : MON_STATUS q ∉ dataRegs q (entryNo q m) := by
  obtain ⟨-, -, hev⟩ := calRegs_notEv hq
  exact List.not_mem_cons_of_ne_of_not_mem (dataReg_ne (by decide)).symm hev

theorem entryStored_leaves : storesKept m (entryStored q e uvs m) ∧
    fget (MON_DATA.result q (entryNo q m)) (entryStored q e uvs m) = entryResult q e uvs m ∧
    fon (MON_DATA.new q (entryNo q m)) (entryStored q e uvs m) = true ∧
    (fon (MON_DATA.new q (entryNo q m)) m = true → fon (MON_DATA.overrun q (entryNo q m)) (entryStored q e uvs m) = true ∧
      fon (MON_EVENTS.overrun q) (entryStored q e uvs m) = true) ∧
    (entBad e = true → fon (MON_EVENTS.cfg_err q) (entryStored q e uvs m) = true) ∧
    rd (MON_STATUS q) (entryStored q e uvs m) = rd (MON_STATUS q) m := by
  obtain ⟨hstores, hregs, hresult, hnew, hover, hbad⟩ := entryNoted_leaves hq (entryNo_lt q m)
    (monResult_lt (fon (MON_STATUS.cal_valid q) m) e uvs) e m
  have hstatus := hregs _ (dataRegs_status hq m)
  rcases entryStored_cases q e uvs m with h | h
  · rw [h]
    exact ⟨hstores, hresult, hnew, hover, hbad, hstatus⟩
  · obtain ⟨hpstores, hpregs, hpev, -, -⟩ := monPush_leaves hq (entryResult q e uvs m) (entryNo q m)
      (entryNoted q (entryResult q e uvs m) (entryNo q m) e m)
    have hdata := pushRegs_data hq m
    rw [h]
    refine ⟨hstores.trans hpstores, ?_, ?_, fun hu => ?_, fun hb => ?_, ?_⟩
    · exact (hpregs.fget (f := MON_DATA.result q (entryNo q m)) hdata).trans hresult
    · exact (hpregs.fon (f := MON_DATA.new q (entryNo q m)) hdata).trans hnew
    · obtain ⟨ho, hoe⟩ := hover hu
      exact ⟨(hpregs.fon (f := MON_DATA.overrun q (entryNo q m)) hdata).trans ho,
        (hpev (MON_EVENTS.overrun q) rfl (.inr (by decide : 1 + 1 ≤ 2))).trans hoe⟩
    · exact (hpev (MON_EVENTS.cfg_err q) rfl (.inl (by decide : 3 ≤ 5))).trans (hbad hb)
    · exact (hpregs _ (pushRegs_status hq)).trans hstatus

/-- What the FIFO holds once the result is stored. -/
theorem entryStored_fifo : ((getMon q m).ctl.getLsbD 8 = false → (getMon q (entryStored q e uvs m)).fifo = (getMon q m).fifo) ∧
    ((getMon q m).ctl.getLsbD 8 = true → (getMon q m).fifo.length = 1024 → fon (MON_EVENTS.fifo_ovf q) (entryStored q e uvs m) = true ∧
      (getMon q (entryStored q e uvs m)).fifo = (getMon q m).fifo) ∧
    ((getMon q m).ctl.getLsbD 8 = true → (getMon q m).fifo.length < 1024 → ∃ w : W,
      (getMon q (entryStored q e uvs m)).fifo = (getMon q m).fifo ++ [w] ∧ w.toNat % 65536 = entryResult q e uvs m ∧
      w.getLsbD 31 = true ∧ fget (MON_FIFO_LVL.lvl q) (entryStored q e uvs m) = (getMon q m).fifo.length + 1) := by
  have hmon := (noted_entryNoted q (entryResult q e uvs m) (entryNo q m) e m).getMon q
  obtain ⟨hw, he⟩ := events_ne_log hq
  refine ⟨fun h8 => ?_, fun h8 hfull => ?_, fun h8 hroom => ?_⟩
  · rw [entryStored, h8, if_neg (by decide), hmon]
  · have hnot : ¬ (getMon q (entryNoted q (entryResult q e uvs m) (entryNo q m) e m)).fifo.length < 1024 := by rw [hmon]; omega
    have hn := noted_setEv (MON_EVENTS.fifo_ovf q) (entryNoted q (entryResult q e uvs m) (entryNo q m) e m)
    rw [entryStored, h8, if_pos rfl, monPush_full hnot, hn.getMon, hmon]
    exact ⟨fon_setEv (f := MON_EVENTS.fifo_ovf q) rfl (by decide : 2 + 1 ≤ 32) hw he _, rfl⟩
  · have hjoins : (getMon q (entryNoted q (entryResult q e uvs m) (entryNo q m) e m)).fifo.length < 1024 := by rw [hmon]; exact hroom
    obtain ⟨hlow, hbit⟩ := fifoWord_holds (q := q) (entry := entryNo q m) (monResult_lt (fon (MON_STATUS.cal_valid q) m) e uvs)
      (entryNoted q (entryResult q e uvs m) (entryNo q m) e m)
    refine ⟨_, ?_, hlow, hbit, ?_⟩
    · rw [entryStored, h8, if_pos rfl, monPush_joins hjoins, getMon_fset, getMon_setMon_same, hmon]
      rfl
    · rw [entryStored, h8, if_pos rfl, monPush_joins hjoins, hmon]
      refine (fget_fset_same (f := MON_FIFO_LVL.lvl q) (by decide : 0 + 11 ≤ 32) _ _).trans (Nat.mod_eq_of_lt ?_)
      change (getMon q m).fifo.length + 1 < 2048
      omega
end

/-- A register other than the status reads after the entry's end as once its result is stored. -/
theorem EntryEnded.fon {u v : Mach} (h : EntryEnded q u v) {f : Fld} (hf : f.reg ≠ MON_STATUS q) : Machine.fon f v = Machine.fon f u :=
  h.regs.fon (by simpa using hf)

/-! ### The end of a sequence (R421, R423) -/

theorem monSeqEnd_not {q : Nat} {m : Mach} (h : fon (MON_STATUS.busy q) m = false ∨ (getMon q m).ents ≠ []) : monSeqEnd q m = m := by
  refine if_neg fun hc => ?_
  obtain ⟨hbusy, hents⟩ := hc
  rcases h with h | h
  · simp [h] at hbusy
  · exact h hents

/-- The sequence counted. -/
def seqCounted (q : Nat) (m : Mach) : Mach := fset (MON_STATUS.seq_count q) (fget (MON_STATUS.seq_count q) m + 1) m

theorem monSeqEnd_ends {q : Nat} {m : Mach} (hbusy : fon (MON_STATUS.busy q) m = true) (hents : (getMon q m).ents = []) :
    monSeqEnd q m = if (getMon q m).stop = true then monIdle q (seqCounted q m)
      else if (getMon q m).ctl.getLsbD 7 = true ∨ fon (MON_STATUS.pending q) m = true then monStart q (seqCounted q m)
      else monIdle q (seqCounted q m) := if_pos ⟨hbusy, hents⟩

theorem seqCounted_shows (q : Nat) (m : Mach) :
    fget (MON_STATUS.seq_count q) (seqCounted q m) = (fget (MON_STATUS.seq_count q) m + 1) % 256 :=
  fget_fset_same (f := MON_STATUS.seq_count q) (by decide : 8 + 8 ≤ 32) _ m

theorem seqCount_monStart (q : Nat) (m : Mach) : fget (MON_STATUS.seq_count q) (monStart q m) = fget (MON_STATUS.seq_count q) m := by
  rw [monStart_eq, fget_setMon, statusStarted,
    fget_fset_other (f := MON_STATUS.entry q) (g := MON_STATUS.seq_count q) (by decide : 3 + 5 ≤ 32) (.inr (.inl (by decide : 3 + 5 ≤ 8))),
    fget_fset_other (f := MON_STATUS.pending q) (g := MON_STATUS.seq_count q) (by decide : 1 + 1 ≤ 32) (.inr (.inl (by decide : 1 + 1 ≤ 8))),
    fget_fset_other (f := MON_STATUS.busy q) (g := MON_STATUS.seq_count q) (by decide : 0 + 1 ≤ 32) (.inr (.inl (by decide : 0 + 1 ≤ 8)))]

theorem entriesOf_seqCounted (q : Nat) (m : Mach) : entriesOf q (seqCounted q m) = entriesOf q m := by
  have hkept : regsKept [MON_STATUS q] m (seqCounted q m) := regsKept_fset (MON_STATUS.seq_count q) _ m
  refine entriesOf_congr (hkept _ ?_) fun e _ => hkept _ ?_
  · rw [List.mem_singleton]
    exact monReg_ne (.inr (by decide)) (by decide) (by decide)
  · rw [List.mem_singleton, MON_SEQ, MON_STATUS]
    omega

theorem monSeqEnd_leaves {q : Nat} {m : Mach} (hbusy : fon (MON_STATUS.busy q) m = true) (hents : (getMon q m).ents = []) :
    storesKept m (monSeqEnd q m) ∧
    fget (MON_STATUS.seq_count q) (monSeqEnd q m) = (fget (MON_STATUS.seq_count q) m + 1) % 256 ∧
    ((getMon q m).stop = false → (getMon q m).ctl.getLsbD 7 = true ∨ fon (MON_STATUS.pending q) m = true → Starts q m (monSeqEnd q m)) ∧
    ((getMon q m).stop = true ∨ ((getMon q m).ctl.getLsbD 7 = false ∧ fon (MON_STATUS.pending q) m = false) →
      fon (MON_STATUS.busy q) (monSeqEnd q m) = false) := by
  have hcount := seqCounted_shows q m
  have hstores : storesKept m (seqCounted q m) := .refl m
  obtain ⟨hidle, -, hrests, -, -, hseq⟩ := monIdle_leaves q (seqCounted q m)
  rw [monSeqEnd_ends hbusy hents]
  by_cases hstop : (getMon q m).stop = true
  · rw [if_pos hstop]
    exact ⟨hstores.trans hidle, hseq.trans hcount, fun h => by simp [h] at hstop, fun _ => hrests⟩
  · rw [if_neg hstop]
    by_cases hgo : (getMon q m).ctl.getLsbD 7 = true ∨ fon (MON_STATUS.pending q) m = true
    · rw [if_pos hgo]
      refine ⟨hstores.trans (triggered_monStart q _).stores, (seqCount_monStart q _).trans hcount,
        fun _ _ => (starts_monStart q _).of_entries (entriesOf_seqCounted q m), fun h => ?_⟩
      rcases h with h | ⟨h7, hp⟩
      · exact absurd h hstop
      · rcases hgo with hgo | hgo
        · exact absurd hgo (by rw [h7]; decide)
        · exact absurd hgo (by rw [hp]; decide)
    · rw [if_neg hgo]
      exact ⟨hstores.trans hidle, hseq.trans hcount, fun _ h => absurd h hgo, fun _ => hrests⟩

/-! ### The reads (R424, R425) -/

theorem readWord_closed {a : Nat} {m : Mach} (h : reach a m = false) (f : Mach → W × Mach) :
    returnWord (gateRead a f m) = send (.rdata 0#32) m := by
  rw [gateRead, if_neg (by rw [h]; decide)]
  rfl

theorem readWord_open {a : Nat} {m : Mach} (h : reach a m = true) (f : Mach → W × Mach) :
    returnWord (gateRead a f m) = send (.rdata (f m).1) (f m).2 := by
  rw [gateRead, if_pos h]
  rfl

theorem monFifoPop_empty {q : Nat} {m : Mach} (h : (getMon q m).fifo = []) : monFifoPop q m = (0#32, setEv (MON_EVENTS.fifo_udf q) m) := by
  simp only [monFifoPop, h]

theorem monFifoPop_takes {q : Nat} {w : W} {l : List W} {m : Mach} (h : (getMon q m).fifo = w :: l) : monFifoPop q m =
    (w, fset (MON_FIFO_LVL.lvl q) l.length (setMon q { getMon q m with fifo := l } m)) := by
  simp only [monFifoPop, h]

/-- The oldest word taken from the FIFO. -/
theorem fifoTaken_leaves (q : Nat) (l : List W) (m : Mach) :
    storesKept m (fset (MON_FIFO_LVL.lvl q) l.length (setMon q { getMon q m with fifo := l } m)) ∧
    (getMon q (fset (MON_FIFO_LVL.lvl q) l.length (setMon q { getMon q m with fifo := l } m))).fifo = l ∧
    fget (MON_FIFO_LVL.lvl q) (fset (MON_FIFO_LVL.lvl q) l.length (setMon q { getMon q m with fifo := l } m)) = l.length % 2048 ∧
    regsKept [MON_FIFO_LVL q] m (fset (MON_FIFO_LVL.lvl q) l.length (setMon q { getMon q m with fifo := l } m)) := by
  have hset := regsKept_fset (MON_FIFO_LVL.lvl q) l.length (setMon q { getMon q m with fifo := l } m)
  refine ⟨.refl m, ?_, fget_fset_same (f := MON_FIFO_LVL.lvl q) (by decide : 0 + 11 ≤ 32) _ _, fun a ha => (hset a ha).trans (rd_setMon ..)⟩
  rw [getMon_fset, getMon_setMon_same]

/-- The data register with its two marks cleared. -/
def dataRead (q e : Nat) (m : Mach) : Mach := fset (MON_DATA.overrun q e) 0 (fset (MON_DATA.new q e) 0 m)

theorem monDataPop_eq (q e : Nat) (m : Mach) : monDataPop q e m = (rd (MON_DATA q e) m, dataRead q e m) := rfl

theorem dataRead_leaves (q e : Nat) (m : Mach) : fon (MON_DATA.new q e) (dataRead q e m) = false ∧
    fon (MON_DATA.overrun q e) (dataRead q e m) = false ∧
    fget (MON_DATA.result q e) (dataRead q e m) = fget (MON_DATA.result q e) m ∧ regsKept [MON_DATA q e] m (dataRead q e m) := by
  have hover : 17 + 1 ≤ 32 := by decide
  refine ⟨?_, fon_fset_zero (f := MON_DATA.overrun q e) hover _, ?_,
    (regsKept_fset (MON_DATA.new q e) 0 m).trans (regsKept_fset (MON_DATA.overrun q e) 0 _)⟩
  · rw [dataRead, fon_fset_other (f := MON_DATA.overrun q e) hover (.inr (.inr (by decide : 16 + 1 ≤ 17)))]
    exact fon_fset_zero (f := MON_DATA.new q e) (by decide : 16 + 1 ≤ 32) m
  · rw [dataRead, fget_fset_other (f := MON_DATA.overrun q e) (g := MON_DATA.result q e) hover (.inr (.inr (by decide : 0 + 16 ≤ 17))),
      fget_fset_other (f := MON_DATA.new q e) (g := MON_DATA.result q e) (by decide : 16 + 1 ≤ 32) (.inr (.inr (by decide : 0 + 16 ≤ 16)))]

end Sys2Proof.Machine

/-! SUPPORT. The system groups of the monitor converters (R426, R57), and thresholds and the lehr (R433, R434). -/

namespace Sys2Proof.Machine

/-! ### One element among many -/

/-- Only one element's turn changes what `g` sees. -/
theorem each_once {α β : Type} {g : Mach → β} {f : α → Mach → Mach} {l : List α} (hnodup : l.Nodup) {a : α} (ha : a ∈ l)
    (hother : ∀ b ∈ l, b ≠ a → ∀ m, g (f b m) = g m) (m : Mach) : ∃ u, g u = g m ∧ g (each l f m) = g (f a u) := by
  obtain ⟨l1, l2, rfl⟩ := List.append_of_mem ha
  obtain ⟨hnot, -⟩ := List.nodup_cons.1 (List.nodup_middle.1 hnodup)
  simp only [List.mem_append, not_or] at hnot
  have hsplit : each (l1 ++ a :: l2) f m = each l2 f (f a (each l1 f m)) := by simp [each]
  refine ⟨each l1 f m, each_keeps g l1 f (fun b hb => hother b (by simp [hb]) fun hc => hnot.1 (hc ▸ hb)) m, ?_⟩
  rw [hsplit]
  exact each_keeps g l2 f (fun b hb => hother b (by simp [hb]) fun hc => hnot.2 (hc ▸ hb)) _

/-! ### A system group (R426) -/

/-- The groups kept of converter `q`, the latest first. -/
def groupsKept (q : Nat) (cs : List (BitVec 12)) (m : Mach) : List (List Nat) := ((cs.map BitVec.toNat) :: (getMon q m).sys).take 20

/-- One input of the group shown: its latest code, and the mean. -/
def inputShown (q : Nat) (cs : List (BitVec 12)) (sys : List (List Nat)) (i : Nat) (m : Mach) : Mach :=
  fset (MON_SYS.mean q i) ((sys.map fun g => g.getD i 0).sum / sys.length) (fset (MON_SYS.latest q i) (cs.getD i 0#12).toNat m)

theorem monGroup_eq (q : Nat) (cs : List (BitVec 12)) (m : Mach) : monGroup q cs m =
    each quads4 (inputShown q cs (groupsKept q cs m)) (setMon q { getMon q m with sys := groupsKept q cs m } m) := rfl

theorem sysReg_ne {q i p j : Nat} (hi : i < 4) (hj : j < 4) (h : q ≠ p ∨ i ≠ j) : MON_SYS q i ≠ MON_SYS p j := by
  unfold MON_SYS monBase
  omega

theorem inputShown_latest (q : Nat) (cs : List (BitVec 12)) (sys : List (List Nat)) (i : Nat) (m : Mach) :
    fget (MON_SYS.latest q i) (inputShown q cs sys i m) = (cs.getD i 0#12).toNat := by
  rw [inputShown, fget_fset_other (f := MON_SYS.mean q i) (by decide : 16 + 12 ≤ 32) (.inr (.inr (by decide : 0 + 12 ≤ 16)))]
  exact (fget_fset_same (f := MON_SYS.latest q i) (by decide : 0 + 12 ≤ 32) _ m).trans (Nat.mod_eq_of_lt (cs.getD i 0#12).isLt)

theorem regsKept_inputShown (q : Nat) (cs : List (BitVec 12)) (sys : List (List Nat)) (i : Nat) (m : Mach) :
    regsKept [MON_SYS q i] m (inputShown q cs sys i m) :=
  (regsKept_fset (MON_SYS.latest q i) _ m).trans (regsKept_fset (MON_SYS.mean q i) _ _)

theorem monGroup_leaves (q : Nat) (cs : List (BitVec 12)) (m : Mach) : storesKept m (monGroup q cs m) ∧
    (getMon q (monGroup q cs m)).sys = groupsKept q cs m ∧
    ∀ i < 4, fget (MON_SYS.latest q i) (monGroup q cs m) = (cs.getD i 0#12).toNat := by
  have hstores := each_inv (storesKept m) quads4 (inputShown q cs (groupsKept q cs m)) (fun _ _ _ hu => hu.trans (.refl _))
    (setMon q { getMon q m with sys := groupsKept q cs m } m) (storesKept_setMon ..)
  have hmon := each_keeps (getMon q) quads4 (inputShown q cs (groupsKept q cs m)) (fun _ _ _ => rfl)
    (setMon q { getMon q m with sys := groupsKept q cs m } m)
  have hshown := each_own (P := fun i u => fget (MON_SYS.latest q i) u = (cs.getD i 0#12).toNat) (l := quads4)
    (f := inputShown q cs (groupsKept q cs m)) (fun i _ u => inputShown_latest ..) (fun i hi j hj hne u hu => ?_)
    (setMon q { getMon q m with sys := groupsKept q cs m } m)
  · rw [monGroup_eq]
    exact ⟨hstores, by rw [hmon, getMon_setMon_same], fun i hi => hshown i (mem_quads4.2 hi)⟩
  · refine ((regsKept_inputShown q cs _ i u).fget (f := MON_SYS.latest q j) ?_).trans hu
    rw [List.mem_singleton]
    exact sysReg_ne (mem_quads4.1 hj) (mem_quads4.1 hi) (.inr hne)

/-- Another converter's group leaves a converter's groups and codes. -/
theorem monGroup_other {q p : Nat} (h : p ≠ q) (cs : List (BitVec 12)) (m : Mach) : getMon q (monGroup p cs m) = getMon q m ∧
    ∀ i : Fin 4, rd (MON_SYS q i) (monGroup p cs m) = rd (MON_SYS q i) m := by
  rw [monGroup_eq]
  refine ⟨?_, fun i => ?_⟩
  · exact (each_keeps (getMon q) quads4 (inputShown p cs (groupsKept p cs m)) (fun _ _ _ => rfl) _).trans (getMon_setMon_other h.symm _ m)
  · refine (each_keeps (rd (MON_SYS q i)) quads4 _ (fun j hj u => ?_) _).trans (rd_setMon ..)
    refine regsKept_inputShown p cs _ j u _ ?_
    rw [List.mem_singleton]
    exact sysReg_ne i.isLt (mem_quads4.1 hj) (.inl h.symm)

/-- What the groups are seen by: a converter's hidden state and the registers of its four inputs. -/
def groupSeen (q : Nat) (m : Mach) : MonSt × (Fin 4 → W) := (getMon q m, fun i => rd (MON_SYS q i) m)

/-- All four groups taken. -/
def groupsTaken (codes : List (List (BitVec 12))) (m : Mach) : Mach := each quads4 (fun q s => monGroup q (codes.getD q []) s) m

theorem groupsTaken_leaves (codes : List (List (BitVec 12))) (m : Mach) : storesKept m (groupsTaken codes m) ∧
    ∀ q < 4, (getMon q (groupsTaken codes m)).sys = groupsKept q (codes.getD q []) m ∧
      ∀ i < 4, fget (MON_SYS.latest q i) (groupsTaken codes m) = ((codes.getD q []).getD i 0#12).toNat := by
  refine ⟨each_inv (storesKept m) _ _ (fun q _ u hu => hu.trans (monGroup_leaves ..).1) m (.refl m), fun q hq => ?_⟩
  obtain ⟨u, hbefore, hafter⟩ := each_once (g := groupSeen q) (f := fun q s => monGroup q (codes.getD q []) s) (l := quads4) (by decide)
    (mem_quads4.2 hq) (fun p _ hne u => Prod.ext (monGroup_other hne _ u).1 (funext (monGroup_other hne _ u).2)) m
  obtain ⟨-, hsys, hlatest⟩ := monGroup_leaves q (codes.getD q []) u
  have hmon : getMon q u = getMon q m := congrArg Prod.fst hbefore
  refine ⟨?_, fun i hi => ?_⟩
  · rw [groupsKept, hmon, ← groupsKept] at hsys
    exact (congrArg (fun x => x.1.sys) hafter).trans hsys
  · exact (fget_of_rd (f := MON_SYS.latest q i) (congrFun (congrArg Prod.snd hafter) ⟨i, hi⟩)).trans (hlatest i hi)

/-- The measured supply touches its register and the ladder's answer. -/
theorem monVdd_leaves (m : Mach) : storesKept m (monVdd m) ∧ (∀ q, getMon q (monVdd m) = getMon q m) ∧
    regsKept [GCTL_AVS_STATUS] m (monVdd m) := by
  have hset : ∀ c, regsKept [GCTL_AVS_STATUS] m (fset GCTL_AVS_STATUS.meas_code c m) := fun c => regsKept_fset GCTL_AVS_STATUS.meas_code c m
  unfold monVdd
  dsimp only
  split
  · exact ⟨.refl m, fun _ => rfl, .refl _ m⟩
  · split
    · exact ⟨.refl m, fun _ => rfl, hset _⟩
    · exact ⟨.refl m, fun _ => rfl, hset _⟩

theorem monSystem_off {codes : List (List (BitVec 12))} {m : Mach} (h : coreOn m = false) : monSystem codes m = m :=
  if_neg (by rw [h]; decide)

theorem groupsOk_length {codes : List (List (BitVec 12))} (h : groupsOk codes = true) {q : Nat} {l : List (BitVec 12)}
    (hl : codes[q]? = some l) : l.length = 4 := by
  simp only [groupsOk, Bool.and_eq_true, decide_eq_true_eq, List.all_eq_true] at h
  exact h.2 l (List.mem_of_getElem? hl)

theorem monSystem_leaves {codes : List (List (BitVec 12))} (hok : groupsOk codes = true) {m : Mach} (h : coreOn m = true) :
    storesKept m (monSystem codes m) ∧ ∀ q < 4, ∀ l, codes[q]? = some l →
      (getMon q (monSystem codes m)).sys = (l.map BitVec.toNat :: (getMon q m).sys).take 20 ∧
      ∀ (i : Nat) (c : BitVec 12), l[i]? = some c → fget (MON_SYS.latest q i) (monSystem codes m) = c.toNat := by
  have heq : monSystem codes m = monVdd (groupsTaken codes m) := if_pos h
  obtain ⟨hstores, hgroups⟩ := groupsTaken_leaves codes m
  obtain ⟨hvstores, hvmon, hvregs⟩ := monVdd_leaves (groupsTaken codes m)
  rw [heq]
  refine ⟨hstores.trans hvstores, fun q hq l hl => ?_⟩
  obtain ⟨hsys, hlatest⟩ := hgroups q hq
  have hgot : codes.getD q [] = l := by rw [List.getD_eq_getElem?_getD, hl]; rfl
  rw [hgot] at hsys hlatest
  refine ⟨by rw [hvmon, hsys, groupsKept], fun i c hc => ?_⟩
  have hi : i < 4 := by
    rw [← groupsOk_length hok hl]
    exact (List.getElem?_eq_some_iff.1 hc).1
  have hcode : l.getD i 0#12 = c := by rw [List.getD_eq_getElem?_getD, hc]; rfl
  rw [hvregs.fget (f := MON_SYS.latest q i) (by rw [List.mem_singleton]; unfold MON_SYS.latest MON_SYS monBase GCTL_AVS_STATUS; dsimp only; omega),
    hlatest i hi, hcode]

/-! ### The thresholds (R433) -/

/-- Ordered thresholds in their ranges: warning, throttle, shutdown. -/
def ThrGood (v : W) : Prop := 60 ≤ v.toNat % 256 ∧ v.toNat % 256 ≤ 115 ∧ 80 ≤ v.toNat / 256 % 256 ∧ v.toNat / 256 % 256 ≤ 115 ∧
  110 ≤ v.toNat / 65536 % 256 ∧ v.toNat / 65536 % 256 ≤ 125 ∧ v.toNat % 256 ≤ v.toNat / 256 % 256 ∧
  v.toNat / 256 % 256 < v.toNat / 65536 % 256

theorem wfld_bytes (v : W) : wfld v 0 8 = v.toNat % 256 ∧ wfld v 8 8 = v.toNat / 256 % 256 ∧ wfld v 16 8 = v.toNat / 65536 % 256 := by
  refine ⟨?_, ?_, ?_⟩
  · rw [wfld, BitVec.extractLsb'_toNat, Nat.shiftRight_zero]
  · rw [wfld, BitVec.extractLsb'_toNat, Nat.shiftRight_eq_div_pow]
  · rw [wfld, BitVec.extractLsb'_toNat, Nat.shiftRight_eq_div_pow]

theorem monThrWrite_refused {v : W} (h : ¬ ThrGood v) (m : Mach) : monThrWrite v m = setEv MON_THERM_EVENTS.cfg_err m := by
  obtain ⟨hw, ht, hs⟩ := wfld_bytes v
  unfold monThrWrite
  rw [hw, ht, hs]
  exact if_neg h

theorem monThrWrite_taken {v : W} (h : ThrGood v) (m : Mach) : rd MON_THR (monThrWrite v m) = v &&& 0xFFFFFF#32 ∧
    regsKept [MON_THR] m (monThrWrite v m) ∧ (monThrWrite v m).res = m.res ∧ (monThrWrite v m).tiles = m.tiles := by
  obtain ⟨hw, ht, hs⟩ := wfld_bytes v
  have heq : monThrWrite v m = saveSetting MON_THR (wr MON_THR (v &&& 0xFFFFFF#32) m) := by
    unfold monThrWrite
    rw [hw, ht, hs]
    exact if_pos h
  obtain ⟨hregs, hres, htiles⟩ := saveSetting_keeps MON_THR (wr MON_THR (v &&& 0xFFFFFF#32) m)
  have hrd : ∀ a, rd a (monThrWrite v m) = rd a (wr MON_THR (v &&& 0xFFFFFF#32) m) := fun a => by rw [rd, heq, hregs, ← rd]
  refine ⟨(hrd _).trans (rd_wr_same ..), fun a ha => (hrd a).trans (regsKept_wr MON_THR _ m a ha), ?_, ?_⟩
  · rw [heq, hres]; rfl
  · rw [heq, htiles]; rfl

/-! ### The lehr (R434) -/

/-- The largest backoff that the lehr may publish. -/
def lehrTop (m : Mach) : Nat := 10 * clampN 1 60 (fget MON_LEHR_CFG.cap m)

/-- The least change that it publishes. -/
def lehrStep (m : Mach) : Nat := max 1 (fget MON_LEHR_CFG.step_min m)

theorem lehrTarget_le (m : Mach) : lehrTarget m ≤ lehrTop m := Nat.min_le_left _ _

theorem lehrTop_lt (m : Mach) : lehrTop m < 1024 := by
  have hcap : clampN 1 60 (fget MON_LEHR_CFG.cap m) ≤ 60 := clampN_le (by decide) _
  unfold lehrTop
  omega

theorem lehrUpdate_off {m : Mach} (h : timingOn m = false) : lehrUpdate m = m := if_neg (by rw [h]; decide)

/-- The lehr works. -/
def LehrOn (m : Mach) : Prop := fon MON_THERM_STATUS.engaged m = true ∧ fon MON_LEHR_CFG.lehr_en m = true

theorem lehrUpdate_rests {m : Mach} (h : timingOn m = true) (hoff : ¬ LehrOn m) :
    lehrUpdate m = fset MON_THERM_STATUS.lehr_att 0 m := by
  have hno : ¬ (fon MON_THERM_STATUS.engaged m && fon MON_LEHR_CFG.lehr_en m) = true := by
    rw [Bool.and_eq_true]
    exact hoff
  rw [lehrUpdate, if_pos h]
  exact if_neg hno

theorem lehrUpdate_on {m : Mach} (h : timingOn m = true) (hon : LehrOn m) : lehrUpdate m =
    if decide (lehrStep m ≤ max (lehrTarget m) (fget MON_THERM_STATUS.lehr_att m) - min (lehrTarget m) (fget MON_THERM_STATUS.lehr_att m)) ||
        lehrTarget m == 0 || lehrTarget m == lehrTop m then
      setEvIf (lehrTarget m == lehrTop m && fget MON_THERM_STATUS.lehr_att m != lehrTop m) MON_THERM_EVENTS.lehr_cap
        (fset MON_THERM_STATUS.lehr_att (lehrTarget m) m)
    else m := by
  rw [lehrUpdate, if_pos h]
  exact if_pos (by rw [Bool.and_eq_true]; exact hon)

theorem lehrUpdate_publishes {m : Mach} (h : timingOn m = true) (hon : LehrOn m)
    (hfar : fget MON_THERM_STATUS.lehr_att m + lehrStep m ≤ lehrTarget m ∨ lehrTarget m + lehrStep m ≤ fget MON_THERM_STATUS.lehr_att m ∨
      lehrTarget m = 0 ∨ lehrTarget m = lehrTop m) : storesKept m (lehrUpdate m) ∧
    fget MON_THERM_STATUS.lehr_att (lehrUpdate m) = lehrTarget m ∧
    (lehrTarget m = lehrTop m → fget MON_THERM_STATUS.lehr_att m ≠ lehrTop m → fon MON_THERM_EVENTS.lehr_cap (lehrUpdate m) = true) := by
  have hset : fget MON_THERM_STATUS.lehr_att (fset MON_THERM_STATUS.lehr_att (lehrTarget m) m) = lehrTarget m :=
    (fget_fset_same (f := MON_THERM_STATUS.lehr_att) (by decide) _ m).trans
      (Nat.mod_eq_of_lt (Nat.lt_of_le_of_lt (lehrTarget_le m) (lehrTop_lt m)))
  have hstores : storesKept m (fset MON_THERM_STATUS.lehr_att (lehrTarget m) m) := .refl m
  have hpos : 1 ≤ lehrStep m := Nat.le_max_left ..
  rw [lehrUpdate_on h hon, if_pos (by simp only [Bool.or_eq_true, decide_eq_true_eq, beq_iff_eq]; omega)]
  refine ⟨hstores.trans (storesKept_setEvIf ..), ?_, fun htop hnew => ?_⟩
  · exact ((regsKept_setEvIf _ MON_THERM_EVENTS.lehr_cap _).fget (f := MON_THERM_STATUS.lehr_att) (by decide)).trans hset
  · rw [fon_setEvIf _ rfl (by decide) (by decide) (by decide)]
    simp [htop, hnew]

theorem lehrUpdate_near {m : Mach} (h : timingOn m = true) (hon : LehrOn m)
    (hup : lehrTarget m < fget MON_THERM_STATUS.lehr_att m + lehrStep m) (hdown : fget MON_THERM_STATUS.lehr_att m < lehrTarget m + lehrStep m)
    (h0 : lehrTarget m ≠ 0) (htop : lehrTarget m ≠ lehrTop m) : lehrUpdate m = m := by
  rw [lehrUpdate_on h hon]
  refine if_neg ?_
  simp only [Bool.or_eq_true, decide_eq_true_eq, beq_iff_eq]
  omega

end Sys2Proof.Machine

/-! SUPPORT. Junction sensors: a sensor that breaks, a reading's value, and the thresholds that it does or does not enter (R429 to R432). -/

namespace Sys2Proof.Machine

/-! ### A sensor that breaks (R431) -/

/-- R449: the registers that a request for replacement can touch. -/
def replaceRegs (f : Fld) : List Nat := [f.reg, HLT_STATUS, GCTL_DEV_STATE, GCTL_STATE_EVENTS, HLT_LOG_WPTR, HLT_EVENTS]

theorem regsKept_raiseReplace (f : Fld) (m : Mach) : regsKept (replaceRegs f) m (raiseReplace f m) := by
  intro a ha
  simp only [replaceRegs, List.mem_cons, List.not_mem_nil, or_false, not_or] at ha
  obtain ⟨h1, h2, h3, h4, h5, h6⟩ := ha
  have hbits : rd a (requestBits f m) = rd a m := by
    rw [requestBits, rd_summaryRise]
    exact ((rd_fset_other (f := GCTL_DEV_STATE.replace) h3 _ _).trans (rd_fset_other (f := HLT_STATUS.replace) h2 _ _)).trans
      (rd_fset_other h1 _ _)
  have hdegrade : ∀ u, rd a (degradeIfActive u) = rd a u := fun u => by
    unfold degradeIfActive
    split
    · rw [rd_setEv (f := GCTL_STATE_EVENTS.degraded_entered) h4 h5 h6, rd_setDev_other h3]
    · rfl
  rw [raiseReplace_eq, hdegrade, rd_wantEvent, rd_logCode h5 h6, rd_setEv (f := HLT_EVENTS.replace_raised) h6 h5 h6, hbits]

/-- Only what takes note of events and the list of broken sensors, which grows, differ; MON_THR is as it was. -/
structure Watched (m u : Mach) : Prop where
  res : u.res = m.res
  tiles : u.tiles = m.tiles
  power : u.power = m.power
  present : u.present = m.present
  sens : u.sens = m.sens
  thr : rd MON_THR u = rd MON_THR m
  broken : ∀ i, sensBroken i m = true → sensBroken i u = true

theorem Watched.refl (m : Mach) : Watched m m := ⟨rfl, rfl, rfl, rfl, rfl, rfl, fun _ h => h⟩

theorem Watched.trans {m u v : Mach} (h : Watched m u) (h' : Watched u v) : Watched m v :=
  ⟨h'.res.trans h.res, h'.tiles.trans h.tiles, h'.power.trans h.power, h'.present.trans h.present, h'.sens.trans h.sens,
    h'.thr.trans h.thr, fun i hi => h'.broken i (h.broken i hi)⟩

theorem watched_of_noted {m u : Mach} (h : Noted m u) (hthr : rd MON_THR u = rd MON_THR m) : Watched m u :=
  ⟨h.res, h.tiles, h.power, h.present, h.sens, hthr, fun i hi => by rw [sensBroken, h.remap]; exact hi⟩

/-- The sensor listed as broken. -/
def sensListed (i : Nat) (m : Mach) : Mach := refreshBroken (setRemap (fun r => { r with sensBroken := i :: r.sensBroken }) m)

theorem watched_sensListed (i : Nat) (m : Mach) : Watched m (sensListed i m) ∧ sensBroken i (sensListed i m) = true := by
  have hthr : rd MON_THR (sensListed i m) = rd MON_THR m :=
    (rd_wr_other (a := MON_SENS_BROKEN_HI) (by decide) _ _).trans (rd_wr_other (a := MON_SENS_BROKEN_LO) (by decide) _ _)
  have hlist : (sensListed i m).nvm.remap.sensBroken = i :: m.nvm.remap.sensBroken := rfl
  refine ⟨⟨rfl, rfl, rfl, rfl, rfl, hthr, fun j hj => ?_⟩, ?_⟩
  · rw [sensBroken, hlist, List.contains_cons, Bool.or_eq_true]
    exact .inr hj
  · rw [sensBroken, hlist, List.contains_cons, beq_self_eq_true, Bool.true_or]

/-- The break recorded. -/
def breakLogged (i : Nat) (m : Mach) : Mach :=
  logCode 0x0106 (sensDie i) 11 i 0xFFFF [] (whenB (coreOn m) (setEvDie (sensDie i) MON_THERM_EVENTS.sens_broken) m)

theorem watched_breakLogged (i : Nat) (m : Mach) : Watched m (breakLogged i m) := by
  unfold breakLogged whenB
  split
  · refine watched_of_noted ((noted_setEvDie ..).trans (noted_logCode ..)) ?_
    rw [rd_logCode (by decide) (by decide), rd_setEvDie (f := MON_THERM_EVENTS.sens_broken) (by decide) (by decide) (by decide)]
  · exact watched_of_noted (noted_logCode ..) (rd_logCode (by decide) (by decide) ..)

theorem watched_raiseReplace_sensor (m : Mach) : Watched m (raiseReplace HLT_REPLACE.sensor m) :=
  watched_of_noted (noted_raiseReplace _ m) (regsKept_raiseReplace HLT_REPLACE.sensor m _ (by decide))

theorem sensBreak_broken {i : Nat} {m : Mach} (h : sensBroken i m = true) : sensBreak i m = m := if_pos h

theorem sensBreak_leaves (i : Nat) (m : Mach) : Watched m (sensBreak i m) ∧ sensBroken i (sensBreak i m) = true := by
  by_cases h : sensBroken i m = true
  · rw [sensBreak_broken h]
    exact ⟨.refl m, h⟩
  · obtain ⟨hlisted, hbroken⟩ := watched_sensListed i m
    have hlogged := watched_breakLogged i (sensListed i m)
    have heq : sensBreak i m = breakLogged i (sensListed i m) ∨
        sensBreak i m = raiseReplace HLT_REPLACE.sensor (breakLogged i (sensListed i m)) := by
      rw [sensBreak, if_neg h]
      dsimp only
      split
      · exact .inr rfl
      · exact .inl rfl
    rcases heq with heq | heq
    · rw [heq]
      exact ⟨hlisted.trans hlogged, hlogged.broken i hbroken⟩
    · have hraised := watched_raiseReplace_sensor (breakLogged i (sensListed i m))
      rw [heq]
      exact ⟨(hlisted.trans hlogged).trans hraised, hraised.broken i (hlogged.broken i hbroken)⟩

/-! ### What a reading shows (R429, R430) -/

/-- Registers that the thresholds' steps and the largest value touch. -/
def heatRegs : List Nat := [MON_THERM_STATUS, MON_THERM_EVENTS, MON_SHDN_CAUSE, HLT_LOG_WPTR, HLT_EVENTS]

/-- Only such registers, and what takes note of events, differ. -/
structure Heated (m u : Mach) : Prop where
  noted : Noted m u
  regs : regsKept heatRegs m u

theorem Heated.refl (m : Mach) : Heated m m := ⟨.refl m, .refl _ m⟩

theorem Heated.trans {m u v : Mach} (h : Heated m u) (h' : Heated u v) : Heated m v := ⟨h.noted.trans h'.noted, h.regs.trans h'.regs⟩

theorem Heated.watched {m u : Mach} (h : Heated m u) : Watched m u := watched_of_noted h.noted (h.regs _ (by decide))

theorem heated_fset {f : Fld} (h : f.reg ∈ heatRegs) (x : Nat) (m : Mach) : Heated m (fset f x m) :=
  ⟨noted_fset f x m, (regsKept_fset f x m).mono fun a ha => by rw [List.mem_singleton.1 ha]; exact h⟩

theorem heated_thermEv {f : Fld} (h : f.reg = MON_THERM_EVENTS) (i : Nat) (m : Mach) : Heated m (thermEv i f m) := by
  unfold thermEv
  split
  · refine ⟨noted_setEvDie .., fun a ha => rd_setEvDie ?_ ?_ ?_ m⟩
    · rw [h]
      rintro rfl
      exact ha (by decide)
    · rintro rfl
      exact ha (by decide)
    · rintro rfl
      exact ha (by decide)
  · exact .refl m

theorem heated_refreshTmax (m : Mach) : Heated m (refreshTmax m) := by
  unfold refreshTmax
  dsimp only
  split
  · exact heated_fset (f := MON_THERM_STATUS.fast) (by decide) _ m
  · exact (((heated_fset (f := MON_THERM_STATUS.fast) (by decide) _ m).trans
      (heated_fset (f := MON_THERM_STATUS.tmax) (by decide) _ _)).trans (heated_fset (f := MON_THERM_STATUS.hot) (by decide) _ _)).trans
      (heated_fset (f := MON_SHDN_CAUSE.t_now) (by decide) _ _)

theorem heated_warnStep (i : Nat) (m : Mach) : Heated m (warnStep i m) := by
  unfold warnStep
  dsimp only
  split
  · split
    · exact heated_fset (f := MON_THERM_STATUS.warn_st) (by decide) 0 m
    · exact .refl m
  · split
    · exact (heated_fset (f := MON_THERM_STATUS.warn_st) (by decide) 1 m).trans (heated_thermEv (f := MON_THERM_EVENTS.warn) rfl i _)
    · exact .refl m

theorem heated_throttleStep (i : Nat) (m : Mach) : Heated m (throttleStep i m) := by
  unfold throttleStep
  dsimp only
  split
  · split
    · exact ((heated_fset (f := MON_THERM_STATUS.engaged) (by decide) 0 m).trans
        (heated_fset (f := MON_THERM_STATUS.lehr_att) (by decide) 0 _)).trans (heated_thermEv (f := MON_THERM_EVENTS.throttle_off) rfl i _)
    · exact .refl m
  · split
    · exact (heated_fset (f := MON_THERM_STATUS.engaged) (by decide) 1 m).trans
        (heated_thermEv (f := MON_THERM_EVENTS.throttle_on) rfl i _)
    · exact .refl m

/-! ### The shutdown (R436) -/

theorem Sequenced.present {m u : Mach} (h : Sequenced m u) : u.present = m.present := by
  obtain ⟨⟨_, _, _, _, _, _, _, _, _, _, _, rfl⟩, -⟩ := h; rfl

/-- A shutdown keeps the presence and the list of broken sensors. -/
theorem releaseToken_survives (reason : Nat) (m : Mach) : (releaseToken reason m).present = m.present ∧
    (releaseToken reason m).nvm.remap = m.nvm.remap := by
  by_cases h : hasToken m = true
  · have hseq : Sequenced (driveToken false false (fset HLT_TWIN_STATUS.token 0 m))
        (fesAll 0 (refreshPins (driveToken false false (fset HLT_TWIN_STATUS.token 0 m)))) := (sequenced_refreshPins (driveToken false false (fset HLT_TWIN_STATUS.token 0 m))).trans (sequenced_fesAll 0 _)
    have hlog := noted_logCode 0x0302 1 0xFF 0xFFFF 0xFFFF [BitVec.ofNat 8 reason]
      (fesAll 0 (refreshPins (driveToken false false (fset HLT_TWIN_STATUS.token 0 m))))
    obtain ⟨-, -, hnvm, -⟩ := hseq.stores
    rw [releaseToken_held h]
    exact ⟨hlog.present.trans hseq.present, hlog.remap.trans (congrArg Nvm.remap hnvm)⟩
  · rw [releaseToken_none (by simpa using h)]
    exact ⟨rfl, rfl⟩

theorem coreReset_survives (m : Mach) : (coreReset m).present = m.present ∧ (coreReset m).nvm.remap = m.nvm.remap := ⟨rfl, rfl⟩

/-- The decision logged, unless a program runs. -/
theorem noted_shutLogged (k : Nat) (v : Int) (m : Mach) : Noted m (if nvmWriting m then shdnCause k v m else
    logCode 0x0400 1 0xFF 0xFFFF 0xFFFF (leBytes 4 (rd MON_SHDN_CAUSE (shdnCause k v m)).toNat) (shdnCause k v m)) := by
  have hcause : Noted m (shdnCause k v m) := (((noted_fset ..).trans (noted_fset ..)).trans (noted_fset ..)).trans (noted_fset ..)
  split
  · exact hcause
  · exact hcause.trans (noted_logCode ..)

theorem shutdown_survives (k : Nat) (v : Int) (m : Mach) : (shutdown k v m).present = m.present ∧
    (shutdown k v m).nvm.remap = m.nvm.remap := by
  unfold shutdown
  split
  · exact ⟨rfl, rfl⟩
  · have hlogged := noted_shutLogged k v m
    dsimp only
    generalize (if nvmWriting m then shdnCause k v m else
      logCode 0x0400 1 0xFF 0xFFFF 0xFFFF (leBytes 4 (rd MON_SHDN_CAUSE (shdnCause k v m)).toNat) (shdnCause k v m)) = u at hlogged
    obtain ⟨hpresent, hremap⟩ := releaseToken_survives 0 u
    exact ⟨hpresent.trans hlogged.present, hremap.trans hlogged.remap⟩

theorem shutStep_survives (i : Nat) (m : Mach) : (shutStep i m).present = m.present ∧ (shutStep i m).nvm.remap = m.nvm.remap := by
  unfold shutStep
  split
  · exact shutdown_survives ..
  · exact ⟨rfl, rfl⟩

/-! ### The reading (R429 to R432) -/

/-- The sensor's state after the reading `v` of a device in `m`: whether it was replaced counts. -/
def readingKept (i : Nat) (v : Int × Bool) (m : Mach) : Mach :=
  setSens i { seen := true, hist := (v.1 :: (getSens i m).hist).take 8,
              dis := if v.2 && !sensBroken i m then (getSens i m).dis + 1 else 0 } m

/-- A reading that is replaced is noted. -/
def readingGated (i : Nat) (b : Bool) (m : Mach) : Mach := whenB b (thermEv i MON_THERM_EVENTS.sens_gated) m

/-- The reading shown. -/
def readingShown (i : Nat) (x : Int) (v : Int × Bool) (m : Mach) : Mach :=
  fset (MON_TEMP.value i) (toBits 10 v.1) (fsetB (MON_TEMP.broken i) (sensBroken i m)
    (fsetB (MON_TEMP.fast i) (nearThr x m) (fsetB (MON_TEMP.gated i) v.2 m)))

/-- The sensor breaks at its 64th replaced reading in a row. -/
def readingJudged (i : Nat) (v : Int × Bool) (m : Mach) : Mach :=
  if 64 ≤ (if v.2 && !sensBroken i m then (getSens i m).dis + 1 else 0) then
    sensBreak i (readingGated i (v.2 && !sensBroken i m) (readingKept i v m))
  else readingGated i (v.2 && !sensBroken i m) (readingKept i v m)

/-- The reading taken, before the shutdown threshold is looked at. -/
def readingTaken (i : Nat) (x : Int) (v : Int × Bool) (m : Mach) : Mach :=
  throttleStep i (warnStep i (refreshTmax (readingShown i x v (readingJudged i v m))))

theorem sensorReading_off {i : Nat} {m : Mach} (h : m.power = .off) (x : Int) (ok : Bool) : sensorReading i x ok m = m := if_pos h

theorem sensorReading_eq {i : Nat} {m : Mach} (h : m.power ≠ .off) (x : Int) (ok : Bool) : sensorReading i x ok m =
    shutStep i (readingTaken i x (validOf i x (if ok then m else sensBreak i m)) (if ok then m else sensBreak i m)) := by
  simp only [sensorReading, h, if_false, readingTaken, readingShown, readingJudged, readingGated, readingKept]

theorem watched_judged (i : Nat) (v : Int × Bool) (m : Mach) : Watched (readingKept i v m) (readingJudged i v m) := by
  have hgated : Watched (readingKept i v m) (readingGated i (v.2 && !sensBroken i m) (readingKept i v m)) := by
    unfold readingGated whenB
    split
    · exact (heated_thermEv (f := MON_THERM_EVENTS.sens_gated) rfl i _).watched
    · exact .refl _
  by_cases h64 : 64 ≤ (if v.2 && !sensBroken i m then (getSens i m).dis + 1 else 0)
  · rw [readingJudged, if_pos h64]
    exact hgated.trans (sensBreak_leaves ..).1
  · rw [readingJudged, if_neg h64]
    exact hgated

theorem tempReg_notHeat {i : Nat} (hi : i < 36) : MON_TEMP i ∉ heatRegs := by
  simp only [heatRegs, List.mem_cons, List.not_mem_nil, or_false, not_or, MON_TEMP, MON_THERM_STATUS, MON_THERM_EVENTS, MON_SHDN_CAUSE,
    HLT_LOG_WPTR, HLT_EVENTS]
  omega

theorem thr_ne_temp (i : Nat) : MON_THR ≠ MON_TEMP i := by
  unfold MON_THR MON_TEMP
  omega

theorem watched_shown (i : Nat) (x : Int) (v : Int × Bool) (m : Mach) : Watched m (readingShown i x v m) ∧
    fget (MON_TEMP.value i) (readingShown i x v m) = toBits 10 v.1 := by
  have hne := thr_ne_temp i
  refine ⟨watched_of_noted ?_ ?_, ?_⟩
  · exact (((noted_fsetB ..).trans (noted_fsetB ..)).trans (noted_fsetB ..)).trans (noted_fset ..)
  · rw [readingShown, rd_fset_other (f := MON_TEMP.value i) hne, fsetB, rd_fset_other (f := MON_TEMP.broken i) hne, fsetB,
      rd_fset_other (f := MON_TEMP.fast i) hne, fsetB, rd_fset_other (f := MON_TEMP.gated i) hne]
  · exact (fget_fset_same (f := MON_TEMP.value i) (by decide : 0 + 10 ≤ 32) _ _).trans (Nat.mod_eq_of_lt (toBits_lt 10 _))

/-- What a reading leaves before the shutdown threshold is looked at. -/
theorem readingTaken_leaves {i : Nat} (hi : i < 36) (x : Int) (v : Int × Bool) (m : Mach) : Watched (readingKept i v m) (readingTaken i x v m) ∧
    fget (MON_TEMP.value i) (readingTaken i x v m) = toBits 10 v.1 := by
  obtain ⟨hshown, hvalue⟩ := watched_shown i x v (readingJudged i v m)
  have hheat : Heated (readingShown i x v (readingJudged i v m)) (readingTaken i x v m) :=
    ((heated_refreshTmax _).trans (heated_warnStep i _)).trans (heated_throttleStep i _)
  exact ⟨((watched_judged i v m).trans hshown).trans hheat.watched,
    (hheat.regs.fget (f := MON_TEMP.value i) (tempReg_notHeat hi)).trans hvalue⟩

theorem readingKept_survives (i : Nat) (v : Int × Bool) (m : Mach) : (readingKept i v m).present = m.present ∧
    (readingKept i v m).nvm = m.nvm ∧ (readingKept i v m).power = m.power ∧ (readingKept i v m).res = m.res ∧
    (readingKept i v m).tiles = m.tiles ∧ rd MON_THR (readingKept i v m) = rd MON_THR m := ⟨rfl, rfl, rfl, rfl, rfl, rfl⟩

theorem sensBroken_of_remap {m u : Mach} (h : u.nvm.remap = m.nvm.remap) (i : Nat) : sensBroken i u = sensBroken i m := by
  rw [sensBroken, h, sensBroken]

/-- A reading leaves the presence alone, and a failed self-check breaks the sensor. -/
theorem sensorReading_survives {i : Nat} (hi : i < 36) {m : Mach} (h : m.power ≠ .off) (x : Int) (ok : Bool) :
    (sensorReading i x ok m).present = m.present ∧ (ok = false → sensBroken i (sensorReading i x ok m) = true) := by
  obtain ⟨hbreak, hbroken⟩ := sensBreak_leaves i m
  rw [sensorReading_eq h]
  cases ok with
  | true =>
    obtain ⟨hpresent, -⟩ := shutStep_survives i (readingTaken i x (validOf i x m) m)
    exact ⟨hpresent.trans (readingTaken_leaves hi x _ m).1.present, fun hc => by cases hc⟩
  | false =>
    obtain ⟨hpresent, hremap⟩ := shutStep_survives i (readingTaken i x (validOf i x (sensBreak i m)) (sensBreak i m))
    obtain ⟨hwatched, -⟩ := readingTaken_leaves hi x (validOf i x (sensBreak i m)) (sensBreak i m)
    refine ⟨(hpresent.trans hwatched.present).trans hbreak.present, fun _ => ?_⟩
    exact (sensBroken_of_remap hremap i).trans (hwatched.broken i hbroken)

/-! ### A reading below the thresholds (R432) -/

theorem getSens_setSens_other {j i : Nat} (h : j ≠ i) (x : SensSt) (m : Mach) : getSens j (setSens i x m) = getSens j m := by
  simp [getSens, setSens, tabGet_tabPut_other _ _ _ h]

theorem allAbove_of_sens {j : Nat} {m u : Mach} (h : getSens j u = getSens j m) (t : Int) : allAbove t j u = allAbove t j m := by
  simp only [allAbove, h]

/-- A value below a threshold among the last readings keeps a sensor from entering it. -/
theorem allAbove_below {t v : Int} {j : Nat} {l : List Int} {m : Mach} (h : (getSens j m).hist = (v :: l).take 8) (hv : v < t) :
    allAbove t j m = false := by
  have hnot : ¬ t ≤ v := Int.not_le.2 hv
  simp [allAbove, h, hnot]

/-- No sensor enters a threshold that lies above the new reading and that none had entered. -/
theorem entered_none {t v : Int} {i : Nat} {m u : Mach} (hown : (getSens i u).hist = (v :: (getSens i m).hist).take 8) (hv : v < t)
    (hothers : ∀ j, j ≠ i → getSens j u = getSens j m) (hnone : ∀ j, allAbove t j m = false) : entered t i u = none := by
  refine List.find?_eq_none.2 fun j _ => ?_
  by_cases hj : j = i
  · subst hj
    rw [allAbove_below hown hv]
    decide
  · rw [allAbove_of_sens (hothers j hj), hnone]
    decide

theorem shutStep_none {i : Nat} {m : Mach} (h : entered ((thresholds m).getD 2 0) i m = none) : shutStep i m = m := by
  simp only [shutStep, h]

theorem thresholds_of_rd {m u : Mach} (h : rd MON_THR u = rd MON_THR m) : thresholds u = thresholds m := by
  rw [thresholds, fget_of_rd (f := MON_THR.warning) h, fget_of_rd (f := MON_THR.throttle) h, fget_of_rd (f := MON_THR.shutdown) h, thresholds]

theorem getSens_readingTaken {i : Nat} (hi : i < 36) (x : Int) (v : Int × Bool) (m : Mach) :
    (getSens i (readingTaken i x v m)).seen = true ∧ (getSens i (readingTaken i x v m)).hist = (v.1 :: (getSens i m).hist).take 8 ∧
    ∀ j, j ≠ i → getSens j (readingTaken i x v m) = getSens j m := by
  have hsens : ∀ j, getSens j (readingTaken i x v m) = getSens j (readingKept i v m) := fun j => by
    rw [getSens, (readingTaken_leaves hi x v m).1.sens, getSens]
  refine ⟨?_, ?_, fun j hj => (hsens j).trans (getSens_setSens_other hj ..)⟩
  · rw [hsens, readingKept, getSens_setSens_same]
  · rw [hsens, readingKept, getSens_setSens_same]

theorem sensorReading_below {i : Nat} (hi : i < 36) {m : Mach} (h : m.power ≠ .off) (x : Int)
    (hbelow : ∀ t ∈ thresholds m, (validOf i x m).1 < t ∧ ∀ j, allAbove t j m = false) :
    fget (MON_TEMP.value i) (sensorReading i x true m) = toBits 10 (validOf i x m).1 ∧
    (getSens i (sensorReading i x true m)).seen = true ∧
    (getSens i (sensorReading i x true m)).hist = ((validOf i x m).1 :: (getSens i m).hist).take 8 ∧
    (sensorReading i x true m).power = m.power ∧ (∀ j, j ≠ i → getSens j (sensorReading i x true m) = getSens j m) ∧
    (sensorReading i x true m).res = m.res ∧ (sensorReading i x true m).tiles = m.tiles := by
  obtain ⟨hwatched, hvalue⟩ := readingTaken_leaves hi x (validOf i x m) m
  obtain ⟨hseen, hhist, hothers⟩ := getSens_readingTaken hi x (validOf i x m) m
  have hthr : thresholds (readingTaken i x (validOf i x m) m) = thresholds m := thresholds_of_rd hwatched.thr
  have hmem : (thresholds m).getD 2 0 ∈ thresholds m := by simp [thresholds]
  obtain ⟨hlt, hnone⟩ := hbelow _ hmem
  have heq : sensorReading i x true m = readingTaken i x (validOf i x m) m := by
    rw [sensorReading_eq h, if_pos rfl]
    exact shutStep_none (by rw [hthr]; exact entered_none hhist hlt hothers hnone)
  rw [heq]
  exact ⟨hvalue, hseen, hhist, hwatched.power, hothers, hwatched.res, hwatched.tiles⟩

end Sys2Proof.Machine

/-! SUPPORT. The obligation on the monitor converters, the sensors and the lehr, settled (R420 to R434). -/

namespace Sys2Proof.Machine

theorem exec_monSystemGroup {codes : List (List (BitVec 12))} (h : groupsOk codes = true) (s : State) :
    exec (.monSystemGroup codes) s = .next (s.withM (monSystem codes s.m)) := if_pos h

theorem exec_monSystemGroup_bad {codes : List (List (BitVec 12))} (h : groupsOk codes = false) (s : State) :
    exec (.monSystemGroup codes) s = .fault .malformedCommand := if_neg (by rw [h]; decide)

/-- The whole of an entry's result: what is stored, and where the converter goes from there. -/
theorem monEntry_leaves {q : Nat} (hq : q < 4) {e : W} {l : List W} {uvs : List Int} {m : Mach} (h : (getMon q m).ents = e :: l)
    (hn : uvs.length = 2 ^ wfld e 11 2) : storesKept m (monEntry q uvs m) ∧
    fget (MON_DATA.result q (entryNo q m)) (monEntry q uvs m) = entryResult q e uvs m ∧
    fon (MON_DATA.new q (entryNo q m)) (monEntry q uvs m) = true ∧
    (fon (MON_DATA.new q (entryNo q m)) m = true → fon (MON_DATA.overrun q (entryNo q m)) (monEntry q uvs m) = true ∧
      fon (MON_EVENTS.overrun q) (monEntry q uvs m) = true) ∧
    (entBad e = true → fon (MON_EVENTS.cfg_err q) (monEntry q uvs m) = true) ∧
    ((getMon q m).ctl.getLsbD 8 = false → (getMon q (monEntry q uvs m)).fifo = (getMon q m).fifo) ∧
    ((getMon q m).ctl.getLsbD 8 = true → (getMon q m).fifo.length = 1024 → fon (MON_EVENTS.fifo_ovf q) (monEntry q uvs m) = true ∧
      (getMon q (monEntry q uvs m)).fifo = (getMon q m).fifo) ∧
    ((getMon q m).ctl.getLsbD 8 = true → (getMon q m).fifo.length < 1024 → ∃ w : W,
      (getMon q (monEntry q uvs m)).fifo = (getMon q m).fifo ++ [w] ∧ w.toNat % 65536 = entryResult q e uvs m ∧
      w.getLsbD 31 = true ∧ fget (MON_FIFO_LVL.lvl q) (monEntry q uvs m) = (getMon q m).fifo.length + 1) ∧
    ((getMon q m).stop = true → l ≠ [] → fon (MON_STATUS.busy q) (monEntry q uvs m) = false ∧ (getMon q (monEntry q uvs m)).ents = []) ∧
    ((getMon q m).stop = false ∨ l = [] → (getMon q (monEntry q uvs m)).ents = l ∧
      fon (MON_STATUS.busy q) (monEntry q uvs m) = fon (MON_STATUS.busy q) m) := by
  obtain ⟨hstores, hresult, hnew, hover, hbad, hstatus⟩ := entryStored_leaves hq e uvs m
  obtain ⟨hquiet, hfull, hjoin⟩ := entryStored_fifo hq e uvs m
  obtain ⟨hended, hstops, hgoes⟩ := monEntry_ends h hn
  have hdata : MON_DATA q (entryNo q m) ≠ MON_STATUS q := dataReg_ne (by decide)
  have hevents : MON_EVENTS q ≠ MON_STATUS q := monReg_ne (.inr (by decide)) (by decide) (by decide)
  have hget : ∀ f : Fld, f.reg ≠ MON_STATUS q → fget f (monEntry q uvs m) = fget f (entryStored q e uvs m) := fun f hf =>
    hended.regs.fget (by simpa using hf)
  refine ⟨hstores.trans hended.stores, (hget _ hdata).trans hresult, (hended.fon (f := MON_DATA.new q (entryNo q m)) hdata).trans hnew,
    fun hu => ⟨(hended.fon (f := MON_DATA.overrun q (entryNo q m)) hdata).trans (hover hu).1,
      (hended.fon (f := MON_EVENTS.overrun q) hevents).trans (hover hu).2⟩,
    fun hb => (hended.fon (f := MON_EVENTS.cfg_err q) hevents).trans (hbad hb), fun h8 => hended.fifo.trans (hquiet h8),
    fun h8 hlen => ?_, fun h8 hlen => ?_, hstops, fun hgo => ?_⟩
  · obtain ⟨hovf, hsame⟩ := hfull h8 hlen
    exact ⟨(hended.fon (f := MON_EVENTS.fifo_ovf q) hevents).trans hovf, hended.fifo.trans hsame⟩
  · obtain ⟨w, hfifo, hlow, hbit, hlvl⟩ := hjoin h8 hlen
    exact ⟨w, hended.fifo.trans hfifo, hlow, hbit, (hget (MON_FIFO_LVL.lvl q) (fifoLvl_ne q).2.symm).trans hlvl⟩
  · obtain ⟨hents, hbusy⟩ := hgoes hgo
    refine ⟨hents, hbusy.trans ?_⟩
    rw [fon, fget_of_rd (f := MON_STATUS.busy q) hstatus, ← fon]

/-- Settles O56. An ill-formed system group stops the block (assumption 9), and the common trigger stands for the boundary that raises it
(assumption 104). -/
theorem monitorConvertersSensorsAndLehr : Obligations.MonitorConvertersSensorsAndLehr := by
  intro s
  refine ⟨fun q => ⟨fun h => ⟨?trigClosed, ?stopClosed, ?calClosed⟩,
      fun h => ⟨fun hsrc => ?trigCommon, fun hsrc => ⟨fun hcal => ?trigCalibrating, fun hcal hbusy => ?trigStarts,
        fun hcal hbusy => ⟨fun hcont => ?trigContinuous, fun hcont hpend => ?trigMissed, fun hcont hpend => ?trigPends⟩⟩,
        fun hbusy => ?stopIdle, fun hbusy => ?stops, fun hbusy => ?calRefused, fun hbusy hpend => ?calBegins⟩,
      fun off gain => ⟨fun hcal => ?calNot, fun hcal => ?calDone⟩,
      fun hents uvs => ?entryNone, fun e r uvs hents => ⟨fun hlen => ?entryWrong, fun hlen => ?entry⟩,
      fun h => ?endNot, fun hbusy hents => ?ends, fun h => ?fifoClosed, fun h => ⟨fun hempty => ?fifoEmpty, fun w l hfifo => ?fifoTaken⟩,
      fun e => ⟨fun h => ?dataClosed, fun h => ?dataRead⟩⟩,
    fun v => ⟨fun h => ?cmdNot, fun h hkey hbit hsrc => ?cmd⟩,
    ⟨fun h => ?sourceNot, fun h => ?sourceSlot, fun h => ?sourceFrame, fun f h => ?boundary, fun hsrc hlate => ?late,
      fun hsrc hon t ht hlt => ?periodic⟩,
    fun codes => ⟨fun h => ?groupBad, fun h => ⟨fun hoff => ?groupOff, fun hon => ?group⟩⟩,
    fun i val ok => ⟨fun h => ?sensorOff, fun h => ?sensor, fun h hok hbelow => ?sensorBelow⟩,
    fun v => ⟨fun h => ?thrClosed, fun h => ⟨fun hbad => ?thrRefused, fun hgood => ?thrTaken⟩⟩,
    fun h => ?lehrOff, fun h => ⟨fun hoff => ?lehrRests, fun hon => ⟨?lehrTop, fun hfar => ?lehrPublishes, fun hup hdown h0 htop => ?lehrNear⟩⟩⟩
  case trigClosed => exact answer_gate_blocked h (monTrig q)
  case stopClosed => exact answer_gate_blocked h (monStop q)
  case calClosed => exact answer_gate_blocked h (monCal q)
  case trigCommon => exact (answer_gate_reach h (monTrig q)).trans (next_same (monTrig_common hsrc))
  case trigCalibrating =>
    refine (answer_gate_reach h (monTrig q)).trans (congrArg (fun m => Host.Outcome.next (s.withM m)) ?_)
    rw [monTrig_own hsrc, monTrigger_calibrating hcal]
  case trigStarts =>
    refine ⟨_, answer_gate_reach h (monTrig q), ?_⟩
    rw [monTrig_own hsrc, monTrigger_starts hcal hbusy]
    exact ⟨(triggered_monStart q s.m).stores, starts_monStart q s.m⟩
  case trigContinuous =>
    refine (answer_gate_reach h (monTrig q)).trans (next_same ?_)
    rw [monTrig_own hsrc, monTrigger_running hcal hbusy, if_pos hcont]
  case trigMissed =>
    refine (answer_gate_reach h (monTrig q)).trans (congrArg (fun m => Host.Outcome.next (s.withM m)) ?_)
    rw [monTrig_own hsrc, monTrigger_running hcal hbusy, if_neg (by rw [hcont]; decide), if_pos hpend]
  case trigPends =>
    refine (answer_gate_reach h (monTrig q)).trans (congrArg (fun m => Host.Outcome.next (s.withM m)) ?_)
    rw [monTrig_own hsrc, monTrigger_running hcal hbusy, if_neg (by rw [hcont]; decide), if_neg (by rw [hpend]; decide)]
  case stopIdle => exact (answer_gate_reach h (monStop q)).trans (next_same (monStop_idle hbusy))
  case stops => exact ⟨_, answer_gate_reach h (monStop q), monStop_leaves hbusy⟩
  case calRefused =>
    exact (answer_gate_reach h (monCal q)).trans (congrArg (fun m => Host.Outcome.next (s.withM m)) (monCal_refused hbusy))
  case calBegins =>
    exact (answer_gate_reach h (monCal q)).trans (congrArg (fun m => Host.Outcome.next (s.withM m)) (monCal_begins hbusy hpend))
  case calNot => exact next_same (monCalDone_not hcal off gain)
  case calDone => exact ⟨_, rfl, monCalDone_leaves q.isLt hcal off gain⟩
  case entryNone => exact next_same (monEntry_none hents uvs)
  case entryWrong => exact next_same (monEntry_wrong hents hlen)
  case entry => exact ⟨_, rfl, monEntry_leaves q.isLt hents hlen⟩
  case endNot => exact next_same (monSeqEnd_not h)
  case ends => exact ⟨_, rfl, monSeqEnd_leaves hbusy hents⟩
  case fifoClosed => exact ⟨_, congrArg (fun m => Host.Outcome.next (s.withM m)) (readWord_closed h _), .refl s.m, rfl, rfl⟩
  case fifoEmpty =>
    refine ⟨_, congrArg (fun m => Host.Outcome.next (s.withM m)) (readWord_open h _), ?_⟩
    rw [monFifoPop_empty hempty]
    obtain ⟨hw, he⟩ := events_ne_log q.isLt
    have hout : (setEv (MON_EVENTS.fifo_udf q) s.m).out = s.m.out := (noted_setEv _ s.m).out
    refine ⟨(storesKept_setEv (MON_EVENTS.fifo_udf q) s.m).trans (send_keeps ..).1, congrArg (· ++ [OutMsg.rdata 0#32]) hout, ?_⟩
    exact fon_setEv (f := MON_EVENTS.fifo_udf q) rfl (by decide : 3 + 1 ≤ 32) hw he s.m
  case fifoTaken =>
    refine ⟨_, congrArg (fun m => Host.Outcome.next (s.withM m)) (readWord_open h _), ?_⟩
    rw [monFifoPop_takes hfifo]
    obtain ⟨hstores, hleft, hlvl, hregs⟩ := fifoTaken_leaves q l s.m
    exact ⟨hstores.trans (send_keeps ..).1, rfl, hleft, hlvl, hregs⟩
  case dataClosed => exact ⟨_, congrArg (fun m => Host.Outcome.next (s.withM m)) (readWord_closed h _), .refl s.m, rfl, rfl⟩
  case dataRead =>
    refine ⟨_, congrArg (fun m => Host.Outcome.next (s.withM m)) (readWord_open h _), ?_⟩
    rw [monDataPop_eq]
    exact ⟨.refl s.m, rfl, dataRead_leaves q e s.m⟩
  case cmdNot =>
    rcases h with h | h
    · exact answer_gate_blocked h (monTrigCmd v)
    · by_cases hr : reach MON_TRIG_CMD s.m = true
      · exact (answer_gate_reach hr (monTrigCmd v)).trans (next_same (monTrigCmd_not h))
      · exact answer_gate_blocked (by simpa using hr) (monTrigCmd v)
  case cmd =>
    refine ⟨_, answer_gate_reach h (monTrigCmd v), ?_⟩
    rw [monTrigCmd_raises hkey hbit hsrc]
    exact ⟨(triggeredAll_monCommon s.m).stores, common_monCommon s.m⟩
  case sourceNot => exact next_same (monCommonTrigger_not h)
  case sourceSlot => exact congrArg (fun m => Host.Outcome.next (s.withM m)) (monCommonTrigger_slot h)
  case sourceFrame => exact congrArg (fun m => Host.Outcome.next (s.withM m)) (monCommonTrigger_frame h)
  case boundary =>
    rw [monBoundary_raises h]
    exact common_monCommon s.m
  case late => exact next_same ((monCommonTrigger_periodic hsrc).trans (monPeriodic_not fun t ht => .inr (hlate t ht)))
  case periodic =>
    obtain ⟨hstores, hcommon, hnext, htick⟩ := monPeriodic_leaves hon ht hlt
    exact ⟨_, congrArg (fun m => Host.Outcome.next (s.withM m)) (monCommonTrigger_periodic hsrc), hstores, hcommon, hnext, htick⟩
  case groupBad => exact exec_monSystemGroup_bad h s
  case groupOff => exact (exec_monSystemGroup h s).trans (next_same (monSystem_off hoff))
  case group => exact ⟨_, exec_monSystemGroup h s, monSystem_leaves h hon⟩
  case sensorOff => exact next_same (sensorReading_off h val.toInt ok)
  case sensor => exact ⟨_, rfl, sensorReading_survives i.isLt h val.toInt ok⟩
  case sensorBelow =>
    subst hok
    exact ⟨_, rfl, sensorReading_below i.isLt h val.toInt hbelow⟩
  case thrClosed => exact answer_gate_blocked h (monThrWrite v)
  case thrRefused =>
    exact (answer_gate_reach h (monThrWrite v)).trans (congrArg (fun m => Host.Outcome.next (s.withM m)) (monThrWrite_refused hbad s.m))
  case thrTaken => exact ⟨_, answer_gate_reach h (monThrWrite v), monThrWrite_taken hgood s.m⟩
  case lehrOff => exact next_same (lehrUpdate_off h)
  case lehrRests => exact congrArg (fun m => Host.Outcome.next (s.withM m)) (lehrUpdate_rests h hoff)
  case lehrTop => exact lehrTarget_le s.m
  case lehrPublishes => exact ⟨_, rfl, lehrUpdate_publishes h hon hfar⟩
  case lehrNear => exact next_same (lehrUpdate_near h hon hup hdown h0 htop)

end Sys2Proof.Machine

/-! SUPPORT. What a slot boundary keeps of a reshuffle that waits (R482): the image that waits, the boundary's tick, the bit
reshuf_pending, and that nothing is staged for the register that holds it. Each lemma is the frame rule of one operation, in the order of
the definitions; `simp` with the definition's name is its proof where the operation has no case split of its own. -/

namespace Sys2Proof.Machine

/-- IMG_STATUS.reshuf_pending in a register table. -/
def pendBit (t : Tab W) : Bool := (tabGet regReset t IMG_STATUS).getLsbD 6

/-- What is staged for IMG_STATUS. -/
def imgStaged (t : Tab (Option W)) : Option W := tabGet (fun _ => none) t IMG_STATUS

/-- `u` has the reshuffle, its pending bit and the position of `m`. An abbreviation, so that a rule stated with it rewrites each of its
parts. -/
abbrev reshKept (m u : Mach) : Prop :=
  u.img.resh = m.img.resh ∧ u.slotStart = m.slotStart ∧ pendBit u.regs = pendBit m.regs ∧ imgStaged u.stage = imgStaged m.stage ∧
    u.slot = m.slot ∧ u.frameStart = m.frameStart

theorem reshKept.refl (m : Mach) : reshKept m m := ⟨rfl, rfl, rfl, rfl, rfl, rfl⟩

section
variable {m m' u : Mach}

theorem reshKept.resh (h : reshKept m u) : u.img.resh = m.img.resh := h.1
theorem reshKept.slotStart (h : reshKept m u) : u.slotStart = m.slotStart := h.2.1
theorem reshKept.pendBit (h : reshKept m u) : pendBit u.regs = pendBit m.regs := h.2.2.1
theorem reshKept.imgStaged (h : reshKept m u) : imgStaged u.stage = imgStaged m.stage := h.2.2.2.1
theorem reshKept.slot (h : reshKept m u) : u.slot = m.slot := h.2.2.2.2.1
theorem reshKept.frameStart (h : reshKept m u) : u.frameStart = m.frameStart := h.2.2.2.2.2

theorem reshKept.trans (h : reshKept m m') (h' : reshKept m' u) : reshKept m u :=
  ⟨h'.resh.trans h.resh, h'.slotStart.trans h.slotStart, h'.pendBit.trans h.pendBit, h'.imgStaged.trans h.imgStaged,
    h'.slot.trans h.slot, h'.frameStart.trans h.frameStart⟩

end

/-! ### The registers that are not IMG_STATUS -/

@[simp] theorem quadBase_add_ne {k : Nat} (h : k % 0x100000 ≠ 0) (q : Nat) : quadBase q + k ≠ IMG_STATUS := by
  unfold quadBase IMG_STATUS
  omega

@[simp] theorem pathBase_add_ne {k : Nat} (h : 0 < k ∧ k < 0x400) (n : Nat) : pathBase n + k ≠ IMG_STATUS := by
  unfold pathBase quadBase IMG_STATUS
  omega

theorem obsBase_lt (o : Fin 8) : obsBase o < 0x500000 := by
  unfold obsBase quadBase
  omega

theorem pathBase_lt (n : Fin 64) : pathBase n < 0x500000 := by
  unfold pathBase quadBase
  omega

@[simp] theorem rxBase_add_ne {k : Nat} (h : k < 0x400) (u : RxUnit) : rxBase u + k ≠ IMG_STATUS := by
  cases u with
  | path n => have := pathBase_lt n; simp only [rxBase, IMG_STATUS]; omega
  | obs o => have := obsBase_lt o; simp only [rxBase, IMG_STATUS]; omega

@[simp] theorem chainBase_add_ne {k : Nat} (h : k < 0x400) (c : ChainId) : chainBase c + k ≠ IMG_STATUS := by
  cases c with
  | ddc n => have := pathBase_lt n; simp only [chainBase, IMG_STATUS]; omega
  | duc n => have := pathBase_lt n; simp only [chainBase, IMG_STATUS]; omega
  | obs o => have := obsBase_lt o; simp only [chainBase, IMG_STATUS]; omega

@[simp] theorem obsBase_add_ne {k : Nat} (h : k < 0x400) (o : Fin 8) : obsBase o + k ≠ IMG_STATUS := by
  have := obsBase_lt o
  unfold IMG_STATUS
  omega

@[simp] theorem monBase_add_ne {k : Nat} (h : k % 0x400 ≠ 0) (q : Nat) : monBase q + k ≠ IMG_STATUS := by
  unfold monBase IMG_STATUS
  omega

/-- Registers that stand `2 ^ b` bytes apart, at other places of their block than IMG_STATUS in its own. -/
@[simp] theorem add_block_ne {a d : Nat} (hd : d ∈ [0x10, 0x40]) (h : a % d ≠ 0) (n : Nat) : a + d * n ≠ IMG_STATUS := by
  unfold IMG_STATUS
  rcases List.mem_pair.1 hd with rfl | rfl <;> omega

/-- Registers that stand beyond IMG_STATUS. -/
@[simp] theorem add_ne_of_lt {a : Nat} (h : IMG_STATUS < a) (n : Nat) : a + n ≠ IMG_STATUS := by omega

/-! ### Registers, lists and conditions -/

@[simp ↓] theorem reshKept_wr {a : Nat} (h : a ≠ IMG_STATUS) (v : W) (m : Mach) : reshKept m (wr a v m) :=
  ⟨rfl, rfl, congrArg (·.getLsbD 6) (rd_wr_other (Ne.symm h) v m), rfl, rfl, rfl⟩

@[simp ↓] theorem reshKept_fset {f : Fld} (h : f.reg ≠ IMG_STATUS) (x : Nat) (m : Mach) : reshKept m (fset f x m) :=
  reshKept_wr h _ m

@[simp ↓] theorem reshKept_setStage {a : Nat} (h : a ≠ IMG_STATUS) (v : Option W) (m : Mach) : reshKept m (setStage a v m) :=
  ⟨rfl, rfl, rfl, staged_setStage_other (Ne.symm h) v m, rfl, rfl⟩

section
variable {α : Type} (l : List α) (f : α → Mach → Mach) (m : Mach)

@[simp ↓] theorem resh_each (h : ∀ a ∈ l, ∀ m, (f a m).img.resh = m.img.resh) : (each l f m).img.resh = m.img.resh :=
  each_keeps (·.img.resh) l f h m

@[simp ↓] theorem slotStart_each (h : ∀ a ∈ l, ∀ m, (f a m).slotStart = m.slotStart) : (each l f m).slotStart = m.slotStart :=
  each_keeps (·.slotStart) l f h m

@[simp ↓] theorem pendBit_each (h : ∀ a ∈ l, ∀ m, pendBit (f a m).regs = pendBit m.regs) :
    pendBit (each l f m).regs = pendBit m.regs :=
  each_keeps (pendBit ·.regs) l f h m

@[simp ↓] theorem imgStaged_each (h : ∀ a ∈ l, ∀ m, imgStaged (f a m).stage = imgStaged m.stage) :
    imgStaged (each l f m).stage = imgStaged m.stage :=
  each_keeps (imgStaged ·.stage) l f h m

@[simp ↓] theorem slot_each (h : ∀ a ∈ l, ∀ m, (f a m).slot = m.slot) : (each l f m).slot = m.slot := each_keeps (·.slot) l f h m

@[simp ↓] theorem frameStart_each (h : ∀ a ∈ l, ∀ m, (f a m).frameStart = m.frameStart) :
    (each l f m).frameStart = m.frameStart :=
  each_keeps (·.frameStart) l f h m

end

theorem reshKept_each {α : Type} {l : List α} {f : α → Mach → Mach} (h : ∀ a ∈ l, ∀ m, reshKept m (f a m)) (m : Mach) :
    reshKept m (each l f m) :=
  ⟨resh_each l f m fun a ha m => (h a ha m).resh, slotStart_each l f m fun a ha m => (h a ha m).slotStart,
    pendBit_each l f m fun a ha m => (h a ha m).pendBit, imgStaged_each l f m fun a ha m => (h a ha m).imgStaged,
    slot_each l f m fun a ha m => (h a ha m).slot, frameStart_each l f m fun a ha m => (h a ha m).frameStart⟩

section
variable (c : Prop) [Decidable c] (m n : Mach)

@[simp ↓] theorem resh_ite : (if c then m else n).img.resh = if c then m.img.resh else n.img.resh := by
  split <;> rfl

@[simp ↓] theorem slotStart_ite : (if c then m else n).slotStart = if c then m.slotStart else n.slotStart := by
  split <;> rfl

@[simp ↓] theorem pendBit_ite : pendBit (if c then m else n).regs = if c then pendBit m.regs else pendBit n.regs := by
  split <;> rfl

@[simp ↓] theorem imgStaged_ite : imgStaged (if c then m else n).stage = if c then imgStaged m.stage else imgStaged n.stage := by
  split <;> rfl

@[simp ↓] theorem slot_ite : (if c then m else n).slot = if c then m.slot else n.slot := by
  split <;> rfl

@[simp ↓] theorem frameStart_ite : (if c then m else n).frameStart = if c then m.frameStart else n.frameStart := by
  split <;> rfl

end

end Sys2Proof.Machine

/-! SUPPORT. What the operations of a slot boundary keep of a reshuffle that waits: those of Ops, ResMem, Time, HealthOps, Reservoir,
TileOps, Capture and Dma. -/

namespace Sys2Proof.Machine

/-! ### Sys2Proof/Machine/Ops.lean -/

@[simp ↓] theorem reshKept_fsetB {f : Fld} (h : f.reg ≠ IMG_STATUS) (b : Bool) (m : Mach) :
    reshKept m (fsetB f b m) := reshKept_fset h _ m

@[simp ↓] theorem reshKept_cnt {a : Nat} (h : a ≠ IMG_STATUS) (k top : Nat) (m : Mach) : reshKept m (cnt a k top m) := reshKept_wr h _ m
@[simp ↓] theorem reshKept_fcnt {f : Fld} (h : f.reg ≠ IMG_STATUS) (k : Nat) (m : Mach) : reshKept m (fcnt f k m) := reshKept_fset h _ m
@[simp ↓] theorem reshKept_setQ (q : Nat) (x : Quad) (m : Mach) : reshKept m (setQ q x m) := by simp [reshKept, setQ]
@[simp ↓] theorem reshKept_send (o : OutMsg) (m : Mach) : reshKept m (send o m) := by simp [reshKept, send]
@[simp ↓] theorem reshKept_logCure (i : Nat) (m : Mach) : reshKept m (logCure i m) := by simp [reshKept, logCure, RES_PART_BASE]
@[simp ↓] theorem reshKept_logPut (e : LogEntry) (m : Mach) : reshKept m (logPut e m) := by simp +decide [reshKept, logPut]

@[simp ↓] theorem reshKept_summaryRise (g : Nat) (was : Bool) (m : Mach) : reshKept m (summaryRise g was m) := by
  simp [reshKept, summaryRise]

@[simp ↓] theorem reshKept_setEvDie {f : Fld} (h : f.reg ≠ IMG_STATUS) (die : Nat) (m : Mach) : reshKept m (setEvDie die f m) := by
  unfold setEvDie
  split
  · simp [reshKept]
  · dsimp only
    split <;> simp [reshKept, h]

@[simp ↓] theorem reshKept_setEv {f : Fld} (h : f.reg ≠ IMG_STATUS) (m : Mach) : reshKept m (setEv f m) := reshKept_setEvDie h _ m

@[simp ↓] theorem reshKept_setEvBit {a : Nat} (h : a ≠ IMG_STATUS) (i : Nat) (m : Mach) :
    reshKept m (setEvBit a i m) := reshKept_setEv h m

@[simp ↓] theorem reshKept_setEvIf {f : Fld} (h : f.reg ≠ IMG_STATUS) (b : Bool) (m : Mach) : reshKept m (setEvIf b f m) := by
  simp [reshKept, setEvIf, h]

@[simp ↓] theorem reshKept_plogPut (e : LogEntry) (m : Mach) : reshKept m (plogPut e m) := by simp +decide [reshKept, plogPut]

@[simp ↓] theorem reshKept_logCode (code die kind phys logical : Nat) (data : List Byte) (m : Mach) :
    reshKept m (logCode code die kind phys logical data m) := by
  simp [reshKept, logCode]

@[simp ↓] theorem reshKept_setIn (k : Nat) (x : List BEntry) (m : Mach) : reshKept m (setIn k x m) := by simp [reshKept, setIn]
@[simp ↓] theorem reshKept_setOut (k : Nat) (x : OutBr) (m : Mach) : reshKept m (setOut k x m) := by simp [reshKept, setOut]
@[simp ↓] theorem reshKept_setRx (k : Nat) (x : RxSt) (m : Mach) : reshKept m (setRx k x m) := by simp [reshKept, setRx]
@[simp ↓] theorem reshKept_setChain (k : Nat) (x : ChainSt) (m : Mach) : reshKept m (setChain k x m) := by simp [reshKept, setChain]
@[simp ↓] theorem reshKept_setTx (k : Nat) (x : TxSt) (m : Mach) : reshKept m (setTx k x m) := by simp [reshKept, setTx]
@[simp ↓] theorem reshKept_setFes (k : Nat) (x : Fes) (m : Mach) : reshKept m (setFes k x m) := by simp [reshKept, setFes]
@[simp ↓] theorem reshKept_setPd (k : Nat) (x : PdSt) (m : Mach) : reshKept m (setPd k x m) := by simp [reshKept, setPd]
@[simp ↓] theorem reshKept_setTile (k : Nat) (x : Tile) (m : Mach) : reshKept m (setTile k x m) := by simp [reshKept, setTile]
@[simp ↓] theorem reshKept_setCap (k : Nat) (x : CapSet) (m : Mach) : reshKept m (setCap k x m) := by simp [reshKept, setCap]
@[simp ↓] theorem reshKept_setDma (k : Nat) (x : DmaCh) (m : Mach) : reshKept m (setDma k x m) := by simp [reshKept, setDma]
@[simp ↓] theorem reshKept_setUlTx (k : Nat) (x : UlTx) (m : Mach) : reshKept m (setUlTx k x m) := by simp [reshKept, setUlTx]
@[simp ↓] theorem reshKept_setSess (k : Nat) (x : SessSt) (m : Mach) : reshKept m (setSess k x m) := by simp [reshKept, setSess]
@[simp ↓] theorem reshKept_setMon (k : Nat) (x : MonSt) (m : Mach) : reshKept m (setMon k x m) := by simp [reshKept, setMon]
@[simp ↓] theorem reshKept_sendNat (s : Nat) (b : NatBody) (m : Mach) : reshKept m (sendNat s b m) := by simp [reshKept, sendNat]
@[simp ↓] theorem reshKept_wantEvent (m : Mach) : reshKept m (wantEvent m) := by simp [reshKept, wantEvent]

/-! ### Sys2Proof/Machine/ResMem.lean -/

@[simp ↓] theorem reshKept_setPoison (a : Nat) (b : Bool) (m : Mach) : reshKept m (setPoison a b m) := by simp [reshKept, setPoison]
@[simp ↓] theorem reshKept_reportUe (a : Nat) (m : Mach) : reshKept m (reportUe a m) := by simp +decide [reshKept, reportUe]
@[simp ↓] theorem reshKept_readReport (a n : Nat) (m : Mach) : reshKept m (readReport a n m) := by simp [reshKept, readReport]
@[simp ↓] theorem reshKept_setUse (i x : Nat) (m : Mach) : reshKept m (setUse i x m) := by simp [reshKept, setUse, RES_PART_USE]

/-! ### Sys2Proof/Machine/Time.lean -/

@[simp ↓] theorem reshKept_advanceTo (t : Nat) (m : Mach) : reshKept m (advanceTo t m) := by simp [reshKept, advanceTo]

/-! ### Sys2Proof/Machine/HealthOps.lean -/

@[simp ↓] theorem reshKept_setRemap (f : Remap → Remap) (m : Mach) : reshKept m (setRemap f m) := by simp [reshKept, setRemap]

@[simp ↓] theorem reshKept_refreshKind (k : Nat) (m : Mach) : reshKept m (refreshKind k m) := by
  have hkitty (hk : k < 11) : HLT_KITTY k ≠ IMG_STATUS := by unfold HLT_KITTY IMG_STATUS; omega
  unfold refreshKind
  dsimp only
  split
  · simp +decide [reshKept, HLT_KITTY.worn, HLT_KITTY.total, HLT_KITTY.left, hkitty ‹_›]
  · simp +decide [reshKept]

@[simp ↓] theorem reshKept_setDev (st cause : Nat) (m : Mach) : reshKept m (setDev st cause m) := by simp +decide [reshKept, setDev]
@[simp ↓] theorem reshKept_degradeIfActive (m : Mach) : reshKept m (degradeIfActive m) := by simp +decide [reshKept, degradeIfActive]

@[simp ↓] theorem reshKept_raiseReplace {f : Fld} (h : f.reg ≠ IMG_STATUS) (m : Mach) : reshKept m (raiseReplace f m) := by
  simp +decide [reshKept, raiseReplace, h]

@[simp ↓] theorem reshKept_checkReserve (k : Nat) (m : Mach) : reshKept m (checkReserve k m) := by simp +decide [reshKept, checkReserve]

@[simp ↓] theorem reshKept_useSpare (k p : Nat) (m : Mach) : reshKept m (useSpare k p m) := by
  unfold useSpare
  dsimp only
  split <;> simp +decide [reshKept]

@[simp ↓] theorem reshKept_markWorn (k die phys logical : Nat) (m : Mach) : reshKept m (markWorn k die phys logical m) := by
  simp +decide [reshKept, markWorn]

@[simp ↓] theorem reshKept_wantTrick (u : RxUnit) (m : Mach) : reshKept m (wantTrick u m) := by simp [reshKept, wantTrick]

@[simp ↓] theorem reshKept_pumpPlanned (m : Mach) : reshKept m (pumpPlanned m) := by
  unfold pumpPlanned
  split <;> simp +decide [reshKept]

@[simp ↓] theorem reshKept_endPlanned (m : Mach) : reshKept m (endPlanned m) := by simp +decide [reshKept, endPlanned]

@[simp ↓] theorem reshKept_substDone (code k phys logical spare : Nat) (m : Mach) :
    reshKept m (substDone code k phys logical spare m) := by
  simp [reshKept, substDone]

@[simp ↓] theorem reshKept_plannedOver (k phys logical spare : Nat) (m : Mach) : reshKept m (plannedOver k phys logical spare m) := by
  simp +decide [reshKept, plannedOver]

@[simp ↓] theorem reshKept_plannedDone (k phys logical spare : Nat) (m : Mach) : reshKept m (plannedDone k phys logical spare m) := by
  simp [reshKept, plannedDone]

@[simp ↓] theorem reshKept_hardDone (k phys logical spare : Nat) (m : Mach) : reshKept m (hardDone k phys logical spare m) := by
  simp +decide [reshKept, hardDone]

@[simp ↓] theorem reshKept_dropPlanned (k phys : Nat) (m : Mach) : reshKept m (dropPlanned k phys m) := by simp [reshKept, dropPlanned]

@[simp ↓] theorem reshKept_startHandover (reason : Nat) (m : Mach) : reshKept m (startHandover reason m) := by
  simp [reshKept, startHandover]

@[simp ↓] theorem reshKept_twinFault (c : Nat) (m : Mach) : reshKept m (twinFault c m) := by simp [reshKept, twinFault]
@[simp ↓] theorem reshKept_mirror (cls : Nat) (b : MirBody) (m : Mach) : reshKept m (mirror cls b m) := by simp [reshKept, mirror]

@[simp ↓] theorem reshKept_failPath (tx : Bool) (n crit : Nat) (m : Mach) : reshKept m (failPath tx n crit m) := by
  unfold failPath
  split <;> simp +decide [reshKept]

/-! ### Sys2Proof/Machine/Reservoir.lean -/

@[simp ↓] theorem reshKept_refreshOverQuota (m : Mach) : reshKept m (refreshOverQuota m) := by simp +decide [reshKept, refreshOverQuota]

@[simp ↓] theorem reshKept_quotaWrite (i : Fin 8) (v : W) (m : Mach) : reshKept m (quotaWrite i v m) := by
  simp +decide [reshKept, quotaWrite, RES_PART_SIZE.size, RES_PART_QUOTA.quota, RES_PART_SIZE, RES_PART_QUOTA]

/-! ### Sys2Proof/Machine/TileOps.lean -/

@[simp ↓] theorem reshKept_commitTile (t : Nat) (y : Tile) (m : Mach) : reshKept m (commitTile t y m) := by simp [reshKept, commitTile]

/-! ### Sys2Proof/Machine/Capture.lean -/

@[simp ↓] theorem reshKept_setCapState (c st : Nat) (m : Mach) : reshKept m (setCapState c st m) := by
  simp [reshKept, setCapState, RES_CAP_STATUS.state, RES_CAP_STATUS]

@[simp ↓] theorem reshKept_clearCap (c : Nat) (m : Mach) : reshKept m (clearCap c m) := by
  simp [reshKept, clearCap, RES_CAP_WRAPS, RES_CAP_RPTR, RES_CAP_WPTR, RES_CAP_STATUS]

/-- A refusal of the capture sets an event of the reservoir. -/
theorem armRefusal_reg {c : Nat} {m : Mach} {f : Fld} (h : armRefusal c m = some f) : f.reg = RES_EVENTS := by
  unfold armRefusal at h
  dsimp only at h
  split_ifs at h <;> cases h <;> rfl

@[simp ↓] theorem reshKept_capArm (c : Nat) (m : Mach) : reshKept m (capArm c m) := by
  unfold capArm
  split
  · next h => exact reshKept_setEv (by rw [armRefusal_reg h]; decide) m
  · simp [reshKept]

@[simp ↓] theorem reshKept_couplerChanged (o : Nat) (m : Mach) : reshKept m (couplerChanged o m) := by
  unfold couplerChanged
  refine reshKept_each (fun c hc s => ?_) m
  split
  · refine reshKept_fset ?_ 1 s
    dsimp only
    split <;> simp [RES_CAP_CPL_LO, RES_CAP_CPL_HI]
  · exact .refl s

@[simp ↓] theorem reshKept_freeCap (c : Nat) (m : Mach) : reshKept m (freeCap c m) := by
  simp [reshKept, freeCap, RES_CAP_STATUS.len_pending, RES_CAP_STATUS]

@[simp ↓] theorem reshKept_capStop (c : Nat) (m : Mach) : reshKept m (capStop c m) := by simp [reshKept, capStop]

@[simp ↓] theorem reshKept_capRelease (c : Nat) (m : Mach) : reshKept m (capRelease c m) := by
  unfold capRelease
  split <;> simp [reshKept]

@[simp ↓] theorem reshKept_capLenNow (c n : Nat) (m : Mach) : reshKept m (capLenNow c n m) := by simp [reshKept, capLenNow, RES_CAP_LEN]

theorem lenRefusal_reg {c n : Nat} {m : Mach} {f : Fld} (h : lenRefusal c n m = some f) : f.reg = RES_EVENTS := by
  unfold lenRefusal at h
  dsimp only at h
  split_ifs at h <;> cases h <;> rfl

@[simp ↓] theorem reshKept_capLenWrite (c : Nat) (v : W) (m : Mach) : reshKept m (capLenWrite c v m) := by
  have hrefused {n : Nat} {f : Fld} (h : lenRefusal c n m = some f) : reshKept m (setEv f m) :=
    reshKept_setEv (by rw [lenRefusal_reg h]; decide) m
  unfold capLenWrite
  dsimp only
  split
  · simp +decide [reshKept]
  · split
    · exact reshKept_capLenNow ..
    · split
      · simp +decide [reshKept]
      · split
        · next h => exact hrefused h
        · split <;> simp [reshKept, RES_CAP_STATUS.len_pending, RES_CAP_STATUS]

@[simp ↓] theorem reshKept_capCfgWrite {c : Nat} (hc : c < 8) (r : CapReg) (v : W) (m : Mach) : reshKept m (capCfgWrite c r v m) := by
  have hctrl : RES_CAP_CTRL c ≠ IMG_STATUS := by unfold RES_CAP_CTRL IMG_STATUS; omega
  have haddr : capRegAddr c r ≠ IMG_STATUS := by
    cases r <;> simp only [capRegAddr, RES_CAP_CTRL, RES_CAP_SRC_LO, RES_CAP_SRC_HI, RES_CAP_BASE, RES_CAP_NREC, RES_CAP_TRIG,
      IMG_STATUS] <;> omega
  unfold capCfgWrite
  dsimp only
  split
  · simp +decide [reshKept]
  · split
    · exact reshKept_wr hctrl ..
    · exact reshKept_wr haddr ..

@[simp ↓] theorem reshKept_capRptrWrite (c : Nat) (v : W) (m : Mach) : reshKept m (capRptrWrite c v m) := by
  simp [reshKept, capRptrWrite, RES_CAP_WPTR, RES_CAP_RPTR]

@[simp ↓] theorem reshKept_capCmd (c : Nat) (v : W) (m : Mach) : reshKept m (capCmd c v m) := by
  unfold capCmd
  split
  · simp +decide [reshKept]
  · split <;> simp [reshKept]

@[simp ↓] theorem reshKept_capFeed (elem : Bool) (i t : Nat) (x : Sample) (m : Mach) : reshKept m (capFeed elem i t x m) := by
  simp [reshKept, capFeed]

/-! ### Sys2Proof/Machine/Dma.lean -/

@[simp ↓] theorem reshKept_setDmaPos (ch n : Nat) (m : Mach) : reshKept m (setDmaPos ch n m) := by
  simp [reshKept, setDmaPos, DMA_CH_POS]

@[simp ↓] theorem reshKept_refreshDma (m : Mach) : reshKept m (refreshDma m) := by simp +decide [reshKept, refreshDma]

@[simp ↓] theorem reshKept_setDmaState (ch st : Nat) (m : Mach) : reshKept m (setDmaState ch st m) := by
  simp [reshKept, setDmaState, DMA_CH_STATUS.state, DMA_CH_STATUS]

@[simp ↓] theorem reshKept_dmaRefuse (m : Mach) : reshKept m (dmaRefuse m) := by simp +decide [reshKept, dmaRefuse]

@[simp ↓] theorem reshKept_dmaStart (ch : Nat) (m : Mach) : reshKept m (dmaStart ch m) := by
  simp [reshKept, dmaStart, DMA_CH_STATUS.status, DMA_CH_STATUS.pd_q, DMA_CH_COUNT, DMA_CH_DESC, DMA_CH_HEAD, DMA_CH_STATUS]

@[simp ↓] theorem reshKept_dmaStop (ch : Nat) (m : Mach) : reshKept m (dmaStop ch m) := by
  simp [reshKept, dmaStop, DMA_CH_STATUS.status, DMA_CH_STATUS]

@[simp ↓] theorem reshKept_dmaAbort (ch : Nat) (m : Mach) : reshKept m (dmaAbort ch m) := by simp [reshKept, dmaAbort]

@[simp ↓] theorem reshKept_dmaResume (ch : Nat) (m : Mach) : reshKept m (dmaResume ch m) := by
  simp [reshKept, dmaResume, DMA_CH_STATUS.pd_q, DMA_CH_STATUS.status, DMA_CH_STATUS]

@[simp ↓] theorem reshKept_dmaCmd (ch : Nat) (v : W) (m : Mach) : reshKept m (dmaCmd ch v m) := by
  unfold dmaCmd
  split
  · exact reshKept_dmaRefuse m
  · split <;> simp [reshKept]

@[simp ↓] theorem reshKept_dmaChCfgWrite (ch : Nat) (cfg : Bool) (v : W) (m : Mach) : reshKept m (dmaChCfgWrite ch cfg v m) := by
  simp [reshKept, dmaChCfgWrite, DMA_CH_CFG, DMA_CH_HEAD]

end Sys2Proof.Machine

/-! SUPPORT. What the operations of a slot boundary keep of a reshuffle that waits: those of Dir, Fes and Chains. -/

namespace Sys2Proof.Machine

/-! ### Sys2Proof/Machine/Dir.lean -/

@[simp ↓] theorem reshKept_cureLine (k : Nat) (m : Mach) : reshKept m (cureLine k m) := by simp [reshKept, cureLine]
@[simp ↓] theorem reshKept_refreshDir (m : Mach) : reshKept m (refreshDir m) := by simp +decide [reshKept, refreshDir]

@[simp ↓] theorem reshKept_setPlace (k : Nat) (e : Option DirEntry) (m : Mach) : reshKept m (setPlace k e m) := by
  simp [reshKept, setPlace]

@[simp ↓] theorem reshKept_changePlace (k : Nat) (e : Option DirEntry) (m : Mach) : reshKept m (changePlace k e m) := by
  simp +decide [reshKept, changePlace]

@[simp ↓] theorem reshKept_purgeLine (k : Nat) (m : Mach) : reshKept m (purgeLine k m) := by simp [reshKept, purgeLine]
@[simp ↓] theorem reshKept_purgeId (id : BitVec 48) (m : Mach) : reshKept m (purgeId id m) := by simp [reshKept, purgeId]

@[simp ↓] theorem reshKept_moveChain (l : List Nat) (m : Mach) : reshKept m (moveChain l m) := by
  induction l generalizing m with
  | nil => exact .refl m
  | cons t l ih =>
    cases l with
    | nil => exact .refl m
    | cons k l => exact (reshKept_changePlace ..).trans (ih _)

theorem reshKept_makePlace {id : BitVec 48} {m : Mach} {p : Nat × Mach} (h : makePlace id m = some p) : reshKept m p.2 := by
  unfold makePlace at h
  dsimp only at h
  split at h
  · cases h; exact .refl m
  · split at h
    · cases h; exact reshKept_moveChain ..
    · split at h
      · cases h; simp +decide [reshKept]
      · cases h

theorem reshKept_dirInsert {e : DirEntry} {m u : Mach} (h : dirInsert e m = some u) : reshKept m u := by
  unfold dirInsert at h
  split at h
  · cases h
  · split at h
    · next hp => cases h; exact (reshKept_makePlace hp).trans (reshKept_changePlace ..)
    · cases h

@[simp ↓] theorem reshKept_dirFull (m : Mach) : reshKept m (dirFull m) := by simp +decide [reshKept, dirFull]

@[simp ↓] theorem reshKept_ackNat (sess : Nat) (q : Option W) (b : NatBody) (m : Mach) : reshKept m (ackNat sess q b m) := by
  unfold ackNat
  split <;> simp [reshKept]

@[simp ↓] theorem reshKept_bindAnswer (sess : Nat) (det : W) (id : BitVec 48) (st : Nat) (m : Mach) :
    reshKept m (bindAnswer sess det id st m) := by
  simp [reshKept, bindAnswer]

@[simp ↓] theorem reshKept_dirAnswer (sess : Nat) (changed : Bool) (st : Nat) (l : List DirEntry) (m : Mach) :
    reshKept m (dirAnswer sess changed st l m) := by
  simp [reshKept, dirAnswer]

@[simp ↓] theorem reshKept_dirBind (sess : Nat) (det : W) (id : BitVec 48) (pin : Bool) (m : Mach) :
    reshKept m (dirBind sess det id pin m) := by
  unfold dirBind
  split
  · exact reshKept_bindAnswer ..
  · split
    · simp [reshKept]
    · split
      · simp +decide [reshKept]
      · dsimp only
        split
        · split
          · split <;> simp [reshKept]
          · exact reshKept_purgeId id m
        · split
          · next h => exact ((reshKept_purgeId id m).trans (reshKept_dirInsert h)).trans (reshKept_bindAnswer ..)
          · simp [reshKept]

@[simp ↓] theorem reshKept_dirGuard {run : Mach → Mach} (h : ∀ m, reshKept m (run m)) (sess : Nat) (ro badMask : Bool) (m : Mach) :
    reshKept m (dirGuard sess ro badMask run m) := by
  simp +decide [reshKept, dirGuard, h]

@[simp ↓] theorem reshKept_dirOnEntry {f : Nat → DirEntry → Mach → Mach} (h : ∀ k e m, reshKept m (f k e m)) (sess : Nat) (id :
  BitVec 48) (m : Mach) :
    reshKept m (dirOnEntry sess id f m) := by
  unfold dirOnEntry
  dsimp only
  split
  · simp [reshKept]
  · split
    · exact (reshKept_purgeId id m).trans (h ..)
    · exact reshKept_purgeId id m

@[simp ↓] theorem reshKept_dirAlter (sess k : Nat) (e e' : DirEntry) (m : Mach) : reshKept m (dirAlter sess k e e' m) := by
  simp [reshKept, dirAlter]

@[simp ↓] theorem reshKept_dirWrite (sess : Nat) (id : BitVec 48) (mask : BitVec 8) (f : DirFields) (m : Mach) :
    reshKept m (dirWrite sess id mask f m) := by
  unfold dirWrite
  dsimp only
  split
  · simp [reshKept]
  · split
    · next h => exact ((reshKept_purgeId id m).trans (reshKept_dirInsert h)).trans (reshKept_dirAnswer ..)
    · simp [reshKept]

@[simp ↓] theorem reshKept_purgeList (b count : Nat) (m : Mach) : reshKept m (purgeList b count m) := by simp [reshKept, purgeList]

@[simp ↓] theorem reshKept_dirDelete (id : BitVec 48) (m : Mach) : reshKept m (dirDelete id m) := by
  unfold dirDelete
  dsimp only
  split <;> simp [reshKept]

@[simp ↓] theorem reshKept_refreshSnap (m : Mach) : reshKept m (refreshSnap m) := by simp +decide [reshKept, refreshSnap]
@[simp ↓] theorem reshKept_setSnap (i : Nat) (s : Option Snap) (m : Mach) : reshKept m (setSnap i s m) := by simp [reshKept, setSnap]
@[simp ↓] theorem reshKept_snapStart (m : Mach) : reshKept m (snapStart m) := by simp +decide [reshKept, snapStart]
@[simp ↓] theorem reshKept_dirSnapshot (m : Mach) : reshKept m (dirSnapshot m) := by simp +decide [reshKept, dirSnapshot]
@[simp ↓] theorem reshKept_showSync (m : Mach) : reshKept m (showSync m) := by simp +decide [reshKept, showSync]
@[simp ↓] theorem reshKept_setInSync (c : Nat) (b : Bool) (m : Mach) : reshKept m (setInSync c b m) := by simp [reshKept, setInSync]
@[simp ↓] theorem reshKept_dirEmpty (m : Mach) : reshKept m (dirEmpty m) := by simp [reshKept, dirEmpty]
@[simp ↓] theorem reshKept_restoreStart (m : Mach) : reshKept m (restoreStart m) := by simp +decide [reshKept, restoreStart]
@[simp ↓] theorem reshKept_dirRestore (m : Mach) : reshKept m (dirRestore m) := by simp +decide [reshKept, dirRestore]

@[simp ↓] theorem reshKept_dirRun (r : DirReq) (m : Mach) : reshKept m (dirRun r m) := by
  unfold dirRun
  split <;> simp +decide [reshKept]

@[simp ↓] theorem reshKept_dirEnter (r : DirReq) (m : Mach) : reshKept m (dirEnter r m) := by simp [reshKept, dirEnter]

@[simp ↓] theorem reshKept_dirDrain (l : List DirReq) (m : Mach) : reshKept m (dirDrain l m) := by
  induction l generalizing m with
  | nil => exact .refl m
  | cons r l ih =>
    unfold dirDrain
    split
    · exact ⟨rfl, rfl, rfl, rfl, rfl, rfl⟩
    · exact (reshKept_dirRun r m).trans (ih _)

@[simp ↓] theorem reshKept_dirGoOn (m : Mach) : reshKept m (dirGoOn m) := by simp [reshKept, dirGoOn]

@[simp ↓] theorem reshKept_snapLost (m : Mach) : reshKept m (snapLost m) := by
  unfold snapLost
  dsimp only
  repeat' split
  all_goals simp +decide [reshKept]

@[simp ↓] theorem reshKept_dirCfgWrite (v : W) (m : Mach) : reshKept m (dirCfgWrite v m) := by simp +decide [reshKept, dirCfgWrite]
@[simp ↓] theorem reshKept_dirSeedWrite (v : W) (m : Mach) : reshKept m (dirSeedWrite v m) := by simp +decide [reshKept, dirSeedWrite]

/-! ### Sys2Proof/Machine/Fes.lean -/

@[simp ↓] theorem reshKept_refreshFes (q : Nat) (m : Mach) : reshKept m (refreshFes q m) := by
  simp [reshKept, refreshFes, QUAD_FES_PINCFG.pa_mask, QUAD_FES_STATUS.forced, QUAD_FES_STATUS.fec, QUAD_FES_STATUS.fcb_q,
    QUAD_FES_STATUS.pend, QUAD_FES_EVENTS.safe_forced, QUAD_FES_PINCFG, QUAD_FES_STATUS, QUAD_FES_EVENTS]

@[simp ↓] theorem reshKept_refreshPins (m : Mach) : reshKept m (refreshPins m) := by simp [reshKept, refreshPins]

@[simp ↓] theorem reshKept_spoilCap (o : Nat) (m : Mach) : reshKept m (spoilCap o m) := by
  unfold spoilCap
  split <;> simp [reshKept]

@[simp ↓] theorem reshKept_setCoupler (o n : Nat) (m : Mach) : reshKept m (setCoupler o n m) := by
  unfold setCoupler
  dsimp only
  split <;> simp [reshKept, QUAD_OBS_COUPLER]

@[simp ↓] theorem reshKept_queueFcb (q w due : Nat) (m : Mach) : reshKept m (queueFcb q w due m) := by
  simp [reshKept, queueFcb, QUAD_FES_EVENTS.fcb_ovf, QUAD_FES_EVENTS]

@[simp ↓] theorem reshKept_runAct (q t kind mask value : Nat) (m : Mach) : reshKept m (runAct q t kind mask value m) := by
  unfold runAct
  split <;> simp [reshKept]

@[simp ↓] theorem reshKept_schedAct (q b k : Nat) (m : Mach) : reshKept m (schedAct q b k m) := by
  simp [reshKept, schedAct, QUAD_FES_ACT_w, QUAD_FES_EVENTS.act_late, QUAD_FES_EVENTS.act_ovf, QUAD_FES_EVENTS]

@[simp ↓] theorem reshKept_enterState (q st b : Nat) (m : Mach) : reshKept m (enterState q st b m) := by
  simp [reshKept, enterState, QUAD_FES_STATE_w, QUAD_FES_STATUS.state, QUAD_FES_STATUS]

@[simp ↓] theorem reshKept_fesEvent (q code b : Nat) (m : Mach) : reshKept m (fesEvent q code b m) := by
  unfold fesEvent
  split
  · split <;> simp [reshKept]
  · simp [reshKept]

@[simp ↓] theorem reshKept_fesNow (q code : Nat) (m : Mach) : reshKept m (fesNow q code m) := by
  unfold fesNow
  split <;> simp [reshKept]

@[simp ↓] theorem reshKept_holdEvents (m : Mach) : reshKept m (holdEvents m) := by simp [reshKept, holdEvents]
@[simp ↓] theorem reshKept_deliverEvents (m : Mach) : reshKept m (deliverEvents m) := by simp [reshKept, deliverEvents]

@[simp ↓] theorem reshKept_fesRestart (q : Nat) (m : Mach) : reshKept m (fesRestart q m) := by
  simp [reshKept, fesRestart, QUAD_FES_STATUS.state, QUAD_FES_STATUS]

@[simp ↓] theorem reshKept_fesSwWrite (q : Nat) (v : W) (m : Mach) : reshKept m (fesSwWrite q v m) := by simp [reshKept, fesSwWrite]
@[simp ↓] theorem reshKept_endDrops (q : Nat) (m : Mach) : reshKept m (endDrops q m) := by simp [reshKept, endDrops]

@[simp ↓] theorem reshKept_applyLead (q : Nat) (m : Mach) : reshKept m (applyLead q m) := by
  simp [reshKept, applyLead, QUAD_FES_CTRL.fe_lead, QUAD_FES_CTRL]

@[simp ↓] theorem reshKept_fesCfgWrite {a : Nat} (h : a ≠ IMG_STATUS) (q : Nat) (v mask : W) (m : Mach) :
    reshKept m (fesCfgWrite q a v mask m) := by
  simp [reshKept, fesCfgWrite, h]

/-! ### Sys2Proof/Machine/Chains.lean -/

@[simp ↓] theorem reshKept_setStageSt (c : ChainId) (k : Nat) (x : StageSt) (m : Mach) : reshKept m (setStageSt c k x m) := by
  simp [reshKept, setStageSt]

@[simp ↓] theorem reshKept_chainSat (c : ChainId) (sat : Bool) (m : Mach) : reshKept m (chainSat c sat m) := by
  simp [reshKept, chainSat, QUAD_DDC_EVENTS.sat, QUAD_DDC_SAT_COUNT, QUAD_DDC_EVENTS]

@[simp ↓] theorem reshKept_runDecim (c : ChainId) (k : Nat) (r : Option Sample × Mach) : reshKept r.2 (runDecim c k r).2 := by
  unfold runDecim
  dsimp only
  repeat' split
  all_goals simp [reshKept]

@[simp ↓] theorem reshKept_runInterp1 (c : ChainId) (k : Nat) (x : Sample) (m : Mach) : reshKept m (runInterp1 c k x m).2 := by
  simp [reshKept, runInterp1]

@[simp ↓] theorem reshKept_runInterp (c : ChainId) (k : Nat) (r : List Sample × Mach) : reshKept r.2 (runInterp c k r).2 := by
  unfold runInterp
  generalize ([] : List Sample) = acc
  obtain ⟨l, m⟩ := r
  induction l generalizing acc m with
  | nil => exact .refl m
  | cons x l ih => exact (reshKept_runInterp1 c k x m).trans (ih ..)

/-- A chain of stages keeps what each of them keeps. -/
@[simp ↓] theorem reshKept_foldl {α β : Type} {f : β × Mach → α → β × Mach} (h : ∀ a k, reshKept a.2 (f a k).2) (l : List α)
    (r : β × Mach) : reshKept r.2 (l.foldl f r).2 := by
  induction l generalizing r with
  | nil => exact .refl r.2
  | cons k l ih => exact (h r k).trans (ih ..)

@[simp ↓] theorem reshKept_ncoReach (c : ChainId) (t : Nat) (m : Mach) : reshKept m (ncoReach c t m) := by simp [reshKept, ncoReach]
@[simp ↓] theorem reshKept_ncoNow (c : ChainId) (m : Mach) : reshKept m (ncoNow c m) := by simp [reshKept, ncoNow]

@[simp ↓] theorem reshKept_ddcStep (c : ChainId) (s : Sample) (m : Mach) : reshKept m (ddcStep c s m).2 := by
  have hstages (l : List Nat) (r : Option Sample × Mach) := reshKept_foldl (f := fun a k => runDecim c k a) (fun a k =>
    reshKept_runDecim c k a) l r
  unfold ddcStep
  dsimp only
  split <;> simp [reshKept, hstages, QUAD_DDC_STATUS.settling, QUAD_DDC_STATUS]

@[simp ↓] theorem reshKept_markStage (c : ChainId) (k : Nat) (m : Mach) : reshKept m (markStage c k m) := by simp [reshKept, markStage]
@[simp ↓] theorem reshKept_markNco (c : ChainId) (m : Mach) : reshKept m (markNco c m) := by simp [reshKept, markNco]

@[simp ↓] theorem reshKept_rephase (c : ChainId) (old : Nat) (m : Mach) : reshKept m (rephase c old m) := by
  simp [reshKept, rephase, QUAD_DDC_STATUS.nco_coh_act, QUAD_DDC_STATUS]

@[simp ↓] theorem reshKept_applyFtw (c : ChainId) (m0 : Mach) : reshKept m0 (applyFtw c m0) := by
  unfold applyFtw
  dsimp only
  split <;> simp [reshKept, QUAD_DDC_FTW_HI, QUAD_DDC_EVENTS.nco_applied, QUAD_DDC_EVENTS]

@[simp ↓] theorem reshKept_applyPhase (c : ChainId) (v : W) (m0 : Mach) : reshKept m0 (applyPhase c v m0) := by
  have hput (old : Nat) (m : Mach) :
      reshKept m (setEv (QUAD_DDC_EVENTS.nco_applied c) (rephase c old (wr (QUAD_DDC_PHASE c) v m))) := by
    simp [reshKept, QUAD_DDC_PHASE, QUAD_DDC_EVENTS.nco_applied, QUAD_DDC_EVENTS]
  have h := (reshKept_ncoNow c m0).trans (hput (phaseBits c (ncoNow c m0)) _)
  unfold applyPhase
  extract_lets m old m1 m2
  split
  · exact h
  · exact h.trans (reshKept_markNco ..)

theorem QUAD_DDC_CFG_ne (c : ChainId) : QUAD_DDC_CFG c ≠ IMG_STATUS := chainBase_add_ne (k := 0) (by omega) c

@[simp ↓] theorem reshKept_applyChainCfg (c : ChainId) (v : W) (m0 : Mach) : reshKept m0 (applyChainCfg c v m0) := by
  unfold applyChainCfg
  dsimp only
  split <;> simp [reshKept, QUAD_DDC_CFG_ne, QUAD_DDC_STATUS.nco_coh_act, QUAD_DDC_STATUS.spec_inv_act, QUAD_DDC_STATUS.nstages_act,
    QUAD_DDC_STATUS]

@[simp ↓] theorem reshKept_applyResp (c : ChainId) (v : W) (m : Mach) : reshKept m (applyResp c v m) := by
  simp [reshKept, applyResp, QUAD_DDC_RESP.resp, QUAD_DDC_RESP]

@[simp ↓] theorem reshKept_markTxShift (c : ChainId) (k : Nat) (m : Mach) : reshKept m (markTxShift c k m) := by
  unfold markTxShift
  split <;> simp [reshKept, QUAD_PD_CTRL.pd_en, QUAD_PD_CTRL]

@[simp ↓] theorem reshKept_applyShift (c : ChainId) (v : W) (m : Mach) : reshKept m (applyShift c v m) := by
  simp [reshKept, applyShift, QUAD_DDC_SHIFT.sh, QUAD_DDC_SHIFT]

@[simp ↓] theorem reshKept_syncReset (c : ChainId) (t : Nat) (m : Mach) : reshKept m (syncReset c t m) := by
  unfold syncReset
  split <;> simp [reshKept, QUAD_DDC_EVENTS.sync_reset, QUAD_DDC_EVENTS]

@[simp ↓] theorem reshKept_ftwLoWrite (c : ChainId) (v : W) (m : Mach) : reshKept m (ftwLoWrite c v m) := by
  simp [reshKept, ftwLoWrite, QUAD_DDC_FTW_LO]

@[simp ↓] theorem reshKept_ftwHiWrite (c : ChainId) (v : W) (m : Mach) : reshKept m (ftwHiWrite c v m) := by
  simp [reshKept, ftwHiWrite, QUAD_DDC_FTW_LO]

@[simp ↓] theorem reshKept_stageChain {c : ChainId} {a : Nat} {v : W} {apply : W → Mach → Mach} (h : a ≠ IMG_STATUS) (ha : ∀ v m,
  reshKept m (apply v m)) (m : Mach) :
    reshKept m (stageChain c a v apply m) := by
  simp [reshKept, stageChain, h, ha]

@[simp ↓] theorem reshKept_chainCfgWrite (c : ChainId) (v : W) (m : Mach) : reshKept m (chainCfgWrite c v m) := by
  simp [reshKept, chainCfgWrite, QUAD_DDC_CFG_ne, QUAD_DDC_EVENTS.chain_err, QUAD_DDC_EVENTS]

@[simp ↓] theorem reshKept_chainShiftWrite (c : ChainId) (v : W) (m : Mach) : reshKept m (chainShiftWrite c v m) := by
  simp [reshKept, chainShiftWrite, QUAD_DDC_EVENTS.chain_err, QUAD_DDC_SHIFT, QUAD_DDC_EVENTS]

@[simp ↓] theorem reshKept_chainRespWrite (c : ChainId) (v : W) (m : Mach) : reshKept m (chainRespWrite c v m) := by
  simp [reshKept, chainRespWrite, QUAD_DDC_RESP]

@[simp ↓] theorem reshKept_chainPhaseWrite (c : ChainId) (v : W) (m : Mach) : reshKept m (chainPhaseWrite c v m) := by
  simp [reshKept, chainPhaseWrite, QUAD_DDC_PHASE]

@[simp ↓] theorem reshKept_takeStage {a : Nat} {apply : W → Mach → Mach} (h : a ≠ IMG_STATUS) (ha : ∀ v m, reshKept m (apply v m)) (m
  : Mach) :
    reshKept m (takeStage a apply m) := by
  unfold takeStage
  split
  · exact .refl m
  · simp [reshKept, h, ha]

@[simp ↓] theorem reshKept_applyChain (c : ChainId) (m : Mach) : reshKept m (applyChain c m) := by
  simp [reshKept, applyChain, QUAD_DDC_CFG_ne, QUAD_DDC_PHASE, QUAD_DDC_SHIFT, QUAD_DDC_RESP]

end Sys2Proof.Machine

/-! SUPPORT. What the operations of a slot boundary keep of a reshuffle that waits: those of PdEngine, Output, Downlink, Ports,
Uplink, Mesh, Acquire and Transmit. -/

namespace Sys2Proof.Machine

/-! ### Sys2Proof/Machine/PdEngine.lean -/

@[simp ↓] theorem reshKept_setLut (n b w : Nat) (v : W) (m : Mach) : reshKept m (setLut n b w v m) := by simp [reshKept, setLut]

@[simp ↓] theorem reshKept_pdForm (n : Nat) (m : Mach) : reshKept m (pdForm n m).2 := by
  unfold pdForm
  dsimp only
  repeat' split
  all_goals simp [reshKept, QUAD_PD_EVENTS.pd_sat, QUAD_PD_SAT_COUNT, QUAD_PD_EVENTS]

@[simp ↓] theorem reshKept_pdPush (n air : Nat) (s : Sample) (m : Mach) : reshKept m (pdPush n air s m) := by simp [reshKept, pdPush]

@[simp ↓] theorem reshKept_pdOuts (n k : Nat) (m : Mach) : reshKept m (pdOuts n k m).2 := by
  induction k generalizing m with
  | zero => exact .refl m
  | succ k ih =>
    unfold pdOuts
    split
    · simp [reshKept, ih]
    · exact .refl m

/-! ### Sys2Proof/Machine/Output.lean -/

@[simp ↓] theorem reshKept_noteMargin (dl : Bool) (x : Int) (m : Mach) : reshKept m (noteMargin dl x m) := by
  simp [reshKept, noteMargin]

@[simp ↓] theorem reshKept_lateArrive (b : OutBridge) (seq arr : Nat) (m : Mach) : reshKept m (lateArrive b seq arr m) := by
  unfold lateArrive
  dsimp only
  split <;> simp [reshKept]

@[simp ↓] theorem reshKept_outArrive (b : OutBridge) (ss : List OutSample) (m : Mach) : reshKept m (outArrive b ss m) := by
  simp [reshKept, outArrive]

@[simp ↓] theorem reshKept_outPush (b : OutBridge) (o : OutSample) (m : Mach) : reshKept m (outPush b o m) := by
  simp [reshKept, outPush]

@[simp ↓] theorem reshKept_closeEntry (b : OutBridge) (m : Mach) : reshKept m (closeEntry b m) := by
  unfold closeEntry
  split <;> simp [reshKept]

@[simp ↓] theorem reshKept_ulPush (st : UlStream) (s : Sample) (p : StreamPos) (m : Mach) : reshKept m (ulPush st s p m) := by
  simp [reshKept, ulPush]

@[simp ↓] theorem reshKept_dacSample (n : Nat) (s : Sample) (m : Mach) : reshKept m (dacSample n s m) := by
  unfold dacSample
  dsimp only
  repeat' split
  all_goals simp [reshKept, QUAD_TX_GAIN.dig_gain, QUAD_TX_EVENTS.dac_sat, QUAD_TX_SAT_COUNT, QUAD_TX_GAP_COUNT, QUAD_TX_GAIN,
    QUAD_TX_EVENTS]

@[simp ↓] theorem reshKept_dacMid (n : Nat) (m : Mach) : reshKept m (dacMid n m) := by simp [reshKept, dacMid]
@[simp ↓] theorem reshKept_txPlay (n : Nat) (l : List OutSample) (m : Mach) : reshKept m (txPlay n l m) := by simp [reshKept, txPlay]
@[simp ↓] theorem reshKept_txSlot (n : Nat) (m : Mach) : reshKept m (txSlot n m) := by simp [reshKept, txSlot]
@[simp ↓] theorem reshKept_gapBridge (k : Nat) (m : Mach) : reshKept m (gapBridge k m) := by simp [reshKept, gapBridge]

@[simp ↓] theorem reshKept_gapTicks (st : UlStream) (old d : Nat) (m : Mach) : reshKept m (gapTicks st old d m) := by
  simp [reshKept, gapTicks]

@[simp ↓] theorem reshKept_anchorUlChange (sts : List UlStream) (old new : Nat) (m : Mach) :
    reshKept m (anchorUlChange sts old new m) := by
  simp [reshKept, anchorUlChange]

@[simp ↓] theorem reshKept_anchorDlChange (old new : Nat) (m : Mach) : reshKept m (anchorDlChange old new m) := by
  simp [reshKept, anchorDlChange]

@[simp ↓] theorem reshKept_applyAnchor (d : Dir) (v : W) (m : Mach) : reshKept m (applyAnchor d v m) := by
  unfold applyAnchor
  split <;> simp +decide [reshKept]

/-! ### Sys2Proof/Machine/Downlink.lean -/

@[simp ↓] theorem reshKept_txTail (n : Nat) (x : Nat × Sample) (m : Mach) : reshKept m (txTail n x m) := by
  simp [reshKept, txTail, QUAD_DDC_STATUS.settling, QUAD_DDC_STATUS]

@[simp ↓] theorem reshKept_txEngines (n : Nat) (m : Mach) : reshKept m (txEngines n m) := by simp [reshKept, txEngines]

@[simp ↓] theorem reshKept_txChainIn (n air : Nat) (s : Sample) (m : Mach) : reshKept m (txChainIn n air s m) := by
  have hfront (c : ChainId) (l : List Nat) (r : List Sample × Mach) := reshKept_foldl (f := fun a k => runInterp c k a) (fun a k =>
    reshKept_runInterp c k a) l r
  simp [reshKept, txChainIn]

@[simp ↓] theorem reshKept_dlSat (n : Nat) (bs : List (Nat × BeamW)) (m : Mach) : reshKept m (dlSat n bs m) := by
  unfold dlSat
  split <;> simp +decide [reshKept]

@[simp ↓] theorem reshKept_dlPath (n air : Nat) (hs : List (Sample × Nat × BeamW)) (m : Mach) : reshKept m (dlPath n air hs m) := by
  simp [reshKept, dlPath]

@[simp ↓] theorem reshKept_setDlWait (b : Nat) (l : List (Nat × Sample)) (m : Mach) : reshKept m (setDlWait b l m) := by
  simp [reshKept, setDlWait]

@[simp ↓] theorem reshKept_dlForm (all : Bool) (k : Nat) (m : Mach) : reshKept m (dlForm all k m) := by
  induction k generalizing m with
  | zero => exact .refl m
  | succ k ih =>
    unfold dlForm
    dsimp only
    split
    · exact .refl m
    · simp [reshKept, ih]

@[simp ↓] theorem reshKept_dlFlush (m : Mach) : reshKept m (dlFlush m) := by simp [reshKept, dlFlush]

@[simp ↓] theorem reshKept_dlBeamIn (b air : Nat) (s : Sample) (m : Mach) : reshKept m (dlBeamIn b air s m) := by
  simp [reshKept, dlBeamIn]

@[simp ↓] theorem reshKept_dlElemIn (n air : Nat) (s : Sample) (m : Mach) : reshKept m (dlElemIn n air s m) := by
  simp [reshKept, dlElemIn]

@[simp ↓] theorem reshKept_dlGo (t : DlTarget) (air : Nat) (s : Sample) (m : Mach) : reshKept m (dlGo t air s m) := by
  unfold dlGo
  dsimp only
  split <;> simp [reshKept]

@[simp ↓] theorem reshKept_dlResume (m : Mach) : reshKept m (dlResume m) := by simp [reshKept, dlResume]

/-! ### Sys2Proof/Machine/Ports.lean -/

@[simp ↓] theorem reshKept_portIn (t p : Nat) (s : Sample) (m : Mach) : reshKept m (portIn t p s m) := by simp [reshKept, portIn]
@[simp ↓] theorem reshKept_feedIn (cls i : Nat) (s : Sample) (m : Mach) : reshKept m (feedIn cls i s m) := by simp [reshKept, feedIn]

/-! ### Sys2Proof/Machine/Uplink.lean -/

@[simp ↓] theorem reshKept_nextPos (k : Nat) (m : Mach) : reshKept m (nextPos k m).2 := by simp [reshKept, nextPos]

@[simp ↓] theorem reshKept_ulBeamOut (b : Nat) (p : StreamPos) (r : Sample × Bool) (m : Mach) : reshKept m (ulBeamOut b p r m) := by
  simp +decide [reshKept, ulBeamOut]

@[simp ↓] theorem reshKept_acqBeamOut (a : Nat) (r : Sample × Bool) (m : Mach) : reshKept m (acqBeamOut a r m) := by
  simp [reshKept, acqBeamOut]

@[simp ↓] theorem reshKept_ulMeshStep (hs : List (Nat × Sample)) (m : Mach) : reshKept m (ulMeshStep hs m) := by
  simp [reshKept, ulMeshStep]

@[simp ↓] theorem reshKept_setUlWait (n : Nat) (l : List Sample) (m : Mach) : reshKept m (setUlWait n l m) := by
  simp [reshKept, setUlWait]

@[simp ↓] theorem reshKept_ulForm (all : Bool) (k : Nat) (m : Mach) : reshKept m (ulForm all k m) := by
  induction k generalizing m with
  | zero => exact .refl m
  | succ k ih =>
    unfold ulForm
    dsimp only
    split
    · exact .refl m
    · simp [reshKept, ih]

@[simp ↓] theorem reshKept_ulFlush (m : Mach) : reshKept m (ulFlush m) := by simp [reshKept, ulFlush]
@[simp ↓] theorem reshKept_ulMeshIn (n : Nat) (s : Sample) (m : Mach) : reshKept m (ulMeshIn n s m) := by simp [reshKept, ulMeshIn]
@[simp ↓] theorem reshKept_ulElemOut (n : Nat) (s : Sample) (m : Mach) : reshKept m (ulElemOut n s m) := by simp [reshKept, ulElemOut]
@[simp ↓] theorem reshKept_rxOut (n t : Nat) (y : Sample) (m : Mach) : reshKept m (rxOut n t y m) := by simp [reshKept, rxOut]

@[simp ↓] theorem reshKept_pdCapFeed (o t : Nat) (s : Sample) (m : Mach) : reshKept m (pdCapFeed o t s m) := by
  unfold pdCapFeed
  split <;> simp [reshKept]

@[simp ↓] theorem reshKept_obsOut (o t : Nat) (y : Sample) (m : Mach) : reshKept m (obsOut o t y m) := by simp [reshKept, obsOut]

@[simp ↓] theorem reshKept_coreSample (u : RxUnit) (s : Sample) (m : Mach) : reshKept m (coreSample u s m) := by
  unfold coreSample
  dsimp only
  repeat' split
  all_goals simp [reshKept]

@[simp ↓] theorem reshKept_takeEntry (b : InBridge) (e : BEntry) (m : Mach) : reshKept m (takeEntry b e m) := by
  unfold takeEntry
  split <;> simp [reshKept]

@[simp ↓] theorem reshKept_settleBridge (b : InBridge) (m : Mach) : reshKept m (settleBridge b m) := by
  unfold settleBridge
  split <;> simp [reshKept]

@[simp ↓] theorem reshKept_settleAll (m : Mach) : reshKept m (settleAll m) := by simp [reshKept, settleAll]

/-! ### Sys2Proof/Machine/Mesh.lean -/

@[simp ↓] theorem reshKept_setMesh (f : MeshSt → MeshSt) (m : Mach) : reshKept m (setMesh f m) := by simp [reshKept, setMesh]

@[simp ↓] theorem reshKept_putSh (dl : Bool) (b : Nat) (w : Option BeamW) (m : Mach) : reshKept m (putSh dl b w m) := by
  simp [reshKept, putSh]

@[simp ↓] theorem reshKept_refreshBeams (m : Mach) : reshKept m (refreshBeams m) := by
  unfold refreshBeams
  refine reshKept_each (fun b hb s => ?_) m
  have hb : b < 32 := List.mem_range.1 hb
  have hul : BMU_UL_BEAM b ≠ IMG_STATUS := by unfold BMU_UL_BEAM IMG_STATUS; omega
  have hdl : BMU_DL_BEAM b ≠ IMG_STATUS := by unfold BMU_DL_BEAM IMG_STATUS; omega
  simp [reshKept, hul, hdl]

@[simp ↓] theorem reshKept_makeLook (k : Nat × Nat) (id : BitVec 48) (m : Mach) : reshKept m (makeLook k id m) := by
  simp +decide [reshKept, makeLook]

@[simp ↓] theorem reshKept_synForm (dl : Bool) (d : SchedDesc) (src : SynSrc) (m : Mach) : reshKept m (synForm dl d src m).2 := by
  unfold synForm
  dsimp only
  repeat' split
  all_goals simp +decide [reshKept]

@[simp ↓] theorem reshKept_synPool (dl : Bool) (d : SchedDesc) (i : Nat) (raw : Bool) (m : Mach) :
    reshKept m (synPool dl d i raw m).2 := by
  unfold synPool
  dsimp only
  split <;> simp +decide [reshKept]

@[simp ↓] theorem reshKept_synDesc (k : Nat × Nat) (dl : Bool) (d : SchedDesc) (m : Mach) : reshKept m (synDesc k dl d m).2 := by
  unfold synDesc
  dsimp only
  repeat' split
  all_goals simp +decide [reshKept]

@[simp ↓] theorem reshKept_synTraffic (k : Nat × Nat) (dir : Dir) (m : Mach) : reshKept m (synTraffic k dir m) := by
  simp [reshKept, synTraffic]

@[simp ↓] theorem reshKept_synGrid (n : Nat) (m : Mach) : reshKept m (synGrid n m) := by simp [reshKept, synGrid]
@[simp ↓] theorem reshKept_synAcq (m : Mach) : reshKept m (synAcq m) := by simp +decide [reshKept, synAcq]
@[simp ↓] theorem reshKept_synthesise (m : Mach) : reshKept m (synthesise m) := by simp +decide [reshKept, synthesise]
@[simp ↓] theorem reshKept_scheduleDeadline (m : Mach) : reshKept m (scheduleDeadline m) := by simp [reshKept, scheduleDeadline]
@[simp ↓] theorem reshKept_dropAdmits (m : Mach) : reshKept m (dropAdmits m) := by simp [reshKept, dropAdmits]
@[simp ↓] theorem reshKept_refreshExcl (m : Mach) : reshKept m (refreshExcl m) := by simp +decide [reshKept, refreshExcl]
@[simp ↓] theorem reshKept_dropUnfed (m : Mach) : reshKept m (dropUnfed m) := by simp [reshKept, dropUnfed]
@[simp ↓] theorem reshKept_showBeams (m : Mach) : reshKept m (showBeams m) := by simp +decide [reshKept, showBeams]

@[simp ↓] theorem reshKept_bindCol (dl : Bool) (c : Nat) (m : Mach) : reshKept m (bindCol dl c m) := by
  have hreg : (colField dl).reg ≠ IMG_STATUS := by cases dl <;> decide
  simp [reshKept, bindCol, hreg]

@[simp ↓] theorem reshKept_loseCol (dl : Bool) (c : Nat) (m : Mach) : reshKept m (loseCol dl c m) := by simp [reshKept, loseCol]
@[simp ↓] theorem reshKept_colGone (dl : Bool) (c : Nat) (m : Mach) : reshKept m (colGone dl c m) := by simp [reshKept, colGone]

@[simp ↓] theorem reshKept_putColPlan (dl : Bool) (o : Option ColPlan) (m : Mach) : reshKept m (putColPlan dl o m) := by
  simp [reshKept, putColPlan]

@[simp ↓] theorem reshKept_endColPlan (dl : Bool) (m : Mach) : reshKept m (endColPlan dl m) := by
  unfold endColPlan
  split <;> simp +decide [reshKept]

@[simp ↓] theorem reshKept_applyBmuCfg (v : W) (m : Mach) : reshKept m (applyBmuCfg v m) := by simp +decide [reshKept, applyBmuCfg]
@[simp ↓] theorem reshKept_bmuCfgWrite (v0 : W) (m : Mach) : reshKept m (bmuCfgWrite v0 m) := by simp +decide [reshKept, bmuCfgWrite]
@[simp ↓] theorem reshKept_meshSwap (m : Mach) : reshKept m (meshSwap m) := by simp +decide [reshKept, meshSwap]

/-! ### Sys2Proof/Machine/Acquire.lean -/

@[simp ↓] theorem reshKept_endJob (j : AcqJob) (m : Mach) : reshKept m (endJob j m) := by simp +decide [reshKept, endJob]

@[simp ↓] theorem reshKept_acqEnd (m : Mach) : reshKept m (acqEnd m) := by
  unfold acqEnd
  split
  · split <;> simp +decide [reshKept]
  · simp +decide [reshKept]

@[simp ↓] theorem reshKept_acqSlotEnd (m : Mach) : reshKept m (acqSlotEnd m) := by simp [reshKept, acqSlotEnd]

/-! ### Sys2Proof/Machine/Transmit.lean -/

@[simp ↓] theorem reshKept_applyLehr (q : Nat) (m : Mach) : reshKept m (applyLehr q m) := by
  simp [reshKept, applyLehr, QUAD_TX_LEHR.lehr_att, QUAD_TX_LEHR]

@[simp ↓] theorem reshKept_applyGain (n : Nat) (m : Mach) : reshKept m (applyGain n m) := by
  simp [reshKept, applyGain, QUAD_TX_COMP.comp, QUAD_TX_GAIN.drv_att, QUAD_TX_GAIN.dig_gain, QUAD_TX_COMP, QUAD_TX_GAIN]

@[simp ↓] theorem reshKept_powerSlot (q : Nat) (m : Mach) : reshKept m (powerSlot q m) := by
  simp [reshKept, powerSlot, QUAD_FES_EVENTS.comp_clip, QUAD_TX_COMP.comp, QUAD_TX_COMP.t_in, QUAD_FES_EVENTS, QUAD_TX_COMP]

@[simp ↓] theorem reshKept_applyTxCfg (frame : Bool) (n : Nat) (m : Mach) : reshKept m (applyTxCfg frame n m) := by
  unfold applyTxCfg
  split <;> simp [reshKept, QUAD_TX_CFG, QUAD_TX_EVENTS.ifs_in_tx, QUAD_TX_EVENTS]

@[simp ↓] theorem reshKept_txCfgWrite (n : Nat) (v0 : W) (m : Mach) : reshKept m (txCfgWrite n v0 m) := by
  simp [reshKept, txCfgWrite, QUAD_TX_EVENTS.tx_err, QUAD_TX_CFG, QUAD_TX_EVENTS]

@[simp ↓] theorem reshKept_txAttWrite (n : Nat) (v0 : W) (m : Mach) : reshKept m (txAttWrite n v0 m) := by
  simp [reshKept, txAttWrite, QUAD_TX_EVENTS.tx_err, QUAD_TX_ATT, QUAD_TX_EVENTS]

end Sys2Proof.Machine

/-! SUPPORT. What the operations of a slot boundary keep of a reshuffle that waits: those of Predist, Slices, Token, QuadOps, Ladder,
RxCal, Clock and Estimate. -/

namespace Sys2Proof.Machine

/-! ### Sys2Proof/Machine/Predist.lean -/

@[simp ↓] theorem reshKept_refreshIdle (n : Nat) (m : Mach) : reshKept m (refreshIdle n m) := by
  simp [reshKept, refreshIdle, QUAD_PD_STATUS.inactive_ok, QUAD_PD_STATUS]

@[simp ↓] theorem reshKept_mirrorBank (n : Nat) (m : Mach) : reshKept m (mirrorBank n m) := by simp [reshKept, mirrorBank]
@[simp ↓] theorem reshKept_tellSwap (n : Nat) (t : Option Nat) (m : Mach) : reshKept m (tellSwap n t m) := by simp [reshKept, tellSwap]

@[simp ↓] theorem reshKept_refreshSwap (n : Nat) (m : Mach) : reshKept m (refreshSwap n m) := by
  simp [reshKept, refreshSwap, QUAD_PD_CTRL, QUAD_PD_STATUS.swap_pending, QUAD_PD_STATUS]

@[simp ↓] theorem reshKept_bumpIdx (n : Nat) (m : Mach) : reshKept m (bumpIdx n m) := by
  simp [reshKept, bumpIdx, QUAD_PD_LUT_ADDR.idx, QUAD_PD_LUT_ADDR]

@[simp ↓] theorem reshKept_lutWrite (n : Nat) (v : W) (m : Mach) : reshKept m (lutWrite n v m) := by
  simp [reshKept, lutWrite, QUAD_PD_LUT_ADDR.idx, QUAD_PD_LUT_ADDR.bank_rd, QUAD_PD_CTRL.adapt_en, QUAD_PD_EVENTS.pd_err,
    QUAD_PD_LUT_ADDR, QUAD_PD_CTRL, QUAD_PD_EVENTS]

@[simp ↓] theorem reshKept_doSwap (n : Nat) (m : Mach) : reshKept m (doSwap n m) := by
  simp [reshKept, doSwap, QUAD_PD_EVENTS.swapped, QUAD_PD_STATUS.active_bank, QUAD_PD_EVENTS, QUAD_PD_STATUS]

@[simp ↓] theorem reshKept_swapTold (n : Nat) (m : Mach) : reshKept m (swapTold n m) := by simp [reshKept, swapTold]

@[simp ↓] theorem reshKept_holdPath (n : Nat) (m : Mach) : reshKept m (holdPath n m) := by
  simp [reshKept, holdPath, QUAD_PD_STATUS.hold, QUAD_PD_STATUS]

/-- A swap that fails sets an event of its path. -/
theorem swapFails_reg {n : Nat} {m : Mach} {f : Fld} (h : swapFails n m = some f) : f.reg = QUAD_PD_EVENTS n := by
  unfold swapFails at h
  dsimp only at h
  split_ifs at h <;> exact congrArg Fld.reg (Option.some.inj h).symm

@[simp ↓] theorem reshKept_swapSlot (n : Nat) (user : Bool) (m : Mach) : reshKept m (swapSlot n user m) := by
  have hreg : QUAD_PD_EVENTS n ≠ IMG_STATUS := pathBase_add_ne (by decide) n
  have hbad (b : Bool) : reshKept m (setEvIf b (QUAD_PD_EVENTS.pd_err n) m) := reshKept_setEvIf hreg b m
  refine reshKept.trans ?_ (reshKept_refreshSwap n _)
  split
  · split
    · simp [reshKept, hbad]
    · next f h =>
      have hev (u : Mach) : reshKept u (setEv f u) := reshKept_setEv (by rw [swapFails_reg h]; exact hreg) u
      simp [reshKept, hev, hbad]
  · simp [reshKept, hbad]

@[simp ↓] theorem reshKept_applySwapReg (q : Nat) (v : W) (m : Mach) : reshKept m (applySwapReg q v m) := by
  simp [reshKept, applySwapReg, QUAD_PD_SWAP]

@[simp ↓] theorem reshKept_swapRegWrite (q : Nat) (v : W) (m : Mach) : reshKept m (swapRegWrite q v m) := by
  simp [reshKept, swapRegWrite, QUAD_PD_SWAP]

@[simp ↓] theorem reshKept_mirSwapDue (n : Nat) (m : Mach) : reshKept m (mirSwapDue n m) := by
  unfold mirSwapDue
  split <;> simp [reshKept]

@[simp ↓] theorem reshKept_swapBoundary (q : Nat) (m : Mach) : reshKept m (swapBoundary q m) := by
  simp [reshKept, swapBoundary, QUAD_PD_SWAP]

@[simp ↓] theorem reshKept_applyScale (n : Nat) (m : Mach) : reshKept m (applyScale n m) := by
  simp [reshKept, applyScale, QUAD_PD_EVENTS.idx_clip, QUAD_PD_IDX_SCALE.s, QUAD_PD_EVENTS, QUAD_PD_IDX_SCALE]

@[simp ↓] theorem reshKept_setPdCap (o : Nat) (c : Option PdCap) (m : Mach) : reshKept m (setPdCap o c m) := by
  simp [reshKept, setPdCap]

@[simp ↓] theorem reshKept_freePdCap (o : Nat) (m : Mach) : reshKept m (freePdCap o m) := by
  unfold freePdCap
  split <;> simp [reshKept]

@[simp ↓] theorem reshKept_dropCycles (n : Nat) (m : Mach) : reshKept m (dropCycles n m) := by
  refine reshKept_each (fun o _ s => ?_) m
  split
  · split
    · exact reshKept_freePdCap o s
    · exact .refl s
  · exact .refl s

@[simp ↓] theorem reshKept_bindEngine (n : Nat) (m : Mach) : reshKept m (bindEngine n m) := by
  simp [reshKept, bindEngine, QUAD_PD_STATUS.phys, QUAD_PD_Q_STATUS.serves, QUAD_PD_STATUS, QUAD_PD_Q_STATUS]

@[simp ↓] theorem reshKept_engineSwitch (n : Nat) (m : Mach) : reshKept m (engineSwitch n m) := by
  simp [reshKept, engineSwitch, QUAD_PD_STATUS.phys, QUAD_PD_EVENTS.eng_remap, QUAD_PD_STATUS, QUAD_PD_EVENTS]

@[simp ↓] theorem reshKept_substBoundary (n : Nat) (m : Mach) : reshKept m (substBoundary n m) := by simp [reshKept, substBoundary]

@[simp ↓] theorem reshKept_engineDead (n : Nat) (m : Mach) : reshKept m (engineDead n m) := by
  unfold engineDead
  dsimp only
  split <;> simp [reshKept, QUAD_PD_STATUS.bypassed, QUAD_PD_STATUS]

/-! ### Sys2Proof/Machine/Slices.lean -/

@[simp ↓] theorem reshKept_rxSettle (u : RxUnit) (n : Nat) (m : Mach) : reshKept m (rxSettle u n m) := by simp [reshKept, rxSettle]

theorem QUAD_RX_CTRL_ne (u : RxUnit) : QUAD_RX_CTRL u ≠ IMG_STATUS := rxBase_add_ne (k := 0) (by omega) u

@[simp ↓] theorem reshKept_applyRxCtrl (u : RxUnit) (v : W) (m : Mach) : reshKept m (applyRxCtrl u v m) := by
  simp [reshKept, applyRxCtrl, QUAD_RX_CTRL_ne, QUAD_RX_STATUS.zone, QUAD_RX_STATUS]

@[simp ↓] theorem reshKept_applyRxAtten (u : RxUnit) (v : W) (m : Mach) : reshKept m (applyRxAtten u v m) := by
  simp [reshKept, applyRxAtten, QUAD_RX_ATTEN.atten_db2, QUAD_RX_ATTEN]

@[simp ↓] theorem reshKept_stageQuad {q a : Nat} {v : W} {apply : W → Mach → Mach} (h : a ≠ IMG_STATUS) (ha : ∀ v m, reshKept m
  (apply v m)) (m : Mach) :
    reshKept m (stageQuad q a v apply m) := by
  simp [reshKept, stageQuad, h, ha]

@[simp ↓] theorem reshKept_rxCtrlWrite (u : RxUnit) (v : W) (m : Mach) : reshKept m (rxCtrlWrite u v m) := by
  simp [reshKept, rxCtrlWrite, QUAD_RX_CTRL_ne, QUAD_RX_EVENTS.cfg_err, QUAD_RX_EVENTS]

@[simp ↓] theorem reshKept_rxAttenWrite (u : RxUnit) (v : W) (m : Mach) : reshKept m (rxAttenWrite u v m) := by
  simp [reshKept, rxAttenWrite, QUAD_RX_ATTEN]

@[simp ↓] theorem reshKept_recordSlices (u : RxUnit) (m : Mach) : reshKept m (recordSlices u m) := by simp [reshKept, recordSlices]

@[simp ↓] theorem reshKept_mapSlice (u : RxUnit) (pos : Nat) (m : Mach) : reshKept m (mapSlice u pos m) := by
  simp [reshKept, mapSlice, slicePos, QUAD_RX_STATUS]

@[simp ↓] theorem reshKept_dropSlice (u : RxUnit) (s : Nat) (m : Mach) : reshKept m (dropSlice u s m) := by simp [reshKept, dropSlice]

@[simp ↓] theorem reshKept_wantSliceTrick (u : RxUnit) (m : Mach) : reshKept m (wantSliceTrick u m) := by
  cases u with
  | path n =>
    have hreg : CAL_PATH (16 * n + 3) ≠ IMG_STATUS := by unfold CAL_PATH IMG_STATUS; omega
    simp [reshKept, wantSliceTrick, hreg]
  | obs _ => exact reshKept_wantTrick ..

@[simp ↓] theorem reshKept_spareUntrimmed (u : RxUnit) (m : Mach) : reshKept m (spareUntrimmed u m) := by
  simp [reshKept, spareUntrimmed, QUAD_RX_STATUS.unc_hi, QUAD_RX_STATUS]

@[simp ↓] theorem reshKept_noSlice (u : RxUnit) (pos : Nat) (m : Mach) : reshKept m (noSlice u pos m) := by
  unfold noSlice
  split <;> simp [reshKept, QUAD_RX_EVENTS.no_spare, QUAD_RX_EVENTS]

@[simp ↓] theorem reshKept_remapSettle (u : RxUnit) (m : Mach) : reshKept m (remapSettle u m) := by simp [reshKept, remapSettle]

@[simp ↓] theorem reshKept_sliceRemapDone (u : RxUnit) (s pos : Nat) (bare : Bool) (m : Mach) :
    reshKept m (sliceRemapDone u s pos bare m) := by
  simp [reshKept, sliceRemapDone, QUAD_RX_EVENTS.slice_remap, QUAD_RX_EVENTS]

@[simp ↓] theorem reshKept_sliceRemap (u : RxUnit) (m : Mach) : reshKept m (sliceRemap u m) := by
  unfold sliceRemap
  dsimp only
  repeat' split
  all_goals simp [reshKept]

@[simp ↓] theorem reshKept_sliceNow (u : RxUnit) (s : Nat) (m : Mach) : reshKept m (sliceNow u s m) := by
  unfold sliceNow
  split <;> simp [reshKept, QUAD_RX_EVENTS.slice_remap, QUAD_RX_EVENTS]

@[simp ↓] theorem reshKept_slicesDue (q : Nat) (m : Mach) : reshKept m (slicesDue q m) := by simp [reshKept, slicesDue]

/-! ### Sys2Proof/Machine/Token.lean -/

@[simp ↓] theorem reshKept_fesAll (code : Nat) (m : Mach) : reshKept m (fesAll code m) := by simp [reshKept, fesAll]

@[simp ↓] theorem reshKept_driveToken (tok sel : Bool) (m : Mach) : reshKept m (driveToken tok sel m) := by
  simp +decide [reshKept, driveToken]

@[simp ↓] theorem reshKept_stopTaking (m : Mach) : reshKept m (stopTaking m) := by simp +decide [reshKept, stopTaking]

@[simp ↓] theorem reshKept_releaseToken (reason : Nat) (m : Mach) : reshKept m (releaseToken reason m) := by
  simp +decide [reshKept, releaseToken]

@[simp ↓] theorem reshKept_dropToken (reason : Nat) (m : Mach) : reshKept m (dropToken reason m) := by simp [reshKept, dropToken]

/-! ### Sys2Proof/Machine/QuadOps.lean -/

@[simp ↓] theorem reshKept_setGated (q : Nat) (b : Bool) (m : Mach) : reshKept m (setGated q b m) := by
  simp +decide [reshKept, setGated]

@[simp ↓] theorem reshKept_refreshTrans (q : Nat) (m : Mach) : reshKept m (refreshTrans q m) := by simp +decide [reshKept, refreshTrans]

@[simp ↓] theorem reshKept_setSelfcal (q : Nat) (b : Bool) (m : Mach) : reshKept m (setSelfcal q b m) := by
  simp +decide [reshKept, setSelfcal]

@[simp ↓] theorem reshKept_refreshReqPending (m : Mach) : reshKept m (refreshReqPending m) := by
  simp +decide [reshKept, refreshReqPending]

@[simp ↓] theorem reshKept_setPhase (q : Nat) (p : QPhase) (t : Nat) (m : Mach) : reshKept m (setPhase q p t m) := by
  simp [reshKept, setPhase]

@[simp ↓] theorem reshKept_setQuadState (q st : Nat) (m : Mach) : reshKept m (setQuadState q st m) := by
  simp +decide [reshKept, setQuadState, GCTL_QUAD_STATE.st_q]

@[simp ↓] theorem reshKept_powerUp (q t : Nat) (m : Mach) : reshKept m (powerUp q t m) := by
  simp +decide [reshKept, powerUp, CLK_STATUS.qpll_q]

@[simp ↓] theorem reshKept_setDed (q : Nat) (x : DedSt) (m : Mach) : reshKept m (setDed q x m) := by simp [reshKept, setDed]
@[simp ↓] theorem reshKept_startDed (q : Nat) (m : Mach) : reshKept m (startDed q m) := by simp +decide [reshKept, startDed]
@[simp ↓] theorem reshKept_stopDed (q : Nat) (m : Mach) : reshKept m (stopDed q m) := by simp +decide [reshKept, stopDed]
@[simp ↓] theorem reshKept_forcedDisable (m : Mach) : reshKept m (forcedDisable m) := by simp +decide [reshKept, forcedDisable]
@[simp ↓] theorem reshKept_gapInFlight (q : Nat) (m : Mach) : reshKept m (gapInFlight q m) := by simp [reshKept, gapInFlight]

@[simp ↓] theorem reshKept_leaveRunning (q st t : Nat) (force : Bool) (m : Mach) : reshKept m (leaveRunning q st t force m) := by
  simp [reshKept, leaveRunning]

@[simp ↓] theorem reshKept_dropDedTrick (q : Nat) (m : Mach) : reshKept m (dropDedTrick q m) := by simp [reshKept, dropDedTrick]

@[simp ↓] theorem reshKept_leaveDed (q st t : Nat) (force : Bool) (m : Mach) : reshKept m (leaveDed q st t force m) := by
  simp [reshKept, leaveDed]

@[simp ↓] theorem reshKept_enterRunning (q : Nat) (m : Mach) : reshKept m (enterRunning q m) := by simp [reshKept, enterRunning]

@[simp ↓] theorem reshKept_quadStep (q t : Nat) (force : Bool) (m : Mach) : reshKept m (quadStep q t force m) := by
  simp [reshKept, quadStep]

@[simp ↓] theorem reshKept_refuseReq (q : Nat) (m : Mach) : reshKept m (refuseReq q m) := by
  simp +decide [reshKept, refuseReq, GCTL_QUAD_REQ.req_q]

@[simp ↓] theorem reshKept_takeReqDown (q st : Nat) (m : Mach) : reshKept m (takeReqDown q st m) := by simp [reshKept, takeReqDown]

@[simp ↓] theorem reshKept_takeReqSlot (q : Nat) (m : Mach) : reshKept m (takeReqSlot q m) := by
  unfold takeReqSlot
  dsimp only
  split <;> simp +decide [reshKept]

@[simp ↓] theorem reshKept_continueQuad (q : Nat) (m : Mach) : reshKept m (continueQuad q m) := by simp [reshKept, continueQuad]

@[simp ↓] theorem reshKept_followDevice (q : Nat) (m : Mach) : reshKept m (followDevice q m) := by
  unfold followDevice
  split <;> simp [reshKept]

@[simp ↓] theorem reshKept_quadSlot (q : Nat) (m : Mach) : reshKept m (quadSlot q m) := by simp [reshKept, quadSlot]

@[simp ↓] theorem reshKept_refreshInternal (m : Mach) : reshKept m (refreshInternal m) := by
  unfold refreshInternal
  exact reshKept_each (fun o _ s => reshKept_fsetB (rxBase_add_ne (k := 0xC) (by omega) _) _ s) m

/-! ### Sys2Proof/Machine/Ladder.lean -/

@[simp ↓] theorem reshKept_refreshLadder (m : Mach) : reshKept m (refreshLadder m) := by simp +decide [reshKept, refreshLadder]
@[simp ↓] theorem reshKept_refreshShed (m : Mach) : reshKept m (refreshShed m) := by simp +decide [reshKept, refreshShed]
@[simp ↓] theorem reshKept_applyLadder (m : Mach) : reshKept m (applyLadder m) := by simp [reshKept, applyLadder]

/-! ### Sys2Proof/Machine/RxCal.lean -/

@[simp ↓] theorem reshKept_factorWrite (u : RxUnit) {w : Nat} (hw : w < 42) (v : W) (m : Mach) : reshKept m (factorWrite u w v m) := by
  have hreg : factAddr u w ≠ IMG_STATUS := by
    rw [factAddr, Nat.add_assoc]
    exact rxBase_add_ne (by omega) u
  simp [reshKept, factorWrite, hreg, QUAD_RX_EVENTS.fact_err, QUAD_RX_EVENTS]

@[simp ↓] theorem reshKept_applyFacts (u : RxUnit) (m : Mach) : reshKept m (applyFacts u m) := by simp [reshKept, applyFacts]

@[simp ↓] theorem reshKept_calRuns (q : Nat) (restore : Bool) (m : Mach) : reshKept m (calRuns q restore m) := by
  simp [reshKept, calRuns, QUAD_RX_CAL_STATUS.restoring, QUAD_RX_CAL_STATUS.busy, QUAD_RX_CAL_STATUS]

@[simp ↓] theorem reshKept_phaseCal (q : Nat) (p : QPhase) (m : Mach) : reshKept m (phaseCal q p m) := by
  unfold phaseCal
  split <;> simp [reshKept]

@[simp ↓] theorem reshKept_startFull (q : Nat) (m : Mach) : reshKept m (startFull q m) := by simp [reshKept, startFull]

@[simp ↓] theorem reshKept_startRestore (q : Nat) (m : Mach) : reshKept m (startRestore q m) := by
  unfold startRestore
  extract_lets bad
  split
  · simp [reshKept]
  · exact (reshKept_each (fun u _ s => reshKept_setEv (rxBase_add_ne (k := 0x10) (by omega) u) s) m).trans (reshKept_startFull ..)

@[simp ↓] theorem reshKept_rxCal (q : Nat) (restore : Bool) (m : Mach) : reshKept m (rxCal q restore m) := by
  unfold rxCal
  split <;> simp [reshKept, QUAD_RX_CAL_EVENTS.cal_refused, QUAD_RX_CAL_EVENTS]

@[simp ↓] theorem reshKept_rxCalCmd (q : Nat) (v : W) (m : Mach) : reshKept m (rxCalCmd q v m) := by
  have hrefused : reshKept m (setEv (QUAD_RX_CAL_EVENTS.cal_refused q) m) := reshKept_setEv (quadBase_add_ne (by decide) q) m
  unfold rxCalCmd
  split
  · exact hrefused
  · split
    · exact .refl m
    · exact reshKept_rxCal ..
    · exact reshKept_rxCal ..
    · exact hrefused

/-! ### Sys2Proof/Machine/Clock.lean -/

@[simp ↓] theorem reshKept_setClk (f : ClkSt → ClkSt) (m : Mach) : reshKept m (setClk f m) := by simp [reshKept, setClk]
@[simp ↓] theorem reshKept_clkErr (m : Mach) : reshKept m (clkErr m) := by simp +decide [reshKept, clkErr]
@[simp ↓] theorem reshKept_seedInForce (m : Mach) : reshKept m (seedInForce m) := by simp [reshKept, seedInForce]
@[simp ↓] theorem reshKept_seedStaged (m : Mach) : reshKept m (seedStaged m) := by simp [reshKept, seedStaged]
@[simp ↓] theorem reshKept_clkSeedWrite (v : W) (m : Mach) : reshKept m (clkSeedWrite v m) := by simp +decide [reshKept, clkSeedWrite]
@[simp ↓] theorem reshKept_refCfgWrite (v : W) (m : Mach) : reshKept m (refCfgWrite v m) := by simp +decide [reshKept, refCfgWrite]
@[simp ↓] theorem reshKept_syncCfgWrite (v : W) (m : Mach) : reshKept m (syncCfgWrite v m) := by simp +decide [reshKept, syncCfgWrite]
@[simp ↓] theorem reshKept_applySteer (v : W) (m : Mach) : reshKept m (applySteer v m) := by simp +decide [reshKept, applySteer]
@[simp ↓] theorem reshKept_clkSteerWrite (v : W) (m : Mach) : reshKept m (clkSteerWrite v m) := by simp [reshKept, clkSteerWrite]
@[simp ↓] theorem reshKept_gateQuad (q : Nat) (m : Mach) : reshKept m (gateQuad q m) := by simp [reshKept, gateQuad]
@[simp ↓] theorem reshKept_gateLoop (k : Nat) (m : Mach) : reshKept m (gateLoop k m) := by simp +decide [reshKept, gateLoop]
@[simp ↓] theorem reshKept_coastLimits (m : Mach) : reshKept m (coastLimits m) := by simp [reshKept, coastLimits]

@[simp ↓] theorem reshKept_classBRequest (v : W) (m : Mach) : reshKept m (classBRequest v m) := by
  simp +decide [reshKept, classBRequest]

/-! ### Sys2Proof/Machine/Estimate.lean -/

@[simp ↓] theorem reshKept_setCal (f : CalSt → CalSt) (m : Mach) : reshKept m (setCal f m) := by simp [reshKept, setCal]
@[simp ↓] theorem reshKept_refreshDelayOk (m : Mach) : reshKept m (refreshDelayOk m) := by simp +decide [reshKept, refreshDelayOk]

@[simp ↓] theorem reshKept_calRefWrite (freq : Bool) (v : W) (m : Mach) : reshKept m (calRefWrite freq v m) := by
  simp +decide [reshKept, calRefWrite]

theorem corrReg_ne {n k i : Nat} (hn : n < 64) (hi : i < 4) : corrReg n k i ≠ IMG_STATUS := by
  have hk : kindWord k ≤ 12 := by
    unfold kindWord
    split_ifs <;> omega
  unfold corrReg CAL_PATH_w IMG_STATUS
  omega

@[simp ↓] theorem reshKept_setCorr {n : Nat} (hn : n < 64) (k : Nat) (amp phase : Int) (m : Mach) :
    reshKept m (setCorr n k amp phase m) := by
  have hreg (i : Nat) (hi : i < 4) := corrReg_ne (k := k) hn hi
  simp [reshKept, setCorr, hreg]

theorem lt_of_mem_paths64 {n : Nat} (h : n ∈ paths64) : n < 64 := List.mem_range.1 h

@[simp ↓] theorem reshKept_followCarrier (dl : Bool) (m : Mach) : reshKept m (followCarrier dl m) := by
  unfold followCarrier
  dsimp only
  generalize (if dl then m.cal.fcDl else m.cal.fcUl) = old
  split
  · exact .refl m
  · have hpaths (f : Nat → Mach → Mach) (hf : ∀ n < 64, ∀ s, reshKept s (f n s)) : reshKept m (each paths64 f m) :=
      reshKept_each (fun n hn s => hf n (lt_of_mem_paths64 hn) s) m
    refine reshKept.trans (hpaths _ fun n hn s => ?_) (reshKept_setCal _ _)
    split <;> simp [reshKept, hn]

end Sys2Proof.Machine

/-! SUPPORT. What the operations of a slot boundary keep of a reshuffle that waits: those of Calib, Link, Power, Monitor, TileHost,
Health, RegWrite and States. -/

namespace Sys2Proof.Machine

/-! ### Sys2Proof/Machine/Calib.lean -/

@[simp ↓] theorem reshKept_setStates (n : Nat) (tx : Bool) (l : List StateEnt) (m : Mach) : reshKept m (setStates n tx l m) := by
  simp [reshKept, setStates]

@[simp ↓] theorem reshKept_touchState (n : Nat) (tx : Bool) (e : StateEnt) (m : Mach) : reshKept m (touchState n tx e m) := by
  simp [reshKept, touchState]

@[simp ↓] theorem reshKept_refreshUnc {n : Nat} (hn : n < 64) (k : Nat) (m : Mach) : reshKept m (refreshUnc n k m) := by
  unfold refreshUnc
  exact reshKept_fset (corrReg_ne hn (by omega)) _ m

@[simp ↓] theorem reshKept_refreshArr {n : Nat} (hn : n < 64) (tx : Bool) (m : Mach) : reshKept m (refreshArr n tx m) := by
  unfold refreshArr
  dsimp only
  split
  · exact .refl m
  · split <;> simp +decide [reshKept, hn]

@[simp ↓] theorem reshKept_refreshStates (m : Mach) : reshKept m (refreshStates m) := by
  unfold refreshStates
  refine reshKept.trans ?_ (reshKept_each (fun n hn s => ?_) _)
  · simp [reshKept]
  · simp [reshKept, lt_of_mem_paths64 hn]

@[simp ↓] theorem reshKept_applyTrim {n : Nat} (hn : n < 64) (m : Mach) : reshKept m (applyTrim n m) := by
  have hrx : CLK_RX_TRIM n ≠ IMG_STATUS := by unfold CLK_RX_TRIM IMG_STATUS; omega
  have htx : CLK_TX_TRIM n ≠ IMG_STATUS := by unfold CLK_TX_TRIM IMG_STATUS; omega
  simp +decide [reshKept, applyTrim, CLK_RX_TRIM.trim, CLK_RX_TRIM.at_limit, CLK_TX_TRIM.trim, CLK_TX_TRIM.at_limit, hrx, htx, hn]

@[simp ↓] theorem reshKept_trimsBoundary (m : Mach) : reshKept m (trimsBoundary m) := by
  unfold trimsBoundary
  split
  · exact (reshKept_setCal ..).trans (reshKept_each (fun n hn s => reshKept_applyTrim (lt_of_mem_paths64 hn) s) _)
  · exact .refl m

@[simp ↓] theorem reshKept_refreshTrace (m : Mach) : reshKept m (refreshTrace m) := by simp +decide [reshKept, refreshTrace]

@[simp ↓] theorem reshKept_calFcb (k n : Nat) (start : Bool) (m : Mach) : reshKept m (calFcb k n start m) := by
  unfold calFcb
  split <;> simp [reshKept, CAL_FCB.en, CAL_FCB]

@[simp ↓] theorem reshKept_calStart (k n : Nat) (m : Mach) : reshKept m (calStart k n m) := by simp [reshKept, calStart]

@[simp ↓] theorem reshKept_startPart (q : Nat) (m : Mach) : reshKept m (startPart q m) := by
  unfold startPart
  split <;> simp [reshKept]

@[simp ↓] theorem reshKept_trickBegin (m : Mach) : reshKept m (trickBegin m) := by
  unfold trickBegin
  split <;> simp [reshKept]

@[simp ↓] theorem reshKept_calCtrlWrite (v : W) (m : Mach) : reshKept m (calCtrlWrite v m) := by simp +decide [reshKept, calCtrlWrite]

/-! ### Sys2Proof/Machine/Link.lean -/

@[simp ↓] theorem reshKept_refreshSess (s : Nat) (m : Mach) : reshKept m (refreshSess s m) := by
  unfold refreshSess
  dsimp only
  repeat' split
  all_goals simp [reshKept, EPL_SESS_CFG.port, EPL_SESS_CFG]

@[simp ↓] theorem reshKept_refreshSessions (m : Mach) : reshKept m (refreshSessions m) := by simp [reshKept, refreshSessions]
@[simp ↓] theorem reshKept_sendPortState (m : Mach) : reshKept m (sendPortState m) := by simp [reshKept, sendPortState]

@[simp ↓] theorem reshKept_setBonded {i : Nat} (hi : i < 4) (b : Bool) (m : Mach) : reshKept m (setBonded i b m) := by
  have hreg : EPL_PORT_STATUS i ≠ IMG_STATUS := by unfold EPL_PORT_STATUS IMG_STATUS; omega
  simp +decide [reshKept, setBonded, EPL_PORT_STATUS.bonded, hreg]

@[simp ↓] theorem reshKept_setPort {i : Nat} (hi : i < 4) (st : Nat) (m : Mach) : reshKept m (setPort i st m) := by
  have hreg : EPL_PORT_STATUS i ≠ IMG_STATUS := by unfold EPL_PORT_STATUS IMG_STATUS; omega
  simp +decide [reshKept, setPort, EPL_PORT_STATUS.state, hreg, hi]

@[simp ↓] theorem reshKept_trainPort {i : Nat} (hi : i < 4) (m : Mach) : reshKept m (trainPort i m) := by
  simp [reshKept, trainPort, hi]

@[simp ↓] theorem reshKept_portCtrlWrite {i : Nat} (hi : i < 4) (v : W) (m : Mach) : reshKept m (portCtrlWrite i v m) := by
  have hreg : EPL_PORT_CTRL i ≠ IMG_STATUS := by unfold EPL_PORT_CTRL IMG_STATUS; omega
  simp +decide [reshKept, portCtrlWrite, hreg, hi]

@[simp ↓] theorem reshKept_noteSens (m : Mach) : reshKept m (noteSens m) := by simp [reshKept, noteSens]

@[simp ↓] theorem reshKept_linkShed (m : Mach) : reshKept m (linkShed m) := by
  simp +decide [reshKept, linkShed]

/-! ### Sys2Proof/Machine/Power.lean -/

@[simp ↓] theorem reshKept_saveSetting (a : Nat) (m : Mach) : reshKept m (saveSetting a m) := by simp [reshKept, saveSetting]

/-! ### Sys2Proof/Machine/Monitor.lean -/

@[simp ↓] theorem reshKept_monStart (q : Nat) (m : Mach) : reshKept m (monStart q m) := by
  simp [reshKept, monStart, MON_CTRL, MON_SEQ, MON_STATUS.entry, MON_STATUS.pending, MON_STATUS.busy, MON_STATUS]

@[simp ↓] theorem reshKept_monTrigger (q : Nat) (m : Mach) : reshKept m (monTrigger q m) := by
  unfold monTrigger
  split <;> simp [reshKept, MON_EVENTS.trig_missed, MON_STATUS.busy, MON_STATUS.pending, MON_STATUS, MON_EVENTS]

@[simp ↓] theorem reshKept_monTrig (q : Nat) (m : Mach) : reshKept m (monTrig q m) := by
  simp [reshKept, monTrig, MON_CTRL.trig_src, MON_CTRL]

@[simp ↓] theorem reshKept_monCommon (m : Mach) : reshKept m (monCommon m) := by simp [reshKept, monCommon, MON_CTRL.trig_src, MON_CTRL]
@[simp ↓] theorem reshKept_monTrigCmd (v : W) (m : Mach) : reshKept m (monTrigCmd v m) := by simp [reshKept, monTrigCmd]
@[simp ↓] theorem reshKept_trigArm (m : Mach) : reshKept m (trigArm m) := by simp [reshKept, trigArm]
@[simp ↓] theorem reshKept_monBoundary (frame : Bool) (m : Mach) : reshKept m (monBoundary frame m) := by simp [reshKept, monBoundary]

@[simp ↓] theorem reshKept_monStop (q : Nat) (m : Mach) : reshKept m (monStop q m) := by
  unfold monStop
  split <;> simp [reshKept, MON_STATUS.pending, MON_STATUS]

@[simp ↓] theorem reshKept_monCal (q : Nat) (m : Mach) : reshKept m (monCal q m) := by
  simp [reshKept, monCal, MON_STATUS.busy, MON_STATUS.pending, MON_EVENTS.cmd_refused, MON_STATUS.cal_busy, MON_STATUS, MON_EVENTS]

@[simp ↓] theorem reshKept_monCmdWrite (q : Nat) (v : W) (m : Mach) : reshKept m (monCmdWrite q v m) := by
  unfold monCmdWrite
  split
  · simp [reshKept, MON_EVENTS.cmd_refused, MON_EVENTS]
  · split <;> simp [reshKept]

@[simp ↓] theorem reshKept_monFactWrite {a : Nat} (h : a ≠ IMG_STATUS) (q : Nat) (v : W) (m : Mach) :
    reshKept m (monFactWrite q a v m) := by
  simp [reshKept, monFactWrite, h, MON_EVENTS.cmd_refused, MON_EVENTS]

@[simp ↓] theorem reshKept_monThrWrite (v : W) (m : Mach) : reshKept m (monThrWrite v m) := by simp +decide [reshKept, monThrWrite]

/-! ### Sys2Proof/Machine/TileHost.lean -/

@[simp ↓] theorem reshKept_bindTile (l old : Nat) (new : Option Nat) (m : Mach) : reshKept m (bindTile l old new m) := by
  simp [reshKept, bindTile]

/-! ### Sys2Proof/Machine/Health.lean -/

@[simp ↓] theorem reshKept_emptyPool (r : KittyRes) (m : Mach) : reshKept m (emptyPool r m) := by
  unfold emptyPool
  dsimp only
  repeat' split
  all_goals simp [reshKept]

@[simp ↓] theorem reshKept_spareGone (r : KittyRes) (m : Mach) : reshKept m (spareGone r m) := by simp [reshKept, spareGone]
@[simp ↓] theorem reshKept_sparesLeft (m : Mach) : reshKept m (sparesLeft m) := by simp [reshKept, sparesLeft]

/-! ### Sys2Proof/Machine/RegWrite.lean -/

@[simp ↓] theorem reshKept_w1c {a : Nat} (h : a ≠ IMG_STATUS) (v sets : W) (m : Mach) : reshKept m (w1c a v sets m) := by
  simp [reshKept, w1c, h]

@[simp ↓] theorem reshKept_applyRws {a : Nat} (h : a ≠ IMG_STATUS) (v : W) (m : Mach) : reshKept m (applyRws a v m) := reshKept_wr h v m
@[simp ↓] theorem reshKept_mirrorRws (a : Nat) (v : W) (m : Mach) : reshKept m (mirrorRws a v m) := by simp [reshKept, mirrorRws]

@[simp ↓] theorem reshKept_rwsWrite {a : Nat} (h : a ≠ IMG_STATUS) (v : W) (m : Mach) : reshKept m (rwsWrite a v m) := by
  simp [reshKept, rwsWrite, h]

/-- IMG_STATUS is read-only. -/
theorem plainWrite_imgStatus (v : W) (m : Mach) : plainWrite IMG_STATUS v m = m := rfl

@[simp ↓] theorem reshKept_plainWrite (a : Nat) (v : W) (m : Mach) : reshKept m (plainWrite a v m) := by
  by_cases h : a = IMG_STATUS
  · rw [h, plainWrite_imgStatus]
    exact .refl m
  · unfold plainWrite
    split
    · exact .refl m
    · split <;> simp [reshKept, h]

@[simp ↓] theorem reshKept_settingWrite (a : Nat) (v : W) (m : Mach) : reshKept m (settingWrite a v m) := by
  simp [reshKept, settingWrite]

@[simp ↓] theorem reshKept_chainWrite (c : ChainId) (r a : Nat) (v : W) (m : Mach) : reshKept m (chainWrite c r a v m) := by
  unfold chainWrite
  split <;> simp [reshKept]

@[simp ↓] theorem reshKept_rxUnitWrite (u : RxUnit) (r a : Nat) (v : W) (m : Mach) : reshKept m (rxUnitWrite u r a v m) := by
  unfold rxUnitWrite
  split
  · exact reshKept_rxCtrlWrite ..
  · split
    · exact reshKept_rxAttenWrite ..
    · split
      · exact reshKept_factorWrite u (by omega) ..
      · exact reshKept_plainWrite ..

@[simp ↓] theorem reshKept_pathWrite (n r a : Nat) (v : W) (m : Mach) : reshKept m (pathWrite n r a v m) := by
  simp [reshKept, pathWrite]

@[simp ↓] theorem reshKept_obsWrite (o r a : Nat) (v : W) (m : Mach) : reshKept m (obsWrite o r a v m) := by simp [reshKept, obsWrite]

@[simp ↓] theorem reshKept_quadBlockWrite {q o a : Nat} (ha : a = quadBase q + o) (ho : o < 0x100000) (v : W) (m : Mach) :
    reshKept m (quadBlockWrite q o a v m) := by
  unfold quadBlockWrite
  split
  · exact reshKept_pathWrite ..
  · split
    · exact reshKept_rxCalCmd ..
    · split
      · exact reshKept_settingWrite ..
      · split
        · exact reshKept_obsWrite ..
        · split
          · exact reshKept_fesCfgWrite (by rw [ha]; exact quadBase_add_ne (by omega) q) ..
          · split
            · exact reshKept_fesSwWrite ..
            · split
              · exact reshKept_swapRegWrite ..
              · exact reshKept_plainWrite ..

@[simp ↓] theorem reshKept_dirSnapCmd (v : W) (m : Mach) : reshKept m (dirSnapCmd v m) := by
  unfold dirSnapCmd
  split
  · simp +decide [reshKept]
  · split <;> simp [reshKept]

@[simp ↓] theorem reshKept_acqWrite (a : Nat) (v : W) (m : Mach) : reshKept m (acqWrite a v m) := by simp [reshKept, acqWrite]
@[simp ↓] theorem reshKept_clkWrite (a : Nat) (v : W) (m : Mach) : reshKept m (clkWrite a v m) := by simp [reshKept, clkWrite]

@[simp ↓] theorem reshKept_monWrite (a : Nat) (v : W) (m : Mach) : reshKept m (monWrite a v m) := by
  unfold monWrite
  dsimp only
  split
  · split
    · exact reshKept_monCmdWrite ..
    · split
      · next h => exact reshKept_monFactWrite (by unfold IMG_STATUS; omega) ..
      · exact reshKept_plainWrite ..
  · simp [reshKept]

@[simp ↓] theorem reshKept_calWrite (a : Nat) (v : W) (m : Mach) : reshKept m (calWrite a v m) := by simp [reshKept, calWrite]

@[simp ↓] theorem reshKept_capWrite {c : Nat} (hc : c < 8) (r a : Nat) (v : W) (m : Mach) : reshKept m (capWrite c r a v m) := by
  unfold capWrite
  split <;> simp [reshKept, hc]

@[simp ↓] theorem reshKept_dmaWrite (a : Nat) (v : W) (m : Mach) : reshKept m (dmaWrite a v m) := by
  unfold dmaWrite
  dsimp only
  split
  · split <;> simp [reshKept]
  · split
    · exact reshKept_quotaWrite ..
    · split
      · exact reshKept_capWrite (by omega) ..
      · exact reshKept_plainWrite ..

@[simp ↓] theorem reshKept_eplWrite (a : Nat) (v : W) (m : Mach) : reshKept m (eplWrite a v m) := by
  unfold eplWrite
  dsimp only
  split
  · exact reshKept_portCtrlWrite (by omega) ..
  · simp [reshKept]

@[simp ↓] theorem reshKept_blockWrite (a : Nat) (v : W) (m : Mach) : reshKept m (blockWrite a v m) := by
  unfold blockWrite
  split
  · split
    · exact reshKept_bmuCfgWrite ..
    · exact reshKept_plainWrite ..
  · exact reshKept_acqWrite ..
  · exact reshKept_clkWrite ..
  · exact reshKept_monWrite ..
  · exact reshKept_calWrite ..
  · exact reshKept_dmaWrite ..
  · exact reshKept_eplWrite ..
  · split
    · exact reshKept_quadBlockWrite (by unfold quadBase; omega) (by omega) ..
    · exact reshKept_plainWrite ..

/-! ### Sys2Proof/Machine/States.lean -/

@[simp ↓] theorem reshKept_resetChains (q : Nat) (m : Mach) : reshKept m (resetChains q m) := by simp [reshKept, resetChains]
@[simp ↓] theorem reshKept_startQuad (q : Nat) (m : Mach) : reshKept m (startQuad q m) := by simp [reshKept, startQuad]

end Sys2Proof.Machine

/-! SUPPORT. What the operations of a slot boundary keep of a reshuffle that waits: those of Deck, Twin, Reshuf and Boundary. -/

namespace Sys2Proof.Machine

/-! ### Sys2Proof/Machine/Deck.lean -/

@[simp ↓] theorem reshKept_loadTiles (b : List Byte) (m : Mach) : reshKept m (loadTiles b m) := by
  refine reshKept_each (fun r _ s => ?_) m
  split
  · exact reshKept_commitTile ..
  · exact .refl s

@[simp ↓] theorem reshKept_loadFrame (b : List Byte) (t : Nat) (m : Mach) : reshKept m (loadFrame b t m) := by
  simp [reshKept, loadFrame]

@[simp ↓] theorem reshKept_loadWords {n a : Nat} (h : ∀ i < n, a + 4 * i ≠ IMG_STATUS) (b : List Byte) (off : Nat) (m : Mach) :
    reshKept m (loadWords b off n a m) :=
  reshKept_each (fun i hi s => reshKept_wr (h i (List.mem_range.1 hi)) _ s) m

@[simp ↓] theorem reshKept_putWords {a : Nat} {l : List W} (h : ∀ i < l.length, a + 4 * i ≠ IMG_STATUS) (m : Mach) :
    reshKept m (putWords l a m) := by
  unfold putWords
  refine reshKept_each (fun p hp s => ?_) m
  have hi : p.2 < l.length := by simpa using List.snd_lt_of_mem_zipIdx hp
  exact reshKept_wr (h p.2 hi) p.1 s

theorem length_fesWords (b : List Byte) (q : Nat) : (fesWords b q).1.length = 256 ∧ (fesWords b q).2.length = 1024 := by
  unfold fesWords
  exact ⟨by rw [List.length_map, List.length_range], by rw [List.length_map, List.length_range]⟩

@[simp ↓] theorem reshKept_loadFes (resh : Bool) (b : List Byte) (q : Nat) (m : Mach) : reshKept m (loadFes resh b q m) := by
  obtain ⟨hone, htwo⟩ := length_fesWords b q
  have hstates (m : Mach) : reshKept m (putWords (fesWords b q).1 (QUAD_FES_STATE_w q 0 0) m) :=
    reshKept_putWords (fun i hi => by unfold QUAD_FES_STATE_w quadBase IMG_STATUS; omega) m
  have hacts (m : Mach) : reshKept m (putWords (fesWords b q).2 (QUAD_FES_ACT_w q 0 0) m) :=
    reshKept_putWords (fun i hi => by unfold QUAD_FES_ACT_w quadBase IMG_STATUS; omega) m
  unfold loadFes
  dsimp only
  split
  · exact .refl m
  · exact ((hstates m).trans (hacts _)).trans (reshKept_fesRestart ..)

@[simp ↓] theorem reshKept_loadCurves (b : List Byte) (q : Nat) (m : Mach) : reshKept m (loadCurves b q m) :=
  reshKept_loadWords (fun i hi => by unfold QUAD_TX_TCURVE quadBase IMG_STATUS; omega) b _ m

@[simp ↓] theorem reshKept_putBank (resh : Bool) (b : List Byte) (n : Nat) (m : Mach) : reshKept m (putBank resh b n m) := by
  simp [reshKept, putBank]

@[simp ↓] theorem reshKept_loadBanks (resh : Bool) (b : List Byte) (m : Mach) : reshKept m (loadBanks resh b m) := by
  unfold loadBanks
  exact reshKept_each (fun n _ s => by
    simp [reshKept, QUAD_PD_EVENTS.swapped, QUAD_PD_EVENTS, QUAD_PD_STATUS.active_bank, QUAD_PD_STATUS]) m

@[simp ↓] theorem reshKept_loadBoard (b : List Byte) (m : Mach) : reshKept m (loadBoard b m) := by simp +decide [reshKept, loadBoard]

@[simp ↓] theorem reshKept_loadAdj (b : List Byte) (n : Nat) (m : Mach) : reshKept m (loadAdj b n m) := by
  simp [reshKept, loadAdj, QUAD_PD_ADJ.nb1, QUAD_PD_ADJ.nb1_valid, QUAD_PD_ADJ.nb0, QUAD_PD_ADJ.nb0_valid, QUAD_PD_ADJ]

@[simp ↓] theorem reshKept_loadReserves (b : List Byte) (m : Mach) : reshKept m (loadReserves b m) := by
  refine reshKept_each (fun k hk s => ?_) m
  have hk := List.mem_range.1 hk
  have hreg : (HLT_RESERVE.reserve k).reg ≠ IMG_STATUS := by unfold HLT_RESERVE.reserve HLT_RESERVE IMG_STATUS; dsimp only; omega
  exact ((reshKept_fset hreg _ s).trans (reshKept_refreshKind k _)).trans (reshKept_checkReserve k _)

@[simp ↓] theorem reshKept_loadDemand (b : List Byte) (m : Mach) : reshKept m (loadDemand b m) := by
  refine reshKept_each (fun i hi s => reshKept_fset ?_ _ s) m
  have hi := List.mem_range.1 hi
  unfold GCTL_SLACK_PIPE.design_slack GCTL_SLACK_PIPE IMG_STATUS
  dsimp only
  omega

@[simp ↓] theorem reshKept_loadSect (resh : Bool) (t ty : Nat) (b : List Byte) (m : Mach) : reshKept m (loadSect resh t ty b m) := by
  have hgeom (off : Nat) : reshKept m (loadWords b off 256 (BMU_GEOM 0) m) :=
    reshKept_loadWords (fun i hi => by unfold BMU_GEOM IMG_STATUS; omega) b off m
  unfold loadSect
  split <;> simp [reshKept, hgeom]

@[simp ↓] theorem reshKept_refreshLims (m : Mach) : reshKept m (refreshLims m) := by simp +decide [reshKept, refreshLims]

theorem reshKept_regApply {idx : Nat} {l : List ((Nat × W) × Nat)} {m u : Mach} (h : regApply idx l m = .ok u) : reshKept m u := by
  induction l generalizing m with
  | nil =>
    obtain rfl : m = u := Except.ok.inj h
    exact .refl m
  | cons e l ih =>
    simp only [regApply] at h
    split at h
    · exact (reshKept_blockWrite ..).trans (ih h)
    · cases h

@[simp ↓] theorem reshKept_storeSects (l : List Byte) (m : Mach) : reshKept m (storeSects l m) := by
  unfold storeSects
  refine reshKept_each (fun s _ t => ?_) m
  exact ⟨rfl, rfl, rfl, rfl, rfl, rfl⟩

@[simp ↓] theorem reshKept_writeAnchors (b : List Byte) (m : Mach) : reshKept m (writeAnchors b m) := by
  simp +decide [reshKept, writeAnchors]

@[simp ↓] theorem reshKept_setIdent (i : List Byte) (m : Mach) : reshKept m (setIdent i m) := by
  simp +decide [reshKept, setIdent, setImg]

@[simp ↓] theorem reshKept_forcedOff (l : List Byte) (m m' : Mach) : reshKept m' (forcedOff l m m') := by
  simp +decide [reshKept, forcedOff, QUAD_PD_CTRL.pd_en, QUAD_PD_CTRL]

/-! ### Sys2Proof/Machine/Twin.lean -/

@[simp ↓] theorem reshKept_setTwin (f : TwinSt → TwinSt) (m : Mach) : reshKept m (setTwin f m) := by simp [reshKept, setTwin]
@[simp ↓] theorem reshKept_refreshReady (m : Mach) : reshKept m (refreshReady m) := by simp +decide [reshKept, refreshReady]

@[simp ↓] theorem reshKept_handoverRelease (m : Mach) : reshKept m (handoverRelease m) := by
  unfold handoverRelease
  split <;> simp +decide [reshKept]

/-! ### Sys2Proof/Machine/Reshuf.lean -/

@[simp ↓] theorem reshKept_imgResult (x : Nat × Nat) (code : Nat) (m : Mach) : reshKept m (imgResult x code m) := by
  simp [reshKept, imgResult]

/-- The fields of the lock stand below reshuf_pending in IMG_STATUS. -/
theorem reshKept_statusField {f : Fld} (h : f.lo + f.w ≤ 32) (hf : f.reg ≠ IMG_STATUS ∨ f.lo + f.w ≤ 6 ∨ 7 ≤ f.lo)
    (x : Nat) (m : Mach) : reshKept m (fset f x m) := by
  refine ⟨rfl, rfl, ?_, rfl, rfl, rfl⟩
  by_cases hreg : f.reg = IMG_STATUS
  · have hbit : ¬ (f.lo ≤ 6 ∧ 6 < f.lo + f.w) := by omega
    change (rd IMG_STATUS (fset f x m)).getLsbD 6 = (rd IMG_STATUS m).getLsbD 6
    rw [← hreg, rd_fset_same, getLsbD_wset _ _ _ _ _ h, if_neg hbit]
  · exact (reshKept_fset hreg x m).pendBit

@[simp ↓] theorem reshKept_unlock (m : Mach) : reshKept m (unlock m) := by
  have hlock (x : Nat) (m : Mach) : reshKept m (fset IMG_STATUS.lock_src x m) := reshKept_statusField (by decide) (by decide) x m
  have hsess (x : Nat) (m : Mach) : reshKept m (fset IMG_STATUS.lock_sess x m) := reshKept_statusField (by decide) (by decide) x m
  have htarget (x : Nat) (m : Mach) : reshKept m (fset IMG_STATUS.target x m) := reshKept_statusField (by decide) (by decide) x m
  simp [reshKept, unlock, setImg, hlock, hsess, htarget]

@[simp ↓] theorem reshKept_endCommit (c : Nat) (m : Mach) : reshKept m (endCommit c m) := by simp [reshKept, endCommit]
@[simp ↓] theorem reshKept_setNvm (f : Nvm → Nvm) (m : Mach) : reshKept m (setNvm f m) := by simp [reshKept, setNvm]

@[simp ↓] theorem reshKept_refreshImg (m : Mach) : reshKept m (refreshImg m) := by
  have hstored (x : Nat) (m : Mach) : reshKept m (fset IMG_STATUS.stored_rs x m) := reshKept_statusField (by decide) (by decide) x m
  have hslot (x : Nat) (m : Mach) : reshKept m (fset IMG_STATUS.deck_slot x m) := reshKept_statusField (by decide) (by decide) x m
  simp +decide [reshKept, refreshImg, hstored, hslot, IMG_FW_VER, IMG_BANK.state, IMG_BANK.commits, IMG_BANK.preferred, IMG_BANK]

@[simp ↓] theorem reshKept_storeResh (l : List Byte) (m : Mach) : reshKept m (storeResh l m) := by simp [reshKept, storeResh]
@[simp ↓] theorem reshKept_reshRefused (e : ImgErr) (m : Mach) : reshKept m (reshRefused e m) := by simp +decide [reshKept, reshRefused]

/-! ### Sys2Proof/Machine/Boundary.lean -/

@[simp ↓] theorem reshKept_applyUnit (u : RxUnit) (m : Mach) : reshKept m (applyUnit u m) := by
  simp [reshKept, applyUnit, QUAD_RX_CTRL_ne, QUAD_RX_ATTEN]

@[simp ↓] theorem reshKept_applyQuadUnits (q : Nat) (m : Mach) : reshKept m (applyQuadUnits q m) := by simp [reshKept, applyQuadUnits]

/-- What is staged for no register but IMG_STATUS applies; nothing is staged for that one. -/
theorem reshKept_takeRws {m : Mach} (h : imgStaged m.stage = none) (a : Nat) : reshKept m (takeStage a (applyRws a) m) := by
  by_cases ha : a = IMG_STATUS
  · have hst : staged a m = none := by rw [ha]; exact h
    rw [takeStage, hst]
    exact .refl m
  · exact reshKept_takeStage ha (fun v s => reshKept_applyRws ha v s) m

theorem reshKept_applyRest {m : Mach} (h : imgStaged m.stage = none) (sel : Nat → Bool) : reshKept m (applyRest sel m) := by
  unfold applyRest
  refine each_inv (reshKept m) _ _ (fun e _ u hu => hu.trans (reshKept_takeRws ?_ e.1)) m (.refl m)
  exact hu.imgStaged.trans h

theorem reshKept_beforeRest (m : Mach) : reshKept m (takeStage BMU_CFG applyBmuCfg (each quads4 applyQuadUnits
      (takeStage GCTL_ANCHOR_DL (applyAnchor .dl) (takeStage GCTL_ANCHOR_UL (applyAnchor .ul) m)))) := by
  simp +decide [reshKept]

theorem reshKept_applyStaged {m : Mach} (h : imgStaged m.stage = none) : reshKept m (applyStaged m) := by
  have hbefore := reshKept_beforeRest m
  exact hbefore.trans (reshKept_applyRest (hbefore.imgStaged.trans h) _)

@[simp ↓] theorem reshKept_slotPeak (n : Nat) (m : Mach) : reshKept m (slotPeak n m) := by
  simp [reshKept, slotPeak, QUAD_RX_PEAK.peak, QUAD_RX_PEAK.ovr_slot, QUAD_RX_PEAK]

@[simp ↓] theorem reshKept_schedSynced (m : Mach) : reshKept m (schedSynced m) := by simp [reshKept, schedSynced]

@[simp ↓] theorem reshKept_pauseStart (m : Mach) : reshKept m (pauseStart m) := by
  unfold pauseStart
  split
  · exact reshKept.trans (m' := { m with img := { m.img with handover := false, pause := true } }) (.refl m)
      (reshKept_statusField (by decide) (by decide) 1 _)
  · exact .refl m

@[simp ↓] theorem reshKept_muteFault (frame : Bool) (m : Mach) : reshKept m (muteFault frame m) := by simp [reshKept, muteFault]
@[simp ↓] theorem reshKept_muteNote (frame : Bool) (m : Mach) : reshKept m (muteNote frame m) := by simp [reshKept, muteNote]

@[simp ↓] theorem reshKept_showMargin {f : Fld} (h : f.reg ≠ IMG_STATUS) (o : Option Int) (m : Mach) :
    reshKept m (showMargin o f m) := by
  unfold showMargin
  split <;> simp +decide [reshKept, h]

@[simp ↓] theorem reshKept_frameMargins (m : Mach) : reshKept m (frameMargins m) := by simp +decide [reshKept, frameMargins]
@[simp ↓] theorem reshKept_frameLates (m : Mach) : reshKept m (frameLates m) := by simp [reshKept, frameLates]
@[simp ↓] theorem reshKept_endFlush (m : Mach) : reshKept m (endFlush m) := by simp [reshKept, endFlush]
@[simp ↓] theorem reshKept_startQuads (m : Mach) : reshKept m (startQuads m) := by simp [reshKept, startQuads]
@[simp ↓] theorem reshKept_endHold (m : Mach) : reshKept m (endHold m) := by simp [reshKept, endHold]
@[simp ↓] theorem reshKept_repace (m : Mach) : reshKept m (repace m) := by simp +decide [reshKept, repace]

@[simp ↓] theorem reshKept_frameStarts (traffic : Bool) (m : Mach) : reshKept m (frameStarts traffic m) := by
  simp [reshKept, frameStarts]

@[simp ↓] theorem reshKept_slotEnds (m : Mach) : reshKept m (slotEnds m) := by simp [reshKept, slotEnds]

@[simp ↓] theorem reshKept_streamsSlot (old : List UlStream) (anchor : Nat) (m : Mach) : reshKept m (streamsSlot old anchor m) := by
  simp [reshKept, streamsSlot]

end Sys2Proof.Machine

/-! SUPPORT. The frame table through the end of a slot: the operations that settle its samples, evaluate its acquisition and synthesise
the next one leave it, as those of the boundary itself do. -/

namespace Sys2Proof.Machine

/-! ### Sys2Proof/Machine/Ops.lean -/

@[simp ↓] theorem ftab_setIn (k : Nat) (x : List BEntry) (m : Mach) : (setIn k x m).ftab = m.ftab := by simp [setIn]
@[simp ↓] theorem ftab_setCap (k : Nat) (x : CapSet) (m : Mach) : (setCap k x m).ftab = m.ftab := by simp [setCap]

/-! ### Sys2Proof/Machine/ResMem.lean -/

@[simp ↓] theorem ftab_setPoison (a : Nat) (b : Bool) (m : Mach) : (setPoison a b m).ftab = m.ftab := by simp [setPoison]
@[simp ↓] theorem ftab_reportUe (a : Nat) (m : Mach) : (reportUe a m).ftab = m.ftab := by simp [reportUe]
@[simp ↓] theorem ftab_readReport (a n : Nat) (m : Mach) : (readReport a n m).ftab = m.ftab := by simp [readReport]
@[simp ↓] theorem ftab_setUse (i x : Nat) (m : Mach) : (setUse i x m).ftab = m.ftab := by simp [setUse]

/-! ### Sys2Proof/Machine/Time.lean -/

@[simp ↓] theorem ftab_advanceTo (t : Nat) (m : Mach) : (advanceTo t m).ftab = m.ftab := by simp [advanceTo]

/-! ### Sys2Proof/Machine/Reservoir.lean -/

@[simp ↓] theorem ftab_refreshOverQuota (m : Mach) : (refreshOverQuota m).ftab = m.ftab := by simp [refreshOverQuota]

/-! ### Sys2Proof/Machine/Capture.lean -/

@[simp ↓] theorem ftab_capFeed (elem : Bool) (i t : Nat) (x : Sample) (m : Mach) : (capFeed elem i t x m).ftab = m.ftab := by
  simp [capFeed]

/-! ### Sys2Proof/Machine/Dir.lean -/

@[simp ↓] theorem ftab_cureLine (k : Nat) (m : Mach) : (cureLine k m).ftab = m.ftab := by simp [cureLine]
@[simp ↓] theorem ftab_refreshDir (m : Mach) : (refreshDir m).ftab = m.ftab := by simp [refreshDir]
@[simp ↓] theorem ftab_setPlace (k : Nat) (e : Option DirEntry) (m : Mach) : (setPlace k e m).ftab = m.ftab := by simp [setPlace]

@[simp ↓] theorem ftab_changePlace (k : Nat) (e : Option DirEntry) (m : Mach) : (changePlace k e m).ftab = m.ftab := by
  simp [changePlace]

@[simp ↓] theorem ftab_purgeLine (k : Nat) (m : Mach) : (purgeLine k m).ftab = m.ftab := by simp [purgeLine]
@[simp ↓] theorem ftab_purgeId (id : BitVec 48) (m : Mach) : (purgeId id m).ftab = m.ftab := by simp [purgeId]

/-! ### Sys2Proof/Machine/Chains.lean -/

@[simp ↓] theorem ftab_runDecim (c : ChainId) (k : Nat) (r : Option Sample × Mach) : (runDecim c k r).2.ftab = r.2.ftab := by
  unfold runDecim
  dsimp only
  repeat' split
  all_goals simp

@[simp ↓] theorem ftab_foldlDecim (c : ChainId) (ks : List Nat) (r : Option Sample × Mach) :
    (ks.foldl (fun a k => runDecim c k a) r).2.ftab = r.2.ftab := by
  induction ks generalizing r with
  | nil => rfl
  | cons k ks ih => simp [ih]

@[simp ↓] theorem ftab_ddcStep (c : ChainId) (s : Sample) (m : Mach) : (ddcStep c s m).2.ftab = m.ftab := by
  unfold ddcStep
  dsimp only
  split <;> simp

/-! ### Sys2Proof/Machine/Output.lean -/

@[simp ↓] theorem ftab_ulPush (st : UlStream) (s : Sample) (p : StreamPos) (m : Mach) : (ulPush st s p m).ftab = m.ftab := by
  simp [ulPush]

/-! ### Sys2Proof/Machine/Downlink.lean -/

@[simp ↓] theorem ftab_dlFlush (m : Mach) : (dlFlush m).ftab = m.ftab := by simp [dlFlush]

/-! ### Sys2Proof/Machine/Ports.lean -/

@[simp ↓] theorem ftab_portIn (t p : Nat) (s : Sample) (m : Mach) : (portIn t p s m).ftab = m.ftab := by simp [portIn]
@[simp ↓] theorem ftab_feedIn (cls i : Nat) (s : Sample) (m : Mach) : (feedIn cls i s m).ftab = m.ftab := by simp [feedIn]

/-! ### Sys2Proof/Machine/Uplink.lean -/

@[simp ↓] theorem ftab_nextPos (k : Nat) (m : Mach) : (nextPos k m).2.ftab = m.ftab := by simp [nextPos]

@[simp ↓] theorem ftab_ulBeamOut (b : Nat) (p : StreamPos) (r : Sample × Bool) (m : Mach) : (ulBeamOut b p r m).ftab = m.ftab := by
  simp [ulBeamOut]

@[simp ↓] theorem ftab_acqBeamOut (a : Nat) (r : Sample × Bool) (m : Mach) : (acqBeamOut a r m).ftab = m.ftab := by simp [acqBeamOut]
@[simp ↓] theorem ftab_ulMeshStep (hs : List (Nat × Sample)) (m : Mach) : (ulMeshStep hs m).ftab = m.ftab := by simp [ulMeshStep]
@[simp ↓] theorem ftab_setUlWait (n : Nat) (l : List Sample) (m : Mach) : (setUlWait n l m).ftab = m.ftab := by simp [setUlWait]

@[simp ↓] theorem ftab_ulForm (all : Bool) (k : Nat) (m : Mach) : (ulForm all k m).ftab = m.ftab := by
  induction k generalizing m with
  | zero => rfl
  | succ k ih =>
    unfold ulForm
    dsimp only
    split
    · rfl
    · simp [ih]

@[simp ↓] theorem ftab_ulMeshIn (n : Nat) (s : Sample) (m : Mach) : (ulMeshIn n s m).ftab = m.ftab := by simp [ulMeshIn]
@[simp ↓] theorem ftab_ulElemOut (n : Nat) (s : Sample) (m : Mach) : (ulElemOut n s m).ftab = m.ftab := by simp [ulElemOut]
@[simp ↓] theorem ftab_rxOut (n t : Nat) (y : Sample) (m : Mach) : (rxOut n t y m).ftab = m.ftab := by simp [rxOut]

@[simp ↓] theorem ftab_pdCapFeed (o t : Nat) (s : Sample) (m : Mach) : (pdCapFeed o t s m).ftab = m.ftab := by
  unfold pdCapFeed
  split <;> simp

@[simp ↓] theorem ftab_obsOut (o t : Nat) (y : Sample) (m : Mach) : (obsOut o t y m).ftab = m.ftab := by simp [obsOut]

@[simp ↓] theorem ftab_coreSample (u : RxUnit) (s : Sample) (m : Mach) : (coreSample u s m).ftab = m.ftab := by
  unfold coreSample
  dsimp only
  repeat' split
  all_goals simp

@[simp ↓] theorem ftab_takeEntry (b : InBridge) (e : BEntry) (m : Mach) : (takeEntry b e m).ftab = m.ftab := by
  unfold takeEntry
  split <;> simp

@[simp ↓] theorem ftab_settleBridge (b : InBridge) (m : Mach) : (settleBridge b m).ftab = m.ftab := by
  unfold settleBridge
  split <;> simp

@[simp ↓] theorem ftab_settleAll (m : Mach) : (settleAll m).ftab = m.ftab := by simp [settleAll]

/-! ### Sys2Proof/Machine/Mesh.lean -/

@[simp ↓] theorem ftab_putSh (dl : Bool) (b : Nat) (w : Option BeamW) (m : Mach) : (putSh dl b w m).ftab = m.ftab := by simp [putSh]
@[simp ↓] theorem ftab_makeLook (k : Nat × Nat) (id : BitVec 48) (m : Mach) : (makeLook k id m).ftab = m.ftab := by simp [makeLook]

@[simp ↓] theorem ftab_synForm (dl : Bool) (d : SchedDesc) (src : SynSrc) (m : Mach) : (synForm dl d src m).2.ftab = m.ftab := by
  unfold synForm
  dsimp only
  repeat' split
  all_goals simp

@[simp ↓] theorem ftab_synPool (dl : Bool) (d : SchedDesc) (i : Nat) (raw : Bool) (m : Mach) : (synPool dl d i raw m).2.ftab = m.ftab := by
  unfold synPool
  dsimp only
  split <;> simp

@[simp ↓] theorem ftab_synDesc (k : Nat × Nat) (dl : Bool) (d : SchedDesc) (m : Mach) : (synDesc k dl d m).2.ftab = m.ftab := by
  unfold synDesc
  dsimp only
  repeat' split
  all_goals simp

@[simp ↓] theorem ftab_synTraffic (k : Nat × Nat) (dir : Dir) (m : Mach) : (synTraffic k dir m).ftab = m.ftab := by simp [synTraffic]
@[simp ↓] theorem ftab_synGrid (n : Nat) (m : Mach) : (synGrid n m).ftab = m.ftab := by simp [synGrid]
@[simp ↓] theorem ftab_synAcq (m : Mach) : (synAcq m).ftab = m.ftab := by simp [synAcq]
@[simp ↓] theorem ftab_synthesise (m : Mach) : (synthesise m).ftab = m.ftab := by simp [synthesise]
@[simp ↓] theorem ftab_scheduleDeadline (m : Mach) : (scheduleDeadline m).ftab = m.ftab := by simp [scheduleDeadline]

/-! ### Sys2Proof/Machine/Acquire.lean -/

@[simp ↓] theorem ftab_endJob (j : AcqJob) (m : Mach) : (endJob j m).ftab = m.ftab := by simp [endJob]

@[simp ↓] theorem ftab_acqEnd (m : Mach) : (acqEnd m).ftab = m.ftab := by
  unfold acqEnd
  dsimp only
  repeat' split
  all_goals simp

@[simp ↓] theorem ftab_acqSlotEnd (m : Mach) : (acqSlotEnd m).ftab = m.ftab := by simp [acqSlotEnd]

/-! ### Sys2Proof/Machine/Boundary.lean -/

@[simp ↓] theorem ftab_slotPeak (n : Nat) (m : Mach) : (slotPeak n m).ftab = m.ftab := by simp [slotPeak]
@[simp ↓] theorem ftab_slotEnds (m : Mach) : (slotEnds m).ftab = m.ftab := by simp [slotEnds]

end Sys2Proof.Machine

/-! SUPPORT. A reshuffle that is due is over with the boundary that it is due at (R482): what was staged applies first, the reshuffle
applies or is refused, and nothing that the boundary brings after it lets another wait. -/

namespace Sys2Proof.Machine

/-! ### A reshuffle that applies, or is refused (R482, R483) -/

theorem reshKept_reshApply {l : List Byte} {m u : Mach} (hstg : imgStaged m.stage = none) (h : reshApply applyStaged l m = .ok u) :
    reshKept m u := by
  unfold reshApply at h
  dsimp only at h
  split at h
  · cases h
  · split at h
    · cases h
    · next m2 hregs =>
      split at h
      · cases h
      · obtain rfl := Except.ok.inj h
        have hsects : reshKept m m2 := reshKept.trans (by simp +decide [reshKept]) (reshKept_regApply hregs)
        have hm2 := hsects.imgStaged.trans hstg
        have hstaged : reshKept m (refreshLims (forcedOff l m (applyStaged m2))) :=
          (hsects.trans (reshKept_applyStaged hm2)).trans ((reshKept_forcedOff ..).trans (reshKept_refreshLims _))
        split
        · exact (hstaged.trans (reshKept_setIdent ..)).trans (reshKept_setEv (by decide) _)
        · have hanchors := hstaged.trans (reshKept_writeAnchors (sectFor l 16 (fget CLK_STATUS.plan m + 1)) _)
          have happly := hanchors.trans (reshKept_applyStaged (hanchors.imgStaged.trans hstg))
          exact (happly.trans (reshKept_setIdent ..)).trans (reshKept_setEv (by decide) _)

/-- A reshuffle that is due is over: it no longer waits. -/
def reshOver (t : Nat) (u : Mach) : Prop := u.img.resh = none ∧ pendBit u.regs = false ∧ u.slotStart = t

theorem reshOver.of_kept {t : Nat} {m u : Mach} (h : reshOver t m) (hk : reshKept m u) : reshOver t u :=
  ⟨hk.resh.trans h.1, hk.pendBit.trans h.2.1, hk.slotStart.trans h.2.2⟩

theorem fon_reshufPending (m : Mach) : fon IMG_STATUS.reshuf_pending m = pendBit m.regs :=
  fon_bit IMG_STATUS 6 m

/-- The state in which the sections of a reshuffle apply: it waits no more. -/
def reshTaken (m : Mach) : Mach := fset IMG_STATUS.reshuf_pending 0 { m with img := { m.img with resh := none } }

theorem reshOver_reshTaken (m : Mach) : reshOver m.slotStart (reshTaken m) :=
  ⟨rfl, (fon_reshufPending _).symm.trans (fon_fset_zero (by decide) _), rfl⟩

theorem reshOver_reshuffle {r : Resh} {m : Mach} (hr : m.img.resh = some r) (hdue : r.notBefore ≤ m.slotStart)
    (hstg : imgStaged m.stage = none) : reshOver m.slotStart (reshuffle applyStaged m) := by
  have hd : reshDue m.slotStart m = true := by simp [reshDue, hr, hdue]
  rw [reshuffle, hr]
  dsimp only
  rw [if_pos hd]
  refine (reshOver_reshTaken m).of_kept (reshKept.trans ?_ (reshKept_pumpPlanned _))
  split
  · exact reshKept_reshRefused ..
  · split
    · exact reshKept_reshRefused ..
    · next h =>
      have happly := reshKept_reshApply (m := reshTaken m) hstg h
      split
      · exact happly.trans ((reshKept_storeResh ..).trans (reshKept_endCommit ..))
      · exact happly.trans (reshKept_endCommit ..)

theorem reshKept_slotStarts (frame traffic : Bool) (old : List UlStream) (anchor : Nat) (m : Mach) :
    reshKept (reshuffle applyStaged (applyStaged (holdEvents m))) (slotStarts frame traffic old anchor m) := by
  unfold slotStarts
  simp [reshKept]

/-! ### What was staged before (R22) -/

/-- Nothing is left staged for a register whose value applies. -/
theorem imgStaged_takeRws_same (m : Mach) : imgStaged (takeStage IMG_STATUS (applyRws IMG_STATUS) m).stage = none := by
  unfold takeStage
  split
  · next h => exact h
  · exact staged_setStage_same IMG_STATUS none m

theorem imgStaged_takeRws {m : Mach} (h : imgStaged m.stage = none) (a : Nat) :
    imgStaged (takeStage a (applyRws a) m).stage = none := (reshKept_takeRws h a).imgStaged.trans h

/-- An update of a list that brings a property, which the others keep, brings it. -/
theorem each_reaches {α : Type} {P : Mach → Prop} {f : α → Mach → Mach} {l : List α} {a : α} (ha : a ∈ l) (hbring : ∀ m, P (f a m))
    (hkeep : ∀ b ∈ l, ∀ m, P m → P (f b m)) (m : Mach) : P (each l f m) := by
  obtain ⟨l1, l2, rfl⟩ := List.append_of_mem ha
  rw [each, List.foldl_append, List.foldl_cons]
  exact each_inv P l2 f (fun b hb => hkeep b (by simp [hb])) _ (hbring _)

theorem mem_of_imgStaged {t : Tab (Option W)} (h : imgStaged t ≠ none) : ∃ e ∈ t, e.1 = IMG_STATUS := by
  induction t with
  | nil => exact absurd rfl h
  | cons e t ih =>
    by_cases he : e.1 = IMG_STATUS
    · exact ⟨e, List.mem_cons_self, he⟩
    · obtain ⟨e', hmem, he'⟩ := ih (by simpa [imgStaged, tabGet, he] using h)
      exact ⟨e', List.mem_cons_of_mem _ hmem, he'⟩

theorem imgStaged_applyRest (m : Mach) : imgStaged (applyRest (fun _ => true) m).stage = none := by
  by_cases h : imgStaged m.stage = none
  · exact (reshKept_applyRest h _).imgStaged.trans h
  · obtain ⟨e, hmem, he⟩ := mem_of_imgStaged h
    have hfree : (true && !heldStage e.1) = true := by rw [he]; decide
    refine each_reaches (P := fun u => imgStaged u.stage = none) (List.mem_filter.2 ⟨hmem, hfree⟩) (fun u => ?_)
      (fun e' _ u hu => imgStaged_takeRws hu e'.1) m
    rw [he]
    exact imgStaged_takeRws_same u

theorem applyRest_keeps (sel : Nat → Bool) (m : Mach) :
    (applyRest sel m).img = m.img ∧ (applyRest sel m).slotStart = m.slotStart := by
  have htake (a : Nat) (u : Mach) : (takeStage a (applyRws a) u).img = u.img ∧ (takeStage a (applyRws a) u).slotStart = u.slotStart := by
    unfold takeStage
    split <;> exact ⟨rfl, rfl⟩
  exact ⟨each_keeps (·.img) _ _ (fun e _ u => (htake e.1 u).1) m, each_keeps (·.slotStart) _ _ (fun e _ u => (htake e.1 u).2) m⟩

/-- Whatever was staged, the reshuffle waits as it did when all of it has applied. -/
theorem applyStaged_keeps (m : Mach) : (applyStaged m).img.resh = m.img.resh ∧ (applyStaged m).slotStart = m.slotStart ∧
    imgStaged (applyStaged m).stage = none := by
  obtain ⟨hresh, hslot, -⟩ := reshKept_beforeRest m
  obtain ⟨himg, hstart⟩ := applyRest_keeps (fun _ => true) (takeStage BMU_CFG applyBmuCfg (each quads4 applyQuadUnits
      (takeStage GCTL_ANCHOR_DL (applyAnchor .dl) (takeStage GCTL_ANCHOR_UL (applyAnchor .ul) m))))
  exact ⟨(congrArg ImgSt.resh himg).trans hresh, hstart.trans hslot, imgStaged_applyRest _⟩

/-! ### The boundary -/

theorem moveSlot_keeps (m : Mach) : (moveSlot m).img = m.img ∧ (moveSlot m).slotStart = (nextSlot m).2 := by
  unfold moveSlot
  dsimp only
  split <;> exact ⟨rfl, rfl⟩

/-- The slot that ends moves the position no further. -/
theorem nextSlot_slotEnds (m : Mach) : (nextSlot (slotEnds m)).2 = (nextSlot m).2 := by
  have hkept := reshKept_slotEnds m
  have htab := ftab_slotEnds m
  have hlast : lastSlot (slotEnds m) = lastSlot m := by rw [lastSlot, htab, hkept.slot, lastSlot]
  unfold nextSlot nextFrameTick
  rw [hlast, htab, hkept.slot, hkept.frameStart]
  split <;> rfl

theorem holdEvents_keeps (m : Mach) : (holdEvents m).img = m.img ∧ (holdEvents m).slotStart = m.slotStart := ⟨rfl, rfl⟩

/-- The boundary begins with the reshuffle as it waited, at the boundary's tick. -/
theorem boundary_begins (m : Mach) : (applyStaged (holdEvents (moveSlot (slotEnds m)))).img.resh = m.img.resh ∧
    (applyStaged (holdEvents (moveSlot (slotEnds m)))).slotStart = (nextSlot m).2 ∧
    imgStaged (applyStaged (holdEvents (moveSlot (slotEnds m)))).stage = none := by
  have hends := (reshKept_slotEnds m).resh
  have hnext := nextSlot_slotEnds m
  generalize slotEnds m = m1 at hends hnext ⊢
  obtain ⟨himg, hstart⟩ := moveSlot_keeps m1
  generalize moveSlot m1 = m2 at himg hstart ⊢
  obtain ⟨himg', hstart'⟩ := holdEvents_keeps m2
  generalize holdEvents m2 = m3 at himg' hstart' ⊢
  obtain ⟨hresh, hslot, hstaged⟩ := applyStaged_keeps m3
  exact ⟨by rw [hresh, himg', himg, hends], by rw [hslot, hstart', hstart, hnext], hstaged⟩

/-- A reshuffle that is due at the boundary that comes next is over with it. -/
theorem reshOver_boundary {r : Resh} {m : Mach} (hr : m.img.resh = some r) (hdue : r.notBefore ≤ (nextSlot m).2) :
    reshOver (nextSlot m).2 (boundary m) := by
  obtain ⟨hresh, hstart, hstaged⟩ := boundary_begins m
  have hover := reshOver_reshuffle (hresh.trans hr) (by rw [hstart]; exact hdue) hstaged
  rw [hstart] at hover
  rw [boundary]
  exact hover.of_kept (reshKept_slotStarts (lastSlot m) true (ulStreams (slotEnds m)) (anchorOf false (slotEnds m)) _)

end Sys2Proof.Machine

/-! SUPPORT. The update lock, the refusals of an image, and what they leave (R472, R477, R480, R481): the lock's operations touch IMG_STATUS and
the session, and a refusal's the events, IMG_LOAD_ERR and the logs. -/

namespace Sys2Proof.Machine

/-! ### Answers and the lock -/

theorem imgResult_frame (x : Nat × Nat) (c : Nat) (m : Mach) : ∃ se o, imgResult x c m = { m with sess := se, out := o } := by
  unfold imgResult
  split
  · exact sendNat_frame ..
  · exact ⟨m.sess, m.out, rfl⟩

/-- Only an in-band session is told. -/
theorem imgResult_silent {x : Nat × Nat} (h : x.1 ≠ 2) (c : Nat) (m : Mach) : imgResult x c m = m := if_neg h

theorem rd_unlock {a : Nat} (h : a ≠ IMG_STATUS) (m : Mach) : rd a (unlock m) = rd a m := by
  rw [unlock, rd_fset_other (f := IMG_STATUS.lock_src) h, rd_fset_other (f := IMG_STATUS.lock_sess) h,
    rd_fset_other (f := IMG_STATUS.target) h]
  rfl

theorem lockSrc_unlock (m : Mach) : fget IMG_STATUS.lock_src (unlock m) = 0 := fget_fset_same (f := IMG_STATUS.lock_src) (by decide) 0 _

/-- The other fields of IMG_STATUS stay. -/
theorem fget_unlock {f : Fld} (h : f.reg ≠ IMG_STATUS ∨ 6 ≤ f.lo) (m : Mach) : fget f (unlock m) = fget f m := by
  have hset {g : Fld} (hg : g.reg = IMG_STATUS ∧ g.lo + g.w ≤ 6) (x : Nat) (m : Mach) : fget f (fset g x m) = fget f m :=
    fget_fset_other (by omega) (by omega) x m
  rw [unlock, hset ⟨rfl, by decide⟩, hset ⟨rfl, by decide⟩, hset ⟨rfl, by decide⟩]
  rfl

/-- The session is over in `u`: its lock is free, and of `m` only the answer to its source and IMG_STATUS differ besides. -/
structure SessionOver (m u : Mach) : Prop where
  img : u.img = { m.img with sess := none }
  lock : fget IMG_STATUS.lock_src u = 0
  field : ∀ f : Fld, f.reg ≠ IMG_STATUS ∨ 6 ≤ f.lo → fget f u = fget f m
  regs : regsKept [IMG_STATUS] m u
  stores : storesKept m u
  hlt : u.hlt = m.hlt
  power : u.power = m.power

theorem sessionOver_unlock (m : Mach) : SessionOver m (unlock m) where
  img := rfl
  lock := lockSrc_unlock m
  field _ h := fget_unlock h m
  regs _ h := rd_unlock (fun q => h (List.mem_singleton.2 q)) m
  stores := .refl m
  hlt := rfl
  power := rfl

/-- The end of a session, with its answer. -/
theorem sessionOver_result (x : Nat × Nat) (c : Nat) (m : Mach) : SessionOver m (imgResult x c (unlock m)) := by
  obtain ⟨se, o, h⟩ := imgResult_frame x c (unlock m)
  obtain ⟨himg, hlock, hfield, hregs, hstores, hhlt, hpower⟩ := sessionOver_unlock m
  rw [h]
  exact ⟨himg, hlock, hfield, hregs, hstores, hhlt, hpower⟩

theorem sessionOver_endCommit (c : Nat) (m : Mach) : SessionOver m (endCommit c m) := sessionOver_result ..

theorem SessionOver.fon {m u : Mach} (h : SessionOver m u) {f : Fld} (hf : f.reg ≠ IMG_STATUS ∨ 6 ≤ f.lo) : fon f u = fon f m := by
  rw [Machine.fon, h.field f hf, Machine.fon]

/-! ### A refused image (R477) -/

/-- The error that IMG_LOAD_ERR shows. -/
def errWord (e : ImgErr) : W := BitVec.ofNat 32 (e.code + 16 * e.sect + 1024 * e.entry)

/-- `u` shows error `e` and the event `f` of IMG_EVENTS; images, stores and messages are those of `m`. -/
structure Refused (f : Fld) (e : ImgErr) (m u : Mach) : Prop where
  event : fon f u = true
  err : rd IMG_LOAD_ERR u = errWord e
  field : ∀ g : Fld, g.reg = IMG_STATUS → fget g u = fget g m
  img : u.img = m.img
  stores : storesKept m u
  out : u.out = m.out
  hlt : u.hlt = m.hlt

/-- The error is written and an event of IMG_EVENTS set. -/
theorem refused_setEv {f : Fld} (hreg : f.reg = IMG_EVENTS) (hw : f.w = 1) (hlo : f.lo + f.w ≤ 32) (e : ImgErr) (m : Mach) :
    Refused f e m (setEv f (wr IMG_LOAD_ERR (errWord e) (setEvIf e.anchor GCTL_CORE_EVENTS.anchor_range m))) := by
  obtain ⟨_, _, _, _, _, _, _, hanchor⟩ := setEvIf_frame e.anchor GCTL_CORE_EVENTS.anchor_range m
  obtain ⟨_, _, _, _, _, _, _, hev⟩ := setEv_frame f (wr IMG_LOAD_ERR (errWord e) (setEvIf e.anchor GCTL_CORE_EVENTS.anchor_range m))
  refine ⟨fon_setEv hw hlo (by rw [hreg]; decide) (by rw [hreg]; decide) _, ?_, fun g hg => ?_, ?_, ?_, ?_, ?_⟩
  · rw [rd_setEv (by rw [hreg]; decide) (by decide) (by decide), rd_wr_same]
  · have hstatus : rd g.reg (setEv f (wr IMG_LOAD_ERR (errWord e) (setEvIf e.anchor GCTL_CORE_EVENTS.anchor_range m))) = rd g.reg m := by
      rw [hg, rd_setEv (by rw [hreg]; decide) (by decide) (by decide), rd_wr_other (by decide)]
      exact regsKept_setEvIf e.anchor GCTL_CORE_EVENTS.anchor_range m IMG_STATUS (by decide)
    exact fget_of_rd hstatus
  · rw [hev, wr, hanchor]
  · exact (storesKept_setEvIf e.anchor GCTL_CORE_EVENTS.anchor_range m).trans
      (storesKept_setEv f (wr IMG_LOAD_ERR (errWord e) (setEvIf e.anchor GCTL_CORE_EVENTS.anchor_range m)))
  · rw [hev, wr, hanchor]
  · rw [hev, wr, hanchor]

theorem refused_refuseImg (e : ImgErr) (m : Mach) : Refused IMG_EVENTS.load_refused e m (refuseImg e m) :=
  refused_setEv rfl rfl (by decide) e m

/-- A refusal that ends its session. -/
theorem Refused.over {f : Fld} {e : ImgErr} {m u v : Mach} (h : Refused f e m u) (hf : f.reg = IMG_EVENTS) (ho : SessionOver u v) :
    fon f v = true ∧ rd IMG_LOAD_ERR v = errWord e ∧ v.img = { m.img with sess := none } ∧ fget IMG_STATUS.lock_src v = 0 ∧
      fget IMG_STATUS.reshuf_pending v = fget IMG_STATUS.reshuf_pending m ∧ storesKept m v ∧ v.hlt = m.hlt := by
  refine ⟨?_, (ho.regs IMG_LOAD_ERR (by decide)).trans h.err, ?_, ho.lock, ?_, h.stores.trans ho.stores, ho.hlt.trans h.hlt⟩
  · exact (ho.fon (.inl (by rw [hf]; decide))).trans h.event
  · rw [ho.img, h.img]
  · exact (ho.field IMG_STATUS.reshuf_pending (.inr (by decide))).trans (h.field IMG_STATUS.reshuf_pending rfl)

end Sys2Proof.Machine

/-! SUPPORT. Image commands: refusals, the lock's timeout, a push to the twin, a STANDBY's transfer session (R472, R480, R481, R484). -/

namespace Sys2Proof.Machine

/-! ### The register's commands -/

theorem exec_imgCmdInvalid {s : State} (h : reach IMG_CMD s.m = true) (v : W) :
    exec (.imgCmdInvalid v) s = .next (s.withM (imgCmd v s.m)) := answer_gate_reach h (imgCmd v)

theorem exec_trialReset {s : State} (h : reach IMG_CMD s.m = true) :
    exec .trialReset s = .next (s.withM (trialReset s.m)) := answer_gate_reach h trialReset

theorem exec_puntyHandover {s : State} (h : reach IMG_CMD s.m = true) :
    exec .puntyHandover s = .next (s.withM (puntyHandover s.m)) := answer_gate_reach h puntyHandover

theorem exec_pushTwin {s : State} (h : reach IMG_CMD s.m = true) (t : BitVec 2) :
    exec (.pushTwin t) s = .next (s.withM (pushTwin t.toNat s.m)) := answer_gate_reach h (pushTwin t.toNat)

theorem exec_imgLockTimeout (s : State) : exec .imgLockTimeout s = .next (s.withM (lockTimeout s.m)) := rfl

theorem exec_twinSourceTransfer (x : TwinXfer) (s : State) :
    exec (.twinSourceTransfer x) s = .next (s.withM (twinXfer x s.m)) := rfl

/-- A command of IMG_CMD that does not reach it does nothing. -/
theorem exec_imgCmds_blocked {s : State} (h : reach IMG_CMD s.m = false) (t : BitVec 2) (v : W) :
    ∀ c ∈ [Instr.puntyHandover, .trialReset, .pushTwin t, .imgCmdInvalid v], exec c s = .next s := by
  intro c hc
  simp only [List.mem_cons, List.not_mem_nil, or_false] at hc
  rcases hc with rfl | rfl | rfl | rfl
  · exact answer_gate_blocked h puntyHandover
  · exact answer_gate_blocked h trialReset
  · exact answer_gate_blocked h (pushTwin t.toNat)
  · exact answer_gate_blocked h (imgCmd v)

/-- R472: another key or an unknown command is refused. -/
theorem imgCmd_refused {v : W} (h : v.extractLsb' 16 16 ≠ 0x3E58#16 ∨ 7 ≤ v.toNat % 16) (m : Mach) :
    imgCmd v m = setEv IMG_EVENTS.load_refused m := by
  unfold imgCmd
  split
  · rfl
  · next hkey =>
    have hv : wfld v 0 4 = v.toNat % 16 := by simp [wfld, BitVec.extractLsb'_toNat]
    have hcode : 7 ≤ wfld v 0 4 := by
      rcases h with h | h
      · have hk : v.extractLsb' 16 16 = 0x3E58#16 := BitVec.eq_of_toNat_eq (Decidable.not_not.1 hkey)
        exact absurd hk h
      · rw [hv]; exact h
    split
    case h_8 => rfl
    all_goals omega

theorem imgCmd_none (m : Mach) : imgCmd 0x3E580000#32 m = m := rfl

/-! ### Refusals for the state (R488, R493) -/

theorem trialReset_refused {m : Mach} (h : trialBank m = none) : trialReset m = refuseImg ⟨10, 0, 0, false⟩ m := by
  rw [trialReset, h]; rfl

theorem puntyHandover_refused {m : Mach} (h : handoverOk m = false) : puntyHandover m = refuseImg ⟨10, 0, 0, false⟩ m := by
  rw [puntyHandover, h]; rfl

theorem puntyHandover_taken {m : Mach} (h : handoverOk m = true) :
    puntyHandover m = { m with img := { m.img with handover := true } } := by
  rw [puntyHandover, h]; rfl

/-! ### The lock's timeout (R480) -/

theorem lockTimeout_idle {m : Mach} (h : fget IMG_STATUS.lock_src m = 0 ∨ m.img.sess = none) : lockTimeout m = m := by
  refine if_neg fun hheld => ?_
  obtain ⟨hsrc, hsess⟩ := hheld
  rcases h with h | h
  · exact hsrc h
  · rw [h] at hsess; exact absurd hsess (by decide)

theorem lockTimeout_ends {m : Mach} (hsrc : fget IMG_STATUS.lock_src m ≠ 0) (hsess : m.img.sess ≠ none) :
    (lockTimeout m).img.sess = none ∧ fget IMG_STATUS.lock_src (lockTimeout m) = 0 ∧
      fon IMG_EVENTS.lock_timeout (lockTimeout m) = true ∧ (lockTimeout m).out = m.out ∧ storesKept m (lockTimeout m) := by
  have hheld : lockTimeout m = setEv IMG_EVENTS.lock_timeout (unlock m) := if_pos ⟨hsrc, Option.isSome_iff_ne_none.2 hsess⟩
  obtain ⟨_, _, _, _, _, _, _, hev⟩ := setEv_frame IMG_EVENTS.lock_timeout (unlock m)
  have hover := sessionOver_unlock m
  rw [hheld]
  refine ⟨?_, ?_, fon_setEv rfl (by decide) (by decide) (by decide) _, ?_, hover.stores.trans (storesKept_setEv ..)⟩
  · rw [hev]; rfl
  · exact (fget_setEv_other (f := IMG_EVENTS.lock_timeout) (by decide) (.inl (by decide)) (by decide) (by decide) _).trans hover.lock
  · rw [hev]; rfl

/-! ### A push to the twin (R484) -/

/-- The device is a twin of role `r` that runs and reaches its partner. -/
abbrev twinLinked (r : Nat) (m : Mach) : Prop := role m = r ∧ timingOn m = true ∧ laneMask m ≠ 0

theorem pushTwin_refused {t : Nat} {m : Mach} (h : ¬ twinLinked 1 m ∨ t = 1 ∨ t = 3) :
    pushTwin t m = setEv IMG_EVENTS.load_refused m := by
  by_cases hl : twinLinked 1 m
  · have ht : t = 1 ∨ t = 3 := h.resolve_left (fun hn => hn hl)
    rcases ht with rfl | rfl <;> exact if_pos hl
  · exact if_neg hl

theorem pushTwin_noDeck {m : Mach} (hl : twinLinked 1 m) (h : getSlot m.nvm.cur m = none) :
    pushTwin 0 m = setEv IMG_EVENTS.load_refused m := by
  refine (if_pos hl).trans ?_
  rw [h]; rfl

theorem pushTwin_firmware {m : Mach} (hl : twinLinked 1 m) : pushTwin 2 m = pushImage 2 (runningFw m) m := if_pos hl

theorem pushTwin_deck {d : DeckSlot} {m : Mach} (hl : twinLinked 1 m) (h : getSlot m.nvm.cur m = some d) (hr : d.resh = []) :
    pushTwin 0 m = pushImage 0 d.bytes m := by
  refine (if_pos hl).trans ?_
  rw [h]
  change each d.resh (pushImage 1) (pushImage 0 d.bytes m) = _
  rw [hr]; rfl

/-- The pieces of an image, put together, are the image. -/
theorem flatMap_pieces {n off : Nat} {l : List Byte} (h : l.length ≤ n * 4096) : (pieces n off l).flatMap Prod.snd = l := by
  induction n generalizing off l with
  | zero => rw [List.length_eq_zero_iff.1 (by omega : l.length = 0)]; rfl
  | succ n ih =>
    unfold pieces
    split
    · next he => rw [List.isEmpty_iff.1 he]; rfl
    · rw [List.flatMap_cons, ih (by rw [List.length_drop]; omega), List.take_append_drop]

/-- Messages sent one after the other. -/
theorem each_send {α : Type} (f : α → OutMsg) (l : List α) (m : Mach) :
    each l (fun p s => send (f p) s) m = { m with out := m.out ++ l.map f } := by
  induction l generalizing m with
  | nil => rw [List.map_nil, List.append_nil]; rfl
  | cons p l ih =>
    rw [each, List.foldl_cons]
    refine (ih (send (f p) m)).trans ?_
    rw [List.map_cons, List.append_cons]; rfl

/-- The message of a piece. -/
def pieceMsg (p : Nat × List Byte) : OutMsg := .twinXfer (.data (BitVec.ofNat 32 p.1) p.2)

theorem pushImage_eq (t : Nat) (l : List Byte) (m : Mach) : pushImage t l m =
    { m with out := m.out ++ [.twinXfer (.open_ (BitVec.ofNat 2 t))] ++ (pieces (l.length / 4096 + 1) 0 l).map pieceMsg ++
        [.twinXfer (.commit true)] } := by
  have h := each_send pieceMsg (pieces (l.length / 4096 + 1) 0 l) (send (.twinXfer (.open_ (BitVec.ofNat 2 t))) m)
  unfold pushImage
  exact congrArg (send (.twinXfer (.commit true))) h

end Sys2Proof.Machine

/-! SUPPORT. A STANDBY's transfer session (R480, R481, R484): the twin opens it, places its bytes in order, aborts and commits it. -/

namespace Sys2Proof.Machine

theorem twinXfer_blocked {m : Mach} (h : ¬ twinLinked 2 m) (x : TwinXfer) : twinXfer x m = m := if_neg h

theorem twinXfer_open {m : Mach} (h : twinLinked 2 m) (t : BitVec 2) : twinXfer (.open_ t) m = openSess srcTwin t.toNat m := if_pos h

theorem twinXfer_data {m : Mach} (h : twinLinked 2 m) (o : W) (l : List Byte) :
    twinXfer (.data o l) m = placeBytes srcTwin o.toNat l m := if_pos h

theorem twinXfer_commit {m : Mach} (h : twinLinked 2 m) (b : Bool) : twinXfer (.commit b) m = commitSess srcTwin b m := if_pos h

theorem twinXfer_abort {m : Mach} (h : twinLinked 2 m) : twinXfer .abort m = abortSess srcTwin m := if_pos h

/-- The timing runs in no state where only firmware is taken. -/
theorem devState_ne_two_of_timingOn {m : Mach} (h : timingOn m = true) : devState m ≠ 2 := by
  have hon : 3 ≤ devState m ∧ devState m ≤ 6 := of_decide_eq_true h
  omega

/-! ### OPEN -/

theorem openSess_busy {m : Mach} (h : fget IMG_STATUS.lock_src m ≠ 0) (t : Nat) :
    openSess srcTwin t m = setEv IMG_EVENTS.busy_refused m :=
  (if_pos h).trans (imgResult_silent (by decide) ..)

/-- The state in which the twin's session has begun. -/
def twinOpened (t : Nat) (m : Mach) : Mach :=
  wr IMG_SPI_OFF 0#32 (setImg (fun y => { y with sess := some ⟨t, []⟩ })
    (fset IMG_STATUS.lock_src 3 (fset IMG_STATUS.lock_sess 0 (fset IMG_STATUS.target t m))))

theorem openSess_taken {m : Mach} {t : Nat} (h : fget IMG_STATUS.lock_src m = 0) (ht : t < 3) (hd : devState m ≠ 2) :
    openSess srcTwin t m = twinOpened t m := by
  rw [openSess, if_neg (fun hn => hn h), if_neg (by omega), if_neg (fun hn => hd hn.1)]
  exact imgResult_silent (by decide) ..

theorem twinOpened_lockSrc (t : Nat) (m : Mach) : fget IMG_STATUS.lock_src (twinOpened t m) = 3 := by
  rw [twinOpened, fget_wr_other (f := IMG_STATUS.lock_src) (by decide)]
  exact fget_fset_same (f := IMG_STATUS.lock_src) (by decide) 3 _

theorem twinOpened_target {t : Nat} (ht : t < 4) (m : Mach) : fget IMG_STATUS.target (twinOpened t m) = t := by
  rw [twinOpened, fget_wr_other (f := IMG_STATUS.target) (by decide)]
  change fget IMG_STATUS.target (fset IMG_STATUS.lock_src 3 (fset IMG_STATUS.lock_sess 0 (fset IMG_STATUS.target t m))) = t
  rw [fget_fset_other (g := IMG_STATUS.target) (f := IMG_STATUS.lock_src) (by decide) (by decide),
    fget_fset_other (g := IMG_STATUS.target) (f := IMG_STATUS.lock_sess) (by decide) (by decide),
    fget_fset_same (f := IMG_STATUS.target) (by decide)]
  exact Nat.mod_eq_of_lt ht

theorem storesKept_twinOpened (t : Nat) (m : Mach) : storesKept m (twinOpened t m) := .refl m

/-! ### DATA -/

theorem placeBytes_unheld {x : Nat × Nat} {m : Mach} (h : holds x m = false) (off : Nat) (b : List Byte) : placeBytes x off b m = m :=
  if_neg (by rw [h]; decide)

theorem placeBytes_gap {m : Mach} {f : ImgSess} {off : Nat} (h : holds srcTwin m = true) (hf : m.img.sess = some f)
    (ho : off ≠ f.bytes.length) (b : List Byte) : placeBytes srcTwin off b m = m := by
  rw [placeBytes, if_pos h, hf]
  exact (if_neg ho).trans (imgResult_silent (by decide) ..)

theorem placeBytes_next {m : Mach} {f : ImgSess} {off : Nat} (h : holds srcTwin m = true) (hf : m.img.sess = some f)
    (ho : off = f.bytes.length) (b : List Byte) : placeBytes srcTwin off b m = addBytes b m := by
  rw [placeBytes, if_pos h, hf]
  exact if_pos ho

theorem addBytes_sess {m : Mach} {f : ImgSess} (hf : m.img.sess = some f) (b : List Byte) :
    (addBytes b m).img.sess = some ⟨f.target, f.bytes ++ b⟩ := by
  change Option.map _ m.img.sess = _
  rw [hf]; rfl

/-! ### ABORT and COMMIT -/

/-- Without a session of its own the twin is told nothing. -/
theorem twinUnheld {m : Mach} (h : holds srcTwin m = false) (b : Bool) : abortSess srcTwin m = m ∧ commitSess srcTwin b m = m := by
  have hsilent : imgResult srcTwin 10 (setEvIf (srcTwin.1 == 1) IMG_EVENTS.load_refused m) = m := imgResult_silent (by decide) ..
  have hn : ¬ holds srcTwin m = true := by rw [h]; decide
  exact ⟨(if_neg hn).trans hsilent, (if_neg hn).trans hsilent⟩

theorem abortSess_twin {m : Mach} (h : holds srcTwin m = true) : SessionOver m (abortSess srcTwin m) := by
  rw [show abortSess srcTwin m = imgResult srcTwin 0 (unlock m) from if_pos h]
  exact sessionOver_result ..

/-- R477: an image with an error is refused with it. -/
theorem commitSess_refused {x : Nat × Nat} {m : Mach} {f : ImgSess} {e : ImgErr} (b : Bool) (h : holds x m = true)
    (hf : m.img.sess = some f) (he : (staticErr f.target f.bytes m <|> spaceErr f.target f.bytes) = some e) :
    commitSess x b m = refuseCommit e m := by
  rw [commitSess, if_pos h, hf]
  dsimp only
  rw [he]

theorem sessionOver_refuseCommit (e : ImgErr) (m : Mach) : SessionOver (refuseImg e m) (refuseCommit e m) := sessionOver_result ..

end Sys2Proof.Machine

/-! SUPPORT. The firmware banks through a soft reset (R75): no operation that the reset runs writes them. Each lemma is the frame rule of one
operation, in the order of the definitions. With the arrow simp takes the outermost operation first, so that each proof unfolds its own
definition alone and cites the rules of the operations in it. -/

namespace Sys2Proof.Machine

@[simp ↓] theorem banks_ite (c : Prop) [Decidable c] (m n : Mach) :
    (if c then m else n).nvm.banks = if c then m.nvm.banks else n.nvm.banks := apply_ite (fun u : Mach => u.nvm.banks) c m n

@[simp ↓] theorem banks_each {α : Type} (l : List α) (f : α → Mach → Mach) (h : ∀ a m, (f a m).nvm.banks = m.nvm.banks) (m : Mach) :
    (each l f m).nvm.banks = m.nvm.banks := each_keeps (fun u : Mach => u.nvm.banks) l f (fun a _ => h a) m

@[simp ↓] theorem banks_wr (a : Nat) (v : W) (m : Mach) : (wr a v m).nvm.banks = m.nvm.banks := by simp [wr]
@[simp ↓] theorem banks_fset (f : Fld) (x : Nat) (m : Mach) : (fset f x m).nvm.banks = m.nvm.banks := by simp [fset]
@[simp ↓] theorem banks_logCure (i : Nat) (m : Mach) : (logCure i m).nvm.banks = m.nvm.banks := by simp [logCure]
@[simp ↓] theorem banks_fcnt (f : Fld) (k : Nat) (m : Mach) : (fcnt f k m).nvm.banks = m.nvm.banks := by simp [fcnt]
@[simp ↓] theorem banks_logPut (e : LogEntry) (m : Mach) : (logPut e m).nvm.banks = m.nvm.banks := by simp [logPut]
@[simp ↓] theorem banks_summaryRise (g : Nat) (was : Bool) (m : Mach) : (summaryRise g was m).nvm.banks = m.nvm.banks := by
  simp [summaryRise]
@[simp ↓] theorem banks_setEvDie (die : Nat) (f : Fld) (m : Mach) : (setEvDie die f m).nvm.banks = m.nvm.banks := by
  obtain ⟨_, _, _, _, _, _, _, h⟩ := setEvDie_frame die f m
  rw [h]
@[simp ↓] theorem banks_setEv (f : Fld) (m : Mach) : (setEv f m).nvm.banks = m.nvm.banks := by simp [setEv]
@[simp ↓] theorem banks_setRx (k : Nat) (x : RxSt) (m : Mach) : (setRx k x m).nvm.banks = m.nvm.banks := by simp [setRx]
@[simp ↓] theorem banks_rxSettle (u : RxUnit) (n : Nat) (m : Mach) : (rxSettle u n m).nvm.banks = m.nvm.banks := by simp [rxSettle]
@[simp ↓] theorem banks_remapSettle (u : RxUnit) (m : Mach) : (remapSettle u m).nvm.banks = m.nvm.banks := by simp [remapSettle]
@[simp ↓] theorem banks_fsetB (f : Fld) (b : Bool) (m : Mach) : (fsetB f b m).nvm.banks = m.nvm.banks := by simp [fsetB]
@[simp ↓] theorem banks_refreshKind (k : Nat) (m : Mach) : (refreshKind k m).nvm.banks = m.nvm.banks := by simp [refreshKind]
@[simp ↓] theorem banks_setRemap (f : Remap → Remap) (m : Mach) : (setRemap f m).nvm.banks = m.nvm.banks := by simp [setRemap]
@[simp ↓] theorem banks_setDev (st cause : Nat) (m : Mach) : (setDev st cause m).nvm.banks = m.nvm.banks := by simp [setDev]
@[simp ↓] theorem banks_degradeIfActive (m : Mach) : (degradeIfActive m).nvm.banks = m.nvm.banks := by simp [degradeIfActive]
@[simp ↓] theorem banks_wantEvent (m : Mach) : (wantEvent m).nvm.banks = m.nvm.banks := by simp [wantEvent]
@[simp ↓] theorem banks_plogPut (e : LogEntry) (m : Mach) : (plogPut e m).nvm.banks = m.nvm.banks := by simp [plogPut]
@[simp ↓] theorem banks_logCode (code die kind phys logical : Nat) (data : List Byte) (m : Mach) :
    (logCode code die kind phys logical data m).nvm.banks = m.nvm.banks := by
  simp [logCode]
@[simp ↓] theorem banks_raiseReplace (f : Fld) (m : Mach) : (raiseReplace f m).nvm.banks = m.nvm.banks := by simp [raiseReplace]
@[simp ↓] theorem banks_useSpare (k p : Nat) (m : Mach) : (useSpare k p m).nvm.banks = m.nvm.banks := by simp [useSpare]
@[simp ↓] theorem banks_recordSlices (u : RxUnit) (m : Mach) : (recordSlices u m).nvm.banks = m.nvm.banks := by simp [recordSlices]
@[simp ↓] theorem banks_mapSlice (u : RxUnit) (pos : Nat) (m : Mach) : (mapSlice u pos m).nvm.banks = m.nvm.banks := by simp [mapSlice]
@[simp ↓] theorem banks_substDone (code k phys logical spare : Nat) (m : Mach) :
    (substDone code k phys logical spare m).nvm.banks = m.nvm.banks := by
  simp [substDone]
@[simp ↓] theorem banks_plannedOver (k phys logical spare : Nat) (m : Mach) : (plannedOver k phys logical spare m).nvm.banks = m.nvm.banks := by
  simp [plannedOver]
@[simp ↓] theorem banks_wantTrick (u : RxUnit) (m : Mach) : (wantTrick u m).nvm.banks = m.nvm.banks := by simp [wantTrick]
@[simp ↓] theorem banks_pumpPlanned (m : Mach) : (pumpPlanned m).nvm.banks = m.nvm.banks := by
  unfold pumpPlanned
  split <;> simp
@[simp ↓] theorem banks_endPlanned (m : Mach) : (endPlanned m).nvm.banks = m.nvm.banks := by simp [endPlanned]
@[simp ↓] theorem banks_plannedDone (k phys logical spare : Nat) (m : Mach) : (plannedDone k phys logical spare m).nvm.banks = m.nvm.banks := by
  simp [plannedDone]
@[simp ↓] theorem banks_wantSliceTrick (u : RxUnit) (m : Mach) : (wantSliceTrick u m).nvm.banks = m.nvm.banks := by
  unfold wantSliceTrick
  split <;> simp
@[simp ↓] theorem banks_spareUntrimmed (u : RxUnit) (m : Mach) : (spareUntrimmed u m).nvm.banks = m.nvm.banks := by simp [spareUntrimmed]
@[simp ↓] theorem banks_sliceRemapDone (u : RxUnit) (s pos : Nat) (bare : Bool) (m : Mach) :
    (sliceRemapDone u s pos bare m).nvm.banks = m.nvm.banks := by
  simp [sliceRemapDone]
@[simp ↓] theorem banks_sliceRemap (u : RxUnit) (m : Mach) : (sliceRemap u m).nvm.banks = m.nvm.banks := by
  unfold sliceRemap
  split
  · rfl
  · split <;> simp
@[simp ↓] theorem banks_send (o : OutMsg) (m : Mach) : (send o m).nvm.banks = m.nvm.banks := by simp [send]
@[simp ↓] theorem banks_startHandover (reason : Nat) (m : Mach) : (startHandover reason m).nvm.banks = m.nvm.banks := by simp [startHandover]
@[simp ↓] theorem banks_twinFault (c : Nat) (m : Mach) : (twinFault c m).nvm.banks = m.nvm.banks := by simp [twinFault]
@[simp ↓] theorem banks_failPath (tx : Bool) (n crit : Nat) (m : Mach) : (failPath tx n crit m).nvm.banks = m.nvm.banks := by simp [failPath]
@[simp ↓] theorem banks_noSlice (u : RxUnit) (pos : Nat) (m : Mach) : (noSlice u pos m).nvm.banks = m.nvm.banks := by
  unfold noSlice
  split <;> simp
@[simp ↓] theorem banks_markWorn (k die phys logical : Nat) (m : Mach) : (markWorn k die phys logical m).nvm.banks = m.nvm.banks := by
  simp [markWorn]
@[simp ↓] theorem banks_sliceNow (u : RxUnit) (s : Nat) (m : Mach) : (sliceNow u s m).nvm.banks = m.nvm.banks := by
  unfold sliceNow
  split <;> simp
@[simp ↓] theorem banks_dropSlice (u : RxUnit) (s : Nat) (m : Mach) : (dropSlice u s m).nvm.banks = m.nvm.banks := by simp [dropSlice]
@[simp ↓] theorem banks_slicesDue (q : Nat) (m : Mach) : (slicesDue q m).nvm.banks = m.nvm.banks := by simp [slicesDue]
@[simp ↓] theorem banks_setEvIf (b : Bool) (f : Fld) (m : Mach) : (setEvIf b f m).nvm.banks = m.nvm.banks := by
  cases b
  · rfl
  · exact banks_setEv f m

@[simp ↓] theorem banks_setQuadState (q st : Nat) (m : Mach) : (setQuadState q st m).nvm.banks = m.nvm.banks := by
  obtain ⟨-, -, hnvm, -⟩ := storesKept_setQuadState q st m
  rw [hnvm]

@[simp ↓] theorem banks_stopRunning (q : Nat) (m : Mach) : (stopRunning q m).nvm.banks = m.nvm.banks := by simp [stopRunning]

/-! ### The reset -/

theorem banks_releaseToken (reason : Nat) (m : Mach) : (releaseToken reason m).nvm.banks = m.nvm.banks := by
  by_cases h : hasToken m = true
  · have hseq : Sequenced (driveToken false false (fset HLT_TWIN_STATUS.token 0 m))
        (fesAll 0 (refreshPins (driveToken false false (fset HLT_TWIN_STATUS.token 0 m)))) :=
      (sequenced_refreshPins (driveToken false false (fset HLT_TWIN_STATUS.token 0 m))).trans (sequenced_fesAll 0 _)
    obtain ⟨-, -, hnvm, -⟩ := hseq.stores
    rw [releaseToken_held h, banks_logCode, hnvm]
    rfl
  · rw [releaseToken_none (by simpa using h)]

/-- The state from which the core is reset. -/
def resetFrom (m : Mach) : Mach := each quads4 stopRunning (releaseToken 0xFF m)

theorem banks_resetFrom (m : Mach) : (resetFrom m).nvm.banks = m.nvm.banks := by
  rw [resetFrom, banks_each _ _ banks_stopRunning, banks_releaseToken]

theorem softReset_resets {m : Mach} (h : devState m ≠ 7 ∧ devState m ≠ 0) (cause : Nat) : softReset cause m =
    setDev 1 cause { coreReset (resetFrom m) with power := if m.power = .coreRun then .vddGood else m.power } :=
  if_neg (not_or.2 h)

/-- What a soft reset leaves: a device in BOOT with empty tiles and no image under way, and the banks as they were. -/
structure ResetTo (cause : Nat) (m u : Mach) : Prop where
  state : devState u = 1
  cause : fget GCTL_DEV_STATE.cause u = cause
  tiles : u.tiles = []
  img : u.img = {}
  banks : u.nvm.banks = m.nvm.banks

theorem softReset_resetTo {m : Mach} (h : devState m ≠ 7 ∧ devState m ≠ 0) {cause : Nat} (hc : cause < 16) :
    ResetTo cause m (softReset cause m) := by
  rw [softReset_resets h]
  exact ⟨devState_setDev (by decide) .., cause_setDev hc .., rfl, rfl, banks_resetFrom m⟩

end Sys2Proof.Machine

/-! SUPPORT. A firmware image that is written, and the trial of one (R486, R487, R488, R494). -/

namespace Sys2Proof.Machine

/-! ### The registers that show the images -/

theorem refreshImg_frame (m : Mach) : ∃ r, refreshImg m = { m with regs := r } := ⟨_, rfl⟩

theorem storesKept_refreshImg (m : Mach) : storesKept m (refreshImg m) := by
  obtain ⟨_, h⟩ := refreshImg_frame m
  rw [h]
  exact .refl m

/-- The registers that `refreshImg` writes. -/
def imgRegs : List Nat := [IMG_STATUS, (IMG_BANK.state 0).reg, (IMG_BANK.state 1).reg, IMG_FW_VER 0, IMG_FW_VER 1]

theorem regsKept_refreshImg (m : Mach) : regsKept imgRegs m (refreshImg m) := by
  intro a ha
  obtain ⟨hstatus, hb0, hb1, hv0, hv1⟩ : a ≠ IMG_STATUS ∧ a ≠ (IMG_BANK.state 0).reg ∧ a ≠ (IMG_BANK.state 1).reg ∧
      a ≠ IMG_FW_VER 0 ∧ a ≠ IMG_FW_VER 1 := by simpa [imgRegs] using ha
  have hbank (k : Nat) (u : Mach) (hb : a ≠ (IMG_BANK.state k).reg) (hv : a ≠ IMG_FW_VER k) (v : W) (x y : Nat) (p : Bool) :
      rd a (wr (IMG_FW_VER k) v (fset (IMG_BANK.state k) x (fset (IMG_BANK.commits k) y (fsetB (IMG_BANK.preferred k) p u)))) = rd a u := by
    rw [rd_wr_other hv, rd_fset_other (f := IMG_BANK.state k) hb, rd_fset_other (f := IMG_BANK.commits k) hb, fsetB,
      rd_fset_other (f := IMG_BANK.preferred k) hb]
  refine (hbank 1 _ hb1 hv1 ..).trans ((hbank 0 _ hb0 hv0 ..).trans ?_)
  rw [rd_fset_other (f := IMG_STATUS.stored_rs) hstatus, rd_fset_other (f := IMG_STATUS.deck_slot) hstatus]

/-! ### The bank -/

/-- The bank of an image that is written: on trial (R486). -/
def writtenBank (l : List Byte) : FwBank := ⟨l, BitVec.ofNat 32 (leAt l 32 4), 2, 0⟩

/-- The state in which image `l` stands in bank `k`. -/
def fwPut (k : Nat) (l : List Byte) (m : Mach) : Mach := setBank k (writtenBank l) (setImg (fun x => { x with fwWrite := none }) m)

/-- The registers show it, and its commit is over. -/
def fwInBank (k : Nat) (l : List Byte) (m : Mach) : Mach := endCommit 0 (refreshImg (fwPut k l m))

theorem getBank_congr {m u : Mach} (h : u.nvm.banks = m.nvm.banks) (j : Nat) : getBank j u = getBank j m := by
  rw [getBank, h, getBank]

theorem getBank_fwPut_same (k : Nat) (l : List Byte) (m : Mach) : getBank k (fwPut k l m) = writtenBank l :=
  tabGet_tabPut_same ..

theorem getBank_fwPut_other {k j : Nat} (h : j ≠ k) (l : List Byte) (m : Mach) : getBank j (fwPut k l m) = getBank j m :=
  tabGet_tabPut_other _ _ _ h

theorem fwWritten_none {m : Mach} (h : m.img.fwWrite = none) : fwWritten m = m := by rw [fwWritten, h]

theorem fwWritten_running {m : Mach} {k : Nat} {l : List Byte} (h : m.img.fwWrite = some (k, l)) (hd : devState m ≠ 2) :
    fwWritten m = fwInBank k l m := by
  rw [fwWritten, h]
  exact if_neg hd

theorem fwWritten_recovery {m : Mach} {k : Nat} {l : List Byte} (h : m.img.fwWrite = some (k, l)) (hd : devState m = 2) :
    fwWritten m = setImg (fun x => { x with trialDue := true }) (softReset 7 (fwInBank k l m)) := by
  rw [fwWritten, h]
  exact if_pos hd

/-- The commit is over, and of the stores only the bank is new. -/
structure FwInBank (k : Nat) (l : List Byte) (m u : Mach) : Prop where
  fwWrite : u.img.fwWrite = none
  sess : u.img.sess = none
  lock : fget IMG_STATUS.lock_src u = 0
  same : getBank k u = writtenBank l
  other : ∀ j, j ≠ k → getBank j u = getBank j m
  device : devState u = devState m
  res : u.res = m.res
  tiles : u.tiles = m.tiles

theorem fwInBank_spec (k : Nat) (l : List Byte) (m : Mach) : FwInBank k l m (fwInBank k l m) := by
  obtain ⟨himg, hlock, _, hregs, hcommit, _, _⟩ := sessionOver_endCommit 0 (refreshImg (fwPut k l m))
  obtain ⟨hres, _, hnvm, htiles⟩ := (storesKept_refreshImg (fwPut k l m)).trans hcommit
  have hshown : (refreshImg (fwPut k l m)).img = { m.img with fwWrite := none } := by
    obtain ⟨_, h⟩ := refreshImg_frame (fwPut k l m)
    rw [h]; rfl
  rw [hshown] at himg
  have hbanks : (fwInBank k l m).nvm.banks = (fwPut k l m).nvm.banks := by rw [fwInBank, hnvm]
  have hstate : rd GCTL_DEV_STATE (fwInBank k l m) = rd GCTL_DEV_STATE m :=
    (hregs GCTL_DEV_STATE (by decide)).trans (regsKept_refreshImg (fwPut k l m) GCTL_DEV_STATE (by decide))
  refine ⟨?_, ?_, hlock, ?_, fun j hj => ?_, fget_of_rd hstate, hres, htiles⟩
  · rw [fwInBank, himg]
  · rw [fwInBank, himg]
  · exact (getBank_congr hbanks k).trans (getBank_fwPut_same k l m)
  · exact (getBank_congr hbanks j).trans (getBank_fwPut_other hj l m)

/-! ### A trial (R488) -/

/-- A reached IMG_CMD tells that the device is powered and no longer in reset. -/
theorem devState_of_reach {m : Mach} (h : reach IMG_CMD m = true) : devState m ≠ 7 ∧ devState m ≠ 0 := by
  constructor
  all_goals
    intro hd
    rw [reach, hd, Bool.and_eq_true] at h
    exact Bool.false_ne_true h.2

theorem devState_setImg (f : ImgSt → ImgSt) (m : Mach) : devState (setImg f m) = devState m := rfl

theorem getBank_setImg (j : Nat) (f : ImgSt → ImgSt) (m : Mach) : getBank j (setImg f m) = getBank j m := rfl

theorem trialReset_restarts {m : Mach} (h : trialBank m ≠ none) :
    trialReset m = setImg (fun x => { x with trialDue := true }) (softReset 7 m) :=
  if_pos (Option.isSome_iff_ne_none.2 h)

/-- The device restarts into its trial image. -/
theorem trialReset_taken {m : Mach} (h : trialBank m ≠ none) (hd : devState m ≠ 7 ∧ devState m ≠ 0) :
    (trialReset m).img.trialDue = true ∧ devState (trialReset m) = 1 ∧ fget GCTL_DEV_STATE.cause (trialReset m) = 7 ∧
      (trialReset m).tiles = [] ∧ (trialReset m).nvm.banks = m.nvm.banks := by
  obtain ⟨hstate, hcause, htiles, -, hbanks⟩ := softReset_resetTo hd (show 7 < 16 by decide)
  rw [trialReset_restarts h]
  exact ⟨rfl, hstate, hcause, htiles, hbanks⟩

/-- A written image of a device in RECOVERY: the device restarts into it. -/
theorem fwWritten_restarts {m : Mach} {k : Nat} {l : List Byte} (h : m.img.fwWrite = some (k, l)) (hd : devState m = 2) :
    (fwWritten m).img.fwWrite = none ∧ (fwWritten m).img.sess = none ∧ (fwWritten m).img.trialDue = true ∧ devState (fwWritten m) = 1 ∧
      ∀ j, getBank j (fwWritten m) = getBank j (fwInBank k l m) := by
  have hdev : devState (fwInBank k l m) = 2 := (fwInBank_spec k l m).device.trans hd
  obtain ⟨hstate, -, -, himg, hbanks⟩ :=
    softReset_resetTo (m := fwInBank k l m) (by rw [hdev]; decide) (show 7 < 16 by decide)
  rw [fwWritten_recovery h hd]
  refine ⟨?_, ?_, rfl, (devState_setImg ..).trans hstate, fun j => (getBank_setImg ..).trans (getBank_congr hbanks j)⟩
  · rw [setImg, himg]
  · rw [setImg, himg]

end Sys2Proof.Machine

/-! SUPPORT. The end of a record migration (R490): the records are in the new format, the firmware version is noted, and what waited for it
is written. -/

namespace Sys2Proof.Machine

/-- The registers that show the migration, its images, the noted version, the reservoir and the tiles are those of `m`. -/
structure MigKept (m u : Mach) : Prop where
  regs : ∀ a ∈ [IMG_STATUS, IMG_EVENTS, IMG_MIG_STATUS], rd a u = rd a m
  img : u.img = m.img
  lastFw : u.nvm.lastFw = m.nvm.lastFw
  res : u.res = m.res
  tiles : u.tiles = m.tiles

theorem MigKept.refl (m : Mach) : MigKept m m := ⟨fun _ _ => rfl, rfl, rfl, rfl, rfl⟩

theorem MigKept.trans {m u v : Mach} (h : MigKept m u) (h' : MigKept u v) : MigKept m v :=
  ⟨fun a ha => (h'.regs a ha).trans (h.regs a ha), h'.img.trans h.img, h'.lastFw.trans h.lastFw, h'.res.trans h.res,
    h'.tiles.trans h.tiles⟩

theorem MigKept.fget {m u : Mach} (h : MigKept m u) {f : Fld} (hf : f.reg ∈ [IMG_STATUS, IMG_EVENTS, IMG_MIG_STATUS]) :
    fget f u = fget f m := fget_of_rd (h.regs f.reg hf)

theorem MigKept.fon {m u : Mach} (h : MigKept m u) {f : Fld} (hf : f.reg ∈ [IMG_STATUS, IMG_EVENTS, IMG_MIG_STATUS]) :
    fon f u = fon f m := by
  rw [Machine.fon, h.fget hf, Machine.fon]

/-- Nothing of it is in a register outside these. -/
theorem migKept_wr {a : Nat} (h : a ∉ [IMG_STATUS, IMG_EVENTS, IMG_MIG_STATUS]) (v : W) (m : Mach) : MigKept m (wr a v m) :=
  ⟨fun b hb => rd_wr_other (fun q : b = a => h (q ▸ hb)) v m, rfl, rfl, rfl, rfl⟩

theorem migKept_fset {f : Fld} (h : f.reg ∉ [IMG_STATUS, IMG_EVENTS, IMG_MIG_STATUS]) (x : Nat) (m : Mach) : MigKept m (fset f x m) :=
  migKept_wr h ..

/-! ### What waited -/

theorem migKept_storeFail (m : Mach) : MigKept m (setEv CAL_EVENTS.store_fail m) := by
  obtain ⟨_, _, _, _, _, _, _, h⟩ := setEv_frame CAL_EVENTS.store_fail m
  refine ⟨fun a ha => regsKept_setEv CAL_EVENTS.store_fail m a ?_, ?_, ?_, ?_, ?_⟩
  · intro hw
    have hdisjoint : ∀ b ∈ [IMG_STATUS, IMG_EVENTS, IMG_MIG_STATUS], b ∉ [CAL_EVENTS, HLT_LOG_WPTR, HLT_EVENTS] := by decide
    exact hdisjoint a ha hw
  all_goals rw [h]

theorem migKept_storeRegs {m : Mach} (h : fon IMG_STATUS.migrating m = false) (l : List Nat) : MigKept m (storeRegs l m) := by
  rw [storeRegs, if_neg (by rw [h]; decide)]
  split
  · exact migKept_storeFail m
  · split
    · exact .refl m
    · exact ⟨fun _ _ => rfl, rfl, rfl, rfl, rfl⟩

theorem migKept_storeCal {m : Mach} (h : fon IMG_STATUS.migrating m = false) : MigKept m (storeCal m) := by
  rw [storeCal, if_neg (by rw [h]; decide)]
  have hregs := migKept_storeRegs h ((List.range 1024).map CAL_PATH)
  split
  · exact .refl m
  · dsimp only
    split
    · split
      · exact hregs
      · exact hregs.trans ⟨fun _ _ => rfl, rfl, rfl, rfl, rfl⟩
    · exact hregs

theorem migKept_sendNat (k : Nat) (b : NatBody) (m : Mach) : MigKept m (sendNat k b m) := by
  obtain ⟨_, _, h⟩ := sendNat_frame k b m
  rw [h]
  exact ⟨fun _ _ => rfl, rfl, rfl, rfl, rfl⟩

theorem migKept_refreshSnap (m : Mach) : MigKept m (refreshSnap m) :=
  (migKept_fset (f := DIR_SNAP_STATUS.valid_b) (by decide) _ m).trans <|
    (migKept_fset (f := DIR_SNAP_STATUS.valid_a) (by decide) _ _).trans <|
      (migKept_fset (f := DIR_SNAP_STATUS.newest) (by decide) _ _).trans <|
        (migKept_wr (a := DIR_SNAP_TC_HI) (by decide) _ _).trans (migKept_wr (a := DIR_SNAP_TC_LO) (by decide) _ _)

theorem migKept_snapStart {m : Mach} (h : fon IMG_STATUS.migrating m = false) : MigKept m (snapStart m) := by
  rw [snapStart, if_neg (by rw [h]; decide)]
  have hslot : MigKept m (setSnap (snapSlot m) none { m with dir := { m.dir with snapQ := false } }) :=
    ⟨fun _ _ => rfl, rfl, rfl, rfl, rfl⟩
  exact (hslot.trans (migKept_fset (f := DIR_SNAP_STATUS.state) (by decide) 1 _)).trans (migKept_refreshSnap _)

theorem migKept_snapGo {m : Mach} (h : fon IMG_STATUS.migrating m = false) : MigKept m (snapGo m) := by
  have hnone : MigKept m { m with dir := { m.dir with snapAns := none } } := ⟨fun _ _ => rfl, rfl, rfl, rfl, rfl⟩
  have hstart : MigKept m (snapStart { m with dir := { m.dir with snapAns := none } }) := hnone.trans (migKept_snapStart h)
  unfold snapGo
  split
  · dsimp only
    split
    · exact hstart.trans (migKept_sendNat ..)
    · exact hstart
  · exact .refl m

/-! ### The records -/

/-- The records that are old are in the new format, and the firmware's version is noted. -/
def recsMigrated (ver : W) (m : Mach) : Mach :=
  setNvm (fun n => { n with lastFw := ver, history := ((n.lastFw, ver) :: n.history).take 8 }) (each (oldRecs m) migrateRec m)

theorem recsMigrated_frame (ver : W) (m : Mach) : ∃ n, recsMigrated ver m = { m with nvm := n } ∧ n.lastFw = ver := by
  have heach : ∀ (l : List Nat) (u : Mach), ∃ n, each l migrateRec u = { u with nvm := n } := fun l u => by
    induction l generalizing u with
    | nil => exact ⟨u.nvm, rfl⟩
    | cons i l ih => exact ih (migrateRec i u)
  obtain ⟨n, h⟩ := heach (oldRecs m) m
  rw [recsMigrated, h]
  exact ⟨_, rfl, rfl⟩

/-- The registers show that the migration is over. -/
def migShown (m : Mach) : Mach :=
  setEv IMG_EVENTS.mig_done (fset IMG_MIG_STATUS.progress 100 (fset IMG_MIG_STATUS.rec 0 (fset IMG_STATUS.migrating 0 m)))

theorem migrating_migShown (m : Mach) : fon IMG_STATUS.migrating (migShown m) = false := by
  rw [migShown, fon, fget_setEv_other (g := IMG_STATUS.migrating) (by decide) (by decide) (by decide) (by decide),
    fget_fset_other (g := IMG_STATUS.migrating) (by decide) (by decide), fget_fset_other (g := IMG_STATUS.migrating) (by decide) (by decide)]
  exact fon_fset_zero (f := IMG_STATUS.migrating) (by decide) m

theorem migDone_migShown (m : Mach) : fon IMG_EVENTS.mig_done (migShown m) = true := fon_setEv rfl (by decide) (by decide) (by decide) _

theorem progress_migShown (m : Mach) : fget IMG_MIG_STATUS.progress (migShown m) = 100 := by
  rw [migShown, fget_setEv_other (g := IMG_MIG_STATUS.progress) (by decide) (by decide) (by decide) (by decide),
    fget_fset_same (f := IMG_MIG_STATUS.progress) (by decide)]
  rfl

/-- Nothing waits for the migration any more. -/
def migOver (ver : W) (m : Mach) : Mach :=
  setImg (fun x => { x with storeQ := [], calWait := false }) (migShown (recsMigrated ver m))

/-- The migration is over in `u`, its firmware version is `ver`; reservoir and tiles are those of `m`. -/
structure Migrated (ver : W) (m u : Mach) : Prop where
  migrating : fon IMG_STATUS.migrating u = false
  done : fon IMG_EVENTS.mig_done u = true
  progress : fget IMG_MIG_STATUS.progress u = 100
  lastFw : u.nvm.lastFw = ver
  storeQ : u.img.storeQ = []
  calWait : u.img.calWait = false
  res : u.res = m.res
  tiles : u.tiles = m.tiles

theorem Migrated.of_kept {ver : W} {m u v : Mach} (h : Migrated ver m u) (hk : MigKept u v) : Migrated ver m v where
  migrating := (hk.fon (f := IMG_STATUS.migrating) (by decide)).trans h.migrating
  done := (hk.fon (f := IMG_EVENTS.mig_done) (by decide)).trans h.done
  progress := (hk.fget (f := IMG_MIG_STATUS.progress) (by decide)).trans h.progress
  lastFw := hk.lastFw.trans h.lastFw
  storeQ := by rw [hk.img, h.storeQ]
  calWait := by rw [hk.img, h.calWait]
  res := hk.res.trans h.res
  tiles := hk.tiles.trans h.tiles

theorem migrated_migOver (ver : W) (m : Mach) : Migrated ver m (migOver ver m) := by
  obtain ⟨n, hrecs, hver⟩ := recsMigrated_frame ver m
  obtain ⟨hres, -, hnvm, htiles⟩ := storesKept_setEv IMG_EVENTS.mig_done
    (fset IMG_MIG_STATUS.progress 100 (fset IMG_MIG_STATUS.rec 0 (fset IMG_STATUS.migrating 0 (recsMigrated ver m))))
  refine ⟨migrating_migShown (recsMigrated ver m), migDone_migShown (recsMigrated ver m), progress_migShown (recsMigrated ver m), ?_, rfl, rfl,
    hres.trans ?_, htiles.trans ?_⟩
  · refine (congrArg Nvm.lastFw hnvm).trans ?_
    rw [hrecs]
    exact hver
  all_goals rw [hrecs]; rfl

theorem migrationDone_idle {m : Mach} (h : fon IMG_STATUS.migrating m = false) : migrationDone m = m := if_neg (by rw [h]; decide)

/-- R490: the end of a migration; what waited is written behind it. -/
theorem migrationDone_migrated {m : Mach} (h : fon IMG_STATUS.migrating m = true) :
    Migrated (getBank (fget IMG_STATUS.running_bank m) m).ver m (migrationDone m) := by
  have hover := migrated_migOver (getBank (fget IMG_STATUS.running_bank m) m).ver m
  have hregs : Migrated (getBank (fget IMG_STATUS.running_bank m) m).ver m (if m.img.storeQ.isEmpty then
      migOver (getBank (fget IMG_STATUS.running_bank m) m).ver m
      else storeRegs m.img.storeQ (migOver (getBank (fget IMG_STATUS.running_bank m) m).ver m)) := by
    split
    · exact hover
    · exact hover.of_kept (migKept_storeRegs hover.migrating _)
  unfold migrationDone
  rw [if_pos h]
  extract_lets ver m1 m2 m3 m4 m5
  have h4 : Migrated ver m m4 := hregs
  have h5 : Migrated ver m m5 := by
    change Migrated ver m (if m.img.calWait then storeCal m4 else m4)
    split
    · exact h4.of_kept (migKept_storeCal h4.migrating)
    · exact h4
  exact h5.of_kept (migKept_snapGo h5.migrating)

end Sys2Proof.Machine

/-! SUPPORT. A reshuffle at its boundary (R482, R483): what a refused one leaves, and that one which applies sets load_done. -/

namespace Sys2Proof.Machine

theorem reshDue_iff (t : Nat) (m : Mach) : reshDue t m = true ↔ ∃ r, m.img.resh = some r ∧ r.notBefore ≤ t := by
  unfold reshDue
  split
  · next r h => simp [h]
  · next h => simp [h]

theorem exec_reshuffleApply (s : State) : exec .reshuffleApply s = .next (s.withM (reshBoundary s.m)) := rfl

theorem reshBoundary_idle {m : Mach} (h : timingOn m = false ∨ reshDue (nextSlot m).2 m = false) : reshBoundary m = m := by
  refine if_neg fun hdue => ?_
  obtain ⟨hon, hd⟩ := hdue
  rcases h with h | h
  · exact Bool.false_ne_true (h.symm.trans hon)
  · exact Bool.false_ne_true (h.symm.trans hd)

/-- The boundary at which it is due ends the wait. -/
theorem reshOver_reshBoundary {r : Resh} {m : Mach} (hon : timingOn m = true) (hr : m.img.resh = some r)
    (hdue : r.notBefore ≤ (nextSlot m).2) : reshOver (nextSlot m).2 (reshBoundary m) := by
  rw [show reshBoundary m = boundary m from if_pos ⟨hon, (reshDue_iff ..).2 ⟨r, hr, hdue⟩⟩]
  exact reshOver_boundary hr hdue

/-! ### The queue of planned substitutions behind it -/

theorem pumpPlanned_none {m : Mach} (h : m.hlt.waiting = []) : pumpPlanned m = m := by
  unfold pumpPlanned
  split
  · next hw => rw [h] at hw; cases hw
  · rfl

theorem regsKept_pumpPlanned (m : Mach) : regsKept [HLT_STATUS] m (pumpPlanned m) := by
  have htrick (u : RxUnit) : (wantTrick u m).regs = m.regs := by
    unfold wantTrick
    split <;> rfl
  unfold pumpPlanned
  split
  · split
    · exact fun _ _ => rfl
    · next r l _ _ _ =>
      dsimp only
      intro a ha
      have hne : a ≠ HLT_STATUS := fun q => ha (List.mem_singleton.2 q)
      refine (rd_fset_other (f := HLT_STATUS.remap_busy) hne ..).trans ?_
      split
      · exact congrArg (tabGet regReset · a) (htrick _)
      · split
        · exact congrArg (tabGet regReset · a) (htrick _)
        · rfl
  · exact fun _ _ => rfl

/-! ### Its outcomes -/

section
variable {r : Resh} {m : Mach} (hr : m.img.resh = some r) (hdue : r.notBefore ≤ m.slotStart)
include hr hdue

theorem reshuffle_refusedState {e : ImgErr} (h : reshState r.bytes (reshTaken m) = some e) :
    reshuffle applyStaged m = pumpPlanned (reshRefused e (reshTaken m)) := by
  have hd : reshDue m.slotStart m = true := (reshDue_iff ..).2 ⟨r, hr, hdue⟩
  rw [reshuffle, hr]
  dsimp only
  rw [if_pos hd]
  change reshState r.bytes (fset IMG_STATUS.reshuf_pending 0 (setImg (fun x => { x with resh := none }) m)) = some e at h
  rw [h]
  rfl

theorem reshuffle_refusedSects {e : ImgErr} (h : reshState r.bytes (reshTaken m) = none)
    (ha : reshApply applyStaged r.bytes (reshTaken m) = .error e) :
    reshuffle applyStaged m = pumpPlanned (reshRefused e (reshTaken m)) := by
  have hd : reshDue m.slotStart m = true := (reshDue_iff ..).2 ⟨r, hr, hdue⟩
  rw [reshuffle, hr]
  dsimp only
  rw [if_pos hd]
  change reshState r.bytes (fset IMG_STATUS.reshuf_pending 0 (setImg (fun x => { x with resh := none }) m)) = none at h
  change reshApply applyStaged r.bytes (fset IMG_STATUS.reshuf_pending 0 (setImg (fun x => { x with resh := none }) m)) = .error e at ha
  rw [h, ha]
  rfl

theorem reshuffle_applies {m2 : Mach} (h : reshState r.bytes (reshTaken m) = none)
    (ha : reshApply applyStaged r.bytes (reshTaken m) = .ok m2) :
    reshuffle applyStaged m = pumpPlanned (endCommit 0 (if r.store then storeResh r.bytes m2 else m2)) := by
  have hd : reshDue m.slotStart m = true := (reshDue_iff ..).2 ⟨r, hr, hdue⟩
  rw [reshuffle, hr]
  dsimp only
  rw [if_pos hd]
  change reshState r.bytes (fset IMG_STATUS.reshuf_pending 0 (setImg (fun x => { x with resh := none }) m)) = none at h
  change reshApply applyStaged r.bytes (fset IMG_STATUS.reshuf_pending 0 (setImg (fun x => { x with resh := none }) m)) = .ok m2 at ha
  rw [h, ha]

end

/-- A reshuffle that is refused with `e`: the lock is free, nothing waits, the stores are those of `m`. -/
structure ReshRefused (e : ImgErr) (m u : Mach) : Prop where
  event : fon IMG_EVENTS.reshuf_refused u = true
  err : rd IMG_LOAD_ERR u = errWord e
  pending : fon IMG_STATUS.reshuf_pending u = false
  resh : u.img.resh = none
  stores : storesKept m u

theorem reshRefused_spec {e : ImgErr} {m : Mach} (hw : m.hlt.waiting = []) : ReshRefused e m (pumpPlanned (reshRefused e (reshTaken m))) := by
  have hrefused := refused_setEv (f := IMG_EVENTS.reshuf_refused) rfl rfl (by decide) e (reshTaken m)
  obtain ⟨hevent, herr, himg, -, hpending, hstores, hhlt⟩ := hrefused.over rfl (sessionOver_result (lockSrc (reshTaken m)) e.code _)
  have hwaiting : (reshRefused e (reshTaken m)).hlt.waiting = [] := (congrArg HltSt.waiting hhlt).trans hw
  rw [pumpPlanned_none hwaiting]
  refine ⟨hevent, herr, ?_, congrArg ImgSt.resh himg, hstores⟩
  obtain ⟨-, hbit, -⟩ := reshOver_reshTaken m
  rw [← fon_reshufPending] at hbit
  exact (congrArg (fun x : Nat => x != 0) hpending).trans hbit

theorem loadDone_reshApply {stg : Mach → Mach} {l : List Byte} {m u : Mach} (h : reshApply stg l m = .ok u) :
    fon IMG_EVENTS.load_done u = true := by
  unfold reshApply at h
  dsimp only at h
  split at h
  · cases h
  · split at h
    · cases h
    · split at h
      · cases h
      · obtain rfl := Except.ok.inj h
        exact fon_setEv rfl (by decide) (by decide) (by decide) _

theorem fon_storeResh {f : Fld} (hf : f.reg ∉ imgRegs) (l : List Byte) (m : Mach) : fon f (storeResh l m) = fon f m :=
  (regsKept_refreshImg _).fon hf

/-- A reshuffle that applies sets load_done and ends its session. -/
theorem reshuffle_done {r : Resh} {m m2 : Mach} (hr : m.img.resh = some r) (hdue : r.notBefore ≤ m.slotStart)
    (h : reshState r.bytes (reshTaken m) = none) (ha : reshApply applyStaged r.bytes (reshTaken m) = .ok m2) :
    fon IMG_EVENTS.load_done (reshuffle applyStaged m) = true ∧ (reshuffle applyStaged m).img.sess = none := by
  rw [reshuffle_applies hr hdue h ha]
  have hover := sessionOver_endCommit 0 (if r.store then storeResh r.bytes m2 else m2)
  have hstored : fon IMG_EVENTS.load_done (if r.store then storeResh r.bytes m2 else m2) = true := by
    split
    · exact (fon_storeResh (f := IMG_EVENTS.load_done) (by decide) ..).trans (loadDone_reshApply ha)
    · exact loadDone_reshApply ha
  constructor
  · refine ((regsKept_pumpPlanned _).fon (f := IMG_EVENTS.load_done) (by decide)).trans ?_
    exact (hover.fon (f := IMG_EVENTS.load_done) (.inl (by decide))).trans hstored
  · obtain ⟨_, _, _, _, hframe, -⟩ := pumpPlanned_frame (endCommit 0 (if r.store then storeResh r.bytes m2 else m2))
    rw [hframe, hover.img]

end Sys2Proof.Machine

/-! SUPPORT. The image commands and events together (R472, R480 to R494). -/

namespace Sys2Proof.Machine

/-! ### The commands of IMG_CMD -/

/-- The bytes that a message of a push carries. -/
def pushedBytes : OutMsg → List Byte
  | .twinXfer (.data _ b) => b
  | _ => []

theorem flatMap_pieceMsgs (l : List Byte) : ((pieces (l.length / 4096 + 1) 0 l).map pieceMsg).flatMap pushedBytes = l := by
  rw [List.flatMap_map]
  exact flatMap_pieces (by omega)

/-- An image that is pushed to the twin: its opening, its bytes in order and a commit. -/
def Pushed (n : BitVec 2) (l : List Byte) (m u : Mach) : Prop :=
  ∃ ds, u.out = m.out ++ [.twinXfer (.open_ n)] ++ ds ++ [.twinXfer (.commit true)] ∧ ds.flatMap pushedBytes = l ∧
    u.regs = m.regs ∧ storesKept m u

theorem pushImage_pushed (n : BitVec 2) (l : List Byte) (m : Mach) : Pushed n l m (pushImage n.toNat l m) := by
  rw [pushImage_eq, BitVec.ofNat_toNat, BitVec.setWidth_eq]
  exact ⟨_, rfl, flatMap_pieceMsgs l, rfl, .refl m⟩

/-- What a refusal for the state answers (R488, R493). -/
theorem refuseImg_leaves {e : ImgErr} {m u : Mach} (h : u = refuseImg e m) :
    fon IMG_EVENTS.load_refused u = true ∧ rd IMG_LOAD_ERR u = errWord e ∧ u.img = m.img ∧ storesKept m u := by
  obtain ⟨hevent, herr, -, himg, hstores, -, -⟩ := refused_refuseImg e m
  rw [h]
  exact ⟨hevent, herr, himg, hstores⟩

theorem exec_fwBankWritten (s : State) : exec .fwBankWritten s = .next (s.withM (fwWritten s.m)) := rfl

theorem exec_migrationDone (s : State) : exec .migrationDone s = .next (s.withM (migrationDone s.m)) := rfl

/-- A written image is its bank's trial image; a device in RECOVERY restarts into it, another's commit is over. -/
theorem fwWritten_leaves {m : Mach} {k : Nat} {l : List Byte} (h : m.img.fwWrite = some (k, l)) :
    (fwWritten m).img.fwWrite = none ∧ (fwWritten m).img.sess = none ∧ getBank k (fwWritten m) = writtenBank l ∧
      (∀ j, j ≠ k → getBank j (fwWritten m) = getBank j m) ∧
      (devState m = 2 → devState (fwWritten m) = 1 ∧ (fwWritten m).img.trialDue = true) ∧
      (devState m ≠ 2 → fget IMG_STATUS.lock_src (fwWritten m) = 0 ∧ (fwWritten m).res = m.res ∧ (fwWritten m).tiles = m.tiles) := by
  obtain ⟨hwrite, hsess, hlock, hsame, hother, -, hres, htiles⟩ := fwInBank_spec k l m
  by_cases hd : devState m = 2
  · obtain ⟨hwrite', hsess', htrial, hboot, hbank⟩ := fwWritten_restarts h hd
    exact ⟨hwrite', hsess', (hbank k).trans hsame, fun j hj => (hbank j).trans (hother j hj), fun _ => ⟨hboot, htrial⟩,
      fun hn => absurd hd hn⟩
  · rw [fwWritten_running h hd]
    exact ⟨hwrite, hsess, hsame, hother, fun h2 => absurd h2 hd, fun _ => ⟨hlock, hres, htiles⟩⟩

/-- Settles O60. A push sends its image in pieces and commits them (assumption 72); RESHUFFLE_APPLY stands for the boundary that it
names (assumption 104); a written bank begins with no commit, and the noted version is the running bank's (assumption 75). -/
theorem imagesReachBanksTwinsAndRecords : Obligations.ImagesReachBanksTwinsAndRecords := by
  intro s
  have hstay {c : Instr} {g : Mach → Mach} (hexec : exec c s = .next (s.withM (g s.m))) (h : g s.m = s.m) : exec c s = .next s :=
    hexec.trans (congrArg (fun u => Host.Outcome.next (s.withM u)) h)
  refine ⟨fun h t v => exec_imgCmds_blocked h t v, fun hreach => ?commands, fun h => hstay (exec_imgLockTimeout s) (lockTimeout_idle h),
    fun hsrc hsess => ⟨_, exec_imgLockTimeout s, lockTimeout_ends hsrc hsess⟩,
    fun h x => hstay (exec_twinSourceTransfer x s) (twinXfer_blocked h x), fun htwin => ?transfer,
    fun h => hstay (exec_reshuffleApply s) (reshBoundary_idle h), fun t => reshDue_iff t s.m,
    fun r hr => ⟨fun hon hdue => ?boundary, fun hdue hw => ?outcome⟩,
    fun h => hstay (exec_fwBankWritten s) (fwWritten_none h), fun k l h => ⟨_, exec_fwBankWritten s, fwWritten_leaves h⟩,
    fun h => hstay (exec_migrationDone s) (migrationDone_idle h), fun h => ?migrated⟩
  case commands =>
    have hpush (t : BitVec 2) : exec (.pushTwin t) s = .next (s.withM (pushTwin t.toNat s.m)) := exec_pushTwin hreach t
    refine ⟨fun v => ⟨fun hv => ?key, fun hv => ?none⟩, fun hb => ?noTrial, fun hb => ⟨_, exec_trialReset hreach, ?trial⟩,
      fun hok => ?handover, fun hok => ?noHandover, fun t ht => ?noPush, fun hl => ⟨_, hpush 2#2, ?firmware⟩, fun hl hslot => ?noDeck,
      fun d hl hslot hresh => ⟨_, hpush 0#2, ?deck⟩⟩
    case key => exact (exec_imgCmdInvalid hreach v).trans (by rw [imgCmd_refused hv])
    case none => exact hstay (exec_imgCmdInvalid hreach v) (by rw [hv, imgCmd_none])
    case noTrial =>
      obtain ⟨hevent, herr, -, hstores⟩ := refuseImg_leaves (trialReset_refused hb)
      exact ⟨_, exec_trialReset hreach, hevent, herr, hstores⟩
    case trial => exact trialReset_taken hb (devState_of_reach hreach)
    case handover => exact (exec_puntyHandover hreach).trans (by rw [puntyHandover_taken hok])
    case noHandover => exact ⟨_, exec_puntyHandover hreach, refuseImg_leaves (puntyHandover_refused hok)⟩
    case noPush =>
      have hkind : ¬ twinLinked 1 s.m ∨ t.toNat = 1 ∨ t.toNat = 3 :=
        ht.imp id (Or.imp (fun h => by rw [h]; rfl) (fun h => by rw [h]; rfl))
      exact (hpush t).trans (by rw [pushTwin_refused hkind])
    case firmware =>
      rw [show pushTwin (2#2).toNat s.m = pushImage (2#2).toNat (runningFw s.m) s.m from pushTwin_firmware hl]
      exact pushImage_pushed 2#2 (runningFw s.m) s.m
    case noDeck => exact (hpush 0#2).trans (by rw [show pushTwin (0#2).toNat s.m = _ from pushTwin_noDeck hl hslot])
    case deck =>
      rw [show pushTwin (0#2).toNat s.m = pushImage (0#2).toNat d.bytes s.m from pushTwin_deck hl hslot hresh]
      exact pushImage_pushed 0#2 d.bytes s.m
  case transfer =>
    have hsend (x : TwinXfer) : exec (.twinSourceTransfer x) s = .next (s.withM (twinXfer x s.m)) := exec_twinSourceTransfer x s
    refine ⟨fun t => ⟨fun hlock => ?busy, fun hlock ht => ⟨_, hsend (.open_ t), ?opened⟩⟩,
      fun o l => ⟨fun h => ?unheld, fun f h hf => ⟨fun ho => ?gap, fun ho => ⟨_, hsend (.data o l), ?next⟩⟩⟩,
      fun h b => ⟨?noAbort, ?noCommit⟩, fun h => ⟨_, hsend .abort, ?abort⟩, fun b f e h hf he => ⟨_, hsend (.commit b), ?refused⟩⟩
    case busy => exact (hsend (.open_ t)).trans (by rw [twinXfer_open htwin, openSess_busy hlock])
    case opened =>
      have h3 : t.toNat < 3 := by
        have hne : t.toNat ≠ 3 := fun q => ht (BitVec.eq_of_toNat_eq q)
        omega
      rw [twinXfer_open htwin, openSess_taken hlock h3 (devState_ne_two_of_timingOn htwin.2.1)]
      exact ⟨rfl, twinOpened_lockSrc t.toNat s.m, twinOpened_target (by omega) s.m, storesKept_twinOpened t.toNat s.m⟩
    case unheld => exact hstay (hsend (.data o l)) ((twinXfer_data htwin o l).trans (placeBytes_unheld h _ _))
    case gap => exact hstay (hsend (.data o l)) ((twinXfer_data htwin o l).trans (placeBytes_gap h hf ho l))
    case next =>
      rw [twinXfer_data htwin, placeBytes_next h hf ho]
      exact ⟨addBytes_sess hf l, rfl, .refl s.m⟩
    case noAbort => exact hstay (hsend .abort) ((twinXfer_abort htwin).trans (twinUnheld h b).1)
    case noCommit => exact hstay (hsend (.commit b)) ((twinXfer_commit htwin b).trans (twinUnheld h b).2)
    case abort =>
      obtain ⟨himg, hlock, -, -, hstores, -, -⟩ := abortSess_twin h
      rw [twinXfer_abort htwin, himg]
      exact ⟨rfl, hlock, hstores⟩
    case refused =>
      obtain ⟨hevent, herr, himg, -, -, hstores, -⟩ := (refused_refuseImg e s.m).over rfl (sessionOver_refuseCommit e s.m)
      rw [twinXfer_commit htwin, commitSess_refused (x := srcTwin) b h hf he, himg]
      exact ⟨rfl, hevent, herr, hstores⟩
  case boundary =>
    obtain ⟨hresh, hbit, hstart⟩ := reshOver_reshBoundary hon hr hdue
    exact ⟨_, exec_reshuffleApply s, hresh, (fon_reshufPending _).trans hbit, hstart⟩
  case outcome =>
    refine ⟨fun e he => ?state, fun e hn ha => ?sects, fun m2 hn ha => reshuffle_done hr hdue hn ha⟩
    case state =>
      obtain ⟨hevent, herr, hpending, hresh, hstores⟩ := reshRefused_spec (e := e) hw
      rw [reshuffle_refusedState hr hdue he]
      exact ⟨hevent, herr, hpending, hresh, hstores⟩
    case sects =>
      obtain ⟨hevent, herr, -, hresh, hstores⟩ := reshRefused_spec (e := e) hw
      rw [reshuffle_refusedSects hr hdue hn ha]
      exact ⟨hevent, herr, hresh, hstores⟩
  case migrated =>
    obtain ⟨hmig, hdone, hprogress, hver, hqueue, hcal, hres, htiles⟩ := migrationDone_migrated h
    exact ⟨_, exec_migrationDone s, hmig, hdone, hprogress, hver, hqueue, hcal, hres, htiles⟩

end Sys2Proof.Machine
